-- ==== Sys2Proof/Word.lean ====
section
/-!
DEFINITION. The word types of the GL-3208 model: a register word (R450), a 64-bit link word or table entry (R69, R452)
and a byte.
-/
namespace Sys2Proof

/-- A 32-bit register word (R450). -/
abbrev Word := BitVec 32

/-- A 64-bit word: a link data word (R69), a table entry (R452). -/
abbrev DWord := BitVec 64

/-- A byte. -/
abbrev Byte := BitVec 8

end Sys2Proof
end

