-- ==== Sys2Proof/Machine/PartsSys.lean ====
section
/-!
DEFINITION. State of the unit's own blocks that no register shows: memory (14), configuration and security (15) and the Torol ring
(16).
-/
namespace Sys2Proof.Machine

/-- Ring discipline beside its registers (R31 to R34). -/
structure TckS where
  /-- the servo tick of the last frame boundary, or of the setting of DISC_EN -/
  since : Nat := 0
  /-- frames in a row with |e| <= 1 and with |e| > 4 -/
  inRun : Nat := 0
  outRun : Nat := 0
  /-- the ticks at the end of the frame whose divider is 124 (counted positive) or 126 (negative), and the tick that begins that
  frame -/
  slew : Int := 0
  slewFor : Nat := 0
  /-- SYSCLK cycles of the present servo tick (R29) -/
  div : Nat := 125
  /-- servo ticks to come that repeat ticks after a phase step; the present tick is one of them (R33) -/
  repeats : Nat := 0
  repeated : Bool := false
  deriving DecidableEq, Repr

/-- A running DRAM scrub pass (R337, R338): first and last line, whether STOP was written. -/
structure ScrubS where
  first : Nat
  last : Nat
  stop : Bool := false
  deriving DecidableEq, Repr

/-- A valid line of the lode cache (R340): way, set, tag, dirty, age, its 64 bytes. -/
structure CacheLine where
  way : Nat
  set : Nat
  tag : Nat
  dirty : Bool := false
  age : Nat := 0
  data : List Nat
  deriving DecidableEq, Repr

/-- The lode cache beside its registers: its valid lines, ordered by way and set; the counts of the running operation, which
LCA_OP_STATUS shows at its end: affected, skipped (R346). -/
structure LcaS where
  lines : List CacheLine := []
  result : Nat × Nat := (0, 0)
  deriving DecidableEq, Repr

/-- The memory block (R323 to R339). -/
structure MemS where
  /-- data bytes of DRAM by address; an unlisted byte is 0 -/
  dram : List Host.Cell := []
  /-- check bytes of DRAM lines, XORed with the check bytes computed from the data (R325): address 16 x line + byte; an
  unlisted one is 0, that is, the right check byte -/
  chk : List Host.Cell := []
  /-- table entries stored with a check byte other than the computed one (R328, R339): entry address, check byte -/
  badChk : List (Nat × Nat) := []
  /-- the assembly register of table writes: entry address, low word (R331) -/
  asm : Option (Nat × Nat) := none
  /-- the latched high half: entry address, word (R331) -/
  latch : Option (Nat × Nat) := none
  /-- rows with a spare row switched in: macro, row (R329, R423) -/
  repaired : List (Nat × Nat) := []
  scrub : Option ScrubS := none
  lca : LcaS := {}
  deriving DecidableEq, Repr

/-! ### Configuration and security (15) -/

/-- An item of a PLACE, WIRE or SET clause: ID and VALUE (R362, R363, R365). -/
abbrev CfgItem := Nat × Nat

/-- A clause of an image's sentence (R359 to R365): subject kind, INDEX (0xFFFF for every instance), items; a LOAD has its
OFFSET and its entries; an END. A clause whose header, CRC or length does not parse, or whose verb is unknown, is `broken`. -/
inductive Clause where
  | place (subject index : Nat) (items : List CfgItem)
  | wire (subject index : Nat) (items : List CfgItem)
  | load (subject index offset : Nat) (entries : List Nat)
  | set (subject index : Nat) (items : List CfgItem)
  | fin
  | broken
  deriving DecidableEq, Repr

/-- An image as the checks of R367 find it in its stored bytes: the flash responds; step 2 passes; key slot; the signature verifies; the key
unwraps; the number of clauses that lie wholly before the first segment whose tag fails, when one does; the digest of the
plaintext is right; DRAM trains under the image's parameters; header and sentence fields; image digest; clauses. -/
structure Image where
  flashOk : Bool := true
  headerOk : Bool := true
  keySlot : Nat := 0
  sigOk : Bool := true
  unwrapOk : Bool := true
  tagFail : Option Nat := none
  digestOk : Bool := true
  dramOk : Bool := true
  imageVer : Nat := 0
  svn : Nat := 0
  epoch : Nat := 0
  digest : Nat := 0
  nclause : Nat := 0
  sentEpoch : Nat := 0
  clauses : List Clause := []
  deriving DecidableEq, Repr

/-- A boot record: counter and its 256 bytes (R370). -/
structure BootRec where
  ctr : Nat
  bytes : List Nat
  deriving DecidableEq, Repr

/-- The fuse bank (R351): serial, subsystem identifiers, the four key digests, REVOKE, SVN_FUSE, LIFECYCLE, the rows that
REPAIR_MAP assigns spare rows to as (macro, row), and the two secret fields.
DESIGN CHOICE, unsafe: log 7. -/
structure FuseS where
  serial : Nat := 1
  subsys : Nat := 0
  keys : List Nat := [1, 0, 0, 0]
  revoke : Nat := 0
  svn : Nat := 0
  lifecycle : Nat := 0x5A
  repair : List (Nat × Nat) := []
  kek : Nat := 0
  idSeed : Nat := 0
  deriving DecidableEq, Repr

/-- The staging descriptor (R377): key slot, pieces in the image, epoch, image tag, slot copied to. -/
structure StageDesc where
  keySlot : Nat
  count : Nat
  epoch : Nat
  tag : Nat
  copied : Option Nat := none
  deriving DecidableEq, Repr

/-- What the device itself keeps in the configuration flash (R354, R355, R371, R376, R377): the two descriptor copies as (SEQ,
ACTIVE), none when a copy is not valid; the staging descriptor and the marked pieces, rising; the boot log's records, newest
first. The flash survives every reset. -/
structure FlashS where
  copy0 : Option (Nat × Nat) := none
  copy1 : Option (Nat × Nat) := none
  stage : Option StageDesc := none
  marked : List Nat := []
  log : List BootRec := []
  deriving DecidableEq, Repr

/-- A load in progress (R367, R409): the CAUSE its boot record will carry, and whether it only verifies. -/
structure LoadS where
  cause : Nat
  verifyOnly : Bool := false
  deriving DecidableEq, Repr

/-- A piece that has arrived (R374, R375): its 4,096 bytes, whether its signature verifies under its key, and the CONFIG PIECE
command that brought it, none for a ring piece. -/
structure PieceJob where
  bytes : List Nat
  sigOk : Bool
  pos : Option Nat := none
  deriving DecidableEq, Repr

/-- A field-fuse command in progress (R352). -/
inductive FuseOp where
  | svn
  | revoke (slot : Nat)
  deriving DecidableEq, Repr

/-- Configuration and security beside its registers. -/
structure CfgS where
  fuses : FuseS := {}
  flash : FlashS := {}
  load : Option LoadS := none
  /-- the image that is running -/
  image : Option Image := none
  /-- the CAUSE of a boot record that is to be signed, and the record it follows (R371, R372) -/
  recordDue : Option Nat := none
  prev : Option BootRec := none
  /-- the current record (R372) -/
  current : Option BootRec := none
  /-- pieces that wait, in arrival order; the one that is being programmed (R374, R376) -/
  pieces : List PieceJob := []
  piece : Option PieceJob := none
  /-- SVN of the staged image, once it has verified -/
  stageSvn : Nat := 0
  /-- the CONFIG ARM command whose preparation runs (R380) -/
  arming : Option Nat := none
  /-- the standby plane (R380) -/
  standby : Option Image := none
  /-- ring time of the last shift applied (R396) -/
  lastShift : Nat := 0
  /-- the tables are being copied after a shift (R382) -/
  copying : Bool := false
  fuse : Option FuseOp := none
  deriving DecidableEq, Repr

/-! ### Calibration and sensors (17) -/

/-- A sensor beside its register (R419, R420): its last sample in 1/8 degrees C, samples in a row with the same code, samples in
a row at or above CRIT; whether a reading has come since PEAK was read. -/
structure SensorS where
  last : Option Int := none
  same : Nat := 0
  crit : Nat := 0
  peaked : Bool := false
  deriving DecidableEq, Repr

/-- A region beside its registers (R421): temperature at the start of the run in 1/8 degrees C, and the units still to be
accepted with how often each was rejected in this run. Units 0 to 31 are the lanes of the deck, 32 to 40 its converters; the
ring transmitter and the reference are units 0 of their regions. -/
structure RegionS where
  start : Int := 0
  left : List (Nat × Nat) := []
  deriving DecidableEq, Repr

/-- The trims of a unit (R421): offset, and equalisation, swing or gain code. -/
structure TrimS where
  ofs : Int := 0
  code : Int := 0
  deriving DecidableEq, Repr

/-- Calibration: sensors, regions, the trims of unit u of region i at 41 i + u; the converters of a deck: the spare, the one that
serves input j of deck d at 8 d + j, the input whose converter is replaced next (R162, R421).
DESIGN CHOICE, unsafe: log 70. -/
structure CalS where
  sensors : Vector SensorS 16 := Vector.replicate 16 {}
  regions : Vector RegionS 16 := Vector.replicate 16 {}
  trims : Vector TrimS 656 := Vector.replicate 656 {}
  spare : Vector Nat 8 := Vector.replicate 8 8
  conv : Vector Nat 64 := Vector.ofFn fun k => k.val % 8
  turn : Vector Nat 8 := Vector.replicate 8 0
  /-- THERM_WARN has been raised and not every sensor has fallen since (R420) -/
  warned : Bool := false
  deriving DecidableEq, Repr

/-! ### The ring (16) -/

/-- A message of the ring (R397, R398): KIND, DEST, SRC and its data words. -/
structure RingMsg where
  kind : Nat
  dest : Nat
  src : Nat
  words : List Nat
  deriving DecidableEq, Repr

/-- What a message in the ring was sent for: TRL_TX_DATA, a shift request, an exclusion request. -/
inductive TxFor where
  | data | shift | exclude
  deriving DecidableEq, Repr

/-- A message of this unit: not yet in a slot, or in the ring since a servo tick (R397). -/
structure TxMsg where
  why : TxFor
  msg : RingMsg
  sentAt : Option Nat := none
  deriving DecidableEq, Repr

/-- The headframe's part of a shift (R400 to R402): the PHASE it sends, the epoch and L, C of the request, the first ring time
with this phase, and F. -/
structure ShiftJob where
  phase : Nat := 1
  epoch : Nat
  lead : Nat
  collect : Nat
  since : Nat
  f : Nat := 0
  deriving DecidableEq, Repr

/-- The ring beside its registers. -/
structure TrlS where
  /-- ring time of the last frame, 40 bits; one has been received; the servo tick at that frame -/
  time : Nat := 0
  heard : Bool := false
  timeTick : Nat := 0
  /-- ring-frame ticks since FRAME_START was last received, or since the entry into the role (R392) -/
  silent : Nat := 0
  /-- ring-frame ticks since the entry into ELECT (R392) -/
  electFor : Nat := 0
  /-- servo tick of the entry into LOOP (R392) -/
  loopAt : Nat := 0
  /-- the headframe's shift in progress -/
  job : Option ShiftJob := none
  /-- serials on the exclusion list, rising (R403) -/
  excluded : List Nat := []
  /-- messages of this unit that wait or are in the ring -/
  tx : List TxMsg := []
  /-- the epoch of this unit's own shift request (R400) -/
  asked : Nat := 0
  /-- MIXED, as the headframe last evaluated it (R403) -/
  mixed : Bool := false
  /-- frames of its own that have not returned to the headframe (R392) -/
  absent : Nat := 0
  open_ : Bool := false
  deriving DecidableEq, Repr

/-! ### Resets and power (17) -/

/-- Why the device is held in reset (R408, R417). -/
inductive HoldWhy where
  | porn | srstn | trip | sysclk
  deriving DecidableEq, Repr

/-- The instructions of the test access port (R424). -/
inductive TapInstr where
  | bypass | idcode | samplePreload | extest | extestPulse | extestTrain | highz | clamp
  deriving DecidableEq, Repr

/-- The test access port: the instruction in force; held in reset, it is IDCODE, as IEEE 1149.1 has it (R424).
PRESUMED, safe: log 114. -/
structure TapS where
  instr : TapInstr := .idcode
  deriving DecidableEq, Repr

/-- Resets (17): the sources that hold the device in reset, and the CAUSE its load will carry. -/
structure PwrS where
  held : List HoldWhy := []
  cause : Nat := 1
  deriving DecidableEq, Repr

end Sys2Proof.Machine
end

