-- ==== Sys2Proof/Machine/Inputs.lean ====
section
/-!
DEFINITION. The shapes of command operands that are more than numbers: what the environment of the block gives it with an event.
-/
namespace Sys2Proof.Machine

/-- What the eight analogue inputs of a deck give in a motor tick (R162, R165): phase currents in 2^-23 of I_FS, Vbus and chopper
current in U8.8, the phase terminal voltages in 2^-8 V. -/
structure MotorIn where
  iu : Int := 0
  iv : Int := 0
  iw : Int := 0
  vbus : Nat := 0
  ibrk : Nat := 0
  vtu : Int := 0
  vtv : Int := 0
  vtw : Int := 0
  deriving DecidableEq, Repr

/-- What an upstream lane of a head gives in the block slot of a marker: the block received there, as its sync header and its payload
on the line, none when the lane gives no block; the deskew delay in units of 8 UI; signal (R80, R81). -/
structure MarkerIn where
  block : Option (Nat × Nat) := none
  skew : Nat := 0
  sig : Bool := true
  deriving DecidableEq, Repr

/-- Why an upstream lane is declared failed (R84). -/
inductive LaneCause where
  | lock | markers | signal | skew | dis
  deriving DecidableEq, Repr

/-- What the lode cache's SRAM holds in error when an operation meets it: lines (way, set) whose data is uncorrectable, and whether
a tag or state is (R340, R343).
DESIGN CHOICE, safe: log 43. -/
structure CacheErr where
  data : List (Nat × Nat) := []
  tag : Bool := false
  deriving DecidableEq, Repr

/-- How a completion ends: successful, poisoned, or with another status (R286). -/
inductive CplStatus where
  | ok | poisoned | unsuccessful
  deriving DecidableEq, Repr

/-- A configuration request as far as the spec's rules give it a meaning: the identification of R276 to R279 (identifiers, device
serial, sizes of the BARs), any other read, and the controls that R282 to R289, R294 and R297 read. -/
inductive CfgReq where
  | ident
  | serial
  | barSize (pair : Nat)
  | other (offset : Nat)
  | msixEnable (b : Bool)
  | functionMask (b : Bool)
  | intxDisable (b : Bool)
  | relaxedOrdering (b : Bool)
  | cplTimeout (v : Nat) (disable : Bool)
  | ltrEnable (b : Bool)
  | internalFatal (b : Bool)
  | powerState (d3 : Bool)
  | clearAer
  deriving DecidableEq, Repr

/-- What the device finds at a start (R418, R423): the levels of the straps, and the rows (macro, row) that fail the March test
when STRAP_BIST is high. -/
structure StartIn where
  bist : Bool := false
  ringEn : Bool := false
  test : Bool := false
  failing : List (Nat × Nat) := []
  deriving DecidableEq, Repr

/-- An image as it stands in a slot or in the staging area (R356): whether the flash responds, the bytes from the start of the slot;
and what the device finds with its keys: the signature verifies over the image digest, the image key that WRAPPED_KEY unwraps to, the
SHA-384 of the plaintext equals SENT_DIGEST, DRAM trains under the image's parameters (R358, R367). -/
structure Stored where
  flashOk : Bool := true
  bytes : List Nat := []
  sigOk : Bool := true
  key : Option (List Nat) := none
  digestOk : Bool := true
  dramOk : Bool := true
  deriving DecidableEq, Repr

/-- What a load finds in the flash (R354, R367, R371, R376): the keys of the key region whose SHA-384 equals the fused digest, as
a mask; the images of slots A and B; counters of the log's records that do not verify; the staging descriptor does not verify. -/
structure LoadIn where
  keysMatch : Nat
  slotA : Stored
  slotB : Stored
  badLog : List Nat := []
  stageBad : Bool := false
  deriving DecidableEq, Repr

/-- What the calibration of a unit finds (R421): its new offset and its new code (equalisation, swing or gain), the eye width at the
code, the difference of spare and serving converter, and whether the result lies in the fused range. -/
structure CalIn where
  ofs : Int := 0
  code : Int := 0
  eye : Nat := 0
  diff : Int := 0
  inRange : Bool := true
  deriving DecidableEq, Repr

/-- The register spaces of the two functions (R279, R454, R455): PF0 BAR0, PF1 BAR0, and the MSI-X tables in their BAR4. -/
inductive RegSpace where
  | pf0 | pf1 | msix0 | msix1
  deriving DecidableEq, Repr

/-- A frame as it arrives at ring-in (R386 to R388): ring time, HOPS, MIXED, OPEN, FULL, the PATH received, the SHIFT block with
its epoch, bit 58 of this unit's W3, the phase error TCK measures against the frame boundary (R31), and whether an empty message slot
arrives (R397). -/
structure FrameIn where
  time : Nat
  hops : Nat
  mixed : Bool := false
  opened : Bool := false
  full : Bool := false
  path : Nat := 0
  phase : Nat := 0
  f : Nat := 0
  e : Nat := 0
  excluded : Bool := false
  err : Int := 0
  slot : Bool := true
  deriving DecidableEq, Repr

/-- A message as it arrives in a slot (R397, R398): MSG_START's fields, data words, whether its CRC is right, DELIVERED and BUSY. -/
structure MsgIn where
  kind : Nat
  dest : Nat
  src : Nat
  words : List Nat
  crcOk : Bool := true
  delivered : Bool := false
  busy : Bool := false
  deriving DecidableEq, Repr

end Sys2Proof.Machine
end

