-- ==== Sys2Proof/Syntax.lean ====
section
/-!
DEFINITION. The commands: one constructor per row of the spec's opcode table, with the row's operands. A command is a register access
of the host or an event at the block's pins, links, clocks and engines; each constructor's docstring gives the row's mnemonic,
its rule and what happens. Rows with operands stand first, otherwise the order is the table's.
-/
namespace Sys2Proof

open Machine (MotorIn MarkerIn LaneCause CacheErr CplStatus CfgReq StartIn LoadIn CalIn FrameIn MsgIn RegSpace
  Stored)

/-- The commands of the opcode table. -/
inductive Instr where
  /-- SERVO_TICK (R27): Servo tick strobe: TCK_COUNT increments and every engine runs its work of the tick in its compute window. -/
  | servoTick (shorts : List (Option (Nat × Nat))) (cycles : List Nat)
  /-- MOTOR_TICK (R28): Motor tick on k mod 10 = 0: converters sample, and the Winder current loop and PWM update run. -/
  | motorTick (samples : List MotorIn)
  /-- RING_FRAME_TICK (R28): Ring-frame tick on k mod 50 = 0: frame alignment; the headframe originates a frame and an electing unit sends its CLAIM. -/
  | ringFrameTick (slot : Bool)
  /-- TCK_CTL_WRITE (R42): A write to TCK_CTL changes DISC_EN, ending holdover, or is rejected if it changes STEP_LIM or SLEW while DISC_EN is set. -/
  | tckCtlWrite (w : BitVec 32)
  /-- TCK_ASY_DEADLINE_WRITE (R40): A write to TCK_ASY_DEADLINE is applied or rejected with CFG_REJECT when out of range. -/
  | tckAsyDeadlineWrite (w : BitVec 32)
  /-- COLLIER_OVERRUN (R38): A Collier misses its window end or its samples at cycle 620: drive words repeat and HOLD or SAFE may follow. -/
  | collierOverrun (h : Fin 32) (cycles : Nat)
  /-- LRN_SKIP (R38): A learner pair completes late and the table update of the tick is skipped. -/
  | lrnSkip (h : Fin 32)
  /-- OBS_LATE (R38): A Winder observer completes late, and angle and speed are extrapolated. -/
  | obsLate (d : Fin 8)
  /-- WND_OVR (R38): A Winder motor or speed step is late: the duty is held, the deck brakes and enters FAULT. -/
  | wndOvr (d : Fin 8)
  /-- SLD_OVR (R38): A sled profile step is late: the axis makes a fixed stop and the head enters SAFE. -/
  | sldOvr (h : Fin 32)
  /-- ASY_MISS (R38): A lode pass deadline expires: the Assayer abandons the lode and a re-read is scheduled. -/
  | asyMiss (y : Fin 96)
  /-- TAKEOVER_PARTNER_FREE (R15): The partner finishes its current lode, and step 4 of takeover seeds its learners and starts the seek. -/
  | takeoverPartnerFree (h : Fin 32)
  /-- SEEK_REISSUE (R15): A takeover seek that failed is reissued at the partner's next idle point, at most twice. -/
  | seekReissue (h : Fin 32)
  /-- TAKEOVER_REQUEST (R23): GLB_HANDOVER with OP = 0 requests takeover of a band by its partner while the home head still works. -/
  | takeoverRequest (h : Fin 32)
  /-- HANDBACK_REQUEST (R18): GLB_HANDOVER with OP = 1 requests return of a band to its eligible home head. -/
  | handbackRequest (h : Fin 32)
  /-- HANDBACK_DONE (R18): The partner finishes its lode of the band, routing returns to the home head and HANDBACK_DONE is raised. -/
  | handbackDone (h : Fin 32)
  /-- LINK_WORD_PUSH (R87): A deskewed upstream block pushes one word into its stream FIFO, stalling when full. -/
  | linkWordPush (h : Fin 32) (lane : Fin 6) (hdr : BitVec 2) (payload : BitVec 64) (rtt : Nat)
  /-- FIFO_POP (R88): A consumer pops a complete item with parity, CRC and SEQ checks. -/
  | fifoPop (h : Fin 32) (f : Fin 6) (flips : List (Nat × Nat))
  /-- FIFO_OVERFLOW (R91): A push stalled for 16 cycles: the item is discarded and DROP raised. -/
  | fifoOverflow (h : Fin 32) (f : Fin 6)
  /-- FIFO_FLUSH (R92): LNK_FIFO_FLUSH empties both banks of the named streams. -/
  | fifoFlush (h : Fin 32) (w : BitVec 32)
  /-- ECHO_RECEIVED (R75): An ECHO returns during TRAIN and the round trip RTT is recorded. -/
  | echoReceived (h : Fin 32) (seq : BitVec 8) (rtt : Nat)
  /-- ALIGN_MARKER (R80): An ALIGN marker arrives on the bonded lanes and its announced lane map takes effect. -/
  | alignMarker (h : Fin 32) (lanes : List MarkerIn)
  /-- ROTATE (R83): PERIOD markers have passed with a soaked spare: ROTATE is sent to move the spare. -/
  | rotate (h : Fin 32)
  /-- LANE_RESTORE_SOAK (R85): A failed lane has passed soak for 4 × SOAK markers and ROTATE with RESTORE is sent. -/
  | laneRestoreSoak (h : Fin 32) (lane : Fin 6)
  /-- LANE_FAIL (R84): A lane is declared failed by lock loss, missing markers, signal loss, skew or DIS, and failover follows. -/
  | laneFail (h : Fin 32) (lane : Fin 8) (cause : LaneCause)
  /-- LINK_ENABLE (R86): Setting LNK_HEAD_CTL.EN takes the head link from OFF to TRAIN. -/
  | linkEnable (h : Fin 32)
  /-- LINK_DISABLE (R86): Clearing LNK_HEAD_CTL.EN takes the head link to OFF and flushes its streams. -/
  | linkDisable (h : Fin 32)
  /-- TRAIN_DONE (R86): Lanes lock with valid markers and DLOCKs: the link enters UP or DEGRADED. -/
  | trainDone (h : Fin 32)
  /-- TRAIN_FAIL (R86): 50 ms in TRAIN without success: the link enters FAILED. -/
  | trainFail (h : Fin 32)
  /-- PRBS_CTL_WRITE (R94): A write to LNK_PRBS_CTL sets generator, checker or near loopback, or is rejected when the head is not OFF. -/
  | prbsCtlWrite (l : Fin 256) (w : BitVec 32)
  /-- FAR_LOOPBACK_D0 (R94): LINK_CMD OP 0x01 starts far loopback of D0 onto an upstream lane. -/
  | farLoopbackD0 (h : Fin 32) (lane : BitVec 3)
  /-- FAR_LOOPBACK_D1 (R94): LINK_CMD OP 0x02 starts far loopback of D1 onto an upstream lane. -/
  | farLoopbackD1 (h : Fin 32) (lane : BitVec 3)
  /-- FAR_LOOPBACK_END (R94): LINK_CMD OP 0x03 ends far loopback. -/
  | farLoopbackEnd (h : Fin 32) (lane : BitVec 3)
  /-- HFE_GENERATOR_START (R94): LINK_CMD OP 0x04 starts an HFE pattern generator on an upstream lane. -/
  | hfeGeneratorStart (h : Fin 32) (lane : BitVec 3) (pat : BitVec 3)
  /-- HFE_GENERATOR_STOP (R94): LINK_CMD OP 0x05 stops the HFE pattern generator. -/
  | hfeGeneratorStop (h : Fin 32) (lane : BitVec 3)
  /-- CMD_TIMEOUT (R95): A LINK_CMD is not acknowledged within 8 µs. -/
  | cmdTimeout (h : Fin 32)
  /-- EYE_SCAN_START (R96): LNK_EYE_CTL.START begins an eye scan at HOFS and VOFS. -/
  | eyeScanStart (l : Fin 256) (dwell : BitVec 4) (vofs : BitVec 6) (hofs : BitVec 6)
  /-- EYE_SCAN_DONE (R96): An eye scan completes and DONE and ERRORS are reported. -/
  | eyeScanDone (l : Fin 256) (errors : Nat)
  /-- TICK_LEAD_WRITE (R75): A write to LNK_TICK_LEAD sets or clears the LEAD override, or is rejected when out of range. -/
  | tickLeadWrite (h : Fin 32) (w : BitVec 32)
  /-- COEF_COMMIT (R104): CLR_COEF_COMMIT.GO requests the copy of the shadow coefficients, held while the head is in WRITE. -/
  | coefCommit (h : Fin 32) (zero : Bool)
  /-- COEF_COPY (R104): At cycle 0 of the next tick outside WRITE, shadow coefficients are copied to live, with optional state clear. -/
  | coefCopy (h : Fin 32)
  /-- RP_EVALUATION (R110): Every DIV ticks the read power code is stepped towards the LDM target. -/
  | rpEvaluation (h : Fin 32)
  /-- MEDIA_OPERATION_TAKE (R118): A queued media operation is taken at the head's next idle point and starts its sequence. -/
  | mediaOperationTake (h : Fin 32)
  /-- ACQ_FAIL (R120): Sweeps are exhausted or tracking capture times out: the head retracts and parks. -/
  | acqFail (h : Fin 32)
  /-- JUMP_BRAKE (R121): The land count reaches half of N and the brake pulse is applied. -/
  | jumpBrake (h : Fin 32)
  /-- JUMP_SETTLE (R121): The land count reaches N and tracking closes for SETTLE. -/
  | jumpSettle (h : Fin 32)
  /-- SEEK_FAIL (R121): A jump or seek times out or misses after corrections: the head enters HOLD. -/
  | seekFail (h : Fin 32)
  /-- SLED_ARRIVED (R122): The sled acceleration is zero for two profile ticks and tracking capture begins. -/
  | sledArrived (h : Fin 32)
  /-- SEEK_COMPLETE (R118): A seek sequence completes with TF set and the head enters FOLLOW, WRITE or VERIFY. -/
  | seekComplete (h : Fin 32)
  /-- LAYER_HOP_KICK (R123): KT ticks after the LAYER change, focus opens and the focus kick is applied. -/
  | layerHopKick (h : Fin 32)
  /-- LAYER_HOP_DONE (R123): FOCUS_OK holds for 64 ticks and the hop completes. -/
  | layerHopDone (h : Fin 32)
  /-- LAYER_FAIL (R123): A hop does not complete within TMO × 4 ticks and focus acquisition for the target layer follows. -/
  | layerFail (h : Fin 32)
  /-- ANGLE_LOSS_PARK (R118): Angle-valid has been clear for 400 ticks: the head retracts and parks. -/
  | angleLossPark (h : Fin 32)
  /-- FIX_TIMEOUT (R118): No position fix within 4,000 ticks for a write: the operation is interrupted. -/
  | fixTimeout (h : Fin 32)
  /-- HOLD_EXIT (R119): HOLD exit conditions are met, tracking is recaptured and the head enters FOLLOW. -/
  | holdExit (h : Fin 32)
  /-- HOLD_TIMEOUT (R118): HOLD_MAX × 16 ticks in HOLD: the head enters SAFE. -/
  | holdTimeout (h : Fin 32)
  /-- HEAD_FAULT_RESET (R118): CLR_CTL.FAULT_RST in SAFE clears overrun history and takes the head and its axis to OFF. -/
  | headFaultReset (h : Fin 32)
  /-- COLLIER_ENABLE (R118): Setting CLR_CTL.EN with the link UP takes the head from OFF to PARKED. -/
  | collierEnable (h : Fin 32)
  /-- COLLIER_DISABLE (R118): Clearing CLR_CTL.EN takes the head to OFF unless it is in SAFE. -/
  | collierDisable (h : Fin 32)
  /-- SEED_DONE (R138): A seed copy of 1,024 entries ends after 32 ticks and the destination is marked SEEDED. -/
  | seedDone (h : Fin 32) (i : Fin 2)
  /-- SEED_REQUEST (R140): LRN_SEED.GO requests a seed from the partner for the masked loops. -/
  | seedRequest (h : Fin 32) (loops : BitVec 2)
  /-- TABLE_CLEAR (R143): LRN_CTL.CLEAR clears a learner table at once. -/
  | tableClear (h : Fin 32) (loops : BitVec 2)
  /-- SLED_TARGET_WRITE (R154): A write to SLD_TARGET sets the target, pending in a group, or is rejected in some states. -/
  | sledTargetWrite (h : Fin 32) (w : BitVec 32)
  /-- GROUP_GO (R158): SLD_GROUP_GO starts the pending targets of a group together. -/
  | groupGo (w : BitVec 32)
  /-- SLED_STOP (R159): SLD_CTL.STOP sets the target to the stopping point at D. -/
  | sledStop (h : Fin 32)
  /-- SLED_PARK (R159): SLD_CTL.PARK moves the axis to the park position. -/
  | sledPark (h : Fin 32)
  /-- SLED_HOME (R157): SLD_CTL.HOME starts homing of an UNHOMED axis. -/
  | sledHome (h : Fin 32)
  /-- SLED_ENABLE (R159): Setting SLD_CTL.EN takes an axis from OFF to UNHOMED. -/
  | sledEnable (h : Fin 32)
  /-- SLED_DISABLE (R159): Clearing SLD_CTL.EN takes the axis to OFF with coils off. -/
  | sledDisable (h : Fin 32)
  /-- LIMIT_DEBOUNCED (R156): The limit switch level holds for DEB ticks and the debounced level changes. -/
  | limitDebounced (h : Fin 32)
  /-- HOME_FAIL (R157): Homing exceeds HOME_RANGE travel or HOME_TMO time: fixed stop and FAULT. -/
  | homeFail (h : Fin 32)
  /-- DECK_LOAD (R185): WND_CMD.LOAD takes the deck from EMPTY to LOADED. -/
  | deckLoad (d : Fin 8)
  /-- DECK_START (R176): WND_CMD.START takes the deck to SPINUP at MEASURE. -/
  | deckStart (d : Fin 8)
  /-- DECK_STOP (R185): WND_CMD.STOP starts controlled deceleration into BRAKING. -/
  | deckStop (d : Fin 8)
  /-- DECK_UNLOAD (R185): WND_CMD.UNLOAD at rest takes the deck to EMPTY and clears learner tables. -/
  | deckUnload (d : Fin 8)
  /-- DECK_FAULT_RESET (R185): WND_CMD.FAULT_RST at rest takes the deck from FAULT to LOADED. -/
  | deckFaultReset (d : Fin 8) (drvHigh : Bool)
  /-- SPEED_TARGET_WRITE (R175): A write to WND_SPEED_SET changes the target from the next speed tick, or is rejected. -/
  | speedTargetWrite (d : Fin 8) (target : BitVec 16)
  /-- OVERCURRENT (R166): A current comparator trips: all gates turn off and the deck enters FAULT. -/
  | overcurrent (d : Fin 8)
  /-- DRV_FAULT (R166): SPd_DRV_FLTn is low for 2 cycles: all gates turn off and the deck enters FAULT. -/
  | drvFault (d : Fin 8)
  /-- GATE_HOLD_END (R166): After 8 motor ticks with gates off, winding-short braking starts or the deck coasts. -/
  | gateHoldEnd (d : Fin 8) (drvHigh : Bool) (clear : Bool)
  /-- PILLAR_REPORT (R171): A pillar report is taken in the observer window and adjusts OFFSET and REF. -/
  | pillarReport (d : Fin 8)
  /-- SPIN_MEASURE_END (R176): MEASURE ends after 8 motor ticks and selects CATCH, SLOW or ALIGN. -/
  | spinMeasureEnd (d : Fin 8)
  /-- ALIGN_END (R176): ALIGN_T expires and OPENLOOP begins. -/
  | alignEnd (d : Fin 8)
  /-- HANDOVER_TIMEOUT (R176): The observer does not lock within 64 motor ticks of HANDOVER: gates off and retry from ALIGN. -/
  | handoverTimeout (d : Fin 8)
  /-- SPIN_FAIL (R176): Spin-up exceeds SPIN_TMO: deck-fatal. -/
  | spinFail (d : Fin 8)
  /-- SHORT_HOLD_END (R177): The winding short has been held 200 ms after standstill and all gates turn off. -/
  | shortHoldEnd (d : Fin 8)
  /-- STOPPED (R185): Gates are off and AT_REST holds: the deck enters LOADED. -/
  | stopped (d : Fin 8)
  /-- CHANNEL_ENABLE (R215): Setting CHN_CTL.EN takes a channel from OFF to WAIT. -/
  | channelEnable (c : Fin 128)
  /-- CHANNEL_DISABLE (R215): Clearing CHN_CTL.EN truncates any drift and takes the channel to OFF. -/
  | channelDisable (c : Fin 128)
  /-- CHANNEL_LOCK (R215): The head becomes readable with angle-valid: zone applied, loop seeded, channel enters LOCK. -/
  | channelLock (c : Fin 128)
  /-- LOCK_TIMEOUT (R215): 64 pillar periods in LOCK without RUN: WOB_UNLOCK and reseed. -/
  | lockTimeout (c : Fin 128)
  /-- PILLAR_DETECT (R201): A pillar passes: the sync is searched, the address decoded and checked, and reports made. -/
  | pillarDetect (h : Fin 32) (k : BitVec 16)
  /-- ZONE_RELOAD (R194): CHN_CTL.RELOAD requests reapplication of the zone values at the next pillar. -/
  | zoneReload (c : Fin 128)
  /-- DRIFT_SLOT (R207): A slot's first bit arrives with conditions met: blank test and sync search frame the drift. -/
  | driftSlot (c : Fin 128) (slot : Nat)
  /-- DEFECT (R213): An RF envelope dropout begins and its bits are marked as defects. -/
  | defect (c : Fin 128)
  /-- DRIFT_DELIVERED (R210): A framed drift's record and LLRs are delivered to the decoder, Precis compressor and pool. -/
  | driftDelivered (c : Fin 128)
  /-- INNER_DECODE_DONE (R223): An inner LDPC decode converges or fails and the drift is judged sound or not. -/
  | innerDecodeDone (c : Fin 128)
  /-- LODE_END (R227): A read of a lode ends and its first-pass job is queued with its deadline. -/
  | lodeEnd (y : Fin 96) (passed : Bool)
  /-- JOB_START (R239): An idle Assayer takes the queued job with the earliest deadline. -/
  | jobStart (a : Fin 8)
  /-- JOB_DONE (R241): An Assayer job ends and delivers an outcome or queues the next rung. -/
  | jobDone (a : Fin 8) (buf : List Nat) (entry : List (Nat × Nat)) (out : List Nat)
  /-- ENTRY_LINK (R234): A tailings entry's last block is written and it is linked to its chain. -/
  | entryLink (c : Fin 128)
  /-- PRC_FLUSH (R238): PRC_FLUSH discards the staging buffers of a head's channels. -/
  | prcFlush (heads : BitVec 32)
  /-- LINGER_EXPIRY (R251): A lode's linger expires and it is sealed with padding. -/
  | lingerExpiry (v : Fin 8) (n : Fin 64)
  /-- WRITE_OPERATION_ISSUE (R256): A queued lode finds its head at an idle point; the write operation is issued and the cycle enters PREP. -/
  | writeOperationIssue (h : Fin 32)
  /-- PREP_AT_POSITION (R256): The head is at position with TF set: verify, calibrate or write revolution begins. -/
  | prepAtPosition (h : Fin 32)
  /-- CALIBRATION_REVS_END (R271): Calibration write and verify revolutions end and the power table is scaled or kept. -/
  | calibrationRevsEnd (h : Fin 32)
  /-- WRITE_REVOLUTION_END (R256): 256 pillar periods of a write revolution pass: VERIFY or back to PREP. -/
  | writeRevolutionEnd (h : Fin 32)
  /-- VERIFY_REVOLUTION_END (R256): All recorded slots framed or 2 revolutions passed: the cycle enters RESOLVE. -/
  | verifyRevolutionEnd (h : Fin 32)
  /-- RESOLVE (R256): Verify outcomes of the run are delivered: acceptance, sparing and write pointer advance. -/
  | resolve (h : Fin 32)
  /-- WP_RECOVERED (R272): The seam's write pointer is established and KNOWN set. -/
  | wpRecovered (v : Fin 8) (n : Fin 64)
  /-- VERIFY_ONLY_LOAD_DONE (R409): The verify-only load ends: a CAUSE 3 record, or a full reset on failure. -/
  | verifyOnlyLoadDone (x : LoadIn)
  /-- FLR_COMPLETE (R282): An FLR completes within 100 ms and the function answers normally. -/
  | flrComplete (fn : Fin 2)
  /-- CONFIG_REQUEST (R280): A configuration request is answered, with retry status until ready. -/
  | configRequest (fn : Fin 2) (r : CfgReq)
  /-- LINK_UP (R277): The PCIe link reaches DL_Active and held MSI-X messages are sent. -/
  | linkUp (speed : Nat) (width : Nat)
  /-- COMPLETION_RECEIVED (R283): A completion arrives for an outbound request and its data reaches its consumer. -/
  | completionReceived (tag : Nat) (bytes : List (BitVec 8)) (st : CplStatus)
  /-- CPL_TIMEOUT (R285): An outbound request's completion timer expires and the request is retired. -/
  | cplTimeout (tag : Nat)
  /-- PEER_READ (R290): A BAR2 read is mapped through its window or rejected. -/
  | peerRead (off : BitVec 30) (len : Nat) (x : CacheErr)
  /-- PEER_WRITE (R290): A BAR2 write is mapped through its window, rejected or discarded if partial. -/
  | peerWrite (off : BitVec 30) (bytes : List (BitVec 8)) (x : CacheErr)
  /-- WINDOW_COMMIT (R291): HIF_WIN_COMMIT requests the copy of masked shadow windows. -/
  | windowCommit (mask : BitVec 8)
  /-- MSIX_VECTOR_UNMASK (R288): Unmasking a vector with its pending bit set sends its message once. -/
  | msixVectorUnmask (fn : Fin 2) (v : BitVec 8)
  /-- BAD_REGISTER_ACCESS (R279): A BAR0 or BAR4 access of another length or alignment is rejected. -/
  | badRegisterAccess (fn : Fin 2) (read : Bool)
  /-- QUEUE_PAIR_ENABLE (R300): Setting HQI_QP_CTL.EN starts or resumes a queue pair, or is refused. -/
  | queuePairEnable (q : Fin 65)
  /-- QUEUE_PAIR_DISABLE (R300): Clearing HQI_QP_CTL.EN stops fetching from the pair. -/
  | queuePairDisable (q : Fin 65)
  /-- SQ_TAIL_DOORBELL (R301): A write to the SQ tail doorbell sets the submission tail. -/
  | sqTailDoorbell (q : Fin 65) (w : BitVec 32)
  /-- CQ_HEAD_DOORBELL (R301): A write to the CQ head doorbell frees completion slots and clears INTx causes. -/
  | cqHeadDoorbell (q : Fin 65) (w : BitVec 32)
  /-- COMPLETION_POST (R305): A completion entry is written once its CQ has room. -/
  | completionPost (q : Fin 65)
  /-- COAL_TIME_EXPIRY (R306): COAL_TIME passes since the first unsignalled entry and the vector is signalled. -/
  | coalTimeExpiry (q : Fin 65)
  /-- SELF_TEST_DONE (R320): A self-test completes and reports its counts. -/
  | selfTestDone (v : Fin 8)
  /-- CONFIG_PIECE (R375): CONFIG PIECE submits one piece of a staged image. -/
  | configPiece (sigOk : Bool)
  /-- VOLUME_MOUNT_PROCEED (R313): A waiting mount proceeds when the deck reaches READY or LOADED. -/
  | volumeMountProceed (v : Fin 8)
  /-- SCRUB_DONE (R338): A DRAM scrub pass ends and its summary is valid. -/
  | scrubDone (last : BitVec 31)
  /-- SCRUB_LAP (R336): An SRAM scrub lap ends and its time is recorded. -/
  | scrubLap (ms : Nat)
  /-- BUCKET_LEAK (R335): Every LEAK ms a bucket's level falls by one. -/
  | bucketLeak (x : Fin 2)
  /-- BUCKET_RESET (R335): A write to MEM_CE_CTL sets the bucket level to 0. -/
  | bucketReset (x : Fin 2) (w : BitVec 32)
  /-- TABLE_LOW_WRITE (R331): A write to the low word of a table entry is held for assembly. -/
  | tableLowWrite (a : BitVec 27) (w : BitVec 32)
  /-- TABLE_HIGH_WRITE (R331): A write to the high word completes a 64-bit entry write, or is a narrow write. -/
  | tableHighWrite (a : BitVec 27) (w : BitVec 32)
  /-- TABLE_LOW_READ (R331): A read of a table low word latches the high half. -/
  | tableLowRead (a : BitVec 27)
  /-- WAY_POWER_DOWN (R344): Setting an OFF bit cleans, invalidates and powers down a cache way. -/
  | wayPowerDown (w : Fin 16) (x : CacheErr)
  /-- WAY_POWER_UP (R344): Clearing an OFF bit powers a way up with every line invalid. -/
  | wayPowerUp (w : Fin 16)
  /-- WAY_OFF (R344): A way finishes powering down. -/
  | wayOff (w : Fin 16) (x : CacheErr)
  /-- LCA_CLEAN (R346): LCA_OP OP 1 writes back dirty lines. -/
  | lcaClean (place : Bool) (force : Bool) (x : CacheErr)
  /-- LCA_INVALIDATE (R346): LCA_OP OP 2 invalidates lines, skipping locked ways. -/
  | lcaInvalidate (place : Bool) (force : Bool) (x : CacheErr)
  /-- LCA_CLEAN_INVALIDATE (R346): LCA_OP OP 3 writes back and invalidates lines. -/
  | lcaCleanInvalidate (place : Bool) (force : Bool) (x : CacheErr)
  /-- LCA_PRELOAD (R345): LCA_OP OP 4 preloads a range into a way. -/
  | lcaPreload (w : Fin 16) (x : CacheErr)
  /-- SVN_COMMIT (R352): CFG_FUSE_CMD OP 1 programs the fused SVN to the running SVN. -/
  | svnCommit (confirm : BitVec 8)
  /-- KEY_REVOKE (R352): CFG_FUSE_CMD OP 2 revokes a key slot. -/
  | keyRevoke (confirm : BitVec 8) (slot : Fin 4)
  /-- FUSE_PROGRAM_DONE (R352): Fuse programming completes with SVN_COMMITTED or FUSE_FAIL. -/
  | fuseProgramDone (bad : BitVec 64)
  /-- IMAGE_LOAD_DONE (R367): The image load ends placed, after a fallback, or failed. -/
  | imageLoadDone (x : LoadIn)
  /-- BOOT_RECORD_SIGN (R372): At the first ring frame or 100 ms after placement the boot record is signed and logged. -/
  | bootRecordSign (logOk : Bool)
  /-- PIECE_PROGRAMMED (R376): An accepted piece is programmed, read back and marked in the bitmap. -/
  | pieceProgrammed (ok : Bool)
  /-- STAGE_VERIFY_DONE (R378): Verification of the received staged image ends and copying starts. -/
  | stageVerifyDone (f : Stored)
  /-- STAGE_COPY_DONE (R378): The copied slot verifies; COPIED is programmed and staging is READY. -/
  | stageCopyDone (f : Stored)
  /-- ARM_PREPARED (R380): The standby plane is prepared, ARM is confirmed and CONFIG ARM completes. -/
  | armPrepared (f : Stored)
  /-- SHIFT_COMMIT_RECEIVED (R381): A SHIFT block with PHASE COMMIT is received: media operations held and F recorded. -/
  | shiftCommitReceived (e : BitVec 64) (f : BitVec 40)
  /-- SHIFT_TABLES_COPIED (R382): The load buffer is copied into the tables; HELD clears and the descriptor is updated. -/
  | shiftTablesCopied (logOk : Bool)
  /-- FRAME_START_RECEIVED (R388): A frame arrives and is forwarded with HOPS, PATH and status updated. -/
  | frameStartReceived (x : FrameIn)
  /-- CLAIM_RECEIVED (R393): A CLAIM is forwarded, replaced, or won on return. -/
  | claimReceived (serial : BitVec 64) (time : BitVec 40)
  /-- FRAME_RETURNED (R391): A frame returns to the headframe; lap, status, MIXED and ARM collection are evaluated. -/
  | frameReturned (lap : Nat) (path : Nat) (err : Int) (status : List (List Nat))
  /-- SHIFT_ABORT_RECEIVED (R402): PHASE ABORT is received and an ARMED unit discards its standby plane. -/
  | shiftAbortReceived (e : BitVec 64)
  /-- PIECE_MESSAGE (R398): A PIECE message passes its piece to CFG. -/
  | pieceMessage (m : MsgIn) (sigOk : Bool)
  /-- MGMT_MESSAGE (R399): A MGMT message is copied to TRL_RX or refused with BUSY. -/
  | mgmtMessage (m : MsgIn)
  /-- UNIT_RESET_MESSAGE (R398): A UNIT_RESET naming this unit performs a ring-commanded unit reset. -/
  | unitResetMessage (m : MsgIn) (x : StartIn)
  /-- SHIFT_REQ_MESSAGE (R400): The headframe takes a shift request and starts COLLECT or refuses it. -/
  | shiftReqMessage (m : MsgIn)
  /-- EXCLUDE_MESSAGE (R403): The headframe adds or removes a serial from its exclusion list. -/
  | excludeMessage (m : MsgIn)
  /-- MSG_SEND (R397): TRL_TX_CTL.GO sends TRL_TX_DATA in the next empty slot. -/
  | msgSend (w : BitVec 32)
  /-- MSG_RETURNED (R397): A sent message returns and its result is recorded. -/
  | msgReturned (m : MsgIn) (sigOk : Bool)
  /-- SHIFT_REQUEST (R400): TRL_SHIFT_CTL.GO sends a SHIFT_REQ. -/
  | shiftRequest (w : BitVec 32)
  /-- EXCLUDE_REQUEST (R403): TRL_EXCL_CTL.GO sends an EXCLUDE request. -/
  | excludeRequest (w : BitVec 32)
  /-- PORN_DEASSERT (R408): PORn deasserts: straps sampled, repair applied and the load starts. -/
  | pornDeassert (x : StartIn)
  /-- SRSTN_DEASSERT (R408): SRSTn deasserts and the load starts. -/
  | srstnDeassert (x : StartIn)
  /-- RAIL_FAULT (R414): A rail is outside tolerance for 10 µs: device-fatal. -/
  | railFault (rail : Fin 8)
  /-- SYSCLK_RETURN (R417): SYSCLK returns and the held reset ends. -/
  | sysclkReturn (x : StartIn)
  /-- LREF_LOSS (R417): A lane reference pair is lost: the deck's head links fail. -/
  | lrefLoss (d : Fin 8)
  /-- SENSOR_SAMPLE (R419): Each millisecond the sensors are sampled and thermal limits and calibration triggers evaluated. -/
  | sensorSample (temps : List Int) (x : StartIn)
  /-- CAL_UNIT (R421): A trimmed unit reaches its opportunity and is calibrated and judged. -/
  | calUnit (i : Fin 16) (u : Fin 41) (x : CalIn)
  /-- EVT_CLEAR (R451): An RW1C write to an event register clears bits and may re-signal the group vector. -/
  | evtClear (a : BitVec 27) (w : BitVec 32)
  /-- EVT_MASK_WRITE (R21): A write to BLK_EVT_MASK suppresses or enables event interrupts. -/
  | evtMaskWrite (a : BitVec 27) (w : BitVec 32)
  /-- EVT_FORCE_WRITE (R21): A write to BLK_EVT_FORCE sets event bits and interrupts without device action. -/
  | evtForceWrite (a : BitVec 27) (w : BitVec 32)
  /-- RC_READ (R451): A read of an RC field returns and clears it. -/
  | rcRead (sp : RegSpace) (a : BitVec 32)
  /-- REGISTER_WRITE (R451): A write to a register with no row of its own sets its fields or is rejected with CFG_REJECT. -/
  | registerWrite (sp : RegSpace) (a : BitVec 32) (w : BitVec 32) (x : CacheErr) (drvHigh : Bool)
  /-- LREF_RETURN (R417): A lost lane reference pair returns and its PWR_STATUS.LREF bit sets again. -/
  | lrefReturn (d : Fin 8)
  /-- RAIL_RETURN (R414): A rail that was outside tolerance returns within it and its PWR_STATUS.RAILS bit sets again. -/
  | railReturn (rail : Fin 8)
  /-- WAY_ON (R344): A cache way being powered up completes, within 10 µs, and its LCA_WAY_STATUS.ON bit sets. -/
  | wayOn (w : Fin 16)
  /-- PROFILE_TICK (R28): Profile tick on k mod 20 = 0: sled profile generators step and sled follow is evaluated. -/
  | profileTick
  /-- SPEED_TICK (R28): Speed tick on k mod 100 = 0: the Winder speed loop, ramp, AT_SPEED and pairing trims update. -/
  | speedTick
  /-- HOLDOVER (R34): No frame boundary for 4 frame periods: TCK enters holdover at divider 125. -/
  | holdover
  /-- TCK_COUNT_READ (R41): A read of TCK_COUNT_LO latches TCK_COUNT[47:32] into TCK_COUNT_HI. -/
  | tckCountRead
  /-- SLOT_RESERVE (R226): A waiting read obtains a lode slot when one is released and is issued. -/
  | slotReserve
  /-- PRC_DISABLE (R249): Clearing PRC_CTL.EN releases every entry and clears every RETAIN. -/
  | prcDisable
  /-- PERST_ASSERT (R281): PERST# asserts: configuration space, HIF and HQI domains reset and containment ends. -/
  | perstAssert
  /-- PERST_DEASSERT (R409): PERST# deasserts with an image placed and a verify-only load begins. -/
  | perstDeassert
  /-- HOT_RESET (R281): A hot reset in training sets resets both functions and HIF and HQI domains. -/
  | hotReset
  /-- FLR_PF0 (R282): Initiate FLR of PF0 resets its configuration, MSI-X, windows and queues. -/
  | flrPf0
  /-- FLR_PF1 (R282): Initiate FLR of PF1 resets its configuration and MSI-X. -/
  | flrPf1
  /-- LINK_DOWN (R294): The data link leaves DL_Active other than by reset: containment by link loss. -/
  | linkDown
  /-- DECODE_BOUNDARY (R291): At the decode boundary shadow windows go live and SEQ increments. -/
  | decodeBoundary
  /-- CONTAINMENT_FORCE (R294): HIF_CONTAIN.FORCE enters containment. -/
  | containmentForce
  /-- CONTAINMENT_FROZEN (R295): Every write gate is closed and no head in WRITE or VERIFY: STATE becomes FROZEN. -/
  | containmentFrozen
  /-- CONTAINMENT_RELEASE (R296): HIF_CONTAIN.RELEASE in FROZEN completes fetched commands with CONTAINED and resumes. -/
  | containmentRelease
  /-- PF0_D3HOT (R297): PF0 enters D3hot: decode and fetching stop, completions are held. -/
  | pf0D3hot
  /-- CONTROLLER_ENABLE (R300): HQI_CC.EN starts the controller; RDY sets when the image is placed. -/
  | controllerEnable
  /-- CONTROLLER_RESET (R319): Clearing HQI_CC.EN aborts fetched commands and disables every pair. -/
  | controllerReset
  /-- ARBITRATION (R307): The arbiter selects the next submission entry, which is fetched and taken by the command engine. -/
  | arbitration
  /-- READ (R315): READ delivers verified blocks of one seam. -/
  | read
  /-- APPEND (R314): APPEND assigns blocks at the seam's append point. -/
  | append
  /-- WRITE_AT (R314): WRITE AT writes at the append point or is refused. -/
  | writeAt
  /-- FLUSH (R317): FLUSH seals open lodes and completes after earlier writes. -/
  | flush
  /-- SEAL_SEAM (R314): SEAL SEAM seals the open lode and writes the trailer. -/
  | sealSeam
  /-- IDENTIFY (R310): IDENTIFY returns the device or volume page. -/
  | identify
  /-- GET_LOG (R311): GET LOG returns a log page. -/
  | getLog
  /-- SET_FEATURE (R312): SET FEATURE sets linger, spindle speed or arbitration. -/
  | setFeature
  /-- GET_FEATURE (R312): GET FEATURE returns a feature value. -/
  | getFeature
  /-- ABORT (R318): ABORT stops a named command where possible. -/
  | abort
  /-- SELF_TEST_SHORT (R320): SELF TEST CODE 1 runs the short test on a volume. -/
  | selfTestShort
  /-- SELF_TEST_EXTENDED (R320): SELF TEST CODE 2 runs the extended test on a volume. -/
  | selfTestExtended
  /-- SELF_TEST_STOP (R320): SELF TEST CODE 15 stops the running test at its next step. -/
  | selfTestStop
  /-- CONFIG_ARM (R380): CONFIG ARM names an epoch and starts preparation of the standby plane. -/
  | configArm
  /-- ATTEST_READ (R373): ATTEST READ returns boot records or the identity region. -/
  | attestRead
  /-- VOLUME_MOUNT (R313): VOLUME MOUNT starts or waits for the deck and finds the volume serial. -/
  | volumeMount
  /-- VOLUME_RELEASE (R316): VOLUME RELEASE seals, snapshots, parks and stops the deck. -/
  | volumeRelease
  /-- DRAM_SCRUB_GO (R337): MEM_DSCRUB_CTL.GO starts a DRAM scrub pass. -/
  | dramScrubGo
  /-- DRAM_SCRUB_STOP (R337): MEM_DSCRUB_CTL.STOP ends the pass after its current line. -/
  | dramScrubStop
  /-- NARROW_WRITE_TIMEOUT (R331): A held low word waits longer than 1 µs and is rejected. -/
  | narrowWriteTimeout
  /-- TEST_RAW_WRITE (R339): MEM_TEST_CTL OP 1 writes a raw DRAM burst. -/
  | testRawWrite
  /-- TEST_RAW_READ (R339): MEM_TEST_CTL OP 2 reads a raw DRAM burst. -/
  | testRawRead
  /-- TEST_OP_DONE (R339): A DRAM test operation completes and BUSY clears. -/
  | testOpDone
  /-- OP_DONE (R346): A cache maintenance or preload completes with AFFECTED and SKIPPED. -/
  | opDone
  /-- STAGE_ABANDON (R378): CFG_STAGE_CTL.ABANDON erases staging unless ARMED. -/
  | stageAbandon
  /-- SHIFT_FRAME_BEGIN (R381): Ring frame F begins: the shift applies if quiescent, otherwise HOLDING. -/
  | shiftFrameBegin
  /-- SHIFT_QUIESCENT (R381): A HOLDING unit becomes quiescent and applies the shift late. -/
  | shiftQuiescent
  /-- SHIFT_STAY_TIMEOUT (R381): Frame F + 4,096 begins without quiescence: the unit stays on its old epoch. -/
  | shiftStayTimeout
  /-- RING_ENABLE (R392): Setting TRL_CTL.EN with an image loaded takes the unit to LOOP. -/
  | ringEnable
  /-- RING_DISABLE (R392): Clearing TRL_CTL.EN takes the unit to OFF with BYP_HOLD low. -/
  | ringDisable
  /-- RING_ELECT (R392): TRL_CTL.ELECT starts an election. -/
  | ringElect
  /-- LOOP_LOCKED (R392): Ring-in holds block lock for 1 ms: BYP_HOLD high and LISTEN. -/
  | loopLocked
  /-- LOOP_FAIL (R392): 20 ms in LOOP without block lock: retry. -/
  | loopFail
  /-- FRAME_SILENCE (R392): 4 or 8 frame periods without FRAME_START start an election. -/
  | frameSilence
  /-- ELECTION_RESTART (R392): 64 frame periods in ELECT without result: claims restart. -/
  | electionRestart
  /-- RING_OPEN (R392): The headframe's own FRAME_START is absent for 4 frames and OPEN is set. -/
  | ringOpen
  /-- COLLECT_EXPIRY (R402): C frames pass in COLLECT without every unit armed: the headframe aborts. -/
  | collectExpiry
  /-- MSG_LOST (R397): A sent message has not returned within 2 frames. -/
  | msgLost
  /-- RX_BUFFER_FREE (R399): Writing 1 to TRL_RX_STATUS.FULL frees the receive buffer. -/
  | rxBufferFree
  /-- RING_TIME_READ (R407): A read of TRL_TIME_LO latches ring time [39:32]. -/
  | ringTimeRead
  /-- PORN_ASSERT (R408): PORn asserts, or VDD_CORE falls below 0.68 V: every domain clears. -/
  | pornAssert
  /-- SRSTN_ASSERT (R408): SRSTn asserts and clears the domains of R410. -/
  | srstnAssert
  /-- CLK_FAULT (R417): SYSCLK is lost: containment, gates closed, then reset held. -/
  | clkFault
  /-- PCIE_REF_LOSS (R417): The PCIe reference is lost and the link goes down. -/
  | pcieRefLoss
  /-- CAL_FORCE (R421): CAL_CTL.FORCE makes every trimmed region pending. -/
  | calForce
  /-- CAL_PERIODIC (R419): Every 60 s the region of an invalid sensor becomes pending. -/
  | calPeriodic
  /-- PF0_D0 (R297): PF0 returns from D3hot to D0: BAR decode and queue fetching resume and held completions are posted. -/
  | pf0D0
  /-- HOT_RESET_READY (R281): After a hot reset the HIF becomes ready within 100 ms of DL_Active and configuration requests are answered normally. -/
  | hotResetReady
  /-- PCIE_REF_RETURN (R417): The PCIe reference clock returns, its PWR_STATUS bit sets and link training can resume. -/
  | pcieRefReturn
  /-- RING_IN_LOCK_LOSS (R407): Ring-in loses block lock outside LOOP: IN_LOCK clears and TRL_ERR.LOCK_LOSS counts it. -/
  | ringInLockLoss
  deriving DecidableEq, Repr

end Sys2Proof
end

