-- ==== Sys2Proof/Config.lean ====
section
/-!
DEFINITION. The free values: what the spec leaves open, as constants without a body, so that nothing can be proved about them.
Each is named in the assumption log. Where a value may differ from use to use it takes the state's counter `free`, which the
use advances.
-/
namespace Sys2Proof.Config

/-- The value an engine takes from a table entry with an uncorrectable error where its chapter states none (R334): entry
address, use. -/
opaque badEntry : Nat → Nat → Nat

/-- The SRAM word address of a table entry, as MEM_UE_ADDR reports it (R349): entry address. -/
opaque sramWord : Nat → Nat

/-- The drive of an open loop that no sequence sets, S0.23 field (R102): head, loop, use.
DESIGN CHOICE, safe: log 23. -/
opaque openDrive : Nat → Nat → Nat → BitVec 24

/-- The observer's corrections of angle (2^-16 electrical counts) and rate (2^-16 counts per servo tick) from the bandwidth
code and the phase error in electrical counts (R169). -/
opaque pllAngle : Nat → Int → Int
opaque pllRate : Nat → Int → Int

/-- Vbus in the units of the voltage commands, 2^-23, as the image normalises it (R162, R167): deck, Vbus in U8.8 V. -/
opaque busNorm : Nat → Nat → Nat

/-- The motor model as the image normalises it for the decoupling terms (R167): inductance from deck, LS and I_FS, flux from deck
and KE, in the units that make a voltage of 2^-23 of a rate of 2^-16 counts per servo tick and, for the inductance, a current of
2^-23, after a division by 2^32 and by 2^16. -/
opaque inductance : Nat → Nat → Nat → Int
opaque flux : Nat → Nat → Int

/-- The amplitude in uV that a zero crossing of a floating phase shows (R169, R182): the voltages before and after it in 2^-9 V, the
electrical rate. -/
opaque crossingEmf : Int → Int → Int → Nat

/-- Tap i of the interpolator's phase p, in 2^-14 (R190). -/
opaque interp : Nat → Nat → Int

/-- The data estimate that the wobble extractor subtracts, in 2^-11: the tentative decisions on a bit and the three before it, the latest
first, and the envelope average (R189). -/
opaque dataEstimate : List Bool → Nat → Int

/-- The wobble band-pass: Q, memory, input; the memory after it and its output (R189). -/
opaque wobbleBand : Nat → List Int → Int → List Int × Int

/-- The phase error in 2^-16 wobble periods, from the phase U0.16 and the filtered signal (R189). -/
opaque wobblePhase : Nat → Int → Int

/-- The wobble loop's gains for phase and rate, in 2^-32 periods a phase error unit: bandwidth code, Q (R189). -/
opaque loopGain : Nat → Nat → Int × Int

/-- The line number of the lode buffer that the command engine names for the n-th use of a lode slot (R225). -/
opaque lodeBuffer : Nat → Nat → Nat

/-- The line number of the buffer in which the write path assembles a logical lode of a seam (R341): seam index, lode. -/
opaque assemblyBuffer : Nat → Nat → Nat

/-- The manufacturer identity of the IDCODE, which the BSDL file states (R424). -/
opaque jtagMaker : BitVec 11

/-- The bits with which a pattern generator starts (R93): lane, use. -/
opaque prbsSeed : Nat → Nat → BitVec 64

/-- Byte k of a log page whose layout the spec does not give (R311): page, the values it holds; and the bytes it holds.
DESIGN CHOICE, safe: log 22. -/
opaque logByte : Nat → List Nat → Nat → BitVec 8
opaque logSize : Nat → Nat

/-- The identity region of the flash, by byte (R354, R373). -/
opaque identityByte : Nat → BitVec 8

/-- Byte k of the SHA-384 of a byte string (R370). -/
opaque sha384 : List Nat → Nat → BitVec 8

/-- Byte k of the identity key's deterministic signature over the SHA-384 of a byte string, r then s (R369, R370). -/
opaque idSig : List Nat → Nat → BitVec 8

/-- Byte k of FUSE_DIGEST from the public fields of the fuse bank, the repair map as assignments (R351, R370). -/
opaque fuseDigest : List Nat → Nat → BitVec 8

/-- A configuration register that the spec's rules give no value: function, offset (R276). -/
opaque configReg : Nat → Nat → BitVec 32

/-- The result of a shift request that returns neither delivered nor refused with a cause (R400): use.
DESIGN CHOICE, safe: log 56. -/
opaque shiftRefusal : Nat → BitVec 3

end Sys2Proof.Config
end

