-- ==== Sys2Proof/Machine/RegStore.lean ====
section
/-!
DEFINITION. The register store: every register field the spec gives a block is one `Field`; the values that differ from
their reset value are held in one sorted list, so that equal register contents are equal data. Also the shape of a register
of the address map (R450, R455) and of an event bit (R19, R457, R458).
-/
namespace Sys2Proof.Machine

/-- A register field: its number in the store, its width in bits and its reset value (R453). -/
structure Field where
  id : Nat
  width : Nat
  reset : Nat
  deriving DecidableEq, Repr

/-- One stored value: field, instance (the register's indices flattened, first index most significant), value. -/
structure RegCell where
  fld : Field
  idx : Nat
  val : Nat
  deriving DecidableEq, Repr

/-- The access types of R451. -/
inductive Access where
  | ro | rw | rw1c | rws | wo | rc
  deriving DecidableEq, Repr

/-- A field at its place in a register: bits [hi:lo], access type, field. -/
structure FieldAt where
  hi : Nat
  lo : Nat
  acc : Access
  fld : Field
  deriving DecidableEq, Repr

/-- A register of PF1 BAR0: the offset of its instance 0, the (count, stride) of each index, its width (32, or 64 for a
table entry) and its fields. -/
structure RegDef where
  base : Nat
  dims : List (Nat × Nat)
  bits : Nat := 32
  fields : List FieldAt
  deriving DecidableEq, Repr

/-- The severities of R19. -/
inductive Severity where
  | corrected | deferred | headFatal | deckFatal | deviceFatal
  deriving DecidableEq, Repr

/-- An event register triplet (R457): its event bits from bit 0, its mask, the marks of forced bits (R21), its number of
bits and instances, and its source group: instance i belongs to the group of vector vbase + i / vdiv (R458). -/
structure EvtReg where
  bits : List Field
  mask : Field
  forced : Field
  width : Nat
  count : Nat
  vbase : Nat
  vdiv : Nat
  deriving DecidableEq, Repr

/-- An event bit: its field, its bit number, its severity (R19) and its register triplet. -/
structure Event where
  fld : Field
  bit : Nat
  sev : Severity
  reg : EvtReg
  deriving DecidableEq, Repr

/-- The order of the store: by field number, then by instance. -/
def keyLt (f : Nat) (i : Nat) (g : Nat) (j : Nat) : Bool := f < g || (f == g && i < j)

/-- The value of field f of instance i: the stored one, else the field's reset value. -/
def regGet : List RegCell → Field → Nat → Nat
  | [], f, _ => f.reset
  | c :: cs, f, i => if c.fld.id = f.id ∧ c.idx = i then c.val else regGet cs f i

/-- The store without the value of (f, i). -/
def regDrop (cs : List RegCell) (f : Field) (i : Nat) : List RegCell :=
  cs.filter fun c => ¬ (c.fld.id = f.id ∧ c.idx = i)

/-- Insert a cell at its place in the order. -/
def regInsert (c : RegCell) : List RegCell → List RegCell
  | [] => [c]
  | d :: ds => if keyLt c.fld.id c.idx d.fld.id d.idx then c :: d :: ds else d :: regInsert c ds

/-- Write field f of instance i: the value is cut to the field's width, and a value equal to the reset value is not
listed, so that the form stays canonical. -/
def regSet (cs : List RegCell) (f : Field) (i v : Nat) : List RegCell :=
  let w := v % 2 ^ f.width
  if w = f.reset then regDrop cs f i else regInsert ⟨f, i, w⟩ (regDrop cs f i)

/-- The keys of the store rise strictly. -/
def keysRise : List RegCell → Bool
  | [] => true
  | [_] => true
  | c :: d :: ds => keyLt c.fld.id c.idx d.fld.id d.idx && keysRise (d :: ds)

/-- The canonical form of the register store: rising keys, no listed value equal to its field's reset value, every value
within its field's width. -/
def regsWf (cs : List RegCell) : Bool :=
  keysRise cs && cs.all fun c => c.val != c.fld.reset && c.val < 2 ^ c.fld.width

end Sys2Proof.Machine
end

