-- ==== Sys2Proof/Machine/FieldsA.lean ====
section
/-!
DEFINITION. The register fields of blocks GLB, TCK, LNK, CLR and LRN, one definition per field of the register tables of the spec:
its number in the register store (block number x 1000 + position), its width and its reset value (R453: "per image",
"fuses" and "strap" stand as 0 here, the value before an image is placed, fuses are sensed or straps are sampled).
-/
namespace Sys2Proof.Machine

/-- GLB_DEVICE_ID.PART, bits 31:16, RO, reset 0x3208: part number -/
def F.GLB_DEVICE_ID_PART : Field := ⟨1001, 16, 12808⟩
/-- GLB_DEVICE_ID.STEPPING, bits 15:8, RO, reset 1: silicon stepping; per silicon, 0x01 for the first production stepping -/
def F.GLB_DEVICE_ID_STEPPING : Field := ⟨1002, 8, 1⟩
/-- GLB_EVT.SIDE_LOST, bits 4, RW1C, reset 0: both bands of a side unserved (severity deferred; the commands of the side complete under R16) -/
def F.GLB_EVT_SIDE_LOST : Field := ⟨1003, 1, 0⟩
/-- GLB_EVT.TAKEOVER_REFUSED, bits 3, RW1C, reset 0: takeover or handback not performed (severity deferred) -/
def F.GLB_EVT_TAKEOVER_REFUSED : Field := ⟨1004, 1, 0⟩
/-- GLB_EVT.HANDBACK_DONE, bits 2, RW1C, reset 0: a band has returned to its home head (severity corrected) -/
def F.GLB_EVT_HANDBACK_DONE : Field := ⟨1005, 1, 0⟩
/-- GLB_EVT.TAKEOVER_DONE, bits 1, RW1C, reset 0: a partner now serves a band (severity corrected) -/
def F.GLB_EVT_TAKEOVER_DONE : Field := ⟨1006, 1, 0⟩
/-- GLB_EVT.TAKEOVER_START, bits 0, RW1C, reset 0: takeover has begun, automatic or requested (severity corrected) -/
def F.GLB_EVT_TAKEOVER_START : Field := ⟨1007, 1, 0⟩
/-- Internal mark of R21 for GLB_EVT: bit set while the event bit stands through a FORCE write. -/
def F.GLB_EVT_FORCED : Field := ⟨1008, 5, 0⟩
/-- GLB_EVT_MASK.MASK, bits 4:0, RW, reset 0: 1 masks the event bit -/
def F.GLB_EVT_MASK_MASK : Field := ⟨1009, 5, 0⟩
/-- GLB_HEAD_FAULT.HEAD, bits 31:0, RO, reset 0: bit h set while head h is in SAFE through a head-fatal or deck-fatal event; cleared by the head's fault reset -/
def F.GLB_HEAD_FAULT_HEAD : Field := ⟨1010, 32, 0⟩
/-- GLB_DECK_FAULT.DECK, bits 7:0, RO, reset 0: bit d set while deck d is in FAULT -/
def F.GLB_DECK_FAULT_DECK : Field := ⟨1011, 8, 0⟩
/-- GLB_TAKEOVER.SERVED_BY_PARTNER, bits 31:0, RO, reset 0: bit h set while h's band is served by head h XOR 1 -/
def F.GLB_TAKEOVER_SERVED_BY_PARTNER : Field := ⟨1012, 32, 0⟩
/-- GLB_HANDOVER.OP, bits 8, WO, reset 0: 0: start takeover of HEAD's band by its partner, subject to the conditions of R14 except the AUTO bit; 1: hand -/
def F.GLB_HANDOVER_OP : Field := ⟨1013, 1, 0⟩
/-- GLB_HANDOVER.HEAD, bits 4:0, WO, reset 0: head h -/
def F.GLB_HANDOVER_HEAD : Field := ⟨1014, 5, 0⟩
/-- GLB_TAKEOVER_CTL.AUTO, bits 7:0, RW, reset 0xFF: bit d set enables automatic takeover on deck d -/
def F.GLB_TAKEOVER_CTL_AUTO : Field := ⟨1015, 8, 255⟩
/-- GLB_INT_BLOCK.VEC, bits 22:0, RO, reset 0: bit v set while source group v of R458 holds a pending event -/
def F.GLB_INT_BLOCK_VEC : Field := ⟨1016, 23, 0⟩
/-- GLB_INT_DECK.WND, bits 16, RO, reset 0: WND_EVT[d] has a pending bit -/
def F.GLB_INT_DECK_WND : Field := ⟨1017, 1, 0⟩
/-- GLB_INT_DECK.CHN, bits 15:12, RO, reset 0: bit 12 + s: a channel of head 4d + s has a pending CHN_EVT bit -/
def F.GLB_INT_DECK_CHN : Field := ⟨1018, 4, 0⟩
/-- GLB_INT_DECK.SLD, bits 11:8, RO, reset 0: bit 8 + s: SLD_EVT[4d + s] has a pending bit -/
def F.GLB_INT_DECK_SLD : Field := ⟨1019, 4, 0⟩
/-- GLB_INT_DECK.LRN, bits 7:4, RO, reset 0: bit 4 + s: LRN_EVT[4d + s] has a pending bit -/
def F.GLB_INT_DECK_LRN : Field := ⟨1020, 4, 0⟩
/-- GLB_INT_DECK.CLR, bits 3:0, RO, reset 0: bit s: CLR_EVT[4d + s] has a pending bit -/
def F.GLB_INT_DECK_CLR : Field := ⟨1021, 4, 0⟩
/-- TCK_CTL.STEP_LIM, bits 31:16, RW, reset 250: step threshold in SYSCLK cycles, 8 to 3,125; values outside this range are clamped -/
def F.TCK_CTL_STEP_LIM : Field := ⟨2001, 16, 250⟩
/-- TCK_CTL.SLEW, bits 5:4, RW, reset 0b00: correction per frame: 1 to 4 ticks, encoded as SLEW + 1 -/
def F.TCK_CTL_SLEW : Field := ⟨2002, 2, 0⟩
/-- TCK_CTL.STEP_OK, bits 1, RW, reset 0: permits phase steps under R33 -/
def F.TCK_CTL_STEP_OK : Field := ⟨2003, 1, 0⟩
/-- TCK_CTL.DISC_EN, bits 0, RW, reset 0: enables ring discipline -/
def F.TCK_CTL_DISC_EN : Field := ⟨2004, 1, 0⟩
/-- TCK_STATUS.LAST_ERR, bits 31:16, RO, reset 0: last e, two's complement, in SYSCLK cycles -/
def F.TCK_STATUS_LAST_ERR : Field := ⟨2005, 16, 0⟩
/-- TCK_STATUS.HOLDOVER, bits 1, RO, reset 0: frames absent under R34 -/
def F.TCK_STATUS_HOLDOVER : Field := ⟨2006, 1, 0⟩
/-- TCK_STATUS.LOCK, bits 0, RO, reset 0: phase locked under R32 -/
def F.TCK_STATUS_LOCK : Field := ⟨2007, 1, 0⟩
/-- TCK_COUNT_LO.COUNT_LO, bits 31:0, RO, reset 0: TCK_COUNT[31:0] -/
def F.TCK_COUNT_LO_COUNT_LO : Field := ⟨2008, 32, 0⟩
/-- TCK_COUNT_HI.COUNT_HI, bits 15:0, RO, reset 0: TCK_COUNT[47:32], latched by the last read of TCK_COUNT_LO -/
def F.TCK_COUNT_HI_COUNT_HI : Field := ⟨2009, 16, 0⟩
/-- TCK_EVT.CFG_REJECT, bits 12, RW1C, reset 0: TCK register write rejected (deferred) -/
def F.TCK_EVT_CFG_REJECT : Field := ⟨2010, 1, 0⟩
/-- TCK_EVT.HOLDOVER, bits 11, RW1C, reset 0: holdover entered (deferred) -/
def F.TCK_EVT_HOLDOVER : Field := ⟨2011, 1, 0⟩
/-- TCK_EVT.DISC_STEP, bits 10, RW1C, reset 0: phase stepped (corrected) -/
def F.TCK_EVT_DISC_STEP : Field := ⟨2012, 1, 0⟩
/-- TCK_EVT.DISC_UNLOCK, bits 9, RW1C, reset 0: phase lock lost (deferred) -/
def F.TCK_EVT_DISC_UNLOCK : Field := ⟨2013, 1, 0⟩
/-- TCK_EVT.ASY_MISS, bits 8, RW1C, reset 0: lode deadline missed (deferred) -/
def F.TCK_EVT_ASY_MISS : Field := ⟨2014, 1, 0⟩
/-- TCK_EVT.SLD_OVR, bits 7, RW1C, reset 0: sled profile overrun (head-fatal) -/
def F.TCK_EVT_SLD_OVR : Field := ⟨2015, 1, 0⟩
/-- TCK_EVT.WND_OVR, bits 6, RW1C, reset 0: Winder compute overrun (deck-fatal) -/
def F.TCK_EVT_WND_OVR : Field := ⟨2016, 1, 0⟩
/-- TCK_EVT.OBS_LOST, bits 5, RW1C, reset 0: observer late 4 ticks running (deferred) -/
def F.TCK_EVT_OBS_LOST : Field := ⟨2017, 1, 0⟩
/-- TCK_EVT.OBS_LATE, bits 4, RW1C, reset 0: observer late (corrected) -/
def F.TCK_EVT_OBS_LATE : Field := ⟨2018, 1, 0⟩
/-- TCK_EVT.LRN_SKIP, bits 3, RW1C, reset 0: learner update skipped (corrected) -/
def F.TCK_EVT_LRN_SKIP : Field := ⟨2019, 1, 0⟩
/-- TCK_EVT.CLR_SAFE, bits 2, RW1C, reset 0: Collier overruns forced SAFE (head-fatal) -/
def F.TCK_EVT_CLR_SAFE : Field := ⟨2020, 1, 0⟩
/-- TCK_EVT.CLR_HOLD, bits 1, RW1C, reset 0: Collier overruns forced HOLD (deferred) -/
def F.TCK_EVT_CLR_HOLD : Field := ⟨2021, 1, 0⟩
/-- TCK_EVT.CLR_OVR, bits 0, RW1C, reset 0: Collier overrun (corrected) -/
def F.TCK_EVT_CLR_OVR : Field := ⟨2022, 1, 0⟩
/-- Internal mark of R21 for TCK_EVT: bit set while the event bit stands through a FORCE write. -/
def F.TCK_EVT_FORCED : Field := ⟨2023, 13, 0⟩
/-- TCK_EVT_MASK.MASK, bits 12:0, RW, reset 0: 1 masks the event bit -/
def F.TCK_EVT_MASK_MASK : Field := ⟨2024, 13, 0⟩
/-- TCK_ASY_DEADLINE.TICKS, bits 15:0, RW, reset 4,000: lode deadline in servo ticks from the lode's last drift, 400 to the bound of R40; 4,000 is 10 ms -/
def F.TCK_ASY_DEADLINE_TICKS : Field := ⟨2025, 16, 4000⟩
/-- TCK_OVR_HEADS.HEAD, bits 31:0, RW1C, reset 0: bit h set by any Collier, learner or sled overrun of head h (TCK_OVR_HEADS) -/
def F.TCK_OVR_HEADS_HEAD : Field := ⟨2026, 32, 0⟩
/-- TCK_OVR_DECKS.DECK, bits 7:0, RW1C, reset 0: bit d set by any observer or Winder overrun of deck d (TCK_OVR_DECKS) -/
def F.TCK_OVR_DECKS_DECK : Field := ⟨2027, 8, 0⟩
/-- TCK_ASY_MISS.COUNT, bits 31:0, RC, reset 0: lode deadlines missed; saturates at 0xFFFF_FFFF -/
def F.TCK_ASY_MISS_COUNT : Field := ⟨2028, 32, 0⟩
/-- TCK_CLR_OVR.RECENT, bits 26:16, RO, reset 0: overruns among the last 1,024 ticks, 0 to 1,024 -/
def F.TCK_CLR_OVR_RECENT : Field := ⟨2029, 11, 0⟩
/-- TCK_CLR_OVR.TOTAL, bits 15:0, RC, reset 0: overruns since last read; saturates at 0xFFFF; a read clears TOTAL only -/
def F.TCK_CLR_OVR_TOTAL : Field := ⟨2030, 16, 0⟩
/-- TCK_CLR_MAXCYC.MAX, bits 10:0, RC, reset 0: largest number of cycles from window opening to completion since last read; 1,080 is a completion in the last  -/
def F.TCK_CLR_MAXCYC_MAX : Field := ⟨2031, 11, 0⟩
/-- TCK_WND_OVR.OBS, bits 31:16, RC, reset 0: observer overruns since last read; saturates at 0xFFFF; a read clears OBS -/
def F.TCK_WND_OVR_OBS : Field := ⟨2032, 16, 0⟩
/-- TCK_WND_OVR.STEP, bits 15:0, RC, reset 0: motor and speed step overruns since last read; saturates at 0xFFFF; a read clears STEP -/
def F.TCK_WND_OVR_STEP : Field := ⟨2033, 16, 0⟩
/-- LNK_LANE_CTL.DIS, bits 1, RW, reset 0: 1 treats the lane as failed under R84; on a downstream lane it also holds the transmitter in electrical idle -/
def F.LNK_LANE_CTL_DIS : Field := ⟨9001, 1, 0⟩
/-- LNK_LANE_CTL.POL, bits 0, RW, reset 0: 1 inverts the lane's polarity -/
def F.LNK_LANE_CTL_POL : Field := ⟨9002, 1, 0⟩
/-- LNK_LANE_STATUS.SKEW, bits 31:24, RO, reset 0: applied deskew delay, in units of 8 UI -/
def F.LNK_LANE_STATUS_SKEW : Field := ⟨9003, 8, 0⟩
/-- LNK_LANE_STATUS.MARKER_OK, bits 5, RO, reset 0: last marker valid -/
def F.LNK_LANE_STATUS_MARKER_OK : Field := ⟨9004, 1, 0⟩
/-- LNK_LANE_STATUS.SIG_DET, bits 4, RO, reset 0: signal detected -/
def F.LNK_LANE_STATUS_SIG_DET : Field := ⟨9005, 1, 0⟩
/-- LNK_LANE_STATUS.BLOCK_LOCK, bits 3, RO, reset 0: clause 49 block lock held -/
def F.LNK_LANE_STATUS_BLOCK_LOCK : Field := ⟨9006, 1, 0⟩
/-- LNK_LANE_STATUS.ROLE, bits 2:0, RO, reset 4: 0 active, 1 spare, 2 failed, 3 downstream, 4 head link OFF -/
def F.LNK_LANE_STATUS_ROLE : Field := ⟨9007, 3, 4⟩
/-- LNK_LANE_ERR.SH_ERR, bits 31:16, RC, reset 0: invalid sync headers and unknown TYPEs; saturates -/
def F.LNK_LANE_ERR_SH_ERR : Field := ⟨9008, 16, 0⟩
/-- LNK_LANE_ERR.MK_ERR, bits 15:0, RC, reset 0: missing or malformed markers; saturates -/
def F.LNK_LANE_ERR_MK_ERR : Field := ⟨9009, 16, 0⟩
/-- LNK_PRBS_CTL.NEAR, bits 6, RW, reset 0: near loopback -/
def F.LNK_PRBS_CTL_NEAR : Field := ⟨9010, 1, 0⟩
/-- LNK_PRBS_CTL.INV, bits 5, RW, reset 0: invert pattern -/
def F.LNK_PRBS_CTL_INV : Field := ⟨9011, 1, 0⟩
/-- LNK_PRBS_CTL.PAT, bits 4:2, RW, reset 0b011: pattern of R93; 5 to 7 reserved -/
def F.LNK_PRBS_CTL_PAT : Field := ⟨9012, 3, 3⟩
/-- LNK_PRBS_CTL.CHK_EN, bits 1, RW, reset 0: checker enable -/
def F.LNK_PRBS_CTL_CHK_EN : Field := ⟨9013, 1, 0⟩
/-- LNK_PRBS_CTL.GEN_EN, bits 0, RW, reset 0: generator enable; replaces line-coded traffic -/
def F.LNK_PRBS_CTL_GEN_EN : Field := ⟨9014, 1, 0⟩
/-- LNK_USER_PAT_LO.PAT, bits 31:0, RW, reset 0: user pattern bits [31:0] (LO) or [63:32] (HI) -/
def F.LNK_USER_PAT_LO_PAT : Field := ⟨9015, 32, 0⟩
/-- LNK_USER_PAT_HI.PAT, bits 31:0, RW, reset 0: user pattern bits [31:0] (LO) or [63:32] (HI) -/
def F.LNK_USER_PAT_HI_PAT : Field := ⟨9016, 32, 0⟩
/-- LNK_PRBS_ERR.LOCK, bits 31, RO, reset 0: checker locked -/
def F.LNK_PRBS_ERR_LOCK : Field := ⟨9017, 1, 0⟩
/-- LNK_PRBS_ERR.COUNT, bits 30:0, RC, reset 0: bit errors since last read; saturates -/
def F.LNK_PRBS_ERR_COUNT : Field := ⟨9018, 31, 0⟩
/-- LNK_EYE_CTL.DWELL, bits 19:16, RW, reset 0: scan length 2^(20 + DWELL) bits -/
def F.LNK_EYE_CTL_DWELL : Field := ⟨9019, 4, 0⟩
/-- LNK_EYE_CTL.VOFS, bits 13:8, RW, reset 0: vertical offset, −31 to +31, two's complement -/
def F.LNK_EYE_CTL_VOFS : Field := ⟨9020, 6, 0⟩
/-- LNK_EYE_CTL.HOFS, bits 7:2, RW, reset 0: horizontal offset, −32 to +31, two's complement -/
def F.LNK_EYE_CTL_HOFS : Field := ⟨9021, 6, 0⟩
/-- LNK_EYE_CTL.START, bits 0, WO, reset 0: 1 starts a scan -/
def F.LNK_EYE_CTL_START : Field := ⟨9022, 1, 0⟩
/-- LNK_EYE_RESULT.DONE, bits 31, RO, reset 0: scan complete; cleared by START -/
def F.LNK_EYE_RESULT_DONE : Field := ⟨9023, 1, 0⟩
/-- LNK_EYE_RESULT.ERRORS, bits 23:0, RO, reset 0: disagreements; saturates -/
def F.LNK_EYE_RESULT_ERRORS : Field := ⟨9024, 24, 0⟩
/-- LNK_HEAD_CTL.RETRY_EN, bits 2, RW, reset 1: restores lanes under R85 -/
def F.LNK_HEAD_CTL_RETRY_EN : Field := ⟨9025, 1, 1⟩
/-- LNK_HEAD_CTL.ROT_EN, bits 1, RW, reset 1: rotates the spare under R83 -/
def F.LNK_HEAD_CTL_ROT_EN : Field := ⟨9026, 1, 1⟩
/-- LNK_HEAD_CTL.EN, bits 0, RW, reset 0: head link enable -/
def F.LNK_HEAD_CTL_EN : Field := ⟨9027, 1, 0⟩
/-- LNK_HEAD_STATUS.MARK, bits 31:24, RO, reset 0: last marker number received, [7:0] -/
def F.LNK_HEAD_STATUS_MARK : Field := ⟨9028, 8, 0⟩
/-- LNK_HEAD_STATUS.FAILED, bits 21:16, RO, reset 0: failed upstream lanes, U0 to U5 -/
def F.LNK_HEAD_STATUS_FAILED : Field := ⟨9029, 6, 0⟩
/-- LNK_HEAD_STATUS.ACTIVE, bits 13:8, RO, reset 0: active upstream lanes, U0 to U5 -/
def F.LNK_HEAD_STATUS_ACTIVE : Field := ⟨9030, 6, 0⟩
/-- LNK_HEAD_STATUS.SPARE, bits 6:4, RO, reset 7: spare lane k; 7 for none -/
def F.LNK_HEAD_STATUS_SPARE : Field := ⟨9031, 3, 7⟩
/-- LNK_HEAD_STATUS.STATE, bits 2:0, RO, reset 0: 0 OFF, 1 TRAIN, 2 UP, 3 DEGRADED, 4 FAILED -/
def F.LNK_HEAD_STATUS_STATE : Field := ⟨9032, 3, 0⟩
/-- LNK_ROT_CTL.PERIOD, bits 31:8, RW, reset 0x01_0000: markers between rotations, 1,024 to 2²⁴ − 1; smaller values are clamped to 1,024 -/
def F.LNK_ROT_CTL_PERIOD : Field := ⟨9033, 24, 65536⟩
/-- LNK_ROT_CTL.SOAK, bits 7:0, RW, reset 64: soak length in markers, 8 to 255; smaller values are clamped to 8 -/
def F.LNK_ROT_CTL_SOAK : Field := ⟨9034, 8, 64⟩
/-- LNK_TICK_LEAD.OVR, bits 31, RW, reset 0: 1 uses LEAD as written instead of the measured value -/
def F.LNK_TICK_LEAD_OVR : Field := ⟨9035, 1, 0⟩
/-- LNK_TICK_LEAD.RTT, bits 26:16, RO, reset 0: round trip measured in TRAIN, in engine cycles -/
def F.LNK_TICK_LEAD_RTT : Field := ⟨9036, 11, 0⟩
/-- LNK_TICK_LEAD.LEAD, bits 10:0, RW, reset 0: tick lead in use, engine cycles (R75). A write that leaves OVR = 0 ignores the written LEAD without any event, -/
def F.LNK_TICK_LEAD_LEAD : Field := ⟨9037, 11, 0⟩
/-- LNK_FIFO_FLUSH.RF, bits 5:2, WO, reset 0: bit b flushes RF b -/
def F.LNK_FIFO_FLUSH_RF : Field := ⟨9038, 4, 0⟩
/-- LNK_FIFO_FLUSH.STATUS, bits 1, WO, reset 0: flushes STATUS -/
def F.LNK_FIFO_FLUSH_STATUS : Field := ⟨9039, 1, 0⟩
/-- LNK_FIFO_FLUSH.SERVO, bits 0, WO, reset 0: flushes SERVO -/
def F.LNK_FIFO_FLUSH_SERVO : Field := ⟨9040, 1, 0⟩
/-- LNK_LATE.COUNT, bits 31:0, RC, reset 0: late SERVO and STATUS words discarded under R90 (LNK_LATE) or poisoned words (LNK_POISON); saturates -/
def F.LNK_LATE_COUNT : Field := ⟨9041, 32, 0⟩
/-- LNK_POISON.COUNT, bits 31:0, RC, reset 0: late SERVO and STATUS words discarded under R90 (LNK_LATE) or poisoned words (LNK_POISON); saturates -/
def F.LNK_POISON_COUNT : Field := ⟨9042, 32, 0⟩
/-- LNK_DROP.TRUNC, bits 31:16, RC, reset 0: flush truncations (LNK_DROP); saturates -/
def F.LNK_DROP_TRUNC : Field := ⟨9043, 16, 0⟩
/-- LNK_DROP.DROPS, bits 15:0, RC, reset 0: items dropped for overflow, framing or reserved STREAM (LNK_DROP); saturates -/
def F.LNK_DROP_DROPS : Field := ⟨9044, 16, 0⟩
/-- LNK_HFE_STATUS.FAULT, bits 31:24, RO, reset 0: FAULT from the latest STATUS item -/
def F.LNK_HFE_STATUS_FAULT : Field := ⟨9045, 8, 0⟩
/-- LNK_HFE_STATUS.DLOCK0, bits 23, RO, reset 0: from the latest STATUS item -/
def F.LNK_HFE_STATUS_DLOCK0 : Field := ⟨9046, 1, 0⟩
/-- LNK_HFE_STATUS.DLOCK1, bits 22, RO, reset 0: from the latest STATUS item -/
def F.LNK_HFE_STATUS_DLOCK1 : Field := ⟨9047, 1, 0⟩
/-- LNK_HFE_STATUS.DCRC, bits 21:16, RO, reset 0: from the latest STATUS item -/
def F.LNK_HFE_STATUS_DCRC : Field := ⟨9048, 6, 0⟩
/-- LNK_HFE_STATUS.DRV_TAG, bits 15:0, RO, reset 0: from the latest STATUS item -/
def F.LNK_HFE_STATUS_DRV_TAG : Field := ⟨9049, 16, 0⟩
/-- LNK_HFE_CMD.BUSY, bits 31, RO, reset 0: command outstanding -/
def F.LNK_HFE_CMD_BUSY : Field := ⟨9050, 1, 0⟩
/-- LNK_HFE_CMD.TIMEOUT, bits 30, RO, reset 0: last command timed out under R95 -/
def F.LNK_HFE_CMD_TIMEOUT : Field := ⟨9051, 1, 0⟩
/-- LNK_HFE_CMD.OP, bits 23:16, RW, reset 0: LINK_CMD OP of R94 -/
def F.LNK_HFE_CMD_OP : Field := ⟨9052, 8, 0⟩
/-- LNK_HFE_CMD.RESULT, bits 15:8, RO, reset 0: CMD_RESULT of the last acknowledged command -/
def F.LNK_HFE_CMD_RESULT : Field := ⟨9053, 8, 0⟩
/-- LNK_HFE_CMD.PAT, bits 6:4, RW, reset 0: pattern for OP 0x04 -/
def F.LNK_HFE_CMD_PAT : Field := ⟨9054, 3, 0⟩
/-- LNK_HFE_CMD.GO, bits 3, WO, reset 0: 1 sends the command; ignored while BUSY -/
def F.LNK_HFE_CMD_GO : Field := ⟨9055, 1, 0⟩
/-- LNK_HFE_CMD.LANE, bits 2:0, RW, reset 0: upstream lane k -/
def F.LNK_HFE_CMD_LANE : Field := ⟨9056, 3, 0⟩
/-- LNK_EVT.CFG_REJECT, bits 13, RW1C, reset 0: register write rejected (deferred) -/
def F.LNK_EVT_CFG_REJECT : Field := ⟨9057, 1, 0⟩
/-- LNK_EVT.CMD_TIMEOUT, bits 12, RW1C, reset 0: LINK_CMD not acknowledged (deferred) -/
def F.LNK_EVT_CMD_TIMEOUT : Field := ⟨9058, 1, 0⟩
/-- LNK_EVT.TRAIN_FAIL, bits 11, RW1C, reset 0: head link failed to train (head-fatal) -/
def F.LNK_EVT_TRAIN_FAIL : Field := ⟨9059, 1, 0⟩
/-- LNK_EVT.HFE_FAULT, bits 10, RW1C, reset 0: HFE reported a fault (head-fatal) -/
def F.LNK_EVT_HFE_FAULT : Field := ⟨9060, 1, 0⟩
/-- LNK_EVT.DOWN_LOST, bits 9, RW1C, reset 0: downstream lane lost (head-fatal) -/
def F.LNK_EVT_DOWN_LOST : Field := ⟨9061, 1, 0⟩
/-- LNK_EVT.LINK_LOST, bits 8, RW1C, reset 0: second upstream lane lost (head-fatal) -/
def F.LNK_EVT_LINK_LOST : Field := ⟨9062, 1, 0⟩
/-- LNK_EVT.LANE_RESTORED, bits 7, RW1C, reset 0: failed lane restored as spare (corrected) -/
def F.LNK_EVT_LANE_RESTORED : Field := ⟨9063, 1, 0⟩
/-- LNK_EVT.LANE_FAIL, bits 6, RW1C, reset 0: upstream lane failed (deferred) -/
def F.LNK_EVT_LANE_FAIL : Field := ⟨9064, 1, 0⟩
/-- LNK_EVT.MAP_ERR, bits 5, RW1C, reset 0: markers disagree, or announce an unrequested map (deferred) -/
def F.LNK_EVT_MAP_ERR : Field := ⟨9065, 1, 0⟩
/-- LNK_EVT.ROT_CANCEL, bits 4, RW1C, reset 0: rotation declined by the HFE (corrected) -/
def F.LNK_EVT_ROT_CANCEL : Field := ⟨9066, 1, 0⟩
/-- LNK_EVT.DROP, bits 3, RW1C, reset 0: item dropped (deferred) -/
def F.LNK_EVT_DROP : Field := ⟨9067, 1, 0⟩
/-- LNK_EVT.FLUSH_TRUNC, bits 2, RW1C, reset 0: partial item discarded by flush (corrected) -/
def F.LNK_EVT_FLUSH_TRUNC : Field := ⟨9068, 1, 0⟩
/-- LNK_EVT.POISON, bits 1, RW1C, reset 0: poisoned word delivered (deferred) -/
def F.LNK_EVT_POISON : Field := ⟨9069, 1, 0⟩
/-- LNK_EVT.LATE_WORD, bits 0, RW1C, reset 0: late servo words discarded (corrected) -/
def F.LNK_EVT_LATE_WORD : Field := ⟨9070, 1, 0⟩
/-- Internal mark of R21 for LNK_EVT: bit set while the event bit stands through a FORCE write. -/
def F.LNK_EVT_FORCED : Field := ⟨9071, 14, 0⟩
/-- LNK_EVT_MASK.MASK, bits 13:0, RW, reset 0: 1 masks the event bit -/
def F.LNK_EVT_MASK_MASK : Field := ⟨9072, 14, 0⟩
/-- LNK_EVT_HEADS.HEAD, bits 31:0, RW1C, reset 0: bit h set by any LNK event of head h or of its lanes -/
def F.LNK_EVT_HEADS_HEAD : Field := ⟨9073, 32, 0⟩
/-- CLR_CTL.FAULT_RST, bits 15, WO, reset 0: 1 performs the head's fault reset; acts in SAFE only -/
def F.CLR_CTL_FAULT_RST : Field := ⟨5001, 1, 0⟩
/-- CLR_CTL.WG_EN, bits 7, RW, reset 1: permits the write-gate permit (R116) -/
def F.CLR_CTL_WG_EN : Field := ⟨5002, 1, 1⟩
/-- CLR_CTL.NFF_EN, bits 6, RW, reset 1: neighbour feed-forward (R112) -/
def F.CLR_CTL_NFF_EN : Field := ⟨5003, 1, 1⟩
/-- CLR_CTL.RP_EN, bits 5, RW, reset 1: read-power regulation (R110) -/
def F.CLR_CTL_RP_EN : Field := ⟨5004, 1, 1⟩
/-- CLR_CTL.SF_EN, bits 4, RW, reset 1: sled follow (R109) -/
def F.CLR_CTL_SF_EN : Field := ⟨5005, 1, 1⟩
/-- CLR_CTL.LRN_INJ, bits 2:1, RW, reset 0b11: bit 1 tracking, bit 2 focus: learner injection enable -/
def F.CLR_CTL_LRN_INJ : Field := ⟨5006, 2, 3⟩
/-- CLR_CTL.EN, bits 0, RW, reset 0: Collier enable -/
def F.CLR_CTL_EN : Field := ⟨5007, 1, 0⟩
/-- CLR_STATUS.STATE, bits 31:28, RO, reset 0: 0 OFF, 1 PARKED, 2 ACQUIRE, 3 FOLLOW, 4 SEEK, 5 WRITE, 6 VERIFY, 7 HOLD, 8 SAFE -/
def F.CLR_STATUS_STATE : Field := ⟨5008, 4, 0⟩
/-- CLR_STATUS.TRK_VALID, bits 27, RO, reset 0: R114 -/
def F.CLR_STATUS_TRK_VALID : Field := ⟨5009, 1, 0⟩
/-- CLR_STATUS.TF, bits 26, RO, reset 0: track-follow flag -/
def F.CLR_STATUS_TF : Field := ⟨5010, 1, 0⟩
/-- CLR_STATUS.PERMIT, bits 25, RO, reset 0: write-gate permit of the last tick -/
def F.CLR_STATUS_PERMIT : Field := ⟨5011, 1, 0⟩
/-- CLR_STATUS.FOCUS_OK, bits 24, RO, reset 0: R113 -/
def F.CLR_STATUS_FOCUS_OK : Field := ⟨5012, 1, 0⟩
/-- CLR_STATUS.SLEWING, bits 23, RO, reset 0: a setpoint differs from its target -/
def F.CLR_STATUS_SLEWING : Field := ⟨5013, 1, 0⟩
/-- CLR_STATUS.HOLD_OVR, bits 22, RO, reset 0: HOLD entered through overruns -/
def F.CLR_STATUS_HOLD_OVR : Field := ⟨5014, 1, 0⟩
/-- CLR_STATUS.COMMIT_PEND, bits 21, RO, reset 0: as CLR_COEF_COMMIT.PEND -/
def F.CLR_STATUS_COMMIT_PEND : Field := ⟨5015, 1, 0⟩
/-- CLR_STATUS.PHASE, bits 11:8, RO, reset 0: sequence step: 0 none, 1 to 4 per R120, 5 KICK, 6 BRAKE, 7 SETTLE, 8 sled move, 9 hop -/
def F.CLR_STATUS_PHASE : Field := ⟨5016, 4, 0⟩
/-- CLR_POS.EST, bits 31, RO, reset 1: TRACK is an estimate -/
def F.CLR_POS_EST : Field := ⟨5017, 1, 1⟩
/-- CLR_POS.ZONE, bits 30:26, RO, reset 0: zone 0 to 23 -/
def F.CLR_POS_ZONE : Field := ⟨5018, 5, 0⟩
/-- CLR_POS.LAYER, bits 25:22, RO, reset 0: current layer -/
def F.CLR_POS_LAYER : Field := ⟨5019, 4, 0⟩
/-- CLR_POS.TRACK, bits 17:0, RO, reset 0: layer track of beam 0 -/
def F.CLR_POS_TRACK : Field := ⟨5020, 18, 0⟩
/-- CLR_OFFTRACK.MAX, bits 31:16, RC, reset 0: largest |OT| since last read, 0.25 nm; a read clears MAX only -/
def F.CLR_OFFTRACK_MAX : Field := ⟨5021, 16, 0⟩
/-- CLR_OFFTRACK.OT, bits 15:0, RO, reset 0: OT of the last tick, two's complement, 0.25 nm; saturates at ±0x7FFF -/
def F.CLR_OFFTRACK_OT : Field := ⟨5022, 16, 0⟩
/-- CLR_EVT.CFG_REJECT, bits 11, RW1C, reset 0: register or table write rejected (deferred) -/
def F.CLR_EVT_CFG_REJECT : Field := ⟨5023, 1, 0⟩
/-- CLR_EVT.FOCUS_REPEAT, bits 10, RW1C, reset 0: third focus loss in 400,000 ticks (head-fatal) -/
def F.CLR_EVT_FOCUS_REPEAT : Field := ⟨5024, 1, 0⟩
/-- CLR_EVT.HOLD_TIMEOUT, bits 9, RW1C, reset 0: HOLD exceeded HOLD_MAX (head-fatal) -/
def F.CLR_EVT_HOLD_TIMEOUT : Field := ⟨5025, 1, 0⟩
/-- CLR_EVT.RP_LIMIT, bits 8, RW1C, reset 0: read power held at a limit (deferred) -/
def F.CLR_EVT_RP_LIMIT : Field := ⟨5026, 1, 0⟩
/-- CLR_EVT.SF_LIMIT, bits 7, RW1C, reset 0: lens offset beyond HARD (deferred) -/
def F.CLR_EVT_SF_LIMIT : Field := ⟨5027, 1, 0⟩
/-- CLR_EVT.LAYER_FAIL, bits 6, RW1C, reset 0: layer hop failed (deferred) -/
def F.CLR_EVT_LAYER_FAIL : Field := ⟨5028, 1, 0⟩
/-- CLR_EVT.SEEK_FAIL, bits 5, RW1C, reset 0: seek or track jump failed (deferred) -/
def F.CLR_EVT_SEEK_FAIL : Field := ⟨5029, 1, 0⟩
/-- CLR_EVT.ACQ_FAIL, bits 4, RW1C, reset 0: focus or tracking acquisition failed (deferred) -/
def F.CLR_EVT_ACQ_FAIL : Field := ⟨5030, 1, 0⟩
/-- CLR_EVT.FOCUS_LOST, bits 3, RW1C, reset 0: focus lost (deferred) -/
def F.CLR_EVT_FOCUS_LOST : Field := ⟨5031, 1, 0⟩
/-- CLR_EVT.TRACK_SLIP, bits 2, RW1C, reset 0: track slip while following (deferred) -/
def F.CLR_EVT_TRACK_SLIP : Field := ⟨5032, 1, 0⟩
/-- CLR_EVT.SHOCK, bits 1, RW1C, reset 0: shock detected (corrected) -/
def F.CLR_EVT_SHOCK : Field := ⟨5033, 1, 0⟩
/-- CLR_EVT.SAT, bits 0, RW1C, reset 0: a CLR_SAT flag was set (corrected) -/
def F.CLR_EVT_SAT : Field := ⟨5034, 1, 0⟩
/-- Internal mark of R21 for CLR_EVT: bit set while the event bit stands through a FORCE write. -/
def F.CLR_EVT_FORCED : Field := ⟨5035, 12, 0⟩
/-- CLR_EVT_MASK.MASK, bits 11:0, RW, reset 0: 1 masks the event bit -/
def F.CLR_EVT_MASK_MASK : Field := ⟨5036, 12, 0⟩
/-- CLR_SAT.NFF, bits 24, RW1C, reset 0: neighbour sum saturated -/
def F.CLR_SAT_NFF : Field := ⟨5037, 1, 0⟩
/-- CLR_SAT.LOOP2, bits 22:16, RW1C, reset 0: bits IN ACC SEC INT_CLAMP INT_HOLD SUM OUT of loop 2, bit 0 to 6 -/
def F.CLR_SAT_LOOP2 : Field := ⟨5038, 7, 0⟩
/-- CLR_SAT.LOOP1, bits 14:8, RW1C, reset 0: bits IN ACC SEC INT_CLAMP INT_HOLD SUM OUT of loop 1, bit 0 to 6 -/
def F.CLR_SAT_LOOP1 : Field := ⟨5039, 7, 0⟩
/-- CLR_SAT.LOOP0, bits 6:0, RW1C, reset 0: bits IN ACC SEC INT_CLAMP INT_HOLD SUM OUT of loop 0, bit 0 to 6 -/
def F.CLR_SAT_LOOP0 : Field := ⟨5040, 7, 0⟩
/-- CLR_COEF_COMMIT.PEND, bits 2, RO, reset 0: commit requested and not yet performed -/
def F.CLR_COEF_COMMIT_PEND : Field := ⟨5041, 1, 0⟩
/-- CLR_COEF_COMMIT.ZERO_STATE, bits 1, WO, reset 0: with GO, clears section states at the commit -/
def F.CLR_COEF_COMMIT_ZERO_STATE : Field := ⟨5042, 1, 0⟩
/-- CLR_COEF_COMMIT.GO, bits 0, WO, reset 0: 1 requests a commit under R104 -/
def F.CLR_COEF_COMMIT_GO : Field := ⟨5043, 1, 0⟩
/-- CLR_LOOP_CTL.PLACED, bits 31, RO, reset per image: loop placed -/
def F.CLR_LOOP_CTL_PLACED : Field := ⟨5044, 1, 0⟩
/-- CLR_LOOP_CTL.NSOS, bits 30:27, RO, reset per image: sections, 0 to 12 -/
def F.CLR_LOOP_CTL_NSOS : Field := ⟨5045, 4, 0⟩
/-- CLR_LOOP_CTL.INT_TAP, bits 26:23, RO, reset per image: integrator tap -/
def F.CLR_LOOP_CTL_INT_TAP : Field := ⟨5046, 4, 0⟩
/-- CLR_LOOP_CTL.SRC, bits 22:19, RO, reset per image: input slot -/
def F.CLR_LOOP_CTL_SRC : Field := ⟨5047, 4, 0⟩
/-- CLR_LOOP_CTL.INT_EN, bits 1, RW, reset 1: integrator enable -/
def F.CLR_LOOP_CTL_INT_EN : Field := ⟨5048, 1, 1⟩
/-- CLR_LOOP_CTL.CLOSED, bits 0, RO, reset 0: loop closed in the last tick -/
def F.CLR_LOOP_CTL_CLOSED : Field := ⟨5049, 1, 0⟩
/-- CLR_SP.TARGET, bits 23:0, RW, reset 0: CLR_SP: setpoint target T, S0.23 -/
def F.CLR_SP_TARGET : Field := ⟨5050, 24, 0⟩
/-- CLR_SP_SLEW.SLEW, bits 22:0, RW, reset 0x00_0800: CLR_SP_SLEW: largest setpoint change per tick, S0.23 magnitude; 0 applies T at once; bit 23 reserved -/
def F.CLR_SP_SLEW_SLEW : Field := ⟨5051, 23, 2048⟩
/-- CLR_IN_GAIN.GAIN, bits 23:0, RW, reset 0x20_0000: CLR_IN_GAIN: input gain, S2.21 (1.0) -/
def F.CLR_IN_GAIN_GAIN : Field := ⟨5052, 24, 2097152⟩
/-- CLR_INT_KI.KI, bits 23:0, RW, reset 0: CLR_INT_KI: integrator gain, S2.21 -/
def F.CLR_INT_KI_KI : Field := ⟨5053, 24, 0⟩
/-- CLR_INT_LIM.LIM, bits 22:0, RW, reset 0x40_0000: CLR_INT_LIM: integrator limit, S0.23 magnitude (0.5); bit 23 reserved -/
def F.CLR_INT_LIM_LIM : Field := ⟨5054, 23, 4194304⟩
/-- CLR_OUT_LIM.LIM, bits 22:0, RW, reset 0x7F_FFFF: CLR_OUT_LIM: output limit, S0.23 magnitude; bit 23 reserved -/
def F.CLR_OUT_LIM_LIM : Field := ⟨5055, 23, 8388607⟩
/-- CLR_OUT.U, bits 23:0, RO, reset 0: CLR_OUT: output u of the last tick, S0.23 -/
def F.CLR_OUT_U : Field := ⟨5056, 24, 0⟩
/-- CLR_SF_CTL.BAND, bits 31:24, RW, reset 0x20: request threshold, × 2⁻⁸ -/
def F.CLR_SF_CTL_BAND : Field := ⟨5057, 8, 32⟩
/-- CLR_SF_CTL.REARM, bits 23:16, RW, reset 0x08: re-arm threshold, × 2⁻⁸ -/
def F.CLR_SF_CTL_REARM : Field := ⟨5058, 8, 8⟩
/-- CLR_SF_CTL.HARD, bits 15:8, RW, reset 0x60: hard lens-offset limit, × 2⁻⁸ -/
def F.CLR_SF_CTL_HARD : Field := ⟨5059, 8, 96⟩
/-- CLR_SF_CTL.DWELL, bits 7:0, RW, reset 4: minimum profile ticks between requests; 0 acts as 1 -/
def F.CLR_SF_CTL_DWELL : Field := ⟨5060, 8, 4⟩
/-- CLR_SF_STATUS.LO, bits 31:16, RO, reset 0: lens offset LO, S0.15 -/
def F.CLR_SF_STATUS_LO : Field := ⟨5061, 16, 0⟩
/-- CLR_SF_STATUS.STEPS, bits 15:0, RC, reset 0: step requests since last read; saturates; a read clears STEPS only -/
def F.CLR_SF_STATUS_STEPS : Field := ⟨5062, 16, 0⟩
/-- CLR_SF_FILT.SHIFT, bits 3:0, RW, reset 12: filter shift, 6 to 14; other values are ignored and raise CFG_REJECT -/
def F.CLR_SF_FILT_SHIFT : Field := ⟨5063, 4, 12⟩
/-- CLR_RP_CTL.TARGET, bits 31:16, RW, reset 0: LDM target -/
def F.CLR_RP_CTL_TARGET : Field := ⟨5064, 16, 0⟩
/-- CLR_RP_CTL.BAND, bits 15:8, RW, reset 16: error band, LDM counts -/
def F.CLR_RP_CTL_BAND : Field := ⟨5065, 8, 16⟩
/-- CLR_RP_CTL.DIV, bits 7:0, RW, reset 16: servo ticks per evaluation; 0 acts as 1 -/
def F.CLR_RP_CTL_DIV : Field := ⟨5066, 8, 16⟩
/-- CLR_RP_LIM.START, bits 29:20, RW, reset 0x100: code on entry to ACQUIRE -/
def F.CLR_RP_LIM_START : Field := ⟨5067, 10, 256⟩
/-- CLR_RP_LIM.MAX, bits 19:10, RW, reset 0x300: highest code -/
def F.CLR_RP_LIM_MAX : Field := ⟨5068, 10, 768⟩
/-- CLR_RP_LIM.MIN, bits 9:0, RW, reset 0x040: lowest code; a write with MIN > START or START > MAX is ignored and raises CFG_REJECT -/
def F.CLR_RP_LIM_MIN : Field := ⟨5069, 10, 64⟩
/-- CLR_RP_STATUS.CODE, bits 25:16, RO, reset 0: present RPWR -/
def F.CLR_RP_STATUS_CODE : Field := ⟨5070, 10, 0⟩
/-- CLR_RP_STATUS.ATLIM, bits 7:0, RO, reset 0: consecutive clamped evaluations; saturates at 255 -/
def F.CLR_RP_STATUS_ATLIM : Field := ⟨5071, 8, 0⟩
/-- CLR_NFF_K.K, bits 23:0, RW, reset 0: coupling from axis 4d + j, S2.21; ignored for j = s -/
def F.CLR_NFF_K_K : Field := ⟨5072, 24, 0⟩
/-- CLR_FA_CTL.AMP, bits 31:16, RW, reset 0x4000: sweep amplitude, S0.15 (0.5) -/
def F.CLR_FA_CTL_AMP : Field := ⟨5073, 16, 16384⟩
/-- CLR_FA_CTL.STEP, bits 15:4, RW, reset 0x400: sweep step per tick, × 2⁻²³ -/
def F.CLR_FA_CTL_STEP : Field := ⟨5074, 12, 1024⟩
/-- CLR_FA_CTL.TRIES, bits 3:0, RW, reset 3: sweeps before ACQ_FAIL; 0 acts as 1 -/
def F.CLR_FA_CTL_TRIES : Field := ⟨5075, 4, 3⟩
/-- CLR_FA_TH.SUM_TH, bits 31:16, RW, reset 0x1000: CLR_FA_TH: SUM needed to count an S-curve, S0.15 -/
def F.CLR_FA_TH_SUM_TH : Field := ⟨5076, 16, 4096⟩
/-- CLR_FA_TH.FE_TH, bits 15:0, RW, reset 0x0800: CLR_FA_TH: FE peak needed to count an S-curve, S0.15 -/
def F.CLR_FA_TH_FE_TH : Field := ⟨5077, 16, 2048⟩
/-- CLR_FOCUS_TH.FE_OK, bits 31:16, RW, reset 0x0200: CLR_FOCUS_TH: focus-in-band limit, S0.15 -/
def F.CLR_FOCUS_TH_FE_OK : Field := ⟨5078, 16, 512⟩
/-- CLR_FOCUS_TH.SUM_LOST, bits 15:0, RW, reset 0x0600: CLR_FOCUS_TH: focus-loss threshold, S0.15 -/
def F.CLR_FOCUS_TH_SUM_LOST : Field := ⟨5079, 16, 1536⟩
/-- CLR_JUMP_CTL.KICK, bits 31:16, RW, reset 0x0C00: kick and brake amplitude, S0.15 (both registers; layer reset 0x1800) -/
def F.CLR_JUMP_CTL_KICK : Field := ⟨5080, 16, 3072⟩
/-- CLR_JUMP_CTL.JUMP_MAX, bits 15:8, RW, reset 64: CLR_JUMP_CTL: longest lens-only jump, lands, 1 to 255 -/
def F.CLR_JUMP_CTL_JUMP_MAX : Field := ⟨5081, 8, 64⟩
/-- CLR_JUMP_CTL.TMO, bits 7:0, RW, reset 25: timeout; × 16 ticks (CLR_JUMP_CTL) or × 4 ticks (CLR_LAYER_CTL, reset 100) -/
def F.CLR_JUMP_CTL_TMO : Field := ⟨5082, 8, 25⟩
/-- CLR_LAYER_CTL.KICK, bits 31:16, RW, reset 0x1800: kick and brake amplitude, S0.15 (both registers; layer reset 0x1800) -/
def F.CLR_LAYER_CTL_KICK : Field := ⟨5083, 16, 6144⟩
/-- CLR_LAYER_CTL.KT, bits 15:8, RW, reset 40: CLR_LAYER_CTL: ticks from LAYER change to focus kick -/
def F.CLR_LAYER_CTL_KT : Field := ⟨5084, 8, 40⟩
/-- CLR_LAYER_CTL.TMO, bits 7:0, RW, reset 100: timeout, x 4 ticks -/
def F.CLR_LAYER_CTL_TMO : Field := ⟨5085, 8, 100⟩
/-- CLR_TRACK_TH.TF_BAND, bits 31:16, RW, reset 160: CLR_TRACK_TH: track-follow band, 0.25 nm (40 nm) -/
def F.CLR_TRACK_TH_TF_BAND : Field := ⟨5086, 16, 160⟩
/-- CLR_TRACK_TH.WG_BAND, bits 15:0, RW, reset 96: CLR_TRACK_TH: write band, 0.25 nm (24 nm); WG_BAND > TF_BAND is ignored and raises CFG_REJECT -/
def F.CLR_TRACK_TH_WG_BAND : Field := ⟨5087, 16, 96⟩
/-- CLR_SHOCK_TH.SHOCK_OT, bits 31:16, RW, reset 192: CLR_SHOCK_TH: shock off-track limit, 0.25 nm (48 nm) -/
def F.CLR_SHOCK_TH_SHOCK_OT : Field := ⟨5088, 16, 192⟩
/-- CLR_SHOCK_TH.SHOCK_FE, bits 15:0, RW, reset 0x0800: CLR_SHOCK_TH: shock focus limit, S0.15 -/
def F.CLR_SHOCK_TH_SHOCK_FE : Field := ⟨5089, 16, 2048⟩
/-- CLR_HOLD_CTL.MAX, bits 31:12, RW, reset 25,000: longest HOLD, × 16 ticks (1 s); 0 acts as 1 -/
def F.CLR_HOLD_CTL_MAX : Field := ⟨5090, 20, 25000⟩
/-- CLR_HOLD_CTL.MIN, bits 11:0, RW, reset 400: shortest HOLD, ticks -/
def F.CLR_HOLD_CTL_MIN : Field := ⟨5091, 12, 400⟩
/-- CLR_COEF.COEF, bits 23:0, RW, reset per image: shadow coefficient, S2.21 -/
def F.CLR_COEF_COEF : Field := ⟨5092, 24, 0⟩
/-- CLR_COEF_LIVE.COEF, bits 23:0, RO, reset per image: live coefficient, S2.21 -/
def F.CLR_COEF_LIVE_COEF : Field := ⟨5093, 24, 0⟩
/-- LRN_CTL.SEED_MIN, bits 31:24, RW, reset 8: revolutions a source needs (R133, R137); 0 acts as 1 -/
def F.LRN_CTL_SEED_MIN : Field := ⟨6001, 8, 8⟩
/-- LRN_CTL.SETTLE, bits 23:16, RW, reset 25: settle after sequences, × 16 ticks (R134) -/
def F.LRN_CTL_SETTLE : Field := ⟨6002, 8, 25⟩
/-- LRN_CTL.FADE, bits 15:8, RW, reset 64: fade length in ticks (R130); 0 acts as 1 -/
def F.LRN_CTL_FADE : Field := ⟨6003, 8, 64⟩
/-- LRN_CTL.CLEAR, bits 5:4, WO, reset 0: bit 4 focus, bit 5 tracking: 1 clears the table (R143) -/
def F.LRN_CTL_CLEAR : Field := ⟨6004, 2, 0⟩
/-- LRN_CTL.SEED_EN, bits 2, RW, reset 1: automatic seeding (R137) -/
def F.LRN_CTL_SEED_EN : Field := ⟨6005, 1, 1⟩
/-- LRN_CTL.LEARN, bits 1:0, RW, reset 0b11: bit 0 focus, bit 1 tracking: learning enabled -/
def F.LRN_CTL_LEARN : Field := ⟨6006, 2, 3⟩
/-- LRN_STATUS.SEEDING, bits 31:30, RO, reset 0: bit 30 focus, bit 31 tracking: copy into the loop in progress -/
def F.LRN_STATUS_SEEDING : Field := ⟨6007, 2, 0⟩
/-- LRN_STATUS.FROZEN, bits 29:28, RO, reset 0: bit 28 focus, bit 29 tracking: last update suppressed (R134) -/
def F.LRN_STATUS_FROZEN : Field := ⟨6008, 2, 0⟩
/-- LRN_STATUS.XTRAP, bits 27, RO, reset 0: angle continued by the learner (R130) -/
def F.LRN_STATUS_XTRAP : Field := ⟨6009, 1, 0⟩
/-- LRN_STATUS.PSI, bits 15:0, RO, reset 0: ψr of the last injection -/
def F.LRN_STATUS_PSI : Field := ⟨6010, 16, 0⟩
/-- LRN_MOUNT.MOUNT, bits 15:0, RO, reset per image: mounting angle in angle counts (R126) -/
def F.LRN_MOUNT_MOUNT : Field := ⟨6011, 16, 0⟩
/-- LRN_SEED.BUSY, bits 31, RO, reset 0: a copy into this head is in progress -/
def F.LRN_SEED_BUSY : Field := ⟨6012, 1, 0⟩
/-- LRN_SEED.LOOPS, bits 3:2, WO, reset 0: bit 2 focus, bit 3 tracking: loops to seed -/
def F.LRN_SEED_LOOPS : Field := ⟨6013, 2, 0⟩
/-- LRN_SEED.GO, bits 0, WO, reset 0: 1 requests a seed from the partner (R140) -/
def F.LRN_SEED_GO : Field := ⟨6014, 1, 0⟩
/-- LRN_EVT.CFG_REJECT, bits 6, RW1C, reset 0: register or table write rejected (deferred) -/
def F.LRN_EVT_CFG_REJECT : Field := ⟨6015, 1, 0⟩
/-- LRN_EVT.ECC, bits 5, RW1C, reset 0: uncorrectable entry taken as 0 (deferred) -/
def F.LRN_EVT_ECC : Field := ⟨6016, 1, 0⟩
/-- LRN_EVT.ANGLE_FADE, bits 4, RW1C, reset 0: angle-valid lost; injection fading (corrected) -/
def F.LRN_EVT_ANGLE_FADE : Field := ⟨6017, 1, 0⟩
/-- LRN_EVT.CLEARED, bits 3, RW1C, reset 0: a table was cleared (corrected) -/
def F.LRN_EVT_CLEARED : Field := ⟨6018, 1, 0⟩
/-- LRN_EVT.SEED_REFUSED, bits 2, RW1C, reset 0: seed not made or abandoned (deferred) -/
def F.LRN_EVT_SEED_REFUSED : Field := ⟨6019, 1, 0⟩
/-- LRN_EVT.SEED_DONE, bits 1, RW1C, reset 0: seed copy complete (corrected) -/
def F.LRN_EVT_SEED_DONE : Field := ⟨6020, 1, 0⟩
/-- LRN_EVT.SAT, bits 0, RW1C, reset 0: entry or scale saturated (corrected) -/
def F.LRN_EVT_SAT : Field := ⟨6021, 1, 0⟩
/-- Internal mark of R21 for LRN_EVT: bit set while the event bit stands through a FORCE write. -/
def F.LRN_EVT_FORCED : Field := ⟨6022, 7, 0⟩
/-- LRN_EVT_MASK.MASK, bits 6:0, RW, reset 0: 1 masks the event bit -/
def F.LRN_EVT_MASK_MASK : Field := ⟨6023, 7, 0⟩
/-- LRN_DEF_CTL.DEF_TH, bits 23:16, RW, reset 0xA0: defect threshold, × 2⁻⁸ of SUM_AVG (0.625) -/
def F.LRN_DEF_CTL_DEF_TH : Field := ⟨6024, 8, 160⟩
/-- LRN_DEF_CTL.PRE, bits 11:8, RW, reset 8: ticks blanked before a defect or shock, 0 to 8; 9 to 15 are ignored and raise CFG_REJECT -/
def F.LRN_DEF_CTL_PRE : Field := ⟨6025, 4, 8⟩
/-- LRN_DEF_CTL.POST, bits 7:0, RW, reset 32: ticks blanked after a defect or shock -/
def F.LRN_DEF_CTL_POST : Field := ⟨6026, 8, 32⟩
/-- LRN_SPD_CTL.REF_RPM, bits 31:16, RW, reset 4,800: reference speed in rpm, 1,000 to 6,000; other values are ignored and raise CFG_REJECT -/
def F.LRN_SPD_CTL_REF_RPM : Field := ⟨6027, 16, 4800⟩
/-- LRN_SPD_CTL.SPD_EXP_T, bits 3:2, RW, reset 0: tracking speed exponent p: 0, 1 or 2; 3 is ignored and raises CFG_REJECT -/
def F.LRN_SPD_CTL_SPD_EXP_T : Field := ⟨6028, 2, 0⟩
/-- LRN_SPD_CTL.SPD_EXP_F, bits 1:0, RW, reset 0: focus speed exponent p, as SPD_EXP_T -/
def F.LRN_SPD_CTL_SPD_EXP_F : Field := ⟨6029, 2, 0⟩
/-- LRN_GAIN.MU, bits 31:16, RW, reset 0x4000: learning gain, × 2⁻¹⁶ (0.25) -/
def F.LRN_GAIN_MU : Field := ⟨6030, 16, 16384⟩
/-- LRN_GAIN.FSHIFT, bits 12:8, RW, reset 10: forgetting shift: 0 none, or 4 to 20; 1 to 3 and 21 to 31 are ignored and raise CFG_REJECT -/
def F.LRN_GAIN_FSHIFT : Field := ⟨6031, 5, 10⟩
/-- LRN_GAIN.LEAD, bits 5:0, RW, reset 0: injection lead, quarter ticks (R129) -/
def F.LRN_GAIN_LEAD : Field := ⟨6032, 6, 0⟩
/-- LRN_LOOP_STATUS.REVS, bits 31:24, RO, reset 0: learning revolutions counted (R133); saturates at 255 -/
def F.LRN_LOOP_STATUS_REVS : Field := ⟨6033, 8, 0⟩
/-- LRN_LOOP_STATUS.EMPTY, bits 23, RO, reset 1: table cleared and not since updated or seeded -/
def F.LRN_LOOP_STATUS_EMPTY : Field := ⟨6034, 1, 1⟩
/-- LRN_LOOP_STATUS.SEEDED, bits 22, RO, reset 0: table last filled by a seed copy -/
def F.LRN_LOOP_STATUS_SEEDED : Field := ⟨6035, 1, 0⟩
/-- LRN_LOOP_STATUS.SAT, bits 21, RW1C, reset 0: entry or scale saturation since last cleared -/
def F.LRN_LOOP_STATUS_SAT : Field := ⟨6036, 1, 0⟩
/-- LRN_LOOP_STATUS.RESID, bits 15:0, RO, reset 0: mean |g| of the last counted revolution, S0.15 -/
def F.LRN_LOOP_STATUS_RESID : Field := ⟨6037, 16, 0⟩
/-- LRN_INJ.LRN, bits 23:0, RO, reset 0: injection computed for the next Collier tick, S0.23 -/
def F.LRN_INJ_LRN : Field := ⟨6038, 24, 0⟩
/-- LRN_ENTRY.W, bits 31:0, RW, reset 0: learned normalised drive, S0.31 (R144) -/
def F.LRN_ENTRY_W : Field := ⟨6039, 32, 0⟩
/-- LRN_SCALE.RECIP, bits 55:32, RW, reset 0x20_0000: reciprocal factor, S2.21 (R145) -/
def F.LRN_SCALE_RECIP : Field := ⟨6040, 24, 2097152⟩
/-- LRN_SCALE.GAIN, bits 23:0, RW, reset 0x20_0000: gain factor, S2.21 (R145) -/
def F.LRN_SCALE_GAIN : Field := ⟨6041, 24, 2097152⟩

end Sys2Proof.Machine
end

