-- ==== Sys2Proof/Machine/FieldsB.lean ====
section
/-!
DEFINITION. The register fields of blocks SLD, WND, CHN, ASY, PRC and WRP, one definition per field of the register tables of the spec:
its number in the register store (block number x 1000 + position), its width and its reset value (R453: "per image",
"fuses" and "strap" stand as 0 here, the value before an image is placed, fuses are sensed or straps are sampled).
-/
namespace Sys2Proof.Machine

/-- SLD_CTL.STILL, bits 7:6, RW, reset 0: standstill mode (R155); 3 is ignored and raises CFG_REJECT -/
def F.SLD_CTL_STILL : Field := ⟨8001, 2, 0⟩
/-- SLD_CTL.PROFILE, bits 5, RW, reset 0: 0 trapezoidal, 1 S-curve; written only in IDLE or UNHOMED, otherwise ignored with CFG_REJECT -/
def F.SLD_CTL_PROFILE : Field := ⟨8002, 1, 0⟩
/-- SLD_CTL.NO_OVERSHOOT, bits 4, RW, reset 0: raises deceleration up to AHARD (R150) -/
def F.SLD_CTL_NO_OVERSHOOT : Field := ⟨8003, 1, 0⟩
/-- SLD_CTL.STOP, bits 3, WO, reset 0: planned stop (R159) -/
def F.SLD_CTL_STOP : Field := ⟨8004, 1, 0⟩
/-- SLD_CTL.PARK, bits 2, WO, reset 0: move to park position -/
def F.SLD_CTL_PARK : Field := ⟨8005, 1, 0⟩
/-- SLD_CTL.HOME, bits 1, WO, reset 0: start homing; acts in UNHOMED only -/
def F.SLD_CTL_HOME : Field := ⟨8006, 1, 0⟩
/-- SLD_CTL.EN, bits 0, RW, reset 0: axis enable -/
def F.SLD_CTL_EN : Field := ⟨8007, 1, 0⟩
/-- SLD_STATUS.STATE, bits 31:29, RO, reset 0: 0 OFF, 1 UNHOMED, 2 HOMING, 3 IDLE, 4 MOVING, 5 STOPPING, 6 FAULT -/
def F.SLD_STATUS_STATE : Field := ⟨8008, 3, 0⟩
/-- SLD_STATUS.PHASE, bits 28:26, RO, reset 0: homing phase 1 to 5 (R157); 0 otherwise -/
def F.SLD_STATUS_PHASE : Field := ⟨8009, 3, 0⟩
/-- SLD_STATUS.HOMED, bits 25, RO, reset 0: reference valid -/
def F.SLD_STATUS_HOMED : Field := ⟨8010, 1, 0⟩
/-- SLD_STATUS.PEND, bits 24, RO, reset 0: group target pending (R158) -/
def F.SLD_STATUS_PEND : Field := ⟨8011, 1, 0⟩
/-- SLD_STATUS.SWITCH, bits 23, RO, reset 0: debounced switch active -/
def F.SLD_STATUS_SWITCH : Field := ⟨8012, 1, 0⟩
/-- SLD_STATUS.RAW, bits 22, RO, reset 0: last raw LIMIT sample -/
def F.SLD_STATUS_RAW : Field := ⟨8013, 1, 0⟩
/-- SLD_GEOM.HOME_DIR, bits 31, RO, reset per image: SLD_GEOM: 0 switch inward, 1 outward -/
def F.SLD_GEOM_HOME_DIR : Field := ⟨8014, 1, 0⟩
/-- SLD_GEOM.GROUP, bits 30:28, RO, reset per image: SLD_GEOM: shared-start group, 0 none -/
def F.SLD_GEOM_GROUP : Field := ⟨8015, 3, 0⟩
/-- SLD_GEOM.MICRO, bits 27:26, RO, reset per image: SLD_GEOM: 0 32, 1 64, 2 128, 3 256 steps per full step -/
def F.SLD_GEOM_MICRO : Field := ⟨8016, 2, 0⟩
/-- SLD_GEOM.STEP_PM, bits 19:0, RO, reset per image: SLD_GEOM: travel per step, picometres -/
def F.SLD_GEOM_STEP_PM : Field := ⟨8017, 20, 0⟩
/-- SLD_AHARD.AHARD, bits 23:0, RO, reset per image: SLD_AHARD: hard acceleration limit, U0.24 -/
def F.SLD_AHARD_AHARD : Field := ⟨8018, 24, 0⟩
/-- SLD_TARGET.X, bits 31:0, RW, reset 0: SLD_TARGET: absolute target, two's complement steps (R154, R158); reads return x, not a pending value -/
def F.SLD_TARGET_X : Field := ⟨8019, 32, 0⟩
/-- SLD_POS.P, bits 31:0, RO, reset 0: SLD_POS: ⌊p⌋, two's complement steps -/
def F.SLD_POS_P : Field := ⟨8020, 32, 0⟩
/-- SLD_VEL.V, bits 31:0, RO, reset 0: SLD_VEL: v, S15.16 -/
def F.SLD_VEL_V : Field := ⟨8021, 32, 0⟩
/-- SLD_ACC.A, bits 23:0, RO, reset 0: SLD_ACC: a_h of the last profile tick, S0.23 (R153) -/
def F.SLD_ACC_A : Field := ⟨8022, 24, 0⟩
/-- SLD_VMAX.VMAX, bits 15:0, RW, reset 0x1000: U8.8 (16.0); bits 31:16 reserved; 0 is ignored and raises CFG_REJECT -/
def F.SLD_VMAX_VMAX : Field := ⟨8023, 16, 4096⟩
/-- SLD_AMAX.AMAX, bits 23:0, RW, reset 0x02_0000: U0.24 (0.0078); bits 31:24 reserved; 0 or above AHARD is ignored and raises CFG_REJECT -/
def F.SLD_AMAX_AMAX : Field := ⟨8024, 24, 131072⟩
/-- SLD_DMAX.DMAX, bits 23:0, RW, reset 0x02_0000: as AMAX -/
def F.SLD_DMAX_DMAX : Field := ⟨8025, 24, 131072⟩
/-- SLD_JMAX.JMAX, bits 23:0, RW, reset 0x00_0400: × 2⁻³²; bits 31:24 reserved; 0 is ignored and raises CFG_REJECT -/
def F.SLD_JMAX_JMAX : Field := ⟨8026, 24, 1024⟩
/-- SLD_SOFT_MIN.POS, bits 31:0, RW, reset 0x8000_0000: two's complement steps, in the order listed; a write leaving SOFT_MIN ≥ SOFT_MAX, or PARK outside them, is ign -/
def F.SLD_SOFT_MIN_POS : Field := ⟨8027, 32, 2147483648⟩
/-- SLD_SOFT_MAX.POS, bits 31:0, RW, reset 0x7FFF_FFFF: two's complement steps, in the order listed; a write leaving SOFT_MIN ≥ SOFT_MAX, or PARK outside them, is ign -/
def F.SLD_SOFT_MAX_POS : Field := ⟨8028, 32, 2147483647⟩
/-- SLD_PARK.POS, bits 31:0, RW, reset 0: two's complement steps, in the order listed; a write leaving SOFT_MIN ≥ SOFT_MAX, or PARK outside them, is ign -/
def F.SLD_PARK_POS : Field := ⟨8029, 32, 0⟩
/-- SLD_FOLLOW.STEPS, bits 31:24, RW, reset 4: steps per sled-follow request, 1 to 255; 0 acts as 1 -/
def F.SLD_FOLLOW_STEPS : Field := ⟨8030, 8, 4⟩
/-- SLD_FOLLOW.DISCARDS, bits 23:12, RC, reset 0: requests discarded (R154); saturates -/
def F.SLD_FOLLOW_DISCARDS : Field := ⟨8031, 12, 0⟩
/-- SLD_FOLLOW.DONE, bits 11:0, RC, reset 0: requests applied; saturates -/
def F.SLD_FOLLOW_DONE : Field := ⟨8032, 12, 0⟩
/-- SLD_CUR.RUN, bits 31:20, RW, reset 0xC00: running amplitude, × 2⁻¹² of full scale -/
def F.SLD_CUR_RUN : Field := ⟨8033, 12, 3072⟩
/-- SLD_CUR.HOLD, bits 19:8, RW, reset 0x400: holding amplitude, × 2⁻¹² of full scale -/
def F.SLD_CUR_HOLD : Field := ⟨8034, 12, 1024⟩
/-- SLD_CUR.DELAY, bits 7:0, RW, reset 20: profile ticks at RUN after arrival -/
def F.SLD_CUR_DELAY : Field := ⟨8035, 8, 20⟩
/-- SLD_HOME_CTL.DEB, bits 31:24, RW, reset 40: debounce window, servo ticks (100 µs); 0 acts as 1 -/
def F.SLD_HOME_CTL_DEB : Field := ⟨8036, 8, 40⟩
/-- SLD_HOME_CTL.HOME_V, bits 23:8, RW, reset 0x0400: phase 2 speed, U8.8 (4.0); phase 4 uses a quarter -/
def F.SLD_HOME_CTL_HOME_V : Field := ⟨8037, 16, 1024⟩
/-- SLD_HOME_CTL.POL, bits 0, RW, reset 1: LIMIT level that means active -/
def F.SLD_HOME_CTL_POL : Field := ⟨8038, 1, 1⟩
/-- SLD_HOME_RANGE.STEPS, bits 31:0, RW, reset 163,840: SLD_HOME_RANGE: travel limit for homing, steps -/
def F.SLD_HOME_RANGE_STEPS : Field := ⟨8039, 32, 163840⟩
/-- SLD_HOME_TMO.TMO, bits 15:0, RW, reset 1,250: SLD_HOME_TMO: time limit, × 16 profile ticks (1 s); bits 31:16 reserved -/
def F.SLD_HOME_TMO_TMO : Field := ⟨8040, 16, 1250⟩
/-- SLD_HOME_POS.POS, bits 31:0, RW, reset 0: two's complement steps, in the order listed; a write leaving SOFT_MIN ≥ SOFT_MAX, or PARK outside them, is ign -/
def F.SLD_HOME_POS_POS : Field := ⟨8041, 32, 0⟩
/-- SLD_HOME_STATUS.TRANS, bits 31:24, RC, reset 0: most raw transitions seen within one debounce window during homing -/
def F.SLD_HOME_STATUS_TRANS : Field := ⟨8042, 8, 0⟩
/-- SLD_HOME_STATUS.TRAVEL, bits 23:0, RO, reset 0: steps travelled in the last homing; saturates -/
def F.SLD_HOME_STATUS_TRAVEL : Field := ⟨8043, 24, 0⟩
/-- SLD_EVT.CFG_REJECT, bits 9, RW1C, reset 0: register write rejected (deferred) -/
def F.SLD_EVT_CFG_REJECT : Field := ⟨8044, 1, 0⟩
/-- SLD_EVT.HOME_CHATTER, bits 8, RW1C, reset 0: limit switch chatter in homing (head-fatal) -/
def F.SLD_EVT_HOME_CHATTER : Field := ⟨8045, 1, 0⟩
/-- SLD_EVT.HOME_FAIL, bits 7, RW1C, reset 0: homing failed (head-fatal) -/
def F.SLD_EVT_HOME_FAIL : Field := ⟨8046, 1, 0⟩
/-- SLD_EVT.HOME_DONE, bits 6, RW1C, reset 0: reference set (corrected) -/
def F.SLD_EVT_HOME_DONE : Field := ⟨8047, 1, 0⟩
/-- SLD_EVT.LIMIT_HIT, bits 5, RW1C, reset 0: switch tripped outside homing (deferred) -/
def F.SLD_EVT_LIMIT_HIT : Field := ⟨8048, 1, 0⟩
/-- SLD_EVT.DECEL_LIMIT, bits 4, RW1C, reset 0: AHARD insufficient under NO_OVERSHOOT (deferred) -/
def F.SLD_EVT_DECEL_LIMIT : Field := ⟨8049, 1, 0⟩
/-- SLD_EVT.DECEL_RAISED, bits 3, RW1C, reset 0: deceleration raised above DMAX (corrected) -/
def F.SLD_EVT_DECEL_RAISED : Field := ⟨8050, 1, 0⟩
/-- SLD_EVT.OVERSHOOT, bits 2, RW1C, reset 0: target passed; axis reversing (corrected) -/
def F.SLD_EVT_OVERSHOOT : Field := ⟨8051, 1, 0⟩
/-- SLD_EVT.SOFT_LIMIT, bits 1, RW1C, reset 0: target clamped (deferred) -/
def F.SLD_EVT_SOFT_LIMIT : Field := ⟨8052, 1, 0⟩
/-- SLD_EVT.FOLLOW_DISCARD, bits 0, RW1C, reset 0: sled-follow request discarded (corrected) -/
def F.SLD_EVT_FOLLOW_DISCARD : Field := ⟨8053, 1, 0⟩
/-- Internal mark of R21 for SLD_EVT: bit set while the event bit stands through a FORCE write. -/
def F.SLD_EVT_FORCED : Field := ⟨8054, 10, 0⟩
/-- SLD_EVT_MASK.MASK, bits 9:0, RW, reset 0: 1 masks the event bit -/
def F.SLD_EVT_MASK_MASK : Field := ⟨8055, 10, 0⟩
/-- SLD_GROUP_GO.GO, bits 7:1, WO, reset 0: SLD_GROUP_GO: bit g starts group g (R158) -/
def F.SLD_GROUP_GO_GO : Field := ⟨8056, 7, 0⟩
/-- SLD_EVT_AXES.AXIS, bits 31:0, RW1C, reset 0: SLD_EVT_AXES: bit h set by any SLD event of axis h -/
def F.SLD_EVT_AXES_AXIS : Field := ⟨8057, 32, 0⟩
/-- WND_CTL.PAIR_SRC, bits 5:4, RW, reset 0: 0 none, 1 partner deck, 2 ring (even deck only), 3 ignored with CFG_REJECT -/
def F.WND_CTL_PAIR_SRC : Field := ⟨7001, 2, 0⟩
/-- WND_CTL.CHOP_EN, bits 3, RW, reset 1: brake chopper control (R178) -/
def F.WND_CTL_CHOP_EN : Field := ⟨7002, 1, 1⟩
/-- WND_CTL.DECOUPLE, bits 2, RW, reset 1: decoupling terms (R167) -/
def F.WND_CTL_DECOUPLE : Field := ⟨7003, 1, 1⟩
/-- WND_CTL.DTC, bits 1, RW, reset 0: dead-time compensation: each duty is corrected by DT / T with the sign of its phase current -/
def F.WND_CTL_DTC : Field := ⟨7004, 1, 0⟩
/-- WND_CTL.EN, bits 0, RW, reset 0: Winder enable -/
def F.WND_CTL_EN : Field := ⟨7005, 1, 0⟩
/-- WND_STATUS.STATE, bits 31:29, RO, reset 0: 0 EMPTY, 1 LOADED, 2 SPINUP, 3 READY, 4 BRAKING, 5 FAULT -/
def F.WND_STATUS_STATE : Field := ⟨7006, 3, 0⟩
/-- WND_STATUS.PHASE, bits 28:26, RO, reset 0: spin-up phase 1 to 7 (R176); 0 otherwise -/
def F.WND_STATUS_PHASE : Field := ⟨7007, 3, 0⟩
/-- WND_STATUS.ANGLE_VALID, bits 25, RO, reset 0: R173 -/
def F.WND_STATUS_ANGLE_VALID : Field := ⟨7008, 1, 0⟩
/-- WND_STATUS.LOCKED, bits 24, RO, reset 0: R170 -/
def F.WND_STATUS_LOCKED : Field := ⟨7009, 1, 0⟩
/-- WND_STATUS.REF, bits 23:22, RO, reset 0: 0 NONE, 1 PROVISIONAL, 2 REFERENCED -/
def F.WND_STATUS_REF : Field := ⟨7010, 2, 0⟩
/-- WND_STATUS.AT_SPEED, bits 21, RO, reset 0: R175 -/
def F.WND_STATUS_AT_SPEED : Field := ⟨7011, 1, 0⟩
/-- WND_STATUS.CHOP_ON, bits 20, RO, reset 0: SPd_BRK on -/
def F.WND_STATUS_CHOP_ON : Field := ⟨7012, 1, 0⟩
/-- WND_STATUS.SHORT, bits 19, RO, reset 0: winding-short braking active -/
def F.WND_STATUS_SHORT : Field := ⟨7013, 1, 0⟩
/-- WND_STATUS.PAIR_LOCK, bits 18, RO, reset 0: R184 -/
def F.WND_STATUS_PAIR_LOCK : Field := ⟨7014, 1, 0⟩
/-- WND_STATUS.REVERSE, bits 17, RO, reset 0: ω negative -/
def F.WND_STATUS_REVERSE : Field := ⟨7015, 1, 0⟩
/-- WND_STATUS.AT_REST, bits 16, RO, reset 0: R185 -/
def F.WND_STATUS_AT_REST : Field := ⟨7016, 1, 0⟩
/-- WND_STATUS.SECTOR, bits 2:0, RO, reset 0: 1 to 6 (R167, R168); 0 while not modulating -/
def F.WND_STATUS_SECTOR : Field := ⟨7017, 3, 0⟩
/-- WND_CMD.FAULT_RST, bits 4, WO, reset 0: deck fault reset (R185) -/
def F.WND_CMD_FAULT_RST : Field := ⟨7018, 1, 0⟩
/-- WND_CMD.UNLOAD, bits 3, WO, reset 0: disc removed -/
def F.WND_CMD_UNLOAD : Field := ⟨7019, 1, 0⟩
/-- WND_CMD.STOP, bits 2, WO, reset 0: stop the spindle -/
def F.WND_CMD_STOP : Field := ⟨7020, 1, 0⟩
/-- WND_CMD.START, bits 1, WO, reset 0: start the spindle -/
def F.WND_CMD_START : Field := ⟨7021, 1, 0⟩
/-- WND_CMD.LOAD, bits 0, WO, reset 0: disc clamped -/
def F.WND_CMD_LOAD : Field := ⟨7022, 1, 0⟩
/-- WND_MOTOR.CLASS, bits 31, RO, reset per image: 0 compact, 1 full -/
def F.WND_MOTOR_CLASS : Field := ⟨7023, 1, 0⟩
/-- WND_MOTOR.P, bits 30:27, RO, reset per image: pole pairs, 1 to 15 -/
def F.WND_MOTOR_P : Field := ⟨7024, 4, 0⟩
/-- WND_MOTOR.SPD_MIN, bits 26:14, RO, reset per image: lowest target, rpm -/
def F.WND_MOTOR_SPD_MIN : Field := ⟨7025, 13, 0⟩
/-- WND_MOTOR.SPD_MAX, bits 13:1, RO, reset per image: highest target, rpm -/
def F.WND_MOTOR_SPD_MAX : Field := ⟨7026, 13, 0⟩
/-- WND_EVT.DRV_FAULT, bits 14, RW1C, reset 0: gate-driver fault input (deck-fatal) -/
def F.WND_EVT_DRV_FAULT : Field := ⟨7027, 1, 0⟩
/-- WND_EVT.OVERCURRENT, bits 13, RW1C, reset 0: current comparator trip (deck-fatal) -/
def F.WND_EVT_OVERCURRENT : Field := ⟨7028, 1, 0⟩
/-- WND_EVT.OVERVOLT, bits 12, RW1C, reset 0: Vbus above V_OV (deck-fatal) -/
def F.WND_EVT_OVERVOLT : Field := ⟨7029, 1, 0⟩
/-- WND_EVT.CHOP_FAULT, bits 11, RW1C, reset 0: brake chopper faulty (deck-fatal) -/
def F.WND_EVT_CHOP_FAULT : Field := ⟨7030, 1, 0⟩
/-- WND_EVT.LOS_REPEAT, bits 10, RW1C, reset 0: third loss of synchronism in 10 s (deck-fatal) -/
def F.WND_EVT_LOS_REPEAT : Field := ⟨7031, 1, 0⟩
/-- WND_EVT.SPIN_FAIL, bits 9, RW1C, reset 0: spin-up failed (deck-fatal) -/
def F.WND_EVT_SPIN_FAIL : Field := ⟨7032, 1, 0⟩
/-- WND_EVT.CFG_REJECT, bits 8, RW1C, reset 0: write or command rejected (deferred) -/
def F.WND_EVT_CFG_REJECT : Field := ⟨7033, 1, 0⟩
/-- WND_EVT.PAIR, bits 7, RW1C, reset 0: PAIR_LOCK changed (corrected) -/
def F.WND_EVT_PAIR : Field := ⟨7034, 1, 0⟩
/-- WND_EVT.VSAT, bits 6, RW1C, reset 0: duty or voltage limited (corrected) -/
def F.WND_EVT_VSAT : Field := ⟨7035, 1, 0⟩
/-- WND_EVT.REGEN_LIMIT, bits 5, RW1C, reset 0: braking current reduced for bus voltage (corrected) -/
def F.WND_EVT_REGEN_LIMIT : Field := ⟨7036, 1, 0⟩
/-- WND_EVT.LOS, bits 4, RW1C, reset 0: loss of synchronism (deferred) -/
def F.WND_EVT_LOS : Field := ⟨7037, 1, 0⟩
/-- WND_EVT.REF_JUMP, bits 3, RW1C, reset 0: reference moved by disagreeing reports (deferred) -/
def F.WND_EVT_REF_JUMP : Field := ⟨7038, 1, 0⟩
/-- WND_EVT.REF_STEP, bits 2, RW1C, reset 0: angle referenced to the disc (corrected) -/
def F.WND_EVT_REF_STEP : Field := ⟨7039, 1, 0⟩
/-- WND_EVT.STOPPED, bits 1, RW1C, reset 0: braking complete (corrected) -/
def F.WND_EVT_STOPPED : Field := ⟨7040, 1, 0⟩
/-- WND_EVT.READY, bits 0, RW1C, reset 0: deck entered READY (corrected) -/
def F.WND_EVT_READY : Field := ⟨7041, 1, 0⟩
/-- Internal mark of R21 for WND_EVT: bit set while the event bit stands through a FORCE write. -/
def F.WND_EVT_FORCED : Field := ⟨7042, 15, 0⟩
/-- WND_EVT_MASK.MASK, bits 14:0, RW, reset 0: 1 masks the event bit -/
def F.WND_EVT_MASK_MASK : Field := ⟨7043, 15, 0⟩
/-- WND_SPEED_SET.TARGET, bits 15:0, RW, reset 0x9600: WND_SPEED_SET: target, rpm × 2⁻³ (4,800 rpm) (R175) -/
def F.WND_SPEED_SET_TARGET : Field := ⟨7044, 16, 38400⟩
/-- WND_SPEED.MEAS, bits 31:16, RO, reset 0: WND_SPEED: ω, two's complement rpm × 2⁻² -/
def F.WND_SPEED_MEAS : Field := ⟨7045, 16, 0⟩
/-- WND_SPEED.RAMP, bits 15:0, RO, reset 0: WND_SPEED: |ωr|, rpm × 2⁻³ -/
def F.WND_SPEED_RAMP : Field := ⟨7046, 16, 0⟩
/-- WND_RAMP.ACCEL, bits 31:16, RW, reset 1,000: rpm/s; 0 is ignored and raises CFG_REJECT -/
def F.WND_RAMP_ACCEL : Field := ⟨7047, 16, 1000⟩
/-- WND_RAMP.DECEL, bits 15:0, RW, reset 1,000: rpm/s; 0 is ignored and raises CFG_REJECT -/
def F.WND_RAMP_DECEL : Field := ⟨7048, 16, 1000⟩
/-- WND_SPD_KP.K, bits 23:0, RW, reset per image: gain, S2.21; the current gains serve d and q alike -/
def F.WND_SPD_KP_K : Field := ⟨7049, 24, 0⟩
/-- WND_SPD_KI.K, bits 23:0, RW, reset per image: gain, S2.21; the current gains serve d and q alike -/
def F.WND_SPD_KI_K : Field := ⟨7050, 24, 0⟩
/-- WND_CUR_KP.K, bits 23:0, RW, reset per image: gain, S2.21; the current gains serve d and q alike -/
def F.WND_CUR_KP_K : Field := ⟨7051, 24, 0⟩
/-- WND_CUR_KI.K, bits 23:0, RW, reset per image: gain, S2.21; the current gains serve d and q alike -/
def F.WND_CUR_KI_K : Field := ⟨7052, 24, 0⟩
/-- WND_ILIM.IMAX, bits 31:16, RW, reset 0x4000: WND_ILIM: current setpoint limit, S0.15 magnitude of I_FS (0.5) -/
def F.WND_ILIM_IMAX : Field := ⟨7053, 16, 16384⟩
/-- WND_ILIM.SHORT_ILIM, bits 15:0, RW, reset 0x6000: WND_ILIM: pulse-skip threshold (R177), S0.15 magnitude (0.75) -/
def F.WND_ILIM_SHORT_ILIM : Field := ⟨7054, 16, 24576⟩
/-- WND_PWM.DT, bits 31:21, RW, reset 200: WND_PWM: dead time, ns, 50 to 2,047; smaller values are clamped to 50 -/
def F.WND_PWM_DT : Field := ⟨7055, 11, 200⟩
/-- WND_PWM.MIN_PULSE, bits 20:11, RW, reset 250: WND_PWM: shortest high-side pulse, ns -/
def F.WND_PWM_MIN_PULSE : Field := ⟨7056, 10, 250⟩
/-- WND_PWM.SAMPLE_WIN, bits 10:0, RW, reset 1,000: WND_PWM: low-side window at the carrier zero, ns -/
def F.WND_PWM_SAMPLE_WIN : Field := ⟨7057, 11, 1000⟩
/-- WND_LIMITS.SPIN_TMO, bits 31:24, RW, reset 150: WND_LIMITS: spin-up limit, × 100 ms (15 s); 0 acts as 1 -/
def F.WND_LIMITS_SPIN_TMO : Field := ⟨7058, 8, 150⟩
/-- WND_LIMITS.VLIM, bits 23:12, RW, reset 0xF33: WND_LIMITS: voltage vector limit, × 2⁻¹² of Vbus / √3 (0.95) -/
def F.WND_LIMITS_VLIM : Field := ⟨7059, 12, 3891⟩
/-- WND_LIMITS.OC_LIM, bits 11:0, RW, reset 0xE00: WND_LIMITS: comparator threshold, × 2⁻¹² of I_FS (0.875) -/
def F.WND_LIMITS_OC_LIM : Field := ⟨7060, 12, 3584⟩
/-- WND_SIX.SOFT, bits 31:16, RW, reset 1,820: WND_SIX: soft half-window, electrical counts (10°), 0 to 5,461; larger values are ignored and raise CFG_REJECT -/
def F.WND_SIX_SOFT : Field := ⟨7061, 16, 1820⟩
/-- WND_SIX.ADV, bits 15:0, RW, reset 0: WND_SIX: commutation advance, two's complement electrical counts -/
def F.WND_SIX_ADV : Field := ⟨7062, 16, 0⟩
/-- WND_START.ALIGN_I, bits 31:20, RW, reset 0x400: WND_START: align current, × 2⁻¹² of I_FS -/
def F.WND_START_ALIGN_I : Field := ⟨7063, 12, 1024⟩
/-- WND_START.ALIGN_T, bits 19:12, RW, reset 200: WND_START: align time, ms; 0 acts as 1 -/
def F.WND_START_ALIGN_T : Field := ⟨7064, 8, 200⟩
/-- WND_START.HANDOVER, bits 11:0, RW, reset 300: WND_START: handover speed, rpm -/
def F.WND_START_HANDOVER : Field := ⟨7065, 12, 300⟩
/-- WND_OL.OL_I, bits 31:20, RW, reset 0x600: WND_OL: open-loop current, × 2⁻¹² of I_FS -/
def F.WND_OL_OL_I : Field := ⟨7066, 12, 1536⟩
/-- WND_OL.OL_ACC, bits 19:0, RW, reset 600: WND_OL: open-loop acceleration, rpm/s; 0 is ignored and raises CFG_REJECT -/
def F.WND_OL_OL_ACC : Field := ⟨7067, 20, 600⟩
/-- WND_OBS.PLL_BW, bits 31:24, RW, reset 50: WND_OBS: PLL bandwidth, × 4 Hz (200 Hz) -/
def F.WND_OBS_PLL_BW : Field := ⟨7068, 8, 50⟩
/-- WND_OBS.LOCK_ERR, bits 23:12, RW, reset 728: WND_OBS: lock threshold, electrical counts (4°) -/
def F.WND_OBS_LOCK_ERR : Field := ⟨7069, 12, 728⟩
/-- WND_OBS.PGAIN, bits 3:0, RW, reset 4: WND_OBS: pillar aiding shift; 0 disables aiding but not referencing -/
def F.WND_OBS_PGAIN : Field := ⟨7070, 4, 4⟩
/-- WND_LOS.LOS_ERR, bits 31:20, RW, reset 2,731: WND_LOS: PLL error limit, electrical counts (15°) -/
def F.WND_LOS_LOS_ERR : Field := ⟨7071, 12, 2731⟩
/-- WND_LOS.LOS_EMF, bits 19:12, RW, reset 64: WND_LOS: back-EMF mismatch, × 2⁻⁸ (25 %) -/
def F.WND_LOS_LOS_EMF : Field := ⟨7072, 8, 64⟩
/-- WND_LOS.LOS_DSPD, bits 11:0, RW, reset 20: WND_LOS: speed step limit, rpm per speed tick -/
def F.WND_LOS_LOS_DSPD : Field := ⟨7073, 12, 20⟩
/-- WND_BUS.VBUS, bits 31:16, RO, reset 0: WND_BUS: Vbus of the last sample -/
def F.WND_BUS_VBUS : Field := ⟨7074, 16, 0⟩
/-- WND_BUS.IBRK, bits 15:0, RO, reset 0: WND_BUS: chopper current of the last sample -/
def F.WND_BUS_IBRK : Field := ⟨7075, 16, 0⟩
/-- WND_BRK.BRK_ON, bits 31:16, RW, reset 0x3800: WND_BRK: chopper on threshold (56.0 V) (R180 order) -/
def F.WND_BRK_BRK_ON : Field := ⟨7076, 16, 14336⟩
/-- WND_BRK.BRK_OFF, bits 15:0, RW, reset 0x3600: WND_BRK: chopper off threshold (54.0 V) -/
def F.WND_BRK_BRK_OFF : Field := ⟨7077, 16, 13824⟩
/-- WND_BUSLIM.V_REGEN, bits 31:16, RW, reset 0x3A00: WND_BUSLIM: regenerative limit (58.0 V) -/
def F.WND_BUSLIM_V_REGEN : Field := ⟨7078, 16, 14848⟩
/-- WND_BUSLIM.V_OV, bits 15:0, RW, reset 0x3F00: WND_BUSLIM: over-voltage limit (63.0 V) -/
def F.WND_BUSLIM_V_OV : Field := ⟨7079, 16, 16128⟩
/-- WND_CHOP.CHOP_IMIN, bits 31:16, RW, reset 0x0080: WND_CHOP: least chopper current when on (0.50 A) -/
def F.WND_CHOP_CHOP_IMIN : Field := ⟨7080, 16, 128⟩
/-- WND_CHOP.RISE_TOL, bits 15:0, RW, reset 0x001A: WND_CHOP: bus rise tolerance per motor tick (0.10 V) -/
def F.WND_CHOP_RISE_TOL : Field := ⟨7081, 16, 26⟩
/-- WND_ANGLE.ELEC, bits 31:16, RO, reset 0: WND_ANGLE: θe at cycle 0 of the last tick -/
def F.WND_ANGLE_ELEC : Field := ⟨7082, 16, 0⟩
/-- WND_ANGLE.THETA, bits 15:0, RO, reset 0: WND_ANGLE: θ of the last tick (R171) -/
def F.WND_ANGLE_THETA : Field := ⟨7083, 16, 0⟩
/-- WND_DTHETA.DTHETA, bits 23:0, RO, reset 0: WND_DTHETA: Δθ, U8.16 counts per servo tick (R127) -/
def F.WND_DTHETA_DTHETA : Field := ⟨7084, 24, 0⟩
/-- WND_OFFSET.OFFSET, bits 15:0, RO, reset 0: WND_OFFSET: disc reference offset, counts -/
def F.WND_OFFSET_OFFSET : Field := ⟨7085, 16, 0⟩
/-- WND_PILLAR.MAXRES, bits 31:16, RC, reset 0: WND_PILLAR: largest |r| since last read; a read clears MAXRES only -/
def F.WND_PILLAR_MAXRES : Field := ⟨7086, 16, 0⟩
/-- WND_PILLAR.RESID, bits 15:0, RO, reset 0: WND_PILLAR: r of the last used report, two's complement -/
def F.WND_PILLAR_RESID : Field := ⟨7087, 16, 0⟩
/-- WND_PAIR.OFS, bits 31:16, RW, reset 0: WND_PAIR: pairing offset, counts (odd deck) -/
def F.WND_PAIR_OFS : Field := ⟨7088, 16, 0⟩
/-- WND_PAIR.KPAIR, bits 15:0, RW, reset 16: WND_PAIR: trim gain, × 2⁻¹⁶ rpm per count -/
def F.WND_PAIR_KPAIR : Field := ⟨7089, 16, 16⟩
/-- WND_PAIR_STATUS.TRIM, bits 31:16, RO, reset 0: WND_PAIR_STATUS: applied trim, two's complement rpm × 2⁻⁴ -/
def F.WND_PAIR_STATUS_TRIM : Field := ⟨7090, 16, 0⟩
/-- WND_PAIR_STATUS.DELTA, bits 15:0, RO, reset 0: WND_PAIR_STATUS: Δ, two's complement counts -/
def F.WND_PAIR_STATUS_DELTA : Field := ⟨7091, 16, 0⟩
/-- WND_IDQ.IQ, bits 31:16, RO, reset 0: WND_IDQ: iq, or I in the compact class, S0.15 of I_FS -/
def F.WND_IDQ_IQ : Field := ⟨7092, 16, 0⟩
/-- WND_IDQ.ID, bits 15:0, RO, reset 0: WND_IDQ: id, S0.15; 0 in the compact class -/
def F.WND_IDQ_ID : Field := ⟨7093, 16, 0⟩
/-- WND_CATCH.SPEED, bits 31:16, RO, reset 0: WND_CATCH: speed found by MEASURE, two's complement rpm × 2⁻² -/
def F.WND_CATCH_SPEED : Field := ⟨7094, 16, 0⟩
/-- WND_CATCH.RESULT, bits 1:0, RO, reset 0: WND_CATCH: 0 at rest, 1 catch, 2 slow, 3 reverse (R176) -/
def F.WND_CATCH_RESULT : Field := ⟨7095, 2, 0⟩
/-- WND_MODEL_RL.RS, bits 31:16, RO, reset per image: WND_MODEL_RL: stator resistance, mΩ -/
def F.WND_MODEL_RL_RS : Field := ⟨7096, 16, 0⟩
/-- WND_MODEL_RL.LS, bits 15:0, RO, reset per image: WND_MODEL_RL: stator inductance, × 0.1 µH -/
def F.WND_MODEL_RL_LS : Field := ⟨7097, 16, 0⟩
/-- WND_MODEL_KE.I_FS, bits 31:20, RO, reset per image: WND_MODEL_KE: current full scale, × 10 mA -/
def F.WND_MODEL_KE_I_FS : Field := ⟨7098, 12, 0⟩
/-- WND_MODEL_KE.KE, bits 19:0, RO, reset per image: WND_MODEL_KE: back-EMF constant, µV per rpm, line-to-line peak -/
def F.WND_MODEL_KE_KE : Field := ⟨7099, 20, 0⟩
/-- WND_COUNTS.LOS, bits 31:16, RC, reset 0: WND_COUNTS: losses of synchronism; saturates -/
def F.WND_COUNTS_LOS : Field := ⟨7100, 16, 0⟩
/-- WND_COUNTS.REF, bits 15:0, RC, reset 0: WND_COUNTS: OFFSET steps under REF_STEP or REF_JUMP; saturates -/
def F.WND_COUNTS_REF : Field := ⟨7101, 16, 0⟩
/-- CHN_CTL.RELOAD, bits 7, WO, reset 0: reapply zone values at the next pillar (R194) -/
def F.CHN_CTL_RELOAD : Field := ⟨10001, 1, 0⟩
/-- CHN_CTL.DEF_MODE, bits 6, RW, reset 0: 0 LLR 0, 1 halved (R214) -/
def F.CHN_CTL_DEF_MODE : Field := ⟨10002, 1, 0⟩
/-- CHN_CTL.DEF_EN, bits 5, RW, reset 1: dropout detection (R213) -/
def F.CHN_CTL_DEF_EN : Field := ⟨10003, 1, 1⟩
/-- CHN_CTL.BLANK_EN, bits 4, RW, reset 1: blank test (R207) -/
def F.CHN_CTL_BLANK_EN : Field := ⟨10004, 1, 1⟩
/-- CHN_CTL.EQ_ADAPT, bits 3, RW, reset 1: equaliser adaptation (R197) -/
def F.CHN_CTL_EQ_ADAPT : Field := ⟨10005, 1, 1⟩
/-- CHN_CTL.EQ_LOAD, bits 2, RW, reset 1: load start taps at zone application -/
def F.CHN_CTL_EQ_LOAD : Field := ⟨10006, 1, 1⟩
/-- CHN_CTL.INV, bits 1, RW, reset 0: invert RF polarity -/
def F.CHN_CTL_INV : Field := ⟨10007, 1, 0⟩
/-- CHN_CTL.EN, bits 0, RW, reset 0: channel enable -/
def F.CHN_CTL_EN : Field := ⟨10008, 1, 0⟩
/-- CHN_STATUS.STATE, bits 31:29, RO, reset 0: 0 OFF, 1 WAIT, 2 LOCK, 3 RUN -/
def F.CHN_STATUS_STATE : Field := ⟨10009, 3, 0⟩
/-- CHN_STATUS.WOB_LOCK, bits 28, RO, reset 0: wobble loop locked (R191) -/
def F.CHN_STATUS_WOB_LOCK : Field := ⟨10010, 1, 0⟩
/-- CHN_STATUS.FRAMING, bits 27, RO, reset 0: conditions of R206 met -/
def F.CHN_STATUS_FRAMING : Field := ⟨10011, 1, 0⟩
/-- CHN_STATUS.POS_ERR, bits 26, RO, reset 0: R204 -/
def F.CHN_STATUS_POS_ERR : Field := ⟨10012, 1, 0⟩
/-- CHN_STATUS.IN_DRIFT, bits 25, RO, reset 0: a drift is being framed -/
def F.CHN_STATUS_IN_DRIFT : Field := ⟨10013, 1, 0⟩
/-- CHN_STATUS.DEFECT, bits 24, RO, reset 0: a dropout is active -/
def F.CHN_STATUS_DEFECT : Field := ⟨10014, 1, 0⟩
/-- CHN_STATUS.ZONE, bits 23:19, RO, reset 0: applied zone -/
def F.CHN_STATUS_ZONE : Field := ⟨10015, 5, 0⟩
/-- CHN_STATUS.LAYER, bits 18:15, RO, reset 0: applied layer -/
def F.CHN_STATUS_LAYER : Field := ⟨10016, 4, 0⟩
/-- CHN_WOB.BW, bits 31:24, RW, reset 30: CHN_WOB: loop bandwidth, × 100 Hz; 0 is ignored and raises CFG_REJECT -/
def F.CHN_WOB_BW : Field := ⟨10017, 8, 30⟩
/-- CHN_WOB.LOCK_ERR, bits 23:16, RW, reset 8: CHN_WOB: lock threshold, × 2⁻⁸ wobble period rms -/
def F.CHN_WOB_LOCK_ERR : Field := ⟨10018, 8, 8⟩
/-- CHN_WOB.UNLOCK_ERR, bits 15:8, RW, reset 32: CHN_WOB: unlock threshold, × 2⁻⁸; a value below LOCK_ERR is ignored and raises CFG_REJECT -/
def F.CHN_WOB_UNLOCK_ERR : Field := ⟨10019, 8, 32⟩
/-- CHN_WOB_STATUS.PERR, bits 31:16, RO, reset 0: CHN_WOB_STATUS: rms phase error of the last pillar period, × 2⁻¹⁶ wobble period -/
def F.CHN_WOB_STATUS_PERR : Field := ⟨10020, 16, 0⟩
/-- CHN_WOB_STATUS.PILLAR, bits 15:8, RO, reset 0: CHN_WOB_STATUS: pillar count p -/
def F.CHN_WOB_STATUS_PILLAR : Field := ⟨10021, 8, 0⟩
/-- CHN_WOB_STATUS.WOBBLE, bits 5:0, RO, reset 0: CHN_WOB_STATUS: wobble count w -/
def F.CHN_WOB_STATUS_WOBBLE : Field := ⟨10022, 6, 0⟩
/-- CHN_EVT.CFG_REJECT, bits 11, RW1C, reset 0: register or table write rejected (deferred) -/
def F.CHN_EVT_CFG_REJECT : Field := ⟨10023, 1, 0⟩
/-- CHN_EVT.TABLE_ECC, bits 10, RW1C, reset 0: uncorrectable table entry replaced (deferred) -/
def F.CHN_EVT_TABLE_ECC : Field := ⟨10024, 1, 0⟩
/-- CHN_EVT.RATE_LIMIT, bits 9, RW1C, reset 0: zone rate beyond R192 (deferred) -/
def F.CHN_EVT_RATE_LIMIT : Field := ⟨10025, 1, 0⟩
/-- CHN_EVT.WOB_UNLOCK, bits 8, RW1C, reset 0: wobble loop unlocked or failed to lock (deferred) -/
def F.CHN_EVT_WOB_UNLOCK : Field := ⟨10026, 1, 0⟩
/-- CHN_EVT.PILLAR_LOST, bits 7, RW1C, reset 0: four pillars missed in a row (deferred) -/
def F.CHN_EVT_PILLAR_LOST : Field := ⟨10027, 1, 0⟩
/-- CHN_EVT.POS_MISMATCH, bits 6, RW1C, reset 0: pillar address disagrees with position (deferred) -/
def F.CHN_EVT_POS_MISMATCH : Field := ⟨10028, 1, 0⟩
/-- CHN_EVT.TRUNC, bits 5, RW1C, reset 0: drift truncated (deferred) -/
def F.CHN_EVT_TRUNC : Field := ⟨10029, 1, 0⟩
/-- CHN_EVT.PCOUNT_FIX, bits 4, RW1C, reset 0: pillar count set from addresses (corrected) -/
def F.CHN_EVT_PCOUNT_FIX : Field := ⟨10030, 1, 0⟩
/-- CHN_EVT.EQ_SAT, bits 3, RW1C, reset 0: equaliser tap saturated (corrected) -/
def F.CHN_EVT_EQ_SAT : Field := ⟨10031, 1, 0⟩
/-- CHN_EVT.DEFECT, bits 2, RW1C, reset 0: dropout detected (corrected) -/
def F.CHN_EVT_DEFECT : Field := ⟨10032, 1, 0⟩
/-- CHN_EVT.PILLAR_MISS, bits 1, RW1C, reset 0: pillar sync missed (corrected) -/
def F.CHN_EVT_PILLAR_MISS : Field := ⟨10033, 1, 0⟩
/-- CHN_EVT.SYNC_MISS, bits 0, RW1C, reset 0: drift sync missed; framed by flywheel (corrected) -/
def F.CHN_EVT_SYNC_MISS : Field := ⟨10034, 1, 0⟩
/-- Internal mark of R21 for CHN_EVT: bit set while the event bit stands through a FORCE write. -/
def F.CHN_EVT_FORCED : Field := ⟨10035, 12, 0⟩
/-- CHN_EVT_MASK.MASK, bits 11:0, RW, reset 0: 1 masks the event bit -/
def F.CHN_EVT_MASK_MASK : Field := ⟨10036, 12, 0⟩
/-- CHN_SYNC_CTL.SYNC_TH, bits 31:24, RW, reset 56: agreements of 64 for a candidate, 33 to 64 -/
def F.CHN_SYNC_CTL_SYNC_TH : Field := ⟨10037, 8, 56⟩
/-- CHN_SYNC_CTL.PSYNC_TH, bits 23:16, RW, reset 30: agreements of 32 for a pillar sync, 17 to 32 -/
def F.CHN_SYNC_CTL_PSYNC_TH : Field := ⟨10038, 8, 30⟩
/-- CHN_SYNC_CTL.PWIN, bits 15:8, RW, reset 8: pillar search ±bits, 1 to 32 -/
def F.CHN_SYNC_CTL_PWIN : Field := ⟨10039, 8, 8⟩
/-- CHN_SYNC_STATS.FOUND, bits 31:16, RC, reset 0: CHN_SYNC_STATS: syncs found; saturates -/
def F.CHN_SYNC_STATS_FOUND : Field := ⟨10040, 16, 0⟩
/-- CHN_SYNC_STATS.MISSED, bits 15:0, RC, reset 0: CHN_SYNC_STATS: syncs missed; saturates -/
def F.CHN_SYNC_STATS_MISSED : Field := ⟨10041, 16, 0⟩
/-- CHN_SYNC_LAST.SCORE, bits 31:24, RO, reset 0: CHN_SYNC_LAST: agreements of the winner -/
def F.CHN_SYNC_LAST_SCORE : Field := ⟨10042, 8, 0⟩
/-- CHN_SYNC_LAST.OFFSET, bits 23:16, RO, reset 0: CHN_SYNC_LAST: winner offset, two's complement bits -/
def F.CHN_SYNC_LAST_OFFSET : Field := ⟨10043, 8, 0⟩
/-- CHN_SYNC_LAST.CANDS, bits 15:8, RO, reset 0: CHN_SYNC_LAST: candidates in the window -/
def F.CHN_SYNC_LAST_CANDS : Field := ⟨10044, 8, 0⟩
/-- CHN_EQ_CTL.MU_SHIFT, bits 3:0, RW, reset 11: CHN_EQ_CTL: step 2^(−MU_SHIFT), 6 to 15; 0 to 5 are ignored and raise CFG_REJECT -/
def F.CHN_EQ_CTL_MU_SHIFT : Field := ⟨10045, 4, 11⟩
/-- CHN_EQ_TAP.TAP, bits 15:0, RO, reset 0: CHN_EQ_TAP: live tap W_t, S1.14 -/
def F.CHN_EQ_TAP_TAP : Field := ⟨10046, 16, 0⟩
/-- CHN_CORR.GAIN, bits 31:16, RO, reset 0x4000: CHN_CORR: applied GAIN, U2.14 -/
def F.CHN_CORR_GAIN : Field := ⟨10047, 16, 16384⟩
/-- CHN_CORR.OFS, bits 15:4, RO, reset 0: CHN_CORR: applied OFS, S0.11 -/
def F.CHN_CORR_OFS : Field := ⟨10048, 12, 0⟩
/-- CHN_CORR_ASYM.ASYM, bits 11:0, RO, reset 0: CHN_CORR_ASYM: applied ASYM, S0.11 -/
def F.CHN_CORR_ASYM_ASYM : Field := ⟨10049, 12, 0⟩
/-- CHN_DET_CTL.LLR_SCALE, bits 31:16, RW, reset 1,600: CHN_DET_CTL: R198; 0 is ignored and raises CFG_REJECT -/
def F.CHN_DET_CTL_LLR_SCALE : Field := ⟨10050, 16, 1600⟩
/-- CHN_MSE.MSE, bits 15:0, RO, reset 0: CHN_MSE: mean e_n² of the last framed drift, units of 2⁻²²; saturates -/
def F.CHN_MSE_MSE : Field := ⟨10051, 16, 0⟩
/-- CHN_DEF_CTL.DEF_TH, bits 31:24, RW, reset 0x60: CHN_DEF_CTL: dropout threshold, × 2⁻⁸ of A (0.375) -/
def F.CHN_DEF_CTL_DEF_TH : Field := ⟨10052, 8, 96⟩
/-- CHN_DEF_CTL.DEF_MIN, bits 23:16, RW, reset 32: CHN_DEF_CTL: run length in bits; 0 acts as 1 -/
def F.CHN_DEF_CTL_DEF_MIN : Field := ⟨10053, 8, 32⟩
/-- CHN_DEF_CTL.DEF_EXT, bits 15:8, RW, reset 16: CHN_DEF_CTL: extension in bits -/
def F.CHN_DEF_CTL_DEF_EXT : Field := ⟨10054, 8, 16⟩
/-- CHN_DEF_CTL2.BLANK_TH, bits 31:20, RW, reset 0x080: CHN_DEF_CTL2: blank envelope limit, U1.11 (0.0625) -/
def F.CHN_DEF_CTL2_BLANK_TH : Field := ⟨10055, 12, 128⟩
/-- CHN_DEF_CTL2.ENV_INIT, bits 19:8, RW, reset 0x400: CHN_DEF_CTL2: starting A, U1.11 (0.5) -/
def F.CHN_DEF_CTL2_ENV_INIT : Field := ⟨10056, 12, 1024⟩
/-- CHN_ERA_CTL.ERA_TH, bits 15:0, RW, reset 2,048: CHN_ERA_CTL: affected coded bits for ERASE_HINT; 0 acts as 1 -/
def F.CHN_ERA_CTL_ERA_TH : Field := ⟨10057, 16, 2048⟩
/-- CHN_DEF_STATS.DEFECTS, bits 31:16, RC, reset 0: CHN_DEF_STATS: dropouts; saturates -/
def F.CHN_DEF_STATS_DEFECTS : Field := ⟨10058, 16, 0⟩
/-- CHN_DEF_STATS.BLANKS, bits 15:0, RC, reset 0: CHN_DEF_STATS: blank slots; saturates -/
def F.CHN_DEF_STATS_BLANKS : Field := ⟨10059, 16, 0⟩
/-- CHN_PILLAR.MATCH, bits 31, RO, reset 0: CHN_PILLAR: address passed the check (R202) -/
def F.CHN_PILLAR_MATCH : Field := ⟨10060, 1, 0⟩
/-- CHN_PILLAR.SIDE, bits 30, RO, reset 0: CHN_PILLAR: side from the address -/
def F.CHN_PILLAR_SIDE : Field := ⟨10061, 1, 0⟩
/-- CHN_PILLAR.LAYER, bits 29:26, RO, reset 0: CHN_PILLAR: layer -/
def F.CHN_PILLAR_LAYER : Field := ⟨10062, 4, 0⟩
/-- CHN_PILLAR.BAND, bits 25, RO, reset 0: CHN_PILLAR: band -/
def F.CHN_PILLAR_BAND : Field := ⟨10063, 1, 0⟩
/-- CHN_PILLAR.TRACK, bits 24:8, RO, reset 0: CHN_PILLAR: track within band -/
def F.CHN_PILLAR_TRACK : Field := ⟨10064, 17, 0⟩
/-- CHN_PILLAR.PILLAR, bits 7:0, RO, reset 0: CHN_PILLAR: pillar number -/
def F.CHN_PILLAR_PILLAR : Field := ⟨10065, 8, 0⟩
/-- CHN_PILLAR_STATS.MISSED, bits 31:20, RC, reset 0: CHN_PILLAR_STATS: pillar syncs missed; saturates -/
def F.CHN_PILLAR_STATS_MISSED : Field := ⟨10066, 12, 0⟩
/-- CHN_PILLAR_STATS.CRC_ERR, bits 19:8, RC, reset 0: CHN_PILLAR_STATS: addresses failing CRC; saturates -/
def F.CHN_PILLAR_STATS_CRC_ERR : Field := ⟨10067, 12, 0⟩
/-- CHN_PILLAR_STATS.MISMATCH, bits 7:0, RC, reset 0: CHN_PILLAR_STATS: mismatches and failed checks; saturates -/
def F.CHN_PILLAR_STATS_MISMATCH : Field := ⟨10068, 8, 0⟩
/-- CHN_DRIFTS.DELIVERED, bits 31:16, RC, reset 0: CHN_DRIFTS: drift records delivered, BLANK included; saturates -/
def F.CHN_DRIFTS_DELIVERED : Field := ⟨10069, 16, 0⟩
/-- CHN_DRIFTS.INFERRED, bits 15:0, RC, reset 0: CHN_DRIFTS: SYNC_INFERRED drifts; saturates -/
def F.CHN_DRIFTS_INFERRED : Field := ⟨10070, 16, 0⟩
/-- CHN_TRUNC.TRUNC, bits 15:0, RC, reset 0: CHN_TRUNC: truncated drifts; saturates -/
def F.CHN_TRUNC_TRUNC : Field := ⟨10071, 16, 0⟩
/-- CHN_EVT_CHANS.CHAN, bits 31:0, RW1C, reset 0: CHN_EVT_CHANS[g]: bit j set by any CHN event of channel 32g + j -/
def F.CHN_EVT_CHANS_CHAN : Field := ⟨10072, 32, 0⟩
/-- CHN_ZONE.GAIN, bits 47:32, RW, reset 0x4000: gain, U2.14 (R218) -/
def F.CHN_ZONE_GAIN : Field := ⟨10073, 16, 16384⟩
/-- CHN_ZONE.OFS, bits 27:16, RW, reset 0: offset, S0.11 (R218) -/
def F.CHN_ZONE_OFS : Field := ⟨10074, 12, 0⟩
/-- CHN_ZONE.ASYM, bits 11:0, RW, reset 0: asymmetry, S0.11 (R218) -/
def F.CHN_ZONE_ASYM : Field := ⟨10075, 12, 0⟩
/-- CHN_EQ_START.TAP, bits 15:0, RW, reset 0: start tap, S1.14; the entry holds TAP xor the reset value of its tap, 0x4000 for t = 7 (R219) -/
def F.CHN_EQ_START_TAP : Field := ⟨10076, 16, 0⟩
/-- ASY_CTL.REC_MAX, bits 19:16, RW, reset 4: Assayers that may run recovery at once, 1 to 8; 0 acts as 1, and 9 to 15 act as 8 -/
def F.ASY_CTL_REC_MAX : Field := ⟨11001, 4, 4⟩
/-- ASY_CTL.READ_MAX, bits 9:8, RW, reset 0b11: reads per lode, READ_MAX + 1 -/
def F.ASY_CTL_READ_MAX : Field := ⟨11002, 2, 3⟩
/-- ASY_CTL.HINT_SKIP, bits 1, RW, reset 1: rung 1 skips ERASE_HINT drifts (R242) -/
def F.ASY_CTL_HINT_SKIP : Field := ⟨11003, 1, 1⟩
/-- ASY_CTL.EN, bits 0, RW, reset 0: pool enable; slots cannot be reserved while clear -/
def F.ASY_CTL_EN : Field := ⟨11004, 1, 0⟩
/-- ASY_STATUS.FIRST, bits 31:24, RO, reset 0: first-pass jobs queued -/
def F.ASY_STATUS_FIRST : Field := ⟨11005, 8, 0⟩
/-- ASY_STATUS.RECOV, bits 23:16, RO, reset 0: recovery jobs queued -/
def F.ASY_STATUS_RECOV : Field := ⟨11006, 8, 0⟩
/-- ASY_STATUS.FREE, bits 15:8, RO, reset 96: free lode slots -/
def F.ASY_STATUS_FREE : Field := ⟨11007, 8, 96⟩
/-- ASY_STATUS.BUSY, bits 7:0, RO, reset 0: bit a set while Assayer a runs a job -/
def F.ASY_STATUS_BUSY : Field := ⟨11008, 8, 0⟩
/-- ASY_INNER_CTL.NORM, bits 25:24, RW, reset 1: ASY_INNER_CTL: 0 5/8, 1 3/4, 2 7/8, 3 1 -/
def F.ASY_INNER_CTL_NORM : Field := ⟨11009, 2, 1⟩
/-- ASY_INNER_CTL.ITER_MAX, bits 21:16, RW, reset 16: ASY_INNER_CTL: inner iterations, 1 to 32; other values are ignored and raise CFG_REJECT -/
def F.ASY_INNER_CTL_ITER_MAX : Field := ⟨11010, 6, 16⟩
/-- ASY_INNER_CTL.STALL_MIN, bits 15:8, RW, reset 64: ASY_INNER_CTL: unsatisfied checks above which a stall stops a decode -/
def F.ASY_INNER_CTL_STALL_MIN : Field := ⟨11011, 8, 64⟩
/-- ASY_INNER_CTL.STALL, bits 7:4, RW, reset 4: ASY_INNER_CTL: iterations without a fall; 0 acts as 1 -/
def F.ASY_INNER_CTL_STALL : Field := ⟨11012, 4, 4⟩
/-- ASY_INNER_CTL.EARLY_EN, bits 0, RW, reset 1: ASY_INNER_CTL: stall stop (R223) -/
def F.ASY_INNER_CTL_EARLY_EN : Field := ⟨11013, 1, 1⟩
/-- ASY_SECOND_CTL.GUARD, bits 31:24, RW, reset 4: ASY_SECOND_CTL: correction margin (R228), 0 to 16; larger values are ignored and raise CFG_REJECT -/
def F.ASY_SECOND_CTL_GUARD : Field := ⟨11014, 8, 4⟩
/-- ASY_SECOND_CTL.ITER2, bits 23:16, RW, reset 50: ASY_SECOND_CTL: Assayer iterations, 1 to 64; other values are ignored and raise CFG_REJECT -/
def F.ASY_SECOND_CTL_ITER2 : Field := ⟨11015, 8, 50⟩
/-- ASY_SECOND_CTL.SLIP_MARGIN, bits 15:8, RW, reset 32: ASY_SECOND_CTL: unsatisfied-check margin (R243) -/
def F.ASY_SECOND_CTL_SLIP_MARGIN : Field := ⟨11016, 8, 32⟩
/-- ASY_SECOND_CTL.SLIP_TRY, bits 3:0, RW, reset 3: ASY_SECOND_CTL: slips decoded, 0 to 8; 0 disables slip search; 9 to 15 act as 8 -/
def F.ASY_SECOND_CTL_SLIP_TRY : Field := ⟨11017, 4, 3⟩
/-- ASY_EVT.CFG_REJECT, bits 8, RW1C, reset 0: register write rejected (deferred) -/
def F.ASY_EVT_CFG_REJECT : Field := ⟨11018, 1, 0⟩
/-- ASY_EVT.BUF_ECC, bits 7, RW1C, reset 0: uncorrectable lode buffer line (deferred) -/
def F.ASY_EVT_BUF_ECC : Field := ⟨11019, 1, 0⟩
/-- ASY_EVT.LODE_FAILED, bits 6, RW1C, reset 0: lode declared failed (deferred) -/
def F.ASY_EVT_LODE_FAILED : Field := ⟨11020, 1, 0⟩
/-- ASY_EVT.MISCORRECT, bits 5, RW1C, reset 0: outer decode discarded by the guard (deferred) -/
def F.ASY_EVT_MISCORRECT : Field := ⟨11021, 1, 0⟩
/-- ASY_EVT.INNER_MISC, bits 4, RW1C, reset 0: converged data drift failed CRC or identity (deferred) -/
def F.ASY_EVT_INNER_MISC : Field := ⟨11022, 1, 0⟩
/-- ASY_EVT.SLIP, bits 3, RW1C, reset 0: drift made sound by slip search (corrected) -/
def F.ASY_EVT_SLIP : Field := ⟨11023, 1, 0⟩
/-- ASY_EVT.RECOVERED, bits 2, RW1C, reset 0: lode corrected beyond rung 0 of its first read (corrected) -/
def F.ASY_EVT_RECOVERED : Field := ⟨11024, 1, 0⟩
/-- ASY_EVT.REREAD, bits 1, RW1C, reset 0: re-read requested (corrected) -/
def F.ASY_EVT_REREAD : Field := ⟨11025, 1, 0⟩
/-- ASY_EVT.INNER_FAIL, bits 0, RW1C, reset 0: a claimed drift failed its inner decode (corrected) -/
def F.ASY_EVT_INNER_FAIL : Field := ⟨11026, 1, 0⟩
/-- Internal mark of R21 for ASY_EVT: bit set while the event bit stands through a FORCE write. -/
def F.ASY_EVT_FORCED : Field := ⟨11027, 9, 0⟩
/-- ASY_EVT_MASK.MASK, bits 8:0, RW, reset 0: 1 masks the event bit -/
def F.ASY_EVT_MASK_MASK : Field := ⟨11028, 9, 0⟩
/-- ASY_COMB_CTL.CSCALE, bits 31:24, RW, reset 16: combining scale (R244); 0 is ignored and raises CFG_REJECT -/
def F.ASY_COMB_CTL_CSCALE : Field := ⟨11029, 8, 16⟩
/-- ASY_COMB_CTL.CCLIP, bits 20:16, RW, reset 31: combined LLR limit, 8 to 31; lower values are ignored and raise CFG_REJECT -/
def F.ASY_COMB_CTL_CCLIP : Field := ⟨11030, 5, 31⟩
/-- ASY_COMB_CTL.HINT_WGT, bits 4:0, RW, reset 8: weight of ERASE_HINT entries, 0 to 16; larger values act as 16 -/
def F.ASY_COMB_CTL_HINT_WGT : Field := ⟨11031, 5, 8⟩
/-- ASY_LODES.CLEAN, bits 31:16, RC, reset 0: ASY_LODES: clean outcomes; saturates -/
def F.ASY_LODES_CLEAN : Field := ⟨11032, 16, 0⟩
/-- ASY_LODES.CORRECTED, bits 15:0, RC, reset 0: ASY_LODES: corrected outcomes; saturates -/
def F.ASY_LODES_CORRECTED : Field := ⟨11033, 16, 0⟩
/-- ASY_LODES2.REREAD, bits 31:16, RC, reset 0: ASY_LODES2: needs-re-read outcomes; saturates -/
def F.ASY_LODES2_REREAD : Field := ⟨11034, 16, 0⟩
/-- ASY_LODES2.FAILED, bits 15:0, RC, reset 0: ASY_LODES2: failed outcomes; saturates -/
def F.ASY_LODES2_FAILED : Field := ⟨11035, 16, 0⟩
/-- ASY_DRIFTS.INNER_FAIL, bits 31:16, RC, reset 0: ASY_DRIFTS: failed inner decodes of claimed drifts; saturates -/
def F.ASY_DRIFTS_INNER_FAIL : Field := ⟨11036, 16, 0⟩
/-- ASY_DRIFTS.INNER_MISC, bits 15:0, RC, reset 0: ASY_DRIFTS: inner miscorrections (R224); saturates -/
def F.ASY_DRIFTS_INNER_MISC : Field := ⟨11037, 16, 0⟩
/-- ASY_MISC.GUARD_FAIL, bits 31:16, RC, reset 0: ASY_MISC: outer decodes discarded (R229); saturates -/
def F.ASY_MISC_GUARD_FAIL : Field := ⟨11038, 16, 0⟩
/-- ASY_MISC.SLIP_FOUND, bits 15:0, RC, reset 0: ASY_MISC: slips found (R243); saturates -/
def F.ASY_MISC_SLIP_FOUND : Field := ⟨11039, 16, 0⟩
/-- ASY_UNCLAIMED.COUNT, bits 31:0, RC, reset 0: ASY_UNCLAIMED: unclaimed drift records; saturates -/
def F.ASY_UNCLAIMED_COUNT : Field := ⟨11040, 32, 0⟩
/-- ASY_ENG_STATUS.BUSY, bits 31, RO, reset 0: job running -/
def F.ASY_ENG_STATUS_BUSY : Field := ⟨11041, 1, 0⟩
/-- ASY_ENG_STATUS.RUNG, bits 30:29, RO, reset 0: rung of the job -/
def F.ASY_ENG_STATUS_RUNG : Field := ⟨11042, 2, 0⟩
/-- ASY_ENG_STATUS.SLOT, bits 28:22, RO, reset 0: slot of the job -/
def F.ASY_ENG_STATUS_SLOT : Field := ⟨11043, 7, 0⟩
/-- ASY_SLOT.STATE, bits 31:29, RO, reset 0: ASY_SLOT: 0 free, 1 reading, 2 job queued, 3 job running, 4 outcome delivered -/
def F.ASY_SLOT_STATE : Field := ⟨11044, 3, 0⟩
/-- ASY_SLOT.READS, bits 28:26, RO, reset 0: ASY_SLOT: reads counted towards READ_MAX, 0 to 4 -/
def F.ASY_SLOT_READS : Field := ⟨11045, 3, 0⟩
/-- ASY_SLOT.RUNG, bits 25:24, RO, reset 0: ASY_SLOT: last rung run -/
def F.ASY_SLOT_RUNG : Field := ⟨11046, 2, 0⟩
/-- ASY_SLOT.UNSOUND, bits 23:16, RO, reset 0: ASY_SLOT: drifts not sound, 0 to 160 -/
def F.ASY_SLOT_UNSOUND : Field := ⟨11047, 8, 0⟩
/-- ASY_SLOT.MISSES, bits 15:8, RO, reset 0: ASY_SLOT: passes ended by deadline miss -/
def F.ASY_SLOT_MISSES : Field := ⟨11048, 8, 0⟩
/-- ASY_SLOT_ID.VERIFY, bits 31, RO, reset 0: ASY_SLOT_ID: reserved for a verify -/
def F.ASY_SLOT_ID_VERIFY : Field := ⟨11049, 1, 0⟩
/-- ASY_SLOT_ID.RETAIN, bits 30, RO, reset 0: ASY_SLOT_ID: present read retained (R235) -/
def F.ASY_SLOT_ID_RETAIN : Field := ⟨11050, 1, 0⟩
/-- ASY_SLOT_ID.V, bits 29:27, RO, reset 0: ASY_SLOT_ID: volume -/
def F.ASY_SLOT_ID_V : Field := ⟨11051, 3, 0⟩
/-- ASY_SLOT_ID.N, bits 26:21, RO, reset 0: ASY_SLOT_ID: seam -/
def F.ASY_SLOT_ID_N : Field := ⟨11052, 6, 0⟩
/-- ASY_SLOT_ID.X, bits 20:5, RO, reset 0: ASY_SLOT_ID: lode position -/
def F.ASY_SLOT_ID_X : Field := ⟨11053, 16, 0⟩
/-- PRC_CTL.CLASS_TH, bits 11:8, RW, reset 6: PRC_CTL: strong-group threshold (R231), 1 to 15; 0 is ignored and raises CFG_REJECT -/
def F.PRC_CTL_CLASS_TH : Field := ⟨12001, 4, 6⟩
/-- PRC_CTL.RET_EN, bits 1, RW, reset 1: PRC_CTL: retention enable (R235) -/
def F.PRC_CTL_RET_EN : Field := ⟨12002, 1, 1⟩
/-- PRC_CTL.EN, bits 0, RW, reset 0: PRC_CTL: store enable; clearing it releases every entry and clears every slot's RETAIN -/
def F.PRC_CTL_EN : Field := ⟨12003, 1, 0⟩
/-- PRC_STATUS.WITHHOLD, bits 31, RO, reset 0: PRC_STATUS: retention withheld (R235) -/
def F.PRC_STATUS_WITHHOLD : Field := ⟨12004, 1, 0⟩
/-- PRC_STATUS.OCC, bits 20:0, RO, reset 0: PRC_STATUS: entries in use -/
def F.PRC_STATUS_OCC : Field := ⟨12005, 21, 0⟩
/-- PRC_TAIL_BASE_LO.BASE_LO, bits 31:21, RW, reset 0: PRC_TAIL_BASE_LO: DRAM address [31:21]; the store is aligned to 2 MiB -/
def F.PRC_TAIL_BASE_LO_BASE_LO : Field := ⟨12006, 11, 0⟩
/-- PRC_TAIL_BASE_HI.BASE_HI, bits 4:0, RW, reset 0: PRC_TAIL_BASE_HI: DRAM address [36:32] -/
def F.PRC_TAIL_BASE_HI_BASE_HI : Field := ⟨12007, 5, 0⟩
/-- PRC_EVT.CFG_REJECT, bits 5, RW1C, reset 0: register write rejected (deferred) -/
def F.PRC_EVT_CFG_REJECT : Field := ⟨12008, 1, 0⟩
/-- PRC_EVT.ENTRY_ECC, bits 4, RW1C, reset 0: tailings entry unusable (deferred) -/
def F.PRC_EVT_ENTRY_ECC : Field := ⟨12009, 1, 0⟩
/-- PRC_EVT.FLUSH_TRUNC, bits 3, RW1C, reset 0: partial entry discarded by flush (corrected) -/
def F.PRC_EVT_FLUSH_TRUNC : Field := ⟨12010, 1, 0⟩
/-- PRC_EVT.OVERFLOW, bits 2, RW1C, reset 0: chained-buffer overflow (deferred) -/
def F.PRC_EVT_OVERFLOW : Field := ⟨12011, 1, 0⟩
/-- PRC_EVT.WITHHELD, bits 1, RW1C, reset 0: retention withheld above the high mark (deferred) -/
def F.PRC_EVT_WITHHELD : Field := ⟨12012, 1, 0⟩
/-- PRC_EVT.RESUMED, bits 0, RW1C, reset 0: retention resumed below the low mark (corrected) -/
def F.PRC_EVT_RESUMED : Field := ⟨12013, 1, 0⟩
/-- Internal mark of R21 for PRC_EVT: bit set while the event bit stands through a FORCE write. -/
def F.PRC_EVT_FORCED : Field := ⟨12014, 6, 0⟩
/-- PRC_EVT_MASK.MASK, bits 5:0, RW, reset 0: 1 masks the event bit -/
def F.PRC_EVT_MASK_MASK : Field := ⟨12015, 6, 0⟩
/-- PRC_TAIL_SIZE.UNITS, bits 10:0, RW, reset 114: PRC_TAIL_SIZE: size in units of 6 MiB (1,024 entries), 1 to 1,365 -/
def F.PRC_TAIL_SIZE_UNITS : Field := ⟨12016, 11, 114⟩
/-- PRC_MARKS.HIGH, bits 15:8, RW, reset 224: PRC_MARKS: withhold mark, × 1/256 of the entries -/
def F.PRC_MARKS_HIGH : Field := ⟨12017, 8, 224⟩
/-- PRC_MARKS.LOW, bits 7:0, RW, reset 192: PRC_MARKS: resume mark, × 1/256 of the entries -/
def F.PRC_MARKS_LOW : Field := ⟨12018, 8, 192⟩
/-- PRC_FLUSH.HEAD, bits 31:0, WO, reset 0: PRC_FLUSH: bit h flushes the staging of head h's channels (R238) -/
def F.PRC_FLUSH_HEAD : Field := ⟨12019, 32, 0⟩
/-- PRC_STATS.WITHHELD, bits 31:16, RC, reset 0: PRC_STATS: lodes not retained because of WITHHOLD; saturates -/
def F.PRC_STATS_WITHHELD : Field := ⟨12020, 16, 0⟩
/-- PRC_STATS.OVERFLOW, bits 15:0, RC, reset 0: PRC_STATS: chained-buffer overflows (R236); saturates -/
def F.PRC_STATS_OVERFLOW : Field := ⟨12021, 16, 0⟩
/-- PRC_STATS2.TRUNC, bits 31:16, RC, reset 0: PRC_STATS2: partial entries discarded by flush; saturates -/
def F.PRC_STATS2_TRUNC : Field := ⟨12022, 16, 0⟩
/-- PRC_STATS2.ENTRY_ECC, bits 15:0, RC, reset 0: PRC_STATS2: entries not used for uncorrectable errors; saturates -/
def F.PRC_STATS2_ENTRY_ECC : Field := ⟨12023, 16, 0⟩
/-- PRC_PEAK.PEAK, bits 20:0, RC, reset 0: PRC_PEAK: largest OCC since last read -/
def F.PRC_PEAK_PEAK : Field := ⟨12024, 21, 0⟩
/-- WRP_CTL.CAT_BATCH, bits 31:24, RW, reset 8: WRP_CTL: records per snapshot (R268), 1 to 64; other values are ignored and raise CFG_REJECT -/
def F.WRP_CTL_CAT_BATCH : Field := ⟨13001, 8, 8⟩
/-- WRP_CTL.AUTO_CAL, bits 1, RW, reset 1: WRP_CTL: calibration under R270 -/
def F.WRP_CTL_AUTO_CAL : Field := ⟨13002, 1, 1⟩
/-- WRP_CTL.EN, bits 0, RW, reset 0: WRP_CTL: write path enable -/
def F.WRP_CTL_EN : Field := ⟨13003, 1, 0⟩
/-- WRP_STATUS.OPEN, bits 25:16, RO, reset 0: WRP_STATUS: open lodes holding host data -/
def F.WRP_STATUS_OPEN : Field := ⟨13004, 10, 0⟩
/-- WRP_STATUS.SEALED, bits 13:0, RO, reset 0: WRP_STATUS: lodes sealed and not accepted -/
def F.WRP_STATUS_SEALED : Field := ⟨13005, 14, 0⟩
/-- WRP_LINGER.MS, bits 10:0, RW, reset 50: WRP_LINGER: linger in ms, 1 to 2,000; other values are ignored and raise CFG_REJECT -/
def F.WRP_LINGER_MS : Field := ⟨13006, 11, 50⟩
/-- WRP_EVT.CFG_REJECT, bits 10, RW1C, reset 0: register or table write rejected (deferred) -/
def F.WRP_EVT_CFG_REJECT : Field := ⟨13007, 1, 0⟩
/-- WRP_EVT.CAT_FULL, bits 9, RW1C, reset 0: no catalogue position for a snapshot (deferred) -/
def F.WRP_EVT_CAT_FULL : Field := ⟨13008, 1, 0⟩
/-- WRP_EVT.CAL_EXHAUSTED, bits 8, RW1C, reset 0: calibration area full (deferred) -/
def F.WRP_EVT_CAL_EXHAUSTED : Field := ⟨13009, 1, 0⟩
/-- WRP_EVT.CAL_FAIL, bits 7, RW1C, reset 0: calibration rejected; values kept (deferred) -/
def F.WRP_EVT_CAL_FAIL : Field := ⟨13010, 1, 0⟩
/-- WRP_EVT.CAL_DONE, bits 6, RW1C, reset 0: calibration applied (corrected) -/
def F.WRP_EVT_CAL_DONE : Field := ⟨13011, 1, 0⟩
/-- WRP_EVT.SEAM_EXHAUSTED, bits 5, RW1C, reset 0: seam out of spares (deferred) -/
def F.WRP_EVT_SEAM_EXHAUSTED : Field := ⟨13012, 1, 0⟩
/-- WRP_EVT.WP_RECOVERED, bits 4, RW1C, reset 0: write pointer established (corrected) -/
def F.WRP_EVT_WP_RECOVERED : Field := ⟨13013, 1, 0⟩
/-- WRP_EVT.SPARED, bits 3, RW1C, reset 0: position skipped (corrected) -/
def F.WRP_EVT_SPARED : Field := ⟨13014, 1, 0⟩
/-- WRP_EVT.LODE_REJECT, bits 2, RW1C, reset 0: lode rejected (corrected) -/
def F.WRP_EVT_LODE_REJECT : Field := ⟨13015, 1, 0⟩
/-- WRP_EVT.GATE_CUT, bits 1, RW1C, reset 0: drift cut by gate closure (corrected) -/
def F.WRP_EVT_GATE_CUT : Field := ⟨13016, 1, 0⟩
/-- WRP_EVT.PAD, bits 0, RW1C, reset 0: lode sealed with padding (corrected) -/
def F.WRP_EVT_PAD : Field := ⟨13017, 1, 0⟩
/-- Internal mark of R21 for WRP_EVT: bit set while the event bit stands through a FORCE write. -/
def F.WRP_EVT_FORCED : Field := ⟨13018, 11, 0⟩
/-- WRP_EVT_MASK.MASK, bits 10:0, RW, reset 0: 1 masks the event bit -/
def F.WRP_EVT_MASK_MASK : Field := ⟨13019, 11, 0⟩
/-- WRP_VFY_CTL.VFY_ITER, bits 31:24, RW, reset 8: WRP_VFY_CTL: iterations, 1 to 32 -/
def F.WRP_VFY_CTL_VFY_ITER : Field := ⟨13020, 8, 8⟩
/-- WRP_VFY_CTL.VFY_SYNC, bits 23:16, RW, reset 8: WRP_VFY_CTL: sync offset limit, 0 to 24 -/
def F.WRP_VFY_CTL_VFY_SYNC : Field := ⟨13021, 8, 8⟩
/-- WRP_VFY_CTL.VFY_ERA, bits 15:8, RW, reset 4: WRP_VFY_CTL: margin failures allowed, 0 to 16; values out of range in any field cause the whole write to be ig -/
def F.WRP_VFY_CTL_VFY_ERA : Field := ⟨13022, 8, 4⟩
/-- WRP_VFY_CTL2.VFY_MSE, bits 31:16, RW, reset 0xA000: WRP_VFY_CTL2: quality limit, units of 2⁻²² -/
def F.WRP_VFY_CTL2_VFY_MSE : Field := ⟨13023, 16, 40960⟩
/-- WRP_VFY_CTL2.VFY_DEF, bits 15:0, RW, reset 64: WRP_VFY_CTL2: defect limit, coded bits -/
def F.WRP_VFY_CTL2_VFY_DEF : Field := ⟨13024, 16, 64⟩
/-- WRP_CAL_CTL.STEPS, bits 31:27, RW, reset 8: WRP_CAL_CTL: power steps, 5 to 16; other values are ignored and raise CFG_REJECT -/
def F.WRP_CAL_CTL_STEPS : Field := ⟨13025, 5, 8⟩
/-- WRP_CAL_CTL.STEP, bits 23:16, RW, reset 16: WRP_CAL_CTL: step size, × 1/512; 0 is ignored and raises CFG_REJECT -/
def F.WRP_CAL_CTL_STEP : Field := ⟨13026, 8, 16⟩
/-- WRP_CAL_CTL.DTEMP, bits 15:8, RW, reset 10: WRP_CAL_CTL: temperature change in °C, 1 to 60; 0 acts as 1 -/
def F.WRP_CAL_CTL_DTEMP : Field := ⟨13027, 8, 10⟩
/-- WRP_LODES.ACCEPTED, bits 31:16, RC, reset 0: WRP_LODES: lodes accepted; saturates -/
def F.WRP_LODES_ACCEPTED : Field := ⟨13028, 16, 0⟩
/-- WRP_LODES.REJECTED, bits 15:0, RC, reset 0: WRP_LODES: lodes rejected; saturates -/
def F.WRP_LODES_REJECTED : Field := ⟨13029, 16, 0⟩
/-- WRP_SKIPS.SKIPPED, bits 31:16, RC, reset 0: WRP_SKIPS: positions skipped; saturates -/
def F.WRP_SKIPS_SKIPPED : Field := ⟨13030, 16, 0⟩
/-- WRP_SKIPS.CAL_RUNS, bits 15:0, RC, reset 0: WRP_SKIPS: calibrations made; saturates -/
def F.WRP_SKIPS_CAL_RUNS : Field := ⟨13031, 16, 0⟩
/-- WRP_GATE.CLOSES, bits 31:16, RC, reset 0: WRP_GATE: gate closures by GATE_CLOSE, one per closure although each is sent on both D0 and D1; saturates -/
def F.WRP_GATE_CLOSES : Field := ⟨13032, 16, 0⟩
/-- WRP_GATE.CUTS, bits 15:0, RC, reset 0: WRP_GATE: drifts cut; saturates -/
def F.WRP_GATE_CUTS : Field := ⟨13033, 16, 0⟩
/-- WRP_HEAD.STATE, bits 31:29, RO, reset 0: WRP_HEAD: 0 IDLE, 1 PREP, 2 CAL, 3 WREV, 4 VREV, 5 RESOLVE -/
def F.WRP_HEAD_STATE : Field := ⟨13034, 3, 0⟩
/-- WRP_HEAD.QUEUED, bits 28:24, RO, reset 0: WRP_HEAD: lodes queued, 0 to 16 -/
def F.WRP_HEAD_QUEUED : Field := ⟨13035, 5, 0⟩
/-- WRP_HEAD.CAL_REQ, bits 23, RO, reset 0: WRP_HEAD: calibration required -/
def F.WRP_HEAD_CAL_REQ : Field := ⟨13036, 1, 0⟩
/-- WRP_HEAD.CAL_OK, bits 15:0, RO, reset 0: WRP_HEAD: bit L set when (h, L) has been calibrated since LOAD -/
def F.WRP_HEAD_CAL_OK : Field := ⟨13037, 16, 0⟩
/-- WRP_SEAM.SEALED, bits 31, RO, reset 0: WRP_SEAM: trailer accepted, or sealed without a trailer for the rest of the mount (R269) -/
def F.WRP_SEAM_SEALED : Field := ⟨13038, 1, 0⟩
/-- WRP_SEAM.EXHAUSTED, bits 30, RO, reset 0: WRP_SEAM: R267 -/
def F.WRP_SEAM_EXHAUSTED : Field := ⟨13039, 1, 0⟩
/-- WRP_SEAM.KNOWN, bits 29, RO, reset 0: WRP_SEAM: write pointer established (R272) -/
def F.WRP_SEAM_KNOWN : Field := ⟨13040, 1, 0⟩
/-- WRP_SEAM.NSKIP, bits 28:20, RO, reset 0: WRP_SEAM: sparing records, 0 to 384 -/
def F.WRP_SEAM_NSKIP : Field := ⟨13041, 9, 0⟩
/-- WRP_SEAM.LODES, bits 15:0, RO, reset 0: WRP_SEAM: A; write pointer is 128 × LODES -/
def F.WRP_SEAM_LODES : Field := ⟨13042, 16, 0⟩
/-- WRP_POWER.VALID, bits 63, RW, reset per image: entry usable for writing (R275) -/
def F.WRP_POWER_VALID : Field := ⟨13043, 1, 0⟩
/-- WRP_POWER.WSTRAT, bits 62:56, RW, reset per image: strategy (R255, R275) -/
def F.WRP_POWER_WSTRAT : Field := ⟨13044, 7, 0⟩
/-- WRP_POWER.PEAK, bits 55:46, RW, reset per image: peak code, 40 uW (R275) -/
def F.WRP_POWER_PEAK : Field := ⟨13045, 10, 0⟩
/-- WRP_POWER.BIAS, bits 45:36, RW, reset per image: bias code, 40 uW (R275) -/
def F.WRP_POWER_BIAS : Field := ⟨13046, 10, 0⟩
/-- WRP_POWER.COOL, bits 35:26, RW, reset per image: cooling code, 40 uW (R275) -/
def F.WRP_POWER_COOL : Field := ⟨13047, 10, 0⟩
/-- WRP_SPARE.VALID, bits 63, RO, reset 0: record present (R275) -/
def F.WRP_SPARE_VALID : Field := ⟨13048, 1, 0⟩
/-- WRP_SPARE.REASON, bits 62:59, RO, reset 0: reason of R266 (R275) -/
def F.WRP_SPARE_REASON : Field := ⟨13049, 4, 0⟩
/-- WRP_SPARE.LODE, bits 31:16, RO, reset 0: logical lode the position was to hold (R275) -/
def F.WRP_SPARE_LODE : Field := ⟨13050, 16, 0⟩
/-- WRP_SPARE.POS, bits 15:0, RO, reset 0: skipped physical position (R275) -/
def F.WRP_SPARE_POS : Field := ⟨13051, 16, 0⟩

end Sys2Proof.Machine
end

