-- ==== Sys2Proof/Machine/FieldsC.lean ====
section
/-!
DEFINITION. The register fields of blocks HIF, HQI, MEM, LCA, CFG, TRL, CAL and PWR, one definition per field of the register tables of the spec:
its number in the register store (block number x 1000 + position), its width and its reset value (R453: "per image",
"fuses" and "strap" stand as 0 here, the value before an image is placed, fuses are sensed or straps are sampled).
-/
namespace Sys2Proof.Machine

/-- HIF_CTL.POISON_FWD, bits 1, RW, reset 1: peer read of an uncorrectable line: 1 EP set, 0 Completer Abort (R293) -/
def F.HIF_CTL_POISON_FWD : Field := ⟨3001, 1, 1⟩
/-- HIF_CTL.PEER_EN, bits 0, RW, reset 0: BAR2 access enable (R290) -/
def F.HIF_CTL_PEER_EN : Field := ⟨3002, 1, 0⟩
/-- HIF_LINK.DL_ACTIVE, bits 31, RO, reset 0: data link layer DL_Active -/
def F.HIF_LINK_DL_ACTIVE : Field := ⟨3003, 1, 0⟩
/-- HIF_LINK.DEGRADED, bits 30, RO, reset 0: trained below x8 or 32.0 GT/s -/
def F.HIF_LINK_DEGRADED : Field := ⟨3004, 1, 0⟩
/-- HIF_LINK.SPEED, bits 27:24, RO, reset 0: 1 2.5, 2 5.0, 3 8.0, 4 16.0, 5 32.0 GT/s; 0 link down -/
def F.HIF_LINK_SPEED : Field := ⟨3005, 4, 0⟩
/-- HIF_LINK.WIDTH, bits 19:16, RO, reset 0: 1, 2, 4 or 8 lanes; 0 link down -/
def F.HIF_LINK_WIDTH : Field := ⟨3006, 4, 0⟩
/-- HIF_LINK.DOWN_CNT, bits 15:0, RC, reset 0: exits from DL_Active; saturates -/
def F.HIF_LINK_DOWN_CNT : Field := ⟨3007, 16, 0⟩
/-- HIF_CONTAIN.STATE, bits 31:30, RO, reset 0: 0 RUNNING, 1 FREEZING, 2 FROZEN -/
def F.HIF_CONTAIN_STATE : Field := ⟨3008, 2, 0⟩
/-- HIF_CONTAIN.INFLIGHT, bits 23:12, RO, reset 0: commands to complete with the contained status (R296) -/
def F.HIF_CONTAIN_INFLIGHT : Field := ⟨3009, 12, 0⟩
/-- HIF_CONTAIN.CAUSE_FORCED, bits 10, RO, reset 0: forced (R294) -/
def F.HIF_CONTAIN_CAUSE_FORCED : Field := ⟨3010, 1, 0⟩
/-- HIF_CONTAIN.CAUSE_LINK, bits 9, RO, reset 0: link loss -/
def F.HIF_CONTAIN_CAUSE_LINK : Field := ⟨3011, 1, 0⟩
/-- HIF_CONTAIN.CAUSE_INTERNAL, bits 8, RO, reset 0: device-fatal event -/
def F.HIF_CONTAIN_CAUSE_INTERNAL : Field := ⟨3012, 1, 0⟩
/-- HIF_CONTAIN.FORCE, bits 1, WO, reset 0: 1 enters containment -/
def F.HIF_CONTAIN_FORCE : Field := ⟨3013, 1, 0⟩
/-- HIF_CONTAIN.RELEASE, bits 0, WO, reset 0: 1 releases under R296 -/
def F.HIF_CONTAIN_RELEASE : Field := ⟨3014, 1, 0⟩
/-- HIF_EVT.LINK_DEGRADED, bits 12, RW1C, reset 0: link trained below its maximum (corrected) -/
def F.HIF_EVT_LINK_DEGRADED : Field := ⟨3015, 1, 0⟩
/-- HIF_EVT.CFG_REJECT, bits 11, RW1C, reset 0: register access or write rejected (deferred) -/
def F.HIF_EVT_CFG_REJECT : Field := ⟨3016, 1, 0⟩
/-- HIF_EVT.COMMIT_REJECT, bits 10, RW1C, reset 0: window commit refused (deferred) -/
def F.HIF_EVT_COMMIT_REJECT : Field := ⟨3017, 1, 0⟩
/-- HIF_EVT.RELEASED, bits 9, RW1C, reset 0: containment released (corrected) -/
def F.HIF_EVT_RELEASED : Field := ⟨3018, 1, 0⟩
/-- HIF_EVT.CONTAINED, bits 8, RW1C, reset 0: containment entered (device-fatal; not itself an internal-error cause under R294) -/
def F.HIF_EVT_CONTAINED : Field := ⟨3019, 1, 0⟩
/-- HIF_EVT.LINK_LOST, bits 7, RW1C, reset 0: surprise link loss (device-fatal; recorded as CAUSE_LINK only, not as an internal error under R294) -/
def F.HIF_EVT_LINK_LOST : Field := ⟨3020, 1, 0⟩
/-- HIF_EVT.FLR1, bits 6, RW1C, reset 0: FLR of PF1 performed (corrected) -/
def F.HIF_EVT_FLR1 : Field := ⟨3021, 1, 0⟩
/-- HIF_EVT.FLR0, bits 5, RW1C, reset 0: FLR of PF0 performed (corrected) -/
def F.HIF_EVT_FLR0 : Field := ⟨3022, 1, 0⟩
/-- HIF_EVT.HOT_RESET, bits 4, RW1C, reset 0: hot reset received (corrected) -/
def F.HIF_EVT_HOT_RESET : Field := ⟨3023, 1, 0⟩
/-- HIF_EVT.PEER_UR, bits 3, RW1C, reset 0: peer request rejected (corrected) -/
def F.HIF_EVT_PEER_UR : Field := ⟨3024, 1, 0⟩
/-- HIF_EVT.POISON_RX, bits 2, RW1C, reset 0: poisoned or unsuccessful completion (deferred) -/
def F.HIF_EVT_POISON_RX : Field := ⟨3025, 1, 0⟩
/-- HIF_EVT.UNEXP_CPL, bits 1, RW1C, reset 0: late completion discarded (corrected) -/
def F.HIF_EVT_UNEXP_CPL : Field := ⟨3026, 1, 0⟩
/-- HIF_EVT.CPL_TIMEOUT, bits 0, RW1C, reset 0: completion timeout (deferred) -/
def F.HIF_EVT_CPL_TIMEOUT : Field := ⟨3027, 1, 0⟩
/-- Internal mark of R21 for HIF_EVT: bit set while the event bit stands through a FORCE write. -/
def F.HIF_EVT_FORCED : Field := ⟨3028, 13, 0⟩
/-- HIF_EVT_MASK.MASK, bits 12:0, RW, reset 0: 1 masks the event bit -/
def F.HIF_EVT_MASK_MASK : Field := ⟨3029, 13, 0⟩
/-- HIF_CPL_ERR.TIMEOUT, bits 31:16, RC, reset 0: HIF_CPL_ERR: completion timeouts; saturates -/
def F.HIF_CPL_ERR_TIMEOUT : Field := ⟨3030, 16, 0⟩
/-- HIF_CPL_ERR.UNEXP, bits 15:0, RC, reset 0: HIF_CPL_ERR: unexpected completions; saturates -/
def F.HIF_CPL_ERR_UNEXP : Field := ⟨3031, 16, 0⟩
/-- HIF_RX_ERR.POISON_RX, bits 31:16, RC, reset 0: HIF_RX_ERR: poisoned or unsuccessful completions; saturates -/
def F.HIF_RX_ERR_POISON_RX : Field := ⟨3032, 16, 0⟩
/-- HIF_RX_ERR.PEER_UR, bits 15:0, RC, reset 0: HIF_RX_ERR: rejected peer requests; saturates -/
def F.HIF_RX_ERR_PEER_UR : Field := ⟨3033, 16, 0⟩
/-- HIF_LTR.ACTIVE, bits 28:16, RW, reset 0x0814: HIF_LTR: active latency, LTR encoding [12:10] scale, [9:0] value (20 µs) -/
def F.HIF_LTR_ACTIVE : Field := ⟨3034, 13, 2068⟩
/-- HIF_LTR.IDLE, bits 12:0, RW, reset 0x0BD1: HIF_LTR: idle latency, LTR encoding (about 1 ms) -/
def F.HIF_LTR_IDLE : Field := ⟨3035, 13, 3025⟩
/-- HIF_WIN_COMMIT.GO, bits 7:0, WO, reset 0: HIF_WIN_COMMIT: bit w commits window w (R291) -/
def F.HIF_WIN_COMMIT_GO : Field := ⟨3036, 8, 0⟩
/-- HIF_WIN_STATUS.SEQ, bits 31:24, RO, reset 0: HIF_WIN_STATUS: commit sequence, increments at each boundary -/
def F.HIF_WIN_STATUS_SEQ : Field := ⟨3037, 8, 0⟩
/-- HIF_WIN_STATUS.REFUSED, bits 16, RO, reset 0: HIF_WIN_STATUS: last commit refused (R292) -/
def F.HIF_WIN_STATUS_REFUSED : Field := ⟨3038, 1, 0⟩
/-- HIF_WIN_STATUS.PEND, bits 15:8, RO, reset 0: HIF_WIN_STATUS: windows awaiting their boundary -/
def F.HIF_WIN_STATUS_PEND : Field := ⟨3039, 8, 0⟩
/-- HIF_WIN_STATUS.LIVE_EN, bits 7:0, RO, reset 0: HIF_WIN_STATUS: windows enabled in the live mapping -/
def F.HIF_WIN_STATUS_LIVE_EN : Field := ⟨3040, 8, 0⟩
/-- HIF_WIN_BASE_LO.BASE_LO, bits 31:21, RW, reset 0: BASE_LO: DRAM address [31:21]; windows are aligned to 2 MiB -/
def F.HIF_WIN_BASE_LO_BASE_LO : Field := ⟨3041, 11, 0⟩
/-- HIF_WIN_BASE_HI.BASE_HI, bits 4:0, RW, reset 0: BASE_HI: DRAM address [36:32] -/
def F.HIF_WIN_BASE_HI_BASE_HI : Field := ⟨3042, 5, 0⟩
/-- HIF_WIN_SIZE_CTL.SIZE, bits 22:16, RW, reset 0: SIZE_CTL: mapped size in units of 2 MiB, 1 to 64 when enabled (R292) -/
def F.HIF_WIN_SIZE_CTL_SIZE : Field := ⟨3043, 7, 0⟩
/-- HIF_WIN_SIZE_CTL.WR_EN, bits 2, RW, reset 0: SIZE_CTL: writes permitted -/
def F.HIF_WIN_SIZE_CTL_WR_EN : Field := ⟨3044, 1, 0⟩
/-- HIF_WIN_SIZE_CTL.RD_EN, bits 1, RW, reset 0: SIZE_CTL: reads permitted -/
def F.HIF_WIN_SIZE_CTL_RD_EN : Field := ⟨3045, 1, 0⟩
/-- HIF_WIN_SIZE_CTL.EN, bits 0, RW, reset 0: SIZE_CTL: window enabled -/
def F.HIF_WIN_SIZE_CTL_EN : Field := ⟨3046, 1, 0⟩
/-- HIF_WIN_LIVE_BASE_LO.BASE_LO, bits 31:21, RO, reset 0: BASE_LO: DRAM address [31:21]; windows are aligned to 2 MiB -/
def F.HIF_WIN_LIVE_BASE_LO_BASE_LO : Field := ⟨3047, 11, 0⟩
/-- HIF_WIN_LIVE_BASE_HI.BASE_HI, bits 4:0, RO, reset 0: BASE_HI: DRAM address [36:32] -/
def F.HIF_WIN_LIVE_BASE_HI_BASE_HI : Field := ⟨3048, 5, 0⟩
/-- HIF_WIN_LIVE_SIZE_CTL.SIZE, bits 22:16, RO, reset 0: SIZE_CTL: mapped size in units of 2 MiB, 1 to 64 when enabled (R292) -/
def F.HIF_WIN_LIVE_SIZE_CTL_SIZE : Field := ⟨3049, 7, 0⟩
/-- HIF_WIN_LIVE_SIZE_CTL.WR_EN, bits 2, RO, reset 0: SIZE_CTL: writes permitted -/
def F.HIF_WIN_LIVE_SIZE_CTL_WR_EN : Field := ⟨3050, 1, 0⟩
/-- HIF_WIN_LIVE_SIZE_CTL.RD_EN, bits 1, RO, reset 0: SIZE_CTL: reads permitted -/
def F.HIF_WIN_LIVE_SIZE_CTL_RD_EN : Field := ⟨3051, 1, 0⟩
/-- HIF_WIN_LIVE_SIZE_CTL.EN, bits 0, RO, reset 0: SIZE_CTL: window enabled -/
def F.HIF_WIN_LIVE_SIZE_CTL_EN : Field := ⟨3052, 1, 0⟩
/-- HQI_CAP.MAXQ, bits 31:24, RO, reset 64: HQI_CAP: I/O queue pairs -/
def F.HQI_CAP_MAXQ : Field := ⟨4001, 8, 64⟩
/-- HQI_CAP.MQES, bits 23:12, RO, reset 4,095: HQI_CAP: largest SIZE -/
def F.HQI_CAP_MQES : Field := ⟨4002, 12, 4095⟩
/-- HQI_CAP.MAX_BLOCKS, bits 11:0, RO, reset 1,024: HQI_CAP: largest NBLK -/
def F.HQI_CAP_MAX_BLOCKS : Field := ⟨4003, 12, 1024⟩
/-- HQI_CC.EN, bits 0, RW, reset 0: HQI_CC: controller enable (R300, R319) -/
def F.HQI_CC_EN : Field := ⟨4004, 1, 0⟩
/-- HQI_CSTS.HELD, bits 3, RO, reset 0: HQI_CSTS: media operations held for a shift (R319) -/
def F.HQI_CSTS_HELD : Field := ⟨4005, 1, 0⟩
/-- HQI_CSTS.CONTAINED, bits 2, RO, reset 0: HQI_CSTS: containment not released -/
def F.HQI_CSTS_CONTAINED : Field := ⟨4006, 1, 0⟩
/-- HQI_CSTS.NOT_READY, bits 1, RO, reset 0: HQI_CSTS: image load failed (R280) -/
def F.HQI_CSTS_NOT_READY : Field := ⟨4007, 1, 0⟩
/-- HQI_CSTS.RDY, bits 0, RO, reset 0: HQI_CSTS: controller ready -/
def F.HQI_CSTS_RDY : Field := ⟨4008, 1, 0⟩
/-- HQI_EVT.VOLUME_LOST, bits 4, RW1C, reset 0: a volume unmounted by a deck-fatal event (deferred) -/
def F.HQI_EVT_VOLUME_LOST : Field := ⟨4009, 1, 0⟩
/-- HQI_EVT.SELF_TEST_DONE, bits 3, RW1C, reset 0: self-test complete (corrected) -/
def F.HQI_EVT_SELF_TEST_DONE : Field := ⟨4010, 1, 0⟩
/-- HQI_EVT.CFG_REJECT, bits 2, RW1C, reset 0: register write rejected (deferred) -/
def F.HQI_EVT_CFG_REJECT : Field := ⟨4011, 1, 0⟩
/-- HQI_EVT.RESET_ABORT, bits 1, RW1C, reset 0: commands aborted by reset (corrected) -/
def F.HQI_EVT_RESET_ABORT : Field := ⟨4012, 1, 0⟩
/-- HQI_EVT.QUEUE_ERR, bits 0, RW1C, reset 0: queue error (deferred) -/
def F.HQI_EVT_QUEUE_ERR : Field := ⟨4013, 1, 0⟩
/-- Internal mark of R21 for HQI_EVT: bit set while the event bit stands through a FORCE write. -/
def F.HQI_EVT_FORCED : Field := ⟨4014, 5, 0⟩
/-- HQI_EVT_MASK.MASK, bits 4:0, RW, reset 0: 1 masks the event bit -/
def F.HQI_EVT_MASK_MASK : Field := ⟨4015, 5, 0⟩
/-- HQI_ARB.W_HIGH, bits 31:24, RW, reset 7: high class weight − 1 -/
def F.HQI_ARB_W_HIGH : Field := ⟨4016, 8, 7⟩
/-- HQI_ARB.W_MED, bits 23:16, RW, reset 3: medium class weight − 1 -/
def F.HQI_ARB_W_MED : Field := ⟨4017, 8, 3⟩
/-- HQI_ARB.W_LOW, bits 15:8, RW, reset 0: low class weight − 1 -/
def F.HQI_ARB_W_LOW : Field := ⟨4018, 8, 0⟩
/-- HQI_ARB.BURST, bits 2:0, RW, reset 2: entries per visit, 2^BURST -/
def F.HQI_ARB_BURST : Field := ⟨4019, 3, 2⟩
/-- HQI_SQ_BASE_LO.ADDR_LO, bits 31:12, RW, reset 0: _LO: ring address [31:12] -/
def F.HQI_SQ_BASE_LO_ADDR_LO : Field := ⟨4020, 20, 0⟩
/-- HQI_SQ_BASE_HI.ADDR_HI, bits 31:0, RW, reset 0: _HI: ring address [63:32] -/
def F.HQI_SQ_BASE_HI_ADDR_HI : Field := ⟨4021, 32, 0⟩
/-- HQI_CQ_BASE_LO.ADDR_LO, bits 31:12, RW, reset 0: _LO: ring address [31:12] -/
def F.HQI_CQ_BASE_LO_ADDR_LO : Field := ⟨4022, 20, 0⟩
/-- HQI_CQ_BASE_HI.ADDR_HI, bits 31:0, RW, reset 0: _HI: ring address [63:32] -/
def F.HQI_CQ_BASE_HI_ADDR_HI : Field := ⟨4023, 32, 0⟩
/-- HQI_QP_CTL.SIZE, bits 27:16, RW, reset 0: HQI_QP_CTL: entries − 1, 1 to 4,095; 0 when EN is set raises CFG_REJECT and EN stays clear -/
def F.HQI_QP_CTL_SIZE : Field := ⟨4024, 12, 0⟩
/-- HQI_QP_CTL.CLASS, bits 9:8, RW, reset 3: HQI_QP_CTL: 0 urgent, 1 high, 2 medium, 3 low; RO 0 for q = 0 -/
def F.HQI_QP_CTL_CLASS : Field := ⟨4025, 2, 3⟩
/-- HQI_QP_CTL.RO_DATA, bits 2, RW, reset 0: HQI_QP_CTL: Relaxed Ordering on read data writes (R283) -/
def F.HQI_QP_CTL_RO_DATA : Field := ⟨4026, 1, 0⟩
/-- HQI_QP_CTL.IEN, bits 1, RW, reset 1: HQI_QP_CTL: CQ interrupts (R306) -/
def F.HQI_QP_CTL_IEN : Field := ⟨4027, 1, 1⟩
/-- HQI_QP_CTL.EN, bits 0, RW, reset 0: HQI_QP_CTL: pair enable (R300) -/
def F.HQI_QP_CTL_EN : Field := ⟨4028, 1, 0⟩
/-- HQI_QP_INT.VECTOR, bits 23:16, RW, reset 0: HQI_QP_INT: MSI-X vector -/
def F.HQI_QP_INT_VECTOR : Field := ⟨4029, 8, 0⟩
/-- HQI_QP_INT.COAL_CNT, bits 15:8, RW, reset 0: HQI_QP_INT: entries per signal; 0 signals each entry -/
def F.HQI_QP_INT_COAL_CNT : Field := ⟨4030, 8, 0⟩
/-- HQI_QP_INT.COAL_TIME, bits 7:0, RW, reset 0: HQI_QP_INT: time limit, × 100 µs; 0 means no limit beyond COAL_CNT -/
def F.HQI_QP_INT_COAL_TIME : Field := ⟨4031, 8, 0⟩
/-- HQI_QP_STATUS.ENABLED, bits 31, RO, reset 0: pair operating or completing (R300) -/
def F.HQI_QP_STATUS_ENABLED : Field := ⟨4032, 1, 0⟩
/-- HQI_QP_STATUS.ERR, bits 30, RO, reset 0: queue error (R302); cleared by disabling the pair -/
def F.HQI_QP_STATUS_ERR : Field := ⟨4033, 1, 0⟩
/-- HQI_QP_STATUS.CAUSE, bits 27:24, RO, reset 0: 1 fetch timeout, 2 SQ doorbell, 3 CQ doorbell, 4 poisoned or unsuccessful fetch -/
def F.HQI_QP_STATUS_CAUSE : Field := ⟨4034, 4, 0⟩
/-- HQI_QP_STATUS.CQ_TAIL, bits 23:12, RO, reset 0: next CQ slot to be written -/
def F.HQI_QP_STATUS_CQ_TAIL : Field := ⟨4035, 12, 0⟩
/-- HQI_QP_STATUS.SQ_HEAD, bits 11:0, RO, reset 0: next SQ slot to be fetched -/
def F.HQI_QP_STATUS_SQ_HEAD : Field := ⟨4036, 12, 0⟩
/-- HQI_SQ_TAIL.TAIL, bits 11:0, WO, reset 0: HQI_SQ_TAIL: new SQ tail (R301) -/
def F.HQI_SQ_TAIL_TAIL : Field := ⟨4037, 12, 0⟩
/-- HQI_CQ_HEAD.HEAD, bits 11:0, WO, reset 0: HQI_CQ_HEAD: new CQ head (R301) -/
def F.HQI_CQ_HEAD_HEAD : Field := ⟨4038, 12, 0⟩
/-- MEM_CTL.SSCRUB_EN, bits 0, RW, reset 1: MEM_CTL: SRAM scrubber (R336) -/
def F.MEM_CTL_SSCRUB_EN : Field := ⟨14001, 1, 1⟩
/-- MEM_STATUS.INIT_DONE, bits 31, RO, reset 0: MEM_STATUS: channels trained -/
def F.MEM_STATUS_INIT_DONE : Field := ⟨14002, 1, 0⟩
/-- MEM_STATUS.INIT_FAIL, bits 30, RO, reset 0: MEM_STATUS: training failed (R324) -/
def F.MEM_STATUS_INIT_FAIL : Field := ⟨14003, 1, 0⟩
/-- MEM_STATUS.RATE, bits 29:28, RO, reset 0: MEM_STATUS: 0 4,800, 1 5,600, 2 6,400 MT/s -/
def F.MEM_STATUS_RATE : Field := ⟨14004, 2, 0⟩
/-- MEM_STATUS.CHANNELS, bits 27:24, RO, reset 0: MEM_STATUS: bit set per populated channel -/
def F.MEM_STATUS_CHANNELS : Field := ⟨14005, 4, 0⟩
/-- MEM_STATUS.DENSITY, bits 23:22, RO, reset 0: MEM_STATUS: 0 8 Gb, 1 16 Gb, 2 32 Gb -/
def F.MEM_STATUS_DENSITY : Field := ⟨14006, 2, 0⟩
/-- MEM_STATUS.RANKS2, bits 21, RO, reset 0: MEM_STATUS: two ranks per channel -/
def F.MEM_STATUS_RANKS2 : Field := ⟨14007, 1, 0⟩
/-- MEM_STATUS.GIB, bits 7:0, RO, reset 0: MEM_STATUS: installed capacity, GiB -/
def F.MEM_STATUS_GIB : Field := ⟨14008, 8, 0⟩
/-- MEM_EVT.INIT_FAIL, bits 9, RW1C, reset 0: DRAM training failed (device-fatal) -/
def F.MEM_EVT_INIT_FAIL : Field := ⟨14009, 1, 0⟩
/-- MEM_EVT.CFG_REJECT, bits 8, RW1C, reset 0: register write or operation rejected (deferred) -/
def F.MEM_EVT_CFG_REJECT : Field := ⟨14010, 1, 0⟩
/-- MEM_EVT.REPAIR_OVERFLOW, bits 7, RW1C, reset 0: repair not made, no spare row (deferred) -/
def F.MEM_EVT_REPAIR_OVERFLOW : Field := ⟨14011, 1, 0⟩
/-- MEM_EVT.SCRUB_SLOW, bits 6, RW1C, reset 0: SRAM lap above LAP_MAX (corrected) -/
def F.MEM_EVT_SCRUB_SLOW : Field := ⟨14012, 1, 0⟩
/-- MEM_EVT.SCRUB_DONE, bits 5, RW1C, reset 0: DRAM scrub pass ended (corrected) -/
def F.MEM_EVT_SCRUB_DONE : Field := ⟨14013, 1, 0⟩
/-- MEM_EVT.PARTIAL_DISCARD, bits 4, RW1C, reset 0: peer write discarded (deferred) -/
def F.MEM_EVT_PARTIAL_DISCARD : Field := ⟨14014, 1, 0⟩
/-- MEM_EVT.NARROW_REJECT, bits 3, RW1C, reset 0: table write rejected (deferred) -/
def F.MEM_EVT_NARROW_REJECT : Field := ⟨14015, 1, 0⟩
/-- MEM_EVT.SRAM_UE, bits 2, RW1C, reset 0: uncorrectable SRAM word (deferred) -/
def F.MEM_EVT_SRAM_UE : Field := ⟨14016, 1, 0⟩
/-- MEM_EVT.DRAM_UE, bits 1, RW1C, reset 0: uncorrectable DRAM line (deferred) -/
def F.MEM_EVT_DRAM_UE : Field := ⟨14017, 1, 0⟩
/-- MEM_EVT.CE_OVERFLOW, bits 0, RW1C, reset 0: leaky bucket overflowed (corrected) -/
def F.MEM_EVT_CE_OVERFLOW : Field := ⟨14018, 1, 0⟩
/-- Internal mark of R21 for MEM_EVT: bit set while the event bit stands through a FORCE write. -/
def F.MEM_EVT_FORCED : Field := ⟨14019, 10, 0⟩
/-- MEM_EVT_MASK.MASK, bits 9:0, RW, reset 0: 1 masks the event bit -/
def F.MEM_EVT_MASK_MASK : Field := ⟨14020, 10, 0⟩
/-- MEM_CE_CTL.DEPTH, bits 31:16, RW, reset 16: MEM_CE_CTL: bucket depth, 1 to 65,535; 0 acts as 1 -/
def F.MEM_CE_CTL_DEPTH : Field := ⟨14021, 16, 16⟩
/-- MEM_CE_CTL.LEAK, bits 15:0, RW, reset 1,000: MEM_CE_CTL: leak interval, ms; 0 acts as 1 -/
def F.MEM_CE_CTL_LEAK : Field := ⟨14022, 16, 1000⟩
/-- MEM_CE_STATUS.LEVEL, bits 31:16, RO, reset 0: MEM_CE_STATUS: present level -/
def F.MEM_CE_STATUS_LEVEL : Field := ⟨14023, 16, 0⟩
/-- MEM_CE_STATUS.OVERFLOWS, bits 15:0, RC, reset 0: MEM_CE_STATUS: overflows; saturates; a read clears OVERFLOWS only -/
def F.MEM_CE_STATUS_OVERFLOWS : Field := ⟨14024, 16, 0⟩
/-- MEM_CE_TOTAL.COUNT, bits 31:0, RC, reset 0: MEM_CE_TOTAL: corrected words or lines; saturates -/
def F.MEM_CE_TOTAL_COUNT : Field := ⟨14025, 32, 0⟩
/-- MEM_UE_LOG.VALID, bits 31, RW1C, reset 0: MEM_UE_LOG: an error is logged; clearing re-arms the log -/
def F.MEM_UE_LOG_VALID : Field := ⟨14026, 1, 0⟩
/-- MEM_UE_LOG.CLASS, bits 30, RO, reset 0: MEM_UE_LOG: 0 SRAM, 1 DRAM -/
def F.MEM_UE_LOG_CLASS : Field := ⟨14027, 1, 0⟩
/-- MEM_UE_LOG.POISON, bits 29, RO, reset 0: MEM_UE_LOG: poison pattern found (R327) -/
def F.MEM_UE_LOG_POISON : Field := ⟨14028, 1, 0⟩
/-- MEM_UE_LOG.SOURCE, bits 28:24, RO, reset 0: MEM_UE_LOG: 0 scrub, 1 lode cache, 2 host DMA, 3 peer, 4 Assayer, 5 Precis, 6 write path, 7 command engine, 8  -/
def F.MEM_UE_LOG_SOURCE : Field := ⟨14029, 5, 0⟩
/-- MEM_UE_LOG.COUNT, bits 15:0, RC, reset 0: MEM_UE_LOG: further errors; saturates -/
def F.MEM_UE_LOG_COUNT : Field := ⟨14030, 16, 0⟩
/-- MEM_UE_ADDR.ADDR, bits 31:0, RO, reset 0: MEM_UE_ADDR: line number (DRAM) or word address [34:3] (SRAM) -/
def F.MEM_UE_ADDR_ADDR : Field := ⟨14031, 32, 0⟩
/-- MEM_PWD_LOG.KIND, bits 31:30, RO, reset 0: MEM_PWD_LOG: 0 none, 1 table narrow write, 2 peer partial write -/
def F.MEM_PWD_LOG_KIND : Field := ⟨14032, 2, 0⟩
/-- MEM_PWD_LOG.COUNT, bits 15:0, RC, reset 0: MEM_PWD_LOG: rejected and discarded writes; saturates -/
def F.MEM_PWD_LOG_COUNT : Field := ⟨14033, 16, 0⟩
/-- MEM_PWD_ADDR.ADDR, bits 31:0, RO, reset 0: MEM_PWD_ADDR: PF1 BAR0 offset of the entry, or BAR2 offset of the request -/
def F.MEM_PWD_ADDR_ADDR : Field := ⟨14034, 32, 0⟩
/-- MEM_SSCRUB.LAP_MAX, bits 15:0, RW, reset 10,000: MEM_SSCRUB: lap limit, ms -/
def F.MEM_SSCRUB_LAP_MAX : Field := ⟨14035, 16, 10000⟩
/-- MEM_SSCRUB_STATUS.LAP, bits 31:16, RO, reset 0: MEM_SSCRUB_STATUS: last lap time, ms; saturates -/
def F.MEM_SSCRUB_STATUS_LAP : Field := ⟨14036, 16, 0⟩
/-- MEM_SSCRUB_STATUS.LAPS, bits 15:0, RC, reset 0: MEM_SSCRUB_STATUS: laps completed; saturates -/
def F.MEM_SSCRUB_STATUS_LAPS : Field := ⟨14037, 16, 0⟩
/-- MEM_DSCRUB_START.LINE, bits 30:0, RW, reset 0: MEM_DSCRUB_START, MEM_DSCRUB_END: line number; bit 31 reserved -/
def F.MEM_DSCRUB_START_LINE : Field := ⟨14038, 31, 0⟩
/-- MEM_DSCRUB_END.LINE, bits 30:0, RW, reset 0: MEM_DSCRUB_START, MEM_DSCRUB_END: line number; bit 31 reserved -/
def F.MEM_DSCRUB_END_LINE : Field := ⟨14039, 31, 0⟩
/-- MEM_DSCRUB_CTL.RATE, bits 31:16, RW, reset 64: MEM_DSCRUB_CTL: lines per µs, 1 to 400; 0 acts as 1 -/
def F.MEM_DSCRUB_CTL_RATE : Field := ⟨14040, 16, 64⟩
/-- MEM_DSCRUB_CTL.STOP, bits 1, WO, reset 0: MEM_DSCRUB_CTL: end the pass (R337) -/
def F.MEM_DSCRUB_CTL_STOP : Field := ⟨14041, 1, 0⟩
/-- MEM_DSCRUB_CTL.GO, bits 0, WO, reset 0: MEM_DSCRUB_CTL: start a pass -/
def F.MEM_DSCRUB_CTL_GO : Field := ⟨14042, 1, 0⟩
/-- MEM_DSCRUB_STATUS.BUSY, bits 31, RO, reset 0: MEM_DSCRUB_STATUS: pass running -/
def F.MEM_DSCRUB_STATUS_BUSY : Field := ⟨14043, 1, 0⟩
/-- MEM_DSCRUB_STATUS.DONE, bits 30, RO, reset 0: MEM_DSCRUB_STATUS: summary valid; cleared by GO -/
def F.MEM_DSCRUB_STATUS_DONE : Field := ⟨14044, 1, 0⟩
/-- MEM_DSCRUB_STATUS.STOPPED, bits 29, RO, reset 0: MEM_DSCRUB_STATUS: ended by STOP -/
def F.MEM_DSCRUB_STATUS_STOPPED : Field := ⟨14045, 1, 0⟩
/-- MEM_DSCRUB_STATUS.LINES, bits 28:0, RO, reset 0: MEM_DSCRUB_STATUS: lines read; saturates -/
def F.MEM_DSCRUB_STATUS_LINES : Field := ⟨14046, 29, 0⟩
/-- MEM_DSCRUB_CE.COUNT, bits 31:0, RO, reset 0: MEM_DSCRUB_CE, MEM_DSCRUB_UE: lines; saturates -/
def F.MEM_DSCRUB_CE_COUNT : Field := ⟨14047, 32, 0⟩
/-- MEM_DSCRUB_UE.COUNT, bits 31:0, RO, reset 0: MEM_DSCRUB_CE, MEM_DSCRUB_UE: lines; saturates -/
def F.MEM_DSCRUB_UE_COUNT : Field := ⟨14048, 32, 0⟩
/-- MEM_DSCRUB_FIRST.LINE, bits 30:0, RO, reset 0x7FFF_FFFF: MEM_DSCRUB_FIRST, _LAST, _WORST: line number (R338) -/
def F.MEM_DSCRUB_FIRST_LINE : Field := ⟨14049, 31, 2147483647⟩
/-- MEM_DSCRUB_LAST.LINE, bits 30:0, RO, reset 0x7FFF_FFFF: MEM_DSCRUB_FIRST, _LAST, _WORST: line number (R338) -/
def F.MEM_DSCRUB_LAST_LINE : Field := ⟨14050, 31, 2147483647⟩
/-- MEM_DSCRUB_WORST.LINE, bits 30:0, RO, reset 0x7FFF_FFFF: MEM_DSCRUB_FIRST, _LAST, _WORST: line number (R338) -/
def F.MEM_DSCRUB_WORST_LINE : Field := ⟨14051, 31, 2147483647⟩
/-- MEM_DSCRUB_WINFO.UE, bits 8, RO, reset 0: MEM_DSCRUB_WINFO: worst line uncorrectable -/
def F.MEM_DSCRUB_WINFO_UE : Field := ⟨14052, 1, 0⟩
/-- MEM_DSCRUB_WINFO.CWS, bits 7:4, RO, reset 0: MEM_DSCRUB_WINFO: codewords in error, 0 to 8 -/
def F.MEM_DSCRUB_WINFO_CWS : Field := ⟨14053, 4, 0⟩
/-- MEM_DSCRUB_WINFO.DEVICE, bits 3:0, RO, reset 0xF: MEM_DSCRUB_WINFO: corrected device m; 0xF if none -/
def F.MEM_DSCRUB_WINFO_DEVICE : Field := ⟨14054, 4, 15⟩
/-- MEM_TEST_CTL.BUSY, bits 31, RO, reset 0: MEM_TEST_CTL: DRAM test operation running -/
def F.MEM_TEST_CTL_BUSY : Field := ⟨14055, 1, 0⟩
/-- MEM_TEST_CTL.OP, bits 3:2, WO, reset 0: MEM_TEST_CTL: 1 raw write, 2 raw read (R339); ignored while BUSY -/
def F.MEM_TEST_CTL_OP : Field := ⟨14056, 2, 0⟩
/-- MEM_TEST_CTL.SRAM, bits 1, RW, reset 0: MEM_TEST_CTL: raw check bytes on table entries -/
def F.MEM_TEST_CTL_SRAM : Field := ⟨14057, 1, 0⟩
/-- MEM_TEST_CTL.EN, bits 0, RW, reset 0: MEM_TEST_CTL: test mode enable -/
def F.MEM_TEST_CTL_EN : Field := ⟨14058, 1, 0⟩
/-- MEM_TEST_SCHK.RD, bits 15:8, RO, reset 0: MEM_TEST_SCHK: check byte of the last entry read -/
def F.MEM_TEST_SCHK_RD : Field := ⟨14059, 8, 0⟩
/-- MEM_TEST_SCHK.WR, bits 7:0, RW, reset 0: MEM_TEST_SCHK: check byte for entry writes -/
def F.MEM_TEST_SCHK_WR : Field := ⟨14060, 8, 0⟩
/-- MEM_TEST_LINE.LINE, bits 30:0, RW, reset 0: MEM_TEST_LINE: line number; bit 31 reserved -/
def F.MEM_TEST_LINE_LINE : Field := ⟨14061, 31, 0⟩
/-- MEM_TEST_DATA.BYTES, bits 31:0, RW, reset 0: MEM_TEST_DATA, MEM_TEST_CHK: four bytes, lowest in bits [7:0] -/
def F.MEM_TEST_DATA_BYTES : Field := ⟨14062, 32, 0⟩
/-- MEM_TEST_CHK.BYTES, bits 31:0, RW, reset 0: MEM_TEST_DATA, MEM_TEST_CHK: four bytes, lowest in bits [7:0] -/
def F.MEM_TEST_CHK_BYTES : Field := ⟨14063, 32, 0⟩
/-- MEM_REPAIR.SOFT, bits 31:16, RO, reset 0: MEM_REPAIR: soft repairs applied -/
def F.MEM_REPAIR_SOFT : Field := ⟨14064, 16, 0⟩
/-- MEM_REPAIR.FUSED, bits 15:0, RO, reset 0: MEM_REPAIR: fused repairs applied -/
def F.MEM_REPAIR_FUSED : Field := ⟨14065, 16, 0⟩
/-- LCA_WAY_STATUS.WAYS, bits 31:27, RO, reset per image: LCA_WAY_STATUS: placed ways, 2 to 16 -/
def F.LCA_WAY_STATUS_WAYS : Field := ⟨15001, 5, 0⟩
/-- LCA_WAY_STATUS.ON, bits 15:0, RO, reset per image: LCA_WAY_STATUS: bit w set while way w is powered -/
def F.LCA_WAY_STATUS_ON : Field := ⟨15002, 16, 0⟩
/-- LCA_WAY_CTL.OFF, bits 31:16, RW, reset 0: LCA_WAY_CTL: bit w requests power-down of way w (R344) -/
def F.LCA_WAY_CTL_OFF : Field := ⟨15003, 16, 0⟩
/-- LCA_WAY_CTL.LOCK, bits 15:0, RW, reset 0: LCA_WAY_CTL: bit w locks way w -/
def F.LCA_WAY_CTL_LOCK : Field := ⟨15004, 16, 0⟩
/-- LCA_EVT.CFG_REJECT, bits 4, RW1C, reset 0: request refused (deferred) -/
def F.LCA_EVT_CFG_REJECT : Field := ⟨15005, 1, 0⟩
/-- LCA_EVT.TAG_UE, bits 3, RW1C, reset 0: uncorrectable tag or state (device-fatal) -/
def F.LCA_EVT_TAG_UE : Field := ⟨15006, 1, 0⟩
/-- LCA_EVT.POISON_WB, bits 2, RW1C, reset 0: line written back with the poison pattern (deferred) -/
def F.LCA_EVT_POISON_WB : Field := ⟨15007, 1, 0⟩
/-- LCA_EVT.WAY_OFF, bits 1, RW1C, reset 0: a way finished powering down (corrected) -/
def F.LCA_EVT_WAY_OFF : Field := ⟨15008, 1, 0⟩
/-- LCA_EVT.OP_DONE, bits 0, RW1C, reset 0: maintenance or preload complete (corrected) -/
def F.LCA_EVT_OP_DONE : Field := ⟨15009, 1, 0⟩
/-- Internal mark of R21 for LCA_EVT: bit set while the event bit stands through a FORCE write. -/
def F.LCA_EVT_FORCED : Field := ⟨15010, 5, 0⟩
/-- LCA_EVT_MASK.MASK, bits 4:0, RW, reset 0: 1 masks the event bit -/
def F.LCA_EVT_MASK_MASK : Field := ⟨15011, 5, 0⟩
/-- LCA_OP.WAY, bits 9:6, RW, reset 0: LCA_OP: way for preload -/
def F.LCA_OP_WAY : Field := ⟨15012, 4, 0⟩
/-- LCA_OP.FORCE, bits 5, RW, reset 0: LCA_OP: act on locked lines by set and way (R347) -/
def F.LCA_OP_FORCE : Field := ⟨15013, 1, 0⟩
/-- LCA_OP.MODE, bits 4, RW, reset 0: LCA_OP: 0 range, 1 set and way -/
def F.LCA_OP_MODE : Field := ⟨15014, 1, 0⟩
/-- LCA_OP.OP, bits 3:1, RW, reset 0: LCA_OP: 1 clean, 2 invalidate, 3 clean and invalidate, 4 preload (range only); others ignored with CFG_REJECT -/
def F.LCA_OP_OP : Field := ⟨15015, 3, 0⟩
/-- LCA_OP.GO, bits 0, WO, reset 0: LCA_OP: start (R346) -/
def F.LCA_OP_GO : Field := ⟨15016, 1, 0⟩
/-- LCA_OP_START.LINE, bits 30:0, RW, reset 0: MODE 0: line number; MODE 1: SET [16:4] and SWAY [3:0] -/
def F.LCA_OP_START_LINE : Field := ⟨15017, 31, 0⟩
/-- LCA_OP_END.LINE, bits 30:0, RW, reset 0: LCA_OP_START (MODE 0), LCA_OP_END: line number; bit 31 reserved -/
def F.LCA_OP_END_LINE : Field := ⟨15018, 31, 0⟩
/-- LCA_OP_STATUS.BUSY, bits 31, RO, reset 0: LCA_OP_STATUS: operation running -/
def F.LCA_OP_STATUS_BUSY : Field := ⟨15019, 1, 0⟩
/-- LCA_OP_STATUS.DONE, bits 30, RO, reset 0: LCA_OP_STATUS: complete; cleared by GO -/
def F.LCA_OP_STATUS_DONE : Field := ⟨15020, 1, 0⟩
/-- LCA_OP_STATUS.REFUSED, bits 29, RO, reset 0: LCA_OP_STATUS: preload refused (R345) -/
def F.LCA_OP_STATUS_REFUSED : Field := ⟨15021, 1, 0⟩
/-- LCA_OP_STATUS.SKIPPED, bits 28:15, RO, reset 0: LCA_OP_STATUS: locked lines left alone; saturates -/
def F.LCA_OP_STATUS_SKIPPED : Field := ⟨15022, 14, 0⟩
/-- LCA_OP_STATUS.AFFECTED, bits 14:0, RO, reset 0: LCA_OP_STATUS: lines cleaned, invalidated or loaded; saturates -/
def F.LCA_OP_STATUS_AFFECTED : Field := ⟨15023, 15, 0⟩
/-- LCA_HITS.COUNT, bits 31:0, RC, reset 0: lookups that hit (LCA_HITS) or missed (LCA_MISSES); saturates -/
def F.LCA_HITS_COUNT : Field := ⟨15024, 32, 0⟩
/-- LCA_MISSES.COUNT, bits 31:0, RC, reset 0: lookups that hit (LCA_HITS) or missed (LCA_MISSES); saturates -/
def F.LCA_MISSES_COUNT : Field := ⟨15025, 32, 0⟩
/-- CFG_STATUS.LOADED, bits 31, RO, reset 0: CFG_STATUS: an image is placed -/
def F.CFG_STATUS_LOADED : Field := ⟨16001, 1, 0⟩
/-- CFG_STATUS.LOAD_FAIL, bits 30, RO, reset 0: CFG_STATUS: both attempts failed (R367) -/
def F.CFG_STATUS_LOAD_FAIL : Field := ⟨16002, 1, 0⟩
/-- CFG_STATUS.FALLBACK, bits 29, RO, reset 0: CFG_STATUS: running the slot not named ACTIVE -/
def F.CFG_STATUS_FALLBACK : Field := ⟨16003, 1, 0⟩
/-- CFG_STATUS.SLOT, bits 28, RO, reset 0: CFG_STATUS: running slot, 0 A, 1 B -/
def F.CFG_STATUS_SLOT : Field := ⟨16004, 1, 0⟩
/-- CFG_STATUS.RECORD_READY, bits 27, RO, reset 0: CFG_STATUS: current record signed (R372) -/
def F.CFG_STATUS_RECORD_READY : Field := ⟨16005, 1, 0⟩
/-- CFG_STATUS.RESET_CAUSE, bits 23:16, RO, reset 0: CFG_STATUS: CAUSE of the current record -/
def F.CFG_STATUS_RESET_CAUSE : Field := ⟨16006, 8, 0⟩
/-- CFG_STATUS.FAIL_CLAUSE, bits 15:0, RO, reset 0xFFFF: CFG_STATUS: first invalid clause (R366); 0xFFFF none -/
def F.CFG_STATUS_FAIL_CLAUSE : Field := ⟨16007, 16, 65535⟩
/-- CFG_LOAD_CAUSE.CAUSE_A, bits 15:8, RO, reset 0: CFG_LOAD_CAUSE: slot A cause (R367); 0 not tried or passed -/
def F.CFG_LOAD_CAUSE_CAUSE_A : Field := ⟨16008, 8, 0⟩
/-- CFG_LOAD_CAUSE.CAUSE_B, bits 7:0, RO, reset 0: CFG_LOAD_CAUSE: slot B cause -/
def F.CFG_LOAD_CAUSE_CAUSE_B : Field := ⟨16009, 8, 0⟩
/-- CFG_IMAGE_VER.VER, bits 31:0, RO, reset 0: CFG_IMAGE_VER: IMAGE_VER of the running image -/
def F.CFG_IMAGE_VER_VER : Field := ⟨16010, 32, 0⟩
/-- CFG_SVN.RUN, bits 23:16, RO, reset 0: CFG_SVN: SVN of the running image -/
def F.CFG_SVN_RUN : Field := ⟨16011, 8, 0⟩
/-- CFG_SVN.FUSED, bits 15:8, RO, reset fuses: CFG_SVN: fused SVN -/
def F.CFG_SVN_FUSED : Field := ⟨16012, 8, 0⟩
/-- CFG_EVT.CFG_REJECT, bits 12, RW1C, reset 0: write or command refused (deferred) -/
def F.CFG_EVT_CFG_REJECT : Field := ⟨16013, 1, 0⟩
/-- CFG_EVT.FUSE_FAIL, bits 11, RW1C, reset 0: fuse bit did not program (deferred) -/
def F.CFG_EVT_FUSE_FAIL : Field := ⟨16014, 1, 0⟩
/-- CFG_EVT.SVN_COMMITTED, bits 10, RW1C, reset 0: fused SVN raised (corrected) -/
def F.CFG_EVT_SVN_COMMITTED : Field := ⟨16015, 1, 0⟩
/-- CFG_EVT.LOG_FAIL, bits 9, RW1C, reset 0: boot record not written to flash (deferred) -/
def F.CFG_EVT_LOG_FAIL : Field := ⟨16016, 1, 0⟩
/-- CFG_EVT.SHIFT_STAYED, bits 8, RW1C, reset 0: unit stays on its old epoch (deferred) -/
def F.CFG_EVT_SHIFT_STAYED : Field := ⟨16017, 1, 0⟩
/-- CFG_EVT.SHIFT_LATE, bits 7, RW1C, reset 0: shift applied after F (corrected) -/
def F.CFG_EVT_SHIFT_LATE : Field := ⟨16018, 1, 0⟩
/-- CFG_EVT.SHIFT_APPLIED, bits 6, RW1C, reset 0: shift applied (corrected) -/
def F.CFG_EVT_SHIFT_APPLIED : Field := ⟨16019, 1, 0⟩
/-- CFG_EVT.ARMED, bits 5, RW1C, reset 0: standby plane prepared (corrected) -/
def F.CFG_EVT_ARMED : Field := ⟨16020, 1, 0⟩
/-- CFG_EVT.STAGE_FAIL, bits 4, RW1C, reset 0: staged image failed verification (deferred) -/
def F.CFG_EVT_STAGE_FAIL : Field := ⟨16021, 1, 0⟩
/-- CFG_EVT.STAGE_READY, bits 3, RW1C, reset 0: staged image copied and verified (corrected) -/
def F.CFG_EVT_STAGE_READY : Field := ⟨16022, 1, 0⟩
/-- CFG_EVT.PIECE_REJECT, bits 2, RW1C, reset 0: piece rejected (deferred) -/
def F.CFG_EVT_PIECE_REJECT : Field := ⟨16023, 1, 0⟩
/-- CFG_EVT.FALLBACK, bits 1, RW1C, reset 0: loaded from the other slot (deferred) -/
def F.CFG_EVT_FALLBACK : Field := ⟨16024, 1, 0⟩
/-- CFG_EVT.LOAD_FAIL, bits 0, RW1C, reset 0: no image loaded (deferred) -/
def F.CFG_EVT_LOAD_FAIL : Field := ⟨16025, 1, 0⟩
/-- Internal mark of R21 for CFG_EVT: bit set while the event bit stands through a FORCE write. -/
def F.CFG_EVT_FORCED : Field := ⟨16026, 13, 0⟩
/-- CFG_EVT_MASK.MASK, bits 12:0, RW, reset 0: 1 masks the event bit -/
def F.CFG_EVT_MASK_MASK : Field := ⟨16027, 13, 0⟩
/-- CFG_EPOCH_LO.EPOCH, bits 31:0, RO, reset 0: CFG_EPOCH_LO, CFG_EPOCH_HI: running epoch -/
def F.CFG_EPOCH_LO_EPOCH : Field := ⟨16028, 32, 0⟩
/-- CFG_EPOCH_HI.EPOCH, bits 31:0, RO, reset 0: CFG_EPOCH_LO, CFG_EPOCH_HI: running epoch -/
def F.CFG_EPOCH_HI_EPOCH : Field := ⟨16029, 32, 0⟩
/-- CFG_BOOT_CTR.CTR, bits 31:0, RO, reset 0: CFG_BOOT_CTR: BOOT_CTR of the current record -/
def F.CFG_BOOT_CTR_CTR : Field := ⟨16030, 32, 0⟩
/-- CFG_KEYS.REVOKED, bits 15:12, RO, reset fuses: bit s: slot s revoked -/
def F.CFG_KEYS_REVOKED : Field := ⟨16031, 4, 0⟩
/-- CFG_KEYS.FUSED, bits 11:8, RO, reset fuses: bit s: KEY_DIGEST[s] not zero -/
def F.CFG_KEYS_FUSED : Field := ⟨16032, 4, 0⟩
/-- CFG_KEYS.USABLE, bits 7:4, RO, reset 0: bit s: key s usable (R354) -/
def F.CFG_KEYS_USABLE : Field := ⟨16033, 4, 0⟩
/-- CFG_KEYS.RUN_SLOT, bits 1:0, RO, reset 0: key slot of the running image -/
def F.CFG_KEYS_RUN_SLOT : Field := ⟨16034, 2, 0⟩
/-- CFG_STAGE_STATUS.STATE, bits 31:29, RO, reset 0: CFG_STAGE_STATUS: 0 EMPTY, 1 RECEIVING, 2 VERIFYING, 3 COPYING, 4 READY, 5 ARMED, 6 FAILED -/
def F.CFG_STAGE_STATUS_STATE : Field := ⟨16035, 3, 0⟩
/-- CFG_STAGE_STATUS.COUNT, bits 28:16, RO, reset 0: CFG_STAGE_STATUS: pieces in the image -/
def F.CFG_STAGE_STATUS_COUNT : Field := ⟨16036, 13, 0⟩
/-- CFG_STAGE_STATUS.RECEIVED, bits 12:0, RO, reset 0: CFG_STAGE_STATUS: pieces marked -/
def F.CFG_STAGE_STATUS_RECEIVED : Field := ⟨16037, 13, 0⟩
/-- CFG_STAGE_EPOCH_LO.EPOCH, bits 31:0, RO, reset 0: CFG_STAGE_EPOCH_LO, _HI: staging epoch -/
def F.CFG_STAGE_EPOCH_LO_EPOCH : Field := ⟨16038, 32, 0⟩
/-- CFG_STAGE_EPOCH_HI.EPOCH, bits 31:0, RO, reset 0: CFG_STAGE_EPOCH_LO, _HI: staging epoch -/
def F.CFG_STAGE_EPOCH_HI_EPOCH : Field := ⟨16039, 32, 0⟩
/-- CFG_STAGE_REJECT.LAST, bits 31:24, RO, reset 0: CFG_STAGE_REJECT: last reject reason (R375) -/
def F.CFG_STAGE_REJECT_LAST : Field := ⟨16040, 8, 0⟩
/-- CFG_STAGE_REJECT.FAIL, bits 23:16, RO, reset 0: CFG_STAGE_REJECT: cause of FAILED (R367 codes) -/
def F.CFG_STAGE_REJECT_FAIL : Field := ⟨16041, 8, 0⟩
/-- CFG_STAGE_REJECT.COUNT, bits 15:0, RC, reset 0: CFG_STAGE_REJECT: pieces rejected; saturates -/
def F.CFG_STAGE_REJECT_COUNT : Field := ⟨16042, 16, 0⟩
/-- CFG_STAGE_CTL.ABANDON, bits 0, WO, reset 0: CFG_STAGE_CTL: 1 erases staging (R378) -/
def F.CFG_STAGE_CTL_ABANDON : Field := ⟨16043, 1, 0⟩
/-- CFG_SHIFT_STATUS.STATE, bits 31:29, RO, reset 0: CFG_SHIFT_STATUS: 0 NONE, 1 ARMED, 2 COMMITTED, 3 HOLDING, 4 APPLIED, 5 STAYED -/
def F.CFG_SHIFT_STATUS_STATE : Field := ⟨16044, 3, 0⟩
/-- CFG_SHIFT_STATUS.DEFER, bits 12:0, RO, reset 0: CFG_SHIFT_STATUS: frames from F to application, 0 to 4,096 -/
def F.CFG_SHIFT_STATUS_DEFER : Field := ⟨16045, 13, 0⟩
/-- CFG_SHIFT_FRAME_LO.F_LO, bits 31:0, RO, reset 0: CFG_SHIFT_FRAME_LO: F [31:0] -/
def F.CFG_SHIFT_FRAME_LO_F_LO : Field := ⟨16046, 32, 0⟩
/-- CFG_SHIFT_FRAME_HI.F_HI, bits 7:0, RO, reset 0: CFG_SHIFT_FRAME_HI: F [39:32] -/
def F.CFG_SHIFT_FRAME_HI_F_HI : Field := ⟨16047, 8, 0⟩
/-- CFG_FUSE_CMD.BUSY, bits 31, RO, reset 0: CFG_FUSE_CMD: programming in progress -/
def F.CFG_FUSE_CMD_BUSY : Field := ⟨16048, 1, 0⟩
/-- CFG_FUSE_CMD.FAIL, bits 30, RO, reset 0: CFG_FUSE_CMD: last command left a bit unprogrammed -/
def F.CFG_FUSE_CMD_FAIL : Field := ⟨16049, 1, 0⟩
/-- CFG_FUSE_CMD.CONFIRM, bits 23:16, WO, reset 0: CFG_FUSE_CMD: must be 0x5A (R352) -/
def F.CFG_FUSE_CMD_CONFIRM : Field := ⟨16050, 8, 0⟩
/-- CFG_FUSE_CMD.SLOT, bits 9:8, WO, reset 0: CFG_FUSE_CMD: key slot for OP 2 -/
def F.CFG_FUSE_CMD_SLOT : Field := ⟨16051, 2, 0⟩
/-- CFG_FUSE_CMD.OP, bits 2:0, WO, reset 0: CFG_FUSE_CMD: 1 SVN commit, 2 revoke; others ignored with CFG_REJECT -/
def F.CFG_FUSE_CMD_OP : Field := ⟨16052, 3, 0⟩
/-- CFG_LOG_STATUS.FAILS, bits 31:16, RC, reset 0: CFG_LOG_STATUS: failed log writes; saturates -/
def F.CFG_LOG_STATUS_FAILS : Field := ⟨16053, 16, 0⟩
/-- CFG_LOG_STATUS.HELD, bits 12:0, RO, reset 0: CFG_LOG_STATUS: valid records in the log, 0 to 4,112 -/
def F.CFG_LOG_STATUS_HELD : Field := ⟨16054, 13, 0⟩
/-- CFG_DIGEST.BYTES, bits 31:0, RO, reset 0: image digest bytes 4i to 4i + 3 of the running image, lowest in [7:0] -/
def F.CFG_DIGEST_BYTES : Field := ⟨16055, 32, 0⟩
/-- TRL_CTL.RESET_EN, bits 3, RW, reset 0: TRL_CTL: act on UNIT_RESET (R398) -/
def F.TRL_CTL_RESET_EN : Field := ⟨17001, 1, 0⟩
/-- TRL_CTL.ELECT, bits 2, WO, reset 0: TRL_CTL: 1 starts an election (R392) -/
def F.TRL_CTL_ELECT : Field := ⟨17002, 1, 0⟩
/-- TRL_CTL.PIECE_EN, bits 1, RW, reset 1: TRL_CTL: pass ring pieces to CFG -/
def F.TRL_CTL_PIECE_EN : Field := ⟨17003, 1, 1⟩
/-- TRL_CTL.EN, bits 0, RW, reset strap: TRL_CTL: ring enable; resets to the level of STRAP_RING_EN (R418) -/
def F.TRL_CTL_EN : Field := ⟨17004, 1, 0⟩
/-- TRL_STATUS.ROLE, bits 31:29, RO, reset 0: TRL_STATUS: 0 OFF, 1 LOOP, 2 LISTEN, 3 MEMBER, 4 ELECT, 5 HEAD -/
def F.TRL_STATUS_ROLE : Field := ⟨17005, 3, 0⟩
/-- TRL_STATUS.BYP_HOLD, bits 28, RO, reset 0: TRL_STATUS: output level -/
def F.TRL_STATUS_BYP_HOLD : Field := ⟨17006, 1, 0⟩
/-- TRL_STATUS.MIXED, bits 27, RO, reset 0: TRL_STATUS: from the last FRAME_START -/
def F.TRL_STATUS_MIXED : Field := ⟨17007, 1, 0⟩
/-- TRL_STATUS.OPEN, bits 26, RO, reset 0: TRL_STATUS: from the last FRAME_START -/
def F.TRL_STATUS_OPEN : Field := ⟨17008, 1, 0⟩
/-- TRL_STATUS.EXCLUDED, bits 25, RO, reset 0: TRL_STATUS: own W3 bit 58 -/
def F.TRL_STATUS_EXCLUDED : Field := ⟨17009, 1, 0⟩
/-- TRL_STATUS.IN_LOCK, bits 24, RO, reset 0: TRL_STATUS: ring-in block lock -/
def F.TRL_STATUS_IN_LOCK : Field := ⟨17010, 1, 0⟩
/-- TRL_STATUS.POSITION, bits 9:0, RO, reset 0: TRL_STATUS: position (R389) -/
def F.TRL_STATUS_POSITION : Field := ⟨17011, 10, 0⟩
/-- TRL_TIME_LO.TIME_LO, bits 31:0, RO, reset 0: TRL_TIME_LO: ring time [31:0] -/
def F.TRL_TIME_LO_TIME_LO : Field := ⟨17012, 32, 0⟩
/-- TRL_TIME_HI.TIME_HI, bits 7:0, RO, reset 0: TRL_TIME_HI: ring time [39:32], latched by the last read of TRL_TIME_LO -/
def F.TRL_TIME_HI_TIME_HI : Field := ⟨17013, 8, 0⟩
/-- TRL_EVT.TOO_MANY, bits 14, RW1C, reset 0: FULL received: the ring already holds 1,024 units (deferred) -/
def F.TRL_EVT_TOO_MANY : Field := ⟨17014, 1, 0⟩
/-- TRL_EVT.LOOP_FAIL, bits 13, RW1C, reset 0: no lock in LOOP (deferred) -/
def F.TRL_EVT_LOOP_FAIL : Field := ⟨17015, 1, 0⟩
/-- TRL_EVT.CFG_REJECT, bits 12, RW1C, reset 0: register write rejected (deferred) -/
def F.TRL_EVT_CFG_REJECT : Field := ⟨17016, 1, 0⟩
/-- TRL_EVT.LAP_LONG, bits 11, RW1C, reset 0: lap above 120 µs (deferred) -/
def F.TRL_EVT_LAP_LONG : Field := ⟨17017, 1, 0⟩
/-- TRL_EVT.EXCLUDED, bits 10, RW1C, reset 0: this unit excluded (deferred) -/
def F.TRL_EVT_EXCLUDED : Field := ⟨17018, 1, 0⟩
/-- TRL_EVT.SHIFT_REFUSED, bits 9, RW1C, reset 0: own request refused or aborted (deferred) -/
def F.TRL_EVT_SHIFT_REFUSED : Field := ⟨17019, 1, 0⟩
/-- TRL_EVT.CRC_ERR, bits 8, RW1C, reset 0: message CRC failed (corrected) -/
def F.TRL_EVT_CRC_ERR : Field := ⟨17020, 1, 0⟩
/-- TRL_EVT.TX_DONE, bits 7, RW1C, reset 0: sent message returned or lost (corrected) -/
def F.TRL_EVT_TX_DONE : Field := ⟨17021, 1, 0⟩
/-- TRL_EVT.MSG_RX, bits 6, RW1C, reset 0: message copied to TRL_RX (corrected) -/
def F.TRL_EVT_MSG_RX : Field := ⟨17022, 1, 0⟩
/-- TRL_EVT.RING_OPEN, bits 5, RW1C, reset 0: frames not returning to the headframe (deferred) -/
def F.TRL_EVT_RING_OPEN : Field := ⟨17023, 1, 0⟩
/-- TRL_EVT.UNMIXED, bits 4, RW1C, reset 0: MIXED cleared (corrected) -/
def F.TRL_EVT_UNMIXED : Field := ⟨17024, 1, 0⟩
/-- TRL_EVT.MIXED, bits 3, RW1C, reset 0: MIXED set (deferred) -/
def F.TRL_EVT_MIXED : Field := ⟨17025, 1, 0⟩
/-- TRL_EVT.HEAD_CHANGE, bits 2, RW1C, reset 0: this unit became headframe (corrected) -/
def F.TRL_EVT_HEAD_CHANGE : Field := ⟨17026, 1, 0⟩
/-- TRL_EVT.ELECTION, bits 1, RW1C, reset 0: election entered (deferred) -/
def F.TRL_EVT_ELECTION : Field := ⟨17027, 1, 0⟩
/-- TRL_EVT.JOINED, bits 0, RW1C, reset 0: entered MEMBER (corrected) -/
def F.TRL_EVT_JOINED : Field := ⟨17028, 1, 0⟩
/-- Internal mark of R21 for TRL_EVT: bit set while the event bit stands through a FORCE write. -/
def F.TRL_EVT_FORCED : Field := ⟨17029, 15, 0⟩
/-- TRL_EVT_MASK.MASK, bits 14:0, RW, reset 0: 1 masks the event bit -/
def F.TRL_EVT_MASK_MASK : Field := ⟨17030, 15, 0⟩
/-- TRL_IN_DELAY.DELAY, bits 15:0, RW, reset 0: TRL_IN_DELAY: ring-in link delay, 0.25 ns units (R390) -/
def F.TRL_IN_DELAY_DELAY : Field := ⟨17031, 16, 0⟩
/-- TRL_PATH.PATH, bits 23:0, RO, reset 0: TRL_PATH: PATH + DELAY, 0.25 ns units -/
def F.TRL_PATH_PATH : Field := ⟨17032, 24, 0⟩
/-- TRL_LAP.UNITS, bits 31:21, RO, reset 0: TRL_LAP: positions with non-zero W0 in the last lap -/
def F.TRL_LAP_UNITS : Field := ⟨17033, 11, 0⟩
/-- TRL_LAP.LAP, bits 20:0, RO, reset 0: TRL_LAP: lap in ns; 0 on units other than the headframe -/
def F.TRL_LAP_LAP : Field := ⟨17034, 21, 0⟩
/-- TRL_HEAD_LO.SERIAL, bits 31:0, RO, reset 0: TRL_HEAD_LO, _HI: headframe serial from the last election -/
def F.TRL_HEAD_LO_SERIAL : Field := ⟨17035, 32, 0⟩
/-- TRL_HEAD_HI.SERIAL, bits 31:0, RO, reset 0: TRL_HEAD_LO, _HI: headframe serial from the last election -/
def F.TRL_HEAD_HI_SERIAL : Field := ⟨17036, 32, 0⟩
/-- TRL_ERR.CRC, bits 31:16, RC, reset 0: TRL_ERR: bad blocks and message CRC failures; saturates -/
def F.TRL_ERR_CRC : Field := ⟨17037, 16, 0⟩
/-- TRL_ERR.LOCK_LOSS, bits 15:0, RC, reset 0: TRL_ERR: ring-in block lock losses; saturates -/
def F.TRL_ERR_LOCK_LOSS : Field := ⟨17038, 16, 0⟩
/-- TRL_SHIFT_E_LO.E, bits 31:0, RW, reset 0: TRL_SHIFT_E_LO, _HI: epoch to request -/
def F.TRL_SHIFT_E_LO_E : Field := ⟨17039, 32, 0⟩
/-- TRL_SHIFT_E_HI.E, bits 31:0, RW, reset 0: TRL_SHIFT_E_LO, _HI: epoch to request -/
def F.TRL_SHIFT_E_HI_E : Field := ⟨17040, 32, 0⟩
/-- TRL_SHIFT_CTL.GO, bits 31, WO, reset 0: TRL_SHIFT_CTL: 1 sends the request (R400); ignored with CFG_REJECT while RESULT is 1 -/
def F.TRL_SHIFT_CTL_GO : Field := ⟨17041, 1, 0⟩
/-- TRL_SHIFT_CTL.RESULT, bits 30:28, RO, reset 0: TRL_SHIFT_CTL: 0 none, 1 pending, 2 committed, 3 refused busy, 4 refused mixed or open, 5 aborted, 6 lost -/
def F.TRL_SHIFT_CTL_RESULT : Field := ⟨17042, 3, 0⟩
/-- TRL_SHIFT_CTL.COLLECT, bits 27:16, RW, reset 800: TRL_SHIFT_CTL: collection limit in frames (100 ms); 0 acts as 1 -/
def F.TRL_SHIFT_CTL_COLLECT : Field := ⟨17043, 12, 800⟩
/-- TRL_SHIFT_CTL.LEAD, bits 15:0, RW, reset 80: TRL_SHIFT_CTL: lead L in frames; values below 16 act as 16 -/
def F.TRL_SHIFT_CTL_LEAD : Field := ⟨17044, 16, 80⟩
/-- TRL_SHIFT_RING.PHASE, bits 31:29, RO, reset 0: TRL_SHIFT_RING: PHASE of the last SHIFT block -/
def F.TRL_SHIFT_RING_PHASE : Field := ⟨17045, 3, 0⟩
/-- TRL_SHIFT_RING.F_HI, bits 7:0, RO, reset 0: TRL_SHIFT_RING: F [39:32] -/
def F.TRL_SHIFT_RING_F_HI : Field := ⟨17046, 8, 0⟩
/-- TRL_SHIFT_F_LO.F_LO, bits 31:0, RO, reset 0: TRL_SHIFT_F_LO: F [31:0] -/
def F.TRL_SHIFT_F_LO_F_LO : Field := ⟨17047, 32, 0⟩
/-- TRL_EXCL_LO.SERIAL, bits 31:0, RW, reset 0: TRL_EXCL_LO, _HI: serial named -/
def F.TRL_EXCL_LO_SERIAL : Field := ⟨17048, 32, 0⟩
/-- TRL_EXCL_HI.SERIAL, bits 31:0, RW, reset 0: TRL_EXCL_LO, _HI: serial named -/
def F.TRL_EXCL_HI_SERIAL : Field := ⟨17049, 32, 0⟩
/-- TRL_EXCL_CTL.BUSY, bits 31, RO, reset 0: TRL_EXCL_CTL: request in the ring -/
def F.TRL_EXCL_CTL_BUSY : Field := ⟨17050, 1, 0⟩
/-- TRL_EXCL_CTL.OP, bits 1, RW, reset 1: TRL_EXCL_CTL: 1 exclude, 0 include -/
def F.TRL_EXCL_CTL_OP : Field := ⟨17051, 1, 1⟩
/-- TRL_EXCL_CTL.GO, bits 0, WO, reset 0: TRL_EXCL_CTL: 1 sends the request (R403) -/
def F.TRL_EXCL_CTL_GO : Field := ⟨17052, 1, 0⟩
/-- TRL_PHASE_OFS.OFS, bits 15:0, RW, reset 0: TRL_PHASE_OFS: reference offset of pair j, counts (R405) -/
def F.TRL_PHASE_OFS_OFS : Field := ⟨17053, 16, 0⟩
/-- TRL_TX_CTL.GO, bits 31, WO, reset 0: TRL_TX_CTL: 1 sends TRL_TX_DATA (R397) -/
def F.TRL_TX_CTL_GO : Field := ⟨17054, 1, 0⟩
/-- TRL_TX_CTL.KIND, bits 30:28, RW, reset 0: TRL_TX_CTL: R398; 0, 6 and 7 ignored with CFG_REJECT -/
def F.TRL_TX_CTL_KIND : Field := ⟨17055, 3, 0⟩
/-- TRL_TX_CTL.DEST, bits 27:18, RW, reset 0x3FF: TRL_TX_CTL: destination position -/
def F.TRL_TX_CTL_DEST : Field := ⟨17056, 10, 1023⟩
/-- TRL_TX_CTL.LEN, bits 9:0, RW, reset 0: TRL_TX_CTL: words, 1 to 512; others ignored with CFG_REJECT -/
def F.TRL_TX_CTL_LEN : Field := ⟨17057, 10, 0⟩
/-- TRL_TX_STATUS.BUSY, bits 31, RO, reset 0: TRL_TX_STATUS: message in the ring -/
def F.TRL_TX_STATUS_BUSY : Field := ⟨17058, 1, 0⟩
/-- TRL_TX_STATUS.RESULT, bits 30:28, RO, reset 0: TRL_TX_STATUS: 0 none, 1 delivered, 2 receiver busy, 3 not delivered, 4 lost -/
def F.TRL_TX_STATUS_RESULT : Field := ⟨17059, 3, 0⟩
/-- TRL_TX_STATUS.SENT, bits 15:0, RC, reset 0: TRL_TX_STATUS: messages sent; saturates -/
def F.TRL_TX_STATUS_SENT : Field := ⟨17060, 16, 0⟩
/-- TRL_RX_STATUS.FULL, bits 31, RW1C, reset 0: TRL_RX_STATUS: message held; writing 1 frees the buffer -/
def F.TRL_RX_STATUS_FULL : Field := ⟨17061, 1, 0⟩
/-- TRL_RX_STATUS.KIND, bits 30:28, RO, reset 0: TRL_RX_STATUS: KIND of the held message -/
def F.TRL_RX_STATUS_KIND : Field := ⟨17062, 3, 0⟩
/-- TRL_RX_STATUS.SRC, bits 27:18, RO, reset 0: TRL_RX_STATUS: source position -/
def F.TRL_RX_STATUS_SRC : Field := ⟨17063, 10, 0⟩
/-- TRL_RX_STATUS.DROPS, bits 17:10, RC, reset 0: TRL_RX_STATUS: messages refused with BUSY; saturates -/
def F.TRL_RX_STATUS_DROPS : Field := ⟨17064, 8, 0⟩
/-- TRL_RX_STATUS.LEN, bits 9:0, RO, reset 0: TRL_RX_STATUS: words held -/
def F.TRL_RX_STATUS_LEN : Field := ⟨17065, 10, 0⟩
/-- TRL_TX_DATA.WORD, bits 31:0, RW, reset 0: TRL_TX_DATA: even i holds bits [31:0] of word i / 2, odd i holds bits [63:32] -/
def F.TRL_TX_DATA_WORD : Field := ⟨17066, 32, 0⟩
/-- TRL_RX_DATA.WORD, bits 31:0, RO, reset 0: TRL_RX_DATA: as TRL_TX_DATA -/
def F.TRL_RX_DATA_WORD : Field := ⟨17067, 32, 0⟩
/-- TRL_UNIT.STATUS, bits 31:0, RO, reset 0: TRL_UNIT: status word ⌊w / 2⌋ of position p, bits [31:0] for even w and [63:32] for odd w; valid on the headfr -/
def F.TRL_UNIT_STATUS : Field := ⟨17068, 32, 0⟩
/-- CAL_CTL.DTEMP, bits 12:8, RW, reset 6: CAL_CTL: trigger in °C, 1 to 30; other values are ignored and raise CFG_REJECT -/
def F.CAL_CTL_DTEMP : Field := ⟨18001, 5, 6⟩
/-- CAL_CTL.FORCE, bits 1, WO, reset 0: CAL_CTL: 1 makes every trimmed region pending -/
def F.CAL_CTL_FORCE : Field := ⟨18002, 1, 0⟩
/-- CAL_CTL.EN, bits 0, RW, reset 1: CAL_CTL: temperature-triggered calibration (R421) -/
def F.CAL_CTL_EN : Field := ⟨18003, 1, 1⟩
/-- CAL_STATUS.PEND, bits 31:16, RO, reset 0: CAL_STATUS: bit i set while region i is pending -/
def F.CAL_STATUS_PEND : Field := ⟨18004, 16, 0⟩
/-- CAL_STATUS.BUSY, bits 15:0, RO, reset 0: CAL_STATUS: bit i set while a unit of region i is being calibrated -/
def F.CAL_STATUS_BUSY : Field := ⟨18005, 16, 0⟩
/-- CAL_EVT.CFG_REJECT, bits 5, RW1C, reset 0: register write rejected (deferred) -/
def F.CAL_EVT_CFG_REJECT : Field := ⟨18006, 1, 0⟩
/-- CAL_EVT.SENSOR_FAIL, bits 4, RW1C, reset 0: sensor invalid (deferred) -/
def F.CAL_EVT_SENSOR_FAIL : Field := ⟨18007, 1, 0⟩
/-- CAL_EVT.THERM_CRIT, bits 3, RW1C, reset 0: critical temperature (device-fatal) -/
def F.CAL_EVT_THERM_CRIT : Field := ⟨18008, 1, 0⟩
/-- CAL_EVT.THERM_WARN, bits 2, RW1C, reset 0: warning temperature (deferred) -/
def F.CAL_EVT_THERM_WARN : Field := ⟨18009, 1, 0⟩
/-- CAL_EVT.CAL_REJECT, bits 1, RW1C, reset 0: trim result implausible; old values kept (deferred) -/
def F.CAL_EVT_CAL_REJECT : Field := ⟨18010, 1, 0⟩
/-- CAL_EVT.CAL_DONE, bits 0, RW1C, reset 0: region run completed (corrected) -/
def F.CAL_EVT_CAL_DONE : Field := ⟨18011, 1, 0⟩
/-- Internal mark of R21 for CAL_EVT: bit set while the event bit stands through a FORCE write. -/
def F.CAL_EVT_FORCED : Field := ⟨18012, 6, 0⟩
/-- CAL_EVT_MASK.MASK, bits 5:0, RW, reset 0: 1 masks the event bit -/
def F.CAL_EVT_MASK_MASK : Field := ⟨18013, 6, 0⟩
/-- CAL_THERM.WARN, bits 31:24, RW, reset 125: CAL_THERM: warning limit, °C -/
def F.CAL_THERM_WARN : Field := ⟨18014, 8, 125⟩
/-- CAL_THERM.CRIT, bits 23:16, RW, reset 140: CAL_THERM: critical limit, °C; values above 140 act as 140; a write leaving WARN ≥ CRIT is ignored and raises  -/
def F.CAL_THERM_CRIT : Field := ⟨18015, 8, 140⟩
/-- CAL_PLAUS.OFS_STEP, bits 31:24, RW, reset 8: CAL_PLAUS: largest offset change per run, codes -/
def F.CAL_PLAUS_OFS_STEP : Field := ⟨18016, 8, 8⟩
/-- CAL_PLAUS.EQ_STEP, bits 23:16, RW, reset 3: CAL_PLAUS: equalisation search span, ±codes -/
def F.CAL_PLAUS_EQ_STEP : Field := ⟨18017, 8, 3⟩
/-- CAL_PLAUS.XCHK, bits 15:8, RW, reset 16: CAL_PLAUS: converter handover limit, × 2⁻¹² of full scale -/
def F.CAL_PLAUS_XCHK : Field := ⟨18018, 8, 16⟩
/-- CAL_PLAUS.EYE_MIN, bits 7:0, RW, reset 16: CAL_PLAUS: least eye width, 1/64 UI -/
def F.CAL_PLAUS_EYE_MIN : Field := ⟨18019, 8, 16⟩
/-- CAL_TEMP.VALID, bits 31, RO, reset 0: CAL_TEMP: sensor valid (R419) -/
def F.CAL_TEMP_VALID : Field := ⟨18020, 1, 0⟩
/-- CAL_TEMP.PEAK, bits 27:16, RC, reset 0: CAL_TEMP: highest reading since last read, two's complement, 0.125 °C -/
def F.CAL_TEMP_PEAK : Field := ⟨18021, 12, 0⟩
/-- CAL_TEMP.TEMP, bits 11:0, RO, reset 0: CAL_TEMP: last reading, two's complement, 0.125 °C -/
def F.CAL_TEMP_TEMP : Field := ⟨18022, 12, 0⟩
/-- CAL_RUN.LAST_TEMP, bits 31:20, RO, reset 0: CAL_RUN: temperature at the start of the last completed run, 0.125 °C -/
def F.CAL_RUN_LAST_TEMP : Field := ⟨18023, 12, 0⟩
/-- CAL_RUN.REJECTS, bits 15:8, RC, reset 0: CAL_RUN: rejected units; saturates -/
def F.CAL_RUN_REJECTS : Field := ⟨18024, 8, 0⟩
/-- CAL_RUN.RUNS, bits 7:0, RC, reset 0: CAL_RUN: completed runs; saturates -/
def F.CAL_RUN_RUNS : Field := ⟨18025, 8, 0⟩
/-- PWR_RESET_CAUSE.LAST, bits 15:12, RWS, reset 0: bit number of the latest source -/
def F.PWR_RESET_CAUSE_LAST : Field := ⟨19001, 4, 0⟩
/-- PWR_RESET_CAUSE.THERM_TRIP, bits 8, RWS, reset 0: thermal trip -/
def F.PWR_RESET_CAUSE_THERM_TRIP : Field := ⟨19002, 1, 0⟩
/-- PWR_RESET_CAUSE.HEAD_DECK, bits 7, RWS, reset 0: head or deck fault reset -/
def F.PWR_RESET_CAUSE_HEAD_DECK : Field := ⟨19003, 1, 0⟩
/-- PWR_RESET_CAUSE.RING, bits 6, RWS, reset 0: ring unit reset -/
def F.PWR_RESET_CAUSE_RING : Field := ⟨19004, 1, 0⟩
/-- PWR_RESET_CAUSE.FLR1, bits 5, RWS, reset 0: FLR of PF1 -/
def F.PWR_RESET_CAUSE_FLR1 : Field := ⟨19005, 1, 0⟩
/-- PWR_RESET_CAUSE.FLR0, bits 4, RWS, reset 0: FLR of PF0 -/
def F.PWR_RESET_CAUSE_FLR0 : Field := ⟨19006, 1, 0⟩
/-- PWR_RESET_CAUSE.HOT, bits 3, RWS, reset 0: hot reset -/
def F.PWR_RESET_CAUSE_HOT : Field := ⟨19007, 1, 0⟩
/-- PWR_RESET_CAUSE.PERST, bits 2, RWS, reset 0: PERST# -/
def F.PWR_RESET_CAUSE_PERST : Field := ⟨19008, 1, 0⟩
/-- PWR_RESET_CAUSE.SRST, bits 1, RWS, reset 0: SRSTn -/
def F.PWR_RESET_CAUSE_SRST : Field := ⟨19009, 1, 0⟩
/-- PWR_RESET_CAUSE.POR, bits 0, RWS, reset 1: PORn -/
def F.PWR_RESET_CAUSE_POR : Field := ⟨19010, 1, 1⟩
/-- PWR_STRAPS.TEST, bits 2, RO, reset strap: PWR_STRAPS: STRAP_TEST -/
def F.PWR_STRAPS_TEST : Field := ⟨19011, 1, 0⟩
/-- PWR_STRAPS.RING_EN, bits 1, RO, reset strap: PWR_STRAPS: STRAP_RING_EN -/
def F.PWR_STRAPS_RING_EN : Field := ⟨19012, 1, 0⟩
/-- PWR_STRAPS.BIST, bits 0, RO, reset strap: PWR_STRAPS: STRAP_BIST -/
def F.PWR_STRAPS_BIST : Field := ⟨19013, 1, 0⟩
/-- PWR_STATUS.PCIE_REF, bits 17, RO, reset 0: PWR_STATUS: PCIe reference present -/
def F.PWR_STATUS_PCIE_REF : Field := ⟨19014, 1, 0⟩
/-- PWR_STATUS.SYSCLK, bits 16, RO, reset 0: PWR_STATUS: SYSCLK present -/
def F.PWR_STATUS_SYSCLK : Field := ⟨19015, 1, 0⟩
/-- PWR_STATUS.LREF, bits 15:8, RO, reset 0: PWR_STATUS: bit d set while lane reference pair d is present -/
def F.PWR_STATUS_LREF : Field := ⟨19016, 8, 0⟩
/-- PWR_STATUS.RAILS, bits 7:0, RO, reset 0: PWR_STATUS: in tolerance, bits 0 to 7 in the order of R412 -/
def F.PWR_STATUS_RAILS : Field := ⟨19017, 8, 0⟩
/-- PWR_EVT.BIST_FAIL, bits 3, RW1C, reset 0: SRAM row unrepaired (deferred) -/
def F.PWR_EVT_BIST_FAIL : Field := ⟨19018, 1, 0⟩
/-- PWR_EVT.LREF_LOSS, bits 2, RW1C, reset 0: lane reference lost (head-fatal) -/
def F.PWR_EVT_LREF_LOSS : Field := ⟨19019, 1, 0⟩
/-- PWR_EVT.CLK_FAULT, bits 1, RW1C, reset 0: SYSCLK lost (device-fatal) -/
def F.PWR_EVT_CLK_FAULT : Field := ⟨19020, 1, 0⟩
/-- PWR_EVT.RAIL_FAULT, bits 0, RW1C, reset 0: rail outside tolerance (device-fatal) -/
def F.PWR_EVT_RAIL_FAULT : Field := ⟨19021, 1, 0⟩
/-- Internal mark of R21 for PWR_EVT: bit set while the event bit stands through a FORCE write. -/
def F.PWR_EVT_FORCED : Field := ⟨19022, 4, 0⟩
/-- PWR_EVT_MASK.MASK, bits 3:0, RW, reset 0: 1 masks the event bit -/
def F.PWR_EVT_MASK_MASK : Field := ⟨19023, 4, 0⟩
/-- PWR_BIST.RAN, bits 31, RO, reset 0: BIST ran at the last reset -/
def F.PWR_BIST_RAN : Field := ⟨19024, 1, 0⟩
/-- PWR_BIST.FAIL, bits 30, RO, reset 0: a failing row found no spare (R423) -/
def F.PWR_BIST_FAIL : Field := ⟨19025, 1, 0⟩
/-- PWR_BIST.REPAIRED, bits 15:8, RO, reset 0: rows repaired by BIST; saturates -/
def F.PWR_BIST_REPAIRED : Field := ⟨19026, 8, 0⟩
/-- PWR_BIST.UNREPAIRED, bits 7:0, RO, reset 0: failing rows left unrepaired; saturates -/
def F.PWR_BIST_UNREPAIRED : Field := ⟨19027, 8, 0⟩

end Sys2Proof.Machine
end

