-- ==== Sys2Proof/Machine/Events.lean ====
section
/-!
DEFINITION. The events of every block: one Event per event bit of the register tables, with its severity (R19) and, through
its event register, the PF1 vector of its source group (R458).
-/
namespace Sys2Proof.Machine

/-- The event register of block GLB: 5 bits, 1 instance(s), first vector 1 (R458). -/
def evtGlb : EvtReg :=
  { bits := [F.GLB_EVT_TAKEOVER_START, F.GLB_EVT_TAKEOVER_DONE, F.GLB_EVT_HANDBACK_DONE, F.GLB_EVT_TAKEOVER_REFUSED, F.GLB_EVT_SIDE_LOST],
    mask := F.GLB_EVT_MASK_MASK, forced := F.GLB_EVT_FORCED, width := 5, count := 1, vbase := 1, vdiv := 1 }
/-- Event GLB_EVT.TAKEOVER_START: takeover has begun, automatic or requested (severity corrected) -/
def E.GLB_TAKEOVER_START : Event := ⟨F.GLB_EVT_TAKEOVER_START, 0, .corrected, evtGlb⟩
/-- Event GLB_EVT.TAKEOVER_DONE: a partner now serves a band (severity corrected) -/
def E.GLB_TAKEOVER_DONE : Event := ⟨F.GLB_EVT_TAKEOVER_DONE, 1, .corrected, evtGlb⟩
/-- Event GLB_EVT.HANDBACK_DONE: a band has returned to its home head (severity corrected) -/
def E.GLB_HANDBACK_DONE : Event := ⟨F.GLB_EVT_HANDBACK_DONE, 2, .corrected, evtGlb⟩
/-- Event GLB_EVT.TAKEOVER_REFUSED: takeover or handback not performed (severity deferred) -/
def E.GLB_TAKEOVER_REFUSED : Event := ⟨F.GLB_EVT_TAKEOVER_REFUSED, 3, .deferred, evtGlb⟩
/-- Event GLB_EVT.SIDE_LOST: both bands of a side unserved (severity deferred; the commands of the side complete under R16) -/
def E.GLB_SIDE_LOST : Event := ⟨F.GLB_EVT_SIDE_LOST, 4, .deferred, evtGlb⟩
/-- The event register of block TCK: 13 bits, 1 instance(s), first vector 2 (R458). -/
def evtTck : EvtReg :=
  { bits := [F.TCK_EVT_CLR_OVR, F.TCK_EVT_CLR_HOLD, F.TCK_EVT_CLR_SAFE, F.TCK_EVT_LRN_SKIP, F.TCK_EVT_OBS_LATE, F.TCK_EVT_OBS_LOST, F.TCK_EVT_WND_OVR, F.TCK_EVT_SLD_OVR, F.TCK_EVT_ASY_MISS, F.TCK_EVT_DISC_UNLOCK, F.TCK_EVT_DISC_STEP, F.TCK_EVT_HOLDOVER, F.TCK_EVT_CFG_REJECT],
    mask := F.TCK_EVT_MASK_MASK, forced := F.TCK_EVT_FORCED, width := 13, count := 1, vbase := 2, vdiv := 1 }
/-- Event TCK_EVT.CLR_OVR: Collier overrun (corrected) -/
def E.TCK_CLR_OVR : Event := ⟨F.TCK_EVT_CLR_OVR, 0, .corrected, evtTck⟩
/-- Event TCK_EVT.CLR_HOLD: Collier overruns forced HOLD (deferred) -/
def E.TCK_CLR_HOLD : Event := ⟨F.TCK_EVT_CLR_HOLD, 1, .deferred, evtTck⟩
/-- Event TCK_EVT.CLR_SAFE: Collier overruns forced SAFE (head-fatal) -/
def E.TCK_CLR_SAFE : Event := ⟨F.TCK_EVT_CLR_SAFE, 2, .headFatal, evtTck⟩
/-- Event TCK_EVT.LRN_SKIP: learner update skipped (corrected) -/
def E.TCK_LRN_SKIP : Event := ⟨F.TCK_EVT_LRN_SKIP, 3, .corrected, evtTck⟩
/-- Event TCK_EVT.OBS_LATE: observer late (corrected) -/
def E.TCK_OBS_LATE : Event := ⟨F.TCK_EVT_OBS_LATE, 4, .corrected, evtTck⟩
/-- Event TCK_EVT.OBS_LOST: observer late 4 ticks running (deferred) -/
def E.TCK_OBS_LOST : Event := ⟨F.TCK_EVT_OBS_LOST, 5, .deferred, evtTck⟩
/-- Event TCK_EVT.WND_OVR: Winder compute overrun (deck-fatal) -/
def E.TCK_WND_OVR : Event := ⟨F.TCK_EVT_WND_OVR, 6, .deckFatal, evtTck⟩
/-- Event TCK_EVT.SLD_OVR: sled profile overrun (head-fatal) -/
def E.TCK_SLD_OVR : Event := ⟨F.TCK_EVT_SLD_OVR, 7, .headFatal, evtTck⟩
/-- Event TCK_EVT.ASY_MISS: lode deadline missed (deferred) -/
def E.TCK_ASY_MISS : Event := ⟨F.TCK_EVT_ASY_MISS, 8, .deferred, evtTck⟩
/-- Event TCK_EVT.DISC_UNLOCK: phase lock lost (deferred) -/
def E.TCK_DISC_UNLOCK : Event := ⟨F.TCK_EVT_DISC_UNLOCK, 9, .deferred, evtTck⟩
/-- Event TCK_EVT.DISC_STEP: phase stepped (corrected) -/
def E.TCK_DISC_STEP : Event := ⟨F.TCK_EVT_DISC_STEP, 10, .corrected, evtTck⟩
/-- Event TCK_EVT.HOLDOVER: holdover entered (deferred) -/
def E.TCK_HOLDOVER : Event := ⟨F.TCK_EVT_HOLDOVER, 11, .deferred, evtTck⟩
/-- Event TCK_EVT.CFG_REJECT: TCK register write rejected (deferred) -/
def E.TCK_CFG_REJECT : Event := ⟨F.TCK_EVT_CFG_REJECT, 12, .deferred, evtTck⟩
/-- The event register of block HIF: 13 bits, 1 instance(s), first vector 3 (R458). -/
def evtHif : EvtReg :=
  { bits := [F.HIF_EVT_CPL_TIMEOUT, F.HIF_EVT_UNEXP_CPL, F.HIF_EVT_POISON_RX, F.HIF_EVT_PEER_UR, F.HIF_EVT_HOT_RESET, F.HIF_EVT_FLR0, F.HIF_EVT_FLR1, F.HIF_EVT_LINK_LOST, F.HIF_EVT_CONTAINED, F.HIF_EVT_RELEASED, F.HIF_EVT_COMMIT_REJECT, F.HIF_EVT_CFG_REJECT, F.HIF_EVT_LINK_DEGRADED],
    mask := F.HIF_EVT_MASK_MASK, forced := F.HIF_EVT_FORCED, width := 13, count := 1, vbase := 3, vdiv := 1 }
/-- Event HIF_EVT.CPL_TIMEOUT: completion timeout (deferred) -/
def E.HIF_CPL_TIMEOUT : Event := ⟨F.HIF_EVT_CPL_TIMEOUT, 0, .deferred, evtHif⟩
/-- Event HIF_EVT.UNEXP_CPL: late completion discarded (corrected) -/
def E.HIF_UNEXP_CPL : Event := ⟨F.HIF_EVT_UNEXP_CPL, 1, .corrected, evtHif⟩
/-- Event HIF_EVT.POISON_RX: poisoned or unsuccessful completion (deferred) -/
def E.HIF_POISON_RX : Event := ⟨F.HIF_EVT_POISON_RX, 2, .deferred, evtHif⟩
/-- Event HIF_EVT.PEER_UR: peer request rejected (corrected) -/
def E.HIF_PEER_UR : Event := ⟨F.HIF_EVT_PEER_UR, 3, .corrected, evtHif⟩
/-- Event HIF_EVT.HOT_RESET: hot reset received (corrected) -/
def E.HIF_HOT_RESET : Event := ⟨F.HIF_EVT_HOT_RESET, 4, .corrected, evtHif⟩
/-- Event HIF_EVT.FLR0: FLR of PF0 performed (corrected) -/
def E.HIF_FLR0 : Event := ⟨F.HIF_EVT_FLR0, 5, .corrected, evtHif⟩
/-- Event HIF_EVT.FLR1: FLR of PF1 performed (corrected) -/
def E.HIF_FLR1 : Event := ⟨F.HIF_EVT_FLR1, 6, .corrected, evtHif⟩
/-- Event HIF_EVT.LINK_LOST: surprise link loss (device-fatal; recorded as CAUSE_LINK only, not as an internal error under R294) -/
def E.HIF_LINK_LOST : Event := ⟨F.HIF_EVT_LINK_LOST, 7, .deviceFatal, evtHif⟩
/-- Event HIF_EVT.CONTAINED: containment entered (device-fatal; not itself an internal-error cause under R294) -/
def E.HIF_CONTAINED : Event := ⟨F.HIF_EVT_CONTAINED, 8, .deviceFatal, evtHif⟩
/-- Event HIF_EVT.RELEASED: containment released (corrected) -/
def E.HIF_RELEASED : Event := ⟨F.HIF_EVT_RELEASED, 9, .corrected, evtHif⟩
/-- Event HIF_EVT.COMMIT_REJECT: window commit refused (deferred) -/
def E.HIF_COMMIT_REJECT : Event := ⟨F.HIF_EVT_COMMIT_REJECT, 10, .deferred, evtHif⟩
/-- Event HIF_EVT.CFG_REJECT: register access or write rejected (deferred) -/
def E.HIF_CFG_REJECT : Event := ⟨F.HIF_EVT_CFG_REJECT, 11, .deferred, evtHif⟩
/-- Event HIF_EVT.LINK_DEGRADED: link trained below its maximum (corrected) -/
def E.HIF_LINK_DEGRADED : Event := ⟨F.HIF_EVT_LINK_DEGRADED, 12, .corrected, evtHif⟩
/-- The event register of block HQI: 5 bits, 1 instance(s), first vector 4 (R458). -/
def evtHqi : EvtReg :=
  { bits := [F.HQI_EVT_QUEUE_ERR, F.HQI_EVT_RESET_ABORT, F.HQI_EVT_CFG_REJECT, F.HQI_EVT_SELF_TEST_DONE, F.HQI_EVT_VOLUME_LOST],
    mask := F.HQI_EVT_MASK_MASK, forced := F.HQI_EVT_FORCED, width := 5, count := 1, vbase := 4, vdiv := 1 }
/-- Event HQI_EVT.QUEUE_ERR: queue error (deferred) -/
def E.HQI_QUEUE_ERR : Event := ⟨F.HQI_EVT_QUEUE_ERR, 0, .deferred, evtHqi⟩
/-- Event HQI_EVT.RESET_ABORT: commands aborted by reset (corrected) -/
def E.HQI_RESET_ABORT : Event := ⟨F.HQI_EVT_RESET_ABORT, 1, .corrected, evtHqi⟩
/-- Event HQI_EVT.CFG_REJECT: register write rejected (deferred) -/
def E.HQI_CFG_REJECT : Event := ⟨F.HQI_EVT_CFG_REJECT, 2, .deferred, evtHqi⟩
/-- Event HQI_EVT.SELF_TEST_DONE: self-test complete (corrected) -/
def E.HQI_SELF_TEST_DONE : Event := ⟨F.HQI_EVT_SELF_TEST_DONE, 3, .corrected, evtHqi⟩
/-- Event HQI_EVT.VOLUME_LOST: a volume unmounted by a deck-fatal event (deferred) -/
def E.HQI_VOLUME_LOST : Event := ⟨F.HQI_EVT_VOLUME_LOST, 4, .deferred, evtHqi⟩
/-- The event register of block CLR: 12 bits, 32 instance(s), first vector 5 (R458). -/
def evtClr : EvtReg :=
  { bits := [F.CLR_EVT_SAT, F.CLR_EVT_SHOCK, F.CLR_EVT_TRACK_SLIP, F.CLR_EVT_FOCUS_LOST, F.CLR_EVT_ACQ_FAIL, F.CLR_EVT_SEEK_FAIL, F.CLR_EVT_LAYER_FAIL, F.CLR_EVT_SF_LIMIT, F.CLR_EVT_RP_LIMIT, F.CLR_EVT_HOLD_TIMEOUT, F.CLR_EVT_FOCUS_REPEAT, F.CLR_EVT_CFG_REJECT],
    mask := F.CLR_EVT_MASK_MASK, forced := F.CLR_EVT_FORCED, width := 12, count := 32, vbase := 5, vdiv := 4 }
/-- Event CLR_EVT.SAT: a CLR_SAT flag was set (corrected) -/
def E.CLR_SAT : Event := ⟨F.CLR_EVT_SAT, 0, .corrected, evtClr⟩
/-- Event CLR_EVT.SHOCK: shock detected (corrected) -/
def E.CLR_SHOCK : Event := ⟨F.CLR_EVT_SHOCK, 1, .corrected, evtClr⟩
/-- Event CLR_EVT.TRACK_SLIP: track slip while following (deferred) -/
def E.CLR_TRACK_SLIP : Event := ⟨F.CLR_EVT_TRACK_SLIP, 2, .deferred, evtClr⟩
/-- Event CLR_EVT.FOCUS_LOST: focus lost (deferred) -/
def E.CLR_FOCUS_LOST : Event := ⟨F.CLR_EVT_FOCUS_LOST, 3, .deferred, evtClr⟩
/-- Event CLR_EVT.ACQ_FAIL: focus or tracking acquisition failed (deferred) -/
def E.CLR_ACQ_FAIL : Event := ⟨F.CLR_EVT_ACQ_FAIL, 4, .deferred, evtClr⟩
/-- Event CLR_EVT.SEEK_FAIL: seek or track jump failed (deferred) -/
def E.CLR_SEEK_FAIL : Event := ⟨F.CLR_EVT_SEEK_FAIL, 5, .deferred, evtClr⟩
/-- Event CLR_EVT.LAYER_FAIL: layer hop failed (deferred) -/
def E.CLR_LAYER_FAIL : Event := ⟨F.CLR_EVT_LAYER_FAIL, 6, .deferred, evtClr⟩
/-- Event CLR_EVT.SF_LIMIT: lens offset beyond HARD (deferred) -/
def E.CLR_SF_LIMIT : Event := ⟨F.CLR_EVT_SF_LIMIT, 7, .deferred, evtClr⟩
/-- Event CLR_EVT.RP_LIMIT: read power held at a limit (deferred) -/
def E.CLR_RP_LIMIT : Event := ⟨F.CLR_EVT_RP_LIMIT, 8, .deferred, evtClr⟩
/-- Event CLR_EVT.HOLD_TIMEOUT: HOLD exceeded HOLD_MAX (head-fatal) -/
def E.CLR_HOLD_TIMEOUT : Event := ⟨F.CLR_EVT_HOLD_TIMEOUT, 9, .headFatal, evtClr⟩
/-- Event CLR_EVT.FOCUS_REPEAT: third focus loss in 400,000 ticks (head-fatal) -/
def E.CLR_FOCUS_REPEAT : Event := ⟨F.CLR_EVT_FOCUS_REPEAT, 10, .headFatal, evtClr⟩
/-- Event CLR_EVT.CFG_REJECT: register or table write rejected (deferred) -/
def E.CLR_CFG_REJECT : Event := ⟨F.CLR_EVT_CFG_REJECT, 11, .deferred, evtClr⟩
/-- The event register of block LRN: 7 bits, 32 instance(s), first vector 5 (R458). -/
def evtLrn : EvtReg :=
  { bits := [F.LRN_EVT_SAT, F.LRN_EVT_SEED_DONE, F.LRN_EVT_SEED_REFUSED, F.LRN_EVT_CLEARED, F.LRN_EVT_ANGLE_FADE, F.LRN_EVT_ECC, F.LRN_EVT_CFG_REJECT],
    mask := F.LRN_EVT_MASK_MASK, forced := F.LRN_EVT_FORCED, width := 7, count := 32, vbase := 5, vdiv := 4 }
/-- Event LRN_EVT.SAT: entry or scale saturated (corrected) -/
def E.LRN_SAT : Event := ⟨F.LRN_EVT_SAT, 0, .corrected, evtLrn⟩
/-- Event LRN_EVT.SEED_DONE: seed copy complete (corrected) -/
def E.LRN_SEED_DONE : Event := ⟨F.LRN_EVT_SEED_DONE, 1, .corrected, evtLrn⟩
/-- Event LRN_EVT.SEED_REFUSED: seed not made or abandoned (deferred) -/
def E.LRN_SEED_REFUSED : Event := ⟨F.LRN_EVT_SEED_REFUSED, 2, .deferred, evtLrn⟩
/-- Event LRN_EVT.CLEARED: a table was cleared (corrected) -/
def E.LRN_CLEARED : Event := ⟨F.LRN_EVT_CLEARED, 3, .corrected, evtLrn⟩
/-- Event LRN_EVT.ANGLE_FADE: angle-valid lost; injection fading (corrected) -/
def E.LRN_ANGLE_FADE : Event := ⟨F.LRN_EVT_ANGLE_FADE, 4, .corrected, evtLrn⟩
/-- Event LRN_EVT.ECC: uncorrectable entry taken as 0 (deferred) -/
def E.LRN_ECC : Event := ⟨F.LRN_EVT_ECC, 5, .deferred, evtLrn⟩
/-- Event LRN_EVT.CFG_REJECT: register or table write rejected (deferred) -/
def E.LRN_CFG_REJECT : Event := ⟨F.LRN_EVT_CFG_REJECT, 6, .deferred, evtLrn⟩
/-- The event register of block WND: 15 bits, 8 instance(s), first vector 5 (R458). -/
def evtWnd : EvtReg :=
  { bits := [F.WND_EVT_READY, F.WND_EVT_STOPPED, F.WND_EVT_REF_STEP, F.WND_EVT_REF_JUMP, F.WND_EVT_LOS, F.WND_EVT_REGEN_LIMIT, F.WND_EVT_VSAT, F.WND_EVT_PAIR, F.WND_EVT_CFG_REJECT, F.WND_EVT_SPIN_FAIL, F.WND_EVT_LOS_REPEAT, F.WND_EVT_CHOP_FAULT, F.WND_EVT_OVERVOLT, F.WND_EVT_OVERCURRENT, F.WND_EVT_DRV_FAULT],
    mask := F.WND_EVT_MASK_MASK, forced := F.WND_EVT_FORCED, width := 15, count := 8, vbase := 5, vdiv := 1 }
/-- Event WND_EVT.READY: deck entered READY (corrected) -/
def E.WND_READY : Event := ⟨F.WND_EVT_READY, 0, .corrected, evtWnd⟩
/-- Event WND_EVT.STOPPED: braking complete (corrected) -/
def E.WND_STOPPED : Event := ⟨F.WND_EVT_STOPPED, 1, .corrected, evtWnd⟩
/-- Event WND_EVT.REF_STEP: angle referenced to the disc (corrected) -/
def E.WND_REF_STEP : Event := ⟨F.WND_EVT_REF_STEP, 2, .corrected, evtWnd⟩
/-- Event WND_EVT.REF_JUMP: reference moved by disagreeing reports (deferred) -/
def E.WND_REF_JUMP : Event := ⟨F.WND_EVT_REF_JUMP, 3, .deferred, evtWnd⟩
/-- Event WND_EVT.LOS: loss of synchronism (deferred) -/
def E.WND_LOS : Event := ⟨F.WND_EVT_LOS, 4, .deferred, evtWnd⟩
/-- Event WND_EVT.REGEN_LIMIT: braking current reduced for bus voltage (corrected) -/
def E.WND_REGEN_LIMIT : Event := ⟨F.WND_EVT_REGEN_LIMIT, 5, .corrected, evtWnd⟩
/-- Event WND_EVT.VSAT: duty or voltage limited (corrected) -/
def E.WND_VSAT : Event := ⟨F.WND_EVT_VSAT, 6, .corrected, evtWnd⟩
/-- Event WND_EVT.PAIR: PAIR_LOCK changed (corrected) -/
def E.WND_PAIR : Event := ⟨F.WND_EVT_PAIR, 7, .corrected, evtWnd⟩
/-- Event WND_EVT.CFG_REJECT: write or command rejected (deferred) -/
def E.WND_CFG_REJECT : Event := ⟨F.WND_EVT_CFG_REJECT, 8, .deferred, evtWnd⟩
/-- Event WND_EVT.SPIN_FAIL: spin-up failed (deck-fatal) -/
def E.WND_SPIN_FAIL : Event := ⟨F.WND_EVT_SPIN_FAIL, 9, .deckFatal, evtWnd⟩
/-- Event WND_EVT.LOS_REPEAT: third loss of synchronism in 10 s (deck-fatal) -/
def E.WND_LOS_REPEAT : Event := ⟨F.WND_EVT_LOS_REPEAT, 10, .deckFatal, evtWnd⟩
/-- Event WND_EVT.CHOP_FAULT: brake chopper faulty (deck-fatal) -/
def E.WND_CHOP_FAULT : Event := ⟨F.WND_EVT_CHOP_FAULT, 11, .deckFatal, evtWnd⟩
/-- Event WND_EVT.OVERVOLT: Vbus above V_OV (deck-fatal) -/
def E.WND_OVERVOLT : Event := ⟨F.WND_EVT_OVERVOLT, 12, .deckFatal, evtWnd⟩
/-- Event WND_EVT.OVERCURRENT: current comparator trip (deck-fatal) -/
def E.WND_OVERCURRENT : Event := ⟨F.WND_EVT_OVERCURRENT, 13, .deckFatal, evtWnd⟩
/-- Event WND_EVT.DRV_FAULT: gate-driver fault input (deck-fatal) -/
def E.WND_DRV_FAULT : Event := ⟨F.WND_EVT_DRV_FAULT, 14, .deckFatal, evtWnd⟩
/-- The event register of block SLD: 10 bits, 32 instance(s), first vector 5 (R458). -/
def evtSld : EvtReg :=
  { bits := [F.SLD_EVT_FOLLOW_DISCARD, F.SLD_EVT_SOFT_LIMIT, F.SLD_EVT_OVERSHOOT, F.SLD_EVT_DECEL_RAISED, F.SLD_EVT_DECEL_LIMIT, F.SLD_EVT_LIMIT_HIT, F.SLD_EVT_HOME_DONE, F.SLD_EVT_HOME_FAIL, F.SLD_EVT_HOME_CHATTER, F.SLD_EVT_CFG_REJECT],
    mask := F.SLD_EVT_MASK_MASK, forced := F.SLD_EVT_FORCED, width := 10, count := 32, vbase := 5, vdiv := 4 }
/-- Event SLD_EVT.FOLLOW_DISCARD: sled-follow request discarded (corrected) -/
def E.SLD_FOLLOW_DISCARD : Event := ⟨F.SLD_EVT_FOLLOW_DISCARD, 0, .corrected, evtSld⟩
/-- Event SLD_EVT.SOFT_LIMIT: target clamped (deferred) -/
def E.SLD_SOFT_LIMIT : Event := ⟨F.SLD_EVT_SOFT_LIMIT, 1, .deferred, evtSld⟩
/-- Event SLD_EVT.OVERSHOOT: target passed; axis reversing (corrected) -/
def E.SLD_OVERSHOOT : Event := ⟨F.SLD_EVT_OVERSHOOT, 2, .corrected, evtSld⟩
/-- Event SLD_EVT.DECEL_RAISED: deceleration raised above DMAX (corrected) -/
def E.SLD_DECEL_RAISED : Event := ⟨F.SLD_EVT_DECEL_RAISED, 3, .corrected, evtSld⟩
/-- Event SLD_EVT.DECEL_LIMIT: AHARD insufficient under NO_OVERSHOOT (deferred) -/
def E.SLD_DECEL_LIMIT : Event := ⟨F.SLD_EVT_DECEL_LIMIT, 4, .deferred, evtSld⟩
/-- Event SLD_EVT.LIMIT_HIT: switch tripped outside homing (deferred) -/
def E.SLD_LIMIT_HIT : Event := ⟨F.SLD_EVT_LIMIT_HIT, 5, .deferred, evtSld⟩
/-- Event SLD_EVT.HOME_DONE: reference set (corrected) -/
def E.SLD_HOME_DONE : Event := ⟨F.SLD_EVT_HOME_DONE, 6, .corrected, evtSld⟩
/-- Event SLD_EVT.HOME_FAIL: homing failed (head-fatal) -/
def E.SLD_HOME_FAIL : Event := ⟨F.SLD_EVT_HOME_FAIL, 7, .headFatal, evtSld⟩
/-- Event SLD_EVT.HOME_CHATTER: limit switch chatter in homing (head-fatal) -/
def E.SLD_HOME_CHATTER : Event := ⟨F.SLD_EVT_HOME_CHATTER, 8, .headFatal, evtSld⟩
/-- Event SLD_EVT.CFG_REJECT: register write rejected (deferred) -/
def E.SLD_CFG_REJECT : Event := ⟨F.SLD_EVT_CFG_REJECT, 9, .deferred, evtSld⟩
/-- The event register of block LNK: 14 bits, 1 instance(s), first vector 13 (R458). -/
def evtLnk : EvtReg :=
  { bits := [F.LNK_EVT_LATE_WORD, F.LNK_EVT_POISON, F.LNK_EVT_FLUSH_TRUNC, F.LNK_EVT_DROP, F.LNK_EVT_ROT_CANCEL, F.LNK_EVT_MAP_ERR, F.LNK_EVT_LANE_FAIL, F.LNK_EVT_LANE_RESTORED, F.LNK_EVT_LINK_LOST, F.LNK_EVT_DOWN_LOST, F.LNK_EVT_HFE_FAULT, F.LNK_EVT_TRAIN_FAIL, F.LNK_EVT_CMD_TIMEOUT, F.LNK_EVT_CFG_REJECT],
    mask := F.LNK_EVT_MASK_MASK, forced := F.LNK_EVT_FORCED, width := 14, count := 1, vbase := 13, vdiv := 1 }
/-- Event LNK_EVT.LATE_WORD: late servo words discarded (corrected) -/
def E.LNK_LATE_WORD : Event := ⟨F.LNK_EVT_LATE_WORD, 0, .corrected, evtLnk⟩
/-- Event LNK_EVT.POISON: poisoned word delivered (deferred) -/
def E.LNK_POISON : Event := ⟨F.LNK_EVT_POISON, 1, .deferred, evtLnk⟩
/-- Event LNK_EVT.FLUSH_TRUNC: partial item discarded by flush (corrected) -/
def E.LNK_FLUSH_TRUNC : Event := ⟨F.LNK_EVT_FLUSH_TRUNC, 2, .corrected, evtLnk⟩
/-- Event LNK_EVT.DROP: item dropped (deferred) -/
def E.LNK_DROP : Event := ⟨F.LNK_EVT_DROP, 3, .deferred, evtLnk⟩
/-- Event LNK_EVT.ROT_CANCEL: rotation declined by the HFE (corrected) -/
def E.LNK_ROT_CANCEL : Event := ⟨F.LNK_EVT_ROT_CANCEL, 4, .corrected, evtLnk⟩
/-- Event LNK_EVT.MAP_ERR: markers disagree, or announce an unrequested map (deferred) -/
def E.LNK_MAP_ERR : Event := ⟨F.LNK_EVT_MAP_ERR, 5, .deferred, evtLnk⟩
/-- Event LNK_EVT.LANE_FAIL: upstream lane failed (deferred) -/
def E.LNK_LANE_FAIL : Event := ⟨F.LNK_EVT_LANE_FAIL, 6, .deferred, evtLnk⟩
/-- Event LNK_EVT.LANE_RESTORED: failed lane restored as spare (corrected) -/
def E.LNK_LANE_RESTORED : Event := ⟨F.LNK_EVT_LANE_RESTORED, 7, .corrected, evtLnk⟩
/-- Event LNK_EVT.LINK_LOST: second upstream lane lost (head-fatal) -/
def E.LNK_LINK_LOST : Event := ⟨F.LNK_EVT_LINK_LOST, 8, .headFatal, evtLnk⟩
/-- Event LNK_EVT.DOWN_LOST: downstream lane lost (head-fatal) -/
def E.LNK_DOWN_LOST : Event := ⟨F.LNK_EVT_DOWN_LOST, 9, .headFatal, evtLnk⟩
/-- Event LNK_EVT.HFE_FAULT: HFE reported a fault (head-fatal) -/
def E.LNK_HFE_FAULT : Event := ⟨F.LNK_EVT_HFE_FAULT, 10, .headFatal, evtLnk⟩
/-- Event LNK_EVT.TRAIN_FAIL: head link failed to train (head-fatal) -/
def E.LNK_TRAIN_FAIL : Event := ⟨F.LNK_EVT_TRAIN_FAIL, 11, .headFatal, evtLnk⟩
/-- Event LNK_EVT.CMD_TIMEOUT: LINK_CMD not acknowledged (deferred) -/
def E.LNK_CMD_TIMEOUT : Event := ⟨F.LNK_EVT_CMD_TIMEOUT, 12, .deferred, evtLnk⟩
/-- Event LNK_EVT.CFG_REJECT: register write rejected (deferred) -/
def E.LNK_CFG_REJECT : Event := ⟨F.LNK_EVT_CFG_REJECT, 13, .deferred, evtLnk⟩
/-- The event register of block CHN: 12 bits, 128 instance(s), first vector 5 (R458). -/
def evtChn : EvtReg :=
  { bits := [F.CHN_EVT_SYNC_MISS, F.CHN_EVT_PILLAR_MISS, F.CHN_EVT_DEFECT, F.CHN_EVT_EQ_SAT, F.CHN_EVT_PCOUNT_FIX, F.CHN_EVT_TRUNC, F.CHN_EVT_POS_MISMATCH, F.CHN_EVT_PILLAR_LOST, F.CHN_EVT_WOB_UNLOCK, F.CHN_EVT_RATE_LIMIT, F.CHN_EVT_TABLE_ECC, F.CHN_EVT_CFG_REJECT],
    mask := F.CHN_EVT_MASK_MASK, forced := F.CHN_EVT_FORCED, width := 12, count := 128, vbase := 5, vdiv := 16 }
/-- Event CHN_EVT.SYNC_MISS: drift sync missed; framed by flywheel (corrected) -/
def E.CHN_SYNC_MISS : Event := ⟨F.CHN_EVT_SYNC_MISS, 0, .corrected, evtChn⟩
/-- Event CHN_EVT.PILLAR_MISS: pillar sync missed (corrected) -/
def E.CHN_PILLAR_MISS : Event := ⟨F.CHN_EVT_PILLAR_MISS, 1, .corrected, evtChn⟩
/-- Event CHN_EVT.DEFECT: dropout detected (corrected) -/
def E.CHN_DEFECT : Event := ⟨F.CHN_EVT_DEFECT, 2, .corrected, evtChn⟩
/-- Event CHN_EVT.EQ_SAT: equaliser tap saturated (corrected) -/
def E.CHN_EQ_SAT : Event := ⟨F.CHN_EVT_EQ_SAT, 3, .corrected, evtChn⟩
/-- Event CHN_EVT.PCOUNT_FIX: pillar count set from addresses (corrected) -/
def E.CHN_PCOUNT_FIX : Event := ⟨F.CHN_EVT_PCOUNT_FIX, 4, .corrected, evtChn⟩
/-- Event CHN_EVT.TRUNC: drift truncated (deferred) -/
def E.CHN_TRUNC : Event := ⟨F.CHN_EVT_TRUNC, 5, .deferred, evtChn⟩
/-- Event CHN_EVT.POS_MISMATCH: pillar address disagrees with position (deferred) -/
def E.CHN_POS_MISMATCH : Event := ⟨F.CHN_EVT_POS_MISMATCH, 6, .deferred, evtChn⟩
/-- Event CHN_EVT.PILLAR_LOST: four pillars missed in a row (deferred) -/
def E.CHN_PILLAR_LOST : Event := ⟨F.CHN_EVT_PILLAR_LOST, 7, .deferred, evtChn⟩
/-- Event CHN_EVT.WOB_UNLOCK: wobble loop unlocked or failed to lock (deferred) -/
def E.CHN_WOB_UNLOCK : Event := ⟨F.CHN_EVT_WOB_UNLOCK, 8, .deferred, evtChn⟩
/-- Event CHN_EVT.RATE_LIMIT: zone rate beyond R192 (deferred) -/
def E.CHN_RATE_LIMIT : Event := ⟨F.CHN_EVT_RATE_LIMIT, 9, .deferred, evtChn⟩
/-- Event CHN_EVT.TABLE_ECC: uncorrectable table entry replaced (deferred) -/
def E.CHN_TABLE_ECC : Event := ⟨F.CHN_EVT_TABLE_ECC, 10, .deferred, evtChn⟩
/-- Event CHN_EVT.CFG_REJECT: register or table write rejected (deferred) -/
def E.CHN_CFG_REJECT : Event := ⟨F.CHN_EVT_CFG_REJECT, 11, .deferred, evtChn⟩
/-- The event register of block ASY: 9 bits, 1 instance(s), first vector 14 (R458). -/
def evtAsy : EvtReg :=
  { bits := [F.ASY_EVT_INNER_FAIL, F.ASY_EVT_REREAD, F.ASY_EVT_RECOVERED, F.ASY_EVT_SLIP, F.ASY_EVT_INNER_MISC, F.ASY_EVT_MISCORRECT, F.ASY_EVT_LODE_FAILED, F.ASY_EVT_BUF_ECC, F.ASY_EVT_CFG_REJECT],
    mask := F.ASY_EVT_MASK_MASK, forced := F.ASY_EVT_FORCED, width := 9, count := 1, vbase := 14, vdiv := 1 }
/-- Event ASY_EVT.INNER_FAIL: a claimed drift failed its inner decode (corrected) -/
def E.ASY_INNER_FAIL : Event := ⟨F.ASY_EVT_INNER_FAIL, 0, .corrected, evtAsy⟩
/-- Event ASY_EVT.REREAD: re-read requested (corrected) -/
def E.ASY_REREAD : Event := ⟨F.ASY_EVT_REREAD, 1, .corrected, evtAsy⟩
/-- Event ASY_EVT.RECOVERED: lode corrected beyond rung 0 of its first read (corrected) -/
def E.ASY_RECOVERED : Event := ⟨F.ASY_EVT_RECOVERED, 2, .corrected, evtAsy⟩
/-- Event ASY_EVT.SLIP: drift made sound by slip search (corrected) -/
def E.ASY_SLIP : Event := ⟨F.ASY_EVT_SLIP, 3, .corrected, evtAsy⟩
/-- Event ASY_EVT.INNER_MISC: converged data drift failed CRC or identity (deferred) -/
def E.ASY_INNER_MISC : Event := ⟨F.ASY_EVT_INNER_MISC, 4, .deferred, evtAsy⟩
/-- Event ASY_EVT.MISCORRECT: outer decode discarded by the guard (deferred) -/
def E.ASY_MISCORRECT : Event := ⟨F.ASY_EVT_MISCORRECT, 5, .deferred, evtAsy⟩
/-- Event ASY_EVT.LODE_FAILED: lode declared failed (deferred) -/
def E.ASY_LODE_FAILED : Event := ⟨F.ASY_EVT_LODE_FAILED, 6, .deferred, evtAsy⟩
/-- Event ASY_EVT.BUF_ECC: uncorrectable lode buffer line (deferred) -/
def E.ASY_BUF_ECC : Event := ⟨F.ASY_EVT_BUF_ECC, 7, .deferred, evtAsy⟩
/-- Event ASY_EVT.CFG_REJECT: register write rejected (deferred) -/
def E.ASY_CFG_REJECT : Event := ⟨F.ASY_EVT_CFG_REJECT, 8, .deferred, evtAsy⟩
/-- The event register of block PRC: 6 bits, 1 instance(s), first vector 15 (R458). -/
def evtPrc : EvtReg :=
  { bits := [F.PRC_EVT_RESUMED, F.PRC_EVT_WITHHELD, F.PRC_EVT_OVERFLOW, F.PRC_EVT_FLUSH_TRUNC, F.PRC_EVT_ENTRY_ECC, F.PRC_EVT_CFG_REJECT],
    mask := F.PRC_EVT_MASK_MASK, forced := F.PRC_EVT_FORCED, width := 6, count := 1, vbase := 15, vdiv := 1 }
/-- Event PRC_EVT.RESUMED: retention resumed below the low mark (corrected) -/
def E.PRC_RESUMED : Event := ⟨F.PRC_EVT_RESUMED, 0, .corrected, evtPrc⟩
/-- Event PRC_EVT.WITHHELD: retention withheld above the high mark (deferred) -/
def E.PRC_WITHHELD : Event := ⟨F.PRC_EVT_WITHHELD, 1, .deferred, evtPrc⟩
/-- Event PRC_EVT.OVERFLOW: chained-buffer overflow (deferred) -/
def E.PRC_OVERFLOW : Event := ⟨F.PRC_EVT_OVERFLOW, 2, .deferred, evtPrc⟩
/-- Event PRC_EVT.FLUSH_TRUNC: partial entry discarded by flush (corrected) -/
def E.PRC_FLUSH_TRUNC : Event := ⟨F.PRC_EVT_FLUSH_TRUNC, 3, .corrected, evtPrc⟩
/-- Event PRC_EVT.ENTRY_ECC: tailings entry unusable (deferred) -/
def E.PRC_ENTRY_ECC : Event := ⟨F.PRC_EVT_ENTRY_ECC, 4, .deferred, evtPrc⟩
/-- Event PRC_EVT.CFG_REJECT: register write rejected (deferred) -/
def E.PRC_CFG_REJECT : Event := ⟨F.PRC_EVT_CFG_REJECT, 5, .deferred, evtPrc⟩
/-- The event register of block WRP: 11 bits, 1 instance(s), first vector 16 (R458). -/
def evtWrp : EvtReg :=
  { bits := [F.WRP_EVT_PAD, F.WRP_EVT_GATE_CUT, F.WRP_EVT_LODE_REJECT, F.WRP_EVT_SPARED, F.WRP_EVT_WP_RECOVERED, F.WRP_EVT_SEAM_EXHAUSTED, F.WRP_EVT_CAL_DONE, F.WRP_EVT_CAL_FAIL, F.WRP_EVT_CAL_EXHAUSTED, F.WRP_EVT_CAT_FULL, F.WRP_EVT_CFG_REJECT],
    mask := F.WRP_EVT_MASK_MASK, forced := F.WRP_EVT_FORCED, width := 11, count := 1, vbase := 16, vdiv := 1 }
/-- Event WRP_EVT.PAD: lode sealed with padding (corrected) -/
def E.WRP_PAD : Event := ⟨F.WRP_EVT_PAD, 0, .corrected, evtWrp⟩
/-- Event WRP_EVT.GATE_CUT: drift cut by gate closure (corrected) -/
def E.WRP_GATE_CUT : Event := ⟨F.WRP_EVT_GATE_CUT, 1, .corrected, evtWrp⟩
/-- Event WRP_EVT.LODE_REJECT: lode rejected (corrected) -/
def E.WRP_LODE_REJECT : Event := ⟨F.WRP_EVT_LODE_REJECT, 2, .corrected, evtWrp⟩
/-- Event WRP_EVT.SPARED: position skipped (corrected) -/
def E.WRP_SPARED : Event := ⟨F.WRP_EVT_SPARED, 3, .corrected, evtWrp⟩
/-- Event WRP_EVT.WP_RECOVERED: write pointer established (corrected) -/
def E.WRP_WP_RECOVERED : Event := ⟨F.WRP_EVT_WP_RECOVERED, 4, .corrected, evtWrp⟩
/-- Event WRP_EVT.SEAM_EXHAUSTED: seam out of spares (deferred) -/
def E.WRP_SEAM_EXHAUSTED : Event := ⟨F.WRP_EVT_SEAM_EXHAUSTED, 5, .deferred, evtWrp⟩
/-- Event WRP_EVT.CAL_DONE: calibration applied (corrected) -/
def E.WRP_CAL_DONE : Event := ⟨F.WRP_EVT_CAL_DONE, 6, .corrected, evtWrp⟩
/-- Event WRP_EVT.CAL_FAIL: calibration rejected; values kept (deferred) -/
def E.WRP_CAL_FAIL : Event := ⟨F.WRP_EVT_CAL_FAIL, 7, .deferred, evtWrp⟩
/-- Event WRP_EVT.CAL_EXHAUSTED: calibration area full (deferred) -/
def E.WRP_CAL_EXHAUSTED : Event := ⟨F.WRP_EVT_CAL_EXHAUSTED, 8, .deferred, evtWrp⟩
/-- Event WRP_EVT.CAT_FULL: no catalogue position for a snapshot (deferred) -/
def E.WRP_CAT_FULL : Event := ⟨F.WRP_EVT_CAT_FULL, 9, .deferred, evtWrp⟩
/-- Event WRP_EVT.CFG_REJECT: register or table write rejected (deferred) -/
def E.WRP_CFG_REJECT : Event := ⟨F.WRP_EVT_CFG_REJECT, 10, .deferred, evtWrp⟩
/-- The event register of block MEM: 10 bits, 1 instance(s), first vector 17 (R458). -/
def evtMem : EvtReg :=
  { bits := [F.MEM_EVT_CE_OVERFLOW, F.MEM_EVT_DRAM_UE, F.MEM_EVT_SRAM_UE, F.MEM_EVT_NARROW_REJECT, F.MEM_EVT_PARTIAL_DISCARD, F.MEM_EVT_SCRUB_DONE, F.MEM_EVT_SCRUB_SLOW, F.MEM_EVT_REPAIR_OVERFLOW, F.MEM_EVT_CFG_REJECT, F.MEM_EVT_INIT_FAIL],
    mask := F.MEM_EVT_MASK_MASK, forced := F.MEM_EVT_FORCED, width := 10, count := 1, vbase := 17, vdiv := 1 }
/-- Event MEM_EVT.CE_OVERFLOW: leaky bucket overflowed (corrected) -/
def E.MEM_CE_OVERFLOW : Event := ⟨F.MEM_EVT_CE_OVERFLOW, 0, .corrected, evtMem⟩
/-- Event MEM_EVT.DRAM_UE: uncorrectable DRAM line (deferred) -/
def E.MEM_DRAM_UE : Event := ⟨F.MEM_EVT_DRAM_UE, 1, .deferred, evtMem⟩
/-- Event MEM_EVT.SRAM_UE: uncorrectable SRAM word (deferred) -/
def E.MEM_SRAM_UE : Event := ⟨F.MEM_EVT_SRAM_UE, 2, .deferred, evtMem⟩
/-- Event MEM_EVT.NARROW_REJECT: table write rejected (deferred) -/
def E.MEM_NARROW_REJECT : Event := ⟨F.MEM_EVT_NARROW_REJECT, 3, .deferred, evtMem⟩
/-- Event MEM_EVT.PARTIAL_DISCARD: peer write discarded (deferred) -/
def E.MEM_PARTIAL_DISCARD : Event := ⟨F.MEM_EVT_PARTIAL_DISCARD, 4, .deferred, evtMem⟩
/-- Event MEM_EVT.SCRUB_DONE: DRAM scrub pass ended (corrected) -/
def E.MEM_SCRUB_DONE : Event := ⟨F.MEM_EVT_SCRUB_DONE, 5, .corrected, evtMem⟩
/-- Event MEM_EVT.SCRUB_SLOW: SRAM lap above LAP_MAX (corrected) -/
def E.MEM_SCRUB_SLOW : Event := ⟨F.MEM_EVT_SCRUB_SLOW, 6, .corrected, evtMem⟩
/-- Event MEM_EVT.REPAIR_OVERFLOW: repair not made, no spare row (deferred) -/
def E.MEM_REPAIR_OVERFLOW : Event := ⟨F.MEM_EVT_REPAIR_OVERFLOW, 7, .deferred, evtMem⟩
/-- Event MEM_EVT.CFG_REJECT: register write or operation rejected (deferred) -/
def E.MEM_CFG_REJECT : Event := ⟨F.MEM_EVT_CFG_REJECT, 8, .deferred, evtMem⟩
/-- Event MEM_EVT.INIT_FAIL: DRAM training failed (device-fatal) -/
def E.MEM_INIT_FAIL : Event := ⟨F.MEM_EVT_INIT_FAIL, 9, .deviceFatal, evtMem⟩
/-- The event register of block LCA: 5 bits, 1 instance(s), first vector 18 (R458). -/
def evtLca : EvtReg :=
  { bits := [F.LCA_EVT_OP_DONE, F.LCA_EVT_WAY_OFF, F.LCA_EVT_POISON_WB, F.LCA_EVT_TAG_UE, F.LCA_EVT_CFG_REJECT],
    mask := F.LCA_EVT_MASK_MASK, forced := F.LCA_EVT_FORCED, width := 5, count := 1, vbase := 18, vdiv := 1 }
/-- Event LCA_EVT.OP_DONE: maintenance or preload complete (corrected) -/
def E.LCA_OP_DONE : Event := ⟨F.LCA_EVT_OP_DONE, 0, .corrected, evtLca⟩
/-- Event LCA_EVT.WAY_OFF: a way finished powering down (corrected) -/
def E.LCA_WAY_OFF : Event := ⟨F.LCA_EVT_WAY_OFF, 1, .corrected, evtLca⟩
/-- Event LCA_EVT.POISON_WB: line written back with the poison pattern (deferred) -/
def E.LCA_POISON_WB : Event := ⟨F.LCA_EVT_POISON_WB, 2, .deferred, evtLca⟩
/-- Event LCA_EVT.TAG_UE: uncorrectable tag or state (device-fatal) -/
def E.LCA_TAG_UE : Event := ⟨F.LCA_EVT_TAG_UE, 3, .deviceFatal, evtLca⟩
/-- Event LCA_EVT.CFG_REJECT: request refused (deferred) -/
def E.LCA_CFG_REJECT : Event := ⟨F.LCA_EVT_CFG_REJECT, 4, .deferred, evtLca⟩
/-- The event register of block CFG: 13 bits, 1 instance(s), first vector 19 (R458). -/
def evtCfg : EvtReg :=
  { bits := [F.CFG_EVT_LOAD_FAIL, F.CFG_EVT_FALLBACK, F.CFG_EVT_PIECE_REJECT, F.CFG_EVT_STAGE_READY, F.CFG_EVT_STAGE_FAIL, F.CFG_EVT_ARMED, F.CFG_EVT_SHIFT_APPLIED, F.CFG_EVT_SHIFT_LATE, F.CFG_EVT_SHIFT_STAYED, F.CFG_EVT_LOG_FAIL, F.CFG_EVT_SVN_COMMITTED, F.CFG_EVT_FUSE_FAIL, F.CFG_EVT_CFG_REJECT],
    mask := F.CFG_EVT_MASK_MASK, forced := F.CFG_EVT_FORCED, width := 13, count := 1, vbase := 19, vdiv := 1 }
/-- Event CFG_EVT.LOAD_FAIL: no image loaded (deferred) -/
def E.CFG_LOAD_FAIL : Event := ⟨F.CFG_EVT_LOAD_FAIL, 0, .deferred, evtCfg⟩
/-- Event CFG_EVT.FALLBACK: loaded from the other slot (deferred) -/
def E.CFG_FALLBACK : Event := ⟨F.CFG_EVT_FALLBACK, 1, .deferred, evtCfg⟩
/-- Event CFG_EVT.PIECE_REJECT: piece rejected (deferred) -/
def E.CFG_PIECE_REJECT : Event := ⟨F.CFG_EVT_PIECE_REJECT, 2, .deferred, evtCfg⟩
/-- Event CFG_EVT.STAGE_READY: staged image copied and verified (corrected) -/
def E.CFG_STAGE_READY : Event := ⟨F.CFG_EVT_STAGE_READY, 3, .corrected, evtCfg⟩
/-- Event CFG_EVT.STAGE_FAIL: staged image failed verification (deferred) -/
def E.CFG_STAGE_FAIL : Event := ⟨F.CFG_EVT_STAGE_FAIL, 4, .deferred, evtCfg⟩
/-- Event CFG_EVT.ARMED: standby plane prepared (corrected) -/
def E.CFG_ARMED : Event := ⟨F.CFG_EVT_ARMED, 5, .corrected, evtCfg⟩
/-- Event CFG_EVT.SHIFT_APPLIED: shift applied (corrected) -/
def E.CFG_SHIFT_APPLIED : Event := ⟨F.CFG_EVT_SHIFT_APPLIED, 6, .corrected, evtCfg⟩
/-- Event CFG_EVT.SHIFT_LATE: shift applied after F (corrected) -/
def E.CFG_SHIFT_LATE : Event := ⟨F.CFG_EVT_SHIFT_LATE, 7, .corrected, evtCfg⟩
/-- Event CFG_EVT.SHIFT_STAYED: unit stays on its old epoch (deferred) -/
def E.CFG_SHIFT_STAYED : Event := ⟨F.CFG_EVT_SHIFT_STAYED, 8, .deferred, evtCfg⟩
/-- Event CFG_EVT.LOG_FAIL: boot record not written to flash (deferred) -/
def E.CFG_LOG_FAIL : Event := ⟨F.CFG_EVT_LOG_FAIL, 9, .deferred, evtCfg⟩
/-- Event CFG_EVT.SVN_COMMITTED: fused SVN raised (corrected) -/
def E.CFG_SVN_COMMITTED : Event := ⟨F.CFG_EVT_SVN_COMMITTED, 10, .corrected, evtCfg⟩
/-- Event CFG_EVT.FUSE_FAIL: fuse bit did not program (deferred) -/
def E.CFG_FUSE_FAIL : Event := ⟨F.CFG_EVT_FUSE_FAIL, 11, .deferred, evtCfg⟩
/-- Event CFG_EVT.CFG_REJECT: write or command refused (deferred) -/
def E.CFG_CFG_REJECT : Event := ⟨F.CFG_EVT_CFG_REJECT, 12, .deferred, evtCfg⟩
/-- The event register of block TRL: 15 bits, 1 instance(s), first vector 20 (R458). -/
def evtTrl : EvtReg :=
  { bits := [F.TRL_EVT_JOINED, F.TRL_EVT_ELECTION, F.TRL_EVT_HEAD_CHANGE, F.TRL_EVT_MIXED, F.TRL_EVT_UNMIXED, F.TRL_EVT_RING_OPEN, F.TRL_EVT_MSG_RX, F.TRL_EVT_TX_DONE, F.TRL_EVT_CRC_ERR, F.TRL_EVT_SHIFT_REFUSED, F.TRL_EVT_EXCLUDED, F.TRL_EVT_LAP_LONG, F.TRL_EVT_CFG_REJECT, F.TRL_EVT_LOOP_FAIL, F.TRL_EVT_TOO_MANY],
    mask := F.TRL_EVT_MASK_MASK, forced := F.TRL_EVT_FORCED, width := 15, count := 1, vbase := 20, vdiv := 1 }
/-- Event TRL_EVT.JOINED: entered MEMBER (corrected) -/
def E.TRL_JOINED : Event := ⟨F.TRL_EVT_JOINED, 0, .corrected, evtTrl⟩
/-- Event TRL_EVT.ELECTION: election entered (deferred) -/
def E.TRL_ELECTION : Event := ⟨F.TRL_EVT_ELECTION, 1, .deferred, evtTrl⟩
/-- Event TRL_EVT.HEAD_CHANGE: this unit became headframe (corrected) -/
def E.TRL_HEAD_CHANGE : Event := ⟨F.TRL_EVT_HEAD_CHANGE, 2, .corrected, evtTrl⟩
/-- Event TRL_EVT.MIXED: MIXED set (deferred) -/
def E.TRL_MIXED : Event := ⟨F.TRL_EVT_MIXED, 3, .deferred, evtTrl⟩
/-- Event TRL_EVT.UNMIXED: MIXED cleared (corrected) -/
def E.TRL_UNMIXED : Event := ⟨F.TRL_EVT_UNMIXED, 4, .corrected, evtTrl⟩
/-- Event TRL_EVT.RING_OPEN: frames not returning to the headframe (deferred) -/
def E.TRL_RING_OPEN : Event := ⟨F.TRL_EVT_RING_OPEN, 5, .deferred, evtTrl⟩
/-- Event TRL_EVT.MSG_RX: message copied to TRL_RX (corrected) -/
def E.TRL_MSG_RX : Event := ⟨F.TRL_EVT_MSG_RX, 6, .corrected, evtTrl⟩
/-- Event TRL_EVT.TX_DONE: sent message returned or lost (corrected) -/
def E.TRL_TX_DONE : Event := ⟨F.TRL_EVT_TX_DONE, 7, .corrected, evtTrl⟩
/-- Event TRL_EVT.CRC_ERR: message CRC failed (corrected) -/
def E.TRL_CRC_ERR : Event := ⟨F.TRL_EVT_CRC_ERR, 8, .corrected, evtTrl⟩
/-- Event TRL_EVT.SHIFT_REFUSED: own request refused or aborted (deferred) -/
def E.TRL_SHIFT_REFUSED : Event := ⟨F.TRL_EVT_SHIFT_REFUSED, 9, .deferred, evtTrl⟩
/-- Event TRL_EVT.EXCLUDED: this unit excluded (deferred) -/
def E.TRL_EXCLUDED : Event := ⟨F.TRL_EVT_EXCLUDED, 10, .deferred, evtTrl⟩
/-- Event TRL_EVT.LAP_LONG: lap above 120 µs (deferred) -/
def E.TRL_LAP_LONG : Event := ⟨F.TRL_EVT_LAP_LONG, 11, .deferred, evtTrl⟩
/-- Event TRL_EVT.CFG_REJECT: register write rejected (deferred) -/
def E.TRL_CFG_REJECT : Event := ⟨F.TRL_EVT_CFG_REJECT, 12, .deferred, evtTrl⟩
/-- Event TRL_EVT.LOOP_FAIL: no lock in LOOP (deferred) -/
def E.TRL_LOOP_FAIL : Event := ⟨F.TRL_EVT_LOOP_FAIL, 13, .deferred, evtTrl⟩
/-- Event TRL_EVT.TOO_MANY: FULL received: the ring already holds 1,024 units (deferred) -/
def E.TRL_TOO_MANY : Event := ⟨F.TRL_EVT_TOO_MANY, 14, .deferred, evtTrl⟩
/-- The event register of block CAL: 6 bits, 1 instance(s), first vector 21 (R458). -/
def evtCal : EvtReg :=
  { bits := [F.CAL_EVT_CAL_DONE, F.CAL_EVT_CAL_REJECT, F.CAL_EVT_THERM_WARN, F.CAL_EVT_THERM_CRIT, F.CAL_EVT_SENSOR_FAIL, F.CAL_EVT_CFG_REJECT],
    mask := F.CAL_EVT_MASK_MASK, forced := F.CAL_EVT_FORCED, width := 6, count := 1, vbase := 21, vdiv := 1 }
/-- Event CAL_EVT.CAL_DONE: region run completed (corrected) -/
def E.CAL_CAL_DONE : Event := ⟨F.CAL_EVT_CAL_DONE, 0, .corrected, evtCal⟩
/-- Event CAL_EVT.CAL_REJECT: trim result implausible; old values kept (deferred) -/
def E.CAL_CAL_REJECT : Event := ⟨F.CAL_EVT_CAL_REJECT, 1, .deferred, evtCal⟩
/-- Event CAL_EVT.THERM_WARN: warning temperature (deferred) -/
def E.CAL_THERM_WARN : Event := ⟨F.CAL_EVT_THERM_WARN, 2, .deferred, evtCal⟩
/-- Event CAL_EVT.THERM_CRIT: critical temperature (device-fatal) -/
def E.CAL_THERM_CRIT : Event := ⟨F.CAL_EVT_THERM_CRIT, 3, .deviceFatal, evtCal⟩
/-- Event CAL_EVT.SENSOR_FAIL: sensor invalid (deferred) -/
def E.CAL_SENSOR_FAIL : Event := ⟨F.CAL_EVT_SENSOR_FAIL, 4, .deferred, evtCal⟩
/-- Event CAL_EVT.CFG_REJECT: register write rejected (deferred) -/
def E.CAL_CFG_REJECT : Event := ⟨F.CAL_EVT_CFG_REJECT, 5, .deferred, evtCal⟩
/-- The event register of block PWR: 4 bits, 1 instance(s), first vector 22 (R458). -/
def evtPwr : EvtReg :=
  { bits := [F.PWR_EVT_RAIL_FAULT, F.PWR_EVT_CLK_FAULT, F.PWR_EVT_LREF_LOSS, F.PWR_EVT_BIST_FAIL],
    mask := F.PWR_EVT_MASK_MASK, forced := F.PWR_EVT_FORCED, width := 4, count := 1, vbase := 22, vdiv := 1 }
/-- Event PWR_EVT.RAIL_FAULT: rail outside tolerance (device-fatal) -/
def E.PWR_RAIL_FAULT : Event := ⟨F.PWR_EVT_RAIL_FAULT, 0, .deviceFatal, evtPwr⟩
/-- Event PWR_EVT.CLK_FAULT: SYSCLK lost (device-fatal) -/
def E.PWR_CLK_FAULT : Event := ⟨F.PWR_EVT_CLK_FAULT, 1, .deviceFatal, evtPwr⟩
/-- Event PWR_EVT.LREF_LOSS: lane reference lost (head-fatal) -/
def E.PWR_LREF_LOSS : Event := ⟨F.PWR_EVT_LREF_LOSS, 2, .headFatal, evtPwr⟩
/-- Event PWR_EVT.BIST_FAIL: SRAM row unrepaired (deferred) -/
def E.PWR_BIST_FAIL : Event := ⟨F.PWR_EVT_BIST_FAIL, 3, .deferred, evtPwr⟩
/-- The events of block GLB. -/
def eventsGlb : List Event :=
  [E.GLB_TAKEOVER_START, E.GLB_TAKEOVER_DONE, E.GLB_HANDBACK_DONE, E.GLB_TAKEOVER_REFUSED, E.GLB_SIDE_LOST]
/-- The events of block TCK. -/
def eventsTck : List Event :=
  [E.TCK_CLR_OVR, E.TCK_CLR_HOLD, E.TCK_CLR_SAFE, E.TCK_LRN_SKIP, E.TCK_OBS_LATE, E.TCK_OBS_LOST, E.TCK_WND_OVR, E.TCK_SLD_OVR, E.TCK_ASY_MISS, E.TCK_DISC_UNLOCK, E.TCK_DISC_STEP, E.TCK_HOLDOVER, E.TCK_CFG_REJECT]
/-- The events of block HIF. -/
def eventsHif : List Event :=
  [E.HIF_CPL_TIMEOUT, E.HIF_UNEXP_CPL, E.HIF_POISON_RX, E.HIF_PEER_UR, E.HIF_HOT_RESET, E.HIF_FLR0, E.HIF_FLR1, E.HIF_LINK_LOST, E.HIF_CONTAINED, E.HIF_RELEASED, E.HIF_COMMIT_REJECT, E.HIF_CFG_REJECT, E.HIF_LINK_DEGRADED]
/-- The events of block HQI. -/
def eventsHqi : List Event :=
  [E.HQI_QUEUE_ERR, E.HQI_RESET_ABORT, E.HQI_CFG_REJECT, E.HQI_SELF_TEST_DONE, E.HQI_VOLUME_LOST]
/-- The events of block CLR. -/
def eventsClr : List Event :=
  [E.CLR_SAT, E.CLR_SHOCK, E.CLR_TRACK_SLIP, E.CLR_FOCUS_LOST, E.CLR_ACQ_FAIL, E.CLR_SEEK_FAIL, E.CLR_LAYER_FAIL, E.CLR_SF_LIMIT, E.CLR_RP_LIMIT, E.CLR_HOLD_TIMEOUT, E.CLR_FOCUS_REPEAT, E.CLR_CFG_REJECT]
/-- The events of block LRN. -/
def eventsLrn : List Event :=
  [E.LRN_SAT, E.LRN_SEED_DONE, E.LRN_SEED_REFUSED, E.LRN_CLEARED, E.LRN_ANGLE_FADE, E.LRN_ECC, E.LRN_CFG_REJECT]
/-- The events of block WND. -/
def eventsWnd : List Event :=
  [E.WND_READY, E.WND_STOPPED, E.WND_REF_STEP, E.WND_REF_JUMP, E.WND_LOS, E.WND_REGEN_LIMIT, E.WND_VSAT, E.WND_PAIR, E.WND_CFG_REJECT, E.WND_SPIN_FAIL, E.WND_LOS_REPEAT, E.WND_CHOP_FAULT, E.WND_OVERVOLT, E.WND_OVERCURRENT, E.WND_DRV_FAULT]
/-- The events of block SLD. -/
def eventsSld : List Event :=
  [E.SLD_FOLLOW_DISCARD, E.SLD_SOFT_LIMIT, E.SLD_OVERSHOOT, E.SLD_DECEL_RAISED, E.SLD_DECEL_LIMIT, E.SLD_LIMIT_HIT, E.SLD_HOME_DONE, E.SLD_HOME_FAIL, E.SLD_HOME_CHATTER, E.SLD_CFG_REJECT]
/-- The events of block LNK. -/
def eventsLnk : List Event :=
  [E.LNK_LATE_WORD, E.LNK_POISON, E.LNK_FLUSH_TRUNC, E.LNK_DROP, E.LNK_ROT_CANCEL, E.LNK_MAP_ERR, E.LNK_LANE_FAIL, E.LNK_LANE_RESTORED, E.LNK_LINK_LOST, E.LNK_DOWN_LOST, E.LNK_HFE_FAULT, E.LNK_TRAIN_FAIL, E.LNK_CMD_TIMEOUT, E.LNK_CFG_REJECT]
/-- The events of block CHN. -/
def eventsChn : List Event :=
  [E.CHN_SYNC_MISS, E.CHN_PILLAR_MISS, E.CHN_DEFECT, E.CHN_EQ_SAT, E.CHN_PCOUNT_FIX, E.CHN_TRUNC, E.CHN_POS_MISMATCH, E.CHN_PILLAR_LOST, E.CHN_WOB_UNLOCK, E.CHN_RATE_LIMIT, E.CHN_TABLE_ECC, E.CHN_CFG_REJECT]
/-- The events of block ASY. -/
def eventsAsy : List Event :=
  [E.ASY_INNER_FAIL, E.ASY_REREAD, E.ASY_RECOVERED, E.ASY_SLIP, E.ASY_INNER_MISC, E.ASY_MISCORRECT, E.ASY_LODE_FAILED, E.ASY_BUF_ECC, E.ASY_CFG_REJECT]
/-- The events of block PRC. -/
def eventsPrc : List Event :=
  [E.PRC_RESUMED, E.PRC_WITHHELD, E.PRC_OVERFLOW, E.PRC_FLUSH_TRUNC, E.PRC_ENTRY_ECC, E.PRC_CFG_REJECT]
/-- The events of block WRP. -/
def eventsWrp : List Event :=
  [E.WRP_PAD, E.WRP_GATE_CUT, E.WRP_LODE_REJECT, E.WRP_SPARED, E.WRP_WP_RECOVERED, E.WRP_SEAM_EXHAUSTED, E.WRP_CAL_DONE, E.WRP_CAL_FAIL, E.WRP_CAL_EXHAUSTED, E.WRP_CAT_FULL, E.WRP_CFG_REJECT]
/-- The events of block MEM. -/
def eventsMem : List Event :=
  [E.MEM_CE_OVERFLOW, E.MEM_DRAM_UE, E.MEM_SRAM_UE, E.MEM_NARROW_REJECT, E.MEM_PARTIAL_DISCARD, E.MEM_SCRUB_DONE, E.MEM_SCRUB_SLOW, E.MEM_REPAIR_OVERFLOW, E.MEM_CFG_REJECT, E.MEM_INIT_FAIL]
/-- The events of block LCA. -/
def eventsLca : List Event :=
  [E.LCA_OP_DONE, E.LCA_WAY_OFF, E.LCA_POISON_WB, E.LCA_TAG_UE, E.LCA_CFG_REJECT]
/-- The events of block CFG. -/
def eventsCfg : List Event :=
  [E.CFG_LOAD_FAIL, E.CFG_FALLBACK, E.CFG_PIECE_REJECT, E.CFG_STAGE_READY, E.CFG_STAGE_FAIL, E.CFG_ARMED, E.CFG_SHIFT_APPLIED, E.CFG_SHIFT_LATE, E.CFG_SHIFT_STAYED, E.CFG_LOG_FAIL, E.CFG_SVN_COMMITTED, E.CFG_FUSE_FAIL, E.CFG_CFG_REJECT]
/-- The events of block TRL. -/
def eventsTrl : List Event :=
  [E.TRL_JOINED, E.TRL_ELECTION, E.TRL_HEAD_CHANGE, E.TRL_MIXED, E.TRL_UNMIXED, E.TRL_RING_OPEN, E.TRL_MSG_RX, E.TRL_TX_DONE, E.TRL_CRC_ERR, E.TRL_SHIFT_REFUSED, E.TRL_EXCLUDED, E.TRL_LAP_LONG, E.TRL_CFG_REJECT, E.TRL_LOOP_FAIL, E.TRL_TOO_MANY]
/-- The events of block CAL. -/
def eventsCal : List Event :=
  [E.CAL_CAL_DONE, E.CAL_CAL_REJECT, E.CAL_THERM_WARN, E.CAL_THERM_CRIT, E.CAL_SENSOR_FAIL, E.CAL_CFG_REJECT]
/-- The events of block PWR. -/
def eventsPwr : List Event :=
  [E.PWR_RAIL_FAULT, E.PWR_CLK_FAULT, E.PWR_LREF_LOSS, E.PWR_BIST_FAIL]
/-- Every event of the machine. -/
def allEvents : List Event :=
  eventsGlb ++ eventsTck ++ eventsHif ++ eventsHqi ++ eventsClr ++ eventsLrn ++ eventsWnd ++ eventsSld ++ eventsLnk ++ eventsChn ++ eventsAsy ++ eventsPrc ++ eventsWrp ++ eventsMem ++ eventsLca ++ eventsCfg ++ eventsTrl ++ eventsCal ++ eventsPwr
/-- Every event register. -/
def allEvtRegs : List EvtReg :=
  [evtGlb, evtTck, evtHif, evtHqi, evtClr, evtLrn, evtWnd, evtSld, evtLnk, evtChn, evtAsy, evtPrc, evtWrp, evtMem, evtLca, evtCfg, evtTrl, evtCal, evtPwr]

end Sys2Proof.Machine
end

