-- ==== Sys2Proof/Machine/RegMap.lean ====
section
/-!
DEFINITION. The register address map (R455, R456 and the offset tables of every block): one RegDef per register, with its
PF1 BAR0 offset, its instance dimensions (count, stride) and its fields.
-/
namespace Sys2Proof.Machine

/-- GLB_DEVICE_ID (R22). -/
def R.GLB_DEVICE_ID : RegDef :=
  { base := 0x0, dims := [], bits := 32, fields := [⟨31, 16, .ro, F.GLB_DEVICE_ID_PART⟩,
    ⟨15, 8, .ro, F.GLB_DEVICE_ID_STEPPING⟩] }
/-- GLB_EVT (R22). -/
def R.GLB_EVT : RegDef :=
  { base := 0x10, dims := [], bits := 32, fields := [⟨4, 4, .rw1c, F.GLB_EVT_SIDE_LOST⟩,
    ⟨3, 3, .rw1c, F.GLB_EVT_TAKEOVER_REFUSED⟩,
    ⟨2, 2, .rw1c, F.GLB_EVT_HANDBACK_DONE⟩,
    ⟨1, 1, .rw1c, F.GLB_EVT_TAKEOVER_DONE⟩,
    ⟨0, 0, .rw1c, F.GLB_EVT_TAKEOVER_START⟩] }
/-- GLB_EVT_MASK (R22). -/
def R.GLB_EVT_MASK : RegDef :=
  { base := 0x14, dims := [], bits := 32, fields := [⟨4, 0, .rw, F.GLB_EVT_MASK_MASK⟩] }
/-- GLB_EVT_FORCE (R22). -/
def R.GLB_EVT_FORCE : RegDef :=
  { base := 0x18, dims := [], bits := 32, fields := [⟨4, 0, .wo, F.GLB_EVT_FORCED⟩] }
/-- GLB_HEAD_FAULT (R22). -/
def R.GLB_HEAD_FAULT : RegDef :=
  { base := 0x20, dims := [], bits := 32, fields := [⟨31, 0, .ro, F.GLB_HEAD_FAULT_HEAD⟩] }
/-- GLB_DECK_FAULT (R22). -/
def R.GLB_DECK_FAULT : RegDef :=
  { base := 0x24, dims := [], bits := 32, fields := [⟨7, 0, .ro, F.GLB_DECK_FAULT_DECK⟩] }
/-- GLB_TAKEOVER (R22). -/
def R.GLB_TAKEOVER : RegDef :=
  { base := 0x30, dims := [], bits := 32, fields := [⟨31, 0, .ro, F.GLB_TAKEOVER_SERVED_BY_PARTNER⟩] }
/-- GLB_HANDOVER (R22). -/
def R.GLB_HANDOVER : RegDef :=
  { base := 0x34, dims := [], bits := 32, fields := [⟨8, 8, .wo, F.GLB_HANDOVER_OP⟩,
    ⟨4, 0, .wo, F.GLB_HANDOVER_HEAD⟩] }
/-- GLB_TAKEOVER_CTL (R22). -/
def R.GLB_TAKEOVER_CTL : RegDef :=
  { base := 0x38, dims := [], bits := 32, fields := [⟨7, 0, .rw, F.GLB_TAKEOVER_CTL_AUTO⟩] }
/-- TCK_CTL (R41). -/
def R.TCK_CTL : RegDef :=
  { base := 0x100000, dims := [], bits := 32, fields := [⟨31, 16, .rw, F.TCK_CTL_STEP_LIM⟩,
    ⟨5, 4, .rw, F.TCK_CTL_SLEW⟩,
    ⟨1, 1, .rw, F.TCK_CTL_STEP_OK⟩,
    ⟨0, 0, .rw, F.TCK_CTL_DISC_EN⟩] }
/-- TCK_STATUS (R41). -/
def R.TCK_STATUS : RegDef :=
  { base := 0x100004, dims := [], bits := 32, fields := [⟨31, 16, .ro, F.TCK_STATUS_LAST_ERR⟩,
    ⟨1, 1, .ro, F.TCK_STATUS_HOLDOVER⟩,
    ⟨0, 0, .ro, F.TCK_STATUS_LOCK⟩] }
/-- TCK_COUNT_LO (R41). -/
def R.TCK_COUNT_LO : RegDef :=
  { base := 0x100008, dims := [], bits := 32, fields := [⟨31, 0, .ro, F.TCK_COUNT_LO_COUNT_LO⟩] }
/-- TCK_COUNT_HI (R41). -/
def R.TCK_COUNT_HI : RegDef :=
  { base := 0x10000C, dims := [], bits := 32, fields := [⟨15, 0, .ro, F.TCK_COUNT_HI_COUNT_HI⟩] }
/-- TCK_EVT (R41). -/
def R.TCK_EVT : RegDef :=
  { base := 0x100010, dims := [], bits := 32, fields := [⟨12, 12, .rw1c, F.TCK_EVT_CFG_REJECT⟩,
    ⟨11, 11, .rw1c, F.TCK_EVT_HOLDOVER⟩,
    ⟨10, 10, .rw1c, F.TCK_EVT_DISC_STEP⟩,
    ⟨9, 9, .rw1c, F.TCK_EVT_DISC_UNLOCK⟩,
    ⟨8, 8, .rw1c, F.TCK_EVT_ASY_MISS⟩,
    ⟨7, 7, .rw1c, F.TCK_EVT_SLD_OVR⟩,
    ⟨6, 6, .rw1c, F.TCK_EVT_WND_OVR⟩,
    ⟨5, 5, .rw1c, F.TCK_EVT_OBS_LOST⟩,
    ⟨4, 4, .rw1c, F.TCK_EVT_OBS_LATE⟩,
    ⟨3, 3, .rw1c, F.TCK_EVT_LRN_SKIP⟩,
    ⟨2, 2, .rw1c, F.TCK_EVT_CLR_SAFE⟩,
    ⟨1, 1, .rw1c, F.TCK_EVT_CLR_HOLD⟩,
    ⟨0, 0, .rw1c, F.TCK_EVT_CLR_OVR⟩] }
/-- TCK_EVT_MASK (R41). -/
def R.TCK_EVT_MASK : RegDef :=
  { base := 0x100014, dims := [], bits := 32, fields := [⟨12, 0, .rw, F.TCK_EVT_MASK_MASK⟩] }
/-- TCK_EVT_FORCE (R41). -/
def R.TCK_EVT_FORCE : RegDef :=
  { base := 0x100018, dims := [], bits := 32, fields := [⟨12, 0, .wo, F.TCK_EVT_FORCED⟩] }
/-- TCK_ASY_DEADLINE (R41). -/
def R.TCK_ASY_DEADLINE : RegDef :=
  { base := 0x100020, dims := [], bits := 32, fields := [⟨15, 0, .rw, F.TCK_ASY_DEADLINE_TICKS⟩] }
/-- TCK_OVR_HEADS (R41). -/
def R.TCK_OVR_HEADS : RegDef :=
  { base := 0x100024, dims := [], bits := 32, fields := [⟨31, 0, .rw1c, F.TCK_OVR_HEADS_HEAD⟩] }
/-- TCK_OVR_DECKS (R41). -/
def R.TCK_OVR_DECKS : RegDef :=
  { base := 0x100028, dims := [], bits := 32, fields := [⟨7, 0, .rw1c, F.TCK_OVR_DECKS_DECK⟩] }
/-- TCK_ASY_MISS (R41). -/
def R.TCK_ASY_MISS : RegDef :=
  { base := 0x10002C, dims := [], bits := 32, fields := [⟨31, 0, .rc, F.TCK_ASY_MISS_COUNT⟩] }
/-- TCK_CLR_OVR (R41). -/
def R.TCK_CLR_OVR : RegDef :=
  { base := 0x100100, dims := [(32, 0x4)], bits := 32, fields := [⟨26, 16, .ro, F.TCK_CLR_OVR_RECENT⟩,
    ⟨15, 0, .rc, F.TCK_CLR_OVR_TOTAL⟩] }
/-- TCK_CLR_MAXCYC (R41). -/
def R.TCK_CLR_MAXCYC : RegDef :=
  { base := 0x100180, dims := [(32, 0x4)], bits := 32, fields := [⟨10, 0, .rc, F.TCK_CLR_MAXCYC_MAX⟩] }
/-- TCK_WND_OVR (R41). -/
def R.TCK_WND_OVR : RegDef :=
  { base := 0x100200, dims := [(8, 0x4)], bits := 32, fields := [⟨31, 16, .rc, F.TCK_WND_OVR_OBS⟩,
    ⟨15, 0, .rc, F.TCK_WND_OVR_STEP⟩] }
/-- LNK_LANE_CTL (R97). -/
def R.LNK_LANE_CTL : RegDef :=
  { base := 0x800000, dims := [(256, 0x400)], bits := 32, fields := [⟨1, 1, .rw, F.LNK_LANE_CTL_DIS⟩,
    ⟨0, 0, .rw, F.LNK_LANE_CTL_POL⟩] }
/-- LNK_LANE_STATUS (R97). -/
def R.LNK_LANE_STATUS : RegDef :=
  { base := 0x800004, dims := [(256, 0x400)], bits := 32, fields := [⟨31, 24, .ro, F.LNK_LANE_STATUS_SKEW⟩,
    ⟨5, 5, .ro, F.LNK_LANE_STATUS_MARKER_OK⟩,
    ⟨4, 4, .ro, F.LNK_LANE_STATUS_SIG_DET⟩,
    ⟨3, 3, .ro, F.LNK_LANE_STATUS_BLOCK_LOCK⟩,
    ⟨2, 0, .ro, F.LNK_LANE_STATUS_ROLE⟩] }
/-- LNK_LANE_ERR (R97). -/
def R.LNK_LANE_ERR : RegDef :=
  { base := 0x800008, dims := [(256, 0x400)], bits := 32, fields := [⟨31, 16, .rc, F.LNK_LANE_ERR_SH_ERR⟩,
    ⟨15, 0, .rc, F.LNK_LANE_ERR_MK_ERR⟩] }
/-- LNK_PRBS_CTL (R97). -/
def R.LNK_PRBS_CTL : RegDef :=
  { base := 0x800010, dims := [(256, 0x400)], bits := 32, fields := [⟨6, 6, .rw, F.LNK_PRBS_CTL_NEAR⟩,
    ⟨5, 5, .rw, F.LNK_PRBS_CTL_INV⟩,
    ⟨4, 2, .rw, F.LNK_PRBS_CTL_PAT⟩,
    ⟨1, 1, .rw, F.LNK_PRBS_CTL_CHK_EN⟩,
    ⟨0, 0, .rw, F.LNK_PRBS_CTL_GEN_EN⟩] }
/-- LNK_USER_PAT_LO (R97). -/
def R.LNK_USER_PAT_LO : RegDef :=
  { base := 0x800014, dims := [(256, 0x400)], bits := 32, fields := [⟨31, 0, .rw, F.LNK_USER_PAT_LO_PAT⟩] }
/-- LNK_USER_PAT_HI (R97). -/
def R.LNK_USER_PAT_HI : RegDef :=
  { base := 0x800018, dims := [(256, 0x400)], bits := 32, fields := [⟨31, 0, .rw, F.LNK_USER_PAT_HI_PAT⟩] }
/-- LNK_PRBS_ERR (R97). -/
def R.LNK_PRBS_ERR : RegDef :=
  { base := 0x80001C, dims := [(256, 0x400)], bits := 32, fields := [⟨31, 31, .ro, F.LNK_PRBS_ERR_LOCK⟩,
    ⟨30, 0, .rc, F.LNK_PRBS_ERR_COUNT⟩] }
/-- LNK_EYE_CTL (R97). -/
def R.LNK_EYE_CTL : RegDef :=
  { base := 0x800020, dims := [(256, 0x400)], bits := 32, fields := [⟨19, 16, .rw, F.LNK_EYE_CTL_DWELL⟩,
    ⟨13, 8, .rw, F.LNK_EYE_CTL_VOFS⟩,
    ⟨7, 2, .rw, F.LNK_EYE_CTL_HOFS⟩,
    ⟨0, 0, .wo, F.LNK_EYE_CTL_START⟩] }
/-- LNK_EYE_RESULT (R97). -/
def R.LNK_EYE_RESULT : RegDef :=
  { base := 0x800024, dims := [(256, 0x400)], bits := 32, fields := [⟨31, 31, .ro, F.LNK_EYE_RESULT_DONE⟩,
    ⟨23, 0, .ro, F.LNK_EYE_RESULT_ERRORS⟩] }
/-- LNK_HEAD_CTL (R97). -/
def R.LNK_HEAD_CTL : RegDef :=
  { base := 0x840000, dims := [(32, 0x400)], bits := 32, fields := [⟨2, 2, .rw, F.LNK_HEAD_CTL_RETRY_EN⟩,
    ⟨1, 1, .rw, F.LNK_HEAD_CTL_ROT_EN⟩,
    ⟨0, 0, .rw, F.LNK_HEAD_CTL_EN⟩] }
/-- LNK_HEAD_STATUS (R97). -/
def R.LNK_HEAD_STATUS : RegDef :=
  { base := 0x840004, dims := [(32, 0x400)], bits := 32, fields := [⟨31, 24, .ro, F.LNK_HEAD_STATUS_MARK⟩,
    ⟨21, 16, .ro, F.LNK_HEAD_STATUS_FAILED⟩,
    ⟨13, 8, .ro, F.LNK_HEAD_STATUS_ACTIVE⟩,
    ⟨6, 4, .ro, F.LNK_HEAD_STATUS_SPARE⟩,
    ⟨2, 0, .ro, F.LNK_HEAD_STATUS_STATE⟩] }
/-- LNK_ROT_CTL (R97). -/
def R.LNK_ROT_CTL : RegDef :=
  { base := 0x840008, dims := [(32, 0x400)], bits := 32, fields := [⟨31, 8, .rw, F.LNK_ROT_CTL_PERIOD⟩,
    ⟨7, 0, .rw, F.LNK_ROT_CTL_SOAK⟩] }
/-- LNK_TICK_LEAD (R97). -/
def R.LNK_TICK_LEAD : RegDef :=
  { base := 0x84000C, dims := [(32, 0x400)], bits := 32, fields := [⟨31, 31, .rw, F.LNK_TICK_LEAD_OVR⟩,
    ⟨26, 16, .ro, F.LNK_TICK_LEAD_RTT⟩,
    ⟨10, 0, .rw, F.LNK_TICK_LEAD_LEAD⟩] }
/-- LNK_FIFO_FLUSH (R97). -/
def R.LNK_FIFO_FLUSH : RegDef :=
  { base := 0x840010, dims := [(32, 0x400)], bits := 32, fields := [⟨5, 2, .wo, F.LNK_FIFO_FLUSH_RF⟩,
    ⟨1, 1, .wo, F.LNK_FIFO_FLUSH_STATUS⟩,
    ⟨0, 0, .wo, F.LNK_FIFO_FLUSH_SERVO⟩] }
/-- LNK_LATE (R97). -/
def R.LNK_LATE : RegDef :=
  { base := 0x840014, dims := [(32, 0x400)], bits := 32, fields := [⟨31, 0, .rc, F.LNK_LATE_COUNT⟩] }
/-- LNK_POISON (R97). -/
def R.LNK_POISON : RegDef :=
  { base := 0x840018, dims := [(32, 0x400)], bits := 32, fields := [⟨31, 0, .rc, F.LNK_POISON_COUNT⟩] }
/-- LNK_DROP (R97). -/
def R.LNK_DROP : RegDef :=
  { base := 0x84001C, dims := [(32, 0x400)], bits := 32, fields := [⟨31, 16, .rc, F.LNK_DROP_TRUNC⟩,
    ⟨15, 0, .rc, F.LNK_DROP_DROPS⟩] }
/-- LNK_HFE_STATUS (R97). -/
def R.LNK_HFE_STATUS : RegDef :=
  { base := 0x840020, dims := [(32, 0x400)], bits := 32, fields := [⟨31, 24, .ro, F.LNK_HFE_STATUS_FAULT⟩,
    ⟨23, 23, .ro, F.LNK_HFE_STATUS_DLOCK0⟩,
    ⟨22, 22, .ro, F.LNK_HFE_STATUS_DLOCK1⟩,
    ⟨21, 16, .ro, F.LNK_HFE_STATUS_DCRC⟩,
    ⟨15, 0, .ro, F.LNK_HFE_STATUS_DRV_TAG⟩] }
/-- LNK_HFE_CMD (R97). -/
def R.LNK_HFE_CMD : RegDef :=
  { base := 0x840024, dims := [(32, 0x400)], bits := 32, fields := [⟨31, 31, .ro, F.LNK_HFE_CMD_BUSY⟩,
    ⟨30, 30, .ro, F.LNK_HFE_CMD_TIMEOUT⟩,
    ⟨23, 16, .rw, F.LNK_HFE_CMD_OP⟩,
    ⟨15, 8, .ro, F.LNK_HFE_CMD_RESULT⟩,
    ⟨6, 4, .rw, F.LNK_HFE_CMD_PAT⟩,
    ⟨3, 3, .wo, F.LNK_HFE_CMD_GO⟩,
    ⟨2, 0, .rw, F.LNK_HFE_CMD_LANE⟩] }
/-- LNK_EVT (R97). -/
def R.LNK_EVT : RegDef :=
  { base := 0x850000, dims := [], bits := 32, fields := [⟨13, 13, .rw1c, F.LNK_EVT_CFG_REJECT⟩,
    ⟨12, 12, .rw1c, F.LNK_EVT_CMD_TIMEOUT⟩,
    ⟨11, 11, .rw1c, F.LNK_EVT_TRAIN_FAIL⟩,
    ⟨10, 10, .rw1c, F.LNK_EVT_HFE_FAULT⟩,
    ⟨9, 9, .rw1c, F.LNK_EVT_DOWN_LOST⟩,
    ⟨8, 8, .rw1c, F.LNK_EVT_LINK_LOST⟩,
    ⟨7, 7, .rw1c, F.LNK_EVT_LANE_RESTORED⟩,
    ⟨6, 6, .rw1c, F.LNK_EVT_LANE_FAIL⟩,
    ⟨5, 5, .rw1c, F.LNK_EVT_MAP_ERR⟩,
    ⟨4, 4, .rw1c, F.LNK_EVT_ROT_CANCEL⟩,
    ⟨3, 3, .rw1c, F.LNK_EVT_DROP⟩,
    ⟨2, 2, .rw1c, F.LNK_EVT_FLUSH_TRUNC⟩,
    ⟨1, 1, .rw1c, F.LNK_EVT_POISON⟩,
    ⟨0, 0, .rw1c, F.LNK_EVT_LATE_WORD⟩] }
/-- LNK_EVT_MASK (R97). -/
def R.LNK_EVT_MASK : RegDef :=
  { base := 0x850004, dims := [], bits := 32, fields := [⟨13, 0, .rw, F.LNK_EVT_MASK_MASK⟩] }
/-- LNK_EVT_FORCE (R97). -/
def R.LNK_EVT_FORCE : RegDef :=
  { base := 0x850008, dims := [], bits := 32, fields := [⟨13, 0, .wo, F.LNK_EVT_FORCED⟩] }
/-- LNK_EVT_HEADS (R97). -/
def R.LNK_EVT_HEADS : RegDef :=
  { base := 0x85000C, dims := [], bits := 32, fields := [⟨31, 0, .rw1c, F.LNK_EVT_HEADS_HEAD⟩] }
/-- CLR_CTL (R124). -/
def R.CLR_CTL : RegDef :=
  { base := 0x400000, dims := [(32, 0x10000)], bits := 32, fields := [⟨15, 15, .wo, F.CLR_CTL_FAULT_RST⟩,
    ⟨7, 7, .rw, F.CLR_CTL_WG_EN⟩,
    ⟨6, 6, .rw, F.CLR_CTL_NFF_EN⟩,
    ⟨5, 5, .rw, F.CLR_CTL_RP_EN⟩,
    ⟨4, 4, .rw, F.CLR_CTL_SF_EN⟩,
    ⟨2, 1, .rw, F.CLR_CTL_LRN_INJ⟩,
    ⟨0, 0, .rw, F.CLR_CTL_EN⟩] }
/-- CLR_STATUS (R124). -/
def R.CLR_STATUS : RegDef :=
  { base := 0x400004, dims := [(32, 0x10000)], bits := 32, fields := [⟨31, 28, .ro, F.CLR_STATUS_STATE⟩,
    ⟨27, 27, .ro, F.CLR_STATUS_TRK_VALID⟩,
    ⟨26, 26, .ro, F.CLR_STATUS_TF⟩,
    ⟨25, 25, .ro, F.CLR_STATUS_PERMIT⟩,
    ⟨24, 24, .ro, F.CLR_STATUS_FOCUS_OK⟩,
    ⟨23, 23, .ro, F.CLR_STATUS_SLEWING⟩,
    ⟨22, 22, .ro, F.CLR_STATUS_HOLD_OVR⟩,
    ⟨21, 21, .ro, F.CLR_STATUS_COMMIT_PEND⟩,
    ⟨11, 8, .ro, F.CLR_STATUS_PHASE⟩] }
/-- CLR_POS (R124). -/
def R.CLR_POS : RegDef :=
  { base := 0x400008, dims := [(32, 0x10000)], bits := 32, fields := [⟨31, 31, .ro, F.CLR_POS_EST⟩,
    ⟨30, 26, .ro, F.CLR_POS_ZONE⟩,
    ⟨25, 22, .ro, F.CLR_POS_LAYER⟩,
    ⟨17, 0, .ro, F.CLR_POS_TRACK⟩] }
/-- CLR_OFFTRACK (R124). -/
def R.CLR_OFFTRACK : RegDef :=
  { base := 0x40000C, dims := [(32, 0x10000)], bits := 32, fields := [⟨31, 16, .rc, F.CLR_OFFTRACK_MAX⟩,
    ⟨15, 0, .ro, F.CLR_OFFTRACK_OT⟩] }
/-- CLR_EVT (R124). -/
def R.CLR_EVT : RegDef :=
  { base := 0x400010, dims := [(32, 0x10000)], bits := 32, fields := [⟨11, 11, .rw1c, F.CLR_EVT_CFG_REJECT⟩,
    ⟨10, 10, .rw1c, F.CLR_EVT_FOCUS_REPEAT⟩,
    ⟨9, 9, .rw1c, F.CLR_EVT_HOLD_TIMEOUT⟩,
    ⟨8, 8, .rw1c, F.CLR_EVT_RP_LIMIT⟩,
    ⟨7, 7, .rw1c, F.CLR_EVT_SF_LIMIT⟩,
    ⟨6, 6, .rw1c, F.CLR_EVT_LAYER_FAIL⟩,
    ⟨5, 5, .rw1c, F.CLR_EVT_SEEK_FAIL⟩,
    ⟨4, 4, .rw1c, F.CLR_EVT_ACQ_FAIL⟩,
    ⟨3, 3, .rw1c, F.CLR_EVT_FOCUS_LOST⟩,
    ⟨2, 2, .rw1c, F.CLR_EVT_TRACK_SLIP⟩,
    ⟨1, 1, .rw1c, F.CLR_EVT_SHOCK⟩,
    ⟨0, 0, .rw1c, F.CLR_EVT_SAT⟩] }
/-- CLR_EVT_MASK (R124). -/
def R.CLR_EVT_MASK : RegDef :=
  { base := 0x400014, dims := [(32, 0x10000)], bits := 32, fields := [⟨11, 0, .rw, F.CLR_EVT_MASK_MASK⟩] }
/-- CLR_EVT_FORCE (R124). -/
def R.CLR_EVT_FORCE : RegDef :=
  { base := 0x400018, dims := [(32, 0x10000)], bits := 32, fields := [⟨11, 0, .wo, F.CLR_EVT_FORCED⟩] }
/-- CLR_SAT (R124). -/
def R.CLR_SAT : RegDef :=
  { base := 0x400020, dims := [(32, 0x10000)], bits := 32, fields := [⟨24, 24, .rw1c, F.CLR_SAT_NFF⟩,
    ⟨22, 16, .rw1c, F.CLR_SAT_LOOP2⟩,
    ⟨14, 8, .rw1c, F.CLR_SAT_LOOP1⟩,
    ⟨6, 0, .rw1c, F.CLR_SAT_LOOP0⟩] }
/-- CLR_COEF_COMMIT (R124). -/
def R.CLR_COEF_COMMIT : RegDef :=
  { base := 0x400024, dims := [(32, 0x10000)], bits := 32, fields := [⟨2, 2, .ro, F.CLR_COEF_COMMIT_PEND⟩,
    ⟨1, 1, .wo, F.CLR_COEF_COMMIT_ZERO_STATE⟩,
    ⟨0, 0, .wo, F.CLR_COEF_COMMIT_GO⟩] }
/-- CLR_LOOP_CTL (R124). -/
def R.CLR_LOOP_CTL : RegDef :=
  { base := 0x400100, dims := [(32, 0x10000), (3, 0x20)], bits := 32, fields := [⟨31, 31, .ro, F.CLR_LOOP_CTL_PLACED⟩,
    ⟨30, 27, .ro, F.CLR_LOOP_CTL_NSOS⟩,
    ⟨26, 23, .ro, F.CLR_LOOP_CTL_INT_TAP⟩,
    ⟨22, 19, .ro, F.CLR_LOOP_CTL_SRC⟩,
    ⟨1, 1, .rw, F.CLR_LOOP_CTL_INT_EN⟩,
    ⟨0, 0, .ro, F.CLR_LOOP_CTL_CLOSED⟩] }
/-- CLR_SP (R124). -/
def R.CLR_SP : RegDef :=
  { base := 0x400104, dims := [(32, 0x10000), (3, 0x20)], bits := 32, fields := [⟨23, 0, .rw, F.CLR_SP_TARGET⟩] }
/-- CLR_SP_SLEW (R124). -/
def R.CLR_SP_SLEW : RegDef :=
  { base := 0x400108, dims := [(32, 0x10000), (3, 0x20)], bits := 32, fields := [⟨22, 0, .rw, F.CLR_SP_SLEW_SLEW⟩] }
/-- CLR_IN_GAIN (R124). -/
def R.CLR_IN_GAIN : RegDef :=
  { base := 0x40010C, dims := [(32, 0x10000), (3, 0x20)], bits := 32, fields := [⟨23, 0, .rw, F.CLR_IN_GAIN_GAIN⟩] }
/-- CLR_INT_KI (R124). -/
def R.CLR_INT_KI : RegDef :=
  { base := 0x400110, dims := [(32, 0x10000), (3, 0x20)], bits := 32, fields := [⟨23, 0, .rw, F.CLR_INT_KI_KI⟩] }
/-- CLR_INT_LIM (R124). -/
def R.CLR_INT_LIM : RegDef :=
  { base := 0x400114, dims := [(32, 0x10000), (3, 0x20)], bits := 32, fields := [⟨22, 0, .rw, F.CLR_INT_LIM_LIM⟩] }
/-- CLR_OUT_LIM (R124). -/
def R.CLR_OUT_LIM : RegDef :=
  { base := 0x400118, dims := [(32, 0x10000), (3, 0x20)], bits := 32, fields := [⟨22, 0, .rw, F.CLR_OUT_LIM_LIM⟩] }
/-- CLR_OUT (R124). -/
def R.CLR_OUT : RegDef :=
  { base := 0x40011C, dims := [(32, 0x10000), (3, 0x20)], bits := 32, fields := [⟨23, 0, .ro, F.CLR_OUT_U⟩] }
/-- CLR_SF_CTL (R124). -/
def R.CLR_SF_CTL : RegDef :=
  { base := 0x400200, dims := [(32, 0x10000)], bits := 32, fields := [⟨31, 24, .rw, F.CLR_SF_CTL_BAND⟩,
    ⟨23, 16, .rw, F.CLR_SF_CTL_REARM⟩,
    ⟨15, 8, .rw, F.CLR_SF_CTL_HARD⟩,
    ⟨7, 0, .rw, F.CLR_SF_CTL_DWELL⟩] }
/-- CLR_SF_STATUS (R124). -/
def R.CLR_SF_STATUS : RegDef :=
  { base := 0x400204, dims := [(32, 0x10000)], bits := 32, fields := [⟨31, 16, .ro, F.CLR_SF_STATUS_LO⟩,
    ⟨15, 0, .rc, F.CLR_SF_STATUS_STEPS⟩] }
/-- CLR_SF_FILT (R124). -/
def R.CLR_SF_FILT : RegDef :=
  { base := 0x400208, dims := [(32, 0x10000)], bits := 32, fields := [⟨3, 0, .rw, F.CLR_SF_FILT_SHIFT⟩] }
/-- CLR_RP_CTL (R124). -/
def R.CLR_RP_CTL : RegDef :=
  { base := 0x400210, dims := [(32, 0x10000)], bits := 32, fields := [⟨31, 16, .rw, F.CLR_RP_CTL_TARGET⟩,
    ⟨15, 8, .rw, F.CLR_RP_CTL_BAND⟩,
    ⟨7, 0, .rw, F.CLR_RP_CTL_DIV⟩] }
/-- CLR_RP_LIM (R124). -/
def R.CLR_RP_LIM : RegDef :=
  { base := 0x400214, dims := [(32, 0x10000)], bits := 32, fields := [⟨29, 20, .rw, F.CLR_RP_LIM_START⟩,
    ⟨19, 10, .rw, F.CLR_RP_LIM_MAX⟩,
    ⟨9, 0, .rw, F.CLR_RP_LIM_MIN⟩] }
/-- CLR_RP_STATUS (R124). -/
def R.CLR_RP_STATUS : RegDef :=
  { base := 0x400218, dims := [(32, 0x10000)], bits := 32, fields := [⟨25, 16, .ro, F.CLR_RP_STATUS_CODE⟩,
    ⟨7, 0, .ro, F.CLR_RP_STATUS_ATLIM⟩] }
/-- CLR_NFF_K (R124). -/
def R.CLR_NFF_K : RegDef :=
  { base := 0x400220, dims := [(32, 0x10000), (4, 0x4)], bits := 32, fields := [⟨23, 0, .rw, F.CLR_NFF_K_K⟩] }
/-- CLR_FA_CTL (R124). -/
def R.CLR_FA_CTL : RegDef :=
  { base := 0x400300, dims := [(32, 0x10000)], bits := 32, fields := [⟨31, 16, .rw, F.CLR_FA_CTL_AMP⟩,
    ⟨15, 4, .rw, F.CLR_FA_CTL_STEP⟩,
    ⟨3, 0, .rw, F.CLR_FA_CTL_TRIES⟩] }
/-- CLR_FA_TH (R124). -/
def R.CLR_FA_TH : RegDef :=
  { base := 0x400304, dims := [(32, 0x10000)], bits := 32, fields := [⟨31, 16, .rw, F.CLR_FA_TH_SUM_TH⟩,
    ⟨15, 0, .rw, F.CLR_FA_TH_FE_TH⟩] }
/-- CLR_FOCUS_TH (R124). -/
def R.CLR_FOCUS_TH : RegDef :=
  { base := 0x400308, dims := [(32, 0x10000)], bits := 32, fields := [⟨31, 16, .rw, F.CLR_FOCUS_TH_FE_OK⟩,
    ⟨15, 0, .rw, F.CLR_FOCUS_TH_SUM_LOST⟩] }
/-- CLR_JUMP_CTL (R124). -/
def R.CLR_JUMP_CTL : RegDef :=
  { base := 0x40030C, dims := [(32, 0x10000)], bits := 32, fields := [⟨31, 16, .rw, F.CLR_JUMP_CTL_KICK⟩,
    ⟨15, 8, .rw, F.CLR_JUMP_CTL_JUMP_MAX⟩,
    ⟨7, 0, .rw, F.CLR_JUMP_CTL_TMO⟩] }
/-- CLR_LAYER_CTL (R124). -/
def R.CLR_LAYER_CTL : RegDef :=
  { base := 0x400310, dims := [(32, 0x10000)], bits := 32, fields := [⟨31, 16, .rw, F.CLR_LAYER_CTL_KICK⟩,
    ⟨15, 8, .rw, F.CLR_LAYER_CTL_KT⟩,
    ⟨7, 0, .rw, F.CLR_LAYER_CTL_TMO⟩] }
/-- CLR_TRACK_TH (R124). -/
def R.CLR_TRACK_TH : RegDef :=
  { base := 0x400314, dims := [(32, 0x10000)], bits := 32, fields := [⟨31, 16, .rw, F.CLR_TRACK_TH_TF_BAND⟩,
    ⟨15, 0, .rw, F.CLR_TRACK_TH_WG_BAND⟩] }
/-- CLR_SHOCK_TH (R124). -/
def R.CLR_SHOCK_TH : RegDef :=
  { base := 0x400318, dims := [(32, 0x10000)], bits := 32, fields := [⟨31, 16, .rw, F.CLR_SHOCK_TH_SHOCK_OT⟩,
    ⟨15, 0, .rw, F.CLR_SHOCK_TH_SHOCK_FE⟩] }
/-- CLR_HOLD_CTL (R124). -/
def R.CLR_HOLD_CTL : RegDef :=
  { base := 0x40031C, dims := [(32, 0x10000)], bits := 32, fields := [⟨31, 12, .rw, F.CLR_HOLD_CTL_MAX⟩,
    ⟨11, 0, .rw, F.CLR_HOLD_CTL_MIN⟩] }
/-- CLR_COEF (R124). -/
def R.CLR_COEF : RegDef :=
  { base := 0x408000, dims := [(32, 0x10000), (185, 0x8)], bits := 64, fields := [⟨23, 0, .rw, F.CLR_COEF_COEF⟩] }
/-- CLR_COEF_LIVE (R124). -/
def R.CLR_COEF_LIVE : RegDef :=
  { base := 0x40A000, dims := [(32, 0x10000), (185, 0x8)], bits := 64, fields := [⟨23, 0, .ro, F.CLR_COEF_LIVE_COEF⟩] }
/-- LRN_CTL (R146). -/
def R.LRN_CTL : RegDef :=
  { base := 0x40C000, dims := [(32, 0x10000)], bits := 32, fields := [⟨31, 24, .rw, F.LRN_CTL_SEED_MIN⟩,
    ⟨23, 16, .rw, F.LRN_CTL_SETTLE⟩,
    ⟨15, 8, .rw, F.LRN_CTL_FADE⟩,
    ⟨5, 4, .wo, F.LRN_CTL_CLEAR⟩,
    ⟨2, 2, .rw, F.LRN_CTL_SEED_EN⟩,
    ⟨1, 0, .rw, F.LRN_CTL_LEARN⟩] }
/-- LRN_STATUS (R146). -/
def R.LRN_STATUS : RegDef :=
  { base := 0x40C004, dims := [(32, 0x10000)], bits := 32, fields := [⟨31, 30, .ro, F.LRN_STATUS_SEEDING⟩,
    ⟨29, 28, .ro, F.LRN_STATUS_FROZEN⟩,
    ⟨27, 27, .ro, F.LRN_STATUS_XTRAP⟩,
    ⟨15, 0, .ro, F.LRN_STATUS_PSI⟩] }
/-- LRN_MOUNT (R146). -/
def R.LRN_MOUNT : RegDef :=
  { base := 0x40C008, dims := [(32, 0x10000)], bits := 32, fields := [⟨15, 0, .ro, F.LRN_MOUNT_MOUNT⟩] }
/-- LRN_SEED (R146). -/
def R.LRN_SEED : RegDef :=
  { base := 0x40C00C, dims := [(32, 0x10000)], bits := 32, fields := [⟨31, 31, .ro, F.LRN_SEED_BUSY⟩,
    ⟨3, 2, .wo, F.LRN_SEED_LOOPS⟩,
    ⟨0, 0, .wo, F.LRN_SEED_GO⟩] }
/-- LRN_EVT (R146). -/
def R.LRN_EVT : RegDef :=
  { base := 0x40C010, dims := [(32, 0x10000)], bits := 32, fields := [⟨6, 6, .rw1c, F.LRN_EVT_CFG_REJECT⟩,
    ⟨5, 5, .rw1c, F.LRN_EVT_ECC⟩,
    ⟨4, 4, .rw1c, F.LRN_EVT_ANGLE_FADE⟩,
    ⟨3, 3, .rw1c, F.LRN_EVT_CLEARED⟩,
    ⟨2, 2, .rw1c, F.LRN_EVT_SEED_REFUSED⟩,
    ⟨1, 1, .rw1c, F.LRN_EVT_SEED_DONE⟩,
    ⟨0, 0, .rw1c, F.LRN_EVT_SAT⟩] }
/-- LRN_EVT_MASK (R146). -/
def R.LRN_EVT_MASK : RegDef :=
  { base := 0x40C014, dims := [(32, 0x10000)], bits := 32, fields := [⟨6, 0, .rw, F.LRN_EVT_MASK_MASK⟩] }
/-- LRN_EVT_FORCE (R146). -/
def R.LRN_EVT_FORCE : RegDef :=
  { base := 0x40C018, dims := [(32, 0x10000)], bits := 32, fields := [⟨6, 0, .wo, F.LRN_EVT_FORCED⟩] }
/-- LRN_DEF_CTL (R146). -/
def R.LRN_DEF_CTL : RegDef :=
  { base := 0x40C020, dims := [(32, 0x10000)], bits := 32, fields := [⟨23, 16, .rw, F.LRN_DEF_CTL_DEF_TH⟩,
    ⟨11, 8, .rw, F.LRN_DEF_CTL_PRE⟩,
    ⟨7, 0, .rw, F.LRN_DEF_CTL_POST⟩] }
/-- LRN_SPD_CTL (R146). -/
def R.LRN_SPD_CTL : RegDef :=
  { base := 0x40C024, dims := [(32, 0x10000)], bits := 32, fields := [⟨31, 16, .rw, F.LRN_SPD_CTL_REF_RPM⟩,
    ⟨3, 2, .rw, F.LRN_SPD_CTL_SPD_EXP_T⟩,
    ⟨1, 0, .rw, F.LRN_SPD_CTL_SPD_EXP_F⟩] }
/-- LRN_GAIN (R146). -/
def R.LRN_GAIN : RegDef :=
  { base := 0x40C040, dims := [(32, 0x10000), (2, 0x10)], bits := 32, fields := [⟨31, 16, .rw, F.LRN_GAIN_MU⟩,
    ⟨12, 8, .rw, F.LRN_GAIN_FSHIFT⟩,
    ⟨5, 0, .rw, F.LRN_GAIN_LEAD⟩] }
/-- LRN_LOOP_STATUS (R146). -/
def R.LRN_LOOP_STATUS : RegDef :=
  { base := 0x40C044, dims := [(32, 0x10000), (2, 0x10)], bits := 32, fields := [⟨31, 24, .ro, F.LRN_LOOP_STATUS_REVS⟩,
    ⟨23, 23, .ro, F.LRN_LOOP_STATUS_EMPTY⟩,
    ⟨22, 22, .ro, F.LRN_LOOP_STATUS_SEEDED⟩,
    ⟨21, 21, .rw1c, F.LRN_LOOP_STATUS_SAT⟩,
    ⟨15, 0, .ro, F.LRN_LOOP_STATUS_RESID⟩] }
/-- LRN_INJ (R146). -/
def R.LRN_INJ : RegDef :=
  { base := 0x40C048, dims := [(32, 0x10000), (2, 0x10)], bits := 32, fields := [⟨23, 0, .ro, F.LRN_INJ_LRN⟩] }
/-- SLD_CTL (R161). -/
def R.SLD_CTL : RegDef :=
  { base := 0x700000, dims := [(32, 0x1000)], bits := 32, fields := [⟨7, 6, .rw, F.SLD_CTL_STILL⟩,
    ⟨5, 5, .rw, F.SLD_CTL_PROFILE⟩,
    ⟨4, 4, .rw, F.SLD_CTL_NO_OVERSHOOT⟩,
    ⟨3, 3, .wo, F.SLD_CTL_STOP⟩,
    ⟨2, 2, .wo, F.SLD_CTL_PARK⟩,
    ⟨1, 1, .wo, F.SLD_CTL_HOME⟩,
    ⟨0, 0, .rw, F.SLD_CTL_EN⟩] }
/-- SLD_STATUS (R161). -/
def R.SLD_STATUS : RegDef :=
  { base := 0x700004, dims := [(32, 0x1000)], bits := 32, fields := [⟨31, 29, .ro, F.SLD_STATUS_STATE⟩,
    ⟨28, 26, .ro, F.SLD_STATUS_PHASE⟩,
    ⟨25, 25, .ro, F.SLD_STATUS_HOMED⟩,
    ⟨24, 24, .ro, F.SLD_STATUS_PEND⟩,
    ⟨23, 23, .ro, F.SLD_STATUS_SWITCH⟩,
    ⟨22, 22, .ro, F.SLD_STATUS_RAW⟩] }
/-- SLD_GEOM (R161). -/
def R.SLD_GEOM : RegDef :=
  { base := 0x700008, dims := [(32, 0x1000)], bits := 32, fields := [⟨31, 31, .ro, F.SLD_GEOM_HOME_DIR⟩,
    ⟨30, 28, .ro, F.SLD_GEOM_GROUP⟩,
    ⟨27, 26, .ro, F.SLD_GEOM_MICRO⟩,
    ⟨19, 0, .ro, F.SLD_GEOM_STEP_PM⟩] }
/-- SLD_AHARD (R161). -/
def R.SLD_AHARD : RegDef :=
  { base := 0x70000C, dims := [(32, 0x1000)], bits := 32, fields := [⟨23, 0, .ro, F.SLD_AHARD_AHARD⟩] }
/-- SLD_TARGET (R161). -/
def R.SLD_TARGET : RegDef :=
  { base := 0x700010, dims := [(32, 0x1000)], bits := 32, fields := [⟨31, 0, .rw, F.SLD_TARGET_X⟩] }
/-- SLD_POS (R161). -/
def R.SLD_POS : RegDef :=
  { base := 0x700014, dims := [(32, 0x1000)], bits := 32, fields := [⟨31, 0, .ro, F.SLD_POS_P⟩] }
/-- SLD_VEL (R161). -/
def R.SLD_VEL : RegDef :=
  { base := 0x700018, dims := [(32, 0x1000)], bits := 32, fields := [⟨31, 0, .ro, F.SLD_VEL_V⟩] }
/-- SLD_ACC (R161). -/
def R.SLD_ACC : RegDef :=
  { base := 0x70001C, dims := [(32, 0x1000)], bits := 32, fields := [⟨23, 0, .ro, F.SLD_ACC_A⟩] }
/-- SLD_VMAX (R161). -/
def R.SLD_VMAX : RegDef :=
  { base := 0x700020, dims := [(32, 0x1000)], bits := 32, fields := [⟨15, 0, .rw, F.SLD_VMAX_VMAX⟩] }
/-- SLD_AMAX (R161). -/
def R.SLD_AMAX : RegDef :=
  { base := 0x700024, dims := [(32, 0x1000)], bits := 32, fields := [⟨23, 0, .rw, F.SLD_AMAX_AMAX⟩] }
/-- SLD_DMAX (R161). -/
def R.SLD_DMAX : RegDef :=
  { base := 0x700028, dims := [(32, 0x1000)], bits := 32, fields := [⟨23, 0, .rw, F.SLD_DMAX_DMAX⟩] }
/-- SLD_JMAX (R161). -/
def R.SLD_JMAX : RegDef :=
  { base := 0x70002C, dims := [(32, 0x1000)], bits := 32, fields := [⟨23, 0, .rw, F.SLD_JMAX_JMAX⟩] }
/-- SLD_SOFT_MIN (R161). -/
def R.SLD_SOFT_MIN : RegDef :=
  { base := 0x700030, dims := [(32, 0x1000)], bits := 32, fields := [⟨31, 0, .rw, F.SLD_SOFT_MIN_POS⟩] }
/-- SLD_SOFT_MAX (R161). -/
def R.SLD_SOFT_MAX : RegDef :=
  { base := 0x700034, dims := [(32, 0x1000)], bits := 32, fields := [⟨31, 0, .rw, F.SLD_SOFT_MAX_POS⟩] }
/-- SLD_PARK (R161). -/
def R.SLD_PARK : RegDef :=
  { base := 0x700038, dims := [(32, 0x1000)], bits := 32, fields := [⟨31, 0, .rw, F.SLD_PARK_POS⟩] }
/-- SLD_FOLLOW (R161). -/
def R.SLD_FOLLOW : RegDef :=
  { base := 0x70003C, dims := [(32, 0x1000)], bits := 32, fields := [⟨31, 24, .rw, F.SLD_FOLLOW_STEPS⟩,
    ⟨23, 12, .rc, F.SLD_FOLLOW_DISCARDS⟩,
    ⟨11, 0, .rc, F.SLD_FOLLOW_DONE⟩] }
/-- SLD_CUR (R161). -/
def R.SLD_CUR : RegDef :=
  { base := 0x700040, dims := [(32, 0x1000)], bits := 32, fields := [⟨31, 20, .rw, F.SLD_CUR_RUN⟩,
    ⟨19, 8, .rw, F.SLD_CUR_HOLD⟩,
    ⟨7, 0, .rw, F.SLD_CUR_DELAY⟩] }
/-- SLD_HOME_CTL (R161). -/
def R.SLD_HOME_CTL : RegDef :=
  { base := 0x700044, dims := [(32, 0x1000)], bits := 32, fields := [⟨31, 24, .rw, F.SLD_HOME_CTL_DEB⟩,
    ⟨23, 8, .rw, F.SLD_HOME_CTL_HOME_V⟩,
    ⟨0, 0, .rw, F.SLD_HOME_CTL_POL⟩] }
/-- SLD_HOME_RANGE (R161). -/
def R.SLD_HOME_RANGE : RegDef :=
  { base := 0x700048, dims := [(32, 0x1000)], bits := 32, fields := [⟨31, 0, .rw, F.SLD_HOME_RANGE_STEPS⟩] }
/-- SLD_HOME_TMO (R161). -/
def R.SLD_HOME_TMO : RegDef :=
  { base := 0x70004C, dims := [(32, 0x1000)], bits := 32, fields := [⟨15, 0, .rw, F.SLD_HOME_TMO_TMO⟩] }
/-- SLD_HOME_POS (R161). -/
def R.SLD_HOME_POS : RegDef :=
  { base := 0x700050, dims := [(32, 0x1000)], bits := 32, fields := [⟨31, 0, .rw, F.SLD_HOME_POS_POS⟩] }
/-- SLD_HOME_STATUS (R161). -/
def R.SLD_HOME_STATUS : RegDef :=
  { base := 0x700054, dims := [(32, 0x1000)], bits := 32, fields := [⟨31, 24, .rc, F.SLD_HOME_STATUS_TRANS⟩,
    ⟨23, 0, .ro, F.SLD_HOME_STATUS_TRAVEL⟩] }
/-- SLD_EVT (R161). -/
def R.SLD_EVT : RegDef :=
  { base := 0x700060, dims := [(32, 0x1000)], bits := 32, fields := [⟨9, 9, .rw1c, F.SLD_EVT_CFG_REJECT⟩,
    ⟨8, 8, .rw1c, F.SLD_EVT_HOME_CHATTER⟩,
    ⟨7, 7, .rw1c, F.SLD_EVT_HOME_FAIL⟩,
    ⟨6, 6, .rw1c, F.SLD_EVT_HOME_DONE⟩,
    ⟨5, 5, .rw1c, F.SLD_EVT_LIMIT_HIT⟩,
    ⟨4, 4, .rw1c, F.SLD_EVT_DECEL_LIMIT⟩,
    ⟨3, 3, .rw1c, F.SLD_EVT_DECEL_RAISED⟩,
    ⟨2, 2, .rw1c, F.SLD_EVT_OVERSHOOT⟩,
    ⟨1, 1, .rw1c, F.SLD_EVT_SOFT_LIMIT⟩,
    ⟨0, 0, .rw1c, F.SLD_EVT_FOLLOW_DISCARD⟩] }
/-- SLD_EVT_MASK (R161). -/
def R.SLD_EVT_MASK : RegDef :=
  { base := 0x700064, dims := [(32, 0x1000)], bits := 32, fields := [⟨9, 0, .rw, F.SLD_EVT_MASK_MASK⟩] }
/-- SLD_EVT_FORCE (R161). -/
def R.SLD_EVT_FORCE : RegDef :=
  { base := 0x700068, dims := [(32, 0x1000)], bits := 32, fields := [⟨9, 0, .wo, F.SLD_EVT_FORCED⟩] }
/-- SLD_GROUP_GO (R161). -/
def R.SLD_GROUP_GO : RegDef :=
  { base := 0x720000, dims := [], bits := 32, fields := [⟨7, 1, .wo, F.SLD_GROUP_GO_GO⟩] }
/-- SLD_EVT_AXES (R161). -/
def R.SLD_EVT_AXES : RegDef :=
  { base := 0x720004, dims := [], bits := 32, fields := [⟨31, 0, .rw1c, F.SLD_EVT_AXES_AXIS⟩] }
/-- WND_CTL (R187). -/
def R.WND_CTL : RegDef :=
  { base := 0x600000, dims := [(8, 0x10000)], bits := 32, fields := [⟨5, 4, .rw, F.WND_CTL_PAIR_SRC⟩,
    ⟨3, 3, .rw, F.WND_CTL_CHOP_EN⟩,
    ⟨2, 2, .rw, F.WND_CTL_DECOUPLE⟩,
    ⟨1, 1, .rw, F.WND_CTL_DTC⟩,
    ⟨0, 0, .rw, F.WND_CTL_EN⟩] }
/-- WND_STATUS (R187). -/
def R.WND_STATUS : RegDef :=
  { base := 0x600004, dims := [(8, 0x10000)], bits := 32, fields := [⟨31, 29, .ro, F.WND_STATUS_STATE⟩,
    ⟨28, 26, .ro, F.WND_STATUS_PHASE⟩,
    ⟨25, 25, .ro, F.WND_STATUS_ANGLE_VALID⟩,
    ⟨24, 24, .ro, F.WND_STATUS_LOCKED⟩,
    ⟨23, 22, .ro, F.WND_STATUS_REF⟩,
    ⟨21, 21, .ro, F.WND_STATUS_AT_SPEED⟩,
    ⟨20, 20, .ro, F.WND_STATUS_CHOP_ON⟩,
    ⟨19, 19, .ro, F.WND_STATUS_SHORT⟩,
    ⟨18, 18, .ro, F.WND_STATUS_PAIR_LOCK⟩,
    ⟨17, 17, .ro, F.WND_STATUS_REVERSE⟩,
    ⟨16, 16, .ro, F.WND_STATUS_AT_REST⟩,
    ⟨2, 0, .ro, F.WND_STATUS_SECTOR⟩] }
/-- WND_CMD (R187). -/
def R.WND_CMD : RegDef :=
  { base := 0x600008, dims := [(8, 0x10000)], bits := 32, fields := [⟨4, 4, .wo, F.WND_CMD_FAULT_RST⟩,
    ⟨3, 3, .wo, F.WND_CMD_UNLOAD⟩,
    ⟨2, 2, .wo, F.WND_CMD_STOP⟩,
    ⟨1, 1, .wo, F.WND_CMD_START⟩,
    ⟨0, 0, .wo, F.WND_CMD_LOAD⟩] }
/-- WND_MOTOR (R187). -/
def R.WND_MOTOR : RegDef :=
  { base := 0x60000C, dims := [(8, 0x10000)], bits := 32, fields := [⟨31, 31, .ro, F.WND_MOTOR_CLASS⟩,
    ⟨30, 27, .ro, F.WND_MOTOR_P⟩,
    ⟨26, 14, .ro, F.WND_MOTOR_SPD_MIN⟩,
    ⟨13, 1, .ro, F.WND_MOTOR_SPD_MAX⟩] }
/-- WND_EVT (R187). -/
def R.WND_EVT : RegDef :=
  { base := 0x600010, dims := [(8, 0x10000)], bits := 32, fields := [⟨14, 14, .rw1c, F.WND_EVT_DRV_FAULT⟩,
    ⟨13, 13, .rw1c, F.WND_EVT_OVERCURRENT⟩,
    ⟨12, 12, .rw1c, F.WND_EVT_OVERVOLT⟩,
    ⟨11, 11, .rw1c, F.WND_EVT_CHOP_FAULT⟩,
    ⟨10, 10, .rw1c, F.WND_EVT_LOS_REPEAT⟩,
    ⟨9, 9, .rw1c, F.WND_EVT_SPIN_FAIL⟩,
    ⟨8, 8, .rw1c, F.WND_EVT_CFG_REJECT⟩,
    ⟨7, 7, .rw1c, F.WND_EVT_PAIR⟩,
    ⟨6, 6, .rw1c, F.WND_EVT_VSAT⟩,
    ⟨5, 5, .rw1c, F.WND_EVT_REGEN_LIMIT⟩,
    ⟨4, 4, .rw1c, F.WND_EVT_LOS⟩,
    ⟨3, 3, .rw1c, F.WND_EVT_REF_JUMP⟩,
    ⟨2, 2, .rw1c, F.WND_EVT_REF_STEP⟩,
    ⟨1, 1, .rw1c, F.WND_EVT_STOPPED⟩,
    ⟨0, 0, .rw1c, F.WND_EVT_READY⟩] }
/-- WND_EVT_MASK (R187). -/
def R.WND_EVT_MASK : RegDef :=
  { base := 0x600014, dims := [(8, 0x10000)], bits := 32, fields := [⟨14, 0, .rw, F.WND_EVT_MASK_MASK⟩] }
/-- WND_EVT_FORCE (R187). -/
def R.WND_EVT_FORCE : RegDef :=
  { base := 0x600018, dims := [(8, 0x10000)], bits := 32, fields := [⟨14, 0, .wo, F.WND_EVT_FORCED⟩] }
/-- WND_SPEED_SET (R187). -/
def R.WND_SPEED_SET : RegDef :=
  { base := 0x600020, dims := [(8, 0x10000)], bits := 32, fields := [⟨15, 0, .rw, F.WND_SPEED_SET_TARGET⟩] }
/-- WND_SPEED (R187). -/
def R.WND_SPEED : RegDef :=
  { base := 0x600024, dims := [(8, 0x10000)], bits := 32, fields := [⟨31, 16, .ro, F.WND_SPEED_MEAS⟩,
    ⟨15, 0, .ro, F.WND_SPEED_RAMP⟩] }
/-- WND_RAMP (R187). -/
def R.WND_RAMP : RegDef :=
  { base := 0x600028, dims := [(8, 0x10000)], bits := 32, fields := [⟨31, 16, .rw, F.WND_RAMP_ACCEL⟩,
    ⟨15, 0, .rw, F.WND_RAMP_DECEL⟩] }
/-- WND_SPD_KP (R187). -/
def R.WND_SPD_KP : RegDef :=
  { base := 0x60002C, dims := [(8, 0x10000)], bits := 32, fields := [⟨23, 0, .rw, F.WND_SPD_KP_K⟩] }
/-- WND_SPD_KI (R187). -/
def R.WND_SPD_KI : RegDef :=
  { base := 0x600030, dims := [(8, 0x10000)], bits := 32, fields := [⟨23, 0, .rw, F.WND_SPD_KI_K⟩] }
/-- WND_CUR_KP (R187). -/
def R.WND_CUR_KP : RegDef :=
  { base := 0x600034, dims := [(8, 0x10000)], bits := 32, fields := [⟨23, 0, .rw, F.WND_CUR_KP_K⟩] }
/-- WND_CUR_KI (R187). -/
def R.WND_CUR_KI : RegDef :=
  { base := 0x600038, dims := [(8, 0x10000)], bits := 32, fields := [⟨23, 0, .rw, F.WND_CUR_KI_K⟩] }
/-- WND_ILIM (R187). -/
def R.WND_ILIM : RegDef :=
  { base := 0x60003C, dims := [(8, 0x10000)], bits := 32, fields := [⟨31, 16, .rw, F.WND_ILIM_IMAX⟩,
    ⟨15, 0, .rw, F.WND_ILIM_SHORT_ILIM⟩] }
/-- WND_PWM (R187). -/
def R.WND_PWM : RegDef :=
  { base := 0x600040, dims := [(8, 0x10000)], bits := 32, fields := [⟨31, 21, .rw, F.WND_PWM_DT⟩,
    ⟨20, 11, .rw, F.WND_PWM_MIN_PULSE⟩,
    ⟨10, 0, .rw, F.WND_PWM_SAMPLE_WIN⟩] }
/-- WND_LIMITS (R187). -/
def R.WND_LIMITS : RegDef :=
  { base := 0x600044, dims := [(8, 0x10000)], bits := 32, fields := [⟨31, 24, .rw, F.WND_LIMITS_SPIN_TMO⟩,
    ⟨23, 12, .rw, F.WND_LIMITS_VLIM⟩,
    ⟨11, 0, .rw, F.WND_LIMITS_OC_LIM⟩] }
/-- WND_SIX (R187). -/
def R.WND_SIX : RegDef :=
  { base := 0x600048, dims := [(8, 0x10000)], bits := 32, fields := [⟨31, 16, .rw, F.WND_SIX_SOFT⟩,
    ⟨15, 0, .rw, F.WND_SIX_ADV⟩] }
/-- WND_START (R187). -/
def R.WND_START : RegDef :=
  { base := 0x60004C, dims := [(8, 0x10000)], bits := 32, fields := [⟨31, 20, .rw, F.WND_START_ALIGN_I⟩,
    ⟨19, 12, .rw, F.WND_START_ALIGN_T⟩,
    ⟨11, 0, .rw, F.WND_START_HANDOVER⟩] }
/-- WND_OL (R187). -/
def R.WND_OL : RegDef :=
  { base := 0x600050, dims := [(8, 0x10000)], bits := 32, fields := [⟨31, 20, .rw, F.WND_OL_OL_I⟩,
    ⟨19, 0, .rw, F.WND_OL_OL_ACC⟩] }
/-- WND_OBS (R187). -/
def R.WND_OBS : RegDef :=
  { base := 0x600054, dims := [(8, 0x10000)], bits := 32, fields := [⟨31, 24, .rw, F.WND_OBS_PLL_BW⟩,
    ⟨23, 12, .rw, F.WND_OBS_LOCK_ERR⟩,
    ⟨3, 0, .rw, F.WND_OBS_PGAIN⟩] }
/-- WND_LOS (R187). -/
def R.WND_LOS : RegDef :=
  { base := 0x600058, dims := [(8, 0x10000)], bits := 32, fields := [⟨31, 20, .rw, F.WND_LOS_LOS_ERR⟩,
    ⟨19, 12, .rw, F.WND_LOS_LOS_EMF⟩,
    ⟨11, 0, .rw, F.WND_LOS_LOS_DSPD⟩] }
/-- WND_BUS (R187). -/
def R.WND_BUS : RegDef :=
  { base := 0x60005C, dims := [(8, 0x10000)], bits := 32, fields := [⟨31, 16, .ro, F.WND_BUS_VBUS⟩,
    ⟨15, 0, .ro, F.WND_BUS_IBRK⟩] }
/-- WND_BRK (R187). -/
def R.WND_BRK : RegDef :=
  { base := 0x600060, dims := [(8, 0x10000)], bits := 32, fields := [⟨31, 16, .rw, F.WND_BRK_BRK_ON⟩,
    ⟨15, 0, .rw, F.WND_BRK_BRK_OFF⟩] }
/-- WND_BUSLIM (R187). -/
def R.WND_BUSLIM : RegDef :=
  { base := 0x600064, dims := [(8, 0x10000)], bits := 32, fields := [⟨31, 16, .rw, F.WND_BUSLIM_V_REGEN⟩,
    ⟨15, 0, .rw, F.WND_BUSLIM_V_OV⟩] }
/-- WND_CHOP (R187). -/
def R.WND_CHOP : RegDef :=
  { base := 0x600068, dims := [(8, 0x10000)], bits := 32, fields := [⟨31, 16, .rw, F.WND_CHOP_CHOP_IMIN⟩,
    ⟨15, 0, .rw, F.WND_CHOP_RISE_TOL⟩] }
/-- WND_ANGLE (R187). -/
def R.WND_ANGLE : RegDef :=
  { base := 0x600070, dims := [(8, 0x10000)], bits := 32, fields := [⟨31, 16, .ro, F.WND_ANGLE_ELEC⟩,
    ⟨15, 0, .ro, F.WND_ANGLE_THETA⟩] }
/-- WND_DTHETA (R187). -/
def R.WND_DTHETA : RegDef :=
  { base := 0x600074, dims := [(8, 0x10000)], bits := 32, fields := [⟨23, 0, .ro, F.WND_DTHETA_DTHETA⟩] }
/-- WND_OFFSET (R187). -/
def R.WND_OFFSET : RegDef :=
  { base := 0x600078, dims := [(8, 0x10000)], bits := 32, fields := [⟨15, 0, .ro, F.WND_OFFSET_OFFSET⟩] }
/-- WND_PILLAR (R187). -/
def R.WND_PILLAR : RegDef :=
  { base := 0x60007C, dims := [(8, 0x10000)], bits := 32, fields := [⟨31, 16, .rc, F.WND_PILLAR_MAXRES⟩,
    ⟨15, 0, .ro, F.WND_PILLAR_RESID⟩] }
/-- WND_PAIR (R187). -/
def R.WND_PAIR : RegDef :=
  { base := 0x600080, dims := [(8, 0x10000)], bits := 32, fields := [⟨31, 16, .rw, F.WND_PAIR_OFS⟩,
    ⟨15, 0, .rw, F.WND_PAIR_KPAIR⟩] }
/-- WND_PAIR_STATUS (R187). -/
def R.WND_PAIR_STATUS : RegDef :=
  { base := 0x600084, dims := [(8, 0x10000)], bits := 32, fields := [⟨31, 16, .ro, F.WND_PAIR_STATUS_TRIM⟩,
    ⟨15, 0, .ro, F.WND_PAIR_STATUS_DELTA⟩] }
/-- WND_IDQ (R187). -/
def R.WND_IDQ : RegDef :=
  { base := 0x600088, dims := [(8, 0x10000)], bits := 32, fields := [⟨31, 16, .ro, F.WND_IDQ_IQ⟩,
    ⟨15, 0, .ro, F.WND_IDQ_ID⟩] }
/-- WND_CATCH (R187). -/
def R.WND_CATCH : RegDef :=
  { base := 0x60008C, dims := [(8, 0x10000)], bits := 32, fields := [⟨31, 16, .ro, F.WND_CATCH_SPEED⟩,
    ⟨1, 0, .ro, F.WND_CATCH_RESULT⟩] }
/-- WND_MODEL_RL (R187). -/
def R.WND_MODEL_RL : RegDef :=
  { base := 0x600090, dims := [(8, 0x10000)], bits := 32, fields := [⟨31, 16, .ro, F.WND_MODEL_RL_RS⟩,
    ⟨15, 0, .ro, F.WND_MODEL_RL_LS⟩] }
/-- WND_MODEL_KE (R187). -/
def R.WND_MODEL_KE : RegDef :=
  { base := 0x600094, dims := [(8, 0x10000)], bits := 32, fields := [⟨31, 20, .ro, F.WND_MODEL_KE_I_FS⟩,
    ⟨19, 0, .ro, F.WND_MODEL_KE_KE⟩] }
/-- WND_COUNTS (R187). -/
def R.WND_COUNTS : RegDef :=
  { base := 0x600098, dims := [(8, 0x10000)], bits := 32, fields := [⟨31, 16, .rc, F.WND_COUNTS_LOS⟩,
    ⟨15, 0, .rc, F.WND_COUNTS_REF⟩] }
/-- CHN_CTL (R217). -/
def R.CHN_CTL : RegDef :=
  { base := 0xA00000, dims := [(128, 0x1000)], bits := 32, fields := [⟨7, 7, .wo, F.CHN_CTL_RELOAD⟩,
    ⟨6, 6, .rw, F.CHN_CTL_DEF_MODE⟩,
    ⟨5, 5, .rw, F.CHN_CTL_DEF_EN⟩,
    ⟨4, 4, .rw, F.CHN_CTL_BLANK_EN⟩,
    ⟨3, 3, .rw, F.CHN_CTL_EQ_ADAPT⟩,
    ⟨2, 2, .rw, F.CHN_CTL_EQ_LOAD⟩,
    ⟨1, 1, .rw, F.CHN_CTL_INV⟩,
    ⟨0, 0, .rw, F.CHN_CTL_EN⟩] }
/-- CHN_STATUS (R217). -/
def R.CHN_STATUS : RegDef :=
  { base := 0xA00004, dims := [(128, 0x1000)], bits := 32, fields := [⟨31, 29, .ro, F.CHN_STATUS_STATE⟩,
    ⟨28, 28, .ro, F.CHN_STATUS_WOB_LOCK⟩,
    ⟨27, 27, .ro, F.CHN_STATUS_FRAMING⟩,
    ⟨26, 26, .ro, F.CHN_STATUS_POS_ERR⟩,
    ⟨25, 25, .ro, F.CHN_STATUS_IN_DRIFT⟩,
    ⟨24, 24, .ro, F.CHN_STATUS_DEFECT⟩,
    ⟨23, 19, .ro, F.CHN_STATUS_ZONE⟩,
    ⟨18, 15, .ro, F.CHN_STATUS_LAYER⟩] }
/-- CHN_WOB (R217). -/
def R.CHN_WOB : RegDef :=
  { base := 0xA00008, dims := [(128, 0x1000)], bits := 32, fields := [⟨31, 24, .rw, F.CHN_WOB_BW⟩,
    ⟨23, 16, .rw, F.CHN_WOB_LOCK_ERR⟩,
    ⟨15, 8, .rw, F.CHN_WOB_UNLOCK_ERR⟩] }
/-- CHN_WOB_STATUS (R217). -/
def R.CHN_WOB_STATUS : RegDef :=
  { base := 0xA0000C, dims := [(128, 0x1000)], bits := 32, fields := [⟨31, 16, .ro, F.CHN_WOB_STATUS_PERR⟩,
    ⟨15, 8, .ro, F.CHN_WOB_STATUS_PILLAR⟩,
    ⟨5, 0, .ro, F.CHN_WOB_STATUS_WOBBLE⟩] }
/-- CHN_EVT (R217). -/
def R.CHN_EVT : RegDef :=
  { base := 0xA00010, dims := [(128, 0x1000)], bits := 32, fields := [⟨11, 11, .rw1c, F.CHN_EVT_CFG_REJECT⟩,
    ⟨10, 10, .rw1c, F.CHN_EVT_TABLE_ECC⟩,
    ⟨9, 9, .rw1c, F.CHN_EVT_RATE_LIMIT⟩,
    ⟨8, 8, .rw1c, F.CHN_EVT_WOB_UNLOCK⟩,
    ⟨7, 7, .rw1c, F.CHN_EVT_PILLAR_LOST⟩,
    ⟨6, 6, .rw1c, F.CHN_EVT_POS_MISMATCH⟩,
    ⟨5, 5, .rw1c, F.CHN_EVT_TRUNC⟩,
    ⟨4, 4, .rw1c, F.CHN_EVT_PCOUNT_FIX⟩,
    ⟨3, 3, .rw1c, F.CHN_EVT_EQ_SAT⟩,
    ⟨2, 2, .rw1c, F.CHN_EVT_DEFECT⟩,
    ⟨1, 1, .rw1c, F.CHN_EVT_PILLAR_MISS⟩,
    ⟨0, 0, .rw1c, F.CHN_EVT_SYNC_MISS⟩] }
/-- CHN_EVT_MASK (R217). -/
def R.CHN_EVT_MASK : RegDef :=
  { base := 0xA00014, dims := [(128, 0x1000)], bits := 32, fields := [⟨11, 0, .rw, F.CHN_EVT_MASK_MASK⟩] }
/-- CHN_EVT_FORCE (R217). -/
def R.CHN_EVT_FORCE : RegDef :=
  { base := 0xA00018, dims := [(128, 0x1000)], bits := 32, fields := [⟨11, 0, .wo, F.CHN_EVT_FORCED⟩] }
/-- CHN_SYNC_CTL (R217). -/
def R.CHN_SYNC_CTL : RegDef :=
  { base := 0xA00020, dims := [(128, 0x1000)], bits := 32, fields := [⟨31, 24, .rw, F.CHN_SYNC_CTL_SYNC_TH⟩,
    ⟨23, 16, .rw, F.CHN_SYNC_CTL_PSYNC_TH⟩,
    ⟨15, 8, .rw, F.CHN_SYNC_CTL_PWIN⟩] }
/-- CHN_SYNC_STATS (R217). -/
def R.CHN_SYNC_STATS : RegDef :=
  { base := 0xA00024, dims := [(128, 0x1000)], bits := 32, fields := [⟨31, 16, .rc, F.CHN_SYNC_STATS_FOUND⟩,
    ⟨15, 0, .rc, F.CHN_SYNC_STATS_MISSED⟩] }
/-- CHN_SYNC_LAST (R217). -/
def R.CHN_SYNC_LAST : RegDef :=
  { base := 0xA00028, dims := [(128, 0x1000)], bits := 32, fields := [⟨31, 24, .ro, F.CHN_SYNC_LAST_SCORE⟩,
    ⟨23, 16, .ro, F.CHN_SYNC_LAST_OFFSET⟩,
    ⟨15, 8, .ro, F.CHN_SYNC_LAST_CANDS⟩] }
/-- CHN_EQ_CTL (R217). -/
def R.CHN_EQ_CTL : RegDef :=
  { base := 0xA00030, dims := [(128, 0x1000)], bits := 32, fields := [⟨3, 0, .rw, F.CHN_EQ_CTL_MU_SHIFT⟩] }
/-- CHN_EQ_TAP (R217). -/
def R.CHN_EQ_TAP : RegDef :=
  { base := 0xA00040, dims := [(128, 0x1000), (15, 0x4)], bits := 32, fields := [⟨15, 0, .ro, F.CHN_EQ_TAP_TAP⟩] }
/-- CHN_CORR (R217). -/
def R.CHN_CORR : RegDef :=
  { base := 0xA00080, dims := [(128, 0x1000)], bits := 32, fields := [⟨31, 16, .ro, F.CHN_CORR_GAIN⟩,
    ⟨15, 4, .ro, F.CHN_CORR_OFS⟩] }
/-- CHN_CORR_ASYM (R217). -/
def R.CHN_CORR_ASYM : RegDef :=
  { base := 0xA00084, dims := [(128, 0x1000)], bits := 32, fields := [⟨11, 0, .ro, F.CHN_CORR_ASYM_ASYM⟩] }
/-- CHN_DET_CTL (R217). -/
def R.CHN_DET_CTL : RegDef :=
  { base := 0xA00088, dims := [(128, 0x1000)], bits := 32, fields := [⟨31, 16, .rw, F.CHN_DET_CTL_LLR_SCALE⟩] }
/-- CHN_MSE (R217). -/
def R.CHN_MSE : RegDef :=
  { base := 0xA0008C, dims := [(128, 0x1000)], bits := 32, fields := [⟨15, 0, .ro, F.CHN_MSE_MSE⟩] }
/-- CHN_DEF_CTL (R217). -/
def R.CHN_DEF_CTL : RegDef :=
  { base := 0xA00090, dims := [(128, 0x1000)], bits := 32, fields := [⟨31, 24, .rw, F.CHN_DEF_CTL_DEF_TH⟩,
    ⟨23, 16, .rw, F.CHN_DEF_CTL_DEF_MIN⟩,
    ⟨15, 8, .rw, F.CHN_DEF_CTL_DEF_EXT⟩] }
/-- CHN_DEF_CTL2 (R217). -/
def R.CHN_DEF_CTL2 : RegDef :=
  { base := 0xA00094, dims := [(128, 0x1000)], bits := 32, fields := [⟨31, 20, .rw, F.CHN_DEF_CTL2_BLANK_TH⟩,
    ⟨19, 8, .rw, F.CHN_DEF_CTL2_ENV_INIT⟩] }
/-- CHN_ERA_CTL (R217). -/
def R.CHN_ERA_CTL : RegDef :=
  { base := 0xA00098, dims := [(128, 0x1000)], bits := 32, fields := [⟨15, 0, .rw, F.CHN_ERA_CTL_ERA_TH⟩] }
/-- CHN_DEF_STATS (R217). -/
def R.CHN_DEF_STATS : RegDef :=
  { base := 0xA0009C, dims := [(128, 0x1000)], bits := 32, fields := [⟨31, 16, .rc, F.CHN_DEF_STATS_DEFECTS⟩,
    ⟨15, 0, .rc, F.CHN_DEF_STATS_BLANKS⟩] }
/-- CHN_PILLAR (R217). -/
def R.CHN_PILLAR : RegDef :=
  { base := 0xA000A0, dims := [(128, 0x1000)], bits := 32, fields := [⟨31, 31, .ro, F.CHN_PILLAR_MATCH⟩,
    ⟨30, 30, .ro, F.CHN_PILLAR_SIDE⟩,
    ⟨29, 26, .ro, F.CHN_PILLAR_LAYER⟩,
    ⟨25, 25, .ro, F.CHN_PILLAR_BAND⟩,
    ⟨24, 8, .ro, F.CHN_PILLAR_TRACK⟩,
    ⟨7, 0, .ro, F.CHN_PILLAR_PILLAR⟩] }
/-- CHN_PILLAR_STATS (R217). -/
def R.CHN_PILLAR_STATS : RegDef :=
  { base := 0xA000A4, dims := [(128, 0x1000)], bits := 32, fields := [⟨31, 20, .rc, F.CHN_PILLAR_STATS_MISSED⟩,
    ⟨19, 8, .rc, F.CHN_PILLAR_STATS_CRC_ERR⟩,
    ⟨7, 0, .rc, F.CHN_PILLAR_STATS_MISMATCH⟩] }
/-- CHN_DRIFTS (R217). -/
def R.CHN_DRIFTS : RegDef :=
  { base := 0xA000A8, dims := [(128, 0x1000)], bits := 32, fields := [⟨31, 16, .rc, F.CHN_DRIFTS_DELIVERED⟩,
    ⟨15, 0, .rc, F.CHN_DRIFTS_INFERRED⟩] }
/-- CHN_TRUNC (R217). -/
def R.CHN_TRUNC : RegDef :=
  { base := 0xA000AC, dims := [(128, 0x1000)], bits := 32, fields := [⟨15, 0, .rc, F.CHN_TRUNC_TRUNC⟩] }
/-- CHN_EVT_CHANS (R217). -/
def R.CHN_EVT_CHANS : RegDef :=
  { base := 0xA80000, dims := [(4, 0x4)], bits := 32, fields := [⟨31, 0, .rw1c, F.CHN_EVT_CHANS_CHAN⟩] }
/-- ASY_CTL (R248, R249). -/
def R.ASY_CTL : RegDef :=
  { base := 0xC00000, dims := [], bits := 32, fields := [⟨19, 16, .rw, F.ASY_CTL_REC_MAX⟩,
    ⟨9, 8, .rw, F.ASY_CTL_READ_MAX⟩,
    ⟨1, 1, .rw, F.ASY_CTL_HINT_SKIP⟩,
    ⟨0, 0, .rw, F.ASY_CTL_EN⟩] }
/-- ASY_STATUS (R248, R249). -/
def R.ASY_STATUS : RegDef :=
  { base := 0xC00004, dims := [], bits := 32, fields := [⟨31, 24, .ro, F.ASY_STATUS_FIRST⟩,
    ⟨23, 16, .ro, F.ASY_STATUS_RECOV⟩,
    ⟨15, 8, .ro, F.ASY_STATUS_FREE⟩,
    ⟨7, 0, .ro, F.ASY_STATUS_BUSY⟩] }
/-- ASY_INNER_CTL (R248, R249). -/
def R.ASY_INNER_CTL : RegDef :=
  { base := 0xC00008, dims := [], bits := 32, fields := [⟨25, 24, .rw, F.ASY_INNER_CTL_NORM⟩,
    ⟨21, 16, .rw, F.ASY_INNER_CTL_ITER_MAX⟩,
    ⟨15, 8, .rw, F.ASY_INNER_CTL_STALL_MIN⟩,
    ⟨7, 4, .rw, F.ASY_INNER_CTL_STALL⟩,
    ⟨0, 0, .rw, F.ASY_INNER_CTL_EARLY_EN⟩] }
/-- ASY_SECOND_CTL (R248, R249). -/
def R.ASY_SECOND_CTL : RegDef :=
  { base := 0xC0000C, dims := [], bits := 32, fields := [⟨31, 24, .rw, F.ASY_SECOND_CTL_GUARD⟩,
    ⟨23, 16, .rw, F.ASY_SECOND_CTL_ITER2⟩,
    ⟨15, 8, .rw, F.ASY_SECOND_CTL_SLIP_MARGIN⟩,
    ⟨3, 0, .rw, F.ASY_SECOND_CTL_SLIP_TRY⟩] }
/-- ASY_EVT (R248, R249). -/
def R.ASY_EVT : RegDef :=
  { base := 0xC00010, dims := [], bits := 32, fields := [⟨8, 8, .rw1c, F.ASY_EVT_CFG_REJECT⟩,
    ⟨7, 7, .rw1c, F.ASY_EVT_BUF_ECC⟩,
    ⟨6, 6, .rw1c, F.ASY_EVT_LODE_FAILED⟩,
    ⟨5, 5, .rw1c, F.ASY_EVT_MISCORRECT⟩,
    ⟨4, 4, .rw1c, F.ASY_EVT_INNER_MISC⟩,
    ⟨3, 3, .rw1c, F.ASY_EVT_SLIP⟩,
    ⟨2, 2, .rw1c, F.ASY_EVT_RECOVERED⟩,
    ⟨1, 1, .rw1c, F.ASY_EVT_REREAD⟩,
    ⟨0, 0, .rw1c, F.ASY_EVT_INNER_FAIL⟩] }
/-- ASY_EVT_MASK (R248, R249). -/
def R.ASY_EVT_MASK : RegDef :=
  { base := 0xC00014, dims := [], bits := 32, fields := [⟨8, 0, .rw, F.ASY_EVT_MASK_MASK⟩] }
/-- ASY_EVT_FORCE (R248, R249). -/
def R.ASY_EVT_FORCE : RegDef :=
  { base := 0xC00018, dims := [], bits := 32, fields := [⟨8, 0, .wo, F.ASY_EVT_FORCED⟩] }
/-- ASY_COMB_CTL (R248, R249). -/
def R.ASY_COMB_CTL : RegDef :=
  { base := 0xC00020, dims := [], bits := 32, fields := [⟨31, 24, .rw, F.ASY_COMB_CTL_CSCALE⟩,
    ⟨20, 16, .rw, F.ASY_COMB_CTL_CCLIP⟩,
    ⟨4, 0, .rw, F.ASY_COMB_CTL_HINT_WGT⟩] }
/-- ASY_LODES (R248, R249). -/
def R.ASY_LODES : RegDef :=
  { base := 0xC00030, dims := [], bits := 32, fields := [⟨31, 16, .rc, F.ASY_LODES_CLEAN⟩,
    ⟨15, 0, .rc, F.ASY_LODES_CORRECTED⟩] }
/-- ASY_LODES2 (R248, R249). -/
def R.ASY_LODES2 : RegDef :=
  { base := 0xC00034, dims := [], bits := 32, fields := [⟨31, 16, .rc, F.ASY_LODES2_REREAD⟩,
    ⟨15, 0, .rc, F.ASY_LODES2_FAILED⟩] }
/-- ASY_DRIFTS (R248, R249). -/
def R.ASY_DRIFTS : RegDef :=
  { base := 0xC00038, dims := [], bits := 32, fields := [⟨31, 16, .rc, F.ASY_DRIFTS_INNER_FAIL⟩,
    ⟨15, 0, .rc, F.ASY_DRIFTS_INNER_MISC⟩] }
/-- ASY_MISC (R248, R249). -/
def R.ASY_MISC : RegDef :=
  { base := 0xC0003C, dims := [], bits := 32, fields := [⟨31, 16, .rc, F.ASY_MISC_GUARD_FAIL⟩,
    ⟨15, 0, .rc, F.ASY_MISC_SLIP_FOUND⟩] }
/-- ASY_UNCLAIMED (R248, R249). -/
def R.ASY_UNCLAIMED : RegDef :=
  { base := 0xC00040, dims := [], bits := 32, fields := [⟨31, 0, .rc, F.ASY_UNCLAIMED_COUNT⟩] }
/-- ASY_ENG_STATUS (R248, R249). -/
def R.ASY_ENG_STATUS : RegDef :=
  { base := 0xC00100, dims := [(8, 0x10)], bits := 32, fields := [⟨31, 31, .ro, F.ASY_ENG_STATUS_BUSY⟩,
    ⟨30, 29, .ro, F.ASY_ENG_STATUS_RUNG⟩,
    ⟨28, 22, .ro, F.ASY_ENG_STATUS_SLOT⟩] }
/-- ASY_SLOT (R248, R249). -/
def R.ASY_SLOT : RegDef :=
  { base := 0xC02000, dims := [(96, 0x8)], bits := 32, fields := [⟨31, 29, .ro, F.ASY_SLOT_STATE⟩,
    ⟨28, 26, .ro, F.ASY_SLOT_READS⟩,
    ⟨25, 24, .ro, F.ASY_SLOT_RUNG⟩,
    ⟨23, 16, .ro, F.ASY_SLOT_UNSOUND⟩,
    ⟨15, 8, .ro, F.ASY_SLOT_MISSES⟩] }
/-- ASY_SLOT_ID (R248, R249). -/
def R.ASY_SLOT_ID : RegDef :=
  { base := 0xC02004, dims := [(96, 0x8)], bits := 32, fields := [⟨31, 31, .ro, F.ASY_SLOT_ID_VERIFY⟩,
    ⟨30, 30, .ro, F.ASY_SLOT_ID_RETAIN⟩,
    ⟨29, 27, .ro, F.ASY_SLOT_ID_V⟩,
    ⟨26, 21, .ro, F.ASY_SLOT_ID_N⟩,
    ⟨20, 5, .ro, F.ASY_SLOT_ID_X⟩] }
/-- PRC_CTL (R248, R249). -/
def R.PRC_CTL : RegDef :=
  { base := 0xC40000, dims := [], bits := 32, fields := [⟨11, 8, .rw, F.PRC_CTL_CLASS_TH⟩,
    ⟨1, 1, .rw, F.PRC_CTL_RET_EN⟩,
    ⟨0, 0, .rw, F.PRC_CTL_EN⟩] }
/-- PRC_STATUS (R248, R249). -/
def R.PRC_STATUS : RegDef :=
  { base := 0xC40004, dims := [], bits := 32, fields := [⟨31, 31, .ro, F.PRC_STATUS_WITHHOLD⟩,
    ⟨20, 0, .ro, F.PRC_STATUS_OCC⟩] }
/-- PRC_TAIL_BASE_LO (R248, R249). -/
def R.PRC_TAIL_BASE_LO : RegDef :=
  { base := 0xC40008, dims := [], bits := 32, fields := [⟨31, 21, .rw, F.PRC_TAIL_BASE_LO_BASE_LO⟩] }
/-- PRC_TAIL_BASE_HI (R248, R249). -/
def R.PRC_TAIL_BASE_HI : RegDef :=
  { base := 0xC4000C, dims := [], bits := 32, fields := [⟨4, 0, .rw, F.PRC_TAIL_BASE_HI_BASE_HI⟩] }
/-- PRC_EVT (R248, R249). -/
def R.PRC_EVT : RegDef :=
  { base := 0xC40010, dims := [], bits := 32, fields := [⟨5, 5, .rw1c, F.PRC_EVT_CFG_REJECT⟩,
    ⟨4, 4, .rw1c, F.PRC_EVT_ENTRY_ECC⟩,
    ⟨3, 3, .rw1c, F.PRC_EVT_FLUSH_TRUNC⟩,
    ⟨2, 2, .rw1c, F.PRC_EVT_OVERFLOW⟩,
    ⟨1, 1, .rw1c, F.PRC_EVT_WITHHELD⟩,
    ⟨0, 0, .rw1c, F.PRC_EVT_RESUMED⟩] }
/-- PRC_EVT_MASK (R248, R249). -/
def R.PRC_EVT_MASK : RegDef :=
  { base := 0xC40014, dims := [], bits := 32, fields := [⟨5, 0, .rw, F.PRC_EVT_MASK_MASK⟩] }
/-- PRC_EVT_FORCE (R248, R249). -/
def R.PRC_EVT_FORCE : RegDef :=
  { base := 0xC40018, dims := [], bits := 32, fields := [⟨5, 0, .wo, F.PRC_EVT_FORCED⟩] }
/-- PRC_TAIL_SIZE (R248, R249). -/
def R.PRC_TAIL_SIZE : RegDef :=
  { base := 0xC40020, dims := [], bits := 32, fields := [⟨10, 0, .rw, F.PRC_TAIL_SIZE_UNITS⟩] }
/-- PRC_MARKS (R248, R249). -/
def R.PRC_MARKS : RegDef :=
  { base := 0xC40024, dims := [], bits := 32, fields := [⟨15, 8, .rw, F.PRC_MARKS_HIGH⟩,
    ⟨7, 0, .rw, F.PRC_MARKS_LOW⟩] }
/-- PRC_FLUSH (R248, R249). -/
def R.PRC_FLUSH : RegDef :=
  { base := 0xC40028, dims := [], bits := 32, fields := [⟨31, 0, .wo, F.PRC_FLUSH_HEAD⟩] }
/-- PRC_STATS (R248, R249). -/
def R.PRC_STATS : RegDef :=
  { base := 0xC4002C, dims := [], bits := 32, fields := [⟨31, 16, .rc, F.PRC_STATS_WITHHELD⟩,
    ⟨15, 0, .rc, F.PRC_STATS_OVERFLOW⟩] }
/-- PRC_STATS2 (R248, R249). -/
def R.PRC_STATS2 : RegDef :=
  { base := 0xC40030, dims := [], bits := 32, fields := [⟨31, 16, .rc, F.PRC_STATS2_TRUNC⟩,
    ⟨15, 0, .rc, F.PRC_STATS2_ENTRY_ECC⟩] }
/-- PRC_PEAK (R248, R249). -/
def R.PRC_PEAK : RegDef :=
  { base := 0xC40034, dims := [], bits := 32, fields := [⟨20, 0, .rc, F.PRC_PEAK_PEAK⟩] }
/-- WRP_CTL (R274). -/
def R.WRP_CTL : RegDef :=
  { base := 0xD00000, dims := [], bits := 32, fields := [⟨31, 24, .rw, F.WRP_CTL_CAT_BATCH⟩,
    ⟨1, 1, .rw, F.WRP_CTL_AUTO_CAL⟩,
    ⟨0, 0, .rw, F.WRP_CTL_EN⟩] }
/-- WRP_STATUS (R274). -/
def R.WRP_STATUS : RegDef :=
  { base := 0xD00004, dims := [], bits := 32, fields := [⟨25, 16, .ro, F.WRP_STATUS_OPEN⟩,
    ⟨13, 0, .ro, F.WRP_STATUS_SEALED⟩] }
/-- WRP_LINGER (R274). -/
def R.WRP_LINGER : RegDef :=
  { base := 0xD00008, dims := [], bits := 32, fields := [⟨10, 0, .rw, F.WRP_LINGER_MS⟩] }
/-- WRP_EVT (R274). -/
def R.WRP_EVT : RegDef :=
  { base := 0xD00010, dims := [], bits := 32, fields := [⟨10, 10, .rw1c, F.WRP_EVT_CFG_REJECT⟩,
    ⟨9, 9, .rw1c, F.WRP_EVT_CAT_FULL⟩,
    ⟨8, 8, .rw1c, F.WRP_EVT_CAL_EXHAUSTED⟩,
    ⟨7, 7, .rw1c, F.WRP_EVT_CAL_FAIL⟩,
    ⟨6, 6, .rw1c, F.WRP_EVT_CAL_DONE⟩,
    ⟨5, 5, .rw1c, F.WRP_EVT_SEAM_EXHAUSTED⟩,
    ⟨4, 4, .rw1c, F.WRP_EVT_WP_RECOVERED⟩,
    ⟨3, 3, .rw1c, F.WRP_EVT_SPARED⟩,
    ⟨2, 2, .rw1c, F.WRP_EVT_LODE_REJECT⟩,
    ⟨1, 1, .rw1c, F.WRP_EVT_GATE_CUT⟩,
    ⟨0, 0, .rw1c, F.WRP_EVT_PAD⟩] }
/-- WRP_EVT_MASK (R274). -/
def R.WRP_EVT_MASK : RegDef :=
  { base := 0xD00014, dims := [], bits := 32, fields := [⟨10, 0, .rw, F.WRP_EVT_MASK_MASK⟩] }
/-- WRP_EVT_FORCE (R274). -/
def R.WRP_EVT_FORCE : RegDef :=
  { base := 0xD00018, dims := [], bits := 32, fields := [⟨10, 0, .wo, F.WRP_EVT_FORCED⟩] }
/-- WRP_VFY_CTL (R274). -/
def R.WRP_VFY_CTL : RegDef :=
  { base := 0xD00020, dims := [], bits := 32, fields := [⟨31, 24, .rw, F.WRP_VFY_CTL_VFY_ITER⟩,
    ⟨23, 16, .rw, F.WRP_VFY_CTL_VFY_SYNC⟩,
    ⟨15, 8, .rw, F.WRP_VFY_CTL_VFY_ERA⟩] }
/-- WRP_VFY_CTL2 (R274). -/
def R.WRP_VFY_CTL2 : RegDef :=
  { base := 0xD00024, dims := [], bits := 32, fields := [⟨31, 16, .rw, F.WRP_VFY_CTL2_VFY_MSE⟩,
    ⟨15, 0, .rw, F.WRP_VFY_CTL2_VFY_DEF⟩] }
/-- WRP_CAL_CTL (R274). -/
def R.WRP_CAL_CTL : RegDef :=
  { base := 0xD00028, dims := [], bits := 32, fields := [⟨31, 27, .rw, F.WRP_CAL_CTL_STEPS⟩,
    ⟨23, 16, .rw, F.WRP_CAL_CTL_STEP⟩,
    ⟨15, 8, .rw, F.WRP_CAL_CTL_DTEMP⟩] }
/-- WRP_LODES (R274). -/
def R.WRP_LODES : RegDef :=
  { base := 0xD00030, dims := [], bits := 32, fields := [⟨31, 16, .rc, F.WRP_LODES_ACCEPTED⟩,
    ⟨15, 0, .rc, F.WRP_LODES_REJECTED⟩] }
/-- WRP_SKIPS (R274). -/
def R.WRP_SKIPS : RegDef :=
  { base := 0xD00034, dims := [], bits := 32, fields := [⟨31, 16, .rc, F.WRP_SKIPS_SKIPPED⟩,
    ⟨15, 0, .rc, F.WRP_SKIPS_CAL_RUNS⟩] }
/-- WRP_GATE (R274). -/
def R.WRP_GATE : RegDef :=
  { base := 0xD00038, dims := [], bits := 32, fields := [⟨31, 16, .rc, F.WRP_GATE_CLOSES⟩,
    ⟨15, 0, .rc, F.WRP_GATE_CUTS⟩] }
/-- WRP_HEAD (R274). -/
def R.WRP_HEAD : RegDef :=
  { base := 0xD00100, dims := [(32, 0x4)], bits := 32, fields := [⟨31, 29, .ro, F.WRP_HEAD_STATE⟩,
    ⟨28, 24, .ro, F.WRP_HEAD_QUEUED⟩,
    ⟨23, 23, .ro, F.WRP_HEAD_CAL_REQ⟩,
    ⟨15, 0, .ro, F.WRP_HEAD_CAL_OK⟩] }
/-- WRP_SEAM (R274). -/
def R.WRP_SEAM : RegDef :=
  { base := 0xD01000, dims := [(8, 0x100), (64, 0x4)], bits := 32, fields := [⟨31, 31, .ro, F.WRP_SEAM_SEALED⟩,
    ⟨30, 30, .ro, F.WRP_SEAM_EXHAUSTED⟩,
    ⟨29, 29, .ro, F.WRP_SEAM_KNOWN⟩,
    ⟨28, 20, .ro, F.WRP_SEAM_NSKIP⟩,
    ⟨15, 0, .ro, F.WRP_SEAM_LODES⟩] }
/-- HIF_CTL (R298). -/
def R.HIF_CTL : RegDef :=
  { base := 0x200000, dims := [], bits := 32, fields := [⟨1, 1, .rw, F.HIF_CTL_POISON_FWD⟩,
    ⟨0, 0, .rw, F.HIF_CTL_PEER_EN⟩] }
/-- HIF_LINK (R298). -/
def R.HIF_LINK : RegDef :=
  { base := 0x200004, dims := [], bits := 32, fields := [⟨31, 31, .ro, F.HIF_LINK_DL_ACTIVE⟩,
    ⟨30, 30, .ro, F.HIF_LINK_DEGRADED⟩,
    ⟨27, 24, .ro, F.HIF_LINK_SPEED⟩,
    ⟨19, 16, .ro, F.HIF_LINK_WIDTH⟩,
    ⟨15, 0, .rc, F.HIF_LINK_DOWN_CNT⟩] }
/-- HIF_CONTAIN (R298). -/
def R.HIF_CONTAIN : RegDef :=
  { base := 0x200008, dims := [], bits := 32, fields := [⟨31, 30, .ro, F.HIF_CONTAIN_STATE⟩,
    ⟨23, 12, .ro, F.HIF_CONTAIN_INFLIGHT⟩,
    ⟨10, 10, .ro, F.HIF_CONTAIN_CAUSE_FORCED⟩,
    ⟨9, 9, .ro, F.HIF_CONTAIN_CAUSE_LINK⟩,
    ⟨8, 8, .ro, F.HIF_CONTAIN_CAUSE_INTERNAL⟩,
    ⟨1, 1, .wo, F.HIF_CONTAIN_FORCE⟩,
    ⟨0, 0, .wo, F.HIF_CONTAIN_RELEASE⟩] }
/-- HIF_EVT (R298). -/
def R.HIF_EVT : RegDef :=
  { base := 0x200010, dims := [], bits := 32, fields := [⟨12, 12, .rw1c, F.HIF_EVT_LINK_DEGRADED⟩,
    ⟨11, 11, .rw1c, F.HIF_EVT_CFG_REJECT⟩,
    ⟨10, 10, .rw1c, F.HIF_EVT_COMMIT_REJECT⟩,
    ⟨9, 9, .rw1c, F.HIF_EVT_RELEASED⟩,
    ⟨8, 8, .rw1c, F.HIF_EVT_CONTAINED⟩,
    ⟨7, 7, .rw1c, F.HIF_EVT_LINK_LOST⟩,
    ⟨6, 6, .rw1c, F.HIF_EVT_FLR1⟩,
    ⟨5, 5, .rw1c, F.HIF_EVT_FLR0⟩,
    ⟨4, 4, .rw1c, F.HIF_EVT_HOT_RESET⟩,
    ⟨3, 3, .rw1c, F.HIF_EVT_PEER_UR⟩,
    ⟨2, 2, .rw1c, F.HIF_EVT_POISON_RX⟩,
    ⟨1, 1, .rw1c, F.HIF_EVT_UNEXP_CPL⟩,
    ⟨0, 0, .rw1c, F.HIF_EVT_CPL_TIMEOUT⟩] }
/-- HIF_EVT_MASK (R298). -/
def R.HIF_EVT_MASK : RegDef :=
  { base := 0x200014, dims := [], bits := 32, fields := [⟨12, 0, .rw, F.HIF_EVT_MASK_MASK⟩] }
/-- HIF_EVT_FORCE (R298). -/
def R.HIF_EVT_FORCE : RegDef :=
  { base := 0x200018, dims := [], bits := 32, fields := [⟨12, 0, .wo, F.HIF_EVT_FORCED⟩] }
/-- HIF_CPL_ERR (R298). -/
def R.HIF_CPL_ERR : RegDef :=
  { base := 0x200020, dims := [], bits := 32, fields := [⟨31, 16, .rc, F.HIF_CPL_ERR_TIMEOUT⟩,
    ⟨15, 0, .rc, F.HIF_CPL_ERR_UNEXP⟩] }
/-- HIF_RX_ERR (R298). -/
def R.HIF_RX_ERR : RegDef :=
  { base := 0x200024, dims := [], bits := 32, fields := [⟨31, 16, .rc, F.HIF_RX_ERR_POISON_RX⟩,
    ⟨15, 0, .rc, F.HIF_RX_ERR_PEER_UR⟩] }
/-- HIF_LTR (R298). -/
def R.HIF_LTR : RegDef :=
  { base := 0x200028, dims := [], bits := 32, fields := [⟨28, 16, .rw, F.HIF_LTR_ACTIVE⟩,
    ⟨12, 0, .rw, F.HIF_LTR_IDLE⟩] }
/-- HIF_WIN_COMMIT (R298). -/
def R.HIF_WIN_COMMIT : RegDef :=
  { base := 0x200030, dims := [], bits := 32, fields := [⟨7, 0, .wo, F.HIF_WIN_COMMIT_GO⟩] }
/-- HIF_WIN_STATUS (R298). -/
def R.HIF_WIN_STATUS : RegDef :=
  { base := 0x200034, dims := [], bits := 32, fields := [⟨31, 24, .ro, F.HIF_WIN_STATUS_SEQ⟩,
    ⟨16, 16, .ro, F.HIF_WIN_STATUS_REFUSED⟩,
    ⟨15, 8, .ro, F.HIF_WIN_STATUS_PEND⟩,
    ⟨7, 0, .ro, F.HIF_WIN_STATUS_LIVE_EN⟩] }
/-- HIF_WIN_BASE_LO (R298). -/
def R.HIF_WIN_BASE_LO : RegDef :=
  { base := 0x200100, dims := [(8, 0x20)], bits := 32, fields := [⟨31, 21, .rw, F.HIF_WIN_BASE_LO_BASE_LO⟩] }
/-- HIF_WIN_BASE_HI (R298). -/
def R.HIF_WIN_BASE_HI : RegDef :=
  { base := 0x200104, dims := [(8, 0x20)], bits := 32, fields := [⟨4, 0, .rw, F.HIF_WIN_BASE_HI_BASE_HI⟩] }
/-- HIF_WIN_SIZE_CTL (R298). -/
def R.HIF_WIN_SIZE_CTL : RegDef :=
  { base := 0x200108, dims := [(8, 0x20)], bits := 32, fields := [⟨22, 16, .rw, F.HIF_WIN_SIZE_CTL_SIZE⟩,
    ⟨2, 2, .rw, F.HIF_WIN_SIZE_CTL_WR_EN⟩,
    ⟨1, 1, .rw, F.HIF_WIN_SIZE_CTL_RD_EN⟩,
    ⟨0, 0, .rw, F.HIF_WIN_SIZE_CTL_EN⟩] }
/-- HIF_WIN_LIVE_BASE_LO (R298). -/
def R.HIF_WIN_LIVE_BASE_LO : RegDef :=
  { base := 0x200110, dims := [(8, 0x20)], bits := 32, fields := [⟨31, 21, .ro, F.HIF_WIN_LIVE_BASE_LO_BASE_LO⟩] }
/-- HIF_WIN_LIVE_BASE_HI (R298). -/
def R.HIF_WIN_LIVE_BASE_HI : RegDef :=
  { base := 0x200114, dims := [(8, 0x20)], bits := 32, fields := [⟨4, 0, .ro, F.HIF_WIN_LIVE_BASE_HI_BASE_HI⟩] }
/-- HIF_WIN_LIVE_SIZE_CTL (R298). -/
def R.HIF_WIN_LIVE_SIZE_CTL : RegDef :=
  { base := 0x200118, dims := [(8, 0x20)], bits := 32, fields := [⟨22, 16, .ro, F.HIF_WIN_LIVE_SIZE_CTL_SIZE⟩,
    ⟨2, 2, .ro, F.HIF_WIN_LIVE_SIZE_CTL_WR_EN⟩,
    ⟨1, 1, .ro, F.HIF_WIN_LIVE_SIZE_CTL_RD_EN⟩,
    ⟨0, 0, .ro, F.HIF_WIN_LIVE_SIZE_CTL_EN⟩] }
/-- HQI_CAP (R322). -/
def R.HQI_CAP : RegDef :=
  { base := 0x300000, dims := [], bits := 32, fields := [⟨31, 24, .ro, F.HQI_CAP_MAXQ⟩,
    ⟨23, 12, .ro, F.HQI_CAP_MQES⟩,
    ⟨11, 0, .ro, F.HQI_CAP_MAX_BLOCKS⟩] }
/-- HQI_CC (R322). -/
def R.HQI_CC : RegDef :=
  { base := 0x300004, dims := [], bits := 32, fields := [⟨0, 0, .rw, F.HQI_CC_EN⟩] }
/-- HQI_CSTS (R322). -/
def R.HQI_CSTS : RegDef :=
  { base := 0x300008, dims := [], bits := 32, fields := [⟨3, 3, .ro, F.HQI_CSTS_HELD⟩,
    ⟨2, 2, .ro, F.HQI_CSTS_CONTAINED⟩,
    ⟨1, 1, .ro, F.HQI_CSTS_NOT_READY⟩,
    ⟨0, 0, .ro, F.HQI_CSTS_RDY⟩] }
/-- HQI_EVT (R322). -/
def R.HQI_EVT : RegDef :=
  { base := 0x300010, dims := [], bits := 32, fields := [⟨4, 4, .rw1c, F.HQI_EVT_VOLUME_LOST⟩,
    ⟨3, 3, .rw1c, F.HQI_EVT_SELF_TEST_DONE⟩,
    ⟨2, 2, .rw1c, F.HQI_EVT_CFG_REJECT⟩,
    ⟨1, 1, .rw1c, F.HQI_EVT_RESET_ABORT⟩,
    ⟨0, 0, .rw1c, F.HQI_EVT_QUEUE_ERR⟩] }
/-- HQI_EVT_MASK (R322). -/
def R.HQI_EVT_MASK : RegDef :=
  { base := 0x300014, dims := [], bits := 32, fields := [⟨4, 0, .rw, F.HQI_EVT_MASK_MASK⟩] }
/-- HQI_EVT_FORCE (R322). -/
def R.HQI_EVT_FORCE : RegDef :=
  { base := 0x300018, dims := [], bits := 32, fields := [⟨4, 0, .wo, F.HQI_EVT_FORCED⟩] }
/-- HQI_ARB (R322). -/
def R.HQI_ARB : RegDef :=
  { base := 0x300020, dims := [], bits := 32, fields := [⟨31, 24, .rw, F.HQI_ARB_W_HIGH⟩,
    ⟨23, 16, .rw, F.HQI_ARB_W_MED⟩,
    ⟨15, 8, .rw, F.HQI_ARB_W_LOW⟩,
    ⟨2, 0, .rw, F.HQI_ARB_BURST⟩] }
/-- HQI_SQ_BASE_LO (R322). -/
def R.HQI_SQ_BASE_LO : RegDef :=
  { base := 0x300100, dims := [(65, 0x40)], bits := 32, fields := [⟨31, 12, .rw, F.HQI_SQ_BASE_LO_ADDR_LO⟩] }
/-- HQI_SQ_BASE_HI (R322). -/
def R.HQI_SQ_BASE_HI : RegDef :=
  { base := 0x300104, dims := [(65, 0x40)], bits := 32, fields := [⟨31, 0, .rw, F.HQI_SQ_BASE_HI_ADDR_HI⟩] }
/-- HQI_CQ_BASE_LO (R322). -/
def R.HQI_CQ_BASE_LO : RegDef :=
  { base := 0x300108, dims := [(65, 0x40)], bits := 32, fields := [⟨31, 12, .rw, F.HQI_CQ_BASE_LO_ADDR_LO⟩] }
/-- HQI_CQ_BASE_HI (R322). -/
def R.HQI_CQ_BASE_HI : RegDef :=
  { base := 0x30010C, dims := [(65, 0x40)], bits := 32, fields := [⟨31, 0, .rw, F.HQI_CQ_BASE_HI_ADDR_HI⟩] }
/-- HQI_QP_CTL (R322). -/
def R.HQI_QP_CTL : RegDef :=
  { base := 0x300110, dims := [(65, 0x40)], bits := 32, fields := [⟨27, 16, .rw, F.HQI_QP_CTL_SIZE⟩,
    ⟨9, 8, .rw, F.HQI_QP_CTL_CLASS⟩,
    ⟨2, 2, .rw, F.HQI_QP_CTL_RO_DATA⟩,
    ⟨1, 1, .rw, F.HQI_QP_CTL_IEN⟩,
    ⟨0, 0, .rw, F.HQI_QP_CTL_EN⟩] }
/-- HQI_QP_INT (R322). -/
def R.HQI_QP_INT : RegDef :=
  { base := 0x300114, dims := [(65, 0x40)], bits := 32, fields := [⟨23, 16, .rw, F.HQI_QP_INT_VECTOR⟩,
    ⟨15, 8, .rw, F.HQI_QP_INT_COAL_CNT⟩,
    ⟨7, 0, .rw, F.HQI_QP_INT_COAL_TIME⟩] }
/-- HQI_QP_STATUS (R322). -/
def R.HQI_QP_STATUS : RegDef :=
  { base := 0x300118, dims := [(65, 0x40)], bits := 32, fields := [⟨31, 31, .ro, F.HQI_QP_STATUS_ENABLED⟩,
    ⟨30, 30, .ro, F.HQI_QP_STATUS_ERR⟩,
    ⟨27, 24, .ro, F.HQI_QP_STATUS_CAUSE⟩,
    ⟨23, 12, .ro, F.HQI_QP_STATUS_CQ_TAIL⟩,
    ⟨11, 0, .ro, F.HQI_QP_STATUS_SQ_HEAD⟩] }
/-- HQI_SQ_TAIL (R322). -/
def R.HQI_SQ_TAIL : RegDef :=
  { base := 0x310000, dims := [(65, 0x8)], bits := 32, fields := [⟨11, 0, .wo, F.HQI_SQ_TAIL_TAIL⟩] }
/-- HQI_CQ_HEAD (R322). -/
def R.HQI_CQ_HEAD : RegDef :=
  { base := 0x310004, dims := [(65, 0x8)], bits := 32, fields := [⟨11, 0, .wo, F.HQI_CQ_HEAD_HEAD⟩] }
/-- MEM_CTL (R349, R350). -/
def R.MEM_CTL : RegDef :=
  { base := 0xE00000, dims := [], bits := 32, fields := [⟨0, 0, .rw, F.MEM_CTL_SSCRUB_EN⟩] }
/-- MEM_STATUS (R349, R350). -/
def R.MEM_STATUS : RegDef :=
  { base := 0xE00004, dims := [], bits := 32, fields := [⟨31, 31, .ro, F.MEM_STATUS_INIT_DONE⟩,
    ⟨30, 30, .ro, F.MEM_STATUS_INIT_FAIL⟩,
    ⟨29, 28, .ro, F.MEM_STATUS_RATE⟩,
    ⟨27, 24, .ro, F.MEM_STATUS_CHANNELS⟩,
    ⟨23, 22, .ro, F.MEM_STATUS_DENSITY⟩,
    ⟨21, 21, .ro, F.MEM_STATUS_RANKS2⟩,
    ⟨7, 0, .ro, F.MEM_STATUS_GIB⟩] }
/-- MEM_EVT (R349, R350). -/
def R.MEM_EVT : RegDef :=
  { base := 0xE00010, dims := [], bits := 32, fields := [⟨9, 9, .rw1c, F.MEM_EVT_INIT_FAIL⟩,
    ⟨8, 8, .rw1c, F.MEM_EVT_CFG_REJECT⟩,
    ⟨7, 7, .rw1c, F.MEM_EVT_REPAIR_OVERFLOW⟩,
    ⟨6, 6, .rw1c, F.MEM_EVT_SCRUB_SLOW⟩,
    ⟨5, 5, .rw1c, F.MEM_EVT_SCRUB_DONE⟩,
    ⟨4, 4, .rw1c, F.MEM_EVT_PARTIAL_DISCARD⟩,
    ⟨3, 3, .rw1c, F.MEM_EVT_NARROW_REJECT⟩,
    ⟨2, 2, .rw1c, F.MEM_EVT_SRAM_UE⟩,
    ⟨1, 1, .rw1c, F.MEM_EVT_DRAM_UE⟩,
    ⟨0, 0, .rw1c, F.MEM_EVT_CE_OVERFLOW⟩] }
/-- MEM_EVT_MASK (R349, R350). -/
def R.MEM_EVT_MASK : RegDef :=
  { base := 0xE00014, dims := [], bits := 32, fields := [⟨9, 0, .rw, F.MEM_EVT_MASK_MASK⟩] }
/-- MEM_EVT_FORCE (R349, R350). -/
def R.MEM_EVT_FORCE : RegDef :=
  { base := 0xE00018, dims := [], bits := 32, fields := [⟨9, 0, .wo, F.MEM_EVT_FORCED⟩] }
/-- MEM_CE_CTL (R349, R350). -/
def R.MEM_CE_CTL : RegDef :=
  { base := 0xE00020, dims := [(2, 0x4)], bits := 32, fields := [⟨31, 16, .rw, F.MEM_CE_CTL_DEPTH⟩,
    ⟨15, 0, .rw, F.MEM_CE_CTL_LEAK⟩] }
/-- MEM_CE_STATUS (R349, R350). -/
def R.MEM_CE_STATUS : RegDef :=
  { base := 0xE00028, dims := [(2, 0x4)], bits := 32, fields := [⟨31, 16, .ro, F.MEM_CE_STATUS_LEVEL⟩,
    ⟨15, 0, .rc, F.MEM_CE_STATUS_OVERFLOWS⟩] }
/-- MEM_CE_TOTAL (R349, R350). -/
def R.MEM_CE_TOTAL : RegDef :=
  { base := 0xE00030, dims := [(2, 0x4)], bits := 32, fields := [⟨31, 0, .rc, F.MEM_CE_TOTAL_COUNT⟩] }
/-- MEM_UE_LOG (R349, R350). -/
def R.MEM_UE_LOG : RegDef :=
  { base := 0xE00040, dims := [], bits := 32, fields := [⟨31, 31, .rw1c, F.MEM_UE_LOG_VALID⟩,
    ⟨30, 30, .ro, F.MEM_UE_LOG_CLASS⟩,
    ⟨29, 29, .ro, F.MEM_UE_LOG_POISON⟩,
    ⟨28, 24, .ro, F.MEM_UE_LOG_SOURCE⟩,
    ⟨15, 0, .rc, F.MEM_UE_LOG_COUNT⟩] }
/-- MEM_UE_ADDR (R349, R350). -/
def R.MEM_UE_ADDR : RegDef :=
  { base := 0xE00044, dims := [], bits := 32, fields := [⟨31, 0, .ro, F.MEM_UE_ADDR_ADDR⟩] }
/-- MEM_PWD_LOG (R349, R350). -/
def R.MEM_PWD_LOG : RegDef :=
  { base := 0xE00050, dims := [], bits := 32, fields := [⟨31, 30, .ro, F.MEM_PWD_LOG_KIND⟩,
    ⟨15, 0, .rc, F.MEM_PWD_LOG_COUNT⟩] }
/-- MEM_PWD_ADDR (R349, R350). -/
def R.MEM_PWD_ADDR : RegDef :=
  { base := 0xE00054, dims := [], bits := 32, fields := [⟨31, 0, .ro, F.MEM_PWD_ADDR_ADDR⟩] }
/-- MEM_SSCRUB (R349, R350). -/
def R.MEM_SSCRUB : RegDef :=
  { base := 0xE00060, dims := [], bits := 32, fields := [⟨15, 0, .rw, F.MEM_SSCRUB_LAP_MAX⟩] }
/-- MEM_SSCRUB_STATUS (R349, R350). -/
def R.MEM_SSCRUB_STATUS : RegDef :=
  { base := 0xE00064, dims := [], bits := 32, fields := [⟨31, 16, .ro, F.MEM_SSCRUB_STATUS_LAP⟩,
    ⟨15, 0, .rc, F.MEM_SSCRUB_STATUS_LAPS⟩] }
/-- MEM_DSCRUB_START (R349, R350). -/
def R.MEM_DSCRUB_START : RegDef :=
  { base := 0xE00080, dims := [], bits := 32, fields := [⟨30, 0, .rw, F.MEM_DSCRUB_START_LINE⟩] }
/-- MEM_DSCRUB_END (R349, R350). -/
def R.MEM_DSCRUB_END : RegDef :=
  { base := 0xE00084, dims := [], bits := 32, fields := [⟨30, 0, .rw, F.MEM_DSCRUB_END_LINE⟩] }
/-- MEM_DSCRUB_CTL (R349, R350). -/
def R.MEM_DSCRUB_CTL : RegDef :=
  { base := 0xE00088, dims := [], bits := 32, fields := [⟨31, 16, .rw, F.MEM_DSCRUB_CTL_RATE⟩,
    ⟨1, 1, .wo, F.MEM_DSCRUB_CTL_STOP⟩,
    ⟨0, 0, .wo, F.MEM_DSCRUB_CTL_GO⟩] }
/-- MEM_DSCRUB_STATUS (R349, R350). -/
def R.MEM_DSCRUB_STATUS : RegDef :=
  { base := 0xE0008C, dims := [], bits := 32, fields := [⟨31, 31, .ro, F.MEM_DSCRUB_STATUS_BUSY⟩,
    ⟨30, 30, .ro, F.MEM_DSCRUB_STATUS_DONE⟩,
    ⟨29, 29, .ro, F.MEM_DSCRUB_STATUS_STOPPED⟩,
    ⟨28, 0, .ro, F.MEM_DSCRUB_STATUS_LINES⟩] }
/-- MEM_DSCRUB_CE (R349, R350). -/
def R.MEM_DSCRUB_CE : RegDef :=
  { base := 0xE00090, dims := [], bits := 32, fields := [⟨31, 0, .ro, F.MEM_DSCRUB_CE_COUNT⟩] }
/-- MEM_DSCRUB_UE (R349, R350). -/
def R.MEM_DSCRUB_UE : RegDef :=
  { base := 0xE00094, dims := [], bits := 32, fields := [⟨31, 0, .ro, F.MEM_DSCRUB_UE_COUNT⟩] }
/-- MEM_DSCRUB_FIRST (R349, R350). -/
def R.MEM_DSCRUB_FIRST : RegDef :=
  { base := 0xE00098, dims := [], bits := 32, fields := [⟨30, 0, .ro, F.MEM_DSCRUB_FIRST_LINE⟩] }
/-- MEM_DSCRUB_LAST (R349, R350). -/
def R.MEM_DSCRUB_LAST : RegDef :=
  { base := 0xE0009C, dims := [], bits := 32, fields := [⟨30, 0, .ro, F.MEM_DSCRUB_LAST_LINE⟩] }
/-- MEM_DSCRUB_WORST (R349, R350). -/
def R.MEM_DSCRUB_WORST : RegDef :=
  { base := 0xE000A0, dims := [], bits := 32, fields := [⟨30, 0, .ro, F.MEM_DSCRUB_WORST_LINE⟩] }
/-- MEM_DSCRUB_WINFO (R349, R350). -/
def R.MEM_DSCRUB_WINFO : RegDef :=
  { base := 0xE000A4, dims := [], bits := 32, fields := [⟨8, 8, .ro, F.MEM_DSCRUB_WINFO_UE⟩,
    ⟨7, 4, .ro, F.MEM_DSCRUB_WINFO_CWS⟩,
    ⟨3, 0, .ro, F.MEM_DSCRUB_WINFO_DEVICE⟩] }
/-- MEM_TEST_CTL (R349, R350). -/
def R.MEM_TEST_CTL : RegDef :=
  { base := 0xE000C0, dims := [], bits := 32, fields := [⟨31, 31, .ro, F.MEM_TEST_CTL_BUSY⟩,
    ⟨3, 2, .wo, F.MEM_TEST_CTL_OP⟩,
    ⟨1, 1, .rw, F.MEM_TEST_CTL_SRAM⟩,
    ⟨0, 0, .rw, F.MEM_TEST_CTL_EN⟩] }
/-- MEM_TEST_SCHK (R349, R350). -/
def R.MEM_TEST_SCHK : RegDef :=
  { base := 0xE000C4, dims := [], bits := 32, fields := [⟨15, 8, .ro, F.MEM_TEST_SCHK_RD⟩,
    ⟨7, 0, .rw, F.MEM_TEST_SCHK_WR⟩] }
/-- MEM_TEST_LINE (R349, R350). -/
def R.MEM_TEST_LINE : RegDef :=
  { base := 0xE000C8, dims := [], bits := 32, fields := [⟨30, 0, .rw, F.MEM_TEST_LINE_LINE⟩] }
/-- MEM_TEST_DATA (R349, R350). -/
def R.MEM_TEST_DATA : RegDef :=
  { base := 0xE000D0, dims := [(16, 0x4)], bits := 32, fields := [⟨31, 0, .rw, F.MEM_TEST_DATA_BYTES⟩] }
/-- MEM_TEST_CHK (R349, R350). -/
def R.MEM_TEST_CHK : RegDef :=
  { base := 0xE00110, dims := [(4, 0x4)], bits := 32, fields := [⟨31, 0, .rw, F.MEM_TEST_CHK_BYTES⟩] }
/-- MEM_REPAIR (R349, R350). -/
def R.MEM_REPAIR : RegDef :=
  { base := 0xE00120, dims := [], bits := 32, fields := [⟨31, 16, .ro, F.MEM_REPAIR_SOFT⟩,
    ⟨15, 0, .ro, F.MEM_REPAIR_FUSED⟩] }
/-- LCA_WAY_STATUS (R349, R350). -/
def R.LCA_WAY_STATUS : RegDef :=
  { base := 0xE40000, dims := [], bits := 32, fields := [⟨31, 27, .ro, F.LCA_WAY_STATUS_WAYS⟩,
    ⟨15, 0, .ro, F.LCA_WAY_STATUS_ON⟩] }
/-- LCA_WAY_CTL (R349, R350). -/
def R.LCA_WAY_CTL : RegDef :=
  { base := 0xE40004, dims := [], bits := 32, fields := [⟨31, 16, .rw, F.LCA_WAY_CTL_OFF⟩,
    ⟨15, 0, .rw, F.LCA_WAY_CTL_LOCK⟩] }
/-- LCA_EVT (R349, R350). -/
def R.LCA_EVT : RegDef :=
  { base := 0xE40010, dims := [], bits := 32, fields := [⟨4, 4, .rw1c, F.LCA_EVT_CFG_REJECT⟩,
    ⟨3, 3, .rw1c, F.LCA_EVT_TAG_UE⟩,
    ⟨2, 2, .rw1c, F.LCA_EVT_POISON_WB⟩,
    ⟨1, 1, .rw1c, F.LCA_EVT_WAY_OFF⟩,
    ⟨0, 0, .rw1c, F.LCA_EVT_OP_DONE⟩] }
/-- LCA_EVT_MASK (R349, R350). -/
def R.LCA_EVT_MASK : RegDef :=
  { base := 0xE40014, dims := [], bits := 32, fields := [⟨4, 0, .rw, F.LCA_EVT_MASK_MASK⟩] }
/-- LCA_EVT_FORCE (R349, R350). -/
def R.LCA_EVT_FORCE : RegDef :=
  { base := 0xE40018, dims := [], bits := 32, fields := [⟨4, 0, .wo, F.LCA_EVT_FORCED⟩] }
/-- LCA_OP (R349, R350). -/
def R.LCA_OP : RegDef :=
  { base := 0xE40020, dims := [], bits := 32, fields := [⟨9, 6, .rw, F.LCA_OP_WAY⟩,
    ⟨5, 5, .rw, F.LCA_OP_FORCE⟩,
    ⟨4, 4, .rw, F.LCA_OP_MODE⟩,
    ⟨3, 1, .rw, F.LCA_OP_OP⟩,
    ⟨0, 0, .wo, F.LCA_OP_GO⟩] }
/-- LCA_OP_START (R349, R350). -/
def R.LCA_OP_START : RegDef :=
  { base := 0xE40024, dims := [], bits := 32, fields := [⟨30, 0, .rw, F.LCA_OP_START_LINE⟩] }
/-- LCA_OP_END (R349, R350). -/
def R.LCA_OP_END : RegDef :=
  { base := 0xE40028, dims := [], bits := 32, fields := [⟨30, 0, .rw, F.LCA_OP_END_LINE⟩] }
/-- LCA_OP_STATUS (R349, R350). -/
def R.LCA_OP_STATUS : RegDef :=
  { base := 0xE4002C, dims := [], bits := 32, fields := [⟨31, 31, .ro, F.LCA_OP_STATUS_BUSY⟩,
    ⟨30, 30, .ro, F.LCA_OP_STATUS_DONE⟩,
    ⟨29, 29, .ro, F.LCA_OP_STATUS_REFUSED⟩,
    ⟨28, 15, .ro, F.LCA_OP_STATUS_SKIPPED⟩,
    ⟨14, 0, .ro, F.LCA_OP_STATUS_AFFECTED⟩] }
/-- LCA_HITS (R349, R350). -/
def R.LCA_HITS : RegDef :=
  { base := 0xE40030, dims := [], bits := 32, fields := [⟨31, 0, .rc, F.LCA_HITS_COUNT⟩] }
/-- LCA_MISSES (R349, R350). -/
def R.LCA_MISSES : RegDef :=
  { base := 0xE40034, dims := [], bits := 32, fields := [⟨31, 0, .rc, F.LCA_MISSES_COUNT⟩] }
/-- CFG_STATUS (R385). -/
def R.CFG_STATUS : RegDef :=
  { base := 0x1000000, dims := [], bits := 32, fields := [⟨31, 31, .ro, F.CFG_STATUS_LOADED⟩,
    ⟨30, 30, .ro, F.CFG_STATUS_LOAD_FAIL⟩,
    ⟨29, 29, .ro, F.CFG_STATUS_FALLBACK⟩,
    ⟨28, 28, .ro, F.CFG_STATUS_SLOT⟩,
    ⟨27, 27, .ro, F.CFG_STATUS_RECORD_READY⟩,
    ⟨23, 16, .ro, F.CFG_STATUS_RESET_CAUSE⟩,
    ⟨15, 0, .ro, F.CFG_STATUS_FAIL_CLAUSE⟩] }
/-- CFG_LOAD_CAUSE (R385). -/
def R.CFG_LOAD_CAUSE : RegDef :=
  { base := 0x1000004, dims := [], bits := 32, fields := [⟨15, 8, .ro, F.CFG_LOAD_CAUSE_CAUSE_A⟩,
    ⟨7, 0, .ro, F.CFG_LOAD_CAUSE_CAUSE_B⟩] }
/-- CFG_IMAGE_VER (R385). -/
def R.CFG_IMAGE_VER : RegDef :=
  { base := 0x1000008, dims := [], bits := 32, fields := [⟨31, 0, .ro, F.CFG_IMAGE_VER_VER⟩] }
/-- CFG_SVN (R385). -/
def R.CFG_SVN : RegDef :=
  { base := 0x100000C, dims := [], bits := 32, fields := [⟨23, 16, .ro, F.CFG_SVN_RUN⟩,
    ⟨15, 8, .ro, F.CFG_SVN_FUSED⟩] }
/-- CFG_EVT (R385). -/
def R.CFG_EVT : RegDef :=
  { base := 0x1000010, dims := [], bits := 32, fields := [⟨12, 12, .rw1c, F.CFG_EVT_CFG_REJECT⟩,
    ⟨11, 11, .rw1c, F.CFG_EVT_FUSE_FAIL⟩,
    ⟨10, 10, .rw1c, F.CFG_EVT_SVN_COMMITTED⟩,
    ⟨9, 9, .rw1c, F.CFG_EVT_LOG_FAIL⟩,
    ⟨8, 8, .rw1c, F.CFG_EVT_SHIFT_STAYED⟩,
    ⟨7, 7, .rw1c, F.CFG_EVT_SHIFT_LATE⟩,
    ⟨6, 6, .rw1c, F.CFG_EVT_SHIFT_APPLIED⟩,
    ⟨5, 5, .rw1c, F.CFG_EVT_ARMED⟩,
    ⟨4, 4, .rw1c, F.CFG_EVT_STAGE_FAIL⟩,
    ⟨3, 3, .rw1c, F.CFG_EVT_STAGE_READY⟩,
    ⟨2, 2, .rw1c, F.CFG_EVT_PIECE_REJECT⟩,
    ⟨1, 1, .rw1c, F.CFG_EVT_FALLBACK⟩,
    ⟨0, 0, .rw1c, F.CFG_EVT_LOAD_FAIL⟩] }
/-- CFG_EVT_MASK (R385). -/
def R.CFG_EVT_MASK : RegDef :=
  { base := 0x1000014, dims := [], bits := 32, fields := [⟨12, 0, .rw, F.CFG_EVT_MASK_MASK⟩] }
/-- CFG_EVT_FORCE (R385). -/
def R.CFG_EVT_FORCE : RegDef :=
  { base := 0x1000018, dims := [], bits := 32, fields := [⟨12, 0, .wo, F.CFG_EVT_FORCED⟩] }
/-- CFG_EPOCH_LO (R385). -/
def R.CFG_EPOCH_LO : RegDef :=
  { base := 0x1000020, dims := [], bits := 32, fields := [⟨31, 0, .ro, F.CFG_EPOCH_LO_EPOCH⟩] }
/-- CFG_EPOCH_HI (R385). -/
def R.CFG_EPOCH_HI : RegDef :=
  { base := 0x1000024, dims := [], bits := 32, fields := [⟨31, 0, .ro, F.CFG_EPOCH_HI_EPOCH⟩] }
/-- CFG_BOOT_CTR (R385). -/
def R.CFG_BOOT_CTR : RegDef :=
  { base := 0x1000028, dims := [], bits := 32, fields := [⟨31, 0, .ro, F.CFG_BOOT_CTR_CTR⟩] }
/-- CFG_KEYS (R385). -/
def R.CFG_KEYS : RegDef :=
  { base := 0x100002C, dims := [], bits := 32, fields := [⟨15, 12, .ro, F.CFG_KEYS_REVOKED⟩,
    ⟨11, 8, .ro, F.CFG_KEYS_FUSED⟩,
    ⟨7, 4, .ro, F.CFG_KEYS_USABLE⟩,
    ⟨1, 0, .ro, F.CFG_KEYS_RUN_SLOT⟩] }
/-- CFG_STAGE_STATUS (R385). -/
def R.CFG_STAGE_STATUS : RegDef :=
  { base := 0x1000030, dims := [], bits := 32, fields := [⟨31, 29, .ro, F.CFG_STAGE_STATUS_STATE⟩,
    ⟨28, 16, .ro, F.CFG_STAGE_STATUS_COUNT⟩,
    ⟨12, 0, .ro, F.CFG_STAGE_STATUS_RECEIVED⟩] }
/-- CFG_STAGE_EPOCH_LO (R385). -/
def R.CFG_STAGE_EPOCH_LO : RegDef :=
  { base := 0x1000034, dims := [], bits := 32, fields := [⟨31, 0, .ro, F.CFG_STAGE_EPOCH_LO_EPOCH⟩] }
/-- CFG_STAGE_EPOCH_HI (R385). -/
def R.CFG_STAGE_EPOCH_HI : RegDef :=
  { base := 0x1000038, dims := [], bits := 32, fields := [⟨31, 0, .ro, F.CFG_STAGE_EPOCH_HI_EPOCH⟩] }
/-- CFG_STAGE_REJECT (R385). -/
def R.CFG_STAGE_REJECT : RegDef :=
  { base := 0x100003C, dims := [], bits := 32, fields := [⟨31, 24, .ro, F.CFG_STAGE_REJECT_LAST⟩,
    ⟨23, 16, .ro, F.CFG_STAGE_REJECT_FAIL⟩,
    ⟨15, 0, .rc, F.CFG_STAGE_REJECT_COUNT⟩] }
/-- CFG_STAGE_CTL (R385). -/
def R.CFG_STAGE_CTL : RegDef :=
  { base := 0x1000040, dims := [], bits := 32, fields := [⟨0, 0, .wo, F.CFG_STAGE_CTL_ABANDON⟩] }
/-- CFG_SHIFT_STATUS (R385). -/
def R.CFG_SHIFT_STATUS : RegDef :=
  { base := 0x1000044, dims := [], bits := 32, fields := [⟨31, 29, .ro, F.CFG_SHIFT_STATUS_STATE⟩,
    ⟨12, 0, .ro, F.CFG_SHIFT_STATUS_DEFER⟩] }
/-- CFG_SHIFT_FRAME_LO (R385). -/
def R.CFG_SHIFT_FRAME_LO : RegDef :=
  { base := 0x1000048, dims := [], bits := 32, fields := [⟨31, 0, .ro, F.CFG_SHIFT_FRAME_LO_F_LO⟩] }
/-- CFG_SHIFT_FRAME_HI (R385). -/
def R.CFG_SHIFT_FRAME_HI : RegDef :=
  { base := 0x100004C, dims := [], bits := 32, fields := [⟨7, 0, .ro, F.CFG_SHIFT_FRAME_HI_F_HI⟩] }
/-- CFG_FUSE_CMD (R385). -/
def R.CFG_FUSE_CMD : RegDef :=
  { base := 0x1000050, dims := [], bits := 32, fields := [⟨31, 31, .ro, F.CFG_FUSE_CMD_BUSY⟩,
    ⟨30, 30, .ro, F.CFG_FUSE_CMD_FAIL⟩,
    ⟨23, 16, .wo, F.CFG_FUSE_CMD_CONFIRM⟩,
    ⟨9, 8, .wo, F.CFG_FUSE_CMD_SLOT⟩,
    ⟨2, 0, .wo, F.CFG_FUSE_CMD_OP⟩] }
/-- CFG_LOG_STATUS (R385). -/
def R.CFG_LOG_STATUS : RegDef :=
  { base := 0x1000054, dims := [], bits := 32, fields := [⟨31, 16, .rc, F.CFG_LOG_STATUS_FAILS⟩,
    ⟨12, 0, .ro, F.CFG_LOG_STATUS_HELD⟩] }
/-- CFG_DIGEST (R385). -/
def R.CFG_DIGEST : RegDef :=
  { base := 0x1000080, dims := [(12, 0x4)], bits := 32, fields := [⟨31, 0, .ro, F.CFG_DIGEST_BYTES⟩] }
/-- TRL_CTL (R407). -/
def R.TRL_CTL : RegDef :=
  { base := 0x1100000, dims := [], bits := 32, fields := [⟨3, 3, .rw, F.TRL_CTL_RESET_EN⟩,
    ⟨2, 2, .wo, F.TRL_CTL_ELECT⟩,
    ⟨1, 1, .rw, F.TRL_CTL_PIECE_EN⟩,
    ⟨0, 0, .rw, F.TRL_CTL_EN⟩] }
/-- TRL_STATUS (R407). -/
def R.TRL_STATUS : RegDef :=
  { base := 0x1100004, dims := [], bits := 32, fields := [⟨31, 29, .ro, F.TRL_STATUS_ROLE⟩,
    ⟨28, 28, .ro, F.TRL_STATUS_BYP_HOLD⟩,
    ⟨27, 27, .ro, F.TRL_STATUS_MIXED⟩,
    ⟨26, 26, .ro, F.TRL_STATUS_OPEN⟩,
    ⟨25, 25, .ro, F.TRL_STATUS_EXCLUDED⟩,
    ⟨24, 24, .ro, F.TRL_STATUS_IN_LOCK⟩,
    ⟨9, 0, .ro, F.TRL_STATUS_POSITION⟩] }
/-- TRL_TIME_LO (R407). -/
def R.TRL_TIME_LO : RegDef :=
  { base := 0x1100008, dims := [], bits := 32, fields := [⟨31, 0, .ro, F.TRL_TIME_LO_TIME_LO⟩] }
/-- TRL_TIME_HI (R407). -/
def R.TRL_TIME_HI : RegDef :=
  { base := 0x110000C, dims := [], bits := 32, fields := [⟨7, 0, .ro, F.TRL_TIME_HI_TIME_HI⟩] }
/-- TRL_EVT (R407). -/
def R.TRL_EVT : RegDef :=
  { base := 0x1100010, dims := [], bits := 32, fields := [⟨14, 14, .rw1c, F.TRL_EVT_TOO_MANY⟩,
    ⟨13, 13, .rw1c, F.TRL_EVT_LOOP_FAIL⟩,
    ⟨12, 12, .rw1c, F.TRL_EVT_CFG_REJECT⟩,
    ⟨11, 11, .rw1c, F.TRL_EVT_LAP_LONG⟩,
    ⟨10, 10, .rw1c, F.TRL_EVT_EXCLUDED⟩,
    ⟨9, 9, .rw1c, F.TRL_EVT_SHIFT_REFUSED⟩,
    ⟨8, 8, .rw1c, F.TRL_EVT_CRC_ERR⟩,
    ⟨7, 7, .rw1c, F.TRL_EVT_TX_DONE⟩,
    ⟨6, 6, .rw1c, F.TRL_EVT_MSG_RX⟩,
    ⟨5, 5, .rw1c, F.TRL_EVT_RING_OPEN⟩,
    ⟨4, 4, .rw1c, F.TRL_EVT_UNMIXED⟩,
    ⟨3, 3, .rw1c, F.TRL_EVT_MIXED⟩,
    ⟨2, 2, .rw1c, F.TRL_EVT_HEAD_CHANGE⟩,
    ⟨1, 1, .rw1c, F.TRL_EVT_ELECTION⟩,
    ⟨0, 0, .rw1c, F.TRL_EVT_JOINED⟩] }
/-- TRL_EVT_MASK (R407). -/
def R.TRL_EVT_MASK : RegDef :=
  { base := 0x1100014, dims := [], bits := 32, fields := [⟨14, 0, .rw, F.TRL_EVT_MASK_MASK⟩] }
/-- TRL_EVT_FORCE (R407). -/
def R.TRL_EVT_FORCE : RegDef :=
  { base := 0x1100018, dims := [], bits := 32, fields := [⟨14, 0, .wo, F.TRL_EVT_FORCED⟩] }
/-- TRL_IN_DELAY (R407). -/
def R.TRL_IN_DELAY : RegDef :=
  { base := 0x1100020, dims := [], bits := 32, fields := [⟨15, 0, .rw, F.TRL_IN_DELAY_DELAY⟩] }
/-- TRL_PATH (R407). -/
def R.TRL_PATH : RegDef :=
  { base := 0x1100024, dims := [], bits := 32, fields := [⟨23, 0, .ro, F.TRL_PATH_PATH⟩] }
/-- TRL_LAP (R407). -/
def R.TRL_LAP : RegDef :=
  { base := 0x1100028, dims := [], bits := 32, fields := [⟨31, 21, .ro, F.TRL_LAP_UNITS⟩,
    ⟨20, 0, .ro, F.TRL_LAP_LAP⟩] }
/-- TRL_HEAD_LO (R407). -/
def R.TRL_HEAD_LO : RegDef :=
  { base := 0x110002C, dims := [], bits := 32, fields := [⟨31, 0, .ro, F.TRL_HEAD_LO_SERIAL⟩] }
/-- TRL_HEAD_HI (R407). -/
def R.TRL_HEAD_HI : RegDef :=
  { base := 0x1100030, dims := [], bits := 32, fields := [⟨31, 0, .ro, F.TRL_HEAD_HI_SERIAL⟩] }
/-- TRL_ERR (R407). -/
def R.TRL_ERR : RegDef :=
  { base := 0x1100034, dims := [], bits := 32, fields := [⟨31, 16, .rc, F.TRL_ERR_CRC⟩,
    ⟨15, 0, .rc, F.TRL_ERR_LOCK_LOSS⟩] }
/-- TRL_SHIFT_E_LO (R407). -/
def R.TRL_SHIFT_E_LO : RegDef :=
  { base := 0x1100040, dims := [], bits := 32, fields := [⟨31, 0, .rw, F.TRL_SHIFT_E_LO_E⟩] }
/-- TRL_SHIFT_E_HI (R407). -/
def R.TRL_SHIFT_E_HI : RegDef :=
  { base := 0x1100044, dims := [], bits := 32, fields := [⟨31, 0, .rw, F.TRL_SHIFT_E_HI_E⟩] }
/-- TRL_SHIFT_CTL (R407). -/
def R.TRL_SHIFT_CTL : RegDef :=
  { base := 0x1100048, dims := [], bits := 32, fields := [⟨31, 31, .wo, F.TRL_SHIFT_CTL_GO⟩,
    ⟨30, 28, .ro, F.TRL_SHIFT_CTL_RESULT⟩,
    ⟨27, 16, .rw, F.TRL_SHIFT_CTL_COLLECT⟩,
    ⟨15, 0, .rw, F.TRL_SHIFT_CTL_LEAD⟩] }
/-- TRL_SHIFT_RING (R407). -/
def R.TRL_SHIFT_RING : RegDef :=
  { base := 0x110004C, dims := [], bits := 32, fields := [⟨31, 29, .ro, F.TRL_SHIFT_RING_PHASE⟩,
    ⟨7, 0, .ro, F.TRL_SHIFT_RING_F_HI⟩] }
/-- TRL_SHIFT_F_LO (R407). -/
def R.TRL_SHIFT_F_LO : RegDef :=
  { base := 0x1100050, dims := [], bits := 32, fields := [⟨31, 0, .ro, F.TRL_SHIFT_F_LO_F_LO⟩] }
/-- TRL_EXCL_LO (R407). -/
def R.TRL_EXCL_LO : RegDef :=
  { base := 0x1100054, dims := [], bits := 32, fields := [⟨31, 0, .rw, F.TRL_EXCL_LO_SERIAL⟩] }
/-- TRL_EXCL_HI (R407). -/
def R.TRL_EXCL_HI : RegDef :=
  { base := 0x1100058, dims := [], bits := 32, fields := [⟨31, 0, .rw, F.TRL_EXCL_HI_SERIAL⟩] }
/-- TRL_EXCL_CTL (R407). -/
def R.TRL_EXCL_CTL : RegDef :=
  { base := 0x110005C, dims := [], bits := 32, fields := [⟨31, 31, .ro, F.TRL_EXCL_CTL_BUSY⟩,
    ⟨1, 1, .rw, F.TRL_EXCL_CTL_OP⟩,
    ⟨0, 0, .wo, F.TRL_EXCL_CTL_GO⟩] }
/-- TRL_PHASE_OFS (R407). -/
def R.TRL_PHASE_OFS : RegDef :=
  { base := 0x1100060, dims := [(4, 0x4)], bits := 32, fields := [⟨15, 0, .rw, F.TRL_PHASE_OFS_OFS⟩] }
/-- TRL_TX_CTL (R407). -/
def R.TRL_TX_CTL : RegDef :=
  { base := 0x1100080, dims := [], bits := 32, fields := [⟨31, 31, .wo, F.TRL_TX_CTL_GO⟩,
    ⟨30, 28, .rw, F.TRL_TX_CTL_KIND⟩,
    ⟨27, 18, .rw, F.TRL_TX_CTL_DEST⟩,
    ⟨9, 0, .rw, F.TRL_TX_CTL_LEN⟩] }
/-- TRL_TX_STATUS (R407). -/
def R.TRL_TX_STATUS : RegDef :=
  { base := 0x1100084, dims := [], bits := 32, fields := [⟨31, 31, .ro, F.TRL_TX_STATUS_BUSY⟩,
    ⟨30, 28, .ro, F.TRL_TX_STATUS_RESULT⟩,
    ⟨15, 0, .rc, F.TRL_TX_STATUS_SENT⟩] }
/-- TRL_RX_STATUS (R407). -/
def R.TRL_RX_STATUS : RegDef :=
  { base := 0x1100088, dims := [], bits := 32, fields := [⟨31, 31, .rw1c, F.TRL_RX_STATUS_FULL⟩,
    ⟨30, 28, .ro, F.TRL_RX_STATUS_KIND⟩,
    ⟨27, 18, .ro, F.TRL_RX_STATUS_SRC⟩,
    ⟨17, 10, .rc, F.TRL_RX_STATUS_DROPS⟩,
    ⟨9, 0, .ro, F.TRL_RX_STATUS_LEN⟩] }
/-- TRL_TX_DATA (R407). -/
def R.TRL_TX_DATA : RegDef :=
  { base := 0x1101000, dims := [(1024, 0x4)], bits := 32, fields := [⟨31, 0, .rw, F.TRL_TX_DATA_WORD⟩] }
/-- TRL_RX_DATA (R407). -/
def R.TRL_RX_DATA : RegDef :=
  { base := 0x1102000, dims := [(1024, 0x4)], bits := 32, fields := [⟨31, 0, .ro, F.TRL_RX_DATA_WORD⟩] }
/-- TRL_UNIT (R407). -/
def R.TRL_UNIT : RegDef :=
  { base := 0x1108000, dims := [(1024, 0x20), (8, 0x4)], bits := 32, fields := [⟨31, 0, .ro, F.TRL_UNIT_STATUS⟩] }
/-- CAL_CTL (R425, R426). -/
def R.CAL_CTL : RegDef :=
  { base := 0x1200000, dims := [], bits := 32, fields := [⟨12, 8, .rw, F.CAL_CTL_DTEMP⟩,
    ⟨1, 1, .wo, F.CAL_CTL_FORCE⟩,
    ⟨0, 0, .rw, F.CAL_CTL_EN⟩] }
/-- CAL_STATUS (R425, R426). -/
def R.CAL_STATUS : RegDef :=
  { base := 0x1200004, dims := [], bits := 32, fields := [⟨31, 16, .ro, F.CAL_STATUS_PEND⟩,
    ⟨15, 0, .ro, F.CAL_STATUS_BUSY⟩] }
/-- CAL_EVT (R425, R426). -/
def R.CAL_EVT : RegDef :=
  { base := 0x1200010, dims := [], bits := 32, fields := [⟨5, 5, .rw1c, F.CAL_EVT_CFG_REJECT⟩,
    ⟨4, 4, .rw1c, F.CAL_EVT_SENSOR_FAIL⟩,
    ⟨3, 3, .rw1c, F.CAL_EVT_THERM_CRIT⟩,
    ⟨2, 2, .rw1c, F.CAL_EVT_THERM_WARN⟩,
    ⟨1, 1, .rw1c, F.CAL_EVT_CAL_REJECT⟩,
    ⟨0, 0, .rw1c, F.CAL_EVT_CAL_DONE⟩] }
/-- CAL_EVT_MASK (R425, R426). -/
def R.CAL_EVT_MASK : RegDef :=
  { base := 0x1200014, dims := [], bits := 32, fields := [⟨5, 0, .rw, F.CAL_EVT_MASK_MASK⟩] }
/-- CAL_EVT_FORCE (R425, R426). -/
def R.CAL_EVT_FORCE : RegDef :=
  { base := 0x1200018, dims := [], bits := 32, fields := [⟨5, 0, .wo, F.CAL_EVT_FORCED⟩] }
/-- CAL_THERM (R425, R426). -/
def R.CAL_THERM : RegDef :=
  { base := 0x1200020, dims := [], bits := 32, fields := [⟨31, 24, .rw, F.CAL_THERM_WARN⟩,
    ⟨23, 16, .rw, F.CAL_THERM_CRIT⟩] }
/-- CAL_PLAUS (R425, R426). -/
def R.CAL_PLAUS : RegDef :=
  { base := 0x1200024, dims := [], bits := 32, fields := [⟨31, 24, .rw, F.CAL_PLAUS_OFS_STEP⟩,
    ⟨23, 16, .rw, F.CAL_PLAUS_EQ_STEP⟩,
    ⟨15, 8, .rw, F.CAL_PLAUS_XCHK⟩,
    ⟨7, 0, .rw, F.CAL_PLAUS_EYE_MIN⟩] }
/-- CAL_TEMP (R425, R426). -/
def R.CAL_TEMP : RegDef :=
  { base := 0x1200100, dims := [(16, 0x4)], bits := 32, fields := [⟨31, 31, .ro, F.CAL_TEMP_VALID⟩,
    ⟨27, 16, .rc, F.CAL_TEMP_PEAK⟩,
    ⟨11, 0, .ro, F.CAL_TEMP_TEMP⟩] }
/-- CAL_RUN (R425, R426). -/
def R.CAL_RUN : RegDef :=
  { base := 0x1200140, dims := [(16, 0x4)], bits := 32, fields := [⟨31, 20, .ro, F.CAL_RUN_LAST_TEMP⟩,
    ⟨15, 8, .rc, F.CAL_RUN_REJECTS⟩,
    ⟨7, 0, .rc, F.CAL_RUN_RUNS⟩] }
/-- PWR_RESET_CAUSE (R425, R426). -/
def R.PWR_RESET_CAUSE : RegDef :=
  { base := 0x1210000, dims := [], bits := 32, fields := [⟨15, 12, .rws, F.PWR_RESET_CAUSE_LAST⟩,
    ⟨8, 8, .rws, F.PWR_RESET_CAUSE_THERM_TRIP⟩,
    ⟨7, 7, .rws, F.PWR_RESET_CAUSE_HEAD_DECK⟩,
    ⟨6, 6, .rws, F.PWR_RESET_CAUSE_RING⟩,
    ⟨5, 5, .rws, F.PWR_RESET_CAUSE_FLR1⟩,
    ⟨4, 4, .rws, F.PWR_RESET_CAUSE_FLR0⟩,
    ⟨3, 3, .rws, F.PWR_RESET_CAUSE_HOT⟩,
    ⟨2, 2, .rws, F.PWR_RESET_CAUSE_PERST⟩,
    ⟨1, 1, .rws, F.PWR_RESET_CAUSE_SRST⟩,
    ⟨0, 0, .rws, F.PWR_RESET_CAUSE_POR⟩] }
/-- PWR_STRAPS (R425, R426). -/
def R.PWR_STRAPS : RegDef :=
  { base := 0x1210004, dims := [], bits := 32, fields := [⟨2, 2, .ro, F.PWR_STRAPS_TEST⟩,
    ⟨1, 1, .ro, F.PWR_STRAPS_RING_EN⟩,
    ⟨0, 0, .ro, F.PWR_STRAPS_BIST⟩] }
/-- PWR_STATUS (R425, R426). -/
def R.PWR_STATUS : RegDef :=
  { base := 0x1210008, dims := [], bits := 32, fields := [⟨17, 17, .ro, F.PWR_STATUS_PCIE_REF⟩,
    ⟨16, 16, .ro, F.PWR_STATUS_SYSCLK⟩,
    ⟨15, 8, .ro, F.PWR_STATUS_LREF⟩,
    ⟨7, 0, .ro, F.PWR_STATUS_RAILS⟩] }
/-- PWR_EVT (R425, R426). -/
def R.PWR_EVT : RegDef :=
  { base := 0x1210010, dims := [], bits := 32, fields := [⟨3, 3, .rw1c, F.PWR_EVT_BIST_FAIL⟩,
    ⟨2, 2, .rw1c, F.PWR_EVT_LREF_LOSS⟩,
    ⟨1, 1, .rw1c, F.PWR_EVT_CLK_FAULT⟩,
    ⟨0, 0, .rw1c, F.PWR_EVT_RAIL_FAULT⟩] }
/-- PWR_EVT_MASK (R425, R426). -/
def R.PWR_EVT_MASK : RegDef :=
  { base := 0x1210014, dims := [], bits := 32, fields := [⟨3, 0, .rw, F.PWR_EVT_MASK_MASK⟩] }
/-- PWR_EVT_FORCE (R425, R426). -/
def R.PWR_EVT_FORCE : RegDef :=
  { base := 0x1210018, dims := [], bits := 32, fields := [⟨3, 0, .wo, F.PWR_EVT_FORCED⟩] }
/-- PWR_BIST (R425, R426). -/
def R.PWR_BIST : RegDef :=
  { base := 0x1210020, dims := [], bits := 32, fields := [⟨31, 31, .ro, F.PWR_BIST_RAN⟩,
    ⟨30, 30, .ro, F.PWR_BIST_FAIL⟩,
    ⟨15, 8, .ro, F.PWR_BIST_REPAIRED⟩,
    ⟨7, 0, .ro, F.PWR_BIST_UNREPAIRED⟩] }
/-- GLB_INT_BLOCK (R457). -/
def R.GLB_INT_BLOCK : RegDef :=
  { base := 0x100, dims := [], bits := 32, fields := [⟨22, 0, .ro, F.GLB_INT_BLOCK_VEC⟩] }
/-- GLB_INT_DECK (R457). -/
def R.GLB_INT_DECK : RegDef :=
  { base := 0x110, dims := [(8, 0x4)], bits := 32, fields := [⟨16, 16, .ro, F.GLB_INT_DECK_WND⟩,
    ⟨15, 12, .ro, F.GLB_INT_DECK_CHN⟩,
    ⟨11, 8, .ro, F.GLB_INT_DECK_SLD⟩,
    ⟨7, 4, .ro, F.GLB_INT_DECK_LRN⟩,
    ⟨3, 0, .ro, F.GLB_INT_DECK_CLR⟩] }
/-- LRN_ENTRY (R146). -/
def R.LRN_ENTRY : RegDef :=
  { base := 0x1400000, dims := [(32, 0x4000), (2, 0x2000), (1024, 0x8)], bits := 64, fields := [⟨31, 0, .rw, F.LRN_ENTRY_W⟩] }
/-- LRN_SCALE (R146). -/
def R.LRN_SCALE : RegDef :=
  { base := 0x1480000, dims := [(2, 0x200), (40, 0x8)], bits := 64, fields := [⟨55, 32, .rw, F.LRN_SCALE_RECIP⟩,
    ⟨23, 0, .rw, F.LRN_SCALE_GAIN⟩] }
/-- CHN_ZONE (R217). -/
def R.CHN_ZONE : RegDef :=
  { base := 0x1500000, dims := [(128, 0x1000), (384, 0x8)], bits := 64, fields := [⟨47, 32, .rw, F.CHN_ZONE_GAIN⟩,
    ⟨27, 16, .rw, F.CHN_ZONE_OFS⟩,
    ⟨11, 0, .rw, F.CHN_ZONE_ASYM⟩] }
/-- CHN_EQ_START (R217). -/
def R.CHN_EQ_START : RegDef :=
  { base := 0x1580000, dims := [(128, 0x1000), (24, 0x80), (15, 0x8)], bits := 64, fields := [⟨15, 0, .rw, F.CHN_EQ_START_TAP⟩] }
/-- WRP_POWER (R274). -/
def R.WRP_POWER : RegDef :=
  { base := 0x1600000, dims := [(32, 0x1000), (384, 0x8)], bits := 64, fields := [⟨63, 63, .rw, F.WRP_POWER_VALID⟩,
    ⟨62, 56, .rw, F.WRP_POWER_WSTRAT⟩,
    ⟨55, 46, .rw, F.WRP_POWER_PEAK⟩,
    ⟨45, 36, .rw, F.WRP_POWER_BIAS⟩,
    ⟨35, 26, .rw, F.WRP_POWER_COOL⟩] }
/-- WRP_SPARE (R274). -/
def R.WRP_SPARE : RegDef :=
  { base := 0x1700000, dims := [(8, 0x30000), (64, 0xC00), (384, 0x8)], bits := 64, fields := [⟨63, 63, .ro, F.WRP_SPARE_VALID⟩,
    ⟨62, 59, .ro, F.WRP_SPARE_REASON⟩,
    ⟨31, 16, .ro, F.WRP_SPARE_LODE⟩,
    ⟨15, 0, .ro, F.WRP_SPARE_POS⟩] }
/-- The registers and tables of block GLB. -/
def regsGlb : List RegDef :=
  [R.GLB_DEVICE_ID, R.GLB_EVT, R.GLB_EVT_MASK, R.GLB_EVT_FORCE, R.GLB_HEAD_FAULT, R.GLB_DECK_FAULT, R.GLB_TAKEOVER, R.GLB_HANDOVER, R.GLB_TAKEOVER_CTL, R.GLB_INT_BLOCK, R.GLB_INT_DECK]
/-- The registers and tables of block TCK. -/
def regsTck : List RegDef :=
  [R.TCK_CTL, R.TCK_STATUS, R.TCK_COUNT_LO, R.TCK_COUNT_HI, R.TCK_EVT, R.TCK_EVT_MASK, R.TCK_EVT_FORCE, R.TCK_ASY_DEADLINE, R.TCK_OVR_HEADS, R.TCK_OVR_DECKS, R.TCK_ASY_MISS, R.TCK_CLR_OVR, R.TCK_CLR_MAXCYC, R.TCK_WND_OVR]
/-- The registers and tables of block HIF. -/
def regsHif : List RegDef :=
  [R.HIF_CTL, R.HIF_LINK, R.HIF_CONTAIN, R.HIF_EVT, R.HIF_EVT_MASK, R.HIF_EVT_FORCE, R.HIF_CPL_ERR, R.HIF_RX_ERR, R.HIF_LTR, R.HIF_WIN_COMMIT, R.HIF_WIN_STATUS, R.HIF_WIN_BASE_LO, R.HIF_WIN_BASE_HI, R.HIF_WIN_SIZE_CTL, R.HIF_WIN_LIVE_BASE_LO, R.HIF_WIN_LIVE_BASE_HI, R.HIF_WIN_LIVE_SIZE_CTL]
/-- The registers and tables of block HQI. -/
def regsHqi : List RegDef :=
  [R.HQI_CAP, R.HQI_CC, R.HQI_CSTS, R.HQI_EVT, R.HQI_EVT_MASK, R.HQI_EVT_FORCE, R.HQI_ARB, R.HQI_SQ_BASE_LO, R.HQI_SQ_BASE_HI, R.HQI_CQ_BASE_LO, R.HQI_CQ_BASE_HI, R.HQI_QP_CTL, R.HQI_QP_INT, R.HQI_QP_STATUS, R.HQI_SQ_TAIL, R.HQI_CQ_HEAD]
/-- The registers and tables of block CLR. -/
def regsClr : List RegDef :=
  [R.CLR_CTL, R.CLR_STATUS, R.CLR_POS, R.CLR_OFFTRACK, R.CLR_EVT, R.CLR_EVT_MASK, R.CLR_EVT_FORCE, R.CLR_SAT, R.CLR_COEF_COMMIT, R.CLR_LOOP_CTL, R.CLR_SP, R.CLR_SP_SLEW, R.CLR_IN_GAIN, R.CLR_INT_KI, R.CLR_INT_LIM, R.CLR_OUT_LIM, R.CLR_OUT, R.CLR_SF_CTL, R.CLR_SF_STATUS, R.CLR_SF_FILT, R.CLR_RP_CTL, R.CLR_RP_LIM, R.CLR_RP_STATUS, R.CLR_NFF_K, R.CLR_FA_CTL, R.CLR_FA_TH, R.CLR_FOCUS_TH, R.CLR_JUMP_CTL, R.CLR_LAYER_CTL, R.CLR_TRACK_TH, R.CLR_SHOCK_TH, R.CLR_HOLD_CTL, R.CLR_COEF, R.CLR_COEF_LIVE]
/-- The registers and tables of block LRN. -/
def regsLrn : List RegDef :=
  [R.LRN_CTL, R.LRN_STATUS, R.LRN_MOUNT, R.LRN_SEED, R.LRN_EVT, R.LRN_EVT_MASK, R.LRN_EVT_FORCE, R.LRN_DEF_CTL, R.LRN_SPD_CTL, R.LRN_GAIN, R.LRN_LOOP_STATUS, R.LRN_INJ, R.LRN_ENTRY, R.LRN_SCALE]
/-- The registers and tables of block WND. -/
def regsWnd : List RegDef :=
  [R.WND_CTL, R.WND_STATUS, R.WND_CMD, R.WND_MOTOR, R.WND_EVT, R.WND_EVT_MASK, R.WND_EVT_FORCE, R.WND_SPEED_SET, R.WND_SPEED, R.WND_RAMP, R.WND_SPD_KP, R.WND_SPD_KI, R.WND_CUR_KP, R.WND_CUR_KI, R.WND_ILIM, R.WND_PWM, R.WND_LIMITS, R.WND_SIX, R.WND_START, R.WND_OL, R.WND_OBS, R.WND_LOS, R.WND_BUS, R.WND_BRK, R.WND_BUSLIM, R.WND_CHOP, R.WND_ANGLE, R.WND_DTHETA, R.WND_OFFSET, R.WND_PILLAR, R.WND_PAIR, R.WND_PAIR_STATUS, R.WND_IDQ, R.WND_CATCH, R.WND_MODEL_RL, R.WND_MODEL_KE, R.WND_COUNTS]
/-- The registers and tables of block SLD. -/
def regsSld : List RegDef :=
  [R.SLD_CTL, R.SLD_STATUS, R.SLD_GEOM, R.SLD_AHARD, R.SLD_TARGET, R.SLD_POS, R.SLD_VEL, R.SLD_ACC, R.SLD_VMAX, R.SLD_AMAX, R.SLD_DMAX, R.SLD_JMAX, R.SLD_SOFT_MIN, R.SLD_SOFT_MAX, R.SLD_PARK, R.SLD_FOLLOW, R.SLD_CUR, R.SLD_HOME_CTL, R.SLD_HOME_RANGE, R.SLD_HOME_TMO, R.SLD_HOME_POS, R.SLD_HOME_STATUS, R.SLD_EVT, R.SLD_EVT_MASK, R.SLD_EVT_FORCE, R.SLD_GROUP_GO, R.SLD_EVT_AXES]
/-- The registers and tables of block LNK. -/
def regsLnk : List RegDef :=
  [R.LNK_LANE_CTL, R.LNK_LANE_STATUS, R.LNK_LANE_ERR, R.LNK_PRBS_CTL, R.LNK_USER_PAT_LO, R.LNK_USER_PAT_HI, R.LNK_PRBS_ERR, R.LNK_EYE_CTL, R.LNK_EYE_RESULT, R.LNK_HEAD_CTL, R.LNK_HEAD_STATUS, R.LNK_ROT_CTL, R.LNK_TICK_LEAD, R.LNK_FIFO_FLUSH, R.LNK_LATE, R.LNK_POISON, R.LNK_DROP, R.LNK_HFE_STATUS, R.LNK_HFE_CMD, R.LNK_EVT, R.LNK_EVT_MASK, R.LNK_EVT_FORCE, R.LNK_EVT_HEADS]
/-- The registers and tables of block CHN. -/
def regsChn : List RegDef :=
  [R.CHN_CTL, R.CHN_STATUS, R.CHN_WOB, R.CHN_WOB_STATUS, R.CHN_EVT, R.CHN_EVT_MASK, R.CHN_EVT_FORCE, R.CHN_SYNC_CTL, R.CHN_SYNC_STATS, R.CHN_SYNC_LAST, R.CHN_EQ_CTL, R.CHN_EQ_TAP, R.CHN_CORR, R.CHN_CORR_ASYM, R.CHN_DET_CTL, R.CHN_MSE, R.CHN_DEF_CTL, R.CHN_DEF_CTL2, R.CHN_ERA_CTL, R.CHN_DEF_STATS, R.CHN_PILLAR, R.CHN_PILLAR_STATS, R.CHN_DRIFTS, R.CHN_TRUNC, R.CHN_EVT_CHANS, R.CHN_ZONE, R.CHN_EQ_START]
/-- The registers and tables of block ASY. -/
def regsAsy : List RegDef :=
  [R.ASY_CTL, R.ASY_STATUS, R.ASY_INNER_CTL, R.ASY_SECOND_CTL, R.ASY_EVT, R.ASY_EVT_MASK, R.ASY_EVT_FORCE, R.ASY_COMB_CTL, R.ASY_LODES, R.ASY_LODES2, R.ASY_DRIFTS, R.ASY_MISC, R.ASY_UNCLAIMED, R.ASY_ENG_STATUS, R.ASY_SLOT, R.ASY_SLOT_ID]
/-- The registers and tables of block PRC. -/
def regsPrc : List RegDef :=
  [R.PRC_CTL, R.PRC_STATUS, R.PRC_TAIL_BASE_LO, R.PRC_TAIL_BASE_HI, R.PRC_EVT, R.PRC_EVT_MASK, R.PRC_EVT_FORCE, R.PRC_TAIL_SIZE, R.PRC_MARKS, R.PRC_FLUSH, R.PRC_STATS, R.PRC_STATS2, R.PRC_PEAK]
/-- The registers and tables of block WRP. -/
def regsWrp : List RegDef :=
  [R.WRP_CTL, R.WRP_STATUS, R.WRP_LINGER, R.WRP_EVT, R.WRP_EVT_MASK, R.WRP_EVT_FORCE, R.WRP_VFY_CTL, R.WRP_VFY_CTL2, R.WRP_CAL_CTL, R.WRP_LODES, R.WRP_SKIPS, R.WRP_GATE, R.WRP_HEAD, R.WRP_SEAM, R.WRP_POWER, R.WRP_SPARE]
/-- The registers and tables of block MEM. -/
def regsMem : List RegDef :=
  [R.MEM_CTL, R.MEM_STATUS, R.MEM_EVT, R.MEM_EVT_MASK, R.MEM_EVT_FORCE, R.MEM_CE_CTL, R.MEM_CE_STATUS, R.MEM_CE_TOTAL, R.MEM_UE_LOG, R.MEM_UE_ADDR, R.MEM_PWD_LOG, R.MEM_PWD_ADDR, R.MEM_SSCRUB, R.MEM_SSCRUB_STATUS, R.MEM_DSCRUB_START, R.MEM_DSCRUB_END, R.MEM_DSCRUB_CTL, R.MEM_DSCRUB_STATUS, R.MEM_DSCRUB_CE, R.MEM_DSCRUB_UE, R.MEM_DSCRUB_FIRST, R.MEM_DSCRUB_LAST, R.MEM_DSCRUB_WORST, R.MEM_DSCRUB_WINFO, R.MEM_TEST_CTL, R.MEM_TEST_SCHK, R.MEM_TEST_LINE, R.MEM_TEST_DATA, R.MEM_TEST_CHK, R.MEM_REPAIR]
/-- The registers and tables of block LCA. -/
def regsLca : List RegDef :=
  [R.LCA_WAY_STATUS, R.LCA_WAY_CTL, R.LCA_EVT, R.LCA_EVT_MASK, R.LCA_EVT_FORCE, R.LCA_OP, R.LCA_OP_START, R.LCA_OP_END, R.LCA_OP_STATUS, R.LCA_HITS, R.LCA_MISSES]
/-- The registers and tables of block CFG. -/
def regsCfg : List RegDef :=
  [R.CFG_STATUS, R.CFG_LOAD_CAUSE, R.CFG_IMAGE_VER, R.CFG_SVN, R.CFG_EVT, R.CFG_EVT_MASK, R.CFG_EVT_FORCE, R.CFG_EPOCH_LO, R.CFG_EPOCH_HI, R.CFG_BOOT_CTR, R.CFG_KEYS, R.CFG_STAGE_STATUS, R.CFG_STAGE_EPOCH_LO, R.CFG_STAGE_EPOCH_HI, R.CFG_STAGE_REJECT, R.CFG_STAGE_CTL, R.CFG_SHIFT_STATUS, R.CFG_SHIFT_FRAME_LO, R.CFG_SHIFT_FRAME_HI, R.CFG_FUSE_CMD, R.CFG_LOG_STATUS, R.CFG_DIGEST]
/-- The registers and tables of block TRL. -/
def regsTrl : List RegDef :=
  [R.TRL_CTL, R.TRL_STATUS, R.TRL_TIME_LO, R.TRL_TIME_HI, R.TRL_EVT, R.TRL_EVT_MASK, R.TRL_EVT_FORCE, R.TRL_IN_DELAY, R.TRL_PATH, R.TRL_LAP, R.TRL_HEAD_LO, R.TRL_HEAD_HI, R.TRL_ERR, R.TRL_SHIFT_E_LO, R.TRL_SHIFT_E_HI, R.TRL_SHIFT_CTL, R.TRL_SHIFT_RING, R.TRL_SHIFT_F_LO, R.TRL_EXCL_LO, R.TRL_EXCL_HI, R.TRL_EXCL_CTL, R.TRL_PHASE_OFS, R.TRL_TX_CTL, R.TRL_TX_STATUS, R.TRL_RX_STATUS, R.TRL_TX_DATA, R.TRL_RX_DATA, R.TRL_UNIT]
/-- The registers and tables of block CAL. -/
def regsCal : List RegDef :=
  [R.CAL_CTL, R.CAL_STATUS, R.CAL_EVT, R.CAL_EVT_MASK, R.CAL_EVT_FORCE, R.CAL_THERM, R.CAL_PLAUS, R.CAL_TEMP, R.CAL_RUN]
/-- The registers and tables of block PWR. -/
def regsPwr : List RegDef :=
  [R.PWR_RESET_CAUSE, R.PWR_STRAPS, R.PWR_STATUS, R.PWR_EVT, R.PWR_EVT_MASK, R.PWR_EVT_FORCE, R.PWR_BIST]
/-- Every register and table entry of the machine (R455, R456). -/
def allRegs : List RegDef :=
  regsGlb ++ regsTck ++ regsHif ++ regsHqi ++ regsClr ++ regsLrn ++ regsWnd ++ regsSld ++ regsLnk ++ regsChn ++ regsAsy ++ regsPrc ++ regsWrp ++ regsMem ++ regsLca ++ regsCfg ++ regsTrl ++ regsCal ++ regsPwr

end Sys2Proof.Machine
end

