-- ==== Sys2Proof/Machine/Klonel.lean ====
section
/-!
DEFINITION. The Klonel KL16 medium format (03): numbering of heads, seams and blocks (R2, R10 to R13), zones (R50, R51),
slots on a track (R52, R53), the drift's codes CRC-16 (R49), CRC-32C (R57), scrambler (R59) and K17 (R60), the drift's layout
(R61), and where lodes, seams and the catalogue lie (R63 to R67). All of it is arithmetic on the numbers the spec gives.
-/
namespace Sys2Proof.Machine

/-! ### Bits, most significant first -/

/-- The w low bits of n, most significant first. -/
def bitsMsb : Nat → Nat → List Bool
  | 0, _ => []
  | w + 1, n => n.testBit w :: bitsMsb w n

/-- The number that a list of bits spells, most significant first. -/
def ofBitsMsb (bs : List Bool) : Nat := bs.foldl (fun a b => 2 * a + b.toNat) 0

/-! ### Numbering (R2, R9 to R13) -/

/-- The deck of a head (R2). -/
def deckOfHead (h : Nat) : Nat := h / 4

/-- The partner of a head (R13). -/
def partner (h : Nat) : Nat := if h % 2 = 0 then h + 1 else h - 1

/-- The deck of a channel (R9). -/
def deckOfChan (c : Nat) : Nat := c / 16

/-- The head of a channel (R2: c = 4h + b). -/
def headOfChan (c : Nat) : Nat := c / 4

/-- The head of a lane (R2: l = 8h + k). -/
def headOfLane (l : Nat) : Nat := l / 8

/-- The side of a seam (R10). -/
def seamSide (n : Nat) : Nat := n / 32 % 2

/-- The layer of a seam (R10). -/
def seamLayer (n : Nat) : Nat := n / 2 % 16

/-- The band of a seam (R10). -/
def seamBand (n : Nat) : Nat := n % 2

/-- The home head of seam n of volume v (R11). -/
def homeHead (v n : Nat) : Nat := 4 * v + 2 * seamSide n + seamBand n

/-- The seam a head is home of, on a layer (R10, R11). -/
def seamOfHead (h layer : Nat) : Nat := 32 * (h % 4 / 2) + 2 * layer + h % 2

/-- The last block of a seam, plus one (R12). -/
def seamBlocks : Nat := 7864320

/-- The seam of an LBA (R12). -/
def lbaSeam (lba : Nat) : Nat := lba / 2 ^ 23 % 64

/-- The block of an LBA (R12). -/
def lbaBlock (lba : Nat) : Nat := lba % 2 ^ 23

/-- An LBA addresses a block (R12). -/
def lbaValid (lba : Nat) : Bool := lba < 2 ^ 29 && lbaBlock lba < seamBlocks

/-- The logical lode of a block within its seam (R12). -/
def blockLode (block : Nat) : Nat := block / 128

/-- The data drift of a block within its lode (R12). -/
def blockDrift (block : Nat) : Nat := block % 128

/-! ### Zones (R50, R51) -/

/-- The zone table of R51: first track, Q, D. -/
def zoneTable : List (Nat × Nat × Nat) :=
  [(0, 235, 74), (7448, 266, 84), (14896, 285, 90), (22344, 304, 96), (29792, 323, 102), (37240, 342, 108),
   (44688, 364, 115), (52136, 383, 121), (59584, 402, 127), (67032, 421, 133), (74480, 440, 139), (81928, 459, 145),
   (89376, 472, 149), (94256, 484, 153), (99136, 497, 157), (104016, 510, 161), (108896, 522, 165), (113776, 535, 169),
   (118656, 548, 173), (123536, 560, 177), (128416, 573, 181), (133296, 586, 185), (138176, 595, 188), (143056, 598, 189)]

/-- The first track of a zone (R51). -/
def zoneFirst (z : Nat) : Nat := (zoneTable.getD z (0, 235, 74)).1

/-- Q_z, channel bits per wobble period (R51). -/
def zoneQ (z : Nat) : Nat := (zoneTable.getD z (0, 235, 74)).2.1

/-- D_z, drift slots per track (R51). -/
def zoneD (z : Nat) : Nat := (zoneTable.getD z (0, 235, 74)).2.2

/-- The last track of a layer (R45). -/
def lastTrack : Nat := 147915

/-- The first track of the outer band (R45). -/
def outerFirst : Nat := 89376

/-- The band of a track (R45). -/
def trackBand (t : Nat) : Nat := if t < outerFirst then 0 else 1

/-- A track's number within its band (R45). -/
def trackInBand (t : Nat) : Nat := if t < outerFirst then t else t - outerFirst

/-- The layer track of a band track (R45). -/
def bandTrack (band t : Nat) : Nat := if band = 0 then t else outerFirst + t

/-- The band position of a layer track (R45). -/
def trackPos (t : Nat) : Nat := trackInBand t / 4

/-- The number of positions of a band (R45). -/
def bandPositions (band : Nat) : Nat := if band = 0 then 22344 else 14635

/-- The zone of a band position (R50). -/
def zoneOfPos (band p : Nat) : Nat := if band = 0 then min 11 (p / 1862) else 12 + min 11 (p / 1220)

/-- The zone of a layer track (R50). -/
def zoneOfTrack (t : Nat) : Nat := zoneOfPos (trackBand t) (trackPos t)

/-- Data bits per pillar period of a zone: 49 Q (R50). -/
def periodBits (z : Nat) : Nat := 49 * zoneQ z

/-- The first data-stream bit of slot j (R52). -/
def slotStart (j : Nat) : Nat := 39680 * j

/-- Channel bits of a drift (R52). -/
def driftBits : Nat := 39616

/-- The observer angle, in counts x 2^-16 rounded down, at which data-stream bit e of a track in zone z begins (R53). A window
whose ends are whole multiples of 2^-16 counts holds the exact angle when it holds this one. -/
def bitAngle (side z e : Nat) : Nat :=
  let p := e / periodBits z
  (((if side = 0 then 0 else 128) + 256 * p) * 65536 + 8388608 * (zoneQ z + e % periodBits z) / (25 * zoneQ z)) % 2 ^ 32

/-- The angle of the leading edge of pillar p (R47). -/
def pillarAngle (side p : Nat) : Nat := (256 * p + if side = 0 then 0 else 128) % 65536

/-! ### Where lodes lie (R63 to R67) -/

/-- Position of a stream slot: walk the zones (positions, slots per track) from position `base`. -/
def walkZones : List (Nat × Nat) → Nat → Nat → Nat × Nat
  | [], base, s => (base, s)
  | (n, d) :: zs, base, s => if s < n * d then (base + s / d, s % d) else walkZones zs (base + n) (s - n * d)

/-- The zones of a band stream: (band positions, slots per track); the inner band's stream starts at position 16 (R63). -/
def streamZones (band : Nat) : List (Nat × Nat) :=
  if band = 0 then
    (1846, zoneD 0) :: ((List.range 11).map fun k => (1862, zoneD (k + 1)))
  else
    ((List.range 11).map fun k => (1220, zoneD (k + 12))) ++ [(1215, zoneD 23)]

/-- The band position and slot index of stream slot S (R63). -/
def streamSlotPos (band s : Nat) : Nat × Nat := walkZones (streamZones band) (if band = 0 then 16 else 0) s

/-- The stream slot of slot m of the lode at position X (R64). -/
def lodeStreamSlot (x m : Nat) : Nat := 80 * (x / 2) + 2 * m + x % 2

/-- The slot of drift i within its lode, and its beam (R64). -/
def driftSlotBeam (i : Nat) : Nat × Nat := (i / 4, i % 4)

/-- Lode positions of the catalogue (R66). -/
def catPositions : Nat := 192

/-- Physical lode positions of a seam (R66). -/
def seamPositions : Nat := 61824

/-- Logical lodes of a seam (R66). -/
def seamLodes : Nat := 61440

/-- The spare allowance of a seam (R66). -/
def seamSpares : Nat := 384

/-- The physical position of logical lode L: skip every listed position not above it (R67; the list rises). -/
def physOf : List Nat → Nat → Nat
  | [], l => l
  | k :: ks, l => if k ≤ l then physOf ks (l + 1) else physOf ks l

/-- The lode position in the band stream of a physical position (R67). -/
def lodeX (p : Nat) : Nat := catPositions + p

/-! ### Checks -/

/-- CRC-16 of R49, most significant bit first, initial value 0xFFFF, polynomial x16 + x12 + x5 + 1. -/
def crc16Step (c : Nat) (b : Bool) : Nat :=
  let top := c.testBit 15 != b
  let c2 := (2 * c) % 65536
  if top then c2 ^^^ 0x1021 else c2

/-- CRC-16 of a list of bits (R49). -/
def crc16 (bs : List Bool) : Nat := bs.foldl crc16Step 0xFFFF

/-- One bit of the reflected CRC-32C (R57). -/
def crc32cBit (c : Nat) : Nat := if c % 2 = 1 then (c / 2) ^^^ 0x82F63B78 else c / 2

/-- One byte of the CRC-32C (R57). -/
def crc32cByte (c : Nat) (b : Nat) : Nat :=
  crc32cBit (crc32cBit (crc32cBit (crc32cBit (crc32cBit (crc32cBit (crc32cBit (crc32cBit (c ^^^ (b % 256)))))))))

/-- CRC-32C of bytes (R57). -/
def crc32c (bs : List Nat) : Nat := (bs.foldl crc32cByte 0xFFFFFFFF) ^^^ 0xFFFFFFFF

/-! ### The pillar address (R48, R49) -/

/-- A decoded pillar address. -/
structure PillarAddr where
  side : Nat
  layer : Nat
  band : Nat
  track : Nat
  pillar : Nat
  deriving DecidableEq, Repr

/-- Bits 47:16 of the address field (R49). -/
def PillarAddr.head (a : PillarAddr) : Nat :=
  (a.side % 2) * 2 ^ 31 + (a.layer % 16) * 2 ^ 27 + (a.band % 2) * 2 ^ 26 + (a.track % 2 ^ 17) * 2 ^ 9 + (a.pillar % 256) * 2

/-- The 48-bit address field, CRC included (R49). -/
def PillarAddr.encode (a : PillarAddr) : Nat := a.head * 65536 + crc16 (bitsMsb 32 a.head)

/-- The address a 48-bit field carries, when its CRC is right and its reserved bit is 0 (R49, R202). -/
def decodePillar (w : Nat) : Option PillarAddr :=
  let hd := w / 65536 % 2 ^ 32
  if crc16 (bitsMsb 32 hd) = w % 65536 ∧ hd % 2 = 0 then
    some { side := hd / 2 ^ 31, layer := hd / 2 ^ 27 % 16, band := hd / 2 ^ 26 % 2, track := hd / 2 ^ 9 % 2 ^ 17,
           pillar := hd / 2 % 256 }
  else none

/-- The pillar sync (R48). -/
def pillarSync : Nat := 0x7FFFE555

/-- The drift sync word (R61). -/
def driftSync : Nat := 0xCD00003FFFF2D32D

/-! ### The scrambler (R59) -/

/-- One step of the scrambler's shift register. -/
def lfsrStep (s : Nat) : Nat :=
  let nb := ((s.testBit 15 != s.testBit 13) != (s.testBit 12 != s.testBit 10))
  (2 * s) % 65536 + nb.toNat

/-- Scramble (or descramble) bits from register value s. -/
def scrambleFrom : Nat → List Bool → List Bool
  | _, [] => []
  | s, b :: bs => (b != s.testBit 15) :: scrambleFrom (lfsrStep s) bs

/-- The seed of drift i (R59). -/
def scrambleSeed (i : Nat) : Nat := 0x8000 ||| (i * 128)

/-- Scramble the coded bits of drift i (R59). -/
def scramble (i : Nat) (bs : List Bool) : List Bool := scrambleFrom (scrambleSeed i) bs

/-! ### The K17 code (R60) -/

/-- Run state: last bit, length of its run, longest run so far. -/
structure RunState where
  last : Bool
  len : Nat
  longest : Nat
  deriving DecidableEq, Repr

/-- The run state after one more bit. -/
def RunState.push (r : RunState) (b : Bool) : RunState :=
  let l := if r.len ≠ 0 ∧ b = r.last then r.len + 1 else 1
  ⟨b, l, max r.longest l⟩

/-- The run state after more bits. -/
def RunState.run (r : RunState) (bs : List Bool) : RunState := bs.foldl RunState.push r

/-- Nothing emitted yet. -/
def RunState.start : RunState := ⟨false, 0, 0⟩

/-- The run history of the codewords that follow a sync pattern: the run that the pattern ends with counts, the runs of 18 inside it
do not, so that no run of 18 appears outside it (R60).
DEDUCED, unsafe: log 97. -/
def RunState.afterSync (sync : List Bool) : RunState :=
  let r := RunState.start.run sync
  { r with longest := r.len }

/-- The two candidates for 16 bits u (R60). -/
def k17Cand (u : Nat) (f : Bool) : List Bool :=
  f :: bitsMsb 16 (if f then u ^^^ 0x5555 else u)

/-- Encode one group: the candidate with the shorter longest run, C0 when equal (R60). -/
def k17EncodeOne (r : RunState) (u : Nat) : List Bool :=
  let c0 := k17Cand u false
  let c1 := k17Cand u true
  if (r.run c1).longest < (r.run c0).longest then c1 else c0

/-- Encode groups of 16 bits after the run history r (R60). -/
def k17Encode : RunState → List Nat → List Bool
  | _, [] => []
  | r, u :: us =>
    let c := k17EncodeOne r u
    c ++ k17Encode (r.run c) us

/-- Decode one codeword: the first bit says whether the rest is XORed with 0x5555 (R60). -/
def k17DecodeOne (w : List Bool) : Nat :=
  match w with
  | [] => 0
  | f :: rest => if f then ofBitsMsb rest ^^^ 0x5555 else ofBitsMsb rest

/-- Decode n codewords of 17 bits. -/
def k17Decode : Nat → List Bool → List Nat
  | 0, _ => []
  | n + 1, bs => k17DecodeOne (bs.take 17) :: k17Decode n (bs.drop 17)

/-- Take groups of 16 bits, most significant first. -/
def groups16 : Nat → List Bool → List Nat
  | 0, _ => []
  | n + 1, bs => ofBitsMsb (bs.take 16) :: groups16 n (bs.drop 16)

/-! ### The drift's channel bits (R61) -/

/-- The preamble: 0b1111_0000 repeated 48 times (R61). -/
def preamble : List Bool := (List.replicate 48 (bitsMsb 8 0xF0)).flatten

/-- The channel bits of drift i from its 36,864 coded bits (R59 to R61). -/
def driftChannelBits (i : Nat) (coded : List Bool) : List Bool :=
  let sync := bitsMsb 64 driftSync
  preamble ++ sync ++ k17Encode (RunState.afterSync sync) (groups16 2304 (scramble i coded))

/-- The pillar's first 83 channel bits (R48). -/
def pillarChannelBits (a : PillarAddr) : List Bool :=
  let sync := bitsMsb 32 pillarSync
  sync ++ k17Encode (RunState.afterSync sync) (groups16 3 (bitsMsb 48 a.encode))

/-! ### Metadata (R56) -/

/-- The low n bytes of a number, little-endian. -/
def leBytes : Nat → Nat → List Nat
  | 0, _ => []
  | n + 1, v => v % 256 :: leBytes n (v / 256)

/-- The number that little-endian bytes spell. -/
def ofLeBytes : List Nat → Nat
  | [] => 0
  | b :: bs => b % 256 + 256 * ofLeBytes bs

/-- What the metadata of a data drift says (R56). -/
structure Meta where
  volSerial : Nat
  kind : Nat
  seam : Nat
  lodeSeq : Nat
  phys : Nat
  drift : Nat
  pad : Bool
  ringTime : Nat
  bootCtr : Nat
  deriving DecidableEq, Repr

/-- Metadata bytes 0 to 59 (R56). -/
def Meta.bytes (m : Meta) : List Nat :=
  leBytes 16 m.volSerial ++ [(m.kind % 4) * 64 + m.seam % 64, 1] ++ leBytes 4 m.lodeSeq ++ leBytes 2 m.phys ++
  [m.drift % 256, m.pad.toNat] ++ List.replicate 6 0 ++ leBytes 5 m.ringTime ++ List.replicate 3 0 ++
  leBytes 4 m.bootCtr ++ List.replicate 16 0

/-- The 64 metadata bytes for given user bytes, CRC included (R56, R57). -/
def Meta.encode (m : Meta) (user : List Nat) : List Nat := m.bytes ++ leBytes 4 (crc32c (user ++ m.bytes))

/-- Read metadata from its 64 bytes (R56). -/
def Meta.decode (b : List Nat) : Meta :=
  { volSerial := ofLeBytes (b.take 16), kind := b.getD 16 0 / 64 % 4, seam := b.getD 16 0 % 64,
    lodeSeq := ofLeBytes ((b.drop 18).take 4), phys := ofLeBytes ((b.drop 22).take 2), drift := b.getD 24 0,
    pad := b.getD 25 0 % 2 = 1, ringTime := ofLeBytes ((b.drop 32).take 5), bootCtr := ofLeBytes ((b.drop 40).take 4) }

/-- The CRC field of 64 metadata bytes matches the user bytes (R57). -/
def metaCrcOk (user metab : List Nat) : Bool :=
  ofLeBytes ((metab.drop 60).take 4) = crc32c (user ++ metab.take 60)

end Sys2Proof.Machine
end

