-- ==== Sys2Proof/Machine/Codes.lean ====
section
/-!
DEFINITION. The decoding arithmetic of 10: the inner LDPC code and its layered min-sum decoder (R220 to R223), the outer
Reed-Solomon code RS(160,128) over GF(2^10) with its errata decoder (R62, R228), Precis blocks (R230 to R232), slips and soft
combining (R243, R244). A drift's 33,280 information bits are held as one number, its first bit the most significant.
-/
namespace Sys2Proof.Machine

/-! ### The parity-check matrix (R220, R221) -/

/-- Row offset delta_t of an information column (R220). -/
def ldpcDelta (t : Nat) : Nat := if t = 0 then 0 else if t = 1 then 5 else 9

/-- Row of non-zero block t of information column j (R220). -/
def ldpcRow (t j : Nat) : Nat := (j + ldpcDelta t) % 14

/-- Shift of non-zero block t of information column j (R220). -/
def ldpcShift (t j : Nat) : Nat := (37 * (t + 1) * j + 101 * t + 11 * (j / 14) ^ 2) % 256

/-- The non-zero blocks of layer r: (column, shift), information columns first (R220, R221). -/
def ldpcLayer (r : Nat) : List (Nat × Nat) :=
  ((List.range 130).flatMap fun j =>
    (List.range 3).filterMap fun t => if ldpcRow t j = r then some (j, ldpcShift t j) else none) ++
  (if r = 0 then [(130, 0)] else [(129 + r, 0), (130 + r, 0)])

/-- The codeword bits of check row 256 r + x (R220). -/
def ldpcCheck (layer : List (Nat × Nat)) (x : Nat) : List Nat := layer.map fun c => 256 * c.1 + (x + c.2) % 256

/-- The parity of some bits of a word. -/
def parityOf (bits : Array Bool) (idx : List Nat) : Bool := idx.foldl (fun a v => a != bits.getD v false) false

/-- The information part of check row 256 r + x: s_r[x] of R221. -/
def ldpcInfoParity (info : Array Bool) (r x : Nat) : Bool :=
  parityOf info (ldpcCheck ((ldpcLayer r).filter fun c => c.1 < 130) x)

/-- The parity rows p_0 .. p_13 of R221, each from the row before. -/
def ldpcParityRows (info : Array Bool) : Nat → Nat → List Bool → List Bool
  | 0, _, _ => []
  | n + 1, r, prev =>
    let row := (List.range 256).map fun x => (ldpcInfoParity info r x) != (if r = 0 then false else prev.getD x false)
    row ++ ldpcParityRows info n (r + 1) row

/-- The 36,864 coded bits of 33,280 information bits (R58, R221). -/
def ldpcEncode (info : Nat) : List Bool :=
  let bs := bitsMsb 33280 info
  bs ++ ldpcParityRows bs.toArray 14 0 []

/-- The number of unsatisfied checks of hard decisions. -/
def ldpcUnsat (bits : Array Bool) : Nat :=
  (List.range 14).foldl (fun n r =>
    let layer := ldpcLayer r
    (List.range 256).foldl (fun m x => if parityOf bits (ldpcCheck layer x) then m + 1 else m) n) 0

/-! ### The decoder (R222, R223) -/

/-- Saturate to plus or minus m. -/
def satTo (m : Nat) (z : Int) : Int := max (-(m : Int)) (min (m : Int) z)

/-- The decoder's running state: posteriors and check-to-bit messages, one list per check in order. -/
structure LdpcState where
  post : Array Int
  msgs : Array (List Int)

/-- NORM of ASY_INNER_CTL in eighths (R248). -/
def normEighths (n : Nat) : Nat := 5 + n % 4

/-- The new message to bit k of a check: sign product and least magnitude over the other bits, times NORM, towards zero,
saturated at 31 (R222). -/
def ldpcMsg (norm : Nat) (qs : List Int) (k : Nat) : Int :=
  let others := qs.eraseIdx k
  let neg := others.foldl (fun a q => a != decide (q < 0)) false
  let least := match others.map Int.natAbs with
    | [] => 0
    | m :: ms => ms.foldl min m
  let mag : Int := (norm * least / 8 : Nat)
  satTo 31 (if neg then -mag else mag)

/-- One check of a layer (R222). -/
def ldpcDoCheck (norm : Nat) (c : Nat) (idx : List Nat) (st : LdpcState) : LdpcState :=
  let old := st.msgs.getD c []
  let qs := (List.range idx.length).map fun k => st.post.getD (idx.getD k 0) 0 - old.getD k 0
  let new := (List.range idx.length).map fun k => ldpcMsg norm qs k
  let post := (List.range idx.length).foldl
    (fun p k => p.setIfInBounds (idx.getD k 0) (satTo 127 (qs.getD k 0 + new.getD k 0))) st.post
  { post := post, msgs := st.msgs.setIfInBounds c new }

/-- One iteration: layers 0 to 13 in order (R222). -/
def ldpcIterate (norm : Nat) (st : LdpcState) : LdpcState :=
  (List.range 14).foldl (fun s r =>
    let layer := ldpcLayer r
    (List.range 256).foldl (fun s x => ldpcDoCheck norm (256 * r + x) (ldpcCheck layer x) s) s) st

/-- What a decode answers. -/
structure LdpcResult where
  bits : List Bool
  converged : Bool
  iters : Nat
  unsat : Nat
  deriving DecidableEq, Repr

/-- Settings of a decode (R223). -/
structure LdpcCtl where
  norm : Nat := 1
  iterMax : Nat := 16
  earlyEn : Bool := true
  stallMin : Nat := 64
  stall : Nat := 4
  deriving DecidableEq, Repr

/-- Hard decisions (R222). -/
def hardBits (p : Array Int) : Array Bool := p.map fun v => decide (v < 0)

/-- The iterations left to do; `prev` is the unsatisfied count before, `still` the iterations without a fall (R223). -/
def ldpcLoop (k : LdpcCtl) : Nat → Nat → LdpcState → Nat → Nat → LdpcResult
  | 0, done, st, prev, _ => ⟨(hardBits st.post).toList, false, done, prev⟩
  | n + 1, done, st, prev, still =>
    let st2 := ldpcIterate (normEighths k.norm) st
    let hb := hardBits st2.post
    let u := ldpcUnsat hb
    let still2 := if u < prev then 0 else still + 1
    if u = 0 then ⟨hb.toList, true, done + 1, 0⟩
    else if k.earlyEn && decide (u > k.stallMin) && decide (still2 ≥ max 1 k.stall) then ⟨hb.toList, false, done + 1, u⟩
    else ldpcLoop k n (done + 1) st2 u still2

/-- Decode 36,864 LLRs (R222, R223). -/
def ldpcDecode (k : LdpcCtl) (llr : List Int) : LdpcResult :=
  let p := (llr.map (satTo 127)).toArray
  ldpcLoop k k.iterMax 0 ⟨p, Array.replicate 3584 (List.replicate 32 0)⟩ 3585 0

/-- The information bits of a decoded word as a number. -/
def infoOfBits (bs : List Bool) : Nat := ofBitsMsb (bs.take 33280)

/-- Byte k of 33,280 information bits (R55). -/
def infoByte (info k : Nat) : Nat := info / 2 ^ (33280 - 8 * (k + 1)) % 256

/-- User bytes 0 to 4,095 of a data drift (R55). -/
def infoUser (info : Nat) : List Nat := (List.range 4096).map (infoByte info)

/-- Metadata bytes 0 to 63 of a data drift (R55). -/
def infoMeta (info : Nat) : List Nat := (List.range 64).map fun k => infoByte info (4096 + k)

/-- The information bits of bytes, first byte most significant. -/
def infoOfBytes (bs : List Nat) : Nat := bs.foldl (fun a b => 256 * a + b % 256) 0

/-- Symbol j of 33,280 information bits: bits 10 j to 10 j + 9, most significant first (R62). -/
def infoSymbol (info j : Nat) : Nat := info / 2 ^ (33280 - 10 * (j + 1)) % 1024

/-- Information bits from 3,328 symbols. -/
def infoOfSymbols (ss : List Nat) : Nat := ss.foldl (fun a b => 1024 * a + b % 1024) 0

/-! ### GF(2^10), field polynomial x^10 + x^3 + 1 (R62) -/

/-- Multiply by alpha. -/
def gfDouble (a : Nat) : Nat := if 512 ≤ a then (2 * a) ^^^ 0x409 else 2 * a

/-- Multiply, over n bits of b. -/
def gfMulN : Nat → Nat → Nat → Nat
  | 0, _, _ => 0
  | n + 1, a, b => (if b % 2 = 1 then a else 0) ^^^ gfMulN n (gfDouble a) (b / 2)

/-- Multiply. -/
def gfMul (a b : Nat) : Nat := gfMulN 10 a b

/-- a to the power n. -/
def gfPow (a : Nat) : Nat → Nat
  | 0 => 1
  | n + 1 => gfMul a (gfPow a n)

/-- Square n times. -/
def gfSq : Nat → Nat → Nat
  | 0, a => a
  | n + 1, a => gfSq n (gfMul a a)

/-- The inverse, a to the power 1022 = 2 + 4 + ... + 512. -/
def gfInv (a : Nat) : Nat := (List.range 9).foldl (fun p k => gfMul p (gfSq (k + 1) a)) 1

/-- alpha to the power k. -/
def gfAlpha (k : Nat) : Nat := gfPow 2 (k % 1023)

/-- Add polynomials, lowest degree first. -/
def polyAdd : List Nat → List Nat → List Nat
  | [], q => q
  | p, [] => p
  | a :: p, b :: q => (a ^^^ b) :: polyAdd p q

/-- Scale a polynomial. -/
def polyScale (c : Nat) (p : List Nat) : List Nat := p.map (gfMul c)

/-- Multiply polynomials. -/
def polyMul : List Nat → List Nat → List Nat
  | [], _ => []
  | a :: p, q => polyAdd (polyScale a q) (0 :: polyMul p q)

/-- Value of a polynomial at x. -/
def polyEval (p : List Nat) (x : Nat) : Nat := p.foldr (fun a v => a ^^^ gfMul v x) 0

/-- The formal derivative. -/
def polyDeriv (p : List Nat) : List Nat :=
  (List.range (p.length - 1)).map fun k => if (k + 1) % 2 = 1 then p.getD (k + 1) 0 else 0

/-- The degree, of a polynomial that may end in zeros. -/
def polyDeg (p : List Nat) : Nat := (List.range p.length).foldl (fun d k => if p.getD k 0 = 0 then d else k) 0

/-- The generator of RS(160,128), lowest degree first (R62). -/
def rsGenerator : List Nat := (List.range 32).foldl (fun g m => polyMul g [gfAlpha m, 1]) [1]

/-- One step of the division by the generator; the register is highest degree first. -/
def rsEncStep (g : List Nat) (reg : List Nat) (sym : Nat) : List Nat :=
  let fb := sym ^^^ reg.getD 0 0
  (List.range 32).map fun k => (reg.getD (k + 1) 0) ^^^ gfMul fb (g.getD (31 - k) 0)

/-- The 32 parity symbols of 128 data symbols, in the order of drifts 128 to 159 (R62). -/
def rsParity (data : List Nat) : List Nat := data.foldl (rsEncStep rsGenerator) (List.replicate 32 0)

/-- Syndrome m of a received column (R228). -/
def rsSyndrome (y : List Nat) (m : Nat) : Nat := y.foldl (fun s v => (gfMul s (gfAlpha m)) ^^^ v) 0

/-- The locator of drift i's position (R62: coefficient of x^(159 - i)). -/
def rsLoc (i : Nat) : Nat := gfAlpha (159 - i)

/-- Errata locator by the Berlekamp-Massey recurrence from the erasure locator: fuel, step r, locator, correction
polynomial, length. -/
def rsBm (syn : List Nat) (f : Nat) : Nat → Nat → List Nat → List Nat → Nat → List Nat × Nat
  | 0, _, lam, _, l => (lam, l)
  | n + 1, r, lam, b, l =>
    let d := (List.range lam.length).foldl
      (fun s j => if j ≤ r - 1 then s ^^^ gfMul (lam.getD j 0) (syn.getD (r - 1 - j) 0) else s) 0
    let lam2 := polyAdd lam (polyScale d (0 :: b))
    if d ≠ 0 ∧ 2 * l ≤ r + f - 1 then rsBm syn f n (r + 1) lam2 (polyScale (gfInv d) lam) (r + f - l)
    else rsBm syn f n (r + 1) lam2 (0 :: b) l

/-- Decode one column for the erased drifts `er`: the corrected symbols, or none when the column is not accepted (R228). -/
def rsDecodeColumn (guard : Nat) (y : List Nat) (er : List Nat) : Option (List Nat) :=
  let syn := (List.range 32).map (rsSyndrome y)
  if syn.all (· = 0) then some y
  else
    let f := er.length
    let gam := er.foldl (fun g i => polyMul g [1, rsLoc i]) [1]
    let bm := rsBm syn f (32 - f) (f + 1) gam gam f
    let lam := bm.1
    let l := bm.2
    let roots := (List.range 160).filter fun i => polyEval lam (gfInv (rsLoc i)) = 0
    let e := l - f
    if roots.length = l ∧ polyDeg lam = l ∧ (e = 0 ∨ 2 * e + f ≤ 32 - guard) then
      let om := (polyMul syn lam).take 32
      let dl := polyDeriv lam
      some ((List.range 160).map fun i =>
        if roots.contains i then
          let xi := gfInv (rsLoc i)
          (y.getD i 0) ^^^ gfMul (rsLoc i) (gfMul (polyEval om xi) (gfInv (polyEval dl xi)))
        else y.getD i 0)
    else none

/-- The corrected columns from column 0, or none when one is not accepted. -/
def rsDecodeCols (guard : Nat) (rows : List Nat) (er : List Nat) : Nat → Nat → Option (List (List Nat))
  | 0, _ => some []
  | n + 1, j =>
    match rsDecodeColumn guard (rows.map fun info => infoSymbol info j) er with
    | none => none
    | some c => (rsDecodeCols guard rows er n (j + 1)).map (c :: ·)

/-- The outer decode of a lode: `rows` are the information bits of drifts 0 to 159, those of an unsound drift taken as 0;
the answer is the corrected information bits of all drifts (R228). -/
def rsDecodeLode (guard : Nat) (drifts : List (Option Nat)) : Option (List Nat) :=
  let er := (List.range 160).filter fun i => (drifts.getD i none).isNone
  if er.length > 32 then none
  else
    let rows := (List.range 160).map fun i => (drifts.getD i none).getD 0
    (rsDecodeCols guard rows er 3328 0).map fun cols =>
      (List.range 160).map fun i => infoOfSymbols (cols.map fun c => c.getD i 0)

/-- The information bits of the 32 parity drifts of 128 data drifts (R62, R254). -/
def rsParityDrifts (data : List Nat) : List Nat :=
  let cols := (List.range 3328).map fun j => rsParity (data.map fun info => infoSymbol info j)
  (List.range 32).map fun k => infoOfSymbols (cols.map fun c => c.getD k 0)

/-! ### Precis blocks (R230 to R232) -/

/-- A Precis block. -/
structure Precis where
  sign : List Bool
  cls : List Bool
  hi : Nat
  lo : Nat
  zstart : Nat
  zlen : Nat
  deriving DecidableEq, Repr

/-- The runs of zeros of a list: fold carrying position, start and length of the current run, and the best run. -/
def zeroRunStep (s : Nat × Nat × Nat × Nat) (z : Int) : Nat × Nat × Nat × Nat :=
  let p := s.1
  let len := if z = 0 then s.2.1 + 1 else 0
  let start := p + 1 - len
  if len > s.2.2.2 then (p + 1, len, start, len) else (p + 1, len, s.2.2.1, s.2.2.2)

/-- The zero run of a block: start and length, earliest of the longest, at most 255 (R231). -/
def zeroRun (l : List Int) : Nat × Nat :=
  let s := l.foldl zeroRunStep (0, 0, 0, 0)
  if s.2.2.2 = 0 then (0, 0) else (s.2.2.1, min 255 s.2.2.2)

/-- The mean of magnitudes, to nearest, ties upwards, 0 over none (R231). -/
def meanUp (l : List Nat) : Nat := if l.isEmpty then 0 else (2 * l.sum + l.length) / (2 * l.length)

/-- Compress 256 LLRs (R231). -/
def precisCompress (th : Nat) (l : List Int) : Precis :=
  let zr := zeroRun l
  let strong := (List.range 32).map fun g =>
    decide (th ≤ (((l.drop (8 * g)).take 8).map Int.natAbs).foldl min 1000000)
  let pick (b : Bool) := (List.range 256).filterMap fun n =>
    if strong.getD (n / 8) false = b ∧ ¬ (zr.1 ≤ n ∧ n < zr.1 + zr.2) then some (l.getD n 0).natAbs else none
  { sign := l.map fun z => decide (z < 0), cls := strong, hi := min 15 (meanUp (pick true)),
    lo := min 15 (meanUp (pick false)), zstart := zr.1, zlen := zr.2 }

/-- Decompress a block (R232). -/
def precisExpand (b : Precis) : List Int :=
  (List.range 256).map fun n =>
    if b.zstart ≤ n ∧ n < b.zstart + b.zlen then 0
    else
      let m : Int := (if b.cls.getD (n / 8) false then b.hi else b.lo : Nat)
      if b.sign.getD n false then -m else m

/-- The 320 bits of a block as a number (R230). -/
def precisWord (b : Precis) : Nat :=
  ofBitsMsb ((List.range 256).map fun n => b.sign.getD n false) * 2 ^ 64 +
  ofBitsMsb ((List.range 32).map fun k => b.cls.getD (31 - k) false) * 2 ^ 32 +
  b.hi % 16 * 2 ^ 28 + b.lo % 16 * 2 ^ 24 + b.zstart % 256 * 2 ^ 16 + b.zlen % 256 * 2 ^ 8

/-- The blocks of a drift's LLRs from bit 448 (R230). -/
def precisBlocks (th : Nat) : Nat → List Int → List Precis
  | 0, _ => []
  | n + 1, l => precisCompress th (l.take 256) :: precisBlocks th n (l.drop 256)

/-! ### Slips and soft combining (R243, R244) -/

/-- A list shifted by s: element n is element n + s, positions outside give 0 (R243). -/
def shiftLlr (l : List Int) (s : Int) : List Int :=
  (List.range l.length).map fun (n : Nat) =>
    let k : Int := n + s
    if 0 ≤ k then l.getD k.toNat 0 else 0

/-- Round a / 2^k to nearest, ties away from zero. -/
def roundShift (a : Int) (k : Nat) : Int :=
  let m : Int := ((a.natAbs + 2 ^ (k - 1)) / 2 ^ k : Nat)
  if a < 0 then -m else m

/-- Combine the reads (weight, slip, LLRs) of a drift (R244). -/
def combineLlr (cscale cclip : Nat) (reads : List (Int × Int × List Int)) : List Int :=
  (List.range 39168).map fun (n : Nat) =>
    let sum := reads.foldl (fun a r =>
      let k : Int := n + r.2.1
      a + r.1 * (if 0 ≤ k then r.2.2.getD k.toNat 0 else 0)) 0
    satTo cclip (roundShift (sum * cscale) 8)

end Sys2Proof.Machine
end

