-- ==== Sys2Proof/Machine/PartsMedia.lean ====
section
/-!
DEFINITION. State of the media side that no register shows: media operations, lode slots and jobs of the Assayer pool, the
tailings store (10), open and sealed lodes of the seams, write cycles and volumes (11, 13).
-/
namespace Sys2Proof.Machine

/-- The kinds of media operation the command engine gives a head (R6, R118). -/
inductive OpKind where
  | seek | read | write | park | calib | takeoverSeek | testAcquire
  deriving DecidableEq, Repr

/-- A media operation: the head's target, the lode it serves and the slot it holds. -/
structure MediaOp where
  kind : OpKind
  vol : Nat := 0
  seam : Nat := 0
  /-- lode position X in the band stream (R64) -/
  x : Nat := 0
  /-- target layer and layer track -/
  layer : Nat := 0
  track : Nat := 0
  /-- reserved lode slot (R225) -/
  slot : Option Nat := none
  /-- arbitration position of the command it serves, for its order -/
  pos : Nat := 0
  /-- the operation belongs to a self-test (R320) -/
  test : Bool := false
  /-- re-queued by takeover ahead of the band's other operations (R15) -/
  ahead : Bool := false
  /-- the first slot of the lode at the present band position has passed in this read (R227) -/
  begun : Bool := false
  deriving DecidableEq, Repr

/-- What a lode decode answered (R229, R241). -/
inductive LodeOutcome where
  | clean | corrected | needsReread | failed
  deriving DecidableEq, Repr

/-- A drift record (R210). -/
structure DriftRec where
  vol : Nat
  seam : Nat
  x : Nat
  drift : Nat
  chan : Nat
  blank : Bool := false
  inferred : Bool := false
  truncated : Bool := false
  hint : Bool := false
  cal : Bool := false
  /-- stream slot, layer and zone (R205, R210) -/
  stream : Nat := 0
  layer : Nat := 0
  zone : Nat := 0
  /-- agreements of the winning sync candidate, and its offset; 0 when inferred -/
  score : Nat := 0
  syncOfs : Int := 0
  quality : Nat := 0
  defects : Nat := 0
  deriving DecidableEq, Repr

/-- An entry of the tailings store (R233). -/
structure TailEntry where
  index : Nat
  slot : Nat
  read : Nat
  drift : Nat
  chan : Nat
  inferred : Bool
  truncated : Bool
  hint : Bool
  converged : Bool
  sound : Bool
  syncOfs : Int
  defects : Nat
  unsat : Nat
  iter : Nat
  slip : Int := 0
  tick : Nat := 0
  blocks : List Precis
  /-- the entry reads with an uncorrectable error (R238) -/
  ecc : Bool := false
  deriving DecidableEq, Repr

/-- One drift of a lode slot in the present read: its record, the result of its inner decode when it has one. -/
structure SlotDrift where
  record : DriftRec
  decoded : Bool := false
  converged : Bool := false
  iters : Nat := 0
  unsat : Nat := 0
  deriving DecidableEq, Repr

/-- A lode slot beside its registers (R225 to R227, R239 to R245). -/
structure SlotS where
  /-- a number that changes at every release, so that a job of a released slot is known as such (R247) -/
  gen : Nat := 0
  /-- head the media operation was issued to -/
  head : Nat := 0
  /-- arbitration position of the media operation -/
  pos : Nat := 0
  /-- the operation belongs to a self-test (R320) -/
  test : Bool := false
  /-- line number of the lode buffer (R225, R227) -/
  buf : Nat := 0
  /-- number of the present read, from 0 -/
  readNo : Nat := 0
  /-- drifts delivered in the present read -/
  got : List SlotDrift := []
  /-- sound drifts of all reads: drift index and information bits -/
  sound : List (Nat × Nat) := []
  /-- the last hard decisions of delivered drifts that are not sound -/
  hard : List (Nat × Nat) := []
  /-- drifts that failed the margins of R262 in this read are those of `got` not listed here -/
  margin : List Nat := []
  /-- retained entries of this lode's reads -/
  entries : List TailEntry := []
  /-- reads that are retained, oldest first, at most four (R244) -/
  retained : List Nat := []
  /-- this read's retention has been decided (R235) -/
  decided : Bool := false
  /-- servo tick of the lode end and absolute deadline tick of the pass (R239) -/
  endTick : Nat := 0
  deadline : Nat := 0
  /-- the rung whose job is queued or running (R239, R241) -/
  rung : Nat := 0
  outcome : Option LodeOutcome := none
  deriving DecidableEq, Repr

/-- A staging buffer of the Precis compressor (R234). -/
structure Staging where
  gen : Nat
  entry : TailEntry
  deriving DecidableEq, Repr

/-- What a job takes from ASY_INNER_CTL and ASY_SECOND_CTL when it starts (R248). -/
structure JobCtl where
  inner : LdpcCtl := {}
  guard : Nat := 4
  slipMargin : Nat := 32
  slipTry : Nat := 3
  deriving DecidableEq, Repr

/-- The Assayer pool and the tailings store (10). -/
structure AsyS where
  slots : Vector SlotS 96 := Vector.replicate 96 {}
  /-- the tailings entries in use (indices, rising) -/
  used : List Nat := []
  /-- staging buffers, by channel -/
  staging : List (Nat × Staging) := []
  /-- generation of the slot whose job each Assayer runs -/
  engGen : Vector Nat 8 := Vector.replicate 8 0
  /-- the settings with which each Assayer's job started (R248) -/
  engCtl : Vector JobCtl 8 := Vector.replicate 8 {}
  /-- lode reads that wait for a slot, in arbitration order (R226) -/
  waiting : List MediaOp := []
  deriving DecidableEq, Repr

/-- What an assigned data drift of a lode holds: its data has not arrived, its user bytes, or padding (R251, R314). -/
inductive DriftFill where
  | waiting (pos page : Nat)
  | data (bytes : List Nat)
  | pad
  deriving DecidableEq, Repr

/-- The open lode of a seam (R250, R251): data drifts assigned, in order. -/
structure OpenLode where
  index : Nat
  drifts : List DriftFill := []
  /-- servo tick in which the linger, set when the first block entered, expires -/
  linger : Nat := 0
  deriving DecidableEq, Repr

/-- A sealed lode that is not yet accepted, data or catalogue (R252, R254, R268). -/
structure SealedLode where
  cat : Bool := false
  /-- logical index, or catalogue position -/
  index : Nat
  phys : Nat := 0
  /-- lode position in the band stream -/
  x : Nat := 0
  /-- the 128 data drifts -/
  user : List DriftFill := []
  ringTime : Nat := 0
  bootCtr : Nat := 0
  /-- slots recorded (R256), and those not yet verified -/
  recorded : List Nat := []
  unverified : List Nat := []
  cut : Bool := false
  /-- verify slot reserved -/
  slot : Option Nat := none
  /-- reason of failure in the run (R266) -/
  failReason : Option Nat := none
  accepted : Bool := false
  /-- the lode is in the run of the write revolution (R256) -/
  inRun : Bool := false
  /-- trailer (R269) -/
  trailer : Bool := false
  deriving DecidableEq, Repr

/-- Steps of the write pointer's recovery (R272). -/
inductive RecovStep where
  | catalogue (c : Nat)
  | scan (p : Nat)
  /-- everything has been read; the write pointer is established next -/
  | ended
  deriving DecidableEq, Repr

/-- A snapshot as read from or written to the catalogue (R269). -/
structure Snapshot where
  trailer : Bool
  seq : Nat
  lodes : Nat
  nextPhys : Nat
  exhausted : Bool
  ringTime : Nat
  /-- skipped position and reason -/
  skips : List (Nat × Nat)
  deriving DecidableEq, Repr

/-- A seam's state beside WRP_SEAM and the sparing table. -/
structure SeamS where
  openLode : Option OpenLode := none
  /-- sealed and not yet accepted, in logical order; catalogue lodes after -/
  lodes : List SealedLode := []
  snapSeq : Nat := 0
  /-- next catalogue position -/
  catNext : Nat := 0
  /-- sparing records not yet in a snapshot -/
  sinceSnap : Nat := 0
  /-- records or accepted lodes since the last snapshot -/
  dirty : Bool := false
  nextPhys : Nat := 0
  /-- sealed from the arbitration position of a SEAL SEAM (R314) -/
  sealing : Bool := false
  /-- sealed without a trailer for the rest of the mount (R269) -/
  noTrailer : Bool := false
  /-- position of the SEAL SEAM command waiting for its trailer -/
  sealCmd : Option Nat := none
  recov : Option RecovStep := none
  best : Option Snapshot := none
  deriving DecidableEq, Repr

/-- Progress of a VOLUME MOUNT (R313). -/
structure MountS where
  pos : Nat
  /-- further VOLUME MOUNT commands that wait for the same search -/
  also : List Nat := []
  /-- START of the command -/
  start : Bool := false
  /-- waiting for the deck -/
  waiting : Bool := false
  /-- the next position to examine: 2 n for catalogue position 0, 2 n + 1 for physical position 0 of seam n -/
  probe : Nat := 0
  nonBlank : Bool := false
  deriving DecidableEq, Repr

/-- A volume (R313, R316). -/
structure VolS where
  mounted : Bool := false
  blank : Bool := false
  serial : Nat := 0
  mount : Option MountS := none
  /-- position of the VOLUME RELEASE in progress -/
  release : Option Nat := none
  /-- the release has written its snapshots and stopped the deck -/
  releaseStopped : Bool := false
  wrote : List Nat := []
  seams : Vector SeamS 64 := Vector.replicate 64 {}
  deriving DecidableEq, Repr

/-- A drift record of the calibration area (R205, R271): band position, slot, beam, blank, quality (0xFFFF for a drift
that was inferred or truncated). -/
structure CalRec where
  /-- the LLRs of a framed drift (R210) -/
  llr : List Int := []
  pos : Nat
  slot : Nat
  beam : Nat
  blank : Bool
  quality : Nat
  deriving DecidableEq, Repr

/-- Where a calibration stands (R271). -/
inductive CalPhase where
  /-- reading positions for a run of free slots -/
  | search
  /-- write revolution: steps go to slots from `slot` of position `pos` -/
  | write (pos slot : Nat)
  | verify (pos slot : Nat)
  deriving DecidableEq, Repr

/-- The slot being recorded: lode (index, catalogue or data), slot of the lode, angle of the end of its last bit; in a
calibration the step. -/
structure Recording where
  index : Nat
  cat : Bool
  m : Nat
  endAngle : Nat
  step : Option Nat := none
  deriving DecidableEq, Repr

/-- The WRITE items of the slot being recorded: slot of the track, zone, the channel bits of the four beams, items sent, items recorded
whole (R79). -/
structure Sending where
  slot : Nat
  zone : Nat
  beams : List (List Bool)
  sent : Nat := 0
  done : Nat := 0
  deriving DecidableEq, Repr

/-- A head's write cycle beside WRP_HEAD (R256, R271). -/
structure WriteS where
  /-- WRITE items still to be sent (R79) -/
  sending : Option Sending := none
  /-- seam being written -/
  seam : Nat := 0
  /-- band position of the write revolution -/
  bandPos : Nat := 0
  /-- angle counts passed since the present revolution began -/
  turned : Nat := 0
  /-- the head goes to WRITE at the next pillar leading edge (R256) -/
  edge : Bool := false
  /-- a slot was recorded in this write revolution -/
  any : Bool := false
  /-- positions of the lodes that were refused a verify slot in this write revolution (R226) -/
  refused : List Nat := []
  recording : Option Recording := none
  /-- WG of the DRIVE item that applies in the present tick (R260) -/
  wg : Bool := false
  /-- WG of the DRIVE item of the next tick, as the write path has it (R258) -/
  wgNext : Bool := false
  /-- power table entry of the write revolution: valid, WSTRAT, PEAK, BIAS, COOL, loaded at its start (R255) -/
  power : Bool × Nat × Nat × Nat × Nat := (false, 0, 0, 0, 0)
  cal : Option CalPhase := none
  calRecs : List CalRec := []
  /-- HFE temperature at the last calibration, by layer (R270) -/
  calTemp : List (Nat × Nat) := []
  /-- the free slots found in a layer's calibration area, by layer: band position, first slot, slot after the last (R271) -/
  calFree : List (Nat × Nat × Nat × Nat) := []
  /-- layers whose calibration area is full (R271) -/
  calFull : List Nat := []
  /-- the head left WRITE or VERIFY; `true` when it entered HOLD and stays the serving head (R256) -/
  left : Option Bool := none
  /-- the takeover was requested: the run is finished and no further lode is taken (R23) -/
  finish : Bool := false
  /-- the containment freeze halts the cycle (R261) -/
  halted : Bool := false
  deriving DecidableEq, Repr

/-- Progress of a takeover of a band by its partner (R15). -/
inductive TakePhase where
  | none
  /-- step 3: the partner finishes its lode -/
  | waitPartner
  /-- step 4: the partner's learners are being seeded -/
  | seeding
  /-- step 4: the partner seeks; failed seeks so far -/
  | seeking (fails : Nat)
  deriving DecidableEq, Repr

/-- The routing of a head's band beside GLB_TAKEOVER (R14 to R18, R23 to R26). -/
structure BandS where
  unserved : Bool := false
  take : TakePhase := .none
  /-- the takeover was requested (R23) and its home head has not parked yet -/
  requested : Bool := false
  /-- a handback is in progress (R18) -/
  handback : Bool := false
  /-- the home head is in SAFE through a head-fatal event (R16) -/
  failed : Bool := false
  deriving DecidableEq, Repr

end Sys2Proof.Machine
end

