-- ==== Sys2Proof/Machine/PartsDisc.lean ====
section
/-!
DEFINITION. State of the Winders (08) and of the read channels (09) that no register shows.
-/
namespace Sys2Proof.Machine

/-! ### Winder (08) -/

/-- What the inverter's gates do: all off, the three low sides on, or modulation with the duties of phases U, V, W in engine
cycles of the half period, none for a floating phase (R163, R177). -/
inductive Gates where
  | off
  | short
  | pwm (u v w : Option Nat)
  deriving DecidableEq, Repr

/-- A pillar report (R203): head, side, pillar, low bits of the servo tick and engine cycle of the leading edge. -/
structure PillarReport where
  head : Nat
  side : Nat
  pillar : Nat
  tick : Nat
  cycle : Nat
  deriving DecidableEq, Repr

/-- How a deck that stops is braked (R177, R181). -/
inductive Brake where
  | none
  /-- controlled deceleration -/
  | ramp
  /-- winding short: motor ticks with |w| below 1 % of T; the 200 ms have begun at this servo tick -/
  | short (slow : Nat) (since : Option Nat)
  /-- gates off after a comparator trip or gate-driver fault, at this servo tick (R166) -/
  | hold (since : Nat)
  /-- coasting with gates off (R166) -/
  | coast
  deriving DecidableEq, Repr

/-- A Winder beside its registers. Angles in counts x 2^-16, speeds in rpm x 2^-16, currents in 2^-23 of I_FS. -/
structure DeckS where
  /-- the image places the deck as PRESENT, and its Winder's phase map (R362, R363) -/
  present : Bool := false
  phases : Nat := 0
  /-- electrical angle and its rate per servo tick, pole index (R169) -/
  elec : Nat := 0
  delec : Int := 0
  pole : Nat := 0
  /-- the angle and speed delivered in the last ticks, newest first (R38) -/
  past : List (Nat × Nat) := []
  /-- the observer completes late in the tick that begins next (R38) -/
  lateNext : Bool := false
  /-- an OFFSET step takes effect in the next tick (R171, R173) -/
  stepped : Bool := false
  /-- ticks in a row in which the observer was late (R38) -/
  late : Nat := 0
  /-- motor ticks in a row within LOCK_ERR, beyond LOS_ERR, and with mismatched back-EMF (R170, R182) -/
  lockRun : Nat := 0
  errRun : Nat := 0
  emfRun : Nat := 0
  /-- speed ticks of the losses of synchronism of the last 40,000 (R183) -/
  losses : List Nat := []
  /-- speed at the last speed tick (R182) -/
  lastSpeed : Int := 0
  /-- ramp speed and speed integrator, current setpoint (R174) -/
  ramp : Int := 0
  spdInt : Int := 0
  iSet : Int := 0
  /-- the speed loop's setpoint was limited in the last speed tick -/
  spdLim : Bool := false
  /-- current integrators of d and q (or I), the last voltages' signs, whether the last vector was scaled (R167) -/
  intD : Int := 0
  intQ : Int := 0
  sgnD : Int := 0
  sgnQ : Int := 0
  scaled : Bool := false
  /-- the gates in force; the duties computed in this motor tick, which come into force at the carrier peak (R163) -/
  gates : Gates := .off
  next : Option Gates := none
  /-- phase currents u and v of the last motor tick's sample, terminal voltages of it relative to Vbus / 2 in 2^-9 V (R169) -/
  lastI : Int × Int := (0, 0)
  lastV : Int × Int × Int := (0, 0, 0)
  /-- the gates in force at the last motor tick's sample (R169) -/
  lastG : Gates := .off
  /-- the last phase error of the observer, electrical counts (R170, R182) -/
  eps : Option Nat := none
  /-- speed and electrical angle by the terminal voltages of the last two samples with all gates off: rpm x 2^-2, counts (R176,
  R185) -/
  found : Option (Int × Nat) := none
  /-- motor ticks since all gates went off (R176, R185) -/
  offRun : Nat := 0
  /-- motor ticks in a row at rest with gates off (R185) -/
  restRun : Nat := 0
  /-- target at START, tick of the entry into SPINUP (R176) -/
  target0 : Nat := 0
  spinAt : Nat := 0
  /-- servo tick the present phase began in, handover tries, waiting for rest before a further try -/
  phaseAt : Nat := 0
  tries : Nat := 0
  waitRest : Bool := false
  /-- open-loop rate, rpm x 2^-16 (R176) -/
  olRate : Nat := 0
  /-- angle of the open-loop current vector, counts x 2^-16 -/
  olAngle : Nat := 0
  brake : Brake := .none
  /-- negative current limit, whether Vbus was above V_REGEN, whether REGEN_LIMIT has been raised in this stop (R177) -/
  negLim : Int := 8388608
  regen : Bool := false
  regenRaised : Bool := false
  /-- pulse skipping: the tick in which the gates turned off (R177) -/
  skipAt : Option Nat := none
  /-- Vbus of the last motor tick, rises counted, chopper on since before it, and its fault (R179) -/
  lastBus : Nat := 0
  rises : Nat := 0
  chopFull : Bool := false
  chopFault : Bool := false
  /-- speed ticks in a row within 0.2 % of target (R175), and with |delta| <= 256 (R184) -/
  atRun : Nat := 0
  pairRun : Nat := 0
  /-- reports delivered and not yet taken, in order (R171) -/
  reports : List PillarReport := []
  /-- tick in which a report was last used, the last used residual was beyond 128 (R171) -/
  usedAt : Option Nat := none
  jump : Bool := false
  /-- SPd_DRV_FLTn is low -/
  drvLow : Bool := false
  /-- tick of the last deck-fatal event (R186) -/
  fatalAt : Option Nat := none
  /-- WND_OVR: the duty is held for one motor tick, the deck then brakes (R38) -/
  ovr : Bool := false
  deriving DecidableEq, Repr

/-! ### Read channel (09) -/

/-- What a channel shows of a drift slot: the largest envelope over slot bits 0 to 383, U1.11, and its 112 decisions from 24 bits
before the predicted sync word (R207). -/
structure SlotIn where
  env : Nat
  bits : List Bool
  deriving DecidableEq, Repr

/-- What a channel has of a drift: Lambda of drift bits 448 to 39,615 in 2^-22, the drift bits detected, the mean squared equaliser error,
and ranges of defect bits (R196, R198, R209 to R211). -/
structure DriftIn where
  soft : List Int := []
  detected : Nat := 0
  mse : Nat := 0
  defects : List (Nat × Nat) := []
  deriving DecidableEq, Repr

/-- A drift being framed (R205 to R209): its record, its slot index, the data-stream position of its first bit; what the channel had of it
when it was truncated or the channel was seeded anew. -/
structure Framed where
  record : DriftRec
  slot : Nat
  start : Int := 0
  data : Option DriftIn := none
  deriving DecidableEq, Repr

/-- A corrected sample: z in 2^-11; sampled from a poisoned, missing or clipped word; bit of the pillar period, data-stream position,
number since the loop was seeded; envelope at it (R190, R193, R211, R212). -/
structure ZBit where
  z : Int
  bad : Bool
  nb : Nat
  pos : Nat
  num : Nat
  env : Nat
  deriving DecidableEq, Repr

/-- A bit in a detector: the best metrics of the eight states with the bit at 0 and at 1; a data bit or a known bit of a pillar; what
the equaliser had at it; the squared error once it is decided tentatively (R196 to R198). -/
structure PendBit where
  m0 : List (Option Nat) := []
  m1 : List (Option Nat) := []
  data : Bool := false
  pos : Nat := 0
  num : Nat := 0
  nb : Nat := 0
  y : Int := 0
  /-- z from seven bits after it to seven before it -/
  win : List Int := []
  /-- no bit of the adaptation's window lies in a poisoned, missing or clipped word (R197) -/
  clean : Bool := true
  bad : Bool := false
  env : Nat := 0
  err : Option Nat := none
  deriving DecidableEq, Repr

/-- A detector: its path metrics by state, and the bits within its path memory, the latest first (R198). -/
structure TrellisS where
  pm : List (Option Nat) := List.replicate 8 (some 0)
  pend : List PendBit := []
  deriving DecidableEq, Repr

/-- A detected data bit. -/
structure SoftBit where
  lam : Int
  pos : Nat
  num : Nat
  bad : Bool
  env : Nat
  err : Option Nat
  deriving DecidableEq, Repr

/-- The stages of a channel (R188 to R201, R211 to R213). -/
structure RxS where
  /-- the last eight samples, the latest first, with the tag of their word -/
  raw : List (Int × Bool) := []
  /-- the loop: its place in the pillar period and its rate per sample, in 2^-32 wobble periods; the bit sampled next; numbers of the
  bits sampled at the last leading edge and at the one before; the place of the leading edge in 1/64 samples from the HFE's strobe -/
  now : Nat := 0
  rate : Nat := 0
  next : Nat := 0
  num : Nat := 0
  start : Nat := 0
  before : Nat := 0
  edge : Nat := 0
  /-- memory of the loop's band-pass; squared phase errors of the pillar period and their number -/
  filt : List Int := []
  sumSq : Nat := 0
  cnt : Nat := 0
  /-- the last 32 corrected samples, the latest first -/
  zs : List ZBit := []
  /-- the detector of the data stream, and the one on all physical bits -/
  data : TrellisS := {}
  phys : TrellisS := {}
  /-- the last four tentative decisions, the latest first -/
  tent : List Bool := []
  /-- detected data bits, and decisions on physical bits with the number of them since a leading edge; the latest first -/
  soft : List SoftBit := []
  dec : List Bool := []
  decAt : Nat := 0
  /-- dropouts: runs of low and high bits, the last low bit, the first bit of an active one; ranges of defect bits, the latest first -/
  lowRun : Nat := 0
  highRun : Nat := 0
  lastLow : Nat := 0
  drop : Option Nat := none
  ranges : List (Nat × Nat) := []
  /-- the RF stream was flushed while the present pillar passed (R216) -/
  flushed : Bool := false
  deriving DecidableEq, Repr

/-- A drift that waits for or is in its inner decode (R223). -/
structure InnerJob where
  slot : Nat
  gen : Nat
  readNo : Nat
  record : DriftRec
  llr : List Int
  /-- the settings with which the decode started; none while it waits (R248) -/
  ctl : Option LdpcCtl := none
  deriving DecidableEq, Repr

/-- A channel beside its registers. -/
structure ChanS where
  /-- pillar periods since the entry into LOCK (R215) -/
  periods : Nat := 0
  /-- consecutive pillar syncs found, consecutive missed, the pillar number by the latest CRC-correct address since the entry
  into LOCK, counted on -/
  found : Nat := 0
  missed : Nat := 0
  addr : Option Nat := none
  /-- consecutive pillar periods beyond UNLOCK_ERR (R191) -/
  farRun : Nat := 0
  /-- consecutive CRC-correct addresses whose pillar differs from the count (R202) -/
  differ : Nat := 0
  /-- consecutive mismatches and consecutive failed checks (R204) -/
  mism : Nat := 0
  fails : Nat := 0
  /-- the last verdict of R192: beyond the limit -/
  beyond : Bool := false
  /-- RELOAD was written (R194) -/
  reload : Bool := false
  /-- envelope average A in 2^-23 (R212) -/
  env : Nat := 0
  rx : RxS := {}
  drift : Option Framed := none
  /-- drifts at the inner decoder, at most two (R223) -/
  inner : List InnerJob := []
  deriving DecidableEq, Repr

end Sys2Proof.Machine
end

