-- ==== Sys2Proof/Machine/PartsOut.lean ====
section
/-!
DEFINITION. What the block drives outwards during one command: PCIe messages and requests, link blocks and items, ring blocks,
pins. `State.out` holds the list for the command last executed, in order.
-/
namespace Sys2Proof.Machine

/-- A DRIVE item's fields (R76). -/
structure Drive where
  tag : Nat := 0
  focus : Nat := 0
  track : Nat := 0
  tilt : Nat := 0
  layer : Nat := 0
  sledA : Nat := 0
  sledB : Nat := 0
  sledMode : Nat := 1
  rpwr : Nat := 0
  laser : Nat := 0
  retract : Bool := true
  wg : Bool := false
  wstrat : Nat := 0
  peak : Nat := 0
  bias : Nat := 0
  cool : Nat := 0
  deriving DecidableEq, Repr

/-- One thing driven outwards. -/
inductive Output where
  /-- MSI-X message of a function's vector (R288) -/
  | msix (fn vec : Nat)
  /-- outbound memory read (R283) -/
  | readReq (tag addr len : Nat)
  /-- outbound memory write, with its Relaxed Ordering attribute (R283) -/
  | hostWrite (addr : Nat) (bytes : List Nat) (ro : Bool)
  /-- LTR message (R289) -/
  | ltr (latency : Nat)
  /-- an error message of a function: ERR_FATAL, or ERR_NONFATAL (R294) -/
  | errMessage (fn : Nat) (fatal : Bool)
  /-- answer to an inbound request: data, Unsupported Request, Completer Abort, EP data, configuration retry -/
  | cplData (bytes : List Nat)
  | cplUr
  | cplCa
  | cplPoison (len : Nat)
  | cplRetry
  /-- value of a register or configuration read -/
  | regData (v : Nat)
  /-- a control block on downstream lane `lane` (0 for D0, 1 for D1): its payload before the scrambler (R69) -/
  | block (head lane payload : Nat)
  /-- a TICK block, whose last bit leaves `lead` engine cycles before the strobe (R75) -/
  | tickBlock (head lane payload lead : Nat)
  /-- an item: the payload of its SOI block and its data words (R70, R76, R79) -/
  | item (head lane soi : Nat) (words : List Nat)
  /-- a lane sends a pattern in this tick: pattern, inverted, the generator's last 64 bits before it (R93) -/
  | pattern (lane pat : Nat) (inv : Bool) (hist : Nat)
  /-- gates of a deck's three half bridges: off, low sides on (short), or compare counts of 0 to 10,000 engine cycles per phase, none floating, with the dead time in ns before every turn-on (R163) -/
  | gatesOff (deck : Nat)
  | gatesShort (deck : Nat)
  | pwm (deck : Nat) (u v w : Option Nat) (dead : Nat)
  /-- chopper pin SPd_BRK -/
  | chopper (deck : Nat) (on : Bool)
  /-- ring bypass control BYP_HOLD -/
  | bypHold (level : Bool)
  /-- a frame on ring-out (R387, R388): ring time, HOPS, MIXED, OPEN, FULL, PATH, PHASE, F, E, and the status words this unit
  writes, by position -/
  | ringFrame (time hops : Nat) (mixed opened full : Bool) (path phase f e : Nat) (status : List (Nat × List Nat))
  /-- CLAIM: ring time and serial (R393) -/
  | ringClaim (time serial : Nat)
  /-- a message on ring-out: KIND, DEST, SRC, data words, DELIVERED, BUSY (R397) -/
  | ringMsg (kind dest src : Nat) (words : List Nat) (delivered busy : Bool)
  /-- flash erase of a range, flash programming: address and bytes (R353) -/
  | flashErase (addr len : Nat)
  | flashProgram (addr : Nat) (bytes : List Nat)
  /-- the staged image is programmed into a slot (R378) -/
  | flashCopy (dest len : Nat)
  /-- fuse bits of a field are programmed: REVOKE or SVN_FUSE, mask (R352) -/
  | fuseRevoke (mask : Nat)
  | fuseSvn (mask : Nat)
  /-- shift strobe (R30) -/
  | shiftStrobe
  deriving DecidableEq, Repr

end Sys2Proof.Machine
end

