-- ==== Sys2Proof/Machine/PartsHead.lean ====
section
/-!
DEFINITION. State of a head that no register shows: media operations and routing, write cycle, Collier loops and sequences (05),
runout learners (06), sled axis (07), head link, stream FIFOs and lanes (04).
-/
namespace Sys2Proof.Machine

/-! ### Collier (05) -/

/-- A placed loop: setpoint, integrator, last output, whether the output limiter was active, and section states (s1, s2)
(R101), all in units of 2^-23. -/
structure LoopS where
  sp : Int := 0
  acc : Int := 0
  u : Int := 0
  limited : Bool := false
  sos : List (Int × Int) := List.replicate 12 (0, 0)
  deriving DecidableEq, Repr

/-- The running sequence of a head (R119 to R123); drives f in units of 2^-23, times in servo ticks. -/
inductive SeqStep where
  /-- R120 steps 1 and 2: sweep number, focus drive, S-curves counted, FE has exceeded FE_TH since the last one -/
  | sweep (sweepNo : Nat) (f : Int) (n : Nat) (peaked : Bool)
  /-- R120 step 3: focus closed, waiting for FOCUS_OK -/
  | capture (sweepNo ticks : Nat) (f : Int)
  /-- R120: ramp back to -AMP -/
  | ramp (sweepNo : Nat) (f : Int)
  /-- R120 step 4: tracking capture; ticks since the capture of step 3 -/
  | acqTrack (ticks : Nat)
  /-- R121 KICK and BRAKE: target track, direction, lands of this jump, lands counted, ticks since the start, corrections
  made, sled moves repeated before it -/
  | kick (target : Nat) (dir : Int) (len count ticks corr rep : Nat)
  | brake (target : Nat) (dir : Int) (len count ticks corr rep : Nat)
  /-- R121 SETTLE -/
  | settle (target ticks corr rep : Nat)
  /-- R122 steps 2 and 3: the sled moves; a_h has been non-zero, zero profile ticks since -/
  | sledMove (target rep : Nat) (seen : Bool) (zeros : Nat)
  /-- R122 step 4: tracking capture; ticks since the arrival -/
  | sledTrack (target rep ticks : Nat)
  /-- R123, one hop towards `target`: phase 0 waiting for the kick, 1 coasting, 2 SUM and FE peak seen, 3 focus closed;
  largest FE seen in the direction; ticks with FOCUS_OK -/
  | hop (target : Nat) (dir : Int) (ticks phase : Nat) (peak : Int) (ok : Nat)
  /-- R123: tracking capture after the last hop -/
  | hopTrack (ticks : Nat)
  /-- R119: recapture of tracking at a HOLD exit -/
  | recapture (ticks : Nat)
  /-- the sequence has ended with TF set; the head leaves SEEK next -/
  | ended
  deriving DecidableEq, Repr

/-- A Collier beside its registers. -/
structure ClrS where
  loops : Vector LoopS 3 := Vector.replicate 3 {}
  /-- the loops as they stood before the present tick, for an overrun (R38) -/
  prevLoops : Vector LoopS 3 := Vector.replicate 3 {}
  /-- the image places the neighbour shaping section (R106); its states -/
  shaped : Bool := false
  nff : Int × Int := (0, 0)
  /-- lens offset LO, 2^-23 (R108) -/
  lo : Int := 0
  /-- the head's last SERVO slots, S0.15 (R98); empty when the tick's item was absent -/
  servo : List Int := []
  /-- FE, MPP and XCNT of the last tick with samples, for crossings (R99, R120) -/
  lastFe : Int := 0
  lastMpp : Int := 0
  lastX : Option Int := none
  /-- ticks in a row with |OT| within and beyond TF_BAND (R113) -/
  tfGood : Nat := 0
  tfBad : Nat := 0
  /-- ticks in a row with |OT| within WG_BAND (R116) -/
  wgGood : Nat := 0
  /-- ticks since the last shock (R116, R119); large when there was none -/
  sinceShock : Nat := 1000000
  /-- ticks in a row with FOCUS_OK (R119) -/
  okRun : Nat := 0
  /-- ticks in a row with SUM below SUM_LOST and focus closed (R118) -/
  sumLow : Nat := 0
  /-- ticks of the focus losses of the last 400,000 ticks (R118) -/
  losses : List Nat := []
  /-- ticks in a row with angle-valid clear (R118) -/
  noAngle : Nat := 0
  /-- ticks in HOLD (R118, R119) -/
  hold : Nat := 0
  /-- ticks waiting for a position fix (R118) -/
  fixWait : Nat := 0
  /-- sled follow (R109) -/
  armed : Bool := true
  lastDir : Int := 0
  dwell : Nat := 255
  hard : Nat := 0
  /-- ticks to the next read-power evaluation (R110) -/
  rpWait : Nat := 0
  /-- ticks of the overruns of the last 1,024 ticks, newest first (R38, R39) -/
  ovr : List Nat := []
  /-- the running sequence -/
  seq : Option SeqStep := none
  /-- the commit clears section states (R104) -/
  zeroPend : Bool := false
  /-- the DRIVE item sent for the present tick; the next item repeats its drive words (R38, R76) -/
  drive : Drive := {}
  rep : Bool := false
  /-- where the disc angle window of the last tick ended, counts x 2^-16 of the head angle -/
  winAt : Option Nat := none
  /-- outputs of the input scalers in the present tick (R113) -/
  x : Vector Int 3 := Vector.replicate 3 0
  /-- the feedback efforts of the present tick: last section and integrator (R131) -/
  effort : Vector Int 3 := Vector.replicate 3 0
  /-- the present tick's SERVO item was BAD or absent; the computation overran (R116) -/
  bad : Bool := true
  /-- saturation OUT or SUM in the present tick, per loop (R134) -/
  clipped : Vector Bool 3 := Vector.replicate 3 false
  deriving DecidableEq, Repr

/-! ### Runout learner (06) -/

/-- A past tick as the learner keeps it for its update eight ticks later (R131). -/
structure LrnTick where
  theta : Nat
  dtheta : Nat
  e : Int
  r : Int
  frozen : Bool
  tick : Nat
  deriving DecidableEq, Repr

/-- The running learning revolution of a table (R132, R133). -/
structure LrnRev where
  /-- angle of the last executed update -/
  lastPsi : Option Nat := none
  /-- the bins that were lower bins in this revolution, as a mask -/
  bins : Nat := 0
  /-- sum of |g| and number of updates -/
  sumG : Nat := 0
  cnt : Nat := 0
  deriving DecidableEq, Repr

/-- A learner table beside its registers. -/
structure LrnLoopS where
  /-- fade count n (R130); it rises by one per tick until it reaches FADE -/
  n : Nat := 0
  ramp : Bool := false
  hist : List LrnTick := []
  rev : LrnRev := {}
  /-- what the last update changed, for a skipped update (R136): field values and revolution before it -/
  undo : List RegCell := []
  undoChk : List (Nat × Nat) := []
  prevRev : LrnRev := {}
  /-- copy in progress: source head, next entry (R138) -/
  copy : Option (Nat × Nat) := none
  /-- the copy is one of step 4 of a takeover (R139) -/
  forBand : Bool := false
  deriving DecidableEq, Repr

/-- A learner pair. -/
structure LrnS where
  loops : Vector LrnLoopS 2 := Vector.replicate 2 {}
  /-- the angle it continues by itself while angle-valid is clear (R130): counts and fraction, 2^-16 -/
  xTheta : Nat := 0
  xDtheta : Nat := 0
  /-- SUM_AVG (R135) -/
  sumAvg : Int := 0
  /-- ticks of defects and shocks still of use, newest first (R135) -/
  blank : List Nat := []
  /-- tick of the last entry into FOLLOW, WRITE or VERIFY from SEEK, ACQUIRE or HOLD (R134) -/
  entered : Nat := 0
  /-- speed ratio, S2.21 (R128) -/
  rho : Int := 2097152
  /-- the deck's angle-valid flag in the last tick (R130) -/
  wasValid : Bool := false
  deriving DecidableEq, Repr

/-! ### Sled axis (07) -/

/-- A sled axis beside its registers; positions, speeds and accelerations in units of 2^-32 steps (R148). -/
structure SldS where
  p : Int := 0
  x : Int := 0
  v : Int := 0
  a : Int := 0
  /-- sum of the position shifts (R149) -/
  sigma : Int := 0
  /-- position at the last profile tick, for the interpolation of R149 -/
  pOld : Int := 0
  /-- WIRE inverts the axis, exchanges SLED_A and SLED_B (R363) -/
  invert : Bool := false
  swap : Bool := false
  /-- a fixed stop runs (R160) -/
  fixed : Bool := false
  /-- profile ticks since arrival (R155) -/
  rest : Nat := 1000
  /-- parked for SAFE: coils shorted after arrival (R159) -/
  short : Bool := false
  /-- the coils are to be energised for one profile tick before the move begins (R155) -/
  cold : Bool := false
  /-- the tick in which the axis entered FAULT; the tick in which it entered OFF, with v and HOMED as they were (R159) -/
  faultAt : Option Nat := none
  offAt : Option (Nat × Int × Bool) := none
  /-- events raised in this move: DECEL_RAISED, DECEL_LIMIT, OVERSHOOT (R150) -/
  raised : Bool := false
  limited : Bool := false
  passed : Bool := false
  /-- the jerk limit is lifted for this move (R151) -/
  lifted : Bool := false
  /-- pending group target, and the one a GO releases at the next profile step (R158) -/
  pend : Option Int := none
  rise : Option Int := none
  /-- sled-follow request and relative seek target not yet taken (R109, R122) -/
  req : Int := 0
  rel : Option Int := none
  /-- homing: travel, profile ticks, the trip seen (R157) -/
  travel : Int := 0
  time : Nat := 0
  trip : Bool := false
  /-- the travel limit and the time limit no longer end this homing (R157) -/
  waived : Bool × Bool := (false, false)
  /-- limit switch: length of the run of equal raw samples, position at its edge, ticks of raw transitions (R156, R157) -/
  run : Nat := 0
  edge : Int := 0
  trans : List Nat := []
  deriving DecidableEq, Repr

/-! ### Head link (04) -/

/-- A word in a FIFO: its 64 bits, its 8 even-parity bits, its poison tag (R69, R87). -/
structure LWord where
  w : Nat
  par : Nat
  poison : Bool
  deriving DecidableEq, Repr

/-- An upstream item: header and the words received (R70). -/
structure Item where
  seq : Nat
  tag : Nat
  crc : Nat
  words : List LWord := []
  deriving DecidableEq, Repr

/-- A ping-pong FIFO (R87): drain bank, fill bank and whether its item is complete, a word whose push stalls. -/
structure FifoS where
  drain : Option Item := none
  fill : Option Item := none
  full : Bool := false
  stalled : Option LWord := none
  /-- header of an item whose first word is not in a bank yet -/
  head : Option Item := none
  /-- words are dropped up to the next SOI of the stream (R91, R92) -/
  drop : Bool := false
  lastSeq : Option Nat := none
  deriving DecidableEq, Repr

/-- A popped item with its checks: the words, which of them are poisoned, BAD, and the items that SEQ shows missing before it
(R89). -/
structure Popped where
  stream : Nat
  tag : Nat
  words : List Nat
  bad : Bool
  poisoned : List Bool := []
  missing : Nat := 0
  deriving DecidableEq, Repr

/-- A change of the lane map asked of the HFE (R83 to R85). -/
inductive MapReq where
  | rotate | failover | restore
  deriving DecidableEq, Repr

/-- A block of the bonded stream that waits in the deskew for its turn: its position in the stream, sync header, descrambled payload,
round trip if it is an ECHO (R80, R81). -/
structure Waiting where
  pos : Nat
  hdr : Nat
  w : Nat
  rtt : Nat
  deriving DecidableEq, Repr

/-- A head link beside its registers. -/
structure LinkS where
  fifos : Vector FifoS 6 := Vector.replicate 6 {}
  /-- the item being received: stream (by FIFO number) and words left; none: an SOI is expected or words are dropped -/
  cur : Option (Nat × Nat) := none
  /-- the bonded stream (R80): the position of the first block of the present marker period, the position delivered next, and the blocks
  that wait -/
  base : Nat := 0
  due : Nat := 0
  wait : List Waiting := []
  /-- next SEQ of the streams sent: 8 (DRIVE) and 12 + b (WRITE b), by stream minus 8 (R70) -/
  seqs : Vector Nat 8 := Vector.replicate 8 0
  /-- SERVO and STATUS items popped and not yet taken for a tick (R90) -/
  bank : List Popped := []
  /-- full marker number -/
  mark : Nat := 0
  /-- pending map change: kind, lane, marker M -/
  req : Option (MapReq × Nat × Nat) := none
  /-- markers since the last rotation, and markers to wait after a cancelled one -/
  sinceRot : Nat := 0
  rotWait : Nat := 0
  /-- tick of the entry into TRAIN, echoes received, largest round trip, measured LEAD -/
  trainAt : Nat := 0
  echoes : Nat := 0
  rtt : Nat := 0
  lead : Nat := 0
  /-- STATUS items received since TRAIN began -/
  status : Bool := false
  /-- LINK_CMD: next SEQ, and the tick the outstanding one was sent in -/
  cmdSeq : Nat := 0
  cmdAt : Nat := 0
  /-- fields of the latest STATUS item that no register shows: LDM, LIMIT, TEMP; LDM is of use in its own tick -/
  ldm : Option Nat := none
  limit : Bool := false
  temp : Nat := 0
  deriving DecidableEq, Repr

/-- A pattern checker: the last 64 bits received, the last 64 of its own pattern while locked, the run of error-free bits, LOCK, errors
not counted yet (R93). -/
structure CheckS where
  hist : Nat := 0
  ref : Nat := 0
  run : Nat := 0
  lock : Bool := false
  errs : Nat := 0
  deriving DecidableEq, Repr

/-- A lane beside its registers: consecutive bad markers, valid markers in TRAIN, soak markers (R82, R84, R86); its calibration
has been tried since it became spare or failed (R82, R421); the descrambler's last 58 bits; sync headers counted for lock or loss, and
the invalid ones (R68); blocks since the marker (R80); its checker and the last 64 bits of its generator (R93). -/
structure LaneS where
  miss : Nat := 0
  good : Nat := 0
  soak : Nat := 0
  tried : Bool := false
  scr : Nat := 0
  hdrs : Nat := 0
  badHdr : Nat := 0
  cnt : Nat := 0
  chk : CheckS := {}
  gen : Nat := 0
  deriving DecidableEq, Repr

/-! ### A head -/

/-- A head. -/
structure HeadS where
  /-- operations issued and not yet taken, in arbitration order (R118) -/
  ops : List MediaOp := []
  /-- the operation in progress -/
  op : Option MediaOp := none
  band : BandS := {}
  write : WriteS := {}
  clr : ClrS := {}
  lrn : LrnS := {}
  sld : SldS := {}
  link : LinkS := {}
  deriving DecidableEq, Repr

end Sys2Proof.Machine
end

