-- ==== Sys2Proof/Machine/PartsHost.lean ====
section
/-!
DEFINITION. The host side's state that no register shows: the PCIe functions, outstanding requests, MSI-X tables (12), queue
pairs, the arbiter, commands taken into the command engine and self-tests (13).
-/
namespace Sys2Proof.Machine

/-- One MSI-X table entry (R279, R288).
PRESUMED, unsafe: log 15. -/
structure Msix where
  addr : Nat := 0
  data : Nat := 0
  masked : Bool := true
  deriving DecidableEq, Repr

/-- The AER causes the spec names (R285, R286, R294). -/
inductive Aer where
  | completionTimeout | unexpectedCompletion | poisonedTlp | completionStatus | internalError
  deriving DecidableEq, Repr

/-- One function's configuration state, as far as the spec's rules read it (R276, R282 to R284, R288, R289, R297). -/
structure PfS where
  msixEn : Bool := false
  funcMask : Bool := false
  intxDis : Bool := false
  roEn : Bool := true
  cplTmo : Nat := 0
  cplTmoDis : Bool := false
  ltrEn : Bool := false
  d3 : Bool := false
  flr : Bool := false
  internalFatal : Bool := true
  aer : List Aer := []
  /-- Pending vectors, the set bits of the PBA, rising. -/
  pba : List Nat := []
  deriving DecidableEq, Repr

/-- What an outbound read request was fetching (R285). -/
inductive ReqKind where
  /-- the entry of pair q selected at an arbitration position -/
  | sqFetch (q pos : Nat)
  | listPage (pos : Nat)
  | data (pos page : Nat)
  deriving DecidableEq, Repr

/-- An outbound read request (R284), numbered in the order of its making; `sent`: it has been issued and is outstanding, since servo tick `since`; `got`
are the bytes its completions have brought so far; `drop`: its completions are discarded (R295, R319). -/
structure OutReq where
  tag : Nat
  kind : ReqKind
  addr : Nat
  len : Nat
  got : List Nat := []
  sent : Bool := false
  since : Nat := 0
  drop : Bool := false
  deriving DecidableEq, Repr

/-- The endpoint (12). -/
structure HifS where
  pf0 : PfS := {}
  pf1 : PfS := {}
  table0 : Vector Msix 256 := Vector.replicate 256 {}
  table1 : Vector Msix 32 := Vector.replicate 32 {}
  reqs : List OutReq := []
  nextTag : Nat := 0
  /-- window masks of commits that wait for a boundary, oldest first (R291) -/
  commits : List Nat := []
  /-- PERST# is asserted. -/
  perst : Bool := false
  /-- A hot reset has been received and the HIF is not ready again (R281). -/
  hotPending : Bool := false
  /-- The active/idle state of the last LTR message (R289). -/
  ltrActive : Bool := false
  deriving DecidableEq, Repr

/-- A queue pair's state beside its registers (R300, R305, R306). -/
structure PairS where
  /-- The phase bit of the next entry (R305). -/
  phase : Bool := true
  /-- Entries written and not yet covered by a signal (R306). -/
  unsig : Nat := 0
  /-- servo tick in which the first of them was written -/
  since : Nat := 0
  /-- The CQ index up to which entries are covered by a signal (R306, INTx). -/
  covered : Nat := 0
  /-- The pair's cause is pending (R288, R306). -/
  cause : Bool := false
  deriving DecidableEq, Repr

/-- Where a command stands. -/
inductive CmdStage where
  /-- fetched, with its arbitration position, no effect yet -/
  | taken
  /-- its effect has begun; it waits for media work, transfers or other commands -/
  | running
  /-- it has its status and waits for its completion entry to be written (R305) -/
  | done
  deriving DecidableEq, Repr

/-- A command in the command engine (R303, R307, R309). -/
structure Cmd where
  pos : Nat
  q : Nat
  cid : Nat
  opc : Nat
  vol : Nat
  lba : Nat
  nblk : Nat
  dptr1 : Nat
  dptr2 : Nat
  csf : List Nat
  stage : CmdStage := .taken
  sct : Nat := 0
  sc : Nat := 0
  result : Nat := 0
  /-- host pages of the transfer known so far (R304) -/
  pages : List Nat := []
  /-- the next list page to fetch -/
  listAt : Option Nat := none
  /-- the transfer's page list is complete -/
  pagesOk : Bool := false
  /-- first block assigned, as an LBA; the write has its blocks (R314) -/
  assigned : Option Nat := none
  /-- lodes (logical indices of its seam) the command still waits for -/
  lodes : List Nat := []
  /-- media work or transfer has begun (R318) -/
  media : Bool := false
  /-- the command waits for its turn on its seam: for the write pointer, for room or for earlier commands (R313 to R315) -/
  waiting : Bool := false
  /-- the lowest LBA not delivered and its status code (R315) -/
  low : Option (Nat × Nat) := none
  /-- the signature of a CONFIG PIECE's piece verifies (R375) -/
  sigOk : Bool := true
  deriving DecidableEq, Repr

/-- The arbiter (R307): BURST and credits left in the round, last SQ served per class, the visit in progress. -/
structure ArbS where
  inRound : Bool := false
  burst : Nat := 0
  credH : Nat := 0
  credM : Nat := 0
  credL : Nat := 0
  lastU : Nat := 0
  lastH : Nat := 0
  lastM : Nat := 0
  lastL : Nat := 0
  visit : Option (Nat × Nat) := none
  deriving DecidableEq, Repr

/-- A step of a self-test: focus acquisition on a layer by a head, or the read of a lode of a seam (R320). -/
inductive TestStep where
  | acquire (head layer : Nat)
  | lode (seam lode : Nat)
  deriving DecidableEq, Repr

/-- A self-test (R320): the running test's command, the steps left, the step in progress, counts, and the last result. -/
structure SelfTest where
  running : Option Nat := none
  code : Nat := 0
  left : List TestStep := []
  now : Option TestStep := none
  stopping : Bool := false
  lodesRead : Nat := 0
  failed : Nat := 0
  acqFailed : Bool := false
  stopped : Bool := false
  /-- per head slot: clean, corrected, failed (log page 0x03) -/
  perHead : List (Nat × Nat × Nat) := List.replicate 4 (0, 0, 0)
  /-- per head slot: first failed seam and lode -/
  firstFail : List (Option (Nat × Nat)) := List.replicate 4 none
  deriving DecidableEq, Repr

/-- The command engine and its queues (13). -/
structure HqiS where
  pairs : Vector PairS 65 := Vector.replicate 65 {}
  cmds : List Cmd := []
  nextPos : Nat := 0
  arb : ArbS := {}
  aborts : Vector Nat 65 := Vector.replicate 65 0
  tests : Vector SelfTest 8 := Vector.replicate 8 {}
  deriving DecidableEq, Repr

end Sys2Proof.Machine
end

