-- ==== Sys2Proof/Machine/State.lean ====
section
/-!
DEFINITION. The state of the machine: the register store, which holds every register field of the spec's register tables, and the
state the chapters give the blocks beside their registers; the faults and refusals; the state after reset.
-/
namespace Sys2Proof.Machine

/-- The machine. A register field has one home, `regs`; the other fields hold what no register shows. -/
structure State where
  /-- every register field whose value differs from its reset value (R450 to R456) -/
  regs : List RegCell := []
  /-- TCK_COUNT, 48 bits: the number k of the present servo tick (R27) -/
  tick : Nat := 0
  /-- ring discipline (R31 to R34) -/
  tck : TckS := {}
  /-- the PCI Express endpoint (12) -/
  hif : HifS := {}
  /-- queues, command engine, self-tests (13) -/
  hqi : HqiS := {}
  /-- volumes and their seams (11, 13) -/
  vols : Vector VolS 8 := Vector.replicate 8 {}
  /-- Assayer pool and tailings store (10) -/
  asy : AsyS := {}
  /-- Colliers, learners, sleds, head links, write cycles, routing, by head (01, 04 to 07, 11) -/
  heads : Vector HeadS 32 := Vector.replicate 32 {}
  /-- Winders, by deck (08) -/
  decks : Vector DeckS 8 := Vector.replicate 8 {}
  /-- read channels (09) -/
  chans : Vector ChanS 128 := Vector.replicate 128 {}
  /-- serial lanes, eight of each head (04) -/
  lanes : Vector LaneS 256 := Vector.replicate 256 {}
  /-- DRAM, table entries' check bytes, lode cache (14) -/
  mem : MemS := {}
  /-- fuses, flash, images, boot records, staging, the shift (15) -/
  cfg : CfgS := {}
  /-- the Torol ring (16) -/
  trl : TrlS := {}
  /-- calibration and sensors (17) -/
  cal : CalS := {}
  /-- resets (17) -/
  pwr : PwrS := {}
  /-- the test access port (R424) -/
  tap : TapS := {}
  /-- the MODEL's own: how many free values have been used -/
  free : Nat := 0
  /-- what the last command drove outwards, in order -/
  out : List Output := []
  /-- the queue of commands that wait, first in, first out -/
  pending : List Instr := []
  deriving DecidableEq, Repr

/-- Why the machine stops. -/
inductive Fault where
  /-- A register write starts a DRAM access to a line beyond the installed DRAM, which does not exist: a raw test operation
  (R339) or a preload (R345). Raised by TEST_RAW_WRITE, TEST_RAW_READ, LCA_PRELOAD and REGISTER_WRITE. Safe: the spec states
  no effect of such an access, and the model goes no further. -/
  | dramAddress
  deriving DecidableEq, Repr

/-- Why a command has no meaning. -/
inductive Refusal where
  /-- The command is not modelled. Raised by no command: every row has its meaning. Safe. -/
  | notModelled (mnemonic : String)
  deriving DecidableEq, Repr

/-- The registers that differ from their reset values when PORn has just ended: PWR_STATUS shows what is present, and CFG_KEYS the
sensed fuses (R414, R417, R453).
DESIGN CHOICE, unsafe: log 7.
DESIGN CHOICE, unsafe: log 8. -/
def resetRegs : List RegCell :=
  [⟨F.CFG_KEYS_FUSED, 0, 1⟩, ⟨F.PWR_STATUS_PCIE_REF, 0, 1⟩, ⟨F.PWR_STATUS_SYSCLK, 0, 1⟩, ⟨F.PWR_STATUS_LREF, 0, 255⟩,
   ⟨F.PWR_STATUS_RAILS, 0, 255⟩]

/-- The machine right after PORn: every register at its reset value, straps low, the full load of R367 in progress with boot cause 1
(R408, R410, R453).
DESIGN CHOICE, unsafe: log 8. -/
def State.reset : State := { regs := resetRegs, cfg := { load := some { cause := 1 } } }

end Sys2Proof.Machine
end

