-- ==== Sys2Proof/Machine/Ops.lean ====
section
/-!
DEFINITION. The named operations every meaning is built from: registers, counters, outputs, free values, and the frame of a
meaning (`done`). A register field has one home, the register store; every read and write of one goes through here.
-/
namespace Sys2Proof.Machine

/-- The outcome of a command. -/
abbrev Out := Host.Outcome State Fault Refusal

/-! ### Registers -/

/-- The value of register field f of instance i. -/
def State.getF (s : State) (f : Field) (i : Nat) : Nat := regGet s.regs f i

/-- Write register field f of instance i. -/
def State.setF (s : State) (f : Field) (i v : Nat) : State := { s with regs := regSet s.regs f i v }

/-- A one-bit field is set. -/
def State.isSet (s : State) (f : Field) (i : Nat) : Bool := s.getF f i != 0

/-- Write a one-bit field. -/
def State.setB (s : State) (f : Field) (i : Nat) (b : Bool) : State := s.setF f i b.toNat

/-- Bit b of a field. -/
def State.bitF (s : State) (f : Field) (i b : Nat) : Bool := (s.getF f i).testBit b

/-- A number with bit b set or cleared. -/
def putBit (n b : Nat) (v : Bool) : Nat := if n.testBit b = v then n else n ^^^ 2 ^ b

/-- Write bit b of a field. -/
def State.putF (s : State) (f : Field) (i b : Nat) (v : Bool) : State := s.setF f i (putBit (s.getF f i) b v)

/-- Add to a counter that saturates at its field's largest value (R451). -/
def State.addSat (s : State) (f : Field) (i n : Nat) : State :=
  s.setF f i (min (s.getF f i + n) (2 ^ f.width - 1))

/-- Count one (R451). -/
def State.count (s : State) (f : Field) (i : Nat) : State := s.addSat f i 1

/-- Keep the larger value in a high-water field. -/
def State.keepMax (s : State) (f : Field) (i v : Nat) : State :=
  s.setF f i (min (max (s.getF f i) v) (2 ^ f.width - 1))

/-! ### Vectors of units -/

/-- Element i, or a default beyond the end. -/
def vget {α : Type} {n : Nat} (v : Vector α n) (d : α) (i : Nat) : α := v[i]?.getD d

/-- Replace element i; beyond the end nothing changes. -/
def vset {α : Type} {n : Nat} (v : Vector α n) (i : Nat) (x : α) : Vector α n := v.setIfInBounds i x

/-! ### The ring -/

/-- The unit is on a ring (R404). -/
def State.onRing (s : State) : Bool :=
  s.isSet F.TRL_CTL_EN 0 && decide (2 ≤ s.getF F.TRL_STATUS_ROLE 0) && !s.isSet F.TRL_STATUS_EXCLUDED 0

/-- Ring time for metadata and boot records: 0 off the ring (R56, R370). -/
def State.ringNow (s : State) : Nat := if s.onRing then s.trl.time else 0

/-- Servo ticks from tick a to now; none when TCK_COUNT has been stepped back. -/
def State.ticksSince (s : State) (a : Nat) : Nat :=
  let n := (s.tick + 2 ^ 48 - a) % 2 ^ 48
  if n < 2 ^ 47 then n else 0

/-! ### Outputs and free values -/

/-- Drive something outwards. -/
def State.emit (s : State) (o : Output) : State := { s with out := s.out ++ [o] }

/-- Advance the counter of free values.
DESIGN CHOICE, safe: log 5. -/
def State.bump (s : State) : State := { s with free := s.free + 1 }

/-- Do f only when c holds. -/
def State.onlyIf (s : State) (c : Bool) (f : State → State) : State := if c then f s else s

/-- Do f for every element of a list, in order. -/
def State.forEach {α : Type} (s : State) (l : List α) (f : State → α → State) : State := l.foldl f s

end Sys2Proof.Machine
end

