-- ==== Sys2Proof/Machine/Flags.lean ====
section
/-!
DEFINITION. Event flags: raising an event (R19 to R21), the pending groups and their PF1 vectors (R457 to R459), MSI-X messages
(R288), and `done`, which ends every meaning by signalling the groups that rose.
-/
namespace Sys2Proof.Machine

/-- Raise an event by its cause: its bit is set and no longer counts as forced (R21). -/
def State.raise (s : State) (e : Event) (i : Nat) : State :=
  (s.setB e.fld i true).putF e.reg.forced i e.bit false

/-- Raise a LNK event of head h: LNK_EVT_HEADS records the head (R97). -/
def State.raiseLnk (s : State) (e : Event) (h : Nat) : State := (s.raise e 0).putF F.LNK_EVT_HEADS_HEAD 0 h true

/-- Raise a SLD event of axis h: SLD_EVT_AXES records the axis (R161). -/
def State.raiseSld (s : State) (e : Event) (h : Nat) : State := (s.raise e h).putF F.SLD_EVT_AXES_AXIS 0 h true

/-- Raise a CHN event of channel c: CHN_EVT_CHANS records the channel (R217). -/
def State.raiseChn (s : State) (e : Event) (c : Nat) : State :=
  (s.raise e c).putF F.CHN_EVT_CHANS_CHAN (c / 32) (c % 32) true

/-- Raise a TCK overrun of head h: TCK_OVR_HEADS records the head (R41). -/
def State.raiseTckHead (s : State) (e : Event) (h : Nat) : State := (s.raise e 0).putF F.TCK_OVR_HEADS_HEAD 0 h true

/-- Raise a TCK overrun of deck d: TCK_OVR_DECKS records the deck (R41). -/
def State.raiseTckDeck (s : State) (e : Event) (d : Nat) : State := (s.raise e 0).putF F.TCK_OVR_DECKS_DECK 0 d true

/-- The event a field is the bit of, when it is one. -/
def eventOf (id : Nat) : Option Event := allEvents.find? fun e => e.fld.id = id

/-- The vector of an event of instance i (R458). -/
def Event.vector (e : Event) (i : Nat) : Nat := e.reg.vbase + i / e.reg.vdiv

/-- The groups one stored cell puts forward, as a mask of vectors: pending means set and not masked (R457); device-fatal
events also belong to group 0 (R458). -/
def cellGroups (regs : List RegCell) (c : RegCell) : Nat :=
  if c.val = 0 then 0 else
  match eventOf c.fld.id with
  | none => 0
  | some e =>
    if (regGet regs e.reg.mask c.idx).testBit e.bit then 0
    else 2 ^ (e.vector c.idx) ||| (if e.sev = .deviceFatal then 1 else 0)

/-- GLB_INT_BLOCK: the source groups with a pending event (R457, R458). -/
def intBlock (regs : List RegCell) : Nat := regs.foldl (fun m c => m ||| cellGroups regs c) 0

/-- An event register's pending bits of one instance are not all clear. -/
def EvtReg.anyPending (r : EvtReg) (regs : List RegCell) (i : Nat) : Bool :=
  (List.range r.width).any fun b =>
    match r.bits[b]? with
    | none => false
    | some f => regGet regs f i != 0 && !(regGet regs r.mask i).testBit b

/-- GLB_INT_DECK[d] (R457). -/
def intDeck (regs : List RegCell) (d : Nat) : Nat :=
  (List.range 4).foldl (fun m s =>
    let h := 4 * d + s
    m + (evtClr.anyPending regs h).toNat * 2 ^ s + (evtLrn.anyPending regs h).toNat * 2 ^ (4 + s) +
    (evtSld.anyPending regs h).toNat * 2 ^ (8 + s) +
    ((List.range 4).any fun b => evtChn.anyPending regs (4 * h + b)).toNat * 2 ^ (12 + s))
    ((evtWnd.anyPending regs d).toNat * 2 ^ 16)

/-! ### MSI-X (R288) -/

/-- A rising list with n in it. -/
def insertNat (n : Nat) : List Nat → List Nat
  | [] => [n]
  | m :: ms => if n < m then n :: m :: ms else if n = m then m :: ms else m :: insertNat n ms

/-- A function's state. -/
def State.pf (s : State) (fn : Nat) : PfS := if fn = 0 then s.hif.pf0 else s.hif.pf1

/-- Write a function's state. -/
def State.setPf (s : State) (fn : Nat) (p : PfS) : State :=
  if fn = 0 then { s with hif := { s.hif with pf0 := p } } else { s with hif := { s.hif with pf1 := p } }

/-- An MSI-X table entry. -/
def State.msixEntry (s : State) (fn v : Nat) : Msix :=
  if fn = 0 then vget s.hif.table0 {} v else vget s.hif.table1 {} v

/-- Containment has begun and not ended (R294). -/
def State.contained (s : State) : Bool := s.getF F.HIF_CONTAIN_STATE 0 != 0

/-- A verify-only load runs (R409). -/
def State.verifying (s : State) : Bool := match s.cfg.load with | some l => l.verifyOnly | none => false

/-- Media work is frozen: by containment (R295), or from PERST# to the end of its verify-only load (R410). -/
def State.frozen (s : State) : Bool := s.contained || s.verifying || s.hif.perst

/-- The function may issue requests: the link is up, the function is in D0 and not in FLR, and PF0 is not contained
(R282, R288, R295, R297). -/
def State.mayIssue (s : State) (fn : Nat) : Bool :=
  s.isSet F.HIF_LINK_DL_ACTIVE 0 && !(s.pf fn).d3 && !(s.pf fn).flr && !(fn == 0 && s.contained)

/-- A function's memory space is served: it may act on the link, no reset or load holds it back, and PF0 is not contained (R280
to R282, R295, R297). -/
def State.served (s : State) (fn : Nat) : Bool :=
  s.mayIssue fn && !s.hif.perst && !s.hif.hotPending && s.cfg.load.isNone && s.pwr.held.isEmpty
def State.pf0Served (s : State) : Bool := s.served 0
def State.pf1Served (s : State) : Bool := s.served 1

/-- A read that is not served is answered Unsupported Request, when the link carries it (R279, R295, R297). -/
def State.refuseRead (s : State) : State := if s.isSet F.HIF_LINK_DL_ACTIVE 0 then s.emit .cplUr else s

/-- A message of this vector may be sent now. -/
def State.mayMessage (s : State) (fn v : Nat) : Bool :=
  s.mayIssue fn && !(s.pf fn).funcMask && !(s.msixEntry fn v).masked

/-- Signal a vector of a function: send its message, or set its pending bit; without MSI-X Enable no message is sent
(R288). -/
def State.signal (s : State) (fn v : Nat) : State :=
  if !(s.pf fn).msixEn then s
  else if s.mayMessage fn v then s.emit (.msix fn v)
  else s.setPf fn { s.pf fn with pba := insertNat v (s.pf fn).pba }

/-- Send every pending message of a function that may be sent (R288). -/
def State.flushPba (s : State) (fn : Nat) : State :=
  if !(s.pf fn).msixEn then s
  else
    let send := (s.pf fn).pba.filter fun v => s.mayMessage fn v
    let s1 := s.setPf fn { s.pf fn with pba := (s.pf fn).pba.filter fun v => !s.mayMessage fn v }
    s1.forEach send fun t v => t.emit (.msix fn v)

/-- The level of a function's INTA (R288, R295, R306, R459). -/
def State.intxLevel (s : State) (fn : Nat) : Bool :=
  !(s.pf fn).msixEn && !(s.pf fn).intxDis &&
  (if fn = 0 then !s.contained && s.hqi.pairs.toList.any (·.cause) else intBlock s.regs != 0)

/-- A reset source has occurred: its bit of PWR_RESET_CAUSE is set and LAST names it (R408).
DEDUCED, unsafe: log 13.
DEDUCED, unsafe: log 67. -/
def State.resetSource (s : State) (f : Field) (bit : Nat) : State := (s.setB f 0 true).setF F.PWR_RESET_CAUSE_LAST 0 bit

/-- Signal the PF1 vectors whose group bit rose, in increasing vector order (R459, R460). -/
def State.settle (before after : State) : State :=
  let g0 := intBlock before.regs
  let g1 := intBlock after.regs
  after.forEach ((List.range 23).filter fun v => g1.testBit v && !g0.testBit v) fun t v => t.signal 1 v

/-- A meaning's frame: the outputs of the last command are taken away, the effect is made, rising groups are signalled.
DESIGN CHOICE, unsafe: log 4. -/
def effect (s : State) (f : State → State) : Out :=
  let s0 := { s with out := [] }
  .next (State.settle s0 (f s0))

/-- The frame of a meaning that needs a running device: while a reset is held nothing happens (R408, R417). -/
def done (s : State) (f : State → State) : Out := effect s fun t => if t.pwr.held.isEmpty then f t else t

end Sys2Proof.Machine
end

