-- ==== Sys2Proof/Machine/Tables.lean ====
section
/-!
DEFINITION. Table entries as SRAM words (R328, R331, R334, R335, R339): the (72,64) code, the leaky buckets, the log of
uncorrectable errors, and the functional read of an entry.
-/
namespace Sys2Proof.Machine

/-! ### The SRAM code (R328) -/

/-- The number of bits set in a byte. -/
def popCount8 (n : Nat) : Nat := ((List.range 8).filter fun b => n.testBit b).length

/-- The columns of the 64 data bits. -/
def hsiaoCols : List Nat :=
  ((List.range 256).filter fun n => popCount8 n = 3) ++ [0x1F, 0x2F, 0x37, 0x3B, 0x3D, 0x3E, 0x4F, 0x57]

/-- XOR of the columns of the data bits set. -/
def hsiaoFold : List Nat → Nat → Nat
  | [], _ => 0
  | c :: cs, d => (if d % 2 = 1 then c else 0) ^^^ hsiaoFold cs (d / 2)

/-- The check byte of 64 data bits. -/
def hsiaoCheck (d : Nat) : Nat := hsiaoFold hsiaoCols d

/-- What a read of a word finds. -/
inductive WordRead where
  | clean (d : Nat)
  | corrected (d : Nat)
  | bad
  deriving DecidableEq, Repr

/-- Decode a word and its check byte. -/
def hsiaoRead (d k : Nat) : WordRead :=
  let syn := (k ^^^ hsiaoCheck d) % 256
  if syn = 0 then .clean d
  else if popCount8 syn = 1 then .corrected d
  else
    match hsiaoCols.findIdx? (· = syn) with
    | some i => .corrected (d ^^^ 2 ^ i)
    | none => .bad

/-! ### Errors (R334, R335) -/

/-- The sources of MEM_UE_LOG. -/
def srcScrub : Nat := 0
def srcCache : Nat := 1
def srcDma : Nat := 2
def srcPeer : Nat := 3
def srcAssayer : Nat := 4
def srcPrecis : Nat := 5
def srcTable : Nat := 8
def srcOther : Nat := 9

/-- Count one corrected error of class x: total and leaky bucket. -/
def State.correctedErr (s : State) (x : Nat) : State :=
  let s1 := s.count F.MEM_CE_TOTAL_COUNT x
  let level := s1.getF F.MEM_CE_STATUS_LEVEL x + 1
  if max 1 (s1.getF F.MEM_CE_CTL_DEPTH x) < level then
    ((s1.setF F.MEM_CE_STATUS_LEVEL x 0).count F.MEM_CE_STATUS_OVERFLOWS x).raise E.MEM_CE_OVERFLOW 0
  else s1.setF F.MEM_CE_STATUS_LEVEL x level

/-- Report an uncorrectable error: class, poison, source, address. -/
def State.uncorrectable (s : State) (cls : Nat) (poison : Bool) (src addr : Nat) : State :=
  let s1 := if s.isSet F.MEM_UE_LOG_VALID 0 then s.count F.MEM_UE_LOG_COUNT 0
    else ((((s.setB F.MEM_UE_LOG_VALID 0 true).setF F.MEM_UE_LOG_CLASS 0 cls).setB F.MEM_UE_LOG_POISON 0 poison).setF
      F.MEM_UE_LOG_SOURCE 0 src).setF F.MEM_UE_ADDR_ADDR 0 addr
  s1.raise (if cls = 0 then E.MEM_SRAM_UE else E.MEM_DRAM_UE) 0

/-! ### Entries -/

/-- The offset of a register's instance in PF1 BAR0: the instance number is read as its indices, first index most
significant (R450). -/
def dimsOffset : List (Nat × Nat) → Nat → Nat
  | [], _ => 0
  | (_, stride) :: ds, i =>
    let size := (ds.map (·.1)).prod
    i / size * stride + dimsOffset ds (i % size)

/-- The address of instance i of a register. -/
def RegDef.addr (r : RegDef) (i : Nat) : Nat := r.base + dimsOffset r.dims i

/-- The number of instances of a register. -/
def RegDef.count (r : RegDef) : Nat := (r.dims.map (·.1)).prod

/-- The starting tap 7 of an equaliser resets to 1.0, every other tap to 0 (R191): the store holds a tap XOR that value. -/
def fieldFlip (f : Field) (i : Nat) : Nat := if f.id = F.CHN_EQ_START_TAP.id ∧ i % 15 = 7 then 0x4000 else 0

/-- The bits of a register instance that its stored fields give. -/
def State.storedBits (s : State) (r : RegDef) (i : Nat) : Nat :=
  r.fields.foldl (fun w f => w + (s.getF f.fld i ^^^ fieldFlip f.fld i) * 2 ^ f.lo) 0

/-- Store the fields of a register instance that may be written (every field when `all`). -/
def State.storeBits (s : State) (r : RegDef) (i w : Nat) (all : Bool) : State :=
  r.fields.foldl (fun t f =>
    if all || f.acc = .rw then t.setF f.fld i (w / 2 ^ f.lo % 2 ^ (f.hi - f.lo + 1) ^^^ fieldFlip f.fld i) else t) s

/-- The check byte stored with an entry, where it is not the computed one. -/
def State.oddCheck (s : State) (a : Nat) : Option Nat := (s.mem.badChk.find? fun c => c.1 = a).map (·.2)

/-- Forget an entry's odd check byte: the entry is written with the computed one. -/
def State.goodCheck (s : State) (a : Nat) : State :=
  { s with mem := { s.mem with badChk := s.mem.badChk.filter fun c => c.1 ≠ a } }

/-- Insert an odd check byte at its place. -/
def insertChk (a k : Nat) : List (Nat × Nat) → List (Nat × Nat)
  | [] => [(a, k)]
  | c :: cs => if a < c.1 then (a, k) :: c :: cs else c :: insertChk a k cs

/-- Write a whole entry with the computed check byte. -/
def State.putEntry (s : State) (r : RegDef) (i w : Nat) : State := (s.storeBits r i w true).goodCheck (r.addr i)

/-- A functional read of a table entry: a correction is written back and counted, an uncorrectable error is reported and
answers none (R328, R334, R335).
DEDUCED, unsafe: log 38. -/
def State.readEntry (s : State) (r : RegDef) (i : Nat) : State × Option Nat :=
  let w := s.storedBits r i
  if s.mem.badChk.isEmpty then (s, some w)
  else
    match s.oddCheck (r.addr i) with
    | none => (s, some w)
    | some k =>
      match hsiaoRead w k with
      | .clean d => (s, some d)
      | .corrected d => ((s.putEntry r i d).correctedErr 0, some d)
      | .bad => (s.uncorrectable 0 false srcTable (Config.sramWord (r.addr i)), none)

/-- A functional read whose bad entry has a free value, the spec stating none. -/
def State.readEntryFree (s : State) (r : RegDef) (i : Nat) : State × Nat :=
  match s.readEntry r i with
  | (t, some w) => (t, w)
  | (t, none) => (t.bump, Config.badEntry (r.addr i) t.free)

/-- A functional read of one field of an entry. -/
def State.readField (s : State) (r : RegDef) (i : Nat) (f : FieldAt) : State × Nat :=
  let x := s.readEntryFree r i
  (x.1, x.2 / 2 ^ f.lo % 2 ^ (f.hi - f.lo + 1))

/-! ### Entry windows and narrow writes (R331, R456) -/

/-- The registers of 64-bit entries. -/
def tableRegs : List RegDef :=
  [R.CLR_COEF, R.CLR_COEF_LIVE, R.LRN_ENTRY, R.LRN_SCALE, R.CHN_ZONE, R.CHN_EQ_START, R.WRP_POWER, R.WRP_SPARE]

/-- The instance that an offset from instance 0 names, when it is the first byte of one. -/
def instanceAt : List (Nat × Nat) → Nat → Option Nat
  | [], o => if o = 0 then some 0 else none
  | (c, stride) :: ds, o =>
    if o / stride < c then (instanceAt ds (o % stride)).map fun i => o / stride * (ds.map (·.1)).prod + i else none

/-- The instance of a register at an address. -/
def RegDef.at? (r : RegDef) (a : Nat) : Option Nat := if r.base ≤ a then instanceAt r.dims (a - r.base) else none

/-- The register and instance at an address, in a list of registers. -/
def locateIn : List RegDef → Nat → Option (RegDef × Nat)
  | [], _ => none
  | r :: rs, a => match r.at? a with | some i => some (r, i) | none => locateIn rs a

/-- The table entry at an address. -/
def tableEntry (a : Nat) : Option (RegDef × Nat) := locateIn tableRegs a

/-- Raise an event of some heads. -/
def State.raiseHeads (s : State) (e : Event) (p : Nat → Bool) : State :=
  s.forEach ((List.range 32).filter p) fun t h => t.raise e h

/-- The owning block's CFG_REJECT of a rejected entry write (R105, R144, R145, R219, R275); the scale table belongs to every
head.
DEDUCED, unsafe: log 40. -/
def State.tableReject (s : State) (r : RegDef) (i : Nat) : State :=
  if r = R.CLR_COEF ∨ r = R.CLR_COEF_LIVE then s.raise E.CLR_CFG_REJECT (i / 185)
  else if r = R.LRN_ENTRY then s.raise E.LRN_CFG_REJECT (i / 2048)
  else if r = R.LRN_SCALE then s.raiseHeads E.LRN_CFG_REJECT fun _ => true
  else if r = R.CHN_ZONE then s.raiseChn E.CHN_CFG_REJECT (i / 384)
  else if r = R.CHN_EQ_START then s.raiseChn E.CHN_CFG_REJECT (i / 360)
  else s.raise E.WRP_CFG_REJECT 0

/-- Log a rejected or discarded write (R331, R332): kind and address. -/
def State.logReject (s : State) (kind a : Nat) : State :=
  ((s.setF F.MEM_PWD_LOG_KIND 0 kind).count F.MEM_PWD_LOG_COUNT 0).setF F.MEM_PWD_ADDR_ADDR 0 a

/-- A narrow write to the entry at an address: rejected, the entry untouched. -/
def State.narrow (s : State) (a : Nat) : State :=
  let s1 := (s.logReject 1 a).raise E.MEM_NARROW_REJECT 0
  match tableEntry a with
  | some (r, i) => s1.tableReject r i
  | none => s1

/-- The held low word, when there is one, is a narrow write: another write of PF1 followed it, or 1 us passed. -/
def State.flushAsm (s : State) : State :=
  match s.mem.asm with
  | none => s
  | some p => ({ s with mem := { s.mem with asm := none } }).narrow p.1

/-- A meaning that is a write of PF1's register path: a low word held before it is a narrow write (R331). While PF1's memory
space is not served no write reaches a register. -/
def doneW (s : State) (f : State → State) : Out := done s fun t => if t.pf1Served then f t.flushAsm else t

end Sys2Proof.Machine
end

