-- ==== Sys2Proof/Machine/Dram.lean ====
section
/-!
DEFINITION. Memory: the canonical list of bytes and its operations; DRAM lines with the RS(10,8) line code (R324 to R327), reads
that correct and report (R334, R335).
-/
namespace Sys2Proof.Machine

/-! ### Bytes -/

/-- What an unlisted address reads as.
DESIGN CHOICE, unsafe: log 6. -/
def emptyByte : BitVec 8 := 0

/-- The byte at an address. -/
def memGet : List Host.Cell → Nat → BitVec 8
  | [], _ => emptyByte
  | c :: cs, a => if c.1 = a then c.2 else memGet cs a

/-- Insert a cell at its place, in the place of one at the same address. -/
def memInsert (c : Host.Cell) : List Host.Cell → List Host.Cell
  | [] => [c]
  | d :: ds => if c.1 < d.1 then c :: d :: ds else if c.1 = d.1 then c :: ds else d :: memInsert c ds

/-- Write a byte; the value of an unlisted address is not listed. -/
def memSet (m : List Host.Cell) (a : Nat) (b : BitVec 8) : List Host.Cell :=
  if b = emptyByte then m.filter fun c => c.1 ≠ a else memInsert (a, b) m

/-- Addresses rise strictly. -/
def cellsRise : List Host.Cell → Bool
  | [] => true
  | [_] => true
  | c :: d :: ds => decide (c.1 < d.1) && cellsRise (d :: ds)

/-- The canonical form of a memory: rising addresses, no entry equal to what an unlisted address reads as. -/
def Memory.wf (m : List Host.Cell) : Bool := cellsRise m && m.all fun c => c.2 != emptyByte

/-- The n bytes from an address. -/
def memRead (m : List Host.Cell) (a n : Nat) : List Nat := (List.range n).map fun k => (memGet m (a + k)).toNat

/-- Write bytes from an address. -/
def memWrite (m : List Host.Cell) (a : Nat) : List Nat → List Host.Cell
  | [] => m
  | b :: bs => memWrite (memSet m a (BitVec.ofNat 8 b)) (a + 1) bs

/-! ### GF(2^8), field polynomial x^8 + x^4 + x^3 + x^2 + 1 (R325) -/

/-- Multiply by alpha. -/
def g8Double (a : Nat) : Nat := if 128 ≤ a then (2 * a) ^^^ 0x11D else 2 * a

/-- Multiply, over n bits of b. -/
def g8MulN : Nat → Nat → Nat → Nat
  | 0, _, _ => 0
  | n + 1, a, b => (if b % 2 = 1 then a else 0) ^^^ g8MulN n (g8Double a) (b / 2)

/-- Multiply. -/
def g8Mul (a b : Nat) : Nat := g8MulN 8 a b

/-- alpha to the power k. -/
def g8Alpha : Nat → Nat
  | 0 => 1
  | k + 1 => g8Double (g8Alpha k)

/-! ### The line code (R325 to R327) -/

/-- XOR of a list. -/
def xorAll (l : List Nat) : Nat := l.foldl (· ^^^ ·) 0

/-- The check symbols c_8 and c_9 of eight data symbols: S0 = S1 = 0. The inverse of alpha + 1 is 0xF4. -/
def lineChecks (c : List Nat) : Nat × Nat :=
  let t0 := xorAll c
  let t1 := xorAll (c.mapIdx fun m x => g8Mul x (g8Alpha (9 - m)))
  let c8 := g8Mul (t0 ^^^ t1) 0xF4
  (c8, t0 ^^^ c8)

/-- The data symbols of codeword j of a line. -/
def codeword (data : List Nat) (j : Nat) : List Nat := (data.drop (8 * j)).take 8

/-- The 16 check bytes of a line: bytes 2 j and 2 j + 1 are c_8 and c_9 of codeword j.
DEDUCED, unsafe: log 37. -/
def lineCheckBytes (data : List Nat) : List Nat :=
  (List.range 8).flatMap fun j => let p := lineChecks (codeword data j); [p.1, p.2]

/-- The syndromes of a codeword whose check symbols differ from the right ones by x8 and x9. -/
def syndromes (x8 x9 : Nat) : Nat × Nat := (x8 ^^^ x9, g8Double x8 ^^^ x9)

/-- What the decode of a line finds (R326, R327): codewords in error; the device and its error in each codeword. -/
inductive LineRead where
  | clean
  | correctable (device cws : Nat) (errs : List Nat)
  | bad (poison : Bool) (cws : Nat)
  deriving DecidableEq, Repr

/-- The line carries the poison pattern (R327). -/
def LineRead.poisoned : LineRead → Bool
  | .bad p _ => p
  | _ => false

/-- The device that the syndromes of a codeword point at. -/
def faultyDevice (s0 s1 : Nat) : Option Nat :=
  if s0 = 0 ∨ s1 = 0 then none else (List.range 10).find? fun m => g8Mul s0 (g8Alpha (9 - m)) = s1

/-- Decode a line from the differences of its check bytes. -/
def lineDecode (diff : List Nat) : LineRead :=
  let syn := (List.range 8).map fun j => syndromes (diff.getD (2 * j) 0) (diff.getD (2 * j + 1) 0)
  let wrong := syn.filter fun p => p ≠ (0, 0)
  if wrong.isEmpty then .clean
  else
    let dev := faultyDevice (wrong.headD (0, 0)).1 (wrong.headD (0, 0)).2
    match dev with
    | some m =>
      if wrong.all fun p => faultyDevice p.1 p.2 = some m then .correctable m wrong.length (syn.map (·.1))
      else .bad (syn.all fun p => p = (0, 0x1C)) wrong.length
    | none => .bad (syn.all fun p => p = (0, 0x1C)) wrong.length

/-! ### Lines (R324, R330) -/

/-- The lines of the installed DRAM (R323): 2^24 to the GiB. -/
def State.dramLines (s : State) : Nat := s.getF F.MEM_STATUS_GIB 0 * 2 ^ 24

/-- The 64 bytes of a line as they stand in DRAM. -/
def State.lineData (s : State) (n : Nat) : List Nat := memRead s.mem.dram (64 * n) 64

/-- The differences of a line's 16 check bytes from the right ones. -/
def State.lineDiff (s : State) (n : Nat) : List Nat := memRead s.mem.chk (16 * n) 16

/-- Write a line and the differences of its check bytes. -/
def State.putBurst (s : State) (n : Nat) (data diff : List Nat) : State :=
  { s with mem := { s.mem with dram := memWrite s.mem.dram (64 * n) data, chk := memWrite s.mem.chk (16 * n) diff } }

/-- Write a line with the right check bytes. -/
def State.putLine (s : State) (n : Nat) (data : List Nat) : State := s.putBurst n data (List.replicate 16 0)

/-- Write a line with the poison pattern (R327). -/
def State.putPoison (s : State) (n : Nat) (data : List Nat) : State := s.putBurst n data (List.replicate 16 0xFF)

/-- The data of a line after correction. -/
def fixLine (data : List Nat) (device : Nat) (errs : List Nat) : List Nat :=
  if 8 ≤ device then data else data.mapIdx fun k b => if k % 8 = device then b ^^^ errs.getD (k / 8) 0 else b

/-- A functional read of a line by an agent: its data, none when it is uncorrectable; corrections are counted, uncorrectable
errors reported (R334, R335).
DEDUCED, unsafe: log 38. -/
def State.readLine (s : State) (src n : Nat) : State × Option (List Nat) :=
  match lineDecode (s.lineDiff n) with
  | .clean => (s, some (s.lineData n))
  | .correctable m _ es => (s.correctedErr 1, some (fixLine (s.lineData n) m es))
  | .bad p _ => (s.uncorrectable 1 p src n, none)

end Sys2Proof.Machine
end

