-- ==== Sys2Proof/Machine/Cache.lean ====
section
/-!
DEFINITION. The lode cache's lines (R340 to R343): lookup, write-back, eviction, the choice of a victim, fills, and the accesses of the
device's own agents.
-/
namespace Sys2Proof.Machine

/-! ### Lines -/

/-- The line number of a cache line (R340): tag and set. -/
def CacheLine.number (l : CacheLine) : Nat := l.tag * 8192 + l.set

/-- Change the cache. -/
def State.updLca (s : State) (f : LcaS → LcaS) : State := { s with mem := { s.mem with lca := f s.mem.lca } }

/-- The valid lines. -/
def State.cache (s : State) : List CacheLine := s.mem.lca.lines

/-- Set the valid lines. -/
def State.setCache (s : State) (l : List CacheLine) : State := s.updLca fun x => { x with lines := l }

/-- The order of the lines: by way, then by set. -/
def CacheLine.before (a b : CacheLine) : Bool := decide (a.way < b.way) || (a.way == b.way && decide (a.set < b.set))

/-- Insert a line at its place. -/
def cacheInsert (x : CacheLine) : List CacheLine → List CacheLine
  | [] => [x]
  | y :: ys => if x.before y then x :: y :: ys else y :: cacheInsert x ys

/-- The cache is in order: one line at a place. -/
def cacheRises : List CacheLine → Bool
  | [] => true
  | [_] => true
  | x :: y :: ys => x.before y && cacheRises (y :: ys)

/-- The valid line at a way and set. -/
def State.lineAt (s : State) (w set : Nat) : Option CacheLine := s.cache.find? fun l => l.way = w ∧ l.set = set

/-- The valid line of a line number. -/
def State.cached (s : State) (n : Nat) : Option CacheLine := s.cache.find? fun l => l.number = n

/-- Remove the line at a way and set. -/
def State.dropLine (s : State) (w set : Nat) : State := s.setCache (s.cache.filter fun l => ¬ (l.way = w ∧ l.set = set))

/-- Put a line at its place. -/
def State.installLine (s : State) (l : CacheLine) : State :=
  let t := s.dropLine l.way l.set
  t.setCache (cacheInsert l t.cache)

/-- Write a dirty line back: with the poison pattern when its data is uncorrectable (R343). -/
def State.writeBack (s : State) (l : CacheLine) (x : CacheErr) : State :=
  if !l.dirty then s
  else if x.data.contains (l.way, l.set) then (s.putPoison l.number l.data).raise E.LCA_POISON_WB 0
  else s.putLine l.number l.data

/-- Clean a line: written back when dirty, then clean. -/
def State.cleanLine (s : State) (l : CacheLine) (x : CacheErr) : State := (s.writeBack l x).installLine { l with dirty := false }

/-- Clean and invalidate a line. -/
def State.evict (s : State) (l : CacheLine) (x : CacheErr) : State := (s.writeBack l x).dropLine l.way l.set

/-! ### Ways (R340, R344) -/

def State.wayOn (s : State) (w : Nat) : Bool := s.bitF F.LCA_WAY_STATUS_ON 0 w
def State.wayOffAsked (s : State) (w : Nat) : Bool := s.bitF F.LCA_WAY_CTL_OFF 0 w
def State.wayLocked (s : State) (w : Nat) : Bool := s.bitF F.LCA_WAY_CTL_LOCK 0 w
def State.ways (s : State) : Nat := s.getF F.LCA_WAY_STATUS_WAYS 0

/-! ### Victims and fills (R342, R343) -/

/-- The ways a fill may use: powered, active and not locked, lowest first. -/
def State.fillWays (s : State) : List Nat := (List.range 16).filter fun w => s.wayOn w && decide (w < s.ways) && !s.wayLocked w

/-- The largest age among some ways of a set. -/
def State.oldest (s : State) (ws : List Nat) (set : Nat) : Nat :=
  ws.foldl (fun m w => match s.lineAt w set with | some l => max m l.age | none => m) 0

/-- Every line of some ways of a set ages until one of them has age 3. -/
def State.ageSet (s : State) (ws : List Nat) (set : Nat) : State :=
  let k := 3 - s.oldest ws set
  s.forEach ws fun t w => match t.lineAt w set with | some l => t.installLine { l with age := l.age + k } | none => t

/-- Choose the victim of a fill and evict it: the lowest invalid way, else the lowest way with age 3 after ageing; no way answers
none (R342). An error in the victim's data comes only with the rows that carry it.
DESIGN CHOICE, unsafe: log 42. -/
def State.makeVictim (s : State) (set : Nat) : State × Option Nat :=
  let ws := s.fillWays
  match ws.find? fun w => (s.lineAt w set).isNone with
  | some w => (s, some w)
  | none =>
    let t := s.ageSet ws set
    match ws.find? fun w => (t.lineAt w set).any fun l => l.age == 3 with
    | some w => ((match t.lineAt w set with | some l => t.evict l {} | none => t), some w)
    | none => (s, none)

/-! ### Accesses of agents (R341) -/

/-- A lookup that hits sets the line's age to 0. -/
def State.hit (s : State) (l : CacheLine) : State := (s.count F.LCA_HITS_COUNT 0).installLine { l with age := 0 }

/-- A whole line written as stream: a hit makes it an ordinary line, a miss fills a way with age 3, and a set without a way to fill
is passed by. A line beyond the installed DRAM is not written.
DESIGN CHOICE, unsafe: log 110. -/
def State.streamPut (s : State) (n : Nat) (data : List Nat) : State :=
  if s.dramLines ≤ n then s
  else
    match s.cached n with
    | some l => s.hit { l with data := data, dirty := true }
    | none =>
      match (s.count F.LCA_MISSES_COUNT 0).makeVictim (n % 8192) with
      | (t, some w) => t.installLine { way := w, set := n % 8192, tag := n / 8192, dirty := true, age := 3, data := data }
      | (t, none) => t.putLine n data

/-- A line read without allocation: false when it is uncorrectable. -/
def State.readPast (s : State) (src n : Nat) : State × Bool :=
  match s.cached n with
  | some l => (s.hit l, true)
  | none =>
    let r := (s.count F.LCA_MISSES_COUNT 0).readLine src n
    (r.1, r.2.isSome)

/-- Read k lines from line n without allocation; false when one of them is uncorrectable. -/
def State.readRun (s : State) (src n : Nat) : Nat → State × Bool
  | 0 => (s, true)
  | k + 1 =>
    let p := s.readRun src n k
    let q := p.1.readPast src (n + k)
    (q.1, p.2 && q.2)

/-- Write consecutive lines from line n, 64 bytes each, as stream. -/
def State.streamRun (s : State) (n : Nat) : List (List Nat) → State
  | [] => s
  | d :: ds => (s.streamPut n d).streamRun (n + 1) ds

/-- Write consecutive lines past the cache (R341): tailings entries. -/
def State.putRun (s : State) (n : Nat) : List (List Nat) → State
  | [] => s
  | d :: ds => (if s.dramLines ≤ n then s else s.putLine n d).putRun (n + 1) ds

/-- Bytes cut into lines. -/
def toLines : Nat → List Nat → List (List Nat)
  | 0, _ => []
  | k + 1, l => l.take 64 :: toLines k (l.drop 64)

/-- The first line of a run that DRAM cannot give, cached lines apart when `held`. -/
def State.badLine (s : State) (held : Bool) (n k : Nat) : Option Nat :=
  if s.mem.chk.isEmpty then none
  else ((List.range k).map (n + ·)).find? fun a =>
    !(held && (s.cached a).isSome) && (match lineDecode (s.lineDiff a) with | .bad _ _ => true | _ => false)

end Sys2Proof.Machine
end

