-- ==== Sys2Proof/Machine/Engine.lean ====
section
/-!
DEFINITION. The command engine's shared operations (13): status codes, submission entries, arbitration, outstanding requests,
completion entries and their signals, LTR (R289). The meanings of the HQI commands are in HqiCmds.lean.
-/
namespace Sys2Proof.Machine

/-! ### Lookups -/

/-- A queue pair's state. -/
def State.pair (s : State) (q : Nat) : PairS := vget s.hqi.pairs {} q

/-- Write a queue pair's state. -/
def State.setPair (s : State) (q : Nat) (p : PairS) : State :=
  { s with hqi := { s.hqi with pairs := vset s.hqi.pairs q p } }

/-- The command at an arbitration position. -/
def State.cmd? (s : State) (pos : Nat) : Option Cmd := s.hqi.cmds.find? fun c => c.pos = pos

/-- Write the list of commands. -/
def State.setCmds (s : State) (l : List Cmd) : State := { s with hqi := { s.hqi with cmds := l } }

/-- Change the command at a position. -/
def State.updCmd (s : State) (pos : Nat) (f : Cmd → Cmd) : State :=
  s.setCmds (s.hqi.cmds.map fun c => if c.pos = pos then f c else c)

/-- A volume. -/
def State.vol (s : State) (v : Nat) : VolS := vget s.vols {} v

/-- Write a volume. -/
def State.setVol (s : State) (v : Nat) (x : VolS) : State := { s with vols := vset s.vols v x }

/-- A seam. -/
def State.seam (s : State) (v n : Nat) : SeamS := vget (s.vol v).seams {} n

/-- Write a seam. -/
def State.setSeam (s : State) (v n : Nat) (x : SeamS) : State :=
  s.setVol v { s.vol v with seams := vset (s.vol v).seams n x }

/-- The instance of WRP_SEAM[v][n]. -/
def seamIdx (v n : Nat) : Nat := 64 * v + n

/-- A, the accepted lodes of a seam (R250). -/
def State.seamA (s : State) (v n : Nat) : Nat := s.getF F.WRP_SEAM_LODES (seamIdx v n)

/-- Deck states (R185). -/
def dkEMPTY : Nat := 0
def dkLOADED : Nat := 1
def dkSPINUP : Nat := 2
def dkREADY : Nat := 3
def dkBRAKING : Nat := 4
def dkFAULT : Nat := 5

/-- The state of deck d. -/
def State.deck (s : State) (d : Nat) : Nat := s.getF F.WND_STATUS_STATE d

/-! ### LTR (R289) -/

/-- A command is outstanding or a deck spins (R289). -/
def State.hostActive (s : State) : Bool :=
  !s.hqi.cmds.isEmpty ||
  (List.range 8).any fun d => s.deck d = dkSPINUP || s.deck d = dkREADY || s.deck d = dkBRAKING

/-- Send the LTR message when active or idle has changed (R289). -/
def State.ltrUpdate (s : State) : State :=
  let a := s.hostActive
  if a = s.hif.ltrActive then s
  else
    let s1 := { s with hif := { s.hif with ltrActive := a } }
    if s.hif.pf0.ltrEn && s.isSet F.HIF_LINK_DL_ACTIVE 0 then
      s1.emit (.ltr (if a then s.getF F.HIF_LTR_ACTIVE 0 else s.getF F.HIF_LTR_IDLE 0))
    else s1

/-! ### Status codes (R321): (SCT, SC) -/

abbrev Status := Nat × Nat
def stSuccess : Status := (0, 0)
def stInvalidOpcode : Status := (0, 1)
def stInvalidField : Status := (0, 2)
def stInvalidLba : Status := (0, 3)
def stNotMounted : Status := (0, 4)
def stAbortedByRequest : Status := (0, 5)
def stAbortedByReset : Status := (0, 6)
def stContained : Status := (0, 7)
def stHostTransfer : Status := (0, 8)
def stVolumeRemoved : Status := (0, 9)
def stAlreadyWritten : Status := (1, 1)
def stNotAtPointer : Status := (1, 2)
def stSeamSealed : Status := (1, 3)
def stSparesExhausted : Status := (1, 4)
def stSeamFull : Status := (1, 5)
def stSelfTestBusy : Status := (1, 6)
def stPieceRejected : Status := (1, 7)
def stArmRefused : Status := (1, 8)
def stNoSuchRecord : Status := (1, 9)
def stCatalogueFull : Status := (1, 10)
def stUnrecovered : Status := (2, 1)
def stUnwritten : Status := (2, 2)
def stSideUnavailable : Status := (2, 3)
def stVolumeUnavailable : Status := (2, 4)
def stVolumeUnreadable : Status := (2, 5)
def stNoDisc : Status := (2, 6)

/-! ### Ending commands -/

/-- Give a command its status and result, once (R321). -/
def Cmd.finish (c : Cmd) (st : Status) (res : Nat) : Cmd :=
  if c.stage = .done then c else { c with stage := .done, sct := st.1, sc := st.2, result := res }

/-- End the command at a position. -/
def State.finish (s : State) (pos : Nat) (st : Status) (res : Nat) : State := s.updCmd pos fun c => c.finish st res

/-- End every command that a test selects. -/
def State.finishAll (s : State) (p : Cmd → Bool) (st : Status) : State :=
  s.setCmds (s.hqi.cmds.map fun c => if p c then c.finish st 0 else c)

/-! ### Queue pairs (R299 to R302) -/

/-- Ring size of a pair. -/
def State.ringSize (s : State) (q : Nat) : Nat := s.getF F.HQI_QP_CTL_SIZE q + 1

/-- The pair operates (R300). -/
def State.pairOn (s : State) (q : Nat) : Bool :=
  s.isSet F.HQI_CSTS_RDY 0 && s.isSet F.HQI_QP_CTL_EN q && s.isSet F.HQI_QP_STATUS_ENABLED q

/-- The arbitration class of a pair: pair 0 is always urgent (R307). -/
def State.pairClass (s : State) (q : Nat) : Nat := if q = 0 then 0 else s.getF F.HQI_QP_CTL_CLASS q

/-- The queue base addresses (R299). -/
def State.sqBase (s : State) (q : Nat) : Nat :=
  s.getF F.HQI_SQ_BASE_HI_ADDR_HI q * 2 ^ 32 + s.getF F.HQI_SQ_BASE_LO_ADDR_LO q * 4096
def State.cqBase (s : State) (q : Nat) : Nat :=
  s.getF F.HQI_CQ_BASE_HI_ADDR_HI q * 2 ^ 32 + s.getF F.HQI_CQ_BASE_LO_ADDR_LO q * 4096

/-- Record a queue error; the first cause stands (R302). -/
def State.queueErr (s : State) (q cause : Nat) : State :=
  if s.isSet F.HQI_QP_STATUS_ERR q then s
  else ((s.setB F.HQI_QP_STATUS_ERR q true).setF F.HQI_QP_STATUS_CAUSE q cause).raise E.HQI_QUEUE_ERR 0

/-- A command of pair q is in the engine. -/
def State.pairBusy (s : State) (q : Nat) : Bool := s.hqi.cmds.any fun c => c.q = q

/-- A fetch of pair q is outstanding. -/
def State.fetchBusy (s : State) (q : Nat) : Bool :=
  s.hif.reqs.any fun r => match r.kind with | .sqFetch p _ => p = q && !r.drop | _ => false

/-- Entries selected whose fetch is outstanding. -/
def State.fetches (s : State) : Nat :=
  (s.hif.reqs.filter fun r => match r.kind with | .sqFetch _ _ => !r.drop | _ => false).length

/-- ENABLED clears when EN is clear and the last fetched command has been posted (R300). -/
def State.pairQuiesce (s : State) (q : Nat) : State :=
  if s.isSet F.HQI_QP_CTL_EN q || s.pairBusy q || s.fetchBusy q then s
  else ((s.setB F.HQI_QP_STATUS_ENABLED q false).setB F.HQI_QP_STATUS_ERR q false).setF F.HQI_QP_STATUS_CAUSE q 0

/-! ### Outstanding requests (R283 to R286) -/

/-- Send the requests that wait, while fewer than 512 are outstanding (R276): the list after it, and what is sent. -/
def pumpReqs (now : Nat) : Nat → List OutReq → List OutReq × List OutReq
  | _, [] => ([], [])
  | room, r :: rs =>
    if r.sent || room = 0 then
      let p := pumpReqs now room rs
      (r :: p.1, p.2)
    else
      let p := pumpReqs now (room - 1) rs
      ({ r with sent := true, since := now } :: p.1, r :: p.2)

/-- Send the requests that may be sent now (R276, R295, R297). -/
def State.pump (s : State) : State :=
  if !s.mayIssue 0 then s
  else
    let p := pumpReqs s.tick (512 - (s.hif.reqs.filter (·.sent)).length) s.hif.reqs
    ({ s with hif := { s.hif with reqs := p.1 } }).forEach p.2 fun t r => t.emit (.readReq r.tag r.addr r.len)

/-- Make a memory read request. -/
def State.request (s : State) (k : ReqKind) (addr len : Nat) : State :=
  let t := s.hif.nextTag
  let r : OutReq := { tag := t, kind := k, addr := addr, len := len }
  ({ s with hif := { s.hif with reqs := s.hif.reqs ++ [r], nextTag := t + 1 } }).pump

/-- Retire a request; others may be sent. -/
def State.retire (s : State) (tag : Nat) : State :=
  ({ s with hif := { s.hif with reqs := s.hif.reqs.filter fun r => r.tag ≠ tag } }).pump

/-- Add an AER cause of a function. -/
def State.aer (s : State) (fn : Nat) (a : Aer) : State :=
  let p := s.pf fn
  if p.aer.contains a then s else s.setPf fn { p with aer := p.aer ++ [a] }

/-! ### Submission entries (R303, R308, R309) -/

/-- A command's fields from the 64 bytes of its entry. -/
def parseSqe (pos q : Nat) (b : List Nat) : Cmd :=
  { pos := pos, q := q, opc := b.getD 0 0 % 256, cid := ofLeBytes ((b.drop 2).take 2), vol := b.getD 4 0 % 256,
    lba := ofLeBytes ((b.drop 8).take 8), nblk := ofLeBytes ((b.drop 16).take 4),
    dptr1 := ofLeBytes ((b.drop 24).take 8), dptr2 := ofLeBytes ((b.drop 32).take 8),
    csf := (b.drop 40).take 24 }

/-- The opcode exists and may be used on the queue (R308). -/
def opcodeOk (opc q : Nat) : Bool :=
  opc = 0x13 || (q = 0 && 1 ≤ opc && opc ≤ 0x0B) || (q ≠ 0 && (opc = 0x10 || opc = 0x11 || opc = 0x12 || opc = 0x14))

/-- Fields a command uses (R309): VOL, LBA, NBLK, number of host pages, number of leading CSF bytes used and the offset of a
further used range. -/
structure UseRow where
  vol : Bool := false
  lba : Bool := false
  nblk : Bool := false
  dptr : Bool := false
  csf : List Nat := []

/-- The used fields of an opcode; CSF bytes count from entry byte 40 (R309). -/
def useRow (opc : Nat) (csf0 : Nat) : UseRow :=
  match opc with
  | 0x01 => { vol := csf0 = 1, dptr := true, csf := [0] }
  | 0x02 => { vol := csf0 = 2, nblk := true, dptr := true, csf := [0, 4, 5, 6, 7] }
  | 0x03 => { vol := csf0 = 2, csf := [0, 4, 5, 6, 7, 8, 9, 10, 11] }
  | 0x04 => { vol := csf0 = 2, csf := [0] }
  | 0x05 => { csf := [0, 1, 2, 3] }
  | 0x06 => { vol := true, csf := [0] }
  | 0x07 => { nblk := true, dptr := true, csf := [0, 1, 2, 3] }
  | 0x08 => { csf := [0, 1, 2, 3, 4, 5, 6, 7] }
  | 0x09 => { dptr := true, csf := [0, 1, 2, 3, 4] }
  | 0x0A => { vol := true, csf := [0] }
  | 0x0B => { vol := true }
  | 0x10 => { vol := true, lba := true, nblk := true, dptr := true }
  | 0x11 => { vol := true, nblk := true, dptr := true, csf := [0] }
  | 0x12 => { vol := true, lba := true, nblk := true, dptr := true }
  | 0x14 => { vol := true, csf := [0] }
  | _ => {}

/-- Host pages a command transfers (R304, R309). -/
def Cmd.npages (c : Cmd) : Nat :=
  let u := useRow c.opc (c.csf.getD 0 0)
  if !u.dptr then 0 else if u.nblk then c.nblk else 1

/-- The reserved parts of the entry are 0, NBLK is in range and the page addresses are aligned (R303, R304, R309). -/
def fieldsOk (c : Cmd) (b : List Nat) : Bool :=
  let u := useRow c.opc (c.csf.getD 0 0)
  let n := c.npages
  b.getD 1 0 = 0 && b.getD 5 0 = 0 && b.getD 6 0 = 0 && b.getD 7 0 = 0 && ((b.drop 20).take 4).all (· = 0) &&
  (if u.vol then c.vol < 8 else c.vol = 0) && (u.lba || c.lba = 0) &&
  (if u.nblk then 1 ≤ c.nblk && c.nblk ≤ 1024 else c.nblk = 0) &&
  (if n = 0 then c.dptr1 = 0 && c.dptr2 = 0 else c.dptr1 % 4096 = 0 && (if n = 1 then c.dptr2 = 0 else c.dptr2 % 4096 = 0)) &&
  ((List.range 24).all fun k => u.csf.contains k || c.csf.getD k 0 = 0)

/-- Values that a command's own bytes may take: CNS, PAGE, FID, CODE, SEAM, START, number of records (R309 to R313, R373). -/
def valuesOk (c : Cmd) : Bool :=
  let k := c.csf.getD 0 0
  match c.opc with
  | 0x01 => decide (k ≤ 1)
  | 0x02 => decide (1 ≤ k ∧ k ≤ 5)
  | 0x03 => decide (1 ≤ k ∧ k ≤ 3)
  | 0x04 => decide (1 ≤ k ∧ k ≤ 3)
  | 0x06 => k == 1 || k == 2 || k == 15
  | 0x07 => c.nblk == 1
  | 0x09 => decide (1 ≤ c.csf.getD 4 0 ∧ c.csf.getD 4 0 ≤ 16)
  | 0x0A => decide (k ≤ 1)
  | 0x11 => decide (k < 64)
  | 0x14 => decide (k < 64)
  | _ => true

/-- The number a run of CSF bytes spells, from entry byte 40 + k. -/
def Cmd.csfNum (c : Cmd) (k n : Nat) : Nat := ofLeBytes ((c.csf.drop k).take n)

/-- Take a fetched entry into the command engine at its arbitration position (R307, R308). -/
def State.takeEntry (s : State) (pos q : Nat) (b : List Nat) : State :=
  let c := parseSqe pos q b
  let c2 := if !opcodeOk c.opc q then c.finish stInvalidOpcode 0
    else if !fieldsOk c b || !valuesOk c then c.finish stInvalidField 0 else c
  let older := s.hqi.cmds.filter fun x => x.pos < pos
  let newer := s.hqi.cmds.filter fun x => pos ≤ x.pos
  (s.setCmds (older ++ c2 :: newer)).ltrUpdate

/-- The command whose turn it is to take effect: the first in arbitration order that has not begun (R307, R317). A fetch
outstanding at a lower position holds it.
DEDUCED, unsafe: log 20. -/
def State.nextTaken (s : State) : Option Cmd :=
  match s.hqi.cmds.find? fun c => c.stage = .taken with
  | none => none
  | some c =>
    if s.hif.reqs.any fun r => match r.kind with | .sqFetch _ p => p < c.pos | _ => false then none else some c

/-! ### Page lists (R304) -/

/-- Begin a transfer: the pages DPTR1 and DPTR2 give, and the first list page's request when there are more. -/
def State.beginPages (s : State) (pos : Nat) : State :=
  match s.cmd? pos with
  | none => s
  | some c =>
    let n := c.npages
    if n ≤ 1 then s.updCmd pos fun c => { c with pages := if n = 0 then [] else [c.dptr1], pagesOk := true }
    else if n = 2 then s.updCmd pos fun c => { c with pages := [c.dptr1, c.dptr2], pagesOk := true }
    else
      (s.updCmd pos fun c => { c with pages := [c.dptr1], listAt := some c.dptr2 }).request (.listPage pos) c.dptr2
        (8 * min 512 (n - 1))

/-- Eight-byte entries of a list page. -/
def listEntries : Nat → List Nat → List Nat
  | 0, _ => []
  | n + 1, b => ofLeBytes (b.take 8) :: listEntries n (b.drop 8)

/-- A list page has arrived: its page addresses, and the next list page's when more than 512 remained; an unaligned address
answers none (R304). -/
def Cmd.addList (c : Cmd) (b : List Nat) : Option Cmd :=
  let left := c.npages - c.pages.length
  let n := min 512 left
  let es := listEntries n b
  if es.any fun a => a % 4096 ≠ 0 then none
  else if left > 512 then some { c with pages := c.pages ++ es.take 511, listAt := some (es.getD 511 0) }
  else some { c with pages := c.pages ++ es, listAt := none, pagesOk := true }

/-! ### Arbitration (R307) -/

/-- An SQ from which an entry may be selected. -/
def State.sqReady (s : State) (q : Nat) : Bool :=
  s.pairOn q && !s.isSet F.HQI_QP_STATUS_ERR q && s.getF F.HQI_QP_STATUS_SQ_HEAD q != s.getF F.HQI_SQ_TAIL_TAIL q

/-- The ready SQs of a class, in increasing q. -/
def State.readyOf (s : State) (cls : Nat) : List Nat :=
  (List.range 65).filter fun q => s.pairClass q = cls && s.sqReady q

/-- Round robin: the first of a rising list after `last`, else the first. -/
def pickAfter (last : Nat) (l : List Nat) : Option Nat :=
  match l.find? fun q => last < q with
  | some q => some q
  | none => l.head?

/-- Credits of a class in the round. -/
def ArbS.cred (a : ArbS) (cls : Nat) : Nat := if cls = 1 then a.credH else if cls = 2 then a.credM else a.credL

/-- Write the credits of a class. -/
def ArbS.setCred (a : ArbS) (cls n : Nat) : ArbS :=
  if cls = 1 then { a with credH := n } else if cls = 2 then { a with credM := n } else { a with credL := n }

/-- The last SQ served in a class. -/
def ArbS.last (a : ArbS) (cls : Nat) : Nat :=
  if cls = 0 then a.lastU else if cls = 1 then a.lastH else if cls = 2 then a.lastM else a.lastL

/-- Write the last SQ served in a class. -/
def ArbS.setLast (a : ArbS) (cls q : Nat) : ArbS :=
  if cls = 0 then { a with lastU := q } else if cls = 1 then { a with lastH := q }
  else if cls = 2 then { a with lastM := q } else { a with lastL := q }

/-- A class whose SQs are empty gives up its remaining credit. -/
def State.giveUp (s : State) (a : ArbS) : ArbS :=
  [1, 2, 3].foldl (fun a cls => if (s.readyOf cls).isEmpty then a.setCred cls 0 else a) a

/-- Choose within a round: the visit in progress, else the next SQ of the first class with credit and an entry. -/
def State.pickRound (s : State) (a : ArbS) : Option (Nat × ArbS) :=
  match [1, 2, 3].find? fun cls => a.cred cls != 0 && !(s.readyOf cls).isEmpty with
  | none => none
  | some cls =>
    let fresh := (pickAfter (a.last cls) (s.readyOf cls)).map fun q => (q, 2 ^ a.burst)
    let use := match a.visit with
      | some (q, left) => if left ≠ 0 ∧ s.pairClass q = cls ∧ s.sqReady q then some (q, left) else fresh
      | none => fresh
    use.map fun u => (u.1, { (a.setCred cls (a.cred cls - 1)).setLast cls u.1 with visit := some (u.1, u.2 - 1) })

/-- A new round's credits (R307). -/
def State.newRound (s : State) (a : ArbS) : ArbS :=
  { a with inRound := true, burst := s.getF F.HQI_ARB_BURST 0, credH := s.getF F.HQI_ARB_W_HIGH 0 + 1, credM := s.getF F.HQI_ARB_W_MED 0 + 1,
           credL := s.getF F.HQI_ARB_W_LOW 0 + 1, visit := none }

/-- The arbiter's selection (R307). -/
def State.arbSelect (s : State) : Option (Nat × ArbS) :=
  let a := s.hqi.arb
  match pickAfter a.lastU (s.readyOf 0) with
  | some q => some (q, a.setLast 0 q)
  | none =>
    match s.pickRound (s.giveUp a) with
    | some r => some r
    | none => s.pickRound (s.giveUp (s.newRound a))

/-- Select one entry, give it the next arbitration position and issue its fetch (R307). The answer's second part is the
position given. -/
def State.arbitrate (s : State) : State × Option (Nat × Nat) :=
  if 1024 ≤ s.hqi.cmds.length + s.fetches || !s.pf0Served then (s, none)
  else
    match s.arbSelect with
    | none => (s, none)
    | some (q, a) =>
      let slot := s.getF F.HQI_QP_STATUS_SQ_HEAD q
      let pos := s.hqi.nextPos
      let s1 := s.setF F.HQI_QP_STATUS_SQ_HEAD q ((slot + 1) % s.ringSize q)
      let s2 := { s1 with hqi := { s1.hqi with arb := a, nextPos := pos + 1 } }
      (s2.request (.sqFetch q pos) (s.sqBase q + 64 * slot) 64, some (q, pos))

/-! ### Completion entries (R305, R306) -/

/-- The bytes of a completion entry (R305). -/
def cqeBytes (c : Cmd) (sqHead : Nat) (phase : Bool) : List Nat :=
  leBytes 8 c.result ++ leBytes 2 sqHead ++ leBytes 2 c.q ++ leBytes 2 c.cid ++
  leBytes 2 (phase.toNat + 2 * (c.sc % 256) + 512 * (c.sct % 8))

/-- The CQ has room (R301). -/
def State.cqRoom (s : State) (q : Nat) : Bool :=
  (s.getF F.HQI_QP_STATUS_CQ_TAIL q + 1) % s.ringSize q != s.getF F.HQI_CQ_HEAD_HEAD q

/-- Signal the pair's vector: its unsignalled entries are covered (R306). -/
def State.signalPair (s : State) (q : Nat) : State :=
  let s1 := s.setPair q { s.pair q with unsig := 0, covered := s.getF F.HQI_QP_STATUS_CQ_TAIL q }
  if s.pf 0 |>.msixEn then s1.signal 0 (s.getF F.HQI_QP_INT_VECTOR q)
  else s1.setPair q { s1.pair q with cause := true }

/-- An entry of the pair has been written: count it and signal when COAL_CNT says so (R306). -/
def State.coalesce (s : State) (q : Nat) : State :=
  let n := (s.pair q).unsig + 1
  let s1 := s.setPair q { s.pair q with unsig := n, since := if n = 1 then s.tick else (s.pair q).since }
  if !s.isSet F.HQI_QP_CTL_IEN q then s1
  else if s.getF F.HQI_QP_INT_COAL_CNT q ≤ n then s1.signalPair q else s1

/-- Write the completion entry of a command and remove it from the engine (R305). -/
def State.postEntry (s : State) (c : Cmd) : State :=
  let tail := s.getF F.HQI_QP_STATUS_CQ_TAIL c.q
  let ph := (s.pair c.q).phase
  let next := (tail + 1) % s.ringSize c.q
  let s1 := s.emit (.hostWrite (s.cqBase c.q + 16 * tail) (cqeBytes c (s.getF F.HQI_QP_STATUS_SQ_HEAD c.q) ph) false)
  let s2 := s1.setF F.HQI_QP_STATUS_CQ_TAIL c.q next
  let s3 := s2.setPair c.q { s2.pair c.q with phase := if next = 0 then !ph else ph }
  let s4 := s3.setCmds (s3.hqi.cmds.filter fun x => x.pos ≠ c.pos)
  ((s4.coalesce c.q).pairQuiesce c.q).ltrUpdate

/-- The first command of pair q that has its status. -/
def State.postable (s : State) (q : Nat) : Option Cmd :=
  s.hqi.cmds.find? fun c => c.q = q && c.stage = .done

end Sys2Proof.Machine
end

