-- ==== Sys2Proof/Machine/Operands.lean ====
section
/-!
DEFINITION. The number formats of operands and register fields: two's complement fields, saturation, rounding (R100), and the
cosine and sine of exact fractions of a turn (R149, R164).
-/
namespace Sys2Proof.Machine

/-- Bits hi down to lo of a word. -/
def bitsOf (w hi lo : Nat) : Nat := w / 2 ^ lo % 2 ^ (hi - lo + 1)

/-- The signed value of a two's complement field of w bits. -/
def sgn (w n : Nat) : Int := if n % 2 ^ w < 2 ^ (w - 1) then (n % 2 ^ w : Nat) else (n % 2 ^ w : Nat) - (2 ^ w : Nat)

/-- The two's complement field of w bits of a value. -/
def unsgn (w : Nat) (z : Int) : Nat := (z % (2 ^ w : Nat)).toNat

/-- Keep a value between two limits. -/
def clampI (lo hi z : Int) : Int := max lo (min hi z)

/-- Saturate to a signed format of w bits. -/
def satS (w : Nat) (z : Int) : Int := clampI (-(2 ^ (w - 1) : Nat)) ((2 ^ (w - 1) : Nat) - 1) z

/-- Saturate to S0.23 (R100). -/
def sat23 (z : Int) : Int := satS 24 z

/-- Saturate an accumulation to S3.44 (R100). -/
def sat48 (z : Int) : Int := satS 48 z

/-- z / 2^k rounded to nearest, ties away from zero. -/
def rnd (k : Nat) (z : Int) : Int :=
  if k = 0 then z
  else
    let m : Int := ((z.natAbs + 2 ^ (k - 1)) / 2 ^ k : Nat)
    if z < 0 then -m else m

/-- a / b rounded to nearest, ties away from zero; 0 for b = 0. -/
def divRnd (a : Int) (b : Nat) : Int :=
  let m : Int := ((2 * a.natAbs + b) / (2 * b) : Nat)
  if a < 0 then -m else m

/-- The reduction of R100 before its saturation: S3.44 to units of 2^-23. -/
def red (z : Int) : Int := rnd 21 z

/-- The sign of a value: -1, 0, 1. -/
def sgnI (z : Int) : Int := if z < 0 then -1 else if z = 0 then 0 else 1

/-- Round up a / b for naturals. -/
def ceilDiv (a b : Nat) : Nat := (a + b - 1) / b

/-! ### Cosine (R149) -/

/-- 2 pi in units of 2^-60. -/
def twoPi60 : Nat := 7244019458077122842

/-- Cosine of an angle t (in units of 2^-60, 0 to pi/4 and a little more) by its series, in units of 2^-60. -/
def cosSeries (t : Int) : Int :=
  let t2 := t * t / (2 ^ 60 : Nat)
  let term (p : Int × Int) (k : Nat) : Int × Int :=
    let u := -(p.2 * t2 / (2 ^ 60 : Nat)) / (((2 * k + 1) * (2 * k + 2) : Nat) : Int)
    (p.1 + u, u)
  ((List.range 12).foldl term ((2 ^ 60 : Nat), ((2 ^ 60 : Nat) : Int))).1

/-- Sine of an angle by its series, in units of 2^-60. -/
def sinSeries (t : Int) : Int :=
  let t2 := t * t / (2 ^ 60 : Nat)
  let term (p : Int × Int) (k : Nat) : Int × Int :=
    let u := -(p.2 * t2 / (2 ^ 60 : Nat)) / (((2 * k + 2) * (2 * k + 3) : Nat) : Int)
    (p.1 + u, u)
  ((List.range 12).foldl term (t, t)).1

/-- Cosine of k / n of a turn for k within the first eighth, reflected as needed: quadrant by quadrant. -/
def cosFirst (k n : Nat) : Int :=
  if 8 * k ≤ n then cosSeries ((twoPi60 * k / n : Nat) : Int)
  else sinSeries ((twoPi60 * (n - 4 * k) / (4 * n) : Nat) : Int)

/-- The cosine of k / n of a turn, in units of 2^-60; exact at the quarters. -/
def cosTurn (k n : Nat) : Int :=
  let j := k % n
  if 4 * j = n ∨ 4 * j = 3 * n then 0
  else if 4 * j < n then cosFirst j n
  else if 2 * j ≤ n then -(cosFirst (n - 2 * j) (2 * n))
  else if 4 * j < 3 * n then -(cosFirst (2 * j - n) (2 * n))
  else cosFirst (n - j) n

/-- The sine of k / n of a turn, in units of 2^-60. -/
def sinTurn (k n : Nat) : Int := cosTurn (4 * k + 3 * n) (4 * n)

end Sys2Proof.Machine
end

