-- ==== Sys2Proof/Machine/Asy.lean ====
section
/-!
DEFINITION. The Assayer pool and the tailings store (10): demodulation (R199), soundness (R224), lode slots (R225 to R227),
retention and entries (R233 to R238), jobs and the rungs of the retry ladder (R228, R229, R239 to R244). What an outcome does
to the command engine is in Outcome.lean.
-/
namespace Sys2Proof.Machine

/-! ### Demodulation (R199) and soundness (R224) -/

/-- Sign and magnitude product of two LLRs, sign(0) = +1 (R199). -/
def softXor (a b : Int) : Int :=
  let m : Int := (min a.natAbs b.natAbs : Nat)
  if decide (a < 0) != decide (b < 0) then -m else m

/-- The 16 LLRs of one codeword from its first bit's LLR and those of u[15] to u[0] (R199). -/
def demodWord (f : Int) (us : List Int) : List Int :=
  us.mapIdx fun k z => if (0x5555 : Nat).testBit (15 - k) then softXor z f else z

/-- n codewords of 17 channel LLRs each. -/
def demodWords : Nat → List Int → List Int
  | 0, _ => []
  | n + 1, l => demodWord (l.headD 0) ((l.drop 1).take 16) ++ demodWords n (l.drop 17)

/-- The scrambler's output for drift index i (R59). -/
def scramblerBits (i : Nat) : List Bool := scramble i (List.replicate 36864 false)

/-- The 36,864 coded-bit LLRs of the 39,168 channel LLRs of drift bits 448 to 39,615 (R199). -/
def demodulate (i : Nat) (lam : List Int) : List Int :=
  List.zipWith (fun z (b : Bool) => if b then -z else z) (demodWords 2304 lam) (scramblerBits i)

/-- A drift of seam n that decoded to `info` passes the CRC and the identity check; a parity drift needs neither (R224). -/
def driftValid (n i info : Nat) : Bool :=
  if 128 ≤ i then true
  else
    let m := Meta.decode (infoMeta info)
    metaCrcOk (infoUser info) (infoMeta info) && m.drift == i && m.seam == n

/-! ### Lode slots (R225, R226) -/

/-- A lode slot. -/
def State.slot (s : State) (y : Nat) : SlotS := vget s.asy.slots {} y

/-- Write a lode slot. -/
def State.setSlot (s : State) (y : Nat) (x : SlotS) : State :=
  { s with asy := { s.asy with slots := vset s.asy.slots y x } }

/-- The slot is in use. -/
def State.slotUsed (s : State) (y : Nat) : Bool := s.getF F.ASY_SLOT_STATE y != 0

/-- ASY_STATUS.FREE (R226). -/
def State.freeSlots (s : State) : Nat := ((List.range 96).filter fun y => !s.slotUsed y).length

/-- The slot that holds a lode. -/
def State.slotOf (s : State) (v n x : Nat) : Option Nat :=
  (List.range 96).find? fun y => s.slotUsed y && s.getF F.ASY_SLOT_ID_V y = v && s.getF F.ASY_SLOT_ID_N y = n &&
    s.getF F.ASY_SLOT_ID_X y = x

/-- A new reservation may be made: the pool is enabled, and reads leave the last 16 free slots to verifies (R226, R248). -/
def State.canReserve (s : State) (verify : Bool) : Bool :=
  s.isSet F.ASY_CTL_EN 0 && decide ((if verify then 1 else 17) ≤ s.freeSlots)

/-- Reserve the lowest free slot for a lode that holds none, with the lode buffer the command engine names (R225, R226).
DESIGN CHOICE, safe: log 111. -/
def State.reserve (s : State) (v n x h pos : Nat) (verify test : Bool) : State × Option Nat :=
  if (s.slotOf v n x).isSome || !s.canReserve verify then (s, none)
  else
    match (List.range 96).find? fun y => !s.slotUsed y with
    | none => (s, none)
    | some y =>
      let s1 := ((s.setF F.ASY_SLOT_STATE y 1).setF F.ASY_SLOT_UNSOUND y 160).setB F.ASY_SLOT_ID_VERIFY y verify
      let s2 := ((s1.setF F.ASY_SLOT_ID_V y v).setF F.ASY_SLOT_ID_N y n).setF F.ASY_SLOT_ID_X y x
      let g := (s.slot y).gen
      (s2.setSlot y ({ gen := g, head := h, pos := pos, test := test, buf := Config.lodeBuffer y g } : SlotS), some y)

/-! ### The lode buffer (R227) -/

/-- The first line of drift i in the buffer of slot y. -/
def State.bufLine (s : State) (y i : Nat) : Nat := (s.slot y).buf + 65 * i

/-- Write drift i into the lode buffer as 65 whole lines, 4,160 bytes in the order of R55. -/
def State.writeBuf (s : State) (y i info : Nat) : State :=
  s.streamRun (s.bufLine y i) (toLines 65 ((List.range 4160).map (infoByte info)))

/-- The drifts of slot y whose buffer lines DRAM cannot give, each with its first such line (R247). -/
def State.bufBad (s : State) (y : Nat) : List (Nat × Nat) :=
  (s.slot y).sound.filterMap fun p => (s.badLine true (s.bufLine y p.1) 65).map fun a => (p.1, a)

/-- Report uncorrectable lines to the log (R334). -/
def State.reportLines (s : State) (src : Nat) (l : List Nat) : State :=
  s.forEach l fun t a => t.uncorrectable 1 (lineDecode (t.lineDiff a)).poisoned src a

/-! ### The tailings store (R233 to R238) -/

/-- Entries the store holds (R249). -/
def State.storeEntries (s : State) : Nat := 1024 * s.getF F.PRC_TAIL_SIZE_UNITS 0

/-- The first DRAM line of entry k (R233). -/
def State.tailLine (s : State) (k : Nat) : Nat :=
  s.getF F.PRC_TAIL_BASE_HI_BASE_HI 0 * 2 ^ 26 + s.getF F.PRC_TAIL_BASE_LO_BASE_LO 0 * 2 ^ 15 + 96 * k

/-- The 40 bytes of a Precis block, bit 319 first (R230). -/
def precisBytes (b : Precis) : List Nat := (List.range 40).map fun k => precisWord b / 2 ^ (8 * (39 - k)) % 256

/-- The 24 header bytes of an entry (R233). -/
def TailEntry.header (e : TailEntry) (next : Option Nat) : List Nat :=
  let tags := e.inferred.toNat + 2 * e.truncated.toNat + 4 * e.hint.toNat + 8 * e.converged.toNat + 16 * e.sound.toNat
  leBytes 4 (next.getD 0xFFFFFFFF) ++ [e.slot, e.read % 4, e.drift, e.chan, tags, unsgn 8 e.syncOfs] ++
    leBytes 2 (min e.defects 65535) ++ leBytes 2 e.unsat ++ [e.iter, unsgn 8 e.slip] ++ leBytes 4 e.tick ++ [0, 0, 0, 0]

/-- The 6,144 bytes of an entry (R233). -/
def TailEntry.bytes (e : TailEntry) (next : Option Nat) : List Nat := e.header next ++ e.blocks.flatMap precisBytes

/-- The entry that follows entry k in its chain: the next of the same read. -/
def chainNext (k read : Nat) (es : List TailEntry) : Option Nat :=
  ((((es.filter fun e => e.read = read).dropWhile fun e => e.index ≠ k).drop 1).head?).map (·.index)

/-- Write the first line of the linked entries of slot y that a test selects: their headers have changed (R233). -/
def State.putHeaders (s : State) (y : Nat) (p : TailEntry → Bool) : State :=
  let es := (s.slot y).entries
  s.forEach (es.filter p) fun t e => t.putRun (t.tailLine e.index) (toLines 1 (e.bytes (chainNext e.index e.read es)))

/-- Write a whole entry, which ends its chain (R234). -/
def State.putTail (s : State) (e : TailEntry) : State := s.putRun (s.tailLine e.index) (toLines 96 (e.bytes none))

/-- The usable entries of slot y that DRAM cannot give, by read and drift, each with its first bad line (R238). -/
def State.tailBad (s : State) (y : Nat) : List ((Nat × Nat) × Nat) :=
  (s.slot y).entries.filterMap fun e => (s.badLine false (s.tailLine e.index) 96).map fun a => ((e.read, e.drift), a)

/-- PRC_STATUS.OCC: entries in use. -/
def State.occ (s : State) : Nat := s.asy.used.length

/-- The high and low marks after a change of occupancy (R235). -/
def State.marks (s : State) : State :=
  let occ := s.occ
  let s1 := s.keepMax F.PRC_PEAK_PEAK 0 occ
  if !s.isSet F.PRC_STATUS_WITHHOLD 0 && decide (256 * occ > s.getF F.PRC_MARKS_HIGH 0 * s.storeEntries) then
    (s1.setB F.PRC_STATUS_WITHHOLD 0 true).raise E.PRC_WITHHELD 0
  else if s.isSet F.PRC_STATUS_WITHHOLD 0 && decide (256 * occ < s.getF F.PRC_MARKS_LOW 0 * s.storeEntries) then
    (s1.setB F.PRC_STATUS_WITHHOLD 0 false).raise E.PRC_RESUMED 0
  else s1

/-- Give entries back to the free list. -/
def State.freeEntries (s : State) (idx : List Nat) : State :=
  if idx.isEmpty then s
  else ({ s with asy := { s.asy with used := s.asy.used.filter fun k => !idx.contains k } }).marks

/-- The lowest free entry. -/
def lowestFree : List Nat → Nat → Nat
  | [], k => k
  | u :: us, k => if u = k then lowestFree us (k + 1) else k

/-- Take a free entry, lowest index first (R234). -/
def State.takeFree (s : State) : State × Option Nat :=
  let k := lowestFree s.asy.used 0
  if k < s.storeEntries then
    (({ s with asy := { s.asy with used := insertNat k s.asy.used } }).marks, some k)
  else (s, none)

/-- Release every entry of one read of a slot, staged ones included (R237). -/
def State.releaseRead (s : State) (y r : Nat) : State :=
  let x := s.slot y
  let mine (g : Staging) := decide (g.gen = x.gen ∧ g.entry.slot = y ∧ g.entry.read = r)
  let gone := (x.entries.filter fun e => e.read = r).map (·.index) ++
    (s.asy.staging.filter fun p => mine p.2).map fun p => p.2.entry.index
  let s1 := s.setSlot y { x with entries := x.entries.filter (fun e => e.read ≠ r),
                                 retained := x.retained.filter (· ≠ r) }
  ({ s1 with asy := { s1.asy with staging := s1.asy.staging.filter fun p => !mine p.2 } }).freeEntries gone

/-- Release every entry of a slot (R237). -/
def State.releaseEntries (s : State) (y : Nat) : State := s.forEach (s.slot y).retained fun t r => t.releaseRead y r

/-- Release a slot: its entries go, its fields read 0 and its number changes (R226, R237, R247). -/
def State.releaseSlot (s : State) (y : Nat) : State :=
  let s1 := (s.releaseEntries y)
  let s2 := [F.ASY_SLOT_STATE, F.ASY_SLOT_READS, F.ASY_SLOT_RUNG, F.ASY_SLOT_UNSOUND, F.ASY_SLOT_MISSES,
    F.ASY_SLOT_ID_VERIFY, F.ASY_SLOT_ID_RETAIN, F.ASY_SLOT_ID_V, F.ASY_SLOT_ID_N, F.ASY_SLOT_ID_X].foldl
    (fun t f => t.setF f y 0) s1
  s2.setSlot y ({ gen := (s.slot y).gen + 1 } : SlotS)

/-- Decide at its first claimed drift whether a read is retained (R235, R244). -/
def State.decideRetain (s : State) (y : Nat) : State :=
  let x := s.slot y
  if x.decided then s
  else
    let s1 := s.setSlot y { x with decided := true }
    if s.isSet F.ASY_SLOT_ID_VERIFY y || !s.isSet F.PRC_CTL_EN 0 || !s.isSet F.PRC_CTL_RET_EN 0 then s1
    else if s.isSet F.PRC_STATUS_WITHHOLD 0 then s1.count F.PRC_STATS_WITHHELD 0
    else
      let s2 := if x.retained.length < 4 then s1 else s1.releaseRead y (x.retained.headD 0)
      let x2 := s2.slot y
      (s2.setSlot y { x2 with retained := x2.retained ++ [x2.readNo] }).setB F.ASY_SLOT_ID_RETAIN y true

/-- Chained-buffer overflow (R236). -/
def State.overflow (s : State) (y : Nat) : State :=
  (((s.releaseRead y (s.slot y).readNo).setB F.ASY_SLOT_ID_RETAIN y false).count F.PRC_STATS_OVERFLOW 0).raise
    E.PRC_OVERFLOW 0

/-- Stage a claimed drift of a retaining read: its entry is taken, or the store overflows (R234, R236). `lam` are the
channel-bit LLRs of drift bits 448 to 39,615. -/
def State.stage (s : State) (y : Nat) (r : DriftRec) (lam : List Int) : State :=
  let x := s.slot y
  if !s.isSet F.ASY_SLOT_ID_RETAIN y then s
  else
    match s.takeFree with
    | (t, none) => t.overflow y
    | (t, some k) =>
      let e : TailEntry := {
        index := k, slot := y, read := x.readNo, drift := r.drift, chan := r.chan,
        inferred := r.inferred, truncated := r.truncated, hint := r.hint, converged := false, sound := false,
        syncOfs := r.syncOfs, defects := r.defects, unsat := 0, iter := 0,
        blocks := precisBlocks (t.getF F.PRC_CTL_CLASS_TH 0) 153 lam }
      { t with asy := { t.asy with staging := t.asy.staging ++ [(r.chan, ⟨x.gen, e⟩)] } }

/-- Link the oldest staged entry of channel c to its chain and write it to DRAM (R234); an entry whose slot is gone is given
back. -/
def State.linkEntry (s : State) (c : Nat) : State :=
  match s.asy.staging.find? fun p => p.1 = c with
  | none => s
  | some (_, g) =>
    let x := s.slot g.entry.slot
    let s1 := { s with asy := { s.asy with staging := s.asy.staging.erase (c, g) } }
    if g.gen = x.gen then
      let e := { g.entry with tick := x.endTick % 2 ^ 32 }
      let s2 := (s1.setSlot g.entry.slot { x with entries := x.entries ++ [e] }).putTail e
      s2.putHeaders e.slot fun d => chainNext d.index d.read (x.entries ++ [e]) = some e.index
    else s1.freeEntries [g.entry.index]

/-- Flush the staging buffers of the channels a test selects: each partly built entry is discarded and counted (R238). -/
def State.flushStaging (s : State) (p : Nat → Bool) : State :=
  let gone := s.asy.staging.filter fun g => p g.1
  if gone.isEmpty then s
  else
    let s1 := { s with asy := { s.asy with staging := s.asy.staging.filter fun g => !p g.1 } }
    ((s1.freeEntries (gone.map fun g => g.2.entry.index)).addSat F.PRC_STATS2_TRUNC 0 gone.length).raise E.PRC_FLUSH_TRUNC 0

/-- Flush the staging buffers of head h's channels (R238). -/
def State.flushHead (s : State) (h : Nat) : State := s.flushStaging fun c => decide (headOfChan c = h)

/-- Change every retained copy of a drift's entry in the present read, linked or staged (R233). -/
def State.updEntry (s : State) (y i : Nat) (f : TailEntry → TailEntry) : State :=
  let x := s.slot y
  let hit (e : TailEntry) := decide (e.slot = y ∧ e.read = x.readNo ∧ e.drift = i)
  let s1 := s.setSlot y { x with entries := x.entries.map fun e => if hit e then f e else e }
  let st := s1.asy.staging.map fun p =>
    if p.2.gen = x.gen ∧ hit p.2.entry then (p.1, { p.2 with entry := f p.2.entry }) else p
  ({ s1 with asy := { s1.asy with staging := st } } : State).putHeaders y hit

/-! ### Reads and lode ends (R225, R227) -/

/-- A slot still gathers drifts. -/
def State.slotReading (s : State) (y : Nat) : Bool := s.getF F.ASY_SLOT_STATE y = 1

/-- A delivered drift is claimed by slot y: the first delivery of its index counts (R225). -/
def State.claimDrift (s : State) (y : Nat) (r : DriftRec) (lam : List Int) : State :=
  let x := s.slot y
  if !s.slotReading y || x.got.any fun g => g.record.drift = r.drift then s
  else
    let s1 := s.setSlot y { x with got := x.got ++ [{ record := r }] }
    if r.blank then s1 else (s1.decideRetain y).stage y r lam

/-- Record that drift i of slot y is sound with its information bits; it stays so (R224). -/
def State.makeSound (s : State) (y i info : Nat) : State :=
  let x := s.slot y
  if x.sound.any fun p => p.1 = i then s
  else
    (s.setSlot y { x with sound := x.sound ++ [(i, info)], hard := x.hard.filter fun p => p.1 ≠ i }).setF
      F.ASY_SLOT_UNSOUND y (160 - (x.sound.length + 1))

/-- The settings of the inner decoders (R223, R248). -/
def State.innerCtl (s : State) : LdpcCtl :=
  { norm := s.getF F.ASY_INNER_CTL_NORM 0, iterMax := s.getF F.ASY_INNER_CTL_ITER_MAX 0,
    earlyEn := s.isSet F.ASY_INNER_CTL_EARLY_EN 0, stallMin := s.getF F.ASY_INNER_CTL_STALL_MIN 0,
    stall := s.getF F.ASY_INNER_CTL_STALL 0 }

/-- SLIP_TRY as it acts (R248).
DEDUCED, unsafe: log 12. -/
def State.slipTry (s : State) : Nat := min 8 (s.getF F.ASY_SECOND_CTL_SLIP_TRY 0)

/-- The settings a job takes when it starts (R248). -/
def State.jobCtl (s : State) : JobCtl :=
  { inner := { s.innerCtl with iterMax := s.getF F.ASY_SECOND_CTL_ITER2 0 }, guard := s.getF F.ASY_SECOND_CTL_GUARD 0,
    slipMargin := s.getF F.ASY_SECOND_CTL_SLIP_MARGIN 0, slipTry := s.slipTry }

/-- Judge the inner decode of a claimed drift, whose hard decisions go to the lode buffer, sound or not (R224, R227). -/
def State.judgeInner (s : State) (y : Nat) (r : DriftRec) (res : LdpcResult) : State :=
  let n := s.getF F.ASY_SLOT_ID_N y
  let info := infoOfBits res.bits
  let valid := driftValid n r.drift info
  let x := s.slot y
  let s1 := s.setSlot y { x with
    got := x.got.map fun g => if g.record.drift = r.drift then
      { g with decoded := true, converged := res.converged, iters := res.iters, unsat := res.unsat } else g,
    margin := if res.converged && valid then x.margin ++ [r.drift] else x.margin,
    hard := if res.converged && valid then x.hard
      else (x.hard.filter fun p => p.1 ≠ r.drift) ++ [(r.drift, info)] }
  let s2 := (s1.writeBuf y r.drift info).updEntry y r.drift fun e =>
    { e with converged := res.converged, sound := res.converged && valid, unsat := res.unsat, iter := res.iters }
  if !res.converged then (s2.count F.ASY_DRIFTS_INNER_FAIL 0).raise E.ASY_INNER_FAIL 0
  else if valid then s2.makeSound y r.drift info
  else (s2.count F.ASY_DRIFTS_INNER_MISC 0).raise E.ASY_INNER_MISC 0

/-- The lode end of slot y: its first-pass job is queued with its deadline (R227, R239). The head's read operation ends. -/
def State.lodeEnd (s : State) (y : Nat) : State :=
  if !s.slotReading y then s
  else
    let x := s.slot y
    let s1 := s.setSlot y { x with
      endTick := s.tick, deadline := s.tick + s.getF F.TCK_ASY_DEADLINE_TICKS 0, rung := 0,
      entries := x.entries.map fun e => if e.read = x.readNo then { e with tick := s.tick % 2 ^ 32 } else e }
    ((s1.putHeaders y fun e => e.read = x.readNo).setF F.ASY_SLOT_STATE y 2).count F.ASY_SLOT_READS y

/-- Begin a further read with the slot the lode holds (R226, R241). -/
def State.beginReread (s : State) (y : Nat) : State :=
  let x := s.slot y
  ((s.setSlot y { x with
      readNo := x.readNo + 1, got := [], margin := [], decided := false, rung := 0,
      outcome := none }).setF F.ASY_SLOT_STATE y 1).setB F.ASY_SLOT_ID_RETAIN y false

/-! ### Jobs (R239) -/

/-- The slots with a queued job of a class. -/
def State.queuedJobs (s : State) (first : Bool) : List Nat :=
  (List.range 96).filter fun y => s.getF F.ASY_SLOT_STATE y = 2 && ((s.slot y).rung == 0) == first

/-- The earliest deadline of a list of slots, ties to the lower slot. -/
def State.earliest (s : State) (l : List Nat) : Option Nat :=
  l.foldl (fun best y => match best with
    | none => some y
    | some b => if (s.slot y).deadline < (s.slot b).deadline then some y else some b) none

/-- Assayers running recovery jobs. -/
def State.recoveryBusy (s : State) : Nat :=
  ((List.range 8).filter fun a => s.isSet F.ASY_ENG_STATUS_BUSY a && s.getF F.ASY_ENG_STATUS_RUNG a != 0).length

/-- REC_MAX as it acts: 1 to 8 (R248).
DEDUCED, unsafe: log 12. -/
def State.recMax (s : State) : Nat := min 8 (max 1 (s.getF F.ASY_CTL_REC_MAX 0))

/-- The job an idle Assayer takes (R239). -/
def State.nextJob (s : State) : Option Nat :=
  match s.earliest (s.queuedJobs true) with
  | some y => some y
  | none => if s.recoveryBusy < s.recMax then s.earliest (s.queuedJobs false) else none

/-- Assayer a takes the job of slot y, with the settings of this moment (R239, R248). -/
def State.startJob (s : State) (a y : Nat) : State :=
  let r := (s.slot y).rung
  let s1 := ((s.setB F.ASY_ENG_STATUS_BUSY a true).setF F.ASY_ENG_STATUS_RUNG a r).setF F.ASY_ENG_STATUS_SLOT a y
  let s2 := { s1 with asy := { s1.asy with
    engGen := vset s1.asy.engGen a (s.slot y).gen, engCtl := vset s1.asy.engCtl a s.jobCtl } }
  (s2.setF F.ASY_SLOT_STATE y 3).setF F.ASY_SLOT_RUNG y r

/-- Assayer a becomes idle. -/
def State.idleEngine (s : State) (a : Nat) : State :=
  ((s.setB F.ASY_ENG_STATUS_BUSY a false).setF F.ASY_ENG_STATUS_RUNG a 0).setF F.ASY_ENG_STATUS_SLOT a 0

/-! ### The rungs (R228, R229, R241 to R244) -/

/-- How a rung ended. -/
inductive RungEnd where
  | fail | guard | ok
  deriving DecidableEq, Repr

/-- A rung's result: the sound drifts it leaves, its end, whether the outer decode found nothing to correct, and the slips
found by slip search as (drift, slip). -/
structure RungRes where
  sound : List (Nat × Nat)
  fate : RungEnd
  untouched : Bool := false
  slips : List (Nat × Int) := []
  found : Nat := 0

/-- The information bits of drift i, when it is sound. -/
def soundOf (l : List (Nat × Nat)) (i : Nat) : Option Nat := (l.find? fun p => p.1 = i).map (·.2)

/-- The outer decode over the sound drifts; `bad` are drifts whose buffer lines cannot be read (R228, R229, R247). -/
def outerDecode (guard n : Nat) (sound : List (Nat × Nat)) (bad : List Nat) : RungRes :=
  let drifts := (List.range 160).map fun i => if bad.contains i then none else soundOf sound i
  match rsDecodeLode guard drifts with
  | none => { sound := sound, fate := .fail }
  | some out =>
    let changed := (List.range 160).filter fun i => drifts.getD i none != some (out.getD i 0)
    if changed.all fun i => driftValid n i (out.getD i 0) then
      { sound := (List.range 160).map fun i => (i, out.getD i 0), fate := .ok, untouched := changed.isEmpty }
    else { sound := sound, fate := .guard }

/-- Erasures left. -/
def erasures (sound : List (Nat × Nat)) : Nat := 160 - sound.length

/-- A decode of an entry's LLRs made its drift sound (R242 to R244). -/
def trySound (k : LdpcCtl) (n i : Nat) (lam : List Int) : Option Nat :=
  let res := ldpcDecode k (demodulate i lam)
  let info := infoOfBits res.bits
  if res.converged && driftValid n i info then some info else none

/-- Unsatisfied checks of the hard decisions of a slipped entry: U(s) (R243). -/
def slipUnsat (i : Nat) (lam : List Int) (sl : Int) : Nat :=
  ldpcUnsat (hardBits (demodulate i (shiftLlr lam sl)).toArray)

/-- The slips in their order of trial: by U, then the smaller magnitude, then the negative slip (R243). -/
def slipOrder (i : Nat) (lam : List Int) (margin : Nat) : List Int :=
  let u0 := slipUnsat i lam 0
  let all : List Int := [-1, 1, -2, 2, -3, 3, -4, 4, -5, 5, -6, 6, -7, 7, -8, 8]
  let cand := (all.map fun sl => (slipUnsat i lam sl, sl)).filter fun p => p.1 + margin < u0
  (cand.mergeSort fun a b => decide (a.1 ≤ b.1)).map (·.2)

/-- Slip search: the drift's information bits when a slip succeeds, and the slip for the entry (R243). -/
def slipSearch (k : LdpcCtl) (n i : Nat) (lam : List Int) (margin tries : Nat) : Option Nat × Int :=
  let order := slipOrder i lam margin
  match (order.take tries).findSome? fun sl => (trySound k n i (shiftLlr lam sl)).map fun info => (info, sl) with
  | some (info, sl) => (some info, sl)
  | none => (none, order.headD 0)

/-- Decompress an entry (R232). -/
def TailEntry.lam (e : TailEntry) : List Int := e.blocks.flatMap precisExpand

/-- The drifts a rung attempts, in order, stopping when too many erasures remain; with `again`, a drift that fails is still to be
attempted in another way, and `k` counts those (R241). -/
def rungLoop (attempt : Nat → Option Nat × Option Int) (again : Bool) : Nat → List Nat → RungRes → RungRes × Bool
  | k, [], r => (r, decide (erasures r.sound ≤ 32 + k))
  | k, i :: rest, r =>
    if erasures r.sound > 32 + k + (rest.length + 1) then (r, false)
    else
      match attempt i with
      | (some info, sl) =>
        rungLoop attempt again k rest { r with
          sound := r.sound ++ [(i, info)],
          slips := match sl with | some z => r.slips ++ [(i, z)] | none => r.slips,
          found := match sl with | some _ => r.found + 1 | none => r.found }
      | (none, sl) =>
        rungLoop attempt again (k + again.toNat) rest
          { r with slips := match sl with | some z => r.slips ++ [(i, z)] | none => r.slips }

/-- Finish a rung: the outer decode when it made a drift sound (R241). -/
def rungFinish (guard n : Nat) (bad : List Nat) (before : Nat) (p : RungRes × Bool) : RungRes :=
  if p.1.sound.length = before || !p.2 then { p.1 with fate := .fail }
  else { outerDecode guard n p.1.sound bad with slips := p.1.slips, found := p.1.found }

/-- The drifts of rung 1: this read's usable entries whose drift is unsound, by UNSAT then index (R242). -/
def SlotS.rung1Order (x : SlotS) (skipHints : Bool) (ecc : List (Nat × Nat)) : List TailEntry :=
  let es := x.entries.filter fun e => e.read = x.readNo && (soundOf x.sound e.drift).isNone &&
    !(skipHints && e.hint) && !ecc.contains (e.read, e.drift)
  es.mergeSort fun a b => decide (a.unsat < b.unsat ∨ (a.unsat = b.unsat ∧ a.drift ≤ b.drift))

/-- Rung 1: the second-chance decodes of this read's unsound drifts (R242), then the slip searches of those still unsound
(R243). -/
def State.rung1 (s : State) (y : Nat) (k : JobCtl) (bad : List Nat) (ecc : List (Nat × Nat)) : RungRes :=
  let x := s.slot y
  let n := s.getF F.ASY_SLOT_ID_N y
  let es := x.rung1Order (s.isSet F.ASY_CTL_HINT_SKIP 0) ecc
  let entry (i : Nat) (f : TailEntry → Option Nat × Option Int) : Option Nat × Option Int :=
    match es.find? fun e => e.drift = i with
    | none => (none, none)
    | some e => f e
  let second (i : Nat) := entry i fun e => (trySound k.inner n i e.lam, none)
  let slip (i : Nat) := entry i fun e =>
    let r := slipSearch k.inner n i e.lam k.slipMargin k.slipTry
    (r.1, some r.2)
  let p := rungLoop second (k.slipTry != 0) 0 (es.map (·.drift)) { sound := x.sound, fate := .fail }
  let left := (es.map (·.drift)).filter fun i => (soundOf p.1.sound i).isNone
  rungFinish k.guard n bad x.sound.length (if p.2 && k.slipTry != 0 then rungLoop slip false 0 left p.1 else p)

/-- Rung 2: soft combining over the retained reads (R244). -/
def State.rung2 (s : State) (y : Nat) (k : JobCtl) (bad : List Nat) (ecc : List (Nat × Nat)) : RungRes :=
  let x := s.slot y
  let n := s.getF F.ASY_SLOT_ID_N y
  let usable := x.entries.filter fun e => x.retained.contains e.read && !ecc.contains (e.read, e.drift)
  let wgt (e : TailEntry) : Int := if e.hint then (min 16 (s.getF F.ASY_COMB_CTL_HINT_WGT 0) : Nat) else 16
  let attempt (i : Nat) : Option Nat × Option Int :=
    let es := usable.filter fun e => e.drift = i
    (trySound k.inner n i (combineLlr (s.getF F.ASY_COMB_CTL_CSCALE 0) (s.getF F.ASY_COMB_CTL_CCLIP 0)
      (es.map fun e => (wgt e, e.slip, e.lam))), none)
  let cand := (List.range 160).filter fun i => (soundOf x.sound i).isNone && usable.any fun e => e.drift = i
  rungFinish k.guard n bad x.sound.length (rungLoop attempt false 0 cand { sound := x.sound, fate := .fail })

/-- The work of slot y's present rung, with the settings its job took. -/
def State.rungResult (s : State) (y : Nat) (k : JobCtl) (bad : List Nat) (ecc : List (Nat × Nat)) : RungRes :=
  let x := s.slot y
  match x.rung with
  | 0 => outerDecode k.guard (s.getF F.ASY_SLOT_ID_N y) x.sound bad
  | 1 => s.rung1 y k bad ecc
  | _ => s.rung2 y k bad ecc

/-- Put a rung's result into the slot and its lode buffer: drifts made sound, slips found, the guard's count (R229, R241, R243). -/
def State.putRung (s : State) (y : Nat) (r : RungRes) : State :=
  let x := s.slot y
  let slipOf (e : TailEntry) := ((r.slips.find? fun p => e.read = x.readNo && p.1 = e.drift).map (·.2)).getD e.slip
  let s1 := (s.setSlot y { x with
      sound := r.sound, hard := x.hard.filter fun p => (soundOf r.sound p.1).isNone,
      entries := x.entries.map fun e => { e with slip := slipOf e } }).setF F.ASY_SLOT_UNSOUND y (erasures r.sound)
  let fresh := r.sound.filter fun p => soundOf x.sound p.1 != some p.2
  let sb := (s1.forEach fresh fun t p => t.writeBuf y p.1 p.2).putHeaders y fun e =>
    e.read = x.readNo && r.slips.any fun p => p.1 = e.drift
  let s2 := sb.onlyIf (r.found != 0) fun t => (t.addSat F.ASY_MISC_SLIP_FOUND 0 r.found).raise E.ASY_SLIP 0
  s2.onlyIf (r.fate = .guard) fun t => (t.count F.ASY_MISC_GUARD_FAIL 0).raise E.ASY_MISCORRECT 0

/-- Entries of a job that cannot be read: the events and counts (R238). -/
def State.badEntries (s : State) (y : Nat) (ecc : List (Nat × Nat)) : State :=
  let k := ((s.slot y).entries.filter fun e => ecc.contains (e.read, e.drift)).length
  s.onlyIf (k != 0) fun t => (t.addSat F.PRC_STATS2_ENTRY_ECC 0 k).raise E.PRC_ENTRY_ECC 0

/-- The rung that follows a failed one, when there is one (R241). -/
def State.nextRung (s : State) (y : Nat) : Option Nat :=
  let x := s.slot y
  if x.rung = 0 && s.isSet F.ASY_SLOT_ID_RETAIN y then some 1
  else if x.rung ≤ 1 && decide (2 ≤ x.retained.length) then some 2
  else none

end Sys2Proof.Machine
end

