-- ==== Sys2Proof/Machine/Blocks.lean ====
section
/-!
DEFINITION. The line code of the head links (04): control blocks and items as they are sent (R69, R70, R76, R79), the self-synchronising
descrambler and block lock (R68), the parity of FIFO words (R87), pattern generators and checkers (R93).
-/
namespace Sys2Proof.Machine

/-! ### Control blocks (R69) -/

/-- TICK(k). -/
def tickBlock (k : Nat) : Nat := 0x87 + 2 ^ 8 * (k % 2 ^ 48)

/-- ECHO. -/
def echoBlock (seq : Nat) : Nat := 0x6A + 2 ^ 8 * (seq % 256)

/-- ROTATE. -/
def rotateBlock (lane : Nat) (failover restore : Bool) (mark : Nat) : Nat :=
  0x55 + 2 ^ 8 * (lane % 8) + 2 ^ 11 * failover.toNat + 2 ^ 12 * restore.toNat + 2 ^ 13 * (mark % 2 ^ 24)

/-- LINK_CMD. -/
def linkCmdBlock (seq op lane pat : Nat) : Nat :=
  0x2D + 2 ^ 8 * (seq % 256) + 2 ^ 16 * (op % 256) + 2 ^ 24 * (lane % 8) + 2 ^ 27 * (pat % 8)

/-- GATE_CLOSE. -/
def gateCloseBlock (tag : Nat) : Nat := 0x99 + 2 ^ 8 * (tag % 2 ^ 16)

/-- SOI. -/
def soiBlock (stream seq tag crc : Nat) : Nat :=
  0x78 + 2 ^ 8 * (stream % 16) + 2 ^ 16 * (seq % 256) + 2 ^ 24 * (tag % 2 ^ 16) + 2 ^ 40 * (crc % 2 ^ 16)

/-- The fields SPARE, FAILED and MARK of an ALIGN block of lane k; none when the block is no well-formed ALIGN of it. -/
def alignFields (k hdr w : Nat) : Option (Nat × Nat × Nat) :=
  if hdr = 2 ∧ bitsOf w 7 0 = 0x4B ∧ bitsOf w 10 8 = k then some (bitsOf w 13 11, bitsOf w 19 14, bitsOf w 43 20) else none

/-- The TYPEs of R69. -/
def knownType (ty : Nat) : Bool := [0x1E, 0x4B, 0x78, 0x87, 0x55, 0x2D, 0x6A, 0x99].contains ty

/-- The CRC of an item's words (R70). -/
def itemCrc (ws : List Nat) : Nat := crc16 (ws.flatMap (bitsMsb 64))

/-! ### Items sent (R76, R79) -/

/-- The three words of a DRIVE item. -/
def Drive.words (d : Drive) : List Nat :=
  [2 ^ 48 * d.focus + 2 ^ 32 * d.track + 2 ^ 16 * d.tilt + 2 ^ 12 * d.layer,
   2 ^ 48 * d.sledA + 2 ^ 32 * d.sledB + 2 ^ 30 * d.sledMode + 2 ^ 20 * d.rpwr + 2 ^ 18 * d.laser + 2 ^ 17 * d.retract.toNat,
   2 ^ 63 * d.wg.toNat + 2 ^ 56 * d.wstrat + 2 ^ 46 * d.peak + 2 ^ 36 * d.bias + 2 ^ 26 * d.cool]

/-- Bits packed most significant first. -/
def packBits (bs : List Bool) : Nat := bs.foldl (fun n b => 2 * n + b.toNat) 0

/-- Item i (0 to 38) of a drift's 39,616 channel bits: header word and 16 data words; the last carries 704 valid bits. -/
def writeWords (q pillar offset : Nat) (bits : List Bool) (i : Nat) : List Nat :=
  let n := min 1024 (driftBits - 1024 * i)
  let part := ((bits.drop (1024 * i)).take n) ++ List.replicate (1024 - n) false
  (2 ^ 54 * q + (if i = 0 then 2 ^ 46 * pillar + 2 ^ 30 * offset + 2 ^ 18 else 0) + 2 ^ 19 * n + (if i = 38 then 2 ^ 17 else 0)) ::
    (List.range 16).map fun w => packBits ((part.drop (64 * w)).take 64)

/-- Lane j of head h downstream (0 for D0, 1 for D1) carries blocks: it is neither idled by DIS nor replaced by its generator
(R84, R97). -/
def State.downOn (s : State) (h j : Nat) : Bool :=
  !s.isSet F.LNK_LANE_CTL_DIS (8 * h + 6 + j) && !s.isSet F.LNK_PRBS_CTL_GEN_EN (8 * h + 6 + j)

/-- Send a control block on a downstream lane. -/
def State.sendBlock (s : State) (h j payload : Nat) : State := s.onlyIf (s.downOn h j) fun t => t.emit (.block h j payload)

/-! ### Scrambler and block lock (R68) -/

/-- Descramble a payload by x^58 + x^39 + 1; `hist` holds the last 58 received payload bits, the earliest in bit 0. The answer is the
payload and the new history. -/
def descramble (hist w : Nat) : Nat × Nat :=
  let x := 2 ^ 58 * w + hist
  ((x / 2 ^ 58 ^^^ x / 2 ^ 19 ^^^ x) % 2 ^ 64, x / 2 ^ 64)

/-- The block-lock state machine of clause 49: `locked`, and the lane's counts, after one more sync header. Invalid headers are counted in
successive windows of 64 blocks.
PRESUMED, unsafe: log 82. -/
def LaneS.header (a : LaneS) (locked ok : Bool) : Bool × LaneS :=
  if locked then
    let bad := a.badHdr + (!ok).toNat
    if 16 ≤ bad then (false, { a with hdrs := 0, badHdr := 0 })
    else if a.hdrs + 1 = 64 then (true, { a with hdrs := 0, badHdr := 0 })
    else (true, { a with hdrs := a.hdrs + 1, badHdr := bad })
  else if !ok then (false, { a with hdrs := 0, badHdr := 0 })
  else if a.hdrs + 1 = 64 then (true, { a with hdrs := 0, badHdr := 0 })
  else (false, { a with hdrs := a.hdrs + 1, badHdr := 0 })

/-! ### Parity (R87) -/

/-- The eight even-parity bits of a word, one per byte. -/
def parity8 (w : Nat) : Nat :=
  (List.range 8).foldl (fun n i => n + 2 ^ i * (((List.range 8).filter fun j => w.testBit (8 * i + j)).length % 2)) 0

/-- A word as it is stored. -/
def LWord.of (w : Nat) (poison : Bool) : LWord := { w := w, par := parity8 w, poison := poison }

/-- A stored word with bit i of its 72 flipped: 0 to 63 its data, 64 to 71 its parity. -/
def LWord.flip (x : LWord) (i : Nat) : LWord :=
  if i < 64 then { x with w := x.w ^^^ 2 ^ i } else { x with par := x.par ^^^ 2 ^ (i - 64) }

/-- The word is delivered poisoned. -/
def LWord.bad (x : LWord) : Bool := x.poison || parity8 x.w != x.par

/-! ### Patterns (R93) -/

/-- The next bit of a pattern after the last 64 bits (the latest in bit 0): two taps for the PRBS patterns, the bit 64 before for the
repeated user pattern.
DESIGN CHOICE, unsafe: log 99. -/
def nextBit (pat hist : Nat) : Bool :=
  let tap (a b : Nat) : Bool := hist.testBit (a - 1) != hist.testBit (b - 1)
  if pat = 0 then tap 7 6 else if pat = 1 then tap 15 14 else if pat = 2 then tap 23 18 else if pat = 3 then tap 31 28
  else hist.testBit 63

/-- Append a bit to a history of 64. -/
def pushBit (hist : Nat) (b : Bool) : Nat := (2 * hist + b.toNat) % 2 ^ 64

/-- A history that the pattern can have: for the user pattern (bits `user`, bit 0 first) one of its 64 phases. -/
def inPattern (pat user hist : Nat) : Bool :=
  pat < 4 || (List.range 64).any fun i => (List.range 64).all fun j => hist.testBit (63 - j) == user.testBit ((i + j) % 64)

/-- A checker takes a bit: it synchronises itself from the bits received, locks and relocks after 64 error-free bits, and counts
errors against its own pattern while locked.
DESIGN CHOICE, unsafe: log 99. -/
def CheckS.bit (pat user : Nat) (x : CheckS) (b : Bool) : CheckS :=
  let run := if b = nextBit pat x.hist ∧ inPattern pat user x.hist then x.run + 1 else 0
  let hist := pushBit x.hist b
  let p := nextBit pat x.ref
  let errs := x.errs + (x.lock && p != b).toNat
  if 64 ≤ run then { hist := hist, ref := hist, run := 64, lock := true, errs := errs }
  else { hist := hist, ref := pushBit x.ref p, run := run, lock := x.lock, errs := errs }

/-- A checker takes bits, in their order. -/
def CheckS.bits (pat user : Nat) (x : CheckS) (bs : List Bool) : CheckS := bs.foldl (CheckS.bit pat user) x

/-- The bits of a word of n bits, bit 0 first. -/
def bitsLsb (n w : Nat) : List Bool := (List.range n).map w.testBit

/-- n further bits of a generator: the bits and its new history. -/
def genBits (pat : Nat) : Nat → Nat → List Bool × Nat
  | 0, hist => ([], hist)
  | n + 1, hist =>
    let b := nextBit pat hist
    let r := genBits pat n (pushBit hist b)
    (b :: r.1, r.2)

/-- The pattern number that counts: PAT 4 and above is the user pattern. -/
def State.patOf (s : State) (l : Nat) : Nat := min 4 (s.getF F.LNK_PRBS_CTL_PAT l)

/-- Lane l's user pattern. -/
def State.userPat (s : State) (l : Nat) : Nat := 2 ^ 32 * s.getF F.LNK_USER_PAT_HI_PAT l + s.getF F.LNK_USER_PAT_LO_PAT l

/-- The history with which lane l's generator starts: the user pattern ends it, its bit 63 the latest; a PRBS starts as it starts.
DESIGN CHOICE, unsafe: log 99. -/
def State.genSeed (s : State) (l : Nat) : Nat :=
  if s.patOf l = 4 then (bitsLsb 64 (s.userPat l)).foldl pushBit 0
  else (Config.prbsSeed l s.free).toNat

end Sys2Proof.Machine
end

