-- ==== Sys2Proof/Machine/Route.lean ====
section
/-!
DEFINITION. Media operations and their routing (R11, R14 to R18, R118, R226, R462): which head serves a seam, the queues of the
heads, lode reads that wait for a slot or for their band, and the completion of a band's commands when no head serves it.
-/
namespace Sys2Proof.Machine

/-! ### Heads -/

/-- Head states (R117). -/
def hdOFF : Nat := 0
def hdPARKED : Nat := 1
def hdACQUIRE : Nat := 2
def hdFOLLOW : Nat := 3
def hdSEEK : Nat := 4
def hdWRITE : Nat := 5
def hdVERIFY : Nat := 6
def hdHOLD : Nat := 7
def hdSAFE : Nat := 8

/-- A head. -/
def State.head (s : State) (h : Nat) : HeadS := vget s.heads {} h

/-- Write a head. -/
def State.setHead (s : State) (h : Nat) (x : HeadS) : State := { s with heads := vset s.heads h x }

/-- The state of head h. -/
def State.clr (s : State) (h : Nat) : Nat := s.getF F.CLR_STATUS_STATE h

/-- The head is at an idle point: PARKED, or FOLLOW with no operation in progress (R118). -/
def State.idlePoint (s : State) (h : Nat) : Bool :=
  (s.clr h == hdPARKED || s.clr h == hdFOLLOW) && (s.head h).op.isNone

/-- The band of h is served by its partner (R15). -/
def State.taken (s : State) (h : Nat) : Bool := s.bitF F.GLB_TAKEOVER_SERVED_BY_PARTNER 0 h

/-- The head that serves the band of home head h. -/
def State.server (s : State) (h : Nat) : Nat := if s.taken h then partner h else h

/-- The band of home head h is unserved (R14, R16, R26). -/
def State.unserved (s : State) (h : Nat) : Bool := (s.head h).band.unserved

/-- A takeover of the band of h is in progress (R15). -/
def State.taking (s : State) (h : Nat) : Bool := decide ((s.head h).band.take ≠ .none)

/-- The status with which commands of the band of h complete because no head may serve it: the band is unserved (R16, R26), or its
serving head is in SAFE through a deck-fatal event (R462).
DEDUCED, unsafe: log 87. -/
def State.deadBand (s : State) (h : Nat) : Option Status :=
  if s.unserved h then some stSideUnavailable
  else if s.clr (s.server h) == hdSAFE && !s.taking h then some stVolumeUnavailable
  else none

/-- Operations of the band of h may be issued: it is served, no takeover of it is in progress, its serving head is not
waiting to take over the other band, no handback is in progress, and no shift holds media operations (R15, R18, R319,
R462). -/
def State.routable (s : State) (h : Nat) : Bool :=
  !s.unserved h && !s.taking h && !(s.head h).band.handback && !s.taking (partner h) &&
  s.clr (s.server h) != hdSAFE && s.clr (s.server h) != hdOFF && !s.isSet F.HQI_CSTS_HELD 0 && !s.frozen

/-! ### Issuing operations -/

/-- The order of operations: those re-queued by takeover first, then arbitration order; self-tests last (R15, R320). -/
def opBefore (a b : MediaOp) : Bool :=
  if a.test != b.test then !a.test
  else if a.ahead != b.ahead then a.ahead
  else decide (a.pos ≤ b.pos)

/-- Insert an operation at its place. -/
def insertOp (o : MediaOp) : List MediaOp → List MediaOp
  | [] => [o]
  | p :: ps => if opBefore p o then p :: insertOp o ps else o :: p :: ps

/-- Issue an operation to a head's queue. -/
def State.issue (s : State) (h : Nat) (o : MediaOp) : State :=
  s.setHead h { s.head h with ops := insertOp o (s.head h).ops }

/-- The layer track of the first slot of a lode (R63, R64). -/
def lodeTrack (n x : Nat) : Nat := bandTrack (seamBand n) (4 * (streamSlotPos (seamBand n) (lodeStreamSlot x 0)).1)

/-- The read operation of a lode. -/
def readOp (v n x pos : Nat) (test : Bool) : MediaOp :=
  { kind := .read, vol := v, seam := n, x := x, layer := seamLayer n, track := lodeTrack n x, pos := pos, test := test }

/-- Let a lode read wait for a slot or for its band, in arbitration order (R226). -/
def State.waitRead (s : State) (o : MediaOp) : State :=
  { s with asy := { s.asy with waiting := insertOp { o with slot := none } s.asy.waiting } }

/-- Let a further read of a lode, which keeps its slot, wait for its band (R226, R241). -/
def State.holdRead (s : State) (o : MediaOp) : State :=
  { s with asy := { s.asy with waiting := insertOp o s.asy.waiting } }

/-- Issue a lode read now, when its band may be served and a slot is held or can be reserved (R226). -/
def State.tryRead (s : State) (o : MediaOp) : Option State :=
  let h := homeHead o.vol o.seam
  if !s.routable h then none
  else if o.slot.isSome then some (s.issue (s.server h) o)
  else
    match s.reserve o.vol o.seam o.x (s.server h) o.pos false o.test with
    | (_, none) => none
    | (t, some y) => some (t.issue (s.server h) { o with slot := some y })

/-- A read of this lode is under way or waits, so that a further read is served by it (R226). -/
def State.readShared (s : State) (v n x : Nat) : Bool :=
  (match s.slotOf v n x with
   | some y => !s.isSet F.ASY_SLOT_ID_VERIFY y
   | none => false) ||
  s.asy.waiting.any fun o => o.vol = v && o.seam = n && o.x = x

/-- Ask for a lode: share a read under way, issue one, or wait (R226). -/
def State.askLode (s : State) (v n x pos : Nat) (test : Bool) : State :=
  if s.readShared v n x then s
  else (s.tryRead (readOp v n x pos test)).getD (s.waitRead (readOp v n x pos test))

/-- Issue the first waiting read that can be issued (R226). -/
def issueFirst (s : State) : List MediaOp → List MediaOp → State × Bool
  | _, [] => (s, false)
  | before, o :: rest =>
    match s.tryRead o with
    | some t => ({ t with asy := { t.asy with waiting := before ++ rest } }, true)
    | none => issueFirst s (before ++ [o]) rest

/-- Issue every waiting read that can be issued, at most n. -/
def issueMany : Nat → State → State
  | 0, s => s
  | n + 1, s =>
    match issueFirst s [] s.asy.waiting with
    | (t, true) => issueMany n t
    | (_, false) => s

/-- Issue the waiting reads of a band whose routing has settled (R15, R18, R26). -/
def State.issueWaiting (s : State) : State := issueMany s.asy.waiting.length s

/-! ### The seam a command addresses -/

/-- The (volume, seam) a host command addresses, for READ, APPEND, WRITE AT and SEAL SEAM (R309). -/
def Cmd.seam? (c : Cmd) : Option (Nat × Nat) :=
  if c.opc = 0x10 ∨ c.opc = 0x12 then some (c.vol, lbaSeam c.lba)
  else if c.opc = 0x11 ∨ c.opc = 0x14 then some (c.vol, c.csf.getD 0 0 % 64)
  else none

/-- The command addresses the band of home head h. -/
def Cmd.onBand (c : Cmd) (h : Nat) : Bool :=
  match c.seam? with
  | some (v, n) => homeHead v n = h
  | none => false

/-- Commands of a band that no head serves complete; its waiting reads are dropped, and recoveries of its write pointers given up
(R16, R462). -/
def State.failBand (s : State) (h : Nat) (st : Status) : State :=
  let s1 := s.finishAll (fun c => c.onBand h) st
  let gone := s1.asy.waiting.filter fun o => homeHead o.vol o.seam = h
  let s2 := s1.forEach gone fun t o => match o.slot with | some y => t.releaseSlot y | none => t
  let s3 : State := { s2 with asy := { s2.asy with waiting := s2.asy.waiting.filter fun o => homeHead o.vol o.seam ≠ h } }
  s3.forEach ((List.range 64).filter fun n => homeHead (deckOfHead h) n = h) fun t n =>
    let x := t.seam (deckOfHead h) n
    if x.recov.isSome && decide (x.recov ≠ some .ended) then t.setSeam (deckOfHead h) n { x with recov := none, best := none } else t

/-! ### Withdrawing and interrupting operations (R118, R462) -/

/-- Put a head's queued operations back: reads wait again without a slot, in their order; a write operation goes back to its
write cycle (R462). -/
def State.withdraw (s : State) (h : Nat) : State :=
  let l := (s.head h).ops
  let s1 := s.setHead h { s.head h with ops := [] }
  s1.forEach l fun t o =>
    match o.slot with
    | some y => (t.releaseSlot y).waitRead o
    | none => t

/-- The operation of head h ends. -/
def State.endOp (s : State) (h : Nat) : State := s.setHead h { s.head h with op := none }

/-- The read operation that holds slot y and is in progress on a head. -/
def State.readerOf (s : State) (y : Nat) : Option Nat :=
  (List.range 32).find? fun h => match (s.head h).op with
    | some o => o.kind == .read && o.slot == some y
    | none => false

/-- The media work on a lode that serves nobody any more is aborted: a read that waits is dropped, one that is queued, in progress or
in its ladder ends, its head's staging is flushed, and the slot is released (R226, R227, R238).
DEDUCED, unsafe: log 112. -/
def State.abortLode (s : State) (v n x : Nat) : State :=
  let mine (o : MediaOp) : Bool := o.kind == .read && o.vol == v && o.seam == n && o.x == x
  let s1 : State := { s with asy := { s.asy with waiting := s.asy.waiting.filter fun o => !mine o } }
  match s.slotOf v n x with
  | none => s1
  | some y =>
    if s.isSet F.ASY_SLOT_ID_VERIFY y then s
    else
      let s2 := match s1.readerOf y with
        | some h => (s1.flushHead h).endOp h
        | none => s1
      let s3 := s2.forEach (List.range 32) fun t h =>
        t.setHead h { t.head h with ops := (t.head h).ops.filter fun o => !mine o }
      s3.releaseSlot y

/-- The operation of head h is interrupted: a read has its lode end (R118, R227). What an interruption does to a write cycle
is in Wrp.lean. -/
def State.interruptRead (s : State) (h : Nat) : State :=
  match (s.head h).op with
  | none => s
  | some o =>
    let s1 := match o.kind, o.slot with
      | .read, some y => (s.lodeEnd y).flushHead h
      | _, _ => s
    if o.kind = .write then s1 else s1.endOp h

/-- The lode of slot y, read by head h, is in its retry ladder. -/
def State.inLadder (s : State) (h y : Nat) : Bool :=
  (s.getF F.ASY_SLOT_STATE y == 2 || s.getF F.ASY_SLOT_STATE y == 3) && !s.isSet F.ASY_SLOT_ID_VERIFY y && (s.slot y).head == h

/-- Takeover releases the slots of the lodes that the failed head has read and whose retry ladder has not ended: they are re-queued
ahead, and a job that runs finds its slot gone (R15, R226, R247). -/
def State.requeueJobs (s : State) (h : Nat) : State :=
  s.forEach ((List.range 96).filter fun y => s.inLadder h y) fun t y =>
    let v := t.getF F.ASY_SLOT_ID_V y
    let n := t.getF F.ASY_SLOT_ID_N y
    let x := t.slot y
    (t.releaseSlot y).waitRead { readOp v n (t.getF F.ASY_SLOT_ID_X y) x.pos x.test with ahead := true }

/-- The read in flight of a failed head is taken from it: its slot is released and it is re-queued ahead of the band's other
operations (R15). -/
def State.requeueRead (s : State) (h : Nat) : State :=
  match (s.head h).op with
  | none => s
  | some o =>
    match o.kind, o.slot with
    | .read, some y => ((s.flushHead h).releaseSlot y).waitRead { o with ahead := true } |>.endOp h
    | _, _ => if o.kind = .write then s else s.endOp h

end Sys2Proof.Machine
end

