-- ==== Sys2Proof/Machine/Sled.lean ====
section
/-!
DEFINITION. The sled axes (07): targets, the profile generator, homing, coil modes, stops. The meanings that call these are in
SledCmds.lean and TickCmds.lean; events that are head-fatal are answered by flag so that the caller can take the head to SAFE.
-/
namespace Sys2Proof.Machine

/-- Axis states (R159). -/
def slOFF : Nat := 0
def slUNHOMED : Nat := 1
def slHOMING : Nat := 2
def slIDLE : Nat := 3
def slMOVING : Nat := 4
def slSTOPPING : Nat := 5
def slFAULT : Nat := 6

/-- One step in units of 2^-32. -/
def oneStep : Int := 4294967296

/-- The state of axis h. -/
def State.axis (s : State) (h : Nat) : Nat := s.getF F.SLD_STATUS_STATE h

/-- An axis. -/
def State.sld (s : State) (h : Nat) : SldS := (s.head h).sld

/-- Write an axis. -/
def State.setSld (s : State) (h : Nat) (x : SldS) : State := s.setHead h { s.head h with sld := x }

/-- Change an axis. -/
def State.updSld (s : State) (h : Nat) (f : SldS → SldS) : State := s.setSld h (f (s.sld h))

/-- Put an axis into a state. -/
def State.setAxis (s : State) (h st : Nat) : State := s.setF F.SLD_STATUS_STATE h st

/-- Whole steps of a position, towards minus infinity. -/
def wholeSteps (p : Int) : Int := p / oneStep

/-- AHARD, AMAX, DMAX in units of 2^-32 (R148). -/
def State.sldAhard (s : State) (h : Nat) : Nat := s.getF F.SLD_AHARD_AHARD h * 256
def State.sldA (s : State) (h : Nat) : Nat := s.getF F.SLD_AMAX_AMAX h * 256
def State.sldD (s : State) (h : Nat) : Nat := s.getF F.SLD_DMAX_DMAX h * 256

/-! ### Targets (R154, R158) -/

/-- Clamp a target to the soft limits once homed; the flag says that it was clamped (R154). -/
def State.softClamp (s : State) (h : Nat) (x : Int) : Int × Bool :=
  if s.isSet F.SLD_STATUS_HOMED h then
    let lo := sgn 32 (s.getF F.SLD_SOFT_MIN_POS h) * oneStep
    let hi := sgn 32 (s.getF F.SLD_SOFT_MAX_POS h) * oneStep
    let y := clampI lo hi x
    (y, decide (y ≠ x))
  else (x, false)

/-- Give an axis a new target (R154). -/
def State.setTarget (s : State) (h : Nat) (x : Int) : State :=
  let c := s.softClamp h x
  (s.updSld h fun a => { a with x := c.1 }).onlyIf c.2 fun t => t.raiseSld E.SLD_SOFT_LIMIT h

/-- The park position. -/
def State.parkPos (s : State) (h : Nat) : Int := sgn 32 (s.getF F.SLD_PARK_POS h) * oneStep

/-- The axis may take targets. -/
def State.axisTakes (s : State) (h : Nat) : Bool := s.axis h = slIDLE || s.axis h = slMOVING

/-- The nearest whole step to a position. -/
def nearStep (p : Int) : Int := (p + oneStep / 2) / oneStep * oneStep

/-- The stopping point of a sled at deceleration D, a whole number of steps, rounded away from p (R157, R159); at rest it is the
step nearest to p, and with D = 0 the next step.
DESIGN CHOICE, unsafe: log 108. -/
def stopPoint (d : Nat) (p v : Int) : Int :=
  let far := if d = 0 then p else p + sgnI v * (ceilDiv (v.natAbs * v.natAbs) (2 * d) : Nat)
  if v = 0 then nearStep p else if 0 < v then -(-far / oneStep) * oneStep else far / oneStep * oneStep

/-! ### Coil modes (R155) -/

/-- Coil mode (R76) and current amplitude, 2^-12 of full scale (R155). -/
def State.coils (s : State) (h : Nat) : Nat × Nat :=
  let a := s.sld h
  let st := s.axis h
  let run := s.getF F.SLD_CUR_RUN h
  if st = slMOVING || st = slHOMING || st = slSTOPPING then (0, run)
  else if st = slIDLE then
    if a.rest < s.getF F.SLD_CUR_DELAY h then (0, run)
    else if a.short then (2, 0)
    else
      match s.getF F.SLD_CTL_STILL h with
      | 1 => (1, 0)
      | 2 => (2, 0)
      | _ => (0, s.getF F.SLD_CUR_HOLD h)
  else if st = slFAULT then (2, 0)
  else (1, 0)

/-! ### Entering states (R159) -/

/-- Pending targets are discarded when the axis leaves IDLE and MOVING, a seek target with them (R158); a request of the Collier
is discarded where it arrives (R154). -/
def SldS.dropPend (a : SldS) : SldS := { a with pend := none, rise := none, rel := none }

/-- A move begins: its events may be raised again (R150), the jerk limit applies (R151), and coils that are off or shorted are
energised for one profile tick first (R155). -/
def State.beginMove (s : State) (h : Nat) : State :=
  if s.axis h = slMOVING then s
  else
    let cold := (s.coils h).1 != 0
    (s.updSld h fun a =>
      { a with raised := false, limited := false, passed := false, lifted := false, rest := 0, cold := cold }).setAxis h slMOVING

/-- Begin a move towards the park position; after arrival the coils are shorted if the head is in SAFE (R159). -/
def State.toPark (s : State) (h : Nat) (short : Bool) : State :=
  ((s.setTarget h (s.parkPos h)).beginMove h).updSld h fun a => { a with short := a.short || short }

/-- The axis enters FAULT with a fixed stop (R159, R160). -/
def State.axisFault (s : State) (h : Nat) : State :=
  ((s.updSld h fun a => { a.dropPend with fixed := true, faultAt := some s.tick }).setAxis h slFAULT).setF F.SLD_STATUS_PHASE h 0

/-- The axis goes to OFF: coils off, HOMED cleared (R159). What the state held is kept for an overrun of the same tick, which
prevails. -/
def State.axisOff (s : State) (h : Nat) : State :=
  let was := s.isSet F.SLD_STATUS_HOMED h
  let off (a : SldS) : SldS := {
    a.dropPend with
    v := 0, a := 0, fixed := false, short := false, cold := false, offAt := some (s.tick, a.v, was) }
  (((s.updSld h off).setAxis h slOFF).setB F.SLD_STATUS_HOMED h false).setF F.SLD_STATUS_PHASE h 0

/-- A profile overrun: FAULT prevails over OFF entered in the same tick (R38, R159). -/
def State.axisOverrun (s : State) (h : Nat) : State :=
  match s.axis h == slOFF, (s.sld h).offAt with
  | true, some (k, v, was) =>
    if k = s.tick then ((s.updSld h fun a => { a with v := v }).setB F.SLD_STATUS_HOMED h was).axisFault h else s
  | true, none => s
  | false, _ => s.axisFault h

/-- The axis leaves OFF when EN is set and the head is not OFF (R159). -/
def State.axisOn (s : State) (h : Nat) : State :=
  if s.axis h = slOFF && s.isSet F.SLD_CTL_EN h && s.clr h != hdOFF then
    let fresh (a : SldS) : SldS := {
      a.dropPend with
      p := 0, x := 0, v := 0, a := 0, sigma := 0, pOld := 0, fixed := false, short := false, cold := false, rest := 1000 }
    (s.updSld h fresh).setAxis h slUNHOMED
  else s

/-- The head enters PARKED: the axis moves to its park position (R159). -/
def State.axisHeadParked (s : State) (h : Nat) : State := if s.axisTakes h then s.toPark h false else s

/-- The head enters SAFE (R159). -/
def State.axisHeadSafe (s : State) (h : Nat) : State :=
  if s.axisTakes h then s.toPark h true
  else if s.axis h = slUNHOMED || s.axis h = slHOMING || s.axis h = slSTOPPING then s.axisFault h
  else s

/-- The head enters OFF. -/
def State.axisHeadOff (s : State) (h : Nat) : State := if s.axis h = slOFF then s else s.axisOff h

/-! ### The profile generator (R150, R151) -/

/-- What one profile step of a move decides. -/
structure ProfStep where
  p : Int
  v : Int
  a : Int
  arrived : Bool := false
  raised : Bool := false
  limited : Bool := false
  passed : Bool := false

/-- The largest acceleration from 0 to `lim` that still allows a stop at the target (R150), by halving `bits` times. -/
def accelSearch (e vr d : Nat) : Nat → Nat → Nat → Nat
  | 0, lo, _ => lo
  | n + 1, lo, hi =>
    let m := (lo + hi + 1) / 2
    let q := (vr + m) * (vr + m) / (2 * d)
    if m ≤ hi ∧ 2 * q + 2 * vr + m ≤ 2 * e then accelSearch e vr d n m hi
    else accelSearch e vr d n lo (m - 1)

/-- The distance of the jerk-limited stop begun from speed v0 and acceleration a0 (along the motion): the acceleration goes to
-D at J per tick, stays there, and ends when the speed is 0 (R151). -/
def jerkStop (d j : Nat) (v0 : Nat) (a0 : Int) : Nat :=
  if j = 0 ∨ d = 0 then v0 * v0 / (2 * d)
  else
    let jj : Int := (j : Nat)
    let v : Int := (v0 : Nat)
    let t : Int := a0 + (d : Nat)
    if 0 ≤ t then
      let v1 := 2 * v * jj + 2 * a0 * t - t * t
      if 0 ≤ v1 then
        let d1 := 6 * v * t * jj + 3 * a0 * t * t - t * t * t
        ((4 * (d : Nat) * d1 + 3 * v1 * v1) / (24 * jj * jj * (d : Nat))).toNat
      else
        let u : Int := a0 + (Nat.sqrt (a0 * a0 + 2 * jj * v).toNat : Nat)
        ((6 * v * u * jj + 3 * a0 * u * u - u * u * u) / (6 * jj * jj)).toNat
    else
      let u := -t
      let v1 := 2 * v * jj + 2 * a0 * u + u * u
      if 0 ≤ v1 then
        let d1 := 6 * v * u * jj + 3 * a0 * u * u + u * u * u
        ((4 * (d : Nat) * d1 + 3 * v1 * v1) / (24 * jj * jj * (d : Nat))).toNat
      else
        let w : Int := (a0.natAbs : Nat) - (Nat.sqrt (a0 * a0 - 2 * jj * v).toNat : Nat)
        ((6 * v * w * jj + 3 * a0 * w * w + w * w * w) / (6 * jj * jj)).toNat

/-- The acceleration R150 selects, with the stopping distance given (R150, R151); arrival and reversal are apart. -/
def profAccel (e : Int) (vr stopDist a d ahard vmax : Nat) (noOver : Bool) : Int × Bool × Bool × Bool :=
  let sg := sgnI e
  let en := e.natAbs
  if en < vr + stopDist then
    let areq := ceilDiv (vr * vr) (2 * en)
    if areq ≤ d then (-sg * (areq : Nat), false, false, false)
    else if noOver && decide (areq ≤ ahard) then (-sg * (areq : Nat), true, false, false)
    else if noOver then (-sg * (ahard : Nat), false, true, false)
    else (-sg * (d : Nat), false, false, true)
  else if vmax < vr then (-sg * (min d (vr - vmax) : Nat), false, false, false)
  else (sg * (accelSearch en vr d 48 0 (min a (vmax - vr)) : Nat), false, false, false)

/-- One profile step of a move (R150, R151). -/
def profStep (x : SldS) (a d ahard vmax jmax : Nat) (sCurve noOver : Bool) : ProfStep :=
  let e := x.x - x.p
  let sg := sgnI e
  let vr := x.v.natAbs
  if e.natAbs ≤ vr ∧ vr ≤ d ∧ (x.v = 0 ∨ sgnI x.v = sg) then { p := x.x, v := 0, a := 0, arrived := true }
  else
    let useJ := sCurve && !x.lifted
    let star : Int × Bool × Bool × Bool :=
      if x.v ≠ 0 ∧ sgnI x.v ≠ sg then (-(sgnI x.v) * (min d vr : Nat), false, false, false)
      else profAccel e vr (if useJ then jerkStop d jmax vr (x.a * sgnI x.v) else vr * vr / (2 * d)) a d ahard vmax noOver
    let acc := if useJ && !(star.2.1 || star.2.2.1) then clampI (x.a - (jmax : Nat)) (x.a + (jmax : Nat)) star.1 else star.1
    { p := x.p + x.v + Int.tdiv acc 2, v := x.v + acc, a := acc, raised := star.2.1, limited := star.2.2.1, passed := star.2.2.2 }

/-- One step of a fixed stop (R160). -/
def fixedStep (x : SldS) (ahard : Nat) : SldS :=
  let acc := -(sgnI x.v) * (min ahard x.v.natAbs : Nat)
  { x with p := x.p + x.v + Int.tdiv acc 2, v := x.v + acc, a := acc, fixed := decide (x.v + acc ≠ 0) }

/-- a_h as delivered for R111: sat(a / AHARD) in S0.23, one LSB for a cruising sled (R153). -/
def deliveredAcc (a v : Int) (ahard : Nat) (moving : Bool) : Int :=
  if moving && a == 0 then sgnI v
  else if ahard = 0 then 0 else sat23 (divRnd (a * 8388608) ahard)

/-- Speed limit of a move: VMAX, or the homing speeds (R150, R157), in 2^-32. -/
def State.sldVmax (s : State) (h : Nat) : Nat :=
  if s.axis h = slHOMING then
    let v := s.getF F.SLD_HOME_CTL_HOME_V h * 2 ^ 24
    if s.getF F.SLD_STATUS_PHASE h = 4 then v / 4 else v
  else s.getF F.SLD_VMAX_VMAX h * 2 ^ 24

/-- The events of a profile step, each at most once in a move (R150). -/
def State.profEvents (s : State) (h : Nat) (r : ProfStep) : State :=
  let a := s.sld h
  let s1 := s.onlyIf (r.raised && !a.raised) fun t => t.raiseSld E.SLD_DECEL_RAISED h
  let s2 := s1.onlyIf (r.limited && !a.limited) fun t => t.raiseSld E.SLD_DECEL_LIMIT h
  let s3 := s2.onlyIf (r.passed && !a.passed) fun t => t.raiseSld E.SLD_OVERSHOOT h
  s3.updSld h fun a => { a with raised := a.raised || r.raised, limited := a.limited || r.limited, passed := a.passed || r.passed,
                                lifted := a.lifted || r.raised || r.limited }

/-- Run the profile step of axis h, in homing by the rule of R150 (R157); the answer says whether it arrived. -/
def State.runProfile (s : State) (h : Nat) : State × Bool :=
  let a := s.sld h
  let r := profStep a (s.sldA h) (s.sldD h) (s.sldAhard h) (s.sldVmax h) (s.getF F.SLD_JMAX_JMAX h)
    (s.isSet F.SLD_CTL_PROFILE h && s.axis h != slHOMING) (s.isSet F.SLD_CTL_NO_OVERSHOOT h)
  ((s.profEvents h r).updSld h fun b => { b with p := r.p, v := r.v, a := r.a }, r.arrived)

/-! ### Homing (R157) -/

/-- The direction towards the switch. -/
def State.homeDir (s : State) (h : Nat) : Int := if s.isSet F.SLD_GEOM_HOME_DIR h then 1 else -1

/-- HOME_RANGE in units of 2^-32. -/
def State.homeRange (s : State) (h : Nat) : Int := (s.getF F.SLD_HOME_RANGE_STEPS h : Nat) * oneStep

/-- Set the phase of homing and its target. -/
def State.homePhase (s : State) (h ph : Nat) (x : Int) (trip : Bool) : State :=
  (s.setF F.SLD_STATUS_PHASE h ph).updSld h fun a => { a with x := x, trip := trip }

/-- Start homing (R157, R159). -/
def State.startHoming (s : State) (h : Nat) : State :=
  if s.axis h = slUNHOMED then
    let fresh (a : SldS) : SldS := {
      a with
      travel := 0, time := 0, waived := (false, false), trans := [], raised := false, limited := false, passed := false,
      lifted := false }
    let s1 := (s.updSld h fresh).setAxis h slHOMING
    let p := nearStep (s.sld h).p
    if s.isSet F.SLD_STATUS_SWITCH h then s1.homePhase h 1 (p - s.homeDir h * s.homeRange h) false
    else s1.homePhase h 2 (p + s.homeDir h * s.homeRange h) false
  else s

/-- The steps travelled in a homing that ends (R161). -/
def State.homeTravel (s : State) (h : Nat) : State :=
  s.setF F.SLD_HOME_STATUS_TRAVEL h (min 16777215 ((s.sld h).travel / oneStep).toNat)

/-- Homing fails: HOME_FAIL, fixed stop, FAULT (R157); the event is head-fatal, which the caller acts on. -/
def State.homeFail (s : State) (h : Nat) : State := ((s.homeTravel h).raiseSld E.SLD_HOME_FAIL h).axisFault h

/-- An arrival during homing (R157); the flag says that homing failed. A target HOME_RANGE away ends no phase. -/
def State.homeArrive (s : State) (h : Nat) : State × Bool :=
  let a := s.sld h
  let dir := s.homeDir h
  match s.getF F.SLD_STATUS_PHASE h with
  | 1 => (if a.trip then s.homePhase h 2 (nearStep a.p + dir * s.homeRange h) false else s, false)
  | 3 =>
    if a.trip then (s.homePhase h 3 (nearStep a.p - dir * 200 * oneStep) false, false)
    else if s.isSet F.SLD_STATUS_SWITCH h then (s.homeFail h, true)
    else (s.homePhase h 4 (nearStep a.p + dir * s.homeRange h) false, false)
  | 5 =>
    let s1 := ((s.setB F.SLD_STATUS_HOMED h true).raiseSld E.SLD_HOME_DONE h).setF F.SLD_STATUS_PHASE h 0
    ((s1.homeTravel h).toPark h false, false)
  | _ => (s, false)

/-- The travel and the time of homing are used up; the second flag of each pair says that this profile tick used them up (R157). -/
def State.travelOver (s : State) (h : Nat) : Bool × Bool :=
  let a := s.sld h
  let spent := decide (s.homeRange h < a.travel)
  (spent, spent && decide (a.travel ≤ s.homeRange h + ((a.p - a.pOld).natAbs : Nat)))
def State.timeOver (s : State) (h : Nat) : Bool × Bool :=
  let lim := 16 * s.getF F.SLD_HOME_TMO_TMO h
  (decide (lim < (s.sld h).time), decide ((s.sld h).time = lim + 1))

/-- A debounced trip in the tick in which a limit expires counts as found: that limit no longer ends this homing (R157).
DEDUCED, unsafe: log 109. -/
def State.homeFound (s : State) (h : Nat) : State :=
  s.updSld h fun a => { a with waived := (a.waived.1 || (s.travelOver h).2, a.waived.2 || (s.timeOver h).2) }

/-- A debounced trip or release during homing (R157). -/
def State.homeSwitch (s : State) (h : Nat) (active : Bool) : State :=
  let a := s.sld h
  match s.getF F.SLD_STATUS_PHASE h, active with
  | 1, false => s.updSld h fun a => { a with x := nearStep a.p - s.homeDir h * 200 * oneStep, trip := true }
  | 2, true => (s.homeFound h).homePhase h 3 (stopPoint (s.sldD h) a.p a.v) true
  | 4, true =>
    let shift := sgn 32 (s.getF F.SLD_HOME_POS_POS h) * oneStep - a.edge
    let s1 := (s.homeFound h).updSld h fun a =>
      { a with p := a.p + shift, pOld := a.pOld + shift, sigma := a.sigma + shift }
    s1.homePhase h 5 (stopPoint (s.sldD h) (s1.sld h).p a.v) false
  | _, _ => s

/-- Homing has used up its travel or its time (R157). -/
def State.homeExpired (s : State) (h : Nat) : Bool :=
  s.axis h = slHOMING && ((s.travelOver h).1 && !(s.sld h).waived.1 || (s.timeOver h).1 && !(s.sld h).waived.2)

/-! ### One profile tick of an axis (R149 to R160) -/

/-- Take the targets that arrived: the group's, the Collier's request, a seek (R154, R158). -/
def State.takeTargets (s : State) (h : Nat) : State :=
  let a := s.sld h
  if s.axisTakes h then
    let s1 := match a.rise with
      | some x => (s.setTarget h x).updSld h fun a => { a with rise := none }
      | none => s
    let steps : Int := (max 1 (s.getF F.SLD_FOLLOW_STEPS h) : Nat)
    let s2 := if a.req = 0 then s1
      else ((s1.setTarget h ((s1.sld h).x + a.req * steps * oneStep)).count F.SLD_FOLLOW_DONE h).updSld h fun a => { a with req := 0 }
    match a.rel with
    | none => s2
    | some n =>
      let k := divRnd (n * 240000) (s.getF F.SLD_GEOM_STEP_PM h)
      (s2.setTarget h ((s2.sld h).x + k * oneStep)).updSld h fun a => { a with rel := none }
  else
    let s1 := if a.req = 0 then s else (s.count F.SLD_FOLLOW_DISCARDS h).raiseSld E.SLD_FOLLOW_DISCARD h
    s1.updSld h fun a => { a with req := 0, rel := none }

/-- Deliver a_h (R153). -/
def State.deliverAcc (s : State) (h : Nat) : State :=
  let a := s.sld h
  s.setF F.SLD_ACC_A h (unsgn 24 (deliveredAcc a.a a.v (s.sldAhard h) (s.axis h = slMOVING)))

/-- The profile step of one axis; the flag says that a head-fatal homing failure occurred. -/
def State.axisStep (s : State) (h : Nat) : State × Bool :=
  let s0 := (s.updSld h fun a => { a with pOld := a.p }).takeTargets h
  let a := s0.sld h
  if a.fixed then
    let s1 := s0.setSld h (fixedStep a (s.sldAhard h))
    let s2 := if s1.axis h = slSTOPPING && (s1.sld h).v == 0 then s1.setAxis h slUNHOMED else s1
    (s2.deliverAcc h, false)
  else if s0.axis h = slIDLE || s0.axis h = slMOVING then
    if s0.axis h = slIDLE && a.x == a.p then ((s0.updSld h fun a => { a with rest := min (a.rest + 1) 1000 }).deliverAcc h, false)
    else
      let s1 := s0.beginMove h
      if (s1.sld h).cold then ((s1.updSld h fun a => { a with cold := false }).deliverAcc h, false)
      else
        let r := s1.runProfile h
        let s2 := if r.2 then (r.1.setAxis h slIDLE).updSld h fun a => { a with rest := 0 } else r.1
        (s2.deliverAcc h, false)
  else if s0.axis h = slHOMING then
    let r := s0.runProfile h
    let moved := ((r.1.sld h).p - a.p).natAbs
    let s1 := r.1.updSld h fun a => { a with travel := a.travel + (moved : Nat), time := a.time + 1 }
    let q := if r.2 then s1.homeArrive h else (s1, false)
    (q.1.deliverAcc h, q.2)
  else ((s0.updSld h fun a => { a with a := 0 }).deliverAcc h, false)

/-! ### Phase currents (R149) -/

/-- Steps of one electrical turn: 4 MICRO (R149). -/
def State.elecSteps (s : State) (h : Nat) : Nat := 4 * 32 * 2 ^ s.getF F.SLD_GEOM_MICRO h

/-- The position at the servo tick of the next DRIVE item: t of 20 between profile ticks (R149). -/
def State.sledPosAt (s : State) (h t : Nat) : Int :=
  let a := s.sld h
  a.pOld + (a.p - a.pOld) * (t : Nat) / 20

/-- SLED_A and SLED_B, in S0.15 two's complement, and SLED_MODE (R76, R149), with the WIRE items of R363. -/
def State.sledDrive (s : State) (h t : Nat) : Nat × Nat × Nat :=
  let c := s.coils h
  let n := s.elecSteps h
  let k0 := (wholeSteps (s.sledPosAt h t - (s.sld h).sigma) % (n : Nat)).toNat
  let k := if (s.sld h).invert then (n - k0) % n else k0
  let cur (z : Int) : Nat := unsgn 16 (clampI (-32768) 32767 (divRnd ((c.2 * 8 : Nat) * z) (2 ^ 60)))
  if (s.sld h).swap then (cur (sinTurn k n), cur (cosTurn k n), c.1) else (cur (cosTurn k n), cur (sinTurn k n), c.1)

/-! ### The limit switch (R156) -/

/-- A raw sample of the limit switch in a servo tick: `v` is the level, none when the STATUS item is absent. -/
def State.limitSample (s : State) (h : Nat) (v : Option Bool) : State :=
  let was := s.isSet F.SLD_STATUS_RAW h
  let now := v.getD was
  let t := s.tick % 20
  if now = was then s.updSld h fun a => { a with run := a.run + 1 }
  else
    let pos := s.sledPosAt h (if t = 0 then 20 else t)
    (s.setB F.SLD_STATUS_RAW h now).updSld h fun a => { a with run := 1, edge := pos, trans := s.tick :: a.trans.take 15 }

/-- DEB as it acts (R161). -/
def State.sldDeb (s : State) (h : Nat) : Nat := max 1 (s.getF F.SLD_HOME_CTL_DEB h)

/-- Raw transitions within the last DEB ticks. -/
def State.chatterCount (s : State) (h : Nat) : Nat :=
  ((s.sld h).trans.filter fun k => s.tick < k + s.sldDeb h).length

/-- Home chatter ends homing (R156, R157); the flag says that it did (head-fatal). -/
def State.chatter (s : State) (h : Nat) : State × Bool :=
  if s.axis h = slHOMING then
    let n := s.chatterCount h
    let s1 := s.keepMax F.SLD_HOME_STATUS_TRANS h n
    if 6 < n then (((s1.homeTravel h).raiseSld E.SLD_HOME_CHATTER h).axisFault h, true) else (s1, false)
  else (s, false)

end Sys2Proof.Machine
end

