-- ==== Sys2Proof/Machine/Lrn.lean ====
section
/-!
DEFINITION. The runout learners (06): scaling, injection, the update eight ticks later, freezing, clearing and seeding.
Tables are indexed 2 h + i (head, loop); entries 1024 (2 h + i) + j.
-/
namespace Sys2Proof.Machine

/-- The learner pair of head h. -/
def State.lrn (s : State) (h : Nat) : LrnS := (s.head h).lrn

/-- Change a learner pair. -/
def State.updLrn (s : State) (h : Nat) (f : LrnS → LrnS) : State :=
  s.setHead h { s.head h with lrn := f (s.head h).lrn }

/-- A learner table's state. -/
def State.lrnLoop (s : State) (h i : Nat) : LrnLoopS := vget (s.lrn h).loops {} i

/-- Change a learner table's state. -/
def State.updLrnLoop (s : State) (h i : Nat) (f : LrnLoopS → LrnLoopS) : State :=
  s.updLrn h fun l => { l with loops := vset l.loops i (f (vget l.loops {} i)) }

/-- The instance of a loop's registers and of its entry j. -/
def lrnIdx (h i : Nat) : Nat := 2 * h + i
def lrnEntryIdx (h i j : Nat) : Nat := 1024 * lrnIdx h i + j % 1024

/-- Learning is enabled for loop i of head h. -/
def State.learnOn (s : State) (h i : Nat) : Bool := s.bitF F.LRN_CTL_LEARN h i

/-- FADE and SEED_MIN as they act (R146). -/
def State.lrnFade (s : State) (h : Nat) : Nat := max 1 (s.getF F.LRN_CTL_FADE h)
def State.seedMin (s : State) (h : Nat) : Nat := max 1 (s.getF F.LRN_CTL_SEED_MIN h)

/-- The deck's angle and angle-valid flag (R6, R171). -/
def State.angleValid (s : State) (d : Nat) : Bool := s.isSet F.WND_STATUS_ANGLE_VALID d
def State.theta (s : State) (d : Nat) : Nat := s.getF F.WND_ANGLE_THETA d
def State.dtheta (s : State) (d : Nat) : Nat := s.getF F.WND_DTHETA_DTHETA d

/-! ### Entries (R136, R144) -/

/-- Read entry j of a table: an uncorrectable entry is taken as 0 and reported (R136). -/
def State.lrnRead (s : State) (h i j : Nat) : State × Int :=
  match s.readEntry R.LRN_ENTRY (lrnEntryIdx h i j) with
  | (t, some w) => (t, sgn 32 w)
  | (t, none) => (t.raise E.LRN_ECC h, 0)

/-- Write entry j of a table. -/
def State.lrnWrite (s : State) (h i j : Nat) (w : Int) : State :=
  s.putEntry R.LRN_ENTRY (lrnEntryIdx h i j) (unsgn 32 w)

/-- Note a saturation of an entry or a scale (R128, R131). -/
def State.lrnSat (s : State) (h i : Nat) : State :=
  (s.setB F.LRN_LOOP_STATUS_SAT (lrnIdx h i) true).raise E.LRN_SAT h

/-! ### Scales (R128) -/

/-- The product of two S2.21 factors, reduced by the rule of R100; the flag says that it saturated. -/
def mul21 (a b : Int × Bool) : Int × Bool :=
  let p := rnd 21 (a.1 * b.1)
  (satS 24 p, a.2 || b.2 || decide (satS 24 p ≠ p))

/-- A factor to the power 0, 1 or 2. -/
def pow21 (r : Int × Bool) (p : Nat) (a : Int × Bool) : Int × Bool :=
  if p = 0 then a else if p = 1 then mul21 a r else mul21 (mul21 a r) r

/-- 1 / rho in S2.21. -/
def recip21 (rho : Int) : Int × Bool :=
  let q := divRnd (2 ^ 42) rho.natAbs
  (satS 24 q, decide (rho ≤ 0 ∨ satS 24 q ≠ q))

/-- A scale table entry: GAIN and RECIP. -/
def State.scaleEntry (s : State) (i e : Nat) : State × Int × Int :=
  let x := s.readEntryFree R.LRN_SCALE (40 * i + e)
  (x.1, sgn 24 (x.2 % 2 ^ 24), sgn 24 (x.2 / 2 ^ 32))

/-- SPD_EXP of a loop. -/
def State.spdExp (s : State) (h i : Nat) : Nat :=
  if i = 0 then s.getF F.LRN_SPD_CTL_SPD_EXP_F h else s.getF F.LRN_SPD_CTL_SPD_EXP_T h

/-- G and R of a loop in this tick (R128). -/
def State.lrnScale (s : State) (h i : Nat) : State × Int × Int :=
  let a := s.scaleEntry i (s.getF F.CLR_POS_ZONE h)
  let b := a.1.scaleEntry i (24 + s.getF F.CLR_POS_LAYER h)
  let rho := (s.lrn h).rho
  let p := s.spdExp h i
  let g := pow21 (rho, false) p (mul21 (a.2.1, false) (b.2.1, false))
  let r := pow21 (recip21 rho) p (mul21 (a.2.2, false) (b.2.2, false))
  (b.1.onlyIf (g.2 || r.2) fun t => t.lrnSat h i, g.1, r.1)

/-- The speed ratio from the observer speed (U8.16 counts per tick) and REF_RPM, in 2^-21 (R127, R128): it may lie beyond S2.21;
the products taken with it saturate and say so. -/
def rhoOf (dth ref : Nat) : Int := divRnd ((dth * 24000000 * 2 ^ 21 : Nat) : Int) (2 ^ 32 * max 1 ref)

/-! ### Injection (R129, R130) -/

/-- The angle of this tick goes on: delivered, or continued by the learner (R130). -/
def State.lrnAngle (s : State) (h : Nat) : State :=
  let d := deckOfHead h
  let v := s.angleValid d
  let s1 := s.updLrn h fun l =>
    if v then { l with xTheta := s.theta d * 65536, xDtheta := s.dtheta d, wasValid := true }
    else { l with xTheta := (l.xTheta + l.xDtheta) % 2 ^ 32, wasValid := false }
  (s1.setB F.LRN_STATUS_XTRAP h (!v)).onlyIf ((s.lrn h).wasValid && !v) fun t => t.raise E.LRN_ANGLE_FADE h

/-- The fade count of a loop in this tick (R130): 0 through a copy, down by one while the angle is not valid, up by one after
either until it reaches FADE; else it is FADE. -/
def LrnLoopS.fadeStep (l : LrnLoopS) (valid : Bool) (fade : Nat) : LrnLoopS :=
  if l.copy.isSome then { l with n := 0, ramp := true }
  else if !valid then { l with n := min fade l.n - 1, ramp := true }
  else if l.ramp then { l with n := min fade (l.n + 1), ramp := decide (l.n + 1 < fade) }
  else { l with n := fade }

/-- The fade counts of a loop go on by a tick. -/
def State.lrnFadeStep (s : State) (h i : Nat) : State :=
  s.updLrnLoop h i fun l => l.fadeStep (s.angleValid (deckOfHead h)) (s.lrnFade h)

/-- The fade count that acts: 0 while the table is EMPTY. -/
def State.fadeN (s : State) (h i : Nat) : Nat :=
  if s.isSet F.LRN_LOOP_STATUS_EMPTY (lrnIdx h i) then 0 else (s.lrnLoop h i).n

/-- The angle, head angle and bin of the injection: theta in 2^-16 counts, lead in quarter ticks (R129). -/
def injPsi (xTheta dth lead mount : Nat) : Nat :=
  ((4 * xTheta + dth * (8 + lead)) / 2 ^ 18 + 65536 - mount % 65536) % 65536

/-- The injection of a loop from its two entries (R129). -/
def injValue (g w0 w1 : Int) (fr n fade : Nat) : Int :=
  let v := 64 * w0 + (fr : Int) * (w1 - w0)
  divRnd (sat23 (rnd 35 (g * v)) * (n : Nat)) fade

/-- Compute a loop's injection for the next Collier tick. -/
def State.lrnInject (s : State) (h i : Nat) (g : Int) : State :=
  let l := s.lrn h
  let psi := injPsi l.xTheta l.xDtheta (s.getF F.LRN_GAIN_LEAD (lrnIdx h i)) (s.getF F.LRN_MOUNT_MOUNT h)
  let a := s.lrnRead h i (psi / 64)
  let b := a.1.lrnRead h i (psi / 64 + 1)
  let v := injValue g a.2 b.2 (psi % 64) (s.fadeN h i) (s.lrnFade h)
  (b.1.setF F.LRN_INJ_LRN (lrnIdx h i) (unsgn 24 v)).setF F.LRN_STATUS_PSI h psi

/-! ### Learning (R131 to R135) -/

/-- The window of a defect or shock tick d covers m (R135). -/
def blanked (pre post : Nat) (ticks : List Nat) (m : Nat) : Bool := ticks.any fun d => d ≤ m + pre && m ≤ d + post

/-- The end of a learning revolution (R132, R133). -/
def State.lrnRevEnd (s : State) (h i : Nat) : State :=
  let r := (s.lrnLoop h i).rev
  let k := lrnIdx h i
  let bins := ((List.range 1024).filter fun b => r.bins.testBit b).length
  let s1 := if 768 ≤ bins then
      (s.count F.LRN_LOOP_STATUS_REVS k).setF F.LRN_LOOP_STATUS_RESID k
        (min 32767 (divRnd (r.sumG : Nat) (256 * max 1 r.cnt)).toNat)
    else s
  s1.updLrnLoop h i fun l => { l with rev := { l.rev with bins := 0, sumG := 0, cnt := 0 } }

/-- Saturate to S0.31. -/
def sat31 (z : Int) : Int := satS 32 z

/-- The fields an update may change (R131 to R133). -/
def lrnUndoFields : List Field :=
  [F.LRN_LOOP_STATUS_REVS, F.LRN_LOOP_STATUS_RESID, F.LRN_LOOP_STATUS_EMPTY, F.LRN_LOOP_STATUS_SAT, F.LRN_EVT_SAT, F.LRN_EVT_ECC,
   F.LRN_ENTRY_W]

/-- What an update may change, as it stands (for R136). -/
def State.lrnUndo (s : State) (h i j : Nat) : List RegCell :=
  let k := lrnIdx h i
  ([F.LRN_LOOP_STATUS_REVS, F.LRN_LOOP_STATUS_RESID, F.LRN_LOOP_STATUS_EMPTY, F.LRN_LOOP_STATUS_SAT].map fun f =>
    ⟨f, k, s.getF f k⟩) ++
  [⟨F.LRN_EVT_SAT, h, s.getF F.LRN_EVT_SAT h⟩, ⟨F.LRN_EVT_ECC, h, s.getF F.LRN_EVT_ECC h⟩,
   ⟨F.LRN_ENTRY_W, lrnEntryIdx h i j, s.getF F.LRN_ENTRY_W (lrnEntryIdx h i j)⟩,
   ⟨F.LRN_ENTRY_W, lrnEntryIdx h i (j + 1), s.getF F.LRN_ENTRY_W (lrnEntryIdx h i (j + 1))⟩]

/-- The stored checks of the two entries an update may rewrite, as they stand (for R136). -/
def State.lrnUndoChk (s : State) (h i j : Nat) : List (Nat × Nat) :=
  let a := R.LRN_ENTRY.addr (lrnEntryIdx h i j)
  let b := R.LRN_ENTRY.addr (lrnEntryIdx h i (j + 1))
  s.mem.badChk.filter fun c => c.1 = a || c.1 = b

/-- Execute an update (R131, R132). -/
def State.lrnUpdate (s : State) (h i : Nat) (m : LrnTick) : State :=
  let k := lrnIdx h i
  let psi := ((m.theta * 65536 + m.dtheta) / 65536 + 65536 - s.getF F.LRN_MOUNT_MOUNT h % 65536) % 65536
  let j := psi / 64
  let fr := psi % 64
  let undo := s.lrnUndo h i j
  let chk := s.lrnUndoChk h i j
  let rev0 := (s.lrnLoop h i).rev
  let s1 := if rev0.lastPsi.any fun p => psi < p then s.lrnRevEnd h i else s
  let g := sat23 (red (m.r * m.e))
  let mu := s.getF F.LRN_GAIN_MU k
  let sh := s.getF F.LRN_GAIN_FSHIFT k
  let first := !((s1.lrnLoop h i).rev.bins.testBit j)
  let a := s1.lrnRead h i j
  let b := a.1.lrnRead h i (j + 1)
  let w0 := if first ∧ sh ≠ 0 then a.2 - a.2 / (2 ^ sh : Nat) else a.2
  let inc (f : Nat) : Int := rnd 36 (((mu * m.dtheta * f : Nat) : Int) * g)
  let x0 := w0 + inc (64 - fr)
  let x1 := b.2 + inc fr
  let s2 := (b.1.lrnWrite h i j (sat31 x0)).lrnWrite h i (j + 1) (sat31 x1)
  let s3 := s2.onlyIf (decide (sat31 x0 ≠ x0 ∨ sat31 x1 ≠ x1)) fun t => t.lrnSat h i
  let s4 := s3.setB F.LRN_LOOP_STATUS_EMPTY k false
  s4.updLrnLoop h i fun l => {
    l with
    undo := undo, undoChk := chk, prevRev := rev0,
    rev := { lastPsi := some psi, bins := putBit l.rev.bins j true, sumG := l.rev.sumG + g.natAbs, cnt := l.rev.cnt + 1 } }

/-- The update of this window: the tick eight ticks ago, unless it is frozen (R131, R134) or the table is being filled (R138). -/
def State.lrnLearn (s : State) (h i : Nat) : State :=
  let l := s.lrnLoop h i
  let pre := min 8 (s.getF F.LRN_DEF_CTL_PRE h)
  let post := s.getF F.LRN_DEF_CTL_POST h
  let m := l.hist[8]?
  let run := match m with
    | none => false
    | some m => !m.frozen && l.copy.isNone && !blanked pre post (s.lrn h).blank m.tick
  let s1 := (s.updLrnLoop h i fun l => { l with undo := [], undoChk := [], prevRev := l.rev, hist := l.hist.take 8 }).putF
    F.LRN_STATUS_FROZEN h i (!run)
  match m, run with
  | some m, true => s1.lrnUpdate h i m
  | _, _ => s1

/-- A field as it stood before a skipped update: a flag the update may have raised is only put back to clear, since software may
have cleared it in the meantime. -/
def State.undoCell (s : State) (c : RegCell) : State :=
  if [F.LRN_EVT_SAT, F.LRN_EVT_ECC, F.LRN_LOOP_STATUS_SAT].contains c.fld then
    s.setF c.fld c.idx (min c.val (s.getF c.fld c.idx))
  else s.setF c.fld c.idx c.val

/-- Stored checks put back in place of those that stand at the same addresses. -/
def putChks (cs m : List (Nat × Nat)) : List (Nat × Nat) :=
  cs.foldl (fun b c => insertChk c.1 c.2 b) (m.filter fun c => !(cs.any fun d => d.1 == c.1))

/-- Skip the update of the last window of one loop (R38, R136): its entries are as they were, an uncorrectable one included. -/
def State.lrnSkip (s : State) (h i : Nat) : State :=
  let l := s.lrnLoop h i
  let t := s.forEach (l.undo.filter fun c => lrnUndoFields.contains c.fld) State.undoCell
  let u := { t with mem := { t.mem with badChk := putChks l.undoChk t.mem.badChk } }
  u.updLrnLoop h i fun l => { l with rev := l.prevRev, undo := [], undoChk := [] }

/-- What a Collier's tick gives the learner, per loop: the effort, whether the loop is closed and whether its output or sum was
clipped. -/
structure LrnIn where
  e : Int
  closed : Bool
  clipped : Bool

/-- Conditions of R134 that are known in the tick itself. -/
def State.lrnFrozen (s : State) (h i : Nat) (x : LrnIn) (bad : Bool) : Bool :=
  let st := s.clr h
  !s.learnOn h i || (s.lrnLoop h i).copy.isSome || !x.closed || !(st == hdFOLLOW || st == hdWRITE || st == hdVERIFY) ||
  decide (s.tick < (s.lrn h).entered + 16 * s.getF F.LRN_CTL_SETTLE h) || !s.angleValid (deckOfHead h) ||
  decide ((s.lrnLoop h i).n < s.lrnFade h) || bad || x.clipped

/-- SUM_AVG and defect ticks (R135); `sum` is absent when the SERVO item is BAD. -/
def State.lrnDefect (s : State) (h : Nat) (sum : Option Int) (shock : Bool) : State :=
  let l := s.lrn h
  let def_ := match sum with
    | none => false
    | some v => decide (v * 256 < (s.getF F.LRN_DEF_CTL_DEF_TH h : Nat) * l.sumAvg)
  let keep := (if def_ || shock then s.tick :: l.blank else l.blank).filter fun d => s.tick ≤ d + 280
  s.updLrn h fun l =>
    { l with blank := keep,
             sumAvg := match sum with
               | none => l.sumAvg
               | some v => if def_ then l.sumAvg else l.sumAvg + (v - l.sumAvg) / 1024 }

/-- Copy 32 entries of a seed (R138). -/
def State.lrnCopyStep (s : State) (h i : Nat) : State :=
  match (s.lrnLoop h i).copy with
  | none => s
  | some (src, j0) =>
    let one (t : State) (n : Nat) : State :=
      if j0 + n < 1024 then
        match t.readEntry R.LRN_ENTRY (lrnEntryIdx src i (j0 + n)) with
        | (u, some w) => u.putEntry R.LRN_ENTRY (lrnEntryIdx h i (j0 + n)) w
        | (u, none) => (u.raise E.LRN_ECC h).putEntry R.LRN_ENTRY (lrnEntryIdx h i (j0 + n)) 0
      else t
    (s.forEach (List.range 32) one).updLrnLoop h i fun l => { l with copy := some (src, min 1024 (j0 + 32)) }

/-- The injection of one loop in a servo tick, and what the update eight ticks later needs of it (R129, R131). -/
def State.lrnInjectTick (s : State) (h i : Nat) (x : LrnIn) (bad : Bool) : State :=
  let s1 := s.lrnFadeStep h i
  let sc := s1.lrnScale h i
  let s2 := sc.1.lrnInject h i sc.2.1
  let l := s2.lrn h
  let now : LrnTick := {
    theta := l.xTheta / 65536, dtheta := l.xDtheta, e := x.e, r := sc.2.2, frozen := s2.lrnFrozen h i x bad, tick := s.tick }
  s2.updLrnLoop h i fun l => { l with hist := now :: l.hist }

/-- The learner window of a head: the injections, then the copies and the updates (R136, R138). A source is copied as it stands
before its own update of the tick.
DESIGN CHOICE, unsafe: log 107. -/
def State.lrnTick (s : State) (h : Nat) (f t : LrnIn) (sum : Option Int) (shock bad : Bool) : State :=
  let s1 := (s.lrnAngle h).lrnDefect h sum shock
  let s2 := (s1.lrnInjectTick h 0 f bad).lrnInjectTick h 1 t bad
  (((s2.lrnCopyStep h 0).lrnCopyStep h 1).lrnLearn h 0).lrnLearn h 1

/-- The newest tick of a history is frozen if it is tick k. -/
def freezeNewest (k : Nat) : List LrnTick → List LrnTick
  | [] => []
  | m :: ms => (if m.tick = k then { m with frozen := true } else m) :: ms

/-- A Collier overrun freezes the tick in progress (R134). -/
def State.lrnFreezeNow (s : State) (h : Nat) : State :=
  s.forEach [0, 1] fun t i => t.updLrnLoop h i fun l => { l with hist := freezeNewest s.tick l.hist }

/-! ### Clearing (R143) -/

/-- Clear a table (R143); what R141 says of copies is in `lrnClear`. -/
def State.lrnWipe (s : State) (h i : Nat) : State :=
  let k := lrnIdx h i
  let lo := R.LRN_ENTRY.addr (lrnEntryIdx h i 0)
  let s1 := { s with
    regs := s.regs.filter fun c => ¬ (c.fld.id = F.LRN_ENTRY_W.id ∧ c.idx / 1024 = k),
    mem := { s.mem with badChk := s.mem.badChk.filter fun c => ¬ (lo ≤ c.1 ∧ c.1 < lo + 0x2000) } }
  let s2 := (((s1.setB F.LRN_LOOP_STATUS_EMPTY k true).setB F.LRN_LOOP_STATUS_SEEDED k false).setF F.LRN_LOOP_STATUS_REVS k 0).setF
    F.LRN_LOOP_STATUS_RESID k 0
  (s2.updLrnLoop h i fun l => { l with rev := {}, prevRev := {}, undo := [], undoChk := [], copy := none }).raise E.LRN_CLEARED h

/-- A copy from table (h, i) is in progress in its partner. -/
def State.copiesFrom (s : State) (h i : Nat) : Bool :=
  match (s.lrnLoop (partner h) i).copy with
  | some (src, _) => src = h
  | none => false

/-- Clear a table, with the copies it meets (R141, R143). -/
def State.lrnClear (s : State) (h i : Nat) : State :=
  let s1 := if s.copiesFrom h i then (s.lrnWipe (partner h) i).raise E.LRN_SEED_REFUSED (partner h) else s
  s1.lrnWipe h i

/-- Clear all tables of a deck: copies on it are abandoned first (R141, R143). -/
def State.lrnClearDeck (s : State) (d : Nat) : State :=
  s.forEach ((List.range 4).flatMap fun k => [(4 * d + k, 0), (4 * d + k, 1)]) fun t x => t.lrnWipe x.1 x.2

/-! ### Seeding (R137 to R140) -/

/-- Start a copy into table (h, i) from head `src` (R138). -/
def State.seedStart (s : State) (h i src : Nat) : State :=
  s.updLrnLoop h i fun l => { l with copy := some (src, 0), forBand := false, n := 0 }

/-- The automatic seed of a loop on entry to FOLLOW (R137). -/
def State.autoSeed (s : State) (h i : Nat) : State :=
  let p := partner h
  let ok := s.isSet F.LRN_CTL_SEED_EN h && s.learnOn h i && s.isSet F.LRN_LOOP_STATUS_EMPTY (lrnIdx h i) &&
    decide (s.seedMin h ≤ s.getF F.LRN_LOOP_STATUS_REVS (lrnIdx p i)) &&
    (s.lrnLoop h i).copy.isNone && (s.lrnLoop p i).copy.isNone
  if ok then s.seedStart h i p else s

/-- The seeding of step 4 of takeover: tables of p from head h (R139). -/
def State.takeoverSeed (s : State) (h p : Nat) : State :=
  s.forEach [0, 1] fun t i =>
    if t.seedMin p ≤ t.getF F.LRN_LOOP_STATUS_REVS (lrnIdx p i) then t
    else if t.seedMin p ≤ t.getF F.LRN_LOOP_STATUS_REVS (lrnIdx h i) then
      (t.seedStart p i h).updLrnLoop p i fun l => { l with forBand := true }
    else t

/-- A copy into head h is in progress (LRN_SEED.BUSY). -/
def State.seedBusy (s : State) (h : Nat) : Bool := (s.lrnLoop h 0).copy.isSome || (s.lrnLoop h 1).copy.isSome

/-- A copy of step 4 of takeover into head p is in progress (R139). -/
def State.bandSeeds (s : State) (p : Nat) : Bool :=
  [0, 1].any fun i => (s.lrnLoop p i).copy.isSome && (s.lrnLoop p i).forBand

/-- A copy of loop i into head h has reached its end. -/
def State.seedEnded (s : State) (h i : Nat) : Bool :=
  match (s.lrnLoop h i).copy with
  | some (_, j) => 1024 ≤ j
  | none => false

/-- The end of a copy (R138). -/
def State.seedDone (s : State) (h i : Nat) : State :=
  let k := lrnIdx h i
  let s1 := ((((s.setF F.LRN_LOOP_STATUS_REVS k 0).setB F.LRN_LOOP_STATUS_SEEDED k true).setB F.LRN_LOOP_STATUS_EMPTY k false).setF
    F.LRN_LOOP_STATUS_RESID k 0)
  (s1.updLrnLoop h i fun l => { l with copy := none, rev := {}, undo := [], undoChk := [], prevRev := {} }).raise E.LRN_SEED_DONE h

/-- The head enters FOLLOW, WRITE or VERIFY: the settle count (R134), SUM_AVG (R135) and automatic seeds (R137). -/
def State.lrnEnter (s : State) (h old new : Nat) : State :=
  let from_ := old = hdSEEK || old = hdACQUIRE || old = hdHOLD
  let to_ := new = hdFOLLOW || new = hdWRITE || new = hdVERIFY
  let s1 := if from_ && to_ then s.updLrn h fun l => { l with entered := s.tick } else s
  if new = hdFOLLOW && old != hdFOLLOW then
    let sum := ((s1.head h).clr.servo[4]?).getD 0 * 256
    ((s1.updLrn h fun l => { l with sumAvg := sum }).autoSeed h 0).autoSeed h 1
  else s1

end Sys2Proof.Machine
end

