-- ==== Sys2Proof/Machine/Rx.lean ====
section
/-!
DEFINITION. The stages of a read channel, from the samples of its beam to soft bits (09): interpolation at the wobble loop's bit
instants (R189 to R191), correction (R193), equaliser and its adaptation (R195 to R197), the soft-output detector (R198, R200),
envelope and dropouts (R211 to R213). The channel's framing and states are in Chn.lean.
-/
namespace Sys2Proof.Machine

/-- Channel states (R215). -/
def chOFF : Nat := 0
def chWAIT : Nat := 1
def chLOCK : Nat := 2
def chRUN : Nat := 3

/-- A channel. -/
def State.chan (s : State) (c : Nat) : ChanS := vget s.chans {} c

/-- Change a channel. -/
def State.updChan (s : State) (c : Nat) (f : ChanS → ChanS) : State :=
  { s with chans := vset s.chans c (f (vget s.chans {} c)) }

/-- Change a channel's stages. -/
def State.updRx (s : State) (c : Nat) (f : RxS → RxS) : State := s.updChan c fun x => { x with rx := f x.rx }

/-- The channels of head h. -/
def chansOf (h : Nat) : List Nat := [4 * h, 4 * h + 1, 4 * h + 2, 4 * h + 3]

/-- The state of channel c. -/
def State.ch (s : State) (c : Nat) : Nat := s.getF F.CHN_STATUS_STATE c

/-- Channel c is in LOCK or RUN: its stages run (R188). -/
def State.chanLive (s : State) (c : Nat) : Bool := s.ch c == chLOCK || s.ch c == chRUN

/-- Q of channel c's applied zone. -/
def State.chanQ (s : State) (c : Nat) : Nat := zoneQ (s.getF F.CHN_STATUS_ZONE c)

/-! ### Correction (R193) -/

/-- z := sat(GAIN (u + ASYM u^2)) with u := r - OFS; r, OFS, ASYM and z in 2^-11, GAIN in 2^-14. -/
def correct (gain : Nat) (ofs asym r : Int) : Int :=
  let u := r - ofs
  satS 12 (rnd 25 (gain * (2 ^ 11 * u + rnd 11 (asym * (u * u)))))

/-! ### The detector (R198, R200) -/

/-- +1 for a mark, -1 for land. -/
def markOf (b : Bool) : Int := if b then 1 else -1

/-- The target d (R195) in 2^-11, of a bit and the three before it, the latest first. -/
def target (a a1 a2 a3 : Bool) : Int := 256 * (markOf a + 2 * markOf a1 + 2 * markOf a2 + markOf a3)

/-- The smaller of two metrics; none is infinite. -/
def metricMin : Option Nat → Option Nat → Option Nat
  | some a, some b => some (min a b)
  | some a, none => some a
  | none, b => b

/-- One step of the trellis: state 4a + 2b + c holds the last three bits, the latest a; the branch metric is (y - d)^2 in 2^-22. -/
def trellisStep (y : Int) (m : List (Option Nat)) : List (Option Nat) :=
  (List.range 8).map fun t =>
    let via (p : Nat) : Option Nat :=
      (m.getD p none).map fun v => v + (y - target (t.testBit 2) (p.testBit 2) (p.testBit 1) (p.testBit 0)).natAbs ^ 2
    metricMin (via (2 * (t % 4))) (via (2 * (t % 4) + 1))

/-- Keep the states whose latest bit is b. -/
def keepBit (b : Bool) (m : List (Option Nat)) : List (Option Nat) := m.mapIdx fun t v => if t.testBit 2 = b then v else none

/-- The best metric. -/
def bestMetric (m : List (Option Nat)) : Option Nat := m.foldl metricMin none

/-- Lambda of a bit: the best metric with the bit at 1 less the best with it at 0; 0 where a known bit leaves only one (R198). -/
def PendBit.lam (p : PendBit) : Int :=
  match bestMetric p.m1, bestMetric p.m0 with
  | some a, some b => (a : Int) - (b : Nat)
  | _, _ => 0

/-- The decision on a bit. -/
def PendBit.bit (p : PendBit) : Bool :=
  match bestMetric p.m1, bestMetric p.m0 with
  | some a, some b => decide (a < b)
  | some _, none => true
  | none, _ => false

/-- Apply a function to the metrics of a bit that waits. -/
def PendBit.through (f : List (Option Nat) → List (Option Nat)) (p : PendBit) : PendBit := { p with m0 := f p.m0, m1 := f p.m1 }

/-- The detector takes a bit, known to be `known` where that is given. -/
def TrellisS.step (x : TrellisS) (p : PendBit) (known : Option Bool) : TrellisS :=
  let f (m : List (Option Nat)) : List (Option Nat) :=
    let n := trellisStep p.y m
    match known with | some b => keepBit b n | none => n
  let pm := f x.pm
  { pm := pm, pend := { p with m0 := keepBit false pm, m1 := keepBit true pm } :: x.pend.map (PendBit.through f) }

/-- The detector restarts after a pillar from the known state of three lands; the path metric carries across (R200). -/
def TrellisS.restart (x : TrellisS) : TrellisS :=
  let f (m : List (Option Nat)) : List (Option Nat) := bestMetric m :: List.replicate 7 none
  { pm := f x.pm, pend := x.pend.map (PendBit.through f) }

/-- One of the three lands that the detector knows before it restarts. -/
def TrellisS.land (x : TrellisS) : TrellisS := { x with pend := { m0 := x.pm, m1 := List.replicate 8 none } :: x.pend }

/-! ### Interpolator (R188, R190) -/

/-- r at a bit instant from the eight nearest samples, the earliest first, at one of 64 phases; in 2^-11.
DESIGN CHOICE, safe: log 102. -/
def interpolate (phase : Nat) (ss : List Int) : Int :=
  satS 12 (rnd 14 ((ss.mapIdx fun i v => Config.interp phase i * (32 * v)).foldl (· + ·) 0))

/-! ### Dropouts (R213) -/

/-- The defect bits of a dropout whose low bits are first to last, by number since LOCK. -/
def dropBits (ext first last : Nat) : Nat × Nat := (first - (ext + 32), last + ext)

/-- Bit n lies in one of some ranges. -/
def inRanges (l : List (Nat × Nat)) (n : Nat) : Bool := l.any fun p => decide (p.1 ≤ n ∧ n ≤ p.2)

/-- The ranges of defect bits known of channel c: those past, and of a dropout that is active (R211, R213). -/
def State.defectBits (s : State) (c : Nat) : List (Nat × Nat) :=
  let x := (s.chan c).rx
  match x.drop with
  | some first => ((dropBits (s.getF F.CHN_DEF_CTL_DEF_EXT c) first 0).1, x.num + 2 ^ 40) :: x.ranges
  | none => x.ranges

/-- The envelope of a bit against the dropout threshold: runs of low and high bits, and the end of a dropout that is active. A in
2^-23. -/
def State.dropRuns (s : State) (c num env : Nat) : State :=
  let low := decide (env * 2 ^ 20 < s.getF F.CHN_DEF_CTL_DEF_TH c * (s.chan c).env)
  let s1 := s.updRx c fun x => { x with
    lowRun := if low then x.lowRun + 1 else 0, highRun := if low then 0 else x.highRun + 1,
    lastLow := if low then num else x.lastLow }
  let x := (s1.chan c).rx
  match x.drop with
  | some first =>
    if max 1 (s.getF F.CHN_DEF_CTL_DEF_MIN c) ≤ x.highRun then
      (s1.updRx c fun y => { y with
        drop := none, ranges := dropBits (s.getF F.CHN_DEF_CTL_DEF_EXT c) first y.lastLow :: y.ranges.take 63 }).setB F.CHN_STATUS_DEFECT c false
    else s1
  | none => s1

/-- A dropout begins when the envelope has been low for DEF_MIN bits (R213). -/
def State.dropBegin (s : State) (c : Nat) : State :=
  let x := (s.chan c).rx
  if s.isSet F.CHN_CTL_DEF_EN c && s.chanLive c && x.drop.isNone && decide (max 1 (s.getF F.CHN_DEF_CTL_DEF_MIN c) ≤ x.lowRun) then
    (((s.updRx c fun y => { y with drop := some (y.lastLow + 1 - y.lowRun) }).count F.CHN_DEF_STATS_DEFECTS c).raiseChn E.CHN_DEFECT c).setB
      F.CHN_STATUS_DEFECT c true
  else s

/-! ### Tentative decisions: equaliser adaptation (R196, R197) and the wobble loop (R189) -/

/-- Data-stream position n lies in the drift that channel c frames. -/
def ChanS.inDrift (x : ChanS) (pos : Nat) : Bool :=
  match x.drift with
  | some d => decide (d.start ≤ (pos : Int) ∧ (pos : Int) < d.start + driftBits)
  | none => false

/-- The taps adapt at a bit (R197). -/
def State.adapts (s : State) (c : Nat) (p : PendBit) : Bool :=
  let h := headOfChan c
  s.isSet F.CHN_CTL_EQ_ADAPT c && s.ch c == chRUN && (s.chan c).inDrift p.pos && p.clean &&
  !((List.range 31).any fun k => inRanges (s.defectBits c) (p.num + 7 - k)) && (s.clr h == hdFOLLOW || s.clr h == hdVERIFY)

/-- W_t := sat(W_t + 2^(-MU_SHIFT) e z), rounded to S1.14 (R196). -/
def State.adaptTaps (s : State) (c : Nat) (e : Int) (win : List Int) : State :=
  s.forEach (List.range 15) fun t k =>
    let w := sgn 16 (t.getF F.CHN_EQ_TAP_TAP (15 * c + k)) + rnd (s.getF F.CHN_EQ_CTL_MU_SHIFT c + 8) (e * win.getD k 0)
    let v := satS 16 w
    (t.setF F.CHN_EQ_TAP_TAP (15 * c + k) (unsgn 16 v)).onlyIf (v != w) fun u => u.raiseChn E.CHN_EQ_SAT c

/-- The wobble loop takes a bit of a groove: what is left of z without the data estimate is band-passed, and its phase error corrects
phase and rate (R189). The loop holds through wobble period 0.
DESIGN CHOICE, safe: log 102. -/
def State.wobbleBit (s : State) (c : Nat) (p : PendBit) (tent : List Bool) : State :=
  let q := s.chanQ c
  let x := (s.chan c).rx
  let r := Config.wobbleBand q x.filt (p.win.getD 7 0 - Config.dataEstimate tent (s.chan c).env)
  let err := Config.wobblePhase (p.nb % q * 65536 / q) r.2
  let g := Config.loopGain (s.getF F.CHN_WOB_BW c) q
  s.updRx c fun y => { y with
    filt := r.1, now := ((y.now : Int) + g.1 * err).toNat, rate := ((y.rate : Int) + g.2 * err).toNat,
    sumSq := y.sumSq + err.natAbs ^ 2, cnt := y.cnt + 1 }

/-- The tentative decision on a bit, 16 bits after it (R196). -/
def State.tentative (s : State) (c : Nat) : State :=
  let x := (s.chan c).rx
  match x.data.pend[16]? with
  | none => s
  | some p =>
    let tent := (p.bit :: x.tent).take 4
    let s1 := s.updRx c fun y => { y with tent := tent }
    if !p.data || tent.length < 4 then s1
    else
      let e := target (tent.getD 0 false) (tent.getD 1 false) (tent.getD 2 false) (tent.getD 3 false) - p.y
      let s2 := s1.updRx c fun y => { y with data := { y.data with pend := y.data.pend.set 16 { p with err := some (e.natAbs ^ 2) } } }
      (s2.onlyIf (s.adapts c p) fun t => t.adaptTaps c e p.win).wobbleBit c p tent

/-! ### Bits leave the detector -/

/-- The soft bit of a bit that leaves. -/
def PendBit.soft (p : PendBit) : SoftBit := { lam := p.lam, pos := p.pos, num := p.num, bad := p.bad, env := p.env, err := p.err }

/-- A := A + ((env - A) >> 12), A in 2^-23 (R212). -/
def envStep (a env : Nat) : Nat := ((a : Int) + ((env : Int) * 4096 - (a : Nat)) / 4096).toNat

/-- The envelope average takes a bit of a framed drift that is no defect bit (R212).
DESIGN CHOICE, unsafe: log 103. -/
def State.envAverage (s : State) (c : Nat) (b : SoftBit) : State :=
  if (s.chan c).inDrift b.pos && !b.bad && !inRanges (s.defectBits c) b.num then
    s.updChan c fun x => { x with env := envStep x.env b.env }
  else s

/-- The oldest bit leaves the data detector when 64 newer ones are in it (R198). -/
def State.softOut (s : State) (c : Nat) : State :=
  match (s.chan c).rx.data.pend[64]? with
  | none => s
  | some p =>
    let s1 := s.updRx c fun y => { y with
      data := { y.data with pend := y.data.pend.take 64 }, soft := if p.data then (p.soft :: y.soft).take 40200 else y.soft }
    if p.data then s1.envAverage c p.soft else s1

/-- A decision leaves the detector that runs on all physical bits, for the pillar correlator (R201).
DESIGN CHOICE, safe: log 104. -/
def RxS.physOut (x : RxS) : RxS :=
  match x.phys.pend[64]? with
  | none => x
  | some p => { x with phys := { x.phys with pend := x.phys.pend.take 64 }, dec := (p.bit :: x.dec).take 512,
                       decAt := if p.nb = 0 then 1 else x.decAt + 1 }

/-! ### One bit -/

/-- The equaliser: bit n, the eighth newest of the corrected samples, and the detectors (R195, R198, R200). -/
def State.equalise (s : State) (c : Nat) : State :=
  let zs := (s.chan c).rx.zs
  match zs[7]? with
  | none => s
  | some b =>
    let win := (zs.take 15).map (·.z)
    let sum := (win.mapIdx fun t z => sgn 16 (s.getF F.CHN_EQ_TAP_TAP (15 * c + t)) * z).foldl (· + ·) 0
    let y := satS 12 (rnd 14 sum)
    let q := s.chanQ c
    let p : PendBit := { data := decide (q ≤ b.nb), pos := b.pos, num := b.num, nb := b.nb, y := y, win := win,
                         clean := zs.all fun v => !v.bad, bad := b.bad, env := b.env }
    let s1 := (s.onlyIf (y != rnd 14 sum) fun t => t.raiseChn E.CHN_EQ_SAT c).updRx c fun x => RxS.physOut { x with phys := x.phys.step p none }
    let feed (t : State) (f : TrellisS → TrellisS) : State := ((t.updRx c fun x => { x with data := f x.data }).tentative c).softOut c
    if q ≤ b.nb then feed s1 fun d => d.step p none
    else if b.nb < 3 then feed s1 fun d => d.step p (some (b.nb != 0))
    else if b.nb + 1 = q then
      (s1.updRx c fun x => { x with data := x.data.restart }).forEach [0, 1, 2] fun t _ => feed t TrellisS.land
    else s1

/-- A channel bit is sampled: bit nb of the pillar period (the Q pillar bits first), its value r and whether its word was poisoned,
missing or clipped (R190, R211, R212). -/
def State.rxBit (s : State) (c nb : Nat) (r : Int) (bad : Bool) : State :=
  let q := s.chanQ c
  let z := correct (s.getF F.CHN_CORR_GAIN c) (sgn 12 (s.getF F.CHN_CORR_OFS c)) (sgn 12 (s.getF F.CHN_CORR_ASYM_ASYM c)) r
  let x := (s.chan c).rx
  let old := (x.zs.take 31).map (·.z)
  let env := (old.foldl max z - old.foldl min z).toNat
  let b : ZBit := { z := z, bad := bad, nb := nb, pos := 49 * q * s.getF F.CHN_WOB_STATUS_PILLAR c + nb - q, num := x.num, env := env }
  let s1 := s.updRx c fun y => { y with zs := (b :: y.zs).take 32, num := y.num + 1 }
  (s1.dropRuns c b.num env).equalise c

/-! ### Samples -/

/-- The bits whose instants the loop has passed, at most n: the instant of bit nb is nb / Q wobble periods after the leading edge (R190).
The loop stood at `before` one sample earlier. -/
def State.rxBits : Nat → State → Nat → Nat → State
  | 0, s, _, _ => s
  | n + 1, s, c, before =>
    let x := (s.chan c).rx
    let q := s.chanQ c
    let inst := x.next * 2 ^ 32 / q
    if x.now < inst ∨ 50 * q ≤ x.next then s
    else
      let phase := if x.rate = 0 then 0 else min 63 ((inst - before) * 64 / x.rate)
      let r := interpolate phase ((x.raw.map (·.1)).reverse)
      ((s.updRx c fun y => { y with next := y.next + 1 }).rxBit c x.next r (x.raw.any (·.2))).rxBits n c before

/-- The loop passes a leading edge: the next pillar period begins (R190). `at_` is the position of the last sample, in samples from the
HFE's strobe. -/
def State.rxWrap (s : State) (c at_ before : Nat) : State :=
  let x := (s.chan c).rx
  if x.now < 50 * 2 ^ 32 then s
  else
    let frac := if x.rate = 0 then 0 else min 63 ((50 * 2 ^ 32 - before) * 64 / x.rate)
    (s.updRx c fun y => { y with
      now := y.now - 50 * 2 ^ 32, next := 0, edge := 64 * at_ + frac - 256, before := y.start, start := y.num }).setF F.CHN_WOB_STATUS_PILLAR c
      ((s.getF F.CHN_WOB_STATUS_PILLAR c + 1) % 256)

/-- One sample of channel c's beam: 7 bits, whether its word is poisoned or clipped (R72, R188). -/
def State.rxSample (s : State) (c at_ : Nat) (v : Int) (bad : Bool) : State :=
  let v1 := if s.isSet F.CHN_CTL_INV c then -v else v
  let x := (s.chan c).rx
  let s1 := s.updRx c fun y => { y with raw := ((v1, bad) :: y.raw).take 8, now := y.now + y.rate }
  let s2 := ((s1.rxBits 4 c x.now).rxWrap c at_ x.now)
  s2.setF F.CHN_WOB_STATUS_WOBBLE c (((s2.chan c).rx.now / 2 ^ 32) % 64)

/-- An RF item of channel c's beam: items missing before it are a dropout of 144 samples each; its 16 words hold nine samples of seven
bits each, the earliest lowest, and OVR in bit 63 (R72, R89, R211). -/
def State.rfItem (s : State) (c : Nat) (p : Popped) : State :=
  if !s.chanLive c then s
  else
    let s1 := s.forEach (List.range (144 * p.missing)) fun t k => t.rxSample c (p.tag + k) 0 true
    s1.forEach (List.range 144) fun t k =>
      let w := p.words.getD (k / 9) 0
      t.rxSample c (p.tag + k) (sgn 7 (bitsOf w (7 * (k % 9) + 6) (7 * (k % 9)))) (w.testBit 63 || p.poisoned.getD (k / 9) false)

/-- The RF stream of channel c's beam is flushed while a pillar passes (R216). -/
def State.rfFlushed (s : State) (c : Nat) : State :=
  s.updRx c fun x => { x with flushed := x.flushed || decide (x.now < 2 ^ 32) }

/-! ### What the correlators and the decoder see -/

/-- Channel c's decisions from w bits before the predicted pillar sync to w bits beyond the address. -/
def RxS.pillarBits (x : RxS) (w : Nat) : List Bool :=
  let all := x.dec.reverse
  (all.drop (all.length - (x.decAt + w))).take (83 + 2 * w)

/-- The rms phase error of the pillar period, in 2^-16 wobble periods; a period without a bit shows none. -/
def RxS.perr (x : RxS) : Nat := if x.cnt = 0 then 65535 else Nat.sqrt (x.sumSq / x.cnt)

/-- The soft bits of data-stream positions a to a + n - 1, the earliest first. -/
def softAt (soft : List SoftBit) (a : Int) (n : Nat) : List SoftBit :=
  (soft.filter fun b => decide (a ≤ (b.pos : Int) ∧ (b.pos : Int) < a + n)).reverse

/-- What slot j shows: the largest envelope over slot bits 0 to 383, and the 112 decisions from 24 bits before the predicted sync
word (R207); none when the channel has not detected them. -/
def RxS.slotIn (x : RxS) (j : Nat) : Option SlotIn :=
  let bits := softAt x.soft (slotStart j + 360) 112
  if bits.length = 112 then
    some { env := (softAt x.soft (slotStart j) 384).foldl (fun m b => max m b.env) 0, bits := bits.map fun b => decide (b.lam < 0) }
  else none

/-- All soft bits, those still in the detector with what is known of them. -/
def RxS.allSoft (x : RxS) : List SoftBit := (x.data.pend.filter (·.data)).map PendBit.soft ++ x.soft

/-- Bit numbers gathered into ranges. -/
def gatherRanges (l : List Nat) : List (Nat × Nat) :=
  l.foldl (fun r k => match r with
    | (a, b) :: t => if k = b + 1 then (a, k) :: t else (k, k) :: (a, b) :: t
    | [] => [(k, k)]) []

/-- What the channel has of a drift that starts at a data-stream position: the soft outputs of its bits 448 to 39,615, how many of its
bits are detected, the mean squared error, its defect bits (R196, R198, R209 to R211). -/
def State.driftIn (s : State) (c : Nat) (start : Int) : DriftIn :=
  let all := softAt (s.chan c).rx.allSoft start driftBits
  let errs := all.filterMap (·.err)
  let bad := s.defectBits c
  { soft := (all.drop 448).map (·.lam), detected := all.length,
    mse := if errs.isEmpty then 0 else (divRnd (errs.foldl (· + ·) 0 : Nat) errs.length).toNat,
    defects := gatherRanges ((all.mapIdx fun k b => (k, b.bad || inRanges bad b.num)).filterMap fun p => if p.2 then some p.1 else none) }

end Sys2Proof.Machine
end

