-- ==== Sys2Proof/Machine/Chn.lean ====
section
/-!
DEFINITION. The read channels' shared operations (09): states, the rate limit (R192), zone application (R194), pillar search and
address check (R201 to R204), identities (R205), truncation (R209). The meanings of the CHN commands are in ChnCmds.lean.
-/
namespace Sys2Proof.Machine

/-- Head link states (R97). -/
def lkOFF : Nat := 0
def lkTRAIN : Nat := 1
def lkUP : Nat := 2
def lkDEGRADED : Nat := 3
def lkFAILED : Nat := 4

/-- The head link is UP or DEGRADED (R86). -/
def State.linkUp (s : State) (h : Nat) : Bool :=
  s.getF F.LNK_HEAD_STATUS_STATE h = lkUP || s.getF F.LNK_HEAD_STATUS_STATE h = lkDEGRADED

/-- Loop i of head h is closed. -/
def State.closed (s : State) (h i : Nat) : Bool := s.isSet F.CLR_LOOP_CTL_CLOSED (3 * h + i)

/-- The head is readable (R215). -/
def State.readable (s : State) (h : Nat) : Bool :=
  s.linkUp h && (s.clr h == hdFOLLOW || s.clr h == hdVERIFY || (s.clr h == hdHOLD && s.closed h 1))

/-- The rate of a zone at the deck's observer speed is beyond 680 Mbit/s: 12,800 Q wobble bits per revolution (R192). -/
def rateBeyond (q dth : Nat) : Bool := decide (680000000 * 2 ^ 32 < 12800 * 400000 * q * dth)

/-- The zone of the Collier's position. -/
def State.zoneOf (s : State) (h : Nat) : Nat := s.getF F.CLR_POS_ZONE h

/-- The verdict of R192 for channel c now. -/
def State.beyondNow (s : State) (c : Nat) : Bool :=
  rateBeyond (zoneQ (s.zoneOf (headOfChan c))) (s.dtheta (deckOfChan c))

/-- Compare the rate: RATE_LIMIT when the verdict turns (R192). -/
def State.rateCheck (s : State) (c : Nat) : State :=
  if !s.isSet F.CHN_CTL_EN c then s
  else
    let b := s.beyondNow c
    (s.onlyIf (b && !(s.chan c).beyond) fun t => t.raiseChn E.CHN_RATE_LIMIT c).updChan c fun x => { x with beyond := b }

/-! ### Truncation (R209) and leaving states (R215) -/

/-- Keep what the channel has of the drift being framed. -/
def State.keepDrift (s : State) (c : Nat) : State :=
  match (s.chan c).drift with
  | none => s
  | some d =>
    if d.data.isSome then s
    else s.updChan c fun x => { x with drift := some { d with data := some (s.driftIn c d.start) } }

/-- The last bit of a drift that starts at a data-stream position has been sampled. -/
def RxS.past (x : RxS) (start : Int) : Bool := x.zs.any fun z => decide (start + driftBits ≤ (z.pos : Int) + 1)

/-- Truncate the drift being framed, if there is one whose last bit has not come (R209, R216). -/
def State.truncate (s : State) (c : Nat) : State :=
  match (s.chan c).drift with
  | none => s
  | some d =>
    if d.record.truncated || (s.chan c).rx.past d.start then s
    else
      ((s.updChan c fun x => { x with drift := some { d with record := { d.record with truncated := true, hint := true },
                                                             data := some (d.data.getD (s.driftIn c d.start)) } }).count
        F.CHN_TRUNC_TRUNC c).raiseChn E.CHN_TRUNC c

/-- The channel enters WAIT from LOCK or RUN. -/
def State.chanWait (s : State) (c : Nat) : State :=
  ((s.truncate c).setF F.CHN_STATUS_STATE c chWAIT).setB F.CHN_STATUS_WOB_LOCK c false

/-- The channel enters OFF. -/
def State.chanOff (s : State) (c : Nat) : State :=
  ((s.truncate c).setF F.CHN_STATUS_STATE c chOFF).setB F.CHN_STATUS_WOB_LOCK c false

/-- After a change of the head, its link, its TF or the rate, its channels follow (R209, R215). -/
def State.chanFollow (s : State) (h : Nat) : State :=
  s.forEach (chansOf h) fun t c =>
    let on := t.ch c == chLOCK || t.ch c == chRUN
    if on && (!t.readable h || (t.chan c).beyond) then t.chanWait c
    else if !((t.clr h == hdFOLLOW || t.clr h == hdVERIFY) && t.isSet F.CLR_STATUS_TF h) then t.truncate c
    else t

/-! ### Zones (R194) -/

/-- Load the zone values of an entry; an uncorrectable entry is replaced. -/
def State.loadZone (s : State) (c l z : Nat) : State :=
  match s.readEntry R.CHN_ZONE (384 * c + 24 * l + z) with
  | (t, some w) =>
    ((t.setF F.CHN_CORR_GAIN c (w / 2 ^ 32 % 65536)).setF F.CHN_CORR_OFS c (w / 65536 % 4096)).setF F.CHN_CORR_ASYM_ASYM c (w % 4096)
  | (t, none) =>
    ((((t.setF F.CHN_CORR_GAIN c 0x4000).setF F.CHN_CORR_OFS c 0).setF F.CHN_CORR_ASYM_ASYM c 0)).raiseChn E.CHN_TABLE_ECC c

/-- Load the 15 start taps of a zone; an uncorrectable tap makes all of them the replacement. -/
def State.loadTaps (s : State) (c z : Nat) : State :=
  let step (p : State × List (Option Nat)) (t : Nat) : State × List (Option Nat) :=
    let r := p.1.readEntry R.CHN_EQ_START (15 * (24 * c + z) + t)
    (r.1, p.2 ++ [r.2.map (· % 65536)])
  let r := (List.range 15).foldl step (s, [])
  if r.2.any (·.isNone) then
    (r.1.forEach (List.range 15) fun u t => u.setF F.CHN_EQ_TAP_TAP (15 * c + t) (if t = 7 then 0x4000 else 0)).raiseChn
      E.CHN_TABLE_ECC c
  else r.1.forEach (List.range 15) fun u t => u.setF F.CHN_EQ_TAP_TAP (15 * c + t) ((r.2.getD t none).getD 0)

/-- Apply the Collier's layer and zone (R194). -/
def State.applyZone (s : State) (c : Nat) : State :=
  let h := headOfChan c
  let l := s.getF F.CLR_POS_LAYER h
  let z := s.zoneOf h
  let s1 := ((s.setF F.CHN_STATUS_ZONE c z).setF F.CHN_STATUS_LAYER c l).loadZone c l z
  let s2 := s1.onlyIf (s1.isSet F.CHN_CTL_EQ_LOAD c) fun t => t.loadTaps c z
  let q := zoneQ z
  (s2.updChan c fun x => { x with env := 4096 * s2.getF F.CHN_DEF_CTL2_ENV_INIT c, reload := false,
                                  rx := { x.rx with next := (x.rx.now * q + 2 ^ 32 - 1) / 2 ^ 32 } }).rateCheck c

/-- What a pillar's leading edge applies: the whole zone when layer or zone changed, the values alone after RELOAD (R194). -/
def State.zoneAtPillar (s : State) (c : Nat) : State :=
  let h := headOfChan c
  if s.getF F.CHN_STATUS_ZONE c ≠ s.zoneOf h ∨ s.getF F.CHN_STATUS_LAYER c ≠ s.getF F.CLR_POS_LAYER h then s.applyZone c
  else if (s.chan c).reload then
    (s.loadZone c (s.getF F.CHN_STATUS_LAYER c) (s.getF F.CHN_STATUS_ZONE c)).updChan c fun x => { x with reload := false }
  else s

/-- The pillar period at channel c's head by the observer's angle, and the counts passed in it (R191). -/
def State.angleOfPillar (s : State) (c : Nat) : Nat × Nat :=
  let h := headOfChan c
  let base := if h % 4 / 2 = 0 then 0 else 128
  let a := (s.theta (deckOfChan c) + 131072 - base - s.getF F.LRN_MOUNT_MOUNT h) % 65536
  (a / 256, a % 256)

/-- The observer's rate in 2^-32 wobble periods a sample: 12,800 periods in 65,536 counts, 1,800 samples a tick (R191). -/
def State.loopRate (s : State) (c : Nat) : Nat := s.dtheta (deckOfChan c) * 64 / 9

/-- The loop's counts follow the observer's angle (R191, R215). -/
def State.coast (s : State) (c : Nat) : State :=
  let p := s.angleOfPillar c
  (s.setF F.CHN_WOB_STATUS_PILLAR c p.1).setF F.CHN_WOB_STATUS_WOBBLE c (50 * p.2 / 256)

/-- Seed the wobble loop from the observer (R191). The stages start anew; what they had of a drift is kept with it.
DEDUCED, unsafe: log 105. -/
def State.seedLoop (s : State) (c : Nat) : State :=
  let now := 50 * 2 ^ 32 * (s.angleOfPillar c).2 / 256
  ((s.keepDrift c).coast c).updChan c fun x =>
    { x with periods := 0, found := 0, missed := 0, addr := none, farRun := 0, differ := 0,
             rx := { now := now, rate := s.loopRate c, next := (now * s.chanQ c + 2 ^ 32 - 1) / 2 ^ 32 } }

/-- Enter LOCK: zone, loop seed (R215). -/
def State.chanLock (s : State) (c : Nat) : State :=
  (((s.applyZone c).seedLoop c).setF F.CHN_STATUS_STATE c chLOCK).setB F.CHN_STATUS_WOB_LOCK c false

/-! ### Correlators (R201, R207) -/

/-- Agreements of decisions with a word of n bits, first bit most significant. -/
def agreements (word n : Nat) (bits : List Bool) : Nat :=
  ((List.zipWith (fun (a b : Bool) => if a = b then 1 else 0) (bitsMsb n word) bits).sum)

/-- The offsets -w to w in the order of preference: nearest first, the earlier of two equally near. -/
def offsetsNear (w : Nat) : List Int :=
  (0 : Int) :: ((List.range w).flatMap fun k => [-((k + 1 : Nat) : Int), ((k + 1 : Nat) : Int)])

/-- The best offset of a search: most agreements, at least th; ties as in the order of preference. The decisions begin w bits
before the prediction. -/
def searchWord (word n th w : Nat) (bits : List Bool) : Option (Nat × Int) :=
  (offsetsNear w).foldl (fun best o =>
    let a := agreements word n ((bits.drop ((w : Int) + o).toNat).take n)
    if a < th then best
    else match best with
      | none => some (a, o)
      | some b => if b.1 < a then some (a, o) else best) none

/-- The number of candidates of a search. -/
def candidates (word n th w : Nat) (bits : List Bool) : Nat :=
  ((offsetsNear w).filter fun o => th ≤ agreements word n ((bits.drop ((w : Int) + o).toNat).take n)).length

/-- The address of 51 channel bits, when its CRC holds (R202). -/
def pillarAddress (bits : List Bool) : Option PillarAddr := decodePillar ((k17Decode 3 bits).foldl (fun a u => 65536 * a + u) 0)

/-- The address check of head h (R202). -/
def State.addrPasses (s : State) (h : Nat) (a : PillarAddr) : Bool :=
  a.side == h % 4 / 2 && a.layer == s.getF F.CLR_POS_LAYER h && a.band == trackBand (s.getF F.CLR_POS_TRACK h)

/-- The layer track an address names. -/
def PillarAddr.layerTrack (a : PillarAddr) : Nat := bandTrack a.band a.track

/-! ### Identities (R205) -/

/-- B(P): the stream slots of the positions of a band's stream below P (R63, R205). -/
def streamBase (band p : Nat) : Nat :=
  let first := if band = 0 then 0 else 12
  (List.range 12).foldl (fun n k =>
    let lo := (if band = 0 then 1862 else 1220) * k
    let hi := if k = 11 then bandPositions band else lo + (if band = 0 then 1862 else 1220)
    let lo2 := if band = 0 ∧ k = 0 then 16 else lo
    n + (min p hi - min p lo2) * zoneD (first + k)) 0

/-- The identity of a slot that channel c frames: its record without tags, none when the slot is not framed (R205). -/
def State.identity (s : State) (c j : Nat) : Option DriftRec :=
  let h := headOfChan c
  let b := c % 4
  let track := s.getF F.CLR_POS_TRACK h + b
  let band := trackBand (s.getF F.CLR_POS_TRACK h)
  let p := trackPos track
  let n := seamOfHead (4 * (h / 4) + 2 * (h % 4 / 2) + band) (s.getF F.CLR_POS_LAYER h)
  if band = 0 ∧ p < 16 then some { vol := h / 4, seam := n, x := 0, drift := b, chan := c, cal := true, layer := s.getF F.CLR_POS_LAYER h, zone := s.zoneOf h }
  else
    let sl := streamBase band p + j
    if 2480640 ≤ sl then none
    else some { vol := h / 4, seam := n, x := 2 * (sl / 80) + sl % 2, drift := 4 * (sl % 80 / 2) + b, chan := c, stream := sl,
                               layer := s.getF F.CLR_POS_LAYER h, zone := s.zoneOf h }

/-- The conditions for opening a sync window (R206). -/
def State.framing (s : State) (c : Nat) : Bool :=
  let h := headOfChan c
  s.ch c == chRUN && (s.clr h == hdFOLLOW || s.clr h == hdVERIFY) && s.isSet F.CLR_STATUS_TF h &&
  s.isSet F.CLR_STATUS_TRK_VALID h && !s.isSet F.CLR_POS_EST h && !s.isSet F.CHN_STATUS_POS_ERR c &&
  s.angleValid (deckOfChan c)

end Sys2Proof.Machine
end

