-- ==== Sys2Proof/Machine/Link.lean ====
section
/-!
DEFINITION. The head links' shared operations (04): blocks and items (R69, R70), stream FIFOs (R87 to R92), lane roles and maps
(R80 to R86). FIFOs are numbered 0 SERVO, 1 STATUS, 2 + b RF b. The meanings are in LnkCmds.lean.
-/
namespace Sys2Proof.Machine

/-- A link. -/
def State.link (s : State) (h : Nat) : LinkS := (s.head h).link

/-- Change a link. -/
def State.updLink (s : State) (h : Nat) (f : LinkS → LinkS) : State :=
  s.setHead h { s.head h with link := f (s.head h).link }

/-- A FIFO of a link. -/
def State.fifo (s : State) (h f : Nat) : FifoS := vget (s.link h).fifos {} f

/-- Write a FIFO of a link. -/
def State.setFifo (s : State) (h f : Nat) (x : FifoS) : State := s.updLink h fun l => { l with fifos := vset l.fifos f x }

/-- The state of head h's link. -/
def State.lk (s : State) (h : Nat) : Nat := s.getF F.LNK_HEAD_STATUS_STATE h

/-- The FIFO of a STREAM value and its data words (R70). -/
def streamFifo (stream : Nat) : Option (Nat × Nat) :=
  if stream = 0 then some (0, 4) else if stream = 1 then some (1, 2)
  else if 4 ≤ stream ∧ stream ≤ 7 then some (stream - 2, 16) else none

/-- The data words of a FIFO's items. -/
def fifoWords (f : Nat) : Nat := if f = 0 then 4 else if f = 1 then 2 else 16

/-! ### Sending (R70) -/

/-- Send an item of stream 8 (DRIVE, on D0) or 12 + b (WRITE b, on D1) with its SEQ and CRC; SEQ counts on whether or not the lane
carries blocks (R70).
DESIGN CHOICE, unsafe: log 98. -/
def State.sendItem (s : State) (h stream tag : Nat) (ws : List Nat) : State :=
  let j := if stream = 8 then 0 else 1
  let n := vget (s.link h).seqs 0 (stream - 8)
  let s1 := s.updLink h fun l => { l with seqs := vset l.seqs (stream - 8) ((n + 1) % 256) }
  s1.onlyIf (s.downOn h j) fun t => t.emit (.item h j (soiBlock stream n tag (itemCrc ws)) ws)

/-! ### Pushing (R87, R88) -/

/-- Append a word to the fill bank, and swap when the drain bank is empty and the item complete. -/
def FifoS.land (x : FifoS) (n : Nat) (w : LWord) : FifoS :=
  let it : Item := match x.fill with
    | some i => { i with words := i.words ++ [w] }
    | none => { (x.head.getD { seq := 0, tag := 0, crc := 0 }) with words := [w] }
  let full := decide (n ≤ it.words.length)
  if full && x.drain.isNone then { x with drain := some it, fill := none, full := false, head := none }
  else { x with fill := some it, full := full, head := none }

/-- Push one word: it lands, stalls when both banks hold complete items, or is dropped. -/
def FifoS.push (x : FifoS) (n : Nat) (w : LWord) : FifoS :=
  if x.drop || x.stalled.isSome then x
  else if x.full && x.drain.isSome then { x with stalled := some w }
  else x.land n w

/-- Pop the drain bank; the fill bank swaps in and a stalled push completes. -/
def FifoS.pop (x : FifoS) (n : Nat) : Option Item × FifoS :=
  match x.drain with
  | none => (none, x)
  | some it =>
    let y := if x.full then { x with drain := x.fill, fill := none, full := false } else { x with drain := none }
    match y.stalled with
    | some w => (some it, { y with stalled := none }.land n w)
    | none => (some it, y)

/-- Complete items held. -/
def FifoS.depth (x : FifoS) : Nat := x.drain.isSome.toNat + x.full.toNat

/-- An item is partly filled, or its first word stalls. -/
def FifoS.partly (x : FifoS) : Bool := (x.fill.isSome && !x.full) || x.stalled.isSome

/-- Count an item dropped for framing, overflow or a reserved STREAM (R70, R91). -/
def State.dropItem (s : State) (h : Nat) : State := (s.count F.LNK_DROP_DROPS h).raiseLnk E.LNK_DROP h

/-! ### The bonded stream (R69, R70, R80, R84) -/

/-- A push of the head is stalled: the bonded stream waits. -/
def State.stalled (s : State) (h : Nat) : Bool := (s.link h).fifos.toList.any fun x => x.stalled.isSome

/-- The lane number of upstream lane k. -/
def upLane (h k : Nat) : Nat := 8 * h + k

/-- A lane beside its registers. -/
def State.lane (s : State) (l : Nat) : LaneS := vget s.lanes {} l

/-- Write a lane. -/
def State.setLane (s : State) (l : Nat) (x : LaneS) : State := { s with lanes := vset s.lanes l x }

/-- The active lanes of the map, in the order of their ranks. -/
def State.ranked (s : State) (h : Nat) : List Nat := (List.range 6).filter fun k => s.bitF F.LNK_HEAD_STATUS_ACTIVE h k

/-- The positions of active lane k are holes: it is declared failed, or in TRAIN it gives no aligned blocks (R81, R84). -/
def State.isHole (s : State) (h k : Nat) : Bool :=
  s.bitF F.LNK_HEAD_STATUS_ACTIVE h k &&
  (s.bitF F.LNK_HEAD_STATUS_FAILED h k || !s.isSet F.LNK_LANE_STATUS_BLOCK_LOCK (upLane h k) ||
   (s.lk h == lkTRAIN && (s.lane (upLane h k)).good == 0))

/-- A start of item (R70): a new item of a known stream; an item left incomplete is dropped. -/
def State.soi (s : State) (h w : Nat) : State :=
  let s1 := match (s.link h).cur with
    | some (f, _) =>
      let x := s.fifo h f
      if x.partly then (s.setFifo h f { x with fill := if x.full then x.fill else none, stalled := none, head := none }).dropItem h
      else s
    | none => s
  match streamFifo (bitsOf w 11 8) with
  | none => (s1.updLink h fun l => { l with cur := none }).dropItem h
  | some (f, n) =>
    let it : Item := { seq := bitsOf w 23 16, tag := bitsOf w 39 24, crc := bitsOf w 55 40 }
    (s1.setFifo h f { s1.fifo h f with head := some it, drop := false }).updLink h fun l => { l with cur := some (f, n) }

/-- A data word of the current item, with its poison tag (R69, R84, R87). -/
def State.dataWord (s : State) (h w : Nat) (poison : Bool) : State :=
  match (s.link h).cur with
  | none => s
  | some (f, left) =>
    (s.setFifo h f ((s.fifo h f).push (fifoWords f) (LWord.of w poison))).updLink h fun l =>
      { l with cur := if left ≤ 1 then none else some (f, left - 1) }

/-- Echo n of TRAIN has come back after `rtt` engine cycles (R75); a round trip beyond the 11-bit field RTT shows as 2,047.
DESIGN CHOICE, unsafe: log 100. -/
def State.echo (s : State) (h seq rtt : Nat) : State :=
  let l := s.link h
  if s.lk h ≠ lkTRAIN ∨ 8 ≤ seq ∨ 8 ≤ l.echoes then s
  else
    let m := max l.rtt rtt
    let lead : Int := ((m : Int) - 32 + 1) / 2 + 16
    let s1 := s.updLink h fun l => { l with echoes := l.echoes + 1, rtt := m }
    if l.echoes + 1 = 8 then
      (s1.setF F.LNK_TICK_LEAD_RTT h (min m 2047)).updLink h fun l => { l with lead := lead.toNat }
    else s1

/-- A block of the bonded stream in its turn. -/
def State.bonded (s : State) (h : Nat) (x : Waiting) : State :=
  if x.hdr = 1 then s.dataWord h x.w false
  else if x.hdr = 2 then
    if bitsOf x.w 7 0 = 0x78 then s.soi h x.w
    else if bitsOf x.w 7 0 = 0x6A then s.echo h (bitsOf x.w 15 8) x.rtt
    else s
  else s.dataWord h x.w true

/-- Deliver the blocks of the bonded stream whose turn has come, at most n: the block at position n of a marker period is that of the
active lane of rank n mod 5; holes go in their places; a push that stalls stops the stream; what a period that is over has not
brought is passed over.
DEDUCED, unsafe: log 101. -/
def State.drain : Nat → State → Nat → State
  | 0, s, _ => s
  | n + 1, s, h =>
    let l := s.link h
    if s.stalled h then s
    else match l.wait.find? fun x => x.pos = l.due with
      | some x =>
        ((s.updLink h fun l => { l with due := l.due + 1, wait := l.wait.filter fun y => y.pos ≠ x.pos }).bonded h x).drain n h
      | none =>
        let behind := decide (l.due < l.base)
        if s.isHole h ((s.ranked h).getD (l.due % 5) 6) && (behind || !l.wait.isEmpty) then
          ((s.updLink h fun l => { l with due := l.due + 1 }).dataWord h 0 true).drain n h
        else if behind then
          (s.updLink h fun l => { l with due := (l.wait.map (·.pos)).foldl min l.base }).drain n h
        else s

/-- Deliver what can be delivered. -/
def State.deliver (s : State) (h : Nat) : State := s.drain (5 * (s.link h).wait.length + 8) h

/-! ### Flushing (R92) -/

/-- Flush one FIFO; an RF flush truncates the drift of its beam (R209).
DESIGN CHOICE, unsafe: log 98. -/
def State.flushFifo (s : State) (h f : Nat) : State :=
  let x := s.fifo h f
  let s1 := if x.partly then
      ((s.setFifo h f { lastSeq := x.lastSeq, drop := true }).count F.LNK_DROP_TRUNC h).raiseLnk E.LNK_FLUSH_TRUNC h
    else s.setFifo h f { lastSeq := x.lastSeq, drop := x.drop, head := x.head }
  let s2 := if f < 2 then s1.updLink h fun l => { l with bank := l.bank.filter fun p => p.stream ≠ f } else s1
  if 2 ≤ f then (s2.truncate (4 * h + (f - 2))).rfFlushed (4 * h + (f - 2)) else s2

/-- Flush every stream of a head. -/
def State.flushLink (s : State) (h : Nat) : State := s.forEach (List.range 6) fun t f => t.flushFifo h f

/-! ### Popping (R89) -/

/-- Check a popped item (R89): poisoned words, parity, CRC, SEQ. The first item of a stream has no item before it to follow.
DESIGN CHOICE, unsafe: log 98. -/
def checkItem (f : Nat) (last : Option Nat) (it : Item) : Popped × Nat :=
  let ws := it.words.map (·.w)
  let bad := it.words.map LWord.bad
  let n := (bad.filter id).length
  let gap := match last with | some q => (it.seq + 255 - q) % 256 | none => 0
  ({ stream := f, tag := it.tag, words := ws, bad := n != 0 || (it.crc != 0 && itemCrc ws != it.crc) || gap != 0,
     poisoned := bad, missing := gap }, n)

/-- Pop an item of a FIFO with its checks and counts; a push that waited for it goes on. `flips` are bits of the stored item that have
changed: word, bit (R87, R89). -/
def State.popItem (s : State) (h f : Nat) (flips : List (Nat × Nat)) : State × Option Popped :=
  let x := s.fifo h f
  match x.pop (fifoWords f) with
  | (none, _) => (s, none)
  | (some it, y) =>
    let it1 := { it with words := it.words.mapIdx fun i w => flips.foldl (fun v p => if p.1 = i then v.flip p.2 else v) w }
    let r := checkItem f x.lastSeq it1
    let s1 := s.setFifo h f { y with lastSeq := some it.seq }
    ((s1.onlyIf (r.2 != 0) fun t => (t.addSat F.LNK_POISON_COUNT h r.2).raiseLnk E.LNK_POISON h).deliver h, some r.1)

/-- Pop an item of SERVO or STATUS into the input bank. -/
def State.popBank (s : State) (h f : Nat) (flips : List (Nat × Nat)) : State :=
  match s.popItem h f flips with
  | (t, none) => t
  | (t, some p) => t.updLink h fun l => { l with bank := l.bank ++ [p] }

/-- Pop an RF item into the read channel of its beam (R72, R89). -/
def State.popRf (s : State) (h f : Nat) (flips : List (Nat × Nat)) : State :=
  match s.popItem h f flips with
  | (t, none) => t
  | (t, some p) => t.rfItem (4 * h + (f - 2)) p

/-- Take the item of tick k of a stream from the input bank; others are late (R90). A BAD item counts as absent (R89). While the
head is OFF the SERVO items are discarded without a count. -/
def State.takeTick (s : State) (h f k : Nat) : State × Option Popped :=
  let s1 := (s.popBank h f []).popBank h f []
  let mine := (s1.link h).bank.filter fun p => p.stream = f
  let s2 := s1.updLink h fun l => { l with bank := l.bank.filter fun p => p.stream ≠ f }
  if f = 0 ∧ s.clr h = hdOFF then (s2, none)
  else
    let late := (mine.filter fun p => p.tag ≠ k % 65536).foldl (fun n p => n + p.words.length) 0
    (s2.onlyIf (late != 0) fun t => (t.addSat F.LNK_LATE_COUNT h late).raiseLnk E.LNK_LATE_WORD h,
     mine.find? fun p => p.tag = k % 65536 && !p.bad)

/-! ### Lane map (R80, R84, R86) -/

/-- Write the lane roles from the head's map: 0 active, 1 spare, 2 failed, 3 downstream, 4 OFF (R97). -/
def State.roles (s : State) (h : Nat) : State :=
  let off := s.lk h = lkOFF
  let s1 := s.forEach (List.range 6) fun t k =>
    t.setF F.LNK_LANE_STATUS_ROLE (upLane h k)
      (if off then 4 else if t.bitF F.LNK_HEAD_STATUS_FAILED h k then 2
       else if t.getF F.LNK_HEAD_STATUS_SPARE h = k then 1 else 0)
  s1.forEach [6, 7] fun t k => t.setF F.LNK_LANE_STATUS_ROLE (upLane h k) (if off then 4 else 3)

/-- Put the link into a state; its channels follow (R215). -/
def State.setLink (s : State) (h st : Nat) : State := ((s.setF F.LNK_HEAD_STATUS_STATE h st).roles h).chanFollow h

/-- The link enters OFF or FAILED: its streams are flushed and what is pending is forgotten (R86, R92). -/
def State.linkDown (s : State) (h st : Nat) : State :=
  let s1 := (s.flushLink h).updLink h fun l =>
    { l with cur := none, wait := [], req := none, sinceRot := 0, rotWait := 0, status := false, echoes := 0 }
  let s2 := if st = lkOFF then
      ((s1.setF F.LNK_HEAD_STATUS_FAILED h 0).setF F.LNK_HEAD_STATUS_ACTIVE h 0).setF F.LNK_HEAD_STATUS_SPARE h 7
    else s1
  s2.setLink h st

/-- Begin training (R86). -/
def State.linkTrain (s : State) (h : Nat) : State :=
  let s1 := s.updLink h fun l => { l with
    trainAt := s.tick, echoes := 0, rtt := 0, status := false, req := none, sinceRot := 0, rotWait := 0, base := 0, due := 0, wait := [] }
  let s2 := s1.forEach (List.range 8) fun t n => t.sendBlock h 0 (echoBlock n)
  let s3 := s2.forEach (List.range 8) fun t k => t.setLane (8 * h + k) { (t.lane (8 * h + k)) with miss := 0, good := 0, soak := 0, cnt := 0 }
  s3.setLink h lkTRAIN

/-- Take over an announced map: the spare (7 for none) and the failed mask (R80). -/
def State.applyMap (s : State) (h spare failed : Nat) : State :=
  let act := (List.range 6).foldl (fun m k => if k = spare ∨ failed.testBit k then m else m + 2 ^ k) 0
  (((s.setF F.LNK_HEAD_STATUS_SPARE h spare).setF F.LNK_HEAD_STATUS_FAILED h failed).setF F.LNK_HEAD_STATUS_ACTIVE h act).roles h

/-- Send ROTATE and remember the change it asks for (R83 to R86). -/
def State.sendRotate (s : State) (h k : Nat) (kind : MapReq) : State :=
  let m := ((s.link h).mark + 2) % 2 ^ 24
  (s.sendBlock h 0 (rotateBlock k (kind = .failover) (kind = .restore) m)).updLink h fun l => { l with req := some (kind, k, m) }

/-! ### Pattern generators and checkers (R93, R94) -/

/-- A checker's state shows in LNK_PRBS_ERR and its errors are counted (R93). -/
def State.setCheck (s : State) (l : Nat) (x : CheckS) : State :=
  ((s.setLane l { s.lane l with chk := { x with errs := 0 } }).setB F.LNK_PRBS_ERR_LOCK l x.lock).addSat F.LNK_PRBS_ERR_COUNT l x.errs

/-- Lane l's checker takes raw bits of the lane's pattern (R93). -/
def State.rawBits (s : State) (l : Nat) (bs : List Bool) : State :=
  if s.isSet F.LNK_PRBS_CTL_CHK_EN l && !s.isSet F.LNK_LANE_CTL_DIS l then
    s.setCheck l ((s.lane l).chk.bits (s.patOf l) (s.userPat l) (bs.map fun b => b != s.isSet F.LNK_PRBS_CTL_INV l))
  else s

/-- Lane l's generator in a servo tick of 15,625 bits: a downstream lane sends them; in near loopback the lane's own checker takes them.
DESIGN CHOICE, unsafe: log 99. -/
def State.patternTick (s : State) (l : Nat) : State :=
  if !s.isSet F.LNK_PRBS_CTL_GEN_EN l || s.isSet F.LNK_LANE_CTL_DIS l then s
  else
    let inv := s.isSet F.LNK_PRBS_CTL_INV l
    let r := genBits (s.patOf l) 15625 (s.lane l).gen
    let s1 := (s.setLane l { s.lane l with gen := r.2 }).onlyIf (decide (6 ≤ l % 8)) fun t => t.emit (.pattern l (s.patOf l) inv (s.lane l).gen)
    s1.onlyIf (s.isSet F.LNK_PRBS_CTL_NEAR l) fun t => t.rawBits l (r.1.map fun b => b != inv)

end Sys2Proof.Machine
end

