-- ==== Sys2Proof/Machine/Wrp.lean ====
section
/-!
DEFINITION. The write path's shared operations (11): open and sealed lodes, volume serials, encoding, sparing, acceptance,
catalogue snapshots and trailers, and what the head write cycle does with the lodes of a run. The meanings are in WrpCmds.lean.
-/
namespace Sys2Proof.Machine

/-! ### Names -/

/-- Write cycle states (R256). -/
def wsIDLE : Nat := 0
def wsPREP : Nat := 1
def wsCAL : Nat := 2
def wsWREV : Nat := 3
def wsVREV : Nat := 4
def wsRESOLVE : Nat := 5

/-- The write cycle state of head h. -/
def State.wcy (s : State) (h : Nat) : Nat := s.getF F.WRP_HEAD_STATE h

/-- Skip reasons (R266). -/
def skVERIFY : Nat := 1
def skCUT : Nat := 2
def skORDER : Nat := 3
def skHEAD : Nat := 4
def skFOUND : Nat := 5

/-- Change a seam. -/
def State.updSeam (s : State) (v n : Nat) (f : SeamS → SeamS) : State := s.setSeam v n (f (s.seam v n))

/-! ### Sparing records (R266, R275) -/

/-- The instance of entry r of seam n in the sparing table of deck v. -/
def spareIdx (v n r : Nat) : Nat := 24576 * v + 384 * n + r

/-- The sparing records of a seam: position, reason, lode. -/
def State.records (s : State) (v n : Nat) : List (Nat × Nat × Nat) :=
  (List.range (s.getF F.WRP_SEAM_NSKIP (seamIdx v n))).map fun r =>
    let i := spareIdx v n r
    (s.getF F.WRP_SPARE_POS i, s.getF F.WRP_SPARE_REASON i, s.getF F.WRP_SPARE_LODE i)

/-- The skipped positions of a seam, rising (R67). -/
def State.skips (s : State) (v n : Nat) : List Nat := (s.records v n).map (·.1)

/-- Write one entry of the sparing table. -/
def State.putSpare (s : State) (i : Nat) (valid : Bool) (r : Nat × Nat × Nat) : State :=
  (((s.setB F.WRP_SPARE_VALID i valid).setF F.WRP_SPARE_POS i r.1).setF F.WRP_SPARE_REASON i r.2.1).setF
    F.WRP_SPARE_LODE i r.2.2

/-- Write the records of a seam. -/
def State.putRecords (s : State) (v n : Nat) (l : List (Nat × Nat × Nat)) : State :=
  let old := s.getF F.WRP_SEAM_NSKIP (seamIdx v n)
  let s1 := (l.zipIdx).foldl (fun t p => t.putSpare (spareIdx v n p.2) true p.1) s
  let s2 := s1.forEach ((List.range old).filter fun r => l.length ≤ r) fun t r => t.putSpare (spareIdx v n r) false (0, 0, 0)
  s2.setF F.WRP_SEAM_NSKIP (seamIdx v n) l.length

/-- Insert a record at its place. -/
def insertRec (r : Nat × Nat × Nat) : List (Nat × Nat × Nat) → List (Nat × Nat × Nat)
  | [] => [r]
  | q :: qs => if r.1 ≤ q.1 then r :: q :: qs else q :: insertRec r qs

/-- Record a skip: SPARED (R266). -/
def State.addSkip (s : State) (v n pos reason lode : Nat) : State :=
  let s1 := s.putRecords v n (insertRec (pos, reason, lode) (s.records v n))
  let s2 := s1.updSeam v n fun x =>
    { x with sinceSnap := x.sinceSnap + 1, dirty := true, nextPhys := max x.nextPhys (pos + 1) }
  (s2.count F.WRP_SKIPS_SKIPPED 0).raise E.WRP_SPARED 0

/-! ### Open and sealed lodes (R250 to R253) -/

/-- Data lodes sealed and not yet counted in A. -/
def SeamS.dataLodes (x : SeamS) : List SealedLode := x.lodes.filter fun l => !l.cat

/-- L: the logical index of the open lode (R250). -/
def State.openIndex (s : State) (v n : Nat) : Nat := s.seamA v n + (s.seam v n).dataLodes.length

/-- The append point of a seam as a block (R250). -/
def State.appendPoint (s : State) (v n : Nat) : Nat :=
  128 * s.openIndex v n + (match (s.seam v n).openLode with | some o => o.drifts.length | none => 0)

/-- Form the serial of a blank volume (R253). -/
def State.formSerial (s : State) (v : Nat) : State :=
  let x := s.vol v
  if x.blank && x.serial == 0 then
    s.setVol v { x with serial := s.cfg.fuses.serial + s.getF F.CFG_BOOT_CTR_CTR 0 * 2 ^ 64 + s.tick % 2 ^ 32 * 2 ^ 96 }
  else s

/-- The lode of an open lode at sealing, with its physical position (R251, R254). -/
def State.sealedOf (s : State) (v n : Nat) (o : OpenLode) : SealedLode :=
  let p := physOf (s.skips v n) o.index
  { index := o.index, phys := p, x := lodeX p,
    user := o.drifts ++ List.replicate (128 - o.drifts.length) .pad, ringTime := s.ringNow,
    bootCtr := s.getF F.CFG_BOOT_CTR_CTR 0 }

/-- Put a data lode behind the data lodes of its seam. -/
def SeamS.addData (x : SeamS) (l : SealedLode) : SeamS :=
  { x with lodes := x.dataLodes ++ [l] ++ x.lodes.filter (·.cat) }

/-- Seal the open lode of a seam, when it holds host data (R251). -/
def State.sealLode (s : State) (v n : Nat) : State :=
  match (s.seam v n).openLode with
  | none => s
  | some o =>
    if o.drifts.isEmpty then s
    else
      let s1 := s.formSerial v
      let l := s1.sealedOf v n o
      let s2 := s1.updSeam v n fun x => { x.addData l with openLode := none }
      s2.onlyIf (o.drifts.length < 128) fun t => t.raise E.WRP_PAD 0

/-- Put one block into the open lode, opening one when needed; a full lode is sealed (R250, R251). -/
def State.putBlock (s : State) (v n : Nat) (f : DriftFill) : State :=
  let o := match (s.seam v n).openLode with
    | some o => o
    | none => { index := s.openIndex v n, linger := s.tick + 400 * s.getF F.WRP_LINGER_MS 0 }
  let o2 := { o with drifts := o.drifts ++ [f] }
  let s1 := s.updSeam v n fun x => { x with openLode := some o2 }
  if o2.drifts.length = 128 then s1.sealLode v n else s1

/-- Lodes sealed and not accepted that `nblk` further blocks would leave (R252, R314). -/
def State.sealedAfter (s : State) (v n nblk : Nat) : Nat :=
  let j := match (s.seam v n).openLode with | some o => o.drifts.length | none => 0
  (s.seam v n).dataLodes.length + (j + nblk) / 128

/-- The seam can take `nblk` blocks now: at most 16 sealed lodes, and no new open lode while 16 are pending (R252, R314). -/
def State.roomFor (s : State) (v n nblk : Nat) : Bool :=
  let j := match (s.seam v n).openLode with | some o => o.drifts.length | none => 0
  let after := s.sealedAfter v n nblk
  decide (after ≤ 16) && !(decide (16 ≤ after) && decide ((j + nblk) % 128 ≠ 0) && (decide (128 ≤ j + nblk) || j == 0))

/-- Replace a waiting drift by what has arrived. -/
def fillIn (pos page : Nat) (d : DriftFill) (l : List DriftFill) : List DriftFill :=
  l.map fun f => if f = .waiting pos page then d else f

/-- The logical lode and the drift of a seam that wait for a page of a write. -/
def State.waitingAt (s : State) (v n pos page : Nat) : Option (Nat × Nat) :=
  let x := s.seam v n
  let pairs := (x.openLode.toList.map fun o => (o.index, o.drifts)) ++ x.dataLodes.map fun l => (l.index, l.user)
  pairs.findSome? fun p => (p.2.findIdx? fun f => f = .waiting pos page).map fun i => (p.1, i)

/-- The data of a drift goes to the buffer in which the write path assembles its lode, 64 lines written as stream (R341).
DESIGN CHOICE, safe: log 111. -/
def State.assemble (s : State) (v n pos page : Nat) (d : DriftFill) : State :=
  match d, s.waitingAt v n pos page with
  | .data bytes, some (l, i) => s.streamRun (Config.assemblyBuffer (seamIdx v n) l + 65 * i) (toLines 64 bytes)
  | _, _ => s

/-- The data of a page of a write has arrived, or its transfer failed and the drift becomes padding. -/
def State.fillDrift (s : State) (v n pos page : Nat) (d : DriftFill) : State :=
  (s.assemble v n pos page d).updSeam v n fun x => { x with
    openLode := x.openLode.map fun o => { o with drifts := fillIn pos page d o.drifts }
    lodes := x.lodes.map fun l => { l with user := fillIn pos page d l.user } }

/-- All data of a lode has arrived (R314). -/
def SealedLode.arrived (l : SealedLode) : Bool :=
  l.user.all fun f => match f with | .waiting _ _ => false | _ => true

/-! ### Encoding (R254) -/

/-- User bytes and PAD flag of a data drift. -/
def DriftFill.content : DriftFill → List Nat × Bool
  | .data b => (b, false)
  | _ => (List.replicate 4096 0, true)

/-- The information bits of data drift i of a lode (R56, R57, R254). -/
def State.dataInfo (s : State) (v n : Nat) (l : SealedLode) (i : Nat) : Nat :=
  let c := (l.user.getD i .pad).content
  let m : Meta := {
    volSerial := (s.vol v).serial, kind := l.cat.toNat, seam := n, lodeSeq := l.index,
    phys := if l.cat then 0 else l.phys, drift := i, pad := c.2 && !l.cat, ringTime := l.ringTime, bootCtr := l.bootCtr }
  infoOfBytes (c.1 ++ m.encode c.1)

/-- The information bits of drift i, parity included (R62, R254). -/
def State.driftInfo (s : State) (v n : Nat) (l : SealedLode) (i : Nat) : Nat :=
  if i < 128 then s.dataInfo v n l i
  else (rsParityDrifts ((List.range 128).map fun k => s.dataInfo v n l k)).getD (i - 128) 0

/-- The channel bits of information bits recorded as drift index i (R58 to R61). -/
def driftChannel (i info : Nat) : List Bool := driftChannelBits i (ldpcEncode info)

/-! ### The queue of a head (R252, R256, R257) -/

/-- The lode has slots to record. -/
def SealedLode.toRecord (l : SealedLode) : Bool := !l.accepted && !l.cut && l.arrived && decide (l.recorded.length < 40)

/-- The lode is complete: all 160 drifts are recorded (R256). -/
def SealedLode.complete (l : SealedLode) : Bool := l.recorded.length == 40

/-- The home heads whose bands head h serves. -/
def State.servedBands (s : State) (h : Nat) : List Nat :=
  [h, partner h].filter fun b => s.server b = h && !s.unserved b

/-- Lodes of a seam queued to its head (R252); under a requested takeover only lodes already begun (R23). -/
def State.queuedLodes (s : State) (v n : Nat) (finish : Bool) : List SealedLode :=
  (s.seam v n).lodes.filter fun l => l.toRecord && (!finish || !l.recorded.isEmpty)

/-- The seams head h serves. -/
def State.headSeams (s : State) (h : Nat) : List Nat :=
  (List.range 64).filter fun n => (s.servedBands h).contains (homeHead (h / 4) n)

/-- WRP_HEAD.QUEUED: lodes queued to the head, at most 16 shown (R274). -/
def State.headQueued (s : State) (h : Nat) : Nat :=
  min 16 ((s.headSeams h).foldl (fun k n => k + (s.queuedLodes (h / 4) n false).length) 0)

/-- Band position and slot of slot m of a lode position. -/
def lodeSlotAt (n x m : Nat) : Nat × Nat := streamSlotPos (seamBand n) (lodeStreamSlot x m)

/-- The slots of a lode that are not recorded. -/
def SealedLode.unrecorded (l : SealedLode) : List Nat := (List.range 40).filter fun m => !l.recorded.contains m

/-- The band position of the first queued slot not recorded (R256).
DESIGN CHOICE, unsafe: log 117. -/
def State.firstPos (s : State) (v n : Nat) (finish : Bool) : Option Nat :=
  ((s.queuedLodes v n finish).flatMap fun l => l.unrecorded.map fun m => (lodeSlotAt n l.x m).1).min?

/-- A band position holds slots recorded and not yet verified (R256). -/
def State.posUnverified (s : State) (v n pos : Nat) : Bool :=
  (s.seam v n).lodes.any fun l => l.unverified.any fun m => (lodeSlotAt n l.x m).1 = pos

/-- The slots of a band position to record: lode, slot of the lode, slot index (R257). -/
def State.posSlots (s : State) (v n pos : Nat) (finish : Bool) : List (SealedLode × Nat × Nat) :=
  (s.queuedLodes v n finish).flatMap fun l =>
    (l.unrecorded.filter fun m => (lodeSlotAt n l.x m).1 = pos).map fun m => (l, m, (lodeSlotAt n l.x m).2)

/-- Change a lode of a seam. -/
def State.updLode (s : State) (v n : Nat) (cat : Bool) (index : Nat) (f : SealedLode → SealedLode) : State :=
  s.updSeam v n fun x => { x with lodes := x.lodes.map fun l => if l.cat = cat ∧ l.index = index then f l else l }

/-- The lode whose verify slot is y. -/
def State.lodeOfSlot (s : State) (v n y : Nat) : Option SealedLode := (s.seam v n).lodes.find? fun l => l.slot = some y

/-- A verify slot takes drift i only when the lode's slot has been recorded (R225, R256). -/
def State.verifyTakes (s : State) (y i : Nat) : Bool :=
  match s.lodeOfSlot (s.getF F.ASY_SLOT_ID_V y) (s.getF F.ASY_SLOT_ID_N y) y with
  | none => false
  | some l => l.recorded.contains (i / 4)

/-! ### Margins and acceptance (R262, R263) -/

/-- A delivered drift meets the margins (R262); x holds the drifts whose decode converged and passed R224. -/
def State.meets (s : State) (x : SlotS) (g : SlotDrift) : Bool :=
  !g.record.blank && !g.record.inferred && decide (g.record.syncOfs.natAbs ≤ s.getF F.WRP_VFY_CTL_VFY_SYNC 0) &&
  g.converged && decide (g.iters ≤ s.getF F.WRP_VFY_CTL_VFY_ITER 0) && x.margin.contains g.record.drift &&
  decide (g.record.quality ≤ s.getF F.WRP_VFY_CTL2_VFY_MSE 0) && decide (g.record.defects ≤ s.getF F.WRP_VFY_CTL2_VFY_DEF 0)

/-- Drifts of a slot's read that do not meet the margins, missing ones included (R262). -/
def State.marginFails (s : State) (x : SlotS) : Nat := 160 - (x.got.filter fun g => s.meets x g).length

/-- The slot's read is accepted under R263. -/
def State.acceptable (s : State) (x : SlotS) : Bool :=
  (x.outcome = some .clean || x.outcome = some .corrected) &&
  decide (s.marginFails x ≤ s.getF F.WRP_VFY_CTL_VFY_ERA 0)

/-! ### Completing write commands (R264, R267, R314) -/

/-- A write command of a seam with blocks assigned. -/
def Cmd.writesSeam (c : Cmd) (v n : Nat) : Bool :=
  (c.opc == 0x11 || c.opc == 0x12) && c.seam? == some (v, n) && c.assigned.isSome

/-- The LBA of a block of seam n. -/
def lbaOf (n block : Nat) : Nat := n * 2 ^ 23 + block

/-- Write commands whose blocks all lie below the write pointer complete (R264, R314). -/
def State.completeWrites (s : State) (v n : Nat) : State :=
  let wp := 128 * s.seamA v n
  s.setCmds (s.hqi.cmds.map fun c =>
    match c.assigned with
    | some a => if c.writesSeam v n && decide (a + c.nblk ≤ wp) then c.finish stSuccess (lbaOf n a) else c
    | none => c)

/-- Write commands with a block in a lode at or above `index` complete with SPARES EXHAUSTED (R267, R314). -/
def State.exhaustWrites (s : State) (v n index : Nat) : State :=
  s.finishAll (fun c => match c.assigned with
    | some a => c.writesSeam v n && decide (128 * index < a + c.nblk)
    | none => false) stSparesExhausted

/-! ### Snapshots and trailers (R268, R269) -/

/-- The 4,096 bytes of a snapshot (R269). -/
def Snapshot.bytes (p : Snapshot) : List Nat :=
  let head := leBytes 4 (if p.trailer then 2 else 1) ++ leBytes 4 p.seq ++ leBytes 4 p.lodes ++ leBytes 4 p.nextPhys ++
    leBytes 2 p.skips.length ++ [p.exhausted.toNat, 0] ++ leBytes 5 p.ringTime ++ List.replicate 39 0
  let body := (List.range 384).flatMap fun r =>
    match p.skips[r]? with
    | some q => leBytes 4 (q.1 % 2 ^ 16 + q.2 % 16 * 2 ^ 16)
    | none => leBytes 4 0
  let b := head ++ body ++ List.replicate 2492 0
  b ++ leBytes 4 (crc32c b)

/-- Read a snapshot; none when the CRC or the type is wrong (R269, R272). -/
def Snapshot.parse (b : List Nat) : Option Snapshot :=
  let typ := ofLeBytes (b.take 4)
  if ofLeBytes ((b.drop 4092).take 4) != crc32c (b.take 4092) || (typ != 1 && typ != 2) then none
  else
    let k := min 384 (ofLeBytes ((b.drop 16).take 2))
    some {
      trailer := typ = 2, seq := ofLeBytes ((b.drop 4).take 4), lodes := ofLeBytes ((b.drop 8).take 4),
      nextPhys := ofLeBytes ((b.drop 12).take 4), exhausted := b.getD 18 0 % 2 = 1,
      ringTime := ofLeBytes ((b.drop 20).take 5),
      skips := (List.range k).map fun r =>
        let w := ofLeBytes ((b.drop (64 + 4 * r)).take 4)
        (w % 2 ^ 16, w / 2 ^ 16 % 16) }

/-- The SEAL SEAM commands of a seam complete (R269, R314). -/
def State.finishSeal (s : State) (v n : Nat) (st : Status) : State :=
  let wp := lbaOf n (128 * s.seamA v n)
  let s1 := s.setCmds (s.hqi.cmds.map fun c =>
    if c.opc = 0x14 ∧ c.seam? = some (v, n) ∧ c.stage = .running then c.finish st wp else c)
  s1.updSeam v n fun x => { x with sealCmd := none }

/-- A trailer that found no position: the seam is sealed for the rest of the mount (R269). -/
def State.sealWithout (s : State) (v n : Nat) : State :=
  (((s.raise E.WRP_CAT_FULL 0).setB F.WRP_SEAM_SEALED (seamIdx v n) true).updSeam v n fun x => { x with noTrailer := true }).finishSeal
    v n stCatalogueFull

/-- Queue a catalogue lode with given content at the next free position, or report that there is none (R268, R269). -/
def State.queueCat (s : State) (v n : Nat) (trailer : Bool) (content : List Nat) : State :=
  let c := (s.seam v n).catNext
  if c < (if trailer then 192 else 188) then
    let l : SealedLode := {
      cat := true, index := c, x := c, user := List.replicate 128 (.data content), trailer := trailer,
      ringTime := s.ringNow, bootCtr := s.getF F.CFG_BOOT_CTR_CTR 0 }
    (s.formSerial v).updSeam v n fun x => { x with lodes := x.lodes ++ [l], catNext := c + 1 }
  else if trailer then s.sealWithout v n
  else s.raise E.WRP_CAT_FULL 0

/-- Write a snapshot or a trailer of a seam as it stands (R268, R269). -/
def State.snapshot (s : State) (v n : Nat) (trailer : Bool) : State :=
  let x := s.seam v n
  let p : Snapshot := {
    trailer := trailer, seq := x.snapSeq, lodes := s.seamA v n, nextPhys := x.nextPhys,
    exhausted := s.isSet F.WRP_SEAM_EXHAUSTED (seamIdx v n), ringTime := s.ringNow,
    skips := (s.records v n).map fun r => (r.1, r.2.1) }
  let fits := decide (x.catNext < if trailer then 192 else 188)
  (s.updSeam v n fun x => { x with snapSeq := if fits then x.snapSeq + 1 else x.snapSeq, sinceSnap := 0, dirty := false }).queueCat
    v n trailer p.bytes

/-- A trailer of the seam is queued. -/
def SeamS.trailerQueued (x : SeamS) : Bool := x.lodes.any fun l => l.cat && l.trailer

/-- The trailer is due: SEAL SEAM with every lode accepted, A = 61,440, or exhaustion (R269). -/
def State.trailerDue (s : State) (v n : Nat) : Bool :=
  let x := s.seam v n
  !s.isSet F.WRP_SEAM_SEALED (seamIdx v n) && !x.trailerQueued && x.dataLodes.isEmpty &&
  (x.sealCmd.isSome || decide (seamLodes ≤ s.seamA v n) || s.isSet F.WRP_SEAM_EXHAUSTED (seamIdx v n))

/-- Write what is due in the catalogue after a change (R268, R269). -/
def State.catalogueDue (s : State) (v n : Nat) : State :=
  if s.trailerDue v n then s.snapshot v n true
  else if decide ((s.seam v n).sinceSnap ≥ max 1 (s.getF F.WRP_CTL_CAT_BATCH 0)) && !(s.seam v n).trailerQueued &&
    !s.isSet F.WRP_SEAM_SEALED (seamIdx v n) then s.snapshot v n false
  else s

/-! ### Resolving a run (R256, R263 to R268) -/

/-- What RESOLVE finds for a lode of the run. -/
inductive Verdict where
  | stays | accepted | failed (reason : Nat)
  deriving DecidableEq, Repr

/-- The verdict of a lode of the run; `left` says how the head left WRITE or VERIFY, if it did (R256, R260, R263). -/
def State.verdict (s : State) (left : Option Bool) (l : SealedLode) : Verdict :=
  if l.cut then .failed skCUT
  else
    match l.slot with
    | some y =>
      if l.complete && (s.slot y).outcome.isSome then
        if s.acceptable (s.slot y) then .accepted else .failed skVERIFY
      else if left = some false then .failed skHEAD else .stays
    | none => if left = some false then .failed skHEAD else .stays

/-- Release the verify slot of a lode. -/
def State.dropSlot (s : State) (l : SealedLode) : State :=
  match l.slot with
  | some y => s.releaseSlot y
  | none => s

/-- A lode returns to the queue with the position R67 gives it now; its recorded slots are forgotten (R254, R265). -/
def SealedLode.replaced (l : SealedLode) (skips : List Nat) : SealedLode :=
  let p := physOf skips l.index
  if p = l.phys && l.recorded.isEmpty then l
  else { l with phys := p, x := lodeX p, recorded := [], unverified := [], cut := false, slot := none,
                accepted := false, inRun := false }

/-- Exhaustion: the lode `index` and every later pending lode fail (R267). -/
def State.exhaust (s : State) (v n index : Nat) : State :=
  let gone := (s.seam v n).dataLodes.filter fun l => index ≤ l.index
  let s1 := s.forEach gone fun t l => t.dropSlot l
  let s2 := s1.updSeam v n fun x =>
    { x with lodes := x.lodes.filter (fun l => l.cat || decide (l.index < index)), openLode := none, dirty := true }
  ((s2.setB F.WRP_SEAM_EXHAUSTED (seamIdx v n) true).raise E.WRP_SEAM_EXHAUSTED 0).exhaustWrites v n index

/-- Skip the positions of lodes, in increasing order of position, until the records run out (R265, R267). -/
def State.skipAll (s : State) (v n : Nat) : List (Nat × Nat × Nat) → State
  | [] => s
  | (pos, reason, lode) :: rest =>
    if 384 ≤ s.getF F.WRP_SEAM_NSKIP (seamIdx v n) then s.exhaust v n lode
    else (s.addSkip v n pos reason lode).skipAll v n rest

/-- Count the accepted lodes at the front into A (R264). -/
def State.countAccepted (s : State) (v n : Nat) : Nat → State
  | 0 => s
  | k + 1 =>
    match (s.seam v n).dataLodes with
    | [] => s
    | l :: _ =>
      if l.accepted then
        let s1 := (s.dropSlot l).setF F.WRP_SEAM_LODES (seamIdx v n) (s.seamA v n + 1)
        let s2 := s1.updSeam v n fun x =>
          { x with lodes := x.lodes.filter (fun m => m.cat || decide (m.index ≠ l.index)), dirty := true,
                   nextPhys := max x.nextPhys (l.phys + 1) }
        s2.countAccepted v n k
      else s

/-- Skip and re-queue after failures in the run: the lowest failed position and every higher one with a recorded slot, recorded in this
run or, not yet counted in A, in an earlier one (R256, R265, R266).
DEDUCED, unsafe: log 116. -/
def State.spare (s : State) (v n : Nat) (vs : List (SealedLode × Verdict)) : State :=
  let failed := vs.filter fun p => match p.2 with | .failed _ => true | _ => false
  match (failed.map fun p => p.1.phys).min? with
  | none => s
  | some p0 =>
    let others := (s.seam v n).lodes.filter fun l =>
      !l.cat && !l.recorded.isEmpty && !vs.any fun p => p.1.index = l.index
    let hit := ((vs ++ others.map fun l => (l, Verdict.stays)).filter fun p => p0 ≤ p.1.phys).mergeSort fun a b => decide (a.1.phys ≤ b.1.phys)
    let s1 := s.forEach hit fun t p => t.dropSlot p.1
    let s2 := s1.skipAll v n (hit.map fun p =>
      (p.1.phys, (match p.2 with | .failed r => r | _ => skORDER), p.1.index))
    let skips := s2.skips v n
    s2.updSeam v n fun x =>
      { x with lodes := x.lodes.map fun l => if l.cat || decide (l.phys < p0) then l else l.replaced skips }

/-- Count and report a rejection (R263). -/
def State.reportReject (s : State) (x : Verdict) : State :=
  if x = .failed skVERIFY ∨ x = .failed skCUT then (s.count F.WRP_LODES_REJECTED 0).raise E.WRP_LODE_REJECT 0
  else if x = .accepted then s.count F.WRP_LODES_ACCEPTED 0
  else s

/-- Resolve a catalogue lode: accepted, or the same content at the next position (R268, R269). -/
def State.resolveCat (s : State) (v n : Nat) (l : SealedLode) (x : Verdict) : State :=
  let gone := (s.dropSlot l).updSeam v n fun y =>
    { y with lodes := y.lodes.filter fun m => !(m.cat && m.index == l.index) }
  match x with
  | .stays => s
  | .accepted =>
    if l.trailer then (gone.setB F.WRP_SEAM_SEALED (seamIdx v n) true).finishSeal v n stSuccess else gone
  | .failed _ => gone.queueCat v n l.trailer ((l.user.headD .pad).content.1)

/-- Acceptance and sparing of a seam's run (R256, R263 to R269); when the head has failed, of every lode that it had begun and that
is not accepted (R15). -/
def State.resolveSeam (s : State) (v n : Nat) (left : Option Bool) : State :=
  let run := (s.seam v n).lodes.filter fun l => l.inRun || (left == some false && !l.accepted && !l.recorded.isEmpty)
  let vs := run.map fun l => (l, s.verdict left l)
  let data := vs.filter fun p => !p.1.cat
  let cats := vs.filter fun p => p.1.cat
  let s1 := s.forEach vs fun t p => t.reportReject p.2
  let s2 := s1.updSeam v n fun x => { x with
    nextPhys := data.foldl (fun k p => max k (p.1.phys + 1)) x.nextPhys
    lodes := x.lodes.map fun l =>
      if data.any fun p => p.1.index = l.index ∧ p.2 = .accepted then
        if l.cat then l else { l with accepted := true, inRun := false }
      else l }
  let s3 := s2.spare v n data
  let s4 := s3.forEach cats fun t p => t.resolveCat v n p.1 p.2
  let s5 := s4.countAccepted v n (s4.seam v n).lodes.length
  (s5.completeWrites v n).catalogueDue v n

/-! ### The gate (R258 to R260) -/

/-- Cut the slot being recorded by head h: its lode fails in the run (R260). -/
def State.cutDrift (s : State) (h : Nat) : State :=
  let w := (s.head h).write
  match w.recording with
  | none => s
  | some r =>
    let s1 := s.setHead h { s.head h with write := { w with recording := none, sending := none } }
    let s2 := s1.updLode (h / 4) w.seam r.cat r.index fun l => if r.step.isSome then l else { l with cut := true }
    (s2.addSat F.WRP_GATE_CUTS 0 4).raise E.WRP_GATE_CUT 0

/-- Send GATE_CLOSE for head h on D0 and D1 with the TAG of the DRIVE item of the next tick (R78, R260). -/
def State.gateClose (s : State) (h : Nat) : State :=
  let s1 := (s.forEach [0, 1] fun t j => t.sendBlock h j (gateCloseBlock (s.tick + 1))).count F.WRP_GATE_CLOSES 0
  (s1.setHead h { s1.head h with write := { (s1.head h).write with wg := false, wgNext := false } }).cutDrift h

/-- The head leaves WRITE or VERIFY other than through a containment freeze; `stays` says that it entered HOLD (R256, R260). -/
def State.leaveWrite (s : State) (h : Nat) (stays : Bool) : State :=
  let w := s.wcy h
  if w = wsIDLE then s
  else
    let s1 := if (w == wsWREV || w == wsCAL) && s.clr h == hdWRITE then s.gateClose h else s
    let old : WriteS := { (s1.head h).write with edge := false }
    let left := if old.left = some false then some false else some stays
    if w = wsWREV || w = wsVREV || w = wsRESOLVE || !stays then
      (s1.setHead h { s1.head h with write := { old with left := left, cal := none } }).setF F.WRP_HEAD_STATE h wsRESOLVE
    else
      (s1.setHead h { s1.head h with write := { old with cal := none } }).setF F.WRP_HEAD_STATE h wsPREP

end Sys2Proof.Machine
end

