-- ==== Sys2Proof/Machine/HeadOps.lean ====
section
/-!
DEFINITION. Heads as wholes: entering a head state (R117, R118), HOLD and SAFE, the action of head-fatal and deck-fatal events
(R19), takeover and handback (R14 to R18, R23 to R26), the loss of a volume (R316).
-/
namespace Sys2Proof.Machine

/-- A Collier beside its registers. -/
def State.cl (s : State) (h : Nat) : ClrS := (s.head h).clr

/-- Change a Collier. -/
def State.updClr (s : State) (h : Nat) (f : ClrS → ClrS) : State := s.setHead h { s.head h with clr := f (s.head h).clr }

/-- A loop of a Collier. -/
def State.loop (s : State) (h i : Nat) : LoopS := vget (s.cl h).loops {} i

/-- Change a loop of a Collier. -/
def State.updLoop (s : State) (h i : Nat) (f : LoopS → LoopS) : State :=
  s.updClr h fun c => { c with loops := vset c.loops i (f (vget c.loops {} i)) }

/-! ### Loops and sequences -/

/-- Close loop i with an integrator value; section states are cleared when `fresh` says so. -/
def State.closeLoop (s : State) (h i : Nat) (acc : Option Int) (fresh : Bool) : State :=
  (s.updLoop h i fun l =>
    { l with acc := acc.getD l.acc, limited := false, sos := if fresh then List.replicate 12 (0, 0) else l.sos }).setB
    F.CLR_LOOP_CTL_CLOSED (3 * h + i) true

/-- Open loop i: FOCUS_OK falls with focus, TF with tracking (R113). -/
def State.openLoop (s : State) (h i : Nat) : State :=
  let s1 := s.setB F.CLR_LOOP_CTL_CLOSED (3 * h + i) false
  if i = 0 then s1.setB F.CLR_STATUS_FOCUS_OK h false
  else if i = 1 then ((s1.setB F.CLR_STATUS_TF h false).updClr h fun c => { c with tfGood := 0, wgGood := 0 }).chanFollow h
  else s1

/-- An S0.15 field of head h's Collier, in 2^-23 (R3). -/
def State.s15 (s : State) (h : Nat) (f : Field) : Int := sgn 16 (s.getF f h) * 256

/-- Set the drive of an open loop. -/
def State.driveLoop (s : State) (h i : Nat) (u : Int) : State :=
  (s.updLoop h i fun l => { l with u := u }).setF F.CLR_OUT_U (3 * h + i) (unsgn 24 u)

/-- Open all loops. -/
def State.openAll (s : State) (h : Nat) : State := ((s.openLoop h 0).openLoop h 1).openLoop h 2

/-- CLR_STATUS.PHASE of a sequence step (R120, R124). -/
def SeqStep.phase : SeqStep → Nat
  | .sweep _ _ n _ => if n = 0 then 1 else 2
  | .capture _ _ _ => 3
  | .ramp _ _ => 1
  | .acqTrack _ => 4
  | .kick .. => 5
  | .brake .. => 6
  | .settle .. => 7
  | .sledMove .. => 8
  | .sledTrack .. => 4
  | .hop .. => 9
  | .hopTrack _ => 4
  | .recapture _ => 4
  | .ended => 0

/-- Set the running sequence. -/
def State.setSeq (s : State) (h : Nat) (q : Option SeqStep) : State :=
  (s.updClr h fun c => { c with seq := q }).setF F.CLR_STATUS_PHASE h (match q with | none => 0 | some x => x.phase)

/-- Clear TRK_VALID: TRACK becomes an estimate (R114). -/
def State.loseTrack (s : State) (h : Nat) : State :=
  (s.setB F.CLR_STATUS_TRK_VALID h false).setB F.CLR_POS_EST h true

/-- The lens offset is cleared (R108). -/
def State.clearLo (s : State) (h : Nat) : State :=
  (s.updClr h fun c => { c with lo := 0 }).setF F.CLR_SF_STATUS_LO h 0

/-- The read power code returns to START (R110). -/
def State.startPower (s : State) (h : Nat) : State :=
  (s.setF F.CLR_RP_STATUS_CODE h (s.getF F.CLR_RP_LIM_START h)).updClr h fun c => { c with rpWait := 0 }

/-! ### Entering a head state (R117, R118) -/

/-- What retracts the lens: all loops open, no sequence, no off-track counts. -/
def State.retract (s : State) (h : Nat) : State :=
  let s1 := ((s.openAll h).setSeq h none).updClr h fun c =>
    { c with tfGood := 0, tfBad := 0, wgGood := 0, okRun := 0, sumLow := 0, fixWait := 0 }
  ((s1.driveLoop h 0 0).driveLoop h 1 0).driveLoop h 2 0

/-- Put head h into a state with the state's entry actions; its channels follow. -/
def State.setClr (s : State) (h new : Nat) : State :=
  let old := s.clr h
  let s1 := ((s.setF F.CLR_STATUS_STATE h new).setB F.CLR_STATUS_PERMIT h false).lrnEnter h old new
  let s2 := if old = hdHOLD && new != hdHOLD then s1.setB F.CLR_STATUS_HOLD_OVR h false else s1
  let s3 :=
    if new = hdOFF then (((s2.retract h).startPower h).axisHeadOff h)
    else if new = hdPARKED then
      let t := (((s2.retract h).loseTrack h).clearLo h).startPower h
      if old = hdOFF then t.axisOn h else t.axisHeadParked h
    else if new = hdACQUIRE then ((s2.retract h).clearLo h).startPower h
    else if new = hdSAFE then ((((s2.retract h).clearLo h).startPower h).axisHeadSafe h).flushLink h
    else if new = hdHOLD then (s2.setSeq h none).updClr h fun c => { c with hold := 0 }
    else s2
  s3.chanFollow h

/-- Begin focus acquisition for the layer (R120). -/
def State.beginAcquire (s : State) (h layer : Nat) : State :=
  let amp : Int := s.s15 h F.CLR_FA_CTL_AMP
  (((s.setClr h hdACQUIRE).setF F.CLR_POS_LAYER h layer).setSeq h (some (.sweep 1 (-amp) 0 false))).driveLoop h 0 (-amp)

/-! ### Interrupting the operation of a head (R118) -/

/-- An acquisition of a self-test failed (R320). -/
def State.testAcqFailed (s : State) (h : Nat) : State :=
  let d := deckOfHead h
  { s with hqi := { s.hqi with tests := vset s.hqi.tests d { (vget s.hqi.tests {} d) with acqFailed := true } } }

/-- The operation of head h is interrupted; `stays` says that the head remains the serving head. A read has its lode end, a
write cycle is left (R256), any other operation is issued again; a takeover seek is not (R15). -/
def State.interruptOp (s : State) (h : Nat) (stays : Bool) : State :=
  let s1 := s.leaveWrite h stays
  match (s1.head h).op with
  | none => s1
  | some o =>
    match o.kind with
    | .read => (s1.interruptRead h).endOp h
    | .takeoverSeek => s1.endOp h
    | .write => s1.endOp h
    | .testAcquire => (s1.testAcqFailed h).endOp h
    | _ => if stays then (s1.endOp h).issue h o else s1.endOp h

/-- Enter HOLD; `overrun` says through overruns (R38, R118). -/
def State.enterHold (s : State) (h : Nat) (overrun : Bool) : State :=
  let st := s.clr h
  if st = hdOFF || st = hdSAFE then s
  else
    let s1 := s.interruptOp h true
    let s2 := if st = hdHOLD then s1 else s1.setClr h hdHOLD
    s2.onlyIf overrun fun t => t.setB F.CLR_STATUS_HOLD_OVR h true

/-! ### Routing (R14 to R18, R23 to R26) -/

/-- Change the routing of the band of h. -/
def State.updBand (s : State) (h : Nat) (f : BandS → BandS) : State := s.setHead h { s.head h with band := f (s.head h).band }

/-- Set or clear GLB_TAKEOVER bit h. -/
def State.setTaken (s : State) (h : Nat) (b : Bool) : State := s.putF F.GLB_TAKEOVER_SERVED_BY_PARTNER 0 h b

/-- The band of h is left unserved: its commands complete with SIDE UNAVAILABLE (R14, R16, R26). -/
def State.leaveUnserved (s : State) (h : Nat) : State :=
  ((s.setTaken h false).updBand h fun b => { b with unserved := true, take := .none, requested := false, handback := false }).failBand
    h stSideUnavailable

/-- Both bands of a side become unserved (R16). -/
def State.sideLost (s : State) (h : Nat) : State :=
  ((s.raise E.GLB_SIDE_LOST 0).leaveUnserved h).leaveUnserved (partner h)

/-- TAKEOVER_REFUSED. -/
def State.refuse (s : State) : State := s.raise E.GLB_TAKEOVER_REFUSED 0

/-- The partner is in none of SAFE, OFF and HOLD (R14).
DEDUCED, unsafe: log 30. -/
def State.partnerFit (s : State) (h : Nat) : Bool :=
  let st := s.clr (partner h)
  st != hdSAFE && st != hdOFF && st != hdHOLD

/-- Step 1 of takeover of h's band; the partner's own queue waits with the band's, and its write cycle takes no further lode (R15).
An unserved band counts as served again from here on: its commands wait for TAKEOVER_DONE.
DESIGN CHOICE, unsafe: log 83. -/
def State.startTakeover (s : State) (h : Nat) (requested : Bool) : State :=
  let p := partner h
  let s1 := (((s.raise E.GLB_TAKEOVER_START 0).updBand h fun b =>
    { b with unserved := false, take := .waitPartner, requested := requested, handback := false }).flushHead h).withdraw p
  s1.setHead p { s1.head p with write := { (s1.head p).write with finish := s1.wcy p != wsIDLE } }

/-- A takeover of h's band has ended without success (R15 step 4). -/
def State.takeoverFails (s : State) (h : Nat) : State := (s.refuse.leaveUnserved h).issueWaiting

/-- Steps 2 and 3 of a handback of h's band (R18). -/
def State.handbackDone (s : State) (h : Nat) : State :=
  (((s.setTaken h false).updBand h fun b => { b with handback := false, unserved := false }).raise
    E.GLB_HANDBACK_DONE 0).issueWaiting

/-- The conditions of automatic takeover of the band of h (R14, R25).
DEDUCED, unsafe: log 30. -/
def State.autoAllowed (s : State) (h : Nat) : Bool :=
  let d := deckOfHead h
  s.bitF F.GLB_TAKEOVER_CTL_AUTO 0 d && s.deck d == dkREADY && s.partnerFit h && !s.taken (partner h)

/-- Automatic takeover of the band of h, or the band is left unserved (R14). -/
def State.autoTakeover (s : State) (h : Nat) : State :=
  if s.autoAllowed h then s.startTakeover h false else s.takeoverFails h

/-- The band of h is at home: its own head serves it, and nothing moves it. -/
def State.atHome (s : State) (h : Nat) : Bool :=
  !s.taken h && !s.unserved h && !s.taking h && !(s.head h).band.handback

/-- The side of h is lost; the automatic takeover of h's band that cannot begin is refused (R14, R16, R25). -/
def State.loseSide (s : State) (h : Nat) : State :=
  (s.onlyIf (s.atHome h && !s.autoAllowed h) State.refuse).sideLost h

/-- The takeover of the band of p that was requested is given up, since the head that was to serve it has failed: refused, and
the home head keeps its band.
DESIGN CHOICE, unsafe: log 84. -/
def State.giveUpRequested (s : State) (p : Nat) : State :=
  s.refuse.updBand p fun b => { b with take := .none, requested := false }

/-- The routing of the side after a head-fatal event of h, which is in SAFE now (R14, R16, R18, R23, R25).
DESIGN CHOICE, unsafe: log 84. -/
def State.routeFailure (s : State) (h : Nat) : State :=
  let p := partner h
  let bh := (s.head h).band
  let bp := (s.head p).band
  if bp.failed then s.loseSide h
  else if s.taken p then
    if bp.handback then (s.handbackDone p).autoTakeover h else s.loseSide h
  else if bp.unserved then s.loseSide h
  else if bp.take ≠ .none then
    if bp.requested then (s.giveUpRequested p).autoTakeover h else s.loseSide h
  else if bh.handback then ((s.updBand h fun b => { b with handback := false }).refuse).issueWaiting
  else if bh.take ≠ .none then s.updBand h fun b => { b with requested := false }
  else if s.taken h || bh.unserved then s
  else s.autoTakeover h

/-! ### SAFE (R19, R462) -/

/-- Head h enters SAFE: in-flight and queued operations and the ladders of its reads are dealt with, its staging is flushed, the
bit of GLB_HEAD_FAULT is set (R15, R238). -/
def State.toSafe (s : State) (h : Nat) : State :=
  if s.clr h = hdOFF || s.clr h = hdSAFE then s
  else
    let s1 := ((((s.requeueRead h).requeueJobs h).flushHead h).interruptOp h false).withdraw h
    (s1.setClr h hdSAFE).putF F.GLB_HEAD_FAULT_HEAD 0 h true

/-- The action of a head-fatal event of head h (R19). -/
def State.headFatal (s : State) (h : Nat) : State :=
  if s.clr h = hdOFF || s.clr h = hdSAFE then s
  else (((s.toSafe h).updBand h fun b => { b with failed := true })).routeFailure h

/-! ### The loss of a volume (R17, R19, R316) -/

/-- Lodes, open and sealed, and recoveries of a volume are forgotten when it is unmounted. -/
def State.dropVolume (s : State) (v : Nat) : State :=
  let ys := (List.range 96).filter fun y => s.slotUsed y && s.getF F.ASY_SLOT_ID_V y = v
  let s1 := (s.forEach ys fun t y => t.releaseSlot y).flushStaging fun c => decide (c / 16 = v)
  let s2 := { s1 with asy := { s1.asy with waiting := s1.asy.waiting.filter fun o => o.vol ≠ v } }
  let s3 := s2.forEach (List.range 4) fun t k =>
    let h := 4 * v + k
    let x := t.head h
    (t.setHead h { x with ops := [], op := none, write := { ({} : WriteS) with
      calTemp := x.write.calTemp, calFree := x.write.calFree, calFull := x.write.calFull } }).setF F.WRP_HEAD_STATE h wsIDLE
  let s4 := s3.forEach (List.range 64) fun t n =>
    let i := seamIdx v n
    ((((t.putRecords v n []).setB F.WRP_SEAM_KNOWN i false).setB F.WRP_SEAM_SEALED i false).setB F.WRP_SEAM_EXHAUSTED i false).setF
      F.WRP_SEAM_LODES i 0
  s4.setVol v {}

/-- The volume of deck d goes away: its commands complete with a status and it is unmounted (R316, R382). -/
def State.volumeGone (s : State) (d : Nat) (st : Status) : State :=
  let s1 := s.finishAll (fun c => decide (c.vol = d) && (c.seam?.isSome || c.opc == 0x06 || c.opc == 0x0A || c.opc == 0x0B)) st
  let s2 := { s1 with hqi := { s1.hqi with tests := vset s1.hqi.tests d { (vget s1.hqi.tests {} d) with running := none } } }
  s2.dropVolume d

/-- The volume of deck d is lost: its commands complete with VOLUME UNAVAILABLE (R316). -/
def State.volumeLost (s : State) (d : Nat) : State :=
  (s.volumeGone d stVolumeUnavailable).onlyIf (s.vol d).mounted fun t => t.raise E.HQI_VOLUME_LOST 0

/-- The heads, routing and volume of deck d after a deck-fatal event; the Winder's part is in WndOps.lean (R17, R19). -/
def State.deckHeadsFatal (s : State) (d : Nat) : State :=
  let hs := (List.range 4).map fun k => 4 * d + k
  let s1 := s.forEach hs fun t h => t.toSafe h
  let s2 := s1.forEach hs fun t h =>
    (t.setTaken h false).updBand h fun b => { b with take := .none, requested := false, handback := false }
  s2.volumeLost d

end Sys2Proof.Machine
end

