-- ==== Sys2Proof/Machine/Collier.lean ====
section
/-!
DEFINITION. The Colliers (05): the loop datapath (R100 to R104), neighbour feed-forward (R112), sled follow (R109), read power
(R110), track position (R114), the sequences (R119 to R123) and what their steps do at a servo tick. The meanings that call
these are in ClrCmds.lean and TickCmds.lean.
-/
namespace Sys2Proof.Machine

/-! ### Saturation flags (R103) -/

/-- The flag field of loop i and the bits of its flags. -/
def satField (i : Nat) : Field := if i = 0 then F.CLR_SAT_LOOP0 else if i = 1 then F.CLR_SAT_LOOP1 else F.CLR_SAT_LOOP2
def sfIN : Nat := 1
def sfACC : Nat := 2
def sfSEC : Nat := 4
def sfINT_CLAMP : Nat := 8
def sfINT_HOLD : Nat := 16
def sfSUM : Nat := 32
def sfOUT : Nat := 64

/-- Set saturation flags of loop i; SAT is raised when one of them was clear (R103). -/
def State.satFlags (s : State) (h i m : Nat) : State :=
  let old := s.getF (satField i) h
  if old ||| m = old then s else (s.setF (satField i) h (old ||| m)).raise E.CLR_SAT h

/-- Set CLR_SAT.NFF. -/
def State.satNff (s : State) (h : Nat) : State :=
  if s.isSet F.CLR_SAT_NFF h then s else (s.setB F.CLR_SAT_NFF h true).raise E.CLR_SAT h

/-! ### The datapath (R100, R101) -/

/-- A value with the flags its computation set. -/
abbrev Flagged := Int × Nat

/-- Saturate to S0.23, with a flag. -/
def satF (flag : Nat) (z : Int) : Flagged := (sat23 z, if sat23 z = z then 0 else flag)

/-- Reduce an accumulation to S0.23, with a flag. -/
def redF (flag : Nat) (z : Int) : Flagged := satF flag (red z)

/-- Accumulate in S3.44. -/
def accum (a : Flagged) (z : Int) : Flagged := (sat48 (a.1 + z), a.2 ||| (if sat48 (a.1 + z) = a.1 + z then 0 else sfACC))

/-- S0.23 aligned to S3.44. -/
def align44 (z : Int) : Int := z * 2097152

/-- Coefficients b0, b1, b2, a1, a2 of a section. -/
structure Coefs where
  b0 : Int
  b1 : Int
  b2 : Int
  a1 : Int
  a2 : Int

/-- One second-order section: output, new states, flags (R101). -/
def section1 (k : Coefs) (x : Int) (st : Int × Int) : Int × (Int × Int) × Nat :=
  let y0 := accum (k.b0 * x, 0) (align44 st.1)
  let y := redF sfSEC y0.1
  let t0 := accum (accum (k.b1 * x, 0) (-(k.a1 * y.1))) (align44 st.2)
  let s1 := redF sfSEC t0.1
  let t1 := accum (k.b2 * x, 0) (-(k.a2 * y.1))
  let s2 := redF sfSEC t1.1
  (y.1, (s1.1, s2.1), y0.2 ||| y.2 ||| t0.2 ||| s1.2 ||| t1.2 ||| s2.2)

/-- Read the five coefficients that begin at entry e of head h's live table (R104, R124). -/
def State.coefs (s : State) (h e : Nat) : State × Coefs :=
  let one (p : State × List Int) (m : Nat) : State × List Int :=
    let r := p.1.readEntryFree R.CLR_COEF_LIVE (185 * h + e + m)
    (r.1, p.2 ++ [sgn 24 r.2])
  let r := (List.range 5).foldl one (s, [])
  (r.1, ⟨r.2.getD 0 0, r.2.getD 1 0, r.2.getD 2 0, r.2.getD 3 0, r.2.getD 4 0⟩)

/-- The sections 1 to n of a loop: outputs of the scaler and of each section, new states, flags. -/
def State.sections (s : State) (h i n : Nat) (x : Int) (sos : List (Int × Int)) : State × List Int × List (Int × Int) × Nat :=
  (List.range n).foldl (fun p j =>
    let k := p.1.coefs h (60 * i + 5 * j)
    let r := section1 k.2 (p.2.1.getLastD x) (sos.getD j (0, 0))
    (k.1, p.2.1 ++ [r.1], p.2.2.1 ++ [r.2.1], p.2.2.2 ||| r.2.2)) (s, [x], [], 0)

/-- A value from the SERVO item in S0.23 (R99). -/
def ClrS.slot (c : ClrS) (i : Nat) : Int := (c.servo.getD i 0) * 256

/-- The learner injection of a loop (R101). -/
def State.lrnInjOf (s : State) (h i : Nat) : Int :=
  if i = 0 then (if s.bitF F.CLR_CTL_LRN_INJ h 1 then sgn 24 (s.getF F.LRN_INJ_LRN (lrnIdx h 0)) else 0)
  else if i = 1 then (if s.bitF F.CLR_CTL_LRN_INJ h 0 then sgn 24 (s.getF F.LRN_INJ_LRN (lrnIdx h 1)) else 0)
  else 0

/-- The neighbour feed-forward of head h (R112). -/
def State.nff (s : State) (h : Nat) : State × Int :=
  if !s.isSet F.CLR_CTL_NFF_EN h || !s.closed h 1 then (s, 0)
  else
    let d := deckOfHead h
    let sum := ((List.range 4).filter (· ≠ h % 4)).foldl (fun a j =>
      accum a (sgn 24 (s.getF F.CLR_NFF_K_K (4 * h + j)) * sgn 24 (s.getF F.SLD_ACC_A (4 * d + j)))) ((0, 0) : Flagged)
    let v := redF 1 sum.1
    let s1 := s.onlyIf (sum.2 != 0 || v.2 != 0) fun t => t.satNff h
    if (s1.cl h).shaped then
      let k := s1.coefs h 180
      let r := section1 k.2 v.1 (s1.cl h).nff
      ((k.1.updClr h fun c => { c with nff := r.2.1 }).satFlags h 1 r.2.2, r.1)
    else (s1, v.1)

/-- The setpoint after one tick of slewing. -/
def slewed (sp target : Int) (slew : Nat) : Int := if slew = 0 then target else sp + clampI (-(slew : Int)) slew (target - sp)

/-- One tick of a closed loop (R101). -/
def State.runLoop (s : State) (h i : Nat) (nff : Int) : State :=
  let x := 3 * h + i
  let l := s.loop h i
  let sp := slewed l.sp (sgn 24 (s.getF F.CLR_SP_TARGET x)) (s.getF F.CLR_SP_SLEW_SLEW x)
  let e := satF sfIN ((s.cl h).slot (s.getF F.CLR_LOOP_CTL_SRC x) - sp)
  let x0 := redF sfIN (sgn 24 (s.getF F.CLR_IN_GAIN_GAIN x) * e.1)
  let sec := s.sections h i (s.getF F.CLR_LOOP_CTL_NSOS x) x0.1 l.sos
  let s1 := sec.1
  let tap := sec.2.1.getD (s.getF F.CLR_LOOP_CTL_INT_TAP x) x0.1
  let ki := red (sgn 24 (s.getF F.CLR_INT_KI_KI x) * tap)
  let hold := l.limited && decide (sgnI (sgn 24 (s.getF F.CLR_INT_KI_KI x) * tap) = sgnI l.u) && decide (l.u ≠ 0)
  let lim : Int := (s.getF F.CLR_INT_LIM_LIM x : Nat)
  let on := s.isSet F.CLR_LOOP_CTL_INT_EN x
  let acc := if on && !hold then clampI (-lim) lim (l.acc + sat23 ki) else l.acc
  let y := sec.2.1.getLastD x0.1
  let u0 := satF sfSUM (y + acc + s1.lrnInjOf h i + nff)
  let ol : Int := (s.getF F.CLR_OUT_LIM_LIM x : Nat)
  let u := clampI (-ol) ol u0.1
  let fl := e.2 ||| x0.2 ||| sec.2.2.2 ||| (if on && !hold && decide (acc ≠ l.acc + sat23 ki) then sfINT_CLAMP else 0) |||
    (if on && hold then sfINT_HOLD else 0) ||| u0.2 ||| (if u = u0.1 then 0 else sfOUT)
  let s2 := s1.updLoop h i fun l =>
    { l with sp := sp, acc := acc, u := u, limited := decide (u ≠ u0.1), sos := sec.2.2.1 ++ l.sos.drop sec.2.2.1.length }
  let s3 := s2.updClr h fun c => {
    c with
    x := vset c.x i x0.1, effort := vset c.effort i (sat23 (y + acc)), clipped := vset c.clipped i (decide (u0.2 ≠ 0 ∨ u ≠ u0.1)) }
  (s3.setF F.CLR_OUT_U x (unsgn 24 u)).satFlags h i fl

/-- All closed loops of head h, and CLR_STATUS.SLEWING. -/
def State.runLoops (s : State) (h : Nat) : State :=
  let n := s.nff h
  let s1 := n.1.forEach [0, 1, 2] fun t i =>
    if t.closed h i && t.isSet F.CLR_LOOP_CTL_PLACED (3 * h + i) then t.runLoop h i (if i = 1 then n.2 else 0) else t
  s1.setB F.CLR_STATUS_SLEWING h ((List.range 3).any fun i =>
    s1.isSet F.CLR_LOOP_CTL_PLACED (3 * h + i) && decide ((s1.loop h i).sp ≠ sgn 24 (s1.getF F.CLR_SP_TARGET (3 * h + i))))

/-! ### Position (R99, R114) -/

/-- The lands crossed since the previous tick with samples (R99). -/
def landsCrossed (last : Option Int) (now : Int) : Int :=
  match last with
  | none => 0
  | some l => sgn 16 (unsgn 16 (now - l))

/-- The head's channels leave POS_ERR, and count mismatches afresh (R204). -/
def State.clearPosErr (s : State) (h : Nat) : State :=
  s.forEach (chansOf h) fun t c =>
    (t.setB F.CHN_STATUS_POS_ERR c false).updChan c fun x => { x with mism := 0, fails := 0 }

/-- TRACK takes a value; the zone follows (R114); a changed TRACK ends POS_ERR (R204). -/
def State.setTrack (s : State) (h t : Nat) : State :=
  let s1 := if s.getF F.CLR_POS_TRACK h = t then s else s.clearPosErr h
  (s1.setF F.CLR_POS_TRACK h t).setF F.CLR_POS_ZONE h (zoneOfTrack (t % 2 ^ 18))

/-- TRACK advances by the lands crossed. -/
def State.advanceTrack (s : State) (h : Nat) (dx : Int) : State :=
  if dx = 0 then s else s.setTrack h (unsgn 18 ((s.getF F.CLR_POS_TRACK h : Nat) + dx))

/-- A position fix: TRACK takes the value and is valid (R114). -/
def State.positionFix (s : State) (h t : Nat) : State :=
  (((s.setTrack h t).setB F.CLR_STATUS_TRK_VALID h true).setB F.CLR_POS_EST h false).updClr h fun c => { c with fixWait := 0 }

/-- The head is at the band position of a track (R118). -/
def State.atTrack (s : State) (h t : Nat) : Bool :=
  let k := s.getF F.CLR_POS_TRACK h
  s.isSet F.CLR_STATUS_TRK_VALID h && !s.isSet F.CLR_POS_EST h && trackBand k == trackBand t && trackPos k == trackPos t

/-! ### Off-track (R113, R115) -/

/-- |OT| is at most a limit in units of 0.25 nm; x = 1.0 is 120 nm. -/
def otWithin (x : Int) (lim : Nat) : Bool := decide (x.natAbs * 480 ≤ lim * 8388608)

/-- OT in units of 0.25 nm. -/
def otUnits (x : Int) : Int := clampI (-32767) 32767 (divRnd (x * 480) 8388608)

/-- Report OT. -/
def State.reportOt (s : State) (h : Nat) : State :=
  let ot := otUnits (vget (s.cl h).x 0 1)
  (s.setF F.CLR_OFFTRACK_OT h (unsgn 16 ot)).keepMax F.CLR_OFFTRACK_MAX h ot.natAbs

/-! ### The lens-centred drive (R117, R122) -/

/-- u := -GAIN x LENS_POS on the open tracking loop. -/
def State.centreLens (s : State) (h : Nat) : State :=
  s.driveLoop h 1 (sat23 (red (-(sgn 24 (s.getF F.CLR_IN_GAIN_GAIN (3 * h + 1))) * (s.cl h).slot 5)))

/-! ### Starting sequences (R121 to R123) -/

/-- The seek or jump of head h fails: SEEK_FAIL, HOLD; a takeover that sought for the third time ends (R15, R118). -/
def State.seekFail (s : State) (h : Nat) : State :=
  let b := partner h
  let mine : Bool := match (s.head h).op with | some o => decide (o.kind = .takeoverSeek) | none => false
  let s1 := (s.raise E.CLR_SEEK_FAIL h).enterHold h false
  if mine then
    match (s1.head b).band.take with
    | .seeking n =>
      if 2 ≤ n then s1.takeoverFails b else s1.updBand b fun x => { x with take := .seeking (n + 1) }
    | _ => s1
  else s1

/-- Begin a track jump to a track (R121). -/
def State.startJump (s : State) (h target ticks corr rep : Nat) : State :=
  let n : Int := (target : Int) - (s.getF F.CLR_POS_TRACK h : Nat)
  if n = 0 then s.setSeq h (some (.settle target ticks corr rep))
  else if !s.closed h 1 then s.seekFail h
  else
    let dir := sgnI n
    let u := sat23 ((s.loop h 1).acc + dir * s.s15 h F.CLR_JUMP_CTL_KICK)
    ((s.openLoop h 1).driveLoop h 1 u).setSeq h (some (.kick target dir n.natAbs 0 ticks corr rep))

/-- Begin a seek to a track (R122). -/
def State.startSeek (s : State) (h target rep : Nat) : State :=
  if s.axisTakes h then
    let n : Int := (target : Int) - (s.getF F.CLR_POS_TRACK h : Nat)
    (((s.openLoop h 1).centreLens h).updSld h fun a => { a with rel := some n }).setSeq h (some (.sledMove target rep false 0))
  else (s.openLoop h 1).seekFail h

/-- The longest jump (R124: JUMP_MAX is 1 to 255). -/
def State.jumpMax (s : State) (h : Nat) : Nat := max 1 (s.getF F.CLR_JUMP_CTL_JUMP_MAX h)

/-- Move to a track by a jump or a seek (R121, R122). -/
def State.moveTo (s : State) (h target rep : Nat) : State :=
  let n := ((target : Int) - (s.getF F.CLR_POS_TRACK h : Nat)).natAbs
  if n ≤ s.jumpMax h then s.startJump h target 0 0 rep else s.startSeek h target rep

/-- Begin one hop towards a layer (R123). -/
def State.startHop (s : State) (h target : Nat) : State :=
  let l := s.getF F.CLR_POS_LAYER h
  let dir : Int := if l < target then 1 else -1
  let next := if l < target then l + 1 else l - 1
  let s1 := ((s.openLoop h 1).driveLoop h 1 (s.loop h 1).acc).loseTrack h
  (s1.setF F.CLR_POS_LAYER h next).setSeq h (some (.hop target dir 0 0 0 0))

/-! ### Carrying an operation on (R118) -/

/-- The operation of head h ends without an interruption. -/
def State.finishOp (s : State) (h : Nat) : State := (s.endOp h).updClr h fun c => { c with fixWait := 0 }

/-- The home head of a requested takeover is given its park operation once its write cycle has ended (R23). -/
def State.parkHome (s : State) (h : Nat) : State :=
  let x := s.head h
  let has := (x.ops.any fun o => o.kind == .park) || x.op.any fun o => o.kind == .park
  if !x.band.requested || s.wcy h != wsIDLE || has || s.clr h == hdOFF || s.clr h == hdPARKED || s.clr h == hdSAFE then s
  else s.issue h { kind := .park, vol := deckOfHead h, pos := s.hqi.nextPos }

/-- The head enters PARKED from FOLLOW by a park operation. -/
def State.parkHead (s : State) (h : Nat) : State := (s.finishOp h).setClr h hdPARKED

/-- The partner's seek has ended: the band is routed to it (R15 step 5). -/
def State.takeoverDone (s : State) (b : Nat) : State :=
  ((((s.setTaken b true).updBand b fun x => { x with take := .none, requested := false, unserved := false }).raise
    E.GLB_TAKEOVER_DONE 0)).issueWaiting

/-- A head in FOLLOW goes on with its operation: layer, position fix, track, or the end of a seek (R118). -/
def State.continueOp (s : State) (h : Nat) : State :=
  match (s.head h).op with
  | none => s
  | some o =>
    if s.clr h != hdFOLLOW then s
    else if o.kind = .park then s.parkHead h
    else if s.getF F.CLR_POS_LAYER h ≠ o.layer then (s.setClr h hdSEEK).startHop h o.layer
    else if o.kind = .testAcquire then s.finishOp h
    else if !s.isSet F.CLR_STATUS_TRK_VALID h then s
    else if !s.atTrack h o.track then (s.setClr h hdSEEK).moveTo h o.track 0
    else
      match o.kind with
      | .seek => s.finishOp h
      | .takeoverSeek => (s.finishOp h).takeoverDone (partner h)
      | _ => s

/-- Under containment an operation that rests in FOLLOW is interrupted and reported (R118, R295). -/
def State.restContained (s : State) (h : Nat) : State :=
  if s.frozen && s.clr h == hdFOLLOW && (s.head h).op.isSome then s.interruptOp h true else s

/-- The head enters FOLLOW at the end of a sequence and goes on. -/
def State.enterFollow (s : State) (h : Nat) : State :=
  let s1 := (s.setSeq h none).setClr h hdFOLLOW
  if s1.frozen then s1.restContained h else s1.continueOp h

/-! ### Sequence steps of a servo tick, before the loops run -/

/-- FE or MPP has crossed zero downwards. -/
def crossedDown (was now : Int) : Bool := decide (0 < was ∧ now ≤ 0)

/-- Close tracking at the first downward MPP zero crossing. -/
def State.captureTrack (s : State) (h : Nat) (acc : Option Int) : State :=
  if !s.closed h 1 && crossedDown (s.cl h).lastMpp ((s.cl h).slot 1) then s.closeLoop h 1 acc false else s

/-- The sweep of focus acquisition (R120 steps 1 and 2).
DEDUCED, unsafe: log 28. -/
def State.sweepStep (s : State) (h k : Nat) (f : Int) (n : Nat) (peaked : Bool) : State :=
  let c := s.cl h
  let amp : Int := s.s15 h F.CLR_FA_CTL_AMP
  if amp ≤ f then s.setSeq h (some (.ramp k f))
  else
    let f2 := sat23 (f + (s.getF F.CLR_FA_CTL_STEP h : Nat))
    let pk := peaked || decide (s.s15 h F.CLR_FA_TH_FE_TH < c.slot 0)
    let hit := pk && decide (s.s15 h F.CLR_FA_TH_SUM_TH < c.slot 4) && crossedDown c.lastFe (c.slot 0)
    let s1 := s.driveLoop h 0 f2
    if hit then
      if n + 1 = s.getF F.CLR_POS_LAYER h + 1 then
        let s2 := s1.closeLoop h 0 (some f2) true
        (s2.onlyIf (s2.isSet F.CLR_LOOP_CTL_PLACED (3 * h + 2)) fun t => t.closeLoop h 2 none false).setSeq h
          (some (.capture k 0 f2))
      else s1.setSeq h (some (.sweep k f2 (n + 1) false))
    else s1.setSeq h (some (.sweep k f2 n pk))

/-- TRIES as it acts (R124).
DEDUCED, unsafe: log 12. -/
def State.faTries (s : State) (h : Nat) : Nat := max 1 (s.getF F.CLR_FA_CTL_TRIES h)

/-- The ramp back to -AMP and the next sweep (R120). -/
def State.rampStep (s : State) (h k : Nat) (f : Int) : State :=
  let amp : Int := s.s15 h F.CLR_FA_CTL_AMP
  let f2 := max (-amp) (f - (s.getF F.CLR_FA_CTL_STEP h : Nat))
  let s1 := s.driveLoop h 0 f2
  if f2 = -amp && k < s.faTries h then s1.setSeq h (some (.sweep (k + 1) f2 0 false)) else s1.setSeq h (some (.ramp k f2))

/-- The lands of a tick in the direction of a jump (R121). -/
def towards (dir dx : Int) : Nat := if sgnI dx = dir then dx.natAbs else 0

/-- The step of a hop before the loops run (R123 steps 3 and 4). -/
def State.hopStep (s : State) (h target : Nat) (dir : Int) (ticks phase : Nat) (peak : Int) (ok : Nat) : State :=
  let c := s.cl h
  let fe := c.slot 0 * dir
  let kick : Int := dir * s.s15 h F.CLR_LAYER_CTL_KICK
  let pk := if phase = 0 then 0 else max peak fe
  if phase = 1 then
    if s.s15 h F.CLR_FA_TH_SUM_TH < c.slot 4 ∧ 0 < pk ∧ fe < pk then
      (s.driveLoop h 0 (sat23 ((s.loop h 0).acc - kick))).setSeq h (some (.hop target dir (ticks + 1) 2 pk ok))
    else s.setSeq h (some (.hop target dir (ticks + 1) 1 pk ok))
  else if phase = 2 then
    if decide (sgnI c.lastFe ≠ sgnI (c.slot 0)) && decide (c.lastFe ≠ 0) then
      (s.closeLoop h 0 none false).setSeq h (some (.hop target dir (ticks + 1) 3 pk ok))
    else s.setSeq h (some (.hop target dir (ticks + 1) 2 pk ok))
  else s.setSeq h (some (.hop target dir (ticks + 1) phase pk ok))

/-- The running sequence takes the tick's samples; dx are the lands crossed. -/
def State.seqBefore (s : State) (h : Nat) (dx : Int) : State :=
  match (s.cl h).seq with
  | none => s
  | some q =>
    match q with
    | .sweep k f n p => s.sweepStep h k f n p
    | .capture k t f => s.setSeq h (some (.capture k (t + 1) f))
    | .ramp k f => s.rampStep h k f
    | .acqTrack t => (s.captureTrack h (some 0)).setSeq h (some (.acqTrack (t + 1)))
    | .kick a d n c t r rep => s.setSeq h (some (.kick a d n (c + towards d dx) (t + 1) r rep))
    | .brake a d n c t r rep => s.setSeq h (some (.brake a d n (c + towards d dx) (t + 1) r rep))
    | .settle a t r rep => s.setSeq h (some (.settle a (t + 1) r rep))
    | .sledMove _ _ _ _ => s.centreLens h
    | .sledTrack a rep t =>
      (if s.closed h 1 then s else (s.centreLens h).captureTrack h none).setSeq h (some (.sledTrack a rep (t + 1)))
    | .hop a d t p k ok => s.hopStep h a d t p k ok
    | .hopTrack t => (s.captureTrack h (some 0)).setSeq h (some (.hopTrack (t + 1)))
    | .recapture t => (s.captureTrack h (some 0)).setSeq h (some (.recapture (t + 1)))
    | .ended => s

/-! ### Sequence steps of a servo tick, after the loops and flags -/

/-- Focus capture: FOCUS_OK within 64 ticks, or the sweep is given up (R120 step 3).
DEDUCED, unsafe: log 28. -/
def State.captureCheck (s : State) (h k t : Nat) (f : Int) : State :=
  if s.isSet F.CLR_STATUS_FOCUS_OK h then s.setSeq h (some (.acqTrack t))
  else if 64 ≤ t then ((s.openLoop h 0).openLoop h 2).setSeq h (some (.ramp k f))
  else s

/-- TF in SETTLE: the jump is complete, or a correction is made (R121). -/
def State.settleCheck (s : State) (h a t r rep : Nat) : State :=
  if !s.isSet F.CLR_STATUS_TF h then s
  else if s.getF F.CLR_POS_TRACK h = a then s.setSeq h (some .ended)
  else if r < 2 then s.startJump h a t (r + 1) rep
  else s

/-- TF after the sled move: track jumps, a further sled move, or failure (R122 step 5). -/
def State.sledCheck (s : State) (h a rep : Nat) : State :=
  if !s.isSet F.CLR_STATUS_TF h then s
  else
    let n := ((a : Int) - (s.getF F.CLR_POS_TRACK h : Nat)).natAbs
    if n ≤ s.jumpMax h then s.startJump h a 0 0 rep
    else if rep < 2 then s.startSeek h a (rep + 1)
    else s.seekFail h

/-- The running sequence looks at FOCUS_OK and TF of the tick. -/
def State.seqAfter (s : State) (h : Nat) : State :=
  match (s.cl h).seq with
  | some (.capture k t f) => s.captureCheck h k t f
  | some (.acqTrack t) => if s.isSet F.CLR_STATUS_TF h && decide (t ≤ 4000) then s.enterFollow h else s
  | some (.settle a t r rep) => s.settleCheck h a t r rep
  | some (.sledTrack a rep t) => if t ≤ 4000 then s.sledCheck h a rep else s
  | some (.hop a d t p k ok) =>
    s.setSeq h (some (.hop a d t p k (if p = 3 && s.isSet F.CLR_STATUS_FOCUS_OK h then ok + 1 else 0)))
  | some (.hopTrack t) => if s.isSet F.CLR_STATUS_TF h && decide (t ≤ 4000) then s.setSeq h (some .ended) else s
  | some (.recapture t) => if 4000 < t then s.setSeq h none else s
  | _ => s

/-! ### Sled follow (R108, R109) -/

/-- The lens offset filter. -/
def State.lensFilter (s : State) (h : Nat) : State :=
  if !s.closed h 1 then s
  else
    let lo := (s.cl h).lo
    let v := sat23 (lo + ((s.loop h 1).u - lo) / (2 ^ s.getF F.CLR_SF_FILT_SHIFT h : Nat))
    (s.updClr h fun c => { c with lo := v }).setF F.CLR_SF_STATUS_LO h (unsgn 16 (v / 256))

/-- The head follows for the sled-follow law. -/
def State.sfActive (s : State) (h : Nat) : Bool :=
  let st := s.clr h
  s.isSet F.CLR_CTL_SF_EN h &&
    (st == hdFOLLOW || st == hdWRITE || st == hdVERIFY || (st == hdHOLD && s.closed h 1))

/-- The sled-follow law in a profile tick (R109). -/
def State.sledFollow (s : State) (h : Nat) : State :=
  if !s.sfActive h then s.updClr h fun c => { c with hard := 0 }
  else
    let c := s.cl h
    let scale (f : Field) : Nat := s.getF f h * 32768
    let mag := c.lo.natAbs
    let armed := c.armed || decide (mag < scale F.CLR_SF_CTL_REARM)
    let dir := sgnI c.lo
    let ask := decide (scale F.CLR_SF_CTL_BAND < mag) && decide (max 1 (s.getF F.CLR_SF_CTL_DWELL h) ≤ c.dwell) &&
      (armed || decide (dir = c.lastDir))
    let hard := if scale F.CLR_SF_CTL_HARD < mag then c.hard + 1 else 0
    let s1 := s.updClr h fun c => {
      c with
      armed := armed && !ask, lastDir := if ask then dir else c.lastDir,
      dwell := min ((if ask then 0 else c.dwell) + 1) 255, hard := hard }
    let s2 := s1.onlyIf ask fun t => (t.count F.CLR_SF_STATUS_STEPS h).updSld h fun a => { a with req := dir }
    if 8 ≤ hard then ((s2.raise E.CLR_SF_LIMIT h).updClr h fun c => { c with hard := 0 }).enterHold h false else s2

/-! ### Read power (R110) -/

/-- LASER of the DRIVE item in a head state (R76, R117). -/
def laserOf (st : Nat) : Nat := if st = hdWRITE then 2 else if 2 ≤ st ∧ st ≤ 7 then 1 else 0

/-- DIV as it acts. -/
def State.rpDiv (s : State) (h : Nat) : Nat := max 1 (s.getF F.CLR_RP_CTL_DIV h)

/-- The count towards the next evaluation. -/
def State.rpCount (s : State) (h : Nat) : State :=
  let l := laserOf (s.clr h)
  if l = 0 then s.startPower h
  else if l ≠ 1 || (s.head h).write.wg || !s.isSet F.CLR_CTL_RP_EN h then s.updClr h fun c => { c with rpWait := 0 }
  else s.updClr h fun c => { c with rpWait := if s.rpDiv h ≤ c.rpWait then 1 else c.rpWait + 1 }

/-- An evaluation is due in this tick. -/
def State.rpDue (s : State) (h : Nat) : Bool :=
  (s.cl h).rpWait = s.rpDiv h && (s.link h).ldm.isSome && s.isSet F.CLR_CTL_RP_EN h && laserOf (s.clr h) == 1 &&
  !(s.head h).write.wg

/-- One evaluation (R110). -/
def State.rpEvaluate (s : State) (h : Nat) : State :=
  let err : Int := (((s.link h).ldm.getD 0 : Nat) : Int) - (s.getF F.CLR_RP_CTL_TARGET h : Nat)
  let band : Int := (s.getF F.CLR_RP_CTL_BAND h : Nat)
  let code := s.getF F.CLR_RP_STATUS_CODE h
  let want : Int := if band < err then (code : Int) - 1 else if err < -band then (code : Int) + 1 else code
  let got := (clampI (s.getF F.CLR_RP_LIM_MIN h : Nat) (s.getF F.CLR_RP_LIM_MAX h : Nat) want).toNat
  let cut := decide ((got : Int) ≠ want)
  let n := if cut then min 255 (s.getF F.CLR_RP_STATUS_ATLIM h + 1) else 0
  let s1 := ((s.setF F.CLR_RP_STATUS_CODE h got).setF F.CLR_RP_STATUS_ATLIM h n).updClr h fun c => { c with rpWait := 0 }
  s1.onlyIf (cut && n == 64) fun t => t.raise E.CLR_RP_LIMIT h

/-! ### The coefficient commit (R104) -/

/-- The copy of the shadow coefficients. -/
def State.coefCopy (s : State) (h : Nat) : State :=
  let zero := s.isSet F.CLR_COEF_COMMIT_ZERO_STATE h
  let s1 := s.forEach (List.range 185) fun t e =>
    let r := t.readEntryFree R.CLR_COEF (185 * h + e)
    r.1.putEntry R.CLR_COEF_LIVE (185 * h + e) (r.2 % 2 ^ 24)
  let s2 := ((s1.setB F.CLR_COEF_COMMIT_PEND h false).setB F.CLR_STATUS_COMMIT_PEND h false).setB F.CLR_COEF_COMMIT_ZERO_STATE h false
  if zero then
    (s2.forEach [0, 1, 2] fun t i => t.updLoop h i fun l => { l with sos := List.replicate 12 (0, 0) }).updClr h fun c =>
      { c with nff := (0, 0) }
  else s2

end Sys2Proof.Machine
end

