-- ==== Sys2Proof/Machine/Pwm.lean ====
section
/-!
DEFINITION. The arithmetic of the current loops (R163, R164, R167, R168): coordinate transforms, the voltage limit, space-vector
and six-step duties. Currents and voltages are in units of 2^-23, angles in electrical counts; a transform is exact up to one
rounding of its result.
-/
namespace Sys2Proof.Machine

/-- The square root of 3 in units of 2^-60. -/
def sqrt3 : Int := 1996918623117814388

/-- One in units of 2^-60. -/
def one60 : Int := 1152921504606846976

/-- One step of the search of an angle: bit k is kept when the vector lies at or beyond it. -/
def angleBit (a b : Int) (th k : Nat) : Nat :=
  let t := th + 2 ^ k
  if 0 ≤ b * cosTurn t 65536 - a * sinTurn t 65536 then t else th

/-- The direction of a vector in counts of a turn, rounded down. -/
def angleOf (a b : Int) : Nat :=
  let up := decide (0 < b ∨ (b = 0 ∧ 0 ≤ a))
  let z := if up then (a, b) else (-a, -b)
  (List.range 15).foldl (fun th i => angleBit z.1 z.2 th (14 - i)) 0 + (if up then 0 else 32768)

/-- Three phase values as a vector, times (3, root 3): (2u - v - w, v - w). -/
def vec3 (u v w : Int) : Int × Int := (2 * u - v - w, v - w)

/-- The direction of a vector given times (3, root 3). -/
def vecAngle (z : Int × Int) : Nat := angleOf (z.1 * one60) (z.2 * sqrt3)

/-- The line-to-line peak, in units of 1 / c, of a vector given times (3, root 3). -/
def vecPeak (z : Int × Int) (c : Nat) : Nat := Nat.sqrt (((z.1 * z.1 + 3 * (z.2 * z.2)) * (c * c : Nat)).toNat / 3)

/-- The rotor angle that a back-EMF direction shows: the EMF leads it by a quarter turn in the sense of rotation. -/
def rotorAngle (ang : Nat) (back : Bool) : Nat := (ang + if back then 16384 else 49152) % 65536

/-- The transform of the phase currents into the rotating frame: (id, iq). -/
def parkI (iu iv : Int) (th : Nat) : Int × Int :=
  let c := cosTurn th 65536
  let s := sinTurn th 65536
  let b := (iu + 2 * iv) * sqrt3 / 3
  (sat23 (rnd 120 (iu * one60 * c + b * s)), sat23 (rnd 120 (b * c - iu * one60 * s)))

/-- The transform of a voltage vector into phase voltages u, v, w (2^-23). -/
def phaseV (vd vq : Int) (th : Nat) : Int × Int × Int :=
  let c := cosTurn th 65536
  let s := sinTurn th 65536
  let a := vd * c - vq * s
  let b := vd * s + vq * c
  (rnd 60 a, rnd 121 (-(a * one60) + sqrt3 * b), rnd 121 (-(a * one60) - sqrt3 * b))

/-- D_MAX times 25,000 (R164). -/
def dMaxNs (win dt : Nat) : Int := 25000 - ((win + 2 * dt : Nat) : Int)

/-- The voltage limit VL in 2^-23: min(VLIM, 2 D_MAX - 1) of Vbus over root 3. -/
def voltLimit (vlim : Nat) (dmaxNs : Int) (bus : Nat) : Int :=
  let a : Int := (vlim * 25000 : Nat)
  let b : Int := (2 * dmaxNs - 25000) * 4096
  let m := max 0 (min a b)
  m * (bus : Nat) * sqrt3 / (3 * 25000 * 4096 * one60)

/-- Scale a vector down to a length; the flag says that it was scaled. -/
def limitVec (vd vq vl : Int) : Int × Int × Bool :=
  let n2 := (vd * vd + vq * vq).toNat
  if (vl * vl : Int) < n2 then
    let n := Nat.sqrt (n2 * 2 ^ 40)
    (divRnd (vd * vl * 2 ^ 20) n, divRnd (vq * vl * 2 ^ 20) n, true)
  else (vd, vq, false)

/-- The sector of a voltage vector by its phase voltages (R167). -/
def sectorOf (u v w : Int) : Nat :=
  if v < u ∧ w ≤ v then 1 else if u ≤ v ∧ w < u then 2 else if w < v ∧ u ≤ w then 3
  else if v ≤ w ∧ u < v then 4 else if v < w ∧ v ≤ u then 5 else if w ≤ u ∧ v < w then 6 else 1

/-- A duty of num / den as a compare count of 10,000 cycles, corrected for dead time, limited to D_MAX and to pulses of at
least MIN_PULSE (R163, R164); the flag says that a limit acted. -/
def dutyCount (num den : Int) (dtcNs dmaxNs : Int) (minPulse : Nat) : Nat × Bool :=
  let d := divRnd (num * 25000) den.toNat + dtcNs
  let d1 := min dmaxNs d
  if 0 < d1 ∧ d1 < (minPulse : Nat) then (0, true)
  else if d1 ≤ 0 then (0, decide (d1 < 0))
  else ((divRnd (d1 * 10000) 25000).toNat, decide (d1 ≠ d))

/-! ### Six steps (R168) -/

/-- The levels of a sector, phases u, v, w. -/
def sixLevels (s : Nat) : List Int :=
  match s % 6 with
  | 0 => [1, -1, 0]
  | 1 => [1, 0, -1]
  | 2 => [0, 1, -1]
  | 3 => [-1, 1, 0]
  | 4 => [-1, 0, 1]
  | _ => [0, -1, 1]

/-- The levels of the phases in 2^-23 near a boundary between sectors a and b: delta and SOFT in sixths of a count. -/
def softLevels (a b : Nat) (delta soft6 : Int) : List Int :=
  (List.range 3).map fun x =>
    let o := (sixLevels a).getD x 0
    let n := (sixLevels b).getD x 0
    if o ≠ 0 ∧ n = 0 then divRnd (o * 8388608 * (soft6 - delta)) (2 * soft6).toNat
    else if o = 0 ∧ n ≠ 0 then divRnd (n * 8388608 * (soft6 + delta)) (2 * soft6).toNat
    else n * 8388608

/-- Sector s and levels of an angle phi in counts (R168). -/
def sixStep (phi soft : Nat) : Nat × List Int :=
  let p6 := phi % 65536 * 6
  let s := (p6 / 65536 + 1) % 6
  let lo : Int := (p6 % 65536 : Nat)
  let soft6 : Int := (6 * soft : Nat)
  if lo < soft6 then (s, softLevels ((s + 5) % 6) s lo soft6)
  else if 65536 - lo < soft6 then (s, softLevels s ((s + 1) % 6) (lo - 65536) soft6)
  else (s, (sixLevels s).map (· * 8388608))

/-- The zero crossing of a floating phase between two samples, with its voltage relative to Vbus / 2 in 2^-9 V before and after: the
rotor angle at the second sample, 2^-16 counts, and the voltages (R169). Phase x crosses downwards at x / 3 of a turn and upwards half a
turn further. -/
def crossing (x : Nat) (was now delec : Int) : Option (Nat × Int × Int) :=
  let down := decide (0 < was ∧ now ≤ 0)
  let up := decide (was < 0 ∧ 0 ≤ now)
  if down || up then
    let at_ : Int := (x * 2 ^ 32 / 3 + if up then 2 ^ 31 else 0 : Nat)
    let z := at_ + 10 * delec * now.natAbs / (was.natAbs + now.natAbs : Nat)
    some ((z % (2 ^ 32 : Nat)).toNat, was, now)
  else none

/-- The current of the driven phases (R168). -/
def sixCurrent (lv : List Int) (i : List Int) : Int :=
  let den := (lv.map Int.natAbs).sum
  divRnd ((List.zipWith (· * ·) lv i).foldl (· + ·) 0) (max 1 den)

end Sys2Proof.Machine
end

