-- ==== Sys2Proof/Machine/WndOps.lean ====
section
/-!
DEFINITION. The Winders (08): deck states, gates and brakes, the observer, loss of synchronism, the steps of motor and speed
ticks. The meanings are in WndCmds.lean and TickCmds.lean.
-/
namespace Sys2Proof.Machine

/-- A Winder. -/
def State.wn (s : State) (d : Nat) : DeckS := vget s.decks {} d

/-- Change a Winder. -/
def State.updWnd (s : State) (d : Nat) (f : DeckS → DeckS) : State := { s with decks := vset s.decks d (f (vget s.decks {} d)) }

/-- The inverter phases U, V and W that carry the Winder's phases u, v and w under a phase map (R363). -/
def onPhases {α : Type} (m : Nat) (u v w : α) : α × α × α :=
  match m with
  | 1 => (u, w, v)
  | 2 => (v, u, w)
  | 3 => (w, u, v)
  | 4 => (v, w, u)
  | 5 => (w, v, u)
  | _ => (u, v, w)

/-- Drive the half bridges of deck d with duties of the Winder's phases. -/
def State.drivePwm (s : State) (d : Nat) (u v w : Option Nat) : State :=
  let p := onPhases (vget s.decks {} d).phases u v w
  s.emit (.pwm d p.1 p.2.1 p.2.2 (s.getF F.WND_PWM_DT d))

/-- The spin-up phase (R176). -/
def State.phase (s : State) (d : Nat) : Nat := s.getF F.WND_STATUS_PHASE d

/-- Pole pairs; an unplaced Winder counts as one. -/
def State.poles (s : State) (d : Nat) : Nat := max 1 (s.getF F.WND_MOTOR_P d)

/-- Observer speed, rpm x 2^-16, from the electrical rate (R127, R169). -/
def State.rpm16 (s : State) (d : Nat) : Int := divRnd ((s.wn d).delec * 24000000) (s.poles d * 65536)

/-- The target speed, rpm x 2^-16. -/
def State.target16 (s : State) (d : Nat) : Nat := s.getF F.WND_SPEED_SET_TARGET d * 8192

/-- |w| is below n / m of a speed given in rpm x 2^-16. -/
def speedBelow (w : Int) (t n m : Nat) : Bool := decide (w.natAbs * m < t * n)

/-! ### Deck states, gates and brakes -/

/-- Put a deck into a state (R185, R22). -/
def State.setDeck (s : State) (d st : Nat) : State :=
  let s1 := (s.setF F.WND_STATUS_STATE d st).putF F.GLB_DECK_FAULT_DECK 0 d (decide (st = dkFAULT))
  (if st = dkSPINUP then s1 else s1.setF F.WND_STATUS_PHASE d 0).ltrUpdate

/-- Enter a spin-up phase. -/
def State.setPhase (s : State) (d ph : Nat) : State :=
  (s.setF F.WND_STATUS_PHASE d ph).updWnd d fun w => { w with phaseAt := s.tick, waitRest := false }

/-- Turn all gates off: the lock is lost, the chopper is off (R170, R178). -/
def State.gatesOff (s : State) (d : Nat) : State :=
  let s1 := (((((s.setB F.WND_STATUS_LOCKED d false).setF F.WND_STATUS_REF d 0).setB F.WND_STATUS_ANGLE_VALID d false).setF
    F.WND_STATUS_SECTOR d 0).setB F.WND_STATUS_SHORT d false).setB F.WND_STATUS_CHOP_ON d false
  ((s1.updWnd d fun w => { w with gates := .off, next := none, offRun := 0, restRun := 0, lockRun := 0, errRun := 0, emfRun := 0,
                                  eps := none, found := none, chopFull := false, rises := 0, skipAt := none }).emit
    (.gatesOff d)).emit (.chopper d false)

/-- Start winding-short braking (R177). -/
def State.startShort (s : State) (d : Nat) : State :=
  let s1 := ((s.setB F.WND_STATUS_SHORT d true).setF F.WND_STATUS_SECTOR d 0).setB F.WND_STATUS_AT_REST d false
  (s1.updWnd d fun w => { w with gates := .short, next := none, brake := .short 0 none, skipAt := none, restRun := 0 }).emit
    (.gatesShort d)

/-- Start controlled deceleration: the ramp speed falls from where it stands (R177). -/
def State.startRamp (s : State) (d : Nat) : State :=
  s.updWnd d fun w => { w with brake := .ramp, regenRaised := false,
                               negLim := (s.getF F.WND_ILIM_IMAX d : Nat) * 256 }

/-- The deck enters SPINUP at MEASURE: all gates off (R176). -/
def State.enterMeasure (s : State) (d : Nat) : State :=
  (((s.gatesOff d).setDeck d dkSPINUP).updWnd d fun w =>
    { w with spinAt := s.tick, tries := 0, brake := .none, negLim := (s.getF F.WND_ILIM_IMAX d : Nat) * 256 }).setPhase d 1

/-- What the Winder does on a deck-fatal event (R38, R166, R181). -/
inductive FatalBrake where
  | auto | short | hold | overrun
  deriving DecidableEq, Repr

/-- The action of a deck-fatal event on deck d (R17, R19, R181, R185). -/
def State.deckFatal (s : State) (d : Nat) (b : FatalBrake) : State :=
  let st := s.deck d
  if st = dkEMPTY || st = dkFAULT then s
  else
    let s1 := ((s.setDeck d dkFAULT).setB F.WND_STATUS_ANGLE_VALID d false).updWnd d fun w => { w with fatalAt := some s.tick }
    let s2 := match b with
      | .auto => if s.isSet F.WND_STATUS_LOCKED d && !(s.wn d).chopFault then s1.startRamp d else s1.startShort d
      | .short => s1.startShort d
      | .hold => s1
      | .overrun => s1
    s2.deckHeadsFatal d

/-! ### Observer (R169 to R173) -/

/-- Add to the electrical angle; the pole index follows its wraps (R169). -/
def DeckS.turn (w : DeckS) (p : Nat) (z : Int) : DeckS :=
  let e : Int := (w.elec : Int) + z
  let full : Int := 2 ^ 32
  let turns := e / full
  { w with elec := (e % full).toNat, pole := (((w.pole : Int) + turns) % (p : Nat)).toNat }

/-- The mechanical angle, 2^-16 counts (R169). -/
def DeckS.mech (w : DeckS) (p : Nat) : Nat := (w.elec + 2 ^ 32 * w.pole) / p % 2 ^ 32

/-- The delivered disc angle in counts (R171). -/
def State.discAngle (s : State) (d : Nat) : Nat :=
  ((s.wn d).mech (s.poles d) / 65536 + s.getF F.WND_OFFSET_OFFSET d) % 65536

/-- Angle-valid as R173 gives it, for a tick without an OFFSET step. -/
def State.angleOk (s : State) (d : Nat) : Bool :=
  s.isSet F.WND_STATUS_LOCKED d && ((s.deck d = dkSPINUP && s.phase d = 7) || s.deck d = dkREADY) && decide ((s.wn d).late < 4)

/-- Linear extrapolation from the two values before, of a quantity that wraps at 2^n. -/
def extrapolate (n a b : Nat) : Nat := unsgn n (2 * (a : Int) - (b : Nat))

/-- The angle and speed that an observer that is late delivers: by extrapolation from the two ticks before (R38). -/
def DeckS.guess (w : DeckS) : Nat × Nat :=
  let a := w.past.getD 0 (0, 0)
  let b := w.past.getD 1 a
  (extrapolate 16 a.1 b.1, (clampI 0 (2 ^ 24 - 1) (2 * (a.2 : Int) - (b.2 : Nat))).toNat)

/-- Deliver angle, speed and angle-valid in a servo tick (R38, R127, R171, R173). -/
def State.observe (s : State) (d : Nat) : State :=
  let s1 := s.updWnd d fun w => w.turn (s.poles d) w.delec
  let late := (s.wn d).lateNext
  let th := if late then (s.wn d).guess.1 else s1.discAngle d
  let dth := if late then (s.wn d).guess.2 else min (2 ^ 24 - 1) ((s1.wn d).delec.natAbs / s1.poles d)
  let s2 := ((s1.setF F.WND_ANGLE_ELEC d ((s1.wn d).elec / 65536)).setF F.WND_ANGLE_THETA d th).setF F.WND_DTHETA_DTHETA d dth
  let ok := s2.angleOk d && !(s2.wn d).stepped
  (s2.setB F.WND_STATUS_ANGLE_VALID d ok).updWnd d fun w => {
    w with
    stepped := false, past := (th, dth) :: w.past.take 2, lateNext := false, late := if late then w.late else 0,
    reports := w.reports.filter fun r => r.tick = (s.tick + 2 ^ 48 - 1) % 2 ^ 16 }

/-! ### Loss of synchronism (R182, R183) -/

/-- The closed loop runs, in which synchronism can be lost (R182). -/
def State.loopOn (s : State) (d : Nat) : Bool :=
  let st := s.deck d
  (st = dkSPINUP && (s.phase d = 2 || s.phase d = 3 || s.phase d = 7 || (s.phase d = 6 && !(s.wn d).waitRest))) || st = dkREADY ||
  ((st = dkBRAKING || st = dkFAULT) && (s.wn d).brake = .ramp)

/-- Loss of synchronism of deck d (R183). -/
def State.loseSync (s : State) (d : Nat) : State :=
  let now := s.tick / 100
  let ls := now :: (s.wn d).losses.filter fun t => now < t + 40000
  let s1 := (((s.setB F.WND_STATUS_ANGLE_VALID d false).setB F.WND_STATUS_LOCKED d false).setF F.WND_STATUS_REF d 0)
  let s2 := ((s1.updWnd d fun w => { w with losses := ls, lockRun := 0, errRun := 0, emfRun := 0 }).raise E.WND_LOS d).count
    F.WND_COUNTS_LOS d
  let st := s.deck d
  if 3 ≤ ls.length then
    let s3 := (s2.raise E.WND_LOS_REPEAT d).deckFatal d .short
    if st = dkFAULT && (s.wn d).brake = .ramp then s3.startShort d else s3
  else if st = dkSPINUP || st = dkREADY then s2.enterMeasure d
  else if st = dkBRAKING || (st == dkFAULT && (s.wn d).brake = .ramp) then s2.startShort d
  else s2

/-! ### Pillar aiding (R171) -/

/-- The residual of a report against the angle and speed delivered in its tick. -/
def State.residual (s : State) (r : PillarReport) (th dth : Nat) : Int :=
  let meas := (if r.side = 0 then 0 else 128) + 256 * r.pillar + s.getF F.LRN_MOUNT_MOUNT r.head
  let est := divRnd ((th * 65536 * 2000 + dth * r.cycle : Nat) : Int) (65536 * 2000)
  sgn 16 (unsgn 16 ((meas : Int) - est))

/-- Move OFFSET by z. -/
def State.moveOffset (s : State) (d : Nat) (z : Int) : State :=
  s.setF F.WND_OFFSET_OFFSET d (unsgn 16 ((s.getF F.WND_OFFSET_OFFSET d : Nat) + z))

/-- A step of OFFSET: counted, angle-valid clear in the tick in which it takes effect. -/
def State.stepOffset (s : State) (d : Nat) (z : Int) : State :=
  ((s.moveOffset d z).count F.WND_COUNTS_REF d).updWnd d fun w => { w with stepped := true, jump := false }

/-- Use a report (R171). -/
def State.useReport (s : State) (d : Nat) (r : Int) : State :=
  let s1 := (s.setF F.WND_PILLAR_RESID d (unsgn 16 r)).keepMax F.WND_PILLAR_MAXRES d r.natAbs
  let s2 := s1.updWnd d fun w => { w with usedAt := some s.tick }
  if s.getF F.WND_STATUS_REF d = 1 then
    ((s2.stepOffset d r).setF F.WND_STATUS_REF d 2).raise E.WND_REF_STEP d
  else if s.getF F.WND_STATUS_REF d = 2 then
    if r.natAbs ≤ 128 then
      let g := s.getF F.WND_OBS_PGAIN d
      (if g = 0 then s2 else s2.moveOffset d (r / (2 ^ g : Nat))).updWnd d fun w => { w with jump := false }
    else if (s.wn d).jump then (s2.stepOffset d r).raise E.WND_REF_JUMP d
    else s2.updWnd d fun w => { w with jump := true }
  else s2

/-- The report the Winder takes in this tick: of the tick before, from the lowest-numbered head (R171). -/
def State.pickReport (s : State) (d : Nat) : Option PillarReport :=
  let l := (s.wn d).reports.filter fun r => r.tick = (s.tick + 2 ^ 48 - 1) % 2 ^ 16
  l.foldl (fun b r => match b with
    | none => some r
    | some x => if r.head < x.head then some r else some x) none

/-! ### Motor tick (R28, R163 to R183) -/

/-- The gates of a deck are not all off. -/
def DeckS.gatesOn (w : DeckS) : Bool := decide (w.gates ≠ .off)

/-- The chopper fault conditions (R179) and its control (R178). -/
def State.chopper (s : State) (d : Nat) (x : MotorIn) : State :=
  let w := s.wn d
  let rises := if w.chopFull && decide (w.lastBus + s.getF F.WND_CHOP_RISE_TOL d < x.vbus) then w.rises + 1 else 0
  let bad := w.chopFull && decide (x.ibrk < s.getF F.WND_CHOP_CHOP_IMIN d)
  let s1 := s.updWnd d fun w => { w with rises := rises, lastBus := x.vbus }
  if bad || decide (4 ≤ rises) then
    let s2 := (((s1.setB F.WND_STATUS_CHOP_ON d false).updWnd d fun w =>
      { w with chopFault := true, chopFull := false, rises := 0 }).emit (.chopper d false)).raise E.WND_CHOP_FAULT d
    let s3 := s2.deckFatal d .short
    if s.deck d = dkFAULT then s3.startShort d else s3
  else if s.isSet F.WND_CTL_CHOP_EN d && w.gatesOn && !w.chopFault then
    let was := s.isSet F.WND_STATUS_CHOP_ON d
    let on := if s.getF F.WND_BRK_BRK_ON d < x.vbus then true else if x.vbus < s.getF F.WND_BRK_BRK_OFF d then false else was
    ((s1.setB F.WND_STATUS_CHOP_ON d on).updWnd d fun w => { w with chopFull := was && on }).onlyIf (on != was) fun t =>
      t.emit (.chopper d on)
  else s1.updWnd d fun w => { w with chopFull := false }

/-- The winding short is applied again after a skipped pulse (R177). -/
def State.reShort (s : State) (d : Nat) : State :=
  ((s.setB F.WND_STATUS_SHORT d true).updWnd d fun w => { w with gates := .short, skipAt := none }).emit (.gatesShort d)

/-- Over-voltage in a sample (R180): the winding short begins at once, except where R166 keeps the gates off.
DEDUCED, unsafe: log 90. -/
def State.overVolt (s : State) (d vbus : Nat) : State :=
  if s.getF F.WND_BUSLIM_V_OV d < vbus && s.deck d != dkEMPTY then
    let s1 := s.raise E.WND_OVERVOLT d
    if s.deck d = dkFAULT then
      match (s.wn d).brake with
      | .hold _ => s1
      | .coast => s1
      | .short _ _ => if (s.wn d).skipAt.isSome then s1.reShort d else s1
      | _ => s1.startShort d
    else s1.deckFatal d .short
  else s

/-- The speed that the terminal voltages show with all gates off, rpm x 2^-2 without a sign: their line-to-line peak by KE; none
without measurable back-EMF (R176, R185).
DEDUCED, unsafe: log 91. -/
def State.termSpeed (s : State) (d : Nat) (x : MotorIn) : Option Nat :=
  let ke := s.getF F.WND_MODEL_KE_KE d
  let n := vecPeak (vec3 x.vtu x.vtv x.vtw) 4000000
  if ke = 0 || n = 0 then none else some (n / (256 * ke))

/-- Speed with its sign, and rotor angle, by the terminal voltages of the last two samples with all gates off (R176).
DEDUCED, unsafe: log 91. -/
def State.termFound (s : State) (d : Nat) (x : MotorIn) : Option (Int × Nat) :=
  let w := s.wn d
  let z := vec3 x.vtu x.vtv x.vtw
  let y := vec3 w.lastV.1 w.lastV.2.1 w.lastV.2.2
  let back := decide (y.1 * z.2 < y.2 * z.1)
  match s.termSpeed d x with
  | some v => if w.lastG = .off then some (if back then -(v : Int) else v, rotorAngle (vecAngle z) back) else none
  | none => none

/-- Rest with all gates off (R185). -/
def State.restCount (s : State) (d : Nat) (x : MotorIn) : State :=
  let w := s.wn d
  if w.gatesOn then (s.setB F.WND_STATUS_AT_REST d false).updWnd d fun w => { w with offRun := 0, restRun := 0, found := none }
  else
    let still := match s.termSpeed d x with
      | none => true
      | some v => decide (v * 200 < s.getF F.WND_MOTOR_SPD_MIN d * 4)
    let n := if still then min (w.restRun + 1) 1000 else 0
    let rest := decide (8 ≤ n)
    (s.setB F.WND_STATUS_AT_REST d rest).updWnd d fun w =>
      { w with offRun := min (w.offRun + 1) 1000000, restRun := n, found := s.termFound d x, delec := if rest then 0 else w.delec }

/-- The lock of the observer (R170). -/
def State.lockCount (s : State) (d : Nat) (err : Nat) : State :=
  if s.isSet F.WND_STATUS_LOCKED d then s
  else
    let fast := decide (s.getF F.WND_MOTOR_SPD_MAX d * 65536 * 8 ≤ (s.rpm16 d).natAbs * 1000)
    let n := if err ≤ s.getF F.WND_OBS_LOCK_ERR d && fast then (s.wn d).lockRun + 1 else 0
    let s1 := s.updWnd d fun w => { w with lockRun := n }
    if 64 ≤ n then
      ((s1.setB F.WND_STATUS_LOCKED d true).setF F.WND_STATUS_REF d 1).updWnd d fun w => { w with pole := 0 }
    else s1

/-- Phase error and back-EMF amplitude against synchronism (R182); the flag says that it is lost. -/
def State.syncCount (s : State) (d err : Nat) (amp : Option Nat) : State × Bool :=
  if !s.isSet F.WND_STATUS_LOCKED d || !s.loopOn d then
    (s.updWnd d fun w => { w with errRun := 0, emfRun := 0 }, false)
  else
    let ke := s.getF F.WND_MODEL_KE_KE d * (s.rpm16 d).natAbs
    let e1 := if s.getF F.WND_LOS_LOS_ERR d < err then (s.wn d).errRun + 1 else 0
    let e2 := match amp with
      | none => (s.wn d).emfRun
      | some a =>
        let off := ((a * 65536 : Nat) : Int) - (ke : Nat)
        if s.getF F.WND_LOS_LOS_EMF d * ke < off.natAbs * 256 then (s.wn d).emfRun + 1 else 0
    (s.updWnd d fun w => { w with errRun := e1, emfRun := e2 }, decide (4 ≤ e1 ∨ 16 ≤ e2))

/-- The currents of a sample; that of a phase floating at it is 0 (R165). -/
def DeckS.sampled (w : DeckS) (x : MotorIn) : Int × Int × Int :=
  match w.gates with
  | .pwm u v z => (if u.isSome then x.iu else 0, if v.isSome then x.iv else 0, if z.isSome then x.iw else 0)
  | .short => (x.iu, x.iv, x.iw)
  | .off => (0, 0, 0)

/-- The compare counts in force. -/
def DeckS.counts (w : DeckS) : Int × Int × Int :=
  match w.gates with
  | .pwm u v z => ((u.getD 0 : Nat), (v.getD 0 : Nat), (z.getD 0 : Nat))
  | _ => (0, 0, 0)

/-- The back-EMF vector of the full class, e = v - Rs i - L di/dt, times (3, root 3), in units of 2^-31 uV: the voltages of the
duties in force, Vbus, and the currents of this sample and the one before (R169). -/
def State.emfVec (s : State) (d : Nat) (x : MotorIn) : Int × Int :=
  let w := s.wn d
  let c := vec3 w.counts.1 w.counts.2.1 w.counts.2.2
  let i := w.sampled x
  let a := (3 * i.1, i.1 + 2 * i.2.1)
  let b := (3 * w.lastI.1, w.lastI.1 + 2 * w.lastI.2)
  let rs : Int := (2560 * s.getF F.WND_MODEL_RL_RS d : Nat)
  let ls : Int := (10240 * s.getF F.WND_MODEL_RL_LS d : Nat)
  let ifs : Int := (s.getF F.WND_MODEL_KE_I_FS d : Nat)
  let v : Int := (x.vbus * 838860800 : Nat)
  (v * c.1 - ifs * (rs * a.1 + ls * (a.1 - b.1)), v * c.2 - ifs * (rs * a.2 + ls * (a.2 - b.2)))

/-- The terminal voltages relative to Vbus / 2, 2^-9 V. -/
def MotorIn.rel (x : MotorIn) : Int × Int × Int :=
  (2 * x.vtu - (x.vbus : Int), 2 * x.vtv - (x.vbus : Int), 2 * x.vtw - (x.vbus : Int))

/-- A phase that floats under both gate settings: its number, its voltages in both samples. -/
def floating (g h : Gates) (a b : Int × Int × Int) : Option (Nat × Int × Int) :=
  match g, h with
  | .pwm u v w, .pwm x y z =>
    if u.isNone && x.isNone then some (0, a.1, b.1)
    else if v.isNone && y.isNone then some (1, a.2.1, b.2.1)
    else if w.isNone && z.isNone then some (2, a.2.2, b.2.2)
    else none
  | _, _ => none

/-- The back-EMF angle, 2^-16 electrical counts of the rotor, and its amplitude in uV (R169): in the full class by the model, in the
compact class by a zero crossing of the floating phase.
DEDUCED, unsafe: log 92. -/
def State.backEmf (s : State) (d : Nat) (x : MotorIn) : Option (Nat × Nat) :=
  let w := s.wn d
  if s.isSet F.WND_MOTOR_CLASS d then
    let z := s.emfVec d x
    if z = (0, 0) then none else some (rotorAngle (vecAngle z) (decide (w.delec < 0)) * 65536, vecPeak z 1 / 2 ^ 31)
  else
    match floating w.lastG w.gates w.lastV x.rel with
    | none => none
    | some (k, was, now) => (crossing k was now w.delec).map fun p => (p.1, Config.crossingEmf p.2.1 p.2.2 w.delec)

/-- The PLL of the observer in a motor tick (R169, R170, R182); the flag says that synchronism is lost. Between the zero crossings
of the compact class the phase error keeps its value. -/
def State.pll (s : State) (d : Nat) (x : MotorIn) : State × Bool :=
  let w := s.wn d
  if !w.gatesOn then (s, false)
  else
    match s.backEmf d x, w.eps with
    | some (ang, amp), _ =>
      let eps := sgn 16 (unsgn 16 ((ang / 65536 : Nat) - (w.elec / 65536 : Nat) : Int))
      let bw := s.getF F.WND_OBS_PLL_BW d
      let s1 := s.updWnd d fun w =>
        { (w.turn (s.poles d) (Config.pllAngle bw eps)) with delec := w.delec + Config.pllRate bw eps, eps := some eps.natAbs }
      (s1.lockCount d eps.natAbs).syncCount d eps.natAbs (some amp)
    | none, some e => if s.isSet F.WND_MOTOR_CLASS d then (s, false) else (s.lockCount d e).syncCount d e none
    | none, none => (s, false)

/-- The setpoint under a negative limit. -/
def DeckS.boundNeg (w : DeckS) (lim : Int) : DeckS :=
  { w with negLim := lim, iSet := max (-lim) w.iSet, spdLim := w.spdLim || decide (w.iSet < -lim) }

/-- The negative current limit in controlled deceleration; it bounds the setpoint from the motor tick it changes in (R177). -/
def State.regenLimit (s : State) (d : Nat) (vbus : Nat) : State :=
  let w := s.wn d
  let imax : Int := (s.getF F.WND_ILIM_IMAX d : Nat) * 256
  if w.brake ≠ .ramp then s
  else if s.getF F.WND_BUSLIM_V_REGEN d < vbus then
    (s.updWnd d fun w => { w.boundNeg (w.negLim / 2) with regen := true, regenRaised := true }).onlyIf (!w.regenRaised) fun t =>
      t.raise E.WND_REGEN_LIMIT d
  else s.updWnd d fun w => w.boundNeg (min imax (w.negLim + imax / 16))

/-- The electrical angle and the current setpoints (d, q) that the present phase commands (R167, R176). -/
def State.setpoints (s : State) (d : Nat) : Nat × Int × Int :=
  let w := s.wn d
  if s.deck d = dkSPINUP && s.phase d = 4 then (0, (s.getF F.WND_START_ALIGN_I d : Nat) * 2048, 0)
  else if s.deck d = dkSPINUP && s.phase d = 5 then (w.olAngle / 65536 % 65536, (s.getF F.WND_OL_OL_I d : Nat) * 2048, 0)
  else (w.elec / 65536, 0, w.iSet)

/-- Anti-windup: the last output was limited and the error has the sign of the last output (R167). -/
def held (limited : Bool) (err last : Int) : Bool := limited && decide (sgnI err = sgnI last) && decide (last ≠ 0)

/-- The full-class current loop (R167): duties as counts, sector, VSAT. -/
def State.fullLoop (s : State) (d : Nat) (x : MotorIn) : State :=
  let w := s.wn d
  let sp := s.setpoints d
  let kp := sgn 24 (s.getF F.WND_CUR_KP_K d)
  let ki := sgn 24 (s.getF F.WND_CUR_KI_K d)
  let y := w.sampled x
  let i := parkI y.1 y.2.1 sp.1
  let ed := sat23 (sp.2.1 - i.1)
  let eq := sat23 (sp.2.2 - i.2)
  let nd := if held w.scaled ed w.sgnD then w.intD else sat23 (w.intD + red (ki * ed))
  let nq := if held w.scaled eq w.sgnQ then w.intQ else sat23 (w.intQ + red (ki * eq))
  let dec := s.isSet F.WND_CTL_DECOUPLE d
  let wl := w.delec * Config.inductance d (s.getF F.WND_MODEL_RL_LS d) (s.getF F.WND_MODEL_KE_I_FS d)
  let psi := w.delec * Config.flux d (s.getF F.WND_MODEL_KE_KE d)
  let vd := sat23 (red (kp * ed) + nd) - (if dec then rnd 32 (wl * i.2) else 0)
  let vq := sat23 (red (kp * eq) + nq) + (if dec then rnd 32 (wl * i.1) + rnd 16 psi else 0)
  let bus := Config.busNorm d x.vbus
  let dm := dMaxNs (s.getF F.WND_PWM_SAMPLE_WIN d) (s.getF F.WND_PWM_DT d)
  let lv := limitVec vd vq (voltLimit (s.getF F.WND_LIMITS_VLIM d) dm bus)
  let ang := (((sp.1 * 65536 : Nat) + 10 * w.delec) / 65536 % 65536).toNat
  let ph := phaseV lv.1 lv.2.1 ang
  let v0 := -(max ph.1 (max ph.2.1 ph.2.2) + min ph.1 (min ph.2.1 ph.2.2)) / 2
  let dtc (z : Int) : Int := if s.isSet F.WND_CTL_DTC d then sgnI z * (s.getF F.WND_PWM_DT d : Nat) else 0
  let duty (v i : Int) := dutyCount ((bus : Int) + 2 * (v + v0)) (2 * (max 1 bus : Nat)) (dtc i) dm (s.getF F.WND_PWM_MIN_PULSE d)
  let du := duty ph.1 y.1
  let dv := duty ph.2.1 y.2.1
  let dw := duty ph.2.2 y.2.2
  let g : Gates := .pwm (some du.1) (some dv.1) (some dw.1)
  let s1 := s.updWnd d fun w => { w with intD := nd, intQ := nq, sgnD := vd, sgnQ := vq, scaled := lv.2.2, next := some g }
  let s2 := ((s1.setF F.WND_IDQ_IQ d (unsgn 16 (rnd 8 i.2))).setF F.WND_IDQ_ID d (unsgn 16 (rnd 8 i.1))).setF F.WND_STATUS_SECTOR d
    (sectorOf ph.1 ph.2.1 ph.2.2)
  s2.onlyIf (lv.2.2 || du.2 || dv.2 || dw.2) fun t => t.raise E.WND_VSAT d

/-- The compact-class current loop (R168). -/
def State.compactLoop (s : State) (d : Nat) (x : MotorIn) : State :=
  let w := s.wn d
  let sp := s.setpoints d
  let iSet := if sp.2.1 ≠ 0 then sp.2.1 else sp.2.2
  let phi := if s.deck d = dkSPINUP && s.phase d = 4 then 0
    else if s.deck d = dkSPINUP && (s.phase d = 5 || s.phase d = 6) then ((w.olAngle / 65536 : Nat) : Int) % 65536
    else (((sp.1 * 65536 : Nat) + 10 * w.delec) / 65536 + 16384 + sgn 16 (s.getF F.WND_SIX_ADV d)) % 65536
  let six := sixStep phi.toNat (s.getF F.WND_SIX_SOFT d)
  let y := w.sampled x
  let l := six.2
  let i := sixCurrent l [y.1, y.2.1, y.2.2]
  let e := sat23 (iSet - i)
  let kp := sgn 24 (s.getF F.WND_CUR_KP_K d)
  let ki := sgn 24 (s.getF F.WND_CUR_KI_K d)
  let n := if held w.scaled e w.sgnQ then w.intQ else sat23 (w.intQ + red (ki * e))
  let dm := dMaxNs (s.getF F.WND_PWM_SAMPLE_WIN d) (s.getF F.WND_PWM_DT d)
  let lim := (2 * dm - 25000) * 8388608 / 25000
  let raw := red (kp * e) + n
  let dd := clampI (-lim) lim raw
  let dtc (z : Int) : Int := if s.isSet F.WND_CTL_DTC d then sgnI z * (s.getF F.WND_PWM_DT d : Nat) else 0
  let duty (k : Nat) (z : Int) : Option Nat × Bool :=
    let lv := l.getD k 0
    if lv = 0 then (none, false)
    else
      let r := dutyCount (2 ^ 46 + lv * dd) (2 ^ 47) (dtc z) dm (s.getF F.WND_PWM_MIN_PULSE d)
      (some r.1, r.2)
  let du := duty 0 y.1
  let dv := duty 1 y.2.1
  let dw := duty 2 y.2.2
  let s1 := s.updWnd d fun w => { w with intQ := n, sgnQ := raw, scaled := decide (dd ≠ raw), next := some (.pwm du.1 dv.1 dw.1) }
  let s2 := ((s1.setF F.WND_IDQ_IQ d (unsgn 16 (rnd 8 i))).setF F.WND_IDQ_ID d 0).setF F.WND_STATUS_SECTOR d (six.1 + 1)
  s2.onlyIf (decide (dd ≠ raw) || du.2 || dv.2 || dw.2) fun t => t.raise E.WND_VSAT d

/-- The carrier peak, cycle 0 of servo tick k + 5: the duties computed in motor tick k come into force (R163). -/
def State.carrierPeak (s : State) (d : Nat) : State :=
  match (s.wn d).next with
  | some (.pwm u v w) => (s.updWnd d fun x => { x with gates := .pwm u v w, next := none }).drivePwm d u v w
  | _ => s

/-- Modulation is due: spin-up phases 2 to 7, READY, controlled deceleration (R167, R176, R177). -/
def State.modulates (s : State) (d : Nat) : Bool :=
  let st := s.deck d
  (st = dkSPINUP && 2 ≤ s.phase d && !(s.wn d).waitRest) || st = dkREADY ||
  ((st = dkBRAKING || st = dkFAULT) && (s.wn d).brake = .ramp)

/-- The open-loop rotation of phase 5 and the phases that end by speed, lock or rest (R176). -/
def State.spinStep (s : State) (d : Nat) : State :=
  let w := s.wn d
  let hand := s.getF F.WND_START_HANDOVER d * 65536
  if s.deck d ≠ dkSPINUP then s
  else
    match s.phase d with
    | 3 => if speedBelow (s.rpm16 d) (w.target0 * 8192) 1 100 then (s.gatesOff d).setPhase d 4 else s
    | 5 =>
      let rate := w.olRate + s.getF F.WND_OL_OL_ACC d * 65536 / 40000
      let step := rate * s.poles d * 10 / 24000000 * 65536 + rate * s.poles d * 10 % 24000000 * 65536 / 24000000
      let s1 := s.updWnd d fun w => { w with olRate := rate, olAngle := (w.olAngle + step) % 2 ^ 32 }
      if hand ≤ rate then (s1.updWnd d fun w => { w with ramp := hand }).setPhase d 6 else s1
    | 6 =>
      if w.waitRest then (if s.isSet F.WND_STATUS_AT_REST d then s.setPhase d 4 else s)
      else if s.isSet F.WND_STATUS_LOCKED d then s.setPhase d 7
      else s.updWnd d fun w => { w with olAngle := (w.olAngle + w.olRate * s.poles d * 10 * 65536 / 24000000) % 2 ^ 32 }
    | _ => s

/-- Braking in a motor tick (R177). -/
def State.brakeStep (s : State) (d : Nat) : State :=
  let w := s.wn d
  let slow := speedBelow (s.rpm16 d) (w.target0 * 8192) 1 100
  match w.brake with
  | .ramp => if slow then s.startShort d else s
  | .short n since =>
    if since.isSome then s
    else
      let m := if slow then n + 1 else 0
      s.updWnd d fun w => { w with brake := .short m (if 8 ≤ m then some s.tick else none) }
  | _ => s

/-- The samples of a motor tick and the gates in force at it are kept for the next one (R169). -/
def DeckS.keep (w at_ : DeckS) (x : MotorIn) : DeckS :=
  { w with lastI := ((at_.sampled x).1, (at_.sampled x).2.1), lastV := x.rel, lastG := at_.gates }

/-- The motor step of one deck (R28). -/
def State.motorDeck (s : State) (d : Nat) (x : MotorIn) : State :=
  if s.deck d = dkEMPTY then (s.setF F.WND_BUS_VBUS d x.vbus).setF F.WND_BUS_IBRK d x.ibrk
  else
    let s1 := (s.setF F.WND_BUS_VBUS d x.vbus).setF F.WND_BUS_IBRK d x.ibrk
    let s2 := s1.onlyIf (s1.wn d).ovr fun t => (t.startRamp d).updWnd d fun w => { w with ovr := false }
    let s3 := ((s2.overVolt d x.vbus).chopper d x).restCount d x
    let p := s3.pll d x
    let s4 := if p.2 then p.1.loseSync d else p.1
    let s5 := ((s4.regenLimit d x.vbus).spinStep d).brakeStep d
    let s6 := if s5.modulates d then (if s5.isSet F.WND_MOTOR_CLASS d then s5.fullLoop d x else s5.compactLoop d x) else s5
    (s6.setB F.WND_STATUS_REVERSE d (decide (s6.rpm16 d < 0))).updWnd d fun w =>
      w.keep (s.wn d) x

/-! ### Speed tick (R174, R175, R184) -/

/-- The speed the ramp moves towards, rpm x 2^-16 (R174, R176, R177). -/
def State.rampGoal (s : State) (d : Nat) : Int :=
  if s.deck d = dkSPINUP && s.phase d = 3 then 0
  else if s.deck d = dkSPINUP && s.phase d = 6 then (s.getF F.WND_START_HANDOVER d * 65536 : Nat)
  else if (s.wn d).brake = .ramp then 0
  else s.target16 d

/-- Move the ramp speed by one speed tick (R174). -/
def rampMove (r goal : Int) (acc dec : Nat) : Int :=
  let up : Int := (acc * 65536 / 4000 : Nat)
  let dn : Int := (dec * 65536 / 4000 : Nat)
  if r < goal then (if 0 ≤ r then min goal (r + up) else min goal (min 0 (r + dn)))
  else if goal < r then (if r ≤ 0 then max goal (r - up) else max goal (max 0 (r - dn)))
  else r

/-- The ramp in a speed tick; under regeneration it follows the speed (R177). -/
def State.rampStep2 (s : State) (d : Nat) : State :=
  let w := s.wn d
  let high := decide (s.getF F.WND_BUSLIM_V_REGEN d < s.getF F.WND_BUS_VBUS d)
  if w.brake = .ramp && w.regen && high then s.updWnd d fun w => { w with ramp := s.rpm16 d }
  else
    let from_ := if w.brake = .ramp && w.regen then s.rpm16 d else w.ramp
    s.updWnd d fun w => {
      w with
      regen := false
      ramp := rampMove from_ (s.rampGoal d) (s.getF F.WND_RAMP_ACCEL d) (s.getF F.WND_RAMP_DECEL d) }

/-- The speed loop (R174): setpoint from the ramp and the trim, rpm x 2^-16. -/
def State.speedLoop (s : State) (d : Nat) (trim : Int) : State :=
  let w := s.wn d
  let imax : Int := (s.getF F.WND_ILIM_IMAX d : Nat) * 256
  let lo := if w.brake = .ramp then min imax w.negLim else imax
  let e := sat23 (rnd 6 (w.ramp + trim - s.rpm16 d))
  let raw := red (sgn 24 (s.getF F.WND_SPD_KP_K d) * e) + w.spdInt
  let i := clampI (-lo) imax raw
  let n := if held w.spdLim e w.iSet then w.spdInt else sat23 (w.spdInt + red (sgn 24 (s.getF F.WND_SPD_KI_K d) * e))
  s.updWnd d fun w => { w with iSet := i, spdInt := n, spdLim := decide (i ≠ raw) }

/-- AT_SPEED, and READY (R175, R185). -/
def State.atSpeed (s : State) (d : Nat) : State :=
  let t := s.target16 d
  let off := (s.rpm16 d - (t : Nat)).natAbs
  let n := if off * 1000 ≤ 2 * t then (s.wn d).atRun + 1 else 0
  let s1 := s.updWnd d fun w => { w with atRun := min n 64 }
  let s2 := if t < off * 100 then s1.setB F.WND_STATUS_AT_SPEED d false
    else if 64 ≤ n then s1.setB F.WND_STATUS_AT_SPEED d true else s1
  if s2.deck d = dkSPINUP && s2.phase d = 7 && s2.isSet F.WND_STATUS_AT_SPEED d && s2.isSet F.WND_STATUS_LOCKED d then
    (s2.setDeck d dkREADY).raise E.WND_READY d
  else s2

/-- Decks 2 j and 2 j + 1 are paired (R184). -/
def State.paired (s : State) (d : Nat) : Bool :=
  let a := d / 2 * 2
  [a, a + 1].all (fun k => s.deck k = dkREADY && s.isSet F.WND_STATUS_AT_SPEED k && s.getF F.WND_STATUS_REF k = 2 &&
    s.getF F.WND_CTL_PAIR_SRC k = 1) && s.getF F.WND_SPEED_SET_TARGET a = s.getF F.WND_SPEED_SET_TARGET (a + 1)

/-- Write PAIR_LOCK; a change raises PAIR. -/
def State.pairLock (s : State) (d : Nat) (b : Bool) : State :=
  if s.isSet F.WND_STATUS_PAIR_LOCK d = b then s else (s.setB F.WND_STATUS_PAIR_LOCK d b).raise E.WND_PAIR d

/-- The trim for a phase error, rpm x 2^-16, and its reports (R184). -/
def State.pairTrim (s : State) (d : Nat) (delta : Option Int) : State × Int :=
  match delta with
  | none =>
    ((((s.setF F.WND_PAIR_STATUS_TRIM d 0).setF F.WND_PAIR_STATUS_DELTA d 0).updWnd d fun w => { w with pairRun := 0 }).pairLock d
      false, 0)
  | some z =>
    let lim : Int := (s.target16 d / 1000 : Nat)
    let t := clampI (-lim) lim (-((s.getF F.WND_PAIR_KPAIR d : Nat) * z))
    let n := if z.natAbs ≤ 256 then min 64 ((s.wn d).pairRun + 1) else 0
    let s1 := ((s.setF F.WND_PAIR_STATUS_TRIM d (unsgn 16 (rnd 12 t))).setF F.WND_PAIR_STATUS_DELTA d (unsgn 16 z)).updWnd d fun w =>
      { w with pairRun := n }
    (if 64 ≤ n then s1.pairLock d true else if 1024 < z.natAbs then s1.pairLock d false else s1, t)

/-- The pairing error of an odd deck (R184). -/
def State.pairDelta (s : State) (d : Nat) : Option Int :=
  if d % 2 = 1 && s.paired d then
    some (sgn 16 (unsgn 16 ((s.theta d : Int) - (s.theta (d - 1) : Nat) - 32768 - (s.getF F.WND_PAIR_OFS d : Nat))))
  else none

/-- The speed step of one deck; `ring` is the phase error against ring time of a deck steered by it (R28, R174, R184). -/
def State.speedDeck (s : State) (d : Nat) (ring : Option Int) : State :=
  if s.deck d = dkEMPTY then s
  else
    let w := s.rpm16 d
    let lost := s.isSet F.WND_STATUS_LOCKED d && s.loopOn d &&
      decide ((s.getF F.WND_LOS_LOS_DSPD d : Nat) * 65536 < ((w.natAbs : Int) - ((s.wn d).lastSpeed.natAbs : Nat)).natAbs)
    let s1 := s.updWnd d fun x => { x with lastSpeed := w }
    let s2 := if lost then s1.loseSync d else s1
    let on := s2.loopOn d
    let s3 := if on then s2.rampStep2 d else s2
    let p := s3.pairTrim d (match s3.pairDelta d with | some z => some z | none => ring)
    let s4 := if on then p.1.speedLoop d p.2 else p.1
    let s5 := s4.atSpeed d
    (s5.setF F.WND_SPEED_MEAS d (unsgn 16 (rnd 14 w))).setF F.WND_SPEED_RAMP d (min 65535 ((s5.wn d).ramp.natAbs / 8192))

/-! ### Winding short in servo ticks (R165, R177) -/

/-- A pulse is skipped: all gates turn off, with the loss of the lock and the chopper off (R170, R177, R178). -/
def State.skipPulse (s : State) (d : Nat) : State :=
  let s1 := (((s.setB F.WND_STATUS_LOCKED d false).setF F.WND_STATUS_REF d 0).onlyIf (s.isSet F.WND_STATUS_CHOP_ON d) fun t =>
    t.emit (.chopper d false)).setB F.WND_STATUS_CHOP_ON d false
  (s1.updWnd d fun w => { w with gates := .off, skipAt := some s.tick, lockRun := 0, errRun := 0, emfRun := 0, eps := none,
                                 chopFull := false, rises := 0 }).emit (.gatesOff d)

/-- A sample of a deck that brakes by winding short: the largest phase current and Vbus; the one taken while a pulse is skipped
decides over Vbus alone (R165, R177, R180). -/
def State.shortTick (s : State) (d : Nat) (x : Option (Nat × Nat)) : State :=
  let w := s.wn d
  if w.gates ≠ .short && w.skipAt.isNone then s
  else
    let s1 := match x with
      | some (_, v) => (s.setF F.WND_BUS_VBUS d v).overVolt d v
      | none => s
    if w.skipAt.isSome then (if (s1.wn d).skipAt.isSome then s1.reShort d else s1)
    else
      match x with
      | some (i, _) => if s.getF F.WND_ILIM_SHORT_ILIM d * 256 < i then s1.skipPulse d else s1
      | none => s1

/-! ### Starting and stopping a deck (R176, R185) -/

/-- The four heads of deck d. -/
def headsOf (d : Nat) : List Nat := [4 * d, 4 * d + 1, 4 * d + 2, 4 * d + 3]

/-- Every head of the deck is OFF, PARKED or SAFE (R185). -/
def State.headsDown (s : State) (d : Nat) : Bool :=
  (headsOf d).all fun h => s.clr h == hdOFF || s.clr h == hdPARKED || s.clr h == hdSAFE

/-- START is accepted. -/
def State.mayStart (s : State) (d : Nat) : Bool :=
  (s.deck d == dkLOADED || s.deck d == dkBRAKING) && s.isSet F.WND_CTL_EN d

/-- START: the target is taken, the deck enters SPINUP at MEASURE. -/
def State.startDeck (s : State) (d : Nat) : State :=
  (s.updWnd d fun w => { w with target0 := s.getF F.WND_SPEED_SET_TARGET d }).enterMeasure d

/-- The deck turns or is being turned. -/
def State.turning (s : State) (d : Nat) : Bool := s.deck d == dkSPINUP || s.deck d == dkREADY

/-- The deck enters BRAKING by controlled deceleration (R185). -/
def State.brakeDeck (s : State) (d : Nat) : State := (s.setDeck d dkBRAKING).startRamp d

/-- The engines of a deck that is no longer present are removed: it is at rest, and its learner tables are cleared as it enters EMPTY
(R143, R382). -/
def State.removeDeck (s : State) (d : Nat) : State :=
  let s1 := [F.WND_MOTOR_CLASS, F.WND_MOTOR_P, F.WND_MOTOR_SPD_MIN, F.WND_MOTOR_SPD_MAX, F.WND_MODEL_KE_I_FS, F.WND_MODEL_RL_RS,
    F.WND_MODEL_RL_LS, F.WND_MODEL_KE_KE].foldl (fun t f => t.setF f d 0) (s.lrnClearDeck d)
  (s1.setDeck d dkEMPTY).forEach (headsOf d) fun t h =>
    (((((t.setF F.SLD_GEOM_STEP_PM h 0).setF F.SLD_GEOM_MICRO h 0).setF F.SLD_GEOM_GROUP h 0).setF F.SLD_GEOM_HOME_DIR h 0).setF
      F.SLD_AHARD_AHARD h 0).setF F.LRN_MOUNT_MOUNT h 0

end Sys2Proof.Machine
end

