-- ==== Sys2Proof/Machine/Outcome.lean ====
section
/-!
DEFINITION. What the outcome of a lode read does (R226, R241, R245): the delivery of blocks to READ commands (R283, R287, R304,
R315), the recovery of a seam's write pointer (R272), the search for a volume's serial (R313), self-tests (R320).
-/
namespace Sys2Proof.Machine

/-! ### Asking for lodes -/

/-- Ask for the lode at position x of the band stream of a seam's home band. -/
def State.ask (s : State) (v n x pos : Nat) : State := s.askLode v n x pos false

/-- The metadata of a decoded lode: that of its first data drift. -/
def SlotS.meta (x : SlotS) : Meta := Meta.decode (infoMeta ((soundOf x.sound 0).getD 0))

/-- The user bytes of the first data drift of a decoded lode. -/
def SlotS.first (x : SlotS) : List Nat := infoUser ((soundOf x.sound 0).getD 0)

/-- The position is BLANK in every drift (R272, R313). -/
def SlotS.allBlank (x : SlotS) : Bool := decide (x.got.length = 160) && x.got.all fun g => g.record.blank

/-- A lode that decoded, clean or corrected. -/
def LodeOutcome.decodes (o : LodeOutcome) : Bool := o = .clean || o = .corrected

/-! ### Recovery of the write pointer (R272) -/

/-- Begin recovery of a seam, unless it is known or under way; what a recovery given up has left is forgotten. -/
def State.startRecovery (s : State) (v n pos : Nat) : State :=
  if s.isSet F.WRP_SEAM_KNOWN (seamIdx v n) || (s.seam v n).recov.isSome then s
  else
    let i := seamIdx v n
    let s1 := ((s.putRecords v n []).setF F.WRP_SEAM_LODES i 0).setB F.WRP_SEAM_EXHAUSTED i false
    (s1.updSeam v n fun x => { x with
      recov := some (.catalogue 0), best := none, catNext := 0, sinceSnap := 0, dirty := false, nextPhys := 0, snapSeq := 0 }).ask v n 0 pos

/-- The sparing records of a loaded SKIP list, with the lode each position was to hold: the position less the number of
records at lower positions. -/
def loadedRecords (l : List (Nat × Nat)) : List (Nat × Nat × Nat) :=
  l.map fun p => (p.1, p.2, p.1 - (l.filter fun q => q.1 < p.1).length)

/-- The catalogue has been read: take the best snapshot, and scan from its NEXT_PHYS or from 0; a trailer ends recovery. -/
def State.catalogueRead (s : State) (v n pos : Nat) : State :=
  let i := seamIdx v n
  match (s.seam v n).best with
  | none => (s.updSeam v n fun x => { x with recov := some (.scan 0), nextPhys := 0, snapSeq := 0 }).ask v n (lodeX 0) pos
  | some b =>
    let s1 := (((s.putRecords v n (loadedRecords b.skips)).setF F.WRP_SEAM_LODES i b.lodes).setB F.WRP_SEAM_EXHAUSTED i
      b.exhausted).setB F.WRP_SEAM_SEALED i b.trailer
    let s2 := s1.updSeam v n fun x => { x with
      nextPhys := b.nextPhys, snapSeq := b.seq + 1
      recov := some (if b.trailer || decide (seamPositions ≤ b.nextPhys) then .ended else .scan b.nextPhys) }
    if b.trailer || decide (seamPositions ≤ b.nextPhys) then s2 else s2.ask v n (lodeX b.nextPhys) pos

/-- A catalogue position has been read. -/
def State.recovCatalogue (s : State) (v n c : Nat) (x : SlotS) (o : LodeOutcome) : State :=
  let pos := x.pos
  if x.allBlank then s.catalogueRead v n pos
  else
    let m := x.meta
    let mine := o.decodes && m.volSerial == (s.vol v).serial && m.kind == 1
    let best := match mine, Snapshot.parse x.first with
      | true, some p =>
        match (s.seam v n).best with
        | none => some p
        | some b => if b.seq < p.seq then some p else some b
      | _, _ => (s.seam v n).best
    let s1 := s.updSeam v n fun z => { z with best := best, catNext := c + 1 }
    if c + 1 < catPositions then (s1.updSeam v n fun z => { z with recov := some (.catalogue (c + 1)) }).ask v n (c + 1) pos
    else s1.catalogueRead v n pos

/-- A scanned lode is accepted: it is the next logical lode at its own position, of the mounted volume, and meets R263. -/
def State.scanAccepts (s : State) (v n p : Nat) (z : SlotS) (o : LodeOutcome) : Bool :=
  let m := z.meta
  o.decodes && m.kind == 0 && m.lodeSeq == s.seamA v n && m.phys == p && m.volSerial == (s.vol v).serial && s.acceptable z

/-- Go on with the scan after position p, or end it. -/
def State.scanNext (s : State) (v n p pos : Nat) : State :=
  if decide (seamPositions ≤ p + 1) || decide (seamLodes ≤ s.seamA v n) || s.isSet F.WRP_SEAM_EXHAUSTED (seamIdx v n) then
    s.updSeam v n fun z => { z with recov := some .ended }
  else (s.updSeam v n fun z => { z with recov := some (.scan (p + 1)) }).ask v n (lodeX (p + 1)) pos

/-- A physical position has been read in the scan. -/
def State.recovScan (s : State) (v n p : Nat) (y : SlotS) (o : LodeOutcome) : State :=
  let i := seamIdx v n
  let pos := y.pos
  if y.allBlank then s.updSeam v n fun z => { z with recov := some .ended }
  else if s.scanAccepts v n p y o then
    ((s.setF F.WRP_SEAM_LODES i (s.seamA v n + 1)).updSeam v n fun z =>
      { z with dirty := true, nextPhys := max z.nextPhys (p + 1) }).scanNext v n p pos
  else if 384 ≤ s.getF F.WRP_SEAM_NSKIP i then
    ((s.setB F.WRP_SEAM_EXHAUSTED i true).raise E.WRP_SEAM_EXHAUSTED 0).scanNext v n p pos
  else (s.addSkip v n p skFOUND (p - s.getF F.WRP_SEAM_NSKIP i)).scanNext v n p pos

/-- A read belonging to a seam's recovery has its outcome. -/
def State.recovOutcome (s : State) (v n x : Nat) (y : SlotS) (o : LodeOutcome) : State :=
  match (s.seam v n).recov with
  | some (.catalogue c) => if x = c then s.recovCatalogue v n c y o else s
  | some (.scan p) => if x = lodeX p then s.recovScan v n p y o else s
  | _ => s

/-- The lode at this position is read for recovery or for a mount: an all-blank position needs no re-read. -/
def State.probing (s : State) (v n x : Nat) : Bool :=
  (match (s.seam v n).recov with
   | some (.catalogue c) => x == c
   | some (.scan p) => x == lodeX p
   | _ => false) ||
  (match (s.vol v).mount with
   | some m => !m.waiting && m.probe / 2 == n && x == (if m.probe % 2 = 0 then 0 else lodeX 0)
   | none => false)

/-! ### The volume's serial (R313) -/

/-- The mount of a volume ends with success. -/
def State.mounted (s : State) (v serial : Nat) (blank : Bool) : State :=
  match (s.vol v).mount with
  | none => s
  | some m =>
    (s.setVol v { s.vol v with mounted := true, blank := blank, serial := serial, mount := none, wrote := [] }).forEach
      (m.pos :: m.also) fun t p => t.finish p stSuccess 0

/-- The mount of a volume ends without success. -/
def State.mountFails (s : State) (v : Nat) (st : Status) : State :=
  match (s.vol v).mount with
  | none => s
  | some m => (s.setVol v { s.vol v with mount := none }).forEach (m.pos :: m.also) fun t p => t.finish p st 0

/-- Examine position `probe` of the search, or end it; seams of a band that no head serves cannot be examined, and count as
not blank. At most n positions are passed over. -/
def State.probeFrom (s : State) (v : Nat) : Nat → Nat → State
  | 0, _ => s
  | k + 1, probe =>
    match (s.vol v).mount with
    | none => s
    | some m =>
      if 128 ≤ probe then
        if m.nonBlank then s.mountFails v stVolumeUnreadable else s.mounted v 0 true
      else if (s.deadBand (homeHead v (probe / 2))).isSome then
        (s.setVol v { s.vol v with mount := some { m with probe := probe + 2, nonBlank := true } }).probeFrom v k
          (2 * (probe / 2) + 2)
      else
        (s.setVol v { s.vol v with mount := some { m with probe := probe, waiting := false } }).ask v (probe / 2)
          (if probe % 2 = 0 then 0 else lodeX 0) m.pos

/-- Go on with the search at a position. -/
def State.probeAt (s : State) (v probe : Nat) : State := s.probeFrom v 66 probe

/-- A position of the search has been read. -/
def State.mountOutcome (s : State) (v n x : Nat) (y : SlotS) (o : LodeOutcome) : State :=
  match (s.vol v).mount with
  | none => s
  | some m =>
    if m.waiting || decide (m.probe / 2 ≠ n) || decide (x ≠ if m.probe % 2 = 0 then 0 else lodeX 0) then s
    else if o.decodes then s.mounted v y.meta.volSerial false
    else if y.allBlank then s.probeAt v (m.probe + 1)
    else (s.setVol v { s.vol v with mount := some { m with nonBlank := true } }).probeAt v (2 * n + 2)

/-! ### Self-tests (R320) -/

/-- The self-test state of a volume. -/
def State.test (s : State) (v : Nat) : SelfTest := vget s.hqi.tests {} v

/-- Write the self-test state of a volume. -/
def State.setTest (s : State) (v : Nat) (t : SelfTest) : State := { s with hqi := { s.hqi with tests := vset s.hqi.tests v t } }

/-- Count a lode of a test against its head: clean, corrected or failed. A lode beyond the margins of R262 counts as failed. -/
def SelfTest.countLode (t : SelfTest) (k n x : Nat) (o : LodeOutcome) (meets : Bool) : SelfTest :=
  let bad := !o.decodes || !meets
  let p := t.perHead.getD k (0, 0, 0)
  let p2 := if bad then (p.1, p.2.1, p.2.2 + 1) else if o = .clean then (p.1 + 1, p.2.1, p.2.2) else (p.1, p.2.1 + 1, p.2.2)
  { t with now := none, lodesRead := t.lodesRead + 1, failed := t.failed + bad.toNat, perHead := t.perHead.set k p2,
           firstFail := if bad && (t.firstFail.getD k none).isNone then t.firstFail.set k (some (n, x)) else t.firstFail }

/-- A read of a test has its outcome. -/
def State.testOutcome (s : State) (v n x : Nat) (y : SlotS) (o : LodeOutcome) : State :=
  let t := s.test v
  match t.now with
  | some (.lode m l) =>
    if m = n ∧ x = lodeX (physOf (s.skips v n) l) then s.setTest v (t.countLode (y.head % 4) n l o (s.acceptable y))
    else s
  | _ => s

/-! ### READ commands (R245, R283, R287, R315) -/

/-- What a READ gets of a block: its data, or the status that says why it is not delivered. -/
inductive BlockRead where
  | data (bytes : List Nat)
  | none (st : Status)
  deriving DecidableEq, Repr

/-- Block i of a decoded lode; `ecc` lists drifts whose buffer lines cannot be read (R287). -/
def readBlock (sound : List (Nat × Nat)) (ecc : List Nat) (i : Nat) : BlockRead :=
  match soundOf sound i with
  | none => .none stUnrecovered
  | some info =>
    if ecc.contains i then .none stUnrecovered
    else if (Meta.decode (infoMeta info)).pad then .none stUnwritten
    else .data (infoUser info)

/-- The lower of two undelivered LBAs. -/
def lowerOf (a : Option (Nat × Nat)) (lba code : Nat) : Option (Nat × Nat) :=
  match a with
  | none => some (lba, code)
  | some p => if lba < p.1 then some (lba, code) else a

/-- A READ command waits for a lode of a seam. -/
def Cmd.wants (c : Cmd) (v n l : Nat) : Bool :=
  c.opc == 0x10 && c.stage == .running && c.media && c.vol == v && lbaSeam c.lba == n && c.lodes.contains l

/-- The data writes of a command carry Relaxed Ordering (R283). -/
def State.relaxed (s : State) (q : Nat) : Bool := s.isSet F.HQI_QP_CTL_RO_DATA q && (s.pf 0).roEn

/-- Deliver the blocks of lode l to one command from its buffer, whose lines are read without allocation (R287, R341); then the lode is
no longer waited for. -/
def State.deliverCmd (s : State) (c : Cmd) (l : Nat) (sound : List (Nat × Nat)) (ecc : List Nat) (buf : Nat) : State :=
  let b0 := lbaBlock c.lba
  let step (p : State × Option (Nat × Nat)) (k : Nat) : State × Option (Nat × Nat) :=
    if blockLode (b0 + k) = l then
      match readBlock sound ecc (blockDrift (b0 + k)) with
      | .data bs =>
        let r := p.1.readRun srcDma (buf + 65 * blockDrift (b0 + k)) 64
        if r.2 then (r.1.emit (.hostWrite (c.pages.getD k 0) bs (p.1.relaxed c.q)), p.2)
        else (r.1, lowerOf p.2 (c.lba + k) stUnrecovered.2)
      | .none st => (p.1, lowerOf p.2 (c.lba + k) st.2)
    else p
  let r := (List.range c.nblk).foldl step (s, c.low)
  let left := c.lodes.filter (· ≠ l)
  let s1 := r.1.updCmd c.pos fun d => { d with lodes := left, low := r.2 }
  if left.isEmpty then
    match r.2 with
    | none => s1.finish c.pos stSuccess 0
    | some (lba, sc) => s1.finish c.pos (2, sc) lba
  else s1

/-- Deliver lode l of a seam to every READ that waits for it. -/
def State.deliverLode (s : State) (v n l : Nat) (sound : List (Nat × Nat)) (ecc : List Nat) (buf : Nat) : State :=
  s.forEach (s.hqi.cmds.filter fun c => c.wants v n l) fun t c => t.deliverCmd c l sound ecc buf

/-- The logical lodes of a seam that the READ commands wait for and that lie at position x. -/
def State.lodesAt (s : State) (v n x : Nat) : List Nat :=
  ((s.hqi.cmds.flatMap fun c => c.lodes.filter fun l => c.wants v n l).eraseDups).filter fun l =>
    lodeX (physOf (s.skips v n) l) == x

/-! ### Outcomes (R241, R245) -/

/-- The outcome of a read is held back: a READ waits for it and PF0 may not issue its data writes (R297). -/
def State.heldBack (s : State) (v n x : Nat) : Bool := !s.mayIssue 0 && !(s.lodesAt v n x).isEmpty

/-- Deliver the final outcome of slot y to everything that asked for its lode, and release the slot. -/
def State.deliverSlot (s : State) (y : Nat) (o : LodeOutcome) (ecc : List Nat) : State :=
  let v := s.getF F.ASY_SLOT_ID_V y
  let n := s.getF F.ASY_SLOT_ID_N y
  let x := s.getF F.ASY_SLOT_ID_X y
  let z := s.slot y
  let ls := s.lodesAt v n x
  let s1 := s.forEach ls fun t l => t.deliverLode v n l z.sound ecc z.buf
  let s2 := (s1.releaseSlot y).testOutcome v n x z o
  let s3 := if (s.seam v n).recov.isSome then s2.recovOutcome v n x z o else s2
  if (s.vol v).mount.isSome then s3.mountOutcome v n x z o else s3

/-- The reads a lode has had. -/
def State.slotReads (s : State) (y : Nat) : Nat := s.getF F.ASY_SLOT_READS y

/-- Begin a further read of the lode of slot y with the slot it holds (R226, R241). -/
def State.reread (s : State) (y : Nat) : State :=
  let v := s.getF F.ASY_SLOT_ID_V y
  let n := s.getF F.ASY_SLOT_ID_N y
  let x := s.getF F.ASY_SLOT_ID_X y
  let z := s.slot y
  let o : MediaOp := { readOp v n x z.pos z.test with slot := some y }
  let s1 := s.beginReread y
  let h := homeHead v n
  if s1.routable h then s1.issue (s1.server h) o else s1.holdRead o

/-- The reads a lode may have (R241, R248). -/
def State.readMax (s : State) : Nat := s.getF F.ASY_CTL_READ_MAX 0 + 1

/-- The outcome of a pass that found no correction (R241); a position that recovery or a mount finds BLANK in every drift needs
no further read. -/
def State.failedOutcome (s : State) (y : Nat) : LodeOutcome :=
  let v := s.getF F.ASY_SLOT_ID_V y
  let n := s.getF F.ASY_SLOT_ID_N y
  let x := s.getF F.ASY_SLOT_ID_X y
  if s.isSet F.ASY_SLOT_ID_VERIFY y || decide (s.readMax ≤ s.slotReads y) || (s.probing v n x && (s.slot y).allBlank) then .failed
  else .needsReread

/-- Count an outcome and raise its event (R245, R249); a failure of a test read or of a verify is reported by its test or run
alone (R263, R320). -/
def State.countOutcome (s : State) (y : Nat) (o : LodeOutcome) : State :=
  match o with
  | .clean => s.count F.ASY_LODES_CLEAN 0
  | .corrected =>
    let first := (s.slot y).rung = 0 ∧ (s.slot y).readNo = 0
    (s.count F.ASY_LODES_CORRECTED 0).onlyIf (decide ¬ first) fun t => t.raise E.ASY_RECOVERED 0
  | .needsReread => (s.count F.ASY_LODES2_REREAD 0).raise E.ASY_REREAD 0
  | .failed => (s.count F.ASY_LODES2_FAILED 0).onlyIf
      (!s.isSet F.ASY_SLOT_ID_VERIFY y && !(s.slot y).test) fun t => t.raise E.ASY_LODE_FAILED 0

/-- A pass of slot y has ended with an outcome (R241, R245): a further read, or delivery to what asked for the lode; the
outcome of a verify slot goes to the write path at RESOLVE (R225). -/
def State.lodeOutcome (s : State) (y : Nat) (o : LodeOutcome) (ecc : List Nat) : State :=
  let s1 := s.countOutcome y o
  if o = .needsReread then s1.reread y
  else
    let s2 := ((s1.setSlot y { s1.slot y with outcome := some o }).setF F.ASY_SLOT_STATE y 4).releaseEntries y
    let v := s.getF F.ASY_SLOT_ID_V y
    let n := s.getF F.ASY_SLOT_ID_N y
    if s.isSet F.ASY_SLOT_ID_VERIFY y || s2.heldBack v n (s.getF F.ASY_SLOT_ID_X y) then s2
    else (s2.deliverSlot y o ecc).issueWaiting

/-- Deliver the outcomes that were held back and may be delivered now (R297). -/
def State.deliverHeld (s : State) : State :=
  s.forEach (List.range 96) fun t y =>
    match (t.slot y).outcome with
    | none => t
    | some o =>
      if t.getF F.ASY_SLOT_STATE y = 4 && !t.isSet F.ASY_SLOT_ID_VERIFY y &&
          !t.heldBack (t.getF F.ASY_SLOT_ID_V y) (t.getF F.ASY_SLOT_ID_N y) (t.getF F.ASY_SLOT_ID_X y) then
        (t.deliverSlot y o []).issueWaiting
      else t

end Sys2Proof.Machine
end

