-- ==== Sys2Proof/Machine/HqiOps.lean ====
section
/-!
DEFINITION. The command engine's waiting commands (13): `advance` makes every command go on that can, in arbitration order (R307,
R313 to R317, R320); transfers (R283, R285, R304); reset aborts (R319).
-/
namespace Sys2Proof.Machine

/-! ### Transfers (R283, R304) -/

/-- Request the data of pages k0 and above that are known of a write command. -/
def State.requestPages (s : State) (pos k0 : Nat) : State :=
  match s.cmd? pos with
  | none => s
  | some c => s.forEach ((List.range c.pages.length).filter fun k => k0 ≤ k) fun t k =>
      t.request (.data pos k) (c.pages.getD k 0) 4096

/-- The drifts of lode `index` that hold blocks first to first + n - 1 become padding. -/
def padBlocks (first n index : Nat) (l : List DriftFill) : List DriftFill :=
  l.mapIdx fun i f => if first ≤ 128 * index + i ∧ 128 * index + i < first + n then .pad else f

/-- A write command's transfer has failed: no data of it enters a lode; its drifts are padded, in every lode that has no slot
recorded.
DEDUCED, unsafe: log 21. -/
def State.padWrite (s : State) (pos : Nat) : State :=
  match s.cmd? pos with
  | none => s
  | some c =>
    match c.seam?, c.assigned with
    | some (v, n), some a => s.updSeam v n fun x => { x with
        openLode := x.openLode.map fun o => { o with drifts := padBlocks a c.nblk o.index o.drifts }
        lodes := x.lodes.map fun l =>
          if l.cat || !l.recorded.isEmpty then l else { l with user := padBlocks a c.nblk l.index l.user } }
    | _, _ => s

/-! ### Order on a seam (R314, R315) -/

/-- The command is a write. -/
def Cmd.isWrite (c : Cmd) : Bool := c.opc == 0x11 || c.opc == 0x12

/-- Commands earlier in arbitration order that still wait on the seam: writes, and seals when `seals` says so. -/
def State.behind (s : State) (c : Cmd) (v n : Nat) (seals : Bool) : Bool :=
  s.hqi.cmds.any fun d => decide (d.pos < c.pos) && d.stage == .running && d.waiting && d.seam? == some (v, n) &&
    (d.isWrite || (seals && d.opc == 0x14))

/-- The command no longer waits. -/
def Cmd.go (c : Cmd) : Cmd := { c with waiting := false, media := true }

/-- A FLUSH later in arbitration order is running (R317). -/
def State.flushAfter (s : State) (pos : Nat) : Bool :=
  s.hqi.cmds.any fun d => decide (pos < d.pos) && d.opc == 0x13 && d.stage == .running

/-! ### Writes (R250, R314) -/

/-- Assign a write's blocks at the append point: they enter the open lode, their data is requested. -/
def State.assignWrite (s : State) (c : Cmd) (v n : Nat) : State :=
  let ap := s.appendPoint v n
  let s1 := s.updCmd c.pos fun d => { d.go with assigned := some ap }
  let s2 := s1.forEach (List.range c.nblk) fun t k => t.putBlock v n (.waiting c.pos k)
  let s3 := s2.setVol v { s2.vol v with wrote := insertNat n (s2.vol v).wrote }
  (s3.onlyIf (s3.flushAfter c.pos) fun t => t.sealLode v n).requestPages c.pos 0

/-- An APPEND or WRITE AT whose turn on its seam has come, or that still waits (R313, R314). -/
def State.advWrite (s : State) (c : Cmd) (v n : Nat) : State :=
  let i := seamIdx v n
  let ap := s.appendPoint v n
  let b := lbaBlock c.lba
  if !s.isSet F.WRP_SEAM_KNOWN i then s.startRecovery v n c.pos
  else if s.behind c v n true then s
  else if s.isSet F.WRP_SEAM_SEALED i then s.finish c.pos stSeamSealed 0
  else if s.isSet F.WRP_SEAM_EXHAUSTED i then s.finish c.pos stSparesExhausted 0
  else if c.opc = 0x12 ∧ b < ap then s.finish c.pos stAlreadyWritten (lbaOf n ap)
  else if c.opc = 0x12 ∧ ap < b then s.finish c.pos stNotAtPointer (lbaOf n ap)
  else if seamBlocks < ap + c.nblk then s.finish c.pos stSeamFull 0
  else if !s.roomFor v n c.nblk then s
  else s.assignWrite c v n

/-- A SEAL SEAM that waits, or whose turn has come: the open lode is sealed, the trailer is wanted (R269, R314). -/
def State.advSeal (s : State) (c : Cmd) (v n : Nat) : State :=
  let i := seamIdx v n
  if !s.isSet F.WRP_SEAM_KNOWN i then s.startRecovery v n c.pos
  else if s.behind c v n true then s
  else if s.isSet F.WRP_SEAM_SEALED i then
    if (s.seam v n).noTrailer then (s.raise E.WRP_CAT_FULL 0).finish c.pos stCatalogueFull (lbaOf n (128 * s.seamA v n))
    else s.finish c.pos stSuccess (lbaOf n (128 * s.seamA v n))
  else
    let s1 := (s.updCmd c.pos Cmd.go).sealLode v n
    (s1.updSeam v n fun x => { x with sealCmd := some c.pos }).catalogueDue v n

/-! ### READ (R315) -/

/-- The logical lodes of a READ. -/
def Cmd.readLodes (c : Cmd) : List Nat :=
  let b := lbaBlock c.lba
  (List.range (blockLode (b + c.nblk - 1) - blockLode b + 1)).map fun k => blockLode b + k

/-- A READ that waits, or whose turn has come. -/
def State.advRead (s : State) (c : Cmd) (v n : Nat) : State :=
  let last := lbaBlock c.lba + c.nblk
  if !s.isSet F.WRP_SEAM_KNOWN (seamIdx v n) then s.startRecovery v n c.pos
  else if s.behind c v n false then s
  else if s.appendPoint v n < last then s.finish c.pos stUnwritten c.lba
  else if 128 * s.seamA v n < last || !c.pagesOk then s
  else
    let ls := c.readLodes
    let s1 := s.updCmd c.pos fun d => { d.go with lodes := ls }
    s1.forEach ls fun t l => t.ask v n (lodeX (physOf (t.skips v n) l)) c.pos

/-! ### FLUSH (R317) and VOLUME RELEASE (R316) -/

/-- A FLUSH completes when every earlier write and seal has completed. -/
def State.advFlush (s : State) (c : Cmd) : State :=
  if s.hqi.cmds.any fun d => decide (d.pos < c.pos) && d.stage != .done && (d.isWrite || d.opc == 0x14) then s
  else s.finish c.pos stSuccess 0

/-- Give every head of the deck that is not down a park operation, when it has none. -/
def State.parkHeads (s : State) (v pos : Nat) : State :=
  s.forEach (headsOf v) fun t h =>
    let x := t.head h
    let has := (x.ops.any fun o => o.kind = .park) || x.op.any fun o => o.kind = .park
    if has || t.clr h == hdOFF || t.clr h == hdPARKED || t.clr h == hdSAFE then t
    else t.issue h { kind := .park, vol := v, pos := pos }

/-- The steps of a VOLUME RELEASE. -/
def State.advRelease (s : State) (c : Cmd) : State :=
  let v := c.vol
  let x := s.vol v
  let earlier := s.hqi.cmds.any fun d => decide (d.pos < c.pos) && d.stage != .done && d.vol == v && d.seam?.isSome
  if earlier then s
  else
    let dirty := (List.range 64).filter fun n =>
      (s.seam v n).dirty && !s.isSet F.WRP_SEAM_SEALED (seamIdx v n) && !(s.seam v n).trailerQueued
    if !dirty.isEmpty then s.forEach dirty fun t n => t.snapshot v n false
    else if (List.range 64).any fun n => !(s.seam v n).lodes.isEmpty then s
    else if !x.releaseStopped then
      if s.headsDown v then
        (s.onlyIf (s.turning v) fun t => t.brakeDeck v).setVol v { x with releaseStopped := true }
      else s.parkHeads v c.pos
    else if s.deck v = dkLOADED then
      let t := (s.finish c.pos stSuccess x.wrote.length).dropVolume v
      t.setVol v { t.vol v with mount := x.mount }
    else s

/-! ### Self-tests (R320) -/

/-- The head that serves a seam may take a test operation: it is at an idle point and nothing of the host is queued for it. -/
def State.testHead (s : State) (h : Nat) : Bool :=
  s.idlePoint h && (s.head h).ops.isEmpty && s.wcy h == wsIDLE &&
  !(s.asy.waiting.any fun o => s.server (homeHead o.vol o.seam) == h) && s.routable h

/-- A test's acquisition has ended. -/
def State.acqOver (s : State) (h : Nat) : Bool :=
  let x := s.head h
  !(x.ops.any fun o => o.kind = .testAcquire) && !(x.op.any fun o => o.kind = .testAcquire)

/-- The step in progress of a test has ended without an outcome. -/
def State.stepOver (s : State) (v : Nat) (p : TestStep) : Bool :=
  match p with
  | .acquire h _ => s.acqOver h
  | .lode n l => !s.readShared v n (lodeX (physOf (s.skips v n) l))

/-- Start a step of the test of volume v, when its head may take it; a step whose head is in SAFE, or whose lode no head may read,
is passed over, an acquisition as failed.
DEDUCED, unsafe: log 87. -/
def State.startStep (s : State) (v pos : Nat) (t : SelfTest) (p : TestStep) (rest : List TestStep) : State :=
  match p with
  | .acquire h layer =>
    if s.clr h == hdSAFE then s.setTest v { t with left := rest, acqFailed := true }
    else if s.testHead h then
      (s.setTest v { t with left := rest, now := some p }).issue h
        { kind := .testAcquire, vol := v, layer := layer, pos := pos, test := true }
    else s
  | .lode n l =>
    if (s.deadBand (homeHead v n)).isSome then s.setTest v { t with left := rest }
    else if s.testHead (s.server (homeHead v n)) then
      match s.tryRead (readOp v n (lodeX (physOf (s.skips v n) l)) pos true) with
      | some u => u.setTest v { t with left := rest, now := some p }
      | none => s
    else s

/-- Let the test of volume v take its next step, when it may. -/
def State.advTest (s : State) (v : Nat) : State :=
  let t := s.test v
  match t.running, t.now with
  | none, _ => s
  | some _, some p => if s.stepOver v p then s.setTest v { t with now := none } else s
  | some pos, none =>
    match t.left with
    | [] => s
    | p :: rest => if t.stopping then s else s.startStep v pos t p rest

/-- A test has nothing left to do. -/
def SelfTest.ended (t : SelfTest) : Bool := t.running.isSome && t.now.isNone && (t.stopping || t.left.isEmpty)

/-! ### All waiting commands -/

/-- Let one running command go on. -/
def State.advCmd (s : State) (c : Cmd) : State :=
  if c.opc = 0x13 then s.advFlush c
  else if c.opc = 0x0B then s.advRelease c
  else
    match c.waiting, c.seam? with
    | true, some (v, n) =>
      match s.deadBand (homeHead v n) with
      | some st => s.finish c.pos st 0
      | none => if c.opc = 0x10 then s.advRead c v n else if c.opc = 0x14 then s.advSeal c v n else s.advWrite c v n
    | _, _ => s

/-- A search for a volume's serial passes over the seams of a band that no head serves any more (R462). -/
def State.advMount (s : State) (v : Nat) : State :=
  match (s.vol v).mount with
  | none => s
  | some m => if m.waiting || (s.deadBand (homeHead v (m.probe / 2))).isNone then s else s.probeAt v m.probe

/-- Let every running command go on that can, in arbitration order; then the searches and the self-tests. -/
def State.advance (s : State) : State :=
  if s.contained then s
  else
    let s1 := s.forEach ((s.hqi.cmds.filter fun c => c.stage == .running).map (·.pos)) fun t pos =>
      match t.cmd? pos with
      | some c => if c.stage = .running then t.advCmd c else t
      | none => t
    s1.forEach (List.range 8) fun t v => (t.advMount v).advTest v

/-- A meaning after which the command engine goes on. -/
def doneQ (s : State) (f : State → State) : Out := done s fun t => (f t).advance

/-- A meaning that is a write of PF1's register path and after which the command engine goes on. -/
def doneQW (s : State) (f : State → State) : Out := doneQ s fun t => if t.pf1Served then f t.flushAsm else t

/-! ### Reset aborts (R319) -/

/-- A pending data lode is kept by a reset abort: a lode at or above its index has a slot recorded. -/
def SeamS.keepTo (x : SeamS) : Option Nat := ((x.dataLodes.filter fun l => !l.recorded.isEmpty).map (·.index)).max?

/-- What a reset abort does to the pending lodes of a seam: those up to the highest with a slot recorded are kept, with the
data that has not arrived padded; a trailer of a SEAL SEAM is kept when a slot of it has been recorded, else the seal is
abandoned.
DEDUCED, unsafe: log 44. -/
def SeamS.resetAbort (x : SeamS) (sealed : Bool) : SeamS :=
  let keep (l : SealedLode) : Bool :=
    if l.cat then !l.trailer || x.sealCmd.isNone || !l.recorded.isEmpty
    else match x.keepTo with | some k => decide (l.index ≤ k) | none => false
  let pad (f : DriftFill) : DriftFill := match f with | .waiting _ _ => .pad | g => g
  let kept := (x.lodes.filter keep).map fun l => { l with user := l.user.map pad }
  let stays := sealed || (kept.any fun l => l.cat && l.trailer)
  { x with lodes := kept, openLode := none, sealing := stays, sealCmd := none }

/-- Lodes dropped by a reset abort give up their verify slots. -/
def State.dropLodes (s : State) (v n : Nat) (after : SeamS) : State :=
  s.forEach ((s.seam v n).lodes.filter fun l => !(after.lodes.any fun m => m.cat = l.cat && m.index = l.index)) fun t l =>
    t.dropSlot l

/-- A seam after a reset abort. -/
def State.abortSeam (s : State) (v n : Nat) : State :=
  let x := s.seam v n
  if x.lodes.isEmpty && x.openLode.isNone && !x.sealing then s
  else
    let y := x.resetAbort (s.isSet F.WRP_SEAM_SEALED (seamIdx v n))
    (s.dropLodes v n y).setSeam v n y

/-- The seams of all volumes after a reset abort; mounts and releases in progress are given up. -/
def State.abortSeams (s : State) : State :=
  s.forEach (List.range 8) fun t v =>
    let u := t.forEach (List.range 64) fun w n => w.abortSeam v n
    u.setVol v { u.vol v with mount := none, release := none, releaseStopped := false }

/-- Forget the command engine's commands after an abort. -/
def HqiS.cleared (q : HqiS) (counts : Vector Nat 65) : HqiS :=
  { q with
    cmds := [], aborts := counts
    tests := q.tests.map fun t => { t with running := none, left := [], now := none } }

/-- A waiting read that is kept by a reset abort: a further read of a lode, or one that a recovery asked for. -/
def State.keepsWaiting (s : State) (o : MediaOp) : Bool := o.slot.isSome || (s.seam o.vol o.seam).recov.isSome

/-- What a reset abort takes from the command engine: its commands, with the count of those the test selects kept for the log
page, transfers, mounts, releases and tests in progress, waiting reads that only commands asked for; RESET_ABORT is raised
when commands were aborted.
DEDUCED, unsafe: log 44. -/
def State.resetAbort (s : State) (counted : Cmd → Bool) : State :=
  let cs := s.hqi.cmds.filter counted
  let counts := Vector.ofFn fun (q : Fin 65) => (cs.filter fun c => c.q = q.val).length
  let s1 : State := { s with
    hqi := s.hqi.cleared counts
    hif := { s.hif with reqs := (s.hif.reqs.filter (·.sent)).map fun r => { r with drop := true } } }
  let kept := s1.asy.waiting.filter s1.keepsWaiting
  let s2 : State := { s1 with asy := { s1.asy with waiting := kept } }
  (s2.abortSeams.onlyIf (!cs.isEmpty) fun t => t.raise E.HQI_RESET_ABORT 0).ltrUpdate

end Sys2Proof.Machine
end

