-- ==== Sys2Proof/Machine/TickOps.lean ====
section
/-!
DEFINITION. What happens in one servo tick (R27, R35): the DRIVE items and TICK blocks sent, the STATUS and SERVO items taken
(R90), the Collier's computation (R100 to R123), the write gate (R258 to R261), reads that span two band positions (R227) and the
Collier's overrun (R38, R39). The meanings of the tick rows are in TickCmds.lean.
-/
namespace Sys2Proof.Machine

/-- Change a write cycle. -/
def State.updWrite (s : State) (h : Nat) (f : WriteS → WriteS) : State := s.setHead h { s.head h with write := f (s.head h).write }

/-! ### Sending (R75, R76) -/

/-- A drive value in S0.15 (R76). -/
def drive15 (u : Int) : Nat := unsgn 16 (min 32767 (rnd 8 u))

/-- The head's lens is retracted (R117). -/
def retracted (st : Nat) : Bool := st = hdOFF || st = hdPARKED || st = hdSAFE

/-- The fields of a DRIVE item that are never repeated: LASER, RETRACT and word 2 (R76, R117, R255, R258).
DEDUCED, unsafe: log 32. -/
def State.word2 (s : State) (h : Nat) (d : Drive) : Drive :=
  let st := s.clr h
  let w := (s.head h).write
  let on := st == hdWRITE
  { d with tag := (s.tick + 1) % 2 ^ 16, laser := laserOf st, retract := retracted st, wg := on && w.wgNext,
           wstrat := if on then w.power.2.1 else 0, peak := if on then w.power.2.2.1 else 0,
           bias := if on then w.power.2.2.2.1 else 0, cool := if on then w.power.2.2.2.2 else 0 }

/-- The DRIVE item of the next tick (R38, R76). -/
def State.nextDrive (s : State) (h : Nat) : Drive :=
  let c := s.cl h
  if s.clr h = hdOFF then s.word2 h { layer := c.drive.layer }
  else if c.rep then s.word2 h c.drive
  else
    let sl := s.sledDrive h (s.tick % 20 + 1)
    s.word2 h { focus := drive15 (s.loop h 0).u, track := drive15 (s.loop h 1).u, tilt := drive15 (s.loop h 2).u,
                layer := s.getF F.CLR_POS_LAYER h, sledA := sl.1, sledB := sl.2.1, sledMode := sl.2.2,
                rpwr := s.getF F.CLR_RP_STATUS_CODE h }

/-- Send head h's DRIVE item and TICK for the tick that begins. -/
def State.sendTick (s : State) (h : Nat) : State :=
  let d := s.nextDrive h
  let s1 := (s.updClr h fun c => { c with drive := d, rep := false }).updWrite h fun w => { w with wg := d.wg, wgNext := false }
  let s2 := if s.linkUp h then s1.sendItem h 8 d.tag d.words else s1
  if s.linkUp h || s.lk h = lkTRAIN then
    s2.forEach [0, 1] fun t j => t.onlyIf (t.downOn h j) fun u =>
      u.emit (.tickBlock h j (tickBlock (s.tick + 1)) (s.getF F.LNK_TICK_LEAD_LEAD h))
  else s2

/-! ### STATUS (R73, R84, R90, R95) -/

/-- The head leaves every state but SAFE for OFF (R118). -/
def State.headOff (s : State) (h : Nat) : State :=
  if s.clr h = hdSAFE || s.clr h = hdOFF then s
  else (((s.requeueRead h).interruptOp h false).withdraw h).setClr h hdOFF

/-- A head-fatal event of the link: FAILED, and the head to SAFE (R84). -/
def State.linkLost (s : State) (h : Nat) (e : Event) : State :=
  (((s.raiseLnk e h).headFatal h).linkDown h lkFAILED).headOff h

/-- The SEQ of the LINK_CMD last sent. -/
def State.cmdOut (s : State) (h : Nat) : Nat := ((s.link h).cmdSeq + 255) % 256

/-- CMD_ACK of the outstanding LINK_CMD (R95). -/
def State.cmdAck (s : State) (h seq result : Nat) : State :=
  if s.isSet F.LNK_HFE_CMD_BUSY h && seq == s.cmdOut h then
    (s.setB F.LNK_HFE_CMD_BUSY h false).setF F.LNK_HFE_CMD_RESULT h result
  else s

/-- FAULT and DLOCK of a STATUS item (R84); in TRAIN and OFF they have no such effect (R86). -/
def State.statusFaults (s : State) (h fault : Nat) (dlock : Bool) : State :=
  if !s.linkUp h then s
  else if fault ≠ 0 then
    let s1 := s.onlyIf (!dlock) fun t => t.raiseLnk E.LNK_DOWN_LOST h
    s1.linkLost h E.LNK_HFE_FAULT
  else if !dlock then s.linkLost h E.LNK_DOWN_LOST
  else s

/-- Take the STATUS item of the tick. -/
def State.takeStatus (s : State) (h : Nat) : State :=
  let r := s.takeTick h 1 s.tick
  match r.2 with
  | none =>
    let c := ((r.1.updLink h fun l => { l with ldm := none }).limitSample h none).chatter h
    if c.2 then c.1.headFatal h else c.1
  | some p =>
    let w := p.words.getD 0 0
    let x := p.words.getD 1 0
    let s1 := ((((r.1.setF F.LNK_HFE_STATUS_FAULT h (bitsOf w 31 24)).setF F.LNK_HFE_STATUS_DLOCK0 h (bitsOf w 23 23)).setF
      F.LNK_HFE_STATUS_DLOCK1 h (bitsOf w 22 22)).setF F.LNK_HFE_STATUS_DCRC h (bitsOf w 21 16)).setF
      F.LNK_HFE_STATUS_DRV_TAG h (bitsOf w 15 0)
    let s2 := s1.updLink h fun l =>
      { l with ldm := some (bitsOf w 63 48), limit := bitsOf w 47 47 = 1, temp := bitsOf w 43 32, status := true }
    let s3 := s2.cmdAck h (bitsOf x 63 56) (bitsOf x 55 48)
    let s4 := s3.limitSample h (some (bitsOf w 47 47 = 1))
    let s5 := s4.chatter h
    (if s5.2 then s5.1.headFatal h else s5.1).statusFaults h (bitsOf w 31 24) (bitsOf w 23 22 = 3)

/-! ### The angle window of a tick (R171) -/

/-- The head angle at the tick's strobe, counts x 2^-16. -/
def State.headAngle (s : State) (h : Nat) : Nat :=
  ((s.theta (deckOfHead h) + 65536 - s.getF F.LRN_MOUNT_MOUNT h % 65536) % 65536) * 65536

/-- The head angles that pass in this tick: start and length; they follow on the last tick's.
DEDUCED, unsafe: log 24. -/
def State.window (s : State) (h : Nat) : Nat × Nat :=
  let a := s.headAngle h
  let fin := a + s.dtheta (deckOfHead h)
  match (s.cl h).winAt with
  | none => (a, s.dtheta (deckOfHead h))
  | some b =>
    let len := (fin + 2 ^ 32 - b) % 2 ^ 32
    (b, if len < 2 ^ 31 then len else 0)

/-- An angle (in counts x 2^-16) lies in a window. -/
def inWindow (w : Nat × Nat) (x : Nat) : Bool := decide ((x + 2 ^ 32 - w.1) % 2 ^ 32 < w.2)

/-- Remember where the window of the tick ends; without a valid angle there is none. -/
def State.endWindow (s : State) (h : Nat) (w : Nat × Nat) : State :=
  let v := s.angleValid (deckOfHead h)
  s.updClr h fun c => { c with winAt := if v then some ((w.1 + w.2) % 2 ^ 32) else none }

/-! ### Off-track and flags (R113 to R116) -/

/-- FOCUS_OK (R113). -/
def State.focusOk (s : State) (h : Nat) : State :=
  s.setB F.CLR_STATUS_FOCUS_OK h
    (s.closed h 0 && decide ((((s.cl h).slot 0).natAbs : Int) ≤ s.s15 h F.CLR_FOCUS_TH_FE_OK))

/-- The head is in ACQUIRE to HOLD (R117, R118). -/
def working (st : Nat) : Bool := 2 ≤ st && st ≤ 7

/-- The head follows: FOLLOW, WRITE or VERIFY. -/
def follows (st : Nat) : Bool := st == hdFOLLOW || st == hdWRITE || st == hdVERIFY

/-- The runs of ticks within and beyond the bands, and TF (R113, R116). -/
def State.trackFlag (s : State) (h : Nat) : State :=
  let x := vget (s.cl h).x 0 1
  let on := s.closed h 1
  let tfIn := otWithin x (s.getF F.CLR_TRACK_TH_TF_BAND h)
  let good := working (s.clr h) && on && s.isSet F.CLR_STATUS_FOCUS_OK h && tfIn
  let s1 := s.updClr h fun c =>
    { c with tfGood := if good then min 64 (c.tfGood + 1) else 0, tfBad := if on && !tfIn then min 8 (c.tfBad + 1) else 0,
             wgGood := if on && otWithin x (s.getF F.CLR_TRACK_TH_WG_BAND h) then min 64 (c.wgGood + 1) else 0 }
  let tf := s.isSet F.CLR_STATUS_TF h
  let c := s1.cl h
  if !on || decide (8 ≤ c.tfBad) then (if tf then (s1.setB F.CLR_STATUS_TF h false).chanFollow h else s1)
  else if 64 ≤ c.tfGood then s1.setB F.CLR_STATUS_TF h true
  else s1

/-- A shock (R115). -/
def State.shocked (s : State) (h : Nat) : Bool :=
  follows (s.clr h) && (!otWithin (vget (s.cl h).x 0 1) (s.getF F.CLR_SHOCK_TH_SHOCK_OT h) ||
    decide (s.s15 h F.CLR_SHOCK_TH_SHOCK_FE < (((s.cl h).slot 0).natAbs : Int)))

/-- The effect of a shock: TF falls and its run begins anew.
DEDUCED, unsafe: log 29. -/
def State.shock (s : State) (h : Nat) : State :=
  if s.shocked h then
    (((s.raise E.CLR_SHOCK h).setB F.CLR_STATUS_TF h false).updClr h fun c => { c with sinceShock := 0, tfGood := 0 }).chanFollow h
  else s

/-- A track slip (R115). -/
def State.slip (s : State) (h : Nat) : State := ((s.raise E.CLR_TRACK_SLIP h).loseTrack h).enterHold h false

/-- SUM is below SUM_LOST with focus closed (R118). -/
def State.sumLost (s : State) (h : Nat) : Bool :=
  working (s.clr h) && s.closed h 0 && decide ((s.cl h).slot 4 < s.s15 h F.CLR_FOCUS_TH_SUM_LOST)

/-- A track slip, and focus lost for four ticks with focus closed: of the rows that match in one tick, SAFE ranks before HOLD, and HOLD
before ACQUIRE (R118). -/
def State.slipOrLoss (s : State) (h : Nat) (dx : Int) : State :=
  let slips := follows (s.clr h) && dx != 0
  let n := if s.sumLost h then min 4 ((s.cl h).sumLow + 1) else 0
  let s1 := s.updClr h fun c => { c with sumLow := n }
  let ls := s.tick :: (s.cl h).losses.filter fun k => decide (s.ticksSince k < 400000)
  let lost (t : State) : State := t.updClr h fun c => { c with sumLow := 0, losses := ls }
  if n = 4 ∧ 3 ≤ ls.length then ((lost s1).raise E.CLR_FOCUS_REPEAT h).headFatal h
  else if slips then s1.slip h
  else if n = 4 then (((lost s1).raise E.CLR_FOCUS_LOST h).interruptOp h true).beginAcquire h (s.getF F.CLR_POS_LAYER h)
  else s1

/-- The head waits for a position fix with its operation (R118). -/
def State.waitsFix (s : State) (h : Nat) : Bool :=
  s.clr h == hdFOLLOW && (s.head h).op.isSome && (!s.isSet F.CLR_STATUS_TRK_VALID h || s.isSet F.CLR_POS_EST h)

/-- The counts of ticks that the time limits of R116 to R119 are measured by. -/
def State.tickCounts (s : State) (h : Nat) (ok : Bool) : State :=
  let st := s.clr h
  let valid := s.angleValid (deckOfHead h)
  (s.updClr h fun c =>
    { c with
      okRun := if !ok then c.okRun else if s.isSet F.CLR_STATUS_FOCUS_OK h then min 64 (c.okRun + 1) else 0
      sinceShock := min 1000000 (c.sinceShock + 1)
      noAngle := if working st && !valid then min 400 (c.noAngle + 1) else 0
      hold := if st = hdHOLD then c.hold + 1 else c.hold
      fixWait := if s.waitsFix h then min 4000 (c.fixWait + 1) else 0 }).rpCount h

/-- A sequence grows older by a tick in which the Collier computed nothing. -/
def SeqStep.age (q : SeqStep) : SeqStep :=
  match q with
  | .capture k t f => .capture k (t + 1) f
  | .acqTrack t => .acqTrack (t + 1)
  | .kick a d n c t r rep => .kick a d n c (t + 1) r rep
  | .brake a d n c t r rep => .brake a d n c (t + 1) r rep
  | .settle a t r rep => .settle a (t + 1) r rep
  | .sledTrack a rep t => .sledTrack a rep (t + 1)
  | .hop a d t p k ok => .hop a d (t + 1) p k ok
  | .hopTrack t => .hopTrack (t + 1)
  | .recapture t => .recapture (t + 1)
  | q => q

/-! ### Open loops (R102) -/

/-- The running sequence, or HOLD, sets the drive of an open loop. -/
def seqDrives (q : Option SeqStep) (st i : Nat) : Bool :=
  match q with
  | some (.sweep _ _ _ _) => i == 0
  | some (.ramp _ _) => i == 0
  | some (.kick ..) => i == 1
  | some (.brake ..) => i == 1
  | some (.sledMove ..) => i == 1
  | some (.sledTrack ..) => i == 1
  | some (.hop ..) => i == 0 || i == 1
  | some (.hopTrack _) => i == 1
  | _ => st == hdHOLD && i == 1

/-- The drive of an open loop that nothing sets is a free value (R102).
DESIGN CHOICE, safe: log 23. -/
def State.openDrives (s : State) (h : Nat) : State :=
  s.forEach [0, 1, 2] fun t i =>
    if t.closed h i || seqDrives (t.cl h).seq (t.clr h) i then t
    else (t.driveLoop h i (sgn 24 (Config.openDrive h i t.free).toNat)).bump

/-- A head in HOLD with tracking open centres its lens (R117). -/
def State.holdLens (s : State) (h : Nat) : State :=
  if s.clr h == hdHOLD && !s.closed h 1 then s.centreLens h else s

/-! ### The write gate (R255 to R261) -/

/-- Calibration is required for head h and its layer (R270, R271). -/
def State.calRequired (s : State) (h : Nat) : Bool :=
  let w := (s.head h).write
  let l := s.getF F.CLR_POS_LAYER h
  s.isSet F.WRP_CTL_AUTO_CAL 0 && !w.calFull.contains l &&
  (match w.calTemp.find? fun p => p.1 = l with
   | none => true
   | some p => decide (16 * max 1 (s.getF F.WRP_CAL_CTL_DTEMP 0) < (((s.link h).temp : Int) - (p.2 : Int)).natAbs))

/-- The permit of the tick (R116). -/
def State.permits (s : State) (h : Nat) (ok : Bool) : Bool :=
  let c := s.cl h
  s.isSet F.CLR_CTL_WG_EN h && s.clr h == hdWRITE && s.isSet F.CLR_STATUS_TF h && s.isSet F.CLR_STATUS_TRK_VALID h &&
  !s.isSet F.CLR_POS_EST h && decide (64 ≤ c.wgGood) && decide (64 ≤ c.sinceShock) && s.angleValid (deckOfHead h) && ok

/-- What the head may record next: the lode slots of the band position, or a step of a calibration; with the slot's index. -/
inductive Target where
  | lode (l : SealedLode) (m : Nat)
  | step (j : Nat)

/-- Lodes that sparing excludes in this revolution: data lodes at or above a cut one (R257, R265). -/
def State.cutFrom (s : State) (v n : Nat) : Option Nat :=
  (((s.seam v n).lodes.filter fun l => l.cut && !l.cat).map (·.phys)).min?

/-- The slots of the present write revolution that are not recorded: slot index and what is recorded there (R257, R271). -/
def State.targets (s : State) (h : Nat) : List (Nat × Target) :=
  let v := deckOfHead h
  let w := (s.head h).write
  match w.cal with
  | some (.write _ slot) =>
    ((List.range (s.getF F.WRP_CAL_CTL_STEPS 0)).filter fun j => !w.calRecs.any fun r => r.slot = slot + j).map fun j =>
      (slot + j, .step j)
  | _ =>
    ((s.posSlots v w.seam w.bandPos w.finish).filter fun p =>
      p.1.cat || (match s.cutFrom v w.seam with | none => true | some c => decide (p.1.phys < c))).map fun p =>
        (p.2.2, .lode p.1 p.2.1)

/-- The angle of the first bit of slot j and the angle at which its drift ends. -/
def State.slotAngles (s : State) (h j : Nat) : Nat × Nat :=
  let side := h % 4 / 2
  let z := s.zoneOf h
  (bitAngle side z (slotStart j), bitAngle side z (slotStart j + driftBits))

/-- The PEAK, BIAS and COOL of step j of a calibration (R271). -/
def calPower (steps step j : Nat) (p : Nat × Nat × Nat) : Nat × Nat × Nat :=
  let num : Int := 512 + ((2 * j : Nat) - (steps : Int) + 1) * (step : Nat)
  let peak := (divRnd ((p.1 : Int) * num) 512).toNat
  let sc (z : Nat) : Nat := if p.1 = 0 then z else (divRnd ((z * peak : Nat) : Int) p.1).toNat
  (min 1023 peak, min 1023 (sc p.2.1), min 1023 (sc p.2.2))

/-- Where a slot's recording starts: pillar period and offset (R79). -/
def startOf (z j : Nat) : Nat × Nat := (slotStart j / periodBits z, slotStart j % periodBits z)

/-- Send the WRITE items of the slot being recorded that lie at most 16 ahead of the recording position (R79): those before item
`done + 16`, `done` counting the items recorded whole. -/
def State.sendWrites (s : State) (h : Nat) : State :=
  match (s.head h).write.sending with
  | none => s
  | some x =>
    let p := startOf x.zone x.slot
    let upTo := min 39 (x.done + 16)
    let s1 := s.forEach ((List.range upTo).drop x.sent) fun t i => t.forEach (List.range 4) fun u b =>
      u.sendItem h (12 + b) 0 (writeWords (zoneQ x.zone) p.1 p.2 (x.beams.getD b []) i)
    s1.updWrite h fun w => { w with sending := if upTo = 39 then none else some { x with sent := upTo } }

/-- Record the drifts of slot j: four WRITE sequences, one per beam (R79, R254, R271). -/
def State.writeSlot (s : State) (h j : Nat) (bits : Nat → List Bool) : State :=
  (s.updWrite h fun w => { w with sending := some { slot := j, zone := s.zoneOf h, beams := (List.range 4).map bits } }).sendWrites h

/-- The recording position moves on with the window of a tick (R79). -/
def State.writesPass (s : State) (h : Nat) (win : Nat × Nat) : State :=
  match (s.head h).write.sending with
  | none => s
  | some x =>
    let fin (i : Nat) : Nat := bitAngle (h % 4 / 2) x.zone (slotStart x.slot + 1024 * (i + 1))
    let n := (List.range 39).foldl (fun n i => if n = i ∧ x.done ≤ i ∧ inWindow win (fin i) then i + 1 else n) x.done
    (s.updWrite h fun w => { w with sending := some { x with done := n } }).sendWrites h

/-- Reserve the verify slot of a lode, when it has none; a lode that was refused one is not recorded in this write revolution (R226,
R256). -/
def State.verifySlot (s : State) (h : Nat) (l : SealedLode) : Option State :=
  let v := deckOfHead h
  let n := (s.head h).write.seam
  if l.slot.isSome then some s
  else if (s.head h).write.refused.contains l.x then none
  else
    match s.reserve v n l.x h 0 true false with
    | (_, none) => none
    | (t, some y) => some (t.updLode v n l.cat l.index fun m => { m with slot := some y })

/-- Begin the recording of a slot (R256, R259). -/
def State.beginSlot (s : State) (h j : Nat) (x : Target) : State :=
  let v := deckOfHead h
  let n := (s.head h).write.seam
  let fin := (s.slotAngles h j).2
  match x with
  | .step k =>
    (s.writeSlot h j fun b => driftChannel b 0).updWrite h fun w =>
      { w with any := true, recording := some { index := 0, cat := false, m := j, endAngle := fin, step := some k } }
  | .lode l m =>
    match s.verifySlot h l with
    | none => s.updWrite h fun w => { w with refused := insertNat l.x (w.refused.filter (· ≠ l.x)) }
    | some t =>
      let u := t.updLode v n l.cat l.index fun q =>
        { q with recorded := q.recorded ++ [m], unverified := q.unverified ++ [m], inRun := true }
      (u.writeSlot h j fun b => driftChannel (4 * m + b) (u.driftInfo v n l (4 * m + b))).updWrite h fun w =>
        { w with any := true, recording := some { index := l.index, cat := l.cat, m := m, endAngle := fin } }

/-- The head leaves WRITE or VERIFY by the containment freeze (R118, R261). -/
def State.freezeOut (s : State) (h : Nat) : State :=
  let x := s.head h
  let s1 := s.setHead h { x with op := none, write := {
    x.write with
    halted := true, edge := false, wg := false, wgNext := false, recording := none, cal := none } }
  (s1.setF F.WRP_HEAD_STATE h wsPREP).setClr h hdFOLLOW

/-- The end of the last bit of the slot being recorded passes. -/
def State.recordEnd (s : State) (h : Nat) (win : Nat × Nat) : State :=
  match (s.head h).write.recording with
  | none => s
  | some r =>
    if inWindow win r.endAngle then
      let s1 := s.updWrite h fun w =>
        { w with recording := none,
                 calRecs := match r.step with
                   | some _ => w.calRecs ++ [{ pos := w.bandPos, slot := r.m, beam := 4, blank := false, quality := 0 }]
                   | none => w.calRecs }
      if s1.frozen then s1.freezeOut h else s1
    else s

/-- The slot whose first bit passes in a window, if any.
DEDUCED, unsafe: log 24. -/
def State.slotIn (s : State) (h : Nat) (win : Nat × Nat) : Option (Nat × Target) :=
  (s.targets h).find? fun p => inWindow win (s.slotAngles h p.1).1

/-- WG of the next tick (R258).
DEDUCED, unsafe: log 24.
DEDUCED, unsafe: log 32. -/
def State.gateNext (s : State) (h : Nat) (permit : Bool) (next : Nat × Nat) : Bool :=
  let w := (s.head h).write
  let d := deckOfHead h
  permit && (w.cal.isSome || w.power.1) && s.deck d == dkREADY && s.isSet F.WND_STATUS_AT_SPEED d && s.linkUp h &&
  s.isSet F.WRP_CTL_EN 0 && (!s.frozen || w.recording.isSome) && (w.recording.isSome || (s.slotIn h next).isSome)

/-- The power code of the step that is recorded or comes next in a calibration (R271). -/
def State.stepPower (s : State) (h : Nat) (next : Nat × Nat) : State :=
  let w := (s.head h).write
  let j := match w.recording with
    | some r => r.step
    | none => match s.slotIn h next with
      | some (_, .step k) => some k
      | _ => none
  match w.cal, j with
  | some (.write _ _), some k =>
    let i := 384 * h + 24 * s.getF F.CLR_POS_LAYER h
    let p := calPower (s.getF F.WRP_CAL_CTL_STEPS 0) (s.getF F.WRP_CAL_CTL_STEP 0) k
      (s.getF F.WRP_POWER_PEAK i, s.getF F.WRP_POWER_BIAS i, s.getF F.WRP_POWER_COOL i)
    s.updWrite h fun w => { w with power := (true, s.getF F.WRP_POWER_WSTRAT i, p) }
  | _, _ => s

/-- The head is at the position of its write operation with TF set, and the cycle is not halted. -/
def State.writePlaced (s : State) (h : Nat) : Bool :=
  match (s.head h).op with
  | none => false
  | some o => o.kind == .write && s.clr h == hdFOLLOW && s.isSet F.CLR_STATUS_TF h && s.atTrack h o.track &&
      s.getF F.CLR_POS_LAYER h == o.layer && !s.frozen && !(s.head h).write.halted

/-- A write revolution begins at the next pillar leading edge: there the head, still in place, goes from FOLLOW to WRITE (R118, R256). -/
def State.edgeTick (s : State) (h : Nat) (win : Nat × Nat) : State :=
  let w := (s.head h).write
  if !w.edge || s.clr h != hdFOLLOW || !s.writePlaced h then s
  else if (List.range 256).any fun p => inWindow win (256 * p * 65536) then
    (s.updWrite h fun x => { x with edge := false, turned := 0 }).setClr h hdWRITE
  else s

/-- The write gate of a head in WRITE in a tick (R258 to R261). A drift whose last bit passes in the tick is recorded, and one whose
first bit does is begun, before a withdrawn permit closes the gate (R273).
DEDUCED, unsafe: log 115. -/
def State.gateTick (s : State) (h : Nat) (permit : Bool) (win : Nat × Nat) : State :=
  if s.clr h != hdWRITE then s
  else
    let was := (s.head h).write.wg
    let s1 := (s.writesPass h win).recordEnd h win
    if s1.clr h != hdWRITE then s1
    else
      let s2 := if was && (s1.head h).write.recording.isNone && !s1.frozen then
          match s1.slotIn h win with
          | some p => s1.beginSlot h p.1 p.2
          | none => s1
        else s1
      if was && !permit then (s2.gateClose h).updWrite h fun w => { w with turned := w.turned + win.2 }
      else
        let next := ((win.1 + win.2) % 2 ^ 32, s.dtheta (deckOfHead h))
        let g := s2.gateNext h permit next
        let s3 := if !g && (s2.head h).write.recording.isSome then s2.cutDrift h else s2
        (s3.stepPower h next).updWrite h fun w => { w with wgNext := g, turned := w.turned + win.2 }

/-- The head reads a position of the calibration area for free slots (R271). -/
def State.calReading (s : State) (h : Nat) : Bool :=
  s.clr h == hdFOLLOW && decide ((s.head h).write.cal = some .search) &&
  (match (s.head h).op with | some o => o.kind == .write && s.atTrack h o.track | none => false)

/-- The angle that a verify revolution, or the reading of a calibration position, has turned. -/
def State.verifyTick (s : State) (h : Nat) (win : Nat × Nat) : State :=
  if s.clr h == hdVERIFY || s.calReading h then s.updWrite h fun w => { w with turned := w.turned + win.2 } else s

/-! ### Reads that span two band positions (R227) -/

/-- The slots of a lode that lie at a band position, in order. -/
def slotsAt (n x p : Nat) : List Nat :=
  ((List.range 40).map fun m => lodeSlotAt n x m).filterMap fun q => if q.1 = p then some q.2 else none

/-- A read in FOLLOW at its position: its slots pass; when the last of them at this position has passed and others lie at the
next one, the head jumps there (R227). -/
def State.readTick (s : State) (h : Nat) (win : Nat × Nat) : State :=
  match (s.head h).op with
  | none => s
  | some o =>
    if o.kind != .read || s.clr h != hdFOLLOW || !s.atTrack h o.track then s
    else
      let p := trackPos o.track
      let sl := slotsAt o.seam o.x p
      let z := s.zoneOf h
      let side := h % 4 / 2
      let first := bitAngle side z (slotStart (sl.headD 0))
      let last := bitAngle side z (slotStart (sl.getLastD 0) + driftBits)
      let begun := o.begun || inWindow win first
      if begun && inWindow win last && (lodeSlotAt o.seam o.x 39).1 != p then
        (s.setHead h { s.head h with op := some { o with track := o.track + 4, begun := false } }).continueOp h
      else if begun != o.begun then s.setHead h { s.head h with op := some { o with begun := begun } }
      else s

/-! ### Overruns (R37 to R39) -/

/-- Overruns among the last 1,024 ticks. -/
def ovrRecent (tick : Nat) (l : List Nat) : List Nat := l.filter fun k => decide ((tick + 2 ^ 48 - k) % 2 ^ 48 < 1024)

/-- RECENT follows the window of the last 1,024 ticks. -/
def State.ovrWindow (s : State) (h : Nat) : State :=
  if (s.cl h).ovr.isEmpty then s
  else
    let l := ovrRecent s.tick (s.cl h).ovr
    (s.updClr h fun c => { c with ovr := l }).setF F.TCK_CLR_OVR_RECENT h l.length

/-- A Collier overrun of the present tick; where one tick brings both HOLD and SAFE, SAFE prevails (R20, R38, R39, R76, R116, R134,
R260). -/
def State.overrun (s : State) (h : Nat) : State :=
  if s.clr h = hdOFF || s.tck.repeated || (s.cl h).ovr.headD (s.tick + 1) = s.tick then s
  else
    let two := ((s.cl h).ovr.headD s.tick + 1) % 2 ^ 48 = s.tick
    let sixteen := 16 ≤ (ovrRecent s.tick (s.cl h).ovr).length + 1
    let l := s.tick :: ovrRecent s.tick (s.cl h).ovr
    let s1 := s.updClr h fun c => { c with ovr := l, rep := true, bad := true, loops := c.prevLoops }
    let s2 := ((s1.setF F.TCK_CLR_OVR_RECENT h l.length).count F.TCK_CLR_OVR_TOTAL h).raiseTckHead E.TCK_CLR_OVR h
    let s3 := (s2.setB F.CLR_STATUS_PERMIT h false).lrnFreezeNow h
    let s4 := if s3.clr h == hdWRITE && (s3.head h).write.wg then s3.gateClose h
      else s3.updWrite h fun w => { w with wgNext := false }
    let s5 := s4.onlyIf two fun t => t.raiseTckHead E.TCK_CLR_HOLD h
    if sixteen then (s5.raiseTckHead E.TCK_CLR_SAFE h).headFatal h else if two then s5.enterHold h true else s5

/-! ### The Collier's tick -/

/-- The SERVO slots of an item, S0.15 (R71). -/
def servoSlots (ws : List Nat) : List Int :=
  (List.range 16).map fun i => sgn 16 (bitsOf (ws.getD (i / 4) 0) (63 - 16 * (i % 4)) (48 - 16 * (i % 4)))

/-- What the learner is given of a loop (R131, R134). -/
def State.lrnIn (s : State) (h i : Nat) : LrnIn :=
  { e := vget (s.cl h).effort 0 i, closed := s.closed h i, clipped := vget (s.cl h).clipped false i }

/-- A tick in which the Collier computes (R100 to R123). -/
def State.collierGood (s : State) (h : Nat) (p : Popped) : State :=
  let slots := servoSlots p.words
  let x6 := slots.getD 6 0
  let dx := landsCrossed (s.cl h).lastX x6
  let s1 := (s.updClr h fun c =>
    { c with servo := slots, prevLoops := c.loops, bad := false, clipped := Vector.replicate 3 false }).advanceTrack h dx
  let s2 := ((s1.seqBefore h dx).holdLens h).runLoops h
  let s3 := (s2.focusOk h).onlyIf (s2.closed h 1) fun t => t.reportOt h
  let s4 := ((s3.trackFlag h).tickCounts h true).shock h
  let s5 := (s4.slipOrLoss h dx).lensFilter h
  let s6 := (s5.seqAfter h).openDrives h
  s6.updClr h fun c =>
    { c with lastFe := (slots.getD 0 0) * 256, lastMpp := (slots.getD 1 0) * 256, lastX := some x6 }

/-- A tick without samples: an overrun; a seek or jump loses its track (R37, R114). -/
def State.collierBad (s : State) (h : Nat) : State :=
  let s1 := (s.updClr h fun c =>
    { c with servo := [], prevLoops := c.loops, seq := c.seq.map SeqStep.age }).tickCounts h false
  let s2 := if s1.clr h == hdSEEK then s1.loseTrack h else s1
  s2.overrun h

/-- A head's Collier, learner, gate and read in a servo tick; `cyc` are the cycles the Collier took (R36, R41). -/
def State.headTick (s : State) (h cyc : Nat) : State :=
  let r := (s.takeStatus h).takeTick h 0 s.tick
  let s1 := r.1.ovrWindow h
  let s2 := if s1.clr h = hdOFF then (s1.updClr h fun c => { c with servo := [], bad := true }).rpCount h
    else
      match r.2 with
      | none => s1.collierBad h
      | some p => (s1.collierGood h p).keepMax F.TCK_CLR_MAXCYC_MAX h cyc
  let win := s2.window h
  let ok := !(s2.cl h).bad && decide (cyc ≤ 1080)
  let permit := s2.permits h ok
  let s3 := ((((s2.setB F.CLR_STATUS_PERMIT h permit).gateTick h permit win).edgeTick h win).verifyTick h win).readTick h win
  let sum := if (s2.cl h).bad then none else some ((s2.cl h).slot 4)
  let s4 := s3.lrnTick h (s3.lrnIn h 0) (s3.lrnIn h 1) sum (decide ((s2.cl h).sinceShock = 0)) (s2.cl h).bad
  let s5 := (s4.endWindow h win).forEach (chansOf h) fun t c => t.onlyIf (t.ch c == chWAIT) fun u => u.coast c
  if 1080 < cyc && r.2.isSome then s5.overrun h else s5

/-- The deck's work of a servo tick: the carrier peak, the observer, and the sample of a winding short. -/
def State.deckTick (s : State) (d : Nat) (short : Option (Nat × Nat)) : State :=
  (((s.onlyIf (s.tick % 10 == 5) fun t => t.carrierPeak d).observe d)).shortTick d short

/-- Ring discipline follows DISC_EN, which was `before` (R34): clearing it ends holdover and lock, setting it starts afresh. -/
def State.discFollow (s : State) (before : Bool) : State :=
  let on := s.isSet F.TCK_CTL_DISC_EN 0
  if on = before then s
  else
    let s1 : State := { s with tck := { s.tck with since := s.tick, inRun := 0, outRun := 0, slew := 0 } }
    if on then s1 else (s1.setB F.TCK_STATUS_HOLDOVER 0 false).setB F.TCK_STATUS_LOCK 0 false

/-- The present servo tick is a derived tick of period n, and no repeated one (R28, R33). -/
def State.onTick (s : State) (n : Nat) : Bool := s.tick % n == 0 && !s.tck.repeated

/-- The divider of a servo tick (R29, R31, R34). -/
def TckS.divider (t : TckS) (k : Nat) : Nat :=
  if k / 50 * 50 = t.slewFor ∧ 50 ≤ k % 50 + t.slew.natAbs then (if 0 < t.slew then 124 else 126) else 125

/-- The strobe of the servo tick that begins: its number and its length; whether it repeats a tick after a phase step (R27, R33). -/
def State.strobe (s : State) : State :=
  let k := (s.tick + 1) % 2 ^ 48
  { s with tick := k, tck := { s.tck with div := s.tck.divider k, repeats := s.tck.repeats - 1, repeated := decide (0 < s.tck.repeats) } }

/-- One servo tick: what is sent, the strobe, and every engine's work (R27, R35); a repeated tick has neither (R33). -/
def State.servoTick (s : State) (shorts : List (Option (Nat × Nat))) (cyc : List Nat) : State :=
  if 0 < s.tck.repeats then s.strobe
  else
  let s1 := (s.forEach (List.range 256) State.patternTick).forEach (List.range 32) fun t h => t.sendTick h
  let s2 := s1.strobe
  let s3 := s2.forEach (List.range 8) fun t d => t.deckTick d (shorts.getD d none)
  s3.forEach (List.range 32) fun t h => t.headTick h (cyc.getD h 0)

end Sys2Proof.Machine
end

