-- ==== Sys2Proof/Machine/ChnCmds.lean ====
section
/-!
DEFINITION. The meanings of the read channel rows (09), the inner decode of a drift among them (R223, R224).
-/
namespace Sys2Proof.Machine

/-! ### States (R215) -/

/-- Set EN: from OFF the channel waits; the rate is compared afresh (R192). -/
def State.chanEnable (s : State) (c : Nat) : State :=
  let s1 := s.setB F.CHN_CTL_EN c true
  if s.ch c = chOFF then
    ((s1.setF F.CHN_STATUS_STATE c chWAIT).updChan c fun x => { x with beyond := false }).rateCheck c
  else s1

/-- CHANNEL_ENABLE. -/
def execChannelEnable (c : Fin 128) (s : State) : Out := doneW s fun t => t.chanEnable c

/-- Clear EN. -/
def State.chanDisable (s : State) (c : Nat) : State := (s.setB F.CHN_CTL_EN c false).chanOff c

/-- CHANNEL_DISABLE. -/
def execChannelDisable (c : Fin 128) (s : State) : Out := doneW s fun t => t.chanDisable c

/-- CHANNEL_LOCK: the head is readable with angle-valid and the rate within R192. -/
def State.toLock (s : State) (c : Nat) : State :=
  if s.ch c ≠ chWAIT then s
  else
    let s1 := s.rateCheck c
    if s1.readable (headOfChan c) && s1.angleValid (deckOfChan c) && !(s1.chan c).beyond then s1.chanLock c else s1

/-- CHANNEL_LOCK. -/
def execChannelLock (c : Fin 128) (s : State) : Out := done s fun t => t.toLock c

/-- LOCK_TIMEOUT: 64 pillar periods in LOCK without RUN. -/
def execLockTimeout (c : Fin 128) (s : State) : Out :=
  done s fun t =>
    if t.ch c = chLOCK && decide (64 ≤ (t.chan c).periods) then (t.raiseChn E.CHN_WOB_UNLOCK c).seedLoop c else t

/-- ZONE_RELOAD: the zone values are reapplied at the next pillar (R194). -/
def execZoneReload (c : Fin 128) (s : State) : Out := doneW s fun t => t.updChan c fun x => { x with reload := true }

/-! ### Pillars (R191, R201 to R204, R215) -/

/-- The wobble loop at the end of a pillar period (R191); the bits of a period beyond UNLOCK_ERR are defect bits (R211). -/
def State.wobble (s : State) (c : Nat) : State :=
  let perr := (s.chan c).rx.perr
  let far := decide (s.getF F.CHN_WOB_UNLOCK_ERR c * 256 < perr)
  let farRun := if far then (s.chan c).farRun + 1 else 0
  let s1 := (s.setF F.CHN_WOB_STATUS_PERR c (min perr 65535)).updChan c fun x => { x with
    periods := x.periods + 1, farRun := farRun,
    rx := { x.rx with sumSq := 0, cnt := 0,
                      ranges := if far then (x.rx.before, x.rx.start - 1) :: x.rx.ranges.take 63 else x.rx.ranges } }
  if perr ≤ s.getF F.CHN_WOB_LOCK_ERR c * 256 then s1.setB F.CHN_STATUS_WOB_LOCK c true
  else if 2 ≤ farRun then s1.setB F.CHN_STATUS_WOB_LOCK c false
  else s1

/-- Report a CRC-correct address (R202). -/
def State.reportAddr (s : State) (c : Nat) (a : PillarAddr) (pass : Bool) : State :=
  (((((s.setB F.CHN_PILLAR_MATCH c pass).setF F.CHN_PILLAR_SIDE c a.side).setF F.CHN_PILLAR_LAYER c a.layer).setF
    F.CHN_PILLAR_BAND c a.band).setF F.CHN_PILLAR_TRACK c a.track).setF F.CHN_PILLAR_PILLAR c a.pillar

/-- The pillar count against a CRC-correct address (R202). -/
def State.pillarCount (s : State) (c : Nat) (a : PillarAddr) : State :=
  let s1 := s.updChan c fun x => { x with addr := some a.pillar }
  if a.pillar = s.getF F.CHN_WOB_STATUS_PILLAR c then s1.updChan c fun x => { x with differ := 0 }
  else if 1 ≤ (s.chan c).differ then
    ((s1.setF F.CHN_WOB_STATUS_PILLAR c a.pillar).raiseChn E.CHN_PCOUNT_FIX c).updChan c fun x => { x with differ := 0 }
  else s1.updChan c fun x => { x with differ := 1 }

/-- A pillar sync found o bits from the prediction corrects the loop's phase, and with it the place of the leading edge (R201, R203). -/
def State.syncPhase (s : State) (c : Nat) (o : Int) : State :=
  let d := o * (2 ^ 32 / s.chanQ c : Nat)
  s.updRx c fun x => { x with now := ((x.now : Int) - d).toNat,
                              edge := ((x.edge : Int) + if x.rate = 0 then 0 else divRnd (64 * d) x.rate).toNat }

/-- A pillar has passed beam b's channel: the sync search, the loop, the zone, the address; the answer is the CRC-correct address. -/
def State.beamPillar (s : State) (c : Nat) : State × Option PillarAddr :=
  let w := s.getF F.CHN_SYNC_CTL_PWIN c
  let bits := (s.chan c).rx.pillarBits w
  let hit := if (s.chan c).rx.flushed then none else searchWord pillarSync 32 (s.getF F.CHN_SYNC_CTL_PSYNC_TH c) w bits
  let s1 := s.wobble c
  let s2 := ((match hit with | some (_, o) => s1.syncPhase c o | none => s1).zoneAtPillar c).updChan c fun y =>
    { y with addr := y.addr.map fun p => (p + 1) % 256, rx := { y.rx with flushed := false } }
  match hit with
  | none =>
    ((((s2.count F.CHN_PILLAR_STATS_MISSED c).raiseChn E.CHN_PILLAR_MISS c).updChan c fun y =>
      { y with found := 0, missed := y.missed + 1 }), none)
  | some (_, o) =>
    let s3 := s2.updChan c fun y => { y with found := y.found + 1, missed := 0 }
    match pillarAddress ((bits.drop ((w : Int) + o + 32).toNat).take 51) with
    | none => (s3.count F.CHN_PILLAR_STATS_CRC_ERR c, none)
    | some a => ((s3.reportAddr c a (s.addrPasses (headOfChan c) a)).pillarCount c a, some a)

/-- Channel c changes state at a pillar (R215). -/
def State.pillarState (s : State) (c : Nat) : State :=
  let x := s.chan c
  if s.ch c = chLOCK then
    match x.addr with
    | some p =>
      if s.isSet F.CHN_STATUS_WOB_LOCK c && decide (2 ≤ x.found) then
        (s.setF F.CHN_STATUS_STATE c chRUN).setF F.CHN_WOB_STATUS_PILLAR c p
      else s
    | none => s
  else if s.ch c = chRUN then
    let lost := decide (2 ≤ x.farRun)
    let gone := decide (4 ≤ x.missed)
    if lost || gone then
      let s1 := s.truncate c
      let s2 := s1.onlyIf lost fun t => t.raiseChn E.CHN_WOB_UNLOCK c
      (s2.onlyIf gone fun t => t.raiseChn E.CHN_PILLAR_LOST c).chanLock c
    else s
  else s

/-- Compare beam b's address with the expected track (R204). -/
def State.compareBeam (s : State) (h b : Nat) (a : PillarAddr) : State :=
  let c := 4 * h + b
  if s.addrPasses h a then
    if a.layerTrack = s.getF F.CLR_POS_TRACK h + b then s.updChan c fun x => { x with mism := 0, fails := 0 }
    else (s.count F.CHN_PILLAR_STATS_MISMATCH c).updChan c fun x => { x with mism := x.mism + 1, fails := 0 }
  else (s.count F.CHN_PILLAR_STATS_MISMATCH c).updChan c fun x => { x with fails := x.fails + 1 }

/-- All beams are compared: POS_ERR sets, or a match on beam 0 clears it (R204, R216). -/
def State.comparePos (s : State) (h : Nat) (l : List (Nat × PillarAddr)) : State :=
  if !s.isSet F.CLR_STATUS_TRK_VALID h || s.isSet F.CLR_POS_EST h then s
  else
    let s1 := s.forEach l fun t p => t.compareBeam h p.1 p.2
    let bad := (chansOf h).any fun c => decide (2 ≤ (s1.chan c).mism ∨ 4 ≤ (s1.chan c).fails)
    let zero := l.any fun p => p.1 == 0 && s.addrPasses h p.2 && p.2.layerTrack == s.getF F.CLR_POS_TRACK h
    if zero then s1.clearPosErr h
    else if bad && !s1.isSet F.CHN_STATUS_POS_ERR (4 * h) then
      s1.forEach (chansOf h) fun t c => (t.setB F.CHN_STATUS_POS_ERR c true).raiseChn E.CHN_POS_MISMATCH c
    else s1

/-- The position fix that a pillar gives: the first passing address while TRK_VALID is clear, beam 0's while POS_ERR is set
(R114). -/
def State.pillarFix (s : State) (h : Nat) (posErr : Bool) (l : List (Nat × PillarAddr)) : State :=
  let pass := l.filter fun p => s.addrPasses h p.2
  if !s.isSet F.CLR_STATUS_TRK_VALID h then
    match pass.head? with
    | some p => s.positionFix h (p.2.layerTrack - p.1)
    | none => s
  else if posErr then
    match pass.find? fun p => p.1 = 0 with
    | some p => s.positionFix h p.2.layerTrack
    | none => s
  else s

/-- The pillar report: the lowest-numbered beam whose address passed, with the leading edge at its channel (R203). -/
def State.pillarTold (s : State) (h k : Nat) (l : List (Nat × PillarAddr)) : State :=
  match l.find? fun p => s.addrPasses h p.2 with
  | some p => s.updWnd (deckOfHead h) fun w =>
      { w with reports := w.reports ++ [{ head := h, side := p.2.side, pillar := p.2.pillar, tick := k,
                                          cycle := 10 * (s.chan (4 * h + p.1)).rx.edge / 576 }] }
  | none => s

/-- A pillar has passed head h; a zone beyond the limit of R192 sends its channels to WAIT. -/
def State.pillar (s : State) (h k : Nat) : State :=
  let posErr := s.isSet F.CHN_STATUS_POS_ERR (4 * h)
  let live := (List.range 4).filter fun b => s.chanLive (4 * h + b)
  let r := live.foldl (fun (p : State × List (Nat × PillarAddr)) b =>
    let q := p.1.beamPillar (4 * h + b)
    (q.1, match q.2 with | some a => p.2 ++ [(b, a)] | none => p.2)) (s, [])
  let s1 := r.1.pillarTold h k r.2
  let s2 := ((s1.comparePos h r.2).pillarFix h posErr r.2).chanFollow h
  s2.forEach live fun t b => t.pillarState (4 * h + b)

/-- PILLAR_DETECT: a pillar has passed head h; `k` is the servo tick of its leading edge.
DESIGN CHOICE, safe: log 106. -/
def execPillarDetect (h : Fin 32) (k : BitVec 16) (s : State) : Out := done s fun t => t.pillar h k.toNat

/-! ### Delivery (R210, R225) -/

/-- The slot of the Assayer pool that a record matches. -/
def State.matches (s : State) (r : DriftRec) : Option Nat := s.slotOf r.vol r.seam r.x

/-- A record goes to the pool: claimed, or counted; the answer says that its decode is of use (R225). -/
def State.toPool (s : State) (r : DriftRec) (lam : List Int) : State × Option Nat :=
  match s.matches r with
  | none => (s.count F.ASY_UNCLAIMED_COUNT 0, none)
  | some y =>
    if s.isSet F.ASY_SLOT_ID_VERIFY y && !s.verifyTakes y r.drift then (s, none)
    else
      let t := s.claimDrift y r lam
      (t, if (s.slot y).got.length < (t.slot y).got.length then some y else none)

/-- A record of the calibration area goes to the write path, which takes it during a calibration (R225, R271).
DEDUCED, unsafe: log 34. -/
def State.toCal (s : State) (c slot : Nat) (r : DriftRec) (llr : List Int) : State :=
  let h := headOfChan c
  let p := trackPos (s.getF F.CLR_POS_TRACK h)
  s.onlyIf (s.head h).write.cal.isSome fun t => t.updWrite h fun w => { w with calRecs := w.calRecs ++ [{
    pos := p, slot := slot, beam := c % 4, blank := r.blank,
    quality := if r.inferred || r.truncated || r.blank then 0xFFFF else r.quality, llr := llr }] }

/-! ### Framing (R206 to R208) -/

/-- Frame a drift from a data-stream position; the envelope average takes the bits of it that have been detected (R207, R212). -/
def State.frameDrift (s : State) (c j : Nat) (start : Int) (r : DriftRec) : State :=
  let s1 := s.updChan c fun y => { y with drift := some { record := r, slot := j, start := start } }
  s1.forEach (softAt (s.chan c).rx.soft start driftBits) fun t b => t.envAverage c b

/-- Slot j has come with the conditions met: blank test and sync search on what the channel has detected of it. -/
def State.driftSlot (s : State) (c j : Nat) : State :=
  if !s.framing c || (s.chan c).drift.isSome || decide (zoneD (s.getF F.CHN_STATUS_ZONE c) ≤ j) then s
  else
    match s.identity c j, (s.chan c).rx.slotIn j with
    | some r, some x =>
      if s.isSet F.CHN_CTL_BLANK_EN c && decide (x.env < s.getF F.CHN_DEF_CTL2_BLANK_TH c) then
        let b := { r with blank := true }
        let s1 := (s.count F.CHN_DEF_STATS_BLANKS c).count F.CHN_DRIFTS_DELIVERED c
        if r.cal then s1.toCal c j b [] else (s1.toPool b []).1
      else
        let th := s.getF F.CHN_SYNC_CTL_SYNC_TH c
        match searchWord driftSync 64 th 24 x.bits with
        | some (n, o) =>
          let s1 := (((s.count F.CHN_SYNC_STATS_FOUND c).setF F.CHN_SYNC_LAST_SCORE c n).setF F.CHN_SYNC_LAST_OFFSET c (unsgn 8 o)).setF
            F.CHN_SYNC_LAST_CANDS c (candidates driftSync 64 th 24 x.bits)
          s1.frameDrift c j (slotStart j + o) { r with score := n, syncOfs := o }
        | none =>
          let s1 := ((s.count F.CHN_SYNC_STATS_MISSED c).count F.CHN_DRIFTS_INFERRED c).raiseChn E.CHN_SYNC_MISS c
          s1.frameDrift c j (slotStart j) { r with inferred := true }
    | _, _ => s

/-- DRIFT_SLOT.
DESIGN CHOICE, safe: log 106. -/
def execDriftSlot (c : Fin 128) (slot : Nat) (s : State) : Out := done s fun t => t.driftSlot c slot

/-! ### Defects (R211 to R214) -/

/-- DEFECT: an RF envelope dropout begins (R213).
DESIGN CHOICE, safe: log 106. -/
def execDefect (c : Fin 128) (s : State) : Out := done s fun t => t.dropBegin c

/-- Coded bit x is affected by defect bits (R214). -/
def affected (l : List (Nat × Nat)) (x : Nat) : Bool :=
  let q := x / 16
  let j := x % 16
  inRanges l (449 + 17 * q + j) || ((0x5555 : Nat).testBit (15 - j) && inRanges l (448 + 17 * q))

/-- The LLR of a channel bit (R198). -/
def channelLlr (scale : Nat) (z : Int) : Int := clampI (-15) 15 (rnd 24 (z * scale))

/-- Halve, towards zero. -/
def halve (z : Int) : Int := if z < 0 then -((z.natAbs / 2 : Nat) : Int) else (z.natAbs / 2 : Nat)

/-- The channel-bit LLRs of drift bits 448 to 39,615: 0 beyond a truncation, and in the first 64 codewords of an inferred sync
(R198, R208, R209). -/
def State.driftLam (s : State) (c : Nat) (r : DriftRec) (x : DriftIn) : List Int :=
  (List.range 39168).map fun k =>
    if (r.inferred && decide (k < 1088)) || (r.truncated && decide (x.detected ≤ 448 + k)) then 0
    else channelLlr (s.getF F.CHN_DET_CTL_LLR_SCALE c) (x.soft.getD k 0)

/-- The coded LLRs as delivered to the inner decoder (R199, R208, R214). -/
def State.driftLlr (s : State) (c : Nat) (r : DriftRec) (bad : List (Nat × Nat)) (lam : List Int) : List Int :=
  (demodulate r.drift lam).mapIdx fun k z =>
    if r.inferred && decide (k < 1024) then 0
    else if affected bad k then (if s.isSet F.CHN_CTL_DEF_MODE c then halve z else 0) else z

/-! ### The end of a drift (R210) and its inner decode (R223, R224) -/

/-- The decode at the front begins with the settings of this moment (R248). -/
def startInner (k : LdpcCtl) : List InnerJob → List InnerJob
  | [] => []
  | j :: js => (if j.ctl.isNone then { j with ctl := some k } else j) :: js

/-- The inner decode of channel c's oldest drift ends. -/
def State.innerDone (s : State) (c : Nat) : State :=
  match (s.chan c).inner with
  | [] => s
  | j :: rest =>
    let s1 := s.updChan c fun y => { y with inner := startInner s.innerCtl rest }
    let x := s1.slot j.slot
    if x.gen = j.gen ∧ x.readNo = j.readNo ∧ s1.slotUsed j.slot then s1.judgeInner j.slot j.record (ldpcDecode (j.ctl.getD s.innerCtl) j.llr)
    else s1

/-- INNER_DECODE_DONE. -/
def execInnerDecodeDone (c : Fin 128) (s : State) : Out := done s fun t => t.innerDone c

/-- The last bit of the drift that channel c frames has left it. A decoder that holds two drifts has finished the older. -/
def State.driftEnd (s : State) (c : Nat) : State :=
  match (s.chan c).drift with
  | none => s
  | some d =>
    let x := d.data.getD (s.driftIn c d.start)
    let bad := x.defects ++ (if d.record.truncated then [(x.detected, driftBits - 1)] else [])
    let n := ((List.range 36864).filter (affected bad)).length
    let r := { d.record with
      defects := n, quality := min x.mse 65535,
      hint := d.record.truncated || decide (max 1 (s.getF F.CHN_ERA_CTL_ERA_TH c) ≤ n) }
    let s1 := s.updChan c fun y => { y with drift := none }
    let s2 := (s1.setF F.CHN_MSE_MSE c (min x.mse 65535)).count F.CHN_DRIFTS_DELIVERED c
    let lam := s.driftLam c r x
    if r.cal then s2.toCal c d.slot r (s.driftLlr c r bad lam)
    else
      match s2.toPool r lam with
      | (t, none) => t
      | (t, some y) =>
        let t1 := if 2 ≤ (t.chan c).inner.length then t.innerDone c else t
        let job : InnerJob := {
          slot := y, gen := (t.slot y).gen, readNo := (t.slot y).readNo, record := r, llr := s.driftLlr c r bad lam }
        t1.updChan c fun z => { z with inner := startInner s.innerCtl (z.inner ++ [job]) }

/-- DRIFT_DELIVERED.
DESIGN CHOICE, safe: log 106. -/
def execDriftDelivered (c : Fin 128) (s : State) : Out := done s fun t => t.driftEnd c

end Sys2Proof.Machine
end

