-- ==== Sys2Proof/Machine/AsyCmds.lean ====
section
/-!
DEFINITION. The meanings of the decoding rows (10): lode slots and ends, jobs, the deadline miss (R38), the tailings store.
-/
namespace Sys2Proof.Machine

/-! ### Lode slots (R226, R227) -/

/-- SLOT_RESERVE: the first waiting read that can have a slot has it and is issued. -/
def execSlotReserve (s : State) : Out := done s fun t => (issueFirst t [] t.asy.waiting).1

/-- The lode end of a verify slot may come by passing: the lode is complete and has no slot left to verify. -/
def State.verifyPassed (s : State) (y : Nat) : Bool :=
  match s.lodeOfSlot (s.getF F.ASY_SLOT_ID_V y) (s.getF F.ASY_SLOT_ID_N y) y with
  | some l => l.complete && l.unverified.isEmpty
  | none => false

/-- The lode end of slot y: all drifts are delivered, or the head has passed the lode's first and last slots (R227). -/
def State.lodePass (s : State) (y : Nat) (passed : Bool) : State :=
  let all := decide ((s.slot y).got.length = 160)
  if s.isSet F.ASY_SLOT_ID_VERIFY y then (if all || (passed && s.verifyPassed y) then s.lodeEnd y else s)
  else
    match s.readerOf y with
    | none => s
    | some h =>
      let begun := match (s.head h).op with | some o => o.begun | none => false
      if all || (passed && begun) then (s.lodeEnd y).endOp h else s

/-- LODE_END: `passed` says that the head has passed the lode's last stream slot. -/
def execLodeEnd (y : Fin 96) (passed : Bool) (s : State) : Out := done s fun t => if t.slotReading y then t.lodePass y passed else t

/-! ### Jobs (R38, R239, R241) -/

/-- Drifts of slot y's read are still in their inner decode. -/
def State.innerPending (s : State) (y : Nat) : Bool :=
  s.chans.toList.any fun c => c.inner.any fun j => j.slot == y && j.gen == (s.slot y).gen && j.readNo == (s.slot y).readNo

/-- JOB_START: an idle Assayer takes the job that is due. -/
def execJobStart (a : Fin 8) (s : State) : Out :=
  done s fun t =>
    if t.isSet F.ASY_ENG_STATUS_BUSY a then t
    else match t.nextJob with
      | some y => if t.innerPending y then t else t.startJob a y
      | none => t

/-- Slot y's job runs on Assayer a. -/
def State.runs (s : State) (a y : Nat) : Bool :=
  s.isSet F.ASY_ENG_STATUS_BUSY a && s.getF F.ASY_ENG_STATUS_SLOT a == y && vget s.asy.engGen 0 a == (s.slot y).gen

/-- The pass of slot y misses its deadline: it is not counted as a read; the fourth miss makes the lode failed, and so does a miss
of a verify slot, which has no further read (R38, R241, R263). -/
def State.asyMiss (s : State) (y : Nat) : State :=
  let s1 := ((s.count F.TCK_ASY_MISS_COUNT 0).raise E.TCK_ASY_MISS 0).count F.ASY_SLOT_MISSES y
  let s2 := s1.forEach (List.range 8) fun t a => if t.runs a y then t.idleEngine a else t
  let s3 := s2.setF F.ASY_SLOT_READS y (s2.getF F.ASY_SLOT_READS y - 1)
  s3.lodeOutcome y (if s.isSet F.ASY_SLOT_ID_VERIFY y || decide (4 ≤ s3.getF F.ASY_SLOT_MISSES y) then .failed else .needsReread) []

/-- A job of slot y is queued or running and its deadline has passed. -/
def State.passDue (s : State) (y : Nat) : Bool :=
  (s.getF F.ASY_SLOT_STATE y == 2 || s.getF F.ASY_SLOT_STATE y == 3) && decide ((s.slot y).deadline ≤ s.tick)

/-- ASY_MISS of slot y. -/
def execAsyMiss (y : Fin 96) (s : State) : Out := doneQ s fun t => if t.passDue y then t.asyMiss y else t

/-- What becomes of slot y when its rung has ended. -/
def State.rungEnds (s : State) (y : Nat) (r : RungRes) (ecc : List Nat) : State :=
  let s1 := s.putRung y r
  if r.fate = .ok then
    s1.lodeOutcome y (if (s.slot y).rung = 0 ∧ (s.slot y).readNo = 0 ∧ r.untouched then .clean else .corrected) ecc
  else
    match s1.nextRung y with
    | some k => (s1.setSlot y { s1.slot y with rung := k }).setF F.ASY_SLOT_STATE y 2
    | none => s1.lodeOutcome y (s1.failedOutcome y) ecc

/-- The lines of slot y's lode buffer and entries that its job finds uncorrectable in DRAM are reported (R238, R247, R334). -/
def State.jobLines (s : State) (y : Nat) : State :=
  let t := s.reportLines srcAssayer ((s.bufBad y).map (·.2))
  if (s.slot y).rung = 0 then t else t.reportLines srcPrecis ((s.tailBad y).map (·.2))

/-- The job of Assayer a ends; `buf` are the drifts with a buffer line that could not be read, `entry` the tailings entries (read,
drift) that could not, `out` the drifts whose lines cannot be read at delivery, beside those whose lines in DRAM are uncorrectable
(R238, R247, R287). -/
def State.jobDone (s : State) (a : Nat) (buf : List Nat) (entry : List (Nat × Nat)) (out : List Nat) : State :=
  let y := s.getF F.ASY_ENG_STATUS_SLOT a
  if !s.isSet F.ASY_ENG_STATUS_BUSY a then s
  else if vget s.asy.engGen 0 a ≠ (s.slot y).gen then s.idleEngine a
  else if (s.slot y).deadline < s.tick then s.asyMiss y
  else
    let bad := buf ++ (s.bufBad y).map (·.1)
    let ecc := if (s.slot y).rung = 0 then entry else entry ++ (s.tailBad y).map (·.1)
    let s1 := (((s.idleEngine a).jobLines y).badEntries y ecc).onlyIf (!bad.isEmpty) fun t => t.raise E.ASY_BUF_ECC 0
    s1.rungEnds y (s.rungResult y (vget s.asy.engCtl {} a) bad ecc) out

/-- JOB_DONE. -/
def execJobDone (a : Fin 8) (buf : List Nat) (entry : List (Nat × Nat)) (out : List Nat) (s : State) : Out :=
  doneQ s fun t => t.jobDone a buf entry out

/-! ### The tailings store (R234, R238, R249) -/

/-- ENTRY_LINK: the oldest staged entry of channel c is complete. -/
def execEntryLink (c : Fin 128) (s : State) : Out := done s fun t => t.linkEntry c

/-- PRC_FLUSH: a mask of heads. -/
def execPrcFlush (heads : BitVec 32) (s : State) : Out := doneW s fun t => t.flushStaging fun c => heads.toNat.testBit (headOfChan c)

/-- Write PRC_CTL.EN; clearing it releases every entry and clears every RETAIN. -/
def State.prcEnable (s : State) (b : Bool) : State :=
  let s1 := s.setB F.PRC_CTL_EN 0 b
  if b || !s.isSet F.PRC_CTL_EN 0 then s1
  else
    let s2 := s1.forEach (List.range 96) fun t y =>
      (t.setSlot y { t.slot y with entries := [], retained := [] }).setB F.ASY_SLOT_ID_RETAIN y false
    ({ s2 with asy := { s2.asy with used := [], staging := [] } }).marks

/-- PRC_DISABLE. -/
def execPrcDisable (s : State) : Out := doneW s fun t => t.prcEnable false

end Sys2Proof.Machine
end

