-- ==== Sys2Proof/Machine/Contain.lean ====
section
/-!
DEFINITION. Containment (R294 to R296): its entry, the freeze of media work, the release, and the action of a device-fatal event
(R19). The same freeze holds the heads during a verify-only load (R410).
-/
namespace Sys2Proof.Machine

/-- A head finishes to a safe point: VERIFY is left at once, WRITE at the end of the drift being recorded, a read or other
operation in FOLLOW ends (R295). -/
def State.freezeHead (s : State) (h : Nat) : State :=
  if s.clr h == hdVERIFY || ((s.head h).write.edge && s.clr h == hdFOLLOW) then s.freezeOut h
  else if s.clr h == hdWRITE then (if (s.head h).write.recording.isNone then s.freezeOut h else s)
  else s.restContained h

/-- Media work freezes; staging buffers are flushed (R238, R295). -/
def State.freezeMedia (s : State) : State :=
  (s.flushStaging fun _ => true).forEach (List.range 32) fun t h => t.freezeHead h

/-- Media work resumes (R296). -/
def State.thawMedia (s : State) : State :=
  (s.forEach (List.range 32) fun t h => t.updWrite h fun w => { w with halted := false }).issueWaiting

/-- The shift states of R381. -/
def shNONE : Nat := 0
def shARMED : Nat := 1
def shCOMMITTED : Nat := 2
def shHOLDING : Nat := 3
def shAPPLIED : Nat := 4
def shSTAYED : Nat := 5

/-- The state of the shift. -/
def State.shift (s : State) : Nat := s.getF F.CFG_SHIFT_STATUS_STATE 0

/-- The standby plane is discarded, the hold is released, staging returns to READY (R378, R381, R402).
DEDUCED, unsafe: log 45. -/
def State.dropStandby (s : State) (new : Nat) : State :=
  let s1 : State := { s with cfg := { s.cfg with standby := none } }
  (((s1.setF F.CFG_SHIFT_STATUS_STATE 0 new).setF F.CFG_STAGE_STATUS_STATE 0 4).setB F.HQI_CSTS_HELD 0 false)

/-- The unit stays on its old epoch (R381). -/
def State.shiftStays (s : State) : State := (s.dropStandby shSTAYED).raise E.CFG_SHIFT_STAYED 0

/-- A cause of containment (R294): entry, or one more cause. A shift that is committed is given up (R381). -/
def State.contain (s : State) (cause : Field) : State :=
  let s1 := s.setB cause 0 true
  if s.contained then s1
  else
    let s2 := ((s1.setF F.HIF_CONTAIN_STATE 0 1).setF F.HIF_CONTAIN_INFLIGHT 0 s.hqi.cmds.length).raise E.HIF_CONTAINED 0
    let s3 : State := { s2 with
      hif := { s2.hif with reqs := (s2.hif.reqs.filter (·.sent)).map fun r => { r with drop := true } } }
    s3.freezeMedia.onlyIf (s.shift == shCOMMITTED || s.shift == shHOLDING) fun t => t.shiftStays

/-- A function reports an internal error through AER, with the severity its register gives (R294). -/
def State.reportInternal (s : State) (fn : Nat) : State :=
  (s.aer fn .internalError).onlyIf (s.isSet F.HIF_LINK_DL_ACTIVE 0) fun t => t.emit (.errMessage fn (s.pf fn).internalFatal)

/-- A device-fatal event of a block: it is reported through AER and enters containment (R19, R294). -/
def State.deviceFatal (s : State) (e : Event) : State :=
  (((s.raise e 0).reportInternal 0).reportInternal 1).contain F.HIF_CONTAIN_CAUSE_INTERNAL

/-- Every write gate is closed and no head is in WRITE or VERIFY (R295). -/
def State.allQuiet (s : State) : Bool :=
  (List.range 32).all fun h => s.clr h != hdWRITE && s.clr h != hdVERIFY && !(s.head h).write.wg

/-- FREEZING becomes FROZEN. -/
def State.toFrozen (s : State) : State :=
  if s.getF F.HIF_CONTAIN_STATE 0 = 1 ∧ s.allQuiet then s.setF F.HIF_CONTAIN_STATE 0 2 else s

/-- A device-fatal event bit of a block stands that was not forced (R296). -/
def State.fatalStanding (s : State) : Bool :=
  allEvents.any fun e => e.sev = .deviceFatal && e.reg != evtHif && s.isSet e.fld 0 && !(s.getF e.reg.forced 0).testBit e.bit

/-- Containment ends: STATE and CAUSE clear. -/
def State.endContain (s : State) : State :=
  (((s.setF F.HIF_CONTAIN_STATE 0 0).setB F.HIF_CONTAIN_CAUSE_FORCED 0 false).setB F.HIF_CONTAIN_CAUSE_LINK 0 false).setB
    F.HIF_CONTAIN_CAUSE_INTERNAL 0 false

/-- A command completes with CONTAINED, whatever it had reached (R296). -/
def Cmd.contained (c : Cmd) : Cmd :=
  { c with stage := .done, sct := stContained.1, sc := stContained.2, result := 0, waiting := false, lodes := [], low := none }

/-- Data of writes that had not arrived does not arrive any more: the drifts are padding. -/
def State.padWaiting (s : State) : State :=
  let pad (f : DriftFill) : DriftFill := match f with | .waiting _ _ => .pad | g => g
  s.forEach (List.range 8) fun t v => t.forEach (List.range 64) fun u n =>
    let x := u.seam v n
    if x.lodes.isEmpty && x.openLode.isNone then u
    else u.updSeam v n fun y => { y with
      openLode := y.openLode.map fun o => { o with drifts := o.drifts.map pad }
      lodes := y.lodes.map fun l => { l with user := l.user.map pad } }

/-- Mounts, releases and tests that a contained command had begun are given up. -/
def State.dropSteps (s : State) : State :=
  let s1 := s.forEach (List.range 8) fun t v =>
    t.setVol v { t.vol v with mount := none, release := none, releaseStopped := false }
  { s1 with hqi := { s1.hqi with tests := s1.hqi.tests.map fun t => { t with running := none, left := [], now := none } } }

/-- Every command fetched before entry completes with CONTAINED.
DEDUCED, unsafe: log 44. -/
def State.completeContained (s : State) : State := (s.setCmds (s.hqi.cmds.map Cmd.contained)).padWaiting.dropSteps

/-- HIF_CONTAIN.RELEASE (R296): refused unless FROZEN with the link up. A device-fatal bit that stands re-enters. -/
def State.release (s : State) : State :=
  if s.getF F.HIF_CONTAIN_STATE 0 ≠ 2 ∨ ¬ s.isSet F.HIF_LINK_DL_ACTIVE 0 then s.raise E.HIF_CFG_REJECT 0
  else
    let s1 := (s.completeContained.endContain.raise E.HIF_RELEASED 0).thawMedia
    let s2 := ((s1.flushPba 0).deliverHeld).ltrUpdate
    if s2.fatalStanding then s2.contain F.HIF_CONTAIN_CAUSE_INTERNAL else s2

end Sys2Proof.Machine
end

