-- ==== Sys2Proof/Machine/Cal.lean ====
section
/-!
DEFINITION. Trim calibration as its rows and the image load share it (R419 to R422).
-/
namespace Sys2Proof.Machine

/-- The regions whose trims are calibrated (R419). -/
def trimmed (i : Nat) : Bool := decide (i ≤ 8) || i == 15

/-- The units of a region: lanes 0 to 31 and converters 32 to 40 of a deck, the ring transmitter, the reference (R421). -/
def calUnits (i : Nat) : List Nat := if i < 8 then List.range 41 else [0]

/-- A region beside its registers. -/
def State.region (s : State) (i : Nat) : RegionS := vget s.cal.regions {} i

/-- Write a region. -/
def State.setRegion (s : State) (i : Nat) (x : RegionS) : State := { s with cal := { s.cal with regions := vset s.cal.regions i x } }

/-- The last reading of a sensor, 1/8 degrees C. -/
def State.temp (s : State) (i : Nat) : Int := sgn 12 (s.getF F.CAL_TEMP_TEMP i)

/-- A region becomes pending (R421). -/
def State.calPend (s : State) (i : Nat) : State :=
  if !s.isSet F.CAL_CTL_EN 0 || !trimmed i || s.bitF F.CAL_STATUS_PEND 0 i then s
  else (s.putF F.CAL_STATUS_PEND 0 i true).setRegion i { start := s.temp i, left := (calUnits i).map fun u => (u, 0) }

/-- Every trimmed region becomes pending. -/
def State.calPendAll (s : State) : State := s.forEach (List.range 16) fun t i => t.calPend i

end Sys2Proof.Machine
end

