-- ==== Sys2Proof/Machine/CalCmds.lean ====
section
/-!
DEFINITION. The meanings of the calibration rows (17): FORCE, the region of an invalid sensor, the calibration of one unit.
-/
namespace Sys2Proof.Machine

/-- CAL_FORCE: CAL_CTL.FORCE is written. -/
def execCalForce (s : State) : Out := doneW s fun t => t.calPendAll

/-- CAL_PERIODIC: 60 s have passed; the regions of invalid sensors become pending. -/
def execCalPeriodic (s : State) : Out :=
  done s fun t => t.forEach ((List.range 16).filter fun i => !t.isSet F.CAL_TEMP_VALID i) fun u i => u.calPend i

/-- The trims of a unit. -/
def State.trim (s : State) (i u : Nat) : TrimS := vget s.cal.trims {} (41 * i + u)

/-- The spare converter of a deck. -/
def State.spareConv (s : State) (d : Nat) : Nat := vget s.cal.spare 8 d

/-- An upstream lane of a deck, by its number in the deck. -/
def isUpLane (i u : Nat) : Bool := decide (i < 8 ∧ u < 32 ∧ u % 8 < 6)

/-- A converter of a deck. -/
def isConv (i u : Nat) : Bool := decide (i < 8 ∧ 32 ≤ u)

/-- The unit has its opportunity (R421). -/
def State.calMay (s : State) (i u : Nat) : Bool :=
  if isUpLane i u then s.getF F.LNK_LANE_STATUS_ROLE (32 * i + u) == 1 || s.getF F.LNK_LANE_STATUS_ROLE (32 * i + u) == 2
  else if isConv i u then u - 32 == s.spareConv i
  else true

/-- The trims that a calibration gives: transmitters move by at most one code in a run. -/
def newTrim (i u : Nat) (old : TrimS) (x : CalIn) : TrimS :=
  if isUpLane i u || isConv i u then { ofs := x.ofs, code := x.code }
  else if i = 15 then { old with code := x.code }
  else { old with code := old.code + sgnI (x.code - old.code) }

/-- The result is plausible (R421). -/
def State.plausible (s : State) (i u : Nat) (old : TrimS) (x : CalIn) : Bool :=
  if isUpLane i u then
    decide ((x.ofs - old.ofs).natAbs ≤ s.getF F.CAL_PLAUS_OFS_STEP 0 ∧ (x.code - old.code).natAbs ≤ s.getF F.CAL_PLAUS_EQ_STEP 0 ∧
      s.getF F.CAL_PLAUS_EYE_MIN 0 ≤ x.eye)
  else if isConv i u then decide (x.diff.natAbs ≤ s.getF F.CAL_PLAUS_XCHK 0)
  else x.inRange

/-- A run completes. -/
def State.calRunDone (s : State) (i : Nat) : State :=
  (((s.putF F.CAL_STATUS_PEND 0 i false).setF F.CAL_RUN_LAST_TEMP i (unsgn 12 (s.region i).start)).count F.CAL_RUN_RUNS i).raise
    E.CAL_CAL_DONE 0

/-- The spare converter of deck d takes over the input whose turn it is; the converter it replaces is the spare (R162, R421). -/
def CalS.rotate (c : CalS) (d : Nat) : CalS :=
  let j := 8 * d + vget c.turn 0 d
  { c with
    spare := vset c.spare d (vget c.conv 0 j), conv := vset c.conv j (vget c.spare 8 d)
    turn := vset c.turn d ((vget c.turn 0 d + 1) % 8) }

/-- A unit is accepted: its trims are written; a converter takes over its input. -/
def State.calAccept (s : State) (i u : Nat) (x : CalIn) : State :=
  let c := s.cal
  let s1 : State := { s with cal := { c with trims := vset c.trims (41 * i + u) (newTrim i u (s.trim i u) x) } }
  let s2 : State := if isConv i u then { s1 with cal := s1.cal.rotate i } else s1
  s2.setRegion i { s2.region i with left := (s2.region i).left.filter fun p => p.1 ≠ u }

/-- A unit is rejected: it keeps its trims; a second rejection ends its part of the run (R421, R422). -/
def State.calRejected (s : State) (i u n : Nat) : State :=
  let l := (s.region i).left
  let s1 := s.setRegion i { s.region i with
    left := if 1 ≤ n then l.filter fun p => p.1 ≠ u else l.map fun p => if p.1 = u then (u, n + 1) else p }
  (s1.count F.CAL_RUN_REJECTS i).raise E.CAL_CAL_REJECT 0

/-- A unit of a pending region is calibrated and judged. -/
def State.calUnit (s : State) (i u : Nat) (x : CalIn) : State :=
  match (s.region i).left.find? fun p => p.1 = u with
  | none => s
  | some p =>
    if !s.bitF F.CAL_STATUS_PEND 0 i || !s.calMay i u then s
    else
      let s1 := if s.plausible i u (s.trim i u) x then s.calAccept i u x else s.calRejected i u p.2
      let l := 32 * i + u
      let s2 : State := if isUpLane i u then { s1 with lanes := vset s1.lanes l { vget s1.lanes {} l with tried := true } } else s1
      if (s2.region i).left.isEmpty then s2.calRunDone i else s2

/-- CAL_UNIT: unit u of region i, with what its calibration finds. -/
def execCalUnit (i : Fin 16) (u : Fin 41) (x : CalIn) (s : State) : Out := done s fun t => t.calUnit i u x

end Sys2Proof.Machine
end

