-- ==== Sys2Proof/Machine/HqiCmds.lean ====
section
/-!
DEFINITION. The meanings of the queue rows and of the host commands (13), the CONFIG and ATTEST commands apart, which are in
CfgCmds.lean.
-/
namespace Sys2Proof.Machine

/-! ### The controller (R300, R319) -/

/-- A register write rejected by the HQI block. -/
def State.rejectHqi (s : State) : State := s.raise E.HQI_CFG_REJECT 0

/-- A pair starts afresh (R300). -/
def State.freshPair (s : State) (q : Nat) : State :=
  let s1 := ((((s.setF F.HQI_QP_STATUS_SQ_HEAD q 0).setF F.HQI_QP_STATUS_CQ_TAIL q 0).setF F.HQI_SQ_TAIL_TAIL q 0).setF
    F.HQI_CQ_HEAD_HEAD q 0).setPair q {}
  ((s1.setB F.HQI_QP_STATUS_ENABLED q true).setB F.HQI_QP_STATUS_ERR q false).setF F.HQI_QP_STATUS_CAUSE q 0

/-- RDY sets once the controller is enabled and an image is placed; pairs with EN set begin to operate (R300). -/
def State.controllerReady (s : State) : State :=
  if s.isSet F.HQI_CC_EN 0 && s.isSet F.CFG_STATUS_LOADED 0 && !s.isSet F.HQI_CSTS_RDY 0 then
    (s.setB F.HQI_CSTS_RDY 0 true).forEach
      ((List.range 65).filter fun q => s.isSet F.HQI_QP_CTL_EN q && !s.isSet F.HQI_QP_STATUS_ENABLED q) fun t q => t.freshPair q
  else s

/-- Set HQI_CC.EN (R300). -/
def State.enableController (s : State) : State := (s.setB F.HQI_CC_EN 0 true).controllerReady

/-- CONTROLLER_ENABLE. -/
def execControllerEnable (s : State) : Out := done s fun t => if t.pf0Served then t.enableController else t

/-- Write the entries of the commands that have their status, as far as their CQs have room (R319). -/
def State.postAll (s : State) : State :=
  s.forEach s.hqi.cmds fun t c =>
    match t.cmd? c.pos with
    | some d => if d.stage = .done && t.cqRoom d.q && t.mayIssue 0 then t.postEntry d else t
    | none => t

/-- Clear HQI_CC.EN: controller reset (R319). -/
def State.resetController (s : State) : State :=
  if !s.isSet F.HQI_CC_EN 0 then s
  else
    let open_ := (s.hqi.cmds.filter fun c => c.stage != .done).map (·.pos)
    let before := s.hqi.cmds.filter fun c => c.stage != .done
    let s1 := (s.finishAll (fun c => c.stage != .done) stAbortedByReset).postAll
    let dropped := s1.hqi.cmds.filter fun c => !open_.contains c.pos
    -- counted: the commands aborted, and those whose entry is dropped
    let s2 := (s1.setCmds (before ++ dropped)).resetAbort fun _ => true
    let s3 := s2.forEach (List.range 65) fun t q =>
      (((t.setB F.HQI_QP_CTL_EN q false).setB F.HQI_QP_STATUS_ENABLED q false).setB F.HQI_QP_STATUS_ERR q false).setF
        F.HQI_QP_STATUS_CAUSE q 0
    let s4 := s3.forEach (List.range 65) fun t q => t.setPair q {}
    (s4.setB F.HQI_CC_EN 0 false).setB F.HQI_CSTS_RDY 0 false

/-- CONTROLLER_RESET. -/
def execControllerReset (s : State) : Out := doneQ s fun t => if t.pf0Served then t.resetController else t

/-! ### Queue pairs (R300 to R302) -/

/-- Set HQI_QP_CTL.EN of a pair. -/
def State.enablePair (s : State) (q : Nat) : State :=
  if s.isSet F.HQI_QP_CTL_EN q then s
  else if s.getF F.HQI_QP_CTL_SIZE q = 0 then s.rejectHqi
  else if s.isSet F.HQI_QP_STATUS_ENABLED q then
    if s.isSet F.HQI_QP_STATUS_ERR q then s.rejectHqi else s.setB F.HQI_QP_CTL_EN q true
  else
    let s1 := s.setB F.HQI_QP_CTL_EN q true
    if s.isSet F.HQI_CSTS_RDY 0 then s1.freshPair q else s1

/-- Clear HQI_QP_CTL.EN of a pair. -/
def State.disablePair (s : State) (q : Nat) : State := (s.setB F.HQI_QP_CTL_EN q false).pairQuiesce q

/-- QUEUE_PAIR_ENABLE. -/
def execQueuePairEnable (q : Fin 65) (s : State) : Out := done s fun t => if t.pf0Served then t.enablePair q else t

/-- QUEUE_PAIR_DISABLE. -/
def execQueuePairDisable (q : Fin 65) (s : State) : Out := done s fun t => if t.pf0Served then t.disablePair q else t

/-- Write the SQ tail doorbell (R301, R302). -/
def State.sqDoorbell (s : State) (q v : Nat) : State :=
  if !s.isSet F.HQI_QP_STATUS_ENABLED q then s
  else if s.getF F.HQI_QP_CTL_SIZE q < v then s.queueErr q 2
  else s.setF F.HQI_SQ_TAIL_TAIL q v

/-- SQ_TAIL_DOORBELL: the doorbell is written with a word. -/
def execSqTailDoorbell (q : Fin 65) (w : BitVec 32) (s : State) : Out :=
  done s fun t => if t.pf0Served then t.sqDoorbell q (w.toNat % 4096) else t

/-- Every entry covered by a signal has been consumed when the head is h (R306). -/
def State.pastCovered (s : State) (q h : Nat) : Bool :=
  let n := s.ringSize q
  let tail := s.getF F.HQI_QP_STATUS_CQ_TAIL q
  decide ((tail + n - h) % n ≤ (tail + n - (s.pair q).covered) % n)

/-- Write the CQ head doorbell (R301, R302, R306). -/
def State.cqDoorbell (s : State) (q v : Nat) : State :=
  if !s.isSet F.HQI_QP_STATUS_ENABLED q then s
  else if s.getF F.HQI_QP_CTL_SIZE q < v then s.queueErr q 3
  else
    let s1 := s.setF F.HQI_CQ_HEAD_HEAD q v
    if s.pastCovered q v then s1.setPair q { s1.pair q with cause := false } else s1

/-- CQ_HEAD_DOORBELL: the doorbell is written with a word. -/
def execCqHeadDoorbell (q : Fin 65) (w : BitVec 32) (s : State) : Out :=
  done s fun t => if t.pf0Served then t.cqDoorbell q (w.toNat % 4096) else t

/-- ARBITRATION: one entry is selected and its fetch issued (R307). -/
def execArbitration (s : State) : Out := done s fun t => t.arbitrate.1

/-- COMPLETION_POST: the next completion entry of pair q is written, once its CQ has room (R301, R305). -/
def execCompletionPost (q : Fin 65) (s : State) : Out :=
  done s fun t =>
    match t.postable q with
    | some c => if t.cqRoom q && t.mayIssue 0 then t.postEntry c else t
    | none => t

/-- COAL_TIME_EXPIRY: COAL_TIME has passed since the first unsignalled entry (R306); 100 us are 40 servo ticks. -/
def execCoalTimeExpiry (q : Fin 65) (s : State) : Out :=
  done s fun t =>
    let time := t.getF F.HQI_QP_INT_COAL_TIME q
    if (t.pair q).unsig ≠ 0 ∧ time ≠ 0 ∧ t.isSet F.HQI_QP_CTL_IEN q ∧ (t.pair q).since + 40 * time ≤ t.tick then t.signalPair q
    else t

/-! ### Beginning a command (R307, R317) -/

/-- The command whose turn it is, when its opcode is `opc` and PF0 may act on it, begins.
DEDUCED, unsafe: log 20. -/
def State.begin (s : State) (opc : Nat) (ok : Cmd → Bool) (f : State → Cmd → State) : State :=
  match s.nextTaken with
  | none => s
  | some c =>
    if c.opc = opc && ok c && s.mayIssue 0 then f (s.updCmd c.pos fun d => { d with stage := .running }) c else s

/-- The volume takes commands: it is mounted and not being released (R313, R316). -/
def State.volOn (s : State) (v : Nat) : Bool := (s.vol v).mounted && (s.vol v).release.isNone

/-- A command on a seam begins to wait for its turn there (R313 to R315); `at` is checked first. -/
def State.seamCmd (s : State) (c : Cmd) (lbaOk : Bool) : State :=
  match c.seam? with
  | none => s
  | some (v, n) =>
    if !s.volOn v then s.finish c.pos stNotMounted 0
    else if !lbaOk then s.finish c.pos stInvalidLba 0
    else
      match s.deadBand (homeHead v n) with
      | some st => s.finish c.pos st 0
      | none =>
        if c.isWrite && (s.seam v n).sealing then s.finish c.pos stSeamSealed 0
        else (s.updCmd c.pos fun d => { d with waiting := true }).beginPages c.pos

/-- READ (R315). -/
def execRead (s : State) : Out :=
  doneQ s fun t => t.begin 0x10 (fun _ => true) fun u c =>
    u.seamCmd c (decide (c.lba < 2 ^ 29) && decide (lbaBlock c.lba + c.nblk ≤ seamBlocks))

/-- APPEND (R314). -/
def execAppend (s : State) : Out := doneQ s fun t => t.begin 0x11 (fun _ => true) fun u c => u.seamCmd c true

/-- WRITE AT (R314). -/
def execWriteAt (s : State) : Out :=
  doneQ s fun t => t.begin 0x12 (fun _ => true) fun u c => u.seamCmd c (lbaValid c.lba)

/-- FLUSH: every open lode holding host data is sealed (R251, R317). -/
def execFlush (s : State) : Out :=
  doneQ s fun t => t.begin 0x13 (fun _ => true) fun u _ =>
    u.forEach (List.range 8) fun w v => w.forEach (List.range 64) fun x n => x.sealLode v n

/-- SEAL SEAM: from here on the seam counts as sealed for writes (R314). -/
def execSealSeam (s : State) : Out :=
  doneQ s fun t => t.begin 0x14 (fun _ => true) fun u c =>
    match c.seam? with
    | none => u
    | some (v, n) =>
      if !u.volOn v then u.finish c.pos stNotMounted 0
      else
        match u.deadBand (homeHead v n) with
        | some st => u.finish c.pos st 0
        | none => (u.updCmd c.pos fun d => { d with waiting := true }).updSeam v n fun x => { x with sealing := true }

/-! ### IDENTIFY and GET LOG (R310, R311) -/

/-- A page filled up with zeros. -/
def page (bs : List Nat) : List Nat := (bs ++ List.replicate (4096 - bs.length) 0).take 4096

/-- Write bytes at an offset of a page of zeros, in rising order of offset: `gap` fills up to the offset. -/
def padTo (n : Nat) (bs : List Nat) : List Nat := bs ++ List.replicate (n - bs.length) 0

/-- A mask of the numbers below n with a property. -/
def maskOf (n : Nat) (p : Nat → Bool) : Nat := (List.range n).foldl (fun m k => m + if p k then 2 ^ k else 0) 0

/-- The device page (R310, CNS 0). -/
def State.devicePage (s : State) : List Nat :=
  let a := leBytes 8 s.cfg.fuses.serial ++ leBytes 2 0x3208 ++ leBytes 1 (s.getF F.GLB_DEVICE_ID_STEPPING 0)
  let b := padTo 12 a ++ leBytes 2 64 ++ leBytes 2 4095 ++ leBytes 2 1024
  let c := padTo 20 b ++ leBytes 4 (s.getF F.CFG_IMAGE_VER_VER 0) ++ leBytes 4 (s.getF F.CFG_SVN_RUN 0) ++
    leBytes 4 (s.getF F.CFG_BOOT_CTR_CTR 0)
  page (c ++ [maskOf 8 fun d => s.deck d != dkEMPTY, maskOf 8 fun v => (s.vol v).mounted])

/-- The serial a volume reports: 0 when it is not mounted. -/
def State.shownSerial (s : State) (v : Nat) : Nat := if (s.vol v).mounted then (s.vol v).serial else 0

/-- The volume page (R310, CNS 1). -/
def State.volumePage (s : State) (v : Nat) : List Nat :=
  page (leBytes 16 (s.shownSerial v) ++ [s.deck v, (s.vol v).mounted.toNat] ++
    leBytes 8 (maskOf 64 fun n => s.isSet F.WRP_SEAM_SEALED (seamIdx v n)))

/-- IDENTIFY (R310). -/
def execIdentify (s : State) : Out :=
  done s fun t => t.begin 0x01 (fun _ => true) fun u c =>
    let bs := if c.csf.getD 0 0 = 0 then u.devicePage else u.volumePage c.vol
    (u.emit (.hostWrite c.dptr1 bs (u.relaxed c.q))).finish c.pos stSuccess 0

/-- The 16 bytes of a seam in log page 0x02. -/
def State.seamEntry (s : State) (v n : Nat) : List Nat :=
  let i := seamIdx v n
  let known := s.isSet F.WRP_SEAM_KNOWN i
  let side := if s.unserved (homeHead v n) then 8 else 0
  if !known then List.replicate 16 0
  else
    leBytes 4 (128 * s.seamA v n) ++ leBytes 4 (s.appendPoint v n) ++ leBytes 2 (s.getF F.WRP_SEAM_NSKIP i) ++
    [1 + 2 * s.getF F.WRP_SEAM_SEALED i + 4 * s.getF F.WRP_SEAM_EXHAUSTED i + side, (s.seam v n).dataLodes.length] ++
    List.replicate 4 0

/-- Log page 0x02: the bytes it holds. -/
def State.seamPage (s : State) (v : Nat) : List Nat :=
  padTo 64 (leBytes 16 (s.shownSerial v)) ++ (List.range 64).flatMap fun n => s.seamEntry v n

/-- Log page 0x05: the update status (R379). -/
def State.updatePage (s : State) : List Nat :=
  let g (f : Field) : Nat := s.getF f 0
  let a := [g F.CFG_STAGE_STATUS_STATE, g F.CFG_STAGE_REJECT_LAST, g F.CFG_STAGE_REJECT_FAIL, g F.CFG_SHIFT_STATUS_STATE] ++
    leBytes 2 (g F.CFG_STAGE_STATUS_RECEIVED) ++ leBytes 2 (g F.CFG_STAGE_STATUS_COUNT)
  let b := a ++ leBytes 4 (g F.CFG_STAGE_EPOCH_LO_EPOCH) ++ leBytes 4 (g F.CFG_STAGE_EPOCH_HI_EPOCH) ++ leBytes 8 ((s.cfg.flash.stage.map (·.tag)).getD 0) ++
    leBytes 4 (g F.CFG_EPOCH_LO_EPOCH) ++ leBytes 4 (g F.CFG_EPOCH_HI_EPOCH) ++ leBytes 4 (g F.CFG_IMAGE_VER_VER) ++
    leBytes 4 (g F.CFG_SVN_RUN) ++ leBytes 4 (g F.CFG_SVN_FUSED) ++ [g F.CFG_STATUS_SLOT + 128 * g F.CFG_STATUS_FALLBACK]
  let c := padTo 48 b ++ leBytes 5 (g F.CFG_SHIFT_FRAME_LO_F_LO + g F.CFG_SHIFT_FRAME_HI_F_HI * 2 ^ 32)
  let d := padTo 56 c ++ leBytes 2 (g F.CFG_SHIFT_STATUS_DEFER)
  padTo 64 d ++ (List.range 530).map fun k => maskOf 8 fun b => s.cfg.flash.marked.contains (8 * k + b)

/-- The counters of log page 0x01, in the order of R311; they are not cleared. -/
def State.healthValues (s : State) : List Nat :=
  [F.ASY_LODES_CLEAN, F.ASY_LODES_CORRECTED, F.ASY_LODES2_REREAD, F.ASY_LODES2_FAILED, F.WRP_LODES_ACCEPTED,
   F.WRP_LODES_REJECTED, F.WRP_SKIPS_SKIPPED, F.WRP_SKIPS_CAL_RUNS].map fun f => s.getF f 0

/-- The results of the last self-tests, for log page 0x03. -/
def State.testValues (s : State) : List Nat :=
  s.hqi.tests.toList.flatMap fun t =>
    (t.perHead.flatMap fun p => [p.1, p.2.1, p.2.2]) ++
    t.firstFail.flatMap fun p => match p with | none => [0, 0, 0] | some (n, l) => [1, n, l]

/-- A page whose layout is free.
DESIGN CHOICE, safe: log 22. -/
def freePage (p : Nat) (vals : List Nat) : List Nat := (List.range (Config.logSize p)).map fun k => (Config.logByte p vals k).toNat

/-- The bytes a log page holds (R311).
DESIGN CHOICE, safe: log 22. -/
def State.logPage (s : State) (p v : Nat) : List Nat :=
  match p with
  | 1 => freePage 1 s.healthValues
  | 2 => s.seamPage v
  | 3 => freePage 3 s.testValues
  | 4 => freePage 4 s.hqi.aborts.toList
  | _ => s.updatePage

/-- Write the pages of a finished page list: host page k takes 4 KiB number `first + k` of the content. -/
def State.sendPages (s : State) (c : Cmd) (bs : List Nat) (first : Nat) : State :=
  s.forEach (List.range c.nblk) fun t k =>
    t.emit (.hostWrite (c.pages.getD k 0) (page (bs.drop (4096 * (first + k)))) (t.relaxed c.q))

/-- A GET LOG whose page list is complete: its pages are written as they stand now. -/
def State.sendLog (s : State) (c : Cmd) : State :=
  let bs := s.logPage (c.csf.getD 0 0) c.vol
  (s.sendPages c bs (c.csfNum 4 4)).finish c.pos stSuccess bs.length

/-- GET LOG (R311): the page list is fetched first. -/
def execGetLog (s : State) : Out :=
  done s fun t => t.begin 0x02 (fun _ => true) fun u c =>
    let w := u.beginPages c.pos
    match w.cmd? c.pos with
    | some d => if d.pagesOk then w.sendLog d else w
    | none => w

/-! ### Features (R312) -/

/-- The present value of a feature. -/
def State.feature (s : State) (fid v : Nat) : Nat :=
  match fid with
  | 1 => s.getF F.WRP_LINGER_MS 0
  | 2 => s.getF F.WND_SPEED_SET_TARGET v / 8
  | _ => s.getF F.HQI_ARB_W_HIGH 0 + s.getF F.HQI_ARB_W_MED 0 * 256 + s.getF F.HQI_ARB_W_LOW 0 * 65536 +
      s.getF F.HQI_ARB_BURST 0 * 2 ^ 24

/-- A feature takes the value. -/
def State.featureOk (s : State) (fid v val : Nat) : Bool :=
  match fid with
  | 1 => decide (1 ≤ val ∧ val ≤ 2000)
  | 2 => decide (s.getF F.WND_MOTOR_SPD_MIN v ≤ val ∧ val ≤ s.getF F.WND_MOTOR_SPD_MAX v)
  | _ => decide (val < 2 ^ 27)

/-- Set a feature. -/
def State.putFeature (s : State) (fid v val : Nat) : State :=
  match fid with
  | 1 => s.setF F.WRP_LINGER_MS 0 val
  | 2 => s.setF F.WND_SPEED_SET_TARGET v (8 * val)
  | _ => (((s.setF F.HQI_ARB_W_HIGH 0 (val % 256)).setF F.HQI_ARB_W_MED 0 (val / 256 % 256)).setF F.HQI_ARB_W_LOW 0
      (val / 65536 % 256)).setF F.HQI_ARB_BURST 0 (val / 2 ^ 24)

/-- SET FEATURE (R312): the result is the previous value. -/
def execSetFeature (s : State) : Out :=
  done s fun t => t.begin 0x03 (fun _ => true) fun u c =>
    let fid := c.csf.getD 0 0
    let val := c.csfNum 4 8
    if u.featureOk fid c.vol val then (u.putFeature fid c.vol val).finish c.pos stSuccess (u.feature fid c.vol)
    else u.finish c.pos stInvalidField 0

/-- GET FEATURE (R312). -/
def execGetFeature (s : State) : Out :=
  done s fun t => t.begin 0x04 (fun _ => true) fun u c => u.finish c.pos stSuccess (u.feature (c.csf.getD 0 0) c.vol)

/-! ### ABORT (R318) -/

/-- The lode at a position serves something beside READ commands: a search, or a self-test (R268, R313, R320). -/
def State.servesElse (s : State) (v n x : Nat) : Bool :=
  s.probing v n x ||
  (match s.slotOf v n x with
   | some y => (s.slot y).test
   | none => false) ||
  s.asy.waiting.any fun o => o.vol == v && o.seam == n && o.x == x && o.test

/-- The media work of an aborted READ ends where it serves nothing else (R318). -/
def State.abortReads (s : State) (c : Cmd) : State :=
  let n := lbaSeam c.lba
  if !c.media then s
  else s.forEach c.lodes fun t l =>
    let x := lodeX (physOf (t.skips c.vol n) l)
    if !(t.lodesAt c.vol n x).isEmpty || t.servesElse c.vol n x then t else t.abortLode c.vol n x

/-- The effect of an ABORT on the command it names, and its result. -/
def State.abortCmd (s : State) (c : Cmd) : State × Nat :=
  match c.stage with
  | .taken => (s.finish c.pos stAbortedByRequest 0, 0)
  | .done => (s, 1)
  | .running =>
    if c.opc = 0x10 then ((s.finish c.pos stAbortedByRequest 0).abortReads c, 0)
    else if (c.isWrite && c.assigned.isNone) || c.opc = 0x02 then (s.finish c.pos stAbortedByRequest 0, 0)
    else if c.opc = 0x06 then (s.setTest c.vol { s.test c.vol with stopping := true }, 0)
    else (s, 1)

/-- ABORT (R318). -/
def execAbort (s : State) : Out :=
  doneQ s fun t => t.begin 0x05 (fun _ => true) fun u c =>
    match u.hqi.cmds.find? fun d => d.q = c.csfNum 0 2 && d.cid = c.csfNum 2 2 && d.pos != c.pos with
    | none => u.finish c.pos stSuccess 2
    | some d =>
      let r := u.abortCmd d
      r.1.finish c.pos stSuccess r.2

/-! ### Self-tests (R320) -/

/-- The lodes of the extended test of a seam: 0, 256, 512 and so on below A, and A - 1. -/
def extendedLodes (a : Nat) : List Nat :=
  let l := (List.range ((a + 255) / 256)).map fun k => 256 * k
  if l.getLast? = some (a - 1) then l else l ++ [a - 1]

/-- The steps of the extended test. -/
def State.extendedSteps (s : State) (v : Nat) : List TestStep :=
  ((List.range 64).filter fun n => s.seamA v n ≠ 0).flatMap fun n => (extendedLodes (s.seamA v n)).map fun l => .lode n l

/-- The steps of the short test: each head that serves the volume in turn. -/
def State.shortSteps (s : State) (v : Nat) : List TestStep :=
  ((headsOf v).filter fun h => !(s.servedBands h).isEmpty).flatMap fun h =>
    [.acquire h 0, .acquire h 15] ++
    (match (s.headSeams h).find? fun n => s.seamA v n ≠ 0 with
     | some n => [.lode n (s.seamA v n - 1)]
     | none => [])

/-- Start a test with its steps. -/
def State.startTest (s : State) (c : Cmd) (steps : List TestStep) : State :=
  if !s.volOn c.vol then s.finish c.pos stNotMounted 0
  else if (s.test c.vol).running.isSome then s.finish c.pos stSelfTestBusy 0
  else s.setTest c.vol { running := some c.pos, code := c.csf.getD 0 0, left := steps }

/-- SELF TEST with CODE 1. -/
def execSelfTestShort (s : State) : Out :=
  doneQ s fun t => t.begin 0x06 (fun c => c.csf.getD 0 0 = 1) fun u c => u.startTest c (u.shortSteps c.vol)

/-- SELF TEST with CODE 2. -/
def execSelfTestExtended (s : State) : Out :=
  doneQ s fun t => t.begin 0x06 (fun c => c.csf.getD 0 0 = 2) fun u c => u.startTest c (u.extendedSteps c.vol)

/-- SELF TEST with CODE 15: the running test stops at its next step. -/
def execSelfTestStop (s : State) : Out :=
  doneQ s fun t => t.begin 0x06 (fun c => c.csf.getD 0 0 = 15) fun u c =>
    if !u.volOn c.vol then u.finish c.pos stNotMounted 0
    else (u.setTest c.vol { u.test c.vol with stopping := true }).finish c.pos stSuccess 0

/-- The result of a test (R320). -/
def SelfTest.result (t : SelfTest) : Nat :=
  t.lodesRead % 2 ^ 32 + t.failed % 2 ^ 16 * 2 ^ 32 + t.acqFailed.toNat * 2 ^ 48 + t.stopping.toNat * 2 ^ 49

/-- SELF_TEST_DONE: the test of volume v has nothing left to do. -/
def execSelfTestDone (v : Fin 8) (s : State) : Out :=
  done s fun t =>
    let x := t.test v
    match x.running with
    | none => t
    | some pos =>
      if x.ended then
        ((t.finish pos stSuccess x.result).setTest v { x with running := none, stopped := x.stopping, stopping := false }).raise
          E.HQI_SELF_TEST_DONE 0
      else t

/-! ### Volumes (R313, R316) -/

/-- A mount acts on the deck's state (R313 step 1). -/
def State.mountStep (s : State) (v : Nat) (m : MountS) : State :=
  let d := s.deck v
  if d = dkREADY && (s.vol v).release.isNone then
    (s.setVol v { s.vol v with mount := some { m with waiting := false } }).probeAt v 0
  else if d = dkLOADED && (s.vol v).release.isNone then
    if !m.start then s.mountFails v stInvalidField
    else if s.mayStart v then s.startDeck v
    else s.raise E.WND_CFG_REJECT v
  else if d = dkEMPTY then s.mountFails v stNoDisc
  else if d = dkFAULT then s.mountFails v stVolumeUnavailable
  else s

/-- VOLUME MOUNT (R313). -/
def execVolumeMount (s : State) : Out :=
  doneQ s fun t => t.begin 0x0A (fun _ => true) fun u c =>
    let x := u.vol c.vol
    match x.mount with
    | some m => u.setVol c.vol { x with mount := some { m with also := m.also ++ [c.pos] } }
    | none =>
      if u.volOn c.vol then u.finish c.pos stSuccess 0
      else
        let m : MountS := { pos := c.pos, start := c.csf.getD 0 0 = 1, waiting := true, probe := 0 }
        (u.setVol c.vol { x with mount := some m }).mountStep c.vol m

/-- VOLUME_MOUNT_PROCEED: a mount that waits for its deck proceeds. -/
def execVolumeMountProceed (v : Fin 8) (s : State) : Out :=
  doneQ s fun t =>
    match (t.vol v).mount with
    | some m => if m.waiting then t.mountStep v m else t
    | none => t

/-- VOLUME RELEASE (R316): open lodes are sealed; `advance` takes the further steps. -/
def execVolumeRelease (s : State) : Out :=
  doneQ s fun t => t.begin 0x0B (fun _ => true) fun u c =>
    if !u.volOn c.vol then u.finish c.pos stNotMounted 0
    else
      let w := u.forEach (List.range 64) fun x n => x.sealLode c.vol n
      w.setVol c.vol { w.vol c.vol with release := some c.pos }

end Sys2Proof.Machine
end

