-- ==== Sys2Proof/Machine/RegRules.lean ====
section
/-!
DEFINITION. What a write of a whole word to a register is allowed to do: the value the register takes, after the clamps the
chapters state, or its rejection with the block's CFG_REJECT (R42, R109, R180, R249, R273, R322, R365, R399, R425 and the register
tables). A value outside a range for which no chapter states a consequence is stored.
-/
namespace Sys2Proof.Machine

/-- The word with bits hi down to lo replaced. -/
def setBits (w hi lo v : Nat) : Nat := w - bitsOf w hi lo * 2 ^ lo + v * 2 ^ lo

/-- The unit of an instance: its first index. -/
def RegDef.unit (r : RegDef) (i : Nat) : Nat := i / (r.dims.tail.map (·.1)).prod

/-- Raise the CFG_REJECT of the block that owns a register. -/
def State.regReject (s : State) (r : RegDef) (i : Nat) : State :=
  let b := r.base
  let u := r.unit i
  if b < 0x100000 then s
  else if b < 0x200000 then s.raise E.TCK_CFG_REJECT 0
  else if b < 0x300000 then s.raise E.HIF_CFG_REJECT 0
  else if b < 0x400000 then s.raise E.HQI_CFG_REJECT 0
  else if b < 0x40C000 then s.raise E.CLR_CFG_REJECT u
  else if b < 0x600000 then s.raise E.LRN_CFG_REJECT u
  else if b < 0x700000 then s.raise E.WND_CFG_REJECT u
  else if b < 0x800000 then s.raiseSld E.SLD_CFG_REJECT u
  else if b < 0x840000 then s.raiseLnk E.LNK_CFG_REJECT (u / 8)
  else if b < 0xA00000 then s.raiseLnk E.LNK_CFG_REJECT u
  else if b < 0xC00000 then s.raiseChn E.CHN_CFG_REJECT u
  else if b < 0xC40000 then s.raise E.ASY_CFG_REJECT 0
  else if b < 0xD00000 then s.raise E.PRC_CFG_REJECT 0
  else if b < 0xE00000 then s.raise E.WRP_CFG_REJECT 0
  else if b < 0xE40000 then s.raise E.MEM_CFG_REJECT 0
  else if b < 0x1000000 then s.raise E.LCA_CFG_REJECT 0
  else if b < 0x1100000 then s.raise E.CFG_CFG_REJECT 0
  else if b < 0x1200000 then s.raise E.TRL_CFG_REJECT 0
  else if b < 0x1210000 then s.raise E.CAL_CFG_REJECT 0
  else s

/-- The condition a write of a register must meet, else it is rejected.
DEDUCED, unsafe: log 12. -/
def State.writeOk (s : State) (r : RegDef) (i w : Nat) : Bool :=
  let f := bitsOf w
  let b := r.base
  if b = R.TCK_ASY_DEADLINE.base then decide (400 ≤ f 15 0 ∧ f 15 0 ≤ 16000)
  else if b = R.LNK_TICK_LEAD.base then f 31 31 == 0 || decide (16 ≤ f 10 0 ∧ f 10 0 ≤ 224)
  else if b = R.CLR_SF_FILT.base then decide (6 ≤ f 3 0 ∧ f 3 0 ≤ 14)
  else if b = R.CLR_SF_CTL.base then decide (f 23 16 < f 31 24 ∧ f 31 24 < f 15 8)
  else if b = R.CLR_RP_LIM.base then decide (f 9 0 ≤ f 29 20 ∧ f 29 20 ≤ f 19 10)
  else if b = R.CLR_TRACK_TH.base then decide (f 15 0 ≤ f 31 16)
  else if b = R.LRN_DEF_CTL.base then decide (f 11 8 ≤ 8)
  else if b = R.LRN_SPD_CTL.base then decide (1000 ≤ f 31 16 ∧ f 31 16 ≤ 6000 ∧ f 3 2 ≠ 3 ∧ f 1 0 ≠ 3)
  else if b = R.LRN_GAIN.base then f 12 8 == 0 || decide (4 ≤ f 12 8 ∧ f 12 8 ≤ 20)
  else if b = R.SLD_CTL.base then
    f 7 6 != 3 && (f 5 5 == s.getF F.SLD_CTL_PROFILE i || s.getF F.SLD_STATUS_STATE i == 3 || s.getF F.SLD_STATUS_STATE i == 1)
  else if b = R.SLD_VMAX.base then f 15 0 != 0
  else if b = R.SLD_AMAX.base || b = R.SLD_DMAX.base then f 23 0 != 0 && decide (f 23 0 ≤ s.getF F.SLD_AHARD_AHARD i)
  else if b = R.SLD_JMAX.base then f 23 0 != 0
  else if b = R.SLD_SOFT_MIN.base then
    decide (sgn 32 w < sgn 32 (s.getF F.SLD_SOFT_MAX_POS i) ∧ sgn 32 w ≤ sgn 32 (s.getF F.SLD_PARK_POS i))
  else if b = R.SLD_SOFT_MAX.base then
    decide (sgn 32 (s.getF F.SLD_SOFT_MIN_POS i) < sgn 32 w ∧ sgn 32 (s.getF F.SLD_PARK_POS i) ≤ sgn 32 w)
  else if b = R.SLD_PARK.base then
    decide (sgn 32 (s.getF F.SLD_SOFT_MIN_POS i) ≤ sgn 32 w ∧ sgn 32 w ≤ sgn 32 (s.getF F.SLD_SOFT_MAX_POS i))
  else if b = R.WND_CTL.base then f 5 4 != 3 && !(f 5 4 == 2 && i % 2 == 1)
  else if b = R.WND_SPEED_SET.base then decide (s.getF F.WND_MOTOR_SPD_MIN i * 8 ≤ f 15 0 ∧ f 15 0 ≤ s.getF F.WND_MOTOR_SPD_MAX i * 8)
  else if b = R.WND_RAMP.base then f 31 16 != 0 && f 15 0 != 0
  else if b = R.WND_SIX.base then decide (f 31 16 ≤ 5461)
  else if b = R.WND_OL.base then f 19 0 != 0
  else if b = R.WND_BRK.base then decide (f 15 0 < f 31 16 ∧ f 31 16 < s.getF F.WND_BUSLIM_V_REGEN i)
  else if b = R.WND_BUSLIM.base then decide (s.getF F.WND_BRK_BRK_ON i < f 31 16 ∧ f 31 16 < f 15 0)
  else if b = R.CHN_WOB.base then f 31 24 != 0 && decide (f 23 16 ≤ f 15 8)
  else if b = R.CHN_SYNC_CTL.base then
    decide (33 ≤ f 31 24 ∧ f 31 24 ≤ 64 ∧ 17 ≤ f 23 16 ∧ f 23 16 ≤ 32 ∧ 1 ≤ f 15 8 ∧ f 15 8 ≤ 32)
  else if b = R.CHN_EQ_CTL.base then decide (6 ≤ f 3 0)
  else if b = R.CHN_DET_CTL.base then f 31 16 != 0
  else if b = R.ASY_INNER_CTL.base then decide (1 ≤ f 21 16 ∧ f 21 16 ≤ 32)
  else if b = R.ASY_SECOND_CTL.base then decide (f 31 24 ≤ 16 ∧ 1 ≤ f 23 16 ∧ f 23 16 ≤ 64)
  else if b = R.ASY_COMB_CTL.base then f 31 24 != 0 && decide (8 ≤ f 20 16)
  else if b = R.PRC_CTL.base then f 11 8 != 0
  else if b = R.PRC_TAIL_BASE_LO.base || b = R.PRC_TAIL_BASE_HI.base then !s.isSet F.PRC_CTL_EN 0
  else if b = R.PRC_TAIL_SIZE.base then !s.isSet F.PRC_CTL_EN 0 && decide (1 ≤ f 10 0 ∧ f 10 0 ≤ 1365)
  else if b = R.PRC_MARKS.base then decide (f 7 0 < f 15 8)
  else if b = R.WRP_CTL.base then decide (1 ≤ f 31 24 ∧ f 31 24 ≤ 64)
  else if b = R.WRP_LINGER.base then decide (1 ≤ f 10 0 ∧ f 10 0 ≤ 2000)
  else if b = R.WRP_VFY_CTL.base then decide (1 ≤ f 31 24 ∧ f 31 24 ≤ 32 ∧ f 23 16 ≤ 24 ∧ f 15 8 ≤ 16)
  else if b = R.WRP_CAL_CTL.base then decide (5 ≤ f 31 27 ∧ f 31 27 ≤ 16 ∧ f 23 16 ≠ 0)
  else if b = R.HQI_SQ_BASE_LO.base || b = R.HQI_SQ_BASE_HI.base || b = R.HQI_CQ_BASE_LO.base || b = R.HQI_CQ_BASE_HI.base then
    !s.isSet F.HQI_QP_CTL_EN i && !s.isSet F.HQI_QP_STATUS_ENABLED i
  else if b = R.LCA_OP.base then
    f 0 0 == 0 || (decide (1 ≤ f 3 1 ∧ f 3 1 ≤ 4))
  else if b = R.TRL_TX_CTL.base then
    !s.isSet F.TRL_TX_STATUS_BUSY 0 && decide (1 ≤ f 30 28 ∧ f 30 28 ≤ 5 ∧ 1 ≤ f 9 0 ∧ f 9 0 ≤ 512)
  else if b = R.TRL_TX_DATA.base then !s.isSet F.TRL_TX_STATUS_BUSY 0
  else if b = R.CAL_CTL.base then decide (1 ≤ f 12 8 ∧ f 12 8 ≤ 30)
  else if b = R.CAL_THERM.base then decide (min 140 (f 23 16) > f 31 24)
  else true

/-- The word a register stores: the clamps of the register tables.
DEDUCED, unsafe: log 12. -/
def clampWord (r : RegDef) (w : Nat) : Nat :=
  let f := bitsOf w
  let b := r.base
  if b = R.TCK_CTL.base then setBits w 31 16 (max 8 (min 3125 (f 31 16)))
  else if b = R.LNK_ROT_CTL.base then setBits (setBits w 31 8 (max 1024 (f 31 8))) 7 0 (max 8 (f 7 0))
  else if b = R.WND_PWM.base then setBits w 31 21 (max 50 (f 31 21))
  else w

/-- Bits of a number that are not set in another. -/
def clearBits (n w : Nat) : Nat := n - (n &&& w)

/-- The RW1C fields of a register: a 1 clears its bit (R451). -/
def State.clear1c (s : State) (r : RegDef) (i w : Nat) : State :=
  r.fields.foldl (fun t f => if f.acc = .rw1c then t.setF f.fld i (clearBits (t.getF f.fld i) (bitsOf w f.hi f.lo)) else t) s

/-- Store the RW fields of a register. -/
def State.storeReg (s : State) (r : RegDef) (i w : Nat) : State := (s.storeBits r i (clampWord r w) false).clear1c r i w

/-- Write a word to a register that has no effect beyond its fields. -/
def State.plainWrite (s : State) (r : RegDef) (i w : Nat) : State :=
  if s.writeOk r i w then s.storeReg r i w else s.regReject r i

end Sys2Proof.Machine
end

