-- ==== Sys2Proof/Machine/Aes.lean ====
section
/-!
DEFINITION. AES-256 and its Galois/Counter Mode, with which R357 encrypts the segments of an image. The spec names the algorithms; they
are taken from their standards (FIPS 197, SP 800-38D). Bytes are numbers below 256, blocks are lists of 16 bytes.
PRESUMED, unsafe: log 113.
-/
namespace Sys2Proof.Machine

/-! ### The block cipher -/

/-- The substitution table, 32 bytes to a number, the first byte least significant. -/
def aesTable : List Nat :=
  [0xc072a49cafa2d4adf04759fa7dc982ca76abd7fe2b670130c56f6bf27b777c63,
   0x75b227ebe28012079a059618c323c7041531d871f1e5a534ccf73f362693fdb7,
   0xcf584c4a39becb6a5bb1fc20ed00d153842fe329b3d63b52a05a6e1b1a2c8309,
   0xd2f3ff1021dab6bcf5389d928f40a351a89f3c507f02f94585334d43fbaaefd0,
   0xdb0b5ede14b8ee4688902a22dc4f816073195d643d7ea7c41744975fec130ccd,
   0x8ae7a65eaf4566ca94ed58d6d37c8e779e4959162acd3c25c2406490a3a32e0,
   0x9e1dc186b95735610ef6034866b53e708a8bbd4b1f74dde8c6b4a61c2e2578ba,
   0x16bb54b00f2d99416842e6bf0d89a18cdf2855cee9871e9b948ed9691198f8e1]

/-- The substitution of a byte. -/
def aesSub (b : Nat) : Nat := aesTable.getD (b / 32 % 8) 0 / 2 ^ (8 * (b % 32)) % 256

/-- Doubling in the field of AES. -/
def aesDouble (a : Nat) : Nat := if 128 ≤ a then (2 * a) ^^^ 0x11B else 2 * a

/-- Bitwise sum of two runs of bytes. -/
def sumBytes (a b : List Nat) : List Nat := List.zipWith (· ^^^ ·) a b

/-- One column mixed. -/
def mixColumn (c : List Nat) : List Nat :=
  (List.range 4).map fun k =>
    let a := c.getD k 0
    let b := c.getD ((k + 1) % 4) 0
    aesDouble a ^^^ (aesDouble b ^^^ b) ^^^ c.getD ((k + 2) % 4) 0 ^^^ c.getD ((k + 3) % 4) 0

/-- The columns of a block mixed. -/
def mixColumns (b : List Nat) : List Nat := (List.range 4).flatMap fun k => mixColumn ((b.drop (4 * k)).take 4)

/-- The rows of a block shifted. -/
def shiftRows (b : List Nat) : List Nat := (List.range 16).map fun k => b.getD ((k + 4 * (k % 4)) % 16) 0

/-- The next word of the key schedule, from the words so far, the latest first. -/
def nextKeyWord (i rcon : Nat) (ws : List (List Nat)) : List Nat :=
  let w := ws.headD []
  let t :=
    if i % 8 = 0 then sumBytes ((w.drop 1 ++ w.take 1).map aesSub) [rcon, 0, 0, 0]
    else if i % 8 = 4 then w.map aesSub
    else w
  sumBytes (ws.getD 7 []) t

/-- The key schedule from word i on: n words more, the latest first. -/
def keyWords : Nat → Nat → Nat → List (List Nat) → List (List Nat)
  | 0, _, _, ws => ws
  | n + 1, i, rcon, ws => keyWords n (i + 1) (if i % 8 = 0 then aesDouble rcon else rcon) (nextKeyWord i rcon ws :: ws)

/-- The 15 round keys of a 32-byte key. -/
def roundKeys (key : List Nat) : List (List Nat) :=
  let ws := (keyWords 52 8 1 ((List.range 8).map fun k => (key.drop (4 * k)).take 4).reverse).reverse
  (List.range 15).map fun r => ((ws.drop (4 * r)).take 4).flatten

/-- The rounds after the first key addition. -/
def aesRounds : List (List Nat) → List Nat → List Nat
  | [], b => b
  | [k], b => sumBytes (shiftRows (b.map aesSub)) k
  | k :: ks, b => aesRounds ks (sumBytes (mixColumns (shiftRows (b.map aesSub))) k)

/-- AES encryption of a block under a key schedule. -/
def aesBlock (ks : List (List Nat)) (b : List Nat) : List Nat := aesRounds ks.tail (sumBytes b (ks.headD []))

/-! ### Galois/Counter Mode -/

/-- The number of a run of bytes, the first most significant. -/
def beNat (l : List Nat) : Nat := l.foldl (fun a b => 256 * a + b) 0

/-- The n bytes of a number, the most significant first. -/
def beBytes (n v : Nat) : List Nat := (List.range n).map fun k => v / 2 ^ (8 * (n - 1 - k)) % 256

/-- The product in GF(2^128), over the first n bits of x, counted from bit n - 1 down. -/
def gcmMul : Nat → Nat → Nat → Nat → Nat
  | 0, _, _, z => z
  | n + 1, x, v, z =>
    gcmMul n x (if v % 2 = 1 then v / 2 ^^^ (0xE1 * 2 ^ 120) else v / 2) (if x.testBit n then z ^^^ v else z)

/-- A run of bytes as blocks, the last filled with zeros. -/
def gcmBlocks : Nat → List Nat → List Nat
  | 0, _ => []
  | n + 1, l => beNat ((l.take 16) ++ List.replicate (16 - (l.take 16).length) 0) :: gcmBlocks n (l.drop 16)

/-- GHASH of additional data and ciphertext under the hash key. -/
def ghash (h : Nat) (aad cipher : List Nat) : Nat :=
  let bs := gcmBlocks ((aad.length + 15) / 16) aad ++ gcmBlocks ((cipher.length + 15) / 16) cipher ++
    [8 * aad.length * 2 ^ 64 + 8 * cipher.length]
  bs.foldl (fun y b => gcmMul 128 (y ^^^ b) h 0) 0

/-- The key stream from counter n on, for k blocks. -/
def keyStream (ks : List (List Nat)) (iv : List Nat) : Nat → Nat → List Nat
  | 0, _ => []
  | k + 1, n => aesBlock ks (iv ++ beBytes 4 n) ++ keyStream ks iv k (n + 1)

/-- Authenticated decryption: the plaintext, none when the tag does not verify. -/
def gcmOpen (key iv aad cipher tag : List Nat) : Option (List Nat) :=
  let ks := roundKeys key
  let h := beNat (aesBlock ks (List.replicate 16 0))
  let t := sumBytes (beBytes 16 (ghash h aad cipher)) (aesBlock ks (iv ++ [0, 0, 0, 1]))
  if t = tag then some (sumBytes cipher (keyStream ks iv ((cipher.length + 15) / 16) 2)) else none

end Sys2Proof.Machine
end

