-- ==== Sys2Proof/Machine/Stored.lean ====
section
/-!
DEFINITION. A stored image as its bytes (R356 to R360, R364): the header's fields, the segments and their decryption, the sentence and its
clauses; `Stored.image` is what the checks of R367 find in it.
-/
namespace Sys2Proof.Machine

/-! ### The header (R356) -/

/-- A little-endian field of some bytes. -/
def fieldOf (b : List Nat) (o n : Nat) : Nat := ofLeBytes ((b.drop o).take n)

/-- SENT_LEN. -/
def Stored.sentLen (f : Stored) : Nat := fieldOf f.bytes 24 4

/-- NSEG. -/
def Stored.nseg (f : Stored) : Nat := fieldOf f.bytes 28 2

/-- MAGIC, FORMAT, SENT_LEN and NSEG are consistent (R367 step 2). -/
def Stored.headerOk (f : Stored) : Bool :=
  f.bytes.take 4 == [0x45, 0x54, 0x46, 0x52] && fieldOf f.bytes 4 2 == 1 &&
  decide (32 ≤ f.sentLen ∧ f.sentLen ≤ 16769024) && f.nseg == (f.sentLen + 65535) / 65536

/-- The signed data of an image (R358). -/
def Stored.signed (f : Stored) : List Nat := f.bytes.take 4000 ++ (f.bytes.drop 4096).take 4096

/-- The image digest: SHA-384 of the signed data (R358). -/
def Stored.digest (f : Stored) : Nat := beNat ((List.range 48).map fun k => (Config.sha384 f.signed k).toNat)

/-! ### The segments (R357) -/

/-- The length of segment j. -/
def Stored.segLen (f : Stored) (j : Nat) : Nat := min 65536 (f.sentLen - 65536 * j)

/-- Ciphertext segment j, at stored offset 8,192 + 65,536 j. -/
def Stored.segment (f : Stored) (j : Nat) : List Nat := (f.bytes.drop (8192 + 65536 * j)).take (f.segLen j)

/-- The IV of segment j: NONCE_BASE and j, big-endian. -/
def Stored.iv (f : Stored) (j : Nat) : List Nat := (f.bytes.drop 32).take 8 ++ beBytes 4 j

/-- The additional authenticated data: header bytes 0 to 31. -/
def Stored.aad (f : Stored) : List Nat := f.bytes.take 32

/-- TAG[j]. -/
def Stored.tag (f : Stored) (j : Nat) : List Nat := (f.bytes.drop (4096 + 16 * j)).take 16

/-- The plaintext of segment j, none when its tag does not verify or the image key is missing. -/
def Stored.openSegment (f : Stored) (j : Nat) : Option (List Nat) :=
  f.key.bind fun k => gcmOpen k (f.iv j) f.aad (f.segment j) (f.tag j)

/-- The plaintext of n segments from segment j on, up to the first whose tag does not verify; whether all verified. -/
def Stored.openFrom (f : Stored) : Nat → Nat → List Nat × Bool
  | 0, _ => ([], true)
  | n + 1, j =>
    match f.openSegment j with
    | none => ([], false)
    | some p =>
      let r := f.openFrom n (j + 1)
      (p ++ r.1, r.2)

/-- The plaintext as far as it verifies. -/
def Stored.plain (f : Stored) : List Nat × Bool := f.openFrom f.nseg 0

/-! ### The sentence (R359, R360, R362 to R365) -/

/-- The items of a body. -/
def itemsOf : Nat → List Nat → List CfgItem
  | 0, _ => []
  | n + 1, b => (fieldOf b 0 4, fieldOf b 4 4) :: itemsOf n (b.drop 8)

/-- 64-bit entries. -/
def entriesOf : Nat → List Nat → List Nat
  | 0, _ => []
  | n + 1, b => fieldOf b 0 8 :: entriesOf n (b.drop 8)

/-- A clause from its 16 header bytes and its body (R360, R364). -/
def clauseOf (h body : List Nat) : Clause :=
  let items := itemsOf (body.length / 8) body
  if crc32c (h.take 12 ++ body) ≠ fieldOf h 12 4 then .broken
  else
    match h.headD 0 with
    | 1 => .place (h.getD 1 0) (fieldOf h 2 2) items
    | 2 => .wire (h.getD 1 0) (fieldOf h 2 2) items
    | 3 =>
      if body.length = 8 + 8 * fieldOf body 4 4 then
        .load (h.getD 1 0) (fieldOf h 2 2) (fieldOf body 0 4) (entriesOf (fieldOf body 4 4) (body.drop 8))
      else .broken
    | 4 => .set (h.getD 1 0) (fieldOf h 2 2) items
    | 255 => if body.isEmpty then .fin else .broken
    | _ => .broken

/-- The clauses in the bytes `b`, of `left` bytes that remain of the sentence: bytes that have not verified end the list, a clause that
does not fit the sentence is broken. At most n clauses. -/
def clausesOf : Nat → List Nat → Nat → List Clause
  | 0, _, _ => []
  | n + 1, b, left =>
    let len := fieldOf b 4 4
    if left = 0 then []
    else if left < 16 then [.broken]
    else if b.length < 16 then []
    else if len % 8 ≠ 0 ∨ left < 16 + len then [.broken]
    else if b.length < 16 + len then []
    else clauseOf (b.take 16) ((b.drop 16).take len) :: clausesOf n (b.drop (16 + len)) (left - (16 + len))

/-- The clauses of a sentence; a sentence without its magic has none that parses. -/
def sentenceClauses (p : List Nat) (sentLen : Nat) : List Clause :=
  if p.length < 32 then []
  else if p.take 4 ≠ [0x53, 0x4E, 0x54, 0x43] then [.broken]
  else clausesOf (sentLen / 16) (p.drop 32) (sentLen - 32)

/-- What the checks of R367 find in a stored image. -/
def Stored.image (f : Stored) : Image :=
  let p := f.plain
  let cs := sentenceClauses p.1 f.sentLen
  { flashOk := f.flashOk, headerOk := f.headerOk, keySlot := f.bytes.getD 6 0, sigOk := f.sigOk, unwrapOk := f.key.isSome,
    tagFail := if p.2 then none else some cs.length, digestOk := f.digestOk, dramOk := f.dramOk,
    imageVer := fieldOf f.bytes 8 4, svn := fieldOf f.bytes 12 4, epoch := fieldOf f.bytes 16 8, digest := f.digest,
    nclause := fieldOf p.1 4 4, sentEpoch := fieldOf p.1 8 8, clauses := cs }

end Sys2Proof.Machine
end

