-- ==== Sys2Proof/Machine/Image.lean ====
section
/-!
DEFINITION. The sentence of an Etfer image (R359 to R366): what its clauses place, wire, load and set, and when an image is
invalid; row repairs (R329).
-/
namespace Sys2Proof.Machine

/-! ### Row repair (R329, R423) -/

/-- Switch a spare row in for (macro, row); a macro has four. The answer's second part says that it was done. -/
def State.repairRow (s : State) (m r : Nat) : State × Bool :=
  if s.mem.repaired.contains (m, r) then (s, false)
  else if 4 ≤ (s.mem.repaired.filter fun p => p.1 = m).length then (s.raise E.MEM_REPAIR_OVERFLOW 0, false)
  else ({ s with mem := { s.mem with repaired := s.mem.repaired ++ [(m, r)] } }, true)

/-- A repair that MEM_REPAIR counts in a field. -/
def State.countedRepair (s : State) (f : Field) (m r : Nat) : State :=
  let x := s.repairRow m r
  if x.2 then x.1.count f 0 else x.1

/-! ### Subjects and verbs (R360, R361) -/

/-- The number of instances of a subject kind, 0 when the kind is unknown. -/
def subjectCount (k : Nat) : Nat :=
  match k with
  | 0x02 => 256
  | 0x03 => 32
  | 0x04 => 32
  | 0x05 => 32
  | 0x06 => 8
  | 0x07 => 128
  | 0x10 => 8
  | _ => if 1 ≤ k ∧ k ≤ 0x0F then 1 else 0

/-- The deck of an instance of a subject kind, when it belongs to one. -/
def subjectDeck (k i : Nat) : Option Nat :=
  match k with
  | 0x02 => some (i / 32)
  | 0x03 => some (i / 4)
  | 0x04 => some (i / 4)
  | 0x05 => some (i / 4)
  | 0x06 => some i
  | 0x07 => some (i / 16)
  | _ => none

/-- The kinds that take PLACE, WIRE, LOAD and SET. -/
def takesPlace (k : Nat) : Bool := k == 0x03 || k == 0x04 || k == 0x05 || k == 0x06 || k == 0x0C || k == 0x10
def takesWire (k : Nat) : Bool := k == 0x03 || k == 0x05 || k == 0x06
def takesLoad (k : Nat) : Bool := k == 0x03 || k == 0x04 || k == 0x07 || k == 0x0A
def takesSet (k : Nat) : Bool := subjectCount k != 0 && k != 0x10

/-- The deck is placed as PRESENT. -/
def State.present (s : State) (d : Nat) : Bool := (vget s.decks {} d).present

/-- The instances a clause applies to; none when its INDEX is out of range or names a unit of an absent deck. -/
def State.instances (s : State) (k index : Nat) : Option (List Nat) :=
  let there (i : Nat) : Bool := match subjectDeck k i with | some d => s.present d | none => true
  if subjectCount k = 0 then none
  else if index = 0xFFFF then some ((List.range (subjectCount k)).filter fun i => if k = 0x10 then s.present i else there i)
  else if index < subjectCount k && there index then some [index]
  else none

/-! ### PLACE (R362) and WIRE (R363) -/

/-- A PLACE item: the state with it, none when its ID or VALUE is out of range. -/
def State.placeItem (s : State) (k i id v : Nat) : Option State :=
  let ok (b : Bool) (t : State) : Option State := if b then some t else none
  match k with
  | 0x10 => ok (id == 1 && decide (v ≤ 1)) (s.updWnd i fun w => { w with present := v == 1 })
  | 0x03 =>
    if id = 1 then ok (v == 3 || v == 7) (s.forEach (List.range 3) fun t j => t.setB F.CLR_LOOP_CTL_PLACED (3 * i + j) (v.testBit j))
    else if 0x10 ≤ id ∧ id < 0x13 then ok (decide (v ≤ 12)) (s.setF F.CLR_LOOP_CTL_NSOS (3 * i + (id - 0x10)) v)
    else if 0x20 ≤ id ∧ id < 0x23 then ok (decide (v ≤ 12)) (s.setF F.CLR_LOOP_CTL_INT_TAP (3 * i + (id - 0x20)) v)
    else if id = 0x30 then ok (decide (v ≤ 1)) (s.updClr i fun c => { c with shaped := v == 1 })
    else none
  | 0x04 => ok (id == 1 && decide (v ≤ 65535)) (s.setF F.LRN_MOUNT_MOUNT i v)
  | 0x05 =>
    match id with
    | 1 => ok (decide (1 ≤ v ∧ v ≤ 1048575)) (s.setF F.SLD_GEOM_STEP_PM i v)
    | 2 => ok (decide (v ≤ 3)) (s.setF F.SLD_GEOM_MICRO i v)
    | 3 => ok (decide (v ≤ 7)) (s.setF F.SLD_GEOM_GROUP i v)
    | 4 => ok (decide (v ≤ 1)) (s.setF F.SLD_GEOM_HOME_DIR i v)
    | 5 => ok (decide (1 ≤ v ∧ v ≤ 0xFFFFFF)) (s.setF F.SLD_AHARD_AHARD i v)
    | _ => none
  | 0x06 =>
    match id with
    | 1 => ok (decide (v ≤ 1)) (s.setF F.WND_MOTOR_CLASS i v)
    | 2 => ok (decide (1 ≤ v ∧ v ≤ 15)) (s.setF F.WND_MOTOR_P i v)
    | 3 => ok (decide (1000 ≤ v ∧ v ≤ 5330)) (s.setF F.WND_MOTOR_SPD_MIN i v)
    | 4 => ok (decide (1000 ≤ v ∧ v ≤ 5330)) (s.setF F.WND_MOTOR_SPD_MAX i v)
    | 5 => ok (decide (1 ≤ v ∧ v < 2 ^ 12)) (s.setF F.WND_MODEL_KE_I_FS i v)
    | 6 => ok (decide (1 ≤ v ∧ v < 2 ^ 16)) (s.setF F.WND_MODEL_RL_RS i v)
    | 7 => ok (decide (1 ≤ v ∧ v < 2 ^ 16)) (s.setF F.WND_MODEL_RL_LS i v)
    | 8 => ok (decide (1 ≤ v ∧ v < 2 ^ 20)) (s.setF F.WND_MODEL_KE_KE i v)
    | _ => none
  | 0x0C => ok (id == 1 && decide (2 ≤ v ∧ v ≤ 16)) ((s.setF F.LCA_WAY_STATUS_WAYS 0 v).setF F.LCA_WAY_STATUS_ON 0 (2 ^ v - 1))
  | _ => none

/-- A WIRE item. -/
def State.wireItem (s : State) (k i id v : Nat) : Option State :=
  let ok (b : Bool) (t : State) : Option State := if b then some t else none
  match k with
  | 0x03 =>
    if 0x10 ≤ id ∧ id < 0x13 then
      ok (decide (v ≤ 3 ∨ (7 ≤ v ∧ v ≤ 15))) (s.setF F.CLR_LOOP_CTL_SRC (3 * i + (id - 0x10)) v)
    else none
  | 0x05 =>
    match id with
    | 1 => ok (decide (v ≤ 1)) (s.updSld i fun a => { a with swap := v == 1 })
    | 2 => ok (decide (v ≤ 1)) (s.updSld i fun a => { a with invert := v == 1 })
    | _ => none
  | 0x06 => ok (id == 1 && decide (v ≤ 5)) (s.updWnd i fun w => { w with phases := v })
  | _ => none

/-- Apply items one after another. -/
def applyItems (f : State → Nat → Nat → Option State) : State → List CfgItem → Option State
  | s, [] => some s
  | s, x :: xs => match f s x.1 x.2 with | some t => applyItems f t xs | none => none

/-- Apply something to every instance. -/
def applyAll (f : State → Nat → Option State) : State → List Nat → Option State
  | s, [] => some s
  | s, i :: is => match f s i with | some t => applyAll f t is | none => none

/-- What every PLACE of a kind must hold, and the relations of its items (R362). -/
def State.placeComplete (s : State) (k i : Nat) (items : List CfgItem) : Bool :=
  let has (id : Nat) : Bool := items.any fun x => x.1 = id
  match k with
  | 0x03 => has 1 && (List.range 3).all fun j =>
      !s.isSet F.CLR_LOOP_CTL_PLACED (3 * i + j) || (has (0x10 + j) && has (0x20 + j) &&
        decide (s.getF F.CLR_LOOP_CTL_INT_TAP (3 * i + j) ≤ s.getF F.CLR_LOOP_CTL_NSOS (3 * i + j)))
  | 0x05 => [1, 2, 3, 4, 5].all has
  | 0x06 => [1, 2, 3, 4, 5, 6, 7, 8].all has && decide (s.getF F.WND_MOTOR_SPD_MIN i ≤ s.getF F.WND_MOTOR_SPD_MAX i)
  | _ => has 1

/-! ### SET (R365) -/

/-- The PF1 BAR0 ranges of a subject kind's block, by the offset of a register's instance 0. -/
def subjectRange (k : Nat) : Nat × Nat :=
  match k with
  | 0x01 => (0x100000, 0x200000)
  | 0x02 => (0x800000, 0xA00000)
  | 0x03 => (0x400000, 0x40C000)
  | 0x04 => (0x40C000, 0x410000)
  | 0x05 => (0x700000, 0x800000)
  | 0x06 => (0x600000, 0x700000)
  | 0x07 => (0xA00000, 0xC00000)
  | 0x08 => (0xC00000, 0xC40000)
  | 0x09 => (0xC40000, 0xD00000)
  | 0x0A => (0xD00000, 0xE00000)
  | 0x0B => (0xE00000, 0xE40000)
  | 0x0C => (0xE40000, 0x1000000)
  | 0x0D => (0x1100000, 0x1200000)
  | 0x0E => (0x1200000, 0x1300000)
  | 0x0F => (0x300000, 0x400000)
  | _ => (0, 0)

/-- A register that a SET item of a kind may name. -/
def RegDef.settable (r : RegDef) (k : Nat) : Bool :=
  decide ((subjectRange k).1 ≤ r.base ∧ r.base < (subjectRange k).2) && r.bits == 32 && r.fields.any fun f => f.acc = .rw

/-- The instance of a register for instance i of a subject, when an item names instance j of it: a register of one instance is
the block's; another belongs to the unit its first index names. `any` says that the clause names every instance. -/
def RegDef.forSubject (r : RegDef) (k i j : Nat) (any : Bool) : Option Nat :=
  match r.dims with
  | [] => some j
  | (c, _) :: ds =>
    let inner := (ds.map (·.1)).prod
    let u := i * c / subjectCount k
    if any || j / inner = u then some (u * inner + j % inner) else none

/-- A SET item that names a register: register and instance. -/
def setItemReg (k i id : Nat) (any : Bool) : Option (RegDef × Nat) :=
  match locateIn (allRegs.filter fun r => r.settable k) id with
  | some (r, j) => (r.forSubject k i j any).map fun x => (r, x)
  | none => none

/-- The installed capacity in GiB. -/
def State.gib (s : State) : Nat :=
  popCount8 (s.getF F.MEM_STATUS_CHANNELS 0) * (s.getF F.MEM_STATUS_RANKS2 0 + 1) * (8 * 2 ^ s.getF F.MEM_STATUS_DENSITY 0)

/-- A parameter of MEM (R365). -/
def State.memParam (s : State) (id v : Nat) : Option State :=
  let ok (b : Bool) (t : State) : Option State :=
    if b && !(t.isSet F.MEM_STATUS_RANKS2 0 && t.getF F.MEM_STATUS_DENSITY 0 == 2) then some (t.setF F.MEM_STATUS_GIB 0 t.gib) else none
  match id with
  | 0x80000001 => ok (decide (v ≤ 2)) (s.setF F.MEM_STATUS_RATE 0 v)
  | 0x80000002 => ok (v == 3 || v == 15) (s.setF F.MEM_STATUS_CHANNELS 0 v)
  | 0x80000003 => ok (v == 1 || v == 2) (s.setF F.MEM_STATUS_RANKS2 0 (v - 1))
  | 0x80000004 => ok (decide (v ≤ 2)) (s.setF F.MEM_STATUS_DENSITY 0 v)
  | 0x80000010 =>
    if bitsOf v 31 25 = 0 && bitsOf v 15 7 = 0 then some (s.countedRepair F.MEM_REPAIR_SOFT (bitsOf v 24 16) (bitsOf v 6 0)) else none
  | _ => none

/-- A SET item; a register write that the block's rules would refuse is out of range when `check` says so. -/
def State.setItem (s : State) (k i : Nat) (any check : Bool) (id v : Nat) : Option State :=
  if 2 ^ 31 ≤ id then (if k = 0x0B then (if check then s.memParam id v else some s) else none)
  else
    match setItemReg k i id any with
    | some (r, j) => if check && !s.writeOk r j v then none else some (s.storeReg r j v)
    | none => none

/-! ### LOAD (R364) -/

/-- The tables a LOAD of a kind may fill. -/
def loadTables (k : Nat) : List RegDef :=
  match k with
  | 0x03 => [R.CLR_COEF]
  | 0x04 => [R.LRN_SCALE]
  | 0x07 => [R.CHN_ZONE, R.CHN_EQ_START]
  | 0x0A => [R.WRP_POWER]
  | _ => []

/-- The bits of a register that its fields take up.
DEDUCED, unsafe: log 53. -/
def RegDef.usedBits (r : RegDef) : Nat := r.fields.foldl (fun m f => m + (2 ^ (f.hi - f.lo + 1) - 1) * 2 ^ f.lo) 0

/-- Write a loaded entry; coefficients go to both shadow and live. -/
def State.loadEntry (s : State) (r : RegDef) (i w : Nat) : State :=
  let s1 := s.putEntry r i w
  if r = R.CLR_COEF then s1.putEntry R.CLR_COEF_LIVE i w else s1

/-- The units of a table: entries of one unit are one target, the write path's whole table is one. -/
def targetOf (k : Nat) (r : RegDef) (i : Nat) : Nat := if k = 0x0A ∨ k = 0x04 then 0 else r.unit i

/-- Fill a table from an address on, for instance i of a subject.
DEDUCED, unsafe: log 53. -/
def State.loadEntries (s : State) (k i : Nat) (any : Bool) (r0 : RegDef) (t0 : Nat) : Nat → List Nat → Option State
  | _, [] => some s
  | a, w :: ws =>
    match locateIn (loadTables k) a with
    | none => none
    | some (r, j) =>
      if r.base = r0.base && targetOf k r j == t0 && w &&& r.usedBits == w then
        let inner := (r.dims.tail.map (·.1)).prod
        let x := if any && k != 0x0A && k != 0x04 then i * inner + j % inner else j
        (s.loadEntry r x w).loadEntries k i any r0 t0 (a + 8) ws
      else none

/-- A LOAD for one instance. -/
def State.loadFor (s : State) (k i offset : Nat) (any : Bool) (entries : List Nat) : Option State :=
  if entries.isEmpty then some s
  else
    match locateIn (loadTables k) offset with
    | none => none
    | some (r, j) =>
      if any || k == 0x0A || r.unit j == i then s.loadEntries k i any r (targetOf k r j) offset entries else none

/-! ### Clauses (R366) -/

/-- The state while a sentence is applied: what has been placed and wired: (kind, instance), (Collier, loop). -/
structure Placing where
  st : State
  placed : List (Nat × Nat) := []
  wired : List (Nat × Nat) := []
  ended : Bool := false

/-- Every instance has its PLACE, where the kind takes one. -/
def Placing.ready (p : Placing) (k : Nat) (is : List Nat) : Bool :=
  !takesPlace k || is.all fun i => p.placed.contains (k, i)

/-- Apply one clause; none when it is invalid. -/
def Placing.clause (p : Placing) (c : Clause) : Option Placing :=
  if p.ended then none
  else
    match c with
    | .broken => none
    | .fin => some { p with ended := true }
    | .place k x items =>
      match p.st.instances k x with
      | none => none
      | some is =>
        if !takesPlace k || is.any fun i => p.placed.contains (k, i) then none
        else
          (applyAll (fun s i =>
            match applyItems (fun t id v => t.placeItem k i id v) s items with
            | some t => if t.placeComplete k i items then some t else none
            | none => none) p.st is).map fun s => { p with st := s, placed := p.placed ++ is.map fun i => (k, i) }
    | .wire k x items =>
      match p.st.instances k x with
      | none => none
      | some is =>
        if !takesWire k || !p.ready k is then none
        else
          (applyAll (fun s i => applyItems (fun t id v => t.wireItem k i id v) s items) p.st is).map fun s =>
            { p with st := s, wired := if k = 0x03 then p.wired ++ is.flatMap fun i => items.map fun t => (i, t.1 - 0x10) else p.wired }
    | .set k x items =>
      match p.st.instances k x with
      | none => none
      | some is =>
        if !takesSet k || !p.ready k is then none
        else
          (applyAll (fun s i => applyItems (fun t id v => t.setItem k i (x == 0xFFFF) true id v) s items) p.st is).map fun s =>
            { p with st := s }
    | .load k x offset entries =>
      match p.st.instances k x with
      | none => none
      | some is =>
        if !takesLoad k || !p.ready k is || (k == 0x04 && x != 0xFFFF) then none
        else
          (applyAll (fun s i => s.loadFor k i offset (x == 0xFFFF) entries) p.st (if k = 0x04 then [0] else is)).map fun s =>
            { p with st := s }

/-- Apply clauses from number n on: what they leave, or the number of the first invalid one. -/
def Placing.clauses : Placing → Nat → List Clause → Placing ⊕ Nat
  | p, _, [] => .inl p
  | p, n, c :: cs =>
    match p.clause c with
    | some q => q.clauses (n + 1) cs
    | none => .inr n

/-- Everything required has been placed, and every placed loop has its input (R363, R366). -/
def Placing.complete (p : Placing) : Bool :=
  p.placed.contains (0x0C, 0) &&
  ((List.range 8).filter fun d => p.st.present d).all fun d =>
    p.placed.contains (0x06, d) &&
    (List.range 4).all fun j =>
      let h := 4 * d + j
      p.placed.contains (0x03, h) && p.placed.contains (0x04, h) && p.placed.contains (0x05, h) &&
      (List.range 3).all fun i => !p.st.isSet F.CLR_LOOP_CTL_PLACED (3 * h + i) || p.wired.contains (h, i)

/-- The cycles a placed Collier costs (R107). -/
def State.colCost (s : State) (h : Nat) : Nat :=
  let loop (i : Nat) : Nat := if s.isSet F.CLR_LOOP_CTL_PLACED (3 * h + i) then 30 + 20 * s.getF F.CLR_LOOP_CTL_NSOS (3 * h + i) else 0
  180 + loop 0 + loop 1 + loop 2 + (if (s.cl h).shaped then 32 else 12)

/-- How the application of a sentence ends: the state with everything placed, or a cause with the clause that FAIL_CLAUSE names. -/
inductive LoadRes where
  | placed (s : State)
  | failed (cause clause : Nat)

/-- Step 7 of R367: the clauses whose segments verify are applied; 9, 10 and 7 are the causes. -/
def State.applySentence (s : State) (im : Image) : LoadRes :=
  let cs := match im.tagFail with | some n => im.clauses.take n | none => im.clauses
  match Placing.clauses { st := s } 0 cs with
  | .inr n => .failed 9 n
  | .inl p =>
    if im.tagFail.isSome then .failed 7 0xFFFF
    else if !p.ended || im.nclause != im.clauses.length || im.sentEpoch != im.epoch || !p.complete then .failed 9 0xFFFF
    else if (List.range 32).any fun h => p.placed.contains (0x03, h) && decide (1040 < p.st.colCost h) then .failed 10 0xFFFF
    else .placed p.st

end Sys2Proof.Machine
end

