-- ==== Sys2Proof/Machine/Lca.lean ====
section
/-!
DEFINITION. What software and peer windows do with the lode cache (R341, R344 to R347): way power, accesses of peer windows,
maintenance and preload. The lines themselves and fills are in Cache.lean, the meanings in LcaCmds.lean.
-/
namespace Sys2Proof.Machine

/-! ### Ways (R344) -/

/-- A request of the cache is refused. -/
def State.lcaReject (s : State) : State := s.raise E.LCA_CFG_REJECT 0

/-- An operation runs. -/
def State.lcaBusy (s : State) : Bool := s.isSet F.LCA_OP_STATUS_BUSY 0

/-- Ways that are on and not asked to go off, way w apart. -/
def State.waysLeft (s : State) (w : Nat) : Nat :=
  ((List.range 16).filter fun k => k != w && s.wayOn k && !s.wayOffAsked k).length

/-- Clean and invalidate a whole way. -/
def State.emptyWay (s : State) (w : Nat) (x : CacheErr) : State :=
  s.forEach (s.cache.filter fun l => l.way = w) fun t l => t.evict l x

/-- Setting OFF bit w. -/
def State.wayDown (s : State) (w : Nat) (x : CacheErr) : State :=
  if s.wayOffAsked w then s
  else if s.ways ≤ w then s.putF F.LCA_WAY_CTL_OFF 0 w true
  else if s.wayLocked w || decide (s.waysLeft w < 2) then s.lcaReject
  else
    let s1 := s.putF F.LCA_WAY_CTL_OFF 0 w true
    if s1.lcaBusy then s1 else s1.emptyWay w x

/-- Clearing OFF bit w: a way that is off comes up with every line invalid. -/
def State.wayUp (s : State) (w : Nat) : State := s.putF F.LCA_WAY_CTL_OFF 0 w false

/-- A way finishes powering down; it waits for a maintenance operation that runs (R348). -/
def State.wayOffDone (s : State) (w : Nat) (x : CacheErr) : State :=
  if s.wayOffAsked w && s.wayOn w && !s.lcaBusy && decide (w < s.ways) then
    ((s.emptyWay w x).putF F.LCA_WAY_STATUS_ON 0 w false).raise E.LCA_WAY_OFF 0
  else s

/-- A way has come up. -/
def State.wayOnDone (s : State) (w : Nat) : State :=
  if !s.wayOffAsked w && !s.wayOn w && decide (w < s.ways) then s.putF F.LCA_WAY_STATUS_ON 0 w true else s

/-! ### Accesses of peer windows (R341) -/

/-- A peer read of a line: a hit is served from the cache, a miss from DRAM without allocation. -/
def State.peerLine (s : State) (n : Nat) : State × Option (List Nat) :=
  match s.cached n with
  | some l => (s.hit l, some l.data)
  | none => (s.count F.LCA_MISSES_COUNT 0).readLine srcPeer n

/-- A peer write of a whole line: a hit updates the line, a miss goes to DRAM. -/
def State.peerPut (s : State) (n : Nat) (data : List Nat) : State :=
  match s.cached n with
  | some l => s.hit { l with data := data, dirty := true }
  | none => (s.count F.LCA_MISSES_COUNT 0).putLine n data

/-! ### Maintenance (R346, R347) -/

/-- The operations on a line. -/
inductive LcaOp where
  | clean | invalidate | cleanInvalidate
  deriving DecidableEq, Repr

/-- Count lines acted on and lines skipped. -/
def State.lcaCount (s : State) (a k : Nat) : State := s.updLca fun x => { x with result := (x.result.1 + a, x.result.2 + k) }

/-- One line of a range operation: an invalidation skips the lines of a locked way.
DEDUCED, unsafe: log 41. -/
def State.rangeLine (s : State) (op : LcaOp) (x : CacheErr) (l : CacheLine) : State :=
  let lock := s.wayLocked l.way
  match op with
  | .clean => (s.cleanLine l x).lcaCount l.dirty.toNat 0
  | .invalidate => if lock then s.lcaCount 0 1 else (s.dropLine l.way l.set).lcaCount 1 0
  | .cleanInvalidate => if lock then (s.cleanLine l x).lcaCount l.dirty.toNat 1 else (s.evict l x).lcaCount 1 0

/-- The line of an operation by set and way: a locked one only with FORCE. -/
def State.placeLine (s : State) (op : LcaOp) (force : Bool) (x : CacheErr) (l : CacheLine) : State :=
  if s.wayLocked l.way && !force then s.lcaCount 0 1
  else
    match op with
    | .clean => (s.cleanLine l x).lcaCount l.dirty.toNat 0
    | .invalidate => (s.dropLine l.way l.set).lcaCount 1 0
    | .cleanInvalidate => (s.evict l x).lcaCount 1 0

/-- The cached lines of a range, in increasing line number. -/
def State.cachedRange (s : State) (a b : Nat) : List CacheLine :=
  (s.cache.filter fun l => a ≤ l.number ∧ l.number ≤ b).mergeSort fun x y => decide (x.number ≤ y.number)

/-- An operation is accepted: BUSY. -/
def State.lcaStart (s : State) : State :=
  (((s.setB F.LCA_OP_STATUS_BUSY 0 true).setB F.LCA_OP_STATUS_DONE 0 false).setB F.LCA_OP_STATUS_REFUSED 0 false).updLca fun x =>
    { x with result := (0, 0) }

/-- A tag or state that is uncorrectable is device-fatal (R340). -/
def State.tagCheck (s : State) (x : CacheErr) : State := if x.tag then s.deviceFatal E.LCA_TAG_UE else s

/-- A maintenance operation by GO. -/
def State.lcaMaintain (s : State) (op : LcaOp) (place force : Bool) (x : CacheErr) : State :=
  if s.lcaBusy then s.lcaReject
  else
    let a := s.getF F.LCA_OP_START_LINE 0
    let b := s.getF F.LCA_OP_END_LINE 0
    let s1 := s.lcaStart
    let s2 :=
      if place then
        match s1.lineAt (a % 16) (a / 16 % 8192) with
        | some l => s1.placeLine op force x l
        | none => s1
      else s1.forEach (s1.cachedRange a b) fun t l => t.rangeLine op x l
    s2.tagCheck x

/-! ### Preload (R345) -/

/-- The line that stands in the way of line n in way w is evicted. -/
def State.makeRoom (s : State) (w n : Nat) (x : CacheErr) : State :=
  match s.lineAt w (n % 8192) with
  | some o => s.evict o x
  | none => s

/-- Load a line into way w from DRAM, after the line there has been evicted; a line that cannot be read is not installed. -/
def State.loadLine (s : State) (w : Nat) (x : CacheErr) (n : Nat) : State :=
  match (s.makeRoom w n x).readLine srcCache n with
  | (t, some d) => (t.installLine { way := w, set := n % 8192, tag := n / 8192, data := d }).lcaCount 1 0
  | (t, none) => t

/-- One line of a preload into way w: a copy in another way is moved, any other line is read from DRAM. -/
def State.preloadLine (s : State) (w : Nat) (x : CacheErr) (n : Nat) : State :=
  match s.cached n with
  | some l =>
    if l.way = w then s.loadLine w x n
    else (((s.makeRoom w n x).dropLine l.way l.set).installLine { l with way := w }).lcaCount 1 0
  | none => s.loadLine w x n

/-- Every line of a range of installed DRAM exists. -/
def State.rangeExists (s : State) (b : Nat) : Bool := decide (b < s.dramLines)

/-- The preload is refused: a way that is locked or off, or a range that is no range of at most 8,192 lines. -/
def State.preloadRefused (s : State) (w : Nat) : Bool :=
  let a := s.getF F.LCA_OP_START_LINE 0
  let b := s.getF F.LCA_OP_END_LINE 0
  s.wayLocked w || !s.wayOn w || s.wayOffAsked w || decide (s.ways ≤ w) || decide (b < a) || decide (a + 8192 ≤ b)

/-- A preload of way w.
DEDUCED, unsafe: log 16. -/
def State.lcaPreload (s : State) (w : Nat) (x : CacheErr) : State :=
  let a := s.getF F.LCA_OP_START_LINE 0
  let b := s.getF F.LCA_OP_END_LINE 0
  if s.lcaBusy then s.lcaReject
  else if s.preloadRefused w then
    (((s.setB F.LCA_OP_STATUS_DONE 0 false).setB F.LCA_OP_STATUS_REFUSED 0 true)).lcaReject
  else
    (s.lcaStart.forEach ((List.range (b + 1 - a)).map (a + ·)) fun t n => t.preloadLine w x n).tagCheck x

/-- The operation that runs completes. -/
def State.lcaDone (s : State) : State :=
  if !s.lcaBusy then s
  else
    let r := s.mem.lca.result
    ((((s.setB F.LCA_OP_STATUS_BUSY 0 false).setB F.LCA_OP_STATUS_DONE 0 true).setF F.LCA_OP_STATUS_AFFECTED 0 (min r.1 32767)).setF
      F.LCA_OP_STATUS_SKIPPED 0 (min r.2 16383)).raise E.LCA_OP_DONE 0

end Sys2Proof.Machine
end

