-- ==== Sys2Proof/Machine/ClrCmds.lean ====
section
/-!
DEFINITION. The meanings of the Collier rows (05): coefficient commit, read power, media operations and the steps of their
sequences, HOLD, enable, disable and fault reset.
-/
namespace Sys2Proof.Machine

/-! ### Coefficients and read power (R104, R110) -/

/-- CLR_COEF_COMMIT.GO, with or without ZERO_STATE (R104). -/
def State.commitCoef (s : State) (h : Nat) (zero : Bool) : State :=
  let s1 := (s.setB F.CLR_COEF_COMMIT_PEND h true).setB F.CLR_STATUS_COMMIT_PEND h true
  s1.onlyIf zero fun t => t.setB F.CLR_COEF_COMMIT_ZERO_STATE h true

/-- COEF_COMMIT. -/
def execCoefCommit (h : Fin 32) (zero : Bool) (s : State) : Out := doneW s fun t => t.commitCoef h zero

/-- COEF_COPY: at the next tick outside WRITE. -/
def execCoefCopy (h : Fin 32) (s : State) : Out :=
  done s fun t => if t.isSet F.CLR_COEF_COMMIT_PEND h && t.clr h != hdWRITE then t.coefCopy h else t

/-- RP_EVALUATION. -/
def execRpEvaluation (h : Fin 32) (s : State) : Out := done s fun t => if t.rpDue h then t.rpEvaluate h else t

/-! ### Taking a media operation (R118, R122, R295, R319) -/

/-- The command engine has the axis homed before the head's first operation (R122). -/
def State.axisAwaited (s : State) (h : Nat) : Bool := s.axis h = slUNHOMED || s.axis h = slHOMING

/-- The head takes an operation at its idle point. -/
def State.startOp (s : State) (h : Nat) (o : MediaOp) : State :=
  if s.clr h = hdPARKED then
    if o.kind = .park then s.finishOp h else (s.startPower h).beginAcquire h o.layer
  else s.continueOp h

/-- Take the first queued operation (R118). -/
def State.takeOp (s : State) (h : Nat) : State :=
  match (s.head h).ops with
  | [] => s
  | o :: rest =>
    if !s.idlePoint h || s.frozen || s.isSet F.HQI_CSTS_HELD 0 then s
    else if s.clr h == hdPARKED && o.kind != .park && !s.angleValid (deckOfHead h) then s
    else if o.kind != .park && s.axisAwaited h then s.startHoming h
    else (s.setHead h { s.head h with ops := rest, op := some o }).startOp h o

/-- MEDIA_OPERATION_TAKE. -/
def execMediaOperationTake (h : Fin 32) (s : State) : Out := doneQ s fun t => t.takeOp h

/-! ### Acquisition (R118, R120) -/

/-- Acquisition has used up its sweeps or its time. -/
def State.acqExhausted (s : State) (h : Nat) : Bool :=
  let amp : Int := s.s15 h F.CLR_FA_CTL_AMP
  match (s.cl h).seq with
  | some (.ramp k f) => decide (f = -amp) && decide (s.faTries h ≤ k)
  | some (.acqTrack t) => decide (4000 ≤ t)
  | _ => false

/-- The head retracts and parks; its operation is interrupted (R118). -/
def State.toParked (s : State) (h : Nat) : State := (s.interruptOp h true).setClr h hdPARKED

/-- ACQ_FAIL. -/
def execAcqFail (h : Fin 32) (s : State) : Out :=
  doneQ s fun t => if t.acqExhausted h then (t.raise E.CLR_ACQ_FAIL h).toParked h else t

/-! ### Jumps and seeks (R121, R122) -/

/-- The kick of a jump in S0.23. -/
def State.jumpKick (s : State) (h : Nat) : Int := s.s15 h F.CLR_JUMP_CTL_KICK

/-- The brake pulse at half of the lands. -/
def State.jumpBrake (s : State) (h : Nat) : State :=
  match (s.cl h).seq with
  | some (.kick a d n c t r rep) =>
    if (n + 1) / 2 ≤ c then
      (s.driveLoop h 1 (sat23 ((s.loop h 1).acc - d * s.jumpKick h))).setSeq h (some (.brake a d n c t r rep))
    else s
  | _ => s

/-- JUMP_BRAKE. -/
def execJumpBrake (h : Fin 32) (s : State) : Out := done s fun t => t.jumpBrake h

/-- Tracking closes for SETTLE. -/
def State.jumpSettle (s : State) (h : Nat) : State :=
  match (s.cl h).seq with
  | some (.brake a _ n c t r rep) =>
    if n ≤ c then (s.closeLoop h 1 none true).setSeq h (some (.settle a t r rep)) else s
  | _ => s

/-- JUMP_SETTLE. -/
def execJumpSettle (h : Fin 32) (s : State) : Out := done s fun t => t.jumpSettle h

/-- A jump or a seek has missed its time or its track.
DEDUCED, unsafe: log 27. -/
def State.seekMissed (s : State) (h : Nat) : Bool :=
  let late (t : Nat) := decide (16 * s.getF F.CLR_JUMP_CTL_TMO h ≤ t)
  match (s.cl h).seq with
  | some (.kick _ _ _ _ t _ _) => late t
  | some (.brake _ _ _ _ t _ _) => late t
  | some (.settle a t r _) =>
    late t || (s.isSet F.CLR_STATUS_TF h && s.getF F.CLR_POS_TRACK h != a && decide (2 ≤ r))
  | some (.sledTrack _ _ t) => decide (4000 ≤ t) && !s.isSet F.CLR_STATUS_TF h
  | some (.hopTrack t) => decide (4000 ≤ t) && !s.isSet F.CLR_STATUS_TF h
  | _ => false

/-- SEEK_FAIL.
DESIGN CHOICE, unsafe: log 2. -/
def execSeekFail (h : Fin 32) (s : State) : Out := doneQ s fun t => if t.seekMissed h then t.seekFail h else t

/-- SLED_ARRIVED. -/
def execSledArrived (h : Fin 32) (s : State) : Out :=
  done s fun t =>
    match (t.cl h).seq with
    | some (.sledMove a rep true z) => if 2 ≤ z then t.setSeq h (some (.sledTrack a rep 0)) else t
    | _ => t

/-- SEEK_COMPLETE. -/
def execSeekComplete (h : Fin 32) (s : State) : Out :=
  doneQ s fun t =>
    if t.clr h == hdSEEK && decide ((t.cl h).seq = some .ended) && t.isSet F.CLR_STATUS_TF h then t.enterFollow h else t

/-! ### Layer hops (R123) -/

/-- Focus opens with the kick. -/
def State.hopKick (s : State) (h : Nat) : State :=
  match (s.cl h).seq with
  | some (.hop a d t 0 p ok) =>
    if s.getF F.CLR_LAYER_CTL_KT h ≤ t then
      let acc := (s.loop h 0).acc
      ((s.openLoop h 0).driveLoop h 0 (sat23 (acc + d * s.s15 h F.CLR_LAYER_CTL_KICK))).setSeq h
        (some (.hop a d t 1 p ok))
    else s
  | _ => s

/-- LAYER_HOP_KICK. -/
def execLayerHopKick (h : Fin 32) (s : State) : Out := done s fun t => t.hopKick h

/-- A hop is complete: the next one, or tracking capture. -/
def State.hopDone (s : State) (h : Nat) : State :=
  match (s.cl h).seq with
  | some (.hop a _ _ 3 _ ok) =>
    if ok < 64 then s
    else if s.getF F.CLR_POS_LAYER h = a then s.setSeq h (some (.hopTrack 0))
    else s.startHop h a
  | _ => s

/-- LAYER_HOP_DONE. -/
def execLayerHopDone (h : Fin 32) (s : State) : Out := done s fun t => t.hopDone h

/-- A hop has taken too long: focus acquisition for the target layer, and the operation goes on after it. -/
def State.hopLate (s : State) (h : Nat) : State :=
  match (s.cl h).seq with
  | some (.hop a _ t _ _ _) =>
    if 4 * s.getF F.CLR_LAYER_CTL_TMO h ≤ t then (s.raise E.CLR_LAYER_FAIL h).beginAcquire h a else s
  | _ => s

/-- LAYER_FAIL. -/
def execLayerFail (h : Fin 32) (s : State) : Out := done s fun t => t.hopLate h

/-! ### Angle loss, position fix, HOLD (R118, R119) -/

/-- ANGLE_LOSS_PARK. -/
def execAngleLossPark (h : Fin 32) (s : State) : Out :=
  doneQ s fun t => if working (t.clr h) && decide (400 ≤ (t.cl h).noAngle) then t.toParked h else t

/-- FIX_TIMEOUT. -/
def execFixTimeout (h : Fin 32) (s : State) : Out :=
  doneQ s fun t =>
    if t.waitsFix h && decide (4000 ≤ (t.cl h).fixWait) then (t.interruptOp h true).updClr h fun c => { c with fixWait := 0 } else t

/-- The exit conditions of HOLD (R39, R119). -/
def State.holdMayEnd (s : State) (h : Nat) : Bool :=
  let c := s.cl h
  s.clr h == hdHOLD && decide (s.getF F.CLR_HOLD_CTL_MIN h ≤ c.hold) &&
  (!s.isSet F.CLR_STATUS_HOLD_OVR h || (ovrRecent s.tick c.ovr).isEmpty) && decide (64 ≤ c.okRun) && decide (64 ≤ c.sinceShock)

/-- HOLD is left once TF is set; tracking that is open is recaptured first. -/
def State.holdExit (s : State) (h : Nat) : State :=
  if !s.holdMayEnd h then s
  else if s.closed h 1 then (if s.isSet F.CLR_STATUS_TF h then s.enterFollow h else s)
  else if (s.cl h).seq.isNone then s.setSeq h (some (.recapture 0))
  else s

/-- HOLD_EXIT. -/
def execHoldExit (h : Fin 32) (s : State) : Out := doneQ s fun t => t.holdExit h

/-- HOLD_TIMEOUT. -/
def execHoldTimeout (h : Fin 32) (s : State) : Out :=
  doneQ s fun t =>
    if t.clr h == hdHOLD && decide (16 * max 1 (t.getF F.CLR_HOLD_CTL_MAX h) ≤ (t.cl h).hold) then
      (t.raise E.CLR_HOLD_TIMEOUT h).headFatal h
    else t

/-! ### Enable, disable, fault reset (R39, R86, R118) -/

/-- The head leaves OFF when it is enabled and its link carries traffic. -/
def State.headUp (s : State) (h : Nat) : State :=
  if s.clr h == hdOFF && s.isSet F.CLR_CTL_EN h && s.linkUp h then s.setClr h hdPARKED else s

/-- COLLIER_ENABLE. -/
def execCollierEnable (h : Fin 32) (s : State) : Out := doneQW s fun t => (t.setB F.CLR_CTL_EN h true).headUp h

/-- COLLIER_DISABLE. -/
def execCollierDisable (h : Fin 32) (s : State) : Out := doneQW s fun t => (t.setB F.CLR_CTL_EN h false).headOff h

/-- The head's overrun history is cleared (R39). -/
def State.clearOvr (s : State) (h : Nat) : State :=
  (s.updClr h fun c => { c with ovr := [] }).setF F.TCK_CLR_OVR_RECENT h 0

/-- The sticky saturation flags are cleared. -/
def State.clearSat (s : State) (h : Nat) : State :=
  (((s.setF F.CLR_SAT_LOOP0 h 0).setF F.CLR_SAT_LOOP1 h 0).setF F.CLR_SAT_LOOP2 h 0).setB F.CLR_SAT_NFF h false

/-- The link goes to OFF and trains again when it is enabled (R86). -/
def State.linkAgain (s : State) (h : Nat) : State :=
  let s1 := s.linkDown h lkOFF
  if s.isSet F.LNK_HEAD_CTL_EN h then s1.linkTrain h else s1

/-- CLR_CTL.FAULT_RST in SAFE. -/
def State.faultReset (s : State) (h : Nat) : State :=
  if s.clr h != hdSAFE then s
  else
    let s1 := (((s.clearOvr h).clearSat h).putF F.GLB_HEAD_FAULT_HEAD 0 h false).updBand h fun b => { b with failed := false }
    ((s1.setClr h hdOFF).linkAgain h).resetSource F.PWR_RESET_CAUSE_HEAD_DECK 7

/-- HEAD_FAULT_RESET. -/
def execHeadFaultReset (h : Fin 32) (s : State) : Out := doneQW s fun t => t.faultReset h

end Sys2Proof.Machine
end

