-- ==== Sys2Proof/Machine/LnkCmds.lean ====
section
/-!
DEFINITION. The meanings of the head link rows (04): received blocks, FIFOs, markers, lane failure and restoration, link states,
patterns, LINK_CMD and eye scan.
-/
namespace Sys2Proof.Machine

/-- A link register write is rejected. -/
def State.lnkReject (s : State) (h : Nat) : State := s.raiseLnk E.LNK_CFG_REJECT h

/-- The link receives: it is neither OFF nor FAILED. -/
def State.receives (s : State) (h : Nat) : Bool := s.lk h == lkTRAIN || s.linkUp h

/-! ### FIFOs (R87 to R92) -/

/-- FIFO_POP of FIFO f; `flips` are bits of the stored item that have changed: word, and bit 0 to 63 of its data or 64 to 71 of its
parity (R87, R89). SERVO and STATUS items go to the input bank, RF items to the beam's channel. -/
def execFifoPop (h : Fin 32) (f : Fin 6) (flips : List (Nat × Nat)) (s : State) : Out :=
  done s fun t => if f.val < 2 then t.popBank h f flips else t.popRf h f flips

/-- FIFO_OVERFLOW: a push has stalled for 16 cycles (R91). -/
def execFifoOverflow (h : Fin 32) (f : Fin 6) (s : State) : Out :=
  done s fun t =>
    let x := t.fifo h f
    if x.stalled.isSome then ((t.setFifo h f { x with stalled := none, head := none, drop := true }).dropItem h).deliver h else t

/-- Flush the streams of a mask in the layout of LNK_FIFO_FLUSH. -/
def State.flushMask (s : State) (h w : Nat) : State :=
  (s.forEach ((List.range 6).filter fun f => w.testBit f) fun t f => t.flushFifo h f).deliver h

/-- FIFO_FLUSH. -/
def execFifoFlush (h : Fin 32) (w : BitVec 32) (s : State) : Out := doneW s fun t => t.flushMask h w.toNat

/-- ECHO_RECEIVED. -/
def execEchoReceived (h : Fin 32) (seq : BitVec 8) (rtt : Nat) (s : State) : Out := done s fun t => t.echo h seq.toNat rtt

/-! ### Markers and the lane map (R80 to R85) -/

/-- The map the HFE announces at present: SPARE and the mask of lanes that are neither active nor spare. -/
def State.announced (s : State) (h : Nat) : Nat × Nat :=
  let sp := s.getF F.LNK_HEAD_STATUS_SPARE h
  (sp, (List.range 6).foldl (fun m k => if k = sp ∨ s.bitF F.LNK_HEAD_STATUS_ACTIVE h k then m else m + 2 ^ k) 0)

/-- The map that a request asks for, from the present one (R83 to R85). -/
def mapAfter (old : Nat × Nat) (kind : MapReq) (k : Nat) : Nat × Nat :=
  match kind with
  | .rotate => (k, old.2)
  | .failover => (7, putBit old.2 k true)
  | .restore => (k, putBit old.2 k false)

/-- The lanes that the device has declared failed while the HFE's map still uses them. -/
def State.ownFailed (s : State) (h : Nat) : List Nat :=
  let a := (s.announced h).2
  (List.range 6).filter fun k => s.bitF F.LNK_HEAD_STATUS_FAILED h k && !a.testBit k

/-- Take over an announced map; lanes declared failed here stay so, but one just restored (R80, R84, R85). -/
def State.takeMap (s : State) (h : Nat) (m : Nat × Nat) (restored : Option Nat) : State :=
  let old := s.announced h
  let own := (s.ownFailed h).filter fun k => restored ≠ some k
  let s1 := s.applyMap h m.1 m.2
  let s2 := (s1.setF F.LNK_HEAD_STATUS_FAILED h (own.foldl (fun n k => putBit n k true) m.2)).roles h
  if m = old then s2
  else s2.forEach (List.range 6) fun t k =>
    (t.setLane (upLane h k) { t.lane (upLane h k) with soak := 0, tried := false, chk := {} }).setB F.LNK_PRBS_ERR_LOCK (upLane h k) false

/-- Lane k is the rotation spare or a failed lane, on which the HFE sends PRBS31 (R82). -/
def State.soaks (s : State) (h k : Nat) : Bool := s.getF F.LNK_HEAD_STATUS_SPARE h = k || s.bitF F.LNK_HEAD_STATUS_FAILED h k

/-- The lane's calibration is due and has not been tried in its present time as spare or failed lane (R82, R421, R422). -/
def State.calWaits (s : State) (l : Nat) : Bool :=
  s.bitF F.CAL_STATUS_PEND 0 (l / 32) && (((vget s.cal.regions {} (l / 32)).left).any fun u => u.1 = l % 32) && !(s.lane l).tried

/-- Lane l's receiver takes a block's sync header and payload: block lock, the descrambler, and SH_ERR of a locked lane (R68, R69). -/
def State.lineBlock (s : State) (l hdr w : Nat) : State :=
  let a := s.lane l
  let was := s.isSet F.LNK_LANE_STATUS_BLOCK_LOCK l
  let r := a.header was (hdr = 1 || hdr = 2)
  let d := descramble a.scr w
  let s1 := (s.setLane l { r.2 with scr := d.2 }).setB F.LNK_LANE_STATUS_BLOCK_LOCK l r.1
  s1.onlyIf (was && !(hdr = 1 || (hdr = 2 && knownType (bitsOf d.1 7 0)))) fun t => t.count F.LNK_LANE_ERR_SH_ERR l

/-- The soak checker of a spare or failed lane takes a payload; an error ends the soak (R82, R93).
DESIGN CHOICE, unsafe: log 99. -/
def State.soakBits (s : State) (l w : Nat) : State :=
  let x := (s.lane l).chk.bits 3 0 (bitsLsb 64 w)
  (s.onlyIf (x.errs != 0 || !x.lock) fun t => t.setLane l { t.lane l with soak := 0 }).setCheck l x

/-- The fields of the ALIGN block that a lane brings, when it holds block lock and the block is well formed (R80). -/
def State.alignOf (s : State) (h k : Nat) (x : MarkerIn) : Option (Nat × Nat × Nat) :=
  match x.block with
  | some (hdr, w) =>
    if x.sig && ((s.lane (upLane h k)).header (s.isSet F.LNK_LANE_STATUS_BLOCK_LOCK (upLane h k)) (hdr = 1 || hdr = 2)).1 then
      alignFields k hdr (descramble (s.lane (upLane h k)).scr w).1
    else none
  | none => none

/-- What one lane brings with a marker (R81, R82, R86). -/
def State.laneMarker (s : State) (h k : Nat) (x : MarkerIn) : State :=
  let l := upLane h k
  let got := (s.alignOf h k x).isSome
  let s1 := match x.block with | some (hdr, w) => s.lineBlock l hdr w | none => s
  let s2 := ((s1.setF F.LNK_LANE_STATUS_SKEW l (min 255 x.skew)).setB F.LNK_LANE_STATUS_MARKER_OK l got).setB
    F.LNK_LANE_STATUS_SIG_DET l x.sig
  let s3 := s2.onlyIf (!x.sig) fun t => t.setB F.LNK_LANE_STATUS_BLOCK_LOCK l false
  let a := s3.lane l
  let ok := got && decide (x.skew ≤ 132)
  (s3.setLane l { a with miss := if got then 0 else a.miss + 1, good := if ok then a.good + 1 else 0, cnt := 0,
                         soak := if s.soaks h k && ok && a.chk.lock then a.soak + 1 else 0 }).onlyIf (!got) fun t =>
    t.count F.LNK_LANE_ERR_MK_ERR l

/-- The marker of the lowest-numbered lane that holds block lock. -/
def State.markerOf (s : State) (h : Nat) (lanes : List MarkerIn) : Option (Nat × Nat × Nat) :=
  ((List.range 6).filterMap fun k => s.alignOf h k (lanes.getD k {})).head?

/-- Marker a has reached marker b, modulo 2^24. -/
def markReached (a b : Nat) : Bool := decide ((a + 2 ^ 24 - b) % 2 ^ 24 < 2 ^ 23)

/-- A marker announces map m: the pending request at its marker, a cancelled rotation, an unrequested map (R80, R83 to R86). -/
def State.marker (s : State) (h : Nat) (m : Nat × Nat) (mark : Nat) : State :=
  let old := s.announced h
  let s0 := (s.setF F.LNK_HEAD_STATUS_MARK h (mark % 256)).updLink h fun l =>
    { l with mark := mark % 2 ^ 24, sinceRot := l.sinceRot + 1, rotWait := l.rotWait - 1 }
  if s.lk h = lkTRAIN then s0.takeMap h m none
  else
    match (s.link h).req with
    | some (kind, k, at_) =>
      if markReached mark at_ then
        if m = mapAfter old kind k then
          let s1 := s0.updLink h fun l => { l with req := none }
          match kind with
          | .rotate => (s1.takeMap h m none).updLink h fun l => { l with sinceRot := 0 }
          | .failover => (s1.takeMap h m none).setLink h lkDEGRADED
          | .restore => ((s1.takeMap h m (some k)).setLink h lkUP).raiseLnk E.LNK_LANE_RESTORED h
        else if m = old then
          match kind with
          | .rotate => (s0.updLink h fun l => { l with req := none, rotWait := 64 }).raiseLnk E.LNK_ROT_CANCEL h
          | .failover => s0
          | .restore => s0.updLink h fun l => { l with req := none }
        else (s0.takeMap h m none).raiseLnk E.LNK_MAP_ERR h
      else if m = old then s0
      else (s0.takeMap h m none).raiseLnk E.LNK_MAP_ERR h
    | none => if m = old then s0 else (s0.takeMap h m none).raiseLnk E.LNK_MAP_ERR h

/-- An upstream lane is declared failed (R84). A failover that is pending commits the spare.
DEDUCED, unsafe: log 26. -/
def State.laneFailed (s : State) (h k : Nat) : State :=
  if !s.linkUp h || s.bitF F.LNK_HEAD_STATUS_FAILED h k then s
  else
    let sp := s.getF F.LNK_HEAD_STATUS_SPARE h
    let committed := match (s.link h).req with
      | some (.failover, _, _) => true
      | _ => false
    let s1 := ((s.putF F.LNK_HEAD_STATUS_FAILED h k true).roles h).setLane (upLane h k)
      { s.lane (upLane h k) with soak := 0, tried := false }
    if committed || (s.lk h == lkDEGRADED && sp != k) then s1.linkLost h E.LNK_LINK_LOST
    else if sp = k then
      (s1.updLink h fun l => { l with req := none }).setLink h lkDEGRADED |>.raiseLnk E.LNK_LANE_FAIL h
    else if sp = 7 then s1.linkLost h E.LNK_LINK_LOST
    else (s1.sendRotate h k .failover).raiseLnk E.LNK_LANE_FAIL h

/-- The markers of the six lanes: lane status, the announced map, lanes that fail by missing markers or skew. -/
def State.alignMarker (s : State) (h : Nat) (lanes : List MarkerIn) : State :=
  if !s.receives h then s
  else
    let s0 := (s.updLink h fun l => { l with base := l.base + 5120 }).deliver h
    let s1 := s0.forEach (List.range 6) fun t k => t.laneMarker h k (lanes.getD k {})
    let act := (List.range 6).filter fun k => s.bitF F.LNK_HEAD_STATUS_ACTIVE h k && !s.bitF F.LNK_HEAD_STATUS_FAILED h k
    let seen := act.filterMap fun k => s.alignOf h k (lanes.getD k {})
    let differ := seen.any fun g => some g != seen.head?
    let s2 := s1.onlyIf differ fun t => t.raiseLnk E.LNK_MAP_ERR h
    let s3 := match s.markerOf h lanes with
      | none => s2
      | some (sp, bad, num) => s2.marker h (sp, bad) num
    s3.forEach (List.range 6) fun t k =>
      if 2 ≤ (t.lane (upLane h k)).miss ∨ 132 < (lanes.getD k {}).skew ∨ !t.isSet F.LNK_LANE_STATUS_BLOCK_LOCK (upLane h k) then
        t.laneFailed h k
      else t

/-- ALIGN_MARKER: what each of the six lanes brings. -/
def execAlignMarker (h : Fin 32) (lanes : List MarkerIn) (s : State) : Out := doneQ s fun t => t.alignMarker h lanes

/-- Lane l has passed soak over n markers (R82). -/
def State.soaked (s : State) (l n : Nat) : Bool :=
  s.isSet F.LNK_LANE_STATUS_BLOCK_LOCK l && decide (n ≤ (s.lane l).soak) && !s.calWaits l

/-- ROTATE: the rotation period has passed and the spare has passed soak (R83). -/
def State.rotate (s : State) (h : Nat) : State :=
  let sp := s.getF F.LNK_HEAD_STATUS_SPARE h
  let l := s.link h
  if s.lk h == lkUP && s.isSet F.LNK_HEAD_CTL_ROT_EN h && l.req.isNone && decide (sp < 6) && decide (l.rotWait = 0) &&
      decide (s.getF F.LNK_ROT_CTL_PERIOD h ≤ l.sinceRot) && s.soaked (upLane h sp) (s.getF F.LNK_ROT_CTL_SOAK h) then
    s.sendRotate h ((sp + 1) % 6) .rotate
  else s

/-- ROTATE. -/
def execRotate (h : Fin 32) (s : State) : Out := done s fun t => t.rotate h

/-- A failed lane that has passed soak for 4 x SOAK markers is asked back (R85). -/
def State.restore (s : State) (h k : Nat) : State :=
  if s.lk h == lkDEGRADED && s.isSet F.LNK_HEAD_CTL_RETRY_EN h && (s.link h).req.isNone && s.bitF F.LNK_HEAD_STATUS_FAILED h k &&
      !s.isSet F.LNK_LANE_CTL_DIS (upLane h k) && s.soaked (upLane h k) (4 * s.getF F.LNK_ROT_CTL_SOAK h) then
    s.sendRotate h k .restore
  else s

/-- LANE_RESTORE_SOAK. -/
def execLaneRestoreSoak (h : Fin 32) (lane : Fin 6) (s : State) : Out := done s fun t => t.restore h lane

/-- Lane k of head h, upstream or downstream, fails for a cause (R84). -/
def State.laneFail (s : State) (h k : Nat) (c : LaneCause) : State :=
  let l := 8 * h + k
  let s1 := match c with
    | .lock => s.setB F.LNK_LANE_STATUS_BLOCK_LOCK l false
    | .markers => s.setB F.LNK_LANE_STATUS_MARKER_OK l false
    | .signal => (s.setB F.LNK_LANE_STATUS_SIG_DET l false).setB F.LNK_LANE_STATUS_BLOCK_LOCK l false
    | .skew => s
    | .dis => s.setB F.LNK_LANE_CTL_DIS l true
  if s.lk h = lkOFF then s1
  else if k < 6 then (s1.setLane l { s1.lane l with good := 0, soak := 0 }).laneFailed h k
  else if c = .dis ∧ s.linkUp h then s1.linkLost h E.LNK_DOWN_LOST
  else s1

/-! ### Received blocks (R68, R69, R80 to R82) -/

/-- A block of upstream lane k as it comes off the line: sync header, scrambled payload; `rtt` is the round trip when it is an ECHO. A
lane in near loopback receives its own generator, not the line (R94). The block of an active lane takes its place in the bonded stream;
that of the spare or of a failed lane is checked as PRBS31; a checker that is enabled takes the raw bits.
DEDUCED, unsafe: log 101. -/
def State.block (s : State) (h k hdr w rtt : Nat) : State :=
  let l := upLane h k
  if s.isSet F.LNK_PRBS_CTL_NEAR l then s
  else
    let lock := s.isSet F.LNK_LANE_STATUS_BLOCK_LOCK l
    let d := (descramble (s.lane l).scr w).1
    let s1 := s.lineBlock l hdr w
    let s2 := s1.onlyIf (!s.soaks h k) fun t => t.rawBits l ((bitsMsb 2 hdr) ++ bitsLsb 64 w)
    if lock && !s2.isSet F.LNK_LANE_STATUS_BLOCK_LOCK l then (s2.laneFail h k .lock).deliver h
    else if !lock || !s.receives h then s2
    else if s.soaks h k then s2.soakBits l d
    else if s.bitF F.LNK_HEAD_STATUS_ACTIVE h k then
      let a := s2.lane l
      let pos := (s.link h).base + 5 * a.cnt + ((s.ranked h).takeWhile (· ≠ k)).length
      let s3 := s2.setLane l { a with cnt := a.cnt + 1 }
      if s.isHole h k then s3
      else (s3.updLink h fun x => { x with wait := x.wait ++ [{ pos := pos, hdr := hdr, w := d, rtt := rtt }] }).deliver h
    else s2

/-- LINK_WORD_PUSH: a block of upstream lane k, its two-bit sync header and its payload as received (R68, R69). -/
def execLinkWordPush (h : Fin 32) (lane : Fin 6) (hdr : BitVec 2) (payload : BitVec 64) (rtt : Nat) (s : State) : Out :=
  doneQ s fun t => t.block h lane hdr.toNat payload.toNat rtt

/-- LANE_FAIL; the cause DIS is a register write. -/
def execLaneFail (h : Fin 32) (lane : Fin 8) (cause : LaneCause) (s : State) : Out :=
  doneQ s fun t =>
    match cause with
    | .dis => if t.pf1Served then t.flushAsm.laneFail h lane cause else t
    | c => t.laneFail h lane c

/-! ### Link states (R86) -/

/-- Set EN: from OFF the link trains. -/
def State.linkEnable (s : State) (h : Nat) : State :=
  let s1 := s.setB F.LNK_HEAD_CTL_EN h true
  if s.lk h = lkOFF then s1.linkTrain h else s1

/-- LINK_ENABLE. -/
def execLinkEnable (h : Fin 32) (s : State) : Out := doneQW s fun t => t.linkEnable h

/-- Clear EN: the link goes to OFF, and the head with it. -/
def State.linkDisable (s : State) (h : Nat) : State := ((s.setB F.LNK_HEAD_CTL_EN h false).linkDown h lkOFF).headOff h

/-- LINK_DISABLE. -/
def execLinkDisable (h : Fin 32) (s : State) : Out := doneQW s fun t => t.linkDisable h

/-- LEAD as TRAIN judges it: the written one under OVR, else the measured one. -/
def State.trainLead (s : State) (h : Nat) : Nat :=
  if s.isSet F.LNK_TICK_LEAD_OVR h then s.getF F.LNK_TICK_LEAD_LEAD h else (s.link h).lead

/-- The upstream lanes that are locked with four valid markers. -/
def State.trained (s : State) (h : Nat) : List Nat :=
  (List.range 6).filter fun k =>
    s.isSet F.LNK_LANE_STATUS_BLOCK_LOCK (upLane h k) && decide (4 ≤ (s.lane (upLane h k)).good) &&
    !s.isSet F.LNK_LANE_CTL_DIS (upLane h k)

/-- Training can complete. -/
def State.trainable (s : State) (h : Nat) : Bool :=
  s.lk h == lkTRAIN && decide ((s.link h).echoes = 8) && (s.link h).status && s.isSet F.LNK_HFE_STATUS_DLOCK0 h &&
  s.isSet F.LNK_HFE_STATUS_DLOCK1 h && !s.isSet F.LNK_LANE_CTL_DIS (8 * h + 6) && !s.isSet F.LNK_LANE_CTL_DIS (8 * h + 7) &&
  decide (5 ≤ (s.trained h).length) && decide (16 ≤ s.trainLead h) && decide (s.trainLead h ≤ 224)

/-- Training completes on six lanes, or on five with a failover of the sixth. A training that does not complete leaves LNK_TICK_LEAD.LEAD
as it was.
DESIGN CHOICE, unsafe: log 100. -/
def State.trainDone (s : State) (h : Nat) : State :=
  if !s.trainable h then s
  else
    let s1 := s.setF F.LNK_TICK_LEAD_LEAD h (s.trainLead h)
    let s2 := match (List.range 6).find? fun k => !(s.trained h).contains k with
      | none => s1.setLink h lkUP
      | some k => ((s1.putF F.LNK_HEAD_STATUS_FAILED h k true).sendRotate h k .failover).setLink h lkDEGRADED
    s2.headUp h

/-- TRAIN_DONE. -/
def execTrainDone (h : Fin 32) (s : State) : Out := doneQ s fun t => t.trainDone h

/-- TRAIN_FAIL: 50 ms since the entry into TRAIN.
DESIGN CHOICE, unsafe: log 2. -/
def execTrainFail (h : Fin 32) (s : State) : Out :=
  doneQ s fun t =>
    if t.lk h == lkTRAIN && decide ((t.link h).trainAt + 20000 ≤ t.tick) && !t.trainable h then t.linkLost h E.LNK_TRAIN_FAIL else t

/-! ### Patterns, LINK_CMD, eye scan (R93 to R96) -/

/-- A write to LNK_PRBS_CTL of lane l, allowed while the head is OFF (R94). -/
def State.writePrbs (s : State) (l w : Nat) : State :=
  let h := l / 8
  if s.clr h != hdOFF then s.lnkReject h
  else
    let pat := bitsOf w 4 2
    let s1 := ((((s.setF F.LNK_PRBS_CTL_NEAR l (bitsOf w 6 6)).setF F.LNK_PRBS_CTL_INV l (bitsOf w 5 5)).setF
      F.LNK_PRBS_CTL_PAT l pat).setF F.LNK_PRBS_CTL_CHK_EN l (bitsOf w 1 1)).setF F.LNK_PRBS_CTL_GEN_EN l (bitsOf w 0 0)
    let on := w.testBit 0 && !s.isSet F.LNK_PRBS_CTL_GEN_EN l
    let a := s1.lane l
    ((s1.setLane l { a with gen := if on then s1.genSeed l else a.gen,
                            chk := if s.isSet F.LNK_PRBS_CTL_CHK_EN l then a.chk else {} }).onlyIf
      (w.testBit 1 && !s.isSet F.LNK_PRBS_CTL_CHK_EN l) fun t => t.setB F.LNK_PRBS_ERR_LOCK l false).onlyIf on State.bump

/-- PRBS_CTL_WRITE. -/
def execPrbsCtlWrite (l : Fin 256) (w : BitVec 32) (s : State) : Out := doneW s fun t => t.writePrbs l w.toNat

/-- A write of LNK_HFE_CMD with GO: its fields are stored; GO is allowed while the head is OFF, and ignored while BUSY (R94, R95, R97). -/
def State.linkCmd (s : State) (h op lane pat : Nat) : State :=
  let s0 := ((s.setF F.LNK_HFE_CMD_OP h op).setF F.LNK_HFE_CMD_LANE h lane).setF F.LNK_HFE_CMD_PAT h pat
  if s.clr h != hdOFF then s0.lnkReject h
  else if s.isSet F.LNK_HFE_CMD_BUSY h then s0
  else
    let s1 := (s0.setB F.LNK_HFE_CMD_BUSY h true).setB F.LNK_HFE_CMD_TIMEOUT h false
    (s1.sendBlock h 0 (linkCmdBlock (s.link h).cmdSeq op lane pat)).updLink h fun l => { l with cmdSeq := (l.cmdSeq + 1) % 256, cmdAt := s.tick }

/-- FAR_LOOPBACK_D0: D0 returns on an upstream lane. -/
def execFarLoopbackD0 (h : Fin 32) (lane : BitVec 3) (s : State) : Out := doneW s fun t => t.linkCmd h 1 lane.toNat 0

/-- FAR_LOOPBACK_D1: D1 returns on an upstream lane. -/
def execFarLoopbackD1 (h : Fin 32) (lane : BitVec 3) (s : State) : Out := doneW s fun t => t.linkCmd h 2 lane.toNat 0

/-- FAR_LOOPBACK_END. -/
def execFarLoopbackEnd (h : Fin 32) (lane : BitVec 3) (s : State) : Out := doneW s fun t => t.linkCmd h 3 lane.toNat 0

/-- HFE_GENERATOR_START with a pattern. -/
def execHfeGeneratorStart (h : Fin 32) (lane pat : BitVec 3) (s : State) : Out :=
  doneW s fun t => t.linkCmd h 4 lane.toNat pat.toNat

/-- HFE_GENERATOR_STOP. -/
def execHfeGeneratorStop (h : Fin 32) (lane : BitVec 3) (s : State) : Out := doneW s fun t => t.linkCmd h 5 lane.toNat 0

/-- CMD_TIMEOUT: 8 us, three ticks and a part of the fourth, without the acknowledgement (R95). -/
def execCmdTimeout (h : Fin 32) (s : State) : Out :=
  done s fun t =>
    if t.isSet F.LNK_HFE_CMD_BUSY h && decide ((t.link h).cmdAt + 3 ≤ t.tick) then
      ((t.setB F.LNK_HFE_CMD_BUSY h false).setB F.LNK_HFE_CMD_TIMEOUT h true).raiseLnk E.LNK_CMD_TIMEOUT h
    else t

/-- A write to LNK_EYE_CTL; START clears DONE and begins a scan where there is one: upstream, or downstream in near loopback
(R96). -/
def State.writeEye (s : State) (l w : Nat) : State :=
  let s1 := ((s.setF F.LNK_EYE_CTL_DWELL l (bitsOf w 19 16)).setF F.LNK_EYE_CTL_VOFS l (bitsOf w 13 8)).setF F.LNK_EYE_CTL_HOFS l
    (bitsOf w 7 2)
  if bitsOf w 0 0 = 1 ∧ (l % 8 < 6 ∨ s.isSet F.LNK_PRBS_CTL_NEAR l) then
    ((s1.setB F.LNK_EYE_RESULT_DONE l false).setB F.LNK_EYE_CTL_START l true)
  else s1

/-- EYE_SCAN_START. -/
def execEyeScanStart (l : Fin 256) (dwell : BitVec 4) (vofs hofs : BitVec 6) (s : State) : Out :=
  doneW s fun t => t.writeEye l (dwell.toNat * 2 ^ 16 + vofs.toNat * 2 ^ 8 + hofs.toNat * 4 + 1)

/-- EYE_SCAN_DONE with the disagreements counted. -/
def execEyeScanDone (l : Fin 256) (errors : Nat) (s : State) : Out :=
  done s fun t =>
    if t.isSet F.LNK_EYE_CTL_START l then
      ((t.setB F.LNK_EYE_CTL_START l false).setB F.LNK_EYE_RESULT_DONE l true).setF F.LNK_EYE_RESULT_ERRORS l (min errors (2 ^ 24 - 1))
    else t

/-! ### LEAD (R75, R97) -/

/-- A write to LNK_TICK_LEAD. -/
def State.writeLead (s : State) (h w : Nat) : State :=
  let n := bitsOf w 10 0
  if bitsOf w 31 31 = 0 then (s.setB F.LNK_TICK_LEAD_OVR h false).setF F.LNK_TICK_LEAD_LEAD h (s.link h).lead
  else if 16 ≤ n ∧ n ≤ 224 then (s.setB F.LNK_TICK_LEAD_OVR h true).setF F.LNK_TICK_LEAD_LEAD h n
  else s.lnkReject h

/-- TICK_LEAD_WRITE. -/
def execTickLeadWrite (h : Fin 32) (w : BitVec 32) (s : State) : Out := doneW s fun t => t.writeLead h w.toNat

end Sys2Proof.Machine
end

