-- ==== Sys2Proof/Machine/GlbCmds.lean ====
section
/-!
DEFINITION. The meanings of the routing rows (01): takeover on request and its steps, handback (R14 to R18, R23 to R26, R462).
-/
namespace Sys2Proof.Machine

/-- Head h is eligible for a handback (R18). -/
def State.eligible (s : State) (h : Nat) : Bool :=
  s.idlePoint h && !s.bitF F.GLB_HEAD_FAULT_HEAD 0 h

/-- A takeover or a handback of the band of h is in progress (R24). -/
def State.moving (s : State) (h : Nat) : Bool := s.taking h || (s.head h).band.handback

/-- The operation works for the band of home head b. -/
def MediaOp.onBand (o : MediaOp) (b : Nat) : Bool := o.kind == .read && homeHead o.vol o.seam == b

/-- Put back the queued reads of one band (R18). -/
def State.withdrawBand (s : State) (h b : Nat) : State :=
  let l := (s.head h).ops
  let s1 := s.setHead h { s.head h with ops := l.filter fun o => !o.onBand b }
  s1.forEach (l.filter fun o => o.onBand b) fun t o =>
    match o.slot with
    | some y => (t.releaseSlot y).waitRead o
    | none => t

/-- The home head of a requested takeover finishes the lodes it has begun and parks (R23). -/
def State.homeParks (s : State) (h : Nat) : State :=
  ((s.withdraw h).updWrite h fun w => { w with finish := true }).parkHome h

/-- GLB_HANDOVER with OP = 0 (R23 to R26); refused also while the partner's own band is being moved, and for an unserved band
while the deck is not READY.
DESIGN CHOICE, safe: log 85. -/
def State.requestTakeover (s : State) (h : Nat) : State :=
  if s.moving h then s.refuse
  else if s.taken h then s
  else if s.taken (partner h) || s.moving (partner h) || s.deck (deckOfHead h) != dkREADY || !s.partnerFit h then s.refuse
  else if s.unserved h then s.startTakeover h false
  else (s.startTakeover h true).homeParks h

/-- TAKEOVER_REQUEST of the band of head h. -/
def execTakeoverRequest (h : Fin 32) (s : State) : Out := doneQW s fun t => t.requestTakeover h

/-- GLB_HANDOVER with OP = 1 (R18, R24, R26). -/
def State.requestHandback (s : State) (h : Nat) : State :=
  if s.moving h then s.refuse
  else if s.unserved h then (if s.eligible h then s.handbackDone h else s.refuse)
  else if !s.taken h then s
  else if !s.eligible h then s.refuse
  else
    let p := partner h
    let s1 := (s.updBand h fun b => { b with handback := true }).withdrawBand p h
    if s1.wcy p != wsIDLE && homeHead (deckOfHead p) (s1.head p).write.seam == h then
      s1.updWrite p fun w => { w with finish := true }
    else s1

/-- HANDBACK_REQUEST of the band of head h. -/
def execHandbackRequest (h : Fin 32) (s : State) : Out := doneQW s fun t => t.requestHandback h

/-- The partner works on a lode of the band of home head h (R18). -/
def State.worksOn (s : State) (p h : Nat) : Bool :=
  (match (s.head p).op with
   | some o => o.onBand h
   | none => false) ||
  (s.wcy p != wsIDLE && homeHead (deckOfHead p) (s.head p).write.seam == h)

/-- HANDBACK_DONE: the partner has finished its lode of the band of head h. -/
def execHandbackDone (h : Fin 32) (s : State) : Out :=
  doneQ s fun t => if (t.head h).band.handback && !t.worksOn (partner h) h then t.handbackDone h else t

/-- The track of a band that lies nearest to the other band. -/
def nearTrack (band : Nat) : Nat := if band = 0 then bandTrack 0 (4 * (bandPositions 0 - 1)) else bandTrack 1 0

/-- Issue the takeover seek of the band of h to its partner (R15 step 4): in the partner's present layer, to the track of the band
that lies nearest to its own.
DESIGN CHOICE, safe: log 86. -/
def State.takeoverSeek (s : State) (h : Nat) : State :=
  let p := partner h
  s.issue p { kind := .takeoverSeek, vol := deckOfHead h, layer := s.getF F.CLR_POS_LAYER p, track := nearTrack (h % 2), pos := 0,
              ahead := true }

/-- Step 4 goes on once the copies it has made into the partner's tables have ended (R139). -/
def State.seededSeek (s : State) (h : Nat) : State :=
  if decide ((s.head h).band.take = .seeding) && !s.bandSeeds (partner h) then
    (s.updBand h fun b => { b with take := .seeking 0 }).takeoverSeek h
  else s

/-- The partner has finished its lode, or its write cycle stands without an operation; under R23 the home head has finished the
lodes it had begun and has parked. -/
def State.partnerFree (s : State) (h : Nat) : Bool :=
  let p := partner h
  s.idlePoint p && (s.wcy p == wsIDLE || s.wcy p == wsPREP) &&
  (!(s.head h).band.requested || (s.clr h == hdPARKED && s.wcy h == wsIDLE) || s.clr h == hdOFF || s.clr h == hdSAFE)

/-- TAKEOVER_PARTNER_FREE of the band of head h. -/
def execTakeoverPartnerFree (h : Fin 32) (s : State) : Out :=
  doneQ s fun t =>
    if decide ((t.head h).band.take = .waitPartner) && t.partnerFree h then
      ((t.updBand h fun b => { b with take := .seeding }).takeoverSeed h (partner h)).seededSeek h
    else t

/-- A takeover seek is queued to head p or under way. -/
def State.seekUnderWay (s : State) (p : Nat) : Bool :=
  ((s.head p).ops.any fun o => o.kind == .takeoverSeek) || (s.head p).op.any fun o => o.kind == .takeoverSeek

/-- SEEK_REISSUE of the band of head h. -/
def execSeekReissue (h : Fin 32) (s : State) : Out :=
  doneQ s fun t =>
    match (t.head h).band.take with
    | .seeking _ => if t.seekUnderWay (partner h) || !t.idlePoint (partner h) then t else t.takeoverSeek h
    | _ => t

end Sys2Proof.Machine
end

