-- ==== Sys2Proof/Machine/LrnCmds.lean ====
section
/-!
DEFINITION. The meanings of the learner rows (06): the end of a seed copy, seeds on request, clearing.
-/
namespace Sys2Proof.Machine

/-- SEED_DONE of loop i of head h: a takeover that waits for the copies goes on (R138, R139). -/
def execSeedDone (h : Fin 32) (i : Fin 2) (s : State) : Out :=
  doneQ s fun t => if t.seedEnded h i then (t.seedDone h i).seededSeek (partner h) else t

/-- A seed of one loop on request (R140). -/
def State.seedLoop1 (s : State) (h i : Nat) : State :=
  let p := partner h
  if s.learnOn h i && decide (s.seedMin h ≤ s.getF F.LRN_LOOP_STATUS_REVS (lrnIdx p i)) then s.seedStart h i p
  else s.raise E.LRN_SEED_REFUSED h

/-- LRN_SEED.GO with a mask of loops. -/
def State.seedRequest (s : State) (h mask : Nat) : State :=
  if s.seedBusy h then s.raise E.LRN_CFG_REJECT h
  else s.forEach ((List.range 2).filter fun i => mask.testBit i) fun t i => t.seedLoop1 h i

/-- SEED_REQUEST. -/
def execSeedRequest (h : Fin 32) (loops : BitVec 2) (s : State) : Out := doneW s fun t => t.seedRequest h loops.toNat

/-- LRN_CTL.CLEAR with a mask of loops (R141, R143). -/
def State.clearTables (s : State) (h mask : Nat) : State :=
  s.forEach ((List.range 2).filter fun i => mask.testBit i) fun t i => t.lrnClear h i

/-- The tables are cleared; a takeover that waited for a copy goes on. -/
def State.clearLoops (s : State) (h mask : Nat) : State := ((s.clearTables h mask).seededSeek (partner h)).seededSeek h

/-- TABLE_CLEAR. -/
def execTableClear (h : Fin 32) (loops : BitVec 2) (s : State) : Out := doneQW s fun t => t.clearLoops h loops.toNat

end Sys2Proof.Machine
end

