-- ==== Sys2Proof/Machine/Ring.lean ====
section
/-!
DEFINITION. The ring's roles and times as its rows and the image load share them (R392 to R394, R404).
-/
namespace Sys2Proof.Machine

def rlOFF : Nat := 0
def rlLOOP : Nat := 1
def rlLISTEN : Nat := 2
def rlMEMBER : Nat := 3
def rlELECT : Nat := 4
def rlHEAD : Nat := 5

/-- The role of the unit (R392). -/
def State.role (s : State) : Nat := s.getF F.TRL_STATUS_ROLE 0

/-- Change the ring's state. -/
def State.updTrl (s : State) (f : TrlS → TrlS) : State := { s with trl := f s.trl }

/-- Enter a role: BYP_HOLD is high in LISTEN, MEMBER, ELECT and HEAD (R394); frames of silence count afresh; leaving HEAD gives up
its shift, its list and TRL_LAP. -/
def State.setRole (s : State) (r : Nat) : State :=
  let b := decide (2 ≤ r)
  let s1 := if s.isSet F.TRL_STATUS_BYP_HOLD 0 = b then s else (s.setB F.TRL_STATUS_BYP_HOLD 0 b).emit (.bypHold b)
  let s2 := (s1.setF F.TRL_STATUS_ROLE 0 r).updTrl fun t => { t with silent := 0, electFor := 0, loopAt := s.tick }
  if r = rlHEAD then s2
  else (s2.setF F.TRL_LAP_LAP 0 0).updTrl fun t => { t with job := none, excluded := [], absent := 0, open_ := false }

/-- The unit leaves the ring: OFF. -/
def State.ringOff (s : State) : State := if s.role = rlOFF then s else s.setRole rlOFF

/-- TRL_CTL.EN is set and an image is loaded: LOOP (R392). -/
def State.ringStart (s : State) : State :=
  if s.isSet F.TRL_CTL_EN 0 && s.isSet F.CFG_STATUS_LOADED 0 && s.role == rlOFF then s.setRole rlLOOP else s

/-- The frame number that counts for shifts: ring time, or TCK_COUNT / 50 when the unit hears no ring (R383, R404). -/
def State.frameNow (s : State) : Nat :=
  if s.isSet F.TRL_CTL_EN 0 && decide (2 ≤ s.role) then s.trl.time else s.tick / 50 % 2 ^ 40

/-- The ring frame that the present servo tick, one with k mod 50 = 0, begins: by the last FRAME_START, whose boundary lies at most
half a frame from a strobe of the same kind, or by TCK_COUNT off the ring (R30, R401). -/
def State.frameStarts (s : State) : Nat :=
  if s.isSet F.TRL_CTL_EN 0 && decide (2 ≤ s.role) then (s.trl.time + (s.ticksSince s.trl.timeTick + 24) / 50) % 2 ^ 40
  else s.tick / 50 % 2 ^ 40

/-- Frame f has begun by frame `now` (R401, R406); 40-bit numbers are compared around their wrap. -/
def begun (f now : Nat) : Bool := decide ((now + 2 ^ 40 - f % 2 ^ 40) % 2 ^ 40 < 2 ^ 39)

end Sys2Proof.Machine
end

