-- ==== Sys2Proof/Machine/SledCmds.lean ====
section
/-!
DEFINITION. The meanings of the sled rows (07), the sled overrun among them (R38).
-/
namespace Sys2Proof.Machine

/-- A host write of a target (R154, R158). -/
def State.writeTarget (s : State) (h w : Nat) : State :=
  if !s.axisTakes h then s.raiseSld E.SLD_CFG_REJECT h
  else
    let x := sgn 32 w * oneStep
    if s.getF F.SLD_GEOM_GROUP h = 0 then s.setTarget h x else s.updSld h fun a => { a with pend := some x }

/-- SLED_TARGET_WRITE. -/
def execSledTargetWrite (h : Fin 32) (w : BitVec 32) (s : State) : Out := doneW s fun t => t.writeTarget h w.toNat

/-- The pending targets of the groups of a mask are released (R158). -/
def State.groupGo (s : State) (mask : Nat) : State :=
  s.forEach (List.range 32) fun t h =>
    let g := t.getF F.SLD_GEOM_GROUP h
    if g ≠ 0 ∧ mask.testBit g ∧ (t.sld h).pend.isSome then t.updSld h fun a => { a with rise := a.pend, pend := none } else t

/-- GROUP_GO. -/
def execGroupGo (w : BitVec 32) (s : State) : Out := doneW s fun t => t.groupGo w.toNat

/-- A planned stop. -/
def State.sledStop (s : State) (h : Nat) : State :=
  if s.axis h = slMOVING then s.updSld h fun a => { a with x := stopPoint (s.sldD h) a.p a.v } else s

/-- SLED_STOP. -/
def execSledStop (h : Fin 32) (s : State) : Out := doneW s fun t => t.sledStop h

/-- Move to the park position. -/
def State.sledPark (s : State) (h : Nat) : State := if s.axisTakes h then s.toPark h false else s

/-- SLED_PARK. -/
def execSledPark (h : Fin 32) (s : State) : Out := doneW s fun t => t.sledPark h

/-- SLED_HOME. -/
def execSledHome (h : Fin 32) (s : State) : Out := doneW s fun t => t.startHoming h

/-- SLED_ENABLE. -/
def execSledEnable (h : Fin 32) (s : State) : Out := doneW s fun t => (t.setB F.SLD_CTL_EN h true).axisOn h

/-- Clear SLD_CTL.EN; FAULT entered in the same tick prevails over OFF (R159). -/
def State.sledDisable (s : State) (h : Nat) : State :=
  let t := s.setB F.SLD_CTL_EN h false
  if s.axis h = slFAULT && (s.sld h).faultAt == some s.tick then t else t.axisHeadOff h

/-- SLED_DISABLE. -/
def execSledDisable (h : Fin 32) (s : State) : Out := doneW s fun t => t.sledDisable h

/-- The level that LIMIT shows means active (R156). -/
def State.rawActive (s : State) (h : Nat) : Bool := s.isSet F.SLD_STATUS_RAW h == s.isSet F.SLD_HOME_CTL_POL h

/-- A debounced trip outside homing (R159). -/
def State.limitHit (s : State) (h : Nat) : State :=
  if s.axisTakes h then
    (((s.updSld h fun a => { a.dropPend with fixed := true }).setAxis h slSTOPPING).setB F.SLD_STATUS_HOMED h false).raiseSld
      E.SLD_LIMIT_HIT h
  else s

/-- The debounced level follows a raw level held for DEB ticks. -/
def State.limitChange (s : State) (h : Nat) : State :=
  let on := s.rawActive h
  if on = s.isSet F.SLD_STATUS_SWITCH h || decide ((s.sld h).run < s.sldDeb h) then s
  else
    let s1 := s.setB F.SLD_STATUS_SWITCH h on
    if s1.axis h = slHOMING then s1.homeSwitch h on else if on then s1.limitHit h else s1

/-- LIMIT_DEBOUNCED. -/
def execLimitDebounced (h : Fin 32) (s : State) : Out := done s fun t => t.limitChange h

/-- HOME_FAIL: a trip debounced in this tick is taken first (R157). -/
def execHomeFail (h : Fin 32) (s : State) : Out :=
  doneQ s fun t =>
    let u := if t.axis h = slHOMING then t.limitChange h else t
    if u.homeExpired h then (u.homeFail h).headFatal h else u

/-- The axis is on, or went off in this very tick (R159). -/
def State.axisRuns (s : State) (h : Nat) : Bool :=
  s.axis h != slOFF || (s.sld h).offAt.any fun o => o.1 == s.tick

/-- SLD_OVR. -/
def execSldOvr (h : Fin 32) (s : State) : Out :=
  doneQ s fun t =>
    if !t.axisRuns h || !t.onTick 20 then t else ((t.raiseTckHead E.TCK_SLD_OVR h).axisOverrun h).headFatal h

end Sys2Proof.Machine
end

