-- ==== Sys2Proof/Machine/CfgOps.lean ====
section
/-!
DEFINITION. Configuration and security (15): fuses, keys, the load and its checks, boot records, staging, the shift.
-/
namespace Sys2Proof.Machine

/-- Change the configuration's state. -/
def State.updCfg (s : State) (f : CfgS → CfgS) : State := { s with cfg := f s.cfg }

/-- Change what the device keeps in flash. -/
def State.updFlash (s : State) (f : FlashS → FlashS) : State := s.updCfg fun c => { c with flash := f c.flash }

/-- A register write or command refused by the CFG block. -/
def State.cfgReject (s : State) : State := s.raise E.CFG_CFG_REJECT 0

/-! ### Fuses (R351, R352) -/

/-- The bits set from bit 0 up to the first clear one, at most n. -/
def onesFrom : Nat → Nat → Nat
  | 0, _ => 0
  | n + 1, v => if v % 2 = 1 then onesFrom n (v / 2) + 1 else 0

/-- The fused SVN. -/
def FuseS.fusedSvn (f : FuseS) : Nat := onesFrom 64 f.svn

/-- The registers that show fuses (R385, R453).
DEDUCED, unsafe: log 47. -/
def State.senseFuses (s : State) : State :=
  let f := s.cfg.fuses
  ((s.setF F.CFG_SVN_FUSED 0 f.fusedSvn).setF F.CFG_KEYS_REVOKED 0 f.revoke).setF F.CFG_KEYS_FUSED 0
    (maskOf 4 fun k => f.keys.getD k 0 != 0)

/-- The public fields of the fuse bank, for FUSE_DIGEST. -/
def FuseS.pub (f : FuseS) : List Nat :=
  [f.serial, f.subsys] ++ f.keys ++ [f.revoke, f.svn, f.lifecycle] ++ f.repair.flatMap fun p => [p.1, p.2]

/-- A shift is ARMED, COMMITTED or HOLDING. -/
def State.shiftArmed (s : State) : Bool := decide (shARMED ≤ s.shift ∧ s.shift ≤ shHOLDING)

/-- A write of CFG_FUSE_CMD (R352).
DEDUCED, unsafe: log 49. -/
def State.fuseCmd (s : State) (op confirm slot : Nat) : State :=
  let slotBad := op == 2 &&
    ((s.isSet F.CFG_STATUS_LOADED 0 && s.getF F.CFG_KEYS_RUN_SLOT 0 == slot) ||
     !((List.range 4).any fun k => k != slot && s.bitF F.CFG_KEYS_FUSED 0 k && !s.bitF F.CFG_KEYS_REVOKED 0 k))
  if (op != 1 && op != 2) || confirm != 0x5A || s.isSet F.CFG_FUSE_CMD_BUSY 0 || s.shiftArmed || slotBad then s.cfgReject
  else
    let start (t : State) (o : FuseOp) : State :=
      ((t.setB F.CFG_FUSE_CMD_BUSY 0 true).setB F.CFG_FUSE_CMD_FAIL 0 false).updCfg fun c => { c with fuse := some o }
    if op = 1 then
      if s.getF F.CFG_SVN_RUN 0 ≤ s.getF F.CFG_SVN_FUSED 0 then s
      else (start s .svn).emit (.fuseSvn (2 ^ s.getF F.CFG_SVN_RUN 0 - 1))
    else (start s (.revoke slot)).emit (.fuseRevoke (2 ^ slot))

/-! ### Staging (R374 to R378) -/

/-- The staging states of R378. -/
def sgEMPTY : Nat := 0
def sgRECEIVING : Nat := 1
def sgVERIFYING : Nat := 2
def sgCOPYING : Nat := 3
def sgREADY : Nat := 4
def sgARMED : Nat := 5
def sgFAILED : Nat := 6

/-- The staging state. -/
def State.stg (s : State) : Nat := s.getF F.CFG_STAGE_STATUS_STATE 0

/-- Enter a staging state. -/
def State.setStage (s : State) (n : Nat) : State := s.setF F.CFG_STAGE_STATUS_STATE 0 n

/-- A 64-bit value in a pair of registers. -/
def State.set64 (s : State) (lo hi : Field) (v : Nat) : State := (s.setF lo 0 (v % 2 ^ 32)).setF hi 0 (v / 2 ^ 32)
def State.get64 (s : State) (lo hi : Field) : Nat := s.getF lo 0 + s.getF hi 0 * 2 ^ 32

/-- The running epoch and the staging epoch. -/
def State.epoch (s : State) : Nat := s.get64 F.CFG_EPOCH_LO_EPOCH F.CFG_EPOCH_HI_EPOCH
def State.stageEpoch (s : State) : Nat := s.get64 F.CFG_STAGE_EPOCH_LO_EPOCH F.CFG_STAGE_EPOCH_HI_EPOCH

/-- The staging registers show the descriptor and the marks. -/
def State.showStage (s : State) : State :=
  let f := s.cfg.flash
  ((s.setF F.CFG_STAGE_STATUS_COUNT 0 ((f.stage.map (·.count)).getD 0)).setF F.CFG_STAGE_STATUS_RECEIVED 0 f.marked.length).set64
    F.CFG_STAGE_EPOCH_LO_EPOCH F.CFG_STAGE_EPOCH_HI_EPOCH ((f.stage.map (·.epoch)).getD 0)

/-- Addresses of the flash regions (R354). -/
def flStage : Nat := 0x20000
def flLog : Nat := 0x100000
def flSlot (k : Nat) : Nat := 0x1000000 + k * 0x1000000
def flStaging : Nat := 0x3000000

/-- Staging is erased and EMPTY. -/
def State.stageErase (s : State) : State :=
  (((((s.updFlash fun f => { f with stage := none, marked := [] }).updCfg fun c => { c with stageSvn := 0 }).setStage
    sgEMPTY).showStage).emit (.flashErase flStage 0x1000)).emit (.flashErase flStaging 0x1000000)

/-- Staging fails with a cause of R367 (R378). -/
def State.stageFails (s : State) (cause : Nat) : State :=
  ((s.setStage sgFAILED).setF F.CFG_STAGE_REJECT_FAIL 0 cause).raise E.CFG_STAGE_FAIL 0

/-- A piece is rejected with a reason of R375. -/
def State.rejectPiece (s : State) (reason : Nat) (pos : Option Nat) : State :=
  let s1 := ((s.setF F.CFG_STAGE_REJECT_LAST 0 reason).count F.CFG_STAGE_REJECT_COUNT 0).raise E.CFG_PIECE_REJECT 0
  match pos with
  | some p => s1.finish p stPieceRejected 0
  | none => s1

/-- The fields of a piece (R374). -/
def pcNum (b : List Nat) (o n : Nat) : Nat := ofLeBytes ((b.drop o).take n)
def pcSlot (b : List Nat) : Nat := b.getD 3 0
def pcIndex (b : List Nat) : Nat := pcNum b 4 2
def pcCount (b : List Nat) : Nat := pcNum b 6 2
def pcLen (b : List Nat) : Nat := pcNum b 8 2
def pcEpoch (b : List Nat) : Nat := pcNum b 16 8
def pcTag (b : List Nat) : Nat := pcNum b 24 8

/-- A key slot is usable (R354). -/
def State.keyUsable (s : State) (k : Nat) : Bool := decide (k < 4) && s.bitF F.CFG_KEYS_USABLE 0 k

/-- The piece belongs to the image the staging descriptor names. -/
def StageDesc.fits (d : StageDesc) (b : List Nat) : Bool :=
  d.epoch == pcEpoch b && d.tag == pcTag b && d.keySlot == pcSlot b && d.count == pcCount b

/-- The 36 bytes of the staging descriptor as it is first programmed (R377). -/
def StageDesc.bytes (d : StageDesc) : List Nat :=
  let a := [0x53, 0x54, 0x47, 0x31, 1, d.keySlot] ++ leBytes 2 d.count ++ [0xFF, 0xFF]
  let b := List.replicate 5 0xFF ++ leBytes 8 d.epoch ++ leBytes 8 d.tag
  a ++ [0xFF] ++ b ++ leBytes 4 (crc32c (a ++ b))

/-- A piece of the image whose staging has FAILED, its key slot revoked since or not: its reason is the state's (R378, R384). -/
def State.failedPiece (s : State) (b : List Nat) : Bool := s.stg == sgFAILED && s.cfg.flash.stage.any fun d => d.fits b

/-- The reason to reject a piece, 0 when there is none (R375); `index` is what CONFIG PIECE names.
DEDUCED, unsafe: log 119. -/
def State.pieceReason (s : State) (j : PieceJob) (index : Option Nat) : Nat :=
  let b := j.bytes
  let n := pcCount b
  let i := pcIndex b
  let lenOk := if i + 1 = n then decide (1 ≤ pcLen b ∧ pcLen b ≤ 3968) else pcLen b == 3968
  if b.length ≠ 4096 ∨ b.getD 0 0 ≠ 0x50 ∨ b.getD 1 0 ≠ 0x43 ∨ b.getD 2 0 ≠ 1 ∨ ¬ ((b.drop 10).take 6).all (· = 0) then 7
  else if n = 0 ∨ 4229 < n ∨ n ≤ i ∨ ¬ lenOk ∨ index.getD i ≠ i then 4
  else if s.failedPiece b then 6
  else if !s.keyUsable (pcSlot b) then 2
  else if !j.sigOk then 1
  else if pcEpoch b ≤ s.epoch then 5
  else if s.stg ≠ sgEMPTY ∧ s.stg ≠ sgRECEIVING then 6
  else if s.stg = sgRECEIVING ∧ ¬ (s.cfg.flash.stage.any fun d => d.fits b) then 3
  else 0

/-- The staging descriptor as the first accepted piece fixes it. -/
def State.fixStage (s : State) (b : List Nat) : State :=
  if s.stg = sgEMPTY then
    let d : StageDesc := { keySlot := pcSlot b, count := pcCount b, epoch := pcEpoch b, tag := pcTag b }
    (((s.updFlash fun f => { f with stage := some d, marked := [] }).setStage sgRECEIVING).showStage).emit (.flashProgram flStage d.bytes)
  else s

/-- Begin the programming of an accepted new piece (R376). -/
def State.programPiece (s : State) (j : PieceJob) : State :=
  (s.updCfg fun c => { c with piece := some j }).emit (.flashProgram (flStaging + 3968 * pcIndex j.bytes) ((j.bytes.drop 32).take 3968))

/-- The piece index that a CONFIG PIECE command names. -/
def State.namedIndex (s : State) (pos : Option Nat) : Option Nat := (pos.bind s.cmd?).map fun c => c.csfNum 0 4

/-- Take a piece through acceptance (R375). -/
def State.takePiece (s : State) (j : PieceJob) : State :=
  let r := s.pieceReason j (s.namedIndex j.pos)
  if r ≠ 0 then s.rejectPiece r j.pos
  else
    let s1 := s.fixStage j.bytes
    if s1.cfg.flash.marked.contains (pcIndex j.bytes) then
      match j.pos with
      | some p => s1.finish p stSuccess 0
      | none => s1
    else s1.programPiece j

/-- Take waiting pieces, in arrival order, until one is being programmed. -/
def State.nextPieces (s : State) : Nat → State
  | 0 => s
  | n + 1 =>
    match s.cfg.piece, s.cfg.pieces with
    | none, j :: js => ((s.updCfg fun c => { c with pieces := js }).takePiece j).nextPieces n
    | _, _ => s

/-- A piece has arrived, by CONFIG PIECE or by the ring (R374). -/
def State.pieceArrives (s : State) (j : PieceJob) : State :=
  let s1 := s.updCfg fun c => { c with pieces := c.pieces ++ [j] }
  s1.nextPieces s1.cfg.pieces.length

/-- An accepted piece has been programmed and read back, or not (R376). -/
def State.pieceDone (s : State) (j : PieceJob) (ok : Bool) : State :=
  let i := pcIndex j.bytes
  let s0 := s.updCfg fun c => { c with piece := none }
  let s1 :=
    if !ok then s0.rejectPiece 8 j.pos
    else if s.stg ≠ sgRECEIVING then s0.rejectPiece 6 j.pos
    else
      let t := (s0.updFlash fun f => { f with marked := insertNat i f.marked }).showStage
      let u := (t.emit (.flashProgram (flStage + 0x40 + i / 8)
        [255 - maskOf 8 fun b => t.cfg.flash.marked.contains (8 * (i / 8) + b)])).onlyIf
        (t.getF F.CFG_STAGE_STATUS_RECEIVED 0 == t.getF F.CFG_STAGE_STATUS_COUNT 0) fun x => x.setStage sgVERIFYING
      match j.pos with
      | some p => u.finish p stSuccess 0
      | none => u
  s1.nextPieces s1.cfg.pieces.length

/-! ### The checks of a load (R367) -/

/-- Steps 2 to 6 of R367: the cause of the first failure, 0 when none. -/
def State.headerCause (s : State) (im : Image) : Nat :=
  if !im.headerOk || decide (64 < im.svn) then 2
  else if !s.keyUsable im.keySlot then (if im.keySlot < 4 ∧ s.bitF F.CFG_KEYS_REVOKED 0 im.keySlot then 4 else 1)
  else if !im.sigOk then 3
  else if im.svn < s.getF F.CFG_SVN_FUSED 0 then 5
  else if !im.unwrapOk then 6
  else 0

/-- Steps 2 to 8 without applying clauses (R378, R409). -/
def State.verifyCause (s : State) (im : Image) : Nat :=
  let c := s.headerCause im
  if !im.flashOk then 12
  else if c ≠ 0 then c
  else if im.tagFail.isSome then 7
  else if !im.digestOk then 8
  else 0

/-- One attempt to load a slot: steps 1 to 9. -/
def State.attempt (s : State) (im : Image) : LoadRes :=
  let c := s.headerCause im
  if s.isSet F.PWR_BIST_FAIL 0 then .failed 14 0xFFFF
  else if !im.flashOk then .failed 12 0xFFFF
  else if s.cfg.fuses.lifecycle ≠ 0x5A then .failed 13 0xFFFF
  else if c ≠ 0 then .failed c 0xFFFF
  else
    match s.applySentence im with
    | .failed c n => .failed c n
    | .placed t =>
      if !im.digestOk then .failed 8 0xFFFF
      else if !im.dramOk then .failed 11 0xFFFF
      else .placed (t.discFollow (s.isSet F.TCK_CTL_DISC_EN 0))

/-- The slot that the governing descriptor copy names ACTIVE (R355). -/
def FlashS.active (f : FlashS) : Nat :=
  match f.copy0, f.copy1 with
  | none, none => 0
  | some a, none => a.2
  | none, some b => b.2
  | some a, some b => if a.1 < b.1 then b.2 else a.2

/-- The bytes of a descriptor copy (R355). -/
def copyBytes (seq act : Nat) : List Nat :=
  let b := [0x44, 0x53, 0x43, 0x31] ++ leBytes 4 seq ++ [act] ++ List.replicate 51 0
  b ++ leBytes 4 (crc32c b)

/-- Change ACTIVE: the copy that does not govern is erased and programmed (R355). -/
def State.writeActive (s : State) (slot : Nat) : State :=
  let f := s.cfg.flash
  let first := match f.copy0, f.copy1 with
    | some a, some b => decide (a.1 < b.1)
    | some _, none => false
    | none, _ => true
  let seq := (max ((f.copy0.map (·.1)).getD 0) ((f.copy1.map (·.1)).getD 0) + 1) % 2 ^ 32
  let s1 := s.updFlash fun f => if first then { f with copy0 := some (seq, slot) } else { f with copy1 := some (seq, slot) }
  (s1.emit (.flashErase (if first then 0 else 0x1000) 0x1000)).emit (.flashProgram (if first then 0 else 0x1000) (copyBytes seq slot))

/-- The registers that name the running image. -/
def State.showImage (s : State) (im : Image) (slot : Nat) : State :=
  let s1 := (((((s.setB F.CFG_STATUS_LOADED 0 true).setF F.CFG_STATUS_SLOT 0 slot).setF F.CFG_IMAGE_VER_VER 0 im.imageVer).setF
    F.CFG_SVN_RUN 0 im.svn).set64 F.CFG_EPOCH_LO_EPOCH F.CFG_EPOCH_HI_EPOCH im.epoch).setF F.CFG_KEYS_RUN_SLOT 0 im.keySlot
  (s1.forEach (List.range 12) fun t i => t.setF F.CFG_DIGEST_BYTES i (im.digest / 2 ^ (32 * i) % 2 ^ 32)).updCfg fun c =>
    { c with image := some im }

/-- Enables that the image's SET clauses give act as if they had been written (R365, R392). -/
def State.startEnabled (s : State) : State :=
  let s1 := s.forEach (List.range 32) fun t h =>
    let u := if t.isSet F.LNK_HEAD_CTL_EN h then t.linkEnable h else t
    if t.isSet F.SLD_CTL_EN h then u.axisOn h else u
  (s1.forEach (List.range 128) fun t c => if t.isSet F.CHN_CTL_EN c then t.chanEnable c else t).ringStart

/-- The staging state as the flash gives it (R376 to R378), the running slot being known; `svn` gives the SVN of a slot's image. -/
def State.rebuildStage (s : State) (bad : Bool) (svn : Nat → Nat) : State :=
  let s0 := s.updCfg fun c => { c with pieces := [], piece := none }
  if bad then s0.stageErase
  else
    match s0.cfg.flash.stage with
    | none => (s0.setStage sgEMPTY).showStage
    | some d =>
      match d.copied with
      | none => (s0.setStage (if s0.cfg.flash.marked.length < d.count then sgRECEIVING else sgVERIFYING)).showStage
      | some k =>
        if s0.isSet F.CFG_STATUS_LOADED 0 && s0.getF F.CFG_STATUS_SLOT 0 == k then s0.stageErase
        else ((s0.setStage sgREADY).showStage).updCfg fun c => { c with stageSvn := svn k }

/-- The records of the log that verify, and the one the next record follows (R371). -/
def State.findPrev (s : State) (bad : List Nat) : State :=
  let l := s.cfg.flash.log.filter fun r => !bad.contains r.ctr
  let top := l.foldl (fun (m : Option BootRec) r => match m with | some x => if x.ctr < r.ctr then some r else m | none => some r) none
  ((s.updFlash fun f => { f with log := l }).updCfg fun c => { c with prev := top }).setF F.CFG_LOG_STATUS_HELD 0 l.length

/-- A slot's failure is recorded; FAIL_CLAUSE keeps the first clause found (R366, R367). A training failure is device-fatal
(R324). -/
def State.slotFailed (s : State) (slot cause clause : Nat) : State :=
  let s1 := s.setF (if slot = 0 then F.CFG_LOAD_CAUSE_CAUSE_A else F.CFG_LOAD_CAUSE_CAUSE_B) 0 cause
  let s2 := if s1.getF F.CFG_STATUS_FAIL_CLAUSE 0 = 0xFFFF then s1.setF F.CFG_STATUS_FAIL_CLAUSE 0 clause else s1
  if cause = 11 then (s2.setB F.MEM_STATUS_INIT_FAIL 0 true).deviceFatal E.MEM_INIT_FAIL else s2

/-- The device runs with an image placed from a slot. -/
def State.runImage (s : State) (im : Image) (slot : Nat) : State :=
  (((s.setB F.MEM_STATUS_INIT_DONE 0 true).setB F.MEM_STATUS_INIT_FAIL 0 false).showImage im slot)

/-- The image in a slot. -/
def LoadIn.image (x : LoadIn) (k : Nat) : Image := (if k = 0 then x.slotA else x.slotB).image

/-- What follows every load, whether an image is placed or not (R371, R372, R378, R421). -/
def State.afterLoad (s : State) (cause : Nat) (x : LoadIn) : State :=
  let s1 := (s.updCfg fun c => { c with load := none, recordDue := some cause }).calPendAll
  (s1.findPrev x.badLog).rebuildStage x.stageBad fun k => (x.image k).svn

/-- The image load ends: the ACTIVE slot, else the other, else no image (R280, R300, R367).
DEDUCED, unsafe: log 45. -/
def State.loadEnds (s : State) (cause : Nat) (x : LoadIn) : State :=
  let k := s.cfg.flash.active
  let fused := s.getF F.CFG_KEYS_FUSED 0
  let revoked := s.getF F.CFG_KEYS_REVOKED 0
  let s0 := s.setF F.CFG_KEYS_USABLE 0 (maskOf 4 fun b => x.keysMatch.testBit b && fused.testBit b && !revoked.testBit b)
  match s0.attempt (x.image k) with
  | .placed t => (((t.runImage (x.image k) k).afterLoad cause x).startEnabled).controllerReady
  | .failed c n =>
    let s1 := s0.slotFailed k c n
    match s1.attempt (x.image (1 - k)) with
    | .placed t =>
      let u := ((t.runImage (x.image (1 - k)) (1 - k)).setB F.CFG_STATUS_FALLBACK 0 true).raise E.CFG_FALLBACK 0
      ((u.afterLoad cause x).startEnabled).controllerReady
    | .failed c2 n2 =>
      let s2 := (((s1.slotFailed (1 - k) c2 n2).setB F.CFG_STATUS_LOAD_FAIL 0 true).setB F.HQI_CSTS_NOT_READY 0 true).raise
        E.CFG_LOAD_FAIL 0
      (s2.afterLoad cause x).ringOff

/-! ### Boot records (R370 to R373) -/

/-- Bytes of a constant function. -/
def bytesOf (n : Nat) (f : Nat → BitVec 8) : List Nat := (List.range n).map fun k => (f k).toNat

/-- The boot record that would be signed now (R370).
DEDUCED, unsafe: log 48. -/
def State.makeRecord (s : State) (cause time : Nat) : BootRec :=
  let ctr := match s.cfg.prev with | some p => (p.ctr + 1) % 2 ^ 32 | none => 1
  let info := cause + 2 ^ 8 * s.getF F.CFG_STATUS_SLOT 0 + 2 ^ 9 * s.getF F.CFG_STATUS_FALLBACK 0 +
    2 ^ 10 * s.getF F.CFG_STATUS_LOAD_FAIL 0 + 2 ^ 11 * s.cfg.prev.isNone.toNat + 2 ^ 24
  let prev := match s.cfg.prev with
    | some p => bytesOf 48 (Config.sha384 p.bytes)
    | none => List.replicate 48 0
  let b := leBytes 4 ctr ++ leBytes 4 info ++ leBytes 8 time ++ leBytes 4 (s.getF F.CFG_IMAGE_VER_VER 0) ++
    leBytes 4 (s.getF F.CFG_SVN_RUN 0) ++ leBytes 8 s.epoch ++
    (List.range 12).flatMap (fun i => leBytes 4 (s.getF F.CFG_DIGEST_BYTES i)) ++
    bytesOf 32 (Config.fuseDigest s.cfg.fuses.pub) ++ prev
  { ctr := ctr, bytes := b ++ bytesOf 96 (Config.idSig b) }

/-- A record held: the current one, or one of the log (R373). -/
def State.heldRec (s : State) (n : Nat) : Option BootRec :=
  match s.cfg.current with
  | some r => if r.ctr = n then some r else s.cfg.flash.log.find? fun x => x.ctr = n
  | none => s.cfg.flash.log.find? fun x => x.ctr = n

/-- Up to k records from counter n downwards, until one is not held. -/
def State.recordsFrom (s : State) : Nat → Nat → List BootRec
  | 0, _ => []
  | k + 1, n =>
    match s.heldRec n with
    | some r => r :: (if n = 0 then [] else s.recordsFrom k (n - 1))
    | none => []

/-- ATTEST READ acts; the current record is waited for (R373). -/
def State.serveAttest (s : State) (c : Cmd) : State :=
  let n := c.csfNum 0 4
  let send (t : State) (bs : List Nat) (res : Nat) : State := (t.emit (.hostWrite c.dptr1 (page bs) (t.relaxed c.q))).finish c.pos stSuccess res
  if n = 0 then send s (bytesOf 4096 Config.identityByte) 0
  else if n = 0xFFFFFFFF ∧ ¬ s.isSet F.CFG_STATUS_RECORD_READY 0 then s
  else
    let rs := s.recordsFrom (c.csf.getD 4 0) (if n = 0xFFFFFFFF then s.getF F.CFG_BOOT_CTR_CTR 0 else n)
    if rs.isEmpty then s.finish c.pos stNoSuchRecord 0
    else send s (rs.flatMap (·.bytes)) rs.length

/-- Every ATTEST READ that waits. -/
def State.serveAttests (s : State) : State :=
  s.forEach (s.hqi.cmds.filter fun c => c.opc == 0x09 && c.stage == .running) fun t c => if t.mayIssue 0 then t.serveAttest c else t

/-- The log keeps a record of counter n once record c has been written: a sector is erased before its first record (R371).
DEDUCED, unsafe: log 48. -/
def logKeeps (c n : Nat) : Bool := decide (16 * (c / 16) ≤ n + 4096)

/-- A record is signed, becomes current, and is written to the log (R372).
DEDUCED, unsafe: log 48. -/
def State.signRecord (s : State) (cause time : Nat) (logOk : Bool) : State :=
  let r := s.makeRecord cause time
  let s1 := (((s.updCfg fun c => { c with current := some r, prev := some r }).setF F.CFG_BOOT_CTR_CTR 0 r.ctr).setF
    F.CFG_STATUS_RESET_CAUSE 0 cause).setB F.CFG_STATUS_RECORD_READY 0 true
  let at_ := flLog + 256 * (r.ctr % 4112)
  let s2 := (s1.onlyIf (r.ctr % 16 == 0) fun t => t.emit (.flashErase at_ 0x1000)).emit (.flashProgram at_ r.bytes)
  let s3 :=
    if logOk then
      let l := r :: s2.cfg.flash.log.filter fun x => x.ctr != r.ctr && logKeeps r.ctr x.ctr
      (s2.updFlash fun f => { f with log := l }).setF F.CFG_LOG_STATUS_HELD 0 l.length
    else (s2.count F.CFG_LOG_STATUS_FAILS 0).raise E.CFG_LOG_FAIL 0
  s3.serveAttests

/-! ### The shift (R380 to R383, R402) -/

/-- The unit is quiescent (R381). -/
def State.quiescent (s : State) : Bool :=
  ((List.range 32).all fun h =>
    let c := s.clr h
    (c == hdOFF || c == hdPARKED || c == hdHOLD || c == hdSAFE || (c == hdFOLLOW && (s.head h).op.isNone)) && s.wcy h == wsIDLE) &&
  (List.range 8).all fun a => !s.isSet F.ASY_ENG_STATUS_BUSY a

/-- COMMIT for frame f: media operations are held (R319, R381).
DEDUCED, unsafe: log 45. -/
def State.shiftCommit (s : State) (f : Nat) : State :=
  ((((s.setF F.CFG_SHIFT_STATUS_STATE 0 shCOMMITTED).setF F.CFG_SHIFT_STATUS_DEFER 0 0).setF F.CFG_SHIFT_FRAME_LO_F_LO 0
    (f % 2 ^ 32)).setF F.CFG_SHIFT_FRAME_HI_F_HI 0 (f / 2 ^ 32)).setB F.HQI_CSTS_HELD 0 true

/-- A SHIFT block with PHASE COMMIT reaches a unit that is on the ring and armed for its epoch (R401, R403). -/
def State.commitSeen (s : State) (e f : Nat) : State :=
  if s.onRing && s.shift == shARMED && s.stageEpoch == e then s.shiftCommit f else s

/-- A SHIFT block with PHASE ABORT reaches a unit armed for its epoch (R402). -/
def State.abortSeen (s : State) (e : Nat) : State :=
  if s.shift = shARMED ∧ s.stageEpoch = e then (s.dropStandby shNONE).issueWaiting else s

/-- The frame F of the shift. -/
def State.shiftF (s : State) : Nat := s.get64 F.CFG_SHIFT_FRAME_LO_F_LO F.CFG_SHIFT_FRAME_HI_F_HI

/-- The frame for which a unit that is not on a ring commits itself: at least 16 frames later (R383, R404).
DEDUCED, unsafe: log 50. -/
def State.selfFrame (s : State) : Nat :=
  if s.isSet F.TRL_CTL_EN 0 && decide (2 ≤ s.role) then (s.trl.time + 16) % 2 ^ 40 else (s.tick + 849) / 50 % 2 ^ 40

/-- What a PLACE fixes of a head's Collier and learner pair, and of a Winder. -/
def State.headPlace (s : State) (h : Nat) : List Nat :=
  s.getF F.LRN_MOUNT_MOUNT h :: (s.cl h).shaped.toNat :: (List.range 3).flatMap fun i =>
    [s.getF F.CLR_LOOP_CTL_PLACED (3 * h + i), s.getF F.CLR_LOOP_CTL_NSOS (3 * h + i), s.getF F.CLR_LOOP_CTL_INT_TAP (3 * h + i)]
def State.deckPlace (s : State) (d : Nat) : List Nat :=
  [F.WND_MOTOR_CLASS, F.WND_MOTOR_P, F.WND_MOTOR_SPD_MIN, F.WND_MOTOR_SPD_MAX, F.WND_MODEL_KE_I_FS, F.WND_MODEL_RL_RS,
   F.WND_MODEL_RL_LS, F.WND_MODEL_KE_KE].map fun f => s.getF f d

/-- The SET items of an image for registers: the clause's kind, INDEX and items. -/
def Image.sets (im : Image) : List (Nat × Nat × List CfgItem) :=
  im.clauses.filterMap fun c => match c with | .set k x items => some (k, x, items) | _ => none

/-- Do something with every register that an image's SET items name, in order; `pick` says of which kinds. -/
def State.forSets (s : State) (im : Image) (pick : Nat → Bool) (f : State → RegDef → Nat → Nat → State) : State :=
  s.forEach (im.sets.filter fun c => pick c.1) fun t c =>
    t.forEach ((t.instances c.1 c.2.1).getD []) fun u i =>
      u.forEach c.2.2 fun w x =>
        match (if 2 ^ 31 ≤ x.1 then none else setItemReg c.1 i x.1 (c.2.1 == 0xFFFF)) with
        | some (r, j) => f w r j x.2
        | none => w

/-- The RW fields of a register take their chapter's reset values. -/
def State.resetReg (s : State) (r : RegDef) (i : Nat) : State :=
  r.fields.foldl (fun t f => if f.acc = .rw then t.setF f.fld i f.fld.reset else t) s

/-- What an image placed and wired is taken away, the Winders of decks apart, which keep their motors' values until others are
placed or they rest. -/
def State.unplace (s : State) : State :=
  let s1 := s.forEach (List.range 32) fun t h =>
    let u := t.forEach (List.range 3) fun w i =>
      ((((w.setB F.CLR_LOOP_CTL_PLACED (3 * h + i) false).setF F.CLR_LOOP_CTL_NSOS (3 * h + i) 0).setF
        F.CLR_LOOP_CTL_INT_TAP (3 * h + i) 0)).setF F.CLR_LOOP_CTL_SRC (3 * h + i) 0
    (u.updClr h fun c => { c with shaped := false }).updSld h fun a => { a with swap := false, invert := false }
  s1.forEach (List.range 8) fun t d => t.updWnd d fun w => { w with present := false, phases := 0 }

/-- Place and wire what an image says; its clauses have been checked when the standby plane was prepared. -/
def State.placeAll (s : State) (im : Image) : State :=
  s.forEach im.clauses fun t c =>
    match c with
    | .place k x items => t.forEach ((t.instances k x).getD []) fun u i => u.forEach items fun w p => (w.placeItem k i p.1 p.2).getD w
    | .wire k x items => t.forEach ((t.instances k x).getD []) fun u i => u.forEach items fun w p => (w.wireItem k i p.1 p.2).getD w
    | _ => t

/-- A deck that the new image does not place: its heads go to OFF, its volume is unmounted, it brakes (R382). -/
def State.deckGone (s : State) (d : Nat) : State :=
  let s1 := (s.forEach (headsOf d) fun t h => t.headOff h).volumeGone d stVolumeRemoved
  if s1.turning d then s1.brakeDeck d
  else if s1.deck d = dkEMPTY || s1.deck d = dkLOADED then s1.removeDeck d else s1

/-- Lines of cache ways that are no longer placed are written back and dropped. -/
def State.trimWays (s : State) : State :=
  s.forEach (s.cache.filter fun l => s.ways ≤ l.way) fun t l => t.evict l {}

/-- The standby plane takes over at the shift strobe, DEFER frames after F (R30, R382).
DEDUCED, unsafe: log 51. -/
def State.shiftApply (s : State) (defer : Nat) : State :=
  match s.cfg.standby with
  | none => s
  | some im =>
    let slot := ((s.cfg.flash.stage.bind (·.copied)).getD 0)
    let old := s.cfg.image.getD {}
    let s1 := (s.emit .shiftStrobe).forSets old (fun _ => true) fun t r j _ => t.resetReg r j
    let s2 := (((s1.unplace.placeAll im).forSets im (fun _ => true) fun t r j v => t.storeReg r j v).trimWays).discFollow
      (s.isSet F.TCK_CTL_DISC_EN 0)
    let s3 := ((s2.showImage im slot).updCfg fun c => { c with
      standby := none, copying := true, lastShift := s.frameStarts }).stageErase
    let s4 := (s3.setF F.CFG_SHIFT_STATUS_STATE 0 shAPPLIED).setF F.CFG_SHIFT_STATUS_DEFER 0 defer
    let s5 := s4.onlyIf (defer != 0) fun t => t.raise E.CFG_SHIFT_LATE 0
    let s6 := s5.forEach ((List.range 32).filter fun h => s.headPlace h != s5.headPlace h) fun t h => t.clearTables h 3
    let s7 := s6.forEach ((List.range 8).filter fun d => s5.present d && s.deckPlace d != s5.deckPlace d && (s.turning d || s.deck d == dkBRAKING)) fun t d =>
      t.enterMeasure d
    s7.forEach ((List.range 8).filter fun d => s.present d && !s5.present d) fun t d => t.deckGone d

/-- Frame F or a later one has begun for a committed or holding unit (R381). -/
def State.shiftFrame (s : State) : State :=
  let now := s.frameStarts
  let n := (now + 2 ^ 40 - s.shiftF) % 2 ^ 40
  if !begun s.shiftF now then s
  else if s.quiescent && decide (n ≤ 4096) then s.shiftApply n
  else if 4096 ≤ n then s.shiftStays
  else s.setF F.CFG_SHIFT_STATUS_STATE 0 shHOLDING

/-- The shift strobe of the servo tick that begins next, when that begins a ring frame: what it does happens in cycle 0 of the tick,
before the tick's work (R30, R382).
DEDUCED, unsafe: log 88. -/
def State.atStrobe (s : State) (f : State → State) : State :=
  let k := (s.tick + 1) % 2 ^ 48
  if k % 50 = 0 ∧ s.tck.repeats = 0 then { f { s with tick := k } with tick := s.tick } else s

/-- The loaded entries are copied into the tables (R382).
DEDUCED, unsafe: log 51. -/
def State.copyLoads (s : State) (im : Image) : State :=
  s.forEach im.clauses fun t c =>
    match c with
    | .load k x offset entries =>
      t.forEach (if k = 0x04 then [0] else (t.instances k x).getD []) fun u i => (u.loadFor k i offset (x == 0xFFFF) entries).getD u
    | _ => t

end Sys2Proof.Machine
end

