-- ==== Sys2Proof/Machine/CfgCmds.lean ====
section
/-!
DEFINITION. The meanings of the configuration rows (15): the CONFIG and ATTEST commands, fuses, loads and boot records, staging,
the shift.
-/
namespace Sys2Proof.Machine

/-! ### Host commands (R373, R375, R380) -/

/-- CONFIG PIECE: its page is fetched; `sigOk` says whether the piece's signature will verify. -/
def execConfigPiece (sigOk : Bool) (s : State) : Out :=
  doneQ s fun t => t.begin 0x07 (fun _ => true) fun u c =>
    ((u.updCmd c.pos fun d => { d with sigOk := sigOk }).beginPages c.pos).requestPages c.pos 0

/-- CONFIG ARM is accepted (R380). -/
def State.armOk (s : State) (e : Nat) : Bool :=
  s.stg == sgREADY && s.stageEpoch == e && decide (s.epoch < e) && !s.shiftArmed && s.cfg.arming.isNone &&
  !s.isSet F.TRL_STATUS_MIXED 0 && !s.contained

/-- CONFIG ARM: preparation begins, or the command is refused. -/
def execConfigArm (s : State) : Out :=
  doneQ s fun t => t.begin 0x08 (fun _ => true) fun u c =>
    if u.armOk (c.csfNum 0 8) then u.updCfg fun g => { g with arming := some c.pos } else u.finish c.pos stArmRefused 0

/-- ATTEST READ. -/
def execAttestRead (s : State) : Out := doneQ s fun t => t.begin 0x09 (fun _ => true) fun u c => u.serveAttest c

/-! ### Fuses (R352) -/

/-- SVN_COMMIT: CFG_FUSE_CMD with OP 1. -/
def execSvnCommit (confirm : BitVec 8) (s : State) : Out := doneW s fun t => t.fuseCmd 1 confirm.toNat 0

/-- KEY_REVOKE: CFG_FUSE_CMD with OP 2. -/
def execKeyRevoke (confirm : BitVec 8) (slot : Fin 4) (s : State) : Out := doneW s fun t => t.fuseCmd 2 confirm.toNat slot

/-- The end of a fuse command: `bad` are the bits that do not program. -/
def State.fuseDone (s : State) (o : FuseOp) (bad : Nat) : State :=
  let s0 := (s.setB F.CFG_FUSE_CMD_BUSY 0 false).updCfg fun c => { c with fuse := none }
  let failed (t : State) : State := (t.setB F.CFG_FUSE_CMD_FAIL 0 true).raise E.CFG_FUSE_FAIL 0
  match o with
  | .svn =>
    let want := 2 ^ s.getF F.CFG_SVN_RUN 0 - 1
    let old := s.cfg.fuses.svn
    let lost := want - (want &&& old) &&& bad
    let s1 := (s0.updCfg fun c => { c with fuses := { c.fuses with svn := old ||| (want - (want &&& lost)) } }).senseFuses
    let s2 := if lost = 0 then s1.raise E.CFG_SVN_COMMITTED 0 else failed s1
    if s2.stg = sgREADY ∧ s2.cfg.stageSvn < s2.getF F.CFG_SVN_FUSED 0 then s2.stageFails 5 else s2
  | .revoke k =>
    if bad.testBit k then failed s0
    else
      let s1 := (s0.updCfg fun c => { c with fuses := { c.fuses with revoke := c.fuses.revoke ||| 2 ^ k } }).senseFuses
      let s2 := s1.putF F.CFG_KEYS_USABLE 0 k false
      if sgRECEIVING ≤ s2.stg ∧ s2.stg ≤ sgREADY ∧ (s2.cfg.flash.stage.any fun d => d.keySlot = k) then s2.stageFails 4 else s2

/-- FUSE_PROGRAM_DONE: `bad` are the bits of the field that do not program. -/
def execFuseProgramDone (bad : BitVec 64) (s : State) : Out :=
  doneQ s fun t => match t.cfg.fuse with | some o => t.fuseDone o bad.toNat | none => t

/-! ### The load and the boot record (R367, R372) -/

/-- IMAGE_LOAD_DONE: a full load ends, with what it finds in the flash. -/
def execImageLoadDone (x : LoadIn) (s : State) : Out :=
  doneQ s fun t =>
    match t.cfg.load with
    | some l => if l.verifyOnly || !t.pwr.held.isEmpty then t else t.loadEnds l.cause x
    | none => t

/-- BOOT_RECORD_SIGN: the record that is due is signed; `logOk` says whether its log write succeeds. -/
def execBootRecordSign (logOk : Bool) (s : State) : Out :=
  doneQ s fun t =>
    match t.cfg.recordDue with
    | some c => ((t.signRecord c t.ringNow logOk).updCfg fun g => { g with recordDue := none })
    | none => t

/-! ### Staging (R376 to R378) -/

/-- PIECE_PROGRAMMED: the piece in hand has been programmed and read back, or its programming fails. -/
def execPieceProgrammed (ok : Bool) (s : State) : Out :=
  doneQ s fun t => match t.cfg.piece with | some j => t.pieceDone j ok | none => t

/-- The slot that is not running. -/
def State.spareSlot (s : State) : Nat := 1 - s.getF F.CFG_STATUS_SLOT 0

/-- STAGE_VERIFY_DONE: what the checks find in the staging area. -/
def execStageVerifyDone (f : Stored) (s : State) : Out :=
  let im := f.image
  doneQ s fun t =>
    if t.stg ≠ sgVERIFYING then t
    else
      let c := t.verifyCause im
      if c ≠ 0 then t.stageFails c
      else
        let u := (t.setStage sgCOPYING).updCfg fun g => { g with stageSvn := im.svn }
        (u.emit (.flashErase (flSlot t.spareSlot) 0x1000000)).emit (.flashCopy (flSlot t.spareSlot) (3968 * t.getF F.CFG_STAGE_STATUS_COUNT 0))

/-- STAGE_COPY_DONE: what the check of the slot copied finds. -/
def execStageCopyDone (f : Stored) (s : State) : Out :=
  let im := f.image
  doneQ s fun t =>
    if t.stg ≠ sgCOPYING then t
    else
      let c := t.verifyCause im
      if c ≠ 0 then t.stageFails c
      else
        let k := t.spareSlot
        let u := t.updFlash fun f => { f with stage := f.stage.map fun d => { d with copied := some k } }
        ((u.emit (.flashProgram (flStage + 10) [k])).setStage sgREADY).raise E.CFG_STAGE_READY 0

/-- Writing CFG_STAGE_CTL.ABANDON (R378, R384). -/
def State.abandon (s : State) : State := if s.stg = sgARMED ∨ s.shiftArmed then s.cfgReject else s.stageErase

/-- STAGE_ABANDON. -/
def execStageAbandon (s : State) : Out := doneW s fun t => t.abandon

/-! ### Arming and the shift (R380 to R384) -/

/-- The cause that the preparation of the standby plane fails with, 0 when it succeeds (R380). -/
def State.prepareCause (s : State) (im : Image) : Nat :=
  let c := s.headerCause im
  if !im.flashOk then 12
  else if c ≠ 0 then c
  else
    match ({} : State).applySentence im with
    | .failed c _ => c
    | .placed _ => if im.digestOk then 0 else 8

/-- The standby plane is prepared: ARMED; a unit that is not on a ring commits itself (R380, R383, R404).
DEDUCED, unsafe: log 50. -/
def State.armed (s : State) (im : Image) (pos : Nat) : State :=
  let s1 := ((((s.updCfg fun c => { c with standby := some im }).setStage sgARMED).setF F.CFG_SHIFT_STATUS_STATE 0 shARMED).finish pos
    stSuccess 0).raise E.CFG_ARMED 0
  if s1.onRing then s1 else s1.shiftCommit s1.selfFrame

/-- ARM_PREPARED: what the preparation finds in the copied slot. -/
def execArmPrepared (f : Stored) (s : State) : Out :=
  let im := f.image
  doneQ s fun t =>
    match t.cfg.arming with
    | none => t
    | some pos =>
      let u := t.updCfg fun c => { c with arming := none }
      let c := u.prepareCause im
      if u.stg ≠ sgREADY then u.finish pos stArmRefused 0
      else if c ≠ 0 then (u.stageFails c).finish pos stArmRefused 0
      else u.armed im pos

/-- SHIFT_COMMIT_RECEIVED: a SHIFT block with PHASE COMMIT, epoch e and frame f (R381, R401, R403). -/
def execShiftCommitReceived (e : BitVec 64) (f : BitVec 40) (s : State) : Out :=
  doneQ s fun t => t.commitSeen e.toNat f.toNat

/-- SHIFT_FRAME_BEGIN: frame F begins for a committed unit. -/
def execShiftFrameBegin (s : State) : Out := doneQ s fun t => t.atStrobe fun u => if u.shift = shCOMMITTED then u.shiftFrame else u

/-- SHIFT_QUIESCENT: a holding unit has become quiescent. -/
def execShiftQuiescent (s : State) : Out := doneQ s fun t => t.atStrobe fun u => if u.shift = shHOLDING ∧ u.quiescent then u.shiftFrame else u

/-- SHIFT_STAY_TIMEOUT: frame F + 4,096 begins for a holding unit. -/
def execShiftStayTimeout (s : State) : Out :=
  doneQ s fun t => t.atStrobe fun u =>
    if u.shift = shHOLDING ∧ 4096 ≤ (u.frameStarts + 2 ^ 40 - u.shiftF) % 2 ^ 40 then u.shiftFrame.issueWaiting else u

/-- SHIFT_TABLES_COPIED: the loaded tables are copied after a shift; `logOk` says whether the log write of its record succeeds.
DEDUCED, unsafe: log 45.
DEDUCED, unsafe: log 51. -/
def execShiftTablesCopied (logOk : Bool) (s : State) : Out :=
  doneQ s fun t =>
    if !t.cfg.copying then t
    else
      let u := (t.copyLoads (t.cfg.image.getD {})).updCfg fun c => { c with copying := false }
      let w := ((u.setB F.HQI_CSTS_HELD 0 false).writeActive (u.getF F.CFG_STATUS_SLOT 0)).setB F.CFG_STATUS_FALLBACK 0 false
      (((w.signRecord 5 (if w.onRing then w.cfg.lastShift else 0) logOk)).raise E.CFG_SHIFT_APPLIED 0).issueWaiting

end Sys2Proof.Machine
end

