-- ==== Sys2Proof/Machine/Resets.lean ====
section
/-!
DEFINITION. What the reset sources clear (R410), by domain: the register store loses the values of a domain's fields, which then
read their reset values. Resets of PF0 and PF1 (R281, R282); the resets of the whole device are in ResetCmds.lean.
-/
namespace Sys2Proof.Machine

/-- The fields a test selects take their reset values. -/
def State.clearFields (s : State) (p : Nat → Bool) : State := { s with regs := s.regs.filter fun c => !p c.fld.id }

/-- A field number lies from a to b. -/
def idIn (a b n : Nat) : Bool := decide (a ≤ n ∧ n ≤ b)

/-- A function's configuration space, MSI-X table and PBA. -/
def State.clearFunction (s : State) (fn : Nat) : State :=
  let s1 := s.setPf fn {}
  if fn = 0 then { s1 with hif := { s1.hif with table0 := Vector.replicate 256 {} } }
  else { s1 with hif := { s1.hif with table1 := Vector.replicate 32 {} } }

/-- The window registers, shadow and live; a commit that waits is cancelled (R282, R297). -/
def State.clearWindows (s : State) : State :=
  let s1 := s.clearFields (idIn F.HIF_WIN_BASE_LO_BASE_LO.id F.HIF_WIN_LIVE_SIZE_CTL_EN.id)
  { s1 with hif := { s1.hif with commits := [] } }

/-- The HIF registers other than the window registers and HIF_EVT bits 4 to 7 (R298); with them containment ends. -/
def State.clearHif (s : State) : State :=
  (s.clearFields fun n => idIn 3001 3040 n && !idIn F.HIF_EVT_LINK_LOST.id F.HIF_EVT_HOT_RESET.id n && n != F.HIF_EVT_FORCED.id).setF
    F.HIF_EVT_FORCED 0 (s.getF F.HIF_EVT_FORCED 0 / 16 % 16 * 16)

/-- The queues of PF0: HQI_CC, HQI_CSTS.RDY, queue pair registers and doorbells; SET items of the image for them are made again.
DEDUCED, unsafe: log 46. -/
def State.clearQueues (s : State) : State :=
  let s1 := s.clearFields fun n => n == F.HQI_CC_EN.id || n == F.HQI_CSTS_RDY.id || idIn F.HQI_SQ_BASE_LO_ADDR_LO.id F.HQI_CQ_HEAD_HEAD.id n
  let s2 : State := { s1 with hqi := { s1.hqi with pairs := Vector.replicate 65 {}, arb := {} } }
  match s.cfg.image with
  | some im => s2.forSets im (· == 0x0F) fun t r j w =>
      if idIn R.HQI_SQ_BASE_LO.base R.HQI_CQ_HEAD.base r.base then t.storeReg r j w else t
  | none => s2

/-- The commands of PF0 are aborted and its queues cleared; reads held back for commands that are gone end (R282, R319). -/
def State.abortQueues (s : State) : State := ((s.resetAbort fun _ => true).clearQueues).deliverHeld

/-- FLR of PF0 (R282). -/
def State.flrPf0 (s : State) : State :=
  let s1 := s.abortQueues.clearWindows.clearFunction 0
  ((s1.setPf 0 { s1.pf 0 with flr := true }).raise E.HIF_FLR0 0).resetSource F.PWR_RESET_CAUSE_FLR0 4

/-- FLR of PF1 (R282). -/
def State.flrPf1 (s : State) : State :=
  let s1 := s.clearFunction 1
  ((s1.setPf 1 { s1.pf 1 with flr := true }).raise E.HIF_FLR1 0).resetSource F.PWR_RESET_CAUSE_FLR1 5

/-- A function answers configuration requests: the link is up, and no reset or load holds it (R280 to R282). -/
def State.cfgServed (s : State) (fn : Nat) : Bool :=
  s.isSet F.HIF_LINK_DL_ACTIVE 0 && !s.hif.perst && !s.hif.hotPending && s.cfg.load.isNone && !(s.pf fn).flr

end Sys2Proof.Machine
end

