-- ==== Sys2Proof/Machine/HifCmds.lean ====
section
/-!
DEFINITION. The meanings of the endpoint's rows (12), its resets PERST# and hot reset apart: FLR, configuration requests, link,
completions, peer windows, interrupts, containment, power states.
-/
namespace Sys2Proof.Machine

/-! ### FLR (R282) -/

/-- FLR_PF0: Initiate FLR is written in PF0's configuration space. -/
def execFlrPf0 (s : State) : Out := doneQ s fun t => if t.cfgServed 0 then t.flrPf0 else t

/-- FLR_PF1. -/
def execFlrPf1 (s : State) : Out := done s fun t => if t.cfgServed 1 then t.flrPf1 else t

/-- What waited for a function that may act again: its messages, PF0's requests, completions and deliveries (R288, R297). -/
def State.resumeFn (s : State) (fn : Nat) : State :=
  let s1 := s.flushPba fn
  if fn = 0 then s1.pump.deliverHeld else s1

/-- FLR_COMPLETE of a function. -/
def execFlrComplete (fn : Fin 2) (s : State) : Out :=
  done s fun t => if (t.pf fn).flr then (t.setPf fn { t.pf fn with flr := false }).resumeFn fn else t

/-! ### Configuration requests (R276 to R280) -/

/-- The identifiers of a function (R278): vendor, device, revision, class code, subsystem, interrupt pin. -/
def State.identBytes (s : State) (fn : Nat) : List Nat :=
  leBytes 2 0x1E8C ++ leBytes 2 (0x3208 + fn) ++ leBytes 1 (s.getF F.GLB_DEVICE_ID_STEPPING 0) ++
    leBytes 3 (if fn = 0 then 0x018000 else 0x088000) ++ leBytes 4 s.cfg.fuses.subsys ++ [1]

/-- The size of a BAR pair (R279): pair 0 is BAR0/1, pair 1 BAR2/3, pair 2 BAR4/5. -/
def barSize (fn pair : Nat) : Nat :=
  match fn, pair with
  | 0, 0 => 0x1000000
  | 0, 1 => 0x40000000
  | 0, 2 => 0x4000
  | 1, 0 => 0x8000000
  | 1, 2 => 0x4000
  | _, _ => 0

/-- Enter or leave D3hot (R297). -/
def State.setPower (s : State) (fn : Nat) (d3 : Bool) : State :=
  let s1 := s.setPf fn { s.pf fn with d3 := d3 }
  if d3 then s1 else s1.resumeFn fn

/-- The effect and the answer of a configuration request that is served. -/
def State.configRequest (s : State) (fn : Nat) (r : CfgReq) : State :=
  let p := s.pf fn
  let ok (t : State) : State := t.emit (.cplData [])
  match r with
  | .ident => s.emit (.cplData (s.identBytes fn))
  | .serial => s.emit (.cplData (leBytes 8 s.cfg.fuses.serial))
  | .barSize n => s.emit (.cplData (leBytes 8 (barSize fn n)))
  | .other o => s.emit (.cplData (leBytes 4 (Config.configReg fn o).toNat))
  | .msixEnable b => ok ((s.setPf fn { p with msixEn := b }).flushPba fn)
  | .functionMask b => ok ((s.setPf fn { p with funcMask := b }).flushPba fn)
  | .intxDisable b => ok (s.setPf fn { p with intxDis := b })
  | .relaxedOrdering b => ok (s.setPf fn { p with roEn := b })
  | .cplTimeout v d => ok (s.setPf fn { p with cplTmo := v % 16, cplTmoDis := d })
  | .ltrEnable b => ok (s.setPf fn { p with ltrEn := b })
  | .internalFatal b => ok (s.setPf fn { p with internalFatal := b })
  | .powerState d3 => ok (s.setPower fn d3)
  | .clearAer => ok (s.setPf fn { p with aer := [] })

/-- CONFIG_REQUEST: answered, or with retry status (R280 to R282). While the link is down none arrives. -/
def execConfigRequest (fn : Fin 2) (r : CfgReq) (s : State) : Out :=
  doneQ s fun t =>
    if !t.isSet F.HIF_LINK_DL_ACTIVE 0 || t.hif.perst then t
    else if t.cfgServed fn then t.configRequest fn r else t.emit .cplRetry

/-! ### The link (R277, R288, R294) -/

/-- LINK_UP: trained at a speed (1 to 5) and width (1, 2, 4, 8). -/
def State.pcieUp (s : State) (speed width : Nat) : State :=
  if s.hif.perst || s.isSet F.HIF_LINK_DL_ACTIVE 0 || !s.isSet F.PWR_STATUS_PCIE_REF 0 then s
  else
    let low := decide (width < 8 ∨ speed < 5)
    let s1 := (((s.setB F.HIF_LINK_DL_ACTIVE 0 true).setF F.HIF_LINK_SPEED 0 speed).setF F.HIF_LINK_WIDTH 0 width).setB
      F.HIF_LINK_DEGRADED 0 low
    (((s1.onlyIf low fun t => t.raise E.HIF_LINK_DEGRADED 0).flushPba 0).flushPba 1).pump.deliverHeld

/-- LINK_UP. -/
def execLinkUp (speed width : Nat) (s : State) : Out := doneQ s fun t => t.pcieUp speed width

/-- The link registers of a link that is down. -/
def State.linkFields (s : State) : State :=
  (((s.setB F.HIF_LINK_DL_ACTIVE 0 false).setF F.HIF_LINK_SPEED 0 0).setF F.HIF_LINK_WIDTH 0 0).setB F.HIF_LINK_DEGRADED 0 false

/-- The data link layer leaves DL_Active; other than through a reset this is link loss (R294, R297). -/
def State.pcieDown (s : State) : State :=
  if !s.isSet F.HIF_LINK_DL_ACTIVE 0 then s
  else
    let s1 := s.linkFields.count F.HIF_LINK_DOWN_CNT 0
    if s.hif.hotPending || s.hif.perst then s1
    else (s1.raise E.HIF_LINK_LOST 0).contain F.HIF_CONTAIN_CAUSE_LINK

/-- LINK_DOWN. -/
def execLinkDown (s : State) : Out := doneQ s fun t => t.pcieDown

/-! ### Completions (R283 to R286, R304, R314) -/

/-- The requests of a command are given up: those that wait are dropped, the others' completions are discarded. -/
def State.dropReqs (s : State) (pos : Nat) : State :=
  let mine (r : OutReq) : Bool := match r.kind with | .listPage p => p == pos | .data p _ => p == pos | .sqFetch _ _ => false
  { s with hif := { s.hif with
      reqs := (s.hif.reqs.filter fun r => !(mine r && !r.sent)).map fun r => if mine r then { r with drop := true } else r } }

/-- A command's transfer ends without its data: no data of a write enters a lode (R285, R304).
DEDUCED, unsafe: log 21. -/
def State.failTransfer (s : State) (pos : Nat) (st : Status) : State :=
  match s.cmd? pos with
  | some c => if c.stage = .running then ((s.finish pos st 0).padWrite pos).dropReqs pos else s
  | none => s

/-- A list page has arrived (R304). -/
def State.listArrives (s : State) (c : Cmd) (bs : List Nat) : State :=
  match c.addList bs with
  | none => s.failTransfer c.pos stInvalidField
  | some d =>
    let s1 := s.updCmd c.pos fun _ => d
    let s2 := match d.listAt with
      | some a => s1.request (.listPage c.pos) a (8 * min 512 (d.npages - d.pages.length))
      | none => s1
    if d.opc = 0x02 then (if d.pagesOk then s2.sendLog d else s2)
    else if d.isWrite && d.assigned.isSome then s2.requestPages c.pos c.pages.length
    else s2

/-- A page of a transfer has arrived: a block of a write, or the piece of a CONFIG PIECE. -/
def State.dataArrives (s : State) (c : Cmd) (page : Nat) (bs : List Nat) : State :=
  if c.opc = 0x07 then s.pieceArrives { bytes := bs, sigOk := c.sigOk, pos := some c.pos }
  else
    match c.seam? with
    | some (v, n) => if c.isWrite then s.fillDrift v n c.pos page (.data bs) else s
    | none => s

/-- All data of a request has arrived: it goes to what asked for it. -/
def State.delivered (s : State) (r : OutReq) (bs : List Nat) : State :=
  match r.kind with
  | .sqFetch q pos => (s.takeEntry pos q bs).pairQuiesce q
  | .listPage pos =>
    match s.cmd? pos with
    | some c => if c.stage = .running then s.listArrives c bs else s
    | none => s
  | .data pos page =>
    match s.cmd? pos with
    | some c => if c.stage = .running then s.dataArrives c page bs else s
    | none => s

/-- A request ends without its data: a queue error of its pair, or a failed transfer (R285, R286, R302). -/
def State.failReq (s : State) (r : OutReq) (cause : Nat) : State :=
  match r.kind with
  | .sqFetch q _ => (s.queueErr q cause).pairQuiesce q
  | .listPage pos => s.failTransfer pos stHostTransfer
  | .data pos _ => s.failTransfer pos stHostTransfer

/-- The outstanding request of a tag. -/
def State.req? (s : State) (tag : Nat) : Option OutReq := s.hif.reqs.find? fun r => r.tag = tag && r.sent

/-- A completion that no outstanding request waits for (R285). -/
def State.unexpected (s : State) : State :=
  ((s.count F.HIF_CPL_ERR_UNEXP 0).aer 0 .unexpectedCompletion).raise E.HIF_UNEXP_CPL 0

/-- A poisoned or unsuccessful completion (R286). -/
def State.badCompletion (s : State) (a : Aer) : State :=
  ((s.count F.HIF_RX_ERR_POISON_RX 0).aer 0 a).raise E.HIF_POISON_RX 0

/-- A completion arrives for the request of a tag with some bytes of its data (R283, R284). -/
def State.completion (s : State) (tag : Nat) (bytes : List Nat) (st : CplStatus) : State :=
  match s.req? tag with
  | none => s.unexpected
  | some r =>
    match st with
    | .ok =>
      let got := r.got ++ bytes
      if got.length < r.len then
        { s with hif := { s.hif with reqs := s.hif.reqs.map fun x => if x.tag = tag then { x with got := got } else x } }
      else if r.drop then s.retire tag
      else (s.retire tag).delivered r (got.take r.len)
    | .poisoned => if r.drop then s.retire tag else ((s.retire tag).badCompletion .poisonedTlp).failReq r 4
    | .unsuccessful => if r.drop then s.retire tag else ((s.retire tag).badCompletion .completionStatus).failReq r 4

/-- COMPLETION_RECEIVED. While the link is down none arrives. -/
def execCompletionReceived (tag : Nat) (bytes : List (BitVec 8)) (st : CplStatus) (s : State) : Out :=
  doneQ s fun t => if t.isSet F.HIF_LINK_DL_ACTIVE 0 then t.completion tag (bytes.map (·.toNat)) st else t

/-- The completion timeout of PF0 in servo ticks of 2.5 us (R284).
DEDUCED, unsafe: log 74. -/
def State.cplTicks (s : State) : Nat :=
  match s.hif.pf0.cplTmo with
  | 0b0001 => 32
  | 0b0010 => 3200
  | 0b0110 => 64000
  | 0b1001 => 256000
  | 0b1010 => 1024000
  | _ => 16000

/-- The completion timer of a request expires (R284, R285); a request whose completions are discarded ends in silence (R295).
DEDUCED, unsafe: log 74. -/
def State.cplTimeout (s : State) (tag : Nat) : State :=
  match s.req? tag with
  | none => s
  | some r =>
    if s.hif.pf0.cplTmoDis || decide (s.tick < r.since + s.cplTicks) then s
    else if r.drop then s.retire tag
    else ((((s.retire tag).count F.HIF_CPL_ERR_TIMEOUT 0).aer 0 .completionTimeout).raise E.HIF_CPL_TIMEOUT 0).failReq r 1

/-- CPL_TIMEOUT. -/
def execCplTimeout (tag : Nat) (s : State) : Out := doneQ s fun t => t.cplTimeout tag

/-! ### Peer windows (R290 to R293, R332) -/

/-- The DRAM address and size of a window, live or shadow. -/
def State.winBase (s : State) (lo hi : Field) (w : Nat) : Nat := s.getF lo w * 2 ^ 21 + s.getF hi w * 2 ^ 32

/-- The live mapping of window w: its base. -/
def State.liveBase (s : State) (w : Nat) : Nat := s.winBase F.HIF_WIN_LIVE_BASE_LO_BASE_LO F.HIF_WIN_LIVE_BASE_HI_BASE_HI w

/-- A peer request is accepted (R290). -/
def State.peerOk (s : State) (off len : Nat) (dir : Field) : Bool :=
  let w := off / 2 ^ 27
  s.isSet F.HIF_CTL_PEER_EN 0 && s.isSet F.HIF_WIN_LIVE_SIZE_CTL_EN w && s.isSet dir w &&
    decide (off % 2 ^ 27 + len ≤ s.getF F.HIF_WIN_LIVE_SIZE_CTL_SIZE w * 2 ^ 21)

/-- The DRAM address of an accepted request. -/
def State.peerAddr (s : State) (off : Nat) : Nat := s.liveBase (off / 2 ^ 27) + off % 2 ^ 27

/-- A peer request is rejected. -/
def State.peerReject (s : State) : State := (s.count F.HIF_RX_ERR_PEER_UR 0).raise E.HIF_PEER_UR 0

/-- The lines a request touches. -/
def linesOf (a len : Nat) : List Nat := if len = 0 then [] else (List.range ((a + len - 1) / 64 - a / 64 + 1)).map (a / 64 + ·)

/-- Read one line for a peer: a cached line whose data is uncorrectable is an error too. -/
def State.peerRead1 (s : State) (x : CacheErr) (n : Nat) : State × Option (List Nat) :=
  match s.cached n with
  | some l => if x.data.contains (l.way, l.set) then ((s.hit l).uncorrectable 0 false srcPeer (Config.sramWord n), none) else s.peerLine n
  | none => s.peerLine n

/-- Read the lines of a request in order; none when one of them is uncorrectable. -/
def State.peerLines (s : State) (x : CacheErr) (ls : List Nat) : State × Option (List Nat) :=
  ls.foldl (fun p n =>
    let q := p.1.peerRead1 x n
    (q.1, match p.2, q.2 with | some a, some b => some (a ++ b) | _, _ => none)) (s, some [])

/-- A peer read that is served. -/
def State.peerRead (s : State) (off len : Nat) (x : CacheErr) : State :=
  if !s.peerOk off len F.HIF_WIN_LIVE_SIZE_CTL_RD_EN then s.peerReject.emit .cplUr
  else if x.tag then (s.deviceFatal E.LCA_TAG_UE).emit .cplUr
  else
    let a := s.peerAddr off
    match s.peerLines x (linesOf a len) with
    | (t, some d) => t.emit (.cplData ((d.drop (a % 64)).take len))
    | (t, none) => t.emit (if s.isSet F.HIF_CTL_POISON_FWD 0 then .cplPoison len else .cplCa)

/-- PEER_READ of bytes at an offset of BAR2; `x` is what the cache's SRAM holds in error. -/
def execPeerRead (off : BitVec 30) (len : Nat) (x : CacheErr) (s : State) : Out :=
  doneQ s fun t =>
    if t.pf0Served then t.peerRead off.toNat len x
    else t.refuseRead

/-- Write whole lines from a line number. -/
def State.peerPuts (s : State) (n : Nat) (bytes : List Nat) : Nat → State
  | 0 => s
  | k + 1 => (s.peerPut n (bytes.take 64)).peerPuts (n + 1) (bytes.drop 64) k

/-- A peer write that is served. -/
def State.peerWrite (s : State) (off : Nat) (bytes : List Nat) (x : CacheErr) : State :=
  if !s.peerOk off bytes.length F.HIF_WIN_LIVE_SIZE_CTL_WR_EN then s.peerReject
  else
    let a := s.peerAddr off
    if a % 64 ≠ 0 ∨ bytes.length % 64 ≠ 0 then (s.logReject 2 off).raise E.MEM_PARTIAL_DISCARD 0
    else if x.tag then s.deviceFatal E.LCA_TAG_UE
    else s.peerPuts (a / 64) bytes (bytes.length / 64)

/-- PEER_WRITE of bytes at an offset of BAR2. -/
def execPeerWrite (off : BitVec 30) (bytes : List (BitVec 8)) (x : CacheErr) (s : State) : Out :=
  doneQ s fun t => if t.pf0Served then t.peerWrite off.toNat (bytes.map (·.toNat)) x else t

/-- A write of HIF_WIN_COMMIT: the commit waits for a boundary of its own.
DEDUCED, unsafe: log 73. -/
def State.windowCommit (s : State) (mask : Nat) : State := { s with hif := { s.hif with commits := s.hif.commits ++ [mask] } }

/-- WINDOW_COMMIT. -/
def execWindowCommit (mask : BitVec 8) (s : State) : Out := doneW s fun t => t.windowCommit mask.toNat

/-- A shadow mapping that a commit may not make live (R292). -/
def State.badWindow (s : State) (w : Nat) : Bool :=
  let size := s.getF F.HIF_WIN_SIZE_CTL_SIZE w
  s.isSet F.HIF_WIN_SIZE_CTL_EN w && (size == 0 || decide (64 < size) ||
    decide (s.dramLines * 64 < s.winBase F.HIF_WIN_BASE_LO_BASE_LO F.HIF_WIN_BASE_HI_BASE_HI w + size * 2 ^ 21))

/-- Window w's shadow becomes its live mapping. -/
def State.goLive (s : State) (w : Nat) : State :=
  [(F.HIF_WIN_BASE_LO_BASE_LO, F.HIF_WIN_LIVE_BASE_LO_BASE_LO), (F.HIF_WIN_BASE_HI_BASE_HI, F.HIF_WIN_LIVE_BASE_HI_BASE_HI),
   (F.HIF_WIN_SIZE_CTL_SIZE, F.HIF_WIN_LIVE_SIZE_CTL_SIZE), (F.HIF_WIN_SIZE_CTL_WR_EN, F.HIF_WIN_LIVE_SIZE_CTL_WR_EN),
   (F.HIF_WIN_SIZE_CTL_RD_EN, F.HIF_WIN_LIVE_SIZE_CTL_RD_EN), (F.HIF_WIN_SIZE_CTL_EN, F.HIF_WIN_LIVE_SIZE_CTL_EN)].foldl
    (fun t p => t.setF p.2 w (t.getF p.1 w)) s

/-- The decode boundary of the oldest commit that waits (R291, R292).
DEDUCED, unsafe: log 73. -/
def State.boundary (s : State) : State :=
  match s.hif.commits with
  | [] => s
  | m :: rest =>
    let ws := (List.range 8).filter m.testBit
    let s1 := ({ s with hif := { s.hif with commits := rest } }).setF F.HIF_WIN_STATUS_SEQ 0 (s.getF F.HIF_WIN_STATUS_SEQ 0 + 1)
    if ws.any s.badWindow then (s1.setB F.HIF_WIN_STATUS_REFUSED 0 true).raise E.HIF_COMMIT_REJECT 0
    else (s1.forEach ws fun t w => t.goLive w).setB F.HIF_WIN_STATUS_REFUSED 0 false

/-- DECODE_BOUNDARY. -/
def execDecodeBoundary (s : State) : Out := done s fun t => t.boundary

/-! ### Interrupts (R288) -/

/-- Write an MSI-X table entry.
DEDUCED, unsafe: log 79. -/
def State.setMsix (s : State) (fn v : Nat) (x : Msix) : State :=
  if fn = 0 then { s with hif := { s.hif with table0 := vset s.hif.table0 v x } }
  else { s with hif := { s.hif with table1 := vset s.hif.table1 v x } }

/-- MSIX_VECTOR_UNMASK: the mask bit of a vector's table entry is cleared through BAR4. -/
def execMsixVectorUnmask (fn : Fin 2) (v : BitVec 8) (s : State) : Out :=
  done s fun t =>
    if t.served fn then (t.setMsix fn v.toNat { t.msixEntry fn v.toNat with masked := false }).flushPba fn else t

/-! ### Containment (R294 to R296) -/

/-- CONTAINMENT_FORCE. -/
def execContainmentForce (s : State) : Out := doneW s fun t => t.contain F.HIF_CONTAIN_CAUSE_FORCED

/-- CONTAINMENT_FROZEN. -/
def execContainmentFrozen (s : State) : Out := done s fun t => t.toFrozen

/-- CONTAINMENT_RELEASE. -/
def execContainmentRelease (s : State) : Out :=
  doneQW s fun t => t.release

/-! ### Power states and bad accesses (R279, R297) -/

/-- PF0_D3HOT. -/
def execPf0D3hot (s : State) : Out := doneQ s fun t => if t.cfgServed 0 then t.setPower 0 true else t

/-- PF0_D0. -/
def execPf0D0 (s : State) : Out := doneQ s fun t => if t.cfgServed 0 then t.setPower 0 false else t

/-- BAD_REGISTER_ACCESS: an access to BAR0 or BAR4 that is not of 4 aligned bytes. -/
def execBadRegisterAccess (fn : Fin 2) (read : Bool) (s : State) : Out :=
  done s fun t =>
    if t.served fn then (t.raise E.HIF_CFG_REJECT 0).onlyIf read fun u => u.emit .cplUr
    else if read then t.refuseRead else t

/-- HOT_RESET_READY: the HIF is ready again after a hot reset (R281). -/
def execHotResetReady (s : State) : Out :=
  done s fun t =>
    if t.hif.hotPending && t.isSet F.HIF_LINK_DL_ACTIVE 0 then { t with hif := { t.hif with hotPending := false } } else t

end Sys2Proof.Machine
end

