-- ==== Sys2Proof/Machine/LcaCmds.lean ====
section
/-!
DEFINITION. The meanings of the lode cache rows (14): way power, maintenance, preload.
-/
namespace Sys2Proof.Machine

/-- WAY_POWER_DOWN: OFF bit w is set; `x` are the errors its lines hold. -/
def execWayPowerDown (w : Fin 16) (x : CacheErr) (s : State) : Out := doneW s fun t => (t.wayDown w x).tagCheck x

/-- WAY_POWER_UP: OFF bit w is cleared. -/
def execWayPowerUp (w : Fin 16) (s : State) : Out := doneW s fun t => t.wayUp w

/-- WAY_OFF: way w has finished powering down. -/
def execWayOff (w : Fin 16) (x : CacheErr) (s : State) : Out := done s fun t => (t.wayOffDone w x).tagCheck x

/-- WAY_ON: way w has come up. -/
def execWayOn (w : Fin 16) (s : State) : Out := done s fun t => t.wayOnDone w

/-- The RW fields of LCA_OP as a GO write sets them. -/
def State.lcaFields (s : State) (op : Nat) (place force : Bool) (way : Nat) : State :=
  (((s.setF F.LCA_OP_OP 0 op).setB F.LCA_OP_MODE 0 place).setB F.LCA_OP_FORCE 0 force).setF F.LCA_OP_WAY 0 way

/-- LCA_CLEAN: OP 1 with MODE and FORCE. -/
def execLcaClean (place force : Bool) (x : CacheErr) (s : State) : Out :=
  doneW s fun t => (t.lcaFields 1 place force (t.getF F.LCA_OP_WAY 0)).lcaMaintain .clean place force x

/-- LCA_INVALIDATE: OP 2. -/
def execLcaInvalidate (place force : Bool) (x : CacheErr) (s : State) : Out :=
  doneW s fun t => (t.lcaFields 2 place force (t.getF F.LCA_OP_WAY 0)).lcaMaintain .invalidate place force x

/-- LCA_CLEAN_INVALIDATE: OP 3. -/
def execLcaCleanInvalidate (place force : Bool) (x : CacheErr) (s : State) : Out :=
  doneW s fun t => (t.lcaFields 3 place force (t.getF F.LCA_OP_WAY 0)).lcaMaintain .cleanInvalidate place force x

/-- A preload by GO: a range beyond the installed DRAM does not exist.
DESIGN CHOICE, safe: log 9. -/
def State.preloadAbsent (s : State) (w : Nat) : Bool :=
  !s.lcaBusy && !s.preloadRefused w && !s.rangeExists (s.getF F.LCA_OP_END_LINE 0)

/-- LCA_PRELOAD: OP 4 of way w. -/
def execLcaPreload (w : Fin 16) (x : CacheErr) (s : State) : Out :=
  if s.pf1Served && s.preloadAbsent w then .fault .dramAddress
  else doneW s fun t => (t.lcaFields 4 false (t.isSet F.LCA_OP_FORCE 0) w).lcaPreload w x

/-- OP_DONE. -/
def execOpDone (s : State) : Out := done s fun t => t.lcaDone

end Sys2Proof.Machine
end

