-- ==== Sys2Proof/Machine/MemCmds.lean ====
section
/-!
DEFINITION. The meanings of the memory rows (14): DRAM scrub passes, SRAM laps, leaky buckets, table entry writes, test mode.
-/
namespace Sys2Proof.Machine

/-- Change the memory block's state. -/
def State.updMem (s : State) (f : MemS → MemS) : State := { s with mem := f s.mem }

/-- A request of the memory block is rejected. -/
def State.memReject (s : State) : State := s.raise E.MEM_CFG_REJECT 0

/-! ### DRAM scrub (R337, R338) -/

/-- MEM_DSCRUB_CTL.GO. -/
def State.scrubGo (s : State) : State :=
  let a := s.getF F.MEM_DSCRUB_START_LINE 0
  let b := s.getF F.MEM_DSCRUB_END_LINE 0
  if s.mem.scrub.isSome || decide (b < a) || decide (s.dramLines ≤ b) then s.memReject
  else
    (((s.setB F.MEM_DSCRUB_STATUS_BUSY 0 true).setB F.MEM_DSCRUB_STATUS_DONE 0 false).setB F.MEM_DSCRUB_STATUS_STOPPED 0 false).updMem
      fun m => { m with scrub := some { first := a, last := b } }

/-- DRAM_SCRUB_GO. -/
def execDramScrubGo (s : State) : Out := doneW s fun t => t.scrubGo

/-- MEM_DSCRUB_CTL.STOP. -/
def State.scrubStop (s : State) : State :=
  s.updMem fun m => { m with scrub := m.scrub.map fun x => { x with stop := true } }

/-- DRAM_SCRUB_STOP. -/
def execDramScrubStop (s : State) : Out := doneW s fun t => t.scrubStop

/-- A failing line as a pass finds it: line, uncorrectable, codewords in error, device. -/
structure ScrubHit where
  line : Nat
  ue : Bool
  cws : Nat
  device : Nat := 15
  deriving DecidableEq, Repr

/-- The lines of a range that have check bytes other than the right ones, rising; every other line is clean. -/
def State.oddLines (s : State) (a b : Nat) : List Nat :=
  ((s.mem.chk.map fun c => c.1 / 16).eraseDups).filter fun n => a ≤ n ∧ n ≤ b

/-- The scrubber reads one line: corrected in place, or reported and left (R337). -/
def State.scrubLine (s : State) (n : Nat) : State × List ScrubHit :=
  match lineDecode (s.lineDiff n) with
  | .clean => (s, [])
  | .correctable m k es =>
    ((s.putLine n (fixLine (s.lineData n) m es)).correctedErr 1, [{ line := n, ue := false, cws := k, device := m }])
  | .bad p k => (s.uncorrectable 1 p srcScrub n, [{ line := n, ue := true, cws := k }])

/-- A failing line is worse than another (R338). -/
def ScrubHit.worse (a b : ScrubHit) : Bool :=
  if a.ue != b.ue then a.ue
  else if a.cws ≠ b.cws then decide (b.cws < a.cws)
  else decide (a.line < b.line)

/-- The worst of some failing lines. -/
def worstHit : List ScrubHit → Option ScrubHit
  | [] => none
  | a :: l => some (l.foldl (fun w b => if b.worse w then b else w) a)

/-- The summary of a pass (R338). -/
def State.scrubSummary (s : State) (l : List ScrubHit) : State :=
  let ns := l.map (·.line)
  let s1 := (s.setF F.MEM_DSCRUB_CE_COUNT 0 (l.filter fun x => !x.ue).length).setF F.MEM_DSCRUB_UE_COUNT 0
    (l.filter fun x => x.ue).length
  let s2 := (s1.setF F.MEM_DSCRUB_FIRST_LINE 0 (ns.min?.getD 0x7FFFFFFF)).setF F.MEM_DSCRUB_LAST_LINE 0 (ns.max?.getD 0x7FFFFFFF)
  match worstHit l with
  | none =>
    (((s2.setF F.MEM_DSCRUB_WORST_LINE 0 0x7FFFFFFF).setB F.MEM_DSCRUB_WINFO_UE 0 false).setF F.MEM_DSCRUB_WINFO_CWS 0 0).setF
      F.MEM_DSCRUB_WINFO_DEVICE 0 15
  | some w =>
    (((s2.setF F.MEM_DSCRUB_WORST_LINE 0 w.line).setB F.MEM_DSCRUB_WINFO_UE 0 w.ue).setF F.MEM_DSCRUB_WINFO_CWS 0 w.cws).setF
      F.MEM_DSCRUB_WINFO_DEVICE 0 w.device

/-- The pass ends: at END, or, when STOP was written, at line `at` within its range.
DESIGN CHOICE, unsafe: log 39. -/
def State.scrubDone (s : State) (last : Nat) : State :=
  match s.mem.scrub with
  | none => s
  | some x =>
    let e := if x.stop then max x.first (min last x.last) else x.last
    let r := (s.oddLines x.first e).foldl (fun (p : State × List ScrubHit) n =>
      let q := p.1.scrubLine n
      (q.1, p.2 ++ q.2)) (s, [])
    let s1 := r.1.scrubSummary r.2
    let s2 := ((s1.setB F.MEM_DSCRUB_STATUS_BUSY 0 false).setB F.MEM_DSCRUB_STATUS_DONE 0 true).setB F.MEM_DSCRUB_STATUS_STOPPED 0 x.stop
    ((s2.setF F.MEM_DSCRUB_STATUS_LINES 0 (min (e + 1 - x.first) (2 ^ 29 - 1))).updMem fun m => { m with scrub := none }).raise
      E.MEM_SCRUB_DONE 0

/-- SCRUB_DONE: a pass ends; `last` is the line it had reached when STOP acted. -/
def execScrubDone (last : BitVec 31) (s : State) : Out := done s fun t => t.scrubDone last.toNat

/-! ### SRAM scrub (R336) -/

/-- The scrubber reads an entry whose check byte is not the computed one. -/
def State.scrubEntry (s : State) (a : Nat) : State :=
  match tableEntry a, s.oddCheck a with
  | some (r, i), some k =>
    match hsiaoRead (s.storedBits r i) k with
    | .clean _ => s
    | .corrected d => (s.putEntry r i d).correctedErr 0
    | .bad => s.uncorrectable 0 false srcScrub (Config.sramWord a)
  | _, _ => s

/-- A lap has ended after `ms` milliseconds. -/
def State.scrubLap (s : State) (ms : Nat) : State :=
  if !s.isSet F.MEM_CTL_SSCRUB_EN 0 then s
  else
    let s1 := s.forEach (s.mem.badChk.map (·.1)) fun t a => t.scrubEntry a
    let s2 := (s1.setF F.MEM_SSCRUB_STATUS_LAP 0 (min ms 65535)).count F.MEM_SSCRUB_STATUS_LAPS 0
    if s2.getF F.MEM_SSCRUB_LAP_MAX 0 < ms then s2.raise E.MEM_SCRUB_SLOW 0 else s2

/-- SCRUB_LAP. -/
def execScrubLap (ms : Nat) (s : State) : Out := done s fun t => t.scrubLap ms

/-! ### Leaky buckets (R335) -/

/-- LEAK ms have passed: the level falls by one. -/
def State.leak (s : State) (x : Nat) : State := s.setF F.MEM_CE_STATUS_LEVEL x (s.getF F.MEM_CE_STATUS_LEVEL x - 1)

/-- BUCKET_LEAK. -/
def execBucketLeak (x : Fin 2) (s : State) : Out := done s fun t => t.leak x

/-- A write to MEM_CE_CTL: DEPTH and LEAK, and the level is 0. -/
def State.writeBucket (s : State) (x w : Nat) : State :=
  ((s.setF F.MEM_CE_CTL_DEPTH x (bitsOf w 31 16)).setF F.MEM_CE_CTL_LEAK x (bitsOf w 15 0)).setF F.MEM_CE_STATUS_LEVEL x 0

/-- BUCKET_RESET: MEM_CE_CTL is written. -/
def execBucketReset (x : Fin 2) (w : BitVec 32) (s : State) : Out := doneW s fun t => t.writeBucket x w.toNat

/-! ### Entry writes (R331, R339) -/

/-- Raw check bytes are in use on table entries (R339). -/
def State.rawSram (s : State) : Bool := s.isSet F.MEM_TEST_CTL_EN 0 && s.isSet F.MEM_TEST_CTL_SRAM 0

/-- Store an entry: with the computed check byte, or with MEM_TEST_SCHK.WR in test mode. -/
def State.storeEntry (s : State) (r : RegDef) (i w : Nat) : State :=
  let t := s.putEntry r i w
  if !s.rawSram then t
  else
    let k := s.getF F.MEM_TEST_SCHK_WR 0
    if hsiaoCheck (t.storedBits r i) = k then t
    else t.updMem fun m => { m with badChk := insertChk (r.addr i) k m.badChk }

/-- A 64-bit write to a learner entry: only with LEARN clear and no copy into the table (R144). -/
def State.writeLearned (s : State) (i w : Nat) : State :=
  let h := i / 2048
  let l := i / 1024 % 2
  if s.learnOn h l || (s.lrnLoop h l).copy.isSome then s.raise E.LRN_CFG_REJECT h
  else (s.storeEntry R.LRN_ENTRY i w).setB F.LRN_LOOP_STATUS_EMPTY (lrnIdx h l) false

/-- A 64-bit write to the scale table: only with LEARN clear for the loop on every head (R145).
DEDUCED, unsafe: log 40. -/
def State.writeScale (s : State) (i w : Nat) : State :=
  let l := i / 40
  if (List.range 32).any fun h => s.learnOn h l then s.raiseHeads E.LRN_CFG_REJECT fun h => s.learnOn h l
  else s.storeEntry R.LRN_SCALE i w

/-- An assembled 64-bit write to an entry. -/
def State.writeEntry (s : State) (r : RegDef) (i w : Nat) : State :=
  if r = R.CLR_COEF_LIVE ∨ r = R.WRP_SPARE then s.tableReject r i
  else if r = R.LRN_ENTRY then s.writeLearned i w
  else if r = R.LRN_SCALE then s.writeScale i w
  else s.storeEntry r i w

/-- A write to the low word of the entry at an address: held. -/
def State.writeLow (s : State) (a w : Nat) : State :=
  if (tableEntry a).isSome then s.updMem fun m => { m with asm := some (a, w) } else s

/-- TABLE_LOW_WRITE. -/
def execTableLowWrite (a : BitVec 27) (w : BitVec 32) (s : State) : Out := doneW s fun t => t.writeLow a.toNat w.toNat

/-- A write to the high word of the entry at an address: it completes the held low word of the same entry, or is narrow. -/
def State.writeHigh (s : State) (a w : Nat) : State :=
  match tableEntry a with
  | none => s.flushAsm
  | some (r, i) =>
    match s.mem.asm with
    | some p =>
      if p.1 = a then (s.updMem fun m => { m with asm := none }).writeEntry r i (p.2 + w * 2 ^ 32) else s.flushAsm.narrow a
    | none => s.narrow a

/-- TABLE_HIGH_WRITE: `a` is the address of the entry. -/
def execTableHighWrite (a : BitVec 27) (w : BitVec 32) (s : State) : Out := 
  done s fun t => if t.pf1Served then t.writeHigh a.toNat w.toNat else t

/-- NARROW_WRITE_TIMEOUT. -/
def execNarrowWriteTimeout (s : State) : Out := done s fun t => t.flushAsm

/-- Read an entry over the register path: through SECDED, or raw in test mode. -/
def State.fetchEntry (s : State) (r : RegDef) (i : Nat) : State × Nat :=
  if s.rawSram then
    let w := s.storedBits r i
    (s.setF F.MEM_TEST_SCHK_RD 0 ((s.oddCheck (r.addr i)).getD (hsiaoCheck w)), w)
  else s.readEntryFree r i

/-- A read of the low word of an entry latches its high half. -/
def State.readLow (s : State) (a : Nat) : State :=
  match tableEntry a with
  | none => s.emit (.regData 0)
  | some (r, i) =>
    let x := s.fetchEntry r i
    (x.1.updMem fun m => { m with latch := some (a, x.2 / 2 ^ 32) }).emit (.regData (x.2 % 2 ^ 32))

/-- TABLE_LOW_READ. -/
def execTableLowRead (a : BitVec 27) (s : State) : Out :=
  done s fun t => if t.pf1Served then t.readLow a.toNat else t.refuseRead

/-! ### DRAM test mode (R339) -/

/-- Bytes of a run of four-byte registers. -/
def State.regBytes (s : State) (f : Field) (n : Nat) : List Nat := (List.range n).flatMap fun i => leBytes 4 (s.getF f i)

/-- Write bytes into a run of four-byte registers. -/
def State.putRegBytes (s : State) (f : Field) (n : Nat) (bs : List Nat) : State :=
  s.forEach (List.range n) fun t i => t.setF f i (ofLeBytes ((bs.drop (4 * i)).take 4))

/-- XOR of two runs of bytes. -/
def xorBytes (a b : List Nat) : List Nat := List.zipWith (· ^^^ ·) a b

/-- A line held in the cache is cleaned and invalidated before a test operation. -/
def State.uncache (s : State) (n : Nat) : State :=
  match s.cached n with
  | some l => s.evict l {}
  | none => s

/-- A DRAM test operation may start. -/
def State.testMay (s : State) : Bool := s.isSet F.MEM_TEST_CTL_EN 0 && !s.isSet F.MEM_TEST_CTL_BUSY 0

/-- OP = 1: the burst is written as given. -/
def State.rawWrite (s : State) : State :=
  let n := s.getF F.MEM_TEST_LINE_LINE 0
  let data := s.regBytes F.MEM_TEST_DATA_BYTES 16
  ((s.uncache n).putBurst n data (xorBytes (s.regBytes F.MEM_TEST_CHK_BYTES 4) (lineCheckBytes data))).setB F.MEM_TEST_CTL_BUSY 0 true

/-- OP = 2: the burst is read as it stands. -/
def State.rawRead (s : State) : State :=
  let n := s.getF F.MEM_TEST_LINE_LINE 0
  let t := s.uncache n
  let data := t.lineData n
  ((t.putRegBytes F.MEM_TEST_DATA_BYTES 16 data).putRegBytes F.MEM_TEST_CHK_BYTES 4
    (xorBytes (t.lineDiff n) (lineCheckBytes data))).setB F.MEM_TEST_CTL_BUSY 0 true

/-- A test operation on the test line: a line beyond the installed DRAM does not exist.
DESIGN CHOICE, safe: log 9. -/
def testOp (s : State) (f : State → State) : Out :=
  if s.pf1Served && s.testMay && decide (s.dramLines ≤ s.getF F.MEM_TEST_LINE_LINE 0) then .fault .dramAddress
  else doneW s fun t => if t.testMay then f t else t

/-- TEST_RAW_WRITE. -/
def execTestRawWrite (s : State) : Out := testOp s State.rawWrite

/-- TEST_RAW_READ. -/
def execTestRawRead (s : State) : Out := testOp s State.rawRead

/-- TEST_OP_DONE. -/
def execTestOpDone (s : State) : Out := done s fun t => t.setB F.MEM_TEST_CTL_BUSY 0 false

end Sys2Proof.Machine
end

