-- ==== Sys2Proof/Machine/TickCmds.lean ====
section
/-!
DEFINITION. The meanings of the tick rows (02): servo, motor, profile and speed ticks, Collier and learner overruns, the TCK
registers. The ring-frame tick is in TrlCmds.lean.
-/
namespace Sys2Proof.Machine

/-- SERVO_TICK: the largest phase current and Vbus sampled on each deck that brakes by winding short, the cycles each Collier took. -/
def execServoTick (shorts : List (Option (Nat × Nat))) (cycles : List Nat) (s : State) : Out :=
  doneQ s fun t => t.servoTick shorts cycles

/-- MOTOR_TICK: what the converters of each deck sampled. -/
def execMotorTick (samples : List MotorIn) (s : State) : Out :=
  doneQ s fun t => if t.onTick 10 then t.forEach (List.range 8) fun u d => u.motorDeck d (samples.getD d {}) else t

/-- The sled part of a seek's sequence in a profile tick: the acceleration has been non-zero, and zeros since (R122 step 3). -/
def State.sledWatch (s : State) (h : Nat) : State :=
  match (s.cl h).seq with
  | some (.sledMove a rep seen z) =>
    let moving := s.getF F.SLD_ACC_A h != 0
    s.setSeq h (some (.sledMove a rep (seen || moving) (if moving then 0 else if seen then min 2 (z + 1) else 0)))
  | _ => s

/-- One head in a profile tick: the axis steps, then sled follow is evaluated (R35, R109, R150). -/
def State.profileHead (s : State) (h : Nat) : State :=
  let r := s.axisStep h
  ((if r.2 then r.1.headFatal h else r.1).sledWatch h).sledFollow h

/-- PROFILE_TICK. -/
def execProfileTick (s : State) : Out :=
  doneQ s fun t => if t.onTick 20 then t.forEach (List.range 32) State.profileHead else t

/-- The learners' speed ratio and the channels' rates follow the observer speed of a deck (R128, R192). -/
def State.speedUsers (s : State) (d : Nat) : State :=
  s.forEach (headsOf d) fun t h =>
    let u := t.updLrn h fun l => { l with rho := rhoOf (t.dtheta d) (t.getF F.LRN_SPD_CTL_REF_RPM h) }
    (u.forEach (chansOf h) State.rateCheck).chanFollow h

/-- Ring time at the present ring-frame tick: that of the last frame, and the ring-frame ticks since it (R390).
DEDUCED, unsafe: log 80. -/
def State.ringAt (s : State) : Nat := (s.trl.time + s.ticksSince (s.trl.timeTick / 50 * 50) / 50) % 2 ^ 40

/-- Cross-unit coordination of an even deck is active (R405). -/
def State.ringPaired (s : State) (d : Nat) : Bool :=
  d % 2 == 0 && s.getF F.WND_CTL_PAIR_SRC d == 2 && s.deck d == dkREADY && s.isSet F.WND_STATUS_AT_SPEED d &&
  s.getF F.WND_STATUS_REF d == 2 && (s.getF F.TRL_STATUS_ROLE 0 == 3 || s.getF F.TRL_STATUS_ROLE 0 == 5) &&
  s.isSet F.TCK_STATUS_LOCK 0 && !s.isSet F.TRL_STATUS_MIXED 0 && !s.isSet F.TRL_STATUS_OPEN 0 &&
  !s.isSet F.TRL_STATUS_EXCLUDED 0

/-- The phase error of an even deck against the ring reference angle (R405); SPEED_SET counts rpm x 2^-3.
DEDUCED, unsafe: log 80. -/
def State.ringDelta (s : State) (d : Nat) : Option Int :=
  if s.ringPaired d then
    let ref := s.ringAt * s.getF F.WND_SPEED_SET_TARGET d * 64 / 3750 + s.getF F.TRL_PHASE_OFS_OFS (d / 2)
    some (sgn 16 (unsgn 16 ((s.theta d : Int) - (ref : Nat))))
  else none

/-- SPEED_TICK. -/
def execSpeedTick (s : State) : Out :=
  doneQ s fun t =>
    if t.onTick 100 then t.forEach (List.range 8) fun u d => (u.speedDeck d (t.ringDelta d)).speedUsers d else t

/-! ### Ring discipline (R34, R42) -/

/-- HOLDOVER: four frame periods without a frame boundary (R34).
DESIGN CHOICE, unsafe: log 2.
DEDUCED, unsafe: log 31. -/
def execHoldover (s : State) : Out :=
  done s fun t =>
    if t.isSet F.TCK_CTL_DISC_EN 0 && !t.isSet F.TCK_STATUS_HOLDOVER 0 && decide (200 ≤ t.ticksSince t.tck.since) then
      let u : State := { t with tck := { t.tck with slew := 0, inRun := 0, outRun := 0 } }
      ((u.setB F.TCK_STATUS_HOLDOVER 0 true).setB F.TCK_STATUS_LOCK 0 false).raise E.TCK_HOLDOVER 0
    else t

/-- A write to TCK_CTL; STEP_LIM is compared as it would be stored, clamped (R41, R42).
DESIGN CHOICE, unsafe: log 96. -/
def State.writeTckCtl (s : State) (w : Nat) : State :=
  let lim := min 3125 (max 8 (bitsOf w 31 16))
  let slew := bitsOf w 5 4
  if s.isSet F.TCK_CTL_DISC_EN 0 && (lim != s.getF F.TCK_CTL_STEP_LIM 0 || slew != s.getF F.TCK_CTL_SLEW 0) then
    s.raise E.TCK_CFG_REJECT 0
  else
    ((((s.setF F.TCK_CTL_STEP_LIM 0 lim).setF F.TCK_CTL_SLEW 0 slew).setF F.TCK_CTL_STEP_OK 0 (bitsOf w 1 1)).setF F.TCK_CTL_DISC_EN 0
      (bitsOf w 0 0)).discFollow (s.isSet F.TCK_CTL_DISC_EN 0)

/-- TCK_CTL_WRITE. -/
def execTckCtlWrite (w : BitVec 32) (s : State) : Out := doneW s fun t => t.writeTckCtl w.toNat

/-- A write to TCK_ASY_DEADLINE; the lifetime bound is 16,000 ticks (R40).
DEDUCED, unsafe: log 25. -/
def State.writeAsyDeadline (s : State) (w : Nat) : State :=
  let n := bitsOf w 15 0
  if 400 ≤ n ∧ n ≤ 16000 then s.setF F.TCK_ASY_DEADLINE_TICKS 0 n else s.raise E.TCK_CFG_REJECT 0

/-- TCK_ASY_DEADLINE_WRITE. -/
def execTckAsyDeadlineWrite (w : BitVec 32) (s : State) : Out := doneW s fun t => t.writeAsyDeadline w.toNat

/-- A read of TCK_COUNT_LO latches the high half (R41). -/
def State.readCount (s : State) : State × Nat :=
  (s.setF F.TCK_COUNT_HI_COUNT_HI 0 (s.tick / 2 ^ 32), s.tick % 2 ^ 32)

/-- TCK_COUNT_READ. -/
def execTckCountRead (s : State) : Out :=
  done s fun t => if t.pf1Served then t.readCount.1.emit (.regData t.readCount.2) else t.refuseRead

/-! ### Overruns (R38) -/

/-- COLLIER_OVERRUN of head h: the cycles it took, 0 when its samples were not present; up to 1,080 it is on time (R36, R37). -/
def execCollierOverrun (h : Fin 32) (cycles : Nat) (s : State) : Out :=
  doneQ s fun t =>
    if t.clr h = hdOFF then t
    else
      let u := t.keepMax F.TCK_CLR_MAXCYC_MAX h cycles
      if 1 ≤ cycles ∧ cycles ≤ 1080 then u else u.overrun h

/-- LRN_SKIP of head h: the updates of the tick are taken back, the later first (R38, R136). -/
def execLrnSkip (h : Fin 32) (s : State) : Out :=
  done s fun t => if t.tck.repeated then t else ((t.raiseTckHead E.TCK_LRN_SKIP h).lrnSkip h 1).lrnSkip h 0

end Sys2Proof.Machine
end

