-- ==== Sys2Proof/Machine/TrlOps.lean ====
section
/-!
DEFINITION. The Torol ring's shared operations (16): discipline (R31 to R33), status words (R396), the headframe's frames, shifts and
exclusion (R387, R400 to R403), messages (R397). The meanings are in TrlCmds.lean.
-/
namespace Sys2Proof.Machine

/-! ### Ring discipline (R31 to R33) -/

/-- A deck spins. -/
def State.anySpins (s : State) : Bool :=
  (List.range 8).any fun d => s.deck d == dkSPINUP || s.deck d == dkREADY || s.deck d == dkBRAKING

/-- LOCK after a measurement; a frame that is missed breaks no run (R32).
DESIGN CHOICE, unsafe: log 95. -/
def State.discLock (s : State) (e : Nat) : State :=
  let i := if e ≤ 1 then min 16 (s.tck.inRun + 1) else 0
  let o := if 4 < e then min 4 (s.tck.outRun + 1) else 0
  let s1 : State := { s with tck := { s.tck with inRun := i, outRun := o } }
  if 16 ≤ i then s1.setB F.TCK_STATUS_LOCK 0 true
  else if 4 ≤ o && s.isSet F.TCK_STATUS_LOCK 0 then (s1.setB F.TCK_STATUS_LOCK 0 false).raise E.TCK_DISC_UNLOCK 0
  else s1

/-- The servo tick with k mod 50 = 0 whose strobe lies e SYSCLK cycles from a boundary that falls in the present tick (R31). -/
def State.frameTick (s : State) (e : Int) : Nat :=
  let a : Int := if 0 < e then s.tick + (e + 124) / 125 else s.tick - (e.natAbs / 125 : Nat)
  ((a + 25) / 50 * 50 % (2 ^ 48 : Nat)).toNat

/-- A phase step: the tick that begins next has the number k mod 50 = 0 of the boundary; ticks that are repeated do no work (R33).
DEDUCED, unsafe: log 89. -/
def State.stepPhase (s : State) (e : Int) : State :=
  let k := s.frameTick e
  let now := (k + 2 ^ 48 - 1) % 2 ^ 48
  ({ s with tick := now, tck := { s.tck with
    since := now, slew := 0, repeats := if 0 < e then 0 else (s.tick + 2 ^ 48 - now) % 2 ^ 48 } }).raise E.TCK_DISC_STEP 0

/-- TCK measures the phase error e in SYSCLK cycles: a step, or a slew of the last ticks of the frame (R31, R33).
DEDUCED, unsafe: log 66. -/
def State.measure (s : State) (e : Int) : State :=
  if !s.isSet F.TCK_CTL_DISC_EN 0 then s
  else
    let s1 := ((s.setF F.TCK_STATUS_LAST_ERR 0 (unsgn 16 e)).setB F.TCK_STATUS_HOLDOVER 0 false).discLock e.natAbs
    if decide (s.getF F.TCK_CTL_STEP_LIM 0 < e.natAbs) && s.isSet F.TCK_CTL_STEP_OK 0 && !s.anySpins then s1.stepPhase e
    else { s1 with tck := { s1.tck with
      since := s.tick, slew := sgnI e * (min e.natAbs (s.getF F.TCK_CTL_SLEW 0 + 1) : Nat), slewFor := s.frameTick e } }

/-! ### Times and status words (R393, R396) -/

/-- The unit's serial. -/
def State.serial (s : State) : Nat := s.cfg.fuses.serial

/-- The unit's ring-time estimate (R393). -/
def State.ringEstimate (s : State) : Nat :=
  if s.trl.heard then (s.trl.time + s.ticksSince s.trl.timeTick / 50) % 2 ^ 40 else 0

/-- The four status words of this unit; `excl` is the EXCLUDED bit it keeps.
DEDUCED, unsafe: log 57.
DEDUCED, unsafe: log 58. -/
def State.statusWords (s : State) (excl : Bool) : List Nat :=
  let pairs := (List.range 4).foldl (fun n j =>
    n + ((s.isSet F.WND_STATUS_PAIR_LOCK (2 * j) && s.getF F.WND_CTL_PAIR_SRC (2 * j) == 2).toNat) * 2 ^ j) 0
  let w3 := s.shift * 2 ^ 61 + s.quiescent.toNat * 2 ^ 60 + s.getF F.TCK_STATUS_LOCK 0 * 2 ^ 59 + excl.toNat * 2 ^ 58 +
    pairs * 2 ^ 54 + s.cfg.lastShift % 2 ^ 40
  [s.serial, s.epoch, if shARMED ≤ s.shift then s.stageEpoch else 0, w3]

/-- Status word w of position p in the last returned frame. -/
def State.unitWord (s : State) (p w : Nat) : Nat :=
  s.getF F.TRL_UNIT_STATUS (8 * p + 2 * w) + s.getF F.TRL_UNIT_STATUS (8 * p + 2 * w + 1) * 2 ^ 32

/-- The positions with a non-zero W0 in the last returned frame. -/
def State.unitsPresent (s : State) : List Nat := (List.range 1024).filter fun p => s.unitWord p 0 ≠ 0

/-- Those of units that are not excluded. -/
def State.unitsIn (s : State) : List Nat := s.unitsPresent.filter fun p => !s.trl.excluded.contains (s.unitWord p 0)

/-- Store a returned status section. -/
def State.putUnits (s : State) (status : List (List Nat)) : State :=
  let s0 : State := { s with regs := s.regs.filter fun c => c.fld.id ≠ F.TRL_UNIT_STATUS.id }
  s0.forEach (status.mapIdx fun p ws => (p, ws)) fun t x =>
    t.forEach (List.range 4) fun u w =>
      (u.setF F.TRL_UNIT_STATUS (8 * x.1 + 2 * w) (x.2.getD w 0 % 2 ^ 32)).setF F.TRL_UNIT_STATUS (8 * x.1 + 2 * w + 1)
        (x.2.getD w 0 / 2 ^ 32 % 2 ^ 32)

/-! ### Flags of the last FRAME_START -/

/-- MIXED and OPEN of a FRAME_START; a change of MIXED raises its event (R403). -/
def State.frameFlags (s : State) (mixed opened : Bool) : State :=
  let old := s.isSet F.TRL_STATUS_MIXED 0
  let s1 := (s.setB F.TRL_STATUS_MIXED 0 mixed).setB F.TRL_STATUS_OPEN 0 opened
  if mixed && !old then s1.raise E.TRL_MIXED 0 else if !mixed && old then s1.raise E.TRL_UNMIXED 0 else s1

/-- The EXCLUDED bit of this unit's W3. -/
def State.frameExcl (s : State) (b : Bool) : State :=
  let s1 := s.setB F.TRL_STATUS_EXCLUDED 0 b
  if b && !s.isSet F.TRL_STATUS_EXCLUDED 0 then s1.raise E.TRL_EXCLUDED 0 else s1

/-- The result of the unit's own shift request; a refusal or an abort is reported (R400, R402). -/
def State.shiftResult (s : State) (r : Nat) : State :=
  (s.setF F.TRL_SHIFT_CTL_RESULT 0 r).onlyIf (r == 3 || r == 4 || r == 5) fun t => t.raise E.TRL_SHIFT_REFUSED 0

/-- A SHIFT block passes: its registers, the result of the unit's own request, COMMIT and ABORT (R400 to R402). -/
def State.shiftBlock (s : State) (phase e f : Nat) : State :=
  let s1 := ((s.setF F.TRL_SHIFT_RING_PHASE 0 phase).setF F.TRL_SHIFT_RING_F_HI 0 (f / 2 ^ 32)).setF F.TRL_SHIFT_F_LO_F_LO 0 (f % 2 ^ 32)
  let mine := s.getF F.TRL_SHIFT_CTL_RESULT 0 == 1 && s.trl.asked == e
  if phase = 2 then (s1.onlyIf mine fun t => t.shiftResult 2).commitSeen e f
  else if phase = 4 then (s1.onlyIf mine fun t => t.shiftResult 5).abortSeen e
  else s1

/-! ### The unit's own messages (R397) -/

/-- A message waits for a slot. -/
def State.queueMsg (s : State) (why : TxFor) (m : RingMsg) : State :=
  s.updTrl fun t => { t with tx := t.tx ++ [{ why := why, msg := m }] }

/-- The first waiting message goes into the slot that arrives empty, at most one in a frame. -/
def State.sendMsg (s : State) : State :=
  match s.trl.tx.find? fun x => x.sentAt.isNone with
  | none => s
  | some x =>
    let m : RingMsg := { x.msg with src := s.getF F.TRL_STATUS_POSITION 0 }
    let mark (l : List TxMsg) : List TxMsg := (l.takeWhile fun y => y.sentAt.isSome) ++
      { x with msg := m, sentAt := some s.tick } :: (l.dropWhile fun y => y.sentAt.isSome).tail
    let s1 := (s.updTrl fun t => { t with tx := mark t.tx }).emit (.ringMsg m.kind m.dest m.src m.words false false)
    s1.onlyIf (x.why == .data) fun t => t.count F.TRL_TX_STATUS_SENT 0

/-- The end of a message that was sent: what it was sent for has its result.
DESIGN CHOICE, safe: log 56.
DEDUCED, unsafe: log 59. -/
def State.msgResult (s : State) (x : TxMsg) (delivered busy lost : Bool) : State :=
  let s1 := s.updTrl fun t => { t with tx := t.tx.erase x }
  match x.why with
  | .data =>
    let r := if lost then 4 else if busy then 2 else if delivered then 1 else 3
    ((s1.setB F.TRL_TX_STATUS_BUSY 0 false).setF F.TRL_TX_STATUS_RESULT 0 r).raise E.TRL_TX_DONE 0
  | .exclude => s1.setB F.TRL_EXCL_CTL_BUSY 0 false
  | .shift =>
    if lost then s1.shiftResult 6
    else if delivered then s1
    else if busy then s1.shiftResult 3
    else if s.isSet F.TRL_STATUS_MIXED 0 || s.isSet F.TRL_STATUS_OPEN 0 then s1.shiftResult 4
    else s1.bump.shiftResult (Config.shiftRefusal s.free).toNat

/-- A message of the unit is lost. -/
def State.loseMsg (s : State) (x : TxMsg) : State := s.msgResult x false false true

/-- The unit leaves the ring: BYP_HOLD falls, and its messages that are in the ring are lost (R406). -/
def State.leaveRing (s : State) : State :=
  (s.forEach (s.trl.tx.filter fun x => x.sentAt.isSome) State.loseMsg).ringOff

/-! ### The headframe (R387, R400 to R403) -/

/-- A ring time t is later than ring time a. -/
def later (a t : Nat) : Bool := decide (a % 2 ^ 40 ≠ t % 2 ^ 40) && begun a t

/-- Ring-time frames from a to t. -/
def framesFrom (a t : Nat) : Nat := (t + 2 ^ 40 - a % 2 ^ 40) % 2 ^ 40

/-- The shift the headframe runs, in the frame it originates with ring time t (R401, R402). -/
def ShiftJob.atFrame (j : ShiftJob) (t : Nat) : Option ShiftJob :=
  if j.phase = 2 ∧ later ((j.f + 4096) % 2 ^ 40) t then some { j with phase := 3, since := t }
  else if (j.phase = 3 ∨ j.phase = 4) ∧ 16 ≤ framesFrom j.since t then none
  else some j

/-- The headframe originates a frame. -/
def State.originate (s : State) (slot : Bool) : State :=
  let t := (s.trl.time + 1) % 2 ^ 40
  let job := s.trl.job.bind fun j => j.atFrame t
  let s1 := s.updTrl fun x => { x with time := t, heard := true, timeTick := s.tick, job := job, absent := x.absent + 1 }
  let own := s.trl.excluded.contains s.serial
  let s2 := (s1.frameFlags s.trl.mixed s.trl.open_).frameExcl own
  let phase := (job.map (·.phase)).getD 0
  let e := (job.map (·.epoch)).getD 0
  let f := (job.map (·.f)).getD 0
  let marked := (s.unitsPresent.filter fun p => p ≠ 0 && s.trl.excluded.contains (s.unitWord p 0)).map fun p =>
    (p, [0, 0, 0, 2 ^ 58])
  let s3 := s2.emit (.ringFrame t 0 s.trl.mixed s.trl.open_ false 0 phase f e ((0, s2.statusWords own) :: marked))
  (s3.shiftBlock phase e f).onlyIf slot State.sendMsg

/-- The headframe takes a shift request: COLLECT from the next frame, or a refusal with RESULT 3 or 4 (R400). -/
def State.headShift (s : State) (e lead collect : Nat) : State × Nat :=
  let busy := s.trl.job.isSome || s.unitsPresent.any fun p =>
    let z := s.unitWord p 3 / 2 ^ 61
    z == shCOMMITTED || z == shHOLDING
  if busy then (s, 3)
  else if s.trl.mixed || s.trl.open_ then (s, 4)
  else (s.updTrl fun x => { x with
    job := some { epoch := e, lead := lead, collect := collect, since := (x.time + 1) % 2 ^ 40 } }, 1)

/-- The headframe adds a serial to its exclusion list or removes it (R403). -/
def State.headExclude (s : State) (serial : Nat) (add : Bool) : State :=
  s.updTrl fun x => { x with excluded := if add then insertNat serial x.excluded else x.excluded.filter (· ≠ serial) }

/-- All values of a list are equal. -/
def allEqual (l : List Nat) : Bool := l.all fun a => a = l.headD 0

/-- MIXED, and the units that leave the exclusion list because they run the epoch of the others (R403). -/
def State.judgeMixed (s : State) : State :=
  let w1 := s.unitsIn.map fun p => s.unitWord p 1
  let back := if w1.isEmpty || !allEqual w1 then []
    else (s.unitsPresent.filter fun p => s.unitWord p 1 = w1.headD 0).map fun p => s.unitWord p 0
  s.updTrl fun x => { x with mixed := !allEqual w1, excluded := x.excluded.filter fun n => !back.contains n }

/-- ARM collection: every unit that counts reports W2 = E, so COMMIT is issued from the next frame (R400). -/
def State.collect (s : State) : State :=
  match s.trl.job with
  | none => s
  | some j =>
    if j.phase = 1 ∧ s.unitsIn.all fun p => s.unitWord p 2 = j.epoch then
      let t := (s.trl.time + 1) % 2 ^ 40
      s.updTrl fun x => { x with job := some { j with phase := 2, since := t, f := (t + max 16 j.lead) % 2 ^ 40 } }
    else s

/-! ### Elections (R392, R393) -/

/-- The headframe's serial as the election shows it.
DEDUCED, unsafe: log 63. -/
def State.showHead (s : State) (n : Nat) : State := (s.setF F.TRL_HEAD_LO_SERIAL 0 (n % 2 ^ 32)).setF F.TRL_HEAD_HI_SERIAL 0 (n / 2 ^ 32)

/-- Enter ELECT: until a lower serial passes, the unit's own stands.
DEDUCED, unsafe: log 63. -/
def State.enterElect (s : State) : State := (s.setRole rlELECT).showHead s.serial

/-- The unit's own CLAIM. -/
def State.claim (s : State) : State := s.emit (.ringClaim s.ringEstimate s.serial)

/-- The unit's own CLAIM has returned: it is the headframe. -/
def State.winElection (s : State) (time : Nat) : State :=
  let s1 := (s.setRole rlHEAD).putUnits []
  let s2 := s1.updTrl fun x => { x with
    time := time, heard := true, timeTick := s.tick, job := none, excluded := [], mixed := false, absent := 0, open_ := false }
  ((s2.setF F.TRL_STATUS_POSITION 0 0).showHead s.serial).raise E.TRL_HEAD_CHANGE 0

end Sys2Proof.Machine
end

