-- ==== Sys2Proof/Machine/TrlCmds.lean ====
section
/-!
DEFINITION. The meanings of the ring's rows (16) and of the ring-frame tick (R28). A ring-commanded unit reset is in ResetCmds.lean.
-/
namespace Sys2Proof.Machine

/-! ### The ring-frame tick (R28, R387, R392, R393) -/

/-- A ring-frame tick: a frame period of silence, the headframe's frame, the CLAIM of a unit in ELECT. -/
def State.ringTick (s : State) (slot : Bool) : State :=
  let r := s.role
  let s1 := s.updTrl fun x => { x with
    silent := if r = rlLISTEN ∨ r = rlMEMBER then min 8 (x.silent + 1) else x.silent
    electFor := if r = rlELECT then min 64 (x.electFor + 1) else x.electFor }
  if r = rlHEAD then s1.originate slot else if r = rlELECT then s1.claim else s1

/-- RING_FRAME_TICK; `slot`: an empty message slot is in the frame that the headframe originates. -/
def execRingFrameTick (slot : Bool) (s : State) : Out := doneQ s fun t => if t.onTick 50 then t.ringTick slot else t

/-! ### Roles (R392) -/

/-- Setting TRL_CTL.EN. -/
def State.enableRing (s : State) : State := (s.setB F.TRL_CTL_EN 0 true).ringStart

/-- RING_ENABLE. -/
def execRingEnable (s : State) : Out := doneW s fun t => t.enableRing

/-- Clearing TRL_CTL.EN. -/
def State.disableRing (s : State) : State := (s.setB F.TRL_CTL_EN 0 false).leaveRing

/-- RING_DISABLE. -/
def execRingDisable (s : State) : Out := doneW s fun t => t.disableRing

/-- Writing TRL_CTL.ELECT. -/
def State.writeElect (s : State) : State :=
  if s.role = rlMEMBER ∨ s.role = rlHEAD then s.enterElect.raise E.TRL_ELECTION 0 else s

/-- RING_ELECT. -/
def execRingElect (s : State) : Out := doneW s fun t => t.writeElect

/-- LOOP_LOCKED: ring-in has held block lock for 1 ms. -/
def execLoopLocked (s : State) : Out :=
  done s fun t => if t.role = rlLOOP then (t.setRole rlLISTEN).setB F.TRL_STATUS_IN_LOCK 0 true else t

/-- LOOP_FAIL: 20 ms in LOOP are 8,000 servo ticks. -/
def execLoopFail (s : State) : Out :=
  done s fun t =>
    if t.role = rlLOOP ∧ 8000 ≤ t.ticksSince t.trl.loopAt then
      (t.updTrl fun x => { x with loopAt := t.tick }).raise E.TRL_LOOP_FAIL 0
    else t

/-- FRAME_SILENCE: 4 frame periods without FRAME_START as MEMBER, 8 in LISTEN. -/
def execFrameSilence (s : State) : Out :=
  done s fun t =>
    if (t.role = rlMEMBER ∧ 4 ≤ t.trl.silent) ∨ (t.role = rlLISTEN ∧ 8 ≤ t.trl.silent) then
      t.enterElect.raise E.TRL_ELECTION 0
    else t

/-- ELECTION_RESTART: 64 frame periods in ELECT. -/
def execElectionRestart (s : State) : Out :=
  done s fun t => if t.role = rlELECT ∧ 64 ≤ t.trl.electFor then t.updTrl fun x => { x with electFor := 0 } else t

/-- A CLAIM with another serial is forwarded when it is lower, replaced by the unit's own when it is higher (R393). -/
def State.claimOther (s : State) (serial time : Nat) : State :=
  if serial < s.serial then
    let s1 := if s.role = rlELECT then s else s.enterElect
    let shown := s1.getF F.TRL_HEAD_LO_SERIAL 0 + s1.getF F.TRL_HEAD_HI_SERIAL 0 * 2 ^ 32
    (s1.onlyIf (decide (serial < shown)) fun t => t.showHead serial).emit (.ringClaim (max time s1.ringEstimate) serial)
  else (if s.role = rlMEMBER then s.enterElect else s).claim

/-- A CLAIM arrives.
DEDUCED, unsafe: log 120. -/
def State.claimArrives (s : State) (serial time : Nat) : State :=
  if s.role < rlMEMBER then s
  else if serial = s.serial then (if s.role = rlELECT then s.winElection time else s)
  else s.claimOther serial time

/-- CLAIM_RECEIVED. -/
def execClaimReceived (serial : BitVec 64) (time : BitVec 40) (s : State) : Out :=
  done s fun t => t.claimArrives serial.toNat time.toNat

/-! ### Frames (R388 to R391) -/

/-- Forward a frame: HOPS, PATH in units of 0.25 ns with the 96 ns of forwarding, FULL; `status` are the words written.
DEDUCED, unsafe: log 54. -/
def State.forward (s : State) (x : FrameIn) (status : List (Nat × List Nat)) : State :=
  s.emit (.ringFrame x.time (min 1023 (x.hops + 1)) x.mixed x.opened (x.full || x.hops == 1023)
    (x.path + s.getF F.TRL_IN_DELAY_DELAY 0 + 384) x.phase x.f x.e status)

/-- A member takes part in a frame.
DEDUCED, unsafe: log 54. -/
def State.takeFrame (s : State) (x : FrameIn) : State :=
  let s1 := (s.setF F.TRL_STATUS_POSITION 0 x.hops).updTrl fun t => { t with
    time := x.time % 2 ^ 40, heard := true, timeTick := s.tick, silent := 0 }
  let s2 := s1.setF F.TRL_PATH_PATH 0 (x.path + s.getF F.TRL_IN_DELAY_DELAY 0)
  let s3 := ((s2.frameFlags x.mixed x.opened).frameExcl x.excluded).measure x.err
  let s4 := s3.shiftBlock x.phase x.e x.f
  (s4.forward x [(x.hops, s4.statusWords x.excluded)]).onlyIf x.slot State.sendMsg

/-- A FRAME_START arrives. -/
def State.frameArrives (s : State) (x : FrameIn) : State :=
  let r := s.role
  if r = rlOFF ∨ r = rlLOOP ∨ r = rlHEAD then s
  else
    let s1 := s.setB F.TRL_STATUS_IN_LOCK 0 true
    if r = rlMEMBER then s1.takeFrame x
    else if x.full then (((s1.setRole rlLISTEN).raise E.TRL_TOO_MANY 0).measure x.err).forward x []
    else ((s1.setRole rlMEMBER).raise E.TRL_JOINED 0).takeFrame x

/-- FRAME_START_RECEIVED. -/
def execFrameStartReceived (x : FrameIn) (s : State) : Out := doneQ s fun t => t.frameArrives x

/-- FRAME_RETURNED to the headframe: the lap in ns, the PATH received, the phase error of the frame boundary and the status
section, four words for each position.
DEDUCED, unsafe: log 55. -/
def State.frameReturns (s : State) (lap path : Nat) (err : Int) (status : List (List Nat)) : State :=
  if s.role ≠ rlHEAD then s
  else
    let s1 := ((s.setB F.TRL_STATUS_IN_LOCK 0 true).updTrl fun x => { x with absent := 0, open_ := false }).putUnits (status.take 1024)
    let s2 := (s1.setF F.TRL_LAP_LAP 0 lap).setF F.TRL_LAP_UNITS 0 s1.unitsPresent.length
    let s3 := s2.onlyIf (decide (120000 < lap)) fun t => t.raise E.TRL_LAP_LONG 0
    ((s3.setF F.TRL_PATH_PATH 0 (path + s.getF F.TRL_IN_DELAY_DELAY 0)).measure err).judgeMixed.collect

/-- FRAME_RETURNED. -/
def execFrameReturned (lap path : Nat) (err : Int) (status : List (List Nat)) (s : State) : Out :=
  done s fun t => t.frameReturns lap path err status

/-- RING_OPEN: four frames of the headframe have not returned. -/
def execRingOpen (s : State) : Out :=
  done s fun t =>
    if t.role = rlHEAD ∧ 4 ≤ t.trl.absent ∧ ¬ t.trl.open_ then
      (t.updTrl fun x => { x with open_ := true }).raise E.TRL_RING_OPEN 0
    else t

/-! ### The headframe's shift (R402) -/

/-- COLLECT_EXPIRY: C frames have passed from the first with PHASE COLLECT. -/
def execCollectExpiry (s : State) : Out :=
  done s fun t =>
    match t.trl.job with
    | some j =>
      if j.phase = 1 ∧ begun j.since t.trl.time ∧ max 1 j.collect ≤ framesFrom j.since t.trl.time then
        t.updTrl fun x => { x with job := some { j with phase := 4, since := (x.time + 1) % 2 ^ 40 } }
      else t
    | none => t

/-- SHIFT_ABORT_RECEIVED: a SHIFT block with PHASE ABORT and an epoch. -/
def execShiftAbortReceived (e : BitVec 64) (s : State) : Out := doneQ s fun t => t.abortSeen e.toNat

/-! ### Messages received (R397 to R399) -/

/-- The unit takes part in messages. -/
def State.onMessages (s : State) : Bool := s.role == rlMEMBER || s.role == rlHEAD

/-- The position a message is for. -/
def State.addressed (s : State) (m : MsgIn) : Bool := m.dest == 1023 || m.dest == s.getF F.TRL_STATUS_POSITION 0

/-- A message goes on; the unit may have set DELIVERED or BUSY. -/
def State.passOn (s : State) (m : MsgIn) (delivered busy : Bool) : State :=
  s.emit (.ringMsg m.kind m.dest m.src m.words (m.delivered || delivered) (m.busy || busy))

/-- A message reaches a unit: ignored with a bad CRC, else handled by f. -/
def State.onMessage (s : State) (m : MsgIn) (kind : Nat) (f : State → State) : State :=
  if !s.onMessages then s
  else if !m.crcOk then ((s.count F.TRL_ERR_CRC 0).raise E.TRL_CRC_ERR 0).passOn m false false
  else if m.kind = kind then f s else s.passOn m false false

/-- The 4,096 bytes of a piece from its 512 words.
DEDUCED, unsafe: log 61. -/
def pieceBytes (ws : List Nat) : List Nat := ((ws ++ List.replicate (512 - ws.length) 0).take 512).flatMap fun w => leBytes 8 w

/-- PIECE_MESSAGE: `sigOk` says whether the piece's signature will verify (R375). -/
def execPieceMessage (m : MsgIn) (sigOk : Bool) (s : State) : Out :=
  doneQ s fun t => t.onMessage m 1 fun u =>
    if u.isSet F.TRL_CTL_PIECE_EN 0 then
      (u.pieceArrives { bytes := pieceBytes m.words, sigOk := sigOk }).passOn m true false
    else u.passOn m false false

/-- A MGMT message is copied to TRL_RX, or refused with BUSY. -/
def State.mgmtArrives (s : State) (m : MsgIn) : State :=
  if !s.addressed m then s.passOn m false false
  else if s.isSet F.TRL_RX_STATUS_FULL 0 then (s.count F.TRL_RX_STATUS_DROPS 0).passOn m false true
  else
    let ws := m.words.take 512
    let s1 := s.forEach (ws.mapIdx fun i w => (i, w)) fun t x =>
      (t.setF F.TRL_RX_DATA_WORD (2 * x.1) (x.2 % 2 ^ 32)).setF F.TRL_RX_DATA_WORD (2 * x.1 + 1) (x.2 / 2 ^ 32 % 2 ^ 32)
    let s2 := ((s1.setB F.TRL_RX_STATUS_FULL 0 true).setF F.TRL_RX_STATUS_KIND 0 m.kind).setF F.TRL_RX_STATUS_SRC 0 m.src
    ((s2.setF F.TRL_RX_STATUS_LEN 0 ws.length).raise E.TRL_MSG_RX 0).passOn m true false

/-- MGMT_MESSAGE. -/
def execMgmtMessage (m : MsgIn) (s : State) : Out := done s fun t => t.onMessage m 2 fun u => u.mgmtArrives m

/-- SHIFT_REQ_MESSAGE: only the headframe acts; a refusal with RESULT 3 goes back as BUSY (R400). -/
def execShiftReqMessage (m : MsgIn) (s : State) : Out :=
  done s fun t => t.onMessage m 4 fun u =>
    if u.role = rlHEAD then
      let p := m.words.getD 1 0
      let r := u.headShift (m.words.getD 0 0) (p % 2 ^ 16) (p / 2 ^ 16 % 2 ^ 12)
      r.1.passOn m (r.2 == 1) (r.2 == 3)
    else u.passOn m false false

/-- EXCLUDE_MESSAGE: only the headframe acts (R403). -/
def execExcludeMessage (m : MsgIn) (s : State) : Out :=
  done s fun t => t.onMessage m 5 fun u =>
    if u.role = rlHEAD then (u.headExclude (m.words.getD 0 0) ((m.words.getD 1 0).testBit 0)).passOn m true false
    else u.passOn m false false

/-! ### Messages sent (R397, R399, R400, R403) -/

/-- The data words in TRL_TX_DATA. -/
def State.txWords (s : State) (n : Nat) : List Nat :=
  (List.range n).map fun j => s.getF F.TRL_TX_DATA_WORD (2 * j) + s.getF F.TRL_TX_DATA_WORD (2 * j + 1) * 2 ^ 32

/-- TRL_TX_CTL.GO. -/
def State.txGo (s : State) : State :=
  let m : RingMsg := { kind := s.getF F.TRL_TX_CTL_KIND 0, dest := s.getF F.TRL_TX_CTL_DEST 0, src := 0, words := s.txWords (s.getF F.TRL_TX_CTL_LEN 0) }
  (s.setB F.TRL_TX_STATUS_BUSY 0 true).queueMsg .data m

/-- A write of TRL_TX_CTL. -/
def State.writeTxCtl (s : State) (w : Nat) : State :=
  if !s.writeOk R.TRL_TX_CTL 0 w then s.raise E.TRL_CFG_REJECT 0
  else (s.storeReg R.TRL_TX_CTL 0 w).onlyIf (w.testBit 31) State.txGo

/-- MSG_SEND: TRL_TX_CTL is written with GO. -/
def execMsgSend (w : BitVec 32) (s : State) : Out := doneW s fun t => t.writeTxCtl (w.toNat % 2 ^ 31 + 2 ^ 31)

/-- MSG_RETURNED: a message with this unit's position as its source returns; a piece of its own goes through acceptance here too. -/
def State.msgReturns (s : State) (m : MsgIn) (sigOk : Bool) : State :=
  match s.trl.tx.find? fun x => x.sentAt.isSome && x.msg.kind == m.kind && x.msg.words == m.words with
  | none => s
  | some x =>
    if m.src ≠ s.getF F.TRL_STATUS_POSITION 0 then s
    else
      (s.msgResult x m.delivered m.busy false).onlyIf (m.kind == 1 && s.isSet F.TRL_CTL_PIECE_EN 0) fun t =>
        t.pieceArrives { bytes := pieceBytes m.words, sigOk := sigOk }

/-- MSG_RETURNED.
DEDUCED, unsafe: log 62. -/
def execMsgReturned (m : MsgIn) (sigOk : Bool) (s : State) : Out :=
  doneQ s fun t => if t.onMessages then t.msgReturns m sigOk else t

/-- MSG_LOST: messages of this unit that have not returned within 2 frames, 100 servo ticks.
DEDUCED, unsafe: log 65. -/
def execMsgLost (s : State) : Out :=
  done s fun t =>
    t.forEach (t.trl.tx.filter fun x => match x.sentAt with | some a => decide (100 < t.ticksSince a) | none => false) State.loseMsg

/-- RX_BUFFER_FREE: 1 is written to TRL_RX_STATUS.FULL. -/
def execRxBufferFree (s : State) : Out := doneW s fun t => t.setB F.TRL_RX_STATUS_FULL 0 false

/-- TRL_SHIFT_CTL.GO: the headframe hands the request to itself (R400). -/
def State.shiftGo (s : State) : State :=
  if s.getF F.TRL_SHIFT_CTL_RESULT 0 = 1 then s.raise E.TRL_CFG_REJECT 0
  else
    let e := s.get64 F.TRL_SHIFT_E_LO_E F.TRL_SHIFT_E_HI_E
    let l := s.getF F.TRL_SHIFT_CTL_LEAD 0
    let c := s.getF F.TRL_SHIFT_CTL_COLLECT 0
    let s1 := (s.setF F.TRL_SHIFT_CTL_RESULT 0 1).updTrl fun x => { x with asked := e }
    if s.role = rlHEAD then
      let r := s1.headShift e l c
      if r.2 = 1 then r.1 else r.1.shiftResult r.2
    else s1.queueMsg .shift { kind := 4, dest := 0, src := 0, words := [e, l + c * 2 ^ 16] }

/-- A write of TRL_SHIFT_CTL. -/
def State.writeShiftCtl (s : State) (w : Nat) : State :=
  (s.storeReg R.TRL_SHIFT_CTL 0 w).onlyIf (w.testBit 31) State.shiftGo

/-- SHIFT_REQUEST: TRL_SHIFT_CTL is written with GO. -/
def execShiftRequest (w : BitVec 32) (s : State) : Out := doneW s fun t => t.writeShiftCtl (w.toNat % 2 ^ 31 + 2 ^ 31)

/-- TRL_EXCL_CTL.GO: a write on the headframe acts at once (R403). -/
def State.exclGo (s : State) : State :=
  if s.isSet F.TRL_EXCL_CTL_BUSY 0 then s.raise E.TRL_CFG_REJECT 0
  else
    let n := s.get64 F.TRL_EXCL_LO_SERIAL F.TRL_EXCL_HI_SERIAL
    let op := s.isSet F.TRL_EXCL_CTL_OP 0
    if s.role = rlHEAD then s.headExclude n op
    else (s.setB F.TRL_EXCL_CTL_BUSY 0 true).queueMsg .exclude { kind := 5, dest := 0, src := 0, words := [n, op.toNat] }

/-- A write of TRL_EXCL_CTL.
DEDUCED, unsafe: log 60. -/
def State.writeExclCtl (s : State) (w : Nat) : State := (s.storeReg R.TRL_EXCL_CTL 0 w).onlyIf (w.testBit 0) State.exclGo

/-- EXCLUDE_REQUEST: TRL_EXCL_CTL is written with GO. -/
def execExcludeRequest (w : BitVec 32) (s : State) : Out := doneW s fun t => t.writeExclCtl (w.toNat / 2 * 2 + 1)

/-! ### Ring time and block lock (R407) -/

/-- A read of TRL_TIME_LO latches the high bits. -/
def State.readRingTime (s : State) : State × Nat := (s.setF F.TRL_TIME_HI_TIME_HI 0 (s.trl.time / 2 ^ 32), s.trl.time % 2 ^ 32)

/-- RING_TIME_READ. -/
def execRingTimeRead (s : State) : Out :=
  done s fun t => if t.pf1Served then t.readRingTime.1.emit (.regData t.readRingTime.2) else t.refuseRead

/-- RING_IN_LOCK_LOSS: ring-in loses block lock outside LOOP. -/
def State.ringLockLoss (s : State) : State :=
  if s.isSet F.TRL_STATUS_IN_LOCK 0 && s.role != rlLOOP then
    (s.setB F.TRL_STATUS_IN_LOCK 0 false).count F.TRL_ERR_LOCK_LOSS 0
  else s

/-- RING_IN_LOCK_LOSS. -/
def execRingInLockLoss (s : State) : Out := done s fun t => t.ringLockLoss

end Sys2Proof.Machine
end

