-- ==== Sys2Proof/Machine/RegRead.lean ====
section
/-!
DEFINITION. Reading registers (R279, R407, R450 to R452, R455 to R457): the word a register shows, fields that are a view of other
state included; what a read does besides (RC fields, latches). RC_READ is any read of a register space.
-/
namespace Sys2Proof.Machine

/-- The number of a list's elements that a test selects. -/
def countOf {α : Type} (l : List α) (p : α → Bool) : Nat := (l.filter p).length

/-- Lodes of all seams: open ones with host data, or sealed ones not yet accepted (WRP_STATUS). -/
def State.openLodes (s : State) : Nat :=
  (List.range 8).foldl (fun k v =>
    k + countOf (s.vol v).seams.toList fun m => match m.openLode with | some o => !o.drifts.isEmpty | none => false) 0
def State.sealedLodes (s : State) : Nat :=
  (List.range 8).foldl (fun k v => (s.vol v).seams.toList.foldl (fun j m => j + countOf m.lodes fun l => !l.accepted) k) 0

/-- The value a field shows, when it is a view of other state. -/
def State.viewOf (s : State) (f : Field) (i : Nat) : Option Nat :=
  let d := f.id
  if d = F.GLB_INT_BLOCK_VEC.id then some (intBlock s.regs)
  else if d = F.GLB_INT_DECK_CLR.id then some (bitsOf (intDeck s.regs i) 3 0)
  else if d = F.GLB_INT_DECK_LRN.id then some (bitsOf (intDeck s.regs i) 7 4)
  else if d = F.GLB_INT_DECK_SLD.id then some (bitsOf (intDeck s.regs i) 11 8)
  else if d = F.GLB_INT_DECK_CHN.id then some (bitsOf (intDeck s.regs i) 15 12)
  else if d = F.GLB_INT_DECK_WND.id then some (bitsOf (intDeck s.regs i) 16 16)
  else if d = F.TCK_COUNT_LO_COUNT_LO.id then some (s.tick % 2 ^ 32)
  else if d = F.LRN_STATUS_SEEDING.id then
    some (maskOf 2 fun k => (s.lrnLoop i k).copy.isSome)
  else if d = F.LRN_SEED_BUSY.id then some (s.seedBusy i).toNat
  else if d = F.SLD_STATUS_PEND.id then some (s.sld i).pend.isSome.toNat
  else if d = F.SLD_POS_P.id then some (unsgn 32 ((s.sld i).p / oneStep))
  else if d = F.SLD_VEL_V.id then some (unsgn 32 ((s.sld i).v / 2 ^ 16))
  else if d = F.SLD_TARGET_X.id then some (unsgn 32 ((s.sld i).x / oneStep))
  else if d = F.CHN_STATUS_FRAMING.id then some (s.framing i).toNat
  else if d = F.CHN_STATUS_IN_DRIFT.id then some (s.chan i).drift.isSome.toNat
  else if d = F.ASY_STATUS_FIRST.id then some (s.queuedJobs true).length
  else if d = F.ASY_STATUS_RECOV.id then some (s.queuedJobs false).length
  else if d = F.ASY_STATUS_FREE.id then some s.freeSlots
  else if d = F.ASY_STATUS_BUSY.id then some (maskOf 8 fun a => s.isSet F.ASY_ENG_STATUS_BUSY a)
  else if d = F.PRC_STATUS_OCC.id then some s.asy.used.length
  else if d = F.WRP_STATUS_OPEN.id then some s.openLodes
  else if d = F.WRP_STATUS_SEALED.id then some s.sealedLodes
  else if d = F.WRP_HEAD_QUEUED.id then some (s.headQueued i)
  else if d = F.WRP_HEAD_CAL_REQ.id then some (s.calRequired i).toNat
  else if d = F.WRP_HEAD_CAL_OK.id then some (maskOf 16 fun l => (s.head i).write.calTemp.any fun p => p.1 = l)
  else if d = F.HIF_WIN_STATUS_PEND.id then some (s.hif.commits.foldl (· ||| ·) 0)
  else if d = F.HIF_WIN_STATUS_LIVE_EN.id then some (maskOf 8 fun w => s.isSet F.HIF_WIN_LIVE_SIZE_CTL_EN w)
  else if d = F.HQI_CSTS_CONTAINED.id then some s.contained.toNat
  else if d = F.HQI_QP_CTL_CLASS.id ∧ i = 0 then some 0
  else if d = F.TRL_TIME_LO_TIME_LO.id then some (s.trl.time % 2 ^ 32)
  else if d = F.TRL_UNIT_STATUS.id ∧ s.role ≠ rlHEAD then some 0
  else none

/-- The value a field shows: a WO field reads 0 (R451). -/
def State.shows (s : State) (f : FieldAt) (i : Nat) : Nat :=
  if f.acc = .wo then 0 else ((s.viewOf f.fld i).getD (s.getF f.fld i ^^^ fieldFlip f.fld i)) % 2 ^ (f.hi - f.lo + 1)

/-- The word a register shows; reserved bits read 0 (R450). -/
def State.wordOf (s : State) (r : RegDef) (i : Nat) : Nat := r.fields.foldl (fun w f => w + s.shows f i * 2 ^ f.lo) 0

/-- What a read of a register does besides: its RC fields clear (R451), a low half latches its high half (R452), PEAK starts
afresh.
DEDUCED, unsafe: log 81. -/
def State.readEffect (s : State) (r : RegDef) (i : Nat) : State :=
  let s1 := r.fields.foldl (fun t f => if f.acc = .rc then t.setF f.fld i 0 else t) s
  if r.base = R.TCK_COUNT_LO.base then s1.readCount.1
  else if r.base = R.TRL_TIME_LO.base then s1.readRingTime.1
  else if r.base = R.CAL_TEMP.base then
    { s1 with cal := { s1.cal with sensors := vset s1.cal.sensors i { vget s1.cal.sensors {} i with peaked := false } } }
  else s1

/-- Read a register. -/
def State.readReg (s : State) (r : RegDef) (i : Nat) : State := (s.readEffect r i).emit (.regData (s.wordOf r i))

/-- Read the high word of an entry: the half latched by the read of its low word (R331); without one it is read afresh.
DEDUCED, unsafe: log 17. -/
def State.readHigh (s : State) (r : RegDef) (i a : Nat) : State :=
  match s.mem.latch with
  | some p =>
    if p.1 = a then s.emit (.regData p.2)
    else let x := s.fetchEntry r i; x.1.emit (.regData (x.2 / 2 ^ 32))
  | none => let x := s.fetchEntry r i; x.1.emit (.regData (x.2 / 2 ^ 32))

/-- Read PF1 BAR0. -/
def State.readPf1 (s : State) (a : Nat) : State :=
  if (tableEntry a).isSome then s.readLow a
  else
    match (if 4 ≤ a then tableEntry (a - 4) else none) with
    | some (r, i) => s.readHigh r i (a - 4)
    | none =>
      match locateIn allRegs a with
      | some (r, i) => s.readReg r i
      | none => s.emit (.regData 0)

/-- Read PF0 BAR0: the HQI registers (R322, R454). -/
def State.readPf0 (s : State) (a : Nat) : State :=
  match locateIn regsHqi (0x300000 + a) with
  | some (r, i) => s.readReg r i
  | none => s.emit (.regData 0)

/-- The number of MSI-X vectors of a function (R279). -/
def vectors (fn : Nat) : Nat := if fn = 0 then 256 else 32

/-- Read BAR4 of a function: the MSI-X table in the layout of the PCI Express specification, and its pending bits from 0x2000
(R279).
PRESUMED, unsafe: log 15. -/
def State.readMsix (s : State) (fn a : Nat) : State :=
  let v := a / 16
  let x := s.msixEntry fn v
  s.emit (.regData (
    if v < vectors fn then
      (if a % 16 = 0 then x.addr % 2 ^ 32 else if a % 16 = 4 then x.addr / 2 ^ 32 else if a % 16 = 8 then x.data else x.masked.toNat)
    else if 0x2000 ≤ a ∧ a < 0x2000 + vectors fn / 8 then
      maskOf 32 fun b => (s.pf fn).pba.contains (8 * (a - 0x2000) + b)
    else 0))

/-- The function of a register space. -/
def RegSpace.fn : RegSpace → Nat
  | .pf0 | .msix0 => 0
  | .pf1 | .msix1 => 1

/-- A read of 4 bytes; an address that is not aligned is no register access (R279). -/
def State.busRead (s : State) (sp : RegSpace) (a : Nat) : State :=
  if !s.served sp.fn then s.refuseRead
  else if a % 4 ≠ 0 then (s.raise E.HIF_CFG_REJECT 0).emit .cplUr
  else
    match sp with
    | .pf0 => s.readPf0 a
    | .pf1 => s.readPf1 a
    | .msix0 => s.readMsix 0 a
    | .msix1 => s.readMsix 1 a

/-- RC_READ: a read at an address of a register space. -/
def execRcRead (sp : RegSpace) (a : BitVec 32) (s : State) : Out := done s fun t => t.busRead sp a.toNat

end Sys2Proof.Machine
end

