-- ==== Sys2Proof/Machine/WndCmds.lean ====
section
/-!
DEFINITION. The meanings of the Winder rows (08), the overruns of the observer and of the Winder among them (R38).
-/
namespace Sys2Proof.Machine

/-! ### Overruns (R38) -/

/-- The observer of deck d completes late in the servo tick that begins next: angle and speed of that tick are extrapolated (R38).
DEDUCED, unsafe: log 93. -/
def State.obsLate (s : State) (d : Nat) : State :=
  if (s.wn d).lateNext || decide (0 < s.tck.repeats) then s
  else
    let n := (s.wn d).late + 1
    let s1 := s.updWnd d fun w => { w with late := n, lateNext := true }
    let s2 := (s1.count F.TCK_WND_OVR_OBS d).raiseTckDeck E.TCK_OBS_LATE d
    if n < 4 then s2
    else
      let s3 := s2.setB F.WND_STATUS_ANGLE_VALID d false
      if n = 4 then
        let s4 := s3.raiseTckDeck E.TCK_OBS_LOST d
        if s4.isSet F.WND_STATUS_LOCKED d && s4.loopOn d then s4.loseSync d else s4
      else s3

/-- OBS_LATE of deck d. -/
def execObsLate (d : Fin 8) (s : State) : Out := doneQ s fun t => t.obsLate d

/-- A motor or speed step of deck d is late: the previous duty stays in force for one motor tick; a second late step in a row brakes
by winding short (R38). -/
def State.wndOvr (s : State) (d : Nat) : State :=
  let s1 := ((s.updWnd d fun w => { w with next := none }).count F.TCK_WND_OVR_STEP d).raiseTckDeck E.TCK_WND_OVR d
  if (s.wn d).ovr then (s1.updWnd d fun w => { w with ovr := false }).startShort d
  else if s.deck d = dkEMPTY || s.deck d = dkFAULT then s1
  else (s1.updWnd d fun w => { w with ovr := true }).deckFatal d .overrun

/-- WND_OVR of deck d, in a servo tick that has a motor step; every speed step falls in one (R28, R36). -/
def execWndOvr (d : Fin 8) (s : State) : Out := doneQ s fun t => if t.onTick 10 then t.wndOvr d else t

/-! ### Deck commands (R185, R186) -/

/-- A command that the state table does not list is ignored; without CFG_REJECT in the servo tick of a deck-fatal event (R185,
R186).
DEDUCED, unsafe: log 94. -/
def State.wndReject (s : State) (d : Nat) : State :=
  s.onlyIf (s.deck d != dkFAULT || (s.wn d).fatalAt != some s.tick) fun t => t.raise E.WND_CFG_REJECT d

/-- LOAD: a disc is clamped; what was calibrated on another disc is no calibration of this one (R261, R262). -/
def State.deckLoad (s : State) (d : Nat) : State :=
  if s.deck d = dkEMPTY then
    (s.setDeck d dkLOADED).forEach (headsOf d) fun t h =>
      t.updWrite h fun w => { w with calTemp := [], calFree := [], calFull := [] }
  else s.wndReject d

/-- DECK_LOAD. -/
def execDeckLoad (d : Fin 8) (s : State) : Out := doneW s fun t => t.deckLoad d

/-- START. -/
def State.deckStart (s : State) (d : Nat) : State := if s.mayStart d then s.startDeck d else s.wndReject d

/-- DECK_START. -/
def execDeckStart (d : Fin 8) (s : State) : Out := doneW s fun t => t.deckStart d

/-- STOP, accepted while every head of the deck is OFF, PARKED or SAFE. -/
def State.deckStop (s : State) (d : Nat) : State :=
  if s.turning d && s.headsDown d then s.brakeDeck d else s.wndReject d

/-- DECK_STOP. -/
def execDeckStop (d : Fin 8) (s : State) : Out := doneW s fun t => t.deckStop d

/-- UNLOAD at rest: the learner tables of the deck are cleared (R143). -/
def State.deckUnload (s : State) (d : Nat) : State :=
  if s.deck d = dkLOADED && s.isSet F.WND_STATUS_AT_REST d then (s.lrnClearDeck d).setDeck d dkEMPTY else s.wndReject d

/-- DECK_UNLOAD. -/
def execDeckUnload (d : Fin 8) (s : State) : Out := doneW s fun t => t.deckUnload d

/-- FAULT_RST at rest with SPd_DRV_FLTn high; it also clears the chopper fault (R179). -/
def State.deckFaultReset (s : State) (d : Nat) : State :=
  if s.deck d = dkFAULT && s.isSet F.WND_STATUS_AT_REST d && !(s.wn d).drvLow then
    ((s.setDeck d dkLOADED).updWnd d fun w => { w with chopFault := false, brake := .none, ovr := false }).resetSource
      F.PWR_RESET_CAUSE_HEAD_DECK 7
  else s.wndReject d

/-- DECK_FAULT_RESET, with the level of SPd_DRV_FLTn. -/
def execDeckFaultReset (d : Fin 8) (drvHigh : Bool) (s : State) : Out :=
  doneW s fun t => (t.updWnd d fun w => { w with drvLow := !drvHigh }).deckFaultReset d

/-- Write WND_CTL.EN; clearing it brakes a deck in SPINUP or READY (R185). -/
def State.wndEnable (s : State) (d : Nat) (b : Bool) : State :=
  let s1 := s.setB F.WND_CTL_EN d b
  if !b && s.turning d then s1.brakeDeck d else s1

/-- A target write: rpm x 2^-3, inside SPD_MIN to SPD_MAX (R175, R186). -/
def State.writeSpeed (s : State) (d v : Nat) : State :=
  if s.getF F.WND_MOTOR_SPD_MIN d * 8 ≤ v ∧ v ≤ s.getF F.WND_MOTOR_SPD_MAX d * 8 then s.setF F.WND_SPEED_SET_TARGET d v
  else s.raise E.WND_CFG_REJECT d

/-- SPEED_TARGET_WRITE. -/
def execSpeedTargetWrite (d : Fin 8) (target : BitVec 16) (s : State) : Out := doneW s fun t => t.writeSpeed d target.toNat

/-! ### Hardware trips (R166) -/

/-- All gates turn off; they stay off for 8 motor ticks; the deck enters FAULT. -/
def State.trip (s : State) (d : Nat) (e : Event) : State :=
  let s1 := (s.gatesOff d).raise e d
  if s.deck d = dkEMPTY then s1 else (s1.updWnd d fun w => { w with brake := .hold s.tick, ovr := false }).deckFatal d .hold

/-- OVERCURRENT: a comparator of deck d trips. -/
def execOvercurrent (d : Fin 8) (s : State) : Out := doneQ s fun t => t.trip d E.WND_OVERCURRENT

/-- DRV_FAULT: SPd_DRV_FLTn is low for two engine cycles. -/
def execDrvFault (d : Fin 8) (s : State) : Out :=
  doneQ s fun t => (t.updWnd d fun w => { w with drvLow := true }).trip d E.WND_DRV_FAULT

/-- The 8 motor ticks have passed: winding short, or the deck coasts. -/
def State.gateHoldEnd (s : State) (d : Nat) (drvHigh clear : Bool) : State :=
  match (s.wn d).brake with
  | .hold since =>
    if s.tick < since + 80 then s
    else
      let s1 := s.updWnd d fun w => { w with drvLow := !drvHigh }
      if drvHigh && clear then s1.startShort d else s1.updWnd d fun w => { w with brake := .coast }
  | _ => s

/-- GATE_HOLD_END, with the level of SPd_DRV_FLTn and whether the comparators are clear. -/
def execGateHoldEnd (d : Fin 8) (drvHigh clear : Bool) (s : State) : Out := done s fun t => t.gateHoldEnd d drvHigh clear

/-! ### Pillar reports (R171) -/

/-- The report of the tick before is taken, at most one a tick, and none while not locked (R186). -/
def State.pillarReport (s : State) (d : Nat) : State :=
  match s.pickReport d with
  | none => s
  | some r =>
    if !s.isSet F.WND_STATUS_LOCKED d || (s.wn d).usedAt = some s.tick then s
    else
      let a := (s.wn d).past.getD 1 (0, 0)
      s.useReport d (s.residual r a.1 a.2)

/-- PILLAR_REPORT. -/
def execPillarReport (d : Fin 8) (s : State) : Out := done s fun t => t.pillarReport d

/-! ### Starting (R176) -/

/-- The electrical rate of a speed given in rpm x 2^-2. -/
def State.rateOf (s : State) (d : Nat) (v : Int) : Int := divRnd (v * 16384 * s.poles d * 65536) 24000000

/-- The observer starts from the measured angle and speed, the loop closes at the measured speed. -/
def State.seedObserver (s : State) (d : Nat) (v : Int) (elec : Nat) : State :=
  s.updWnd d fun w => { w with elec := elec * 65536, delec := s.rateOf d v, ramp := v * 16384 }

/-- The result of MEASURE: speed and angle by the terminal voltages, rpm x 2^-2; at rest without measurable back-EMF. -/
def State.measureEnd (s : State) (d : Nat) : State :=
  if s.deck d = dkSPINUP && s.phase d = 1 && decide (8 ≤ (s.wn d).offRun) then
    let v := ((s.wn d).found.map (·.1)).getD 0
    let elec := ((s.wn d).found.map (·.2)).getD 0
    let t := (s.wn d).target0
    let slow := decide (v.natAbs * 2 * 100 < t)
    let s1 := s.setF F.WND_CATCH_SPEED d (unsgn 16 v)
    if slow then (s1.setF F.WND_CATCH_RESULT d 0).setPhase d 4
    else if v < 0 then ((s1.setF F.WND_CATCH_RESULT d 3).seedObserver d v elec).setPhase d 3
    else if 5 * t < v.natAbs * 2 * 100 then (((s1.setF F.WND_CATCH_RESULT d 1).seedObserver d v elec).setPhase d 2).setPhase d 7
    else ((s1.setF F.WND_CATCH_RESULT d 2).seedObserver d v elec).setPhase d 3
  else s

/-- SPIN_MEASURE_END. -/
def execSpinMeasureEnd (d : Fin 8) (s : State) : Out := done s fun t => t.measureEnd d

/-- ALIGN_T has passed: the open-loop rotation begins. -/
def State.alignEnd (s : State) (d : Nat) : State :=
  if s.deck d = dkSPINUP && s.phase d = 4 && decide ((s.wn d).phaseAt + 400 * max 1 (s.getF F.WND_START_ALIGN_T d) ≤ s.tick) then
    (s.updWnd d fun w => { w with olRate := 0, olAngle := 0 }).setPhase d 5
  else s

/-- ALIGN_END. -/
def execAlignEnd (d : Fin 8) (s : State) : Out := done s fun t => t.alignEnd d

/-- SPIN_FAIL and its deck-fatal action. -/
def State.spinFail (s : State) (d : Nat) : State := (s.raise E.WND_SPIN_FAIL d).deckFatal d .auto

/-- The observer did not lock within 64 motor ticks: gates off, a further try from rest, at most three. -/
def State.handoverTimeout (s : State) (d : Nat) : State :=
  let w := s.wn d
  if s.deck d = dkSPINUP && s.phase d = 6 && !w.waitRest && !s.isSet F.WND_STATUS_LOCKED d && decide (w.phaseAt + 640 ≤ s.tick) then
    let s1 := (s.gatesOff d).updWnd d fun w => { w with tries := w.tries + 1, waitRest := true }
    if 3 ≤ w.tries + 1 then s1.spinFail d else s1
  else s

/-- HANDOVER_TIMEOUT. -/
def execHandoverTimeout (d : Fin 8) (s : State) : Out := doneQ s fun t => t.handoverTimeout d

/-- SPIN_FAIL: spin-up exceeded SPIN_TMO. -/
def execSpinFail (d : Fin 8) (s : State) : Out :=
  doneQ s fun t =>
    if t.deck d = dkSPINUP && decide ((t.wn d).spinAt + 40000 * max 1 (t.getF F.WND_LIMITS_SPIN_TMO d) ≤ t.tick) then t.spinFail d
    else t

/-! ### Stopping (R177, R185) -/

/-- The short has been held for a further 200 ms: all gates turn off. -/
def State.shortHoldEnd (s : State) (d : Nat) : State :=
  match (s.wn d).brake with
  | .short _ (some since) =>
    if since + 80000 ≤ s.tick then (s.gatesOff d).updWnd d fun w => { w with brake := .none } else s
  | _ => s

/-- SHORT_HOLD_END. -/
def execShortHoldEnd (d : Fin 8) (s : State) : Out := done s fun t => t.shortHoldEnd d

/-- STOPPED: the deck is at rest with its gates off; a release that waits for it completes (R316); the engines
of a deck that a shift has taken away are removed (R382). -/
def execStopped (d : Fin 8) (s : State) : Out :=
  doneQ s fun t =>
    if t.deck d = dkBRAKING && !(t.wn d).gatesOn && t.isSet F.WND_STATUS_AT_REST d then
      let u := (t.setDeck d dkLOADED).raise E.WND_STOPPED d
      if (t.wn d).present then u else u.removeDeck d
    else t

end Sys2Proof.Machine
end

