-- ==== Sys2Proof/Machine/RegWrite.lean ====
section
/-!
DEFINITION. Writing registers: the event triplets (R21, R457 to R460), the registers whose fields do something when they are
written, and every other register (R450, R451). The rows EVT_CLEAR, EVT_MASK_WRITE, EVT_FORCE_WRITE and REGISTER_WRITE.
-/
namespace Sys2Proof.Machine

/-! ### Event triplets -/

/-- The registers of an event triplet. -/
inductive EvtPart where
  | bits | mask | force
  deriving DecidableEq, Repr

/-- The triplet a register belongs to, and its part. -/
def RegDef.evt? (r : RegDef) : Option (EvtReg × EvtPart) :=
  match r.fields with
  | [] => none
  | f :: _ =>
    match allEvtRegs.find? fun e => e.bits.any fun b => b.id = f.fld.id with
    | some e => some (e, .bits)
    | none =>
      match allEvtRegs.find? fun e => e.mask.id = f.fld.id with
      | some e => some (e, .mask)
      | none => (allEvtRegs.find? fun e => e.forced.id = f.fld.id).map fun e => (e, .force)

/-- The vectors of an event register: its group's, and vector 0 when it has a device-fatal bit (R458).
DEDUCED, unsafe: log 14. -/
def EvtReg.vectors (e : EvtReg) (i : Nat) : List Nat :=
  (if allEvents.any fun x => x.reg.mask.id = e.mask.id && decide (x.sev = .deviceFatal) then [0] else []) ++ [e.vbase + i / e.vdiv]

/-- Signal once more the groups of an event register that were and still are pending after a write of it (R459).
DEDUCED, unsafe: log 14. -/
def State.resignal (s before : State) (e : EvtReg) (i : Nat) : State :=
  let g0 := intBlock before.regs
  let g1 := intBlock s.regs
  s.forEach ((e.vectors i).filter fun v => g0.testBit v && g1.testBit v) fun t v => t.signal 1 v

/-- An RW1C write: the bits written 1 clear, with their marks. -/
def State.evtClear (s : State) (e : EvtReg) (i w : Nat) : State :=
  (s.forEach (e.bits.zipIdx.filter fun p => w.testBit p.2) fun t p =>
    (t.setB p.1 i false).putF e.forced i p.2 false).resignal s e i

/-- A mask write. -/
def State.evtMask (s : State) (e : EvtReg) (i w : Nat) : State := (s.setF e.mask i w).resignal s e i

/-- A force write: a bit that is clear is set and marked as forced; nothing else happens (R21, R460).
DEDUCED, unsafe: log 14. -/
def State.evtForce (s : State) (e : EvtReg) (i w : Nat) : State :=
  s.forEach (e.bits.zipIdx.filter fun p => w.testBit p.2 && !s.isSet p.1 i) fun t p =>
    (t.setB p.1 i true).putF e.forced i p.2 true

/-- A write to a register of a triplet. -/
def State.evtWrite (s : State) (e : EvtReg) (p : EvtPart) (i w : Nat) : State :=
  match p with
  | .bits => s.evtClear e i w
  | .mask => s.evtMask e i w
  | .force => s.evtForce e i w

/-- The triplet at an address of PF1 BAR0, its part and instance. -/
def evtAt (a : Nat) : Option (EvtReg × EvtPart × Nat) :=
  match locateIn allRegs a with
  | some (r, i) => r.evt?.map fun p => (p.1, p.2, i)
  | none => none

/-- A write to one part of the triplet at an address; an address of another register is none of this row. -/
def State.evtWriteAt (s : State) (part : EvtPart) (a w : Nat) : State :=
  match evtAt a with
  | some (e, p, i) => if p = part then s.evtWrite e p i w else s
  | none => s

/-- EVT_CLEAR: a word is written to an event register in PF1 BAR0. -/
def execEvtClear (a : BitVec 27) (w : BitVec 32) (s : State) : Out := doneW s fun t => t.evtWriteAt .bits a.toNat w.toNat

/-- EVT_MASK_WRITE. -/
def execEvtMaskWrite (a : BitVec 27) (w : BitVec 32) (s : State) : Out := doneW s fun t => t.evtWriteAt .mask a.toNat w.toNat

/-- EVT_FORCE_WRITE. -/
def execEvtForceWrite (a : BitVec 27) (w : BitVec 32) (s : State) : Out := doneW s fun t => t.evtWriteAt .force a.toNat w.toNat

/-! ### Registers whose fields act (block by block) -/

/-- A bit of a written word. -/
def bitW (w b : Nat) : Bool := w.testBit b

/-- Write a one-bit enable: f when it rises, g when it falls. -/
def State.edge (s : State) (f : Field) (i : Nat) (b : Bool) (up down : State → State) : State :=
  if s.isSet f i = b then s else if b then up s else down s

/-- GLB_HANDOVER. -/
def State.writeHandover (s : State) (w : Nat) : State :=
  if bitW w 8 then s.requestHandback (w % 32) else s.requestTakeover (w % 32)

/-- LNK_LANE_CTL: setting DIS fails the lane (R84). -/
def State.writeLaneCtl (s : State) (l w : Nat) : State :=
  let s1 := s.setF F.LNK_LANE_CTL_POL l (bitsOf w 0 0)
  s1.edge F.LNK_LANE_CTL_DIS l (bitW w 1) (fun t => t.laneFail (l / 8) (l % 8) .dis) fun t => t.setB F.LNK_LANE_CTL_DIS l false

/-- LNK_HEAD_CTL. -/
def State.writeHeadCtl (s : State) (h w : Nat) : State :=
  let s1 := (s.setF F.LNK_HEAD_CTL_RETRY_EN h (bitsOf w 2 2)).setF F.LNK_HEAD_CTL_ROT_EN h (bitsOf w 1 1)
  s1.edge F.LNK_HEAD_CTL_EN h (bitW w 0) (fun t => t.linkEnable h) fun t => t.linkDisable h

/-- LNK_HFE_CMD: with GO, a LINK_CMD; without, the fields. -/
def State.writeHfeCmd (s : State) (h w : Nat) : State :=
  if bitW w 3 then s.linkCmd h (bitsOf w 23 16) (bitsOf w 2 0) (bitsOf w 6 4) else s.storeReg R.LNK_HFE_CMD h w

/-- CLR_CTL: its RW fields but EN, then EN, then FAULT_RST. -/
def State.writeClrCtl (s : State) (h w : Nat) : State :=
  let s1 := s.storeReg R.CLR_CTL h (setBits w 0 0 (s.getF F.CLR_CTL_EN h))
  let s2 := s1.edge F.CLR_CTL_EN h (bitW w 0) (fun t => (t.setB F.CLR_CTL_EN h true).headUp h) fun t =>
    (t.setB F.CLR_CTL_EN h false).headOff h
  s2.onlyIf (bitW w 15) fun t => t.faultReset h

/-- LRN_CTL: its RW fields, then CLEAR. -/
def State.writeLrnCtl (s : State) (h w : Nat) : State :=
  (s.storeReg R.LRN_CTL h w).onlyIf (bitsOf w 5 4 != 0) fun t => t.clearLoops h (bitsOf w 5 4)

/-- SLD_CTL: its RW fields but EN, then EN, then HOME, PARK, STOP. -/
def State.writeSldCtl (s : State) (h w : Nat) : State :=
  if !s.writeOk R.SLD_CTL h w then s.raiseSld E.SLD_CFG_REJECT h
  else
    let s1 := s.storeReg R.SLD_CTL h (setBits w 0 0 (s.getF F.SLD_CTL_EN h))
    let s2 := s1.edge F.SLD_CTL_EN h (bitW w 0) (fun t => (t.setB F.SLD_CTL_EN h true).axisOn h) fun t => t.sledDisable h
    ((s2.onlyIf (bitW w 1) fun t => t.startHoming h).onlyIf (bitW w 2) fun t => t.sledPark h).onlyIf (bitW w 3) fun t => t.sledStop h

/-- WND_CTL: its RW fields but EN, then EN. -/
def State.writeWndCtl (s : State) (d w : Nat) : State :=
  if !s.writeOk R.WND_CTL d w then s.wndReject d
  else
    (s.storeReg R.WND_CTL d (setBits w 0 0 (s.getF F.WND_CTL_EN d))).edge F.WND_CTL_EN d (bitW w 0) (fun t => t.wndEnable d true)
      fun t => t.wndEnable d false

/-- WND_CMD: the commands whose bits are set, from bit 0 up; `drvHigh` is the level of SPd_DRV_FLTn for FAULT_RST. -/
def State.writeWndCmd (s : State) (d w : Nat) (drvHigh : Bool) : State :=
  (((((s.onlyIf (bitW w 0) fun t => t.deckLoad d).onlyIf (bitW w 1) fun t => t.deckStart d).onlyIf (bitW w 2) fun t =>
    t.deckStop d).onlyIf (bitW w 3) fun t => t.deckUnload d).onlyIf (bitW w 4) fun t =>
      (t.updWnd d fun x => { x with drvLow := !drvHigh }).deckFaultReset d)

/-- CHN_CTL: its RW fields but EN, then EN, then RELOAD. -/
def State.writeChnCtl (s : State) (c w : Nat) : State :=
  let s1 := s.storeReg R.CHN_CTL c (setBits w 0 0 (s.getF F.CHN_CTL_EN c))
  let s2 := s1.edge F.CHN_CTL_EN c (bitW w 0) (fun t => t.chanEnable c) fun t => t.chanDisable c
  s2.onlyIf (bitW w 7) fun t => t.updChan c fun x => { x with reload := true }

/-- PRC_CTL. -/
def State.writePrcCtl (s : State) (w : Nat) : State :=
  if !s.writeOk R.PRC_CTL 0 w then s.raise E.PRC_CFG_REJECT 0
  else (s.storeReg R.PRC_CTL 0 (setBits w 0 0 (s.getF F.PRC_CTL_EN 0))).prcEnable (bitW w 0)

/-- HIF_CONTAIN: a cause prevails over a release (R298). -/
def State.writeContain (s : State) (w : Nat) : State :=
  if bitW w 1 then s.contain F.HIF_CONTAIN_CAUSE_FORCED else s.onlyIf (bitW w 0) State.release

/-- HQI_CC. -/
def State.writeCc (s : State) (w : Nat) : State :=
  s.edge F.HQI_CC_EN 0 (bitW w 0) State.enableController State.resetController

/-- SIZE and CLASS of a pair: fixed while the pair is enabled (R300); CLASS of pair 0 is fixed.
DEDUCED, unsafe: log 11. -/
def State.writeShape (s : State) (q w : Nat) : State :=
  let same := s.getF F.HQI_QP_CTL_SIZE q = bitsOf w 27 16 ∧ (q = 0 ∨ s.getF F.HQI_QP_CTL_CLASS q = bitsOf w 9 8)
  if same then s
  else if s.isSet F.HQI_QP_CTL_EN q || s.isSet F.HQI_QP_STATUS_ENABLED q then s.rejectHqi
  else (s.setF F.HQI_QP_CTL_SIZE q (bitsOf w 27 16)).onlyIf (q != 0) fun t => t.setF F.HQI_QP_CTL_CLASS q (bitsOf w 9 8)

/-- HQI_QP_CTL: shape, RO_DATA, IEN (R306), then EN.
DEDUCED, unsafe: log 11. -/
def State.writeQpCtl (s : State) (q w : Nat) : State :=
  let s1 := ((s.writeShape q w).setF F.HQI_QP_CTL_RO_DATA q (bitsOf w 2 2)).setF F.HQI_QP_CTL_IEN q (bitsOf w 1 1)
  let s2 := if bitW w 1 then s1 else s1.setPair q { s1.pair q with cause := false }
  s2.edge F.HQI_QP_CTL_EN q (bitW w 0) (fun t => t.enablePair q) fun t => t.disablePair q

/-- MEM_DSCRUB_CTL. -/
def State.writeScrub (s : State) (w : Nat) : State :=
  ((s.storeReg R.MEM_DSCRUB_CTL 0 w).onlyIf (bitW w 0) State.scrubGo).onlyIf (bitW w 1) State.scrubStop

/-- MEM_TEST_CTL: EN and SRAM, then OP (R339). -/
def State.writeTest (s : State) (w : Nat) : State :=
  let s1 := s.storeReg R.MEM_TEST_CTL 0 w
  if !s1.testMay then s1
  else if bitsOf w 3 2 = 1 then s1.rawWrite
  else if bitsOf w 3 2 = 2 then s1.rawRead
  else s1

/-- LCA_WAY_CTL: the locks, then each way's power (R344). -/
def State.writeWays (s : State) (w : Nat) (x : CacheErr) : State :=
  ((s.setF F.LCA_WAY_CTL_LOCK 0 (bitsOf w 15 0)).forEach (List.range 16) fun t k =>
    if bitW w (16 + k) then t.wayDown k x else t.wayUp k).tagCheck x

/-- LCA_OP: its fields, and with GO the operation (R345 to R347). -/
def State.writeLcaOp (s : State) (w : Nat) (x : CacheErr) : State :=
  if !s.writeOk R.LCA_OP 0 w then s.lcaReject
  else
    let s1 := s.storeReg R.LCA_OP 0 w
    let place := bitW w 4
    let force := bitW w 5
    if !bitW w 0 then s1
    else if bitsOf w 3 1 = 1 then s1.lcaMaintain .clean place force x
    else if bitsOf w 3 1 = 2 then s1.lcaMaintain .invalidate place force x
    else if bitsOf w 3 1 = 3 then s1.lcaMaintain .cleanInvalidate place force x
    else s1.lcaPreload (bitsOf w 9 6) x

/-- TRL_CTL: its RW fields but EN, then EN, then ELECT. -/
def State.writeTrlCtl (s : State) (w : Nat) : State :=
  let s1 := s.storeReg R.TRL_CTL 0 (setBits w 0 0 (s.getF F.TRL_CTL_EN 0))
  (s1.edge F.TRL_CTL_EN 0 (bitW w 0) State.enableRing State.disableRing).onlyIf (bitW w 2) State.writeElect

/-- CAL_CTL. -/
def State.writeCalCtl (s : State) (w : Nat) : State :=
  if !s.writeOk R.CAL_CTL 0 w then s.raise E.CAL_CFG_REJECT 0
  else (s.storeReg R.CAL_CTL 0 w).onlyIf (bitW w 1) State.calPendAll

/-- PWR_RESET_CAUSE: LAST takes its value, writing 1 to a cause bit clears it (R426).
DEDUCED, unsafe: log 13. -/
def State.writeCause (s : State) (w : Nat) : State :=
  (s.setF F.PWR_RESET_CAUSE_LAST 0 (bitsOf w 15 12)).forEach
    ([F.PWR_RESET_CAUSE_POR, F.PWR_RESET_CAUSE_SRST, F.PWR_RESET_CAUSE_PERST, F.PWR_RESET_CAUSE_HOT, F.PWR_RESET_CAUSE_FLR0,
      F.PWR_RESET_CAUSE_FLR1, F.PWR_RESET_CAUSE_RING, F.PWR_RESET_CAUSE_HEAD_DECK, F.PWR_RESET_CAUSE_THERM_TRIP].zipIdx.filter
        fun p => bitW w p.2) fun t p => t.setB p.1 0 false

/-! ### A write to a register -/

/-- Write a register of the blocks GLB to CHN; none when it is no register whose fields act. -/
def State.writeHead? (s : State) (b i w : Nat) (drvHigh : Bool) : Option State :=
  if b = R.GLB_HANDOVER.base then some (s.writeHandover w)
  else if b = R.TCK_CTL.base then some (s.writeTckCtl w)
  else if b = R.LNK_LANE_CTL.base then some (s.writeLaneCtl i w)
  else if b = R.LNK_PRBS_CTL.base then some (s.writePrbs i w)
  else if b = R.LNK_EYE_CTL.base then some (s.writeEye i w)
  else if b = R.LNK_HEAD_CTL.base then some (s.writeHeadCtl i w)
  else if b = R.LNK_TICK_LEAD.base then some (s.writeLead i w)
  else if b = R.LNK_FIFO_FLUSH.base then some (s.flushMask i w)
  else if b = R.LNK_HFE_CMD.base then some (s.writeHfeCmd i w)
  else if b = R.CLR_CTL.base then some (s.writeClrCtl i w)
  else if b = R.CLR_COEF_COMMIT.base then some (s.onlyIf (bitW w 0) fun t => t.commitCoef i (bitW w 1))
  else if b = R.LRN_CTL.base then some (s.writeLrnCtl i w)
  else if b = R.LRN_SEED.base then some (s.onlyIf (bitW w 0) fun t => t.seedRequest i (bitsOf w 3 2))
  else if b = R.SLD_CTL.base then some (s.writeSldCtl i w)
  else if b = R.SLD_TARGET.base then some (s.writeTarget i w)
  else if b = R.SLD_GROUP_GO.base then some (s.groupGo w)
  else if b = R.WND_CTL.base then some (s.writeWndCtl i w)
  else if b = R.WND_CMD.base then some (s.writeWndCmd i w drvHigh)
  else if b = R.WND_SPEED_SET.base then some (s.writeSpeed i (bitsOf w 15 0))
  else if b = R.CHN_CTL.base then some (s.writeChnCtl i w)
  else none

/-- Write a register of the other blocks; none when it is no register whose fields act. -/
def State.writeUnit? (s : State) (b i w : Nat) (x : CacheErr) : Option State :=
  if b = R.PRC_CTL.base then some (s.writePrcCtl w)
  else if b = R.PRC_FLUSH.base then some (s.flushStaging fun c => bitW w (headOfChan c))
  else if b = R.HIF_CONTAIN.base then some (s.writeContain w)
  else if b = R.HIF_WIN_COMMIT.base then some (s.windowCommit (w % 256))
  else if b = R.HQI_CC.base then some (s.writeCc w)
  else if b = R.HQI_QP_CTL.base then some (s.writeQpCtl i w)
  else if b = R.HQI_SQ_TAIL.base then some (s.sqDoorbell i (w % 4096))
  else if b = R.HQI_CQ_HEAD.base then some (s.cqDoorbell i (w % 4096))
  else if b = R.MEM_CE_CTL.base then some (s.writeBucket i w)
  else if b = R.MEM_DSCRUB_CTL.base then some (s.writeScrub w)
  else if b = R.MEM_TEST_CTL.base then some (s.writeTest w)
  else if b = R.LCA_WAY_CTL.base then some (s.writeWays w x)
  else if b = R.LCA_OP.base then some (s.writeLcaOp w x)
  else if b = R.CFG_STAGE_CTL.base then some (s.onlyIf (bitW w 0) State.abandon)
  else if b = R.CFG_FUSE_CMD.base then some (s.fuseCmd (bitsOf w 2 0) (bitsOf w 23 16) (bitsOf w 9 8))
  else if b = R.TRL_CTL.base then some (s.writeTrlCtl w)
  else if b = R.TRL_SHIFT_CTL.base then some (s.writeShiftCtl w)
  else if b = R.TRL_EXCL_CTL.base then some (s.writeExclCtl w)
  else if b = R.TRL_TX_CTL.base then some (s.writeTxCtl w)
  else if b = R.CAL_CTL.base then some (s.writeCalCtl w)
  else if b = R.PWR_RESET_CAUSE.base then some (s.writeCause w)
  else none

/-- Write a word to a register. -/
def State.writeReg (s : State) (r : RegDef) (i w : Nat) (x : CacheErr) (drvHigh : Bool) : State :=
  match r.evt? with
  | some (e, p) => s.evtWrite e p i w
  | none =>
    match s.writeHead? r.base i w drvHigh with
    | some t => t
    | none =>
      match s.writeUnit? r.base i w x with
      | some t => t
      | none => s.plainWrite r i w

/-- A register of PF1 BAR0 that PF1 may write: of the HQI view only the event triplet (R322). -/
def pf1Writes (r : RegDef) : Bool := decide (r.base < 0x300000) || decide (0x400000 ≤ r.base) || r.evt?.isSome

/-- Write PF1 BAR0. -/
def State.writePf1 (s : State) (a w : Nat) (x : CacheErr) (drvHigh : Bool) : State :=
  if decide (4 ≤ a) && (tableEntry (a - 4)).isSome then s.writeHigh (a - 4) w
  else
    let t := s.flushAsm
    if (tableEntry a).isSome then t.writeLow a w
    else
      match locateIn allRegs a with
      | some (r, i) => if pf1Writes r then t.writeReg r i w x drvHigh else t
      | none => t

/-- Write PF0 BAR0. -/
def State.writePf0 (s : State) (a w : Nat) : State :=
  match locateIn regsHqi (0x300000 + a) with
  | some (r, i) => s.writeReg r i w {} true
  | none => s

/-- Write BAR4 of a function: an entry of the MSI-X table; a vector that is unmasked may have its message sent (R288).
PRESUMED, unsafe: log 15. -/
def State.writeMsix (s : State) (fn a w : Nat) : State :=
  let v := a / 16
  let x := s.msixEntry fn v
  if vectors fn ≤ v then s
  else if a % 16 = 0 then s.setMsix fn v { x with addr := w + x.addr / 2 ^ 32 * 2 ^ 32 }
  else if a % 16 = 4 then s.setMsix fn v { x with addr := x.addr % 2 ^ 32 + w * 2 ^ 32 }
  else if a % 16 = 8 then s.setMsix fn v { x with data := w }
  else (s.setMsix fn v { x with masked := bitW w 0 }).flushPba fn

/-- A write of 4 bytes; an address that is not aligned reaches no register (R279). -/
def State.busWrite (s : State) (sp : RegSpace) (a w : Nat) (x : CacheErr) (drvHigh : Bool) : State :=
  if !s.served sp.fn then s
  else if a % 4 ≠ 0 then s.raise E.HIF_CFG_REJECT 0
  else
    match sp with
    | .pf0 => s.writePf0 a w
    | .pf1 => s.writePf1 a w x drvHigh
    | .msix0 => s.writeMsix 0 a w
    | .msix1 => s.writeMsix 1 a w

/-- The write starts a DRAM access to a line that does not exist: a raw test operation (R339) or a preload (R345).
DESIGN CHOICE, safe: log 9. -/
def State.writeFaults (s : State) (sp : RegSpace) (a w : Nat) : Bool :=
  s.pf1Served && sp = .pf1 &&
  ((a == R.MEM_TEST_CTL.base && bitW w 0 && !s.isSet F.MEM_TEST_CTL_BUSY 0 && (bitsOf w 3 2 == 1 || bitsOf w 3 2 == 2) &&
      decide (s.dramLines ≤ s.getF F.MEM_TEST_LINE_LINE 0)) ||
   (a == R.LCA_OP.base && bitW w 0 && bitsOf w 3 1 == 4 && s.preloadAbsent (bitsOf w 9 6)))

/-- REGISTER_WRITE: a word is written at an address of a register space; `x` is what the cache's SRAM holds in error and
`drvHigh` the level of SPd_DRV_FLTn, for the writes that meet them. -/
def execRegisterWrite (sp : RegSpace) (a w : BitVec 32) (x : CacheErr) (drvHigh : Bool) (s : State) : Out :=
  if s.writeFaults sp a.toNat w.toNat then .fault .dramAddress
  else doneQ s fun t => t.busWrite sp a.toNat w.toNat x drvHigh

end Sys2Proof.Machine
end

