-- ==== Sys2Proof/Machine/ResetCmds.lean ====
section
/-!
DEFINITION. The meanings of the reset, power and clock rows (17): PORn, SRSTn, PERST#, hot reset, ring unit reset, thermal trip,
rails and reference clocks, sensors.
-/
namespace Sys2Proof.Machine

/-! ### Resets of the whole device (R408, R410) -/

/-- The register cells a reset of the device keeps: PWR_STATUS, which shows what is present, and, except for PORn, the RWS fields
of PWR_RESET_CAUSE.
DEDUCED, unsafe: log 72. -/
def State.keptCells (s : State) (por : Bool) : List RegCell :=
  s.regs.filter fun c => idIn F.PWR_STATUS_PCIE_REF.id F.PWR_STATUS_RAILS.id c.fld.id ||
    (!por && idIn F.PWR_RESET_CAUSE_LAST.id F.PWR_RESET_CAUSE_POR.id c.fld.id)

/-- Gates and the bypass go to their safe levels. -/
def State.safePins (s : State) : State :=
  (s.forEach ((List.range 8).filter fun d => s.deck d ≠ dkEMPTY) fun t d => t.emit (.gatesOff d)).onlyIf
    (s.isSet F.TRL_STATUS_BYP_HOLD 0) fun t => t.emit (.bypHold false)

/-- Every domain is cleared: what survives is the fuse bank and the flash, trims that a running calibration holds (R411), and the
levels outside the device. DRAM contents are lost or not preserved.
DESIGN CHOICE, unsafe: log 6.
DEDUCED, unsafe: log 47.
DESIGN CHOICE, unsafe: log 70. -/
def State.resetDevice (s : State) (por : Bool) : State :=
  let t := s.safePins
  { ({} : State) with
    regs := s.keptCells por
    cfg := { fuses := s.cfg.fuses, flash := s.cfg.flash }
    cal := if s.getF F.CAL_STATUS_PEND 0 = 0 then {} else { trims := s.cal.trims, spare := s.cal.spare, conv := s.cal.conv, turn := s.cal.turn }
    hif := { perst := s.hif.perst }
    pwr := s.pwr
    tap := s.tap
    free := s.free
    out := t.out
    pending := s.pending }

/-- A failing row of the self-test is repaired, or left unrepaired (R423). -/
def State.bistRow (s : State) (p : Nat × Nat) : State :=
  if s.mem.repaired.contains p then s
  else
    let x := s.repairRow p.1 p.2
    if x.2 then x.1.count F.PWR_BIST_REPAIRED 0
    else ((x.1.count F.PWR_BIST_UNREPAIRED 0).setB F.PWR_BIST_FAIL 0 true).raise E.PWR_BIST_FAIL 0

/-- The last reset has ended: straps are sampled, fuses sensed, rows repaired, the test is run, the load starts (R329, R367, R418,
R423). -/
def State.startDevice (s : State) (x : StartIn) : State :=
  let s1 := (((s.setB F.PWR_STRAPS_BIST 0 x.bist).setB F.PWR_STRAPS_RING_EN 0 x.ringEn).setB F.PWR_STRAPS_TEST 0 x.test).setB
    F.TRL_CTL_EN 0 x.ringEn
  let s2 := s1.forEach s.cfg.fuses.repair fun t p => t.countedRepair F.MEM_REPAIR_FUSED p.1 p.2
  let s3 := if x.bist then (s2.setB F.PWR_BIST_RAN 0 true).forEach x.failing State.bistRow else s2
  s3.senseFuses.updCfg fun c => { c with load := some { cause := s.pwr.cause } }

/-- A source takes the device into reset: the lower CAUSE code stands when sources coincide (R411).
DEDUCED, unsafe: log 67. -/
def State.hold (s : State) (why : HoldWhy) (cause : Nat) : State :=
  let c := if s.pwr.held.isEmpty then cause else min s.pwr.cause cause
  let l := if s.pwr.held.contains why then s.pwr.held else s.pwr.held ++ [why]
  { s with pwr := { held := l, cause := c } }

/-- A source that holds the device in reset ends; with the last the device starts. -/
def State.unhold (s : State) (why : HoldWhy) (x : StartIn) : State :=
  if s.pwr.held.contains why then
    let s1 : State := { s with pwr := { s.pwr with held := s.pwr.held.filter (· ≠ why) } }
    if s1.pwr.held.isEmpty then s1.startDevice x else s1
  else s

/-- PORN_ASSERT: the pin is low, or VDD_CORE is below 0.68 V (R408, R414). -/
def execPornAssert (s : State) : Out :=
  effect s fun t => ((t.resetDevice true).hold .porn 1).resetSource F.PWR_RESET_CAUSE_POR 0

/-- PORN_DEASSERT: what the device finds at its start. -/
def execPornDeassert (x : StartIn) (s : State) : Out := effect s fun t => t.unhold .porn x

/-- SRSTN_ASSERT. -/
def execSrstnAssert (s : State) : Out :=
  effect s fun t => ((t.resetDevice false).hold .srstn 2).resetSource F.PWR_RESET_CAUSE_SRST 1

/-- SRSTN_DEASSERT. -/
def execSrstnDeassert (x : StartIn) (s : State) : Out := effect s fun t => t.unhold .srstn x

/-- UNIT_RESET_MESSAGE: a ring-commanded unit reset acts as SRSTn for an instant (R398, R408). -/
def execUnitResetMessage (m : MsgIn) (x : StartIn) (s : State) : Out :=
  done s fun t => t.onMessage m 3 fun u =>
    if m.dest = u.getF F.TRL_STATUS_POSITION 0 ∧ m.words.getD 0 0 = u.serial ∧ u.isSet F.TRL_CTL_RESET_EN 0 then
      let w := ((u.passOn m true false).resetDevice false).resetSource F.PWR_RESET_CAUSE_RING 6
      ({ w with pwr := { w.pwr with cause := 4 } }).startDevice x
    else u.passOn m false false

/-! ### PERST# and hot reset (R281, R409) -/

/-- The configuration space of both functions, the HIF and HQI domains; PF0's commands are aborted and containment ends; the link
is down.
DEDUCED, unsafe: log 71. -/
def State.resetHost (s : State) : State :=
  let s1 := ((s.abortQueues.clearFunction 0).clearFunction 1).clearWindows.clearHif
  let s2 : State := { s1 with hif := { s1.hif with reqs := [] } }
  if s.contained && !s.verifying && !s2.hif.perst then s2.thawMedia else s2

/-- PERST_ASSERT. A verify-only load in progress is given up and made again when PERST# ends (R411). -/
def execPerstAssert (s : State) : Out :=
  effect s fun t =>
    let u : State := { t.resetSource F.PWR_RESET_CAUSE_PERST 2 with hif := { t.hif with perst := true, hotPending := false } }
    if t.hif.perst then t
    else if !t.pwr.held.isEmpty then u
    else
      let w := if t.verifying then u.updCfg fun c => { c with load := none } else u
      w.resetHost.freezeMedia.advance

/-- PERST_DEASSERT: with an image placed a verify-only load begins; with none, and none being loaded, a load does (R367, R409).
DEDUCED, unsafe: log 69. -/
def execPerstDeassert (s : State) : Out :=
  effect s fun t =>
    let u : State := { t with hif := { t.hif with perst := false } }
    if !t.hif.perst || !t.pwr.held.isEmpty || t.cfg.load.isSome then u
    else if t.cfg.image.isSome then u.updCfg fun c => { c with load := some { cause := 3, verifyOnly := true } }
    else
      let w := u.resetDevice false
      ({ w with pwr := { w.pwr with cause := 3 } }).startDevice
        { bist := t.isSet F.PWR_STRAPS_BIST 0, ringEn := t.isSet F.PWR_STRAPS_RING_EN 0, test := t.isSet F.PWR_STRAPS_TEST 0 }

/-- The cause that a verify-only load fails with, 0 when it passes: steps 1 to 8 on the running slot. -/
def State.verifyOnlyCause (s : State) (x : LoadIn) : Nat :=
  let fused := s.getF F.CFG_KEYS_FUSED 0
  let revoked := s.getF F.CFG_KEYS_REVOKED 0
  let t := s.setF F.CFG_KEYS_USABLE 0 (maskOf 4 fun b => x.keysMatch.testBit b && fused.testBit b && !revoked.testBit b)
  if s.cfg.fuses.lifecycle ≠ 0x5A then 13 else t.verifyCause (x.image (s.getF F.CFG_STATUS_SLOT 0))

/-- VERIFY_ONLY_LOAD_DONE: what the load finds; when it fails, the device starts afresh with a full load. -/
def State.verifyOnlyDone (s : State) (x : LoadIn) : State :=
  if s.verifyOnlyCause x = 0 then
    let s1 := (s.updCfg fun c => { c with load := none, recordDue := some 3 }).findPrev x.badLog
    let s2 := if s1.stg = sgARMED then s1 else s1.rebuildStage x.stageBad fun k => (x.image k).svn
    s2.thawMedia
  else
    let w := s.resetDevice false
    ({ w with pwr := { w.pwr with cause := 3 } }).startDevice
      { bist := s.isSet F.PWR_STRAPS_BIST 0, ringEn := s.isSet F.PWR_STRAPS_RING_EN 0, test := s.isSet F.PWR_STRAPS_TEST 0 }

/-- VERIFY_ONLY_LOAD_DONE. -/
def execVerifyOnlyLoadDone (x : LoadIn) (s : State) : Out :=
  doneQ s fun t => if t.verifying then t.verifyOnlyDone x else t

/-- HOT_RESET received in training sets. -/
def execHotReset (s : State) : Out :=
  doneQ s fun t =>
    if t.hif.perst then t
    else
      let u := ((t.resetHost).raise E.HIF_HOT_RESET 0).resetSource F.PWR_RESET_CAUSE_HOT 3
      { u with hif := { u.hif with hotPending := true } }

/-! ### Rails and clocks (R414, R417) -/

/-- RAIL_FAULT: a rail, in the order of R412, has been outside its tolerance for 10 us. -/
def execRailFault (rail : Fin 8) (s : State) : Out :=
  effect s fun t =>
    if t.bitF F.PWR_STATUS_RAILS 0 rail then
      let u := t.putF F.PWR_STATUS_RAILS 0 rail false
      if u.pwr.held.isEmpty then (u.deviceFatal E.PWR_RAIL_FAULT).advance else u
    else t

/-- RAIL_RETURN. -/
def execRailReturn (rail : Fin 8) (s : State) : Out := effect s fun t => t.putF F.PWR_STATUS_RAILS 0 rail true

/-- Every write gate closes. -/
def State.closeGates (s : State) : State :=
  s.forEach ((List.range 32).filter fun h => (s.head h).write.wg) fun t h => t.gateClose h

/-- CLK_FAULT: SYSCLK is lost; containment, gates closed, then the device is held in reset.
DEDUCED, unsafe: log 68. -/
def execClkFault (s : State) : Out :=
  effect s fun t =>
    let u := t.setB F.PWR_STATUS_SYSCLK 0 false
    let w := if u.pwr.held.isEmpty then State.settle u (u.deviceFatal E.PWR_CLK_FAULT).closeGates else u
    ((w.resetDevice false).hold .sysclk 2).resetSource F.PWR_RESET_CAUSE_SRST 1

/-- SYSCLK_RETURN.
DEDUCED, unsafe: log 68. -/
def execSysclkReturn (x : StartIn) (s : State) : Out :=
  effect s fun t => (t.setB F.PWR_STATUS_SYSCLK 0 true).unhold .sysclk x

/-- LREF_LOSS of pair d: the deck's head links fail; on pair 0 the ring ports lose lock. -/
def State.lrefLoss (s : State) (d : Nat) : State :=
  let s1 := s.forEach (headsOf d) fun t h => (((t.raise E.PWR_LREF_LOSS 0).headFatal h).linkDown h lkFAILED).headOff h
  s1.onlyIf (d == 0) State.ringLockLoss

/-- LREF_LOSS. -/
def execLrefLoss (d : Fin 8) (s : State) : Out :=
  effect s fun t =>
    if t.bitF F.PWR_STATUS_LREF 0 d then
      let u := t.putF F.PWR_STATUS_LREF 0 d false
      if u.pwr.held.isEmpty then (u.lrefLoss d).advance else u
    else t

/-- LREF_RETURN. -/
def execLrefReturn (d : Fin 8) (s : State) : Out := effect s fun t => t.putF F.PWR_STATUS_LREF 0 d true

/-- PCIE_REF_LOSS: the link leaves DL_Active. -/
def execPcieRefLoss (s : State) : Out :=
  effect s fun t =>
    let u := t.setB F.PWR_STATUS_PCIE_REF 0 false
    if u.pwr.held.isEmpty then u.pcieDown.advance else u

/-- PCIE_REF_RETURN. -/
def execPcieRefReturn (s : State) : Out := effect s fun t => t.setB F.PWR_STATUS_PCIE_REF 0 true

/-! ### Sensors (R419 to R421) -/

/-- A sensor. -/
def State.sensor (s : State) (i : Nat) : SensorS := vget s.cal.sensors {} i

/-- The critical limit in 1/8 degrees C: values above 140 act as 140. -/
def State.critLimit (s : State) : Int := (8 * min 140 (s.getF F.CAL_THERM_CRIT 0) : Nat)

/-- One sample of one sensor, in 1/8 degrees C: VALID, TEMP, PEAK. -/
def State.sampleOne (s : State) (i : Nat) (z : Int) : State :=
  let x := s.sensor i
  let same := if x.last = some z then min 1024 (x.same + 1) else 1
  let ok := decide (-480 ≤ z ∧ z ≤ 1280 ∧ same < 1024)
  let crit := if ok && decide (s.critLimit ≤ z) then min 9 (x.crit + 1) else 0
  let peak := if x.peaked then max (sgn 12 (s.getF F.CAL_TEMP_PEAK i)) z else z
  let fails := !ok && (x.last.isNone || s.isSet F.CAL_TEMP_VALID i)
  let s1 := (s.setF F.CAL_TEMP_TEMP i (unsgn 12 z)).setB F.CAL_TEMP_VALID i ok
  let s2 := if ok then s1.setF F.CAL_TEMP_PEAK i (unsgn 12 peak) else s1
  let y : SensorS := { last := some z, same := same, crit := crit, peaked := x.peaked || ok }
  let s3 : State := { s2 with cal := { s2.cal with sensors := vset s2.cal.sensors i y } }
  s3.onlyIf fails fun t => t.raise E.CAL_SENSOR_FAIL 0

/-- The sensors that are valid. -/
def State.validSensors (s : State) : List Nat := (List.range 16).filter fun i => s.isSet F.CAL_TEMP_VALID i

/-- THERM_WARN (R420). -/
def State.thermWarn (s : State) : State :=
  let w := s.getF F.CAL_THERM_WARN 0
  if s.cal.warned then
    if s.validSensors.all fun i => decide (s.temp i < (8 * w : Nat) - 40) then { s with cal := { s.cal with warned := false } } else s
  else if s.validSensors.any fun i => decide ((8 * w : Nat) ≤ s.temp i) then
    ({ s with cal := { s.cal with warned := true } }).raise E.CAL_THERM_WARN 0
  else s

/-- Regions whose temperature has moved by more than DTEMP become pending (R421). -/
def State.tempPend (s : State) : State :=
  s.forEach (s.validSensors.filter fun i =>
    decide (8 * s.getF F.CAL_CTL_DTEMP 0 < (s.temp i - sgn 12 (s.getF F.CAL_RUN_LAST_TEMP i)).natAbs)) fun t i => t.calPend i

/-- The thermal trip acts as SRSTn. -/
def State.thermTrip (s : State) : State :=
  ((s.resetDevice false).hold .trip 2).resetSource F.PWR_RESET_CAUSE_THERM_TRIP 8

/-- The sensors are sampled. -/
def State.sample (s : State) (temps : List Int) : State :=
  let s1 := s.forEach (List.range 16) fun t i => t.sampleOne i (temps.getD i 0)
  if s1.validSensors.any fun i => decide (1200 ≤ s1.temp i) then s1.thermTrip
  else
    let s2 := s1.thermWarn.tempPend
    if s2.validSensors.any fun i => (s2.sensor i).crit == 8 then s2.deviceFatal E.CAL_THERM_CRIT else s2

/-- SENSOR_SAMPLE: the sixteen readings in 1/8 degrees C. A thermal trip ends when every reading is below 130 degrees C; `x` is
what the device then finds at its start. -/
def execSensorSample (temps : List Int) (x : StartIn) (s : State) : Out :=
  effect s fun t =>
    if t.pwr.held.contains .trip then
      if (List.range 16).all fun i => decide (temps.getD i 0 < 1040) then t.unhold .trip x else t
    else if t.pwr.held.isEmpty then (t.sample temps).advance
    else t

end Sys2Proof.Machine
end

