-- ==== Sys2Proof/Machine/WrpCmds.lean ====
section
/-!
DEFINITION. The meanings of the write path rows (11): linger, the head write cycle (R256), write-power calibration (R270, R271),
RESOLVE and the recovery of a write pointer (R272).
-/
namespace Sys2Proof.Machine

/-! ### Linger (R251) -/

/-- The open lode's linger has expired: it is sealed. -/
def State.lingerExpiry (s : State) (v n : Nat) : State :=
  match (s.seam v n).openLode with
  | some o => if o.linger ≤ s.tick then s.sealLode v n else s
  | none => s

/-- LINGER_EXPIRY. -/
def execLingerExpiry (v : Fin 8) (n : Fin 64) (s : State) : Out := done s fun t => t.lingerExpiry v n

/-! ### Moving the write operation -/

/-- Set the write cycle state (R274). -/
def State.setWcy (s : State) (h x : Nat) : State := s.setF F.WRP_HEAD_STATE h x

/-- The layer track of a band position of a seam. -/
def posTrack (n p : Nat) : Nat := bandTrack (seamBand n) (4 * p)

/-- The write operation goes to a track. -/
def State.retrack (s : State) (h track : Nat) : State :=
  match (s.head h).op with
  | none => s
  | some o => (s.setHead h { s.head h with op := some { o with track := track } }).continueOp h

/-- The write cycle goes to a band position of its seam. -/
def State.writeAt (s : State) (h p : Nat) : State :=
  ((s.updWrite h fun w => { w with bandPos := p }).setWcy h wsPREP).retrack h (posTrack (s.head h).write.seam p)

/-- The write cycle has nothing left: IDLE, and the operation ends. -/
def State.writeIdle (s : State) (h : Nat) : State :=
  (((s.updWrite h fun w => { w with finish := false, left := none }).setWcy h wsIDLE).finishOp h).parkHome h

/-- A head that is not in FOLLOW goes there. -/
def State.toFollow (s : State) (h : Nat) : State :=
  if s.clr h == hdVERIFY || s.clr h == hdWRITE then s.setClr h hdFOLLOW else s

/-- Begin a revolution in VERIFY. -/
def State.beginVerify (s : State) (h : Nat) : State :=
  (s.updWrite h fun w => { w with turned := 0, any := false, refused := [], edge := false }).setClr h hdVERIFY

/-- Begin a revolution in WRITE: the head goes there at the next pillar leading edge (R256). -/
def State.beginWrite (s : State) (h : Nat) : State :=
  s.updWrite h fun w => { w with turned := 0, any := false, refused := [], edge := true }

/-- Angle of one revolution, counts x 2^-16. -/
def oneRev : Nat := 65536 * 65536

/-- The head has a write operation, queued or in progress. -/
def State.hasWrite (s : State) (h : Nat) : Bool :=
  ((s.head h).ops.any fun o => o.kind = .write) || (s.head h).op.any fun o => o.kind = .write

/-! ### Issue (R256) -/

/-- Issue the write operation for a band position of a seam. -/
def State.issueWrite (s : State) (h n p : Nat) : State :=
  let o : MediaOp := {
    kind := .write, vol := deckOfHead h, seam := n, layer := seamLayer n, track := posTrack n p, pos := s.hqi.nextPos }
  ((s.updWrite h fun w => { w with seam := n, bandPos := p }).setWcy h wsPREP).issue h o

/-- The seam whose lodes the head takes: its first served seam with lodes queued, whose band may be served now.
DESIGN CHOICE, unsafe: log 117. -/
def State.takeSeam (s : State) (h : Nat) : Option Nat :=
  (s.headSeams h).find? fun n =>
    s.routable (homeHead (deckOfHead h) n) && !(s.queuedLodes (deckOfHead h) n false).isEmpty

/-- From IDLE: the first position of a queued seam. -/
def State.issueFresh (s : State) (h : Nat) : State :=
  match s.takeSeam h with
  | none => s
  | some n =>
    match s.firstPos (deckOfHead h) n false with
    | none => s
    | some p => s.issueWrite h n p

/-- From PREP without an operation: the position goes on, or the first one left, or the cycle is idle. -/
def State.issueAgain (s : State) (h : Nat) : State :=
  let v := deckOfHead h
  let w := (s.head h).write
  if !(s.headSeams h).contains w.seam then s.writeIdle h
  else if s.posUnverified v w.seam w.bandPos then s.issueWrite h w.seam w.bandPos
  else
    match s.firstPos v w.seam w.finish with
    | some p => s.issueWrite h w.seam p
    | none => s.writeIdle h

/-- A queued lode finds its head at an idle point; a head that is to take over its partner's band is issued nothing (R15).
DEDUCED, unsafe: log 33. -/
def State.writeIssue (s : State) (h : Nat) : State :=
  if !s.idlePoint h || s.hasWrite h || s.frozen || (s.head h).write.halted || !s.isSet F.WRP_CTL_EN 0 then s
  else if s.wcy h = wsIDLE then s.issueFresh h
  else if s.wcy h = wsPREP then (if s.taking (partner h) then s else s.issueAgain h)
  else s

/-- WRITE_OPERATION_ISSUE. -/
def execWriteOperationIssue (h : Fin 32) (s : State) : Out := doneQ s fun t => t.writeIssue h

/-! ### PREP (R255 to R257, R270, R271) -/

/-- The number of calibration steps. -/
def State.calSteps (s : State) : Nat := s.getF F.WRP_CAL_CTL_STEPS 0

/-- Put a calibration phase in force. -/
def State.setCal (s : State) (h : Nat) (c : Option CalPhase) : State :=
  s.updWrite h fun w => { w with cal := c, calRecs := [], turned := 0, any := false, refused := [] }

/-- Begin a calibration: to the free slots known, or to the search for some.
DEDUCED, unsafe: log 36. -/
def State.startCal (s : State) (h : Nat) : State :=
  let l := s.getF F.CLR_POS_LAYER h
  let s1 := s.setWcy h wsCAL
  match (s.head h).write.calFree.find? fun f => f.1 = l with
  | some (_, p, a, b) =>
    if a + s.calSteps ≤ b then (s1.setCal h (some (.write p a))).retrack h (posTrack 0 p)
    else (s1.setCal h (some .search)).retrack h (posTrack 0 0)
  | none => (s1.setCal h (some .search)).retrack h (posTrack 0 0)

/-- The power table entry of the head's layer and zone is loaded for the revolution (R255). -/
def State.loadPower (s : State) (h : Nat) : State :=
  let r := s.readEntryFree R.WRP_POWER (384 * h + 24 * s.getF F.CLR_POS_LAYER h + s.zoneOf h)
  let w := r.2
  r.1.updWrite h fun x => { x with
    power := (bitsOf w 63 63 = 1, bitsOf w 62 56, bitsOf w 55 46, bitsOf w 45 36, bitsOf w 35 26) }

/-- A new run begins with the write revolution (R256). -/
def State.newRun (s : State) (h : Nat) : State :=
  s.updSeam (deckOfHead h) (s.head h).write.seam fun x => { x with lodes := x.lodes.map fun l => { l with inRun := false } }

/-- The head is at position in PREP: verify, calibrate, or a write revolution. -/
def State.prep (s : State) (h : Nat) : State :=
  let v := deckOfHead h
  let w := (s.head h).write
  if s.posUnverified v w.seam w.bandPos then (s.setWcy h wsVREV).beginVerify h
  else if s.calRequired h then s.startCal h
  else if (s.posSlots v w.seam w.bandPos w.finish).isEmpty then
    match s.firstPos v w.seam w.finish with
    | some p => s.writeAt h p
    | none => s.writeIdle h
  else (((s.newRun h).loadPower h).setWcy h wsWREV).beginWrite h

/-- What PREP, or a calibration that has reached its free slots, does at position. -/
def State.prepAct (s : State) (h : Nat) : State :=
  if !s.writePlaced h then s
  else if s.wcy h = wsPREP then s.prep h
  else if s.wcy h = wsCAL then
    match (s.head h).write.cal with
    | some (.write _ _) => if (s.head h).write.edge then s else s.beginWrite h
    | _ => s
  else s

/-- PREP_AT_POSITION. -/
def execPrepAtPosition (h : Fin 32) (s : State) : Out := doneQ s fun t => t.prepAct h

/-! ### Calibration (R271) -/

/-- Slot j of the position read is unrecorded: all four beams found it blank. -/
def calFreeSlot (recs : List CalRec) (j : Nat) : Bool :=
  (List.range 4).all fun b => recs.any fun r => r.slot == j && r.beam == b && r.blank

/-- The lowest run of `steps` unrecorded slots among d slots, and the slot after the unrecorded ones.
DEDUCED, unsafe: log 35. -/
def calRun (recs : List CalRec) (steps d : Nat) : Option (Nat × Nat) :=
  ((List.range (d + 1 - steps)).find? fun a => (List.range steps).all fun k => calFreeSlot recs (a + k)).map fun a =>
    (a, a + (((List.range (d - a)).map fun k => calFreeSlot recs (a + k)).takeWhile id).length)

/-- Both heads of a side keep where a layer's free slots are.
DEDUCED, unsafe: log 36. -/
def State.keepFree (s : State) (h l p a b : Nat) : State :=
  s.forEach [h, partner h] fun t k =>
    t.updWrite k fun w => { w with calFree := (l, p, a, b) :: w.calFree.filter fun f => f.1 ≠ l }

/-- The calibration is over: back to the position being written. -/
def State.endCal (s : State) (h : Nat) : State :=
  let w := (s.head h).write
  (((s.setCal h none).toFollow h).setWcy h wsPREP).retrack h (posTrack w.seam w.bandPos)

/-- No position has STEPS free slots: reported once for each layer and side, and writing goes on. -/
def State.calExhausted (s : State) (h l : Nat) : State :=
  let s1 := s.forEach [h, partner h] fun t k => t.updWrite k fun w => { w with calFull := l :: w.calFull.filter (· ≠ l) }
  (s1.raise E.WRP_CAL_EXHAUSTED 0).endCal h

/-- A position has been read: its free slots, the next position, or exhaustion.
DEDUCED, unsafe: log 35. -/
def State.calSearch (s : State) (h : Nat) : State :=
  let w := (s.head h).write
  let d := zoneD 0
  let p := trackPos (s.getF F.CLR_POS_TRACK h)
  let l := s.getF F.CLR_POS_LAYER h
  let recs := w.calRecs.filter fun r => r.pos = p
  let whole := (List.range d).all fun j => (List.range 4).all fun b => recs.any fun r => r.slot == j && r.beam == b
  if !s.calReading h || !(whole || decide (2 * oneRev ≤ w.turned)) then s
  else
    match calRun recs s.calSteps d with
    | some (a, b) => (s.keepFree h l p a b).setCal h (some (.write p a))
    | none => if p + 1 ≤ 15 then (s.setCal h (some .search)).retrack h (posTrack 0 (p + 1)) else s.calExhausted h l

/-- The sum of the quality of the four drifts of slot j. -/
def calQuality (recs : List CalRec) (j : Nat) : Nat :=
  ((List.range 4).map fun b => match recs.find? fun r => r.slot == j && r.beam == b with
    | some r => r.quality
    | none => 0xFFFF).sum

/-- The step of lowest quality, the lower on a tie. -/
def calBest (recs : List CalRec) (steps a : Nat) : Nat :=
  (List.range steps).foldl (fun best j => if calQuality recs (a + j) < calQuality recs (a + best) then j else best) 0

/-- A code multiplied by num / den, rounded and saturated at 1,023. -/
def scaleCode (z num den : Nat) : Nat := if den = 0 then z else min 1023 (divRnd ((z * num : Nat) : Int) den).toNat

/-- Scale the 24 entries of head h and layer l by peak / peak0 and make them valid. -/
def State.scalePower (s : State) (h l peak peak0 : Nat) : State :=
  s.forEach (List.range 24) fun t z =>
    let i := 384 * h + 24 * l + z
    let r := t.readEntryFree R.WRP_POWER i
    let w := r.2
    r.1.putEntry R.WRP_POWER i (2 ^ 63 + bitsOf w 62 56 * 2 ^ 56 + scaleCode (bitsOf w 55 46) peak peak0 * 2 ^ 46 +
      scaleCode (bitsOf w 45 36) peak peak0 * 2 ^ 36 + scaleCode (bitsOf w 35 26) peak peak0 * 2 ^ 26)

/-- The result of a calibration whose steps began at slot a of position p. -/
def State.calResult (s : State) (h p a : Nat) : State :=
  let w := (s.head h).write
  let l := s.getF F.CLR_POS_LAYER h
  let n := s.calSteps
  let best := calBest w.calRecs n a
  let peak0 := s.getF F.WRP_POWER_PEAK (384 * h + 24 * l)
  let good := decide (0 < best) && decide (best < n - 1) &&
    decide (calQuality w.calRecs (a + best) ≤ 4 * s.getF F.WRP_VFY_CTL2_VFY_MSE 0)
  let s1 :=
    if good then (s.scalePower h l (calPower n (s.getF F.WRP_CAL_CTL_STEP 0) best (peak0, 0, 0)).1 peak0).raise E.WRP_CAL_DONE 0
    else s.raise E.WRP_CAL_FAIL 0
  let s2 := (s1.count F.WRP_SKIPS_CAL_RUNS 0).updWrite h fun x =>
    { x with calTemp := (l, (s.link h).temp) :: x.calTemp.filter fun q => q.1 ≠ l }
  let s3 := match w.calFree.find? fun f => f.1 = l with
    | some (_, _, _, b) => s2.keepFree h l p (a + n) b
    | none => s2
  s3.endCal h

/-- A phase of a calibration ends: the read of a position, the write revolution, the verify revolution. -/
def State.calEnd (s : State) (h : Nat) : State :=
  let w := (s.head h).write
  if s.wcy h ≠ wsCAL then s
  else
    match w.cal with
    | some .search => s.calSearch h
    | some (.write p a) =>
      if s.clr h == hdWRITE && decide (oneRev ≤ w.turned) && w.recording.isNone then
        (s.setCal h (some (.verify p a))).beginVerify h
      else s
    | some (.verify p a) =>
      let all := (List.range s.calSteps).all fun j => (List.range 4).all fun b =>
        w.calRecs.any fun r => r.slot == a + j && r.beam == b
      if s.clr h == hdVERIFY && (all || decide (2 * oneRev ≤ w.turned)) then s.calResult h p a else s
    | none => s

/-- CALIBRATION_REVS_END. -/
def execCalibrationRevsEnd (h : Fin 32) (s : State) : Out := doneQ s fun t => t.calEnd h

/-! ### The ends of revolutions (R256) -/

/-- 256 pillar periods of a write revolution have passed. -/
def State.writeRevEnd (s : State) (h : Nat) : State :=
  let w := (s.head h).write
  if s.wcy h ≠ wsWREV || s.clr h != hdWRITE || decide (w.turned < oneRev) || w.recording.isSome then s
  else if w.any then (s.setWcy h wsVREV).beginVerify h
  else (s.setWcy h wsPREP).toFollow h

/-- WRITE_REVOLUTION_END. -/
def execWriteRevolutionEnd (h : Fin 32) (s : State) : Out := doneQ s fun t => t.writeRevEnd h

/-- Slot m of a lode has been framed by all beams in its verify slot's read. -/
def State.slotFramed (s : State) (l : SealedLode) (m : Nat) : Bool :=
  match l.slot with
  | none => false
  | some y => (List.range 4).all fun b => (s.slot y).got.any fun g => g.record.drift == 4 * m + b

/-- The slots of a band position that wait for verify. -/
def SealedLode.unverifiedAt (l : SealedLode) (n p : Nat) : List Nat := l.unverified.filter fun m => (lodeSlotAt n l.x m).1 = p

/-- Every slot that waits for verify at the position has been framed. -/
def State.allFramed (s : State) (v n p : Nat) : Bool :=
  (s.seam v n).lodes.all fun l => (l.unverifiedAt n p).all fun m => s.slotFramed l m

/-- The slots of the position are verified; complete lodes have their lode end (R227). -/
def State.verified (s : State) (v n p : Nat) : State :=
  let s1 := s.updSeam v n fun x => { x with
    lodes := x.lodes.map fun l => { l with unverified := l.unverified.filter fun m => (lodeSlotAt n l.x m).1 ≠ p } }
  s1.forEach (s1.seam v n).lodes fun t l =>
    match l.slot with
    | some y => if l.complete && l.unverified.isEmpty then t.lodeEnd y else t
    | none => t

/-- A verify revolution ends. -/
def State.verifyRevEnd (s : State) (h : Nat) : State :=
  let v := deckOfHead h
  let w := (s.head h).write
  if s.wcy h ≠ wsVREV || s.clr h != hdVERIFY then s
  else if s.allFramed v w.seam w.bandPos || decide (2 * oneRev ≤ w.turned) then
    ((s.verified v w.seam w.bandPos).setWcy h wsRESOLVE).toFollow h
  else s

/-- VERIFY_REVOLUTION_END. -/
def execVerifyRevolutionEnd (h : Fin 32) (s : State) : Out := doneQ s fun t => t.verifyRevEnd h

/-! ### RESOLVE (R256, R263 to R269) -/

/-- The verify outcomes of the run's complete lodes are there. -/
def State.outcomesIn (s : State) (v n : Nat) : Bool :=
  (s.seam v n).lodes.all fun l => !(l.inRun && l.complete && !l.cut) ||
    (match l.slot with | some y => (s.slot y).outcome.isSome | none => false)

/-- The run may be resolved now: by how the head left WRITE or VERIFY, if it did. -/
def State.mayResolve (s : State) (h : Nat) : Bool :=
  let w := (s.head h).write
  s.wcy h == wsRESOLVE && !s.frozen &&
  (match w.left with
   | none => s.outcomesIn (deckOfHead h) w.seam
   | some true => s.idlePoint h
   | some false => true)

/-- The cycle after acceptance and sparing. -/
def State.resolved (s : State) (h : Nat) (left : Option Bool) : State :=
  let w := (s.head h).write
  let s1 := s.updWrite h fun x => { x with left := none }
  match left with
  | some true => s1.setWcy h wsPREP
  | some false => (s1.updWrite h fun x => { x with finish := false }).setWcy h wsIDLE
  | none =>
    match s.firstPos (deckOfHead h) w.seam w.finish with
    | some p => s1.writeAt h p
    | none => s1.writeIdle h

/-- RESOLVE of a run. -/
def State.resolve (s : State) (h : Nat) : State :=
  let w := (s.head h).write
  if s.mayResolve h then (s.resolveSeam (deckOfHead h) w.seam w.left).resolved h w.left else s

/-- RESOLVE. -/
def execResolve (h : Fin 32) (s : State) : Out := doneQ s fun t => t.resolve h

/-! ### Recovery (R272) -/

/-- The write pointer is established: KNOWN, and the snapshot or trailer that is due. -/
def State.wpRecovered (s : State) (v n : Nat) : State :=
  if (s.seam v n).recov ≠ some .ended then s
  else
    let i := seamIdx v n
    let s1 := ((s.setB F.WRP_SEAM_KNOWN i true).raise E.WRP_WP_RECOVERED 0).updSeam v n fun x => { x with recov := none, best := none }
    if s1.trailerDue v n then s1.catalogueDue v n
    else if (s1.seam v n).dirty && !s1.isSet F.WRP_SEAM_SEALED i then s1.snapshot v n false
    else s1

/-- WP_RECOVERED. -/
def execWpRecovered (v : Fin 8) (n : Fin 64) (s : State) : Out := doneQ s fun t => t.wpRecovered v n

end Sys2Proof.Machine
end

