-- ==== Sys2Proof/Machine/Dispatch.lean ====
section
/-!
DEFINITION. The dispatch of commands: one arm per constructor, each a direct call of its meaning.
-/
namespace Sys2Proof.Machine

/-- What a command does to everything but the queue. -/
def exec (i : Instr) (s : State) : Host.Outcome State Fault Refusal :=
  match i with
  | .servoTick shorts cycles => Sys2Proof.Machine.execServoTick shorts cycles s
  | .motorTick samples => Sys2Proof.Machine.execMotorTick samples s
  | .ringFrameTick slot => Sys2Proof.Machine.execRingFrameTick slot s
  | .tckCtlWrite w => Sys2Proof.Machine.execTckCtlWrite w s
  | .tckAsyDeadlineWrite w => Sys2Proof.Machine.execTckAsyDeadlineWrite w s
  | .collierOverrun h cycles => Sys2Proof.Machine.execCollierOverrun h cycles s
  | .lrnSkip h => Sys2Proof.Machine.execLrnSkip h s
  | .obsLate d => Sys2Proof.Machine.execObsLate d s
  | .wndOvr d => Sys2Proof.Machine.execWndOvr d s
  | .sldOvr h => Sys2Proof.Machine.execSldOvr h s
  | .asyMiss y => Sys2Proof.Machine.execAsyMiss y s
  | .takeoverPartnerFree h => Sys2Proof.Machine.execTakeoverPartnerFree h s
  | .seekReissue h => Sys2Proof.Machine.execSeekReissue h s
  | .takeoverRequest h => Sys2Proof.Machine.execTakeoverRequest h s
  | .handbackRequest h => Sys2Proof.Machine.execHandbackRequest h s
  | .handbackDone h => Sys2Proof.Machine.execHandbackDone h s
  | .linkWordPush h lane hdr payload rtt => Sys2Proof.Machine.execLinkWordPush h lane hdr payload rtt s
  | .fifoPop h f flips => Sys2Proof.Machine.execFifoPop h f flips s
  | .fifoOverflow h f => Sys2Proof.Machine.execFifoOverflow h f s
  | .fifoFlush h w => Sys2Proof.Machine.execFifoFlush h w s
  | .echoReceived h seq rtt => Sys2Proof.Machine.execEchoReceived h seq rtt s
  | .alignMarker h lanes => Sys2Proof.Machine.execAlignMarker h lanes s
  | .rotate h => Sys2Proof.Machine.execRotate h s
  | .laneRestoreSoak h lane => Sys2Proof.Machine.execLaneRestoreSoak h lane s
  | .laneFail h lane cause => Sys2Proof.Machine.execLaneFail h lane cause s
  | .linkEnable h => Sys2Proof.Machine.execLinkEnable h s
  | .linkDisable h => Sys2Proof.Machine.execLinkDisable h s
  | .trainDone h => Sys2Proof.Machine.execTrainDone h s
  | .trainFail h => Sys2Proof.Machine.execTrainFail h s
  | .prbsCtlWrite l w => Sys2Proof.Machine.execPrbsCtlWrite l w s
  | .farLoopbackD0 h lane => Sys2Proof.Machine.execFarLoopbackD0 h lane s
  | .farLoopbackD1 h lane => Sys2Proof.Machine.execFarLoopbackD1 h lane s
  | .farLoopbackEnd h lane => Sys2Proof.Machine.execFarLoopbackEnd h lane s
  | .hfeGeneratorStart h lane pat => Sys2Proof.Machine.execHfeGeneratorStart h lane pat s
  | .hfeGeneratorStop h lane => Sys2Proof.Machine.execHfeGeneratorStop h lane s
  | .cmdTimeout h => Sys2Proof.Machine.execCmdTimeout h s
  | .eyeScanStart l dwell vofs hofs => Sys2Proof.Machine.execEyeScanStart l dwell vofs hofs s
  | .eyeScanDone l errors => Sys2Proof.Machine.execEyeScanDone l errors s
  | .tickLeadWrite h w => Sys2Proof.Machine.execTickLeadWrite h w s
  | .coefCommit h zero => Sys2Proof.Machine.execCoefCommit h zero s
  | .coefCopy h => Sys2Proof.Machine.execCoefCopy h s
  | .rpEvaluation h => Sys2Proof.Machine.execRpEvaluation h s
  | .mediaOperationTake h => Sys2Proof.Machine.execMediaOperationTake h s
  | .acqFail h => Sys2Proof.Machine.execAcqFail h s
  | .jumpBrake h => Sys2Proof.Machine.execJumpBrake h s
  | .jumpSettle h => Sys2Proof.Machine.execJumpSettle h s
  | .seekFail h => Sys2Proof.Machine.execSeekFail h s
  | .sledArrived h => Sys2Proof.Machine.execSledArrived h s
  | .seekComplete h => Sys2Proof.Machine.execSeekComplete h s
  | .layerHopKick h => Sys2Proof.Machine.execLayerHopKick h s
  | .layerHopDone h => Sys2Proof.Machine.execLayerHopDone h s
  | .layerFail h => Sys2Proof.Machine.execLayerFail h s
  | .angleLossPark h => Sys2Proof.Machine.execAngleLossPark h s
  | .fixTimeout h => Sys2Proof.Machine.execFixTimeout h s
  | .holdExit h => Sys2Proof.Machine.execHoldExit h s
  | .holdTimeout h => Sys2Proof.Machine.execHoldTimeout h s
  | .headFaultReset h => Sys2Proof.Machine.execHeadFaultReset h s
  | .collierEnable h => Sys2Proof.Machine.execCollierEnable h s
  | .collierDisable h => Sys2Proof.Machine.execCollierDisable h s
  | .seedDone h i1 => Sys2Proof.Machine.execSeedDone h i1 s
  | .seedRequest h loops => Sys2Proof.Machine.execSeedRequest h loops s
  | .tableClear h loops => Sys2Proof.Machine.execTableClear h loops s
  | .sledTargetWrite h w => Sys2Proof.Machine.execSledTargetWrite h w s
  | .groupGo w => Sys2Proof.Machine.execGroupGo w s
  | .sledStop h => Sys2Proof.Machine.execSledStop h s
  | .sledPark h => Sys2Proof.Machine.execSledPark h s
  | .sledHome h => Sys2Proof.Machine.execSledHome h s
  | .sledEnable h => Sys2Proof.Machine.execSledEnable h s
  | .sledDisable h => Sys2Proof.Machine.execSledDisable h s
  | .limitDebounced h => Sys2Proof.Machine.execLimitDebounced h s
  | .homeFail h => Sys2Proof.Machine.execHomeFail h s
  | .deckLoad d => Sys2Proof.Machine.execDeckLoad d s
  | .deckStart d => Sys2Proof.Machine.execDeckStart d s
  | .deckStop d => Sys2Proof.Machine.execDeckStop d s
  | .deckUnload d => Sys2Proof.Machine.execDeckUnload d s
  | .deckFaultReset d drvHigh => Sys2Proof.Machine.execDeckFaultReset d drvHigh s
  | .speedTargetWrite d target => Sys2Proof.Machine.execSpeedTargetWrite d target s
  | .overcurrent d => Sys2Proof.Machine.execOvercurrent d s
  | .drvFault d => Sys2Proof.Machine.execDrvFault d s
  | .gateHoldEnd d drvHigh clear => Sys2Proof.Machine.execGateHoldEnd d drvHigh clear s
  | .pillarReport d => Sys2Proof.Machine.execPillarReport d s
  | .spinMeasureEnd d => Sys2Proof.Machine.execSpinMeasureEnd d s
  | .alignEnd d => Sys2Proof.Machine.execAlignEnd d s
  | .handoverTimeout d => Sys2Proof.Machine.execHandoverTimeout d s
  | .spinFail d => Sys2Proof.Machine.execSpinFail d s
  | .shortHoldEnd d => Sys2Proof.Machine.execShortHoldEnd d s
  | .stopped d => Sys2Proof.Machine.execStopped d s
  | .channelEnable c => Sys2Proof.Machine.execChannelEnable c s
  | .channelDisable c => Sys2Proof.Machine.execChannelDisable c s
  | .channelLock c => Sys2Proof.Machine.execChannelLock c s
  | .lockTimeout c => Sys2Proof.Machine.execLockTimeout c s
  | .pillarDetect h k => Sys2Proof.Machine.execPillarDetect h k s
  | .zoneReload c => Sys2Proof.Machine.execZoneReload c s
  | .driftSlot c slot => Sys2Proof.Machine.execDriftSlot c slot s
  | .defect c => Sys2Proof.Machine.execDefect c s
  | .driftDelivered c => Sys2Proof.Machine.execDriftDelivered c s
  | .innerDecodeDone c => Sys2Proof.Machine.execInnerDecodeDone c s
  | .lodeEnd y passed => Sys2Proof.Machine.execLodeEnd y passed s
  | .jobStart a => Sys2Proof.Machine.execJobStart a s
  | .jobDone a buf entry out => Sys2Proof.Machine.execJobDone a buf entry out s
  | .entryLink c => Sys2Proof.Machine.execEntryLink c s
  | .prcFlush heads => Sys2Proof.Machine.execPrcFlush heads s
  | .lingerExpiry v n => Sys2Proof.Machine.execLingerExpiry v n s
  | .writeOperationIssue h => Sys2Proof.Machine.execWriteOperationIssue h s
  | .prepAtPosition h => Sys2Proof.Machine.execPrepAtPosition h s
  | .calibrationRevsEnd h => Sys2Proof.Machine.execCalibrationRevsEnd h s
  | .writeRevolutionEnd h => Sys2Proof.Machine.execWriteRevolutionEnd h s
  | .verifyRevolutionEnd h => Sys2Proof.Machine.execVerifyRevolutionEnd h s
  | .resolve h => Sys2Proof.Machine.execResolve h s
  | .wpRecovered v n => Sys2Proof.Machine.execWpRecovered v n s
  | .verifyOnlyLoadDone x => Sys2Proof.Machine.execVerifyOnlyLoadDone x s
  | .flrComplete fn => Sys2Proof.Machine.execFlrComplete fn s
  | .configRequest fn r => Sys2Proof.Machine.execConfigRequest fn r s
  | .linkUp speed width => Sys2Proof.Machine.execLinkUp speed width s
  | .completionReceived tag bytes st => Sys2Proof.Machine.execCompletionReceived tag bytes st s
  | .cplTimeout tag => Sys2Proof.Machine.execCplTimeout tag s
  | .peerRead off len x => Sys2Proof.Machine.execPeerRead off len x s
  | .peerWrite off bytes x => Sys2Proof.Machine.execPeerWrite off bytes x s
  | .windowCommit mask => Sys2Proof.Machine.execWindowCommit mask s
  | .msixVectorUnmask fn v => Sys2Proof.Machine.execMsixVectorUnmask fn v s
  | .badRegisterAccess fn read => Sys2Proof.Machine.execBadRegisterAccess fn read s
  | .queuePairEnable q => Sys2Proof.Machine.execQueuePairEnable q s
  | .queuePairDisable q => Sys2Proof.Machine.execQueuePairDisable q s
  | .sqTailDoorbell q w => Sys2Proof.Machine.execSqTailDoorbell q w s
  | .cqHeadDoorbell q w => Sys2Proof.Machine.execCqHeadDoorbell q w s
  | .completionPost q => Sys2Proof.Machine.execCompletionPost q s
  | .coalTimeExpiry q => Sys2Proof.Machine.execCoalTimeExpiry q s
  | .selfTestDone v => Sys2Proof.Machine.execSelfTestDone v s
  | .configPiece sigOk => Sys2Proof.Machine.execConfigPiece sigOk s
  | .volumeMountProceed v => Sys2Proof.Machine.execVolumeMountProceed v s
  | .scrubDone last => Sys2Proof.Machine.execScrubDone last s
  | .scrubLap ms => Sys2Proof.Machine.execScrubLap ms s
  | .bucketLeak x => Sys2Proof.Machine.execBucketLeak x s
  | .bucketReset x w => Sys2Proof.Machine.execBucketReset x w s
  | .tableLowWrite a w => Sys2Proof.Machine.execTableLowWrite a w s
  | .tableHighWrite a w => Sys2Proof.Machine.execTableHighWrite a w s
  | .tableLowRead a => Sys2Proof.Machine.execTableLowRead a s
  | .wayPowerDown w x => Sys2Proof.Machine.execWayPowerDown w x s
  | .wayPowerUp w => Sys2Proof.Machine.execWayPowerUp w s
  | .wayOff w x => Sys2Proof.Machine.execWayOff w x s
  | .lcaClean place force x => Sys2Proof.Machine.execLcaClean place force x s
  | .lcaInvalidate place force x => Sys2Proof.Machine.execLcaInvalidate place force x s
  | .lcaCleanInvalidate place force x => Sys2Proof.Machine.execLcaCleanInvalidate place force x s
  | .lcaPreload w x => Sys2Proof.Machine.execLcaPreload w x s
  | .svnCommit confirm => Sys2Proof.Machine.execSvnCommit confirm s
  | .keyRevoke confirm slot => Sys2Proof.Machine.execKeyRevoke confirm slot s
  | .fuseProgramDone bad => Sys2Proof.Machine.execFuseProgramDone bad s
  | .imageLoadDone x => Sys2Proof.Machine.execImageLoadDone x s
  | .bootRecordSign logOk => Sys2Proof.Machine.execBootRecordSign logOk s
  | .pieceProgrammed ok => Sys2Proof.Machine.execPieceProgrammed ok s
  | .stageVerifyDone im => Sys2Proof.Machine.execStageVerifyDone im s
  | .stageCopyDone im => Sys2Proof.Machine.execStageCopyDone im s
  | .armPrepared im => Sys2Proof.Machine.execArmPrepared im s
  | .shiftCommitReceived e f => Sys2Proof.Machine.execShiftCommitReceived e f s
  | .shiftTablesCopied logOk => Sys2Proof.Machine.execShiftTablesCopied logOk s
  | .frameStartReceived x => Sys2Proof.Machine.execFrameStartReceived x s
  | .claimReceived serial time => Sys2Proof.Machine.execClaimReceived serial time s
  | .frameReturned lap path err status => Sys2Proof.Machine.execFrameReturned lap path err status s
  | .shiftAbortReceived e => Sys2Proof.Machine.execShiftAbortReceived e s
  | .pieceMessage m sigOk => Sys2Proof.Machine.execPieceMessage m sigOk s
  | .mgmtMessage m => Sys2Proof.Machine.execMgmtMessage m s
  | .unitResetMessage m x => Sys2Proof.Machine.execUnitResetMessage m x s
  | .shiftReqMessage m => Sys2Proof.Machine.execShiftReqMessage m s
  | .excludeMessage m => Sys2Proof.Machine.execExcludeMessage m s
  | .msgSend w => Sys2Proof.Machine.execMsgSend w s
  | .msgReturned m sigOk => Sys2Proof.Machine.execMsgReturned m sigOk s
  | .shiftRequest w => Sys2Proof.Machine.execShiftRequest w s
  | .excludeRequest w => Sys2Proof.Machine.execExcludeRequest w s
  | .pornDeassert x => Sys2Proof.Machine.execPornDeassert x s
  | .srstnDeassert x => Sys2Proof.Machine.execSrstnDeassert x s
  | .railFault rail => Sys2Proof.Machine.execRailFault rail s
  | .sysclkReturn x => Sys2Proof.Machine.execSysclkReturn x s
  | .lrefLoss d => Sys2Proof.Machine.execLrefLoss d s
  | .sensorSample temps x => Sys2Proof.Machine.execSensorSample temps x s
  | .calUnit i1 u x => Sys2Proof.Machine.execCalUnit i1 u x s
  | .evtClear a w => Sys2Proof.Machine.execEvtClear a w s
  | .evtMaskWrite a w => Sys2Proof.Machine.execEvtMaskWrite a w s
  | .evtForceWrite a w => Sys2Proof.Machine.execEvtForceWrite a w s
  | .rcRead sp a => Sys2Proof.Machine.execRcRead sp a s
  | .registerWrite sp a w x drvHigh => Sys2Proof.Machine.execRegisterWrite sp a w x drvHigh s
  | .lrefReturn d => Sys2Proof.Machine.execLrefReturn d s
  | .railReturn rail => Sys2Proof.Machine.execRailReturn rail s
  | .wayOn w => Sys2Proof.Machine.execWayOn w s
  | .profileTick => Sys2Proof.Machine.execProfileTick s
  | .speedTick => Sys2Proof.Machine.execSpeedTick s
  | .holdover => Sys2Proof.Machine.execHoldover s
  | .tckCountRead => Sys2Proof.Machine.execTckCountRead s
  | .slotReserve => Sys2Proof.Machine.execSlotReserve s
  | .prcDisable => Sys2Proof.Machine.execPrcDisable s
  | .perstAssert => Sys2Proof.Machine.execPerstAssert s
  | .perstDeassert => Sys2Proof.Machine.execPerstDeassert s
  | .hotReset => Sys2Proof.Machine.execHotReset s
  | .flrPf0 => Sys2Proof.Machine.execFlrPf0 s
  | .flrPf1 => Sys2Proof.Machine.execFlrPf1 s
  | .linkDown => Sys2Proof.Machine.execLinkDown s
  | .decodeBoundary => Sys2Proof.Machine.execDecodeBoundary s
  | .containmentForce => Sys2Proof.Machine.execContainmentForce s
  | .containmentFrozen => Sys2Proof.Machine.execContainmentFrozen s
  | .containmentRelease => Sys2Proof.Machine.execContainmentRelease s
  | .pf0D3hot => Sys2Proof.Machine.execPf0D3hot s
  | .controllerEnable => Sys2Proof.Machine.execControllerEnable s
  | .controllerReset => Sys2Proof.Machine.execControllerReset s
  | .arbitration => Sys2Proof.Machine.execArbitration s
  | .read => Sys2Proof.Machine.execRead s
  | .append => Sys2Proof.Machine.execAppend s
  | .writeAt => Sys2Proof.Machine.execWriteAt s
  | .flush => Sys2Proof.Machine.execFlush s
  | .sealSeam => Sys2Proof.Machine.execSealSeam s
  | .identify => Sys2Proof.Machine.execIdentify s
  | .getLog => Sys2Proof.Machine.execGetLog s
  | .setFeature => Sys2Proof.Machine.execSetFeature s
  | .getFeature => Sys2Proof.Machine.execGetFeature s
  | .abort => Sys2Proof.Machine.execAbort s
  | .selfTestShort => Sys2Proof.Machine.execSelfTestShort s
  | .selfTestExtended => Sys2Proof.Machine.execSelfTestExtended s
  | .selfTestStop => Sys2Proof.Machine.execSelfTestStop s
  | .configArm => Sys2Proof.Machine.execConfigArm s
  | .attestRead => Sys2Proof.Machine.execAttestRead s
  | .volumeMount => Sys2Proof.Machine.execVolumeMount s
  | .volumeRelease => Sys2Proof.Machine.execVolumeRelease s
  | .dramScrubGo => Sys2Proof.Machine.execDramScrubGo s
  | .dramScrubStop => Sys2Proof.Machine.execDramScrubStop s
  | .narrowWriteTimeout => Sys2Proof.Machine.execNarrowWriteTimeout s
  | .testRawWrite => Sys2Proof.Machine.execTestRawWrite s
  | .testRawRead => Sys2Proof.Machine.execTestRawRead s
  | .testOpDone => Sys2Proof.Machine.execTestOpDone s
  | .opDone => Sys2Proof.Machine.execOpDone s
  | .stageAbandon => Sys2Proof.Machine.execStageAbandon s
  | .shiftFrameBegin => Sys2Proof.Machine.execShiftFrameBegin s
  | .shiftQuiescent => Sys2Proof.Machine.execShiftQuiescent s
  | .shiftStayTimeout => Sys2Proof.Machine.execShiftStayTimeout s
  | .ringEnable => Sys2Proof.Machine.execRingEnable s
  | .ringDisable => Sys2Proof.Machine.execRingDisable s
  | .ringElect => Sys2Proof.Machine.execRingElect s
  | .loopLocked => Sys2Proof.Machine.execLoopLocked s
  | .loopFail => Sys2Proof.Machine.execLoopFail s
  | .frameSilence => Sys2Proof.Machine.execFrameSilence s
  | .electionRestart => Sys2Proof.Machine.execElectionRestart s
  | .ringOpen => Sys2Proof.Machine.execRingOpen s
  | .collectExpiry => Sys2Proof.Machine.execCollectExpiry s
  | .msgLost => Sys2Proof.Machine.execMsgLost s
  | .rxBufferFree => Sys2Proof.Machine.execRxBufferFree s
  | .ringTimeRead => Sys2Proof.Machine.execRingTimeRead s
  | .pornAssert => Sys2Proof.Machine.execPornAssert s
  | .srstnAssert => Sys2Proof.Machine.execSrstnAssert s
  | .clkFault => Sys2Proof.Machine.execClkFault s
  | .pcieRefLoss => Sys2Proof.Machine.execPcieRefLoss s
  | .calForce => Sys2Proof.Machine.execCalForce s
  | .calPeriodic => Sys2Proof.Machine.execCalPeriodic s
  | .pf0D0 => Sys2Proof.Machine.execPf0D0 s
  | .hotResetReady => Sys2Proof.Machine.execHotResetReady s
  | .pcieRefReturn => Sys2Proof.Machine.execPcieRefReturn s
  | .ringInLockLoss => Sys2Proof.Machine.execRingInLockLoss s

end Sys2Proof.Machine
end

