-- ==== Sys2Proof/Machine/Pins.lean ====
section
/-!
DEFINITION. The levels of the gate outputs and of the ring bypass control at the pins (R163, R165, R394, R424, R439), and the test access
port with its device identity (R424). The table has no row for the JTAG pins: the port stays as State.reset leaves it, held in reset as
the rule asks of the integrator in normal operation.
-/
namespace Sys2Proof.Machine

/-- The instructions under which the scan holds the gate outputs and BYP_HOLD low (R424). -/
def TapInstr.holdsLow : TapInstr → Bool
  | .extest => true
  | .clamp => true
  | .highz => true
  | _ => false

/-- The IDCODE: stepping as version, part number 0x3208, the manufacturer of the BSDL file, and the 1 that every IDCODE ends with (R424). -/
def State.idcode (s : State) : Nat :=
  s.getF F.GLB_DEVICE_ID_STEPPING 0 % 16 * 2 ^ 28 + 0x3208 * 2 ^ 12 + 2 * Config.jtagMaker.toNat + 1

/-- The pins are held low by the scan. -/
def State.scanLow (s : State) : Bool := s.tap.instr.holdsLow

/-- What the gate outputs of a deck do at the pins: a held pin is low, so that every switch is open. -/
def State.gatePins (s : State) (d : Nat) : Gates := if s.scanLow then .off else (vget s.decks {} d).gates

/-- The level of SPd_BRK at the pin. -/
def State.brkPin (s : State) (d : Nat) : Bool := !s.scanLow && s.isSet F.WND_STATUS_CHOP_ON d

/-- The level of BYP_HOLD at the pin; none when VDD_BYP is absent and the pin is not driven (R439). -/
def State.bypPin (s : State) : Option Bool :=
  if s.bitF F.PWR_STATUS_RAILS 0 7 then some (!s.scanLow && s.isSet F.TRL_STATUS_BYP_HOLD 0) else none

end Sys2Proof.Machine
end

