-- ==== Sys2Proof/Safety.lean ====
section
/-!
DEFINITION. What claims about the machine are stated with: the canonical form that every state of a run has, and, for every
command, what it may change at most: its reach.
-/
namespace Sys2Proof.Machine

/-- The canonical form: register cells in order, none at its reset value, each within its width; DRAM bytes in order, none at the
value an unlisted byte reads as; TCK_COUNT within 48 bits (R27). -/
def State.Canonical (s : State) : Prop :=
  regsWf s.regs = true ∧ Memory.wf s.mem.dram = true ∧ Memory.wf s.mem.chk = true ∧ s.tick < 2 ^ 48

/-- The command is done with, or a running one that no other command's effect moves on: no VERIFY, no FORMAT, and no space waiting
for it. -/
def Cmd.settled (c : Cmd) : Prop :=
  c.stage ≠ .running ∨ (c.opc ≠ 0x13 ∧ c.opc ≠ 0x0B ∧ (c.waiting = false ∨ c.seam? = none))

/-- Every mount under way waits for its deck: none is at a probe. -/
def State.MountsWait (s : State) : Prop := ∀ v < 8, ∀ m, (s.vol v).mount = some m → m.waiting = true

/-- Nothing that the command engine is doing moves on by itself: what a row leaves in host memory's commands is then its own doing. -/
def State.HostQuiet (s : State) : Prop :=
  (∀ c ∈ s.hqi.cmds, c.settled) ∧ (∀ v < 8, (s.test v).running = none) ∧ s.MountsWait

/-- The one host command is c: taken, not yet begun, free to be issued, with no request of its own under way. -/
def State.OnlyCommand (s : State) (c : Cmd) : Prop :=
  s.hqi.cmds = [c] ∧ c.stage = .taken ∧ s.hif.reqs = [] ∧ s.mayIssue 0 = true ∧ (∀ v < 8, (s.test v).running = none) ∧ s.MountsWait

/-- The parts of the state beside the register store; `dram` is DRAM's data and check bytes, `mem` everything that 14 gives the
memories. -/
inductive Part where
  | tick | tck | hif | hqi | vols | asy | heads | decks | chans | lanes | mem | dram | cfg | trl | cal | pwr | free
  deriving DecidableEq, Repr

/-- A part is as it was. Every command may leave a PF1 vector pending that it has signalled (R288), so that `hif` is what else the
endpoint holds. -/
def Part.same : Part → State → State → Prop
  | .tick, s, t => t.tick = s.tick
  | .tck, s, t => t.tck = s.tck
  | .hif, s, t => t.hif = { s.hif with pf1 := { s.hif.pf1 with pba := t.hif.pf1.pba } }
  | .hqi, s, t => t.hqi = s.hqi
  | .vols, s, t => t.vols = s.vols
  | .asy, s, t => t.asy = s.asy
  | .heads, s, t => t.heads = s.heads
  | .decks, s, t => t.decks = s.decks
  | .chans, s, t => t.chans = s.chans
  | .lanes, s, t => t.lanes = s.lanes
  | .mem, s, t => t.mem = s.mem
  | .dram, s, t => t.mem.dram = s.mem.dram ∧ t.mem.chk = s.mem.chk
  | .cfg, s, t => t.cfg = s.cfg
  | .trl, s, t => t.trl = s.trl
  | .cal, s, t => t.cal = s.cal
  | .pwr, s, t => t.pwr = s.pwr
  | .free, s, t => t.free = s.free

/-- What a command may change: register fields (every instance of them; or any field), and parts of the state. -/
structure Reach where
  regs : List Field := []
  anyReg : Bool := false
  parts : List Part := []
  deriving DecidableEq, Repr

/-- From s to t nothing outside the reach has changed: every other register field of every instance reads as before (field numbers
lie above 1,000 and below 20,000), every other part is as it was, and the test access port and the queue of
commands that wait are untouched. -/
def Reach.holds (r : Reach) (s t : State) : Prop :=
  (∀ (f : Field) (i : Nat), 1000 < f.id → f.id < 20000 → r.anyReg = false → (∀ g ∈ r.regs, g.id ≠ f.id) → t.getF f i = s.getF f i) ∧
  (∀ p : Part, p ∉ r.parts → p.same s t) ∧ t.tap = s.tap ∧ t.pending = s.pending

/-! ### Register fields that many commands share -/

/-- The bits of every event register, and the marks of forced ones (R21, R457). -/
def eventRegs : List Field := allEvtRegs.flatMap fun e => e.forced :: e.bits

/-- What the command engine may change when it goes on with commands that wait (R307 to R317): slots reserved for reads, sealing,
mounts, decks that are started. -/
def engineRegs : List Field :=
  [F.GLB_DECK_FAULT_DECK, F.WND_STATUS_STATE, F.WND_STATUS_PHASE, F.ASY_SLOT_STATE, F.ASY_SLOT_READS, F.ASY_SLOT_RUNG,
   F.ASY_SLOT_UNSOUND, F.ASY_SLOT_MISSES, F.ASY_SLOT_ID_VERIFY, F.ASY_SLOT_ID_RETAIN, F.ASY_SLOT_ID_V, F.ASY_SLOT_ID_N,
   F.ASY_SLOT_ID_X, F.PRC_STATUS_WITHHOLD, F.PRC_EVT_FLUSH_TRUNC, F.PRC_EVT_WITHHELD, F.PRC_EVT_RESUMED, F.PRC_EVT_FORCED,
   F.PRC_STATS2_TRUNC, F.PRC_PEAK_PEAK, F.WRP_EVT_CAT_FULL, F.WRP_EVT_PAD, F.WRP_EVT_FORCED, F.WRP_HEAD_STATE,
   F.WRP_SEAM_SEALED, F.WRP_SEAM_EXHAUSTED, F.WRP_SEAM_KNOWN, F.WRP_SEAM_NSKIP, F.WRP_SEAM_LODES, F.WRP_SPARE_VALID,
   F.WRP_SPARE_REASON, F.WRP_SPARE_LODE, F.WRP_SPARE_POS]

/-- What rejecting a held low word of a table entry may change (R331). -/
def narrowRegs : List Field :=
  [F.CLR_EVT_CFG_REJECT, F.CLR_EVT_FORCED, F.LRN_EVT_CFG_REJECT, F.LRN_EVT_FORCED, F.CHN_EVT_CFG_REJECT, F.CHN_EVT_FORCED,
   F.CHN_EVT_CHANS_CHAN, F.WRP_EVT_CFG_REJECT, F.WRP_EVT_FORCED, F.MEM_EVT_NARROW_REJECT, F.MEM_EVT_FORCED,
   F.MEM_PWD_LOG_KIND, F.MEM_PWD_LOG_COUNT, F.MEM_PWD_ADDR_ADDR]

/-- What a head-fatal event may change (R15 to R19, R118). -/
def headFatalRegs : List Field :=
  [F.GLB_EVT_SIDE_LOST, F.GLB_EVT_TAKEOVER_REFUSED, F.GLB_EVT_HANDBACK_DONE, F.GLB_EVT_TAKEOVER_START, F.GLB_EVT_FORCED,
   F.GLB_HEAD_FAULT_HEAD, F.GLB_TAKEOVER_SERVED_BY_PARTNER, F.CLR_STATUS_STATE, F.CLR_STATUS_TRK_VALID, F.CLR_STATUS_TF,
   F.CLR_STATUS_PERMIT, F.CLR_STATUS_FOCUS_OK, F.CLR_STATUS_HOLD_OVR, F.CLR_STATUS_PHASE, F.CLR_POS_EST,
   F.CLR_LOOP_CTL_CLOSED, F.CLR_OUT_U, F.CLR_SF_STATUS_LO, F.CLR_RP_STATUS_CODE, F.SLD_STATUS_STATE, F.SLD_STATUS_PHASE,
   F.SLD_STATUS_HOMED, F.SLD_EVT_SOFT_LIMIT, F.SLD_EVT_FORCED, F.SLD_EVT_AXES_AXIS, F.LNK_DROP_TRUNC, F.LNK_EVT_FLUSH_TRUNC,
   F.LNK_EVT_FORCED, F.LNK_EVT_HEADS_HEAD, F.CHN_STATUS_STATE, F.CHN_STATUS_WOB_LOCK, F.CHN_EVT_TRUNC, F.CHN_EVT_FORCED,
   F.CHN_TRUNC_TRUNC, F.CHN_EVT_CHANS_CHAN, F.ASY_SLOT_STATE, F.ASY_SLOT_READS, F.ASY_SLOT_RUNG, F.ASY_SLOT_UNSOUND,
   F.ASY_SLOT_MISSES, F.ASY_SLOT_ID_VERIFY, F.ASY_SLOT_ID_RETAIN, F.ASY_SLOT_ID_V, F.ASY_SLOT_ID_N, F.ASY_SLOT_ID_X,
   F.PRC_STATUS_WITHHOLD, F.PRC_EVT_FLUSH_TRUNC, F.PRC_EVT_WITHHELD, F.PRC_EVT_RESUMED, F.PRC_EVT_FORCED, F.PRC_STATS2_TRUNC,
   F.PRC_PEAK_PEAK, F.WRP_EVT_GATE_CUT, F.WRP_EVT_FORCED, F.WRP_GATE_CLOSES, F.WRP_GATE_CUTS, F.WRP_HEAD_STATE]

/-- What a deck-fatal event may change (R19, R185). -/
def deckFatalRegs : List Field :=
  [F.GLB_HEAD_FAULT_HEAD, F.GLB_DECK_FAULT_DECK, F.GLB_TAKEOVER_SERVED_BY_PARTNER, F.HQI_EVT_VOLUME_LOST, F.HQI_EVT_FORCED,
   F.CLR_STATUS_STATE, F.CLR_STATUS_TRK_VALID, F.CLR_STATUS_TF, F.CLR_STATUS_PERMIT, F.CLR_STATUS_FOCUS_OK,
   F.CLR_STATUS_HOLD_OVR, F.CLR_STATUS_PHASE, F.CLR_POS_EST, F.CLR_LOOP_CTL_CLOSED, F.CLR_OUT_U, F.CLR_SF_STATUS_LO,
   F.CLR_RP_STATUS_CODE, F.WND_STATUS_STATE, F.WND_STATUS_PHASE, F.WND_STATUS_ANGLE_VALID, F.WND_STATUS_SHORT,
   F.WND_STATUS_AT_REST, F.WND_STATUS_SECTOR, F.SLD_STATUS_STATE, F.SLD_STATUS_PHASE, F.SLD_STATUS_HOMED,
   F.SLD_EVT_SOFT_LIMIT, F.SLD_EVT_FORCED, F.SLD_EVT_AXES_AXIS, F.LNK_DROP_TRUNC, F.LNK_EVT_FLUSH_TRUNC, F.LNK_EVT_FORCED,
   F.LNK_EVT_HEADS_HEAD, F.CHN_STATUS_STATE, F.CHN_STATUS_WOB_LOCK, F.CHN_EVT_TRUNC, F.CHN_EVT_FORCED, F.CHN_TRUNC_TRUNC,
   F.CHN_EVT_CHANS_CHAN, F.ASY_SLOT_STATE, F.ASY_SLOT_READS, F.ASY_SLOT_RUNG, F.ASY_SLOT_UNSOUND, F.ASY_SLOT_MISSES,
   F.ASY_SLOT_ID_VERIFY, F.ASY_SLOT_ID_RETAIN, F.ASY_SLOT_ID_V, F.ASY_SLOT_ID_N, F.ASY_SLOT_ID_X, F.PRC_STATUS_WITHHOLD,
   F.PRC_EVT_FLUSH_TRUNC, F.PRC_EVT_WITHHELD, F.PRC_EVT_RESUMED, F.PRC_EVT_FORCED, F.PRC_STATS2_TRUNC, F.PRC_PEAK_PEAK,
   F.WRP_EVT_GATE_CUT, F.WRP_EVT_FORCED, F.WRP_GATE_CLOSES, F.WRP_GATE_CUTS, F.WRP_HEAD_STATE, F.WRP_SEAM_SEALED,
   F.WRP_SEAM_EXHAUSTED, F.WRP_SEAM_KNOWN, F.WRP_SEAM_NSKIP, F.WRP_SEAM_LODES, F.WRP_SPARE_VALID, F.WRP_SPARE_REASON,
   F.WRP_SPARE_LODE, F.WRP_SPARE_POS]

/-- What a device-fatal event may change (R19, R294, R295). -/
def deviceFatalRegs : List Field :=
  [F.HIF_CONTAIN_STATE, F.HIF_CONTAIN_INFLIGHT, F.HIF_CONTAIN_CAUSE_INTERNAL, F.HIF_EVT_CONTAINED, F.HIF_EVT_FORCED,
   F.HQI_CSTS_HELD, F.CLR_STATUS_STATE, F.CLR_STATUS_TRK_VALID, F.CLR_STATUS_TF, F.CLR_STATUS_PERMIT, F.CLR_STATUS_FOCUS_OK,
   F.CLR_STATUS_HOLD_OVR, F.CLR_STATUS_PHASE, F.CLR_POS_EST, F.CLR_LOOP_CTL_CLOSED, F.CLR_OUT_U, F.CLR_SF_STATUS_LO,
   F.CLR_RP_STATUS_CODE, F.SLD_STATUS_STATE, F.SLD_STATUS_PHASE, F.SLD_STATUS_HOMED, F.SLD_EVT_SOFT_LIMIT, F.SLD_EVT_FORCED,
   F.SLD_EVT_AXES_AXIS, F.LNK_DROP_TRUNC, F.LNK_EVT_FLUSH_TRUNC, F.LNK_EVT_FORCED, F.LNK_EVT_HEADS_HEAD, F.CHN_STATUS_STATE,
   F.CHN_STATUS_WOB_LOCK, F.CHN_EVT_TRUNC, F.CHN_EVT_FORCED, F.CHN_TRUNC_TRUNC, F.CHN_EVT_CHANS_CHAN, F.ASY_SLOT_STATE,
   F.ASY_SLOT_READS, F.PRC_STATUS_WITHHOLD, F.PRC_EVT_FLUSH_TRUNC, F.PRC_EVT_WITHHELD, F.PRC_EVT_RESUMED, F.PRC_EVT_FORCED,
   F.PRC_STATS2_TRUNC, F.PRC_PEAK_PEAK, F.WRP_EVT_GATE_CUT, F.WRP_EVT_FORCED, F.WRP_GATE_CLOSES, F.WRP_GATE_CUTS,
   F.WRP_HEAD_STATE, F.CFG_EVT_SHIFT_STAYED, F.CFG_EVT_FORCED, F.CFG_STAGE_STATUS_STATE, F.CFG_SHIFT_STATUS_STATE]

/-- What taking a head to OFF may change (R118). -/
def headOffRegs : List Field :=
  [F.CLR_STATUS_STATE, F.CLR_STATUS_TRK_VALID, F.CLR_STATUS_TF, F.CLR_STATUS_PERMIT, F.CLR_STATUS_FOCUS_OK,
   F.CLR_STATUS_HOLD_OVR, F.CLR_STATUS_PHASE, F.CLR_POS_EST, F.CLR_LOOP_CTL_CLOSED, F.CLR_OUT_U, F.CLR_SF_STATUS_LO,
   F.CLR_RP_STATUS_CODE, F.SLD_STATUS_STATE, F.SLD_STATUS_PHASE, F.SLD_STATUS_HOMED, F.SLD_EVT_SOFT_LIMIT, F.SLD_EVT_FORCED,
   F.SLD_EVT_AXES_AXIS, F.LNK_DROP_TRUNC, F.LNK_EVT_FLUSH_TRUNC, F.LNK_EVT_FORCED, F.LNK_EVT_HEADS_HEAD, F.CHN_STATUS_STATE,
   F.CHN_STATUS_WOB_LOCK, F.CHN_EVT_TRUNC, F.CHN_EVT_FORCED, F.CHN_TRUNC_TRUNC, F.CHN_EVT_CHANS_CHAN, F.ASY_SLOT_STATE,
   F.ASY_SLOT_READS, F.ASY_SLOT_RUNG, F.ASY_SLOT_UNSOUND, F.ASY_SLOT_MISSES, F.ASY_SLOT_ID_VERIFY, F.ASY_SLOT_ID_RETAIN,
   F.ASY_SLOT_ID_V, F.ASY_SLOT_ID_N, F.ASY_SLOT_ID_X, F.PRC_STATUS_WITHHOLD, F.PRC_EVT_FLUSH_TRUNC, F.PRC_EVT_WITHHELD,
   F.PRC_EVT_RESUMED, F.PRC_EVT_FORCED, F.PRC_STATS2_TRUNC, F.PRC_PEAK_PEAK, F.WRP_EVT_GATE_CUT, F.WRP_EVT_FORCED,
   F.WRP_GATE_CLOSES, F.WRP_GATE_CUTS, F.WRP_HEAD_STATE]

/-- What taking a head to HOLD may change (R118). -/
def holdRegs : List Field :=
  [F.CLR_STATUS_STATE, F.CLR_STATUS_TRK_VALID, F.CLR_STATUS_TF, F.CLR_STATUS_PERMIT, F.CLR_STATUS_FOCUS_OK,
   F.CLR_STATUS_HOLD_OVR, F.CLR_STATUS_PHASE, F.CLR_POS_EST, F.CLR_LOOP_CTL_CLOSED, F.CLR_OUT_U, F.CLR_SF_STATUS_LO,
   F.CLR_RP_STATUS_CODE, F.SLD_STATUS_STATE, F.SLD_STATUS_PHASE, F.SLD_STATUS_HOMED, F.SLD_EVT_SOFT_LIMIT, F.SLD_EVT_FORCED,
   F.SLD_EVT_AXES_AXIS, F.LNK_DROP_TRUNC, F.LNK_EVT_FLUSH_TRUNC, F.LNK_EVT_FORCED, F.LNK_EVT_HEADS_HEAD, F.CHN_STATUS_STATE,
   F.CHN_STATUS_WOB_LOCK, F.CHN_EVT_TRUNC, F.CHN_EVT_FORCED, F.CHN_TRUNC_TRUNC, F.CHN_EVT_CHANS_CHAN, F.ASY_SLOT_STATE,
   F.ASY_SLOT_READS, F.PRC_STATUS_WITHHOLD, F.PRC_EVT_FLUSH_TRUNC, F.PRC_EVT_WITHHELD, F.PRC_EVT_RESUMED, F.PRC_EVT_FORCED,
   F.PRC_STATS2_TRUNC, F.PRC_PEAK_PEAK, F.WRP_EVT_GATE_CUT, F.WRP_EVT_FORCED, F.WRP_GATE_CLOSES, F.WRP_GATE_CUTS,
   F.WRP_HEAD_STATE]

/-- What cache maintenance may change (R343 to R347). -/
def maintainRegs : List Field :=
  [F.HIF_CONTAIN_STATE, F.HIF_CONTAIN_INFLIGHT, F.HIF_CONTAIN_CAUSE_INTERNAL, F.HIF_EVT_CONTAINED, F.HIF_EVT_FORCED,
   F.HQI_CSTS_HELD, F.CLR_STATUS_STATE, F.CLR_STATUS_TRK_VALID, F.CLR_STATUS_TF, F.CLR_STATUS_PERMIT, F.CLR_STATUS_FOCUS_OK,
   F.CLR_STATUS_HOLD_OVR, F.CLR_STATUS_PHASE, F.CLR_POS_EST, F.CLR_LOOP_CTL_CLOSED, F.CLR_OUT_U, F.CLR_SF_STATUS_LO,
   F.CLR_RP_STATUS_CODE, F.SLD_STATUS_STATE, F.SLD_STATUS_PHASE, F.SLD_STATUS_HOMED, F.SLD_EVT_SOFT_LIMIT, F.SLD_EVT_FORCED,
   F.SLD_EVT_AXES_AXIS, F.LNK_DROP_TRUNC, F.LNK_EVT_FLUSH_TRUNC, F.LNK_EVT_FORCED, F.LNK_EVT_HEADS_HEAD, F.CHN_STATUS_STATE,
   F.CHN_STATUS_WOB_LOCK, F.CHN_EVT_TRUNC, F.CHN_EVT_FORCED, F.CHN_TRUNC_TRUNC, F.CHN_EVT_CHANS_CHAN, F.ASY_SLOT_STATE,
   F.ASY_SLOT_READS, F.PRC_STATUS_WITHHOLD, F.PRC_EVT_FLUSH_TRUNC, F.PRC_EVT_WITHHELD, F.PRC_EVT_RESUMED, F.PRC_EVT_FORCED,
   F.PRC_STATS2_TRUNC, F.PRC_PEAK_PEAK, F.WRP_EVT_GATE_CUT, F.WRP_EVT_FORCED, F.WRP_GATE_CLOSES, F.WRP_GATE_CUTS,
   F.WRP_HEAD_STATE, F.LCA_EVT_CFG_REJECT, F.LCA_EVT_TAG_UE, F.LCA_EVT_POISON_WB, F.LCA_EVT_FORCED, F.LCA_OP_STATUS_BUSY,
   F.LCA_OP_STATUS_DONE, F.LCA_OP_STATUS_REFUSED, F.CFG_EVT_SHIFT_STAYED, F.CFG_EVT_FORCED, F.CFG_STAGE_STATUS_STATE,
   F.CFG_SHIFT_STATUS_STATE]

/-- What the end of a freeze may change (R296). -/
def thawRegs : List Field :=
  [F.ASY_SLOT_STATE, F.ASY_SLOT_UNSOUND, F.ASY_SLOT_ID_VERIFY, F.ASY_SLOT_ID_V, F.ASY_SLOT_ID_N, F.ASY_SLOT_ID_X]

/-- What taking a head link down may change (R86, R92). -/
def linkDownRegs : List Field :=
  [F.LNK_LANE_STATUS_ROLE, F.LNK_HEAD_STATUS_FAILED, F.LNK_HEAD_STATUS_ACTIVE, F.LNK_HEAD_STATUS_SPARE,
   F.LNK_HEAD_STATUS_STATE, F.LNK_DROP_TRUNC, F.LNK_EVT_FLUSH_TRUNC, F.LNK_EVT_FORCED, F.LNK_EVT_HEADS_HEAD,
   F.CHN_STATUS_STATE, F.CHN_STATUS_WOB_LOCK, F.CHN_EVT_TRUNC, F.CHN_EVT_FORCED, F.CHN_TRUNC_TRUNC, F.CHN_EVT_CHANS_CHAN]

/-- What leaving the ring may change (R392). -/
def leaveRingRegs : List Field :=
  [F.TRL_STATUS_ROLE, F.TRL_STATUS_BYP_HOLD, F.TRL_EVT_SHIFT_REFUSED, F.TRL_EVT_TX_DONE, F.TRL_EVT_FORCED, F.TRL_LAP_LAP,
   F.TRL_SHIFT_CTL_RESULT, F.TRL_EXCL_CTL_BUSY, F.TRL_TX_STATUS_BUSY, F.TRL_TX_STATUS_RESULT]

/-- What the start of the device may change (R418, R423, R453). -/
def startRegs : List Field :=
  [F.MEM_EVT_REPAIR_OVERFLOW, F.MEM_EVT_FORCED, F.MEM_REPAIR_FUSED, F.CFG_SVN_FUSED, F.CFG_KEYS_REVOKED, F.CFG_KEYS_FUSED,
   F.TRL_CTL_EN, F.PWR_STRAPS_TEST, F.PWR_STRAPS_RING_EN, F.PWR_STRAPS_BIST, F.PWR_EVT_BIST_FAIL, F.PWR_EVT_FORCED,
   F.PWR_BIST_RAN, F.PWR_BIST_FAIL, F.PWR_BIST_REPAIRED, F.PWR_BIST_UNREPAIRED]

/-- What the start of focus acquisition may change (R120). -/
def acquireRegs : List Field :=
  [F.CLR_STATUS_STATE, F.CLR_STATUS_TRK_VALID, F.CLR_STATUS_TF, F.CLR_STATUS_PERMIT, F.CLR_STATUS_FOCUS_OK,
   F.CLR_STATUS_HOLD_OVR, F.CLR_STATUS_PHASE, F.CLR_POS_EST, F.CLR_POS_LAYER, F.CLR_LOOP_CTL_CLOSED, F.CLR_OUT_U,
   F.CLR_SF_STATUS_LO, F.CLR_RP_STATUS_CODE, F.SLD_STATUS_STATE, F.SLD_STATUS_PHASE, F.SLD_STATUS_HOMED, F.SLD_EVT_SOFT_LIMIT,
   F.SLD_EVT_FORCED, F.SLD_EVT_AXES_AXIS, F.LNK_DROP_TRUNC, F.LNK_EVT_FLUSH_TRUNC, F.LNK_EVT_FORCED, F.LNK_EVT_HEADS_HEAD,
   F.CHN_STATUS_STATE, F.CHN_STATUS_WOB_LOCK, F.CHN_EVT_TRUNC, F.CHN_EVT_FORCED, F.CHN_TRUNC_TRUNC, F.CHN_EVT_CHANS_CHAN]

/-- What the outcome of a lode may change (R240 to R244). -/
def outcomeRegs : List Field :=
  [F.ASY_EVT_LODE_FAILED, F.ASY_EVT_RECOVERED, F.ASY_EVT_REREAD, F.ASY_EVT_FORCED, F.ASY_LODES_CLEAN, F.ASY_LODES_CORRECTED,
   F.ASY_LODES2_REREAD, F.ASY_LODES2_FAILED, F.ASY_SLOT_STATE, F.ASY_SLOT_READS, F.ASY_SLOT_RUNG, F.ASY_SLOT_UNSOUND,
   F.ASY_SLOT_MISSES, F.ASY_SLOT_ID_VERIFY, F.ASY_SLOT_ID_RETAIN, F.ASY_SLOT_ID_V, F.ASY_SLOT_ID_N, F.ASY_SLOT_ID_X,
   F.PRC_STATUS_WITHHOLD, F.PRC_EVT_WITHHELD, F.PRC_EVT_RESUMED, F.PRC_EVT_FORCED, F.PRC_PEAK_PEAK, F.WRP_EVT_SEAM_EXHAUSTED,
   F.WRP_EVT_SPARED, F.WRP_EVT_FORCED, F.WRP_SKIPS_SKIPPED, F.WRP_SEAM_SEALED, F.WRP_SEAM_EXHAUSTED, F.WRP_SEAM_NSKIP,
   F.WRP_SEAM_LODES, F.WRP_SPARE_VALID, F.WRP_SPARE_REASON, F.WRP_SPARE_LODE, F.WRP_SPARE_POS, F.MEM_EVT_SRAM_UE,
   F.MEM_EVT_DRAM_UE, F.MEM_EVT_CE_OVERFLOW, F.MEM_EVT_FORCED, F.MEM_CE_STATUS_LEVEL, F.MEM_CE_STATUS_OVERFLOWS,
   F.MEM_CE_TOTAL_COUNT, F.MEM_UE_LOG_VALID, F.MEM_UE_LOG_CLASS, F.MEM_UE_LOG_POISON, F.MEM_UE_LOG_SOURCE, F.MEM_UE_LOG_COUNT,
   F.MEM_UE_ADDR_ADDR, F.LCA_HITS_COUNT, F.LCA_MISSES_COUNT]

/-! ### The reach of every command -/

/-- What each command may change at most. -/
def reach : Instr → Reach
  | .servoTick _ _ =>
    { regs := [F.GLB_EVT_TAKEOVER_DONE, F.TCK_EVT_CLR_SAFE, F.TCK_EVT_CLR_HOLD, F.TCK_EVT_CLR_OVR, F.TCK_EVT_FORCED,
        F.TCK_OVR_HEADS_HEAD, F.TCK_CLR_OVR_RECENT, F.TCK_CLR_OVR_TOTAL, F.TCK_CLR_MAXCYC_MAX, F.CLR_STATUS_SLEWING,
        F.CLR_POS_ZONE, F.CLR_POS_LAYER, F.CLR_POS_TRACK, F.CLR_OFFTRACK_MAX, F.CLR_OFFTRACK_OT, F.CLR_EVT_FOCUS_REPEAT,
        F.CLR_EVT_SEEK_FAIL, F.CLR_EVT_FOCUS_LOST, F.CLR_EVT_TRACK_SLIP, F.CLR_EVT_SHOCK, F.CLR_EVT_SAT, F.CLR_EVT_FORCED,
        F.CLR_SAT_NFF, F.CLR_SAT_LOOP2, F.CLR_SAT_LOOP1, F.CLR_SAT_LOOP0, F.CLR_COEF_LIVE_COEF, F.LRN_STATUS_FROZEN,
        F.LRN_STATUS_XTRAP, F.LRN_STATUS_PSI, F.LRN_EVT_ECC, F.LRN_EVT_ANGLE_FADE, F.LRN_EVT_SAT, F.LRN_EVT_FORCED,
        F.LRN_LOOP_STATUS_REVS, F.LRN_LOOP_STATUS_EMPTY, F.LRN_LOOP_STATUS_SAT, F.LRN_LOOP_STATUS_RESID, F.LRN_INJ_LRN,
        F.LRN_ENTRY_W, F.LRN_SCALE_RECIP, F.LRN_SCALE_GAIN, F.WND_STATUS_LOCKED, F.WND_STATUS_REF, F.WND_STATUS_CHOP_ON,
        F.WND_EVT_OVERVOLT, F.WND_EVT_FORCED, F.WND_BUS_VBUS, F.WND_ANGLE_ELEC, F.WND_ANGLE_THETA, F.WND_DTHETA_DTHETA,
        F.SLD_STATUS_RAW, F.SLD_HOME_STATUS_TRANS, F.SLD_HOME_STATUS_TRAVEL, F.SLD_EVT_HOME_CHATTER, F.LNK_PRBS_ERR_LOCK,
        F.LNK_PRBS_ERR_COUNT, F.LNK_TICK_LEAD_RTT, F.LNK_LATE_COUNT, F.LNK_POISON_COUNT, F.LNK_DROP_DROPS,
        F.LNK_HFE_STATUS_FAULT, F.LNK_HFE_STATUS_DLOCK0, F.LNK_HFE_STATUS_DLOCK1, F.LNK_HFE_STATUS_DCRC,
        F.LNK_HFE_STATUS_DRV_TAG, F.LNK_HFE_CMD_BUSY, F.LNK_HFE_CMD_RESULT, F.LNK_EVT_HFE_FAULT, F.LNK_EVT_DOWN_LOST,
        F.LNK_EVT_DROP, F.LNK_EVT_POISON, F.LNK_EVT_LATE_WORD, F.CHN_STATUS_POS_ERR, F.CHN_WOB_STATUS_PILLAR,
        F.CHN_WOB_STATUS_WOBBLE, F.WRP_EVT_CAT_FULL, F.WRP_EVT_PAD, F.MEM_EVT_SRAM_UE, F.MEM_EVT_DRAM_UE,
        F.MEM_EVT_CE_OVERFLOW, F.MEM_EVT_FORCED, F.MEM_CE_STATUS_LEVEL, F.MEM_CE_STATUS_OVERFLOWS, F.MEM_CE_TOTAL_COUNT,
        F.MEM_UE_LOG_VALID, F.MEM_UE_LOG_CLASS, F.MEM_UE_LOG_POISON, F.MEM_UE_LOG_SOURCE, F.MEM_UE_LOG_COUNT,
        F.MEM_UE_ADDR_ADDR] ++ deckFatalRegs ++ headFatalRegs ++ linkDownRegs,
      parts := [.tick, .tck, .hif, .hqi, .vols, .asy, .heads, .decks, .chans, .lanes, .mem, .free, .dram] }
  | .motorTick _ =>
    { regs := [F.WND_STATUS_LOCKED, F.WND_STATUS_REF, F.WND_STATUS_CHOP_ON, F.WND_STATUS_REVERSE, F.WND_EVT_OVERVOLT,
        F.WND_EVT_CHOP_FAULT, F.WND_EVT_LOS_REPEAT, F.WND_EVT_VSAT, F.WND_EVT_REGEN_LIMIT, F.WND_EVT_LOS, F.WND_EVT_FORCED,
        F.WND_BUS_VBUS, F.WND_BUS_IBRK, F.WND_IDQ_IQ, F.WND_IDQ_ID, F.WND_COUNTS_LOS, F.WRP_EVT_CAT_FULL, F.WRP_EVT_PAD
        ] ++ deckFatalRegs, parts := [.hif, .hqi, .vols, .asy, .heads, .decks, .chans, .mem, .dram] }
  | .ringFrameTick _ =>
    { regs := [F.HQI_CSTS_HELD, F.CFG_STAGE_STATUS_STATE, F.CFG_SHIFT_STATUS_STATE, F.CFG_SHIFT_STATUS_DEFER,
        F.CFG_SHIFT_FRAME_LO_F_LO, F.CFG_SHIFT_FRAME_HI_F_HI, F.TRL_STATUS_MIXED, F.TRL_STATUS_OPEN, F.TRL_STATUS_EXCLUDED,
        F.TRL_EVT_EXCLUDED, F.TRL_EVT_SHIFT_REFUSED, F.TRL_EVT_UNMIXED, F.TRL_EVT_MIXED, F.TRL_EVT_FORCED,
        F.TRL_SHIFT_CTL_RESULT, F.TRL_SHIFT_RING_PHASE, F.TRL_SHIFT_RING_F_HI, F.TRL_SHIFT_F_LO_F_LO, F.TRL_TX_STATUS_SENT
        ] ++ engineRegs, parts := [.hif, .hqi, .vols, .asy, .heads, .decks, .cfg, .trl] }
  | .tckCtlWrite _ =>
    { regs := [F.TCK_CTL_STEP_LIM, F.TCK_CTL_SLEW, F.TCK_CTL_STEP_OK, F.TCK_CTL_DISC_EN, F.TCK_STATUS_HOLDOVER,
        F.TCK_STATUS_LOCK, F.TCK_EVT_CFG_REJECT, F.TCK_EVT_FORCED] ++ narrowRegs, parts := [.tck, .mem] }
  | .tckAsyDeadlineWrite _ =>
    { regs := [F.TCK_EVT_CFG_REJECT, F.TCK_EVT_FORCED, F.TCK_ASY_DEADLINE_TICKS] ++ narrowRegs, parts := [.mem] }
  | .collierOverrun _ _ =>
    { regs := [F.TCK_EVT_CLR_SAFE, F.TCK_EVT_CLR_HOLD, F.TCK_EVT_CLR_OVR, F.TCK_EVT_FORCED, F.TCK_OVR_HEADS_HEAD,
        F.TCK_CLR_OVR_RECENT, F.TCK_CLR_OVR_TOTAL, F.TCK_CLR_MAXCYC_MAX] ++ headFatalRegs ++ engineRegs,
      parts := [.hif, .hqi, .vols, .asy, .heads, .decks, .chans, .mem, .dram] }
  | .lrnSkip _ =>
    { regs := [F.TCK_EVT_LRN_SKIP, F.TCK_EVT_FORCED, F.TCK_OVR_HEADS_HEAD, F.LRN_EVT_ECC, F.LRN_EVT_SAT,
        F.LRN_LOOP_STATUS_REVS, F.LRN_LOOP_STATUS_EMPTY, F.LRN_LOOP_STATUS_SAT, F.LRN_LOOP_STATUS_RESID, F.LRN_ENTRY_W],
      parts := [.heads, .mem] }
  | .obsLate _ =>
    { regs := [F.TCK_EVT_OBS_LOST, F.TCK_EVT_OBS_LATE, F.TCK_EVT_FORCED, F.TCK_OVR_DECKS_DECK, F.TCK_WND_OVR_OBS,
        F.WND_STATUS_LOCKED, F.WND_STATUS_REF, F.WND_STATUS_CHOP_ON, F.WND_EVT_LOS_REPEAT, F.WND_EVT_LOS, F.WND_EVT_FORCED,
        F.WND_COUNTS_LOS, F.WRP_EVT_CAT_FULL, F.WRP_EVT_PAD] ++ deckFatalRegs,
      parts := [.hif, .hqi, .vols, .asy, .heads, .decks, .chans, .mem, .dram] }
  | .wndOvr _ =>
    { regs := [F.TCK_EVT_WND_OVR, F.TCK_EVT_FORCED, F.TCK_OVR_DECKS_DECK, F.TCK_WND_OVR_STEP, F.WRP_EVT_CAT_FULL,
        F.WRP_EVT_PAD] ++ deckFatalRegs, parts := [.hif, .hqi, .vols, .asy, .heads, .decks, .chans, .mem, .dram] }
  | .sldOvr _ =>
    { regs := [F.TCK_EVT_SLD_OVR, F.TCK_EVT_FORCED, F.TCK_OVR_HEADS_HEAD] ++ headFatalRegs ++ engineRegs,
      parts := [.hif, .hqi, .vols, .asy, .heads, .decks, .chans, .mem, .dram] }
  | .asyMiss _ =>
    { regs := [F.TCK_EVT_ASY_MISS, F.TCK_EVT_FORCED, F.TCK_ASY_MISS_COUNT, F.ASY_ENG_STATUS_BUSY, F.ASY_ENG_STATUS_RUNG,
        F.ASY_ENG_STATUS_SLOT] ++ outcomeRegs ++ engineRegs, parts := [.hif, .hqi, .vols, .asy, .heads, .decks, .mem] }
  | .takeoverPartnerFree _ =>
    { regs := engineRegs, parts := [.hif, .hqi, .vols, .asy, .heads, .decks] }
  | .seekReissue _ =>
    { regs := engineRegs, parts := [.hif, .hqi, .vols, .asy, .heads, .decks] }
  | .takeoverRequest _ =>
    { regs := [F.GLB_EVT_TAKEOVER_REFUSED, F.GLB_EVT_TAKEOVER_START, F.GLB_EVT_FORCED] ++ engineRegs ++ narrowRegs,
      parts := [.hif, .hqi, .vols, .asy, .heads, .decks, .mem] }
  | .handbackRequest _ =>
    { regs := [F.GLB_EVT_TAKEOVER_REFUSED, F.GLB_EVT_HANDBACK_DONE, F.GLB_EVT_FORCED, F.GLB_TAKEOVER_SERVED_BY_PARTNER
        ] ++ engineRegs ++ narrowRegs, parts := [.hif, .hqi, .vols, .asy, .heads, .decks, .mem] }
  | .handbackDone _ =>
    { regs := [F.GLB_EVT_HANDBACK_DONE, F.GLB_EVT_FORCED, F.GLB_TAKEOVER_SERVED_BY_PARTNER] ++ engineRegs,
      parts := [.hif, .hqi, .vols, .asy, .heads, .decks] }
  | .linkWordPush _ _ _ _ _ =>
    { regs := [F.LNK_LANE_CTL_DIS, F.LNK_LANE_STATUS_MARKER_OK, F.LNK_LANE_STATUS_SIG_DET, F.LNK_LANE_STATUS_BLOCK_LOCK,
        F.LNK_LANE_ERR_SH_ERR, F.LNK_PRBS_ERR_LOCK, F.LNK_PRBS_ERR_COUNT, F.LNK_TICK_LEAD_RTT, F.LNK_DROP_DROPS,
        F.LNK_EVT_DOWN_LOST, F.LNK_EVT_LINK_LOST, F.LNK_EVT_LANE_FAIL, F.LNK_EVT_DROP
        ] ++ headFatalRegs ++ engineRegs ++ linkDownRegs,
      parts := [.hif, .hqi, .vols, .asy, .heads, .decks, .chans, .lanes, .mem, .dram] }
  | .fifoPop _ _ _ =>
    { regs := [F.LNK_TICK_LEAD_RTT, F.LNK_POISON_COUNT, F.LNK_DROP_DROPS, F.LNK_EVT_DROP, F.LNK_EVT_POISON, F.LNK_EVT_FORCED,
        F.LNK_EVT_HEADS_HEAD, F.CHN_STATUS_DEFECT, F.CHN_WOB_STATUS_PILLAR, F.CHN_WOB_STATUS_WOBBLE, F.CHN_EVT_EQ_SAT,
        F.CHN_EVT_FORCED, F.CHN_EQ_TAP_TAP, F.CHN_EVT_CHANS_CHAN], parts := [.heads, .chans] }
  | .fifoOverflow _ _ =>
    { regs := [F.LNK_TICK_LEAD_RTT, F.LNK_DROP_DROPS, F.LNK_EVT_DROP, F.LNK_EVT_FORCED, F.LNK_EVT_HEADS_HEAD],
      parts := [.heads] }
  | .fifoFlush _ _ =>
    { regs := [F.LNK_TICK_LEAD_RTT, F.LNK_DROP_TRUNC, F.LNK_DROP_DROPS, F.LNK_EVT_DROP, F.LNK_EVT_FLUSH_TRUNC,
        F.LNK_EVT_FORCED, F.LNK_EVT_HEADS_HEAD, F.CHN_EVT_TRUNC, F.CHN_TRUNC_TRUNC] ++ narrowRegs,
      parts := [.heads, .chans, .mem] }
  | .echoReceived _ _ _ =>
    { regs := [F.LNK_TICK_LEAD_RTT], parts := [.heads] }
  | .alignMarker _ _ =>
    { regs := [F.LNK_LANE_STATUS_SKEW, F.LNK_LANE_STATUS_MARKER_OK, F.LNK_LANE_STATUS_SIG_DET, F.LNK_LANE_STATUS_BLOCK_LOCK,
        F.LNK_LANE_ERR_SH_ERR, F.LNK_LANE_ERR_MK_ERR, F.LNK_PRBS_ERR_LOCK, F.LNK_HEAD_STATUS_MARK, F.LNK_TICK_LEAD_RTT,
        F.LNK_DROP_DROPS, F.LNK_EVT_LINK_LOST, F.LNK_EVT_LANE_RESTORED, F.LNK_EVT_LANE_FAIL, F.LNK_EVT_MAP_ERR,
        F.LNK_EVT_ROT_CANCEL, F.LNK_EVT_DROP] ++ headFatalRegs ++ engineRegs ++ linkDownRegs,
      parts := [.hif, .hqi, .vols, .asy, .heads, .decks, .chans, .lanes, .mem, .dram] }
  | .rotate _ =>
    { regs := [], parts := [.heads] }
  | .laneRestoreSoak _ _ =>
    { regs := [], parts := [.heads] }
  | .laneFail _ _ _ =>
    { regs := [F.LNK_LANE_CTL_DIS, F.LNK_LANE_STATUS_MARKER_OK, F.LNK_LANE_STATUS_SIG_DET, F.LNK_LANE_STATUS_BLOCK_LOCK,
        F.LNK_EVT_DOWN_LOST, F.LNK_EVT_LINK_LOST, F.LNK_EVT_LANE_FAIL
        ] ++ headFatalRegs ++ engineRegs ++ narrowRegs ++ linkDownRegs,
      parts := [.hif, .hqi, .vols, .asy, .heads, .decks, .chans, .lanes, .mem, .dram] }
  | .linkEnable _ =>
    { regs := [F.LNK_LANE_STATUS_ROLE, F.LNK_HEAD_CTL_EN, F.LNK_HEAD_STATUS_STATE, F.CHN_STATUS_STATE, F.CHN_STATUS_WOB_LOCK,
        F.CHN_EVT_TRUNC, F.CHN_TRUNC_TRUNC] ++ engineRegs ++ narrowRegs,
      parts := [.hif, .hqi, .vols, .asy, .heads, .decks, .chans, .lanes, .mem] }
  | .linkDisable _ =>
    { regs := [F.LNK_HEAD_CTL_EN] ++ headOffRegs ++ engineRegs ++ narrowRegs ++ linkDownRegs,
      parts := [.hif, .hqi, .vols, .asy, .heads, .decks, .chans, .mem, .dram] }
  | .trainDone _ =>
    { regs := [F.CLR_STATUS_STATE, F.CLR_STATUS_TRK_VALID, F.CLR_STATUS_TF, F.CLR_STATUS_PERMIT, F.CLR_STATUS_FOCUS_OK,
        F.CLR_STATUS_HOLD_OVR, F.CLR_STATUS_PHASE, F.CLR_POS_EST, F.CLR_LOOP_CTL_CLOSED, F.CLR_OUT_U, F.CLR_SF_STATUS_LO,
        F.CLR_RP_STATUS_CODE, F.SLD_STATUS_STATE, F.SLD_STATUS_PHASE, F.SLD_STATUS_HOMED, F.SLD_EVT_SOFT_LIMIT,
        F.SLD_EVT_FORCED, F.SLD_EVT_AXES_AXIS, F.LNK_LANE_STATUS_ROLE, F.LNK_HEAD_STATUS_FAILED, F.LNK_HEAD_STATUS_STATE,
        F.LNK_TICK_LEAD_LEAD, F.LNK_DROP_TRUNC, F.LNK_EVT_FLUSH_TRUNC, F.LNK_EVT_FORCED, F.LNK_EVT_HEADS_HEAD,
        F.CHN_STATUS_STATE, F.CHN_STATUS_WOB_LOCK, F.CHN_EVT_TRUNC, F.CHN_EVT_FORCED, F.CHN_TRUNC_TRUNC, F.CHN_EVT_CHANS_CHAN
        ] ++ engineRegs, parts := [.hif, .hqi, .vols, .asy, .heads, .decks, .chans] }
  | .trainFail _ =>
    { regs := [F.LNK_EVT_TRAIN_FAIL] ++ headFatalRegs ++ engineRegs ++ linkDownRegs,
      parts := [.hif, .hqi, .vols, .asy, .heads, .decks, .chans, .mem, .dram] }
  | .prbsCtlWrite _ _ =>
    { regs := [F.LNK_PRBS_CTL_NEAR, F.LNK_PRBS_CTL_INV, F.LNK_PRBS_CTL_PAT, F.LNK_PRBS_CTL_CHK_EN, F.LNK_PRBS_CTL_GEN_EN,
        F.LNK_PRBS_ERR_LOCK, F.LNK_EVT_CFG_REJECT, F.LNK_EVT_FORCED, F.LNK_EVT_HEADS_HEAD] ++ narrowRegs,
      parts := [.lanes, .mem, .free] }
  | .farLoopbackD0 _ _ =>
    { regs := [F.LNK_HFE_CMD_BUSY, F.LNK_HFE_CMD_TIMEOUT, F.LNK_HFE_CMD_OP, F.LNK_HFE_CMD_PAT, F.LNK_HFE_CMD_LANE,
        F.LNK_EVT_CFG_REJECT, F.LNK_EVT_FORCED, F.LNK_EVT_HEADS_HEAD] ++ narrowRegs, parts := [.heads, .mem] }
  | .farLoopbackD1 _ _ =>
    { regs := [F.LNK_HFE_CMD_BUSY, F.LNK_HFE_CMD_TIMEOUT, F.LNK_HFE_CMD_OP, F.LNK_HFE_CMD_PAT, F.LNK_HFE_CMD_LANE,
        F.LNK_EVT_CFG_REJECT, F.LNK_EVT_FORCED, F.LNK_EVT_HEADS_HEAD] ++ narrowRegs, parts := [.heads, .mem] }
  | .farLoopbackEnd _ _ =>
    { regs := [F.LNK_HFE_CMD_BUSY, F.LNK_HFE_CMD_TIMEOUT, F.LNK_HFE_CMD_OP, F.LNK_HFE_CMD_PAT, F.LNK_HFE_CMD_LANE,
        F.LNK_EVT_CFG_REJECT, F.LNK_EVT_FORCED, F.LNK_EVT_HEADS_HEAD] ++ narrowRegs, parts := [.heads, .mem] }
  | .hfeGeneratorStart _ _ _ =>
    { regs := [F.LNK_HFE_CMD_BUSY, F.LNK_HFE_CMD_TIMEOUT, F.LNK_HFE_CMD_OP, F.LNK_HFE_CMD_PAT, F.LNK_HFE_CMD_LANE,
        F.LNK_EVT_CFG_REJECT, F.LNK_EVT_FORCED, F.LNK_EVT_HEADS_HEAD] ++ narrowRegs, parts := [.heads, .mem] }
  | .hfeGeneratorStop _ _ =>
    { regs := [F.LNK_HFE_CMD_BUSY, F.LNK_HFE_CMD_TIMEOUT, F.LNK_HFE_CMD_OP, F.LNK_HFE_CMD_PAT, F.LNK_HFE_CMD_LANE,
        F.LNK_EVT_CFG_REJECT, F.LNK_EVT_FORCED, F.LNK_EVT_HEADS_HEAD] ++ narrowRegs, parts := [.heads, .mem] }
  | .cmdTimeout _ =>
    { regs := [F.LNK_HFE_CMD_BUSY, F.LNK_HFE_CMD_TIMEOUT, F.LNK_EVT_CMD_TIMEOUT, F.LNK_EVT_FORCED, F.LNK_EVT_HEADS_HEAD] }
  | .eyeScanStart _ _ _ _ =>
    { regs := [F.LNK_EYE_CTL_DWELL, F.LNK_EYE_CTL_VOFS, F.LNK_EYE_CTL_HOFS, F.LNK_EYE_CTL_START, F.LNK_EYE_RESULT_DONE
        ] ++ narrowRegs, parts := [.mem] }
  | .eyeScanDone _ _ =>
    { regs := [F.LNK_EYE_CTL_START, F.LNK_EYE_RESULT_DONE, F.LNK_EYE_RESULT_ERRORS] }
  | .tickLeadWrite _ _ =>
    { regs := [F.LNK_TICK_LEAD_OVR, F.LNK_TICK_LEAD_LEAD, F.LNK_EVT_CFG_REJECT, F.LNK_EVT_FORCED, F.LNK_EVT_HEADS_HEAD
        ] ++ narrowRegs, parts := [.mem] }
  | .coefCommit _ _ =>
    { regs := [F.CLR_STATUS_COMMIT_PEND, F.CLR_COEF_COMMIT_PEND, F.CLR_COEF_COMMIT_ZERO_STATE] ++ narrowRegs,
      parts := [.mem] }
  | .coefCopy _ =>
    { regs := [F.CLR_STATUS_COMMIT_PEND, F.CLR_COEF_COMMIT_PEND, F.CLR_COEF_COMMIT_ZERO_STATE, F.CLR_COEF_COEF,
        F.CLR_COEF_LIVE_COEF, F.MEM_EVT_SRAM_UE, F.MEM_EVT_DRAM_UE, F.MEM_EVT_CE_OVERFLOW, F.MEM_EVT_FORCED,
        F.MEM_CE_STATUS_LEVEL, F.MEM_CE_STATUS_OVERFLOWS, F.MEM_CE_TOTAL_COUNT, F.MEM_UE_LOG_VALID, F.MEM_UE_LOG_CLASS,
        F.MEM_UE_LOG_POISON, F.MEM_UE_LOG_SOURCE, F.MEM_UE_LOG_COUNT, F.MEM_UE_ADDR_ADDR], parts := [.heads, .mem, .free] }
  | .rpEvaluation _ =>
    { regs := [F.CLR_EVT_RP_LIMIT, F.CLR_EVT_FORCED, F.CLR_RP_STATUS_CODE, F.CLR_RP_STATUS_ATLIM], parts := [.heads] }
  | .mediaOperationTake _ =>
    { regs := [F.GLB_EVT_TAKEOVER_REFUSED, F.GLB_EVT_TAKEOVER_DONE, F.GLB_EVT_FORCED, F.GLB_TAKEOVER_SERVED_BY_PARTNER,
        F.CLR_POS_LAYER, F.CLR_EVT_SEEK_FAIL, F.CLR_EVT_FORCED] ++ headOffRegs ++ engineRegs,
      parts := [.hif, .hqi, .vols, .asy, .heads, .decks, .chans, .mem, .dram] }
  | .acqFail _ =>
    { regs := [F.CLR_EVT_ACQ_FAIL, F.CLR_EVT_FORCED] ++ headOffRegs ++ engineRegs,
      parts := [.hif, .hqi, .vols, .asy, .heads, .decks, .chans, .mem, .dram] }
  | .jumpBrake _ =>
    { regs := [F.CLR_STATUS_PHASE, F.CLR_OUT_U], parts := [.heads] }
  | .jumpSettle _ =>
    { regs := [F.CLR_STATUS_PHASE, F.CLR_LOOP_CTL_CLOSED], parts := [.heads] }
  | .seekFail _ =>
    { regs := [F.GLB_EVT_TAKEOVER_REFUSED, F.GLB_EVT_FORCED, F.GLB_TAKEOVER_SERVED_BY_PARTNER, F.CLR_EVT_SEEK_FAIL,
        F.CLR_EVT_FORCED] ++ headOffRegs ++ engineRegs,
      parts := [.hif, .hqi, .vols, .asy, .heads, .decks, .chans, .mem, .dram] }
  | .sledArrived _ =>
    { regs := [F.CLR_STATUS_PHASE], parts := [.heads] }
  | .seekComplete _ =>
    { regs := [F.GLB_EVT_TAKEOVER_REFUSED, F.GLB_EVT_TAKEOVER_DONE, F.GLB_EVT_FORCED, F.GLB_TAKEOVER_SERVED_BY_PARTNER,
        F.CLR_POS_LAYER, F.CLR_EVT_SEEK_FAIL, F.CLR_EVT_FORCED] ++ headOffRegs ++ engineRegs,
      parts := [.hif, .hqi, .vols, .asy, .heads, .decks, .chans, .mem, .dram] }
  | .layerHopKick _ =>
    { regs := [F.CLR_STATUS_TF, F.CLR_STATUS_FOCUS_OK, F.CLR_STATUS_PHASE, F.CLR_LOOP_CTL_CLOSED, F.CLR_OUT_U,
        F.CHN_STATUS_STATE, F.CHN_STATUS_WOB_LOCK, F.CHN_EVT_TRUNC, F.CHN_EVT_FORCED, F.CHN_TRUNC_TRUNC, F.CHN_EVT_CHANS_CHAN
        ], parts := [.heads, .chans] }
  | .layerHopDone _ =>
    { regs := [F.CLR_STATUS_TRK_VALID, F.CLR_STATUS_TF, F.CLR_STATUS_FOCUS_OK, F.CLR_STATUS_PHASE, F.CLR_POS_EST,
        F.CLR_POS_LAYER, F.CLR_LOOP_CTL_CLOSED, F.CLR_OUT_U, F.CHN_STATUS_STATE, F.CHN_STATUS_WOB_LOCK, F.CHN_EVT_TRUNC,
        F.CHN_EVT_FORCED, F.CHN_TRUNC_TRUNC, F.CHN_EVT_CHANS_CHAN], parts := [.heads, .chans] }
  | .layerFail _ =>
    { regs := [F.CLR_EVT_LAYER_FAIL, F.CLR_EVT_FORCED] ++ acquireRegs, parts := [.heads, .chans] }
  | .angleLossPark _ =>
    { regs := headOffRegs ++ engineRegs, parts := [.hif, .hqi, .vols, .asy, .heads, .decks, .chans, .mem, .dram] }
  | .fixTimeout _ =>
    { regs := [F.WRP_EVT_GATE_CUT, F.WRP_GATE_CLOSES, F.WRP_GATE_CUTS] ++ engineRegs,
      parts := [.hif, .hqi, .vols, .asy, .heads, .decks, .mem, .dram] }
  | .holdExit _ =>
    { regs := [F.GLB_EVT_TAKEOVER_REFUSED, F.GLB_EVT_TAKEOVER_DONE, F.GLB_EVT_FORCED, F.GLB_TAKEOVER_SERVED_BY_PARTNER,
        F.CLR_POS_LAYER, F.CLR_EVT_SEEK_FAIL, F.CLR_EVT_FORCED] ++ headOffRegs ++ engineRegs,
      parts := [.hif, .hqi, .vols, .asy, .heads, .decks, .chans, .mem, .dram] }
  | .holdTimeout _ =>
    { regs := [F.CLR_EVT_HOLD_TIMEOUT, F.CLR_EVT_FORCED] ++ headFatalRegs ++ engineRegs,
      parts := [.hif, .hqi, .vols, .asy, .heads, .decks, .chans, .mem, .dram] }
  | .headFaultReset _ =>
    { regs := [F.GLB_HEAD_FAULT_HEAD, F.TCK_CLR_OVR_RECENT, F.CLR_STATUS_STATE, F.CLR_STATUS_TRK_VALID, F.CLR_STATUS_TF,
        F.CLR_STATUS_PERMIT, F.CLR_STATUS_FOCUS_OK, F.CLR_STATUS_HOLD_OVR, F.CLR_STATUS_PHASE, F.CLR_POS_EST, F.CLR_SAT_NFF,
        F.CLR_SAT_LOOP2, F.CLR_SAT_LOOP1, F.CLR_SAT_LOOP0, F.CLR_LOOP_CTL_CLOSED, F.CLR_OUT_U, F.CLR_SF_STATUS_LO,
        F.CLR_RP_STATUS_CODE, F.SLD_STATUS_STATE, F.SLD_STATUS_PHASE, F.SLD_STATUS_HOMED, F.SLD_EVT_SOFT_LIMIT,
        F.SLD_EVT_FORCED, F.SLD_EVT_AXES_AXIS, F.PWR_RESET_CAUSE_LAST, F.PWR_RESET_CAUSE_HEAD_DECK
        ] ++ engineRegs ++ linkDownRegs ++ narrowRegs,
      parts := [.hif, .hqi, .vols, .asy, .heads, .decks, .chans, .lanes, .mem] }
  | .collierEnable _ =>
    { regs := [F.CLR_CTL_EN, F.CLR_STATUS_STATE, F.CLR_STATUS_TRK_VALID, F.CLR_STATUS_TF, F.CLR_STATUS_PERMIT,
        F.CLR_STATUS_FOCUS_OK, F.CLR_STATUS_HOLD_OVR, F.CLR_STATUS_PHASE, F.CLR_POS_EST, F.CLR_LOOP_CTL_CLOSED, F.CLR_OUT_U,
        F.CLR_SF_STATUS_LO, F.CLR_RP_STATUS_CODE, F.SLD_STATUS_STATE, F.SLD_STATUS_PHASE, F.SLD_STATUS_HOMED,
        F.SLD_EVT_SOFT_LIMIT, F.SLD_EVT_FORCED, F.SLD_EVT_AXES_AXIS, F.LNK_DROP_TRUNC, F.LNK_EVT_FLUSH_TRUNC,
        F.LNK_EVT_FORCED, F.LNK_EVT_HEADS_HEAD, F.CHN_STATUS_STATE, F.CHN_STATUS_WOB_LOCK, F.CHN_EVT_TRUNC, F.CHN_TRUNC_TRUNC
        ] ++ engineRegs ++ narrowRegs, parts := [.hif, .hqi, .vols, .asy, .heads, .decks, .chans, .mem] }
  | .collierDisable _ =>
    { regs := [F.CLR_CTL_EN] ++ headOffRegs ++ engineRegs ++ narrowRegs,
      parts := [.hif, .hqi, .vols, .asy, .heads, .decks, .chans, .mem, .dram] }
  | .seedDone _ _ =>
    { regs := [F.LRN_EVT_SEED_DONE, F.LRN_EVT_FORCED, F.LRN_LOOP_STATUS_REVS, F.LRN_LOOP_STATUS_EMPTY,
        F.LRN_LOOP_STATUS_SEEDED, F.LRN_LOOP_STATUS_RESID] ++ engineRegs, parts := [.hif, .hqi, .vols, .asy, .heads, .decks] }
  | .seedRequest _ _ =>
    { regs := [F.LRN_EVT_SEED_REFUSED] ++ narrowRegs, parts := [.heads, .mem] }
  | .tableClear _ _ =>
    { regs := [F.LRN_EVT_CLEARED, F.LRN_EVT_SEED_REFUSED, F.LRN_LOOP_STATUS_REVS, F.LRN_LOOP_STATUS_EMPTY,
        F.LRN_LOOP_STATUS_SEEDED, F.LRN_LOOP_STATUS_RESID, F.LRN_ENTRY_W] ++ engineRegs ++ narrowRegs,
      parts := [.hif, .hqi, .vols, .asy, .heads, .decks, .mem] }
  | .sledTargetWrite _ _ =>
    { regs := [F.SLD_EVT_CFG_REJECT, F.SLD_EVT_SOFT_LIMIT, F.SLD_EVT_FORCED, F.SLD_EVT_AXES_AXIS] ++ narrowRegs,
      parts := [.heads, .mem] }
  | .groupGo _ =>
    { regs := narrowRegs, parts := [.heads, .mem] }
  | .sledStop _ =>
    { regs := narrowRegs, parts := [.heads, .mem] }
  | .sledPark _ =>
    { regs := [F.SLD_STATUS_STATE, F.SLD_EVT_SOFT_LIMIT, F.SLD_EVT_FORCED, F.SLD_EVT_AXES_AXIS] ++ narrowRegs,
      parts := [.heads, .mem] }
  | .sledHome _ =>
    { regs := [F.SLD_STATUS_STATE, F.SLD_STATUS_PHASE] ++ narrowRegs, parts := [.heads, .mem] }
  | .sledEnable _ =>
    { regs := [F.SLD_CTL_EN, F.SLD_STATUS_STATE] ++ narrowRegs, parts := [.heads, .mem] }
  | .sledDisable _ =>
    { regs := [F.SLD_CTL_EN, F.SLD_STATUS_STATE, F.SLD_STATUS_PHASE, F.SLD_STATUS_HOMED] ++ narrowRegs,
      parts := [.heads, .mem] }
  | .limitDebounced _ =>
    { regs := [F.SLD_STATUS_STATE, F.SLD_STATUS_PHASE, F.SLD_STATUS_HOMED, F.SLD_STATUS_SWITCH, F.SLD_EVT_LIMIT_HIT,
        F.SLD_EVT_FORCED, F.SLD_EVT_AXES_AXIS], parts := [.heads] }
  | .homeFail _ =>
    { regs := [F.SLD_STATUS_SWITCH, F.SLD_HOME_STATUS_TRAVEL, F.SLD_EVT_HOME_FAIL, F.SLD_EVT_LIMIT_HIT
        ] ++ headFatalRegs ++ engineRegs, parts := [.hif, .hqi, .vols, .asy, .heads, .decks, .chans, .mem, .dram] }
  | .deckLoad _ =>
    { regs := [F.GLB_DECK_FAULT_DECK, F.WND_STATUS_STATE, F.WND_STATUS_PHASE, F.WND_EVT_CFG_REJECT, F.WND_EVT_FORCED
        ] ++ narrowRegs, parts := [.hif, .heads, .mem] }
  | .deckStart _ =>
    { regs := [F.GLB_DECK_FAULT_DECK, F.WND_STATUS_STATE, F.WND_STATUS_PHASE, F.WND_STATUS_ANGLE_VALID, F.WND_STATUS_LOCKED,
        F.WND_STATUS_REF, F.WND_STATUS_CHOP_ON, F.WND_STATUS_SHORT, F.WND_STATUS_SECTOR, F.WND_EVT_CFG_REJECT,
        F.WND_EVT_FORCED] ++ narrowRegs, parts := [.hif, .decks, .mem] }
  | .deckStop _ =>
    { regs := [F.GLB_DECK_FAULT_DECK, F.WND_STATUS_STATE, F.WND_STATUS_PHASE, F.WND_EVT_CFG_REJECT, F.WND_EVT_FORCED
        ] ++ narrowRegs, parts := [.hif, .decks, .mem] }
  | .deckUnload _ =>
    { regs := [F.GLB_DECK_FAULT_DECK, F.LRN_EVT_CLEARED, F.LRN_LOOP_STATUS_REVS, F.LRN_LOOP_STATUS_EMPTY,
        F.LRN_LOOP_STATUS_SEEDED, F.LRN_LOOP_STATUS_RESID, F.LRN_ENTRY_W, F.WND_STATUS_STATE, F.WND_STATUS_PHASE,
        F.WND_EVT_CFG_REJECT, F.WND_EVT_FORCED] ++ narrowRegs, parts := [.hif, .heads, .mem] }
  | .deckFaultReset _ _ =>
    { regs := [F.GLB_DECK_FAULT_DECK, F.WND_STATUS_STATE, F.WND_STATUS_PHASE, F.WND_EVT_CFG_REJECT, F.WND_EVT_FORCED,
        F.PWR_RESET_CAUSE_LAST, F.PWR_RESET_CAUSE_HEAD_DECK] ++ narrowRegs, parts := [.hif, .decks, .mem] }
  | .speedTargetWrite _ _ =>
    { regs := [F.WND_EVT_CFG_REJECT, F.WND_EVT_FORCED, F.WND_SPEED_SET_TARGET] ++ narrowRegs, parts := [.mem] }
  | .overcurrent _ =>
    { regs := [F.WND_STATUS_LOCKED, F.WND_STATUS_REF, F.WND_STATUS_CHOP_ON, F.WND_EVT_OVERCURRENT, F.WND_EVT_FORCED,
        F.WRP_EVT_CAT_FULL, F.WRP_EVT_PAD] ++ deckFatalRegs,
      parts := [.hif, .hqi, .vols, .asy, .heads, .decks, .chans, .mem, .dram] }
  | .drvFault _ =>
    { regs := [F.WND_STATUS_LOCKED, F.WND_STATUS_REF, F.WND_STATUS_CHOP_ON, F.WND_EVT_DRV_FAULT, F.WND_EVT_FORCED,
        F.WRP_EVT_CAT_FULL, F.WRP_EVT_PAD] ++ deckFatalRegs,
      parts := [.hif, .hqi, .vols, .asy, .heads, .decks, .chans, .mem, .dram] }
  | .gateHoldEnd _ _ _ =>
    { regs := [F.WND_STATUS_SHORT, F.WND_STATUS_AT_REST, F.WND_STATUS_SECTOR], parts := [.decks] }
  | .pillarReport _ =>
    { regs := [F.WND_STATUS_REF, F.WND_EVT_REF_JUMP, F.WND_EVT_REF_STEP, F.WND_EVT_FORCED, F.WND_OFFSET_OFFSET,
        F.WND_PILLAR_MAXRES, F.WND_PILLAR_RESID, F.WND_COUNTS_REF], parts := [.decks] }
  | .spinMeasureEnd _ =>
    { regs := [F.WND_STATUS_PHASE, F.WND_CATCH_SPEED, F.WND_CATCH_RESULT], parts := [.decks] }
  | .alignEnd _ =>
    { regs := [F.WND_STATUS_PHASE], parts := [.decks] }
  | .handoverTimeout _ =>
    { regs := [F.WND_STATUS_LOCKED, F.WND_STATUS_REF, F.WND_STATUS_CHOP_ON, F.WND_EVT_SPIN_FAIL, F.WND_EVT_FORCED,
        F.WRP_EVT_CAT_FULL, F.WRP_EVT_PAD] ++ deckFatalRegs,
      parts := [.hif, .hqi, .vols, .asy, .heads, .decks, .chans, .mem, .dram] }
  | .spinFail _ =>
    { regs := [F.WND_EVT_SPIN_FAIL, F.WND_EVT_FORCED, F.WRP_EVT_CAT_FULL, F.WRP_EVT_PAD] ++ deckFatalRegs,
      parts := [.hif, .hqi, .vols, .asy, .heads, .decks, .chans, .mem, .dram] }
  | .shortHoldEnd _ =>
    { regs := [F.WND_STATUS_ANGLE_VALID, F.WND_STATUS_LOCKED, F.WND_STATUS_REF, F.WND_STATUS_CHOP_ON, F.WND_STATUS_SHORT,
        F.WND_STATUS_SECTOR], parts := [.decks] }
  | .stopped _ =>
    { regs := [F.LRN_MOUNT_MOUNT, F.LRN_EVT_CLEARED, F.LRN_EVT_FORCED, F.LRN_LOOP_STATUS_REVS, F.LRN_LOOP_STATUS_EMPTY,
        F.LRN_LOOP_STATUS_SEEDED, F.LRN_LOOP_STATUS_RESID, F.LRN_ENTRY_W, F.WND_MOTOR_CLASS, F.WND_MOTOR_P,
        F.WND_MOTOR_SPD_MIN, F.WND_MOTOR_SPD_MAX, F.WND_EVT_STOPPED, F.WND_EVT_FORCED, F.WND_MODEL_RL_RS, F.WND_MODEL_RL_LS,
        F.WND_MODEL_KE_I_FS, F.WND_MODEL_KE_KE, F.SLD_GEOM_HOME_DIR, F.SLD_GEOM_GROUP, F.SLD_GEOM_MICRO, F.SLD_GEOM_STEP_PM,
        F.SLD_AHARD_AHARD] ++ engineRegs, parts := [.hif, .hqi, .vols, .asy, .heads, .decks, .mem] }
  | .channelEnable _ =>
    { regs := [F.CHN_CTL_EN, F.CHN_STATUS_STATE, F.CHN_EVT_RATE_LIMIT] ++ narrowRegs, parts := [.chans, .mem] }
  | .channelDisable _ =>
    { regs := [F.CHN_CTL_EN, F.CHN_STATUS_STATE, F.CHN_STATUS_WOB_LOCK, F.CHN_EVT_TRUNC, F.CHN_TRUNC_TRUNC] ++ narrowRegs,
      parts := [.chans, .mem] }
  | .channelLock _ =>
    { regs := [F.CHN_STATUS_STATE, F.CHN_STATUS_WOB_LOCK, F.CHN_STATUS_ZONE, F.CHN_STATUS_LAYER, F.CHN_WOB_STATUS_PILLAR,
        F.CHN_WOB_STATUS_WOBBLE, F.CHN_EVT_TABLE_ECC, F.CHN_EVT_RATE_LIMIT, F.CHN_EVT_FORCED, F.CHN_EQ_TAP_TAP,
        F.CHN_CORR_GAIN, F.CHN_CORR_OFS, F.CHN_CORR_ASYM_ASYM, F.CHN_EVT_CHANS_CHAN, F.CHN_ZONE_GAIN, F.CHN_ZONE_OFS,
        F.CHN_ZONE_ASYM, F.CHN_EQ_START_TAP, F.MEM_EVT_SRAM_UE, F.MEM_EVT_DRAM_UE, F.MEM_EVT_CE_OVERFLOW, F.MEM_EVT_FORCED,
        F.MEM_CE_STATUS_LEVEL, F.MEM_CE_STATUS_OVERFLOWS, F.MEM_CE_TOTAL_COUNT, F.MEM_UE_LOG_VALID, F.MEM_UE_LOG_CLASS,
        F.MEM_UE_LOG_POISON, F.MEM_UE_LOG_SOURCE, F.MEM_UE_LOG_COUNT, F.MEM_UE_ADDR_ADDR], parts := [.chans, .mem] }
  | .lockTimeout _ =>
    { regs := [F.CHN_WOB_STATUS_PILLAR, F.CHN_WOB_STATUS_WOBBLE, F.CHN_EVT_WOB_UNLOCK, F.CHN_EVT_FORCED, F.CHN_EVT_CHANS_CHAN
        ], parts := [.chans] }
  | .pillarDetect _ _ =>
    { regs := [F.CLR_STATUS_TRK_VALID, F.CLR_POS_EST, F.CLR_POS_ZONE, F.CLR_POS_TRACK, F.CHN_STATUS_STATE,
        F.CHN_STATUS_WOB_LOCK, F.CHN_STATUS_POS_ERR, F.CHN_STATUS_ZONE, F.CHN_STATUS_LAYER, F.CHN_WOB_STATUS_PERR,
        F.CHN_WOB_STATUS_PILLAR, F.CHN_WOB_STATUS_WOBBLE, F.CHN_EVT_TABLE_ECC, F.CHN_EVT_RATE_LIMIT, F.CHN_EVT_WOB_UNLOCK,
        F.CHN_EVT_PILLAR_LOST, F.CHN_EVT_POS_MISMATCH, F.CHN_EVT_TRUNC, F.CHN_EVT_PCOUNT_FIX, F.CHN_EVT_PILLAR_MISS,
        F.CHN_EVT_FORCED, F.CHN_EQ_TAP_TAP, F.CHN_CORR_GAIN, F.CHN_CORR_OFS, F.CHN_CORR_ASYM_ASYM, F.CHN_PILLAR_MATCH,
        F.CHN_PILLAR_SIDE, F.CHN_PILLAR_LAYER, F.CHN_PILLAR_BAND, F.CHN_PILLAR_TRACK, F.CHN_PILLAR_PILLAR,
        F.CHN_PILLAR_STATS_MISSED, F.CHN_PILLAR_STATS_CRC_ERR, F.CHN_PILLAR_STATS_MISMATCH, F.CHN_TRUNC_TRUNC,
        F.CHN_EVT_CHANS_CHAN, F.CHN_ZONE_GAIN, F.CHN_ZONE_OFS, F.CHN_ZONE_ASYM, F.CHN_EQ_START_TAP, F.MEM_EVT_SRAM_UE,
        F.MEM_EVT_DRAM_UE, F.MEM_EVT_CE_OVERFLOW, F.MEM_EVT_FORCED, F.MEM_CE_STATUS_LEVEL, F.MEM_CE_STATUS_OVERFLOWS,
        F.MEM_CE_TOTAL_COUNT, F.MEM_UE_LOG_VALID, F.MEM_UE_LOG_CLASS, F.MEM_UE_LOG_POISON, F.MEM_UE_LOG_SOURCE,
        F.MEM_UE_LOG_COUNT, F.MEM_UE_ADDR_ADDR], parts := [.heads, .decks, .chans, .mem] }
  | .zoneReload _ =>
    { regs := narrowRegs, parts := [.chans, .mem] }
  | .driftSlot _ _ =>
    { regs := [F.CHN_EVT_SYNC_MISS, F.CHN_EVT_FORCED, F.CHN_SYNC_STATS_FOUND, F.CHN_SYNC_STATS_MISSED, F.CHN_SYNC_LAST_SCORE,
        F.CHN_SYNC_LAST_OFFSET, F.CHN_SYNC_LAST_CANDS, F.CHN_DEF_STATS_BLANKS, F.CHN_DRIFTS_DELIVERED, F.CHN_DRIFTS_INFERRED,
        F.CHN_EVT_CHANS_CHAN, F.ASY_UNCLAIMED_COUNT, F.ASY_SLOT_ID_RETAIN, F.PRC_STATUS_WITHHOLD, F.PRC_EVT_OVERFLOW,
        F.PRC_EVT_WITHHELD, F.PRC_EVT_RESUMED, F.PRC_EVT_FORCED, F.PRC_STATS_WITHHELD, F.PRC_STATS_OVERFLOW, F.PRC_PEAK_PEAK],
      parts := [.asy, .heads, .chans] }
  | .defect _ =>
    { regs := [F.CHN_STATUS_DEFECT, F.CHN_EVT_DEFECT, F.CHN_EVT_FORCED, F.CHN_DEF_STATS_DEFECTS, F.CHN_EVT_CHANS_CHAN],
      parts := [.chans] }
  | .driftDelivered _ =>
    { regs := [F.CHN_MSE_MSE, F.CHN_DRIFTS_DELIVERED, F.ASY_EVT_INNER_MISC, F.ASY_EVT_INNER_FAIL, F.ASY_EVT_FORCED,
        F.ASY_DRIFTS_INNER_FAIL, F.ASY_DRIFTS_INNER_MISC, F.ASY_UNCLAIMED_COUNT, F.ASY_SLOT_UNSOUND, F.ASY_SLOT_ID_RETAIN,
        F.PRC_STATUS_WITHHOLD, F.PRC_EVT_OVERFLOW, F.PRC_EVT_WITHHELD, F.PRC_EVT_RESUMED, F.PRC_EVT_FORCED,
        F.PRC_STATS_WITHHELD, F.PRC_STATS_OVERFLOW, F.PRC_PEAK_PEAK, F.LCA_EVT_POISON_WB, F.LCA_EVT_FORCED, F.LCA_HITS_COUNT,
        F.LCA_MISSES_COUNT], parts := [.asy, .heads, .chans, .mem, .dram] }
  | .innerDecodeDone _ =>
    { regs := [F.ASY_EVT_INNER_MISC, F.ASY_EVT_INNER_FAIL, F.ASY_EVT_FORCED, F.ASY_DRIFTS_INNER_FAIL, F.ASY_DRIFTS_INNER_MISC,
        F.ASY_SLOT_UNSOUND, F.LCA_EVT_POISON_WB, F.LCA_EVT_FORCED, F.LCA_HITS_COUNT, F.LCA_MISSES_COUNT],
      parts := [.asy, .chans, .mem, .dram] }
  | .lodeEnd _ _ =>
    { regs := [F.ASY_SLOT_STATE, F.ASY_SLOT_READS], parts := [.asy, .heads, .mem, .dram] }
  | .jobStart _ =>
    { regs := [F.ASY_ENG_STATUS_BUSY, F.ASY_ENG_STATUS_RUNG, F.ASY_ENG_STATUS_SLOT, F.ASY_SLOT_STATE, F.ASY_SLOT_RUNG],
      parts := [.asy] }
  | .jobDone _ _ _ _ =>
    { regs := [F.TCK_EVT_ASY_MISS, F.TCK_EVT_FORCED, F.TCK_ASY_MISS_COUNT, F.ASY_EVT_BUF_ECC, F.ASY_EVT_MISCORRECT,
        F.ASY_EVT_SLIP, F.ASY_MISC_GUARD_FAIL, F.ASY_MISC_SLIP_FOUND, F.ASY_ENG_STATUS_BUSY, F.ASY_ENG_STATUS_RUNG,
        F.ASY_ENG_STATUS_SLOT, F.PRC_EVT_ENTRY_ECC, F.PRC_STATS2_ENTRY_ECC, F.LCA_EVT_POISON_WB, F.LCA_EVT_FORCED
        ] ++ outcomeRegs ++ engineRegs, parts := [.hif, .hqi, .vols, .asy, .heads, .decks, .mem, .dram] }
  | .entryLink _ =>
    { regs := [F.PRC_STATUS_WITHHOLD, F.PRC_EVT_WITHHELD, F.PRC_EVT_RESUMED, F.PRC_EVT_FORCED, F.PRC_PEAK_PEAK],
      parts := [.asy, .mem, .dram] }
  | .prcFlush _ =>
    { regs := [F.PRC_STATUS_WITHHOLD, F.PRC_EVT_FLUSH_TRUNC, F.PRC_EVT_WITHHELD, F.PRC_EVT_RESUMED, F.PRC_EVT_FORCED,
        F.PRC_STATS2_TRUNC, F.PRC_PEAK_PEAK] ++ narrowRegs, parts := [.asy, .mem] }
  | .lingerExpiry _ _ =>
    { regs := [F.WRP_EVT_PAD, F.WRP_EVT_FORCED], parts := [.vols] }
  | .writeOperationIssue _ =>
    { regs := engineRegs, parts := [.hif, .hqi, .vols, .asy, .heads, .decks] }
  | .prepAtPosition _ =>
    { regs := [F.GLB_EVT_TAKEOVER_REFUSED, F.GLB_EVT_TAKEOVER_DONE, F.GLB_EVT_FORCED, F.GLB_TAKEOVER_SERVED_BY_PARTNER,
        F.CLR_POS_LAYER, F.CLR_EVT_SEEK_FAIL, F.CLR_EVT_FORCED, F.WRP_POWER_VALID, F.WRP_POWER_WSTRAT, F.WRP_POWER_PEAK,
        F.WRP_POWER_BIAS, F.WRP_POWER_COOL, F.MEM_EVT_SRAM_UE, F.MEM_EVT_DRAM_UE, F.MEM_EVT_CE_OVERFLOW, F.MEM_EVT_FORCED,
        F.MEM_CE_STATUS_LEVEL, F.MEM_CE_STATUS_OVERFLOWS, F.MEM_CE_TOTAL_COUNT, F.MEM_UE_LOG_VALID, F.MEM_UE_LOG_CLASS,
        F.MEM_UE_LOG_POISON, F.MEM_UE_LOG_SOURCE, F.MEM_UE_LOG_COUNT, F.MEM_UE_ADDR_ADDR] ++ headOffRegs ++ engineRegs,
      parts := [.hif, .hqi, .vols, .asy, .heads, .decks, .chans, .mem, .free, .dram] }
  | .calibrationRevsEnd _ =>
    { regs := [F.GLB_EVT_TAKEOVER_REFUSED, F.GLB_EVT_TAKEOVER_DONE, F.GLB_EVT_FORCED, F.GLB_TAKEOVER_SERVED_BY_PARTNER,
        F.CLR_POS_LAYER, F.CLR_EVT_SEEK_FAIL, F.CLR_EVT_FORCED, F.WRP_EVT_CAL_EXHAUSTED, F.WRP_EVT_CAL_FAIL,
        F.WRP_EVT_CAL_DONE, F.WRP_SKIPS_CAL_RUNS, F.WRP_POWER_VALID, F.WRP_POWER_WSTRAT, F.WRP_POWER_PEAK, F.WRP_POWER_BIAS,
        F.WRP_POWER_COOL, F.MEM_EVT_SRAM_UE, F.MEM_EVT_DRAM_UE, F.MEM_EVT_CE_OVERFLOW, F.MEM_EVT_FORCED,
        F.MEM_CE_STATUS_LEVEL, F.MEM_CE_STATUS_OVERFLOWS, F.MEM_CE_TOTAL_COUNT, F.MEM_UE_LOG_VALID, F.MEM_UE_LOG_CLASS,
        F.MEM_UE_LOG_POISON, F.MEM_UE_LOG_SOURCE, F.MEM_UE_LOG_COUNT, F.MEM_UE_ADDR_ADDR] ++ headOffRegs ++ engineRegs,
      parts := [.hif, .hqi, .vols, .asy, .heads, .decks, .chans, .mem, .free, .dram] }
  | .writeRevolutionEnd _ =>
    { regs := [F.CLR_STATUS_STATE, F.CLR_STATUS_TRK_VALID, F.CLR_STATUS_TF, F.CLR_STATUS_PERMIT, F.CLR_STATUS_FOCUS_OK,
        F.CLR_STATUS_HOLD_OVR, F.CLR_STATUS_PHASE, F.CLR_POS_EST, F.CLR_LOOP_CTL_CLOSED, F.CLR_OUT_U, F.CLR_SF_STATUS_LO,
        F.CLR_RP_STATUS_CODE, F.SLD_STATUS_STATE, F.SLD_STATUS_PHASE, F.SLD_STATUS_HOMED, F.SLD_EVT_SOFT_LIMIT,
        F.SLD_EVT_FORCED, F.SLD_EVT_AXES_AXIS, F.LNK_DROP_TRUNC, F.LNK_EVT_FLUSH_TRUNC, F.LNK_EVT_FORCED,
        F.LNK_EVT_HEADS_HEAD, F.CHN_STATUS_STATE, F.CHN_STATUS_WOB_LOCK, F.CHN_EVT_TRUNC, F.CHN_EVT_FORCED, F.CHN_TRUNC_TRUNC,
        F.CHN_EVT_CHANS_CHAN] ++ engineRegs, parts := [.hif, .hqi, .vols, .asy, .heads, .decks, .chans] }
  | .verifyRevolutionEnd _ =>
    { regs := [F.CLR_STATUS_STATE, F.CLR_STATUS_TRK_VALID, F.CLR_STATUS_TF, F.CLR_STATUS_PERMIT, F.CLR_STATUS_FOCUS_OK,
        F.CLR_STATUS_HOLD_OVR, F.CLR_STATUS_PHASE, F.CLR_POS_EST, F.CLR_LOOP_CTL_CLOSED, F.CLR_OUT_U, F.CLR_SF_STATUS_LO,
        F.CLR_RP_STATUS_CODE, F.SLD_STATUS_STATE, F.SLD_STATUS_PHASE, F.SLD_STATUS_HOMED, F.SLD_EVT_SOFT_LIMIT,
        F.SLD_EVT_FORCED, F.SLD_EVT_AXES_AXIS, F.LNK_DROP_TRUNC, F.LNK_EVT_FLUSH_TRUNC, F.LNK_EVT_FORCED,
        F.LNK_EVT_HEADS_HEAD, F.CHN_STATUS_STATE, F.CHN_STATUS_WOB_LOCK, F.CHN_EVT_TRUNC, F.CHN_EVT_FORCED, F.CHN_TRUNC_TRUNC,
        F.CHN_EVT_CHANS_CHAN] ++ engineRegs, parts := [.hif, .hqi, .vols, .asy, .heads, .decks, .chans, .mem, .dram] }
  | .resolve _ =>
    { regs := [F.GLB_EVT_TAKEOVER_REFUSED, F.GLB_EVT_TAKEOVER_DONE, F.GLB_EVT_FORCED, F.GLB_TAKEOVER_SERVED_BY_PARTNER,
        F.CLR_POS_LAYER, F.CLR_EVT_SEEK_FAIL, F.CLR_EVT_FORCED, F.WRP_EVT_SEAM_EXHAUSTED, F.WRP_EVT_SPARED,
        F.WRP_EVT_LODE_REJECT, F.WRP_LODES_ACCEPTED, F.WRP_LODES_REJECTED, F.WRP_SKIPS_SKIPPED] ++ headOffRegs ++ engineRegs,
      parts := [.hif, .hqi, .vols, .asy, .heads, .decks, .chans, .mem, .dram] }
  | .wpRecovered _ _ =>
    { regs := [F.WRP_EVT_WP_RECOVERED] ++ engineRegs, parts := [.hif, .hqi, .vols, .asy, .heads, .decks] }
  | .verifyOnlyLoadDone _ =>
    { anyReg := true, parts := [.tick, .tck, .hif, .hqi, .vols, .asy, .heads, .decks, .chans, .lanes, .mem, .cfg, .trl, .cal,
        .pwr, .free, .dram] }
  | .flrComplete _ =>
    { regs := [F.ASY_SLOT_READS, F.ASY_SLOT_RUNG, F.ASY_SLOT_MISSES, F.ASY_SLOT_ID_RETAIN, F.PRC_STATUS_WITHHOLD,
        F.PRC_EVT_WITHHELD, F.PRC_EVT_RESUMED, F.PRC_EVT_FORCED, F.PRC_PEAK_PEAK, F.WRP_EVT_SEAM_EXHAUSTED, F.WRP_EVT_SPARED,
        F.WRP_EVT_FORCED, F.WRP_SKIPS_SKIPPED, F.WRP_SEAM_SEALED, F.WRP_SEAM_EXHAUSTED, F.WRP_SEAM_NSKIP, F.WRP_SEAM_LODES,
        F.WRP_SPARE_VALID, F.WRP_SPARE_REASON, F.WRP_SPARE_LODE, F.WRP_SPARE_POS, F.MEM_EVT_SRAM_UE, F.MEM_EVT_DRAM_UE,
        F.MEM_EVT_CE_OVERFLOW, F.MEM_EVT_FORCED, F.MEM_CE_STATUS_LEVEL, F.MEM_CE_STATUS_OVERFLOWS, F.MEM_CE_TOTAL_COUNT,
        F.MEM_UE_LOG_VALID, F.MEM_UE_LOG_CLASS, F.MEM_UE_LOG_POISON, F.MEM_UE_LOG_SOURCE, F.MEM_UE_LOG_COUNT,
        F.MEM_UE_ADDR_ADDR, F.LCA_HITS_COUNT, F.LCA_MISSES_COUNT] ++ thawRegs,
      parts := [.hif, .hqi, .vols, .asy, .heads, .mem] }
  | .configRequest _ _ =>
    { regs := [F.WRP_EVT_SEAM_EXHAUSTED, F.WRP_EVT_SPARED, F.WRP_SKIPS_SKIPPED, F.MEM_EVT_SRAM_UE, F.MEM_EVT_DRAM_UE,
        F.MEM_EVT_CE_OVERFLOW, F.MEM_EVT_FORCED, F.MEM_CE_STATUS_LEVEL, F.MEM_CE_STATUS_OVERFLOWS, F.MEM_CE_TOTAL_COUNT,
        F.MEM_UE_LOG_VALID, F.MEM_UE_LOG_CLASS, F.MEM_UE_LOG_POISON, F.MEM_UE_LOG_SOURCE, F.MEM_UE_LOG_COUNT,
        F.MEM_UE_ADDR_ADDR, F.LCA_HITS_COUNT, F.LCA_MISSES_COUNT] ++ engineRegs,
      parts := [.hif, .hqi, .vols, .asy, .heads, .decks, .mem] }
  | .linkUp _ _ =>
    { regs := [F.HIF_LINK_DL_ACTIVE, F.HIF_LINK_DEGRADED, F.HIF_LINK_SPEED, F.HIF_LINK_WIDTH, F.HIF_EVT_LINK_DEGRADED,
        F.HIF_EVT_FORCED, F.WRP_EVT_SEAM_EXHAUSTED, F.WRP_EVT_SPARED, F.WRP_SKIPS_SKIPPED, F.MEM_EVT_SRAM_UE,
        F.MEM_EVT_DRAM_UE, F.MEM_EVT_CE_OVERFLOW, F.MEM_EVT_FORCED, F.MEM_CE_STATUS_LEVEL, F.MEM_CE_STATUS_OVERFLOWS,
        F.MEM_CE_TOTAL_COUNT, F.MEM_UE_LOG_VALID, F.MEM_UE_LOG_CLASS, F.MEM_UE_LOG_POISON, F.MEM_UE_LOG_SOURCE,
        F.MEM_UE_LOG_COUNT, F.MEM_UE_ADDR_ADDR, F.LCA_HITS_COUNT, F.LCA_MISSES_COUNT] ++ engineRegs,
      parts := [.hif, .hqi, .vols, .asy, .heads, .decks, .mem] }
  | .completionReceived _ _ _ =>
    { regs := [F.HIF_EVT_POISON_RX, F.HIF_EVT_UNEXP_CPL, F.HIF_EVT_FORCED, F.HIF_CPL_ERR_UNEXP, F.HIF_RX_ERR_POISON_RX,
        F.HQI_EVT_QUEUE_ERR, F.HQI_EVT_FORCED, F.HQI_QP_STATUS_ENABLED, F.HQI_QP_STATUS_ERR, F.HQI_QP_STATUS_CAUSE,
        F.LCA_EVT_POISON_WB, F.LCA_EVT_FORCED, F.LCA_HITS_COUNT, F.LCA_MISSES_COUNT, F.CFG_EVT_PIECE_REJECT, F.CFG_EVT_FORCED,
        F.CFG_STAGE_STATUS_STATE, F.CFG_STAGE_STATUS_COUNT, F.CFG_STAGE_STATUS_RECEIVED, F.CFG_STAGE_EPOCH_LO_EPOCH,
        F.CFG_STAGE_EPOCH_HI_EPOCH, F.CFG_STAGE_REJECT_LAST, F.CFG_STAGE_REJECT_COUNT] ++ engineRegs,
      parts := [.hif, .hqi, .vols, .asy, .heads, .decks, .mem, .cfg, .dram] }
  | .cplTimeout _ =>
    { regs := [F.HIF_EVT_CPL_TIMEOUT, F.HIF_EVT_FORCED, F.HIF_CPL_ERR_TIMEOUT, F.HQI_EVT_QUEUE_ERR, F.HQI_EVT_FORCED,
        F.HQI_QP_STATUS_ENABLED, F.HQI_QP_STATUS_ERR, F.HQI_QP_STATUS_CAUSE] ++ engineRegs,
      parts := [.hif, .hqi, .vols, .asy, .heads, .decks] }
  | .peerRead _ _ _ =>
    { regs := [F.HIF_EVT_PEER_UR, F.HIF_RX_ERR_PEER_UR, F.MEM_EVT_SRAM_UE, F.MEM_EVT_DRAM_UE, F.MEM_EVT_CE_OVERFLOW,
        F.MEM_EVT_FORCED, F.MEM_CE_STATUS_LEVEL, F.MEM_CE_STATUS_OVERFLOWS, F.MEM_CE_TOTAL_COUNT, F.MEM_UE_LOG_VALID,
        F.MEM_UE_LOG_CLASS, F.MEM_UE_LOG_POISON, F.MEM_UE_LOG_SOURCE, F.MEM_UE_LOG_COUNT, F.MEM_UE_ADDR_ADDR,
        F.LCA_EVT_TAG_UE, F.LCA_EVT_FORCED, F.LCA_HITS_COUNT, F.LCA_MISSES_COUNT] ++ deviceFatalRegs ++ engineRegs,
      parts := [.hif, .hqi, .vols, .asy, .heads, .decks, .chans, .mem, .cfg, .dram] }
  | .peerWrite _ _ _ =>
    { regs := [F.HIF_EVT_PEER_UR, F.HIF_RX_ERR_PEER_UR, F.MEM_EVT_PARTIAL_DISCARD, F.MEM_EVT_FORCED, F.MEM_PWD_LOG_KIND,
        F.MEM_PWD_LOG_COUNT, F.MEM_PWD_ADDR_ADDR, F.LCA_EVT_TAG_UE, F.LCA_EVT_FORCED, F.LCA_HITS_COUNT, F.LCA_MISSES_COUNT
        ] ++ deviceFatalRegs ++ engineRegs, parts := [.hif, .hqi, .vols, .asy, .heads, .decks, .chans, .mem, .cfg, .dram] }
  | .windowCommit _ =>
    { regs := narrowRegs, parts := [.hif, .mem] }
  | .msixVectorUnmask _ _ =>
    { regs := [], parts := [.hif] }
  | .badRegisterAccess _ _ =>
    { regs := [F.HIF_EVT_CFG_REJECT, F.HIF_EVT_FORCED] }
  | .queuePairEnable _ =>
    { regs := [F.HQI_EVT_CFG_REJECT, F.HQI_EVT_FORCED, F.HQI_QP_CTL_EN, F.HQI_QP_STATUS_ENABLED, F.HQI_QP_STATUS_ERR,
        F.HQI_QP_STATUS_CAUSE, F.HQI_QP_STATUS_CQ_TAIL, F.HQI_QP_STATUS_SQ_HEAD, F.HQI_SQ_TAIL_TAIL, F.HQI_CQ_HEAD_HEAD],
      parts := [.hqi] }
  | .queuePairDisable _ =>
    { regs := [F.HQI_QP_CTL_EN, F.HQI_QP_STATUS_ENABLED, F.HQI_QP_STATUS_ERR, F.HQI_QP_STATUS_CAUSE] }
  | .sqTailDoorbell _ _ =>
    { regs := [F.HQI_EVT_QUEUE_ERR, F.HQI_EVT_FORCED, F.HQI_QP_STATUS_ERR, F.HQI_QP_STATUS_CAUSE, F.HQI_SQ_TAIL_TAIL] }
  | .cqHeadDoorbell _ _ =>
    { regs := [F.HQI_EVT_QUEUE_ERR, F.HQI_EVT_FORCED, F.HQI_QP_STATUS_ERR, F.HQI_QP_STATUS_CAUSE, F.HQI_CQ_HEAD_HEAD],
      parts := [.hqi] }
  | .completionPost _ =>
    { regs := [F.HQI_QP_STATUS_ENABLED, F.HQI_QP_STATUS_ERR, F.HQI_QP_STATUS_CAUSE, F.HQI_QP_STATUS_CQ_TAIL],
      parts := [.hif, .hqi] }
  | .coalTimeExpiry _ =>
    { regs := [], parts := [.hif, .hqi] }
  | .selfTestDone _ =>
    { regs := [F.HQI_EVT_SELF_TEST_DONE, F.HQI_EVT_FORCED], parts := [.hqi] }
  | .configPiece _ =>
    { regs := engineRegs, parts := [.hif, .hqi, .vols, .asy, .heads, .decks] }
  | .volumeMountProceed _ =>
    { regs := [F.WND_STATUS_ANGLE_VALID, F.WND_STATUS_LOCKED, F.WND_STATUS_REF, F.WND_STATUS_CHOP_ON, F.WND_STATUS_SHORT,
        F.WND_STATUS_SECTOR, F.WND_EVT_CFG_REJECT, F.WND_EVT_FORCED] ++ engineRegs,
      parts := [.hif, .hqi, .vols, .asy, .heads, .decks] }
  | .scrubDone _ =>
    { regs := [F.MEM_EVT_SCRUB_DONE, F.MEM_EVT_SRAM_UE, F.MEM_EVT_DRAM_UE, F.MEM_EVT_CE_OVERFLOW, F.MEM_EVT_FORCED,
        F.MEM_CE_STATUS_LEVEL, F.MEM_CE_STATUS_OVERFLOWS, F.MEM_CE_TOTAL_COUNT, F.MEM_UE_LOG_VALID, F.MEM_UE_LOG_CLASS,
        F.MEM_UE_LOG_POISON, F.MEM_UE_LOG_SOURCE, F.MEM_UE_LOG_COUNT, F.MEM_UE_ADDR_ADDR, F.MEM_DSCRUB_STATUS_BUSY,
        F.MEM_DSCRUB_STATUS_DONE, F.MEM_DSCRUB_STATUS_STOPPED, F.MEM_DSCRUB_STATUS_LINES, F.MEM_DSCRUB_CE_COUNT,
        F.MEM_DSCRUB_UE_COUNT, F.MEM_DSCRUB_FIRST_LINE, F.MEM_DSCRUB_LAST_LINE, F.MEM_DSCRUB_WORST_LINE,
        F.MEM_DSCRUB_WINFO_UE, F.MEM_DSCRUB_WINFO_CWS, F.MEM_DSCRUB_WINFO_DEVICE], parts := [.mem, .dram] }
  | .scrubLap _ =>
    { regs := [F.CLR_COEF_COEF, F.CLR_COEF_LIVE_COEF, F.LRN_ENTRY_W, F.LRN_SCALE_RECIP, F.LRN_SCALE_GAIN, F.CHN_ZONE_GAIN,
        F.CHN_ZONE_OFS, F.CHN_ZONE_ASYM, F.CHN_EQ_START_TAP, F.WRP_POWER_VALID, F.WRP_POWER_WSTRAT, F.WRP_POWER_PEAK,
        F.WRP_POWER_BIAS, F.WRP_POWER_COOL, F.WRP_SPARE_VALID, F.WRP_SPARE_REASON, F.WRP_SPARE_LODE, F.WRP_SPARE_POS,
        F.MEM_EVT_SCRUB_SLOW, F.MEM_EVT_SRAM_UE, F.MEM_EVT_DRAM_UE, F.MEM_EVT_CE_OVERFLOW, F.MEM_EVT_FORCED,
        F.MEM_CE_STATUS_LEVEL, F.MEM_CE_STATUS_OVERFLOWS, F.MEM_CE_TOTAL_COUNT, F.MEM_UE_LOG_VALID, F.MEM_UE_LOG_CLASS,
        F.MEM_UE_LOG_POISON, F.MEM_UE_LOG_SOURCE, F.MEM_UE_LOG_COUNT, F.MEM_UE_ADDR_ADDR, F.MEM_SSCRUB_STATUS_LAP,
        F.MEM_SSCRUB_STATUS_LAPS], parts := [.mem] }
  | .bucketLeak _ =>
    { regs := [F.MEM_CE_STATUS_LEVEL] }
  | .bucketReset _ _ =>
    { regs := [F.MEM_CE_CTL_DEPTH, F.MEM_CE_CTL_LEAK, F.MEM_CE_STATUS_LEVEL] ++ narrowRegs, parts := [.mem] }
  | .tableLowWrite _ _ =>
    { regs := narrowRegs, parts := [.mem] }
  | .tableHighWrite _ _ =>
    { regs := [F.CLR_COEF_COEF, F.CLR_COEF_LIVE_COEF, F.LRN_LOOP_STATUS_EMPTY, F.LRN_ENTRY_W, F.LRN_SCALE_RECIP,
        F.LRN_SCALE_GAIN, F.CHN_ZONE_GAIN, F.CHN_ZONE_OFS, F.CHN_ZONE_ASYM, F.CHN_EQ_START_TAP, F.WRP_POWER_VALID,
        F.WRP_POWER_WSTRAT, F.WRP_POWER_PEAK, F.WRP_POWER_BIAS, F.WRP_POWER_COOL, F.WRP_SPARE_VALID, F.WRP_SPARE_REASON,
        F.WRP_SPARE_LODE, F.WRP_SPARE_POS] ++ narrowRegs, parts := [.mem] }
  | .tableLowRead _ =>
    { regs := [F.CLR_COEF_COEF, F.CLR_COEF_LIVE_COEF, F.LRN_ENTRY_W, F.LRN_SCALE_RECIP, F.LRN_SCALE_GAIN, F.CHN_ZONE_GAIN,
        F.CHN_ZONE_OFS, F.CHN_ZONE_ASYM, F.CHN_EQ_START_TAP, F.WRP_POWER_VALID, F.WRP_POWER_WSTRAT, F.WRP_POWER_PEAK,
        F.WRP_POWER_BIAS, F.WRP_POWER_COOL, F.WRP_SPARE_VALID, F.WRP_SPARE_REASON, F.WRP_SPARE_LODE, F.WRP_SPARE_POS,
        F.MEM_EVT_SRAM_UE, F.MEM_EVT_DRAM_UE, F.MEM_EVT_CE_OVERFLOW, F.MEM_EVT_FORCED, F.MEM_CE_STATUS_LEVEL,
        F.MEM_CE_STATUS_OVERFLOWS, F.MEM_CE_TOTAL_COUNT, F.MEM_UE_LOG_VALID, F.MEM_UE_LOG_CLASS, F.MEM_UE_LOG_POISON,
        F.MEM_UE_LOG_SOURCE, F.MEM_UE_LOG_COUNT, F.MEM_UE_ADDR_ADDR, F.MEM_TEST_SCHK_RD], parts := [.mem, .free] }
  | .wayPowerDown _ _ =>
    { regs := [F.LCA_WAY_CTL_OFF, F.LCA_EVT_CFG_REJECT, F.LCA_EVT_TAG_UE, F.LCA_EVT_POISON_WB, F.LCA_EVT_FORCED
        ] ++ deviceFatalRegs ++ narrowRegs, parts := [.hif, .hqi, .vols, .asy, .heads, .chans, .mem, .cfg, .dram] }
  | .wayPowerUp _ =>
    { regs := [F.LCA_WAY_CTL_OFF] ++ narrowRegs, parts := [.mem] }
  | .wayOff _ _ =>
    { regs := [F.LCA_WAY_STATUS_ON, F.LCA_EVT_TAG_UE, F.LCA_EVT_POISON_WB, F.LCA_EVT_WAY_OFF, F.LCA_EVT_FORCED
        ] ++ deviceFatalRegs, parts := [.hif, .hqi, .vols, .asy, .heads, .chans, .mem, .cfg, .dram] }
  | .lcaClean _ _ _ =>
    { regs := [F.LCA_OP_WAY, F.LCA_OP_FORCE, F.LCA_OP_MODE, F.LCA_OP_OP] ++ maintainRegs ++ narrowRegs,
      parts := [.hif, .hqi, .vols, .asy, .heads, .chans, .mem, .cfg, .dram] }
  | .lcaInvalidate _ _ _ =>
    { regs := [F.LCA_OP_WAY, F.LCA_OP_FORCE, F.LCA_OP_MODE, F.LCA_OP_OP] ++ maintainRegs ++ narrowRegs,
      parts := [.hif, .hqi, .vols, .asy, .heads, .chans, .mem, .cfg, .dram] }
  | .lcaCleanInvalidate _ _ _ =>
    { regs := [F.LCA_OP_WAY, F.LCA_OP_FORCE, F.LCA_OP_MODE, F.LCA_OP_OP] ++ maintainRegs ++ narrowRegs,
      parts := [.hif, .hqi, .vols, .asy, .heads, .chans, .mem, .cfg, .dram] }
  | .lcaPreload _ _ =>
    { regs := [F.MEM_EVT_SRAM_UE, F.MEM_EVT_DRAM_UE, F.MEM_EVT_CE_OVERFLOW, F.MEM_CE_STATUS_LEVEL, F.MEM_CE_STATUS_OVERFLOWS,
        F.MEM_CE_TOTAL_COUNT, F.MEM_UE_LOG_VALID, F.MEM_UE_LOG_CLASS, F.MEM_UE_LOG_POISON, F.MEM_UE_LOG_SOURCE,
        F.MEM_UE_LOG_COUNT, F.MEM_UE_ADDR_ADDR, F.LCA_OP_WAY, F.LCA_OP_FORCE, F.LCA_OP_MODE, F.LCA_OP_OP
        ] ++ maintainRegs ++ narrowRegs, parts := [.hif, .hqi, .vols, .asy, .heads, .chans, .mem, .cfg, .dram] }
  | .svnCommit _ =>
    { regs := [F.CFG_EVT_CFG_REJECT, F.CFG_EVT_FORCED, F.CFG_FUSE_CMD_BUSY, F.CFG_FUSE_CMD_FAIL] ++ narrowRegs,
      parts := [.mem, .cfg] }
  | .keyRevoke _ _ =>
    { regs := [F.CFG_EVT_CFG_REJECT, F.CFG_EVT_FORCED, F.CFG_FUSE_CMD_BUSY, F.CFG_FUSE_CMD_FAIL] ++ narrowRegs,
      parts := [.mem, .cfg] }
  | .fuseProgramDone _ =>
    { regs := [F.CFG_SVN_FUSED, F.CFG_EVT_FUSE_FAIL, F.CFG_EVT_SVN_COMMITTED, F.CFG_EVT_STAGE_FAIL, F.CFG_EVT_FORCED,
        F.CFG_KEYS_REVOKED, F.CFG_KEYS_FUSED, F.CFG_KEYS_USABLE, F.CFG_STAGE_STATUS_STATE, F.CFG_STAGE_REJECT_FAIL,
        F.CFG_FUSE_CMD_BUSY, F.CFG_FUSE_CMD_FAIL] ++ engineRegs, parts := [.hif, .hqi, .vols, .asy, .heads, .decks, .cfg] }
  | .imageLoadDone _ =>
    { anyReg := true, parts := [.tck, .hif, .hqi, .vols, .asy, .heads, .decks, .chans, .lanes, .mem, .cfg, .trl, .cal, .dram
        ] }
  | .bootRecordSign _ =>
    { regs := [F.CFG_STATUS_RECORD_READY, F.CFG_STATUS_RESET_CAUSE, F.CFG_EVT_LOG_FAIL, F.CFG_EVT_FORCED, F.CFG_BOOT_CTR_CTR,
        F.CFG_LOG_STATUS_FAILS, F.CFG_LOG_STATUS_HELD] ++ engineRegs,
      parts := [.hif, .hqi, .vols, .asy, .heads, .decks, .cfg] }
  | .pieceProgrammed _ =>
    { regs := [F.CFG_EVT_PIECE_REJECT, F.CFG_EVT_FORCED, F.CFG_STAGE_STATUS_STATE, F.CFG_STAGE_STATUS_COUNT,
        F.CFG_STAGE_STATUS_RECEIVED, F.CFG_STAGE_EPOCH_LO_EPOCH, F.CFG_STAGE_EPOCH_HI_EPOCH, F.CFG_STAGE_REJECT_LAST,
        F.CFG_STAGE_REJECT_COUNT] ++ engineRegs, parts := [.hif, .hqi, .vols, .asy, .heads, .decks, .cfg] }
  | .stageVerifyDone _ =>
    { regs := [F.CFG_EVT_STAGE_FAIL, F.CFG_EVT_FORCED, F.CFG_STAGE_STATUS_STATE, F.CFG_STAGE_REJECT_FAIL] ++ engineRegs,
      parts := [.hif, .hqi, .vols, .asy, .heads, .decks, .cfg] }
  | .stageCopyDone _ =>
    { regs := [F.CFG_EVT_STAGE_FAIL, F.CFG_EVT_STAGE_READY, F.CFG_EVT_FORCED, F.CFG_STAGE_STATUS_STATE,
        F.CFG_STAGE_REJECT_FAIL] ++ engineRegs, parts := [.hif, .hqi, .vols, .asy, .heads, .decks, .cfg] }
  | .armPrepared _ =>
    { regs := [F.HQI_CSTS_HELD, F.CFG_EVT_ARMED, F.CFG_EVT_STAGE_FAIL, F.CFG_EVT_FORCED, F.CFG_STAGE_STATUS_STATE,
        F.CFG_STAGE_REJECT_FAIL, F.CFG_SHIFT_STATUS_STATE, F.CFG_SHIFT_STATUS_DEFER, F.CFG_SHIFT_FRAME_LO_F_LO,
        F.CFG_SHIFT_FRAME_HI_F_HI] ++ engineRegs, parts := [.hif, .hqi, .vols, .asy, .heads, .decks, .cfg] }
  | .shiftCommitReceived _ _ =>
    { regs := [F.HQI_CSTS_HELD, F.CFG_SHIFT_STATUS_STATE, F.CFG_SHIFT_STATUS_DEFER, F.CFG_SHIFT_FRAME_LO_F_LO,
        F.CFG_SHIFT_FRAME_HI_F_HI] ++ engineRegs, parts := [.hif, .hqi, .vols, .asy, .heads, .decks] }
  | .shiftTablesCopied _ =>
    { regs := [F.HQI_CSTS_HELD, F.CLR_COEF_COEF, F.CLR_COEF_LIVE_COEF, F.LRN_ENTRY_W, F.LRN_SCALE_RECIP, F.LRN_SCALE_GAIN,
        F.CHN_ZONE_GAIN, F.CHN_ZONE_OFS, F.CHN_ZONE_ASYM, F.CHN_EQ_START_TAP, F.WRP_POWER_VALID, F.WRP_POWER_WSTRAT,
        F.WRP_POWER_PEAK, F.WRP_POWER_BIAS, F.WRP_POWER_COOL, F.CFG_STATUS_FALLBACK, F.CFG_STATUS_RECORD_READY,
        F.CFG_STATUS_RESET_CAUSE, F.CFG_EVT_LOG_FAIL, F.CFG_EVT_SHIFT_APPLIED, F.CFG_EVT_FORCED, F.CFG_BOOT_CTR_CTR,
        F.CFG_LOG_STATUS_FAILS, F.CFG_LOG_STATUS_HELD] ++ engineRegs,
      parts := [.hif, .hqi, .vols, .asy, .heads, .decks, .mem, .cfg] }
  | .frameStartReceived _ =>
    { regs := [F.TCK_STATUS_LAST_ERR, F.TCK_STATUS_HOLDOVER, F.TCK_STATUS_LOCK, F.TCK_EVT_DISC_STEP, F.TCK_EVT_DISC_UNLOCK,
        F.TCK_EVT_FORCED, F.HQI_CSTS_HELD, F.CFG_STAGE_STATUS_STATE, F.CFG_SHIFT_STATUS_STATE, F.CFG_SHIFT_STATUS_DEFER,
        F.CFG_SHIFT_FRAME_LO_F_LO, F.CFG_SHIFT_FRAME_HI_F_HI, F.TRL_STATUS_ROLE, F.TRL_STATUS_BYP_HOLD, F.TRL_STATUS_MIXED,
        F.TRL_STATUS_OPEN, F.TRL_STATUS_EXCLUDED, F.TRL_STATUS_IN_LOCK, F.TRL_STATUS_POSITION, F.TRL_EVT_TOO_MANY,
        F.TRL_EVT_EXCLUDED, F.TRL_EVT_SHIFT_REFUSED, F.TRL_EVT_UNMIXED, F.TRL_EVT_MIXED, F.TRL_EVT_JOINED, F.TRL_EVT_FORCED,
        F.TRL_PATH_PATH, F.TRL_LAP_LAP, F.TRL_SHIFT_CTL_RESULT, F.TRL_SHIFT_RING_PHASE, F.TRL_SHIFT_RING_F_HI,
        F.TRL_SHIFT_F_LO_F_LO, F.TRL_TX_STATUS_SENT] ++ engineRegs,
      parts := [.tick, .tck, .hif, .hqi, .vols, .asy, .heads, .decks, .cfg, .trl] }
  | .claimReceived _ _ =>
    { regs := [F.TRL_STATUS_ROLE, F.TRL_STATUS_BYP_HOLD, F.TRL_STATUS_POSITION, F.TRL_EVT_HEAD_CHANGE, F.TRL_EVT_FORCED,
        F.TRL_LAP_LAP, F.TRL_HEAD_LO_SERIAL, F.TRL_HEAD_HI_SERIAL, F.TRL_UNIT_STATUS], parts := [.trl] }
  | .frameReturned _ _ _ _ =>
    { regs := [F.TCK_STATUS_LAST_ERR, F.TCK_STATUS_HOLDOVER, F.TCK_STATUS_LOCK, F.TCK_EVT_DISC_STEP, F.TCK_EVT_DISC_UNLOCK,
        F.TCK_EVT_FORCED, F.TRL_STATUS_IN_LOCK, F.TRL_EVT_LAP_LONG, F.TRL_EVT_FORCED, F.TRL_PATH_PATH, F.TRL_LAP_UNITS,
        F.TRL_LAP_LAP, F.TRL_UNIT_STATUS], parts := [.tick, .tck, .trl] }
  | .shiftAbortReceived _ =>
    { regs := [F.HQI_CSTS_HELD, F.CFG_STAGE_STATUS_STATE, F.CFG_SHIFT_STATUS_STATE] ++ engineRegs,
      parts := [.hif, .hqi, .vols, .asy, .heads, .decks, .cfg] }
  | .pieceMessage _ _ =>
    { regs := [F.CFG_EVT_PIECE_REJECT, F.CFG_EVT_FORCED, F.CFG_STAGE_STATUS_STATE, F.CFG_STAGE_STATUS_COUNT,
        F.CFG_STAGE_STATUS_RECEIVED, F.CFG_STAGE_EPOCH_LO_EPOCH, F.CFG_STAGE_EPOCH_HI_EPOCH, F.CFG_STAGE_REJECT_LAST,
        F.CFG_STAGE_REJECT_COUNT, F.TRL_EVT_CRC_ERR, F.TRL_EVT_FORCED, F.TRL_ERR_CRC] ++ engineRegs,
      parts := [.hif, .hqi, .vols, .asy, .heads, .decks, .cfg] }
  | .mgmtMessage _ =>
    { regs := [F.TRL_EVT_CRC_ERR, F.TRL_EVT_MSG_RX, F.TRL_EVT_FORCED, F.TRL_ERR_CRC, F.TRL_RX_STATUS_FULL,
        F.TRL_RX_STATUS_KIND, F.TRL_RX_STATUS_SRC, F.TRL_RX_STATUS_DROPS, F.TRL_RX_STATUS_LEN, F.TRL_RX_DATA_WORD] }
  | .unitResetMessage _ _ =>
    { anyReg := true, parts := [.tick, .tck, .hif, .hqi, .vols, .asy, .heads, .decks, .chans, .lanes, .mem, .cfg, .trl, .cal,
        .pwr, .free, .dram] }
  | .shiftReqMessage _ =>
    { regs := [F.TRL_EVT_CRC_ERR, F.TRL_EVT_FORCED, F.TRL_ERR_CRC], parts := [.trl] }
  | .excludeMessage _ =>
    { regs := [F.TRL_EVT_CRC_ERR, F.TRL_EVT_FORCED, F.TRL_ERR_CRC], parts := [.trl] }
  | .msgSend _ =>
    { regs := [F.TRL_EVT_CFG_REJECT, F.TRL_EVT_FORCED, F.TRL_TX_CTL_GO, F.TRL_TX_CTL_KIND, F.TRL_TX_CTL_DEST,
        F.TRL_TX_CTL_LEN, F.TRL_TX_STATUS_BUSY] ++ narrowRegs, parts := [.mem, .trl] }
  | .msgReturned _ _ =>
    { regs := [F.CFG_EVT_PIECE_REJECT, F.CFG_EVT_FORCED, F.CFG_STAGE_STATUS_STATE, F.CFG_STAGE_STATUS_COUNT,
        F.CFG_STAGE_STATUS_RECEIVED, F.CFG_STAGE_EPOCH_LO_EPOCH, F.CFG_STAGE_EPOCH_HI_EPOCH, F.CFG_STAGE_REJECT_LAST,
        F.CFG_STAGE_REJECT_COUNT, F.TRL_EVT_SHIFT_REFUSED, F.TRL_EVT_TX_DONE, F.TRL_EVT_FORCED, F.TRL_SHIFT_CTL_RESULT,
        F.TRL_EXCL_CTL_BUSY, F.TRL_TX_STATUS_BUSY, F.TRL_TX_STATUS_RESULT] ++ engineRegs,
      parts := [.hif, .hqi, .vols, .asy, .heads, .decks, .cfg, .trl, .free] }
  | .shiftRequest _ =>
    { regs := [F.TRL_EVT_CFG_REJECT, F.TRL_EVT_SHIFT_REFUSED, F.TRL_EVT_FORCED, F.TRL_SHIFT_CTL_GO, F.TRL_SHIFT_CTL_RESULT,
        F.TRL_SHIFT_CTL_COLLECT, F.TRL_SHIFT_CTL_LEAD] ++ narrowRegs, parts := [.mem, .trl] }
  | .excludeRequest _ =>
    { regs := [F.TRL_EVT_CFG_REJECT, F.TRL_EVT_FORCED, F.TRL_EXCL_CTL_BUSY, F.TRL_EXCL_CTL_OP, F.TRL_EXCL_CTL_GO
        ] ++ narrowRegs, parts := [.mem, .trl] }
  | .pornDeassert _ =>
    { regs := startRegs, parts := [.mem, .cfg, .pwr] }
  | .srstnDeassert _ =>
    { regs := startRegs, parts := [.mem, .cfg, .pwr] }
  | .railFault _ =>
    { regs := [F.PWR_STATUS_RAILS, F.PWR_EVT_RAIL_FAULT, F.PWR_EVT_FORCED] ++ deviceFatalRegs ++ engineRegs,
      parts := [.hif, .hqi, .vols, .asy, .heads, .decks, .chans, .mem, .cfg, .dram] }
  | .sysclkReturn _ =>
    { regs := [F.PWR_STATUS_SYSCLK] ++ startRegs, parts := [.mem, .cfg, .pwr] }
  | .lrefLoss _ =>
    { regs := [F.TRL_STATUS_IN_LOCK, F.TRL_ERR_LOCK_LOSS, F.PWR_STATUS_LREF, F.PWR_EVT_LREF_LOSS, F.PWR_EVT_FORCED
        ] ++ headFatalRegs ++ engineRegs ++ linkDownRegs,
      parts := [.hif, .hqi, .vols, .asy, .heads, .decks, .chans, .mem, .dram] }
  | .sensorSample _ _ =>
    { anyReg := true, parts := [.tick, .tck, .hif, .hqi, .vols, .asy, .heads, .decks, .chans, .lanes, .mem, .cfg, .trl, .cal,
        .pwr, .free, .dram] }
  | .calUnit _ _ _ =>
    { regs := [F.CAL_STATUS_PEND, F.CAL_EVT_CAL_REJECT, F.CAL_EVT_CAL_DONE, F.CAL_EVT_FORCED, F.CAL_RUN_LAST_TEMP,
        F.CAL_RUN_REJECTS, F.CAL_RUN_RUNS], parts := [.lanes, .cal] }
  | .evtClear _ _ =>
    { regs := eventRegs ++ narrowRegs, parts := [.mem] }
  | .evtMaskWrite _ _ =>
    { regs := [F.GLB_EVT_MASK_MASK, F.TCK_EVT_MASK_MASK, F.HIF_EVT_MASK_MASK, F.HQI_EVT_MASK_MASK, F.CLR_EVT_MASK_MASK,
        F.LRN_EVT_MASK_MASK, F.WND_EVT_MASK_MASK, F.SLD_EVT_MASK_MASK, F.LNK_EVT_MASK_MASK, F.CHN_EVT_MASK_MASK,
        F.ASY_EVT_MASK_MASK, F.PRC_EVT_MASK_MASK, F.WRP_EVT_MASK_MASK, F.MEM_EVT_MASK_MASK, F.LCA_EVT_MASK_MASK,
        F.CFG_EVT_MASK_MASK, F.TRL_EVT_MASK_MASK, F.CAL_EVT_MASK_MASK, F.PWR_EVT_MASK_MASK] ++ narrowRegs, parts := [.mem] }
  | .evtForceWrite _ _ =>
    { regs := eventRegs ++ narrowRegs, parts := [.mem] }
  | .rcRead _ _ =>
    { regs := [F.TCK_COUNT_HI_COUNT_HI, F.TCK_ASY_MISS_COUNT, F.TCK_CLR_OVR_TOTAL, F.TCK_CLR_MAXCYC_MAX, F.TCK_WND_OVR_OBS,
        F.TCK_WND_OVR_STEP, F.HIF_LINK_DOWN_CNT, F.HIF_EVT_CFG_REJECT, F.HIF_EVT_FORCED, F.HIF_CPL_ERR_TIMEOUT,
        F.HIF_CPL_ERR_UNEXP, F.HIF_RX_ERR_POISON_RX, F.HIF_RX_ERR_PEER_UR, F.CLR_OFFTRACK_MAX, F.CLR_SF_STATUS_STEPS,
        F.CLR_COEF_COEF, F.CLR_COEF_LIVE_COEF, F.LRN_ENTRY_W, F.LRN_SCALE_RECIP, F.LRN_SCALE_GAIN, F.WND_PILLAR_MAXRES,
        F.WND_COUNTS_LOS, F.WND_COUNTS_REF, F.SLD_FOLLOW_DISCARDS, F.SLD_FOLLOW_DONE, F.SLD_HOME_STATUS_TRANS,
        F.LNK_LANE_ERR_SH_ERR, F.LNK_LANE_ERR_MK_ERR, F.LNK_PRBS_ERR_COUNT, F.LNK_LATE_COUNT, F.LNK_POISON_COUNT,
        F.LNK_DROP_TRUNC, F.LNK_DROP_DROPS, F.CHN_SYNC_STATS_FOUND, F.CHN_SYNC_STATS_MISSED, F.CHN_DEF_STATS_DEFECTS,
        F.CHN_DEF_STATS_BLANKS, F.CHN_PILLAR_STATS_MISSED, F.CHN_PILLAR_STATS_CRC_ERR, F.CHN_PILLAR_STATS_MISMATCH,
        F.CHN_DRIFTS_DELIVERED, F.CHN_DRIFTS_INFERRED, F.CHN_TRUNC_TRUNC, F.CHN_ZONE_GAIN, F.CHN_ZONE_OFS, F.CHN_ZONE_ASYM,
        F.CHN_EQ_START_TAP, F.ASY_LODES_CLEAN, F.ASY_LODES_CORRECTED, F.ASY_LODES2_REREAD, F.ASY_LODES2_FAILED,
        F.ASY_DRIFTS_INNER_FAIL, F.ASY_DRIFTS_INNER_MISC, F.ASY_MISC_GUARD_FAIL, F.ASY_MISC_SLIP_FOUND, F.ASY_UNCLAIMED_COUNT,
        F.PRC_STATS_WITHHELD, F.PRC_STATS_OVERFLOW, F.PRC_STATS2_TRUNC, F.PRC_STATS2_ENTRY_ECC, F.PRC_PEAK_PEAK,
        F.WRP_LODES_ACCEPTED, F.WRP_LODES_REJECTED, F.WRP_SKIPS_SKIPPED, F.WRP_SKIPS_CAL_RUNS, F.WRP_GATE_CLOSES,
        F.WRP_GATE_CUTS, F.WRP_POWER_VALID, F.WRP_POWER_WSTRAT, F.WRP_POWER_PEAK, F.WRP_POWER_BIAS, F.WRP_POWER_COOL,
        F.WRP_SPARE_VALID, F.WRP_SPARE_REASON, F.WRP_SPARE_LODE, F.WRP_SPARE_POS, F.MEM_EVT_SRAM_UE, F.MEM_EVT_DRAM_UE,
        F.MEM_EVT_CE_OVERFLOW, F.MEM_EVT_FORCED, F.MEM_CE_STATUS_LEVEL, F.MEM_CE_STATUS_OVERFLOWS, F.MEM_CE_TOTAL_COUNT,
        F.MEM_UE_LOG_VALID, F.MEM_UE_LOG_CLASS, F.MEM_UE_LOG_POISON, F.MEM_UE_LOG_SOURCE, F.MEM_UE_LOG_COUNT,
        F.MEM_UE_ADDR_ADDR, F.MEM_PWD_LOG_COUNT, F.MEM_SSCRUB_STATUS_LAPS, F.MEM_TEST_SCHK_RD, F.LCA_HITS_COUNT,
        F.LCA_MISSES_COUNT, F.CFG_STAGE_REJECT_COUNT, F.CFG_LOG_STATUS_FAILS, F.TRL_TIME_HI_TIME_HI, F.TRL_ERR_CRC,
        F.TRL_ERR_LOCK_LOSS, F.TRL_TX_STATUS_SENT, F.TRL_RX_STATUS_DROPS, F.CAL_TEMP_PEAK, F.CAL_RUN_REJECTS, F.CAL_RUN_RUNS],
      parts := [.mem, .cal, .free] }
  | .registerWrite _ _ _ _ _ =>
    { anyReg := true, parts := [.tck, .hif, .hqi, .vols, .asy, .heads, .decks, .chans, .lanes, .mem, .cfg, .trl, .cal, .free,
        .dram] }
  | .lrefReturn _ =>
    { regs := [F.PWR_STATUS_LREF] }
  | .railReturn _ =>
    { regs := [F.PWR_STATUS_RAILS] }
  | .wayOn _ =>
    { regs := [F.LCA_WAY_STATUS_ON] }
  | .profileTick =>
    { regs := [F.CLR_EVT_SF_LIMIT, F.CLR_EVT_FORCED, F.CLR_SF_STATUS_STEPS, F.SLD_ACC_A, F.SLD_FOLLOW_DISCARDS,
        F.SLD_FOLLOW_DONE, F.SLD_HOME_STATUS_TRAVEL, F.SLD_EVT_HOME_FAIL, F.SLD_EVT_HOME_DONE, F.SLD_EVT_DECEL_LIMIT,
        F.SLD_EVT_DECEL_RAISED, F.SLD_EVT_OVERSHOOT, F.SLD_EVT_FOLLOW_DISCARD] ++ headFatalRegs ++ engineRegs,
      parts := [.hif, .hqi, .vols, .asy, .heads, .decks, .chans, .mem, .dram] }
  | .speedTick =>
    { regs := [F.WND_STATUS_LOCKED, F.WND_STATUS_REF, F.WND_STATUS_AT_SPEED, F.WND_STATUS_CHOP_ON, F.WND_STATUS_PAIR_LOCK,
        F.WND_EVT_LOS_REPEAT, F.WND_EVT_PAIR, F.WND_EVT_LOS, F.WND_EVT_READY, F.WND_EVT_FORCED, F.WND_SPEED_MEAS,
        F.WND_SPEED_RAMP, F.WND_PAIR_STATUS_TRIM, F.WND_PAIR_STATUS_DELTA, F.WND_COUNTS_LOS, F.CHN_EVT_RATE_LIMIT,
        F.WRP_EVT_CAT_FULL, F.WRP_EVT_PAD] ++ deckFatalRegs,
      parts := [.hif, .hqi, .vols, .asy, .heads, .decks, .chans, .mem, .dram] }
  | .holdover =>
    { regs := [F.TCK_STATUS_HOLDOVER, F.TCK_STATUS_LOCK, F.TCK_EVT_HOLDOVER, F.TCK_EVT_FORCED], parts := [.tck] }
  | .tckCountRead =>
    { regs := [F.TCK_COUNT_HI_COUNT_HI] }
  | .slotReserve =>
    { regs := thawRegs, parts := [.asy, .heads] }
  | .prcDisable =>
    { regs := [F.ASY_SLOT_ID_RETAIN, F.PRC_CTL_EN, F.PRC_STATUS_WITHHOLD, F.PRC_EVT_WITHHELD, F.PRC_EVT_RESUMED,
        F.PRC_EVT_FORCED, F.PRC_PEAK_PEAK] ++ narrowRegs, parts := [.asy, .mem] }
  | .perstAssert =>
    { regs := [F.HIF_CTL_POISON_FWD, F.HIF_CTL_PEER_EN, F.HIF_LINK_DL_ACTIVE, F.HIF_LINK_DEGRADED, F.HIF_LINK_SPEED,
        F.HIF_LINK_WIDTH, F.HIF_LINK_DOWN_CNT, F.HIF_CONTAIN_STATE, F.HIF_CONTAIN_INFLIGHT, F.HIF_CONTAIN_CAUSE_FORCED,
        F.HIF_CONTAIN_CAUSE_LINK, F.HIF_CONTAIN_CAUSE_INTERNAL, F.HIF_CONTAIN_FORCE, F.HIF_CONTAIN_RELEASE,
        F.HIF_EVT_LINK_DEGRADED, F.HIF_EVT_CFG_REJECT, F.HIF_EVT_COMMIT_REJECT, F.HIF_EVT_RELEASED, F.HIF_EVT_CONTAINED,
        F.HIF_EVT_LINK_LOST, F.HIF_EVT_FLR1, F.HIF_EVT_FLR0, F.HIF_EVT_HOT_RESET, F.HIF_EVT_PEER_UR, F.HIF_EVT_POISON_RX,
        F.HIF_EVT_UNEXP_CPL, F.HIF_EVT_CPL_TIMEOUT, F.HIF_EVT_FORCED, F.HIF_EVT_MASK_MASK, F.HIF_CPL_ERR_TIMEOUT,
        F.HIF_CPL_ERR_UNEXP, F.HIF_RX_ERR_POISON_RX, F.HIF_RX_ERR_PEER_UR, F.HIF_LTR_ACTIVE, F.HIF_LTR_IDLE,
        F.HIF_WIN_COMMIT_GO, F.HIF_WIN_STATUS_SEQ, F.HIF_WIN_STATUS_REFUSED, F.HIF_WIN_STATUS_PEND, F.HIF_WIN_STATUS_LIVE_EN,
        F.HIF_WIN_BASE_LO_BASE_LO, F.HIF_WIN_BASE_HI_BASE_HI, F.HIF_WIN_SIZE_CTL_SIZE, F.HIF_WIN_SIZE_CTL_WR_EN,
        F.HIF_WIN_SIZE_CTL_RD_EN, F.HIF_WIN_SIZE_CTL_EN, F.HIF_WIN_LIVE_BASE_LO_BASE_LO, F.HIF_WIN_LIVE_BASE_HI_BASE_HI,
        F.HIF_WIN_LIVE_SIZE_CTL_SIZE, F.HIF_WIN_LIVE_SIZE_CTL_WR_EN, F.HIF_WIN_LIVE_SIZE_CTL_RD_EN,
        F.HIF_WIN_LIVE_SIZE_CTL_EN, F.HQI_CC_EN, F.HQI_CSTS_RDY, F.HQI_EVT_RESET_ABORT, F.HQI_EVT_FORCED,
        F.HQI_SQ_BASE_LO_ADDR_LO, F.HQI_SQ_BASE_HI_ADDR_HI, F.HQI_CQ_BASE_LO_ADDR_LO, F.HQI_CQ_BASE_HI_ADDR_HI,
        F.HQI_QP_CTL_SIZE, F.HQI_QP_CTL_CLASS, F.HQI_QP_CTL_RO_DATA, F.HQI_QP_CTL_IEN, F.HQI_QP_CTL_EN, F.HQI_QP_INT_VECTOR,
        F.HQI_QP_INT_COAL_CNT, F.HQI_QP_INT_COAL_TIME, F.HQI_QP_STATUS_ENABLED, F.HQI_QP_STATUS_ERR, F.HQI_QP_STATUS_CAUSE,
        F.HQI_QP_STATUS_CQ_TAIL, F.HQI_QP_STATUS_SQ_HEAD, F.HQI_SQ_TAIL_TAIL, F.HQI_CQ_HEAD_HEAD, F.WRP_EVT_SEAM_EXHAUSTED,
        F.WRP_EVT_SPARED, F.WRP_SKIPS_SKIPPED, F.MEM_EVT_SRAM_UE, F.MEM_EVT_DRAM_UE, F.MEM_EVT_CE_OVERFLOW, F.MEM_EVT_FORCED,
        F.MEM_CE_STATUS_LEVEL, F.MEM_CE_STATUS_OVERFLOWS, F.MEM_CE_TOTAL_COUNT, F.MEM_UE_LOG_VALID, F.MEM_UE_LOG_CLASS,
        F.MEM_UE_LOG_POISON, F.MEM_UE_LOG_SOURCE, F.MEM_UE_LOG_COUNT, F.MEM_UE_ADDR_ADDR, F.LCA_HITS_COUNT,
        F.LCA_MISSES_COUNT, F.PWR_RESET_CAUSE_LAST, F.PWR_RESET_CAUSE_PERST] ++ headOffRegs ++ engineRegs,
      parts := [.hif, .hqi, .vols, .asy, .heads, .decks, .chans, .mem, .cfg, .dram] }
  | .perstDeassert =>
    { anyReg := true, parts := [.tick, .tck, .hif, .hqi, .vols, .asy, .heads, .decks, .chans, .lanes, .mem, .cfg, .trl, .cal,
        .pwr, .free, .dram] }
  | .hotReset =>
    { regs := [F.HIF_CTL_POISON_FWD, F.HIF_CTL_PEER_EN, F.HIF_LINK_DL_ACTIVE, F.HIF_LINK_DEGRADED, F.HIF_LINK_SPEED,
        F.HIF_LINK_WIDTH, F.HIF_LINK_DOWN_CNT, F.HIF_CONTAIN_STATE, F.HIF_CONTAIN_INFLIGHT, F.HIF_CONTAIN_CAUSE_FORCED,
        F.HIF_CONTAIN_CAUSE_LINK, F.HIF_CONTAIN_CAUSE_INTERNAL, F.HIF_CONTAIN_FORCE, F.HIF_CONTAIN_RELEASE,
        F.HIF_EVT_LINK_DEGRADED, F.HIF_EVT_CFG_REJECT, F.HIF_EVT_COMMIT_REJECT, F.HIF_EVT_RELEASED, F.HIF_EVT_CONTAINED,
        F.HIF_EVT_LINK_LOST, F.HIF_EVT_FLR1, F.HIF_EVT_FLR0, F.HIF_EVT_HOT_RESET, F.HIF_EVT_PEER_UR, F.HIF_EVT_POISON_RX,
        F.HIF_EVT_UNEXP_CPL, F.HIF_EVT_CPL_TIMEOUT, F.HIF_EVT_FORCED, F.HIF_EVT_MASK_MASK, F.HIF_CPL_ERR_TIMEOUT,
        F.HIF_CPL_ERR_UNEXP, F.HIF_RX_ERR_POISON_RX, F.HIF_RX_ERR_PEER_UR, F.HIF_LTR_ACTIVE, F.HIF_LTR_IDLE,
        F.HIF_WIN_COMMIT_GO, F.HIF_WIN_STATUS_SEQ, F.HIF_WIN_STATUS_REFUSED, F.HIF_WIN_STATUS_PEND, F.HIF_WIN_STATUS_LIVE_EN,
        F.HIF_WIN_BASE_LO_BASE_LO, F.HIF_WIN_BASE_HI_BASE_HI, F.HIF_WIN_SIZE_CTL_SIZE, F.HIF_WIN_SIZE_CTL_WR_EN,
        F.HIF_WIN_SIZE_CTL_RD_EN, F.HIF_WIN_SIZE_CTL_EN, F.HIF_WIN_LIVE_BASE_LO_BASE_LO, F.HIF_WIN_LIVE_BASE_HI_BASE_HI,
        F.HIF_WIN_LIVE_SIZE_CTL_SIZE, F.HIF_WIN_LIVE_SIZE_CTL_WR_EN, F.HIF_WIN_LIVE_SIZE_CTL_RD_EN,
        F.HIF_WIN_LIVE_SIZE_CTL_EN, F.HQI_CC_EN, F.HQI_CSTS_RDY, F.HQI_EVT_RESET_ABORT, F.HQI_EVT_FORCED,
        F.HQI_SQ_BASE_LO_ADDR_LO, F.HQI_SQ_BASE_HI_ADDR_HI, F.HQI_CQ_BASE_LO_ADDR_LO, F.HQI_CQ_BASE_HI_ADDR_HI,
        F.HQI_QP_CTL_SIZE, F.HQI_QP_CTL_CLASS, F.HQI_QP_CTL_RO_DATA, F.HQI_QP_CTL_IEN, F.HQI_QP_CTL_EN, F.HQI_QP_INT_VECTOR,
        F.HQI_QP_INT_COAL_CNT, F.HQI_QP_INT_COAL_TIME, F.HQI_QP_STATUS_ENABLED, F.HQI_QP_STATUS_ERR, F.HQI_QP_STATUS_CAUSE,
        F.HQI_QP_STATUS_CQ_TAIL, F.HQI_QP_STATUS_SQ_HEAD, F.HQI_SQ_TAIL_TAIL, F.HQI_CQ_HEAD_HEAD, F.WRP_EVT_SEAM_EXHAUSTED,
        F.WRP_EVT_SPARED, F.WRP_SKIPS_SKIPPED, F.MEM_EVT_SRAM_UE, F.MEM_EVT_DRAM_UE, F.MEM_EVT_CE_OVERFLOW, F.MEM_EVT_FORCED,
        F.MEM_CE_STATUS_LEVEL, F.MEM_CE_STATUS_OVERFLOWS, F.MEM_CE_TOTAL_COUNT, F.MEM_UE_LOG_VALID, F.MEM_UE_LOG_CLASS,
        F.MEM_UE_LOG_POISON, F.MEM_UE_LOG_SOURCE, F.MEM_UE_LOG_COUNT, F.MEM_UE_ADDR_ADDR, F.LCA_HITS_COUNT,
        F.LCA_MISSES_COUNT, F.PWR_RESET_CAUSE_LAST, F.PWR_RESET_CAUSE_HOT] ++ engineRegs,
      parts := [.hif, .hqi, .vols, .asy, .heads, .decks, .mem] }
  | .flrPf0 =>
    { regs := [F.HIF_EVT_FLR0, F.HIF_EVT_FORCED, F.HIF_WIN_BASE_LO_BASE_LO, F.HIF_WIN_BASE_HI_BASE_HI,
        F.HIF_WIN_SIZE_CTL_SIZE, F.HIF_WIN_SIZE_CTL_WR_EN, F.HIF_WIN_SIZE_CTL_RD_EN, F.HIF_WIN_SIZE_CTL_EN,
        F.HIF_WIN_LIVE_BASE_LO_BASE_LO, F.HIF_WIN_LIVE_BASE_HI_BASE_HI, F.HIF_WIN_LIVE_SIZE_CTL_SIZE,
        F.HIF_WIN_LIVE_SIZE_CTL_WR_EN, F.HIF_WIN_LIVE_SIZE_CTL_RD_EN, F.HIF_WIN_LIVE_SIZE_CTL_EN, F.HQI_CC_EN, F.HQI_CSTS_RDY,
        F.HQI_EVT_RESET_ABORT, F.HQI_EVT_FORCED, F.HQI_SQ_BASE_LO_ADDR_LO, F.HQI_SQ_BASE_HI_ADDR_HI, F.HQI_CQ_BASE_LO_ADDR_LO,
        F.HQI_CQ_BASE_HI_ADDR_HI, F.HQI_QP_CTL_SIZE, F.HQI_QP_CTL_CLASS, F.HQI_QP_CTL_RO_DATA, F.HQI_QP_CTL_IEN,
        F.HQI_QP_CTL_EN, F.HQI_QP_INT_VECTOR, F.HQI_QP_INT_COAL_CNT, F.HQI_QP_INT_COAL_TIME, F.HQI_QP_STATUS_ENABLED,
        F.HQI_QP_STATUS_ERR, F.HQI_QP_STATUS_CAUSE, F.HQI_QP_STATUS_CQ_TAIL, F.HQI_QP_STATUS_SQ_HEAD, F.HQI_SQ_TAIL_TAIL,
        F.HQI_CQ_HEAD_HEAD, F.WRP_EVT_SEAM_EXHAUSTED, F.WRP_EVT_SPARED, F.WRP_SKIPS_SKIPPED, F.MEM_EVT_SRAM_UE,
        F.MEM_EVT_DRAM_UE, F.MEM_EVT_CE_OVERFLOW, F.MEM_EVT_FORCED, F.MEM_CE_STATUS_LEVEL, F.MEM_CE_STATUS_OVERFLOWS,
        F.MEM_CE_TOTAL_COUNT, F.MEM_UE_LOG_VALID, F.MEM_UE_LOG_CLASS, F.MEM_UE_LOG_POISON, F.MEM_UE_LOG_SOURCE,
        F.MEM_UE_LOG_COUNT, F.MEM_UE_ADDR_ADDR, F.LCA_HITS_COUNT, F.LCA_MISSES_COUNT, F.PWR_RESET_CAUSE_LAST,
        F.PWR_RESET_CAUSE_FLR0] ++ engineRegs, parts := [.hif, .hqi, .vols, .asy, .heads, .decks, .mem] }
  | .flrPf1 =>
    { regs := [F.HIF_EVT_FLR1, F.HIF_EVT_FORCED, F.PWR_RESET_CAUSE_LAST, F.PWR_RESET_CAUSE_FLR1], parts := [.hif] }
  | .linkDown =>
    { regs := [F.HIF_LINK_DL_ACTIVE, F.HIF_LINK_DEGRADED, F.HIF_LINK_SPEED, F.HIF_LINK_WIDTH, F.HIF_LINK_DOWN_CNT,
        F.HIF_CONTAIN_STATE, F.HIF_CONTAIN_INFLIGHT, F.HIF_CONTAIN_CAUSE_LINK, F.HIF_EVT_CONTAINED, F.HIF_EVT_LINK_LOST,
        F.HIF_EVT_FORCED, F.HQI_CSTS_HELD, F.CFG_EVT_SHIFT_STAYED, F.CFG_EVT_FORCED, F.CFG_STAGE_STATUS_STATE,
        F.CFG_SHIFT_STATUS_STATE] ++ headOffRegs ++ engineRegs,
      parts := [.hif, .hqi, .vols, .asy, .heads, .decks, .chans, .mem, .cfg, .dram] }
  | .decodeBoundary =>
    { regs := [F.HIF_EVT_COMMIT_REJECT, F.HIF_EVT_FORCED, F.HIF_WIN_STATUS_SEQ, F.HIF_WIN_STATUS_REFUSED,
        F.HIF_WIN_BASE_LO_BASE_LO, F.HIF_WIN_BASE_HI_BASE_HI, F.HIF_WIN_SIZE_CTL_SIZE, F.HIF_WIN_SIZE_CTL_WR_EN,
        F.HIF_WIN_SIZE_CTL_RD_EN, F.HIF_WIN_SIZE_CTL_EN, F.HIF_WIN_LIVE_BASE_LO_BASE_LO, F.HIF_WIN_LIVE_BASE_HI_BASE_HI,
        F.HIF_WIN_LIVE_SIZE_CTL_SIZE, F.HIF_WIN_LIVE_SIZE_CTL_WR_EN, F.HIF_WIN_LIVE_SIZE_CTL_RD_EN, F.HIF_WIN_LIVE_SIZE_CTL_EN
        ], parts := [.hif] }
  | .containmentForce =>
    { regs := [F.HIF_CONTAIN_STATE, F.HIF_CONTAIN_INFLIGHT, F.HIF_CONTAIN_CAUSE_FORCED, F.HIF_EVT_CONTAINED, F.HIF_EVT_FORCED,
        F.HQI_CSTS_HELD, F.CFG_EVT_SHIFT_STAYED, F.CFG_EVT_FORCED, F.CFG_STAGE_STATUS_STATE, F.CFG_SHIFT_STATUS_STATE
        ] ++ holdRegs ++ narrowRegs, parts := [.hif, .hqi, .vols, .asy, .heads, .chans, .mem, .cfg, .dram] }
  | .containmentFrozen =>
    { regs := [F.HIF_CONTAIN_STATE] }
  | .containmentRelease =>
    { regs := [F.HIF_CONTAIN_CAUSE_FORCED, F.HIF_CONTAIN_CAUSE_LINK, F.HIF_EVT_CFG_REJECT, F.HIF_EVT_RELEASED,
        F.WRP_EVT_SEAM_EXHAUSTED, F.WRP_EVT_SPARED, F.WRP_SKIPS_SKIPPED, F.MEM_EVT_SRAM_UE, F.MEM_EVT_DRAM_UE,
        F.MEM_EVT_CE_OVERFLOW, F.MEM_CE_STATUS_LEVEL, F.MEM_CE_STATUS_OVERFLOWS, F.MEM_CE_TOTAL_COUNT, F.MEM_UE_LOG_VALID,
        F.MEM_UE_LOG_CLASS, F.MEM_UE_LOG_POISON, F.MEM_UE_LOG_SOURCE, F.MEM_UE_LOG_COUNT, F.MEM_UE_ADDR_ADDR,
        F.LCA_HITS_COUNT, F.LCA_MISSES_COUNT] ++ deviceFatalRegs ++ engineRegs ++ narrowRegs,
      parts := [.hif, .hqi, .vols, .asy, .heads, .decks, .chans, .mem, .cfg, .dram] }
  | .pf0D3hot =>
    { regs := [F.WRP_EVT_SEAM_EXHAUSTED, F.WRP_EVT_SPARED, F.WRP_SKIPS_SKIPPED, F.MEM_EVT_SRAM_UE, F.MEM_EVT_DRAM_UE,
        F.MEM_EVT_CE_OVERFLOW, F.MEM_EVT_FORCED, F.MEM_CE_STATUS_LEVEL, F.MEM_CE_STATUS_OVERFLOWS, F.MEM_CE_TOTAL_COUNT,
        F.MEM_UE_LOG_VALID, F.MEM_UE_LOG_CLASS, F.MEM_UE_LOG_POISON, F.MEM_UE_LOG_SOURCE, F.MEM_UE_LOG_COUNT,
        F.MEM_UE_ADDR_ADDR, F.LCA_HITS_COUNT, F.LCA_MISSES_COUNT] ++ engineRegs,
      parts := [.hif, .hqi, .vols, .asy, .heads, .decks, .mem] }
  | .controllerEnable =>
    { regs := [F.HQI_CC_EN, F.HQI_CSTS_RDY, F.HQI_QP_STATUS_ENABLED, F.HQI_QP_STATUS_ERR, F.HQI_QP_STATUS_CAUSE,
        F.HQI_QP_STATUS_CQ_TAIL, F.HQI_QP_STATUS_SQ_HEAD, F.HQI_SQ_TAIL_TAIL, F.HQI_CQ_HEAD_HEAD], parts := [.hqi] }
  | .controllerReset =>
    { regs := [F.HQI_CC_EN, F.HQI_CSTS_RDY, F.HQI_EVT_RESET_ABORT, F.HQI_EVT_FORCED, F.HQI_QP_CTL_EN, F.HQI_QP_STATUS_ENABLED,
        F.HQI_QP_STATUS_ERR, F.HQI_QP_STATUS_CAUSE, F.HQI_QP_STATUS_CQ_TAIL] ++ engineRegs,
      parts := [.hif, .hqi, .vols, .asy, .heads, .decks] }
  | .arbitration =>
    { regs := [F.HQI_QP_STATUS_SQ_HEAD], parts := [.hif, .hqi] }
  | .read =>
    { regs := engineRegs, parts := [.hif, .hqi, .vols, .asy, .heads, .decks] }
  | .append =>
    { regs := engineRegs, parts := [.hif, .hqi, .vols, .asy, .heads, .decks] }
  | .writeAt =>
    { regs := engineRegs, parts := [.hif, .hqi, .vols, .asy, .heads, .decks] }
  | .flush =>
    { regs := engineRegs, parts := [.hif, .hqi, .vols, .asy, .heads, .decks] }
  | .sealSeam =>
    { regs := engineRegs, parts := [.hif, .hqi, .vols, .asy, .heads, .decks] }
  | .identify =>
    { regs := [], parts := [.hqi] }
  | .getLog =>
    { regs := [], parts := [.hif, .hqi] }
  | .setFeature =>
    { regs := [F.HQI_ARB_W_HIGH, F.HQI_ARB_W_MED, F.HQI_ARB_W_LOW, F.HQI_ARB_BURST, F.WND_SPEED_SET_TARGET, F.WRP_LINGER_MS],
      parts := [.hqi] }
  | .getFeature =>
    { regs := [], parts := [.hqi] }
  | .abort =>
    { regs := engineRegs, parts := [.hif, .hqi, .vols, .asy, .heads, .decks] }
  | .selfTestShort =>
    { regs := engineRegs, parts := [.hif, .hqi, .vols, .asy, .heads, .decks] }
  | .selfTestExtended =>
    { regs := engineRegs, parts := [.hif, .hqi, .vols, .asy, .heads, .decks] }
  | .selfTestStop =>
    { regs := engineRegs, parts := [.hif, .hqi, .vols, .asy, .heads, .decks] }
  | .configArm =>
    { regs := engineRegs, parts := [.hif, .hqi, .vols, .asy, .heads, .decks, .cfg] }
  | .attestRead =>
    { regs := engineRegs, parts := [.hif, .hqi, .vols, .asy, .heads, .decks] }
  | .volumeMount =>
    { regs := [F.WND_STATUS_ANGLE_VALID, F.WND_STATUS_LOCKED, F.WND_STATUS_REF, F.WND_STATUS_CHOP_ON, F.WND_STATUS_SHORT,
        F.WND_STATUS_SECTOR, F.WND_EVT_CFG_REJECT, F.WND_EVT_FORCED] ++ engineRegs,
      parts := [.hif, .hqi, .vols, .asy, .heads, .decks] }
  | .volumeRelease =>
    { regs := engineRegs, parts := [.hif, .hqi, .vols, .asy, .heads, .decks] }
  | .dramScrubGo =>
    { regs := [F.MEM_EVT_CFG_REJECT, F.MEM_DSCRUB_STATUS_BUSY, F.MEM_DSCRUB_STATUS_DONE, F.MEM_DSCRUB_STATUS_STOPPED
        ] ++ narrowRegs, parts := [.mem] }
  | .dramScrubStop =>
    { regs := narrowRegs, parts := [.mem] }
  | .narrowWriteTimeout =>
    { regs := narrowRegs, parts := [.mem] }
  | .testRawWrite =>
    { regs := [F.MEM_TEST_CTL_BUSY, F.LCA_EVT_POISON_WB, F.LCA_EVT_FORCED] ++ narrowRegs, parts := [.mem, .dram] }
  | .testRawRead =>
    { regs := [F.MEM_TEST_CTL_BUSY, F.MEM_TEST_LINE_LINE, F.MEM_TEST_DATA_BYTES, F.MEM_TEST_CHK_BYTES, F.LCA_EVT_POISON_WB,
        F.LCA_EVT_FORCED] ++ narrowRegs, parts := [.mem, .dram] }
  | .testOpDone =>
    { regs := [F.MEM_TEST_CTL_BUSY] }
  | .opDone =>
    { regs := [F.LCA_EVT_OP_DONE, F.LCA_EVT_FORCED, F.LCA_OP_STATUS_BUSY, F.LCA_OP_STATUS_DONE, F.LCA_OP_STATUS_SKIPPED,
        F.LCA_OP_STATUS_AFFECTED] }
  | .stageAbandon =>
    { regs := [F.CFG_EVT_CFG_REJECT, F.CFG_EVT_FORCED, F.CFG_STAGE_STATUS_STATE, F.CFG_STAGE_STATUS_COUNT,
        F.CFG_STAGE_STATUS_RECEIVED, F.CFG_STAGE_EPOCH_LO_EPOCH, F.CFG_STAGE_EPOCH_HI_EPOCH] ++ narrowRegs,
      parts := [.mem, .cfg] }
  | .shiftFrameBegin =>
    { anyReg := true, parts := [.tick, .tck, .hif, .hqi, .vols, .asy, .heads, .decks, .chans, .mem, .cfg, .dram] }
  | .shiftQuiescent =>
    { anyReg := true, parts := [.tick, .tck, .hif, .hqi, .vols, .asy, .heads, .decks, .chans, .mem, .cfg, .dram] }
  | .shiftStayTimeout =>
    { anyReg := true, parts := [.tick, .tck, .hif, .hqi, .vols, .asy, .heads, .decks, .chans, .mem, .cfg, .dram] }
  | .ringEnable =>
    { regs := [F.TRL_CTL_EN, F.TRL_STATUS_ROLE, F.TRL_STATUS_BYP_HOLD, F.TRL_LAP_LAP] ++ narrowRegs, parts := [.mem, .trl] }
  | .ringDisable =>
    { regs := [F.TRL_CTL_EN] ++ narrowRegs ++ leaveRingRegs, parts := [.mem, .trl, .free] }
  | .ringElect =>
    { regs := [F.TRL_STATUS_ROLE, F.TRL_STATUS_BYP_HOLD, F.TRL_EVT_ELECTION, F.TRL_EVT_FORCED, F.TRL_LAP_LAP,
        F.TRL_HEAD_LO_SERIAL, F.TRL_HEAD_HI_SERIAL] ++ narrowRegs, parts := [.mem, .trl] }
  | .loopLocked =>
    { regs := [F.TRL_STATUS_ROLE, F.TRL_STATUS_BYP_HOLD, F.TRL_STATUS_IN_LOCK, F.TRL_LAP_LAP], parts := [.trl] }
  | .loopFail =>
    { regs := [F.TRL_EVT_LOOP_FAIL, F.TRL_EVT_FORCED], parts := [.trl] }
  | .frameSilence =>
    { regs := [F.TRL_STATUS_ROLE, F.TRL_STATUS_BYP_HOLD, F.TRL_EVT_ELECTION, F.TRL_EVT_FORCED, F.TRL_LAP_LAP,
        F.TRL_HEAD_LO_SERIAL, F.TRL_HEAD_HI_SERIAL], parts := [.trl] }
  | .electionRestart =>
    { regs := [], parts := [.trl] }
  | .ringOpen =>
    { regs := [F.TRL_EVT_RING_OPEN, F.TRL_EVT_FORCED], parts := [.trl] }
  | .collectExpiry =>
    { regs := [], parts := [.trl] }
  | .msgLost =>
    { regs := [F.TRL_EVT_SHIFT_REFUSED, F.TRL_EVT_TX_DONE, F.TRL_EVT_FORCED, F.TRL_SHIFT_CTL_RESULT, F.TRL_EXCL_CTL_BUSY,
        F.TRL_TX_STATUS_BUSY, F.TRL_TX_STATUS_RESULT], parts := [.trl, .free] }
  | .rxBufferFree =>
    { regs := [F.TRL_RX_STATUS_FULL] ++ narrowRegs, parts := [.mem] }
  | .ringTimeRead =>
    { regs := [F.TRL_TIME_HI_TIME_HI] }
  | .pornAssert =>
    { anyReg := true, parts := [.tick, .tck, .hif, .hqi, .vols, .asy, .heads, .decks, .chans, .lanes, .mem, .cfg, .trl, .cal,
        .pwr, .free, .dram] }
  | .srstnAssert =>
    { anyReg := true, parts := [.tick, .tck, .hif, .hqi, .vols, .asy, .heads, .decks, .chans, .lanes, .mem, .cfg, .trl, .cal,
        .pwr, .free, .dram] }
  | .clkFault =>
    { anyReg := true, parts := [.tick, .tck, .hif, .hqi, .vols, .asy, .heads, .decks, .chans, .lanes, .mem, .cfg, .trl, .cal,
        .pwr, .free, .dram] }
  | .pcieRefLoss =>
    { regs := [F.HIF_LINK_DL_ACTIVE, F.HIF_LINK_DEGRADED, F.HIF_LINK_SPEED, F.HIF_LINK_WIDTH, F.HIF_LINK_DOWN_CNT,
        F.HIF_CONTAIN_STATE, F.HIF_CONTAIN_INFLIGHT, F.HIF_CONTAIN_CAUSE_LINK, F.HIF_EVT_CONTAINED, F.HIF_EVT_LINK_LOST,
        F.HIF_EVT_FORCED, F.HQI_CSTS_HELD, F.CFG_EVT_SHIFT_STAYED, F.CFG_EVT_FORCED, F.CFG_STAGE_STATUS_STATE,
        F.CFG_SHIFT_STATUS_STATE, F.PWR_STATUS_PCIE_REF] ++ headOffRegs ++ engineRegs,
      parts := [.hif, .hqi, .vols, .asy, .heads, .decks, .chans, .mem, .cfg, .dram] }
  | .calForce =>
    { regs := [F.CAL_STATUS_PEND] ++ narrowRegs, parts := [.mem, .cal] }
  | .calPeriodic =>
    { regs := [F.CAL_STATUS_PEND], parts := [.cal] }
  | .pf0D0 =>
    { regs := [F.WRP_EVT_SEAM_EXHAUSTED, F.WRP_EVT_SPARED, F.WRP_SKIPS_SKIPPED, F.MEM_EVT_SRAM_UE, F.MEM_EVT_DRAM_UE,
        F.MEM_EVT_CE_OVERFLOW, F.MEM_EVT_FORCED, F.MEM_CE_STATUS_LEVEL, F.MEM_CE_STATUS_OVERFLOWS, F.MEM_CE_TOTAL_COUNT,
        F.MEM_UE_LOG_VALID, F.MEM_UE_LOG_CLASS, F.MEM_UE_LOG_POISON, F.MEM_UE_LOG_SOURCE, F.MEM_UE_LOG_COUNT,
        F.MEM_UE_ADDR_ADDR, F.LCA_HITS_COUNT, F.LCA_MISSES_COUNT] ++ engineRegs,
      parts := [.hif, .hqi, .vols, .asy, .heads, .decks, .mem] }
  | .hotResetReady =>
    { regs := [], parts := [.hif] }
  | .pcieRefReturn =>
    { regs := [F.PWR_STATUS_PCIE_REF] }
  | .ringInLockLoss =>
    { regs := [F.TRL_STATUS_IN_LOCK, F.TRL_ERR_LOCK_LOSS] }

end Sys2Proof.Machine
end

