-- ==== Sys2Proof/WellFormed.lean ====
section
/-!
DEFINITION. Well-formed commands: operands that the block's interfaces can carry. The types of the operands say most (a head is below
32, a lane below 6); this says the rest: the lengths of lists of samples, addresses that lie in the register spaces, messages
that fit a slot. exec is total all the same: nothing here is assumed by a meaning.
-/
namespace Sys2Proof

/-- Lines of the lode cache: 16 ways of 8,192 sets (R340). -/
def Machine.CacheErr.fits (x : Machine.CacheErr) : Bool := x.data.all fun p => decide (p.1 < 16 ∧ p.2 < 8192)

/-- Bytes of a stored image, and an image key of AES-256 (R356, R357). -/
def Machine.Stored.fits (f : Machine.Stored) : Bool :=
  (f.bytes.all fun b => decide (b < 256)) &&
    match f.key with
    | some k => decide (k.length = 32) && k.all fun b => decide (b < 256)
    | none => true

/-- What a load finds: four keys, two images (R354, R371). -/
def Machine.LoadIn.fits (x : Machine.LoadIn) : Bool := decide (x.keysMatch < 16) && x.slotA.fits && x.slotB.fits

/-- The fields of a frame: 40-bit ring time, 10-bit HOPS, the SHIFT block's phase, frame and epoch (R386). -/
def Machine.FrameIn.fits (x : Machine.FrameIn) : Bool :=
  decide (x.time < 2 ^ 40 ∧ x.hops < 2 ^ 10 ∧ x.phase ≤ 4 ∧ x.f < 2 ^ 40 ∧ x.e < 2 ^ 64)

/-- A message of a slot: KIND of 3 bits, positions of 10, at most 512 words of 64 (R397, R398). -/
def Machine.MsgIn.fits (m : Machine.MsgIn) : Bool :=
  decide (m.kind < 8 ∧ m.dest < 1024 ∧ m.src < 1024 ∧ m.words.length ≤ 512) && m.words.all fun w => decide (w < 2 ^ 64)

/-- The BARs that a request to size them names, and the timeout codes (R279, R284). -/
def Machine.CfgReq.fits : Machine.CfgReq → Bool
  | .barSize pair => decide (pair < 3)
  | .cplTimeout v _ => decide (v < 16)
  | .other offset => decide (offset < 4096)
  | _ => true

/-- Addresses of the register spaces: PF0 BAR0 of 16 MiB, PF1 BAR0 of 128 MiB, the MSI-X BARs of 16 KiB (R279, R454, R455). -/
def Machine.RegSpace.fits : Machine.RegSpace → Nat → Bool
  | .pf0, a => decide (a < 2 ^ 24)
  | .pf1, a => decide (a < 2 ^ 27)
  | .msix0, a => decide (a < 2 ^ 14)
  | .msix1, a => decide (a < 2 ^ 14)

/-- The part of an event triplet at an address (R457). -/
def Machine.evtPartAt (a : Nat) : Option Machine.EvtPart := (Machine.evtAt a).map fun p => p.2.1

/-- The mnemonic of a command's row in the opcode table. -/
def Instr.mnemonic : Instr → String
  | .servoTick _ _ => "SERVO_TICK"
  | .motorTick _ => "MOTOR_TICK"
  | .ringFrameTick _ => "RING_FRAME_TICK"
  | .tckCtlWrite _ => "TCK_CTL_WRITE"
  | .tckAsyDeadlineWrite _ => "TCK_ASY_DEADLINE_WRITE"
  | .collierOverrun _ _ => "COLLIER_OVERRUN"
  | .lrnSkip _ => "LRN_SKIP"
  | .obsLate _ => "OBS_LATE"
  | .wndOvr _ => "WND_OVR"
  | .sldOvr _ => "SLD_OVR"
  | .asyMiss _ => "ASY_MISS"
  | .takeoverPartnerFree _ => "TAKEOVER_PARTNER_FREE"
  | .seekReissue _ => "SEEK_REISSUE"
  | .takeoverRequest _ => "TAKEOVER_REQUEST"
  | .handbackRequest _ => "HANDBACK_REQUEST"
  | .handbackDone _ => "HANDBACK_DONE"
  | .linkWordPush _ _ _ _ _ => "LINK_WORD_PUSH"
  | .fifoPop _ _ _ => "FIFO_POP"
  | .fifoOverflow _ _ => "FIFO_OVERFLOW"
  | .fifoFlush _ _ => "FIFO_FLUSH"
  | .echoReceived _ _ _ => "ECHO_RECEIVED"
  | .alignMarker _ _ => "ALIGN_MARKER"
  | .rotate _ => "ROTATE"
  | .laneRestoreSoak _ _ => "LANE_RESTORE_SOAK"
  | .laneFail _ _ _ => "LANE_FAIL"
  | .linkEnable _ => "LINK_ENABLE"
  | .linkDisable _ => "LINK_DISABLE"
  | .trainDone _ => "TRAIN_DONE"
  | .trainFail _ => "TRAIN_FAIL"
  | .prbsCtlWrite _ _ => "PRBS_CTL_WRITE"
  | .farLoopbackD0 _ _ => "FAR_LOOPBACK_D0"
  | .farLoopbackD1 _ _ => "FAR_LOOPBACK_D1"
  | .farLoopbackEnd _ _ => "FAR_LOOPBACK_END"
  | .hfeGeneratorStart _ _ _ => "HFE_GENERATOR_START"
  | .hfeGeneratorStop _ _ => "HFE_GENERATOR_STOP"
  | .cmdTimeout _ => "CMD_TIMEOUT"
  | .eyeScanStart _ _ _ _ => "EYE_SCAN_START"
  | .eyeScanDone _ _ => "EYE_SCAN_DONE"
  | .tickLeadWrite _ _ => "TICK_LEAD_WRITE"
  | .coefCommit _ _ => "COEF_COMMIT"
  | .coefCopy _ => "COEF_COPY"
  | .rpEvaluation _ => "RP_EVALUATION"
  | .mediaOperationTake _ => "MEDIA_OPERATION_TAKE"
  | .acqFail _ => "ACQ_FAIL"
  | .jumpBrake _ => "JUMP_BRAKE"
  | .jumpSettle _ => "JUMP_SETTLE"
  | .seekFail _ => "SEEK_FAIL"
  | .sledArrived _ => "SLED_ARRIVED"
  | .seekComplete _ => "SEEK_COMPLETE"
  | .layerHopKick _ => "LAYER_HOP_KICK"
  | .layerHopDone _ => "LAYER_HOP_DONE"
  | .layerFail _ => "LAYER_FAIL"
  | .angleLossPark _ => "ANGLE_LOSS_PARK"
  | .fixTimeout _ => "FIX_TIMEOUT"
  | .holdExit _ => "HOLD_EXIT"
  | .holdTimeout _ => "HOLD_TIMEOUT"
  | .headFaultReset _ => "HEAD_FAULT_RESET"
  | .collierEnable _ => "COLLIER_ENABLE"
  | .collierDisable _ => "COLLIER_DISABLE"
  | .seedDone _ _ => "SEED_DONE"
  | .seedRequest _ _ => "SEED_REQUEST"
  | .tableClear _ _ => "TABLE_CLEAR"
  | .sledTargetWrite _ _ => "SLED_TARGET_WRITE"
  | .groupGo _ => "GROUP_GO"
  | .sledStop _ => "SLED_STOP"
  | .sledPark _ => "SLED_PARK"
  | .sledHome _ => "SLED_HOME"
  | .sledEnable _ => "SLED_ENABLE"
  | .sledDisable _ => "SLED_DISABLE"
  | .limitDebounced _ => "LIMIT_DEBOUNCED"
  | .homeFail _ => "HOME_FAIL"
  | .deckLoad _ => "DECK_LOAD"
  | .deckStart _ => "DECK_START"
  | .deckStop _ => "DECK_STOP"
  | .deckUnload _ => "DECK_UNLOAD"
  | .deckFaultReset _ _ => "DECK_FAULT_RESET"
  | .speedTargetWrite _ _ => "SPEED_TARGET_WRITE"
  | .overcurrent _ => "OVERCURRENT"
  | .drvFault _ => "DRV_FAULT"
  | .gateHoldEnd _ _ _ => "GATE_HOLD_END"
  | .pillarReport _ => "PILLAR_REPORT"
  | .spinMeasureEnd _ => "SPIN_MEASURE_END"
  | .alignEnd _ => "ALIGN_END"
  | .handoverTimeout _ => "HANDOVER_TIMEOUT"
  | .spinFail _ => "SPIN_FAIL"
  | .shortHoldEnd _ => "SHORT_HOLD_END"
  | .stopped _ => "STOPPED"
  | .channelEnable _ => "CHANNEL_ENABLE"
  | .channelDisable _ => "CHANNEL_DISABLE"
  | .channelLock _ => "CHANNEL_LOCK"
  | .lockTimeout _ => "LOCK_TIMEOUT"
  | .pillarDetect _ _ => "PILLAR_DETECT"
  | .zoneReload _ => "ZONE_RELOAD"
  | .driftSlot _ _ => "DRIFT_SLOT"
  | .defect _ => "DEFECT"
  | .driftDelivered _ => "DRIFT_DELIVERED"
  | .innerDecodeDone _ => "INNER_DECODE_DONE"
  | .lodeEnd _ _ => "LODE_END"
  | .jobStart _ => "JOB_START"
  | .jobDone _ _ _ _ => "JOB_DONE"
  | .entryLink _ => "ENTRY_LINK"
  | .prcFlush _ => "PRC_FLUSH"
  | .lingerExpiry _ _ => "LINGER_EXPIRY"
  | .writeOperationIssue _ => "WRITE_OPERATION_ISSUE"
  | .prepAtPosition _ => "PREP_AT_POSITION"
  | .calibrationRevsEnd _ => "CALIBRATION_REVS_END"
  | .writeRevolutionEnd _ => "WRITE_REVOLUTION_END"
  | .verifyRevolutionEnd _ => "VERIFY_REVOLUTION_END"
  | .resolve _ => "RESOLVE"
  | .wpRecovered _ _ => "WP_RECOVERED"
  | .verifyOnlyLoadDone _ => "VERIFY_ONLY_LOAD_DONE"
  | .flrComplete _ => "FLR_COMPLETE"
  | .configRequest _ _ => "CONFIG_REQUEST"
  | .linkUp _ _ => "LINK_UP"
  | .completionReceived _ _ _ => "COMPLETION_RECEIVED"
  | .cplTimeout _ => "CPL_TIMEOUT"
  | .peerRead _ _ _ => "PEER_READ"
  | .peerWrite _ _ _ => "PEER_WRITE"
  | .windowCommit _ => "WINDOW_COMMIT"
  | .msixVectorUnmask _ _ => "MSIX_VECTOR_UNMASK"
  | .badRegisterAccess _ _ => "BAD_REGISTER_ACCESS"
  | .queuePairEnable _ => "QUEUE_PAIR_ENABLE"
  | .queuePairDisable _ => "QUEUE_PAIR_DISABLE"
  | .sqTailDoorbell _ _ => "SQ_TAIL_DOORBELL"
  | .cqHeadDoorbell _ _ => "CQ_HEAD_DOORBELL"
  | .completionPost _ => "COMPLETION_POST"
  | .coalTimeExpiry _ => "COAL_TIME_EXPIRY"
  | .selfTestDone _ => "SELF_TEST_DONE"
  | .configPiece _ => "CONFIG_PIECE"
  | .volumeMountProceed _ => "VOLUME_MOUNT_PROCEED"
  | .scrubDone _ => "SCRUB_DONE"
  | .scrubLap _ => "SCRUB_LAP"
  | .bucketLeak _ => "BUCKET_LEAK"
  | .bucketReset _ _ => "BUCKET_RESET"
  | .tableLowWrite _ _ => "TABLE_LOW_WRITE"
  | .tableHighWrite _ _ => "TABLE_HIGH_WRITE"
  | .tableLowRead _ => "TABLE_LOW_READ"
  | .wayPowerDown _ _ => "WAY_POWER_DOWN"
  | .wayPowerUp _ => "WAY_POWER_UP"
  | .wayOff _ _ => "WAY_OFF"
  | .lcaClean _ _ _ => "LCA_CLEAN"
  | .lcaInvalidate _ _ _ => "LCA_INVALIDATE"
  | .lcaCleanInvalidate _ _ _ => "LCA_CLEAN_INVALIDATE"
  | .lcaPreload _ _ => "LCA_PRELOAD"
  | .svnCommit _ => "SVN_COMMIT"
  | .keyRevoke _ _ => "KEY_REVOKE"
  | .fuseProgramDone _ => "FUSE_PROGRAM_DONE"
  | .imageLoadDone _ => "IMAGE_LOAD_DONE"
  | .bootRecordSign _ => "BOOT_RECORD_SIGN"
  | .pieceProgrammed _ => "PIECE_PROGRAMMED"
  | .stageVerifyDone _ => "STAGE_VERIFY_DONE"
  | .stageCopyDone _ => "STAGE_COPY_DONE"
  | .armPrepared _ => "ARM_PREPARED"
  | .shiftCommitReceived _ _ => "SHIFT_COMMIT_RECEIVED"
  | .shiftTablesCopied _ => "SHIFT_TABLES_COPIED"
  | .frameStartReceived _ => "FRAME_START_RECEIVED"
  | .claimReceived _ _ => "CLAIM_RECEIVED"
  | .frameReturned _ _ _ _ => "FRAME_RETURNED"
  | .shiftAbortReceived _ => "SHIFT_ABORT_RECEIVED"
  | .pieceMessage _ _ => "PIECE_MESSAGE"
  | .mgmtMessage _ => "MGMT_MESSAGE"
  | .unitResetMessage _ _ => "UNIT_RESET_MESSAGE"
  | .shiftReqMessage _ => "SHIFT_REQ_MESSAGE"
  | .excludeMessage _ => "EXCLUDE_MESSAGE"
  | .msgSend _ => "MSG_SEND"
  | .msgReturned _ _ => "MSG_RETURNED"
  | .shiftRequest _ => "SHIFT_REQUEST"
  | .excludeRequest _ => "EXCLUDE_REQUEST"
  | .pornDeassert _ => "PORN_DEASSERT"
  | .srstnDeassert _ => "SRSTN_DEASSERT"
  | .railFault _ => "RAIL_FAULT"
  | .sysclkReturn _ => "SYSCLK_RETURN"
  | .lrefLoss _ => "LREF_LOSS"
  | .sensorSample _ _ => "SENSOR_SAMPLE"
  | .calUnit _ _ _ => "CAL_UNIT"
  | .evtClear _ _ => "EVT_CLEAR"
  | .evtMaskWrite _ _ => "EVT_MASK_WRITE"
  | .evtForceWrite _ _ => "EVT_FORCE_WRITE"
  | .rcRead _ _ => "RC_READ"
  | .registerWrite _ _ _ _ _ => "REGISTER_WRITE"
  | .lrefReturn _ => "LREF_RETURN"
  | .railReturn _ => "RAIL_RETURN"
  | .wayOn _ => "WAY_ON"
  | .profileTick => "PROFILE_TICK"
  | .speedTick => "SPEED_TICK"
  | .holdover => "HOLDOVER"
  | .tckCountRead => "TCK_COUNT_READ"
  | .slotReserve => "SLOT_RESERVE"
  | .prcDisable => "PRC_DISABLE"
  | .perstAssert => "PERST_ASSERT"
  | .perstDeassert => "PERST_DEASSERT"
  | .hotReset => "HOT_RESET"
  | .flrPf0 => "FLR_PF0"
  | .flrPf1 => "FLR_PF1"
  | .linkDown => "LINK_DOWN"
  | .decodeBoundary => "DECODE_BOUNDARY"
  | .containmentForce => "CONTAINMENT_FORCE"
  | .containmentFrozen => "CONTAINMENT_FROZEN"
  | .containmentRelease => "CONTAINMENT_RELEASE"
  | .pf0D3hot => "PF0_D3HOT"
  | .controllerEnable => "CONTROLLER_ENABLE"
  | .controllerReset => "CONTROLLER_RESET"
  | .arbitration => "ARBITRATION"
  | .read => "READ"
  | .append => "APPEND"
  | .writeAt => "WRITE_AT"
  | .flush => "FLUSH"
  | .sealSeam => "SEAL_SEAM"
  | .identify => "IDENTIFY"
  | .getLog => "GET_LOG"
  | .setFeature => "SET_FEATURE"
  | .getFeature => "GET_FEATURE"
  | .abort => "ABORT"
  | .selfTestShort => "SELF_TEST_SHORT"
  | .selfTestExtended => "SELF_TEST_EXTENDED"
  | .selfTestStop => "SELF_TEST_STOP"
  | .configArm => "CONFIG_ARM"
  | .attestRead => "ATTEST_READ"
  | .volumeMount => "VOLUME_MOUNT"
  | .volumeRelease => "VOLUME_RELEASE"
  | .dramScrubGo => "DRAM_SCRUB_GO"
  | .dramScrubStop => "DRAM_SCRUB_STOP"
  | .narrowWriteTimeout => "NARROW_WRITE_TIMEOUT"
  | .testRawWrite => "TEST_RAW_WRITE"
  | .testRawRead => "TEST_RAW_READ"
  | .testOpDone => "TEST_OP_DONE"
  | .opDone => "OP_DONE"
  | .stageAbandon => "STAGE_ABANDON"
  | .shiftFrameBegin => "SHIFT_FRAME_BEGIN"
  | .shiftQuiescent => "SHIFT_QUIESCENT"
  | .shiftStayTimeout => "SHIFT_STAY_TIMEOUT"
  | .ringEnable => "RING_ENABLE"
  | .ringDisable => "RING_DISABLE"
  | .ringElect => "RING_ELECT"
  | .loopLocked => "LOOP_LOCKED"
  | .loopFail => "LOOP_FAIL"
  | .frameSilence => "FRAME_SILENCE"
  | .electionRestart => "ELECTION_RESTART"
  | .ringOpen => "RING_OPEN"
  | .collectExpiry => "COLLECT_EXPIRY"
  | .msgLost => "MSG_LOST"
  | .rxBufferFree => "RX_BUFFER_FREE"
  | .ringTimeRead => "RING_TIME_READ"
  | .pornAssert => "PORN_ASSERT"
  | .srstnAssert => "SRSTN_ASSERT"
  | .clkFault => "CLK_FAULT"
  | .pcieRefLoss => "PCIE_REF_LOSS"
  | .calForce => "CAL_FORCE"
  | .calPeriodic => "CAL_PERIODIC"
  | .pf0D0 => "PF0_D0"
  | .hotResetReady => "HOT_RESET_READY"
  | .pcieRefReturn => "PCIE_REF_RETURN"
  | .ringInLockLoss => "RING_IN_LOCK_LOSS"

/-- A command whose operands the block's interfaces can carry. -/
def WellFormed : Instr → Bool
  | .servoTick shorts cycles => decide (shorts.length = 8) && decide (cycles.length = 32)
  | .motorTick samples => decide (samples.length = 8) && samples.all fun m => decide (m.vbus < 2 ^ 16 ∧ m.ibrk < 2 ^ 16)
  | .ringFrameTick _ => true
  | .tckCtlWrite _ => true
  | .tckAsyDeadlineWrite _ => true
  | .collierOverrun _ _ => true
  | .lrnSkip _ => true
  | .obsLate _ => true
  | .wndOvr _ => true
  | .sldOvr _ => true
  | .asyMiss _ => true
  | .takeoverPartnerFree _ => true
  | .seekReissue _ => true
  | .takeoverRequest _ => true
  | .handbackRequest _ => true
  | .handbackDone _ => true
  | .linkWordPush _ _ _ _ _ => true
  | .fifoPop _ _ flips => flips.all fun p => decide (p.1 < 16 ∧ p.2 < 72)
  | .fifoOverflow _ _ => true
  | .fifoFlush _ _ => true
  | .echoReceived _ _ _ => true
  | .alignMarker _ lanes => decide (lanes.length = 6) && lanes.all fun x => match x.block with | some b => decide (b.1 < 4 ∧ b.2 < 2 ^ 64) | none => true
  | .rotate _ => true
  | .laneRestoreSoak _ _ => true
  | .laneFail _ _ _ => true
  | .linkEnable _ => true
  | .linkDisable _ => true
  | .trainDone _ => true
  | .trainFail _ => true
  | .prbsCtlWrite _ _ => true
  | .farLoopbackD0 _ lane => decide (lane.toNat < 6)
  | .farLoopbackD1 _ lane => decide (lane.toNat < 6)
  | .farLoopbackEnd _ lane => decide (lane.toNat < 6)
  | .hfeGeneratorStart _ lane _ => decide (lane.toNat < 6)
  | .hfeGeneratorStop _ lane => decide (lane.toNat < 6)
  | .cmdTimeout _ => true
  | .eyeScanStart _ _ _ _ => true
  | .eyeScanDone _ _ => true
  | .tickLeadWrite _ _ => true
  | .coefCommit _ _ => true
  | .coefCopy _ => true
  | .rpEvaluation _ => true
  | .mediaOperationTake _ => true
  | .acqFail _ => true
  | .jumpBrake _ => true
  | .jumpSettle _ => true
  | .seekFail _ => true
  | .sledArrived _ => true
  | .seekComplete _ => true
  | .layerHopKick _ => true
  | .layerHopDone _ => true
  | .layerFail _ => true
  | .angleLossPark _ => true
  | .fixTimeout _ => true
  | .holdExit _ => true
  | .holdTimeout _ => true
  | .headFaultReset _ => true
  | .collierEnable _ => true
  | .collierDisable _ => true
  | .seedDone _ _ => true
  | .seedRequest _ _ => true
  | .tableClear _ _ => true
  | .sledTargetWrite _ _ => true
  | .groupGo _ => true
  | .sledStop _ => true
  | .sledPark _ => true
  | .sledHome _ => true
  | .sledEnable _ => true
  | .sledDisable _ => true
  | .limitDebounced _ => true
  | .homeFail _ => true
  | .deckLoad _ => true
  | .deckStart _ => true
  | .deckStop _ => true
  | .deckUnload _ => true
  | .deckFaultReset _ _ => true
  | .speedTargetWrite _ _ => true
  | .overcurrent _ => true
  | .drvFault _ => true
  | .gateHoldEnd _ _ _ => true
  | .pillarReport _ => true
  | .spinMeasureEnd _ => true
  | .alignEnd _ => true
  | .handoverTimeout _ => true
  | .spinFail _ => true
  | .shortHoldEnd _ => true
  | .stopped _ => true
  | .channelEnable _ => true
  | .channelDisable _ => true
  | .channelLock _ => true
  | .lockTimeout _ => true
  | .pillarDetect _ _ => true
  | .zoneReload _ => true
  | .driftSlot _ slot => decide (slot < 160)
  | .defect _ => true
  | .driftDelivered _ => true
  | .innerDecodeDone _ => true
  | .lodeEnd _ _ => true
  | .jobStart _ => true
  | .jobDone _ _ _ _ => true
  | .entryLink _ => true
  | .prcFlush _ => true
  | .lingerExpiry _ _ => true
  | .writeOperationIssue _ => true
  | .prepAtPosition _ => true
  | .calibrationRevsEnd _ => true
  | .writeRevolutionEnd _ => true
  | .verifyRevolutionEnd _ => true
  | .resolve _ => true
  | .wpRecovered _ _ => true
  | .verifyOnlyLoadDone x => x.fits
  | .flrComplete _ => true
  | .configRequest _ r => r.fits
  | .linkUp speed width => decide (1 ≤ speed ∧ speed ≤ 5) && [1, 2, 4, 8, 16].contains width
  | .completionReceived _ bytes _ => decide (bytes.length ≤ 4096)
  | .cplTimeout _ => true
  | .peerRead _ len x => decide (1 ≤ len ∧ len ≤ 4096) && x.fits
  | .peerWrite _ bytes x => decide (1 ≤ bytes.length ∧ bytes.length ≤ 4096) && x.fits
  | .windowCommit mask => decide (mask.toNat ≠ 0)
  | .msixVectorUnmask fn v => decide (fn.val = 0 ∨ v.toNat < 32)
  | .badRegisterAccess _ _ => true
  | .queuePairEnable _ => true
  | .queuePairDisable _ => true
  | .sqTailDoorbell _ _ => true
  | .cqHeadDoorbell _ _ => true
  | .completionPost _ => true
  | .coalTimeExpiry _ => true
  | .selfTestDone _ => true
  | .configPiece _ => true
  | .volumeMountProceed _ => true
  | .scrubDone _ => true
  | .scrubLap _ => true
  | .bucketLeak _ => true
  | .bucketReset _ _ => true
  | .tableLowWrite a _ => (Machine.tableEntry a.toNat).isSome
  | .tableHighWrite a _ => decide (4 ≤ a.toNat) && (Machine.tableEntry (a.toNat - 4)).isSome
  | .tableLowRead a => (Machine.tableEntry a.toNat).isSome
  | .wayPowerDown _ x => x.fits
  | .wayPowerUp _ => true
  | .wayOff _ x => x.fits
  | .lcaClean _ _ x => x.fits
  | .lcaInvalidate _ _ x => x.fits
  | .lcaCleanInvalidate _ _ x => x.fits
  | .lcaPreload _ x => x.fits
  | .svnCommit _ => true
  | .keyRevoke _ _ => true
  | .fuseProgramDone _ => true
  | .imageLoadDone x => x.fits
  | .bootRecordSign _ => true
  | .pieceProgrammed _ => true
  | .stageVerifyDone f => f.fits
  | .stageCopyDone f => f.fits
  | .armPrepared f => f.fits
  | .shiftCommitReceived _ _ => true
  | .shiftTablesCopied _ => true
  | .frameStartReceived x => x.fits
  | .claimReceived _ _ => true
  | .frameReturned _ path _ status => decide (path < 2 ^ 24) && decide (status.length ≤ 1024) && status.all fun u => decide (u.length = 4)
  | .shiftAbortReceived _ => true
  | .pieceMessage m _ => m.fits
  | .mgmtMessage m => m.fits
  | .unitResetMessage m _ => m.fits
  | .shiftReqMessage m => m.fits
  | .excludeMessage m => m.fits
  | .msgSend _ => true
  | .msgReturned m _ => m.fits
  | .shiftRequest _ => true
  | .excludeRequest _ => true
  | .pornDeassert _ => true
  | .srstnDeassert _ => true
  | .railFault _ => true
  | .sysclkReturn _ => true
  | .lrefLoss _ => true
  | .sensorSample temps _ => decide (temps.length = 16)
  | .calUnit _ _ _ => true
  | .evtClear a _ => Machine.evtPartAt a.toNat == some .bits
  | .evtMaskWrite a _ => Machine.evtPartAt a.toNat == some .mask
  | .evtForceWrite a _ => Machine.evtPartAt a.toNat == some .force
  | .rcRead sp a => sp.fits a.toNat
  | .registerWrite sp a _ x _ => sp.fits a.toNat && x.fits
  | .lrefReturn _ => true
  | .railReturn _ => true
  | .wayOn _ => true
  | .profileTick => true
  | .speedTick => true
  | .holdover => true
  | .tckCountRead => true
  | .slotReserve => true
  | .prcDisable => true
  | .perstAssert => true
  | .perstDeassert => true
  | .hotReset => true
  | .flrPf0 => true
  | .flrPf1 => true
  | .linkDown => true
  | .decodeBoundary => true
  | .containmentForce => true
  | .containmentFrozen => true
  | .containmentRelease => true
  | .pf0D3hot => true
  | .controllerEnable => true
  | .controllerReset => true
  | .arbitration => true
  | .read => true
  | .append => true
  | .writeAt => true
  | .flush => true
  | .sealSeam => true
  | .identify => true
  | .getLog => true
  | .setFeature => true
  | .getFeature => true
  | .abort => true
  | .selfTestShort => true
  | .selfTestExtended => true
  | .selfTestStop => true
  | .configArm => true
  | .attestRead => true
  | .volumeMount => true
  | .volumeRelease => true
  | .dramScrubGo => true
  | .dramScrubStop => true
  | .narrowWriteTimeout => true
  | .testRawWrite => true
  | .testRawRead => true
  | .testOpDone => true
  | .opDone => true
  | .stageAbandon => true
  | .shiftFrameBegin => true
  | .shiftQuiescent => true
  | .shiftStayTimeout => true
  | .ringEnable => true
  | .ringDisable => true
  | .ringElect => true
  | .loopLocked => true
  | .loopFail => true
  | .frameSilence => true
  | .electionRestart => true
  | .ringOpen => true
  | .collectExpiry => true
  | .msgLost => true
  | .rxBufferFree => true
  | .ringTimeRead => true
  | .pornAssert => true
  | .srstnAssert => true
  | .clkFault => true
  | .pcieRefLoss => true
  | .calForce => true
  | .calPeriodic => true
  | .pf0D0 => true
  | .hotResetReady => true
  | .pcieRefReturn => true
  | .ringInLockLoss => true

end Sys2Proof
end

