-- ==== Sys2Proof/Certificates/Slice0/Obligations.lean ====
section
/-!
DEFINITION. The statements for the provers. A docstring says in words what its statement says. Where a statement rests on a
reading or a choice of the model, it names the entry of the assumption log.
-/

set_option linter.unusedVariables false

open Sys2Proof Sys2Proof.Machine

/-- For every command c, queue rest and state s: the step of s with c in front of rest is exec of c on s with the rest. On an empty
queue the step answers the state itself (the model's choice, log 1). -/
def Obligations.StepTakesTheFront : Prop :=
  ∀ s : State,
    (∀ (c : Instr) (rest : List Instr), step { s with pending := c :: rest } = exec c { s with pending := rest }) ∧
    (s.pending = [] → step s = .next s)

/-- For every command and state, exec answers a next state, or it faults with dramAddress and the command is TEST_RAW_WRITE,
TEST_RAW_READ, LCA_PRELOAD or REGISTER_WRITE. No command is refused. That those four stop is the model's choice (log 9). -/
def Obligations.EveryCommandCompletesOrNamesNoLine : Prop :=
  ∀ (c : Instr) (s : State),
    (∃ t, exec c s = .next t) ∨
    (exec c s = .fault .dramAddress ∧ c.mnemonic ∈ ["TEST_RAW_WRITE", "TEST_RAW_READ", "LCA_PRELOAD", "REGISTER_WRITE"])

/-- State.reset is canonical; TCK_COUNT is 0, no command waits, and a register field reads its reset value except the five that show
the device's inputs and fuses; the full load is in progress with boot cause 1 (that reset stands at the end of PORn is the model's
reading, log 8; the fuses are its choice, log 7). -/
def Obligations.ResetIsCanonical : Prop :=
  State.reset.Canonical ∧ State.reset.tick = 0 ∧ State.reset.pending = [] ∧ State.reset.cfg.load = some { cause := 1 } ∧
  ∀ (f : Machine.Field) (i : Nat),
    (∀ g ∈ [F.CFG_KEYS_FUSED, F.PWR_STATUS_PCIE_REF, F.PWR_STATUS_SYSCLK, F.PWR_STATUS_LREF, F.PWR_STATUS_RAILS], g.id ≠ f.id) →
    State.reset.getF f i = f.reset

/-- For every canonical state s, whatever command stands in front of its queue: if the step answers next t, t is canonical: the
register store rises, lists no reset value and nothing wider than its field; DRAM and its check bytes are in canonical form;
TCK_COUNT stays within 48 bits. The queue then holds exactly the rest. -/
def Obligations.EveryStepKeepsCanonicalForm : Prop :=
  ∀ s t : State, s.Canonical → step s = .next t → t.Canonical ∧ t.pending = s.pending.tail

/-- R10. For every seam number n below 64: the side is bit 5, the layer bits 4 to 1, the band bit 0, and the three give n back. -/
def Obligations.SeamNumbering : Prop :=
  ∀ n < 64, seamSide n = (n.testBit 5).toNat ∧ seamLayer n = n / 2 % 16 ∧ seamBand n = (n.testBit 0).toNat ∧
    n = 32 * seamSide n + 2 * seamLayer n + seamBand n

/-- R32. From LOCK clear with no good frame counted, after a list of frames with |e| at most 1 LOCK is set exactly when the list has
16 or more. From LOCK set with no bad frame counted, after a list of frames with |e| above 4 LOCK is clear exactly when the list
has 4 or more, and DISC_UNLOCK is then raised. A frame that breaks a run starts its count again; one between leaves LOCK. Every
measurement of TCK does this. -/
def Obligations.DisciplineLock : Prop :=
  ∀ (s : State) (es : List Nat),
    (s.isSet F.TCK_STATUS_LOCK 0 = false → s.tck.inRun = 0 → (∀ e ∈ es, e ≤ 1) →
      ((es.foldl State.discLock s).isSet F.TCK_STATUS_LOCK 0 = true ↔ 16 ≤ es.length)) ∧
    (s.isSet F.TCK_STATUS_LOCK 0 = true → s.tck.outRun = 0 → (∀ e ∈ es, 4 < e) →
      ((es.foldl State.discLock s).isSet F.TCK_STATUS_LOCK 0 = false ↔ 4 ≤ es.length) ∧
      (4 ≤ es.length → (es.foldl State.discLock s).isSet F.TCK_EVT_DISC_UNLOCK 0 = true)) ∧
    (∀ e, (1 < e → (s.discLock e).tck.inRun = 0) ∧ (e ≤ 4 → (s.discLock e).tck.outRun = 0) ∧
      (1 < e → e ≤ 4 → (s.discLock e).isSet F.TCK_STATUS_LOCK 0 = s.isSet F.TCK_STATUS_LOCK 0)) ∧
    (∀ e : Int, s.isSet F.TCK_CTL_DISC_EN 0 = true →
      (s.measure e).isSet F.TCK_STATUS_LOCK 0 = (s.discLock e.natAbs).isSet F.TCK_STATUS_LOCK 0)

/-- R292. When the oldest commit names a window that would be enabled with SIZE 0 or above 64, or with its end above the installed
DRAM, DECODE_BOUNDARY answers a next state in which no live window field has changed, SEQ has risen by one, REFUSED is set and
COMMIT_REJECT raised. When it names none, REFUSED is clear. -/
def Obligations.RefusedCommit : Prop :=
  ∀ (s : State) (m : Nat) (rest : List Nat), s.pwr.held = [] → s.hif.commits = m :: rest →
    ((∃ w < 8, m.testBit w = true ∧ s.isSet F.HIF_WIN_SIZE_CTL_EN w = true ∧
        (s.getF F.HIF_WIN_SIZE_CTL_SIZE w = 0 ∨ 64 < s.getF F.HIF_WIN_SIZE_CTL_SIZE w ∨
          s.dramLines * 64 < s.getF F.HIF_WIN_BASE_LO_BASE_LO w * 2 ^ 21 + s.getF F.HIF_WIN_BASE_HI_BASE_HI w * 2 ^ 32 +
            s.getF F.HIF_WIN_SIZE_CTL_SIZE w * 2 ^ 21)) →
      ∃ t, exec .decodeBoundary s = .next t ∧ t.isSet F.HIF_WIN_STATUS_REFUSED 0 = true ∧
        t.isSet F.HIF_EVT_COMMIT_REJECT 0 = true ∧
        t.getF F.HIF_WIN_STATUS_SEQ 0 = (s.getF F.HIF_WIN_STATUS_SEQ 0 + 1) % 2 ^ F.HIF_WIN_STATUS_SEQ.width ∧
        ∀ f ∈ [F.HIF_WIN_LIVE_BASE_LO_BASE_LO, F.HIF_WIN_LIVE_BASE_HI_BASE_HI, F.HIF_WIN_LIVE_SIZE_CTL_SIZE,
          F.HIF_WIN_LIVE_SIZE_CTL_WR_EN, F.HIF_WIN_LIVE_SIZE_CTL_RD_EN, F.HIF_WIN_LIVE_SIZE_CTL_EN], ∀ v, t.getF f v = s.getF f v) ∧
    ((∀ w < 8, m.testBit w = true → s.isSet F.HIF_WIN_SIZE_CTL_EN w = true →
        s.getF F.HIF_WIN_SIZE_CTL_SIZE w ≠ 0 ∧ s.getF F.HIF_WIN_SIZE_CTL_SIZE w ≤ 64 ∧
          s.getF F.HIF_WIN_BASE_LO_BASE_LO w * 2 ^ 21 + s.getF F.HIF_WIN_BASE_HI_BASE_HI w * 2 ^ 32 +
            s.getF F.HIF_WIN_SIZE_CTL_SIZE w * 2 ^ 21 ≤ s.dramLines * 64) →
      ∃ t, exec .decodeBoundary s = .next t ∧ t.isSet F.HIF_WIN_STATUS_REFUSED 0 = false)

/-- While DISC_EN is set, a TCK_CTL write with another STEP_LIM (as the register clamps it) or SLEW answers a next state with
CFG_REJECT raised and every field of TCK_CTL as before; a write with the same two sets DISC_EN as written. That the values are
compared as clamped is the model's choice (log 96). -/
def Obligations.DisciplinedTckCtl : Prop :=
  ∀ (s : State) (w : BitVec 32), s.pf1Served = true → s.isSet F.TCK_CTL_DISC_EN 0 = true →
    (min 3125 (max 8 (bitsOf w.toNat 31 16)) ≠ s.getF F.TCK_CTL_STEP_LIM 0 ∨ bitsOf w.toNat 5 4 ≠ s.getF F.TCK_CTL_SLEW 0 →
      ∃ t, exec (.tckCtlWrite w) s = .next t ∧ t.isSet F.TCK_EVT_CFG_REJECT 0 = true ∧
        ∀ f ∈ [F.TCK_CTL_STEP_LIM, F.TCK_CTL_SLEW, F.TCK_CTL_STEP_OK, F.TCK_CTL_DISC_EN], t.getF f 0 = s.getF f 0) ∧
    (min 3125 (max 8 (bitsOf w.toNat 31 16)) = s.getF F.TCK_CTL_STEP_LIM 0 → bitsOf w.toNat 5 4 = s.getF F.TCK_CTL_SLEW 0 →
      ∃ t, exec (.tckCtlWrite w) s = .next t ∧ t.isSet F.TCK_CTL_DISC_EN 0 = decide (bitsOf w.toNat 0 0 = 1) ∧
        t.getF F.TCK_CTL_STEP_LIM 0 = s.getF F.TCK_CTL_STEP_LIM 0 ∧ t.getF F.TCK_CTL_SLEW 0 = s.getF F.TCK_CTL_SLEW 0)

/-- A corrected error of class x counts in MEM_CE_TOTAL; the level rises by one without an interrupt while it stays within DEPTH, and
otherwise returns to 0 with OVERFLOWS counted and CE_OVERFLOW raised. -/
def Obligations.LeakyBuckets : Prop :=
  ∀ (s : State) (x : Fin 2),
    (s.getF F.MEM_CE_STATUS_LEVEL x + 1 ≤ max 1 (s.getF F.MEM_CE_CTL_DEPTH x) → s.getF F.MEM_CE_STATUS_LEVEL x + 1 < 2 ^ 16 →
      (s.correctedErr x).getF F.MEM_CE_STATUS_LEVEL x = s.getF F.MEM_CE_STATUS_LEVEL x + 1 ∧
      (s.correctedErr x).getF F.MEM_CE_STATUS_OVERFLOWS x = s.getF F.MEM_CE_STATUS_OVERFLOWS x ∧ (s.correctedErr x).out = s.out) ∧
    (max 1 (s.getF F.MEM_CE_CTL_DEPTH x) < s.getF F.MEM_CE_STATUS_LEVEL x + 1 →
      (s.correctedErr x).getF F.MEM_CE_STATUS_LEVEL x = 0 ∧ (s.correctedErr x).isSet F.MEM_EVT_CE_OVERFLOW 0 = true ∧
      (s.correctedErr x).getF F.MEM_CE_STATUS_OVERFLOWS x =
        min (s.getF F.MEM_CE_STATUS_OVERFLOWS x + 1) (2 ^ F.MEM_CE_STATUS_OVERFLOWS.width - 1)) ∧
    (s.correctedErr x).getF F.MEM_CE_TOTAL_COUNT x = min (s.getF F.MEM_CE_TOTAL_COUNT x + 1) (2 ^ 32 - 1)

/-- SERVO_TICK: TCK_COUNT rises modulo 2^48. MOTOR_TICK on k mod 10 = 0: Vbus and chopper current are those sampled. PROFILE_TICK on k
mod 20 = 0: the follow count of an axis rises. SPEED_TICK on k mod 100 = 0: SPEED_MEAS shows the speed. HOLDOVER after 200 ticks
without a frame: HOLDOVER set, LOCK clear, its event. COLLIER_OVERRUN (of more than 1,080 cycles, or of a number not given),
LRN_SKIP, ASY_MISS: their events, counts and marks. Other decks or heads are taken as idle where they would act too. -/
def Obligations.TickRows : Prop :=
  ∀ s : State, s.pwr.held = [] →
    (∀ shorts cycles, ∃ t, exec (.servoTick shorts cycles) s = .next t ∧ t.tick = (s.tick + 1) % 2 ^ 48) ∧
    (∀ samples (d : Fin 8), s.onTick 10 = true →
      ∃ t, exec (.motorTick samples) s = .next t ∧ t.getF F.WND_BUS_VBUS d = (samples.getD d {}).vbus % 2 ^ 16 ∧
        t.getF F.WND_BUS_IBRK d = (samples.getD d {}).ibrk % 2 ^ 16) ∧
    (∀ h : Fin 32, s.onTick 20 = true → (∀ g < h.val, s.axis g = slOFF ∧ s.clr g = hdOFF) → s.axisTakes h = true → (s.sld h).req ≠ 0 →
      ∃ t, exec .profileTick s = .next t ∧ t.getF F.SLD_FOLLOW_DONE h = min (s.getF F.SLD_FOLLOW_DONE h + 1) 4095) ∧
    (∀ d : Fin 8, s.onTick 100 = true → s.deck d ≠ dkEMPTY → (∀ e < 8, e ≠ d.val → s.deck e = dkEMPTY) →
      ∃ t, exec .speedTick s = .next t ∧ t.getF F.WND_SPEED_MEAS d = unsgn 16 (rnd 14 (s.rpm16 d))) ∧
    (s.isSet F.TCK_CTL_DISC_EN 0 = true → s.isSet F.TCK_STATUS_HOLDOVER 0 = false → 200 ≤ s.ticksSince s.tck.since →
      ∃ t, exec .holdover s = .next t ∧ t.isSet F.TCK_STATUS_HOLDOVER 0 = true ∧ t.isSet F.TCK_STATUS_LOCK 0 = false ∧
        t.isSet F.TCK_EVT_HOLDOVER 0 = true ∧ t.tck.slew = 0) ∧
    (∀ (h : Fin 32) cycles, cycles = 0 ∨ 1080 < cycles → s.clr h ≠ hdOFF → s.tck.repeated = false →
      (s.cl h).ovr.head? ≠ some s.tick →
      ∃ t, exec (.collierOverrun h cycles) s = .next t ∧ t.isSet F.TCK_EVT_CLR_OVR 0 = true ∧ t.bitF F.TCK_OVR_HEADS_HEAD 0 h = true ∧
        t.getF F.TCK_CLR_OVR_TOTAL h = min (s.getF F.TCK_CLR_OVR_TOTAL h + 1) 65535) ∧
    (∀ h : Fin 32, s.tck.repeated = false → ∃ t, exec (.lrnSkip h) s = .next t ∧ t.isSet F.TCK_EVT_LRN_SKIP 0 = true ∧
      t.bitF F.TCK_OVR_HEADS_HEAD 0 h = true) ∧
    (∀ y : Fin 96, s.passDue y = true →
      ∃ t, exec (.asyMiss y) s = .next t ∧ t.isSet F.TCK_EVT_ASY_MISS 0 = true ∧
        t.getF F.TCK_ASY_MISS_COUNT 0 = min (s.getF F.TCK_ASY_MISS_COUNT 0 + 1) (2 ^ 32 - 1))

/-- TCK_CTL fields, the deadline within 400 to 16,000 or CFG_REJECT, and the count with its latched high half. -/
def Obligations.TickRegisterRows : Prop :=
  ∀ s : State, s.pf1Served = true →
    (∀ w : BitVec 32, s.isSet F.TCK_CTL_DISC_EN 0 = false →
      ∃ t, exec (.tckCtlWrite w) s = .next t ∧ t.getF F.TCK_CTL_STEP_LIM 0 = min 3125 (max 8 (bitsOf w.toNat 31 16)) ∧
        t.getF F.TCK_CTL_SLEW 0 = bitsOf w.toNat 5 4 ∧ t.isSet F.TCK_CTL_DISC_EN 0 = decide (bitsOf w.toNat 0 0 = 1)) ∧
    (∀ w : BitVec 32, s.isSet F.TCK_CTL_DISC_EN 0 = true → bitsOf w.toNat 5 4 ≠ s.getF F.TCK_CTL_SLEW 0 →
      ∃ t, exec (.tckCtlWrite w) s = .next t ∧ t.isSet F.TCK_EVT_CFG_REJECT 0 = true ∧
        t.getF F.TCK_CTL_STEP_LIM 0 = s.getF F.TCK_CTL_STEP_LIM 0 ∧ t.getF F.TCK_CTL_SLEW 0 = s.getF F.TCK_CTL_SLEW 0 ∧
        t.isSet F.TCK_CTL_DISC_EN 0 = true) ∧
    (∀ w : BitVec 32, 400 ≤ bitsOf w.toNat 15 0 → bitsOf w.toNat 15 0 ≤ 16000 →
      ∃ t, exec (.tckAsyDeadlineWrite w) s = .next t ∧ t.getF F.TCK_ASY_DEADLINE_TICKS 0 = bitsOf w.toNat 15 0) ∧
    (∀ w : BitVec 32, bitsOf w.toNat 15 0 < 400 ∨ 16000 < bitsOf w.toNat 15 0 →
      ∃ t, exec (.tckAsyDeadlineWrite w) s = .next t ∧ t.isSet F.TCK_EVT_CFG_REJECT 0 = true ∧
        t.getF F.TCK_ASY_DEADLINE_TICKS 0 = s.getF F.TCK_ASY_DEADLINE_TICKS 0) ∧
    (s.tick < 2 ^ 48 →
      ∃ t, exec .tckCountRead s = .next t ∧ t.getF F.TCK_COUNT_HI_COUNT_HI 0 = s.tick / 2 ^ 32 ∧ .regData (s.tick % 2 ^ 32) ∈ t.out)

/-- TAKEOVER_REQUEST starts a takeover or is refused; HANDBACK_REQUEST of an unserved band and HANDBACK_DONE return routing;
TAKEOVER_PARTNER_FREE and SEEK_REISSUE put a takeover seek in the partner's queue. -/
def Obligations.RoutingRows : Prop :=
  ∀ (s : State) (h : Fin 32),
    (s.pf1Served = true → s.taken h = false → s.moving h = false → s.taken (partner h) = false → s.moving (partner h) = false →
      s.deck (deckOfHead h) = dkREADY → s.partnerFit h = true →
      ∃ t, exec (.takeoverRequest h) s = .next t ∧ t.isSet F.GLB_EVT_TAKEOVER_START 0 = true) ∧
    (s.pf1Served = true → s.taken h = false → s.deck (deckOfHead h) ≠ dkREADY ∨ s.partnerFit h = false →
      ∃ t, exec (.takeoverRequest h) s = .next t ∧ t.isSet F.GLB_EVT_TAKEOVER_REFUSED 0 = true) ∧
    (s.pf1Served = true → s.moving h = false → s.unserved h = true → s.eligible h = true →
      ∃ t, exec (.handbackRequest h) s = .next t ∧ t.isSet F.GLB_EVT_HANDBACK_DONE 0 = true ∧ t.taken h = false) ∧
    (s.pwr.held = [] → (s.head h).band.handback = true → s.worksOn (partner h) h = false →
      ∃ t, exec (.handbackDone h) s = .next t ∧ t.isSet F.GLB_EVT_HANDBACK_DONE 0 = true ∧ t.taken h = false) ∧
    (s.pwr.held = [] → s.HostQuiet → (s.head h).band.take = .waitPartner → s.partnerFree h = true → s.bandSeeds (partner h) = false →
      (∀ i < 2, s.seedMin (partner h) ≤ s.getF F.LRN_LOOP_STATUS_REVS (lrnIdx (partner h) i)) →
      ∃ t, exec (.takeoverPartnerFree h) s = .next t ∧ (t.head h).band.take = .seeking 0 ∧
        ∃ o ∈ (t.head (partner h)).ops, o.kind = .takeoverSeek) ∧
    (∀ n, s.pwr.held = [] → s.HostQuiet → (s.head h).band.take = .seeking n → s.seekUnderWay (partner h) = false →
      s.idlePoint (partner h) = true →
      ∃ t, exec (.seekReissue h) s = .next t ∧ ∃ o ∈ (t.head (partner h)).ops, o.kind = .takeoverSeek)

/-- Where the rules accept it: a request starts the takeover and withdraws the partner's waiting operations; a handback request marks
the band and takes its operations from the partner; HANDBACK_DONE returns routing; a free partner seeds its learner from the
head's, or begins the takeover seek; a seek that is not under way is issued again. That a band counts as served from
TAKEOVER_START, that an unserved band needs READY, and which track the seek names are the model's choices (logs 83, 85, 86). -/
def Obligations.TakeoverRowsComplete : Prop :=
  ∀ (s : State) (h : Fin 32), s.pf1Served = true → s.HostQuiet →
    (s.taken h = false → s.moving h = false → s.taken (partner h) = false → s.moving (partner h) = false →
      s.deck (deckOfHead h) = dkREADY → s.partnerFit h = true →
      ∃ t, exec (.takeoverRequest h) s = .next t ∧ t.isSet F.GLB_EVT_TAKEOVER_START 0 = true ∧ t.taken h = false ∧
        (t.head h).band.take = .waitPartner ∧ (t.head h).band.unserved = false ∧ (t.head h).band.requested = !s.unserved h ∧
        (t.head (partner h)).ops = []) ∧
    (s.moving h = false → s.unserved h = false → s.taken h = true → s.eligible h = true →
      ∃ t, exec (.handbackRequest h) s = .next t ∧ t.taken h = true ∧ (t.head h).band.handback = true ∧
        (t.head (partner h)).ops = (s.head (partner h)).ops.filter fun o => !o.onBand h) ∧
    ((s.head h).band.handback = true → s.worksOn (partner h) h = false → s.asy.waiting = [] →
      ∃ t, exec (.handbackDone h) s = .next t ∧ t.isSet F.GLB_EVT_HANDBACK_DONE 0 = true ∧ t.taken h = false ∧
        (t.head h).band.handback = false) ∧
    ((s.head h).band.take = .waitPartner → s.partnerFree h = true → s.bandSeeds (partner h) = false →
      (∀ i < 2, s.seedMin (partner h) ≤ s.getF F.LRN_LOOP_STATUS_REVS (lrnIdx (partner h) i) ∨
        s.getF F.LRN_LOOP_STATUS_REVS (lrnIdx h i) < s.seedMin (partner h)) →
      ∃ t, exec (.takeoverPartnerFree h) s = .next t ∧ (t.head h).band.take = .seeking 0 ∧
        ∃ o ∈ (t.head (partner h)).ops, o.kind = .takeoverSeek ∧ o.vol = deckOfHead h) ∧
    (∀ i : Fin 2, (s.head h).band.take = .waitPartner → s.partnerFree h = true →
      s.getF F.LRN_LOOP_STATUS_REVS (lrnIdx (partner h) i) < s.seedMin (partner h) →
      s.seedMin (partner h) ≤ s.getF F.LRN_LOOP_STATUS_REVS (lrnIdx h i) →
      ∃ t, exec (.takeoverPartnerFree h) s = .next t ∧ (t.head h).band.take = .seeding ∧
        (t.lrnLoop (partner h) i).copy = some (h.val, 0)) ∧
    (∀ n, (s.head h).band.take = .seeking n → s.seekUnderWay (partner h) = false → s.idlePoint (partner h) = true →
      ∃ t, exec (.seekReissue h) s = .next t ∧ (t.head h).band.take = .seeking n ∧
        ∃ o ∈ (t.head (partner h)).ops, o.kind = .takeoverSeek ∧ o.vol = deckOfHead h)

/-- The commit pends and is taken outside WRITE; the head goes PARKED, OFF; a fault reset clears the head fault and the overrun
history. -/
def Obligations.CollierCommandRows : Prop :=
  ∀ (s : State) (h : Fin 32),
    (∀ zero, s.pf1Served = true → ∃ t, exec (.coefCommit h zero) s = .next t ∧ t.isSet F.CLR_COEF_COMMIT_PEND h = true ∧
      t.isSet F.CLR_STATUS_COMMIT_PEND h = true ∧ (zero = true → t.isSet F.CLR_COEF_COMMIT_ZERO_STATE h = true)) ∧
    (s.pf1Served = true → s.clr h = hdOFF → s.linkUp h = true →
      ∃ t, exec (.collierEnable h) s = .next t ∧ t.clr h = hdPARKED ∧ t.isSet F.CLR_CTL_EN h = true) ∧
    (s.pf1Served = true → s.clr h ≠ hdSAFE →
      ∃ t, exec (.collierDisable h) s = .next t ∧ t.clr h = hdOFF ∧ t.isSet F.CLR_CTL_EN h = false) ∧
    (s.pf1Served = true → s.clr h = hdSAFE →
      ∃ t, exec (.headFaultReset h) s = .next t ∧ t.clr h = hdOFF ∧ t.bitF F.GLB_HEAD_FAULT_HEAD 0 h = false ∧
        t.getF F.TCK_CLR_OVR_RECENT h = 0) ∧
    (s.pwr.held = [] → s.isSet F.CLR_COEF_COMMIT_PEND h = true → s.clr h ≠ hdWRITE →
      ∃ t, exec (.coefCopy h) s = .next t ∧ t.isSet F.CLR_COEF_COMMIT_PEND h = false ∧
        t.isSet F.CLR_STATUS_COMMIT_PEND h = false ∧ t.isSet F.CLR_COEF_COMMIT_ZERO_STATE h = false)

/-- RP_EVALUATION steps the read power code towards the target; MEDIA_OPERATION_TAKE, ACQ_FAIL, JUMP_BRAKE, JUMP_SETTLE, SEEK_FAIL,
SLED_ARRIVED, SEEK_COMPLETE, LAYER_HOP_KICK, LAYER_HOP_DONE, LAYER_FAIL, ANGLE_LOSS_PARK, FIX_TIMEOUT, HOLD_EXIT and HOLD_TIMEOUT
put the head into the state the table gives, with their events. -/
def Obligations.CollierEventRows : Prop :=
  ∀ (s : State) (h : Fin 32), s.pwr.held = [] →
    (∀ ldm, (s.link h).ldm = some ldm → s.rpDue h = true → s.getF F.CLR_RP_LIM_MIN h ≤ s.getF F.CLR_RP_STATUS_CODE h →
      s.getF F.CLR_RP_STATUS_CODE h ≤ s.getF F.CLR_RP_LIM_MAX h → s.getF F.CLR_RP_LIM_MAX h < 1024 →
      ∃ t, exec (.rpEvaluation h) s = .next t ∧
        (s.getF F.CLR_RP_CTL_TARGET h + s.getF F.CLR_RP_CTL_BAND h < ldm → s.getF F.CLR_RP_LIM_MIN h < s.getF F.CLR_RP_STATUS_CODE h →
          t.getF F.CLR_RP_STATUS_CODE h = s.getF F.CLR_RP_STATUS_CODE h - 1) ∧
        (ldm + s.getF F.CLR_RP_CTL_BAND h < s.getF F.CLR_RP_CTL_TARGET h → s.getF F.CLR_RP_STATUS_CODE h < s.getF F.CLR_RP_LIM_MAX h →
          t.getF F.CLR_RP_STATUS_CODE h = s.getF F.CLR_RP_STATUS_CODE h + 1)) ∧
    (∀ o rest, (s.head h).ops = o :: rest → s.clr h = hdPARKED → (s.head h).op = none → s.frozen = false →
      s.isSet F.HQI_CSTS_HELD 0 = false → s.angleValid (deckOfHead h) = true → o.kind ≠ .park → s.axisAwaited h = false →
      o.layer < 16 →
      ∃ t, exec (.mediaOperationTake h) s = .next t ∧ t.clr h = hdACQUIRE ∧ t.getF F.CLR_POS_LAYER h = o.layer) ∧
    (s.acqExhausted h = true →
      ∃ t, exec (.acqFail h) s = .next t ∧ t.clr h = hdPARKED ∧ t.isSet F.CLR_EVT_ACQ_FAIL h = true) ∧
    (∀ a d n c k r rep, (s.cl h).seq = some (.kick a d n c k r rep) → (n + 1) / 2 ≤ c →
      ∃ t, exec (.jumpBrake h) s = .next t ∧ (t.cl h).seq = some (.brake a d n c k r rep) ∧ t.getF F.CLR_STATUS_PHASE h = 6) ∧
    (∀ a d n c k r rep, (s.cl h).seq = some (.brake a d n c k r rep) → n ≤ c →
      ∃ t, exec (.jumpSettle h) s = .next t ∧ t.closed h 1 = true ∧ t.getF F.CLR_STATUS_PHASE h = 7) ∧
    (s.seekMissed h = true → s.clr h ≠ hdOFF → s.clr h ≠ hdSAFE →
      ∃ t, exec (.seekFail h) s = .next t ∧ t.clr h = hdHOLD ∧ t.isSet F.CLR_EVT_SEEK_FAIL h = true) ∧
    (∀ a rep z, (s.cl h).seq = some (.sledMove a rep true z) → 2 ≤ z →
      ∃ t, exec (.sledArrived h) s = .next t ∧ (t.cl h).seq = some (.sledTrack a rep 0) ∧ t.getF F.CLR_STATUS_PHASE h = 4) ∧
    (∀ o, s.clr h = hdSEEK → (s.cl h).seq = some .ended → s.isSet F.CLR_STATUS_TF h = true → s.frozen = false →
      (s.head h).op = some o → o.kind = .seek → s.getF F.CLR_POS_LAYER h = o.layer → s.atTrack h o.track = true →
      ∃ t, exec (.seekComplete h) s = .next t ∧ t.clr h = hdFOLLOW ∧ t.getF F.CLR_STATUS_PHASE h = 0) ∧
    (∀ a d k p ok, (s.cl h).seq = some (.hop a d k 0 p ok) → s.getF F.CLR_LAYER_CTL_KT h ≤ k →
      ∃ t, exec (.layerHopKick h) s = .next t ∧ t.closed h 0 = false ∧ t.isSet F.CLR_STATUS_FOCUS_OK h = false ∧
        t.getF F.CLR_STATUS_PHASE h = 9) ∧
    (∀ d k p ok, (s.cl h).seq = some (.hop (s.getF F.CLR_POS_LAYER h) d k 3 p ok) → 64 ≤ ok →
      ∃ t, exec (.layerHopDone h) s = .next t ∧ (t.cl h).seq = some (.hopTrack 0) ∧ t.getF F.CLR_STATUS_PHASE h = 4) ∧
    (∀ a d k q p ok, (s.cl h).seq = some (.hop a d k q p ok) → 4 * s.getF F.CLR_LAYER_CTL_TMO h ≤ k →
      ∃ t, exec (.layerFail h) s = .next t ∧ t.clr h = hdACQUIRE ∧ t.isSet F.CLR_EVT_LAYER_FAIL h = true) ∧
    (working (s.clr h) = true → 400 ≤ (s.cl h).noAngle → ∃ t, exec (.angleLossPark h) s = .next t ∧ t.clr h = hdPARKED) ∧
    (∀ o, s.HostQuiet → s.waitsFix h = true → 4000 ≤ (s.cl h).fixWait → (s.head h).op = some o → o.kind = .seek →
      s.wcy h = wsIDLE →
      ∃ t, exec (.fixTimeout h) s = .next t ∧ (t.head h).op = none ∧ o ∈ (t.head h).ops ∧ (t.cl h).fixWait = 0) ∧
    (s.holdMayEnd h = true → s.closed h 1 = false → (s.cl h).seq = none →
      ∃ t, exec (.holdExit h) s = .next t ∧ t.clr h = hdHOLD ∧ t.getF F.CLR_STATUS_PHASE h = 4) ∧
    (s.holdMayEnd h = true → s.closed h 1 = true → s.isSet F.CLR_STATUS_TF h = true → (s.head h).op = none → s.frozen = false →
      ∃ t, exec (.holdExit h) s = .next t ∧ t.clr h = hdFOLLOW) ∧
    (s.clr h = hdHOLD → 16 * max 1 (s.getF F.CLR_HOLD_CTL_MAX h) ≤ (s.cl h).hold →
      ∃ t, exec (.holdTimeout h) s = .next t ∧ t.clr h = hdSAFE ∧ t.isSet F.CLR_EVT_HOLD_TIMEOUT h = true ∧
        t.bitF F.GLB_HEAD_FAULT_HEAD 0 h = true)

/-- Targets, groups, stop, park, home, enable, disable, the limit switch, HOME_FAIL and SLD_OVR. -/
def Obligations.SledRows : Prop :=
  ∀ (s : State) (h : Fin 32),
    (∀ w : BitVec 32, s.pf1Served = true → s.axisTakes h = true → s.getF F.SLD_GEOM_GROUP h = 0 →
      ∃ t, exec (.sledTargetWrite h w) s = .next t ∧ (t.sld h).x = (s.softClamp h (sgn 32 w.toNat * oneStep)).1) ∧
    (∀ w : BitVec 32, s.pf1Served = true → s.axisTakes h = true → s.getF F.SLD_GEOM_GROUP h ≠ 0 →
      ∃ t, exec (.sledTargetWrite h w) s = .next t ∧ (t.sld h).pend = some (sgn 32 w.toNat * oneStep) ∧ (t.sld h).x = (s.sld h).x) ∧
    (∀ w : BitVec 32, s.pf1Served = true → s.axisTakes h = false →
      ∃ t, exec (.sledTargetWrite h w) s = .next t ∧ t.isSet F.SLD_EVT_CFG_REJECT h = true ∧ (t.sld h).x = (s.sld h).x) ∧
    (∀ (w : BitVec 32) (x : Int), s.pf1Served = true → s.getF F.SLD_GEOM_GROUP h ≠ 0 → w.toNat.testBit (s.getF F.SLD_GEOM_GROUP h) = true →
      (s.sld h).pend = some x → ∃ t, exec (.groupGo w) s = .next t ∧ (t.sld h).rise = some x ∧ (t.sld h).pend = none) ∧
    (s.pf1Served = true → s.axis h = slMOVING →
      ∃ t, exec (.sledStop h) s = .next t ∧ (t.sld h).x = stopPoint (s.sldD h) (s.sld h).p (s.sld h).v) ∧
    (s.pf1Served = true → s.axisTakes h = true →
      ∃ t, exec (.sledPark h) s = .next t ∧ (t.sld h).x = (s.softClamp h (s.parkPos h)).1 ∧ t.axis h = slMOVING) ∧
    (s.pf1Served = true → s.axis h = slUNHOMED →
      ∃ t, exec (.sledHome h) s = .next t ∧ t.axis h = slHOMING ∧
        t.getF F.SLD_STATUS_PHASE h = if s.isSet F.SLD_STATUS_SWITCH h then 1 else 2) ∧
    (s.pf1Served = true → s.axis h = slOFF → s.clr h ≠ hdOFF →
      ∃ t, exec (.sledEnable h) s = .next t ∧ t.axis h = slUNHOMED ∧ t.isSet F.SLD_CTL_EN h = true) ∧
    (s.pf1Served = true → s.axis h ≠ slFAULT ∨ (s.sld h).faultAt ≠ some s.tick →
      ∃ t, exec (.sledDisable h) s = .next t ∧ t.axis h = slOFF ∧ t.isSet F.SLD_CTL_EN h = false) ∧
    (s.pf1Served = true → s.axis h = slFAULT → (s.sld h).faultAt = some s.tick →
      ∃ t, exec (.sledDisable h) s = .next t ∧ t.axis h = slFAULT ∧ t.isSet F.SLD_CTL_EN h = false) ∧
    (s.pwr.held = [] → s.rawActive h ≠ s.isSet F.SLD_STATUS_SWITCH h → s.sldDeb h ≤ (s.sld h).run →
      ∃ t, exec (.limitDebounced h) s = .next t ∧ t.isSet F.SLD_STATUS_SWITCH h = s.rawActive h ∧
        (s.rawActive h = true → s.axisTakes h = true → t.axis h = slSTOPPING ∧ t.isSet F.SLD_EVT_LIMIT_HIT h = true)) ∧
    (s.pwr.held = [] → s.homeExpired h = true → s.rawActive h = s.isSet F.SLD_STATUS_SWITCH h →
      ∃ t, exec (.homeFail h) s = .next t ∧ t.isSet F.SLD_EVT_HOME_FAIL h = true) ∧
    (s.pwr.held = [] → s.axisRuns h = true → s.onTick 20 = true →
      ∃ t, exec (.sldOvr h) s = .next t ∧ t.isSet F.TCK_EVT_SLD_OVR 0 = true ∧ t.bitF F.TCK_OVR_HEADS_HEAD 0 h = true)

/-- A seed copy ends with SEEDED; a request starts a copy or is rejected while one runs; a clear empties the table. -/
def Obligations.LearnerRows : Prop :=
  ∀ (s : State) (h : Fin 32) (i : Fin 2),
    (∀ src n, s.pwr.held = [] → (s.lrnLoop h i).copy = some (src, n) → 1024 ≤ n →
      ∃ t, exec (.seedDone h i) s = .next t ∧ t.isSet F.LRN_LOOP_STATUS_SEEDED (lrnIdx h i) = true ∧
        t.isSet F.LRN_LOOP_STATUS_EMPTY (lrnIdx h i) = false ∧ t.getF F.LRN_LOOP_STATUS_REVS (lrnIdx h i) = 0 ∧
        t.isSet F.LRN_EVT_SEED_DONE h = true) ∧
    (s.pf1Served = true → s.seedBusy h = false → s.learnOn h i = true →
      s.seedMin h ≤ s.getF F.LRN_LOOP_STATUS_REVS (lrnIdx (partner h) i) →
      ∃ t, exec (.seedRequest h (1#2 <<< i.val)) s = .next t ∧ (t.lrnLoop h i).copy = some (partner h, 0)) ∧
    (∀ loops, s.pf1Served = true → s.seedBusy h = true →
      ∃ t, exec (.seedRequest h loops) s = .next t ∧ t.isSet F.LRN_EVT_CFG_REJECT h = true) ∧
    (s.pf1Served = true →
      ∃ t, exec (.tableClear h (1#2 <<< i.val)) s = .next t ∧ t.isSet F.LRN_LOOP_STATUS_EMPTY (lrnIdx h i) = true ∧
        t.getF F.LRN_LOOP_STATUS_REVS (lrnIdx h i) = 0 ∧ t.isSet F.LRN_EVT_CLEARED h = true)

/-- LINK_ENABLE, LINK_DISABLE, PRBS_CTL_WRITE, the five LINK_CMD rows, FIFO_FLUSH, LANE_FAIL by DIS, EYE_SCAN_START and
TICK_LEAD_WRITE store what is written, send what the rules say, or are rejected. -/
def Obligations.LinkRegisterRows : Prop :=
  ∀ (s : State) (h : Fin 32), s.pf1Served = true →
    (s.lk h = lkOFF → ∃ t, exec (.linkEnable h) s = .next t ∧ t.isSet F.LNK_HEAD_CTL_EN h = true ∧ t.lk h = lkTRAIN) ∧
    (∃ t, exec (.linkDisable h) s = .next t ∧ t.isSet F.LNK_HEAD_CTL_EN h = false ∧ t.lk h = lkOFF) ∧
    (∀ (l : Fin 256) (w : BitVec 32), s.clr (l / 8) = hdOFF →
      ∃ t, exec (.prbsCtlWrite l w) s = .next t ∧ t.getF F.LNK_PRBS_CTL_PAT l = bitsOf w.toNat 4 2 ∧
        t.getF F.LNK_PRBS_CTL_NEAR l = bitsOf w.toNat 6 6 ∧ t.getF F.LNK_PRBS_CTL_INV l = bitsOf w.toNat 5 5 ∧
        t.getF F.LNK_PRBS_CTL_CHK_EN l = bitsOf w.toNat 1 1 ∧ t.getF F.LNK_PRBS_CTL_GEN_EN l = bitsOf w.toNat 0 0) ∧
    (∀ (l : Fin 256) (w : BitVec 32), s.clr (l / 8) ≠ hdOFF →
      ∃ t, exec (.prbsCtlWrite l w) s = .next t ∧ t.isSet F.LNK_EVT_CFG_REJECT 0 = true ∧
        t.bitF F.LNK_EVT_HEADS_HEAD 0 (l / 8) = true ∧
        t.getF F.LNK_PRBS_CTL_PAT l = s.getF F.LNK_PRBS_CTL_PAT l ∧ t.getF F.LNK_PRBS_CTL_GEN_EN l = s.getF F.LNK_PRBS_CTL_GEN_EN l) ∧
    (∀ c ∈ [(Instr.farLoopbackD0 h, 1), (.farLoopbackD1 h, 2), (.farLoopbackEnd h, 3), (fun lane => .hfeGeneratorStart h lane 0, 4),
        (.hfeGeneratorStop h, 5)], ∀ lane : BitVec 3, s.clr h = hdOFF → s.isSet F.LNK_HFE_CMD_BUSY h = false →
      ∃ t, exec (c.1 lane) s = .next t ∧ t.isSet F.LNK_HFE_CMD_BUSY h = true ∧ t.getF F.LNK_HFE_CMD_OP h = c.2 ∧
        t.getF F.LNK_HFE_CMD_LANE h = lane.toNat ∧
        (s.downOn h 0 = true → .block h 0 (linkCmdBlock (s.link h).cmdSeq c.2 lane.toNat 0) ∈ t.out)) ∧
    (∀ lane pat : BitVec 3, s.clr h = hdOFF → s.isSet F.LNK_HFE_CMD_BUSY h = false →
      ∃ t, exec (.hfeGeneratorStart h lane pat) s = .next t ∧ t.isSet F.LNK_HFE_CMD_BUSY h = true ∧ t.getF F.LNK_HFE_CMD_PAT h = pat.toNat ∧
        (s.downOn h 0 = true → .block h 0 (linkCmdBlock (s.link h).cmdSeq 4 lane.toNat pat.toNat) ∈ t.out)) ∧
    (∀ lane pat : BitVec 3, s.clr h ≠ hdOFF →
      ∃ t, exec (.hfeGeneratorStart h lane pat) s = .next t ∧ t.isSet F.LNK_EVT_CFG_REJECT 0 = true ∧
        t.getF F.LNK_HFE_CMD_OP h = 4 ∧ t.getF F.LNK_HFE_CMD_LANE h = lane.toNat ∧ t.getF F.LNK_HFE_CMD_PAT h = pat.toNat ∧
        t.isSet F.LNK_HFE_CMD_BUSY h = s.isSet F.LNK_HFE_CMD_BUSY h) ∧
    (∀ (w : BitVec 32) (f : Fin 6), w.toNat.testBit f = true → (s.link h).wait = [] → (s.link h).base ≤ (s.link h).due →
      ∃ t, exec (.fifoFlush h w) s = .next t ∧ (t.fifo h f).drain = none ∧ (t.fifo h f).fill = none ∧ (t.fifo h f).stalled = none) ∧
    (∀ lane : Fin 8, s.lk h = lkOFF → ∃ t, exec (.laneFail h lane .dis) s = .next t ∧ t.isSet F.LNK_LANE_CTL_DIS (8 * h + lane) = true) ∧
    (∀ (l : Fin 256) (dwell : BitVec 4) (vofs hofs : BitVec 6), l.val % 8 < 6 →
      ∃ t, exec (.eyeScanStart l dwell vofs hofs) s = .next t ∧ t.isSet F.LNK_EYE_CTL_START l = true ∧
        t.isSet F.LNK_EYE_RESULT_DONE l = false ∧ t.getF F.LNK_EYE_CTL_DWELL l = dwell.toNat ∧
        t.getF F.LNK_EYE_CTL_VOFS l = vofs.toNat ∧ t.getF F.LNK_EYE_CTL_HOFS l = hofs.toNat) ∧
    (∀ w : BitVec 32, bitsOf w.toNat 31 31 = 1 → 16 ≤ bitsOf w.toNat 10 0 → bitsOf w.toNat 10 0 ≤ 224 →
      ∃ t, exec (.tickLeadWrite h w) s = .next t ∧ t.isSet F.LNK_TICK_LEAD_OVR h = true ∧
        t.getF F.LNK_TICK_LEAD_LEAD h = bitsOf w.toNat 10 0) ∧
    (∀ w : BitVec 32, bitsOf w.toNat 31 31 = 1 → bitsOf w.toNat 10 0 < 16 ∨ 224 < bitsOf w.toNat 10 0 →
      ∃ t, exec (.tickLeadWrite h w) s = .next t ∧ t.isSet F.LNK_EVT_CFG_REJECT 0 = true ∧
        t.getF F.LNK_TICK_LEAD_LEAD h = s.getF F.LNK_TICK_LEAD_LEAD h)

/-- LINK_WORD_PUSH, FIFO_POP, FIFO_OVERFLOW (nothing of the bonded stream waiting), ECHO_RECEIVED, ALIGN_MARKER, ROTATE,
LANE_RESTORE_SOAK, LANE_FAIL, TRAIN_DONE, TRAIN_FAIL, CMD_TIMEOUT and EYE_SCAN_DONE. -/
def Obligations.LinkEventRows : Prop :=
  ∀ (s : State) (h : Fin 32), s.pwr.held = [] →
    (∀ (lane f : Fin 6) n (w : BitVec 64) rtt it, let l := upLane h lane
      s.HostQuiet → s.isSet F.LNK_PRBS_CTL_NEAR l = false → s.isSet F.LNK_LANE_STATUS_BLOCK_LOCK l = true → (s.lane l).badHdr < 16 →
      s.receives h = true → s.soaks h lane = false → s.bitF F.LNK_HEAD_STATUS_ACTIVE h lane = true → s.isHole h lane = false →
      s.stalled h = false → (s.link h).wait = [] →
      (s.link h).due = (s.link h).base + 5 * (s.lane l).cnt + ((s.ranked h).takeWhile (· ≠ lane.val)).length →
      (s.link h).cur = some (f.val, n) → (s.fifo h f).drop = false → (s.fifo h f).full = false → (s.fifo h f).fill = some it →
      it.words.length + 1 < fifoWords f →
      ∃ t, exec (.linkWordPush h lane 1 w rtt) s = .next t ∧
        (t.fifo h f).fill = some { it with words := it.words ++ [LWord.of (descramble (s.lane l).scr w.toNat).1 false] } ∧
        (t.link h).due = (s.link h).due + 1) ∧
    (∀ (f : Fin 6) flips it, (s.link h).wait = [] → (s.link h).base ≤ (s.link h).due → (s.fifo h f).drain = some it →
      (s.fifo h f).full = false → (s.fifo h f).stalled = none →
      ∃ t, exec (.fifoPop h f flips) s = .next t ∧ (t.fifo h f).drain = none ∧ (t.fifo h f).lastSeq = some it.seq) ∧
    (∀ f : Fin 6, (s.link h).wait = [] → (s.link h).base ≤ (s.link h).due → (s.fifo h f).stalled.isSome = true →
      ∃ t, exec (.fifoOverflow h f) s = .next t ∧ (t.fifo h f).stalled = none ∧ (t.fifo h f).drop = true ∧
        t.getF F.LNK_DROP_DROPS h = min (s.getF F.LNK_DROP_DROPS h + 1) 65535 ∧ t.isSet F.LNK_EVT_DROP 0 = true ∧ t.bitF F.LNK_EVT_HEADS_HEAD 0 h = true) ∧
    (∀ (seq : BitVec 8) rtt, s.lk h = lkTRAIN → seq.toNat < 8 → (s.link h).echoes < 8 →
      ∃ t, exec (.echoReceived h seq rtt) s = .next t ∧ (t.link h).echoes = (s.link h).echoes + 1 ∧
        (t.link h).rtt = max (s.link h).rtt rtt) ∧
    (∀ (lanes : List MarkerIn) (k : Fin 6), s.receives h = true →
      ∃ t, exec (.alignMarker h lanes) s = .next t ∧
        t.isSet F.LNK_LANE_STATUS_MARKER_OK (upLane h k) = (s.alignOf h k (lanes.getD k {})).isSome ∧
        t.getF F.LNK_LANE_STATUS_SKEW (upLane h k) = min 255 (lanes.getD k {}).skew) ∧
    (s.lk h = lkUP → s.isSet F.LNK_HEAD_CTL_ROT_EN h = true → (s.link h).req = none → s.getF F.LNK_HEAD_STATUS_SPARE h < 6 →
      (s.link h).rotWait = 0 → s.getF F.LNK_ROT_CTL_PERIOD h ≤ (s.link h).sinceRot →
      s.soaked (upLane h (s.getF F.LNK_HEAD_STATUS_SPARE h)) (s.getF F.LNK_ROT_CTL_SOAK h) = true →
      ∃ t, exec (.rotate h) s = .next t ∧
        (t.link h).req = some (.rotate, (s.getF F.LNK_HEAD_STATUS_SPARE h + 1) % 6, ((s.link h).mark + 2) % 2 ^ 24)) ∧
    (∀ lane : Fin 6, s.lk h = lkDEGRADED → s.isSet F.LNK_HEAD_CTL_RETRY_EN h = true → (s.link h).req = none →
      s.bitF F.LNK_HEAD_STATUS_FAILED h lane = true → s.isSet F.LNK_LANE_CTL_DIS (upLane h lane) = false →
      s.soaked (upLane h lane) (4 * s.getF F.LNK_ROT_CTL_SOAK h) = true →
      ∃ t, exec (.laneRestoreSoak h lane) s = .next t ∧ (t.link h).req = some (.restore, lane.val, ((s.link h).mark + 2) % 2 ^ 24)) ∧
    (∀ lane : Fin 8, lane.val < 6 → s.lk h = lkUP → s.getF F.LNK_HEAD_STATUS_SPARE h = lane → s.bitF F.LNK_HEAD_STATUS_FAILED h lane = false →
      (s.link h).req = none →
      ∃ t, exec (.laneFail h lane .signal) s = .next t ∧ t.lk h = lkDEGRADED ∧ t.bitF F.LNK_HEAD_STATUS_FAILED h lane = true ∧
        t.isSet F.LNK_LANE_STATUS_SIG_DET (8 * h + lane) = false ∧ t.isSet F.LNK_EVT_LANE_FAIL 0 = true ∧ t.bitF F.LNK_EVT_HEADS_HEAD 0 h = true) ∧
    (s.trainable h = true → (∀ k < 6, k ∈ s.trained h) →
      ∃ t, exec (.trainDone h) s = .next t ∧ t.lk h = lkUP ∧ t.getF F.LNK_TICK_LEAD_LEAD h = s.trainLead h) ∧
    (s.lk h = lkTRAIN → (s.link h).trainAt + 20000 ≤ s.tick → s.trainable h = false →
      ∃ t, exec (.trainFail h) s = .next t ∧ t.lk h = lkFAILED ∧ t.isSet F.LNK_EVT_TRAIN_FAIL 0 = true) ∧
    (s.isSet F.LNK_HFE_CMD_BUSY h = true → (s.link h).cmdAt + 3 ≤ s.tick →
      ∃ t, exec (.cmdTimeout h) s = .next t ∧ t.isSet F.LNK_HFE_CMD_BUSY h = false ∧ t.isSet F.LNK_HFE_CMD_TIMEOUT h = true ∧
        t.isSet F.LNK_EVT_CMD_TIMEOUT 0 = true ∧ t.bitF F.LNK_EVT_HEADS_HEAD 0 h = true) ∧
    (∀ (l : Fin 256) errors, s.isSet F.LNK_EYE_CTL_START l = true →
      ∃ t, exec (.eyeScanDone l errors) s = .next t ∧ t.isSet F.LNK_EYE_CTL_START l = false ∧ t.isSet F.LNK_EYE_RESULT_DONE l = true ∧
        t.getF F.LNK_EYE_RESULT_ERRORS l = min errors (2 ^ 24 - 1))

/-- LOAD, START, STOP, UNLOAD, FAULT_RST and the speed target. -/
def Obligations.DeckCommandRows : Prop :=
  ∀ (s : State) (d : Fin 8), s.pf1Served = true →
    (s.deck d = dkEMPTY → ∃ t, exec (.deckLoad d) s = .next t ∧ t.deck d = dkLOADED) ∧
    (s.deck d = dkLOADED ∨ s.deck d = dkBRAKING → s.isSet F.WND_CTL_EN d = true →
      ∃ t, exec (.deckStart d) s = .next t ∧ t.deck d = dkSPINUP ∧ t.phase d = 1 ∧ t.isSet F.WND_STATUS_LOCKED d = false ∧
        (t.wn d).gates = .off ∧ (t.wn d).target0 = s.getF F.WND_SPEED_SET_TARGET d) ∧
    (s.deck d = dkSPINUP ∨ s.deck d = dkREADY → s.headsDown d = true →
      ∃ t, exec (.deckStop d) s = .next t ∧ t.deck d = dkBRAKING ∧ (t.wn d).brake = .ramp ∧
        (t.wn d).negLim = s.getF F.WND_ILIM_IMAX d * 256) ∧
    (s.deck d = dkLOADED → s.isSet F.WND_STATUS_AT_REST d = true →
      ∃ t, exec (.deckUnload d) s = .next t ∧ t.deck d = dkEMPTY) ∧
    (s.deck d = dkFAULT → s.isSet F.WND_STATUS_AT_REST d = true →
      ∃ t, exec (.deckFaultReset d true) s = .next t ∧ t.deck d = dkLOADED ∧ (t.wn d).chopFault = false) ∧
    (∀ target : BitVec 16, s.getF F.WND_MOTOR_SPD_MIN d * 8 ≤ target.toNat → target.toNat ≤ s.getF F.WND_MOTOR_SPD_MAX d * 8 →
      ∃ t, exec (.speedTargetWrite d target) s = .next t ∧ t.getF F.WND_SPEED_SET_TARGET d = target.toNat)

/-- OBS_LATE (of the next tick, log 93), WND_OVR, OVERCURRENT, DRV_FAULT, GATE_HOLD_END, PILLAR_REPORT, SPIN_MEASURE_END, ALIGN_END,
HANDOVER_TIMEOUT, SPIN_FAIL, SHORT_HOLD_END and STOPPED. -/
def Obligations.DeckEventRows : Prop :=
  ∀ (s : State) (d : Fin 8), s.pwr.held = [] →
    ((s.wn d).lateNext = false → s.tck.repeats = 0 →
      ∃ t, exec (.obsLate d) s = .next t ∧ t.isSet F.TCK_EVT_OBS_LATE 0 = true ∧
        t.getF F.TCK_WND_OVR_OBS d = min (s.getF F.TCK_WND_OVR_OBS d + 1) 65535 ∧
        ((s.wn d).late < 3 → s.HostQuiet → (t.observe d).getF F.WND_ANGLE_THETA d =
          extrapolate 16 ((s.wn d).past.getD 0 (0, 0)).1 ((s.wn d).past.getD 1 ((s.wn d).past.getD 0 (0, 0))).1) ∧
        (3 ≤ (s.wn d).late → t.isSet F.WND_STATUS_ANGLE_VALID d = false)) ∧
    (s.onTick 10 = true → ∃ t, exec (.wndOvr d) s = .next t ∧ t.isSet F.TCK_EVT_WND_OVR 0 = true ∧ t.bitF F.TCK_OVR_DECKS_DECK 0 d = true ∧
      t.getF F.TCK_WND_OVR_STEP d = min (s.getF F.TCK_WND_OVR_STEP d + 1) 65535) ∧
    (∃ t, exec (.overcurrent d) s = .next t ∧ t.isSet F.WND_EVT_OVERCURRENT d = true ∧ t.isSet F.WND_STATUS_LOCKED d = false ∧
      t.isSet F.WND_STATUS_CHOP_ON d = false) ∧
    (∃ t, exec (.drvFault d) s = .next t ∧ t.isSet F.WND_EVT_DRV_FAULT d = true ∧ t.isSet F.WND_STATUS_LOCKED d = false ∧
      t.isSet F.WND_STATUS_CHOP_ON d = false) ∧
    (∀ since drvHigh clear, (s.wn d).brake = .hold since → since + 80 ≤ s.tick →
      ∃ t, exec (.gateHoldEnd d drvHigh clear) s = .next t ∧ (t.wn d).drvLow = !drvHigh ∧
        ((drvHigh && clear) = true → (t.wn d).brake = .short 0 none ∧ t.isSet F.WND_STATUS_SHORT d = true) ∧
        ((drvHigh && clear) = false → (t.wn d).brake = .coast)) ∧
    (∀ r, s.pickReport d = some r → s.isSet F.WND_STATUS_LOCKED d = true → (s.wn d).usedAt ≠ some s.tick →
      ∃ t, exec (.pillarReport d) s = .next t ∧
        t.getF F.WND_PILLAR_RESID d = unsgn 16 (s.residual r ((s.wn d).past.getD 1 (0, 0)).1 ((s.wn d).past.getD 1 (0, 0)).2)) ∧
    (s.deck d = dkSPINUP → s.phase d = 1 → 8 ≤ (s.wn d).offRun →
      ∃ t, exec (.spinMeasureEnd d) s = .next t ∧
        t.getF F.WND_CATCH_SPEED d = unsgn 16 (((s.wn d).found.map Prod.fst).getD 0) ∧
        ((((s.wn d).found.map Prod.fst).getD 0).natAbs * 200 < (s.wn d).target0 →
          t.getF F.WND_CATCH_RESULT d = 0 ∧ t.phase d = 4)) ∧
    (s.deck d = dkSPINUP → s.phase d = 4 → (s.wn d).phaseAt + 400 * max 1 (s.getF F.WND_START_ALIGN_T d) ≤ s.tick →
      ∃ t, exec (.alignEnd d) s = .next t ∧ t.phase d = 5 ∧ (t.wn d).olRate = 0 ∧ (t.wn d).phaseAt = s.tick) ∧
    (s.deck d = dkSPINUP → s.phase d = 6 → (s.wn d).waitRest = false → s.isSet F.WND_STATUS_LOCKED d = false →
      (s.wn d).phaseAt + 640 ≤ s.tick →
      ∃ t, exec (.handoverTimeout d) s = .next t ∧ t.isSet F.WND_STATUS_LOCKED d = false ∧
        t.isSet F.WND_STATUS_CHOP_ON d = false ∧ (2 ≤ (s.wn d).tries → t.isSet F.WND_EVT_SPIN_FAIL d = true)) ∧
    (s.deck d = dkSPINUP → (s.wn d).spinAt + 40000 * max 1 (s.getF F.WND_LIMITS_SPIN_TMO d) ≤ s.tick →
      ∃ t, exec (.spinFail d) s = .next t ∧ t.isSet F.WND_EVT_SPIN_FAIL d = true) ∧
    (∀ n since, (s.wn d).brake = .short n (some since) → since + 80000 ≤ s.tick →
      ∃ t, exec (.shortHoldEnd d) s = .next t ∧ (t.wn d).brake = .none ∧ (t.wn d).gates = .off ∧
        t.isSet F.WND_STATUS_SHORT d = false) ∧
    (s.deck d = dkBRAKING → (s.wn d).gatesOn = false → s.isSet F.WND_STATUS_AT_REST d = true →
      ∃ t, exec (.stopped d) s = .next t ∧ t.isSet F.WND_EVT_STOPPED d = true)

/-- Enable, disable, lock, lock timeout, zone reload, pillar, drift slot, defect, delivery and the inner decode. -/
def Obligations.ChannelRows : Prop :=
  ∀ (s : State) (c : Fin 128),
    (s.pf1Served = true → s.ch c = chOFF →
      ∃ t, exec (.channelEnable c) s = .next t ∧ t.isSet F.CHN_CTL_EN c = true ∧ t.ch c = chWAIT) ∧
    (s.pf1Served = true →
      ∃ t, exec (.channelDisable c) s = .next t ∧ t.isSet F.CHN_CTL_EN c = false ∧ t.ch c = chOFF ∧
        t.isSet F.CHN_STATUS_WOB_LOCK c = false) ∧
    (s.pf1Served = true → ∃ t, exec (.zoneReload c) s = .next t ∧ (t.chan c).reload = true) ∧
    (s.pwr.held = [] → s.ch c = chWAIT → s.isSet F.CHN_CTL_EN c = true → s.readable (headOfChan c) = true →
      s.angleValid (deckOfChan c) = true → s.beyondNow c = false →
      ∃ t, exec (.channelLock c) s = .next t ∧ t.ch c = chLOCK ∧ t.isSet F.CHN_STATUS_WOB_LOCK c = false) ∧
    (s.pwr.held = [] → s.ch c = chLOCK → 64 ≤ (s.chan c).periods →
      ∃ t, exec (.lockTimeout c) s = .next t ∧ t.isSet F.CHN_EVT_WOB_UNLOCK c = true ∧ (t.chan c).periods = 0) ∧
    (∀ (h : Fin 32) (k : BitVec 16) (b : Fin 4), s.pwr.held = [] → s.ch (4 * h + b) = chRUN →
      ∃ t, exec (.pillarDetect h k) s = .next t ∧
        t.getF F.CHN_WOB_STATUS_PERR (4 * h + b) = min (s.chan (4 * h + b)).rx.perr 65535) ∧
    (∀ j x r n o, s.pwr.held = [] → s.framing c = true → (s.chan c).drift = none → j < zoneD (s.getF F.CHN_STATUS_ZONE c) →
      s.identity c j = some r → (s.chan c).rx.slotIn j = some x → s.isSet F.CHN_CTL_BLANK_EN c = false →
      searchWord driftSync 64 (s.getF F.CHN_SYNC_CTL_SYNC_TH c) 24 x.bits = some (n, o) →
      ∃ t, exec (.driftSlot c j) s = .next t ∧
        (t.chan c).drift = some { record := { r with score := n, syncOfs := o }, slot := j, start := slotStart j + o } ∧
        t.getF F.CHN_SYNC_LAST_SCORE c = n % 256 ∧
        t.getF F.CHN_SYNC_STATS_FOUND c = min (s.getF F.CHN_SYNC_STATS_FOUND c + 1) 65535) ∧
    (s.pwr.held = [] → s.isSet F.CHN_CTL_DEF_EN c = true → s.ch c = chRUN → (s.chan c).rx.drop = none →
      max 1 (s.getF F.CHN_DEF_CTL_DEF_MIN c) ≤ (s.chan c).rx.lowRun →
      ∃ t, exec (.defect c) s = .next t ∧ t.isSet F.CHN_STATUS_DEFECT c = true ∧
        (t.chan c).rx.drop = some ((s.chan c).rx.lastLow + 1 - (s.chan c).rx.lowRun) ∧
        t.isSet F.CHN_EVT_DEFECT c = true ∧ t.getF F.CHN_DEF_STATS_DEFECTS c = min (s.getF F.CHN_DEF_STATS_DEFECTS c + 1) 65535) ∧
    (∀ d, s.pwr.held = [] → (s.chan c).drift = some d →
      ∃ t, exec (.driftDelivered c) s = .next t ∧ (t.chan c).drift = none ∧
        t.getF F.CHN_MSE_MSE c = min (d.data.getD (s.driftIn c d.start)).mse 65535) ∧
    (∀ j rest, s.pwr.held = [] → (s.chan c).inner = j :: rest →
      ∃ t, exec (.innerDecodeDone c) s = .next t ∧ (t.chan c).inner = startInner s.innerCtl rest)

/-- SLOT_RESERVE, LODE_END, JOB_START, JOB_DONE, ENTRY_LINK, PRC_FLUSH and PRC_DISABLE. -/
def Obligations.DecoderRows : Prop :=
  ∀ s : State,
    (∀ o rest y, s.pwr.held = [] → s.asy.waiting = o :: rest → s.routable (homeHead o.vol o.seam) = true → o.slot = none →
      s.slotOf o.vol o.seam o.x = none → s.canReserve false = true →
      (List.range 96).find? (fun y => !s.slotUsed y) = some y →
      ∃ t, exec .slotReserve s = .next t ∧ t.getF F.ASY_SLOT_STATE y = 1 ∧ t.asy.waiting = rest) ∧
    (∀ (y : Fin 96) passed, s.pwr.held = [] → s.slotReading y = true → s.isSet F.ASY_SLOT_ID_VERIFY y = true →
      (s.slot y).got.length = 160 →
      ∃ t, exec (.lodeEnd y passed) s = .next t ∧ t.getF F.ASY_SLOT_STATE y = 2 ∧ (t.slot y).endTick = s.tick ∧
        (t.slot y).deadline = s.tick + s.getF F.TCK_ASY_DEADLINE_TICKS 0) ∧
    (∀ (a : Fin 8) y, s.pwr.held = [] → s.isSet F.ASY_ENG_STATUS_BUSY a = false → s.nextJob = some y → y < 96 →
      s.innerPending y = false →
      ∃ t, exec (.jobStart a) s = .next t ∧ t.isSet F.ASY_ENG_STATUS_BUSY a = true ∧ t.getF F.ASY_ENG_STATUS_SLOT a = y ∧
        t.getF F.ASY_SLOT_STATE y = 3) ∧
    (∀ (a : Fin 8) buf entry ecc, let y := s.getF F.ASY_ENG_STATUS_SLOT a
      s.pwr.held = [] → s.isSet F.ASY_ENG_STATUS_BUSY a = true → vget s.asy.engGen 0 a = (s.slot y).gen →
      s.tick ≤ (s.slot y).deadline →
      ∃ t, exec (.jobDone a buf entry ecc) s = .next t ∧ t.isSet F.ASY_ENG_STATUS_BUSY a = false) ∧
    (∀ (c : Fin 128) g, s.pwr.held = [] → s.asy.staging.find? (fun p => p.1 = c.val) = some (c.val, g) → g.entry.slot < 96 →
      g.gen = (s.slot g.entry.slot).gen →
      ∃ t, exec (.entryLink c) s = .next t ∧ t.asy.staging = s.asy.staging.erase (c.val, g) ∧
        (t.slot g.entry.slot).entries = (s.slot g.entry.slot).entries ++
          [{ g.entry with tick := (s.slot g.entry.slot).endTick % 2 ^ 32 }]) ∧
    (∀ heads : BitVec 32, s.pf1Served = true →
      ∃ t, exec (.prcFlush heads) s = .next t ∧
        t.asy.staging = s.asy.staging.filter fun g => !heads.toNat.testBit (headOfChan g.1)) ∧
    (s.pf1Served = true → s.isSet F.PRC_CTL_EN 0 = true →
      ∃ t, exec .prcDisable s = .next t ∧ t.isSet F.PRC_CTL_EN 0 = false ∧ t.asy.used = [] ∧ t.asy.staging = [])

/-- LINGER_EXPIRY, WRITE_OPERATION_ISSUE, PREP_AT_POSITION, CALIBRATION_REVS_END, WRITE_REVOLUTION_END, VERIFY_REVOLUTION_END, RESOLVE
and WP_RECOVERED. -/
def Obligations.WritePathRows : Prop :=
  ∀ s : State, s.pwr.held = [] →
    (∀ (v : Fin 8) (n : Fin 64) o, (s.seam v n).openLode = some o → o.linger ≤ s.tick → o.drifts ≠ [] → o.drifts.length < 128 →
      ∃ t, exec (.lingerExpiry v n) s = .next t ∧ (t.seam v n).openLode = none ∧ t.isSet F.WRP_EVT_PAD 0 = true ∧
        ∃ l ∈ (t.seam v n).lodes, l.index = o.index ∧ l.user = o.drifts ++ List.replicate (128 - o.drifts.length) .pad) ∧
    (∀ (h : Fin 32) n p, s.HostQuiet → s.idlePoint h = true → s.hasWrite h = false → s.frozen = false →
      (s.head h).write.halted = false → s.isSet F.WRP_CTL_EN 0 = true → s.wcy h = wsIDLE → s.takeSeam h = some n →
      s.firstPos (deckOfHead h) n false = some p →
      ∃ t, exec (.writeOperationIssue h) s = .next t ∧ t.wcy h = wsPREP ∧
        ∃ o ∈ (t.head h).ops, o.kind = .write ∧ o.seam = n ∧ o.track = posTrack n p) ∧
    (∀ h : Fin 32, s.HostQuiet → s.writePlaced h = true → s.wcy h = wsPREP →
      s.posUnverified (deckOfHead h) (s.head h).write.seam (s.head h).write.bandPos = true →
      ∃ t, exec (.prepAtPosition h) s = .next t ∧ t.wcy h = wsVREV ∧ t.clr h = hdVERIFY) ∧
    (∀ (h : Fin 32) p a, s.HostQuiet → s.wcy h = wsCAL → (s.head h).write.cal = some (.write p a) → s.clr h = hdWRITE →
      oneRev ≤ (s.head h).write.turned → (s.head h).write.recording = none →
      ∃ t, exec (.calibrationRevsEnd h) s = .next t ∧ t.wcy h = wsCAL ∧ t.clr h = hdVERIFY) ∧
    (∀ h : Fin 32, s.HostQuiet → s.wcy h = wsWREV → s.clr h = hdWRITE → oneRev ≤ (s.head h).write.turned →
      (s.head h).write.recording = none →
      ∃ t, exec (.writeRevolutionEnd h) s = .next t ∧
        ((s.head h).write.any = true → t.wcy h = wsVREV ∧ t.clr h = hdVERIFY) ∧
        ((s.head h).write.any = false → t.wcy h = wsPREP ∧ t.clr h = hdFOLLOW)) ∧
    (∀ h : Fin 32, s.HostQuiet → s.wcy h = wsVREV → s.clr h = hdVERIFY → 2 * oneRev ≤ (s.head h).write.turned →
      ∃ t, exec (.verifyRevolutionEnd h) s = .next t ∧ t.wcy h = wsRESOLVE ∧ t.clr h = hdFOLLOW) ∧
    (∀ h : Fin 32, s.HostQuiet → s.mayResolve h = true → (s.head h).write.left = some true →
      ∃ t, exec (.resolve h) s = .next t ∧ t.wcy h = wsPREP) ∧
    (∀ (v : Fin 8) (n : Fin 64), s.HostQuiet → (s.seam v n).recov = some .ended →
      ∃ t, exec (.wpRecovered v n) s = .next t ∧ t.isSet F.WRP_SEAM_KNOWN (seamIdx v n) = true ∧
        t.isSet F.WRP_EVT_WP_RECOVERED 0 = true)

/-- Enable and reset, pair enable and disable, doorbells in and out of range, arbitration, the completion entry, coalescing,
SELF_TEST_DONE and VOLUME_MOUNT_PROCEED. -/
def Obligations.QueueRows : Prop :=
  ∀ s : State,
    (s.pf0Served = true → s.isSet F.CFG_STATUS_LOADED 0 = true → s.isSet F.HQI_CSTS_RDY 0 = false →
      ∃ t, exec .controllerEnable s = .next t ∧ t.isSet F.HQI_CC_EN 0 = true ∧ t.isSet F.HQI_CSTS_RDY 0 = true) ∧
    (s.pf0Served = true → s.isSet F.HQI_CC_EN 0 = true →
      ∃ t, exec .controllerReset s = .next t ∧ t.isSet F.HQI_CC_EN 0 = false ∧ t.isSet F.HQI_CSTS_RDY 0 = false ∧
        t.hqi.cmds = []) ∧
    (∀ q : Fin 65, s.pf0Served = true → s.isSet F.HQI_QP_CTL_EN q = false → s.getF F.HQI_QP_CTL_SIZE q ≠ 0 →
      s.isSet F.HQI_QP_STATUS_ENABLED q = false → s.isSet F.HQI_CSTS_RDY 0 = true →
      ∃ t, exec (.queuePairEnable q) s = .next t ∧ t.isSet F.HQI_QP_CTL_EN q = true ∧ t.isSet F.HQI_QP_STATUS_ENABLED q = true ∧
        t.getF F.HQI_QP_STATUS_SQ_HEAD q = 0 ∧ t.getF F.HQI_QP_STATUS_CQ_TAIL q = 0) ∧
    (∀ q : Fin 65, s.pf0Served = true → ∃ t, exec (.queuePairDisable q) s = .next t ∧ t.isSet F.HQI_QP_CTL_EN q = false) ∧
    (∀ (q : Fin 65) (w : BitVec 32), s.pf0Served = true → s.isSet F.HQI_QP_STATUS_ENABLED q = true →
      w.toNat % 4096 ≤ s.getF F.HQI_QP_CTL_SIZE q →
      (∃ t, exec (.sqTailDoorbell q w) s = .next t ∧ t.getF F.HQI_SQ_TAIL_TAIL q = w.toNat % 4096) ∧
      (∃ t, exec (.cqHeadDoorbell q w) s = .next t ∧ t.getF F.HQI_CQ_HEAD_HEAD q = w.toNat % 4096)) ∧
    (∀ (q : Fin 65) (w : BitVec 32), s.pf0Served = true → s.isSet F.HQI_QP_STATUS_ENABLED q = true →
      s.getF F.HQI_QP_CTL_SIZE q < w.toNat % 4096 → s.isSet F.HQI_QP_STATUS_ERR q = false →
      (∃ t, exec (.sqTailDoorbell q w) s = .next t ∧ t.isSet F.HQI_QP_STATUS_ERR q = true ∧ t.getF F.HQI_QP_STATUS_CAUSE q = 2 ∧
        t.isSet F.HQI_EVT_QUEUE_ERR 0 = true) ∧
      (∃ t, exec (.cqHeadDoorbell q w) s = .next t ∧ t.isSet F.HQI_QP_STATUS_ERR q = true ∧ t.getF F.HQI_QP_STATUS_CAUSE q = 3 ∧
        t.isSet F.HQI_EVT_QUEUE_ERR 0 = true)) ∧
    (∀ q a, s.pwr.held = [] → s.hqi.cmds.length + s.fetches < 1024 → s.pf0Served = true → s.arbSelect = some (q, a) →
      ∃ t, exec .arbitration s = .next t ∧ t.hqi.nextPos = s.hqi.nextPos + 1 ∧ t.hqi.arb = a ∧
        ∃ r ∈ t.hif.reqs, r.kind = .sqFetch q s.hqi.nextPos ∧ r.addr = s.sqBase q + 64 * s.getF F.HQI_QP_STATUS_SQ_HEAD q ∧
          r.len = 64) ∧
    (∀ (q : Fin 65) c, s.pwr.held = [] → s.postable q = some c → s.cqRoom q = true → s.mayIssue 0 = true →
      ∃ t, exec (.completionPost q) s = .next t ∧ t.hqi.cmds = (s.hqi.cmds.filter fun x => x.pos ≠ c.pos) ∧
        .hostWrite (s.cqBase q + 16 * s.getF F.HQI_QP_STATUS_CQ_TAIL q)
          (cqeBytes c (s.getF F.HQI_QP_STATUS_SQ_HEAD q) (s.pair q).phase) false ∈ t.out) ∧
    (∀ q : Fin 65, s.pwr.held = [] → (s.pair q).unsig ≠ 0 → s.getF F.HQI_QP_INT_COAL_TIME q ≠ 0 → s.isSet F.HQI_QP_CTL_IEN q = true →
      (s.pair q).since + 40 * s.getF F.HQI_QP_INT_COAL_TIME q ≤ s.tick →
      ∃ t, exec (.coalTimeExpiry q) s = .next t ∧ (t.pair q).unsig = 0) ∧
    (∀ (v : Fin 8) pos, s.pwr.held = [] → (s.test v).running = some pos → (s.test v).ended = true →
      ∃ t, exec (.selfTestDone v) s = .next t ∧ (t.test v).running = none ∧ t.isSet F.HQI_EVT_SELF_TEST_DONE 0 = true) ∧
    (∀ (v : Fin 8) m, s.pwr.held = [] → s.HostQuiet → (s.vol v).mount = some m → m.waiting = true → m.start = true →
      (s.vol v).release = none → s.deck v = dkLOADED → s.mayStart v = true →
      ∃ t, exec (.volumeMountProceed v) s = .next t ∧ t.deck v = dkSPINUP ∧ (t.vol v).mount = some m)

/-- With the command alone in the engine: READ, APPEND, WRITE_AT, FLUSH, SEAL_SEAM, IDENTIFY, GET_LOG, SET_FEATURE, GET_FEATURE,
SELF_TEST_SHORT, SELF_TEST_EXTENDED, VOLUME_MOUNT and VOLUME_RELEASE. -/
def Obligations.HostCommandRows : Prop :=
  ∀ (s : State) (c : Cmd), s.pwr.held = [] → s.OnlyCommand c →
    (∀ v n, c.opc = 0x10 → c.seam? = some (v, n) → s.volOn v = true → c.lba < 2 ^ 29 → lbaBlock c.lba + c.nblk ≤ seamBlocks →
      s.deadBand (homeHead v n) = none → c.npages ≤ 2 → s.isSet F.WRP_SEAM_KNOWN (seamIdx v n) = true →
      lbaBlock c.lba + c.nblk ≤ s.appendPoint v n → lbaBlock c.lba + c.nblk ≤ 128 * s.seamA v n →
      ∃ t, exec .read s = .next t ∧ ∃ d, t.hqi.cmds = [d] ∧ d.pos = c.pos ∧ d.stage = .running ∧ d.media = true ∧ d.lodes = c.readLodes) ∧
    (∀ v n, c.opc = 0x11 ∨ (c.opc = 0x12 ∧ lbaValid c.lba = true ∧ lbaBlock c.lba = s.appendPoint v n) → c.seam? = some (v, n) →
      s.volOn v = true → s.deadBand (homeHead v n) = none → (s.seam v n).sealing = false → c.npages ≤ 2 →
      s.isSet F.WRP_SEAM_KNOWN (seamIdx v n) = true → s.isSet F.WRP_SEAM_SEALED (seamIdx v n) = false →
      s.isSet F.WRP_SEAM_EXHAUSTED (seamIdx v n) = false → s.appendPoint v n + c.nblk ≤ seamBlocks → s.roomFor v n c.nblk = true →
      ∃ t, exec (if c.opc = 0x11 then .append else .writeAt) s = .next t ∧
        ∃ d, t.hqi.cmds = [d] ∧ d.pos = c.pos ∧ d.stage = .running ∧ d.assigned = some (s.appendPoint v n)) ∧
    (c.opc = 0x13 →
      ∃ t, exec .flush s = .next t ∧ t.hqi.cmds = [{ c with stage := .done, sct := 0, sc := 0, result := 0 }] ∧
        ∀ (v : Fin 8) (n : Fin 64) o, (t.seam v n).openLode = some o → o.drifts = []) ∧
    (∀ (v : Fin 8) (n : Fin 64), c.opc = 0x14 → c.seam? = some (v.val, n.val) → s.volOn v = true →
      s.deadBand (homeHead v n) = none → s.isSet F.WRP_SEAM_KNOWN (seamIdx v n) = false →
      ∃ t, exec .sealSeam s = .next t ∧ (t.seam v n).sealing = true) ∧
    (c.opc = 0x01 → c.csf.getD 0 0 = 0 →
      ∃ t, exec .identify s = .next t ∧ t.hqi.cmds = [{ c with stage := .done, sct := 0, sc := 0, result := 0 }] ∧
        .hostWrite c.dptr1 s.devicePage (s.relaxed c.q) ∈ t.out) ∧
    (c.opc = 0x02 → c.nblk = 1 →
      ∃ t, exec .getLog s = .next t ∧
        .hostWrite c.dptr1 (page ((s.logPage (c.csf.getD 0 0) c.vol).drop (4096 * c.csfNum 4 4))) (s.relaxed c.q) ∈ t.out) ∧
    (∀ val, c.opc = 0x03 → c.csf.getD 0 0 = 1 → c.csfNum 4 8 = val → 1 ≤ val → val ≤ 2000 →
      ∃ t, exec .setFeature s = .next t ∧ t.getF F.WRP_LINGER_MS 0 = val ∧
        t.hqi.cmds = [{ c with stage := .done, sct := 0, sc := 0, result := s.getF F.WRP_LINGER_MS 0 }]) ∧
    (c.opc = 0x04 →
      ∃ t, exec .getFeature s = .next t ∧
        t.hqi.cmds = [{ c with stage := .done, sct := 0, sc := 0, result := s.feature (c.csf.getD 0 0) c.vol }]) ∧
    (c.opc = 0x06 → c.vol < 8 → s.volOn c.vol = true → c.csf.getD 0 0 = 1 ∨ c.csf.getD 0 0 = 2 →
      ∃ t, exec (if c.csf.getD 0 0 = 1 then .selfTestShort else .selfTestExtended) s = .next t ∧
        (t.test c.vol).running = some c.pos) ∧
    (c.opc = 0x0A → c.vol < 8 → (s.vol c.vol).mount = none → (s.vol c.vol).release = none → s.volOn c.vol = false →
      c.csf.getD 0 0 = 1 → s.deck c.vol = dkLOADED → s.mayStart c.vol = true →
      ∃ t, exec .volumeMount s = .next t ∧ t.deck c.vol = dkSPINUP ∧ (t.vol c.vol).mount.isSome = true) ∧
    (c.opc = 0x0B → c.vol < 8 → s.volOn c.vol = true → s.deck c.vol = dkREADY → (∀ n < 64, (s.seam c.vol n).dirty = false) →
      ∃ t, exec .volumeRelease s = .next t ∧ (t.vol c.vol).release = some c.pos)

/-- ABORT ends the running READ it names with ABORTED and succeeds; SELF TEST code 15 marks the running test to stop. -/
def Obligations.AbortAndStopRows : Prop :=
  ∀ (s : State) (c d : Cmd), s.pwr.held = [] → s.hqi.cmds = [d, c] → c.stage = .taken → c.pos ≠ d.pos → s.hif.reqs = [] → s.mayIssue 0 = true →
    (c.opc = 0x05 → d.q = c.csfNum 0 2 → d.cid = c.csfNum 2 2 → d.stage = .running → d.opc = 0x10 →
      (∀ v < 8, (s.test v).running = none) → s.MountsWait →
      ∃ t, exec .abort s = .next t ∧ t.hqi.cmds = [{ d with stage := .done, sct := 0, sc := 5, result := 0 }, { c with stage := .done, sct := 0, sc := 0, result := 0 }]) ∧
    (c.opc = 0x06 → d.opc = 0x06 → d.stage = .running → c.csf.getD 0 0 = 15 → c.vol < 8 → s.volOn c.vol = true → s.MountsWait →
      ∃ t, exec .selfTestStop s = .next t ∧ (t.test c.vol).stopping = true)

/-- FLR_PF0, FLR_PF1, FLR_COMPLETE, CONFIG_REQUEST, PF0_D3HOT, PF0_D0, MSIX_VECTOR_UNMASK, BAD_REGISTER_ACCESS and HOT_RESET_READY. -/
def Obligations.FunctionRows : Prop :=
  ∀ s : State, s.pwr.held = [] →
    (s.cfgServed 0 = true →
      ∃ t, exec .flrPf0 s = .next t ∧ t.isSet F.HIF_EVT_FLR0 0 = true ∧ t.isSet F.PWR_RESET_CAUSE_FLR0 0 = true ∧
        t.getF F.PWR_RESET_CAUSE_LAST 0 = 4) ∧
    (s.cfgServed 1 = true →
      ∃ t, exec .flrPf1 s = .next t ∧ t.isSet F.HIF_EVT_FLR1 0 = true ∧ t.isSet F.PWR_RESET_CAUSE_FLR1 0 = true ∧
        t.getF F.PWR_RESET_CAUSE_LAST 0 = 5 ∧ t.hif.table1 = Vector.replicate 32 {} ∧ t.hif.pf1.flr = true ∧
        t.hif.pf1.msixEn = false) ∧
    (∀ fn : Fin 2, (s.pf fn).flr = true → (∀ y < 96, (s.slot y).outcome = none) →
      ∃ t, exec (.flrComplete fn) s = .next t ∧ (t.pf fn).flr = false) ∧
    (∀ fn : Fin 2, s.HostQuiet → s.isSet F.HIF_LINK_DL_ACTIVE 0 = true → s.hif.perst = false →
      (s.cfgServed fn = true → ∃ t, exec (.configRequest fn .serial) s = .next t ∧ .cplData (leBytes 8 s.cfg.fuses.serial) ∈ t.out) ∧
      (s.cfgServed fn = true → ∀ b, ∃ t, exec (.configRequest fn (.intxDisable b)) s = .next t ∧ (t.pf fn).intxDis = b ∧
        .cplData [] ∈ t.out) ∧
      (s.cfgServed fn = false → ∀ r, ∃ t, exec (.configRequest fn r) s = .next t ∧ .cplRetry ∈ t.out)) ∧
    (s.HostQuiet → s.cfgServed 0 = true →
      (∃ t, exec .pf0D3hot s = .next t ∧ t.hif.pf0.d3 = true) ∧
      ((∀ y < 96, (s.slot y).outcome = none) → ∃ t, exec .pf0D0 s = .next t ∧ t.hif.pf0.d3 = false)) ∧
    (∀ (fn : Fin 2) (v : BitVec 8), s.served fn = true → v.toNat < (if fn = 0 then 256 else 32) →
      ∃ t, exec (.msixVectorUnmask fn v) s = .next t ∧ (t.msixEntry fn v.toNat).masked = false) ∧
    (∀ fn : Fin 2,
      (s.served fn = true → ∀ r, ∃ t, exec (.badRegisterAccess fn r) s = .next t ∧ t.isSet F.HIF_EVT_CFG_REJECT 0 = true ∧
        (r = true → .cplUr ∈ t.out)) ∧
      (s.served fn = false → s.isSet F.HIF_LINK_DL_ACTIVE 0 = true →
        ∃ t, exec (.badRegisterAccess fn true) s = .next t ∧ .cplUr ∈ t.out)) ∧
    (s.hif.hotPending = true → s.isSet F.HIF_LINK_DL_ACTIVE 0 = true →
      ∃ t, exec .hotResetReady s = .next t ∧ t.hif = { s.hif with hotPending := false, pf1 := t.hif.pf1 })

/-- Link registers, containment by link loss, unexpected and partial completions, a completion timeout of a queue fetch. -/
def Obligations.LinkAndCompletionRows : Prop :=
  ∀ s : State, s.pwr.held = [] →
    (∀ speed width, s.hif.perst = false → s.isSet F.HIF_LINK_DL_ACTIVE 0 = false → s.isSet F.PWR_STATUS_PCIE_REF 0 = true →
      speed ≤ 5 → width ≤ 8 →
      ∃ t, exec (.linkUp speed width) s = .next t ∧ t.isSet F.HIF_LINK_DL_ACTIVE 0 = true ∧ t.getF F.HIF_LINK_SPEED 0 = speed ∧
        t.getF F.HIF_LINK_WIDTH 0 = width ∧ t.isSet F.HIF_LINK_DEGRADED 0 = decide (width < 8 ∨ speed < 5) ∧
        (width < 8 ∨ speed < 5 → t.isSet F.HIF_EVT_LINK_DEGRADED 0 = true)) ∧
    (s.isSet F.HIF_LINK_DL_ACTIVE 0 = true → s.hif.hotPending = false → s.hif.perst = false →
      ∃ t, exec .linkDown s = .next t ∧ t.isSet F.HIF_LINK_DL_ACTIVE 0 = false ∧ t.isSet F.HIF_EVT_LINK_LOST 0 = true ∧
        t.getF F.HIF_LINK_SPEED 0 = 0 ∧ t.isSet F.HIF_CONTAIN_CAUSE_LINK 0 = true ∧
        t.getF F.HIF_LINK_DOWN_CNT 0 = min (s.getF F.HIF_LINK_DOWN_CNT 0 + 1) (2 ^ F.HIF_LINK_DOWN_CNT.width - 1)) ∧
    (∀ tag bytes st, s.isSet F.HIF_LINK_DL_ACTIVE 0 = true → s.req? tag = none →
      ∃ t, exec (.completionReceived tag bytes st) s = .next t ∧ t.isSet F.HIF_EVT_UNEXP_CPL 0 = true ∧
        t.getF F.HIF_CPL_ERR_UNEXP 0 = min (s.getF F.HIF_CPL_ERR_UNEXP 0 + 1) (2 ^ F.HIF_CPL_ERR_UNEXP.width - 1)) ∧
    (∀ tag bytes r, s.isSet F.HIF_LINK_DL_ACTIVE 0 = true → s.HostQuiet → s.req? tag = some r →
      r.got.length + bytes.length < r.len →
      ∃ t, exec (.completionReceived tag bytes .ok) s = .next t ∧ t.hif.reqs = s.hif.reqs.map fun x =>
        if x.tag = tag then { x with got := r.got ++ bytes.map (·.toNat) } else x) ∧
    (∀ tag r q pos, s.req? tag = some r → r.kind = .sqFetch q pos → r.drop = false → s.hif.pf0.cplTmoDis = false →
      r.since + s.cplTicks ≤ s.tick →
      ∃ t, exec (.cplTimeout tag) s = .next t ∧ t.isSet F.HIF_EVT_CPL_TIMEOUT 0 = true ∧
        t.getF F.HIF_CPL_ERR_TIMEOUT 0 = min (s.getF F.HIF_CPL_ERR_TIMEOUT 0 + 1) (2 ^ F.HIF_CPL_ERR_TIMEOUT.width - 1))

/-- A mapped read answers DRAM's bytes, a whole-line write stores them, a partial one is discarded; commits wait and go live or are
refused. -/
def Obligations.WindowRows : Prop :=
  ∀ s : State,
    (∀ (off : BitVec 30) len x u d, s.pf0Served = true → s.HostQuiet →
      s.peerOk off.toNat len F.HIF_WIN_LIVE_SIZE_CTL_RD_EN = true → x.tag = false →
      ({ s with out := [] } : State).peerLines x (linesOf (s.peerAddr off.toNat) len) = (u, some d) →
      ∃ t, exec (.peerRead off len x) s = .next t ∧ .cplData ((d.drop (s.peerAddr off.toNat % 64)).take len) ∈ t.out) ∧
    (∀ (off : BitVec 30) bytes x, s.pf0Served = true →
      s.peerOk off.toNat bytes.length F.HIF_WIN_LIVE_SIZE_CTL_WR_EN = true → x.tag = false → s.peerAddr off.toNat % 64 = 0 →
      bytes.length % 64 = 0 →
      ∃ t, exec (.peerWrite off bytes x) s = .next t ∧
        t.mem = (({ s with out := [] } : State).peerPuts (s.peerAddr off.toNat / 64) (bytes.map (·.toNat)) (bytes.length / 64)).mem) ∧
    (∀ (off : BitVec 30) bytes x, s.pf0Served = true →
      s.peerOk off.toNat bytes.length F.HIF_WIN_LIVE_SIZE_CTL_WR_EN = true →
      s.peerAddr off.toNat % 64 ≠ 0 ∨ bytes.length % 64 ≠ 0 →
      ∃ t, exec (.peerWrite off bytes x) s = .next t ∧ t.isSet F.MEM_EVT_PARTIAL_DISCARD 0 = true ∧ t.mem = s.mem) ∧
    (∀ mask : BitVec 8, s.pf1Served = true →
      ∃ t, exec (.windowCommit mask) s = .next t ∧ t.hif.commits = s.hif.commits ++ [mask.toNat]) ∧
    (∀ m rest, s.pwr.held = [] → s.hif.commits = m :: rest →
      (∀ w < 8, m.testBit w = true → s.badWindow w = false) →
      ∃ t, exec .decodeBoundary s = .next t ∧ t.isSet F.HIF_WIN_STATUS_REFUSED 0 = false ∧ t.hif.commits = rest ∧
        ∀ w < 8,
          t.getF F.HIF_WIN_LIVE_SIZE_CTL_EN w =
            (if m.testBit w then s.getF F.HIF_WIN_SIZE_CTL_EN w % 2 else s.getF F.HIF_WIN_LIVE_SIZE_CTL_EN w) ∧
          t.getF F.HIF_WIN_LIVE_SIZE_CTL_SIZE w =
            (if m.testBit w then s.getF F.HIF_WIN_SIZE_CTL_SIZE w % 128 else s.getF F.HIF_WIN_LIVE_SIZE_CTL_SIZE w)) ∧
    (∀ m rest w, s.pwr.held = [] → s.hif.commits = m :: rest → w < 8 → m.testBit w = true → s.badWindow w = true →
      ∃ t, exec .decodeBoundary s = .next t ∧ t.isSet F.HIF_WIN_STATUS_REFUSED 0 = true ∧
        t.isSet F.HIF_EVT_COMMIT_REJECT 0 = true ∧
        ∀ v, t.isSet F.HIF_WIN_LIVE_SIZE_CTL_EN v = s.isSet F.HIF_WIN_LIVE_SIZE_CTL_EN v)

/-- Entry with cause and count, FROZEN when everything is quiet, release or its rejection. -/
def Obligations.ContainmentRows : Prop :=
  ∀ s : State,
    (s.pf1Served = true → ∃ t, exec .containmentForce s = .next t ∧ t.isSet F.HIF_CONTAIN_CAUSE_FORCED 0 = true) ∧
    (s.pf1Served = true → s.contained = false →
      ∃ t, exec .containmentForce s = .next t ∧ t.getF F.HIF_CONTAIN_STATE 0 = 1 ∧ t.isSet F.HIF_EVT_CONTAINED 0 = true ∧
        t.getF F.HIF_CONTAIN_INFLIGHT 0 = s.hqi.cmds.length % 2 ^ F.HIF_CONTAIN_INFLIGHT.width) ∧
    (s.pwr.held = [] → s.getF F.HIF_CONTAIN_STATE 0 = 1 → s.allQuiet = true →
      ∃ t, exec .containmentFrozen s = .next t ∧ t.getF F.HIF_CONTAIN_STATE 0 = 2) ∧
    (s.pf1Served = true → s.getF F.HIF_CONTAIN_STATE 0 = 2 → s.isSet F.HIF_LINK_DL_ACTIVE 0 = true →
      ∃ t, exec .containmentRelease s = .next t ∧ t.isSet F.HIF_EVT_RELEASED 0 = true) ∧
    (s.pf1Served = true → s.getF F.HIF_CONTAIN_STATE 0 ≠ 2 →
      ∃ t, exec .containmentRelease s = .next t ∧ t.isSet F.HIF_EVT_CFG_REJECT 0 = true ∧
        t.getF F.HIF_CONTAIN_STATE 0 = s.getF F.HIF_CONTAIN_STATE 0)

/-- DRAM_SCRUB_GO, DRAM_SCRUB_STOP, SCRUB_DONE, SCRUB_LAP, BUCKET_LEAK and BUCKET_RESET. -/
def Obligations.MemoryScrubRows : Prop :=
  ∀ s : State,
    (s.pf1Served = true → s.mem.scrub = none → s.getF F.MEM_DSCRUB_START_LINE 0 ≤ s.getF F.MEM_DSCRUB_END_LINE 0 →
      s.getF F.MEM_DSCRUB_END_LINE 0 < s.dramLines →
      ∃ t, exec .dramScrubGo s = .next t ∧ t.isSet F.MEM_DSCRUB_STATUS_BUSY 0 = true ∧ t.isSet F.MEM_DSCRUB_STATUS_DONE 0 = false ∧
        t.mem.scrub = some { first := s.getF F.MEM_DSCRUB_START_LINE 0, last := s.getF F.MEM_DSCRUB_END_LINE 0 }) ∧
    (s.pf1Served = true → s.mem.scrub.isSome = true ∨ s.getF F.MEM_DSCRUB_END_LINE 0 < s.getF F.MEM_DSCRUB_START_LINE 0 ∨
        s.dramLines ≤ s.getF F.MEM_DSCRUB_END_LINE 0 →
      ∃ t, exec .dramScrubGo s = .next t ∧ t.isSet F.MEM_EVT_CFG_REJECT 0 = true ∧ t.mem.scrub = s.mem.scrub) ∧
    (∀ x, s.pf1Served = true → s.mem.scrub = some x →
      ∃ t, exec .dramScrubStop s = .next t ∧ t.mem.scrub = some { x with stop := true }) ∧
    (∀ x (last : BitVec 31), s.pwr.held = [] → s.mem.scrub = some x →
      ∃ t, exec (.scrubDone last) s = .next t ∧ t.isSet F.MEM_DSCRUB_STATUS_BUSY 0 = false ∧
        t.isSet F.MEM_DSCRUB_STATUS_DONE 0 = true ∧ t.isSet F.MEM_DSCRUB_STATUS_STOPPED 0 = x.stop ∧
        t.isSet F.MEM_EVT_SCRUB_DONE 0 = true ∧ t.mem.scrub = none ∧
        (x.stop = false → x.first ≤ x.last → x.last < 2 ^ 29 - 1 + x.first →
          t.getF F.MEM_DSCRUB_STATUS_LINES 0 = x.last + 1 - x.first)) ∧
    (∀ ms, s.pwr.held = [] → s.isSet F.MEM_CTL_SSCRUB_EN 0 = true →
      ∃ t, exec (.scrubLap ms) s = .next t ∧ t.getF F.MEM_SSCRUB_STATUS_LAP 0 = min ms 65535 ∧
        t.getF F.MEM_SSCRUB_STATUS_LAPS 0 = min (s.getF F.MEM_SSCRUB_STATUS_LAPS 0 + 1) (2 ^ 16 - 1) ∧
        (s.getF F.MEM_SSCRUB_LAP_MAX 0 < ms → t.isSet F.MEM_EVT_SCRUB_SLOW 0 = true)) ∧
    (∀ x : Fin 2, s.pwr.held = [] → s.getF F.MEM_CE_STATUS_LEVEL x < 2 ^ 16 →
      ∃ t, exec (.bucketLeak x) s = .next t ∧ t.getF F.MEM_CE_STATUS_LEVEL x = s.getF F.MEM_CE_STATUS_LEVEL x - 1) ∧
    (∀ (x : Fin 2) (w : BitVec 32), s.pf1Served = true →
      ∃ t, exec (.bucketReset x w) s = .next t ∧ t.getF F.MEM_CE_STATUS_LEVEL x = 0 ∧
        t.getF F.MEM_CE_CTL_DEPTH x = w.toNat / 2 ^ 16 ∧ t.getF F.MEM_CE_CTL_LEAK x = w.toNat % 2 ^ 16)

/-- A low word is held, a high word completes the entry with every field of it, or is a narrow write that is rejected and logged; a
low read answers the low half and latches the high. -/
def Obligations.TableRows : Prop :=
  ∀ (s : State) (a : BitVec 27),
    (∀ w : BitVec 32, s.pf1Served = true → (tableEntry a.toNat).isSome = true →
      ∃ t, exec (.tableLowWrite a w) s = .next t ∧ t.mem.asm = some (a.toNat, w.toNat)) ∧
    (∀ (w : BitVec 32) lo r i, s.pf1Served = true → s.mem.asm = some (a.toNat, lo) → tableEntry a.toNat = some (r, i) →
      r ∈ [R.CLR_COEF, R.CHN_ZONE, R.CHN_EQ_START, R.WRP_POWER] →
      ∃ t, exec (.tableHighWrite a w) s = .next t ∧ t.mem.asm = none ∧
        ∀ f ∈ r.fields, t.getF f.fld i =
          ((lo + w.toNat * 2 ^ 32) / 2 ^ f.lo % 2 ^ (f.hi - f.lo + 1) ^^^ fieldFlip f.fld i) % 2 ^ f.fld.width) ∧
    (∀ (w : BitVec 32) r i, s.pf1Served = true → s.mem.asm = none → tableEntry a.toNat = some (r, i) →
      ∃ t, exec (.tableHighWrite a w) s = .next t ∧ t.isSet F.MEM_EVT_NARROW_REJECT 0 = true ∧
        t.getF F.MEM_PWD_LOG_KIND 0 = 1 ∧ t.getF F.MEM_PWD_ADDR_ADDR 0 = a.toNat) ∧
    (∀ p, s.pwr.held = [] → s.mem.asm = some p →
      ∃ t, exec .narrowWriteTimeout s = .next t ∧ t.mem.asm = none ∧ t.isSet F.MEM_EVT_NARROW_REJECT 0 = true) ∧
    (∀ r i, s.pf1Served = true → tableEntry a.toNat = some (r, i) → s.rawSram = false → s.mem.badChk = [] →
      ∃ t, exec (.tableLowRead a) s = .next t ∧ .regData (s.storedBits r i % 2 ^ 32) ∈ t.out ∧
        t.mem.latch = some (a.toNat, s.storedBits r i / 2 ^ 32)) ∧
    (s.pf1Served = false → s.pwr.held = [] → s.isSet F.HIF_LINK_DL_ACTIVE 0 = true →
      ∃ t, exec (.tableLowRead a) s = .next t ∧ .cplUr ∈ t.out)

/-- The burst stores or reads the line's bytes; beyond the installed DRAM both stop with dramAddress (log 9). -/
def Obligations.DramTestRows : Prop :=
  ∀ s : State,
    (s.pf1Served = true → s.testMay = true → s.getF F.MEM_TEST_LINE_LINE 0 < s.dramLines →
        s.cached (s.getF F.MEM_TEST_LINE_LINE 0) = none →
      (∃ t, exec .testRawWrite s = .next t ∧ t.isSet F.MEM_TEST_CTL_BUSY 0 = true ∧
        t.mem.dram = memWrite s.mem.dram (64 * s.getF F.MEM_TEST_LINE_LINE 0) (s.regBytes F.MEM_TEST_DATA_BYTES 16) ∧
        t.mem.chk = memWrite s.mem.chk (16 * s.getF F.MEM_TEST_LINE_LINE 0)
          (xorBytes (s.regBytes F.MEM_TEST_CHK_BYTES 4) (lineCheckBytes (s.regBytes F.MEM_TEST_DATA_BYTES 16)))) ∧
      (∃ t, exec .testRawRead s = .next t ∧ t.isSet F.MEM_TEST_CTL_BUSY 0 = true ∧ t.mem.dram = s.mem.dram ∧
        ∀ i < 16, t.getF F.MEM_TEST_DATA_BYTES i =
          ofLeBytes (((s.lineData (s.getF F.MEM_TEST_LINE_LINE 0)).drop (4 * i)).take 4) % 2 ^ 32)) ∧
    (s.pf1Served = true → s.testMay = true → s.dramLines ≤ s.getF F.MEM_TEST_LINE_LINE 0 →
      exec .testRawWrite s = .fault .dramAddress ∧ exec .testRawRead s = .fault .dramAddress) ∧
    (s.pwr.held = [] → ∃ t, exec .testOpDone s = .next t ∧ t.isSet F.MEM_TEST_CTL_BUSY 0 = false)

/-- WAY_POWER_DOWN, WAY_POWER_UP, WAY_OFF, WAY_ON, LCA_CLEAN, LCA_INVALIDATE, LCA_CLEAN_INVALIDATE, LCA_PRELOAD and OP_DONE; a preload
beyond the installed DRAM stops with dramAddress (log 9). -/
def Obligations.CacheRows : Prop :=
  ∀ s : State,
    (∀ (w : Fin 16) x, s.pf1Served = true → s.wayOffAsked w = false → w < s.ways →
      (s.wayLocked w = false → 2 ≤ s.waysLeft w →
        ∃ t, exec (.wayPowerDown w x) s = .next t ∧ t.wayOffAsked w = true) ∧
      (s.wayLocked w = true ∨ s.waysLeft w < 2 →
        ∃ t, exec (.wayPowerDown w x) s = .next t ∧ t.isSet F.LCA_EVT_CFG_REJECT 0 = true ∧ t.wayOffAsked w = false)) ∧
    (∀ w : Fin 16, s.pf1Served = true → ∃ t, exec (.wayPowerUp w) s = .next t ∧ t.wayOffAsked w = false) ∧
    (∀ (w : Fin 16) x, s.pwr.held = [] → s.wayOffAsked w = true → s.wayOn w = true → s.lcaBusy = false → w < s.ways →
      ∃ t, exec (.wayOff w x) s = .next t ∧ t.wayOn w = false ∧ t.isSet F.LCA_EVT_WAY_OFF 0 = true) ∧
    (∀ w : Fin 16, s.pwr.held = [] → s.wayOffAsked w = false → s.wayOn w = false → w < s.ways →
      ∃ t, exec (.wayOn w) s = .next t ∧ t.wayOn w = true) ∧
    (∀ force x l, s.pf1Served = true → s.lcaBusy = false → x.tag = false →
        s.lineAt (s.getF F.LCA_OP_START_LINE 0 % 16) (s.getF F.LCA_OP_START_LINE 0 / 16 % 8192) = some l →
        s.wayLocked l.way = false →
      (∃ t, exec (.lcaInvalidate true force x) s = .next t ∧ t.lcaBusy = true ∧ t.getF F.LCA_OP_OP 0 = 2 ∧
        t.mem.lca.result = (1, 0) ∧ t.mem.dram = s.mem.dram ∧
        t.cache = s.cache.filter fun m => ¬ (m.way = l.way ∧ m.set = l.set)) ∧
      (∃ t, exec (.lcaCleanInvalidate true force x) s = .next t ∧ t.lcaBusy = true ∧ t.getF F.LCA_OP_OP 0 = 3 ∧
        t.mem.lca.result = (1, 0) ∧ t.cache = s.cache.filter fun m => ¬ (m.way = l.way ∧ m.set = l.set)) ∧
      (∃ t, exec (.lcaClean true force x) s = .next t ∧ t.lcaBusy = true ∧ t.getF F.LCA_OP_OP 0 = 1 ∧
        t.mem.lca.result = (l.dirty.toNat, 0) ∧ { l with dirty := false } ∈ t.cache)) ∧
    (∀ place force x, s.pf1Served = true → s.lcaBusy = true →
      (∃ t, exec (.lcaClean place force x) s = .next t ∧ t.isSet F.LCA_EVT_CFG_REJECT 0 = true) ∧
      (∃ t, exec (.lcaInvalidate place force x) s = .next t ∧ t.isSet F.LCA_EVT_CFG_REJECT 0 = true) ∧
      (∃ t, exec (.lcaCleanInvalidate place force x) s = .next t ∧ t.isSet F.LCA_EVT_CFG_REJECT 0 = true)) ∧
    (∀ (w : Fin 16) x, s.pf1Served = true → s.lcaBusy = false →
      (s.preloadRefused w = true →
        ∃ t, exec (.lcaPreload w x) s = .next t ∧ t.isSet F.LCA_OP_STATUS_REFUSED 0 = true ∧
          t.isSet F.LCA_EVT_CFG_REJECT 0 = true) ∧
      (s.preloadRefused w = false → s.getF F.LCA_OP_END_LINE 0 < s.dramLines →
        ∃ t, exec (.lcaPreload w x) s = .next t ∧ t.lcaBusy = true ∧ t.getF F.LCA_OP_OP 0 = 4 ∧ t.getF F.LCA_OP_WAY 0 = w) ∧
      (s.preloadRefused w = false → s.dramLines ≤ s.getF F.LCA_OP_END_LINE 0 →
        exec (.lcaPreload w x) s = .fault .dramAddress)) ∧
    (s.pwr.held = [] → s.lcaBusy = true →
      ∃ t, exec .opDone s = .next t ∧ t.lcaBusy = false ∧ t.isSet F.LCA_OP_STATUS_DONE 0 = true ∧
        t.getF F.LCA_OP_STATUS_AFFECTED 0 = min s.mem.lca.result.1 32767 ∧
        t.getF F.LCA_OP_STATUS_SKIPPED 0 = min s.mem.lca.result.2 16383 ∧ t.isSet F.LCA_EVT_OP_DONE 0 = true)

/-- The piece is fetched, arming starts or fails, the identity region is delivered. -/
def Obligations.ConfigCommandRows : Prop :=
  ∀ (s : State) (c : Cmd), s.pwr.held = [] → s.OnlyCommand c →
    (∀ b, c.opc = 0x07 → c.nblk = 1 →
      ∃ t, exec (.configPiece b) s = .next t ∧ t.hqi.cmds = [{ c with stage := .running, sigOk := b, pages := [c.dptr1], pagesOk := true }] ∧
        ∃ r ∈ t.hif.reqs, r.kind = .data c.pos 0 ∧ r.addr = c.dptr1 ∧ r.len = 4096) ∧
    (c.opc = 0x08 →
      (s.armOk (c.csfNum 0 8) = true → ∃ t, exec .configArm s = .next t ∧ t.cfg.arming = some c.pos) ∧
      (s.armOk (c.csfNum 0 8) = false → ∃ t, exec .configArm s = .next t ∧
        t.hqi.cmds = [{ c with stage := .done, sct := 1, sc := 8, result := 0 }])) ∧
    (c.opc = 0x09 → c.csfNum 0 4 = 0 →
      ∃ t, exec .attestRead s = .next t ∧ t.hqi.cmds = [{ c with stage := .done, sct := 0, sc := 0, result := 0 }] ∧
        .hostWrite c.dptr1 (page (bytesOf 4096 Config.identityByte)) (s.relaxed c.q) ∈ t.out)

/-- Programming starts or is rejected, and ends with the fuses changed or FUSE_FAIL. -/
def Obligations.FuseRows : Prop :=
  ∀ s : State,
    (∀ confirm : BitVec 8, s.pf1Served = true →
      (confirm.toNat = 0x5A → s.isSet F.CFG_FUSE_CMD_BUSY 0 = false → s.shiftArmed = false →
          s.getF F.CFG_SVN_FUSED 0 < s.getF F.CFG_SVN_RUN 0 →
        ∃ t, exec (.svnCommit confirm) s = .next t ∧ t.isSet F.CFG_FUSE_CMD_BUSY 0 = true ∧ t.cfg.fuse = some .svn ∧
          .fuseSvn (2 ^ s.getF F.CFG_SVN_RUN 0 - 1) ∈ t.out) ∧
      (confirm.toNat ≠ 0x5A ∨ s.isSet F.CFG_FUSE_CMD_BUSY 0 = true ∨ s.shiftArmed = true →
        (∃ t, exec (.svnCommit confirm) s = .next t ∧ t.isSet F.CFG_EVT_CFG_REJECT 0 = true ∧ t.cfg.fuse = s.cfg.fuse) ∧
        ∀ k, ∃ t, exec (.keyRevoke confirm k) s = .next t ∧ t.isSet F.CFG_EVT_CFG_REJECT 0 = true ∧ t.cfg.fuse = s.cfg.fuse)) ∧
    (∀ (k : Fin 4) (j : Fin 4), s.pf1Served = true → s.isSet F.CFG_FUSE_CMD_BUSY 0 = false → s.shiftArmed = false →
      s.isSet F.CFG_STATUS_LOADED 0 = false ∨ s.getF F.CFG_KEYS_RUN_SLOT 0 ≠ k → j ≠ k →
      s.bitF F.CFG_KEYS_FUSED 0 j = true → s.bitF F.CFG_KEYS_REVOKED 0 j = false →
      ∃ t, exec (.keyRevoke 0x5A k) s = .next t ∧ t.isSet F.CFG_FUSE_CMD_BUSY 0 = true ∧ t.cfg.fuse = some (.revoke k) ∧
        .fuseRevoke (2 ^ k.val) ∈ t.out) ∧
    (s.pwr.held = [] → s.cfg.fuse = some .svn →
      ∃ t, exec (.fuseProgramDone 0) s = .next t ∧ t.isSet F.CFG_FUSE_CMD_BUSY 0 = false ∧ t.cfg.fuse = none ∧
        t.isSet F.CFG_EVT_SVN_COMMITTED 0 = true ∧ t.cfg.fuses.svn = s.cfg.fuses.svn ||| (2 ^ s.getF F.CFG_SVN_RUN 0 - 1)) ∧
    (∀ k, s.pwr.held = [] → s.cfg.fuse = some (.revoke k) →
      (∃ t, exec (.fuseProgramDone 0) s = .next t ∧ t.isSet F.CFG_FUSE_CMD_BUSY 0 = false ∧ t.cfg.fuse = none ∧
        t.cfg.fuses.revoke = s.cfg.fuses.revoke ||| 2 ^ k) ∧
      ∀ bad : BitVec 64, bad.toNat.testBit k = true →
        ∃ t, exec (.fuseProgramDone bad) s = .next t ∧ t.isSet F.CFG_EVT_FUSE_FAIL 0 = true ∧ t.isSet F.CFG_FUSE_CMD_FAIL 0 = true ∧
          t.cfg.fuses = s.cfg.fuses)

/-- A load places an image or fails with both causes; a due record is signed. -/
def Obligations.LoadRows : Prop :=
  ∀ s : State, s.pwr.held = [] →
    (∀ l x u, s.cfg.load = some l → l.verifyOnly = false →
      (({ s with out := [] } : State).setF F.CFG_KEYS_USABLE 0 (maskOf 4 fun b => x.keysMatch.testBit b &&
        (s.getF F.CFG_KEYS_FUSED 0).testBit b && !(s.getF F.CFG_KEYS_REVOKED 0).testBit b)).attempt
        (x.image s.cfg.flash.active) = .placed u →
      ∃ t, exec (.imageLoadDone x) s = .next t ∧ t.isSet F.CFG_STATUS_LOADED 0 = true ∧
        t.getF F.CFG_STATUS_SLOT 0 = s.cfg.flash.active % 2 ∧ t.getF F.CFG_SVN_RUN 0 = (x.image s.cfg.flash.active).svn % 2 ^ F.CFG_SVN_RUN.width) ∧
    (∀ l x, s.cfg.load = some l → l.verifyOnly = false → s.isSet F.PWR_BIST_FAIL 0 = false → x.slotA.flashOk = false →
      x.slotB.flashOk = false →
      ∃ t, exec (.imageLoadDone x) s = .next t ∧ t.isSet F.CFG_STATUS_LOAD_FAIL 0 = true ∧ t.isSet F.HQI_CSTS_NOT_READY 0 = true ∧
        t.isSet F.CFG_EVT_LOAD_FAIL 0 = true ∧ t.getF F.CFG_LOAD_CAUSE_CAUSE_A 0 = 12 ∧ t.getF F.CFG_LOAD_CAUSE_CAUSE_B 0 = 12) ∧
    (∀ cause b, s.cfg.recordDue = some cause →
      ∃ t, exec (.bootRecordSign b) s = .next t ∧ t.isSet F.CFG_STATUS_RECORD_READY 0 = true ∧
        t.getF F.CFG_STATUS_RESET_CAUSE 0 = cause % 2 ^ F.CFG_STATUS_RESET_CAUSE.width ∧
        t.cfg.recordDue = none ∧ (b = false → t.isSet F.CFG_EVT_LOG_FAIL 0 = true))

/-- PIECE_PROGRAMMED, STAGE_VERIFY_DONE, STAGE_COPY_DONE, STAGE_ABANDON and ARM_PREPARED. -/
def Obligations.StagingRows : Prop :=
  ∀ s : State,
    (∀ j, s.pwr.held = [] → s.cfg.piece = some j → s.cfg.pieces = [] → s.stg = sgRECEIVING →
      (∃ t, exec (.pieceProgrammed true) s = .next t ∧ t.cfg.flash.marked = insertNat (pcIndex j.bytes) s.cfg.flash.marked ∧
        t.cfg.piece = none) ∧
      ∃ t, exec (.pieceProgrammed false) s = .next t ∧ t.isSet F.CFG_EVT_PIECE_REJECT 0 = true ∧
        t.getF F.CFG_STAGE_REJECT_LAST 0 = 8 ∧ t.cfg.flash = s.cfg.flash) ∧
    (∀ f : Stored, s.pwr.held = [] → s.stg = sgVERIFYING →
      (s.verifyCause f.image = 0 → ∃ t, exec (.stageVerifyDone f) s = .next t ∧ t.stg = sgCOPYING ∧ t.cfg.stageSvn = f.image.svn) ∧
      (s.verifyCause f.image ≠ 0 → ∃ t, exec (.stageVerifyDone f) s = .next t ∧ t.stg = sgFAILED ∧ t.isSet F.CFG_EVT_STAGE_FAIL 0 = true)) ∧
    (∀ f : Stored, s.pwr.held = [] → s.stg = sgCOPYING →
      (s.verifyCause f.image = 0 → ∃ t, exec (.stageCopyDone f) s = .next t ∧ t.stg = sgREADY ∧ t.isSet F.CFG_EVT_STAGE_READY 0 = true) ∧
      (s.verifyCause f.image ≠ 0 → ∃ t, exec (.stageCopyDone f) s = .next t ∧ t.stg = sgFAILED ∧ t.isSet F.CFG_EVT_STAGE_FAIL 0 = true)) ∧
    (s.pf1Served = true →
      (s.stg ≠ sgARMED → s.shiftArmed = false → ∃ t, exec .stageAbandon s = .next t ∧ t.stg = sgEMPTY ∧ t.cfg.flash.stage = none ∧
        t.getF F.CFG_STAGE_STATUS_RECEIVED 0 = 0) ∧
      (s.stg = sgARMED ∨ s.shiftArmed = true → ∃ t, exec .stageAbandon s = .next t ∧ t.isSet F.CFG_EVT_CFG_REJECT 0 = true ∧
        t.stg = s.stg)) ∧
    (∀ (f : Stored) pos, s.pwr.held = [] → s.cfg.arming = some pos → s.stg = sgREADY → s.prepareCause f.image = 0 →
      ∃ t, exec (.armPrepared f) s = .next t ∧ t.stg = sgARMED ∧ t.isSet F.CFG_EVT_ARMED 0 = true ∧ t.cfg.standby = some f.image ∧
        t.shift = (if s.onRing then shARMED else shCOMMITTED)) ∧
    (∀ (f : Stored) pos, s.pwr.held = [] → s.cfg.arming = some pos → s.stg = sgREADY → s.prepareCause f.image ≠ 0 →
      ∃ t, exec (.armPrepared f) s = .next t ∧ t.stg = sgFAILED ∧ t.isSet F.CFG_EVT_STAGE_FAIL 0 = true ∧ t.cfg.arming = none)

/-- SHIFT_COMMIT_RECEIVED, SHIFT_FRAME_BEGIN, SHIFT_QUIESCENT, SHIFT_STAY_TIMEOUT and SHIFT_TABLES_COPIED. The rows of the frame
boundary act at the strobe of the tick that begins the frame, which the model holds to be the tick after the present one (log 88). -/
def Obligations.ShiftRows : Prop :=
  ∀ s : State, s.pwr.held = [] →
    (∀ (e : BitVec 64) (f : BitVec 40), s.onRing = true → s.shift = shARMED → s.stageEpoch = e.toNat →
      ∃ t, exec (.shiftCommitReceived e f) s = .next t ∧ t.shift = shCOMMITTED ∧ t.shiftF = f.toNat ∧ t.isSet F.HQI_CSTS_HELD 0 = true) ∧
    (let u : State := { s with tick := (s.tick + 1) % 2 ^ 48 }
     let n := (u.frameStarts + 2 ^ 40 - s.shiftF) % 2 ^ 40
     (s.tick + 1) % 2 ^ 48 % 50 = 0 → s.tck.repeats = 0 → begun s.shiftF u.frameStarts = true →
      (s.shift = shCOMMITTED → u.quiescent = false → n < 4096 → ∃ t, exec .shiftFrameBegin s = .next t ∧ t.shift = shHOLDING) ∧
      (∀ im, u.quiescent = true → n ≤ 4096 → s.cfg.standby = some im →
        (s.shift = shCOMMITTED → ∃ t, exec .shiftFrameBegin s = .next t ∧ t.shift = shAPPLIED ∧ t.tick = s.tick) ∧
        (s.shift = shHOLDING → ∃ t, exec .shiftQuiescent s = .next t ∧ t.shift = shAPPLIED ∧
          (n ≠ 0 → t.isSet F.CFG_EVT_SHIFT_LATE 0 = true))) ∧
      (s.shift = shHOLDING → 4096 ≤ n → u.quiescent = false →
        ∃ t, exec .shiftStayTimeout s = .next t ∧ t.shift = shSTAYED ∧ t.isSet F.CFG_EVT_SHIFT_STAYED 0 = true ∧
          t.isSet F.HQI_CSTS_HELD 0 = false)) ∧
    (∀ b, s.cfg.copying = true →
      ∃ t, exec (.shiftTablesCopied b) s = .next t ∧ t.isSet F.CFG_EVT_SHIFT_APPLIED 0 = true ∧ t.isSet F.HQI_CSTS_HELD 0 = false ∧
        t.isSet F.CFG_STATUS_RECORD_READY 0 = true ∧ t.isSet F.CFG_STATUS_FALLBACK 0 = false)

/-- RING_FRAME_TICK, RING_ENABLE, RING_DISABLE, RING_ELECT, LOOP_LOCKED, LOOP_FAIL, FRAME_SILENCE, ELECTION_RESTART, RING_OPEN,
RING_IN_LOCK_LOSS and CLAIM_RECEIVED. -/
def Obligations.RingRoleRows : Prop :=
  ∀ s : State,
    (∀ b, s.pwr.held = [] → s.onTick 50 = true →
      (s.role = rlLISTEN ∨ s.role = rlMEMBER →
        ∃ t, exec (.ringFrameTick b) s = .next t ∧ t.trl.silent = min 8 (s.trl.silent + 1)) ∧
      (s.role = rlELECT → ∃ t, exec (.ringFrameTick b) s = .next t ∧ t.trl.electFor = min 64 (s.trl.electFor + 1)) ∧
      (s.role = rlHEAD → ∃ t, exec (.ringFrameTick b) s = .next t ∧ t.trl.time = (s.trl.time + 1) % 2 ^ 40 ∧
        t.trl.absent = s.trl.absent + 1)) ∧
    (s.pf1Served = true → s.isSet F.CFG_STATUS_LOADED 0 = true → s.role = rlOFF →
      ∃ t, exec .ringEnable s = .next t ∧ t.isSet F.TRL_CTL_EN 0 = true ∧ t.role = rlLOOP) ∧
    (s.pf1Served = true → ∃ t, exec .ringDisable s = .next t ∧ t.isSet F.TRL_CTL_EN 0 = false ∧ t.role = rlOFF) ∧
    (s.pf1Served = true → s.role = rlMEMBER ∨ s.role = rlHEAD →
      ∃ t, exec .ringElect s = .next t ∧ t.role = rlELECT ∧ t.isSet F.TRL_EVT_ELECTION 0 = true) ∧
    (s.pwr.held = [] →
      (s.role = rlLOOP → ∃ t, exec .loopLocked s = .next t ∧ t.role = rlLISTEN ∧ t.isSet F.TRL_STATUS_IN_LOCK 0 = true ∧
        t.isSet F.TRL_STATUS_BYP_HOLD 0 = true) ∧
      (s.role = rlLOOP → 8000 ≤ s.ticksSince s.trl.loopAt →
        ∃ t, exec .loopFail s = .next t ∧ t.isSet F.TRL_EVT_LOOP_FAIL 0 = true ∧ t.role = rlLOOP) ∧
      ((s.role = rlMEMBER ∧ 4 ≤ s.trl.silent) ∨ (s.role = rlLISTEN ∧ 8 ≤ s.trl.silent) →
        ∃ t, exec .frameSilence s = .next t ∧ t.role = rlELECT ∧ t.isSet F.TRL_EVT_ELECTION 0 = true ∧
          t.getF F.TRL_HEAD_LO_SERIAL 0 = s.serial % 2 ^ 32) ∧
      (s.role = rlELECT → 64 ≤ s.trl.electFor → ∃ t, exec .electionRestart s = .next t ∧ t.trl.electFor = 0 ∧ t.role = rlELECT) ∧
      (s.role = rlHEAD → 4 ≤ s.trl.absent → s.trl.open_ = false →
        ∃ t, exec .ringOpen s = .next t ∧ t.trl.open_ = true ∧ t.isSet F.TRL_EVT_RING_OPEN 0 = true) ∧
      (s.isSet F.TRL_STATUS_IN_LOCK 0 = true → s.role ≠ rlLOOP →
        ∃ t, exec .ringInLockLoss s = .next t ∧ t.isSet F.TRL_STATUS_IN_LOCK 0 = false ∧
          t.getF F.TRL_ERR_LOCK_LOSS 0 = min (s.getF F.TRL_ERR_LOCK_LOSS 0 + 1) (2 ^ 16 - 1))) ∧
    (∀ (n : BitVec 64) (time : BitVec 40), s.pwr.held = [] →
      (s.role = rlELECT → n.toNat = s.serial → ∃ t, exec (.claimReceived n time) s = .next t ∧ t.role = rlHEAD ∧
        t.isSet F.TRL_EVT_HEAD_CHANGE 0 = true ∧ t.trl.time = time.toNat ∧ t.getF F.TRL_STATUS_POSITION 0 = 0) ∧
      (s.role = rlMEMBER → n.toNat < s.serial → ∃ t, exec (.claimReceived n time) s = .next t ∧ t.role = rlELECT ∧
        t.getF F.TRL_HEAD_LO_SERIAL 0 + t.getF F.TRL_HEAD_HI_SERIAL 0 * 2 ^ 32 ≤ n.toNat ∧
        ∃ a, time.toNat ≤ a ∧ .ringClaim a n.toNat ∈ t.out) ∧
      (s.role = rlMEMBER → s.serial < n.toNat → ∃ t, exec (.claimReceived n time) s = .next t ∧ t.role = rlELECT ∧
        ∃ a, .ringClaim a s.serial ∈ t.out))

/-- FRAME_START_RECEIVED, FRAME_RETURNED, COLLECT_EXPIRY, SHIFT_ABORT_RECEIVED and RING_TIME_READ. That POSITION is the HOPS received
is the model's reading (log 54). -/
def Obligations.RingFrameRows : Prop :=
  ∀ s : State, s.pwr.held = [] →
    (∀ x : FrameIn, s.role = rlMEMBER ∨ s.role = rlLISTEN → x.full = false →
      ∃ t, exec (.frameStartReceived x) s = .next t ∧ t.role = rlMEMBER ∧ t.getF F.TRL_STATUS_POSITION 0 = x.hops % 2 ^ 10 ∧
        t.isSet F.TRL_STATUS_IN_LOCK 0 = true ∧ t.trl.time = x.time % 2 ^ 40 ∧ t.trl.silent = 0 ∧
        (s.role = rlLISTEN → t.isSet F.TRL_EVT_JOINED 0 = true)) ∧
    (∀ x : FrameIn, s.role = rlLISTEN → x.full = true →
      ∃ t, exec (.frameStartReceived x) s = .next t ∧ t.role = rlLISTEN ∧ t.isSet F.TRL_EVT_TOO_MANY 0 = true) ∧
    (∀ lap path err st, s.role = rlHEAD →
      ∃ t, exec (.frameReturned lap path err st) s = .next t ∧ t.isSet F.TRL_STATUS_IN_LOCK 0 = true ∧
        t.getF F.TRL_LAP_LAP 0 = lap % 2 ^ 21 ∧ (120000 < lap → t.isSet F.TRL_EVT_LAP_LONG 0 = true)) ∧
    (∀ j, s.trl.job = some j → j.phase = 1 → begun j.since s.trl.time = true →
      max 1 j.collect ≤ framesFrom j.since s.trl.time →
      ∃ t, exec .collectExpiry s = .next t ∧ t.trl.job = some { j with phase := 4, since := (s.trl.time + 1) % 2 ^ 40 }) ∧
    (∀ e : BitVec 64, s.shift = shARMED → s.stageEpoch = e.toNat →
      ∃ t, exec (.shiftAbortReceived e) s = .next t ∧ t.shift = shNONE ∧ t.cfg.standby = none ∧ t.stg = sgREADY) ∧
    (s.pf1Served = true → ∃ t, exec .ringTimeRead s = .next t ∧ .regData (s.trl.time % 2 ^ 32) ∈ t.out ∧
      t.getF F.TRL_TIME_HI_TIME_HI 0 = s.trl.time / 2 ^ 32 % 2 ^ 8)

/-- PIECE_MESSAGE, MGMT_MESSAGE, SHIFT_REQ_MESSAGE, EXCLUDE_MESSAGE, MSG_SEND, MSG_RETURNED, MSG_LOST, RX_BUFFER_FREE, SHIFT_REQUEST
and EXCLUDE_REQUEST; a bad CRC raises CRC_ERR. -/
def Obligations.RingMessageRows : Prop :=
  ∀ s : State,
    (∀ (m : MsgIn) b, s.pwr.held = [] → s.onMessages = true → m.crcOk = true →
      (m.kind = 1 → s.isSet F.TRL_CTL_PIECE_EN 0 = true → s.cfg.piece = none → s.cfg.pieces = [] →
          s.pieceReason { bytes := pieceBytes m.words, sigOk := b } none = 0 →
          (s.fixStage (pieceBytes m.words)).cfg.flash.marked.contains (pcIndex (pieceBytes m.words)) = false →
        ∃ t, exec (.pieceMessage m b) s = .next t ∧ t.cfg.piece = some { bytes := pieceBytes m.words, sigOk := b }) ∧
      (m.kind = 2 → s.addressed m = true → s.isSet F.TRL_RX_STATUS_FULL 0 = false →
        ∃ t, exec (.mgmtMessage m) s = .next t ∧ t.isSet F.TRL_RX_STATUS_FULL 0 = true ∧ t.isSet F.TRL_EVT_MSG_RX 0 = true ∧
          t.getF F.TRL_RX_STATUS_SRC 0 = m.src % 2 ^ 10) ∧
      (m.kind = 2 → s.addressed m = true → s.isSet F.TRL_RX_STATUS_FULL 0 = true →
        ∃ t, exec (.mgmtMessage m) s = .next t ∧ .ringMsg m.kind m.dest m.src m.words m.delivered true ∈ t.out ∧
          t.getF F.TRL_RX_STATUS_DROPS 0 = min (s.getF F.TRL_RX_STATUS_DROPS 0 + 1) (2 ^ 8 - 1)) ∧
      (m.kind = 4 → s.role = rlHEAD → s.trl.job = none → s.unitsPresent = [] → s.trl.mixed = false → s.trl.open_ = false →
        ∃ t, exec (.shiftReqMessage m) s = .next t ∧ ∃ j, t.trl.job = some j ∧ j.phase = 1 ∧ j.epoch = m.words.getD 0 0 ∧
          j.lead = m.words.getD 1 0 % 2 ^ 16) ∧
      (m.kind = 5 → s.role = rlHEAD →
        ∃ t, exec (.excludeMessage m) s = .next t ∧ t.trl.excluded =
          if (m.words.getD 1 0).testBit 0 then insertNat (m.words.getD 0 0) s.trl.excluded
          else s.trl.excluded.filter (· ≠ m.words.getD 0 0))) ∧
    (∀ (m : MsgIn) b, s.pwr.held = [] → s.onMessages = true → m.crcOk = false →
      (∃ t, exec (.pieceMessage m b) s = .next t ∧ t.isSet F.TRL_EVT_CRC_ERR 0 = true) ∧
      (∃ t, exec (.mgmtMessage m) s = .next t ∧ t.isSet F.TRL_EVT_CRC_ERR 0 = true) ∧
      (∃ t, exec (.shiftReqMessage m) s = .next t ∧ t.isSet F.TRL_EVT_CRC_ERR 0 = true) ∧
      (∃ t, exec (.excludeMessage m) s = .next t ∧ t.isSet F.TRL_EVT_CRC_ERR 0 = true)) ∧
    (∀ w : BitVec 32, s.pf1Served = true →
      (s.isSet F.TRL_TX_STATUS_BUSY 0 = false → 1 ≤ w.toNat / 2 ^ 28 % 8 → w.toNat / 2 ^ 28 % 8 ≤ 5 → 1 ≤ w.toNat % 2 ^ 10 →
          w.toNat % 2 ^ 10 ≤ 512 →
        ∃ t, exec (.msgSend w) s = .next t ∧ t.isSet F.TRL_TX_STATUS_BUSY 0 = true ∧
          ∃ x, t.trl.tx = s.trl.tx ++ [x] ∧ x.why = .data ∧ x.sentAt = none ∧ x.msg.kind = w.toNat / 2 ^ 28 % 8) ∧
      (s.isSet F.TRL_TX_STATUS_BUSY 0 = true →
        ∃ t, exec (.msgSend w) s = .next t ∧ t.isSet F.TRL_EVT_CFG_REJECT 0 = true ∧ t.trl = s.trl)) ∧
    (∀ (m : MsgIn) b x, s.pwr.held = [] → s.onMessages = true → m.src = s.getF F.TRL_STATUS_POSITION 0 → m.kind ≠ 1 →
      (s.trl.tx.find? fun y => y.sentAt.isSome && y.msg.kind == m.kind && y.msg.words == m.words) = some x → x.why = .data →
      ∃ t, exec (.msgReturned m b) s = .next t ∧ t.isSet F.TRL_TX_STATUS_BUSY 0 = false ∧ t.isSet F.TRL_EVT_TX_DONE 0 = true ∧
        t.getF F.TRL_TX_STATUS_RESULT 0 = (if m.busy then 2 else if m.delivered then 1 else 3) ∧ t.trl.tx = s.trl.tx.erase x) ∧
    (∀ x a, s.pwr.held = [] → s.trl.tx = [x] → x.why = .data → x.sentAt = some a → 100 < s.ticksSince a →
      ∃ t, exec .msgLost s = .next t ∧ t.trl.tx = [] ∧ t.getF F.TRL_TX_STATUS_RESULT 0 = 4 ∧ t.isSet F.TRL_EVT_TX_DONE 0 = true) ∧
    (s.pf1Served = true → ∃ t, exec .rxBufferFree s = .next t ∧ t.isSet F.TRL_RX_STATUS_FULL 0 = false) ∧
    (∀ w : BitVec 32, s.pf1Served = true →
      (s.role ≠ rlHEAD → s.getF F.TRL_SHIFT_CTL_RESULT 0 ≠ 1 →
        ∃ t, exec (.shiftRequest w) s = .next t ∧ t.getF F.TRL_SHIFT_CTL_RESULT 0 = 1 ∧
          ∃ x, t.trl.tx = s.trl.tx ++ [x] ∧ x.why = .shift ∧ x.msg.kind = 4) ∧
      (s.getF F.TRL_SHIFT_CTL_RESULT 0 = 1 → ∃ t, exec (.shiftRequest w) s = .next t ∧ t.isSet F.TRL_EVT_CFG_REJECT 0 = true) ∧
      (s.role = rlHEAD → s.isSet F.TRL_EXCL_CTL_BUSY 0 = false → w.toNat.testBit 1 = true →
        ∃ t, exec (.excludeRequest w) s = .next t ∧
          t.trl.excluded = insertNat (s.get64 F.TRL_EXCL_LO_SERIAL F.TRL_EXCL_HI_SERIAL) s.trl.excluded))

/-- Asserting holds the device with every register of the blocks before 19 at its reset value, fuses and flash kept; deasserting
starts the full load; UNIT_RESET does both. DRAM is emptied by the model's choice (log 6). -/
def Obligations.DeviceResetRows : Prop :=
  ∀ s : State,
    (∃ t, exec .pornAssert s = .next t ∧ .porn ∈ t.pwr.held ∧ (s.pwr.held = [] → t.pwr.cause = 1) ∧
      t.isSet F.PWR_RESET_CAUSE_POR 0 = true ∧ t.getF F.PWR_RESET_CAUSE_LAST 0 = 0 ∧ t.mem = {} ∧ t.cfg.fuses = s.cfg.fuses ∧
      t.cfg.flash = s.cfg.flash ∧ ∀ (f : Machine.Field) i, f.id < 19000 → t.getF f i = f.reset) ∧
    (∃ t, exec .srstnAssert s = .next t ∧ .srstn ∈ t.pwr.held ∧ (s.pwr.held = [] → t.pwr.cause = 2) ∧
      t.isSet F.PWR_RESET_CAUSE_SRST 0 = true ∧ t.getF F.PWR_RESET_CAUSE_LAST 0 = 1 ∧ t.mem = {} ∧ t.cfg.fuses = s.cfg.fuses ∧
      t.cfg.flash = s.cfg.flash ∧ ∀ (f : Machine.Field) i, f.id < 19000 → t.getF f i = f.reset) ∧
    (∀ x, s.pwr.held = [.porn] →
      ∃ t, exec (.pornDeassert x) s = .next t ∧ t.pwr.held = [] ∧ t.cfg.load = some { cause := s.pwr.cause }) ∧
    (∀ x, s.pwr.held = [.srstn] →
      ∃ t, exec (.srstnDeassert x) s = .next t ∧ t.pwr.held = [] ∧ t.cfg.load = some { cause := s.pwr.cause }) ∧
    (∀ m x, s.pwr.held = [] → s.onMessages = true → m.crcOk = true → m.kind = 3 → m.dest = s.getF F.TRL_STATUS_POSITION 0 →
      m.words.getD 0 0 = s.serial → s.isSet F.TRL_CTL_RESET_EN 0 = true →
      ∃ t, exec (.unitResetMessage m x) s = .next t ∧ t.cfg.load = some { cause := 4 } ∧
        t.isSet F.PWR_RESET_CAUSE_RING 0 = true ∧ t.getF F.PWR_RESET_CAUSE_LAST 0 = 6)

/-- Causes recorded; a verify-only load with an image placed, a full one without (log 69). -/
def Obligations.HostResetRows : Prop :=
  ∀ s : State,
    (s.hif.perst = false → s.pwr.held = [] →
      ∃ t, exec .perstAssert s = .next t ∧ t.isSet F.PWR_RESET_CAUSE_PERST 0 = true ∧ t.getF F.PWR_RESET_CAUSE_LAST 0 = 2) ∧
    (s.hif.perst = false → s.pwr.held ≠ [] →
      ∃ t, exec .perstAssert s = .next t ∧ t.hif.perst = true ∧ t.getF F.PWR_RESET_CAUSE_LAST 0 = 2) ∧
    (s.hif.perst = true → s.pwr.held = [] → s.cfg.load = none → s.cfg.image.isSome = true →
      ∃ t, exec .perstDeassert s = .next t ∧ t.hif.perst = false ∧ t.cfg.load = some { cause := 3, verifyOnly := true } ∧
        t.regs = s.regs) ∧
    (s.hif.perst = true → s.pwr.held = [] → s.cfg.load = none → s.cfg.image = none →
      ∃ t, exec .perstDeassert s = .next t ∧ t.cfg.load = some { cause := 3 }) ∧
    (∀ x, s.pwr.held = [] → s.verifying = true → s.verifyOnlyCause x = 0 →
      ∃ t, exec (.verifyOnlyLoadDone x) s = .next t ∧ t.cfg.load = none ∧ t.cfg.recordDue = some 3) ∧
    (∀ x, s.pwr.held = [] → s.verifying = true → s.verifyOnlyCause x ≠ 0 →
      ∃ t, exec (.verifyOnlyLoadDone x) s = .next t ∧ t.cfg.load = some { cause := 3 } ∧ t.isSet F.CFG_STATUS_LOADED 0 = false) ∧
    (s.hif.perst = false → s.pwr.held = [] →
      ∃ t, exec .hotReset s = .next t ∧ t.isSet F.HIF_EVT_HOT_RESET 0 = true ∧ t.isSet F.PWR_RESET_CAUSE_HOT 0 = true ∧
        t.getF F.PWR_RESET_CAUSE_LAST 0 = 3)

/-- RAIL_FAULT, RAIL_RETURN, CLK_FAULT, SYSCLK_RETURN, LREF_LOSS, LREF_RETURN, PCIE_REF_LOSS and PCIE_REF_RETURN. -/
def Obligations.RailAndClockRows : Prop :=
  ∀ s : State,
    (∀ r : Fin 8, s.pwr.held = [] → s.bitF F.PWR_STATUS_RAILS 0 r = true →
      ∃ t, exec (.railFault r) s = .next t ∧ t.bitF F.PWR_STATUS_RAILS 0 r = false ∧ t.isSet F.PWR_EVT_RAIL_FAULT 0 = true ∧
        t.isSet F.HIF_CONTAIN_CAUSE_INTERNAL 0 = true) ∧
    (∀ r : Fin 8, ∃ t, exec (.railReturn r) s = .next t ∧ t.bitF F.PWR_STATUS_RAILS 0 r = true) ∧
    (∃ t, exec .clkFault s = .next t ∧ .sysclk ∈ t.pwr.held ∧ t.isSet F.PWR_STATUS_SYSCLK 0 = false ∧
      t.getF F.PWR_RESET_CAUSE_LAST 0 = 1) ∧
    (∀ x, s.pwr.held = [.sysclk] →
      ∃ t, exec (.sysclkReturn x) s = .next t ∧ t.pwr.held = [] ∧ t.cfg.load = some { cause := s.pwr.cause }) ∧
    (∀ d : Fin 8, s.pwr.held = [] → s.bitF F.PWR_STATUS_LREF 0 d = true →
      ∃ t, exec (.lrefLoss d) s = .next t ∧ t.bitF F.PWR_STATUS_LREF 0 d = false ∧ t.isSet F.PWR_EVT_LREF_LOSS 0 = true) ∧
    (∀ d : Fin 8, ∃ t, exec (.lrefReturn d) s = .next t ∧ t.bitF F.PWR_STATUS_LREF 0 d = true) ∧
    (s.pwr.held = [] → s.isSet F.HIF_LINK_DL_ACTIVE 0 = true →
      ∃ t, exec .pcieRefLoss s = .next t ∧ t.isSet F.PWR_STATUS_PCIE_REF 0 = false ∧ t.isSet F.HIF_LINK_DL_ACTIVE 0 = false) ∧
    (∃ t, exec .pcieRefReturn s = .next t ∧ t.isSet F.PWR_STATUS_PCIE_REF 0 = true)

/-- Temperatures shown, the thermal trip and its end, pending regions, a trim taken or rejected. -/
def Obligations.CalibrationRows : Prop :=
  ∀ s : State,
    (∀ (temps : List Int) x, s.pwr.held = [] →
      (∀ i < 16, -480 ≤ temps.getD i 0 ∧ temps.getD i 0 ≤ 1280 ∧ (s.sensor i).last ≠ some (temps.getD i 0)) →
      ((∀ i < 16, temps.getD i 0 < 1200) →
        ∃ t, exec (.sensorSample temps x) s = .next t ∧
          ∀ i < 16, t.temp i = temps.getD i 0 ∧ t.isSet F.CAL_TEMP_VALID i = true) ∧
      (∀ i < 16, 1200 ≤ temps.getD i 0 →
        ∃ t, exec (.sensorSample temps x) s = .next t ∧ t.pwr.held = [.trip] ∧ t.getF F.PWR_RESET_CAUSE_LAST 0 = 8)) ∧
    (∀ (temps : List Int) x, s.pwr.held = [.trip] → (∀ i < 16, temps.getD i 0 < 1040) →
      ∃ t, exec (.sensorSample temps x) s = .next t ∧ t.pwr.held = [] ∧ t.cfg.load = some { cause := s.pwr.cause }) ∧
    (∀ i < 16, s.isSet F.CAL_CTL_EN 0 = true → trimmed i = true →
      (s.pf1Served = true → ∃ t, exec .calForce s = .next t ∧ t.bitF F.CAL_STATUS_PEND 0 i = true) ∧
      (s.pwr.held = [] → s.isSet F.CAL_TEMP_VALID i = false →
        ∃ t, exec .calPeriodic s = .next t ∧ t.bitF F.CAL_STATUS_PEND 0 i = true)) ∧
    (∀ (i : Fin 16) (u : Fin 41) x n, s.pwr.held = [] → (s.region i).left.find? (fun p => p.1 = u.val) = some (u.val, n) →
      s.bitF F.CAL_STATUS_PEND 0 i = true → s.calMay i u = true →
      (s.plausible i u (s.trim i u) x = true →
        ∃ t, exec (.calUnit i u x) s = .next t ∧ t.trim i u = newTrim i u (s.trim i u) x) ∧
      (s.plausible i u (s.trim i u) x = false →
        ∃ t, exec (.calUnit i u x) s = .next t ∧ t.isSet F.CAL_EVT_CAL_REJECT 0 = true ∧ t.trim i u = s.trim i u ∧
          t.getF F.CAL_RUN_REJECTS i = min (s.getF F.CAL_RUN_REJECTS i + 1) (2 ^ F.CAL_RUN_REJECTS.width - 1)))

/-- A 1 clears its event bit, the mask is stored, a force sets bits; other bits of the register stay as a held low word, rejected
first, leaves them. -/
def Obligations.EventRegisterRows : Prop :=
  ∀ (s : State) (a : BitVec 27) (w : BitVec 32) (e : EvtReg) (i : Nat), s.pf1Served = true →
    (evtAt a.toNat = some (e, .bits, i) →
      ∃ t, exec (.evtClear a w) s = .next t ∧
        ∀ p ∈ e.bits.zipIdx, t.isSet p.1 i = (({ s with out := [] } : State).flushAsm.isSet p.1 i && !w.toNat.testBit p.2)) ∧
    (evtAt a.toNat = some (e, .mask, i) →
      ∃ t, exec (.evtMaskWrite a w) s = .next t ∧ t.getF e.mask i = w.toNat % 2 ^ e.mask.width ∧
        ∀ f ∈ e.bits, t.isSet f i = ({ s with out := [] } : State).flushAsm.isSet f i) ∧
    (evtAt a.toNat = some (e, .force, i) →
      ∃ t, exec (.evtForceWrite a w) s = .next t ∧
        ∀ p ∈ e.bits.zipIdx, t.isSet p.1 i = (({ s with out := [] } : State).flushAsm.isSet p.1 i || w.toNat.testBit p.2))

/-- Reading any register answers its word and clears its RC fields; an access that is not aligned or not served reaches none; a
register with no row of its own takes a value in range and rejects another (shown for WRP_LINGER and PRC_MARKS). -/
def Obligations.RegisterSpaceRows : Prop :=
  ∀ s : State,
    (∀ (a : BitVec 32) r i, s.pf1Served = true → a.toNat % 4 = 0 → tableEntry a.toNat = none → tableEntry (a.toNat - 4) = none →
      locateIn allRegs a.toNat = some (r, i) →
      ∃ t, exec (.rcRead .pf1 a) s = .next t ∧ .regData (s.wordOf r i) ∈ t.out ∧ ∀ f ∈ r.fields, f.acc = .rc → t.getF f.fld i = 0) ∧
    (∀ sp (a : BitVec 32), s.served sp.fn = true → a.toNat % 4 ≠ 0 →
      ∃ t, exec (.rcRead sp a) s = .next t ∧ .cplUr ∈ t.out ∧ t.isSet F.HIF_EVT_CFG_REJECT 0 = true) ∧
    (∀ sp (a : BitVec 32), s.pwr.held = [] → s.served sp.fn = false → s.isSet F.HIF_LINK_DL_ACTIVE 0 = true →
      ∃ t, exec (.rcRead sp a) s = .next t ∧ .cplUr ∈ t.out) ∧
    (∀ (w : BitVec 32) x d, s.pf1Served = true →
      (1 ≤ w.toNat % 2 ^ 11 → w.toNat % 2 ^ 11 ≤ 2000 →
        ∃ t, exec (.registerWrite .pf1 0xD00008 w x d) s = .next t ∧ t.getF F.WRP_LINGER_MS 0 = w.toNat % 2 ^ 11) ∧
      (w.toNat % 2 ^ 11 = 0 ∨ 2000 < w.toNat % 2 ^ 11 →
        ∃ t, exec (.registerWrite .pf1 0xD00008 w x d) s = .next t ∧ t.getF F.WRP_LINGER_MS 0 = s.getF F.WRP_LINGER_MS 0 ∧
          t.isSet F.WRP_EVT_CFG_REJECT 0 = true) ∧
      (w.toNat % 2 ^ 8 < w.toNat / 2 ^ 8 % 2 ^ 8 →
        ∃ t, exec (.registerWrite .pf1 0xC40024 w x d) s = .next t ∧ t.getF F.PRC_MARKS_HIGH 0 = w.toNat / 2 ^ 8 % 2 ^ 8 ∧
          t.getF F.PRC_MARKS_LOW 0 = w.toNat % 2 ^ 8) ∧
      (w.toNat / 2 ^ 8 % 2 ^ 8 ≤ w.toNat % 2 ^ 8 →
        ∃ t, exec (.registerWrite .pf1 0xC40024 w x d) s = .next t ∧ t.getF F.PRC_MARKS_HIGH 0 = s.getF F.PRC_MARKS_HIGH 0 ∧
          t.isSet F.PRC_EVT_CFG_REJECT 0 = true)) ∧
    (∀ sp (a w : BitVec 32) x d, s.served sp.fn = true → a.toNat % 4 ≠ 0 →
      ∃ t, exec (.registerWrite sp a w x d) s = .next t ∧ t.isSet F.HIF_EVT_CFG_REJECT 0 = true)

/-- For every command of these rows and every state: if exec answers next t, then every register field outside the command's reach
(Safety.lean names it: the fields its rules write, instance by instance unbounded), every part of the state outside it, every byte
of DRAM unless it names DRAM, and the queue are as before. -/
def Obligations.SystemRowsKeepTheRest : Prop :=
  ∀ (c : Instr) (s t : State), c.mnemonic ∈
    ["SERVO_TICK", "MOTOR_TICK", "TCK_CTL_WRITE", "TCK_ASY_DEADLINE_WRITE", "COLLIER_OVERRUN", "LRN_SKIP",
     "PROFILE_TICK", "SPEED_TICK", "HOLDOVER", "TCK_COUNT_READ", "TAKEOVER_PARTNER_FREE", "SEEK_REISSUE",
     "TAKEOVER_REQUEST", "HANDBACK_REQUEST", "HANDBACK_DONE", "VERIFY_ONLY_LOAD_DONE", "UNIT_RESET_MESSAGE",
     "PORN_DEASSERT", "SRSTN_DEASSERT", "RAIL_FAULT", "SYSCLK_RETURN", "LREF_LOSS", "SENSOR_SAMPLE", "LREF_RETURN",
     "RAIL_RETURN", "PERST_ASSERT", "PERST_DEASSERT", "HOT_RESET", "PORN_ASSERT", "SRSTN_ASSERT", "CLK_FAULT",
     "PCIE_REF_LOSS", "PCIE_REF_RETURN", "CAL_UNIT", "CAL_FORCE", "CAL_PERIODIC"] →
    exec c s = .next t → (reach c).holds s t

/-- For every command of these rows and every state: if exec answers next t, then every register field outside the command's reach
(Safety.lean names it: the fields its rules write, instance by instance unbounded), every part of the state outside it, every byte
of DRAM unless it names DRAM, and the queue are as before. -/
def Obligations.HeadRowsKeepTheRest : Prop :=
  ∀ (c : Instr) (s t : State), c.mnemonic ∈
    ["COEF_COMMIT", "COEF_COPY", "RP_EVALUATION", "MEDIA_OPERATION_TAKE", "ACQ_FAIL", "JUMP_BRAKE", "JUMP_SETTLE",
     "SEEK_FAIL", "SLED_ARRIVED", "SEEK_COMPLETE", "LAYER_HOP_KICK", "LAYER_HOP_DONE", "LAYER_FAIL",
     "ANGLE_LOSS_PARK", "FIX_TIMEOUT", "HOLD_EXIT", "HOLD_TIMEOUT", "HEAD_FAULT_RESET", "COLLIER_ENABLE",
     "COLLIER_DISABLE", "SEED_DONE", "SEED_REQUEST", "TABLE_CLEAR", "SLD_OVR", "SLED_TARGET_WRITE", "GROUP_GO",
     "SLED_STOP", "SLED_PARK", "SLED_HOME", "SLED_ENABLE", "SLED_DISABLE", "LIMIT_DEBOUNCED", "HOME_FAIL"] →
    exec c s = .next t → (reach c).holds s t

/-- For every command of these rows and every state: if exec answers next t, then every register field outside the command's reach
(Safety.lean names it: the fields its rules write, instance by instance unbounded), every part of the state outside it, every byte
of DRAM unless it names DRAM, and the queue are as before. -/
def Obligations.DeckRowsKeepTheRest : Prop :=
  ∀ (c : Instr) (s t : State), c.mnemonic ∈
    ["OBS_LATE", "WND_OVR", "DECK_LOAD", "DECK_START", "DECK_STOP", "DECK_UNLOAD", "DECK_FAULT_RESET",
     "SPEED_TARGET_WRITE", "OVERCURRENT", "DRV_FAULT", "GATE_HOLD_END", "PILLAR_REPORT", "SPIN_MEASURE_END",
     "ALIGN_END", "HANDOVER_TIMEOUT", "SPIN_FAIL", "SHORT_HOLD_END", "STOPPED"] →
    exec c s = .next t → (reach c).holds s t

/-- For every command of these rows and every state: if exec answers next t, then every register field outside the command's reach
(Safety.lean names it: the fields its rules write, instance by instance unbounded), every part of the state outside it, every byte
of DRAM unless it names DRAM, and the queue are as before. -/
def Obligations.LinkAndChannelRowsKeepTheRest : Prop :=
  ∀ (c : Instr) (s t : State), c.mnemonic ∈
    ["LINK_WORD_PUSH", "FIFO_POP", "FIFO_OVERFLOW", "FIFO_FLUSH", "ECHO_RECEIVED", "ALIGN_MARKER", "ROTATE",
     "LANE_RESTORE_SOAK", "LANE_FAIL", "LINK_ENABLE", "LINK_DISABLE", "TRAIN_DONE", "TRAIN_FAIL", "PRBS_CTL_WRITE",
     "FAR_LOOPBACK_D0", "FAR_LOOPBACK_D1", "FAR_LOOPBACK_END", "HFE_GENERATOR_START", "HFE_GENERATOR_STOP",
     "CMD_TIMEOUT", "EYE_SCAN_START", "EYE_SCAN_DONE", "TICK_LEAD_WRITE", "CHANNEL_ENABLE", "CHANNEL_DISABLE",
     "CHANNEL_LOCK", "LOCK_TIMEOUT", "PILLAR_DETECT", "ZONE_RELOAD", "DRIFT_SLOT", "DEFECT", "DRIFT_DELIVERED",
     "INNER_DECODE_DONE"] →
    exec c s = .next t → (reach c).holds s t

/-- For every command of these rows and every state: if exec answers next t, then every register field outside the command's reach
(Safety.lean names it: the fields its rules write, instance by instance unbounded), every part of the state outside it, every byte
of DRAM unless it names DRAM, and the queue are as before. -/
def Obligations.DecodeAndWriteRowsKeepTheRest : Prop :=
  ∀ (c : Instr) (s t : State), c.mnemonic ∈
    ["ASY_MISS", "LODE_END", "JOB_START", "JOB_DONE", "ENTRY_LINK", "PRC_FLUSH", "SLOT_RESERVE", "PRC_DISABLE",
     "LINGER_EXPIRY", "WRITE_OPERATION_ISSUE", "PREP_AT_POSITION", "CALIBRATION_REVS_END", "WRITE_REVOLUTION_END",
     "VERIFY_REVOLUTION_END", "RESOLVE", "WP_RECOVERED"] →
    exec c s = .next t → (reach c).holds s t

/-- For every command of these rows and every state: if exec answers next t, then every register field outside the command's reach
(Safety.lean names it: the fields its rules write, instance by instance unbounded), every part of the state outside it, every byte
of DRAM unless it names DRAM, and the queue are as before. -/
def Obligations.EndpointRowsKeepTheRest : Prop :=
  ∀ (c : Instr) (s t : State), c.mnemonic ∈
    ["FLR_COMPLETE", "CONFIG_REQUEST", "LINK_UP", "COMPLETION_RECEIVED", "CPL_TIMEOUT", "PEER_READ", "PEER_WRITE",
     "WINDOW_COMMIT", "MSIX_VECTOR_UNMASK", "BAD_REGISTER_ACCESS", "FLR_PF0", "FLR_PF1", "LINK_DOWN",
     "DECODE_BOUNDARY", "CONTAINMENT_FORCE", "CONTAINMENT_FROZEN", "CONTAINMENT_RELEASE", "PF0_D3HOT", "PF0_D0",
     "HOT_RESET_READY"] →
    exec c s = .next t → (reach c).holds s t

/-- For every command of these rows and every state: if exec answers next t, then every register field outside the command's reach
(Safety.lean names it: the fields its rules write, instance by instance unbounded), every part of the state outside it, every byte
of DRAM unless it names DRAM, and the queue are as before. -/
def Obligations.HostRowsKeepTheRest : Prop :=
  ∀ (c : Instr) (s t : State), c.mnemonic ∈
    ["QUEUE_PAIR_ENABLE", "QUEUE_PAIR_DISABLE", "SQ_TAIL_DOORBELL", "CQ_HEAD_DOORBELL", "COMPLETION_POST",
     "COAL_TIME_EXPIRY", "SELF_TEST_DONE", "VOLUME_MOUNT_PROCEED", "CONTROLLER_ENABLE", "CONTROLLER_RESET",
     "ARBITRATION", "READ", "APPEND", "WRITE_AT", "FLUSH", "SEAL_SEAM", "IDENTIFY", "GET_LOG", "SET_FEATURE",
     "GET_FEATURE", "ABORT", "SELF_TEST_SHORT", "SELF_TEST_EXTENDED", "SELF_TEST_STOP", "VOLUME_MOUNT",
     "VOLUME_RELEASE"] →
    exec c s = .next t → (reach c).holds s t

/-- For every command of these rows and every state: if exec answers next t, then every register field outside the command's reach
(Safety.lean names it: the fields its rules write, instance by instance unbounded), every part of the state outside it, every byte
of DRAM unless it names DRAM, and the queue are as before. -/
def Obligations.MemoryRowsKeepTheRest : Prop :=
  ∀ (c : Instr) (s t : State), c.mnemonic ∈
    ["SCRUB_DONE", "SCRUB_LAP", "BUCKET_LEAK", "BUCKET_RESET", "TABLE_LOW_WRITE", "TABLE_HIGH_WRITE",
     "TABLE_LOW_READ", "DRAM_SCRUB_GO", "DRAM_SCRUB_STOP", "NARROW_WRITE_TIMEOUT", "TEST_RAW_WRITE", "TEST_RAW_READ",
     "TEST_OP_DONE", "WAY_POWER_DOWN", "WAY_POWER_UP", "WAY_OFF", "LCA_CLEAN", "LCA_INVALIDATE",
     "LCA_CLEAN_INVALIDATE", "LCA_PRELOAD", "WAY_ON", "OP_DONE"] →
    exec c s = .next t → (reach c).holds s t

/-- For every command of these rows and every state: if exec answers next t, then every register field outside the command's reach
(Safety.lean names it: the fields its rules write, instance by instance unbounded), every part of the state outside it, every byte
of DRAM unless it names DRAM, and the queue are as before. -/
def Obligations.ConfigurationRowsKeepTheRest : Prop :=
  ∀ (c : Instr) (s t : State), c.mnemonic ∈
    ["CONFIG_PIECE", "SVN_COMMIT", "KEY_REVOKE", "FUSE_PROGRAM_DONE", "IMAGE_LOAD_DONE", "BOOT_RECORD_SIGN",
     "PIECE_PROGRAMMED", "STAGE_VERIFY_DONE", "STAGE_COPY_DONE", "ARM_PREPARED", "SHIFT_COMMIT_RECEIVED",
     "SHIFT_TABLES_COPIED", "CONFIG_ARM", "ATTEST_READ", "STAGE_ABANDON", "SHIFT_FRAME_BEGIN", "SHIFT_QUIESCENT",
     "SHIFT_STAY_TIMEOUT"] →
    exec c s = .next t → (reach c).holds s t

/-- For every command of these rows and every state: if exec answers next t, then every register field outside the command's reach
(Safety.lean names it: the fields its rules write, instance by instance unbounded), every part of the state outside it, every byte
of DRAM unless it names DRAM, and the queue are as before. -/
def Obligations.RingRowsKeepTheRest : Prop :=
  ∀ (c : Instr) (s t : State), c.mnemonic ∈
    ["RING_FRAME_TICK", "FRAME_START_RECEIVED", "CLAIM_RECEIVED", "FRAME_RETURNED", "SHIFT_ABORT_RECEIVED",
     "PIECE_MESSAGE", "MGMT_MESSAGE", "SHIFT_REQ_MESSAGE", "EXCLUDE_MESSAGE", "MSG_SEND", "MSG_RETURNED",
     "SHIFT_REQUEST", "EXCLUDE_REQUEST", "RING_ENABLE", "RING_DISABLE", "RING_ELECT", "LOOP_LOCKED", "LOOP_FAIL",
     "FRAME_SILENCE", "ELECTION_RESTART", "RING_OPEN", "COLLECT_EXPIRY", "MSG_LOST", "RX_BUFFER_FREE",
     "RING_TIME_READ", "RING_IN_LOCK_LOSS"] →
    exec c s = .next t → (reach c).holds s t

/-- For every command of these rows and every state: if exec answers next t, then every register field outside the command's reach
(Safety.lean names it: the fields its rules write, instance by instance unbounded), every part of the state outside it, every byte
of DRAM unless it names DRAM, and the queue are as before. -/
def Obligations.RegisterRowsKeepTheRest : Prop :=
  ∀ (c : Instr) (s t : State), c.mnemonic ∈
    ["RC_READ", "EVT_CLEAR", "EVT_MASK_WRITE", "EVT_FORCE_WRITE", "REGISTER_WRITE"] →
    exec c s = .next t → (reach c).holds s t
end

