-- ==== Sys2Proof/Laws/Memory.lean ====
section
/-!
SUPPORT. The laws of memory: a byte written reads back, every other byte is left alone, and every operation keeps the canonical
form.
-/
namespace Sys2Proof.Laws

open Sys2Proof.Machine

theorem cellsRise_iff (m : List Host.Cell) : cellsRise m = true ↔ m.Pairwise fun c d => c.1 < d.1 := by
  induction m with
  | nil => simp [cellsRise]
  | cons c ds ih =>
    cases ds with
    | nil => simp [cellsRise]
    | cons d es =>
      simp only [cellsRise, Bool.and_eq_true, decide_eq_true_eq, ih, List.pairwise_cons]
      constructor
      · rintro ⟨h, hd, he⟩
        refine ⟨?_, hd, he⟩
        intro x hx
        rcases List.mem_cons.1 hx with rfl | hx
        · exact h
        · exact lt_trans h (hd x hx)
      · rintro ⟨h, hd, he⟩
        exact ⟨h d (by simp), hd, he⟩

theorem memoryWf_iff (m : List Host.Cell) :
    Memory.wf m = true ↔ (m.Pairwise fun c d => c.1 < d.1) ∧ ∀ c ∈ m, c.2 ≠ emptyByte := by
  simp only [Memory.wf, Bool.and_eq_true, cellsRise_iff, List.all_eq_true, bne_iff_ne, ne_eq]

theorem mem_memInsert (c x : Host.Cell) (m : List Host.Cell) (h : x ∈ memInsert c m) : x = c ∨ x ∈ m := by
  induction m with
  | nil => simpa [memInsert] using h
  | cons d ds ih =>
    unfold memInsert at h
    split at h
    · simpa using h
    · split at h
      · rcases List.mem_cons.1 h with h | h
        · exact .inl h
        · exact .inr (by simp [h])
      · rcases List.mem_cons.1 h with h | h
        · exact .inr (by simp [h])
        · rcases ih h with h | h
          · exact .inl h
          · exact .inr (by simp [h])

theorem pairwise_memInsert (c : Host.Cell) (m : List Host.Cell) (h : m.Pairwise fun c d => c.1 < d.1) :
    (memInsert c m).Pairwise fun c d => c.1 < d.1 := by
  induction m with
  | nil => simp [memInsert]
  | cons d ds ih =>
    have hd := List.pairwise_cons.1 h
    unfold memInsert
    split
    · rename_i hc
      refine List.pairwise_cons.2 ⟨?_, h⟩
      intro x hx
      rcases List.mem_cons.1 hx with rfl | hx
      · exact hc
      · exact lt_trans hc (hd.1 x hx)
    · split
      · rename_i hc
        exact List.pairwise_cons.2 ⟨fun x hx => hc ▸ hd.1 x hx, hd.2⟩
      · refine List.pairwise_cons.2 ⟨?_, ih hd.2⟩
        intro x hx
        rcases mem_memInsert _ _ _ hx with rfl | hx
        · omega
        · exact hd.1 x hx

/-- Writing a byte keeps the canonical form. -/
theorem memoryWf_memSet {m : List Host.Cell} (a : Nat) (b : BitVec 8) (h : Memory.wf m = true) :
    Memory.wf (memSet m a b) = true := by
  rw [memoryWf_iff] at *
  unfold memSet
  split
  · exact ⟨h.1.filter _, fun c hc => h.2 c (List.mem_of_mem_filter hc)⟩
  · rename_i hb
    refine ⟨pairwise_memInsert _ _ h.1, fun c hc => ?_⟩
    rcases mem_memInsert _ _ _ hc with rfl | hc
    · exact hb
    · exact h.2 c hc

/-- Writing bytes keeps the canonical form. -/
theorem memoryWf_memWrite {m : List Host.Cell} (a : Nat) (bs : List Nat) (h : Memory.wf m = true) :
    Memory.wf (memWrite m a bs) = true := by
  induction bs generalizing m a with
  | nil => exact h
  | cons b bs ih => exact ih _ (memoryWf_memSet _ _ h)

theorem memGet_memInsert_ne (a b : Nat) (x : BitVec 8) (m : List Host.Cell) (h : a ≠ b) :
    memGet (memInsert (a, x) m) b = memGet m b := by
  induction m with
  | nil => simp [memInsert, memGet, h]
  | cons d ds ih =>
    unfold memInsert
    split
    · simp [memGet, h]
    · split
      · rename_i hd
        simp only at hd
        subst hd
        simp [memGet, h]
      · simp [memGet, ih]

theorem memGet_memInsert_same (a : Nat) (x : BitVec 8) (m : List Host.Cell) : memGet (memInsert (a, x) m) a = x := by
  induction m with
  | nil => simp [memInsert, memGet]
  | cons d ds ih =>
    unfold memInsert
    split
    · simp [memGet]
    · split
      · simp [memGet]
      · rename_i h1 h2
        have : d.1 ≠ a := fun h => h2 h.symm
        simp [memGet, this, ih]

theorem memGet_filter_ne (a b : Nat) (m : List Host.Cell) (h : a ≠ b) :
    memGet (m.filter fun c => decide (c.1 ≠ a)) b = memGet m b := by
  induction m with
  | nil => rfl
  | cons d ds ih =>
    by_cases hd : d.1 = a
    · have : d.1 ≠ b := fun e => h (hd.symm.trans e)
      rw [List.filter_cons_of_neg (by simp [hd]), ih]
      simp [memGet, this]
    · rw [List.filter_cons_of_pos (by simp [hd])]
      simp only [memGet, ih]

theorem memGet_filter_same (a : Nat) (m : List Host.Cell) : memGet (m.filter fun c => decide (c.1 ≠ a)) a = emptyByte := by
  induction m with
  | nil => rfl
  | cons d ds ih =>
    by_cases hd : d.1 = a
    · rw [List.filter_cons_of_neg (by simp [hd]), ih]
    · rw [List.filter_cons_of_pos (by simp [hd])]
      simp only [memGet, hd, if_false, ih]

/-- A byte written reads back. -/
theorem memGet_memSet_same (m : List Host.Cell) (a : Nat) (b : BitVec 8) : memGet (memSet m a b) a = b := by
  unfold memSet
  split
  · rename_i h
    rw [memGet_filter_same, h]
  · exact memGet_memInsert_same a b m

/-- A write leaves every other byte alone. -/
theorem memGet_memSet_ne (m : List Host.Cell) (a c : Nat) (b : BitVec 8) (h : a ≠ c) : memGet (memSet m a b) c = memGet m c := by
  unfold memSet
  split
  · exact memGet_filter_ne a c m h
  · exact memGet_memInsert_ne a c b m h

/-- Writing bytes leaves every byte outside them alone. -/
theorem memGet_memWrite_out (m : List Host.Cell) (a c : Nat) (bs : List Nat) (h : c < a ∨ a + bs.length ≤ c) :
    memGet (memWrite m a bs) c = memGet m c := by
  induction bs generalizing m a with
  | nil => rfl
  | cons b bs ih =>
    simp only [List.length_cons] at h
    rw [memWrite, ih _ _ (by omega), memGet_memSet_ne _ _ _ _ (by omega)]

/-- Bytes written read back. -/
theorem memGet_memWrite_in (m : List Host.Cell) (a k : Nat) (bs : List Nat) (h : k < bs.length) :
    memGet (memWrite m a bs) (a + k) = BitVec.ofNat 8 (bs.getD k 0) := by
  induction bs generalizing m a k with
  | nil => simp at h
  | cons b bs ih =>
    cases k with
    | zero => rw [memWrite, memGet_memWrite_out _ _ _ _ (by omega)]; simp [memGet_memSet_same]
    | succ k =>
      simp only [List.length_cons] at h
      rw [memWrite, show a + (k + 1) = (a + 1) + k by omega, ih _ _ _ (by omega)]
      simp

/-- A read of n bytes that the written bytes do not meet is as before. -/
theorem memRead_memWrite_out (m : List Host.Cell) (a b n : Nat) (bs : List Nat) (h : b + n ≤ a ∨ a + bs.length ≤ b) :
    memRead (memWrite m a bs) b n = memRead m b n := by
  unfold memRead
  apply List.map_congr_left
  intro k hk
  rw [memGet_memWrite_out _ _ _ _ (by have := List.mem_range.1 hk; omega)]

end Sys2Proof.Laws
end

