-- ==== Sys2Proof/Laws/RegStore.lean ====
section
/-!
SUPPORT. The laws of the register store: a write is read back cut to its field's width, it leaves every other field alone, and the
canonical form is kept.
-/
namespace Sys2Proof.Laws

open Sys2Proof.Machine

/-- The order of the store as a relation. -/
def KeyLt (c d : RegCell) : Prop := c.fld.id < d.fld.id ∨ (c.fld.id = d.fld.id ∧ c.idx < d.idx)

theorem keyLt_iff (f i g j : Nat) : keyLt f i g j = true ↔ f < g ∨ (f = g ∧ i < j) := by simp [keyLt]

theorem keyLt_trans {c d e : RegCell} (h : KeyLt c d) (k : KeyLt d e) : KeyLt c e := by
  unfold KeyLt at *; omega

theorem keysRise_iff (cs : List RegCell) : keysRise cs = true ↔ cs.Pairwise KeyLt := by
  induction cs with
  | nil => simp [keysRise]
  | cons c ds ih =>
    cases ds with
    | nil => simp [keysRise]
    | cons d es =>
      simp only [keysRise, Bool.and_eq_true, keyLt_iff, ih, List.pairwise_cons]
      constructor
      · rintro ⟨h, hd, he⟩
        refine ⟨?_, hd, he⟩
        intro x hx
        rcases List.mem_cons.1 hx with rfl | hx
        · exact h
        · exact keyLt_trans h (hd x hx)
      · rintro ⟨h, hd, he⟩
        exact ⟨h d (by simp), hd, he⟩

/-- A listed value is not its field's reset value, and lies within its field's width. -/
def CellOk (c : RegCell) : Prop := c.val ≠ c.fld.reset ∧ c.val < 2 ^ c.fld.width

theorem regsWf_iff (cs : List RegCell) : regsWf cs = true ↔ cs.Pairwise KeyLt ∧ ∀ c ∈ cs, CellOk c := by
  simp [regsWf, keysRise_iff, CellOk]

theorem regsWf_filter {cs : List RegCell} (p : RegCell → Bool) (h : regsWf cs = true) : regsWf (cs.filter p) = true := by
  rw [regsWf_iff] at *
  exact ⟨h.1.filter _, fun c hc => h.2 c (List.mem_of_mem_filter hc)⟩

theorem mem_regInsert (c x : RegCell) (cs : List RegCell) : x ∈ regInsert c cs ↔ x = c ∨ x ∈ cs := by
  induction cs with
  | nil => simp [regInsert]
  | cons d ds ih =>
    unfold regInsert
    split
    · simp
    · simp only [List.mem_cons, ih]; tauto

theorem pairwise_regInsert (c : RegCell) (cs : List RegCell) (h : cs.Pairwise KeyLt)
    (hc : ∀ d ∈ cs, d.fld.id ≠ c.fld.id ∨ d.idx ≠ c.idx) : (regInsert c cs).Pairwise KeyLt := by
  induction cs with
  | nil => simp [regInsert]
  | cons d ds ih =>
    have hd := List.pairwise_cons.1 h
    unfold regInsert
    split
    · rename_i hk
      rw [keyLt_iff] at hk
      refine List.pairwise_cons.2 ⟨?_, h⟩
      intro x hx
      rcases List.mem_cons.1 hx with rfl | hx
      · exact hk
      · exact keyLt_trans hk (hd.1 x hx)
    · rename_i hk
      rw [keyLt_iff] at hk
      refine List.pairwise_cons.2 ⟨?_, ih hd.2 fun x hx => hc x (by simp [hx])⟩
      intro x hx
      rcases (mem_regInsert c x ds).1 hx with rfl | hx
      · have := hc d (by simp)
        unfold KeyLt; omega
      · exact hd.1 x hx

/-- A write keeps the canonical form. -/
theorem regsWf_regSet {cs : List RegCell} (f : Field) (i v : Nat) (h : regsWf cs = true) : regsWf (regSet cs f i v) = true := by
  unfold regSet
  dsimp only
  split
  · exact regsWf_filter _ h
  · rename_i hv
    have h0 := regsWf_filter (fun c => decide ¬ (c.fld.id = f.id ∧ c.idx = i)) h
    rw [regsWf_iff] at *
    refine ⟨pairwise_regInsert _ _ h0.1 ?_, ?_⟩
    · intro d hd
      have := (List.mem_filter.1 hd).2
      simp only [decide_eq_true_eq] at this
      simp only
      tauto
    · intro c hc
      rcases (mem_regInsert _ _ _).1 hc with rfl | hc
      · exact ⟨hv, Nat.mod_lt _ (Nat.two_pow_pos _)⟩
      · exact h0.2 c hc

theorem regGet_regInsert_same (c : RegCell) (cs : List RegCell) (f : Field) (i : Nat) (hf : c.fld.id = f.id) (hi : c.idx = i)
    (h : ∀ d ∈ cs, ¬ (d.fld.id = f.id ∧ d.idx = i)) : regGet (regInsert c cs) f i = c.val := by
  induction cs with
  | nil => simp [regInsert, regGet, hf, hi]
  | cons d ds ih =>
    unfold regInsert
    split
    · simp [regGet, hf, hi]
    · have := h d (by simp)
      simp only [regGet, this, if_false]
      exact ih fun x hx => h x (by simp [hx])

theorem regGet_regInsert_ne (c : RegCell) (cs : List RegCell) (f : Field) (i : Nat) (h : ¬ (c.fld.id = f.id ∧ c.idx = i)) :
    regGet (regInsert c cs) f i = regGet cs f i := by
  induction cs with
  | nil => simp [regInsert, regGet, h]
  | cons d ds ih =>
    unfold regInsert
    split
    · simp [regGet, h]
    · simp only [regGet, ih]

theorem regGet_filter (p : RegCell → Bool) (cs : List RegCell) (f : Field) (i : Nat)
    (h : ∀ c ∈ cs, c.fld.id = f.id ∧ c.idx = i → p c = true) : regGet (cs.filter p) f i = regGet cs f i := by
  induction cs with
  | nil => rfl
  | cons d ds ih =>
    have ih' := ih fun c hc => h c (by simp [hc])
    rw [List.filter_cons]
    split
    · simp only [regGet, ih']
    · rename_i hp
      have : ¬ (d.fld.id = f.id ∧ d.idx = i) := fun hd => hp (h d (by simp) hd)
      simp only [regGet, this, if_false, ih']

theorem regGet_absent (cs : List RegCell) (f : Field) (i : Nat) (h : ∀ c ∈ cs, ¬ (c.fld.id = f.id ∧ c.idx = i)) :
    regGet cs f i = f.reset := by
  induction cs with
  | nil => rfl
  | cons d ds ih =>
    simp only [regGet, h d (by simp), if_false]
    exact ih fun c hc => h c (by simp [hc])

theorem not_mem_regDrop (cs : List RegCell) (f : Field) (i : Nat) : ∀ c ∈ regDrop cs f i, ¬ (c.fld.id = f.id ∧ c.idx = i) := by
  intro c hc
  have := (List.mem_filter.1 hc).2
  simp only [decide_eq_true_eq] at this
  exact this

/-- A written field reads back the value cut to its width. -/
theorem regGet_regSet_same (cs : List RegCell) (f : Field) (i v : Nat) : regGet (regSet cs f i v) f i = v % 2 ^ f.width := by
  unfold regSet
  dsimp only
  split
  · rename_i h
    rw [regGet_absent _ _ _ (not_mem_regDrop cs f i), h]
  · exact regGet_regInsert_same ⟨f, i, v % 2 ^ f.width⟩ _ f i rfl rfl (not_mem_regDrop cs f i)

/-- A write leaves every other field and every other instance alone. -/
theorem regGet_regSet_ne (cs : List RegCell) (f g : Field) (i j v : Nat) (h : ¬ (f.id = g.id ∧ i = j)) :
    regGet (regSet cs f i v) g j = regGet cs g j := by
  have hd : regGet (regDrop cs f i) g j = regGet cs g j := by
    unfold regDrop
    apply regGet_filter
    intro c _ hc
    simp only [decide_eq_true_eq]
    intro hf
    exact h ⟨hf.1.symm.trans hc.1, hf.2.symm.trans hc.2⟩
  unfold regSet
  dsimp only
  split
  · exact hd
  · rw [regGet_regInsert_ne _ _ _ _ (by simpa using h), hd]

/-- A stored field stays within its width, in a canonical store, when its reset value does and cells of its number are its own. -/
theorem regGet_lt (cs : List RegCell) (f : Field) (i : Nat) (hr : f.reset < 2 ^ f.width)
    (h : ∀ c ∈ cs, CellOk c) (hf : ∀ c ∈ cs, c.fld.id = f.id → c.fld = f) : regGet cs f i < 2 ^ f.width := by
  induction cs with
  | nil => exact hr
  | cons d ds ih =>
    simp only [regGet]
    split
    · rename_i hd
      have h1 := h d (by simp)
      have h2 := h1.2
      rwa [hf d (by simp) hd.1] at h2
    · exact ih (fun c hc => h c (by simp [hc])) fun c hc => hf c (by simp [hc])

end Sys2Proof.Laws
end

