-- ==== Sys2Proof/Laws/Frame.lean ====
section
/-!
SUPPORT. The frame of an operation: what it may change. A frame is a mask of bits: bit n for the register field of number n (all
fields have numbers above 1,000), bits 1 to 17 for the other fields of the state (of HIF's state, apart from PF1's pending
bits), bit 18 for DRAM's bytes. Whatever the mask, a frame keeps the canonical
form of registers and memory, the width of the tick counter and the queue of commands, and never takes back a free value.
-/
set_option Elab.async false

namespace Sys2Proof.Laws

open Sys2Proof.Machine

/-- Every bit of a is a bit of b. -/
def subMask (a b : Nat) : Bool := a ||| b == b

/-- DRAM's data and check bytes are in canonical form. -/
def memWf (m : MemS) : Prop := Memory.wf m.dram = true ∧ Memory.wf m.chk = true

/-- From s to t only what the mask m names has changed. -/
structure Frame (m : Nat) (s t : State) : Prop where
  reg : ∀ (f : Field) (i : Nat), f.id < 20000 → m.testBit f.id = false → t.getF f i = s.getF f i
  regs : regsWf s.regs = true → regsWf t.regs = true
  tick : m.testBit 1 = true ∨ t.tick = s.tick
  tickLt : s.tick < 2 ^ 48 → t.tick < 2 ^ 48
  tck : m.testBit 2 = true ∨ t.tck = s.tck
  hif : m.testBit 3 = true ∨ ∃ p, t.hif = { s.hif with pf1 := { s.hif.pf1 with pba := p } }
  hqi : m.testBit 4 = true ∨ t.hqi = s.hqi
  vols : m.testBit 5 = true ∨ t.vols = s.vols
  asy : m.testBit 6 = true ∨ t.asy = s.asy
  heads : m.testBit 7 = true ∨ t.heads = s.heads
  decks : m.testBit 8 = true ∨ t.decks = s.decks
  chans : m.testBit 9 = true ∨ t.chans = s.chans
  lanes : m.testBit 10 = true ∨ t.lanes = s.lanes
  mem : m.testBit 11 = true ∨ t.mem = s.mem
  memWf : memWf s.mem → memWf t.mem
  dram : m.testBit 18 = true ∨ (t.mem.dram = s.mem.dram ∧ t.mem.chk = s.mem.chk)
  cfg : m.testBit 12 = true ∨ t.cfg = s.cfg
  trl : m.testBit 13 = true ∨ t.trl = s.trl
  cal : m.testBit 14 = true ∨ t.cal = s.cal
  pwr : m.testBit 15 = true ∨ t.pwr = s.pwr
  free : m.testBit 16 = true ∨ t.free = s.free
  freeLe : s.free ≤ t.free
  out : m.testBit 17 = true ∨ t.out = s.out
  pending : t.pending = s.pending
  tap : t.tap = s.tap

theorem subMask_testBit {a b k : Nat} (h : subMask a b = true) (hk : a.testBit k = true) : b.testBit k = true := by
  have e : a ||| b = b := by simpa [subMask] using h
  rw [← e, Nat.testBit_or, hk, Bool.true_or]

theorem subMask_testBit_false {a b k : Nat} (h : subMask a b = true) (hk : b.testBit k = false) : a.testBit k = false := by
  cases ha : a.testBit k
  · rfl
  · rw [subMask_testBit h ha] at hk
    exact hk

theorem subMask_trans {a b c : Nat} (h : subMask a b = true) (k : subMask b c = true) : subMask a c = true := by
  have e1 : a ||| b = b := by simpa [subMask] using h
  have e2 : b ||| c = c := by simpa [subMask] using k
  have : a ||| c = c := by rw [← e2, ← Nat.or_assoc, e1]
  simpa [subMask] using this

theorem Frame.refl (m : Nat) (s : State) : Frame m s s where
  reg _ _ _ _ := rfl
  regs h := h
  tick := .inr rfl
  tickLt h := h
  tck := .inr rfl
  hif := .inr ⟨_, rfl⟩
  hqi := .inr rfl
  vols := .inr rfl
  asy := .inr rfl
  heads := .inr rfl
  decks := .inr rfl
  chans := .inr rfl
  lanes := .inr rfl
  mem := .inr rfl
  memWf h := h
  dram := .inr ⟨rfl, rfl⟩
  cfg := .inr rfl
  trl := .inr rfl
  cal := .inr rfl
  pwr := .inr rfl
  free := .inr rfl
  freeLe := le_refl _
  out := .inr rfl
  pending := rfl
  tap := rfl

theorem or_mono {a b : Nat} {k : Nat} {p : Prop} (h : subMask a b = true) (x : a.testBit k = true ∨ p) :
    b.testBit k = true ∨ p := x.imp_left (subMask_testBit h)

theorem or_trans {b : Bool} {α : Type} {x y z : α} (h : b = true ∨ y = x) (k : b = true ∨ z = y) : b = true ∨ z = x := by
  rcases h with h | h
  · exact .inl h
  · rcases k with k | k
    · exact .inl k
    · exact .inr (k.trans h)

/-- A frame of a smaller mask, after a frame. -/
theorem Frame.step {w m : Nat} {r s t : State} (k : Frame w s t) (h : Frame m r s) (hm : subMask w m = true) : Frame m r t where
  reg f i hl hf := (k.reg f i hl (subMask_testBit_false hm hf)).trans (h.reg f i hl hf)
  regs x := k.regs (h.regs x)
  tick := or_trans h.tick (or_mono hm k.tick)
  tickLt x := k.tickLt (h.tickLt x)
  tck := or_trans h.tck (or_mono hm k.tck)
  hif := by
    rcases h.hif with x | ⟨p, x⟩
    · exact .inl x
    · rcases k.hif with y | ⟨q, y⟩
      · exact .inl (subMask_testBit hm y)
      · exact .inr ⟨q, by rw [y, x]⟩
  hqi := or_trans h.hqi (or_mono hm k.hqi)
  vols := or_trans h.vols (or_mono hm k.vols)
  asy := or_trans h.asy (or_mono hm k.asy)
  heads := or_trans h.heads (or_mono hm k.heads)
  decks := or_trans h.decks (or_mono hm k.decks)
  chans := or_trans h.chans (or_mono hm k.chans)
  lanes := or_trans h.lanes (or_mono hm k.lanes)
  mem := or_trans h.mem (or_mono hm k.mem)
  memWf x := k.memWf (h.memWf x)
  dram := by
    rcases h.dram with x | x
    · exact .inl x
    · rcases k.dram with y | y
      · exact .inl (subMask_testBit hm y)
      · exact .inr ⟨y.1.trans x.1, y.2.trans x.2⟩
  cfg := or_trans h.cfg (or_mono hm k.cfg)
  trl := or_trans h.trl (or_mono hm k.trl)
  cal := or_trans h.cal (or_mono hm k.cal)
  pwr := or_trans h.pwr (or_mono hm k.pwr)
  free := or_trans h.free (or_mono hm k.free)
  freeLe := le_trans h.freeLe k.freeLe
  out := or_trans h.out (or_mono hm k.out)
  pending := k.pending.trans h.pending
  tap := k.tap.trans h.tap

theorem Frame.mono {w m : Nat} {s t : State} (k : Frame w s t) (hm : subMask w m = true) : Frame m s t :=
  k.step (Frame.refl m s) hm

/-- A record update that leaves the queue alone: every other field is named by the mask or stays as it was. -/
theorem Frame.upd {m : Nat} {r t : State} (h : Frame m r t)
    {regs : List RegCell} {tick : Nat} {tck : TckS} {hif : HifS} {hqi : HqiS} {vols : Vector VolS 8} {asy : AsyS}
    {heads : Vector HeadS 32} {decks : Vector DeckS 8} {chans : Vector ChanS 128} {lanes : Vector LaneS 256} {mem : MemS}
    {cfg : CfgS} {trl : TrlS} {cal : CalS} {pwr : PwrS} {free : Nat} {out : List Output}
    (hregs : regs = t.regs)
    (htick : tick = t.tick ∨ (m.testBit 1 = true ∧ tick < 2 ^ 48))
    (htck : tck = t.tck ∨ m.testBit 2 = true) (hhif : hif = t.hif ∨ m.testBit 3 = true)
    (hhqi : hqi = t.hqi ∨ m.testBit 4 = true) (hvols : vols = t.vols ∨ m.testBit 5 = true)
    (hasy : asy = t.asy ∨ m.testBit 6 = true) (hheads : heads = t.heads ∨ m.testBit 7 = true)
    (hdecks : decks = t.decks ∨ m.testBit 8 = true) (hchans : chans = t.chans ∨ m.testBit 9 = true)
    (hlanes : lanes = t.lanes ∨ m.testBit 10 = true)
    (hmem : mem = t.mem ∨ (m.testBit 11 = true ∧ mem.dram = t.mem.dram ∧ mem.chk = t.mem.chk))
    (hcfg : cfg = t.cfg ∨ m.testBit 12 = true) (htrl : trl = t.trl ∨ m.testBit 13 = true)
    (hcal : cal = t.cal ∨ m.testBit 14 = true) (hpwr : pwr = t.pwr ∨ m.testBit 15 = true)
    (hfree : free = t.free ∨ (m.testBit 16 = true ∧ free = t.free + 1)) (hout : out = t.out ∨ m.testBit 17 = true) :
    Frame m r (State.mk regs tick tck hif hqi vols asy heads decks chans lanes mem cfg trl cal pwr t.tap free out t.pending) := by
  refine Frame.step (w := m) ?_ h (by simp [subMask])
  subst hregs
  constructor
  case reg => intro f i _ _; rfl
  case regs => exact id
  case tick => exact htick.elim .inr fun x => .inl x.1
  case tickLt => intro x; exact htick.elim (fun e => by simpa [e] using x) fun e => e.2
  case tck => exact htck.symm
  case hif => exact hhif.elim (fun e => .inr ⟨_, by rw [e]⟩) .inl
  case hqi => exact hhqi.symm
  case vols => exact hvols.symm
  case asy => exact hasy.symm
  case heads => exact hheads.symm
  case decks => exact hdecks.symm
  case chans => exact hchans.symm
  case lanes => exact hlanes.symm
  case mem => exact hmem.elim .inr fun x => .inl x.1
  case memWf =>
    intro x
    rcases hmem with e | e
    · simpa [e] using x
    · exact ⟨by simpa [e.2.1] using x.1, by simpa [e.2.2] using x.2⟩
  case cfg => exact hcfg.symm
  case trl => exact htrl.symm
  case cal => exact hcal.symm
  case pwr => exact hpwr.symm
  case dram =>
    rcases hmem with e | e
    · exact .inr ⟨by rw [e], by rw [e]⟩
    · exact .inr e.2
  case free => exact hfree.elim .inr fun x => .inl x.1
  case freeLe => exact hfree.elim (fun e => by simp [e]) fun e => by simp [e.2]
  case out => exact hout.symm
  case pending => rfl
  case tap => rfl

/-- A register write. -/
theorem Frame.setF {m : Nat} {r s : State} (h : Frame m r s) {f : Field} (hf : m.testBit f.id = true) (i v : Nat) :
    Frame m r (s.setF f i v) := by
  refine Frame.step (w := m) ?_ h (by simp [subMask])
  refine { Frame.refl m s with reg := ?_, regs := ?_ }
  · intro g j _ hg
    apply regGet_regSet_ne
    intro e
    rw [← e.1, hf] at hg
    exact Bool.noConfusion hg
  · exact regsWf_regSet _ _ _

theorem Frame.setB {m : Nat} {r s : State} (h : Frame m r s) {f : Field} (hf : m.testBit f.id = true) (i : Nat) (b : Bool) :
    Frame m r (s.setB f i b) := h.setF hf i _

theorem Frame.putF {m : Nat} {r s : State} (h : Frame m r s) {f : Field} (hf : m.testBit f.id = true) (i b : Nat) (v : Bool) :
    Frame m r (s.putF f i b v) := h.setF hf i _

theorem Frame.addSat {m : Nat} {r s : State} (h : Frame m r s) {f : Field} (hf : m.testBit f.id = true) (i n : Nat) :
    Frame m r (s.addSat f i n) := h.setF hf i _

theorem Frame.count {m : Nat} {r s : State} (h : Frame m r s) {f : Field} (hf : m.testBit f.id = true) (i : Nat) :
    Frame m r (s.count f i) := h.setF hf i _

theorem Frame.keepMax {m : Nat} {r s : State} (h : Frame m r s) {f : Field} (hf : m.testBit f.id = true) (i v : Nat) :
    Frame m r (s.keepMax f i v) := h.setF hf i _

theorem Frame.emit {m : Nat} {r s : State} (h : Frame m r s) (ho : m.testBit 17 = true) (o : Output) : Frame m r (s.emit o) := by
  refine Frame.step (w := m) ?_ h (by simp [subMask])
  exact { Frame.refl m s with out := .inl ho }

theorem Frame.bump {m : Nat} {r s : State} (h : Frame m r s) (ho : m.testBit 16 = true) : Frame m r s.bump := by
  refine Frame.step (w := m) ?_ h (by simp [subMask])
  exact { Frame.refl m s with free := .inl ho, freeLe := Nat.le_succ _ }

/-- Cells whose fields the mask names are dropped. -/
theorem Frame.dropRegs {m : Nat} {r s : State} (h : Frame m r s) (p : RegCell → Bool)
    (hp : ∀ c : RegCell, c.fld.id < 20000 → m.testBit c.fld.id = false → p c = true) : Frame m r { s with regs := s.regs.filter p } := by
  refine Frame.step (w := m) ?_ h (by simp [subMask])
  refine { Frame.refl m s with reg := ?_, regs := ?_ }
  · intro f i hl hf
    apply regGet_filter
    intro c _ hc
    exact hp c (by rw [hc.1]; exact hl) (by rw [hc.1]; exact hf)
  · exact regsWf_filter p

theorem Frame.ite {m : Nat} {r a b : State} {c : Prop} [Decidable c] (ha : Frame m r a) (hb : Frame m r b) :
    Frame m r (if c then a else b) := by split <;> assumption

theorem Frame.onlyIf {m : Nat} {r s : State} {c : Bool} {f : State → State} (h : Frame m r s)
    (hf : ∀ t, Frame m r t → Frame m r (f t)) : Frame m r (s.onlyIf c f) := by
  unfold State.onlyIf
  split
  · exact hf _ h
  · exact h

theorem Frame.foldl {m : Nat} {r s : State} {α : Type} {l : List α} {f : State → α → State} (h : Frame m r s)
    (hf : ∀ t x, Frame m r t → Frame m r (f t x)) : Frame m r (l.foldl f s) := by
  induction l generalizing s with
  | nil => exact h
  | cons x l ih => exact ih (hf _ _ h)

theorem Frame.forEach {m : Nat} {r s : State} {α : Type} {l : List α} {f : State → α → State} (h : Frame m r s)
    (hf : ∀ t x, Frame m r t → Frame m r (f t x)) : Frame m r (s.forEach l f) := h.foldl hf

/-- The same where the elements of the list matter. -/
theorem Frame.forEachMem {m : Nat} {r s : State} {α : Type} {l : List α} {f : State → α → State} (h : Frame m r s)
    (hf : ∀ t, ∀ x ∈ l, Frame m r t → Frame m r (f t x)) : Frame m r (s.forEach l f) := by
  unfold State.forEach
  induction l generalizing s with
  | nil => exact h
  | cons x l ih => exact ih (hf _ _ (by simp) h) fun t y hy => hf t y (by simp [hy])

theorem Frame.foldl1 {m : Nat} {r : State} {α β : Type} {p : State × β} {l : List α} {f : State × β → α → State × β}
    (h : Frame m r p.1) (hf : ∀ q x, Frame m r q.1 → Frame m r (f q x).1) : Frame m r (l.foldl f p).1 := by
  induction l generalizing p with
  | nil => exact h
  | cons x l ih => exact ih (hf _ _ h)

/-- One branch of a chain of conditions that answers an option. -/
theorem Frame.iteSome {m : Nat} {r t u : State} {c : Prop} [Decidable c] {o : Option State} (ht : Frame m r t)
    (ho : o = some u → Frame m r u) : (if c then some t else o) = some u → Frame m r u := by
  intro e
  split at e
  · cases e; exact ht
  · exact ho e

theorem Frame.getD {m : Nat} {r d : State} {o : Option State} (ho : ∀ t, o = some t → Frame m r t) (hd : Frame m r d) :
    Frame m r (o.getD d) := by
  cases o with
  | none => exact hd
  | some t => exact ho t rfl

theorem Frame.ofPair {m : Nat} {r t : State} {β : Type} {x : β} {p : State × β} (e : p = (t, x)) (h : Frame m r p.1) :
    Frame m r t := by rw [e] at h; exact h

end Sys2Proof.Laws
end

