-- ==== Sys2Proof/Laws/FrameOps.lean ====
section
/-!
SUPPORT. Masks by fields, events and registers, and the frames of the outermost operations: settling, `effect` and `done`.
-/
namespace Sys2Proof.Laws

open Sys2Proof.Machine

/-- The mask of some fields. -/
def fm (l : List Field) : Nat := l.foldl (fun m f => m ||| 2 ^ f.id) 0

/-- The mask of some events: their bits and the marks of forced bits. -/
def em (l : List Event) : Nat := l.foldl (fun m e => m ||| 2 ^ e.fld.id ||| 2 ^ e.reg.forced.id) 0

/-- The mask of some registers. -/
def rm (l : List RegDef) : Nat := l.foldl (fun m r => m ||| fm (r.fields.map (·.fld))) 0

/-- A mask names an event. -/
def evIn (m : Nat) (e : Event) : Bool := m.testBit e.fld.id && m.testBit e.reg.forced.id

/-- A mask names every field of a register. -/
def regIn (m : Nat) (r : RegDef) : Bool := r.fields.all fun f => m.testBit f.fld.id

theorem evIn_sub {a b : Nat} {e : Event} (h : subMask a b = true) (k : evIn a e = true) : evIn b e = true := by
  have x := Bool.and_eq_true_iff.1 k
  exact Bool.and_eq_true_iff.2 ⟨subMask_testBit h x.1, subMask_testBit h x.2⟩

theorem regIn_sub {a b : Nat} {r : RegDef} (h : subMask a b = true) (k : regIn a r = true) : regIn b r = true := by
  have x := List.all_eq_true.1 k
  exact List.all_eq_true.2 fun f hf => subMask_testBit h (x f hf)

theorem or_sub {a b c : Nat} (h : subMask a c = true) (k : subMask b c = true) : subMask (a ||| b) c = true := by
  have e1 : a ||| c = c := by simpa [subMask] using h
  have e2 : b ||| c = c := by simpa [subMask] using k
  have : a ||| b ||| c = c := by rw [Nat.or_assoc, e2, e1]
  simpa [subMask] using this

theorem sub_orl {a b c : Nat} (h : subMask a b = true) : subMask a (b ||| c) = true := by
  have e1 : a ||| b = b := by simpa [subMask] using h
  have : a ||| (b ||| c) = b ||| c := by rw [← Nat.or_assoc, e1]
  simpa [subMask] using this

theorem bit_orl {b c k : Nat} (h : b.testBit k = true) : (b ||| c).testBit k = true := by simp [Nat.testBit_or, h]

theorem bit_orr {b c k : Nat} (h : c.testBit k = true) : (b ||| c).testBit k = true := by simp [Nat.testBit_or, h]

theorem evIn_orl {b c : Nat} {e : Event} (h : evIn b e = true) : evIn (b ||| c) e = true := by
  have x := Bool.and_eq_true_iff.1 h
  exact Bool.and_eq_true_iff.2 ⟨bit_orl x.1, bit_orl x.2⟩

theorem evIn_self (b : Nat) (e : Event) : evIn (b ||| em [e]) e = true := by
  simp [evIn, em, Nat.testBit_or, Nat.testBit_two_pow_self]

theorem bit_self (b k : Nat) : (b ||| 2 ^ k).testBit k = true := by
  simp [Nat.testBit_or, Nat.testBit_two_pow_self]

theorem pow_sub {k m : Nat} (h : m.testBit k = true) : subMask (2 ^ k) m = true := by
  have : 2 ^ k ||| m = m := by
    apply Nat.eq_of_testBit_eq
    intro i
    rw [Nat.testBit_or, Nat.testBit_two_pow]
    by_cases e : k = i
    · subst e; simp [h]
    · simp [e]
  simpa [subMask] using this

theorem em_sub {m : Nat} {e : Event} (h : evIn m e = true) : subMask (em [e]) m = true := by
  have x := Bool.and_eq_true_iff.1 h
  have : em [e] = 2 ^ e.fld.id ||| 2 ^ e.reg.forced.id := by simp [em]
  rw [this]
  exact or_sub (pow_sub x.1) (pow_sub x.2)

/-- A command's outcome is a next state, in a frame. -/
def FrameN (m : Nat) (s : State) (o : Out) : Prop := ∃ t, o = .next t ∧ Frame m s t

/-- A command's outcome, when it is a next state, is in a frame. -/
def FrameX (m : Nat) (s : State) (o : Out) : Prop := ∀ t, o = .next t → Frame m s t

theorem FrameN.toX {m : Nat} {s : State} {o : Out} (h : FrameN m s o) : FrameX m s o := by
  obtain ⟨t, e, ht⟩ := h
  intro u hu
  rw [e] at hu
  cases hu
  exact ht

def W.outward : Nat := 2 ^ 17

def W.setPf : Nat := 2 ^ 3

theorem setPf_frame (s : State) (fn : Nat) (p : PfS) : Frame W.setPf s (s.setPf fn p) := by
  unfold State.setPf
  split
  · exact { Frame.refl W.setPf s with hif := .inl (by decide) }
  · exact { Frame.refl W.setPf s with hif := .inl (by decide) }

def W.signal : Nat := 2 ^ 3 ||| W.outward

theorem signal1_frame (s : State) (v : Nat) : Frame W.outward s (s.signal 1 v) := by
  unfold State.signal
  split
  · exact Frame.refl _ _
  · split
    · exact (Frame.refl _ _).emit (by decide) _
    · exact { Frame.refl W.outward s with hif := .inr ⟨_, rfl⟩ }

theorem signal_frame (s : State) (fn v : Nat) : Frame W.signal s (s.signal fn v) := by
  unfold State.signal
  split
  · exact Frame.refl _ _
  · split
    · exact (Frame.refl _ _).emit (by decide) _
    · exact (setPf_frame ..).mono (by decide)

def W.settle : Nat := W.outward

theorem settle_frame (before after : State) : Frame W.outward after (State.settle before after) :=
  (Frame.refl _ _).forEach fun _ _ h => (signal1_frame ..).step h (by decide)

/-- Settling changes no register. -/
theorem settle_regs (before after : State) : (State.settle before after).regs = after.regs := by
  have h : ∀ (l : List Nat) (s : State), (s.forEach l fun t v => t.signal 1 v).regs = s.regs := by
    intro l
    induction l with
    | nil => intro s; rfl
    | cons v l ih =>
      intro s
      have e : (s.signal 1 v).regs = s.regs := by
        unfold State.signal State.emit State.setPf
        repeat' split
        all_goals rfl
      exact (ih _).trans e
  exact h _ _

theorem effect_fr {m : Nat} {s : State} {f : State → State} (hm : subMask W.outward m = true)
    (hf : ∀ t, Frame m s t → Frame m s (f t)) : FrameN m s (effect s f) := by
  have h0 : Frame m s { s with out := [] } := { Frame.refl m s with out := .inl (subMask_testBit hm (by decide)) }
  exact ⟨_, rfl, (settle_frame _ _).step (hf _ h0) hm⟩

theorem done_fr {m : Nat} {s : State} {f : State → State} (hm : subMask W.outward m = true)
    (hf : ∀ t, Frame m s t → Frame m s (f t)) : FrameN m s (done s f) := by
  refine effect_fr hm fun t ht => ?_
  split
  · exact hf t ht
  · exact ht

end Sys2Proof.Laws
end

