-- ==== Sys2Proof/Laws/FrFlags.lean ====
section
/-!
SUPPORT. Frames of the operations of Machine/Flags.lean: one law per operation, with the mask of what it may change.
-/
set_option Elab.async false
set_option linter.unusedTactic false
set_option linter.unreachableTactic false

namespace Sys2Proof.Laws

open Sys2Proof.Machine

def W.raise : Nat := 0

theorem raise_fr {m : Nat} {r s : State} (h : Frame m r s) {e : Event} (he : evIn m e = true) (i : Nat) : Frame m r (s.raise e i) := by
  have x := Bool.and_eq_true_iff.1 he
  exact (h.setB x.1 i true).putF x.2 i e.bit false

def W.raiseLnk : Nat := fm [F.LNK_EVT_HEADS_HEAD]

theorem raiseLnk_fr {m : Nat} {r s : State} (h : Frame m r s) {e : Event} (he : evIn m e = true) (hf : m.testBit F.LNK_EVT_HEADS_HEAD.id = true) (i : Nat) :
    Frame m r (s.raiseLnk e i) := (raise_fr h he _).putF hf ..

def W.raiseSld : Nat := fm [F.SLD_EVT_AXES_AXIS]

theorem raiseSld_fr {m : Nat} {r s : State} (h : Frame m r s) {e : Event} (he : evIn m e = true) (hf : m.testBit F.SLD_EVT_AXES_AXIS.id = true) (i : Nat) :
    Frame m r (s.raiseSld e i) := (raise_fr h he _).putF hf ..

def W.raiseChn : Nat := fm [F.CHN_EVT_CHANS_CHAN]

theorem raiseChn_fr {m : Nat} {r s : State} (h : Frame m r s) {e : Event} (he : evIn m e = true) (hf : m.testBit F.CHN_EVT_CHANS_CHAN.id = true) (i : Nat) :
    Frame m r (s.raiseChn e i) := (raise_fr h he _).putF hf ..

def W.raiseTckHead : Nat := fm [F.TCK_OVR_HEADS_HEAD]

theorem raiseTckHead_fr {m : Nat} {r s : State} (h : Frame m r s) {e : Event} (he : evIn m e = true) (hf : m.testBit F.TCK_OVR_HEADS_HEAD.id = true) (i : Nat) :
    Frame m r (s.raiseTckHead e i) := (raise_fr h he _).putF hf ..

def W.raiseTckDeck : Nat := fm [F.TCK_OVR_DECKS_DECK]

theorem raiseTckDeck_fr {m : Nat} {r s : State} (h : Frame m r s) {e : Event} (he : evIn m e = true) (hf : m.testBit F.TCK_OVR_DECKS_DECK.id = true) (i : Nat) :
    Frame m r (s.raiseTckDeck e i) := (raise_fr h he _).putF hf ..

/-- (given) -/
theorem setPf_given : True := trivial

def W.refuseRead : Nat := 2 ^ 17

theorem refuseRead_frame (s : State) : Frame W.refuseRead s (State.refuseRead s) := by
  unfold State.refuseRead
  repeat' first
    | with_reducible assumption
    | with_reducible exact Frame.refl _ _
    | decide +kernel
    | with_reducible apply Frame.emit
    | with_reducible apply Frame.ite
    | split
    | (dsimp only; split)

/-- (given) -/
theorem signal_given : True := trivial

def W.flushPba : Nat := 2 ^ 17 ||| W.setPf

theorem flushPba_frame (s : State) (fn : Nat) : Frame W.flushPba s (State.flushPba s fn) := by
  unfold State.flushPba
  repeat' first
    | with_reducible assumption
    | with_reducible exact Frame.refl _ _
    | (intro _ _ _)
    | (intro _ _)
    | decide +kernel
    | (with_reducible apply Frame.forEach; rotate_left; intro _ _ _)
    | with_reducible apply Frame.emit
    | with_reducible apply Frame.step (setPf_frame ..)
    | with_reducible apply Frame.ite
    | split
    | (dsimp only; split)

def W.resetSource : Nat := fm [F.PWR_RESET_CAUSE_LAST]

theorem resetSource_fr {m : Nat} {r s : State} (h : Frame m r s) {f : Field} (hf : m.testBit f.id = true) (hl : m.testBit F.PWR_RESET_CAUSE_LAST.id = true) (b : Nat) :
    Frame m r (s.resetSource f b) := (h.setB hf ..).setF hl ..

/-- (given) -/
theorem settle_given : True := trivial

end Sys2Proof.Laws
end

