-- ==== Sys2Proof/Laws/FrBlocks.lean ====
section
/-!
SUPPORT. Frames of the operations of Machine/Blocks.lean: one law per operation, with the mask of what it may change.
-/
set_option Elab.async false
set_option linter.unusedTactic false
set_option linter.unreachableTactic false

namespace Sys2Proof.Laws

open Sys2Proof.Machine

def W.sendBlock : Nat := 2 ^ 17

theorem sendBlock_frame (s : State) (h j payload : Nat) : Frame W.sendBlock s (State.sendBlock s h j payload) := by
  unfold State.sendBlock
  repeat' first
    | with_reducible assumption
    | with_reducible exact Frame.refl _ _
    | (intro _ _ _)
    | (intro _ _)
    | decide +kernel
    | (with_reducible apply Frame.onlyIf; rotate_left; intro _ _)
    | with_reducible apply Frame.emit

end Sys2Proof.Laws
end

