-- ==== Sys2Proof/Laws/FrTables.lean ====
section
/-!
SUPPORT. Frames of the operations of Machine/Tables.lean: one law per operation, with the mask of what it may change.
-/
set_option Elab.async false
set_option linter.unusedTactic false
set_option linter.unreachableTactic false

namespace Sys2Proof.Laws

open Sys2Proof.Machine

def W.correctedErr : Nat := fm [F.MEM_CE_STATUS_LEVEL, F.MEM_CE_STATUS_OVERFLOWS, F.MEM_CE_TOTAL_COUNT] ||| em
    [E.MEM_CE_OVERFLOW]

theorem correctedErr_frame (s : State) (x : Nat) : Frame W.correctedErr s (State.correctedErr s x) := by
  unfold State.correctedErr
  repeat' first
    | with_reducible assumption
    | with_reducible exact Frame.refl _ _
    | (intro _ _ _)
    | (intro _ _)
    | decide +kernel
    | with_reducible apply Frame.count
    | with_reducible apply Frame.setF
    | with_reducible apply raise_fr
    | with_reducible apply Frame.ite
    | with_reducible refine Frame.ofPair (by assumption) ?_
    | split
    | (dsimp only; split)

def W.uncorrectable : Nat := fm [F.MEM_UE_ADDR_ADDR, F.MEM_UE_LOG_CLASS, F.MEM_UE_LOG_COUNT, F.MEM_UE_LOG_POISON,
    F.MEM_UE_LOG_SOURCE, F.MEM_UE_LOG_VALID] ||| em [E.MEM_DRAM_UE, E.MEM_SRAM_UE]

theorem uncorrectable_frame (s : State) (cls : Nat) (poison : Bool) (src addr : Nat) : Frame W.uncorrectable s
    (State.uncorrectable s cls poison src addr) := by
  unfold State.uncorrectable
  repeat' first
    | with_reducible assumption
    | with_reducible exact Frame.refl _ _
    | (intro _ _ _)
    | (intro _ _)
    | decide +kernel
    | with_reducible apply Frame.count
    | with_reducible apply Frame.setB
    | with_reducible apply Frame.setF
    | with_reducible apply raise_fr
    | with_reducible apply Frame.ite
    | with_reducible refine Frame.ofPair (by assumption) ?_
    | split
    | (dsimp only; split)

def W.storeBits : Nat := 0

theorem storeBits_fr {m : Nat} {r s : State} (h : Frame m r s) {d : RegDef} (hd : regIn m d = true) (i w : Nat) (all : Bool) : Frame m r (s.storeBits d i w all) := by
  unfold State.storeBits
  have hl : ∀ x ∈ d.fields, m.testBit x.fld.id = true := fun x hx => (List.all_eq_true.1 hd) x hx
  refine Frame.forEachMem (l := d.fields) h ?_
  intro t x hx ht
  split
  · exact ht.setF (hl x hx) ..
  · exact ht

def W.goodCheck : Nat := 2 ^ 11

theorem goodCheck_frame (s : State) (a : Nat) : Frame W.goodCheck s (State.goodCheck s a) := by
  unfold State.goodCheck
  repeat' first
    | with_reducible assumption
    | with_reducible exact Frame.refl _ _
    | (intro _ _ _)
    | (intro _ _)
    | decide +kernel
    | (with_reducible refine Frame.upd ?_ rfl ?_ ?_ ?_ ?_ ?_ ?_ ?_ ?_ ?_ ?_ ?_ ?_ ?_ ?_ ?_ ?_ ?_ <;>
        first | with_reducible exact Or.inl rfl | with_reducible exact Or.inr ⟨by decide +kernel, Nat.mod_lt _ (Nat.two_pow_pos 48)⟩ |
          exact Or.inr ⟨by decide +kernel, rfl, rfl⟩ | exact Or.inr ⟨by decide +kernel, rfl⟩ |
          exact Or.inr (by decide +kernel) | skip)

def W.putEntry : Nat := W.goodCheck

theorem putEntry_fr {m : Nat} {r s : State} (h : Frame m r s) {d : RegDef} (hd : regIn m d = true) (hm : subMask W.goodCheck m = true) (i w : Nat) :
    Frame m r (s.putEntry d i w) := (goodCheck_frame ..).step (storeBits_fr h hd ..) hm

def W.readEntry : Nat := W.correctedErr ||| W.goodCheck ||| W.uncorrectable

theorem readEntry_fr {m : Nat} {r s : State} (h : Frame m r s) {d : RegDef} (hd : regIn m d = true) (hm : subMask W.readEntry m = true) (i : Nat) :
    Frame m r (s.readEntry d i).1 := by
  have h1 : subMask W.goodCheck m = true := subMask_trans (by decide +kernel) hm
  have h2 : subMask W.correctedErr m = true := subMask_trans (by decide +kernel) hm
  have h3 : subMask W.uncorrectable m = true := subMask_trans (by decide +kernel) hm
  unfold State.readEntry
  dsimp only
  split
  · exact h
  · split
    · exact h
    · split
      · exact h
      · exact (correctedErr_frame ..).step (putEntry_fr h hd h1 ..) h2
      · exact (uncorrectable_frame ..).step h h3

def W.readEntryFree : Nat := 2 ^ 16 ||| W.readEntry

theorem readEntryFree_fr {m : Nat} {r s : State} (h : Frame m r s) {d : RegDef} (hd : regIn m d = true) (hm : subMask W.readEntryFree m = true) (i : Nat) :
    Frame m r (s.readEntryFree d i).1 := by
  have x := readEntry_fr h hd (subMask_trans (by decide +kernel) hm) i
  unfold State.readEntryFree
  split
  · exact Frame.ofPair (by assumption) x
  · exact Frame.bump (Frame.ofPair (by assumption) x) (subMask_testBit hm (by decide +kernel))

def W.readField : Nat := W.readEntryFree

theorem readField_fr {m : Nat} {r s : State} (h : Frame m r s) {d : RegDef} (hd : regIn m d = true) (hm : subMask W.readEntryFree m = true) (i : Nat) (f : FieldAt) :
    Frame m r (s.readField d i f).1 := readEntryFree_fr h hd hm i

def W.raiseHeads : Nat := 0

theorem raiseHeads_fr {m : Nat} {r s : State} (h : Frame m r s) {e : Event} (he : evIn m e = true) (p : Nat → Bool) : Frame m r (s.raiseHeads e p) :=
  h.forEach fun _ _ ht => raise_fr ht he _

def W.tableReject : Nat := em [E.CHN_CFG_REJECT, E.CLR_CFG_REJECT, E.LRN_CFG_REJECT, E.WRP_CFG_REJECT] ||| fm
    [F.CHN_EVT_CHANS_CHAN]

theorem tableReject_frame (s : State) (r : RegDef) (i : Nat) : Frame W.tableReject s (State.tableReject s r i) := by
  unfold State.tableReject
  repeat' first
    | with_reducible assumption
    | with_reducible exact Frame.refl _ _
    | (intro _ _ _)
    | (intro _ _)
    | decide +kernel
    | with_reducible apply raiseChn_fr
    | with_reducible apply raiseHeads_fr
    | with_reducible apply raise_fr
    | with_reducible apply Frame.ite
    | with_reducible refine Frame.ofPair (by assumption) ?_
    | split
    | (dsimp only; split)

def W.logReject : Nat := fm [F.MEM_PWD_ADDR_ADDR, F.MEM_PWD_LOG_COUNT, F.MEM_PWD_LOG_KIND]

theorem logReject_frame (s : State) (kind a : Nat) : Frame W.logReject s (State.logReject s kind a) := by
  unfold State.logReject
  repeat' first
    | with_reducible assumption
    | with_reducible exact Frame.refl _ _
    | decide +kernel
    | with_reducible apply Frame.count
    | with_reducible apply Frame.setF

def W.narrow : Nat := em [E.MEM_NARROW_REJECT] ||| W.logReject ||| W.tableReject

theorem narrow_frame (s : State) (a : Nat) : Frame W.narrow s (State.narrow s a) := by
  unfold State.narrow
  repeat' first
    | with_reducible assumption
    | with_reducible exact Frame.refl _ _
    | (intro _ _ _)
    | (intro _ _)
    | decide +kernel
    | exact regIn_table (by assumption) (by decide +kernel)
    | with_reducible apply Frame.step (logReject_frame ..)
    | with_reducible apply Frame.step (tableReject_frame ..)
    | with_reducible apply raise_fr
    | with_reducible refine Frame.ofPair (by assumption) ?_
    | split
    | (dsimp only; split)

def W.flushAsm : Nat := 2 ^ 11 ||| W.narrow

theorem flushAsm_frame (s : State) : Frame W.flushAsm s (State.flushAsm s) := by
  unfold State.flushAsm
  repeat' first
    | with_reducible assumption
    | with_reducible exact Frame.refl _ _
    | decide +kernel
    | with_reducible apply Frame.step (narrow_frame ..)
    | split
    | (dsimp only; split)
    | (with_reducible refine Frame.upd ?_ rfl ?_ ?_ ?_ ?_ ?_ ?_ ?_ ?_ ?_ ?_ ?_ ?_ ?_ ?_ ?_ ?_ ?_ <;>
        first | with_reducible exact Or.inl rfl | with_reducible exact Or.inr ⟨by decide +kernel, Nat.mod_lt _ (Nat.two_pow_pos 48)⟩ |
          exact Or.inr ⟨by decide +kernel, rfl, rfl⟩ | exact Or.inr ⟨by decide +kernel, rfl⟩ |
          exact Or.inr (by decide +kernel) | skip)

end Sys2Proof.Laws
end

