-- ==== Sys2Proof/Laws/FrDram.lean ====
section
/-!
SUPPORT. Frames of the operations of Machine/Dram.lean: one law per operation, with the mask of what it may change.
-/
set_option Elab.async false
set_option linter.unusedTactic false
set_option linter.unreachableTactic false

namespace Sys2Proof.Laws

open Sys2Proof.Machine

def W.putBurst : Nat := 2 ^ 11 ||| 2 ^ 18

theorem putBurst_frame (s : State) (n : Nat) (data diff : List Nat) : Frame W.putBurst s (s.putBurst n data diff) :=
  { Frame.refl W.putBurst s with
    mem := .inl (by decide +kernel)
    dram := .inl (by decide +kernel)
    memWf := fun h => ⟨memoryWf_memWrite _ _ h.1, memoryWf_memWrite _ _ h.2⟩ }

def W.putLine : Nat := W.putBurst

theorem putLine_frame (s : State) (n : Nat) (data : List Nat) : Frame W.putLine s (State.putLine s n data) := by
  unfold State.putLine
  repeat' first
    | with_reducible assumption
    | with_reducible exact Frame.refl _ _
    | decide +kernel
    | with_reducible apply Frame.step (putBurst_frame ..)

def W.putPoison : Nat := W.putBurst

theorem putPoison_frame (s : State) (n : Nat) (data : List Nat) : Frame W.putPoison s (State.putPoison s n data) := by
  unfold State.putPoison
  repeat' first
    | with_reducible assumption
    | with_reducible exact Frame.refl _ _
    | decide +kernel
    | with_reducible apply Frame.step (putBurst_frame ..)

def W.readLine : Nat := W.correctedErr ||| W.uncorrectable

theorem readLine_frame (s : State) (src n : Nat) : Frame W.readLine s (State.readLine s src n).1 := by
  unfold State.readLine
  repeat' first
    | with_reducible assumption
    | with_reducible exact Frame.refl _ _
    | decide +kernel
    | with_reducible apply Frame.step (correctedErr_frame ..)
    | with_reducible apply Frame.step (uncorrectable_frame ..)
    | split
    | (dsimp only; split)

end Sys2Proof.Laws
end

