-- ==== Sys2Proof/Laws/FrCache.lean ====
section
/-!
SUPPORT. Frames of the operations of Machine/Cache.lean: one law per operation, with the mask of what it may change.
-/
set_option Elab.async false
set_option linter.unusedTactic false
set_option linter.unreachableTactic false

namespace Sys2Proof.Laws

open Sys2Proof.Machine

def W.updLca : Nat := 2 ^ 11

theorem updLca_frame (s : State) (f : LcaS → LcaS) : Frame W.updLca s (State.updLca s f) := by
  unfold State.updLca
  repeat' first
    | with_reducible assumption
    | with_reducible exact Frame.refl _ _
    | decide +kernel
    | (with_reducible refine Frame.upd ?_ rfl ?_ ?_ ?_ ?_ ?_ ?_ ?_ ?_ ?_ ?_ ?_ ?_ ?_ ?_ ?_ ?_ ?_ <;>
        first | with_reducible exact Or.inl rfl | with_reducible exact Or.inr ⟨by decide +kernel, Nat.mod_lt _ (Nat.two_pow_pos 48)⟩ |
          exact Or.inr ⟨by decide +kernel, rfl, rfl⟩ | exact Or.inr ⟨by decide +kernel, rfl⟩ |
          exact Or.inr (by decide +kernel) | skip)

def W.setCache : Nat := W.updLca

theorem setCache_frame (s : State) (l : List CacheLine) : Frame W.setCache s (State.setCache s l) := by
  unfold State.setCache
  repeat' first
    | with_reducible assumption
    | with_reducible exact Frame.refl _ _
    | (intro _ _ _)
    | (intro _ _)
    | decide +kernel
    | with_reducible apply Frame.step (updLca_frame ..)

def W.dropLine : Nat := W.setCache

theorem dropLine_frame (s : State) (w set : Nat) : Frame W.dropLine s (State.dropLine s w set) := by
  unfold State.dropLine
  repeat' first
    | with_reducible assumption
    | with_reducible exact Frame.refl _ _
    | (intro _ _ _)
    | (intro _ _)
    | decide +kernel
    | with_reducible apply Frame.step (setCache_frame ..)

def W.installLine : Nat := W.dropLine ||| W.setCache

theorem installLine_frame (s : State) (l : CacheLine) : Frame W.installLine s (State.installLine s l) := by
  unfold State.installLine
  repeat' first
    | with_reducible assumption
    | with_reducible exact Frame.refl _ _
    | (intro _ _ _)
    | (intro _ _)
    | decide +kernel
    | with_reducible apply Frame.step (dropLine_frame ..)
    | with_reducible apply Frame.step (setCache_frame ..)

def W.writeBack : Nat := em [E.LCA_POISON_WB] ||| W.putLine ||| W.putPoison

theorem writeBack_frame (s : State) (l : CacheLine) (x : CacheErr) : Frame W.writeBack s (State.writeBack s l x) := by
  unfold State.writeBack
  repeat' first
    | with_reducible assumption
    | with_reducible exact Frame.refl _ _
    | decide +kernel
    | with_reducible apply Frame.step (putLine_frame ..)
    | with_reducible apply Frame.step (putPoison_frame ..)
    | with_reducible apply raise_fr
    | with_reducible apply Frame.ite
    | with_reducible refine Frame.ofPair (by assumption) ?_
    | split
    | (dsimp only; split)

def W.cleanLine : Nat := W.installLine ||| W.writeBack

theorem cleanLine_frame (s : State) (l : CacheLine) (x : CacheErr) : Frame W.cleanLine s (State.cleanLine s l x) := by
  unfold State.cleanLine
  repeat' first
    | with_reducible assumption
    | with_reducible exact Frame.refl _ _
    | decide +kernel
    | with_reducible apply Frame.step (installLine_frame ..)
    | with_reducible apply Frame.step (writeBack_frame ..)

def W.evict : Nat := W.dropLine ||| W.writeBack

theorem evict_frame (s : State) (l : CacheLine) (x : CacheErr) : Frame W.evict s (State.evict s l x) := by
  unfold State.evict
  repeat' first
    | with_reducible assumption
    | with_reducible exact Frame.refl _ _
    | decide +kernel
    | with_reducible apply Frame.step (dropLine_frame ..)
    | with_reducible apply Frame.step (writeBack_frame ..)

def W.ageSet : Nat := W.installLine

theorem ageSet_frame (s : State) (ws : List Nat) (set : Nat) : Frame W.ageSet s (State.ageSet s ws set) := by
  unfold State.ageSet
  repeat' first
    | with_reducible assumption
    | with_reducible exact Frame.refl _ _
    | (intro _ _ _)
    | (intro _ _)
    | decide +kernel
    | (with_reducible apply Frame.forEach; rotate_left; intro _ _ _)
    | with_reducible apply Frame.step (installLine_frame ..)
    | split
    | (dsimp only; split)

def W.makeVictim : Nat := W.ageSet ||| W.evict

theorem makeVictim_frame (s : State) (set : Nat) : Frame W.makeVictim s (State.makeVictim s set).1 := by
  unfold State.makeVictim
  repeat' first
    | with_reducible assumption
    | with_reducible exact Frame.refl _ _
    | (intro _ _ _)
    | (intro _ _)
    | decide +kernel
    | with_reducible apply Frame.step (ageSet_frame ..)
    | with_reducible apply Frame.step (evict_frame ..)
    | split
    | (dsimp only; split)

def W.hit : Nat := fm [F.LCA_HITS_COUNT] ||| W.installLine

theorem hit_frame (s : State) (l : CacheLine) : Frame W.hit s (State.hit s l) := by
  unfold State.hit
  repeat' first
    | with_reducible assumption
    | with_reducible exact Frame.refl _ _
    | decide +kernel
    | with_reducible apply Frame.count
    | with_reducible apply Frame.step (installLine_frame ..)

def W.streamPut : Nat := fm [F.LCA_MISSES_COUNT] ||| W.hit ||| W.installLine ||| W.makeVictim ||| W.putLine

theorem streamPut_frame (s : State) (n : Nat) (data : List Nat) : Frame W.streamPut s (State.streamPut s n data) := by
  unfold State.streamPut
  repeat' first
    | with_reducible assumption
    | with_reducible exact Frame.refl _ _
    | decide +kernel
    | with_reducible apply Frame.count
    | with_reducible apply Frame.step (hit_frame ..)
    | with_reducible apply Frame.step (installLine_frame ..)
    | with_reducible apply Frame.step (makeVictim_frame ..)
    | with_reducible apply Frame.step (putLine_frame ..)
    | with_reducible apply Frame.ite
    | with_reducible refine Frame.ofPair (by assumption) ?_
    | split
    | (dsimp only; split)

def W.readPast : Nat := fm [F.LCA_MISSES_COUNT] ||| W.hit ||| W.readLine

theorem readPast_frame (s : State) (src n : Nat) : Frame W.readPast s (State.readPast s src n).1 := by
  unfold State.readPast
  repeat' first
    | with_reducible assumption
    | with_reducible exact Frame.refl _ _
    | (intro _ _ _)
    | (intro _ _)
    | decide +kernel
    | with_reducible apply Frame.count
    | with_reducible apply Frame.step (hit_frame ..)
    | with_reducible apply Frame.step (readLine_frame ..)
    | with_reducible refine Frame.ofPair (by assumption) ?_
    | split
    | (dsimp only; split)

def W.readRun : Nat := W.readPast

theorem readRun_frame (s : State) (src n k : Nat) : Frame W.readRun s (s.readRun src n k).1 := by
  induction k with
  | zero => exact Frame.refl _ _
  | succ k ih =>
    unfold State.readRun
    exact (readPast_frame ..).step ih (by decide +kernel)

def W.streamRun : Nat := W.streamPut

theorem streamRun_frame (s : State) (n : Nat) (l : List (List Nat)) : Frame W.streamRun s (s.streamRun n l) := by
  induction l generalizing s n with
  | nil => exact Frame.refl _ _
  | cons d ds ih =>
    unfold State.streamRun
    exact (ih _ _).step ((streamPut_frame ..).mono (by decide +kernel)) (by simp [subMask])

def W.putRun : Nat := W.putLine

theorem putRun_frame (s : State) (n : Nat) (l : List (List Nat)) : Frame W.putRun s (s.putRun n l) := by
  induction l generalizing s n with
  | nil => exact Frame.refl _ _
  | cons d ds ih =>
    unfold State.putRun
    refine (ih _ _).step ?_ (by simp [subMask])
    split
    · exact Frame.refl _ _
    · exact (putLine_frame ..).mono (by decide +kernel)

end Sys2Proof.Laws
end

