-- ==== Sys2Proof/Laws/FrEngine.lean ====
section
/-!
SUPPORT. Frames of the operations of Machine/Engine.lean: one law per operation, with the mask of what it may change.
-/
set_option Elab.async false
set_option linter.unusedTactic false
set_option linter.unreachableTactic false

namespace Sys2Proof.Laws

open Sys2Proof.Machine

def W.setPair : Nat := 2 ^ 4

theorem setPair_frame (s : State) (q : Nat) (p : PairS) : Frame W.setPair s (State.setPair s q p) := by
  unfold State.setPair
  repeat' first
    | with_reducible assumption
    | with_reducible exact Frame.refl _ _
    | decide +kernel
    | (with_reducible refine Frame.upd ?_ rfl ?_ ?_ ?_ ?_ ?_ ?_ ?_ ?_ ?_ ?_ ?_ ?_ ?_ ?_ ?_ ?_ ?_ <;>
        first | with_reducible exact Or.inl rfl | with_reducible exact Or.inr ⟨by decide +kernel, Nat.mod_lt _ (Nat.two_pow_pos 48)⟩ |
          exact Or.inr ⟨by decide +kernel, rfl, rfl⟩ | exact Or.inr ⟨by decide +kernel, rfl⟩ |
          exact Or.inr (by decide +kernel) | skip)

def W.setCmds : Nat := 2 ^ 4

theorem setCmds_frame (s : State) (l : List Cmd) : Frame W.setCmds s (State.setCmds s l) := by
  unfold State.setCmds
  repeat' first
    | with_reducible assumption
    | with_reducible exact Frame.refl _ _
    | decide +kernel
    | (with_reducible refine Frame.upd ?_ rfl ?_ ?_ ?_ ?_ ?_ ?_ ?_ ?_ ?_ ?_ ?_ ?_ ?_ ?_ ?_ ?_ ?_ <;>
        first | with_reducible exact Or.inl rfl | with_reducible exact Or.inr ⟨by decide +kernel, Nat.mod_lt _ (Nat.two_pow_pos 48)⟩ |
          exact Or.inr ⟨by decide +kernel, rfl, rfl⟩ | exact Or.inr ⟨by decide +kernel, rfl⟩ |
          exact Or.inr (by decide +kernel) | skip)

def W.updCmd : Nat := W.setCmds

theorem updCmd_frame (s : State) (pos : Nat) (f : Cmd → Cmd) : Frame W.updCmd s (State.updCmd s pos f) := by
  unfold State.updCmd
  repeat' first
    | with_reducible assumption
    | with_reducible exact Frame.refl _ _
    | (intro _ _ _)
    | (intro _ _)
    | decide +kernel
    | with_reducible apply Frame.step (setCmds_frame ..)
    | with_reducible apply Frame.ite
    | split
    | (dsimp only; split)

def W.setVol : Nat := 2 ^ 5

theorem setVol_frame (s : State) (v : Nat) (x : VolS) : Frame W.setVol s (State.setVol s v x) := by
  unfold State.setVol
  repeat' first
    | with_reducible assumption
    | with_reducible exact Frame.refl _ _
    | decide +kernel
    | (with_reducible refine Frame.upd ?_ rfl ?_ ?_ ?_ ?_ ?_ ?_ ?_ ?_ ?_ ?_ ?_ ?_ ?_ ?_ ?_ ?_ ?_ <;>
        first | with_reducible exact Or.inl rfl | with_reducible exact Or.inr ⟨by decide +kernel, Nat.mod_lt _ (Nat.two_pow_pos 48)⟩ |
          exact Or.inr ⟨by decide +kernel, rfl, rfl⟩ | exact Or.inr ⟨by decide +kernel, rfl⟩ |
          exact Or.inr (by decide +kernel) | skip)

def W.setSeam : Nat := W.setVol

theorem setSeam_frame (s : State) (v n : Nat) (x : SeamS) : Frame W.setSeam s (State.setSeam s v n x) := by
  unfold State.setSeam
  repeat' first
    | with_reducible assumption
    | with_reducible exact Frame.refl _ _
    | decide +kernel
    | with_reducible apply Frame.step (setVol_frame ..)

def W.ltrUpdate : Nat := 2 ^ 3 ||| 2 ^ 17

theorem ltrUpdate_frame (s : State) : Frame W.ltrUpdate s (State.ltrUpdate s) := by
  unfold State.ltrUpdate
  repeat' first
    | with_reducible assumption
    | with_reducible exact Frame.refl _ _
    | (intro _ _ _)
    | (intro _ _)
    | decide +kernel
    | with_reducible apply Frame.emit
    | with_reducible apply Frame.ite
    | split
    | (dsimp only; split)
    | (with_reducible refine Frame.upd ?_ rfl ?_ ?_ ?_ ?_ ?_ ?_ ?_ ?_ ?_ ?_ ?_ ?_ ?_ ?_ ?_ ?_ ?_ <;>
        first | with_reducible exact Or.inl rfl | with_reducible exact Or.inr ⟨by decide +kernel, Nat.mod_lt _ (Nat.two_pow_pos 48)⟩ |
          exact Or.inr ⟨by decide +kernel, rfl, rfl⟩ | exact Or.inr ⟨by decide +kernel, rfl⟩ |
          exact Or.inr (by decide +kernel) | skip)

def W.finish : Nat := W.updCmd

theorem finish_frame (s : State) (pos : Nat) (st : Status) (res : Nat) : Frame W.finish s (State.finish s pos st res) := by
  unfold State.finish
  repeat' first
    | with_reducible assumption
    | with_reducible exact Frame.refl _ _
    | (intro _ _ _)
    | (intro _ _)
    | decide +kernel
    | with_reducible apply Frame.step (updCmd_frame ..)

def W.finishAll : Nat := W.setCmds

theorem finishAll_frame (s : State) (p : Cmd → Bool) (st : Status) : Frame W.finishAll s (State.finishAll s p st) := by
  unfold State.finishAll
  repeat' first
    | with_reducible assumption
    | with_reducible exact Frame.refl _ _
    | (intro _ _ _)
    | (intro _ _)
    | decide +kernel
    | with_reducible apply Frame.step (setCmds_frame ..)
    | with_reducible apply Frame.ite
    | split
    | (dsimp only; split)

def W.queueErr : Nat := fm [F.HQI_QP_STATUS_CAUSE, F.HQI_QP_STATUS_ERR] ||| em [E.HQI_QUEUE_ERR]

theorem queueErr_frame (s : State) (q cause : Nat) : Frame W.queueErr s (State.queueErr s q cause) := by
  unfold State.queueErr
  repeat' first
    | with_reducible assumption
    | with_reducible exact Frame.refl _ _
    | decide +kernel
    | with_reducible apply Frame.setB
    | with_reducible apply Frame.setF
    | with_reducible apply raise_fr
    | with_reducible apply Frame.ite
    | with_reducible refine Frame.ofPair (by assumption) ?_
    | split
    | (dsimp only; split)

def W.pairQuiesce : Nat := fm [F.HQI_QP_STATUS_CAUSE, F.HQI_QP_STATUS_ENABLED, F.HQI_QP_STATUS_ERR]

theorem pairQuiesce_frame (s : State) (q : Nat) : Frame W.pairQuiesce s (State.pairQuiesce s q) := by
  unfold State.pairQuiesce
  repeat' first
    | with_reducible assumption
    | with_reducible exact Frame.refl _ _
    | decide +kernel
    | with_reducible apply Frame.setB
    | with_reducible apply Frame.setF
    | with_reducible apply Frame.ite
    | split
    | (dsimp only; split)

def W.pump : Nat := 2 ^ 3 ||| 2 ^ 17

theorem pump_frame (s : State) : Frame W.pump s (State.pump s) := by
  unfold State.pump
  repeat' first
    | with_reducible assumption
    | with_reducible exact Frame.refl _ _
    | (intro _ _ _)
    | (intro _ _)
    | decide +kernel
    | (with_reducible apply Frame.forEach; rotate_left; intro _ _ _)
    | with_reducible apply Frame.emit
    | with_reducible apply Frame.ite
    | split
    | (dsimp only; split)
    | (with_reducible refine Frame.upd ?_ rfl ?_ ?_ ?_ ?_ ?_ ?_ ?_ ?_ ?_ ?_ ?_ ?_ ?_ ?_ ?_ ?_ ?_ <;>
        first | with_reducible exact Or.inl rfl | with_reducible exact Or.inr ⟨by decide +kernel, Nat.mod_lt _ (Nat.two_pow_pos 48)⟩ |
          exact Or.inr ⟨by decide +kernel, rfl, rfl⟩ | exact Or.inr ⟨by decide +kernel, rfl⟩ |
          exact Or.inr (by decide +kernel) | skip)

def W.request : Nat := 2 ^ 3 ||| W.pump

theorem request_frame (s : State) (k : ReqKind) (addr len : Nat) : Frame W.request s (State.request s k addr len) := by
  unfold State.request
  repeat' first
    | with_reducible assumption
    | with_reducible exact Frame.refl _ _
    | (intro _ _ _)
    | (intro _ _)
    | decide +kernel
    | with_reducible apply Frame.step (pump_frame ..)
    | with_reducible apply Frame.ite
    | split
    | (dsimp only; split)
    | (with_reducible refine Frame.upd ?_ rfl ?_ ?_ ?_ ?_ ?_ ?_ ?_ ?_ ?_ ?_ ?_ ?_ ?_ ?_ ?_ ?_ ?_ <;>
        first | with_reducible exact Or.inl rfl | with_reducible exact Or.inr ⟨by decide +kernel, Nat.mod_lt _ (Nat.two_pow_pos 48)⟩ |
          exact Or.inr ⟨by decide +kernel, rfl, rfl⟩ | exact Or.inr ⟨by decide +kernel, rfl⟩ |
          exact Or.inr (by decide +kernel) | skip)

def W.retire : Nat := 2 ^ 3 ||| W.pump

theorem retire_frame (s : State) (tag : Nat) : Frame W.retire s (State.retire s tag) := by
  unfold State.retire
  repeat' first
    | with_reducible assumption
    | with_reducible exact Frame.refl _ _
    | (intro _ _ _)
    | (intro _ _)
    | decide +kernel
    | with_reducible apply Frame.step (pump_frame ..)
    | with_reducible apply Frame.ite
    | split
    | (dsimp only; split)
    | (with_reducible refine Frame.upd ?_ rfl ?_ ?_ ?_ ?_ ?_ ?_ ?_ ?_ ?_ ?_ ?_ ?_ ?_ ?_ ?_ ?_ ?_ <;>
        first | with_reducible exact Or.inl rfl | with_reducible exact Or.inr ⟨by decide +kernel, Nat.mod_lt _ (Nat.two_pow_pos 48)⟩ |
          exact Or.inr ⟨by decide +kernel, rfl, rfl⟩ | exact Or.inr ⟨by decide +kernel, rfl⟩ |
          exact Or.inr (by decide +kernel) | skip)

def W.aer : Nat := W.setPf

theorem aer_frame (s : State) (fn : Nat) (a : Aer) : Frame W.aer s (State.aer s fn a) := by
  unfold State.aer
  repeat' first
    | with_reducible assumption
    | with_reducible exact Frame.refl _ _
    | (intro _ _ _)
    | (intro _ _)
    | decide +kernel
    | with_reducible apply Frame.step (setPf_frame ..)
    | with_reducible apply Frame.ite
    | split
    | (dsimp only; split)

def W.takeEntry : Nat := W.ltrUpdate ||| W.setCmds

theorem takeEntry_frame (s : State) (pos q : Nat) (b : List Nat) : Frame W.takeEntry s (State.takeEntry s pos q b) := by
  unfold State.takeEntry
  repeat' first
    | with_reducible assumption
    | with_reducible exact Frame.refl _ _
    | (intro _ _ _)
    | (intro _ _)
    | decide +kernel
    | with_reducible apply Frame.step (ltrUpdate_frame ..)
    | with_reducible apply Frame.step (setCmds_frame ..)
    | with_reducible apply Frame.ite
    | split
    | (dsimp only; split)

def W.beginPages : Nat := W.request ||| W.updCmd

theorem beginPages_frame (s : State) (pos : Nat) : Frame W.beginPages s (State.beginPages s pos) := by
  unfold State.beginPages
  repeat' first
    | with_reducible assumption
    | with_reducible exact Frame.refl _ _
    | (intro _ _ _)
    | (intro _ _)
    | decide +kernel
    | with_reducible apply Frame.step (request_frame ..)
    | with_reducible apply Frame.step (updCmd_frame ..)
    | with_reducible apply Frame.ite
    | split
    | (dsimp only; split)

def W.arbitrate : Nat := fm [F.HQI_QP_STATUS_SQ_HEAD] ||| 2 ^ 4 ||| W.request

theorem arbitrate_frame (s : State) : Frame W.arbitrate s (State.arbitrate s).1 := by
  unfold State.arbitrate
  repeat' first
    | with_reducible assumption
    | with_reducible exact Frame.refl _ _
    | (intro _ _ _)
    | (intro _ _)
    | decide +kernel
    | with_reducible apply Frame.setF
    | with_reducible apply Frame.step (request_frame ..)
    | with_reducible apply Frame.ite
    | split
    | (dsimp only; split)
    | (with_reducible refine Frame.upd ?_ rfl ?_ ?_ ?_ ?_ ?_ ?_ ?_ ?_ ?_ ?_ ?_ ?_ ?_ ?_ ?_ ?_ ?_ <;>
        first | with_reducible exact Or.inl rfl | with_reducible exact Or.inr ⟨by decide +kernel, Nat.mod_lt _ (Nat.two_pow_pos 48)⟩ |
          exact Or.inr ⟨by decide +kernel, rfl, rfl⟩ | exact Or.inr ⟨by decide +kernel, rfl⟩ |
          exact Or.inr (by decide +kernel) | skip)

def W.signalPair : Nat := W.setPair ||| W.signal

theorem signalPair_frame (s : State) (q : Nat) : Frame W.signalPair s (State.signalPair s q) := by
  unfold State.signalPair
  repeat' first
    | with_reducible assumption
    | with_reducible exact Frame.refl _ _
    | (intro _ _ _)
    | (intro _ _)
    | decide +kernel
    | with_reducible apply Frame.step (setPair_frame ..)
    | with_reducible apply Frame.step (signal_frame ..)
    | with_reducible apply Frame.ite
    | split
    | (dsimp only; split)

def W.coalesce : Nat := W.setPair ||| W.signalPair

theorem coalesce_frame (s : State) (q : Nat) : Frame W.coalesce s (State.coalesce s q) := by
  unfold State.coalesce
  repeat' first
    | with_reducible assumption
    | with_reducible exact Frame.refl _ _
    | (intro _ _ _)
    | (intro _ _)
    | decide +kernel
    | with_reducible apply Frame.step (setPair_frame ..)
    | with_reducible apply Frame.step (signalPair_frame ..)
    | with_reducible apply Frame.ite
    | split
    | (dsimp only; split)

def W.postEntry : Nat := fm [F.HQI_QP_STATUS_CQ_TAIL] ||| 2 ^ 17 ||| W.coalesce ||| W.ltrUpdate ||| W.pairQuiesce |||
    W.setCmds ||| W.setPair

theorem postEntry_frame (s : State) (c : Cmd) : Frame W.postEntry s (State.postEntry s c) := by
  unfold State.postEntry
  repeat' first
    | with_reducible assumption
    | with_reducible exact Frame.refl _ _
    | (intro _ _ _)
    | (intro _ _)
    | decide +kernel
    | with_reducible apply Frame.emit
    | with_reducible apply Frame.setF
    | with_reducible apply Frame.step (coalesce_frame ..)
    | with_reducible apply Frame.step (ltrUpdate_frame ..)
    | with_reducible apply Frame.step (pairQuiesce_frame ..)
    | with_reducible apply Frame.step (setCmds_frame ..)
    | with_reducible apply Frame.step (setPair_frame ..)
    | with_reducible apply Frame.ite
    | split
    | (dsimp only; split)

end Sys2Proof.Laws
end

