-- ==== Sys2Proof/Laws/FrAsy.lean ====
section
/-!
SUPPORT. Frames of the operations of Machine/Asy.lean: one law per operation, with the mask of what it may change.
-/
set_option Elab.async false
set_option linter.unusedTactic false
set_option linter.unreachableTactic false

namespace Sys2Proof.Laws

open Sys2Proof.Machine

def W.setSlot : Nat := 2 ^ 6

theorem setSlot_frame (s : State) (y : Nat) (x : SlotS) : Frame W.setSlot s (State.setSlot s y x) := by
  unfold State.setSlot
  repeat' first
    | with_reducible assumption
    | with_reducible exact Frame.refl _ _
    | decide +kernel
    | (with_reducible refine Frame.upd ?_ rfl ?_ ?_ ?_ ?_ ?_ ?_ ?_ ?_ ?_ ?_ ?_ ?_ ?_ ?_ ?_ ?_ ?_ <;>
        first | with_reducible exact Or.inl rfl | with_reducible exact Or.inr ⟨by decide +kernel, Nat.mod_lt _ (Nat.two_pow_pos 48)⟩ |
          exact Or.inr ⟨by decide +kernel, rfl, rfl⟩ | exact Or.inr ⟨by decide +kernel, rfl⟩ |
          exact Or.inr (by decide +kernel) | skip)

def W.reserve : Nat := fm [F.ASY_SLOT_ID_N, F.ASY_SLOT_ID_V, F.ASY_SLOT_ID_VERIFY, F.ASY_SLOT_ID_X, F.ASY_SLOT_STATE,
    F.ASY_SLOT_UNSOUND] ||| W.setSlot

theorem reserve_frame (s : State) (v n x h pos : Nat) (verify test : Bool) : Frame W.reserve s (State.reserve s v n x h pos
    verify test).1 := by
  unfold State.reserve
  repeat' first
    | with_reducible assumption
    | with_reducible exact Frame.refl _ _
    | (intro _ _ _)
    | (intro _ _)
    | decide +kernel
    | with_reducible apply Frame.setB
    | with_reducible apply Frame.setF
    | with_reducible apply Frame.step (setSlot_frame ..)
    | with_reducible apply Frame.ite
    | split
    | (dsimp only; split)

def W.writeBuf : Nat := W.streamRun

theorem writeBuf_frame (s : State) (y i info : Nat) : Frame W.writeBuf s (State.writeBuf s y i info) := by
  unfold State.writeBuf
  repeat' first
    | with_reducible assumption
    | with_reducible exact Frame.refl _ _
    | decide +kernel
    | with_reducible apply Frame.step (streamRun_frame ..)

def W.reportLines : Nat := W.uncorrectable

theorem reportLines_frame (s : State) (src : Nat) (l : List Nat) : Frame W.reportLines s (State.reportLines s src l) := by
  unfold State.reportLines
  repeat' first
    | with_reducible assumption
    | with_reducible exact Frame.refl _ _
    | (intro _ _ _)
    | (intro _ _)
    | decide +kernel
    | (with_reducible apply Frame.forEach; rotate_left; intro _ _ _)
    | with_reducible apply Frame.step (uncorrectable_frame ..)

def W.putHeaders : Nat := W.putRun

theorem putHeaders_frame (s : State) (y : Nat) (p : TailEntry → Bool) : Frame W.putHeaders s (State.putHeaders s y p) := by
  unfold State.putHeaders
  repeat' first
    | with_reducible assumption
    | with_reducible exact Frame.refl _ _
    | (intro _ _ _)
    | (intro _ _)
    | decide +kernel
    | (with_reducible apply Frame.forEach; rotate_left; intro _ _ _)
    | with_reducible apply Frame.step (putRun_frame ..)

def W.putTail : Nat := W.putRun

theorem putTail_frame (s : State) (e : TailEntry) : Frame W.putTail s (State.putTail s e) := by
  unfold State.putTail
  repeat' first
    | with_reducible assumption
    | with_reducible exact Frame.refl _ _
    | decide +kernel
    | with_reducible apply Frame.step (putRun_frame ..)

def W.marks : Nat := fm [F.PRC_PEAK_PEAK, F.PRC_STATUS_WITHHOLD] ||| em [E.PRC_RESUMED, E.PRC_WITHHELD]

theorem marks_frame (s : State) : Frame W.marks s (State.marks s) := by
  unfold State.marks
  repeat' first
    | with_reducible assumption
    | with_reducible exact Frame.refl _ _
    | (intro _ _ _)
    | (intro _ _)
    | decide +kernel
    | with_reducible apply Frame.keepMax
    | with_reducible apply Frame.setB
    | with_reducible apply raise_fr
    | with_reducible apply Frame.ite
    | with_reducible refine Frame.ofPair (by assumption) ?_
    | split
    | (dsimp only; split)

def W.freeEntries : Nat := 2 ^ 6 ||| W.marks

theorem freeEntries_frame (s : State) (idx : List Nat) : Frame W.freeEntries s (State.freeEntries s idx) := by
  unfold State.freeEntries
  repeat' first
    | with_reducible assumption
    | with_reducible exact Frame.refl _ _
    | (intro _ _ _)
    | (intro _ _)
    | decide +kernel
    | with_reducible apply Frame.step (marks_frame ..)
    | with_reducible apply Frame.ite
    | split
    | (dsimp only; split)
    | (with_reducible refine Frame.upd ?_ rfl ?_ ?_ ?_ ?_ ?_ ?_ ?_ ?_ ?_ ?_ ?_ ?_ ?_ ?_ ?_ ?_ ?_ <;>
        first | with_reducible exact Or.inl rfl | with_reducible exact Or.inr ⟨by decide +kernel, Nat.mod_lt _ (Nat.two_pow_pos 48)⟩ |
          exact Or.inr ⟨by decide +kernel, rfl, rfl⟩ | exact Or.inr ⟨by decide +kernel, rfl⟩ |
          exact Or.inr (by decide +kernel) | skip)

def W.takeFree : Nat := 2 ^ 6 ||| W.marks

theorem takeFree_frame (s : State) : Frame W.takeFree s (State.takeFree s).1 := by
  unfold State.takeFree
  repeat' first
    | with_reducible assumption
    | with_reducible exact Frame.refl _ _
    | (intro _ _ _)
    | (intro _ _)
    | decide +kernel
    | with_reducible apply Frame.step (marks_frame ..)
    | with_reducible apply Frame.ite
    | split
    | (dsimp only; split)
    | (with_reducible refine Frame.upd ?_ rfl ?_ ?_ ?_ ?_ ?_ ?_ ?_ ?_ ?_ ?_ ?_ ?_ ?_ ?_ ?_ ?_ ?_ <;>
        first | with_reducible exact Or.inl rfl | with_reducible exact Or.inr ⟨by decide +kernel, Nat.mod_lt _ (Nat.two_pow_pos 48)⟩ |
          exact Or.inr ⟨by decide +kernel, rfl, rfl⟩ | exact Or.inr ⟨by decide +kernel, rfl⟩ |
          exact Or.inr (by decide +kernel) | skip)

def W.releaseRead : Nat := 2 ^ 6 ||| W.freeEntries ||| W.setSlot

theorem releaseRead_frame (s : State) (y r : Nat) : Frame W.releaseRead s (State.releaseRead s y r) := by
  unfold State.releaseRead
  repeat' first
    | with_reducible assumption
    | with_reducible exact Frame.refl _ _
    | (intro _ _ _)
    | (intro _ _)
    | decide +kernel
    | with_reducible apply Frame.step (freeEntries_frame ..)
    | with_reducible apply Frame.step (setSlot_frame ..)
    | (with_reducible refine Frame.upd ?_ rfl ?_ ?_ ?_ ?_ ?_ ?_ ?_ ?_ ?_ ?_ ?_ ?_ ?_ ?_ ?_ ?_ ?_ <;>
        first | with_reducible exact Or.inl rfl | with_reducible exact Or.inr ⟨by decide +kernel, Nat.mod_lt _ (Nat.two_pow_pos 48)⟩ |
          exact Or.inr ⟨by decide +kernel, rfl, rfl⟩ | exact Or.inr ⟨by decide +kernel, rfl⟩ |
          exact Or.inr (by decide +kernel) | skip)

def W.releaseEntries : Nat := W.releaseRead

theorem releaseEntries_frame (s : State) (y : Nat) : Frame W.releaseEntries s (State.releaseEntries s y) := by
  unfold State.releaseEntries
  repeat' first
    | with_reducible assumption
    | with_reducible exact Frame.refl _ _
    | (intro _ _ _)
    | (intro _ _)
    | decide +kernel
    | (with_reducible apply Frame.forEach; rotate_left; intro _ _ _)
    | with_reducible apply Frame.step (releaseRead_frame ..)

def W.releaseSlot : Nat := fm [F.ASY_SLOT_ID_N, F.ASY_SLOT_ID_RETAIN, F.ASY_SLOT_ID_V, F.ASY_SLOT_ID_VERIFY, F.ASY_SLOT_ID_X,
    F.ASY_SLOT_MISSES, F.ASY_SLOT_READS, F.ASY_SLOT_RUNG, F.ASY_SLOT_STATE, F.ASY_SLOT_UNSOUND] ||| W.releaseEntries |||
    W.setSlot

theorem releaseSlot_frame (s : State) (y : Nat) : Frame W.releaseSlot s (State.releaseSlot s y) := by
  unfold State.releaseSlot
  repeat' first
    | dsimp only [List.foldl_cons, List.foldl_nil]
    | with_reducible assumption
    | with_reducible exact Frame.refl _ _
    | (intro _ _ _)
    | (intro _ _)
    | decide +kernel
    | with_reducible apply Frame.setF
    | with_reducible apply Frame.step (releaseEntries_frame ..)
    | with_reducible apply Frame.step (setSlot_frame ..)
    | (with_reducible apply Frame.foldl1; rotate_left; intro _ _ _)
    | (with_reducible apply Frame.foldl; rotate_left; intro _ _ _)

def W.decideRetain : Nat := fm [F.ASY_SLOT_ID_RETAIN, F.PRC_STATS_WITHHELD] ||| W.releaseRead ||| W.setSlot

theorem decideRetain_frame (s : State) (y : Nat) : Frame W.decideRetain s (State.decideRetain s y) := by
  unfold State.decideRetain
  repeat' first
    | with_reducible assumption
    | with_reducible exact Frame.refl _ _
    | (intro _ _ _)
    | (intro _ _)
    | decide +kernel
    | with_reducible apply Frame.count
    | with_reducible apply Frame.setB
    | with_reducible apply Frame.step (releaseRead_frame ..)
    | with_reducible apply Frame.step (setSlot_frame ..)
    | with_reducible apply Frame.ite
    | split
    | (dsimp only; split)

def W.overflow : Nat := fm [F.ASY_SLOT_ID_RETAIN, F.PRC_STATS_OVERFLOW] ||| em [E.PRC_OVERFLOW] ||| W.releaseRead

theorem overflow_frame (s : State) (y : Nat) : Frame W.overflow s (State.overflow s y) := by
  unfold State.overflow
  repeat' first
    | with_reducible assumption
    | with_reducible exact Frame.refl _ _
    | decide +kernel
    | with_reducible apply Frame.count
    | with_reducible apply Frame.setB
    | with_reducible apply Frame.step (releaseRead_frame ..)
    | with_reducible apply raise_fr
    | with_reducible refine Frame.ofPair (by assumption) ?_

def W.stage : Nat := 2 ^ 6 ||| W.overflow ||| W.takeFree

theorem stage_frame (s : State) (y : Nat) (r : DriftRec) (lam : List Int) : Frame W.stage s (State.stage s y r lam) := by
  unfold State.stage
  repeat' first
    | with_reducible assumption
    | with_reducible exact Frame.refl _ _
    | (intro _ _ _)
    | (intro _ _)
    | decide +kernel
    | with_reducible apply Frame.step (overflow_frame ..)
    | with_reducible apply Frame.step (takeFree_frame ..)
    | with_reducible apply Frame.ite
    | with_reducible refine Frame.ofPair (by assumption) ?_
    | split
    | (dsimp only; split)
    | (with_reducible refine Frame.upd ?_ rfl ?_ ?_ ?_ ?_ ?_ ?_ ?_ ?_ ?_ ?_ ?_ ?_ ?_ ?_ ?_ ?_ ?_ <;>
        first | with_reducible exact Or.inl rfl | with_reducible exact Or.inr ⟨by decide +kernel, Nat.mod_lt _ (Nat.two_pow_pos 48)⟩ |
          exact Or.inr ⟨by decide +kernel, rfl, rfl⟩ | exact Or.inr ⟨by decide +kernel, rfl⟩ |
          exact Or.inr (by decide +kernel) | skip)

def W.linkEntry : Nat := 2 ^ 6 ||| W.freeEntries ||| W.putHeaders ||| W.putTail ||| W.setSlot

theorem linkEntry_frame (s : State) (c : Nat) : Frame W.linkEntry s (State.linkEntry s c) := by
  unfold State.linkEntry
  repeat' first
    | with_reducible assumption
    | with_reducible exact Frame.refl _ _
    | (intro _ _ _)
    | (intro _ _)
    | decide +kernel
    | with_reducible apply Frame.step (freeEntries_frame ..)
    | with_reducible apply Frame.step (putHeaders_frame ..)
    | with_reducible apply Frame.step (putTail_frame ..)
    | with_reducible apply Frame.step (setSlot_frame ..)
    | with_reducible apply Frame.ite
    | split
    | (dsimp only; split)
    | (with_reducible refine Frame.upd ?_ rfl ?_ ?_ ?_ ?_ ?_ ?_ ?_ ?_ ?_ ?_ ?_ ?_ ?_ ?_ ?_ ?_ ?_ <;>
        first | with_reducible exact Or.inl rfl | with_reducible exact Or.inr ⟨by decide +kernel, Nat.mod_lt _ (Nat.two_pow_pos 48)⟩ |
          exact Or.inr ⟨by decide +kernel, rfl, rfl⟩ | exact Or.inr ⟨by decide +kernel, rfl⟩ |
          exact Or.inr (by decide +kernel) | skip)

def W.flushStaging : Nat := fm [F.PRC_STATS2_TRUNC] ||| em [E.PRC_FLUSH_TRUNC] ||| 2 ^ 6 ||| W.freeEntries

theorem flushStaging_frame (s : State) (p : Nat → Bool) : Frame W.flushStaging s (State.flushStaging s p) := by
  unfold State.flushStaging
  repeat' first
    | with_reducible assumption
    | with_reducible exact Frame.refl _ _
    | (intro _ _ _)
    | (intro _ _)
    | decide +kernel
    | with_reducible apply Frame.addSat
    | with_reducible apply Frame.step (freeEntries_frame ..)
    | with_reducible apply raise_fr
    | with_reducible apply Frame.ite
    | with_reducible refine Frame.ofPair (by assumption) ?_
    | split
    | (dsimp only; split)
    | (with_reducible refine Frame.upd ?_ rfl ?_ ?_ ?_ ?_ ?_ ?_ ?_ ?_ ?_ ?_ ?_ ?_ ?_ ?_ ?_ ?_ ?_ <;>
        first | with_reducible exact Or.inl rfl | with_reducible exact Or.inr ⟨by decide +kernel, Nat.mod_lt _ (Nat.two_pow_pos 48)⟩ |
          exact Or.inr ⟨by decide +kernel, rfl, rfl⟩ | exact Or.inr ⟨by decide +kernel, rfl⟩ |
          exact Or.inr (by decide +kernel) | skip)

def W.flushHead : Nat := W.flushStaging

theorem flushHead_frame (s : State) (h : Nat) : Frame W.flushHead s (State.flushHead s h) := by
  unfold State.flushHead
  repeat' first
    | with_reducible assumption
    | with_reducible exact Frame.refl _ _
    | (intro _ _ _)
    | (intro _ _)
    | decide +kernel
    | with_reducible apply Frame.step (flushStaging_frame ..)

def W.updEntry : Nat := 2 ^ 6 ||| W.putHeaders ||| W.setSlot

theorem updEntry_frame (s : State) (y i : Nat) (f : TailEntry → TailEntry) : Frame W.updEntry s (State.updEntry s y i f) := by
  unfold State.updEntry
  repeat' first
    | with_reducible assumption
    | with_reducible exact Frame.refl _ _
    | (intro _ _ _)
    | (intro _ _)
    | decide +kernel
    | with_reducible apply Frame.step (putHeaders_frame ..)
    | with_reducible apply Frame.step (setSlot_frame ..)
    | with_reducible apply Frame.ite
    | split
    | (dsimp only; split)
    | (with_reducible refine Frame.upd ?_ rfl ?_ ?_ ?_ ?_ ?_ ?_ ?_ ?_ ?_ ?_ ?_ ?_ ?_ ?_ ?_ ?_ ?_ <;>
        first | with_reducible exact Or.inl rfl | with_reducible exact Or.inr ⟨by decide +kernel, Nat.mod_lt _ (Nat.two_pow_pos 48)⟩ |
          exact Or.inr ⟨by decide +kernel, rfl, rfl⟩ | exact Or.inr ⟨by decide +kernel, rfl⟩ |
          exact Or.inr (by decide +kernel) | skip)

def W.claimDrift : Nat := W.decideRetain ||| W.setSlot ||| W.stage

theorem claimDrift_frame (s : State) (y : Nat) (r : DriftRec) (lam : List Int) : Frame W.claimDrift s (State.claimDrift s y r
    lam) := by
  unfold State.claimDrift
  repeat' first
    | with_reducible assumption
    | with_reducible exact Frame.refl _ _
    | (intro _ _ _)
    | (intro _ _)
    | decide +kernel
    | with_reducible apply Frame.step (decideRetain_frame ..)
    | with_reducible apply Frame.step (setSlot_frame ..)
    | with_reducible apply Frame.step (stage_frame ..)
    | with_reducible apply Frame.ite
    | split
    | (dsimp only; split)

def W.makeSound : Nat := fm [F.ASY_SLOT_UNSOUND] ||| W.setSlot

theorem makeSound_frame (s : State) (y i info : Nat) : Frame W.makeSound s (State.makeSound s y i info) := by
  unfold State.makeSound
  repeat' first
    | with_reducible assumption
    | with_reducible exact Frame.refl _ _
    | (intro _ _ _)
    | (intro _ _)
    | decide +kernel
    | with_reducible apply Frame.setF
    | with_reducible apply Frame.step (setSlot_frame ..)
    | with_reducible apply Frame.ite
    | split
    | (dsimp only; split)

def W.judgeInner : Nat := fm [F.ASY_DRIFTS_INNER_FAIL, F.ASY_DRIFTS_INNER_MISC] ||| em [E.ASY_INNER_FAIL, E.ASY_INNER_MISC]
    ||| W.makeSound ||| W.setSlot ||| W.updEntry ||| W.writeBuf

theorem judgeInner_frame (s : State) (y : Nat) (r : DriftRec) (res : LdpcResult) : Frame W.judgeInner s (State.judgeInner s y
    r res) := by
  unfold State.judgeInner
  repeat' first
    | with_reducible assumption
    | with_reducible exact Frame.refl _ _
    | (intro _ _ _)
    | (intro _ _)
    | decide +kernel
    | with_reducible apply Frame.count
    | with_reducible apply Frame.step (makeSound_frame ..)
    | with_reducible apply Frame.step (setSlot_frame ..)
    | with_reducible apply Frame.step (updEntry_frame ..)
    | with_reducible apply Frame.step (writeBuf_frame ..)
    | with_reducible apply raise_fr
    | with_reducible apply Frame.ite
    | with_reducible refine Frame.ofPair (by assumption) ?_
    | split
    | (dsimp only; split)

def W.lodeEnd : Nat := fm [F.ASY_SLOT_READS, F.ASY_SLOT_STATE] ||| W.putHeaders ||| W.setSlot

theorem lodeEnd_frame (s : State) (y : Nat) : Frame W.lodeEnd s (State.lodeEnd s y) := by
  unfold State.lodeEnd
  repeat' first
    | with_reducible assumption
    | with_reducible exact Frame.refl _ _
    | (intro _ _ _)
    | (intro _ _)
    | decide +kernel
    | with_reducible apply Frame.count
    | with_reducible apply Frame.setF
    | with_reducible apply Frame.step (putHeaders_frame ..)
    | with_reducible apply Frame.step (setSlot_frame ..)
    | with_reducible apply Frame.ite
    | split
    | (dsimp only; split)

def W.beginReread : Nat := fm [F.ASY_SLOT_ID_RETAIN, F.ASY_SLOT_STATE] ||| W.setSlot

theorem beginReread_frame (s : State) (y : Nat) : Frame W.beginReread s (State.beginReread s y) := by
  unfold State.beginReread
  repeat' first
    | with_reducible assumption
    | with_reducible exact Frame.refl _ _
    | (intro _ _ _)
    | (intro _ _)
    | decide +kernel
    | with_reducible apply Frame.setB
    | with_reducible apply Frame.setF
    | with_reducible apply Frame.step (setSlot_frame ..)

def W.startJob : Nat := fm [F.ASY_ENG_STATUS_BUSY, F.ASY_ENG_STATUS_RUNG, F.ASY_ENG_STATUS_SLOT, F.ASY_SLOT_RUNG,
    F.ASY_SLOT_STATE] ||| 2 ^ 6

theorem startJob_frame (s : State) (a y : Nat) : Frame W.startJob s (State.startJob s a y) := by
  unfold State.startJob
  repeat' first
    | with_reducible assumption
    | with_reducible exact Frame.refl _ _
    | (intro _ _ _)
    | (intro _ _)
    | decide +kernel
    | with_reducible apply Frame.setB
    | with_reducible apply Frame.setF
    | (with_reducible refine Frame.upd ?_ rfl ?_ ?_ ?_ ?_ ?_ ?_ ?_ ?_ ?_ ?_ ?_ ?_ ?_ ?_ ?_ ?_ ?_ <;>
        first | with_reducible exact Or.inl rfl | with_reducible exact Or.inr ⟨by decide +kernel, Nat.mod_lt _ (Nat.two_pow_pos 48)⟩ |
          exact Or.inr ⟨by decide +kernel, rfl, rfl⟩ | exact Or.inr ⟨by decide +kernel, rfl⟩ |
          exact Or.inr (by decide +kernel) | skip)

def W.idleEngine : Nat := fm [F.ASY_ENG_STATUS_BUSY, F.ASY_ENG_STATUS_RUNG, F.ASY_ENG_STATUS_SLOT]

theorem idleEngine_frame (s : State) (a : Nat) : Frame W.idleEngine s (State.idleEngine s a) := by
  unfold State.idleEngine
  repeat' first
    | with_reducible assumption
    | with_reducible exact Frame.refl _ _
    | decide +kernel
    | with_reducible apply Frame.setB
    | with_reducible apply Frame.setF

def W.putRung : Nat := fm [F.ASY_MISC_GUARD_FAIL, F.ASY_MISC_SLIP_FOUND, F.ASY_SLOT_UNSOUND] ||| em [E.ASY_MISCORRECT,
    E.ASY_SLIP] ||| W.putHeaders ||| W.setSlot ||| W.writeBuf

theorem putRung_frame (s : State) (y : Nat) (r : RungRes) : Frame W.putRung s (State.putRung s y r) := by
  unfold State.putRung
  repeat' first
    | with_reducible assumption
    | with_reducible exact Frame.refl _ _
    | (intro _ _ _)
    | (intro _ _)
    | decide +kernel
    | (with_reducible apply Frame.forEach; rotate_left; intro _ _ _)
    | (with_reducible apply Frame.onlyIf; rotate_left; intro _ _)
    | with_reducible apply Frame.addSat
    | with_reducible apply Frame.count
    | with_reducible apply Frame.setF
    | with_reducible apply Frame.step (putHeaders_frame ..)
    | with_reducible apply Frame.step (setSlot_frame ..)
    | with_reducible apply Frame.step (writeBuf_frame ..)
    | with_reducible apply raise_fr
    | with_reducible refine Frame.ofPair (by assumption) ?_

def W.badEntries : Nat := fm [F.PRC_STATS2_ENTRY_ECC] ||| em [E.PRC_ENTRY_ECC]

theorem badEntries_frame (s : State) (y : Nat) (ecc : List (Nat × Nat)) : Frame W.badEntries s (State.badEntries s y ecc) :=
    by
  unfold State.badEntries
  repeat' first
    | with_reducible assumption
    | with_reducible exact Frame.refl _ _
    | (intro _ _ _)
    | (intro _ _)
    | decide +kernel
    | (with_reducible apply Frame.onlyIf; rotate_left; intro _ _)
    | with_reducible apply Frame.addSat
    | with_reducible apply raise_fr
    | with_reducible refine Frame.ofPair (by assumption) ?_

end Sys2Proof.Laws
end

