-- ==== Sys2Proof/Laws/FrRoute.lean ====
section
/-!
SUPPORT. Frames of the operations of Machine/Route.lean: one law per operation, with the mask of what it may change.
-/
set_option Elab.async false
set_option linter.unusedTactic false
set_option linter.unreachableTactic false

namespace Sys2Proof.Laws

open Sys2Proof.Machine

def W.setHead : Nat := 2 ^ 7

theorem setHead_frame (s : State) (h : Nat) (x : HeadS) : Frame W.setHead s (State.setHead s h x) := by
  unfold State.setHead
  repeat' first
    | with_reducible assumption
    | with_reducible exact Frame.refl _ _
    | decide +kernel
    | (with_reducible refine Frame.upd ?_ rfl ?_ ?_ ?_ ?_ ?_ ?_ ?_ ?_ ?_ ?_ ?_ ?_ ?_ ?_ ?_ ?_ ?_ <;>
        first | with_reducible exact Or.inl rfl | with_reducible exact Or.inr ⟨by decide +kernel, Nat.mod_lt _ (Nat.two_pow_pos 48)⟩ |
          exact Or.inr ⟨by decide +kernel, rfl, rfl⟩ | exact Or.inr ⟨by decide +kernel, rfl⟩ |
          exact Or.inr (by decide +kernel) | skip)

def W.issue : Nat := W.setHead

theorem issue_frame (s : State) (h : Nat) (o : MediaOp) : Frame W.issue s (State.issue s h o) := by
  unfold State.issue
  repeat' first
    | with_reducible assumption
    | with_reducible exact Frame.refl _ _
    | decide +kernel
    | with_reducible apply Frame.step (setHead_frame ..)

def W.waitRead : Nat := 2 ^ 6

theorem waitRead_frame (s : State) (o : MediaOp) : Frame W.waitRead s (State.waitRead s o) := by
  unfold State.waitRead
  repeat' first
    | with_reducible assumption
    | with_reducible exact Frame.refl _ _
    | decide +kernel
    | (with_reducible refine Frame.upd ?_ rfl ?_ ?_ ?_ ?_ ?_ ?_ ?_ ?_ ?_ ?_ ?_ ?_ ?_ ?_ ?_ ?_ ?_ <;>
        first | with_reducible exact Or.inl rfl | with_reducible exact Or.inr ⟨by decide +kernel, Nat.mod_lt _ (Nat.two_pow_pos 48)⟩ |
          exact Or.inr ⟨by decide +kernel, rfl, rfl⟩ | exact Or.inr ⟨by decide +kernel, rfl⟩ |
          exact Or.inr (by decide +kernel) | skip)

def W.holdRead : Nat := 2 ^ 6

theorem holdRead_frame (s : State) (o : MediaOp) : Frame W.holdRead s (State.holdRead s o) := by
  unfold State.holdRead
  repeat' first
    | with_reducible assumption
    | with_reducible exact Frame.refl _ _
    | decide +kernel
    | (with_reducible refine Frame.upd ?_ rfl ?_ ?_ ?_ ?_ ?_ ?_ ?_ ?_ ?_ ?_ ?_ ?_ ?_ ?_ ?_ ?_ ?_ <;>
        first | with_reducible exact Or.inl rfl | with_reducible exact Or.inr ⟨by decide +kernel, Nat.mod_lt _ (Nat.two_pow_pos 48)⟩ |
          exact Or.inr ⟨by decide +kernel, rfl, rfl⟩ | exact Or.inr ⟨by decide +kernel, rfl⟩ |
          exact Or.inr (by decide +kernel) | skip)

def W.tryRead : Nat := W.issue ||| W.reserve

theorem tryRead_frame {s : State} {o : MediaOp} {u : State} (e : State.tryRead s o = some u) : Frame W.tryRead s u := by
  unfold State.tryRead at e
  try dsimp only at e
  repeat' (split at e)
  all_goals (try (simp only [Option.some.injEq] at e; subst e)) <;> (try contradiction) <;> (try simp at e)
  repeat' first
    | with_reducible assumption
    | with_reducible exact Frame.refl _ _
    | (intro _ _ _)
    | (intro _ _)
    | decide +kernel
    | with_reducible apply Frame.step (issue_frame ..)
    | with_reducible apply Frame.step (reserve_frame ..)
    | with_reducible apply Frame.ite
    | with_reducible refine Frame.ofPair (by assumption) ?_
    | split
    | (dsimp only; split)

def W.askLode : Nat := W.tryRead ||| W.waitRead

theorem askLode_frame (s : State) (v n x pos : Nat) (test : Bool) : Frame W.askLode s (State.askLode s v n x pos test) := by
  unfold State.askLode
  repeat' first
    | with_reducible assumption
    | with_reducible exact Frame.refl _ _
    | decide +kernel
    | with_reducible apply Frame.step (waitRead_frame ..)
    | with_reducible refine Frame.step (tryRead_frame (by assumption)) ?_ ?_
    | with_reducible apply Frame.ite
    | (with_reducible apply Frame.getD; intro _ _)
    | with_reducible refine Frame.ofPair (by assumption) ?_
    | split
    | (dsimp only; split)

def W.issueFirst : Nat := 2 ^ 6 ||| W.tryRead

theorem issueFirst_frame (s : State) (b l : List MediaOp) : Frame W.issueFirst s (issueFirst s b l).1 := by
  induction l generalizing b with
  | nil => exact Frame.refl _ _
  | cons o l ih =>
    unfold issueFirst
    split
    · rename_i t e
      have h : Frame W.issueFirst s t := (tryRead_frame e).mono (by decide +kernel)
      refine Frame.upd h rfl ?_ ?_ ?_ ?_ ?_ ?_ ?_ ?_ ?_ ?_ ?_ ?_ ?_ ?_ ?_ ?_ ?_ <;>
        first | with_reducible exact Or.inl rfl | exact Or.inr (by decide +kernel)
    · exact ih _

def W.issueMany : Nat := W.issueFirst

theorem issueMany_frame (n : Nat) (s : State) : Frame W.issueMany s (issueMany n s) := by
  induction n generalizing s with
  | zero => exact Frame.refl _ _
  | succ n ih =>
    unfold issueMany
    split
    · rename_i t e
      have h : Frame W.issueMany s t := Frame.ofPair e ((issueFirst_frame ..).mono (by decide +kernel))
      exact (ih t).step h (by simp [subMask])
    · exact Frame.refl _ _

def W.issueWaiting : Nat := W.issueMany

theorem issueWaiting_frame (s : State) : Frame W.issueWaiting s (State.issueWaiting s) := by
  unfold State.issueWaiting
  repeat' first
    | with_reducible assumption
    | with_reducible exact Frame.refl _ _
    | decide +kernel
    | with_reducible apply Frame.step (issueMany_frame ..)

def W.failBand : Nat := 2 ^ 6 ||| W.finishAll ||| W.releaseSlot ||| W.setSeam

theorem failBand_frame (s : State) (h : Nat) (st : Status) : Frame W.failBand s (State.failBand s h st) := by
  unfold State.failBand
  repeat' first
    | with_reducible assumption
    | with_reducible exact Frame.refl _ _
    | (intro _ _ _)
    | (intro _ _)
    | decide +kernel
    | (with_reducible apply Frame.forEach; rotate_left; intro _ _ _)
    | with_reducible apply Frame.step (finishAll_frame ..)
    | with_reducible apply Frame.step (releaseSlot_frame ..)
    | with_reducible apply Frame.step (setSeam_frame ..)
    | with_reducible apply Frame.ite
    | split
    | (dsimp only; split)
    | (with_reducible refine Frame.upd ?_ rfl ?_ ?_ ?_ ?_ ?_ ?_ ?_ ?_ ?_ ?_ ?_ ?_ ?_ ?_ ?_ ?_ ?_ <;>
        first | with_reducible exact Or.inl rfl | with_reducible exact Or.inr ⟨by decide +kernel, Nat.mod_lt _ (Nat.two_pow_pos 48)⟩ |
          exact Or.inr ⟨by decide +kernel, rfl, rfl⟩ | exact Or.inr ⟨by decide +kernel, rfl⟩ |
          exact Or.inr (by decide +kernel) | skip)

def W.withdraw : Nat := W.releaseSlot ||| W.setHead ||| W.waitRead

theorem withdraw_frame (s : State) (h : Nat) : Frame W.withdraw s (State.withdraw s h) := by
  unfold State.withdraw
  repeat' first
    | with_reducible assumption
    | with_reducible exact Frame.refl _ _
    | (intro _ _ _)
    | (intro _ _)
    | decide +kernel
    | (with_reducible apply Frame.forEach; rotate_left; intro _ _ _)
    | with_reducible apply Frame.step (releaseSlot_frame ..)
    | with_reducible apply Frame.step (setHead_frame ..)
    | with_reducible apply Frame.step (waitRead_frame ..)
    | split
    | (dsimp only; split)

def W.endOp : Nat := W.setHead

theorem endOp_frame (s : State) (h : Nat) : Frame W.endOp s (State.endOp s h) := by
  unfold State.endOp
  repeat' first
    | with_reducible assumption
    | with_reducible exact Frame.refl _ _
    | decide +kernel
    | with_reducible apply Frame.step (setHead_frame ..)

def W.abortLode : Nat := 2 ^ 6 ||| W.endOp ||| W.flushHead ||| W.releaseSlot ||| W.setHead

theorem abortLode_frame (s : State) (v n x : Nat) : Frame W.abortLode s (State.abortLode s v n x) := by
  unfold State.abortLode
  repeat' first
    | with_reducible assumption
    | with_reducible exact Frame.refl _ _
    | (intro _ _ _)
    | (intro _ _)
    | decide +kernel
    | (with_reducible apply Frame.forEach; rotate_left; intro _ _ _)
    | with_reducible apply Frame.step (endOp_frame ..)
    | with_reducible apply Frame.step (flushHead_frame ..)
    | with_reducible apply Frame.step (releaseSlot_frame ..)
    | with_reducible apply Frame.step (setHead_frame ..)
    | with_reducible apply Frame.ite
    | split
    | (dsimp only; split)
    | (with_reducible refine Frame.upd ?_ rfl ?_ ?_ ?_ ?_ ?_ ?_ ?_ ?_ ?_ ?_ ?_ ?_ ?_ ?_ ?_ ?_ ?_ <;>
        first | with_reducible exact Or.inl rfl | with_reducible exact Or.inr ⟨by decide +kernel, Nat.mod_lt _ (Nat.two_pow_pos 48)⟩ |
          exact Or.inr ⟨by decide +kernel, rfl, rfl⟩ | exact Or.inr ⟨by decide +kernel, rfl⟩ |
          exact Or.inr (by decide +kernel) | skip)

def W.interruptRead : Nat := W.endOp ||| W.flushHead ||| W.lodeEnd

theorem interruptRead_frame (s : State) (h : Nat) : Frame W.interruptRead s (State.interruptRead s h) := by
  unfold State.interruptRead
  repeat' first
    | with_reducible assumption
    | with_reducible exact Frame.refl _ _
    | (intro _ _ _)
    | (intro _ _)
    | decide +kernel
    | with_reducible apply Frame.step (endOp_frame ..)
    | with_reducible apply Frame.step (flushHead_frame ..)
    | with_reducible apply Frame.step (lodeEnd_frame ..)
    | with_reducible apply Frame.ite
    | split
    | (dsimp only; split)

def W.requeueJobs : Nat := W.releaseSlot ||| W.waitRead

theorem requeueJobs_frame (s : State) (h : Nat) : Frame W.requeueJobs s (State.requeueJobs s h) := by
  unfold State.requeueJobs
  repeat' first
    | with_reducible assumption
    | with_reducible exact Frame.refl _ _
    | (intro _ _ _)
    | (intro _ _)
    | decide +kernel
    | (with_reducible apply Frame.forEach; rotate_left; intro _ _ _)
    | with_reducible apply Frame.step (releaseSlot_frame ..)
    | with_reducible apply Frame.step (waitRead_frame ..)

def W.requeueRead : Nat := W.endOp ||| W.flushHead ||| W.releaseSlot ||| W.waitRead

theorem requeueRead_frame (s : State) (h : Nat) : Frame W.requeueRead s (State.requeueRead s h) := by
  unfold State.requeueRead
  repeat' first
    | with_reducible assumption
    | with_reducible exact Frame.refl _ _
    | decide +kernel
    | with_reducible apply Frame.step (endOp_frame ..)
    | with_reducible apply Frame.step (flushHead_frame ..)
    | with_reducible apply Frame.step (releaseSlot_frame ..)
    | with_reducible apply Frame.step (waitRead_frame ..)
    | with_reducible apply Frame.ite
    | split
    | (dsimp only; split)

end Sys2Proof.Laws
end

