-- ==== Sys2Proof/Laws/FrSled.lean ====
section
/-!
SUPPORT. Frames of the operations of Machine/Sled.lean: one law per operation, with the mask of what it may change.
-/
set_option Elab.async false
set_option linter.unusedTactic false
set_option linter.unreachableTactic false

namespace Sys2Proof.Laws

open Sys2Proof.Machine

def W.setSld : Nat := W.setHead

theorem setSld_frame (s : State) (h : Nat) (x : SldS) : Frame W.setSld s (State.setSld s h x) := by
  unfold State.setSld
  repeat' first
    | with_reducible assumption
    | with_reducible exact Frame.refl _ _
    | decide +kernel
    | with_reducible apply Frame.step (setHead_frame ..)

def W.updSld : Nat := W.setSld

theorem updSld_frame (s : State) (h : Nat) (f : SldS → SldS) : Frame W.updSld s (State.updSld s h f) := by
  unfold State.updSld
  repeat' first
    | with_reducible assumption
    | with_reducible exact Frame.refl _ _
    | decide +kernel
    | with_reducible apply Frame.step (setSld_frame ..)

def W.setAxis : Nat := fm [F.SLD_STATUS_STATE]

theorem setAxis_frame (s : State) (h st : Nat) : Frame W.setAxis s (State.setAxis s h st) := by
  unfold State.setAxis
  repeat' first
    | with_reducible assumption
    | with_reducible exact Frame.refl _ _
    | decide +kernel
    | with_reducible apply Frame.setF

def W.setTarget : Nat := em [E.SLD_SOFT_LIMIT] ||| W.updSld ||| fm [F.SLD_EVT_AXES_AXIS]

theorem setTarget_frame (s : State) (h : Nat) (x : Int) : Frame W.setTarget s (State.setTarget s h x) := by
  unfold State.setTarget
  repeat' first
    | with_reducible assumption
    | with_reducible exact Frame.refl _ _
    | (intro _ _ _)
    | (intro _ _)
    | decide +kernel
    | (with_reducible apply Frame.onlyIf; rotate_left; intro _ _)
    | with_reducible apply Frame.step (updSld_frame ..)
    | with_reducible apply raiseSld_fr

def W.beginMove : Nat := W.setAxis ||| W.updSld

theorem beginMove_frame (s : State) (h : Nat) : Frame W.beginMove s (State.beginMove s h) := by
  unfold State.beginMove
  repeat' first
    | with_reducible assumption
    | with_reducible exact Frame.refl _ _
    | (intro _ _ _)
    | (intro _ _)
    | decide +kernel
    | with_reducible apply Frame.step (setAxis_frame ..)
    | with_reducible apply Frame.step (updSld_frame ..)
    | with_reducible apply Frame.ite
    | split
    | (dsimp only; split)

def W.toPark : Nat := W.beginMove ||| W.setTarget ||| W.updSld

theorem toPark_frame (s : State) (h : Nat) (short : Bool) : Frame W.toPark s (State.toPark s h short) := by
  unfold State.toPark
  repeat' first
    | with_reducible assumption
    | with_reducible exact Frame.refl _ _
    | (intro _ _ _)
    | (intro _ _)
    | decide +kernel
    | with_reducible apply Frame.step (beginMove_frame ..)
    | with_reducible apply Frame.step (setTarget_frame ..)
    | with_reducible apply Frame.step (updSld_frame ..)

def W.axisFault : Nat := fm [F.SLD_STATUS_PHASE] ||| W.setAxis ||| W.updSld

theorem axisFault_frame (s : State) (h : Nat) : Frame W.axisFault s (State.axisFault s h) := by
  unfold State.axisFault
  repeat' first
    | with_reducible assumption
    | with_reducible exact Frame.refl _ _
    | (intro _ _ _)
    | (intro _ _)
    | decide +kernel
    | with_reducible apply Frame.setF
    | with_reducible apply Frame.step (setAxis_frame ..)
    | with_reducible apply Frame.step (updSld_frame ..)

def W.axisOff : Nat := fm [F.SLD_STATUS_HOMED, F.SLD_STATUS_PHASE] ||| W.setAxis ||| W.updSld

theorem axisOff_frame (s : State) (h : Nat) : Frame W.axisOff s (State.axisOff s h) := by
  unfold State.axisOff
  repeat' first
    | with_reducible assumption
    | with_reducible exact Frame.refl _ _
    | (intro _ _ _)
    | (intro _ _)
    | decide +kernel
    | with_reducible apply Frame.setB
    | with_reducible apply Frame.setF
    | with_reducible apply Frame.step (setAxis_frame ..)
    | with_reducible apply Frame.step (updSld_frame ..)

def W.axisOverrun : Nat := fm [F.SLD_STATUS_HOMED] ||| W.axisFault ||| W.updSld

theorem axisOverrun_frame (s : State) (h : Nat) : Frame W.axisOverrun s (State.axisOverrun s h) := by
  unfold State.axisOverrun
  repeat' first
    | with_reducible assumption
    | with_reducible exact Frame.refl _ _
    | (intro _ _ _)
    | (intro _ _)
    | decide +kernel
    | with_reducible apply Frame.setB
    | with_reducible apply Frame.step (axisFault_frame ..)
    | with_reducible apply Frame.step (updSld_frame ..)
    | with_reducible apply Frame.ite
    | split
    | (dsimp only; split)

def W.axisOn : Nat := W.setAxis ||| W.updSld

theorem axisOn_frame (s : State) (h : Nat) : Frame W.axisOn s (State.axisOn s h) := by
  unfold State.axisOn
  repeat' first
    | with_reducible assumption
    | with_reducible exact Frame.refl _ _
    | (intro _ _ _)
    | (intro _ _)
    | decide +kernel
    | with_reducible apply Frame.step (setAxis_frame ..)
    | with_reducible apply Frame.step (updSld_frame ..)
    | with_reducible apply Frame.ite
    | split
    | (dsimp only; split)

def W.axisHeadParked : Nat := W.toPark

theorem axisHeadParked_frame (s : State) (h : Nat) : Frame W.axisHeadParked s (State.axisHeadParked s h) := by
  unfold State.axisHeadParked
  repeat' first
    | with_reducible assumption
    | with_reducible exact Frame.refl _ _
    | decide +kernel
    | with_reducible apply Frame.step (toPark_frame ..)
    | with_reducible apply Frame.ite
    | split
    | (dsimp only; split)

def W.axisHeadSafe : Nat := W.axisFault ||| W.toPark

theorem axisHeadSafe_frame (s : State) (h : Nat) : Frame W.axisHeadSafe s (State.axisHeadSafe s h) := by
  unfold State.axisHeadSafe
  repeat' first
    | with_reducible assumption
    | with_reducible exact Frame.refl _ _
    | decide +kernel
    | with_reducible apply Frame.step (axisFault_frame ..)
    | with_reducible apply Frame.step (toPark_frame ..)
    | with_reducible apply Frame.ite
    | split
    | (dsimp only; split)

def W.axisHeadOff : Nat := W.axisOff

theorem axisHeadOff_frame (s : State) (h : Nat) : Frame W.axisHeadOff s (State.axisHeadOff s h) := by
  unfold State.axisHeadOff
  repeat' first
    | with_reducible assumption
    | with_reducible exact Frame.refl _ _
    | decide +kernel
    | with_reducible apply Frame.step (axisOff_frame ..)
    | with_reducible apply Frame.ite
    | split
    | (dsimp only; split)

def W.profEvents : Nat := em [E.SLD_DECEL_LIMIT, E.SLD_DECEL_RAISED, E.SLD_OVERSHOOT] ||| W.updSld ||| fm
    [F.SLD_EVT_AXES_AXIS]

theorem profEvents_frame (s : State) (h : Nat) (r : ProfStep) : Frame W.profEvents s (State.profEvents s h r) := by
  unfold State.profEvents
  repeat' first
    | with_reducible assumption
    | with_reducible exact Frame.refl _ _
    | (intro _ _ _)
    | (intro _ _)
    | decide +kernel
    | (with_reducible apply Frame.onlyIf; rotate_left; intro _ _)
    | with_reducible apply Frame.step (updSld_frame ..)
    | with_reducible apply raiseSld_fr

def W.runProfile : Nat := W.profEvents ||| W.updSld

theorem runProfile_frame (s : State) (h : Nat) : Frame W.runProfile s (State.runProfile s h).1 := by
  unfold State.runProfile
  repeat' first
    | with_reducible assumption
    | with_reducible exact Frame.refl _ _
    | (intro _ _ _)
    | (intro _ _)
    | decide +kernel
    | with_reducible apply Frame.step (profEvents_frame ..)
    | with_reducible apply Frame.step (updSld_frame ..)

def W.homePhase : Nat := fm [F.SLD_STATUS_PHASE] ||| W.updSld

theorem homePhase_frame (s : State) (h ph : Nat) (x : Int) (trip : Bool) : Frame W.homePhase s (State.homePhase s h ph x trip)
    := by
  unfold State.homePhase
  repeat' first
    | with_reducible assumption
    | with_reducible exact Frame.refl _ _
    | (intro _ _ _)
    | (intro _ _)
    | decide +kernel
    | with_reducible apply Frame.setF
    | with_reducible apply Frame.step (updSld_frame ..)

def W.startHoming : Nat := W.homePhase ||| W.setAxis ||| W.updSld

theorem startHoming_frame (s : State) (h : Nat) : Frame W.startHoming s (State.startHoming s h) := by
  unfold State.startHoming
  repeat' first
    | with_reducible assumption
    | with_reducible exact Frame.refl _ _
    | (intro _ _ _)
    | (intro _ _)
    | decide +kernel
    | with_reducible apply Frame.step (homePhase_frame ..)
    | with_reducible apply Frame.step (setAxis_frame ..)
    | with_reducible apply Frame.step (updSld_frame ..)
    | with_reducible apply Frame.ite
    | split
    | (dsimp only; split)

def W.homeTravel : Nat := fm [F.SLD_HOME_STATUS_TRAVEL]

theorem homeTravel_frame (s : State) (h : Nat) : Frame W.homeTravel s (State.homeTravel s h) := by
  unfold State.homeTravel
  repeat' first
    | with_reducible assumption
    | with_reducible exact Frame.refl _ _
    | decide +kernel
    | with_reducible apply Frame.setF

def W.homeFail : Nat := em [E.SLD_HOME_FAIL] ||| W.axisFault ||| W.homeTravel ||| fm [F.SLD_EVT_AXES_AXIS]

theorem homeFail_frame (s : State) (h : Nat) : Frame W.homeFail s (State.homeFail s h) := by
  unfold State.homeFail
  repeat' first
    | with_reducible assumption
    | with_reducible exact Frame.refl _ _
    | decide +kernel
    | with_reducible apply Frame.step (axisFault_frame ..)
    | with_reducible apply Frame.step (homeTravel_frame ..)
    | with_reducible apply raiseSld_fr

def W.homeArrive : Nat := fm [F.SLD_STATUS_HOMED, F.SLD_STATUS_PHASE] ||| em [E.SLD_HOME_DONE] ||| W.homeFail ||| W.homePhase
    ||| W.homeTravel ||| W.toPark ||| fm [F.SLD_EVT_AXES_AXIS]

theorem homeArrive_frame (s : State) (h : Nat) : Frame W.homeArrive s (State.homeArrive s h).1 := by
  unfold State.homeArrive
  repeat' first
    | with_reducible assumption
    | with_reducible exact Frame.refl _ _
    | (intro _ _ _)
    | (intro _ _)
    | decide +kernel
    | with_reducible apply Frame.setB
    | with_reducible apply Frame.setF
    | with_reducible apply Frame.step (homeFail_frame ..)
    | with_reducible apply Frame.step (homePhase_frame ..)
    | with_reducible apply Frame.step (homeTravel_frame ..)
    | with_reducible apply Frame.step (toPark_frame ..)
    | with_reducible apply raiseSld_fr
    | with_reducible apply Frame.ite
    | split
    | (dsimp only; split)

def W.homeFound : Nat := W.updSld

theorem homeFound_frame (s : State) (h : Nat) : Frame W.homeFound s (State.homeFound s h) := by
  unfold State.homeFound
  repeat' first
    | with_reducible assumption
    | with_reducible exact Frame.refl _ _
    | (intro _ _ _)
    | (intro _ _)
    | decide +kernel
    | with_reducible apply Frame.step (updSld_frame ..)

def W.homeSwitch : Nat := W.homeFound ||| W.homePhase ||| W.updSld

theorem homeSwitch_frame (s : State) (h : Nat) (active : Bool) : Frame W.homeSwitch s (State.homeSwitch s h active) := by
  unfold State.homeSwitch
  repeat' first
    | with_reducible assumption
    | with_reducible exact Frame.refl _ _
    | (intro _ _ _)
    | (intro _ _)
    | decide +kernel
    | with_reducible apply Frame.step (homeFound_frame ..)
    | with_reducible apply Frame.step (homePhase_frame ..)
    | with_reducible apply Frame.step (updSld_frame ..)
    | split
    | (dsimp only; split)

def W.takeTargets : Nat := fm [F.SLD_FOLLOW_DISCARDS, F.SLD_FOLLOW_DONE] ||| em [E.SLD_FOLLOW_DISCARD] ||| W.setTarget |||
    W.updSld ||| fm [F.SLD_EVT_AXES_AXIS]

theorem takeTargets_frame (s : State) (h : Nat) : Frame W.takeTargets s (State.takeTargets s h) := by
  unfold State.takeTargets
  repeat' first
    | with_reducible assumption
    | with_reducible exact Frame.refl _ _
    | (intro _ _ _)
    | (intro _ _)
    | decide +kernel
    | with_reducible apply Frame.count
    | with_reducible apply Frame.step (setTarget_frame ..)
    | with_reducible apply Frame.step (updSld_frame ..)
    | with_reducible apply raiseSld_fr
    | with_reducible apply Frame.ite
    | split
    | (dsimp only; split)

def W.deliverAcc : Nat := fm [F.SLD_ACC_A]

theorem deliverAcc_frame (s : State) (h : Nat) : Frame W.deliverAcc s (State.deliverAcc s h) := by
  unfold State.deliverAcc
  repeat' first
    | with_reducible assumption
    | with_reducible exact Frame.refl _ _
    | (intro _ _ _)
    | (intro _ _)
    | decide +kernel
    | with_reducible apply Frame.setF

def W.axisStep : Nat := W.beginMove ||| W.deliverAcc ||| W.homeArrive ||| W.runProfile ||| W.setAxis ||| W.setSld |||
    W.takeTargets ||| W.updSld

theorem axisStep_frame (s : State) (h : Nat) : Frame W.axisStep s (State.axisStep s h).1 := by
  unfold State.axisStep
  repeat' first
    | with_reducible assumption
    | with_reducible exact Frame.refl _ _
    | (intro _ _ _)
    | (intro _ _)
    | decide +kernel
    | with_reducible apply Frame.step (beginMove_frame ..)
    | with_reducible apply Frame.step (deliverAcc_frame ..)
    | with_reducible apply Frame.step (homeArrive_frame ..)
    | with_reducible apply Frame.step (runProfile_frame ..)
    | with_reducible apply Frame.step (setAxis_frame ..)
    | with_reducible apply Frame.step (setSld_frame ..)
    | with_reducible apply Frame.step (takeTargets_frame ..)
    | with_reducible apply Frame.step (updSld_frame ..)
    | with_reducible apply Frame.ite
    | with_reducible refine Frame.ofPair (by assumption) ?_
    | split
    | (dsimp only; split)

def W.limitSample : Nat := fm [F.SLD_STATUS_RAW] ||| W.updSld

theorem limitSample_frame (s : State) (h : Nat) (v : Option Bool) : Frame W.limitSample s (State.limitSample s h v) := by
  unfold State.limitSample
  repeat' first
    | with_reducible assumption
    | with_reducible exact Frame.refl _ _
    | (intro _ _ _)
    | (intro _ _)
    | decide +kernel
    | with_reducible apply Frame.setB
    | with_reducible apply Frame.step (updSld_frame ..)
    | with_reducible apply Frame.ite
    | split
    | (dsimp only; split)

def W.chatter : Nat := fm [F.SLD_HOME_STATUS_TRANS] ||| em [E.SLD_HOME_CHATTER] ||| W.axisFault ||| W.homeTravel ||| fm
    [F.SLD_EVT_AXES_AXIS]

theorem chatter_frame (s : State) (h : Nat) : Frame W.chatter s (State.chatter s h).1 := by
  unfold State.chatter
  repeat' first
    | with_reducible assumption
    | with_reducible exact Frame.refl _ _
    | (intro _ _ _)
    | (intro _ _)
    | decide +kernel
    | with_reducible apply Frame.keepMax
    | with_reducible apply Frame.step (axisFault_frame ..)
    | with_reducible apply Frame.step (homeTravel_frame ..)
    | with_reducible apply raiseSld_fr
    | with_reducible apply Frame.ite
    | split
    | (dsimp only; split)

end Sys2Proof.Laws
end

