-- ==== Sys2Proof/Laws/FrLrn.lean ====
section
/-!
SUPPORT. Frames of the operations of Machine/Lrn.lean: one law per operation, with the mask of what it may change.
-/
set_option Elab.async false
set_option linter.unusedTactic false
set_option linter.unreachableTactic false

namespace Sys2Proof.Laws

open Sys2Proof.Machine

def W.updLrn : Nat := W.setHead

theorem updLrn_frame (s : State) (h : Nat) (f : LrnS → LrnS) : Frame W.updLrn s (State.updLrn s h f) := by
  unfold State.updLrn
  repeat' first
    | with_reducible assumption
    | with_reducible exact Frame.refl _ _
    | decide +kernel
    | with_reducible apply Frame.step (setHead_frame ..)

def W.updLrnLoop : Nat := W.updLrn

theorem updLrnLoop_frame (s : State) (h i : Nat) (f : LrnLoopS → LrnLoopS) : Frame W.updLrnLoop s (State.updLrnLoop s h i f)
    := by
  unfold State.updLrnLoop
  repeat' first
    | with_reducible assumption
    | with_reducible exact Frame.refl _ _
    | (intro _ _ _)
    | (intro _ _)
    | decide +kernel
    | with_reducible apply Frame.step (updLrn_frame ..)

def W.lrnRead : Nat := em [E.LRN_ECC] ||| rm [R.LRN_ENTRY] ||| W.readEntry

theorem lrnRead_frame (s : State) (h i j : Nat) : Frame W.lrnRead s (State.lrnRead s h i j).1 := by
  unfold State.lrnRead
  repeat' first
    | with_reducible assumption
    | with_reducible exact Frame.refl _ _
    | decide +kernel
    | with_reducible apply raise_fr
    | with_reducible apply readEntry_fr
    | with_reducible refine Frame.ofPair (by assumption) ?_
    | split
    | (dsimp only; split)

def W.lrnWrite : Nat := rm [R.LRN_ENTRY] ||| W.goodCheck

theorem lrnWrite_frame (s : State) (h i j : Nat) (w : Int) : Frame W.lrnWrite s (State.lrnWrite s h i j w) := by
  unfold State.lrnWrite
  repeat' first
    | with_reducible assumption
    | with_reducible exact Frame.refl _ _
    | decide +kernel
    | with_reducible apply putEntry_fr

def W.lrnSat : Nat := fm [F.LRN_LOOP_STATUS_SAT] ||| em [E.LRN_SAT]

theorem lrnSat_frame (s : State) (h i : Nat) : Frame W.lrnSat s (State.lrnSat s h i) := by
  unfold State.lrnSat
  repeat' first
    | with_reducible assumption
    | with_reducible exact Frame.refl _ _
    | decide +kernel
    | with_reducible apply Frame.setB
    | with_reducible apply raise_fr
    | with_reducible refine Frame.ofPair (by assumption) ?_

def W.scaleEntry : Nat := rm [R.LRN_SCALE] ||| W.readEntryFree

theorem scaleEntry_frame (s : State) (i e : Nat) : Frame W.scaleEntry s (State.scaleEntry s i e).1 := by
  unfold State.scaleEntry
  repeat' first
    | with_reducible assumption
    | with_reducible exact Frame.refl _ _
    | (intro _ _ _)
    | (intro _ _)
    | decide +kernel
    | with_reducible apply readEntryFree_fr
    | with_reducible refine Frame.ofPair (by assumption) ?_

def W.lrnScale : Nat := W.lrnSat ||| W.scaleEntry

theorem lrnScale_frame (s : State) (h i : Nat) : Frame W.lrnScale s (State.lrnScale s h i).1 := by
  unfold State.lrnScale
  repeat' first
    | with_reducible assumption
    | with_reducible exact Frame.refl _ _
    | (intro _ _ _)
    | (intro _ _)
    | decide +kernel
    | (with_reducible apply Frame.onlyIf; rotate_left; intro _ _)
    | with_reducible apply Frame.step (lrnSat_frame ..)
    | with_reducible apply Frame.step (scaleEntry_frame ..)
    | with_reducible refine Frame.ofPair (by assumption) ?_

def W.lrnAngle : Nat := fm [F.LRN_STATUS_XTRAP] ||| em [E.LRN_ANGLE_FADE] ||| W.updLrn

theorem lrnAngle_frame (s : State) (h : Nat) : Frame W.lrnAngle s (State.lrnAngle s h) := by
  unfold State.lrnAngle
  repeat' first
    | with_reducible assumption
    | with_reducible exact Frame.refl _ _
    | (intro _ _ _)
    | (intro _ _)
    | decide +kernel
    | (with_reducible apply Frame.onlyIf; rotate_left; intro _ _)
    | with_reducible apply Frame.setB
    | with_reducible apply Frame.step (updLrn_frame ..)
    | with_reducible apply raise_fr
    | with_reducible apply Frame.ite
    | with_reducible refine Frame.ofPair (by assumption) ?_
    | split
    | (dsimp only; split)

def W.lrnFadeStep : Nat := W.updLrnLoop

theorem lrnFadeStep_frame (s : State) (h i : Nat) : Frame W.lrnFadeStep s (State.lrnFadeStep s h i) := by
  unfold State.lrnFadeStep
  repeat' first
    | with_reducible assumption
    | with_reducible exact Frame.refl _ _
    | (intro _ _ _)
    | (intro _ _)
    | decide +kernel
    | with_reducible apply Frame.step (updLrnLoop_frame ..)

def W.lrnInject : Nat := fm [F.LRN_INJ_LRN, F.LRN_STATUS_PSI] ||| W.lrnRead

theorem lrnInject_frame (s : State) (h i : Nat) (g : Int) : Frame W.lrnInject s (State.lrnInject s h i g) := by
  unfold State.lrnInject
  repeat' first
    | with_reducible assumption
    | with_reducible exact Frame.refl _ _
    | (intro _ _ _)
    | (intro _ _)
    | decide +kernel
    | with_reducible apply Frame.setF
    | with_reducible apply Frame.step (lrnRead_frame ..)
    | with_reducible refine Frame.ofPair (by assumption) ?_

def W.lrnRevEnd : Nat := fm [F.LRN_LOOP_STATUS_RESID, F.LRN_LOOP_STATUS_REVS] ||| W.updLrnLoop

theorem lrnRevEnd_frame (s : State) (h i : Nat) : Frame W.lrnRevEnd s (State.lrnRevEnd s h i) := by
  unfold State.lrnRevEnd
  repeat' first
    | with_reducible assumption
    | with_reducible exact Frame.refl _ _
    | (intro _ _ _)
    | (intro _ _)
    | decide +kernel
    | with_reducible apply Frame.count
    | with_reducible apply Frame.setF
    | with_reducible apply Frame.step (updLrnLoop_frame ..)
    | with_reducible apply Frame.ite
    | split
    | (dsimp only; split)

def W.lrnUpdate : Nat := fm [F.LRN_LOOP_STATUS_EMPTY] ||| W.lrnRead ||| W.lrnRevEnd ||| W.lrnSat ||| W.lrnWrite |||
    W.updLrnLoop

theorem lrnUpdate_frame (s : State) (h i : Nat) (m : LrnTick) : Frame W.lrnUpdate s (State.lrnUpdate s h i m) := by
  unfold State.lrnUpdate
  repeat' first
    | with_reducible assumption
    | with_reducible exact Frame.refl _ _
    | (intro _ _ _)
    | (intro _ _)
    | decide +kernel
    | (with_reducible apply Frame.onlyIf; rotate_left; intro _ _)
    | with_reducible apply Frame.setB
    | with_reducible apply Frame.step (lrnRead_frame ..)
    | with_reducible apply Frame.step (lrnRevEnd_frame ..)
    | with_reducible apply Frame.step (lrnSat_frame ..)
    | with_reducible apply Frame.step (lrnWrite_frame ..)
    | with_reducible apply Frame.step (updLrnLoop_frame ..)
    | with_reducible apply Frame.ite
    | with_reducible refine Frame.ofPair (by assumption) ?_
    | split
    | (dsimp only; split)

def W.lrnLearn : Nat := fm [F.LRN_STATUS_FROZEN] ||| W.lrnUpdate ||| W.updLrnLoop

theorem lrnLearn_frame (s : State) (h i : Nat) : Frame W.lrnLearn s (State.lrnLearn s h i) := by
  unfold State.lrnLearn
  repeat' first
    | with_reducible assumption
    | with_reducible exact Frame.refl _ _
    | (intro _ _ _)
    | (intro _ _)
    | decide +kernel
    | with_reducible apply Frame.putF
    | with_reducible apply Frame.step (lrnUpdate_frame ..)
    | with_reducible apply Frame.step (updLrnLoop_frame ..)
    | split
    | (dsimp only; split)

def W.undoCell : Nat := fm [F.LRN_EVT_ECC, F.LRN_EVT_SAT, F.LRN_LOOP_STATUS_SAT]

theorem undoCell_fr {m : Nat} {r s : State} (h : Frame m r s) (c : RegCell) (hc : m.testBit c.fld.id = true) : Frame m r (s.undoCell c) := by
  unfold State.undoCell
  split
  · exact h.setF hc ..
  · exact h.setF hc ..

def W.lrnSkip : Nat := 2 ^ 11 ||| W.updLrnLoop ||| fm lrnUndoFields ||| 2 ^ 11

theorem lrnSkip_frame (s : State) (h i : Nat) : Frame W.lrnSkip s (s.lrnSkip h i) := by
  have hl : ∀ f ∈ lrnUndoFields, W.lrnSkip.testBit f.id = true := by decide +kernel
  unfold State.lrnSkip
  dsimp only
  refine (updLrnLoop_frame ..).step ?_ (by decide +kernel)
  refine Frame.upd (Frame.forEachMem (Frame.refl _ _) fun t x hx ht => undoCell_fr ht x (hl x.fld ?_)) rfl (.inl rfl) (.inl rfl)
    (.inl rfl) (.inl rfl) (.inl rfl) (.inl rfl) (.inl rfl) (.inl rfl) (.inl rfl) (.inl rfl) (.inr ⟨by decide +kernel, rfl, rfl⟩)
    (.inl rfl) (.inl rfl) (.inl rfl) (.inl rfl) (.inl rfl) (.inl rfl)
  simpa using (List.mem_filter.1 hx).2

def W.lrnDefect : Nat := W.updLrn

theorem lrnDefect_frame (s : State) (h : Nat) (sum : Option Int) (shock : Bool) : Frame W.lrnDefect s (State.lrnDefect s h sum
    shock) := by
  unfold State.lrnDefect
  repeat' first
    | with_reducible assumption
    | with_reducible exact Frame.refl _ _
    | (intro _ _ _)
    | (intro _ _)
    | decide +kernel
    | with_reducible apply Frame.step (updLrn_frame ..)
    | with_reducible apply Frame.ite
    | split
    | (dsimp only; split)

def W.lrnCopyStep : Nat := em [E.LRN_ECC] ||| rm [R.LRN_ENTRY] ||| W.goodCheck ||| W.readEntry ||| W.updLrnLoop

theorem lrnCopyStep_frame (s : State) (h i : Nat) : Frame W.lrnCopyStep s (State.lrnCopyStep s h i) := by
  unfold State.lrnCopyStep
  repeat' first
    | with_reducible assumption
    | with_reducible exact Frame.refl _ _
    | (intro _ _ _)
    | (intro _ _)
    | decide +kernel
    | (with_reducible apply Frame.forEach; rotate_left; intro _ _ _)
    | with_reducible apply Frame.step (updLrnLoop_frame ..)
    | with_reducible apply putEntry_fr
    | with_reducible apply raise_fr
    | with_reducible apply readEntry_fr
    | with_reducible apply Frame.ite
    | with_reducible refine Frame.ofPair (by assumption) ?_
    | split
    | (dsimp only; split)

def W.lrnInjectTick : Nat := W.lrnFadeStep ||| W.lrnInject ||| W.lrnScale ||| W.updLrnLoop

theorem lrnInjectTick_frame (s : State) (h i : Nat) (x : LrnIn) (bad : Bool) : Frame W.lrnInjectTick s (State.lrnInjectTick s
    h i x bad) := by
  unfold State.lrnInjectTick
  repeat' first
    | with_reducible assumption
    | with_reducible exact Frame.refl _ _
    | (intro _ _ _)
    | (intro _ _)
    | decide +kernel
    | with_reducible apply Frame.step (lrnFadeStep_frame ..)
    | with_reducible apply Frame.step (lrnInject_frame ..)
    | with_reducible apply Frame.step (lrnScale_frame ..)
    | with_reducible apply Frame.step (updLrnLoop_frame ..)
    | with_reducible refine Frame.ofPair (by assumption) ?_

def W.lrnTick : Nat := W.lrnAngle ||| W.lrnCopyStep ||| W.lrnDefect ||| W.lrnInjectTick ||| W.lrnLearn

theorem lrnTick_frame (s : State) (h : Nat) (f t : LrnIn) (sum : Option Int) (shock bad : Bool) : Frame W.lrnTick s
    (State.lrnTick s h f t sum shock bad) := by
  unfold State.lrnTick
  repeat' first
    | with_reducible assumption
    | with_reducible exact Frame.refl _ _
    | (intro _ _ _)
    | (intro _ _)
    | decide +kernel
    | with_reducible apply Frame.step (lrnAngle_frame ..)
    | with_reducible apply Frame.step (lrnCopyStep_frame ..)
    | with_reducible apply Frame.step (lrnDefect_frame ..)
    | with_reducible apply Frame.step (lrnInjectTick_frame ..)
    | with_reducible apply Frame.step (lrnLearn_frame ..)

def W.lrnFreezeNow : Nat := W.updLrnLoop

theorem lrnFreezeNow_frame (s : State) (h : Nat) : Frame W.lrnFreezeNow s (State.lrnFreezeNow s h) := by
  unfold State.lrnFreezeNow
  repeat' first
    | with_reducible assumption
    | with_reducible exact Frame.refl _ _
    | (intro _ _ _)
    | (intro _ _)
    | decide +kernel
    | (with_reducible apply Frame.forEach; rotate_left; intro _ _ _)
    | with_reducible apply Frame.step (updLrnLoop_frame ..)

def W.lrnWipe : Nat := fm [F.LRN_LOOP_STATUS_EMPTY, F.LRN_LOOP_STATUS_RESID, F.LRN_LOOP_STATUS_REVS, F.LRN_LOOP_STATUS_SEEDED]
    ||| em [E.LRN_CLEARED] ||| 2 ^ 11 ||| W.updLrnLoop ||| fm [F.LRN_ENTRY_W] ||| 2 ^ 11

theorem lrnWipe_frame (s : State) (h i : Nat) : Frame W.lrnWipe s (s.lrnWipe h i) := by
  unfold State.lrnWipe
  refine raise_fr ?_ (by decide +kernel) _
  refine (updLrnLoop_frame ..).step ?_ (by decide +kernel)
  refine ((((Frame.upd (t := { s with regs := s.regs.filter _ }) (Frame.dropRegs (Frame.refl _ _) _ ?_) rfl
    ?_ ?_ ?_ ?_ ?_ ?_ ?_ ?_ ?_ ?_ ?_ ?_ ?_ ?_ ?_ ?_ ?_).setB (by decide +kernel) ..).setB (by decide +kernel) ..).setF
    (by decide +kernel) ..).setF (by decide +kernel) ..
  · intro c _ hc
    have : c.fld.id ≠ F.LRN_ENTRY_W.id := by
      intro e
      rw [e] at hc
      exact absurd hc (by decide +kernel)
    simp [this]
  all_goals first | with_reducible exact Or.inl rfl | exact Or.inr ⟨by decide +kernel, rfl, rfl⟩ | exact Or.inr (by decide +kernel)

def W.lrnClear : Nat := em [E.LRN_SEED_REFUSED] ||| W.lrnWipe

theorem lrnClear_frame (s : State) (h i : Nat) : Frame W.lrnClear s (State.lrnClear s h i) := by
  unfold State.lrnClear
  repeat' first
    | with_reducible assumption
    | with_reducible exact Frame.refl _ _
    | (intro _ _ _)
    | (intro _ _)
    | decide +kernel
    | with_reducible apply Frame.step (lrnWipe_frame ..)
    | with_reducible apply raise_fr
    | with_reducible apply Frame.ite
    | with_reducible refine Frame.ofPair (by assumption) ?_
    | split
    | (dsimp only; split)

def W.lrnClearDeck : Nat := W.lrnWipe

theorem lrnClearDeck_frame (s : State) (d : Nat) : Frame W.lrnClearDeck s (State.lrnClearDeck s d) := by
  unfold State.lrnClearDeck
  repeat' first
    | with_reducible assumption
    | with_reducible exact Frame.refl _ _
    | (intro _ _ _)
    | (intro _ _)
    | decide +kernel
    | (with_reducible apply Frame.forEach; rotate_left; intro _ _ _)
    | with_reducible apply Frame.step (lrnWipe_frame ..)

def W.seedStart : Nat := W.updLrnLoop

theorem seedStart_frame (s : State) (h i src : Nat) : Frame W.seedStart s (State.seedStart s h i src) := by
  unfold State.seedStart
  repeat' first
    | with_reducible assumption
    | with_reducible exact Frame.refl _ _
    | (intro _ _ _)
    | (intro _ _)
    | decide +kernel
    | with_reducible apply Frame.step (updLrnLoop_frame ..)

def W.autoSeed : Nat := W.seedStart

theorem autoSeed_frame (s : State) (h i : Nat) : Frame W.autoSeed s (State.autoSeed s h i) := by
  unfold State.autoSeed
  repeat' first
    | with_reducible assumption
    | with_reducible exact Frame.refl _ _
    | (intro _ _ _)
    | (intro _ _)
    | decide +kernel
    | with_reducible apply Frame.step (seedStart_frame ..)
    | with_reducible apply Frame.ite
    | split
    | (dsimp only; split)

def W.takeoverSeed : Nat := W.seedStart ||| W.updLrnLoop

theorem takeoverSeed_frame (s : State) (h p : Nat) : Frame W.takeoverSeed s (State.takeoverSeed s h p) := by
  unfold State.takeoverSeed
  repeat' first
    | with_reducible assumption
    | with_reducible exact Frame.refl _ _
    | (intro _ _ _)
    | (intro _ _)
    | decide +kernel
    | (with_reducible apply Frame.forEach; rotate_left; intro _ _ _)
    | with_reducible apply Frame.step (seedStart_frame ..)
    | with_reducible apply Frame.step (updLrnLoop_frame ..)
    | with_reducible apply Frame.ite
    | split
    | (dsimp only; split)

def W.seedDone : Nat := fm [F.LRN_LOOP_STATUS_EMPTY, F.LRN_LOOP_STATUS_RESID, F.LRN_LOOP_STATUS_REVS,
    F.LRN_LOOP_STATUS_SEEDED] ||| em [E.LRN_SEED_DONE] ||| W.updLrnLoop

theorem seedDone_frame (s : State) (h i : Nat) : Frame W.seedDone s (State.seedDone s h i) := by
  unfold State.seedDone
  repeat' first
    | with_reducible assumption
    | with_reducible exact Frame.refl _ _
    | (intro _ _ _)
    | (intro _ _)
    | decide +kernel
    | with_reducible apply Frame.setB
    | with_reducible apply Frame.setF
    | with_reducible apply Frame.step (updLrnLoop_frame ..)
    | with_reducible apply raise_fr
    | with_reducible refine Frame.ofPair (by assumption) ?_

def W.lrnEnter : Nat := W.autoSeed ||| W.updLrn

theorem lrnEnter_frame (s : State) (h old new : Nat) : Frame W.lrnEnter s (State.lrnEnter s h old new) := by
  unfold State.lrnEnter
  repeat' first
    | with_reducible assumption
    | with_reducible exact Frame.refl _ _
    | (intro _ _ _)
    | (intro _ _)
    | decide +kernel
    | with_reducible apply Frame.step (autoSeed_frame ..)
    | with_reducible apply Frame.step (updLrn_frame ..)
    | with_reducible apply Frame.ite
    | split
    | (dsimp only; split)

end Sys2Proof.Laws
end

