-- ==== Sys2Proof/Laws/FrRx.lean ====
section
/-!
SUPPORT. Frames of the operations of Machine/Rx.lean: one law per operation, with the mask of what it may change.
-/
set_option Elab.async false
set_option linter.unusedTactic false
set_option linter.unreachableTactic false

namespace Sys2Proof.Laws

open Sys2Proof.Machine

def W.updChan : Nat := 2 ^ 9

theorem updChan_frame (s : State) (c : Nat) (f : ChanS → ChanS) : Frame W.updChan s (State.updChan s c f) := by
  unfold State.updChan
  repeat' first
    | with_reducible assumption
    | with_reducible exact Frame.refl _ _
    | decide +kernel
    | (with_reducible refine Frame.upd ?_ rfl ?_ ?_ ?_ ?_ ?_ ?_ ?_ ?_ ?_ ?_ ?_ ?_ ?_ ?_ ?_ ?_ ?_ <;>
        first | with_reducible exact Or.inl rfl | with_reducible exact Or.inr ⟨by decide +kernel, Nat.mod_lt _ (Nat.two_pow_pos 48)⟩ |
          exact Or.inr ⟨by decide +kernel, rfl, rfl⟩ | exact Or.inr ⟨by decide +kernel, rfl⟩ |
          exact Or.inr (by decide +kernel) | skip)

def W.updRx : Nat := W.updChan

theorem updRx_frame (s : State) (c : Nat) (f : RxS → RxS) : Frame W.updRx s (State.updRx s c f) := by
  unfold State.updRx
  repeat' first
    | with_reducible assumption
    | with_reducible exact Frame.refl _ _
    | (intro _ _ _)
    | (intro _ _)
    | decide +kernel
    | with_reducible apply Frame.step (updChan_frame ..)

def W.dropRuns : Nat := fm [F.CHN_STATUS_DEFECT] ||| W.updRx

theorem dropRuns_frame (s : State) (c num env : Nat) : Frame W.dropRuns s (State.dropRuns s c num env) := by
  unfold State.dropRuns
  repeat' first
    | with_reducible assumption
    | with_reducible exact Frame.refl _ _
    | (intro _ _ _)
    | (intro _ _)
    | decide +kernel
    | with_reducible apply Frame.setB
    | with_reducible apply Frame.step (updRx_frame ..)
    | with_reducible apply Frame.ite
    | split
    | (dsimp only; split)

def W.dropBegin : Nat := fm [F.CHN_DEF_STATS_DEFECTS, F.CHN_STATUS_DEFECT] ||| em [E.CHN_DEFECT] ||| W.updRx ||| fm
    [F.CHN_EVT_CHANS_CHAN]

theorem dropBegin_frame (s : State) (c : Nat) : Frame W.dropBegin s (State.dropBegin s c) := by
  unfold State.dropBegin
  repeat' first
    | with_reducible assumption
    | with_reducible exact Frame.refl _ _
    | (intro _ _ _)
    | (intro _ _)
    | decide +kernel
    | with_reducible apply Frame.count
    | with_reducible apply Frame.setB
    | with_reducible apply Frame.step (updRx_frame ..)
    | with_reducible apply raiseChn_fr
    | with_reducible apply Frame.ite
    | split
    | (dsimp only; split)

def W.adaptTaps : Nat := fm [F.CHN_EQ_TAP_TAP] ||| em [E.CHN_EQ_SAT] ||| fm [F.CHN_EVT_CHANS_CHAN]

theorem adaptTaps_frame (s : State) (c : Nat) (e : Int) (win : List Int) : Frame W.adaptTaps s (State.adaptTaps s c e win) :=
    by
  unfold State.adaptTaps
  repeat' first
    | with_reducible assumption
    | with_reducible exact Frame.refl _ _
    | (intro _ _ _)
    | (intro _ _)
    | decide +kernel
    | (with_reducible apply Frame.forEach; rotate_left; intro _ _ _)
    | (with_reducible apply Frame.onlyIf; rotate_left; intro _ _)
    | with_reducible apply Frame.setF
    | with_reducible apply raiseChn_fr

def W.wobbleBit : Nat := W.updRx

theorem wobbleBit_frame (s : State) (c : Nat) (p : PendBit) (tent : List Bool) : Frame W.wobbleBit s (State.wobbleBit s c p
    tent) := by
  unfold State.wobbleBit
  repeat' first
    | with_reducible assumption
    | with_reducible exact Frame.refl _ _
    | (intro _ _ _)
    | (intro _ _)
    | decide +kernel
    | with_reducible apply Frame.step (updRx_frame ..)

def W.tentative : Nat := W.adaptTaps ||| W.updRx ||| W.wobbleBit

theorem tentative_frame (s : State) (c : Nat) : Frame W.tentative s (State.tentative s c) := by
  unfold State.tentative
  repeat' first
    | with_reducible assumption
    | with_reducible exact Frame.refl _ _
    | (intro _ _ _)
    | (intro _ _)
    | decide +kernel
    | (with_reducible apply Frame.onlyIf; rotate_left; intro _ _)
    | with_reducible apply Frame.step (adaptTaps_frame ..)
    | with_reducible apply Frame.step (updRx_frame ..)
    | with_reducible apply Frame.step (wobbleBit_frame ..)
    | with_reducible apply Frame.ite
    | split
    | (dsimp only; split)

def W.envAverage : Nat := W.updChan

theorem envAverage_frame (s : State) (c : Nat) (b : SoftBit) : Frame W.envAverage s (State.envAverage s c b) := by
  unfold State.envAverage
  repeat' first
    | with_reducible assumption
    | with_reducible exact Frame.refl _ _
    | (intro _ _ _)
    | (intro _ _)
    | decide +kernel
    | with_reducible apply Frame.step (updChan_frame ..)
    | with_reducible apply Frame.ite
    | split
    | (dsimp only; split)

def W.softOut : Nat := W.envAverage ||| W.updRx

theorem softOut_frame (s : State) (c : Nat) : Frame W.softOut s (State.softOut s c) := by
  unfold State.softOut
  repeat' first
    | with_reducible assumption
    | with_reducible exact Frame.refl _ _
    | (intro _ _ _)
    | (intro _ _)
    | decide +kernel
    | with_reducible apply Frame.step (envAverage_frame ..)
    | with_reducible apply Frame.step (updRx_frame ..)
    | with_reducible apply Frame.ite
    | split
    | (dsimp only; split)

def W.equalise : Nat := em [E.CHN_EQ_SAT] ||| W.softOut ||| W.tentative ||| W.updRx ||| fm [F.CHN_EVT_CHANS_CHAN]

theorem equalise_frame (s : State) (c : Nat) : Frame W.equalise s (State.equalise s c) := by
  unfold State.equalise
  repeat' first
    | with_reducible assumption
    | with_reducible exact Frame.refl _ _
    | (intro _ _ _)
    | (intro _ _)
    | decide +kernel
    | (with_reducible apply Frame.forEach; rotate_left; intro _ _ _)
    | (with_reducible apply Frame.onlyIf; rotate_left; intro _ _)
    | with_reducible apply Frame.step (softOut_frame ..)
    | with_reducible apply Frame.step (tentative_frame ..)
    | with_reducible apply Frame.step (updRx_frame ..)
    | with_reducible apply raiseChn_fr
    | with_reducible apply Frame.ite
    | (with_reducible apply Frame.foldl1; rotate_left; intro _ _ _)
    | (with_reducible apply Frame.foldl; rotate_left; intro _ _ _)
    | split
    | (dsimp only; split)

def W.rxBit : Nat := W.dropRuns ||| W.equalise ||| W.updRx

theorem rxBit_frame (s : State) (c nb : Nat) (r : Int) (bad : Bool) : Frame W.rxBit s (State.rxBit s c nb r bad) := by
  unfold State.rxBit
  repeat' first
    | with_reducible assumption
    | with_reducible exact Frame.refl _ _
    | (intro _ _ _)
    | (intro _ _)
    | decide +kernel
    | with_reducible apply Frame.step (dropRuns_frame ..)
    | with_reducible apply Frame.step (equalise_frame ..)
    | with_reducible apply Frame.step (updRx_frame ..)
    | (with_reducible apply Frame.foldl1; rotate_left; intro _ _ _)
    | (with_reducible apply Frame.foldl; rotate_left; intro _ _ _)

def W.rxBits : Nat := W.rxBit ||| W.updRx

theorem rxBits_frame (n : Nat) (s : State) (c before : Nat) : Frame W.rxBits s (State.rxBits n s c before) := by
  induction n generalizing s with
  | zero => exact Frame.refl _ _
  | succ n ih =>
    unfold State.rxBits
    dsimp only
    split
    · exact Frame.refl _ _
    · refine (ih _).step ?_ (by simp [subMask])
      exact (rxBit_frame ..).step ((updRx_frame ..).mono (by decide +kernel)) (by decide +kernel)

def W.rxWrap : Nat := fm [F.CHN_WOB_STATUS_PILLAR] ||| W.updRx

theorem rxWrap_frame (s : State) (c at_ before : Nat) : Frame W.rxWrap s (State.rxWrap s c at_ before) := by
  unfold State.rxWrap
  repeat' first
    | with_reducible assumption
    | with_reducible exact Frame.refl _ _
    | (intro _ _ _)
    | (intro _ _)
    | decide +kernel
    | with_reducible apply Frame.setF
    | with_reducible apply Frame.step (updRx_frame ..)
    | with_reducible apply Frame.ite
    | split
    | (dsimp only; split)

def W.rxSample : Nat := fm [F.CHN_WOB_STATUS_WOBBLE] ||| W.rxBits ||| W.rxWrap ||| W.updRx

theorem rxSample_frame (s : State) (c at_ : Nat) (v : Int) (bad : Bool) : Frame W.rxSample s (State.rxSample s c at_ v bad) :=
    by
  unfold State.rxSample
  repeat' first
    | with_reducible assumption
    | with_reducible exact Frame.refl _ _
    | (intro _ _ _)
    | (intro _ _)
    | decide +kernel
    | with_reducible apply Frame.setF
    | with_reducible apply Frame.step (rxBits_frame ..)
    | with_reducible apply Frame.step (rxWrap_frame ..)
    | with_reducible apply Frame.step (updRx_frame ..)
    | with_reducible apply Frame.ite
    | split
    | (dsimp only; split)

def W.rfItem : Nat := W.rxSample

theorem rfItem_frame (s : State) (c : Nat) (p : Popped) : Frame W.rfItem s (State.rfItem s c p) := by
  unfold State.rfItem
  repeat' first
    | with_reducible assumption
    | with_reducible exact Frame.refl _ _
    | (intro _ _ _)
    | (intro _ _)
    | decide +kernel
    | (with_reducible apply Frame.forEach; rotate_left; intro _ _ _)
    | with_reducible apply Frame.step (rxSample_frame ..)
    | with_reducible apply Frame.ite
    | split
    | (dsimp only; split)

def W.rfFlushed : Nat := W.updRx

theorem rfFlushed_frame (s : State) (c : Nat) : Frame W.rfFlushed s (State.rfFlushed s c) := by
  unfold State.rfFlushed
  repeat' first
    | with_reducible assumption
    | with_reducible exact Frame.refl _ _
    | (intro _ _ _)
    | (intro _ _)
    | decide +kernel
    | with_reducible apply Frame.step (updRx_frame ..)

end Sys2Proof.Laws
end

