-- ==== Sys2Proof/Laws/FrChn.lean ====
section
/-!
SUPPORT. Frames of the operations of Machine/Chn.lean: one law per operation, with the mask of what it may change.
-/
set_option Elab.async false
set_option linter.unusedTactic false
set_option linter.unreachableTactic false

namespace Sys2Proof.Laws

open Sys2Proof.Machine

def W.rateCheck : Nat := em [E.CHN_RATE_LIMIT] ||| W.updChan ||| fm [F.CHN_EVT_CHANS_CHAN]

theorem rateCheck_frame (s : State) (c : Nat) : Frame W.rateCheck s (State.rateCheck s c) := by
  unfold State.rateCheck
  repeat' first
    | with_reducible assumption
    | with_reducible exact Frame.refl _ _
    | (intro _ _ _)
    | (intro _ _)
    | decide +kernel
    | (with_reducible apply Frame.onlyIf; rotate_left; intro _ _)
    | with_reducible apply Frame.step (updChan_frame ..)
    | with_reducible apply raiseChn_fr
    | with_reducible apply Frame.ite
    | split
    | (dsimp only; split)

def W.keepDrift : Nat := W.updChan

theorem keepDrift_frame (s : State) (c : Nat) : Frame W.keepDrift s (State.keepDrift s c) := by
  unfold State.keepDrift
  repeat' first
    | with_reducible assumption
    | with_reducible exact Frame.refl _ _
    | (intro _ _ _)
    | (intro _ _)
    | decide +kernel
    | with_reducible apply Frame.step (updChan_frame ..)
    | with_reducible apply Frame.ite
    | split
    | (dsimp only; split)

def W.truncate : Nat := fm [F.CHN_TRUNC_TRUNC] ||| em [E.CHN_TRUNC] ||| W.updChan ||| fm [F.CHN_EVT_CHANS_CHAN]

theorem truncate_frame (s : State) (c : Nat) : Frame W.truncate s (State.truncate s c) := by
  unfold State.truncate
  repeat' first
    | with_reducible assumption
    | with_reducible exact Frame.refl _ _
    | (intro _ _ _)
    | (intro _ _)
    | decide +kernel
    | with_reducible apply Frame.count
    | with_reducible apply Frame.step (updChan_frame ..)
    | with_reducible apply raiseChn_fr
    | with_reducible apply Frame.ite
    | split
    | (dsimp only; split)

def W.chanWait : Nat := fm [F.CHN_STATUS_STATE, F.CHN_STATUS_WOB_LOCK] ||| W.truncate

theorem chanWait_frame (s : State) (c : Nat) : Frame W.chanWait s (State.chanWait s c) := by
  unfold State.chanWait
  repeat' first
    | with_reducible assumption
    | with_reducible exact Frame.refl _ _
    | decide +kernel
    | with_reducible apply Frame.setB
    | with_reducible apply Frame.setF
    | with_reducible apply Frame.step (truncate_frame ..)

def W.chanOff : Nat := fm [F.CHN_STATUS_STATE, F.CHN_STATUS_WOB_LOCK] ||| W.truncate

theorem chanOff_frame (s : State) (c : Nat) : Frame W.chanOff s (State.chanOff s c) := by
  unfold State.chanOff
  repeat' first
    | with_reducible assumption
    | with_reducible exact Frame.refl _ _
    | decide +kernel
    | with_reducible apply Frame.setB
    | with_reducible apply Frame.setF
    | with_reducible apply Frame.step (truncate_frame ..)

def W.chanFollow : Nat := W.chanWait ||| W.truncate

theorem chanFollow_frame (s : State) (h : Nat) : Frame W.chanFollow s (State.chanFollow s h) := by
  unfold State.chanFollow
  repeat' first
    | with_reducible assumption
    | with_reducible exact Frame.refl _ _
    | (intro _ _ _)
    | (intro _ _)
    | decide +kernel
    | (with_reducible apply Frame.forEach; rotate_left; intro _ _ _)
    | with_reducible apply Frame.step (chanWait_frame ..)
    | with_reducible apply Frame.step (truncate_frame ..)
    | with_reducible apply Frame.ite
    | split
    | (dsimp only; split)

def W.loadZone : Nat := fm [F.CHN_CORR_ASYM_ASYM, F.CHN_CORR_GAIN, F.CHN_CORR_OFS] ||| em [E.CHN_TABLE_ECC] ||| rm
    [R.CHN_ZONE] ||| W.readEntry ||| fm [F.CHN_EVT_CHANS_CHAN]

theorem loadZone_frame (s : State) (c l z : Nat) : Frame W.loadZone s (State.loadZone s c l z) := by
  unfold State.loadZone
  repeat' first
    | with_reducible assumption
    | with_reducible exact Frame.refl _ _
    | decide +kernel
    | with_reducible apply Frame.setF
    | with_reducible apply raiseChn_fr
    | with_reducible apply readEntry_fr
    | with_reducible refine Frame.ofPair (by assumption) ?_
    | split
    | (dsimp only; split)

def W.loadTaps : Nat := fm [F.CHN_EQ_TAP_TAP] ||| em [E.CHN_TABLE_ECC] ||| rm [R.CHN_EQ_START] ||| W.readEntry ||| fm
    [F.CHN_EVT_CHANS_CHAN]

theorem loadTaps_frame (s : State) (c z : Nat) : Frame W.loadTaps s (State.loadTaps s c z) := by
  unfold State.loadTaps
  repeat' first
    | with_reducible assumption
    | with_reducible exact Frame.refl _ _
    | (intro _ _ _)
    | (intro _ _)
    | decide +kernel
    | (with_reducible apply Frame.forEach; rotate_left; intro _ _ _)
    | with_reducible apply Frame.setF
    | with_reducible apply raiseChn_fr
    | with_reducible apply readEntry_fr
    | with_reducible apply Frame.ite
    | (with_reducible apply Frame.foldl1; rotate_left; intro _ _ _)
    | (with_reducible apply Frame.foldl; rotate_left; intro _ _ _)
    | with_reducible refine Frame.ofPair (by assumption) ?_
    | split
    | (dsimp only; split)

def W.applyZone : Nat := fm [F.CHN_STATUS_LAYER, F.CHN_STATUS_ZONE] ||| W.loadTaps ||| W.loadZone ||| W.rateCheck |||
    W.updChan

theorem applyZone_frame (s : State) (c : Nat) : Frame W.applyZone s (State.applyZone s c) := by
  unfold State.applyZone
  repeat' first
    | with_reducible assumption
    | with_reducible exact Frame.refl _ _
    | (intro _ _ _)
    | (intro _ _)
    | decide +kernel
    | (with_reducible apply Frame.onlyIf; rotate_left; intro _ _)
    | with_reducible apply Frame.setF
    | with_reducible apply Frame.step (loadTaps_frame ..)
    | with_reducible apply Frame.step (loadZone_frame ..)
    | with_reducible apply Frame.step (rateCheck_frame ..)
    | with_reducible apply Frame.step (updChan_frame ..)

def W.zoneAtPillar : Nat := W.applyZone ||| W.loadZone ||| W.updChan

theorem zoneAtPillar_frame (s : State) (c : Nat) : Frame W.zoneAtPillar s (State.zoneAtPillar s c) := by
  unfold State.zoneAtPillar
  repeat' first
    | with_reducible assumption
    | with_reducible exact Frame.refl _ _
    | (intro _ _ _)
    | (intro _ _)
    | decide +kernel
    | with_reducible apply Frame.step (applyZone_frame ..)
    | with_reducible apply Frame.step (loadZone_frame ..)
    | with_reducible apply Frame.step (updChan_frame ..)
    | with_reducible apply Frame.ite
    | split
    | (dsimp only; split)

def W.coast : Nat := fm [F.CHN_WOB_STATUS_PILLAR, F.CHN_WOB_STATUS_WOBBLE]

theorem coast_frame (s : State) (c : Nat) : Frame W.coast s (State.coast s c) := by
  unfold State.coast
  repeat' first
    | with_reducible assumption
    | with_reducible exact Frame.refl _ _
    | (intro _ _ _)
    | (intro _ _)
    | decide +kernel
    | with_reducible apply Frame.setF

def W.seedLoop : Nat := W.coast ||| W.keepDrift ||| W.updChan

theorem seedLoop_frame (s : State) (c : Nat) : Frame W.seedLoop s (State.seedLoop s c) := by
  unfold State.seedLoop
  repeat' first
    | with_reducible assumption
    | with_reducible exact Frame.refl _ _
    | (intro _ _ _)
    | (intro _ _)
    | decide +kernel
    | with_reducible apply Frame.step (coast_frame ..)
    | with_reducible apply Frame.step (keepDrift_frame ..)
    | with_reducible apply Frame.step (updChan_frame ..)

def W.chanLock : Nat := fm [F.CHN_STATUS_STATE, F.CHN_STATUS_WOB_LOCK] ||| W.applyZone ||| W.seedLoop

theorem chanLock_frame (s : State) (c : Nat) : Frame W.chanLock s (State.chanLock s c) := by
  unfold State.chanLock
  repeat' first
    | with_reducible assumption
    | with_reducible exact Frame.refl _ _
    | decide +kernel
    | with_reducible apply Frame.setB
    | with_reducible apply Frame.setF
    | with_reducible apply Frame.step (applyZone_frame ..)
    | with_reducible apply Frame.step (seedLoop_frame ..)

end Sys2Proof.Laws
end

