-- ==== Sys2Proof/Laws/FrLink.lean ====
section
/-!
SUPPORT. Frames of the operations of Machine/Link.lean: one law per operation, with the mask of what it may change.
-/
set_option Elab.async false
set_option linter.unusedTactic false
set_option linter.unreachableTactic false

namespace Sys2Proof.Laws

open Sys2Proof.Machine

def W.updLink : Nat := W.setHead

theorem updLink_frame (s : State) (h : Nat) (f : LinkS → LinkS) : Frame W.updLink s (State.updLink s h f) := by
  unfold State.updLink
  repeat' first
    | with_reducible assumption
    | with_reducible exact Frame.refl _ _
    | decide +kernel
    | with_reducible apply Frame.step (setHead_frame ..)

def W.setFifo : Nat := W.updLink

theorem setFifo_frame (s : State) (h f : Nat) (x : FifoS) : Frame W.setFifo s (State.setFifo s h f x) := by
  unfold State.setFifo
  repeat' first
    | with_reducible assumption
    | with_reducible exact Frame.refl _ _
    | (intro _ _ _)
    | (intro _ _)
    | decide +kernel
    | with_reducible apply Frame.step (updLink_frame ..)

def W.sendItem : Nat := 2 ^ 17 ||| W.updLink

theorem sendItem_frame (s : State) (h stream tag : Nat) (ws : List Nat) : Frame W.sendItem s (State.sendItem s h stream tag
    ws) := by
  unfold State.sendItem
  repeat' first
    | with_reducible assumption
    | with_reducible exact Frame.refl _ _
    | (intro _ _ _)
    | (intro _ _)
    | decide +kernel
    | (with_reducible apply Frame.onlyIf; rotate_left; intro _ _)
    | with_reducible apply Frame.emit
    | with_reducible apply Frame.step (updLink_frame ..)
    | with_reducible apply Frame.ite
    | split
    | (dsimp only; split)

def W.dropItem : Nat := fm [F.LNK_DROP_DROPS] ||| em [E.LNK_DROP] ||| fm [F.LNK_EVT_HEADS_HEAD]

theorem dropItem_frame (s : State) (h : Nat) : Frame W.dropItem s (State.dropItem s h) := by
  unfold State.dropItem
  repeat' first
    | with_reducible assumption
    | with_reducible exact Frame.refl _ _
    | decide +kernel
    | with_reducible apply Frame.count
    | with_reducible apply raiseLnk_fr

def W.setLane : Nat := 2 ^ 10

theorem setLane_frame (s : State) (l : Nat) (x : LaneS) : Frame W.setLane s (State.setLane s l x) := by
  unfold State.setLane
  repeat' first
    | with_reducible assumption
    | with_reducible exact Frame.refl _ _
    | decide +kernel
    | (with_reducible refine Frame.upd ?_ rfl ?_ ?_ ?_ ?_ ?_ ?_ ?_ ?_ ?_ ?_ ?_ ?_ ?_ ?_ ?_ ?_ ?_ <;>
        first | with_reducible exact Or.inl rfl | with_reducible exact Or.inr ⟨by decide +kernel, Nat.mod_lt _ (Nat.two_pow_pos 48)⟩ |
          exact Or.inr ⟨by decide +kernel, rfl, rfl⟩ | exact Or.inr ⟨by decide +kernel, rfl⟩ |
          exact Or.inr (by decide +kernel) | skip)

def W.soi : Nat := W.dropItem ||| W.setFifo ||| W.updLink

theorem soi_frame (s : State) (h w : Nat) : Frame W.soi s (State.soi s h w) := by
  unfold State.soi
  repeat' first
    | with_reducible assumption
    | with_reducible exact Frame.refl _ _
    | (intro _ _ _)
    | (intro _ _)
    | decide +kernel
    | with_reducible apply Frame.step (dropItem_frame ..)
    | with_reducible apply Frame.step (setFifo_frame ..)
    | with_reducible apply Frame.step (updLink_frame ..)
    | with_reducible apply Frame.ite
    | split
    | (dsimp only; split)

def W.dataWord : Nat := W.setFifo ||| W.updLink

theorem dataWord_frame (s : State) (h w : Nat) (poison : Bool) : Frame W.dataWord s (State.dataWord s h w poison) := by
  unfold State.dataWord
  repeat' first
    | with_reducible assumption
    | with_reducible exact Frame.refl _ _
    | (intro _ _ _)
    | (intro _ _)
    | decide +kernel
    | with_reducible apply Frame.step (setFifo_frame ..)
    | with_reducible apply Frame.step (updLink_frame ..)
    | with_reducible apply Frame.ite
    | split
    | (dsimp only; split)

def W.echo : Nat := fm [F.LNK_TICK_LEAD_RTT] ||| W.updLink

theorem echo_frame (s : State) (h seq rtt : Nat) : Frame W.echo s (State.echo s h seq rtt) := by
  unfold State.echo
  repeat' first
    | with_reducible assumption
    | with_reducible exact Frame.refl _ _
    | (intro _ _ _)
    | (intro _ _)
    | decide +kernel
    | with_reducible apply Frame.setF
    | with_reducible apply Frame.step (updLink_frame ..)
    | with_reducible apply Frame.ite
    | split
    | (dsimp only; split)

def W.bonded : Nat := W.dataWord ||| W.echo ||| W.soi

theorem bonded_frame (s : State) (h : Nat) (x : Waiting) : Frame W.bonded s (State.bonded s h x) := by
  unfold State.bonded
  repeat' first
    | with_reducible assumption
    | with_reducible exact Frame.refl _ _
    | decide +kernel
    | with_reducible apply Frame.step (dataWord_frame ..)
    | with_reducible apply Frame.step (echo_frame ..)
    | with_reducible apply Frame.step (soi_frame ..)
    | with_reducible apply Frame.ite
    | split
    | (dsimp only; split)

def W.drain : Nat := W.bonded ||| W.dataWord ||| W.updLink

theorem drain_frame (n : Nat) (s : State) (h : Nat) : Frame W.drain s (State.drain n s h) := by
  induction n generalizing s with
  | zero => exact Frame.refl _ _
  | succ n ih =>
    unfold State.drain
    dsimp only
    split
    · exact Frame.refl _ _
    · split
      · exact (ih _).step ((bonded_frame ..).step ((updLink_frame ..).mono (by decide +kernel)) (by decide +kernel)) (by simp [subMask])
      · split
        · exact (ih _).step ((dataWord_frame ..).step ((updLink_frame ..).mono (by decide +kernel)) (by decide +kernel)) (by simp [subMask])
        · split
          · exact (ih _).step ((updLink_frame ..).mono (by decide +kernel)) (by simp [subMask])
          · exact Frame.refl _ _

def W.deliver : Nat := W.drain

theorem deliver_frame (s : State) (h : Nat) : Frame W.deliver s (s.deliver h) :=
  (drain_frame ..).mono (by decide +kernel)

def W.flushFifo : Nat := fm [F.LNK_DROP_TRUNC] ||| em [E.LNK_FLUSH_TRUNC] ||| W.rfFlushed ||| W.setFifo ||| W.truncate |||
    W.updLink ||| fm [F.LNK_EVT_HEADS_HEAD]

theorem flushFifo_frame (s : State) (h f : Nat) : Frame W.flushFifo s (State.flushFifo s h f) := by
  unfold State.flushFifo
  repeat' first
    | with_reducible assumption
    | with_reducible exact Frame.refl _ _
    | (intro _ _ _)
    | (intro _ _)
    | decide +kernel
    | with_reducible apply Frame.count
    | with_reducible apply Frame.step (rfFlushed_frame ..)
    | with_reducible apply Frame.step (setFifo_frame ..)
    | with_reducible apply Frame.step (truncate_frame ..)
    | with_reducible apply Frame.step (updLink_frame ..)
    | with_reducible apply raiseLnk_fr
    | with_reducible apply Frame.ite
    | split
    | (dsimp only; split)

def W.flushLink : Nat := W.flushFifo

theorem flushLink_frame (s : State) (h : Nat) : Frame W.flushLink s (State.flushLink s h) := by
  unfold State.flushLink
  repeat' first
    | with_reducible assumption
    | with_reducible exact Frame.refl _ _
    | (intro _ _ _)
    | (intro _ _)
    | decide +kernel
    | (with_reducible apply Frame.forEach; rotate_left; intro _ _ _)
    | with_reducible apply Frame.step (flushFifo_frame ..)

def W.popItem : Nat := fm [F.LNK_POISON_COUNT] ||| em [E.LNK_POISON] ||| W.deliver ||| W.setFifo ||| fm [F.LNK_EVT_HEADS_HEAD]

theorem popItem_frame (s : State) (h f : Nat) (flips : List (Nat × Nat)) : Frame W.popItem s (State.popItem s h f flips).1 :=
    by
  unfold State.popItem
  repeat' first
    | with_reducible assumption
    | with_reducible exact Frame.refl _ _
    | (intro _ _ _)
    | (intro _ _)
    | decide +kernel
    | (with_reducible apply Frame.onlyIf; rotate_left; intro _ _)
    | with_reducible apply Frame.addSat
    | with_reducible apply Frame.step (deliver_frame ..)
    | with_reducible apply Frame.step (setFifo_frame ..)
    | with_reducible apply raiseLnk_fr
    | with_reducible apply Frame.ite
    | (with_reducible apply Frame.foldl1; rotate_left; intro _ _ _)
    | (with_reducible apply Frame.foldl; rotate_left; intro _ _ _)
    | split
    | (dsimp only; split)

def W.popBank : Nat := W.popItem ||| W.updLink

theorem popBank_frame (s : State) (h f : Nat) (flips : List (Nat × Nat)) : Frame W.popBank s (State.popBank s h f flips) := by
  unfold State.popBank
  repeat' first
    | with_reducible assumption
    | with_reducible exact Frame.refl _ _
    | (intro _ _ _)
    | (intro _ _)
    | decide +kernel
    | with_reducible apply Frame.step (popItem_frame ..)
    | with_reducible apply Frame.step (updLink_frame ..)
    | with_reducible refine Frame.ofPair (by assumption) ?_
    | split
    | (dsimp only; split)

def W.popRf : Nat := W.popItem ||| W.rfItem

theorem popRf_frame (s : State) (h f : Nat) (flips : List (Nat × Nat)) : Frame W.popRf s (State.popRf s h f flips) := by
  unfold State.popRf
  repeat' first
    | with_reducible assumption
    | with_reducible exact Frame.refl _ _
    | decide +kernel
    | with_reducible apply Frame.step (popItem_frame ..)
    | with_reducible apply Frame.step (rfItem_frame ..)
    | with_reducible refine Frame.ofPair (by assumption) ?_
    | split
    | (dsimp only; split)

def W.takeTick : Nat := fm [F.LNK_LATE_COUNT] ||| em [E.LNK_LATE_WORD] ||| W.popBank ||| W.updLink ||| fm
    [F.LNK_EVT_HEADS_HEAD]

theorem takeTick_frame (s : State) (h f k : Nat) : Frame W.takeTick s (State.takeTick s h f k).1 := by
  unfold State.takeTick
  repeat' first
    | with_reducible assumption
    | with_reducible exact Frame.refl _ _
    | (intro _ _ _)
    | (intro _ _)
    | decide +kernel
    | (with_reducible apply Frame.onlyIf; rotate_left; intro _ _)
    | with_reducible apply Frame.addSat
    | with_reducible apply Frame.step (popBank_frame ..)
    | with_reducible apply Frame.step (updLink_frame ..)
    | with_reducible apply raiseLnk_fr
    | with_reducible apply Frame.ite
    | (with_reducible apply Frame.foldl1; rotate_left; intro _ _ _)
    | (with_reducible apply Frame.foldl; rotate_left; intro _ _ _)
    | split
    | (dsimp only; split)

def W.roles : Nat := fm [F.LNK_LANE_STATUS_ROLE]

theorem roles_frame (s : State) (h : Nat) : Frame W.roles s (State.roles s h) := by
  unfold State.roles
  repeat' first
    | with_reducible assumption
    | with_reducible exact Frame.refl _ _
    | (intro _ _ _)
    | (intro _ _)
    | decide +kernel
    | (with_reducible apply Frame.forEach; rotate_left; intro _ _ _)
    | with_reducible apply Frame.setF
    | with_reducible apply Frame.ite
    | split
    | (dsimp only; split)

def W.setLink : Nat := fm [F.LNK_HEAD_STATUS_STATE] ||| W.chanFollow ||| W.roles

theorem setLink_frame (s : State) (h st : Nat) : Frame W.setLink s (State.setLink s h st) := by
  unfold State.setLink
  repeat' first
    | with_reducible assumption
    | with_reducible exact Frame.refl _ _
    | decide +kernel
    | with_reducible apply Frame.setF
    | with_reducible apply Frame.step (chanFollow_frame ..)
    | with_reducible apply Frame.step (roles_frame ..)

def W.linkDown : Nat := fm [F.LNK_HEAD_STATUS_ACTIVE, F.LNK_HEAD_STATUS_FAILED, F.LNK_HEAD_STATUS_SPARE] ||| W.flushLink |||
    W.setLink ||| W.updLink

theorem linkDown_frame (s : State) (h st : Nat) : Frame W.linkDown s (State.linkDown s h st) := by
  unfold State.linkDown
  repeat' first
    | with_reducible assumption
    | with_reducible exact Frame.refl _ _
    | (intro _ _ _)
    | (intro _ _)
    | decide +kernel
    | with_reducible apply Frame.setF
    | with_reducible apply Frame.step (flushLink_frame ..)
    | with_reducible apply Frame.step (setLink_frame ..)
    | with_reducible apply Frame.step (updLink_frame ..)
    | with_reducible apply Frame.ite
    | split
    | (dsimp only; split)

def W.linkTrain : Nat := W.sendBlock ||| W.setLane ||| W.setLink ||| W.updLink

theorem linkTrain_frame (s : State) (h : Nat) : Frame W.linkTrain s (s.linkTrain h) := by
  unfold State.linkTrain
  refine (setLink_frame ..).step ?_ (by decide +kernel)
  refine Frame.forEach ?_ fun _ _ ht => (setLane_frame ..).step ht (by decide +kernel)
  refine Frame.forEach ?_ fun _ _ ht => (sendBlock_frame ..).step ht (by decide +kernel)
  exact (updLink_frame ..).mono (by decide +kernel)

def W.applyMap : Nat := fm [F.LNK_HEAD_STATUS_ACTIVE, F.LNK_HEAD_STATUS_FAILED, F.LNK_HEAD_STATUS_SPARE] ||| W.roles

theorem applyMap_frame (s : State) (h spare failed : Nat) : Frame W.applyMap s (State.applyMap s h spare failed) := by
  unfold State.applyMap
  repeat' first
    | with_reducible assumption
    | with_reducible exact Frame.refl _ _
    | (intro _ _ _)
    | (intro _ _)
    | decide +kernel
    | with_reducible apply Frame.setF
    | with_reducible apply Frame.step (roles_frame ..)
    | with_reducible apply Frame.ite
    | (with_reducible apply Frame.foldl1; rotate_left; intro _ _ _)
    | (with_reducible apply Frame.foldl; rotate_left; intro _ _ _)
    | split
    | (dsimp only; split)

def W.sendRotate : Nat := W.sendBlock ||| W.updLink

theorem sendRotate_frame (s : State) (h k : Nat) (kind : MapReq) : Frame W.sendRotate s (State.sendRotate s h k kind) := by
  unfold State.sendRotate
  repeat' first
    | with_reducible assumption
    | with_reducible exact Frame.refl _ _
    | (intro _ _ _)
    | (intro _ _)
    | decide +kernel
    | with_reducible apply Frame.step (sendBlock_frame ..)
    | with_reducible apply Frame.step (updLink_frame ..)

def W.setCheck : Nat := fm [F.LNK_PRBS_ERR_COUNT, F.LNK_PRBS_ERR_LOCK] ||| W.setLane

theorem setCheck_frame (s : State) (l : Nat) (x : CheckS) : Frame W.setCheck s (State.setCheck s l x) := by
  unfold State.setCheck
  repeat' first
    | with_reducible assumption
    | with_reducible exact Frame.refl _ _
    | decide +kernel
    | with_reducible apply Frame.addSat
    | with_reducible apply Frame.setB
    | with_reducible apply Frame.step (setLane_frame ..)

def W.rawBits : Nat := W.setCheck

theorem rawBits_frame (s : State) (l : Nat) (bs : List Bool) : Frame W.rawBits s (State.rawBits s l bs) := by
  unfold State.rawBits
  repeat' first
    | with_reducible assumption
    | with_reducible exact Frame.refl _ _
    | (intro _ _ _)
    | (intro _ _)
    | decide +kernel
    | with_reducible apply Frame.step (setCheck_frame ..)
    | with_reducible apply Frame.ite
    | split
    | (dsimp only; split)

def W.patternTick : Nat := 2 ^ 17 ||| W.rawBits ||| W.setLane

theorem patternTick_frame (s : State) (l : Nat) : Frame W.patternTick s (State.patternTick s l) := by
  unfold State.patternTick
  repeat' first
    | with_reducible assumption
    | with_reducible exact Frame.refl _ _
    | (intro _ _ _)
    | (intro _ _)
    | decide +kernel
    | (with_reducible apply Frame.onlyIf; rotate_left; intro _ _)
    | with_reducible apply Frame.emit
    | with_reducible apply Frame.step (rawBits_frame ..)
    | with_reducible apply Frame.step (setLane_frame ..)
    | with_reducible apply Frame.ite
    | split
    | (dsimp only; split)

end Sys2Proof.Laws
end

