-- ==== Sys2Proof/Laws/FrWrp.lean ====
section
/-!
SUPPORT. Frames of the operations of Machine/Wrp.lean: one law per operation, with the mask of what it may change.
-/
set_option Elab.async false
set_option linter.unusedTactic false
set_option linter.unreachableTactic false

namespace Sys2Proof.Laws

open Sys2Proof.Machine

def W.updSeam : Nat := W.setSeam

theorem updSeam_frame (s : State) (v n : Nat) (f : SeamS → SeamS) : Frame W.updSeam s (State.updSeam s v n f) := by
  unfold State.updSeam
  repeat' first
    | with_reducible assumption
    | with_reducible exact Frame.refl _ _
    | decide +kernel
    | with_reducible apply Frame.step (setSeam_frame ..)

def W.putSpare : Nat := fm [F.WRP_SPARE_LODE, F.WRP_SPARE_POS, F.WRP_SPARE_REASON, F.WRP_SPARE_VALID]

theorem putSpare_frame (s : State) (i : Nat) (valid : Bool) (r : Nat × Nat × Nat) : Frame W.putSpare s (State.putSpare s i
    valid r) := by
  unfold State.putSpare
  repeat' first
    | with_reducible assumption
    | with_reducible exact Frame.refl _ _
    | decide +kernel
    | with_reducible apply Frame.setB
    | with_reducible apply Frame.setF

def W.putRecords : Nat := fm [F.WRP_SEAM_NSKIP] ||| W.putSpare

theorem putRecords_frame (s : State) (v n : Nat) (l : List (Nat × Nat × Nat)) : Frame W.putRecords s (State.putRecords s v n
    l) := by
  unfold State.putRecords
  repeat' first
    | with_reducible assumption
    | with_reducible exact Frame.refl _ _
    | (intro _ _ _)
    | (intro _ _)
    | decide +kernel
    | (with_reducible apply Frame.forEach; rotate_left; intro _ _ _)
    | with_reducible apply Frame.setF
    | with_reducible apply Frame.step (putSpare_frame ..)
    | (with_reducible apply Frame.foldl1; rotate_left; intro _ _ _)
    | (with_reducible apply Frame.foldl; rotate_left; intro _ _ _)

def W.addSkip : Nat := fm [F.WRP_SKIPS_SKIPPED] ||| em [E.WRP_SPARED] ||| W.putRecords ||| W.updSeam

theorem addSkip_frame (s : State) (v n pos reason lode : Nat) : Frame W.addSkip s (State.addSkip s v n pos reason lode) := by
  unfold State.addSkip
  repeat' first
    | with_reducible assumption
    | with_reducible exact Frame.refl _ _
    | (intro _ _ _)
    | (intro _ _)
    | decide +kernel
    | with_reducible apply Frame.count
    | with_reducible apply Frame.step (putRecords_frame ..)
    | with_reducible apply Frame.step (updSeam_frame ..)
    | with_reducible apply raise_fr
    | with_reducible refine Frame.ofPair (by assumption) ?_

def W.formSerial : Nat := W.setVol

theorem formSerial_frame (s : State) (v : Nat) : Frame W.formSerial s (State.formSerial s v) := by
  unfold State.formSerial
  repeat' first
    | with_reducible assumption
    | with_reducible exact Frame.refl _ _
    | (intro _ _ _)
    | (intro _ _)
    | decide +kernel
    | with_reducible apply Frame.step (setVol_frame ..)
    | with_reducible apply Frame.ite
    | split
    | (dsimp only; split)

def W.sealLode : Nat := em [E.WRP_PAD] ||| W.formSerial ||| W.updSeam

theorem sealLode_frame (s : State) (v n : Nat) : Frame W.sealLode s (State.sealLode s v n) := by
  unfold State.sealLode
  repeat' first
    | with_reducible assumption
    | with_reducible exact Frame.refl _ _
    | (intro _ _ _)
    | (intro _ _)
    | decide +kernel
    | (with_reducible apply Frame.onlyIf; rotate_left; intro _ _)
    | with_reducible apply Frame.step (formSerial_frame ..)
    | with_reducible apply Frame.step (updSeam_frame ..)
    | with_reducible apply raise_fr
    | with_reducible apply Frame.ite
    | with_reducible refine Frame.ofPair (by assumption) ?_
    | split
    | (dsimp only; split)

def W.putBlock : Nat := W.sealLode ||| W.updSeam

theorem putBlock_frame (s : State) (v n : Nat) (f : DriftFill) : Frame W.putBlock s (State.putBlock s v n f) := by
  unfold State.putBlock
  repeat' first
    | with_reducible assumption
    | with_reducible exact Frame.refl _ _
    | (intro _ _ _)
    | (intro _ _)
    | decide +kernel
    | with_reducible apply Frame.step (sealLode_frame ..)
    | with_reducible apply Frame.step (updSeam_frame ..)
    | with_reducible apply Frame.ite
    | split
    | (dsimp only; split)

def W.assemble : Nat := W.streamRun

theorem assemble_frame (s : State) (v n pos page : Nat) (d : DriftFill) : Frame W.assemble s (State.assemble s v n pos page d)
    := by
  unfold State.assemble
  repeat' first
    | with_reducible assumption
    | with_reducible exact Frame.refl _ _
    | decide +kernel
    | with_reducible apply Frame.step (streamRun_frame ..)
    | split
    | (dsimp only; split)

def W.fillDrift : Nat := W.assemble ||| W.updSeam

theorem fillDrift_frame (s : State) (v n pos page : Nat) (d : DriftFill) : Frame W.fillDrift s (State.fillDrift s v n pos page
    d) := by
  unfold State.fillDrift
  repeat' first
    | with_reducible assumption
    | with_reducible exact Frame.refl _ _
    | (intro _ _ _)
    | (intro _ _)
    | decide +kernel
    | with_reducible apply Frame.step (assemble_frame ..)
    | with_reducible apply Frame.step (updSeam_frame ..)

def W.updLode : Nat := W.updSeam

theorem updLode_frame (s : State) (v n : Nat) (cat : Bool) (index : Nat) (f : SealedLode → SealedLode) : Frame W.updLode s
    (State.updLode s v n cat index f) := by
  unfold State.updLode
  repeat' first
    | with_reducible assumption
    | with_reducible exact Frame.refl _ _
    | (intro _ _ _)
    | (intro _ _)
    | decide +kernel
    | with_reducible apply Frame.step (updSeam_frame ..)
    | with_reducible apply Frame.ite
    | split
    | (dsimp only; split)

def W.completeWrites : Nat := W.setCmds

theorem completeWrites_frame (s : State) (v n : Nat) : Frame W.completeWrites s (State.completeWrites s v n) := by
  unfold State.completeWrites
  repeat' first
    | with_reducible assumption
    | with_reducible exact Frame.refl _ _
    | (intro _ _ _)
    | (intro _ _)
    | decide +kernel
    | with_reducible apply Frame.step (setCmds_frame ..)
    | with_reducible apply Frame.ite
    | split
    | (dsimp only; split)

def W.exhaustWrites : Nat := W.finishAll

theorem exhaustWrites_frame (s : State) (v n index : Nat) : Frame W.exhaustWrites s (State.exhaustWrites s v n index) := by
  unfold State.exhaustWrites
  repeat' first
    | with_reducible assumption
    | with_reducible exact Frame.refl _ _
    | (intro _ _ _)
    | (intro _ _)
    | decide +kernel
    | with_reducible apply Frame.step (finishAll_frame ..)
    | split
    | (dsimp only; split)

def W.finishSeal : Nat := W.setCmds ||| W.updSeam

theorem finishSeal_frame (s : State) (v n : Nat) (st : Status) : Frame W.finishSeal s (State.finishSeal s v n st) := by
  unfold State.finishSeal
  repeat' first
    | with_reducible assumption
    | with_reducible exact Frame.refl _ _
    | (intro _ _ _)
    | (intro _ _)
    | decide +kernel
    | with_reducible apply Frame.step (setCmds_frame ..)
    | with_reducible apply Frame.step (updSeam_frame ..)
    | with_reducible apply Frame.ite
    | split
    | (dsimp only; split)

def W.sealWithout : Nat := fm [F.WRP_SEAM_SEALED] ||| em [E.WRP_CAT_FULL] ||| W.finishSeal ||| W.updSeam

theorem sealWithout_frame (s : State) (v n : Nat) : Frame W.sealWithout s (State.sealWithout s v n) := by
  unfold State.sealWithout
  repeat' first
    | with_reducible assumption
    | with_reducible exact Frame.refl _ _
    | (intro _ _ _)
    | (intro _ _)
    | decide +kernel
    | with_reducible apply Frame.setB
    | with_reducible apply Frame.step (finishSeal_frame ..)
    | with_reducible apply Frame.step (updSeam_frame ..)
    | with_reducible apply raise_fr
    | with_reducible refine Frame.ofPair (by assumption) ?_

def W.queueCat : Nat := em [E.WRP_CAT_FULL] ||| W.formSerial ||| W.sealWithout ||| W.updSeam

theorem queueCat_frame (s : State) (v n : Nat) (trailer : Bool) (content : List Nat) : Frame W.queueCat s (State.queueCat s v
    n trailer content) := by
  unfold State.queueCat
  repeat' first
    | with_reducible assumption
    | with_reducible exact Frame.refl _ _
    | (intro _ _ _)
    | (intro _ _)
    | decide +kernel
    | with_reducible apply Frame.step (formSerial_frame ..)
    | with_reducible apply Frame.step (sealWithout_frame ..)
    | with_reducible apply Frame.step (updSeam_frame ..)
    | with_reducible apply raise_fr
    | with_reducible apply Frame.ite
    | with_reducible refine Frame.ofPair (by assumption) ?_
    | split
    | (dsimp only; split)

def W.snapshot : Nat := W.queueCat ||| W.updSeam

theorem snapshot_frame (s : State) (v n : Nat) (trailer : Bool) : Frame W.snapshot s (State.snapshot s v n trailer) := by
  unfold State.snapshot
  repeat' first
    | with_reducible assumption
    | with_reducible exact Frame.refl _ _
    | (intro _ _ _)
    | (intro _ _)
    | decide +kernel
    | with_reducible apply Frame.step (queueCat_frame ..)
    | with_reducible apply Frame.step (updSeam_frame ..)
    | with_reducible apply Frame.ite
    | split
    | (dsimp only; split)

def W.catalogueDue : Nat := W.snapshot

theorem catalogueDue_frame (s : State) (v n : Nat) : Frame W.catalogueDue s (State.catalogueDue s v n) := by
  unfold State.catalogueDue
  repeat' first
    | with_reducible assumption
    | with_reducible exact Frame.refl _ _
    | decide +kernel
    | with_reducible apply Frame.step (snapshot_frame ..)
    | with_reducible apply Frame.ite
    | split
    | (dsimp only; split)

def W.dropSlot : Nat := W.releaseSlot

theorem dropSlot_frame (s : State) (l : SealedLode) : Frame W.dropSlot s (State.dropSlot s l) := by
  unfold State.dropSlot
  repeat' first
    | with_reducible assumption
    | with_reducible exact Frame.refl _ _
    | decide +kernel
    | with_reducible apply Frame.step (releaseSlot_frame ..)
    | split
    | (dsimp only; split)

def W.exhaust : Nat := fm [F.WRP_SEAM_EXHAUSTED] ||| em [E.WRP_SEAM_EXHAUSTED] ||| W.dropSlot ||| W.exhaustWrites |||
    W.updSeam

theorem exhaust_frame (s : State) (v n index : Nat) : Frame W.exhaust s (State.exhaust s v n index) := by
  unfold State.exhaust
  repeat' first
    | with_reducible assumption
    | with_reducible exact Frame.refl _ _
    | (intro _ _ _)
    | (intro _ _)
    | decide +kernel
    | (with_reducible apply Frame.forEach; rotate_left; intro _ _ _)
    | with_reducible apply Frame.setB
    | with_reducible apply Frame.step (dropSlot_frame ..)
    | with_reducible apply Frame.step (exhaustWrites_frame ..)
    | with_reducible apply Frame.step (updSeam_frame ..)
    | with_reducible apply raise_fr
    | with_reducible refine Frame.ofPair (by assumption) ?_

def W.skipAll : Nat := W.addSkip ||| W.exhaust

theorem skipAll_frame (s : State) (v n : Nat) (l : List (Nat × Nat × Nat)) : Frame W.skipAll s (s.skipAll v n l) := by
  induction l generalizing s with
  | nil => exact Frame.refl _ _
  | cons p l ih =>
    obtain ⟨pos, reason, lode⟩ := p
    unfold State.skipAll
    split
    · exact (exhaust_frame ..).mono (by decide +kernel)
    · exact (ih _).step ((addSkip_frame ..).mono (by decide +kernel)) (by simp [subMask])

def W.countAccepted : Nat := fm [F.WRP_SEAM_LODES] ||| W.dropSlot ||| W.updSeam

theorem countAccepted_frame (s : State) (v n k : Nat) : Frame W.countAccepted s (s.countAccepted v n k) := by
  induction k generalizing s with
  | zero => exact Frame.refl _ _
  | succ k ih =>
    unfold State.countAccepted
    split
    · exact Frame.refl _ _
    · split
      · refine (ih _).step ?_ (by simp [subMask])
        refine (updSeam_frame ..).step ?_ (by decide +kernel)
        refine Frame.setF ?_ (by decide +kernel) ..
        exact (dropSlot_frame ..).mono (by decide +kernel)
      · exact Frame.refl _ _

def W.spare : Nat := W.dropSlot ||| W.skipAll ||| W.updSeam

theorem spare_frame (s : State) (v n : Nat) (vs : List (SealedLode × Verdict)) : Frame W.spare s (State.spare s v n vs) := by
  unfold State.spare
  repeat' first
    | with_reducible assumption
    | with_reducible exact Frame.refl _ _
    | (intro _ _ _)
    | (intro _ _)
    | decide +kernel
    | (with_reducible apply Frame.forEach; rotate_left; intro _ _ _)
    | with_reducible apply Frame.step (dropSlot_frame ..)
    | with_reducible apply Frame.step (skipAll_frame ..)
    | with_reducible apply Frame.step (updSeam_frame ..)
    | with_reducible apply Frame.ite
    | split
    | (dsimp only; split)

def W.reportReject : Nat := fm [F.WRP_LODES_ACCEPTED, F.WRP_LODES_REJECTED] ||| em [E.WRP_LODE_REJECT]

theorem reportReject_frame (s : State) (x : Verdict) : Frame W.reportReject s (State.reportReject s x) := by
  unfold State.reportReject
  repeat' first
    | with_reducible assumption
    | with_reducible exact Frame.refl _ _
    | decide +kernel
    | with_reducible apply Frame.count
    | with_reducible apply raise_fr
    | with_reducible apply Frame.ite
    | with_reducible refine Frame.ofPair (by assumption) ?_
    | split
    | (dsimp only; split)

def W.resolveCat : Nat := fm [F.WRP_SEAM_SEALED] ||| W.dropSlot ||| W.finishSeal ||| W.queueCat ||| W.updSeam

theorem resolveCat_frame (s : State) (v n : Nat) (l : SealedLode) (x : Verdict) : Frame W.resolveCat s (State.resolveCat s v n
    l x) := by
  unfold State.resolveCat
  repeat' first
    | with_reducible assumption
    | with_reducible exact Frame.refl _ _
    | (intro _ _ _)
    | (intro _ _)
    | decide +kernel
    | with_reducible apply Frame.setB
    | with_reducible apply Frame.step (dropSlot_frame ..)
    | with_reducible apply Frame.step (finishSeal_frame ..)
    | with_reducible apply Frame.step (queueCat_frame ..)
    | with_reducible apply Frame.step (updSeam_frame ..)
    | with_reducible apply Frame.ite
    | split
    | (dsimp only; split)

def W.resolveSeam : Nat := W.catalogueDue ||| W.completeWrites ||| W.countAccepted ||| W.reportReject ||| W.resolveCat |||
    W.spare ||| W.updSeam

theorem resolveSeam_frame (s : State) (v n : Nat) (left : Option Bool) : Frame W.resolveSeam s (State.resolveSeam s v n left)
    := by
  unfold State.resolveSeam
  repeat' first
    | with_reducible assumption
    | with_reducible exact Frame.refl _ _
    | (intro _ _ _)
    | (intro _ _)
    | decide +kernel
    | (with_reducible apply Frame.forEach; rotate_left; intro _ _ _)
    | with_reducible apply Frame.step (catalogueDue_frame ..)
    | with_reducible apply Frame.step (completeWrites_frame ..)
    | with_reducible apply Frame.step (countAccepted_frame ..)
    | with_reducible apply Frame.step (reportReject_frame ..)
    | with_reducible apply Frame.step (resolveCat_frame ..)
    | with_reducible apply Frame.step (spare_frame ..)
    | with_reducible apply Frame.step (updSeam_frame ..)
    | with_reducible apply Frame.ite
    | (with_reducible apply Frame.foldl1; rotate_left; intro _ _ _)
    | (with_reducible apply Frame.foldl; rotate_left; intro _ _ _)
    | split
    | (dsimp only; split)

def W.cutDrift : Nat := fm [F.WRP_GATE_CUTS] ||| em [E.WRP_GATE_CUT] ||| W.setHead ||| W.updLode

theorem cutDrift_frame (s : State) (h : Nat) : Frame W.cutDrift s (State.cutDrift s h) := by
  unfold State.cutDrift
  repeat' first
    | with_reducible assumption
    | with_reducible exact Frame.refl _ _
    | (intro _ _ _)
    | (intro _ _)
    | decide +kernel
    | with_reducible apply Frame.addSat
    | with_reducible apply Frame.step (setHead_frame ..)
    | with_reducible apply Frame.step (updLode_frame ..)
    | with_reducible apply raise_fr
    | with_reducible apply Frame.ite
    | with_reducible refine Frame.ofPair (by assumption) ?_
    | split
    | (dsimp only; split)

def W.gateClose : Nat := fm [F.WRP_GATE_CLOSES] ||| W.cutDrift ||| W.sendBlock ||| W.setHead

theorem gateClose_frame (s : State) (h : Nat) : Frame W.gateClose s (State.gateClose s h) := by
  unfold State.gateClose
  repeat' first
    | with_reducible assumption
    | with_reducible exact Frame.refl _ _
    | (intro _ _ _)
    | (intro _ _)
    | decide +kernel
    | (with_reducible apply Frame.forEach; rotate_left; intro _ _ _)
    | with_reducible apply Frame.count
    | with_reducible apply Frame.step (cutDrift_frame ..)
    | with_reducible apply Frame.step (sendBlock_frame ..)
    | with_reducible apply Frame.step (setHead_frame ..)

def W.leaveWrite : Nat := fm [F.WRP_HEAD_STATE] ||| W.gateClose ||| W.setHead

theorem leaveWrite_frame (s : State) (h : Nat) (stays : Bool) : Frame W.leaveWrite s (State.leaveWrite s h stays) := by
  unfold State.leaveWrite
  repeat' first
    | with_reducible assumption
    | with_reducible exact Frame.refl _ _
    | (intro _ _ _)
    | (intro _ _)
    | decide +kernel
    | with_reducible apply Frame.setF
    | with_reducible apply Frame.step (gateClose_frame ..)
    | with_reducible apply Frame.step (setHead_frame ..)
    | with_reducible apply Frame.ite
    | split
    | (dsimp only; split)

end Sys2Proof.Laws
end

