-- ==== Sys2Proof/Laws/FrHeadOps.lean ====
section
/-!
SUPPORT. Frames of the operations of Machine/HeadOps.lean: one law per operation, with the mask of what it may change.
-/
set_option Elab.async false
set_option linter.unusedTactic false
set_option linter.unreachableTactic false

namespace Sys2Proof.Laws

open Sys2Proof.Machine

def W.updClr : Nat := W.setHead

theorem updClr_frame (s : State) (h : Nat) (f : ClrS → ClrS) : Frame W.updClr s (State.updClr s h f) := by
  unfold State.updClr
  repeat' first
    | with_reducible assumption
    | with_reducible exact Frame.refl _ _
    | decide +kernel
    | with_reducible apply Frame.step (setHead_frame ..)

def W.updLoop : Nat := W.updClr

theorem updLoop_frame (s : State) (h i : Nat) (f : LoopS → LoopS) : Frame W.updLoop s (State.updLoop s h i f) := by
  unfold State.updLoop
  repeat' first
    | with_reducible assumption
    | with_reducible exact Frame.refl _ _
    | (intro _ _ _)
    | (intro _ _)
    | decide +kernel
    | with_reducible apply Frame.step (updClr_frame ..)

def W.closeLoop : Nat := fm [F.CLR_LOOP_CTL_CLOSED] ||| W.updLoop

theorem closeLoop_frame (s : State) (h i : Nat) (acc : Option Int) (fresh : Bool) : Frame W.closeLoop s (State.closeLoop s h i
    acc fresh) := by
  unfold State.closeLoop
  repeat' first
    | with_reducible assumption
    | with_reducible exact Frame.refl _ _
    | (intro _ _ _)
    | (intro _ _)
    | decide +kernel
    | with_reducible apply Frame.setB
    | with_reducible apply Frame.step (updLoop_frame ..)
    | with_reducible apply Frame.ite
    | split
    | (dsimp only; split)

def W.openLoop : Nat := fm [F.CLR_LOOP_CTL_CLOSED, F.CLR_STATUS_FOCUS_OK, F.CLR_STATUS_TF] ||| W.chanFollow ||| W.updClr

theorem openLoop_frame (s : State) (h i : Nat) : Frame W.openLoop s (State.openLoop s h i) := by
  unfold State.openLoop
  repeat' first
    | with_reducible assumption
    | with_reducible exact Frame.refl _ _
    | (intro _ _ _)
    | (intro _ _)
    | decide +kernel
    | with_reducible apply Frame.setB
    | with_reducible apply Frame.step (chanFollow_frame ..)
    | with_reducible apply Frame.step (updClr_frame ..)
    | with_reducible apply Frame.ite
    | split
    | (dsimp only; split)

def W.driveLoop : Nat := fm [F.CLR_OUT_U] ||| W.updLoop

theorem driveLoop_frame (s : State) (h i : Nat) (u : Int) : Frame W.driveLoop s (State.driveLoop s h i u) := by
  unfold State.driveLoop
  repeat' first
    | with_reducible assumption
    | with_reducible exact Frame.refl _ _
    | (intro _ _ _)
    | (intro _ _)
    | decide +kernel
    | with_reducible apply Frame.setF
    | with_reducible apply Frame.step (updLoop_frame ..)

def W.openAll : Nat := W.openLoop

theorem openAll_frame (s : State) (h : Nat) : Frame W.openAll s (State.openAll s h) := by
  unfold State.openAll
  repeat' first
    | with_reducible assumption
    | with_reducible exact Frame.refl _ _
    | decide +kernel
    | with_reducible apply Frame.step (openLoop_frame ..)

def W.setSeq : Nat := fm [F.CLR_STATUS_PHASE] ||| W.updClr

theorem setSeq_frame (s : State) (h : Nat) (q : Option SeqStep) : Frame W.setSeq s (State.setSeq s h q) := by
  unfold State.setSeq
  repeat' first
    | with_reducible assumption
    | with_reducible exact Frame.refl _ _
    | (intro _ _ _)
    | (intro _ _)
    | decide +kernel
    | with_reducible apply Frame.setF
    | with_reducible apply Frame.step (updClr_frame ..)
    | split
    | (dsimp only; split)

def W.loseTrack : Nat := fm [F.CLR_POS_EST, F.CLR_STATUS_TRK_VALID]

theorem loseTrack_frame (s : State) (h : Nat) : Frame W.loseTrack s (State.loseTrack s h) := by
  unfold State.loseTrack
  repeat' first
    | with_reducible assumption
    | with_reducible exact Frame.refl _ _
    | decide +kernel
    | with_reducible apply Frame.setB

def W.clearLo : Nat := fm [F.CLR_SF_STATUS_LO] ||| W.updClr

theorem clearLo_frame (s : State) (h : Nat) : Frame W.clearLo s (State.clearLo s h) := by
  unfold State.clearLo
  repeat' first
    | with_reducible assumption
    | with_reducible exact Frame.refl _ _
    | (intro _ _ _)
    | (intro _ _)
    | decide +kernel
    | with_reducible apply Frame.setF
    | with_reducible apply Frame.step (updClr_frame ..)

def W.startPower : Nat := fm [F.CLR_RP_STATUS_CODE] ||| W.updClr

theorem startPower_frame (s : State) (h : Nat) : Frame W.startPower s (State.startPower s h) := by
  unfold State.startPower
  repeat' first
    | with_reducible assumption
    | with_reducible exact Frame.refl _ _
    | (intro _ _ _)
    | (intro _ _)
    | decide +kernel
    | with_reducible apply Frame.setF
    | with_reducible apply Frame.step (updClr_frame ..)

def W.retract : Nat := W.driveLoop ||| W.openAll ||| W.setSeq ||| W.updClr

theorem retract_frame (s : State) (h : Nat) : Frame W.retract s (State.retract s h) := by
  unfold State.retract
  repeat' first
    | with_reducible assumption
    | with_reducible exact Frame.refl _ _
    | (intro _ _ _)
    | (intro _ _)
    | decide +kernel
    | with_reducible apply Frame.step (driveLoop_frame ..)
    | with_reducible apply Frame.step (openAll_frame ..)
    | with_reducible apply Frame.step (setSeq_frame ..)
    | with_reducible apply Frame.step (updClr_frame ..)

def W.setClr : Nat := fm [F.CLR_STATUS_HOLD_OVR, F.CLR_STATUS_PERMIT, F.CLR_STATUS_STATE] ||| W.axisHeadOff |||
    W.axisHeadParked ||| W.axisHeadSafe ||| W.axisOn ||| W.chanFollow ||| W.clearLo ||| W.flushLink ||| W.loseTrack |||
    W.lrnEnter ||| W.retract ||| W.setSeq ||| W.startPower ||| W.updClr

theorem setClr_frame (s : State) (h new : Nat) : Frame W.setClr s (State.setClr s h new) := by
  unfold State.setClr
  repeat' first
    | with_reducible assumption
    | with_reducible exact Frame.refl _ _
    | (intro _ _ _)
    | (intro _ _)
    | decide +kernel
    | with_reducible apply Frame.setB
    | with_reducible apply Frame.setF
    | with_reducible apply Frame.step (axisHeadOff_frame ..)
    | with_reducible apply Frame.step (axisHeadParked_frame ..)
    | with_reducible apply Frame.step (axisHeadSafe_frame ..)
    | with_reducible apply Frame.step (axisOn_frame ..)
    | with_reducible apply Frame.step (chanFollow_frame ..)
    | with_reducible apply Frame.step (clearLo_frame ..)
    | with_reducible apply Frame.step (flushLink_frame ..)
    | with_reducible apply Frame.step (loseTrack_frame ..)
    | with_reducible apply Frame.step (lrnEnter_frame ..)
    | with_reducible apply Frame.step (retract_frame ..)
    | with_reducible apply Frame.step (setSeq_frame ..)
    | with_reducible apply Frame.step (startPower_frame ..)
    | with_reducible apply Frame.step (updClr_frame ..)
    | with_reducible apply Frame.ite
    | split
    | (dsimp only; split)

def W.beginAcquire : Nat := fm [F.CLR_POS_LAYER] ||| W.driveLoop ||| W.setClr ||| W.setSeq

theorem beginAcquire_frame (s : State) (h layer : Nat) : Frame W.beginAcquire s (State.beginAcquire s h layer) := by
  unfold State.beginAcquire
  repeat' first
    | with_reducible assumption
    | with_reducible exact Frame.refl _ _
    | (intro _ _ _)
    | (intro _ _)
    | decide +kernel
    | with_reducible apply Frame.setF
    | with_reducible apply Frame.step (driveLoop_frame ..)
    | with_reducible apply Frame.step (setClr_frame ..)
    | with_reducible apply Frame.step (setSeq_frame ..)

def W.testAcqFailed : Nat := 2 ^ 4

theorem testAcqFailed_frame (s : State) (h : Nat) : Frame W.testAcqFailed s (State.testAcqFailed s h) := by
  unfold State.testAcqFailed
  repeat' first
    | with_reducible assumption
    | with_reducible exact Frame.refl _ _
    | (intro _ _ _)
    | (intro _ _)
    | decide +kernel
    | (with_reducible refine Frame.upd ?_ rfl ?_ ?_ ?_ ?_ ?_ ?_ ?_ ?_ ?_ ?_ ?_ ?_ ?_ ?_ ?_ ?_ ?_ <;>
        first | with_reducible exact Or.inl rfl | with_reducible exact Or.inr ⟨by decide +kernel, Nat.mod_lt _ (Nat.two_pow_pos 48)⟩ |
          exact Or.inr ⟨by decide +kernel, rfl, rfl⟩ | exact Or.inr ⟨by decide +kernel, rfl⟩ |
          exact Or.inr (by decide +kernel) | skip)

def W.interruptOp : Nat := W.endOp ||| W.interruptRead ||| W.issue ||| W.leaveWrite ||| W.testAcqFailed

theorem interruptOp_frame (s : State) (h : Nat) (stays : Bool) : Frame W.interruptOp s (State.interruptOp s h stays) := by
  unfold State.interruptOp
  repeat' first
    | with_reducible assumption
    | with_reducible exact Frame.refl _ _
    | (intro _ _ _)
    | (intro _ _)
    | decide +kernel
    | with_reducible apply Frame.step (endOp_frame ..)
    | with_reducible apply Frame.step (interruptRead_frame ..)
    | with_reducible apply Frame.step (issue_frame ..)
    | with_reducible apply Frame.step (leaveWrite_frame ..)
    | with_reducible apply Frame.step (testAcqFailed_frame ..)
    | with_reducible apply Frame.ite
    | split
    | (dsimp only; split)

def W.enterHold : Nat := fm [F.CLR_STATUS_HOLD_OVR] ||| W.interruptOp ||| W.setClr

theorem enterHold_frame (s : State) (h : Nat) (overrun : Bool) : Frame W.enterHold s (State.enterHold s h overrun) := by
  unfold State.enterHold
  repeat' first
    | with_reducible assumption
    | with_reducible exact Frame.refl _ _
    | (intro _ _ _)
    | (intro _ _)
    | decide +kernel
    | (with_reducible apply Frame.onlyIf; rotate_left; intro _ _)
    | with_reducible apply Frame.setB
    | with_reducible apply Frame.step (interruptOp_frame ..)
    | with_reducible apply Frame.step (setClr_frame ..)
    | with_reducible apply Frame.ite
    | split
    | (dsimp only; split)

def W.updBand : Nat := W.setHead

theorem updBand_frame (s : State) (h : Nat) (f : BandS → BandS) : Frame W.updBand s (State.updBand s h f) := by
  unfold State.updBand
  repeat' first
    | with_reducible assumption
    | with_reducible exact Frame.refl _ _
    | decide +kernel
    | with_reducible apply Frame.step (setHead_frame ..)

def W.setTaken : Nat := fm [F.GLB_TAKEOVER_SERVED_BY_PARTNER]

theorem setTaken_frame (s : State) (h : Nat) (b : Bool) : Frame W.setTaken s (State.setTaken s h b) := by
  unfold State.setTaken
  repeat' first
    | with_reducible assumption
    | with_reducible exact Frame.refl _ _
    | decide +kernel
    | with_reducible apply Frame.putF

def W.leaveUnserved : Nat := W.failBand ||| W.setTaken ||| W.updBand

theorem leaveUnserved_frame (s : State) (h : Nat) : Frame W.leaveUnserved s (State.leaveUnserved s h) := by
  unfold State.leaveUnserved
  repeat' first
    | with_reducible assumption
    | with_reducible exact Frame.refl _ _
    | (intro _ _ _)
    | (intro _ _)
    | decide +kernel
    | with_reducible apply Frame.step (failBand_frame ..)
    | with_reducible apply Frame.step (setTaken_frame ..)
    | with_reducible apply Frame.step (updBand_frame ..)

def W.sideLost : Nat := em [E.GLB_SIDE_LOST] ||| W.leaveUnserved

theorem sideLost_frame (s : State) (h : Nat) : Frame W.sideLost s (State.sideLost s h) := by
  unfold State.sideLost
  repeat' first
    | with_reducible assumption
    | with_reducible exact Frame.refl _ _
    | decide +kernel
    | with_reducible apply Frame.step (leaveUnserved_frame ..)
    | with_reducible apply raise_fr
    | with_reducible refine Frame.ofPair (by assumption) ?_

def W.refuse : Nat := em [E.GLB_TAKEOVER_REFUSED]

theorem refuse_frame (s : State) : Frame W.refuse s (State.refuse s) := by
  unfold State.refuse
  repeat' first
    | with_reducible assumption
    | with_reducible exact Frame.refl _ _
    | decide +kernel
    | with_reducible apply raise_fr
    | with_reducible refine Frame.ofPair (by assumption) ?_

def W.startTakeover : Nat := em [E.GLB_TAKEOVER_START] ||| W.flushHead ||| W.setHead ||| W.updBand ||| W.withdraw

theorem startTakeover_frame (s : State) (h : Nat) (requested : Bool) : Frame W.startTakeover s (State.startTakeover s h
    requested) := by
  unfold State.startTakeover
  repeat' first
    | with_reducible assumption
    | with_reducible exact Frame.refl _ _
    | (intro _ _ _)
    | (intro _ _)
    | decide +kernel
    | with_reducible apply Frame.step (flushHead_frame ..)
    | with_reducible apply Frame.step (setHead_frame ..)
    | with_reducible apply Frame.step (updBand_frame ..)
    | with_reducible apply Frame.step (withdraw_frame ..)
    | with_reducible apply raise_fr
    | with_reducible refine Frame.ofPair (by assumption) ?_

def W.takeoverFails : Nat := W.issueWaiting ||| W.leaveUnserved ||| W.refuse

theorem takeoverFails_frame (s : State) (h : Nat) : Frame W.takeoverFails s (State.takeoverFails s h) := by
  unfold State.takeoverFails
  repeat' first
    | with_reducible assumption
    | with_reducible exact Frame.refl _ _
    | decide +kernel
    | with_reducible apply Frame.step (issueWaiting_frame ..)
    | with_reducible apply Frame.step (leaveUnserved_frame ..)
    | with_reducible apply Frame.step (refuse_frame ..)

def W.handbackDone : Nat := em [E.GLB_HANDBACK_DONE] ||| W.issueWaiting ||| W.setTaken ||| W.updBand

theorem handbackDone_frame (s : State) (h : Nat) : Frame W.handbackDone s (State.handbackDone s h) := by
  unfold State.handbackDone
  repeat' first
    | with_reducible assumption
    | with_reducible exact Frame.refl _ _
    | (intro _ _ _)
    | (intro _ _)
    | decide +kernel
    | with_reducible apply Frame.step (issueWaiting_frame ..)
    | with_reducible apply Frame.step (setTaken_frame ..)
    | with_reducible apply Frame.step (updBand_frame ..)
    | with_reducible apply raise_fr
    | with_reducible refine Frame.ofPair (by assumption) ?_

def W.autoTakeover : Nat := W.startTakeover ||| W.takeoverFails

theorem autoTakeover_frame (s : State) (h : Nat) : Frame W.autoTakeover s (State.autoTakeover s h) := by
  unfold State.autoTakeover
  repeat' first
    | with_reducible assumption
    | with_reducible exact Frame.refl _ _
    | decide +kernel
    | with_reducible apply Frame.step (startTakeover_frame ..)
    | with_reducible apply Frame.step (takeoverFails_frame ..)
    | with_reducible apply Frame.ite
    | split
    | (dsimp only; split)

def W.loseSide : Nat := W.refuse ||| W.sideLost

theorem loseSide_frame (s : State) (h : Nat) : Frame W.loseSide s (State.loseSide s h) := by
  unfold State.loseSide
  repeat' first
    | with_reducible assumption
    | with_reducible exact Frame.refl _ _
    | decide +kernel
    | (with_reducible apply Frame.onlyIf; rotate_left; intro _ _)
    | with_reducible apply Frame.step (refuse_frame ..)
    | with_reducible apply Frame.step (sideLost_frame ..)

def W.giveUpRequested : Nat := W.refuse ||| W.updBand

theorem giveUpRequested_frame (s : State) (p : Nat) : Frame W.giveUpRequested s (State.giveUpRequested s p) := by
  unfold State.giveUpRequested
  repeat' first
    | with_reducible assumption
    | with_reducible exact Frame.refl _ _
    | (intro _ _ _)
    | (intro _ _)
    | decide +kernel
    | with_reducible apply Frame.step (refuse_frame ..)
    | with_reducible apply Frame.step (updBand_frame ..)

def W.routeFailure : Nat := W.autoTakeover ||| W.giveUpRequested ||| W.handbackDone ||| W.issueWaiting ||| W.loseSide |||
    W.refuse ||| W.updBand

theorem routeFailure_frame (s : State) (h : Nat) : Frame W.routeFailure s (State.routeFailure s h) := by
  unfold State.routeFailure
  repeat' first
    | with_reducible assumption
    | with_reducible exact Frame.refl _ _
    | (intro _ _ _)
    | (intro _ _)
    | decide +kernel
    | with_reducible apply Frame.step (autoTakeover_frame ..)
    | with_reducible apply Frame.step (giveUpRequested_frame ..)
    | with_reducible apply Frame.step (handbackDone_frame ..)
    | with_reducible apply Frame.step (issueWaiting_frame ..)
    | with_reducible apply Frame.step (loseSide_frame ..)
    | with_reducible apply Frame.step (refuse_frame ..)
    | with_reducible apply Frame.step (updBand_frame ..)
    | with_reducible apply Frame.ite
    | split
    | (dsimp only; split)

def W.toSafe : Nat := fm [F.GLB_HEAD_FAULT_HEAD] ||| W.flushHead ||| W.interruptOp ||| W.requeueJobs ||| W.requeueRead |||
    W.setClr ||| W.withdraw

theorem toSafe_frame (s : State) (h : Nat) : Frame W.toSafe s (State.toSafe s h) := by
  unfold State.toSafe
  repeat' first
    | with_reducible assumption
    | with_reducible exact Frame.refl _ _
    | (intro _ _ _)
    | (intro _ _)
    | decide +kernel
    | with_reducible apply Frame.putF
    | with_reducible apply Frame.step (flushHead_frame ..)
    | with_reducible apply Frame.step (interruptOp_frame ..)
    | with_reducible apply Frame.step (requeueJobs_frame ..)
    | with_reducible apply Frame.step (requeueRead_frame ..)
    | with_reducible apply Frame.step (setClr_frame ..)
    | with_reducible apply Frame.step (withdraw_frame ..)
    | with_reducible apply Frame.ite
    | split
    | (dsimp only; split)

def W.headFatal : Nat := W.routeFailure ||| W.toSafe ||| W.updBand

theorem headFatal_frame (s : State) (h : Nat) : Frame W.headFatal s (State.headFatal s h) := by
  unfold State.headFatal
  repeat' first
    | with_reducible assumption
    | with_reducible exact Frame.refl _ _
    | (intro _ _ _)
    | (intro _ _)
    | decide +kernel
    | with_reducible apply Frame.step (routeFailure_frame ..)
    | with_reducible apply Frame.step (toSafe_frame ..)
    | with_reducible apply Frame.step (updBand_frame ..)
    | with_reducible apply Frame.ite
    | split
    | (dsimp only; split)

def W.dropVolume : Nat := fm [F.WRP_HEAD_STATE, F.WRP_SEAM_EXHAUSTED, F.WRP_SEAM_KNOWN, F.WRP_SEAM_LODES, F.WRP_SEAM_SEALED]
    ||| 2 ^ 6 ||| W.flushStaging ||| W.putRecords ||| W.releaseSlot ||| W.setHead ||| W.setVol

theorem dropVolume_frame (s : State) (v : Nat) : Frame W.dropVolume s (State.dropVolume s v) := by
  unfold State.dropVolume
  repeat' first
    | with_reducible assumption
    | with_reducible exact Frame.refl _ _
    | (intro _ _ _)
    | (intro _ _)
    | decide +kernel
    | (with_reducible apply Frame.forEach; rotate_left; intro _ _ _)
    | with_reducible apply Frame.setB
    | with_reducible apply Frame.setF
    | with_reducible apply Frame.step (flushStaging_frame ..)
    | with_reducible apply Frame.step (putRecords_frame ..)
    | with_reducible apply Frame.step (releaseSlot_frame ..)
    | with_reducible apply Frame.step (setHead_frame ..)
    | with_reducible apply Frame.step (setVol_frame ..)
    | (with_reducible refine Frame.upd ?_ rfl ?_ ?_ ?_ ?_ ?_ ?_ ?_ ?_ ?_ ?_ ?_ ?_ ?_ ?_ ?_ ?_ ?_ <;>
        first | with_reducible exact Or.inl rfl | with_reducible exact Or.inr ⟨by decide +kernel, Nat.mod_lt _ (Nat.two_pow_pos 48)⟩ |
          exact Or.inr ⟨by decide +kernel, rfl, rfl⟩ | exact Or.inr ⟨by decide +kernel, rfl⟩ |
          exact Or.inr (by decide +kernel) | skip)

def W.volumeGone : Nat := 2 ^ 4 ||| W.dropVolume ||| W.finishAll

theorem volumeGone_frame (s : State) (d : Nat) (st : Status) : Frame W.volumeGone s (State.volumeGone s d st) := by
  unfold State.volumeGone
  repeat' first
    | with_reducible assumption
    | with_reducible exact Frame.refl _ _
    | (intro _ _ _)
    | (intro _ _)
    | decide +kernel
    | with_reducible apply Frame.step (dropVolume_frame ..)
    | with_reducible apply Frame.step (finishAll_frame ..)
    | (with_reducible refine Frame.upd ?_ rfl ?_ ?_ ?_ ?_ ?_ ?_ ?_ ?_ ?_ ?_ ?_ ?_ ?_ ?_ ?_ ?_ ?_ <;>
        first | with_reducible exact Or.inl rfl | with_reducible exact Or.inr ⟨by decide +kernel, Nat.mod_lt _ (Nat.two_pow_pos 48)⟩ |
          exact Or.inr ⟨by decide +kernel, rfl, rfl⟩ | exact Or.inr ⟨by decide +kernel, rfl⟩ |
          exact Or.inr (by decide +kernel) | skip)

def W.volumeLost : Nat := em [E.HQI_VOLUME_LOST] ||| W.volumeGone

theorem volumeLost_frame (s : State) (d : Nat) : Frame W.volumeLost s (State.volumeLost s d) := by
  unfold State.volumeLost
  repeat' first
    | with_reducible assumption
    | with_reducible exact Frame.refl _ _
    | (intro _ _ _)
    | (intro _ _)
    | decide +kernel
    | (with_reducible apply Frame.onlyIf; rotate_left; intro _ _)
    | with_reducible apply Frame.step (volumeGone_frame ..)
    | with_reducible apply raise_fr
    | with_reducible refine Frame.ofPair (by assumption) ?_

def W.deckHeadsFatal : Nat := W.setTaken ||| W.toSafe ||| W.updBand ||| W.volumeLost

theorem deckHeadsFatal_frame (s : State) (d : Nat) : Frame W.deckHeadsFatal s (State.deckHeadsFatal s d) := by
  unfold State.deckHeadsFatal
  repeat' first
    | with_reducible assumption
    | with_reducible exact Frame.refl _ _
    | (intro _ _ _)
    | (intro _ _)
    | decide +kernel
    | (with_reducible apply Frame.forEach; rotate_left; intro _ _ _)
    | with_reducible apply Frame.step (setTaken_frame ..)
    | with_reducible apply Frame.step (toSafe_frame ..)
    | with_reducible apply Frame.step (updBand_frame ..)
    | with_reducible apply Frame.step (volumeLost_frame ..)

end Sys2Proof.Laws
end

