-- ==== Sys2Proof/Laws/FrCollier.lean ====
section
/-!
SUPPORT. Frames of the operations of Machine/Collier.lean: one law per operation, with the mask of what it may change.
-/
set_option Elab.async false
set_option linter.unusedTactic false
set_option linter.unreachableTactic false

namespace Sys2Proof.Laws

open Sys2Proof.Machine

def W.satFlags : Nat := em [E.CLR_SAT] ||| fm [F.CLR_SAT_LOOP0, F.CLR_SAT_LOOP1, F.CLR_SAT_LOOP2]

theorem satFlags_frame (s : State) (h i x : Nat) : Frame W.satFlags s (s.satFlags h i x) := by
  have hf : W.satFlags.testBit (satField i).id = true := by
    unfold satField
    split
    · decide +kernel
    · split <;> decide +kernel
  unfold State.satFlags
  dsimp only
  split
  · exact Frame.refl _ _
  · exact raise_fr ((Frame.refl _ _).setF hf ..) (by decide +kernel) _

def W.satNff : Nat := fm [F.CLR_SAT_NFF] ||| em [E.CLR_SAT]

theorem satNff_frame (s : State) (h : Nat) : Frame W.satNff s (State.satNff s h) := by
  unfold State.satNff
  repeat' first
    | with_reducible assumption
    | with_reducible exact Frame.refl _ _
    | decide +kernel
    | with_reducible apply Frame.setB
    | with_reducible apply raise_fr
    | with_reducible apply Frame.ite
    | with_reducible refine Frame.ofPair (by assumption) ?_
    | split
    | (dsimp only; split)

def W.coefs : Nat := rm [R.CLR_COEF_LIVE] ||| W.readEntryFree

theorem coefs_frame (s : State) (h e : Nat) : Frame W.coefs s (State.coefs s h e).1 := by
  unfold State.coefs
  repeat' first
    | with_reducible assumption
    | with_reducible exact Frame.refl _ _
    | (intro _ _ _)
    | (intro _ _)
    | decide +kernel
    | with_reducible apply readEntryFree_fr
    | (with_reducible apply Frame.foldl1; rotate_left; intro _ _ _)
    | (with_reducible apply Frame.foldl; rotate_left; intro _ _ _)
    | with_reducible refine Frame.ofPair (by assumption) ?_

def W.sections : Nat := W.coefs

theorem sections_frame (s : State) (h i n : Nat) (x : Int) (sos : List (Int × Int)) : Frame W.sections s (State.sections s h i
    n x sos).1 := by
  unfold State.sections
  repeat' first
    | with_reducible assumption
    | with_reducible exact Frame.refl _ _
    | (intro _ _ _)
    | (intro _ _)
    | decide +kernel
    | with_reducible apply Frame.step (coefs_frame ..)
    | (with_reducible apply Frame.foldl1; rotate_left; intro _ _ _)
    | (with_reducible apply Frame.foldl; rotate_left; intro _ _ _)
    | with_reducible refine Frame.ofPair (by assumption) ?_

def W.nff : Nat := W.coefs ||| W.satFlags ||| W.satNff ||| W.updClr

theorem nff_frame (s : State) (h : Nat) : Frame W.nff s (State.nff s h).1 := by
  unfold State.nff
  repeat' first
    | with_reducible assumption
    | with_reducible exact Frame.refl _ _
    | (intro _ _ _)
    | (intro _ _)
    | decide +kernel
    | (with_reducible apply Frame.onlyIf; rotate_left; intro _ _)
    | with_reducible apply Frame.step (coefs_frame ..)
    | with_reducible apply Frame.step (satFlags_frame ..)
    | with_reducible apply Frame.step (satNff_frame ..)
    | with_reducible apply Frame.step (updClr_frame ..)
    | with_reducible apply Frame.ite
    | (with_reducible apply Frame.foldl1; rotate_left; intro _ _ _)
    | (with_reducible apply Frame.foldl; rotate_left; intro _ _ _)
    | with_reducible refine Frame.ofPair (by assumption) ?_
    | split
    | (dsimp only; split)

def W.runLoop : Nat := fm [F.CLR_OUT_U] ||| W.satFlags ||| W.sections ||| W.updClr ||| W.updLoop

theorem runLoop_frame (s : State) (h i : Nat) (nff : Int) : Frame W.runLoop s (State.runLoop s h i nff) := by
  unfold State.runLoop
  repeat' first
    | with_reducible assumption
    | with_reducible exact Frame.refl _ _
    | (intro _ _ _)
    | (intro _ _)
    | decide +kernel
    | with_reducible apply Frame.setF
    | with_reducible apply Frame.step (satFlags_frame ..)
    | with_reducible apply Frame.step (sections_frame ..)
    | with_reducible apply Frame.step (updClr_frame ..)
    | with_reducible apply Frame.step (updLoop_frame ..)
    | with_reducible apply Frame.ite
    | with_reducible refine Frame.ofPair (by assumption) ?_
    | split
    | (dsimp only; split)

def W.runLoops : Nat := fm [F.CLR_STATUS_SLEWING] ||| W.nff ||| W.runLoop

theorem runLoops_frame (s : State) (h : Nat) : Frame W.runLoops s (State.runLoops s h) := by
  unfold State.runLoops
  repeat' first
    | with_reducible assumption
    | with_reducible exact Frame.refl _ _
    | (intro _ _ _)
    | (intro _ _)
    | decide +kernel
    | (with_reducible apply Frame.forEach; rotate_left; intro _ _ _)
    | with_reducible apply Frame.setB
    | with_reducible apply Frame.step (nff_frame ..)
    | with_reducible apply Frame.step (runLoop_frame ..)
    | with_reducible apply Frame.ite
    | with_reducible refine Frame.ofPair (by assumption) ?_
    | split
    | (dsimp only; split)

def W.clearPosErr : Nat := fm [F.CHN_STATUS_POS_ERR] ||| W.updChan

theorem clearPosErr_frame (s : State) (h : Nat) : Frame W.clearPosErr s (State.clearPosErr s h) := by
  unfold State.clearPosErr
  repeat' first
    | with_reducible assumption
    | with_reducible exact Frame.refl _ _
    | (intro _ _ _)
    | (intro _ _)
    | decide +kernel
    | (with_reducible apply Frame.forEach; rotate_left; intro _ _ _)
    | with_reducible apply Frame.setB
    | with_reducible apply Frame.step (updChan_frame ..)

def W.setTrack : Nat := fm [F.CLR_POS_TRACK, F.CLR_POS_ZONE] ||| W.clearPosErr

theorem setTrack_frame (s : State) (h t : Nat) : Frame W.setTrack s (State.setTrack s h t) := by
  unfold State.setTrack
  repeat' first
    | with_reducible assumption
    | with_reducible exact Frame.refl _ _
    | (intro _ _ _)
    | (intro _ _)
    | decide +kernel
    | with_reducible apply Frame.setF
    | with_reducible apply Frame.step (clearPosErr_frame ..)
    | with_reducible apply Frame.ite
    | split
    | (dsimp only; split)

def W.advanceTrack : Nat := W.setTrack

theorem advanceTrack_frame (s : State) (h : Nat) (dx : Int) : Frame W.advanceTrack s (State.advanceTrack s h dx) := by
  unfold State.advanceTrack
  repeat' first
    | with_reducible assumption
    | with_reducible exact Frame.refl _ _
    | decide +kernel
    | with_reducible apply Frame.step (setTrack_frame ..)
    | with_reducible apply Frame.ite
    | split
    | (dsimp only; split)

def W.positionFix : Nat := fm [F.CLR_POS_EST, F.CLR_STATUS_TRK_VALID] ||| W.setTrack ||| W.updClr

theorem positionFix_frame (s : State) (h t : Nat) : Frame W.positionFix s (State.positionFix s h t) := by
  unfold State.positionFix
  repeat' first
    | with_reducible assumption
    | with_reducible exact Frame.refl _ _
    | (intro _ _ _)
    | (intro _ _)
    | decide +kernel
    | with_reducible apply Frame.setB
    | with_reducible apply Frame.step (setTrack_frame ..)
    | with_reducible apply Frame.step (updClr_frame ..)

def W.reportOt : Nat := fm [F.CLR_OFFTRACK_MAX, F.CLR_OFFTRACK_OT]

theorem reportOt_frame (s : State) (h : Nat) : Frame W.reportOt s (State.reportOt s h) := by
  unfold State.reportOt
  repeat' first
    | with_reducible assumption
    | with_reducible exact Frame.refl _ _
    | (intro _ _ _)
    | (intro _ _)
    | decide +kernel
    | with_reducible apply Frame.keepMax
    | with_reducible apply Frame.setF

def W.centreLens : Nat := W.driveLoop

theorem centreLens_frame (s : State) (h : Nat) : Frame W.centreLens s (State.centreLens s h) := by
  unfold State.centreLens
  repeat' first
    | with_reducible assumption
    | with_reducible exact Frame.refl _ _
    | decide +kernel
    | with_reducible apply Frame.step (driveLoop_frame ..)

def W.seekFail : Nat := em [E.CLR_SEEK_FAIL] ||| W.enterHold ||| W.takeoverFails ||| W.updBand

theorem seekFail_frame (s : State) (h : Nat) : Frame W.seekFail s (State.seekFail s h) := by
  unfold State.seekFail
  repeat' first
    | with_reducible assumption
    | with_reducible exact Frame.refl _ _
    | (intro _ _ _)
    | (intro _ _)
    | decide +kernel
    | with_reducible apply Frame.step (enterHold_frame ..)
    | with_reducible apply Frame.step (takeoverFails_frame ..)
    | with_reducible apply Frame.step (updBand_frame ..)
    | with_reducible apply raise_fr
    | with_reducible apply Frame.ite
    | with_reducible refine Frame.ofPair (by assumption) ?_
    | split
    | (dsimp only; split)

def W.startJump : Nat := W.driveLoop ||| W.openLoop ||| W.seekFail ||| W.setSeq

theorem startJump_frame (s : State) (h target ticks corr rep : Nat) : Frame W.startJump s (State.startJump s h target ticks
    corr rep) := by
  unfold State.startJump
  repeat' first
    | with_reducible assumption
    | with_reducible exact Frame.refl _ _
    | (intro _ _ _)
    | (intro _ _)
    | decide +kernel
    | with_reducible apply Frame.step (driveLoop_frame ..)
    | with_reducible apply Frame.step (openLoop_frame ..)
    | with_reducible apply Frame.step (seekFail_frame ..)
    | with_reducible apply Frame.step (setSeq_frame ..)
    | with_reducible apply Frame.ite
    | split
    | (dsimp only; split)

def W.startSeek : Nat := W.centreLens ||| W.openLoop ||| W.seekFail ||| W.setSeq ||| W.updSld

theorem startSeek_frame (s : State) (h target rep : Nat) : Frame W.startSeek s (State.startSeek s h target rep) := by
  unfold State.startSeek
  repeat' first
    | with_reducible assumption
    | with_reducible exact Frame.refl _ _
    | (intro _ _ _)
    | (intro _ _)
    | decide +kernel
    | with_reducible apply Frame.step (centreLens_frame ..)
    | with_reducible apply Frame.step (openLoop_frame ..)
    | with_reducible apply Frame.step (seekFail_frame ..)
    | with_reducible apply Frame.step (setSeq_frame ..)
    | with_reducible apply Frame.step (updSld_frame ..)
    | with_reducible apply Frame.ite
    | split
    | (dsimp only; split)

def W.moveTo : Nat := W.startJump ||| W.startSeek

theorem moveTo_frame (s : State) (h target rep : Nat) : Frame W.moveTo s (State.moveTo s h target rep) := by
  unfold State.moveTo
  repeat' first
    | with_reducible assumption
    | with_reducible exact Frame.refl _ _
    | (intro _ _ _)
    | (intro _ _)
    | decide +kernel
    | with_reducible apply Frame.step (startJump_frame ..)
    | with_reducible apply Frame.step (startSeek_frame ..)
    | with_reducible apply Frame.ite
    | split
    | (dsimp only; split)

def W.startHop : Nat := fm [F.CLR_POS_LAYER] ||| W.driveLoop ||| W.loseTrack ||| W.openLoop ||| W.setSeq

theorem startHop_frame (s : State) (h target : Nat) : Frame W.startHop s (State.startHop s h target) := by
  unfold State.startHop
  repeat' first
    | with_reducible assumption
    | with_reducible exact Frame.refl _ _
    | (intro _ _ _)
    | (intro _ _)
    | decide +kernel
    | with_reducible apply Frame.setF
    | with_reducible apply Frame.step (driveLoop_frame ..)
    | with_reducible apply Frame.step (loseTrack_frame ..)
    | with_reducible apply Frame.step (openLoop_frame ..)
    | with_reducible apply Frame.step (setSeq_frame ..)
    | with_reducible apply Frame.ite
    | split
    | (dsimp only; split)

def W.finishOp : Nat := W.endOp ||| W.updClr

theorem finishOp_frame (s : State) (h : Nat) : Frame W.finishOp s (State.finishOp s h) := by
  unfold State.finishOp
  repeat' first
    | with_reducible assumption
    | with_reducible exact Frame.refl _ _
    | (intro _ _ _)
    | (intro _ _)
    | decide +kernel
    | with_reducible apply Frame.step (endOp_frame ..)
    | with_reducible apply Frame.step (updClr_frame ..)

def W.parkHome : Nat := W.issue

theorem parkHome_frame (s : State) (h : Nat) : Frame W.parkHome s (State.parkHome s h) := by
  unfold State.parkHome
  repeat' first
    | with_reducible assumption
    | with_reducible exact Frame.refl _ _
    | (intro _ _ _)
    | (intro _ _)
    | decide +kernel
    | with_reducible apply Frame.step (issue_frame ..)
    | with_reducible apply Frame.ite
    | split
    | (dsimp only; split)

def W.parkHead : Nat := W.finishOp ||| W.setClr

theorem parkHead_frame (s : State) (h : Nat) : Frame W.parkHead s (State.parkHead s h) := by
  unfold State.parkHead
  repeat' first
    | with_reducible assumption
    | with_reducible exact Frame.refl _ _
    | decide +kernel
    | with_reducible apply Frame.step (finishOp_frame ..)
    | with_reducible apply Frame.step (setClr_frame ..)

def W.takeoverDone : Nat := em [E.GLB_TAKEOVER_DONE] ||| W.issueWaiting ||| W.setTaken ||| W.updBand

theorem takeoverDone_frame (s : State) (b : Nat) : Frame W.takeoverDone s (State.takeoverDone s b) := by
  unfold State.takeoverDone
  repeat' first
    | with_reducible assumption
    | with_reducible exact Frame.refl _ _
    | (intro _ _ _)
    | (intro _ _)
    | decide +kernel
    | with_reducible apply Frame.step (issueWaiting_frame ..)
    | with_reducible apply Frame.step (setTaken_frame ..)
    | with_reducible apply Frame.step (updBand_frame ..)
    | with_reducible apply raise_fr
    | with_reducible refine Frame.ofPair (by assumption) ?_

def W.continueOp : Nat := W.finishOp ||| W.moveTo ||| W.parkHead ||| W.setClr ||| W.startHop ||| W.takeoverDone

theorem continueOp_frame (s : State) (h : Nat) : Frame W.continueOp s (State.continueOp s h) := by
  unfold State.continueOp
  repeat' first
    | with_reducible assumption
    | with_reducible exact Frame.refl _ _
    | decide +kernel
    | with_reducible apply Frame.step (finishOp_frame ..)
    | with_reducible apply Frame.step (moveTo_frame ..)
    | with_reducible apply Frame.step (parkHead_frame ..)
    | with_reducible apply Frame.step (setClr_frame ..)
    | with_reducible apply Frame.step (startHop_frame ..)
    | with_reducible apply Frame.step (takeoverDone_frame ..)
    | with_reducible apply Frame.ite
    | split
    | (dsimp only; split)

def W.restContained : Nat := W.interruptOp

theorem restContained_frame (s : State) (h : Nat) : Frame W.restContained s (State.restContained s h) := by
  unfold State.restContained
  repeat' first
    | with_reducible assumption
    | with_reducible exact Frame.refl _ _
    | decide +kernel
    | with_reducible apply Frame.step (interruptOp_frame ..)
    | with_reducible apply Frame.ite
    | split
    | (dsimp only; split)

def W.enterFollow : Nat := W.continueOp ||| W.restContained ||| W.setClr ||| W.setSeq

theorem enterFollow_frame (s : State) (h : Nat) : Frame W.enterFollow s (State.enterFollow s h) := by
  unfold State.enterFollow
  repeat' first
    | with_reducible assumption
    | with_reducible exact Frame.refl _ _
    | (intro _ _ _)
    | (intro _ _)
    | decide +kernel
    | with_reducible apply Frame.step (continueOp_frame ..)
    | with_reducible apply Frame.step (restContained_frame ..)
    | with_reducible apply Frame.step (setClr_frame ..)
    | with_reducible apply Frame.step (setSeq_frame ..)
    | with_reducible apply Frame.ite
    | split
    | (dsimp only; split)

def W.captureTrack : Nat := W.closeLoop

theorem captureTrack_frame (s : State) (h : Nat) (acc : Option Int) : Frame W.captureTrack s (State.captureTrack s h acc) :=
    by
  unfold State.captureTrack
  repeat' first
    | with_reducible assumption
    | with_reducible exact Frame.refl _ _
    | decide +kernel
    | with_reducible apply Frame.step (closeLoop_frame ..)
    | with_reducible apply Frame.ite
    | split
    | (dsimp only; split)

def W.sweepStep : Nat := W.closeLoop ||| W.driveLoop ||| W.setSeq

theorem sweepStep_frame (s : State) (h k : Nat) (f : Int) (n : Nat) (peaked : Bool) : Frame W.sweepStep s (State.sweepStep s h
    k f n peaked) := by
  unfold State.sweepStep
  repeat' first
    | with_reducible assumption
    | with_reducible exact Frame.refl _ _
    | (intro _ _ _)
    | (intro _ _)
    | decide +kernel
    | (with_reducible apply Frame.onlyIf; rotate_left; intro _ _)
    | with_reducible apply Frame.step (closeLoop_frame ..)
    | with_reducible apply Frame.step (driveLoop_frame ..)
    | with_reducible apply Frame.step (setSeq_frame ..)
    | with_reducible apply Frame.ite
    | split
    | (dsimp only; split)

def W.rampStep : Nat := W.driveLoop ||| W.setSeq

theorem rampStep_frame (s : State) (h k : Nat) (f : Int) : Frame W.rampStep s (State.rampStep s h k f) := by
  unfold State.rampStep
  repeat' first
    | with_reducible assumption
    | with_reducible exact Frame.refl _ _
    | (intro _ _ _)
    | (intro _ _)
    | decide +kernel
    | with_reducible apply Frame.step (driveLoop_frame ..)
    | with_reducible apply Frame.step (setSeq_frame ..)
    | with_reducible apply Frame.ite
    | split
    | (dsimp only; split)

def W.hopStep : Nat := W.closeLoop ||| W.driveLoop ||| W.setSeq

theorem hopStep_frame (s : State) (h target : Nat) (dir : Int) (ticks phase : Nat) (peak : Int) (ok : Nat) : Frame W.hopStep s
    (State.hopStep s h target dir ticks phase peak ok) := by
  unfold State.hopStep
  repeat' first
    | with_reducible assumption
    | with_reducible exact Frame.refl _ _
    | (intro _ _ _)
    | (intro _ _)
    | decide +kernel
    | with_reducible apply Frame.step (closeLoop_frame ..)
    | with_reducible apply Frame.step (driveLoop_frame ..)
    | with_reducible apply Frame.step (setSeq_frame ..)
    | with_reducible apply Frame.ite
    | split
    | (dsimp only; split)

def W.seqBefore : Nat := W.captureTrack ||| W.centreLens ||| W.hopStep ||| W.rampStep ||| W.setSeq ||| W.sweepStep

theorem seqBefore_frame (s : State) (h : Nat) (dx : Int) : Frame W.seqBefore s (State.seqBefore s h dx) := by
  unfold State.seqBefore
  repeat' first
    | with_reducible assumption
    | with_reducible exact Frame.refl _ _
    | decide +kernel
    | with_reducible apply Frame.step (captureTrack_frame ..)
    | with_reducible apply Frame.step (centreLens_frame ..)
    | with_reducible apply Frame.step (hopStep_frame ..)
    | with_reducible apply Frame.step (rampStep_frame ..)
    | with_reducible apply Frame.step (setSeq_frame ..)
    | with_reducible apply Frame.step (sweepStep_frame ..)
    | with_reducible apply Frame.ite
    | split
    | (dsimp only; split)

def W.captureCheck : Nat := W.openLoop ||| W.setSeq

theorem captureCheck_frame (s : State) (h k t : Nat) (f : Int) : Frame W.captureCheck s (State.captureCheck s h k t f) := by
  unfold State.captureCheck
  repeat' first
    | with_reducible assumption
    | with_reducible exact Frame.refl _ _
    | decide +kernel
    | with_reducible apply Frame.step (openLoop_frame ..)
    | with_reducible apply Frame.step (setSeq_frame ..)
    | with_reducible apply Frame.ite
    | split
    | (dsimp only; split)

def W.settleCheck : Nat := W.setSeq ||| W.startJump

theorem settleCheck_frame (s : State) (h a t r rep : Nat) : Frame W.settleCheck s (State.settleCheck s h a t r rep) := by
  unfold State.settleCheck
  repeat' first
    | with_reducible assumption
    | with_reducible exact Frame.refl _ _
    | decide +kernel
    | with_reducible apply Frame.step (setSeq_frame ..)
    | with_reducible apply Frame.step (startJump_frame ..)
    | with_reducible apply Frame.ite
    | split
    | (dsimp only; split)

def W.sledCheck : Nat := W.seekFail ||| W.startJump ||| W.startSeek

theorem sledCheck_frame (s : State) (h a rep : Nat) : Frame W.sledCheck s (State.sledCheck s h a rep) := by
  unfold State.sledCheck
  repeat' first
    | with_reducible assumption
    | with_reducible exact Frame.refl _ _
    | (intro _ _ _)
    | (intro _ _)
    | decide +kernel
    | with_reducible apply Frame.step (seekFail_frame ..)
    | with_reducible apply Frame.step (startJump_frame ..)
    | with_reducible apply Frame.step (startSeek_frame ..)
    | with_reducible apply Frame.ite
    | split
    | (dsimp only; split)

def W.seqAfter : Nat := W.captureCheck ||| W.enterFollow ||| W.setSeq ||| W.settleCheck ||| W.sledCheck

theorem seqAfter_frame (s : State) (h : Nat) : Frame W.seqAfter s (State.seqAfter s h) := by
  unfold State.seqAfter
  repeat' first
    | with_reducible assumption
    | with_reducible exact Frame.refl _ _
    | decide +kernel
    | with_reducible apply Frame.step (captureCheck_frame ..)
    | with_reducible apply Frame.step (enterFollow_frame ..)
    | with_reducible apply Frame.step (setSeq_frame ..)
    | with_reducible apply Frame.step (settleCheck_frame ..)
    | with_reducible apply Frame.step (sledCheck_frame ..)
    | with_reducible apply Frame.ite
    | split
    | (dsimp only; split)

def W.lensFilter : Nat := fm [F.CLR_SF_STATUS_LO] ||| W.updClr

theorem lensFilter_frame (s : State) (h : Nat) : Frame W.lensFilter s (State.lensFilter s h) := by
  unfold State.lensFilter
  repeat' first
    | with_reducible assumption
    | with_reducible exact Frame.refl _ _
    | (intro _ _ _)
    | (intro _ _)
    | decide +kernel
    | with_reducible apply Frame.setF
    | with_reducible apply Frame.step (updClr_frame ..)
    | with_reducible apply Frame.ite
    | split
    | (dsimp only; split)

def W.sledFollow : Nat := fm [F.CLR_SF_STATUS_STEPS] ||| em [E.CLR_SF_LIMIT] ||| W.enterHold ||| W.updClr ||| W.updSld

theorem sledFollow_frame (s : State) (h : Nat) : Frame W.sledFollow s (State.sledFollow s h) := by
  unfold State.sledFollow
  repeat' first
    | with_reducible assumption
    | with_reducible exact Frame.refl _ _
    | (intro _ _ _)
    | (intro _ _)
    | decide +kernel
    | (with_reducible apply Frame.onlyIf; rotate_left; intro _ _)
    | with_reducible apply Frame.count
    | with_reducible apply Frame.step (enterHold_frame ..)
    | with_reducible apply Frame.step (updClr_frame ..)
    | with_reducible apply Frame.step (updSld_frame ..)
    | with_reducible apply raise_fr
    | with_reducible apply Frame.ite
    | with_reducible refine Frame.ofPair (by assumption) ?_
    | split
    | (dsimp only; split)

def W.rpCount : Nat := W.startPower ||| W.updClr

theorem rpCount_frame (s : State) (h : Nat) : Frame W.rpCount s (State.rpCount s h) := by
  unfold State.rpCount
  repeat' first
    | with_reducible assumption
    | with_reducible exact Frame.refl _ _
    | (intro _ _ _)
    | (intro _ _)
    | decide +kernel
    | with_reducible apply Frame.step (startPower_frame ..)
    | with_reducible apply Frame.step (updClr_frame ..)
    | with_reducible apply Frame.ite
    | split
    | (dsimp only; split)

def W.rpEvaluate : Nat := fm [F.CLR_RP_STATUS_ATLIM, F.CLR_RP_STATUS_CODE] ||| em [E.CLR_RP_LIMIT] ||| W.updClr

theorem rpEvaluate_frame (s : State) (h : Nat) : Frame W.rpEvaluate s (State.rpEvaluate s h) := by
  unfold State.rpEvaluate
  repeat' first
    | with_reducible assumption
    | with_reducible exact Frame.refl _ _
    | (intro _ _ _)
    | (intro _ _)
    | decide +kernel
    | (with_reducible apply Frame.onlyIf; rotate_left; intro _ _)
    | with_reducible apply Frame.setF
    | with_reducible apply Frame.step (updClr_frame ..)
    | with_reducible apply raise_fr
    | with_reducible apply Frame.ite
    | with_reducible refine Frame.ofPair (by assumption) ?_
    | split
    | (dsimp only; split)

def W.coefCopy : Nat := fm [F.CLR_COEF_COMMIT_PEND, F.CLR_COEF_COMMIT_ZERO_STATE, F.CLR_STATUS_COMMIT_PEND] ||| rm
    [R.CLR_COEF, R.CLR_COEF_LIVE] ||| W.goodCheck ||| W.readEntryFree ||| W.updClr ||| W.updLoop

theorem coefCopy_frame (s : State) (h : Nat) : Frame W.coefCopy s (State.coefCopy s h) := by
  unfold State.coefCopy
  repeat' first
    | with_reducible assumption
    | with_reducible exact Frame.refl _ _
    | (intro _ _ _)
    | (intro _ _)
    | decide +kernel
    | (with_reducible apply Frame.forEach; rotate_left; intro _ _ _)
    | with_reducible apply Frame.setB
    | with_reducible apply Frame.step (updClr_frame ..)
    | with_reducible apply Frame.step (updLoop_frame ..)
    | with_reducible apply putEntry_fr
    | with_reducible apply readEntryFree_fr
    | with_reducible apply Frame.ite
    | with_reducible refine Frame.ofPair (by assumption) ?_
    | split
    | (dsimp only; split)

end Sys2Proof.Laws
end

