-- ==== Sys2Proof/Laws/FrWndOps.lean ====
section
/-!
SUPPORT. Frames of the operations of Machine/WndOps.lean: one law per operation, with the mask of what it may change.
-/
set_option Elab.async false
set_option linter.unusedTactic false
set_option linter.unreachableTactic false

namespace Sys2Proof.Laws

open Sys2Proof.Machine

def W.updWnd : Nat := 2 ^ 8

theorem updWnd_frame (s : State) (d : Nat) (f : DeckS → DeckS) : Frame W.updWnd s (State.updWnd s d f) := by
  unfold State.updWnd
  repeat' first
    | with_reducible assumption
    | with_reducible exact Frame.refl _ _
    | decide +kernel
    | (with_reducible refine Frame.upd ?_ rfl ?_ ?_ ?_ ?_ ?_ ?_ ?_ ?_ ?_ ?_ ?_ ?_ ?_ ?_ ?_ ?_ ?_ <;>
        first | with_reducible exact Or.inl rfl | with_reducible exact Or.inr ⟨by decide +kernel, Nat.mod_lt _ (Nat.two_pow_pos 48)⟩ |
          exact Or.inr ⟨by decide +kernel, rfl, rfl⟩ | exact Or.inr ⟨by decide +kernel, rfl⟩ |
          exact Or.inr (by decide +kernel) | skip)

def W.drivePwm : Nat := 2 ^ 17

theorem drivePwm_frame (s : State) (d : Nat) (u v w : Option Nat) : Frame W.drivePwm s (State.drivePwm s d u v w) := by
  unfold State.drivePwm
  repeat' first
    | with_reducible assumption
    | with_reducible exact Frame.refl _ _
    | (intro _ _ _)
    | (intro _ _)
    | decide +kernel
    | with_reducible apply Frame.emit

def W.setDeck : Nat := fm [F.GLB_DECK_FAULT_DECK, F.WND_STATUS_PHASE, F.WND_STATUS_STATE] ||| W.ltrUpdate

theorem setDeck_frame (s : State) (d st : Nat) : Frame W.setDeck s (State.setDeck s d st) := by
  unfold State.setDeck
  repeat' first
    | with_reducible assumption
    | with_reducible exact Frame.refl _ _
    | (intro _ _ _)
    | (intro _ _)
    | decide +kernel
    | with_reducible apply Frame.putF
    | with_reducible apply Frame.setF
    | with_reducible apply Frame.step (ltrUpdate_frame ..)
    | with_reducible apply Frame.ite
    | split
    | (dsimp only; split)

def W.setPhase : Nat := fm [F.WND_STATUS_PHASE] ||| W.updWnd

theorem setPhase_frame (s : State) (d ph : Nat) : Frame W.setPhase s (State.setPhase s d ph) := by
  unfold State.setPhase
  repeat' first
    | with_reducible assumption
    | with_reducible exact Frame.refl _ _
    | (intro _ _ _)
    | (intro _ _)
    | decide +kernel
    | with_reducible apply Frame.setF
    | with_reducible apply Frame.step (updWnd_frame ..)

def W.gatesOff : Nat := fm [F.WND_STATUS_ANGLE_VALID, F.WND_STATUS_CHOP_ON, F.WND_STATUS_LOCKED, F.WND_STATUS_REF,
    F.WND_STATUS_SECTOR, F.WND_STATUS_SHORT] ||| 2 ^ 17 ||| W.updWnd

theorem gatesOff_frame (s : State) (d : Nat) : Frame W.gatesOff s (State.gatesOff s d) := by
  unfold State.gatesOff
  repeat' first
    | with_reducible assumption
    | with_reducible exact Frame.refl _ _
    | (intro _ _ _)
    | (intro _ _)
    | decide +kernel
    | with_reducible apply Frame.emit
    | with_reducible apply Frame.setB
    | with_reducible apply Frame.setF
    | with_reducible apply Frame.step (updWnd_frame ..)

def W.startShort : Nat := fm [F.WND_STATUS_AT_REST, F.WND_STATUS_SECTOR, F.WND_STATUS_SHORT] ||| 2 ^ 17 ||| W.updWnd

theorem startShort_frame (s : State) (d : Nat) : Frame W.startShort s (State.startShort s d) := by
  unfold State.startShort
  repeat' first
    | with_reducible assumption
    | with_reducible exact Frame.refl _ _
    | (intro _ _ _)
    | (intro _ _)
    | decide +kernel
    | with_reducible apply Frame.emit
    | with_reducible apply Frame.setB
    | with_reducible apply Frame.setF
    | with_reducible apply Frame.step (updWnd_frame ..)

def W.startRamp : Nat := W.updWnd

theorem startRamp_frame (s : State) (d : Nat) : Frame W.startRamp s (State.startRamp s d) := by
  unfold State.startRamp
  repeat' first
    | with_reducible assumption
    | with_reducible exact Frame.refl _ _
    | (intro _ _ _)
    | (intro _ _)
    | decide +kernel
    | with_reducible apply Frame.step (updWnd_frame ..)

def W.enterMeasure : Nat := W.gatesOff ||| W.setDeck ||| W.setPhase ||| W.updWnd

theorem enterMeasure_frame (s : State) (d : Nat) : Frame W.enterMeasure s (State.enterMeasure s d) := by
  unfold State.enterMeasure
  repeat' first
    | with_reducible assumption
    | with_reducible exact Frame.refl _ _
    | (intro _ _ _)
    | (intro _ _)
    | decide +kernel
    | with_reducible apply Frame.step (gatesOff_frame ..)
    | with_reducible apply Frame.step (setDeck_frame ..)
    | with_reducible apply Frame.step (setPhase_frame ..)
    | with_reducible apply Frame.step (updWnd_frame ..)

def W.deckFatal : Nat := fm [F.WND_STATUS_ANGLE_VALID] ||| W.deckHeadsFatal ||| W.setDeck ||| W.startRamp ||| W.startShort |||
    W.updWnd

theorem deckFatal_frame (s : State) (d : Nat) (b : FatalBrake) : Frame W.deckFatal s (State.deckFatal s d b) := by
  unfold State.deckFatal
  repeat' first
    | with_reducible assumption
    | with_reducible exact Frame.refl _ _
    | (intro _ _ _)
    | (intro _ _)
    | decide +kernel
    | with_reducible apply Frame.setB
    | with_reducible apply Frame.step (deckHeadsFatal_frame ..)
    | with_reducible apply Frame.step (setDeck_frame ..)
    | with_reducible apply Frame.step (startRamp_frame ..)
    | with_reducible apply Frame.step (startShort_frame ..)
    | with_reducible apply Frame.step (updWnd_frame ..)
    | with_reducible apply Frame.ite
    | split
    | (dsimp only; split)

def W.observe : Nat := fm [F.WND_ANGLE_ELEC, F.WND_ANGLE_THETA, F.WND_DTHETA_DTHETA, F.WND_STATUS_ANGLE_VALID] ||| W.updWnd

theorem observe_frame (s : State) (d : Nat) : Frame W.observe s (State.observe s d) := by
  unfold State.observe
  repeat' first
    | with_reducible assumption
    | with_reducible exact Frame.refl _ _
    | (intro _ _ _)
    | (intro _ _)
    | decide +kernel
    | with_reducible apply Frame.setB
    | with_reducible apply Frame.setF
    | with_reducible apply Frame.step (updWnd_frame ..)
    | with_reducible apply Frame.ite
    | split
    | (dsimp only; split)

def W.loseSync : Nat := fm [F.WND_COUNTS_LOS, F.WND_STATUS_ANGLE_VALID, F.WND_STATUS_LOCKED, F.WND_STATUS_REF] ||| em
    [E.WND_LOS, E.WND_LOS_REPEAT] ||| W.deckFatal ||| W.enterMeasure ||| W.startShort ||| W.updWnd

theorem loseSync_frame (s : State) (d : Nat) : Frame W.loseSync s (State.loseSync s d) := by
  unfold State.loseSync
  repeat' first
    | with_reducible assumption
    | with_reducible exact Frame.refl _ _
    | (intro _ _ _)
    | (intro _ _)
    | decide +kernel
    | with_reducible apply Frame.count
    | with_reducible apply Frame.setB
    | with_reducible apply Frame.setF
    | with_reducible apply Frame.step (deckFatal_frame ..)
    | with_reducible apply Frame.step (enterMeasure_frame ..)
    | with_reducible apply Frame.step (startShort_frame ..)
    | with_reducible apply Frame.step (updWnd_frame ..)
    | with_reducible apply raise_fr
    | with_reducible apply Frame.ite
    | with_reducible refine Frame.ofPair (by assumption) ?_
    | split
    | (dsimp only; split)

def W.moveOffset : Nat := fm [F.WND_OFFSET_OFFSET]

theorem moveOffset_frame (s : State) (d : Nat) (z : Int) : Frame W.moveOffset s (State.moveOffset s d z) := by
  unfold State.moveOffset
  repeat' first
    | with_reducible assumption
    | with_reducible exact Frame.refl _ _
    | decide +kernel
    | with_reducible apply Frame.setF

def W.stepOffset : Nat := fm [F.WND_COUNTS_REF] ||| W.moveOffset ||| W.updWnd

theorem stepOffset_frame (s : State) (d : Nat) (z : Int) : Frame W.stepOffset s (State.stepOffset s d z) := by
  unfold State.stepOffset
  repeat' first
    | with_reducible assumption
    | with_reducible exact Frame.refl _ _
    | (intro _ _ _)
    | (intro _ _)
    | decide +kernel
    | with_reducible apply Frame.count
    | with_reducible apply Frame.step (moveOffset_frame ..)
    | with_reducible apply Frame.step (updWnd_frame ..)

def W.useReport : Nat := fm [F.WND_PILLAR_MAXRES, F.WND_PILLAR_RESID, F.WND_STATUS_REF] ||| em [E.WND_REF_JUMP,
    E.WND_REF_STEP] ||| W.moveOffset ||| W.stepOffset ||| W.updWnd

theorem useReport_frame (s : State) (d : Nat) (r : Int) : Frame W.useReport s (State.useReport s d r) := by
  unfold State.useReport
  repeat' first
    | with_reducible assumption
    | with_reducible exact Frame.refl _ _
    | (intro _ _ _)
    | (intro _ _)
    | decide +kernel
    | with_reducible apply Frame.keepMax
    | with_reducible apply Frame.setF
    | with_reducible apply Frame.step (moveOffset_frame ..)
    | with_reducible apply Frame.step (stepOffset_frame ..)
    | with_reducible apply Frame.step (updWnd_frame ..)
    | with_reducible apply raise_fr
    | with_reducible apply Frame.ite
    | with_reducible refine Frame.ofPair (by assumption) ?_
    | split
    | (dsimp only; split)

def W.chopper : Nat := fm [F.WND_STATUS_CHOP_ON] ||| em [E.WND_CHOP_FAULT] ||| 2 ^ 17 ||| W.deckFatal ||| W.startShort |||
    W.updWnd

theorem chopper_frame (s : State) (d : Nat) (x : MotorIn) : Frame W.chopper s (State.chopper s d x) := by
  unfold State.chopper
  repeat' first
    | with_reducible assumption
    | with_reducible exact Frame.refl _ _
    | (intro _ _ _)
    | (intro _ _)
    | decide +kernel
    | (with_reducible apply Frame.onlyIf; rotate_left; intro _ _)
    | with_reducible apply Frame.emit
    | with_reducible apply Frame.setB
    | with_reducible apply Frame.step (deckFatal_frame ..)
    | with_reducible apply Frame.step (startShort_frame ..)
    | with_reducible apply Frame.step (updWnd_frame ..)
    | with_reducible apply raise_fr
    | with_reducible apply Frame.ite
    | with_reducible refine Frame.ofPair (by assumption) ?_
    | split
    | (dsimp only; split)

def W.reShort : Nat := fm [F.WND_STATUS_SHORT] ||| 2 ^ 17 ||| W.updWnd

theorem reShort_frame (s : State) (d : Nat) : Frame W.reShort s (State.reShort s d) := by
  unfold State.reShort
  repeat' first
    | with_reducible assumption
    | with_reducible exact Frame.refl _ _
    | (intro _ _ _)
    | (intro _ _)
    | decide +kernel
    | with_reducible apply Frame.emit
    | with_reducible apply Frame.setB
    | with_reducible apply Frame.step (updWnd_frame ..)

def W.overVolt : Nat := em [E.WND_OVERVOLT] ||| W.deckFatal ||| W.reShort ||| W.startShort

theorem overVolt_frame (s : State) (d vbus : Nat) : Frame W.overVolt s (State.overVolt s d vbus) := by
  unfold State.overVolt
  repeat' first
    | with_reducible assumption
    | with_reducible exact Frame.refl _ _
    | (intro _ _ _)
    | (intro _ _)
    | decide +kernel
    | with_reducible apply Frame.step (deckFatal_frame ..)
    | with_reducible apply Frame.step (reShort_frame ..)
    | with_reducible apply Frame.step (startShort_frame ..)
    | with_reducible apply raise_fr
    | with_reducible apply Frame.ite
    | with_reducible refine Frame.ofPair (by assumption) ?_
    | split
    | (dsimp only; split)

def W.restCount : Nat := fm [F.WND_STATUS_AT_REST] ||| W.updWnd

theorem restCount_frame (s : State) (d : Nat) (x : MotorIn) : Frame W.restCount s (State.restCount s d x) := by
  unfold State.restCount
  repeat' first
    | with_reducible assumption
    | with_reducible exact Frame.refl _ _
    | (intro _ _ _)
    | (intro _ _)
    | decide +kernel
    | with_reducible apply Frame.setB
    | with_reducible apply Frame.step (updWnd_frame ..)
    | with_reducible apply Frame.ite
    | split
    | (dsimp only; split)

def W.lockCount : Nat := fm [F.WND_STATUS_LOCKED, F.WND_STATUS_REF] ||| W.updWnd

theorem lockCount_frame (s : State) (d : Nat) (err : Nat) : Frame W.lockCount s (State.lockCount s d err) := by
  unfold State.lockCount
  repeat' first
    | with_reducible assumption
    | with_reducible exact Frame.refl _ _
    | (intro _ _ _)
    | (intro _ _)
    | decide +kernel
    | with_reducible apply Frame.setB
    | with_reducible apply Frame.setF
    | with_reducible apply Frame.step (updWnd_frame ..)
    | with_reducible apply Frame.ite
    | split
    | (dsimp only; split)

def W.syncCount : Nat := W.updWnd

theorem syncCount_frame (s : State) (d err : Nat) (amp : Option Nat) : Frame W.syncCount s (State.syncCount s d err amp).1 :=
    by
  unfold State.syncCount
  repeat' first
    | with_reducible assumption
    | with_reducible exact Frame.refl _ _
    | (intro _ _ _)
    | (intro _ _)
    | decide +kernel
    | with_reducible apply Frame.step (updWnd_frame ..)
    | with_reducible apply Frame.ite
    | split
    | (dsimp only; split)

def W.pll : Nat := W.lockCount ||| W.syncCount ||| W.updWnd

theorem pll_frame (s : State) (d : Nat) (x : MotorIn) : Frame W.pll s (State.pll s d x).1 := by
  unfold State.pll
  repeat' first
    | with_reducible assumption
    | with_reducible exact Frame.refl _ _
    | (intro _ _ _)
    | (intro _ _)
    | decide +kernel
    | with_reducible apply Frame.step (lockCount_frame ..)
    | with_reducible apply Frame.step (syncCount_frame ..)
    | with_reducible apply Frame.step (updWnd_frame ..)
    | with_reducible apply Frame.ite
    | with_reducible refine Frame.ofPair (by assumption) ?_
    | split
    | (dsimp only; split)

def W.regenLimit : Nat := em [E.WND_REGEN_LIMIT] ||| W.updWnd

theorem regenLimit_frame (s : State) (d : Nat) (vbus : Nat) : Frame W.regenLimit s (State.regenLimit s d vbus) := by
  unfold State.regenLimit
  repeat' first
    | with_reducible assumption
    | with_reducible exact Frame.refl _ _
    | (intro _ _ _)
    | (intro _ _)
    | decide +kernel
    | (with_reducible apply Frame.onlyIf; rotate_left; intro _ _)
    | with_reducible apply Frame.step (updWnd_frame ..)
    | with_reducible apply raise_fr
    | with_reducible apply Frame.ite
    | with_reducible refine Frame.ofPair (by assumption) ?_
    | split
    | (dsimp only; split)

def W.fullLoop : Nat := fm [F.WND_IDQ_ID, F.WND_IDQ_IQ, F.WND_STATUS_SECTOR] ||| em [E.WND_VSAT] ||| W.updWnd

theorem fullLoop_frame (s : State) (d : Nat) (x : MotorIn) : Frame W.fullLoop s (State.fullLoop s d x) := by
  unfold State.fullLoop
  repeat' first
    | with_reducible assumption
    | with_reducible exact Frame.refl _ _
    | (intro _ _ _)
    | (intro _ _)
    | decide +kernel
    | (with_reducible apply Frame.onlyIf; rotate_left; intro _ _)
    | with_reducible apply Frame.setF
    | with_reducible apply Frame.step (updWnd_frame ..)
    | with_reducible apply raise_fr
    | with_reducible apply Frame.ite
    | with_reducible refine Frame.ofPair (by assumption) ?_
    | split
    | (dsimp only; split)

def W.compactLoop : Nat := fm [F.WND_IDQ_ID, F.WND_IDQ_IQ, F.WND_STATUS_SECTOR] ||| em [E.WND_VSAT] ||| W.updWnd

theorem compactLoop_frame (s : State) (d : Nat) (x : MotorIn) : Frame W.compactLoop s (State.compactLoop s d x) := by
  unfold State.compactLoop
  repeat' first
    | with_reducible assumption
    | with_reducible exact Frame.refl _ _
    | (intro _ _ _)
    | (intro _ _)
    | decide +kernel
    | (with_reducible apply Frame.onlyIf; rotate_left; intro _ _)
    | with_reducible apply Frame.setF
    | with_reducible apply Frame.step (updWnd_frame ..)
    | with_reducible apply raise_fr
    | with_reducible apply Frame.ite
    | with_reducible refine Frame.ofPair (by assumption) ?_
    | split
    | (dsimp only; split)

def W.carrierPeak : Nat := W.drivePwm ||| W.updWnd

theorem carrierPeak_frame (s : State) (d : Nat) : Frame W.carrierPeak s (State.carrierPeak s d) := by
  unfold State.carrierPeak
  repeat' first
    | with_reducible assumption
    | with_reducible exact Frame.refl _ _
    | (intro _ _ _)
    | (intro _ _)
    | decide +kernel
    | with_reducible apply Frame.step (drivePwm_frame ..)
    | with_reducible apply Frame.step (updWnd_frame ..)
    | split
    | (dsimp only; split)

def W.spinStep : Nat := W.gatesOff ||| W.setPhase ||| W.updWnd

theorem spinStep_frame (s : State) (d : Nat) : Frame W.spinStep s (State.spinStep s d) := by
  unfold State.spinStep
  repeat' first
    | with_reducible assumption
    | with_reducible exact Frame.refl _ _
    | (intro _ _ _)
    | (intro _ _)
    | decide +kernel
    | with_reducible apply Frame.step (gatesOff_frame ..)
    | with_reducible apply Frame.step (setPhase_frame ..)
    | with_reducible apply Frame.step (updWnd_frame ..)
    | with_reducible apply Frame.ite
    | split
    | (dsimp only; split)

def W.brakeStep : Nat := W.startShort ||| W.updWnd

theorem brakeStep_frame (s : State) (d : Nat) : Frame W.brakeStep s (State.brakeStep s d) := by
  unfold State.brakeStep
  repeat' first
    | with_reducible assumption
    | with_reducible exact Frame.refl _ _
    | (intro _ _ _)
    | (intro _ _)
    | decide +kernel
    | with_reducible apply Frame.step (startShort_frame ..)
    | with_reducible apply Frame.step (updWnd_frame ..)
    | with_reducible apply Frame.ite
    | split
    | (dsimp only; split)

def W.motorDeck : Nat := fm [F.WND_BUS_IBRK, F.WND_BUS_VBUS, F.WND_STATUS_REVERSE] ||| W.brakeStep ||| W.chopper |||
    W.compactLoop ||| W.fullLoop ||| W.loseSync ||| W.overVolt ||| W.pll ||| W.regenLimit ||| W.restCount ||| W.spinStep |||
    W.startRamp ||| W.updWnd

theorem motorDeck_frame (s : State) (d : Nat) (x : MotorIn) : Frame W.motorDeck s (State.motorDeck s d x) := by
  unfold State.motorDeck
  repeat' first
    | with_reducible assumption
    | with_reducible exact Frame.refl _ _
    | (intro _ _ _)
    | (intro _ _)
    | decide +kernel
    | (with_reducible apply Frame.onlyIf; rotate_left; intro _ _)
    | with_reducible apply Frame.setB
    | with_reducible apply Frame.setF
    | with_reducible apply Frame.step (brakeStep_frame ..)
    | with_reducible apply Frame.step (chopper_frame ..)
    | with_reducible apply Frame.step (compactLoop_frame ..)
    | with_reducible apply Frame.step (fullLoop_frame ..)
    | with_reducible apply Frame.step (loseSync_frame ..)
    | with_reducible apply Frame.step (overVolt_frame ..)
    | with_reducible apply Frame.step (pll_frame ..)
    | with_reducible apply Frame.step (regenLimit_frame ..)
    | with_reducible apply Frame.step (restCount_frame ..)
    | with_reducible apply Frame.step (spinStep_frame ..)
    | with_reducible apply Frame.step (startRamp_frame ..)
    | with_reducible apply Frame.step (updWnd_frame ..)
    | with_reducible apply Frame.ite
    | with_reducible refine Frame.ofPair (by assumption) ?_
    | split
    | (dsimp only; split)

def W.rampStep2 : Nat := W.updWnd

theorem rampStep2_frame (s : State) (d : Nat) : Frame W.rampStep2 s (State.rampStep2 s d) := by
  unfold State.rampStep2
  repeat' first
    | with_reducible assumption
    | with_reducible exact Frame.refl _ _
    | (intro _ _ _)
    | (intro _ _)
    | decide +kernel
    | with_reducible apply Frame.step (updWnd_frame ..)
    | with_reducible apply Frame.ite
    | split
    | (dsimp only; split)

def W.speedLoop : Nat := W.updWnd

theorem speedLoop_frame (s : State) (d : Nat) (trim : Int) : Frame W.speedLoop s (State.speedLoop s d trim) := by
  unfold State.speedLoop
  repeat' first
    | with_reducible assumption
    | with_reducible exact Frame.refl _ _
    | (intro _ _ _)
    | (intro _ _)
    | decide +kernel
    | with_reducible apply Frame.step (updWnd_frame ..)
    | with_reducible apply Frame.ite
    | split
    | (dsimp only; split)

def W.atSpeed : Nat := fm [F.WND_STATUS_AT_SPEED] ||| em [E.WND_READY] ||| W.setDeck ||| W.updWnd

theorem atSpeed_frame (s : State) (d : Nat) : Frame W.atSpeed s (State.atSpeed s d) := by
  unfold State.atSpeed
  repeat' first
    | with_reducible assumption
    | with_reducible exact Frame.refl _ _
    | (intro _ _ _)
    | (intro _ _)
    | decide +kernel
    | with_reducible apply Frame.setB
    | with_reducible apply Frame.step (setDeck_frame ..)
    | with_reducible apply Frame.step (updWnd_frame ..)
    | with_reducible apply raise_fr
    | with_reducible apply Frame.ite
    | with_reducible refine Frame.ofPair (by assumption) ?_
    | split
    | (dsimp only; split)

def W.pairLock : Nat := fm [F.WND_STATUS_PAIR_LOCK] ||| em [E.WND_PAIR]

theorem pairLock_frame (s : State) (d : Nat) (b : Bool) : Frame W.pairLock s (State.pairLock s d b) := by
  unfold State.pairLock
  repeat' first
    | with_reducible assumption
    | with_reducible exact Frame.refl _ _
    | decide +kernel
    | with_reducible apply Frame.setB
    | with_reducible apply raise_fr
    | with_reducible apply Frame.ite
    | with_reducible refine Frame.ofPair (by assumption) ?_
    | split
    | (dsimp only; split)

def W.pairTrim : Nat := fm [F.WND_PAIR_STATUS_DELTA, F.WND_PAIR_STATUS_TRIM] ||| W.pairLock ||| W.updWnd

theorem pairTrim_frame (s : State) (d : Nat) (delta : Option Int) : Frame W.pairTrim s (State.pairTrim s d delta).1 := by
  unfold State.pairTrim
  repeat' first
    | with_reducible assumption
    | with_reducible exact Frame.refl _ _
    | (intro _ _ _)
    | (intro _ _)
    | decide +kernel
    | with_reducible apply Frame.setF
    | with_reducible apply Frame.step (pairLock_frame ..)
    | with_reducible apply Frame.step (updWnd_frame ..)
    | with_reducible apply Frame.ite
    | split
    | (dsimp only; split)

def W.speedDeck : Nat := fm [F.WND_SPEED_MEAS, F.WND_SPEED_RAMP] ||| W.atSpeed ||| W.loseSync ||| W.pairTrim ||| W.rampStep2
    ||| W.speedLoop ||| W.updWnd

theorem speedDeck_frame (s : State) (d : Nat) (ring : Option Int) : Frame W.speedDeck s (State.speedDeck s d ring) := by
  unfold State.speedDeck
  repeat' first
    | with_reducible assumption
    | with_reducible exact Frame.refl _ _
    | (intro _ _ _)
    | (intro _ _)
    | decide +kernel
    | with_reducible apply Frame.setF
    | with_reducible apply Frame.step (atSpeed_frame ..)
    | with_reducible apply Frame.step (loseSync_frame ..)
    | with_reducible apply Frame.step (pairTrim_frame ..)
    | with_reducible apply Frame.step (rampStep2_frame ..)
    | with_reducible apply Frame.step (speedLoop_frame ..)
    | with_reducible apply Frame.step (updWnd_frame ..)
    | with_reducible apply Frame.ite
    | with_reducible refine Frame.ofPair (by assumption) ?_
    | split
    | (dsimp only; split)

def W.skipPulse : Nat := fm [F.WND_STATUS_CHOP_ON, F.WND_STATUS_LOCKED, F.WND_STATUS_REF] ||| 2 ^ 17 ||| W.updWnd

theorem skipPulse_frame (s : State) (d : Nat) : Frame W.skipPulse s (State.skipPulse s d) := by
  unfold State.skipPulse
  repeat' first
    | with_reducible assumption
    | with_reducible exact Frame.refl _ _
    | (intro _ _ _)
    | (intro _ _)
    | decide +kernel
    | (with_reducible apply Frame.onlyIf; rotate_left; intro _ _)
    | with_reducible apply Frame.emit
    | with_reducible apply Frame.setB
    | with_reducible apply Frame.setF
    | with_reducible apply Frame.step (updWnd_frame ..)

def W.shortTick : Nat := fm [F.WND_BUS_VBUS] ||| W.overVolt ||| W.reShort ||| W.skipPulse

theorem shortTick_frame (s : State) (d : Nat) (x : Option (Nat × Nat)) : Frame W.shortTick s (State.shortTick s d x) := by
  unfold State.shortTick
  repeat' first
    | with_reducible assumption
    | with_reducible exact Frame.refl _ _
    | (intro _ _ _)
    | (intro _ _)
    | decide +kernel
    | with_reducible apply Frame.setF
    | with_reducible apply Frame.step (overVolt_frame ..)
    | with_reducible apply Frame.step (reShort_frame ..)
    | with_reducible apply Frame.step (skipPulse_frame ..)
    | with_reducible apply Frame.ite
    | split
    | (dsimp only; split)

def W.startDeck : Nat := W.enterMeasure ||| W.updWnd

theorem startDeck_frame (s : State) (d : Nat) : Frame W.startDeck s (State.startDeck s d) := by
  unfold State.startDeck
  repeat' first
    | with_reducible assumption
    | with_reducible exact Frame.refl _ _
    | (intro _ _ _)
    | (intro _ _)
    | decide +kernel
    | with_reducible apply Frame.step (enterMeasure_frame ..)
    | with_reducible apply Frame.step (updWnd_frame ..)

def W.brakeDeck : Nat := W.setDeck ||| W.startRamp

theorem brakeDeck_frame (s : State) (d : Nat) : Frame W.brakeDeck s (State.brakeDeck s d) := by
  unfold State.brakeDeck
  repeat' first
    | with_reducible assumption
    | with_reducible exact Frame.refl _ _
    | decide +kernel
    | with_reducible apply Frame.step (setDeck_frame ..)
    | with_reducible apply Frame.step (startRamp_frame ..)

def W.removeDeck : Nat := fm [F.LRN_MOUNT_MOUNT, F.SLD_AHARD_AHARD, F.SLD_GEOM_GROUP, F.SLD_GEOM_HOME_DIR, F.SLD_GEOM_MICRO,
    F.SLD_GEOM_STEP_PM, F.WND_MODEL_KE_I_FS, F.WND_MODEL_KE_KE, F.WND_MODEL_RL_LS, F.WND_MODEL_RL_RS, F.WND_MOTOR_CLASS,
    F.WND_MOTOR_P, F.WND_MOTOR_SPD_MAX, F.WND_MOTOR_SPD_MIN] ||| W.lrnClearDeck ||| W.setDeck

theorem removeDeck_frame (s : State) (d : Nat) : Frame W.removeDeck s (State.removeDeck s d) := by
  unfold State.removeDeck
  repeat' first
    | dsimp only [List.foldl_cons, List.foldl_nil]
    | with_reducible assumption
    | with_reducible exact Frame.refl _ _
    | (intro _ _ _)
    | (intro _ _)
    | decide +kernel
    | (with_reducible apply Frame.forEach; rotate_left; intro _ _ _)
    | with_reducible apply Frame.setF
    | with_reducible apply Frame.step (lrnClearDeck_frame ..)
    | with_reducible apply Frame.step (setDeck_frame ..)
    | (with_reducible apply Frame.foldl1; rotate_left; intro _ _ _)
    | (with_reducible apply Frame.foldl; rotate_left; intro _ _ _)

end Sys2Proof.Laws
end

