-- ==== Sys2Proof/Laws/FrOutcome.lean ====
section
/-!
SUPPORT. Frames of the operations of Machine/Outcome.lean: one law per operation, with the mask of what it may change.
-/
set_option Elab.async false
set_option linter.unusedTactic false
set_option linter.unreachableTactic false

namespace Sys2Proof.Laws

open Sys2Proof.Machine

def W.ask : Nat := W.askLode

theorem ask_frame (s : State) (v n x pos : Nat) : Frame W.ask s (State.ask s v n x pos) := by
  unfold State.ask
  repeat' first
    | with_reducible assumption
    | with_reducible exact Frame.refl _ _
    | decide +kernel
    | with_reducible apply Frame.step (askLode_frame ..)

def W.startRecovery : Nat := fm [F.WRP_SEAM_EXHAUSTED, F.WRP_SEAM_LODES] ||| W.ask ||| W.putRecords ||| W.updSeam

theorem startRecovery_frame (s : State) (v n pos : Nat) : Frame W.startRecovery s (State.startRecovery s v n pos) := by
  unfold State.startRecovery
  repeat' first
    | with_reducible assumption
    | with_reducible exact Frame.refl _ _
    | (intro _ _ _)
    | (intro _ _)
    | decide +kernel
    | with_reducible apply Frame.setB
    | with_reducible apply Frame.setF
    | with_reducible apply Frame.step (ask_frame ..)
    | with_reducible apply Frame.step (putRecords_frame ..)
    | with_reducible apply Frame.step (updSeam_frame ..)
    | with_reducible apply Frame.ite
    | split
    | (dsimp only; split)

def W.catalogueRead : Nat := fm [F.WRP_SEAM_EXHAUSTED, F.WRP_SEAM_LODES, F.WRP_SEAM_SEALED] ||| W.ask ||| W.putRecords |||
    W.updSeam

theorem catalogueRead_frame (s : State) (v n pos : Nat) : Frame W.catalogueRead s (State.catalogueRead s v n pos) := by
  unfold State.catalogueRead
  repeat' first
    | with_reducible assumption
    | with_reducible exact Frame.refl _ _
    | (intro _ _ _)
    | (intro _ _)
    | decide +kernel
    | with_reducible apply Frame.setB
    | with_reducible apply Frame.setF
    | with_reducible apply Frame.step (ask_frame ..)
    | with_reducible apply Frame.step (putRecords_frame ..)
    | with_reducible apply Frame.step (updSeam_frame ..)
    | with_reducible apply Frame.ite
    | split
    | (dsimp only; split)

def W.recovCatalogue : Nat := W.ask ||| W.catalogueRead ||| W.updSeam

theorem recovCatalogue_frame (s : State) (v n c : Nat) (x : SlotS) (o : LodeOutcome) : Frame W.recovCatalogue s
    (State.recovCatalogue s v n c x o) := by
  unfold State.recovCatalogue
  repeat' first
    | with_reducible assumption
    | with_reducible exact Frame.refl _ _
    | (intro _ _ _)
    | (intro _ _)
    | decide +kernel
    | with_reducible apply Frame.step (ask_frame ..)
    | with_reducible apply Frame.step (catalogueRead_frame ..)
    | with_reducible apply Frame.step (updSeam_frame ..)
    | with_reducible apply Frame.ite
    | split
    | (dsimp only; split)

def W.scanNext : Nat := W.ask ||| W.updSeam

theorem scanNext_frame (s : State) (v n p pos : Nat) : Frame W.scanNext s (State.scanNext s v n p pos) := by
  unfold State.scanNext
  repeat' first
    | with_reducible assumption
    | with_reducible exact Frame.refl _ _
    | (intro _ _ _)
    | (intro _ _)
    | decide +kernel
    | with_reducible apply Frame.step (ask_frame ..)
    | with_reducible apply Frame.step (updSeam_frame ..)
    | with_reducible apply Frame.ite
    | split
    | (dsimp only; split)

def W.recovScan : Nat := fm [F.WRP_SEAM_EXHAUSTED, F.WRP_SEAM_LODES] ||| em [E.WRP_SEAM_EXHAUSTED] ||| W.addSkip |||
    W.scanNext ||| W.updSeam

theorem recovScan_frame (s : State) (v n p : Nat) (y : SlotS) (o : LodeOutcome) : Frame W.recovScan s (State.recovScan s v n p
    y o) := by
  unfold State.recovScan
  repeat' first
    | with_reducible assumption
    | with_reducible exact Frame.refl _ _
    | (intro _ _ _)
    | (intro _ _)
    | decide +kernel
    | with_reducible apply Frame.setB
    | with_reducible apply Frame.setF
    | with_reducible apply Frame.step (addSkip_frame ..)
    | with_reducible apply Frame.step (scanNext_frame ..)
    | with_reducible apply Frame.step (updSeam_frame ..)
    | with_reducible apply raise_fr
    | with_reducible apply Frame.ite
    | with_reducible refine Frame.ofPair (by assumption) ?_
    | split
    | (dsimp only; split)

def W.recovOutcome : Nat := W.recovCatalogue ||| W.recovScan

theorem recovOutcome_frame (s : State) (v n x : Nat) (y : SlotS) (o : LodeOutcome) : Frame W.recovOutcome s
    (State.recovOutcome s v n x y o) := by
  unfold State.recovOutcome
  repeat' first
    | with_reducible assumption
    | with_reducible exact Frame.refl _ _
    | decide +kernel
    | with_reducible apply Frame.step (recovCatalogue_frame ..)
    | with_reducible apply Frame.step (recovScan_frame ..)
    | with_reducible apply Frame.ite
    | split
    | (dsimp only; split)

def W.mounted : Nat := W.finish ||| W.setVol

theorem mounted_frame (s : State) (v serial : Nat) (blank : Bool) : Frame W.mounted s (State.mounted s v serial blank) := by
  unfold State.mounted
  repeat' first
    | with_reducible assumption
    | with_reducible exact Frame.refl _ _
    | (intro _ _ _)
    | (intro _ _)
    | decide +kernel
    | (with_reducible apply Frame.forEach; rotate_left; intro _ _ _)
    | with_reducible apply Frame.step (finish_frame ..)
    | with_reducible apply Frame.step (setVol_frame ..)
    | split
    | (dsimp only; split)

def W.mountFails : Nat := W.finish ||| W.setVol

theorem mountFails_frame (s : State) (v : Nat) (st : Status) : Frame W.mountFails s (State.mountFails s v st) := by
  unfold State.mountFails
  repeat' first
    | with_reducible assumption
    | with_reducible exact Frame.refl _ _
    | (intro _ _ _)
    | (intro _ _)
    | decide +kernel
    | (with_reducible apply Frame.forEach; rotate_left; intro _ _ _)
    | with_reducible apply Frame.step (finish_frame ..)
    | with_reducible apply Frame.step (setVol_frame ..)
    | split
    | (dsimp only; split)

def W.probeFrom : Nat := W.ask ||| W.mountFails ||| W.mounted ||| W.setVol

theorem probeFrom_frame (s : State) (v k p : Nat) : Frame W.probeFrom s (s.probeFrom v k p) := by
  induction k generalizing s p with
  | zero => exact Frame.refl _ _
  | succ k ih =>
    unfold State.probeFrom
    split
    · exact Frame.refl _ _
    · split
      · split
        · exact (mountFails_frame ..).mono (by decide +kernel)
        · exact (mounted_frame ..).mono (by decide +kernel)
      · split
        · exact (ih _ _).step ((setVol_frame ..).mono (by decide +kernel)) (by simp [subMask])
        · exact (ask_frame ..).step ((setVol_frame ..).mono (by decide +kernel)) (by decide +kernel)

def W.probeAt : Nat := W.probeFrom

theorem probeAt_frame (s : State) (v probe : Nat) : Frame W.probeAt s (State.probeAt s v probe) := by
  unfold State.probeAt
  repeat' first
    | with_reducible assumption
    | with_reducible exact Frame.refl _ _
    | decide +kernel
    | with_reducible apply Frame.step (probeFrom_frame ..)

def W.mountOutcome : Nat := W.mounted ||| W.probeAt ||| W.setVol

theorem mountOutcome_frame (s : State) (v n x : Nat) (y : SlotS) (o : LodeOutcome) : Frame W.mountOutcome s
    (State.mountOutcome s v n x y o) := by
  unfold State.mountOutcome
  repeat' first
    | with_reducible assumption
    | with_reducible exact Frame.refl _ _
    | decide +kernel
    | with_reducible apply Frame.step (mounted_frame ..)
    | with_reducible apply Frame.step (probeAt_frame ..)
    | with_reducible apply Frame.step (setVol_frame ..)
    | with_reducible apply Frame.ite
    | split
    | (dsimp only; split)

def W.setTest : Nat := 2 ^ 4

theorem setTest_frame (s : State) (v : Nat) (t : SelfTest) : Frame W.setTest s (State.setTest s v t) := by
  unfold State.setTest
  repeat' first
    | with_reducible assumption
    | with_reducible exact Frame.refl _ _
    | decide +kernel
    | (with_reducible refine Frame.upd ?_ rfl ?_ ?_ ?_ ?_ ?_ ?_ ?_ ?_ ?_ ?_ ?_ ?_ ?_ ?_ ?_ ?_ ?_ <;>
        first | with_reducible exact Or.inl rfl | with_reducible exact Or.inr ⟨by decide +kernel, Nat.mod_lt _ (Nat.two_pow_pos 48)⟩ |
          exact Or.inr ⟨by decide +kernel, rfl, rfl⟩ | exact Or.inr ⟨by decide +kernel, rfl⟩ |
          exact Or.inr (by decide +kernel) | skip)

def W.testOutcome : Nat := W.setTest

theorem testOutcome_frame (s : State) (v n x : Nat) (y : SlotS) (o : LodeOutcome) : Frame W.testOutcome s (State.testOutcome s
    v n x y o) := by
  unfold State.testOutcome
  repeat' first
    | with_reducible assumption
    | with_reducible exact Frame.refl _ _
    | (intro _ _ _)
    | (intro _ _)
    | decide +kernel
    | with_reducible apply Frame.step (setTest_frame ..)
    | with_reducible apply Frame.ite
    | split
    | (dsimp only; split)

def W.deliverCmd : Nat := 2 ^ 17 ||| W.finish ||| W.readRun ||| W.updCmd

theorem deliverCmd_frame (s : State) (c : Cmd) (l : Nat) (sound : List (Nat × Nat)) (ecc : List Nat) (buf : Nat) : Frame
    W.deliverCmd s (State.deliverCmd s c l sound ecc buf) := by
  unfold State.deliverCmd
  repeat' first
    | with_reducible assumption
    | with_reducible exact Frame.refl _ _
    | (intro _ _ _)
    | (intro _ _)
    | decide +kernel
    | with_reducible apply Frame.emit
    | with_reducible apply Frame.step (finish_frame ..)
    | with_reducible apply Frame.step (readRun_frame ..)
    | with_reducible apply Frame.step (updCmd_frame ..)
    | with_reducible apply Frame.ite
    | (with_reducible apply Frame.foldl1; rotate_left; intro _ _ _)
    | (with_reducible apply Frame.foldl; rotate_left; intro _ _ _)
    | with_reducible refine Frame.ofPair (by assumption) ?_
    | split
    | (dsimp only; split)

def W.deliverLode : Nat := W.deliverCmd

theorem deliverLode_frame (s : State) (v n l : Nat) (sound : List (Nat × Nat)) (ecc : List Nat) (buf : Nat) : Frame
    W.deliverLode s (State.deliverLode s v n l sound ecc buf) := by
  unfold State.deliverLode
  repeat' first
    | with_reducible assumption
    | with_reducible exact Frame.refl _ _
    | (intro _ _ _)
    | (intro _ _)
    | decide +kernel
    | (with_reducible apply Frame.forEach; rotate_left; intro _ _ _)
    | with_reducible apply Frame.step (deliverCmd_frame ..)

def W.deliverSlot : Nat := W.deliverLode ||| W.mountOutcome ||| W.recovOutcome ||| W.releaseSlot ||| W.testOutcome

theorem deliverSlot_frame (s : State) (y : Nat) (o : LodeOutcome) (ecc : List Nat) : Frame W.deliverSlot s (State.deliverSlot
    s y o ecc) := by
  unfold State.deliverSlot
  repeat' first
    | with_reducible assumption
    | with_reducible exact Frame.refl _ _
    | (intro _ _ _)
    | (intro _ _)
    | decide +kernel
    | (with_reducible apply Frame.forEach; rotate_left; intro _ _ _)
    | with_reducible apply Frame.step (deliverLode_frame ..)
    | with_reducible apply Frame.step (mountOutcome_frame ..)
    | with_reducible apply Frame.step (recovOutcome_frame ..)
    | with_reducible apply Frame.step (releaseSlot_frame ..)
    | with_reducible apply Frame.step (testOutcome_frame ..)
    | with_reducible apply Frame.ite
    | split
    | (dsimp only; split)

def W.reread : Nat := W.beginReread ||| W.holdRead ||| W.issue

theorem reread_frame (s : State) (y : Nat) : Frame W.reread s (State.reread s y) := by
  unfold State.reread
  repeat' first
    | with_reducible assumption
    | with_reducible exact Frame.refl _ _
    | (intro _ _ _)
    | (intro _ _)
    | decide +kernel
    | with_reducible apply Frame.step (beginReread_frame ..)
    | with_reducible apply Frame.step (holdRead_frame ..)
    | with_reducible apply Frame.step (issue_frame ..)
    | with_reducible apply Frame.ite
    | split
    | (dsimp only; split)

def W.countOutcome : Nat := fm [F.ASY_LODES2_FAILED, F.ASY_LODES2_REREAD, F.ASY_LODES_CLEAN, F.ASY_LODES_CORRECTED] ||| em
    [E.ASY_LODE_FAILED, E.ASY_RECOVERED, E.ASY_REREAD]

theorem countOutcome_frame (s : State) (y : Nat) (o : LodeOutcome) : Frame W.countOutcome s (State.countOutcome s y o) := by
  unfold State.countOutcome
  repeat' first
    | with_reducible assumption
    | with_reducible exact Frame.refl _ _
    | (intro _ _ _)
    | (intro _ _)
    | decide +kernel
    | (with_reducible apply Frame.onlyIf; rotate_left; intro _ _)
    | with_reducible apply Frame.count
    | with_reducible apply raise_fr
    | with_reducible refine Frame.ofPair (by assumption) ?_
    | split
    | (dsimp only; split)

def W.lodeOutcome : Nat := fm [F.ASY_SLOT_STATE] ||| W.countOutcome ||| W.deliverSlot ||| W.issueWaiting ||| W.releaseEntries
    ||| W.reread ||| W.setSlot

theorem lodeOutcome_frame (s : State) (y : Nat) (o : LodeOutcome) (ecc : List Nat) : Frame W.lodeOutcome s (State.lodeOutcome
    s y o ecc) := by
  unfold State.lodeOutcome
  repeat' first
    | with_reducible assumption
    | with_reducible exact Frame.refl _ _
    | (intro _ _ _)
    | (intro _ _)
    | decide +kernel
    | with_reducible apply Frame.setF
    | with_reducible apply Frame.step (countOutcome_frame ..)
    | with_reducible apply Frame.step (deliverSlot_frame ..)
    | with_reducible apply Frame.step (issueWaiting_frame ..)
    | with_reducible apply Frame.step (releaseEntries_frame ..)
    | with_reducible apply Frame.step (reread_frame ..)
    | with_reducible apply Frame.step (setSlot_frame ..)
    | with_reducible apply Frame.ite
    | split
    | (dsimp only; split)

def W.deliverHeld : Nat := W.deliverSlot ||| W.issueWaiting

theorem deliverHeld_frame (s : State) : Frame W.deliverHeld s (State.deliverHeld s) := by
  unfold State.deliverHeld
  repeat' first
    | with_reducible assumption
    | with_reducible exact Frame.refl _ _
    | (intro _ _ _)
    | (intro _ _)
    | decide +kernel
    | (with_reducible apply Frame.forEach; rotate_left; intro _ _ _)
    | with_reducible apply Frame.step (deliverSlot_frame ..)
    | with_reducible apply Frame.step (issueWaiting_frame ..)
    | with_reducible apply Frame.ite
    | split
    | (dsimp only; split)

end Sys2Proof.Laws
end

