-- ==== Sys2Proof/Laws/FrHqiOps.lean ====
section
/-!
SUPPORT. Frames of the operations of Machine/HqiOps.lean: one law per operation, with the mask of what it may change.
-/
set_option Elab.async false
set_option linter.unusedTactic false
set_option linter.unreachableTactic false

namespace Sys2Proof.Laws

open Sys2Proof.Machine

def W.requestPages : Nat := W.request

theorem requestPages_frame (s : State) (pos k0 : Nat) : Frame W.requestPages s (State.requestPages s pos k0) := by
  unfold State.requestPages
  repeat' first
    | with_reducible assumption
    | with_reducible exact Frame.refl _ _
    | (intro _ _ _)
    | (intro _ _)
    | decide +kernel
    | (with_reducible apply Frame.forEach; rotate_left; intro _ _ _)
    | with_reducible apply Frame.step (request_frame ..)
    | split
    | (dsimp only; split)

def W.padWrite : Nat := W.updSeam

theorem padWrite_frame (s : State) (pos : Nat) : Frame W.padWrite s (State.padWrite s pos) := by
  unfold State.padWrite
  repeat' first
    | with_reducible assumption
    | with_reducible exact Frame.refl _ _
    | (intro _ _ _)
    | (intro _ _)
    | decide +kernel
    | with_reducible apply Frame.step (updSeam_frame ..)
    | with_reducible apply Frame.ite
    | split
    | (dsimp only; split)

def W.assignWrite : Nat := W.putBlock ||| W.requestPages ||| W.sealLode ||| W.setVol ||| W.updCmd

theorem assignWrite_frame (s : State) (c : Cmd) (v n : Nat) : Frame W.assignWrite s (State.assignWrite s c v n) := by
  unfold State.assignWrite
  repeat' first
    | with_reducible assumption
    | with_reducible exact Frame.refl _ _
    | (intro _ _ _)
    | (intro _ _)
    | decide +kernel
    | (with_reducible apply Frame.forEach; rotate_left; intro _ _ _)
    | (with_reducible apply Frame.onlyIf; rotate_left; intro _ _)
    | with_reducible apply Frame.step (putBlock_frame ..)
    | with_reducible apply Frame.step (requestPages_frame ..)
    | with_reducible apply Frame.step (sealLode_frame ..)
    | with_reducible apply Frame.step (setVol_frame ..)
    | with_reducible apply Frame.step (updCmd_frame ..)

def W.advWrite : Nat := W.assignWrite ||| W.finish ||| W.startRecovery

theorem advWrite_frame (s : State) (c : Cmd) (v n : Nat) : Frame W.advWrite s (State.advWrite s c v n) := by
  unfold State.advWrite
  repeat' first
    | with_reducible assumption
    | with_reducible exact Frame.refl _ _
    | (intro _ _ _)
    | (intro _ _)
    | decide +kernel
    | with_reducible apply Frame.step (assignWrite_frame ..)
    | with_reducible apply Frame.step (finish_frame ..)
    | with_reducible apply Frame.step (startRecovery_frame ..)
    | with_reducible apply Frame.ite
    | split
    | (dsimp only; split)

def W.advSeal : Nat := em [E.WRP_CAT_FULL] ||| W.catalogueDue ||| W.finish ||| W.sealLode ||| W.startRecovery ||| W.updCmd |||
    W.updSeam

theorem advSeal_frame (s : State) (c : Cmd) (v n : Nat) : Frame W.advSeal s (State.advSeal s c v n) := by
  unfold State.advSeal
  repeat' first
    | with_reducible assumption
    | with_reducible exact Frame.refl _ _
    | (intro _ _ _)
    | (intro _ _)
    | decide +kernel
    | with_reducible apply Frame.step (catalogueDue_frame ..)
    | with_reducible apply Frame.step (finish_frame ..)
    | with_reducible apply Frame.step (sealLode_frame ..)
    | with_reducible apply Frame.step (startRecovery_frame ..)
    | with_reducible apply Frame.step (updCmd_frame ..)
    | with_reducible apply Frame.step (updSeam_frame ..)
    | with_reducible apply raise_fr
    | with_reducible apply Frame.ite
    | with_reducible refine Frame.ofPair (by assumption) ?_
    | split
    | (dsimp only; split)

def W.advRead : Nat := W.ask ||| W.finish ||| W.startRecovery ||| W.updCmd

theorem advRead_frame (s : State) (c : Cmd) (v n : Nat) : Frame W.advRead s (State.advRead s c v n) := by
  unfold State.advRead
  repeat' first
    | with_reducible assumption
    | with_reducible exact Frame.refl _ _
    | (intro _ _ _)
    | (intro _ _)
    | decide +kernel
    | (with_reducible apply Frame.forEach; rotate_left; intro _ _ _)
    | with_reducible apply Frame.step (ask_frame ..)
    | with_reducible apply Frame.step (finish_frame ..)
    | with_reducible apply Frame.step (startRecovery_frame ..)
    | with_reducible apply Frame.step (updCmd_frame ..)
    | with_reducible apply Frame.ite
    | split
    | (dsimp only; split)

def W.advFlush : Nat := W.finish

theorem advFlush_frame (s : State) (c : Cmd) : Frame W.advFlush s (State.advFlush s c) := by
  unfold State.advFlush
  repeat' first
    | with_reducible assumption
    | with_reducible exact Frame.refl _ _
    | (intro _ _ _)
    | (intro _ _)
    | decide +kernel
    | with_reducible apply Frame.step (finish_frame ..)
    | with_reducible apply Frame.ite
    | split
    | (dsimp only; split)

def W.parkHeads : Nat := W.issue

theorem parkHeads_frame (s : State) (v pos : Nat) : Frame W.parkHeads s (State.parkHeads s v pos) := by
  unfold State.parkHeads
  repeat' first
    | with_reducible assumption
    | with_reducible exact Frame.refl _ _
    | (intro _ _ _)
    | (intro _ _)
    | decide +kernel
    | (with_reducible apply Frame.forEach; rotate_left; intro _ _ _)
    | with_reducible apply Frame.step (issue_frame ..)
    | with_reducible apply Frame.ite
    | split
    | (dsimp only; split)

def W.advRelease : Nat := W.brakeDeck ||| W.dropVolume ||| W.finish ||| W.parkHeads ||| W.setVol ||| W.snapshot

theorem advRelease_frame (s : State) (c : Cmd) : Frame W.advRelease s (State.advRelease s c) := by
  unfold State.advRelease
  repeat' first
    | with_reducible assumption
    | with_reducible exact Frame.refl _ _
    | (intro _ _ _)
    | (intro _ _)
    | decide +kernel
    | (with_reducible apply Frame.forEach; rotate_left; intro _ _ _)
    | (with_reducible apply Frame.onlyIf; rotate_left; intro _ _)
    | with_reducible apply Frame.step (brakeDeck_frame ..)
    | with_reducible apply Frame.step (dropVolume_frame ..)
    | with_reducible apply Frame.step (finish_frame ..)
    | with_reducible apply Frame.step (parkHeads_frame ..)
    | with_reducible apply Frame.step (setVol_frame ..)
    | with_reducible apply Frame.step (snapshot_frame ..)
    | with_reducible apply Frame.ite
    | split
    | (dsimp only; split)

def W.startStep : Nat := W.issue ||| W.setTest ||| W.tryRead

theorem startStep_frame (s : State) (v pos : Nat) (t : SelfTest) (p : TestStep) (rest : List TestStep) : Frame W.startStep s
    (State.startStep s v pos t p rest) := by
  unfold State.startStep
  repeat' first
    | with_reducible assumption
    | with_reducible exact Frame.refl _ _
    | decide +kernel
    | with_reducible apply Frame.step (issue_frame ..)
    | with_reducible apply Frame.step (setTest_frame ..)
    | with_reducible refine Frame.step (tryRead_frame (by assumption)) ?_ ?_
    | with_reducible apply Frame.ite
    | with_reducible refine Frame.ofPair (by assumption) ?_
    | split
    | (dsimp only; split)

def W.advTest : Nat := W.setTest ||| W.startStep

theorem advTest_frame (s : State) (v : Nat) : Frame W.advTest s (State.advTest s v) := by
  unfold State.advTest
  repeat' first
    | with_reducible assumption
    | with_reducible exact Frame.refl _ _
    | (intro _ _ _)
    | (intro _ _)
    | decide +kernel
    | with_reducible apply Frame.step (setTest_frame ..)
    | with_reducible apply Frame.step (startStep_frame ..)
    | with_reducible apply Frame.ite
    | split
    | (dsimp only; split)

def W.advCmd : Nat := W.advFlush ||| W.advRead ||| W.advRelease ||| W.advSeal ||| W.advWrite ||| W.finish

theorem advCmd_frame (s : State) (c : Cmd) : Frame W.advCmd s (State.advCmd s c) := by
  unfold State.advCmd
  repeat' first
    | with_reducible assumption
    | with_reducible exact Frame.refl _ _
    | decide +kernel
    | with_reducible apply Frame.step (advFlush_frame ..)
    | with_reducible apply Frame.step (advRead_frame ..)
    | with_reducible apply Frame.step (advRelease_frame ..)
    | with_reducible apply Frame.step (advSeal_frame ..)
    | with_reducible apply Frame.step (advWrite_frame ..)
    | with_reducible apply Frame.step (finish_frame ..)
    | with_reducible apply Frame.ite
    | split
    | (dsimp only; split)

def W.advMount : Nat := W.probeAt

theorem advMount_frame (s : State) (v : Nat) : Frame W.advMount s (State.advMount s v) := by
  unfold State.advMount
  repeat' first
    | with_reducible assumption
    | with_reducible exact Frame.refl _ _
    | decide +kernel
    | with_reducible apply Frame.step (probeAt_frame ..)
    | with_reducible apply Frame.ite
    | split
    | (dsimp only; split)

def W.advance : Nat := W.advCmd ||| W.advMount ||| W.advTest

theorem advance_frame (s : State) : Frame W.advance s (State.advance s) := by
  unfold State.advance
  repeat' first
    | with_reducible assumption
    | with_reducible exact Frame.refl _ _
    | (intro _ _ _)
    | (intro _ _)
    | decide +kernel
    | (with_reducible apply Frame.forEach; rotate_left; intro _ _ _)
    | with_reducible apply Frame.step (advCmd_frame ..)
    | with_reducible apply Frame.step (advMount_frame ..)
    | with_reducible apply Frame.step (advTest_frame ..)
    | with_reducible apply Frame.ite
    | split
    | (dsimp only; split)

def W.dropLodes : Nat := W.dropSlot

theorem dropLodes_frame (s : State) (v n : Nat) (after : SeamS) : Frame W.dropLodes s (State.dropLodes s v n after) := by
  unfold State.dropLodes
  repeat' first
    | with_reducible assumption
    | with_reducible exact Frame.refl _ _
    | (intro _ _ _)
    | (intro _ _)
    | decide +kernel
    | (with_reducible apply Frame.forEach; rotate_left; intro _ _ _)
    | with_reducible apply Frame.step (dropSlot_frame ..)

def W.abortSeam : Nat := W.dropLodes ||| W.setSeam

theorem abortSeam_frame (s : State) (v n : Nat) : Frame W.abortSeam s (State.abortSeam s v n) := by
  unfold State.abortSeam
  repeat' first
    | with_reducible assumption
    | with_reducible exact Frame.refl _ _
    | (intro _ _ _)
    | (intro _ _)
    | decide +kernel
    | with_reducible apply Frame.step (dropLodes_frame ..)
    | with_reducible apply Frame.step (setSeam_frame ..)
    | with_reducible apply Frame.ite
    | split
    | (dsimp only; split)

def W.abortSeams : Nat := W.abortSeam ||| W.setVol

theorem abortSeams_frame (s : State) : Frame W.abortSeams s (State.abortSeams s) := by
  unfold State.abortSeams
  repeat' first
    | with_reducible assumption
    | with_reducible exact Frame.refl _ _
    | (intro _ _ _)
    | (intro _ _)
    | decide +kernel
    | (with_reducible apply Frame.forEach; rotate_left; intro _ _ _)
    | with_reducible apply Frame.step (abortSeam_frame ..)
    | with_reducible apply Frame.step (setVol_frame ..)

def W.resetAbort : Nat := em [E.HQI_RESET_ABORT] ||| 2 ^ 3 ||| 2 ^ 4 ||| 2 ^ 6 ||| W.abortSeams ||| W.ltrUpdate

theorem resetAbort_frame (s : State) (counted : Cmd → Bool) : Frame W.resetAbort s (State.resetAbort s counted) := by
  unfold State.resetAbort
  repeat' first
    | with_reducible assumption
    | with_reducible exact Frame.refl _ _
    | (intro _ _ _)
    | (intro _ _)
    | decide +kernel
    | (with_reducible apply Frame.onlyIf; rotate_left; intro _ _)
    | with_reducible apply Frame.step (abortSeams_frame ..)
    | with_reducible apply Frame.step (ltrUpdate_frame ..)
    | with_reducible apply raise_fr
    | with_reducible apply Frame.ite
    | with_reducible refine Frame.ofPair (by assumption) ?_
    | split
    | (dsimp only; split)
    | (with_reducible refine Frame.upd ?_ rfl ?_ ?_ ?_ ?_ ?_ ?_ ?_ ?_ ?_ ?_ ?_ ?_ ?_ ?_ ?_ ?_ ?_ <;>
        first | with_reducible exact Or.inl rfl | with_reducible exact Or.inr ⟨by decide +kernel, Nat.mod_lt _ (Nat.two_pow_pos 48)⟩ |
          exact Or.inr ⟨by decide +kernel, rfl, rfl⟩ | exact Or.inr ⟨by decide +kernel, rfl⟩ |
          exact Or.inr (by decide +kernel) | skip)

end Sys2Proof.Laws
end

