-- ==== Sys2Proof/Laws/Done.lean ====
section
/-!
SUPPORT. The frames of the forms that a row's meaning takes: a write of PF1's register path, and a row after which the command
engine goes on; the registers that the table entries and the register spaces hold.
-/
set_option Elab.async false

namespace Sys2Proof.Laws

open Sys2Proof.Machine

def W.doneW : Nat := W.outward ||| W.flushAsm

def W.doneQ : Nat := W.outward ||| W.advance

def W.doneQW : Nat := W.outward ||| W.advance ||| W.flushAsm

theorem doneW_fr {m : Nat} {s : State} {f : State → State} (hm : subMask W.doneW m = true)
    (hf : ∀ t, Frame m s t → Frame m s (f t)) : FrameN m s (doneW s f) := by
  refine done_fr (subMask_trans (by decide +kernel) hm) fun t ht => ?_
  split
  · exact hf _ ((flushAsm_frame _).step ht (subMask_trans (by decide +kernel) hm))
  · exact ht

theorem doneQ_fr {m : Nat} {s : State} {f : State → State} (hm : subMask W.doneQ m = true)
    (hf : ∀ t, Frame m s t → Frame m s (f t)) : FrameN m s (doneQ s f) :=
  done_fr (subMask_trans (by decide +kernel) hm) fun t ht =>
    (advance_frame _).step (hf t ht) (subMask_trans (by decide +kernel) hm)

theorem doneQW_fr {m : Nat} {s : State} {f : State → State} (hm : subMask W.doneQW m = true)
    (hf : ∀ t, Frame m s t → Frame m s (f t)) : FrameN m s (doneQW s f) := by
  refine doneQ_fr (subMask_trans (by decide +kernel) hm) fun t ht => ?_
  split
  · exact hf _ ((flushAsm_frame _).step ht (subMask_trans (by decide +kernel) hm))
  · exact ht

/-- A located register is one of the list. -/
theorem locateIn_mem {l : List RegDef} {a : Nat} {p : RegDef × Nat} (h : locateIn l a = some p) : p.1 ∈ l := by
  induction l with
  | nil => simp [locateIn] at h
  | cons r l ih =>
    simp only [locateIn] at h
    split at h
    · cases h; simp
    · exact List.mem_cons_of_mem _ (ih h)

theorem regIn_mem {m : Nat} {l : List RegDef} {r : RegDef} (hr : r ∈ l) (hm : l.all (regIn m) = true) : regIn m r = true :=
  List.all_eq_true.1 hm r hr

theorem regIn_table {m a i : Nat} {r : RegDef} (h : tableEntry a = some (r, i)) (hm : tableRegs.all (regIn m) = true) :
    regIn m r = true := regIn_mem (locateIn_mem h) hm

/-- The mask of everything. -/
def W.all : Nat := 2 ^ 20000 - 1

set_option exponentiation.threshold 20001 in
theorem all_bit {k : Nat} (h : k < 20000) : W.all.testBit k = true := by
  unfold W.all
  rw [Nat.testBit_two_pow_sub_one]
  simpa using h

set_option exponentiation.threshold 20001 in
theorem sub_all {a : Nat} (h : a < 2 ^ 20000) : subMask a W.all = true := by
  have : a ||| W.all = W.all := by
    apply Nat.eq_of_testBit_eq
    intro i
    unfold W.all
    rw [Nat.testBit_or, Nat.testBit_two_pow_sub_one]
    by_cases e : i < 20000
    · simp [e]
    · have : a.testBit i = false := Nat.testBit_lt_two_pow (lt_of_lt_of_le h (Nat.pow_le_pow_right (by decide) (by omega)))
      simp [e, this]
  simpa [subMask] using this

/-- The mask of every register. -/
def W.regs : Nat := rm allRegs

theorem regIn_regs {a i : Nat} {r : RegDef} (h : locateIn allRegs a = some (r, i)) : regIn W.regs r = true :=
  regIn_mem (l := allRegs) (locateIn_mem h) (by decide +kernel)

theorem regIn_regsHqi {a i : Nat} {r : RegDef} (h : locateIn regsHqi a = some (r, i)) : regIn W.regs r = true :=
  regIn_mem (l := regsHqi) (locateIn_mem h) (by decide +kernel)

theorem regIn_all {a i : Nat} {r : RegDef} (h : locateIn allRegs a = some (r, i)) : regIn W.all r = true :=
  regIn_mem (l := allRegs) (locateIn_mem h) (by decide +kernel)

theorem regIn_hqi {a i : Nat} {r : RegDef} (h : locateIn regsHqi a = some (r, i)) : regIn W.all r = true :=
  regIn_mem (l := regsHqi) (locateIn_mem h) (by decide +kernel)

end Sys2Proof.Laws
end

