-- ==== Sys2Proof/Laws/Complete.lean ====
section
/-!
SUPPORT. How a row completes: what its next state keeps of the effect that its meaning makes, once the groups that rose have been
signalled.
-/
namespace Sys2Proof.Laws

open Sys2Proof.Machine

/-- t is a but for signals: messages sent, and PF1's pending bits. -/
structure Same (a t : State) : Prop where
  regs : t.regs = a.regs
  tick : t.tick = a.tick
  tck : t.tck = a.tck
  hqi : t.hqi = a.hqi
  vols : t.vols = a.vols
  asy : t.asy = a.asy
  heads : t.heads = a.heads
  decks : t.decks = a.decks
  chans : t.chans = a.chans
  lanes : t.lanes = a.lanes
  mem : t.mem = a.mem
  cfg : t.cfg = a.cfg
  trl : t.trl = a.trl
  cal : t.cal = a.cal
  pwr : t.pwr = a.pwr
  free : t.free = a.free
  pending : t.pending = a.pending
  tap : t.tap = a.tap
  hif : ∃ p, t.hif = { a.hif with pf1 := { a.hif.pf1 with pba := p } }
  out : ∃ l, t.out = a.out ++ l

theorem Same.refl (a : State) : Same a a :=
  ⟨rfl, rfl, rfl, rfl, rfl, rfl, rfl, rfl, rfl, rfl, rfl, rfl, rfl, rfl, rfl, rfl, rfl, rfl, ⟨_, rfl⟩, ⟨[], by simp⟩⟩

theorem Same.trans {a b c : State} (h : Same a b) (k : Same b c) : Same a c where
  regs := k.regs.trans h.regs
  tick := k.tick.trans h.tick
  tck := k.tck.trans h.tck
  hqi := k.hqi.trans h.hqi
  vols := k.vols.trans h.vols
  asy := k.asy.trans h.asy
  heads := k.heads.trans h.heads
  decks := k.decks.trans h.decks
  chans := k.chans.trans h.chans
  lanes := k.lanes.trans h.lanes
  mem := k.mem.trans h.mem
  cfg := k.cfg.trans h.cfg
  trl := k.trl.trans h.trl
  cal := k.cal.trans h.cal
  pwr := k.pwr.trans h.pwr
  free := k.free.trans h.free
  pending := k.pending.trans h.pending
  tap := k.tap.trans h.tap
  hif := by
    obtain ⟨p, hp⟩ := h.hif
    obtain ⟨q, hq⟩ := k.hif
    exact ⟨q, by rw [hq, hp]⟩
  out := by
    obtain ⟨p, hp⟩ := h.out
    obtain ⟨q, hq⟩ := k.out
    exact ⟨p ++ q, by rw [hq, hp, List.append_assoc]⟩

/-- A register field reads alike. -/
theorem Same.getF {a t : State} (h : Same a t) (f : Field) (i : Nat) : t.getF f i = a.getF f i := by
  unfold State.getF
  rw [h.regs]

theorem Same.isSet {a t : State} (h : Same a t) (f : Field) (i : Nat) : t.isSet f i = a.isSet f i := by
  unfold State.isSet
  rw [h.getF]

theorem Same.bitF {a t : State} (h : Same a t) (f : Field) (i b : Nat) : t.bitF f i b = a.bitF f i b := by
  unfold State.bitF
  rw [h.getF]

theorem Same.emitted {a t : State} (h : Same a t) {o : Output} (ho : o ∈ a.out) : o ∈ t.out := by
  obtain ⟨l, e⟩ := h.out
  rw [e]
  exact List.mem_append_left _ ho

theorem signal_same (s : State) (v : Nat) : Same s (s.signal 1 v) := by
  unfold State.signal
  split
  · exact Same.refl s
  · split
    · exact { Same.refl s with out := ⟨_, rfl⟩ }
    · exact { Same.refl s with hif := ⟨_, rfl⟩ }

theorem settle_same (a b : State) : Same b (State.settle a b) := by
  unfold State.settle State.forEach
  dsimp only
  generalize List.filter _ _ = l
  induction l generalizing b with
  | nil => exact Same.refl b
  | cons v l ih => exact (signal_same b v).trans (ih _)

/-- The state a meaning starts from: the outputs of the last command are taken away. -/
def fresh (s : State) : State := { s with out := [] }

theorem effect_next (s : State) (f : State → State) : ∃ t, effect s f = .next t ∧ Same (f (fresh s)) t :=
  ⟨_, rfl, settle_same _ _⟩

theorem done_next {s : State} (h : s.pwr.held = []) (f : State → State) : ∃ t, done s f = .next t ∧ Same (f (fresh s)) t := by
  have e : (fresh s).pwr.held.isEmpty = true := by rw [show (fresh s).pwr.held = [] from h]; rfl
  obtain ⟨t, ht, k⟩ := effect_next s fun t => if t.pwr.held.isEmpty then f t else t
  refine ⟨t, ht, ?_⟩
  rw [if_pos e] at k
  exact k

theorem doneQ_next {s : State} (h : s.pwr.held = []) (f : State → State) :
    ∃ t, doneQ s f = .next t ∧ Same (f (fresh s)).advance t := done_next h _

theorem doneW_next {s : State} (h : s.pf1Served = true) (f : State → State) :
    ∃ t, doneW s f = .next t ∧ Same (f (fresh s).flushAsm) t := by
  have e : (fresh s).pf1Served = true := h
  have h2 : s.pwr.held = [] := by
    have : s.pwr.held.isEmpty = true := by
      unfold State.pf1Served State.served at h
      simp only [Bool.and_eq_true] at h
      exact h.2
    simpa using this
  obtain ⟨t, ht, k⟩ := done_next h2 fun t => if t.pf1Served then f t.flushAsm else t
  refine ⟨t, ht, ?_⟩
  rw [if_pos e] at k
  exact k

theorem doneQW_next {s : State} (h : s.pf1Served = true) (f : State → State) :
    ∃ t, doneQW s f = .next t ∧ Same (f (fresh s).flushAsm).advance t := by
  have e : (fresh s).pf1Served = true := h
  have h2 : s.pwr.held = [] := by
    have : s.pwr.held.isEmpty = true := by
      unfold State.pf1Served State.served at h
      simp only [Bool.and_eq_true] at h
      exact h.2
    simpa using this
  obtain ⟨t, ht, k⟩ := doneQ_next h2 fun t => if t.pf1Served then f t.flushAsm else t
  refine ⟨t, ht, ?_⟩
  rw [if_pos e] at k
  exact k

end Sys2Proof.Laws
end

