-- ==== Sys2Proof/Laws/FrTickOps.lean ====
section
/-!
SUPPORT. Frames of the operations of Machine/TickOps.lean: one law per operation, with the mask of what it may change.
-/
set_option Elab.async false
set_option linter.unusedTactic false
set_option linter.unreachableTactic false

namespace Sys2Proof.Laws

open Sys2Proof.Machine

def W.updWrite : Nat := W.setHead

theorem updWrite_frame (s : State) (h : Nat) (f : WriteS → WriteS) : Frame W.updWrite s (State.updWrite s h f) := by
  unfold State.updWrite
  repeat' first
    | with_reducible assumption
    | with_reducible exact Frame.refl _ _
    | decide +kernel
    | with_reducible apply Frame.step (setHead_frame ..)

def W.sendTick : Nat := 2 ^ 17 ||| W.sendItem ||| W.updClr ||| W.updWrite

theorem sendTick_frame (s : State) (h : Nat) : Frame W.sendTick s (State.sendTick s h) := by
  unfold State.sendTick
  repeat' first
    | with_reducible assumption
    | with_reducible exact Frame.refl _ _
    | (intro _ _ _)
    | (intro _ _)
    | decide +kernel
    | (with_reducible apply Frame.forEach; rotate_left; intro _ _ _)
    | (with_reducible apply Frame.onlyIf; rotate_left; intro _ _)
    | with_reducible apply Frame.emit
    | with_reducible apply Frame.step (sendItem_frame ..)
    | with_reducible apply Frame.step (updClr_frame ..)
    | with_reducible apply Frame.step (updWrite_frame ..)
    | with_reducible apply Frame.ite
    | split
    | (dsimp only; split)

def W.headOff : Nat := W.interruptOp ||| W.requeueRead ||| W.setClr ||| W.withdraw

theorem headOff_frame (s : State) (h : Nat) : Frame W.headOff s (State.headOff s h) := by
  unfold State.headOff
  repeat' first
    | with_reducible assumption
    | with_reducible exact Frame.refl _ _
    | decide +kernel
    | with_reducible apply Frame.step (interruptOp_frame ..)
    | with_reducible apply Frame.step (requeueRead_frame ..)
    | with_reducible apply Frame.step (setClr_frame ..)
    | with_reducible apply Frame.step (withdraw_frame ..)
    | with_reducible apply Frame.ite
    | split
    | (dsimp only; split)

def W.linkLost : Nat := W.headFatal ||| W.headOff ||| W.linkDown ||| fm [F.LNK_EVT_HEADS_HEAD]

theorem linkLost_fr {m : Nat} {r s : State} (h : Frame m r s) {e : Event} (he : evIn m e = true) (hm : subMask W.linkLost m = true) (i : Nat) :
    Frame m r (s.linkLost i e) :=
  (headOff_frame ..).step ((linkDown_frame ..).step ((headFatal_frame ..).step
    (raiseLnk_fr h he (subMask_testBit hm (by decide +kernel)) i) (subMask_trans (by decide +kernel) hm))
    (subMask_trans (by decide +kernel) hm)) (subMask_trans (by decide +kernel) hm)

def W.cmdAck : Nat := fm [F.LNK_HFE_CMD_BUSY, F.LNK_HFE_CMD_RESULT]

theorem cmdAck_frame (s : State) (h seq result : Nat) : Frame W.cmdAck s (State.cmdAck s h seq result) := by
  unfold State.cmdAck
  repeat' first
    | with_reducible assumption
    | with_reducible exact Frame.refl _ _
    | decide +kernel
    | with_reducible apply Frame.setB
    | with_reducible apply Frame.setF
    | with_reducible apply Frame.ite
    | split
    | (dsimp only; split)

def W.statusFaults : Nat := em [E.LNK_DOWN_LOST, E.LNK_HFE_FAULT] ||| W.linkLost ||| fm [F.LNK_EVT_HEADS_HEAD]

theorem statusFaults_frame (s : State) (h fault : Nat) (dlock : Bool) : Frame W.statusFaults s (State.statusFaults s h fault
    dlock) := by
  unfold State.statusFaults
  repeat' first
    | with_reducible assumption
    | with_reducible exact Frame.refl _ _
    | (intro _ _ _)
    | (intro _ _)
    | decide +kernel
    | (with_reducible apply Frame.onlyIf; rotate_left; intro _ _)
    | with_reducible apply linkLost_fr
    | with_reducible apply raiseLnk_fr
    | with_reducible apply Frame.ite
    | split
    | (dsimp only; split)

def W.takeStatus : Nat := fm [F.LNK_HFE_STATUS_DCRC, F.LNK_HFE_STATUS_DLOCK0, F.LNK_HFE_STATUS_DLOCK1,
    F.LNK_HFE_STATUS_DRV_TAG, F.LNK_HFE_STATUS_FAULT] ||| W.chatter ||| W.cmdAck ||| W.headFatal ||| W.limitSample |||
    W.statusFaults ||| W.takeTick ||| W.updLink

theorem takeStatus_frame (s : State) (h : Nat) : Frame W.takeStatus s (State.takeStatus s h) := by
  unfold State.takeStatus
  repeat' first
    | with_reducible assumption
    | with_reducible exact Frame.refl _ _
    | (intro _ _ _)
    | (intro _ _)
    | decide +kernel
    | with_reducible apply Frame.setF
    | with_reducible apply Frame.step (chatter_frame ..)
    | with_reducible apply Frame.step (cmdAck_frame ..)
    | with_reducible apply Frame.step (headFatal_frame ..)
    | with_reducible apply Frame.step (limitSample_frame ..)
    | with_reducible apply Frame.step (statusFaults_frame ..)
    | with_reducible apply Frame.step (takeTick_frame ..)
    | with_reducible apply Frame.step (updLink_frame ..)
    | with_reducible apply Frame.ite
    | with_reducible refine Frame.ofPair (by assumption) ?_
    | split
    | (dsimp only; split)

def W.endWindow : Nat := W.updClr

theorem endWindow_frame (s : State) (h : Nat) (w : Nat × Nat) : Frame W.endWindow s (State.endWindow s h w) := by
  unfold State.endWindow
  repeat' first
    | with_reducible assumption
    | with_reducible exact Frame.refl _ _
    | (intro _ _ _)
    | (intro _ _)
    | decide +kernel
    | with_reducible apply Frame.step (updClr_frame ..)
    | with_reducible apply Frame.ite
    | split
    | (dsimp only; split)

def W.focusOk : Nat := fm [F.CLR_STATUS_FOCUS_OK]

theorem focusOk_frame (s : State) (h : Nat) : Frame W.focusOk s (State.focusOk s h) := by
  unfold State.focusOk
  repeat' first
    | with_reducible assumption
    | with_reducible exact Frame.refl _ _
    | decide +kernel
    | with_reducible apply Frame.setB

def W.trackFlag : Nat := fm [F.CLR_STATUS_TF] ||| W.chanFollow ||| W.updClr

theorem trackFlag_frame (s : State) (h : Nat) : Frame W.trackFlag s (State.trackFlag s h) := by
  unfold State.trackFlag
  repeat' first
    | with_reducible assumption
    | with_reducible exact Frame.refl _ _
    | (intro _ _ _)
    | (intro _ _)
    | decide +kernel
    | with_reducible apply Frame.setB
    | with_reducible apply Frame.step (chanFollow_frame ..)
    | with_reducible apply Frame.step (updClr_frame ..)
    | with_reducible apply Frame.ite
    | split
    | (dsimp only; split)

def W.shock : Nat := fm [F.CLR_STATUS_TF] ||| em [E.CLR_SHOCK] ||| W.chanFollow ||| W.updClr

theorem shock_frame (s : State) (h : Nat) : Frame W.shock s (State.shock s h) := by
  unfold State.shock
  repeat' first
    | with_reducible assumption
    | with_reducible exact Frame.refl _ _
    | (intro _ _ _)
    | (intro _ _)
    | decide +kernel
    | with_reducible apply Frame.setB
    | with_reducible apply Frame.step (chanFollow_frame ..)
    | with_reducible apply Frame.step (updClr_frame ..)
    | with_reducible apply raise_fr
    | with_reducible apply Frame.ite
    | with_reducible refine Frame.ofPair (by assumption) ?_
    | split
    | (dsimp only; split)

def W.slip : Nat := em [E.CLR_TRACK_SLIP] ||| W.enterHold ||| W.loseTrack

theorem slip_frame (s : State) (h : Nat) : Frame W.slip s (State.slip s h) := by
  unfold State.slip
  repeat' first
    | with_reducible assumption
    | with_reducible exact Frame.refl _ _
    | decide +kernel
    | with_reducible apply Frame.step (enterHold_frame ..)
    | with_reducible apply Frame.step (loseTrack_frame ..)
    | with_reducible apply raise_fr
    | with_reducible refine Frame.ofPair (by assumption) ?_

def W.slipOrLoss : Nat := em [E.CLR_FOCUS_LOST, E.CLR_FOCUS_REPEAT] ||| W.beginAcquire ||| W.headFatal ||| W.interruptOp |||
    W.slip ||| W.updClr

theorem slipOrLoss_frame (s : State) (h : Nat) (dx : Int) : Frame W.slipOrLoss s (State.slipOrLoss s h dx) := by
  unfold State.slipOrLoss
  repeat' first
    | with_reducible assumption
    | with_reducible exact Frame.refl _ _
    | (intro _ _ _)
    | (intro _ _)
    | decide +kernel
    | with_reducible apply Frame.step (beginAcquire_frame ..)
    | with_reducible apply Frame.step (headFatal_frame ..)
    | with_reducible apply Frame.step (interruptOp_frame ..)
    | with_reducible apply Frame.step (slip_frame ..)
    | with_reducible apply Frame.step (updClr_frame ..)
    | with_reducible apply raise_fr
    | with_reducible apply Frame.ite
    | with_reducible refine Frame.ofPair (by assumption) ?_
    | split
    | (dsimp only; split)

def W.tickCounts : Nat := W.rpCount ||| W.updClr

theorem tickCounts_frame (s : State) (h : Nat) (ok : Bool) : Frame W.tickCounts s (State.tickCounts s h ok) := by
  unfold State.tickCounts
  repeat' first
    | with_reducible assumption
    | with_reducible exact Frame.refl _ _
    | (intro _ _ _)
    | (intro _ _)
    | decide +kernel
    | with_reducible apply Frame.step (rpCount_frame ..)
    | with_reducible apply Frame.step (updClr_frame ..)
    | with_reducible apply Frame.ite
    | split
    | (dsimp only; split)

def W.openDrives : Nat := 2 ^ 16 ||| W.driveLoop

theorem openDrives_frame (s : State) (h : Nat) : Frame W.openDrives s (State.openDrives s h) := by
  unfold State.openDrives
  repeat' first
    | with_reducible assumption
    | with_reducible exact Frame.refl _ _
    | (intro _ _ _)
    | (intro _ _)
    | decide +kernel
    | (with_reducible apply Frame.forEach; rotate_left; intro _ _ _)
    | with_reducible apply Frame.bump
    | with_reducible apply Frame.step (driveLoop_frame ..)
    | with_reducible apply Frame.ite
    | split
    | (dsimp only; split)

def W.holdLens : Nat := W.centreLens

theorem holdLens_frame (s : State) (h : Nat) : Frame W.holdLens s (State.holdLens s h) := by
  unfold State.holdLens
  repeat' first
    | with_reducible assumption
    | with_reducible exact Frame.refl _ _
    | decide +kernel
    | with_reducible apply Frame.step (centreLens_frame ..)
    | with_reducible apply Frame.ite
    | split
    | (dsimp only; split)

def W.sendWrites : Nat := W.sendItem ||| W.updWrite

theorem sendWrites_frame (s : State) (h : Nat) : Frame W.sendWrites s (State.sendWrites s h) := by
  unfold State.sendWrites
  repeat' first
    | with_reducible assumption
    | with_reducible exact Frame.refl _ _
    | (intro _ _ _)
    | (intro _ _)
    | decide +kernel
    | (with_reducible apply Frame.forEach; rotate_left; intro _ _ _)
    | with_reducible apply Frame.step (sendItem_frame ..)
    | with_reducible apply Frame.step (updWrite_frame ..)
    | with_reducible apply Frame.ite
    | split
    | (dsimp only; split)

def W.writeSlot : Nat := W.sendWrites ||| W.updWrite

theorem writeSlot_frame (s : State) (h j : Nat) (bits : Nat → List Bool) : Frame W.writeSlot s (State.writeSlot s h j bits) :=
    by
  unfold State.writeSlot
  repeat' first
    | with_reducible assumption
    | with_reducible exact Frame.refl _ _
    | (intro _ _ _)
    | (intro _ _)
    | decide +kernel
    | with_reducible apply Frame.step (sendWrites_frame ..)
    | with_reducible apply Frame.step (updWrite_frame ..)

def W.writesPass : Nat := W.sendWrites ||| W.updWrite

theorem writesPass_frame (s : State) (h : Nat) (win : Nat × Nat) : Frame W.writesPass s (State.writesPass s h win) := by
  unfold State.writesPass
  repeat' first
    | with_reducible assumption
    | with_reducible exact Frame.refl _ _
    | (intro _ _ _)
    | (intro _ _)
    | decide +kernel
    | with_reducible apply Frame.step (sendWrites_frame ..)
    | with_reducible apply Frame.step (updWrite_frame ..)
    | with_reducible apply Frame.ite
    | (with_reducible apply Frame.foldl1; rotate_left; intro _ _ _)
    | (with_reducible apply Frame.foldl; rotate_left; intro _ _ _)
    | split
    | (dsimp only; split)

def W.verifySlot : Nat := W.reserve ||| W.updLode

theorem verifySlot_frame {s : State} {h : Nat} {l : SealedLode} {u : State} (e : State.verifySlot s h l = some u) : Frame
    W.verifySlot s u := by
  unfold State.verifySlot at e
  try dsimp only at e
  repeat' (split at e)
  all_goals (try (simp only [Option.some.injEq] at e; subst e)) <;> (try contradiction) <;> (try simp at e)
  repeat' first
    | with_reducible assumption
    | with_reducible exact Frame.refl _ _
    | (intro _ _ _)
    | (intro _ _)
    | decide +kernel
    | with_reducible apply Frame.step (reserve_frame ..)
    | with_reducible apply Frame.step (updLode_frame ..)
    | with_reducible apply Frame.ite
    | with_reducible refine Frame.ofPair (by assumption) ?_
    | split
    | (dsimp only; split)

def W.beginSlot : Nat := W.updLode ||| W.updWrite ||| W.verifySlot ||| W.writeSlot

theorem beginSlot_frame (s : State) (h j : Nat) (x : Target) : Frame W.beginSlot s (State.beginSlot s h j x) := by
  unfold State.beginSlot
  repeat' first
    | with_reducible assumption
    | with_reducible exact Frame.refl _ _
    | (intro _ _ _)
    | (intro _ _)
    | decide +kernel
    | with_reducible apply Frame.step (updLode_frame ..)
    | with_reducible apply Frame.step (updWrite_frame ..)
    | with_reducible apply Frame.step (writeSlot_frame ..)
    | with_reducible refine Frame.step (verifySlot_frame (by assumption)) ?_ ?_
    | with_reducible refine Frame.ofPair (by assumption) ?_
    | split
    | (dsimp only; split)

def W.freezeOut : Nat := fm [F.WRP_HEAD_STATE] ||| W.setClr ||| W.setHead

theorem freezeOut_frame (s : State) (h : Nat) : Frame W.freezeOut s (State.freezeOut s h) := by
  unfold State.freezeOut
  repeat' first
    | with_reducible assumption
    | with_reducible exact Frame.refl _ _
    | (intro _ _ _)
    | (intro _ _)
    | decide +kernel
    | with_reducible apply Frame.setF
    | with_reducible apply Frame.step (setClr_frame ..)
    | with_reducible apply Frame.step (setHead_frame ..)

def W.recordEnd : Nat := W.freezeOut ||| W.updWrite

theorem recordEnd_frame (s : State) (h : Nat) (win : Nat × Nat) : Frame W.recordEnd s (State.recordEnd s h win) := by
  unfold State.recordEnd
  repeat' first
    | with_reducible assumption
    | with_reducible exact Frame.refl _ _
    | (intro _ _ _)
    | (intro _ _)
    | decide +kernel
    | with_reducible apply Frame.step (freezeOut_frame ..)
    | with_reducible apply Frame.step (updWrite_frame ..)
    | with_reducible apply Frame.ite
    | split
    | (dsimp only; split)

def W.stepPower : Nat := W.updWrite

theorem stepPower_frame (s : State) (h : Nat) (next : Nat × Nat) : Frame W.stepPower s (State.stepPower s h next) := by
  unfold State.stepPower
  repeat' first
    | with_reducible assumption
    | with_reducible exact Frame.refl _ _
    | (intro _ _ _)
    | (intro _ _)
    | decide +kernel
    | with_reducible apply Frame.step (updWrite_frame ..)
    | split
    | (dsimp only; split)

def W.edgeTick : Nat := W.setClr ||| W.updWrite

theorem edgeTick_frame (s : State) (h : Nat) (win : Nat × Nat) : Frame W.edgeTick s (State.edgeTick s h win) := by
  unfold State.edgeTick
  repeat' first
    | with_reducible assumption
    | with_reducible exact Frame.refl _ _
    | (intro _ _ _)
    | (intro _ _)
    | decide +kernel
    | with_reducible apply Frame.step (setClr_frame ..)
    | with_reducible apply Frame.step (updWrite_frame ..)
    | with_reducible apply Frame.ite
    | split
    | (dsimp only; split)

def W.gateTick : Nat := W.beginSlot ||| W.cutDrift ||| W.gateClose ||| W.recordEnd ||| W.stepPower ||| W.updWrite |||
    W.writesPass

theorem gateTick_frame (s : State) (h : Nat) (permit : Bool) (win : Nat × Nat) : Frame W.gateTick s (State.gateTick s h permit
    win) := by
  unfold State.gateTick
  repeat' first
    | with_reducible assumption
    | with_reducible exact Frame.refl _ _
    | (intro _ _ _)
    | (intro _ _)
    | decide +kernel
    | with_reducible apply Frame.step (beginSlot_frame ..)
    | with_reducible apply Frame.step (cutDrift_frame ..)
    | with_reducible apply Frame.step (gateClose_frame ..)
    | with_reducible apply Frame.step (recordEnd_frame ..)
    | with_reducible apply Frame.step (stepPower_frame ..)
    | with_reducible apply Frame.step (updWrite_frame ..)
    | with_reducible apply Frame.step (writesPass_frame ..)
    | with_reducible apply Frame.ite
    | split
    | (dsimp only; split)

def W.verifyTick : Nat := W.updWrite

theorem verifyTick_frame (s : State) (h : Nat) (win : Nat × Nat) : Frame W.verifyTick s (State.verifyTick s h win) := by
  unfold State.verifyTick
  repeat' first
    | with_reducible assumption
    | with_reducible exact Frame.refl _ _
    | (intro _ _ _)
    | (intro _ _)
    | decide +kernel
    | with_reducible apply Frame.step (updWrite_frame ..)
    | with_reducible apply Frame.ite
    | split
    | (dsimp only; split)

def W.readTick : Nat := W.continueOp ||| W.setHead

theorem readTick_frame (s : State) (h : Nat) (win : Nat × Nat) : Frame W.readTick s (State.readTick s h win) := by
  unfold State.readTick
  repeat' first
    | with_reducible assumption
    | with_reducible exact Frame.refl _ _
    | (intro _ _ _)
    | (intro _ _)
    | decide +kernel
    | with_reducible apply Frame.step (continueOp_frame ..)
    | with_reducible apply Frame.step (setHead_frame ..)
    | with_reducible apply Frame.ite
    | split
    | (dsimp only; split)

def W.ovrWindow : Nat := fm [F.TCK_CLR_OVR_RECENT] ||| W.updClr

theorem ovrWindow_frame (s : State) (h : Nat) : Frame W.ovrWindow s (State.ovrWindow s h) := by
  unfold State.ovrWindow
  repeat' first
    | with_reducible assumption
    | with_reducible exact Frame.refl _ _
    | (intro _ _ _)
    | (intro _ _)
    | decide +kernel
    | with_reducible apply Frame.setF
    | with_reducible apply Frame.step (updClr_frame ..)
    | with_reducible apply Frame.ite
    | split
    | (dsimp only; split)

def W.overrun : Nat := fm [F.CLR_STATUS_PERMIT, F.TCK_CLR_OVR_RECENT, F.TCK_CLR_OVR_TOTAL] ||| em [E.TCK_CLR_HOLD,
    E.TCK_CLR_OVR, E.TCK_CLR_SAFE] ||| W.enterHold ||| W.gateClose ||| W.headFatal ||| W.lrnFreezeNow ||| W.updClr |||
    W.updWrite ||| fm [F.TCK_OVR_HEADS_HEAD]

theorem overrun_frame (s : State) (h : Nat) : Frame W.overrun s (State.overrun s h) := by
  unfold State.overrun
  repeat' first
    | with_reducible assumption
    | with_reducible exact Frame.refl _ _
    | (intro _ _ _)
    | (intro _ _)
    | decide +kernel
    | (with_reducible apply Frame.onlyIf; rotate_left; intro _ _)
    | with_reducible apply Frame.count
    | with_reducible apply Frame.setB
    | with_reducible apply Frame.setF
    | with_reducible apply Frame.step (enterHold_frame ..)
    | with_reducible apply Frame.step (gateClose_frame ..)
    | with_reducible apply Frame.step (headFatal_frame ..)
    | with_reducible apply Frame.step (lrnFreezeNow_frame ..)
    | with_reducible apply Frame.step (updClr_frame ..)
    | with_reducible apply Frame.step (updWrite_frame ..)
    | with_reducible apply raiseTckHead_fr
    | with_reducible apply Frame.ite
    | split
    | (dsimp only; split)

def W.collierGood : Nat := W.advanceTrack ||| W.focusOk ||| W.holdLens ||| W.lensFilter ||| W.openDrives ||| W.reportOt |||
    W.runLoops ||| W.seqAfter ||| W.seqBefore ||| W.shock ||| W.slipOrLoss ||| W.tickCounts ||| W.trackFlag ||| W.updClr

theorem collierGood_frame (s : State) (h : Nat) (p : Popped) : Frame W.collierGood s (State.collierGood s h p) := by
  unfold State.collierGood
  repeat' first
    | with_reducible assumption
    | with_reducible exact Frame.refl _ _
    | (intro _ _ _)
    | (intro _ _)
    | decide +kernel
    | (with_reducible apply Frame.onlyIf; rotate_left; intro _ _)
    | with_reducible apply Frame.step (advanceTrack_frame ..)
    | with_reducible apply Frame.step (focusOk_frame ..)
    | with_reducible apply Frame.step (holdLens_frame ..)
    | with_reducible apply Frame.step (lensFilter_frame ..)
    | with_reducible apply Frame.step (openDrives_frame ..)
    | with_reducible apply Frame.step (reportOt_frame ..)
    | with_reducible apply Frame.step (runLoops_frame ..)
    | with_reducible apply Frame.step (seqAfter_frame ..)
    | with_reducible apply Frame.step (seqBefore_frame ..)
    | with_reducible apply Frame.step (shock_frame ..)
    | with_reducible apply Frame.step (slipOrLoss_frame ..)
    | with_reducible apply Frame.step (tickCounts_frame ..)
    | with_reducible apply Frame.step (trackFlag_frame ..)
    | with_reducible apply Frame.step (updClr_frame ..)

def W.collierBad : Nat := W.loseTrack ||| W.overrun ||| W.tickCounts ||| W.updClr

theorem collierBad_frame (s : State) (h : Nat) : Frame W.collierBad s (State.collierBad s h) := by
  unfold State.collierBad
  repeat' first
    | with_reducible assumption
    | with_reducible exact Frame.refl _ _
    | (intro _ _ _)
    | (intro _ _)
    | decide +kernel
    | with_reducible apply Frame.step (loseTrack_frame ..)
    | with_reducible apply Frame.step (overrun_frame ..)
    | with_reducible apply Frame.step (tickCounts_frame ..)
    | with_reducible apply Frame.step (updClr_frame ..)
    | with_reducible apply Frame.ite
    | split
    | (dsimp only; split)

def W.headTick : Nat := fm [F.CLR_STATUS_PERMIT, F.TCK_CLR_MAXCYC_MAX] ||| W.coast ||| W.collierBad ||| W.collierGood |||
    W.edgeTick ||| W.endWindow ||| W.gateTick ||| W.lrnTick ||| W.overrun ||| W.ovrWindow ||| W.readTick ||| W.rpCount |||
    W.takeStatus ||| W.takeTick ||| W.updClr ||| W.verifyTick

theorem headTick_frame (s : State) (h cyc : Nat) : Frame W.headTick s (State.headTick s h cyc) := by
  unfold State.headTick
  repeat' first
    | with_reducible assumption
    | with_reducible exact Frame.refl _ _
    | (intro _ _ _)
    | (intro _ _)
    | decide +kernel
    | (with_reducible apply Frame.forEach; rotate_left; intro _ _ _)
    | (with_reducible apply Frame.onlyIf; rotate_left; intro _ _)
    | with_reducible apply Frame.keepMax
    | with_reducible apply Frame.setB
    | with_reducible apply Frame.step (coast_frame ..)
    | with_reducible apply Frame.step (collierBad_frame ..)
    | with_reducible apply Frame.step (collierGood_frame ..)
    | with_reducible apply Frame.step (edgeTick_frame ..)
    | with_reducible apply Frame.step (endWindow_frame ..)
    | with_reducible apply Frame.step (gateTick_frame ..)
    | with_reducible apply Frame.step (lrnTick_frame ..)
    | with_reducible apply Frame.step (overrun_frame ..)
    | with_reducible apply Frame.step (ovrWindow_frame ..)
    | with_reducible apply Frame.step (readTick_frame ..)
    | with_reducible apply Frame.step (rpCount_frame ..)
    | with_reducible apply Frame.step (takeStatus_frame ..)
    | with_reducible apply Frame.step (takeTick_frame ..)
    | with_reducible apply Frame.step (updClr_frame ..)
    | with_reducible apply Frame.step (verifyTick_frame ..)
    | with_reducible apply Frame.ite
    | with_reducible refine Frame.ofPair (by assumption) ?_
    | split
    | (dsimp only; split)

def W.deckTick : Nat := W.carrierPeak ||| W.observe ||| W.shortTick

theorem deckTick_frame (s : State) (d : Nat) (short : Option (Nat × Nat)) : Frame W.deckTick s (State.deckTick s d short) :=
    by
  unfold State.deckTick
  repeat' first
    | with_reducible assumption
    | with_reducible exact Frame.refl _ _
    | (intro _ _ _)
    | (intro _ _)
    | decide +kernel
    | (with_reducible apply Frame.onlyIf; rotate_left; intro _ _)
    | with_reducible apply Frame.step (carrierPeak_frame ..)
    | with_reducible apply Frame.step (observe_frame ..)
    | with_reducible apply Frame.step (shortTick_frame ..)

def W.discFollow : Nat := fm [F.TCK_STATUS_HOLDOVER, F.TCK_STATUS_LOCK] ||| 2 ^ 2

theorem discFollow_frame (s : State) (before : Bool) : Frame W.discFollow s (State.discFollow s before) := by
  unfold State.discFollow
  repeat' first
    | with_reducible assumption
    | with_reducible exact Frame.refl _ _
    | (intro _ _ _)
    | (intro _ _)
    | decide +kernel
    | with_reducible apply Frame.setB
    | with_reducible apply Frame.ite
    | split
    | (dsimp only; split)
    | (with_reducible refine Frame.upd ?_ rfl ?_ ?_ ?_ ?_ ?_ ?_ ?_ ?_ ?_ ?_ ?_ ?_ ?_ ?_ ?_ ?_ ?_ <;>
        first | with_reducible exact Or.inl rfl | with_reducible exact Or.inr ⟨by decide +kernel, Nat.mod_lt _ (Nat.two_pow_pos 48)⟩ |
          exact Or.inr ⟨by decide +kernel, rfl, rfl⟩ | exact Or.inr ⟨by decide +kernel, rfl⟩ |
          exact Or.inr (by decide +kernel) | skip)

def W.strobe : Nat := 2 ^ 1 ||| 2 ^ 2

theorem strobe_frame (s : State) : Frame W.strobe s (State.strobe s) := by
  unfold State.strobe
  repeat' first
    | with_reducible assumption
    | with_reducible exact Frame.refl _ _
    | (intro _ _ _)
    | (intro _ _)
    | decide +kernel
    | (with_reducible refine Frame.upd ?_ rfl ?_ ?_ ?_ ?_ ?_ ?_ ?_ ?_ ?_ ?_ ?_ ?_ ?_ ?_ ?_ ?_ ?_ <;>
        first | with_reducible exact Or.inl rfl | with_reducible exact Or.inr ⟨by decide +kernel, Nat.mod_lt _ (Nat.two_pow_pos 48)⟩ |
          exact Or.inr ⟨by decide +kernel, rfl, rfl⟩ | exact Or.inr ⟨by decide +kernel, rfl⟩ |
          exact Or.inr (by decide +kernel) | skip)

def W.servoTick : Nat := W.deckTick ||| W.headTick ||| W.patternTick ||| W.sendTick ||| W.strobe

theorem servoTick_frame (s : State) (shorts : List (Option (Nat × Nat))) (cyc : List Nat) : Frame W.servoTick s
    (State.servoTick s shorts cyc) := by
  unfold State.servoTick
  repeat' first
    | with_reducible assumption
    | with_reducible exact Frame.refl _ _
    | (intro _ _ _)
    | (intro _ _)
    | decide +kernel
    | (with_reducible apply Frame.forEach; rotate_left; intro _ _ _)
    | with_reducible apply Frame.step (deckTick_frame ..)
    | with_reducible apply Frame.step (headTick_frame ..)
    | with_reducible apply Frame.step (patternTick_frame ..)
    | with_reducible apply Frame.step (sendTick_frame ..)
    | with_reducible apply Frame.step (strobe_frame ..)
    | with_reducible apply Frame.ite
    | split
    | (dsimp only; split)

end Sys2Proof.Laws
end

