-- ==== Sys2Proof/Laws/FrChnCmds.lean ====
section
/-!
SUPPORT. Frames of the operations of Machine/ChnCmds.lean: one law per operation, with the mask of what it may change.
-/
set_option Elab.async false
set_option linter.unusedTactic false
set_option linter.unreachableTactic false

namespace Sys2Proof.Laws

open Sys2Proof.Machine

def W.chanEnable : Nat := fm [F.CHN_CTL_EN, F.CHN_STATUS_STATE] ||| W.rateCheck ||| W.updChan

theorem chanEnable_frame (s : State) (c : Nat) : Frame W.chanEnable s (State.chanEnable s c) := by
  unfold State.chanEnable
  repeat' first
    | with_reducible assumption
    | with_reducible exact Frame.refl _ _
    | (intro _ _ _)
    | (intro _ _)
    | decide +kernel
    | with_reducible apply Frame.setB
    | with_reducible apply Frame.setF
    | with_reducible apply Frame.step (rateCheck_frame ..)
    | with_reducible apply Frame.step (updChan_frame ..)
    | with_reducible apply Frame.ite
    | split
    | (dsimp only; split)

def W.execChannelEnable : Nat := W.chanEnable ||| W.doneW

theorem execChannelEnable_frame (c : Fin 128) (s : State) : FrameN W.execChannelEnable s (execChannelEnable c s) := by
  unfold execChannelEnable
  repeat' first
    | refine doneW_fr ?_ ?_
    | with_reducible assumption
    | with_reducible exact Frame.refl _ _
    | (intro _ _ _)
    | (intro _ _)
    | decide +kernel
    | with_reducible apply Frame.step (chanEnable_frame ..)

def W.chanDisable : Nat := fm [F.CHN_CTL_EN] ||| W.chanOff

theorem chanDisable_frame (s : State) (c : Nat) : Frame W.chanDisable s (State.chanDisable s c) := by
  unfold State.chanDisable
  repeat' first
    | with_reducible assumption
    | with_reducible exact Frame.refl _ _
    | decide +kernel
    | with_reducible apply Frame.setB
    | with_reducible apply Frame.step (chanOff_frame ..)

def W.execChannelDisable : Nat := W.chanDisable ||| W.doneW

theorem execChannelDisable_frame (c : Fin 128) (s : State) : FrameN W.execChannelDisable s (execChannelDisable c s) := by
  unfold execChannelDisable
  repeat' first
    | refine doneW_fr ?_ ?_
    | with_reducible assumption
    | with_reducible exact Frame.refl _ _
    | (intro _ _ _)
    | (intro _ _)
    | decide +kernel
    | with_reducible apply Frame.step (chanDisable_frame ..)

def W.toLock : Nat := W.chanLock ||| W.rateCheck

theorem toLock_frame (s : State) (c : Nat) : Frame W.toLock s (State.toLock s c) := by
  unfold State.toLock
  repeat' first
    | with_reducible assumption
    | with_reducible exact Frame.refl _ _
    | (intro _ _ _)
    | (intro _ _)
    | decide +kernel
    | with_reducible apply Frame.step (chanLock_frame ..)
    | with_reducible apply Frame.step (rateCheck_frame ..)
    | with_reducible apply Frame.ite
    | split
    | (dsimp only; split)

def W.execChannelLock : Nat := W.outward ||| W.toLock

theorem execChannelLock_frame (c : Fin 128) (s : State) : FrameN W.execChannelLock s (execChannelLock c s) := by
  unfold execChannelLock
  repeat' first
    | refine done_fr ?_ ?_
    | with_reducible assumption
    | with_reducible exact Frame.refl _ _
    | (intro _ _ _)
    | (intro _ _)
    | decide +kernel
    | with_reducible apply Frame.step (toLock_frame ..)

def W.execLockTimeout : Nat := W.outward ||| W.seedLoop ||| em [E.CHN_WOB_UNLOCK] ||| fm [F.CHN_EVT_CHANS_CHAN]

theorem execLockTimeout_frame (c : Fin 128) (s : State) : FrameN W.execLockTimeout s (execLockTimeout c s) := by
  unfold execLockTimeout
  repeat' first
    | refine done_fr ?_ ?_
    | with_reducible assumption
    | with_reducible exact Frame.refl _ _
    | (intro _ _ _)
    | (intro _ _)
    | decide +kernel
    | with_reducible apply Frame.step (seedLoop_frame ..)
    | with_reducible apply raiseChn_fr
    | with_reducible apply Frame.ite
    | split
    | (dsimp only; split)

def W.execZoneReload : Nat := W.doneW ||| W.updChan

theorem execZoneReload_frame (c : Fin 128) (s : State) : FrameN W.execZoneReload s (execZoneReload c s) := by
  unfold execZoneReload
  repeat' first
    | refine doneW_fr ?_ ?_
    | with_reducible assumption
    | with_reducible exact Frame.refl _ _
    | (intro _ _ _)
    | (intro _ _)
    | decide +kernel
    | with_reducible apply Frame.step (updChan_frame ..)

def W.wobble : Nat := fm [F.CHN_STATUS_WOB_LOCK, F.CHN_WOB_STATUS_PERR] ||| W.updChan

theorem wobble_frame (s : State) (c : Nat) : Frame W.wobble s (State.wobble s c) := by
  unfold State.wobble
  repeat' first
    | with_reducible assumption
    | with_reducible exact Frame.refl _ _
    | (intro _ _ _)
    | (intro _ _)
    | decide +kernel
    | with_reducible apply Frame.setB
    | with_reducible apply Frame.setF
    | with_reducible apply Frame.step (updChan_frame ..)
    | with_reducible apply Frame.ite
    | split
    | (dsimp only; split)

def W.reportAddr : Nat := fm [F.CHN_PILLAR_BAND, F.CHN_PILLAR_LAYER, F.CHN_PILLAR_MATCH, F.CHN_PILLAR_PILLAR,
    F.CHN_PILLAR_SIDE, F.CHN_PILLAR_TRACK]

theorem reportAddr_frame (s : State) (c : Nat) (a : PillarAddr) (pass : Bool) : Frame W.reportAddr s (State.reportAddr s c a
    pass) := by
  unfold State.reportAddr
  repeat' first
    | with_reducible assumption
    | with_reducible exact Frame.refl _ _
    | decide +kernel
    | with_reducible apply Frame.setB
    | with_reducible apply Frame.setF

def W.pillarCount : Nat := fm [F.CHN_WOB_STATUS_PILLAR] ||| em [E.CHN_PCOUNT_FIX] ||| W.updChan ||| fm [F.CHN_EVT_CHANS_CHAN]

theorem pillarCount_frame (s : State) (c : Nat) (a : PillarAddr) : Frame W.pillarCount s (State.pillarCount s c a) := by
  unfold State.pillarCount
  repeat' first
    | with_reducible assumption
    | with_reducible exact Frame.refl _ _
    | (intro _ _ _)
    | (intro _ _)
    | decide +kernel
    | with_reducible apply Frame.setF
    | with_reducible apply Frame.step (updChan_frame ..)
    | with_reducible apply raiseChn_fr
    | with_reducible apply Frame.ite
    | split
    | (dsimp only; split)

def W.syncPhase : Nat := W.updRx

theorem syncPhase_frame (s : State) (c : Nat) (o : Int) : Frame W.syncPhase s (State.syncPhase s c o) := by
  unfold State.syncPhase
  repeat' first
    | with_reducible assumption
    | with_reducible exact Frame.refl _ _
    | (intro _ _ _)
    | (intro _ _)
    | decide +kernel
    | with_reducible apply Frame.step (updRx_frame ..)
    | with_reducible apply Frame.ite
    | split
    | (dsimp only; split)

def W.beamPillar : Nat := fm [F.CHN_PILLAR_STATS_CRC_ERR, F.CHN_PILLAR_STATS_MISSED] ||| em [E.CHN_PILLAR_MISS] |||
    W.pillarCount ||| W.reportAddr ||| W.syncPhase ||| W.updChan ||| W.wobble ||| W.zoneAtPillar ||| fm [F.CHN_EVT_CHANS_CHAN]

theorem beamPillar_frame (s : State) (c : Nat) : Frame W.beamPillar s (State.beamPillar s c).1 := by
  unfold State.beamPillar
  repeat' first
    | with_reducible assumption
    | with_reducible exact Frame.refl _ _
    | (intro _ _ _)
    | (intro _ _)
    | decide +kernel
    | with_reducible apply Frame.count
    | with_reducible apply Frame.step (pillarCount_frame ..)
    | with_reducible apply Frame.step (reportAddr_frame ..)
    | with_reducible apply Frame.step (syncPhase_frame ..)
    | with_reducible apply Frame.step (updChan_frame ..)
    | with_reducible apply Frame.step (wobble_frame ..)
    | with_reducible apply Frame.step (zoneAtPillar_frame ..)
    | with_reducible apply raiseChn_fr
    | with_reducible apply Frame.ite
    | split
    | (dsimp only; split)

def W.pillarState : Nat := fm [F.CHN_STATUS_STATE, F.CHN_WOB_STATUS_PILLAR] ||| em [E.CHN_PILLAR_LOST, E.CHN_WOB_UNLOCK] |||
    W.chanLock ||| W.truncate ||| fm [F.CHN_EVT_CHANS_CHAN]

theorem pillarState_frame (s : State) (c : Nat) : Frame W.pillarState s (State.pillarState s c) := by
  unfold State.pillarState
  repeat' first
    | with_reducible assumption
    | with_reducible exact Frame.refl _ _
    | (intro _ _ _)
    | (intro _ _)
    | decide +kernel
    | (with_reducible apply Frame.onlyIf; rotate_left; intro _ _)
    | with_reducible apply Frame.setF
    | with_reducible apply Frame.step (chanLock_frame ..)
    | with_reducible apply Frame.step (truncate_frame ..)
    | with_reducible apply raiseChn_fr
    | with_reducible apply Frame.ite
    | split
    | (dsimp only; split)

def W.compareBeam : Nat := fm [F.CHN_PILLAR_STATS_MISMATCH] ||| W.updChan

theorem compareBeam_frame (s : State) (h b : Nat) (a : PillarAddr) : Frame W.compareBeam s (State.compareBeam s h b a) := by
  unfold State.compareBeam
  repeat' first
    | with_reducible assumption
    | with_reducible exact Frame.refl _ _
    | (intro _ _ _)
    | (intro _ _)
    | decide +kernel
    | with_reducible apply Frame.count
    | with_reducible apply Frame.step (updChan_frame ..)
    | with_reducible apply Frame.ite
    | split
    | (dsimp only; split)

def W.comparePos : Nat := fm [F.CHN_STATUS_POS_ERR] ||| em [E.CHN_POS_MISMATCH] ||| W.clearPosErr ||| W.compareBeam ||| fm
    [F.CHN_EVT_CHANS_CHAN]

theorem comparePos_frame (s : State) (h : Nat) (l : List (Nat × PillarAddr)) : Frame W.comparePos s (State.comparePos s h l)
    := by
  unfold State.comparePos
  repeat' first
    | with_reducible assumption
    | with_reducible exact Frame.refl _ _
    | (intro _ _ _)
    | (intro _ _)
    | decide +kernel
    | (with_reducible apply Frame.forEach; rotate_left; intro _ _ _)
    | with_reducible apply Frame.setB
    | with_reducible apply Frame.step (clearPosErr_frame ..)
    | with_reducible apply Frame.step (compareBeam_frame ..)
    | with_reducible apply raiseChn_fr
    | with_reducible apply Frame.ite
    | split
    | (dsimp only; split)

def W.pillarFix : Nat := W.positionFix

theorem pillarFix_frame (s : State) (h : Nat) (posErr : Bool) (l : List (Nat × PillarAddr)) : Frame W.pillarFix s
    (State.pillarFix s h posErr l) := by
  unfold State.pillarFix
  repeat' first
    | with_reducible assumption
    | with_reducible exact Frame.refl _ _
    | (intro _ _ _)
    | (intro _ _)
    | decide +kernel
    | with_reducible apply Frame.step (positionFix_frame ..)
    | with_reducible apply Frame.ite
    | split
    | (dsimp only; split)

def W.pillarTold : Nat := W.updWnd

theorem pillarTold_frame (s : State) (h k : Nat) (l : List (Nat × PillarAddr)) : Frame W.pillarTold s (State.pillarTold s h k
    l) := by
  unfold State.pillarTold
  repeat' first
    | with_reducible assumption
    | with_reducible exact Frame.refl _ _
    | (intro _ _ _)
    | (intro _ _)
    | decide +kernel
    | with_reducible apply Frame.step (updWnd_frame ..)
    | split
    | (dsimp only; split)

def W.pillar : Nat := W.beamPillar ||| W.chanFollow ||| W.comparePos ||| W.pillarFix ||| W.pillarState ||| W.pillarTold

theorem pillar_frame (s : State) (h k : Nat) : Frame W.pillar s (State.pillar s h k) := by
  unfold State.pillar
  repeat' first
    | with_reducible assumption
    | with_reducible exact Frame.refl _ _
    | (intro _ _ _)
    | (intro _ _)
    | decide +kernel
    | (with_reducible apply Frame.forEach; rotate_left; intro _ _ _)
    | with_reducible apply Frame.step (beamPillar_frame ..)
    | with_reducible apply Frame.step (chanFollow_frame ..)
    | with_reducible apply Frame.step (comparePos_frame ..)
    | with_reducible apply Frame.step (pillarFix_frame ..)
    | with_reducible apply Frame.step (pillarState_frame ..)
    | with_reducible apply Frame.step (pillarTold_frame ..)
    | (with_reducible apply Frame.foldl1; rotate_left; intro _ _ _)
    | (with_reducible apply Frame.foldl; rotate_left; intro _ _ _)
    | with_reducible refine Frame.ofPair (by assumption) ?_
    | split
    | (dsimp only; split)

def W.execPillarDetect : Nat := W.outward ||| W.pillar

theorem execPillarDetect_frame (h : Fin 32) (k : BitVec 16) (s : State) : FrameN W.execPillarDetect s (execPillarDetect h k s)
    := by
  unfold execPillarDetect
  repeat' first
    | refine done_fr ?_ ?_
    | with_reducible assumption
    | with_reducible exact Frame.refl _ _
    | (intro _ _ _)
    | (intro _ _)
    | decide +kernel
    | with_reducible apply Frame.step (pillar_frame ..)

def W.toPool : Nat := fm [F.ASY_UNCLAIMED_COUNT] ||| W.claimDrift

theorem toPool_frame (s : State) (r : DriftRec) (lam : List Int) : Frame W.toPool s (State.toPool s r lam).1 := by
  unfold State.toPool
  repeat' first
    | with_reducible assumption
    | with_reducible exact Frame.refl _ _
    | (intro _ _ _)
    | (intro _ _)
    | decide +kernel
    | with_reducible apply Frame.count
    | with_reducible apply Frame.step (claimDrift_frame ..)
    | with_reducible apply Frame.ite
    | split
    | (dsimp only; split)

def W.toCal : Nat := W.updWrite

theorem toCal_frame (s : State) (c slot : Nat) (r : DriftRec) (llr : List Int) : Frame W.toCal s (State.toCal s c slot r llr)
    := by
  unfold State.toCal
  repeat' first
    | with_reducible assumption
    | with_reducible exact Frame.refl _ _
    | (intro _ _ _)
    | (intro _ _)
    | decide +kernel
    | (with_reducible apply Frame.onlyIf; rotate_left; intro _ _)
    | with_reducible apply Frame.step (updWrite_frame ..)
    | with_reducible apply Frame.ite
    | split
    | (dsimp only; split)

def W.frameDrift : Nat := W.envAverage ||| W.updChan

theorem frameDrift_frame (s : State) (c j : Nat) (start : Int) (r : DriftRec) : Frame W.frameDrift s (State.frameDrift s c j
    start r) := by
  unfold State.frameDrift
  repeat' first
    | with_reducible assumption
    | with_reducible exact Frame.refl _ _
    | (intro _ _ _)
    | (intro _ _)
    | decide +kernel
    | (with_reducible apply Frame.forEach; rotate_left; intro _ _ _)
    | with_reducible apply Frame.step (envAverage_frame ..)
    | with_reducible apply Frame.step (updChan_frame ..)

def W.driftSlot : Nat := fm [F.CHN_DEF_STATS_BLANKS, F.CHN_DRIFTS_DELIVERED, F.CHN_DRIFTS_INFERRED, F.CHN_SYNC_LAST_CANDS,
    F.CHN_SYNC_LAST_OFFSET, F.CHN_SYNC_LAST_SCORE, F.CHN_SYNC_STATS_FOUND, F.CHN_SYNC_STATS_MISSED] ||| em [E.CHN_SYNC_MISS]
    ||| W.frameDrift ||| W.toCal ||| W.toPool ||| fm [F.CHN_EVT_CHANS_CHAN]

theorem driftSlot_frame (s : State) (c j : Nat) : Frame W.driftSlot s (State.driftSlot s c j) := by
  unfold State.driftSlot
  repeat' first
    | with_reducible assumption
    | with_reducible exact Frame.refl _ _
    | (intro _ _ _)
    | (intro _ _)
    | decide +kernel
    | with_reducible apply Frame.count
    | with_reducible apply Frame.setF
    | with_reducible apply Frame.step (frameDrift_frame ..)
    | with_reducible apply Frame.step (toCal_frame ..)
    | with_reducible apply Frame.step (toPool_frame ..)
    | with_reducible apply raiseChn_fr
    | with_reducible apply Frame.ite
    | with_reducible refine Frame.ofPair (by assumption) ?_
    | split
    | (dsimp only; split)

def W.execDriftSlot : Nat := W.driftSlot ||| W.outward

theorem execDriftSlot_frame (c : Fin 128) (slot : Nat) (s : State) : FrameN W.execDriftSlot s (execDriftSlot c slot s) := by
  unfold execDriftSlot
  repeat' first
    | refine done_fr ?_ ?_
    | with_reducible assumption
    | with_reducible exact Frame.refl _ _
    | (intro _ _ _)
    | (intro _ _)
    | decide +kernel
    | with_reducible apply Frame.step (driftSlot_frame ..)

def W.execDefect : Nat := W.dropBegin ||| W.outward

theorem execDefect_frame (c : Fin 128) (s : State) : FrameN W.execDefect s (execDefect c s) := by
  unfold execDefect
  repeat' first
    | refine done_fr ?_ ?_
    | with_reducible assumption
    | with_reducible exact Frame.refl _ _
    | (intro _ _ _)
    | (intro _ _)
    | decide +kernel
    | with_reducible apply Frame.step (dropBegin_frame ..)

def W.innerDone : Nat := W.judgeInner ||| W.updChan

theorem innerDone_frame (s : State) (c : Nat) : Frame W.innerDone s (State.innerDone s c) := by
  unfold State.innerDone
  repeat' first
    | with_reducible assumption
    | with_reducible exact Frame.refl _ _
    | (intro _ _ _)
    | (intro _ _)
    | decide +kernel
    | with_reducible apply Frame.step (judgeInner_frame ..)
    | with_reducible apply Frame.step (updChan_frame ..)
    | with_reducible apply Frame.ite
    | split
    | (dsimp only; split)

def W.execInnerDecodeDone : Nat := W.innerDone ||| W.outward

theorem execInnerDecodeDone_frame (c : Fin 128) (s : State) : FrameN W.execInnerDecodeDone s (execInnerDecodeDone c s) := by
  unfold execInnerDecodeDone
  repeat' first
    | refine done_fr ?_ ?_
    | with_reducible assumption
    | with_reducible exact Frame.refl _ _
    | (intro _ _ _)
    | (intro _ _)
    | decide +kernel
    | with_reducible apply Frame.step (innerDone_frame ..)

def W.driftEnd : Nat := fm [F.CHN_DRIFTS_DELIVERED, F.CHN_MSE_MSE] ||| W.innerDone ||| W.toCal ||| W.toPool ||| W.updChan

theorem driftEnd_frame (s : State) (c : Nat) : Frame W.driftEnd s (State.driftEnd s c) := by
  unfold State.driftEnd
  repeat' first
    | with_reducible assumption
    | with_reducible exact Frame.refl _ _
    | (intro _ _ _)
    | (intro _ _)
    | decide +kernel
    | with_reducible apply Frame.count
    | with_reducible apply Frame.setF
    | with_reducible apply Frame.step (innerDone_frame ..)
    | with_reducible apply Frame.step (toCal_frame ..)
    | with_reducible apply Frame.step (toPool_frame ..)
    | with_reducible apply Frame.step (updChan_frame ..)
    | with_reducible apply Frame.ite
    | with_reducible refine Frame.ofPair (by assumption) ?_
    | split
    | (dsimp only; split)

def W.execDriftDelivered : Nat := W.driftEnd ||| W.outward

theorem execDriftDelivered_frame (c : Fin 128) (s : State) : FrameN W.execDriftDelivered s (execDriftDelivered c s) := by
  unfold execDriftDelivered
  repeat' first
    | refine done_fr ?_ ?_
    | with_reducible assumption
    | with_reducible exact Frame.refl _ _
    | (intro _ _ _)
    | (intro _ _)
    | decide +kernel
    | with_reducible apply Frame.step (driftEnd_frame ..)

end Sys2Proof.Laws
end

