-- ==== Sys2Proof/Laws/FrAsyCmds.lean ====
section
/-!
SUPPORT. Frames of the operations of Machine/AsyCmds.lean: one law per operation, with the mask of what it may change.
-/
set_option Elab.async false
set_option linter.unusedTactic false
set_option linter.unreachableTactic false

namespace Sys2Proof.Laws

open Sys2Proof.Machine

def W.execSlotReserve : Nat := W.issueFirst ||| W.outward

theorem execSlotReserve_frame (s : State) : FrameN W.execSlotReserve s (execSlotReserve s) := by
  unfold execSlotReserve
  repeat' first
    | refine done_fr ?_ ?_
    | with_reducible assumption
    | with_reducible exact Frame.refl _ _
    | (intro _ _ _)
    | (intro _ _)
    | decide +kernel
    | with_reducible apply Frame.step (issueFirst_frame ..)
    | with_reducible refine Frame.ofPair (by assumption) ?_

def W.lodePass : Nat := W.endOp ||| W.lodeEnd

theorem lodePass_frame (s : State) (y : Nat) (passed : Bool) : Frame W.lodePass s (State.lodePass s y passed) := by
  unfold State.lodePass
  repeat' first
    | with_reducible assumption
    | with_reducible exact Frame.refl _ _
    | (intro _ _ _)
    | (intro _ _)
    | decide +kernel
    | with_reducible apply Frame.step (endOp_frame ..)
    | with_reducible apply Frame.step (lodeEnd_frame ..)
    | with_reducible apply Frame.ite
    | split
    | (dsimp only; split)

def W.execLodeEnd : Nat := W.lodePass ||| W.outward

theorem execLodeEnd_frame (y : Fin 96) (passed : Bool) (s : State) : FrameN W.execLodeEnd s (execLodeEnd y passed s) := by
  unfold execLodeEnd
  repeat' first
    | refine done_fr ?_ ?_
    | with_reducible assumption
    | with_reducible exact Frame.refl _ _
    | (intro _ _ _)
    | (intro _ _)
    | decide +kernel
    | with_reducible apply Frame.step (lodePass_frame ..)
    | with_reducible apply Frame.ite
    | split
    | (dsimp only; split)

def W.execJobStart : Nat := W.outward ||| W.startJob

theorem execJobStart_frame (a : Fin 8) (s : State) : FrameN W.execJobStart s (execJobStart a s) := by
  unfold execJobStart
  repeat' first
    | refine done_fr ?_ ?_
    | with_reducible assumption
    | with_reducible exact Frame.refl _ _
    | (intro _ _ _)
    | (intro _ _)
    | decide +kernel
    | with_reducible apply Frame.step (startJob_frame ..)
    | with_reducible apply Frame.ite
    | split
    | (dsimp only; split)

def W.asyMiss : Nat := fm [F.ASY_SLOT_MISSES, F.ASY_SLOT_READS, F.TCK_ASY_MISS_COUNT] ||| em [E.TCK_ASY_MISS] ||| W.idleEngine
    ||| W.lodeOutcome

theorem asyMiss_frame (s : State) (y : Nat) : Frame W.asyMiss s (State.asyMiss s y) := by
  unfold State.asyMiss
  repeat' first
    | with_reducible assumption
    | with_reducible exact Frame.refl _ _
    | (intro _ _ _)
    | (intro _ _)
    | decide +kernel
    | (with_reducible apply Frame.forEach; rotate_left; intro _ _ _)
    | with_reducible apply Frame.count
    | with_reducible apply Frame.setF
    | with_reducible apply Frame.step (idleEngine_frame ..)
    | with_reducible apply Frame.step (lodeOutcome_frame ..)
    | with_reducible apply raise_fr
    | with_reducible apply Frame.ite
    | with_reducible refine Frame.ofPair (by assumption) ?_
    | split
    | (dsimp only; split)

def W.execAsyMiss : Nat := W.asyMiss ||| W.doneQ

theorem execAsyMiss_frame (y : Fin 96) (s : State) : FrameN W.execAsyMiss s (execAsyMiss y s) := by
  unfold execAsyMiss
  repeat' first
    | refine doneQ_fr ?_ ?_
    | with_reducible assumption
    | with_reducible exact Frame.refl _ _
    | (intro _ _ _)
    | (intro _ _)
    | decide +kernel
    | with_reducible apply Frame.step (asyMiss_frame ..)
    | with_reducible apply Frame.ite
    | split
    | (dsimp only; split)

def W.rungEnds : Nat := fm [F.ASY_SLOT_STATE] ||| W.lodeOutcome ||| W.putRung ||| W.setSlot

theorem rungEnds_frame (s : State) (y : Nat) (r : RungRes) (ecc : List Nat) : Frame W.rungEnds s (State.rungEnds s y r ecc) :=
    by
  unfold State.rungEnds
  repeat' first
    | with_reducible assumption
    | with_reducible exact Frame.refl _ _
    | (intro _ _ _)
    | (intro _ _)
    | decide +kernel
    | with_reducible apply Frame.setF
    | with_reducible apply Frame.step (lodeOutcome_frame ..)
    | with_reducible apply Frame.step (putRung_frame ..)
    | with_reducible apply Frame.step (setSlot_frame ..)
    | with_reducible apply Frame.ite
    | split
    | (dsimp only; split)

def W.jobLines : Nat := W.reportLines

theorem jobLines_frame (s : State) (y : Nat) : Frame W.jobLines s (State.jobLines s y) := by
  unfold State.jobLines
  repeat' first
    | with_reducible assumption
    | with_reducible exact Frame.refl _ _
    | (intro _ _ _)
    | (intro _ _)
    | decide +kernel
    | with_reducible apply Frame.step (reportLines_frame ..)
    | with_reducible apply Frame.ite
    | split
    | (dsimp only; split)

def W.jobDone : Nat := em [E.ASY_BUF_ECC] ||| W.asyMiss ||| W.badEntries ||| W.idleEngine ||| W.jobLines ||| W.rungEnds

theorem jobDone_frame (s : State) (a : Nat) (buf : List Nat) (entry : List (Nat × Nat)) (out : List Nat) : Frame W.jobDone s
    (State.jobDone s a buf entry out) := by
  unfold State.jobDone
  repeat' first
    | with_reducible assumption
    | with_reducible exact Frame.refl _ _
    | (intro _ _ _)
    | (intro _ _)
    | decide +kernel
    | (with_reducible apply Frame.onlyIf; rotate_left; intro _ _)
    | with_reducible apply Frame.step (asyMiss_frame ..)
    | with_reducible apply Frame.step (badEntries_frame ..)
    | with_reducible apply Frame.step (idleEngine_frame ..)
    | with_reducible apply Frame.step (jobLines_frame ..)
    | with_reducible apply Frame.step (rungEnds_frame ..)
    | with_reducible apply raise_fr
    | with_reducible apply Frame.ite
    | with_reducible refine Frame.ofPair (by assumption) ?_
    | split
    | (dsimp only; split)

def W.execJobDone : Nat := W.doneQ ||| W.jobDone

theorem execJobDone_frame (a : Fin 8) (buf : List Nat) (entry : List (Nat × Nat)) (out : List Nat) (s : State) : FrameN
    W.execJobDone s (execJobDone a buf entry out s) := by
  unfold execJobDone
  repeat' first
    | refine doneQ_fr ?_ ?_
    | with_reducible assumption
    | with_reducible exact Frame.refl _ _
    | (intro _ _ _)
    | (intro _ _)
    | decide +kernel
    | with_reducible apply Frame.step (jobDone_frame ..)

def W.execEntryLink : Nat := W.linkEntry ||| W.outward

theorem execEntryLink_frame (c : Fin 128) (s : State) : FrameN W.execEntryLink s (execEntryLink c s) := by
  unfold execEntryLink
  repeat' first
    | refine done_fr ?_ ?_
    | with_reducible assumption
    | with_reducible exact Frame.refl _ _
    | (intro _ _ _)
    | (intro _ _)
    | decide +kernel
    | with_reducible apply Frame.step (linkEntry_frame ..)

def W.execPrcFlush : Nat := W.doneW ||| W.flushStaging

theorem execPrcFlush_frame (heads : BitVec 32) (s : State) : FrameN W.execPrcFlush s (execPrcFlush heads s) := by
  unfold execPrcFlush
  repeat' first
    | refine doneW_fr ?_ ?_
    | with_reducible assumption
    | with_reducible exact Frame.refl _ _
    | (intro _ _ _)
    | (intro _ _)
    | decide +kernel
    | with_reducible apply Frame.step (flushStaging_frame ..)

def W.prcEnable : Nat := fm [F.ASY_SLOT_ID_RETAIN, F.PRC_CTL_EN] ||| 2 ^ 6 ||| W.marks ||| W.setSlot

theorem prcEnable_frame (s : State) (b : Bool) : Frame W.prcEnable s (State.prcEnable s b) := by
  unfold State.prcEnable
  repeat' first
    | with_reducible assumption
    | with_reducible exact Frame.refl _ _
    | (intro _ _ _)
    | (intro _ _)
    | decide +kernel
    | (with_reducible apply Frame.forEach; rotate_left; intro _ _ _)
    | with_reducible apply Frame.setB
    | with_reducible apply Frame.step (marks_frame ..)
    | with_reducible apply Frame.step (setSlot_frame ..)
    | with_reducible apply Frame.ite
    | split
    | (dsimp only; split)
    | (with_reducible refine Frame.upd ?_ rfl ?_ ?_ ?_ ?_ ?_ ?_ ?_ ?_ ?_ ?_ ?_ ?_ ?_ ?_ ?_ ?_ ?_ <;>
        first | with_reducible exact Or.inl rfl | with_reducible exact Or.inr ⟨by decide +kernel, Nat.mod_lt _ (Nat.two_pow_pos 48)⟩ |
          exact Or.inr ⟨by decide +kernel, rfl, rfl⟩ | exact Or.inr ⟨by decide +kernel, rfl⟩ |
          exact Or.inr (by decide +kernel) | skip)

def W.execPrcDisable : Nat := W.doneW ||| W.prcEnable

theorem execPrcDisable_frame (s : State) : FrameN W.execPrcDisable s (execPrcDisable s) := by
  unfold execPrcDisable
  repeat' first
    | refine doneW_fr ?_ ?_
    | with_reducible assumption
    | with_reducible exact Frame.refl _ _
    | (intro _ _ _)
    | (intro _ _)
    | decide +kernel
    | with_reducible apply Frame.step (prcEnable_frame ..)

end Sys2Proof.Laws
end

