-- ==== Sys2Proof/Laws/FrContain.lean ====
section
/-!
SUPPORT. Frames of the operations of Machine/Contain.lean: one law per operation, with the mask of what it may change.
-/
set_option Elab.async false
set_option linter.unusedTactic false
set_option linter.unreachableTactic false

namespace Sys2Proof.Laws

open Sys2Proof.Machine

def W.freezeHead : Nat := W.freezeOut ||| W.restContained

theorem freezeHead_frame (s : State) (h : Nat) : Frame W.freezeHead s (State.freezeHead s h) := by
  unfold State.freezeHead
  repeat' first
    | with_reducible assumption
    | with_reducible exact Frame.refl _ _
    | decide +kernel
    | with_reducible apply Frame.step (freezeOut_frame ..)
    | with_reducible apply Frame.step (restContained_frame ..)
    | with_reducible apply Frame.ite
    | split
    | (dsimp only; split)

def W.freezeMedia : Nat := W.flushStaging ||| W.freezeHead

theorem freezeMedia_frame (s : State) : Frame W.freezeMedia s (State.freezeMedia s) := by
  unfold State.freezeMedia
  repeat' first
    | with_reducible assumption
    | with_reducible exact Frame.refl _ _
    | (intro _ _ _)
    | (intro _ _)
    | decide +kernel
    | (with_reducible apply Frame.forEach; rotate_left; intro _ _ _)
    | with_reducible apply Frame.step (flushStaging_frame ..)
    | with_reducible apply Frame.step (freezeHead_frame ..)

def W.thawMedia : Nat := W.issueWaiting ||| W.updWrite

theorem thawMedia_frame (s : State) : Frame W.thawMedia s (State.thawMedia s) := by
  unfold State.thawMedia
  repeat' first
    | with_reducible assumption
    | with_reducible exact Frame.refl _ _
    | (intro _ _ _)
    | (intro _ _)
    | decide +kernel
    | (with_reducible apply Frame.forEach; rotate_left; intro _ _ _)
    | with_reducible apply Frame.step (issueWaiting_frame ..)
    | with_reducible apply Frame.step (updWrite_frame ..)

def W.dropStandby : Nat := fm [F.CFG_SHIFT_STATUS_STATE, F.CFG_STAGE_STATUS_STATE, F.HQI_CSTS_HELD] ||| 2 ^ 12

theorem dropStandby_frame (s : State) (new : Nat) : Frame W.dropStandby s (State.dropStandby s new) := by
  unfold State.dropStandby
  repeat' first
    | with_reducible assumption
    | with_reducible exact Frame.refl _ _
    | (intro _ _ _)
    | (intro _ _)
    | decide +kernel
    | with_reducible apply Frame.setB
    | with_reducible apply Frame.setF
    | (with_reducible refine Frame.upd ?_ rfl ?_ ?_ ?_ ?_ ?_ ?_ ?_ ?_ ?_ ?_ ?_ ?_ ?_ ?_ ?_ ?_ ?_ <;>
        first | with_reducible exact Or.inl rfl | with_reducible exact Or.inr ⟨by decide +kernel, Nat.mod_lt _ (Nat.two_pow_pos 48)⟩ |
          exact Or.inr ⟨by decide +kernel, rfl, rfl⟩ | exact Or.inr ⟨by decide +kernel, rfl⟩ |
          exact Or.inr (by decide +kernel) | skip)

def W.shiftStays : Nat := em [E.CFG_SHIFT_STAYED] ||| W.dropStandby

theorem shiftStays_frame (s : State) : Frame W.shiftStays s (State.shiftStays s) := by
  unfold State.shiftStays
  repeat' first
    | with_reducible assumption
    | with_reducible exact Frame.refl _ _
    | decide +kernel
    | with_reducible apply Frame.step (dropStandby_frame ..)
    | with_reducible apply raise_fr
    | with_reducible refine Frame.ofPair (by assumption) ?_

def W.contain : Nat := fm [F.HIF_CONTAIN_INFLIGHT, F.HIF_CONTAIN_STATE] ||| em [E.HIF_CONTAINED] ||| 2 ^ 3 ||| W.freezeMedia
    ||| W.shiftStays

theorem contain_fr {m : Nat} {r s : State} (h : Frame m r s) {f : Field} (hf : m.testBit f.id = true) (hm : subMask W.contain m = true) : Frame m r (s.contain f) := by
  have k : ∀ u, Frame W.contain u (State.shiftStays u) := fun u => (shiftStays_frame u).mono (by decide +kernel)
  have h0 := h.setB hf 0 true
  unfold State.contain
  dsimp only
  split
  · exact h0
  · refine Frame.step (w := W.contain) ?_ h0 hm
    refine Frame.onlyIf ?_ fun t ht => (k t).step ht (by decide +kernel)
    refine (freezeMedia_frame _).step ?_ (by decide +kernel)
    refine Frame.upd (raise_fr (((Frame.refl _ _).setF (by decide +kernel) ..).setF (by decide +kernel) ..) (by decide +kernel) _) rfl
      ?_ ?_ ?_ ?_ ?_ ?_ ?_ ?_ ?_ ?_ ?_ ?_ ?_ ?_ ?_ ?_ ?_ <;>
      first | with_reducible exact Or.inl rfl | exact Or.inr (by decide +kernel)

def W.reportInternal : Nat := 2 ^ 17 ||| W.aer

theorem reportInternal_frame (s : State) (fn : Nat) : Frame W.reportInternal s (State.reportInternal s fn) := by
  unfold State.reportInternal
  repeat' first
    | with_reducible assumption
    | with_reducible exact Frame.refl _ _
    | (intro _ _ _)
    | (intro _ _)
    | decide +kernel
    | (with_reducible apply Frame.onlyIf; rotate_left; intro _ _)
    | with_reducible apply Frame.emit
    | with_reducible apply Frame.step (aer_frame ..)

def W.deviceFatal : Nat := fm [F.HIF_CONTAIN_CAUSE_INTERNAL] ||| W.contain ||| W.reportInternal

theorem deviceFatal_fr {m : Nat} {r s : State} (h : Frame m r s) {e : Event} (he : evIn m e = true) (hm : subMask W.deviceFatal m = true) :
    Frame m r (s.deviceFatal e) :=
  contain_fr ((reportInternal_frame ..).step ((reportInternal_frame ..).step (raise_fr h he 0) (subMask_trans (by decide +kernel) hm))
    (subMask_trans (by decide +kernel) hm)) (subMask_testBit hm (by decide +kernel)) (subMask_trans (by decide +kernel) hm)

def W.toFrozen : Nat := fm [F.HIF_CONTAIN_STATE]

theorem toFrozen_frame (s : State) : Frame W.toFrozen s (State.toFrozen s) := by
  unfold State.toFrozen
  repeat' first
    | with_reducible assumption
    | with_reducible exact Frame.refl _ _
    | decide +kernel
    | with_reducible apply Frame.setF
    | with_reducible apply Frame.ite
    | split
    | (dsimp only; split)

def W.endContain : Nat := fm [F.HIF_CONTAIN_CAUSE_FORCED, F.HIF_CONTAIN_CAUSE_INTERNAL, F.HIF_CONTAIN_CAUSE_LINK,
    F.HIF_CONTAIN_STATE]

theorem endContain_frame (s : State) : Frame W.endContain s (State.endContain s) := by
  unfold State.endContain
  repeat' first
    | with_reducible assumption
    | with_reducible exact Frame.refl _ _
    | decide +kernel
    | with_reducible apply Frame.setB
    | with_reducible apply Frame.setF

def W.padWaiting : Nat := W.updSeam

theorem padWaiting_frame (s : State) : Frame W.padWaiting s (State.padWaiting s) := by
  unfold State.padWaiting
  repeat' first
    | with_reducible assumption
    | with_reducible exact Frame.refl _ _
    | (intro _ _ _)
    | (intro _ _)
    | decide +kernel
    | (with_reducible apply Frame.forEach; rotate_left; intro _ _ _)
    | with_reducible apply Frame.step (updSeam_frame ..)
    | with_reducible apply Frame.ite
    | split
    | (dsimp only; split)

def W.dropSteps : Nat := 2 ^ 4 ||| W.setVol

theorem dropSteps_frame (s : State) : Frame W.dropSteps s (State.dropSteps s) := by
  unfold State.dropSteps
  repeat' first
    | with_reducible assumption
    | with_reducible exact Frame.refl _ _
    | (intro _ _ _)
    | (intro _ _)
    | decide +kernel
    | (with_reducible apply Frame.forEach; rotate_left; intro _ _ _)
    | with_reducible apply Frame.step (setVol_frame ..)
    | (with_reducible refine Frame.upd ?_ rfl ?_ ?_ ?_ ?_ ?_ ?_ ?_ ?_ ?_ ?_ ?_ ?_ ?_ ?_ ?_ ?_ ?_ <;>
        first | with_reducible exact Or.inl rfl | with_reducible exact Or.inr ⟨by decide +kernel, Nat.mod_lt _ (Nat.two_pow_pos 48)⟩ |
          exact Or.inr ⟨by decide +kernel, rfl, rfl⟩ | exact Or.inr ⟨by decide +kernel, rfl⟩ |
          exact Or.inr (by decide +kernel) | skip)

def W.completeContained : Nat := W.dropSteps ||| W.padWaiting ||| W.setCmds

theorem completeContained_frame (s : State) : Frame W.completeContained s (State.completeContained s) := by
  unfold State.completeContained
  repeat' first
    | with_reducible assumption
    | with_reducible exact Frame.refl _ _
    | decide +kernel
    | with_reducible apply Frame.step (dropSteps_frame ..)
    | with_reducible apply Frame.step (padWaiting_frame ..)
    | with_reducible apply Frame.step (setCmds_frame ..)

def W.release : Nat := fm [F.HIF_CONTAIN_CAUSE_INTERNAL] ||| em [E.HIF_CFG_REJECT, E.HIF_RELEASED] ||| W.completeContained |||
    W.contain ||| W.deliverHeld ||| W.endContain ||| W.flushPba ||| W.ltrUpdate ||| W.thawMedia

theorem release_frame (s : State) : Frame W.release s (State.release s) := by
  unfold State.release
  repeat' first
    | with_reducible assumption
    | with_reducible exact Frame.refl _ _
    | (intro _ _ _)
    | (intro _ _)
    | decide +kernel
    | with_reducible apply Frame.step (completeContained_frame ..)
    | with_reducible apply Frame.step (deliverHeld_frame ..)
    | with_reducible apply Frame.step (endContain_frame ..)
    | with_reducible apply Frame.step (flushPba_frame ..)
    | with_reducible apply Frame.step (ltrUpdate_frame ..)
    | with_reducible apply Frame.step (thawMedia_frame ..)
    | with_reducible apply contain_fr
    | with_reducible apply raise_fr
    | with_reducible apply Frame.ite
    | with_reducible refine Frame.ofPair (by assumption) ?_
    | split
    | (dsimp only; split)

end Sys2Proof.Laws
end

