-- ==== Sys2Proof/Laws/FrCal.lean ====
section
/-!
SUPPORT. Frames of the operations of Machine/Cal.lean: one law per operation, with the mask of what it may change.
-/
set_option Elab.async false
set_option linter.unusedTactic false
set_option linter.unreachableTactic false

namespace Sys2Proof.Laws

open Sys2Proof.Machine

def W.setRegion : Nat := 2 ^ 14

theorem setRegion_frame (s : State) (i : Nat) (x : RegionS) : Frame W.setRegion s (State.setRegion s i x) := by
  unfold State.setRegion
  repeat' first
    | with_reducible assumption
    | with_reducible exact Frame.refl _ _
    | decide +kernel
    | (with_reducible refine Frame.upd ?_ rfl ?_ ?_ ?_ ?_ ?_ ?_ ?_ ?_ ?_ ?_ ?_ ?_ ?_ ?_ ?_ ?_ ?_ <;>
        first | with_reducible exact Or.inl rfl | with_reducible exact Or.inr ⟨by decide +kernel, Nat.mod_lt _ (Nat.two_pow_pos 48)⟩ |
          exact Or.inr ⟨by decide +kernel, rfl, rfl⟩ | exact Or.inr ⟨by decide +kernel, rfl⟩ |
          exact Or.inr (by decide +kernel) | skip)

def W.calPend : Nat := fm [F.CAL_STATUS_PEND] ||| W.setRegion

theorem calPend_frame (s : State) (i : Nat) : Frame W.calPend s (State.calPend s i) := by
  unfold State.calPend
  repeat' first
    | with_reducible assumption
    | with_reducible exact Frame.refl _ _
    | (intro _ _ _)
    | (intro _ _)
    | decide +kernel
    | with_reducible apply Frame.putF
    | with_reducible apply Frame.step (setRegion_frame ..)
    | with_reducible apply Frame.ite
    | split
    | (dsimp only; split)

def W.calPendAll : Nat := W.calPend

theorem calPendAll_frame (s : State) : Frame W.calPendAll s (State.calPendAll s) := by
  unfold State.calPendAll
  repeat' first
    | with_reducible assumption
    | with_reducible exact Frame.refl _ _
    | (intro _ _ _)
    | (intro _ _)
    | decide +kernel
    | (with_reducible apply Frame.forEach; rotate_left; intro _ _ _)
    | with_reducible apply Frame.step (calPend_frame ..)

end Sys2Proof.Laws
end

