-- ==== Sys2Proof/Laws/FrCalCmds.lean ====
section
/-!
SUPPORT. Frames of the operations of Machine/CalCmds.lean: one law per operation, with the mask of what it may change.
-/
set_option Elab.async false
set_option linter.unusedTactic false
set_option linter.unreachableTactic false

namespace Sys2Proof.Laws

open Sys2Proof.Machine

def W.execCalForce : Nat := W.calPendAll ||| W.doneW

theorem execCalForce_frame (s : State) : FrameN W.execCalForce s (execCalForce s) := by
  unfold execCalForce
  repeat' first
    | refine doneW_fr ?_ ?_
    | with_reducible assumption
    | with_reducible exact Frame.refl _ _
    | (intro _ _ _)
    | (intro _ _)
    | decide +kernel
    | with_reducible apply Frame.step (calPendAll_frame ..)

def W.execCalPeriodic : Nat := W.calPend ||| W.outward

theorem execCalPeriodic_frame (s : State) : FrameN W.execCalPeriodic s (execCalPeriodic s) := by
  unfold execCalPeriodic
  repeat' first
    | refine done_fr ?_ ?_
    | with_reducible assumption
    | with_reducible exact Frame.refl _ _
    | (intro _ _ _)
    | (intro _ _)
    | decide +kernel
    | (with_reducible apply Frame.forEach; rotate_left; intro _ _ _)
    | with_reducible apply Frame.step (calPend_frame ..)

def W.calRunDone : Nat := fm [F.CAL_RUN_LAST_TEMP, F.CAL_RUN_RUNS, F.CAL_STATUS_PEND] ||| em [E.CAL_CAL_DONE]

theorem calRunDone_frame (s : State) (i : Nat) : Frame W.calRunDone s (State.calRunDone s i) := by
  unfold State.calRunDone
  repeat' first
    | with_reducible assumption
    | with_reducible exact Frame.refl _ _
    | decide +kernel
    | with_reducible apply Frame.count
    | with_reducible apply Frame.putF
    | with_reducible apply Frame.setF
    | with_reducible apply raise_fr
    | with_reducible refine Frame.ofPair (by assumption) ?_

def W.calAccept : Nat := 2 ^ 14 ||| W.setRegion

theorem calAccept_frame (s : State) (i u : Nat) (x : CalIn) : Frame W.calAccept s (State.calAccept s i u x) := by
  unfold State.calAccept
  repeat' first
    | with_reducible assumption
    | with_reducible exact Frame.refl _ _
    | (intro _ _ _)
    | (intro _ _)
    | decide +kernel
    | with_reducible apply Frame.step (setRegion_frame ..)
    | with_reducible apply Frame.ite
    | split
    | (dsimp only; split)
    | (with_reducible refine Frame.upd ?_ rfl ?_ ?_ ?_ ?_ ?_ ?_ ?_ ?_ ?_ ?_ ?_ ?_ ?_ ?_ ?_ ?_ ?_ <;>
        first | with_reducible exact Or.inl rfl | with_reducible exact Or.inr ⟨by decide +kernel, Nat.mod_lt _ (Nat.two_pow_pos 48)⟩ |
          exact Or.inr ⟨by decide +kernel, rfl, rfl⟩ | exact Or.inr ⟨by decide +kernel, rfl⟩ |
          exact Or.inr (by decide +kernel) | skip)

def W.calRejected : Nat := fm [F.CAL_RUN_REJECTS] ||| em [E.CAL_CAL_REJECT] ||| W.setRegion

theorem calRejected_frame (s : State) (i u n : Nat) : Frame W.calRejected s (State.calRejected s i u n) := by
  unfold State.calRejected
  repeat' first
    | with_reducible assumption
    | with_reducible exact Frame.refl _ _
    | (intro _ _ _)
    | (intro _ _)
    | decide +kernel
    | with_reducible apply Frame.count
    | with_reducible apply Frame.step (setRegion_frame ..)
    | with_reducible apply raise_fr
    | with_reducible apply Frame.ite
    | with_reducible refine Frame.ofPair (by assumption) ?_
    | split
    | (dsimp only; split)

def W.calUnit : Nat := 2 ^ 10 ||| W.calAccept ||| W.calRejected ||| W.calRunDone

theorem calUnit_frame (s : State) (i u : Nat) (x : CalIn) : Frame W.calUnit s (State.calUnit s i u x) := by
  unfold State.calUnit
  repeat' first
    | with_reducible assumption
    | with_reducible exact Frame.refl _ _
    | (intro _ _ _)
    | (intro _ _)
    | decide +kernel
    | with_reducible apply Frame.step (calAccept_frame ..)
    | with_reducible apply Frame.step (calRejected_frame ..)
    | with_reducible apply Frame.step (calRunDone_frame ..)
    | with_reducible apply Frame.ite
    | split
    | (dsimp only; split)
    | (with_reducible refine Frame.upd ?_ rfl ?_ ?_ ?_ ?_ ?_ ?_ ?_ ?_ ?_ ?_ ?_ ?_ ?_ ?_ ?_ ?_ ?_ <;>
        first | with_reducible exact Or.inl rfl | with_reducible exact Or.inr ⟨by decide +kernel, Nat.mod_lt _ (Nat.two_pow_pos 48)⟩ |
          exact Or.inr ⟨by decide +kernel, rfl, rfl⟩ | exact Or.inr ⟨by decide +kernel, rfl⟩ |
          exact Or.inr (by decide +kernel) | skip)

def W.execCalUnit : Nat := W.calUnit ||| W.outward

theorem execCalUnit_frame (i : Fin 16) (u : Fin 41) (x : CalIn) (s : State) : FrameN W.execCalUnit s (execCalUnit i u x s) :=
    by
  unfold execCalUnit
  repeat' first
    | refine done_fr ?_ ?_
    | with_reducible assumption
    | with_reducible exact Frame.refl _ _
    | (intro _ _ _)
    | (intro _ _)
    | decide +kernel
    | with_reducible apply Frame.step (calUnit_frame ..)

end Sys2Proof.Laws
end

