-- ==== Sys2Proof/Laws/FrHqiCmds.lean ====
section
/-!
SUPPORT. Frames of the operations of Machine/HqiCmds.lean: one law per operation, with the mask of what it may change.
-/
set_option Elab.async false
set_option linter.unusedTactic false
set_option linter.unreachableTactic false

namespace Sys2Proof.Laws

open Sys2Proof.Machine

def W.rejectHqi : Nat := em [E.HQI_CFG_REJECT]

theorem rejectHqi_frame (s : State) : Frame W.rejectHqi s (State.rejectHqi s) := by
  unfold State.rejectHqi
  repeat' first
    | with_reducible assumption
    | with_reducible exact Frame.refl _ _
    | decide +kernel
    | with_reducible apply raise_fr
    | with_reducible refine Frame.ofPair (by assumption) ?_

def W.freshPair : Nat := fm [F.HQI_CQ_HEAD_HEAD, F.HQI_QP_STATUS_CAUSE, F.HQI_QP_STATUS_CQ_TAIL, F.HQI_QP_STATUS_ENABLED,
    F.HQI_QP_STATUS_ERR, F.HQI_QP_STATUS_SQ_HEAD, F.HQI_SQ_TAIL_TAIL] ||| W.setPair

theorem freshPair_frame (s : State) (q : Nat) : Frame W.freshPair s (State.freshPair s q) := by
  unfold State.freshPair
  repeat' first
    | with_reducible assumption
    | with_reducible exact Frame.refl _ _
    | (intro _ _ _)
    | (intro _ _)
    | decide +kernel
    | with_reducible apply Frame.setB
    | with_reducible apply Frame.setF
    | with_reducible apply Frame.step (setPair_frame ..)

def W.controllerReady : Nat := fm [F.HQI_CSTS_RDY] ||| W.freshPair

theorem controllerReady_frame (s : State) : Frame W.controllerReady s (State.controllerReady s) := by
  unfold State.controllerReady
  repeat' first
    | with_reducible assumption
    | with_reducible exact Frame.refl _ _
    | (intro _ _ _)
    | (intro _ _)
    | decide +kernel
    | (with_reducible apply Frame.forEach; rotate_left; intro _ _ _)
    | with_reducible apply Frame.setB
    | with_reducible apply Frame.step (freshPair_frame ..)
    | with_reducible apply Frame.ite
    | split
    | (dsimp only; split)

def W.enableController : Nat := fm [F.HQI_CC_EN] ||| W.controllerReady

theorem enableController_frame (s : State) : Frame W.enableController s (State.enableController s) := by
  unfold State.enableController
  repeat' first
    | with_reducible assumption
    | with_reducible exact Frame.refl _ _
    | decide +kernel
    | with_reducible apply Frame.setB
    | with_reducible apply Frame.step (controllerReady_frame ..)

def W.execControllerEnable : Nat := W.enableController ||| W.outward

theorem execControllerEnable_frame (s : State) : FrameN W.execControllerEnable s (execControllerEnable s) := by
  unfold execControllerEnable
  repeat' first
    | refine done_fr ?_ ?_
    | with_reducible assumption
    | with_reducible exact Frame.refl _ _
    | (intro _ _ _)
    | (intro _ _)
    | decide +kernel
    | with_reducible apply Frame.step (enableController_frame ..)
    | with_reducible apply Frame.ite
    | split
    | (dsimp only; split)

def W.postAll : Nat := W.postEntry

theorem postAll_frame (s : State) : Frame W.postAll s (State.postAll s) := by
  unfold State.postAll
  repeat' first
    | with_reducible assumption
    | with_reducible exact Frame.refl _ _
    | (intro _ _ _)
    | (intro _ _)
    | decide +kernel
    | (with_reducible apply Frame.forEach; rotate_left; intro _ _ _)
    | with_reducible apply Frame.step (postEntry_frame ..)
    | with_reducible apply Frame.ite
    | split
    | (dsimp only; split)

def W.resetController : Nat := fm [F.HQI_CC_EN, F.HQI_CSTS_RDY, F.HQI_QP_CTL_EN, F.HQI_QP_STATUS_CAUSE,
    F.HQI_QP_STATUS_ENABLED, F.HQI_QP_STATUS_ERR] ||| W.finishAll ||| W.postAll ||| W.resetAbort ||| W.setCmds ||| W.setPair

theorem resetController_frame (s : State) : Frame W.resetController s (State.resetController s) := by
  unfold State.resetController
  repeat' first
    | with_reducible assumption
    | with_reducible exact Frame.refl _ _
    | (intro _ _ _)
    | (intro _ _)
    | decide +kernel
    | (with_reducible apply Frame.forEach; rotate_left; intro _ _ _)
    | with_reducible apply Frame.setB
    | with_reducible apply Frame.setF
    | with_reducible apply Frame.step (finishAll_frame ..)
    | with_reducible apply Frame.step (postAll_frame ..)
    | with_reducible apply Frame.step (resetAbort_frame ..)
    | with_reducible apply Frame.step (setCmds_frame ..)
    | with_reducible apply Frame.step (setPair_frame ..)
    | with_reducible apply Frame.ite
    | split
    | (dsimp only; split)

def W.execControllerReset : Nat := W.doneQ ||| W.resetController

theorem execControllerReset_frame (s : State) : FrameN W.execControllerReset s (execControllerReset s) := by
  unfold execControllerReset
  repeat' first
    | refine doneQ_fr ?_ ?_
    | with_reducible assumption
    | with_reducible exact Frame.refl _ _
    | (intro _ _ _)
    | (intro _ _)
    | decide +kernel
    | with_reducible apply Frame.step (resetController_frame ..)
    | with_reducible apply Frame.ite
    | split
    | (dsimp only; split)

def W.enablePair : Nat := fm [F.HQI_QP_CTL_EN] ||| W.freshPair ||| W.rejectHqi

theorem enablePair_frame (s : State) (q : Nat) : Frame W.enablePair s (State.enablePair s q) := by
  unfold State.enablePair
  repeat' first
    | with_reducible assumption
    | with_reducible exact Frame.refl _ _
    | (intro _ _ _)
    | (intro _ _)
    | decide +kernel
    | with_reducible apply Frame.setB
    | with_reducible apply Frame.step (freshPair_frame ..)
    | with_reducible apply Frame.step (rejectHqi_frame ..)
    | with_reducible apply Frame.ite
    | split
    | (dsimp only; split)

def W.disablePair : Nat := fm [F.HQI_QP_CTL_EN] ||| W.pairQuiesce

theorem disablePair_frame (s : State) (q : Nat) : Frame W.disablePair s (State.disablePair s q) := by
  unfold State.disablePair
  repeat' first
    | with_reducible assumption
    | with_reducible exact Frame.refl _ _
    | decide +kernel
    | with_reducible apply Frame.setB
    | with_reducible apply Frame.step (pairQuiesce_frame ..)

def W.execQueuePairEnable : Nat := W.enablePair ||| W.outward

theorem execQueuePairEnable_frame (q : Fin 65) (s : State) : FrameN W.execQueuePairEnable s (execQueuePairEnable q s) := by
  unfold execQueuePairEnable
  repeat' first
    | refine done_fr ?_ ?_
    | with_reducible assumption
    | with_reducible exact Frame.refl _ _
    | (intro _ _ _)
    | (intro _ _)
    | decide +kernel
    | with_reducible apply Frame.step (enablePair_frame ..)
    | with_reducible apply Frame.ite
    | split
    | (dsimp only; split)

def W.execQueuePairDisable : Nat := W.disablePair ||| W.outward

theorem execQueuePairDisable_frame (q : Fin 65) (s : State) : FrameN W.execQueuePairDisable s (execQueuePairDisable q s) := by
  unfold execQueuePairDisable
  repeat' first
    | refine done_fr ?_ ?_
    | with_reducible assumption
    | with_reducible exact Frame.refl _ _
    | (intro _ _ _)
    | (intro _ _)
    | decide +kernel
    | with_reducible apply Frame.step (disablePair_frame ..)
    | with_reducible apply Frame.ite
    | split
    | (dsimp only; split)

def W.sqDoorbell : Nat := fm [F.HQI_SQ_TAIL_TAIL] ||| W.queueErr

theorem sqDoorbell_frame (s : State) (q v : Nat) : Frame W.sqDoorbell s (State.sqDoorbell s q v) := by
  unfold State.sqDoorbell
  repeat' first
    | with_reducible assumption
    | with_reducible exact Frame.refl _ _
    | decide +kernel
    | with_reducible apply Frame.setF
    | with_reducible apply Frame.step (queueErr_frame ..)
    | with_reducible apply Frame.ite
    | split
    | (dsimp only; split)

def W.execSqTailDoorbell : Nat := W.outward ||| W.sqDoorbell

theorem execSqTailDoorbell_frame (q : Fin 65) (w : BitVec 32) (s : State) : FrameN W.execSqTailDoorbell s (execSqTailDoorbell
    q w s) := by
  unfold execSqTailDoorbell
  repeat' first
    | refine done_fr ?_ ?_
    | with_reducible assumption
    | with_reducible exact Frame.refl _ _
    | (intro _ _ _)
    | (intro _ _)
    | decide +kernel
    | with_reducible apply Frame.step (sqDoorbell_frame ..)
    | with_reducible apply Frame.ite
    | split
    | (dsimp only; split)

def W.cqDoorbell : Nat := fm [F.HQI_CQ_HEAD_HEAD] ||| W.queueErr ||| W.setPair

theorem cqDoorbell_frame (s : State) (q v : Nat) : Frame W.cqDoorbell s (State.cqDoorbell s q v) := by
  unfold State.cqDoorbell
  repeat' first
    | with_reducible assumption
    | with_reducible exact Frame.refl _ _
    | (intro _ _ _)
    | (intro _ _)
    | decide +kernel
    | with_reducible apply Frame.setF
    | with_reducible apply Frame.step (queueErr_frame ..)
    | with_reducible apply Frame.step (setPair_frame ..)
    | with_reducible apply Frame.ite
    | split
    | (dsimp only; split)

def W.execCqHeadDoorbell : Nat := W.cqDoorbell ||| W.outward

theorem execCqHeadDoorbell_frame (q : Fin 65) (w : BitVec 32) (s : State) : FrameN W.execCqHeadDoorbell s (execCqHeadDoorbell
    q w s) := by
  unfold execCqHeadDoorbell
  repeat' first
    | refine done_fr ?_ ?_
    | with_reducible assumption
    | with_reducible exact Frame.refl _ _
    | (intro _ _ _)
    | (intro _ _)
    | decide +kernel
    | with_reducible apply Frame.step (cqDoorbell_frame ..)
    | with_reducible apply Frame.ite
    | split
    | (dsimp only; split)

def W.execArbitration : Nat := W.arbitrate ||| W.outward

theorem execArbitration_frame (s : State) : FrameN W.execArbitration s (execArbitration s) := by
  unfold execArbitration
  repeat' first
    | refine done_fr ?_ ?_
    | with_reducible assumption
    | with_reducible exact Frame.refl _ _
    | (intro _ _ _)
    | (intro _ _)
    | decide +kernel
    | with_reducible apply Frame.step (arbitrate_frame ..)
    | with_reducible refine Frame.ofPair (by assumption) ?_

def W.execCompletionPost : Nat := W.outward ||| W.postEntry

theorem execCompletionPost_frame (q : Fin 65) (s : State) : FrameN W.execCompletionPost s (execCompletionPost q s) := by
  unfold execCompletionPost
  repeat' first
    | refine done_fr ?_ ?_
    | with_reducible assumption
    | with_reducible exact Frame.refl _ _
    | (intro _ _ _)
    | (intro _ _)
    | decide +kernel
    | with_reducible apply Frame.step (postEntry_frame ..)
    | with_reducible apply Frame.ite
    | split
    | (dsimp only; split)

def W.execCoalTimeExpiry : Nat := W.outward ||| W.signalPair

theorem execCoalTimeExpiry_frame (q : Fin 65) (s : State) : FrameN W.execCoalTimeExpiry s (execCoalTimeExpiry q s) := by
  unfold execCoalTimeExpiry
  repeat' first
    | refine done_fr ?_ ?_
    | with_reducible assumption
    | with_reducible exact Frame.refl _ _
    | (intro _ _ _)
    | (intro _ _)
    | decide +kernel
    | with_reducible apply Frame.step (signalPair_frame ..)
    | with_reducible apply Frame.ite
    | split
    | (dsimp only; split)

def W.begin : Nat := W.updCmd

theorem begin_fr {m : Nat} {r s : State} (h : Frame m r s) (hm : m.testBit 4 = true) {opc : Nat} {ok : Cmd → Bool} {f : State → Cmd → State}
    (hf : ∀ t c, Frame m r t → Frame m r (f t c)) : Frame m r (s.begin opc ok f) := by
  unfold State.begin
  split
  · exact h
  · split
    · exact hf _ _ ((updCmd_frame ..).step h (subMask_trans (b := 2 ^ 4) (by decide +kernel) (pow_sub hm)))
    · exact h

def W.seamCmd : Nat := W.beginPages ||| W.finish ||| W.updCmd

theorem seamCmd_frame (s : State) (c : Cmd) (lbaOk : Bool) : Frame W.seamCmd s (State.seamCmd s c lbaOk) := by
  unfold State.seamCmd
  repeat' first
    | with_reducible assumption
    | with_reducible exact Frame.refl _ _
    | (intro _ _ _)
    | (intro _ _)
    | decide +kernel
    | with_reducible apply Frame.step (beginPages_frame ..)
    | with_reducible apply Frame.step (finish_frame ..)
    | with_reducible apply Frame.step (updCmd_frame ..)
    | with_reducible apply Frame.ite
    | split
    | (dsimp only; split)

def W.execRead : Nat := 2 ^ 4 ||| W.doneQ ||| W.seamCmd

theorem execRead_frame (s : State) : FrameN W.execRead s (execRead s) := by
  unfold execRead
  repeat' first
    | refine doneQ_fr ?_ ?_
    | with_reducible assumption
    | with_reducible exact Frame.refl _ _
    | (intro _ _ _)
    | (intro _ _)
    | decide +kernel
    | with_reducible apply Frame.step (seamCmd_frame ..)
    | with_reducible apply begin_fr

def W.execAppend : Nat := 2 ^ 4 ||| W.doneQ ||| W.seamCmd

theorem execAppend_frame (s : State) : FrameN W.execAppend s (execAppend s) := by
  unfold execAppend
  repeat' first
    | refine doneQ_fr ?_ ?_
    | with_reducible assumption
    | with_reducible exact Frame.refl _ _
    | (intro _ _ _)
    | (intro _ _)
    | decide +kernel
    | with_reducible apply Frame.step (seamCmd_frame ..)
    | with_reducible apply begin_fr

def W.execWriteAt : Nat := 2 ^ 4 ||| W.doneQ ||| W.seamCmd

theorem execWriteAt_frame (s : State) : FrameN W.execWriteAt s (execWriteAt s) := by
  unfold execWriteAt
  repeat' first
    | refine doneQ_fr ?_ ?_
    | with_reducible assumption
    | with_reducible exact Frame.refl _ _
    | (intro _ _ _)
    | (intro _ _)
    | decide +kernel
    | with_reducible apply Frame.step (seamCmd_frame ..)
    | with_reducible apply begin_fr

def W.execFlush : Nat := 2 ^ 4 ||| W.doneQ ||| W.sealLode

theorem execFlush_frame (s : State) : FrameN W.execFlush s (execFlush s) := by
  unfold execFlush
  repeat' first
    | refine doneQ_fr ?_ ?_
    | with_reducible assumption
    | with_reducible exact Frame.refl _ _
    | (intro _ _ _)
    | (intro _ _)
    | decide +kernel
    | (with_reducible apply Frame.forEach; rotate_left; intro _ _ _)
    | with_reducible apply Frame.step (sealLode_frame ..)
    | with_reducible apply begin_fr

def W.execSealSeam : Nat := 2 ^ 4 ||| W.doneQ ||| W.finish ||| W.updCmd ||| W.updSeam

theorem execSealSeam_frame (s : State) : FrameN W.execSealSeam s (execSealSeam s) := by
  unfold execSealSeam
  repeat' first
    | refine doneQ_fr ?_ ?_
    | with_reducible assumption
    | with_reducible exact Frame.refl _ _
    | (intro _ _ _)
    | (intro _ _)
    | decide +kernel
    | with_reducible apply Frame.step (finish_frame ..)
    | with_reducible apply Frame.step (updCmd_frame ..)
    | with_reducible apply Frame.step (updSeam_frame ..)
    | with_reducible apply begin_fr
    | with_reducible apply Frame.ite
    | split
    | (dsimp only; split)

def W.execIdentify : Nat := 2 ^ 17 ||| 2 ^ 4 ||| W.finish ||| W.outward

theorem execIdentify_frame (s : State) : FrameN W.execIdentify s (execIdentify s) := by
  unfold execIdentify
  repeat' first
    | refine done_fr ?_ ?_
    | with_reducible assumption
    | with_reducible exact Frame.refl _ _
    | (intro _ _ _)
    | (intro _ _)
    | decide +kernel
    | with_reducible apply Frame.emit
    | with_reducible apply Frame.step (finish_frame ..)
    | with_reducible apply begin_fr
    | with_reducible apply Frame.ite
    | split
    | (dsimp only; split)

def W.sendPages : Nat := 2 ^ 17

theorem sendPages_frame (s : State) (c : Cmd) (bs : List Nat) (first : Nat) : Frame W.sendPages s (State.sendPages s c bs
    first) := by
  unfold State.sendPages
  repeat' first
    | with_reducible assumption
    | with_reducible exact Frame.refl _ _
    | (intro _ _ _)
    | (intro _ _)
    | decide +kernel
    | (with_reducible apply Frame.forEach; rotate_left; intro _ _ _)
    | with_reducible apply Frame.emit

def W.sendLog : Nat := W.finish ||| W.sendPages

theorem sendLog_frame (s : State) (c : Cmd) : Frame W.sendLog s (State.sendLog s c) := by
  unfold State.sendLog
  repeat' first
    | with_reducible assumption
    | with_reducible exact Frame.refl _ _
    | (intro _ _ _)
    | (intro _ _)
    | decide +kernel
    | with_reducible apply Frame.step (finish_frame ..)
    | with_reducible apply Frame.step (sendPages_frame ..)

def W.execGetLog : Nat := 2 ^ 4 ||| W.beginPages ||| W.outward ||| W.sendLog

theorem execGetLog_frame (s : State) : FrameN W.execGetLog s (execGetLog s) := by
  unfold execGetLog
  repeat' first
    | refine done_fr ?_ ?_
    | with_reducible assumption
    | with_reducible exact Frame.refl _ _
    | (intro _ _ _)
    | (intro _ _)
    | decide +kernel
    | with_reducible apply Frame.step (beginPages_frame ..)
    | with_reducible apply Frame.step (sendLog_frame ..)
    | with_reducible apply begin_fr
    | with_reducible apply Frame.ite
    | split
    | (dsimp only; split)

def W.putFeature : Nat := fm [F.HQI_ARB_BURST, F.HQI_ARB_W_HIGH, F.HQI_ARB_W_LOW, F.HQI_ARB_W_MED, F.WND_SPEED_SET_TARGET,
    F.WRP_LINGER_MS]

theorem putFeature_frame (s : State) (fid v val : Nat) : Frame W.putFeature s (State.putFeature s fid v val) := by
  unfold State.putFeature
  repeat' first
    | with_reducible assumption
    | with_reducible exact Frame.refl _ _
    | decide +kernel
    | with_reducible apply Frame.setF
    | split
    | (dsimp only; split)

def W.execSetFeature : Nat := 2 ^ 4 ||| W.finish ||| W.outward ||| W.putFeature

theorem execSetFeature_frame (s : State) : FrameN W.execSetFeature s (execSetFeature s) := by
  unfold execSetFeature
  repeat' first
    | refine done_fr ?_ ?_
    | with_reducible assumption
    | with_reducible exact Frame.refl _ _
    | (intro _ _ _)
    | (intro _ _)
    | decide +kernel
    | with_reducible apply Frame.step (finish_frame ..)
    | with_reducible apply Frame.step (putFeature_frame ..)
    | with_reducible apply begin_fr
    | with_reducible apply Frame.ite
    | split
    | (dsimp only; split)

def W.execGetFeature : Nat := 2 ^ 4 ||| W.finish ||| W.outward

theorem execGetFeature_frame (s : State) : FrameN W.execGetFeature s (execGetFeature s) := by
  unfold execGetFeature
  repeat' first
    | refine done_fr ?_ ?_
    | with_reducible assumption
    | with_reducible exact Frame.refl _ _
    | (intro _ _ _)
    | (intro _ _)
    | decide +kernel
    | with_reducible apply Frame.step (finish_frame ..)
    | with_reducible apply begin_fr

def W.abortReads : Nat := W.abortLode

theorem abortReads_frame (s : State) (c : Cmd) : Frame W.abortReads s (State.abortReads s c) := by
  unfold State.abortReads
  repeat' first
    | with_reducible assumption
    | with_reducible exact Frame.refl _ _
    | (intro _ _ _)
    | (intro _ _)
    | decide +kernel
    | (with_reducible apply Frame.forEach; rotate_left; intro _ _ _)
    | with_reducible apply Frame.step (abortLode_frame ..)
    | with_reducible apply Frame.ite
    | split
    | (dsimp only; split)

def W.abortCmd : Nat := W.abortReads ||| W.finish ||| W.setTest

theorem abortCmd_frame (s : State) (c : Cmd) : Frame W.abortCmd s (State.abortCmd s c).1 := by
  unfold State.abortCmd
  repeat' first
    | with_reducible assumption
    | with_reducible exact Frame.refl _ _
    | decide +kernel
    | with_reducible apply Frame.step (abortReads_frame ..)
    | with_reducible apply Frame.step (finish_frame ..)
    | with_reducible apply Frame.step (setTest_frame ..)
    | with_reducible apply Frame.ite
    | split
    | (dsimp only; split)

def W.execAbort : Nat := 2 ^ 4 ||| W.abortCmd ||| W.doneQ ||| W.finish

theorem execAbort_frame (s : State) : FrameN W.execAbort s (execAbort s) := by
  unfold execAbort
  repeat' first
    | refine doneQ_fr ?_ ?_
    | with_reducible assumption
    | with_reducible exact Frame.refl _ _
    | (intro _ _ _)
    | (intro _ _)
    | decide +kernel
    | with_reducible apply Frame.step (abortCmd_frame ..)
    | with_reducible apply Frame.step (finish_frame ..)
    | with_reducible apply begin_fr
    | with_reducible refine Frame.ofPair (by assumption) ?_
    | split
    | (dsimp only; split)

def W.startTest : Nat := W.finish ||| W.setTest

theorem startTest_frame (s : State) (c : Cmd) (steps : List TestStep) : Frame W.startTest s (State.startTest s c steps) := by
  unfold State.startTest
  repeat' first
    | with_reducible assumption
    | with_reducible exact Frame.refl _ _
    | decide +kernel
    | with_reducible apply Frame.step (finish_frame ..)
    | with_reducible apply Frame.step (setTest_frame ..)
    | with_reducible apply Frame.ite
    | split
    | (dsimp only; split)

def W.execSelfTestShort : Nat := 2 ^ 4 ||| W.doneQ ||| W.startTest

theorem execSelfTestShort_frame (s : State) : FrameN W.execSelfTestShort s (execSelfTestShort s) := by
  unfold execSelfTestShort
  repeat' first
    | refine doneQ_fr ?_ ?_
    | with_reducible assumption
    | with_reducible exact Frame.refl _ _
    | (intro _ _ _)
    | (intro _ _)
    | decide +kernel
    | with_reducible apply Frame.step (startTest_frame ..)
    | with_reducible apply begin_fr

def W.execSelfTestExtended : Nat := 2 ^ 4 ||| W.doneQ ||| W.startTest

theorem execSelfTestExtended_frame (s : State) : FrameN W.execSelfTestExtended s (execSelfTestExtended s) := by
  unfold execSelfTestExtended
  repeat' first
    | refine doneQ_fr ?_ ?_
    | with_reducible assumption
    | with_reducible exact Frame.refl _ _
    | (intro _ _ _)
    | (intro _ _)
    | decide +kernel
    | with_reducible apply Frame.step (startTest_frame ..)
    | with_reducible apply begin_fr

def W.execSelfTestStop : Nat := 2 ^ 4 ||| W.doneQ ||| W.finish ||| W.setTest

theorem execSelfTestStop_frame (s : State) : FrameN W.execSelfTestStop s (execSelfTestStop s) := by
  unfold execSelfTestStop
  repeat' first
    | refine doneQ_fr ?_ ?_
    | with_reducible assumption
    | with_reducible exact Frame.refl _ _
    | (intro _ _ _)
    | (intro _ _)
    | decide +kernel
    | with_reducible apply Frame.step (finish_frame ..)
    | with_reducible apply Frame.step (setTest_frame ..)
    | with_reducible apply begin_fr
    | with_reducible apply Frame.ite
    | split
    | (dsimp only; split)

def W.execSelfTestDone : Nat := W.finish ||| W.outward ||| W.setTest ||| em [E.HQI_SELF_TEST_DONE]

theorem execSelfTestDone_frame (v : Fin 8) (s : State) : FrameN W.execSelfTestDone s (execSelfTestDone v s) := by
  unfold execSelfTestDone
  repeat' first
    | refine done_fr ?_ ?_
    | with_reducible assumption
    | with_reducible exact Frame.refl _ _
    | (intro _ _ _)
    | (intro _ _)
    | decide +kernel
    | with_reducible apply Frame.step (finish_frame ..)
    | with_reducible apply Frame.step (setTest_frame ..)
    | with_reducible apply raise_fr
    | with_reducible apply Frame.ite
    | with_reducible refine Frame.ofPair (by assumption) ?_
    | split
    | (dsimp only; split)

def W.mountStep : Nat := em [E.WND_CFG_REJECT] ||| W.mountFails ||| W.probeAt ||| W.setVol ||| W.startDeck

theorem mountStep_frame (s : State) (v : Nat) (m : MountS) : Frame W.mountStep s (State.mountStep s v m) := by
  unfold State.mountStep
  repeat' first
    | with_reducible assumption
    | with_reducible exact Frame.refl _ _
    | (intro _ _ _)
    | (intro _ _)
    | decide +kernel
    | with_reducible apply Frame.step (mountFails_frame ..)
    | with_reducible apply Frame.step (probeAt_frame ..)
    | with_reducible apply Frame.step (setVol_frame ..)
    | with_reducible apply Frame.step (startDeck_frame ..)
    | with_reducible apply raise_fr
    | with_reducible apply Frame.ite
    | with_reducible refine Frame.ofPair (by assumption) ?_
    | split
    | (dsimp only; split)

def W.execVolumeMount : Nat := 2 ^ 4 ||| W.doneQ ||| W.finish ||| W.mountStep ||| W.setVol

theorem execVolumeMount_frame (s : State) : FrameN W.execVolumeMount s (execVolumeMount s) := by
  unfold execVolumeMount
  repeat' first
    | refine doneQ_fr ?_ ?_
    | with_reducible assumption
    | with_reducible exact Frame.refl _ _
    | (intro _ _ _)
    | (intro _ _)
    | decide +kernel
    | with_reducible apply Frame.step (finish_frame ..)
    | with_reducible apply Frame.step (mountStep_frame ..)
    | with_reducible apply Frame.step (setVol_frame ..)
    | with_reducible apply begin_fr
    | with_reducible apply Frame.ite
    | split
    | (dsimp only; split)

def W.execVolumeMountProceed : Nat := W.doneQ ||| W.mountStep

theorem execVolumeMountProceed_frame (v : Fin 8) (s : State) : FrameN W.execVolumeMountProceed s (execVolumeMountProceed v s)
    := by
  unfold execVolumeMountProceed
  repeat' first
    | refine doneQ_fr ?_ ?_
    | with_reducible assumption
    | with_reducible exact Frame.refl _ _
    | (intro _ _ _)
    | (intro _ _)
    | decide +kernel
    | with_reducible apply Frame.step (mountStep_frame ..)
    | with_reducible apply Frame.ite
    | split
    | (dsimp only; split)

def W.execVolumeRelease : Nat := 2 ^ 4 ||| W.doneQ ||| W.finish ||| W.sealLode ||| W.setVol

theorem execVolumeRelease_frame (s : State) : FrameN W.execVolumeRelease s (execVolumeRelease s) := by
  unfold execVolumeRelease
  repeat' first
    | refine doneQ_fr ?_ ?_
    | with_reducible assumption
    | with_reducible exact Frame.refl _ _
    | (intro _ _ _)
    | (intro _ _)
    | decide +kernel
    | (with_reducible apply Frame.forEach; rotate_left; intro _ _ _)
    | with_reducible apply Frame.step (finish_frame ..)
    | with_reducible apply Frame.step (sealLode_frame ..)
    | with_reducible apply Frame.step (setVol_frame ..)
    | with_reducible apply begin_fr
    | with_reducible apply Frame.ite
    | split
    | (dsimp only; split)

end Sys2Proof.Laws
end

