-- ==== Sys2Proof/Laws/FrRegRules.lean ====
section
/-!
SUPPORT. Frames of the operations of Machine/RegRules.lean: one law per operation, with the mask of what it may change.
-/
set_option Elab.async false
set_option linter.unusedTactic false
set_option linter.unreachableTactic false

namespace Sys2Proof.Laws

open Sys2Proof.Machine

def W.regReject : Nat := em [E.ASY_CFG_REJECT, E.CAL_CFG_REJECT, E.CFG_CFG_REJECT, E.CHN_CFG_REJECT, E.CLR_CFG_REJECT,
    E.HIF_CFG_REJECT, E.HQI_CFG_REJECT, E.LCA_CFG_REJECT, E.LNK_CFG_REJECT, E.LRN_CFG_REJECT, E.MEM_CFG_REJECT,
    E.PRC_CFG_REJECT, E.SLD_CFG_REJECT, E.TCK_CFG_REJECT, E.TRL_CFG_REJECT, E.WND_CFG_REJECT, E.WRP_CFG_REJECT] ||| fm
    [F.CHN_EVT_CHANS_CHAN] ||| fm [F.LNK_EVT_HEADS_HEAD] ||| fm [F.SLD_EVT_AXES_AXIS]

theorem regReject_frame (s : State) (r : RegDef) (i : Nat) : Frame W.regReject s (State.regReject s r i) := by
  unfold State.regReject
  repeat' first
    | with_reducible assumption
    | with_reducible exact Frame.refl _ _
    | (intro _ _ _)
    | (intro _ _)
    | decide +kernel
    | with_reducible apply raiseChn_fr
    | with_reducible apply raiseLnk_fr
    | with_reducible apply raiseSld_fr
    | with_reducible apply raise_fr
    | with_reducible apply Frame.ite
    | with_reducible refine Frame.ofPair (by assumption) ?_
    | split
    | (dsimp only; split)

def W.clear1c : Nat := 0

theorem clear1c_fr {m : Nat} {r s : State} (h : Frame m r s) {d : RegDef} (hd : regIn m d = true) (i w : Nat) : Frame m r (s.clear1c d i w) := by
  unfold State.clear1c
  have hl : ∀ x ∈ d.fields, m.testBit x.fld.id = true := fun x hx => (List.all_eq_true.1 hd) x hx
  refine Frame.forEachMem (l := d.fields) h ?_
  intro t x hx ht
  split
  · exact ht.setF (hl x hx) ..
  · exact ht

def W.storeReg : Nat := 0

theorem storeReg_fr {m : Nat} {r s : State} (h : Frame m r s) {d : RegDef} (hd : regIn m d = true) (i w : Nat) : Frame m r (s.storeReg d i w) :=
  clear1c_fr (storeBits_fr h hd ..) hd ..

def W.plainWrite : Nat := W.regReject

theorem plainWrite_fr {m : Nat} {z s : State} (h : Frame m z s) {r : RegDef} (hd : regIn m r = true) (hm : subMask
    W.plainWrite m = true) (i : Nat) (w : Nat) : Frame m z (State.plainWrite s r i w) := by
  unfold State.plainWrite
  repeat' first
    | with_reducible assumption
    | exact subMask_trans (by decide +kernel) hm
    | exact subMask_testBit hm (by decide +kernel)
    | exact evIn_sub hm (by decide +kernel)
    | exact regIn_sub hm (by decide +kernel)
    | with_reducible apply Frame.step (regReject_frame ..)
    | with_reducible apply storeReg_fr
    | with_reducible apply Frame.ite
    | split
    | (dsimp only; split)

end Sys2Proof.Laws
end

