-- ==== Sys2Proof/Laws/FrImage.lean ====
section
/-!
SUPPORT. Frames of the operations of Machine/Image.lean: one law per operation, with the mask of what it may change.
-/
set_option Elab.async false
set_option linter.unusedTactic false
set_option linter.unreachableTactic false

namespace Sys2Proof.Laws

open Sys2Proof.Machine

def W.repairRow : Nat := em [E.MEM_REPAIR_OVERFLOW] ||| 2 ^ 11

theorem repairRow_frame (s : State) (m r : Nat) : Frame W.repairRow s (State.repairRow s m r).1 := by
  unfold State.repairRow
  repeat' first
    | with_reducible assumption
    | with_reducible exact Frame.refl _ _
    | (intro _ _ _)
    | (intro _ _)
    | decide +kernel
    | with_reducible apply raise_fr
    | with_reducible apply Frame.ite
    | with_reducible refine Frame.ofPair (by assumption) ?_
    | split
    | (dsimp only; split)
    | (with_reducible refine Frame.upd ?_ rfl ?_ ?_ ?_ ?_ ?_ ?_ ?_ ?_ ?_ ?_ ?_ ?_ ?_ ?_ ?_ ?_ ?_ <;>
        first | with_reducible exact Or.inl rfl | with_reducible exact Or.inr ⟨by decide +kernel, Nat.mod_lt _ (Nat.two_pow_pos 48)⟩ |
          exact Or.inr ⟨by decide +kernel, rfl, rfl⟩ | exact Or.inr ⟨by decide +kernel, rfl⟩ |
          exact Or.inr (by decide +kernel) | skip)

def W.countedRepair : Nat := W.repairRow

theorem countedRepair_fr {m : Nat} {r s : State} (h : Frame m r s) {f : Field} (hf : m.testBit f.id = true) (hm : subMask W.repairRow m = true) (a b : Nat) :
    Frame m r (s.countedRepair f a b) := by
  unfold State.countedRepair
  have x := (repairRow_frame s a b).step h hm
  dsimp only
  split
  · exact x.count hf ..
  · exact x

def W.placeItem : Nat := fm [F.CLR_LOOP_CTL_INT_TAP, F.CLR_LOOP_CTL_NSOS, F.CLR_LOOP_CTL_PLACED, F.LCA_WAY_STATUS_ON,
    F.LCA_WAY_STATUS_WAYS, F.LRN_MOUNT_MOUNT, F.SLD_AHARD_AHARD, F.SLD_GEOM_GROUP, F.SLD_GEOM_HOME_DIR, F.SLD_GEOM_MICRO,
    F.SLD_GEOM_STEP_PM, F.WND_MODEL_KE_I_FS, F.WND_MODEL_KE_KE, F.WND_MODEL_RL_LS, F.WND_MODEL_RL_RS, F.WND_MOTOR_CLASS,
    F.WND_MOTOR_P, F.WND_MOTOR_SPD_MAX, F.WND_MOTOR_SPD_MIN] ||| W.updClr ||| W.updWnd

theorem placeItem_frame {s : State} {k : Nat} {i : Nat} {id : Nat} {v : Nat} {u : State} (e : State.placeItem s k i id v =
    some u) : Frame W.placeItem s u := by
  unfold State.placeItem at e
  try dsimp only at e
  repeat' (split at e)
  all_goals (try (simp only [Option.some.injEq] at e; subst e)) <;> (try contradiction) <;> (try simp at e)
  repeat' first
    | with_reducible assumption
    | with_reducible exact Frame.refl _ _
    | (intro _ _ _)
    | (intro _ _)
    | decide +kernel
    | (with_reducible apply Frame.forEach; rotate_left; intro _ _ _)
    | with_reducible apply Frame.setB
    | with_reducible apply Frame.setF
    | with_reducible apply Frame.step (updClr_frame ..)
    | with_reducible apply Frame.step (updWnd_frame ..)
    | with_reducible apply Frame.ite
    | split
    | (dsimp only; split)

def W.wireItem : Nat := fm [F.CLR_LOOP_CTL_SRC] ||| W.updSld ||| W.updWnd

theorem wireItem_frame {s : State} {k : Nat} {i : Nat} {id : Nat} {v : Nat} {u : State} (e : State.wireItem s k i id v = some
    u) : Frame W.wireItem s u := by
  unfold State.wireItem at e
  try dsimp only at e
  repeat' (split at e)
  all_goals (try (simp only [Option.some.injEq] at e; subst e)) <;> (try contradiction) <;> (try simp at e)
  repeat' first
    | with_reducible assumption
    | with_reducible exact Frame.refl _ _
    | (intro _ _ _)
    | (intro _ _)
    | decide +kernel
    | with_reducible apply Frame.setF
    | with_reducible apply Frame.step (updSld_frame ..)
    | with_reducible apply Frame.step (updWnd_frame ..)
    | with_reducible apply Frame.ite
    | split
    | (dsimp only; split)

def W.applyItems : Nat := 0

theorem applyItems_fr {m : Nat} {r : State} {f : State → Nat → Nat → Option State}
    (hf : ∀ t a b u, f t a b = some u → Frame m r t → Frame m r u) (l : List CfgItem) :
    ∀ s u, applyItems f s l = some u → Frame m r s → Frame m r u := by
  induction l with
  | nil => intro s u e h; simp only [applyItems, Option.some.injEq] at e; exact e ▸ h
  | cons x xs ih =>
    intro s u e h
    simp only [applyItems] at e
    split at e
    · exact ih _ _ e (hf _ _ _ _ (by assumption) h)
    · simp at e

def W.applyAll : Nat := 0

theorem applyAll_fr {m : Nat} {r : State} {f : State → Nat → Option State}
    (hf : ∀ t a u, f t a = some u → Frame m r t → Frame m r u) (l : List Nat) :
    ∀ s u, applyAll f s l = some u → Frame m r s → Frame m r u := by
  induction l with
  | nil => intro s u e h; simp only [applyAll, Option.some.injEq] at e; exact e ▸ h
  | cons x xs ih =>
    intro s u e h
    simp only [applyAll] at e
    split at e
    · exact ih _ _ e (hf _ _ _ (by assumption) h)
    · simp at e

def W.memParam : Nat := fm [F.MEM_REPAIR_SOFT, F.MEM_STATUS_CHANNELS, F.MEM_STATUS_DENSITY, F.MEM_STATUS_GIB,
    F.MEM_STATUS_RANKS2, F.MEM_STATUS_RATE] ||| W.repairRow

theorem memParam_frame {s : State} {id : Nat} {v : Nat} {u : State} (e : State.memParam s id v = some u) : Frame W.memParam s
    u := by
  unfold State.memParam at e
  try dsimp only at e
  repeat' (split at e)
  all_goals (try (simp only [Option.some.injEq] at e; subst e)) <;> (try contradiction) <;> (try simp at e)
  repeat' first
    | with_reducible assumption
    | with_reducible exact Frame.refl _ _
    | (intro _ _ _)
    | (intro _ _)
    | decide +kernel
    | with_reducible apply Frame.setF
    | with_reducible apply countedRepair_fr
    | with_reducible apply Frame.ite
    | split
    | (dsimp only; split)

def W.setItem : Nat := W.memParam ||| W.regs

theorem setItemReg_mem {k i id : Nat} {any : Bool} {p : RegDef × Nat} (h : setItemReg k i id any = some p) : p.1 ∈ allRegs := by
  unfold setItemReg at h
  split at h
  · rename_i r j e
    obtain ⟨x, -, rfl⟩ := Option.map_eq_some_iff.1 h
    exact List.mem_of_mem_filter (show r ∈ _ from locateIn_mem e)
  · simp at h

theorem setItem_frame {s : State} {k i : Nat} {any check : Bool} {id v : Nat} {u : State}
    (e : s.setItem k i any check id v = some u) : Frame W.setItem s u := by
  unfold State.setItem at e
  split at e
  · split at e
    · split at e
      · exact (memParam_frame e).mono (by decide +kernel)
      · cases e; exact Frame.refl _ _
    · simp at e
  · split at e
    · rename_i r j e1
      split at e
      · simp at e
      · cases e
        exact storeReg_fr (Frame.refl _ _)
          (regIn_sub (by decide +kernel) (regIn_mem (m := W.regs) (setItemReg_mem e1) (by decide +kernel))) ..
    · simp at e

def W.loadEntry : Nat := rm [R.CLR_COEF, R.CLR_COEF_LIVE] ||| W.goodCheck

theorem loadEntry_fr {m : Nat} {z s : State} (h : Frame m z s) {r : RegDef} (hd : regIn m r = true) (hm : subMask W.loadEntry
    m = true) (i : Nat) (w : Nat) : Frame m z (State.loadEntry s r i w) := by
  unfold State.loadEntry
  repeat' first
    | with_reducible assumption
    | exact subMask_trans (by decide +kernel) hm
    | exact subMask_testBit hm (by decide +kernel)
    | exact evIn_sub hm (by decide +kernel)
    | exact regIn_sub hm (by decide +kernel)
    | (intro _ _ _)
    | (intro _ _)
    | with_reducible apply putEntry_fr
    | with_reducible apply Frame.ite
    | split
    | (dsimp only; split)

def W.loadEntries : Nat := W.loadEntry ||| rm tableRegs ||| W.loadEntry

theorem loadTables_mem {k : Nat} {r : RegDef} (h : r ∈ loadTables k) : r ∈ tableRegs := by
  unfold loadTables at h
  split at h
  all_goals
    simp only [List.mem_cons, List.not_mem_nil, or_false] at h
    try rcases h with rfl | rfl
  all_goals first | (subst h; decide) | decide | exact h.elim

theorem loadEntries_frame {k i : Nat} {any : Bool} {r0 : RegDef} {t0 : Nat} {l : List Nat} {s : State} {a : Nat} {u : State}
    (e : s.loadEntries k i any r0 t0 a l = some u) : Frame W.loadEntries s u := by
  induction l generalizing s a with
  | nil => simp only [State.loadEntries, Option.some.injEq] at e; subst e; exact Frame.refl _ _
  | cons w ws ih =>
    unfold State.loadEntries at e
    split at e
    · simp at e
    · rename_i r j e1
      split at e
      · exact (ih e).step (loadEntry_fr (Frame.refl _ _)
          (regIn_sub (a := rm tableRegs) (by decide +kernel) (regIn_mem (loadTables_mem (locateIn_mem e1)) (by decide +kernel)))
          (by decide +kernel) ..) (by simp [subMask])
      · simp at e

def W.loadFor : Nat := W.loadEntries ||| W.loadEntries

theorem loadFor_frame {s : State} {k i offset : Nat} {any : Bool} {entries : List Nat} {u : State}
    (e : s.loadFor k i offset any entries = some u) : Frame W.loadFor s u := by
  unfold State.loadFor at e
  split at e
  · cases e; exact Frame.refl _ _
  · split at e
    · simp at e
    · split at e
      · exact (loadEntries_frame e).mono (by decide +kernel)
      · simp at e

def W.clause : Nat := W.placeItem ||| W.wireItem ||| W.setItem ||| W.loadFor

theorem clause_frame {p q : Placing} {c : Clause} (e : p.clause c = some q) : Frame W.clause p.st q.st := by
  unfold Placing.clause at e
  split at e
  · simp at e
  · split at e
    · simp at e
    · cases e; exact Frame.refl _ _
    all_goals
      split at e
      · simp at e
      rename_i is _
      split at e
      · simp at e
      obtain ⟨t0, h, rfl⟩ := Option.map_eq_some_iff.1 e
      refine applyAll_fr ?_ _ _ _ h (Frame.refl _ _)
      intro t a u hu ht
    · split at hu
      · split at hu
        · cases hu
          exact applyItems_fr (fun _ _ _ _ x hx => (placeItem_frame x).step hx (by decide +kernel)) _ _ _ (by assumption) ht
        · simp at hu
      · simp at hu
    all_goals first
      | exact (loadFor_frame hu).step ht (by decide +kernel)
      | exact applyItems_fr (fun _ _ _ _ x hx => (wireItem_frame x).step hx (by decide +kernel)) _ _ _ hu ht
      | exact applyItems_fr (fun _ _ _ _ x hx => (setItem_frame x).step hx (by decide +kernel)) _ _ _ hu ht

theorem clauses_frame {l : List Clause} : ∀ {p q : Placing} {n : Nat}, p.clauses n l = .inl q → Frame W.clause p.st q.st := by
  induction l with
  | nil => intro p q n e; simp only [Placing.clauses, Sum.inl.injEq] at e; subst e; exact Frame.refl _ _
  | cons c cs ih =>
    intro p q n e
    simp only [Placing.clauses] at e
    split at e
    · exact (ih e).step (clause_frame (by assumption)) (by simp [subMask])
    · simp at e

theorem applySentence_frame {s t : State} {im : Image} (e : s.applySentence im = .placed t) : Frame W.clause s t := by
  unfold State.applySentence at e
  dsimp only at e
  split at e
  · simp at e
  · rename_i p h
    split at e
    · simp at e
    · split at e
      · simp at e
      · split at e
        · simp at e
        · cases e
          exact clauses_frame h

end Sys2Proof.Laws
end

