-- ==== Sys2Proof/Laws/FrLca.lean ====
section
/-!
SUPPORT. Frames of the operations of Machine/Lca.lean: one law per operation, with the mask of what it may change.
-/
set_option Elab.async false
set_option linter.unusedTactic false
set_option linter.unreachableTactic false

namespace Sys2Proof.Laws

open Sys2Proof.Machine

def W.lcaReject : Nat := em [E.LCA_CFG_REJECT]

theorem lcaReject_frame (s : State) : Frame W.lcaReject s (State.lcaReject s) := by
  unfold State.lcaReject
  repeat' first
    | with_reducible assumption
    | with_reducible exact Frame.refl _ _
    | decide +kernel
    | with_reducible apply raise_fr
    | with_reducible refine Frame.ofPair (by assumption) ?_

def W.emptyWay : Nat := W.evict

theorem emptyWay_frame (s : State) (w : Nat) (x : CacheErr) : Frame W.emptyWay s (State.emptyWay s w x) := by
  unfold State.emptyWay
  repeat' first
    | with_reducible assumption
    | with_reducible exact Frame.refl _ _
    | (intro _ _ _)
    | (intro _ _)
    | decide +kernel
    | (with_reducible apply Frame.forEach; rotate_left; intro _ _ _)
    | with_reducible apply Frame.step (evict_frame ..)

def W.wayDown : Nat := fm [F.LCA_WAY_CTL_OFF] ||| W.emptyWay ||| W.lcaReject

theorem wayDown_frame (s : State) (w : Nat) (x : CacheErr) : Frame W.wayDown s (State.wayDown s w x) := by
  unfold State.wayDown
  repeat' first
    | with_reducible assumption
    | with_reducible exact Frame.refl _ _
    | (intro _ _ _)
    | (intro _ _)
    | decide +kernel
    | with_reducible apply Frame.putF
    | with_reducible apply Frame.step (emptyWay_frame ..)
    | with_reducible apply Frame.step (lcaReject_frame ..)
    | with_reducible apply Frame.ite
    | split
    | (dsimp only; split)

def W.wayUp : Nat := fm [F.LCA_WAY_CTL_OFF]

theorem wayUp_frame (s : State) (w : Nat) : Frame W.wayUp s (State.wayUp s w) := by
  unfold State.wayUp
  repeat' first
    | with_reducible assumption
    | with_reducible exact Frame.refl _ _
    | decide +kernel
    | with_reducible apply Frame.putF

def W.wayOffDone : Nat := fm [F.LCA_WAY_STATUS_ON] ||| em [E.LCA_WAY_OFF] ||| W.emptyWay

theorem wayOffDone_frame (s : State) (w : Nat) (x : CacheErr) : Frame W.wayOffDone s (State.wayOffDone s w x) := by
  unfold State.wayOffDone
  repeat' first
    | with_reducible assumption
    | with_reducible exact Frame.refl _ _
    | decide +kernel
    | with_reducible apply Frame.putF
    | with_reducible apply Frame.step (emptyWay_frame ..)
    | with_reducible apply raise_fr
    | with_reducible apply Frame.ite
    | with_reducible refine Frame.ofPair (by assumption) ?_
    | split
    | (dsimp only; split)

def W.wayOnDone : Nat := fm [F.LCA_WAY_STATUS_ON]

theorem wayOnDone_frame (s : State) (w : Nat) : Frame W.wayOnDone s (State.wayOnDone s w) := by
  unfold State.wayOnDone
  repeat' first
    | with_reducible assumption
    | with_reducible exact Frame.refl _ _
    | decide +kernel
    | with_reducible apply Frame.putF
    | with_reducible apply Frame.ite
    | split
    | (dsimp only; split)

def W.peerLine : Nat := fm [F.LCA_MISSES_COUNT] ||| W.hit ||| W.readLine

theorem peerLine_frame (s : State) (n : Nat) : Frame W.peerLine s (State.peerLine s n).1 := by
  unfold State.peerLine
  repeat' first
    | with_reducible assumption
    | with_reducible exact Frame.refl _ _
    | decide +kernel
    | with_reducible apply Frame.count
    | with_reducible apply Frame.step (hit_frame ..)
    | with_reducible apply Frame.step (readLine_frame ..)
    | with_reducible refine Frame.ofPair (by assumption) ?_
    | split
    | (dsimp only; split)

def W.peerPut : Nat := fm [F.LCA_MISSES_COUNT] ||| W.hit ||| W.putLine

theorem peerPut_frame (s : State) (n : Nat) (data : List Nat) : Frame W.peerPut s (State.peerPut s n data) := by
  unfold State.peerPut
  repeat' first
    | with_reducible assumption
    | with_reducible exact Frame.refl _ _
    | decide +kernel
    | with_reducible apply Frame.count
    | with_reducible apply Frame.step (hit_frame ..)
    | with_reducible apply Frame.step (putLine_frame ..)
    | split
    | (dsimp only; split)

def W.lcaCount : Nat := W.updLca

theorem lcaCount_frame (s : State) (a k : Nat) : Frame W.lcaCount s (State.lcaCount s a k) := by
  unfold State.lcaCount
  repeat' first
    | with_reducible assumption
    | with_reducible exact Frame.refl _ _
    | (intro _ _ _)
    | (intro _ _)
    | decide +kernel
    | with_reducible apply Frame.step (updLca_frame ..)

def W.rangeLine : Nat := W.cleanLine ||| W.dropLine ||| W.evict ||| W.lcaCount

theorem rangeLine_frame (s : State) (op : LcaOp) (x : CacheErr) (l : CacheLine) : Frame W.rangeLine s (State.rangeLine s op x
    l) := by
  unfold State.rangeLine
  repeat' first
    | with_reducible assumption
    | with_reducible exact Frame.refl _ _
    | (intro _ _ _)
    | (intro _ _)
    | decide +kernel
    | with_reducible apply Frame.step (cleanLine_frame ..)
    | with_reducible apply Frame.step (dropLine_frame ..)
    | with_reducible apply Frame.step (evict_frame ..)
    | with_reducible apply Frame.step (lcaCount_frame ..)
    | with_reducible apply Frame.ite
    | split
    | (dsimp only; split)

def W.placeLine : Nat := W.cleanLine ||| W.dropLine ||| W.evict ||| W.lcaCount

theorem placeLine_frame (s : State) (op : LcaOp) (force : Bool) (x : CacheErr) (l : CacheLine) : Frame W.placeLine s
    (State.placeLine s op force x l) := by
  unfold State.placeLine
  repeat' first
    | with_reducible assumption
    | with_reducible exact Frame.refl _ _
    | decide +kernel
    | with_reducible apply Frame.step (cleanLine_frame ..)
    | with_reducible apply Frame.step (dropLine_frame ..)
    | with_reducible apply Frame.step (evict_frame ..)
    | with_reducible apply Frame.step (lcaCount_frame ..)
    | with_reducible apply Frame.ite
    | split
    | (dsimp only; split)

def W.lcaStart : Nat := fm [F.LCA_OP_STATUS_BUSY, F.LCA_OP_STATUS_DONE, F.LCA_OP_STATUS_REFUSED] ||| W.updLca

theorem lcaStart_frame (s : State) : Frame W.lcaStart s (State.lcaStart s) := by
  unfold State.lcaStart
  repeat' first
    | with_reducible assumption
    | with_reducible exact Frame.refl _ _
    | (intro _ _ _)
    | (intro _ _)
    | decide +kernel
    | with_reducible apply Frame.setB
    | with_reducible apply Frame.step (updLca_frame ..)

def W.tagCheck : Nat := em [E.LCA_TAG_UE] ||| W.deviceFatal

theorem tagCheck_frame (s : State) (x : CacheErr) : Frame W.tagCheck s (State.tagCheck s x) := by
  unfold State.tagCheck
  repeat' first
    | with_reducible assumption
    | with_reducible exact Frame.refl _ _
    | decide +kernel
    | with_reducible apply deviceFatal_fr
    | with_reducible apply Frame.ite
    | split
    | (dsimp only; split)

def W.lcaMaintain : Nat := W.lcaReject ||| W.lcaStart ||| W.placeLine ||| W.rangeLine ||| W.tagCheck

theorem lcaMaintain_frame (s : State) (op : LcaOp) (place force : Bool) (x : CacheErr) : Frame W.lcaMaintain s
    (State.lcaMaintain s op place force x) := by
  unfold State.lcaMaintain
  repeat' first
    | with_reducible assumption
    | with_reducible exact Frame.refl _ _
    | (intro _ _ _)
    | (intro _ _)
    | decide +kernel
    | (with_reducible apply Frame.forEach; rotate_left; intro _ _ _)
    | with_reducible apply Frame.step (lcaReject_frame ..)
    | with_reducible apply Frame.step (lcaStart_frame ..)
    | with_reducible apply Frame.step (placeLine_frame ..)
    | with_reducible apply Frame.step (rangeLine_frame ..)
    | with_reducible apply Frame.step (tagCheck_frame ..)
    | with_reducible apply Frame.ite
    | split
    | (dsimp only; split)

def W.makeRoom : Nat := W.evict

theorem makeRoom_frame (s : State) (w n : Nat) (x : CacheErr) : Frame W.makeRoom s (State.makeRoom s w n x) := by
  unfold State.makeRoom
  repeat' first
    | with_reducible assumption
    | with_reducible exact Frame.refl _ _
    | decide +kernel
    | with_reducible apply Frame.step (evict_frame ..)
    | split
    | (dsimp only; split)

def W.loadLine : Nat := W.installLine ||| W.lcaCount ||| W.makeRoom ||| W.readLine

theorem loadLine_frame (s : State) (w : Nat) (x : CacheErr) (n : Nat) : Frame W.loadLine s (State.loadLine s w x n) := by
  unfold State.loadLine
  repeat' first
    | with_reducible assumption
    | with_reducible exact Frame.refl _ _
    | decide +kernel
    | with_reducible apply Frame.step (installLine_frame ..)
    | with_reducible apply Frame.step (lcaCount_frame ..)
    | with_reducible apply Frame.step (makeRoom_frame ..)
    | with_reducible apply Frame.step (readLine_frame ..)
    | with_reducible refine Frame.ofPair (by assumption) ?_
    | split
    | (dsimp only; split)

def W.preloadLine : Nat := W.dropLine ||| W.installLine ||| W.lcaCount ||| W.loadLine ||| W.makeRoom

theorem preloadLine_frame (s : State) (w : Nat) (x : CacheErr) (n : Nat) : Frame W.preloadLine s (State.preloadLine s w x n)
    := by
  unfold State.preloadLine
  repeat' first
    | with_reducible assumption
    | with_reducible exact Frame.refl _ _
    | decide +kernel
    | with_reducible apply Frame.step (dropLine_frame ..)
    | with_reducible apply Frame.step (installLine_frame ..)
    | with_reducible apply Frame.step (lcaCount_frame ..)
    | with_reducible apply Frame.step (loadLine_frame ..)
    | with_reducible apply Frame.step (makeRoom_frame ..)
    | with_reducible apply Frame.ite
    | split
    | (dsimp only; split)

def W.lcaPreload : Nat := fm [F.LCA_OP_STATUS_DONE, F.LCA_OP_STATUS_REFUSED] ||| W.lcaReject ||| W.lcaStart ||| W.preloadLine
    ||| W.tagCheck

theorem lcaPreload_frame (s : State) (w : Nat) (x : CacheErr) : Frame W.lcaPreload s (State.lcaPreload s w x) := by
  unfold State.lcaPreload
  repeat' first
    | with_reducible assumption
    | with_reducible exact Frame.refl _ _
    | (intro _ _ _)
    | (intro _ _)
    | decide +kernel
    | (with_reducible apply Frame.forEach; rotate_left; intro _ _ _)
    | with_reducible apply Frame.setB
    | with_reducible apply Frame.step (lcaReject_frame ..)
    | with_reducible apply Frame.step (lcaStart_frame ..)
    | with_reducible apply Frame.step (preloadLine_frame ..)
    | with_reducible apply Frame.step (tagCheck_frame ..)
    | with_reducible apply Frame.ite
    | split
    | (dsimp only; split)

def W.lcaDone : Nat := fm [F.LCA_OP_STATUS_AFFECTED, F.LCA_OP_STATUS_BUSY, F.LCA_OP_STATUS_DONE, F.LCA_OP_STATUS_SKIPPED] |||
    em [E.LCA_OP_DONE]

theorem lcaDone_frame (s : State) : Frame W.lcaDone s (State.lcaDone s) := by
  unfold State.lcaDone
  repeat' first
    | with_reducible assumption
    | with_reducible exact Frame.refl _ _
    | (intro _ _ _)
    | (intro _ _)
    | decide +kernel
    | with_reducible apply Frame.setB
    | with_reducible apply Frame.setF
    | with_reducible apply raise_fr
    | with_reducible apply Frame.ite
    | with_reducible refine Frame.ofPair (by assumption) ?_
    | split
    | (dsimp only; split)

end Sys2Proof.Laws
end

