-- ==== Sys2Proof/Laws/FrClrCmds.lean ====
section
/-!
SUPPORT. Frames of the operations of Machine/ClrCmds.lean: one law per operation, with the mask of what it may change.
-/
set_option Elab.async false
set_option linter.unusedTactic false
set_option linter.unreachableTactic false

namespace Sys2Proof.Laws

open Sys2Proof.Machine

def W.commitCoef : Nat := fm [F.CLR_COEF_COMMIT_PEND, F.CLR_COEF_COMMIT_ZERO_STATE, F.CLR_STATUS_COMMIT_PEND]

theorem commitCoef_frame (s : State) (h : Nat) (zero : Bool) : Frame W.commitCoef s (State.commitCoef s h zero) := by
  unfold State.commitCoef
  repeat' first
    | with_reducible assumption
    | with_reducible exact Frame.refl _ _
    | (intro _ _ _)
    | (intro _ _)
    | decide +kernel
    | (with_reducible apply Frame.onlyIf; rotate_left; intro _ _)
    | with_reducible apply Frame.setB

def W.execCoefCommit : Nat := W.commitCoef ||| W.doneW

theorem execCoefCommit_frame (h : Fin 32) (zero : Bool) (s : State) : FrameN W.execCoefCommit s (execCoefCommit h zero s) :=
    by
  unfold execCoefCommit
  repeat' first
    | refine doneW_fr ?_ ?_
    | with_reducible assumption
    | with_reducible exact Frame.refl _ _
    | (intro _ _ _)
    | (intro _ _)
    | decide +kernel
    | with_reducible apply Frame.step (commitCoef_frame ..)

def W.execCoefCopy : Nat := W.coefCopy ||| W.outward

theorem execCoefCopy_frame (h : Fin 32) (s : State) : FrameN W.execCoefCopy s (execCoefCopy h s) := by
  unfold execCoefCopy
  repeat' first
    | refine done_fr ?_ ?_
    | with_reducible assumption
    | with_reducible exact Frame.refl _ _
    | (intro _ _ _)
    | (intro _ _)
    | decide +kernel
    | with_reducible apply Frame.step (coefCopy_frame ..)
    | with_reducible apply Frame.ite
    | split
    | (dsimp only; split)

def W.execRpEvaluation : Nat := W.outward ||| W.rpEvaluate

theorem execRpEvaluation_frame (h : Fin 32) (s : State) : FrameN W.execRpEvaluation s (execRpEvaluation h s) := by
  unfold execRpEvaluation
  repeat' first
    | refine done_fr ?_ ?_
    | with_reducible assumption
    | with_reducible exact Frame.refl _ _
    | (intro _ _ _)
    | (intro _ _)
    | decide +kernel
    | with_reducible apply Frame.step (rpEvaluate_frame ..)
    | with_reducible apply Frame.ite
    | split
    | (dsimp only; split)

def W.startOp : Nat := W.beginAcquire ||| W.continueOp ||| W.finishOp ||| W.startPower

theorem startOp_frame (s : State) (h : Nat) (o : MediaOp) : Frame W.startOp s (State.startOp s h o) := by
  unfold State.startOp
  repeat' first
    | with_reducible assumption
    | with_reducible exact Frame.refl _ _
    | decide +kernel
    | with_reducible apply Frame.step (beginAcquire_frame ..)
    | with_reducible apply Frame.step (continueOp_frame ..)
    | with_reducible apply Frame.step (finishOp_frame ..)
    | with_reducible apply Frame.step (startPower_frame ..)
    | with_reducible apply Frame.ite
    | split
    | (dsimp only; split)

def W.takeOp : Nat := W.setHead ||| W.startHoming ||| W.startOp

theorem takeOp_frame (s : State) (h : Nat) : Frame W.takeOp s (State.takeOp s h) := by
  unfold State.takeOp
  repeat' first
    | with_reducible assumption
    | with_reducible exact Frame.refl _ _
    | decide +kernel
    | with_reducible apply Frame.step (setHead_frame ..)
    | with_reducible apply Frame.step (startHoming_frame ..)
    | with_reducible apply Frame.step (startOp_frame ..)
    | with_reducible apply Frame.ite
    | split
    | (dsimp only; split)

def W.execMediaOperationTake : Nat := W.doneQ ||| W.takeOp

theorem execMediaOperationTake_frame (h : Fin 32) (s : State) : FrameN W.execMediaOperationTake s (execMediaOperationTake h s)
    := by
  unfold execMediaOperationTake
  repeat' first
    | refine doneQ_fr ?_ ?_
    | with_reducible assumption
    | with_reducible exact Frame.refl _ _
    | (intro _ _ _)
    | (intro _ _)
    | decide +kernel
    | with_reducible apply Frame.step (takeOp_frame ..)

def W.toParked : Nat := W.interruptOp ||| W.setClr

theorem toParked_frame (s : State) (h : Nat) : Frame W.toParked s (State.toParked s h) := by
  unfold State.toParked
  repeat' first
    | with_reducible assumption
    | with_reducible exact Frame.refl _ _
    | decide +kernel
    | with_reducible apply Frame.step (interruptOp_frame ..)
    | with_reducible apply Frame.step (setClr_frame ..)

def W.execAcqFail : Nat := W.doneQ ||| W.toParked ||| em [E.CLR_ACQ_FAIL]

theorem execAcqFail_frame (h : Fin 32) (s : State) : FrameN W.execAcqFail s (execAcqFail h s) := by
  unfold execAcqFail
  repeat' first
    | refine doneQ_fr ?_ ?_
    | with_reducible assumption
    | with_reducible exact Frame.refl _ _
    | (intro _ _ _)
    | (intro _ _)
    | decide +kernel
    | with_reducible apply Frame.step (toParked_frame ..)
    | with_reducible apply raise_fr
    | with_reducible apply Frame.ite
    | with_reducible refine Frame.ofPair (by assumption) ?_
    | split
    | (dsimp only; split)

def W.jumpBrake : Nat := W.driveLoop ||| W.setSeq

theorem jumpBrake_frame (s : State) (h : Nat) : Frame W.jumpBrake s (State.jumpBrake s h) := by
  unfold State.jumpBrake
  repeat' first
    | with_reducible assumption
    | with_reducible exact Frame.refl _ _
    | decide +kernel
    | with_reducible apply Frame.step (driveLoop_frame ..)
    | with_reducible apply Frame.step (setSeq_frame ..)
    | with_reducible apply Frame.ite
    | split
    | (dsimp only; split)

def W.execJumpBrake : Nat := W.jumpBrake ||| W.outward

theorem execJumpBrake_frame (h : Fin 32) (s : State) : FrameN W.execJumpBrake s (execJumpBrake h s) := by
  unfold execJumpBrake
  repeat' first
    | refine done_fr ?_ ?_
    | with_reducible assumption
    | with_reducible exact Frame.refl _ _
    | (intro _ _ _)
    | (intro _ _)
    | decide +kernel
    | with_reducible apply Frame.step (jumpBrake_frame ..)

def W.jumpSettle : Nat := W.closeLoop ||| W.setSeq

theorem jumpSettle_frame (s : State) (h : Nat) : Frame W.jumpSettle s (State.jumpSettle s h) := by
  unfold State.jumpSettle
  repeat' first
    | with_reducible assumption
    | with_reducible exact Frame.refl _ _
    | decide +kernel
    | with_reducible apply Frame.step (closeLoop_frame ..)
    | with_reducible apply Frame.step (setSeq_frame ..)
    | with_reducible apply Frame.ite
    | split
    | (dsimp only; split)

def W.execJumpSettle : Nat := W.jumpSettle ||| W.outward

theorem execJumpSettle_frame (h : Fin 32) (s : State) : FrameN W.execJumpSettle s (execJumpSettle h s) := by
  unfold execJumpSettle
  repeat' first
    | refine done_fr ?_ ?_
    | with_reducible assumption
    | with_reducible exact Frame.refl _ _
    | (intro _ _ _)
    | (intro _ _)
    | decide +kernel
    | with_reducible apply Frame.step (jumpSettle_frame ..)

def W.execSeekFail : Nat := W.doneQ ||| W.seekFail

theorem execSeekFail_frame (h : Fin 32) (s : State) : FrameN W.execSeekFail s (execSeekFail h s) := by
  unfold execSeekFail
  repeat' first
    | refine doneQ_fr ?_ ?_
    | with_reducible assumption
    | with_reducible exact Frame.refl _ _
    | (intro _ _ _)
    | (intro _ _)
    | decide +kernel
    | with_reducible apply Frame.step (seekFail_frame ..)
    | with_reducible apply Frame.ite
    | split
    | (dsimp only; split)

def W.execSledArrived : Nat := W.outward ||| W.setSeq

theorem execSledArrived_frame (h : Fin 32) (s : State) : FrameN W.execSledArrived s (execSledArrived h s) := by
  unfold execSledArrived
  repeat' first
    | refine done_fr ?_ ?_
    | with_reducible assumption
    | with_reducible exact Frame.refl _ _
    | (intro _ _ _)
    | (intro _ _)
    | decide +kernel
    | with_reducible apply Frame.step (setSeq_frame ..)
    | with_reducible apply Frame.ite
    | split
    | (dsimp only; split)

def W.execSeekComplete : Nat := W.doneQ ||| W.enterFollow

theorem execSeekComplete_frame (h : Fin 32) (s : State) : FrameN W.execSeekComplete s (execSeekComplete h s) := by
  unfold execSeekComplete
  repeat' first
    | refine doneQ_fr ?_ ?_
    | with_reducible assumption
    | with_reducible exact Frame.refl _ _
    | (intro _ _ _)
    | (intro _ _)
    | decide +kernel
    | with_reducible apply Frame.step (enterFollow_frame ..)
    | with_reducible apply Frame.ite
    | split
    | (dsimp only; split)

def W.hopKick : Nat := W.driveLoop ||| W.openLoop ||| W.setSeq

theorem hopKick_frame (s : State) (h : Nat) : Frame W.hopKick s (State.hopKick s h) := by
  unfold State.hopKick
  repeat' first
    | with_reducible assumption
    | with_reducible exact Frame.refl _ _
    | (intro _ _ _)
    | (intro _ _)
    | decide +kernel
    | with_reducible apply Frame.step (driveLoop_frame ..)
    | with_reducible apply Frame.step (openLoop_frame ..)
    | with_reducible apply Frame.step (setSeq_frame ..)
    | with_reducible apply Frame.ite
    | split
    | (dsimp only; split)

def W.execLayerHopKick : Nat := W.hopKick ||| W.outward

theorem execLayerHopKick_frame (h : Fin 32) (s : State) : FrameN W.execLayerHopKick s (execLayerHopKick h s) := by
  unfold execLayerHopKick
  repeat' first
    | refine done_fr ?_ ?_
    | with_reducible assumption
    | with_reducible exact Frame.refl _ _
    | (intro _ _ _)
    | (intro _ _)
    | decide +kernel
    | with_reducible apply Frame.step (hopKick_frame ..)

def W.hopDone : Nat := W.setSeq ||| W.startHop

theorem hopDone_frame (s : State) (h : Nat) : Frame W.hopDone s (State.hopDone s h) := by
  unfold State.hopDone
  repeat' first
    | with_reducible assumption
    | with_reducible exact Frame.refl _ _
    | decide +kernel
    | with_reducible apply Frame.step (setSeq_frame ..)
    | with_reducible apply Frame.step (startHop_frame ..)
    | with_reducible apply Frame.ite
    | split
    | (dsimp only; split)

def W.execLayerHopDone : Nat := W.hopDone ||| W.outward

theorem execLayerHopDone_frame (h : Fin 32) (s : State) : FrameN W.execLayerHopDone s (execLayerHopDone h s) := by
  unfold execLayerHopDone
  repeat' first
    | refine done_fr ?_ ?_
    | with_reducible assumption
    | with_reducible exact Frame.refl _ _
    | (intro _ _ _)
    | (intro _ _)
    | decide +kernel
    | with_reducible apply Frame.step (hopDone_frame ..)

def W.hopLate : Nat := em [E.CLR_LAYER_FAIL] ||| W.beginAcquire

theorem hopLate_frame (s : State) (h : Nat) : Frame W.hopLate s (State.hopLate s h) := by
  unfold State.hopLate
  repeat' first
    | with_reducible assumption
    | with_reducible exact Frame.refl _ _
    | decide +kernel
    | with_reducible apply Frame.step (beginAcquire_frame ..)
    | with_reducible apply raise_fr
    | with_reducible apply Frame.ite
    | with_reducible refine Frame.ofPair (by assumption) ?_
    | split
    | (dsimp only; split)

def W.execLayerFail : Nat := W.hopLate ||| W.outward

theorem execLayerFail_frame (h : Fin 32) (s : State) : FrameN W.execLayerFail s (execLayerFail h s) := by
  unfold execLayerFail
  repeat' first
    | refine done_fr ?_ ?_
    | with_reducible assumption
    | with_reducible exact Frame.refl _ _
    | (intro _ _ _)
    | (intro _ _)
    | decide +kernel
    | with_reducible apply Frame.step (hopLate_frame ..)

def W.execAngleLossPark : Nat := W.doneQ ||| W.toParked

theorem execAngleLossPark_frame (h : Fin 32) (s : State) : FrameN W.execAngleLossPark s (execAngleLossPark h s) := by
  unfold execAngleLossPark
  repeat' first
    | refine doneQ_fr ?_ ?_
    | with_reducible assumption
    | with_reducible exact Frame.refl _ _
    | (intro _ _ _)
    | (intro _ _)
    | decide +kernel
    | with_reducible apply Frame.step (toParked_frame ..)
    | with_reducible apply Frame.ite
    | split
    | (dsimp only; split)

def W.execFixTimeout : Nat := W.doneQ ||| W.interruptOp ||| W.updClr

theorem execFixTimeout_frame (h : Fin 32) (s : State) : FrameN W.execFixTimeout s (execFixTimeout h s) := by
  unfold execFixTimeout
  repeat' first
    | refine doneQ_fr ?_ ?_
    | with_reducible assumption
    | with_reducible exact Frame.refl _ _
    | (intro _ _ _)
    | (intro _ _)
    | decide +kernel
    | with_reducible apply Frame.step (interruptOp_frame ..)
    | with_reducible apply Frame.step (updClr_frame ..)
    | with_reducible apply Frame.ite
    | split
    | (dsimp only; split)

def W.holdExit : Nat := W.enterFollow ||| W.setSeq

theorem holdExit_frame (s : State) (h : Nat) : Frame W.holdExit s (State.holdExit s h) := by
  unfold State.holdExit
  repeat' first
    | with_reducible assumption
    | with_reducible exact Frame.refl _ _
    | decide +kernel
    | with_reducible apply Frame.step (enterFollow_frame ..)
    | with_reducible apply Frame.step (setSeq_frame ..)
    | with_reducible apply Frame.ite
    | split
    | (dsimp only; split)

def W.execHoldExit : Nat := W.doneQ ||| W.holdExit

theorem execHoldExit_frame (h : Fin 32) (s : State) : FrameN W.execHoldExit s (execHoldExit h s) := by
  unfold execHoldExit
  repeat' first
    | refine doneQ_fr ?_ ?_
    | with_reducible assumption
    | with_reducible exact Frame.refl _ _
    | (intro _ _ _)
    | (intro _ _)
    | decide +kernel
    | with_reducible apply Frame.step (holdExit_frame ..)

def W.execHoldTimeout : Nat := W.doneQ ||| W.headFatal ||| em [E.CLR_HOLD_TIMEOUT]

theorem execHoldTimeout_frame (h : Fin 32) (s : State) : FrameN W.execHoldTimeout s (execHoldTimeout h s) := by
  unfold execHoldTimeout
  repeat' first
    | refine doneQ_fr ?_ ?_
    | with_reducible assumption
    | with_reducible exact Frame.refl _ _
    | (intro _ _ _)
    | (intro _ _)
    | decide +kernel
    | with_reducible apply Frame.step (headFatal_frame ..)
    | with_reducible apply raise_fr
    | with_reducible apply Frame.ite
    | with_reducible refine Frame.ofPair (by assumption) ?_
    | split
    | (dsimp only; split)

def W.headUp : Nat := W.setClr

theorem headUp_frame (s : State) (h : Nat) : Frame W.headUp s (State.headUp s h) := by
  unfold State.headUp
  repeat' first
    | with_reducible assumption
    | with_reducible exact Frame.refl _ _
    | decide +kernel
    | with_reducible apply Frame.step (setClr_frame ..)
    | with_reducible apply Frame.ite
    | split
    | (dsimp only; split)

def W.execCollierEnable : Nat := W.doneQW ||| W.headUp ||| fm [F.CLR_CTL_EN]

theorem execCollierEnable_frame (h : Fin 32) (s : State) : FrameN W.execCollierEnable s (execCollierEnable h s) := by
  unfold execCollierEnable
  repeat' first
    | refine doneQW_fr ?_ ?_
    | with_reducible assumption
    | with_reducible exact Frame.refl _ _
    | (intro _ _ _)
    | (intro _ _)
    | decide +kernel
    | with_reducible apply Frame.setB
    | with_reducible apply Frame.step (headUp_frame ..)

def W.execCollierDisable : Nat := W.doneQW ||| W.headOff ||| fm [F.CLR_CTL_EN]

theorem execCollierDisable_frame (h : Fin 32) (s : State) : FrameN W.execCollierDisable s (execCollierDisable h s) := by
  unfold execCollierDisable
  repeat' first
    | refine doneQW_fr ?_ ?_
    | with_reducible assumption
    | with_reducible exact Frame.refl _ _
    | (intro _ _ _)
    | (intro _ _)
    | decide +kernel
    | with_reducible apply Frame.setB
    | with_reducible apply Frame.step (headOff_frame ..)

def W.clearOvr : Nat := fm [F.TCK_CLR_OVR_RECENT] ||| W.updClr

theorem clearOvr_frame (s : State) (h : Nat) : Frame W.clearOvr s (State.clearOvr s h) := by
  unfold State.clearOvr
  repeat' first
    | with_reducible assumption
    | with_reducible exact Frame.refl _ _
    | (intro _ _ _)
    | (intro _ _)
    | decide +kernel
    | with_reducible apply Frame.setF
    | with_reducible apply Frame.step (updClr_frame ..)

def W.clearSat : Nat := fm [F.CLR_SAT_LOOP0, F.CLR_SAT_LOOP1, F.CLR_SAT_LOOP2, F.CLR_SAT_NFF]

theorem clearSat_frame (s : State) (h : Nat) : Frame W.clearSat s (State.clearSat s h) := by
  unfold State.clearSat
  repeat' first
    | with_reducible assumption
    | with_reducible exact Frame.refl _ _
    | decide +kernel
    | with_reducible apply Frame.setB
    | with_reducible apply Frame.setF

def W.linkAgain : Nat := W.linkDown ||| W.linkTrain

theorem linkAgain_frame (s : State) (h : Nat) : Frame W.linkAgain s (State.linkAgain s h) := by
  unfold State.linkAgain
  repeat' first
    | with_reducible assumption
    | with_reducible exact Frame.refl _ _
    | (intro _ _ _)
    | (intro _ _)
    | decide +kernel
    | with_reducible apply Frame.step (linkDown_frame ..)
    | with_reducible apply Frame.step (linkTrain_frame ..)
    | with_reducible apply Frame.ite
    | split
    | (dsimp only; split)

def W.faultReset : Nat := fm [F.GLB_HEAD_FAULT_HEAD, F.PWR_RESET_CAUSE_HEAD_DECK] ||| W.clearOvr ||| W.clearSat |||
    W.linkAgain ||| W.setClr ||| W.updBand ||| fm [F.PWR_RESET_CAUSE_LAST]

theorem faultReset_frame (s : State) (h : Nat) : Frame W.faultReset s (State.faultReset s h) := by
  unfold State.faultReset
  repeat' first
    | with_reducible assumption
    | with_reducible exact Frame.refl _ _
    | (intro _ _ _)
    | (intro _ _)
    | decide +kernel
    | with_reducible apply Frame.putF
    | with_reducible apply Frame.step (clearOvr_frame ..)
    | with_reducible apply Frame.step (clearSat_frame ..)
    | with_reducible apply Frame.step (linkAgain_frame ..)
    | with_reducible apply Frame.step (setClr_frame ..)
    | with_reducible apply Frame.step (updBand_frame ..)
    | with_reducible apply resetSource_fr
    | with_reducible apply Frame.ite
    | split
    | (dsimp only; split)

def W.execHeadFaultReset : Nat := W.doneQW ||| W.faultReset

theorem execHeadFaultReset_frame (h : Fin 32) (s : State) : FrameN W.execHeadFaultReset s (execHeadFaultReset h s) := by
  unfold execHeadFaultReset
  repeat' first
    | refine doneQW_fr ?_ ?_
    | with_reducible assumption
    | with_reducible exact Frame.refl _ _
    | (intro _ _ _)
    | (intro _ _)
    | decide +kernel
    | with_reducible apply Frame.step (faultReset_frame ..)

end Sys2Proof.Laws
end

