-- ==== Sys2Proof/Laws/FrLnkCmds.lean ====
section
/-!
SUPPORT. Frames of the operations of Machine/LnkCmds.lean: one law per operation, with the mask of what it may change.
-/
set_option Elab.async false
set_option linter.unusedTactic false
set_option linter.unreachableTactic false

namespace Sys2Proof.Laws

open Sys2Proof.Machine

def W.lnkReject : Nat := em [E.LNK_CFG_REJECT] ||| fm [F.LNK_EVT_HEADS_HEAD]

theorem lnkReject_frame (s : State) (h : Nat) : Frame W.lnkReject s (State.lnkReject s h) := by
  unfold State.lnkReject
  repeat' first
    | with_reducible assumption
    | with_reducible exact Frame.refl _ _
    | decide +kernel
    | with_reducible apply raiseLnk_fr

def W.execFifoPop : Nat := W.outward ||| W.popBank ||| W.popRf

theorem execFifoPop_frame (h : Fin 32) (f : Fin 6) (flips : List (Nat × Nat)) (s : State) : FrameN W.execFifoPop s
    (execFifoPop h f flips s) := by
  unfold execFifoPop
  repeat' first
    | refine done_fr ?_ ?_
    | with_reducible assumption
    | with_reducible exact Frame.refl _ _
    | (intro _ _ _)
    | (intro _ _)
    | decide +kernel
    | with_reducible apply Frame.step (popBank_frame ..)
    | with_reducible apply Frame.step (popRf_frame ..)
    | with_reducible apply Frame.ite
    | split
    | (dsimp only; split)

def W.execFifoOverflow : Nat := W.deliver ||| W.dropItem ||| W.outward ||| W.setFifo

theorem execFifoOverflow_frame (h : Fin 32) (f : Fin 6) (s : State) : FrameN W.execFifoOverflow s (execFifoOverflow h f s) :=
    by
  unfold execFifoOverflow
  repeat' first
    | refine done_fr ?_ ?_
    | with_reducible assumption
    | with_reducible exact Frame.refl _ _
    | (intro _ _ _)
    | (intro _ _)
    | decide +kernel
    | with_reducible apply Frame.step (deliver_frame ..)
    | with_reducible apply Frame.step (dropItem_frame ..)
    | with_reducible apply Frame.step (setFifo_frame ..)
    | with_reducible apply Frame.ite
    | split
    | (dsimp only; split)

def W.flushMask : Nat := W.deliver ||| W.flushFifo

theorem flushMask_frame (s : State) (h w : Nat) : Frame W.flushMask s (State.flushMask s h w) := by
  unfold State.flushMask
  repeat' first
    | with_reducible assumption
    | with_reducible exact Frame.refl _ _
    | (intro _ _ _)
    | (intro _ _)
    | decide +kernel
    | (with_reducible apply Frame.forEach; rotate_left; intro _ _ _)
    | with_reducible apply Frame.step (deliver_frame ..)
    | with_reducible apply Frame.step (flushFifo_frame ..)

def W.execFifoFlush : Nat := W.doneW ||| W.flushMask

theorem execFifoFlush_frame (h : Fin 32) (w : BitVec 32) (s : State) : FrameN W.execFifoFlush s (execFifoFlush h w s) := by
  unfold execFifoFlush
  repeat' first
    | refine doneW_fr ?_ ?_
    | with_reducible assumption
    | with_reducible exact Frame.refl _ _
    | (intro _ _ _)
    | (intro _ _)
    | decide +kernel
    | with_reducible apply Frame.step (flushMask_frame ..)

def W.execEchoReceived : Nat := W.echo ||| W.outward

theorem execEchoReceived_frame (h : Fin 32) (seq : BitVec 8) (rtt : Nat) (s : State) : FrameN W.execEchoReceived s
    (execEchoReceived h seq rtt s) := by
  unfold execEchoReceived
  repeat' first
    | refine done_fr ?_ ?_
    | with_reducible assumption
    | with_reducible exact Frame.refl _ _
    | (intro _ _ _)
    | (intro _ _)
    | decide +kernel
    | with_reducible apply Frame.step (echo_frame ..)

def W.takeMap : Nat := fm [F.LNK_HEAD_STATUS_FAILED, F.LNK_PRBS_ERR_LOCK] ||| W.applyMap ||| W.roles ||| W.setLane

theorem takeMap_frame (s : State) (h : Nat) (m : Nat × Nat) (restored : Option Nat) : Frame W.takeMap s (State.takeMap s h m
    restored) := by
  unfold State.takeMap
  repeat' first
    | with_reducible assumption
    | with_reducible exact Frame.refl _ _
    | (intro _ _ _)
    | (intro _ _)
    | decide +kernel
    | (with_reducible apply Frame.forEach; rotate_left; intro _ _ _)
    | with_reducible apply Frame.setB
    | with_reducible apply Frame.setF
    | with_reducible apply Frame.step (applyMap_frame ..)
    | with_reducible apply Frame.step (roles_frame ..)
    | with_reducible apply Frame.step (setLane_frame ..)
    | with_reducible apply Frame.ite
    | (with_reducible apply Frame.foldl1; rotate_left; intro _ _ _)
    | (with_reducible apply Frame.foldl; rotate_left; intro _ _ _)
    | split
    | (dsimp only; split)

def W.lineBlock : Nat := fm [F.LNK_LANE_ERR_SH_ERR, F.LNK_LANE_STATUS_BLOCK_LOCK] ||| W.setLane

theorem lineBlock_frame (s : State) (l hdr w : Nat) : Frame W.lineBlock s (State.lineBlock s l hdr w) := by
  unfold State.lineBlock
  repeat' first
    | with_reducible assumption
    | with_reducible exact Frame.refl _ _
    | (intro _ _ _)
    | (intro _ _)
    | decide +kernel
    | (with_reducible apply Frame.onlyIf; rotate_left; intro _ _)
    | with_reducible apply Frame.count
    | with_reducible apply Frame.setB
    | with_reducible apply Frame.step (setLane_frame ..)

def W.soakBits : Nat := W.setCheck ||| W.setLane

theorem soakBits_frame (s : State) (l w : Nat) : Frame W.soakBits s (State.soakBits s l w) := by
  unfold State.soakBits
  repeat' first
    | with_reducible assumption
    | with_reducible exact Frame.refl _ _
    | (intro _ _ _)
    | (intro _ _)
    | decide +kernel
    | (with_reducible apply Frame.onlyIf; rotate_left; intro _ _)
    | with_reducible apply Frame.step (setCheck_frame ..)
    | with_reducible apply Frame.step (setLane_frame ..)

def W.laneMarker : Nat := fm [F.LNK_LANE_ERR_MK_ERR, F.LNK_LANE_STATUS_BLOCK_LOCK, F.LNK_LANE_STATUS_MARKER_OK,
    F.LNK_LANE_STATUS_SIG_DET, F.LNK_LANE_STATUS_SKEW] ||| W.lineBlock ||| W.setLane

theorem laneMarker_frame (s : State) (h k : Nat) (x : MarkerIn) : Frame W.laneMarker s (State.laneMarker s h k x) := by
  unfold State.laneMarker
  repeat' first
    | with_reducible assumption
    | with_reducible exact Frame.refl _ _
    | (intro _ _ _)
    | (intro _ _)
    | decide +kernel
    | (with_reducible apply Frame.onlyIf; rotate_left; intro _ _)
    | with_reducible apply Frame.count
    | with_reducible apply Frame.setB
    | with_reducible apply Frame.setF
    | with_reducible apply Frame.step (lineBlock_frame ..)
    | with_reducible apply Frame.step (setLane_frame ..)
    | with_reducible apply Frame.ite
    | split
    | (dsimp only; split)

def W.marker : Nat := fm [F.LNK_HEAD_STATUS_MARK] ||| em [E.LNK_LANE_RESTORED, E.LNK_MAP_ERR, E.LNK_ROT_CANCEL] ||| W.setLink
    ||| W.takeMap ||| W.updLink ||| fm [F.LNK_EVT_HEADS_HEAD]

theorem marker_frame (s : State) (h : Nat) (m : Nat × Nat) (mark : Nat) : Frame W.marker s (State.marker s h m mark) := by
  unfold State.marker
  repeat' first
    | with_reducible assumption
    | with_reducible exact Frame.refl _ _
    | (intro _ _ _)
    | (intro _ _)
    | decide +kernel
    | with_reducible apply Frame.setF
    | with_reducible apply Frame.step (setLink_frame ..)
    | with_reducible apply Frame.step (takeMap_frame ..)
    | with_reducible apply Frame.step (updLink_frame ..)
    | with_reducible apply raiseLnk_fr
    | with_reducible apply Frame.ite
    | split
    | (dsimp only; split)

def W.laneFailed : Nat := fm [F.LNK_HEAD_STATUS_FAILED] ||| em [E.LNK_LANE_FAIL, E.LNK_LINK_LOST] ||| W.linkLost ||| W.roles
    ||| W.sendRotate ||| W.setLane ||| W.setLink ||| W.updLink ||| fm [F.LNK_EVT_HEADS_HEAD]

theorem laneFailed_frame (s : State) (h k : Nat) : Frame W.laneFailed s (State.laneFailed s h k) := by
  unfold State.laneFailed
  repeat' first
    | with_reducible assumption
    | with_reducible exact Frame.refl _ _
    | (intro _ _ _)
    | (intro _ _)
    | decide +kernel
    | with_reducible apply Frame.putF
    | with_reducible apply Frame.step (roles_frame ..)
    | with_reducible apply Frame.step (sendRotate_frame ..)
    | with_reducible apply Frame.step (setLane_frame ..)
    | with_reducible apply Frame.step (setLink_frame ..)
    | with_reducible apply Frame.step (updLink_frame ..)
    | with_reducible apply linkLost_fr
    | with_reducible apply raiseLnk_fr
    | with_reducible apply Frame.ite
    | split
    | (dsimp only; split)

def W.alignMarker : Nat := em [E.LNK_MAP_ERR] ||| W.deliver ||| W.laneFailed ||| W.laneMarker ||| W.marker ||| W.updLink |||
    fm [F.LNK_EVT_HEADS_HEAD]

theorem alignMarker_frame (s : State) (h : Nat) (lanes : List MarkerIn) : Frame W.alignMarker s (State.alignMarker s h lanes)
    := by
  unfold State.alignMarker
  repeat' first
    | with_reducible assumption
    | with_reducible exact Frame.refl _ _
    | (intro _ _ _)
    | (intro _ _)
    | decide +kernel
    | (with_reducible apply Frame.forEach; rotate_left; intro _ _ _)
    | (with_reducible apply Frame.onlyIf; rotate_left; intro _ _)
    | with_reducible apply Frame.step (deliver_frame ..)
    | with_reducible apply Frame.step (laneFailed_frame ..)
    | with_reducible apply Frame.step (laneMarker_frame ..)
    | with_reducible apply Frame.step (marker_frame ..)
    | with_reducible apply Frame.step (updLink_frame ..)
    | with_reducible apply raiseLnk_fr
    | with_reducible apply Frame.ite
    | split
    | (dsimp only; split)

def W.execAlignMarker : Nat := W.alignMarker ||| W.doneQ

theorem execAlignMarker_frame (h : Fin 32) (lanes : List MarkerIn) (s : State) : FrameN W.execAlignMarker s (execAlignMarker h
    lanes s) := by
  unfold execAlignMarker
  repeat' first
    | refine doneQ_fr ?_ ?_
    | with_reducible assumption
    | with_reducible exact Frame.refl _ _
    | (intro _ _ _)
    | (intro _ _)
    | decide +kernel
    | with_reducible apply Frame.step (alignMarker_frame ..)

def W.rotate : Nat := W.sendRotate

theorem rotate_frame (s : State) (h : Nat) : Frame W.rotate s (State.rotate s h) := by
  unfold State.rotate
  repeat' first
    | with_reducible assumption
    | with_reducible exact Frame.refl _ _
    | (intro _ _ _)
    | (intro _ _)
    | decide +kernel
    | with_reducible apply Frame.step (sendRotate_frame ..)
    | with_reducible apply Frame.ite
    | split
    | (dsimp only; split)

def W.execRotate : Nat := W.outward ||| W.rotate

theorem execRotate_frame (h : Fin 32) (s : State) : FrameN W.execRotate s (execRotate h s) := by
  unfold execRotate
  repeat' first
    | refine done_fr ?_ ?_
    | with_reducible assumption
    | with_reducible exact Frame.refl _ _
    | (intro _ _ _)
    | (intro _ _)
    | decide +kernel
    | with_reducible apply Frame.step (rotate_frame ..)

def W.restore : Nat := W.sendRotate

theorem restore_frame (s : State) (h k : Nat) : Frame W.restore s (State.restore s h k) := by
  unfold State.restore
  repeat' first
    | with_reducible assumption
    | with_reducible exact Frame.refl _ _
    | decide +kernel
    | with_reducible apply Frame.step (sendRotate_frame ..)
    | with_reducible apply Frame.ite
    | split
    | (dsimp only; split)

def W.execLaneRestoreSoak : Nat := W.outward ||| W.restore

theorem execLaneRestoreSoak_frame (h : Fin 32) (lane : Fin 6) (s : State) : FrameN W.execLaneRestoreSoak s
    (execLaneRestoreSoak h lane s) := by
  unfold execLaneRestoreSoak
  repeat' first
    | refine done_fr ?_ ?_
    | with_reducible assumption
    | with_reducible exact Frame.refl _ _
    | (intro _ _ _)
    | (intro _ _)
    | decide +kernel
    | with_reducible apply Frame.step (restore_frame ..)

def W.laneFail : Nat := fm [F.LNK_LANE_CTL_DIS, F.LNK_LANE_STATUS_BLOCK_LOCK, F.LNK_LANE_STATUS_MARKER_OK,
    F.LNK_LANE_STATUS_SIG_DET] ||| em [E.LNK_DOWN_LOST] ||| W.laneFailed ||| W.linkLost ||| W.setLane

theorem laneFail_frame (s : State) (h k : Nat) (c : LaneCause) : Frame W.laneFail s (State.laneFail s h k c) := by
  unfold State.laneFail
  repeat' first
    | with_reducible assumption
    | with_reducible exact Frame.refl _ _
    | (intro _ _ _)
    | (intro _ _)
    | decide +kernel
    | with_reducible apply Frame.setB
    | with_reducible apply Frame.step (laneFailed_frame ..)
    | with_reducible apply Frame.step (setLane_frame ..)
    | with_reducible apply linkLost_fr
    | with_reducible apply Frame.ite
    | split
    | (dsimp only; split)

def W.block : Nat := W.deliver ||| W.laneFail ||| W.lineBlock ||| W.rawBits ||| W.setLane ||| W.soakBits ||| W.updLink

theorem block_frame (s : State) (h k hdr w rtt : Nat) : Frame W.block s (State.block s h k hdr w rtt) := by
  unfold State.block
  repeat' first
    | with_reducible assumption
    | with_reducible exact Frame.refl _ _
    | (intro _ _ _)
    | (intro _ _)
    | decide +kernel
    | (with_reducible apply Frame.onlyIf; rotate_left; intro _ _)
    | with_reducible apply Frame.step (deliver_frame ..)
    | with_reducible apply Frame.step (laneFail_frame ..)
    | with_reducible apply Frame.step (lineBlock_frame ..)
    | with_reducible apply Frame.step (rawBits_frame ..)
    | with_reducible apply Frame.step (setLane_frame ..)
    | with_reducible apply Frame.step (soakBits_frame ..)
    | with_reducible apply Frame.step (updLink_frame ..)
    | with_reducible apply Frame.ite
    | split
    | (dsimp only; split)

def W.execLinkWordPush : Nat := W.block ||| W.doneQ

theorem execLinkWordPush_frame (h : Fin 32) (lane : Fin 6) (hdr : BitVec 2) (payload : BitVec 64) (rtt : Nat) (s : State) :
    FrameN W.execLinkWordPush s (execLinkWordPush h lane hdr payload rtt s) := by
  unfold execLinkWordPush
  repeat' first
    | refine doneQ_fr ?_ ?_
    | with_reducible assumption
    | with_reducible exact Frame.refl _ _
    | (intro _ _ _)
    | (intro _ _)
    | decide +kernel
    | with_reducible apply Frame.step (block_frame ..)

def W.execLaneFail : Nat := W.doneQ ||| W.flushAsm ||| W.laneFail

theorem execLaneFail_frame (h : Fin 32) (lane : Fin 8) (cause : LaneCause) (s : State) : FrameN W.execLaneFail s (execLaneFail
    h lane cause s) := by
  unfold execLaneFail
  repeat' first
    | refine doneQ_fr ?_ ?_
    | with_reducible assumption
    | with_reducible exact Frame.refl _ _
    | (intro _ _ _)
    | (intro _ _)
    | decide +kernel
    | with_reducible apply Frame.step (flushAsm_frame ..)
    | with_reducible apply Frame.step (laneFail_frame ..)
    | with_reducible apply Frame.ite
    | split
    | (dsimp only; split)

def W.linkEnable : Nat := fm [F.LNK_HEAD_CTL_EN] ||| W.linkTrain

theorem linkEnable_frame (s : State) (h : Nat) : Frame W.linkEnable s (State.linkEnable s h) := by
  unfold State.linkEnable
  repeat' first
    | with_reducible assumption
    | with_reducible exact Frame.refl _ _
    | (intro _ _ _)
    | (intro _ _)
    | decide +kernel
    | with_reducible apply Frame.setB
    | with_reducible apply Frame.step (linkTrain_frame ..)
    | with_reducible apply Frame.ite
    | split
    | (dsimp only; split)

def W.execLinkEnable : Nat := W.doneQW ||| W.linkEnable

theorem execLinkEnable_frame (h : Fin 32) (s : State) : FrameN W.execLinkEnable s (execLinkEnable h s) := by
  unfold execLinkEnable
  repeat' first
    | refine doneQW_fr ?_ ?_
    | with_reducible assumption
    | with_reducible exact Frame.refl _ _
    | (intro _ _ _)
    | (intro _ _)
    | decide +kernel
    | with_reducible apply Frame.step (linkEnable_frame ..)

def W.linkDisable : Nat := fm [F.LNK_HEAD_CTL_EN] ||| W.headOff ||| W.linkDown

theorem linkDisable_frame (s : State) (h : Nat) : Frame W.linkDisable s (State.linkDisable s h) := by
  unfold State.linkDisable
  repeat' first
    | with_reducible assumption
    | with_reducible exact Frame.refl _ _
    | decide +kernel
    | with_reducible apply Frame.setB
    | with_reducible apply Frame.step (headOff_frame ..)
    | with_reducible apply Frame.step (linkDown_frame ..)

def W.execLinkDisable : Nat := W.doneQW ||| W.linkDisable

theorem execLinkDisable_frame (h : Fin 32) (s : State) : FrameN W.execLinkDisable s (execLinkDisable h s) := by
  unfold execLinkDisable
  repeat' first
    | refine doneQW_fr ?_ ?_
    | with_reducible assumption
    | with_reducible exact Frame.refl _ _
    | (intro _ _ _)
    | (intro _ _)
    | decide +kernel
    | with_reducible apply Frame.step (linkDisable_frame ..)

def W.trainDone : Nat := fm [F.LNK_HEAD_STATUS_FAILED, F.LNK_TICK_LEAD_LEAD] ||| W.headUp ||| W.sendRotate ||| W.setLink

theorem trainDone_frame (s : State) (h : Nat) : Frame W.trainDone s (State.trainDone s h) := by
  unfold State.trainDone
  repeat' first
    | with_reducible assumption
    | with_reducible exact Frame.refl _ _
    | (intro _ _ _)
    | (intro _ _)
    | decide +kernel
    | with_reducible apply Frame.putF
    | with_reducible apply Frame.setF
    | with_reducible apply Frame.step (headUp_frame ..)
    | with_reducible apply Frame.step (sendRotate_frame ..)
    | with_reducible apply Frame.step (setLink_frame ..)
    | with_reducible apply Frame.ite
    | split
    | (dsimp only; split)

def W.execTrainDone : Nat := W.doneQ ||| W.trainDone

theorem execTrainDone_frame (h : Fin 32) (s : State) : FrameN W.execTrainDone s (execTrainDone h s) := by
  unfold execTrainDone
  repeat' first
    | refine doneQ_fr ?_ ?_
    | with_reducible assumption
    | with_reducible exact Frame.refl _ _
    | (intro _ _ _)
    | (intro _ _)
    | decide +kernel
    | with_reducible apply Frame.step (trainDone_frame ..)

def W.execTrainFail : Nat := W.doneQ ||| W.linkLost ||| em [E.LNK_TRAIN_FAIL]

theorem execTrainFail_frame (h : Fin 32) (s : State) : FrameN W.execTrainFail s (execTrainFail h s) := by
  unfold execTrainFail
  repeat' first
    | refine doneQ_fr ?_ ?_
    | with_reducible assumption
    | with_reducible exact Frame.refl _ _
    | (intro _ _ _)
    | (intro _ _)
    | decide +kernel
    | with_reducible apply linkLost_fr
    | with_reducible apply Frame.ite
    | split
    | (dsimp only; split)

def W.writePrbs : Nat := fm [F.LNK_PRBS_CTL_CHK_EN, F.LNK_PRBS_CTL_GEN_EN, F.LNK_PRBS_CTL_INV, F.LNK_PRBS_CTL_NEAR,
    F.LNK_PRBS_CTL_PAT, F.LNK_PRBS_ERR_LOCK] ||| 2 ^ 16 ||| W.lnkReject ||| W.setLane

theorem writePrbs_frame (s : State) (l w : Nat) : Frame W.writePrbs s (State.writePrbs s l w) := by
  unfold State.writePrbs
  repeat' first
    | with_reducible assumption
    | with_reducible exact Frame.refl _ _
    | (intro _ _ _)
    | (intro _ _)
    | decide +kernel
    | (with_reducible apply Frame.onlyIf; rotate_left; intro _ _)
    | with_reducible apply Frame.bump
    | with_reducible apply Frame.setB
    | with_reducible apply Frame.setF
    | with_reducible apply Frame.step (lnkReject_frame ..)
    | with_reducible apply Frame.step (setLane_frame ..)
    | with_reducible apply Frame.ite
    | split
    | (dsimp only; split)

def W.execPrbsCtlWrite : Nat := W.doneW ||| W.writePrbs

theorem execPrbsCtlWrite_frame (l : Fin 256) (w : BitVec 32) (s : State) : FrameN W.execPrbsCtlWrite s (execPrbsCtlWrite l w
    s) := by
  unfold execPrbsCtlWrite
  repeat' first
    | refine doneW_fr ?_ ?_
    | with_reducible assumption
    | with_reducible exact Frame.refl _ _
    | (intro _ _ _)
    | (intro _ _)
    | decide +kernel
    | with_reducible apply Frame.step (writePrbs_frame ..)

def W.linkCmd : Nat := fm [F.LNK_HFE_CMD_BUSY, F.LNK_HFE_CMD_LANE, F.LNK_HFE_CMD_OP, F.LNK_HFE_CMD_PAT, F.LNK_HFE_CMD_TIMEOUT]
    ||| W.lnkReject ||| W.sendBlock ||| W.updLink

theorem linkCmd_frame (s : State) (h op lane pat : Nat) : Frame W.linkCmd s (State.linkCmd s h op lane pat) := by
  unfold State.linkCmd
  repeat' first
    | with_reducible assumption
    | with_reducible exact Frame.refl _ _
    | (intro _ _ _)
    | (intro _ _)
    | decide +kernel
    | with_reducible apply Frame.setB
    | with_reducible apply Frame.setF
    | with_reducible apply Frame.step (lnkReject_frame ..)
    | with_reducible apply Frame.step (sendBlock_frame ..)
    | with_reducible apply Frame.step (updLink_frame ..)
    | with_reducible apply Frame.ite
    | split
    | (dsimp only; split)

def W.execFarLoopbackD0 : Nat := W.doneW ||| W.linkCmd

theorem execFarLoopbackD0_frame (h : Fin 32) (lane : BitVec 3) (s : State) : FrameN W.execFarLoopbackD0 s (execFarLoopbackD0 h
    lane s) := by
  unfold execFarLoopbackD0
  repeat' first
    | refine doneW_fr ?_ ?_
    | with_reducible assumption
    | with_reducible exact Frame.refl _ _
    | (intro _ _ _)
    | (intro _ _)
    | decide +kernel
    | with_reducible apply Frame.step (linkCmd_frame ..)

def W.execFarLoopbackD1 : Nat := W.doneW ||| W.linkCmd

theorem execFarLoopbackD1_frame (h : Fin 32) (lane : BitVec 3) (s : State) : FrameN W.execFarLoopbackD1 s (execFarLoopbackD1 h
    lane s) := by
  unfold execFarLoopbackD1
  repeat' first
    | refine doneW_fr ?_ ?_
    | with_reducible assumption
    | with_reducible exact Frame.refl _ _
    | (intro _ _ _)
    | (intro _ _)
    | decide +kernel
    | with_reducible apply Frame.step (linkCmd_frame ..)

def W.execFarLoopbackEnd : Nat := W.doneW ||| W.linkCmd

theorem execFarLoopbackEnd_frame (h : Fin 32) (lane : BitVec 3) (s : State) : FrameN W.execFarLoopbackEnd s
    (execFarLoopbackEnd h lane s) := by
  unfold execFarLoopbackEnd
  repeat' first
    | refine doneW_fr ?_ ?_
    | with_reducible assumption
    | with_reducible exact Frame.refl _ _
    | (intro _ _ _)
    | (intro _ _)
    | decide +kernel
    | with_reducible apply Frame.step (linkCmd_frame ..)

def W.execHfeGeneratorStart : Nat := W.doneW ||| W.linkCmd

theorem execHfeGeneratorStart_frame (h : Fin 32) (lane pat : BitVec 3) (s : State) : FrameN W.execHfeGeneratorStart s
    (execHfeGeneratorStart h lane pat s) := by
  unfold execHfeGeneratorStart
  repeat' first
    | refine doneW_fr ?_ ?_
    | with_reducible assumption
    | with_reducible exact Frame.refl _ _
    | (intro _ _ _)
    | (intro _ _)
    | decide +kernel
    | with_reducible apply Frame.step (linkCmd_frame ..)

def W.execHfeGeneratorStop : Nat := W.doneW ||| W.linkCmd

theorem execHfeGeneratorStop_frame (h : Fin 32) (lane : BitVec 3) (s : State) : FrameN W.execHfeGeneratorStop s
    (execHfeGeneratorStop h lane s) := by
  unfold execHfeGeneratorStop
  repeat' first
    | refine doneW_fr ?_ ?_
    | with_reducible assumption
    | with_reducible exact Frame.refl _ _
    | (intro _ _ _)
    | (intro _ _)
    | decide +kernel
    | with_reducible apply Frame.step (linkCmd_frame ..)

def W.execCmdTimeout : Nat := W.outward ||| em [E.LNK_CMD_TIMEOUT] ||| fm [F.LNK_EVT_HEADS_HEAD] ||| fm [F.LNK_HFE_CMD_BUSY,
    F.LNK_HFE_CMD_TIMEOUT]

theorem execCmdTimeout_frame (h : Fin 32) (s : State) : FrameN W.execCmdTimeout s (execCmdTimeout h s) := by
  unfold execCmdTimeout
  repeat' first
    | refine done_fr ?_ ?_
    | with_reducible assumption
    | with_reducible exact Frame.refl _ _
    | (intro _ _ _)
    | (intro _ _)
    | decide +kernel
    | with_reducible apply Frame.setB
    | with_reducible apply raiseLnk_fr
    | with_reducible apply Frame.ite
    | split
    | (dsimp only; split)

def W.writeEye : Nat := fm [F.LNK_EYE_CTL_DWELL, F.LNK_EYE_CTL_HOFS, F.LNK_EYE_CTL_START, F.LNK_EYE_CTL_VOFS,
    F.LNK_EYE_RESULT_DONE]

theorem writeEye_frame (s : State) (l w : Nat) : Frame W.writeEye s (State.writeEye s l w) := by
  unfold State.writeEye
  repeat' first
    | with_reducible assumption
    | with_reducible exact Frame.refl _ _
    | (intro _ _ _)
    | (intro _ _)
    | decide +kernel
    | with_reducible apply Frame.setB
    | with_reducible apply Frame.setF
    | with_reducible apply Frame.ite
    | split
    | (dsimp only; split)

def W.execEyeScanStart : Nat := W.doneW ||| W.writeEye

theorem execEyeScanStart_frame (l : Fin 256) (dwell : BitVec 4) (vofs hofs : BitVec 6) (s : State) : FrameN W.execEyeScanStart
    s (execEyeScanStart l dwell vofs hofs s) := by
  unfold execEyeScanStart
  repeat' first
    | refine doneW_fr ?_ ?_
    | with_reducible assumption
    | with_reducible exact Frame.refl _ _
    | (intro _ _ _)
    | (intro _ _)
    | decide +kernel
    | with_reducible apply Frame.step (writeEye_frame ..)

def W.execEyeScanDone : Nat := W.outward ||| fm [F.LNK_EYE_CTL_START, F.LNK_EYE_RESULT_DONE, F.LNK_EYE_RESULT_ERRORS]

theorem execEyeScanDone_frame (l : Fin 256) (errors : Nat) (s : State) : FrameN W.execEyeScanDone s (execEyeScanDone l errors
    s) := by
  unfold execEyeScanDone
  repeat' first
    | refine done_fr ?_ ?_
    | with_reducible assumption
    | with_reducible exact Frame.refl _ _
    | (intro _ _ _)
    | (intro _ _)
    | decide +kernel
    | with_reducible apply Frame.setB
    | with_reducible apply Frame.setF
    | with_reducible apply Frame.ite
    | split
    | (dsimp only; split)

def W.writeLead : Nat := fm [F.LNK_TICK_LEAD_LEAD, F.LNK_TICK_LEAD_OVR] ||| W.lnkReject

theorem writeLead_frame (s : State) (h w : Nat) : Frame W.writeLead s (State.writeLead s h w) := by
  unfold State.writeLead
  repeat' first
    | with_reducible assumption
    | with_reducible exact Frame.refl _ _
    | (intro _ _ _)
    | (intro _ _)
    | decide +kernel
    | with_reducible apply Frame.setB
    | with_reducible apply Frame.setF
    | with_reducible apply Frame.step (lnkReject_frame ..)
    | with_reducible apply Frame.ite
    | split
    | (dsimp only; split)

def W.execTickLeadWrite : Nat := W.doneW ||| W.writeLead

theorem execTickLeadWrite_frame (h : Fin 32) (w : BitVec 32) (s : State) : FrameN W.execTickLeadWrite s (execTickLeadWrite h w
    s) := by
  unfold execTickLeadWrite
  repeat' first
    | refine doneW_fr ?_ ?_
    | with_reducible assumption
    | with_reducible exact Frame.refl _ _
    | (intro _ _ _)
    | (intro _ _)
    | decide +kernel
    | with_reducible apply Frame.step (writeLead_frame ..)

end Sys2Proof.Laws
end

