-- ==== Sys2Proof/Laws/FrGlbCmds.lean ====
section
/-!
SUPPORT. Frames of the operations of Machine/GlbCmds.lean: one law per operation, with the mask of what it may change.
-/
set_option Elab.async false
set_option linter.unusedTactic false
set_option linter.unreachableTactic false

namespace Sys2Proof.Laws

open Sys2Proof.Machine

def W.withdrawBand : Nat := W.releaseSlot ||| W.setHead ||| W.waitRead

theorem withdrawBand_frame (s : State) (h b : Nat) : Frame W.withdrawBand s (State.withdrawBand s h b) := by
  unfold State.withdrawBand
  repeat' first
    | with_reducible assumption
    | with_reducible exact Frame.refl _ _
    | (intro _ _ _)
    | (intro _ _)
    | decide +kernel
    | (with_reducible apply Frame.forEach; rotate_left; intro _ _ _)
    | with_reducible apply Frame.step (releaseSlot_frame ..)
    | with_reducible apply Frame.step (setHead_frame ..)
    | with_reducible apply Frame.step (waitRead_frame ..)
    | split
    | (dsimp only; split)

def W.homeParks : Nat := W.parkHome ||| W.updWrite ||| W.withdraw

theorem homeParks_frame (s : State) (h : Nat) : Frame W.homeParks s (State.homeParks s h) := by
  unfold State.homeParks
  repeat' first
    | with_reducible assumption
    | with_reducible exact Frame.refl _ _
    | (intro _ _ _)
    | (intro _ _)
    | decide +kernel
    | with_reducible apply Frame.step (parkHome_frame ..)
    | with_reducible apply Frame.step (updWrite_frame ..)
    | with_reducible apply Frame.step (withdraw_frame ..)

def W.requestTakeover : Nat := W.homeParks ||| W.refuse ||| W.startTakeover

theorem requestTakeover_frame (s : State) (h : Nat) : Frame W.requestTakeover s (State.requestTakeover s h) := by
  unfold State.requestTakeover
  repeat' first
    | with_reducible assumption
    | with_reducible exact Frame.refl _ _
    | decide +kernel
    | with_reducible apply Frame.step (homeParks_frame ..)
    | with_reducible apply Frame.step (refuse_frame ..)
    | with_reducible apply Frame.step (startTakeover_frame ..)
    | with_reducible apply Frame.ite
    | split
    | (dsimp only; split)

def W.execTakeoverRequest : Nat := W.doneQW ||| W.requestTakeover

theorem execTakeoverRequest_frame (h : Fin 32) (s : State) : FrameN W.execTakeoverRequest s (execTakeoverRequest h s) := by
  unfold execTakeoverRequest
  repeat' first
    | refine doneQW_fr ?_ ?_
    | with_reducible assumption
    | with_reducible exact Frame.refl _ _
    | (intro _ _ _)
    | (intro _ _)
    | decide +kernel
    | with_reducible apply Frame.step (requestTakeover_frame ..)

def W.requestHandback : Nat := W.handbackDone ||| W.refuse ||| W.updBand ||| W.updWrite ||| W.withdrawBand

theorem requestHandback_frame (s : State) (h : Nat) : Frame W.requestHandback s (State.requestHandback s h) := by
  unfold State.requestHandback
  repeat' first
    | with_reducible assumption
    | with_reducible exact Frame.refl _ _
    | (intro _ _ _)
    | (intro _ _)
    | decide +kernel
    | with_reducible apply Frame.step (handbackDone_frame ..)
    | with_reducible apply Frame.step (refuse_frame ..)
    | with_reducible apply Frame.step (updBand_frame ..)
    | with_reducible apply Frame.step (updWrite_frame ..)
    | with_reducible apply Frame.step (withdrawBand_frame ..)
    | with_reducible apply Frame.ite
    | split
    | (dsimp only; split)

def W.execHandbackRequest : Nat := W.doneQW ||| W.requestHandback

theorem execHandbackRequest_frame (h : Fin 32) (s : State) : FrameN W.execHandbackRequest s (execHandbackRequest h s) := by
  unfold execHandbackRequest
  repeat' first
    | refine doneQW_fr ?_ ?_
    | with_reducible assumption
    | with_reducible exact Frame.refl _ _
    | (intro _ _ _)
    | (intro _ _)
    | decide +kernel
    | with_reducible apply Frame.step (requestHandback_frame ..)

def W.execHandbackDone : Nat := W.doneQ ||| W.handbackDone

theorem execHandbackDone_frame (h : Fin 32) (s : State) : FrameN W.execHandbackDone s (execHandbackDone h s) := by
  unfold execHandbackDone
  repeat' first
    | refine doneQ_fr ?_ ?_
    | with_reducible assumption
    | with_reducible exact Frame.refl _ _
    | (intro _ _ _)
    | (intro _ _)
    | decide +kernel
    | with_reducible apply Frame.step (handbackDone_frame ..)
    | with_reducible apply Frame.ite
    | split
    | (dsimp only; split)

def W.takeoverSeek : Nat := W.issue

theorem takeoverSeek_frame (s : State) (h : Nat) : Frame W.takeoverSeek s (State.takeoverSeek s h) := by
  unfold State.takeoverSeek
  repeat' first
    | with_reducible assumption
    | with_reducible exact Frame.refl _ _
    | (intro _ _ _)
    | (intro _ _)
    | decide +kernel
    | with_reducible apply Frame.step (issue_frame ..)

def W.seededSeek : Nat := W.takeoverSeek ||| W.updBand

theorem seededSeek_frame (s : State) (h : Nat) : Frame W.seededSeek s (State.seededSeek s h) := by
  unfold State.seededSeek
  repeat' first
    | with_reducible assumption
    | with_reducible exact Frame.refl _ _
    | (intro _ _ _)
    | (intro _ _)
    | decide +kernel
    | with_reducible apply Frame.step (takeoverSeek_frame ..)
    | with_reducible apply Frame.step (updBand_frame ..)
    | with_reducible apply Frame.ite
    | split
    | (dsimp only; split)

def W.execTakeoverPartnerFree : Nat := W.doneQ ||| W.seededSeek ||| W.takeoverSeed ||| W.updBand

theorem execTakeoverPartnerFree_frame (h : Fin 32) (s : State) : FrameN W.execTakeoverPartnerFree s (execTakeoverPartnerFree h
    s) := by
  unfold execTakeoverPartnerFree
  repeat' first
    | refine doneQ_fr ?_ ?_
    | with_reducible assumption
    | with_reducible exact Frame.refl _ _
    | (intro _ _ _)
    | (intro _ _)
    | decide +kernel
    | with_reducible apply Frame.step (seededSeek_frame ..)
    | with_reducible apply Frame.step (takeoverSeed_frame ..)
    | with_reducible apply Frame.step (updBand_frame ..)
    | with_reducible apply Frame.ite
    | split
    | (dsimp only; split)

def W.execSeekReissue : Nat := W.doneQ ||| W.takeoverSeek

theorem execSeekReissue_frame (h : Fin 32) (s : State) : FrameN W.execSeekReissue s (execSeekReissue h s) := by
  unfold execSeekReissue
  repeat' first
    | refine doneQ_fr ?_ ?_
    | with_reducible assumption
    | with_reducible exact Frame.refl _ _
    | (intro _ _ _)
    | (intro _ _)
    | decide +kernel
    | with_reducible apply Frame.step (takeoverSeek_frame ..)
    | with_reducible apply Frame.ite
    | split
    | (dsimp only; split)

end Sys2Proof.Laws
end

