-- ==== Sys2Proof/Laws/FrLrnCmds.lean ====
section
/-!
SUPPORT. Frames of the operations of Machine/LrnCmds.lean: one law per operation, with the mask of what it may change.
-/
set_option Elab.async false
set_option linter.unusedTactic false
set_option linter.unreachableTactic false

namespace Sys2Proof.Laws

open Sys2Proof.Machine

def W.execSeedDone : Nat := W.doneQ ||| W.seedDone ||| W.seededSeek

theorem execSeedDone_frame (h : Fin 32) (i : Fin 2) (s : State) : FrameN W.execSeedDone s (execSeedDone h i s) := by
  unfold execSeedDone
  repeat' first
    | refine doneQ_fr ?_ ?_
    | with_reducible assumption
    | with_reducible exact Frame.refl _ _
    | (intro _ _ _)
    | (intro _ _)
    | decide +kernel
    | with_reducible apply Frame.step (seedDone_frame ..)
    | with_reducible apply Frame.step (seededSeek_frame ..)
    | with_reducible apply Frame.ite
    | split
    | (dsimp only; split)

def W.seedLoop1 : Nat := em [E.LRN_SEED_REFUSED] ||| W.seedStart

theorem seedLoop1_frame (s : State) (h i : Nat) : Frame W.seedLoop1 s (State.seedLoop1 s h i) := by
  unfold State.seedLoop1
  repeat' first
    | with_reducible assumption
    | with_reducible exact Frame.refl _ _
    | (intro _ _ _)
    | (intro _ _)
    | decide +kernel
    | with_reducible apply Frame.step (seedStart_frame ..)
    | with_reducible apply raise_fr
    | with_reducible apply Frame.ite
    | with_reducible refine Frame.ofPair (by assumption) ?_
    | split
    | (dsimp only; split)

def W.seedRequest : Nat := em [E.LRN_CFG_REJECT] ||| W.seedLoop1

theorem seedRequest_frame (s : State) (h mask : Nat) : Frame W.seedRequest s (State.seedRequest s h mask) := by
  unfold State.seedRequest
  repeat' first
    | with_reducible assumption
    | with_reducible exact Frame.refl _ _
    | (intro _ _ _)
    | (intro _ _)
    | decide +kernel
    | (with_reducible apply Frame.forEach; rotate_left; intro _ _ _)
    | with_reducible apply Frame.step (seedLoop1_frame ..)
    | with_reducible apply raise_fr
    | with_reducible apply Frame.ite
    | with_reducible refine Frame.ofPair (by assumption) ?_
    | split
    | (dsimp only; split)

def W.execSeedRequest : Nat := W.doneW ||| W.seedRequest

theorem execSeedRequest_frame (h : Fin 32) (loops : BitVec 2) (s : State) : FrameN W.execSeedRequest s (execSeedRequest h
    loops s) := by
  unfold execSeedRequest
  repeat' first
    | refine doneW_fr ?_ ?_
    | with_reducible assumption
    | with_reducible exact Frame.refl _ _
    | (intro _ _ _)
    | (intro _ _)
    | decide +kernel
    | with_reducible apply Frame.step (seedRequest_frame ..)

def W.clearTables : Nat := W.lrnClear

theorem clearTables_frame (s : State) (h mask : Nat) : Frame W.clearTables s (State.clearTables s h mask) := by
  unfold State.clearTables
  repeat' first
    | with_reducible assumption
    | with_reducible exact Frame.refl _ _
    | (intro _ _ _)
    | (intro _ _)
    | decide +kernel
    | (with_reducible apply Frame.forEach; rotate_left; intro _ _ _)
    | with_reducible apply Frame.step (lrnClear_frame ..)

def W.clearLoops : Nat := W.clearTables ||| W.seededSeek

theorem clearLoops_frame (s : State) (h mask : Nat) : Frame W.clearLoops s (State.clearLoops s h mask) := by
  unfold State.clearLoops
  repeat' first
    | with_reducible assumption
    | with_reducible exact Frame.refl _ _
    | decide +kernel
    | with_reducible apply Frame.step (clearTables_frame ..)
    | with_reducible apply Frame.step (seededSeek_frame ..)

def W.execTableClear : Nat := W.clearLoops ||| W.doneQW

theorem execTableClear_frame (h : Fin 32) (loops : BitVec 2) (s : State) : FrameN W.execTableClear s (execTableClear h loops
    s) := by
  unfold execTableClear
  repeat' first
    | refine doneQW_fr ?_ ?_
    | with_reducible assumption
    | with_reducible exact Frame.refl _ _
    | (intro _ _ _)
    | (intro _ _)
    | decide +kernel
    | with_reducible apply Frame.step (clearLoops_frame ..)

end Sys2Proof.Laws
end

