-- ==== Sys2Proof/Laws/FrRing.lean ====
section
/-!
SUPPORT. Frames of the operations of Machine/Ring.lean: one law per operation, with the mask of what it may change.
-/
set_option Elab.async false
set_option linter.unusedTactic false
set_option linter.unreachableTactic false

namespace Sys2Proof.Laws

open Sys2Proof.Machine

def W.updTrl : Nat := 2 ^ 13

theorem updTrl_frame (s : State) (f : TrlS → TrlS) : Frame W.updTrl s (State.updTrl s f) := by
  unfold State.updTrl
  repeat' first
    | with_reducible assumption
    | with_reducible exact Frame.refl _ _
    | decide +kernel
    | (with_reducible refine Frame.upd ?_ rfl ?_ ?_ ?_ ?_ ?_ ?_ ?_ ?_ ?_ ?_ ?_ ?_ ?_ ?_ ?_ ?_ ?_ <;>
        first | with_reducible exact Or.inl rfl | with_reducible exact Or.inr ⟨by decide +kernel, Nat.mod_lt _ (Nat.two_pow_pos 48)⟩ |
          exact Or.inr ⟨by decide +kernel, rfl, rfl⟩ | exact Or.inr ⟨by decide +kernel, rfl⟩ |
          exact Or.inr (by decide +kernel) | skip)

def W.setRole : Nat := fm [F.TRL_LAP_LAP, F.TRL_STATUS_BYP_HOLD, F.TRL_STATUS_ROLE] ||| 2 ^ 17 ||| W.updTrl

theorem setRole_frame (s : State) (r : Nat) : Frame W.setRole s (State.setRole s r) := by
  unfold State.setRole
  repeat' first
    | with_reducible assumption
    | with_reducible exact Frame.refl _ _
    | (intro _ _ _)
    | (intro _ _)
    | decide +kernel
    | with_reducible apply Frame.emit
    | with_reducible apply Frame.setB
    | with_reducible apply Frame.setF
    | with_reducible apply Frame.step (updTrl_frame ..)
    | with_reducible apply Frame.ite
    | split
    | (dsimp only; split)

def W.ringOff : Nat := W.setRole

theorem ringOff_frame (s : State) : Frame W.ringOff s (State.ringOff s) := by
  unfold State.ringOff
  repeat' first
    | with_reducible assumption
    | with_reducible exact Frame.refl _ _
    | decide +kernel
    | with_reducible apply Frame.step (setRole_frame ..)
    | with_reducible apply Frame.ite
    | split
    | (dsimp only; split)

def W.ringStart : Nat := W.setRole

theorem ringStart_frame (s : State) : Frame W.ringStart s (State.ringStart s) := by
  unfold State.ringStart
  repeat' first
    | with_reducible assumption
    | with_reducible exact Frame.refl _ _
    | decide +kernel
    | with_reducible apply Frame.step (setRole_frame ..)
    | with_reducible apply Frame.ite
    | split
    | (dsimp only; split)

end Sys2Proof.Laws
end

