-- ==== Sys2Proof/Laws/FrSledCmds.lean ====
section
/-!
SUPPORT. Frames of the operations of Machine/SledCmds.lean: one law per operation, with the mask of what it may change.
-/
set_option Elab.async false
set_option linter.unusedTactic false
set_option linter.unreachableTactic false

namespace Sys2Proof.Laws

open Sys2Proof.Machine

def W.writeTarget : Nat := em [E.SLD_CFG_REJECT] ||| W.setTarget ||| W.updSld ||| fm [F.SLD_EVT_AXES_AXIS]

theorem writeTarget_frame (s : State) (h w : Nat) : Frame W.writeTarget s (State.writeTarget s h w) := by
  unfold State.writeTarget
  repeat' first
    | with_reducible assumption
    | with_reducible exact Frame.refl _ _
    | (intro _ _ _)
    | (intro _ _)
    | decide +kernel
    | with_reducible apply Frame.step (setTarget_frame ..)
    | with_reducible apply Frame.step (updSld_frame ..)
    | with_reducible apply raiseSld_fr
    | with_reducible apply Frame.ite
    | split
    | (dsimp only; split)

def W.execSledTargetWrite : Nat := W.doneW ||| W.writeTarget

theorem execSledTargetWrite_frame (h : Fin 32) (w : BitVec 32) (s : State) : FrameN W.execSledTargetWrite s
    (execSledTargetWrite h w s) := by
  unfold execSledTargetWrite
  repeat' first
    | refine doneW_fr ?_ ?_
    | with_reducible assumption
    | with_reducible exact Frame.refl _ _
    | (intro _ _ _)
    | (intro _ _)
    | decide +kernel
    | with_reducible apply Frame.step (writeTarget_frame ..)

def W.groupGo : Nat := W.updSld

theorem groupGo_frame (s : State) (mask : Nat) : Frame W.groupGo s (State.groupGo s mask) := by
  unfold State.groupGo
  repeat' first
    | with_reducible assumption
    | with_reducible exact Frame.refl _ _
    | (intro _ _ _)
    | (intro _ _)
    | decide +kernel
    | (with_reducible apply Frame.forEach; rotate_left; intro _ _ _)
    | with_reducible apply Frame.step (updSld_frame ..)
    | with_reducible apply Frame.ite
    | split
    | (dsimp only; split)

def W.execGroupGo : Nat := W.doneW ||| W.groupGo

theorem execGroupGo_frame (w : BitVec 32) (s : State) : FrameN W.execGroupGo s (execGroupGo w s) := by
  unfold execGroupGo
  repeat' first
    | refine doneW_fr ?_ ?_
    | with_reducible assumption
    | with_reducible exact Frame.refl _ _
    | (intro _ _ _)
    | (intro _ _)
    | decide +kernel
    | with_reducible apply Frame.step (groupGo_frame ..)

def W.sledStop : Nat := W.updSld

theorem sledStop_frame (s : State) (h : Nat) : Frame W.sledStop s (State.sledStop s h) := by
  unfold State.sledStop
  repeat' first
    | with_reducible assumption
    | with_reducible exact Frame.refl _ _
    | (intro _ _ _)
    | (intro _ _)
    | decide +kernel
    | with_reducible apply Frame.step (updSld_frame ..)
    | with_reducible apply Frame.ite
    | split
    | (dsimp only; split)

def W.execSledStop : Nat := W.doneW ||| W.sledStop

theorem execSledStop_frame (h : Fin 32) (s : State) : FrameN W.execSledStop s (execSledStop h s) := by
  unfold execSledStop
  repeat' first
    | refine doneW_fr ?_ ?_
    | with_reducible assumption
    | with_reducible exact Frame.refl _ _
    | (intro _ _ _)
    | (intro _ _)
    | decide +kernel
    | with_reducible apply Frame.step (sledStop_frame ..)

def W.sledPark : Nat := W.toPark

theorem sledPark_frame (s : State) (h : Nat) : Frame W.sledPark s (State.sledPark s h) := by
  unfold State.sledPark
  repeat' first
    | with_reducible assumption
    | with_reducible exact Frame.refl _ _
    | decide +kernel
    | with_reducible apply Frame.step (toPark_frame ..)
    | with_reducible apply Frame.ite
    | split
    | (dsimp only; split)

def W.execSledPark : Nat := W.doneW ||| W.sledPark

theorem execSledPark_frame (h : Fin 32) (s : State) : FrameN W.execSledPark s (execSledPark h s) := by
  unfold execSledPark
  repeat' first
    | refine doneW_fr ?_ ?_
    | with_reducible assumption
    | with_reducible exact Frame.refl _ _
    | (intro _ _ _)
    | (intro _ _)
    | decide +kernel
    | with_reducible apply Frame.step (sledPark_frame ..)

def W.execSledHome : Nat := W.doneW ||| W.startHoming

theorem execSledHome_frame (h : Fin 32) (s : State) : FrameN W.execSledHome s (execSledHome h s) := by
  unfold execSledHome
  repeat' first
    | refine doneW_fr ?_ ?_
    | with_reducible assumption
    | with_reducible exact Frame.refl _ _
    | (intro _ _ _)
    | (intro _ _)
    | decide +kernel
    | with_reducible apply Frame.step (startHoming_frame ..)

def W.execSledEnable : Nat := W.axisOn ||| W.doneW ||| fm [F.SLD_CTL_EN]

theorem execSledEnable_frame (h : Fin 32) (s : State) : FrameN W.execSledEnable s (execSledEnable h s) := by
  unfold execSledEnable
  repeat' first
    | refine doneW_fr ?_ ?_
    | with_reducible assumption
    | with_reducible exact Frame.refl _ _
    | (intro _ _ _)
    | (intro _ _)
    | decide +kernel
    | with_reducible apply Frame.setB
    | with_reducible apply Frame.step (axisOn_frame ..)

def W.sledDisable : Nat := fm [F.SLD_CTL_EN] ||| W.axisHeadOff

theorem sledDisable_frame (s : State) (h : Nat) : Frame W.sledDisable s (State.sledDisable s h) := by
  unfold State.sledDisable
  repeat' first
    | with_reducible assumption
    | with_reducible exact Frame.refl _ _
    | (intro _ _ _)
    | (intro _ _)
    | decide +kernel
    | with_reducible apply Frame.setB
    | with_reducible apply Frame.step (axisHeadOff_frame ..)
    | with_reducible apply Frame.ite
    | split
    | (dsimp only; split)

def W.execSledDisable : Nat := W.doneW ||| W.sledDisable

theorem execSledDisable_frame (h : Fin 32) (s : State) : FrameN W.execSledDisable s (execSledDisable h s) := by
  unfold execSledDisable
  repeat' first
    | refine doneW_fr ?_ ?_
    | with_reducible assumption
    | with_reducible exact Frame.refl _ _
    | (intro _ _ _)
    | (intro _ _)
    | decide +kernel
    | with_reducible apply Frame.step (sledDisable_frame ..)

def W.limitHit : Nat := fm [F.SLD_STATUS_HOMED] ||| em [E.SLD_LIMIT_HIT] ||| W.setAxis ||| W.updSld ||| fm
    [F.SLD_EVT_AXES_AXIS]

theorem limitHit_frame (s : State) (h : Nat) : Frame W.limitHit s (State.limitHit s h) := by
  unfold State.limitHit
  repeat' first
    | with_reducible assumption
    | with_reducible exact Frame.refl _ _
    | (intro _ _ _)
    | (intro _ _)
    | decide +kernel
    | with_reducible apply Frame.setB
    | with_reducible apply Frame.step (setAxis_frame ..)
    | with_reducible apply Frame.step (updSld_frame ..)
    | with_reducible apply raiseSld_fr
    | with_reducible apply Frame.ite
    | split
    | (dsimp only; split)

def W.limitChange : Nat := fm [F.SLD_STATUS_SWITCH] ||| W.homeSwitch ||| W.limitHit

theorem limitChange_frame (s : State) (h : Nat) : Frame W.limitChange s (State.limitChange s h) := by
  unfold State.limitChange
  repeat' first
    | with_reducible assumption
    | with_reducible exact Frame.refl _ _
    | (intro _ _ _)
    | (intro _ _)
    | decide +kernel
    | with_reducible apply Frame.setB
    | with_reducible apply Frame.step (homeSwitch_frame ..)
    | with_reducible apply Frame.step (limitHit_frame ..)
    | with_reducible apply Frame.ite
    | split
    | (dsimp only; split)

def W.execLimitDebounced : Nat := W.limitChange ||| W.outward

theorem execLimitDebounced_frame (h : Fin 32) (s : State) : FrameN W.execLimitDebounced s (execLimitDebounced h s) := by
  unfold execLimitDebounced
  repeat' first
    | refine done_fr ?_ ?_
    | with_reducible assumption
    | with_reducible exact Frame.refl _ _
    | (intro _ _ _)
    | (intro _ _)
    | decide +kernel
    | with_reducible apply Frame.step (limitChange_frame ..)

def W.execHomeFail : Nat := W.doneQ ||| W.headFatal ||| W.homeFail ||| W.limitChange

theorem execHomeFail_frame (h : Fin 32) (s : State) : FrameN W.execHomeFail s (execHomeFail h s) := by
  unfold execHomeFail
  repeat' first
    | refine doneQ_fr ?_ ?_
    | with_reducible assumption
    | with_reducible exact Frame.refl _ _
    | (intro _ _ _)
    | (intro _ _)
    | decide +kernel
    | with_reducible apply Frame.step (headFatal_frame ..)
    | with_reducible apply Frame.step (homeFail_frame ..)
    | with_reducible apply Frame.step (limitChange_frame ..)
    | with_reducible apply Frame.ite
    | split
    | (dsimp only; split)

def W.execSldOvr : Nat := W.axisOverrun ||| W.doneQ ||| W.headFatal ||| em [E.TCK_SLD_OVR] ||| fm [F.TCK_OVR_HEADS_HEAD]

theorem execSldOvr_frame (h : Fin 32) (s : State) : FrameN W.execSldOvr s (execSldOvr h s) := by
  unfold execSldOvr
  repeat' first
    | refine doneQ_fr ?_ ?_
    | with_reducible assumption
    | with_reducible exact Frame.refl _ _
    | (intro _ _ _)
    | (intro _ _)
    | decide +kernel
    | with_reducible apply Frame.step (axisOverrun_frame ..)
    | with_reducible apply Frame.step (headFatal_frame ..)
    | with_reducible apply raiseTckHead_fr
    | with_reducible apply Frame.ite
    | split
    | (dsimp only; split)

end Sys2Proof.Laws
end

