-- ==== Sys2Proof/Laws/FrCfgOps.lean ====
section
/-!
SUPPORT. Frames of the operations of Machine/CfgOps.lean: one law per operation, with the mask of what it may change.
-/
set_option Elab.async false
set_option linter.unusedTactic false
set_option linter.unreachableTactic false

namespace Sys2Proof.Laws

open Sys2Proof.Machine

def W.updCfg : Nat := 2 ^ 12

theorem updCfg_frame (s : State) (f : CfgS → CfgS) : Frame W.updCfg s (State.updCfg s f) := by
  unfold State.updCfg
  repeat' first
    | with_reducible assumption
    | with_reducible exact Frame.refl _ _
    | decide +kernel
    | (with_reducible refine Frame.upd ?_ rfl ?_ ?_ ?_ ?_ ?_ ?_ ?_ ?_ ?_ ?_ ?_ ?_ ?_ ?_ ?_ ?_ ?_ <;>
        first | with_reducible exact Or.inl rfl | with_reducible exact Or.inr ⟨by decide +kernel, Nat.mod_lt _ (Nat.two_pow_pos 48)⟩ |
          exact Or.inr ⟨by decide +kernel, rfl, rfl⟩ | exact Or.inr ⟨by decide +kernel, rfl⟩ |
          exact Or.inr (by decide +kernel) | skip)

def W.updFlash : Nat := W.updCfg

theorem updFlash_frame (s : State) (f : FlashS → FlashS) : Frame W.updFlash s (State.updFlash s f) := by
  unfold State.updFlash
  repeat' first
    | with_reducible assumption
    | with_reducible exact Frame.refl _ _
    | (intro _ _ _)
    | (intro _ _)
    | decide +kernel
    | with_reducible apply Frame.step (updCfg_frame ..)

def W.cfgReject : Nat := em [E.CFG_CFG_REJECT]

theorem cfgReject_frame (s : State) : Frame W.cfgReject s (State.cfgReject s) := by
  unfold State.cfgReject
  repeat' first
    | with_reducible assumption
    | with_reducible exact Frame.refl _ _
    | decide +kernel
    | with_reducible apply raise_fr
    | with_reducible refine Frame.ofPair (by assumption) ?_

def W.senseFuses : Nat := fm [F.CFG_KEYS_FUSED, F.CFG_KEYS_REVOKED, F.CFG_SVN_FUSED]

theorem senseFuses_frame (s : State) : Frame W.senseFuses s (State.senseFuses s) := by
  unfold State.senseFuses
  repeat' first
    | with_reducible assumption
    | with_reducible exact Frame.refl _ _
    | (intro _ _ _)
    | (intro _ _)
    | decide +kernel
    | with_reducible apply Frame.setF

def W.fuseCmd : Nat := fm [F.CFG_FUSE_CMD_BUSY, F.CFG_FUSE_CMD_FAIL] ||| 2 ^ 17 ||| W.cfgReject ||| W.updCfg

theorem fuseCmd_frame (s : State) (op confirm slot : Nat) : Frame W.fuseCmd s (State.fuseCmd s op confirm slot) := by
  unfold State.fuseCmd
  repeat' first
    | with_reducible assumption
    | with_reducible exact Frame.refl _ _
    | (intro _ _ _)
    | (intro _ _)
    | decide +kernel
    | with_reducible apply Frame.emit
    | with_reducible apply Frame.setB
    | with_reducible apply Frame.step (cfgReject_frame ..)
    | with_reducible apply Frame.step (updCfg_frame ..)
    | with_reducible apply Frame.ite
    | split
    | (dsimp only; split)

def W.setStage : Nat := fm [F.CFG_STAGE_STATUS_STATE]

theorem setStage_frame (s : State) (n : Nat) : Frame W.setStage s (State.setStage s n) := by
  unfold State.setStage
  repeat' first
    | with_reducible assumption
    | with_reducible exact Frame.refl _ _
    | decide +kernel
    | with_reducible apply Frame.setF

def W.set64 : Nat := 0

theorem set64_fr {m : Nat} {r s : State} (h : Frame m r s) {f g : Field} (hf : m.testBit f.id = true) (hg : m.testBit g.id = true) (v : Nat) :
    Frame m r (s.set64 f g v) := (h.setF hf ..).setF hg ..

def W.showStage : Nat := fm [F.CFG_STAGE_EPOCH_HI_EPOCH, F.CFG_STAGE_EPOCH_LO_EPOCH, F.CFG_STAGE_STATUS_COUNT,
    F.CFG_STAGE_STATUS_RECEIVED]

theorem showStage_frame (s : State) : Frame W.showStage s (State.showStage s) := by
  unfold State.showStage
  repeat' first
    | with_reducible assumption
    | with_reducible exact Frame.refl _ _
    | (intro _ _ _)
    | (intro _ _)
    | decide +kernel
    | with_reducible apply Frame.setF
    | with_reducible apply set64_fr

def W.stageErase : Nat := 2 ^ 17 ||| W.setStage ||| W.showStage ||| W.updCfg ||| W.updFlash

theorem stageErase_frame (s : State) : Frame W.stageErase s (State.stageErase s) := by
  unfold State.stageErase
  repeat' first
    | with_reducible assumption
    | with_reducible exact Frame.refl _ _
    | (intro _ _ _)
    | (intro _ _)
    | decide +kernel
    | with_reducible apply Frame.emit
    | with_reducible apply Frame.step (setStage_frame ..)
    | with_reducible apply Frame.step (showStage_frame ..)
    | with_reducible apply Frame.step (updCfg_frame ..)
    | with_reducible apply Frame.step (updFlash_frame ..)

def W.stageFails : Nat := fm [F.CFG_STAGE_REJECT_FAIL] ||| em [E.CFG_STAGE_FAIL] ||| W.setStage

theorem stageFails_frame (s : State) (cause : Nat) : Frame W.stageFails s (State.stageFails s cause) := by
  unfold State.stageFails
  repeat' first
    | with_reducible assumption
    | with_reducible exact Frame.refl _ _
    | decide +kernel
    | with_reducible apply Frame.setF
    | with_reducible apply Frame.step (setStage_frame ..)
    | with_reducible apply raise_fr
    | with_reducible refine Frame.ofPair (by assumption) ?_

def W.rejectPiece : Nat := fm [F.CFG_STAGE_REJECT_COUNT, F.CFG_STAGE_REJECT_LAST] ||| em [E.CFG_PIECE_REJECT] ||| W.finish

theorem rejectPiece_frame (s : State) (reason : Nat) (pos : Option Nat) : Frame W.rejectPiece s (State.rejectPiece s reason
    pos) := by
  unfold State.rejectPiece
  repeat' first
    | with_reducible assumption
    | with_reducible exact Frame.refl _ _
    | (intro _ _ _)
    | (intro _ _)
    | decide +kernel
    | with_reducible apply Frame.count
    | with_reducible apply Frame.setF
    | with_reducible apply Frame.step (finish_frame ..)
    | with_reducible apply raise_fr
    | with_reducible refine Frame.ofPair (by assumption) ?_
    | split
    | (dsimp only; split)

def W.fixStage : Nat := 2 ^ 17 ||| W.setStage ||| W.showStage ||| W.updFlash

theorem fixStage_frame (s : State) (b : List Nat) : Frame W.fixStage s (State.fixStage s b) := by
  unfold State.fixStage
  repeat' first
    | with_reducible assumption
    | with_reducible exact Frame.refl _ _
    | (intro _ _ _)
    | (intro _ _)
    | decide +kernel
    | with_reducible apply Frame.emit
    | with_reducible apply Frame.step (setStage_frame ..)
    | with_reducible apply Frame.step (showStage_frame ..)
    | with_reducible apply Frame.step (updFlash_frame ..)
    | with_reducible apply Frame.ite
    | split
    | (dsimp only; split)

def W.programPiece : Nat := 2 ^ 17 ||| W.updCfg

theorem programPiece_frame (s : State) (j : PieceJob) : Frame W.programPiece s (State.programPiece s j) := by
  unfold State.programPiece
  repeat' first
    | with_reducible assumption
    | with_reducible exact Frame.refl _ _
    | (intro _ _ _)
    | (intro _ _)
    | decide +kernel
    | with_reducible apply Frame.emit
    | with_reducible apply Frame.step (updCfg_frame ..)

def W.takePiece : Nat := W.finish ||| W.fixStage ||| W.programPiece ||| W.rejectPiece

theorem takePiece_frame (s : State) (j : PieceJob) : Frame W.takePiece s (State.takePiece s j) := by
  unfold State.takePiece
  repeat' first
    | with_reducible assumption
    | with_reducible exact Frame.refl _ _
    | (intro _ _ _)
    | (intro _ _)
    | decide +kernel
    | with_reducible apply Frame.step (finish_frame ..)
    | with_reducible apply Frame.step (fixStage_frame ..)
    | with_reducible apply Frame.step (programPiece_frame ..)
    | with_reducible apply Frame.step (rejectPiece_frame ..)
    | with_reducible apply Frame.ite
    | split
    | (dsimp only; split)

def W.nextPieces : Nat := W.takePiece ||| W.updCfg

theorem nextPieces_frame (s : State) (n : Nat) : Frame W.nextPieces s (s.nextPieces n) := by
  induction n generalizing s with
  | zero => exact Frame.refl _ _
  | succ n ih =>
    unfold State.nextPieces
    split
    · refine (ih _).step ?_ (by simp [subMask])
      exact (takePiece_frame ..).step ((updCfg_frame ..).mono (by decide +kernel)) (by decide +kernel)
    · exact Frame.refl _ _

def W.pieceArrives : Nat := W.nextPieces ||| W.updCfg

theorem pieceArrives_frame (s : State) (j : PieceJob) : Frame W.pieceArrives s (State.pieceArrives s j) := by
  unfold State.pieceArrives
  repeat' first
    | with_reducible assumption
    | with_reducible exact Frame.refl _ _
    | (intro _ _ _)
    | (intro _ _)
    | decide +kernel
    | with_reducible apply Frame.step (nextPieces_frame ..)
    | with_reducible apply Frame.step (updCfg_frame ..)

def W.pieceDone : Nat := 2 ^ 17 ||| W.finish ||| W.nextPieces ||| W.rejectPiece ||| W.setStage ||| W.showStage ||| W.updCfg
    ||| W.updFlash

theorem pieceDone_frame (s : State) (j : PieceJob) (ok : Bool) : Frame W.pieceDone s (State.pieceDone s j ok) := by
  unfold State.pieceDone
  repeat' first
    | with_reducible assumption
    | with_reducible exact Frame.refl _ _
    | (intro _ _ _)
    | (intro _ _)
    | decide +kernel
    | (with_reducible apply Frame.onlyIf; rotate_left; intro _ _)
    | with_reducible apply Frame.emit
    | with_reducible apply Frame.step (finish_frame ..)
    | with_reducible apply Frame.step (nextPieces_frame ..)
    | with_reducible apply Frame.step (rejectPiece_frame ..)
    | with_reducible apply Frame.step (setStage_frame ..)
    | with_reducible apply Frame.step (showStage_frame ..)
    | with_reducible apply Frame.step (updCfg_frame ..)
    | with_reducible apply Frame.step (updFlash_frame ..)
    | with_reducible apply Frame.ite
    | split
    | (dsimp only; split)

def W.writeActive : Nat := 2 ^ 17 ||| W.updFlash

theorem writeActive_frame (s : State) (slot : Nat) : Frame W.writeActive s (State.writeActive s slot) := by
  unfold State.writeActive
  repeat' first
    | with_reducible assumption
    | with_reducible exact Frame.refl _ _
    | (intro _ _ _)
    | (intro _ _)
    | decide +kernel
    | with_reducible apply Frame.emit
    | with_reducible apply Frame.step (updFlash_frame ..)
    | with_reducible apply Frame.ite
    | split
    | (dsimp only; split)

def W.showImage : Nat := fm [F.CFG_DIGEST_BYTES, F.CFG_EPOCH_HI_EPOCH, F.CFG_EPOCH_LO_EPOCH, F.CFG_IMAGE_VER_VER,
    F.CFG_KEYS_RUN_SLOT, F.CFG_STATUS_LOADED, F.CFG_STATUS_SLOT, F.CFG_SVN_RUN] ||| W.updCfg

theorem showImage_frame (s : State) (im : Image) (slot : Nat) : Frame W.showImage s (State.showImage s im slot) := by
  unfold State.showImage
  repeat' first
    | with_reducible assumption
    | with_reducible exact Frame.refl _ _
    | (intro _ _ _)
    | (intro _ _)
    | decide +kernel
    | (with_reducible apply Frame.forEach; rotate_left; intro _ _ _)
    | with_reducible apply Frame.setB
    | with_reducible apply Frame.setF
    | with_reducible apply Frame.step (updCfg_frame ..)
    | with_reducible apply set64_fr

def W.startEnabled : Nat := W.axisOn ||| W.chanEnable ||| W.linkEnable ||| W.ringStart ||| W.regs

theorem startEnabled_frame (s : State) : Frame W.startEnabled s (State.startEnabled s) := by
  unfold State.startEnabled
  repeat' first
    | with_reducible assumption
    | with_reducible exact Frame.refl _ _
    | (intro _ _ _)
    | (intro _ _)
    | decide +kernel
    | (with_reducible apply Frame.forEach; rotate_left; intro _ _ _)
    | with_reducible apply Frame.step (axisOn_frame ..)
    | with_reducible apply Frame.step (chanEnable_frame ..)
    | with_reducible apply Frame.step (linkEnable_frame ..)
    | with_reducible apply Frame.step (ringStart_frame ..)
    | with_reducible apply Frame.ite
    | split
    | (dsimp only; split)

def W.rebuildStage : Nat := W.setStage ||| W.showStage ||| W.stageErase ||| W.updCfg

theorem rebuildStage_frame (s : State) (bad : Bool) (svn : Nat → Nat) : Frame W.rebuildStage s (State.rebuildStage s bad svn)
    := by
  unfold State.rebuildStage
  repeat' first
    | with_reducible assumption
    | with_reducible exact Frame.refl _ _
    | (intro _ _ _)
    | (intro _ _)
    | decide +kernel
    | with_reducible apply Frame.step (setStage_frame ..)
    | with_reducible apply Frame.step (showStage_frame ..)
    | with_reducible apply Frame.step (stageErase_frame ..)
    | with_reducible apply Frame.step (updCfg_frame ..)
    | with_reducible apply Frame.ite
    | split
    | (dsimp only; split)

def W.findPrev : Nat := fm [F.CFG_LOG_STATUS_HELD] ||| W.updCfg ||| W.updFlash

theorem findPrev_frame (s : State) (bad : List Nat) : Frame W.findPrev s (State.findPrev s bad) := by
  unfold State.findPrev
  repeat' first
    | with_reducible assumption
    | with_reducible exact Frame.refl _ _
    | (intro _ _ _)
    | (intro _ _)
    | decide +kernel
    | with_reducible apply Frame.setF
    | with_reducible apply Frame.step (updCfg_frame ..)
    | with_reducible apply Frame.step (updFlash_frame ..)
    | with_reducible apply Frame.ite
    | (with_reducible apply Frame.foldl1; rotate_left; intro _ _ _)
    | (with_reducible apply Frame.foldl; rotate_left; intro _ _ _)
    | split
    | (dsimp only; split)

def W.slotFailed : Nat := fm [F.CFG_LOAD_CAUSE_CAUSE_A, F.CFG_LOAD_CAUSE_CAUSE_B, F.CFG_STATUS_FAIL_CLAUSE,
    F.MEM_STATUS_INIT_FAIL] ||| em [E.MEM_INIT_FAIL] ||| W.deviceFatal

theorem slotFailed_frame (s : State) (slot cause clause : Nat) : Frame W.slotFailed s (State.slotFailed s slot cause clause)
    := by
  unfold State.slotFailed
  repeat' first
    | with_reducible assumption
    | with_reducible exact Frame.refl _ _
    | (intro _ _ _)
    | (intro _ _)
    | decide +kernel
    | with_reducible apply Frame.setB
    | with_reducible apply Frame.setF
    | with_reducible apply deviceFatal_fr
    | with_reducible apply Frame.ite
    | split
    | (dsimp only; split)

def W.runImage : Nat := fm [F.MEM_STATUS_INIT_DONE, F.MEM_STATUS_INIT_FAIL] ||| W.showImage

theorem runImage_frame (s : State) (im : Image) (slot : Nat) : Frame W.runImage s (State.runImage s im slot) := by
  unfold State.runImage
  repeat' first
    | with_reducible assumption
    | with_reducible exact Frame.refl _ _
    | decide +kernel
    | with_reducible apply Frame.setB
    | with_reducible apply Frame.step (showImage_frame ..)

def W.afterLoad : Nat := W.calPendAll ||| W.findPrev ||| W.rebuildStage ||| W.updCfg

theorem afterLoad_frame (s : State) (cause : Nat) (x : LoadIn) : Frame W.afterLoad s (State.afterLoad s cause x) := by
  unfold State.afterLoad
  repeat' first
    | with_reducible assumption
    | with_reducible exact Frame.refl _ _
    | (intro _ _ _)
    | (intro _ _)
    | decide +kernel
    | with_reducible apply Frame.step (calPendAll_frame ..)
    | with_reducible apply Frame.step (findPrev_frame ..)
    | with_reducible apply Frame.step (rebuildStage_frame ..)
    | with_reducible apply Frame.step (updCfg_frame ..)

def W.attempt : Nat := W.clause ||| W.discFollow

theorem attempt_frame {s t : State} {im : Image} (e : s.attempt im = .placed t) : Frame W.attempt s t := by
  unfold State.attempt at e
  dsimp only at e
  repeat' split at e
  all_goals try simp at e
  subst e
  exact (discFollow_frame ..).step ((applySentence_frame (by assumption)).mono (by decide +kernel)) (by decide +kernel)

def W.loadEnds : Nat := fm [F.CFG_KEYS_USABLE, F.CFG_STATUS_FALLBACK, F.CFG_STATUS_LOAD_FAIL, F.HQI_CSTS_NOT_READY] ||| em
    [E.CFG_FALLBACK, E.CFG_LOAD_FAIL] ||| W.afterLoad ||| W.controllerReady ||| W.ringOff ||| W.runImage ||| W.slotFailed |||
    W.startEnabled ||| W.attempt

theorem loadEnds_frame (s : State) (cause : Nat) (x : LoadIn) : Frame W.loadEnds s (State.loadEnds s cause x) := by
  unfold State.loadEnds
  repeat' first
    | with_reducible assumption
    | with_reducible exact Frame.refl _ _
    | (intro _ _ _)
    | (intro _ _)
    | decide +kernel
    | with_reducible refine Frame.step (attempt_frame (by assumption)) ?_ ?_
    | with_reducible apply Frame.setB
    | with_reducible apply Frame.setF
    | with_reducible apply Frame.step (afterLoad_frame ..)
    | with_reducible apply Frame.step (controllerReady_frame ..)
    | with_reducible apply Frame.step (ringOff_frame ..)
    | with_reducible apply Frame.step (runImage_frame ..)
    | with_reducible apply Frame.step (slotFailed_frame ..)
    | with_reducible apply Frame.step (startEnabled_frame ..)
    | with_reducible apply raise_fr
    | with_reducible refine Frame.ofPair (by assumption) ?_
    | split
    | (dsimp only; split)

def W.serveAttest : Nat := 2 ^ 17 ||| W.finish

theorem serveAttest_frame (s : State) (c : Cmd) : Frame W.serveAttest s (State.serveAttest s c) := by
  unfold State.serveAttest
  repeat' first
    | with_reducible assumption
    | with_reducible exact Frame.refl _ _
    | (intro _ _ _)
    | (intro _ _)
    | decide +kernel
    | with_reducible apply Frame.emit
    | with_reducible apply Frame.step (finish_frame ..)
    | with_reducible apply Frame.ite
    | split
    | (dsimp only; split)

def W.serveAttests : Nat := W.serveAttest

theorem serveAttests_frame (s : State) : Frame W.serveAttests s (State.serveAttests s) := by
  unfold State.serveAttests
  repeat' first
    | with_reducible assumption
    | with_reducible exact Frame.refl _ _
    | (intro _ _ _)
    | (intro _ _)
    | decide +kernel
    | (with_reducible apply Frame.forEach; rotate_left; intro _ _ _)
    | with_reducible apply Frame.step (serveAttest_frame ..)
    | with_reducible apply Frame.ite
    | split
    | (dsimp only; split)

def W.signRecord : Nat := fm [F.CFG_BOOT_CTR_CTR, F.CFG_LOG_STATUS_FAILS, F.CFG_LOG_STATUS_HELD, F.CFG_STATUS_RECORD_READY,
    F.CFG_STATUS_RESET_CAUSE] ||| em [E.CFG_LOG_FAIL] ||| 2 ^ 17 ||| W.serveAttests ||| W.updCfg ||| W.updFlash

theorem signRecord_frame (s : State) (cause time : Nat) (logOk : Bool) : Frame W.signRecord s (State.signRecord s cause time
    logOk) := by
  unfold State.signRecord
  repeat' first
    | with_reducible assumption
    | with_reducible exact Frame.refl _ _
    | (intro _ _ _)
    | (intro _ _)
    | decide +kernel
    | (with_reducible apply Frame.onlyIf; rotate_left; intro _ _)
    | with_reducible apply Frame.count
    | with_reducible apply Frame.emit
    | with_reducible apply Frame.setB
    | with_reducible apply Frame.setF
    | with_reducible apply Frame.step (serveAttests_frame ..)
    | with_reducible apply Frame.step (updCfg_frame ..)
    | with_reducible apply Frame.step (updFlash_frame ..)
    | with_reducible apply raise_fr
    | with_reducible apply Frame.ite
    | with_reducible refine Frame.ofPair (by assumption) ?_
    | split
    | (dsimp only; split)

def W.shiftCommit : Nat := fm [F.CFG_SHIFT_FRAME_HI_F_HI, F.CFG_SHIFT_FRAME_LO_F_LO, F.CFG_SHIFT_STATUS_DEFER,
    F.CFG_SHIFT_STATUS_STATE, F.HQI_CSTS_HELD]

theorem shiftCommit_frame (s : State) (f : Nat) : Frame W.shiftCommit s (State.shiftCommit s f) := by
  unfold State.shiftCommit
  repeat' first
    | with_reducible assumption
    | with_reducible exact Frame.refl _ _
    | decide +kernel
    | with_reducible apply Frame.setB
    | with_reducible apply Frame.setF

def W.commitSeen : Nat := W.shiftCommit

theorem commitSeen_frame (s : State) (e f : Nat) : Frame W.commitSeen s (State.commitSeen s e f) := by
  unfold State.commitSeen
  repeat' first
    | with_reducible assumption
    | with_reducible exact Frame.refl _ _
    | decide +kernel
    | with_reducible apply Frame.step (shiftCommit_frame ..)
    | with_reducible apply Frame.ite
    | split
    | (dsimp only; split)

def W.abortSeen : Nat := W.dropStandby ||| W.issueWaiting

theorem abortSeen_frame (s : State) (e : Nat) : Frame W.abortSeen s (State.abortSeen s e) := by
  unfold State.abortSeen
  repeat' first
    | with_reducible assumption
    | with_reducible exact Frame.refl _ _
    | decide +kernel
    | with_reducible apply Frame.step (dropStandby_frame ..)
    | with_reducible apply Frame.step (issueWaiting_frame ..)
    | with_reducible apply Frame.ite
    | split
    | (dsimp only; split)

def W.forSets : Nat := 0

theorem forSets_fr {m : Nat} {r s : State} (h : Frame m r s) {im : Image} {p : Nat → Bool} {f : State → RegDef → Nat → Nat → State}
    (hf : ∀ t d j v, d ∈ allRegs → Frame m r t → Frame m r (f t d j v)) : Frame m r (s.forSets im p f) := by
  unfold State.forSets
  refine h.forEach fun t c ht => ht.forEach fun u i hu => hu.forEach fun w x hw => ?_
  split
  · rename_i d j e
    split at e
    · simp at e
    · exact hf _ _ _ _ (setItemReg_mem e) hw
  · exact hw

def W.resetReg : Nat := 0

theorem resetReg_fr {m : Nat} {r s : State} (h : Frame m r s) {d : RegDef} (hd : regIn m d = true) (i : Nat) : Frame m r (s.resetReg d i) := by
  unfold State.resetReg
  have hl : ∀ x ∈ d.fields, m.testBit x.fld.id = true := fun x hx => (List.all_eq_true.1 hd) x hx
  refine Frame.forEachMem (l := d.fields) h ?_
  intro t x hx ht
  split
  · exact ht.setF (hl x hx) ..
  · exact ht

def W.unplace : Nat := fm [F.CLR_LOOP_CTL_INT_TAP, F.CLR_LOOP_CTL_NSOS, F.CLR_LOOP_CTL_PLACED, F.CLR_LOOP_CTL_SRC] |||
    W.updClr ||| W.updSld ||| W.updWnd

theorem unplace_frame (s : State) : Frame W.unplace s (State.unplace s) := by
  unfold State.unplace
  repeat' first
    | with_reducible assumption
    | with_reducible exact Frame.refl _ _
    | (intro _ _ _)
    | (intro _ _)
    | decide +kernel
    | (with_reducible apply Frame.forEach; rotate_left; intro _ _ _)
    | with_reducible apply Frame.setB
    | with_reducible apply Frame.setF
    | with_reducible apply Frame.step (updClr_frame ..)
    | with_reducible apply Frame.step (updSld_frame ..)
    | with_reducible apply Frame.step (updWnd_frame ..)

def W.placeAll : Nat := W.placeItem ||| W.wireItem

theorem placeAll_frame (s : State) (im : Image) : Frame W.placeAll s (State.placeAll s im) := by
  unfold State.placeAll
  repeat' first
    | with_reducible assumption
    | with_reducible exact Frame.refl _ _
    | (intro _ _ _)
    | (intro _ _)
    | decide +kernel
    | (with_reducible apply Frame.forEach; rotate_left; intro _ _ _)
    | with_reducible refine Frame.step (placeItem_frame (by assumption)) ?_ ?_
    | with_reducible refine Frame.step (wireItem_frame (by assumption)) ?_ ?_
    | (with_reducible apply Frame.getD; intro _ _)
    | with_reducible refine Frame.ofPair (by assumption) ?_
    | split
    | (dsimp only; split)

def W.deckGone : Nat := W.brakeDeck ||| W.headOff ||| W.removeDeck ||| W.volumeGone

theorem deckGone_frame (s : State) (d : Nat) : Frame W.deckGone s (State.deckGone s d) := by
  unfold State.deckGone
  repeat' first
    | with_reducible assumption
    | with_reducible exact Frame.refl _ _
    | (intro _ _ _)
    | (intro _ _)
    | decide +kernel
    | (with_reducible apply Frame.forEach; rotate_left; intro _ _ _)
    | with_reducible apply Frame.step (brakeDeck_frame ..)
    | with_reducible apply Frame.step (headOff_frame ..)
    | with_reducible apply Frame.step (removeDeck_frame ..)
    | with_reducible apply Frame.step (volumeGone_frame ..)
    | with_reducible apply Frame.ite
    | split
    | (dsimp only; split)

def W.trimWays : Nat := W.evict

theorem trimWays_frame (s : State) : Frame W.trimWays s (State.trimWays s) := by
  unfold State.trimWays
  repeat' first
    | with_reducible assumption
    | with_reducible exact Frame.refl _ _
    | (intro _ _ _)
    | (intro _ _)
    | decide +kernel
    | (with_reducible apply Frame.forEach; rotate_left; intro _ _ _)
    | with_reducible apply Frame.step (evict_frame ..)

def W.shiftApply : Nat := fm [F.CFG_SHIFT_STATUS_DEFER, F.CFG_SHIFT_STATUS_STATE] ||| em [E.CFG_SHIFT_LATE] ||| 2 ^ 17 |||
    W.clearTables ||| W.deckGone ||| W.discFollow ||| W.enterMeasure ||| W.placeAll ||| W.showImage ||| W.stageErase |||
    W.trimWays ||| W.unplace ||| W.updCfg ||| W.regs

theorem shiftApply_frame (s : State) (defer : Nat) : Frame W.shiftApply s (State.shiftApply s defer) := by
  unfold State.shiftApply
  repeat' first
    | with_reducible assumption
    | with_reducible exact Frame.refl _ _
    | (intro _ _ _)
    | (intro _ _)
    | decide +kernel
    | exact regIn_mem (by assumption) (by decide +kernel)
    | (with_reducible apply Frame.forEach; rotate_left; intro _ _ _)
    | (with_reducible apply Frame.onlyIf; rotate_left; intro _ _)
    | with_reducible apply Frame.emit
    | with_reducible apply Frame.setF
    | with_reducible apply Frame.step (clearTables_frame ..)
    | with_reducible apply Frame.step (deckGone_frame ..)
    | with_reducible apply Frame.step (discFollow_frame ..)
    | with_reducible apply Frame.step (enterMeasure_frame ..)
    | with_reducible apply Frame.step (placeAll_frame ..)
    | with_reducible apply Frame.step (showImage_frame ..)
    | with_reducible apply Frame.step (stageErase_frame ..)
    | with_reducible apply Frame.step (trimWays_frame ..)
    | with_reducible apply Frame.step (unplace_frame ..)
    | with_reducible apply Frame.step (updCfg_frame ..)
    | with_reducible apply forSets_fr
    | with_reducible apply raise_fr
    | with_reducible apply resetReg_fr
    | with_reducible apply storeReg_fr
    | with_reducible refine Frame.ofPair (by assumption) ?_
    | split
    | (dsimp only; split)

def W.shiftFrame : Nat := fm [F.CFG_SHIFT_STATUS_STATE] ||| W.shiftApply ||| W.shiftStays

theorem shiftFrame_frame (s : State) : Frame W.shiftFrame s (State.shiftFrame s) := by
  unfold State.shiftFrame
  repeat' first
    | with_reducible assumption
    | with_reducible exact Frame.refl _ _
    | (intro _ _ _)
    | (intro _ _)
    | decide +kernel
    | with_reducible apply Frame.setF
    | with_reducible apply Frame.step (shiftApply_frame ..)
    | with_reducible apply Frame.step (shiftStays_frame ..)
    | with_reducible apply Frame.ite
    | split
    | (dsimp only; split)

def W.atStrobe : Nat := 2 ^ 1

theorem atStrobe_fr {m : Nat} {r s : State} (h : Frame m r s) (hm : m.testBit 1 = true) {f : State → State} (hf : ∀ t, Frame m r t → Frame m r (f t)) :
    Frame m r (s.atStrobe f) := by
  unfold State.atStrobe
  dsimp only
  split
  · have h2 : Frame m r { s with tick := (s.tick + 1) % 2 ^ 48 } := Frame.upd h rfl
      (.inr ⟨hm, Nat.mod_lt _ (Nat.two_pow_pos 48)⟩) (.inl rfl) (.inl rfl) (.inl rfl) (.inl rfl) (.inl rfl) (.inl rfl) (.inl rfl)
      (.inl rfl) (.inl rfl) (.inl rfl) (.inl rfl) (.inl rfl) (.inl rfl) (.inl rfl) (.inl rfl) (.inl rfl)
    exact { hf _ h2 with tick := .inl hm, tickLt := h.tickLt }
  · exact h

def W.copyLoads : Nat := W.loadFor

theorem copyLoads_frame (s : State) (im : Image) : Frame W.copyLoads s (State.copyLoads s im) := by
  unfold State.copyLoads
  repeat' first
    | with_reducible assumption
    | with_reducible exact Frame.refl _ _
    | (intro _ _ _)
    | (intro _ _)
    | decide +kernel
    | (with_reducible apply Frame.forEach; rotate_left; intro _ _ _)
    | with_reducible refine Frame.step (loadFor_frame (by assumption)) ?_ ?_
    | with_reducible apply Frame.ite
    | (with_reducible apply Frame.getD; intro _ _)
    | with_reducible refine Frame.ofPair (by assumption) ?_
    | split
    | (dsimp only; split)

end Sys2Proof.Laws
end

