-- ==== Sys2Proof/Laws/FrCfgCmds.lean ====
section
/-!
SUPPORT. Frames of the operations of Machine/CfgCmds.lean: one law per operation, with the mask of what it may change.
-/
set_option Elab.async false
set_option linter.unusedTactic false
set_option linter.unreachableTactic false

namespace Sys2Proof.Laws

open Sys2Proof.Machine

def W.execConfigPiece : Nat := 2 ^ 4 ||| W.beginPages ||| W.doneQ ||| W.requestPages ||| W.updCmd

theorem execConfigPiece_frame (sigOk : Bool) (s : State) : FrameN W.execConfigPiece s (execConfigPiece sigOk s) := by
  unfold execConfigPiece
  repeat' first
    | refine doneQ_fr ?_ ?_
    | with_reducible assumption
    | with_reducible exact Frame.refl _ _
    | (intro _ _ _)
    | (intro _ _)
    | decide +kernel
    | with_reducible apply Frame.step (beginPages_frame ..)
    | with_reducible apply Frame.step (requestPages_frame ..)
    | with_reducible apply Frame.step (updCmd_frame ..)
    | with_reducible apply begin_fr

def W.execConfigArm : Nat := 2 ^ 4 ||| W.doneQ ||| W.finish ||| W.updCfg

theorem execConfigArm_frame (s : State) : FrameN W.execConfigArm s (execConfigArm s) := by
  unfold execConfigArm
  repeat' first
    | refine doneQ_fr ?_ ?_
    | with_reducible assumption
    | with_reducible exact Frame.refl _ _
    | (intro _ _ _)
    | (intro _ _)
    | decide +kernel
    | with_reducible apply Frame.step (finish_frame ..)
    | with_reducible apply Frame.step (updCfg_frame ..)
    | with_reducible apply begin_fr
    | with_reducible apply Frame.ite
    | split
    | (dsimp only; split)

def W.execAttestRead : Nat := 2 ^ 4 ||| W.doneQ ||| W.serveAttest

theorem execAttestRead_frame (s : State) : FrameN W.execAttestRead s (execAttestRead s) := by
  unfold execAttestRead
  repeat' first
    | refine doneQ_fr ?_ ?_
    | with_reducible assumption
    | with_reducible exact Frame.refl _ _
    | (intro _ _ _)
    | (intro _ _)
    | decide +kernel
    | with_reducible apply Frame.step (serveAttest_frame ..)
    | with_reducible apply begin_fr

def W.execSvnCommit : Nat := W.doneW ||| W.fuseCmd

theorem execSvnCommit_frame (confirm : BitVec 8) (s : State) : FrameN W.execSvnCommit s (execSvnCommit confirm s) := by
  unfold execSvnCommit
  repeat' first
    | refine doneW_fr ?_ ?_
    | with_reducible assumption
    | with_reducible exact Frame.refl _ _
    | (intro _ _ _)
    | (intro _ _)
    | decide +kernel
    | with_reducible apply Frame.step (fuseCmd_frame ..)

def W.execKeyRevoke : Nat := W.doneW ||| W.fuseCmd

theorem execKeyRevoke_frame (confirm : BitVec 8) (slot : Fin 4) (s : State) : FrameN W.execKeyRevoke s (execKeyRevoke confirm
    slot s) := by
  unfold execKeyRevoke
  repeat' first
    | refine doneW_fr ?_ ?_
    | with_reducible assumption
    | with_reducible exact Frame.refl _ _
    | (intro _ _ _)
    | (intro _ _)
    | decide +kernel
    | with_reducible apply Frame.step (fuseCmd_frame ..)

def W.fuseDone : Nat := fm [F.CFG_FUSE_CMD_BUSY, F.CFG_FUSE_CMD_FAIL, F.CFG_KEYS_USABLE] ||| em [E.CFG_FUSE_FAIL,
    E.CFG_SVN_COMMITTED] ||| W.senseFuses ||| W.stageFails ||| W.updCfg

theorem fuseDone_frame (s : State) (o : FuseOp) (bad : Nat) : Frame W.fuseDone s (State.fuseDone s o bad) := by
  unfold State.fuseDone
  repeat' first
    | with_reducible assumption
    | with_reducible exact Frame.refl _ _
    | (intro _ _ _)
    | (intro _ _)
    | decide +kernel
    | with_reducible apply Frame.putF
    | with_reducible apply Frame.setB
    | with_reducible apply Frame.step (senseFuses_frame ..)
    | with_reducible apply Frame.step (stageFails_frame ..)
    | with_reducible apply Frame.step (updCfg_frame ..)
    | with_reducible apply raise_fr
    | with_reducible apply Frame.ite
    | with_reducible refine Frame.ofPair (by assumption) ?_
    | split
    | (dsimp only; split)

def W.execFuseProgramDone : Nat := W.doneQ ||| W.fuseDone

theorem execFuseProgramDone_frame (bad : BitVec 64) (s : State) : FrameN W.execFuseProgramDone s (execFuseProgramDone bad s)
    := by
  unfold execFuseProgramDone
  repeat' first
    | refine doneQ_fr ?_ ?_
    | with_reducible assumption
    | with_reducible exact Frame.refl _ _
    | (intro _ _ _)
    | (intro _ _)
    | decide +kernel
    | with_reducible apply Frame.step (fuseDone_frame ..)
    | split
    | (dsimp only; split)

def W.execImageLoadDone : Nat := W.doneQ ||| W.loadEnds

theorem execImageLoadDone_frame (x : LoadIn) (s : State) : FrameN W.execImageLoadDone s (execImageLoadDone x s) := by
  unfold execImageLoadDone
  repeat' first
    | refine doneQ_fr ?_ ?_
    | with_reducible assumption
    | with_reducible exact Frame.refl _ _
    | (intro _ _ _)
    | (intro _ _)
    | decide +kernel
    | with_reducible apply Frame.step (loadEnds_frame ..)
    | with_reducible apply Frame.ite
    | split
    | (dsimp only; split)

def W.execBootRecordSign : Nat := W.doneQ ||| W.signRecord ||| W.updCfg

theorem execBootRecordSign_frame (logOk : Bool) (s : State) : FrameN W.execBootRecordSign s (execBootRecordSign logOk s) := by
  unfold execBootRecordSign
  repeat' first
    | refine doneQ_fr ?_ ?_
    | with_reducible assumption
    | with_reducible exact Frame.refl _ _
    | (intro _ _ _)
    | (intro _ _)
    | decide +kernel
    | with_reducible apply Frame.step (signRecord_frame ..)
    | with_reducible apply Frame.step (updCfg_frame ..)
    | split
    | (dsimp only; split)

def W.execPieceProgrammed : Nat := W.doneQ ||| W.pieceDone

theorem execPieceProgrammed_frame (ok : Bool) (s : State) : FrameN W.execPieceProgrammed s (execPieceProgrammed ok s) := by
  unfold execPieceProgrammed
  repeat' first
    | refine doneQ_fr ?_ ?_
    | with_reducible assumption
    | with_reducible exact Frame.refl _ _
    | (intro _ _ _)
    | (intro _ _)
    | decide +kernel
    | with_reducible apply Frame.step (pieceDone_frame ..)
    | split
    | (dsimp only; split)

def W.execStageVerifyDone : Nat := 2 ^ 17 ||| W.doneQ ||| W.setStage ||| W.stageFails ||| W.updCfg

theorem execStageVerifyDone_frame (f : Stored) (s : State) : FrameN W.execStageVerifyDone s (execStageVerifyDone f s) := by
  unfold execStageVerifyDone
  repeat' first
    | refine doneQ_fr ?_ ?_
    | with_reducible assumption
    | with_reducible exact Frame.refl _ _
    | (intro _ _ _)
    | (intro _ _)
    | decide +kernel
    | with_reducible apply Frame.emit
    | with_reducible apply Frame.step (setStage_frame ..)
    | with_reducible apply Frame.step (stageFails_frame ..)
    | with_reducible apply Frame.step (updCfg_frame ..)
    | with_reducible apply Frame.ite
    | split
    | (dsimp only; split)

def W.execStageCopyDone : Nat := 2 ^ 17 ||| W.doneQ ||| W.setStage ||| W.stageFails ||| W.updFlash ||| em [E.CFG_STAGE_READY]

theorem execStageCopyDone_frame (f : Stored) (s : State) : FrameN W.execStageCopyDone s (execStageCopyDone f s) := by
  unfold execStageCopyDone
  repeat' first
    | refine doneQ_fr ?_ ?_
    | with_reducible assumption
    | with_reducible exact Frame.refl _ _
    | (intro _ _ _)
    | (intro _ _)
    | decide +kernel
    | with_reducible apply Frame.emit
    | with_reducible apply Frame.step (setStage_frame ..)
    | with_reducible apply Frame.step (stageFails_frame ..)
    | with_reducible apply Frame.step (updFlash_frame ..)
    | with_reducible apply raise_fr
    | with_reducible apply Frame.ite
    | with_reducible refine Frame.ofPair (by assumption) ?_
    | split
    | (dsimp only; split)

def W.abandon : Nat := W.cfgReject ||| W.stageErase

theorem abandon_frame (s : State) : Frame W.abandon s (State.abandon s) := by
  unfold State.abandon
  repeat' first
    | with_reducible assumption
    | with_reducible exact Frame.refl _ _
    | decide +kernel
    | with_reducible apply Frame.step (cfgReject_frame ..)
    | with_reducible apply Frame.step (stageErase_frame ..)
    | with_reducible apply Frame.ite
    | split
    | (dsimp only; split)

def W.execStageAbandon : Nat := W.abandon ||| W.doneW

theorem execStageAbandon_frame (s : State) : FrameN W.execStageAbandon s (execStageAbandon s) := by
  unfold execStageAbandon
  repeat' first
    | refine doneW_fr ?_ ?_
    | with_reducible assumption
    | with_reducible exact Frame.refl _ _
    | (intro _ _ _)
    | (intro _ _)
    | decide +kernel
    | with_reducible apply Frame.step (abandon_frame ..)

def W.armed : Nat := fm [F.CFG_SHIFT_STATUS_STATE] ||| em [E.CFG_ARMED] ||| W.finish ||| W.setStage ||| W.shiftCommit |||
    W.updCfg

theorem armed_frame (s : State) (im : Image) (pos : Nat) : Frame W.armed s (State.armed s im pos) := by
  unfold State.armed
  repeat' first
    | with_reducible assumption
    | with_reducible exact Frame.refl _ _
    | (intro _ _ _)
    | (intro _ _)
    | decide +kernel
    | with_reducible apply Frame.setF
    | with_reducible apply Frame.step (finish_frame ..)
    | with_reducible apply Frame.step (setStage_frame ..)
    | with_reducible apply Frame.step (shiftCommit_frame ..)
    | with_reducible apply Frame.step (updCfg_frame ..)
    | with_reducible apply raise_fr
    | with_reducible apply Frame.ite
    | with_reducible refine Frame.ofPair (by assumption) ?_
    | split
    | (dsimp only; split)

def W.execArmPrepared : Nat := W.armed ||| W.doneQ ||| W.finish ||| W.stageFails ||| W.updCfg

theorem execArmPrepared_frame (f : Stored) (s : State) : FrameN W.execArmPrepared s (execArmPrepared f s) := by
  unfold execArmPrepared
  repeat' first
    | refine doneQ_fr ?_ ?_
    | with_reducible assumption
    | with_reducible exact Frame.refl _ _
    | (intro _ _ _)
    | (intro _ _)
    | decide +kernel
    | with_reducible apply Frame.step (armed_frame ..)
    | with_reducible apply Frame.step (finish_frame ..)
    | with_reducible apply Frame.step (stageFails_frame ..)
    | with_reducible apply Frame.step (updCfg_frame ..)
    | with_reducible apply Frame.ite
    | split
    | (dsimp only; split)

def W.execShiftCommitReceived : Nat := W.commitSeen ||| W.doneQ

theorem execShiftCommitReceived_frame (e : BitVec 64) (f : BitVec 40) (s : State) : FrameN W.execShiftCommitReceived s
    (execShiftCommitReceived e f s) := by
  unfold execShiftCommitReceived
  repeat' first
    | refine doneQ_fr ?_ ?_
    | with_reducible assumption
    | with_reducible exact Frame.refl _ _
    | (intro _ _ _)
    | (intro _ _)
    | decide +kernel
    | with_reducible apply Frame.step (commitSeen_frame ..)

def W.execShiftFrameBegin : Nat := 2 ^ 1 ||| W.doneQ ||| W.shiftFrame

theorem execShiftFrameBegin_frame (s : State) : FrameN W.execShiftFrameBegin s (execShiftFrameBegin s) := by
  unfold execShiftFrameBegin
  repeat' first
    | refine doneQ_fr ?_ ?_
    | with_reducible assumption
    | with_reducible exact Frame.refl _ _
    | (intro _ _ _)
    | (intro _ _)
    | decide +kernel
    | with_reducible apply Frame.step (shiftFrame_frame ..)
    | with_reducible apply atStrobe_fr
    | with_reducible apply Frame.ite
    | split
    | (dsimp only; split)

def W.execShiftQuiescent : Nat := 2 ^ 1 ||| W.doneQ ||| W.shiftFrame

theorem execShiftQuiescent_frame (s : State) : FrameN W.execShiftQuiescent s (execShiftQuiescent s) := by
  unfold execShiftQuiescent
  repeat' first
    | refine doneQ_fr ?_ ?_
    | with_reducible assumption
    | with_reducible exact Frame.refl _ _
    | (intro _ _ _)
    | (intro _ _)
    | decide +kernel
    | with_reducible apply Frame.step (shiftFrame_frame ..)
    | with_reducible apply atStrobe_fr
    | with_reducible apply Frame.ite
    | split
    | (dsimp only; split)

def W.execShiftStayTimeout : Nat := 2 ^ 1 ||| W.doneQ ||| W.issueWaiting ||| W.shiftFrame

theorem execShiftStayTimeout_frame (s : State) : FrameN W.execShiftStayTimeout s (execShiftStayTimeout s) := by
  unfold execShiftStayTimeout
  repeat' first
    | refine doneQ_fr ?_ ?_
    | with_reducible assumption
    | with_reducible exact Frame.refl _ _
    | (intro _ _ _)
    | (intro _ _)
    | decide +kernel
    | with_reducible apply Frame.step (issueWaiting_frame ..)
    | with_reducible apply Frame.step (shiftFrame_frame ..)
    | with_reducible apply atStrobe_fr
    | with_reducible apply Frame.ite
    | split
    | (dsimp only; split)

def W.execShiftTablesCopied : Nat := W.copyLoads ||| W.doneQ ||| W.issueWaiting ||| W.signRecord ||| W.updCfg |||
    W.writeActive ||| em [E.CFG_SHIFT_APPLIED] ||| fm [F.CFG_STATUS_FALLBACK, F.HQI_CSTS_HELD]

theorem execShiftTablesCopied_frame (logOk : Bool) (s : State) : FrameN W.execShiftTablesCopied s (execShiftTablesCopied logOk
    s) := by
  unfold execShiftTablesCopied
  repeat' first
    | refine doneQ_fr ?_ ?_
    | with_reducible assumption
    | with_reducible exact Frame.refl _ _
    | (intro _ _ _)
    | (intro _ _)
    | decide +kernel
    | with_reducible apply Frame.setB
    | with_reducible apply Frame.step (copyLoads_frame ..)
    | with_reducible apply Frame.step (issueWaiting_frame ..)
    | with_reducible apply Frame.step (signRecord_frame ..)
    | with_reducible apply Frame.step (updCfg_frame ..)
    | with_reducible apply Frame.step (writeActive_frame ..)
    | with_reducible apply raise_fr
    | with_reducible apply Frame.ite
    | with_reducible refine Frame.ofPair (by assumption) ?_
    | split
    | (dsimp only; split)

end Sys2Proof.Laws
end

