-- ==== Sys2Proof/Laws/FrResets.lean ====
section
/-!
SUPPORT. Frames of the operations of Machine/Resets.lean: one law per operation, with the mask of what it may change.
-/
set_option Elab.async false
set_option linter.unusedTactic false
set_option linter.unreachableTactic false

namespace Sys2Proof.Laws

open Sys2Proof.Machine

/-- The mask of the field numbers a to b. -/
def W.range (a b : Nat) : Nat := (2 ^ (b + 1 - a) - 1) <<< a

theorem range_bit {a b n : Nat} (h : idIn a b n = true) : (W.range a b).testBit n = true := by
  have x : a ≤ n ∧ n ≤ b := by simpa [idIn] using h
  unfold W.range
  rw [Nat.testBit_shiftLeft, Nat.testBit_two_pow_sub_one]
  simp only [ge_iff_le, Bool.and_eq_true, decide_eq_true_eq]
  omega

theorem range_false {m a b n : Nat} (hs : subMask (W.range a b) m = true) (h : m.testBit n = false) : idIn a b n = false := by
  cases e : idIn a b n
  · rfl
  · rw [subMask_testBit hs (range_bit e)] at h
    cases h

theorem eq_false {m k n : Nat} (hs : m.testBit k = true) (h : m.testBit n = false) : (n == k) = false := by
  cases e : n == k
  · rfl
  · rw [eq_of_beq e, hs] at h
    cases h

def W.clearFields : Nat := 0

theorem clearFields_fr {m : Nat} {r s : State} (h : Frame m r s) (p : Nat → Bool) (hp : ∀ n < 20000, m.testBit n = false → p n = false) : Frame m r (s.clearFields p) :=
  h.dropRegs _ fun c hl hc => by simp [hp _ hl hc]

def W.clearFunction : Nat := 2 ^ 3 ||| W.setPf

theorem clearFunction_frame (s : State) (fn : Nat) : Frame W.clearFunction s (State.clearFunction s fn) := by
  unfold State.clearFunction
  repeat' first
    | with_reducible assumption
    | with_reducible exact Frame.refl _ _
    | (intro _ _ _)
    | (intro _ _)
    | decide +kernel
    | with_reducible apply Frame.step (setPf_frame ..)
    | with_reducible apply Frame.ite
    | split
    | (dsimp only; split)
    | (with_reducible refine Frame.upd ?_ rfl ?_ ?_ ?_ ?_ ?_ ?_ ?_ ?_ ?_ ?_ ?_ ?_ ?_ ?_ ?_ ?_ ?_ <;>
        first | with_reducible exact Or.inl rfl | with_reducible exact Or.inr ⟨by decide +kernel, Nat.mod_lt _ (Nat.two_pow_pos 48)⟩ |
          exact Or.inr ⟨by decide +kernel, rfl, rfl⟩ | exact Or.inr ⟨by decide +kernel, rfl⟩ |
          exact Or.inr (by decide +kernel) | skip)

def W.clearWindows : Nat := 2 ^ 3 ||| W.range F.HIF_WIN_BASE_LO_BASE_LO.id F.HIF_WIN_LIVE_SIZE_CTL_EN.id

theorem clearWindows_frame (s : State) : Frame W.clearWindows s s.clearWindows := by
  have h := clearFields_fr (Frame.refl W.clearWindows s) (idIn F.HIF_WIN_BASE_LO_BASE_LO.id F.HIF_WIN_LIVE_SIZE_CTL_EN.id)
    fun n _ hn => range_false (by decide +kernel) hn
  exact Frame.upd h rfl (.inl rfl) (.inl rfl) (.inr (by decide +kernel)) (.inl rfl) (.inl rfl) (.inl rfl) (.inl rfl) (.inl rfl)
    (.inl rfl) (.inl rfl) (.inl rfl) (.inl rfl) (.inl rfl) (.inl rfl) (.inl rfl) (.inl rfl) (.inl rfl)

def W.clearHif : Nat := fm [F.HIF_EVT_FORCED] ||| W.range 3001 3040

theorem clearHif_frame (s : State) : Frame W.clearHif s s.clearHif := by
  refine Frame.setF (clearFields_fr (Frame.refl _ _) _ fun n _ hn => ?_) (by decide +kernel) ..
  rw [range_false (a := 3001) (b := 3040) (by decide +kernel) hn]
  rfl

/-- The registers of the queue pairs. -/
def queueRegs : List RegDef := allRegs.filter fun r => idIn R.HQI_SQ_BASE_LO.base R.HQI_CQ_HEAD.base r.base

def W.clearQueues : Nat := rm [R.HQI_CQ_HEAD, R.HQI_SQ_BASE_LO] ||| 2 ^ 4 ||| fm [F.HQI_CC_EN, F.HQI_CSTS_RDY] ||| W.range
    F.HQI_SQ_BASE_LO_ADDR_LO.id F.HQI_CQ_HEAD_HEAD.id ||| rm queueRegs

theorem clearQueues_frame (s : State) : Frame W.clearQueues s s.clearQueues := by
  have h := clearFields_fr (Frame.refl W.clearQueues s)
    (fun n => n == F.HQI_CC_EN.id || n == F.HQI_CSTS_RDY.id || idIn F.HQI_SQ_BASE_LO_ADDR_LO.id F.HQI_CQ_HEAD_HEAD.id n)
    fun n _ hn => by
      rw [eq_false (k := F.HQI_CC_EN.id) (by decide +kernel) hn, eq_false (k := F.HQI_CSTS_RDY.id) (by decide +kernel) hn,
        range_false (a := F.HQI_SQ_BASE_LO_ADDR_LO.id) (b := F.HQI_CQ_HEAD_HEAD.id) (by decide +kernel) hn]
      rfl
  have h2 : Frame W.clearQueues s { s.clearFields (fun n =>
      n == F.HQI_CC_EN.id || n == F.HQI_CSTS_RDY.id || idIn F.HQI_SQ_BASE_LO_ADDR_LO.id F.HQI_CQ_HEAD_HEAD.id n) with
      hqi := { s.hqi with pairs := Vector.replicate 65 {}, arb := {} } } :=
    Frame.upd h rfl (.inl rfl) (.inl rfl) (.inl rfl) (.inr (by decide +kernel)) (.inl rfl) (.inl rfl) (.inl rfl) (.inl rfl)
      (.inl rfl) (.inl rfl) (.inl rfl) (.inl rfl) (.inl rfl) (.inl rfl) (.inl rfl) (.inl rfl) (.inl rfl)
  unfold State.clearQueues
  dsimp only
  split
  · refine forSets_fr h2 fun t d j v hd ht => ?_
    split
    · rename_i hb
      exact storeReg_fr ht (regIn_mem (l := queueRegs) (List.mem_filter.2 ⟨hd, hb⟩) (by decide +kernel)) ..
    · exact ht
  · exact h2

def W.abortQueues : Nat := W.clearQueues ||| W.deliverHeld ||| W.resetAbort

theorem abortQueues_frame (s : State) : Frame W.abortQueues s (State.abortQueues s) := by
  unfold State.abortQueues
  repeat' first
    | with_reducible assumption
    | with_reducible exact Frame.refl _ _
    | (intro _ _ _)
    | (intro _ _)
    | decide +kernel
    | with_reducible apply Frame.step (clearQueues_frame ..)
    | with_reducible apply Frame.step (deliverHeld_frame ..)
    | with_reducible apply Frame.step (resetAbort_frame ..)

def W.flrPf0 : Nat := fm [F.PWR_RESET_CAUSE_FLR0] ||| em [E.HIF_FLR0] ||| W.abortQueues ||| W.clearFunction ||| W.clearWindows
    ||| W.setPf ||| fm [F.PWR_RESET_CAUSE_LAST]

theorem flrPf0_frame (s : State) : Frame W.flrPf0 s (State.flrPf0 s) := by
  unfold State.flrPf0
  repeat' first
    | with_reducible assumption
    | with_reducible exact Frame.refl _ _
    | (intro _ _ _)
    | (intro _ _)
    | decide +kernel
    | with_reducible apply Frame.step (abortQueues_frame ..)
    | with_reducible apply Frame.step (clearFunction_frame ..)
    | with_reducible apply Frame.step (clearWindows_frame ..)
    | with_reducible apply Frame.step (setPf_frame ..)
    | with_reducible apply raise_fr
    | with_reducible apply resetSource_fr
    | with_reducible refine Frame.ofPair (by assumption) ?_

def W.flrPf1 : Nat := fm [F.PWR_RESET_CAUSE_FLR1] ||| em [E.HIF_FLR1] ||| W.clearFunction ||| W.setPf ||| fm
    [F.PWR_RESET_CAUSE_LAST]

theorem flrPf1_frame (s : State) : Frame W.flrPf1 s (State.flrPf1 s) := by
  unfold State.flrPf1
  repeat' first
    | with_reducible assumption
    | with_reducible exact Frame.refl _ _
    | (intro _ _ _)
    | (intro _ _)
    | decide +kernel
    | with_reducible apply Frame.step (clearFunction_frame ..)
    | with_reducible apply Frame.step (setPf_frame ..)
    | with_reducible apply raise_fr
    | with_reducible apply resetSource_fr
    | with_reducible refine Frame.ofPair (by assumption) ?_

end Sys2Proof.Laws
end

