-- ==== Sys2Proof/Laws/FrHifCmds.lean ====
section
/-!
SUPPORT. Frames of the operations of Machine/HifCmds.lean: one law per operation, with the mask of what it may change.
-/
set_option Elab.async false
set_option linter.unusedTactic false
set_option linter.unreachableTactic false

namespace Sys2Proof.Laws

open Sys2Proof.Machine

def W.execFlrPf0 : Nat := W.doneQ ||| W.flrPf0

theorem execFlrPf0_frame (s : State) : FrameN W.execFlrPf0 s (execFlrPf0 s) := by
  unfold execFlrPf0
  repeat' first
    | refine doneQ_fr ?_ ?_
    | with_reducible assumption
    | with_reducible exact Frame.refl _ _
    | (intro _ _ _)
    | (intro _ _)
    | decide +kernel
    | with_reducible apply Frame.step (flrPf0_frame ..)
    | with_reducible apply Frame.ite
    | split
    | (dsimp only; split)

def W.execFlrPf1 : Nat := W.flrPf1 ||| W.outward

theorem execFlrPf1_frame (s : State) : FrameN W.execFlrPf1 s (execFlrPf1 s) := by
  unfold execFlrPf1
  repeat' first
    | refine done_fr ?_ ?_
    | with_reducible assumption
    | with_reducible exact Frame.refl _ _
    | (intro _ _ _)
    | (intro _ _)
    | decide +kernel
    | with_reducible apply Frame.step (flrPf1_frame ..)
    | with_reducible apply Frame.ite
    | split
    | (dsimp only; split)

def W.resumeFn : Nat := W.deliverHeld ||| W.flushPba ||| W.pump

theorem resumeFn_frame (s : State) (fn : Nat) : Frame W.resumeFn s (State.resumeFn s fn) := by
  unfold State.resumeFn
  repeat' first
    | with_reducible assumption
    | with_reducible exact Frame.refl _ _
    | (intro _ _ _)
    | (intro _ _)
    | decide +kernel
    | with_reducible apply Frame.step (deliverHeld_frame ..)
    | with_reducible apply Frame.step (flushPba_frame ..)
    | with_reducible apply Frame.step (pump_frame ..)
    | with_reducible apply Frame.ite
    | split
    | (dsimp only; split)

def W.execFlrComplete : Nat := W.outward ||| W.resumeFn ||| W.setPf

theorem execFlrComplete_frame (fn : Fin 2) (s : State) : FrameN W.execFlrComplete s (execFlrComplete fn s) := by
  unfold execFlrComplete
  repeat' first
    | refine done_fr ?_ ?_
    | with_reducible assumption
    | with_reducible exact Frame.refl _ _
    | (intro _ _ _)
    | (intro _ _)
    | decide +kernel
    | with_reducible apply Frame.step (resumeFn_frame ..)
    | with_reducible apply Frame.step (setPf_frame ..)
    | with_reducible apply Frame.ite
    | split
    | (dsimp only; split)

def W.setPower : Nat := W.resumeFn ||| W.setPf

theorem setPower_frame (s : State) (fn : Nat) (d3 : Bool) : Frame W.setPower s (State.setPower s fn d3) := by
  unfold State.setPower
  repeat' first
    | with_reducible assumption
    | with_reducible exact Frame.refl _ _
    | (intro _ _ _)
    | (intro _ _)
    | decide +kernel
    | with_reducible apply Frame.step (resumeFn_frame ..)
    | with_reducible apply Frame.step (setPf_frame ..)
    | with_reducible apply Frame.ite
    | split
    | (dsimp only; split)

def W.configRequest : Nat := 2 ^ 17 ||| W.flushPba ||| W.setPf ||| W.setPower

theorem configRequest_frame (s : State) (fn : Nat) (r : CfgReq) : Frame W.configRequest s (State.configRequest s fn r) := by
  unfold State.configRequest
  repeat' first
    | with_reducible assumption
    | with_reducible exact Frame.refl _ _
    | (intro _ _ _)
    | (intro _ _)
    | decide +kernel
    | with_reducible apply Frame.emit
    | with_reducible apply Frame.step (flushPba_frame ..)
    | with_reducible apply Frame.step (setPf_frame ..)
    | with_reducible apply Frame.step (setPower_frame ..)
    | split
    | (dsimp only; split)

def W.execConfigRequest : Nat := 2 ^ 17 ||| W.configRequest ||| W.doneQ

theorem execConfigRequest_frame (fn : Fin 2) (r : CfgReq) (s : State) : FrameN W.execConfigRequest s (execConfigRequest fn r
    s) := by
  unfold execConfigRequest
  repeat' first
    | refine doneQ_fr ?_ ?_
    | with_reducible assumption
    | with_reducible exact Frame.refl _ _
    | (intro _ _ _)
    | (intro _ _)
    | decide +kernel
    | with_reducible apply Frame.emit
    | with_reducible apply Frame.step (configRequest_frame ..)
    | with_reducible apply Frame.ite
    | split
    | (dsimp only; split)

def W.pcieUp : Nat := fm [F.HIF_LINK_DEGRADED, F.HIF_LINK_DL_ACTIVE, F.HIF_LINK_SPEED, F.HIF_LINK_WIDTH] ||| em
    [E.HIF_LINK_DEGRADED] ||| W.deliverHeld ||| W.flushPba ||| W.pump

theorem pcieUp_frame (s : State) (speed width : Nat) : Frame W.pcieUp s (State.pcieUp s speed width) := by
  unfold State.pcieUp
  repeat' first
    | with_reducible assumption
    | with_reducible exact Frame.refl _ _
    | (intro _ _ _)
    | (intro _ _)
    | decide +kernel
    | (with_reducible apply Frame.onlyIf; rotate_left; intro _ _)
    | with_reducible apply Frame.setB
    | with_reducible apply Frame.setF
    | with_reducible apply Frame.step (deliverHeld_frame ..)
    | with_reducible apply Frame.step (flushPba_frame ..)
    | with_reducible apply Frame.step (pump_frame ..)
    | with_reducible apply raise_fr
    | with_reducible apply Frame.ite
    | with_reducible refine Frame.ofPair (by assumption) ?_
    | split
    | (dsimp only; split)

def W.execLinkUp : Nat := W.doneQ ||| W.pcieUp

theorem execLinkUp_frame (speed width : Nat) (s : State) : FrameN W.execLinkUp s (execLinkUp speed width s) := by
  unfold execLinkUp
  repeat' first
    | refine doneQ_fr ?_ ?_
    | with_reducible assumption
    | with_reducible exact Frame.refl _ _
    | (intro _ _ _)
    | (intro _ _)
    | decide +kernel
    | with_reducible apply Frame.step (pcieUp_frame ..)

def W.linkFields : Nat := fm [F.HIF_LINK_DEGRADED, F.HIF_LINK_DL_ACTIVE, F.HIF_LINK_SPEED, F.HIF_LINK_WIDTH]

theorem linkFields_frame (s : State) : Frame W.linkFields s (State.linkFields s) := by
  unfold State.linkFields
  repeat' first
    | with_reducible assumption
    | with_reducible exact Frame.refl _ _
    | decide +kernel
    | with_reducible apply Frame.setB
    | with_reducible apply Frame.setF

def W.pcieDown : Nat := fm [F.HIF_CONTAIN_CAUSE_LINK, F.HIF_LINK_DOWN_CNT] ||| em [E.HIF_LINK_LOST] ||| W.contain |||
    W.linkFields

theorem pcieDown_frame (s : State) : Frame W.pcieDown s (State.pcieDown s) := by
  unfold State.pcieDown
  repeat' first
    | with_reducible assumption
    | with_reducible exact Frame.refl _ _
    | (intro _ _ _)
    | (intro _ _)
    | decide +kernel
    | with_reducible apply Frame.count
    | with_reducible apply Frame.step (linkFields_frame ..)
    | with_reducible apply contain_fr
    | with_reducible apply raise_fr
    | with_reducible apply Frame.ite
    | with_reducible refine Frame.ofPair (by assumption) ?_
    | split
    | (dsimp only; split)

def W.execLinkDown : Nat := W.doneQ ||| W.pcieDown

theorem execLinkDown_frame (s : State) : FrameN W.execLinkDown s (execLinkDown s) := by
  unfold execLinkDown
  repeat' first
    | refine doneQ_fr ?_ ?_
    | with_reducible assumption
    | with_reducible exact Frame.refl _ _
    | (intro _ _ _)
    | (intro _ _)
    | decide +kernel
    | with_reducible apply Frame.step (pcieDown_frame ..)

def W.dropReqs : Nat := 2 ^ 3

theorem dropReqs_frame (s : State) (pos : Nat) : Frame W.dropReqs s (State.dropReqs s pos) := by
  unfold State.dropReqs
  repeat' first
    | with_reducible assumption
    | with_reducible exact Frame.refl _ _
    | (intro _ _ _)
    | (intro _ _)
    | decide +kernel
    | with_reducible apply Frame.ite
    | split
    | (dsimp only; split)
    | (with_reducible refine Frame.upd ?_ rfl ?_ ?_ ?_ ?_ ?_ ?_ ?_ ?_ ?_ ?_ ?_ ?_ ?_ ?_ ?_ ?_ ?_ <;>
        first | with_reducible exact Or.inl rfl | with_reducible exact Or.inr ⟨by decide +kernel, Nat.mod_lt _ (Nat.two_pow_pos 48)⟩ |
          exact Or.inr ⟨by decide +kernel, rfl, rfl⟩ | exact Or.inr ⟨by decide +kernel, rfl⟩ |
          exact Or.inr (by decide +kernel) | skip)

def W.failTransfer : Nat := W.dropReqs ||| W.finish ||| W.padWrite

theorem failTransfer_frame (s : State) (pos : Nat) (st : Status) : Frame W.failTransfer s (State.failTransfer s pos st) := by
  unfold State.failTransfer
  repeat' first
    | with_reducible assumption
    | with_reducible exact Frame.refl _ _
    | decide +kernel
    | with_reducible apply Frame.step (dropReqs_frame ..)
    | with_reducible apply Frame.step (finish_frame ..)
    | with_reducible apply Frame.step (padWrite_frame ..)
    | with_reducible apply Frame.ite
    | split
    | (dsimp only; split)

def W.listArrives : Nat := W.failTransfer ||| W.request ||| W.requestPages ||| W.sendLog ||| W.updCmd

theorem listArrives_frame (s : State) (c : Cmd) (bs : List Nat) : Frame W.listArrives s (State.listArrives s c bs) := by
  unfold State.listArrives
  repeat' first
    | with_reducible assumption
    | with_reducible exact Frame.refl _ _
    | (intro _ _ _)
    | (intro _ _)
    | decide +kernel
    | with_reducible apply Frame.step (failTransfer_frame ..)
    | with_reducible apply Frame.step (requestPages_frame ..)
    | with_reducible apply Frame.step (request_frame ..)
    | with_reducible apply Frame.step (sendLog_frame ..)
    | with_reducible apply Frame.step (updCmd_frame ..)
    | with_reducible apply Frame.ite
    | split
    | (dsimp only; split)

def W.dataArrives : Nat := W.fillDrift ||| W.pieceArrives

theorem dataArrives_frame (s : State) (c : Cmd) (page : Nat) (bs : List Nat) : Frame W.dataArrives s (State.dataArrives s c
    page bs) := by
  unfold State.dataArrives
  repeat' first
    | with_reducible assumption
    | with_reducible exact Frame.refl _ _
    | decide +kernel
    | with_reducible apply Frame.step (fillDrift_frame ..)
    | with_reducible apply Frame.step (pieceArrives_frame ..)
    | with_reducible apply Frame.ite
    | split
    | (dsimp only; split)

def W.delivered : Nat := W.dataArrives ||| W.listArrives ||| W.pairQuiesce ||| W.takeEntry

theorem delivered_frame (s : State) (r : OutReq) (bs : List Nat) : Frame W.delivered s (State.delivered s r bs) := by
  unfold State.delivered
  repeat' first
    | with_reducible assumption
    | with_reducible exact Frame.refl _ _
    | decide +kernel
    | with_reducible apply Frame.step (dataArrives_frame ..)
    | with_reducible apply Frame.step (listArrives_frame ..)
    | with_reducible apply Frame.step (pairQuiesce_frame ..)
    | with_reducible apply Frame.step (takeEntry_frame ..)
    | with_reducible apply Frame.ite
    | split
    | (dsimp only; split)

def W.failReq : Nat := W.failTransfer ||| W.pairQuiesce ||| W.queueErr

theorem failReq_frame (s : State) (r : OutReq) (cause : Nat) : Frame W.failReq s (State.failReq s r cause) := by
  unfold State.failReq
  repeat' first
    | with_reducible assumption
    | with_reducible exact Frame.refl _ _
    | decide +kernel
    | with_reducible apply Frame.step (failTransfer_frame ..)
    | with_reducible apply Frame.step (pairQuiesce_frame ..)
    | with_reducible apply Frame.step (queueErr_frame ..)
    | split
    | (dsimp only; split)

def W.unexpected : Nat := fm [F.HIF_CPL_ERR_UNEXP] ||| em [E.HIF_UNEXP_CPL] ||| W.aer

theorem unexpected_frame (s : State) : Frame W.unexpected s (State.unexpected s) := by
  unfold State.unexpected
  repeat' first
    | with_reducible assumption
    | with_reducible exact Frame.refl _ _
    | decide +kernel
    | with_reducible apply Frame.count
    | with_reducible apply Frame.step (aer_frame ..)
    | with_reducible apply raise_fr
    | with_reducible refine Frame.ofPair (by assumption) ?_

def W.badCompletion : Nat := fm [F.HIF_RX_ERR_POISON_RX] ||| em [E.HIF_POISON_RX] ||| W.aer

theorem badCompletion_frame (s : State) (a : Aer) : Frame W.badCompletion s (State.badCompletion s a) := by
  unfold State.badCompletion
  repeat' first
    | with_reducible assumption
    | with_reducible exact Frame.refl _ _
    | decide +kernel
    | with_reducible apply Frame.count
    | with_reducible apply Frame.step (aer_frame ..)
    | with_reducible apply raise_fr
    | with_reducible refine Frame.ofPair (by assumption) ?_

def W.completion : Nat := 2 ^ 3 ||| W.badCompletion ||| W.delivered ||| W.failReq ||| W.retire ||| W.unexpected

theorem completion_frame (s : State) (tag : Nat) (bytes : List Nat) (st : CplStatus) : Frame W.completion s (State.completion
    s tag bytes st) := by
  unfold State.completion
  repeat' first
    | with_reducible assumption
    | with_reducible exact Frame.refl _ _
    | (intro _ _ _)
    | (intro _ _)
    | decide +kernel
    | with_reducible apply Frame.step (badCompletion_frame ..)
    | with_reducible apply Frame.step (delivered_frame ..)
    | with_reducible apply Frame.step (failReq_frame ..)
    | with_reducible apply Frame.step (retire_frame ..)
    | with_reducible apply Frame.step (unexpected_frame ..)
    | with_reducible apply Frame.ite
    | split
    | (dsimp only; split)
    | (with_reducible refine Frame.upd ?_ rfl ?_ ?_ ?_ ?_ ?_ ?_ ?_ ?_ ?_ ?_ ?_ ?_ ?_ ?_ ?_ ?_ ?_ <;>
        first | with_reducible exact Or.inl rfl | with_reducible exact Or.inr ⟨by decide +kernel, Nat.mod_lt _ (Nat.two_pow_pos 48)⟩ |
          exact Or.inr ⟨by decide +kernel, rfl, rfl⟩ | exact Or.inr ⟨by decide +kernel, rfl⟩ |
          exact Or.inr (by decide +kernel) | skip)

def W.execCompletionReceived : Nat := W.completion ||| W.doneQ

theorem execCompletionReceived_frame (tag : Nat) (bytes : List (BitVec 8)) (st : CplStatus) (s : State) : FrameN
    W.execCompletionReceived s (execCompletionReceived tag bytes st s) := by
  unfold execCompletionReceived
  repeat' first
    | refine doneQ_fr ?_ ?_
    | with_reducible assumption
    | with_reducible exact Frame.refl _ _
    | (intro _ _ _)
    | (intro _ _)
    | decide +kernel
    | with_reducible apply Frame.step (completion_frame ..)
    | with_reducible apply Frame.ite
    | split
    | (dsimp only; split)

def W.cplTimeout : Nat := fm [F.HIF_CPL_ERR_TIMEOUT] ||| em [E.HIF_CPL_TIMEOUT] ||| W.aer ||| W.failReq ||| W.retire

theorem cplTimeout_frame (s : State) (tag : Nat) : Frame W.cplTimeout s (State.cplTimeout s tag) := by
  unfold State.cplTimeout
  repeat' first
    | with_reducible assumption
    | with_reducible exact Frame.refl _ _
    | decide +kernel
    | with_reducible apply Frame.count
    | with_reducible apply Frame.step (aer_frame ..)
    | with_reducible apply Frame.step (failReq_frame ..)
    | with_reducible apply Frame.step (retire_frame ..)
    | with_reducible apply raise_fr
    | with_reducible apply Frame.ite
    | with_reducible refine Frame.ofPair (by assumption) ?_
    | split
    | (dsimp only; split)

def W.execCplTimeout : Nat := W.cplTimeout ||| W.doneQ

theorem execCplTimeout_frame (tag : Nat) (s : State) : FrameN W.execCplTimeout s (execCplTimeout tag s) := by
  unfold execCplTimeout
  repeat' first
    | refine doneQ_fr ?_ ?_
    | with_reducible assumption
    | with_reducible exact Frame.refl _ _
    | (intro _ _ _)
    | (intro _ _)
    | decide +kernel
    | with_reducible apply Frame.step (cplTimeout_frame ..)

def W.peerReject : Nat := fm [F.HIF_RX_ERR_PEER_UR] ||| em [E.HIF_PEER_UR]

theorem peerReject_frame (s : State) : Frame W.peerReject s (State.peerReject s) := by
  unfold State.peerReject
  repeat' first
    | with_reducible assumption
    | with_reducible exact Frame.refl _ _
    | decide +kernel
    | with_reducible apply Frame.count
    | with_reducible apply raise_fr
    | with_reducible refine Frame.ofPair (by assumption) ?_

def W.peerRead1 : Nat := W.hit ||| W.peerLine ||| W.uncorrectable

theorem peerRead1_frame (s : State) (x : CacheErr) (n : Nat) : Frame W.peerRead1 s (State.peerRead1 s x n).1 := by
  unfold State.peerRead1
  repeat' first
    | with_reducible assumption
    | with_reducible exact Frame.refl _ _
    | decide +kernel
    | with_reducible apply Frame.step (hit_frame ..)
    | with_reducible apply Frame.step (peerLine_frame ..)
    | with_reducible apply Frame.step (uncorrectable_frame ..)
    | with_reducible apply Frame.ite
    | with_reducible refine Frame.ofPair (by assumption) ?_
    | split
    | (dsimp only; split)

def W.peerLines : Nat := W.peerRead1

theorem peerLines_frame (s : State) (x : CacheErr) (ls : List Nat) : Frame W.peerLines s (State.peerLines s x ls).1 := by
  unfold State.peerLines
  repeat' first
    | with_reducible assumption
    | with_reducible exact Frame.refl _ _
    | (intro _ _ _)
    | (intro _ _)
    | decide +kernel
    | with_reducible apply Frame.step (peerRead1_frame ..)
    | (with_reducible apply Frame.foldl1; rotate_left; intro _ _ _)
    | (with_reducible apply Frame.foldl; rotate_left; intro _ _ _)
    | with_reducible refine Frame.ofPair (by assumption) ?_
    | split
    | (dsimp only; split)

def W.peerRead : Nat := em [E.LCA_TAG_UE] ||| 2 ^ 17 ||| W.deviceFatal ||| W.peerLines ||| W.peerReject

theorem peerRead_frame (s : State) (off len : Nat) (x : CacheErr) : Frame W.peerRead s (State.peerRead s off len x) := by
  unfold State.peerRead
  repeat' first
    | with_reducible assumption
    | with_reducible exact Frame.refl _ _
    | (intro _ _ _)
    | (intro _ _)
    | decide +kernel
    | with_reducible apply Frame.emit
    | with_reducible apply Frame.step (peerLines_frame ..)
    | with_reducible apply Frame.step (peerReject_frame ..)
    | with_reducible apply deviceFatal_fr
    | with_reducible apply Frame.ite
    | with_reducible refine Frame.ofPair (by assumption) ?_
    | split
    | (dsimp only; split)

def W.execPeerRead : Nat := W.doneQ ||| W.peerRead ||| W.refuseRead

theorem execPeerRead_frame (off : BitVec 30) (len : Nat) (x : CacheErr) (s : State) : FrameN W.execPeerRead s (execPeerRead
    off len x s) := by
  unfold execPeerRead
  repeat' first
    | refine doneQ_fr ?_ ?_
    | with_reducible assumption
    | with_reducible exact Frame.refl _ _
    | (intro _ _ _)
    | (intro _ _)
    | decide +kernel
    | with_reducible apply Frame.step (peerRead_frame ..)
    | with_reducible apply Frame.step (refuseRead_frame ..)
    | with_reducible apply Frame.ite
    | split
    | (dsimp only; split)

def W.peerPuts : Nat := W.peerPut

theorem peerPuts_frame (s : State) (n : Nat) (bytes : List Nat) (k : Nat) : Frame W.peerPuts s (s.peerPuts n bytes k) := by
  induction k generalizing s n bytes with
  | zero => exact Frame.refl _ _
  | succ k ih =>
    unfold State.peerPuts
    exact (ih _ _ _).step ((peerPut_frame ..).mono (by decide +kernel)) (by simp [subMask])

def W.peerWrite : Nat := em [E.LCA_TAG_UE, E.MEM_PARTIAL_DISCARD] ||| W.deviceFatal ||| W.logReject ||| W.peerPuts |||
    W.peerReject

theorem peerWrite_frame (s : State) (off : Nat) (bytes : List Nat) (x : CacheErr) : Frame W.peerWrite s (State.peerWrite s off
    bytes x) := by
  unfold State.peerWrite
  repeat' first
    | with_reducible assumption
    | with_reducible exact Frame.refl _ _
    | (intro _ _ _)
    | (intro _ _)
    | decide +kernel
    | with_reducible apply Frame.step (logReject_frame ..)
    | with_reducible apply Frame.step (peerPuts_frame ..)
    | with_reducible apply Frame.step (peerReject_frame ..)
    | with_reducible apply deviceFatal_fr
    | with_reducible apply raise_fr
    | with_reducible apply Frame.ite
    | with_reducible refine Frame.ofPair (by assumption) ?_
    | split
    | (dsimp only; split)

def W.execPeerWrite : Nat := W.doneQ ||| W.peerWrite

theorem execPeerWrite_frame (off : BitVec 30) (bytes : List (BitVec 8)) (x : CacheErr) (s : State) : FrameN W.execPeerWrite s
    (execPeerWrite off bytes x s) := by
  unfold execPeerWrite
  repeat' first
    | refine doneQ_fr ?_ ?_
    | with_reducible assumption
    | with_reducible exact Frame.refl _ _
    | (intro _ _ _)
    | (intro _ _)
    | decide +kernel
    | with_reducible apply Frame.step (peerWrite_frame ..)
    | with_reducible apply Frame.ite
    | split
    | (dsimp only; split)

def W.windowCommit : Nat := 2 ^ 3

theorem windowCommit_frame (s : State) (mask : Nat) : Frame W.windowCommit s (State.windowCommit s mask) := by
  unfold State.windowCommit
  repeat' first
    | with_reducible assumption
    | with_reducible exact Frame.refl _ _
    | decide +kernel
    | with_reducible apply Frame.ite
    | split
    | (dsimp only; split)
    | (with_reducible refine Frame.upd ?_ rfl ?_ ?_ ?_ ?_ ?_ ?_ ?_ ?_ ?_ ?_ ?_ ?_ ?_ ?_ ?_ ?_ ?_ <;>
        first | with_reducible exact Or.inl rfl | with_reducible exact Or.inr ⟨by decide +kernel, Nat.mod_lt _ (Nat.two_pow_pos 48)⟩ |
          exact Or.inr ⟨by decide +kernel, rfl, rfl⟩ | exact Or.inr ⟨by decide +kernel, rfl⟩ |
          exact Or.inr (by decide +kernel) | skip)

def W.execWindowCommit : Nat := W.doneW ||| W.windowCommit

theorem execWindowCommit_frame (mask : BitVec 8) (s : State) : FrameN W.execWindowCommit s (execWindowCommit mask s) := by
  unfold execWindowCommit
  repeat' first
    | refine doneW_fr ?_ ?_
    | with_reducible assumption
    | with_reducible exact Frame.refl _ _
    | (intro _ _ _)
    | (intro _ _)
    | decide +kernel
    | with_reducible apply Frame.step (windowCommit_frame ..)

def W.goLive : Nat := fm [F.HIF_WIN_BASE_HI_BASE_HI, F.HIF_WIN_BASE_LO_BASE_LO, F.HIF_WIN_LIVE_BASE_HI_BASE_HI,
    F.HIF_WIN_LIVE_BASE_LO_BASE_LO, F.HIF_WIN_LIVE_SIZE_CTL_EN, F.HIF_WIN_LIVE_SIZE_CTL_RD_EN, F.HIF_WIN_LIVE_SIZE_CTL_SIZE,
    F.HIF_WIN_LIVE_SIZE_CTL_WR_EN, F.HIF_WIN_SIZE_CTL_EN, F.HIF_WIN_SIZE_CTL_RD_EN, F.HIF_WIN_SIZE_CTL_SIZE,
    F.HIF_WIN_SIZE_CTL_WR_EN] ||| fm [F.HIF_WIN_LIVE_BASE_LO_BASE_LO, F.HIF_WIN_LIVE_BASE_HI_BASE_HI,
    F.HIF_WIN_LIVE_SIZE_CTL_SIZE, F.HIF_WIN_LIVE_SIZE_CTL_WR_EN, F.HIF_WIN_LIVE_SIZE_CTL_RD_EN, F.HIF_WIN_LIVE_SIZE_CTL_EN]

theorem goLive_frame (s : State) (w : Nat) : Frame W.goLive s (s.goLive w) := by
  unfold State.goLive
  simp only [List.foldl_cons, List.foldl_nil]
  exact (((((((Frame.refl _ _).setF (by decide +kernel) ..).setF (by decide +kernel) ..).setF (by decide +kernel) ..).setF
    (by decide +kernel) ..).setF (by decide +kernel) ..).setF (by decide +kernel) ..)

def W.boundary : Nat := fm [F.HIF_WIN_STATUS_REFUSED, F.HIF_WIN_STATUS_SEQ] ||| em [E.HIF_COMMIT_REJECT] ||| 2 ^ 3 |||
    W.goLive

theorem boundary_frame (s : State) : Frame W.boundary s (State.boundary s) := by
  unfold State.boundary
  repeat' first
    | with_reducible assumption
    | with_reducible exact Frame.refl _ _
    | (intro _ _ _)
    | (intro _ _)
    | decide +kernel
    | (with_reducible apply Frame.forEach; rotate_left; intro _ _ _)
    | with_reducible apply Frame.setB
    | with_reducible apply Frame.setF
    | with_reducible apply Frame.step (goLive_frame ..)
    | with_reducible apply raise_fr
    | with_reducible apply Frame.ite
    | with_reducible refine Frame.ofPair (by assumption) ?_
    | split
    | (dsimp only; split)
    | (with_reducible refine Frame.upd ?_ rfl ?_ ?_ ?_ ?_ ?_ ?_ ?_ ?_ ?_ ?_ ?_ ?_ ?_ ?_ ?_ ?_ ?_ <;>
        first | with_reducible exact Or.inl rfl | with_reducible exact Or.inr ⟨by decide +kernel, Nat.mod_lt _ (Nat.two_pow_pos 48)⟩ |
          exact Or.inr ⟨by decide +kernel, rfl, rfl⟩ | exact Or.inr ⟨by decide +kernel, rfl⟩ |
          exact Or.inr (by decide +kernel) | skip)

def W.execDecodeBoundary : Nat := W.boundary ||| W.outward

theorem execDecodeBoundary_frame (s : State) : FrameN W.execDecodeBoundary s (execDecodeBoundary s) := by
  unfold execDecodeBoundary
  repeat' first
    | refine done_fr ?_ ?_
    | with_reducible assumption
    | with_reducible exact Frame.refl _ _
    | (intro _ _ _)
    | (intro _ _)
    | decide +kernel
    | with_reducible apply Frame.step (boundary_frame ..)

def W.setMsix : Nat := 2 ^ 3

theorem setMsix_frame (s : State) (fn v : Nat) (x : Msix) : Frame W.setMsix s (State.setMsix s fn v x) := by
  unfold State.setMsix
  repeat' first
    | with_reducible assumption
    | with_reducible exact Frame.refl _ _
    | decide +kernel
    | with_reducible apply Frame.ite
    | split
    | (dsimp only; split)
    | (with_reducible refine Frame.upd ?_ rfl ?_ ?_ ?_ ?_ ?_ ?_ ?_ ?_ ?_ ?_ ?_ ?_ ?_ ?_ ?_ ?_ ?_ <;>
        first | with_reducible exact Or.inl rfl | with_reducible exact Or.inr ⟨by decide +kernel, Nat.mod_lt _ (Nat.two_pow_pos 48)⟩ |
          exact Or.inr ⟨by decide +kernel, rfl, rfl⟩ | exact Or.inr ⟨by decide +kernel, rfl⟩ |
          exact Or.inr (by decide +kernel) | skip)

def W.execMsixVectorUnmask : Nat := W.flushPba ||| W.outward ||| W.setMsix

theorem execMsixVectorUnmask_frame (fn : Fin 2) (v : BitVec 8) (s : State) : FrameN W.execMsixVectorUnmask s
    (execMsixVectorUnmask fn v s) := by
  unfold execMsixVectorUnmask
  repeat' first
    | refine done_fr ?_ ?_
    | with_reducible assumption
    | with_reducible exact Frame.refl _ _
    | (intro _ _ _)
    | (intro _ _)
    | decide +kernel
    | with_reducible apply Frame.step (flushPba_frame ..)
    | with_reducible apply Frame.step (setMsix_frame ..)
    | with_reducible apply Frame.ite
    | split
    | (dsimp only; split)

def W.execContainmentForce : Nat := W.contain ||| W.doneW ||| fm [F.HIF_CONTAIN_CAUSE_FORCED]

theorem execContainmentForce_frame (s : State) : FrameN W.execContainmentForce s (execContainmentForce s) := by
  unfold execContainmentForce
  repeat' first
    | refine doneW_fr ?_ ?_
    | with_reducible assumption
    | with_reducible exact Frame.refl _ _
    | (intro _ _ _)
    | (intro _ _)
    | decide +kernel
    | with_reducible apply contain_fr

def W.execContainmentFrozen : Nat := W.outward ||| W.toFrozen

theorem execContainmentFrozen_frame (s : State) : FrameN W.execContainmentFrozen s (execContainmentFrozen s) := by
  unfold execContainmentFrozen
  repeat' first
    | refine done_fr ?_ ?_
    | with_reducible assumption
    | with_reducible exact Frame.refl _ _
    | (intro _ _ _)
    | (intro _ _)
    | decide +kernel
    | with_reducible apply Frame.step (toFrozen_frame ..)

def W.execContainmentRelease : Nat := W.doneQW ||| W.release

theorem execContainmentRelease_frame (s : State) : FrameN W.execContainmentRelease s (execContainmentRelease s) := by
  unfold execContainmentRelease
  repeat' first
    | refine doneQW_fr ?_ ?_
    | with_reducible assumption
    | with_reducible exact Frame.refl _ _
    | (intro _ _ _)
    | (intro _ _)
    | decide +kernel
    | with_reducible apply Frame.step (release_frame ..)

def W.execPf0D3hot : Nat := W.doneQ ||| W.setPower

theorem execPf0D3hot_frame (s : State) : FrameN W.execPf0D3hot s (execPf0D3hot s) := by
  unfold execPf0D3hot
  repeat' first
    | refine doneQ_fr ?_ ?_
    | with_reducible assumption
    | with_reducible exact Frame.refl _ _
    | (intro _ _ _)
    | (intro _ _)
    | decide +kernel
    | with_reducible apply Frame.step (setPower_frame ..)
    | with_reducible apply Frame.ite
    | split
    | (dsimp only; split)

def W.execPf0D0 : Nat := W.doneQ ||| W.setPower

theorem execPf0D0_frame (s : State) : FrameN W.execPf0D0 s (execPf0D0 s) := by
  unfold execPf0D0
  repeat' first
    | refine doneQ_fr ?_ ?_
    | with_reducible assumption
    | with_reducible exact Frame.refl _ _
    | (intro _ _ _)
    | (intro _ _)
    | decide +kernel
    | with_reducible apply Frame.step (setPower_frame ..)
    | with_reducible apply Frame.ite
    | split
    | (dsimp only; split)

def W.execBadRegisterAccess : Nat := 2 ^ 17 ||| W.outward ||| W.refuseRead ||| em [E.HIF_CFG_REJECT]

theorem execBadRegisterAccess_frame (fn : Fin 2) (read : Bool) (s : State) : FrameN W.execBadRegisterAccess s
    (execBadRegisterAccess fn read s) := by
  unfold execBadRegisterAccess
  repeat' first
    | refine done_fr ?_ ?_
    | with_reducible assumption
    | with_reducible exact Frame.refl _ _
    | (intro _ _ _)
    | (intro _ _)
    | decide +kernel
    | (with_reducible apply Frame.onlyIf; rotate_left; intro _ _)
    | with_reducible apply Frame.emit
    | with_reducible apply Frame.step (refuseRead_frame ..)
    | with_reducible apply raise_fr
    | with_reducible apply Frame.ite
    | with_reducible refine Frame.ofPair (by assumption) ?_
    | split
    | (dsimp only; split)

def W.execHotResetReady : Nat := 2 ^ 3 ||| W.outward

theorem execHotResetReady_frame (s : State) : FrameN W.execHotResetReady s (execHotResetReady s) := by
  unfold execHotResetReady
  repeat' first
    | refine done_fr ?_ ?_
    | with_reducible assumption
    | with_reducible exact Frame.refl _ _
    | (intro _ _ _)
    | (intro _ _)
    | decide +kernel
    | with_reducible apply Frame.ite
    | split
    | (dsimp only; split)
    | (with_reducible refine Frame.upd ?_ rfl ?_ ?_ ?_ ?_ ?_ ?_ ?_ ?_ ?_ ?_ ?_ ?_ ?_ ?_ ?_ ?_ ?_ <;>
        first | with_reducible exact Or.inl rfl | with_reducible exact Or.inr ⟨by decide +kernel, Nat.mod_lt _ (Nat.two_pow_pos 48)⟩ |
          exact Or.inr ⟨by decide +kernel, rfl, rfl⟩ | exact Or.inr ⟨by decide +kernel, rfl⟩ |
          exact Or.inr (by decide +kernel) | skip)

end Sys2Proof.Laws
end

