-- ==== Sys2Proof/Laws/FrLcaCmds.lean ====
section
/-!
SUPPORT. Frames of the operations of Machine/LcaCmds.lean: one law per operation, with the mask of what it may change.
-/
set_option Elab.async false
set_option linter.unusedTactic false
set_option linter.unreachableTactic false

namespace Sys2Proof.Laws

open Sys2Proof.Machine

def W.execWayPowerDown : Nat := W.doneW ||| W.tagCheck ||| W.wayDown

theorem execWayPowerDown_frame (w : Fin 16) (x : CacheErr) (s : State) : FrameN W.execWayPowerDown s (execWayPowerDown w x s)
    := by
  unfold execWayPowerDown
  repeat' first
    | refine doneW_fr ?_ ?_
    | with_reducible assumption
    | with_reducible exact Frame.refl _ _
    | (intro _ _ _)
    | (intro _ _)
    | decide +kernel
    | with_reducible apply Frame.step (tagCheck_frame ..)
    | with_reducible apply Frame.step (wayDown_frame ..)

def W.execWayPowerUp : Nat := W.doneW ||| W.wayUp

theorem execWayPowerUp_frame (w : Fin 16) (s : State) : FrameN W.execWayPowerUp s (execWayPowerUp w s) := by
  unfold execWayPowerUp
  repeat' first
    | refine doneW_fr ?_ ?_
    | with_reducible assumption
    | with_reducible exact Frame.refl _ _
    | (intro _ _ _)
    | (intro _ _)
    | decide +kernel
    | with_reducible apply Frame.step (wayUp_frame ..)

def W.execWayOff : Nat := W.outward ||| W.tagCheck ||| W.wayOffDone

theorem execWayOff_frame (w : Fin 16) (x : CacheErr) (s : State) : FrameN W.execWayOff s (execWayOff w x s) := by
  unfold execWayOff
  repeat' first
    | refine done_fr ?_ ?_
    | with_reducible assumption
    | with_reducible exact Frame.refl _ _
    | (intro _ _ _)
    | (intro _ _)
    | decide +kernel
    | with_reducible apply Frame.step (tagCheck_frame ..)
    | with_reducible apply Frame.step (wayOffDone_frame ..)

def W.execWayOn : Nat := W.outward ||| W.wayOnDone

theorem execWayOn_frame (w : Fin 16) (s : State) : FrameN W.execWayOn s (execWayOn w s) := by
  unfold execWayOn
  repeat' first
    | refine done_fr ?_ ?_
    | with_reducible assumption
    | with_reducible exact Frame.refl _ _
    | (intro _ _ _)
    | (intro _ _)
    | decide +kernel
    | with_reducible apply Frame.step (wayOnDone_frame ..)

def W.lcaFields : Nat := fm [F.LCA_OP_FORCE, F.LCA_OP_MODE, F.LCA_OP_OP, F.LCA_OP_WAY]

theorem lcaFields_frame (s : State) (op : Nat) (place force : Bool) (way : Nat) : Frame W.lcaFields s (State.lcaFields s op
    place force way) := by
  unfold State.lcaFields
  repeat' first
    | with_reducible assumption
    | with_reducible exact Frame.refl _ _
    | decide +kernel
    | with_reducible apply Frame.setB
    | with_reducible apply Frame.setF

def W.execLcaClean : Nat := W.doneW ||| W.lcaFields ||| W.lcaMaintain

theorem execLcaClean_frame (place force : Bool) (x : CacheErr) (s : State) : FrameN W.execLcaClean s (execLcaClean place force
    x s) := by
  unfold execLcaClean
  repeat' first
    | refine doneW_fr ?_ ?_
    | with_reducible assumption
    | with_reducible exact Frame.refl _ _
    | (intro _ _ _)
    | (intro _ _)
    | decide +kernel
    | with_reducible apply Frame.step (lcaFields_frame ..)
    | with_reducible apply Frame.step (lcaMaintain_frame ..)

def W.execLcaInvalidate : Nat := W.doneW ||| W.lcaFields ||| W.lcaMaintain

theorem execLcaInvalidate_frame (place force : Bool) (x : CacheErr) (s : State) : FrameN W.execLcaInvalidate s
    (execLcaInvalidate place force x s) := by
  unfold execLcaInvalidate
  repeat' first
    | refine doneW_fr ?_ ?_
    | with_reducible assumption
    | with_reducible exact Frame.refl _ _
    | (intro _ _ _)
    | (intro _ _)
    | decide +kernel
    | with_reducible apply Frame.step (lcaFields_frame ..)
    | with_reducible apply Frame.step (lcaMaintain_frame ..)

def W.execLcaCleanInvalidate : Nat := W.doneW ||| W.lcaFields ||| W.lcaMaintain

theorem execLcaCleanInvalidate_frame (place force : Bool) (x : CacheErr) (s : State) : FrameN W.execLcaCleanInvalidate s
    (execLcaCleanInvalidate place force x s) := by
  unfold execLcaCleanInvalidate
  repeat' first
    | refine doneW_fr ?_ ?_
    | with_reducible assumption
    | with_reducible exact Frame.refl _ _
    | (intro _ _ _)
    | (intro _ _)
    | decide +kernel
    | with_reducible apply Frame.step (lcaFields_frame ..)
    | with_reducible apply Frame.step (lcaMaintain_frame ..)

def W.execLcaPreload : Nat := W.doneW ||| W.lcaFields ||| W.lcaPreload

theorem execLcaPreload_frame (w : Fin 16) (x : CacheErr) (s : State) : FrameX W.execLcaPreload s (execLcaPreload w x s) := by
  unfold execLcaPreload
  split
  · intro t h
    cases h
  · exact FrameN.toX (doneW_fr (by decide +kernel) fun t ht =>
      (lcaPreload_frame ..).step ((lcaFields_frame ..).step ht (by decide +kernel)) (by decide +kernel))

def W.execOpDone : Nat := W.lcaDone ||| W.outward

theorem execOpDone_frame (s : State) : FrameN W.execOpDone s (execOpDone s) := by
  unfold execOpDone
  repeat' first
    | refine done_fr ?_ ?_
    | with_reducible assumption
    | with_reducible exact Frame.refl _ _
    | (intro _ _ _)
    | (intro _ _)
    | decide +kernel
    | with_reducible apply Frame.step (lcaDone_frame ..)

end Sys2Proof.Laws
end

