-- ==== Sys2Proof/Laws/FrMemCmds.lean ====
section
/-!
SUPPORT. Frames of the operations of Machine/MemCmds.lean: one law per operation, with the mask of what it may change.
-/
set_option Elab.async false
set_option linter.unusedTactic false
set_option linter.unreachableTactic false

namespace Sys2Proof.Laws

open Sys2Proof.Machine

def W.updMem : Nat := 2 ^ 11

theorem updMem_fr {m : Nat} {r s : State} (h : Frame m r s) (hm : m.testBit 11 = true) {f : MemS → MemS} (hf : ∀ x, (f x).dram = x.dram ∧ (f x).chk = x.chk) :
    Frame m r (s.updMem f) :=
  Frame.upd h rfl (.inl rfl) (.inl rfl) (.inl rfl) (.inl rfl) (.inl rfl) (.inl rfl) (.inl rfl) (.inl rfl) (.inl rfl) (.inl rfl)
    (.inr ⟨hm, hf _⟩) (.inl rfl) (.inl rfl) (.inl rfl) (.inl rfl) (.inl rfl) (.inl rfl)

def W.memReject : Nat := em [E.MEM_CFG_REJECT]

theorem memReject_frame (s : State) : Frame W.memReject s (State.memReject s) := by
  unfold State.memReject
  repeat' first
    | with_reducible assumption
    | with_reducible exact Frame.refl _ _
    | decide +kernel
    | with_reducible apply raise_fr
    | with_reducible refine Frame.ofPair (by assumption) ?_

def W.scrubGo : Nat := fm [F.MEM_DSCRUB_STATUS_BUSY, F.MEM_DSCRUB_STATUS_DONE, F.MEM_DSCRUB_STATUS_STOPPED] ||| 2 ^ 11 |||
    W.memReject

theorem scrubGo_frame (s : State) : Frame W.scrubGo s (State.scrubGo s) := by
  unfold State.scrubGo
  repeat' first
    | with_reducible assumption
    | with_reducible exact Frame.refl _ _
    | (intro _ _ _)
    | (intro _ _)
    | decide +kernel
    | with_reducible apply Frame.setB
    | with_reducible apply Frame.step (memReject_frame ..)
    | with_reducible refine updMem_fr ?_ ?_ (by intro _; exact ⟨rfl, rfl⟩)
    | with_reducible apply Frame.ite
    | split
    | (dsimp only; split)

def W.execDramScrubGo : Nat := W.doneW ||| W.scrubGo

theorem execDramScrubGo_frame (s : State) : FrameN W.execDramScrubGo s (execDramScrubGo s) := by
  unfold execDramScrubGo
  repeat' first
    | refine doneW_fr ?_ ?_
    | with_reducible assumption
    | with_reducible exact Frame.refl _ _
    | (intro _ _ _)
    | (intro _ _)
    | decide +kernel
    | with_reducible apply Frame.step (scrubGo_frame ..)

def W.scrubStop : Nat := 2 ^ 11

theorem scrubStop_frame (s : State) : Frame W.scrubStop s (State.scrubStop s) := by
  unfold State.scrubStop
  repeat' first
    | with_reducible assumption
    | with_reducible exact Frame.refl _ _
    | (intro _ _ _)
    | (intro _ _)
    | decide +kernel
    | with_reducible refine updMem_fr ?_ ?_ (by intro _; exact ⟨rfl, rfl⟩)

def W.execDramScrubStop : Nat := W.doneW ||| W.scrubStop

theorem execDramScrubStop_frame (s : State) : FrameN W.execDramScrubStop s (execDramScrubStop s) := by
  unfold execDramScrubStop
  repeat' first
    | refine doneW_fr ?_ ?_
    | with_reducible assumption
    | with_reducible exact Frame.refl _ _
    | (intro _ _ _)
    | (intro _ _)
    | decide +kernel
    | with_reducible apply Frame.step (scrubStop_frame ..)

def W.scrubLine : Nat := W.correctedErr ||| W.putLine ||| W.uncorrectable

theorem scrubLine_frame (s : State) (n : Nat) : Frame W.scrubLine s (State.scrubLine s n).1 := by
  unfold State.scrubLine
  repeat' first
    | with_reducible assumption
    | with_reducible exact Frame.refl _ _
    | decide +kernel
    | with_reducible apply Frame.step (correctedErr_frame ..)
    | with_reducible apply Frame.step (putLine_frame ..)
    | with_reducible apply Frame.step (uncorrectable_frame ..)
    | split
    | (dsimp only; split)

def W.scrubSummary : Nat := fm [F.MEM_DSCRUB_CE_COUNT, F.MEM_DSCRUB_FIRST_LINE, F.MEM_DSCRUB_LAST_LINE, F.MEM_DSCRUB_UE_COUNT,
    F.MEM_DSCRUB_WINFO_CWS, F.MEM_DSCRUB_WINFO_DEVICE, F.MEM_DSCRUB_WINFO_UE, F.MEM_DSCRUB_WORST_LINE]

theorem scrubSummary_frame (s : State) (l : List ScrubHit) : Frame W.scrubSummary s (State.scrubSummary s l) := by
  unfold State.scrubSummary
  repeat' first
    | with_reducible assumption
    | with_reducible exact Frame.refl _ _
    | (intro _ _ _)
    | (intro _ _)
    | decide +kernel
    | with_reducible apply Frame.setB
    | with_reducible apply Frame.setF
    | split
    | (dsimp only; split)

def W.scrubDone : Nat := fm [F.MEM_DSCRUB_STATUS_BUSY, F.MEM_DSCRUB_STATUS_DONE, F.MEM_DSCRUB_STATUS_LINES,
    F.MEM_DSCRUB_STATUS_STOPPED] ||| em [E.MEM_SCRUB_DONE] ||| 2 ^ 11 ||| W.scrubLine ||| W.scrubSummary

theorem scrubDone_frame (s : State) (last : Nat) : Frame W.scrubDone s (State.scrubDone s last) := by
  unfold State.scrubDone
  repeat' first
    | with_reducible assumption
    | with_reducible exact Frame.refl _ _
    | (intro _ _ _)
    | (intro _ _)
    | decide +kernel
    | with_reducible apply Frame.setB
    | with_reducible apply Frame.setF
    | with_reducible apply Frame.step (scrubLine_frame ..)
    | with_reducible apply Frame.step (scrubSummary_frame ..)
    | with_reducible apply raise_fr
    | with_reducible refine updMem_fr ?_ ?_ (by intro _; exact ⟨rfl, rfl⟩)
    | with_reducible apply Frame.ite
    | (with_reducible apply Frame.foldl1; rotate_left; intro _ _ _)
    | (with_reducible apply Frame.foldl; rotate_left; intro _ _ _)
    | with_reducible refine Frame.ofPair (by assumption) ?_
    | split
    | (dsimp only; split)

def W.execScrubDone : Nat := W.outward ||| W.scrubDone

theorem execScrubDone_frame (last : BitVec 31) (s : State) : FrameN W.execScrubDone s (execScrubDone last s) := by
  unfold execScrubDone
  repeat' first
    | refine done_fr ?_ ?_
    | with_reducible assumption
    | with_reducible exact Frame.refl _ _
    | (intro _ _ _)
    | (intro _ _)
    | decide +kernel
    | with_reducible apply Frame.step (scrubDone_frame ..)

def W.scrubEntry : Nat := W.correctedErr ||| W.goodCheck ||| W.uncorrectable ||| rm tableRegs

theorem scrubEntry_frame (s : State) (a : Nat) : Frame W.scrubEntry s (State.scrubEntry s a) := by
  unfold State.scrubEntry
  repeat' first
    | with_reducible assumption
    | with_reducible exact Frame.refl _ _
    | decide +kernel
    | exact regIn_table (by assumption) (by decide +kernel)
    | with_reducible apply Frame.step (correctedErr_frame ..)
    | with_reducible apply Frame.step (uncorrectable_frame ..)
    | with_reducible apply putEntry_fr
    | split
    | (dsimp only; split)

def W.scrubLap : Nat := fm [F.MEM_SSCRUB_STATUS_LAP, F.MEM_SSCRUB_STATUS_LAPS] ||| em [E.MEM_SCRUB_SLOW] ||| W.scrubEntry

theorem scrubLap_frame (s : State) (ms : Nat) : Frame W.scrubLap s (State.scrubLap s ms) := by
  unfold State.scrubLap
  repeat' first
    | with_reducible assumption
    | with_reducible exact Frame.refl _ _
    | (intro _ _ _)
    | (intro _ _)
    | decide +kernel
    | (with_reducible apply Frame.forEach; rotate_left; intro _ _ _)
    | with_reducible apply Frame.count
    | with_reducible apply Frame.setF
    | with_reducible apply Frame.step (scrubEntry_frame ..)
    | with_reducible apply raise_fr
    | with_reducible apply Frame.ite
    | with_reducible refine Frame.ofPair (by assumption) ?_
    | split
    | (dsimp only; split)

def W.execScrubLap : Nat := W.outward ||| W.scrubLap

theorem execScrubLap_frame (ms : Nat) (s : State) : FrameN W.execScrubLap s (execScrubLap ms s) := by
  unfold execScrubLap
  repeat' first
    | refine done_fr ?_ ?_
    | with_reducible assumption
    | with_reducible exact Frame.refl _ _
    | (intro _ _ _)
    | (intro _ _)
    | decide +kernel
    | with_reducible apply Frame.step (scrubLap_frame ..)

def W.leak : Nat := fm [F.MEM_CE_STATUS_LEVEL]

theorem leak_frame (s : State) (x : Nat) : Frame W.leak s (State.leak s x) := by
  unfold State.leak
  repeat' first
    | with_reducible assumption
    | with_reducible exact Frame.refl _ _
    | decide +kernel
    | with_reducible apply Frame.setF

def W.execBucketLeak : Nat := W.leak ||| W.outward

theorem execBucketLeak_frame (x : Fin 2) (s : State) : FrameN W.execBucketLeak s (execBucketLeak x s) := by
  unfold execBucketLeak
  repeat' first
    | refine done_fr ?_ ?_
    | with_reducible assumption
    | with_reducible exact Frame.refl _ _
    | (intro _ _ _)
    | (intro _ _)
    | decide +kernel
    | with_reducible apply Frame.step (leak_frame ..)

def W.writeBucket : Nat := fm [F.MEM_CE_CTL_DEPTH, F.MEM_CE_CTL_LEAK, F.MEM_CE_STATUS_LEVEL]

theorem writeBucket_frame (s : State) (x w : Nat) : Frame W.writeBucket s (State.writeBucket s x w) := by
  unfold State.writeBucket
  repeat' first
    | with_reducible assumption
    | with_reducible exact Frame.refl _ _
    | decide +kernel
    | with_reducible apply Frame.setF

def W.execBucketReset : Nat := W.doneW ||| W.writeBucket

theorem execBucketReset_frame (x : Fin 2) (w : BitVec 32) (s : State) : FrameN W.execBucketReset s (execBucketReset x w s) :=
    by
  unfold execBucketReset
  repeat' first
    | refine doneW_fr ?_ ?_
    | with_reducible assumption
    | with_reducible exact Frame.refl _ _
    | (intro _ _ _)
    | (intro _ _)
    | decide +kernel
    | with_reducible apply Frame.step (writeBucket_frame ..)

def W.storeEntry : Nat := 2 ^ 11 ||| W.goodCheck

theorem storeEntry_fr {m : Nat} {z s : State} (h : Frame m z s) {r : RegDef} (hd : regIn m r = true) (hm : subMask
    W.storeEntry m = true) (i : Nat) (w : Nat) : Frame m z (State.storeEntry s r i w) := by
  unfold State.storeEntry
  repeat' first
    | with_reducible assumption
    | exact subMask_trans (by decide +kernel) hm
    | exact subMask_testBit hm (by decide +kernel)
    | exact evIn_sub hm (by decide +kernel)
    | exact regIn_sub hm (by decide +kernel)
    | (intro _ _ _)
    | (intro _ _)
    | with_reducible apply putEntry_fr
    | with_reducible refine updMem_fr ?_ ?_ (by intro _; exact ⟨rfl, rfl⟩)
    | with_reducible apply Frame.ite
    | split
    | (dsimp only; split)

def W.writeLearned : Nat := fm [F.LRN_LOOP_STATUS_EMPTY] ||| em [E.LRN_CFG_REJECT] ||| rm [R.LRN_ENTRY] ||| W.storeEntry

theorem writeLearned_frame (s : State) (i w : Nat) : Frame W.writeLearned s (State.writeLearned s i w) := by
  unfold State.writeLearned
  repeat' first
    | with_reducible assumption
    | with_reducible exact Frame.refl _ _
    | (intro _ _ _)
    | (intro _ _)
    | decide +kernel
    | with_reducible apply Frame.setB
    | with_reducible apply raise_fr
    | with_reducible apply storeEntry_fr
    | with_reducible apply Frame.ite
    | with_reducible refine Frame.ofPair (by assumption) ?_
    | split
    | (dsimp only; split)

def W.writeScale : Nat := em [E.LRN_CFG_REJECT] ||| rm [R.LRN_SCALE] ||| W.storeEntry

theorem writeScale_frame (s : State) (i w : Nat) : Frame W.writeScale s (State.writeScale s i w) := by
  unfold State.writeScale
  repeat' first
    | with_reducible assumption
    | with_reducible exact Frame.refl _ _
    | (intro _ _ _)
    | (intro _ _)
    | decide +kernel
    | with_reducible apply raiseHeads_fr
    | with_reducible apply storeEntry_fr
    | with_reducible apply Frame.ite
    | split
    | (dsimp only; split)

def W.writeEntry : Nat := rm [R.CLR_COEF_LIVE, R.LRN_ENTRY, R.LRN_SCALE, R.WRP_SPARE] ||| W.storeEntry ||| W.tableReject |||
    W.writeLearned ||| W.writeScale

theorem writeEntry_fr {m : Nat} {z s : State} (h : Frame m z s) {r : RegDef} (hd : regIn m r = true) (hm : subMask
    W.writeEntry m = true) (i : Nat) (w : Nat) : Frame m z (State.writeEntry s r i w) := by
  unfold State.writeEntry
  repeat' first
    | with_reducible assumption
    | exact subMask_trans (by decide +kernel) hm
    | exact subMask_testBit hm (by decide +kernel)
    | exact evIn_sub hm (by decide +kernel)
    | exact regIn_sub hm (by decide +kernel)
    | with_reducible apply Frame.step (tableReject_frame ..)
    | with_reducible apply Frame.step (writeLearned_frame ..)
    | with_reducible apply Frame.step (writeScale_frame ..)
    | with_reducible apply storeEntry_fr
    | with_reducible apply Frame.ite
    | split
    | (dsimp only; split)

def W.writeLow : Nat := 2 ^ 11

theorem writeLow_frame (s : State) (a w : Nat) : Frame W.writeLow s (State.writeLow s a w) := by
  unfold State.writeLow
  repeat' first
    | with_reducible assumption
    | with_reducible exact Frame.refl _ _
    | (intro _ _ _)
    | (intro _ _)
    | decide +kernel
    | exact regIn_table (by assumption) (by decide +kernel)
    | with_reducible refine updMem_fr ?_ ?_ (by intro _; exact ⟨rfl, rfl⟩)
    | with_reducible apply Frame.ite
    | split
    | (dsimp only; split)

def W.execTableLowWrite : Nat := W.doneW ||| W.writeLow

theorem execTableLowWrite_frame (a : BitVec 27) (w : BitVec 32) (s : State) : FrameN W.execTableLowWrite s (execTableLowWrite
    a w s) := by
  unfold execTableLowWrite
  repeat' first
    | refine doneW_fr ?_ ?_
    | with_reducible assumption
    | with_reducible exact Frame.refl _ _
    | (intro _ _ _)
    | (intro _ _)
    | decide +kernel
    | with_reducible apply Frame.step (writeLow_frame ..)

def W.writeHigh : Nat := 2 ^ 11 ||| W.flushAsm ||| W.narrow ||| W.writeEntry ||| rm tableRegs

theorem writeHigh_frame (s : State) (a w : Nat) : Frame W.writeHigh s (State.writeHigh s a w) := by
  unfold State.writeHigh
  repeat' first
    | with_reducible assumption
    | with_reducible exact Frame.refl _ _
    | (intro _ _ _)
    | (intro _ _)
    | decide +kernel
    | exact regIn_table (by assumption) (by decide +kernel)
    | with_reducible apply Frame.step (flushAsm_frame ..)
    | with_reducible apply Frame.step (narrow_frame ..)
    | with_reducible apply writeEntry_fr
    | with_reducible refine updMem_fr ?_ ?_ (by intro _; exact ⟨rfl, rfl⟩)
    | with_reducible apply Frame.ite
    | split
    | (dsimp only; split)

def W.execTableHighWrite : Nat := W.outward ||| W.writeHigh

theorem execTableHighWrite_frame (a : BitVec 27) (w : BitVec 32) (s : State) : FrameN W.execTableHighWrite s
    (execTableHighWrite a w s) := by
  unfold execTableHighWrite
  repeat' first
    | refine done_fr ?_ ?_
    | with_reducible assumption
    | with_reducible exact Frame.refl _ _
    | (intro _ _ _)
    | (intro _ _)
    | decide +kernel
    | with_reducible apply Frame.step (writeHigh_frame ..)
    | with_reducible apply Frame.ite
    | split
    | (dsimp only; split)

def W.execNarrowWriteTimeout : Nat := W.flushAsm ||| W.outward

theorem execNarrowWriteTimeout_frame (s : State) : FrameN W.execNarrowWriteTimeout s (execNarrowWriteTimeout s) := by
  unfold execNarrowWriteTimeout
  repeat' first
    | refine done_fr ?_ ?_
    | with_reducible assumption
    | with_reducible exact Frame.refl _ _
    | (intro _ _ _)
    | (intro _ _)
    | decide +kernel
    | with_reducible apply Frame.step (flushAsm_frame ..)

def W.fetchEntry : Nat := fm [F.MEM_TEST_SCHK_RD] ||| W.readEntryFree

theorem fetchEntry_fr {m : Nat} {z s : State} (h : Frame m z s) {r : RegDef} (hd : regIn m r = true) (hm : subMask
    W.fetchEntry m = true) (i : Nat) : Frame m z (State.fetchEntry s r i).1 := by
  unfold State.fetchEntry
  repeat' first
    | with_reducible assumption
    | exact subMask_trans (by decide +kernel) hm
    | exact subMask_testBit hm (by decide +kernel)
    | exact evIn_sub hm (by decide +kernel)
    | exact regIn_sub hm (by decide +kernel)
    | (intro _ _ _)
    | (intro _ _)
    | with_reducible apply Frame.setF
    | with_reducible apply readEntryFree_fr
    | with_reducible apply Frame.ite
    | with_reducible refine Frame.ofPair (by assumption) ?_
    | split
    | (dsimp only; split)

def W.readLow : Nat := 2 ^ 17 ||| 2 ^ 11 ||| W.fetchEntry ||| rm tableRegs

theorem readLow_frame (s : State) (a : Nat) : Frame W.readLow s (State.readLow s a) := by
  unfold State.readLow
  repeat' first
    | with_reducible assumption
    | with_reducible exact Frame.refl _ _
    | (intro _ _ _)
    | (intro _ _)
    | decide +kernel
    | exact regIn_table (by assumption) (by decide +kernel)
    | with_reducible apply Frame.emit
    | with_reducible apply fetchEntry_fr
    | with_reducible refine updMem_fr ?_ ?_ (by intro _; exact ⟨rfl, rfl⟩)
    | with_reducible refine Frame.ofPair (by assumption) ?_
    | split
    | (dsimp only; split)

def W.execTableLowRead : Nat := W.outward ||| W.readLow ||| W.refuseRead

theorem execTableLowRead_frame (a : BitVec 27) (s : State) : FrameN W.execTableLowRead s (execTableLowRead a s) := by
  unfold execTableLowRead
  repeat' first
    | refine done_fr ?_ ?_
    | with_reducible assumption
    | with_reducible exact Frame.refl _ _
    | (intro _ _ _)
    | (intro _ _)
    | decide +kernel
    | with_reducible apply Frame.step (readLow_frame ..)
    | with_reducible apply Frame.step (refuseRead_frame ..)
    | with_reducible apply Frame.ite
    | split
    | (dsimp only; split)

def W.putRegBytes : Nat := 0

theorem putRegBytes_fr {m : Nat} {r s : State} (h : Frame m r s) {f : Field} (hf : m.testBit f.id = true) (n : Nat) (bs : List Nat) : Frame m r (s.putRegBytes f n bs) :=
  h.forEach fun _ _ ht => ht.setF hf ..

def W.uncache : Nat := W.evict

theorem uncache_frame (s : State) (n : Nat) : Frame W.uncache s (State.uncache s n) := by
  unfold State.uncache
  repeat' first
    | with_reducible assumption
    | with_reducible exact Frame.refl _ _
    | decide +kernel
    | with_reducible apply Frame.step (evict_frame ..)
    | split
    | (dsimp only; split)

def W.rawWrite : Nat := fm [F.MEM_TEST_CTL_BUSY] ||| W.putBurst ||| W.uncache

theorem rawWrite_frame (s : State) : Frame W.rawWrite s (State.rawWrite s) := by
  unfold State.rawWrite
  repeat' first
    | with_reducible assumption
    | with_reducible exact Frame.refl _ _
    | (intro _ _ _)
    | (intro _ _)
    | decide +kernel
    | with_reducible apply Frame.setB
    | with_reducible apply Frame.step (putBurst_frame ..)
    | with_reducible apply Frame.step (uncache_frame ..)

def W.rawRead : Nat := fm [F.MEM_TEST_CHK_BYTES, F.MEM_TEST_CTL_BUSY, F.MEM_TEST_DATA_BYTES, F.MEM_TEST_LINE_LINE] |||
    W.uncache

theorem rawRead_frame (s : State) : Frame W.rawRead s (State.rawRead s) := by
  unfold State.rawRead
  repeat' first
    | with_reducible assumption
    | with_reducible exact Frame.refl _ _
    | (intro _ _ _)
    | (intro _ _)
    | decide +kernel
    | with_reducible apply Frame.setB
    | with_reducible apply Frame.step (uncache_frame ..)
    | with_reducible apply putRegBytes_fr

def W.execTestRawWrite : Nat := W.doneW ||| W.rawWrite

theorem execTestRawWrite_frame (s : State) : FrameX W.execTestRawWrite s (execTestRawWrite s) := by
  unfold execTestRawWrite testOp
  split
  · intro t h
    cases h
  · refine FrameN.toX (doneW_fr (by decide +kernel) fun t ht => ?_)
    split
    · exact (rawWrite_frame _).step ht (by decide +kernel)
    · exact ht

def W.execTestRawRead : Nat := W.doneW ||| W.rawRead

theorem execTestRawRead_frame (s : State) : FrameX W.execTestRawRead s (execTestRawRead s) := by
  unfold execTestRawRead testOp
  split
  · intro t h
    cases h
  · refine FrameN.toX (doneW_fr (by decide +kernel) fun t ht => ?_)
    split
    · exact (rawRead_frame _).step ht (by decide +kernel)
    · exact ht

def W.execTestOpDone : Nat := W.outward ||| fm [F.MEM_TEST_CTL_BUSY]

theorem execTestOpDone_frame (s : State) : FrameN W.execTestOpDone s (execTestOpDone s) := by
  unfold execTestOpDone
  repeat' first
    | refine done_fr ?_ ?_
    | with_reducible assumption
    | with_reducible exact Frame.refl _ _
    | (intro _ _ _)
    | (intro _ _)
    | decide +kernel
    | with_reducible apply Frame.setB

end Sys2Proof.Laws
end

