-- ==== Sys2Proof/Laws/FrTickCmds.lean ====
section
/-!
SUPPORT. Frames of the operations of Machine/TickCmds.lean: one law per operation, with the mask of what it may change.
-/
set_option Elab.async false
set_option linter.unusedTactic false
set_option linter.unreachableTactic false

namespace Sys2Proof.Laws

open Sys2Proof.Machine

def W.execServoTick : Nat := W.doneQ ||| W.servoTick

theorem execServoTick_frame (shorts : List (Option (Nat × Nat))) (cycles : List Nat) (s : State) : FrameN W.execServoTick s
    (execServoTick shorts cycles s) := by
  unfold execServoTick
  repeat' first
    | refine doneQ_fr ?_ ?_
    | with_reducible assumption
    | with_reducible exact Frame.refl _ _
    | (intro _ _ _)
    | (intro _ _)
    | decide +kernel
    | with_reducible apply Frame.step (servoTick_frame ..)

def W.execMotorTick : Nat := W.doneQ ||| W.motorDeck

theorem execMotorTick_frame (samples : List MotorIn) (s : State) : FrameN W.execMotorTick s (execMotorTick samples s) := by
  unfold execMotorTick
  repeat' first
    | refine doneQ_fr ?_ ?_
    | with_reducible assumption
    | with_reducible exact Frame.refl _ _
    | (intro _ _ _)
    | (intro _ _)
    | decide +kernel
    | (with_reducible apply Frame.forEach; rotate_left; intro _ _ _)
    | with_reducible apply Frame.step (motorDeck_frame ..)
    | with_reducible apply Frame.ite
    | split
    | (dsimp only; split)

def W.sledWatch : Nat := W.setSeq

theorem sledWatch_frame (s : State) (h : Nat) : Frame W.sledWatch s (State.sledWatch s h) := by
  unfold State.sledWatch
  repeat' first
    | with_reducible assumption
    | with_reducible exact Frame.refl _ _
    | (intro _ _ _)
    | (intro _ _)
    | decide +kernel
    | with_reducible apply Frame.step (setSeq_frame ..)
    | with_reducible apply Frame.ite
    | split
    | (dsimp only; split)

def W.profileHead : Nat := W.axisStep ||| W.headFatal ||| W.sledFollow ||| W.sledWatch

theorem profileHead_frame (s : State) (h : Nat) : Frame W.profileHead s (State.profileHead s h) := by
  unfold State.profileHead
  repeat' first
    | with_reducible assumption
    | with_reducible exact Frame.refl _ _
    | (intro _ _ _)
    | (intro _ _)
    | decide +kernel
    | with_reducible apply Frame.step (axisStep_frame ..)
    | with_reducible apply Frame.step (headFatal_frame ..)
    | with_reducible apply Frame.step (sledFollow_frame ..)
    | with_reducible apply Frame.step (sledWatch_frame ..)
    | with_reducible apply Frame.ite
    | with_reducible refine Frame.ofPair (by assumption) ?_
    | split
    | (dsimp only; split)

def W.execProfileTick : Nat := W.doneQ ||| W.profileHead

theorem execProfileTick_frame (s : State) : FrameN W.execProfileTick s (execProfileTick s) := by
  unfold execProfileTick
  repeat' first
    | refine doneQ_fr ?_ ?_
    | with_reducible assumption
    | with_reducible exact Frame.refl _ _
    | (intro _ _ _)
    | (intro _ _)
    | decide +kernel
    | (with_reducible apply Frame.forEach; rotate_left; intro _ _ _)
    | with_reducible apply Frame.step (profileHead_frame ..)
    | with_reducible apply Frame.ite
    | split
    | (dsimp only; split)

def W.speedUsers : Nat := W.chanFollow ||| W.rateCheck ||| W.updLrn

theorem speedUsers_frame (s : State) (d : Nat) : Frame W.speedUsers s (State.speedUsers s d) := by
  unfold State.speedUsers
  repeat' first
    | with_reducible assumption
    | with_reducible exact Frame.refl _ _
    | (intro _ _ _)
    | (intro _ _)
    | decide +kernel
    | (with_reducible apply Frame.forEach; rotate_left; intro _ _ _)
    | with_reducible apply Frame.step (chanFollow_frame ..)
    | with_reducible apply Frame.step (rateCheck_frame ..)
    | with_reducible apply Frame.step (updLrn_frame ..)

def W.execSpeedTick : Nat := W.doneQ ||| W.speedDeck ||| W.speedUsers

theorem execSpeedTick_frame (s : State) : FrameN W.execSpeedTick s (execSpeedTick s) := by
  unfold execSpeedTick
  repeat' first
    | refine doneQ_fr ?_ ?_
    | with_reducible assumption
    | with_reducible exact Frame.refl _ _
    | (intro _ _ _)
    | (intro _ _)
    | decide +kernel
    | (with_reducible apply Frame.forEach; rotate_left; intro _ _ _)
    | with_reducible apply Frame.step (speedDeck_frame ..)
    | with_reducible apply Frame.step (speedUsers_frame ..)
    | with_reducible apply Frame.ite
    | split
    | (dsimp only; split)

def W.execHoldover : Nat := 2 ^ 2 ||| W.outward ||| em [E.TCK_HOLDOVER] ||| fm [F.TCK_STATUS_HOLDOVER, F.TCK_STATUS_LOCK]

theorem execHoldover_frame (s : State) : FrameN W.execHoldover s (execHoldover s) := by
  unfold execHoldover
  repeat' first
    | refine done_fr ?_ ?_
    | with_reducible assumption
    | with_reducible exact Frame.refl _ _
    | (intro _ _ _)
    | (intro _ _)
    | decide +kernel
    | with_reducible apply Frame.setB
    | with_reducible apply raise_fr
    | with_reducible apply Frame.ite
    | with_reducible refine Frame.ofPair (by assumption) ?_
    | split
    | (dsimp only; split)
    | (with_reducible refine Frame.upd ?_ rfl ?_ ?_ ?_ ?_ ?_ ?_ ?_ ?_ ?_ ?_ ?_ ?_ ?_ ?_ ?_ ?_ ?_ <;>
        first | with_reducible exact Or.inl rfl | with_reducible exact Or.inr ⟨by decide +kernel, Nat.mod_lt _ (Nat.two_pow_pos 48)⟩ |
          exact Or.inr ⟨by decide +kernel, rfl, rfl⟩ | exact Or.inr ⟨by decide +kernel, rfl⟩ |
          exact Or.inr (by decide +kernel) | skip)

def W.writeTckCtl : Nat := fm [F.TCK_CTL_DISC_EN, F.TCK_CTL_SLEW, F.TCK_CTL_STEP_LIM, F.TCK_CTL_STEP_OK] ||| em
    [E.TCK_CFG_REJECT] ||| W.discFollow

theorem writeTckCtl_frame (s : State) (w : Nat) : Frame W.writeTckCtl s (State.writeTckCtl s w) := by
  unfold State.writeTckCtl
  repeat' first
    | with_reducible assumption
    | with_reducible exact Frame.refl _ _
    | (intro _ _ _)
    | (intro _ _)
    | decide +kernel
    | with_reducible apply Frame.setF
    | with_reducible apply Frame.step (discFollow_frame ..)
    | with_reducible apply raise_fr
    | with_reducible apply Frame.ite
    | with_reducible refine Frame.ofPair (by assumption) ?_
    | split
    | (dsimp only; split)

def W.execTckCtlWrite : Nat := W.doneW ||| W.writeTckCtl

theorem execTckCtlWrite_frame (w : BitVec 32) (s : State) : FrameN W.execTckCtlWrite s (execTckCtlWrite w s) := by
  unfold execTckCtlWrite
  repeat' first
    | refine doneW_fr ?_ ?_
    | with_reducible assumption
    | with_reducible exact Frame.refl _ _
    | (intro _ _ _)
    | (intro _ _)
    | decide +kernel
    | with_reducible apply Frame.step (writeTckCtl_frame ..)

def W.writeAsyDeadline : Nat := fm [F.TCK_ASY_DEADLINE_TICKS] ||| em [E.TCK_CFG_REJECT]

theorem writeAsyDeadline_frame (s : State) (w : Nat) : Frame W.writeAsyDeadline s (State.writeAsyDeadline s w) := by
  unfold State.writeAsyDeadline
  repeat' first
    | with_reducible assumption
    | with_reducible exact Frame.refl _ _
    | (intro _ _ _)
    | (intro _ _)
    | decide +kernel
    | with_reducible apply Frame.setF
    | with_reducible apply raise_fr
    | with_reducible apply Frame.ite
    | with_reducible refine Frame.ofPair (by assumption) ?_
    | split
    | (dsimp only; split)

def W.execTckAsyDeadlineWrite : Nat := W.doneW ||| W.writeAsyDeadline

theorem execTckAsyDeadlineWrite_frame (w : BitVec 32) (s : State) : FrameN W.execTckAsyDeadlineWrite s
    (execTckAsyDeadlineWrite w s) := by
  unfold execTckAsyDeadlineWrite
  repeat' first
    | refine doneW_fr ?_ ?_
    | with_reducible assumption
    | with_reducible exact Frame.refl _ _
    | (intro _ _ _)
    | (intro _ _)
    | decide +kernel
    | with_reducible apply Frame.step (writeAsyDeadline_frame ..)

def W.readCount : Nat := fm [F.TCK_COUNT_HI_COUNT_HI]

theorem readCount_frame (s : State) : Frame W.readCount s (State.readCount s).1 := by
  unfold State.readCount
  repeat' first
    | with_reducible assumption
    | with_reducible exact Frame.refl _ _
    | decide +kernel
    | with_reducible apply Frame.setF

def W.execTckCountRead : Nat := 2 ^ 17 ||| W.outward ||| W.readCount ||| W.refuseRead

theorem execTckCountRead_frame (s : State) : FrameN W.execTckCountRead s (execTckCountRead s) := by
  unfold execTckCountRead
  repeat' first
    | refine done_fr ?_ ?_
    | with_reducible assumption
    | with_reducible exact Frame.refl _ _
    | (intro _ _ _)
    | (intro _ _)
    | decide +kernel
    | with_reducible apply Frame.emit
    | with_reducible apply Frame.step (readCount_frame ..)
    | with_reducible apply Frame.step (refuseRead_frame ..)
    | with_reducible apply Frame.ite
    | with_reducible refine Frame.ofPair (by assumption) ?_
    | split
    | (dsimp only; split)

def W.execCollierOverrun : Nat := W.doneQ ||| W.overrun ||| fm [F.TCK_CLR_MAXCYC_MAX]

theorem execCollierOverrun_frame (h : Fin 32) (cycles : Nat) (s : State) : FrameN W.execCollierOverrun s (execCollierOverrun h
    cycles s) := by
  unfold execCollierOverrun
  repeat' first
    | refine doneQ_fr ?_ ?_
    | with_reducible assumption
    | with_reducible exact Frame.refl _ _
    | (intro _ _ _)
    | (intro _ _)
    | decide +kernel
    | with_reducible apply Frame.keepMax
    | with_reducible apply Frame.step (overrun_frame ..)
    | with_reducible apply Frame.ite
    | split
    | (dsimp only; split)

def W.execLrnSkip : Nat := W.lrnSkip ||| W.outward ||| em [E.TCK_LRN_SKIP] ||| fm [F.TCK_OVR_HEADS_HEAD]

theorem execLrnSkip_frame (h : Fin 32) (s : State) : FrameN W.execLrnSkip s (execLrnSkip h s) := by
  unfold execLrnSkip
  repeat' first
    | refine done_fr ?_ ?_
    | with_reducible assumption
    | with_reducible exact Frame.refl _ _
    | (intro _ _ _)
    | (intro _ _)
    | decide +kernel
    | with_reducible apply Frame.step (lrnSkip_frame ..)
    | with_reducible apply raiseTckHead_fr
    | with_reducible apply Frame.ite
    | split
    | (dsimp only; split)

end Sys2Proof.Laws
end

