-- ==== Sys2Proof/Laws/FrTrlOps.lean ====
section
/-!
SUPPORT. Frames of the operations of Machine/TrlOps.lean: one law per operation, with the mask of what it may change.
-/
set_option Elab.async false
set_option linter.unusedTactic false
set_option linter.unreachableTactic false

namespace Sys2Proof.Laws

open Sys2Proof.Machine

def W.discLock : Nat := fm [F.TCK_STATUS_LOCK] ||| em [E.TCK_DISC_UNLOCK] ||| 2 ^ 2

theorem discLock_frame (s : State) (e : Nat) : Frame W.discLock s (State.discLock s e) := by
  unfold State.discLock
  repeat' first
    | with_reducible assumption
    | with_reducible exact Frame.refl _ _
    | (intro _ _ _)
    | (intro _ _)
    | decide +kernel
    | with_reducible apply Frame.setB
    | with_reducible apply raise_fr
    | with_reducible apply Frame.ite
    | with_reducible refine Frame.ofPair (by assumption) ?_
    | split
    | (dsimp only; split)
    | (with_reducible refine Frame.upd ?_ rfl ?_ ?_ ?_ ?_ ?_ ?_ ?_ ?_ ?_ ?_ ?_ ?_ ?_ ?_ ?_ ?_ ?_ <;>
        first | with_reducible exact Or.inl rfl | with_reducible exact Or.inr ⟨by decide +kernel, Nat.mod_lt _ (Nat.two_pow_pos 48)⟩ |
          exact Or.inr ⟨by decide +kernel, rfl, rfl⟩ | exact Or.inr ⟨by decide +kernel, rfl⟩ |
          exact Or.inr (by decide +kernel) | skip)

def W.stepPhase : Nat := em [E.TCK_DISC_STEP] ||| 2 ^ 1 ||| 2 ^ 2

theorem stepPhase_frame (s : State) (e : Int) : Frame W.stepPhase s (State.stepPhase s e) := by
  unfold State.stepPhase
  refine raise_fr ?_ (by decide +kernel) _
  generalize s.frameTick e = k
  exact Frame.upd (Frame.refl _ s) rfl (.inr ⟨by decide +kernel, Nat.mod_lt _ (Nat.two_pow_pos 48)⟩) (.inr (by decide +kernel))
    (.inl rfl) (.inl rfl) (.inl rfl) (.inl rfl) (.inl rfl) (.inl rfl) (.inl rfl) (.inl rfl) (.inl rfl) (.inl rfl) (.inl rfl)
    (.inl rfl) (.inl rfl) (.inl rfl) (.inl rfl)

def W.measure : Nat := fm [F.TCK_STATUS_HOLDOVER, F.TCK_STATUS_LAST_ERR] ||| 2 ^ 2 ||| W.discLock ||| W.stepPhase

theorem measure_frame (s : State) (e : Int) : Frame W.measure s (State.measure s e) := by
  unfold State.measure
  repeat' first
    | with_reducible assumption
    | with_reducible exact Frame.refl _ _
    | (intro _ _ _)
    | (intro _ _)
    | decide +kernel
    | with_reducible apply Frame.setB
    | with_reducible apply Frame.setF
    | with_reducible apply Frame.step (discLock_frame ..)
    | with_reducible apply Frame.step (stepPhase_frame ..)
    | with_reducible apply Frame.ite
    | split
    | (dsimp only; split)
    | (with_reducible refine Frame.upd ?_ rfl ?_ ?_ ?_ ?_ ?_ ?_ ?_ ?_ ?_ ?_ ?_ ?_ ?_ ?_ ?_ ?_ ?_ <;>
        first | with_reducible exact Or.inl rfl | with_reducible exact Or.inr ⟨by decide +kernel, Nat.mod_lt _ (Nat.two_pow_pos 48)⟩ |
          exact Or.inr ⟨by decide +kernel, rfl, rfl⟩ | exact Or.inr ⟨by decide +kernel, rfl⟩ |
          exact Or.inr (by decide +kernel) | skip)

def W.putUnits : Nat := fm [F.TRL_UNIT_STATUS]

theorem putUnits_frame (s : State) (status : List (List Nat)) : Frame W.putUnits s (s.putUnits status) := by
  unfold State.putUnits
  have h0 : Frame W.putUnits s { s with regs := s.regs.filter fun c => c.fld.id ≠ F.TRL_UNIT_STATUS.id } := by
    refine (Frame.refl _ _).dropRegs _ fun c _ hc => ?_
    have : c.fld.id ≠ F.TRL_UNIT_STATUS.id := by
      intro e
      rw [e] at hc
      exact absurd hc (by decide +kernel)
    simp [this]
  exact h0.forEach fun _ _ ht => ht.forEach fun _ _ hu => (hu.setF (by decide +kernel) ..).setF (by decide +kernel) ..

def W.frameFlags : Nat := fm [F.TRL_STATUS_MIXED, F.TRL_STATUS_OPEN] ||| em [E.TRL_MIXED, E.TRL_UNMIXED]

theorem frameFlags_frame (s : State) (mixed opened : Bool) : Frame W.frameFlags s (State.frameFlags s mixed opened) := by
  unfold State.frameFlags
  repeat' first
    | with_reducible assumption
    | with_reducible exact Frame.refl _ _
    | (intro _ _ _)
    | (intro _ _)
    | decide +kernel
    | with_reducible apply Frame.setB
    | with_reducible apply raise_fr
    | with_reducible apply Frame.ite
    | with_reducible refine Frame.ofPair (by assumption) ?_
    | split
    | (dsimp only; split)

def W.frameExcl : Nat := fm [F.TRL_STATUS_EXCLUDED] ||| em [E.TRL_EXCLUDED]

theorem frameExcl_frame (s : State) (b : Bool) : Frame W.frameExcl s (State.frameExcl s b) := by
  unfold State.frameExcl
  repeat' first
    | with_reducible assumption
    | with_reducible exact Frame.refl _ _
    | (intro _ _ _)
    | (intro _ _)
    | decide +kernel
    | with_reducible apply Frame.setB
    | with_reducible apply raise_fr
    | with_reducible apply Frame.ite
    | with_reducible refine Frame.ofPair (by assumption) ?_
    | split
    | (dsimp only; split)

def W.shiftResult : Nat := fm [F.TRL_SHIFT_CTL_RESULT] ||| em [E.TRL_SHIFT_REFUSED]

theorem shiftResult_frame (s : State) (r : Nat) : Frame W.shiftResult s (State.shiftResult s r) := by
  unfold State.shiftResult
  repeat' first
    | with_reducible assumption
    | with_reducible exact Frame.refl _ _
    | (intro _ _ _)
    | (intro _ _)
    | decide +kernel
    | (with_reducible apply Frame.onlyIf; rotate_left; intro _ _)
    | with_reducible apply Frame.setF
    | with_reducible apply raise_fr
    | with_reducible refine Frame.ofPair (by assumption) ?_

def W.shiftBlock : Nat := fm [F.TRL_SHIFT_F_LO_F_LO, F.TRL_SHIFT_RING_F_HI, F.TRL_SHIFT_RING_PHASE] ||| W.abortSeen |||
    W.commitSeen ||| W.shiftResult

theorem shiftBlock_frame (s : State) (phase e f : Nat) : Frame W.shiftBlock s (State.shiftBlock s phase e f) := by
  unfold State.shiftBlock
  repeat' first
    | with_reducible assumption
    | with_reducible exact Frame.refl _ _
    | (intro _ _ _)
    | (intro _ _)
    | decide +kernel
    | (with_reducible apply Frame.onlyIf; rotate_left; intro _ _)
    | with_reducible apply Frame.setF
    | with_reducible apply Frame.step (abortSeen_frame ..)
    | with_reducible apply Frame.step (commitSeen_frame ..)
    | with_reducible apply Frame.step (shiftResult_frame ..)
    | with_reducible apply Frame.ite
    | split
    | (dsimp only; split)

def W.queueMsg : Nat := W.updTrl

theorem queueMsg_frame (s : State) (why : TxFor) (m : RingMsg) : Frame W.queueMsg s (State.queueMsg s why m) := by
  unfold State.queueMsg
  repeat' first
    | with_reducible assumption
    | with_reducible exact Frame.refl _ _
    | (intro _ _ _)
    | (intro _ _)
    | decide +kernel
    | with_reducible apply Frame.step (updTrl_frame ..)

def W.sendMsg : Nat := fm [F.TRL_TX_STATUS_SENT] ||| 2 ^ 17 ||| W.updTrl

theorem sendMsg_frame (s : State) : Frame W.sendMsg s (State.sendMsg s) := by
  unfold State.sendMsg
  repeat' first
    | with_reducible assumption
    | with_reducible exact Frame.refl _ _
    | (intro _ _ _)
    | (intro _ _)
    | decide +kernel
    | (with_reducible apply Frame.onlyIf; rotate_left; intro _ _)
    | with_reducible apply Frame.count
    | with_reducible apply Frame.emit
    | with_reducible apply Frame.step (updTrl_frame ..)
    | split
    | (dsimp only; split)

def W.msgResult : Nat := fm [F.TRL_EXCL_CTL_BUSY, F.TRL_TX_STATUS_BUSY, F.TRL_TX_STATUS_RESULT] ||| em [E.TRL_TX_DONE] ||| 2 ^
    16 ||| W.shiftResult ||| W.updTrl

theorem msgResult_frame (s : State) (x : TxMsg) (delivered busy lost : Bool) : Frame W.msgResult s (State.msgResult s x
    delivered busy lost) := by
  unfold State.msgResult
  repeat' first
    | with_reducible assumption
    | with_reducible exact Frame.refl _ _
    | (intro _ _ _)
    | (intro _ _)
    | decide +kernel
    | with_reducible apply Frame.bump
    | with_reducible apply Frame.setB
    | with_reducible apply Frame.setF
    | with_reducible apply Frame.step (shiftResult_frame ..)
    | with_reducible apply Frame.step (updTrl_frame ..)
    | with_reducible apply raise_fr
    | with_reducible apply Frame.ite
    | with_reducible refine Frame.ofPair (by assumption) ?_
    | split
    | (dsimp only; split)

def W.loseMsg : Nat := W.msgResult

theorem loseMsg_frame (s : State) (x : TxMsg) : Frame W.loseMsg s (State.loseMsg s x) := by
  unfold State.loseMsg
  repeat' first
    | with_reducible assumption
    | with_reducible exact Frame.refl _ _
    | decide +kernel
    | with_reducible apply Frame.step (msgResult_frame ..)

def W.leaveRing : Nat := W.loseMsg ||| W.ringOff

theorem leaveRing_frame (s : State) : Frame W.leaveRing s (State.leaveRing s) := by
  unfold State.leaveRing
  repeat' first
    | with_reducible assumption
    | with_reducible exact Frame.refl _ _
    | (intro _ _ _)
    | (intro _ _)
    | decide +kernel
    | (with_reducible apply Frame.forEach; rotate_left; intro _ _ _)
    | with_reducible apply Frame.step (loseMsg_frame ..)
    | with_reducible apply Frame.step (ringOff_frame ..)

def W.originate : Nat := 2 ^ 17 ||| W.frameExcl ||| W.frameFlags ||| W.sendMsg ||| W.shiftBlock ||| W.updTrl

theorem originate_frame (s : State) (slot : Bool) : Frame W.originate s (State.originate s slot) := by
  unfold State.originate
  repeat' first
    | with_reducible assumption
    | with_reducible exact Frame.refl _ _
    | (intro _ _ _)
    | (intro _ _)
    | decide +kernel
    | (with_reducible apply Frame.onlyIf; rotate_left; intro _ _)
    | with_reducible apply Frame.emit
    | with_reducible apply Frame.step (frameExcl_frame ..)
    | with_reducible apply Frame.step (frameFlags_frame ..)
    | with_reducible apply Frame.step (sendMsg_frame ..)
    | with_reducible apply Frame.step (shiftBlock_frame ..)
    | with_reducible apply Frame.step (updTrl_frame ..)

def W.headShift : Nat := W.updTrl

theorem headShift_frame (s : State) (e lead collect : Nat) : Frame W.headShift s (State.headShift s e lead collect).1 := by
  unfold State.headShift
  repeat' first
    | with_reducible assumption
    | with_reducible exact Frame.refl _ _
    | (intro _ _ _)
    | (intro _ _)
    | decide +kernel
    | with_reducible apply Frame.step (updTrl_frame ..)
    | with_reducible apply Frame.ite
    | split
    | (dsimp only; split)

def W.headExclude : Nat := W.updTrl

theorem headExclude_frame (s : State) (serial : Nat) (add : Bool) : Frame W.headExclude s (State.headExclude s serial add) :=
    by
  unfold State.headExclude
  repeat' first
    | with_reducible assumption
    | with_reducible exact Frame.refl _ _
    | (intro _ _ _)
    | (intro _ _)
    | decide +kernel
    | with_reducible apply Frame.step (updTrl_frame ..)
    | with_reducible apply Frame.ite
    | split
    | (dsimp only; split)

def W.judgeMixed : Nat := W.updTrl

theorem judgeMixed_frame (s : State) : Frame W.judgeMixed s (State.judgeMixed s) := by
  unfold State.judgeMixed
  repeat' first
    | with_reducible assumption
    | with_reducible exact Frame.refl _ _
    | (intro _ _ _)
    | (intro _ _)
    | decide +kernel
    | with_reducible apply Frame.step (updTrl_frame ..)
    | with_reducible apply Frame.ite
    | split
    | (dsimp only; split)

def W.collect : Nat := W.updTrl

theorem collect_frame (s : State) : Frame W.collect s (State.collect s) := by
  unfold State.collect
  repeat' first
    | with_reducible assumption
    | with_reducible exact Frame.refl _ _
    | (intro _ _ _)
    | (intro _ _)
    | decide +kernel
    | with_reducible apply Frame.step (updTrl_frame ..)
    | with_reducible apply Frame.ite
    | split
    | (dsimp only; split)

def W.showHead : Nat := fm [F.TRL_HEAD_HI_SERIAL, F.TRL_HEAD_LO_SERIAL]

theorem showHead_frame (s : State) (n : Nat) : Frame W.showHead s (State.showHead s n) := by
  unfold State.showHead
  repeat' first
    | with_reducible assumption
    | with_reducible exact Frame.refl _ _
    | decide +kernel
    | with_reducible apply Frame.setF

def W.enterElect : Nat := W.setRole ||| W.showHead

theorem enterElect_frame (s : State) : Frame W.enterElect s (State.enterElect s) := by
  unfold State.enterElect
  repeat' first
    | with_reducible assumption
    | with_reducible exact Frame.refl _ _
    | decide +kernel
    | with_reducible apply Frame.step (setRole_frame ..)
    | with_reducible apply Frame.step (showHead_frame ..)

def W.claim : Nat := 2 ^ 17

theorem claim_frame (s : State) : Frame W.claim s (State.claim s) := by
  unfold State.claim
  repeat' first
    | with_reducible assumption
    | with_reducible exact Frame.refl _ _
    | decide +kernel
    | with_reducible apply Frame.emit

def W.winElection : Nat := fm [F.TRL_STATUS_POSITION] ||| em [E.TRL_HEAD_CHANGE] ||| W.putUnits ||| W.setRole ||| W.showHead
    ||| W.updTrl

theorem winElection_frame (s : State) (time : Nat) : Frame W.winElection s (State.winElection s time) := by
  unfold State.winElection
  repeat' first
    | with_reducible assumption
    | with_reducible exact Frame.refl _ _
    | (intro _ _ _)
    | (intro _ _)
    | decide +kernel
    | with_reducible apply Frame.setF
    | with_reducible apply Frame.step (putUnits_frame ..)
    | with_reducible apply Frame.step (setRole_frame ..)
    | with_reducible apply Frame.step (showHead_frame ..)
    | with_reducible apply Frame.step (updTrl_frame ..)
    | with_reducible apply raise_fr
    | with_reducible refine Frame.ofPair (by assumption) ?_

end Sys2Proof.Laws
end

