-- ==== Sys2Proof/Laws/FrTrlCmds.lean ====
section
/-!
SUPPORT. Frames of the operations of Machine/TrlCmds.lean: one law per operation, with the mask of what it may change.
-/
set_option Elab.async false
set_option linter.unusedTactic false
set_option linter.unreachableTactic false

namespace Sys2Proof.Laws

open Sys2Proof.Machine

def W.ringTick : Nat := W.claim ||| W.originate ||| W.updTrl

theorem ringTick_frame (s : State) (slot : Bool) : Frame W.ringTick s (State.ringTick s slot) := by
  unfold State.ringTick
  repeat' first
    | with_reducible assumption
    | with_reducible exact Frame.refl _ _
    | (intro _ _ _)
    | (intro _ _)
    | decide +kernel
    | with_reducible apply Frame.step (claim_frame ..)
    | with_reducible apply Frame.step (originate_frame ..)
    | with_reducible apply Frame.step (updTrl_frame ..)
    | with_reducible apply Frame.ite
    | split
    | (dsimp only; split)

def W.execRingFrameTick : Nat := W.doneQ ||| W.ringTick

theorem execRingFrameTick_frame (slot : Bool) (s : State) : FrameN W.execRingFrameTick s (execRingFrameTick slot s) := by
  unfold execRingFrameTick
  repeat' first
    | refine doneQ_fr ?_ ?_
    | with_reducible assumption
    | with_reducible exact Frame.refl _ _
    | (intro _ _ _)
    | (intro _ _)
    | decide +kernel
    | with_reducible apply Frame.step (ringTick_frame ..)
    | with_reducible apply Frame.ite
    | split
    | (dsimp only; split)

def W.enableRing : Nat := fm [F.TRL_CTL_EN] ||| W.ringStart

theorem enableRing_frame (s : State) : Frame W.enableRing s (State.enableRing s) := by
  unfold State.enableRing
  repeat' first
    | with_reducible assumption
    | with_reducible exact Frame.refl _ _
    | decide +kernel
    | with_reducible apply Frame.setB
    | with_reducible apply Frame.step (ringStart_frame ..)

def W.execRingEnable : Nat := W.doneW ||| W.enableRing

theorem execRingEnable_frame (s : State) : FrameN W.execRingEnable s (execRingEnable s) := by
  unfold execRingEnable
  repeat' first
    | refine doneW_fr ?_ ?_
    | with_reducible assumption
    | with_reducible exact Frame.refl _ _
    | (intro _ _ _)
    | (intro _ _)
    | decide +kernel
    | with_reducible apply Frame.step (enableRing_frame ..)

def W.disableRing : Nat := fm [F.TRL_CTL_EN] ||| W.leaveRing

theorem disableRing_frame (s : State) : Frame W.disableRing s (State.disableRing s) := by
  unfold State.disableRing
  repeat' first
    | with_reducible assumption
    | with_reducible exact Frame.refl _ _
    | decide +kernel
    | with_reducible apply Frame.setB
    | with_reducible apply Frame.step (leaveRing_frame ..)

def W.execRingDisable : Nat := W.disableRing ||| W.doneW

theorem execRingDisable_frame (s : State) : FrameN W.execRingDisable s (execRingDisable s) := by
  unfold execRingDisable
  repeat' first
    | refine doneW_fr ?_ ?_
    | with_reducible assumption
    | with_reducible exact Frame.refl _ _
    | (intro _ _ _)
    | (intro _ _)
    | decide +kernel
    | with_reducible apply Frame.step (disableRing_frame ..)

def W.writeElect : Nat := em [E.TRL_ELECTION] ||| W.enterElect

theorem writeElect_frame (s : State) : Frame W.writeElect s (State.writeElect s) := by
  unfold State.writeElect
  repeat' first
    | with_reducible assumption
    | with_reducible exact Frame.refl _ _
    | decide +kernel
    | with_reducible apply Frame.step (enterElect_frame ..)
    | with_reducible apply raise_fr
    | with_reducible apply Frame.ite
    | with_reducible refine Frame.ofPair (by assumption) ?_
    | split
    | (dsimp only; split)

def W.execRingElect : Nat := W.doneW ||| W.writeElect

theorem execRingElect_frame (s : State) : FrameN W.execRingElect s (execRingElect s) := by
  unfold execRingElect
  repeat' first
    | refine doneW_fr ?_ ?_
    | with_reducible assumption
    | with_reducible exact Frame.refl _ _
    | (intro _ _ _)
    | (intro _ _)
    | decide +kernel
    | with_reducible apply Frame.step (writeElect_frame ..)

def W.execLoopLocked : Nat := W.outward ||| W.setRole ||| fm [F.TRL_STATUS_IN_LOCK]

theorem execLoopLocked_frame (s : State) : FrameN W.execLoopLocked s (execLoopLocked s) := by
  unfold execLoopLocked
  repeat' first
    | refine done_fr ?_ ?_
    | with_reducible assumption
    | with_reducible exact Frame.refl _ _
    | (intro _ _ _)
    | (intro _ _)
    | decide +kernel
    | with_reducible apply Frame.setB
    | with_reducible apply Frame.step (setRole_frame ..)
    | with_reducible apply Frame.ite
    | split
    | (dsimp only; split)

def W.execLoopFail : Nat := W.outward ||| W.updTrl ||| em [E.TRL_LOOP_FAIL]

theorem execLoopFail_frame (s : State) : FrameN W.execLoopFail s (execLoopFail s) := by
  unfold execLoopFail
  repeat' first
    | refine done_fr ?_ ?_
    | with_reducible assumption
    | with_reducible exact Frame.refl _ _
    | (intro _ _ _)
    | (intro _ _)
    | decide +kernel
    | with_reducible apply Frame.step (updTrl_frame ..)
    | with_reducible apply raise_fr
    | with_reducible apply Frame.ite
    | with_reducible refine Frame.ofPair (by assumption) ?_
    | split
    | (dsimp only; split)

def W.execFrameSilence : Nat := W.enterElect ||| W.outward ||| em [E.TRL_ELECTION]

theorem execFrameSilence_frame (s : State) : FrameN W.execFrameSilence s (execFrameSilence s) := by
  unfold execFrameSilence
  repeat' first
    | refine done_fr ?_ ?_
    | with_reducible assumption
    | with_reducible exact Frame.refl _ _
    | (intro _ _ _)
    | (intro _ _)
    | decide +kernel
    | with_reducible apply Frame.step (enterElect_frame ..)
    | with_reducible apply raise_fr
    | with_reducible apply Frame.ite
    | with_reducible refine Frame.ofPair (by assumption) ?_
    | split
    | (dsimp only; split)

def W.execElectionRestart : Nat := W.outward ||| W.updTrl

theorem execElectionRestart_frame (s : State) : FrameN W.execElectionRestart s (execElectionRestart s) := by
  unfold execElectionRestart
  repeat' first
    | refine done_fr ?_ ?_
    | with_reducible assumption
    | with_reducible exact Frame.refl _ _
    | (intro _ _ _)
    | (intro _ _)
    | decide +kernel
    | with_reducible apply Frame.step (updTrl_frame ..)
    | with_reducible apply Frame.ite
    | split
    | (dsimp only; split)

def W.claimOther : Nat := 2 ^ 17 ||| W.claim ||| W.enterElect ||| W.showHead

theorem claimOther_frame (s : State) (serial time : Nat) : Frame W.claimOther s (State.claimOther s serial time) := by
  unfold State.claimOther
  repeat' first
    | with_reducible assumption
    | with_reducible exact Frame.refl _ _
    | (intro _ _ _)
    | (intro _ _)
    | decide +kernel
    | (with_reducible apply Frame.onlyIf; rotate_left; intro _ _)
    | with_reducible apply Frame.emit
    | with_reducible apply Frame.step (claim_frame ..)
    | with_reducible apply Frame.step (enterElect_frame ..)
    | with_reducible apply Frame.step (showHead_frame ..)
    | with_reducible apply Frame.ite
    | split
    | (dsimp only; split)

def W.claimArrives : Nat := W.claimOther ||| W.winElection

theorem claimArrives_frame (s : State) (serial time : Nat) : Frame W.claimArrives s (State.claimArrives s serial time) := by
  unfold State.claimArrives
  repeat' first
    | with_reducible assumption
    | with_reducible exact Frame.refl _ _
    | decide +kernel
    | with_reducible apply Frame.step (claimOther_frame ..)
    | with_reducible apply Frame.step (winElection_frame ..)
    | with_reducible apply Frame.ite
    | split
    | (dsimp only; split)

def W.execClaimReceived : Nat := W.claimArrives ||| W.outward

theorem execClaimReceived_frame (serial : BitVec 64) (time : BitVec 40) (s : State) : FrameN W.execClaimReceived s
    (execClaimReceived serial time s) := by
  unfold execClaimReceived
  repeat' first
    | refine done_fr ?_ ?_
    | with_reducible assumption
    | with_reducible exact Frame.refl _ _
    | (intro _ _ _)
    | (intro _ _)
    | decide +kernel
    | with_reducible apply Frame.step (claimArrives_frame ..)

def W.forward : Nat := 2 ^ 17

theorem forward_frame (s : State) (x : FrameIn) (status : List (Nat × List Nat)) : Frame W.forward s (State.forward s x
    status) := by
  unfold State.forward
  repeat' first
    | with_reducible assumption
    | with_reducible exact Frame.refl _ _
    | decide +kernel
    | with_reducible apply Frame.emit

def W.takeFrame : Nat := fm [F.TRL_PATH_PATH, F.TRL_STATUS_POSITION] ||| W.forward ||| W.frameExcl ||| W.frameFlags |||
    W.measure ||| W.sendMsg ||| W.shiftBlock ||| W.updTrl

theorem takeFrame_frame (s : State) (x : FrameIn) : Frame W.takeFrame s (State.takeFrame s x) := by
  unfold State.takeFrame
  repeat' first
    | with_reducible assumption
    | with_reducible exact Frame.refl _ _
    | (intro _ _ _)
    | (intro _ _)
    | decide +kernel
    | (with_reducible apply Frame.onlyIf; rotate_left; intro _ _)
    | with_reducible apply Frame.setF
    | with_reducible apply Frame.step (forward_frame ..)
    | with_reducible apply Frame.step (frameExcl_frame ..)
    | with_reducible apply Frame.step (frameFlags_frame ..)
    | with_reducible apply Frame.step (measure_frame ..)
    | with_reducible apply Frame.step (sendMsg_frame ..)
    | with_reducible apply Frame.step (shiftBlock_frame ..)
    | with_reducible apply Frame.step (updTrl_frame ..)

def W.frameArrives : Nat := fm [F.TRL_STATUS_IN_LOCK] ||| em [E.TRL_JOINED, E.TRL_TOO_MANY] ||| W.forward ||| W.measure |||
    W.setRole ||| W.takeFrame

theorem frameArrives_frame (s : State) (x : FrameIn) : Frame W.frameArrives s (State.frameArrives s x) := by
  unfold State.frameArrives
  repeat' first
    | with_reducible assumption
    | with_reducible exact Frame.refl _ _
    | (intro _ _ _)
    | (intro _ _)
    | decide +kernel
    | with_reducible apply Frame.setB
    | with_reducible apply Frame.step (forward_frame ..)
    | with_reducible apply Frame.step (measure_frame ..)
    | with_reducible apply Frame.step (setRole_frame ..)
    | with_reducible apply Frame.step (takeFrame_frame ..)
    | with_reducible apply raise_fr
    | with_reducible apply Frame.ite
    | with_reducible refine Frame.ofPair (by assumption) ?_
    | split
    | (dsimp only; split)

def W.execFrameStartReceived : Nat := W.doneQ ||| W.frameArrives

theorem execFrameStartReceived_frame (x : FrameIn) (s : State) : FrameN W.execFrameStartReceived s (execFrameStartReceived x
    s) := by
  unfold execFrameStartReceived
  repeat' first
    | refine doneQ_fr ?_ ?_
    | with_reducible assumption
    | with_reducible exact Frame.refl _ _
    | (intro _ _ _)
    | (intro _ _)
    | decide +kernel
    | with_reducible apply Frame.step (frameArrives_frame ..)

def W.frameReturns : Nat := fm [F.TRL_LAP_LAP, F.TRL_LAP_UNITS, F.TRL_PATH_PATH, F.TRL_STATUS_IN_LOCK] ||| em [E.TRL_LAP_LONG]
    ||| W.collect ||| W.judgeMixed ||| W.measure ||| W.putUnits ||| W.updTrl

theorem frameReturns_frame (s : State) (lap path : Nat) (err : Int) (status : List (List Nat)) : Frame W.frameReturns s
    (State.frameReturns s lap path err status) := by
  unfold State.frameReturns
  repeat' first
    | with_reducible assumption
    | with_reducible exact Frame.refl _ _
    | (intro _ _ _)
    | (intro _ _)
    | decide +kernel
    | (with_reducible apply Frame.onlyIf; rotate_left; intro _ _)
    | with_reducible apply Frame.setB
    | with_reducible apply Frame.setF
    | with_reducible apply Frame.step (collect_frame ..)
    | with_reducible apply Frame.step (judgeMixed_frame ..)
    | with_reducible apply Frame.step (measure_frame ..)
    | with_reducible apply Frame.step (putUnits_frame ..)
    | with_reducible apply Frame.step (updTrl_frame ..)
    | with_reducible apply raise_fr
    | with_reducible apply Frame.ite
    | with_reducible refine Frame.ofPair (by assumption) ?_
    | split
    | (dsimp only; split)

def W.execFrameReturned : Nat := W.frameReturns ||| W.outward

theorem execFrameReturned_frame (lap path : Nat) (err : Int) (status : List (List Nat)) (s : State) : FrameN
    W.execFrameReturned s (execFrameReturned lap path err status s) := by
  unfold execFrameReturned
  repeat' first
    | refine done_fr ?_ ?_
    | with_reducible assumption
    | with_reducible exact Frame.refl _ _
    | (intro _ _ _)
    | (intro _ _)
    | decide +kernel
    | with_reducible apply Frame.step (frameReturns_frame ..)

def W.execRingOpen : Nat := W.outward ||| W.updTrl ||| em [E.TRL_RING_OPEN]

theorem execRingOpen_frame (s : State) : FrameN W.execRingOpen s (execRingOpen s) := by
  unfold execRingOpen
  repeat' first
    | refine done_fr ?_ ?_
    | with_reducible assumption
    | with_reducible exact Frame.refl _ _
    | (intro _ _ _)
    | (intro _ _)
    | decide +kernel
    | with_reducible apply Frame.step (updTrl_frame ..)
    | with_reducible apply raise_fr
    | with_reducible apply Frame.ite
    | with_reducible refine Frame.ofPair (by assumption) ?_
    | split
    | (dsimp only; split)

def W.execCollectExpiry : Nat := W.outward ||| W.updTrl

theorem execCollectExpiry_frame (s : State) : FrameN W.execCollectExpiry s (execCollectExpiry s) := by
  unfold execCollectExpiry
  repeat' first
    | refine done_fr ?_ ?_
    | with_reducible assumption
    | with_reducible exact Frame.refl _ _
    | (intro _ _ _)
    | (intro _ _)
    | decide +kernel
    | with_reducible apply Frame.step (updTrl_frame ..)
    | with_reducible apply Frame.ite
    | split
    | (dsimp only; split)

def W.execShiftAbortReceived : Nat := W.abortSeen ||| W.doneQ

theorem execShiftAbortReceived_frame (e : BitVec 64) (s : State) : FrameN W.execShiftAbortReceived s (execShiftAbortReceived e
    s) := by
  unfold execShiftAbortReceived
  repeat' first
    | refine doneQ_fr ?_ ?_
    | with_reducible assumption
    | with_reducible exact Frame.refl _ _
    | (intro _ _ _)
    | (intro _ _)
    | decide +kernel
    | with_reducible apply Frame.step (abortSeen_frame ..)

def W.passOn : Nat := 2 ^ 17

theorem passOn_frame (s : State) (m : MsgIn) (delivered busy : Bool) : Frame W.passOn s (State.passOn s m delivered busy) :=
    by
  unfold State.passOn
  repeat' first
    | with_reducible assumption
    | with_reducible exact Frame.refl _ _
    | decide +kernel
    | with_reducible apply Frame.emit

def W.onMessage : Nat := fm [F.TRL_ERR_CRC] ||| em [E.TRL_CRC_ERR] ||| W.passOn

theorem onMessage_fr {m : Nat} {r s : State} (h : Frame m r s) (hm : subMask W.onMessage m = true) {x : MsgIn} {k : Nat} {f : State → State}
    (hf : ∀ t, Frame m r t → Frame m r (f t)) : Frame m r (s.onMessage x k f) := by
  have h1 : subMask W.passOn m = true := subMask_trans (by decide +kernel) hm
  have h2 : m.testBit F.TRL_ERR_CRC.id = true := subMask_testBit hm (by decide +kernel)
  have h3 : evIn m E.TRL_CRC_ERR = true := evIn_sub hm (by decide +kernel)
  unfold State.onMessage
  split
  · exact h
  · split
    · exact (passOn_frame ..).step (raise_fr (h.count h2 ..) h3 ..) h1
    · split
      · exact hf _ h
      · exact (passOn_frame ..).step h h1

def W.execPieceMessage : Nat := W.doneQ ||| W.onMessage ||| W.passOn ||| W.pieceArrives

theorem execPieceMessage_frame (m : MsgIn) (sigOk : Bool) (s : State) : FrameN W.execPieceMessage s (execPieceMessage m sigOk
    s) := by
  unfold execPieceMessage
  repeat' first
    | refine doneQ_fr ?_ ?_
    | with_reducible assumption
    | with_reducible exact Frame.refl _ _
    | (intro _ _ _)
    | (intro _ _)
    | decide +kernel
    | with_reducible apply Frame.step (passOn_frame ..)
    | with_reducible apply Frame.step (pieceArrives_frame ..)
    | with_reducible apply onMessage_fr
    | with_reducible apply Frame.ite
    | split
    | (dsimp only; split)

def W.mgmtArrives : Nat := fm [F.TRL_RX_DATA_WORD, F.TRL_RX_STATUS_DROPS, F.TRL_RX_STATUS_FULL, F.TRL_RX_STATUS_KIND,
    F.TRL_RX_STATUS_LEN, F.TRL_RX_STATUS_SRC] ||| em [E.TRL_MSG_RX] ||| W.passOn

theorem mgmtArrives_frame (s : State) (m : MsgIn) : Frame W.mgmtArrives s (State.mgmtArrives s m) := by
  unfold State.mgmtArrives
  repeat' first
    | with_reducible assumption
    | with_reducible exact Frame.refl _ _
    | (intro _ _ _)
    | (intro _ _)
    | decide +kernel
    | (with_reducible apply Frame.forEach; rotate_left; intro _ _ _)
    | with_reducible apply Frame.count
    | with_reducible apply Frame.setB
    | with_reducible apply Frame.setF
    | with_reducible apply Frame.step (passOn_frame ..)
    | with_reducible apply raise_fr
    | with_reducible apply Frame.ite
    | with_reducible refine Frame.ofPair (by assumption) ?_
    | split
    | (dsimp only; split)

def W.execMgmtMessage : Nat := W.mgmtArrives ||| W.onMessage ||| W.outward

theorem execMgmtMessage_frame (m : MsgIn) (s : State) : FrameN W.execMgmtMessage s (execMgmtMessage m s) := by
  unfold execMgmtMessage
  repeat' first
    | refine done_fr ?_ ?_
    | with_reducible assumption
    | with_reducible exact Frame.refl _ _
    | (intro _ _ _)
    | (intro _ _)
    | decide +kernel
    | with_reducible apply Frame.step (mgmtArrives_frame ..)
    | with_reducible apply onMessage_fr

def W.execShiftReqMessage : Nat := W.headShift ||| W.onMessage ||| W.outward ||| W.passOn

theorem execShiftReqMessage_frame (m : MsgIn) (s : State) : FrameN W.execShiftReqMessage s (execShiftReqMessage m s) := by
  unfold execShiftReqMessage
  repeat' first
    | refine done_fr ?_ ?_
    | with_reducible assumption
    | with_reducible exact Frame.refl _ _
    | (intro _ _ _)
    | (intro _ _)
    | decide +kernel
    | with_reducible apply Frame.step (headShift_frame ..)
    | with_reducible apply Frame.step (passOn_frame ..)
    | with_reducible apply onMessage_fr
    | with_reducible apply Frame.ite
    | with_reducible refine Frame.ofPair (by assumption) ?_
    | split
    | (dsimp only; split)

def W.execExcludeMessage : Nat := W.headExclude ||| W.onMessage ||| W.outward ||| W.passOn

theorem execExcludeMessage_frame (m : MsgIn) (s : State) : FrameN W.execExcludeMessage s (execExcludeMessage m s) := by
  unfold execExcludeMessage
  repeat' first
    | refine done_fr ?_ ?_
    | with_reducible assumption
    | with_reducible exact Frame.refl _ _
    | (intro _ _ _)
    | (intro _ _)
    | decide +kernel
    | with_reducible apply Frame.step (headExclude_frame ..)
    | with_reducible apply Frame.step (passOn_frame ..)
    | with_reducible apply onMessage_fr
    | with_reducible apply Frame.ite
    | split
    | (dsimp only; split)

def W.txGo : Nat := fm [F.TRL_TX_STATUS_BUSY] ||| W.queueMsg

theorem txGo_frame (s : State) : Frame W.txGo s (State.txGo s) := by
  unfold State.txGo
  repeat' first
    | with_reducible assumption
    | with_reducible exact Frame.refl _ _
    | (intro _ _ _)
    | (intro _ _)
    | decide +kernel
    | with_reducible apply Frame.setB
    | with_reducible apply Frame.step (queueMsg_frame ..)

def W.writeTxCtl : Nat := em [E.TRL_CFG_REJECT] ||| rm [R.TRL_TX_CTL] ||| W.txGo

theorem writeTxCtl_frame (s : State) (w : Nat) : Frame W.writeTxCtl s (State.writeTxCtl s w) := by
  unfold State.writeTxCtl
  repeat' first
    | with_reducible assumption
    | with_reducible exact Frame.refl _ _
    | decide +kernel
    | (with_reducible apply Frame.onlyIf; rotate_left; intro _ _)
    | with_reducible apply Frame.step (txGo_frame ..)
    | with_reducible apply raise_fr
    | with_reducible apply storeReg_fr
    | with_reducible apply Frame.ite
    | with_reducible refine Frame.ofPair (by assumption) ?_
    | split
    | (dsimp only; split)

def W.execMsgSend : Nat := W.doneW ||| W.writeTxCtl

theorem execMsgSend_frame (w : BitVec 32) (s : State) : FrameN W.execMsgSend s (execMsgSend w s) := by
  unfold execMsgSend
  repeat' first
    | refine doneW_fr ?_ ?_
    | with_reducible assumption
    | with_reducible exact Frame.refl _ _
    | (intro _ _ _)
    | (intro _ _)
    | decide +kernel
    | with_reducible apply Frame.step (writeTxCtl_frame ..)

def W.msgReturns : Nat := W.msgResult ||| W.pieceArrives

theorem msgReturns_frame (s : State) (m : MsgIn) (sigOk : Bool) : Frame W.msgReturns s (State.msgReturns s m sigOk) := by
  unfold State.msgReturns
  repeat' first
    | with_reducible assumption
    | with_reducible exact Frame.refl _ _
    | (intro _ _ _)
    | (intro _ _)
    | decide +kernel
    | (with_reducible apply Frame.onlyIf; rotate_left; intro _ _)
    | with_reducible apply Frame.step (msgResult_frame ..)
    | with_reducible apply Frame.step (pieceArrives_frame ..)
    | with_reducible apply Frame.ite
    | split
    | (dsimp only; split)

def W.execMsgReturned : Nat := W.doneQ ||| W.msgReturns

theorem execMsgReturned_frame (m : MsgIn) (sigOk : Bool) (s : State) : FrameN W.execMsgReturned s (execMsgReturned m sigOk s)
    := by
  unfold execMsgReturned
  repeat' first
    | refine doneQ_fr ?_ ?_
    | with_reducible assumption
    | with_reducible exact Frame.refl _ _
    | (intro _ _ _)
    | (intro _ _)
    | decide +kernel
    | with_reducible apply Frame.step (msgReturns_frame ..)
    | with_reducible apply Frame.ite
    | split
    | (dsimp only; split)

def W.execMsgLost : Nat := W.loseMsg ||| W.outward

theorem execMsgLost_frame (s : State) : FrameN W.execMsgLost s (execMsgLost s) := by
  unfold execMsgLost
  repeat' first
    | refine done_fr ?_ ?_
    | with_reducible assumption
    | with_reducible exact Frame.refl _ _
    | (intro _ _ _)
    | (intro _ _)
    | decide +kernel
    | (with_reducible apply Frame.forEach; rotate_left; intro _ _ _)
    | with_reducible apply Frame.step (loseMsg_frame ..)
    | split
    | (dsimp only; split)

def W.execRxBufferFree : Nat := W.doneW ||| fm [F.TRL_RX_STATUS_FULL]

theorem execRxBufferFree_frame (s : State) : FrameN W.execRxBufferFree s (execRxBufferFree s) := by
  unfold execRxBufferFree
  repeat' first
    | refine doneW_fr ?_ ?_
    | with_reducible assumption
    | with_reducible exact Frame.refl _ _
    | (intro _ _ _)
    | (intro _ _)
    | decide +kernel
    | with_reducible apply Frame.setB

def W.shiftGo : Nat := fm [F.TRL_SHIFT_CTL_RESULT] ||| em [E.TRL_CFG_REJECT] ||| W.headShift ||| W.queueMsg ||| W.shiftResult
    ||| W.updTrl

theorem shiftGo_frame (s : State) : Frame W.shiftGo s (State.shiftGo s) := by
  unfold State.shiftGo
  repeat' first
    | with_reducible assumption
    | with_reducible exact Frame.refl _ _
    | (intro _ _ _)
    | (intro _ _)
    | decide +kernel
    | with_reducible apply Frame.setF
    | with_reducible apply Frame.step (headShift_frame ..)
    | with_reducible apply Frame.step (queueMsg_frame ..)
    | with_reducible apply Frame.step (shiftResult_frame ..)
    | with_reducible apply Frame.step (updTrl_frame ..)
    | with_reducible apply raise_fr
    | with_reducible apply Frame.ite
    | with_reducible refine Frame.ofPair (by assumption) ?_
    | split
    | (dsimp only; split)

def W.writeShiftCtl : Nat := rm [R.TRL_SHIFT_CTL] ||| W.shiftGo

theorem writeShiftCtl_frame (s : State) (w : Nat) : Frame W.writeShiftCtl s (State.writeShiftCtl s w) := by
  unfold State.writeShiftCtl
  repeat' first
    | with_reducible assumption
    | with_reducible exact Frame.refl _ _
    | decide +kernel
    | (with_reducible apply Frame.onlyIf; rotate_left; intro _ _)
    | with_reducible apply Frame.step (shiftGo_frame ..)
    | with_reducible apply storeReg_fr

def W.execShiftRequest : Nat := W.doneW ||| W.writeShiftCtl

theorem execShiftRequest_frame (w : BitVec 32) (s : State) : FrameN W.execShiftRequest s (execShiftRequest w s) := by
  unfold execShiftRequest
  repeat' first
    | refine doneW_fr ?_ ?_
    | with_reducible assumption
    | with_reducible exact Frame.refl _ _
    | (intro _ _ _)
    | (intro _ _)
    | decide +kernel
    | with_reducible apply Frame.step (writeShiftCtl_frame ..)

def W.exclGo : Nat := fm [F.TRL_EXCL_CTL_BUSY] ||| em [E.TRL_CFG_REJECT] ||| W.headExclude ||| W.queueMsg

theorem exclGo_frame (s : State) : Frame W.exclGo s (State.exclGo s) := by
  unfold State.exclGo
  repeat' first
    | with_reducible assumption
    | with_reducible exact Frame.refl _ _
    | (intro _ _ _)
    | (intro _ _)
    | decide +kernel
    | with_reducible apply Frame.setB
    | with_reducible apply Frame.step (headExclude_frame ..)
    | with_reducible apply Frame.step (queueMsg_frame ..)
    | with_reducible apply raise_fr
    | with_reducible apply Frame.ite
    | with_reducible refine Frame.ofPair (by assumption) ?_
    | split
    | (dsimp only; split)

def W.writeExclCtl : Nat := rm [R.TRL_EXCL_CTL] ||| W.exclGo

theorem writeExclCtl_frame (s : State) (w : Nat) : Frame W.writeExclCtl s (State.writeExclCtl s w) := by
  unfold State.writeExclCtl
  repeat' first
    | with_reducible assumption
    | with_reducible exact Frame.refl _ _
    | decide +kernel
    | (with_reducible apply Frame.onlyIf; rotate_left; intro _ _)
    | with_reducible apply Frame.step (exclGo_frame ..)
    | with_reducible apply storeReg_fr

def W.execExcludeRequest : Nat := W.doneW ||| W.writeExclCtl

theorem execExcludeRequest_frame (w : BitVec 32) (s : State) : FrameN W.execExcludeRequest s (execExcludeRequest w s) := by
  unfold execExcludeRequest
  repeat' first
    | refine doneW_fr ?_ ?_
    | with_reducible assumption
    | with_reducible exact Frame.refl _ _
    | (intro _ _ _)
    | (intro _ _)
    | decide +kernel
    | with_reducible apply Frame.step (writeExclCtl_frame ..)

def W.readRingTime : Nat := fm [F.TRL_TIME_HI_TIME_HI]

theorem readRingTime_frame (s : State) : Frame W.readRingTime s (State.readRingTime s).1 := by
  unfold State.readRingTime
  repeat' first
    | with_reducible assumption
    | with_reducible exact Frame.refl _ _
    | decide +kernel
    | with_reducible apply Frame.setF

def W.execRingTimeRead : Nat := 2 ^ 17 ||| W.outward ||| W.readRingTime ||| W.refuseRead

theorem execRingTimeRead_frame (s : State) : FrameN W.execRingTimeRead s (execRingTimeRead s) := by
  unfold execRingTimeRead
  repeat' first
    | refine done_fr ?_ ?_
    | with_reducible assumption
    | with_reducible exact Frame.refl _ _
    | (intro _ _ _)
    | (intro _ _)
    | decide +kernel
    | with_reducible apply Frame.emit
    | with_reducible apply Frame.step (readRingTime_frame ..)
    | with_reducible apply Frame.step (refuseRead_frame ..)
    | with_reducible apply Frame.ite
    | with_reducible refine Frame.ofPair (by assumption) ?_
    | split
    | (dsimp only; split)

def W.ringLockLoss : Nat := fm [F.TRL_ERR_LOCK_LOSS, F.TRL_STATUS_IN_LOCK]

theorem ringLockLoss_frame (s : State) : Frame W.ringLockLoss s (State.ringLockLoss s) := by
  unfold State.ringLockLoss
  repeat' first
    | with_reducible assumption
    | with_reducible exact Frame.refl _ _
    | decide +kernel
    | with_reducible apply Frame.count
    | with_reducible apply Frame.setB
    | with_reducible apply Frame.ite
    | split
    | (dsimp only; split)

def W.execRingInLockLoss : Nat := W.outward ||| W.ringLockLoss

theorem execRingInLockLoss_frame (s : State) : FrameN W.execRingInLockLoss s (execRingInLockLoss s) := by
  unfold execRingInLockLoss
  repeat' first
    | refine done_fr ?_ ?_
    | with_reducible assumption
    | with_reducible exact Frame.refl _ _
    | (intro _ _ _)
    | (intro _ _)
    | decide +kernel
    | with_reducible apply Frame.step (ringLockLoss_frame ..)

end Sys2Proof.Laws
end

