-- ==== Sys2Proof/Laws/FrRegRead.lean ====
section
/-!
SUPPORT. Frames of the operations of Machine/RegRead.lean: one law per operation, with the mask of what it may change.
-/
set_option Elab.async false
set_option linter.unusedTactic false
set_option linter.unreachableTactic false

namespace Sys2Proof.Laws

open Sys2Proof.Machine

/-- A mask names the fields of a register that a read clears. -/
def rcIn (m : Nat) (r : RegDef) : Bool := r.fields.all fun f => f.acc != .rc || m.testBit f.fld.id

/-- The mask of every field that a read clears. -/
def rcMask : Nat := allRegs.foldl (fun m r => m ||| fm ((r.fields.filter fun f => f.acc = .rc).map (·.fld))) 0

theorem rcIn_sub {a b : Nat} {r : RegDef} (h : subMask a b = true) (k : rcIn a r = true) : rcIn b r = true := by
  refine List.all_eq_true.2 fun f hf => ?_
  have x := List.all_eq_true.1 k f hf
  rcases Bool.or_eq_true_iff.1 x with y | y
  · rw [y]; rfl
  · rw [subMask_testBit h y]; exact Bool.or_true _

theorem rcIn_located {a i : Nat} {r : RegDef} (h : locateIn allRegs a = some (r, i)) : rcIn rcMask r = true :=
  List.all_eq_true.1 (by decide +kernel : allRegs.all (rcIn rcMask) = true) r (locateIn_mem h)

theorem rcIn_hqi {a i : Nat} {r : RegDef} (h : locateIn regsHqi a = some (r, i)) : rcIn rcMask r = true :=
  List.all_eq_true.1 (by decide +kernel : regsHqi.all (rcIn rcMask) = true) r (locateIn_mem h)

def W.readEffect : Nat := 2 ^ 14 ||| W.readCount ||| W.readRingTime

theorem readEffect_fr {m : Nat} {z s : State} (h : Frame m z s) {r : RegDef} (hd : rcIn m r = true)
    (hm : subMask W.readEffect m = true) (i : Nat) : Frame m z (s.readEffect r i) := by
  have h1 : Frame m z (r.fields.foldl (fun t f => if f.acc = .rc then t.setF f.fld i 0 else t) s) := by
    have hl : ∀ x ∈ r.fields, (x.acc != .rc || m.testBit x.fld.id) = true := fun x hx => (List.all_eq_true.1 hd) x hx
    refine Frame.forEachMem (l := r.fields) h ?_
    intro t x hx ht
    split
    · rename_i hc
      have hb := hl x hx
      rw [hc] at hb
      exact ht.setF hb ..
    · exact ht
  unfold State.readEffect
  dsimp only
  split
  · exact (readCount_frame _).step h1 (subMask_trans (by decide +kernel) hm)
  · split
    · exact (readRingTime_frame _).step h1 (subMask_trans (by decide +kernel) hm)
    · split
      · exact Frame.upd h1 rfl (.inl rfl) (.inl rfl) (.inl rfl) (.inl rfl) (.inl rfl) (.inl rfl) (.inl rfl) (.inl rfl)
          (.inl rfl) (.inl rfl) (.inl rfl) (.inl rfl) (.inl rfl) (.inr (subMask_testBit hm (by decide +kernel))) (.inl rfl) (.inl rfl)
          (.inl rfl)
      · exact h1

def W.readReg : Nat := 2 ^ 17 ||| W.readEffect

theorem readReg_fr {m : Nat} {z s : State} (h : Frame m z s) {r : RegDef} (hd : rcIn m r = true)
    (hm : subMask W.readReg m = true) (i : Nat) : Frame m z (s.readReg r i) :=
  (readEffect_fr h hd (subMask_trans (by decide +kernel) hm) i).emit (subMask_testBit hm (by decide +kernel)) _

def W.readHigh : Nat := 2 ^ 17 ||| W.fetchEntry

theorem readHigh_fr {m : Nat} {z s : State} (h : Frame m z s) {r : RegDef} (hd : regIn m r = true) (hm : subMask W.readHigh m
    = true) (i : Nat) (a : Nat) : Frame m z (State.readHigh s r i a) := by
  unfold State.readHigh
  repeat' first
    | with_reducible assumption
    | exact subMask_trans (by decide +kernel) hm
    | exact subMask_testBit hm (by decide +kernel)
    | exact evIn_sub hm (by decide +kernel)
    | exact regIn_sub hm (by decide +kernel)
    | (intro _ _ _)
    | (intro _ _)
    | with_reducible apply Frame.emit
    | with_reducible apply fetchEntry_fr
    | with_reducible apply Frame.ite
    | with_reducible refine Frame.ofPair (by assumption) ?_
    | split
    | (dsimp only; split)

def W.readPf1 : Nat := 2 ^ 17 ||| W.readHigh ||| W.readLow ||| W.readReg ||| rm tableRegs ||| rcMask

theorem readPf1_frame (s : State) (a : Nat) : Frame W.readPf1 s (s.readPf1 a) := by
  unfold State.readPf1
  split
  · exact (readLow_frame _ _).mono (by decide +kernel)
  · split
    · rename_i r i e
      refine readHigh_fr (Frame.refl _ _) ?_ (by decide +kernel) ..
      split at e
      · exact regIn_sub (a := rm tableRegs) (by decide +kernel) (regIn_table e (by decide +kernel))
      · simp at e
    · split
      · exact readReg_fr (Frame.refl _ _) (rcIn_sub (by decide +kernel) (rcIn_located (by assumption))) (by decide +kernel) ..
      · exact (Frame.refl _ _).emit (by decide +kernel) _

def W.readPf0 : Nat := 2 ^ 17 ||| W.readReg ||| rcMask

theorem readPf0_frame (s : State) (a : Nat) : Frame W.readPf0 s (s.readPf0 a) := by
  unfold State.readPf0
  split
  · exact readReg_fr (Frame.refl _ _) (rcIn_sub (by decide +kernel) (rcIn_hqi (by assumption))) (by decide +kernel) ..
  · exact (Frame.refl _ _).emit (by decide +kernel) _

def W.readMsix : Nat := 2 ^ 17

theorem readMsix_frame (s : State) (fn a : Nat) : Frame W.readMsix s (State.readMsix s fn a) := by
  unfold State.readMsix
  repeat' first
    | with_reducible assumption
    | with_reducible exact Frame.refl _ _
    | (intro _ _ _)
    | (intro _ _)
    | decide +kernel
    | with_reducible apply Frame.emit
    | with_reducible apply Frame.ite
    | split
    | (dsimp only; split)

def W.busRead : Nat := em [E.HIF_CFG_REJECT] ||| 2 ^ 17 ||| W.readMsix ||| W.readPf0 ||| W.readPf1 ||| W.refuseRead

theorem busRead_frame (s : State) (sp : RegSpace) (a : Nat) : Frame W.busRead s (State.busRead s sp a) := by
  unfold State.busRead
  repeat' first
    | with_reducible assumption
    | with_reducible exact Frame.refl _ _
    | decide +kernel
    | with_reducible apply Frame.emit
    | with_reducible apply Frame.step (readMsix_frame ..)
    | with_reducible apply Frame.step (readPf0_frame ..)
    | with_reducible apply Frame.step (readPf1_frame ..)
    | with_reducible apply Frame.step (refuseRead_frame ..)
    | with_reducible apply raise_fr
    | with_reducible apply Frame.ite
    | with_reducible refine Frame.ofPair (by assumption) ?_
    | split
    | (dsimp only; split)

def W.execRcRead : Nat := W.busRead ||| W.outward

theorem execRcRead_frame (sp : RegSpace) (a : BitVec 32) (s : State) : FrameN W.execRcRead s (execRcRead sp a s) := by
  unfold execRcRead
  repeat' first
    | refine done_fr ?_ ?_
    | with_reducible assumption
    | with_reducible exact Frame.refl _ _
    | (intro _ _ _)
    | (intro _ _)
    | decide +kernel
    | with_reducible apply Frame.step (busRead_frame ..)

end Sys2Proof.Laws
end

