-- ==== Sys2Proof/Laws/FrWndCmds.lean ====
section
/-!
SUPPORT. Frames of the operations of Machine/WndCmds.lean: one law per operation, with the mask of what it may change.
-/
set_option Elab.async false
set_option linter.unusedTactic false
set_option linter.unreachableTactic false

namespace Sys2Proof.Laws

open Sys2Proof.Machine

def W.obsLate : Nat := fm [F.TCK_WND_OVR_OBS, F.WND_STATUS_ANGLE_VALID] ||| em [E.TCK_OBS_LATE, E.TCK_OBS_LOST] ||| W.loseSync
    ||| W.updWnd ||| fm [F.TCK_OVR_DECKS_DECK]

theorem obsLate_frame (s : State) (d : Nat) : Frame W.obsLate s (State.obsLate s d) := by
  unfold State.obsLate
  repeat' first
    | with_reducible assumption
    | with_reducible exact Frame.refl _ _
    | (intro _ _ _)
    | (intro _ _)
    | decide +kernel
    | with_reducible apply Frame.count
    | with_reducible apply Frame.setB
    | with_reducible apply Frame.step (loseSync_frame ..)
    | with_reducible apply Frame.step (updWnd_frame ..)
    | with_reducible apply raiseTckDeck_fr
    | with_reducible apply Frame.ite
    | split
    | (dsimp only; split)

def W.execObsLate : Nat := W.doneQ ||| W.obsLate

theorem execObsLate_frame (d : Fin 8) (s : State) : FrameN W.execObsLate s (execObsLate d s) := by
  unfold execObsLate
  repeat' first
    | refine doneQ_fr ?_ ?_
    | with_reducible assumption
    | with_reducible exact Frame.refl _ _
    | (intro _ _ _)
    | (intro _ _)
    | decide +kernel
    | with_reducible apply Frame.step (obsLate_frame ..)

def W.wndOvr : Nat := fm [F.TCK_WND_OVR_STEP] ||| em [E.TCK_WND_OVR] ||| W.deckFatal ||| W.startShort ||| W.updWnd ||| fm
    [F.TCK_OVR_DECKS_DECK]

theorem wndOvr_frame (s : State) (d : Nat) : Frame W.wndOvr s (State.wndOvr s d) := by
  unfold State.wndOvr
  repeat' first
    | with_reducible assumption
    | with_reducible exact Frame.refl _ _
    | (intro _ _ _)
    | (intro _ _)
    | decide +kernel
    | with_reducible apply Frame.count
    | with_reducible apply Frame.step (deckFatal_frame ..)
    | with_reducible apply Frame.step (startShort_frame ..)
    | with_reducible apply Frame.step (updWnd_frame ..)
    | with_reducible apply raiseTckDeck_fr
    | with_reducible apply Frame.ite
    | split
    | (dsimp only; split)

def W.execWndOvr : Nat := W.doneQ ||| W.wndOvr

theorem execWndOvr_frame (d : Fin 8) (s : State) : FrameN W.execWndOvr s (execWndOvr d s) := by
  unfold execWndOvr
  repeat' first
    | refine doneQ_fr ?_ ?_
    | with_reducible assumption
    | with_reducible exact Frame.refl _ _
    | (intro _ _ _)
    | (intro _ _)
    | decide +kernel
    | with_reducible apply Frame.step (wndOvr_frame ..)
    | with_reducible apply Frame.ite
    | split
    | (dsimp only; split)

def W.wndReject : Nat := em [E.WND_CFG_REJECT]

theorem wndReject_frame (s : State) (d : Nat) : Frame W.wndReject s (State.wndReject s d) := by
  unfold State.wndReject
  repeat' first
    | with_reducible assumption
    | with_reducible exact Frame.refl _ _
    | (intro _ _ _)
    | (intro _ _)
    | decide +kernel
    | (with_reducible apply Frame.onlyIf; rotate_left; intro _ _)
    | with_reducible apply raise_fr
    | with_reducible refine Frame.ofPair (by assumption) ?_

def W.deckLoad : Nat := W.setDeck ||| W.updWrite ||| W.wndReject

theorem deckLoad_frame (s : State) (d : Nat) : Frame W.deckLoad s (State.deckLoad s d) := by
  unfold State.deckLoad
  repeat' first
    | with_reducible assumption
    | with_reducible exact Frame.refl _ _
    | (intro _ _ _)
    | (intro _ _)
    | decide +kernel
    | (with_reducible apply Frame.forEach; rotate_left; intro _ _ _)
    | with_reducible apply Frame.step (setDeck_frame ..)
    | with_reducible apply Frame.step (updWrite_frame ..)
    | with_reducible apply Frame.step (wndReject_frame ..)
    | with_reducible apply Frame.ite
    | split
    | (dsimp only; split)

def W.execDeckLoad : Nat := W.deckLoad ||| W.doneW

theorem execDeckLoad_frame (d : Fin 8) (s : State) : FrameN W.execDeckLoad s (execDeckLoad d s) := by
  unfold execDeckLoad
  repeat' first
    | refine doneW_fr ?_ ?_
    | with_reducible assumption
    | with_reducible exact Frame.refl _ _
    | (intro _ _ _)
    | (intro _ _)
    | decide +kernel
    | with_reducible apply Frame.step (deckLoad_frame ..)

def W.deckStart : Nat := W.startDeck ||| W.wndReject

theorem deckStart_frame (s : State) (d : Nat) : Frame W.deckStart s (State.deckStart s d) := by
  unfold State.deckStart
  repeat' first
    | with_reducible assumption
    | with_reducible exact Frame.refl _ _
    | decide +kernel
    | with_reducible apply Frame.step (startDeck_frame ..)
    | with_reducible apply Frame.step (wndReject_frame ..)
    | with_reducible apply Frame.ite
    | split
    | (dsimp only; split)

def W.execDeckStart : Nat := W.deckStart ||| W.doneW

theorem execDeckStart_frame (d : Fin 8) (s : State) : FrameN W.execDeckStart s (execDeckStart d s) := by
  unfold execDeckStart
  repeat' first
    | refine doneW_fr ?_ ?_
    | with_reducible assumption
    | with_reducible exact Frame.refl _ _
    | (intro _ _ _)
    | (intro _ _)
    | decide +kernel
    | with_reducible apply Frame.step (deckStart_frame ..)

def W.deckStop : Nat := W.brakeDeck ||| W.wndReject

theorem deckStop_frame (s : State) (d : Nat) : Frame W.deckStop s (State.deckStop s d) := by
  unfold State.deckStop
  repeat' first
    | with_reducible assumption
    | with_reducible exact Frame.refl _ _
    | decide +kernel
    | with_reducible apply Frame.step (brakeDeck_frame ..)
    | with_reducible apply Frame.step (wndReject_frame ..)
    | with_reducible apply Frame.ite
    | split
    | (dsimp only; split)

def W.execDeckStop : Nat := W.deckStop ||| W.doneW

theorem execDeckStop_frame (d : Fin 8) (s : State) : FrameN W.execDeckStop s (execDeckStop d s) := by
  unfold execDeckStop
  repeat' first
    | refine doneW_fr ?_ ?_
    | with_reducible assumption
    | with_reducible exact Frame.refl _ _
    | (intro _ _ _)
    | (intro _ _)
    | decide +kernel
    | with_reducible apply Frame.step (deckStop_frame ..)

def W.deckUnload : Nat := W.lrnClearDeck ||| W.setDeck ||| W.wndReject

theorem deckUnload_frame (s : State) (d : Nat) : Frame W.deckUnload s (State.deckUnload s d) := by
  unfold State.deckUnload
  repeat' first
    | with_reducible assumption
    | with_reducible exact Frame.refl _ _
    | decide +kernel
    | with_reducible apply Frame.step (lrnClearDeck_frame ..)
    | with_reducible apply Frame.step (setDeck_frame ..)
    | with_reducible apply Frame.step (wndReject_frame ..)
    | with_reducible apply Frame.ite
    | split
    | (dsimp only; split)

def W.execDeckUnload : Nat := W.deckUnload ||| W.doneW

theorem execDeckUnload_frame (d : Fin 8) (s : State) : FrameN W.execDeckUnload s (execDeckUnload d s) := by
  unfold execDeckUnload
  repeat' first
    | refine doneW_fr ?_ ?_
    | with_reducible assumption
    | with_reducible exact Frame.refl _ _
    | (intro _ _ _)
    | (intro _ _)
    | decide +kernel
    | with_reducible apply Frame.step (deckUnload_frame ..)

def W.deckFaultReset : Nat := fm [F.PWR_RESET_CAUSE_HEAD_DECK] ||| W.setDeck ||| W.updWnd ||| W.wndReject ||| fm
    [F.PWR_RESET_CAUSE_LAST]

theorem deckFaultReset_frame (s : State) (d : Nat) : Frame W.deckFaultReset s (State.deckFaultReset s d) := by
  unfold State.deckFaultReset
  repeat' first
    | with_reducible assumption
    | with_reducible exact Frame.refl _ _
    | (intro _ _ _)
    | (intro _ _)
    | decide +kernel
    | with_reducible apply Frame.step (setDeck_frame ..)
    | with_reducible apply Frame.step (updWnd_frame ..)
    | with_reducible apply Frame.step (wndReject_frame ..)
    | with_reducible apply resetSource_fr
    | with_reducible apply Frame.ite
    | split
    | (dsimp only; split)

def W.execDeckFaultReset : Nat := W.deckFaultReset ||| W.doneW ||| W.updWnd

theorem execDeckFaultReset_frame (d : Fin 8) (drvHigh : Bool) (s : State) : FrameN W.execDeckFaultReset s (execDeckFaultReset
    d drvHigh s) := by
  unfold execDeckFaultReset
  repeat' first
    | refine doneW_fr ?_ ?_
    | with_reducible assumption
    | with_reducible exact Frame.refl _ _
    | (intro _ _ _)
    | (intro _ _)
    | decide +kernel
    | with_reducible apply Frame.step (deckFaultReset_frame ..)
    | with_reducible apply Frame.step (updWnd_frame ..)

def W.wndEnable : Nat := fm [F.WND_CTL_EN] ||| W.brakeDeck

theorem wndEnable_frame (s : State) (d : Nat) (b : Bool) : Frame W.wndEnable s (State.wndEnable s d b) := by
  unfold State.wndEnable
  repeat' first
    | with_reducible assumption
    | with_reducible exact Frame.refl _ _
    | (intro _ _ _)
    | (intro _ _)
    | decide +kernel
    | with_reducible apply Frame.setB
    | with_reducible apply Frame.step (brakeDeck_frame ..)
    | with_reducible apply Frame.ite
    | split
    | (dsimp only; split)

def W.writeSpeed : Nat := fm [F.WND_SPEED_SET_TARGET] ||| em [E.WND_CFG_REJECT]

theorem writeSpeed_frame (s : State) (d v : Nat) : Frame W.writeSpeed s (State.writeSpeed s d v) := by
  unfold State.writeSpeed
  repeat' first
    | with_reducible assumption
    | with_reducible exact Frame.refl _ _
    | decide +kernel
    | with_reducible apply Frame.setF
    | with_reducible apply raise_fr
    | with_reducible apply Frame.ite
    | with_reducible refine Frame.ofPair (by assumption) ?_
    | split
    | (dsimp only; split)

def W.execSpeedTargetWrite : Nat := W.doneW ||| W.writeSpeed

theorem execSpeedTargetWrite_frame (d : Fin 8) (target : BitVec 16) (s : State) : FrameN W.execSpeedTargetWrite s
    (execSpeedTargetWrite d target s) := by
  unfold execSpeedTargetWrite
  repeat' first
    | refine doneW_fr ?_ ?_
    | with_reducible assumption
    | with_reducible exact Frame.refl _ _
    | (intro _ _ _)
    | (intro _ _)
    | decide +kernel
    | with_reducible apply Frame.step (writeSpeed_frame ..)

def W.trip : Nat := W.deckFatal ||| W.gatesOff ||| W.updWnd

theorem trip_fr {m : Nat} {r s : State} (h : Frame m r s) {e : Event} (he : evIn m e = true) (hm : subMask W.trip m = true) (d : Nat) :
    Frame m r (s.trip d e) := by
  have h1 := raise_fr ((gatesOff_frame s d).step h (subMask_trans (by decide +kernel) hm)) he d
  unfold State.trip
  dsimp only
  split
  · exact h1
  · exact (deckFatal_frame ..).step ((updWnd_frame ..).step h1 (subMask_trans (by decide +kernel) hm))
      (subMask_trans (by decide +kernel) hm)

def W.execOvercurrent : Nat := W.doneQ ||| W.trip ||| em [E.WND_OVERCURRENT]

theorem execOvercurrent_frame (d : Fin 8) (s : State) : FrameN W.execOvercurrent s (execOvercurrent d s) := by
  unfold execOvercurrent
  repeat' first
    | refine doneQ_fr ?_ ?_
    | with_reducible assumption
    | with_reducible exact Frame.refl _ _
    | (intro _ _ _)
    | (intro _ _)
    | decide +kernel
    | with_reducible apply trip_fr

def W.execDrvFault : Nat := W.doneQ ||| W.trip ||| W.updWnd ||| em [E.WND_DRV_FAULT]

theorem execDrvFault_frame (d : Fin 8) (s : State) : FrameN W.execDrvFault s (execDrvFault d s) := by
  unfold execDrvFault
  repeat' first
    | refine doneQ_fr ?_ ?_
    | with_reducible assumption
    | with_reducible exact Frame.refl _ _
    | (intro _ _ _)
    | (intro _ _)
    | decide +kernel
    | with_reducible apply Frame.step (updWnd_frame ..)
    | with_reducible apply trip_fr

def W.gateHoldEnd : Nat := W.startShort ||| W.updWnd

theorem gateHoldEnd_frame (s : State) (d : Nat) (drvHigh clear : Bool) : Frame W.gateHoldEnd s (State.gateHoldEnd s d drvHigh
    clear) := by
  unfold State.gateHoldEnd
  repeat' first
    | with_reducible assumption
    | with_reducible exact Frame.refl _ _
    | (intro _ _ _)
    | (intro _ _)
    | decide +kernel
    | with_reducible apply Frame.step (startShort_frame ..)
    | with_reducible apply Frame.step (updWnd_frame ..)
    | with_reducible apply Frame.ite
    | split
    | (dsimp only; split)

def W.execGateHoldEnd : Nat := W.gateHoldEnd ||| W.outward

theorem execGateHoldEnd_frame (d : Fin 8) (drvHigh clear : Bool) (s : State) : FrameN W.execGateHoldEnd s (execGateHoldEnd d
    drvHigh clear s) := by
  unfold execGateHoldEnd
  repeat' first
    | refine done_fr ?_ ?_
    | with_reducible assumption
    | with_reducible exact Frame.refl _ _
    | (intro _ _ _)
    | (intro _ _)
    | decide +kernel
    | with_reducible apply Frame.step (gateHoldEnd_frame ..)

def W.pillarReport : Nat := W.useReport

theorem pillarReport_frame (s : State) (d : Nat) : Frame W.pillarReport s (State.pillarReport s d) := by
  unfold State.pillarReport
  repeat' first
    | with_reducible assumption
    | with_reducible exact Frame.refl _ _
    | (intro _ _ _)
    | (intro _ _)
    | decide +kernel
    | with_reducible apply Frame.step (useReport_frame ..)
    | with_reducible apply Frame.ite
    | split
    | (dsimp only; split)

def W.execPillarReport : Nat := W.outward ||| W.pillarReport

theorem execPillarReport_frame (d : Fin 8) (s : State) : FrameN W.execPillarReport s (execPillarReport d s) := by
  unfold execPillarReport
  repeat' first
    | refine done_fr ?_ ?_
    | with_reducible assumption
    | with_reducible exact Frame.refl _ _
    | (intro _ _ _)
    | (intro _ _)
    | decide +kernel
    | with_reducible apply Frame.step (pillarReport_frame ..)

def W.seedObserver : Nat := W.updWnd

theorem seedObserver_frame (s : State) (d : Nat) (v : Int) (elec : Nat) : Frame W.seedObserver s (State.seedObserver s d v
    elec) := by
  unfold State.seedObserver
  repeat' first
    | with_reducible assumption
    | with_reducible exact Frame.refl _ _
    | (intro _ _ _)
    | (intro _ _)
    | decide +kernel
    | with_reducible apply Frame.step (updWnd_frame ..)

def W.measureEnd : Nat := fm [F.WND_CATCH_RESULT, F.WND_CATCH_SPEED] ||| W.seedObserver ||| W.setPhase

theorem measureEnd_frame (s : State) (d : Nat) : Frame W.measureEnd s (State.measureEnd s d) := by
  unfold State.measureEnd
  repeat' first
    | with_reducible assumption
    | with_reducible exact Frame.refl _ _
    | (intro _ _ _)
    | (intro _ _)
    | decide +kernel
    | with_reducible apply Frame.setF
    | with_reducible apply Frame.step (seedObserver_frame ..)
    | with_reducible apply Frame.step (setPhase_frame ..)
    | with_reducible apply Frame.ite
    | split
    | (dsimp only; split)

def W.execSpinMeasureEnd : Nat := W.measureEnd ||| W.outward

theorem execSpinMeasureEnd_frame (d : Fin 8) (s : State) : FrameN W.execSpinMeasureEnd s (execSpinMeasureEnd d s) := by
  unfold execSpinMeasureEnd
  repeat' first
    | refine done_fr ?_ ?_
    | with_reducible assumption
    | with_reducible exact Frame.refl _ _
    | (intro _ _ _)
    | (intro _ _)
    | decide +kernel
    | with_reducible apply Frame.step (measureEnd_frame ..)

def W.alignEnd : Nat := W.setPhase ||| W.updWnd

theorem alignEnd_frame (s : State) (d : Nat) : Frame W.alignEnd s (State.alignEnd s d) := by
  unfold State.alignEnd
  repeat' first
    | with_reducible assumption
    | with_reducible exact Frame.refl _ _
    | (intro _ _ _)
    | (intro _ _)
    | decide +kernel
    | with_reducible apply Frame.step (setPhase_frame ..)
    | with_reducible apply Frame.step (updWnd_frame ..)
    | with_reducible apply Frame.ite
    | split
    | (dsimp only; split)

def W.execAlignEnd : Nat := W.alignEnd ||| W.outward

theorem execAlignEnd_frame (d : Fin 8) (s : State) : FrameN W.execAlignEnd s (execAlignEnd d s) := by
  unfold execAlignEnd
  repeat' first
    | refine done_fr ?_ ?_
    | with_reducible assumption
    | with_reducible exact Frame.refl _ _
    | (intro _ _ _)
    | (intro _ _)
    | decide +kernel
    | with_reducible apply Frame.step (alignEnd_frame ..)

def W.spinFail : Nat := em [E.WND_SPIN_FAIL] ||| W.deckFatal

theorem spinFail_frame (s : State) (d : Nat) : Frame W.spinFail s (State.spinFail s d) := by
  unfold State.spinFail
  repeat' first
    | with_reducible assumption
    | with_reducible exact Frame.refl _ _
    | decide +kernel
    | with_reducible apply Frame.step (deckFatal_frame ..)
    | with_reducible apply raise_fr
    | with_reducible refine Frame.ofPair (by assumption) ?_

def W.handoverTimeout : Nat := W.gatesOff ||| W.spinFail ||| W.updWnd

theorem handoverTimeout_frame (s : State) (d : Nat) : Frame W.handoverTimeout s (State.handoverTimeout s d) := by
  unfold State.handoverTimeout
  repeat' first
    | with_reducible assumption
    | with_reducible exact Frame.refl _ _
    | (intro _ _ _)
    | (intro _ _)
    | decide +kernel
    | with_reducible apply Frame.step (gatesOff_frame ..)
    | with_reducible apply Frame.step (spinFail_frame ..)
    | with_reducible apply Frame.step (updWnd_frame ..)
    | with_reducible apply Frame.ite
    | split
    | (dsimp only; split)

def W.execHandoverTimeout : Nat := W.doneQ ||| W.handoverTimeout

theorem execHandoverTimeout_frame (d : Fin 8) (s : State) : FrameN W.execHandoverTimeout s (execHandoverTimeout d s) := by
  unfold execHandoverTimeout
  repeat' first
    | refine doneQ_fr ?_ ?_
    | with_reducible assumption
    | with_reducible exact Frame.refl _ _
    | (intro _ _ _)
    | (intro _ _)
    | decide +kernel
    | with_reducible apply Frame.step (handoverTimeout_frame ..)

def W.execSpinFail : Nat := W.doneQ ||| W.spinFail

theorem execSpinFail_frame (d : Fin 8) (s : State) : FrameN W.execSpinFail s (execSpinFail d s) := by
  unfold execSpinFail
  repeat' first
    | refine doneQ_fr ?_ ?_
    | with_reducible assumption
    | with_reducible exact Frame.refl _ _
    | (intro _ _ _)
    | (intro _ _)
    | decide +kernel
    | with_reducible apply Frame.step (spinFail_frame ..)
    | with_reducible apply Frame.ite
    | split
    | (dsimp only; split)

def W.shortHoldEnd : Nat := W.gatesOff ||| W.updWnd

theorem shortHoldEnd_frame (s : State) (d : Nat) : Frame W.shortHoldEnd s (State.shortHoldEnd s d) := by
  unfold State.shortHoldEnd
  repeat' first
    | with_reducible assumption
    | with_reducible exact Frame.refl _ _
    | (intro _ _ _)
    | (intro _ _)
    | decide +kernel
    | with_reducible apply Frame.step (gatesOff_frame ..)
    | with_reducible apply Frame.step (updWnd_frame ..)
    | with_reducible apply Frame.ite
    | split
    | (dsimp only; split)

def W.execShortHoldEnd : Nat := W.outward ||| W.shortHoldEnd

theorem execShortHoldEnd_frame (d : Fin 8) (s : State) : FrameN W.execShortHoldEnd s (execShortHoldEnd d s) := by
  unfold execShortHoldEnd
  repeat' first
    | refine done_fr ?_ ?_
    | with_reducible assumption
    | with_reducible exact Frame.refl _ _
    | (intro _ _ _)
    | (intro _ _)
    | decide +kernel
    | with_reducible apply Frame.step (shortHoldEnd_frame ..)

def W.execStopped : Nat := W.doneQ ||| W.removeDeck ||| W.setDeck ||| em [E.WND_STOPPED]

theorem execStopped_frame (d : Fin 8) (s : State) : FrameN W.execStopped s (execStopped d s) := by
  unfold execStopped
  repeat' first
    | refine doneQ_fr ?_ ?_
    | with_reducible assumption
    | with_reducible exact Frame.refl _ _
    | (intro _ _ _)
    | (intro _ _)
    | decide +kernel
    | with_reducible apply Frame.step (removeDeck_frame ..)
    | with_reducible apply Frame.step (setDeck_frame ..)
    | with_reducible apply raise_fr
    | with_reducible apply Frame.ite
    | with_reducible refine Frame.ofPair (by assumption) ?_
    | split
    | (dsimp only; split)

end Sys2Proof.Laws
end

