-- ==== Sys2Proof/Laws/FrRegWrite.lean ====
section
/-!
SUPPORT. Frames of the operations of Machine/RegWrite.lean: one law per operation, with the mask of what it may change.
-/
set_option Elab.async false
set_option linter.unusedTactic false
set_option linter.unreachableTactic false

namespace Sys2Proof.Laws

open Sys2Proof.Machine

/-- The mask of the bits of every event register, and of the marks of forced bits. -/
def eventBits : Nat := allEvtRegs.foldl (fun m e => m ||| fm e.bits ||| 2 ^ e.forced.id) 0

/-- The mask of every mask register. -/
def eventMasks : Nat := allEvtRegs.foldl (fun m e => m ||| 2 ^ e.mask.id) 0

/-- A mask names the bits of an event register, and its marks. -/
def evtIn (m : Nat) (e : EvtReg) : Bool := e.bits.all (fun b => m.testBit b.id) && m.testBit e.forced.id

theorem evtIn_all {e : EvtReg} (h : e ∈ allEvtRegs) : evtIn eventBits e = true :=
  List.all_eq_true.1 (by decide +kernel : allEvtRegs.all (evtIn eventBits) = true) e h

theorem maskIn_all {e : EvtReg} (h : e ∈ allEvtRegs) : eventMasks.testBit e.mask.id = true :=
  List.all_eq_true.1 (by decide +kernel : (allEvtRegs.all fun e => eventMasks.testBit e.mask.id) = true) e h

theorem evt_mem {r : RegDef} {p : EvtReg × EvtPart} (h : r.evt? = some p) : p.1 ∈ allEvtRegs := by
  unfold RegDef.evt? at h
  split at h
  · simp at h
  · split at h
    · cases h
      exact List.mem_of_find?_eq_some (by assumption)
    · split at h
      · cases h
        exact List.mem_of_find?_eq_some (by assumption)
      · obtain ⟨e, he, rfl⟩ := Option.map_eq_some_iff.1 h
        exact List.mem_of_find?_eq_some he

theorem evtAt_mem {a : Nat} {p : EvtReg × EvtPart × Nat} (h : evtAt a = some p) : p.1 ∈ allEvtRegs := by
  unfold evtAt at h
  split at h
  · obtain ⟨q, hq, rfl⟩ := Option.map_eq_some_iff.1 h
    exact evt_mem hq
  · simp at h

def W.resignal : Nat := W.outward

theorem resignal_frame (s before : State) (e : EvtReg) (i : Nat) : Frame W.resignal s (s.resignal before e i) :=
  (Frame.refl _ _).forEach fun _ _ ht => (signal1_frame ..).step ht (by decide +kernel)

def W.evtClear : Nat := W.resignal ||| eventBits ||| W.outward

theorem evtClear_fr {m : Nat} {r s : State} (h : Frame m r s) {e : EvtReg} (he : evtIn m e = true) (hm : subMask W.outward m = true) (i w : Nat) :
    Frame m r (s.evtClear e i w) := by
  have x := Bool.and_eq_true_iff.1 he
  unfold State.evtClear
  refine (resignal_frame ..).step (Frame.forEachMem h fun t p hp ht => (ht.setB ?_ ..).putF x.2 ..) hm
  have hb : p.1 ∈ e.bits := by
    have h1 := List.mem_of_mem_filter hp
    have h2 := List.mem_zipIdx h1
    rw [h2.2.2]
    exact List.getElem_mem _
  exact List.all_eq_true.1 x.1 _ hb

def W.evtMask : Nat := W.resignal ||| eventMasks ||| W.outward

theorem evtMask_fr {m : Nat} {r s : State} (h : Frame m r s) {e : EvtReg} (he : m.testBit e.mask.id = true) (hm : subMask W.outward m = true) (i w : Nat) :
    Frame m r (s.evtMask e i w) := (resignal_frame ..).step (h.setF he ..) hm

def W.evtForce : Nat := eventBits

theorem evtForce_fr {m : Nat} {r s : State} (h : Frame m r s) {e : EvtReg} (he : evtIn m e = true) (i w : Nat) : Frame m r (s.evtForce e i w) := by
  have x := Bool.and_eq_true_iff.1 he
  unfold State.evtForce
  refine Frame.forEachMem h fun t p hp ht => (ht.setB ?_ ..).putF x.2 ..
  have hb : p.1 ∈ e.bits := by
    have h1 := List.mem_of_mem_filter hp
    have h2 := List.mem_zipIdx h1
    rw [h2.2.2]
    exact List.getElem_mem _
  exact List.all_eq_true.1 x.1 _ hb

def W.evtWrite : Nat := eventBits ||| eventBits ||| W.outward ||| eventMasks ||| W.outward

theorem evtWrite_fr {m : Nat} {r s : State} (h : Frame m r s) {e : EvtReg} (he : e ∈ allEvtRegs) (p : EvtPart) (hm : subMask W.evtWrite m = true) (i w : Nat) :
    Frame m r (s.evtWrite e p i w) := by
  have h1 : subMask eventBits m = true := subMask_trans (by decide +kernel) hm
  have h2 : evtIn m e = true := by
    have x := Bool.and_eq_true_iff.1 (evtIn_all he)
    exact Bool.and_eq_true_iff.2 ⟨List.all_eq_true.2 fun b hb => subMask_testBit h1 (List.all_eq_true.1 x.1 b hb),
      subMask_testBit h1 x.2⟩
  unfold State.evtWrite
  split
  · exact evtClear_fr h h2 (subMask_trans (by decide +kernel) hm) ..
  · exact evtMask_fr h (subMask_testBit (subMask_trans (by decide +kernel) hm) (maskIn_all he))
      (subMask_trans (by decide +kernel) hm) ..
  · exact evtForce_fr h h2 ..

def W.evtWriteAt : Nat := W.evtWrite

theorem evtWriteAt_frame (s : State) (part : EvtPart) (a w : Nat) : Frame W.evtWriteAt s (s.evtWriteAt part a w) := by
  unfold State.evtWriteAt
  split
  · rename_i e p i h
    have he : e ∈ allEvtRegs := evtAt_mem h
    split
    · exact evtWrite_fr (Frame.refl _ _) he _ (by decide +kernel) ..
    · exact Frame.refl _ _
  · exact Frame.refl _ _

theorem evtIn_mono {a b : Nat} {e : EvtReg} (h : subMask a b = true) (k : evtIn a e = true) : evtIn b e = true := by
  have x := Bool.and_eq_true_iff.1 k
  exact Bool.and_eq_true_iff.2 ⟨List.all_eq_true.2 fun f hf => subMask_testBit h (List.all_eq_true.1 x.1 f hf),
    subMask_testBit h x.2⟩

theorem evtWriteAt_bits_frame (s : State) (a w : Nat) :
    Frame (eventBits ||| W.outward) s (s.evtWriteAt .bits a w) := by
  unfold State.evtWriteAt
  split
  · rename_i e p i h
    have he : evtIn (eventBits ||| W.outward) e = true := evtIn_mono (by decide +kernel) (evtIn_all (evtAt_mem h))
    split
    · rename_i hp
      subst hp
      exact evtClear_fr (Frame.refl _ _) he (by decide +kernel) ..
    · exact Frame.refl _ _
  · exact Frame.refl _ _

theorem evtWriteAt_mask_frame (s : State) (a w : Nat) :
    Frame (eventMasks ||| W.outward) s (s.evtWriteAt .mask a w) := by
  unfold State.evtWriteAt
  split
  · rename_i e p i h
    have he : (eventMasks ||| W.outward).testBit e.mask.id = true :=
      subMask_testBit (a := eventMasks) (by decide +kernel) (maskIn_all (evtAt_mem h))
    split
    · rename_i hp
      subst hp
      exact evtMask_fr (Frame.refl _ _) he (by decide +kernel) ..
    · exact Frame.refl _ _
  · exact Frame.refl _ _

theorem evtWriteAt_force_frame (s : State) (a w : Nat) : Frame eventBits s (s.evtWriteAt .force a w) := by
  unfold State.evtWriteAt
  split
  · rename_i e p i h
    have he : evtIn eventBits e = true := evtIn_all (evtAt_mem h)
    split
    · rename_i hp
      subst hp
      exact evtForce_fr (Frame.refl _ _) he ..
    · exact Frame.refl _ _
  · exact Frame.refl _ _

def W.execEvtClear : Nat := eventBits ||| W.doneW

theorem execEvtClear_frame (a : BitVec 27) (w : BitVec 32) (s : State) : FrameN W.execEvtClear s (execEvtClear a w s) :=
  doneW_fr (by decide +kernel) fun _ ht => (evtWriteAt_bits_frame ..).step ht (by decide +kernel)

def W.execEvtMaskWrite : Nat := eventMasks ||| W.doneW

theorem execEvtMaskWrite_frame (a : BitVec 27) (w : BitVec 32) (s : State) : FrameN W.execEvtMaskWrite s (execEvtMaskWrite a w s) :=
  doneW_fr (by decide +kernel) fun _ ht => (evtWriteAt_mask_frame ..).step ht (by decide +kernel)

def W.execEvtForceWrite : Nat := eventBits ||| W.doneW

theorem execEvtForceWrite_frame (a : BitVec 27) (w : BitVec 32) (s : State) : FrameN W.execEvtForceWrite s (execEvtForceWrite a w s) :=
  doneW_fr (by decide +kernel) fun _ ht => (evtWriteAt_force_frame ..).step ht (by decide +kernel)

def W.edge : Nat := 0

theorem edge_fr {m : Nat} {r s : State} (h : Frame m r s) {f : Field} {i : Nat} {b : Bool} {up down : State → State} (hu : Frame m r (up s)) (hd : Frame m r (down s)) :
    Frame m r (s.edge f i b up down) := by
  unfold State.edge
  split
  · exact h
  · split <;> assumption

def W.writeHandover : Nat := W.requestHandback ||| W.requestTakeover

theorem writeHandover_frame (s : State) (w : Nat) : Frame W.writeHandover s (State.writeHandover s w) := by
  unfold State.writeHandover
  repeat' first
    | with_reducible assumption
    | with_reducible exact Frame.refl _ _
    | decide +kernel
    | with_reducible apply Frame.step (requestHandback_frame ..)
    | with_reducible apply Frame.step (requestTakeover_frame ..)
    | with_reducible apply Frame.ite
    | split
    | (dsimp only; split)

def W.writeLaneCtl : Nat := fm [F.LNK_LANE_CTL_DIS, F.LNK_LANE_CTL_POL] ||| W.laneFail

theorem writeLaneCtl_frame (s : State) (l w : Nat) : Frame W.writeLaneCtl s (State.writeLaneCtl s l w) := by
  unfold State.writeLaneCtl
  repeat' first
    | with_reducible assumption
    | with_reducible exact Frame.refl _ _
    | (intro _ _ _)
    | (intro _ _)
    | decide +kernel
    | with_reducible apply Frame.setB
    | with_reducible apply Frame.setF
    | with_reducible apply Frame.step (laneFail_frame ..)
    | with_reducible apply edge_fr

def W.writeHeadCtl : Nat := fm [F.LNK_HEAD_CTL_RETRY_EN, F.LNK_HEAD_CTL_ROT_EN] ||| W.linkDisable ||| W.linkEnable

theorem writeHeadCtl_frame (s : State) (h w : Nat) : Frame W.writeHeadCtl s (State.writeHeadCtl s h w) := by
  unfold State.writeHeadCtl
  repeat' first
    | with_reducible assumption
    | with_reducible exact Frame.refl _ _
    | (intro _ _ _)
    | (intro _ _)
    | decide +kernel
    | with_reducible apply Frame.setF
    | with_reducible apply Frame.step (linkDisable_frame ..)
    | with_reducible apply Frame.step (linkEnable_frame ..)
    | with_reducible apply edge_fr

def W.writeHfeCmd : Nat := rm [R.LNK_HFE_CMD] ||| W.linkCmd

theorem writeHfeCmd_frame (s : State) (h w : Nat) : Frame W.writeHfeCmd s (State.writeHfeCmd s h w) := by
  unfold State.writeHfeCmd
  repeat' first
    | with_reducible assumption
    | with_reducible exact Frame.refl _ _
    | decide +kernel
    | with_reducible apply Frame.step (linkCmd_frame ..)
    | with_reducible apply storeReg_fr
    | with_reducible apply Frame.ite
    | split
    | (dsimp only; split)

def W.writeClrCtl : Nat := fm [F.CLR_CTL_EN] ||| rm [R.CLR_CTL] ||| W.faultReset ||| W.headOff ||| W.headUp

theorem writeClrCtl_frame (s : State) (h w : Nat) : Frame W.writeClrCtl s (State.writeClrCtl s h w) := by
  unfold State.writeClrCtl
  repeat' first
    | with_reducible assumption
    | with_reducible exact Frame.refl _ _
    | (intro _ _ _)
    | (intro _ _)
    | decide +kernel
    | (with_reducible apply Frame.onlyIf; rotate_left; intro _ _)
    | with_reducible apply Frame.setB
    | with_reducible apply Frame.step (faultReset_frame ..)
    | with_reducible apply Frame.step (headOff_frame ..)
    | with_reducible apply Frame.step (headUp_frame ..)
    | with_reducible apply edge_fr
    | with_reducible apply storeReg_fr

def W.writeLrnCtl : Nat := rm [R.LRN_CTL] ||| W.clearLoops

theorem writeLrnCtl_frame (s : State) (h w : Nat) : Frame W.writeLrnCtl s (State.writeLrnCtl s h w) := by
  unfold State.writeLrnCtl
  repeat' first
    | with_reducible assumption
    | with_reducible exact Frame.refl _ _
    | (intro _ _ _)
    | (intro _ _)
    | decide +kernel
    | (with_reducible apply Frame.onlyIf; rotate_left; intro _ _)
    | with_reducible apply Frame.step (clearLoops_frame ..)
    | with_reducible apply storeReg_fr

def W.writeSldCtl : Nat := fm [F.SLD_CTL_EN] ||| em [E.SLD_CFG_REJECT] ||| rm [R.SLD_CTL] ||| W.axisOn ||| W.sledDisable |||
    W.sledPark ||| W.sledStop ||| W.startHoming ||| fm [F.SLD_EVT_AXES_AXIS]

theorem writeSldCtl_frame (s : State) (h w : Nat) : Frame W.writeSldCtl s (State.writeSldCtl s h w) := by
  unfold State.writeSldCtl
  repeat' first
    | with_reducible assumption
    | with_reducible exact Frame.refl _ _
    | (intro _ _ _)
    | (intro _ _)
    | decide +kernel
    | (with_reducible apply Frame.onlyIf; rotate_left; intro _ _)
    | with_reducible apply Frame.setB
    | with_reducible apply Frame.step (axisOn_frame ..)
    | with_reducible apply Frame.step (sledDisable_frame ..)
    | with_reducible apply Frame.step (sledPark_frame ..)
    | with_reducible apply Frame.step (sledStop_frame ..)
    | with_reducible apply Frame.step (startHoming_frame ..)
    | with_reducible apply edge_fr
    | with_reducible apply raiseSld_fr
    | with_reducible apply storeReg_fr
    | with_reducible apply Frame.ite
    | split
    | (dsimp only; split)

def W.writeWndCtl : Nat := rm [R.WND_CTL] ||| W.wndEnable ||| W.wndReject

theorem writeWndCtl_frame (s : State) (d w : Nat) : Frame W.writeWndCtl s (State.writeWndCtl s d w) := by
  unfold State.writeWndCtl
  repeat' first
    | with_reducible assumption
    | with_reducible exact Frame.refl _ _
    | (intro _ _ _)
    | (intro _ _)
    | decide +kernel
    | with_reducible apply Frame.step (wndEnable_frame ..)
    | with_reducible apply Frame.step (wndReject_frame ..)
    | with_reducible apply edge_fr
    | with_reducible apply storeReg_fr
    | with_reducible apply Frame.ite
    | split
    | (dsimp only; split)

def W.writeWndCmd : Nat := W.deckFaultReset ||| W.deckLoad ||| W.deckStart ||| W.deckStop ||| W.deckUnload ||| W.updWnd

theorem writeWndCmd_frame (s : State) (d w : Nat) (drvHigh : Bool) : Frame W.writeWndCmd s (State.writeWndCmd s d w drvHigh)
    := by
  unfold State.writeWndCmd
  repeat' first
    | with_reducible assumption
    | with_reducible exact Frame.refl _ _
    | (intro _ _ _)
    | (intro _ _)
    | decide +kernel
    | (with_reducible apply Frame.onlyIf; rotate_left; intro _ _)
    | with_reducible apply Frame.step (deckFaultReset_frame ..)
    | with_reducible apply Frame.step (deckLoad_frame ..)
    | with_reducible apply Frame.step (deckStart_frame ..)
    | with_reducible apply Frame.step (deckStop_frame ..)
    | with_reducible apply Frame.step (deckUnload_frame ..)
    | with_reducible apply Frame.step (updWnd_frame ..)

def W.writeChnCtl : Nat := rm [R.CHN_CTL] ||| W.chanDisable ||| W.chanEnable ||| W.updChan

theorem writeChnCtl_frame (s : State) (c w : Nat) : Frame W.writeChnCtl s (State.writeChnCtl s c w) := by
  unfold State.writeChnCtl
  repeat' first
    | with_reducible assumption
    | with_reducible exact Frame.refl _ _
    | (intro _ _ _)
    | (intro _ _)
    | decide +kernel
    | (with_reducible apply Frame.onlyIf; rotate_left; intro _ _)
    | with_reducible apply Frame.step (chanDisable_frame ..)
    | with_reducible apply Frame.step (chanEnable_frame ..)
    | with_reducible apply Frame.step (updChan_frame ..)
    | with_reducible apply edge_fr
    | with_reducible apply storeReg_fr

def W.writePrcCtl : Nat := em [E.PRC_CFG_REJECT] ||| rm [R.PRC_CTL] ||| W.prcEnable

theorem writePrcCtl_frame (s : State) (w : Nat) : Frame W.writePrcCtl s (State.writePrcCtl s w) := by
  unfold State.writePrcCtl
  repeat' first
    | with_reducible assumption
    | with_reducible exact Frame.refl _ _
    | decide +kernel
    | with_reducible apply Frame.step (prcEnable_frame ..)
    | with_reducible apply raise_fr
    | with_reducible apply storeReg_fr
    | with_reducible apply Frame.ite
    | with_reducible refine Frame.ofPair (by assumption) ?_
    | split
    | (dsimp only; split)

def W.writeContain : Nat := fm [F.HIF_CONTAIN_CAUSE_FORCED] ||| W.contain ||| W.release

theorem writeContain_frame (s : State) (w : Nat) : Frame W.writeContain s (State.writeContain s w) := by
  unfold State.writeContain
  repeat' first
    | with_reducible assumption
    | with_reducible exact Frame.refl _ _
    | decide +kernel
    | (with_reducible apply Frame.onlyIf; rotate_left; intro _ _)
    | with_reducible apply Frame.step (release_frame ..)
    | with_reducible apply contain_fr
    | with_reducible apply Frame.ite
    | split
    | (dsimp only; split)

def W.writeCc : Nat := W.enableController ||| W.resetController

theorem writeCc_frame (s : State) (w : Nat) : Frame W.writeCc s (State.writeCc s w) := by
  unfold State.writeCc
  repeat' first
    | with_reducible assumption
    | with_reducible exact Frame.refl _ _
    | decide +kernel
    | with_reducible apply Frame.step (enableController_frame ..)
    | with_reducible apply Frame.step (resetController_frame ..)
    | with_reducible apply edge_fr

def W.writeShape : Nat := fm [F.HQI_QP_CTL_CLASS, F.HQI_QP_CTL_SIZE] ||| W.rejectHqi

theorem writeShape_frame (s : State) (q w : Nat) : Frame W.writeShape s (State.writeShape s q w) := by
  unfold State.writeShape
  repeat' first
    | with_reducible assumption
    | with_reducible exact Frame.refl _ _
    | (intro _ _ _)
    | (intro _ _)
    | decide +kernel
    | (with_reducible apply Frame.onlyIf; rotate_left; intro _ _)
    | with_reducible apply Frame.setF
    | with_reducible apply Frame.step (rejectHqi_frame ..)
    | with_reducible apply Frame.ite
    | split
    | (dsimp only; split)

def W.writeQpCtl : Nat := fm [F.HQI_QP_CTL_IEN, F.HQI_QP_CTL_RO_DATA] ||| W.disablePair ||| W.enablePair ||| W.setPair |||
    W.writeShape

theorem writeQpCtl_frame (s : State) (q w : Nat) : Frame W.writeQpCtl s (State.writeQpCtl s q w) := by
  unfold State.writeQpCtl
  repeat' first
    | with_reducible assumption
    | with_reducible exact Frame.refl _ _
    | (intro _ _ _)
    | (intro _ _)
    | decide +kernel
    | with_reducible apply Frame.setF
    | with_reducible apply Frame.step (disablePair_frame ..)
    | with_reducible apply Frame.step (enablePair_frame ..)
    | with_reducible apply Frame.step (setPair_frame ..)
    | with_reducible apply Frame.step (writeShape_frame ..)
    | with_reducible apply edge_fr
    | with_reducible apply Frame.ite
    | split
    | (dsimp only; split)

def W.writeScrub : Nat := rm [R.MEM_DSCRUB_CTL] ||| W.scrubGo ||| W.scrubStop

theorem writeScrub_frame (s : State) (w : Nat) : Frame W.writeScrub s (State.writeScrub s w) := by
  unfold State.writeScrub
  repeat' first
    | with_reducible assumption
    | with_reducible exact Frame.refl _ _
    | decide +kernel
    | (with_reducible apply Frame.onlyIf; rotate_left; intro _ _)
    | with_reducible apply Frame.step (scrubGo_frame ..)
    | with_reducible apply Frame.step (scrubStop_frame ..)
    | with_reducible apply storeReg_fr

def W.writeTest : Nat := rm [R.MEM_TEST_CTL] ||| W.rawRead ||| W.rawWrite

theorem writeTest_frame (s : State) (w : Nat) : Frame W.writeTest s (State.writeTest s w) := by
  unfold State.writeTest
  repeat' first
    | with_reducible assumption
    | with_reducible exact Frame.refl _ _
    | (intro _ _ _)
    | (intro _ _)
    | decide +kernel
    | with_reducible apply Frame.step (rawRead_frame ..)
    | with_reducible apply Frame.step (rawWrite_frame ..)
    | with_reducible apply storeReg_fr
    | with_reducible apply Frame.ite
    | split
    | (dsimp only; split)

def W.writeWays : Nat := fm [F.LCA_WAY_CTL_LOCK] ||| W.tagCheck ||| W.wayDown ||| W.wayUp

theorem writeWays_frame (s : State) (w : Nat) (x : CacheErr) : Frame W.writeWays s (State.writeWays s w x) := by
  unfold State.writeWays
  repeat' first
    | with_reducible assumption
    | with_reducible exact Frame.refl _ _
    | (intro _ _ _)
    | (intro _ _)
    | decide +kernel
    | (with_reducible apply Frame.forEach; rotate_left; intro _ _ _)
    | with_reducible apply Frame.setF
    | with_reducible apply Frame.step (tagCheck_frame ..)
    | with_reducible apply Frame.step (wayDown_frame ..)
    | with_reducible apply Frame.step (wayUp_frame ..)
    | with_reducible apply Frame.ite
    | split
    | (dsimp only; split)

def W.writeLcaOp : Nat := rm [R.LCA_OP] ||| W.lcaMaintain ||| W.lcaPreload ||| W.lcaReject

theorem writeLcaOp_frame (s : State) (w : Nat) (x : CacheErr) : Frame W.writeLcaOp s (State.writeLcaOp s w x) := by
  unfold State.writeLcaOp
  repeat' first
    | with_reducible assumption
    | with_reducible exact Frame.refl _ _
    | (intro _ _ _)
    | (intro _ _)
    | decide +kernel
    | with_reducible apply Frame.step (lcaMaintain_frame ..)
    | with_reducible apply Frame.step (lcaPreload_frame ..)
    | with_reducible apply Frame.step (lcaReject_frame ..)
    | with_reducible apply storeReg_fr
    | with_reducible apply Frame.ite
    | split
    | (dsimp only; split)

def W.writeTrlCtl : Nat := rm [R.TRL_CTL] ||| W.disableRing ||| W.enableRing ||| W.writeElect

theorem writeTrlCtl_frame (s : State) (w : Nat) : Frame W.writeTrlCtl s (State.writeTrlCtl s w) := by
  unfold State.writeTrlCtl
  repeat' first
    | with_reducible assumption
    | with_reducible exact Frame.refl _ _
    | (intro _ _ _)
    | (intro _ _)
    | decide +kernel
    | (with_reducible apply Frame.onlyIf; rotate_left; intro _ _)
    | with_reducible apply Frame.step (disableRing_frame ..)
    | with_reducible apply Frame.step (enableRing_frame ..)
    | with_reducible apply Frame.step (writeElect_frame ..)
    | with_reducible apply edge_fr
    | with_reducible apply storeReg_fr

def W.writeCalCtl : Nat := em [E.CAL_CFG_REJECT] ||| rm [R.CAL_CTL] ||| W.calPendAll

theorem writeCalCtl_frame (s : State) (w : Nat) : Frame W.writeCalCtl s (State.writeCalCtl s w) := by
  unfold State.writeCalCtl
  repeat' first
    | with_reducible assumption
    | with_reducible exact Frame.refl _ _
    | decide +kernel
    | (with_reducible apply Frame.onlyIf; rotate_left; intro _ _)
    | with_reducible apply Frame.step (calPendAll_frame ..)
    | with_reducible apply raise_fr
    | with_reducible apply storeReg_fr
    | with_reducible apply Frame.ite
    | with_reducible refine Frame.ofPair (by assumption) ?_
    | split
    | (dsimp only; split)

def W.writeCause : Nat := fm [F.PWR_RESET_CAUSE_FLR0, F.PWR_RESET_CAUSE_FLR1, F.PWR_RESET_CAUSE_HEAD_DECK,
    F.PWR_RESET_CAUSE_HOT, F.PWR_RESET_CAUSE_LAST, F.PWR_RESET_CAUSE_PERST, F.PWR_RESET_CAUSE_POR, F.PWR_RESET_CAUSE_RING,
    F.PWR_RESET_CAUSE_SRST, F.PWR_RESET_CAUSE_THERM_TRIP] ||| fm [F.PWR_RESET_CAUSE_LAST, F.PWR_RESET_CAUSE_POR,
    F.PWR_RESET_CAUSE_SRST, F.PWR_RESET_CAUSE_PERST, F.PWR_RESET_CAUSE_HOT, F.PWR_RESET_CAUSE_FLR0, F.PWR_RESET_CAUSE_FLR1,
    F.PWR_RESET_CAUSE_RING, F.PWR_RESET_CAUSE_HEAD_DECK, F.PWR_RESET_CAUSE_THERM_TRIP]

theorem writeCause_frame (s : State) (w : Nat) : Frame W.writeCause s (s.writeCause w) := by
  have hl : ∀ p ∈ [F.PWR_RESET_CAUSE_POR, F.PWR_RESET_CAUSE_SRST, F.PWR_RESET_CAUSE_PERST, F.PWR_RESET_CAUSE_HOT,
      F.PWR_RESET_CAUSE_FLR0, F.PWR_RESET_CAUSE_FLR1, F.PWR_RESET_CAUSE_RING, F.PWR_RESET_CAUSE_HEAD_DECK,
      F.PWR_RESET_CAUSE_THERM_TRIP].zipIdx, W.writeCause.testBit p.1.id = true := by decide +kernel
  unfold State.writeCause
  exact Frame.forEachMem ((Frame.refl _ _).setF (by decide +kernel) ..) fun t p hp ht =>
    ht.setB (hl p (List.mem_of_mem_filter hp)) ..

def W.writeHeadQ : Nat := W.commitCoef ||| W.flushMask ||| W.groupGo ||| W.seedRequest ||| W.writeChnCtl ||| W.writeClrCtl |||
    W.writeEye ||| W.writeHandover ||| W.writeHeadCtl ||| W.writeHfeCmd ||| W.writeLaneCtl ||| W.writeLead ||| W.writeLrnCtl
    ||| W.writePrbs ||| W.writeSldCtl ||| W.writeSpeed ||| W.writeTarget ||| W.writeTckCtl ||| W.writeWndCmd ||| W.writeWndCtl

theorem writeHeadQ_frame {s : State} {b i w : Nat} {drvHigh : Bool} {u : State} (e : s.writeHead? b i w drvHigh = some u) :
    Frame W.writeHeadQ s u := by
  unfold State.writeHead? at e
  revert e
  repeat' (with_reducible refine Frame.iteSome ?_ ?_)
  all_goals try (intro e; simp at e; done)
  all_goals
    repeat' first
      | with_reducible assumption
      | with_reducible exact Frame.refl _ _
      | (intro _ _ _)
      | (intro _ _)
      | decide +kernel
      | (with_reducible apply Frame.onlyIf; rotate_left; intro _ _)
      | with_reducible apply Frame.step (commitCoef_frame ..)
      | with_reducible apply Frame.step (flushMask_frame ..)
      | with_reducible apply Frame.step (groupGo_frame ..)
      | with_reducible apply Frame.step (seedRequest_frame ..)
      | with_reducible apply Frame.step (writeChnCtl_frame ..)
      | with_reducible apply Frame.step (writeClrCtl_frame ..)
      | with_reducible apply Frame.step (writeEye_frame ..)
      | with_reducible apply Frame.step (writeHandover_frame ..)
      | with_reducible apply Frame.step (writeHeadCtl_frame ..)
      | with_reducible apply Frame.step (writeHfeCmd_frame ..)
      | with_reducible apply Frame.step (writeLaneCtl_frame ..)
      | with_reducible apply Frame.step (writeLead_frame ..)
      | with_reducible apply Frame.step (writeLrnCtl_frame ..)
      | with_reducible apply Frame.step (writePrbs_frame ..)
      | with_reducible apply Frame.step (writeSldCtl_frame ..)
      | with_reducible apply Frame.step (writeSpeed_frame ..)
      | with_reducible apply Frame.step (writeTarget_frame ..)
      | with_reducible apply Frame.step (writeTckCtl_frame ..)
      | with_reducible apply Frame.step (writeWndCmd_frame ..)
      | with_reducible apply Frame.step (writeWndCtl_frame ..)

def W.writeUnitQ : Nat := W.abandon ||| W.cqDoorbell ||| W.flushStaging ||| W.fuseCmd ||| W.sqDoorbell ||| W.windowCommit |||
    W.writeBucket ||| W.writeCalCtl ||| W.writeCause ||| W.writeCc ||| W.writeContain ||| W.writeExclCtl ||| W.writeLcaOp |||
    W.writePrcCtl ||| W.writeQpCtl ||| W.writeScrub ||| W.writeShiftCtl ||| W.writeTest ||| W.writeTrlCtl ||| W.writeTxCtl |||
    W.writeWays

theorem writeUnitQ_frame {s : State} {b i w : Nat} {x : CacheErr} {u : State} (e : s.writeUnit? b i w x = some u) :
    Frame W.writeUnitQ s u := by
  unfold State.writeUnit? at e
  revert e
  repeat' (with_reducible refine Frame.iteSome ?_ ?_)
  all_goals try (intro e; simp at e; done)
  all_goals
    repeat' first
      | with_reducible assumption
      | with_reducible exact Frame.refl _ _
      | (intro _ _ _)
      | (intro _ _)
      | decide +kernel
      | (with_reducible apply Frame.onlyIf; rotate_left; intro _ _)
      | with_reducible apply Frame.step (abandon_frame ..)
      | with_reducible apply Frame.step (cqDoorbell_frame ..)
      | with_reducible apply Frame.step (flushStaging_frame ..)
      | with_reducible apply Frame.step (fuseCmd_frame ..)
      | with_reducible apply Frame.step (sqDoorbell_frame ..)
      | with_reducible apply Frame.step (windowCommit_frame ..)
      | with_reducible apply Frame.step (writeBucket_frame ..)
      | with_reducible apply Frame.step (writeCalCtl_frame ..)
      | with_reducible apply Frame.step (writeCause_frame ..)
      | with_reducible apply Frame.step (writeCc_frame ..)
      | with_reducible apply Frame.step (writeContain_frame ..)
      | with_reducible apply Frame.step (writeExclCtl_frame ..)
      | with_reducible apply Frame.step (writeLcaOp_frame ..)
      | with_reducible apply Frame.step (writePrcCtl_frame ..)
      | with_reducible apply Frame.step (writeQpCtl_frame ..)
      | with_reducible apply Frame.step (writeScrub_frame ..)
      | with_reducible apply Frame.step (writeShiftCtl_frame ..)
      | with_reducible apply Frame.step (writeTest_frame ..)
      | with_reducible apply Frame.step (writeTrlCtl_frame ..)
      | with_reducible apply Frame.step (writeTxCtl_frame ..)
      | with_reducible apply Frame.step (writeWays_frame ..)

def W.writeReg : Nat := W.evtWrite ||| W.plainWrite ||| W.writeHeadQ ||| W.writeUnitQ ||| W.regs

theorem writeReg_fr {m : Nat} {r s : State} (h : Frame m r s) {d : RegDef} (hd : d ∈ allRegs) (hm : subMask W.writeReg m = true) (i w : Nat) (x : CacheErr)
    (b : Bool) : Frame m r (s.writeReg d i w x b) := by
  unfold State.writeReg
  split
  · rename_i e p h1
    have he : e ∈ allEvtRegs := evt_mem h1
    exact evtWrite_fr h he _ (subMask_trans (by decide +kernel) hm) ..
  · split
    · exact (writeHeadQ_frame (by assumption)).step h (subMask_trans (by decide +kernel) hm)
    · split
      · exact (writeUnitQ_frame (by assumption)).step h (subMask_trans (by decide +kernel) hm)
      · exact plainWrite_fr h (regIn_sub (a := W.regs) (subMask_trans (by decide +kernel) hm) (regIn_mem hd (by decide +kernel)))
          (subMask_trans (by decide +kernel) hm) ..

def W.writePf1 : Nat := W.flushAsm ||| W.writeHigh ||| W.writeLow ||| W.writeReg

theorem writePf1_frame (s : State) (a w : Nat) (x : CacheErr) (drvHigh : Bool) :
    Frame W.writePf1 s (s.writePf1 a w x drvHigh) := by
  unfold State.writePf1
  split
  · exact (writeHigh_frame ..).mono (by decide +kernel)
  · have h : Frame W.writePf1 s s.flushAsm := (flushAsm_frame _).mono (by decide +kernel)
    dsimp only
    split
    · exact (writeLow_frame ..).step h (by decide +kernel)
    · split
      · rename_i r i e
        split
        · exact writeReg_fr h (show r ∈ _ from locateIn_mem e) (by decide +kernel) ..
        · exact h
      · exact h

def W.writePf0 : Nat := W.writeReg

theorem writePf0_frame (s : State) (a w : Nat) : Frame W.writePf0 s (s.writePf0 a w) := by
  unfold State.writePf0
  split
  · rename_i r i e
    have h1 : r ∈ regsHqi := locateIn_mem e
    have h2 : r ∈ allRegs := by
      unfold allRegs
      simp only [List.mem_append, h1, true_or, or_true]
    exact writeReg_fr (Frame.refl _ _) h2 (by decide +kernel) ..
  · exact Frame.refl _ _

def W.writeMsix : Nat := W.flushPba ||| W.setMsix

theorem writeMsix_frame (s : State) (fn a w : Nat) : Frame W.writeMsix s (State.writeMsix s fn a w) := by
  unfold State.writeMsix
  repeat' first
    | with_reducible assumption
    | with_reducible exact Frame.refl _ _
    | (intro _ _ _)
    | (intro _ _)
    | decide +kernel
    | with_reducible apply Frame.step (flushPba_frame ..)
    | with_reducible apply Frame.step (setMsix_frame ..)
    | with_reducible apply Frame.ite
    | split
    | (dsimp only; split)

def W.busWrite : Nat := em [E.HIF_CFG_REJECT] ||| W.writeMsix ||| W.writePf0 ||| W.writePf1

theorem busWrite_frame (s : State) (sp : RegSpace) (a w : Nat) (x : CacheErr) (drvHigh : Bool) : Frame W.busWrite s
    (State.busWrite s sp a w x drvHigh) := by
  unfold State.busWrite
  repeat' first
    | with_reducible assumption
    | with_reducible exact Frame.refl _ _
    | decide +kernel
    | with_reducible apply Frame.step (writeMsix_frame ..)
    | with_reducible apply Frame.step (writePf0_frame ..)
    | with_reducible apply Frame.step (writePf1_frame ..)
    | with_reducible apply raise_fr
    | with_reducible apply Frame.ite
    | with_reducible refine Frame.ofPair (by assumption) ?_
    | split
    | (dsimp only; split)

def W.execRegisterWrite : Nat := W.busWrite ||| W.doneQ

theorem execRegisterWrite_frame (sp : RegSpace) (a w : BitVec 32) (x : CacheErr) (drvHigh : Bool) (s : State) :
    FrameX W.execRegisterWrite s (execRegisterWrite sp a w x drvHigh s) := by
  unfold execRegisterWrite
  split
  · intro t h
    cases h
  · exact FrameN.toX (doneQ_fr (by decide +kernel) fun t ht => (busWrite_frame ..).step ht (by decide +kernel))

end Sys2Proof.Laws
end

