-- ==== Sys2Proof/Laws/FrResetCmds.lean ====
section
/-!
SUPPORT. Frames of the operations of Machine/ResetCmds.lean: one law per operation, with the mask of what it may change.
-/
set_option Elab.async false
set_option linter.unusedTactic false
set_option linter.unreachableTactic false

namespace Sys2Proof.Laws

open Sys2Proof.Machine

def W.safePins : Nat := 2 ^ 17

theorem safePins_frame (s : State) : Frame W.safePins s (State.safePins s) := by
  unfold State.safePins
  repeat' first
    | with_reducible assumption
    | with_reducible exact Frame.refl _ _
    | (intro _ _ _)
    | (intro _ _)
    | decide +kernel
    | (with_reducible apply Frame.forEach; rotate_left; intro _ _ _)
    | (with_reducible apply Frame.onlyIf; rotate_left; intro _ _)
    | with_reducible apply Frame.emit

def W.resetDevice : Nat := 2 ^ 1 ||| 2 ^ 2 ||| 2 ^ 3 ||| 2 ^ 4 ||| 2 ^ 5 ||| 2 ^ 6 ||| 2 ^ 7 ||| 2 ^ 8 ||| 2 ^ 9 ||| 2 ^ 10
    ||| 2 ^ 11 ||| 2 ^ 12 ||| 2 ^ 13 ||| 2 ^ 14 ||| 2 ^ 15 ||| 2 ^ 16 ||| 2 ^ 17 ||| W.safePins ||| W.all

theorem resetDevice_frame (s : State) (por : Bool) : Frame W.all s (s.resetDevice por) := by
  constructor
  case reg => intro f i hl hf; rw [all_bit hl] at hf; cases hf
  case regs => exact regsWf_filter _
  case tickLt => intro _; exact Nat.two_pow_pos 48
  case memWf => intro _; exact (⟨rfl, rfl⟩ : memWf ({} : MemS))
  case freeLe => exact le_refl _
  case pending => rfl
  case tap => rfl
  all_goals exact .inl (all_bit (by decide))

def W.bistRow : Nat := fm [F.PWR_BIST_FAIL, F.PWR_BIST_REPAIRED, F.PWR_BIST_UNREPAIRED] ||| em [E.PWR_BIST_FAIL] |||
    W.repairRow

theorem bistRow_frame (s : State) (p : Nat × Nat) : Frame W.bistRow s (State.bistRow s p) := by
  unfold State.bistRow
  repeat' first
    | with_reducible assumption
    | with_reducible exact Frame.refl _ _
    | (intro _ _ _)
    | (intro _ _)
    | decide +kernel
    | with_reducible apply Frame.count
    | with_reducible apply Frame.setB
    | with_reducible apply Frame.step (repairRow_frame ..)
    | with_reducible apply raise_fr
    | with_reducible apply Frame.ite
    | with_reducible refine Frame.ofPair (by assumption) ?_
    | split
    | (dsimp only; split)

def W.startDevice : Nat := fm [F.MEM_REPAIR_FUSED, F.PWR_BIST_RAN, F.PWR_STRAPS_BIST, F.PWR_STRAPS_RING_EN, F.PWR_STRAPS_TEST,
    F.TRL_CTL_EN] ||| W.bistRow ||| W.repairRow ||| W.senseFuses ||| W.updCfg

theorem startDevice_frame (s : State) (x : StartIn) : Frame W.startDevice s (State.startDevice s x) := by
  unfold State.startDevice
  repeat' first
    | with_reducible assumption
    | with_reducible exact Frame.refl _ _
    | (intro _ _ _)
    | (intro _ _)
    | decide +kernel
    | (with_reducible apply Frame.forEach; rotate_left; intro _ _ _)
    | with_reducible apply Frame.setB
    | with_reducible apply Frame.step (bistRow_frame ..)
    | with_reducible apply Frame.step (senseFuses_frame ..)
    | with_reducible apply Frame.step (updCfg_frame ..)
    | with_reducible apply countedRepair_fr
    | with_reducible apply Frame.ite
    | split
    | (dsimp only; split)

def W.hold : Nat := 2 ^ 15

theorem hold_frame (s : State) (why : HoldWhy) (cause : Nat) : Frame W.hold s (State.hold s why cause) := by
  unfold State.hold
  repeat' first
    | with_reducible assumption
    | with_reducible exact Frame.refl _ _
    | (intro _ _ _)
    | (intro _ _)
    | decide +kernel
    | with_reducible apply Frame.ite
    | split
    | (dsimp only; split)
    | (with_reducible refine Frame.upd ?_ rfl ?_ ?_ ?_ ?_ ?_ ?_ ?_ ?_ ?_ ?_ ?_ ?_ ?_ ?_ ?_ ?_ ?_ <;>
        first | with_reducible exact Or.inl rfl | with_reducible exact Or.inr ⟨by decide +kernel, Nat.mod_lt _ (Nat.two_pow_pos 48)⟩ |
          exact Or.inr ⟨by decide +kernel, rfl, rfl⟩ | exact Or.inr ⟨by decide +kernel, rfl⟩ |
          exact Or.inr (by decide +kernel) | skip)

def W.unhold : Nat := 2 ^ 15 ||| W.startDevice

theorem unhold_frame (s : State) (why : HoldWhy) (x : StartIn) : Frame W.unhold s (State.unhold s why x) := by
  unfold State.unhold
  repeat' first
    | with_reducible assumption
    | with_reducible exact Frame.refl _ _
    | (intro _ _ _)
    | (intro _ _)
    | decide +kernel
    | with_reducible apply Frame.step (startDevice_frame ..)
    | with_reducible apply Frame.ite
    | split
    | (dsimp only; split)
    | (with_reducible refine Frame.upd ?_ rfl ?_ ?_ ?_ ?_ ?_ ?_ ?_ ?_ ?_ ?_ ?_ ?_ ?_ ?_ ?_ ?_ ?_ <;>
        first | with_reducible exact Or.inl rfl | with_reducible exact Or.inr ⟨by decide +kernel, Nat.mod_lt _ (Nat.two_pow_pos 48)⟩ |
          exact Or.inr ⟨by decide +kernel, rfl, rfl⟩ | exact Or.inr ⟨by decide +kernel, rfl⟩ |
          exact Or.inr (by decide +kernel) | skip)

def W.execPornAssert : Nat := W.hold ||| W.outward ||| W.resetDevice ||| fm [F.PWR_RESET_CAUSE_LAST] ||| fm
    [F.PWR_RESET_CAUSE_POR]

theorem execPornAssert_frame (s : State) : FrameN W.execPornAssert s (execPornAssert s) := by
  unfold execPornAssert
  repeat' first
    | refine effect_fr ?_ ?_
    | with_reducible assumption
    | with_reducible exact Frame.refl _ _
    | (intro _ _ _)
    | (intro _ _)
    | decide +kernel
    | with_reducible apply Frame.step (hold_frame ..)
    | with_reducible apply Frame.step (resetDevice_frame ..)
    | with_reducible apply resetSource_fr

def W.execPornDeassert : Nat := W.outward ||| W.unhold

theorem execPornDeassert_frame (x : StartIn) (s : State) : FrameN W.execPornDeassert s (execPornDeassert x s) := by
  unfold execPornDeassert
  repeat' first
    | refine effect_fr ?_ ?_
    | with_reducible assumption
    | with_reducible exact Frame.refl _ _
    | (intro _ _ _)
    | (intro _ _)
    | decide +kernel
    | with_reducible apply Frame.step (unhold_frame ..)

def W.execSrstnAssert : Nat := W.hold ||| W.outward ||| W.resetDevice ||| fm [F.PWR_RESET_CAUSE_LAST] ||| fm
    [F.PWR_RESET_CAUSE_SRST]

theorem execSrstnAssert_frame (s : State) : FrameN W.execSrstnAssert s (execSrstnAssert s) := by
  unfold execSrstnAssert
  repeat' first
    | refine effect_fr ?_ ?_
    | with_reducible assumption
    | with_reducible exact Frame.refl _ _
    | (intro _ _ _)
    | (intro _ _)
    | decide +kernel
    | with_reducible apply Frame.step (hold_frame ..)
    | with_reducible apply Frame.step (resetDevice_frame ..)
    | with_reducible apply resetSource_fr

def W.execSrstnDeassert : Nat := W.outward ||| W.unhold

theorem execSrstnDeassert_frame (x : StartIn) (s : State) : FrameN W.execSrstnDeassert s (execSrstnDeassert x s) := by
  unfold execSrstnDeassert
  repeat' first
    | refine effect_fr ?_ ?_
    | with_reducible assumption
    | with_reducible exact Frame.refl _ _
    | (intro _ _ _)
    | (intro _ _)
    | decide +kernel
    | with_reducible apply Frame.step (unhold_frame ..)

def W.execUnitResetMessage : Nat := 2 ^ 15 ||| W.onMessage ||| W.outward ||| W.passOn ||| W.resetDevice ||| W.startDevice |||
    fm [F.PWR_RESET_CAUSE_LAST] ||| fm [F.PWR_RESET_CAUSE_RING]

theorem execUnitResetMessage_frame (m : MsgIn) (x : StartIn) (s : State) : FrameN W.execUnitResetMessage s
    (execUnitResetMessage m x s) := by
  unfold execUnitResetMessage
  repeat' first
    | refine done_fr ?_ ?_
    | with_reducible assumption
    | with_reducible exact Frame.refl _ _
    | (intro _ _ _)
    | (intro _ _)
    | decide +kernel
    | with_reducible apply Frame.step (passOn_frame ..)
    | with_reducible apply Frame.step (resetDevice_frame ..)
    | with_reducible apply Frame.step (startDevice_frame ..)
    | with_reducible apply onMessage_fr
    | with_reducible apply resetSource_fr
    | with_reducible apply Frame.ite
    | split
    | (dsimp only; split)
    | (with_reducible refine Frame.upd ?_ rfl ?_ ?_ ?_ ?_ ?_ ?_ ?_ ?_ ?_ ?_ ?_ ?_ ?_ ?_ ?_ ?_ ?_ <;>
        first | with_reducible exact Or.inl rfl | with_reducible exact Or.inr ⟨by decide +kernel, Nat.mod_lt _ (Nat.two_pow_pos 48)⟩ |
          exact Or.inr ⟨by decide +kernel, rfl, rfl⟩ | exact Or.inr ⟨by decide +kernel, rfl⟩ |
          exact Or.inr (by decide +kernel) | skip)

def W.resetHost : Nat := 2 ^ 3 ||| W.abortQueues ||| W.clearFunction ||| W.clearHif ||| W.clearWindows ||| W.thawMedia

theorem resetHost_frame (s : State) : Frame W.resetHost s s.resetHost := by
  have h : Frame W.resetHost s ((((s.abortQueues.clearFunction 0).clearFunction 1).clearWindows).clearHif) :=
    (clearHif_frame _).step ((clearWindows_frame _).step ((clearFunction_frame ..).step ((clearFunction_frame ..).step
      ((abortQueues_frame _).mono (by decide +kernel)) (by decide +kernel)) (by decide +kernel)) (by decide +kernel)) (by decide +kernel)
  unfold State.resetHost
  generalize (((s.abortQueues.clearFunction 0).clearFunction 1).clearWindows).clearHif = t at h ⊢
  have h2 : Frame W.resetHost s { t with hif := { t.hif with reqs := [] } } :=
    Frame.upd h rfl (.inl rfl) (.inl rfl) (.inr (by decide +kernel)) (.inl rfl) (.inl rfl) (.inl rfl) (.inl rfl) (.inl rfl)
      (.inl rfl) (.inl rfl) (.inl rfl) (.inl rfl) (.inl rfl) (.inl rfl) (.inl rfl) (.inl rfl) (.inl rfl)
  dsimp only
  split
  · exact (thawMedia_frame _).step h2 (by decide +kernel)
  · exact h2

def W.execPerstAssert : Nat := 2 ^ 3 ||| W.advance ||| W.freezeMedia ||| W.outward ||| W.resetHost ||| W.updCfg ||| fm
    [F.PWR_RESET_CAUSE_LAST] ||| fm [F.PWR_RESET_CAUSE_PERST]

theorem execPerstAssert_frame (s : State) : FrameN W.execPerstAssert s (execPerstAssert s) := by
  unfold execPerstAssert
  repeat' first
    | refine effect_fr ?_ ?_
    | with_reducible assumption
    | with_reducible exact Frame.refl _ _
    | (intro _ _ _)
    | (intro _ _)
    | decide +kernel
    | with_reducible apply Frame.step (advance_frame ..)
    | with_reducible apply Frame.step (freezeMedia_frame ..)
    | with_reducible apply Frame.step (resetHost_frame ..)
    | with_reducible apply Frame.step (updCfg_frame ..)
    | with_reducible apply resetSource_fr
    | with_reducible apply Frame.ite
    | split
    | (dsimp only; split)
    | (with_reducible refine Frame.upd ?_ rfl ?_ ?_ ?_ ?_ ?_ ?_ ?_ ?_ ?_ ?_ ?_ ?_ ?_ ?_ ?_ ?_ ?_ <;>
        first | with_reducible exact Or.inl rfl | with_reducible exact Or.inr ⟨by decide +kernel, Nat.mod_lt _ (Nat.two_pow_pos 48)⟩ |
          exact Or.inr ⟨by decide +kernel, rfl, rfl⟩ | exact Or.inr ⟨by decide +kernel, rfl⟩ |
          exact Or.inr (by decide +kernel) | skip)

def W.execPerstDeassert : Nat := 2 ^ 15 ||| 2 ^ 3 ||| W.outward ||| W.resetDevice ||| W.startDevice ||| W.updCfg

theorem execPerstDeassert_frame (s : State) : FrameN W.execPerstDeassert s (execPerstDeassert s) := by
  unfold execPerstDeassert
  repeat' first
    | refine effect_fr ?_ ?_
    | with_reducible assumption
    | with_reducible exact Frame.refl _ _
    | (intro _ _ _)
    | (intro _ _)
    | decide +kernel
    | with_reducible apply Frame.step (resetDevice_frame ..)
    | with_reducible apply Frame.step (startDevice_frame ..)
    | with_reducible apply Frame.step (updCfg_frame ..)
    | with_reducible apply Frame.ite
    | split
    | (dsimp only; split)
    | (with_reducible refine Frame.upd ?_ rfl ?_ ?_ ?_ ?_ ?_ ?_ ?_ ?_ ?_ ?_ ?_ ?_ ?_ ?_ ?_ ?_ ?_ <;>
        first | with_reducible exact Or.inl rfl | with_reducible exact Or.inr ⟨by decide +kernel, Nat.mod_lt _ (Nat.two_pow_pos 48)⟩ |
          exact Or.inr ⟨by decide +kernel, rfl, rfl⟩ | exact Or.inr ⟨by decide +kernel, rfl⟩ |
          exact Or.inr (by decide +kernel) | skip)

def W.verifyOnlyDone : Nat := 2 ^ 15 ||| W.findPrev ||| W.rebuildStage ||| W.resetDevice ||| W.startDevice ||| W.thawMedia |||
    W.updCfg

theorem verifyOnlyDone_frame (s : State) (x : LoadIn) : Frame W.verifyOnlyDone s (State.verifyOnlyDone s x) := by
  unfold State.verifyOnlyDone
  repeat' first
    | with_reducible assumption
    | with_reducible exact Frame.refl _ _
    | (intro _ _ _)
    | (intro _ _)
    | decide +kernel
    | with_reducible apply Frame.step (findPrev_frame ..)
    | with_reducible apply Frame.step (rebuildStage_frame ..)
    | with_reducible apply Frame.step (resetDevice_frame ..)
    | with_reducible apply Frame.step (startDevice_frame ..)
    | with_reducible apply Frame.step (thawMedia_frame ..)
    | with_reducible apply Frame.step (updCfg_frame ..)
    | with_reducible apply Frame.ite
    | split
    | (dsimp only; split)
    | (with_reducible refine Frame.upd ?_ rfl ?_ ?_ ?_ ?_ ?_ ?_ ?_ ?_ ?_ ?_ ?_ ?_ ?_ ?_ ?_ ?_ ?_ <;>
        first | with_reducible exact Or.inl rfl | with_reducible exact Or.inr ⟨by decide +kernel, Nat.mod_lt _ (Nat.two_pow_pos 48)⟩ |
          exact Or.inr ⟨by decide +kernel, rfl, rfl⟩ | exact Or.inr ⟨by decide +kernel, rfl⟩ |
          exact Or.inr (by decide +kernel) | skip)

def W.execVerifyOnlyLoadDone : Nat := W.doneQ ||| W.verifyOnlyDone

theorem execVerifyOnlyLoadDone_frame (x : LoadIn) (s : State) : FrameN W.execVerifyOnlyLoadDone s (execVerifyOnlyLoadDone x s)
    := by
  unfold execVerifyOnlyLoadDone
  repeat' first
    | refine doneQ_fr ?_ ?_
    | with_reducible assumption
    | with_reducible exact Frame.refl _ _
    | (intro _ _ _)
    | (intro _ _)
    | decide +kernel
    | with_reducible apply Frame.step (verifyOnlyDone_frame ..)
    | with_reducible apply Frame.ite
    | split
    | (dsimp only; split)

def W.execHotReset : Nat := 2 ^ 3 ||| W.doneQ ||| W.resetHost ||| em [E.HIF_HOT_RESET] ||| fm [F.PWR_RESET_CAUSE_HOT] ||| fm
    [F.PWR_RESET_CAUSE_LAST]

theorem execHotReset_frame (s : State) : FrameN W.execHotReset s (execHotReset s) := by
  unfold execHotReset
  repeat' first
    | refine doneQ_fr ?_ ?_
    | with_reducible assumption
    | with_reducible exact Frame.refl _ _
    | (intro _ _ _)
    | (intro _ _)
    | decide +kernel
    | with_reducible apply Frame.step (resetHost_frame ..)
    | with_reducible apply raise_fr
    | with_reducible apply resetSource_fr
    | with_reducible apply Frame.ite
    | with_reducible refine Frame.ofPair (by assumption) ?_
    | split
    | (dsimp only; split)
    | (with_reducible refine Frame.upd ?_ rfl ?_ ?_ ?_ ?_ ?_ ?_ ?_ ?_ ?_ ?_ ?_ ?_ ?_ ?_ ?_ ?_ ?_ <;>
        first | with_reducible exact Or.inl rfl | with_reducible exact Or.inr ⟨by decide +kernel, Nat.mod_lt _ (Nat.two_pow_pos 48)⟩ |
          exact Or.inr ⟨by decide +kernel, rfl, rfl⟩ | exact Or.inr ⟨by decide +kernel, rfl⟩ |
          exact Or.inr (by decide +kernel) | skip)

def W.execRailFault : Nat := W.advance ||| W.deviceFatal ||| W.outward ||| em [E.PWR_RAIL_FAULT] ||| fm [F.PWR_STATUS_RAILS]

theorem execRailFault_frame (rail : Fin 8) (s : State) : FrameN W.execRailFault s (execRailFault rail s) := by
  unfold execRailFault
  repeat' first
    | refine effect_fr ?_ ?_
    | with_reducible assumption
    | with_reducible exact Frame.refl _ _
    | (intro _ _ _)
    | (intro _ _)
    | decide +kernel
    | with_reducible apply Frame.putF
    | with_reducible apply Frame.step (advance_frame ..)
    | with_reducible apply deviceFatal_fr
    | with_reducible apply Frame.ite
    | split
    | (dsimp only; split)

def W.execRailReturn : Nat := W.outward ||| fm [F.PWR_STATUS_RAILS]

theorem execRailReturn_frame (rail : Fin 8) (s : State) : FrameN W.execRailReturn s (execRailReturn rail s) := by
  unfold execRailReturn
  repeat' first
    | refine effect_fr ?_ ?_
    | with_reducible assumption
    | with_reducible exact Frame.refl _ _
    | (intro _ _ _)
    | (intro _ _)
    | decide +kernel
    | with_reducible apply Frame.putF

def W.closeGates : Nat := W.gateClose

theorem closeGates_frame (s : State) : Frame W.closeGates s (State.closeGates s) := by
  unfold State.closeGates
  repeat' first
    | with_reducible assumption
    | with_reducible exact Frame.refl _ _
    | (intro _ _ _)
    | (intro _ _)
    | decide +kernel
    | (with_reducible apply Frame.forEach; rotate_left; intro _ _ _)
    | with_reducible apply Frame.step (gateClose_frame ..)

def W.execClkFault : Nat := W.closeGates ||| W.deviceFatal ||| W.hold ||| W.outward ||| W.resetDevice ||| W.settle ||| em
    [E.PWR_CLK_FAULT] ||| fm [F.PWR_RESET_CAUSE_LAST] ||| fm [F.PWR_RESET_CAUSE_SRST, F.PWR_STATUS_SYSCLK]

theorem execClkFault_frame (s : State) : FrameN W.execClkFault s (execClkFault s) := by
  unfold execClkFault
  repeat' first
    | refine effect_fr ?_ ?_
    | with_reducible assumption
    | with_reducible exact Frame.refl _ _
    | (intro _ _ _)
    | (intro _ _)
    | decide +kernel
    | with_reducible apply Frame.setB
    | with_reducible apply Frame.step (closeGates_frame ..)
    | with_reducible apply Frame.step (hold_frame ..)
    | with_reducible apply Frame.step (resetDevice_frame ..)
    | with_reducible apply Frame.step (settle_frame ..)
    | with_reducible apply deviceFatal_fr
    | with_reducible apply resetSource_fr
    | with_reducible apply Frame.ite
    | split
    | (dsimp only; split)

def W.execSysclkReturn : Nat := W.outward ||| W.unhold ||| fm [F.PWR_STATUS_SYSCLK]

theorem execSysclkReturn_frame (x : StartIn) (s : State) : FrameN W.execSysclkReturn s (execSysclkReturn x s) := by
  unfold execSysclkReturn
  repeat' first
    | refine effect_fr ?_ ?_
    | with_reducible assumption
    | with_reducible exact Frame.refl _ _
    | (intro _ _ _)
    | (intro _ _)
    | decide +kernel
    | with_reducible apply Frame.setB
    | with_reducible apply Frame.step (unhold_frame ..)

def W.lrefLoss : Nat := em [E.PWR_LREF_LOSS] ||| W.headFatal ||| W.headOff ||| W.linkDown ||| W.ringLockLoss

theorem lrefLoss_frame (s : State) (d : Nat) : Frame W.lrefLoss s (State.lrefLoss s d) := by
  unfold State.lrefLoss
  repeat' first
    | with_reducible assumption
    | with_reducible exact Frame.refl _ _
    | (intro _ _ _)
    | (intro _ _)
    | decide +kernel
    | (with_reducible apply Frame.forEach; rotate_left; intro _ _ _)
    | (with_reducible apply Frame.onlyIf; rotate_left; intro _ _)
    | with_reducible apply Frame.step (headFatal_frame ..)
    | with_reducible apply Frame.step (headOff_frame ..)
    | with_reducible apply Frame.step (linkDown_frame ..)
    | with_reducible apply Frame.step (ringLockLoss_frame ..)
    | with_reducible apply raise_fr
    | with_reducible refine Frame.ofPair (by assumption) ?_

def W.execLrefLoss : Nat := W.advance ||| W.lrefLoss ||| W.outward ||| fm [F.PWR_STATUS_LREF]

theorem execLrefLoss_frame (d : Fin 8) (s : State) : FrameN W.execLrefLoss s (execLrefLoss d s) := by
  unfold execLrefLoss
  repeat' first
    | refine effect_fr ?_ ?_
    | with_reducible assumption
    | with_reducible exact Frame.refl _ _
    | (intro _ _ _)
    | (intro _ _)
    | decide +kernel
    | with_reducible apply Frame.putF
    | with_reducible apply Frame.step (advance_frame ..)
    | with_reducible apply Frame.step (lrefLoss_frame ..)
    | with_reducible apply Frame.ite
    | split
    | (dsimp only; split)

def W.execLrefReturn : Nat := W.outward ||| fm [F.PWR_STATUS_LREF]

theorem execLrefReturn_frame (d : Fin 8) (s : State) : FrameN W.execLrefReturn s (execLrefReturn d s) := by
  unfold execLrefReturn
  repeat' first
    | refine effect_fr ?_ ?_
    | with_reducible assumption
    | with_reducible exact Frame.refl _ _
    | (intro _ _ _)
    | (intro _ _)
    | decide +kernel
    | with_reducible apply Frame.putF

def W.execPcieRefLoss : Nat := W.advance ||| W.outward ||| W.pcieDown ||| fm [F.PWR_STATUS_PCIE_REF]

theorem execPcieRefLoss_frame (s : State) : FrameN W.execPcieRefLoss s (execPcieRefLoss s) := by
  unfold execPcieRefLoss
  repeat' first
    | refine effect_fr ?_ ?_
    | with_reducible assumption
    | with_reducible exact Frame.refl _ _
    | (intro _ _ _)
    | (intro _ _)
    | decide +kernel
    | with_reducible apply Frame.setB
    | with_reducible apply Frame.step (advance_frame ..)
    | with_reducible apply Frame.step (pcieDown_frame ..)
    | with_reducible apply Frame.ite
    | split
    | (dsimp only; split)

def W.execPcieRefReturn : Nat := W.outward ||| fm [F.PWR_STATUS_PCIE_REF]

theorem execPcieRefReturn_frame (s : State) : FrameN W.execPcieRefReturn s (execPcieRefReturn s) := by
  unfold execPcieRefReturn
  repeat' first
    | refine effect_fr ?_ ?_
    | with_reducible assumption
    | with_reducible exact Frame.refl _ _
    | (intro _ _ _)
    | (intro _ _)
    | decide +kernel
    | with_reducible apply Frame.setB

def W.sampleOne : Nat := fm [F.CAL_TEMP_PEAK, F.CAL_TEMP_TEMP, F.CAL_TEMP_VALID] ||| em [E.CAL_SENSOR_FAIL] ||| 2 ^ 14

theorem sampleOne_frame (s : State) (i : Nat) (z : Int) : Frame W.sampleOne s (State.sampleOne s i z) := by
  unfold State.sampleOne
  repeat' first
    | with_reducible assumption
    | with_reducible exact Frame.refl _ _
    | (intro _ _ _)
    | (intro _ _)
    | decide +kernel
    | (with_reducible apply Frame.onlyIf; rotate_left; intro _ _)
    | with_reducible apply Frame.setB
    | with_reducible apply Frame.setF
    | with_reducible apply raise_fr
    | with_reducible apply Frame.ite
    | with_reducible refine Frame.ofPair (by assumption) ?_
    | split
    | (dsimp only; split)
    | (with_reducible refine Frame.upd ?_ rfl ?_ ?_ ?_ ?_ ?_ ?_ ?_ ?_ ?_ ?_ ?_ ?_ ?_ ?_ ?_ ?_ ?_ <;>
        first | with_reducible exact Or.inl rfl | with_reducible exact Or.inr ⟨by decide +kernel, Nat.mod_lt _ (Nat.two_pow_pos 48)⟩ |
          exact Or.inr ⟨by decide +kernel, rfl, rfl⟩ | exact Or.inr ⟨by decide +kernel, rfl⟩ |
          exact Or.inr (by decide +kernel) | skip)

def W.thermWarn : Nat := em [E.CAL_THERM_WARN] ||| 2 ^ 14

theorem thermWarn_frame (s : State) : Frame W.thermWarn s (State.thermWarn s) := by
  unfold State.thermWarn
  repeat' first
    | with_reducible assumption
    | with_reducible exact Frame.refl _ _
    | (intro _ _ _)
    | (intro _ _)
    | decide +kernel
    | with_reducible apply raise_fr
    | with_reducible apply Frame.ite
    | with_reducible refine Frame.ofPair (by assumption) ?_
    | split
    | (dsimp only; split)
    | (with_reducible refine Frame.upd ?_ rfl ?_ ?_ ?_ ?_ ?_ ?_ ?_ ?_ ?_ ?_ ?_ ?_ ?_ ?_ ?_ ?_ ?_ <;>
        first | with_reducible exact Or.inl rfl | with_reducible exact Or.inr ⟨by decide +kernel, Nat.mod_lt _ (Nat.two_pow_pos 48)⟩ |
          exact Or.inr ⟨by decide +kernel, rfl, rfl⟩ | exact Or.inr ⟨by decide +kernel, rfl⟩ |
          exact Or.inr (by decide +kernel) | skip)

def W.tempPend : Nat := W.calPend

theorem tempPend_frame (s : State) : Frame W.tempPend s (State.tempPend s) := by
  unfold State.tempPend
  repeat' first
    | with_reducible assumption
    | with_reducible exact Frame.refl _ _
    | (intro _ _ _)
    | (intro _ _)
    | decide +kernel
    | (with_reducible apply Frame.forEach; rotate_left; intro _ _ _)
    | with_reducible apply Frame.step (calPend_frame ..)

def W.thermTrip : Nat := fm [F.PWR_RESET_CAUSE_THERM_TRIP] ||| W.hold ||| W.resetDevice ||| fm [F.PWR_RESET_CAUSE_LAST]

theorem thermTrip_frame (s : State) : Frame W.thermTrip s (State.thermTrip s) := by
  unfold State.thermTrip
  repeat' first
    | with_reducible assumption
    | with_reducible exact Frame.refl _ _
    | decide +kernel
    | with_reducible apply Frame.step (hold_frame ..)
    | with_reducible apply Frame.step (resetDevice_frame ..)
    | with_reducible apply resetSource_fr

def W.sample : Nat := em [E.CAL_THERM_CRIT] ||| W.deviceFatal ||| W.sampleOne ||| W.tempPend ||| W.thermTrip ||| W.thermWarn

theorem sample_frame (s : State) (temps : List Int) : Frame W.sample s (State.sample s temps) := by
  unfold State.sample
  repeat' first
    | with_reducible assumption
    | with_reducible exact Frame.refl _ _
    | (intro _ _ _)
    | (intro _ _)
    | decide +kernel
    | (with_reducible apply Frame.forEach; rotate_left; intro _ _ _)
    | with_reducible apply Frame.step (sampleOne_frame ..)
    | with_reducible apply Frame.step (tempPend_frame ..)
    | with_reducible apply Frame.step (thermTrip_frame ..)
    | with_reducible apply Frame.step (thermWarn_frame ..)
    | with_reducible apply deviceFatal_fr
    | with_reducible apply Frame.ite
    | split
    | (dsimp only; split)

def W.execSensorSample : Nat := W.advance ||| W.outward ||| W.sample ||| W.unhold

theorem execSensorSample_frame (temps : List Int) (x : StartIn) (s : State) : FrameN W.execSensorSample s (execSensorSample
    temps x s) := by
  unfold execSensorSample
  repeat' first
    | refine effect_fr ?_ ?_
    | with_reducible assumption
    | with_reducible exact Frame.refl _ _
    | (intro _ _ _)
    | (intro _ _)
    | decide +kernel
    | with_reducible apply Frame.step (advance_frame ..)
    | with_reducible apply Frame.step (sample_frame ..)
    | with_reducible apply Frame.step (unhold_frame ..)
    | with_reducible apply Frame.ite
    | split
    | (dsimp only; split)

end Sys2Proof.Laws
end

