-- ==== Sys2Proof/Laws/FrWrpCmds.lean ====
section
/-!
SUPPORT. Frames of the operations of Machine/WrpCmds.lean: one law per operation, with the mask of what it may change.
-/
set_option Elab.async false
set_option linter.unusedTactic false
set_option linter.unreachableTactic false

namespace Sys2Proof.Laws

open Sys2Proof.Machine

def W.lingerExpiry : Nat := W.sealLode

theorem lingerExpiry_frame (s : State) (v n : Nat) : Frame W.lingerExpiry s (State.lingerExpiry s v n) := by
  unfold State.lingerExpiry
  repeat' first
    | with_reducible assumption
    | with_reducible exact Frame.refl _ _
    | decide +kernel
    | with_reducible apply Frame.step (sealLode_frame ..)
    | with_reducible apply Frame.ite
    | split
    | (dsimp only; split)

def W.execLingerExpiry : Nat := W.lingerExpiry ||| W.outward

theorem execLingerExpiry_frame (v : Fin 8) (n : Fin 64) (s : State) : FrameN W.execLingerExpiry s (execLingerExpiry v n s) :=
    by
  unfold execLingerExpiry
  repeat' first
    | refine done_fr ?_ ?_
    | with_reducible assumption
    | with_reducible exact Frame.refl _ _
    | (intro _ _ _)
    | (intro _ _)
    | decide +kernel
    | with_reducible apply Frame.step (lingerExpiry_frame ..)

def W.setWcy : Nat := fm [F.WRP_HEAD_STATE]

theorem setWcy_frame (s : State) (h x : Nat) : Frame W.setWcy s (State.setWcy s h x) := by
  unfold State.setWcy
  repeat' first
    | with_reducible assumption
    | with_reducible exact Frame.refl _ _
    | decide +kernel
    | with_reducible apply Frame.setF

def W.retrack : Nat := W.continueOp ||| W.setHead

theorem retrack_frame (s : State) (h track : Nat) : Frame W.retrack s (State.retrack s h track) := by
  unfold State.retrack
  repeat' first
    | with_reducible assumption
    | with_reducible exact Frame.refl _ _
    | decide +kernel
    | with_reducible apply Frame.step (continueOp_frame ..)
    | with_reducible apply Frame.step (setHead_frame ..)
    | split
    | (dsimp only; split)

def W.writeAt : Nat := W.retrack ||| W.setWcy ||| W.updWrite

theorem writeAt_frame (s : State) (h p : Nat) : Frame W.writeAt s (State.writeAt s h p) := by
  unfold State.writeAt
  repeat' first
    | with_reducible assumption
    | with_reducible exact Frame.refl _ _
    | (intro _ _ _)
    | (intro _ _)
    | decide +kernel
    | with_reducible apply Frame.step (retrack_frame ..)
    | with_reducible apply Frame.step (setWcy_frame ..)
    | with_reducible apply Frame.step (updWrite_frame ..)

def W.writeIdle : Nat := W.finishOp ||| W.parkHome ||| W.setWcy ||| W.updWrite

theorem writeIdle_frame (s : State) (h : Nat) : Frame W.writeIdle s (State.writeIdle s h) := by
  unfold State.writeIdle
  repeat' first
    | with_reducible assumption
    | with_reducible exact Frame.refl _ _
    | (intro _ _ _)
    | (intro _ _)
    | decide +kernel
    | with_reducible apply Frame.step (finishOp_frame ..)
    | with_reducible apply Frame.step (parkHome_frame ..)
    | with_reducible apply Frame.step (setWcy_frame ..)
    | with_reducible apply Frame.step (updWrite_frame ..)

def W.toFollow : Nat := W.setClr

theorem toFollow_frame (s : State) (h : Nat) : Frame W.toFollow s (State.toFollow s h) := by
  unfold State.toFollow
  repeat' first
    | with_reducible assumption
    | with_reducible exact Frame.refl _ _
    | decide +kernel
    | with_reducible apply Frame.step (setClr_frame ..)
    | with_reducible apply Frame.ite
    | split
    | (dsimp only; split)

def W.beginVerify : Nat := W.setClr ||| W.updWrite

theorem beginVerify_frame (s : State) (h : Nat) : Frame W.beginVerify s (State.beginVerify s h) := by
  unfold State.beginVerify
  repeat' first
    | with_reducible assumption
    | with_reducible exact Frame.refl _ _
    | (intro _ _ _)
    | (intro _ _)
    | decide +kernel
    | with_reducible apply Frame.step (setClr_frame ..)
    | with_reducible apply Frame.step (updWrite_frame ..)

def W.beginWrite : Nat := W.updWrite

theorem beginWrite_frame (s : State) (h : Nat) : Frame W.beginWrite s (State.beginWrite s h) := by
  unfold State.beginWrite
  repeat' first
    | with_reducible assumption
    | with_reducible exact Frame.refl _ _
    | (intro _ _ _)
    | (intro _ _)
    | decide +kernel
    | with_reducible apply Frame.step (updWrite_frame ..)

def W.issueWrite : Nat := W.issue ||| W.setWcy ||| W.updWrite

theorem issueWrite_frame (s : State) (h n p : Nat) : Frame W.issueWrite s (State.issueWrite s h n p) := by
  unfold State.issueWrite
  repeat' first
    | with_reducible assumption
    | with_reducible exact Frame.refl _ _
    | (intro _ _ _)
    | (intro _ _)
    | decide +kernel
    | with_reducible apply Frame.step (issue_frame ..)
    | with_reducible apply Frame.step (setWcy_frame ..)
    | with_reducible apply Frame.step (updWrite_frame ..)

def W.issueFresh : Nat := W.issueWrite

theorem issueFresh_frame (s : State) (h : Nat) : Frame W.issueFresh s (State.issueFresh s h) := by
  unfold State.issueFresh
  repeat' first
    | with_reducible assumption
    | with_reducible exact Frame.refl _ _
    | decide +kernel
    | with_reducible apply Frame.step (issueWrite_frame ..)
    | split
    | (dsimp only; split)

def W.issueAgain : Nat := W.issueWrite ||| W.writeIdle

theorem issueAgain_frame (s : State) (h : Nat) : Frame W.issueAgain s (State.issueAgain s h) := by
  unfold State.issueAgain
  repeat' first
    | with_reducible assumption
    | with_reducible exact Frame.refl _ _
    | (intro _ _ _)
    | (intro _ _)
    | decide +kernel
    | with_reducible apply Frame.step (issueWrite_frame ..)
    | with_reducible apply Frame.step (writeIdle_frame ..)
    | with_reducible apply Frame.ite
    | split
    | (dsimp only; split)

def W.writeIssue : Nat := W.issueAgain ||| W.issueFresh

theorem writeIssue_frame (s : State) (h : Nat) : Frame W.writeIssue s (State.writeIssue s h) := by
  unfold State.writeIssue
  repeat' first
    | with_reducible assumption
    | with_reducible exact Frame.refl _ _
    | decide +kernel
    | with_reducible apply Frame.step (issueAgain_frame ..)
    | with_reducible apply Frame.step (issueFresh_frame ..)
    | with_reducible apply Frame.ite
    | split
    | (dsimp only; split)

def W.execWriteOperationIssue : Nat := W.doneQ ||| W.writeIssue

theorem execWriteOperationIssue_frame (h : Fin 32) (s : State) : FrameN W.execWriteOperationIssue s (execWriteOperationIssue h
    s) := by
  unfold execWriteOperationIssue
  repeat' first
    | refine doneQ_fr ?_ ?_
    | with_reducible assumption
    | with_reducible exact Frame.refl _ _
    | (intro _ _ _)
    | (intro _ _)
    | decide +kernel
    | with_reducible apply Frame.step (writeIssue_frame ..)

def W.setCal : Nat := W.updWrite

theorem setCal_frame (s : State) (h : Nat) (c : Option CalPhase) : Frame W.setCal s (State.setCal s h c) := by
  unfold State.setCal
  repeat' first
    | with_reducible assumption
    | with_reducible exact Frame.refl _ _
    | (intro _ _ _)
    | (intro _ _)
    | decide +kernel
    | with_reducible apply Frame.step (updWrite_frame ..)

def W.startCal : Nat := W.retrack ||| W.setCal ||| W.setWcy

theorem startCal_frame (s : State) (h : Nat) : Frame W.startCal s (State.startCal s h) := by
  unfold State.startCal
  repeat' first
    | with_reducible assumption
    | with_reducible exact Frame.refl _ _
    | (intro _ _ _)
    | (intro _ _)
    | decide +kernel
    | with_reducible apply Frame.step (retrack_frame ..)
    | with_reducible apply Frame.step (setCal_frame ..)
    | with_reducible apply Frame.step (setWcy_frame ..)
    | with_reducible apply Frame.ite
    | split
    | (dsimp only; split)

def W.loadPower : Nat := rm [R.WRP_POWER] ||| W.readEntryFree ||| W.updWrite

theorem loadPower_frame (s : State) (h : Nat) : Frame W.loadPower s (State.loadPower s h) := by
  unfold State.loadPower
  repeat' first
    | with_reducible assumption
    | with_reducible exact Frame.refl _ _
    | (intro _ _ _)
    | (intro _ _)
    | decide +kernel
    | with_reducible apply Frame.step (updWrite_frame ..)
    | with_reducible apply readEntryFree_fr
    | with_reducible refine Frame.ofPair (by assumption) ?_

def W.newRun : Nat := W.updSeam

theorem newRun_frame (s : State) (h : Nat) : Frame W.newRun s (State.newRun s h) := by
  unfold State.newRun
  repeat' first
    | with_reducible assumption
    | with_reducible exact Frame.refl _ _
    | (intro _ _ _)
    | (intro _ _)
    | decide +kernel
    | with_reducible apply Frame.step (updSeam_frame ..)

def W.prep : Nat := W.beginVerify ||| W.beginWrite ||| W.loadPower ||| W.newRun ||| W.setWcy ||| W.startCal ||| W.writeAt |||
    W.writeIdle

theorem prep_frame (s : State) (h : Nat) : Frame W.prep s (State.prep s h) := by
  unfold State.prep
  repeat' first
    | with_reducible assumption
    | with_reducible exact Frame.refl _ _
    | (intro _ _ _)
    | (intro _ _)
    | decide +kernel
    | with_reducible apply Frame.step (beginVerify_frame ..)
    | with_reducible apply Frame.step (beginWrite_frame ..)
    | with_reducible apply Frame.step (loadPower_frame ..)
    | with_reducible apply Frame.step (newRun_frame ..)
    | with_reducible apply Frame.step (setWcy_frame ..)
    | with_reducible apply Frame.step (startCal_frame ..)
    | with_reducible apply Frame.step (writeAt_frame ..)
    | with_reducible apply Frame.step (writeIdle_frame ..)
    | with_reducible apply Frame.ite
    | split
    | (dsimp only; split)

def W.prepAct : Nat := W.beginWrite ||| W.prep

theorem prepAct_frame (s : State) (h : Nat) : Frame W.prepAct s (State.prepAct s h) := by
  unfold State.prepAct
  repeat' first
    | with_reducible assumption
    | with_reducible exact Frame.refl _ _
    | decide +kernel
    | with_reducible apply Frame.step (beginWrite_frame ..)
    | with_reducible apply Frame.step (prep_frame ..)
    | with_reducible apply Frame.ite
    | split
    | (dsimp only; split)

def W.execPrepAtPosition : Nat := W.doneQ ||| W.prepAct

theorem execPrepAtPosition_frame (h : Fin 32) (s : State) : FrameN W.execPrepAtPosition s (execPrepAtPosition h s) := by
  unfold execPrepAtPosition
  repeat' first
    | refine doneQ_fr ?_ ?_
    | with_reducible assumption
    | with_reducible exact Frame.refl _ _
    | (intro _ _ _)
    | (intro _ _)
    | decide +kernel
    | with_reducible apply Frame.step (prepAct_frame ..)

def W.keepFree : Nat := W.updWrite

theorem keepFree_frame (s : State) (h l p a b : Nat) : Frame W.keepFree s (State.keepFree s h l p a b) := by
  unfold State.keepFree
  repeat' first
    | with_reducible assumption
    | with_reducible exact Frame.refl _ _
    | (intro _ _ _)
    | (intro _ _)
    | decide +kernel
    | (with_reducible apply Frame.forEach; rotate_left; intro _ _ _)
    | with_reducible apply Frame.step (updWrite_frame ..)

def W.endCal : Nat := W.retrack ||| W.setCal ||| W.setWcy ||| W.toFollow

theorem endCal_frame (s : State) (h : Nat) : Frame W.endCal s (State.endCal s h) := by
  unfold State.endCal
  repeat' first
    | with_reducible assumption
    | with_reducible exact Frame.refl _ _
    | (intro _ _ _)
    | (intro _ _)
    | decide +kernel
    | with_reducible apply Frame.step (retrack_frame ..)
    | with_reducible apply Frame.step (setCal_frame ..)
    | with_reducible apply Frame.step (setWcy_frame ..)
    | with_reducible apply Frame.step (toFollow_frame ..)

def W.calExhausted : Nat := em [E.WRP_CAL_EXHAUSTED] ||| W.endCal ||| W.updWrite

theorem calExhausted_frame (s : State) (h l : Nat) : Frame W.calExhausted s (State.calExhausted s h l) := by
  unfold State.calExhausted
  repeat' first
    | with_reducible assumption
    | with_reducible exact Frame.refl _ _
    | (intro _ _ _)
    | (intro _ _)
    | decide +kernel
    | (with_reducible apply Frame.forEach; rotate_left; intro _ _ _)
    | with_reducible apply Frame.step (endCal_frame ..)
    | with_reducible apply Frame.step (updWrite_frame ..)
    | with_reducible apply raise_fr
    | with_reducible refine Frame.ofPair (by assumption) ?_

def W.calSearch : Nat := W.calExhausted ||| W.keepFree ||| W.retrack ||| W.setCal

theorem calSearch_frame (s : State) (h : Nat) : Frame W.calSearch s (State.calSearch s h) := by
  unfold State.calSearch
  repeat' first
    | with_reducible assumption
    | with_reducible exact Frame.refl _ _
    | (intro _ _ _)
    | (intro _ _)
    | decide +kernel
    | with_reducible apply Frame.step (calExhausted_frame ..)
    | with_reducible apply Frame.step (keepFree_frame ..)
    | with_reducible apply Frame.step (retrack_frame ..)
    | with_reducible apply Frame.step (setCal_frame ..)
    | with_reducible apply Frame.ite
    | split
    | (dsimp only; split)

def W.scalePower : Nat := rm [R.WRP_POWER] ||| W.goodCheck ||| W.readEntryFree

theorem scalePower_frame (s : State) (h l peak peak0 : Nat) : Frame W.scalePower s (State.scalePower s h l peak peak0) := by
  unfold State.scalePower
  repeat' first
    | with_reducible assumption
    | with_reducible exact Frame.refl _ _
    | (intro _ _ _)
    | (intro _ _)
    | decide +kernel
    | (with_reducible apply Frame.forEach; rotate_left; intro _ _ _)
    | with_reducible apply putEntry_fr
    | with_reducible apply readEntryFree_fr
    | with_reducible refine Frame.ofPair (by assumption) ?_

def W.calResult : Nat := fm [F.WRP_SKIPS_CAL_RUNS] ||| em [E.WRP_CAL_DONE, E.WRP_CAL_FAIL] ||| W.endCal ||| W.keepFree |||
    W.scalePower ||| W.updWrite

theorem calResult_frame (s : State) (h p a : Nat) : Frame W.calResult s (State.calResult s h p a) := by
  unfold State.calResult
  repeat' first
    | with_reducible assumption
    | with_reducible exact Frame.refl _ _
    | (intro _ _ _)
    | (intro _ _)
    | decide +kernel
    | with_reducible apply Frame.count
    | with_reducible apply Frame.step (endCal_frame ..)
    | with_reducible apply Frame.step (keepFree_frame ..)
    | with_reducible apply Frame.step (scalePower_frame ..)
    | with_reducible apply Frame.step (updWrite_frame ..)
    | with_reducible apply raise_fr
    | with_reducible apply Frame.ite
    | with_reducible refine Frame.ofPair (by assumption) ?_
    | split
    | (dsimp only; split)

def W.calEnd : Nat := W.beginVerify ||| W.calResult ||| W.calSearch ||| W.setCal

theorem calEnd_frame (s : State) (h : Nat) : Frame W.calEnd s (State.calEnd s h) := by
  unfold State.calEnd
  repeat' first
    | with_reducible assumption
    | with_reducible exact Frame.refl _ _
    | (intro _ _ _)
    | (intro _ _)
    | decide +kernel
    | with_reducible apply Frame.step (beginVerify_frame ..)
    | with_reducible apply Frame.step (calResult_frame ..)
    | with_reducible apply Frame.step (calSearch_frame ..)
    | with_reducible apply Frame.step (setCal_frame ..)
    | with_reducible apply Frame.ite
    | split
    | (dsimp only; split)

def W.execCalibrationRevsEnd : Nat := W.calEnd ||| W.doneQ

theorem execCalibrationRevsEnd_frame (h : Fin 32) (s : State) : FrameN W.execCalibrationRevsEnd s (execCalibrationRevsEnd h s)
    := by
  unfold execCalibrationRevsEnd
  repeat' first
    | refine doneQ_fr ?_ ?_
    | with_reducible assumption
    | with_reducible exact Frame.refl _ _
    | (intro _ _ _)
    | (intro _ _)
    | decide +kernel
    | with_reducible apply Frame.step (calEnd_frame ..)

def W.writeRevEnd : Nat := W.beginVerify ||| W.setWcy ||| W.toFollow

theorem writeRevEnd_frame (s : State) (h : Nat) : Frame W.writeRevEnd s (State.writeRevEnd s h) := by
  unfold State.writeRevEnd
  repeat' first
    | with_reducible assumption
    | with_reducible exact Frame.refl _ _
    | (intro _ _ _)
    | (intro _ _)
    | decide +kernel
    | with_reducible apply Frame.step (beginVerify_frame ..)
    | with_reducible apply Frame.step (setWcy_frame ..)
    | with_reducible apply Frame.step (toFollow_frame ..)
    | with_reducible apply Frame.ite
    | split
    | (dsimp only; split)

def W.execWriteRevolutionEnd : Nat := W.doneQ ||| W.writeRevEnd

theorem execWriteRevolutionEnd_frame (h : Fin 32) (s : State) : FrameN W.execWriteRevolutionEnd s (execWriteRevolutionEnd h s)
    := by
  unfold execWriteRevolutionEnd
  repeat' first
    | refine doneQ_fr ?_ ?_
    | with_reducible assumption
    | with_reducible exact Frame.refl _ _
    | (intro _ _ _)
    | (intro _ _)
    | decide +kernel
    | with_reducible apply Frame.step (writeRevEnd_frame ..)

def W.verified : Nat := W.lodeEnd ||| W.updSeam

theorem verified_frame (s : State) (v n p : Nat) : Frame W.verified s (State.verified s v n p) := by
  unfold State.verified
  repeat' first
    | with_reducible assumption
    | with_reducible exact Frame.refl _ _
    | (intro _ _ _)
    | (intro _ _)
    | decide +kernel
    | (with_reducible apply Frame.forEach; rotate_left; intro _ _ _)
    | with_reducible apply Frame.step (lodeEnd_frame ..)
    | with_reducible apply Frame.step (updSeam_frame ..)
    | with_reducible apply Frame.ite
    | split
    | (dsimp only; split)

def W.verifyRevEnd : Nat := W.setWcy ||| W.toFollow ||| W.verified

theorem verifyRevEnd_frame (s : State) (h : Nat) : Frame W.verifyRevEnd s (State.verifyRevEnd s h) := by
  unfold State.verifyRevEnd
  repeat' first
    | with_reducible assumption
    | with_reducible exact Frame.refl _ _
    | (intro _ _ _)
    | (intro _ _)
    | decide +kernel
    | with_reducible apply Frame.step (setWcy_frame ..)
    | with_reducible apply Frame.step (toFollow_frame ..)
    | with_reducible apply Frame.step (verified_frame ..)
    | with_reducible apply Frame.ite
    | split
    | (dsimp only; split)

def W.execVerifyRevolutionEnd : Nat := W.doneQ ||| W.verifyRevEnd

theorem execVerifyRevolutionEnd_frame (h : Fin 32) (s : State) : FrameN W.execVerifyRevolutionEnd s (execVerifyRevolutionEnd h
    s) := by
  unfold execVerifyRevolutionEnd
  repeat' first
    | refine doneQ_fr ?_ ?_
    | with_reducible assumption
    | with_reducible exact Frame.refl _ _
    | (intro _ _ _)
    | (intro _ _)
    | decide +kernel
    | with_reducible apply Frame.step (verifyRevEnd_frame ..)

def W.resolved : Nat := W.setWcy ||| W.updWrite ||| W.writeAt ||| W.writeIdle

theorem resolved_frame (s : State) (h : Nat) (left : Option Bool) : Frame W.resolved s (State.resolved s h left) := by
  unfold State.resolved
  repeat' first
    | with_reducible assumption
    | with_reducible exact Frame.refl _ _
    | (intro _ _ _)
    | (intro _ _)
    | decide +kernel
    | with_reducible apply Frame.step (setWcy_frame ..)
    | with_reducible apply Frame.step (updWrite_frame ..)
    | with_reducible apply Frame.step (writeAt_frame ..)
    | with_reducible apply Frame.step (writeIdle_frame ..)
    | split
    | (dsimp only; split)

def W.resolve : Nat := W.resolveSeam ||| W.resolved

theorem resolve_frame (s : State) (h : Nat) : Frame W.resolve s (State.resolve s h) := by
  unfold State.resolve
  repeat' first
    | with_reducible assumption
    | with_reducible exact Frame.refl _ _
    | (intro _ _ _)
    | (intro _ _)
    | decide +kernel
    | with_reducible apply Frame.step (resolveSeam_frame ..)
    | with_reducible apply Frame.step (resolved_frame ..)
    | with_reducible apply Frame.ite
    | split
    | (dsimp only; split)

def W.execResolve : Nat := W.doneQ ||| W.resolve

theorem execResolve_frame (h : Fin 32) (s : State) : FrameN W.execResolve s (execResolve h s) := by
  unfold execResolve
  repeat' first
    | refine doneQ_fr ?_ ?_
    | with_reducible assumption
    | with_reducible exact Frame.refl _ _
    | (intro _ _ _)
    | (intro _ _)
    | decide +kernel
    | with_reducible apply Frame.step (resolve_frame ..)

def W.wpRecovered : Nat := fm [F.WRP_SEAM_KNOWN] ||| em [E.WRP_WP_RECOVERED] ||| W.catalogueDue ||| W.snapshot ||| W.updSeam

theorem wpRecovered_frame (s : State) (v n : Nat) : Frame W.wpRecovered s (State.wpRecovered s v n) := by
  unfold State.wpRecovered
  repeat' first
    | with_reducible assumption
    | with_reducible exact Frame.refl _ _
    | (intro _ _ _)
    | (intro _ _)
    | decide +kernel
    | with_reducible apply Frame.setB
    | with_reducible apply Frame.step (catalogueDue_frame ..)
    | with_reducible apply Frame.step (snapshot_frame ..)
    | with_reducible apply Frame.step (updSeam_frame ..)
    | with_reducible apply raise_fr
    | with_reducible apply Frame.ite
    | with_reducible refine Frame.ofPair (by assumption) ?_
    | split
    | (dsimp only; split)

def W.execWpRecovered : Nat := W.doneQ ||| W.wpRecovered

theorem execWpRecovered_frame (v : Fin 8) (n : Fin 64) (s : State) : FrameN W.execWpRecovered s (execWpRecovered v n s) := by
  unfold execWpRecovered
  repeat' first
    | refine doneQ_fr ?_ ?_
    | with_reducible assumption
    | with_reducible exact Frame.refl _ _
    | (intro _ _ _)
    | (intro _ _)
    | decide +kernel
    | with_reducible apply Frame.step (wpRecovered_frame ..)

end Sys2Proof.Laws
end

