-- ==== Sys2Proof/Laws/Get.lean ====
section
/-!
SUPPORT. Reading a register after an operation whose mask does not name it: it reads as before. One law per operation.
-/
set_option Elab.async false

namespace Sys2Proof.Laws

open Sys2Proof.Machine

theorem Frame.get {m : Nat} {s t : State} (h : Frame m s t) {f : Field} {i : Nat} (hl : f.id < 20000)
    (hm : m.testBit f.id = false) : regGet t.regs f i = regGet s.regs f i := h.reg f i hl hm

theorem setPf_get (s : State) (fn : Nat) (p : PfS) {gf : Field} {gi : Nat} (hl : gf.id < 20000) (hm : W.setPf.testBit gf.id =
    false) : regGet (s.setPf fn p).regs gf gi = regGet s.regs gf gi := (setPf_frame s fn p).get hl hm

theorem signal1_get (s : State) (v : Nat) {gf : Field} {gi : Nat} (hl : gf.id < 20000) (hm : W.outward.testBit gf.id = false)
    : regGet (s.signal 1 v).regs gf gi = regGet s.regs gf gi := (signal1_frame s v).get hl hm

theorem signal_get (s : State) (fn v : Nat) {gf : Field} {gi : Nat} (hl : gf.id < 20000) (hm : W.signal.testBit gf.id = false)
    : regGet (s.signal fn v).regs gf gi = regGet s.regs gf gi := (signal_frame s fn v).get hl hm

theorem settle_get (before after : State) {gf : Field} {gi : Nat} (hl : gf.id < 20000) (hm : W.outward.testBit gf.id = false)
    : regGet (State.settle before after).regs gf gi = regGet after.regs gf gi := (settle_frame before after).get hl hm

theorem setSlot_get (s : State) (y : Nat) (x : SlotS) {gf : Field} {gi : Nat} (hl : gf.id < 20000) (hm : W.setSlot.testBit
    gf.id = false) : regGet (State.setSlot s y x).regs gf gi = regGet s.regs gf gi := (setSlot_frame s y x).get hl hm

theorem reserve_get (s : State) (v n x h pos : Nat) (verify test : Bool) {gf : Field} {gi : Nat} (hl : gf.id < 20000) (hm :
    W.reserve.testBit gf.id = false) : regGet ((State.reserve s v n x h pos verify test).1).regs gf gi = regGet s.regs gf gi
    := (reserve_frame s v n x h pos verify test).get hl hm

theorem writeBuf_get (s : State) (y i info : Nat) {gf : Field} {gi : Nat} (hl : gf.id < 20000) (hm : W.writeBuf.testBit gf.id
    = false) : regGet (State.writeBuf s y i info).regs gf gi = regGet s.regs gf gi := (writeBuf_frame s y i info).get hl hm

theorem reportLines_get (s : State) (src : Nat) (l : List Nat) {gf : Field} {gi : Nat} (hl : gf.id < 20000) (hm :
    W.reportLines.testBit gf.id = false) : regGet (State.reportLines s src l).regs gf gi = regGet s.regs gf gi :=
    (reportLines_frame s src l).get hl hm

theorem putHeaders_get (s : State) (y : Nat) (p : TailEntry → Bool) {gf : Field} {gi : Nat} (hl : gf.id < 20000) (hm :
    W.putHeaders.testBit gf.id = false) : regGet (State.putHeaders s y p).regs gf gi = regGet s.regs gf gi :=
    (putHeaders_frame s y p).get hl hm

theorem putTail_get (s : State) (e : TailEntry) {gf : Field} {gi : Nat} (hl : gf.id < 20000) (hm : W.putTail.testBit gf.id =
    false) : regGet (State.putTail s e).regs gf gi = regGet s.regs gf gi := (putTail_frame s e).get hl hm

theorem marks_get (s : State) {gf : Field} {gi : Nat} (hl : gf.id < 20000) (hm : W.marks.testBit gf.id = false) : regGet
    (State.marks s).regs gf gi = regGet s.regs gf gi := (marks_frame s).get hl hm

theorem freeEntries_get (s : State) (idx : List Nat) {gf : Field} {gi : Nat} (hl : gf.id < 20000) (hm : W.freeEntries.testBit
    gf.id = false) : regGet (State.freeEntries s idx).regs gf gi = regGet s.regs gf gi := (freeEntries_frame s idx).get hl hm

theorem takeFree_get (s : State) {gf : Field} {gi : Nat} (hl : gf.id < 20000) (hm : W.takeFree.testBit gf.id = false) : regGet
    ((State.takeFree s).1).regs gf gi = regGet s.regs gf gi := (takeFree_frame s).get hl hm

theorem releaseRead_get (s : State) (y r : Nat) {gf : Field} {gi : Nat} (hl : gf.id < 20000) (hm : W.releaseRead.testBit gf.id
    = false) : regGet (State.releaseRead s y r).regs gf gi = regGet s.regs gf gi := (releaseRead_frame s y r).get hl hm

theorem releaseEntries_get (s : State) (y : Nat) {gf : Field} {gi : Nat} (hl : gf.id < 20000) (hm : W.releaseEntries.testBit
    gf.id = false) : regGet (State.releaseEntries s y).regs gf gi = regGet s.regs gf gi := (releaseEntries_frame s y).get hl
    hm

theorem releaseSlot_get (s : State) (y : Nat) {gf : Field} {gi : Nat} (hl : gf.id < 20000) (hm : W.releaseSlot.testBit gf.id =
    false) : regGet (State.releaseSlot s y).regs gf gi = regGet s.regs gf gi := (releaseSlot_frame s y).get hl hm

theorem decideRetain_get (s : State) (y : Nat) {gf : Field} {gi : Nat} (hl : gf.id < 20000) (hm : W.decideRetain.testBit gf.id
    = false) : regGet (State.decideRetain s y).regs gf gi = regGet s.regs gf gi := (decideRetain_frame s y).get hl hm

theorem overflow_get (s : State) (y : Nat) {gf : Field} {gi : Nat} (hl : gf.id < 20000) (hm : W.overflow.testBit gf.id =
    false) : regGet (State.overflow s y).regs gf gi = regGet s.regs gf gi := (overflow_frame s y).get hl hm

theorem stage_get (s : State) (y : Nat) (r : DriftRec) (lam : List Int) {gf : Field} {gi : Nat} (hl : gf.id < 20000) (hm :
    W.stage.testBit gf.id = false) : regGet (State.stage s y r lam).regs gf gi = regGet s.regs gf gi := (stage_frame s y r
    lam).get hl hm

theorem linkEntry_get (s : State) (c : Nat) {gf : Field} {gi : Nat} (hl : gf.id < 20000) (hm : W.linkEntry.testBit gf.id =
    false) : regGet (State.linkEntry s c).regs gf gi = regGet s.regs gf gi := (linkEntry_frame s c).get hl hm

theorem flushStaging_get (s : State) (p : Nat → Bool) {gf : Field} {gi : Nat} (hl : gf.id < 20000) (hm :
    W.flushStaging.testBit gf.id = false) : regGet (State.flushStaging s p).regs gf gi = regGet s.regs gf gi :=
    (flushStaging_frame s p).get hl hm

theorem flushHead_get (s : State) (h : Nat) {gf : Field} {gi : Nat} (hl : gf.id < 20000) (hm : W.flushHead.testBit gf.id =
    false) : regGet (State.flushHead s h).regs gf gi = regGet s.regs gf gi := (flushHead_frame s h).get hl hm

theorem updEntry_get (s : State) (y i : Nat) (f : TailEntry → TailEntry) {gf : Field} {gi : Nat} (hl : gf.id < 20000) (hm :
    W.updEntry.testBit gf.id = false) : regGet (State.updEntry s y i f).regs gf gi = regGet s.regs gf gi := (updEntry_frame s
    y i f).get hl hm

theorem claimDrift_get (s : State) (y : Nat) (r : DriftRec) (lam : List Int) {gf : Field} {gi : Nat} (hl : gf.id < 20000) (hm
    : W.claimDrift.testBit gf.id = false) : regGet (State.claimDrift s y r lam).regs gf gi = regGet s.regs gf gi :=
    (claimDrift_frame s y r lam).get hl hm

theorem makeSound_get (s : State) (y i info : Nat) {gf : Field} {gi : Nat} (hl : gf.id < 20000) (hm : W.makeSound.testBit
    gf.id = false) : regGet (State.makeSound s y i info).regs gf gi = regGet s.regs gf gi := (makeSound_frame s y i info).get
    hl hm

theorem judgeInner_get (s : State) (y : Nat) (r : DriftRec) (res : LdpcResult) {gf : Field} {gi : Nat} (hl : gf.id < 20000)
    (hm : W.judgeInner.testBit gf.id = false) : regGet (State.judgeInner s y r res).regs gf gi = regGet s.regs gf gi :=
    (judgeInner_frame s y r res).get hl hm

theorem lodeEnd_get (s : State) (y : Nat) {gf : Field} {gi : Nat} (hl : gf.id < 20000) (hm : W.lodeEnd.testBit gf.id = false)
    : regGet (State.lodeEnd s y).regs gf gi = regGet s.regs gf gi := (lodeEnd_frame s y).get hl hm

theorem beginReread_get (s : State) (y : Nat) {gf : Field} {gi : Nat} (hl : gf.id < 20000) (hm : W.beginReread.testBit gf.id =
    false) : regGet (State.beginReread s y).regs gf gi = regGet s.regs gf gi := (beginReread_frame s y).get hl hm

theorem startJob_get (s : State) (a y : Nat) {gf : Field} {gi : Nat} (hl : gf.id < 20000) (hm : W.startJob.testBit gf.id =
    false) : regGet (State.startJob s a y).regs gf gi = regGet s.regs gf gi := (startJob_frame s a y).get hl hm

theorem idleEngine_get (s : State) (a : Nat) {gf : Field} {gi : Nat} (hl : gf.id < 20000) (hm : W.idleEngine.testBit gf.id =
    false) : regGet (State.idleEngine s a).regs gf gi = regGet s.regs gf gi := (idleEngine_frame s a).get hl hm

theorem putRung_get (s : State) (y : Nat) (r : RungRes) {gf : Field} {gi : Nat} (hl : gf.id < 20000) (hm : W.putRung.testBit
    gf.id = false) : regGet (State.putRung s y r).regs gf gi = regGet s.regs gf gi := (putRung_frame s y r).get hl hm

theorem badEntries_get (s : State) (y : Nat) (ecc : List (Nat × Nat)) {gf : Field} {gi : Nat} (hl : gf.id < 20000) (hm :
    W.badEntries.testBit gf.id = false) : regGet (State.badEntries s y ecc).regs gf gi = regGet s.regs gf gi :=
    (badEntries_frame s y ecc).get hl hm

theorem lodePass_get (s : State) (y : Nat) (passed : Bool) {gf : Field} {gi : Nat} (hl : gf.id < 20000) (hm :
    W.lodePass.testBit gf.id = false) : regGet (State.lodePass s y passed).regs gf gi = regGet s.regs gf gi := (lodePass_frame
    s y passed).get hl hm

theorem asyMiss_get (s : State) (y : Nat) {gf : Field} {gi : Nat} (hl : gf.id < 20000) (hm : W.asyMiss.testBit gf.id = false)
    : regGet (State.asyMiss s y).regs gf gi = regGet s.regs gf gi := (asyMiss_frame s y).get hl hm

theorem rungEnds_get (s : State) (y : Nat) (r : RungRes) (ecc : List Nat) {gf : Field} {gi : Nat} (hl : gf.id < 20000) (hm :
    W.rungEnds.testBit gf.id = false) : regGet (State.rungEnds s y r ecc).regs gf gi = regGet s.regs gf gi := (rungEnds_frame
    s y r ecc).get hl hm

theorem jobLines_get (s : State) (y : Nat) {gf : Field} {gi : Nat} (hl : gf.id < 20000) (hm : W.jobLines.testBit gf.id =
    false) : regGet (State.jobLines s y).regs gf gi = regGet s.regs gf gi := (jobLines_frame s y).get hl hm

theorem jobDone_get (s : State) (a : Nat) (buf : List Nat) (entry : List (Nat × Nat)) (out : List Nat) {gf : Field} {gi : Nat}
    (hl : gf.id < 20000) (hm : W.jobDone.testBit gf.id = false) : regGet (State.jobDone s a buf entry out).regs gf gi = regGet
    s.regs gf gi := (jobDone_frame s a buf entry out).get hl hm

theorem prcEnable_get (s : State) (b : Bool) {gf : Field} {gi : Nat} (hl : gf.id < 20000) (hm : W.prcEnable.testBit gf.id =
    false) : regGet (State.prcEnable s b).regs gf gi = regGet s.regs gf gi := (prcEnable_frame s b).get hl hm

theorem sendBlock_get (s : State) (h j payload : Nat) {gf : Field} {gi : Nat} (hl : gf.id < 20000) (hm : W.sendBlock.testBit
    gf.id = false) : regGet (State.sendBlock s h j payload).regs gf gi = regGet s.regs gf gi := (sendBlock_frame s h j
    payload).get hl hm

theorem updLca_get (s : State) (f : LcaS → LcaS) {gf : Field} {gi : Nat} (hl : gf.id < 20000) (hm : W.updLca.testBit gf.id =
    false) : regGet (State.updLca s f).regs gf gi = regGet s.regs gf gi := (updLca_frame s f).get hl hm

theorem setCache_get (s : State) (l : List CacheLine) {gf : Field} {gi : Nat} (hl : gf.id < 20000) (hm : W.setCache.testBit
    gf.id = false) : regGet (State.setCache s l).regs gf gi = regGet s.regs gf gi := (setCache_frame s l).get hl hm

theorem dropLine_get (s : State) (w set : Nat) {gf : Field} {gi : Nat} (hl : gf.id < 20000) (hm : W.dropLine.testBit gf.id =
    false) : regGet (State.dropLine s w set).regs gf gi = regGet s.regs gf gi := (dropLine_frame s w set).get hl hm

theorem installLine_get (s : State) (l : CacheLine) {gf : Field} {gi : Nat} (hl : gf.id < 20000) (hm : W.installLine.testBit
    gf.id = false) : regGet (State.installLine s l).regs gf gi = regGet s.regs gf gi := (installLine_frame s l).get hl hm

theorem writeBack_get (s : State) (l : CacheLine) (x : CacheErr) {gf : Field} {gi : Nat} (hl : gf.id < 20000) (hm :
    W.writeBack.testBit gf.id = false) : regGet (State.writeBack s l x).regs gf gi = regGet s.regs gf gi := (writeBack_frame s
    l x).get hl hm

theorem cleanLine_get (s : State) (l : CacheLine) (x : CacheErr) {gf : Field} {gi : Nat} (hl : gf.id < 20000) (hm :
    W.cleanLine.testBit gf.id = false) : regGet (State.cleanLine s l x).regs gf gi = regGet s.regs gf gi := (cleanLine_frame s
    l x).get hl hm

theorem evict_get (s : State) (l : CacheLine) (x : CacheErr) {gf : Field} {gi : Nat} (hl : gf.id < 20000) (hm :
    W.evict.testBit gf.id = false) : regGet (State.evict s l x).regs gf gi = regGet s.regs gf gi := (evict_frame s l x).get hl
    hm

theorem ageSet_get (s : State) (ws : List Nat) (set : Nat) {gf : Field} {gi : Nat} (hl : gf.id < 20000) (hm : W.ageSet.testBit
    gf.id = false) : regGet (State.ageSet s ws set).regs gf gi = regGet s.regs gf gi := (ageSet_frame s ws set).get hl hm

theorem makeVictim_get (s : State) (set : Nat) {gf : Field} {gi : Nat} (hl : gf.id < 20000) (hm : W.makeVictim.testBit gf.id =
    false) : regGet ((State.makeVictim s set).1).regs gf gi = regGet s.regs gf gi := (makeVictim_frame s set).get hl hm

theorem hit_get (s : State) (l : CacheLine) {gf : Field} {gi : Nat} (hl : gf.id < 20000) (hm : W.hit.testBit gf.id = false) :
    regGet (State.hit s l).regs gf gi = regGet s.regs gf gi := (hit_frame s l).get hl hm

theorem streamPut_get (s : State) (n : Nat) (data : List Nat) {gf : Field} {gi : Nat} (hl : gf.id < 20000) (hm :
    W.streamPut.testBit gf.id = false) : regGet (State.streamPut s n data).regs gf gi = regGet s.regs gf gi :=
    (streamPut_frame s n data).get hl hm

theorem readPast_get (s : State) (src n : Nat) {gf : Field} {gi : Nat} (hl : gf.id < 20000) (hm : W.readPast.testBit gf.id =
    false) : regGet ((State.readPast s src n).1).regs gf gi = regGet s.regs gf gi := (readPast_frame s src n).get hl hm

theorem readRun_get (s : State) (src n k : Nat) {gf : Field} {gi : Nat} (hl : gf.id < 20000) (hm : W.readRun.testBit gf.id =
    false) : regGet ((s.readRun src n k).1).regs gf gi = regGet s.regs gf gi := (readRun_frame s src n k).get hl hm

theorem streamRun_get (s : State) (n : Nat) (l : List (List Nat)) {gf : Field} {gi : Nat} (hl : gf.id < 20000) (hm :
    W.streamRun.testBit gf.id = false) : regGet (s.streamRun n l).regs gf gi = regGet s.regs gf gi := (streamRun_frame s n
    l).get hl hm

theorem putRun_get (s : State) (n : Nat) (l : List (List Nat)) {gf : Field} {gi : Nat} (hl : gf.id < 20000) (hm :
    W.putRun.testBit gf.id = false) : regGet (s.putRun n l).regs gf gi = regGet s.regs gf gi := (putRun_frame s n l).get hl hm

theorem setRegion_get (s : State) (i : Nat) (x : RegionS) {gf : Field} {gi : Nat} (hl : gf.id < 20000) (hm :
    W.setRegion.testBit gf.id = false) : regGet (State.setRegion s i x).regs gf gi = regGet s.regs gf gi := (setRegion_frame s
    i x).get hl hm

theorem calPend_get (s : State) (i : Nat) {gf : Field} {gi : Nat} (hl : gf.id < 20000) (hm : W.calPend.testBit gf.id = false)
    : regGet (State.calPend s i).regs gf gi = regGet s.regs gf gi := (calPend_frame s i).get hl hm

theorem calPendAll_get (s : State) {gf : Field} {gi : Nat} (hl : gf.id < 20000) (hm : W.calPendAll.testBit gf.id = false) :
    regGet (State.calPendAll s).regs gf gi = regGet s.regs gf gi := (calPendAll_frame s).get hl hm

theorem calRunDone_get (s : State) (i : Nat) {gf : Field} {gi : Nat} (hl : gf.id < 20000) (hm : W.calRunDone.testBit gf.id =
    false) : regGet (State.calRunDone s i).regs gf gi = regGet s.regs gf gi := (calRunDone_frame s i).get hl hm

theorem calAccept_get (s : State) (i u : Nat) (x : CalIn) {gf : Field} {gi : Nat} (hl : gf.id < 20000) (hm :
    W.calAccept.testBit gf.id = false) : regGet (State.calAccept s i u x).regs gf gi = regGet s.regs gf gi := (calAccept_frame
    s i u x).get hl hm

theorem calRejected_get (s : State) (i u n : Nat) {gf : Field} {gi : Nat} (hl : gf.id < 20000) (hm : W.calRejected.testBit
    gf.id = false) : regGet (State.calRejected s i u n).regs gf gi = regGet s.regs gf gi := (calRejected_frame s i u n).get hl
    hm

theorem calUnit_get (s : State) (i u : Nat) (x : CalIn) {gf : Field} {gi : Nat} (hl : gf.id < 20000) (hm : W.calUnit.testBit
    gf.id = false) : regGet (State.calUnit s i u x).regs gf gi = regGet s.regs gf gi := (calUnit_frame s i u x).get hl hm

theorem fuseDone_get (s : State) (o : FuseOp) (bad : Nat) {gf : Field} {gi : Nat} (hl : gf.id < 20000) (hm :
    W.fuseDone.testBit gf.id = false) : regGet (State.fuseDone s o bad).regs gf gi = regGet s.regs gf gi := (fuseDone_frame s
    o bad).get hl hm

theorem abandon_get (s : State) {gf : Field} {gi : Nat} (hl : gf.id < 20000) (hm : W.abandon.testBit gf.id = false) : regGet
    (State.abandon s).regs gf gi = regGet s.regs gf gi := (abandon_frame s).get hl hm

theorem armed_get (s : State) (im : Image) (pos : Nat) {gf : Field} {gi : Nat} (hl : gf.id < 20000) (hm : W.armed.testBit
    gf.id = false) : regGet (State.armed s im pos).regs gf gi = regGet s.regs gf gi := (armed_frame s im pos).get hl hm

theorem updCfg_get (s : State) (f : CfgS → CfgS) {gf : Field} {gi : Nat} (hl : gf.id < 20000) (hm : W.updCfg.testBit gf.id =
    false) : regGet (State.updCfg s f).regs gf gi = regGet s.regs gf gi := (updCfg_frame s f).get hl hm

theorem updFlash_get (s : State) (f : FlashS → FlashS) {gf : Field} {gi : Nat} (hl : gf.id < 20000) (hm : W.updFlash.testBit
    gf.id = false) : regGet (State.updFlash s f).regs gf gi = regGet s.regs gf gi := (updFlash_frame s f).get hl hm

theorem cfgReject_get (s : State) {gf : Field} {gi : Nat} (hl : gf.id < 20000) (hm : W.cfgReject.testBit gf.id = false) :
    regGet (State.cfgReject s).regs gf gi = regGet s.regs gf gi := (cfgReject_frame s).get hl hm

theorem senseFuses_get (s : State) {gf : Field} {gi : Nat} (hl : gf.id < 20000) (hm : W.senseFuses.testBit gf.id = false) :
    regGet (State.senseFuses s).regs gf gi = regGet s.regs gf gi := (senseFuses_frame s).get hl hm

theorem fuseCmd_get (s : State) (op confirm slot : Nat) {gf : Field} {gi : Nat} (hl : gf.id < 20000) (hm : W.fuseCmd.testBit
    gf.id = false) : regGet (State.fuseCmd s op confirm slot).regs gf gi = regGet s.regs gf gi := (fuseCmd_frame s op confirm
    slot).get hl hm

theorem setStage_get (s : State) (n : Nat) {gf : Field} {gi : Nat} (hl : gf.id < 20000) (hm : W.setStage.testBit gf.id =
    false) : regGet (State.setStage s n).regs gf gi = regGet s.regs gf gi := (setStage_frame s n).get hl hm

theorem showStage_get (s : State) {gf : Field} {gi : Nat} (hl : gf.id < 20000) (hm : W.showStage.testBit gf.id = false) :
    regGet (State.showStage s).regs gf gi = regGet s.regs gf gi := (showStage_frame s).get hl hm

theorem stageErase_get (s : State) {gf : Field} {gi : Nat} (hl : gf.id < 20000) (hm : W.stageErase.testBit gf.id = false) :
    regGet (State.stageErase s).regs gf gi = regGet s.regs gf gi := (stageErase_frame s).get hl hm

theorem stageFails_get (s : State) (cause : Nat) {gf : Field} {gi : Nat} (hl : gf.id < 20000) (hm : W.stageFails.testBit gf.id
    = false) : regGet (State.stageFails s cause).regs gf gi = regGet s.regs gf gi := (stageFails_frame s cause).get hl hm

theorem rejectPiece_get (s : State) (reason : Nat) (pos : Option Nat) {gf : Field} {gi : Nat} (hl : gf.id < 20000) (hm :
    W.rejectPiece.testBit gf.id = false) : regGet (State.rejectPiece s reason pos).regs gf gi = regGet s.regs gf gi :=
    (rejectPiece_frame s reason pos).get hl hm

theorem fixStage_get (s : State) (b : List Nat) {gf : Field} {gi : Nat} (hl : gf.id < 20000) (hm : W.fixStage.testBit gf.id =
    false) : regGet (State.fixStage s b).regs gf gi = regGet s.regs gf gi := (fixStage_frame s b).get hl hm

theorem programPiece_get (s : State) (j : PieceJob) {gf : Field} {gi : Nat} (hl : gf.id < 20000) (hm : W.programPiece.testBit
    gf.id = false) : regGet (State.programPiece s j).regs gf gi = regGet s.regs gf gi := (programPiece_frame s j).get hl hm

theorem takePiece_get (s : State) (j : PieceJob) {gf : Field} {gi : Nat} (hl : gf.id < 20000) (hm : W.takePiece.testBit gf.id
    = false) : regGet (State.takePiece s j).regs gf gi = regGet s.regs gf gi := (takePiece_frame s j).get hl hm

theorem nextPieces_get (s : State) (n : Nat) {gf : Field} {gi : Nat} (hl : gf.id < 20000) (hm : W.nextPieces.testBit gf.id =
    false) : regGet (s.nextPieces n).regs gf gi = regGet s.regs gf gi := (nextPieces_frame s n).get hl hm

theorem pieceArrives_get (s : State) (j : PieceJob) {gf : Field} {gi : Nat} (hl : gf.id < 20000) (hm : W.pieceArrives.testBit
    gf.id = false) : regGet (State.pieceArrives s j).regs gf gi = regGet s.regs gf gi := (pieceArrives_frame s j).get hl hm

theorem pieceDone_get (s : State) (j : PieceJob) (ok : Bool) {gf : Field} {gi : Nat} (hl : gf.id < 20000) (hm :
    W.pieceDone.testBit gf.id = false) : regGet (State.pieceDone s j ok).regs gf gi = regGet s.regs gf gi := (pieceDone_frame
    s j ok).get hl hm

theorem writeActive_get (s : State) (slot : Nat) {gf : Field} {gi : Nat} (hl : gf.id < 20000) (hm : W.writeActive.testBit
    gf.id = false) : regGet (State.writeActive s slot).regs gf gi = regGet s.regs gf gi := (writeActive_frame s slot).get hl
    hm

theorem showImage_get (s : State) (im : Image) (slot : Nat) {gf : Field} {gi : Nat} (hl : gf.id < 20000) (hm :
    W.showImage.testBit gf.id = false) : regGet (State.showImage s im slot).regs gf gi = regGet s.regs gf gi :=
    (showImage_frame s im slot).get hl hm

theorem startEnabled_get (s : State) {gf : Field} {gi : Nat} (hl : gf.id < 20000) (hm : W.startEnabled.testBit gf.id = false)
    : regGet (State.startEnabled s).regs gf gi = regGet s.regs gf gi := (startEnabled_frame s).get hl hm

theorem rebuildStage_get (s : State) (bad : Bool) (svn : Nat → Nat) {gf : Field} {gi : Nat} (hl : gf.id < 20000) (hm :
    W.rebuildStage.testBit gf.id = false) : regGet (State.rebuildStage s bad svn).regs gf gi = regGet s.regs gf gi :=
    (rebuildStage_frame s bad svn).get hl hm

theorem findPrev_get (s : State) (bad : List Nat) {gf : Field} {gi : Nat} (hl : gf.id < 20000) (hm : W.findPrev.testBit gf.id
    = false) : regGet (State.findPrev s bad).regs gf gi = regGet s.regs gf gi := (findPrev_frame s bad).get hl hm

theorem slotFailed_get (s : State) (slot cause clause : Nat) {gf : Field} {gi : Nat} (hl : gf.id < 20000) (hm :
    W.slotFailed.testBit gf.id = false) : regGet (State.slotFailed s slot cause clause).regs gf gi = regGet s.regs gf gi :=
    (slotFailed_frame s slot cause clause).get hl hm

theorem runImage_get (s : State) (im : Image) (slot : Nat) {gf : Field} {gi : Nat} (hl : gf.id < 20000) (hm :
    W.runImage.testBit gf.id = false) : regGet (State.runImage s im slot).regs gf gi = regGet s.regs gf gi := (runImage_frame
    s im slot).get hl hm

theorem afterLoad_get (s : State) (cause : Nat) (x : LoadIn) {gf : Field} {gi : Nat} (hl : gf.id < 20000) (hm :
    W.afterLoad.testBit gf.id = false) : regGet (State.afterLoad s cause x).regs gf gi = regGet s.regs gf gi :=
    (afterLoad_frame s cause x).get hl hm

theorem attempt_get {s t : State} {im : Image} (e : s.attempt im = .placed t) {gf : Field} {gi : Nat} (hl : gf.id < 20000) (hm
    : W.attempt.testBit gf.id = false) : regGet (t).regs gf gi = regGet s.regs gf gi := (attempt_frame e).get hl hm

theorem loadEnds_get (s : State) (cause : Nat) (x : LoadIn) {gf : Field} {gi : Nat} (hl : gf.id < 20000) (hm :
    W.loadEnds.testBit gf.id = false) : regGet (State.loadEnds s cause x).regs gf gi = regGet s.regs gf gi := (loadEnds_frame
    s cause x).get hl hm

theorem serveAttest_get (s : State) (c : Cmd) {gf : Field} {gi : Nat} (hl : gf.id < 20000) (hm : W.serveAttest.testBit gf.id =
    false) : regGet (State.serveAttest s c).regs gf gi = regGet s.regs gf gi := (serveAttest_frame s c).get hl hm

theorem serveAttests_get (s : State) {gf : Field} {gi : Nat} (hl : gf.id < 20000) (hm : W.serveAttests.testBit gf.id = false)
    : regGet (State.serveAttests s).regs gf gi = regGet s.regs gf gi := (serveAttests_frame s).get hl hm

theorem signRecord_get (s : State) (cause time : Nat) (logOk : Bool) {gf : Field} {gi : Nat} (hl : gf.id < 20000) (hm :
    W.signRecord.testBit gf.id = false) : regGet (State.signRecord s cause time logOk).regs gf gi = regGet s.regs gf gi :=
    (signRecord_frame s cause time logOk).get hl hm

theorem shiftCommit_get (s : State) (f : Nat) {gf : Field} {gi : Nat} (hl : gf.id < 20000) (hm : W.shiftCommit.testBit gf.id =
    false) : regGet (State.shiftCommit s f).regs gf gi = regGet s.regs gf gi := (shiftCommit_frame s f).get hl hm

theorem commitSeen_get (s : State) (e f : Nat) {gf : Field} {gi : Nat} (hl : gf.id < 20000) (hm : W.commitSeen.testBit gf.id =
    false) : regGet (State.commitSeen s e f).regs gf gi = regGet s.regs gf gi := (commitSeen_frame s e f).get hl hm

theorem abortSeen_get (s : State) (e : Nat) {gf : Field} {gi : Nat} (hl : gf.id < 20000) (hm : W.abortSeen.testBit gf.id =
    false) : regGet (State.abortSeen s e).regs gf gi = regGet s.regs gf gi := (abortSeen_frame s e).get hl hm

theorem unplace_get (s : State) {gf : Field} {gi : Nat} (hl : gf.id < 20000) (hm : W.unplace.testBit gf.id = false) : regGet
    (State.unplace s).regs gf gi = regGet s.regs gf gi := (unplace_frame s).get hl hm

theorem placeAll_get (s : State) (im : Image) {gf : Field} {gi : Nat} (hl : gf.id < 20000) (hm : W.placeAll.testBit gf.id =
    false) : regGet (State.placeAll s im).regs gf gi = regGet s.regs gf gi := (placeAll_frame s im).get hl hm

theorem deckGone_get (s : State) (d : Nat) {gf : Field} {gi : Nat} (hl : gf.id < 20000) (hm : W.deckGone.testBit gf.id =
    false) : regGet (State.deckGone s d).regs gf gi = regGet s.regs gf gi := (deckGone_frame s d).get hl hm

theorem trimWays_get (s : State) {gf : Field} {gi : Nat} (hl : gf.id < 20000) (hm : W.trimWays.testBit gf.id = false) : regGet
    (State.trimWays s).regs gf gi = regGet s.regs gf gi := (trimWays_frame s).get hl hm

theorem shiftApply_get (s : State) (defer : Nat) {gf : Field} {gi : Nat} (hl : gf.id < 20000) (hm : W.shiftApply.testBit gf.id
    = false) : regGet (State.shiftApply s defer).regs gf gi = regGet s.regs gf gi := (shiftApply_frame s defer).get hl hm

theorem shiftFrame_get (s : State) {gf : Field} {gi : Nat} (hl : gf.id < 20000) (hm : W.shiftFrame.testBit gf.id = false) :
    regGet (State.shiftFrame s).regs gf gi = regGet s.regs gf gi := (shiftFrame_frame s).get hl hm

theorem copyLoads_get (s : State) (im : Image) {gf : Field} {gi : Nat} (hl : gf.id < 20000) (hm : W.copyLoads.testBit gf.id =
    false) : regGet (State.copyLoads s im).regs gf gi = regGet s.regs gf gi := (copyLoads_frame s im).get hl hm

theorem rateCheck_get (s : State) (c : Nat) {gf : Field} {gi : Nat} (hl : gf.id < 20000) (hm : W.rateCheck.testBit gf.id =
    false) : regGet (State.rateCheck s c).regs gf gi = regGet s.regs gf gi := (rateCheck_frame s c).get hl hm

theorem keepDrift_get (s : State) (c : Nat) {gf : Field} {gi : Nat} (hl : gf.id < 20000) (hm : W.keepDrift.testBit gf.id =
    false) : regGet (State.keepDrift s c).regs gf gi = regGet s.regs gf gi := (keepDrift_frame s c).get hl hm

theorem truncate_get (s : State) (c : Nat) {gf : Field} {gi : Nat} (hl : gf.id < 20000) (hm : W.truncate.testBit gf.id =
    false) : regGet (State.truncate s c).regs gf gi = regGet s.regs gf gi := (truncate_frame s c).get hl hm

theorem chanWait_get (s : State) (c : Nat) {gf : Field} {gi : Nat} (hl : gf.id < 20000) (hm : W.chanWait.testBit gf.id =
    false) : regGet (State.chanWait s c).regs gf gi = regGet s.regs gf gi := (chanWait_frame s c).get hl hm

theorem chanOff_get (s : State) (c : Nat) {gf : Field} {gi : Nat} (hl : gf.id < 20000) (hm : W.chanOff.testBit gf.id = false)
    : regGet (State.chanOff s c).regs gf gi = regGet s.regs gf gi := (chanOff_frame s c).get hl hm

theorem chanFollow_get (s : State) (h : Nat) {gf : Field} {gi : Nat} (hl : gf.id < 20000) (hm : W.chanFollow.testBit gf.id =
    false) : regGet (State.chanFollow s h).regs gf gi = regGet s.regs gf gi := (chanFollow_frame s h).get hl hm

theorem loadZone_get (s : State) (c l z : Nat) {gf : Field} {gi : Nat} (hl : gf.id < 20000) (hm : W.loadZone.testBit gf.id =
    false) : regGet (State.loadZone s c l z).regs gf gi = regGet s.regs gf gi := (loadZone_frame s c l z).get hl hm

theorem loadTaps_get (s : State) (c z : Nat) {gf : Field} {gi : Nat} (hl : gf.id < 20000) (hm : W.loadTaps.testBit gf.id =
    false) : regGet (State.loadTaps s c z).regs gf gi = regGet s.regs gf gi := (loadTaps_frame s c z).get hl hm

theorem applyZone_get (s : State) (c : Nat) {gf : Field} {gi : Nat} (hl : gf.id < 20000) (hm : W.applyZone.testBit gf.id =
    false) : regGet (State.applyZone s c).regs gf gi = regGet s.regs gf gi := (applyZone_frame s c).get hl hm

theorem zoneAtPillar_get (s : State) (c : Nat) {gf : Field} {gi : Nat} (hl : gf.id < 20000) (hm : W.zoneAtPillar.testBit gf.id
    = false) : regGet (State.zoneAtPillar s c).regs gf gi = regGet s.regs gf gi := (zoneAtPillar_frame s c).get hl hm

theorem coast_get (s : State) (c : Nat) {gf : Field} {gi : Nat} (hl : gf.id < 20000) (hm : W.coast.testBit gf.id = false) :
    regGet (State.coast s c).regs gf gi = regGet s.regs gf gi := (coast_frame s c).get hl hm

theorem seedLoop_get (s : State) (c : Nat) {gf : Field} {gi : Nat} (hl : gf.id < 20000) (hm : W.seedLoop.testBit gf.id =
    false) : regGet (State.seedLoop s c).regs gf gi = regGet s.regs gf gi := (seedLoop_frame s c).get hl hm

theorem chanLock_get (s : State) (c : Nat) {gf : Field} {gi : Nat} (hl : gf.id < 20000) (hm : W.chanLock.testBit gf.id =
    false) : regGet (State.chanLock s c).regs gf gi = regGet s.regs gf gi := (chanLock_frame s c).get hl hm

theorem chanEnable_get (s : State) (c : Nat) {gf : Field} {gi : Nat} (hl : gf.id < 20000) (hm : W.chanEnable.testBit gf.id =
    false) : regGet (State.chanEnable s c).regs gf gi = regGet s.regs gf gi := (chanEnable_frame s c).get hl hm

theorem chanDisable_get (s : State) (c : Nat) {gf : Field} {gi : Nat} (hl : gf.id < 20000) (hm : W.chanDisable.testBit gf.id =
    false) : regGet (State.chanDisable s c).regs gf gi = regGet s.regs gf gi := (chanDisable_frame s c).get hl hm

theorem toLock_get (s : State) (c : Nat) {gf : Field} {gi : Nat} (hl : gf.id < 20000) (hm : W.toLock.testBit gf.id = false) :
    regGet (State.toLock s c).regs gf gi = regGet s.regs gf gi := (toLock_frame s c).get hl hm

theorem wobble_get (s : State) (c : Nat) {gf : Field} {gi : Nat} (hl : gf.id < 20000) (hm : W.wobble.testBit gf.id = false) :
    regGet (State.wobble s c).regs gf gi = regGet s.regs gf gi := (wobble_frame s c).get hl hm

theorem reportAddr_get (s : State) (c : Nat) (a : PillarAddr) (pass : Bool) {gf : Field} {gi : Nat} (hl : gf.id < 20000) (hm :
    W.reportAddr.testBit gf.id = false) : regGet (State.reportAddr s c a pass).regs gf gi = regGet s.regs gf gi :=
    (reportAddr_frame s c a pass).get hl hm

theorem pillarCount_get (s : State) (c : Nat) (a : PillarAddr) {gf : Field} {gi : Nat} (hl : gf.id < 20000) (hm :
    W.pillarCount.testBit gf.id = false) : regGet (State.pillarCount s c a).regs gf gi = regGet s.regs gf gi :=
    (pillarCount_frame s c a).get hl hm

theorem syncPhase_get (s : State) (c : Nat) (o : Int) {gf : Field} {gi : Nat} (hl : gf.id < 20000) (hm : W.syncPhase.testBit
    gf.id = false) : regGet (State.syncPhase s c o).regs gf gi = regGet s.regs gf gi := (syncPhase_frame s c o).get hl hm

theorem beamPillar_get (s : State) (c : Nat) {gf : Field} {gi : Nat} (hl : gf.id < 20000) (hm : W.beamPillar.testBit gf.id =
    false) : regGet ((State.beamPillar s c).1).regs gf gi = regGet s.regs gf gi := (beamPillar_frame s c).get hl hm

theorem pillarState_get (s : State) (c : Nat) {gf : Field} {gi : Nat} (hl : gf.id < 20000) (hm : W.pillarState.testBit gf.id =
    false) : regGet (State.pillarState s c).regs gf gi = regGet s.regs gf gi := (pillarState_frame s c).get hl hm

theorem compareBeam_get (s : State) (h b : Nat) (a : PillarAddr) {gf : Field} {gi : Nat} (hl : gf.id < 20000) (hm :
    W.compareBeam.testBit gf.id = false) : regGet (State.compareBeam s h b a).regs gf gi = regGet s.regs gf gi :=
    (compareBeam_frame s h b a).get hl hm

theorem comparePos_get (s : State) (h : Nat) (l : List (Nat × PillarAddr)) {gf : Field} {gi : Nat} (hl : gf.id < 20000) (hm :
    W.comparePos.testBit gf.id = false) : regGet (State.comparePos s h l).regs gf gi = regGet s.regs gf gi :=
    (comparePos_frame s h l).get hl hm

theorem pillarFix_get (s : State) (h : Nat) (posErr : Bool) (l : List (Nat × PillarAddr)) {gf : Field} {gi : Nat} (hl : gf.id
    < 20000) (hm : W.pillarFix.testBit gf.id = false) : regGet (State.pillarFix s h posErr l).regs gf gi = regGet s.regs gf gi
    := (pillarFix_frame s h posErr l).get hl hm

theorem pillarTold_get (s : State) (h k : Nat) (l : List (Nat × PillarAddr)) {gf : Field} {gi : Nat} (hl : gf.id < 20000) (hm
    : W.pillarTold.testBit gf.id = false) : regGet (State.pillarTold s h k l).regs gf gi = regGet s.regs gf gi :=
    (pillarTold_frame s h k l).get hl hm

theorem pillar_get (s : State) (h k : Nat) {gf : Field} {gi : Nat} (hl : gf.id < 20000) (hm : W.pillar.testBit gf.id = false)
    : regGet (State.pillar s h k).regs gf gi = regGet s.regs gf gi := (pillar_frame s h k).get hl hm

theorem toPool_get (s : State) (r : DriftRec) (lam : List Int) {gf : Field} {gi : Nat} (hl : gf.id < 20000) (hm :
    W.toPool.testBit gf.id = false) : regGet ((State.toPool s r lam).1).regs gf gi = regGet s.regs gf gi := (toPool_frame s r
    lam).get hl hm

theorem toCal_get (s : State) (c slot : Nat) (r : DriftRec) (llr : List Int) {gf : Field} {gi : Nat} (hl : gf.id < 20000) (hm
    : W.toCal.testBit gf.id = false) : regGet (State.toCal s c slot r llr).regs gf gi = regGet s.regs gf gi := (toCal_frame s
    c slot r llr).get hl hm

theorem frameDrift_get (s : State) (c j : Nat) (start : Int) (r : DriftRec) {gf : Field} {gi : Nat} (hl : gf.id < 20000) (hm :
    W.frameDrift.testBit gf.id = false) : regGet (State.frameDrift s c j start r).regs gf gi = regGet s.regs gf gi :=
    (frameDrift_frame s c j start r).get hl hm

theorem driftSlot_get (s : State) (c j : Nat) {gf : Field} {gi : Nat} (hl : gf.id < 20000) (hm : W.driftSlot.testBit gf.id =
    false) : regGet (State.driftSlot s c j).regs gf gi = regGet s.regs gf gi := (driftSlot_frame s c j).get hl hm

theorem innerDone_get (s : State) (c : Nat) {gf : Field} {gi : Nat} (hl : gf.id < 20000) (hm : W.innerDone.testBit gf.id =
    false) : regGet (State.innerDone s c).regs gf gi = regGet s.regs gf gi := (innerDone_frame s c).get hl hm

theorem driftEnd_get (s : State) (c : Nat) {gf : Field} {gi : Nat} (hl : gf.id < 20000) (hm : W.driftEnd.testBit gf.id =
    false) : regGet (State.driftEnd s c).regs gf gi = regGet s.regs gf gi := (driftEnd_frame s c).get hl hm

theorem commitCoef_get (s : State) (h : Nat) (zero : Bool) {gf : Field} {gi : Nat} (hl : gf.id < 20000) (hm :
    W.commitCoef.testBit gf.id = false) : regGet (State.commitCoef s h zero).regs gf gi = regGet s.regs gf gi :=
    (commitCoef_frame s h zero).get hl hm

theorem startOp_get (s : State) (h : Nat) (o : MediaOp) {gf : Field} {gi : Nat} (hl : gf.id < 20000) (hm : W.startOp.testBit
    gf.id = false) : regGet (State.startOp s h o).regs gf gi = regGet s.regs gf gi := (startOp_frame s h o).get hl hm

theorem takeOp_get (s : State) (h : Nat) {gf : Field} {gi : Nat} (hl : gf.id < 20000) (hm : W.takeOp.testBit gf.id = false) :
    regGet (State.takeOp s h).regs gf gi = regGet s.regs gf gi := (takeOp_frame s h).get hl hm

theorem toParked_get (s : State) (h : Nat) {gf : Field} {gi : Nat} (hl : gf.id < 20000) (hm : W.toParked.testBit gf.id =
    false) : regGet (State.toParked s h).regs gf gi = regGet s.regs gf gi := (toParked_frame s h).get hl hm

theorem jumpBrake_get (s : State) (h : Nat) {gf : Field} {gi : Nat} (hl : gf.id < 20000) (hm : W.jumpBrake.testBit gf.id =
    false) : regGet (State.jumpBrake s h).regs gf gi = regGet s.regs gf gi := (jumpBrake_frame s h).get hl hm

theorem jumpSettle_get (s : State) (h : Nat) {gf : Field} {gi : Nat} (hl : gf.id < 20000) (hm : W.jumpSettle.testBit gf.id =
    false) : regGet (State.jumpSettle s h).regs gf gi = regGet s.regs gf gi := (jumpSettle_frame s h).get hl hm

theorem hopKick_get (s : State) (h : Nat) {gf : Field} {gi : Nat} (hl : gf.id < 20000) (hm : W.hopKick.testBit gf.id = false)
    : regGet (State.hopKick s h).regs gf gi = regGet s.regs gf gi := (hopKick_frame s h).get hl hm

theorem hopDone_get (s : State) (h : Nat) {gf : Field} {gi : Nat} (hl : gf.id < 20000) (hm : W.hopDone.testBit gf.id = false)
    : regGet (State.hopDone s h).regs gf gi = regGet s.regs gf gi := (hopDone_frame s h).get hl hm

theorem hopLate_get (s : State) (h : Nat) {gf : Field} {gi : Nat} (hl : gf.id < 20000) (hm : W.hopLate.testBit gf.id = false)
    : regGet (State.hopLate s h).regs gf gi = regGet s.regs gf gi := (hopLate_frame s h).get hl hm

theorem holdExit_get (s : State) (h : Nat) {gf : Field} {gi : Nat} (hl : gf.id < 20000) (hm : W.holdExit.testBit gf.id =
    false) : regGet (State.holdExit s h).regs gf gi = regGet s.regs gf gi := (holdExit_frame s h).get hl hm

theorem headUp_get (s : State) (h : Nat) {gf : Field} {gi : Nat} (hl : gf.id < 20000) (hm : W.headUp.testBit gf.id = false) :
    regGet (State.headUp s h).regs gf gi = regGet s.regs gf gi := (headUp_frame s h).get hl hm

theorem clearOvr_get (s : State) (h : Nat) {gf : Field} {gi : Nat} (hl : gf.id < 20000) (hm : W.clearOvr.testBit gf.id =
    false) : regGet (State.clearOvr s h).regs gf gi = regGet s.regs gf gi := (clearOvr_frame s h).get hl hm

theorem clearSat_get (s : State) (h : Nat) {gf : Field} {gi : Nat} (hl : gf.id < 20000) (hm : W.clearSat.testBit gf.id =
    false) : regGet (State.clearSat s h).regs gf gi = regGet s.regs gf gi := (clearSat_frame s h).get hl hm

theorem linkAgain_get (s : State) (h : Nat) {gf : Field} {gi : Nat} (hl : gf.id < 20000) (hm : W.linkAgain.testBit gf.id =
    false) : regGet (State.linkAgain s h).regs gf gi = regGet s.regs gf gi := (linkAgain_frame s h).get hl hm

theorem faultReset_get (s : State) (h : Nat) {gf : Field} {gi : Nat} (hl : gf.id < 20000) (hm : W.faultReset.testBit gf.id =
    false) : regGet (State.faultReset s h).regs gf gi = regGet s.regs gf gi := (faultReset_frame s h).get hl hm

theorem satFlags_get (s : State) (h i x : Nat) {gf : Field} {gi : Nat} (hl : gf.id < 20000) (hm : W.satFlags.testBit gf.id =
    false) : regGet (s.satFlags h i x).regs gf gi = regGet s.regs gf gi := (satFlags_frame s h i x).get hl hm

theorem satNff_get (s : State) (h : Nat) {gf : Field} {gi : Nat} (hl : gf.id < 20000) (hm : W.satNff.testBit gf.id = false) :
    regGet (State.satNff s h).regs gf gi = regGet s.regs gf gi := (satNff_frame s h).get hl hm

theorem coefs_get (s : State) (h e : Nat) {gf : Field} {gi : Nat} (hl : gf.id < 20000) (hm : W.coefs.testBit gf.id = false) :
    regGet ((State.coefs s h e).1).regs gf gi = regGet s.regs gf gi := (coefs_frame s h e).get hl hm

theorem sections_get (s : State) (h i n : Nat) (x : Int) (sos : List (Int × Int)) {gf : Field} {gi : Nat} (hl : gf.id < 20000)
    (hm : W.sections.testBit gf.id = false) : regGet ((State.sections s h i n x sos).1).regs gf gi = regGet s.regs gf gi :=
    (sections_frame s h i n x sos).get hl hm

theorem nff_get (s : State) (h : Nat) {gf : Field} {gi : Nat} (hl : gf.id < 20000) (hm : W.nff.testBit gf.id = false) : regGet
    ((State.nff s h).1).regs gf gi = regGet s.regs gf gi := (nff_frame s h).get hl hm

theorem runLoop_get (s : State) (h i : Nat) (nff : Int) {gf : Field} {gi : Nat} (hl : gf.id < 20000) (hm : W.runLoop.testBit
    gf.id = false) : regGet (State.runLoop s h i nff).regs gf gi = regGet s.regs gf gi := (runLoop_frame s h i nff).get hl hm

theorem runLoops_get (s : State) (h : Nat) {gf : Field} {gi : Nat} (hl : gf.id < 20000) (hm : W.runLoops.testBit gf.id =
    false) : regGet (State.runLoops s h).regs gf gi = regGet s.regs gf gi := (runLoops_frame s h).get hl hm

theorem clearPosErr_get (s : State) (h : Nat) {gf : Field} {gi : Nat} (hl : gf.id < 20000) (hm : W.clearPosErr.testBit gf.id =
    false) : regGet (State.clearPosErr s h).regs gf gi = regGet s.regs gf gi := (clearPosErr_frame s h).get hl hm

theorem setTrack_get (s : State) (h t : Nat) {gf : Field} {gi : Nat} (hl : gf.id < 20000) (hm : W.setTrack.testBit gf.id =
    false) : regGet (State.setTrack s h t).regs gf gi = regGet s.regs gf gi := (setTrack_frame s h t).get hl hm

theorem advanceTrack_get (s : State) (h : Nat) (dx : Int) {gf : Field} {gi : Nat} (hl : gf.id < 20000) (hm :
    W.advanceTrack.testBit gf.id = false) : regGet (State.advanceTrack s h dx).regs gf gi = regGet s.regs gf gi :=
    (advanceTrack_frame s h dx).get hl hm

theorem positionFix_get (s : State) (h t : Nat) {gf : Field} {gi : Nat} (hl : gf.id < 20000) (hm : W.positionFix.testBit gf.id
    = false) : regGet (State.positionFix s h t).regs gf gi = regGet s.regs gf gi := (positionFix_frame s h t).get hl hm

theorem reportOt_get (s : State) (h : Nat) {gf : Field} {gi : Nat} (hl : gf.id < 20000) (hm : W.reportOt.testBit gf.id =
    false) : regGet (State.reportOt s h).regs gf gi = regGet s.regs gf gi := (reportOt_frame s h).get hl hm

theorem centreLens_get (s : State) (h : Nat) {gf : Field} {gi : Nat} (hl : gf.id < 20000) (hm : W.centreLens.testBit gf.id =
    false) : regGet (State.centreLens s h).regs gf gi = regGet s.regs gf gi := (centreLens_frame s h).get hl hm

theorem seekFail_get (s : State) (h : Nat) {gf : Field} {gi : Nat} (hl : gf.id < 20000) (hm : W.seekFail.testBit gf.id =
    false) : regGet (State.seekFail s h).regs gf gi = regGet s.regs gf gi := (seekFail_frame s h).get hl hm

theorem startJump_get (s : State) (h target ticks corr rep : Nat) {gf : Field} {gi : Nat} (hl : gf.id < 20000) (hm :
    W.startJump.testBit gf.id = false) : regGet (State.startJump s h target ticks corr rep).regs gf gi = regGet s.regs gf gi
    := (startJump_frame s h target ticks corr rep).get hl hm

theorem startSeek_get (s : State) (h target rep : Nat) {gf : Field} {gi : Nat} (hl : gf.id < 20000) (hm : W.startSeek.testBit
    gf.id = false) : regGet (State.startSeek s h target rep).regs gf gi = regGet s.regs gf gi := (startSeek_frame s h target
    rep).get hl hm

theorem moveTo_get (s : State) (h target rep : Nat) {gf : Field} {gi : Nat} (hl : gf.id < 20000) (hm : W.moveTo.testBit gf.id
    = false) : regGet (State.moveTo s h target rep).regs gf gi = regGet s.regs gf gi := (moveTo_frame s h target rep).get hl
    hm

theorem startHop_get (s : State) (h target : Nat) {gf : Field} {gi : Nat} (hl : gf.id < 20000) (hm : W.startHop.testBit gf.id
    = false) : regGet (State.startHop s h target).regs gf gi = regGet s.regs gf gi := (startHop_frame s h target).get hl hm

theorem finishOp_get (s : State) (h : Nat) {gf : Field} {gi : Nat} (hl : gf.id < 20000) (hm : W.finishOp.testBit gf.id =
    false) : regGet (State.finishOp s h).regs gf gi = regGet s.regs gf gi := (finishOp_frame s h).get hl hm

theorem parkHome_get (s : State) (h : Nat) {gf : Field} {gi : Nat} (hl : gf.id < 20000) (hm : W.parkHome.testBit gf.id =
    false) : regGet (State.parkHome s h).regs gf gi = regGet s.regs gf gi := (parkHome_frame s h).get hl hm

theorem parkHead_get (s : State) (h : Nat) {gf : Field} {gi : Nat} (hl : gf.id < 20000) (hm : W.parkHead.testBit gf.id =
    false) : regGet (State.parkHead s h).regs gf gi = regGet s.regs gf gi := (parkHead_frame s h).get hl hm

theorem takeoverDone_get (s : State) (b : Nat) {gf : Field} {gi : Nat} (hl : gf.id < 20000) (hm : W.takeoverDone.testBit gf.id
    = false) : regGet (State.takeoverDone s b).regs gf gi = regGet s.regs gf gi := (takeoverDone_frame s b).get hl hm

theorem continueOp_get (s : State) (h : Nat) {gf : Field} {gi : Nat} (hl : gf.id < 20000) (hm : W.continueOp.testBit gf.id =
    false) : regGet (State.continueOp s h).regs gf gi = regGet s.regs gf gi := (continueOp_frame s h).get hl hm

theorem restContained_get (s : State) (h : Nat) {gf : Field} {gi : Nat} (hl : gf.id < 20000) (hm : W.restContained.testBit
    gf.id = false) : regGet (State.restContained s h).regs gf gi = regGet s.regs gf gi := (restContained_frame s h).get hl hm

theorem enterFollow_get (s : State) (h : Nat) {gf : Field} {gi : Nat} (hl : gf.id < 20000) (hm : W.enterFollow.testBit gf.id =
    false) : regGet (State.enterFollow s h).regs gf gi = regGet s.regs gf gi := (enterFollow_frame s h).get hl hm

theorem captureTrack_get (s : State) (h : Nat) (acc : Option Int) {gf : Field} {gi : Nat} (hl : gf.id < 20000) (hm :
    W.captureTrack.testBit gf.id = false) : regGet (State.captureTrack s h acc).regs gf gi = regGet s.regs gf gi :=
    (captureTrack_frame s h acc).get hl hm

theorem sweepStep_get (s : State) (h k : Nat) (f : Int) (n : Nat) (peaked : Bool) {gf : Field} {gi : Nat} (hl : gf.id < 20000)
    (hm : W.sweepStep.testBit gf.id = false) : regGet (State.sweepStep s h k f n peaked).regs gf gi = regGet s.regs gf gi :=
    (sweepStep_frame s h k f n peaked).get hl hm

theorem rampStep_get (s : State) (h k : Nat) (f : Int) {gf : Field} {gi : Nat} (hl : gf.id < 20000) (hm : W.rampStep.testBit
    gf.id = false) : regGet (State.rampStep s h k f).regs gf gi = regGet s.regs gf gi := (rampStep_frame s h k f).get hl hm

theorem hopStep_get (s : State) (h target : Nat) (dir : Int) (ticks phase : Nat) (peak : Int) (ok : Nat) {gf : Field} {gi :
    Nat} (hl : gf.id < 20000) (hm : W.hopStep.testBit gf.id = false) : regGet (State.hopStep s h target dir ticks phase peak
    ok).regs gf gi = regGet s.regs gf gi := (hopStep_frame s h target dir ticks phase peak ok).get hl hm

theorem seqBefore_get (s : State) (h : Nat) (dx : Int) {gf : Field} {gi : Nat} (hl : gf.id < 20000) (hm : W.seqBefore.testBit
    gf.id = false) : regGet (State.seqBefore s h dx).regs gf gi = regGet s.regs gf gi := (seqBefore_frame s h dx).get hl hm

theorem captureCheck_get (s : State) (h k t : Nat) (f : Int) {gf : Field} {gi : Nat} (hl : gf.id < 20000) (hm :
    W.captureCheck.testBit gf.id = false) : regGet (State.captureCheck s h k t f).regs gf gi = regGet s.regs gf gi :=
    (captureCheck_frame s h k t f).get hl hm

theorem settleCheck_get (s : State) (h a t r rep : Nat) {gf : Field} {gi : Nat} (hl : gf.id < 20000) (hm :
    W.settleCheck.testBit gf.id = false) : regGet (State.settleCheck s h a t r rep).regs gf gi = regGet s.regs gf gi :=
    (settleCheck_frame s h a t r rep).get hl hm

theorem sledCheck_get (s : State) (h a rep : Nat) {gf : Field} {gi : Nat} (hl : gf.id < 20000) (hm : W.sledCheck.testBit gf.id
    = false) : regGet (State.sledCheck s h a rep).regs gf gi = regGet s.regs gf gi := (sledCheck_frame s h a rep).get hl hm

theorem seqAfter_get (s : State) (h : Nat) {gf : Field} {gi : Nat} (hl : gf.id < 20000) (hm : W.seqAfter.testBit gf.id =
    false) : regGet (State.seqAfter s h).regs gf gi = regGet s.regs gf gi := (seqAfter_frame s h).get hl hm

theorem lensFilter_get (s : State) (h : Nat) {gf : Field} {gi : Nat} (hl : gf.id < 20000) (hm : W.lensFilter.testBit gf.id =
    false) : regGet (State.lensFilter s h).regs gf gi = regGet s.regs gf gi := (lensFilter_frame s h).get hl hm

theorem sledFollow_get (s : State) (h : Nat) {gf : Field} {gi : Nat} (hl : gf.id < 20000) (hm : W.sledFollow.testBit gf.id =
    false) : regGet (State.sledFollow s h).regs gf gi = regGet s.regs gf gi := (sledFollow_frame s h).get hl hm

theorem rpCount_get (s : State) (h : Nat) {gf : Field} {gi : Nat} (hl : gf.id < 20000) (hm : W.rpCount.testBit gf.id = false)
    : regGet (State.rpCount s h).regs gf gi = regGet s.regs gf gi := (rpCount_frame s h).get hl hm

theorem rpEvaluate_get (s : State) (h : Nat) {gf : Field} {gi : Nat} (hl : gf.id < 20000) (hm : W.rpEvaluate.testBit gf.id =
    false) : regGet (State.rpEvaluate s h).regs gf gi = regGet s.regs gf gi := (rpEvaluate_frame s h).get hl hm

theorem coefCopy_get (s : State) (h : Nat) {gf : Field} {gi : Nat} (hl : gf.id < 20000) (hm : W.coefCopy.testBit gf.id =
    false) : regGet (State.coefCopy s h).regs gf gi = regGet s.regs gf gi := (coefCopy_frame s h).get hl hm

theorem freezeHead_get (s : State) (h : Nat) {gf : Field} {gi : Nat} (hl : gf.id < 20000) (hm : W.freezeHead.testBit gf.id =
    false) : regGet (State.freezeHead s h).regs gf gi = regGet s.regs gf gi := (freezeHead_frame s h).get hl hm

theorem freezeMedia_get (s : State) {gf : Field} {gi : Nat} (hl : gf.id < 20000) (hm : W.freezeMedia.testBit gf.id = false) :
    regGet (State.freezeMedia s).regs gf gi = regGet s.regs gf gi := (freezeMedia_frame s).get hl hm

theorem thawMedia_get (s : State) {gf : Field} {gi : Nat} (hl : gf.id < 20000) (hm : W.thawMedia.testBit gf.id = false) :
    regGet (State.thawMedia s).regs gf gi = regGet s.regs gf gi := (thawMedia_frame s).get hl hm

theorem dropStandby_get (s : State) (new : Nat) {gf : Field} {gi : Nat} (hl : gf.id < 20000) (hm : W.dropStandby.testBit gf.id
    = false) : regGet (State.dropStandby s new).regs gf gi = regGet s.regs gf gi := (dropStandby_frame s new).get hl hm

theorem shiftStays_get (s : State) {gf : Field} {gi : Nat} (hl : gf.id < 20000) (hm : W.shiftStays.testBit gf.id = false) :
    regGet (State.shiftStays s).regs gf gi = regGet s.regs gf gi := (shiftStays_frame s).get hl hm

theorem reportInternal_get (s : State) (fn : Nat) {gf : Field} {gi : Nat} (hl : gf.id < 20000) (hm : W.reportInternal.testBit
    gf.id = false) : regGet (State.reportInternal s fn).regs gf gi = regGet s.regs gf gi := (reportInternal_frame s fn).get hl
    hm

theorem toFrozen_get (s : State) {gf : Field} {gi : Nat} (hl : gf.id < 20000) (hm : W.toFrozen.testBit gf.id = false) : regGet
    (State.toFrozen s).regs gf gi = regGet s.regs gf gi := (toFrozen_frame s).get hl hm

theorem endContain_get (s : State) {gf : Field} {gi : Nat} (hl : gf.id < 20000) (hm : W.endContain.testBit gf.id = false) :
    regGet (State.endContain s).regs gf gi = regGet s.regs gf gi := (endContain_frame s).get hl hm

theorem padWaiting_get (s : State) {gf : Field} {gi : Nat} (hl : gf.id < 20000) (hm : W.padWaiting.testBit gf.id = false) :
    regGet (State.padWaiting s).regs gf gi = regGet s.regs gf gi := (padWaiting_frame s).get hl hm

theorem dropSteps_get (s : State) {gf : Field} {gi : Nat} (hl : gf.id < 20000) (hm : W.dropSteps.testBit gf.id = false) :
    regGet (State.dropSteps s).regs gf gi = regGet s.regs gf gi := (dropSteps_frame s).get hl hm

theorem completeContained_get (s : State) {gf : Field} {gi : Nat} (hl : gf.id < 20000) (hm : W.completeContained.testBit gf.id
    = false) : regGet (State.completeContained s).regs gf gi = regGet s.regs gf gi := (completeContained_frame s).get hl hm

theorem release_get (s : State) {gf : Field} {gi : Nat} (hl : gf.id < 20000) (hm : W.release.testBit gf.id = false) : regGet
    (State.release s).regs gf gi = regGet s.regs gf gi := (release_frame s).get hl hm

theorem putBurst_get (s : State) (n : Nat) (data diff : List Nat) {gf : Field} {gi : Nat} (hl : gf.id < 20000) (hm :
    W.putBurst.testBit gf.id = false) : regGet (s.putBurst n data diff).regs gf gi = regGet s.regs gf gi := (putBurst_frame s
    n data diff).get hl hm

theorem putLine_get (s : State) (n : Nat) (data : List Nat) {gf : Field} {gi : Nat} (hl : gf.id < 20000) (hm :
    W.putLine.testBit gf.id = false) : regGet (State.putLine s n data).regs gf gi = regGet s.regs gf gi := (putLine_frame s n
    data).get hl hm

theorem putPoison_get (s : State) (n : Nat) (data : List Nat) {gf : Field} {gi : Nat} (hl : gf.id < 20000) (hm :
    W.putPoison.testBit gf.id = false) : regGet (State.putPoison s n data).regs gf gi = regGet s.regs gf gi :=
    (putPoison_frame s n data).get hl hm

theorem readLine_get (s : State) (src n : Nat) {gf : Field} {gi : Nat} (hl : gf.id < 20000) (hm : W.readLine.testBit gf.id =
    false) : regGet ((State.readLine s src n).1).regs gf gi = regGet s.regs gf gi := (readLine_frame s src n).get hl hm

theorem setPair_get (s : State) (q : Nat) (p : PairS) {gf : Field} {gi : Nat} (hl : gf.id < 20000) (hm : W.setPair.testBit
    gf.id = false) : regGet (State.setPair s q p).regs gf gi = regGet s.regs gf gi := (setPair_frame s q p).get hl hm

theorem setCmds_get (s : State) (l : List Cmd) {gf : Field} {gi : Nat} (hl : gf.id < 20000) (hm : W.setCmds.testBit gf.id =
    false) : regGet (State.setCmds s l).regs gf gi = regGet s.regs gf gi := (setCmds_frame s l).get hl hm

theorem updCmd_get (s : State) (pos : Nat) (f : Cmd → Cmd) {gf : Field} {gi : Nat} (hl : gf.id < 20000) (hm : W.updCmd.testBit
    gf.id = false) : regGet (State.updCmd s pos f).regs gf gi = regGet s.regs gf gi := (updCmd_frame s pos f).get hl hm

theorem setVol_get (s : State) (v : Nat) (x : VolS) {gf : Field} {gi : Nat} (hl : gf.id < 20000) (hm : W.setVol.testBit gf.id
    = false) : regGet (State.setVol s v x).regs gf gi = regGet s.regs gf gi := (setVol_frame s v x).get hl hm

theorem setSeam_get (s : State) (v n : Nat) (x : SeamS) {gf : Field} {gi : Nat} (hl : gf.id < 20000) (hm : W.setSeam.testBit
    gf.id = false) : regGet (State.setSeam s v n x).regs gf gi = regGet s.regs gf gi := (setSeam_frame s v n x).get hl hm

theorem ltrUpdate_get (s : State) {gf : Field} {gi : Nat} (hl : gf.id < 20000) (hm : W.ltrUpdate.testBit gf.id = false) :
    regGet (State.ltrUpdate s).regs gf gi = regGet s.regs gf gi := (ltrUpdate_frame s).get hl hm

theorem finish_get (s : State) (pos : Nat) (st : Status) (res : Nat) {gf : Field} {gi : Nat} (hl : gf.id < 20000) (hm :
    W.finish.testBit gf.id = false) : regGet (State.finish s pos st res).regs gf gi = regGet s.regs gf gi := (finish_frame s
    pos st res).get hl hm

theorem finishAll_get (s : State) (p : Cmd → Bool) (st : Status) {gf : Field} {gi : Nat} (hl : gf.id < 20000) (hm :
    W.finishAll.testBit gf.id = false) : regGet (State.finishAll s p st).regs gf gi = regGet s.regs gf gi := (finishAll_frame
    s p st).get hl hm

theorem queueErr_get (s : State) (q cause : Nat) {gf : Field} {gi : Nat} (hl : gf.id < 20000) (hm : W.queueErr.testBit gf.id =
    false) : regGet (State.queueErr s q cause).regs gf gi = regGet s.regs gf gi := (queueErr_frame s q cause).get hl hm

theorem pairQuiesce_get (s : State) (q : Nat) {gf : Field} {gi : Nat} (hl : gf.id < 20000) (hm : W.pairQuiesce.testBit gf.id =
    false) : regGet (State.pairQuiesce s q).regs gf gi = regGet s.regs gf gi := (pairQuiesce_frame s q).get hl hm

theorem pump_get (s : State) {gf : Field} {gi : Nat} (hl : gf.id < 20000) (hm : W.pump.testBit gf.id = false) : regGet
    (State.pump s).regs gf gi = regGet s.regs gf gi := (pump_frame s).get hl hm

theorem request_get (s : State) (k : ReqKind) (addr len : Nat) {gf : Field} {gi : Nat} (hl : gf.id < 20000) (hm :
    W.request.testBit gf.id = false) : regGet (State.request s k addr len).regs gf gi = regGet s.regs gf gi := (request_frame
    s k addr len).get hl hm

theorem retire_get (s : State) (tag : Nat) {gf : Field} {gi : Nat} (hl : gf.id < 20000) (hm : W.retire.testBit gf.id = false)
    : regGet (State.retire s tag).regs gf gi = regGet s.regs gf gi := (retire_frame s tag).get hl hm

theorem aer_get (s : State) (fn : Nat) (a : Aer) {gf : Field} {gi : Nat} (hl : gf.id < 20000) (hm : W.aer.testBit gf.id =
    false) : regGet (State.aer s fn a).regs gf gi = regGet s.regs gf gi := (aer_frame s fn a).get hl hm

theorem takeEntry_get (s : State) (pos q : Nat) (b : List Nat) {gf : Field} {gi : Nat} (hl : gf.id < 20000) (hm :
    W.takeEntry.testBit gf.id = false) : regGet (State.takeEntry s pos q b).regs gf gi = regGet s.regs gf gi :=
    (takeEntry_frame s pos q b).get hl hm

theorem beginPages_get (s : State) (pos : Nat) {gf : Field} {gi : Nat} (hl : gf.id < 20000) (hm : W.beginPages.testBit gf.id =
    false) : regGet (State.beginPages s pos).regs gf gi = regGet s.regs gf gi := (beginPages_frame s pos).get hl hm

theorem arbitrate_get (s : State) {gf : Field} {gi : Nat} (hl : gf.id < 20000) (hm : W.arbitrate.testBit gf.id = false) :
    regGet ((State.arbitrate s).1).regs gf gi = regGet s.regs gf gi := (arbitrate_frame s).get hl hm

theorem signalPair_get (s : State) (q : Nat) {gf : Field} {gi : Nat} (hl : gf.id < 20000) (hm : W.signalPair.testBit gf.id =
    false) : regGet (State.signalPair s q).regs gf gi = regGet s.regs gf gi := (signalPair_frame s q).get hl hm

theorem coalesce_get (s : State) (q : Nat) {gf : Field} {gi : Nat} (hl : gf.id < 20000) (hm : W.coalesce.testBit gf.id =
    false) : regGet (State.coalesce s q).regs gf gi = regGet s.regs gf gi := (coalesce_frame s q).get hl hm

theorem postEntry_get (s : State) (c : Cmd) {gf : Field} {gi : Nat} (hl : gf.id < 20000) (hm : W.postEntry.testBit gf.id =
    false) : regGet (State.postEntry s c).regs gf gi = regGet s.regs gf gi := (postEntry_frame s c).get hl hm

theorem refuseRead_get (s : State) {gf : Field} {gi : Nat} (hl : gf.id < 20000) (hm : W.refuseRead.testBit gf.id = false) :
    regGet (State.refuseRead s).regs gf gi = regGet s.regs gf gi := (refuseRead_frame s).get hl hm

theorem flushPba_get (s : State) (fn : Nat) {gf : Field} {gi : Nat} (hl : gf.id < 20000) (hm : W.flushPba.testBit gf.id =
    false) : regGet (State.flushPba s fn).regs gf gi = regGet s.regs gf gi := (flushPba_frame s fn).get hl hm

theorem withdrawBand_get (s : State) (h b : Nat) {gf : Field} {gi : Nat} (hl : gf.id < 20000) (hm : W.withdrawBand.testBit
    gf.id = false) : regGet (State.withdrawBand s h b).regs gf gi = regGet s.regs gf gi := (withdrawBand_frame s h b).get hl
    hm

theorem homeParks_get (s : State) (h : Nat) {gf : Field} {gi : Nat} (hl : gf.id < 20000) (hm : W.homeParks.testBit gf.id =
    false) : regGet (State.homeParks s h).regs gf gi = regGet s.regs gf gi := (homeParks_frame s h).get hl hm

theorem requestTakeover_get (s : State) (h : Nat) {gf : Field} {gi : Nat} (hl : gf.id < 20000) (hm : W.requestTakeover.testBit
    gf.id = false) : regGet (State.requestTakeover s h).regs gf gi = regGet s.regs gf gi := (requestTakeover_frame s h).get hl
    hm

theorem requestHandback_get (s : State) (h : Nat) {gf : Field} {gi : Nat} (hl : gf.id < 20000) (hm : W.requestHandback.testBit
    gf.id = false) : regGet (State.requestHandback s h).regs gf gi = regGet s.regs gf gi := (requestHandback_frame s h).get hl
    hm

theorem takeoverSeek_get (s : State) (h : Nat) {gf : Field} {gi : Nat} (hl : gf.id < 20000) (hm : W.takeoverSeek.testBit gf.id
    = false) : regGet (State.takeoverSeek s h).regs gf gi = regGet s.regs gf gi := (takeoverSeek_frame s h).get hl hm

theorem seededSeek_get (s : State) (h : Nat) {gf : Field} {gi : Nat} (hl : gf.id < 20000) (hm : W.seededSeek.testBit gf.id =
    false) : regGet (State.seededSeek s h).regs gf gi = regGet s.regs gf gi := (seededSeek_frame s h).get hl hm

theorem updClr_get (s : State) (h : Nat) (f : ClrS → ClrS) {gf : Field} {gi : Nat} (hl : gf.id < 20000) (hm : W.updClr.testBit
    gf.id = false) : regGet (State.updClr s h f).regs gf gi = regGet s.regs gf gi := (updClr_frame s h f).get hl hm

theorem updLoop_get (s : State) (h i : Nat) (f : LoopS → LoopS) {gf : Field} {gi : Nat} (hl : gf.id < 20000) (hm :
    W.updLoop.testBit gf.id = false) : regGet (State.updLoop s h i f).regs gf gi = regGet s.regs gf gi := (updLoop_frame s h i
    f).get hl hm

theorem closeLoop_get (s : State) (h i : Nat) (acc : Option Int) (fresh : Bool) {gf : Field} {gi : Nat} (hl : gf.id < 20000)
    (hm : W.closeLoop.testBit gf.id = false) : regGet (State.closeLoop s h i acc fresh).regs gf gi = regGet s.regs gf gi :=
    (closeLoop_frame s h i acc fresh).get hl hm

theorem openLoop_get (s : State) (h i : Nat) {gf : Field} {gi : Nat} (hl : gf.id < 20000) (hm : W.openLoop.testBit gf.id =
    false) : regGet (State.openLoop s h i).regs gf gi = regGet s.regs gf gi := (openLoop_frame s h i).get hl hm

theorem driveLoop_get (s : State) (h i : Nat) (u : Int) {gf : Field} {gi : Nat} (hl : gf.id < 20000) (hm : W.driveLoop.testBit
    gf.id = false) : regGet (State.driveLoop s h i u).regs gf gi = regGet s.regs gf gi := (driveLoop_frame s h i u).get hl hm

theorem openAll_get (s : State) (h : Nat) {gf : Field} {gi : Nat} (hl : gf.id < 20000) (hm : W.openAll.testBit gf.id = false)
    : regGet (State.openAll s h).regs gf gi = regGet s.regs gf gi := (openAll_frame s h).get hl hm

theorem setSeq_get (s : State) (h : Nat) (q : Option SeqStep) {gf : Field} {gi : Nat} (hl : gf.id < 20000) (hm :
    W.setSeq.testBit gf.id = false) : regGet (State.setSeq s h q).regs gf gi = regGet s.regs gf gi := (setSeq_frame s h q).get
    hl hm

theorem loseTrack_get (s : State) (h : Nat) {gf : Field} {gi : Nat} (hl : gf.id < 20000) (hm : W.loseTrack.testBit gf.id =
    false) : regGet (State.loseTrack s h).regs gf gi = regGet s.regs gf gi := (loseTrack_frame s h).get hl hm

theorem clearLo_get (s : State) (h : Nat) {gf : Field} {gi : Nat} (hl : gf.id < 20000) (hm : W.clearLo.testBit gf.id = false)
    : regGet (State.clearLo s h).regs gf gi = regGet s.regs gf gi := (clearLo_frame s h).get hl hm

theorem startPower_get (s : State) (h : Nat) {gf : Field} {gi : Nat} (hl : gf.id < 20000) (hm : W.startPower.testBit gf.id =
    false) : regGet (State.startPower s h).regs gf gi = regGet s.regs gf gi := (startPower_frame s h).get hl hm

theorem retract_get (s : State) (h : Nat) {gf : Field} {gi : Nat} (hl : gf.id < 20000) (hm : W.retract.testBit gf.id = false)
    : regGet (State.retract s h).regs gf gi = regGet s.regs gf gi := (retract_frame s h).get hl hm

theorem setClr_get (s : State) (h new : Nat) {gf : Field} {gi : Nat} (hl : gf.id < 20000) (hm : W.setClr.testBit gf.id =
    false) : regGet (State.setClr s h new).regs gf gi = regGet s.regs gf gi := (setClr_frame s h new).get hl hm

theorem beginAcquire_get (s : State) (h layer : Nat) {gf : Field} {gi : Nat} (hl : gf.id < 20000) (hm : W.beginAcquire.testBit
    gf.id = false) : regGet (State.beginAcquire s h layer).regs gf gi = regGet s.regs gf gi := (beginAcquire_frame s h
    layer).get hl hm

theorem testAcqFailed_get (s : State) (h : Nat) {gf : Field} {gi : Nat} (hl : gf.id < 20000) (hm : W.testAcqFailed.testBit
    gf.id = false) : regGet (State.testAcqFailed s h).regs gf gi = regGet s.regs gf gi := (testAcqFailed_frame s h).get hl hm

theorem interruptOp_get (s : State) (h : Nat) (stays : Bool) {gf : Field} {gi : Nat} (hl : gf.id < 20000) (hm :
    W.interruptOp.testBit gf.id = false) : regGet (State.interruptOp s h stays).regs gf gi = regGet s.regs gf gi :=
    (interruptOp_frame s h stays).get hl hm

theorem enterHold_get (s : State) (h : Nat) (overrun : Bool) {gf : Field} {gi : Nat} (hl : gf.id < 20000) (hm :
    W.enterHold.testBit gf.id = false) : regGet (State.enterHold s h overrun).regs gf gi = regGet s.regs gf gi :=
    (enterHold_frame s h overrun).get hl hm

theorem updBand_get (s : State) (h : Nat) (f : BandS → BandS) {gf : Field} {gi : Nat} (hl : gf.id < 20000) (hm :
    W.updBand.testBit gf.id = false) : regGet (State.updBand s h f).regs gf gi = regGet s.regs gf gi := (updBand_frame s h
    f).get hl hm

theorem setTaken_get (s : State) (h : Nat) (b : Bool) {gf : Field} {gi : Nat} (hl : gf.id < 20000) (hm : W.setTaken.testBit
    gf.id = false) : regGet (State.setTaken s h b).regs gf gi = regGet s.regs gf gi := (setTaken_frame s h b).get hl hm

theorem leaveUnserved_get (s : State) (h : Nat) {gf : Field} {gi : Nat} (hl : gf.id < 20000) (hm : W.leaveUnserved.testBit
    gf.id = false) : regGet (State.leaveUnserved s h).regs gf gi = regGet s.regs gf gi := (leaveUnserved_frame s h).get hl hm

theorem sideLost_get (s : State) (h : Nat) {gf : Field} {gi : Nat} (hl : gf.id < 20000) (hm : W.sideLost.testBit gf.id =
    false) : regGet (State.sideLost s h).regs gf gi = regGet s.regs gf gi := (sideLost_frame s h).get hl hm

theorem refuse_get (s : State) {gf : Field} {gi : Nat} (hl : gf.id < 20000) (hm : W.refuse.testBit gf.id = false) : regGet
    (State.refuse s).regs gf gi = regGet s.regs gf gi := (refuse_frame s).get hl hm

theorem startTakeover_get (s : State) (h : Nat) (requested : Bool) {gf : Field} {gi : Nat} (hl : gf.id < 20000) (hm :
    W.startTakeover.testBit gf.id = false) : regGet (State.startTakeover s h requested).regs gf gi = regGet s.regs gf gi :=
    (startTakeover_frame s h requested).get hl hm

theorem takeoverFails_get (s : State) (h : Nat) {gf : Field} {gi : Nat} (hl : gf.id < 20000) (hm : W.takeoverFails.testBit
    gf.id = false) : regGet (State.takeoverFails s h).regs gf gi = regGet s.regs gf gi := (takeoverFails_frame s h).get hl hm

theorem handbackDone_get (s : State) (h : Nat) {gf : Field} {gi : Nat} (hl : gf.id < 20000) (hm : W.handbackDone.testBit gf.id
    = false) : regGet (State.handbackDone s h).regs gf gi = regGet s.regs gf gi := (handbackDone_frame s h).get hl hm

theorem autoTakeover_get (s : State) (h : Nat) {gf : Field} {gi : Nat} (hl : gf.id < 20000) (hm : W.autoTakeover.testBit gf.id
    = false) : regGet (State.autoTakeover s h).regs gf gi = regGet s.regs gf gi := (autoTakeover_frame s h).get hl hm

theorem loseSide_get (s : State) (h : Nat) {gf : Field} {gi : Nat} (hl : gf.id < 20000) (hm : W.loseSide.testBit gf.id =
    false) : regGet (State.loseSide s h).regs gf gi = regGet s.regs gf gi := (loseSide_frame s h).get hl hm

theorem giveUpRequested_get (s : State) (p : Nat) {gf : Field} {gi : Nat} (hl : gf.id < 20000) (hm : W.giveUpRequested.testBit
    gf.id = false) : regGet (State.giveUpRequested s p).regs gf gi = regGet s.regs gf gi := (giveUpRequested_frame s p).get hl
    hm

theorem routeFailure_get (s : State) (h : Nat) {gf : Field} {gi : Nat} (hl : gf.id < 20000) (hm : W.routeFailure.testBit gf.id
    = false) : regGet (State.routeFailure s h).regs gf gi = regGet s.regs gf gi := (routeFailure_frame s h).get hl hm

theorem toSafe_get (s : State) (h : Nat) {gf : Field} {gi : Nat} (hl : gf.id < 20000) (hm : W.toSafe.testBit gf.id = false) :
    regGet (State.toSafe s h).regs gf gi = regGet s.regs gf gi := (toSafe_frame s h).get hl hm

theorem headFatal_get (s : State) (h : Nat) {gf : Field} {gi : Nat} (hl : gf.id < 20000) (hm : W.headFatal.testBit gf.id =
    false) : regGet (State.headFatal s h).regs gf gi = regGet s.regs gf gi := (headFatal_frame s h).get hl hm

theorem dropVolume_get (s : State) (v : Nat) {gf : Field} {gi : Nat} (hl : gf.id < 20000) (hm : W.dropVolume.testBit gf.id =
    false) : regGet (State.dropVolume s v).regs gf gi = regGet s.regs gf gi := (dropVolume_frame s v).get hl hm

theorem volumeGone_get (s : State) (d : Nat) (st : Status) {gf : Field} {gi : Nat} (hl : gf.id < 20000) (hm :
    W.volumeGone.testBit gf.id = false) : regGet (State.volumeGone s d st).regs gf gi = regGet s.regs gf gi :=
    (volumeGone_frame s d st).get hl hm

theorem volumeLost_get (s : State) (d : Nat) {gf : Field} {gi : Nat} (hl : gf.id < 20000) (hm : W.volumeLost.testBit gf.id =
    false) : regGet (State.volumeLost s d).regs gf gi = regGet s.regs gf gi := (volumeLost_frame s d).get hl hm

theorem deckHeadsFatal_get (s : State) (d : Nat) {gf : Field} {gi : Nat} (hl : gf.id < 20000) (hm : W.deckHeadsFatal.testBit
    gf.id = false) : regGet (State.deckHeadsFatal s d).regs gf gi = regGet s.regs gf gi := (deckHeadsFatal_frame s d).get hl
    hm

theorem resumeFn_get (s : State) (fn : Nat) {gf : Field} {gi : Nat} (hl : gf.id < 20000) (hm : W.resumeFn.testBit gf.id =
    false) : regGet (State.resumeFn s fn).regs gf gi = regGet s.regs gf gi := (resumeFn_frame s fn).get hl hm

theorem setPower_get (s : State) (fn : Nat) (d3 : Bool) {gf : Field} {gi : Nat} (hl : gf.id < 20000) (hm : W.setPower.testBit
    gf.id = false) : regGet (State.setPower s fn d3).regs gf gi = regGet s.regs gf gi := (setPower_frame s fn d3).get hl hm

theorem configRequest_get (s : State) (fn : Nat) (r : CfgReq) {gf : Field} {gi : Nat} (hl : gf.id < 20000) (hm :
    W.configRequest.testBit gf.id = false) : regGet (State.configRequest s fn r).regs gf gi = regGet s.regs gf gi :=
    (configRequest_frame s fn r).get hl hm

theorem pcieUp_get (s : State) (speed width : Nat) {gf : Field} {gi : Nat} (hl : gf.id < 20000) (hm : W.pcieUp.testBit gf.id =
    false) : regGet (State.pcieUp s speed width).regs gf gi = regGet s.regs gf gi := (pcieUp_frame s speed width).get hl hm

theorem linkFields_get (s : State) {gf : Field} {gi : Nat} (hl : gf.id < 20000) (hm : W.linkFields.testBit gf.id = false) :
    regGet (State.linkFields s).regs gf gi = regGet s.regs gf gi := (linkFields_frame s).get hl hm

theorem pcieDown_get (s : State) {gf : Field} {gi : Nat} (hl : gf.id < 20000) (hm : W.pcieDown.testBit gf.id = false) : regGet
    (State.pcieDown s).regs gf gi = regGet s.regs gf gi := (pcieDown_frame s).get hl hm

theorem dropReqs_get (s : State) (pos : Nat) {gf : Field} {gi : Nat} (hl : gf.id < 20000) (hm : W.dropReqs.testBit gf.id =
    false) : regGet (State.dropReqs s pos).regs gf gi = regGet s.regs gf gi := (dropReqs_frame s pos).get hl hm

theorem failTransfer_get (s : State) (pos : Nat) (st : Status) {gf : Field} {gi : Nat} (hl : gf.id < 20000) (hm :
    W.failTransfer.testBit gf.id = false) : regGet (State.failTransfer s pos st).regs gf gi = regGet s.regs gf gi :=
    (failTransfer_frame s pos st).get hl hm

theorem listArrives_get (s : State) (c : Cmd) (bs : List Nat) {gf : Field} {gi : Nat} (hl : gf.id < 20000) (hm :
    W.listArrives.testBit gf.id = false) : regGet (State.listArrives s c bs).regs gf gi = regGet s.regs gf gi :=
    (listArrives_frame s c bs).get hl hm

theorem dataArrives_get (s : State) (c : Cmd) (page : Nat) (bs : List Nat) {gf : Field} {gi : Nat} (hl : gf.id < 20000) (hm :
    W.dataArrives.testBit gf.id = false) : regGet (State.dataArrives s c page bs).regs gf gi = regGet s.regs gf gi :=
    (dataArrives_frame s c page bs).get hl hm

theorem delivered_get (s : State) (r : OutReq) (bs : List Nat) {gf : Field} {gi : Nat} (hl : gf.id < 20000) (hm :
    W.delivered.testBit gf.id = false) : regGet (State.delivered s r bs).regs gf gi = regGet s.regs gf gi := (delivered_frame
    s r bs).get hl hm

theorem failReq_get (s : State) (r : OutReq) (cause : Nat) {gf : Field} {gi : Nat} (hl : gf.id < 20000) (hm :
    W.failReq.testBit gf.id = false) : regGet (State.failReq s r cause).regs gf gi = regGet s.regs gf gi := (failReq_frame s r
    cause).get hl hm

theorem unexpected_get (s : State) {gf : Field} {gi : Nat} (hl : gf.id < 20000) (hm : W.unexpected.testBit gf.id = false) :
    regGet (State.unexpected s).regs gf gi = regGet s.regs gf gi := (unexpected_frame s).get hl hm

theorem badCompletion_get (s : State) (a : Aer) {gf : Field} {gi : Nat} (hl : gf.id < 20000) (hm : W.badCompletion.testBit
    gf.id = false) : regGet (State.badCompletion s a).regs gf gi = regGet s.regs gf gi := (badCompletion_frame s a).get hl hm

theorem completion_get (s : State) (tag : Nat) (bytes : List Nat) (st : CplStatus) {gf : Field} {gi : Nat} (hl : gf.id <
    20000) (hm : W.completion.testBit gf.id = false) : regGet (State.completion s tag bytes st).regs gf gi = regGet s.regs gf
    gi := (completion_frame s tag bytes st).get hl hm

theorem cplTimeout_get (s : State) (tag : Nat) {gf : Field} {gi : Nat} (hl : gf.id < 20000) (hm : W.cplTimeout.testBit gf.id =
    false) : regGet (State.cplTimeout s tag).regs gf gi = regGet s.regs gf gi := (cplTimeout_frame s tag).get hl hm

theorem peerReject_get (s : State) {gf : Field} {gi : Nat} (hl : gf.id < 20000) (hm : W.peerReject.testBit gf.id = false) :
    regGet (State.peerReject s).regs gf gi = regGet s.regs gf gi := (peerReject_frame s).get hl hm

theorem peerRead1_get (s : State) (x : CacheErr) (n : Nat) {gf : Field} {gi : Nat} (hl : gf.id < 20000) (hm :
    W.peerRead1.testBit gf.id = false) : regGet ((State.peerRead1 s x n).1).regs gf gi = regGet s.regs gf gi :=
    (peerRead1_frame s x n).get hl hm

theorem peerLines_get (s : State) (x : CacheErr) (ls : List Nat) {gf : Field} {gi : Nat} (hl : gf.id < 20000) (hm :
    W.peerLines.testBit gf.id = false) : regGet ((State.peerLines s x ls).1).regs gf gi = regGet s.regs gf gi :=
    (peerLines_frame s x ls).get hl hm

theorem peerRead_get (s : State) (off len : Nat) (x : CacheErr) {gf : Field} {gi : Nat} (hl : gf.id < 20000) (hm :
    W.peerRead.testBit gf.id = false) : regGet (State.peerRead s off len x).regs gf gi = regGet s.regs gf gi :=
    (peerRead_frame s off len x).get hl hm

theorem peerPuts_get (s : State) (n : Nat) (bytes : List Nat) (k : Nat) {gf : Field} {gi : Nat} (hl : gf.id < 20000) (hm :
    W.peerPuts.testBit gf.id = false) : regGet (s.peerPuts n bytes k).regs gf gi = regGet s.regs gf gi := (peerPuts_frame s n
    bytes k).get hl hm

theorem peerWrite_get (s : State) (off : Nat) (bytes : List Nat) (x : CacheErr) {gf : Field} {gi : Nat} (hl : gf.id < 20000)
    (hm : W.peerWrite.testBit gf.id = false) : regGet (State.peerWrite s off bytes x).regs gf gi = regGet s.regs gf gi :=
    (peerWrite_frame s off bytes x).get hl hm

theorem windowCommit_get (s : State) (mask : Nat) {gf : Field} {gi : Nat} (hl : gf.id < 20000) (hm : W.windowCommit.testBit
    gf.id = false) : regGet (State.windowCommit s mask).regs gf gi = regGet s.regs gf gi := (windowCommit_frame s mask).get hl
    hm

theorem goLive_get (s : State) (w : Nat) {gf : Field} {gi : Nat} (hl : gf.id < 20000) (hm : W.goLive.testBit gf.id = false) :
    regGet (s.goLive w).regs gf gi = regGet s.regs gf gi := (goLive_frame s w).get hl hm

theorem boundary_get (s : State) {gf : Field} {gi : Nat} (hl : gf.id < 20000) (hm : W.boundary.testBit gf.id = false) : regGet
    (State.boundary s).regs gf gi = regGet s.regs gf gi := (boundary_frame s).get hl hm

theorem setMsix_get (s : State) (fn v : Nat) (x : Msix) {gf : Field} {gi : Nat} (hl : gf.id < 20000) (hm : W.setMsix.testBit
    gf.id = false) : regGet (State.setMsix s fn v x).regs gf gi = regGet s.regs gf gi := (setMsix_frame s fn v x).get hl hm

theorem rejectHqi_get (s : State) {gf : Field} {gi : Nat} (hl : gf.id < 20000) (hm : W.rejectHqi.testBit gf.id = false) :
    regGet (State.rejectHqi s).regs gf gi = regGet s.regs gf gi := (rejectHqi_frame s).get hl hm

theorem freshPair_get (s : State) (q : Nat) {gf : Field} {gi : Nat} (hl : gf.id < 20000) (hm : W.freshPair.testBit gf.id =
    false) : regGet (State.freshPair s q).regs gf gi = regGet s.regs gf gi := (freshPair_frame s q).get hl hm

theorem controllerReady_get (s : State) {gf : Field} {gi : Nat} (hl : gf.id < 20000) (hm : W.controllerReady.testBit gf.id =
    false) : regGet (State.controllerReady s).regs gf gi = regGet s.regs gf gi := (controllerReady_frame s).get hl hm

theorem enableController_get (s : State) {gf : Field} {gi : Nat} (hl : gf.id < 20000) (hm : W.enableController.testBit gf.id =
    false) : regGet (State.enableController s).regs gf gi = regGet s.regs gf gi := (enableController_frame s).get hl hm

theorem postAll_get (s : State) {gf : Field} {gi : Nat} (hl : gf.id < 20000) (hm : W.postAll.testBit gf.id = false) : regGet
    (State.postAll s).regs gf gi = regGet s.regs gf gi := (postAll_frame s).get hl hm

theorem resetController_get (s : State) {gf : Field} {gi : Nat} (hl : gf.id < 20000) (hm : W.resetController.testBit gf.id =
    false) : regGet (State.resetController s).regs gf gi = regGet s.regs gf gi := (resetController_frame s).get hl hm

theorem enablePair_get (s : State) (q : Nat) {gf : Field} {gi : Nat} (hl : gf.id < 20000) (hm : W.enablePair.testBit gf.id =
    false) : regGet (State.enablePair s q).regs gf gi = regGet s.regs gf gi := (enablePair_frame s q).get hl hm

theorem disablePair_get (s : State) (q : Nat) {gf : Field} {gi : Nat} (hl : gf.id < 20000) (hm : W.disablePair.testBit gf.id =
    false) : regGet (State.disablePair s q).regs gf gi = regGet s.regs gf gi := (disablePair_frame s q).get hl hm

theorem sqDoorbell_get (s : State) (q v : Nat) {gf : Field} {gi : Nat} (hl : gf.id < 20000) (hm : W.sqDoorbell.testBit gf.id =
    false) : regGet (State.sqDoorbell s q v).regs gf gi = regGet s.regs gf gi := (sqDoorbell_frame s q v).get hl hm

theorem cqDoorbell_get (s : State) (q v : Nat) {gf : Field} {gi : Nat} (hl : gf.id < 20000) (hm : W.cqDoorbell.testBit gf.id =
    false) : regGet (State.cqDoorbell s q v).regs gf gi = regGet s.regs gf gi := (cqDoorbell_frame s q v).get hl hm

theorem seamCmd_get (s : State) (c : Cmd) (lbaOk : Bool) {gf : Field} {gi : Nat} (hl : gf.id < 20000) (hm : W.seamCmd.testBit
    gf.id = false) : regGet (State.seamCmd s c lbaOk).regs gf gi = regGet s.regs gf gi := (seamCmd_frame s c lbaOk).get hl hm

theorem sendPages_get (s : State) (c : Cmd) (bs : List Nat) (first : Nat) {gf : Field} {gi : Nat} (hl : gf.id < 20000) (hm :
    W.sendPages.testBit gf.id = false) : regGet (State.sendPages s c bs first).regs gf gi = regGet s.regs gf gi :=
    (sendPages_frame s c bs first).get hl hm

theorem sendLog_get (s : State) (c : Cmd) {gf : Field} {gi : Nat} (hl : gf.id < 20000) (hm : W.sendLog.testBit gf.id = false)
    : regGet (State.sendLog s c).regs gf gi = regGet s.regs gf gi := (sendLog_frame s c).get hl hm

theorem putFeature_get (s : State) (fid v val : Nat) {gf : Field} {gi : Nat} (hl : gf.id < 20000) (hm : W.putFeature.testBit
    gf.id = false) : regGet (State.putFeature s fid v val).regs gf gi = regGet s.regs gf gi := (putFeature_frame s fid v
    val).get hl hm

theorem abortReads_get (s : State) (c : Cmd) {gf : Field} {gi : Nat} (hl : gf.id < 20000) (hm : W.abortReads.testBit gf.id =
    false) : regGet (State.abortReads s c).regs gf gi = regGet s.regs gf gi := (abortReads_frame s c).get hl hm

theorem abortCmd_get (s : State) (c : Cmd) {gf : Field} {gi : Nat} (hl : gf.id < 20000) (hm : W.abortCmd.testBit gf.id =
    false) : regGet ((State.abortCmd s c).1).regs gf gi = regGet s.regs gf gi := (abortCmd_frame s c).get hl hm

theorem startTest_get (s : State) (c : Cmd) (steps : List TestStep) {gf : Field} {gi : Nat} (hl : gf.id < 20000) (hm :
    W.startTest.testBit gf.id = false) : regGet (State.startTest s c steps).regs gf gi = regGet s.regs gf gi :=
    (startTest_frame s c steps).get hl hm

theorem mountStep_get (s : State) (v : Nat) (m : MountS) {gf : Field} {gi : Nat} (hl : gf.id < 20000) (hm :
    W.mountStep.testBit gf.id = false) : regGet (State.mountStep s v m).regs gf gi = regGet s.regs gf gi := (mountStep_frame s
    v m).get hl hm

theorem requestPages_get (s : State) (pos k0 : Nat) {gf : Field} {gi : Nat} (hl : gf.id < 20000) (hm : W.requestPages.testBit
    gf.id = false) : regGet (State.requestPages s pos k0).regs gf gi = regGet s.regs gf gi := (requestPages_frame s pos
    k0).get hl hm

theorem padWrite_get (s : State) (pos : Nat) {gf : Field} {gi : Nat} (hl : gf.id < 20000) (hm : W.padWrite.testBit gf.id =
    false) : regGet (State.padWrite s pos).regs gf gi = regGet s.regs gf gi := (padWrite_frame s pos).get hl hm

theorem assignWrite_get (s : State) (c : Cmd) (v n : Nat) {gf : Field} {gi : Nat} (hl : gf.id < 20000) (hm :
    W.assignWrite.testBit gf.id = false) : regGet (State.assignWrite s c v n).regs gf gi = regGet s.regs gf gi :=
    (assignWrite_frame s c v n).get hl hm

theorem advWrite_get (s : State) (c : Cmd) (v n : Nat) {gf : Field} {gi : Nat} (hl : gf.id < 20000) (hm : W.advWrite.testBit
    gf.id = false) : regGet (State.advWrite s c v n).regs gf gi = regGet s.regs gf gi := (advWrite_frame s c v n).get hl hm

theorem advSeal_get (s : State) (c : Cmd) (v n : Nat) {gf : Field} {gi : Nat} (hl : gf.id < 20000) (hm : W.advSeal.testBit
    gf.id = false) : regGet (State.advSeal s c v n).regs gf gi = regGet s.regs gf gi := (advSeal_frame s c v n).get hl hm

theorem advRead_get (s : State) (c : Cmd) (v n : Nat) {gf : Field} {gi : Nat} (hl : gf.id < 20000) (hm : W.advRead.testBit
    gf.id = false) : regGet (State.advRead s c v n).regs gf gi = regGet s.regs gf gi := (advRead_frame s c v n).get hl hm

theorem advFlush_get (s : State) (c : Cmd) {gf : Field} {gi : Nat} (hl : gf.id < 20000) (hm : W.advFlush.testBit gf.id =
    false) : regGet (State.advFlush s c).regs gf gi = regGet s.regs gf gi := (advFlush_frame s c).get hl hm

theorem parkHeads_get (s : State) (v pos : Nat) {gf : Field} {gi : Nat} (hl : gf.id < 20000) (hm : W.parkHeads.testBit gf.id =
    false) : regGet (State.parkHeads s v pos).regs gf gi = regGet s.regs gf gi := (parkHeads_frame s v pos).get hl hm

theorem advRelease_get (s : State) (c : Cmd) {gf : Field} {gi : Nat} (hl : gf.id < 20000) (hm : W.advRelease.testBit gf.id =
    false) : regGet (State.advRelease s c).regs gf gi = regGet s.regs gf gi := (advRelease_frame s c).get hl hm

theorem startStep_get (s : State) (v pos : Nat) (t : SelfTest) (p : TestStep) (rest : List TestStep) {gf : Field} {gi : Nat}
    (hl : gf.id < 20000) (hm : W.startStep.testBit gf.id = false) : regGet (State.startStep s v pos t p rest).regs gf gi =
    regGet s.regs gf gi := (startStep_frame s v pos t p rest).get hl hm

theorem advTest_get (s : State) (v : Nat) {gf : Field} {gi : Nat} (hl : gf.id < 20000) (hm : W.advTest.testBit gf.id = false)
    : regGet (State.advTest s v).regs gf gi = regGet s.regs gf gi := (advTest_frame s v).get hl hm

theorem advCmd_get (s : State) (c : Cmd) {gf : Field} {gi : Nat} (hl : gf.id < 20000) (hm : W.advCmd.testBit gf.id = false) :
    regGet (State.advCmd s c).regs gf gi = regGet s.regs gf gi := (advCmd_frame s c).get hl hm

theorem advMount_get (s : State) (v : Nat) {gf : Field} {gi : Nat} (hl : gf.id < 20000) (hm : W.advMount.testBit gf.id =
    false) : regGet (State.advMount s v).regs gf gi = regGet s.regs gf gi := (advMount_frame s v).get hl hm

theorem advance_get (s : State) {gf : Field} {gi : Nat} (hl : gf.id < 20000) (hm : W.advance.testBit gf.id = false) : regGet
    (State.advance s).regs gf gi = regGet s.regs gf gi := (advance_frame s).get hl hm

theorem dropLodes_get (s : State) (v n : Nat) (after : SeamS) {gf : Field} {gi : Nat} (hl : gf.id < 20000) (hm :
    W.dropLodes.testBit gf.id = false) : regGet (State.dropLodes s v n after).regs gf gi = regGet s.regs gf gi :=
    (dropLodes_frame s v n after).get hl hm

theorem abortSeam_get (s : State) (v n : Nat) {gf : Field} {gi : Nat} (hl : gf.id < 20000) (hm : W.abortSeam.testBit gf.id =
    false) : regGet (State.abortSeam s v n).regs gf gi = regGet s.regs gf gi := (abortSeam_frame s v n).get hl hm

theorem abortSeams_get (s : State) {gf : Field} {gi : Nat} (hl : gf.id < 20000) (hm : W.abortSeams.testBit gf.id = false) :
    regGet (State.abortSeams s).regs gf gi = regGet s.regs gf gi := (abortSeams_frame s).get hl hm

theorem resetAbort_get (s : State) (counted : Cmd → Bool) {gf : Field} {gi : Nat} (hl : gf.id < 20000) (hm :
    W.resetAbort.testBit gf.id = false) : regGet (State.resetAbort s counted).regs gf gi = regGet s.regs gf gi :=
    (resetAbort_frame s counted).get hl hm

theorem repairRow_get (s : State) (m r : Nat) {gf : Field} {gi : Nat} (hl : gf.id < 20000) (hm : W.repairRow.testBit gf.id =
    false) : regGet ((State.repairRow s m r).1).regs gf gi = regGet s.regs gf gi := (repairRow_frame s m r).get hl hm

theorem placeItem_get {s : State} {k : Nat} {i : Nat} {id : Nat} {v : Nat} {u : State} (e : State.placeItem s k i id v = some
    u) {gf : Field} {gi : Nat} (hl : gf.id < 20000) (hm : W.placeItem.testBit gf.id = false) : regGet (u).regs gf gi = regGet
    s.regs gf gi := (placeItem_frame e).get hl hm

theorem wireItem_get {s : State} {k : Nat} {i : Nat} {id : Nat} {v : Nat} {u : State} (e : State.wireItem s k i id v = some u)
    {gf : Field} {gi : Nat} (hl : gf.id < 20000) (hm : W.wireItem.testBit gf.id = false) : regGet (u).regs gf gi = regGet
    s.regs gf gi := (wireItem_frame e).get hl hm

theorem memParam_get {s : State} {id : Nat} {v : Nat} {u : State} (e : State.memParam s id v = some u) {gf : Field} {gi : Nat}
    (hl : gf.id < 20000) (hm : W.memParam.testBit gf.id = false) : regGet (u).regs gf gi = regGet s.regs gf gi :=
    (memParam_frame e).get hl hm

theorem setItem_get {s : State} {k i : Nat} {any check : Bool} {id v : Nat} {u : State} (e : s.setItem k i any check id v =
    some u) {gf : Field} {gi : Nat} (hl : gf.id < 20000) (hm : W.setItem.testBit gf.id = false) : regGet (u).regs gf gi =
    regGet s.regs gf gi := (setItem_frame e).get hl hm

theorem loadEntries_get {k i : Nat} {any : Bool} {r0 : RegDef} {t0 : Nat} {l : List Nat} {s : State} {a : Nat} {u : State} (e
    : s.loadEntries k i any r0 t0 a l = some u) {gf : Field} {gi : Nat} (hl : gf.id < 20000) (hm : W.loadEntries.testBit gf.id
    = false) : regGet (u).regs gf gi = regGet s.regs gf gi := (loadEntries_frame e).get hl hm

theorem loadFor_get {s : State} {k i offset : Nat} {any : Bool} {entries : List Nat} {u : State} (e : s.loadFor k i offset any
    entries = some u) {gf : Field} {gi : Nat} (hl : gf.id < 20000) (hm : W.loadFor.testBit gf.id = false) : regGet (u).regs gf
    gi = regGet s.regs gf gi := (loadFor_frame e).get hl hm

theorem applySentence_get {s t : State} {im : Image} (e : s.applySentence im = .placed t) {gf : Field} {gi : Nat} (hl : gf.id
    < 20000) (hm : W.clause.testBit gf.id = false) : regGet (t).regs gf gi = regGet s.regs gf gi := (applySentence_frame
    e).get hl hm

theorem lcaReject_get (s : State) {gf : Field} {gi : Nat} (hl : gf.id < 20000) (hm : W.lcaReject.testBit gf.id = false) :
    regGet (State.lcaReject s).regs gf gi = regGet s.regs gf gi := (lcaReject_frame s).get hl hm

theorem emptyWay_get (s : State) (w : Nat) (x : CacheErr) {gf : Field} {gi : Nat} (hl : gf.id < 20000) (hm :
    W.emptyWay.testBit gf.id = false) : regGet (State.emptyWay s w x).regs gf gi = regGet s.regs gf gi := (emptyWay_frame s w
    x).get hl hm

theorem wayDown_get (s : State) (w : Nat) (x : CacheErr) {gf : Field} {gi : Nat} (hl : gf.id < 20000) (hm : W.wayDown.testBit
    gf.id = false) : regGet (State.wayDown s w x).regs gf gi = regGet s.regs gf gi := (wayDown_frame s w x).get hl hm

theorem wayUp_get (s : State) (w : Nat) {gf : Field} {gi : Nat} (hl : gf.id < 20000) (hm : W.wayUp.testBit gf.id = false) :
    regGet (State.wayUp s w).regs gf gi = regGet s.regs gf gi := (wayUp_frame s w).get hl hm

theorem wayOffDone_get (s : State) (w : Nat) (x : CacheErr) {gf : Field} {gi : Nat} (hl : gf.id < 20000) (hm :
    W.wayOffDone.testBit gf.id = false) : regGet (State.wayOffDone s w x).regs gf gi = regGet s.regs gf gi :=
    (wayOffDone_frame s w x).get hl hm

theorem wayOnDone_get (s : State) (w : Nat) {gf : Field} {gi : Nat} (hl : gf.id < 20000) (hm : W.wayOnDone.testBit gf.id =
    false) : regGet (State.wayOnDone s w).regs gf gi = regGet s.regs gf gi := (wayOnDone_frame s w).get hl hm

theorem peerLine_get (s : State) (n : Nat) {gf : Field} {gi : Nat} (hl : gf.id < 20000) (hm : W.peerLine.testBit gf.id =
    false) : regGet ((State.peerLine s n).1).regs gf gi = regGet s.regs gf gi := (peerLine_frame s n).get hl hm

theorem peerPut_get (s : State) (n : Nat) (data : List Nat) {gf : Field} {gi : Nat} (hl : gf.id < 20000) (hm :
    W.peerPut.testBit gf.id = false) : regGet (State.peerPut s n data).regs gf gi = regGet s.regs gf gi := (peerPut_frame s n
    data).get hl hm

theorem lcaCount_get (s : State) (a k : Nat) {gf : Field} {gi : Nat} (hl : gf.id < 20000) (hm : W.lcaCount.testBit gf.id =
    false) : regGet (State.lcaCount s a k).regs gf gi = regGet s.regs gf gi := (lcaCount_frame s a k).get hl hm

theorem rangeLine_get (s : State) (op : LcaOp) (x : CacheErr) (l : CacheLine) {gf : Field} {gi : Nat} (hl : gf.id < 20000) (hm
    : W.rangeLine.testBit gf.id = false) : regGet (State.rangeLine s op x l).regs gf gi = regGet s.regs gf gi :=
    (rangeLine_frame s op x l).get hl hm

theorem placeLine_get (s : State) (op : LcaOp) (force : Bool) (x : CacheErr) (l : CacheLine) {gf : Field} {gi : Nat} (hl :
    gf.id < 20000) (hm : W.placeLine.testBit gf.id = false) : regGet (State.placeLine s op force x l).regs gf gi = regGet
    s.regs gf gi := (placeLine_frame s op force x l).get hl hm

theorem lcaStart_get (s : State) {gf : Field} {gi : Nat} (hl : gf.id < 20000) (hm : W.lcaStart.testBit gf.id = false) : regGet
    (State.lcaStart s).regs gf gi = regGet s.regs gf gi := (lcaStart_frame s).get hl hm

theorem tagCheck_get (s : State) (x : CacheErr) {gf : Field} {gi : Nat} (hl : gf.id < 20000) (hm : W.tagCheck.testBit gf.id =
    false) : regGet (State.tagCheck s x).regs gf gi = regGet s.regs gf gi := (tagCheck_frame s x).get hl hm

theorem lcaMaintain_get (s : State) (op : LcaOp) (place force : Bool) (x : CacheErr) {gf : Field} {gi : Nat} (hl : gf.id <
    20000) (hm : W.lcaMaintain.testBit gf.id = false) : regGet (State.lcaMaintain s op place force x).regs gf gi = regGet
    s.regs gf gi := (lcaMaintain_frame s op place force x).get hl hm

theorem makeRoom_get (s : State) (w n : Nat) (x : CacheErr) {gf : Field} {gi : Nat} (hl : gf.id < 20000) (hm :
    W.makeRoom.testBit gf.id = false) : regGet (State.makeRoom s w n x).regs gf gi = regGet s.regs gf gi := (makeRoom_frame s
    w n x).get hl hm

theorem loadLine_get (s : State) (w : Nat) (x : CacheErr) (n : Nat) {gf : Field} {gi : Nat} (hl : gf.id < 20000) (hm :
    W.loadLine.testBit gf.id = false) : regGet (State.loadLine s w x n).regs gf gi = regGet s.regs gf gi := (loadLine_frame s
    w x n).get hl hm

theorem preloadLine_get (s : State) (w : Nat) (x : CacheErr) (n : Nat) {gf : Field} {gi : Nat} (hl : gf.id < 20000) (hm :
    W.preloadLine.testBit gf.id = false) : regGet (State.preloadLine s w x n).regs gf gi = regGet s.regs gf gi :=
    (preloadLine_frame s w x n).get hl hm

theorem lcaPreload_get (s : State) (w : Nat) (x : CacheErr) {gf : Field} {gi : Nat} (hl : gf.id < 20000) (hm :
    W.lcaPreload.testBit gf.id = false) : regGet (State.lcaPreload s w x).regs gf gi = regGet s.regs gf gi :=
    (lcaPreload_frame s w x).get hl hm

theorem lcaDone_get (s : State) {gf : Field} {gi : Nat} (hl : gf.id < 20000) (hm : W.lcaDone.testBit gf.id = false) : regGet
    (State.lcaDone s).regs gf gi = regGet s.regs gf gi := (lcaDone_frame s).get hl hm

theorem lcaFields_get (s : State) (op : Nat) (place force : Bool) (way : Nat) {gf : Field} {gi : Nat} (hl : gf.id < 20000) (hm
    : W.lcaFields.testBit gf.id = false) : regGet (State.lcaFields s op place force way).regs gf gi = regGet s.regs gf gi :=
    (lcaFields_frame s op place force way).get hl hm

theorem updLink_get (s : State) (h : Nat) (f : LinkS → LinkS) {gf : Field} {gi : Nat} (hl : gf.id < 20000) (hm :
    W.updLink.testBit gf.id = false) : regGet (State.updLink s h f).regs gf gi = regGet s.regs gf gi := (updLink_frame s h
    f).get hl hm

theorem setFifo_get (s : State) (h f : Nat) (x : FifoS) {gf : Field} {gi : Nat} (hl : gf.id < 20000) (hm : W.setFifo.testBit
    gf.id = false) : regGet (State.setFifo s h f x).regs gf gi = regGet s.regs gf gi := (setFifo_frame s h f x).get hl hm

theorem sendItem_get (s : State) (h stream tag : Nat) (ws : List Nat) {gf : Field} {gi : Nat} (hl : gf.id < 20000) (hm :
    W.sendItem.testBit gf.id = false) : regGet (State.sendItem s h stream tag ws).regs gf gi = regGet s.regs gf gi :=
    (sendItem_frame s h stream tag ws).get hl hm

theorem dropItem_get (s : State) (h : Nat) {gf : Field} {gi : Nat} (hl : gf.id < 20000) (hm : W.dropItem.testBit gf.id =
    false) : regGet (State.dropItem s h).regs gf gi = regGet s.regs gf gi := (dropItem_frame s h).get hl hm

theorem setLane_get (s : State) (l : Nat) (x : LaneS) {gf : Field} {gi : Nat} (hl : gf.id < 20000) (hm : W.setLane.testBit
    gf.id = false) : regGet (State.setLane s l x).regs gf gi = regGet s.regs gf gi := (setLane_frame s l x).get hl hm

theorem soi_get (s : State) (h w : Nat) {gf : Field} {gi : Nat} (hl : gf.id < 20000) (hm : W.soi.testBit gf.id = false) :
    regGet (State.soi s h w).regs gf gi = regGet s.regs gf gi := (soi_frame s h w).get hl hm

theorem dataWord_get (s : State) (h w : Nat) (poison : Bool) {gf : Field} {gi : Nat} (hl : gf.id < 20000) (hm :
    W.dataWord.testBit gf.id = false) : regGet (State.dataWord s h w poison).regs gf gi = regGet s.regs gf gi :=
    (dataWord_frame s h w poison).get hl hm

theorem echo_get (s : State) (h seq rtt : Nat) {gf : Field} {gi : Nat} (hl : gf.id < 20000) (hm : W.echo.testBit gf.id =
    false) : regGet (State.echo s h seq rtt).regs gf gi = regGet s.regs gf gi := (echo_frame s h seq rtt).get hl hm

theorem bonded_get (s : State) (h : Nat) (x : Waiting) {gf : Field} {gi : Nat} (hl : gf.id < 20000) (hm : W.bonded.testBit
    gf.id = false) : regGet (State.bonded s h x).regs gf gi = regGet s.regs gf gi := (bonded_frame s h x).get hl hm

theorem drain_get (n : Nat) (s : State) (h : Nat) {gf : Field} {gi : Nat} (hl : gf.id < 20000) (hm : W.drain.testBit gf.id =
    false) : regGet (State.drain n s h).regs gf gi = regGet s.regs gf gi := (drain_frame n s h).get hl hm

theorem deliver_get (s : State) (h : Nat) {gf : Field} {gi : Nat} (hl : gf.id < 20000) (hm : W.deliver.testBit gf.id = false)
    : regGet (s.deliver h).regs gf gi = regGet s.regs gf gi := (deliver_frame s h).get hl hm

theorem flushFifo_get (s : State) (h f : Nat) {gf : Field} {gi : Nat} (hl : gf.id < 20000) (hm : W.flushFifo.testBit gf.id =
    false) : regGet (State.flushFifo s h f).regs gf gi = regGet s.regs gf gi := (flushFifo_frame s h f).get hl hm

theorem flushLink_get (s : State) (h : Nat) {gf : Field} {gi : Nat} (hl : gf.id < 20000) (hm : W.flushLink.testBit gf.id =
    false) : regGet (State.flushLink s h).regs gf gi = regGet s.regs gf gi := (flushLink_frame s h).get hl hm

theorem popItem_get (s : State) (h f : Nat) (flips : List (Nat × Nat)) {gf : Field} {gi : Nat} (hl : gf.id < 20000) (hm :
    W.popItem.testBit gf.id = false) : regGet ((State.popItem s h f flips).1).regs gf gi = regGet s.regs gf gi :=
    (popItem_frame s h f flips).get hl hm

theorem popBank_get (s : State) (h f : Nat) (flips : List (Nat × Nat)) {gf : Field} {gi : Nat} (hl : gf.id < 20000) (hm :
    W.popBank.testBit gf.id = false) : regGet (State.popBank s h f flips).regs gf gi = regGet s.regs gf gi := (popBank_frame s
    h f flips).get hl hm

theorem popRf_get (s : State) (h f : Nat) (flips : List (Nat × Nat)) {gf : Field} {gi : Nat} (hl : gf.id < 20000) (hm :
    W.popRf.testBit gf.id = false) : regGet (State.popRf s h f flips).regs gf gi = regGet s.regs gf gi := (popRf_frame s h f
    flips).get hl hm

theorem takeTick_get (s : State) (h f k : Nat) {gf : Field} {gi : Nat} (hl : gf.id < 20000) (hm : W.takeTick.testBit gf.id =
    false) : regGet ((State.takeTick s h f k).1).regs gf gi = regGet s.regs gf gi := (takeTick_frame s h f k).get hl hm

theorem roles_get (s : State) (h : Nat) {gf : Field} {gi : Nat} (hl : gf.id < 20000) (hm : W.roles.testBit gf.id = false) :
    regGet (State.roles s h).regs gf gi = regGet s.regs gf gi := (roles_frame s h).get hl hm

theorem setLink_get (s : State) (h st : Nat) {gf : Field} {gi : Nat} (hl : gf.id < 20000) (hm : W.setLink.testBit gf.id =
    false) : regGet (State.setLink s h st).regs gf gi = regGet s.regs gf gi := (setLink_frame s h st).get hl hm

theorem linkDown_get (s : State) (h st : Nat) {gf : Field} {gi : Nat} (hl : gf.id < 20000) (hm : W.linkDown.testBit gf.id =
    false) : regGet (State.linkDown s h st).regs gf gi = regGet s.regs gf gi := (linkDown_frame s h st).get hl hm

theorem linkTrain_get (s : State) (h : Nat) {gf : Field} {gi : Nat} (hl : gf.id < 20000) (hm : W.linkTrain.testBit gf.id =
    false) : regGet (s.linkTrain h).regs gf gi = regGet s.regs gf gi := (linkTrain_frame s h).get hl hm

theorem applyMap_get (s : State) (h spare failed : Nat) {gf : Field} {gi : Nat} (hl : gf.id < 20000) (hm : W.applyMap.testBit
    gf.id = false) : regGet (State.applyMap s h spare failed).regs gf gi = regGet s.regs gf gi := (applyMap_frame s h spare
    failed).get hl hm

theorem sendRotate_get (s : State) (h k : Nat) (kind : MapReq) {gf : Field} {gi : Nat} (hl : gf.id < 20000) (hm :
    W.sendRotate.testBit gf.id = false) : regGet (State.sendRotate s h k kind).regs gf gi = regGet s.regs gf gi :=
    (sendRotate_frame s h k kind).get hl hm

theorem setCheck_get (s : State) (l : Nat) (x : CheckS) {gf : Field} {gi : Nat} (hl : gf.id < 20000) (hm : W.setCheck.testBit
    gf.id = false) : regGet (State.setCheck s l x).regs gf gi = regGet s.regs gf gi := (setCheck_frame s l x).get hl hm

theorem rawBits_get (s : State) (l : Nat) (bs : List Bool) {gf : Field} {gi : Nat} (hl : gf.id < 20000) (hm :
    W.rawBits.testBit gf.id = false) : regGet (State.rawBits s l bs).regs gf gi = regGet s.regs gf gi := (rawBits_frame s l
    bs).get hl hm

theorem patternTick_get (s : State) (l : Nat) {gf : Field} {gi : Nat} (hl : gf.id < 20000) (hm : W.patternTick.testBit gf.id =
    false) : regGet (State.patternTick s l).regs gf gi = regGet s.regs gf gi := (patternTick_frame s l).get hl hm

theorem lnkReject_get (s : State) (h : Nat) {gf : Field} {gi : Nat} (hl : gf.id < 20000) (hm : W.lnkReject.testBit gf.id =
    false) : regGet (State.lnkReject s h).regs gf gi = regGet s.regs gf gi := (lnkReject_frame s h).get hl hm

theorem flushMask_get (s : State) (h w : Nat) {gf : Field} {gi : Nat} (hl : gf.id < 20000) (hm : W.flushMask.testBit gf.id =
    false) : regGet (State.flushMask s h w).regs gf gi = regGet s.regs gf gi := (flushMask_frame s h w).get hl hm

theorem takeMap_get (s : State) (h : Nat) (m : Nat × Nat) (restored : Option Nat) {gf : Field} {gi : Nat} (hl : gf.id < 20000)
    (hm : W.takeMap.testBit gf.id = false) : regGet (State.takeMap s h m restored).regs gf gi = regGet s.regs gf gi :=
    (takeMap_frame s h m restored).get hl hm

theorem lineBlock_get (s : State) (l hdr w : Nat) {gf : Field} {gi : Nat} (hl : gf.id < 20000) (hm : W.lineBlock.testBit gf.id
    = false) : regGet (State.lineBlock s l hdr w).regs gf gi = regGet s.regs gf gi := (lineBlock_frame s l hdr w).get hl hm

theorem soakBits_get (s : State) (l w : Nat) {gf : Field} {gi : Nat} (hl : gf.id < 20000) (hm : W.soakBits.testBit gf.id =
    false) : regGet (State.soakBits s l w).regs gf gi = regGet s.regs gf gi := (soakBits_frame s l w).get hl hm

theorem laneMarker_get (s : State) (h k : Nat) (x : MarkerIn) {gf : Field} {gi : Nat} (hl : gf.id < 20000) (hm :
    W.laneMarker.testBit gf.id = false) : regGet (State.laneMarker s h k x).regs gf gi = regGet s.regs gf gi :=
    (laneMarker_frame s h k x).get hl hm

theorem marker_get (s : State) (h : Nat) (m : Nat × Nat) (mark : Nat) {gf : Field} {gi : Nat} (hl : gf.id < 20000) (hm :
    W.marker.testBit gf.id = false) : regGet (State.marker s h m mark).regs gf gi = regGet s.regs gf gi := (marker_frame s h m
    mark).get hl hm

theorem laneFailed_get (s : State) (h k : Nat) {gf : Field} {gi : Nat} (hl : gf.id < 20000) (hm : W.laneFailed.testBit gf.id =
    false) : regGet (State.laneFailed s h k).regs gf gi = regGet s.regs gf gi := (laneFailed_frame s h k).get hl hm

theorem alignMarker_get (s : State) (h : Nat) (lanes : List MarkerIn) {gf : Field} {gi : Nat} (hl : gf.id < 20000) (hm :
    W.alignMarker.testBit gf.id = false) : regGet (State.alignMarker s h lanes).regs gf gi = regGet s.regs gf gi :=
    (alignMarker_frame s h lanes).get hl hm

theorem rotate_get (s : State) (h : Nat) {gf : Field} {gi : Nat} (hl : gf.id < 20000) (hm : W.rotate.testBit gf.id = false) :
    regGet (State.rotate s h).regs gf gi = regGet s.regs gf gi := (rotate_frame s h).get hl hm

theorem restore_get (s : State) (h k : Nat) {gf : Field} {gi : Nat} (hl : gf.id < 20000) (hm : W.restore.testBit gf.id =
    false) : regGet (State.restore s h k).regs gf gi = regGet s.regs gf gi := (restore_frame s h k).get hl hm

theorem laneFail_get (s : State) (h k : Nat) (c : LaneCause) {gf : Field} {gi : Nat} (hl : gf.id < 20000) (hm :
    W.laneFail.testBit gf.id = false) : regGet (State.laneFail s h k c).regs gf gi = regGet s.regs gf gi := (laneFail_frame s
    h k c).get hl hm

theorem block_get (s : State) (h k hdr w rtt : Nat) {gf : Field} {gi : Nat} (hl : gf.id < 20000) (hm : W.block.testBit gf.id =
    false) : regGet (State.block s h k hdr w rtt).regs gf gi = regGet s.regs gf gi := (block_frame s h k hdr w rtt).get hl hm

theorem linkEnable_get (s : State) (h : Nat) {gf : Field} {gi : Nat} (hl : gf.id < 20000) (hm : W.linkEnable.testBit gf.id =
    false) : regGet (State.linkEnable s h).regs gf gi = regGet s.regs gf gi := (linkEnable_frame s h).get hl hm

theorem linkDisable_get (s : State) (h : Nat) {gf : Field} {gi : Nat} (hl : gf.id < 20000) (hm : W.linkDisable.testBit gf.id =
    false) : regGet (State.linkDisable s h).regs gf gi = regGet s.regs gf gi := (linkDisable_frame s h).get hl hm

theorem trainDone_get (s : State) (h : Nat) {gf : Field} {gi : Nat} (hl : gf.id < 20000) (hm : W.trainDone.testBit gf.id =
    false) : regGet (State.trainDone s h).regs gf gi = regGet s.regs gf gi := (trainDone_frame s h).get hl hm

theorem writePrbs_get (s : State) (l w : Nat) {gf : Field} {gi : Nat} (hl : gf.id < 20000) (hm : W.writePrbs.testBit gf.id =
    false) : regGet (State.writePrbs s l w).regs gf gi = regGet s.regs gf gi := (writePrbs_frame s l w).get hl hm

theorem linkCmd_get (s : State) (h op lane pat : Nat) {gf : Field} {gi : Nat} (hl : gf.id < 20000) (hm : W.linkCmd.testBit
    gf.id = false) : regGet (State.linkCmd s h op lane pat).regs gf gi = regGet s.regs gf gi := (linkCmd_frame s h op lane
    pat).get hl hm

theorem writeEye_get (s : State) (l w : Nat) {gf : Field} {gi : Nat} (hl : gf.id < 20000) (hm : W.writeEye.testBit gf.id =
    false) : regGet (State.writeEye s l w).regs gf gi = regGet s.regs gf gi := (writeEye_frame s l w).get hl hm

theorem writeLead_get (s : State) (h w : Nat) {gf : Field} {gi : Nat} (hl : gf.id < 20000) (hm : W.writeLead.testBit gf.id =
    false) : regGet (State.writeLead s h w).regs gf gi = regGet s.regs gf gi := (writeLead_frame s h w).get hl hm

theorem updLrn_get (s : State) (h : Nat) (f : LrnS → LrnS) {gf : Field} {gi : Nat} (hl : gf.id < 20000) (hm : W.updLrn.testBit
    gf.id = false) : regGet (State.updLrn s h f).regs gf gi = regGet s.regs gf gi := (updLrn_frame s h f).get hl hm

theorem updLrnLoop_get (s : State) (h i : Nat) (f : LrnLoopS → LrnLoopS) {gf : Field} {gi : Nat} (hl : gf.id < 20000) (hm :
    W.updLrnLoop.testBit gf.id = false) : regGet (State.updLrnLoop s h i f).regs gf gi = regGet s.regs gf gi :=
    (updLrnLoop_frame s h i f).get hl hm

theorem lrnRead_get (s : State) (h i j : Nat) {gf : Field} {gi : Nat} (hl : gf.id < 20000) (hm : W.lrnRead.testBit gf.id =
    false) : regGet ((State.lrnRead s h i j).1).regs gf gi = regGet s.regs gf gi := (lrnRead_frame s h i j).get hl hm

theorem lrnWrite_get (s : State) (h i j : Nat) (w : Int) {gf : Field} {gi : Nat} (hl : gf.id < 20000) (hm : W.lrnWrite.testBit
    gf.id = false) : regGet (State.lrnWrite s h i j w).regs gf gi = regGet s.regs gf gi := (lrnWrite_frame s h i j w).get hl
    hm

theorem lrnSat_get (s : State) (h i : Nat) {gf : Field} {gi : Nat} (hl : gf.id < 20000) (hm : W.lrnSat.testBit gf.id = false)
    : regGet (State.lrnSat s h i).regs gf gi = regGet s.regs gf gi := (lrnSat_frame s h i).get hl hm

theorem scaleEntry_get (s : State) (i e : Nat) {gf : Field} {gi : Nat} (hl : gf.id < 20000) (hm : W.scaleEntry.testBit gf.id =
    false) : regGet ((State.scaleEntry s i e).1).regs gf gi = regGet s.regs gf gi := (scaleEntry_frame s i e).get hl hm

theorem lrnScale_get (s : State) (h i : Nat) {gf : Field} {gi : Nat} (hl : gf.id < 20000) (hm : W.lrnScale.testBit gf.id =
    false) : regGet ((State.lrnScale s h i).1).regs gf gi = regGet s.regs gf gi := (lrnScale_frame s h i).get hl hm

theorem lrnAngle_get (s : State) (h : Nat) {gf : Field} {gi : Nat} (hl : gf.id < 20000) (hm : W.lrnAngle.testBit gf.id =
    false) : regGet (State.lrnAngle s h).regs gf gi = regGet s.regs gf gi := (lrnAngle_frame s h).get hl hm

theorem lrnFadeStep_get (s : State) (h i : Nat) {gf : Field} {gi : Nat} (hl : gf.id < 20000) (hm : W.lrnFadeStep.testBit gf.id
    = false) : regGet (State.lrnFadeStep s h i).regs gf gi = regGet s.regs gf gi := (lrnFadeStep_frame s h i).get hl hm

theorem lrnInject_get (s : State) (h i : Nat) (g : Int) {gf : Field} {gi : Nat} (hl : gf.id < 20000) (hm : W.lrnInject.testBit
    gf.id = false) : regGet (State.lrnInject s h i g).regs gf gi = regGet s.regs gf gi := (lrnInject_frame s h i g).get hl hm

theorem lrnRevEnd_get (s : State) (h i : Nat) {gf : Field} {gi : Nat} (hl : gf.id < 20000) (hm : W.lrnRevEnd.testBit gf.id =
    false) : regGet (State.lrnRevEnd s h i).regs gf gi = regGet s.regs gf gi := (lrnRevEnd_frame s h i).get hl hm

theorem lrnUpdate_get (s : State) (h i : Nat) (m : LrnTick) {gf : Field} {gi : Nat} (hl : gf.id < 20000) (hm :
    W.lrnUpdate.testBit gf.id = false) : regGet (State.lrnUpdate s h i m).regs gf gi = regGet s.regs gf gi := (lrnUpdate_frame
    s h i m).get hl hm

theorem lrnLearn_get (s : State) (h i : Nat) {gf : Field} {gi : Nat} (hl : gf.id < 20000) (hm : W.lrnLearn.testBit gf.id =
    false) : regGet (State.lrnLearn s h i).regs gf gi = regGet s.regs gf gi := (lrnLearn_frame s h i).get hl hm

theorem lrnSkip_get (s : State) (h i : Nat) {gf : Field} {gi : Nat} (hl : gf.id < 20000) (hm : W.lrnSkip.testBit gf.id =
    false) : regGet (s.lrnSkip h i).regs gf gi = regGet s.regs gf gi := (lrnSkip_frame s h i).get hl hm

theorem lrnDefect_get (s : State) (h : Nat) (sum : Option Int) (shock : Bool) {gf : Field} {gi : Nat} (hl : gf.id < 20000) (hm
    : W.lrnDefect.testBit gf.id = false) : regGet (State.lrnDefect s h sum shock).regs gf gi = regGet s.regs gf gi :=
    (lrnDefect_frame s h sum shock).get hl hm

theorem lrnCopyStep_get (s : State) (h i : Nat) {gf : Field} {gi : Nat} (hl : gf.id < 20000) (hm : W.lrnCopyStep.testBit gf.id
    = false) : regGet (State.lrnCopyStep s h i).regs gf gi = regGet s.regs gf gi := (lrnCopyStep_frame s h i).get hl hm

theorem lrnInjectTick_get (s : State) (h i : Nat) (x : LrnIn) (bad : Bool) {gf : Field} {gi : Nat} (hl : gf.id < 20000) (hm :
    W.lrnInjectTick.testBit gf.id = false) : regGet (State.lrnInjectTick s h i x bad).regs gf gi = regGet s.regs gf gi :=
    (lrnInjectTick_frame s h i x bad).get hl hm

theorem lrnTick_get (s : State) (h : Nat) (f t : LrnIn) (sum : Option Int) (shock bad : Bool) {gf : Field} {gi : Nat} (hl :
    gf.id < 20000) (hm : W.lrnTick.testBit gf.id = false) : regGet (State.lrnTick s h f t sum shock bad).regs gf gi = regGet
    s.regs gf gi := (lrnTick_frame s h f t sum shock bad).get hl hm

theorem lrnFreezeNow_get (s : State) (h : Nat) {gf : Field} {gi : Nat} (hl : gf.id < 20000) (hm : W.lrnFreezeNow.testBit gf.id
    = false) : regGet (State.lrnFreezeNow s h).regs gf gi = regGet s.regs gf gi := (lrnFreezeNow_frame s h).get hl hm

theorem lrnWipe_get (s : State) (h i : Nat) {gf : Field} {gi : Nat} (hl : gf.id < 20000) (hm : W.lrnWipe.testBit gf.id =
    false) : regGet (s.lrnWipe h i).regs gf gi = regGet s.regs gf gi := (lrnWipe_frame s h i).get hl hm

theorem lrnClear_get (s : State) (h i : Nat) {gf : Field} {gi : Nat} (hl : gf.id < 20000) (hm : W.lrnClear.testBit gf.id =
    false) : regGet (State.lrnClear s h i).regs gf gi = regGet s.regs gf gi := (lrnClear_frame s h i).get hl hm

theorem lrnClearDeck_get (s : State) (d : Nat) {gf : Field} {gi : Nat} (hl : gf.id < 20000) (hm : W.lrnClearDeck.testBit gf.id
    = false) : regGet (State.lrnClearDeck s d).regs gf gi = regGet s.regs gf gi := (lrnClearDeck_frame s d).get hl hm

theorem seedStart_get (s : State) (h i src : Nat) {gf : Field} {gi : Nat} (hl : gf.id < 20000) (hm : W.seedStart.testBit gf.id
    = false) : regGet (State.seedStart s h i src).regs gf gi = regGet s.regs gf gi := (seedStart_frame s h i src).get hl hm

theorem autoSeed_get (s : State) (h i : Nat) {gf : Field} {gi : Nat} (hl : gf.id < 20000) (hm : W.autoSeed.testBit gf.id =
    false) : regGet (State.autoSeed s h i).regs gf gi = regGet s.regs gf gi := (autoSeed_frame s h i).get hl hm

theorem takeoverSeed_get (s : State) (h p : Nat) {gf : Field} {gi : Nat} (hl : gf.id < 20000) (hm : W.takeoverSeed.testBit
    gf.id = false) : regGet (State.takeoverSeed s h p).regs gf gi = regGet s.regs gf gi := (takeoverSeed_frame s h p).get hl
    hm

theorem seedDone_get (s : State) (h i : Nat) {gf : Field} {gi : Nat} (hl : gf.id < 20000) (hm : W.seedDone.testBit gf.id =
    false) : regGet (State.seedDone s h i).regs gf gi = regGet s.regs gf gi := (seedDone_frame s h i).get hl hm

theorem lrnEnter_get (s : State) (h old new : Nat) {gf : Field} {gi : Nat} (hl : gf.id < 20000) (hm : W.lrnEnter.testBit gf.id
    = false) : regGet (State.lrnEnter s h old new).regs gf gi = regGet s.regs gf gi := (lrnEnter_frame s h old new).get hl hm

theorem seedLoop1_get (s : State) (h i : Nat) {gf : Field} {gi : Nat} (hl : gf.id < 20000) (hm : W.seedLoop1.testBit gf.id =
    false) : regGet (State.seedLoop1 s h i).regs gf gi = regGet s.regs gf gi := (seedLoop1_frame s h i).get hl hm

theorem seedRequest_get (s : State) (h mask : Nat) {gf : Field} {gi : Nat} (hl : gf.id < 20000) (hm : W.seedRequest.testBit
    gf.id = false) : regGet (State.seedRequest s h mask).regs gf gi = regGet s.regs gf gi := (seedRequest_frame s h mask).get
    hl hm

theorem clearTables_get (s : State) (h mask : Nat) {gf : Field} {gi : Nat} (hl : gf.id < 20000) (hm : W.clearTables.testBit
    gf.id = false) : regGet (State.clearTables s h mask).regs gf gi = regGet s.regs gf gi := (clearTables_frame s h mask).get
    hl hm

theorem clearLoops_get (s : State) (h mask : Nat) {gf : Field} {gi : Nat} (hl : gf.id < 20000) (hm : W.clearLoops.testBit
    gf.id = false) : regGet (State.clearLoops s h mask).regs gf gi = regGet s.regs gf gi := (clearLoops_frame s h mask).get hl
    hm

theorem memReject_get (s : State) {gf : Field} {gi : Nat} (hl : gf.id < 20000) (hm : W.memReject.testBit gf.id = false) :
    regGet (State.memReject s).regs gf gi = regGet s.regs gf gi := (memReject_frame s).get hl hm

theorem scrubGo_get (s : State) {gf : Field} {gi : Nat} (hl : gf.id < 20000) (hm : W.scrubGo.testBit gf.id = false) : regGet
    (State.scrubGo s).regs gf gi = regGet s.regs gf gi := (scrubGo_frame s).get hl hm

theorem scrubStop_get (s : State) {gf : Field} {gi : Nat} (hl : gf.id < 20000) (hm : W.scrubStop.testBit gf.id = false) :
    regGet (State.scrubStop s).regs gf gi = regGet s.regs gf gi := (scrubStop_frame s).get hl hm

theorem scrubLine_get (s : State) (n : Nat) {gf : Field} {gi : Nat} (hl : gf.id < 20000) (hm : W.scrubLine.testBit gf.id =
    false) : regGet ((State.scrubLine s n).1).regs gf gi = regGet s.regs gf gi := (scrubLine_frame s n).get hl hm

theorem scrubSummary_get (s : State) (l : List ScrubHit) {gf : Field} {gi : Nat} (hl : gf.id < 20000) (hm :
    W.scrubSummary.testBit gf.id = false) : regGet (State.scrubSummary s l).regs gf gi = regGet s.regs gf gi :=
    (scrubSummary_frame s l).get hl hm

theorem scrubDone_get (s : State) (last : Nat) {gf : Field} {gi : Nat} (hl : gf.id < 20000) (hm : W.scrubDone.testBit gf.id =
    false) : regGet (State.scrubDone s last).regs gf gi = regGet s.regs gf gi := (scrubDone_frame s last).get hl hm

theorem scrubEntry_get (s : State) (a : Nat) {gf : Field} {gi : Nat} (hl : gf.id < 20000) (hm : W.scrubEntry.testBit gf.id =
    false) : regGet (State.scrubEntry s a).regs gf gi = regGet s.regs gf gi := (scrubEntry_frame s a).get hl hm

theorem scrubLap_get (s : State) (ms : Nat) {gf : Field} {gi : Nat} (hl : gf.id < 20000) (hm : W.scrubLap.testBit gf.id =
    false) : regGet (State.scrubLap s ms).regs gf gi = regGet s.regs gf gi := (scrubLap_frame s ms).get hl hm

theorem leak_get (s : State) (x : Nat) {gf : Field} {gi : Nat} (hl : gf.id < 20000) (hm : W.leak.testBit gf.id = false) :
    regGet (State.leak s x).regs gf gi = regGet s.regs gf gi := (leak_frame s x).get hl hm

theorem writeBucket_get (s : State) (x w : Nat) {gf : Field} {gi : Nat} (hl : gf.id < 20000) (hm : W.writeBucket.testBit gf.id
    = false) : regGet (State.writeBucket s x w).regs gf gi = regGet s.regs gf gi := (writeBucket_frame s x w).get hl hm

theorem writeLearned_get (s : State) (i w : Nat) {gf : Field} {gi : Nat} (hl : gf.id < 20000) (hm : W.writeLearned.testBit
    gf.id = false) : regGet (State.writeLearned s i w).regs gf gi = regGet s.regs gf gi := (writeLearned_frame s i w).get hl
    hm

theorem writeScale_get (s : State) (i w : Nat) {gf : Field} {gi : Nat} (hl : gf.id < 20000) (hm : W.writeScale.testBit gf.id =
    false) : regGet (State.writeScale s i w).regs gf gi = regGet s.regs gf gi := (writeScale_frame s i w).get hl hm

theorem writeLow_get (s : State) (a w : Nat) {gf : Field} {gi : Nat} (hl : gf.id < 20000) (hm : W.writeLow.testBit gf.id =
    false) : regGet (State.writeLow s a w).regs gf gi = regGet s.regs gf gi := (writeLow_frame s a w).get hl hm

theorem writeHigh_get (s : State) (a w : Nat) {gf : Field} {gi : Nat} (hl : gf.id < 20000) (hm : W.writeHigh.testBit gf.id =
    false) : regGet (State.writeHigh s a w).regs gf gi = regGet s.regs gf gi := (writeHigh_frame s a w).get hl hm

theorem readLow_get (s : State) (a : Nat) {gf : Field} {gi : Nat} (hl : gf.id < 20000) (hm : W.readLow.testBit gf.id = false)
    : regGet (State.readLow s a).regs gf gi = regGet s.regs gf gi := (readLow_frame s a).get hl hm

theorem uncache_get (s : State) (n : Nat) {gf : Field} {gi : Nat} (hl : gf.id < 20000) (hm : W.uncache.testBit gf.id = false)
    : regGet (State.uncache s n).regs gf gi = regGet s.regs gf gi := (uncache_frame s n).get hl hm

theorem rawWrite_get (s : State) {gf : Field} {gi : Nat} (hl : gf.id < 20000) (hm : W.rawWrite.testBit gf.id = false) : regGet
    (State.rawWrite s).regs gf gi = regGet s.regs gf gi := (rawWrite_frame s).get hl hm

theorem rawRead_get (s : State) {gf : Field} {gi : Nat} (hl : gf.id < 20000) (hm : W.rawRead.testBit gf.id = false) : regGet
    (State.rawRead s).regs gf gi = regGet s.regs gf gi := (rawRead_frame s).get hl hm

theorem ask_get (s : State) (v n x pos : Nat) {gf : Field} {gi : Nat} (hl : gf.id < 20000) (hm : W.ask.testBit gf.id = false)
    : regGet (State.ask s v n x pos).regs gf gi = regGet s.regs gf gi := (ask_frame s v n x pos).get hl hm

theorem startRecovery_get (s : State) (v n pos : Nat) {gf : Field} {gi : Nat} (hl : gf.id < 20000) (hm :
    W.startRecovery.testBit gf.id = false) : regGet (State.startRecovery s v n pos).regs gf gi = regGet s.regs gf gi :=
    (startRecovery_frame s v n pos).get hl hm

theorem catalogueRead_get (s : State) (v n pos : Nat) {gf : Field} {gi : Nat} (hl : gf.id < 20000) (hm :
    W.catalogueRead.testBit gf.id = false) : regGet (State.catalogueRead s v n pos).regs gf gi = regGet s.regs gf gi :=
    (catalogueRead_frame s v n pos).get hl hm

theorem recovCatalogue_get (s : State) (v n c : Nat) (x : SlotS) (o : LodeOutcome) {gf : Field} {gi : Nat} (hl : gf.id <
    20000) (hm : W.recovCatalogue.testBit gf.id = false) : regGet (State.recovCatalogue s v n c x o).regs gf gi = regGet
    s.regs gf gi := (recovCatalogue_frame s v n c x o).get hl hm

theorem scanNext_get (s : State) (v n p pos : Nat) {gf : Field} {gi : Nat} (hl : gf.id < 20000) (hm : W.scanNext.testBit gf.id
    = false) : regGet (State.scanNext s v n p pos).regs gf gi = regGet s.regs gf gi := (scanNext_frame s v n p pos).get hl hm

theorem recovScan_get (s : State) (v n p : Nat) (y : SlotS) (o : LodeOutcome) {gf : Field} {gi : Nat} (hl : gf.id < 20000) (hm
    : W.recovScan.testBit gf.id = false) : regGet (State.recovScan s v n p y o).regs gf gi = regGet s.regs gf gi :=
    (recovScan_frame s v n p y o).get hl hm

theorem recovOutcome_get (s : State) (v n x : Nat) (y : SlotS) (o : LodeOutcome) {gf : Field} {gi : Nat} (hl : gf.id < 20000)
    (hm : W.recovOutcome.testBit gf.id = false) : regGet (State.recovOutcome s v n x y o).regs gf gi = regGet s.regs gf gi :=
    (recovOutcome_frame s v n x y o).get hl hm

theorem mounted_get (s : State) (v serial : Nat) (blank : Bool) {gf : Field} {gi : Nat} (hl : gf.id < 20000) (hm :
    W.mounted.testBit gf.id = false) : regGet (State.mounted s v serial blank).regs gf gi = regGet s.regs gf gi :=
    (mounted_frame s v serial blank).get hl hm

theorem mountFails_get (s : State) (v : Nat) (st : Status) {gf : Field} {gi : Nat} (hl : gf.id < 20000) (hm :
    W.mountFails.testBit gf.id = false) : regGet (State.mountFails s v st).regs gf gi = regGet s.regs gf gi :=
    (mountFails_frame s v st).get hl hm

theorem probeFrom_get (s : State) (v k p : Nat) {gf : Field} {gi : Nat} (hl : gf.id < 20000) (hm : W.probeFrom.testBit gf.id =
    false) : regGet (s.probeFrom v k p).regs gf gi = regGet s.regs gf gi := (probeFrom_frame s v k p).get hl hm

theorem probeAt_get (s : State) (v probe : Nat) {gf : Field} {gi : Nat} (hl : gf.id < 20000) (hm : W.probeAt.testBit gf.id =
    false) : regGet (State.probeAt s v probe).regs gf gi = regGet s.regs gf gi := (probeAt_frame s v probe).get hl hm

theorem mountOutcome_get (s : State) (v n x : Nat) (y : SlotS) (o : LodeOutcome) {gf : Field} {gi : Nat} (hl : gf.id < 20000)
    (hm : W.mountOutcome.testBit gf.id = false) : regGet (State.mountOutcome s v n x y o).regs gf gi = regGet s.regs gf gi :=
    (mountOutcome_frame s v n x y o).get hl hm

theorem setTest_get (s : State) (v : Nat) (t : SelfTest) {gf : Field} {gi : Nat} (hl : gf.id < 20000) (hm : W.setTest.testBit
    gf.id = false) : regGet (State.setTest s v t).regs gf gi = regGet s.regs gf gi := (setTest_frame s v t).get hl hm

theorem testOutcome_get (s : State) (v n x : Nat) (y : SlotS) (o : LodeOutcome) {gf : Field} {gi : Nat} (hl : gf.id < 20000)
    (hm : W.testOutcome.testBit gf.id = false) : regGet (State.testOutcome s v n x y o).regs gf gi = regGet s.regs gf gi :=
    (testOutcome_frame s v n x y o).get hl hm

theorem deliverCmd_get (s : State) (c : Cmd) (l : Nat) (sound : List (Nat × Nat)) (ecc : List Nat) (buf : Nat) {gf : Field}
    {gi : Nat} (hl : gf.id < 20000) (hm : W.deliverCmd.testBit gf.id = false) : regGet (State.deliverCmd s c l sound ecc
    buf).regs gf gi = regGet s.regs gf gi := (deliverCmd_frame s c l sound ecc buf).get hl hm

theorem deliverLode_get (s : State) (v n l : Nat) (sound : List (Nat × Nat)) (ecc : List Nat) (buf : Nat) {gf : Field} {gi :
    Nat} (hl : gf.id < 20000) (hm : W.deliverLode.testBit gf.id = false) : regGet (State.deliverLode s v n l sound ecc
    buf).regs gf gi = regGet s.regs gf gi := (deliverLode_frame s v n l sound ecc buf).get hl hm

theorem deliverSlot_get (s : State) (y : Nat) (o : LodeOutcome) (ecc : List Nat) {gf : Field} {gi : Nat} (hl : gf.id < 20000)
    (hm : W.deliverSlot.testBit gf.id = false) : regGet (State.deliverSlot s y o ecc).regs gf gi = regGet s.regs gf gi :=
    (deliverSlot_frame s y o ecc).get hl hm

theorem reread_get (s : State) (y : Nat) {gf : Field} {gi : Nat} (hl : gf.id < 20000) (hm : W.reread.testBit gf.id = false) :
    regGet (State.reread s y).regs gf gi = regGet s.regs gf gi := (reread_frame s y).get hl hm

theorem countOutcome_get (s : State) (y : Nat) (o : LodeOutcome) {gf : Field} {gi : Nat} (hl : gf.id < 20000) (hm :
    W.countOutcome.testBit gf.id = false) : regGet (State.countOutcome s y o).regs gf gi = regGet s.regs gf gi :=
    (countOutcome_frame s y o).get hl hm

theorem lodeOutcome_get (s : State) (y : Nat) (o : LodeOutcome) (ecc : List Nat) {gf : Field} {gi : Nat} (hl : gf.id < 20000)
    (hm : W.lodeOutcome.testBit gf.id = false) : regGet (State.lodeOutcome s y o ecc).regs gf gi = regGet s.regs gf gi :=
    (lodeOutcome_frame s y o ecc).get hl hm

theorem deliverHeld_get (s : State) {gf : Field} {gi : Nat} (hl : gf.id < 20000) (hm : W.deliverHeld.testBit gf.id = false) :
    regGet (State.deliverHeld s).regs gf gi = regGet s.regs gf gi := (deliverHeld_frame s).get hl hm

theorem readPf1_get (s : State) (a : Nat) {gf : Field} {gi : Nat} (hl : gf.id < 20000) (hm : W.readPf1.testBit gf.id = false)
    : regGet (s.readPf1 a).regs gf gi = regGet s.regs gf gi := (readPf1_frame s a).get hl hm

theorem readPf0_get (s : State) (a : Nat) {gf : Field} {gi : Nat} (hl : gf.id < 20000) (hm : W.readPf0.testBit gf.id = false)
    : regGet (s.readPf0 a).regs gf gi = regGet s.regs gf gi := (readPf0_frame s a).get hl hm

theorem readMsix_get (s : State) (fn a : Nat) {gf : Field} {gi : Nat} (hl : gf.id < 20000) (hm : W.readMsix.testBit gf.id =
    false) : regGet (State.readMsix s fn a).regs gf gi = regGet s.regs gf gi := (readMsix_frame s fn a).get hl hm

theorem busRead_get (s : State) (sp : RegSpace) (a : Nat) {gf : Field} {gi : Nat} (hl : gf.id < 20000) (hm : W.busRead.testBit
    gf.id = false) : regGet (State.busRead s sp a).regs gf gi = regGet s.regs gf gi := (busRead_frame s sp a).get hl hm

theorem regReject_get (s : State) (r : RegDef) (i : Nat) {gf : Field} {gi : Nat} (hl : gf.id < 20000) (hm :
    W.regReject.testBit gf.id = false) : regGet (State.regReject s r i).regs gf gi = regGet s.regs gf gi := (regReject_frame s
    r i).get hl hm

theorem resignal_get (s before : State) (e : EvtReg) (i : Nat) {gf : Field} {gi : Nat} (hl : gf.id < 20000) (hm :
    W.resignal.testBit gf.id = false) : regGet (s.resignal before e i).regs gf gi = regGet s.regs gf gi := (resignal_frame s
    before e i).get hl hm

theorem evtWriteAt_get (s : State) (part : EvtPart) (a w : Nat) {gf : Field} {gi : Nat} (hl : gf.id < 20000) (hm :
    W.evtWriteAt.testBit gf.id = false) : regGet (s.evtWriteAt part a w).regs gf gi = regGet s.regs gf gi := (evtWriteAt_frame
    s part a w).get hl hm

theorem writeHandover_get (s : State) (w : Nat) {gf : Field} {gi : Nat} (hl : gf.id < 20000) (hm : W.writeHandover.testBit
    gf.id = false) : regGet (State.writeHandover s w).regs gf gi = regGet s.regs gf gi := (writeHandover_frame s w).get hl hm

theorem writeLaneCtl_get (s : State) (l w : Nat) {gf : Field} {gi : Nat} (hl : gf.id < 20000) (hm : W.writeLaneCtl.testBit
    gf.id = false) : regGet (State.writeLaneCtl s l w).regs gf gi = regGet s.regs gf gi := (writeLaneCtl_frame s l w).get hl
    hm

theorem writeHeadCtl_get (s : State) (h w : Nat) {gf : Field} {gi : Nat} (hl : gf.id < 20000) (hm : W.writeHeadCtl.testBit
    gf.id = false) : regGet (State.writeHeadCtl s h w).regs gf gi = regGet s.regs gf gi := (writeHeadCtl_frame s h w).get hl
    hm

theorem writeHfeCmd_get (s : State) (h w : Nat) {gf : Field} {gi : Nat} (hl : gf.id < 20000) (hm : W.writeHfeCmd.testBit gf.id
    = false) : regGet (State.writeHfeCmd s h w).regs gf gi = regGet s.regs gf gi := (writeHfeCmd_frame s h w).get hl hm

theorem writeClrCtl_get (s : State) (h w : Nat) {gf : Field} {gi : Nat} (hl : gf.id < 20000) (hm : W.writeClrCtl.testBit gf.id
    = false) : regGet (State.writeClrCtl s h w).regs gf gi = regGet s.regs gf gi := (writeClrCtl_frame s h w).get hl hm

theorem writeLrnCtl_get (s : State) (h w : Nat) {gf : Field} {gi : Nat} (hl : gf.id < 20000) (hm : W.writeLrnCtl.testBit gf.id
    = false) : regGet (State.writeLrnCtl s h w).regs gf gi = regGet s.regs gf gi := (writeLrnCtl_frame s h w).get hl hm

theorem writeSldCtl_get (s : State) (h w : Nat) {gf : Field} {gi : Nat} (hl : gf.id < 20000) (hm : W.writeSldCtl.testBit gf.id
    = false) : regGet (State.writeSldCtl s h w).regs gf gi = regGet s.regs gf gi := (writeSldCtl_frame s h w).get hl hm

theorem writeWndCtl_get (s : State) (d w : Nat) {gf : Field} {gi : Nat} (hl : gf.id < 20000) (hm : W.writeWndCtl.testBit gf.id
    = false) : regGet (State.writeWndCtl s d w).regs gf gi = regGet s.regs gf gi := (writeWndCtl_frame s d w).get hl hm

theorem writeWndCmd_get (s : State) (d w : Nat) (drvHigh : Bool) {gf : Field} {gi : Nat} (hl : gf.id < 20000) (hm :
    W.writeWndCmd.testBit gf.id = false) : regGet (State.writeWndCmd s d w drvHigh).regs gf gi = regGet s.regs gf gi :=
    (writeWndCmd_frame s d w drvHigh).get hl hm

theorem writeChnCtl_get (s : State) (c w : Nat) {gf : Field} {gi : Nat} (hl : gf.id < 20000) (hm : W.writeChnCtl.testBit gf.id
    = false) : regGet (State.writeChnCtl s c w).regs gf gi = regGet s.regs gf gi := (writeChnCtl_frame s c w).get hl hm

theorem writePrcCtl_get (s : State) (w : Nat) {gf : Field} {gi : Nat} (hl : gf.id < 20000) (hm : W.writePrcCtl.testBit gf.id =
    false) : regGet (State.writePrcCtl s w).regs gf gi = regGet s.regs gf gi := (writePrcCtl_frame s w).get hl hm

theorem writeContain_get (s : State) (w : Nat) {gf : Field} {gi : Nat} (hl : gf.id < 20000) (hm : W.writeContain.testBit gf.id
    = false) : regGet (State.writeContain s w).regs gf gi = regGet s.regs gf gi := (writeContain_frame s w).get hl hm

theorem writeCc_get (s : State) (w : Nat) {gf : Field} {gi : Nat} (hl : gf.id < 20000) (hm : W.writeCc.testBit gf.id = false)
    : regGet (State.writeCc s w).regs gf gi = regGet s.regs gf gi := (writeCc_frame s w).get hl hm

theorem writeShape_get (s : State) (q w : Nat) {gf : Field} {gi : Nat} (hl : gf.id < 20000) (hm : W.writeShape.testBit gf.id =
    false) : regGet (State.writeShape s q w).regs gf gi = regGet s.regs gf gi := (writeShape_frame s q w).get hl hm

theorem writeQpCtl_get (s : State) (q w : Nat) {gf : Field} {gi : Nat} (hl : gf.id < 20000) (hm : W.writeQpCtl.testBit gf.id =
    false) : regGet (State.writeQpCtl s q w).regs gf gi = regGet s.regs gf gi := (writeQpCtl_frame s q w).get hl hm

theorem writeScrub_get (s : State) (w : Nat) {gf : Field} {gi : Nat} (hl : gf.id < 20000) (hm : W.writeScrub.testBit gf.id =
    false) : regGet (State.writeScrub s w).regs gf gi = regGet s.regs gf gi := (writeScrub_frame s w).get hl hm

theorem writeTest_get (s : State) (w : Nat) {gf : Field} {gi : Nat} (hl : gf.id < 20000) (hm : W.writeTest.testBit gf.id =
    false) : regGet (State.writeTest s w).regs gf gi = regGet s.regs gf gi := (writeTest_frame s w).get hl hm

theorem writeWays_get (s : State) (w : Nat) (x : CacheErr) {gf : Field} {gi : Nat} (hl : gf.id < 20000) (hm :
    W.writeWays.testBit gf.id = false) : regGet (State.writeWays s w x).regs gf gi = regGet s.regs gf gi := (writeWays_frame s
    w x).get hl hm

theorem writeLcaOp_get (s : State) (w : Nat) (x : CacheErr) {gf : Field} {gi : Nat} (hl : gf.id < 20000) (hm :
    W.writeLcaOp.testBit gf.id = false) : regGet (State.writeLcaOp s w x).regs gf gi = regGet s.regs gf gi :=
    (writeLcaOp_frame s w x).get hl hm

theorem writeTrlCtl_get (s : State) (w : Nat) {gf : Field} {gi : Nat} (hl : gf.id < 20000) (hm : W.writeTrlCtl.testBit gf.id =
    false) : regGet (State.writeTrlCtl s w).regs gf gi = regGet s.regs gf gi := (writeTrlCtl_frame s w).get hl hm

theorem writeCalCtl_get (s : State) (w : Nat) {gf : Field} {gi : Nat} (hl : gf.id < 20000) (hm : W.writeCalCtl.testBit gf.id =
    false) : regGet (State.writeCalCtl s w).regs gf gi = regGet s.regs gf gi := (writeCalCtl_frame s w).get hl hm

theorem writeCause_get (s : State) (w : Nat) {gf : Field} {gi : Nat} (hl : gf.id < 20000) (hm : W.writeCause.testBit gf.id =
    false) : regGet (s.writeCause w).regs gf gi = regGet s.regs gf gi := (writeCause_frame s w).get hl hm

theorem writeHeadQ_get {s : State} {b i w : Nat} {drvHigh : Bool} {u : State} (e : s.writeHead? b i w drvHigh = some u) {gf :
    Field} {gi : Nat} (hl : gf.id < 20000) (hm : W.writeHeadQ.testBit gf.id = false) : regGet (u).regs gf gi = regGet s.regs
    gf gi := (writeHeadQ_frame e).get hl hm

theorem writeUnitQ_get {s : State} {b i w : Nat} {x : CacheErr} {u : State} (e : s.writeUnit? b i w x = some u) {gf : Field}
    {gi : Nat} (hl : gf.id < 20000) (hm : W.writeUnitQ.testBit gf.id = false) : regGet (u).regs gf gi = regGet s.regs gf gi :=
    (writeUnitQ_frame e).get hl hm

theorem writePf1_get (s : State) (a w : Nat) (x : CacheErr) (drvHigh : Bool) {gf : Field} {gi : Nat} (hl : gf.id < 20000) (hm
    : W.writePf1.testBit gf.id = false) : regGet (s.writePf1 a w x drvHigh).regs gf gi = regGet s.regs gf gi :=
    (writePf1_frame s a w x drvHigh).get hl hm

theorem writePf0_get (s : State) (a w : Nat) {gf : Field} {gi : Nat} (hl : gf.id < 20000) (hm : W.writePf0.testBit gf.id =
    false) : regGet (s.writePf0 a w).regs gf gi = regGet s.regs gf gi := (writePf0_frame s a w).get hl hm

theorem writeMsix_get (s : State) (fn a w : Nat) {gf : Field} {gi : Nat} (hl : gf.id < 20000) (hm : W.writeMsix.testBit gf.id
    = false) : regGet (State.writeMsix s fn a w).regs gf gi = regGet s.regs gf gi := (writeMsix_frame s fn a w).get hl hm

theorem busWrite_get (s : State) (sp : RegSpace) (a w : Nat) (x : CacheErr) (drvHigh : Bool) {gf : Field} {gi : Nat} (hl :
    gf.id < 20000) (hm : W.busWrite.testBit gf.id = false) : regGet (State.busWrite s sp a w x drvHigh).regs gf gi = regGet
    s.regs gf gi := (busWrite_frame s sp a w x drvHigh).get hl hm

theorem safePins_get (s : State) {gf : Field} {gi : Nat} (hl : gf.id < 20000) (hm : W.safePins.testBit gf.id = false) : regGet
    (State.safePins s).regs gf gi = regGet s.regs gf gi := (safePins_frame s).get hl hm

theorem resetDevice_get (s : State) (por : Bool) {gf : Field} {gi : Nat} (hl : gf.id < 20000) (hm : W.all.testBit gf.id =
    false) : regGet (s.resetDevice por).regs gf gi = regGet s.regs gf gi := (resetDevice_frame s por).get hl hm

theorem bistRow_get (s : State) (p : Nat × Nat) {gf : Field} {gi : Nat} (hl : gf.id < 20000) (hm : W.bistRow.testBit gf.id =
    false) : regGet (State.bistRow s p).regs gf gi = regGet s.regs gf gi := (bistRow_frame s p).get hl hm

theorem startDevice_get (s : State) (x : StartIn) {gf : Field} {gi : Nat} (hl : gf.id < 20000) (hm : W.startDevice.testBit
    gf.id = false) : regGet (State.startDevice s x).regs gf gi = regGet s.regs gf gi := (startDevice_frame s x).get hl hm

theorem hold_get (s : State) (why : HoldWhy) (cause : Nat) {gf : Field} {gi : Nat} (hl : gf.id < 20000) (hm : W.hold.testBit
    gf.id = false) : regGet (State.hold s why cause).regs gf gi = regGet s.regs gf gi := (hold_frame s why cause).get hl hm

theorem unhold_get (s : State) (why : HoldWhy) (x : StartIn) {gf : Field} {gi : Nat} (hl : gf.id < 20000) (hm :
    W.unhold.testBit gf.id = false) : regGet (State.unhold s why x).regs gf gi = regGet s.regs gf gi := (unhold_frame s why
    x).get hl hm

theorem resetHost_get (s : State) {gf : Field} {gi : Nat} (hl : gf.id < 20000) (hm : W.resetHost.testBit gf.id = false) :
    regGet (s.resetHost).regs gf gi = regGet s.regs gf gi := (resetHost_frame s).get hl hm

theorem verifyOnlyDone_get (s : State) (x : LoadIn) {gf : Field} {gi : Nat} (hl : gf.id < 20000) (hm :
    W.verifyOnlyDone.testBit gf.id = false) : regGet (State.verifyOnlyDone s x).regs gf gi = regGet s.regs gf gi :=
    (verifyOnlyDone_frame s x).get hl hm

theorem closeGates_get (s : State) {gf : Field} {gi : Nat} (hl : gf.id < 20000) (hm : W.closeGates.testBit gf.id = false) :
    regGet (State.closeGates s).regs gf gi = regGet s.regs gf gi := (closeGates_frame s).get hl hm

theorem lrefLoss_get (s : State) (d : Nat) {gf : Field} {gi : Nat} (hl : gf.id < 20000) (hm : W.lrefLoss.testBit gf.id =
    false) : regGet (State.lrefLoss s d).regs gf gi = regGet s.regs gf gi := (lrefLoss_frame s d).get hl hm

theorem sampleOne_get (s : State) (i : Nat) (z : Int) {gf : Field} {gi : Nat} (hl : gf.id < 20000) (hm : W.sampleOne.testBit
    gf.id = false) : regGet (State.sampleOne s i z).regs gf gi = regGet s.regs gf gi := (sampleOne_frame s i z).get hl hm

theorem thermWarn_get (s : State) {gf : Field} {gi : Nat} (hl : gf.id < 20000) (hm : W.thermWarn.testBit gf.id = false) :
    regGet (State.thermWarn s).regs gf gi = regGet s.regs gf gi := (thermWarn_frame s).get hl hm

theorem tempPend_get (s : State) {gf : Field} {gi : Nat} (hl : gf.id < 20000) (hm : W.tempPend.testBit gf.id = false) : regGet
    (State.tempPend s).regs gf gi = regGet s.regs gf gi := (tempPend_frame s).get hl hm

theorem thermTrip_get (s : State) {gf : Field} {gi : Nat} (hl : gf.id < 20000) (hm : W.thermTrip.testBit gf.id = false) :
    regGet (State.thermTrip s).regs gf gi = regGet s.regs gf gi := (thermTrip_frame s).get hl hm

theorem sample_get (s : State) (temps : List Int) {gf : Field} {gi : Nat} (hl : gf.id < 20000) (hm : W.sample.testBit gf.id =
    false) : regGet (State.sample s temps).regs gf gi = regGet s.regs gf gi := (sample_frame s temps).get hl hm

theorem clearFunction_get (s : State) (fn : Nat) {gf : Field} {gi : Nat} (hl : gf.id < 20000) (hm : W.clearFunction.testBit
    gf.id = false) : regGet (State.clearFunction s fn).regs gf gi = regGet s.regs gf gi := (clearFunction_frame s fn).get hl
    hm

theorem clearWindows_get (s : State) {gf : Field} {gi : Nat} (hl : gf.id < 20000) (hm : W.clearWindows.testBit gf.id = false)
    : regGet (s.clearWindows).regs gf gi = regGet s.regs gf gi := (clearWindows_frame s).get hl hm

theorem clearHif_get (s : State) {gf : Field} {gi : Nat} (hl : gf.id < 20000) (hm : W.clearHif.testBit gf.id = false) : regGet
    (s.clearHif).regs gf gi = regGet s.regs gf gi := (clearHif_frame s).get hl hm

theorem clearQueues_get (s : State) {gf : Field} {gi : Nat} (hl : gf.id < 20000) (hm : W.clearQueues.testBit gf.id = false) :
    regGet (s.clearQueues).regs gf gi = regGet s.regs gf gi := (clearQueues_frame s).get hl hm

theorem abortQueues_get (s : State) {gf : Field} {gi : Nat} (hl : gf.id < 20000) (hm : W.abortQueues.testBit gf.id = false) :
    regGet (State.abortQueues s).regs gf gi = regGet s.regs gf gi := (abortQueues_frame s).get hl hm

theorem flrPf0_get (s : State) {gf : Field} {gi : Nat} (hl : gf.id < 20000) (hm : W.flrPf0.testBit gf.id = false) : regGet
    (State.flrPf0 s).regs gf gi = regGet s.regs gf gi := (flrPf0_frame s).get hl hm

theorem flrPf1_get (s : State) {gf : Field} {gi : Nat} (hl : gf.id < 20000) (hm : W.flrPf1.testBit gf.id = false) : regGet
    (State.flrPf1 s).regs gf gi = regGet s.regs gf gi := (flrPf1_frame s).get hl hm

theorem updTrl_get (s : State) (f : TrlS → TrlS) {gf : Field} {gi : Nat} (hl : gf.id < 20000) (hm : W.updTrl.testBit gf.id =
    false) : regGet (State.updTrl s f).regs gf gi = regGet s.regs gf gi := (updTrl_frame s f).get hl hm

theorem setRole_get (s : State) (r : Nat) {gf : Field} {gi : Nat} (hl : gf.id < 20000) (hm : W.setRole.testBit gf.id = false)
    : regGet (State.setRole s r).regs gf gi = regGet s.regs gf gi := (setRole_frame s r).get hl hm

theorem ringOff_get (s : State) {gf : Field} {gi : Nat} (hl : gf.id < 20000) (hm : W.ringOff.testBit gf.id = false) : regGet
    (State.ringOff s).regs gf gi = regGet s.regs gf gi := (ringOff_frame s).get hl hm

theorem ringStart_get (s : State) {gf : Field} {gi : Nat} (hl : gf.id < 20000) (hm : W.ringStart.testBit gf.id = false) :
    regGet (State.ringStart s).regs gf gi = regGet s.regs gf gi := (ringStart_frame s).get hl hm

theorem setHead_get (s : State) (h : Nat) (x : HeadS) {gf : Field} {gi : Nat} (hl : gf.id < 20000) (hm : W.setHead.testBit
    gf.id = false) : regGet (State.setHead s h x).regs gf gi = regGet s.regs gf gi := (setHead_frame s h x).get hl hm

theorem issue_get (s : State) (h : Nat) (o : MediaOp) {gf : Field} {gi : Nat} (hl : gf.id < 20000) (hm : W.issue.testBit gf.id
    = false) : regGet (State.issue s h o).regs gf gi = regGet s.regs gf gi := (issue_frame s h o).get hl hm

theorem waitRead_get (s : State) (o : MediaOp) {gf : Field} {gi : Nat} (hl : gf.id < 20000) (hm : W.waitRead.testBit gf.id =
    false) : regGet (State.waitRead s o).regs gf gi = regGet s.regs gf gi := (waitRead_frame s o).get hl hm

theorem holdRead_get (s : State) (o : MediaOp) {gf : Field} {gi : Nat} (hl : gf.id < 20000) (hm : W.holdRead.testBit gf.id =
    false) : regGet (State.holdRead s o).regs gf gi = regGet s.regs gf gi := (holdRead_frame s o).get hl hm

theorem tryRead_get {s : State} {o : MediaOp} {u : State} (e : State.tryRead s o = some u) {gf : Field} {gi : Nat} (hl : gf.id
    < 20000) (hm : W.tryRead.testBit gf.id = false) : regGet (u).regs gf gi = regGet s.regs gf gi := (tryRead_frame e).get hl
    hm

theorem askLode_get (s : State) (v n x pos : Nat) (test : Bool) {gf : Field} {gi : Nat} (hl : gf.id < 20000) (hm :
    W.askLode.testBit gf.id = false) : regGet (State.askLode s v n x pos test).regs gf gi = regGet s.regs gf gi :=
    (askLode_frame s v n x pos test).get hl hm

theorem issueFirst_get (s : State) (b l : List MediaOp) {gf : Field} {gi : Nat} (hl : gf.id < 20000) (hm :
    W.issueFirst.testBit gf.id = false) : regGet ((issueFirst s b l).1).regs gf gi = regGet s.regs gf gi := (issueFirst_frame
    s b l).get hl hm

theorem issueMany_get (n : Nat) (s : State) {gf : Field} {gi : Nat} (hl : gf.id < 20000) (hm : W.issueMany.testBit gf.id =
    false) : regGet (issueMany n s).regs gf gi = regGet s.regs gf gi := (issueMany_frame n s).get hl hm

theorem issueWaiting_get (s : State) {gf : Field} {gi : Nat} (hl : gf.id < 20000) (hm : W.issueWaiting.testBit gf.id = false)
    : regGet (State.issueWaiting s).regs gf gi = regGet s.regs gf gi := (issueWaiting_frame s).get hl hm

theorem failBand_get (s : State) (h : Nat) (st : Status) {gf : Field} {gi : Nat} (hl : gf.id < 20000) (hm : W.failBand.testBit
    gf.id = false) : regGet (State.failBand s h st).regs gf gi = regGet s.regs gf gi := (failBand_frame s h st).get hl hm

theorem withdraw_get (s : State) (h : Nat) {gf : Field} {gi : Nat} (hl : gf.id < 20000) (hm : W.withdraw.testBit gf.id =
    false) : regGet (State.withdraw s h).regs gf gi = regGet s.regs gf gi := (withdraw_frame s h).get hl hm

theorem endOp_get (s : State) (h : Nat) {gf : Field} {gi : Nat} (hl : gf.id < 20000) (hm : W.endOp.testBit gf.id = false) :
    regGet (State.endOp s h).regs gf gi = regGet s.regs gf gi := (endOp_frame s h).get hl hm

theorem abortLode_get (s : State) (v n x : Nat) {gf : Field} {gi : Nat} (hl : gf.id < 20000) (hm : W.abortLode.testBit gf.id =
    false) : regGet (State.abortLode s v n x).regs gf gi = regGet s.regs gf gi := (abortLode_frame s v n x).get hl hm

theorem interruptRead_get (s : State) (h : Nat) {gf : Field} {gi : Nat} (hl : gf.id < 20000) (hm : W.interruptRead.testBit
    gf.id = false) : regGet (State.interruptRead s h).regs gf gi = regGet s.regs gf gi := (interruptRead_frame s h).get hl hm

theorem requeueJobs_get (s : State) (h : Nat) {gf : Field} {gi : Nat} (hl : gf.id < 20000) (hm : W.requeueJobs.testBit gf.id =
    false) : regGet (State.requeueJobs s h).regs gf gi = regGet s.regs gf gi := (requeueJobs_frame s h).get hl hm

theorem requeueRead_get (s : State) (h : Nat) {gf : Field} {gi : Nat} (hl : gf.id < 20000) (hm : W.requeueRead.testBit gf.id =
    false) : regGet (State.requeueRead s h).regs gf gi = regGet s.regs gf gi := (requeueRead_frame s h).get hl hm

theorem updChan_get (s : State) (c : Nat) (f : ChanS → ChanS) {gf : Field} {gi : Nat} (hl : gf.id < 20000) (hm :
    W.updChan.testBit gf.id = false) : regGet (State.updChan s c f).regs gf gi = regGet s.regs gf gi := (updChan_frame s c
    f).get hl hm

theorem updRx_get (s : State) (c : Nat) (f : RxS → RxS) {gf : Field} {gi : Nat} (hl : gf.id < 20000) (hm : W.updRx.testBit
    gf.id = false) : regGet (State.updRx s c f).regs gf gi = regGet s.regs gf gi := (updRx_frame s c f).get hl hm

theorem dropRuns_get (s : State) (c num env : Nat) {gf : Field} {gi : Nat} (hl : gf.id < 20000) (hm : W.dropRuns.testBit gf.id
    = false) : regGet (State.dropRuns s c num env).regs gf gi = regGet s.regs gf gi := (dropRuns_frame s c num env).get hl hm

theorem dropBegin_get (s : State) (c : Nat) {gf : Field} {gi : Nat} (hl : gf.id < 20000) (hm : W.dropBegin.testBit gf.id =
    false) : regGet (State.dropBegin s c).regs gf gi = regGet s.regs gf gi := (dropBegin_frame s c).get hl hm

theorem adaptTaps_get (s : State) (c : Nat) (e : Int) (win : List Int) {gf : Field} {gi : Nat} (hl : gf.id < 20000) (hm :
    W.adaptTaps.testBit gf.id = false) : regGet (State.adaptTaps s c e win).regs gf gi = regGet s.regs gf gi :=
    (adaptTaps_frame s c e win).get hl hm

theorem wobbleBit_get (s : State) (c : Nat) (p : PendBit) (tent : List Bool) {gf : Field} {gi : Nat} (hl : gf.id < 20000) (hm
    : W.wobbleBit.testBit gf.id = false) : regGet (State.wobbleBit s c p tent).regs gf gi = regGet s.regs gf gi :=
    (wobbleBit_frame s c p tent).get hl hm

theorem tentative_get (s : State) (c : Nat) {gf : Field} {gi : Nat} (hl : gf.id < 20000) (hm : W.tentative.testBit gf.id =
    false) : regGet (State.tentative s c).regs gf gi = regGet s.regs gf gi := (tentative_frame s c).get hl hm

theorem envAverage_get (s : State) (c : Nat) (b : SoftBit) {gf : Field} {gi : Nat} (hl : gf.id < 20000) (hm :
    W.envAverage.testBit gf.id = false) : regGet (State.envAverage s c b).regs gf gi = regGet s.regs gf gi :=
    (envAverage_frame s c b).get hl hm

theorem softOut_get (s : State) (c : Nat) {gf : Field} {gi : Nat} (hl : gf.id < 20000) (hm : W.softOut.testBit gf.id = false)
    : regGet (State.softOut s c).regs gf gi = regGet s.regs gf gi := (softOut_frame s c).get hl hm

theorem equalise_get (s : State) (c : Nat) {gf : Field} {gi : Nat} (hl : gf.id < 20000) (hm : W.equalise.testBit gf.id =
    false) : regGet (State.equalise s c).regs gf gi = regGet s.regs gf gi := (equalise_frame s c).get hl hm

theorem rxBit_get (s : State) (c nb : Nat) (r : Int) (bad : Bool) {gf : Field} {gi : Nat} (hl : gf.id < 20000) (hm :
    W.rxBit.testBit gf.id = false) : regGet (State.rxBit s c nb r bad).regs gf gi = regGet s.regs gf gi := (rxBit_frame s c nb
    r bad).get hl hm

theorem rxBits_get (n : Nat) (s : State) (c before : Nat) {gf : Field} {gi : Nat} (hl : gf.id < 20000) (hm : W.rxBits.testBit
    gf.id = false) : regGet (State.rxBits n s c before).regs gf gi = regGet s.regs gf gi := (rxBits_frame n s c before).get hl
    hm

theorem rxWrap_get (s : State) (c at_ before : Nat) {gf : Field} {gi : Nat} (hl : gf.id < 20000) (hm : W.rxWrap.testBit gf.id
    = false) : regGet (State.rxWrap s c at_ before).regs gf gi = regGet s.regs gf gi := (rxWrap_frame s c at_ before).get hl
    hm

theorem rxSample_get (s : State) (c at_ : Nat) (v : Int) (bad : Bool) {gf : Field} {gi : Nat} (hl : gf.id < 20000) (hm :
    W.rxSample.testBit gf.id = false) : regGet (State.rxSample s c at_ v bad).regs gf gi = regGet s.regs gf gi :=
    (rxSample_frame s c at_ v bad).get hl hm

theorem rfItem_get (s : State) (c : Nat) (p : Popped) {gf : Field} {gi : Nat} (hl : gf.id < 20000) (hm : W.rfItem.testBit
    gf.id = false) : regGet (State.rfItem s c p).regs gf gi = regGet s.regs gf gi := (rfItem_frame s c p).get hl hm

theorem rfFlushed_get (s : State) (c : Nat) {gf : Field} {gi : Nat} (hl : gf.id < 20000) (hm : W.rfFlushed.testBit gf.id =
    false) : regGet (State.rfFlushed s c).regs gf gi = regGet s.regs gf gi := (rfFlushed_frame s c).get hl hm

theorem setSld_get (s : State) (h : Nat) (x : SldS) {gf : Field} {gi : Nat} (hl : gf.id < 20000) (hm : W.setSld.testBit gf.id
    = false) : regGet (State.setSld s h x).regs gf gi = regGet s.regs gf gi := (setSld_frame s h x).get hl hm

theorem updSld_get (s : State) (h : Nat) (f : SldS → SldS) {gf : Field} {gi : Nat} (hl : gf.id < 20000) (hm : W.updSld.testBit
    gf.id = false) : regGet (State.updSld s h f).regs gf gi = regGet s.regs gf gi := (updSld_frame s h f).get hl hm

theorem setAxis_get (s : State) (h st : Nat) {gf : Field} {gi : Nat} (hl : gf.id < 20000) (hm : W.setAxis.testBit gf.id =
    false) : regGet (State.setAxis s h st).regs gf gi = regGet s.regs gf gi := (setAxis_frame s h st).get hl hm

theorem setTarget_get (s : State) (h : Nat) (x : Int) {gf : Field} {gi : Nat} (hl : gf.id < 20000) (hm : W.setTarget.testBit
    gf.id = false) : regGet (State.setTarget s h x).regs gf gi = regGet s.regs gf gi := (setTarget_frame s h x).get hl hm

theorem beginMove_get (s : State) (h : Nat) {gf : Field} {gi : Nat} (hl : gf.id < 20000) (hm : W.beginMove.testBit gf.id =
    false) : regGet (State.beginMove s h).regs gf gi = regGet s.regs gf gi := (beginMove_frame s h).get hl hm

theorem toPark_get (s : State) (h : Nat) (short : Bool) {gf : Field} {gi : Nat} (hl : gf.id < 20000) (hm : W.toPark.testBit
    gf.id = false) : regGet (State.toPark s h short).regs gf gi = regGet s.regs gf gi := (toPark_frame s h short).get hl hm

theorem axisFault_get (s : State) (h : Nat) {gf : Field} {gi : Nat} (hl : gf.id < 20000) (hm : W.axisFault.testBit gf.id =
    false) : regGet (State.axisFault s h).regs gf gi = regGet s.regs gf gi := (axisFault_frame s h).get hl hm

theorem axisOff_get (s : State) (h : Nat) {gf : Field} {gi : Nat} (hl : gf.id < 20000) (hm : W.axisOff.testBit gf.id = false)
    : regGet (State.axisOff s h).regs gf gi = regGet s.regs gf gi := (axisOff_frame s h).get hl hm

theorem axisOverrun_get (s : State) (h : Nat) {gf : Field} {gi : Nat} (hl : gf.id < 20000) (hm : W.axisOverrun.testBit gf.id =
    false) : regGet (State.axisOverrun s h).regs gf gi = regGet s.regs gf gi := (axisOverrun_frame s h).get hl hm

theorem axisOn_get (s : State) (h : Nat) {gf : Field} {gi : Nat} (hl : gf.id < 20000) (hm : W.axisOn.testBit gf.id = false) :
    regGet (State.axisOn s h).regs gf gi = regGet s.regs gf gi := (axisOn_frame s h).get hl hm

theorem axisHeadParked_get (s : State) (h : Nat) {gf : Field} {gi : Nat} (hl : gf.id < 20000) (hm : W.axisHeadParked.testBit
    gf.id = false) : regGet (State.axisHeadParked s h).regs gf gi = regGet s.regs gf gi := (axisHeadParked_frame s h).get hl
    hm

theorem axisHeadSafe_get (s : State) (h : Nat) {gf : Field} {gi : Nat} (hl : gf.id < 20000) (hm : W.axisHeadSafe.testBit gf.id
    = false) : regGet (State.axisHeadSafe s h).regs gf gi = regGet s.regs gf gi := (axisHeadSafe_frame s h).get hl hm

theorem axisHeadOff_get (s : State) (h : Nat) {gf : Field} {gi : Nat} (hl : gf.id < 20000) (hm : W.axisHeadOff.testBit gf.id =
    false) : regGet (State.axisHeadOff s h).regs gf gi = regGet s.regs gf gi := (axisHeadOff_frame s h).get hl hm

theorem profEvents_get (s : State) (h : Nat) (r : ProfStep) {gf : Field} {gi : Nat} (hl : gf.id < 20000) (hm :
    W.profEvents.testBit gf.id = false) : regGet (State.profEvents s h r).regs gf gi = regGet s.regs gf gi :=
    (profEvents_frame s h r).get hl hm

theorem runProfile_get (s : State) (h : Nat) {gf : Field} {gi : Nat} (hl : gf.id < 20000) (hm : W.runProfile.testBit gf.id =
    false) : regGet ((State.runProfile s h).1).regs gf gi = regGet s.regs gf gi := (runProfile_frame s h).get hl hm

theorem homePhase_get (s : State) (h ph : Nat) (x : Int) (trip : Bool) {gf : Field} {gi : Nat} (hl : gf.id < 20000) (hm :
    W.homePhase.testBit gf.id = false) : regGet (State.homePhase s h ph x trip).regs gf gi = regGet s.regs gf gi :=
    (homePhase_frame s h ph x trip).get hl hm

theorem startHoming_get (s : State) (h : Nat) {gf : Field} {gi : Nat} (hl : gf.id < 20000) (hm : W.startHoming.testBit gf.id =
    false) : regGet (State.startHoming s h).regs gf gi = regGet s.regs gf gi := (startHoming_frame s h).get hl hm

theorem homeTravel_get (s : State) (h : Nat) {gf : Field} {gi : Nat} (hl : gf.id < 20000) (hm : W.homeTravel.testBit gf.id =
    false) : regGet (State.homeTravel s h).regs gf gi = regGet s.regs gf gi := (homeTravel_frame s h).get hl hm

theorem homeFail_get (s : State) (h : Nat) {gf : Field} {gi : Nat} (hl : gf.id < 20000) (hm : W.homeFail.testBit gf.id =
    false) : regGet (State.homeFail s h).regs gf gi = regGet s.regs gf gi := (homeFail_frame s h).get hl hm

theorem homeArrive_get (s : State) (h : Nat) {gf : Field} {gi : Nat} (hl : gf.id < 20000) (hm : W.homeArrive.testBit gf.id =
    false) : regGet ((State.homeArrive s h).1).regs gf gi = regGet s.regs gf gi := (homeArrive_frame s h).get hl hm

theorem homeFound_get (s : State) (h : Nat) {gf : Field} {gi : Nat} (hl : gf.id < 20000) (hm : W.homeFound.testBit gf.id =
    false) : regGet (State.homeFound s h).regs gf gi = regGet s.regs gf gi := (homeFound_frame s h).get hl hm

theorem homeSwitch_get (s : State) (h : Nat) (active : Bool) {gf : Field} {gi : Nat} (hl : gf.id < 20000) (hm :
    W.homeSwitch.testBit gf.id = false) : regGet (State.homeSwitch s h active).regs gf gi = regGet s.regs gf gi :=
    (homeSwitch_frame s h active).get hl hm

theorem takeTargets_get (s : State) (h : Nat) {gf : Field} {gi : Nat} (hl : gf.id < 20000) (hm : W.takeTargets.testBit gf.id =
    false) : regGet (State.takeTargets s h).regs gf gi = regGet s.regs gf gi := (takeTargets_frame s h).get hl hm

theorem deliverAcc_get (s : State) (h : Nat) {gf : Field} {gi : Nat} (hl : gf.id < 20000) (hm : W.deliverAcc.testBit gf.id =
    false) : regGet (State.deliverAcc s h).regs gf gi = regGet s.regs gf gi := (deliverAcc_frame s h).get hl hm

theorem axisStep_get (s : State) (h : Nat) {gf : Field} {gi : Nat} (hl : gf.id < 20000) (hm : W.axisStep.testBit gf.id =
    false) : regGet ((State.axisStep s h).1).regs gf gi = regGet s.regs gf gi := (axisStep_frame s h).get hl hm

theorem limitSample_get (s : State) (h : Nat) (v : Option Bool) {gf : Field} {gi : Nat} (hl : gf.id < 20000) (hm :
    W.limitSample.testBit gf.id = false) : regGet (State.limitSample s h v).regs gf gi = regGet s.regs gf gi :=
    (limitSample_frame s h v).get hl hm

theorem chatter_get (s : State) (h : Nat) {gf : Field} {gi : Nat} (hl : gf.id < 20000) (hm : W.chatter.testBit gf.id = false)
    : regGet ((State.chatter s h).1).regs gf gi = regGet s.regs gf gi := (chatter_frame s h).get hl hm

theorem writeTarget_get (s : State) (h w : Nat) {gf : Field} {gi : Nat} (hl : gf.id < 20000) (hm : W.writeTarget.testBit gf.id
    = false) : regGet (State.writeTarget s h w).regs gf gi = regGet s.regs gf gi := (writeTarget_frame s h w).get hl hm

theorem groupGo_get (s : State) (mask : Nat) {gf : Field} {gi : Nat} (hl : gf.id < 20000) (hm : W.groupGo.testBit gf.id =
    false) : regGet (State.groupGo s mask).regs gf gi = regGet s.regs gf gi := (groupGo_frame s mask).get hl hm

theorem sledStop_get (s : State) (h : Nat) {gf : Field} {gi : Nat} (hl : gf.id < 20000) (hm : W.sledStop.testBit gf.id =
    false) : regGet (State.sledStop s h).regs gf gi = regGet s.regs gf gi := (sledStop_frame s h).get hl hm

theorem sledPark_get (s : State) (h : Nat) {gf : Field} {gi : Nat} (hl : gf.id < 20000) (hm : W.sledPark.testBit gf.id =
    false) : regGet (State.sledPark s h).regs gf gi = regGet s.regs gf gi := (sledPark_frame s h).get hl hm

theorem sledDisable_get (s : State) (h : Nat) {gf : Field} {gi : Nat} (hl : gf.id < 20000) (hm : W.sledDisable.testBit gf.id =
    false) : regGet (State.sledDisable s h).regs gf gi = regGet s.regs gf gi := (sledDisable_frame s h).get hl hm

theorem limitHit_get (s : State) (h : Nat) {gf : Field} {gi : Nat} (hl : gf.id < 20000) (hm : W.limitHit.testBit gf.id =
    false) : regGet (State.limitHit s h).regs gf gi = regGet s.regs gf gi := (limitHit_frame s h).get hl hm

theorem limitChange_get (s : State) (h : Nat) {gf : Field} {gi : Nat} (hl : gf.id < 20000) (hm : W.limitChange.testBit gf.id =
    false) : regGet (State.limitChange s h).regs gf gi = regGet s.regs gf gi := (limitChange_frame s h).get hl hm

theorem correctedErr_get (s : State) (x : Nat) {gf : Field} {gi : Nat} (hl : gf.id < 20000) (hm : W.correctedErr.testBit gf.id
    = false) : regGet (State.correctedErr s x).regs gf gi = regGet s.regs gf gi := (correctedErr_frame s x).get hl hm

theorem uncorrectable_get (s : State) (cls : Nat) (poison : Bool) (src addr : Nat) {gf : Field} {gi : Nat} (hl : gf.id <
    20000) (hm : W.uncorrectable.testBit gf.id = false) : regGet (State.uncorrectable s cls poison src addr).regs gf gi =
    regGet s.regs gf gi := (uncorrectable_frame s cls poison src addr).get hl hm

theorem goodCheck_get (s : State) (a : Nat) {gf : Field} {gi : Nat} (hl : gf.id < 20000) (hm : W.goodCheck.testBit gf.id =
    false) : regGet (State.goodCheck s a).regs gf gi = regGet s.regs gf gi := (goodCheck_frame s a).get hl hm

theorem tableReject_get (s : State) (r : RegDef) (i : Nat) {gf : Field} {gi : Nat} (hl : gf.id < 20000) (hm :
    W.tableReject.testBit gf.id = false) : regGet (State.tableReject s r i).regs gf gi = regGet s.regs gf gi :=
    (tableReject_frame s r i).get hl hm

theorem logReject_get (s : State) (kind a : Nat) {gf : Field} {gi : Nat} (hl : gf.id < 20000) (hm : W.logReject.testBit gf.id
    = false) : regGet (State.logReject s kind a).regs gf gi = regGet s.regs gf gi := (logReject_frame s kind a).get hl hm

theorem narrow_get (s : State) (a : Nat) {gf : Field} {gi : Nat} (hl : gf.id < 20000) (hm : W.narrow.testBit gf.id = false) :
    regGet (State.narrow s a).regs gf gi = regGet s.regs gf gi := (narrow_frame s a).get hl hm

theorem flushAsm_get (s : State) {gf : Field} {gi : Nat} (hl : gf.id < 20000) (hm : W.flushAsm.testBit gf.id = false) : regGet
    (State.flushAsm s).regs gf gi = regGet s.regs gf gi := (flushAsm_frame s).get hl hm

theorem sledWatch_get (s : State) (h : Nat) {gf : Field} {gi : Nat} (hl : gf.id < 20000) (hm : W.sledWatch.testBit gf.id =
    false) : regGet (State.sledWatch s h).regs gf gi = regGet s.regs gf gi := (sledWatch_frame s h).get hl hm

theorem profileHead_get (s : State) (h : Nat) {gf : Field} {gi : Nat} (hl : gf.id < 20000) (hm : W.profileHead.testBit gf.id =
    false) : regGet (State.profileHead s h).regs gf gi = regGet s.regs gf gi := (profileHead_frame s h).get hl hm

theorem speedUsers_get (s : State) (d : Nat) {gf : Field} {gi : Nat} (hl : gf.id < 20000) (hm : W.speedUsers.testBit gf.id =
    false) : regGet (State.speedUsers s d).regs gf gi = regGet s.regs gf gi := (speedUsers_frame s d).get hl hm

theorem writeTckCtl_get (s : State) (w : Nat) {gf : Field} {gi : Nat} (hl : gf.id < 20000) (hm : W.writeTckCtl.testBit gf.id =
    false) : regGet (State.writeTckCtl s w).regs gf gi = regGet s.regs gf gi := (writeTckCtl_frame s w).get hl hm

theorem writeAsyDeadline_get (s : State) (w : Nat) {gf : Field} {gi : Nat} (hl : gf.id < 20000) (hm :
    W.writeAsyDeadline.testBit gf.id = false) : regGet (State.writeAsyDeadline s w).regs gf gi = regGet s.regs gf gi :=
    (writeAsyDeadline_frame s w).get hl hm

theorem readCount_get (s : State) {gf : Field} {gi : Nat} (hl : gf.id < 20000) (hm : W.readCount.testBit gf.id = false) :
    regGet ((State.readCount s).1).regs gf gi = regGet s.regs gf gi := (readCount_frame s).get hl hm

theorem updWrite_get (s : State) (h : Nat) (f : WriteS → WriteS) {gf : Field} {gi : Nat} (hl : gf.id < 20000) (hm :
    W.updWrite.testBit gf.id = false) : regGet (State.updWrite s h f).regs gf gi = regGet s.regs gf gi := (updWrite_frame s h
    f).get hl hm

theorem sendTick_get (s : State) (h : Nat) {gf : Field} {gi : Nat} (hl : gf.id < 20000) (hm : W.sendTick.testBit gf.id =
    false) : regGet (State.sendTick s h).regs gf gi = regGet s.regs gf gi := (sendTick_frame s h).get hl hm

theorem headOff_get (s : State) (h : Nat) {gf : Field} {gi : Nat} (hl : gf.id < 20000) (hm : W.headOff.testBit gf.id = false)
    : regGet (State.headOff s h).regs gf gi = regGet s.regs gf gi := (headOff_frame s h).get hl hm

theorem cmdAck_get (s : State) (h seq result : Nat) {gf : Field} {gi : Nat} (hl : gf.id < 20000) (hm : W.cmdAck.testBit gf.id
    = false) : regGet (State.cmdAck s h seq result).regs gf gi = regGet s.regs gf gi := (cmdAck_frame s h seq result).get hl
    hm

theorem statusFaults_get (s : State) (h fault : Nat) (dlock : Bool) {gf : Field} {gi : Nat} (hl : gf.id < 20000) (hm :
    W.statusFaults.testBit gf.id = false) : regGet (State.statusFaults s h fault dlock).regs gf gi = regGet s.regs gf gi :=
    (statusFaults_frame s h fault dlock).get hl hm

theorem takeStatus_get (s : State) (h : Nat) {gf : Field} {gi : Nat} (hl : gf.id < 20000) (hm : W.takeStatus.testBit gf.id =
    false) : regGet (State.takeStatus s h).regs gf gi = regGet s.regs gf gi := (takeStatus_frame s h).get hl hm

theorem endWindow_get (s : State) (h : Nat) (w : Nat × Nat) {gf : Field} {gi : Nat} (hl : gf.id < 20000) (hm :
    W.endWindow.testBit gf.id = false) : regGet (State.endWindow s h w).regs gf gi = regGet s.regs gf gi := (endWindow_frame s
    h w).get hl hm

theorem focusOk_get (s : State) (h : Nat) {gf : Field} {gi : Nat} (hl : gf.id < 20000) (hm : W.focusOk.testBit gf.id = false)
    : regGet (State.focusOk s h).regs gf gi = regGet s.regs gf gi := (focusOk_frame s h).get hl hm

theorem trackFlag_get (s : State) (h : Nat) {gf : Field} {gi : Nat} (hl : gf.id < 20000) (hm : W.trackFlag.testBit gf.id =
    false) : regGet (State.trackFlag s h).regs gf gi = regGet s.regs gf gi := (trackFlag_frame s h).get hl hm

theorem shock_get (s : State) (h : Nat) {gf : Field} {gi : Nat} (hl : gf.id < 20000) (hm : W.shock.testBit gf.id = false) :
    regGet (State.shock s h).regs gf gi = regGet s.regs gf gi := (shock_frame s h).get hl hm

theorem slip_get (s : State) (h : Nat) {gf : Field} {gi : Nat} (hl : gf.id < 20000) (hm : W.slip.testBit gf.id = false) :
    regGet (State.slip s h).regs gf gi = regGet s.regs gf gi := (slip_frame s h).get hl hm

theorem slipOrLoss_get (s : State) (h : Nat) (dx : Int) {gf : Field} {gi : Nat} (hl : gf.id < 20000) (hm :
    W.slipOrLoss.testBit gf.id = false) : regGet (State.slipOrLoss s h dx).regs gf gi = regGet s.regs gf gi :=
    (slipOrLoss_frame s h dx).get hl hm

theorem tickCounts_get (s : State) (h : Nat) (ok : Bool) {gf : Field} {gi : Nat} (hl : gf.id < 20000) (hm :
    W.tickCounts.testBit gf.id = false) : regGet (State.tickCounts s h ok).regs gf gi = regGet s.regs gf gi :=
    (tickCounts_frame s h ok).get hl hm

theorem openDrives_get (s : State) (h : Nat) {gf : Field} {gi : Nat} (hl : gf.id < 20000) (hm : W.openDrives.testBit gf.id =
    false) : regGet (State.openDrives s h).regs gf gi = regGet s.regs gf gi := (openDrives_frame s h).get hl hm

theorem holdLens_get (s : State) (h : Nat) {gf : Field} {gi : Nat} (hl : gf.id < 20000) (hm : W.holdLens.testBit gf.id =
    false) : regGet (State.holdLens s h).regs gf gi = regGet s.regs gf gi := (holdLens_frame s h).get hl hm

theorem sendWrites_get (s : State) (h : Nat) {gf : Field} {gi : Nat} (hl : gf.id < 20000) (hm : W.sendWrites.testBit gf.id =
    false) : regGet (State.sendWrites s h).regs gf gi = regGet s.regs gf gi := (sendWrites_frame s h).get hl hm

theorem writeSlot_get (s : State) (h j : Nat) (bits : Nat → List Bool) {gf : Field} {gi : Nat} (hl : gf.id < 20000) (hm :
    W.writeSlot.testBit gf.id = false) : regGet (State.writeSlot s h j bits).regs gf gi = regGet s.regs gf gi :=
    (writeSlot_frame s h j bits).get hl hm

theorem writesPass_get (s : State) (h : Nat) (win : Nat × Nat) {gf : Field} {gi : Nat} (hl : gf.id < 20000) (hm :
    W.writesPass.testBit gf.id = false) : regGet (State.writesPass s h win).regs gf gi = regGet s.regs gf gi :=
    (writesPass_frame s h win).get hl hm

theorem verifySlot_get {s : State} {h : Nat} {l : SealedLode} {u : State} (e : State.verifySlot s h l = some u) {gf : Field}
    {gi : Nat} (hl : gf.id < 20000) (hm : W.verifySlot.testBit gf.id = false) : regGet (u).regs gf gi = regGet s.regs gf gi :=
    (verifySlot_frame e).get hl hm

theorem beginSlot_get (s : State) (h j : Nat) (x : Target) {gf : Field} {gi : Nat} (hl : gf.id < 20000) (hm :
    W.beginSlot.testBit gf.id = false) : regGet (State.beginSlot s h j x).regs gf gi = regGet s.regs gf gi := (beginSlot_frame
    s h j x).get hl hm

theorem freezeOut_get (s : State) (h : Nat) {gf : Field} {gi : Nat} (hl : gf.id < 20000) (hm : W.freezeOut.testBit gf.id =
    false) : regGet (State.freezeOut s h).regs gf gi = regGet s.regs gf gi := (freezeOut_frame s h).get hl hm

theorem recordEnd_get (s : State) (h : Nat) (win : Nat × Nat) {gf : Field} {gi : Nat} (hl : gf.id < 20000) (hm :
    W.recordEnd.testBit gf.id = false) : regGet (State.recordEnd s h win).regs gf gi = regGet s.regs gf gi := (recordEnd_frame
    s h win).get hl hm

theorem stepPower_get (s : State) (h : Nat) (next : Nat × Nat) {gf : Field} {gi : Nat} (hl : gf.id < 20000) (hm :
    W.stepPower.testBit gf.id = false) : regGet (State.stepPower s h next).regs gf gi = regGet s.regs gf gi :=
    (stepPower_frame s h next).get hl hm

theorem edgeTick_get (s : State) (h : Nat) (win : Nat × Nat) {gf : Field} {gi : Nat} (hl : gf.id < 20000) (hm :
    W.edgeTick.testBit gf.id = false) : regGet (State.edgeTick s h win).regs gf gi = regGet s.regs gf gi := (edgeTick_frame s
    h win).get hl hm

theorem gateTick_get (s : State) (h : Nat) (permit : Bool) (win : Nat × Nat) {gf : Field} {gi : Nat} (hl : gf.id < 20000) (hm
    : W.gateTick.testBit gf.id = false) : regGet (State.gateTick s h permit win).regs gf gi = regGet s.regs gf gi :=
    (gateTick_frame s h permit win).get hl hm

theorem verifyTick_get (s : State) (h : Nat) (win : Nat × Nat) {gf : Field} {gi : Nat} (hl : gf.id < 20000) (hm :
    W.verifyTick.testBit gf.id = false) : regGet (State.verifyTick s h win).regs gf gi = regGet s.regs gf gi :=
    (verifyTick_frame s h win).get hl hm

theorem readTick_get (s : State) (h : Nat) (win : Nat × Nat) {gf : Field} {gi : Nat} (hl : gf.id < 20000) (hm :
    W.readTick.testBit gf.id = false) : regGet (State.readTick s h win).regs gf gi = regGet s.regs gf gi := (readTick_frame s
    h win).get hl hm

theorem ovrWindow_get (s : State) (h : Nat) {gf : Field} {gi : Nat} (hl : gf.id < 20000) (hm : W.ovrWindow.testBit gf.id =
    false) : regGet (State.ovrWindow s h).regs gf gi = regGet s.regs gf gi := (ovrWindow_frame s h).get hl hm

theorem overrun_get (s : State) (h : Nat) {gf : Field} {gi : Nat} (hl : gf.id < 20000) (hm : W.overrun.testBit gf.id = false)
    : regGet (State.overrun s h).regs gf gi = regGet s.regs gf gi := (overrun_frame s h).get hl hm

theorem collierGood_get (s : State) (h : Nat) (p : Popped) {gf : Field} {gi : Nat} (hl : gf.id < 20000) (hm :
    W.collierGood.testBit gf.id = false) : regGet (State.collierGood s h p).regs gf gi = regGet s.regs gf gi :=
    (collierGood_frame s h p).get hl hm

theorem collierBad_get (s : State) (h : Nat) {gf : Field} {gi : Nat} (hl : gf.id < 20000) (hm : W.collierBad.testBit gf.id =
    false) : regGet (State.collierBad s h).regs gf gi = regGet s.regs gf gi := (collierBad_frame s h).get hl hm

theorem headTick_get (s : State) (h cyc : Nat) {gf : Field} {gi : Nat} (hl : gf.id < 20000) (hm : W.headTick.testBit gf.id =
    false) : regGet (State.headTick s h cyc).regs gf gi = regGet s.regs gf gi := (headTick_frame s h cyc).get hl hm

theorem deckTick_get (s : State) (d : Nat) (short : Option (Nat × Nat)) {gf : Field} {gi : Nat} (hl : gf.id < 20000) (hm :
    W.deckTick.testBit gf.id = false) : regGet (State.deckTick s d short).regs gf gi = regGet s.regs gf gi := (deckTick_frame
    s d short).get hl hm

theorem discFollow_get (s : State) (before : Bool) {gf : Field} {gi : Nat} (hl : gf.id < 20000) (hm : W.discFollow.testBit
    gf.id = false) : regGet (State.discFollow s before).regs gf gi = regGet s.regs gf gi := (discFollow_frame s before).get hl
    hm

theorem strobe_get (s : State) {gf : Field} {gi : Nat} (hl : gf.id < 20000) (hm : W.strobe.testBit gf.id = false) : regGet
    (State.strobe s).regs gf gi = regGet s.regs gf gi := (strobe_frame s).get hl hm

theorem servoTick_get (s : State) (shorts : List (Option (Nat × Nat))) (cyc : List Nat) {gf : Field} {gi : Nat} (hl : gf.id <
    20000) (hm : W.servoTick.testBit gf.id = false) : regGet (State.servoTick s shorts cyc).regs gf gi = regGet s.regs gf gi
    := (servoTick_frame s shorts cyc).get hl hm

theorem ringTick_get (s : State) (slot : Bool) {gf : Field} {gi : Nat} (hl : gf.id < 20000) (hm : W.ringTick.testBit gf.id =
    false) : regGet (State.ringTick s slot).regs gf gi = regGet s.regs gf gi := (ringTick_frame s slot).get hl hm

theorem enableRing_get (s : State) {gf : Field} {gi : Nat} (hl : gf.id < 20000) (hm : W.enableRing.testBit gf.id = false) :
    regGet (State.enableRing s).regs gf gi = regGet s.regs gf gi := (enableRing_frame s).get hl hm

theorem disableRing_get (s : State) {gf : Field} {gi : Nat} (hl : gf.id < 20000) (hm : W.disableRing.testBit gf.id = false) :
    regGet (State.disableRing s).regs gf gi = regGet s.regs gf gi := (disableRing_frame s).get hl hm

theorem writeElect_get (s : State) {gf : Field} {gi : Nat} (hl : gf.id < 20000) (hm : W.writeElect.testBit gf.id = false) :
    regGet (State.writeElect s).regs gf gi = regGet s.regs gf gi := (writeElect_frame s).get hl hm

theorem claimOther_get (s : State) (serial time : Nat) {gf : Field} {gi : Nat} (hl : gf.id < 20000) (hm : W.claimOther.testBit
    gf.id = false) : regGet (State.claimOther s serial time).regs gf gi = regGet s.regs gf gi := (claimOther_frame s serial
    time).get hl hm

theorem claimArrives_get (s : State) (serial time : Nat) {gf : Field} {gi : Nat} (hl : gf.id < 20000) (hm :
    W.claimArrives.testBit gf.id = false) : regGet (State.claimArrives s serial time).regs gf gi = regGet s.regs gf gi :=
    (claimArrives_frame s serial time).get hl hm

theorem forward_get (s : State) (x : FrameIn) (status : List (Nat × List Nat)) {gf : Field} {gi : Nat} (hl : gf.id < 20000)
    (hm : W.forward.testBit gf.id = false) : regGet (State.forward s x status).regs gf gi = regGet s.regs gf gi :=
    (forward_frame s x status).get hl hm

theorem takeFrame_get (s : State) (x : FrameIn) {gf : Field} {gi : Nat} (hl : gf.id < 20000) (hm : W.takeFrame.testBit gf.id =
    false) : regGet (State.takeFrame s x).regs gf gi = regGet s.regs gf gi := (takeFrame_frame s x).get hl hm

theorem frameArrives_get (s : State) (x : FrameIn) {gf : Field} {gi : Nat} (hl : gf.id < 20000) (hm : W.frameArrives.testBit
    gf.id = false) : regGet (State.frameArrives s x).regs gf gi = regGet s.regs gf gi := (frameArrives_frame s x).get hl hm

theorem frameReturns_get (s : State) (lap path : Nat) (err : Int) (status : List (List Nat)) {gf : Field} {gi : Nat} (hl :
    gf.id < 20000) (hm : W.frameReturns.testBit gf.id = false) : regGet (State.frameReturns s lap path err status).regs gf gi
    = regGet s.regs gf gi := (frameReturns_frame s lap path err status).get hl hm

theorem passOn_get (s : State) (m : MsgIn) (delivered busy : Bool) {gf : Field} {gi : Nat} (hl : gf.id < 20000) (hm :
    W.passOn.testBit gf.id = false) : regGet (State.passOn s m delivered busy).regs gf gi = regGet s.regs gf gi :=
    (passOn_frame s m delivered busy).get hl hm

theorem mgmtArrives_get (s : State) (m : MsgIn) {gf : Field} {gi : Nat} (hl : gf.id < 20000) (hm : W.mgmtArrives.testBit gf.id
    = false) : regGet (State.mgmtArrives s m).regs gf gi = regGet s.regs gf gi := (mgmtArrives_frame s m).get hl hm

theorem txGo_get (s : State) {gf : Field} {gi : Nat} (hl : gf.id < 20000) (hm : W.txGo.testBit gf.id = false) : regGet
    (State.txGo s).regs gf gi = regGet s.regs gf gi := (txGo_frame s).get hl hm

theorem writeTxCtl_get (s : State) (w : Nat) {gf : Field} {gi : Nat} (hl : gf.id < 20000) (hm : W.writeTxCtl.testBit gf.id =
    false) : regGet (State.writeTxCtl s w).regs gf gi = regGet s.regs gf gi := (writeTxCtl_frame s w).get hl hm

theorem msgReturns_get (s : State) (m : MsgIn) (sigOk : Bool) {gf : Field} {gi : Nat} (hl : gf.id < 20000) (hm :
    W.msgReturns.testBit gf.id = false) : regGet (State.msgReturns s m sigOk).regs gf gi = regGet s.regs gf gi :=
    (msgReturns_frame s m sigOk).get hl hm

theorem shiftGo_get (s : State) {gf : Field} {gi : Nat} (hl : gf.id < 20000) (hm : W.shiftGo.testBit gf.id = false) : regGet
    (State.shiftGo s).regs gf gi = regGet s.regs gf gi := (shiftGo_frame s).get hl hm

theorem writeShiftCtl_get (s : State) (w : Nat) {gf : Field} {gi : Nat} (hl : gf.id < 20000) (hm : W.writeShiftCtl.testBit
    gf.id = false) : regGet (State.writeShiftCtl s w).regs gf gi = regGet s.regs gf gi := (writeShiftCtl_frame s w).get hl hm

theorem exclGo_get (s : State) {gf : Field} {gi : Nat} (hl : gf.id < 20000) (hm : W.exclGo.testBit gf.id = false) : regGet
    (State.exclGo s).regs gf gi = regGet s.regs gf gi := (exclGo_frame s).get hl hm

theorem writeExclCtl_get (s : State) (w : Nat) {gf : Field} {gi : Nat} (hl : gf.id < 20000) (hm : W.writeExclCtl.testBit gf.id
    = false) : regGet (State.writeExclCtl s w).regs gf gi = regGet s.regs gf gi := (writeExclCtl_frame s w).get hl hm

theorem readRingTime_get (s : State) {gf : Field} {gi : Nat} (hl : gf.id < 20000) (hm : W.readRingTime.testBit gf.id = false)
    : regGet ((State.readRingTime s).1).regs gf gi = regGet s.regs gf gi := (readRingTime_frame s).get hl hm

theorem ringLockLoss_get (s : State) {gf : Field} {gi : Nat} (hl : gf.id < 20000) (hm : W.ringLockLoss.testBit gf.id = false)
    : regGet (State.ringLockLoss s).regs gf gi = regGet s.regs gf gi := (ringLockLoss_frame s).get hl hm

theorem discLock_get (s : State) (e : Nat) {gf : Field} {gi : Nat} (hl : gf.id < 20000) (hm : W.discLock.testBit gf.id =
    false) : regGet (State.discLock s e).regs gf gi = regGet s.regs gf gi := (discLock_frame s e).get hl hm

theorem stepPhase_get (s : State) (e : Int) {gf : Field} {gi : Nat} (hl : gf.id < 20000) (hm : W.stepPhase.testBit gf.id =
    false) : regGet (State.stepPhase s e).regs gf gi = regGet s.regs gf gi := (stepPhase_frame s e).get hl hm

theorem measure_get (s : State) (e : Int) {gf : Field} {gi : Nat} (hl : gf.id < 20000) (hm : W.measure.testBit gf.id = false)
    : regGet (State.measure s e).regs gf gi = regGet s.regs gf gi := (measure_frame s e).get hl hm

theorem putUnits_get (s : State) (status : List (List Nat)) {gf : Field} {gi : Nat} (hl : gf.id < 20000) (hm :
    W.putUnits.testBit gf.id = false) : regGet (s.putUnits status).regs gf gi = regGet s.regs gf gi := (putUnits_frame s
    status).get hl hm

theorem frameFlags_get (s : State) (mixed opened : Bool) {gf : Field} {gi : Nat} (hl : gf.id < 20000) (hm :
    W.frameFlags.testBit gf.id = false) : regGet (State.frameFlags s mixed opened).regs gf gi = regGet s.regs gf gi :=
    (frameFlags_frame s mixed opened).get hl hm

theorem frameExcl_get (s : State) (b : Bool) {gf : Field} {gi : Nat} (hl : gf.id < 20000) (hm : W.frameExcl.testBit gf.id =
    false) : regGet (State.frameExcl s b).regs gf gi = regGet s.regs gf gi := (frameExcl_frame s b).get hl hm

theorem shiftResult_get (s : State) (r : Nat) {gf : Field} {gi : Nat} (hl : gf.id < 20000) (hm : W.shiftResult.testBit gf.id =
    false) : regGet (State.shiftResult s r).regs gf gi = regGet s.regs gf gi := (shiftResult_frame s r).get hl hm

theorem shiftBlock_get (s : State) (phase e f : Nat) {gf : Field} {gi : Nat} (hl : gf.id < 20000) (hm : W.shiftBlock.testBit
    gf.id = false) : regGet (State.shiftBlock s phase e f).regs gf gi = regGet s.regs gf gi := (shiftBlock_frame s phase e
    f).get hl hm

theorem queueMsg_get (s : State) (why : TxFor) (m : RingMsg) {gf : Field} {gi : Nat} (hl : gf.id < 20000) (hm :
    W.queueMsg.testBit gf.id = false) : regGet (State.queueMsg s why m).regs gf gi = regGet s.regs gf gi := (queueMsg_frame s
    why m).get hl hm

theorem sendMsg_get (s : State) {gf : Field} {gi : Nat} (hl : gf.id < 20000) (hm : W.sendMsg.testBit gf.id = false) : regGet
    (State.sendMsg s).regs gf gi = regGet s.regs gf gi := (sendMsg_frame s).get hl hm

theorem msgResult_get (s : State) (x : TxMsg) (delivered busy lost : Bool) {gf : Field} {gi : Nat} (hl : gf.id < 20000) (hm :
    W.msgResult.testBit gf.id = false) : regGet (State.msgResult s x delivered busy lost).regs gf gi = regGet s.regs gf gi :=
    (msgResult_frame s x delivered busy lost).get hl hm

theorem loseMsg_get (s : State) (x : TxMsg) {gf : Field} {gi : Nat} (hl : gf.id < 20000) (hm : W.loseMsg.testBit gf.id =
    false) : regGet (State.loseMsg s x).regs gf gi = regGet s.regs gf gi := (loseMsg_frame s x).get hl hm

theorem leaveRing_get (s : State) {gf : Field} {gi : Nat} (hl : gf.id < 20000) (hm : W.leaveRing.testBit gf.id = false) :
    regGet (State.leaveRing s).regs gf gi = regGet s.regs gf gi := (leaveRing_frame s).get hl hm

theorem originate_get (s : State) (slot : Bool) {gf : Field} {gi : Nat} (hl : gf.id < 20000) (hm : W.originate.testBit gf.id =
    false) : regGet (State.originate s slot).regs gf gi = regGet s.regs gf gi := (originate_frame s slot).get hl hm

theorem headShift_get (s : State) (e lead collect : Nat) {gf : Field} {gi : Nat} (hl : gf.id < 20000) (hm :
    W.headShift.testBit gf.id = false) : regGet ((State.headShift s e lead collect).1).regs gf gi = regGet s.regs gf gi :=
    (headShift_frame s e lead collect).get hl hm

theorem headExclude_get (s : State) (serial : Nat) (add : Bool) {gf : Field} {gi : Nat} (hl : gf.id < 20000) (hm :
    W.headExclude.testBit gf.id = false) : regGet (State.headExclude s serial add).regs gf gi = regGet s.regs gf gi :=
    (headExclude_frame s serial add).get hl hm

theorem judgeMixed_get (s : State) {gf : Field} {gi : Nat} (hl : gf.id < 20000) (hm : W.judgeMixed.testBit gf.id = false) :
    regGet (State.judgeMixed s).regs gf gi = regGet s.regs gf gi := (judgeMixed_frame s).get hl hm

theorem collect_get (s : State) {gf : Field} {gi : Nat} (hl : gf.id < 20000) (hm : W.collect.testBit gf.id = false) : regGet
    (State.collect s).regs gf gi = regGet s.regs gf gi := (collect_frame s).get hl hm

theorem showHead_get (s : State) (n : Nat) {gf : Field} {gi : Nat} (hl : gf.id < 20000) (hm : W.showHead.testBit gf.id =
    false) : regGet (State.showHead s n).regs gf gi = regGet s.regs gf gi := (showHead_frame s n).get hl hm

theorem enterElect_get (s : State) {gf : Field} {gi : Nat} (hl : gf.id < 20000) (hm : W.enterElect.testBit gf.id = false) :
    regGet (State.enterElect s).regs gf gi = regGet s.regs gf gi := (enterElect_frame s).get hl hm

theorem claim_get (s : State) {gf : Field} {gi : Nat} (hl : gf.id < 20000) (hm : W.claim.testBit gf.id = false) : regGet
    (State.claim s).regs gf gi = regGet s.regs gf gi := (claim_frame s).get hl hm

theorem winElection_get (s : State) (time : Nat) {gf : Field} {gi : Nat} (hl : gf.id < 20000) (hm : W.winElection.testBit
    gf.id = false) : regGet (State.winElection s time).regs gf gi = regGet s.regs gf gi := (winElection_frame s time).get hl
    hm

theorem obsLate_get (s : State) (d : Nat) {gf : Field} {gi : Nat} (hl : gf.id < 20000) (hm : W.obsLate.testBit gf.id = false)
    : regGet (State.obsLate s d).regs gf gi = regGet s.regs gf gi := (obsLate_frame s d).get hl hm

theorem wndOvr_get (s : State) (d : Nat) {gf : Field} {gi : Nat} (hl : gf.id < 20000) (hm : W.wndOvr.testBit gf.id = false) :
    regGet (State.wndOvr s d).regs gf gi = regGet s.regs gf gi := (wndOvr_frame s d).get hl hm

theorem wndReject_get (s : State) (d : Nat) {gf : Field} {gi : Nat} (hl : gf.id < 20000) (hm : W.wndReject.testBit gf.id =
    false) : regGet (State.wndReject s d).regs gf gi = regGet s.regs gf gi := (wndReject_frame s d).get hl hm

theorem deckLoad_get (s : State) (d : Nat) {gf : Field} {gi : Nat} (hl : gf.id < 20000) (hm : W.deckLoad.testBit gf.id =
    false) : regGet (State.deckLoad s d).regs gf gi = regGet s.regs gf gi := (deckLoad_frame s d).get hl hm

theorem deckStart_get (s : State) (d : Nat) {gf : Field} {gi : Nat} (hl : gf.id < 20000) (hm : W.deckStart.testBit gf.id =
    false) : regGet (State.deckStart s d).regs gf gi = regGet s.regs gf gi := (deckStart_frame s d).get hl hm

theorem deckStop_get (s : State) (d : Nat) {gf : Field} {gi : Nat} (hl : gf.id < 20000) (hm : W.deckStop.testBit gf.id =
    false) : regGet (State.deckStop s d).regs gf gi = regGet s.regs gf gi := (deckStop_frame s d).get hl hm

theorem deckUnload_get (s : State) (d : Nat) {gf : Field} {gi : Nat} (hl : gf.id < 20000) (hm : W.deckUnload.testBit gf.id =
    false) : regGet (State.deckUnload s d).regs gf gi = regGet s.regs gf gi := (deckUnload_frame s d).get hl hm

theorem deckFaultReset_get (s : State) (d : Nat) {gf : Field} {gi : Nat} (hl : gf.id < 20000) (hm : W.deckFaultReset.testBit
    gf.id = false) : regGet (State.deckFaultReset s d).regs gf gi = regGet s.regs gf gi := (deckFaultReset_frame s d).get hl
    hm

theorem wndEnable_get (s : State) (d : Nat) (b : Bool) {gf : Field} {gi : Nat} (hl : gf.id < 20000) (hm : W.wndEnable.testBit
    gf.id = false) : regGet (State.wndEnable s d b).regs gf gi = regGet s.regs gf gi := (wndEnable_frame s d b).get hl hm

theorem writeSpeed_get (s : State) (d v : Nat) {gf : Field} {gi : Nat} (hl : gf.id < 20000) (hm : W.writeSpeed.testBit gf.id =
    false) : regGet (State.writeSpeed s d v).regs gf gi = regGet s.regs gf gi := (writeSpeed_frame s d v).get hl hm

theorem gateHoldEnd_get (s : State) (d : Nat) (drvHigh clear : Bool) {gf : Field} {gi : Nat} (hl : gf.id < 20000) (hm :
    W.gateHoldEnd.testBit gf.id = false) : regGet (State.gateHoldEnd s d drvHigh clear).regs gf gi = regGet s.regs gf gi :=
    (gateHoldEnd_frame s d drvHigh clear).get hl hm

theorem pillarReport_get (s : State) (d : Nat) {gf : Field} {gi : Nat} (hl : gf.id < 20000) (hm : W.pillarReport.testBit gf.id
    = false) : regGet (State.pillarReport s d).regs gf gi = regGet s.regs gf gi := (pillarReport_frame s d).get hl hm

theorem seedObserver_get (s : State) (d : Nat) (v : Int) (elec : Nat) {gf : Field} {gi : Nat} (hl : gf.id < 20000) (hm :
    W.seedObserver.testBit gf.id = false) : regGet (State.seedObserver s d v elec).regs gf gi = regGet s.regs gf gi :=
    (seedObserver_frame s d v elec).get hl hm

theorem measureEnd_get (s : State) (d : Nat) {gf : Field} {gi : Nat} (hl : gf.id < 20000) (hm : W.measureEnd.testBit gf.id =
    false) : regGet (State.measureEnd s d).regs gf gi = regGet s.regs gf gi := (measureEnd_frame s d).get hl hm

theorem alignEnd_get (s : State) (d : Nat) {gf : Field} {gi : Nat} (hl : gf.id < 20000) (hm : W.alignEnd.testBit gf.id =
    false) : regGet (State.alignEnd s d).regs gf gi = regGet s.regs gf gi := (alignEnd_frame s d).get hl hm

theorem spinFail_get (s : State) (d : Nat) {gf : Field} {gi : Nat} (hl : gf.id < 20000) (hm : W.spinFail.testBit gf.id =
    false) : regGet (State.spinFail s d).regs gf gi = regGet s.regs gf gi := (spinFail_frame s d).get hl hm

theorem handoverTimeout_get (s : State) (d : Nat) {gf : Field} {gi : Nat} (hl : gf.id < 20000) (hm : W.handoverTimeout.testBit
    gf.id = false) : regGet (State.handoverTimeout s d).regs gf gi = regGet s.regs gf gi := (handoverTimeout_frame s d).get hl
    hm

theorem shortHoldEnd_get (s : State) (d : Nat) {gf : Field} {gi : Nat} (hl : gf.id < 20000) (hm : W.shortHoldEnd.testBit gf.id
    = false) : regGet (State.shortHoldEnd s d).regs gf gi = regGet s.regs gf gi := (shortHoldEnd_frame s d).get hl hm

theorem updWnd_get (s : State) (d : Nat) (f : DeckS → DeckS) {gf : Field} {gi : Nat} (hl : gf.id < 20000) (hm :
    W.updWnd.testBit gf.id = false) : regGet (State.updWnd s d f).regs gf gi = regGet s.regs gf gi := (updWnd_frame s d f).get
    hl hm

theorem drivePwm_get (s : State) (d : Nat) (u v w : Option Nat) {gf : Field} {gi : Nat} (hl : gf.id < 20000) (hm :
    W.drivePwm.testBit gf.id = false) : regGet (State.drivePwm s d u v w).regs gf gi = regGet s.regs gf gi := (drivePwm_frame
    s d u v w).get hl hm

theorem setDeck_get (s : State) (d st : Nat) {gf : Field} {gi : Nat} (hl : gf.id < 20000) (hm : W.setDeck.testBit gf.id =
    false) : regGet (State.setDeck s d st).regs gf gi = regGet s.regs gf gi := (setDeck_frame s d st).get hl hm

theorem setPhase_get (s : State) (d ph : Nat) {gf : Field} {gi : Nat} (hl : gf.id < 20000) (hm : W.setPhase.testBit gf.id =
    false) : regGet (State.setPhase s d ph).regs gf gi = regGet s.regs gf gi := (setPhase_frame s d ph).get hl hm

theorem gatesOff_get (s : State) (d : Nat) {gf : Field} {gi : Nat} (hl : gf.id < 20000) (hm : W.gatesOff.testBit gf.id =
    false) : regGet (State.gatesOff s d).regs gf gi = regGet s.regs gf gi := (gatesOff_frame s d).get hl hm

theorem startShort_get (s : State) (d : Nat) {gf : Field} {gi : Nat} (hl : gf.id < 20000) (hm : W.startShort.testBit gf.id =
    false) : regGet (State.startShort s d).regs gf gi = regGet s.regs gf gi := (startShort_frame s d).get hl hm

theorem startRamp_get (s : State) (d : Nat) {gf : Field} {gi : Nat} (hl : gf.id < 20000) (hm : W.startRamp.testBit gf.id =
    false) : regGet (State.startRamp s d).regs gf gi = regGet s.regs gf gi := (startRamp_frame s d).get hl hm

theorem enterMeasure_get (s : State) (d : Nat) {gf : Field} {gi : Nat} (hl : gf.id < 20000) (hm : W.enterMeasure.testBit gf.id
    = false) : regGet (State.enterMeasure s d).regs gf gi = regGet s.regs gf gi := (enterMeasure_frame s d).get hl hm

theorem deckFatal_get (s : State) (d : Nat) (b : FatalBrake) {gf : Field} {gi : Nat} (hl : gf.id < 20000) (hm :
    W.deckFatal.testBit gf.id = false) : regGet (State.deckFatal s d b).regs gf gi = regGet s.regs gf gi := (deckFatal_frame s
    d b).get hl hm

theorem observe_get (s : State) (d : Nat) {gf : Field} {gi : Nat} (hl : gf.id < 20000) (hm : W.observe.testBit gf.id = false)
    : regGet (State.observe s d).regs gf gi = regGet s.regs gf gi := (observe_frame s d).get hl hm

theorem loseSync_get (s : State) (d : Nat) {gf : Field} {gi : Nat} (hl : gf.id < 20000) (hm : W.loseSync.testBit gf.id =
    false) : regGet (State.loseSync s d).regs gf gi = regGet s.regs gf gi := (loseSync_frame s d).get hl hm

theorem moveOffset_get (s : State) (d : Nat) (z : Int) {gf : Field} {gi : Nat} (hl : gf.id < 20000) (hm : W.moveOffset.testBit
    gf.id = false) : regGet (State.moveOffset s d z).regs gf gi = regGet s.regs gf gi := (moveOffset_frame s d z).get hl hm

theorem stepOffset_get (s : State) (d : Nat) (z : Int) {gf : Field} {gi : Nat} (hl : gf.id < 20000) (hm : W.stepOffset.testBit
    gf.id = false) : regGet (State.stepOffset s d z).regs gf gi = regGet s.regs gf gi := (stepOffset_frame s d z).get hl hm

theorem useReport_get (s : State) (d : Nat) (r : Int) {gf : Field} {gi : Nat} (hl : gf.id < 20000) (hm : W.useReport.testBit
    gf.id = false) : regGet (State.useReport s d r).regs gf gi = regGet s.regs gf gi := (useReport_frame s d r).get hl hm

theorem chopper_get (s : State) (d : Nat) (x : MotorIn) {gf : Field} {gi : Nat} (hl : gf.id < 20000) (hm : W.chopper.testBit
    gf.id = false) : regGet (State.chopper s d x).regs gf gi = regGet s.regs gf gi := (chopper_frame s d x).get hl hm

theorem reShort_get (s : State) (d : Nat) {gf : Field} {gi : Nat} (hl : gf.id < 20000) (hm : W.reShort.testBit gf.id = false)
    : regGet (State.reShort s d).regs gf gi = regGet s.regs gf gi := (reShort_frame s d).get hl hm

theorem overVolt_get (s : State) (d vbus : Nat) {gf : Field} {gi : Nat} (hl : gf.id < 20000) (hm : W.overVolt.testBit gf.id =
    false) : regGet (State.overVolt s d vbus).regs gf gi = regGet s.regs gf gi := (overVolt_frame s d vbus).get hl hm

theorem restCount_get (s : State) (d : Nat) (x : MotorIn) {gf : Field} {gi : Nat} (hl : gf.id < 20000) (hm :
    W.restCount.testBit gf.id = false) : regGet (State.restCount s d x).regs gf gi = regGet s.regs gf gi := (restCount_frame s
    d x).get hl hm

theorem lockCount_get (s : State) (d : Nat) (err : Nat) {gf : Field} {gi : Nat} (hl : gf.id < 20000) (hm : W.lockCount.testBit
    gf.id = false) : regGet (State.lockCount s d err).regs gf gi = regGet s.regs gf gi := (lockCount_frame s d err).get hl hm

theorem syncCount_get (s : State) (d err : Nat) (amp : Option Nat) {gf : Field} {gi : Nat} (hl : gf.id < 20000) (hm :
    W.syncCount.testBit gf.id = false) : regGet ((State.syncCount s d err amp).1).regs gf gi = regGet s.regs gf gi :=
    (syncCount_frame s d err amp).get hl hm

theorem pll_get (s : State) (d : Nat) (x : MotorIn) {gf : Field} {gi : Nat} (hl : gf.id < 20000) (hm : W.pll.testBit gf.id =
    false) : regGet ((State.pll s d x).1).regs gf gi = regGet s.regs gf gi := (pll_frame s d x).get hl hm

theorem regenLimit_get (s : State) (d : Nat) (vbus : Nat) {gf : Field} {gi : Nat} (hl : gf.id < 20000) (hm :
    W.regenLimit.testBit gf.id = false) : regGet (State.regenLimit s d vbus).regs gf gi = regGet s.regs gf gi :=
    (regenLimit_frame s d vbus).get hl hm

theorem fullLoop_get (s : State) (d : Nat) (x : MotorIn) {gf : Field} {gi : Nat} (hl : gf.id < 20000) (hm : W.fullLoop.testBit
    gf.id = false) : regGet (State.fullLoop s d x).regs gf gi = regGet s.regs gf gi := (fullLoop_frame s d x).get hl hm

theorem compactLoop_get (s : State) (d : Nat) (x : MotorIn) {gf : Field} {gi : Nat} (hl : gf.id < 20000) (hm :
    W.compactLoop.testBit gf.id = false) : regGet (State.compactLoop s d x).regs gf gi = regGet s.regs gf gi :=
    (compactLoop_frame s d x).get hl hm

theorem carrierPeak_get (s : State) (d : Nat) {gf : Field} {gi : Nat} (hl : gf.id < 20000) (hm : W.carrierPeak.testBit gf.id =
    false) : regGet (State.carrierPeak s d).regs gf gi = regGet s.regs gf gi := (carrierPeak_frame s d).get hl hm

theorem spinStep_get (s : State) (d : Nat) {gf : Field} {gi : Nat} (hl : gf.id < 20000) (hm : W.spinStep.testBit gf.id =
    false) : regGet (State.spinStep s d).regs gf gi = regGet s.regs gf gi := (spinStep_frame s d).get hl hm

theorem brakeStep_get (s : State) (d : Nat) {gf : Field} {gi : Nat} (hl : gf.id < 20000) (hm : W.brakeStep.testBit gf.id =
    false) : regGet (State.brakeStep s d).regs gf gi = regGet s.regs gf gi := (brakeStep_frame s d).get hl hm

theorem motorDeck_get (s : State) (d : Nat) (x : MotorIn) {gf : Field} {gi : Nat} (hl : gf.id < 20000) (hm :
    W.motorDeck.testBit gf.id = false) : regGet (State.motorDeck s d x).regs gf gi = regGet s.regs gf gi := (motorDeck_frame s
    d x).get hl hm

theorem rampStep2_get (s : State) (d : Nat) {gf : Field} {gi : Nat} (hl : gf.id < 20000) (hm : W.rampStep2.testBit gf.id =
    false) : regGet (State.rampStep2 s d).regs gf gi = regGet s.regs gf gi := (rampStep2_frame s d).get hl hm

theorem speedLoop_get (s : State) (d : Nat) (trim : Int) {gf : Field} {gi : Nat} (hl : gf.id < 20000) (hm :
    W.speedLoop.testBit gf.id = false) : regGet (State.speedLoop s d trim).regs gf gi = regGet s.regs gf gi :=
    (speedLoop_frame s d trim).get hl hm

theorem atSpeed_get (s : State) (d : Nat) {gf : Field} {gi : Nat} (hl : gf.id < 20000) (hm : W.atSpeed.testBit gf.id = false)
    : regGet (State.atSpeed s d).regs gf gi = regGet s.regs gf gi := (atSpeed_frame s d).get hl hm

theorem pairLock_get (s : State) (d : Nat) (b : Bool) {gf : Field} {gi : Nat} (hl : gf.id < 20000) (hm : W.pairLock.testBit
    gf.id = false) : regGet (State.pairLock s d b).regs gf gi = regGet s.regs gf gi := (pairLock_frame s d b).get hl hm

theorem pairTrim_get (s : State) (d : Nat) (delta : Option Int) {gf : Field} {gi : Nat} (hl : gf.id < 20000) (hm :
    W.pairTrim.testBit gf.id = false) : regGet ((State.pairTrim s d delta).1).regs gf gi = regGet s.regs gf gi :=
    (pairTrim_frame s d delta).get hl hm

theorem speedDeck_get (s : State) (d : Nat) (ring : Option Int) {gf : Field} {gi : Nat} (hl : gf.id < 20000) (hm :
    W.speedDeck.testBit gf.id = false) : regGet (State.speedDeck s d ring).regs gf gi = regGet s.regs gf gi :=
    (speedDeck_frame s d ring).get hl hm

theorem skipPulse_get (s : State) (d : Nat) {gf : Field} {gi : Nat} (hl : gf.id < 20000) (hm : W.skipPulse.testBit gf.id =
    false) : regGet (State.skipPulse s d).regs gf gi = regGet s.regs gf gi := (skipPulse_frame s d).get hl hm

theorem shortTick_get (s : State) (d : Nat) (x : Option (Nat × Nat)) {gf : Field} {gi : Nat} (hl : gf.id < 20000) (hm :
    W.shortTick.testBit gf.id = false) : regGet (State.shortTick s d x).regs gf gi = regGet s.regs gf gi := (shortTick_frame s
    d x).get hl hm

theorem startDeck_get (s : State) (d : Nat) {gf : Field} {gi : Nat} (hl : gf.id < 20000) (hm : W.startDeck.testBit gf.id =
    false) : regGet (State.startDeck s d).regs gf gi = regGet s.regs gf gi := (startDeck_frame s d).get hl hm

theorem brakeDeck_get (s : State) (d : Nat) {gf : Field} {gi : Nat} (hl : gf.id < 20000) (hm : W.brakeDeck.testBit gf.id =
    false) : regGet (State.brakeDeck s d).regs gf gi = regGet s.regs gf gi := (brakeDeck_frame s d).get hl hm

theorem removeDeck_get (s : State) (d : Nat) {gf : Field} {gi : Nat} (hl : gf.id < 20000) (hm : W.removeDeck.testBit gf.id =
    false) : regGet (State.removeDeck s d).regs gf gi = regGet s.regs gf gi := (removeDeck_frame s d).get hl hm

theorem updSeam_get (s : State) (v n : Nat) (f : SeamS → SeamS) {gf : Field} {gi : Nat} (hl : gf.id < 20000) (hm :
    W.updSeam.testBit gf.id = false) : regGet (State.updSeam s v n f).regs gf gi = regGet s.regs gf gi := (updSeam_frame s v n
    f).get hl hm

theorem putSpare_get (s : State) (i : Nat) (valid : Bool) (r : Nat × Nat × Nat) {gf : Field} {gi : Nat} (hl : gf.id < 20000)
    (hm : W.putSpare.testBit gf.id = false) : regGet (State.putSpare s i valid r).regs gf gi = regGet s.regs gf gi :=
    (putSpare_frame s i valid r).get hl hm

theorem putRecords_get (s : State) (v n : Nat) (l : List (Nat × Nat × Nat)) {gf : Field} {gi : Nat} (hl : gf.id < 20000) (hm :
    W.putRecords.testBit gf.id = false) : regGet (State.putRecords s v n l).regs gf gi = regGet s.regs gf gi :=
    (putRecords_frame s v n l).get hl hm

theorem addSkip_get (s : State) (v n pos reason lode : Nat) {gf : Field} {gi : Nat} (hl : gf.id < 20000) (hm :
    W.addSkip.testBit gf.id = false) : regGet (State.addSkip s v n pos reason lode).regs gf gi = regGet s.regs gf gi :=
    (addSkip_frame s v n pos reason lode).get hl hm

theorem formSerial_get (s : State) (v : Nat) {gf : Field} {gi : Nat} (hl : gf.id < 20000) (hm : W.formSerial.testBit gf.id =
    false) : regGet (State.formSerial s v).regs gf gi = regGet s.regs gf gi := (formSerial_frame s v).get hl hm

theorem sealLode_get (s : State) (v n : Nat) {gf : Field} {gi : Nat} (hl : gf.id < 20000) (hm : W.sealLode.testBit gf.id =
    false) : regGet (State.sealLode s v n).regs gf gi = regGet s.regs gf gi := (sealLode_frame s v n).get hl hm

theorem putBlock_get (s : State) (v n : Nat) (f : DriftFill) {gf : Field} {gi : Nat} (hl : gf.id < 20000) (hm :
    W.putBlock.testBit gf.id = false) : regGet (State.putBlock s v n f).regs gf gi = regGet s.regs gf gi := (putBlock_frame s
    v n f).get hl hm

theorem assemble_get (s : State) (v n pos page : Nat) (d : DriftFill) {gf : Field} {gi : Nat} (hl : gf.id < 20000) (hm :
    W.assemble.testBit gf.id = false) : regGet (State.assemble s v n pos page d).regs gf gi = regGet s.regs gf gi :=
    (assemble_frame s v n pos page d).get hl hm

theorem fillDrift_get (s : State) (v n pos page : Nat) (d : DriftFill) {gf : Field} {gi : Nat} (hl : gf.id < 20000) (hm :
    W.fillDrift.testBit gf.id = false) : regGet (State.fillDrift s v n pos page d).regs gf gi = regGet s.regs gf gi :=
    (fillDrift_frame s v n pos page d).get hl hm

theorem updLode_get (s : State) (v n : Nat) (cat : Bool) (index : Nat) (f : SealedLode → SealedLode) {gf : Field} {gi : Nat}
    (hl : gf.id < 20000) (hm : W.updLode.testBit gf.id = false) : regGet (State.updLode s v n cat index f).regs gf gi = regGet
    s.regs gf gi := (updLode_frame s v n cat index f).get hl hm

theorem completeWrites_get (s : State) (v n : Nat) {gf : Field} {gi : Nat} (hl : gf.id < 20000) (hm : W.completeWrites.testBit
    gf.id = false) : regGet (State.completeWrites s v n).regs gf gi = regGet s.regs gf gi := (completeWrites_frame s v n).get
    hl hm

theorem exhaustWrites_get (s : State) (v n index : Nat) {gf : Field} {gi : Nat} (hl : gf.id < 20000) (hm :
    W.exhaustWrites.testBit gf.id = false) : regGet (State.exhaustWrites s v n index).regs gf gi = regGet s.regs gf gi :=
    (exhaustWrites_frame s v n index).get hl hm

theorem finishSeal_get (s : State) (v n : Nat) (st : Status) {gf : Field} {gi : Nat} (hl : gf.id < 20000) (hm :
    W.finishSeal.testBit gf.id = false) : regGet (State.finishSeal s v n st).regs gf gi = regGet s.regs gf gi :=
    (finishSeal_frame s v n st).get hl hm

theorem sealWithout_get (s : State) (v n : Nat) {gf : Field} {gi : Nat} (hl : gf.id < 20000) (hm : W.sealWithout.testBit gf.id
    = false) : regGet (State.sealWithout s v n).regs gf gi = regGet s.regs gf gi := (sealWithout_frame s v n).get hl hm

theorem queueCat_get (s : State) (v n : Nat) (trailer : Bool) (content : List Nat) {gf : Field} {gi : Nat} (hl : gf.id <
    20000) (hm : W.queueCat.testBit gf.id = false) : regGet (State.queueCat s v n trailer content).regs gf gi = regGet s.regs
    gf gi := (queueCat_frame s v n trailer content).get hl hm

theorem snapshot_get (s : State) (v n : Nat) (trailer : Bool) {gf : Field} {gi : Nat} (hl : gf.id < 20000) (hm :
    W.snapshot.testBit gf.id = false) : regGet (State.snapshot s v n trailer).regs gf gi = regGet s.regs gf gi :=
    (snapshot_frame s v n trailer).get hl hm

theorem catalogueDue_get (s : State) (v n : Nat) {gf : Field} {gi : Nat} (hl : gf.id < 20000) (hm : W.catalogueDue.testBit
    gf.id = false) : regGet (State.catalogueDue s v n).regs gf gi = regGet s.regs gf gi := (catalogueDue_frame s v n).get hl
    hm

theorem dropSlot_get (s : State) (l : SealedLode) {gf : Field} {gi : Nat} (hl : gf.id < 20000) (hm : W.dropSlot.testBit gf.id
    = false) : regGet (State.dropSlot s l).regs gf gi = regGet s.regs gf gi := (dropSlot_frame s l).get hl hm

theorem exhaust_get (s : State) (v n index : Nat) {gf : Field} {gi : Nat} (hl : gf.id < 20000) (hm : W.exhaust.testBit gf.id =
    false) : regGet (State.exhaust s v n index).regs gf gi = regGet s.regs gf gi := (exhaust_frame s v n index).get hl hm

theorem skipAll_get (s : State) (v n : Nat) (l : List (Nat × Nat × Nat)) {gf : Field} {gi : Nat} (hl : gf.id < 20000) (hm :
    W.skipAll.testBit gf.id = false) : regGet (s.skipAll v n l).regs gf gi = regGet s.regs gf gi := (skipAll_frame s v n
    l).get hl hm

theorem countAccepted_get (s : State) (v n k : Nat) {gf : Field} {gi : Nat} (hl : gf.id < 20000) (hm : W.countAccepted.testBit
    gf.id = false) : regGet (s.countAccepted v n k).regs gf gi = regGet s.regs gf gi := (countAccepted_frame s v n k).get hl
    hm

theorem spare_get (s : State) (v n : Nat) (vs : List (SealedLode × Verdict)) {gf : Field} {gi : Nat} (hl : gf.id < 20000) (hm
    : W.spare.testBit gf.id = false) : regGet (State.spare s v n vs).regs gf gi = regGet s.regs gf gi := (spare_frame s v n
    vs).get hl hm

theorem reportReject_get (s : State) (x : Verdict) {gf : Field} {gi : Nat} (hl : gf.id < 20000) (hm : W.reportReject.testBit
    gf.id = false) : regGet (State.reportReject s x).regs gf gi = regGet s.regs gf gi := (reportReject_frame s x).get hl hm

theorem resolveCat_get (s : State) (v n : Nat) (l : SealedLode) (x : Verdict) {gf : Field} {gi : Nat} (hl : gf.id < 20000) (hm
    : W.resolveCat.testBit gf.id = false) : regGet (State.resolveCat s v n l x).regs gf gi = regGet s.regs gf gi :=
    (resolveCat_frame s v n l x).get hl hm

theorem resolveSeam_get (s : State) (v n : Nat) (left : Option Bool) {gf : Field} {gi : Nat} (hl : gf.id < 20000) (hm :
    W.resolveSeam.testBit gf.id = false) : regGet (State.resolveSeam s v n left).regs gf gi = regGet s.regs gf gi :=
    (resolveSeam_frame s v n left).get hl hm

theorem cutDrift_get (s : State) (h : Nat) {gf : Field} {gi : Nat} (hl : gf.id < 20000) (hm : W.cutDrift.testBit gf.id =
    false) : regGet (State.cutDrift s h).regs gf gi = regGet s.regs gf gi := (cutDrift_frame s h).get hl hm

theorem gateClose_get (s : State) (h : Nat) {gf : Field} {gi : Nat} (hl : gf.id < 20000) (hm : W.gateClose.testBit gf.id =
    false) : regGet (State.gateClose s h).regs gf gi = regGet s.regs gf gi := (gateClose_frame s h).get hl hm

theorem leaveWrite_get (s : State) (h : Nat) (stays : Bool) {gf : Field} {gi : Nat} (hl : gf.id < 20000) (hm :
    W.leaveWrite.testBit gf.id = false) : regGet (State.leaveWrite s h stays).regs gf gi = regGet s.regs gf gi :=
    (leaveWrite_frame s h stays).get hl hm

theorem lingerExpiry_get (s : State) (v n : Nat) {gf : Field} {gi : Nat} (hl : gf.id < 20000) (hm : W.lingerExpiry.testBit
    gf.id = false) : regGet (State.lingerExpiry s v n).regs gf gi = regGet s.regs gf gi := (lingerExpiry_frame s v n).get hl
    hm

theorem setWcy_get (s : State) (h x : Nat) {gf : Field} {gi : Nat} (hl : gf.id < 20000) (hm : W.setWcy.testBit gf.id = false)
    : regGet (State.setWcy s h x).regs gf gi = regGet s.regs gf gi := (setWcy_frame s h x).get hl hm

theorem retrack_get (s : State) (h track : Nat) {gf : Field} {gi : Nat} (hl : gf.id < 20000) (hm : W.retrack.testBit gf.id =
    false) : regGet (State.retrack s h track).regs gf gi = regGet s.regs gf gi := (retrack_frame s h track).get hl hm

theorem writeAt_get (s : State) (h p : Nat) {gf : Field} {gi : Nat} (hl : gf.id < 20000) (hm : W.writeAt.testBit gf.id =
    false) : regGet (State.writeAt s h p).regs gf gi = regGet s.regs gf gi := (writeAt_frame s h p).get hl hm

theorem writeIdle_get (s : State) (h : Nat) {gf : Field} {gi : Nat} (hl : gf.id < 20000) (hm : W.writeIdle.testBit gf.id =
    false) : regGet (State.writeIdle s h).regs gf gi = regGet s.regs gf gi := (writeIdle_frame s h).get hl hm

theorem toFollow_get (s : State) (h : Nat) {gf : Field} {gi : Nat} (hl : gf.id < 20000) (hm : W.toFollow.testBit gf.id =
    false) : regGet (State.toFollow s h).regs gf gi = regGet s.regs gf gi := (toFollow_frame s h).get hl hm

theorem beginVerify_get (s : State) (h : Nat) {gf : Field} {gi : Nat} (hl : gf.id < 20000) (hm : W.beginVerify.testBit gf.id =
    false) : regGet (State.beginVerify s h).regs gf gi = regGet s.regs gf gi := (beginVerify_frame s h).get hl hm

theorem beginWrite_get (s : State) (h : Nat) {gf : Field} {gi : Nat} (hl : gf.id < 20000) (hm : W.beginWrite.testBit gf.id =
    false) : regGet (State.beginWrite s h).regs gf gi = regGet s.regs gf gi := (beginWrite_frame s h).get hl hm

theorem issueWrite_get (s : State) (h n p : Nat) {gf : Field} {gi : Nat} (hl : gf.id < 20000) (hm : W.issueWrite.testBit gf.id
    = false) : regGet (State.issueWrite s h n p).regs gf gi = regGet s.regs gf gi := (issueWrite_frame s h n p).get hl hm

theorem issueFresh_get (s : State) (h : Nat) {gf : Field} {gi : Nat} (hl : gf.id < 20000) (hm : W.issueFresh.testBit gf.id =
    false) : regGet (State.issueFresh s h).regs gf gi = regGet s.regs gf gi := (issueFresh_frame s h).get hl hm

theorem issueAgain_get (s : State) (h : Nat) {gf : Field} {gi : Nat} (hl : gf.id < 20000) (hm : W.issueAgain.testBit gf.id =
    false) : regGet (State.issueAgain s h).regs gf gi = regGet s.regs gf gi := (issueAgain_frame s h).get hl hm

theorem writeIssue_get (s : State) (h : Nat) {gf : Field} {gi : Nat} (hl : gf.id < 20000) (hm : W.writeIssue.testBit gf.id =
    false) : regGet (State.writeIssue s h).regs gf gi = regGet s.regs gf gi := (writeIssue_frame s h).get hl hm

theorem setCal_get (s : State) (h : Nat) (c : Option CalPhase) {gf : Field} {gi : Nat} (hl : gf.id < 20000) (hm :
    W.setCal.testBit gf.id = false) : regGet (State.setCal s h c).regs gf gi = regGet s.regs gf gi := (setCal_frame s h c).get
    hl hm

theorem startCal_get (s : State) (h : Nat) {gf : Field} {gi : Nat} (hl : gf.id < 20000) (hm : W.startCal.testBit gf.id =
    false) : regGet (State.startCal s h).regs gf gi = regGet s.regs gf gi := (startCal_frame s h).get hl hm

theorem loadPower_get (s : State) (h : Nat) {gf : Field} {gi : Nat} (hl : gf.id < 20000) (hm : W.loadPower.testBit gf.id =
    false) : regGet (State.loadPower s h).regs gf gi = regGet s.regs gf gi := (loadPower_frame s h).get hl hm

theorem newRun_get (s : State) (h : Nat) {gf : Field} {gi : Nat} (hl : gf.id < 20000) (hm : W.newRun.testBit gf.id = false) :
    regGet (State.newRun s h).regs gf gi = regGet s.regs gf gi := (newRun_frame s h).get hl hm

theorem prep_get (s : State) (h : Nat) {gf : Field} {gi : Nat} (hl : gf.id < 20000) (hm : W.prep.testBit gf.id = false) :
    regGet (State.prep s h).regs gf gi = regGet s.regs gf gi := (prep_frame s h).get hl hm

theorem prepAct_get (s : State) (h : Nat) {gf : Field} {gi : Nat} (hl : gf.id < 20000) (hm : W.prepAct.testBit gf.id = false)
    : regGet (State.prepAct s h).regs gf gi = regGet s.regs gf gi := (prepAct_frame s h).get hl hm

theorem keepFree_get (s : State) (h l p a b : Nat) {gf : Field} {gi : Nat} (hl : gf.id < 20000) (hm : W.keepFree.testBit gf.id
    = false) : regGet (State.keepFree s h l p a b).regs gf gi = regGet s.regs gf gi := (keepFree_frame s h l p a b).get hl hm

theorem endCal_get (s : State) (h : Nat) {gf : Field} {gi : Nat} (hl : gf.id < 20000) (hm : W.endCal.testBit gf.id = false) :
    regGet (State.endCal s h).regs gf gi = regGet s.regs gf gi := (endCal_frame s h).get hl hm

theorem calExhausted_get (s : State) (h l : Nat) {gf : Field} {gi : Nat} (hl : gf.id < 20000) (hm : W.calExhausted.testBit
    gf.id = false) : regGet (State.calExhausted s h l).regs gf gi = regGet s.regs gf gi := (calExhausted_frame s h l).get hl
    hm

theorem calSearch_get (s : State) (h : Nat) {gf : Field} {gi : Nat} (hl : gf.id < 20000) (hm : W.calSearch.testBit gf.id =
    false) : regGet (State.calSearch s h).regs gf gi = regGet s.regs gf gi := (calSearch_frame s h).get hl hm

theorem scalePower_get (s : State) (h l peak peak0 : Nat) {gf : Field} {gi : Nat} (hl : gf.id < 20000) (hm :
    W.scalePower.testBit gf.id = false) : regGet (State.scalePower s h l peak peak0).regs gf gi = regGet s.regs gf gi :=
    (scalePower_frame s h l peak peak0).get hl hm

theorem calResult_get (s : State) (h p a : Nat) {gf : Field} {gi : Nat} (hl : gf.id < 20000) (hm : W.calResult.testBit gf.id =
    false) : regGet (State.calResult s h p a).regs gf gi = regGet s.regs gf gi := (calResult_frame s h p a).get hl hm

theorem calEnd_get (s : State) (h : Nat) {gf : Field} {gi : Nat} (hl : gf.id < 20000) (hm : W.calEnd.testBit gf.id = false) :
    regGet (State.calEnd s h).regs gf gi = regGet s.regs gf gi := (calEnd_frame s h).get hl hm

theorem writeRevEnd_get (s : State) (h : Nat) {gf : Field} {gi : Nat} (hl : gf.id < 20000) (hm : W.writeRevEnd.testBit gf.id =
    false) : regGet (State.writeRevEnd s h).regs gf gi = regGet s.regs gf gi := (writeRevEnd_frame s h).get hl hm

theorem verified_get (s : State) (v n p : Nat) {gf : Field} {gi : Nat} (hl : gf.id < 20000) (hm : W.verified.testBit gf.id =
    false) : regGet (State.verified s v n p).regs gf gi = regGet s.regs gf gi := (verified_frame s v n p).get hl hm

theorem verifyRevEnd_get (s : State) (h : Nat) {gf : Field} {gi : Nat} (hl : gf.id < 20000) (hm : W.verifyRevEnd.testBit gf.id
    = false) : regGet (State.verifyRevEnd s h).regs gf gi = regGet s.regs gf gi := (verifyRevEnd_frame s h).get hl hm

theorem resolved_get (s : State) (h : Nat) (left : Option Bool) {gf : Field} {gi : Nat} (hl : gf.id < 20000) (hm :
    W.resolved.testBit gf.id = false) : regGet (State.resolved s h left).regs gf gi = regGet s.regs gf gi := (resolved_frame s
    h left).get hl hm

theorem resolve_get (s : State) (h : Nat) {gf : Field} {gi : Nat} (hl : gf.id < 20000) (hm : W.resolve.testBit gf.id = false)
    : regGet (State.resolve s h).regs gf gi = regGet s.regs gf gi := (resolve_frame s h).get hl hm

theorem wpRecovered_get (s : State) (v n : Nat) {gf : Field} {gi : Nat} (hl : gf.id < 20000) (hm : W.wpRecovered.testBit gf.id
    = false) : regGet (State.wpRecovered s v n).regs gf gi = regGet s.regs gf gi := (wpRecovered_frame s v n).get hl hm

end Sys2Proof.Laws
end

