-- ==== Sys2Proof/Laws/PerInstr.lean ====
section
/-!
SUPPORT. Statements for every command, one lemma per row: no row is shut out by well-formedness.
-/
namespace Sys2Proof.Laws

open Sys2Proof.Machine

/-- The command's row has a well-formed command. -/
def RowOpen.Statement (i : Instr) : Prop := ∃ j : Instr, j.mnemonic = i.mnemonic ∧ WellFormed j = true

theorem RowOpen.servoTick (shorts : List (Option (Nat × Nat))) (cycles : List Nat) : RowOpen.Statement (.servoTick shorts cycles) :=
  ⟨.servoTick (List.replicate 8 none) (List.replicate 32 0), rfl, rfl⟩
theorem RowOpen.motorTick (samples : List MotorIn) : RowOpen.Statement (.motorTick samples) :=
  ⟨.motorTick (List.replicate 8 {}), rfl, rfl⟩
theorem RowOpen.ringFrameTick (slot : Bool) : RowOpen.Statement (.ringFrameTick slot) :=
  ⟨_, rfl, rfl⟩
theorem RowOpen.tckCtlWrite (w : BitVec 32) : RowOpen.Statement (.tckCtlWrite w) :=
  ⟨_, rfl, rfl⟩
theorem RowOpen.tckAsyDeadlineWrite (w : BitVec 32) : RowOpen.Statement (.tckAsyDeadlineWrite w) :=
  ⟨_, rfl, rfl⟩
theorem RowOpen.collierOverrun (h : Fin 32) (cycles : Nat) : RowOpen.Statement (.collierOverrun h cycles) :=
  ⟨_, rfl, rfl⟩
theorem RowOpen.lrnSkip (h : Fin 32) : RowOpen.Statement (.lrnSkip h) :=
  ⟨_, rfl, rfl⟩
theorem RowOpen.obsLate (d : Fin 8) : RowOpen.Statement (.obsLate d) :=
  ⟨_, rfl, rfl⟩
theorem RowOpen.wndOvr (d : Fin 8) : RowOpen.Statement (.wndOvr d) :=
  ⟨_, rfl, rfl⟩
theorem RowOpen.sldOvr (h : Fin 32) : RowOpen.Statement (.sldOvr h) :=
  ⟨_, rfl, rfl⟩
theorem RowOpen.asyMiss (y : Fin 96) : RowOpen.Statement (.asyMiss y) :=
  ⟨_, rfl, rfl⟩
theorem RowOpen.takeoverPartnerFree (h : Fin 32) : RowOpen.Statement (.takeoverPartnerFree h) :=
  ⟨_, rfl, rfl⟩
theorem RowOpen.seekReissue (h : Fin 32) : RowOpen.Statement (.seekReissue h) :=
  ⟨_, rfl, rfl⟩
theorem RowOpen.takeoverRequest (h : Fin 32) : RowOpen.Statement (.takeoverRequest h) :=
  ⟨_, rfl, rfl⟩
theorem RowOpen.handbackRequest (h : Fin 32) : RowOpen.Statement (.handbackRequest h) :=
  ⟨_, rfl, rfl⟩
theorem RowOpen.handbackDone (h : Fin 32) : RowOpen.Statement (.handbackDone h) :=
  ⟨_, rfl, rfl⟩
theorem RowOpen.linkWordPush (h : Fin 32) (lane : Fin 6) (hdr : BitVec 2) (payload : BitVec 64) (rtt : Nat) : RowOpen.Statement (.linkWordPush h lane hdr payload rtt) :=
  ⟨_, rfl, rfl⟩
theorem RowOpen.fifoPop (h : Fin 32) (f : Fin 6) (flips : List (Nat × Nat)) : RowOpen.Statement (.fifoPop h f flips) :=
  ⟨.fifoPop h f [], rfl, rfl⟩
theorem RowOpen.fifoOverflow (h : Fin 32) (f : Fin 6) : RowOpen.Statement (.fifoOverflow h f) :=
  ⟨_, rfl, rfl⟩
theorem RowOpen.fifoFlush (h : Fin 32) (w : BitVec 32) : RowOpen.Statement (.fifoFlush h w) :=
  ⟨_, rfl, rfl⟩
theorem RowOpen.echoReceived (h : Fin 32) (seq : BitVec 8) (rtt : Nat) : RowOpen.Statement (.echoReceived h seq rtt) :=
  ⟨_, rfl, rfl⟩
theorem RowOpen.alignMarker (h : Fin 32) (lanes : List MarkerIn) : RowOpen.Statement (.alignMarker h lanes) :=
  ⟨.alignMarker h (List.replicate 6 {}), rfl, rfl⟩
theorem RowOpen.rotate (h : Fin 32) : RowOpen.Statement (.rotate h) :=
  ⟨_, rfl, rfl⟩
theorem RowOpen.laneRestoreSoak (h : Fin 32) (lane : Fin 6) : RowOpen.Statement (.laneRestoreSoak h lane) :=
  ⟨_, rfl, rfl⟩
theorem RowOpen.laneFail (h : Fin 32) (lane : Fin 8) (cause : LaneCause) : RowOpen.Statement (.laneFail h lane cause) :=
  ⟨_, rfl, rfl⟩
theorem RowOpen.linkEnable (h : Fin 32) : RowOpen.Statement (.linkEnable h) :=
  ⟨_, rfl, rfl⟩
theorem RowOpen.linkDisable (h : Fin 32) : RowOpen.Statement (.linkDisable h) :=
  ⟨_, rfl, rfl⟩
theorem RowOpen.trainDone (h : Fin 32) : RowOpen.Statement (.trainDone h) :=
  ⟨_, rfl, rfl⟩
theorem RowOpen.trainFail (h : Fin 32) : RowOpen.Statement (.trainFail h) :=
  ⟨_, rfl, rfl⟩
theorem RowOpen.prbsCtlWrite (l : Fin 256) (w : BitVec 32) : RowOpen.Statement (.prbsCtlWrite l w) :=
  ⟨_, rfl, rfl⟩
theorem RowOpen.farLoopbackD0 (h : Fin 32) (lane : BitVec 3) : RowOpen.Statement (.farLoopbackD0 h lane) :=
  ⟨.farLoopbackD0 h 0, rfl, rfl⟩
theorem RowOpen.farLoopbackD1 (h : Fin 32) (lane : BitVec 3) : RowOpen.Statement (.farLoopbackD1 h lane) :=
  ⟨.farLoopbackD1 h 0, rfl, rfl⟩
theorem RowOpen.farLoopbackEnd (h : Fin 32) (lane : BitVec 3) : RowOpen.Statement (.farLoopbackEnd h lane) :=
  ⟨.farLoopbackEnd h 0, rfl, rfl⟩
theorem RowOpen.hfeGeneratorStart (h : Fin 32) (lane : BitVec 3) (pat : BitVec 3) : RowOpen.Statement (.hfeGeneratorStart h lane pat) :=
  ⟨.hfeGeneratorStart h 0 pat, rfl, rfl⟩
theorem RowOpen.hfeGeneratorStop (h : Fin 32) (lane : BitVec 3) : RowOpen.Statement (.hfeGeneratorStop h lane) :=
  ⟨.hfeGeneratorStop h 0, rfl, rfl⟩
theorem RowOpen.cmdTimeout (h : Fin 32) : RowOpen.Statement (.cmdTimeout h) :=
  ⟨_, rfl, rfl⟩
theorem RowOpen.eyeScanStart (l : Fin 256) (dwell : BitVec 4) (vofs : BitVec 6) (hofs : BitVec 6) : RowOpen.Statement (.eyeScanStart l dwell vofs hofs) :=
  ⟨_, rfl, rfl⟩
theorem RowOpen.eyeScanDone (l : Fin 256) (errors : Nat) : RowOpen.Statement (.eyeScanDone l errors) :=
  ⟨_, rfl, rfl⟩
theorem RowOpen.tickLeadWrite (h : Fin 32) (w : BitVec 32) : RowOpen.Statement (.tickLeadWrite h w) :=
  ⟨_, rfl, rfl⟩
theorem RowOpen.coefCommit (h : Fin 32) (zero : Bool) : RowOpen.Statement (.coefCommit h zero) :=
  ⟨_, rfl, rfl⟩
theorem RowOpen.coefCopy (h : Fin 32) : RowOpen.Statement (.coefCopy h) :=
  ⟨_, rfl, rfl⟩
theorem RowOpen.rpEvaluation (h : Fin 32) : RowOpen.Statement (.rpEvaluation h) :=
  ⟨_, rfl, rfl⟩
theorem RowOpen.mediaOperationTake (h : Fin 32) : RowOpen.Statement (.mediaOperationTake h) :=
  ⟨_, rfl, rfl⟩
theorem RowOpen.acqFail (h : Fin 32) : RowOpen.Statement (.acqFail h) :=
  ⟨_, rfl, rfl⟩
theorem RowOpen.jumpBrake (h : Fin 32) : RowOpen.Statement (.jumpBrake h) :=
  ⟨_, rfl, rfl⟩
theorem RowOpen.jumpSettle (h : Fin 32) : RowOpen.Statement (.jumpSettle h) :=
  ⟨_, rfl, rfl⟩
theorem RowOpen.seekFail (h : Fin 32) : RowOpen.Statement (.seekFail h) :=
  ⟨_, rfl, rfl⟩
theorem RowOpen.sledArrived (h : Fin 32) : RowOpen.Statement (.sledArrived h) :=
  ⟨_, rfl, rfl⟩
theorem RowOpen.seekComplete (h : Fin 32) : RowOpen.Statement (.seekComplete h) :=
  ⟨_, rfl, rfl⟩
theorem RowOpen.layerHopKick (h : Fin 32) : RowOpen.Statement (.layerHopKick h) :=
  ⟨_, rfl, rfl⟩
theorem RowOpen.layerHopDone (h : Fin 32) : RowOpen.Statement (.layerHopDone h) :=
  ⟨_, rfl, rfl⟩
theorem RowOpen.layerFail (h : Fin 32) : RowOpen.Statement (.layerFail h) :=
  ⟨_, rfl, rfl⟩
theorem RowOpen.angleLossPark (h : Fin 32) : RowOpen.Statement (.angleLossPark h) :=
  ⟨_, rfl, rfl⟩
theorem RowOpen.fixTimeout (h : Fin 32) : RowOpen.Statement (.fixTimeout h) :=
  ⟨_, rfl, rfl⟩
theorem RowOpen.holdExit (h : Fin 32) : RowOpen.Statement (.holdExit h) :=
  ⟨_, rfl, rfl⟩
theorem RowOpen.holdTimeout (h : Fin 32) : RowOpen.Statement (.holdTimeout h) :=
  ⟨_, rfl, rfl⟩
theorem RowOpen.headFaultReset (h : Fin 32) : RowOpen.Statement (.headFaultReset h) :=
  ⟨_, rfl, rfl⟩
theorem RowOpen.collierEnable (h : Fin 32) : RowOpen.Statement (.collierEnable h) :=
  ⟨_, rfl, rfl⟩
theorem RowOpen.collierDisable (h : Fin 32) : RowOpen.Statement (.collierDisable h) :=
  ⟨_, rfl, rfl⟩
theorem RowOpen.seedDone (h : Fin 32) (i : Fin 2) : RowOpen.Statement (.seedDone h i) :=
  ⟨_, rfl, rfl⟩
theorem RowOpen.seedRequest (h : Fin 32) (loops : BitVec 2) : RowOpen.Statement (.seedRequest h loops) :=
  ⟨_, rfl, rfl⟩
theorem RowOpen.tableClear (h : Fin 32) (loops : BitVec 2) : RowOpen.Statement (.tableClear h loops) :=
  ⟨_, rfl, rfl⟩
theorem RowOpen.sledTargetWrite (h : Fin 32) (w : BitVec 32) : RowOpen.Statement (.sledTargetWrite h w) :=
  ⟨_, rfl, rfl⟩
theorem RowOpen.groupGo (w : BitVec 32) : RowOpen.Statement (.groupGo w) :=
  ⟨_, rfl, rfl⟩
theorem RowOpen.sledStop (h : Fin 32) : RowOpen.Statement (.sledStop h) :=
  ⟨_, rfl, rfl⟩
theorem RowOpen.sledPark (h : Fin 32) : RowOpen.Statement (.sledPark h) :=
  ⟨_, rfl, rfl⟩
theorem RowOpen.sledHome (h : Fin 32) : RowOpen.Statement (.sledHome h) :=
  ⟨_, rfl, rfl⟩
theorem RowOpen.sledEnable (h : Fin 32) : RowOpen.Statement (.sledEnable h) :=
  ⟨_, rfl, rfl⟩
theorem RowOpen.sledDisable (h : Fin 32) : RowOpen.Statement (.sledDisable h) :=
  ⟨_, rfl, rfl⟩
theorem RowOpen.limitDebounced (h : Fin 32) : RowOpen.Statement (.limitDebounced h) :=
  ⟨_, rfl, rfl⟩
theorem RowOpen.homeFail (h : Fin 32) : RowOpen.Statement (.homeFail h) :=
  ⟨_, rfl, rfl⟩
theorem RowOpen.deckLoad (d : Fin 8) : RowOpen.Statement (.deckLoad d) :=
  ⟨_, rfl, rfl⟩
theorem RowOpen.deckStart (d : Fin 8) : RowOpen.Statement (.deckStart d) :=
  ⟨_, rfl, rfl⟩
theorem RowOpen.deckStop (d : Fin 8) : RowOpen.Statement (.deckStop d) :=
  ⟨_, rfl, rfl⟩
theorem RowOpen.deckUnload (d : Fin 8) : RowOpen.Statement (.deckUnload d) :=
  ⟨_, rfl, rfl⟩
theorem RowOpen.deckFaultReset (d : Fin 8) (drvHigh : Bool) : RowOpen.Statement (.deckFaultReset d drvHigh) :=
  ⟨_, rfl, rfl⟩
theorem RowOpen.speedTargetWrite (d : Fin 8) (target : BitVec 16) : RowOpen.Statement (.speedTargetWrite d target) :=
  ⟨_, rfl, rfl⟩
theorem RowOpen.overcurrent (d : Fin 8) : RowOpen.Statement (.overcurrent d) :=
  ⟨_, rfl, rfl⟩
theorem RowOpen.drvFault (d : Fin 8) : RowOpen.Statement (.drvFault d) :=
  ⟨_, rfl, rfl⟩
theorem RowOpen.gateHoldEnd (d : Fin 8) (drvHigh : Bool) (clear : Bool) : RowOpen.Statement (.gateHoldEnd d drvHigh clear) :=
  ⟨_, rfl, rfl⟩
theorem RowOpen.pillarReport (d : Fin 8) : RowOpen.Statement (.pillarReport d) :=
  ⟨_, rfl, rfl⟩
theorem RowOpen.spinMeasureEnd (d : Fin 8) : RowOpen.Statement (.spinMeasureEnd d) :=
  ⟨_, rfl, rfl⟩
theorem RowOpen.alignEnd (d : Fin 8) : RowOpen.Statement (.alignEnd d) :=
  ⟨_, rfl, rfl⟩
theorem RowOpen.handoverTimeout (d : Fin 8) : RowOpen.Statement (.handoverTimeout d) :=
  ⟨_, rfl, rfl⟩
theorem RowOpen.spinFail (d : Fin 8) : RowOpen.Statement (.spinFail d) :=
  ⟨_, rfl, rfl⟩
theorem RowOpen.shortHoldEnd (d : Fin 8) : RowOpen.Statement (.shortHoldEnd d) :=
  ⟨_, rfl, rfl⟩
theorem RowOpen.stopped (d : Fin 8) : RowOpen.Statement (.stopped d) :=
  ⟨_, rfl, rfl⟩
theorem RowOpen.channelEnable (c : Fin 128) : RowOpen.Statement (.channelEnable c) :=
  ⟨_, rfl, rfl⟩
theorem RowOpen.channelDisable (c : Fin 128) : RowOpen.Statement (.channelDisable c) :=
  ⟨_, rfl, rfl⟩
theorem RowOpen.channelLock (c : Fin 128) : RowOpen.Statement (.channelLock c) :=
  ⟨_, rfl, rfl⟩
theorem RowOpen.lockTimeout (c : Fin 128) : RowOpen.Statement (.lockTimeout c) :=
  ⟨_, rfl, rfl⟩
theorem RowOpen.pillarDetect (h : Fin 32) (k : BitVec 16) : RowOpen.Statement (.pillarDetect h k) :=
  ⟨_, rfl, rfl⟩
theorem RowOpen.zoneReload (c : Fin 128) : RowOpen.Statement (.zoneReload c) :=
  ⟨_, rfl, rfl⟩
theorem RowOpen.driftSlot (c : Fin 128) (slot : Nat) : RowOpen.Statement (.driftSlot c slot) :=
  ⟨.driftSlot c 0, rfl, rfl⟩
theorem RowOpen.defect (c : Fin 128) : RowOpen.Statement (.defect c) :=
  ⟨_, rfl, rfl⟩
theorem RowOpen.driftDelivered (c : Fin 128) : RowOpen.Statement (.driftDelivered c) :=
  ⟨_, rfl, rfl⟩
theorem RowOpen.innerDecodeDone (c : Fin 128) : RowOpen.Statement (.innerDecodeDone c) :=
  ⟨_, rfl, rfl⟩
theorem RowOpen.lodeEnd (y : Fin 96) (passed : Bool) : RowOpen.Statement (.lodeEnd y passed) :=
  ⟨_, rfl, rfl⟩
theorem RowOpen.jobStart (a : Fin 8) : RowOpen.Statement (.jobStart a) :=
  ⟨_, rfl, rfl⟩
theorem RowOpen.jobDone (a : Fin 8) (buf : List Nat) (entry : List (Nat × Nat)) (out : List Nat) : RowOpen.Statement (.jobDone a buf entry out) :=
  ⟨.jobDone a buf entry out, rfl, rfl⟩
theorem RowOpen.entryLink (c : Fin 128) : RowOpen.Statement (.entryLink c) :=
  ⟨_, rfl, rfl⟩
theorem RowOpen.prcFlush (heads : BitVec 32) : RowOpen.Statement (.prcFlush heads) :=
  ⟨_, rfl, rfl⟩
theorem RowOpen.lingerExpiry (v : Fin 8) (n : Fin 64) : RowOpen.Statement (.lingerExpiry v n) :=
  ⟨_, rfl, rfl⟩
theorem RowOpen.writeOperationIssue (h : Fin 32) : RowOpen.Statement (.writeOperationIssue h) :=
  ⟨_, rfl, rfl⟩
theorem RowOpen.prepAtPosition (h : Fin 32) : RowOpen.Statement (.prepAtPosition h) :=
  ⟨_, rfl, rfl⟩
theorem RowOpen.calibrationRevsEnd (h : Fin 32) : RowOpen.Statement (.calibrationRevsEnd h) :=
  ⟨_, rfl, rfl⟩
theorem RowOpen.writeRevolutionEnd (h : Fin 32) : RowOpen.Statement (.writeRevolutionEnd h) :=
  ⟨_, rfl, rfl⟩
theorem RowOpen.verifyRevolutionEnd (h : Fin 32) : RowOpen.Statement (.verifyRevolutionEnd h) :=
  ⟨_, rfl, rfl⟩
theorem RowOpen.resolve (h : Fin 32) : RowOpen.Statement (.resolve h) :=
  ⟨_, rfl, rfl⟩
theorem RowOpen.wpRecovered (v : Fin 8) (n : Fin 64) : RowOpen.Statement (.wpRecovered v n) :=
  ⟨_, rfl, rfl⟩
theorem RowOpen.verifyOnlyLoadDone (x : LoadIn) : RowOpen.Statement (.verifyOnlyLoadDone x) :=
  ⟨.verifyOnlyLoadDone { keysMatch := 0, slotA := {}, slotB := {} }, rfl, rfl⟩
theorem RowOpen.flrComplete (fn : Fin 2) : RowOpen.Statement (.flrComplete fn) :=
  ⟨_, rfl, rfl⟩
theorem RowOpen.configRequest (fn : Fin 2) (r : CfgReq) : RowOpen.Statement (.configRequest fn r) :=
  ⟨.configRequest fn .ident, rfl, rfl⟩
theorem RowOpen.linkUp (speed : Nat) (width : Nat) : RowOpen.Statement (.linkUp speed width) :=
  ⟨.linkUp 4 4, rfl, rfl⟩
theorem RowOpen.completionReceived (tag : Nat) (bytes : List (BitVec 8)) (st : CplStatus) : RowOpen.Statement (.completionReceived tag bytes st) :=
  ⟨.completionReceived tag [] st, rfl, rfl⟩
theorem RowOpen.cplTimeout (tag : Nat) : RowOpen.Statement (.cplTimeout tag) :=
  ⟨_, rfl, rfl⟩
theorem RowOpen.peerRead (off : BitVec 30) (len : Nat) (x : CacheErr) : RowOpen.Statement (.peerRead off len x) :=
  ⟨.peerRead off 64 {}, rfl, rfl⟩
theorem RowOpen.peerWrite (off : BitVec 30) (bytes : List (BitVec 8)) (x : CacheErr) : RowOpen.Statement (.peerWrite off bytes x) :=
  ⟨.peerWrite off (List.replicate 64 0) {}, rfl, rfl⟩
theorem RowOpen.windowCommit (mask : BitVec 8) : RowOpen.Statement (.windowCommit mask) :=
  ⟨.windowCommit 1, rfl, rfl⟩
theorem RowOpen.msixVectorUnmask (fn : Fin 2) (v : BitVec 8) : RowOpen.Statement (.msixVectorUnmask fn v) :=
  ⟨.msixVectorUnmask fn 0, rfl, by unfold WellFormed; simp⟩
theorem RowOpen.badRegisterAccess (fn : Fin 2) (read : Bool) : RowOpen.Statement (.badRegisterAccess fn read) :=
  ⟨_, rfl, rfl⟩
theorem RowOpen.queuePairEnable (q : Fin 65) : RowOpen.Statement (.queuePairEnable q) :=
  ⟨_, rfl, rfl⟩
theorem RowOpen.queuePairDisable (q : Fin 65) : RowOpen.Statement (.queuePairDisable q) :=
  ⟨_, rfl, rfl⟩
theorem RowOpen.sqTailDoorbell (q : Fin 65) (w : BitVec 32) : RowOpen.Statement (.sqTailDoorbell q w) :=
  ⟨_, rfl, rfl⟩
theorem RowOpen.cqHeadDoorbell (q : Fin 65) (w : BitVec 32) : RowOpen.Statement (.cqHeadDoorbell q w) :=
  ⟨_, rfl, rfl⟩
theorem RowOpen.completionPost (q : Fin 65) : RowOpen.Statement (.completionPost q) :=
  ⟨_, rfl, rfl⟩
theorem RowOpen.coalTimeExpiry (q : Fin 65) : RowOpen.Statement (.coalTimeExpiry q) :=
  ⟨_, rfl, rfl⟩
theorem RowOpen.selfTestDone (v : Fin 8) : RowOpen.Statement (.selfTestDone v) :=
  ⟨_, rfl, rfl⟩
theorem RowOpen.configPiece (sigOk : Bool) : RowOpen.Statement (.configPiece sigOk) :=
  ⟨_, rfl, rfl⟩
theorem RowOpen.volumeMountProceed (v : Fin 8) : RowOpen.Statement (.volumeMountProceed v) :=
  ⟨_, rfl, rfl⟩
theorem RowOpen.scrubDone (last : BitVec 31) : RowOpen.Statement (.scrubDone last) :=
  ⟨_, rfl, rfl⟩
theorem RowOpen.scrubLap (ms : Nat) : RowOpen.Statement (.scrubLap ms) :=
  ⟨_, rfl, rfl⟩
theorem RowOpen.bucketLeak (x : Fin 2) : RowOpen.Statement (.bucketLeak x) :=
  ⟨_, rfl, rfl⟩
theorem RowOpen.bucketReset (x : Fin 2) (w : BitVec 32) : RowOpen.Statement (.bucketReset x w) :=
  ⟨_, rfl, rfl⟩
theorem RowOpen.tableLowWrite (a : BitVec 27) (w : BitVec 32) : RowOpen.Statement (.tableLowWrite a w) :=
  ⟨.tableLowWrite 0x1400000 0, rfl, by decide +kernel⟩
theorem RowOpen.tableHighWrite (a : BitVec 27) (w : BitVec 32) : RowOpen.Statement (.tableHighWrite a w) :=
  ⟨.tableHighWrite 0x1400004 0, rfl, by decide +kernel⟩
theorem RowOpen.tableLowRead (a : BitVec 27) : RowOpen.Statement (.tableLowRead a) :=
  ⟨.tableLowRead 0x1400000, rfl, by decide +kernel⟩
theorem RowOpen.wayPowerDown (w : Fin 16) (x : CacheErr) : RowOpen.Statement (.wayPowerDown w x) :=
  ⟨.wayPowerDown w {}, rfl, rfl⟩
theorem RowOpen.wayPowerUp (w : Fin 16) : RowOpen.Statement (.wayPowerUp w) :=
  ⟨_, rfl, rfl⟩
theorem RowOpen.wayOff (w : Fin 16) (x : CacheErr) : RowOpen.Statement (.wayOff w x) :=
  ⟨.wayOff w {}, rfl, rfl⟩
theorem RowOpen.lcaClean (place : Bool) (force : Bool) (x : CacheErr) : RowOpen.Statement (.lcaClean place force x) :=
  ⟨.lcaClean place force {}, rfl, rfl⟩
theorem RowOpen.lcaInvalidate (place : Bool) (force : Bool) (x : CacheErr) : RowOpen.Statement (.lcaInvalidate place force x) :=
  ⟨.lcaInvalidate place force {}, rfl, rfl⟩
theorem RowOpen.lcaCleanInvalidate (place : Bool) (force : Bool) (x : CacheErr) : RowOpen.Statement (.lcaCleanInvalidate place force x) :=
  ⟨.lcaCleanInvalidate place force {}, rfl, rfl⟩
theorem RowOpen.lcaPreload (w : Fin 16) (x : CacheErr) : RowOpen.Statement (.lcaPreload w x) :=
  ⟨.lcaPreload w {}, rfl, rfl⟩
theorem RowOpen.svnCommit (confirm : BitVec 8) : RowOpen.Statement (.svnCommit confirm) :=
  ⟨_, rfl, rfl⟩
theorem RowOpen.keyRevoke (confirm : BitVec 8) (slot : Fin 4) : RowOpen.Statement (.keyRevoke confirm slot) :=
  ⟨_, rfl, rfl⟩
theorem RowOpen.fuseProgramDone (bad : BitVec 64) : RowOpen.Statement (.fuseProgramDone bad) :=
  ⟨_, rfl, rfl⟩
theorem RowOpen.imageLoadDone (x : LoadIn) : RowOpen.Statement (.imageLoadDone x) :=
  ⟨.imageLoadDone { keysMatch := 0, slotA := {}, slotB := {} }, rfl, rfl⟩
theorem RowOpen.bootRecordSign (logOk : Bool) : RowOpen.Statement (.bootRecordSign logOk) :=
  ⟨_, rfl, rfl⟩
theorem RowOpen.pieceProgrammed (ok : Bool) : RowOpen.Statement (.pieceProgrammed ok) :=
  ⟨_, rfl, rfl⟩
theorem RowOpen.stageVerifyDone (f : Stored) : RowOpen.Statement (.stageVerifyDone f) :=
  ⟨.stageVerifyDone {}, rfl, rfl⟩
theorem RowOpen.stageCopyDone (f : Stored) : RowOpen.Statement (.stageCopyDone f) :=
  ⟨.stageCopyDone {}, rfl, rfl⟩
theorem RowOpen.armPrepared (f : Stored) : RowOpen.Statement (.armPrepared f) :=
  ⟨.armPrepared {}, rfl, rfl⟩
theorem RowOpen.shiftCommitReceived (e : BitVec 64) (f : BitVec 40) : RowOpen.Statement (.shiftCommitReceived e f) :=
  ⟨_, rfl, rfl⟩
theorem RowOpen.shiftTablesCopied (logOk : Bool) : RowOpen.Statement (.shiftTablesCopied logOk) :=
  ⟨_, rfl, rfl⟩
theorem RowOpen.frameStartReceived (x : FrameIn) : RowOpen.Statement (.frameStartReceived x) :=
  ⟨.frameStartReceived { time := 0, hops := 0 }, rfl, rfl⟩
theorem RowOpen.claimReceived (serial : BitVec 64) (time : BitVec 40) : RowOpen.Statement (.claimReceived serial time) :=
  ⟨_, rfl, rfl⟩
theorem RowOpen.frameReturned (lap : Nat) (path : Nat) (err : Int) (status : List (List Nat)) : RowOpen.Statement (.frameReturned lap path err status) :=
  ⟨.frameReturned lap 0 err [], rfl, rfl⟩
theorem RowOpen.shiftAbortReceived (e : BitVec 64) : RowOpen.Statement (.shiftAbortReceived e) :=
  ⟨_, rfl, rfl⟩
theorem RowOpen.pieceMessage (m : MsgIn) (sigOk : Bool) : RowOpen.Statement (.pieceMessage m sigOk) :=
  ⟨.pieceMessage { kind := 1, dest := 0, src := 0, words := [] } sigOk, rfl, rfl⟩
theorem RowOpen.mgmtMessage (m : MsgIn) : RowOpen.Statement (.mgmtMessage m) :=
  ⟨.mgmtMessage { kind := 2, dest := 0, src := 0, words := [] }, rfl, rfl⟩
theorem RowOpen.unitResetMessage (m : MsgIn) (x : StartIn) : RowOpen.Statement (.unitResetMessage m x) :=
  ⟨.unitResetMessage { kind := 3, dest := 0, src := 0, words := [] } x, rfl, rfl⟩
theorem RowOpen.shiftReqMessage (m : MsgIn) : RowOpen.Statement (.shiftReqMessage m) :=
  ⟨.shiftReqMessage { kind := 4, dest := 0, src := 0, words := [] }, rfl, rfl⟩
theorem RowOpen.excludeMessage (m : MsgIn) : RowOpen.Statement (.excludeMessage m) :=
  ⟨.excludeMessage { kind := 5, dest := 0, src := 0, words := [] }, rfl, rfl⟩
theorem RowOpen.msgSend (w : BitVec 32) : RowOpen.Statement (.msgSend w) :=
  ⟨_, rfl, rfl⟩
theorem RowOpen.msgReturned (m : MsgIn) (sigOk : Bool) : RowOpen.Statement (.msgReturned m sigOk) :=
  ⟨.msgReturned { kind := 2, dest := 0, src := 0, words := [] } sigOk, rfl, rfl⟩
theorem RowOpen.shiftRequest (w : BitVec 32) : RowOpen.Statement (.shiftRequest w) :=
  ⟨_, rfl, rfl⟩
theorem RowOpen.excludeRequest (w : BitVec 32) : RowOpen.Statement (.excludeRequest w) :=
  ⟨_, rfl, rfl⟩
theorem RowOpen.pornDeassert (x : StartIn) : RowOpen.Statement (.pornDeassert x) :=
  ⟨_, rfl, rfl⟩
theorem RowOpen.srstnDeassert (x : StartIn) : RowOpen.Statement (.srstnDeassert x) :=
  ⟨_, rfl, rfl⟩
theorem RowOpen.railFault (rail : Fin 8) : RowOpen.Statement (.railFault rail) :=
  ⟨_, rfl, rfl⟩
theorem RowOpen.sysclkReturn (x : StartIn) : RowOpen.Statement (.sysclkReturn x) :=
  ⟨_, rfl, rfl⟩
theorem RowOpen.lrefLoss (d : Fin 8) : RowOpen.Statement (.lrefLoss d) :=
  ⟨_, rfl, rfl⟩
theorem RowOpen.sensorSample (temps : List Int) (x : StartIn) : RowOpen.Statement (.sensorSample temps x) :=
  ⟨.sensorSample (List.replicate 16 0) x, rfl, rfl⟩
theorem RowOpen.calUnit (i : Fin 16) (u : Fin 41) (x : CalIn) : RowOpen.Statement (.calUnit i u x) :=
  ⟨_, rfl, rfl⟩
theorem RowOpen.evtClear (a : BitVec 27) (w : BitVec 32) : RowOpen.Statement (.evtClear a w) :=
  ⟨.evtClear 0x10 0, rfl, by decide +kernel⟩
theorem RowOpen.evtMaskWrite (a : BitVec 27) (w : BitVec 32) : RowOpen.Statement (.evtMaskWrite a w) :=
  ⟨.evtMaskWrite 0x14 0, rfl, by decide +kernel⟩
theorem RowOpen.evtForceWrite (a : BitVec 27) (w : BitVec 32) : RowOpen.Statement (.evtForceWrite a w) :=
  ⟨.evtForceWrite 0x18 0, rfl, by decide +kernel⟩
theorem RowOpen.rcRead (sp : RegSpace) (a : BitVec 32) : RowOpen.Statement (.rcRead sp a) :=
  ⟨.rcRead sp 0, rfl, by cases sp <;> rfl⟩
theorem RowOpen.registerWrite (sp : RegSpace) (a : BitVec 32) (w : BitVec 32) (x : CacheErr) (drvHigh : Bool) : RowOpen.Statement (.registerWrite sp a w x drvHigh) :=
  ⟨.registerWrite sp 0 w {} drvHigh, rfl, by cases sp <;> rfl⟩
theorem RowOpen.lrefReturn (d : Fin 8) : RowOpen.Statement (.lrefReturn d) :=
  ⟨_, rfl, rfl⟩
theorem RowOpen.railReturn (rail : Fin 8) : RowOpen.Statement (.railReturn rail) :=
  ⟨_, rfl, rfl⟩
theorem RowOpen.wayOn (w : Fin 16) : RowOpen.Statement (.wayOn w) :=
  ⟨_, rfl, rfl⟩
theorem RowOpen.profileTick : RowOpen.Statement (.profileTick) :=
  ⟨_, rfl, rfl⟩
theorem RowOpen.speedTick : RowOpen.Statement (.speedTick) :=
  ⟨_, rfl, rfl⟩
theorem RowOpen.holdover : RowOpen.Statement (.holdover) :=
  ⟨_, rfl, rfl⟩
theorem RowOpen.tckCountRead : RowOpen.Statement (.tckCountRead) :=
  ⟨_, rfl, rfl⟩
theorem RowOpen.slotReserve : RowOpen.Statement (.slotReserve) :=
  ⟨_, rfl, rfl⟩
theorem RowOpen.prcDisable : RowOpen.Statement (.prcDisable) :=
  ⟨_, rfl, rfl⟩
theorem RowOpen.perstAssert : RowOpen.Statement (.perstAssert) :=
  ⟨_, rfl, rfl⟩
theorem RowOpen.perstDeassert : RowOpen.Statement (.perstDeassert) :=
  ⟨_, rfl, rfl⟩
theorem RowOpen.hotReset : RowOpen.Statement (.hotReset) :=
  ⟨_, rfl, rfl⟩
theorem RowOpen.flrPf0 : RowOpen.Statement (.flrPf0) :=
  ⟨_, rfl, rfl⟩
theorem RowOpen.flrPf1 : RowOpen.Statement (.flrPf1) :=
  ⟨_, rfl, rfl⟩
theorem RowOpen.linkDown : RowOpen.Statement (.linkDown) :=
  ⟨_, rfl, rfl⟩
theorem RowOpen.decodeBoundary : RowOpen.Statement (.decodeBoundary) :=
  ⟨_, rfl, rfl⟩
theorem RowOpen.containmentForce : RowOpen.Statement (.containmentForce) :=
  ⟨_, rfl, rfl⟩
theorem RowOpen.containmentFrozen : RowOpen.Statement (.containmentFrozen) :=
  ⟨_, rfl, rfl⟩
theorem RowOpen.containmentRelease : RowOpen.Statement (.containmentRelease) :=
  ⟨_, rfl, rfl⟩
theorem RowOpen.pf0D3hot : RowOpen.Statement (.pf0D3hot) :=
  ⟨_, rfl, rfl⟩
theorem RowOpen.controllerEnable : RowOpen.Statement (.controllerEnable) :=
  ⟨_, rfl, rfl⟩
theorem RowOpen.controllerReset : RowOpen.Statement (.controllerReset) :=
  ⟨_, rfl, rfl⟩
theorem RowOpen.arbitration : RowOpen.Statement (.arbitration) :=
  ⟨_, rfl, rfl⟩
theorem RowOpen.read : RowOpen.Statement (.read) :=
  ⟨_, rfl, rfl⟩
theorem RowOpen.append : RowOpen.Statement (.append) :=
  ⟨_, rfl, rfl⟩
theorem RowOpen.writeAt : RowOpen.Statement (.writeAt) :=
  ⟨_, rfl, rfl⟩
theorem RowOpen.flush : RowOpen.Statement (.flush) :=
  ⟨_, rfl, rfl⟩
theorem RowOpen.sealSeam : RowOpen.Statement (.sealSeam) :=
  ⟨_, rfl, rfl⟩
theorem RowOpen.identify : RowOpen.Statement (.identify) :=
  ⟨_, rfl, rfl⟩
theorem RowOpen.getLog : RowOpen.Statement (.getLog) :=
  ⟨_, rfl, rfl⟩
theorem RowOpen.setFeature : RowOpen.Statement (.setFeature) :=
  ⟨_, rfl, rfl⟩
theorem RowOpen.getFeature : RowOpen.Statement (.getFeature) :=
  ⟨_, rfl, rfl⟩
theorem RowOpen.abort : RowOpen.Statement (.abort) :=
  ⟨_, rfl, rfl⟩
theorem RowOpen.selfTestShort : RowOpen.Statement (.selfTestShort) :=
  ⟨_, rfl, rfl⟩
theorem RowOpen.selfTestExtended : RowOpen.Statement (.selfTestExtended) :=
  ⟨_, rfl, rfl⟩
theorem RowOpen.selfTestStop : RowOpen.Statement (.selfTestStop) :=
  ⟨_, rfl, rfl⟩
theorem RowOpen.configArm : RowOpen.Statement (.configArm) :=
  ⟨_, rfl, rfl⟩
theorem RowOpen.attestRead : RowOpen.Statement (.attestRead) :=
  ⟨_, rfl, rfl⟩
theorem RowOpen.volumeMount : RowOpen.Statement (.volumeMount) :=
  ⟨_, rfl, rfl⟩
theorem RowOpen.volumeRelease : RowOpen.Statement (.volumeRelease) :=
  ⟨_, rfl, rfl⟩
theorem RowOpen.dramScrubGo : RowOpen.Statement (.dramScrubGo) :=
  ⟨_, rfl, rfl⟩
theorem RowOpen.dramScrubStop : RowOpen.Statement (.dramScrubStop) :=
  ⟨_, rfl, rfl⟩
theorem RowOpen.narrowWriteTimeout : RowOpen.Statement (.narrowWriteTimeout) :=
  ⟨_, rfl, rfl⟩
theorem RowOpen.testRawWrite : RowOpen.Statement (.testRawWrite) :=
  ⟨_, rfl, rfl⟩
theorem RowOpen.testRawRead : RowOpen.Statement (.testRawRead) :=
  ⟨_, rfl, rfl⟩
theorem RowOpen.testOpDone : RowOpen.Statement (.testOpDone) :=
  ⟨_, rfl, rfl⟩
theorem RowOpen.opDone : RowOpen.Statement (.opDone) :=
  ⟨_, rfl, rfl⟩
theorem RowOpen.stageAbandon : RowOpen.Statement (.stageAbandon) :=
  ⟨_, rfl, rfl⟩
theorem RowOpen.shiftFrameBegin : RowOpen.Statement (.shiftFrameBegin) :=
  ⟨_, rfl, rfl⟩
theorem RowOpen.shiftQuiescent : RowOpen.Statement (.shiftQuiescent) :=
  ⟨_, rfl, rfl⟩
theorem RowOpen.shiftStayTimeout : RowOpen.Statement (.shiftStayTimeout) :=
  ⟨_, rfl, rfl⟩
theorem RowOpen.ringEnable : RowOpen.Statement (.ringEnable) :=
  ⟨_, rfl, rfl⟩
theorem RowOpen.ringDisable : RowOpen.Statement (.ringDisable) :=
  ⟨_, rfl, rfl⟩
theorem RowOpen.ringElect : RowOpen.Statement (.ringElect) :=
  ⟨_, rfl, rfl⟩
theorem RowOpen.loopLocked : RowOpen.Statement (.loopLocked) :=
  ⟨_, rfl, rfl⟩
theorem RowOpen.loopFail : RowOpen.Statement (.loopFail) :=
  ⟨_, rfl, rfl⟩
theorem RowOpen.frameSilence : RowOpen.Statement (.frameSilence) :=
  ⟨_, rfl, rfl⟩
theorem RowOpen.electionRestart : RowOpen.Statement (.electionRestart) :=
  ⟨_, rfl, rfl⟩
theorem RowOpen.ringOpen : RowOpen.Statement (.ringOpen) :=
  ⟨_, rfl, rfl⟩
theorem RowOpen.collectExpiry : RowOpen.Statement (.collectExpiry) :=
  ⟨_, rfl, rfl⟩
theorem RowOpen.msgLost : RowOpen.Statement (.msgLost) :=
  ⟨_, rfl, rfl⟩
theorem RowOpen.rxBufferFree : RowOpen.Statement (.rxBufferFree) :=
  ⟨_, rfl, rfl⟩
theorem RowOpen.ringTimeRead : RowOpen.Statement (.ringTimeRead) :=
  ⟨_, rfl, rfl⟩
theorem RowOpen.pornAssert : RowOpen.Statement (.pornAssert) :=
  ⟨_, rfl, rfl⟩
theorem RowOpen.srstnAssert : RowOpen.Statement (.srstnAssert) :=
  ⟨_, rfl, rfl⟩
theorem RowOpen.clkFault : RowOpen.Statement (.clkFault) :=
  ⟨_, rfl, rfl⟩
theorem RowOpen.pcieRefLoss : RowOpen.Statement (.pcieRefLoss) :=
  ⟨_, rfl, rfl⟩
theorem RowOpen.calForce : RowOpen.Statement (.calForce) :=
  ⟨_, rfl, rfl⟩
theorem RowOpen.calPeriodic : RowOpen.Statement (.calPeriodic) :=
  ⟨_, rfl, rfl⟩
theorem RowOpen.pf0D0 : RowOpen.Statement (.pf0D0) :=
  ⟨_, rfl, rfl⟩
theorem RowOpen.hotResetReady : RowOpen.Statement (.hotResetReady) :=
  ⟨_, rfl, rfl⟩
theorem RowOpen.pcieRefReturn : RowOpen.Statement (.pcieRefReturn) :=
  ⟨_, rfl, rfl⟩
theorem RowOpen.ringInLockLoss : RowOpen.Statement (.ringInLockLoss) :=
  ⟨_, rfl, rfl⟩

end Sys2Proof.Laws
end

