-- ==== Sys2Proof/Laws/Reach.lean ====
section
/-!
SUPPORT. From frames by masks to the reach of a command: a frame whose mask the reach covers is what the reach says; a frame keeps
the canonical form.
-/
set_option Elab.async false

namespace Sys2Proof.Laws

open Sys2Proof.Machine

/-- The bit of a part in a mask. -/
def partBit : Part → Nat
  | .tick => 1
  | .tck => 2
  | .hif => 3
  | .hqi => 4
  | .vols => 5
  | .asy => 6
  | .heads => 7
  | .decks => 8
  | .chans => 9
  | .lanes => 10
  | .mem => 11
  | .cfg => 12
  | .trl => 13
  | .cal => 14
  | .pwr => 15
  | .free => 16
  | .dram => 18

/-- The mask of some parts. -/
def pm (l : List Part) : Nat := l.foldl (fun m p => m ||| 2 ^ partBit p) 0

/-- The mask of everything but the parts. -/
def W.fields : Nat := (2 ^ 19981 - 1) <<< 19 ||| 1

/-- The mask that a reach covers: outputs always. -/
def reachMask (r : Reach) : Nat := (if r.anyReg then W.fields else fm r.regs) ||| pm r.parts ||| 2 ^ 17

theorem foldOr_testBit {α : Type} (g : α → Nat) (l : List α) (m k : Nat) :
    (l.foldl (fun m x => m ||| 2 ^ g x) m).testBit k = true ↔ m.testBit k = true ∨ ∃ x ∈ l, g x = k := by
  induction l generalizing m with
  | nil => simp
  | cons x l ih =>
    rw [List.foldl_cons, ih]
    simp only [Nat.testBit_or, Nat.testBit_two_pow, Bool.or_eq_true, decide_eq_true_eq, List.mem_cons, exists_eq_or_imp]
    tauto

theorem fm_testBit (l : List Field) (k : Nat) : (fm l).testBit k = true ↔ ∃ f ∈ l, f.id = k := by
  have := foldOr_testBit (fun f : Field => f.id) l 0 k
  simpa [fm] using this

theorem pm_testBit (l : List Part) (k : Nat) : (pm l).testBit k = true ↔ ∃ p ∈ l, partBit p = k := by
  have := foldOr_testBit partBit l 0 k
  simpa [pm] using this

/-- A mask covers a reach: every field that the mask names is in the reach's list, every part too. -/
def covers (m : Nat) (r : Reach) : Bool := subMask m (reachMask r)

theorem partBit_inj {p q : Part} (h : partBit p = partBit q) : p = q := by
  cases p <;> cases q <;> first | rfl | (simp [partBit] at h)

set_option exponentiation.threshold 20001 in
theorem fields_testBit {k : Nat} (h : 0 < k) (h2 : k ≤ 18) : W.fields.testBit k = false := by
  unfold W.fields
  rw [Nat.testBit_or, Nat.testBit_shiftLeft]
  have h3 : ¬ k ≥ 19 := by omega
  have h4 : (2 ^ 0 : Nat).testBit k = false := by
    rw [Nat.testBit_two_pow]
    simp
    omega
  rw [show (1 : Nat) = 2 ^ 0 from rfl, h4]
  simp only [h3, decide_false, Bool.false_and, Bool.or_false]

theorem reachMask_part {r : Reach} {p : Part} (hp : p ∉ r.parts) (hr : r.anyReg = true ∨ ∀ f ∈ r.regs, 1000 < f.id) :
    (reachMask r).testBit (partBit p) = false := by
  have hlt : partBit p ≤ 1000 := by cases p <;> decide
  have e1 : (if r.anyReg then W.fields else fm r.regs).testBit (partBit p) = false := by
    split
    · exact fields_testBit (by cases p <;> decide) (by cases p <;> decide)
    · rename_i hany
      rw [← Bool.not_eq_true, fm_testBit]
      rintro ⟨f, hf, e⟩
      have := (hr.resolve_left hany) f hf
      omega
  have e2 : (pm r.parts).testBit (partBit p) = false := by
    rw [← Bool.not_eq_true, pm_testBit]
    rintro ⟨q, hq, e⟩
    exact hp (partBit_inj e ▸ hq)
  have e3 : (2 ^ 17 : Nat).testBit (partBit p) = false := by cases p <;> decide
  unfold reachMask
  rw [Nat.testBit_or, Nat.testBit_or, e1, e2, e3]
  rfl

/-- A frame is within a reach that covers its mask. -/
theorem Frame.within {m : Nat} {s t : State} {r : Reach} (h : Frame m s t) (hc : covers m r = true)
    (hr : r.anyReg = true ∨ ∀ f ∈ r.regs, 1000 < f.id) : r.holds s t := by
  have h2 : Frame (reachMask r) s t := h.mono hc
  refine ⟨?_, ?_, h2.tap, h2.pending⟩
  · intro f i h1 h3 hany hf
    refine h2.reg f i h3 ?_
    have e1 : (fm r.regs).testBit f.id = false := by
      rw [← Bool.not_eq_true, fm_testBit]
      rintro ⟨g, hg, e⟩
      exact hf g hg e
    have e2 : (pm r.parts).testBit f.id = false := by
      rw [← Bool.not_eq_true, pm_testBit]
      rintro ⟨p, -, e⟩
      have : partBit p ≤ 1000 := by cases p <;> decide
      omega
    have e3 : (2 ^ 17 : Nat).testBit f.id = false := by
      rw [Nat.testBit_two_pow]
      simp
      omega
    unfold reachMask
    rw [Nat.testBit_or, Nat.testBit_or, hany, if_neg Bool.false_ne_true, e1, e2, e3]
    rfl
  · intro p hp
    have hb := reachMask_part hp hr
    have no : ∀ {q : Prop} {k : Nat}, ((reachMask r).testBit k = true ∨ q) → (reachMask r).testBit k = false → q := by
      intro q k h1 h2
      exact h1.resolve_left (by rw [h2]; exact Bool.false_ne_true)
    cases p
    case hif =>
      rcases h2.hif with x | ⟨q, x⟩
      · exact absurd x (by rw [show (reachMask r).testBit 3 = false from hb]; exact Bool.false_ne_true)
      · show t.hif = { s.hif with pf1 := { s.hif.pf1 with pba := t.hif.pf1.pba } }
        rw [x]
    case dram => exact no h2.dram hb
    case tick => exact no h2.tick hb
    case tck => exact no h2.tck hb
    case hqi => exact no h2.hqi hb
    case vols => exact no h2.vols hb
    case asy => exact no h2.asy hb
    case heads => exact no h2.heads hb
    case decks => exact no h2.decks hb
    case chans => exact no h2.chans hb
    case lanes => exact no h2.lanes hb
    case mem => exact no h2.mem hb
    case cfg => exact no h2.cfg hb
    case trl => exact no h2.trl hb
    case cal => exact no h2.cal hb
    case pwr => exact no h2.pwr hb
    case free => exact no h2.free hb

/-- A frame keeps the canonical form. -/
theorem Frame.canonical {m : Nat} {s t : State} (h : Frame m s t) (hs : s.Canonical) : t.Canonical :=
  ⟨h.regs hs.1, (h.memWf ⟨hs.2.1, hs.2.2.1⟩).1, (h.memWf ⟨hs.2.1, hs.2.2.1⟩).2, h.tickLt hs.2.2.2⟩

end Sys2Proof.Laws
end

