-- ==== Sys2Proof/Laws/State.lean ====
section
/-!
SUPPORT. What the operations on a state change: one law per field per update, and the reading of a register after a write.
-/
namespace Sys2Proof.Laws

open Sys2Proof.Machine

@[simp] theorem setF_tick (s : State) (f : Field) (i v : Nat) : (s.setF f i v).tick = s.tick := rfl
@[simp] theorem setF_tck (s : State) (f : Field) (i v : Nat) : (s.setF f i v).tck = s.tck := rfl
@[simp] theorem setF_hif (s : State) (f : Field) (i v : Nat) : (s.setF f i v).hif = s.hif := rfl
@[simp] theorem setF_hqi (s : State) (f : Field) (i v : Nat) : (s.setF f i v).hqi = s.hqi := rfl
@[simp] theorem setF_vols (s : State) (f : Field) (i v : Nat) : (s.setF f i v).vols = s.vols := rfl
@[simp] theorem setF_asy (s : State) (f : Field) (i v : Nat) : (s.setF f i v).asy = s.asy := rfl
@[simp] theorem setF_heads (s : State) (f : Field) (i v : Nat) : (s.setF f i v).heads = s.heads := rfl
@[simp] theorem setF_decks (s : State) (f : Field) (i v : Nat) : (s.setF f i v).decks = s.decks := rfl
@[simp] theorem setF_chans (s : State) (f : Field) (i v : Nat) : (s.setF f i v).chans = s.chans := rfl
@[simp] theorem setF_lanes (s : State) (f : Field) (i v : Nat) : (s.setF f i v).lanes = s.lanes := rfl
@[simp] theorem setF_mem (s : State) (f : Field) (i v : Nat) : (s.setF f i v).mem = s.mem := rfl
@[simp] theorem setF_cfg (s : State) (f : Field) (i v : Nat) : (s.setF f i v).cfg = s.cfg := rfl
@[simp] theorem setF_trl (s : State) (f : Field) (i v : Nat) : (s.setF f i v).trl = s.trl := rfl
@[simp] theorem setF_cal (s : State) (f : Field) (i v : Nat) : (s.setF f i v).cal = s.cal := rfl
@[simp] theorem setF_pwr (s : State) (f : Field) (i v : Nat) : (s.setF f i v).pwr = s.pwr := rfl
@[simp] theorem setF_tap (s : State) (f : Field) (i v : Nat) : (s.setF f i v).tap = s.tap := rfl
@[simp] theorem setF_free (s : State) (f : Field) (i v : Nat) : (s.setF f i v).free = s.free := rfl
@[simp] theorem setF_out (s : State) (f : Field) (i v : Nat) : (s.setF f i v).out = s.out := rfl
@[simp] theorem setF_pending (s : State) (f : Field) (i v : Nat) : (s.setF f i v).pending = s.pending := rfl

@[simp] theorem setB_tick (s : State) (f : Field) (i : Nat) (b : Bool) : (s.setB f i b).tick = s.tick := rfl
@[simp] theorem setB_tck (s : State) (f : Field) (i : Nat) (b : Bool) : (s.setB f i b).tck = s.tck := rfl
@[simp] theorem setB_hif (s : State) (f : Field) (i : Nat) (b : Bool) : (s.setB f i b).hif = s.hif := rfl
@[simp] theorem setB_hqi (s : State) (f : Field) (i : Nat) (b : Bool) : (s.setB f i b).hqi = s.hqi := rfl
@[simp] theorem setB_vols (s : State) (f : Field) (i : Nat) (b : Bool) : (s.setB f i b).vols = s.vols := rfl
@[simp] theorem setB_asy (s : State) (f : Field) (i : Nat) (b : Bool) : (s.setB f i b).asy = s.asy := rfl
@[simp] theorem setB_heads (s : State) (f : Field) (i : Nat) (b : Bool) : (s.setB f i b).heads = s.heads := rfl
@[simp] theorem setB_decks (s : State) (f : Field) (i : Nat) (b : Bool) : (s.setB f i b).decks = s.decks := rfl
@[simp] theorem setB_chans (s : State) (f : Field) (i : Nat) (b : Bool) : (s.setB f i b).chans = s.chans := rfl
@[simp] theorem setB_lanes (s : State) (f : Field) (i : Nat) (b : Bool) : (s.setB f i b).lanes = s.lanes := rfl
@[simp] theorem setB_mem (s : State) (f : Field) (i : Nat) (b : Bool) : (s.setB f i b).mem = s.mem := rfl
@[simp] theorem setB_cfg (s : State) (f : Field) (i : Nat) (b : Bool) : (s.setB f i b).cfg = s.cfg := rfl
@[simp] theorem setB_trl (s : State) (f : Field) (i : Nat) (b : Bool) : (s.setB f i b).trl = s.trl := rfl
@[simp] theorem setB_cal (s : State) (f : Field) (i : Nat) (b : Bool) : (s.setB f i b).cal = s.cal := rfl
@[simp] theorem setB_pwr (s : State) (f : Field) (i : Nat) (b : Bool) : (s.setB f i b).pwr = s.pwr := rfl
@[simp] theorem setB_tap (s : State) (f : Field) (i : Nat) (b : Bool) : (s.setB f i b).tap = s.tap := rfl
@[simp] theorem setB_free (s : State) (f : Field) (i : Nat) (b : Bool) : (s.setB f i b).free = s.free := rfl
@[simp] theorem setB_out (s : State) (f : Field) (i : Nat) (b : Bool) : (s.setB f i b).out = s.out := rfl
@[simp] theorem setB_pending (s : State) (f : Field) (i : Nat) (b : Bool) : (s.setB f i b).pending = s.pending := rfl

@[simp] theorem putF_tick (s : State) (f : Field) (i b : Nat) (v : Bool) : (s.putF f i b v).tick = s.tick := rfl
@[simp] theorem putF_tck (s : State) (f : Field) (i b : Nat) (v : Bool) : (s.putF f i b v).tck = s.tck := rfl
@[simp] theorem putF_hif (s : State) (f : Field) (i b : Nat) (v : Bool) : (s.putF f i b v).hif = s.hif := rfl
@[simp] theorem putF_hqi (s : State) (f : Field) (i b : Nat) (v : Bool) : (s.putF f i b v).hqi = s.hqi := rfl
@[simp] theorem putF_vols (s : State) (f : Field) (i b : Nat) (v : Bool) : (s.putF f i b v).vols = s.vols := rfl
@[simp] theorem putF_asy (s : State) (f : Field) (i b : Nat) (v : Bool) : (s.putF f i b v).asy = s.asy := rfl
@[simp] theorem putF_heads (s : State) (f : Field) (i b : Nat) (v : Bool) : (s.putF f i b v).heads = s.heads := rfl
@[simp] theorem putF_decks (s : State) (f : Field) (i b : Nat) (v : Bool) : (s.putF f i b v).decks = s.decks := rfl
@[simp] theorem putF_chans (s : State) (f : Field) (i b : Nat) (v : Bool) : (s.putF f i b v).chans = s.chans := rfl
@[simp] theorem putF_lanes (s : State) (f : Field) (i b : Nat) (v : Bool) : (s.putF f i b v).lanes = s.lanes := rfl
@[simp] theorem putF_mem (s : State) (f : Field) (i b : Nat) (v : Bool) : (s.putF f i b v).mem = s.mem := rfl
@[simp] theorem putF_cfg (s : State) (f : Field) (i b : Nat) (v : Bool) : (s.putF f i b v).cfg = s.cfg := rfl
@[simp] theorem putF_trl (s : State) (f : Field) (i b : Nat) (v : Bool) : (s.putF f i b v).trl = s.trl := rfl
@[simp] theorem putF_cal (s : State) (f : Field) (i b : Nat) (v : Bool) : (s.putF f i b v).cal = s.cal := rfl
@[simp] theorem putF_pwr (s : State) (f : Field) (i b : Nat) (v : Bool) : (s.putF f i b v).pwr = s.pwr := rfl
@[simp] theorem putF_tap (s : State) (f : Field) (i b : Nat) (v : Bool) : (s.putF f i b v).tap = s.tap := rfl
@[simp] theorem putF_free (s : State) (f : Field) (i b : Nat) (v : Bool) : (s.putF f i b v).free = s.free := rfl
@[simp] theorem putF_out (s : State) (f : Field) (i b : Nat) (v : Bool) : (s.putF f i b v).out = s.out := rfl
@[simp] theorem putF_pending (s : State) (f : Field) (i b : Nat) (v : Bool) : (s.putF f i b v).pending = s.pending := rfl

@[simp] theorem addSat_tick (s : State) (f : Field) (i n : Nat) : (s.addSat f i n).tick = s.tick := rfl
@[simp] theorem addSat_tck (s : State) (f : Field) (i n : Nat) : (s.addSat f i n).tck = s.tck := rfl
@[simp] theorem addSat_hif (s : State) (f : Field) (i n : Nat) : (s.addSat f i n).hif = s.hif := rfl
@[simp] theorem addSat_hqi (s : State) (f : Field) (i n : Nat) : (s.addSat f i n).hqi = s.hqi := rfl
@[simp] theorem addSat_vols (s : State) (f : Field) (i n : Nat) : (s.addSat f i n).vols = s.vols := rfl
@[simp] theorem addSat_asy (s : State) (f : Field) (i n : Nat) : (s.addSat f i n).asy = s.asy := rfl
@[simp] theorem addSat_heads (s : State) (f : Field) (i n : Nat) : (s.addSat f i n).heads = s.heads := rfl
@[simp] theorem addSat_decks (s : State) (f : Field) (i n : Nat) : (s.addSat f i n).decks = s.decks := rfl
@[simp] theorem addSat_chans (s : State) (f : Field) (i n : Nat) : (s.addSat f i n).chans = s.chans := rfl
@[simp] theorem addSat_lanes (s : State) (f : Field) (i n : Nat) : (s.addSat f i n).lanes = s.lanes := rfl
@[simp] theorem addSat_mem (s : State) (f : Field) (i n : Nat) : (s.addSat f i n).mem = s.mem := rfl
@[simp] theorem addSat_cfg (s : State) (f : Field) (i n : Nat) : (s.addSat f i n).cfg = s.cfg := rfl
@[simp] theorem addSat_trl (s : State) (f : Field) (i n : Nat) : (s.addSat f i n).trl = s.trl := rfl
@[simp] theorem addSat_cal (s : State) (f : Field) (i n : Nat) : (s.addSat f i n).cal = s.cal := rfl
@[simp] theorem addSat_pwr (s : State) (f : Field) (i n : Nat) : (s.addSat f i n).pwr = s.pwr := rfl
@[simp] theorem addSat_tap (s : State) (f : Field) (i n : Nat) : (s.addSat f i n).tap = s.tap := rfl
@[simp] theorem addSat_free (s : State) (f : Field) (i n : Nat) : (s.addSat f i n).free = s.free := rfl
@[simp] theorem addSat_out (s : State) (f : Field) (i n : Nat) : (s.addSat f i n).out = s.out := rfl
@[simp] theorem addSat_pending (s : State) (f : Field) (i n : Nat) : (s.addSat f i n).pending = s.pending := rfl

@[simp] theorem count_tick (s : State) (f : Field) (i : Nat) : (s.count f i).tick = s.tick := rfl
@[simp] theorem count_tck (s : State) (f : Field) (i : Nat) : (s.count f i).tck = s.tck := rfl
@[simp] theorem count_hif (s : State) (f : Field) (i : Nat) : (s.count f i).hif = s.hif := rfl
@[simp] theorem count_hqi (s : State) (f : Field) (i : Nat) : (s.count f i).hqi = s.hqi := rfl
@[simp] theorem count_vols (s : State) (f : Field) (i : Nat) : (s.count f i).vols = s.vols := rfl
@[simp] theorem count_asy (s : State) (f : Field) (i : Nat) : (s.count f i).asy = s.asy := rfl
@[simp] theorem count_heads (s : State) (f : Field) (i : Nat) : (s.count f i).heads = s.heads := rfl
@[simp] theorem count_decks (s : State) (f : Field) (i : Nat) : (s.count f i).decks = s.decks := rfl
@[simp] theorem count_chans (s : State) (f : Field) (i : Nat) : (s.count f i).chans = s.chans := rfl
@[simp] theorem count_lanes (s : State) (f : Field) (i : Nat) : (s.count f i).lanes = s.lanes := rfl
@[simp] theorem count_mem (s : State) (f : Field) (i : Nat) : (s.count f i).mem = s.mem := rfl
@[simp] theorem count_cfg (s : State) (f : Field) (i : Nat) : (s.count f i).cfg = s.cfg := rfl
@[simp] theorem count_trl (s : State) (f : Field) (i : Nat) : (s.count f i).trl = s.trl := rfl
@[simp] theorem count_cal (s : State) (f : Field) (i : Nat) : (s.count f i).cal = s.cal := rfl
@[simp] theorem count_pwr (s : State) (f : Field) (i : Nat) : (s.count f i).pwr = s.pwr := rfl
@[simp] theorem count_tap (s : State) (f : Field) (i : Nat) : (s.count f i).tap = s.tap := rfl
@[simp] theorem count_free (s : State) (f : Field) (i : Nat) : (s.count f i).free = s.free := rfl
@[simp] theorem count_out (s : State) (f : Field) (i : Nat) : (s.count f i).out = s.out := rfl
@[simp] theorem count_pending (s : State) (f : Field) (i : Nat) : (s.count f i).pending = s.pending := rfl

@[simp] theorem keepMax_tick (s : State) (f : Field) (i v : Nat) : (s.keepMax f i v).tick = s.tick := rfl
@[simp] theorem keepMax_tck (s : State) (f : Field) (i v : Nat) : (s.keepMax f i v).tck = s.tck := rfl
@[simp] theorem keepMax_hif (s : State) (f : Field) (i v : Nat) : (s.keepMax f i v).hif = s.hif := rfl
@[simp] theorem keepMax_hqi (s : State) (f : Field) (i v : Nat) : (s.keepMax f i v).hqi = s.hqi := rfl
@[simp] theorem keepMax_vols (s : State) (f : Field) (i v : Nat) : (s.keepMax f i v).vols = s.vols := rfl
@[simp] theorem keepMax_asy (s : State) (f : Field) (i v : Nat) : (s.keepMax f i v).asy = s.asy := rfl
@[simp] theorem keepMax_heads (s : State) (f : Field) (i v : Nat) : (s.keepMax f i v).heads = s.heads := rfl
@[simp] theorem keepMax_decks (s : State) (f : Field) (i v : Nat) : (s.keepMax f i v).decks = s.decks := rfl
@[simp] theorem keepMax_chans (s : State) (f : Field) (i v : Nat) : (s.keepMax f i v).chans = s.chans := rfl
@[simp] theorem keepMax_lanes (s : State) (f : Field) (i v : Nat) : (s.keepMax f i v).lanes = s.lanes := rfl
@[simp] theorem keepMax_mem (s : State) (f : Field) (i v : Nat) : (s.keepMax f i v).mem = s.mem := rfl
@[simp] theorem keepMax_cfg (s : State) (f : Field) (i v : Nat) : (s.keepMax f i v).cfg = s.cfg := rfl
@[simp] theorem keepMax_trl (s : State) (f : Field) (i v : Nat) : (s.keepMax f i v).trl = s.trl := rfl
@[simp] theorem keepMax_cal (s : State) (f : Field) (i v : Nat) : (s.keepMax f i v).cal = s.cal := rfl
@[simp] theorem keepMax_pwr (s : State) (f : Field) (i v : Nat) : (s.keepMax f i v).pwr = s.pwr := rfl
@[simp] theorem keepMax_tap (s : State) (f : Field) (i v : Nat) : (s.keepMax f i v).tap = s.tap := rfl
@[simp] theorem keepMax_free (s : State) (f : Field) (i v : Nat) : (s.keepMax f i v).free = s.free := rfl
@[simp] theorem keepMax_out (s : State) (f : Field) (i v : Nat) : (s.keepMax f i v).out = s.out := rfl
@[simp] theorem keepMax_pending (s : State) (f : Field) (i v : Nat) : (s.keepMax f i v).pending = s.pending := rfl

@[simp] theorem raise_tick (s : State) (e : Event) (i : Nat) : (s.raise e i).tick = s.tick := rfl
@[simp] theorem raise_tck (s : State) (e : Event) (i : Nat) : (s.raise e i).tck = s.tck := rfl
@[simp] theorem raise_hif (s : State) (e : Event) (i : Nat) : (s.raise e i).hif = s.hif := rfl
@[simp] theorem raise_hqi (s : State) (e : Event) (i : Nat) : (s.raise e i).hqi = s.hqi := rfl
@[simp] theorem raise_vols (s : State) (e : Event) (i : Nat) : (s.raise e i).vols = s.vols := rfl
@[simp] theorem raise_asy (s : State) (e : Event) (i : Nat) : (s.raise e i).asy = s.asy := rfl
@[simp] theorem raise_heads (s : State) (e : Event) (i : Nat) : (s.raise e i).heads = s.heads := rfl
@[simp] theorem raise_decks (s : State) (e : Event) (i : Nat) : (s.raise e i).decks = s.decks := rfl
@[simp] theorem raise_chans (s : State) (e : Event) (i : Nat) : (s.raise e i).chans = s.chans := rfl
@[simp] theorem raise_lanes (s : State) (e : Event) (i : Nat) : (s.raise e i).lanes = s.lanes := rfl
@[simp] theorem raise_mem (s : State) (e : Event) (i : Nat) : (s.raise e i).mem = s.mem := rfl
@[simp] theorem raise_cfg (s : State) (e : Event) (i : Nat) : (s.raise e i).cfg = s.cfg := rfl
@[simp] theorem raise_trl (s : State) (e : Event) (i : Nat) : (s.raise e i).trl = s.trl := rfl
@[simp] theorem raise_cal (s : State) (e : Event) (i : Nat) : (s.raise e i).cal = s.cal := rfl
@[simp] theorem raise_pwr (s : State) (e : Event) (i : Nat) : (s.raise e i).pwr = s.pwr := rfl
@[simp] theorem raise_tap (s : State) (e : Event) (i : Nat) : (s.raise e i).tap = s.tap := rfl
@[simp] theorem raise_free (s : State) (e : Event) (i : Nat) : (s.raise e i).free = s.free := rfl
@[simp] theorem raise_out (s : State) (e : Event) (i : Nat) : (s.raise e i).out = s.out := rfl
@[simp] theorem raise_pending (s : State) (e : Event) (i : Nat) : (s.raise e i).pending = s.pending := rfl

@[simp] theorem emit_regs (s : State) (o : Output) : (s.emit o).regs = s.regs := rfl
@[simp] theorem emit_tick (s : State) (o : Output) : (s.emit o).tick = s.tick := rfl
@[simp] theorem emit_tck (s : State) (o : Output) : (s.emit o).tck = s.tck := rfl
@[simp] theorem emit_hif (s : State) (o : Output) : (s.emit o).hif = s.hif := rfl
@[simp] theorem emit_hqi (s : State) (o : Output) : (s.emit o).hqi = s.hqi := rfl
@[simp] theorem emit_vols (s : State) (o : Output) : (s.emit o).vols = s.vols := rfl
@[simp] theorem emit_asy (s : State) (o : Output) : (s.emit o).asy = s.asy := rfl
@[simp] theorem emit_heads (s : State) (o : Output) : (s.emit o).heads = s.heads := rfl
@[simp] theorem emit_decks (s : State) (o : Output) : (s.emit o).decks = s.decks := rfl
@[simp] theorem emit_chans (s : State) (o : Output) : (s.emit o).chans = s.chans := rfl
@[simp] theorem emit_lanes (s : State) (o : Output) : (s.emit o).lanes = s.lanes := rfl
@[simp] theorem emit_mem (s : State) (o : Output) : (s.emit o).mem = s.mem := rfl
@[simp] theorem emit_cfg (s : State) (o : Output) : (s.emit o).cfg = s.cfg := rfl
@[simp] theorem emit_trl (s : State) (o : Output) : (s.emit o).trl = s.trl := rfl
@[simp] theorem emit_cal (s : State) (o : Output) : (s.emit o).cal = s.cal := rfl
@[simp] theorem emit_pwr (s : State) (o : Output) : (s.emit o).pwr = s.pwr := rfl
@[simp] theorem emit_tap (s : State) (o : Output) : (s.emit o).tap = s.tap := rfl
@[simp] theorem emit_free (s : State) (o : Output) : (s.emit o).free = s.free := rfl
@[simp] theorem emit_pending (s : State) (o : Output) : (s.emit o).pending = s.pending := rfl

@[simp] theorem bump_regs (s : State) : s.bump.regs = s.regs := rfl
@[simp] theorem bump_tick (s : State) : s.bump.tick = s.tick := rfl
@[simp] theorem bump_tck (s : State) : s.bump.tck = s.tck := rfl
@[simp] theorem bump_hif (s : State) : s.bump.hif = s.hif := rfl
@[simp] theorem bump_hqi (s : State) : s.bump.hqi = s.hqi := rfl
@[simp] theorem bump_vols (s : State) : s.bump.vols = s.vols := rfl
@[simp] theorem bump_asy (s : State) : s.bump.asy = s.asy := rfl
@[simp] theorem bump_heads (s : State) : s.bump.heads = s.heads := rfl
@[simp] theorem bump_decks (s : State) : s.bump.decks = s.decks := rfl
@[simp] theorem bump_chans (s : State) : s.bump.chans = s.chans := rfl
@[simp] theorem bump_lanes (s : State) : s.bump.lanes = s.lanes := rfl
@[simp] theorem bump_mem (s : State) : s.bump.mem = s.mem := rfl
@[simp] theorem bump_cfg (s : State) : s.bump.cfg = s.cfg := rfl
@[simp] theorem bump_trl (s : State) : s.bump.trl = s.trl := rfl
@[simp] theorem bump_cal (s : State) : s.bump.cal = s.cal := rfl
@[simp] theorem bump_pwr (s : State) : s.bump.pwr = s.pwr := rfl
@[simp] theorem bump_tap (s : State) : s.bump.tap = s.tap := rfl
@[simp] theorem bump_out (s : State) : s.bump.out = s.out := rfl
@[simp] theorem bump_pending (s : State) : s.bump.pending = s.pending := rfl

@[simp] theorem emit_out (s : State) (o : Output) : (s.emit o).out = s.out ++ [o] := rfl
@[simp] theorem bump_free (s : State) : s.bump.free = s.free + 1 := rfl
@[simp] theorem emit_getF (s : State) (o : Output) (f : Field) (i : Nat) : (s.emit o).getF f i = s.getF f i := rfl
@[simp] theorem bump_getF (s : State) (f : Field) (i : Nat) : s.bump.getF f i = s.getF f i := rfl

/-- A field reads the value written, cut to its width. -/
@[simp] theorem getF_setF (s : State) (f : Field) (i v : Nat) : (s.setF f i v).getF f i = v % 2 ^ f.width :=
  regGet_regSet_same _ _ _ _

/-- Every other field and instance reads as before. -/
theorem getF_setF_ne (s : State) {f g : Field} {i j : Nat} (v : Nat) (h : ¬ (f.id = g.id ∧ i = j)) :
    (s.setF f i v).getF g j = s.getF g j := regGet_regSet_ne _ _ _ _ _ _ h

theorem getF_setF_fld (s : State) {f g : Field} {i j : Nat} (v : Nat) (h : f.id ≠ g.id) :
    (s.setF f i v).getF g j = s.getF g j := getF_setF_ne s v fun x => h x.1

theorem getF_setB_fld (s : State) {f g : Field} {i j : Nat} (b : Bool) (h : f.id ≠ g.id) :
    (s.setB f i b).getF g j = s.getF g j := getF_setF_fld s _ h

theorem getF_putF_fld (s : State) {f g : Field} {i j b : Nat} (v : Bool) (h : f.id ≠ g.id) :
    (s.putF f i b v).getF g j = s.getF g j := getF_setF_fld s _ h

theorem getF_count_fld (s : State) {f g : Field} {i j : Nat} (h : f.id ≠ g.id) : (s.count f i).getF g j = s.getF g j :=
  getF_setF_fld s _ h

theorem getF_setB (s : State) (f : Field) (i : Nat) (b : Bool) (hw : 1 ≤ f.width) : (s.setB f i b).getF f i = b.toNat := by
  unfold State.setB
  rw [getF_setF]
  refine Nat.mod_eq_of_lt (lt_of_le_of_lt (Bool.toNat_le b) ?_)
  calc 1 < 2 ^ 1 := by norm_num
    _ ≤ 2 ^ f.width := Nat.pow_le_pow_right (by norm_num) hw

theorem isSet_setB (s : State) (f : Field) (i : Nat) (b : Bool) (hw : 1 ≤ f.width) : (s.setB f i b).isSet f i = b := by
  unfold State.isSet
  rw [getF_setB s f i b hw]
  cases b <;> rfl

theorem getF_count (s : State) (f : Field) (i : Nat) :
    (s.count f i).getF f i = min (s.getF f i + 1) (2 ^ f.width - 1) := by
  unfold State.count State.addSat
  rw [getF_setF, Nat.mod_eq_of_lt]
  have := Nat.two_pow_pos f.width
  omega

/-- Raising an event sets its bit. -/
theorem isSet_raise (s : State) (e : Event) (i : Nat) (hw : 1 ≤ e.fld.width) (hn : e.reg.forced.id ≠ e.fld.id) :
    (s.raise e i).isSet e.fld i = true := by
  unfold State.raise State.isSet
  rw [getF_putF_fld _ _ hn, getF_setB _ _ _ _ hw]
  rfl

/-- Raising an event changes only its bit and its mark. -/
theorem getF_raise_ne (s : State) (e : Event) {g : Field} {i j : Nat} (h : e.fld.id ≠ g.id) (k : e.reg.forced.id ≠ g.id) :
    (s.raise e i).getF g j = s.getF g j := by
  unfold State.raise
  rw [getF_putF_fld _ _ k, getF_setB_fld _ _ h]

end Sys2Proof.Laws
end

