-- ==== Sys2Proof/Tests/Slice0.lean ====
section
/-!
SUPPORT. Small tests. First witnesses: for each statement with hypotheses, states and operands that meet the hypotheses of each of
its clauses together, at boundary values of the operands. Then values taken from the spec's own tables and examples. Last a term
for each check of well-formedness that the check refuses.
-/
set_option Elab.async false

open Sys2Proof Sys2Proof.Machine

/-! ### States to test on -/

/-- The state after reset with the load over and the PCI Express link active: registers may be reached. -/
def tBase : State := ({ State.reset with cfg := {} } : State).setB F.HIF_LINK_DL_ACTIVE 0 true

/-- Some fields written: field, instance, value. -/
def tPut (l : List (Machine.Field × Nat × Nat)) (s : State) : State := l.foldl (fun t p => t.setF p.1 p.2.1 p.2.2) s

/-- The base with some fields written. -/
def tW (l : List (Machine.Field × Nat × Nat)) : State := tPut l tBase

theorem tMounts_iff (s : State) : s.MountsWait ↔ ∀ v < 8, (s.vol v).mount.all (·.waiting) = true :=
  ⟨fun h v hv => by cases e : (s.vol v).mount with
    | none => rfl
    | some m => exact h v hv m e,
   fun h v hv m hm => by simpa [hm] using h v hv⟩

theorem tQuiet_iff (s : State) : s.HostQuiet ↔
    (∀ c ∈ s.hqi.cmds, c.stage ≠ .running ∨ (c.opc ≠ 0x13 ∧ c.opc ≠ 0x0B ∧ (c.waiting = false ∨ c.seam? = none))) ∧
    (∀ v < 8, (s.test v).running = none) ∧ ∀ v < 8, (s.vol v).mount.all (·.waiting) = true := by
  unfold State.HostQuiet Cmd.settled; rw [tMounts_iff]

theorem tOnly_iff (s : State) (c : Cmd) : s.OnlyCommand c ↔
    s.hqi.cmds = [c] ∧ c.stage = .taken ∧ s.hif.reqs = [] ∧ s.mayIssue 0 = true ∧ (∀ v < 8, (s.test v).running = none) ∧
    ∀ v < 8, (s.vol v).mount.all (·.waiting) = true := by
  unfold State.OnlyCommand; rw [tMounts_iff]

/-- One head changed. -/
def tHead (h : Nat) (f : HeadS → HeadS) (s : State) : State := s.setHead h (f (s.head h))

/-- The 112 bits searched for the sync of slot 0, newest first: it stands in their middle. -/
def tSync : List SoftBit :=
  ((List.range 112).zip (List.replicate 24 false ++ bitsMsb 64 driftSync ++ List.replicate 24 false)).reverse.map fun p =>
    { lam := if p.2 then -1 else 1, pos := 360 + p.1, num := 0, bad := false, env := 0, err := none }

/-- A host command of the last queue pair to volume 7. -/
def tCmd (opc : Nat) : Cmd :=
  { pos := 0, q := 64, cid := 1, opc := opc, vol := 7, lba := 2 ^ 29 - 2 ^ 23, nblk := 1, dptr1 := 4096, dptr2 := 0, csf := [63] }

/-- Volume 7 mounted, the heads of its outer sides parked, the commands under way. -/
def tHost (l : List Cmd) (fs : List (Machine.Field × Nat × Nat)) : State :=
  ((tW ([(F.CLR_STATUS_STATE, 31, hdPARKED), (F.CLR_STATUS_STATE, 30, hdPARKED)] ++ fs)).setVol 7 { mounted := true }).setCmds l

/-- A lode of seam 63 with nothing recorded yet. -/
def tLode : SealedLode := { index := 0, user := [.pad] }

/-- A stored image of a device without decks: a sentence of PLACE for the lode cache with 16 ways and the end, encrypted with AES-256-GCM
under the key and nonce 0; ciphertext and tag computed with OpenSSL's AES. -/
def tStored : Stored where
  bytes := [69, 84, 70, 82, 1, 0, 0, 0, 7, 0, 0, 0, 0, 0, 0, 0, 1, 0, 0, 0, 0, 0, 0, 0, 72, 0, 0, 0, 1, 0, 0, 0] ++
    List.replicate 4064 0 ++ [197, 173, 50, 245, 175, 61, 184, 242, 94, 125, 200, 224, 67, 98, 235, 160] ++ List.replicate 4080 0 ++
    [157, 233, 20, 126, 79, 96, 107, 110, 6, 78, 197, 211, 186, 243, 157, 24, 114, 96, 3, 202, 55, 166, 42, 116, 209, 162, 245, 142, 117,
      6, 53, 142, 220, 70, 177, 40, 69, 74, 225, 123, 65, 232, 89, 36, 138, 90, 191, 97, 70, 65, 203, 225, 145, 187, 127, 48, 158, 124,
      29, 227, 171, 12, 58, 31, 208, 196, 143, 115, 124, 46, 233, 130]
  key := some (List.replicate 32 0)

theorem tSome {α β : Type} {p : α × Option β} (h : p.2.isSome = true) : ∃ u d, p = (u, some d) := by
  obtain ⟨u, _ | d⟩ := p
  · cases h
  · exact ⟨u, d, rfl⟩

theorem tPlaced {r : LoadRes} (h : (match r with | .placed _ => true | .failed _ _ => false) = true) : ∃ u, r = .placed u := by
  cases r with
  | placed u => exact ⟨u, rfl⟩
  | failed c n => cases h

theorem tNext {o : Host.Outcome State Fault Refusal} (h : (match o with | .next _ => true | _ => false) = true) : ∃ t, o = .next t := by
  cases o with
  | next t => exact ⟨t, rfl⟩
  | fault r => cases h
  | refused r => cases h

/-! ### Witnesses -/

theorem witness_StepTakesTheFront : State.reset.pending = [] := rfl

/-- The canonical state of reset with commands in front answers a next state. -/
theorem witness_EveryStepKeepsCanonicalForm : State.reset.Canonical ∧
    ({ State.reset with pending := [.hotReset, .calForce] } : State).Canonical ∧
    ∃ t, step ({ State.reset with pending := [.hotReset, .calForce] } : State) = .next t :=
  ⟨by unfold State.Canonical; decide +kernel, by unfold State.Canonical; decide +kernel, tNext (by decide +kernel)⟩

/-- The five fields that reset does not leave at their reset value are not TCK_CTL's. -/
theorem witness_ResetIsCanonical :
    ∀ g ∈ [F.CFG_KEYS_FUSED, F.PWR_STATUS_PCIE_REF, F.PWR_STATUS_SYSCLK, F.PWR_STATUS_LREF, F.PWR_STATUS_RAILS],
      g.id ≠ F.TCK_CTL_STEP_LIM.id := by decide +kernel

theorem witness_DisciplineLock :
    (let s : State := State.reset
     let es : List Nat := List.replicate 16 1
     s.isSet F.TCK_STATUS_LOCK 0 = false ∧ s.tck.inRun = 0 ∧ ((∀ e ∈ es, e ≤ 1))) ∧
    (let s : State := tW [(F.TCK_STATUS_LOCK, 0, 1)]
     let es : List Nat := List.replicate 4 5
     s.isSet F.TCK_STATUS_LOCK 0 = true ∧ s.tck.outRun = 0 ∧ ((∀ e ∈ es, 4 < e))) ∧
    (let s : State := tW [(F.TCK_STATUS_LOCK, 0, 1)]
     let es : List Nat := List.replicate 4 5
     s.isSet F.TCK_STATUS_LOCK 0 = true ∧ s.tck.outRun = 0 ∧ ((∀ e ∈ es, 4 < e)) ∧ 4 ≤ es.length) ∧
    (let e := (2 : Nat)
     1 < e) ∧
    (let e := (4 : Nat)
     e ≤ 4) ∧
    (let e := (2 : Nat)
     1 < e ∧ e ≤ 4) ∧
    (let e := (4 : Nat)
     1 < e ∧ e ≤ 4) ∧
    (let s : State := tW [(F.TCK_CTL_DISC_EN, 0, 1)]
     s.isSet F.TCK_CTL_DISC_EN 0 = true) :=
  ⟨by decide +kernel, by decide +kernel, by decide +kernel, by decide +kernel, by decide +kernel, by decide +kernel,
    by decide +kernel, by decide +kernel⟩

theorem witness_RefusedCommit :
    (let m : Nat := 128
     let s : State := { tW [(F.HIF_WIN_SIZE_CTL_EN, 7, 1)] with hif := { tBase.hif with commits := [m] } }
     let rest : List Nat := []
     s.pwr.held = [] ∧ s.hif.commits = m :: rest ∧ ((∃ w < 8, m.testBit w = true ∧ s.isSet F.HIF_WIN_SIZE_CTL_EN w = true ∧
      
       (s.getF F.HIF_WIN_SIZE_CTL_SIZE w = 0 ∨ 64 < s.getF F.HIF_WIN_SIZE_CTL_SIZE w ∨
          s.dramLines * 64 < s.getF
       F.HIF_WIN_BASE_LO_BASE_LO w * 2 ^ 21 + s.getF F.HIF_WIN_BASE_HI_BASE_HI w * 2 ^ 32 +
            s.getF
       F.HIF_WIN_SIZE_CTL_SIZE w * 2 ^ 21)))) ∧
    (let m : Nat := 128
     let s : State :=
       { tW [(F.HIF_WIN_SIZE_CTL_EN, 7, 1), (F.HIF_WIN_SIZE_CTL_SIZE, 7, 64), (F.MEM_STATUS_GIB, 0, 16)] with hif := { tBase.hif with commits := [m] } }
     let rest : List Nat := []
     s.pwr.held = [] ∧ s.hif.commits = m :: rest ∧ ((∀ w < 8, m.testBit w = true → s.isSet F.HIF_WIN_SIZE_CTL_EN w = true →
      
       s.getF F.HIF_WIN_SIZE_CTL_SIZE w ≠ 0 ∧ s.getF F.HIF_WIN_SIZE_CTL_SIZE w ≤ 64 ∧
          s.getF F.HIF_WIN_BASE_LO_BASE_LO w *
       2 ^ 21 + s.getF F.HIF_WIN_BASE_HI_BASE_HI w * 2 ^ 32 +
            s.getF F.HIF_WIN_SIZE_CTL_SIZE w * 2 ^ 21 ≤ s.dramLines *
       64))) := by
  decide +kernel

theorem witness_DisciplinedTckCtl :
    (let s : State := tW [(F.TCK_CTL_DISC_EN, 0, 1)]
     let w : BitVec 32 := 0x10
     s.pf1Served = true ∧ s.isSet F.TCK_CTL_DISC_EN 0 = true ∧ (min 3125 (max 8 (bitsOf w.toNat 31 16)) ≠ s.getF
       F.TCK_CTL_STEP_LIM 0 ∨ bitsOf w.toNat 5 4 ≠ s.getF F.TCK_CTL_SLEW 0)) ∧
    (let s : State := tW [(F.TCK_CTL_DISC_EN, 0, 1), (F.TCK_CTL_STEP_LIM, 0, 8), (F.TCK_CTL_SLEW, 0, 0)]
     let w : BitVec 32 := 0x90000
     s.pf1Served = true ∧ s.isSet F.TCK_CTL_DISC_EN 0 = true ∧ (min 3125 (max 8 (bitsOf w.toNat 31 16)) ≠ s.getF
       F.TCK_CTL_STEP_LIM 0 ∨ bitsOf w.toNat 5 4 ≠ s.getF F.TCK_CTL_SLEW 0)) ∧
    (let s : State := tW [(F.TCK_CTL_DISC_EN, 0, 1), (F.TCK_CTL_STEP_LIM, 0, 8), (F.TCK_CTL_SLEW, 0, 0)]
     let w : BitVec 32 := 0x70001
     s.pf1Served = true ∧ s.isSet F.TCK_CTL_DISC_EN 0 = true ∧ min 3125 (max 8 (bitsOf w.toNat 31 16)) = s.getF F.TCK_CTL_STEP_LIM
       0 ∧ bitsOf w.toNat 5 4 = s.getF F.TCK_CTL_SLEW 0) := by
  decide +kernel

theorem witness_LeakyBuckets :
    (let s : State := tBase
     let x : Fin 2 := 1
     s.getF F.MEM_CE_STATUS_LEVEL x + 1 ≤ max 1 (s.getF F.MEM_CE_CTL_DEPTH x) ∧ s.getF F.MEM_CE_STATUS_LEVEL x + 1 < 2 ^ 16) ∧
    (let s : State := tBase.setF F.MEM_CE_STATUS_LEVEL 1 (tBase.getF F.MEM_CE_CTL_DEPTH 1)
     let x : Fin 2 := 1
     max 1 (s.getF F.MEM_CE_CTL_DEPTH x) < s.getF F.MEM_CE_STATUS_LEVEL x + 1) := by
  decide +kernel

theorem witness_TickRows :
    (let s : State := tBase
     s.pwr.held = []) ∧
    (let s : State := { tBase with tick := 10 }
     s.pwr.held = [] ∧ s.onTick 10 = true) ∧
    (let s : State := (tW [(F.SLD_STATUS_STATE, 31, slIDLE)]).updSld 31 fun a => { a with req := 1 }
     let h : Fin 32 := 31
     s.pwr.held = [] ∧ s.onTick 20 = true ∧ ((∀ g < h.val, s.axis g = slOFF ∧ s.clr g = hdOFF)) ∧ s.axisTakes h = true ∧ (s.sld
       h).req ≠ 0) ∧
    (let s : State := tW [(F.WND_STATUS_STATE, 7, dkLOADED)]
     let d : Fin 8 := 7
     s.pwr.held = [] ∧ s.onTick 100 = true ∧ s.deck d ≠ dkEMPTY ∧ ((∀ e < 8, e ≠ d.val → s.deck e = dkEMPTY))) ∧
    (let s : State := { tW [(F.TCK_CTL_DISC_EN, 0, 1)] with tick := 200 }
     s.pwr.held = [] ∧ s.isSet F.TCK_CTL_DISC_EN 0 = true ∧ s.isSet F.TCK_STATUS_HOLDOVER 0 = false ∧ 200 ≤ s.ticksSince
       s.tck.since) ∧
    (let s : State := tW [(F.CLR_STATUS_STATE, 31, hdFOLLOW)]
     let h : Fin 32 := 31
     let cycles := (1081 : Nat)
     s.pwr.held = [] ∧ (cycles = 0 ∨ 1080 < cycles) ∧ s.clr h ≠ hdOFF ∧ s.tck.repeated = false ∧ (s.cl h).ovr.head? ≠ some s.tick) ∧
    (let s : State := tW [(F.CLR_STATUS_STATE, 31, hdSAFE)]
     let h : Fin 32 := 31
     let cycles := (0 : Nat)
     s.pwr.held = [] ∧ (cycles = 0 ∨ 1080 < cycles) ∧ s.clr h ≠ hdOFF ∧ s.tck.repeated = false ∧ (s.cl h).ovr.head? ≠ some s.tick) ∧
    (let s : State := tBase
     s.pwr.held = [] ∧ s.tck.repeated = false) ∧
    (let s : State := tW [(F.ASY_SLOT_STATE, 95, 2)]
     let y : Fin 96 := 95
     s.pwr.held = [] ∧ s.passDue y = true) :=
  ⟨by decide +kernel, by decide +kernel, by decide +kernel, by decide +kernel, by decide +kernel, by decide +kernel,
    by decide +kernel, by decide +kernel, by decide +kernel⟩

theorem witness_TickRegisterRows :
    (let s : State := tBase
     s.pf1Served = true ∧ s.isSet F.TCK_CTL_DISC_EN 0 = false) ∧
    (let s : State := tW [(F.TCK_CTL_DISC_EN, 0, 1)]
     let w : BitVec 32 := 0x30
     s.pf1Served = true ∧ s.isSet F.TCK_CTL_DISC_EN 0 = true ∧ bitsOf w.toNat 5 4 ≠ s.getF F.TCK_CTL_SLEW 0) ∧
    (let s : State := tBase
     let w : BitVec 32 := 400
     s.pf1Served = true ∧ 400 ≤ bitsOf w.toNat 15 0 ∧ bitsOf w.toNat 15 0 ≤ 16000) ∧
    (let s : State := tBase
     let w : BitVec 32 := 16000
     s.pf1Served = true ∧ 400 ≤ bitsOf w.toNat 15 0 ∧ bitsOf w.toNat 15 0 ≤ 16000) ∧
    (let s : State := tBase
     let w : BitVec 32 := 399
     s.pf1Served = true ∧ (bitsOf w.toNat 15 0 < 400 ∨ 16000 < bitsOf w.toNat 15 0)) ∧
    (let s : State := tBase
     let w : BitVec 32 := 16001
     s.pf1Served = true ∧ (bitsOf w.toNat 15 0 < 400 ∨ 16000 < bitsOf w.toNat 15 0)) ∧
    (let s : State := { tBase with tick := 2 ^ 48 - 1 }
     s.pf1Served = true ∧ s.tick < 2 ^ 48) :=
  ⟨by decide +kernel, by decide +kernel, by decide +kernel, by decide +kernel, by decide +kernel, by decide +kernel,
    by decide +kernel⟩

theorem witness_RoutingRows :
    (let s : State := tW [(F.WND_STATUS_STATE, 7, dkREADY), (F.CLR_STATUS_STATE, 30, hdPARKED)]
     let h : Fin 32 := 31
     s.pf1Served = true ∧ s.taken h = false ∧ s.moving h = false ∧ s.taken (partner h) = false ∧ s.moving (partner h) = false ∧
       s.deck (deckOfHead h) = dkREADY ∧ s.partnerFit h = true) ∧
    (let s : State := tBase
     let h : Fin 32 := 31
     s.pf1Served = true ∧ s.taken h = false ∧ (s.deck (deckOfHead h) ≠ dkREADY ∨ s.partnerFit h = false)) ∧
    (let s : State := tW [(F.WND_STATUS_STATE, 7, dkREADY), (F.CLR_STATUS_STATE, 30, hdHOLD)]
     let h : Fin 32 := 31
     s.pf1Served = true ∧ s.taken h = false ∧ (s.deck (deckOfHead h) ≠ dkREADY ∨ s.partnerFit h = false)) ∧
    (let s : State := (tW [(F.CLR_STATUS_STATE, 31, hdPARKED)]).updBand 31 fun b => { b with unserved := true }
     let h : Fin 32 := 31
     s.pf1Served = true ∧ s.moving h = false ∧ s.unserved h = true ∧ s.eligible h = true) ∧
    (let s : State := (tBase).updBand 31 fun b => { b with handback := true }
     let h : Fin 32 := 31
     s.pwr.held = [] ∧ (s.head h).band.handback = true ∧ s.worksOn (partner h) h = false) ∧
    (let s : State := (tW [(F.CLR_STATUS_STATE, 30, hdPARKED), (F.LRN_LOOP_STATUS_REVS, (lrnIdx 30 0), 255),
       (F.LRN_LOOP_STATUS_REVS, (lrnIdx 30 1), 255)]).updBand 31 fun b => { b with take := .waitPartner }
     let h : Fin 32 := 31
     s.pwr.held = [] ∧ s.HostQuiet ∧ (s.head h).band.take = .waitPartner ∧ s.partnerFree h = true ∧ s.bandSeeds (partner h) =
       false ∧ ((∀ i < 2, s.seedMin (partner h) ≤ s.getF F.LRN_LOOP_STATUS_REVS (lrnIdx (partner h) i)))) ∧
    (let s : State := (tW [(F.CLR_STATUS_STATE, 30, hdPARKED)]).updBand 31 fun b => { b with take := .seeking 2 }
     let h : Fin 32 := 31
     let n := (2 : Nat)
     s.pwr.held = [] ∧ s.HostQuiet ∧ (s.head h).band.take = .seeking n ∧ s.seekUnderWay (partner h) = false ∧ s.idlePoint (partner
       h) = true) :=
  ⟨by decide +kernel, by decide +kernel, by decide +kernel, by decide +kernel, by decide +kernel,
    by simp only [tQuiet_iff]; decide +kernel, by simp only [tQuiet_iff]; decide +kernel⟩

theorem witness_TakeoverRowsComplete :
    (let s : State := tW [(F.WND_STATUS_STATE, 7, dkREADY), (F.CLR_STATUS_STATE, 30, hdPARKED)]
     let h : Fin 32 := 31
     s.pf1Served = true ∧ s.HostQuiet ∧ s.taken h = false ∧ s.moving h = false ∧ s.taken (partner h) = false ∧ s.moving (partner
       h) = false ∧ s.deck (deckOfHead h) = dkREADY ∧ s.partnerFit h = true) ∧
    (let s : State := tW [(F.CLR_STATUS_STATE, 31, hdFOLLOW), (F.GLB_TAKEOVER_SERVED_BY_PARTNER, 0, (2 ^ 31))]
     let h : Fin 32 := 31
     s.pf1Served = true ∧ s.HostQuiet ∧ s.moving h = false ∧ s.unserved h = false ∧ s.taken h = true ∧ s.eligible h = true) ∧
    (let s : State := (tBase).updBand 31 fun b => { b with handback := true }
     let h : Fin 32 := 31
     s.pf1Served = true ∧ s.HostQuiet ∧ (s.head h).band.handback = true ∧ s.worksOn (partner h) h = false ∧ s.asy.waiting = []) ∧
    (let s : State := (tW [(F.CLR_STATUS_STATE, 30, hdPARKED), (F.LRN_LOOP_STATUS_REVS, (lrnIdx 30 0), 255),
       (F.LRN_LOOP_STATUS_REVS, (lrnIdx 30 1), 255)]).updBand 31 fun b => { b with take := .waitPartner }
     let h : Fin 32 := 31
     s.pf1Served = true ∧ s.HostQuiet ∧ (s.head h).band.take = .waitPartner ∧ s.partnerFree h = true ∧ s.bandSeeds (partner h) =
       false ∧ ((∀ i < 2, s.seedMin (partner h) ≤ s.getF F.LRN_LOOP_STATUS_REVS (lrnIdx (partner h) i) ∨
        s.getF
       F.LRN_LOOP_STATUS_REVS (lrnIdx h i) < s.seedMin (partner h)))) ∧
    (let s : State := (tW [(F.CLR_STATUS_STATE, 30, hdFOLLOW)]).updBand 31 fun b => { b with take := .waitPartner }
     let h : Fin 32 := 31
     s.pf1Served = true ∧ s.HostQuiet ∧ (s.head h).band.take = .waitPartner ∧ s.partnerFree h = true ∧ s.bandSeeds (partner h) =
       false ∧ ((∀ i < 2, s.seedMin (partner h) ≤ s.getF F.LRN_LOOP_STATUS_REVS (lrnIdx (partner h) i) ∨
        s.getF
       F.LRN_LOOP_STATUS_REVS (lrnIdx h i) < s.seedMin (partner h)))) ∧
    (let s : State := (tW [(F.CLR_STATUS_STATE, 30, hdPARKED), (F.LRN_LOOP_STATUS_REVS, (lrnIdx 31 1), 255)]).updBand 31 fun b =>
       { b with take := .waitPartner }
     let h : Fin 32 := 31
     let i : Fin 2 := 1
     s.pf1Served = true ∧ s.HostQuiet ∧ (s.head h).band.take = .waitPartner ∧ s.partnerFree h = true ∧ s.getF
       F.LRN_LOOP_STATUS_REVS (lrnIdx (partner h) i) < s.seedMin (partner h) ∧ s.seedMin (partner h) ≤ s.getF F.LRN_LOOP_STATUS_REVS
       (lrnIdx h i)) ∧
    (let s : State := (tW [(F.CLR_STATUS_STATE, 30, hdPARKED)]).updBand 31 fun b => { b with take := .seeking 2 }
     let h : Fin 32 := 31
     let n := (2 : Nat)
     s.pf1Served = true ∧ s.HostQuiet ∧ (s.head h).band.take = .seeking n ∧ s.seekUnderWay (partner h) = false ∧ s.idlePoint
       (partner h) = true) :=
  ⟨by simp only [tQuiet_iff]; decide +kernel, by simp only [tQuiet_iff]; decide +kernel, by simp only [tQuiet_iff]; decide +kernel,
    by simp only [tQuiet_iff]; decide +kernel, by simp only [tQuiet_iff]; decide +kernel, by simp only [tQuiet_iff]; decide +kernel,
    by simp only [tQuiet_iff]; decide +kernel⟩

theorem witness_CollierCommandRows :
    (let s : State := tBase
     s.pf1Served = true) ∧
    (let s : State := tW [(F.LNK_HEAD_STATUS_STATE, 31, lkUP)]
     let h : Fin 32 := 31
     s.pf1Served = true ∧ s.clr h = hdOFF ∧ s.linkUp h = true) ∧
    (let s : State := tBase
     let h : Fin 32 := 31
     s.pf1Served = true ∧ s.clr h ≠ hdSAFE) ∧
    (let s : State := tW [(F.CLR_STATUS_STATE, 31, hdSAFE)]
     let h : Fin 32 := 31
     s.pf1Served = true ∧ s.clr h = hdSAFE) ∧
    (let s : State := tW [(F.CLR_COEF_COMMIT_PEND, 31, 1)]
     let h : Fin 32 := 31
     s.pwr.held = [] ∧ s.isSet F.CLR_COEF_COMMIT_PEND h = true ∧ s.clr h ≠ hdWRITE) :=
  ⟨by decide +kernel, by decide +kernel, by decide +kernel, by decide +kernel, by decide +kernel⟩

theorem witness_CollierEventRows :
    (let ldm := (1023 : Nat)
     let s : State := ((tW [(F.CLR_STATUS_STATE, 31, hdFOLLOW), (F.CLR_CTL_RP_EN, 31, 1), (F.CLR_RP_STATUS_CODE, 31, 1023),
       (F.CLR_RP_LIM_MAX, 31, 1023)]).updClr 31 fun c => { c with rpWait := tBase.rpDiv 31 }).updLink 31 fun l =>
       { l with ldm := some 1023 }
     let h : Fin 32 := 31
     s.pwr.held = [] ∧ (s.link h).ldm = some ldm ∧ s.rpDue h = true ∧ s.getF F.CLR_RP_LIM_MIN h ≤ s.getF F.CLR_RP_STATUS_CODE h ∧
       s.getF F.CLR_RP_STATUS_CODE h ≤ s.getF F.CLR_RP_LIM_MAX h ∧ s.getF F.CLR_RP_LIM_MAX h < 1024) ∧
    (let o := ({ kind := .seek, vol := 7, seam := 63, layer := 15 } : MediaOp)
     let s : State := tHead 31 (fun x => { x with ops := [o] }) (tW [(F.CLR_STATUS_STATE, 31, hdPARKED),
       (F.WND_STATUS_ANGLE_VALID, 7, 1)])
     let h : Fin 32 := 31
     let rest := ([] : List MediaOp)
     s.pwr.held = [] ∧ (s.head h).ops = o :: rest ∧ s.clr h = hdPARKED ∧ (s.head h).op = none ∧ s.frozen = false ∧ s.isSet
       F.HQI_CSTS_HELD 0 = false ∧ s.angleValid (deckOfHead h) = true ∧ o.kind ≠ .park ∧ s.axisAwaited h = false ∧ o.layer < 16) ∧
    (let s : State := ((tBase).updClr 31 fun c => { c with seq := some (.acqTrack 4000) })
     let h : Fin 32 := 31
     s.pwr.held = [] ∧ s.acqExhausted h = true) ∧
    (let c := (2 : Nat)
     let s : State := ((tBase).updClr 31 fun c => { c with seq := some (.kick 5 1 3 2 0 0 0) })
     let h : Fin 32 := 31
     let a := (5 : Nat)
     let d := (1 : Int)
     let n := (3 : Nat)
     let k := (0 : Nat)
     let r := (0 : Nat)
     let rep := (0 : Nat)
     s.pwr.held = [] ∧ (s.cl h).seq = some (.kick a d n c k r rep) ∧ (n + 1) / 2 ≤ c) ∧
    (let c := (3 : Nat)
     let s : State := ((tBase).updClr 31 fun c => { c with seq := some (.brake 5 (-1) 3 3 0 0 0) })
     let h : Fin 32 := 31
     let a := (5 : Nat)
     let d := (-1 : Int)
     let n := (3 : Nat)
     let k := (0 : Nat)
     let r := (0 : Nat)
     let rep := (0 : Nat)
     s.pwr.held = [] ∧ (s.cl h).seq = some (.brake a d n c k r rep) ∧ n ≤ c) ∧
    (let s : State := ((tW [(F.CLR_STATUS_STATE, 31, hdSEEK)]).updClr 31 fun c => { c with seq := some (.sledTrack 5 0 4000) })
     let h : Fin 32 := 31
     s.pwr.held = [] ∧ s.seekMissed h = true ∧ s.clr h ≠ hdOFF ∧ s.clr h ≠ hdSAFE) ∧
    (let s : State := ((tBase).updClr 31 fun c => { c with seq := some (.sledMove 5 3 true 2) })
     let h : Fin 32 := 31
     let a := (5 : Nat)
     let rep := (3 : Nat)
     let z := (2 : Nat)
     s.pwr.held = [] ∧ (s.cl h).seq = some (.sledMove a rep true z) ∧ 2 ≤ z) ∧
    (let o := ({ kind := .seek, layer := 15, track := 5 } : MediaOp)
     let s : State := tHead 31 (fun x => { x with op := some o }) ((tW [(F.CLR_STATUS_STATE, 31, hdSEEK), (F.CLR_STATUS_TF, 31,
       1), (F.CLR_STATUS_TRK_VALID, 31, 1), (F.CLR_POS_LAYER, 31, 15), (F.CLR_POS_TRACK, 31, 5), (F.CLR_POS_EST, 31, 0)]).updClr 31
       fun c => { c with seq := some .ended })
     let h : Fin 32 := 31
     s.pwr.held = [] ∧ s.clr h = hdSEEK ∧ (s.cl h).seq = some .ended ∧ s.isSet F.CLR_STATUS_TF h = true ∧ s.frozen = false ∧
       (s.head h).op = some o ∧ o.kind = .seek ∧ s.getF F.CLR_POS_LAYER h = o.layer ∧ s.atTrack h o.track = true) ∧
    (let s : State := ((tW [(F.CLR_LAYER_CTL_KT, 31, 3)]).updClr 31 fun c => { c with seq := some (.hop 15 1 3 0 0 0) })
     let h : Fin 32 := 31
     let a := (15 : Nat)
     let d := (1 : Int)
     let k := (3 : Nat)
     let p := (0 : Int)
     let ok := (0 : Nat)
     s.pwr.held = [] ∧ (s.cl h).seq = some (.hop a d k 0 p ok) ∧ s.getF F.CLR_LAYER_CTL_KT h ≤ k) ∧
    (let s : State := ((tW [(F.CLR_POS_LAYER, 31, 15)]).updClr 31 fun c => { c with seq := some (.hop 15 1 3 3 0 64) })
     let h : Fin 32 := 31
     let d := (1 : Int)
     let k := (3 : Nat)
     let p := (0 : Int)
     let ok := (64 : Nat)
     s.pwr.held = [] ∧ (s.cl h).seq = some (.hop (s.getF F.CLR_POS_LAYER h) d k 3 p ok) ∧ 64 ≤ ok) ∧
    (let s : State := ((tW [(F.CLR_LAYER_CTL_TMO, 31, 1)]).updClr 31 fun c => { c with seq := some (.hop 15 1 4 2 0 0) })
     let h : Fin 32 := 31
     let a := (15 : Nat)
     let d := (1 : Int)
     let k := (4 : Nat)
     let q := (2 : Nat)
     let p := (0 : Int)
     let ok := (0 : Nat)
     s.pwr.held = [] ∧ (s.cl h).seq = some (.hop a d k q p ok) ∧ 4 * s.getF F.CLR_LAYER_CTL_TMO h ≤ k) ∧
    (let s : State := ((tW [(F.CLR_STATUS_STATE, 31, hdACQUIRE)]).updClr 31 fun c => { c with noAngle := 400 })
     let h : Fin 32 := 31
     s.pwr.held = [] ∧ working (s.clr h) = true ∧ 400 ≤ (s.cl h).noAngle) ∧
    (let s : State := ((tW [(F.CLR_STATUS_STATE, 31, hdHOLD)]).updClr 31 fun c => { c with noAngle := 400 })
     let h : Fin 32 := 31
     s.pwr.held = [] ∧ working (s.clr h) = true ∧ 400 ≤ (s.cl h).noAngle) ∧
    (let o := ({ kind := .seek, layer := 15, track := 5 } : MediaOp)
     let s : State := tHead 31 (fun x => { x with op := some o }) ((tW [(F.CLR_STATUS_STATE, 31, hdFOLLOW), (F.CLR_POS_EST, 31,
       1)]).updClr 31 fun c => { c with fixWait := 4000 })
     let h : Fin 32 := 31
     s.pwr.held = [] ∧ s.HostQuiet ∧ s.waitsFix h = true ∧ 4000 ≤ (s.cl h).fixWait ∧ (s.head h).op = some o ∧ o.kind = .seek ∧
       s.wcy h = wsIDLE) ∧
    (let s : State := ((tW [(F.CLR_STATUS_STATE, 31, hdHOLD), (F.CLR_HOLD_CTL_MIN, 31, 8), (F.CLR_LOOP_CTL_CLOSED, 94, 0)]).updClr
       31 fun c => { c with hold := 8, okRun := 64, sinceShock := 64 })
     let h : Fin 32 := 31
     s.pwr.held = [] ∧ s.holdMayEnd h = true ∧ s.closed h 1 = false ∧ (s.cl h).seq = none) ∧
    (let s : State := ((tW [(F.CLR_STATUS_STATE, 31, hdHOLD), (F.CLR_HOLD_CTL_MIN, 31, 8), (F.CLR_LOOP_CTL_CLOSED, 94, 1),
       (F.CLR_STATUS_TF, 31, 1)]).updClr 31 fun c => { c with hold := 8, okRun := 64, sinceShock := 64 })
     let h : Fin 32 := 31
     s.pwr.held = [] ∧ s.holdMayEnd h = true ∧ s.closed h 1 = true ∧ s.isSet F.CLR_STATUS_TF h = true ∧ (s.head h).op = none ∧
       s.frozen = false) ∧
    (let s : State := ((tW [(F.CLR_STATUS_STATE, 31, hdHOLD), (F.CLR_HOLD_CTL_MAX, 31, 255)]).updClr 31 fun c =>
       { c with hold := 4080 })
     let h : Fin 32 := 31
     s.pwr.held = [] ∧ s.clr h = hdHOLD ∧ 16 * max 1 (s.getF F.CLR_HOLD_CTL_MAX h) ≤ (s.cl h).hold) :=
  ⟨by decide +kernel, by decide +kernel, by decide +kernel, by decide +kernel, by decide +kernel, by decide +kernel,
    by decide +kernel, by decide +kernel, by decide +kernel, by decide +kernel, by decide +kernel, by decide +kernel,
    by decide +kernel, by simp only [tQuiet_iff]; decide +kernel, by decide +kernel, by decide +kernel, by decide +kernel⟩

theorem witness_SledRows :
    (let s : State := tW [(F.SLD_STATUS_STATE, 31, slIDLE)]
     let h : Fin 32 := 31
     s.pf1Served = true ∧ s.axisTakes h = true ∧ s.getF F.SLD_GEOM_GROUP h = 0) ∧
    (let s : State := tW [(F.SLD_STATUS_STATE, 31, slMOVING), (F.SLD_GEOM_GROUP, 31, 7)]
     let h : Fin 32 := 31
     s.pf1Served = true ∧ s.axisTakes h = true ∧ s.getF F.SLD_GEOM_GROUP h ≠ 0) ∧
    (let s : State := tBase
     let h : Fin 32 := 31
     s.pf1Served = true ∧ s.axisTakes h = false) ∧
    (let s : State := tW [(F.SLD_STATUS_STATE, 31, slFAULT)]
     let h : Fin 32 := 31
     s.pf1Served = true ∧ s.axisTakes h = false) ∧
    (let s : State := (tW [(F.SLD_GEOM_GROUP, 31, 7)]).updSld 31 fun a => { a with pend := some 1000 }
     let h : Fin 32 := 31
     let w : BitVec 32 := 0x80
     let x : Int := 1000
     s.pf1Served = true ∧ s.getF F.SLD_GEOM_GROUP h ≠ 0 ∧ w.toNat.testBit (s.getF F.SLD_GEOM_GROUP h) = true ∧ (s.sld h).pend =
       some x) ∧
    (let s : State := tW [(F.SLD_STATUS_STATE, 31, slMOVING)]
     let h : Fin 32 := 31
     s.pf1Served = true ∧ s.axis h = slMOVING) ∧
    (let s : State := tW [(F.SLD_STATUS_STATE, 31, slMOVING)]
     let h : Fin 32 := 31
     s.pf1Served = true ∧ s.axisTakes h = true) ∧
    (let s : State := tW [(F.SLD_STATUS_STATE, 31, slIDLE)]
     let h : Fin 32 := 31
     s.pf1Served = true ∧ s.axisTakes h = true) ∧
    (let s : State := tW [(F.SLD_STATUS_STATE, 31, slUNHOMED)]
     let h : Fin 32 := 31
     s.pf1Served = true ∧ s.axis h = slUNHOMED) ∧
    (let s : State := tW [(F.SLD_STATUS_STATE, 31, slOFF), (F.CLR_STATUS_STATE, 31, hdPARKED)]
     let h : Fin 32 := 31
     s.pf1Served = true ∧ s.axis h = slOFF ∧ s.clr h ≠ hdOFF) ∧
    (let s : State := tBase
     let h : Fin 32 := 31
     s.pf1Served = true ∧ (s.axis h ≠ slFAULT ∨ (s.sld h).faultAt ≠ some s.tick)) ∧
    (let s : State := (tW [(F.SLD_STATUS_STATE, 31, slFAULT)]).updSld 31 fun a => { a with faultAt := some 1 }
     let h : Fin 32 := 31
     s.pf1Served = true ∧ (s.axis h ≠ slFAULT ∨ (s.sld h).faultAt ≠ some s.tick)) ∧
    (let s : State := (tW [(F.SLD_STATUS_STATE, 31, slFAULT)]).updSld 31 fun a => { a with faultAt := some 0 }
     let h : Fin 32 := 31
     s.pf1Served = true ∧ s.axis h = slFAULT ∧ (s.sld h).faultAt = some s.tick) ∧
    (let s : State := (tW [(F.SLD_STATUS_RAW, 31, 1), (F.SLD_HOME_CTL_POL, 31, 1), (F.SLD_HOME_CTL_DEB, 31, 8)]).updSld 31 fun a
       => { a with run := 8 }
     let h : Fin 32 := 31
     s.pwr.held = [] ∧ s.rawActive h ≠ s.isSet F.SLD_STATUS_SWITCH h ∧ s.sldDeb h ≤ (s.sld h).run) ∧
    (let s : State := (tW [(F.SLD_STATUS_STATE, 31, slHOMING), (F.SLD_HOME_CTL_POL, 31, 1)]).updSld 31 fun a =>
       { a with travel := 2 ^ 40, time := 2 ^ 40 }
     let h : Fin 32 := 31
     s.pwr.held = [] ∧ s.homeExpired h = true ∧ s.rawActive h = s.isSet F.SLD_STATUS_SWITCH h) ∧
    (let s : State := tW [(F.SLD_STATUS_STATE, 31, slFAULT)]
     let h : Fin 32 := 31
     s.pwr.held = [] ∧ s.axisRuns h = true ∧ s.onTick 20 = true) ∧
    (let s : State := (tBase).updSld 31 fun a => { a with offAt := some (0, 0, false) }
     let h : Fin 32 := 31
     s.pwr.held = [] ∧ s.axisRuns h = true ∧ s.onTick 20 = true) :=
  ⟨by decide +kernel, by decide +kernel, by decide +kernel, by decide +kernel, by decide +kernel, by decide +kernel,
    by decide +kernel, by decide +kernel, by decide +kernel, by decide +kernel, by decide +kernel, by decide +kernel,
    by decide +kernel, by decide +kernel, by decide +kernel, by decide +kernel, by decide +kernel⟩

theorem witness_LearnerRows :
    (let s : State := (tBase).updLrnLoop 31 1 fun l => { l with copy := some (30, 1024) }
     let h : Fin 32 := 31
     let i : Fin 2 := 1
     let src := (30 : Nat)
     let n := (1024 : Nat)
     s.pwr.held = [] ∧ (s.lrnLoop h i).copy = some (src, n) ∧ 1024 ≤ n) ∧
    (let s : State := tW [(F.LRN_CTL_LEARN, 31, 2), (F.LRN_LOOP_STATUS_REVS, (lrnIdx 30 1), 255)]
     let h : Fin 32 := 31
     let i : Fin 2 := 1
     s.pf1Served = true ∧ s.seedBusy h = false ∧ s.learnOn h i = true ∧ s.seedMin h ≤ s.getF F.LRN_LOOP_STATUS_REVS (lrnIdx
       (partner h) i)) ∧
    (let s : State := (tBase).updLrnLoop 31 1 fun l => { l with copy := some (30, 5) }
     let h : Fin 32 := 31
     s.pf1Served = true ∧ s.seedBusy h = true) ∧
    (let s : State := tBase
     s.pf1Served = true) :=
  ⟨by decide +kernel, by decide +kernel, by decide +kernel, by decide +kernel⟩

theorem witness_LinkRegisterRows :
    (let s : State := tBase
     let h : Fin 32 := 31
     s.pf1Served = true ∧ s.lk h = lkOFF) ∧
    (let s : State := tBase
     s.pf1Served = true) ∧
    (let s : State := tBase
     let l : Fin 256 := 255
     s.pf1Served = true ∧ s.clr (l / 8) = hdOFF) ∧
    (let s : State := tW [(F.CLR_STATUS_STATE, 31, hdPARKED)]
     let l : Fin 256 := 255
     s.pf1Served = true ∧ s.clr (l / 8) ≠ hdOFF) ∧
    (let s : State := tBase
     let h : Fin 32 := 31
     s.pf1Served = true ∧ s.clr h = hdOFF ∧ s.isSet F.LNK_HFE_CMD_BUSY h = false) ∧
    (let s : State := tW [(F.CLR_STATUS_STATE, 31, hdPARKED)]
     let h : Fin 32 := 31
     s.pf1Served = true ∧ s.clr h ≠ hdOFF) ∧
    (let s : State := tBase
     let h : Fin 32 := 31
     let w : BitVec 32 := 0x20
     let f : Fin 6 := 5
     s.pf1Served = true ∧ w.toNat.testBit f = true ∧ (s.link h).wait = [] ∧ (s.link h).base ≤ (s.link h).due) ∧
    (let s : State := tBase
     let h : Fin 32 := 31
     s.pf1Served = true ∧ s.lk h = lkOFF) ∧
    (let s : State := tBase
     let l : Fin 256 := 253
     s.pf1Served = true ∧ l.val % 8 < 6) ∧
    (let s : State := tBase
     let w : BitVec 32 := 0x80000010
     s.pf1Served = true ∧ bitsOf w.toNat 31 31 = 1 ∧ 16 ≤ bitsOf w.toNat 10 0 ∧ bitsOf w.toNat 10 0 ≤ 224) ∧
    (let s : State := tBase
     let w : BitVec 32 := 0x800000E0
     s.pf1Served = true ∧ bitsOf w.toNat 31 31 = 1 ∧ 16 ≤ bitsOf w.toNat 10 0 ∧ bitsOf w.toNat 10 0 ≤ 224) ∧
    (let s : State := tBase
     let w : BitVec 32 := 0x8000000F
     s.pf1Served = true ∧ bitsOf w.toNat 31 31 = 1 ∧ (bitsOf w.toNat 10 0 < 16 ∨ 224 < bitsOf w.toNat 10 0)) ∧
    (let s : State := tBase
     let w : BitVec 32 := 0x800000E1
     s.pf1Served = true ∧ bitsOf w.toNat 31 31 = 1 ∧ (bitsOf w.toNat 10 0 < 16 ∨ 224 < bitsOf w.toNat 10 0)) :=
  ⟨by decide +kernel, by decide +kernel, by decide +kernel, by decide +kernel, by decide +kernel, by decide +kernel,
    by decide +kernel, by decide +kernel, by decide +kernel, by decide +kernel, by decide +kernel, by decide +kernel,
    by decide +kernel⟩

theorem witness_LinkEventRows :
    (let it := ({ seq := 0, tag := 0, crc := 0, words := List.replicate 14 { w := 0, par := 0, poison := false } } : Item)
     let s : State := ((tW [(F.LNK_HEAD_STATUS_STATE, 31, lkUP), (F.LNK_HEAD_STATUS_ACTIVE, 31, 0x20), (F.LNK_HEAD_STATUS_SPARE,
       31, 7), (F.LNK_LANE_STATUS_BLOCK_LOCK, 253, 1)]).updLink 31 fun k => { k with cur := some (5, 3) }).setFifo 31 5
       { fill := some it }
     let h : Fin 32 := 31
     let lane : Fin 6 := 5
     let f : Fin 6 := 5
     let n := (3 : Nat)
     let l := upLane h lane
     s.pwr.held = [] ∧ s.HostQuiet ∧ s.isSet F.LNK_PRBS_CTL_NEAR l = false ∧ s.isSet F.LNK_LANE_STATUS_BLOCK_LOCK l = true ∧
       (s.lane l).badHdr < 16 ∧ s.receives h = true ∧ s.soaks h lane = false ∧ s.bitF F.LNK_HEAD_STATUS_ACTIVE h lane = true ∧
       s.isHole h lane = false ∧ s.stalled h = false ∧ (s.link h).wait = [] ∧ (s.link h).due = (s.link h).base + 5 * (s.lane l).cnt
       + ((s.ranked h).takeWhile (· ≠ lane.val)).length ∧ (s.link h).cur = some (f.val, n) ∧ (s.fifo h f).drop = false ∧ (s.fifo h
       f).full = false ∧ (s.fifo h f).fill = some it ∧ it.words.length + 1 < fifoWords f) ∧
    (let it := ({ seq := 0, tag := 0, crc := 0 } : Item)
     let s : State := (tBase).setFifo 31 5 { drain := some it }
     let h : Fin 32 := 31
     let f : Fin 6 := 5
     s.pwr.held = [] ∧ (s.link h).wait = [] ∧ (s.link h).base ≤ (s.link h).due ∧ (s.fifo h f).drain = some it ∧ (s.fifo h f).full
       = false ∧ (s.fifo h f).stalled = none) ∧
    (let s : State := (tBase).setFifo 31 5 { stalled := some { w := 0, par := 0, poison := false } }
     let h : Fin 32 := 31
     let f : Fin 6 := 5
     s.pwr.held = [] ∧ (s.link h).wait = [] ∧ (s.link h).base ≤ (s.link h).due ∧ (s.fifo h f).stalled.isSome = true) ∧
    (let s : State := (tW [(F.LNK_HEAD_STATUS_STATE, 31, lkTRAIN)]).updLink 31 fun k => { k with echoes := 7 }
     let h : Fin 32 := 31
     let seq : BitVec 8 := 7
     s.pwr.held = [] ∧ s.lk h = lkTRAIN ∧ seq.toNat < 8 ∧ (s.link h).echoes < 8) ∧
    (let s : State := tW [(F.LNK_HEAD_STATUS_STATE, 31, lkTRAIN)]
     let h : Fin 32 := 31
     s.pwr.held = [] ∧ s.receives h = true) ∧
    (let s : State := tW [(F.LNK_HEAD_STATUS_STATE, 31, lkDEGRADED)]
     let h : Fin 32 := 31
     s.pwr.held = [] ∧ s.receives h = true) ∧
    (let s : State := ((tW [(F.LNK_HEAD_STATUS_STATE, 31, lkUP), (F.LNK_HEAD_CTL_ROT_EN, 31, 1), (F.LNK_HEAD_STATUS_SPARE, 31, 5),
       (F.LNK_LANE_STATUS_BLOCK_LOCK, 253, 1), (F.LNK_ROT_CTL_PERIOD, 31, 9), (F.LNK_ROT_CTL_SOAK, 31, 2)]).updLink 31 fun k =>
       { k with sinceRot := 9 }).setLane 253 { soak := 2 }
     let h : Fin 32 := 31
     s.pwr.held = [] ∧ s.lk h = lkUP ∧ s.isSet F.LNK_HEAD_CTL_ROT_EN h = true ∧ (s.link h).req = none ∧ s.getF
       F.LNK_HEAD_STATUS_SPARE h < 6 ∧ (s.link h).rotWait = 0 ∧ s.getF F.LNK_ROT_CTL_PERIOD h ≤ (s.link h).sinceRot ∧ s.soaked
       (upLane h (s.getF F.LNK_HEAD_STATUS_SPARE h)) (s.getF F.LNK_ROT_CTL_SOAK h) = true) ∧
    (let s : State := (tW [(F.LNK_HEAD_STATUS_STATE, 31, lkDEGRADED), (F.LNK_HEAD_CTL_RETRY_EN, 31, 1), (F.LNK_HEAD_STATUS_FAILED,
       31, 0x20), (F.LNK_LANE_STATUS_BLOCK_LOCK, 253, 1), (F.LNK_ROT_CTL_SOAK, 31, 2)]).setLane 253 { soak := 8 }
     let h : Fin 32 := 31
     let lane : Fin 6 := 5
     s.pwr.held = [] ∧ s.lk h = lkDEGRADED ∧ s.isSet F.LNK_HEAD_CTL_RETRY_EN h = true ∧ (s.link h).req = none ∧ s.bitF
       F.LNK_HEAD_STATUS_FAILED h lane = true ∧ s.isSet F.LNK_LANE_CTL_DIS (upLane h lane) = false ∧ s.soaked (upLane h lane) (4 *
       s.getF F.LNK_ROT_CTL_SOAK h) = true) ∧
    (let s : State := tW [(F.LNK_HEAD_STATUS_STATE, 31, lkUP), (F.LNK_HEAD_STATUS_SPARE, 31, 5)]
     let h : Fin 32 := 31
     let lane : Fin 8 := 5
     s.pwr.held = [] ∧ lane.val < 6 ∧ s.lk h = lkUP ∧ s.getF F.LNK_HEAD_STATUS_SPARE h = lane ∧ s.bitF F.LNK_HEAD_STATUS_FAILED h
       lane = false ∧ (s.link h).req = none) ∧
    (let s : State := (List.range 6).foldl (fun s k => s.setLane (248 + k) { good := 4 }) ((tW [(F.LNK_HEAD_STATUS_STATE, 31,
       lkTRAIN), (F.LNK_HFE_STATUS_DLOCK0, 31, 1), (F.LNK_HFE_STATUS_DLOCK1, 31, 1), (F.LNK_LANE_STATUS_BLOCK_LOCK, 248, 1),
       (F.LNK_LANE_STATUS_BLOCK_LOCK, 249, 1), (F.LNK_LANE_STATUS_BLOCK_LOCK, 250, 1), (F.LNK_LANE_STATUS_BLOCK_LOCK, 251, 1),
       (F.LNK_LANE_STATUS_BLOCK_LOCK, 252, 1), (F.LNK_LANE_STATUS_BLOCK_LOCK, 253, 1)]).updLink 31 fun k =>
       { k with echoes := 8, status := true, lead := 224 })
     let h : Fin 32 := 31
     s.pwr.held = [] ∧ s.trainable h = true ∧ ((∀ k < 6, k ∈ s.trained h))) ∧
    (let s : State := { tW [(F.LNK_HEAD_STATUS_STATE, 31, lkTRAIN)] with tick := 20000 }
     let h : Fin 32 := 31
     s.pwr.held = [] ∧ s.lk h = lkTRAIN ∧ (s.link h).trainAt + 20000 ≤ s.tick ∧ s.trainable h = false) ∧
    (let s : State := { tW [(F.LNK_HFE_CMD_BUSY, 31, 1)] with tick := 3 }
     let h : Fin 32 := 31
     s.pwr.held = [] ∧ s.isSet F.LNK_HFE_CMD_BUSY h = true ∧ (s.link h).cmdAt + 3 ≤ s.tick) ∧
    (let s : State := tW [(F.LNK_EYE_CTL_START, 255, 1)]
     let l : Fin 256 := 255
     s.pwr.held = [] ∧ s.isSet F.LNK_EYE_CTL_START l = true) :=
  ⟨by simp only [tQuiet_iff]; decide +kernel, by decide +kernel, by decide +kernel, by decide +kernel, by decide +kernel,
    by decide +kernel, by decide +kernel, by decide +kernel, by decide +kernel, by decide +kernel, by decide +kernel,
    by decide +kernel, by decide +kernel⟩

theorem witness_DeckCommandRows :
    (let s : State := tBase
     let d : Fin 8 := 7
     s.pf1Served = true ∧ s.deck d = dkEMPTY) ∧
    (let s : State := tW [(F.WND_STATUS_STATE, 7, dkLOADED), (F.WND_CTL_EN, 7, 1)]
     let d : Fin 8 := 7
     s.pf1Served = true ∧ (s.deck d = dkLOADED ∨ s.deck d = dkBRAKING) ∧ s.isSet F.WND_CTL_EN d = true) ∧
    (let s : State := tW [(F.WND_STATUS_STATE, 7, dkBRAKING), (F.WND_CTL_EN, 7, 1)]
     let d : Fin 8 := 7
     s.pf1Served = true ∧ (s.deck d = dkLOADED ∨ s.deck d = dkBRAKING) ∧ s.isSet F.WND_CTL_EN d = true) ∧
    (let s : State := tW [(F.WND_STATUS_STATE, 7, dkSPINUP)]
     let d : Fin 8 := 7
     s.pf1Served = true ∧ (s.deck d = dkSPINUP ∨ s.deck d = dkREADY) ∧ s.headsDown d = true) ∧
    (let s : State := tW [(F.WND_STATUS_STATE, 7, dkREADY), (F.CLR_STATUS_STATE, 31, hdSAFE)]
     let d : Fin 8 := 7
     s.pf1Served = true ∧ (s.deck d = dkSPINUP ∨ s.deck d = dkREADY) ∧ s.headsDown d = true) ∧
    (let s : State := tW [(F.WND_STATUS_STATE, 7, dkLOADED), (F.WND_STATUS_AT_REST, 7, 1)]
     let d : Fin 8 := 7
     s.pf1Served = true ∧ s.deck d = dkLOADED ∧ s.isSet F.WND_STATUS_AT_REST d = true) ∧
    (let s : State := tW [(F.WND_STATUS_STATE, 7, dkFAULT), (F.WND_STATUS_AT_REST, 7, 1)]
     let d : Fin 8 := 7
     s.pf1Served = true ∧ s.deck d = dkFAULT ∧ s.isSet F.WND_STATUS_AT_REST d = true) ∧
    (let s : State := tW [(F.WND_MOTOR_SPD_MIN, 7, 100), (F.WND_MOTOR_SPD_MAX, 7, 500)]
     let d : Fin 8 := 7
     let target : BitVec 16 := 800
     s.pf1Served = true ∧ s.getF F.WND_MOTOR_SPD_MIN d * 8 ≤ target.toNat ∧ target.toNat ≤ s.getF F.WND_MOTOR_SPD_MAX d * 8) ∧
    (let s : State := tW [(F.WND_MOTOR_SPD_MIN, 7, 100), (F.WND_MOTOR_SPD_MAX, 7, 500)]
     let d : Fin 8 := 7
     let target : BitVec 16 := 4000
     s.pf1Served = true ∧ s.getF F.WND_MOTOR_SPD_MIN d * 8 ≤ target.toNat ∧ target.toNat ≤ s.getF F.WND_MOTOR_SPD_MAX d * 8) :=
  ⟨by decide +kernel, by decide +kernel, by decide +kernel, by decide +kernel, by decide +kernel, by decide +kernel,
    by decide +kernel, by decide +kernel, by decide +kernel⟩

theorem witness_DeckEventRows :
    (let s : State := tBase
     let d : Fin 8 := 7
     s.pwr.held = [] ∧ (s.wn d).lateNext = false ∧ s.tck.repeats = 0) ∧
    (let s : State := { tBase with tick := 10 }
     s.pwr.held = [] ∧ s.onTick 10 = true) ∧
    (let s : State := tBase
     s.pwr.held = []) ∧
    (let d : Fin 8 := 7
     let s : State := { ((tBase).updWnd 7 fun d => { d with brake := .hold 0 }) with tick := 80 }
     let since := (0 : Nat)
     s.pwr.held = [] ∧ (s.wn d).brake = .hold since ∧ since + 80 ≤ s.tick) ∧
    (let d : Fin 8 := 7
     let r := ({ head := 3, side := 1, pillar := 149, tick := 5, cycle := 4999 } : PillarReport)
     let s : State := { ((tW [(F.WND_STATUS_LOCKED, 7, 1)]).updWnd 7 fun d => { d with reports := [r] }) with tick := 6 }
     s.pwr.held = [] ∧ s.pickReport d = some r ∧ s.isSet F.WND_STATUS_LOCKED d = true ∧ (s.wn d).usedAt ≠ some s.tick) ∧
    (let d : Fin 8 := 7
     let s : State := ((tW [(F.WND_STATUS_STATE, 7, dkSPINUP), (F.WND_STATUS_PHASE, 7, 1)]).updWnd 7 fun d =>
       { d with offRun := 8 })
     s.pwr.held = [] ∧ s.deck d = dkSPINUP ∧ s.phase d = 1 ∧ 8 ≤ (s.wn d).offRun) ∧
    (let s : State :=
       { tW [(F.WND_STATUS_STATE, 7, dkSPINUP), (F.WND_STATUS_PHASE, 7, 4), (F.WND_START_ALIGN_T, 7, 0)] with tick := 400 }
     let d : Fin 8 := 7
     s.pwr.held = [] ∧ s.deck d = dkSPINUP ∧ s.phase d = 4 ∧ (s.wn d).phaseAt + 400 * max 1 (s.getF F.WND_START_ALIGN_T d) ≤
       s.tick) ∧
    (let s : State := { tW [(F.WND_STATUS_STATE, 7, dkSPINUP), (F.WND_STATUS_PHASE, 7, 6)] with tick := 640 }
     let d : Fin 8 := 7
     s.pwr.held = [] ∧ s.deck d = dkSPINUP ∧ s.phase d = 6 ∧ (s.wn d).waitRest = false ∧ s.isSet F.WND_STATUS_LOCKED d = false ∧
       (s.wn d).phaseAt + 640 ≤ s.tick) ∧
    (let s : State := { tW [(F.WND_STATUS_STATE, 7, dkSPINUP), (F.WND_LIMITS_SPIN_TMO, 7, 1)] with tick := 40000 }
     let d : Fin 8 := 7
     s.pwr.held = [] ∧ s.deck d = dkSPINUP ∧ (s.wn d).spinAt + 40000 * max 1 (s.getF F.WND_LIMITS_SPIN_TMO d) ≤ s.tick) ∧
    (let d : Fin 8 := 7
     let s : State := { ((tBase).updWnd 7 fun d => { d with brake := .short 0 (some 0) }) with tick := 80000 }
     let n := (0 : Nat)
     let since := (0 : Nat)
     s.pwr.held = [] ∧ (s.wn d).brake = .short n (some since) ∧ since + 80000 ≤ s.tick) ∧
    (let s : State := tW [(F.WND_STATUS_STATE, 7, dkBRAKING), (F.WND_STATUS_AT_REST, 7, 1)]
     let d : Fin 8 := 7
     s.pwr.held = [] ∧ s.deck d = dkBRAKING ∧ (s.wn d).gatesOn = false ∧ s.isSet F.WND_STATUS_AT_REST d = true) :=
  ⟨by decide +kernel, by decide +kernel, by decide +kernel, by decide +kernel, by decide +kernel, by decide +kernel,
    by decide +kernel, by decide +kernel, by decide +kernel, by decide +kernel, by decide +kernel⟩

theorem witness_ChannelRows :
    (let s : State := tBase
     let c : Fin 128 := 127
     s.pf1Served = true ∧ s.ch c = chOFF) ∧
    (let s : State := tBase
     s.pf1Served = true) ∧
    (let s : State := tW [(F.CHN_STATUS_STATE, 127, chWAIT), (F.CHN_CTL_EN, 127, 1), (F.LNK_HEAD_STATUS_STATE, 31, lkUP),
       (F.CLR_STATUS_STATE, 31, hdVERIFY), (F.WND_STATUS_ANGLE_VALID, 7, 1)]
     let c : Fin 128 := 127
     s.pwr.held = [] ∧ s.ch c = chWAIT ∧ s.isSet F.CHN_CTL_EN c = true ∧ s.readable (headOfChan c) = true ∧ s.angleValid
       (deckOfChan c) = true ∧ s.beyondNow c = false) ∧
    (let c : Fin 128 := 127
     let s : State := (tW [(F.CHN_STATUS_STATE, 127, chLOCK)]).updChan 127 fun c => { c with periods := 64 }
     s.pwr.held = [] ∧ s.ch c = chLOCK ∧ 64 ≤ (s.chan c).periods) ∧
    (let s : State := tW [(F.CHN_STATUS_STATE, 127, chRUN)]
     let h : Fin 32 := 31
     let b : Fin 4 := 3
     s.pwr.held = [] ∧ s.ch (4 * h + b) = chRUN) ∧
    (let x := ({ env := 0, bits := (List.replicate 24 false) ++ bitsMsb 64 driftSync ++ List.replicate 24 false } : SlotIn)
     let s : State := (tW [(F.CHN_STATUS_STATE, 127, chRUN), (F.CLR_STATUS_STATE, 31, hdVERIFY), (F.CLR_STATUS_TF, 31, 1),
       (F.CLR_STATUS_TRK_VALID, 31, 1), (F.CLR_POS_EST, 31, 0), (F.WND_STATUS_ANGLE_VALID, 7, 1), (F.CHN_CTL_BLANK_EN, 127,
       0)]).updRx 127 fun x => { x with soft := tSync }
     let c : Fin 128 := 127
     let j := (0 : Nat)
     let r := ({ vol := 7, seam := seamOfHead 30 0, x := 0, drift := 3, chan := 127, cal := true } : DriftRec)
     let n := (64 : Nat)
     let o := (0 : Int)
     s.pwr.held = [] ∧ s.framing c = true ∧ (s.chan c).drift = none ∧ j < zoneD (s.getF F.CHN_STATUS_ZONE c) ∧ s.identity c j =
       some r ∧ (s.chan c).rx.slotIn j = some x ∧ s.isSet F.CHN_CTL_BLANK_EN c = false ∧ searchWord driftSync 64 (s.getF
       F.CHN_SYNC_CTL_SYNC_TH c) 24 x.bits = some (n, o)) ∧
    (let s : State := (tW [(F.CHN_STATUS_STATE, 127, chRUN), (F.CHN_CTL_DEF_EN, 127, 1), (F.CHN_DEF_CTL_DEF_MIN, 127, 8)]).updRx
       127 fun x => { x with lowRun := 8 }
     let c : Fin 128 := 127
     s.pwr.held = [] ∧ s.isSet F.CHN_CTL_DEF_EN c = true ∧ s.ch c = chRUN ∧ (s.chan c).rx.drop = none ∧ max 1 (s.getF
       F.CHN_DEF_CTL_DEF_MIN c) ≤ (s.chan c).rx.lowRun) ∧
    (let c : Fin 128 := 127
     let d := ({ record := { vol := 7, seam := 63, x := 0, drift := 3, chan := 127 }, slot := 0 } : Framed)
     let s : State := (tBase).updChan 127 fun c => { c with drift := some d }
     s.pwr.held = [] ∧ (s.chan c).drift = some d) ∧
    (let c : Fin 128 := 127
     let j :=
       ({ slot := 95, gen := 0, readNo := 0, record := { vol := 7, seam := 63, x := 0, drift := 3, chan := 127 }, llr := [] } :
       InnerJob)
     let s : State := (tBase).updChan 127 fun c => { c with inner := [j] }
     let rest := ([] : List InnerJob)
     s.pwr.held = [] ∧ (s.chan c).inner = j :: rest) :=
  ⟨by decide +kernel, by decide +kernel, by decide +kernel, by decide +kernel, by decide +kernel, by decide +kernel,
    by decide +kernel, by decide +kernel, by decide +kernel⟩

theorem witness_DecoderRows :
    (let o := ({ kind := .read, vol := 7, seam := 63 } : MediaOp)
     let s : State :=
       { tW [(F.ASY_CTL_EN, 0, 1), (F.CLR_STATUS_STATE, 31, hdPARKED), (F.ASY_SLOT_STATE, 0, 1)] with asy := { waiting := [o] } }
     let rest := ([] : List MediaOp)
     let y := (1 : Nat)
     s.pwr.held = [] ∧ s.asy.waiting = o :: rest ∧ s.routable (homeHead o.vol o.seam) = true ∧ o.slot = none ∧ s.slotOf o.vol
       o.seam o.x = none ∧ s.canReserve false = true ∧ (List.range 96).find? (fun y => !s.slotUsed y) = some y) ∧
    (let s : State := (tW [(F.ASY_SLOT_STATE, 95, 1), (F.ASY_SLOT_ID_VERIFY, 95, 1)]).setSlot 95
       { got := List.replicate 160 { record := { vol := 7, seam := 63, x := 0, drift := 0, chan := 124 } } }
     let y : Fin 96 := 95
     s.pwr.held = [] ∧ s.slotReading y = true ∧ s.isSet F.ASY_SLOT_ID_VERIFY y = true ∧ (s.slot y).got.length = 160) ∧
    (let s : State := tW [(F.ASY_SLOT_STATE, 95, 2)]
     let a : Fin 8 := 7
     let y := (95 : Nat)
     s.pwr.held = [] ∧ s.isSet F.ASY_ENG_STATUS_BUSY a = false ∧ s.nextJob = some y ∧ y < 96 ∧ s.innerPending y = false) ∧
    (let s : State := (tW [(F.ASY_SLOT_STATE, 95, 2), (F.ASY_CTL_REC_MAX, 0, 1)]).setSlot 95 { rung := 3 }
     let a : Fin 8 := 7
     let y := (95 : Nat)
     s.pwr.held = [] ∧ s.isSet F.ASY_ENG_STATUS_BUSY a = false ∧ s.nextJob = some y ∧ y < 96 ∧ s.innerPending y = false) ∧
    (let s : State := (tW [(F.ASY_ENG_STATUS_BUSY, 7, 1), (F.ASY_ENG_STATUS_SLOT, 7, 95), (F.ASY_SLOT_STATE, 95, 3)]).setSlot 95
       { deadline := 0 }
     let a : Fin 8 := 7
     let y := s.getF F.ASY_ENG_STATUS_SLOT a
     s.pwr.held = [] ∧ s.isSet F.ASY_ENG_STATUS_BUSY a = true ∧ vget s.asy.engGen 0 a = (s.slot y).gen ∧ s.tick ≤ (s.slot
       y).deadline) ∧
    (let g :=
       ({ gen := 0, entry := { index := 0, slot := 95, read := 0, drift := 159, chan := 127, inferred := false, truncated := false, hint := false, converged := false, sound := false, syncOfs := 0, defects := 0, unsat := 0, iter := 0, blocks := [] } }
       : Staging)
     let s : State := { tBase with asy := { staging := [(127, g)] } }
     let c : Fin 128 := 127
     s.pwr.held = [] ∧ s.asy.staging.find? (fun p => p.1 = c.val) = some (c.val, g) ∧ g.entry.slot < 96 ∧ g.gen = (s.slot
       g.entry.slot).gen) ∧
    (let s : State := tBase
     s.pf1Served = true) ∧
    (let s : State := tW [(F.PRC_CTL_EN, 0, 1)]
     s.pf1Served = true ∧ s.isSet F.PRC_CTL_EN 0 = true) :=
  ⟨by decide +kernel, by decide +kernel, by decide +kernel, by decide +kernel, by decide +kernel, by decide +kernel,
    by decide +kernel, by decide +kernel⟩

theorem witness_WritePathRows :
    (let o := ({ index := 0, drifts := [.pad], linger := 0 } : OpenLode)
     let s : State := ((tBase).updSeam 7 63 fun x => { x with openLode := some o })
     let v : Fin 8 := 7
     let n : Fin 64 := 63
     s.pwr.held = [] ∧ (s.seam v n).openLode = some o ∧ o.linger ≤ s.tick ∧ o.drifts ≠ [] ∧ o.drifts.length < 128) ∧
    (let o := ({ index := 0, drifts := List.replicate 127 .pad, linger := 0 } : OpenLode)
     let s : State := ((tBase).updSeam 7 63 fun x => { x with openLode := some o })
     let v : Fin 8 := 7
     let n : Fin 64 := 63
     s.pwr.held = [] ∧ (s.seam v n).openLode = some o ∧ o.linger ≤ s.tick ∧ o.drifts ≠ [] ∧ o.drifts.length < 128) ∧
    (let s : State := ((tW [(F.WRP_CTL_EN, 0, 1), (F.CLR_STATUS_STATE, 31, hdPARKED)]).updSeam 7 63 fun x =>
       { x with lodes := [tLode] })
     let h : Fin 32 := 31
     let n := (63 : Nat)
     let p := (0 : Nat)
     s.pwr.held = [] ∧ s.HostQuiet ∧ s.idlePoint h = true ∧ s.hasWrite h = false ∧ s.frozen = false ∧ (s.head h).write.halted =
       false ∧ s.isSet F.WRP_CTL_EN 0 = true ∧ s.wcy h = wsIDLE ∧ s.takeSeam h = some n ∧ s.firstPos (deckOfHead h) n false = some p) ∧
    (let s : State := tHead 31 (fun x =>
       { x with op := some { kind := .write, vol := 7, seam := 63 }, write := { x.write with seam := 63 } }) (((tW
       [(F.WRP_HEAD_STATE, 31, wsPREP), (F.CLR_STATUS_STATE, 31, hdFOLLOW), (F.CLR_STATUS_TF, 31, 1), (F.CLR_STATUS_TRK_VALID, 31,
       1), (F.CLR_POS_EST, 31, 0)]).updSeam 7 63 fun x => { x with lodes := [{ tLode with recorded := [0], unverified := [0] }] }))
     let h : Fin 32 := 31
     s.pwr.held = [] ∧ s.HostQuiet ∧ s.writePlaced h = true ∧ s.wcy h = wsPREP ∧ s.posUnverified (deckOfHead h) (s.head
       h).write.seam (s.head h).write.bandPos = true) ∧
    (let s : State := (tW [(F.WRP_HEAD_STATE, 31, wsCAL), (F.CLR_STATUS_STATE, 31, hdWRITE)]).updWrite 31 fun w =>
       { w with cal := some (.write 3 5), turned := oneRev }
     let h : Fin 32 := 31
     let p := (3 : Nat)
     let a := (5 : Nat)
     s.pwr.held = [] ∧ s.HostQuiet ∧ s.wcy h = wsCAL ∧ (s.head h).write.cal = some (.write p a) ∧ s.clr h = hdWRITE ∧ oneRev ≤
       (s.head h).write.turned ∧ (s.head h).write.recording = none) ∧
    (let s : State := (tW [(F.WRP_HEAD_STATE, 31, wsWREV), (F.CLR_STATUS_STATE, 31, hdWRITE)]).updWrite 31 fun w =>
       { w with turned := oneRev }
     let h : Fin 32 := 31
     s.pwr.held = [] ∧ s.HostQuiet ∧ s.wcy h = wsWREV ∧ s.clr h = hdWRITE ∧ oneRev ≤ (s.head h).write.turned ∧ (s.head
       h).write.recording = none) ∧
    (let s : State := (tW [(F.WRP_HEAD_STATE, 31, wsVREV), (F.CLR_STATUS_STATE, 31, hdVERIFY)]).updWrite 31 fun w =>
       { w with turned := 2 * oneRev }
     let h : Fin 32 := 31
     s.pwr.held = [] ∧ s.HostQuiet ∧ s.wcy h = wsVREV ∧ s.clr h = hdVERIFY ∧ 2 * oneRev ≤ (s.head h).write.turned) ∧
    (let s : State := (tW [(F.WRP_HEAD_STATE, 31, wsRESOLVE), (F.CLR_STATUS_STATE, 31, hdFOLLOW)]).updWrite 31 fun w =>
       { w with left := some true }
     let h : Fin 32 := 31
     s.pwr.held = [] ∧ s.HostQuiet ∧ s.mayResolve h = true ∧ (s.head h).write.left = some true) ∧
    (let s : State := ((tBase).updSeam 7 63 fun x => { x with recov := some .ended })
     let v : Fin 8 := 7
     let n : Fin 64 := 63
     s.pwr.held = [] ∧ s.HostQuiet ∧ (s.seam v n).recov = some .ended) :=
  ⟨by decide +kernel, by decide +kernel, by simp only [tQuiet_iff]; decide +kernel, by simp only [tQuiet_iff]; decide +kernel,
    by simp only [tQuiet_iff]; decide +kernel, by simp only [tQuiet_iff]; decide +kernel, by simp only [tQuiet_iff]; decide +kernel,
    by simp only [tQuiet_iff]; decide +kernel, by simp only [tQuiet_iff]; decide +kernel⟩

theorem witness_QueueRows :
    (let s : State := tW [(F.CFG_STATUS_LOADED, 0, 1)]
     s.pf0Served = true ∧ s.isSet F.CFG_STATUS_LOADED 0 = true ∧ s.isSet F.HQI_CSTS_RDY 0 = false) ∧
    (let s : State := tW [(F.HQI_CC_EN, 0, 1)]
     s.pf0Served = true ∧ s.isSet F.HQI_CC_EN 0 = true) ∧
    (let s : State := tW [(F.HQI_QP_CTL_SIZE, 64, 4095), (F.HQI_CSTS_RDY, 0, 1)]
     let q : Fin 65 := 64
     s.pf0Served = true ∧ s.isSet F.HQI_QP_CTL_EN q = false ∧ s.getF F.HQI_QP_CTL_SIZE q ≠ 0 ∧ s.isSet F.HQI_QP_STATUS_ENABLED q =
       false ∧ s.isSet F.HQI_CSTS_RDY 0 = true) ∧
    (let s : State := tBase
     s.pf0Served = true) ∧
    (let s : State := tW [(F.HQI_QP_STATUS_ENABLED, 64, 1), (F.HQI_QP_CTL_SIZE, 64, 4095)]
     let q : Fin 65 := 64
     let w : BitVec 32 := 4095
     s.pf0Served = true ∧ s.isSet F.HQI_QP_STATUS_ENABLED q = true ∧ w.toNat % 4096 ≤ s.getF F.HQI_QP_CTL_SIZE q) ∧
    (let s : State := tW [(F.HQI_QP_STATUS_ENABLED, 64, 1), (F.HQI_QP_CTL_SIZE, 64, 1)]
     let q : Fin 65 := 64
     let w : BitVec 32 := 1
     s.pf0Served = true ∧ s.isSet F.HQI_QP_STATUS_ENABLED q = true ∧ w.toNat % 4096 ≤ s.getF F.HQI_QP_CTL_SIZE q) ∧
    (let s : State := tW [(F.HQI_QP_STATUS_ENABLED, 64, 1), (F.HQI_QP_CTL_SIZE, 64, 1)]
     let q : Fin 65 := 64
     let w : BitVec 32 := 2
     s.pf0Served = true ∧ s.isSet F.HQI_QP_STATUS_ENABLED q = true ∧ s.getF F.HQI_QP_CTL_SIZE q < w.toNat % 4096 ∧ s.isSet
       F.HQI_QP_STATUS_ERR q = false) ∧
    (let s : State := tW [(F.HQI_CSTS_RDY, 0, 1), (F.HQI_CC_EN, 0, 1), (F.HQI_QP_CTL_EN, 64, 1), (F.HQI_QP_STATUS_ENABLED, 64, 1),
       (F.HQI_QP_CTL_SIZE, 64, 4095), (F.HQI_SQ_TAIL_TAIL, 64, 1), (F.HQI_QP_CTL_CLASS, 64, 0)]
     let q := (64 : Nat)
     let a := ({ lastU := 64 } : ArbS)
     s.pwr.held = [] ∧ s.hqi.cmds.length + s.fetches < 1024 ∧ s.pf0Served = true ∧ s.arbSelect = some (q, a)) ∧
    (let c := { tCmd 0x10 with stage := .done }
     let s : State := (tW [(F.HQI_QP_CTL_SIZE, 64, 1)]).setCmds [c]
     let q : Fin 65 := 64
     s.pwr.held = [] ∧ s.postable q = some c ∧ s.cqRoom q = true ∧ s.mayIssue 0 = true) ∧
    (let s : State :=
       { (tW [(F.HQI_QP_INT_COAL_TIME, 64, 1), (F.HQI_QP_CTL_IEN, 64, 1)]).setPair 64 { unsig := 1 } with tick := 40 }
     let q : Fin 65 := 64
     s.pwr.held = [] ∧ (s.pair q).unsig ≠ 0 ∧ s.getF F.HQI_QP_INT_COAL_TIME q ≠ 0 ∧ s.isSet F.HQI_QP_CTL_IEN q = true ∧ (s.pair
       q).since + 40 * s.getF F.HQI_QP_INT_COAL_TIME q ≤ s.tick) ∧
    (let s : State := tBase.setTest 7 { running := some 3 }
     let v : Fin 8 := 7
     let pos := (3 : Nat)
     s.pwr.held = [] ∧ (s.test v).running = some pos ∧ (s.test v).ended = true) ∧
    (let m := ({ pos := 0, start := true, waiting := true } : MountS)
     let s : State := (tW [(F.WND_STATUS_STATE, 7, dkLOADED), (F.WND_CTL_EN, 7, 1)]).setVol 7 { mount := some m }
     let v : Fin 8 := 7
     s.pwr.held = [] ∧ s.HostQuiet ∧ (s.vol v).mount = some m ∧ m.waiting = true ∧ m.start = true ∧ (s.vol v).release = none ∧
       s.deck v = dkLOADED ∧ s.mayStart v = true) :=
  ⟨by decide +kernel, by decide +kernel, by decide +kernel, by decide +kernel, by decide +kernel, by decide +kernel,
    by decide +kernel, by decide +kernel, by decide +kernel, by decide +kernel, by decide +kernel,
    by simp only [tQuiet_iff]; decide +kernel⟩

theorem witness_HostCommandRows :
    (let c : Cmd := { tCmd 0x10 with nblk := 2 }
     let s : State := tHost [c] [(F.WRP_SEAM_KNOWN, (seamIdx 7 63), 1), (F.WRP_SEAM_LODES, (seamIdx 7 63), 1)]
     let v := (7 : Nat)
     let n := (63 : Nat)
     s.pwr.held = [] ∧ s.OnlyCommand c ∧ c.opc = 0x10 ∧ c.seam? = some (v, n) ∧ s.volOn v = true ∧ c.lba < 2 ^ 29 ∧ lbaBlock c.lba
       + c.nblk ≤ seamBlocks ∧ s.deadBand (homeHead v n) = none ∧ c.npages ≤ 2 ∧ s.isSet F.WRP_SEAM_KNOWN (seamIdx v n) = true ∧
       lbaBlock c.lba + c.nblk ≤ s.appendPoint v n ∧ lbaBlock c.lba + c.nblk ≤ 128 * s.seamA v n) ∧
    (let c : Cmd := tCmd 0x11
     let s : State := tHost [c] [(F.WRP_SEAM_KNOWN, (seamIdx 7 63), 1)]
     let v := (7 : Nat)
     let n := (63 : Nat)
     s.pwr.held = [] ∧ s.OnlyCommand c ∧ (c.opc = 0x11 ∨ (c.opc = 0x12 ∧ lbaValid c.lba = true ∧ lbaBlock c.lba = s.appendPoint v
       n)) ∧ c.seam? = some (v, n) ∧ s.volOn v = true ∧ s.deadBand (homeHead v n) = none ∧ (s.seam v n).sealing = false ∧ c.npages ≤
       2 ∧ s.isSet F.WRP_SEAM_KNOWN (seamIdx v n) = true ∧ s.isSet F.WRP_SEAM_SEALED (seamIdx v n) = false ∧ s.isSet
       F.WRP_SEAM_EXHAUSTED (seamIdx v n) = false ∧ s.appendPoint v n + c.nblk ≤ seamBlocks ∧ s.roomFor v n c.nblk = true) ∧
    (let c : Cmd := tCmd 0x12
     let s : State := tHost [c] [(F.WRP_SEAM_KNOWN, (seamIdx 7 63), 1)]
     let v := (7 : Nat)
     let n := (63 : Nat)
     s.pwr.held = [] ∧ s.OnlyCommand c ∧ (c.opc = 0x11 ∨ (c.opc = 0x12 ∧ lbaValid c.lba = true ∧ lbaBlock c.lba = s.appendPoint v
       n)) ∧ c.seam? = some (v, n) ∧ s.volOn v = true ∧ s.deadBand (homeHead v n) = none ∧ (s.seam v n).sealing = false ∧ c.npages ≤
       2 ∧ s.isSet F.WRP_SEAM_KNOWN (seamIdx v n) = true ∧ s.isSet F.WRP_SEAM_SEALED (seamIdx v n) = false ∧ s.isSet
       F.WRP_SEAM_EXHAUSTED (seamIdx v n) = false ∧ s.appendPoint v n + c.nblk ≤ seamBlocks ∧ s.roomFor v n c.nblk = true) ∧
    (let c : Cmd := tCmd 0x13
     let s : State := tHost [c] []
     s.pwr.held = [] ∧ s.OnlyCommand c ∧ c.opc = 0x13) ∧
    (let c : Cmd := tCmd 0x14
     let s : State := tHost [c] []
     let v : Fin 8 := 7
     let n : Fin 64 := 63
     s.pwr.held = [] ∧ s.OnlyCommand c ∧ c.opc = 0x14 ∧ c.seam? = some (v.val, n.val) ∧ s.volOn v = true ∧ s.deadBand (homeHead v
       n) = none ∧ s.isSet F.WRP_SEAM_KNOWN (seamIdx v n) = false) ∧
    (let c : Cmd := { tCmd 0x01 with csf := [0] }
     let s : State := tHost [c] []
     s.pwr.held = [] ∧ s.OnlyCommand c ∧ c.opc = 0x01 ∧ c.csf.getD 0 0 = 0) ∧
    (let c : Cmd := tCmd 0x02
     let s : State := tHost [c] []
     s.pwr.held = [] ∧ s.OnlyCommand c ∧ c.opc = 0x02 ∧ c.nblk = 1) ∧
    (let c : Cmd := { tCmd 0x03 with csf := [1, 0, 0, 0, 1] }
     let s : State := tHost [c] []
     let val := (1 : Nat)
     s.pwr.held = [] ∧ s.OnlyCommand c ∧ c.opc = 0x03 ∧ c.csf.getD 0 0 = 1 ∧ c.csfNum 4 8 = val ∧ 1 ≤ val ∧ val ≤ 2000) ∧
    (let c : Cmd := { tCmd 0x03 with csf := [1, 0, 0, 0, 208, 7] }
     let s : State := tHost [c] []
     let val := (2000 : Nat)
     s.pwr.held = [] ∧ s.OnlyCommand c ∧ c.opc = 0x03 ∧ c.csf.getD 0 0 = 1 ∧ c.csfNum 4 8 = val ∧ 1 ≤ val ∧ val ≤ 2000) ∧
    (let c : Cmd := tCmd 0x04
     let s : State := tHost [c] []
     s.pwr.held = [] ∧ s.OnlyCommand c ∧ c.opc = 0x04) ∧
    (let c : Cmd := { tCmd 0x06 with csf := [1] }
     let s : State := tHost [c] []
     s.pwr.held = [] ∧ s.OnlyCommand c ∧ c.opc = 0x06 ∧ c.vol < 8 ∧ s.volOn c.vol = true ∧ (c.csf.getD 0 0 = 1 ∨ c.csf.getD 0 0 =
       2)) ∧
    (let c : Cmd := { tCmd 0x06 with csf := [2] }
     let s : State := tHost [c] []
     s.pwr.held = [] ∧ s.OnlyCommand c ∧ c.opc = 0x06 ∧ c.vol < 8 ∧ s.volOn c.vol = true ∧ (c.csf.getD 0 0 = 1 ∨ c.csf.getD 0 0 =
       2)) ∧
    (let c : Cmd := { tCmd 0x0A with csf := [1] }
     let s : State := (tW [(F.WND_STATUS_STATE, 7, dkLOADED), (F.WND_CTL_EN, 7, 1)]).setCmds [c]
     s.pwr.held = [] ∧ s.OnlyCommand c ∧ c.opc = 0x0A ∧ c.vol < 8 ∧ (s.vol c.vol).mount = none ∧ (s.vol c.vol).release = none ∧
       s.volOn c.vol = false ∧ c.csf.getD 0 0 = 1 ∧ s.deck c.vol = dkLOADED ∧ s.mayStart c.vol = true) ∧
    (let c : Cmd := tCmd 0x0B
     let s : State := tHost [c] [(F.WND_STATUS_STATE, 7, dkREADY)]
     s.pwr.held = [] ∧ s.OnlyCommand c ∧ c.opc = 0x0B ∧ c.vol < 8 ∧ s.volOn c.vol = true ∧ s.deck c.vol = dkREADY ∧ ((∀ n < 64,
       (s.seam c.vol n).dirty = false))) :=
  ⟨by simp only [tOnly_iff]; decide +kernel, by simp only [tOnly_iff]; decide +kernel, by simp only [tOnly_iff]; decide +kernel,
    by simp only [tOnly_iff]; decide +kernel, by simp only [tOnly_iff]; decide +kernel, by simp only [tOnly_iff]; decide +kernel,
    by simp only [tOnly_iff]; decide +kernel, by simp only [tOnly_iff]; decide +kernel, by simp only [tOnly_iff]; decide +kernel,
    by simp only [tOnly_iff]; decide +kernel, by simp only [tOnly_iff]; decide +kernel, by simp only [tOnly_iff]; decide +kernel,
    by simp only [tOnly_iff]; decide +kernel, by simp only [tOnly_iff]; decide +kernel⟩

theorem witness_AbortAndStopRows :
    (let c : Cmd := { tCmd 0x05 with csf := [64, 0, 1, 0] }
     let d : Cmd := { tCmd 0x10 with pos := 1, stage := .running }
     let s : State := tHost [d, c] []
     s.pwr.held = [] ∧ s.hqi.cmds = [d, c] ∧ c.stage = .taken ∧ c.pos ≠ d.pos ∧ s.hif.reqs = [] ∧ s.mayIssue 0 = true ∧ c.opc =
       0x05 ∧ d.q = c.csfNum 0 2 ∧ d.cid = c.csfNum 2 2 ∧ d.stage = .running ∧ d.opc = 0x10 ∧ ((∀ v < 8, (s.test v).running = none))
       ∧ s.MountsWait) ∧
    (let c : Cmd := { tCmd 0x06 with csf := [15] }
     let d : Cmd := { tCmd 0x06 with pos := 1, stage := .running, csf := [1] }
     let s : State := tHost [d, c] []
     s.pwr.held = [] ∧ s.hqi.cmds = [d, c] ∧ c.stage = .taken ∧ c.pos ≠ d.pos ∧ s.hif.reqs = [] ∧ s.mayIssue 0 = true ∧ c.opc =
       0x06 ∧ d.opc = 0x06 ∧ d.stage = .running ∧ c.csf.getD 0 0 = 15 ∧ c.vol < 8 ∧ s.volOn c.vol = true ∧ s.MountsWait) :=
  ⟨by simp only [tMounts_iff]; decide +kernel, by simp only [tMounts_iff]; decide +kernel⟩

theorem witness_FunctionRows :
    (let s : State := tBase
     s.pwr.held = [] ∧ s.cfgServed 0 = true) ∧
    (let s : State := tBase
     s.pwr.held = [] ∧ s.cfgServed 1 = true) ∧
    (let s : State := { tBase with hif := { tBase.hif with pf1 := { flr := true } } }
     let fn : Fin 2 := 1
     s.pwr.held = [] ∧ (s.pf fn).flr = true ∧ ((∀ y < 96, (s.slot y).outcome = none))) ∧
    (let s : State := tBase
     let fn : Fin 2 := 1
     s.pwr.held = [] ∧ s.HostQuiet ∧ s.isSet F.HIF_LINK_DL_ACTIVE 0 = true ∧ s.hif.perst = false ∧ s.cfgServed fn = true) ∧
    (let s : State := tBase
     let fn : Fin 2 := 1
     s.pwr.held = [] ∧ s.HostQuiet ∧ s.isSet F.HIF_LINK_DL_ACTIVE 0 = true ∧ s.hif.perst = false ∧ s.cfgServed fn = true) ∧
    (let s : State := { tBase with hif := { tBase.hif with pf1 := { flr := true } } }
     let fn : Fin 2 := 1
     s.pwr.held = [] ∧ s.HostQuiet ∧ s.isSet F.HIF_LINK_DL_ACTIVE 0 = true ∧ s.hif.perst = false ∧ s.cfgServed fn = false) ∧
    (let s : State := tBase
     s.pwr.held = [] ∧ s.HostQuiet ∧ s.cfgServed 0 = true) ∧
    (let s : State := tBase
     s.pwr.held = [] ∧ s.HostQuiet ∧ s.cfgServed 0 = true ∧ ((∀ y < 96, (s.slot y).outcome = none))) ∧
    (let s : State := tBase
     let fn : Fin 2 := 0
     let v : BitVec 8 := 255
     s.pwr.held = [] ∧ s.served fn = true ∧ v.toNat < (if fn = 0 then 256 else 32)) ∧
    (let s : State := tBase
     let fn : Fin 2 := 1
     let v : BitVec 8 := 31
     s.pwr.held = [] ∧ s.served fn = true ∧ v.toNat < (if fn = 0 then 256 else 32)) ∧
    (let s : State := tBase
     let fn : Fin 2 := 1
     s.pwr.held = [] ∧ s.served fn = true) ∧
    (let s : State := { tBase with hif := { tBase.hif with pf1 := { d3 := true } } }
     let fn : Fin 2 := 1
     s.pwr.held = [] ∧ s.served fn = false ∧ s.isSet F.HIF_LINK_DL_ACTIVE 0 = true) ∧
    (let s : State := { tBase with hif := { tBase.hif with hotPending := true } }
     s.pwr.held = [] ∧ s.hif.hotPending = true ∧ s.isSet F.HIF_LINK_DL_ACTIVE 0 = true) :=
  ⟨by decide +kernel, by decide +kernel, by decide +kernel, by simp only [tQuiet_iff]; decide +kernel,
    by simp only [tQuiet_iff]; decide +kernel, by simp only [tQuiet_iff]; decide +kernel, by simp only [tQuiet_iff]; decide +kernel,
    by simp only [tQuiet_iff]; decide +kernel, by decide +kernel, by decide +kernel, by decide +kernel, by decide +kernel,
    by decide +kernel⟩

theorem witness_LinkAndCompletionRows :
    (let s : State := (tW [(F.PWR_STATUS_PCIE_REF, 0, 1)]).setB F.HIF_LINK_DL_ACTIVE 0 false
     let speed := (5 : Nat)
     let width := (8 : Nat)
     s.pwr.held = [] ∧ s.hif.perst = false ∧ s.isSet F.HIF_LINK_DL_ACTIVE 0 = false ∧ s.isSet F.PWR_STATUS_PCIE_REF 0 = true ∧
       speed ≤ 5 ∧ width ≤ 8) ∧
    (let s : State := tBase
     s.pwr.held = [] ∧ s.isSet F.HIF_LINK_DL_ACTIVE 0 = true ∧ s.hif.hotPending = false ∧ s.hif.perst = false) ∧
    (let s : State := tBase
     let tag := (1023 : Nat)
     s.pwr.held = [] ∧ s.isSet F.HIF_LINK_DL_ACTIVE 0 = true ∧ s.req? tag = none) ∧
    (let r := ({ tag := 1023, kind := .sqFetch 64 3, addr := 4096, len := 64, sent := true } : OutReq)
     let s : State := { tBase with hif := { tBase.hif with reqs := [r] } }
     let tag := (1023 : Nat)
     let bytes := (List.replicate 63 0 : List Nat)
     s.pwr.held = [] ∧ s.isSet F.HIF_LINK_DL_ACTIVE 0 = true ∧ s.HostQuiet ∧ s.req? tag = some r ∧ r.got.length + bytes.length <
       r.len) ∧
    (let r := ({ tag := 1023, kind := .sqFetch 64 3, addr := 4096, len := 64, sent := true } : OutReq)
     let s : State := { { tBase with hif := { tBase.hif with reqs := [r] } } with tick := 16000 }
     let tag := (1023 : Nat)
     let q := (64 : Nat)
     let pos := (3 : Nat)
     s.pwr.held = [] ∧ s.req? tag = some r ∧ r.kind = .sqFetch q pos ∧ r.drop = false ∧ s.hif.pf0.cplTmoDis = false ∧ r.since +
       s.cplTicks ≤ s.tick) :=
  ⟨by decide +kernel, by decide +kernel, by decide +kernel, by simp only [tQuiet_iff]; decide +kernel, by decide +kernel⟩

theorem witness_WindowRows :
    ((let s : State := tW [(F.HIF_CTL_PEER_EN, 0, 1), (F.MEM_STATUS_GIB, 0, 16), (F.HIF_WIN_LIVE_SIZE_CTL_EN, 7, 1),
       (F.HIF_WIN_LIVE_SIZE_CTL_RD_EN, 7, 1), (F.HIF_WIN_LIVE_SIZE_CTL_WR_EN, 7, 1), (F.HIF_WIN_LIVE_SIZE_CTL_SIZE, 7, 64)]
     let
       off : BitVec 30 := BitVec.ofNat 30 (2 ^ 30 - 64)
     let x : CacheErr := {}
     s.pf0Served = true ∧ s.HostQuiet ∧ s.peerOk
       off.toNat 64 F.HIF_WIN_LIVE_SIZE_CTL_RD_EN = true ∧ x.tag = false ∧
       ∃ u d, ({ s with out := [] } : State).peerLines x
       (linesOf (s.peerAddr off.toNat) 64) = (u, some d))) ∧
    (let s : State := tW [(F.HIF_CTL_PEER_EN, 0, 1), (F.MEM_STATUS_GIB, 0, 16), (F.HIF_WIN_LIVE_SIZE_CTL_EN, 7, 1),
       (F.HIF_WIN_LIVE_SIZE_CTL_RD_EN, 7, 1), (F.HIF_WIN_LIVE_SIZE_CTL_WR_EN, 7, 1), (F.HIF_WIN_LIVE_SIZE_CTL_SIZE, 7, 64)]
     let off : BitVec 30 := BitVec.ofNat 30 (2 ^ 30 - 64)
     let bytes := (List.replicate 64 0 : List Nat)
     let x := ({} : CacheErr)
     s.pf0Served = true ∧ s.peerOk off.toNat bytes.length F.HIF_WIN_LIVE_SIZE_CTL_WR_EN = true ∧ x.tag = false ∧ s.peerAddr
       off.toNat % 64 = 0 ∧ bytes.length % 64 = 0) ∧
    (let s : State := tW [(F.HIF_CTL_PEER_EN, 0, 1), (F.MEM_STATUS_GIB, 0, 16), (F.HIF_WIN_LIVE_SIZE_CTL_EN, 7, 1),
       (F.HIF_WIN_LIVE_SIZE_CTL_RD_EN, 7, 1), (F.HIF_WIN_LIVE_SIZE_CTL_WR_EN, 7, 1), (F.HIF_WIN_LIVE_SIZE_CTL_SIZE, 7, 64)]
     let off : BitVec 30 := BitVec.ofNat 30 (2 ^ 30 - 1)
     let bytes := ([255] : List Nat)
     s.pf0Served = true ∧ s.peerOk off.toNat bytes.length F.HIF_WIN_LIVE_SIZE_CTL_WR_EN = true ∧ (s.peerAddr off.toNat % 64 ≠ 0 ∨
       bytes.length % 64 ≠ 0)) ∧
    (let s : State := tBase
     s.pf1Served = true) ∧
    (let m := (128 : Nat)
     let s : State :=
       { tW [(F.HIF_WIN_SIZE_CTL_EN, 7, 1), (F.HIF_WIN_SIZE_CTL_SIZE, 7, 64), (F.MEM_STATUS_GIB, 0, 16)] with hif := { tBase.hif with commits := [m] } }
     let rest := ([] : List Nat)
     s.pwr.held = [] ∧ s.hif.commits = m :: rest ∧ ((∀ w < 8, m.testBit w = true → s.badWindow w = false))) ∧
    (let m := (128 : Nat)
     let s : State :=
       { tW [(F.HIF_WIN_SIZE_CTL_EN, 7, 1), (F.HIF_WIN_SIZE_CTL_SIZE, 7, 65), (F.MEM_STATUS_GIB, 0, 16)] with hif := { tBase.hif with commits := [m] } }
     let rest := ([] : List Nat)
     let w := (7 : Nat)
     s.pwr.held = [] ∧ s.hif.commits = m :: rest ∧ w < 8 ∧ m.testBit w = true ∧ s.badWindow w = true) :=
  ⟨⟨by decide +kernel, by rw [tQuiet_iff]; decide +kernel, by decide +kernel, rfl, tSome (by decide +kernel)⟩, by decide +kernel,
    by decide +kernel, by decide +kernel, by decide +kernel, by decide +kernel⟩

theorem witness_ContainmentRows :
    (let s : State := tBase
     s.pf1Served = true) ∧
    (let s : State := tBase
     s.pf1Served = true ∧ s.contained = false) ∧
    (let s : State := tW [(F.HIF_CONTAIN_STATE, 0, 1)]
     s.pwr.held = [] ∧ s.getF F.HIF_CONTAIN_STATE 0 = 1 ∧ s.allQuiet = true) ∧
    (let s : State := tW [(F.HIF_CONTAIN_STATE, 0, 2)]
     s.pf1Served = true ∧ s.getF F.HIF_CONTAIN_STATE 0 = 2 ∧ s.isSet F.HIF_LINK_DL_ACTIVE 0 = true) ∧
    (let s : State := tBase
     s.pf1Served = true ∧ s.getF F.HIF_CONTAIN_STATE 0 ≠ 2) ∧
    (let s : State := tW [(F.HIF_CONTAIN_STATE, 0, 1)]
     s.pf1Served = true ∧ s.getF F.HIF_CONTAIN_STATE 0 ≠ 2) :=
  ⟨by decide +kernel, by decide +kernel, by decide +kernel, by decide +kernel, by decide +kernel, by decide +kernel⟩

theorem witness_MemoryScrubRows :
    (let s : State := tW [(F.MEM_STATUS_GIB, 0, 1), (F.MEM_DSCRUB_START_LINE, 0, (2 ^ 24 - 1)), (F.MEM_DSCRUB_END_LINE, 0, (2 ^ 24
       - 1))]
     s.pf1Served = true ∧ s.mem.scrub = none ∧ s.getF F.MEM_DSCRUB_START_LINE 0 ≤ s.getF F.MEM_DSCRUB_END_LINE 0 ∧ s.getF
       F.MEM_DSCRUB_END_LINE 0 < s.dramLines) ∧
    (let s : State := (tBase).updMem fun m => { m with scrub := some ({ first := 0, last := 2 ^ 24 - 1 } : ScrubS) }
     s.pf1Served = true ∧ (s.mem.scrub.isSome = true ∨ s.getF F.MEM_DSCRUB_END_LINE 0 < s.getF F.MEM_DSCRUB_START_LINE 0 ∨
       
       s.dramLines ≤ s.getF F.MEM_DSCRUB_END_LINE 0)) ∧
    (let s : State := tW [(F.MEM_STATUS_GIB, 0, 1), (F.MEM_DSCRUB_END_LINE, 0, (2 ^ 24))]
     s.pf1Served = true ∧ (s.mem.scrub.isSome = true ∨ s.getF F.MEM_DSCRUB_END_LINE 0 < s.getF F.MEM_DSCRUB_START_LINE 0 ∨
       
       s.dramLines ≤ s.getF F.MEM_DSCRUB_END_LINE 0)) ∧
    (let s : State := tW [(F.MEM_STATUS_GIB, 0, 1), (F.MEM_DSCRUB_START_LINE, 0, 1)]
     s.pf1Served = true ∧ (s.mem.scrub.isSome = true ∨ s.getF F.MEM_DSCRUB_END_LINE 0 < s.getF F.MEM_DSCRUB_START_LINE 0 ∨
       
       s.dramLines ≤ s.getF F.MEM_DSCRUB_END_LINE 0)) ∧
    (let x := ({ first := 0, last := 2 ^ 24 - 1 } : ScrubS)
     let s : State := (tBase).updMem fun m => { m with scrub := some x }
     s.pf1Served = true ∧ s.mem.scrub = some x) ∧
    (let x := ({ first := 0, last := 2 ^ 24 - 1 } : ScrubS)
     let s : State := (tBase).updMem fun m => { m with scrub := some x }
     s.pwr.held = [] ∧ s.mem.scrub = some x) ∧
    (let s : State := tW [(F.MEM_CTL_SSCRUB_EN, 0, 1)]
     s.pwr.held = [] ∧ s.isSet F.MEM_CTL_SSCRUB_EN 0 = true) ∧
    (let s : State := tW [(F.MEM_CE_STATUS_LEVEL, 1, 65535)]
     let x : Fin 2 := 1
     s.pwr.held = [] ∧ s.getF F.MEM_CE_STATUS_LEVEL x < 2 ^ 16) ∧
    (let s : State := tBase
     s.pf1Served = true) :=
  ⟨by decide +kernel, by decide +kernel, by decide +kernel, by decide +kernel, by decide +kernel, by decide +kernel,
    by decide +kernel, by decide +kernel, by decide +kernel⟩

theorem witness_TableRows :
    (let s : State := tBase
     let a : BitVec 27 := 0x1600000 + 4096 * 31 + 8 * 383
     s.pf1Served = true ∧ (tableEntry a.toNat).isSome = true) ∧
    (let a : BitVec 27 := 0x1600000 + 4096 * 31 + 8 * 383
     let s : State := (tBase).updMem fun m => { m with asm := some (a.toNat, 0xFFFFFFFF) }
     let lo := (0xFFFFFFFF : Nat)
     let r := R.WRP_POWER
     let i := (384 * 31 + 383 : Nat)
     s.pf1Served = true ∧ s.mem.asm = some (a.toNat, lo) ∧ tableEntry a.toNat = some (r, i) ∧ r ∈ [R.CLR_COEF, R.CHN_ZONE,
       R.CHN_EQ_START, R.WRP_POWER]) ∧
    (let s : State := tBase
     let a : BitVec 27 := 0x1600000 + 4096 * 31 + 8 * 383
     let r := R.WRP_POWER
     let i := (384 * 31 + 383 : Nat)
     s.pf1Served = true ∧ s.mem.asm = none ∧ tableEntry a.toNat = some (r, i)) ∧
    (let p := ((0x1600000, 5) : Nat × Nat)
     let s : State := (tBase).updMem fun m => { m with asm := some p }
     s.pwr.held = [] ∧ s.mem.asm = some p) ∧
    (let s : State := tBase
     let a : BitVec 27 := 0x1600000 + 4096 * 31 + 8 * 383
     let r := R.WRP_POWER
     let i := (384 * 31 + 383 : Nat)
     s.pf1Served = true ∧ tableEntry a.toNat = some (r, i) ∧ s.rawSram = false ∧ s.mem.badChk = []) ∧
    (let s : State := { tBase with hif := { tBase.hif with pf1 := { d3 := true } } }
     s.pf1Served = false ∧ s.pwr.held = [] ∧ s.isSet F.HIF_LINK_DL_ACTIVE 0 = true) :=
  ⟨by decide +kernel, by decide +kernel, by decide +kernel, by decide +kernel, by decide +kernel, by decide +kernel⟩

theorem witness_DramTestRows :
    (let s : State := tW [(F.MEM_TEST_CTL_EN, 0, 1), (F.MEM_STATUS_GIB, 0, 1), (F.MEM_TEST_LINE_LINE, 0, (2 ^ 24 - 1))]
     s.pf1Served = true ∧ s.testMay = true ∧ s.getF F.MEM_TEST_LINE_LINE 0 < s.dramLines ∧ s.cached (s.getF F.MEM_TEST_LINE_LINE
       0) = none) ∧
    (let s : State := tW [(F.MEM_TEST_CTL_EN, 0, 1), (F.MEM_STATUS_GIB, 0, 1), (F.MEM_TEST_LINE_LINE, 0, (2 ^ 24))]
     s.pf1Served = true ∧ s.testMay = true ∧ s.dramLines ≤ s.getF F.MEM_TEST_LINE_LINE 0) ∧
    (let s : State := tBase
     s.pwr.held = []) := by
  decide +kernel

theorem witness_CacheRows :
    (let s : State := tW [(F.LCA_WAY_STATUS_WAYS, 0, 16), (F.LCA_WAY_STATUS_ON, 0, 65535)]
     let w : Fin 16 := 15
     s.pf1Served = true ∧ s.wayOffAsked w = false ∧ w < s.ways ∧ s.wayLocked w = false ∧ 2 ≤ s.waysLeft w) ∧
    (let s : State := tW [(F.LCA_WAY_STATUS_WAYS, 0, 16), (F.LCA_WAY_STATUS_ON, 0, 65535), (F.LCA_WAY_CTL_LOCK, 0, 0x8000)]
     let w : Fin 16 := 15
     s.pf1Served = true ∧ s.wayOffAsked w = false ∧ w < s.ways ∧ (s.wayLocked w = true ∨ s.waysLeft w < 2)) ∧
    (let s : State := tW [(F.LCA_WAY_STATUS_WAYS, 0, 2), (F.LCA_WAY_STATUS_ON, 0, 3)]
     let w : Fin 16 := 1
     s.pf1Served = true ∧ s.wayOffAsked w = false ∧ w < s.ways ∧ (s.wayLocked w = true ∨ s.waysLeft w < 2)) ∧
    (let s : State := tBase
     s.pf1Served = true) ∧
    (let s : State := tW [(F.LCA_WAY_STATUS_WAYS, 0, 16), (F.LCA_WAY_STATUS_ON, 0, 65535), (F.LCA_WAY_CTL_OFF, 0, 0x8000)]
     let w : Fin 16 := 15
     s.pwr.held = [] ∧ s.wayOffAsked w = true ∧ s.wayOn w = true ∧ s.lcaBusy = false ∧ w < s.ways) ∧
    (let s : State := tW [(F.LCA_WAY_STATUS_WAYS, 0, 16), (F.LCA_WAY_STATUS_ON, 0, 0x7FFF)]
     let w : Fin 16 := 15
     s.pwr.held = [] ∧ s.wayOffAsked w = false ∧ s.wayOn w = false ∧ w < s.ways) ∧
    (let l := ({ way := 15, set := 8191, tag := 0, data := List.replicate 64 0 } : CacheLine)
     let s : State := (tW [(F.LCA_OP_START_LINE, 0, 131071)]).updLca fun c => { c with lines := [l] }
     let x := ({} : CacheErr)
     s.pf1Served = true ∧ s.lcaBusy = false ∧ x.tag = false ∧ s.lineAt (s.getF F.LCA_OP_START_LINE 0 % 16) (s.getF
       F.LCA_OP_START_LINE 0 / 16 % 8192) = some l ∧ s.wayLocked l.way = false) ∧
    (let s : State := tW [(F.LCA_OP_STATUS_BUSY, 0, 1)]
     s.pf1Served = true ∧ s.lcaBusy = true) ∧
    (let s : State := tBase
     let w : Fin 16 := 15
     s.pf1Served = true ∧ s.lcaBusy = false ∧ s.preloadRefused w = true) ∧
    (let s : State := tW [(F.LCA_WAY_STATUS_WAYS, 0, 16), (F.LCA_WAY_STATUS_ON, 0, 65535), (F.LCA_OP_START_LINE, 0, 0),
       (F.LCA_OP_END_LINE, 0, 8192)]
     let w : Fin 16 := 15
     s.pf1Served = true ∧ s.lcaBusy = false ∧ s.preloadRefused w = true) ∧
    (let s : State := tW [(F.LCA_WAY_STATUS_WAYS, 0, 16), (F.LCA_WAY_STATUS_ON, 0, 65535), (F.MEM_STATUS_GIB, 0, 1),
       (F.LCA_OP_START_LINE, 0, (2 ^ 24 - 8192)), (F.LCA_OP_END_LINE, 0, (2 ^ 24 - 1))]
     let w : Fin 16 := 15
     s.pf1Served = true ∧ s.lcaBusy = false ∧ s.preloadRefused w = false ∧ s.getF F.LCA_OP_END_LINE 0 < s.dramLines) ∧
    (let s : State := tW [(F.LCA_WAY_STATUS_WAYS, 0, 16), (F.LCA_WAY_STATUS_ON, 0, 65535), (F.MEM_STATUS_GIB, 0, 1),
       (F.LCA_OP_START_LINE, 0, (2 ^ 24 - 8191)), (F.LCA_OP_END_LINE, 0, (2 ^ 24))]
     let w : Fin 16 := 15
     s.pf1Served = true ∧ s.lcaBusy = false ∧ s.preloadRefused w = false ∧ s.dramLines ≤ s.getF F.LCA_OP_END_LINE 0) ∧
    (let s : State := tW [(F.LCA_OP_STATUS_BUSY, 0, 1)]
     s.pwr.held = [] ∧ s.lcaBusy = true) :=
  ⟨by decide +kernel, by decide +kernel, by decide +kernel, by decide +kernel, by decide +kernel, by decide +kernel,
    by decide +kernel, by decide +kernel, by decide +kernel, by decide +kernel, by decide +kernel, by decide +kernel,
    by decide +kernel⟩

theorem witness_ConfigCommandRows :
    (let c : Cmd := tCmd 0x07
     let s : State := tHost [c] []
     s.pwr.held = [] ∧ s.OnlyCommand c ∧ c.opc = 0x07 ∧ c.nblk = 1) ∧
    (let c : Cmd := { tCmd 0x08 with csf := [1] }
     let s : State := tHost [c] [(F.CFG_STAGE_STATUS_STATE, 0, sgREADY), (F.CFG_STAGE_EPOCH_LO_EPOCH, 0, 1)]
     s.pwr.held = [] ∧ s.OnlyCommand c ∧ c.opc = 0x08 ∧ s.armOk (c.csfNum 0 8) = true) ∧
    (let c : Cmd := { tCmd 0x08 with csf := [2] }
     let s : State := tHost [c] [(F.CFG_STAGE_STATUS_STATE, 0, sgREADY), (F.CFG_STAGE_EPOCH_LO_EPOCH, 0, 1)]
     s.pwr.held = [] ∧ s.OnlyCommand c ∧ c.opc = 0x08 ∧ s.armOk (c.csfNum 0 8) = false) ∧
    (let c : Cmd := { tCmd 0x09 with csf := [0] }
     let s : State := tHost [c] []
     s.pwr.held = [] ∧ s.OnlyCommand c ∧ c.opc = 0x09 ∧ c.csfNum 0 4 = 0) :=
  ⟨by simp only [tOnly_iff]; decide +kernel, by simp only [tOnly_iff]; decide +kernel, by simp only [tOnly_iff]; decide +kernel,
    by simp only [tOnly_iff]; decide +kernel⟩

theorem witness_FuseRows :
    (let s : State := tW [(F.CFG_SVN_RUN, 0, 1)]
     let confirm : BitVec 8 := 0x5A
     s.pf1Served = true ∧ confirm.toNat = 0x5A ∧ s.isSet F.CFG_FUSE_CMD_BUSY 0 = false ∧ s.shiftArmed = false ∧ s.getF
       F.CFG_SVN_FUSED 0 < s.getF F.CFG_SVN_RUN 0) ∧
    (let s : State := tBase
     let confirm : BitVec 8 := 0x5B
     s.pf1Served = true ∧ (confirm.toNat ≠ 0x5A ∨ s.isSet F.CFG_FUSE_CMD_BUSY 0 = true ∨ s.shiftArmed = true)) ∧
    (let s : State := tW [(F.CFG_FUSE_CMD_BUSY, 0, 1)]
     let confirm : BitVec 8 := 0x5A
     s.pf1Served = true ∧ (confirm.toNat ≠ 0x5A ∨ s.isSet F.CFG_FUSE_CMD_BUSY 0 = true ∨ s.shiftArmed = true)) ∧
    (let s : State := tW [(F.CFG_SHIFT_STATUS_STATE, 0, shHOLDING)]
     let confirm : BitVec 8 := 0x5A
     s.pf1Served = true ∧ (confirm.toNat ≠ 0x5A ∨ s.isSet F.CFG_FUSE_CMD_BUSY 0 = true ∨ s.shiftArmed = true)) ∧
    (let s : State := tW [(F.CFG_KEYS_FUSED, 0, 0xC)]
     let k : Fin 4 := 3
     let j : Fin 4 := 2
     s.pf1Served = true ∧ s.isSet F.CFG_FUSE_CMD_BUSY 0 = false ∧ s.shiftArmed = false ∧ (s.isSet F.CFG_STATUS_LOADED 0 = false ∨
       s.getF F.CFG_KEYS_RUN_SLOT 0 ≠ k) ∧ j ≠ k ∧ s.bitF F.CFG_KEYS_FUSED 0 j = true ∧ s.bitF F.CFG_KEYS_REVOKED 0 j = false) ∧
    (let s : State := tW [(F.CFG_KEYS_FUSED, 0, 0xC), (F.CFG_STATUS_LOADED, 0, 1), (F.CFG_KEYS_RUN_SLOT, 0, 2)]
     let k : Fin 4 := 3
     let j : Fin 4 := 2
     s.pf1Served = true ∧ s.isSet F.CFG_FUSE_CMD_BUSY 0 = false ∧ s.shiftArmed = false ∧ (s.isSet F.CFG_STATUS_LOADED 0 = false ∨
       s.getF F.CFG_KEYS_RUN_SLOT 0 ≠ k) ∧ j ≠ k ∧ s.bitF F.CFG_KEYS_FUSED 0 j = true ∧ s.bitF F.CFG_KEYS_REVOKED 0 j = false) ∧
    (let s : State := tBase.updCfg fun c => { c with fuse := some .svn }
     s.pwr.held = [] ∧ s.cfg.fuse = some .svn) ∧
    ((let s : State := tBase.updCfg fun c => { c with fuse := some (.revoke 3) }
     s.pwr.held = [] ∧ s.cfg.fuse = some (.revoke
       3) ∧ (8 : BitVec 64).toNat.testBit 3 = true)) :=
  ⟨by decide +kernel, by decide +kernel, by decide +kernel, by decide +kernel, by decide +kernel, by decide +kernel,
    by decide +kernel, by decide +kernel⟩

theorem witness_LoadRows :
    ((let s : State := State.reset
     let x : LoadIn := { keysMatch := 1, slotA := tStored, slotB := {} }
     s.pwr.held = [] ∧
       s.cfg.load = some { cause := 1 } ∧ ∃ u,
       (({ s with out := [] } : State).setF F.CFG_KEYS_USABLE 0 (maskOf 4 fun b =>
       x.keysMatch.testBit b &&
         (s.getF F.CFG_KEYS_FUSED 0).testBit b && !(s.getF F.CFG_KEYS_REVOKED 0).testBit
       b)).attempt
         (x.image s.cfg.flash.active) = .placed u)) ∧
    (let s : State := State.reset
     let l := ({ cause := 1 } : LoadS)
     let x := ({ keysMatch := 15, slotA := { flashOk := false }, slotB := { flashOk := false } } : LoadIn)
     s.pwr.held = [] ∧ s.cfg.load = some l ∧ l.verifyOnly = false ∧ s.isSet F.PWR_BIST_FAIL 0 = false ∧ x.slotA.flashOk = false ∧
       x.slotB.flashOk = false) ∧
    (let s : State := tBase.updCfg fun c => { c with recordDue := some 8 }
     let cause := (8 : Nat)
     s.pwr.held = [] ∧ s.cfg.recordDue = some cause) :=
  ⟨⟨by decide +kernel, by decide +kernel, tPlaced (by decide +kernel)⟩, by decide +kernel, by decide +kernel⟩

theorem witness_StagingRows :
    (let j := ({ bytes := [], sigOk := true } : PieceJob)
     let s : State := (tW [(F.CFG_STAGE_STATUS_STATE, 0, sgRECEIVING)]).updCfg fun c => { c with piece := some j }
     s.pwr.held = [] ∧ s.cfg.piece = some j ∧ s.cfg.pieces = [] ∧ s.stg = sgRECEIVING) ∧
    (let s : State := tW [(F.CFG_STAGE_STATUS_STATE, 0, sgVERIFYING), (F.CFG_KEYS_USABLE, 0, 1)]
     let f : Stored := tStored
     s.pwr.held = [] ∧ s.stg = sgVERIFYING ∧ s.verifyCause f.image = 0) ∧
    (let s : State := tW [(F.CFG_STAGE_STATUS_STATE, 0, sgVERIFYING), (F.CFG_KEYS_USABLE, 0, 1)]
     let f : Stored := { tStored with sigOk := false }
     s.pwr.held = [] ∧ s.stg = sgVERIFYING ∧ s.verifyCause f.image ≠ 0) ∧
    (let s : State := tW [(F.CFG_STAGE_STATUS_STATE, 0, sgCOPYING), (F.CFG_KEYS_USABLE, 0, 1)]
     let f : Stored := tStored
     s.pwr.held = [] ∧ s.stg = sgCOPYING ∧ s.verifyCause f.image = 0) ∧
    (let s : State := tW [(F.CFG_STAGE_STATUS_STATE, 0, sgCOPYING), (F.CFG_KEYS_USABLE, 0, 1)]
     let f : Stored := { tStored with sigOk := false }
     s.pwr.held = [] ∧ s.stg = sgCOPYING ∧ s.verifyCause f.image ≠ 0) ∧
    (let s : State := tBase
     s.pf1Served = true ∧ s.stg ≠ sgARMED ∧ s.shiftArmed = false) ∧
    (let s : State := tW [(F.CFG_SHIFT_STATUS_STATE, 0, shSTAYED)]
     s.pf1Served = true ∧ s.stg ≠ sgARMED ∧ s.shiftArmed = false) ∧
    (let s : State := tW [(F.CFG_STAGE_STATUS_STATE, 0, sgARMED)]
     s.pf1Served = true ∧ (s.stg = sgARMED ∨ s.shiftArmed = true)) ∧
    (let s : State := tW [(F.CFG_SHIFT_STATUS_STATE, 0, shHOLDING)]
     s.pf1Served = true ∧ (s.stg = sgARMED ∨ s.shiftArmed = true)) ∧
    (let s : State := (tW [(F.CFG_STAGE_STATUS_STATE, 0, sgREADY), (F.CFG_KEYS_USABLE, 0, 1)]).updCfg fun c =>
       { c with arming := some 3 }
     let f : Stored := tStored
     let pos := (3 : Nat)
     s.pwr.held = [] ∧ s.cfg.arming = some pos ∧ s.stg = sgREADY ∧ s.prepareCause f.image = 0) ∧
    (let s : State := (tW [(F.CFG_STAGE_STATUS_STATE, 0, sgREADY), (F.CFG_KEYS_USABLE, 0, 1)]).updCfg fun c =>
       { c with arming := some 3 }
     let f : Stored := { tStored with sigOk := false }
     let pos := (3 : Nat)
     s.pwr.held = [] ∧ s.cfg.arming = some pos ∧ s.stg = sgREADY ∧ s.prepareCause f.image ≠ 0) :=
  ⟨by decide +kernel, by decide +kernel, by decide +kernel, by decide +kernel, by decide +kernel, by decide +kernel,
    by decide +kernel, by decide +kernel, by decide +kernel, by decide +kernel, by decide +kernel⟩

theorem witness_ShiftRows :
    (let s : State := tW [(F.CFG_SHIFT_STATUS_STATE, 0, shARMED), (F.TRL_CTL_EN, 0, 1), (F.TRL_STATUS_ROLE, 0, rlMEMBER),
       (F.CFG_STAGE_EPOCH_LO_EPOCH, 0, 7)]
     let e : BitVec 64 := 7
     s.pwr.held = [] ∧ s.onRing = true ∧ s.shift = shARMED ∧ s.stageEpoch = e.toNat) ∧
    (let s : State :=
       { tW [(F.CFG_SHIFT_STATUS_STATE, 0, shCOMMITTED), (F.CFG_SHIFT_FRAME_LO_F_LO, 0, 1), (F.CLR_STATUS_STATE, 31, hdSEEK)] with tick := 50 * 4096 - 1 }
     let u : State := { s with tick := (s.tick + 1) % 2 ^ 48 }
     let n := (u.frameStarts + 2 ^ 40 - s.shiftF) % 2 ^ 40
     s.pwr.held = [] ∧ (s.tick + 1) % 2 ^ 48 % 50 = 0 ∧ s.tck.repeats = 0 ∧ begun s.shiftF u.frameStarts = true ∧ s.shift =
       shCOMMITTED ∧ u.quiescent = false ∧ n < 4096) ∧
    (let im := ({ epoch := 1 } : Image)
     let s : State :=
       { (tW [(F.CFG_SHIFT_STATUS_STATE, 0, shCOMMITTED)]).updCfg fun c => { c with standby := some im } with tick := 50 * 4096 - 1 }
     let u : State := { s with tick := (s.tick + 1) % 2 ^ 48 }
     let n := (u.frameStarts + 2 ^ 40 - s.shiftF) % 2 ^ 40
     s.pwr.held = [] ∧ (s.tick + 1) % 2 ^ 48 % 50 = 0 ∧ s.tck.repeats = 0 ∧ begun s.shiftF u.frameStarts = true ∧ u.quiescent =
       true ∧ n ≤ 4096 ∧ s.cfg.standby = some im ∧ s.shift = shCOMMITTED) ∧
    (let im := ({ epoch := 1 } : Image)
     let s : State :=
       { (tW [(F.CFG_SHIFT_STATUS_STATE, 0, shHOLDING)]).updCfg fun c => { c with standby := some im } with tick := 50 * 4096 - 1 }
     let u : State := { s with tick := (s.tick + 1) % 2 ^ 48 }
     let n := (u.frameStarts + 2 ^ 40 - s.shiftF) % 2 ^ 40
     s.pwr.held = [] ∧ (s.tick + 1) % 2 ^ 48 % 50 = 0 ∧ s.tck.repeats = 0 ∧ begun s.shiftF u.frameStarts = true ∧ u.quiescent =
       true ∧ n ≤ 4096 ∧ s.cfg.standby = some im ∧ s.shift = shHOLDING) ∧
    (let s : State :=
       { tW [(F.CFG_SHIFT_STATUS_STATE, 0, shHOLDING), (F.CLR_STATUS_STATE, 31, hdSEEK)] with tick := 50 * 4096 - 1 }
     let u : State := { s with tick := (s.tick + 1) % 2 ^ 48 }
     let n := (u.frameStarts + 2 ^ 40 - s.shiftF) % 2 ^ 40
     s.pwr.held = [] ∧ (s.tick + 1) % 2 ^ 48 % 50 = 0 ∧ s.tck.repeats = 0 ∧ begun s.shiftF u.frameStarts = true ∧ s.shift =
       shHOLDING ∧ 4096 ≤ n ∧ u.quiescent = false) ∧
    (let s : State := tBase.updCfg fun c => { c with copying := true }
     s.pwr.held = [] ∧ s.cfg.copying = true) :=
  ⟨by decide +kernel, by decide +kernel, by decide +kernel, by decide +kernel, by decide +kernel, by decide +kernel⟩

theorem witness_RingRoleRows :
    (let s : State := { tW [(F.TRL_STATUS_ROLE, 0, rlLISTEN)] with tick := 50 }
     s.pwr.held = [] ∧ s.onTick 50 = true ∧ (s.role = rlLISTEN ∨ s.role = rlMEMBER)) ∧
    (let s : State := { tW [(F.TRL_STATUS_ROLE, 0, rlMEMBER)] with tick := 50 }
     s.pwr.held = [] ∧ s.onTick 50 = true ∧ (s.role = rlLISTEN ∨ s.role = rlMEMBER)) ∧
    (let s : State := { tW [(F.TRL_STATUS_ROLE, 0, rlELECT)] with tick := 50 }
     s.pwr.held = [] ∧ s.onTick 50 = true ∧ s.role = rlELECT) ∧
    (let s : State := { tW [(F.TRL_STATUS_ROLE, 0, rlHEAD)] with tick := 50 }
     s.pwr.held = [] ∧ s.onTick 50 = true ∧ s.role = rlHEAD) ∧
    (let s : State := tW [(F.CFG_STATUS_LOADED, 0, 1)]
     s.pf1Served = true ∧ s.isSet F.CFG_STATUS_LOADED 0 = true ∧ s.role = rlOFF) ∧
    (let s : State := tBase
     s.pf1Served = true) ∧
    (let s : State := tW [(F.TRL_STATUS_ROLE, 0, rlMEMBER)]
     s.pf1Served = true ∧ (s.role = rlMEMBER ∨ s.role = rlHEAD)) ∧
    (let s : State := tW [(F.TRL_STATUS_ROLE, 0, rlHEAD)]
     s.pf1Served = true ∧ (s.role = rlMEMBER ∨ s.role = rlHEAD)) ∧
    (let s : State := tW [(F.TRL_STATUS_ROLE, 0, rlLOOP)]
     s.pwr.held = [] ∧ s.role = rlLOOP) ∧
    (let s : State := { tW [(F.TRL_STATUS_ROLE, 0, rlLOOP)] with tick := 8000 }
     s.pwr.held = [] ∧ s.role = rlLOOP ∧ 8000 ≤ s.ticksSince s.trl.loopAt) ∧
    (let s : State := (tW [(F.TRL_STATUS_ROLE, 0, rlMEMBER)]).updTrl fun r => { r with silent := 4 }
     s.pwr.held = [] ∧ ((s.role = rlMEMBER ∧ 4 ≤ s.trl.silent) ∨ (s.role = rlLISTEN ∧ 8 ≤ s.trl.silent))) ∧
    (let s : State := (tW [(F.TRL_STATUS_ROLE, 0, rlLISTEN)]).updTrl fun r => { r with silent := 8 }
     s.pwr.held = [] ∧ ((s.role = rlMEMBER ∧ 4 ≤ s.trl.silent) ∨ (s.role = rlLISTEN ∧ 8 ≤ s.trl.silent))) ∧
    (let s : State := (tW [(F.TRL_STATUS_ROLE, 0, rlELECT)]).updTrl fun r => { r with electFor := 64 }
     s.pwr.held = [] ∧ s.role = rlELECT ∧ 64 ≤ s.trl.electFor) ∧
    (let s : State := (tW [(F.TRL_STATUS_ROLE, 0, rlHEAD)]).updTrl fun r => { r with absent := 4 }
     s.pwr.held = [] ∧ s.role = rlHEAD ∧ 4 ≤ s.trl.absent ∧ s.trl.open_ = false) ∧
    (let s : State := tW [(F.TRL_STATUS_IN_LOCK, 0, 1)]
     s.pwr.held = [] ∧ s.isSet F.TRL_STATUS_IN_LOCK 0 = true ∧ s.role ≠ rlLOOP) ∧
    (let s : State := tW [(F.TRL_STATUS_IN_LOCK, 0, 1), (F.TRL_STATUS_ROLE, 0, rlMEMBER)]
     s.pwr.held = [] ∧ s.isSet F.TRL_STATUS_IN_LOCK 0 = true ∧ s.role ≠ rlLOOP) ∧
    (let s : State := tW [(F.TRL_STATUS_ROLE, 0, rlELECT)]
     let n : BitVec 64 := 1
     s.pwr.held = [] ∧ s.role = rlELECT ∧ n.toNat = s.serial) ∧
    (let s : State := tW [(F.TRL_STATUS_ROLE, 0, rlMEMBER)]
     let n : BitVec 64 := 0
     s.pwr.held = [] ∧ s.role = rlMEMBER ∧ n.toNat < s.serial) ∧
    (let s : State := tW [(F.TRL_STATUS_ROLE, 0, rlMEMBER)]
     let n : BitVec 64 := 2
     s.pwr.held = [] ∧ s.role = rlMEMBER ∧ s.serial < n.toNat) :=
  ⟨by decide +kernel, by decide +kernel, by decide +kernel, by decide +kernel, by decide +kernel, by decide +kernel,
    by decide +kernel, by decide +kernel, by decide +kernel, by decide +kernel, by decide +kernel, by decide +kernel,
    by decide +kernel, by decide +kernel, by decide +kernel, by decide +kernel, by decide +kernel, by decide +kernel,
    by decide +kernel⟩

theorem witness_RingFrameRows :
    (let s : State := tW [(F.TRL_STATUS_ROLE, 0, rlMEMBER)]
     let x : FrameIn := { time := 2 ^ 40 - 1, hops := 1023 }
     s.pwr.held = [] ∧ (s.role = rlMEMBER ∨ s.role = rlLISTEN) ∧ x.full = false) ∧
    (let s : State := tW [(F.TRL_STATUS_ROLE, 0, rlLISTEN)]
     let x : FrameIn := { time := 2 ^ 40 - 1, hops := 1023 }
     s.pwr.held = [] ∧ (s.role = rlMEMBER ∨ s.role = rlLISTEN) ∧ x.full = false) ∧
    (let s : State := tW [(F.TRL_STATUS_ROLE, 0, rlLISTEN)]
     let x : FrameIn := { time := 2 ^ 40 - 1, hops := 1023, full := true }
     s.pwr.held = [] ∧ s.role = rlLISTEN ∧ x.full = true) ∧
    (let s : State := tW [(F.TRL_STATUS_ROLE, 0, rlHEAD)]
     s.pwr.held = [] ∧ s.role = rlHEAD) ∧
    (let j := ({ epoch := 1, lead := 512, collect := 64, since := 0 } : ShiftJob)
     let s : State := (tW [(F.TRL_STATUS_ROLE, 0, rlHEAD)]).updTrl fun r => { r with time := 64, job := some j }
     s.pwr.held = [] ∧ s.trl.job = some j ∧ j.phase = 1 ∧ begun j.since s.trl.time = true ∧ max 1 j.collect ≤ framesFrom j.since
       s.trl.time) ∧
    (let s : State := tW [(F.CFG_SHIFT_STATUS_STATE, 0, shARMED), (F.CFG_STAGE_EPOCH_LO_EPOCH, 0, 7)]
     let e : BitVec 64 := 7
     s.pwr.held = [] ∧ s.shift = shARMED ∧ s.stageEpoch = e.toNat) ∧
    (let s : State := tBase
     s.pwr.held = [] ∧ s.pf1Served = true) :=
  ⟨by decide +kernel, by decide +kernel, by decide +kernel, by decide +kernel, by decide +kernel, by decide +kernel,
    by decide +kernel⟩

theorem witness_RingMessageRows :
    (let s : State := tW [(F.TRL_STATUS_ROLE, 0, rlMEMBER), (F.TRL_CTL_PIECE_EN, 0, 1), (F.CFG_KEYS_USABLE, 0, 1)]
     let m : MsgIn := ({ kind := 1, dest := 1023, src := 5, words := [0x0001000000014350, 3968, 1], crcOk := true } : MsgIn)
     let b := true
     s.pwr.held = [] ∧ s.onMessages = true ∧ m.crcOk = true ∧ m.kind = 1 ∧ s.isSet F.TRL_CTL_PIECE_EN 0 = true ∧ s.cfg.piece =
       none ∧ s.cfg.pieces = [] ∧ s.pieceReason { bytes := pieceBytes m.words, sigOk := b } none = 0 ∧ (s.fixStage (pieceBytes
       m.words)).cfg.flash.marked.contains (pcIndex (pieceBytes m.words)) = false) ∧
    (let s : State := tW [(F.TRL_STATUS_ROLE, 0, rlMEMBER)]
     let m : MsgIn := ({ kind := 2, dest := 1023, src := 5, words := [], crcOk := true } : MsgIn)
     s.pwr.held = [] ∧ s.onMessages = true ∧ m.crcOk = true ∧ m.kind = 2 ∧ s.addressed m = true ∧ s.isSet F.TRL_RX_STATUS_FULL 0 =
       false) ∧
    (let s : State := tW [(F.TRL_STATUS_ROLE, 0, rlMEMBER), (F.TRL_RX_STATUS_FULL, 0, 1)]
     let m : MsgIn := ({ kind := 2, dest := 0, src := 5, words := [], crcOk := true } : MsgIn)
     s.pwr.held = [] ∧ s.onMessages = true ∧ m.crcOk = true ∧ m.kind = 2 ∧ s.addressed m = true ∧ s.isSet F.TRL_RX_STATUS_FULL 0 =
       true) ∧
    (let s : State := tW [(F.TRL_STATUS_ROLE, 0, rlHEAD)]
     let m : MsgIn := ({ kind := 4, dest := 1023, src := 5, words := [], crcOk := true } : MsgIn)
     s.pwr.held = [] ∧ s.onMessages = true ∧ m.crcOk = true ∧ m.kind = 4 ∧ s.role = rlHEAD ∧ s.trl.job = none ∧ s.unitsPresent =
       [] ∧ s.trl.mixed = false ∧ s.trl.open_ = false) ∧
    (let s : State := tW [(F.TRL_STATUS_ROLE, 0, rlHEAD)]
     let m : MsgIn := ({ kind := 5, dest := 1023, src := 5, words := [], crcOk := true } : MsgIn)
     s.pwr.held = [] ∧ s.onMessages = true ∧ m.crcOk = true ∧ m.kind = 5 ∧ s.role = rlHEAD) ∧
    (let s : State := tW [(F.TRL_STATUS_ROLE, 0, rlMEMBER)]
     let m : MsgIn := ({ kind := 2, dest := 1023, src := 5, words := [], crcOk := false } : MsgIn)
     s.pwr.held = [] ∧ s.onMessages = true ∧ m.crcOk = false) ∧
    (let s : State := tBase
     let w : BitVec 32 := 0x10000001
     s.pf1Served = true ∧ s.isSet F.TRL_TX_STATUS_BUSY 0 = false ∧ 1 ≤ w.toNat / 2 ^ 28 % 8 ∧ w.toNat / 2 ^ 28 % 8 ≤ 5 ∧ 1 ≤
       w.toNat % 2 ^ 10 ∧ w.toNat % 2 ^ 10 ≤ 512) ∧
    (let s : State := tBase
     let w : BitVec 32 := 0x50000200
     s.pf1Served = true ∧ s.isSet F.TRL_TX_STATUS_BUSY 0 = false ∧ 1 ≤ w.toNat / 2 ^ 28 % 8 ∧ w.toNat / 2 ^ 28 % 8 ≤ 5 ∧ 1 ≤
       w.toNat % 2 ^ 10 ∧ w.toNat % 2 ^ 10 ≤ 512) ∧
    (let s : State := tW [(F.TRL_TX_STATUS_BUSY, 0, 1)]
     s.pf1Served = true ∧ s.isSet F.TRL_TX_STATUS_BUSY 0 = true) ∧
    (let x := ({ why := .data, msg := { kind := 2, dest := 5, src := 0, words := [7] }, sentAt := some 0 } : TxMsg)
     let s : State := (tW [(F.TRL_STATUS_ROLE, 0, rlMEMBER)]).updTrl fun r => { r with tx := [x] }
     let m : MsgIn := ({ kind := 2, dest := 1023, src := 0, words := [7], crcOk := true } : MsgIn)
     s.pwr.held = [] ∧ s.onMessages = true ∧ m.src = s.getF F.TRL_STATUS_POSITION 0 ∧ m.kind ≠ 1 ∧ (s.trl.tx.find? fun y =>
       y.sentAt.isSome && y.msg.kind == m.kind && y.msg.words == m.words) = some x ∧ x.why = .data) ∧
    (let x := ({ why := .data, msg := { kind := 2, dest := 5, src := 0, words := [7] }, sentAt := some 0 } : TxMsg)
     let s : State := { (tW [(F.TRL_STATUS_ROLE, 0, rlMEMBER)]).updTrl fun r => { r with tx := [x] } with tick := 101 }
     let a := (0 : Nat)
     s.pwr.held = [] ∧ s.trl.tx = [x] ∧ x.why = .data ∧ x.sentAt = some a ∧ 100 < s.ticksSince a) ∧
    (let s : State := tBase
     s.pf1Served = true) ∧
    (let s : State := tW [(F.TRL_STATUS_ROLE, 0, rlMEMBER)]
     s.pf1Served = true ∧ s.role ≠ rlHEAD ∧ s.getF F.TRL_SHIFT_CTL_RESULT 0 ≠ 1) ∧
    (let s : State := tW [(F.TRL_STATUS_ROLE, 0, rlHEAD), (F.TRL_SHIFT_CTL_RESULT, 0, 1)]
     s.pf1Served = true ∧ s.getF F.TRL_SHIFT_CTL_RESULT 0 = 1) ∧
    (let s : State := tW [(F.TRL_STATUS_ROLE, 0, rlHEAD)]
     let w : BitVec 32 := 2
     s.pf1Served = true ∧ s.role = rlHEAD ∧ s.isSet F.TRL_EXCL_CTL_BUSY 0 = false ∧ w.toNat.testBit 1 = true) :=
  ⟨by decide +kernel, by decide +kernel, by decide +kernel, by decide +kernel, by decide +kernel, by decide +kernel,
    by decide +kernel, by decide +kernel, by decide +kernel, by decide +kernel, by decide +kernel, by decide +kernel,
    by decide +kernel, by decide +kernel, by decide +kernel⟩

theorem witness_DeviceResetRows :
    (let s : State := { tBase with pwr := { held := [.porn] } }
     s.pwr.held = [.porn]) ∧
    (let s : State := { tBase with pwr := { held := [.srstn] } }
     s.pwr.held = [.srstn]) ∧
    (let s : State := tW [(F.TRL_STATUS_ROLE, 0, rlMEMBER), (F.TRL_CTL_RESET_EN, 0, 1), (F.TRL_STATUS_POSITION, 0, 1023)]
     let m := ({ kind := 3, dest := 1023, src := 5, words := [1], crcOk := true } : MsgIn)
     s.pwr.held = [] ∧ s.onMessages = true ∧ m.crcOk = true ∧ m.kind = 3 ∧ m.dest = s.getF F.TRL_STATUS_POSITION 0 ∧ m.words.getD
       0 0 = s.serial ∧ s.isSet F.TRL_CTL_RESET_EN 0 = true) := by
  decide +kernel

theorem witness_HostResetRows :
    (let s : State := tBase
     s.hif.perst = false ∧ s.pwr.held = []) ∧
    (let s : State := { tBase with pwr := { held := [.trip] } }
     s.hif.perst = false ∧ s.pwr.held ≠ []) ∧
    (let s : State :=
       { (tBase.updCfg fun c => { c with image := some { epoch := 1 } }) with hif := { tBase.hif with perst := true } }
     s.hif.perst = true ∧ s.pwr.held = [] ∧ s.cfg.load = none ∧ s.cfg.image.isSome = true) ∧
    (let s : State := { tBase with hif := { tBase.hif with perst := true } }
     s.hif.perst = true ∧ s.pwr.held = [] ∧ s.cfg.load = none ∧ s.cfg.image = none) ∧
    (let s : State := (tBase.updCfg fun c => { c with load := some { cause := 3, verifyOnly := true } })
     let x := ({ keysMatch := 1, slotA := tStored, slotB := {} } : LoadIn)
     s.pwr.held = [] ∧ s.verifying = true ∧ s.verifyOnlyCause x = 0) ∧
    (let s : State := (tBase.updCfg fun c => { c with load := some { cause := 3, verifyOnly := true } })
     let x := ({ keysMatch := 0, slotA := tStored, slotB := tStored } : LoadIn)
     s.pwr.held = [] ∧ s.verifying = true ∧ s.verifyOnlyCause x ≠ 0) ∧
    (let s : State := tBase
     s.hif.perst = false ∧ s.pwr.held = []) :=
  ⟨by decide +kernel, by decide +kernel, by decide +kernel, by decide +kernel, by decide +kernel, by decide +kernel,
    by decide +kernel⟩

theorem witness_RailAndClockRows :
    (let s : State := tW [(F.PWR_STATUS_RAILS, 0, 255)]
     let r : Fin 8 := 7
     s.pwr.held = [] ∧ s.bitF F.PWR_STATUS_RAILS 0 r = true) ∧
    (let s : State := { tBase with pwr := { held := [.sysclk] } }
     s.pwr.held = [.sysclk]) ∧
    (let s : State := tW [(F.PWR_STATUS_LREF, 0, 255)]
     let d : Fin 8 := 7
     s.pwr.held = [] ∧ s.bitF F.PWR_STATUS_LREF 0 d = true) ∧
    (let s : State := tBase
     s.pwr.held = [] ∧ s.isSet F.HIF_LINK_DL_ACTIVE 0 = true) :=
  ⟨by decide +kernel, by decide +kernel, by decide +kernel, by decide +kernel⟩

theorem witness_CalibrationRows :
    (let s : State := tBase
     let temps : List Int := List.replicate 16 (1199 : Int)
     s.pwr.held = [] ∧ ((∀ i < 16, -480 ≤ temps.getD i 0 ∧ temps.getD i 0 ≤ 1280 ∧ (s.sensor i).last ≠ some (temps.getD i 0))) ∧
       ((∀ i < 16, temps.getD i 0 < 1200))) ∧
    (let s : State := tBase
     let temps : List Int := List.replicate 16 (-480 : Int)
     s.pwr.held = [] ∧ ((∀ i < 16, -480 ≤ temps.getD i 0 ∧ temps.getD i 0 ≤ 1280 ∧ (s.sensor i).last ≠ some (temps.getD i 0))) ∧
       ((∀ i < 16, temps.getD i 0 < 1200))) ∧
    (let s : State := tBase
     let temps : List Int := List.replicate 15 (-480 : Int) ++ [1280]
     let i := (15 : Nat)
     s.pwr.held = [] ∧ ((∀ i < 16, -480 ≤ temps.getD i 0 ∧ temps.getD i 0 ≤ 1280 ∧ (s.sensor i).last ≠ some (temps.getD i 0))) ∧
       1200 ≤ temps.getD i 0) ∧
    (let s : State := { tBase with pwr := { held := [.trip] } }
     let temps : List Int := List.replicate 16 (1039 : Int)
     s.pwr.held = [.trip] ∧ ((∀ i < 16, temps.getD i 0 < 1040))) ∧
    (let s : State := tW [(F.CAL_CTL_EN, 0, 1)]
     let i := (15 : Nat)
     s.isSet F.CAL_CTL_EN 0 = true ∧ trimmed i = true ∧ s.pf1Served = true) ∧
    (let s : State := tW [(F.CAL_CTL_EN, 0, 1)]
     let i := (8 : Nat)
     s.isSet F.CAL_CTL_EN 0 = true ∧ trimmed i = true ∧ s.pwr.held = [] ∧ s.isSet F.CAL_TEMP_VALID i = false) ∧
    (let s : State := (tW [(F.CAL_STATUS_PEND, 0, 0x8000)]).setRegion 15 { left := [(0, 9)] }
     let i : Fin 16 := 15
     let u : Fin 41 := 0
     let x := ({} : CalIn)
     let n := (9 : Nat)
     s.pwr.held = [] ∧ (s.region i).left.find? (fun p => p.1 = u.val) = some (u.val, n) ∧ s.bitF F.CAL_STATUS_PEND 0 i = true ∧
       s.calMay i u = true ∧ s.plausible i u (s.trim i u) x = true) ∧
    (let s : State := (tW [(F.CAL_STATUS_PEND, 0, 0x8000)]).setRegion 15 { left := [(0, 9)] }
     let i : Fin 16 := 15
     let u : Fin 41 := 0
     let x := ({ inRange := false } : CalIn)
     let n := (9 : Nat)
     s.pwr.held = [] ∧ (s.region i).left.find? (fun p => p.1 = u.val) = some (u.val, n) ∧ s.bitF F.CAL_STATUS_PEND 0 i = true ∧
       s.calMay i u = true ∧ s.plausible i u (s.trim i u) x = false) :=
  ⟨by decide +kernel, by decide +kernel, by decide +kernel, by decide +kernel, by decide +kernel, by decide +kernel,
    by decide +kernel, by decide +kernel⟩

theorem witness_EventRegisterRows :
    (let s : State := tBase
     let a : BitVec 27 := 0x71F060
     let e : EvtReg := evtSld
     let i : Nat := (31 : Nat)
     s.pf1Served = true ∧ evtAt a.toNat = some (e, .bits, i)) ∧
    (let s : State := tBase
     let a : BitVec 27 := 0x71F064
     let e : EvtReg := evtSld
     let i : Nat := (31 : Nat)
     s.pf1Served = true ∧ evtAt a.toNat = some (e, .mask, i)) ∧
    (let s : State := tBase
     let a : BitVec 27 := 0x71F068
     let e : EvtReg := evtSld
     let i : Nat := (31 : Nat)
     s.pf1Served = true ∧ evtAt a.toNat = some (e, .force, i)) := by
  decide +kernel

theorem witness_RegisterSpaceRows :
    (let s : State := tBase
     let a : BitVec 32 := 0x10017C
     let r := R.TCK_CLR_OVR
     let i := (31 : Nat)
     s.pf1Served = true ∧ a.toNat % 4 = 0 ∧ tableEntry a.toNat = none ∧ tableEntry (a.toNat - 4) = none ∧ locateIn allRegs a.toNat
       = some (r, i)) ∧
    (let s : State := tBase
     let a : BitVec 32 := 0x2
     let sp := RegSpace.msix1
     s.served sp.fn = true ∧ a.toNat % 4 ≠ 0) ∧
    (let s : State := { tBase with hif := { tBase.hif with pf1 := { d3 := true } } }
     let sp := RegSpace.msix1
     s.pwr.held = [] ∧ s.served sp.fn = false ∧ s.isSet F.HIF_LINK_DL_ACTIVE 0 = true) ∧
    (let s : State := tBase
     let w : BitVec 32 := 1
     s.pf1Served = true ∧ 1 ≤ w.toNat % 2 ^ 11 ∧ w.toNat % 2 ^ 11 ≤ 2000) ∧
    (let s : State := tBase
     let w : BitVec 32 := 2000
     s.pf1Served = true ∧ 1 ≤ w.toNat % 2 ^ 11 ∧ w.toNat % 2 ^ 11 ≤ 2000) ∧
    (let s : State := tBase
     let w : BitVec 32 := 0
     s.pf1Served = true ∧ (w.toNat % 2 ^ 11 = 0 ∨ 2000 < w.toNat % 2 ^ 11)) ∧
    (let s : State := tBase
     let w : BitVec 32 := 2001
     s.pf1Served = true ∧ (w.toNat % 2 ^ 11 = 0 ∨ 2000 < w.toNat % 2 ^ 11)) ∧
    (let s : State := tBase
     let w : BitVec 32 := 0x100
     s.pf1Served = true ∧ w.toNat % 2 ^ 8 < w.toNat / 2 ^ 8 % 2 ^ 8) ∧
    (let s : State := tBase
     let w : BitVec 32 := 0xFFFF
     s.pf1Served = true ∧ w.toNat / 2 ^ 8 % 2 ^ 8 ≤ w.toNat % 2 ^ 8) ∧
    (let s : State := tBase
     let a : BitVec 32 := 0xFFFFFFFF
     let sp := RegSpace.msix1
     s.served sp.fn = true ∧ a.toNat % 4 ≠ 0) :=
  ⟨by decide +kernel, by decide +kernel, by decide +kernel, by decide +kernel, by decide +kernel, by decide +kernel,
    by decide +kernel, by decide +kernel, by decide +kernel, by decide +kernel⟩

/-- For each frame a command of its rows that answers a next state. -/
theorem witness_RowsKeepTheRest :
    ((.calForce : Instr).mnemonic = "CAL_FORCE" ∧ ∃ t, exec (.calForce) tBase = .next t) ∧
    ((.sledStop 31 : Instr).mnemonic = "SLED_STOP" ∧ ∃ t, exec (.sledStop 31) tBase = .next t) ∧
    ((.deckStop 7 : Instr).mnemonic = "DECK_STOP" ∧ ∃ t, exec (.deckStop 7) tBase = .next t) ∧
    ((.linkEnable 31 : Instr).mnemonic = "LINK_ENABLE" ∧ ∃ t, exec (.linkEnable 31) tBase = .next t) ∧
    ((.prcFlush 0x80000000 : Instr).mnemonic = "PRC_FLUSH" ∧ ∃ t, exec (.prcFlush 0x80000000) tBase = .next t) ∧
    ((.windowCommit 0x80 : Instr).mnemonic = "WINDOW_COMMIT" ∧ ∃ t, exec (.windowCommit 0x80) tBase = .next t) ∧
    ((.sqTailDoorbell 64 0 : Instr).mnemonic = "SQ_TAIL_DOORBELL" ∧ ∃ t, exec (.sqTailDoorbell 64 0) tBase = .next t) ∧
    ((.dramScrubStop : Instr).mnemonic = "DRAM_SCRUB_STOP" ∧ ∃ t, exec (.dramScrubStop) tBase = .next t) ∧
    ((.keyRevoke 0x5A 3 : Instr).mnemonic = "KEY_REVOKE" ∧ ∃ t, exec (.keyRevoke 0x5A 3) tBase = .next t) ∧
    ((.ringDisable : Instr).mnemonic = "RING_DISABLE" ∧ ∃ t, exec (.ringDisable) tBase = .next t) ∧
    ((.evtClear 0x71F060 0xFFFFFFFF : Instr).mnemonic = "EVT_CLEAR" ∧ ∃ t, exec (.evtClear 0x71F060 0xFFFFFFFF) tBase = .next t) := by
  refine ⟨⟨rfl, tNext ?_⟩, ⟨rfl, tNext ?_⟩, ⟨rfl, tNext ?_⟩, ⟨rfl, tNext ?_⟩, ⟨rfl, tNext ?_⟩, ⟨rfl, tNext ?_⟩, ⟨rfl, tNext ?_⟩, ⟨rfl,
    tNext ?_⟩, ⟨rfl, tNext ?_⟩, ⟨rfl, tNext ?_⟩, ⟨rfl, tNext ?_⟩⟩ <;> decide +kernel

/-! ### Values the spec states -/

/-- The example under R12: LBA 0x1583_0D40 of volume 3 is seam 43, block 200,000, and its home head is 15. -/
theorem test_lba_example : lbaSeam 0x15830D40 = 43 ∧ lbaBlock 0x15830D40 = 200000 ∧ homeHead 3 43 = 15 := by decide +kernel

/-- The example under R67: X = 1,754 and m = 16 give stream slot 70,192, which is slot 13 of band position 471, at 5,841.3 counts. -/
theorem test_drift_example : lodeStreamSlot 1754 16 = 70192 ∧ lodeSlotAt 43 1754 16 = (471, 13) ∧
    startOf 12 13 = (22, 7024) ∧ bitAngle 1 12 (slotStart 13) * 10 / 65536 = 58413 := by decide +kernel

/-- The example in R220: column 20 with t = 1 has row 11 and shift 56. -/
theorem test_ldpc_example : ldpcRow 1 20 = 11 ∧ ldpcShift 1 20 = 56 := by decide +kernel

/-- AES-256-GCM of one zero block under key and nonce 0: test case 14 of the GCM specification. -/
theorem test_gcm_case14 :
    gcmOpen (List.replicate 32 0) (List.replicate 12 0) [] (beBytes 16 0xCEA7403D4D606B6E074EC5D3BAF39D18)
      (beBytes 16 0xD0D1C8A799996BF0265B98B5D48AB919) = some (List.replicate 16 0) := by decide +kernel

/-- The example of R292: the commit of window 2 with SIZE_CTL 0x0020_0007 takes effect at the decode boundary, and SEQ counts it. -/
theorem test_window_example :
    let s : State := { tW [(F.HIF_WIN_BASE_LO_BASE_LO, 2, 0x400), (F.HIF_WIN_BASE_HI_BASE_HI, 2, 8), (F.HIF_WIN_SIZE_CTL_SIZE, 2, 32),
      (F.HIF_WIN_SIZE_CTL_EN, 2, 1), (F.MEM_STATUS_GIB, 0, 64), (F.HIF_WIN_STATUS_SEQ, 0, 0x11)] with
        hif := { tBase.hif with commits := [4] } }
    (match exec .decodeBoundary s with
     | .next t => t.liveBase 2 == 0x880000000 && t.getF F.HIF_WIN_LIVE_SIZE_CTL_SIZE 2 == 32 && t.getF F.HIF_WIN_STATUS_SEQ 0 == 0x12
     | _ => false) = true := by decide +kernel

/-! ### Terms that are not well formed -/

theorem test_ill_servoTick : WellFormed (.servoTick [] []) = false := by decide +kernel
theorem test_ill_motorTick : WellFormed (.motorTick (List.replicate 8 { vbus := 2 ^ 16 })) = false := by decide +kernel
theorem test_ill_fifoPop : WellFormed (.fifoPop 31 5 [(16, 0)]) = false := by decide +kernel
theorem test_ill_alignMarker : WellFormed (.alignMarker 31 []) = false := by decide +kernel
theorem test_ill_farLoopbackD0 : WellFormed (.farLoopbackD0 31 6) = false := by decide +kernel
theorem test_ill_driftSlot : WellFormed (.driftSlot 127 160) = false := by decide +kernel
theorem test_ill_load : WellFormed (.imageLoadDone { keysMatch := 16, slotA := {}, slotB := {} }) = false := by decide +kernel
theorem test_ill_stored : WellFormed (.stageVerifyDone { bytes := [256] }) = false := by decide +kernel
theorem test_ill_key : WellFormed (.armPrepared { key := some [] }) = false := by decide +kernel
theorem test_ill_configRequest : WellFormed (.configRequest 0 (.barSize 3)) = false := by decide +kernel
theorem test_ill_linkUp : WellFormed (.linkUp 6 16) = false := by decide +kernel
theorem test_ill_completion : WellFormed (.completionReceived 0 (List.replicate 4097 0) .ok) = false := by decide +kernel
theorem test_ill_peerRead : WellFormed (.peerRead 0 0 {}) = false := by decide +kernel
theorem test_ill_peerWrite : WellFormed (.peerWrite 0 [1] { data := [(16, 0)] }) = false := by decide +kernel
theorem test_ill_windowCommit : WellFormed (.windowCommit 0) = false := by decide +kernel
theorem test_ill_msix : WellFormed (.msixVectorUnmask 1 32) = false := by decide +kernel
theorem test_ill_tableLow : WellFormed (.tableLowWrite 0 0) = false := by decide +kernel
theorem test_ill_tableHigh : WellFormed (.tableHighWrite 0 0) = false := by decide +kernel
theorem test_ill_frame : WellFormed (.frameStartReceived { time := 2 ^ 40, hops := 0 }) = false := by decide +kernel
theorem test_ill_returned : WellFormed (.frameReturned 0 0 0 [[]]) = false := by decide +kernel
theorem test_ill_message : WellFormed (.mgmtMessage { kind := 8, dest := 0, src := 0, words := [] }) = false := by decide +kernel
theorem test_ill_sensors : WellFormed (.sensorSample [] {}) = false := by decide +kernel
theorem test_ill_evtClear : WellFormed (.evtClear 0 0) = false := by decide +kernel
theorem test_ill_evtMask : WellFormed (.evtMaskWrite 0x71F060 0) = false := by decide +kernel
theorem test_ill_evtForce : WellFormed (.evtForceWrite 0x71F064 0) = false := by decide +kernel
theorem test_ill_rcRead : WellFormed (.rcRead .msix0 16384) = false := by decide +kernel
theorem test_ill_registerWrite : WellFormed (.registerWrite .pf0 0x1000000 0 {} false) = false := by decide +kernel
end

section
/-!
PROOFS. The numbering of seams (R10): side and band are bits of the seam number, and side, layer and band give it back.
-/
namespace Sys2Proof.Proofs

open Sys2Proof.Machine

theorem seamSide_eq_testBit (n : Nat) : seamSide n = (n.testBit 5).toNat :=
  (Nat.toNat_testBit n 5).symm

theorem seamBand_eq_testBit (n : Nat) : seamBand n = (n.testBit 0).toNat := by
  rw [Nat.toNat_testBit, pow_zero, Nat.div_one, seamBand]

/-- The weights 32, 2 and 1 are the places of the three parts in R10's table; above 63 the side would drop the bits over bit 5. -/
theorem seam_eq_of_parts {n : Nat} (hn : n < 64) : n = 32 * seamSide n + 2 * seamLayer n + seamBand n := by
  have side : seamSide n = n / 32 := Nat.mod_eq_of_lt (by omega)
  have layer : seamLayer n = n / 2 % 16 := rfl
  have band : seamBand n = n % 2 := rfl
  omega

/-- Settles O5: side and band are the single bits 5 and 0, the layer is its own definition, and the parts recompose n. -/
theorem seamNumbering : Obligations.SeamNumbering := by
  intro n hn
  exact ⟨seamSide_eq_testBit n, rfl, seamBand_eq_testBit n, seam_eq_of_parts hn⟩

end Sys2Proof.Proofs
end

section
/-!
PROOFS. The lock of the ring discipline (R32): what one measured frame does to the two runs, to LOCK and to DISC_UNLOCK, and what
a list of frames that are all good or all bad does.
-/
namespace Sys2Proof.Proofs

open Sys2Proof.Machine Sys2Proof.Laws

/-! ### One measured frame -/

/-- The part of a measurement that only counts: a frame extends a run, up to the length that acts, or breaks it. -/
def countFrame (s : State) (e : Nat) : State :=
  { s with tck := { s.tck with
    inRun := if e ≤ 1 then min 16 (s.tck.inRun + 1) else 0
    outRun := if 4 < e then min 4 (s.tck.outRun + 1) else 0 } }

/-- A measurement counts its frame, and then a full run of good frames sets LOCK, a full run of bad ones clears it. -/
theorem discLock_eq (s : State) (e : Nat) :
    s.discLock e =
      if 16 ≤ (countFrame s e).tck.inRun then (countFrame s e).setB F.TCK_STATUS_LOCK 0 true
      else if 4 ≤ (countFrame s e).tck.outRun && s.isSet F.TCK_STATUS_LOCK 0 then
        ((countFrame s e).setB F.TCK_STATUS_LOCK 0 false).raise E.TCK_DISC_UNLOCK 0
      else countFrame s e := rfl

@[simp] theorem countFrame_isSet (s : State) (e : Nat) (f : Field) (i : Nat) : (countFrame s e).isSet f i = s.isSet f i := rfl

theorem discLock_tck (s : State) (e : Nat) : (s.discLock e).tck = (countFrame s e).tck := by
  rw [discLock_eq]
  split_ifs <;> rfl

theorem inRun_discLock_of_good (s : State) {e : Nat} (he : e ≤ 1) :
    (s.discLock e).tck.inRun = min 16 (s.tck.inRun + 1) := by
  simp [discLock_tck, countFrame, he]

theorem inRun_discLock_of_not_good (s : State) {e : Nat} (he : 1 < e) : (s.discLock e).tck.inRun = 0 := by
  simp [discLock_tck, countFrame, he]

theorem outRun_discLock_of_bad (s : State) {e : Nat} (he : 4 < e) :
    (s.discLock e).tck.outRun = min 4 (s.tck.outRun + 1) := by
  simp [discLock_tck, countFrame, he]

theorem outRun_discLock_of_not_bad (s : State) {e : Nat} (he : e ≤ 4) : (s.discLock e).tck.outRun = 0 := by
  simp [discLock_tck, countFrame, he]

theorem isSet_raise_ne (s : State) (v : Event) {g : Field} {i j : Nat} (h : v.fld.id ≠ g.id) (k : v.reg.forced.id ≠ g.id) :
    (s.raise v i).isSet g j = s.isSet g j := by
  unfold State.isSet
  rw [getF_raise_ne s v h k]

theorem isSet_setB_ne (s : State) {f g : Field} {i j : Nat} (b : Bool) (h : f.id ≠ g.id) :
    (s.setB f i b).isSet g j = s.isSet g j := by
  unfold State.isSet
  rw [getF_setB_fld s b h]

/-- LOCK after a measurement depends only on the runs that the measurement leaves and on LOCK before. -/
theorem lock_discLock (s : State) (e : Nat) :
    (s.discLock e).isSet F.TCK_STATUS_LOCK 0 =
      if 16 ≤ (s.discLock e).tck.inRun then true
      else if 4 ≤ (s.discLock e).tck.outRun then false
      else s.isSet F.TCK_STATUS_LOCK 0 := by
  rw [discLock_tck, discLock_eq]
  by_cases hi : 16 ≤ (countFrame s e).tck.inRun
  · rw [if_pos hi, if_pos hi, isSet_setB _ _ _ _ (by decide)]
  rw [if_neg hi, if_neg hi]
  by_cases ho : 4 ≤ (countFrame s e).tck.outRun
  · cases hl : s.isSet F.TCK_STATUS_LOCK 0
    · simp [hl]
    · simp only [ho, decide_true, Bool.and_true, if_true]
      rw [isSet_raise_ne _ _ (by decide) (by decide), isSet_setB _ _ _ _ (by decide)]
  · simp [ho]

/-- A good frame leaves no run of bad ones, so it cannot clear LOCK. -/
theorem lock_discLock_of_good (s : State) {e : Nat} (he : e ≤ 1) :
    (s.discLock e).isSet F.TCK_STATUS_LOCK 0 = true ↔
      16 ≤ (s.discLock e).tck.inRun ∨ s.isSet F.TCK_STATUS_LOCK 0 = true := by
  rw [lock_discLock, outRun_discLock_of_not_bad s (by omega)]
  simp

/-- A bad frame leaves no run of good ones, so it cannot set LOCK. -/
theorem lock_discLock_of_bad (s : State) {e : Nat} (he : 4 < e) :
    (s.discLock e).isSet F.TCK_STATUS_LOCK 0 = false ↔
      4 ≤ (s.discLock e).tck.outRun ∨ s.isSet F.TCK_STATUS_LOCK 0 = false := by
  rw [lock_discLock, inRun_discLock_of_not_good s (by omega)]
  simp [imp_iff_not_or]

theorem lock_discLock_of_between (s : State) {e : Nat} (hlo : 1 < e) (hhi : e ≤ 4) :
    (s.discLock e).isSet F.TCK_STATUS_LOCK 0 = s.isSet F.TCK_STATUS_LOCK 0 := by
  rw [lock_discLock, inRun_discLock_of_not_good s hlo, outRun_discLock_of_not_bad s hhi]
  rfl

/-- The bad frame that completes a run while LOCK is set raises DISC_UNLOCK. -/
theorem unlock_discLock_of_full (s : State) {e : Nat} (he : 4 < e) (ho : 4 ≤ (s.discLock e).tck.outRun)
    (hl : s.isSet F.TCK_STATUS_LOCK 0 = true) : (s.discLock e).isSet F.TCK_EVT_DISC_UNLOCK 0 = true := by
  have hi : ¬ 16 ≤ (countFrame s e).tck.inRun := by
    rw [← discLock_tck, inRun_discLock_of_not_good s (by omega)]
    decide
  rw [discLock_tck] at ho
  rw [discLock_eq, if_neg hi, if_pos (by simp [ho, hl])]
  exact isSet_raise _ E.TCK_DISC_UNLOCK _ (by decide) (by decide)

/-- A measurement never clears DISC_UNLOCK. -/
theorem unlock_discLock_of_unlock (s : State) (e : Nat) (h : s.isSet F.TCK_EVT_DISC_UNLOCK 0 = true) :
    (s.discLock e).isSet F.TCK_EVT_DISC_UNLOCK 0 = true := by
  rw [discLock_eq]
  split_ifs
  · rw [isSet_setB_ne _ _ (by decide), countFrame_isSet, h]
  · exact isSet_raise _ E.TCK_DISC_UNLOCK _ (by decide) (by decide)
  · exact h

/-! ### A list of frames that are all good or all bad -/

/-- A count that every frame of the list raises by one, up to n, stands at the list's length, up to n. -/
theorem run_foldl_discLock {run : State → Nat} {n : Nat} {es : List Nat}
    (hstep : ∀ t, ∀ e ∈ es, run (t.discLock e) = min n (run t + 1)) {s : State} (hs : run s ≤ n) :
    run (es.foldl State.discLock s) = min n (run s + es.length) := by
  induction es generalizing s with
  | nil => simp [hs]
  | cons e es ih =>
    have hrun : run (s.discLock e) = min n (run s + 1) := hstep s e List.mem_cons_self
    have htail := ih (fun t e he => hstep t e (List.mem_cons_of_mem _ he)) (s := s.discLock e) (by omega)
    rw [List.foldl_cons, htail, hrun, List.length_cons]
    omega

/-- LOCK is set exactly when the run of good frames is full. -/
def LockedByRun (s : State) : Prop := s.isSet F.TCK_STATUS_LOCK 0 = true ↔ 16 ≤ s.tck.inRun

theorem lockedByRun_discLock {s : State} (hs : LockedByRun s) {e : Nat} (he : e ≤ 1) : LockedByRun (s.discLock e) := by
  unfold LockedByRun at *
  rw [lock_discLock_of_good s he, hs, inRun_discLock_of_good s he]
  omega

/-- LOCK is clear exactly when the run of bad frames is full, and then DISC_UNLOCK is raised. -/
structure UnlockedByRun (s : State) : Prop where
  lock : s.isSet F.TCK_STATUS_LOCK 0 = false ↔ 4 ≤ s.tck.outRun
  unlock : 4 ≤ s.tck.outRun → s.isSet F.TCK_EVT_DISC_UNLOCK 0 = true

theorem unlockedByRun_discLock {s : State} (hs : UnlockedByRun s) {e : Nat} (he : 4 < e) : UnlockedByRun (s.discLock e) where
  lock := by
    rw [lock_discLock_of_bad s he, hs.lock, outRun_discLock_of_bad s he]
    omega
  unlock ho := by
    cases hl : s.isSet F.TCK_STATUS_LOCK 0
    · exact unlock_discLock_of_unlock s e (hs.unlock (hs.lock.mp hl))
    · exact unlock_discLock_of_full s he ho hl

theorem lock_foldl_good {s : State} {es : List Nat} (hl : s.isSet F.TCK_STATUS_LOCK 0 = false) (hr : s.tck.inRun = 0)
    (hes : ∀ e ∈ es, e ≤ 1) : (es.foldl State.discLock s).isSet F.TCK_STATUS_LOCK 0 = true ↔ 16 ≤ es.length := by
  have hinv : LockedByRun (es.foldl State.discLock s) :=
    List.foldlRecOn es State.discLock (by simp [LockedByRun, hl, hr]) fun t ht e he => lockedByRun_discLock ht (hes e he)
  have hrun := run_foldl_discLock (run := fun t => t.tck.inRun) (fun t e he => inRun_discLock_of_good t (hes e he))
    (s := s) (by omega)
  refine hinv.trans ?_
  rw [hrun]
  omega

theorem lock_foldl_bad {s : State} {es : List Nat} (hl : s.isSet F.TCK_STATUS_LOCK 0 = true) (hr : s.tck.outRun = 0)
    (hes : ∀ e ∈ es, 4 < e) :
    ((es.foldl State.discLock s).isSet F.TCK_STATUS_LOCK 0 = false ↔ 4 ≤ es.length) ∧
      (4 ≤ es.length → (es.foldl State.discLock s).isSet F.TCK_EVT_DISC_UNLOCK 0 = true) := by
  have hinv : UnlockedByRun (es.foldl State.discLock s) :=
    List.foldlRecOn es State.discLock ⟨by simp [hl, hr], by simp [hr]⟩ fun t ht e he => unlockedByRun_discLock ht (hes e he)
  have hrun := run_foldl_discLock (run := fun t => t.tck.outRun) (fun t e he => outRun_discLock_of_bad t (hes e he))
    (s := s) (by omega)
  have hfull : 4 ≤ (es.foldl State.discLock s).tck.outRun ↔ 4 ≤ es.length := by
    rw [hrun]
    omega
  exact ⟨hinv.lock.trans hfull, fun h => hinv.unlock (hfull.mpr h)⟩

/-! ### The measurement of TCK -/

/-- LOCK after a measurement is the same from two states with the same runs and the same LOCK. -/
theorem lock_discLock_congr {s t : State} (hl : t.isSet F.TCK_STATUS_LOCK 0 = s.isSet F.TCK_STATUS_LOCK 0)
    (htck : t.tck = s.tck) (e : Nat) :
    (t.discLock e).isSet F.TCK_STATUS_LOCK 0 = (s.discLock e).isSet F.TCK_STATUS_LOCK 0 := by
  have hcount : (countFrame t e).tck = (countFrame s e).tck := by
    unfold countFrame
    rw [htck]
  rw [lock_discLock, lock_discLock, discLock_tck, discLock_tck, hl, hcount]

theorem lock_stepPhase (s : State) (e : Int) :
    (s.stepPhase e).isSet F.TCK_STATUS_LOCK 0 = s.isSet F.TCK_STATUS_LOCK 0 := by
  unfold State.isSet
  rw [(stepPhase_frame s e).reg _ _ (by decide) (by decide +kernel)]

/-- The step or the slew that follows the discipline's lock (R33) does not touch LOCK, nor do LAST_ERR and HOLDOVER before it. -/
theorem lock_measure (s : State) (e : Int) (hd : s.isSet F.TCK_CTL_DISC_EN 0 = true) :
    (s.measure e).isSet F.TCK_STATUS_LOCK 0 = (s.discLock e.natAbs).isSet F.TCK_STATUS_LOCK 0 := by
  have hlock : ((s.setF F.TCK_STATUS_LAST_ERR 0 (unsgn 16 e)).setB F.TCK_STATUS_HOLDOVER 0 false).isSet F.TCK_STATUS_LOCK 0 =
      s.isSet F.TCK_STATUS_LOCK 0 := by
    rw [isSet_setB_ne _ _ (by decide)]
    unfold State.isSet
    rw [getF_setF_fld _ _ (by decide)]
  have hdisc := lock_discLock_congr hlock rfl e.natAbs
  unfold State.measure
  rw [hd, Bool.not_true, if_neg Bool.false_ne_true]
  dsimp only
  split
  · rw [lock_stepPhase, hdisc]
  · exact hdisc

/-- Settles O6: the run that the frames extend counts them, and LOCK follows the run by an invariant over the list; a measurement
of TCK moves LOCK as the discipline's lock does. -/
theorem disciplineLock : Obligations.DisciplineLock := by
  intro s es
  refine ⟨lock_foldl_good, lock_foldl_bad, fun e => ⟨?_, ?_, ?_⟩, lock_measure s⟩
  · exact inRun_discLock_of_not_good s
  · exact outRun_discLock_of_not_bad s
  · exact lock_discLock_of_between s

end Sys2Proof.Proofs
end

section
/-!
PROOFS. The decode boundary of a peer window commit (R291, R292): which commits are refused, and what a refused one and an accepted
one leave.
-/
namespace Sys2Proof.Proofs

open Sys2Proof.Machine Sys2Proof.Laws

/-! ### Which commits are refused -/

/-- R292's two conditions on one window, in the registers that hold its shadow mapping. -/
theorem badWindow_iff (s : State) (w : Nat) :
    s.badWindow w = true ↔ s.isSet F.HIF_WIN_SIZE_CTL_EN w = true ∧
      (s.getF F.HIF_WIN_SIZE_CTL_SIZE w = 0 ∨ 64 < s.getF F.HIF_WIN_SIZE_CTL_SIZE w ∨
        s.dramLines * 64 < s.getF F.HIF_WIN_BASE_LO_BASE_LO w * 2 ^ 21 + s.getF F.HIF_WIN_BASE_HI_BASE_HI w * 2 ^ 32 +
          s.getF F.HIF_WIN_SIZE_CTL_SIZE w * 2 ^ 21) := by
  simp only [State.badWindow, Bool.and_eq_true, Bool.or_eq_true, beq_iff_eq, decide_eq_true_eq, or_assoc]
  rfl

/-- The mask m names a window that may not go live. -/
def NamesBadWindow (s : State) (m : Nat) : Prop := ∃ w < 8, m.testBit w = true ∧ s.badWindow w = true

theorem any_badWindow_iff (s : State) (m : Nat) :
    ((List.range 8).filter m.testBit).any s.badWindow = true ↔ NamesBadWindow s m := by
  simp only [NamesBadWindow, List.any_eq_true, List.mem_filter, List.mem_range, and_assoc]

/-! ### What the boundary leaves -/

/-- The boundary takes the oldest commit and counts it in SEQ, whether it is then refused or not. -/
def countCommit (s : State) (rest : List Nat) : State :=
  ({ s with hif := { s.hif with commits := rest } }).setF F.HIF_WIN_STATUS_SEQ 0 (s.getF F.HIF_WIN_STATUS_SEQ 0 + 1)

theorem countCommit_seq (s : State) (rest : List Nat) :
    (countCommit s rest).getF F.HIF_WIN_STATUS_SEQ 0 =
      (s.getF F.HIF_WIN_STATUS_SEQ 0 + 1) % 2 ^ F.HIF_WIN_STATUS_SEQ.width :=
  getF_setF _ _ _ _

theorem countCommit_getF_ne (s : State) (rest : List Nat) {g : Field} (j : Nat) (h : F.HIF_WIN_STATUS_SEQ.id ≠ g.id) :
    (countCommit s rest).getF g j = s.getF g j :=
  getF_setF_fld _ _ h

/-- A refused commit sets REFUSED and raises COMMIT_REJECT. -/
def refuseCommit (s : State) : State := (s.setB F.HIF_WIN_STATUS_REFUSED 0 true).raise E.HIF_COMMIT_REJECT 0

theorem refuseCommit_refused (s : State) : (refuseCommit s).isSet F.HIF_WIN_STATUS_REFUSED 0 = true := by
  rw [refuseCommit, isSet_raise_ne _ _ (by decide) (by decide), isSet_setB _ _ _ _ (by decide)]

theorem refuseCommit_reject (s : State) : (refuseCommit s).isSet F.HIF_EVT_COMMIT_REJECT 0 = true :=
  isSet_raise _ E.HIF_COMMIT_REJECT _ (by decide) (by decide)

theorem refuseCommit_getF_ne (s : State) {g : Field} (j : Nat) (hr : F.HIF_WIN_STATUS_REFUSED.id ≠ g.id)
    (he : E.HIF_COMMIT_REJECT.fld.id ≠ g.id) (hf : E.HIF_COMMIT_REJECT.reg.forced.id ≠ g.id) :
    (refuseCommit s).getF g j = s.getF g j := by
  rw [refuseCommit, getF_raise_ne _ _ he hf, getF_setB_fld _ _ hr]

theorem boundary_of_bad {s : State} {m : Nat} {rest : List Nat} (hc : s.hif.commits = m :: rest) (hbad : NamesBadWindow s m) :
    s.boundary = refuseCommit (countCommit s rest) := by
  unfold State.boundary
  rw [hc]
  exact if_pos ((any_badWindow_iff s m).mpr hbad)

theorem boundary_of_good {s : State} {m : Nat} {rest : List Nat} (hc : s.hif.commits = m :: rest) (hgood : ¬ NamesBadWindow s m) :
    s.boundary = ((countCommit s rest).forEach ((List.range 8).filter m.testBit) State.goLive).setB
      F.HIF_WIN_STATUS_REFUSED 0 false := by
  unfold State.boundary
  rw [hc]
  exact if_neg (mt (any_badWindow_iff s m).mp hgood)

/-- DECODE_BOUNDARY of a running device reads, in every register, as the boundary from the state itself. -/
theorem decodeBoundary_next {s : State} (hheld : s.pwr.held = []) :
    ∃ t, exec .decodeBoundary s = .next t ∧ Same (fresh s).boundary t :=
  done_next hheld State.boundary

/-! ### The live windows -/

/-- The fields of the windows' live mappings. -/
def liveWindowFields : List Field :=
  [F.HIF_WIN_LIVE_BASE_LO_BASE_LO, F.HIF_WIN_LIVE_BASE_HI_BASE_HI, F.HIF_WIN_LIVE_SIZE_CTL_SIZE,
    F.HIF_WIN_LIVE_SIZE_CTL_WR_EN, F.HIF_WIN_LIVE_SIZE_CTL_RD_EN, F.HIF_WIN_LIVE_SIZE_CTL_EN]

/-- No live field is one of the four fields that a refused commit writes. -/
theorem liveWindowFields_ne : ∀ f ∈ liveWindowFields,
    F.HIF_WIN_STATUS_SEQ.id ≠ f.id ∧ F.HIF_WIN_STATUS_REFUSED.id ≠ f.id ∧ E.HIF_COMMIT_REJECT.fld.id ≠ f.id ∧
      E.HIF_COMMIT_REJECT.reg.forced.id ≠ f.id := by
  decide

theorem liveWindow_of_refused (s : State) (rest : List Nat) {f : Field} (hf : f ∈ liveWindowFields) (v : Nat) :
    (refuseCommit (countCommit s rest)).getF f v = s.getF f v := by
  obtain ⟨hseq, hrefused, hevent, hforced⟩ := liveWindowFields_ne f hf
  rw [refuseCommit_getF_ne _ _ hrefused hevent hforced, countCommit_getF_ne _ _ _ hseq]

/-! ### DECODE_BOUNDARY -/

theorem decodeBoundary_of_bad {s : State} {m : Nat} {rest : List Nat} (hheld : s.pwr.held = [])
    (hc : s.hif.commits = m :: rest) (hbad : NamesBadWindow s m) :
    ∃ t, exec .decodeBoundary s = .next t ∧ t.isSet F.HIF_WIN_STATUS_REFUSED 0 = true ∧
      t.isSet F.HIF_EVT_COMMIT_REJECT 0 = true ∧
      t.getF F.HIF_WIN_STATUS_SEQ 0 = (s.getF F.HIF_WIN_STATUS_SEQ 0 + 1) % 2 ^ F.HIF_WIN_STATUS_SEQ.width ∧
      ∀ f ∈ liveWindowFields, ∀ v, t.getF f v = s.getF f v := by
  obtain ⟨t, ht, same⟩ := decodeBoundary_next hheld
  rw [boundary_of_bad (s := fresh s) hc hbad] at same
  refine ⟨t, ht, ?_, ?_, ?_, fun f hf v => ?_⟩
  · rw [same.isSet, refuseCommit_refused]
  · rw [same.isSet, refuseCommit_reject]
  · rw [same.getF, refuseCommit_getF_ne _ _ (by decide) (by decide) (by decide), countCommit_seq]
    rfl
  · rw [same.getF, liveWindow_of_refused _ _ hf]
    rfl

theorem decodeBoundary_of_good {s : State} {m : Nat} {rest : List Nat} (hheld : s.pwr.held = [])
    (hc : s.hif.commits = m :: rest) (hgood : ¬ NamesBadWindow s m) :
    ∃ t, exec .decodeBoundary s = .next t ∧ t.isSet F.HIF_WIN_STATUS_REFUSED 0 = false := by
  obtain ⟨t, ht, same⟩ := decodeBoundary_next hheld
  rw [boundary_of_good (s := fresh s) hc hgood] at same
  exact ⟨t, ht, by rw [same.isSet, isSet_setB _ _ _ _ (by decide)]⟩

/-- Settles O7: the boundary refuses exactly the masks that name a bad window; a refused commit writes only SEQ, REFUSED and the
event's two bits, and an accepted one ends by clearing REFUSED. -/
theorem refusedCommit : Obligations.RefusedCommit := by
  intro s m rest hheld hc
  constructor
  · rintro ⟨w, hw, hm, hen, hrange⟩
    exact decodeBoundary_of_bad hheld hc ⟨w, hw, hm, (badWindow_iff s w).mpr ⟨hen, hrange⟩⟩
  · intro hall
    refine decodeBoundary_of_good hheld hc ?_
    rintro ⟨w, hw, hm, hbad⟩
    obtain ⟨hen, hrange⟩ := (badWindow_iff s w).mp hbad
    obtain ⟨hzero, hmax, hend⟩ := hall w hw hm hen
    omega

end Sys2Proof.Proofs
end

section
/-!
PROOFS. What every command changes at most: its frame lies within its reach, and the canonical form is kept (95). Which commands may
stop.
-/
set_option Elab.async false

namespace Sys2Proof.Proofs

open Sys2Proof.Machine Sys2Proof.Laws

/-! ### The frame and the outcome of every command -/

/-- The reach covers the mask, and names no register with a part's number. -/
def rowCovers (m : Nat) (r : Reach) : Bool := covers m r && (r.anyReg || r.regs.all fun f => 1000 < f.id)

/-- The command answers a next state, or it is one of the four that may name a DRAM line that does not exist (log 9). -/
def Completes (c : Instr) (s : State) : Prop :=
  (∃ t, exec c s = .next t) ∨
  (exec c s = .fault .dramAddress ∧ c.mnemonic ∈ ["TEST_RAW_WRITE", "TEST_RAW_READ", "LCA_PRELOAD", "REGISTER_WRITE"])

/-- The command completes, and its next state is in a frame that the command's reach covers. -/
structure Framed (c : Instr) (s : State) : Prop where
  completes : Completes c s
  frame : ∃ m, FrameX m s (exec c s) ∧ rowCovers m (reach c) = true

theorem framed_of_frameN {c : Instr} {s : State} {m : Nat} (h : FrameN m s (exec c s)) (hc : rowCovers m (reach c) = true) :
    Framed c s where
  completes := .inl (h.imp fun _ ht => ht.1)
  frame := ⟨m, h.toX, hc⟩

/-- A command that first looks whether its DRAM line exists, and otherwise completes. -/
theorem completes_of_ite {c : Instr} {s : State} {absent : Bool} {o : Out}
    (hexec : exec c s = if absent then .fault .dramAddress else o) (ho : ∃ t, o = .next t)
    (hc : c.mnemonic ∈ ["TEST_RAW_WRITE", "TEST_RAW_READ", "LCA_PRELOAD", "REGISTER_WRITE"]) : Completes c s := by
  cases absent with
  | true => exact .inr ⟨hexec, hc⟩
  | false => exact .inl (ho.imp fun _ ht => hexec.trans ht)

theorem framed_of_frameX {c : Instr} {s : State} {m : Nat} {absent : Bool} {o : Out}
    (hexec : exec c s = if absent then .fault .dramAddress else o) (ho : ∃ t, o = .next t)
    (hname : c.mnemonic ∈ ["TEST_RAW_WRITE", "TEST_RAW_READ", "LCA_PRELOAD", "REGISTER_WRITE"])
    (h : FrameX m s (exec c s)) (hc : rowCovers m (reach c) = true) : Framed c s where
  completes := completes_of_ite hexec ho hname
  frame := ⟨m, h, hc⟩

/-- Each row has the frame of its meaning, and Safety.lean's reach covers that frame. -/
theorem exec_framed (c : Instr) (s : State) : Framed c s := by
  cases c with
  | servoTick shorts cycles =>
    exact framed_of_frameN (execServoTick_frame shorts cycles s) (by dsimp only [reach]; decide +kernel)
  | motorTick samples => exact framed_of_frameN (execMotorTick_frame samples s) (by dsimp only [reach]; decide +kernel)
  | ringFrameTick slot => exact framed_of_frameN (execRingFrameTick_frame slot s) (by dsimp only [reach]; decide +kernel)
  | tckCtlWrite w => exact framed_of_frameN (execTckCtlWrite_frame w s) (by dsimp only [reach]; decide +kernel)
  | tckAsyDeadlineWrite w => exact framed_of_frameN (execTckAsyDeadlineWrite_frame w s) (by dsimp only [reach]; decide +kernel)
  | collierOverrun h cycles =>
    exact framed_of_frameN (execCollierOverrun_frame h cycles s) (by dsimp only [reach]; decide +kernel)
  | lrnSkip h => exact framed_of_frameN (execLrnSkip_frame h s) (by dsimp only [reach]; decide +kernel)
  | obsLate d => exact framed_of_frameN (execObsLate_frame d s) (by dsimp only [reach]; decide +kernel)
  | wndOvr d => exact framed_of_frameN (execWndOvr_frame d s) (by dsimp only [reach]; decide +kernel)
  | sldOvr h => exact framed_of_frameN (execSldOvr_frame h s) (by dsimp only [reach]; decide +kernel)
  | asyMiss y => exact framed_of_frameN (execAsyMiss_frame y s) (by dsimp only [reach]; decide +kernel)
  | takeoverPartnerFree h => exact framed_of_frameN (execTakeoverPartnerFree_frame h s) (by dsimp only [reach]; decide +kernel)
  | seekReissue h => exact framed_of_frameN (execSeekReissue_frame h s) (by dsimp only [reach]; decide +kernel)
  | takeoverRequest h => exact framed_of_frameN (execTakeoverRequest_frame h s) (by dsimp only [reach]; decide +kernel)
  | handbackRequest h => exact framed_of_frameN (execHandbackRequest_frame h s) (by dsimp only [reach]; decide +kernel)
  | handbackDone h => exact framed_of_frameN (execHandbackDone_frame h s) (by dsimp only [reach]; decide +kernel)
  | linkWordPush h lane hdr payload rtt =>
    exact framed_of_frameN (execLinkWordPush_frame h lane hdr payload rtt s) (by dsimp only [reach]; decide +kernel)
  | fifoPop h f flips => exact framed_of_frameN (execFifoPop_frame h f flips s) (by dsimp only [reach]; decide +kernel)
  | fifoOverflow h f => exact framed_of_frameN (execFifoOverflow_frame h f s) (by dsimp only [reach]; decide +kernel)
  | fifoFlush h w => exact framed_of_frameN (execFifoFlush_frame h w s) (by dsimp only [reach]; decide +kernel)
  | echoReceived h seq rtt => exact framed_of_frameN (execEchoReceived_frame h seq rtt s) (by dsimp only [reach]; decide +kernel)
  | alignMarker h lanes => exact framed_of_frameN (execAlignMarker_frame h lanes s) (by dsimp only [reach]; decide +kernel)
  | rotate h => exact framed_of_frameN (execRotate_frame h s) (by dsimp only [reach]; decide +kernel)
  | laneRestoreSoak h lane => exact framed_of_frameN (execLaneRestoreSoak_frame h lane s) (by dsimp only [reach]; decide +kernel)
  | laneFail h lane cause => exact framed_of_frameN (execLaneFail_frame h lane cause s) (by dsimp only [reach]; decide +kernel)
  | linkEnable h => exact framed_of_frameN (execLinkEnable_frame h s) (by dsimp only [reach]; decide +kernel)
  | linkDisable h => exact framed_of_frameN (execLinkDisable_frame h s) (by dsimp only [reach]; decide +kernel)
  | trainDone h => exact framed_of_frameN (execTrainDone_frame h s) (by dsimp only [reach]; decide +kernel)
  | trainFail h => exact framed_of_frameN (execTrainFail_frame h s) (by dsimp only [reach]; decide +kernel)
  | prbsCtlWrite l w => exact framed_of_frameN (execPrbsCtlWrite_frame l w s) (by dsimp only [reach]; decide +kernel)
  | farLoopbackD0 h lane => exact framed_of_frameN (execFarLoopbackD0_frame h lane s) (by dsimp only [reach]; decide +kernel)
  | farLoopbackD1 h lane => exact framed_of_frameN (execFarLoopbackD1_frame h lane s) (by dsimp only [reach]; decide +kernel)
  | farLoopbackEnd h lane => exact framed_of_frameN (execFarLoopbackEnd_frame h lane s) (by dsimp only [reach]; decide +kernel)
  | hfeGeneratorStart h lane pat =>
    exact framed_of_frameN (execHfeGeneratorStart_frame h lane pat s) (by dsimp only [reach]; decide +kernel)
  | hfeGeneratorStop h lane =>
    exact framed_of_frameN (execHfeGeneratorStop_frame h lane s) (by dsimp only [reach]; decide +kernel)
  | cmdTimeout h => exact framed_of_frameN (execCmdTimeout_frame h s) (by dsimp only [reach]; decide +kernel)
  | eyeScanStart l dwell vofs hofs =>
    exact framed_of_frameN (execEyeScanStart_frame l dwell vofs hofs s) (by dsimp only [reach]; decide +kernel)
  | eyeScanDone l errors => exact framed_of_frameN (execEyeScanDone_frame l errors s) (by dsimp only [reach]; decide +kernel)
  | tickLeadWrite h w => exact framed_of_frameN (execTickLeadWrite_frame h w s) (by dsimp only [reach]; decide +kernel)
  | coefCommit h zero => exact framed_of_frameN (execCoefCommit_frame h zero s) (by dsimp only [reach]; decide +kernel)
  | coefCopy h => exact framed_of_frameN (execCoefCopy_frame h s) (by dsimp only [reach]; decide +kernel)
  | rpEvaluation h => exact framed_of_frameN (execRpEvaluation_frame h s) (by dsimp only [reach]; decide +kernel)
  | mediaOperationTake h => exact framed_of_frameN (execMediaOperationTake_frame h s) (by dsimp only [reach]; decide +kernel)
  | acqFail h => exact framed_of_frameN (execAcqFail_frame h s) (by dsimp only [reach]; decide +kernel)
  | jumpBrake h => exact framed_of_frameN (execJumpBrake_frame h s) (by dsimp only [reach]; decide +kernel)
  | jumpSettle h => exact framed_of_frameN (execJumpSettle_frame h s) (by dsimp only [reach]; decide +kernel)
  | seekFail h => exact framed_of_frameN (execSeekFail_frame h s) (by dsimp only [reach]; decide +kernel)
  | sledArrived h => exact framed_of_frameN (execSledArrived_frame h s) (by dsimp only [reach]; decide +kernel)
  | seekComplete h => exact framed_of_frameN (execSeekComplete_frame h s) (by dsimp only [reach]; decide +kernel)
  | layerHopKick h => exact framed_of_frameN (execLayerHopKick_frame h s) (by dsimp only [reach]; decide +kernel)
  | layerHopDone h => exact framed_of_frameN (execLayerHopDone_frame h s) (by dsimp only [reach]; decide +kernel)
  | layerFail h => exact framed_of_frameN (execLayerFail_frame h s) (by dsimp only [reach]; decide +kernel)
  | angleLossPark h => exact framed_of_frameN (execAngleLossPark_frame h s) (by dsimp only [reach]; decide +kernel)
  | fixTimeout h => exact framed_of_frameN (execFixTimeout_frame h s) (by dsimp only [reach]; decide +kernel)
  | holdExit h => exact framed_of_frameN (execHoldExit_frame h s) (by dsimp only [reach]; decide +kernel)
  | holdTimeout h => exact framed_of_frameN (execHoldTimeout_frame h s) (by dsimp only [reach]; decide +kernel)
  | headFaultReset h => exact framed_of_frameN (execHeadFaultReset_frame h s) (by dsimp only [reach]; decide +kernel)
  | collierEnable h => exact framed_of_frameN (execCollierEnable_frame h s) (by dsimp only [reach]; decide +kernel)
  | collierDisable h => exact framed_of_frameN (execCollierDisable_frame h s) (by dsimp only [reach]; decide +kernel)
  | seedDone h i1 => exact framed_of_frameN (execSeedDone_frame h i1 s) (by dsimp only [reach]; decide +kernel)
  | seedRequest h loops => exact framed_of_frameN (execSeedRequest_frame h loops s) (by dsimp only [reach]; decide +kernel)
  | tableClear h loops => exact framed_of_frameN (execTableClear_frame h loops s) (by dsimp only [reach]; decide +kernel)
  | sledTargetWrite h w => exact framed_of_frameN (execSledTargetWrite_frame h w s) (by dsimp only [reach]; decide +kernel)
  | groupGo w => exact framed_of_frameN (execGroupGo_frame w s) (by dsimp only [reach]; decide +kernel)
  | sledStop h => exact framed_of_frameN (execSledStop_frame h s) (by dsimp only [reach]; decide +kernel)
  | sledPark h => exact framed_of_frameN (execSledPark_frame h s) (by dsimp only [reach]; decide +kernel)
  | sledHome h => exact framed_of_frameN (execSledHome_frame h s) (by dsimp only [reach]; decide +kernel)
  | sledEnable h => exact framed_of_frameN (execSledEnable_frame h s) (by dsimp only [reach]; decide +kernel)
  | sledDisable h => exact framed_of_frameN (execSledDisable_frame h s) (by dsimp only [reach]; decide +kernel)
  | limitDebounced h => exact framed_of_frameN (execLimitDebounced_frame h s) (by dsimp only [reach]; decide +kernel)
  | homeFail h => exact framed_of_frameN (execHomeFail_frame h s) (by dsimp only [reach]; decide +kernel)
  | deckLoad d => exact framed_of_frameN (execDeckLoad_frame d s) (by dsimp only [reach]; decide +kernel)
  | deckStart d => exact framed_of_frameN (execDeckStart_frame d s) (by dsimp only [reach]; decide +kernel)
  | deckStop d => exact framed_of_frameN (execDeckStop_frame d s) (by dsimp only [reach]; decide +kernel)
  | deckUnload d => exact framed_of_frameN (execDeckUnload_frame d s) (by dsimp only [reach]; decide +kernel)
  | deckFaultReset d drvHigh =>
    exact framed_of_frameN (execDeckFaultReset_frame d drvHigh s) (by dsimp only [reach]; decide +kernel)
  | speedTargetWrite d target =>
    exact framed_of_frameN (execSpeedTargetWrite_frame d target s) (by dsimp only [reach]; decide +kernel)
  | overcurrent d => exact framed_of_frameN (execOvercurrent_frame d s) (by dsimp only [reach]; decide +kernel)
  | drvFault d => exact framed_of_frameN (execDrvFault_frame d s) (by dsimp only [reach]; decide +kernel)
  | gateHoldEnd d drvHigh clear =>
    exact framed_of_frameN (execGateHoldEnd_frame d drvHigh clear s) (by dsimp only [reach]; decide +kernel)
  | pillarReport d => exact framed_of_frameN (execPillarReport_frame d s) (by dsimp only [reach]; decide +kernel)
  | spinMeasureEnd d => exact framed_of_frameN (execSpinMeasureEnd_frame d s) (by dsimp only [reach]; decide +kernel)
  | alignEnd d => exact framed_of_frameN (execAlignEnd_frame d s) (by dsimp only [reach]; decide +kernel)
  | handoverTimeout d => exact framed_of_frameN (execHandoverTimeout_frame d s) (by dsimp only [reach]; decide +kernel)
  | spinFail d => exact framed_of_frameN (execSpinFail_frame d s) (by dsimp only [reach]; decide +kernel)
  | shortHoldEnd d => exact framed_of_frameN (execShortHoldEnd_frame d s) (by dsimp only [reach]; decide +kernel)
  | stopped d => exact framed_of_frameN (execStopped_frame d s) (by dsimp only [reach]; decide +kernel)
  | channelEnable c => exact framed_of_frameN (execChannelEnable_frame c s) (by dsimp only [reach]; decide +kernel)
  | channelDisable c => exact framed_of_frameN (execChannelDisable_frame c s) (by dsimp only [reach]; decide +kernel)
  | channelLock c => exact framed_of_frameN (execChannelLock_frame c s) (by dsimp only [reach]; decide +kernel)
  | lockTimeout c => exact framed_of_frameN (execLockTimeout_frame c s) (by dsimp only [reach]; decide +kernel)
  | pillarDetect h k => exact framed_of_frameN (execPillarDetect_frame h k s) (by dsimp only [reach]; decide +kernel)
  | zoneReload c => exact framed_of_frameN (execZoneReload_frame c s) (by dsimp only [reach]; decide +kernel)
  | driftSlot c slot => exact framed_of_frameN (execDriftSlot_frame c slot s) (by dsimp only [reach]; decide +kernel)
  | defect c => exact framed_of_frameN (execDefect_frame c s) (by dsimp only [reach]; decide +kernel)
  | driftDelivered c => exact framed_of_frameN (execDriftDelivered_frame c s) (by dsimp only [reach]; decide +kernel)
  | innerDecodeDone c => exact framed_of_frameN (execInnerDecodeDone_frame c s) (by dsimp only [reach]; decide +kernel)
  | lodeEnd y passed => exact framed_of_frameN (execLodeEnd_frame y passed s) (by dsimp only [reach]; decide +kernel)
  | jobStart a => exact framed_of_frameN (execJobStart_frame a s) (by dsimp only [reach]; decide +kernel)
  | jobDone a buf entry out =>
    exact framed_of_frameN (execJobDone_frame a buf entry out s) (by dsimp only [reach]; decide +kernel)
  | entryLink c => exact framed_of_frameN (execEntryLink_frame c s) (by dsimp only [reach]; decide +kernel)
  | prcFlush heads => exact framed_of_frameN (execPrcFlush_frame heads s) (by dsimp only [reach]; decide +kernel)
  | lingerExpiry v n => exact framed_of_frameN (execLingerExpiry_frame v n s) (by dsimp only [reach]; decide +kernel)
  | writeOperationIssue h => exact framed_of_frameN (execWriteOperationIssue_frame h s) (by dsimp only [reach]; decide +kernel)
  | prepAtPosition h => exact framed_of_frameN (execPrepAtPosition_frame h s) (by dsimp only [reach]; decide +kernel)
  | calibrationRevsEnd h => exact framed_of_frameN (execCalibrationRevsEnd_frame h s) (by dsimp only [reach]; decide +kernel)
  | writeRevolutionEnd h => exact framed_of_frameN (execWriteRevolutionEnd_frame h s) (by dsimp only [reach]; decide +kernel)
  | verifyRevolutionEnd h => exact framed_of_frameN (execVerifyRevolutionEnd_frame h s) (by dsimp only [reach]; decide +kernel)
  | resolve h => exact framed_of_frameN (execResolve_frame h s) (by dsimp only [reach]; decide +kernel)
  | wpRecovered v n => exact framed_of_frameN (execWpRecovered_frame v n s) (by dsimp only [reach]; decide +kernel)
  | verifyOnlyLoadDone x => exact framed_of_frameN (execVerifyOnlyLoadDone_frame x s) (by dsimp only [reach]; decide +kernel)
  | flrComplete fn => exact framed_of_frameN (execFlrComplete_frame fn s) (by dsimp only [reach]; decide +kernel)
  | configRequest fn r => exact framed_of_frameN (execConfigRequest_frame fn r s) (by dsimp only [reach]; decide +kernel)
  | linkUp speed width => exact framed_of_frameN (execLinkUp_frame speed width s) (by dsimp only [reach]; decide +kernel)
  | completionReceived tag bytes st =>
    exact framed_of_frameN (execCompletionReceived_frame tag bytes st s) (by dsimp only [reach]; decide +kernel)
  | cplTimeout tag => exact framed_of_frameN (execCplTimeout_frame tag s) (by dsimp only [reach]; decide +kernel)
  | peerRead off len x => exact framed_of_frameN (execPeerRead_frame off len x s) (by dsimp only [reach]; decide +kernel)
  | peerWrite off bytes x => exact framed_of_frameN (execPeerWrite_frame off bytes x s) (by dsimp only [reach]; decide +kernel)
  | windowCommit mask => exact framed_of_frameN (execWindowCommit_frame mask s) (by dsimp only [reach]; decide +kernel)
  | msixVectorUnmask fn v => exact framed_of_frameN (execMsixVectorUnmask_frame fn v s) (by dsimp only [reach]; decide +kernel)
  | badRegisterAccess fn read =>
    exact framed_of_frameN (execBadRegisterAccess_frame fn read s) (by dsimp only [reach]; decide +kernel)
  | queuePairEnable q => exact framed_of_frameN (execQueuePairEnable_frame q s) (by dsimp only [reach]; decide +kernel)
  | queuePairDisable q => exact framed_of_frameN (execQueuePairDisable_frame q s) (by dsimp only [reach]; decide +kernel)
  | sqTailDoorbell q w => exact framed_of_frameN (execSqTailDoorbell_frame q w s) (by dsimp only [reach]; decide +kernel)
  | cqHeadDoorbell q w => exact framed_of_frameN (execCqHeadDoorbell_frame q w s) (by dsimp only [reach]; decide +kernel)
  | completionPost q => exact framed_of_frameN (execCompletionPost_frame q s) (by dsimp only [reach]; decide +kernel)
  | coalTimeExpiry q => exact framed_of_frameN (execCoalTimeExpiry_frame q s) (by dsimp only [reach]; decide +kernel)
  | selfTestDone v => exact framed_of_frameN (execSelfTestDone_frame v s) (by dsimp only [reach]; decide +kernel)
  | configPiece sigOk => exact framed_of_frameN (execConfigPiece_frame sigOk s) (by dsimp only [reach]; decide +kernel)
  | volumeMountProceed v => exact framed_of_frameN (execVolumeMountProceed_frame v s) (by dsimp only [reach]; decide +kernel)
  | scrubDone last => exact framed_of_frameN (execScrubDone_frame last s) (by dsimp only [reach]; decide +kernel)
  | scrubLap ms => exact framed_of_frameN (execScrubLap_frame ms s) (by dsimp only [reach]; decide +kernel)
  | bucketLeak x => exact framed_of_frameN (execBucketLeak_frame x s) (by dsimp only [reach]; decide +kernel)
  | bucketReset x w => exact framed_of_frameN (execBucketReset_frame x w s) (by dsimp only [reach]; decide +kernel)
  | tableLowWrite a w => exact framed_of_frameN (execTableLowWrite_frame a w s) (by dsimp only [reach]; decide +kernel)
  | tableHighWrite a w => exact framed_of_frameN (execTableHighWrite_frame a w s) (by dsimp only [reach]; decide +kernel)
  | tableLowRead a => exact framed_of_frameN (execTableLowRead_frame a s) (by dsimp only [reach]; decide +kernel)
  | wayPowerDown w x => exact framed_of_frameN (execWayPowerDown_frame w x s) (by dsimp only [reach]; decide +kernel)
  | wayPowerUp w => exact framed_of_frameN (execWayPowerUp_frame w s) (by dsimp only [reach]; decide +kernel)
  | wayOff w x => exact framed_of_frameN (execWayOff_frame w x s) (by dsimp only [reach]; decide +kernel)
  | lcaClean place force x => exact framed_of_frameN (execLcaClean_frame place force x s) (by dsimp only [reach]; decide +kernel)
  | lcaInvalidate place force x =>
    exact framed_of_frameN (execLcaInvalidate_frame place force x s) (by dsimp only [reach]; decide +kernel)
  | lcaCleanInvalidate place force x =>
    exact framed_of_frameN (execLcaCleanInvalidate_frame place force x s) (by dsimp only [reach]; decide +kernel)
  | lcaPreload w x =>
    exact framed_of_frameX rfl ⟨_, rfl⟩ (by simp [Instr.mnemonic]) (execLcaPreload_frame w x s) (by dsimp only [reach]; decide +kernel)
  | svnCommit confirm => exact framed_of_frameN (execSvnCommit_frame confirm s) (by dsimp only [reach]; decide +kernel)
  | keyRevoke confirm slot => exact framed_of_frameN (execKeyRevoke_frame confirm slot s) (by dsimp only [reach]; decide +kernel)
  | fuseProgramDone bad => exact framed_of_frameN (execFuseProgramDone_frame bad s) (by dsimp only [reach]; decide +kernel)
  | imageLoadDone x => exact framed_of_frameN (execImageLoadDone_frame x s) (by dsimp only [reach]; decide +kernel)
  | bootRecordSign logOk => exact framed_of_frameN (execBootRecordSign_frame logOk s) (by dsimp only [reach]; decide +kernel)
  | pieceProgrammed ok => exact framed_of_frameN (execPieceProgrammed_frame ok s) (by dsimp only [reach]; decide +kernel)
  | stageVerifyDone im => exact framed_of_frameN (execStageVerifyDone_frame im s) (by dsimp only [reach]; decide +kernel)
  | stageCopyDone im => exact framed_of_frameN (execStageCopyDone_frame im s) (by dsimp only [reach]; decide +kernel)
  | armPrepared im => exact framed_of_frameN (execArmPrepared_frame im s) (by dsimp only [reach]; decide +kernel)
  | shiftCommitReceived e f =>
    exact framed_of_frameN (execShiftCommitReceived_frame e f s) (by dsimp only [reach]; decide +kernel)
  | shiftTablesCopied logOk =>
    exact framed_of_frameN (execShiftTablesCopied_frame logOk s) (by dsimp only [reach]; decide +kernel)
  | frameStartReceived x => exact framed_of_frameN (execFrameStartReceived_frame x s) (by dsimp only [reach]; decide +kernel)
  | claimReceived serial time =>
    exact framed_of_frameN (execClaimReceived_frame serial time s) (by dsimp only [reach]; decide +kernel)
  | frameReturned lap path err status =>
    exact framed_of_frameN (execFrameReturned_frame lap path err status s) (by dsimp only [reach]; decide +kernel)
  | shiftAbortReceived e => exact framed_of_frameN (execShiftAbortReceived_frame e s) (by dsimp only [reach]; decide +kernel)
  | pieceMessage m sigOk => exact framed_of_frameN (execPieceMessage_frame m sigOk s) (by dsimp only [reach]; decide +kernel)
  | mgmtMessage m => exact framed_of_frameN (execMgmtMessage_frame m s) (by dsimp only [reach]; decide +kernel)
  | unitResetMessage m x => exact framed_of_frameN (execUnitResetMessage_frame m x s) (by dsimp only [reach]; decide +kernel)
  | shiftReqMessage m => exact framed_of_frameN (execShiftReqMessage_frame m s) (by dsimp only [reach]; decide +kernel)
  | excludeMessage m => exact framed_of_frameN (execExcludeMessage_frame m s) (by dsimp only [reach]; decide +kernel)
  | msgSend w => exact framed_of_frameN (execMsgSend_frame w s) (by dsimp only [reach]; decide +kernel)
  | msgReturned m sigOk => exact framed_of_frameN (execMsgReturned_frame m sigOk s) (by dsimp only [reach]; decide +kernel)
  | shiftRequest w => exact framed_of_frameN (execShiftRequest_frame w s) (by dsimp only [reach]; decide +kernel)
  | excludeRequest w => exact framed_of_frameN (execExcludeRequest_frame w s) (by dsimp only [reach]; decide +kernel)
  | pornDeassert x => exact framed_of_frameN (execPornDeassert_frame x s) (by dsimp only [reach]; decide +kernel)
  | srstnDeassert x => exact framed_of_frameN (execSrstnDeassert_frame x s) (by dsimp only [reach]; decide +kernel)
  | railFault rail => exact framed_of_frameN (execRailFault_frame rail s) (by dsimp only [reach]; decide +kernel)
  | sysclkReturn x => exact framed_of_frameN (execSysclkReturn_frame x s) (by dsimp only [reach]; decide +kernel)
  | lrefLoss d => exact framed_of_frameN (execLrefLoss_frame d s) (by dsimp only [reach]; decide +kernel)
  | sensorSample temps x => exact framed_of_frameN (execSensorSample_frame temps x s) (by dsimp only [reach]; decide +kernel)
  | calUnit i1 u x => exact framed_of_frameN (execCalUnit_frame i1 u x s) (by dsimp only [reach]; decide +kernel)
  | evtClear a w => exact framed_of_frameN (execEvtClear_frame a w s) (by dsimp only [reach]; decide +kernel)
  | evtMaskWrite a w => exact framed_of_frameN (execEvtMaskWrite_frame a w s) (by dsimp only [reach]; decide +kernel)
  | evtForceWrite a w => exact framed_of_frameN (execEvtForceWrite_frame a w s) (by dsimp only [reach]; decide +kernel)
  | rcRead sp a => exact framed_of_frameN (execRcRead_frame sp a s) (by dsimp only [reach]; decide +kernel)
  | registerWrite sp a w x drvHigh =>
    exact framed_of_frameX rfl ⟨_, rfl⟩ (by simp [Instr.mnemonic]) (execRegisterWrite_frame sp a w x drvHigh s)
      (by dsimp only [reach]; decide +kernel)
  | lrefReturn d => exact framed_of_frameN (execLrefReturn_frame d s) (by dsimp only [reach]; decide +kernel)
  | railReturn rail => exact framed_of_frameN (execRailReturn_frame rail s) (by dsimp only [reach]; decide +kernel)
  | wayOn w => exact framed_of_frameN (execWayOn_frame w s) (by dsimp only [reach]; decide +kernel)
  | profileTick => exact framed_of_frameN (execProfileTick_frame s) (by dsimp only [reach]; decide +kernel)
  | speedTick => exact framed_of_frameN (execSpeedTick_frame s) (by dsimp only [reach]; decide +kernel)
  | holdover => exact framed_of_frameN (execHoldover_frame s) (by dsimp only [reach]; decide +kernel)
  | tckCountRead => exact framed_of_frameN (execTckCountRead_frame s) (by dsimp only [reach]; decide +kernel)
  | slotReserve => exact framed_of_frameN (execSlotReserve_frame s) (by dsimp only [reach]; decide +kernel)
  | prcDisable => exact framed_of_frameN (execPrcDisable_frame s) (by dsimp only [reach]; decide +kernel)
  | perstAssert => exact framed_of_frameN (execPerstAssert_frame s) (by dsimp only [reach]; decide +kernel)
  | perstDeassert => exact framed_of_frameN (execPerstDeassert_frame s) (by dsimp only [reach]; decide +kernel)
  | hotReset => exact framed_of_frameN (execHotReset_frame s) (by dsimp only [reach]; decide +kernel)
  | flrPf0 => exact framed_of_frameN (execFlrPf0_frame s) (by dsimp only [reach]; decide +kernel)
  | flrPf1 => exact framed_of_frameN (execFlrPf1_frame s) (by dsimp only [reach]; decide +kernel)
  | linkDown => exact framed_of_frameN (execLinkDown_frame s) (by dsimp only [reach]; decide +kernel)
  | decodeBoundary => exact framed_of_frameN (execDecodeBoundary_frame s) (by dsimp only [reach]; decide +kernel)
  | containmentForce => exact framed_of_frameN (execContainmentForce_frame s) (by dsimp only [reach]; decide +kernel)
  | containmentFrozen => exact framed_of_frameN (execContainmentFrozen_frame s) (by dsimp only [reach]; decide +kernel)
  | containmentRelease => exact framed_of_frameN (execContainmentRelease_frame s) (by dsimp only [reach]; decide +kernel)
  | pf0D3hot => exact framed_of_frameN (execPf0D3hot_frame s) (by dsimp only [reach]; decide +kernel)
  | controllerEnable => exact framed_of_frameN (execControllerEnable_frame s) (by dsimp only [reach]; decide +kernel)
  | controllerReset => exact framed_of_frameN (execControllerReset_frame s) (by dsimp only [reach]; decide +kernel)
  | arbitration => exact framed_of_frameN (execArbitration_frame s) (by dsimp only [reach]; decide +kernel)
  | read => exact framed_of_frameN (execRead_frame s) (by dsimp only [reach]; decide +kernel)
  | append => exact framed_of_frameN (execAppend_frame s) (by dsimp only [reach]; decide +kernel)
  | writeAt => exact framed_of_frameN (execWriteAt_frame s) (by dsimp only [reach]; decide +kernel)
  | flush => exact framed_of_frameN (execFlush_frame s) (by dsimp only [reach]; decide +kernel)
  | sealSeam => exact framed_of_frameN (execSealSeam_frame s) (by dsimp only [reach]; decide +kernel)
  | identify => exact framed_of_frameN (execIdentify_frame s) (by dsimp only [reach]; decide +kernel)
  | getLog => exact framed_of_frameN (execGetLog_frame s) (by dsimp only [reach]; decide +kernel)
  | setFeature => exact framed_of_frameN (execSetFeature_frame s) (by dsimp only [reach]; decide +kernel)
  | getFeature => exact framed_of_frameN (execGetFeature_frame s) (by dsimp only [reach]; decide +kernel)
  | abort => exact framed_of_frameN (execAbort_frame s) (by dsimp only [reach]; decide +kernel)
  | selfTestShort => exact framed_of_frameN (execSelfTestShort_frame s) (by dsimp only [reach]; decide +kernel)
  | selfTestExtended => exact framed_of_frameN (execSelfTestExtended_frame s) (by dsimp only [reach]; decide +kernel)
  | selfTestStop => exact framed_of_frameN (execSelfTestStop_frame s) (by dsimp only [reach]; decide +kernel)
  | configArm => exact framed_of_frameN (execConfigArm_frame s) (by dsimp only [reach]; decide +kernel)
  | attestRead => exact framed_of_frameN (execAttestRead_frame s) (by dsimp only [reach]; decide +kernel)
  | volumeMount => exact framed_of_frameN (execVolumeMount_frame s) (by dsimp only [reach]; decide +kernel)
  | volumeRelease => exact framed_of_frameN (execVolumeRelease_frame s) (by dsimp only [reach]; decide +kernel)
  | dramScrubGo => exact framed_of_frameN (execDramScrubGo_frame s) (by dsimp only [reach]; decide +kernel)
  | dramScrubStop => exact framed_of_frameN (execDramScrubStop_frame s) (by dsimp only [reach]; decide +kernel)
  | narrowWriteTimeout => exact framed_of_frameN (execNarrowWriteTimeout_frame s) (by dsimp only [reach]; decide +kernel)
  | testRawWrite =>
    exact framed_of_frameX rfl ⟨_, rfl⟩ (by simp [Instr.mnemonic]) (execTestRawWrite_frame s) (by dsimp only [reach]; decide +kernel)
  | testRawRead =>
    exact framed_of_frameX rfl ⟨_, rfl⟩ (by simp [Instr.mnemonic]) (execTestRawRead_frame s) (by dsimp only [reach]; decide +kernel)
  | testOpDone => exact framed_of_frameN (execTestOpDone_frame s) (by dsimp only [reach]; decide +kernel)
  | opDone => exact framed_of_frameN (execOpDone_frame s) (by dsimp only [reach]; decide +kernel)
  | stageAbandon => exact framed_of_frameN (execStageAbandon_frame s) (by dsimp only [reach]; decide +kernel)
  | shiftFrameBegin => exact framed_of_frameN (execShiftFrameBegin_frame s) (by dsimp only [reach]; decide +kernel)
  | shiftQuiescent => exact framed_of_frameN (execShiftQuiescent_frame s) (by dsimp only [reach]; decide +kernel)
  | shiftStayTimeout => exact framed_of_frameN (execShiftStayTimeout_frame s) (by dsimp only [reach]; decide +kernel)
  | ringEnable => exact framed_of_frameN (execRingEnable_frame s) (by dsimp only [reach]; decide +kernel)
  | ringDisable => exact framed_of_frameN (execRingDisable_frame s) (by dsimp only [reach]; decide +kernel)
  | ringElect => exact framed_of_frameN (execRingElect_frame s) (by dsimp only [reach]; decide +kernel)
  | loopLocked => exact framed_of_frameN (execLoopLocked_frame s) (by dsimp only [reach]; decide +kernel)
  | loopFail => exact framed_of_frameN (execLoopFail_frame s) (by dsimp only [reach]; decide +kernel)
  | frameSilence => exact framed_of_frameN (execFrameSilence_frame s) (by dsimp only [reach]; decide +kernel)
  | electionRestart => exact framed_of_frameN (execElectionRestart_frame s) (by dsimp only [reach]; decide +kernel)
  | ringOpen => exact framed_of_frameN (execRingOpen_frame s) (by dsimp only [reach]; decide +kernel)
  | collectExpiry => exact framed_of_frameN (execCollectExpiry_frame s) (by dsimp only [reach]; decide +kernel)
  | msgLost => exact framed_of_frameN (execMsgLost_frame s) (by dsimp only [reach]; decide +kernel)
  | rxBufferFree => exact framed_of_frameN (execRxBufferFree_frame s) (by dsimp only [reach]; decide +kernel)
  | ringTimeRead => exact framed_of_frameN (execRingTimeRead_frame s) (by dsimp only [reach]; decide +kernel)
  | pornAssert => exact framed_of_frameN (execPornAssert_frame s) (by dsimp only [reach]; decide +kernel)
  | srstnAssert => exact framed_of_frameN (execSrstnAssert_frame s) (by dsimp only [reach]; decide +kernel)
  | clkFault => exact framed_of_frameN (execClkFault_frame s) (by dsimp only [reach]; decide +kernel)
  | pcieRefLoss => exact framed_of_frameN (execPcieRefLoss_frame s) (by dsimp only [reach]; decide +kernel)
  | calForce => exact framed_of_frameN (execCalForce_frame s) (by dsimp only [reach]; decide +kernel)
  | calPeriodic => exact framed_of_frameN (execCalPeriodic_frame s) (by dsimp only [reach]; decide +kernel)
  | pf0D0 => exact framed_of_frameN (execPf0D0_frame s) (by dsimp only [reach]; decide +kernel)
  | hotResetReady => exact framed_of_frameN (execHotResetReady_frame s) (by dsimp only [reach]; decide +kernel)
  | pcieRefReturn => exact framed_of_frameN (execPcieRefReturn_frame s) (by dsimp only [reach]; decide +kernel)
  | ringInLockLoss => exact framed_of_frameN (execRingInLockLoss_frame s) (by dsimp only [reach]; decide +kernel)

/-! ### The canonical form -/

theorem exec_canonical {c : Instr} {s t : State} (hs : s.Canonical) (ht : exec c s = .next t) :
    t.Canonical ∧ t.pending = s.pending := by
  obtain ⟨_, hframe, -⟩ := (exec_framed c s).frame
  exact ⟨(hframe t ht).canonical hs, (hframe t ht).pending⟩

/-- Settles O4: an idle step changes nothing, and a command's frame keeps the canonical form and the queue behind it. -/
theorem everyStepKeepsCanonicalForm : Obligations.EveryStepKeepsCanonicalForm := by
  intro s t hs ht
  unfold step at ht
  split at ht
  next hidle =>
    cases ht
    exact ⟨hs, by rw [hidle, List.tail_nil]⟩
  next c rest hfront =>
    rw [hfront]
    exact exec_canonical (s := { s with pending := rest }) hs ht

/-! ### Outcomes -/

/-- Settles O2: a case of `exec_framed`. -/
theorem everyCommandCompletesOrNamesNoLine : Obligations.EveryCommandCompletesOrNamesNoLine :=
  fun c s => (exec_framed c s).completes

/-- Settles O1: on a queue with a front the step is that command on the rest, and on an empty one it is idle. -/
theorem stepTakesTheFront : Obligations.StepTakesTheFront := by
  refine fun s => ⟨fun c rest => rfl, fun hidle => ?_⟩
  unfold step
  rw [hidle]

/-- Settles O3: the five listed cells are the whole store, in order, so that a field of another number has no cell. -/
theorem resetIsCanonical : Obligations.ResetIsCanonical := by
  refine ⟨⟨by decide, by decide, by decide, by decide⟩, rfl, rfl, rfl, fun f i hf => ?_⟩
  refine regGet_absent _ f i fun c hc hcell => ?_
  have hlisted : ∀ c ∈ resetRegs,
      c.fld ∈ [F.CFG_KEYS_FUSED, F.PWR_STATUS_PCIE_REF, F.PWR_STATUS_SYSCLK, F.PWR_STATUS_LREF, F.PWR_STATUS_RAILS] := by
    decide
  exact hf c.fld (hlisted c hc) hcell.1

/-! ### Reach -/

/-- Whatever command it is, a next state differs from the state before only within the command's reach. -/
theorem exec_within_reach {c : Instr} {s t : State} (ht : exec c s = .next t) : (reach c).holds s t := by
  obtain ⟨m, hframe, hcovers⟩ := (exec_framed c s).frame
  obtain ⟨hmask, hregs⟩ := Bool.and_eq_true_iff.1 hcovers
  refine (hframe t ht).within hmask ?_
  simpa using hregs

/-- Settles O50 by `exec_within_reach`. -/
theorem systemRowsKeepTheRest : Obligations.SystemRowsKeepTheRest := fun _ _ _ _ => exec_within_reach

/-- Settles O51 by `exec_within_reach`. -/
theorem headRowsKeepTheRest : Obligations.HeadRowsKeepTheRest := fun _ _ _ _ => exec_within_reach

/-- Settles O52 by `exec_within_reach`. -/
theorem deckRowsKeepTheRest : Obligations.DeckRowsKeepTheRest := fun _ _ _ _ => exec_within_reach

/-- Settles O53 by `exec_within_reach`. -/
theorem linkAndChannelRowsKeepTheRest : Obligations.LinkAndChannelRowsKeepTheRest := fun _ _ _ _ => exec_within_reach

/-- Settles O54 by `exec_within_reach`. -/
theorem decodeAndWriteRowsKeepTheRest : Obligations.DecodeAndWriteRowsKeepTheRest := fun _ _ _ _ => exec_within_reach

/-- Settles O55 by `exec_within_reach`. -/
theorem endpointRowsKeepTheRest : Obligations.EndpointRowsKeepTheRest := fun _ _ _ _ => exec_within_reach

/-- Settles O56 by `exec_within_reach`. -/
theorem hostRowsKeepTheRest : Obligations.HostRowsKeepTheRest := fun _ _ _ _ => exec_within_reach

/-- Settles O57 by `exec_within_reach`. -/
theorem memoryRowsKeepTheRest : Obligations.MemoryRowsKeepTheRest := fun _ _ _ _ => exec_within_reach

/-- Settles O58 by `exec_within_reach`. -/
theorem configurationRowsKeepTheRest : Obligations.ConfigurationRowsKeepTheRest := fun _ _ _ _ => exec_within_reach

/-- Settles O59 by `exec_within_reach`. -/
theorem ringRowsKeepTheRest : Obligations.RingRowsKeepTheRest := fun _ _ _ _ => exec_within_reach

/-- Settles O60 by `exec_within_reach`. -/
theorem registerRowsKeepTheRest : Obligations.RegisterRowsKeepTheRest := fun _ _ _ _ => exec_within_reach

end Sys2Proof.Proofs
end

section
/-!
PROOFS. What the proofs of the rows share: a simp set that reads registers and parts after the operations of Machine/Ops.lean and
Machine/Flags.lean (its side goals are about closed field numbers and masks: `simp (disch := decide +kernel)`), reads across a
frame, and a command engine that has nothing to go on with.
-/
set_option Elab.async false

namespace Sys2Proof.Laws

open Sys2Proof.Machine

/-! ### Across a frame -/

/-- A register field that the mask does not name reads as before. -/
theorem Frame.getF {m : Nat} {s t : State} (h : Frame m s t) {f : Field} {i : Nat} (hl : f.id < 20000)
    (hm : m.testBit f.id = false) : t.getF f i = s.getF f i := h.reg f i hl hm

theorem Frame.isSet {m : Nat} {s t : State} (h : Frame m s t) {f : Field} {i : Nat} (hl : f.id < 20000)
    (hm : m.testBit f.id = false) : t.isSet f i = s.isSet f i := by
  unfold State.isSet
  rw [h.getF hl hm]

theorem Frame.bitF {m : Nat} {s t : State} (h : Frame m s t) {f : Field} {i b : Nat} (hl : f.id < 20000)
    (hm : m.testBit f.id = false) : t.bitF f i b = s.bitF f i b := by
  unfold State.bitF
  rw [h.getF hl hm]

/-- A part that the mask does not name is as before. -/
theorem unmasked {m k : Nat} {p : Prop} (h : m.testBit k = true ∨ p) (hm : m.testBit k = false) : p :=
  h.resolve_left (by rw [hm]; exact Bool.false_ne_true)

/-- A loop whose every turn lies in a frame. -/
theorem frame_forEach {m : Nat} {α : Type} {f : State → α → State} (h : ∀ t x, Frame m t (f t x)) (s : State) (l : List α) :
    Frame m s (s.forEach l f) :=
  (Frame.refl m s).forEach fun t x ht => (h t x).step ht (by simp [subMask])

theorem frame_if {m : Nat} {s t : State} (c : Prop) [Decidable c] (h : Frame m s t) : Frame m s (if c then t else s) :=
  Frame.ite h (Frame.refl m s)

/-! ### Elements of a vector of units -/

theorem vget_vset_same {α : Type} {n i : Nat} (v : Vector α n) (x d : α) (hi : i < n) : vget (vset v i x) d i = x := by
  simp [vget, vset, hi]

theorem vget_vset_other {α : Type} {n i j : Nat} (v : Vector α n) (x d : α) (h : i ≠ j) :
    vget (vset v i x) d j = vget v d j := by
  simp [vget, vset, Vector.getElem?_setIfInBounds_ne h]

/-! ### Loops of which one turn writes what is read -/

theorem forEach_keeps {α : Type} {P : State → Prop} {f : State → α → State} {l : List α} {s : State}
    (h : ∀ t, ∀ x ∈ l, P t → P (f t x)) (hs : P s) : P (s.forEach l f) :=
  List.foldlRecOn l f hs fun t ht x hx => h t x hx ht

theorem forEach_range_split {n a : Nat} (ha : a < n) (s : State) (f : State → Nat → State) :
    s.forEach (List.range n) f =
      (f (s.forEach (List.range a) f) a).forEach (List.range' (a + 1) (n - a - 1)) f := by
  have hn : n = a + (1 + (n - a - 1)) := by omega
  have hl : List.range n = List.range a ++ a :: List.range' (a + 1) (n - a - 1) := by
    rw [List.range_eq_range', List.range_eq_range', hn, ← List.range'_append_1, ← List.range'_append_1]
    simp
  rw [State.forEach, hl, List.foldl_append, List.foldl_cons]
  rfl

/-- The turns before keep what turn a needs, and the turns after leave what it wrote. -/
theorem forEach_range_reads {β : Type} {n a : Nat} (ha : a < n) {P : State → Prop} {read : State → β} {v : β} {s : State}
    {f : State → Nat → State} (hs : P s) (hbefore : ∀ t, ∀ x < a, P t → P (f t x)) (hself : ∀ t, P t → read (f t a) = v)
    (hafter : ∀ t, ∀ x < n, a < x → read (f t x) = read t) : read (s.forEach (List.range n) f) = v := by
  rw [forEach_range_split ha]
  refine forEach_keeps (P := fun t => read t = v) (fun t x hx ht => ?_) (hself _ ?_)
  · have hx' := List.mem_range'_1.1 hx
    rw [hafter t x (by omega) (by omega), ht]
  · exact forEach_keeps (fun t x hx => hbefore t x (List.mem_range.1 hx)) hs

/-! ### Reading a field after a write of another -/

theorem getF_ite (c : Prop) [Decidable c] (a b : State) (f : Field) (i : Nat) :
    (if c then a else b).getF f i = if c then a.getF f i else b.getF f i := apply_ite (fun t : State => t.getF f i) c a b

theorem isSet_ite (c : Prop) [Decidable c] (a b : State) (f : Field) (i : Nat) :
    (if c then a else b).isSet f i = if c then a.isSet f i else b.isSet f i := apply_ite (fun t : State => t.isSet f i) c a b

theorem bitF_ite (c : Prop) [Decidable c] (a b : State) (f : Field) (i k : Nat) :
    (if c then a else b).bitF f i k = if c then a.bitF f i k else b.bitF f i k :=
  apply_ite (fun t : State => t.bitF f i k) c a b

theorem getF_onlyIf (s : State) (c : Bool) (g : State → State) (f : Field) (i : Nat) :
    (s.onlyIf c g).getF f i = if c then (g s).getF f i else s.getF f i := getF_ite _ _ _ _ _

theorem isSet_onlyIf (s : State) (c : Bool) (g : State → State) (f : Field) (i : Nat) :
    (s.onlyIf c g).isSet f i = if c then (g s).isSet f i else s.isSet f i := isSet_ite _ _ _ _ _

theorem bitF_onlyIf (s : State) (c : Bool) (g : State → State) (f : Field) (i k : Nat) :
    (s.onlyIf c g).bitF f i k = if c then (g s).bitF f i k else s.bitF f i k := bitF_ite _ _ _ _ _ _

section
variable (s : State) {f g : Field} {i j : Nat}

@[simp] theorem getF_setF_other (v : Nat) (h : f.id ≠ g.id) : (s.setF f i v).getF g j = s.getF g j := getF_setF_fld s v h

@[simp] theorem getF_setB_other (b : Bool) (h : f.id ≠ g.id) : (s.setB f i b).getF g j = s.getF g j := getF_setB_fld s b h

@[simp] theorem getF_putF_other (b : Nat) (v : Bool) (h : f.id ≠ g.id) : (s.putF f i b v).getF g j = s.getF g j :=
  getF_putF_fld s v h

@[simp] theorem getF_addSat_other (n : Nat) (h : f.id ≠ g.id) : (s.addSat f i n).getF g j = s.getF g j := getF_setF_fld s _ h

@[simp] theorem getF_count_other (h : f.id ≠ g.id) : (s.count f i).getF g j = s.getF g j := getF_count_fld s h

@[simp] theorem getF_keepMax_other (v : Nat) (h : f.id ≠ g.id) : (s.keepMax f i v).getF g j = s.getF g j := getF_setF_fld s _ h

@[simp] theorem getF_raise_other (e : Event) (h : e.fld.id ≠ g.id) (k : e.reg.forced.id ≠ g.id) :
    (s.raise e i).getF g j = s.getF g j := getF_raise_ne s e h k

@[simp] theorem isSet_setF_other (v : Nat) (h : f.id ≠ g.id) : (s.setF f i v).isSet g j = s.isSet g j := by
  rw [State.isSet, getF_setF_other s v h, State.isSet]

@[simp] theorem isSet_setB_other (b : Bool) (h : f.id ≠ g.id) : (s.setB f i b).isSet g j = s.isSet g j :=
  isSet_setF_other s _ h

@[simp] theorem isSet_putF_other (b : Nat) (v : Bool) (h : f.id ≠ g.id) : (s.putF f i b v).isSet g j = s.isSet g j :=
  isSet_setF_other s _ h

@[simp] theorem isSet_addSat_other (n : Nat) (h : f.id ≠ g.id) : (s.addSat f i n).isSet g j = s.isSet g j :=
  isSet_setF_other s _ h

@[simp] theorem isSet_count_other (h : f.id ≠ g.id) : (s.count f i).isSet g j = s.isSet g j := isSet_setF_other s _ h

@[simp] theorem isSet_keepMax_other (v : Nat) (h : f.id ≠ g.id) : (s.keepMax f i v).isSet g j = s.isSet g j :=
  isSet_setF_other s _ h

@[simp] theorem isSet_raise_other (e : Event) (h : e.fld.id ≠ g.id) (k : e.reg.forced.id ≠ g.id) :
    (s.raise e i).isSet g j = s.isSet g j := by
  rw [State.isSet, getF_raise_other s e h k, State.isSet]

@[simp] theorem bitF_setF_other (v b : Nat) (h : f.id ≠ g.id) : (s.setF f i v).bitF g j b = s.bitF g j b := by
  rw [State.bitF, getF_setF_other s v h, State.bitF]

@[simp] theorem bitF_setB_other (v : Bool) (b : Nat) (h : f.id ≠ g.id) : (s.setB f i v).bitF g j b = s.bitF g j b :=
  bitF_setF_other s _ b h

@[simp] theorem bitF_putF_other (v : Bool) (c b : Nat) (h : f.id ≠ g.id) : (s.putF f i c v).bitF g j b = s.bitF g j b :=
  bitF_setF_other s _ b h

@[simp] theorem bitF_count_other (b : Nat) (h : f.id ≠ g.id) : (s.count f i).bitF g j b = s.bitF g j b :=
  bitF_setF_other s _ b h

@[simp] theorem bitF_raise_other (e : Event) (b : Nat) (h : e.fld.id ≠ g.id) (k : e.reg.forced.id ≠ g.id) :
    (s.raise e i).bitF g j b = s.bitF g j b := by
  rw [State.bitF, getF_raise_other s e h k, State.bitF]

end

/-! ### Reading at another index -/

section
variable (s : State) {f g : Field} {i j : Nat}

theorem getF_setF_inst (v : Nat) (h : i ≠ j) : (s.setF f i v).getF g j = s.getF g j := getF_setF_ne s v fun e => h e.2

theorem getF_setB_inst (b : Bool) (h : i ≠ j) : (s.setB f i b).getF g j = s.getF g j := getF_setF_inst s _ h

theorem getF_putF_inst (b : Nat) (v : Bool) (h : i ≠ j) : (s.putF f i b v).getF g j = s.getF g j := getF_setF_inst s _ h

theorem getF_count_inst (h : i ≠ j) : (s.count f i).getF g j = s.getF g j := getF_setF_inst s _ h

theorem getF_raise_inst (e : Event) (h : i ≠ j) : (s.raise e i).getF g j = s.getF g j := by
  rw [State.raise, getF_putF_inst _ _ _ h, getF_setB_inst _ _ h]

end

/-! ### Reading what was written -/

section
variable (s : State) (f : Field) (i : Nat)

@[simp] theorem isSet_setF (v : Nat) : (s.setF f i v).isSet f i = (v % 2 ^ f.width != 0) := by
  rw [State.isSet, getF_setF]

@[simp] theorem isSet_setB_same (b : Bool) (hw : 1 ≤ f.width) : (s.setB f i b).isSet f i = b := isSet_setB s f i b hw

@[simp] theorem getF_setB_same (b : Bool) (hw : 1 ≤ f.width) : (s.setB f i b).getF f i = b.toNat := getF_setB s f i b hw

@[simp] theorem getF_count_same : (s.count f i).getF f i = min (s.getF f i + 1) (2 ^ f.width - 1) := getF_count s f i

theorem getF_addSat (n : Nat) : (s.addSat f i n).getF f i = min (s.getF f i + n) (2 ^ f.width - 1) := by
  have hpos := Nat.two_pow_pos f.width
  rw [State.addSat, getF_setF, Nat.mod_eq_of_lt (by omega)]

theorem getF_keepMax (v : Nat) : (s.keepMax f i v).getF f i = min (max (s.getF f i) v) (2 ^ f.width - 1) := by
  have hpos := Nat.two_pow_pos f.width
  rw [State.keepMax, getF_setF, Nat.mod_eq_of_lt (by omega)]

theorem testBit_putBit (n b : Nat) (v : Bool) (c : Nat) : (putBit n b v).testBit c = if c = b then v else n.testBit c := by
  unfold putBit
  by_cases hcb : c = b
  · rw [if_pos hcb, hcb]
    split
    next hkeeps => exact hkeeps
    next hflips => cases v <;> simpa using hflips
  · rw [if_neg hcb]
    split
    · rfl
    · simp [Ne.symm hcb]

/-- A bit of a field within its width is the one put there, and the others stay. -/
theorem bitF_putF (b : Nat) (v : Bool) (c : Nat) (hc : c < f.width) :
    (s.putF f i b v).bitF f i c = if c = b then v else s.bitF f i c := by
  rw [State.bitF, State.putF, getF_setF, Nat.testBit_mod_two_pow, testBit_putBit]
  simp [hc, State.bitF]

@[simp] theorem bitF_putF_same (b : Nat) (v : Bool) (hb : b < f.width) : (s.putF f i b v).bitF f i b = v := by
  rw [bitF_putF s f i b v b hb, if_pos rfl]

/-- A raised event is set, by whichever name its field goes. -/
@[simp] theorem isSet_raise_same (e : Event) {g : Field} (hg : e.fld = g) (hw : 1 ≤ g.width) (hn : e.reg.forced.id ≠ g.id) :
    (s.raise e i).isSet g i = true := by
  subst hg
  exact isSet_raise s e i hw hn

end

/-- The overrun marks of the heads, one bit for each. -/
theorem bitF_raiseTckHead (s : State) (e : Event) {h : Nat} (hh : h < 32) :
    (s.raiseTckHead e h).bitF F.TCK_OVR_HEADS_HEAD 0 h = true := bitF_putF_same _ F.TCK_OVR_HEADS_HEAD 0 h true hh

@[simp] theorem emit_isSet (s : State) (o : Output) (f : Field) (i : Nat) : (s.emit o).isSet f i = s.isSet f i := rfl
@[simp] theorem bump_isSet (s : State) (f : Field) (i : Nat) : s.bump.isSet f i = s.isSet f i := rfl
@[simp] theorem emit_bitF (s : State) (o : Output) (f : Field) (i b : Nat) : (s.emit o).bitF f i b = s.bitF f i b := rfl
@[simp] theorem bump_bitF (s : State) (f : Field) (i b : Nat) : s.bump.bitF f i b = s.bitF f i b := rfl

/-! ### Heads -/

section
variable (s : State) {g h : Nat}

theorem head_setHead_same (x : HeadS) (hh : h < 32) : (s.setHead h x).head h = x := vget_vset_same _ _ _ hh

theorem head_setHead_other (x : HeadS) (hne : g ≠ h) : (s.setHead g x).head h = s.head h := vget_vset_other _ _ _ hne

theorem head_updSld_other (f : SldS → SldS) (hne : g ≠ h) : (s.updSld g f).head h = s.head h := head_setHead_other s _ hne

theorem head_updClr_other (f : ClrS → ClrS) (hne : g ≠ h) : (s.updClr g f).head h = s.head h := head_setHead_other s _ hne

theorem head_updSld_same (f : SldS → SldS) (hh : h < 32) : (s.updSld h f).head h = { s.head h with sld := f (s.sld h) } :=
  head_setHead_same s _ hh

theorem head_updClr_same (f : ClrS → ClrS) (hh : h < 32) : (s.updClr h f).head h = { s.head h with clr := f (s.cl h) } :=
  head_setHead_same s _ hh

theorem head_ite (c : Prop) [Decidable c] (a b : State) (h : Nat) :
    (if c then a else b).head h = if c then a.head h else b.head h := apply_ite (fun t : State => t.head h) c a b

@[simp] theorem head_setF (f : Field) (i v : Nat) : (s.setF f i v).head h = s.head h := rfl

@[simp] theorem head_count (f : Field) (i : Nat) : (s.count f i).head h = s.head h := rfl

theorem head_raiseSld (e : Event) (i : Nat) : (s.raiseSld e i).head h = s.head h := rfl

end

/-! ### The state that a meaning starts from -/

section
variable (s : State)

@[simp] theorem fresh_regs : (fresh s).regs = s.regs := rfl
@[simp] theorem fresh_tick : (fresh s).tick = s.tick := rfl
@[simp] theorem fresh_tck : (fresh s).tck = s.tck := rfl
@[simp] theorem fresh_hif : (fresh s).hif = s.hif := rfl
@[simp] theorem fresh_hqi : (fresh s).hqi = s.hqi := rfl
@[simp] theorem fresh_vols : (fresh s).vols = s.vols := rfl
@[simp] theorem fresh_asy : (fresh s).asy = s.asy := rfl
@[simp] theorem fresh_heads : (fresh s).heads = s.heads := rfl
@[simp] theorem fresh_decks : (fresh s).decks = s.decks := rfl
@[simp] theorem fresh_chans : (fresh s).chans = s.chans := rfl
@[simp] theorem fresh_lanes : (fresh s).lanes = s.lanes := rfl
@[simp] theorem fresh_mem : (fresh s).mem = s.mem := rfl
@[simp] theorem fresh_cfg : (fresh s).cfg = s.cfg := rfl
@[simp] theorem fresh_trl : (fresh s).trl = s.trl := rfl
@[simp] theorem fresh_cal : (fresh s).cal = s.cal := rfl
@[simp] theorem fresh_pwr : (fresh s).pwr = s.pwr := rfl
@[simp] theorem fresh_free : (fresh s).free = s.free := rfl
@[simp] theorem fresh_getF (f : Field) (i : Nat) : (fresh s).getF f i = s.getF f i := rfl
@[simp] theorem fresh_isSet (f : Field) (i : Nat) : (fresh s).isSet f i = s.isSet f i := rfl
@[simp] theorem fresh_bitF (f : Field) (i b : Nat) : (fresh s).bitF f i b = s.bitF f i b := rfl

end

/-! ### A low word that is flushed, and the command engine that goes on -/

section
variable (s : State) {f : Field} {i b : Nat}

@[simp] theorem getF_flushAsm (hl : f.id < 20000) (hm : W.flushAsm.testBit f.id = false) : s.flushAsm.getF f i = s.getF f i :=
  (flushAsm_frame s).getF hl hm

@[simp] theorem isSet_flushAsm (hl : f.id < 20000) (hm : W.flushAsm.testBit f.id = false) : s.flushAsm.isSet f i = s.isSet f i :=
  (flushAsm_frame s).isSet hl hm

@[simp] theorem bitF_flushAsm (hl : f.id < 20000) (hm : W.flushAsm.testBit f.id = false) :
    s.flushAsm.bitF f i b = s.bitF f i b := (flushAsm_frame s).bitF hl hm

@[simp] theorem getF_advance (hl : f.id < 20000) (hm : W.advance.testBit f.id = false) : s.advance.getF f i = s.getF f i :=
  (advance_frame s).getF hl hm

@[simp] theorem isSet_advance (hl : f.id < 20000) (hm : W.advance.testBit f.id = false) : s.advance.isSet f i = s.isSet f i :=
  (advance_frame s).isSet hl hm

@[simp] theorem bitF_advance (hl : f.id < 20000) (hm : W.advance.testBit f.id = false) : s.advance.bitF f i b = s.bitF f i b :=
  (advance_frame s).bitF hl hm

end

section
variable (s : State)

@[simp] theorem flushAsm_tick : s.flushAsm.tick = s.tick := unmasked (flushAsm_frame s).tick (by decide +kernel)
@[simp] theorem flushAsm_tck : s.flushAsm.tck = s.tck := unmasked (flushAsm_frame s).tck (by decide +kernel)
@[simp] theorem flushAsm_hqi : s.flushAsm.hqi = s.hqi := unmasked (flushAsm_frame s).hqi (by decide +kernel)
@[simp] theorem flushAsm_vols : s.flushAsm.vols = s.vols := unmasked (flushAsm_frame s).vols (by decide +kernel)
@[simp] theorem flushAsm_asy : s.flushAsm.asy = s.asy := unmasked (flushAsm_frame s).asy (by decide +kernel)
@[simp] theorem flushAsm_heads : s.flushAsm.heads = s.heads := unmasked (flushAsm_frame s).heads (by decide +kernel)
@[simp] theorem flushAsm_decks : s.flushAsm.decks = s.decks := unmasked (flushAsm_frame s).decks (by decide +kernel)
@[simp] theorem flushAsm_chans : s.flushAsm.chans = s.chans := unmasked (flushAsm_frame s).chans (by decide +kernel)
@[simp] theorem flushAsm_lanes : s.flushAsm.lanes = s.lanes := unmasked (flushAsm_frame s).lanes (by decide +kernel)
@[simp] theorem flushAsm_cfg : s.flushAsm.cfg = s.cfg := unmasked (flushAsm_frame s).cfg (by decide +kernel)
@[simp] theorem flushAsm_trl : s.flushAsm.trl = s.trl := unmasked (flushAsm_frame s).trl (by decide +kernel)
@[simp] theorem flushAsm_cal : s.flushAsm.cal = s.cal := unmasked (flushAsm_frame s).cal (by decide +kernel)
@[simp] theorem flushAsm_pwr : s.flushAsm.pwr = s.pwr := unmasked (flushAsm_frame s).pwr (by decide +kernel)
@[simp] theorem flushAsm_free : s.flushAsm.free = s.free := unmasked (flushAsm_frame s).free (by decide +kernel)
@[simp] theorem flushAsm_out : s.flushAsm.out = s.out := unmasked (flushAsm_frame s).out (by decide +kernel)

@[simp] theorem advance_tick : s.advance.tick = s.tick := unmasked (advance_frame s).tick (by decide +kernel)
@[simp] theorem advance_tck : s.advance.tck = s.tck := unmasked (advance_frame s).tck (by decide +kernel)
@[simp] theorem advance_chans : s.advance.chans = s.chans := unmasked (advance_frame s).chans (by decide +kernel)
@[simp] theorem advance_lanes : s.advance.lanes = s.lanes := unmasked (advance_frame s).lanes (by decide +kernel)
@[simp] theorem advance_mem : s.advance.mem = s.mem := unmasked (advance_frame s).mem (by decide +kernel)
@[simp] theorem advance_cfg : s.advance.cfg = s.cfg := unmasked (advance_frame s).cfg (by decide +kernel)
@[simp] theorem advance_trl : s.advance.trl = s.trl := unmasked (advance_frame s).trl (by decide +kernel)
@[simp] theorem advance_cal : s.advance.cal = s.cal := unmasked (advance_frame s).cal (by decide +kernel)
@[simp] theorem advance_pwr : s.advance.pwr = s.pwr := unmasked (advance_frame s).pwr (by decide +kernel)

/-- Flushing takes the held low word away; nothing else of the memories changes. -/
@[simp] theorem flushAsm_mem : s.flushAsm.mem = { s.mem with asm := none } := by
  unfold State.flushAsm
  split
  next hnone => rw [← hnone]
  next p hheld => exact unmasked (narrow_frame _ p.1).mem (by decide +kernel)

theorem flushAsm_of_none (h : s.mem.asm = none) : s.flushAsm = s := by
  unfold State.flushAsm
  rw [h]

/-! ### A command engine with nothing to go on with -/

theorem advCmd_of_settled {c : Cmd} (hc : c.settled) (hrun : c.stage = .running) : s.advCmd c = s := by
  obtain hdone | ⟨hflush, hrelease, hwait⟩ := hc
  · exact absurd hrun hdone
  unfold State.advCmd
  rw [if_neg hflush, if_neg hrelease]
  obtain hwait | hseam := hwait
  · rw [hwait]
  · rw [hseam]
    cases c.waiting <;> rfl

theorem advMount_of_waiting {v : Nat} (h : ∀ m, (s.vol v).mount = some m → m.waiting = true) : s.advMount v = s := by
  unfold State.advMount
  split
  · rfl
  next m hm => simp [h m hm]

theorem advTest_of_none {v : Nat} (h : (s.test v).running = none) : s.advTest v = s := by
  unfold State.advTest
  simp only [h]

variable {s}

theorem forEach_eq_self {α : Type} {l : List α} {f : State → α → State} (h : ∀ x ∈ l, f s x = s) : s.forEach l f = s := by
  unfold State.forEach
  induction l with
  | nil => rfl
  | cons x l ih =>
    rw [List.foldl_cons, h x List.mem_cons_self]
    exact ih fun y hy => h y (List.mem_cons_of_mem x hy)

/-- Where every command is settled, no test runs and every mount waits, the engine does nothing. -/
theorem advance_of_quiet (h : s.HostQuiet) : s.advance = s := by
  obtain ⟨hcmds, htests, hmounts⟩ := h
  have hrest : (s.forEach (List.range 8) fun t v => (t.advMount v).advTest v) = s := by
    refine forEach_eq_self fun v hv => ?_
    have hv8 := List.mem_range.1 hv
    rw [advMount_of_waiting s (hmounts v hv8), advTest_of_none s (htests v hv8)]
  unfold State.advance
  split
  · rfl
  · dsimp only
    refine Eq.trans (congrArg (fun u : State => u.forEach (List.range 8) fun t v => (t.advMount v).advTest v)
      (forEach_eq_self fun pos _ => ?_)) hrest
    split
    next c hfound =>
      split
      next hstage => exact advCmd_of_settled s (hcmds c (List.mem_of_find?_eq_some hfound)) hstage
      · rfl
    · rfl

/-- Quiet is a matter of the engine's commands and tests, and of the volumes' mounts. -/
theorem hostQuiet_congr {t : State} (h : s.HostQuiet) (hcmds : t.hqi.cmds = s.hqi.cmds) (htests : t.hqi.tests = s.hqi.tests)
    (hmounts : ∀ v, (t.vol v).mount = (s.vol v).mount) : t.HostQuiet := by
  obtain ⟨hsettled, hnone, hwait⟩ := h
  refine ⟨?_, fun v hv => ?_, fun v hv m hm => ?_⟩
  · rw [hcmds]
    exact hsettled
  · rw [State.test, htests]
    exact hnone v hv
  · rw [hmounts] at hm
    exact hwait v hv m hm

theorem hostQuiet_of_parts {t : State} (h : s.HostQuiet) (hhqi : t.hqi = s.hqi) (hvols : t.vols = s.vols) : t.HostQuiet :=
  hostQuiet_congr h (by rw [hhqi]) (by rw [hhqi]) fun v => by rw [State.vol, State.vol, hvols]

/-- A row with which the command engine has nothing to go on ends with its own effect. -/
theorem doneQ_quiet (hheld : s.pwr.held = []) {f : State → State} (hq : (f (fresh s)).HostQuiet) :
    ∃ t, doneQ s f = .next t ∧ Same (f (fresh s)) t := by
  obtain ⟨t, ht, same⟩ := doneQ_next hheld f
  rw [advance_of_quiet hq] at same
  exact ⟨t, ht, same⟩

theorem doneQW_quiet (hserved : s.pf1Served = true) {f : State → State} (hq : (f (fresh s).flushAsm).HostQuiet) :
    ∃ t, doneQW s f = .next t ∧ Same (f (fresh s).flushAsm) t := by
  obtain ⟨t, ht, same⟩ := doneQW_next hserved f
  rw [advance_of_quiet hq] at same
  exact ⟨t, ht, same⟩

/-- A function whose memory space is served is held in no reset. -/
theorem held_of_served {fn : Nat} (h : s.served fn = true) : s.pwr.held = [] := by
  unfold State.served at h
  simp only [Bool.and_eq_true, List.isEmpty_iff] at h
  exact h.2

end

/-- What a field reads before it is taken as a number of at most n bits. -/
theorem bitsOf_lt (w hi lo : Nat) : bitsOf w hi lo < 2 ^ (hi - lo + 1) := Nat.mod_lt _ (Nat.two_pow_pos _)

end Sys2Proof.Laws
end

section
/-!
PROOFS. The TCK registers and the tick rows (02), and the leaky buckets of corrected errors (R349).
-/
set_option Elab.async false

namespace Sys2Proof.Proofs

open Sys2Proof.Machine Sys2Proof.Laws

/-! ### The leaky bucket -/

theorem level_count_total (s : State) (x : Nat) :
    (s.count F.MEM_CE_TOTAL_COUNT x).getF F.MEM_CE_STATUS_LEVEL x = s.getF F.MEM_CE_STATUS_LEVEL x ∧
      (s.count F.MEM_CE_TOTAL_COUNT x).getF F.MEM_CE_CTL_DEPTH x = s.getF F.MEM_CE_CTL_DEPTH x := by
  simp (disch := decide +kernel)

/-- An error that the bucket's depth still holds. -/
theorem correctedErr_of_held {s : State} {x : Nat}
    (h : s.getF F.MEM_CE_STATUS_LEVEL x + 1 ≤ max 1 (s.getF F.MEM_CE_CTL_DEPTH x)) :
    s.correctedErr x =
      (s.count F.MEM_CE_TOTAL_COUNT x).setF F.MEM_CE_STATUS_LEVEL x (s.getF F.MEM_CE_STATUS_LEVEL x + 1) := by
  obtain ⟨hlevel, hdepth⟩ := level_count_total s x
  unfold State.correctedErr
  dsimp only
  rw [hlevel, hdepth]
  exact if_neg (by omega)

/-- An error that overflows the bucket. -/
theorem correctedErr_of_full {s : State} {x : Nat}
    (h : max 1 (s.getF F.MEM_CE_CTL_DEPTH x) < s.getF F.MEM_CE_STATUS_LEVEL x + 1) :
    s.correctedErr x = (((s.count F.MEM_CE_TOTAL_COUNT x).setF F.MEM_CE_STATUS_LEVEL x 0).count
      F.MEM_CE_STATUS_OVERFLOWS x).raise E.MEM_CE_OVERFLOW 0 := by
  obtain ⟨hlevel, hdepth⟩ := level_count_total s x
  unfold State.correctedErr
  dsimp only
  rw [hlevel, hdepth]
  exact if_pos h

/-- Settles O9: the level is compared with the depth after the total has counted. -/
theorem leakyBuckets : Obligations.LeakyBuckets := by
  intro s x
  refine ⟨fun hheld hwidth => ?_, fun hfull => ?_, ?_⟩
  · rw [correctedErr_of_held hheld]
    refine ⟨?_, ?_, rfl⟩
    · rw [getF_setF, Nat.mod_eq_of_lt (show _ < 2 ^ F.MEM_CE_STATUS_LEVEL.width from hwidth)]
    · simp (disch := decide +kernel)
  · rw [correctedErr_of_full hfull]
    simp (disch := decide +kernel)
  · obtain hheld | hfull := le_or_gt (s.getF F.MEM_CE_STATUS_LEVEL x + 1) (max 1 (s.getF F.MEM_CE_CTL_DEPTH x))
    · rw [correctedErr_of_held hheld]
      simp (disch := decide +kernel)
      rfl
    · rw [correctedErr_of_full hfull]
      simp (disch := decide +kernel)
      rfl

/-! ### TCK_CTL -/

/-- STEP_LIM as the register clamps it. -/
def clampedLim (w : BitVec 32) : Nat := min 3125 (max 8 (bitsOf w.toNat 31 16))

/-- The discipline is on and STEP_LIM or SLEW would change. -/
theorem writeTckCtl_of_locked {s : State} {w : BitVec 32} (hen : s.isSet F.TCK_CTL_DISC_EN 0 = true)
    (hother : clampedLim w ≠ s.getF F.TCK_CTL_STEP_LIM 0 ∨ bitsOf w.toNat 5 4 ≠ s.getF F.TCK_CTL_SLEW 0) :
    s.writeTckCtl w.toNat = s.raise E.TCK_CFG_REJECT 0 := by
  unfold State.writeTckCtl
  refine if_pos ?_
  simpa [hen, clampedLim] using hother

/-- The fields of TCK_CTL as a word gives them. -/
def tckCtlFields (s : State) (w : BitVec 32) : State :=
  (((s.setF F.TCK_CTL_STEP_LIM 0 (clampedLim w)).setF F.TCK_CTL_SLEW 0 (bitsOf w.toNat 5 4)).setF F.TCK_CTL_STEP_OK 0
    (bitsOf w.toNat 1 1)).setF F.TCK_CTL_DISC_EN 0 (bitsOf w.toNat 0 0)

theorem writeTckCtl_of_free {s : State} {w : BitVec 32}
    (h : s.isSet F.TCK_CTL_DISC_EN 0 = false ∨
      clampedLim w = s.getF F.TCK_CTL_STEP_LIM 0 ∧ bitsOf w.toNat 5 4 = s.getF F.TCK_CTL_SLEW 0) :
    s.writeTckCtl w.toNat = (tckCtlFields s w).discFollow (s.isSet F.TCK_CTL_DISC_EN 0) := by
  unfold State.writeTckCtl
  refine if_neg ?_
  simpa [clampedLim, imp_iff_not_or] using h

/-- Following DISC_EN writes no field of TCK_CTL. -/
theorem tckCtl_discFollow (s : State) (b : Bool) {f : Field}
    (hf : f ∈ [F.TCK_CTL_STEP_LIM, F.TCK_CTL_SLEW, F.TCK_CTL_STEP_OK, F.TCK_CTL_DISC_EN]) :
    (s.discFollow b).getF f 0 = s.getF f 0 := by
  have hmask : ∀ f ∈ [F.TCK_CTL_STEP_LIM, F.TCK_CTL_SLEW, F.TCK_CTL_STEP_OK, F.TCK_CTL_DISC_EN],
      f.id < 20000 ∧ W.discFollow.testBit f.id = false := by
    decide +kernel
  exact (discFollow_frame s b).getF (hmask f hf).1 (hmask f hf).2

theorem clampedLim_lt (w : BitVec 32) : clampedLim w < 2 ^ F.TCK_CTL_STEP_LIM.width := by
  show min 3125 _ < 2 ^ 16
  omega

/-- What an accepted write leaves in TCK_CTL. -/
theorem tckCtl_of_free (s : State) (w : BitVec 32) (b : Bool) :
    ((tckCtlFields s w).discFollow b).getF F.TCK_CTL_STEP_LIM 0 = clampedLim w ∧
    ((tckCtlFields s w).discFollow b).getF F.TCK_CTL_SLEW 0 = bitsOf w.toNat 5 4 ∧
    ((tckCtlFields s w).discFollow b).isSet F.TCK_CTL_DISC_EN 0 = decide (bitsOf w.toNat 0 0 = 1) := by
  refine ⟨?_, ?_, ?_⟩
  · rw [tckCtl_discFollow _ _ (by decide)]
    simp (disch := decide +kernel) [tckCtlFields, Nat.mod_eq_of_lt (clampedLim_lt w)]
  · rw [tckCtl_discFollow _ _ (by decide)]
    simp (disch := decide +kernel) [tckCtlFields]
    exact Nat.mod_eq_of_lt (bitsOf_lt _ 5 4)
  · rw [State.isSet, tckCtl_discFollow _ _ (by decide)]
    have hbit : bitsOf w.toNat 0 0 < 2 := bitsOf_lt _ 0 0
    rw [tckCtlFields, getF_setF, Nat.mod_eq_of_lt (show _ < 2 ^ F.TCK_CTL_DISC_EN.width from hbit)]
    interval_cases bitsOf w.toNat 0 0 <;> rfl

theorem tckCtlWrite_next {s : State} (hserved : s.pf1Served = true) (w : BitVec 32) :
    ∃ t, exec (.tckCtlWrite w) s = .next t ∧ Same ((fresh s).flushAsm.writeTckCtl w.toNat) t :=
  doneW_next hserved fun t => t.writeTckCtl w.toNat

theorem tckCtlWrite_of_locked {s : State} {w : BitVec 32} (hserved : s.pf1Served = true)
    (hen : s.isSet F.TCK_CTL_DISC_EN 0 = true)
    (hother : clampedLim w ≠ s.getF F.TCK_CTL_STEP_LIM 0 ∨ bitsOf w.toNat 5 4 ≠ s.getF F.TCK_CTL_SLEW 0) :
    ∃ t, exec (.tckCtlWrite w) s = .next t ∧ t.isSet F.TCK_EVT_CFG_REJECT 0 = true ∧
      ∀ f ∈ [F.TCK_CTL_STEP_LIM, F.TCK_CTL_SLEW, F.TCK_CTL_STEP_OK, F.TCK_CTL_DISC_EN], t.getF f 0 = s.getF f 0 := by
  obtain ⟨t, ht, same⟩ := tckCtlWrite_next hserved w
  rw [writeTckCtl_of_locked (by simpa (disch := decide +kernel) using hen) (by simpa (disch := decide +kernel) using hother)] at same
  refine ⟨t, ht, ?_, ?_⟩
  · rw [same.isSet]
    simp (disch := decide +kernel)
  · simp (disch := decide +kernel) [same.getF]

theorem tckCtlWrite_of_free {s : State} {w : BitVec 32} (hserved : s.pf1Served = true)
    (h : s.isSet F.TCK_CTL_DISC_EN 0 = false ∨
      clampedLim w = s.getF F.TCK_CTL_STEP_LIM 0 ∧ bitsOf w.toNat 5 4 = s.getF F.TCK_CTL_SLEW 0) :
    ∃ t, exec (.tckCtlWrite w) s = .next t ∧ t.getF F.TCK_CTL_STEP_LIM 0 = clampedLim w ∧
      t.getF F.TCK_CTL_SLEW 0 = bitsOf w.toNat 5 4 ∧ t.isSet F.TCK_CTL_DISC_EN 0 = decide (bitsOf w.toNat 0 0 = 1) := by
  obtain ⟨t, ht, same⟩ := tckCtlWrite_next hserved w
  rw [writeTckCtl_of_free (by simpa (disch := decide +kernel) using h)] at same
  refine ⟨t, ht, ?_⟩
  rw [same.getF, same.getF, same.isSet]
  exact tckCtl_of_free _ w _

/-- Settles O8: the comparison of the values as clamped decides between a rejection and a write. -/
theorem disciplinedTckCtl : Obligations.DisciplinedTckCtl := by
  intro s w hserved hen
  refine ⟨tckCtlWrite_of_locked hserved hen, fun hlim hslew => ?_⟩
  obtain ⟨t, ht, htlim, htslew, hten⟩ := tckCtlWrite_of_free hserved (.inr ⟨hlim, hslew⟩)
  exact ⟨t, ht, hten, htlim.trans hlim, htslew.trans hslew⟩

/-! ### TCK_ASY_DEADLINE and TCK_COUNT -/

theorem tckAsyDeadlineWrite_next {s : State} (hserved : s.pf1Served = true) (w : BitVec 32) :
    ∃ t, exec (.tckAsyDeadlineWrite w) s = .next t ∧ Same ((fresh s).flushAsm.writeAsyDeadline w.toNat) t :=
  doneW_next hserved fun t => t.writeAsyDeadline w.toNat

theorem tckCountRead_next {s : State} (hserved : s.pf1Served = true) :
    ∃ t, exec .tckCountRead s = .next t ∧
      Same (((fresh s).setF F.TCK_COUNT_HI_COUNT_HI 0 (s.tick / 2 ^ 32)).emit (.regData (s.tick % 2 ^ 32))) t := by
  have hfresh : (fresh s).pf1Served = true := hserved
  obtain ⟨t, ht, same⟩ := done_next (held_of_served hserved)
    fun t => if t.pf1Served then t.readCount.1.emit (.regData t.readCount.2) else t.refuseRead
  rw [if_pos hfresh] at same
  exact ⟨t, ht, same⟩

/-- Settles O11: TCK_CTL by the lemmas above, the deadline by its range, the count by the two halves of the tick number. -/
theorem tickRegisterRows : Obligations.TickRegisterRows := by
  intro s hserved
  refine ⟨fun w hoff => tckCtlWrite_of_free hserved (.inl hoff), fun w hen hslew => ?_, fun w hlo hhi => ?_, fun w hout => ?_,
    fun htick => ?_⟩
  · obtain ⟨t, ht, hreject, hkept⟩ := tckCtlWrite_of_locked hserved hen (.inr hslew)
    refine ⟨t, ht, hreject, hkept _ (by decide), hkept _ (by decide), ?_⟩
    rw [State.isSet, hkept _ (by decide)]
    exact hen
  · obtain ⟨t, ht, same⟩ := tckAsyDeadlineWrite_next hserved w
    refine ⟨t, ht, ?_⟩
    rw [same.getF, State.writeAsyDeadline, if_pos ⟨hlo, hhi⟩, getF_setF]
    exact Nat.mod_eq_of_lt (bitsOf_lt _ 15 0)
  · obtain ⟨t, ht, same⟩ := tckAsyDeadlineWrite_next hserved w
    refine ⟨t, ht, ?_⟩
    rw [same.getF, same.isSet, State.writeAsyDeadline, if_neg (by omega)]
    simp (disch := decide +kernel)
  · obtain ⟨t, ht, same⟩ := tckCountRead_next hserved
    refine ⟨t, ht, ?_, same.emitted (by simp)⟩
    rw [same.getF, emit_getF, getF_setF]
    exact Nat.mod_eq_of_lt (show s.tick / 2 ^ 32 < 2 ^ 16 by omega)


/-! ### SERVO_TICK -/

/-- The number of the tick rises at its strobe alone. -/
theorem servoTick_tick (s : State) (shorts : List (Option (Nat × Nat))) (cyc : List Nat) :
    (s.servoTick shorts cyc).tick = (s.tick + 1) % 2 ^ 48 := by
  have hsent : ∀ u : State, ((u.forEach (List.range 256) State.patternTick).forEach (List.range 32) State.sendTick).tick = u.tick := by
    intro u
    rw [unmasked (frame_forEach sendTick_frame _ _).tick (by decide +kernel),
      unmasked (frame_forEach patternTick_frame _ _).tick (by decide +kernel)]
  have hworked : ∀ u : State, ((u.forEach (List.range 8) fun t d => t.deckTick d (shorts.getD d none)).forEach (List.range 32)
      fun t h => t.headTick h (cyc.getD h 0)).tick = u.tick := by
    intro u
    rw [unmasked (frame_forEach (fun t h => headTick_frame t h (cyc.getD h 0)) _ _).tick (by decide +kernel),
      unmasked (frame_forEach (fun t d => deckTick_frame t d (shorts.getD d none)) _ _).tick (by decide +kernel)]
  unfold State.servoTick
  split
  · rfl
  · dsimp only
    rw [hworked]
    exact congrArg (fun k => (k + 1) % 2 ^ 48) (hsent s)

theorem servoTick_next {s : State} (hheld : s.pwr.held = []) (shorts : List (Option (Nat × Nat))) (cycles : List Nat) :
    ∃ t, exec (.servoTick shorts cycles) s = .next t ∧ t.tick = (s.tick + 1) % 2 ^ 48 := by
  obtain ⟨t, ht, same⟩ := doneQ_next hheld fun t => t.servoTick shorts cycles
  refine ⟨t, ht, ?_⟩
  rw [same.tick, advance_tick, servoTick_tick]
  rfl

/-! ### MOTOR_TICK -/

/-- A deck's motor step writes VBUS and IBRK at its start only. -/
theorem bus_motorDeck (s : State) (d : Nat) (x : MotorIn) (e : Nat) :
    (s.motorDeck d x).getF F.WND_BUS_VBUS e = (s.setF F.WND_BUS_VBUS d x.vbus).getF F.WND_BUS_VBUS e ∧
    (s.motorDeck d x).getF F.WND_BUS_IBRK e = (s.setF F.WND_BUS_IBRK d x.ibrk).getF F.WND_BUS_IBRK e := by
  unfold State.motorDeck
  have hibrk : ((s.setF F.WND_BUS_VBUS d x.vbus).setF F.WND_BUS_IBRK d x.ibrk).getF F.WND_BUS_IBRK e =
      (s.setF F.WND_BUS_IBRK d x.ibrk).getF F.WND_BUS_IBRK e := by
    by_cases hde : d = e
    · subst hde
      rw [getF_setF, getF_setF]
    · simp (disch := decide +kernel) [getF_setF_inst _ _ hde]
  constructor <;>
  simp (disch := decide +kernel) only [getF_ite, getF_onlyIf, getF_setF_other, getF_setB_other, (updWnd_frame ..).getF,
    (startRamp_frame ..).getF, (overVolt_frame ..).getF, (chopper_frame ..).getF, (restCount_frame ..).getF,
    (pll_frame ..).getF, (loseSync_frame ..).getF, (regenLimit_frame ..).getF, (spinStep_frame ..).getF,
    (brakeStep_frame ..).getF, (fullLoop_frame ..).getF, (compactLoop_frame ..).getF, ite_self, hibrk]

theorem motorTick_next {s : State} (hheld : s.pwr.held = []) (samples : List MotorIn) (d : Fin 8) (htick : s.onTick 10 = true) :
    ∃ t, exec (.motorTick samples) s = .next t ∧ t.getF F.WND_BUS_VBUS d = (samples.getD d {}).vbus % 2 ^ 16 ∧
      t.getF F.WND_BUS_IBRK d = (samples.getD d {}).ibrk % 2 ^ 16 := by
  obtain ⟨t, ht, same⟩ := doneQ_next hheld fun t =>
    if t.onTick 10 then t.forEach (List.range 8) fun u d => u.motorDeck d (samples.getD d {}) else t
  rw [if_pos (show (fresh s).onTick 10 = true from htick)] at same
  refine ⟨t, ht, ?_, ?_⟩
  · rw [same.getF, getF_advance _ (by decide) (by decide +kernel)]
    refine forEach_range_reads (P := fun _ => True) (read := fun t => t.getF F.WND_BUS_VBUS d) d.isLt trivial
      (fun _ _ _ _ => trivial) (fun t _ => ?_) (fun t x _ hx => ?_)
    · rw [(bus_motorDeck ..).1, getF_setF]
      rfl
    · rw [(bus_motorDeck ..).1, getF_setF_inst _ _ (by omega)]
  · rw [same.getF, getF_advance _ (by decide) (by decide +kernel)]
    refine forEach_range_reads (P := fun _ => True) (read := fun t => t.getF F.WND_BUS_IBRK d) d.isLt trivial
      (fun _ _ _ _ => trivial) (fun t _ => ?_) (fun t x _ hx => ?_)
    · rw [(bus_motorDeck ..).2, getF_setF]
      rfl
    · rw [(bus_motorDeck ..).2, getF_setF_inst _ _ (by omega)]

/-! ### PROFILE_TICK -/

/-- Taking targets counts a step of sled follow at most, and only of the axis that takes it. -/
theorem followDone_takeTargets_other (s : State) {g h : Nat} (hne : g ≠ h) :
    (s.takeTargets g).getF F.SLD_FOLLOW_DONE h = s.getF F.SLD_FOLLOW_DONE h := by
  unfold State.takeTargets
  dsimp only
  split_ifs <;> cases (s.sld g).rise <;> cases (s.sld g).rel <;>
    simp (disch := decide +kernel) only [State.raiseSld, getF_count_inst _ hne, getF_raise_other,
      getF_putF_other, (updSld_frame ..).getF, (setTarget_frame ..).getF]

theorem followDone_takeTargets {s : State} {h : Nat} (htakes : s.axisTakes h = true) (hreq : (s.sld h).req ≠ 0) :
    (s.takeTargets h).getF F.SLD_FOLLOW_DONE h = min (s.getF F.SLD_FOLLOW_DONE h + 1) 4095 := by
  unfold State.takeTargets
  dsimp only
  rw [if_pos htakes, if_neg hreq]
  cases (s.sld h).rise <;> cases (s.sld h).rel <;>
    (simp (disch := decide +kernel) only [getF_count_same, (updSld_frame ..).getF, (setTarget_frame ..).getF]; rfl)

/-- The rest of a head's profile tick counts no step of sled follow. -/
theorem followDone_profileHead (s : State) (g h : Nat) :
    (s.profileHead g).getF F.SLD_FOLLOW_DONE h =
      ((s.updSld g fun a => { a with pOld := a.p }).takeTargets g).getF F.SLD_FOLLOW_DONE h := by
  unfold State.profileHead State.axisStep
  dsimp only
  split_ifs <;>
    simp (disch := decide +kernel) only [(sledFollow_frame ..).getF, (sledWatch_frame ..).getF,
      (headFatal_frame ..).getF, (deliverAcc_frame ..).getF, (setAxis_frame ..).getF, (setSld_frame ..).getF,
      (updSld_frame _ _ _).getF, (beginMove_frame ..).getF, (runProfile_frame ..).getF, (homeArrive_frame ..).getF]


/-- What a profile tick of another head leaves to head h: its own parts, and the states of axes and heads. -/
structure HeadKept (s t : State) (h : Nat) : Prop where
  head : t.head h = s.head h
  axis : ∀ g, t.axis g = s.axis g
  clr : ∀ g, t.clr g = s.clr g

theorem HeadKept.trans {s t u : State} {h : Nat} (a : HeadKept s t h) (b : HeadKept t u h) : HeadKept s u h where
  head := b.head.trans a.head
  axis g := (b.axis g).trans (a.axis g)
  clr g := (b.clr g).trans (a.clr g)

section
variable (s : State) {g h : Nat}

theorem headKept_updSld (f : SldS → SldS) (hne : g ≠ h) : HeadKept s (s.updSld g f) h where
  head := head_updSld_other s f hne
  axis _ := rfl
  clr _ := rfl

theorem headKept_updClr (f : ClrS → ClrS) (hne : g ≠ h) : HeadKept s (s.updClr g f) h where
  head := head_updClr_other s f hne
  axis _ := rfl
  clr _ := rfl

/-- A register write that names no state of an axis or of a head. -/
theorem headKept_setF {f : Field} (i v : Nat) (ha : f.id ≠ F.SLD_STATUS_STATE.id) (hc : f.id ≠ F.CLR_STATUS_STATE.id) :
    HeadKept s (s.setF f i v) h where
  head := rfl
  axis _ := getF_setF_other s v ha
  clr _ := getF_setF_other s v hc

theorem headKept_takeTargets (hoff : s.axis g = slOFF) (hne : g ≠ h) : HeadKept s (s.takeTargets g) h := by
  have htakes : ¬ s.axisTakes g = true := by simp [State.axisTakes, hoff, slOFF, slIDLE, slMOVING]
  unfold State.takeTargets
  dsimp only
  rw [if_neg htakes]
  refine HeadKept.trans ?_ (headKept_updSld _ _ hne)
  split_ifs
  · exact ⟨rfl, fun _ => rfl, fun _ => rfl⟩
  · exact { head := rfl
            axis := fun _ => by simp (disch := decide +kernel) [State.axis, State.raiseSld]
            clr := fun _ => by simp (disch := decide +kernel) [State.clr, State.raiseSld] }

theorem headKept_axisStep (hoff : s.axis g = slOFF) (hne : g ≠ h) : HeadKept s (s.axisStep g).1 h ∧ (s.axisStep g).2 = false := by
  have htaken := HeadKept.trans (headKept_updSld s (fun a => { a with pOld := a.p }) hne)
    (headKept_takeTargets (s.updSld g fun a => { a with pOld := a.p }) hoff hne)
  have hoff0 : ((s.updSld g fun a => { a with pOld := a.p }).takeTargets g).axis g = slOFF := (htaken.axis g).trans hoff
  unfold State.axisStep
  generalize (s.updSld g fun a => { a with pOld := a.p }).takeTargets g = s0 at htaken hoff0 ⊢
  dsimp only
  split
  · refine ⟨htaken.trans (HeadKept.trans ?_ (headKept_setF _ _ _ (by decide) (by decide))), rfl⟩
    rw [if_neg (by
      rw [show (s0.setSld g _).axis g = s0.axis g from rfl, hoff0]
      simp [slOFF, slSTOPPING])]
    exact ⟨head_setHead_other s0 _ hne, fun _ => rfl, fun _ => rfl⟩
  · rw [hoff0, if_neg (by decide), if_neg (by decide)]
    exact ⟨htaken.trans ((headKept_updSld _ _ hne).trans (headKept_setF _ _ _ (by decide) (by decide))), rfl⟩

theorem headKept_sledWatch (hne : g ≠ h) : HeadKept s (s.sledWatch g) h := by
  unfold State.sledWatch
  split
  · exact (headKept_updClr s _ hne).trans (headKept_setF _ _ _ (by decide) (by decide))
  · exact ⟨rfl, fun _ => rfl, fun _ => rfl⟩

theorem headKept_sledFollow (hoff : s.clr g = hdOFF) (hne : g ≠ h) : HeadKept s (s.sledFollow g) h := by
  have hactive : s.sfActive g = false := by simp [State.sfActive, hoff, hdOFF, hdFOLLOW, hdWRITE, hdVERIFY, hdHOLD]
  unfold State.sledFollow
  rw [if_pos (by rw [hactive]; rfl)]
  exact headKept_updClr s _ hne

/-- A head that is OFF, with its axis OFF, touches no other head in a profile tick. -/
theorem headKept_profileHead (haxis : s.axis g = slOFF) (hclr : s.clr g = hdOFF) (hne : g ≠ h) :
    HeadKept s (s.profileHead g) h := by
  obtain ⟨hstep, hfatal⟩ := headKept_axisStep s haxis hne
  have hwatch := hstep.trans (headKept_sledWatch (s.axisStep g).1 hne)
  unfold State.profileHead
  dsimp only
  rw [hfatal, if_neg Bool.false_ne_true]
  exact hwatch.trans (headKept_sledFollow _ ((hwatch.clr g).trans hclr) hne)

end

theorem profileTick_next {s : State} (hheld : s.pwr.held = []) (h : Fin 32) (htick : s.onTick 20 = true)
    (hidle : ∀ g < h.val, s.axis g = slOFF ∧ s.clr g = hdOFF) (htakes : s.axisTakes h = true) (hreq : (s.sld h).req ≠ 0) :
    ∃ t, exec .profileTick s = .next t ∧ t.getF F.SLD_FOLLOW_DONE h = min (s.getF F.SLD_FOLLOW_DONE h + 1) 4095 := by
  obtain ⟨t, ht, same⟩ := doneQ_next hheld fun t => if t.onTick 20 then t.forEach (List.range 32) State.profileHead else t
  rw [if_pos (show (fresh s).onTick 20 = true from htick)] at same
  refine ⟨t, ht, ?_⟩
  rw [same.getF, getF_advance _ (by decide) (by decide +kernel)]
  refine forEach_range_reads (read := fun t => t.getF F.SLD_FOLLOW_DONE h)
    (P := fun t => HeadKept s t h ∧ t.getF F.SLD_FOLLOW_DONE h = s.getF F.SLD_FOLLOW_DONE h) h.isLt
    ⟨⟨rfl, fun _ => rfl, fun _ => rfl⟩, rfl⟩ (fun t x hx ht => ?_) (fun t ht => ?_) (fun t x _ hx => ?_)
  · obtain ⟨hkept, hdone⟩ := ht
    obtain ⟨haxis, hclr⟩ := hidle x hx
    refine ⟨hkept.trans (headKept_profileHead t ((hkept.axis x).trans haxis) ((hkept.clr x).trans hclr) (by omega)), ?_⟩
    rw [followDone_profileHead, followDone_takeTargets_other _ (by omega)]
    exact hdone
  · obtain ⟨hkept, hdone⟩ := ht
    have hold : (t.updSld h fun a => { a with pOld := a.p }).getF F.SLD_FOLLOW_DONE h = t.getF F.SLD_FOLLOW_DONE h := rfl
    rw [followDone_profileHead, followDone_takeTargets, hold, hdone]
    · rw [State.axisTakes, show (t.updSld h _).axis h = t.axis h from rfl, hkept.axis]
      exact htakes
    · rw [State.sld, head_updSld_same _ _ h.isLt]
      show (t.head h).sld.req ≠ 0
      rw [hkept.head]
      exact hreq
  · rw [followDone_profileHead, followDone_takeTargets_other _ (by omega)]
    rfl

/-! ### SPEED_TICK -/

theorem unsgn_lt (w : Nat) (z : Int) : unsgn w z < 2 ^ w := by
  have hpos : (0 : Int) < (2 ^ w : Nat) := by exact_mod_cast Nat.two_pow_pos w
  have := Int.emod_lt_of_pos z hpos
  unfold unsgn
  omega

theorem speedMeas_speedDeck {s : State} {d : Nat} (hdeck : s.deck d ≠ dkEMPTY) (ring : Option Int) :
    (s.speedDeck d ring).getF F.WND_SPEED_MEAS d = unsgn 16 (rnd 14 (s.rpm16 d)) := by
  unfold State.speedDeck
  rw [if_neg hdeck]
  dsimp only
  rw [getF_setF_other _ _ (by decide), getF_setF]
  exact Nat.mod_eq_of_lt (show _ < 2 ^ 16 from unsgn_lt 16 _)

/-- A deck's speed step writes no other deck's SPEED_MEAS. -/
theorem speedMeas_speedDeck_other (s : State) {d e : Nat} (hne : d ≠ e) (ring : Option Int) :
    (s.speedDeck d ring).getF F.WND_SPEED_MEAS e = s.getF F.WND_SPEED_MEAS e := by
  unfold State.speedDeck
  split
  · rfl
  · dsimp only
    rw [getF_setF_other _ _ (by decide), getF_setF_inst _ _ hne]
    simp (disch := decide +kernel) only [getF_ite, (atSpeed_frame ..).getF, (speedLoop_frame ..).getF, (pairTrim_frame ..).getF,
      (rampStep2_frame ..).getF, (loseSync_frame ..).getF, (updWnd_frame ..).getF, ite_self]

theorem speedDeck_of_empty {s : State} {d : Nat} (hdeck : s.deck d = dkEMPTY) (ring : Option Int) : s.speedDeck d ring = s :=
  if_pos hdeck

/-- The users of a deck's speed change no deck. -/
theorem speedUsers_kept (s : State) (e : Nat) :
    (∀ d, (s.speedUsers e).rpm16 d = s.rpm16 d) ∧ (∀ d, (s.speedUsers e).deck d = s.deck d) ∧
      ∀ d, (s.speedUsers e).getF F.WND_SPEED_MEAS d = s.getF F.WND_SPEED_MEAS d := by
  have hframe := speedUsers_frame s e
  refine ⟨fun d => ?_, fun d => hframe.getF (by decide) (by decide +kernel), fun d => hframe.getF (by decide) (by decide +kernel)⟩
  rw [State.rpm16, State.rpm16, State.poles, State.poles, hframe.getF (by decide) (by decide +kernel), State.wn, State.wn,
    unmasked hframe.decks (by decide +kernel)]

theorem speedTick_next {s : State} (hheld : s.pwr.held = []) (d : Fin 8) (htick : s.onTick 100 = true)
    (hdeck : s.deck d ≠ dkEMPTY) (hothers : ∀ e < 8, e ≠ d.val → s.deck e = dkEMPTY) :
    ∃ t, exec .speedTick s = .next t ∧ t.getF F.WND_SPEED_MEAS d = unsgn 16 (rnd 14 (s.rpm16 d)) := by
  obtain ⟨t, ht, same⟩ := doneQ_next hheld fun t =>
    if t.onTick 100 then t.forEach (List.range 8) fun u d => (u.speedDeck d (t.ringDelta d)).speedUsers d else t
  rw [if_pos (show (fresh s).onTick 100 = true from htick)] at same
  refine ⟨t, ht, ?_⟩
  rw [same.getF, getF_advance _ (by decide) (by decide +kernel)]
  refine forEach_range_reads (read := fun t => t.getF F.WND_SPEED_MEAS d)
    (P := fun t => t.rpm16 d = s.rpm16 d ∧ ∀ e, t.deck e = s.deck e) d.isLt ⟨rfl, fun _ => rfl⟩ (fun t x hx hkept => ?_)
    (fun t hkept => ?_) (fun t x _ hx => ?_)
  · obtain ⟨hspeed, hdecks⟩ := hkept
    obtain ⟨husers, hdecks', -⟩ := speedUsers_kept t x
    rw [speedDeck_of_empty ((hdecks x).trans (hothers x (by omega) (by omega)))]
    exact ⟨(husers d).trans hspeed, fun e => (hdecks' e).trans (hdecks e)⟩
  · obtain ⟨hspeed, hdecks⟩ := hkept
    rw [(speedUsers_kept ..).2.2, speedMeas_speedDeck (by rwa [hdecks]), hspeed]
  · rw [(speedUsers_kept ..).2.2, speedMeas_speedDeck_other _ (by omega)]

/-! ### HOLDOVER, overruns and misses -/

theorem holdover_next {s : State} (hheld : s.pwr.held = []) (hen : s.isSet F.TCK_CTL_DISC_EN 0 = true)
    (hout : s.isSet F.TCK_STATUS_HOLDOVER 0 = false) (hsince : 200 ≤ s.ticksSince s.tck.since) :
    ∃ t, exec .holdover s = .next t ∧ t.isSet F.TCK_STATUS_HOLDOVER 0 = true ∧ t.isSet F.TCK_STATUS_LOCK 0 = false ∧
      t.isSet F.TCK_EVT_HOLDOVER 0 = true ∧ t.tck.slew = 0 := by
  obtain ⟨t, ht, same⟩ := done_next hheld fun t =>
    if t.isSet F.TCK_CTL_DISC_EN 0 && !t.isSet F.TCK_STATUS_HOLDOVER 0 && decide (200 ≤ t.ticksSince t.tck.since) then
      let u : State := { t with tck := { t.tck with slew := 0, inRun := 0, outRun := 0 } }
      ((u.setB F.TCK_STATUS_HOLDOVER 0 true).setB F.TCK_STATUS_LOCK 0 false).raise E.TCK_HOLDOVER 0
    else t
  have hsince' : 200 ≤ (fresh s).ticksSince s.tck.since := hsince
  rw [if_pos (by simp [hen, hout, hsince'])] at same
  refine ⟨t, ht, ?_⟩
  rw [same.isSet, same.isSet, same.isSet, same.tck]
  simp (disch := decide +kernel)

/-- An overrun leaves the event, the head's mark and the count, whether HOLD or SAFE follow. -/
theorem overrun_marks {s : State} {h : Nat} (hh : h < 32) (hon : s.clr h ≠ hdOFF) (hfirst : s.tck.repeated = false)
    (hnew : (s.cl h).ovr.head? ≠ some s.tick) :
    (s.overrun h).isSet F.TCK_EVT_CLR_OVR 0 = true ∧ (s.overrun h).bitF F.TCK_OVR_HEADS_HEAD 0 h = true ∧
      (s.overrun h).getF F.TCK_CLR_OVR_TOTAL h = min (s.getF F.TCK_CLR_OVR_TOTAL h + 1) 65535 := by
  have hhead : (s.cl h).ovr.head?.getD (s.tick + 1) ≠ s.tick := by
    cases hovr : (s.cl h).ovr with
    | nil => simp
    | cons k l => simpa [hovr] using hnew
  unfold State.overrun
  rw [if_neg (by simp [hon, hfirst, hhead])]
  dsimp only
  refine ⟨?_, ?_, ?_⟩
  · simp (disch := decide +kernel) [isSet_ite, isSet_onlyIf, State.raiseTckHead, (headFatal_frame ..).isSet, (enterHold_frame ..).isSet,
      (gateClose_frame ..).isSet, (updWrite_frame ..).isSet, (lrnFreezeNow_frame ..).isSet]
  · simp (disch := decide +kernel) [bitF_ite, bitF_onlyIf, bitF_raiseTckHead _ _ hh, (headFatal_frame ..).bitF,
      (enterHold_frame ..).bitF, (gateClose_frame ..).bitF, (updWrite_frame ..).bitF, (lrnFreezeNow_frame ..).bitF]
  · simp (disch := decide +kernel) [getF_ite, getF_onlyIf, State.raiseTckHead, (headFatal_frame ..).getF, (enterHold_frame ..).getF,
      (gateClose_frame ..).getF, (updWrite_frame ..).getF, (lrnFreezeNow_frame ..).getF, (updClr_frame ..).getF]
    rfl

theorem collierOverrun_next {s : State} (hheld : s.pwr.held = []) (h : Fin 32) {cycles : Nat} (hlong : cycles = 0 ∨ 1080 < cycles)
    (hon : s.clr h ≠ hdOFF) (hfirst : s.tck.repeated = false) (hnew : (s.cl h).ovr.head? ≠ some s.tick) :
    ∃ t, exec (.collierOverrun h cycles) s = .next t ∧ t.isSet F.TCK_EVT_CLR_OVR 0 = true ∧
      t.bitF F.TCK_OVR_HEADS_HEAD 0 h = true ∧
      t.getF F.TCK_CLR_OVR_TOTAL h = min (s.getF F.TCK_CLR_OVR_TOTAL h + 1) 65535 := by
  obtain ⟨t, ht, same⟩ := doneQ_next hheld fun t =>
    if t.clr h = hdOFF then t
    else
      let u := t.keepMax F.TCK_CLR_MAXCYC_MAX h cycles
      if 1 ≤ cycles ∧ cycles ≤ 1080 then u else u.overrun h
  rw [if_neg (show ¬ (fresh s).clr h = hdOFF from hon)] at same
  dsimp only at same
  rw [if_neg (by omega)] at same
  have hkept : ((fresh s).keepMax F.TCK_CLR_MAXCYC_MAX h cycles).getF F.TCK_CLR_OVR_TOTAL h = s.getF F.TCK_CLR_OVR_TOTAL h := by
    simp (disch := decide +kernel)
  obtain ⟨hevent, hmark, htotal⟩ := overrun_marks (s := (fresh s).keepMax F.TCK_CLR_MAXCYC_MAX h cycles) h.isLt
    (by rw [State.clr, getF_keepMax_other _ _ (by decide)]; exact hon) hfirst hnew
  refine ⟨t, ht, ?_, ?_, ?_⟩
  · rw [same.isSet, isSet_advance _ (by decide) (by decide +kernel), hevent]
  · rw [same.bitF, bitF_advance _ (by decide) (by decide +kernel), hmark]
  · rw [same.getF, getF_advance _ (by decide) (by decide +kernel), htotal, hkept]

theorem lrnSkip_next {s : State} (hheld : s.pwr.held = []) (h : Fin 32) (hfirst : s.tck.repeated = false) :
    ∃ t, exec (.lrnSkip h) s = .next t ∧ t.isSet F.TCK_EVT_LRN_SKIP 0 = true ∧ t.bitF F.TCK_OVR_HEADS_HEAD 0 h = true := by
  obtain ⟨t, ht, same⟩ := done_next hheld fun t =>
    if t.tck.repeated then t else ((t.raiseTckHead E.TCK_LRN_SKIP h).lrnSkip h 1).lrnSkip h 0
  rw [if_neg (by simp [hfirst])] at same
  refine ⟨t, ht, ?_, ?_⟩
  · rw [same.isSet]
    simp (disch := decide +kernel) [State.raiseTckHead, (lrnSkip_frame ..).isSet]
  · rw [same.bitF]
    simp (disch := decide +kernel) [bitF_raiseTckHead _ _ h.isLt, (lrnSkip_frame ..).bitF]

theorem asyMiss_next {s : State} (hheld : s.pwr.held = []) (y : Fin 96) (hdue : s.passDue y = true) :
    ∃ t, exec (.asyMiss y) s = .next t ∧ t.isSet F.TCK_EVT_ASY_MISS 0 = true ∧
      t.getF F.TCK_ASY_MISS_COUNT 0 = min (s.getF F.TCK_ASY_MISS_COUNT 0 + 1) (2 ^ 32 - 1) := by
  obtain ⟨t, ht, same⟩ := doneQ_next hheld fun t => if t.passDue y then t.asyMiss y else t
  rw [if_pos (show (fresh s).passDue y = true from hdue)] at same
  have hidle : ∀ (u : State) (a : Nat), Frame W.idleEngine u (if u.runs a y then u.idleEngine a else u) := fun u a =>
    frame_if _ (idleEngine_frame u a)
  refine ⟨t, ht, ?_, ?_⟩
  · rw [same.isSet, isSet_advance _ (by decide) (by decide +kernel), State.asyMiss]
    simp (disch := decide +kernel) [(lodeOutcome_frame ..).isSet, (frame_forEach hidle ..).isSet]
  · rw [same.getF, getF_advance _ (by decide) (by decide +kernel), State.asyMiss]
    simp (disch := decide +kernel) [(lodeOutcome_frame ..).getF, (frame_forEach hidle ..).getF]
    rfl

/-- Settles O10: one lemma per row, above. -/
theorem tickRows : Obligations.TickRows := fun _ hheld =>
  ⟨servoTick_next hheld, motorTick_next hheld, profileTick_next hheld, speedTick_next hheld, holdover_next hheld,
    fun h _ => collierOverrun_next hheld h, lrnSkip_next hheld, asyMiss_next hheld⟩

end Sys2Proof.Proofs
end

section
/-!
PROOFS. Heads after the operations of Machine/Route.lean and Machine/HeadOps.lean: which head an operation writes, and what of it.
-/
set_option Elab.async false

namespace Sys2Proof.Laws

open Sys2Proof.Machine

/-! ### Partners -/

theorem partner_lt {h : Nat} (hh : h < 32) : partner h < 32 := by
  unfold partner
  split <;> omega

theorem partner_ne (h : Nat) : partner h ≠ h := by
  unfold partner
  split <;> omega

theorem partner_partner (h : Nat) : partner (partner h) = h := by
  unfold partner
  split <;> split <;> omega

/-! ### One head's part -/

theorem head_of_heads {s t : State} (hheads : t.heads = s.heads) (h : Nat) : t.head h = s.head h := by
  rw [State.head, hheads, State.head]

/-- A head after a frame that names no head. -/
theorem Frame.head {m : Nat} {s t : State} (hframe : Frame m s t) (hm : m.testBit 7 = false) (h : Nat) : t.head h = s.head h :=
  head_of_heads (unmasked hframe.heads hm) h

section
variable (s : State) {g h : Nat}

@[simp] theorem head_fresh : (fresh s).head h = s.head h := rfl
@[simp] theorem head_setB (f : Field) (i : Nat) (b : Bool) : (s.setB f i b).head h = s.head h := rfl
@[simp] theorem head_putF (f : Field) (i b : Nat) (v : Bool) : (s.putF f i b v).head h = s.head h := rfl
@[simp] theorem head_raise (e : Event) (i : Nat) : (s.raise e i).head h = s.head h := rfl
@[simp] theorem head_emit (o : Output) : (s.emit o).head h = s.head h := rfl
@[simp] theorem head_setTaken (i : Nat) (b : Bool) : (s.setTaken i b).head h = s.head h := rfl
@[simp] theorem head_waitRead (o : MediaOp) : (s.waitRead o).head h = s.head h := rfl
@[simp] theorem head_flushAsm : s.flushAsm.head h = s.head h := head_of_heads (flushAsm_heads s) h
@[simp] theorem head_flushHead (i : Nat) : (s.flushHead i).head h = s.head h := (flushHead_frame s i).head (by decide +kernel) h
@[simp] theorem head_releaseSlot (y : Nat) : (s.releaseSlot y).head h = s.head h := (releaseSlot_frame s y).head (by decide +kernel) h

/-- What a write of head g leaves of its part, it leaves of every head's. -/
theorem part_setHead {β : Type} (part : HeadS → β) (x : HeadS) (hx : part x = part (s.head g)) :
    part ((s.setHead g x).head h) = part (s.head h) := by
  by_cases hne : g = h
  · subst hne
    by_cases hg : g < 32
    · rw [head_setHead_same s x hg, hx]
    · simp [State.head, State.setHead, vget, vset, hg]
  · rw [head_setHead_other s x hne]

theorem head_updBand_same (f : BandS → BandS) (hh : h < 32) :
    (s.updBand h f).head h = { s.head h with band := f (s.head h).band } := head_setHead_same s _ hh

theorem head_updBand_other (f : BandS → BandS) (hne : g ≠ h) : (s.updBand g f).head h = s.head h := head_setHead_other s _ hne

theorem head_updWrite_same (f : WriteS → WriteS) (hh : h < 32) :
    (s.updWrite h f).head h = { s.head h with write := f (s.head h).write } := head_setHead_same s _ hh

theorem head_updWrite_other (f : WriteS → WriteS) (hne : g ≠ h) : (s.updWrite g f).head h = s.head h := head_setHead_other s _ hne

theorem head_issue_same (o : MediaOp) (hh : h < 32) :
    (s.issue h o).head h = { s.head h with ops := insertOp o (s.head h).ops } := head_setHead_same s _ hh

theorem head_issue_other (o : MediaOp) (hne : g ≠ h) : (s.issue g o).head h = s.head h := head_setHead_other s _ hne

/-- The reads put back wait without a slot: no head changes by it. -/
theorem head_putBack (l : List MediaOp) :
    (s.forEach l fun t o => match o.slot with
      | some y => (t.releaseSlot y).waitRead o
      | none => t).head h = s.head h := by
  refine forEach_keeps (P := fun t : State => t.head h = s.head h) (fun t o _ ht => ?_) rfl
  split
  · rw [head_waitRead, head_releaseSlot, ht]
  · exact ht

theorem head_withdraw_same (hh : h < 32) : (s.withdraw h).head h = { s.head h with ops := [] } :=
  (head_putBack _ _).trans (head_setHead_same s _ hh)

theorem head_withdraw_other (hne : g ≠ h) : (s.withdraw g).head h = s.head h :=
  (head_putBack _ _).trans (head_setHead_other s _ hne)

theorem head_withdrawBand_same (b : Nat) (hh : h < 32) :
    (s.withdrawBand h b).head h = { s.head h with ops := (s.head h).ops.filter fun o => !o.onBand b } :=
  (head_putBack _ _).trans (head_setHead_same s _ hh)

theorem head_withdrawBand_other (b : Nat) (hne : g ≠ h) : (s.withdrawBand g b).head h = s.head h :=
  (head_putBack _ _).trans (head_setHead_other s _ hne)

theorem mem_insertOp (o : MediaOp) (l : List MediaOp) : o ∈ insertOp o l := by
  induction l with
  | nil => simp [insertOp]
  | cons p l ih =>
    rw [insertOp]
    split
    · exact List.mem_cons_of_mem p ih
    · exact List.mem_cons_self

/-- A seek of the home head to its parking place is all that is issued. -/
theorem head_parkHome_other (hne : g ≠ h) : (s.parkHome g).head h = s.head h := by
  unfold State.parkHome
  dsimp only
  split
  · rfl
  · exact head_issue_other s _ hne

theorem band_parkHome (g h : Nat) (hh : h < 32) : ((s.parkHome g).head h).band = (s.head h).band := by
  by_cases hne : g = h
  · subst hne
    unfold State.parkHome
    dsimp only
    split
    · rfl
    · rw [head_issue_same s _ hh]
  · rw [head_parkHome_other s hne]

theorem band_homeParks (hh : h < 32) : ((s.homeParks h).head h).band = (s.head h).band := by
  rw [State.homeParks, band_parkHome _ _ _ hh, head_updWrite_same _ _ hh, head_withdraw_same s hh]

theorem head_homeParks_other (hne : g ≠ h) : (s.homeParks g).head h = s.head h := by
  rw [State.homeParks, head_parkHome_other _ hne, head_updWrite_other _ _ hne, head_withdraw_other s hne]

/-- A takeover that starts: the band waits for the partner. -/
theorem band_startTakeover (r : Bool) (hh : h < 32) : ((s.startTakeover h r).head h).band =
    { (s.head h).band with unserved := false, take := .waitPartner, requested := r, handback := false } := by
  have hp := partner_ne h
  rw [State.startTakeover]
  dsimp only
  rw [head_setHead_other _ _ hp, head_withdraw_other _ hp, head_flushHead, head_updBand_same _ _ hh]
  rfl

/-- A takeover that starts: the partner's queue is put back. -/
theorem ops_startTakeover (r : Bool) (hh : h < 32) : ((s.startTakeover h r).head (partner h)).ops = [] := by
  rw [State.startTakeover]
  dsimp only
  rw [head_setHead_same _ _ (partner_lt hh), head_withdraw_same _ (partner_lt hh)]

end

/-! ### Registers after a write of a head's part -/

section
variable (s : State) (f : Field) (j b : Nat)

@[simp] theorem getF_setHead (i : Nat) (x : HeadS) : (s.setHead i x).getF f j = s.getF f j := rfl
@[simp] theorem isSet_setHead (i : Nat) (x : HeadS) : (s.setHead i x).isSet f j = s.isSet f j := rfl
@[simp] theorem bitF_setHead (i : Nat) (x : HeadS) : (s.setHead i x).bitF f j b = s.bitF f j b := rfl
@[simp] theorem getF_updBand (i : Nat) (u : BandS → BandS) : (s.updBand i u).getF f j = s.getF f j := rfl
@[simp] theorem isSet_updBand (i : Nat) (u : BandS → BandS) : (s.updBand i u).isSet f j = s.isSet f j := rfl
@[simp] theorem bitF_updBand (i : Nat) (u : BandS → BandS) : (s.updBand i u).bitF f j b = s.bitF f j b := rfl
@[simp] theorem getF_updWrite (i : Nat) (u : WriteS → WriteS) : (s.updWrite i u).getF f j = s.getF f j := rfl
@[simp] theorem isSet_updWrite (i : Nat) (u : WriteS → WriteS) : (s.updWrite i u).isSet f j = s.isSet f j := rfl
@[simp] theorem bitF_updWrite (i : Nat) (u : WriteS → WriteS) : (s.updWrite i u).bitF f j b = s.bitF f j b := rfl
@[simp] theorem getF_updClr (i : Nat) (u : ClrS → ClrS) : (s.updClr i u).getF f j = s.getF f j := rfl
@[simp] theorem isSet_updClr (i : Nat) (u : ClrS → ClrS) : (s.updClr i u).isSet f j = s.isSet f j := rfl
@[simp] theorem bitF_updClr (i : Nat) (u : ClrS → ClrS) : (s.updClr i u).bitF f j b = s.bitF f j b := rfl
@[simp] theorem getF_updSld (i : Nat) (u : SldS → SldS) : (s.updSld i u).getF f j = s.getF f j := rfl
@[simp] theorem isSet_updSld (i : Nat) (u : SldS → SldS) : (s.updSld i u).isSet f j = s.isSet f j := rfl
@[simp] theorem bitF_updSld (i : Nat) (u : SldS → SldS) : (s.updSld i u).bitF f j b = s.bitF f j b := rfl
@[simp] theorem getF_updLrn (i : Nat) (u : LrnS → LrnS) : (s.updLrn i u).getF f j = s.getF f j := rfl
@[simp] theorem isSet_updLrn (i : Nat) (u : LrnS → LrnS) : (s.updLrn i u).isSet f j = s.isSet f j := rfl
@[simp] theorem bitF_updLrn (i : Nat) (u : LrnS → LrnS) : (s.updLrn i u).bitF f j b = s.bitF f j b := rfl
@[simp] theorem getF_updLrnLoop (i k : Nat) (u : LrnLoopS → LrnLoopS) : (s.updLrnLoop i k u).getF f j = s.getF f j := rfl
@[simp] theorem isSet_updLrnLoop (i k : Nat) (u : LrnLoopS → LrnLoopS) : (s.updLrnLoop i k u).isSet f j = s.isSet f j := rfl
@[simp] theorem bitF_updLrnLoop (i k : Nat) (u : LrnLoopS → LrnLoopS) : (s.updLrnLoop i k u).bitF f j b = s.bitF f j b := rfl
@[simp] theorem getF_issue (i : Nat) (o : MediaOp) : (s.issue i o).getF f j = s.getF f j := rfl
@[simp] theorem isSet_issue (i : Nat) (o : MediaOp) : (s.issue i o).isSet f j = s.isSet f j := rfl
@[simp] theorem bitF_issue (i : Nat) (o : MediaOp) : (s.issue i o).bitF f j b = s.bitF f j b := rfl
@[simp] theorem getF_waitRead (o : MediaOp) : (s.waitRead o).getF f j = s.getF f j := rfl
@[simp] theorem isSet_waitRead (o : MediaOp) : (s.waitRead o).isSet f j = s.isSet f j := rfl
@[simp] theorem bitF_waitRead (o : MediaOp) : (s.waitRead o).bitF f j b = s.bitF f j b := rfl

end

/-! ### The learners of a head -/

section
variable (s : State) {g h i j : Nat}

theorem head_updLrn_same (f : LrnS → LrnS) (hh : h < 32) :
    (s.updLrn h f).head h = { s.head h with lrn := f (s.head h).lrn } := head_setHead_same s _ hh

theorem head_updLrn_other (f : LrnS → LrnS) (hne : g ≠ h) : (s.updLrn g f).head h = s.head h := head_setHead_other s _ hne

theorem lrnLoop_updLrnLoop_same (f : LrnLoopS → LrnLoopS) (hh : h < 32) (hi : i < 2) :
    (s.updLrnLoop h i f).lrnLoop h i = f (s.lrnLoop h i) := by
  rw [State.lrnLoop, State.lrn, State.updLrnLoop, head_updLrn_same s _ hh]
  exact vget_vset_same _ _ _ hi

theorem lrnLoop_updLrnLoop_other (f : LrnLoopS → LrnLoopS) (hh : h < 32) (hne : i ≠ j) :
    (s.updLrnLoop h i f).lrnLoop h j = s.lrnLoop h j := by
  rw [State.lrnLoop, State.lrn, State.updLrnLoop, head_updLrn_same s _ hh]
  exact vget_vset_other _ _ _ hne

theorem head_updLrnLoop_other (f : LrnLoopS → LrnLoopS) (hne : g ≠ h) : (s.updLrnLoop g i f).head h = s.head h :=
  head_updLrn_other s _ hne

end

end Sys2Proof.Laws
end

section
/-!
PROOFS. Takeover and handback on request and their later steps (01, R14 to R18, R23 to R26).
-/
set_option Elab.async false

namespace Sys2Proof.Proofs

open Sys2Proof.Machine Sys2Proof.Laws

/-! ### The band's routing after a low word is flushed -/

section
variable (s : State) (h : Nat)

theorem moving_flushAsm : (fresh s).flushAsm.moving h = s.moving h := by simp [State.moving, State.taking]

theorem taken_flushAsm : (fresh s).flushAsm.taken h = s.taken h := by simp (disch := decide +kernel) [State.taken]

theorem unserved_flushAsm : (fresh s).flushAsm.unserved h = s.unserved h := by simp [State.unserved]

theorem deck_flushAsm : (fresh s).flushAsm.deck h = s.deck h := by simp (disch := decide +kernel) [State.deck]

theorem clr_flushAsm : (fresh s).flushAsm.clr h = s.clr h := by simp (disch := decide +kernel) [State.clr]

theorem wcy_flushAsm : (fresh s).flushAsm.wcy h = s.wcy h := by simp (disch := decide +kernel) [State.wcy]

theorem partnerFit_flushAsm : (fresh s).flushAsm.partnerFit h = s.partnerFit h := by simp [State.partnerFit, clr_flushAsm]

theorem eligible_flushAsm : (fresh s).flushAsm.eligible h = s.eligible h := by
  simp (disch := decide +kernel) [State.eligible, State.idlePoint, clr_flushAsm]

end

/-! ### TAKEOVER_REQUEST -/

/-- The rules accept a takeover of the band of h (R23 to R26). -/
structure MayTake (s : State) (h : Nat) : Prop where
  taken : s.taken h = false
  moving : s.moving h = false
  takenPartner : s.taken (partner h) = false
  movingPartner : s.moving (partner h) = false
  ready : s.deck (deckOfHead h) = dkREADY
  fit : s.partnerFit h = true

theorem requestTakeover_of_may {s : State} {h : Nat} (may : MayTake s h) :
    s.requestTakeover h =
      if s.unserved h then s.startTakeover h false else (s.startTakeover h true).homeParks h := by
  obtain ⟨htaken, hmoving, htakenP, hmovingP, hready, hfit⟩ := may
  simp [State.requestTakeover, htaken, hmoving, htakenP, hmovingP, hready, hfit]

theorem mayTake_flushAsm {s : State} {h : Nat} (may : MayTake s h) : MayTake (fresh s).flushAsm h where
  taken := (taken_flushAsm s h).trans may.taken
  moving := (moving_flushAsm s h).trans may.moving
  takenPartner := (taken_flushAsm s _).trans may.takenPartner
  movingPartner := (moving_flushAsm s _).trans may.movingPartner
  ready := (deck_flushAsm s _).trans may.ready
  fit := (partnerFit_flushAsm s h).trans may.fit

theorem takeoverRequest_next {s : State} (hserved : s.pf1Served = true) (h : Fin 32) :
    ∃ t, exec (.takeoverRequest h) s = .next t ∧ Same ((fresh s).flushAsm.requestTakeover h).advance t :=
  doneQW_next hserved fun t => t.requestTakeover h

/-- The event of a start, and the routing bit, which stays. -/
theorem marks_startTakeover (s : State) (h : Nat) (r : Bool) :
    (s.startTakeover h r).isSet F.GLB_EVT_TAKEOVER_START 0 = true ∧ (s.startTakeover h r).taken h = s.taken h := by
  constructor
  · rw [State.startTakeover]
    simp (disch := decide +kernel) [(withdraw_frame ..).isSet, (flushHead_frame ..).isSet]
  · exact (startTakeover_frame s h r).bitF (by decide) (by decide +kernel)

theorem requestTakeover_started {s : State} {h : Nat} (may : MayTake s h) :
    (s.requestTakeover h).isSet F.GLB_EVT_TAKEOVER_START 0 = true ∧ (s.requestTakeover h).taken h = false := by
  rw [requestTakeover_of_may may]
  split
  · obtain ⟨hevent, htaken⟩ := marks_startTakeover s h false
    exact ⟨hevent, htaken.trans may.taken⟩
  · obtain ⟨hevent, htaken⟩ := marks_startTakeover s h true
    have hframe := homeParks_frame (s.startTakeover h true) h
    exact ⟨(hframe.isSet (by decide) (by decide +kernel)).trans hevent,
      (hframe.bitF (by decide) (by decide +kernel)).trans (htaken.trans may.taken)⟩

theorem takeoverRequest_starts {s : State} (hserved : s.pf1Served = true) (h : Fin 32) (may : MayTake s h) :
    ∃ t, exec (.takeoverRequest h) s = .next t ∧ t.isSet F.GLB_EVT_TAKEOVER_START 0 = true := by
  obtain ⟨t, ht, same⟩ := takeoverRequest_next hserved h
  refine ⟨t, ht, ?_⟩
  rw [same.isSet, isSet_advance _ (by decide) (by decide +kernel), (requestTakeover_started (mayTake_flushAsm may)).1]

theorem takeoverRequest_refused {s : State} (hserved : s.pf1Served = true) (h : Fin 32) (htaken : s.taken h = false)
    (hunfit : s.deck (deckOfHead h) ≠ dkREADY ∨ s.partnerFit h = false) :
    ∃ t, exec (.takeoverRequest h) s = .next t ∧ t.isSet F.GLB_EVT_TAKEOVER_REFUSED 0 = true := by
  obtain ⟨t, ht, same⟩ := takeoverRequest_next hserved h
  have hrefuse : (fresh s).flushAsm.requestTakeover h = (fresh s).flushAsm.refuse := by
    unfold State.requestTakeover
    rw [taken_flushAsm, deck_flushAsm, partnerFit_flushAsm, htaken]
    obtain hdeck | hfit := hunfit
    · simp [hdeck]
    · simp [hfit]
  refine ⟨t, ht, ?_⟩
  rw [same.isSet, isSet_advance _ (by decide) (by decide +kernel), hrefuse, State.refuse]
  simp (disch := decide +kernel)

/-- The head's part after a takeover starts: its band waits, and the request stays with the band while it was served. -/
theorem requestTakeover_heads {s : State} {h : Nat} (hh : h < 32) (may : MayTake s h) :
    ((s.requestTakeover h).head h).band =
        { (s.head h).band with unserved := false, take := .waitPartner, requested := !s.unserved h, handback := false } ∧
      ((s.requestTakeover h).head (partner h)).ops = [] := by
  have hp := partner_ne h
  rw [requestTakeover_of_may may]
  cases hun : s.unserved h
  · rw [if_neg Bool.false_ne_true, band_homeParks _ hh, head_homeParks_other _ hp.symm]
    exact ⟨band_startTakeover s true hh, ops_startTakeover s true hh⟩
  · rw [if_pos rfl]
    exact ⟨band_startTakeover s false hh, ops_startTakeover s false hh⟩

theorem takeoverRequest_complete {s : State} (hserved : s.pf1Served = true) (hquiet : s.HostQuiet) (h : Fin 32) (may : MayTake s h) :
    ∃ t, exec (.takeoverRequest h) s = .next t ∧ t.isSet F.GLB_EVT_TAKEOVER_START 0 = true ∧ t.taken h = false ∧
      (t.head h).band.take = .waitPartner ∧ (t.head h).band.unserved = false ∧ (t.head h).band.requested = !s.unserved h ∧
      (t.head (partner h)).ops = [] := by
  have hframe := requestTakeover_frame (fresh s).flushAsm h
  obtain ⟨t, ht, same⟩ := doneQW_quiet hserved (f := fun t => t.requestTakeover h) (hostQuiet_of_parts hquiet
    ((unmasked hframe.hqi (by decide +kernel)).trans (by simp)) ((unmasked hframe.vols (by decide +kernel)).trans (by simp)))
  have may' := mayTake_flushAsm may
  obtain ⟨hevent, htaken⟩ := requestTakeover_started may'
  obtain ⟨hband, hops⟩ := requestTakeover_heads h.isLt may'
  refine ⟨t, ht, (same.isSet ..).trans hevent, (same.bitF ..).trans htaken, ?_⟩
  rw [head_of_heads same.heads, head_of_heads same.heads, hband, hops, unserved_flushAsm]
  exact ⟨rfl, rfl, rfl, rfl⟩

/-! ### HANDBACK_REQUEST and HANDBACK_DONE -/

theorem handbackRequest_next {s : State} (hserved : s.pf1Served = true) (h : Fin 32) :
    ∃ t, exec (.handbackRequest h) s = .next t ∧ Same ((fresh s).flushAsm.requestHandback h).advance t :=
  doneQW_next hserved fun t => t.requestHandback h

/-- A handback that is done: the event, and the band is not served by the partner. -/
theorem marks_handbackDone (s : State) {h : Nat} (hh : h < 32) :
    (s.handbackDone h).isSet F.GLB_EVT_HANDBACK_DONE 0 = true ∧ (s.handbackDone h).taken h = false := by
  constructor
  · simp (disch := decide +kernel) [State.handbackDone, (issueWaiting_frame ..).isSet]
  · rw [State.handbackDone, State.taken, (issueWaiting_frame _).bitF (by decide) (by decide +kernel),
      bitF_raise_other _ _ _ (by decide) (by decide)]
    exact bitF_putF_same _ F.GLB_TAKEOVER_SERVED_BY_PARTNER 0 h false hh

theorem handbackRequest_of_unserved {s : State} (hserved : s.pf1Served = true) (h : Fin 32) (hmoving : s.moving h = false)
    (hun : s.unserved h = true) (heligible : s.eligible h = true) :
    ∃ t, exec (.handbackRequest h) s = .next t ∧ t.isSet F.GLB_EVT_HANDBACK_DONE 0 = true ∧ t.taken h = false := by
  obtain ⟨t, ht, same⟩ := handbackRequest_next hserved h
  have hdone : (fresh s).flushAsm.requestHandback h = (fresh s).flushAsm.handbackDone h := by
    simp [State.requestHandback, moving_flushAsm, unserved_flushAsm, eligible_flushAsm, hmoving, hun, heligible]
  obtain ⟨hevent, htaken⟩ := marks_handbackDone (fresh s).flushAsm h.isLt
  rw [hdone] at same
  refine ⟨t, ht, ?_, ?_⟩
  · rw [same.isSet, isSet_advance _ (by decide) (by decide +kernel), hevent]
  · rw [State.taken, same.bitF, bitF_advance _ (by decide) (by decide +kernel)]
    exact htaken

/-- A handback request of a band that the partner serves. -/
theorem requestHandback_served {s : State} {h : Nat} (hh : h < 32) (hmoving : s.moving h = false) (hun : s.unserved h = false)
    (htaken : s.taken h = true) (heligible : s.eligible h = true) :
    (s.requestHandback h).taken h = true ∧ ((s.requestHandback h).head h).band.handback = true ∧
      ((s.requestHandback h).head (partner h)).ops = (s.head (partner h)).ops.filter fun o => !o.onBand h := by
  have hp := partner_ne h
  have hbase : ∀ t : State, t = (s.updBand h fun b => { b with handback := true }).withdrawBand (partner h) h →
      t.taken h = true ∧ (t.head h).band.handback = true ∧
        (t.head (partner h)).ops = (s.head (partner h)).ops.filter fun o => !o.onBand h := by
    intro t ht
    rw [ht, head_withdrawBand_other _ _ hp, head_updBand_same _ _ hh, head_withdrawBand_same _ _ (partner_lt hh),
      head_updBand_other _ _ hp.symm, State.taken, (withdrawBand_frame ..).bitF (by decide) (by decide +kernel), bitF_updBand]
    exact ⟨htaken, rfl, rfl⟩
  obtain ⟨hbit, hband, hops⟩ := hbase _ rfl
  unfold State.requestHandback
  simp only [hmoving, hun, htaken, heligible, Bool.false_eq_true, if_false, Bool.not_true]
  split
  · rw [head_updWrite_other _ _ hp, head_updWrite_same _ _ (partner_lt hh)]
    exact ⟨hbit, hband, hops⟩
  · exact ⟨hbit, hband, hops⟩

theorem handbackRequest_of_served {s : State} (hserved : s.pf1Served = true) (hquiet : s.HostQuiet) (h : Fin 32)
    (hmoving : s.moving h = false) (hun : s.unserved h = false) (htaken : s.taken h = true) (heligible : s.eligible h = true) :
    ∃ t, exec (.handbackRequest h) s = .next t ∧ t.taken h = true ∧ (t.head h).band.handback = true ∧
      (t.head (partner h)).ops = (s.head (partner h)).ops.filter fun o => !o.onBand h := by
  have hframe := requestHandback_frame (fresh s).flushAsm h
  obtain ⟨t, ht, same⟩ := doneQW_quiet hserved (f := fun t => t.requestHandback h) (hostQuiet_of_parts hquiet
    ((unmasked hframe.hqi (by decide +kernel)).trans (by simp)) ((unmasked hframe.vols (by decide +kernel)).trans (by simp)))
  obtain ⟨hbit, hband, hops⟩ := requestHandback_served (s := (fresh s).flushAsm) h.isLt ((moving_flushAsm s h).trans hmoving)
    ((unserved_flushAsm s h).trans hun) ((taken_flushAsm s h).trans htaken) ((eligible_flushAsm s h).trans heligible)
  refine ⟨t, ht, (same.bitF ..).trans hbit, ?_, ?_⟩
  · rw [head_of_heads same.heads, hband]
  · rw [head_of_heads same.heads, hops, head_flushAsm, head_fresh]

theorem handbackDone_next {s : State} (hheld : s.pwr.held = []) (h : Fin 32) (hback : (s.head h).band.handback = true)
    (hworks : s.worksOn (partner h) h = false) :
    ∃ t, exec (.handbackDone h) s = .next t ∧ Same ((fresh s).handbackDone h).advance t := by
  obtain ⟨t, ht, same⟩ := doneQ_next hheld fun t =>
    if (t.head h).band.handback && !t.worksOn (partner h) h then t.handbackDone h else t
  have hworks' : (fresh s).worksOn (partner h) h = false := hworks
  rw [if_pos (by simp [hback, hworks'])] at same
  exact ⟨t, ht, same⟩

theorem handbackDone_returns {s : State} (hheld : s.pwr.held = []) (h : Fin 32) (hback : (s.head h).band.handback = true)
    (hworks : s.worksOn (partner h) h = false) :
    ∃ t, exec (.handbackDone h) s = .next t ∧ t.isSet F.GLB_EVT_HANDBACK_DONE 0 = true ∧ t.taken h = false := by
  obtain ⟨t, ht, same⟩ := handbackDone_next hheld h hback hworks
  obtain ⟨hevent, htaken⟩ := marks_handbackDone (fresh s) h.isLt
  refine ⟨t, ht, ?_, ?_⟩
  · rw [same.isSet, isSet_advance _ (by decide) (by decide +kernel), hevent]
  · rw [State.taken, same.bitF, bitF_advance _ (by decide) (by decide +kernel)]
    exact htaken

theorem issueWaiting_of_none {s : State} (hnone : s.asy.waiting = []) : s.issueWaiting = s := by
  rw [State.issueWaiting, hnone]
  rfl

theorem handbackDone_complete {s : State} (hheld : s.pwr.held = []) (hquiet : s.HostQuiet) (h : Fin 32)
    (hback : (s.head h).band.handback = true) (hworks : s.worksOn (partner h) h = false) (hwait : s.asy.waiting = []) :
    ∃ t, exec (.handbackDone h) s = .next t ∧ t.isSet F.GLB_EVT_HANDBACK_DONE 0 = true ∧ t.taken h = false ∧
      (t.head h).band.handback = false := by
  obtain ⟨t, ht, same⟩ := handbackDone_next hheld h hback hworks
  have hframe := handbackDone_frame (fresh s) h
  rw [advance_of_quiet (hostQuiet_of_parts hquiet (unmasked hframe.hqi (by decide +kernel))
    (unmasked hframe.vols (by decide +kernel)))] at same
  obtain ⟨hevent, htaken⟩ := marks_handbackDone (fresh s) h.isLt
  refine ⟨t, ht, (same.isSet ..).trans hevent, (same.bitF ..).trans htaken, ?_⟩
  rw [head_of_heads same.heads, State.handbackDone, issueWaiting_of_none, head_raise, head_updBand_same _ _ h.isLt]
  exact hwait

/-! ### TAKEOVER_PARTNER_FREE and SEEK_REISSUE -/

/-- The seek that is issued waits at the partner; the home head is as before. -/
theorem takeoverSeek_heads (s : State) {h : Nat} (hh : h < 32) :
    (s.takeoverSeek h).head h = s.head h ∧
      ∃ o ∈ ((s.takeoverSeek h).head (partner h)).ops, o.kind = .takeoverSeek ∧ o.vol = deckOfHead h := by
  rw [State.takeoverSeek]
  refine ⟨head_issue_other _ _ (partner_ne h), ?_⟩
  rw [head_issue_same _ _ (partner_lt hh)]
  exact ⟨_, mem_insertOp _ _, rfl, rfl⟩

/-- The partner is free: its learner is seeded, and where nothing is copied the seek begins. -/
theorem takeoverPartnerFree_next {s : State} (hheld : s.pwr.held = []) (hquiet : s.HostQuiet) (h : Fin 32)
    (hwaits : (s.head h).band.take = .waitPartner) (hfree : s.partnerFree h = true) :
    ∃ t, exec (.takeoverPartnerFree h) s = .next t ∧
      Same ((((fresh s).updBand h fun b => { b with take := .seeding }).takeoverSeed h (partner h)).seededSeek h) t := by
  obtain ⟨t, ht, same⟩ := doneQ_next hheld fun t =>
    if decide ((t.head h).band.take = .waitPartner) && t.partnerFree h then
      ((t.updBand h fun b => { b with take := .seeding }).takeoverSeed h (partner h)).seededSeek h
    else t
  have hfree' : (fresh s).partnerFree h = true := hfree
  rw [if_pos (by simp [hwaits, hfree'])] at same
  have hseed := takeoverSeed_frame ((fresh s).updBand h fun b => { b with take := .seeding }) h (partner h)
  have hseek := seededSeek_frame (((fresh s).updBand h fun b => { b with take := .seeding }).takeoverSeed h (partner h)) h
  rw [advance_of_quiet (hostQuiet_of_parts hquiet
    ((unmasked hseek.hqi (by decide +kernel)).trans (unmasked hseed.hqi (by decide +kernel)))
    ((unmasked hseek.vols (by decide +kernel)).trans (unmasked hseed.vols (by decide +kernel))))] at same
  exact ⟨t, ht, same⟩

/-- Loop i of the partner is to be seeded from the head's. -/
def seeds (s : State) (h i : Nat) : Prop :=
  s.getF F.LRN_LOOP_STATUS_REVS (lrnIdx (partner h) i) < s.seedMin (partner h) ∧
    s.seedMin (partner h) ≤ s.getF F.LRN_LOOP_STATUS_REVS (lrnIdx h i)

/-- The turn of loop i of the partner. -/
def seedTurn (h : Nat) (t : State) (i : Nat) : State :=
  if t.seedMin (partner h) ≤ t.getF F.LRN_LOOP_STATUS_REVS (lrnIdx (partner h) i) then t
  else if t.seedMin (partner h) ≤ t.getF F.LRN_LOOP_STATUS_REVS (lrnIdx h i) then
    (t.seedStart (partner h) i h).updLrnLoop (partner h) i fun l => { l with forBand := true }
  else t

theorem takeoverSeed_eq (s : State) (h : Nat) : s.takeoverSeed h (partner h) = seedTurn h (seedTurn h s 0) 1 := rfl

theorem seedTurn_of_none {s : State} {h i : Nat} (hnone : ¬ seeds s h i) : seedTurn h s i = s := by
  unfold seedTurn
  split
  · rfl
  next hlow => exact if_neg fun hsrc => hnone ⟨by omega, hsrc⟩

theorem seedTurn_regs (s : State) (h i : Nat) : (seedTurn h s i).regs = s.regs := by
  unfold seedTurn
  split_ifs <;> rfl

theorem seeds_congr {s t : State} (hregs : t.regs = s.regs) (h i : Nat) : seeds t h i ↔ seeds s h i := by
  have hget : ∀ f j, t.getF f j = s.getF f j := fun f j => by rw [State.getF, hregs, State.getF]
  simp only [seeds, State.seedMin, hget]

theorem head_seedTurn (s : State) (h i : Nat) : (seedTurn h s i).head h = s.head h := by
  have hp := partner_ne h
  unfold seedTurn
  split_ifs
  · rfl
  · rw [head_updLrnLoop_other _ _ hp, State.seedStart, head_updLrnLoop_other _ _ hp]
  · rfl

/-- A seeded loop of the partner copies from the head. -/
theorem lrnLoop_seedTurn_same {s : State} {h i : Nat} (hh : h < 32) (hi : i < 2) (hseeds : seeds s h i) :
    ((seedTurn h s i).lrnLoop (partner h) i).copy = some (h, 0) ∧ ((seedTurn h s i).lrnLoop (partner h) i).forBand = true := by
  obtain ⟨hlow, hsrc⟩ := hseeds
  rw [seedTurn, if_neg (by omega), if_pos hsrc, lrnLoop_updLrnLoop_same _ _ (partner_lt hh) hi, State.seedStart,
    lrnLoop_updLrnLoop_same _ _ (partner_lt hh) hi]
  exact ⟨rfl, rfl⟩

theorem lrnLoop_seedTurn_other (s : State) {h i j : Nat} (hh : h < 32) (hne : i ≠ j) :
    (seedTurn h s i).lrnLoop (partner h) j = s.lrnLoop (partner h) j := by
  unfold seedTurn
  split_ifs
  · rfl
  · rw [lrnLoop_updLrnLoop_other _ _ (partner_lt hh) hne, State.seedStart, lrnLoop_updLrnLoop_other _ _ (partner_lt hh) hne]
  · rfl

/-- After step 4 a loop that is to be seeded copies from the head for the band, and another is as before. -/
theorem lrnLoop_takeoverSeed {s : State} {h : Nat} (hh : h < 32) (i : Fin 2) (hseeds : seeds s h i) :
    ((s.takeoverSeed h (partner h)).lrnLoop (partner h) i).copy = some (h, 0) ∧
      ((s.takeoverSeed h (partner h)).lrnLoop (partner h) i).forBand = true := by
  rw [takeoverSeed_eq]
  match i with
  | 0 =>
    rw [show ((0 : Fin 2) : Nat) = 0 from rfl, lrnLoop_seedTurn_other _ hh (by decide)]
    exact lrnLoop_seedTurn_same hh (by decide) hseeds
  | 1 => exact lrnLoop_seedTurn_same hh (by decide) ((seeds_congr (seedTurn_regs s h 0) h 1).2 hseeds)

theorem takeoverSeed_of_none {s : State} {h : Nat} (hnone : ∀ i < 2, ¬ seeds s h i) : s.takeoverSeed h (partner h) = s := by
  rw [takeoverSeed_eq, seedTurn_of_none (hnone 0 (by decide)), seedTurn_of_none (hnone 1 (by decide))]

/-- Nothing to seed: the takeover seek begins. -/
theorem takeoverPartnerFree_seeks {s : State} (hheld : s.pwr.held = []) (hquiet : s.HostQuiet) (h : Fin 32)
    (hwaits : (s.head h).band.take = .waitPartner) (hfree : s.partnerFree h = true) (hseeds : s.bandSeeds (partner h) = false)
    (hnone : ∀ i < 2, ¬ seeds s h i) :
    ∃ t, exec (.takeoverPartnerFree h) s = .next t ∧ (t.head h).band.take = .seeking 0 ∧
      ∃ o ∈ (t.head (partner h)).ops, o.kind = .takeoverSeek ∧ o.vol = deckOfHead h := by
  obtain ⟨t, ht, same⟩ := takeoverPartnerFree_next hheld hquiet h hwaits hfree
  have hhead : ((fresh s).updBand h fun b => { b with take := .seeding }).head (partner h) = s.head (partner h) :=
    head_updBand_other _ _ (partner_ne h).symm
  have hseeds' : ((fresh s).updBand h fun b => { b with take := .seeding }).bandSeeds (partner h) = false := by
    unfold State.bandSeeds State.lrnLoop State.lrn
    rw [hhead]
    exact hseeds
  rw [takeoverSeed_of_none (s := (fresh s).updBand h fun b => { b with take := .seeding }) hnone, State.seededSeek, if_pos (by
    rw [hseeds', head_updBand_same _ _ h.isLt]
    rfl)] at same
  refine ⟨t, ht, ?_⟩
  obtain ⟨hhome, o, ho, hkind⟩ := takeoverSeek_heads
    (((fresh s).updBand h fun b => { b with take := .seeding }).updBand h fun b => { b with take := .seeking 0 }) h.isLt
  rw [head_of_heads same.heads, head_of_heads same.heads]
  refine ⟨?_, o, ho, hkind⟩
  rw [hhome, head_updBand_same _ _ h.isLt]

/-- A loop of the partner is seeded: the seek waits. -/
theorem takeoverPartnerFree_seeds {s : State} (hheld : s.pwr.held = []) (hquiet : s.HostQuiet) (h : Fin 32) (i : Fin 2)
    (hwaits : (s.head h).band.take = .waitPartner) (hfree : s.partnerFree h = true) (hseeds : seeds s h i) :
    ∃ t, exec (.takeoverPartnerFree h) s = .next t ∧ (t.head h).band.take = .seeding ∧
      (t.lrnLoop (partner h) i).copy = some (h.val, 0) := by
  obtain ⟨t, ht, same⟩ := takeoverPartnerFree_next hheld hquiet h hwaits hfree
  obtain ⟨hcopy, hband⟩ := lrnLoop_takeoverSeed (s := (fresh s).updBand h fun b => { b with take := .seeding }) h.isLt i hseeds
  have hcopies : (((fresh s).updBand h fun b => { b with take := .seeding }).takeoverSeed h (partner h)).bandSeeds (partner h) =
      true := by
    rw [State.bandSeeds, List.any_eq_true]
    refine ⟨i.val, ?_, by simp [hcopy, hband]⟩
    match i with
    | 0 => exact List.mem_cons_self
    | 1 => exact List.mem_cons_of_mem _ List.mem_cons_self
  rw [State.seededSeek, if_neg (by simp [hcopies])] at same
  refine ⟨t, ht, ?_, ?_⟩
  · rw [head_of_heads same.heads, takeoverSeed_eq, head_seedTurn, head_seedTurn, head_updBand_same _ _ h.isLt]
  · rw [State.lrnLoop, State.lrn, head_of_heads same.heads]
    exact hcopy

theorem seekReissue_issues {s : State} (hheld : s.pwr.held = []) (hquiet : s.HostQuiet) (h : Fin 32) {n : Nat}
    (hseeks : (s.head h).band.take = .seeking n) (hunder : s.seekUnderWay (partner h) = false)
    (hidle : s.idlePoint (partner h) = true) :
    ∃ t, exec (.seekReissue h) s = .next t ∧ (t.head h).band.take = .seeking n ∧
      ∃ o ∈ (t.head (partner h)).ops, o.kind = .takeoverSeek ∧ o.vol = deckOfHead h := by
  obtain ⟨t, ht, same⟩ := doneQ_next hheld fun t =>
    match (t.head h).band.take with
    | .seeking _ => if t.seekUnderWay (partner h) || !t.idlePoint (partner h) then t else t.takeoverSeek h
    | _ => t
  have hunder' : (fresh s).seekUnderWay (partner h) = false := hunder
  have hidle' : (fresh s).idlePoint (partner h) = true := hidle
  simp only [head_fresh, hseeks, hunder', hidle', Bool.not_true, Bool.or_self, Bool.false_eq_true, if_false] at same
  have hframe := takeoverSeek_frame (fresh s) h
  rw [advance_of_quiet (hostQuiet_of_parts hquiet (unmasked hframe.hqi (by decide +kernel))
    (unmasked hframe.vols (by decide +kernel)))] at same
  obtain ⟨hhome, hop⟩ := takeoverSeek_heads (fresh s) h.isLt
  refine ⟨t, ht, ?_⟩
  rw [head_of_heads same.heads, head_of_heads same.heads, hhome]
  exact ⟨hseeks, hop⟩

/-- Settles O12: one lemma per row, above. -/
theorem routingRows : Obligations.RoutingRows := by
  intro s h
  refine ⟨fun hserved htaken hmoving htakenP hmovingP hready hfit =>
      takeoverRequest_starts hserved h ⟨htaken, hmoving, htakenP, hmovingP, hready, hfit⟩,
    fun hserved htaken hunfit => takeoverRequest_refused hserved h htaken hunfit,
    fun hserved => handbackRequest_of_unserved hserved h,
    fun hheld hback hworks => handbackDone_returns hheld h hback hworks,
    fun hheld hquiet hwaits hfree hseeds hrevs => ?_, fun n hheld hquiet hseeks hunder hidle => ?_⟩
  · obtain ⟨t, ht, htake, o, ho, hkind, -⟩ := takeoverPartnerFree_seeks hheld hquiet h hwaits hfree hseeds
      fun i hi hcopy => absurd hcopy.1 (not_lt.2 (hrevs i hi))
    exact ⟨t, ht, htake, o, ho, hkind⟩
  · obtain ⟨t, ht, -, o, ho, hkind, -⟩ := seekReissue_issues hheld hquiet h hseeks hunder hidle
    exact ⟨t, ht, o, ho, hkind⟩

/-- Settles O13: the lemmas of O12 with the band's part and the partner's queue. -/
theorem takeoverRowsComplete : Obligations.TakeoverRowsComplete := by
  intro s h hserved hquiet
  have hheld := held_of_served hserved
  refine ⟨fun htaken hmoving htakenP hmovingP hready hfit =>
      takeoverRequest_complete hserved hquiet h ⟨htaken, hmoving, htakenP, hmovingP, hready, hfit⟩,
    handbackRequest_of_served hserved hquiet h, handbackDone_complete hheld hquiet h, fun hwaits hfree hseeds hrevs =>
      takeoverPartnerFree_seeks hheld hquiet h hwaits hfree hseeds fun i hi hcopy => ?_,
    fun i hwaits hfree hlow hsrc => takeoverPartnerFree_seeds hheld hquiet h i hwaits hfree ⟨hlow, hsrc⟩,
    fun n => seekReissue_issues hheld hquiet h⟩
  obtain ⟨hlow, hsrc⟩ := hcopy
  obtain hhigh | hfew := hrevs i hi
  · exact absurd hlow (not_lt.2 hhigh)
  · exact absurd hsrc (not_le.2 hfew)

end Sys2Proof.Proofs
end

section
/-!
PROOFS. What the Collier's shared operations leave in the head's state, phase, sequence and loops.
-/
set_option Elab.async false

namespace Sys2Proof.Laws

open Sys2Proof.Machine

/-- Whether operations are frozen, after a frame that names none of what freezes them. -/
theorem Frame.frozen {m : Nat} {s t : State} (hframe : Frame m s t) (hstate : m.testBit F.HIF_CONTAIN_STATE.id = false)
    (hcfg : m.testBit 12 = false) (hhif : m.testBit 3 = false) : t.frozen = s.frozen := by
  obtain ⟨p, hp⟩ := unmasked hframe.hif hhif
  rw [State.frozen, State.contained, hframe.getF (by decide) hstate, State.verifying, unmasked hframe.cfg hcfg, hp]
  rfl

section
variable (s : State) {h i : Nat}

/-! ### Sequences and loops -/

theorem cl_updClr_same (f : ClrS → ClrS) (hh : h < 32) : (s.updClr h f).cl h = f (s.cl h) := by
  rw [State.cl, head_updClr_same s f hh]

theorem cl_setSeq_same (q : Option SeqStep) (hh : h < 32) : (s.setSeq h q).cl h = { s.cl h with seq := q } :=
  cl_updClr_same s (fun c => { c with seq := q }) hh

theorem op_setSeq (q : Option SeqStep) (hh : h < 32) : ((s.setSeq h q).head h).op = (s.head h).op := by
  unfold State.setSeq
  rw [head_setF, head_updClr_same _ _ hh]

theorem phase_setSeq (q : SeqStep) : (s.setSeq h (some q)).getF F.CLR_STATUS_PHASE h = q.phase := by
  have hlt : q.phase < 2 ^ F.CLR_STATUS_PHASE.width := by
    unfold SeqStep.phase
    split <;> (try split) <;> decide
  exact (getF_setF ..).trans (Nat.mod_eq_of_lt hlt)

theorem phase_setSeq_none : (s.setSeq h none).getF F.CLR_STATUS_PHASE h = 0 := by
  rw [State.setSeq, getF_setF]
  rfl

theorem closed_closeLoop (acc : Option Int) (fresh : Bool) : (s.closeLoop h i acc fresh).closed h i = true := by
  rw [State.closeLoop, State.closed]
  exact isSet_setB_same _ _ _ _ (by decide)

/-- Focus opens: the loop, and FOCUS_OK with it (R113). -/
theorem openLoop_focus : (s.openLoop h 0).closed h 0 = false ∧ (s.openLoop h 0).isSet F.CLR_STATUS_FOCUS_OK h = false := by
  rw [State.openLoop, if_pos rfl]
  constructor
  · rw [State.closed, isSet_setB_other _ _ (by decide)]
    exact isSet_setB_same _ _ _ _ (by decide)
  · exact isSet_setB_same _ _ _ _ (by decide)

/-! ### Entering a head state -/

/-- A head put into a state is in it. -/
theorem clr_setClr {new : Nat} (hnew : new < 16) : (s.setClr h new).clr h = new := by
  have hset : (s.setF F.CLR_STATUS_STATE h new).getF F.CLR_STATUS_STATE h = new := by
    rw [getF_setF]
    exact Nat.mod_eq_of_lt hnew
  rw [State.clr, State.setClr]
  dsimp only
  simp (disch := decide +kernel) only [getF_ite, (chanFollow_frame ..).getF, (axisHeadOff_frame ..).getF,
    (startPower_frame ..).getF, (retract_frame ..).getF, (axisOn_frame ..).getF, (axisHeadParked_frame ..).getF,
    (clearLo_frame ..).getF, (loseTrack_frame ..).getF, (flushLink_frame ..).getF, (axisHeadSafe_frame ..).getF, getF_updClr,
    (setSeq_frame ..).getF, getF_setB_other, (lrnEnter_frame ..).getF, hset, ite_self]

/-- The head enters FOLLOW without an action on its loops. -/
theorem setClr_follow : s.setClr h hdFOLLOW =
    (if s.clr h = hdHOLD then
      (((s.setF F.CLR_STATUS_STATE h hdFOLLOW).setB F.CLR_STATUS_PERMIT h false).lrnEnter h (s.clr h) hdFOLLOW).setB
        F.CLR_STATUS_HOLD_OVR h false
    else ((s.setF F.CLR_STATUS_STATE h hdFOLLOW).setB F.CLR_STATUS_PERMIT h false).lrnEnter h (s.clr h) hdFOLLOW).chanFollow h := by
  rw [State.setClr]
  obtain hold | hold := eq_or_ne (s.clr h) 7 <;> simp [hold, hdFOLLOW, hdOFF, hdPARKED, hdACQUIRE, hdSAFE, hdHOLD]

/-- A seed is a matter of the head's learner. -/
theorem op_autoSeed (g j : Nat) : ((s.autoSeed g j).head h).op = (s.head h).op := by
  unfold State.autoSeed
  dsimp only
  split
  · exact part_setHead s HeadS.op _ rfl
  · rfl

theorem op_lrnEnter (g old new : Nat) : ((s.lrnEnter g old new).head h).op = (s.head h).op := by
  have hentered : ∀ (u : State) (f : LrnS → LrnS), ((u.updLrn g f).head h).op = (u.head h).op := fun u f =>
    part_setHead u HeadS.op _ rfl
  unfold State.lrnEnter
  dsimp only
  split <;> split <;> simp only [op_autoSeed, hentered]

theorem op_setClr_follow : ((s.setClr h hdFOLLOW).head h).op = (s.head h).op := by
  rw [setClr_follow, (chanFollow_frame _ _).head (by decide +kernel)]
  split <;> simp only [head_setB, head_setF, op_lrnEnter]

/-- Entering FOLLOW moves no lens and no track. -/
theorem getF_setClr_follow {f : Field}
    (hf : f ∈ [F.CLR_POS_LAYER, F.CLR_POS_TRACK, F.CLR_STATUS_TRK_VALID, F.CLR_POS_EST, F.CLR_STATUS_PHASE, F.CLR_STATUS_TF]) :
    (s.setClr h hdFOLLOW).getF f h = s.getF f h := by
  have hfar : ∀ f ∈ [F.CLR_POS_LAYER, F.CLR_POS_TRACK, F.CLR_STATUS_TRK_VALID, F.CLR_POS_EST, F.CLR_STATUS_PHASE, F.CLR_STATUS_TF],
      f.id < 20000 ∧ W.chanFollow.testBit f.id = false ∧ W.lrnEnter.testBit f.id = false ∧ F.CLR_STATUS_STATE.id ≠ f.id ∧
        F.CLR_STATUS_PERMIT.id ≠ f.id ∧ F.CLR_STATUS_HOLD_OVR.id ≠ f.id := by
    decide +kernel
  obtain ⟨hl, hchan, hlrn, hstate, hpermit, hovr⟩ := hfar f hf
  rw [setClr_follow, (chanFollow_frame _ _).getF hl hchan, getF_ite, getF_setB_other _ _ hovr, ite_self,
    (lrnEnter_frame ..).getF hl hlrn, getF_setB_other _ _ hpermit, getF_setF_other _ _ hstate]

end

end Sys2Proof.Laws
end

section
/-!
PROOFS. The Collier's rows (05): coefficient commit, enable, disable and fault reset; read power, media operations, jumps, seeks,
hops and HOLD.
-/
set_option Elab.async false

namespace Sys2Proof.Proofs

open Sys2Proof.Machine Sys2Proof.Laws

/-! ### Coefficients, enable, disable, fault reset -/

theorem coefCommit_next {s : State} (hserved : s.pf1Served = true) (h : Fin 32) (zero : Bool) :
    ∃ t, exec (.coefCommit h zero) s = .next t ∧ t.isSet F.CLR_COEF_COMMIT_PEND h = true ∧
      t.isSet F.CLR_STATUS_COMMIT_PEND h = true ∧ (zero = true → t.isSet F.CLR_COEF_COMMIT_ZERO_STATE h = true) := by
  obtain ⟨t, ht, same⟩ := doneW_next hserved fun t => t.commitCoef h zero
  refine ⟨t, ht, ?_, ?_, fun hzero => ?_⟩
  · rw [same.isSet, State.commitCoef]
    simp (disch := decide +kernel) [isSet_onlyIf]
  · rw [same.isSet, State.commitCoef]
    simp (disch := decide +kernel) [isSet_onlyIf]
  · rw [same.isSet, State.commitCoef, hzero]
    simp (disch := decide +kernel) [isSet_onlyIf]

theorem collierEnable_next {s : State} (hserved : s.pf1Served = true) (h : Fin 32) (hoff : s.clr h = hdOFF)
    (hlink : s.linkUp h = true) :
    ∃ t, exec (.collierEnable h) s = .next t ∧ t.clr h = hdPARKED ∧ t.isSet F.CLR_CTL_EN h = true := by
  obtain ⟨t, ht, same⟩ := doneQW_next hserved fun t => (t.setB F.CLR_CTL_EN h true).headUp h
  have hup : ((fresh s).flushAsm.setB F.CLR_CTL_EN h true).headUp h =
      ((fresh s).flushAsm.setB F.CLR_CTL_EN h true).setClr h hdPARKED := by
    have hclr : ((fresh s).flushAsm.setB F.CLR_CTL_EN h true).clr h = hdOFF := by
      rw [State.clr, getF_setB_other _ _ (by decide)]
      exact (clr_flushAsm s h).trans hoff
    have hlink' : ((fresh s).flushAsm.setB F.CLR_CTL_EN h true).linkUp h = true := by
      simpa (disch := decide +kernel) [State.linkUp] using hlink
    rw [State.headUp, hclr, hlink', isSet_setB_same _ _ _ _ (by decide)]
    rfl
  rw [hup] at same
  refine ⟨t, ht, ?_, ?_⟩
  · rw [State.clr, same.getF, getF_advance _ (by decide) (by decide +kernel)]
    exact clr_setClr _ (by decide)
  · rw [same.isSet, isSet_advance _ (by decide) (by decide +kernel), (setClr_frame ..).isSet (by decide) (by decide +kernel),
      isSet_setB_same _ _ _ _ (by decide)]

theorem clr_headOff {s : State} {h : Nat} (hsafe : s.clr h ≠ hdSAFE) : (s.headOff h).clr h = hdOFF := by
  unfold State.headOff
  by_cases hoff : s.clr h = hdOFF
  · rw [if_pos (by simp [hoff]), hoff]
  · rw [if_neg (by simp [hoff, hsafe])]
    exact clr_setClr _ (by decide)

theorem collierDisable_next {s : State} (hserved : s.pf1Served = true) (h : Fin 32) (hsafe : s.clr h ≠ hdSAFE) :
    ∃ t, exec (.collierDisable h) s = .next t ∧ t.clr h = hdOFF ∧ t.isSet F.CLR_CTL_EN h = false := by
  obtain ⟨t, ht, same⟩ := doneQW_next hserved fun t => (t.setB F.CLR_CTL_EN h false).headOff h
  refine ⟨t, ht, ?_, ?_⟩
  · rw [State.clr, same.getF, getF_advance _ (by decide) (by decide +kernel)]
    refine clr_headOff ?_
    rw [State.clr, getF_setB_other _ _ (by decide)]
    exact fun hclr => hsafe ((clr_flushAsm s h).symm.trans hclr)
  · rw [same.isSet, isSet_advance _ (by decide) (by decide +kernel), (headOff_frame ..).isSet (by decide) (by decide +kernel),
      isSet_setB_same _ _ _ _ (by decide)]

theorem headFaultReset_next {s : State} (hserved : s.pf1Served = true) (h : Fin 32) (hsafe : s.clr h = hdSAFE) :
    ∃ t, exec (.headFaultReset h) s = .next t ∧ t.clr h = hdOFF ∧ t.bitF F.GLB_HEAD_FAULT_HEAD 0 h = false ∧
      t.getF F.TCK_CLR_OVR_RECENT h = 0 := by
  obtain ⟨t, ht, same⟩ := doneQW_next hserved fun t => t.faultReset h
  have hsafe' : (fresh s).flushAsm.clr h = hdSAFE := (clr_flushAsm s h).trans hsafe
  rw [State.faultReset, if_neg (by simp [hsafe'])] at same
  refine ⟨t, ht, ?_, ?_, ?_⟩
  · rw [State.clr, same.getF, getF_advance _ (by decide) (by decide +kernel), State.resetSource, getF_setF_other _ _ (by decide),
      getF_setB_other _ _ (by decide), (linkAgain_frame ..).getF (by decide) (by decide +kernel)]
    exact clr_setClr _ (by decide)
  · rw [same.bitF, bitF_advance _ (by decide) (by decide +kernel), State.resetSource, bitF_setF_other _ _ _ (by decide),
      bitF_setB_other _ _ _ (by decide),
      (linkAgain_frame ..).bitF (by decide) (by decide +kernel), (setClr_frame ..).bitF (by decide) (by decide +kernel), bitF_updBand]
    exact bitF_putF_same _ F.GLB_HEAD_FAULT_HEAD 0 h false h.isLt
  · rw [same.getF, getF_advance _ (by decide) (by decide +kernel), State.resetSource, getF_setF_other _ _ (by decide),
      getF_setB_other _ _ (by decide),
      (linkAgain_frame ..).getF (by decide) (by decide +kernel), (setClr_frame ..).getF (by decide) (by decide +kernel), getF_updBand,
      getF_putF_other _ _ _ (by decide), (clearSat_frame ..).getF (by decide) (by decide +kernel), State.clearOvr, getF_setF]
    rfl

/-- The copy ends the commit, whether section states are cleared or not. -/
theorem coefCopy_reads (s : State) (h : Nat) :
    (s.coefCopy h).isSet F.CLR_COEF_COMMIT_PEND h = false ∧ (s.coefCopy h).isSet F.CLR_STATUS_COMMIT_PEND h = false ∧
      (s.coefCopy h).isSet F.CLR_COEF_COMMIT_ZERO_STATE h = false := by
  unfold State.coefCopy
  dsimp only
  generalize s.forEach (List.range 185) _ = u
  have hended : ∀ v : State, v = ((u.setB F.CLR_COEF_COMMIT_PEND h false).setB F.CLR_STATUS_COMMIT_PEND h false).setB
      F.CLR_COEF_COMMIT_ZERO_STATE h false → v.isSet F.CLR_COEF_COMMIT_PEND h = false ∧ v.isSet F.CLR_STATUS_COMMIT_PEND h = false ∧
      v.isSet F.CLR_COEF_COMMIT_ZERO_STATE h = false := by
    intro v hv
    rw [hv]
    simp (disch := decide +kernel)
  have hloops : ∀ v : State, Frame W.updLoop v (v.forEach [0, 1, 2] fun t i =>
      t.updLoop h i fun l => { l with sos := List.replicate 12 (0, 0) }) := fun v => frame_forEach (fun t i => updLoop_frame ..) _ _
  split
  · rw [isSet_updClr, isSet_updClr, isSet_updClr, (hloops _).isSet (by decide) (by decide +kernel),
      (hloops _).isSet (by decide) (by decide +kernel), (hloops _).isSet (by decide) (by decide +kernel)]
    exact hended _ rfl
  · exact hended _ rfl

theorem coefCopy_next {s : State} (hheld : s.pwr.held = []) (h : Fin 32) (hpend : s.isSet F.CLR_COEF_COMMIT_PEND h = true)
    (hwrite : s.clr h ≠ hdWRITE) :
    ∃ t, exec (.coefCopy h) s = .next t ∧ t.isSet F.CLR_COEF_COMMIT_PEND h = false ∧
      t.isSet F.CLR_STATUS_COMMIT_PEND h = false ∧ t.isSet F.CLR_COEF_COMMIT_ZERO_STATE h = false := by
  obtain ⟨t, ht, same⟩ := done_next hheld fun t => if t.isSet F.CLR_COEF_COMMIT_PEND h && t.clr h != hdWRITE then t.coefCopy h else t
  have hwrite' : (fresh s).clr h ≠ hdWRITE := hwrite
  rw [if_pos (by simp [hpend, hwrite'])] at same
  refine ⟨t, ht, ?_⟩
  rw [same.isSet, same.isSet, same.isSet]
  exact coefCopy_reads _ h

/-- Settles O14: one lemma per row, above. -/
theorem collierCommandRows : Obligations.CollierCommandRows := fun _ h =>
  ⟨fun zero hserved => coefCommit_next hserved h zero, fun hserved => collierEnable_next hserved h,
    fun hserved => collierDisable_next hserved h, fun hserved => headFaultReset_next hserved h, fun hheld => coefCopy_next hheld h⟩

/-! ### Read power -/

/-- Within its limits the code moves by one step against the error beyond the band. -/
theorem rpEvaluation_next {s : State} (hheld : s.pwr.held = []) (h : Fin 32) {ldm : Nat} (hldm : (s.link h).ldm = some ldm)
    (hdue : s.rpDue h = true) (hmin : s.getF F.CLR_RP_LIM_MIN h ≤ s.getF F.CLR_RP_STATUS_CODE h)
    (hmax : s.getF F.CLR_RP_STATUS_CODE h ≤ s.getF F.CLR_RP_LIM_MAX h) (hlim : s.getF F.CLR_RP_LIM_MAX h < 1024) :
    ∃ t, exec (.rpEvaluation h) s = .next t ∧
      (s.getF F.CLR_RP_CTL_TARGET h + s.getF F.CLR_RP_CTL_BAND h < ldm → s.getF F.CLR_RP_LIM_MIN h < s.getF F.CLR_RP_STATUS_CODE h →
        t.getF F.CLR_RP_STATUS_CODE h = s.getF F.CLR_RP_STATUS_CODE h - 1) ∧
      (ldm + s.getF F.CLR_RP_CTL_BAND h < s.getF F.CLR_RP_CTL_TARGET h → s.getF F.CLR_RP_STATUS_CODE h < s.getF F.CLR_RP_LIM_MAX h →
        t.getF F.CLR_RP_STATUS_CODE h = s.getF F.CLR_RP_STATUS_CODE h + 1) := by
  obtain ⟨t, ht, same⟩ := done_next hheld fun t => if t.rpDue h then t.rpEvaluate h else t
  rw [if_pos (show (fresh s).rpDue h = true from hdue)] at same
  have hldm' : ((fresh s).link h).ldm = some ldm := hldm
  have hcode : ∀ n : Nat, n < 1024 → n % 2 ^ F.CLR_RP_STATUS_CODE.width = n := fun n hn => Nat.mod_eq_of_lt hn
  refine ⟨t, ht, fun habove hlow => ?_, fun hbelow hhigh => ?_⟩ <;> rw [same.getF, State.rpEvaluate]
  · simp (disch := decide +kernel) only [hldm', getF_onlyIf, getF_raise_other, getF_updClr, getF_setF_other, getF_setF, ite_self,
      fresh_getF, Option.getD_some]
    rw [if_pos (by omega), hcode] <;> (unfold clampI; omega)
  · simp (disch := decide +kernel) only [hldm', getF_onlyIf, getF_raise_other, getF_updClr, getF_setF_other, getF_setF, ite_self,
      fresh_getF, Option.getD_some]
    rw [if_neg (by omega), if_pos (by omega), hcode] <;> (unfold clampI; omega)

/-! ### Media operations and acquisition -/

/-- Acquisition begins for a layer. -/
theorem beginAcquire_reads (s : State) (h layer : Nat) :
    (s.beginAcquire h layer).clr h = hdACQUIRE ∧ (s.beginAcquire h layer).getF F.CLR_POS_LAYER h = layer % 16 := by
  constructor
  · rw [State.clr, State.beginAcquire, (driveLoop_frame ..).getF (by decide) (by decide +kernel),
      (setSeq_frame ..).getF (by decide) (by decide +kernel), getF_setF_other _ _ (by decide)]
    exact clr_setClr s (by decide)
  · rw [State.beginAcquire, (driveLoop_frame ..).getF (by decide) (by decide +kernel),
      (setSeq_frame ..).getF (by decide) (by decide +kernel), getF_setF]
    rfl

theorem takeOp_of_parked {s : State} {h : Nat} {o : MediaOp} {rest : List MediaOp} (hops : (s.head h).ops = o :: rest)
    (hparked : s.clr h = hdPARKED) (hop : (s.head h).op = none) (hfrozen : s.frozen = false)
    (hfree : s.isSet F.HQI_CSTS_HELD 0 = false) (hangle : s.angleValid (deckOfHead h) = true) (hkind : o.kind ≠ .park)
    (haxis : s.axisAwaited h = false) :
    s.takeOp h = ((s.setHead h { s.head h with ops := rest, op := some o }).startPower h).beginAcquire h o.layer := by
  have hstart : (s.setHead h { s.head h with ops := rest, op := some o }).clr h = hdPARKED := hparked
  unfold State.takeOp
  rw [hops]
  dsimp only
  rw [State.startOp, if_pos hstart, if_neg hkind]
  simp [State.idlePoint, hparked, hop, hfrozen, hfree, hangle, haxis]

theorem mediaOperationTake_next {s : State} (hheld : s.pwr.held = []) (h : Fin 32) {o : MediaOp} {rest : List MediaOp}
    (hops : (s.head h).ops = o :: rest) (hparked : s.clr h = hdPARKED) (hop : (s.head h).op = none) (hfrozen : s.frozen = false)
    (hfree : s.isSet F.HQI_CSTS_HELD 0 = false) (hangle : s.angleValid (deckOfHead h) = true) (hkind : o.kind ≠ .park)
    (haxis : s.axisAwaited h = false) (hlayer : o.layer < 16) :
    ∃ t, exec (.mediaOperationTake h) s = .next t ∧ t.clr h = hdACQUIRE ∧ t.getF F.CLR_POS_LAYER h = o.layer := by
  obtain ⟨t, ht, same⟩ := doneQ_next hheld fun t => t.takeOp h
  rw [takeOp_of_parked (s := fresh s) hops hparked hop hfrozen hfree hangle hkind haxis] at same
  refine ⟨t, ht, ?_, ?_⟩
  · rw [State.clr, same.getF, getF_advance _ (by decide) (by decide +kernel)]
    exact (beginAcquire_reads ..).1
  · rw [same.getF, getF_advance _ (by decide) (by decide +kernel), (beginAcquire_reads ..).2, Nat.mod_eq_of_lt hlayer]

theorem clr_toParked (s : State) (h : Nat) : (s.toParked h).clr h = hdPARKED := clr_setClr _ (by decide)

theorem acqFail_next {s : State} (hheld : s.pwr.held = []) (h : Fin 32) (hused : s.acqExhausted h = true) :
    ∃ t, exec (.acqFail h) s = .next t ∧ t.clr h = hdPARKED ∧ t.isSet F.CLR_EVT_ACQ_FAIL h = true := by
  obtain ⟨t, ht, same⟩ := doneQ_next hheld fun t => if t.acqExhausted h then (t.raise E.CLR_ACQ_FAIL h).toParked h else t
  rw [if_pos (show (fresh s).acqExhausted h = true from hused)] at same
  refine ⟨t, ht, ?_, ?_⟩
  · rw [State.clr, same.getF, getF_advance _ (by decide) (by decide +kernel)]
    exact clr_toParked _ _
  · rw [same.isSet, isSet_advance _ (by decide) (by decide +kernel), (toParked_frame ..).isSet (by decide) (by decide +kernel)]
    simp (disch := decide +kernel)

/-! ### Jumps and seeks -/

theorem jumpBrake_next {s : State} (hheld : s.pwr.held = []) (h : Fin 32) {a n c k r rep : Nat} {d : Int}
    (hseq : (s.cl h).seq = some (.kick a d n c k r rep)) (hhalf : (n + 1) / 2 ≤ c) :
    ∃ t, exec (.jumpBrake h) s = .next t ∧ (t.cl h).seq = some (.brake a d n c k r rep) ∧ t.getF F.CLR_STATUS_PHASE h = 6 := by
  obtain ⟨t, ht, same⟩ := done_next hheld fun t => t.jumpBrake h
  have hseq' : ((fresh s).cl h).seq = some (.kick a d n c k r rep) := hseq
  rw [State.jumpBrake, hseq'] at same
  dsimp only at same
  rw [if_pos hhalf] at same
  refine ⟨t, ht, ?_, ?_⟩
  · rw [State.cl, head_of_heads same.heads, ← State.cl, cl_setSeq_same _ _ h.isLt]
  · rw [same.getF, phase_setSeq]
    rfl

theorem jumpSettle_next {s : State} (hheld : s.pwr.held = []) (h : Fin 32) {a n c k r rep : Nat} {d : Int}
    (hseq : (s.cl h).seq = some (.brake a d n c k r rep)) (hall : n ≤ c) :
    ∃ t, exec (.jumpSettle h) s = .next t ∧ t.closed h 1 = true ∧ t.getF F.CLR_STATUS_PHASE h = 7 := by
  obtain ⟨t, ht, same⟩ := done_next hheld fun t => t.jumpSettle h
  have hseq' : ((fresh s).cl h).seq = some (.brake a d n c k r rep) := hseq
  rw [State.jumpSettle, hseq'] at same
  dsimp only at same
  rw [if_pos hall] at same
  refine ⟨t, ht, ?_, ?_⟩
  · rw [State.closed, same.isSet, (setSeq_frame ..).isSet (by decide) (by decide +kernel)]
    exact closed_closeLoop _ _ _
  · rw [same.getF, phase_setSeq]
    rfl

/-- HOLD is entered from every state but OFF and SAFE. -/
theorem clr_enterHold {s : State} {h : Nat} (hoff : s.clr h ≠ hdOFF) (hsafe : s.clr h ≠ hdSAFE) (b : Bool) :
    (s.enterHold h b).clr h = hdHOLD := by
  unfold State.enterHold
  dsimp only
  rw [if_neg (by simp [hoff, hsafe]), State.clr, getF_onlyIf, getF_setB_other _ _ (by decide), ite_self]
  split
  next hhold =>
    rw [(interruptOp_frame ..).getF (by decide) (by decide +kernel)]
    exact hhold
  · exact clr_setClr _ (by decide)

/-- A seek that fails puts the head into HOLD, whatever becomes of a takeover. -/
theorem seekFail_reads {s : State} {h : Nat} (hoff : s.clr h ≠ hdOFF) (hsafe : s.clr h ≠ hdSAFE) :
    (s.seekFail h).clr h = hdHOLD ∧ (s.seekFail h).isSet F.CLR_EVT_SEEK_FAIL h = true := by
  have hraise : (s.raise E.CLR_SEEK_FAIL h).clr h = s.clr h := getF_raise_other _ _ (by decide) (by decide)
  have hhold := clr_enterHold (s := s.raise E.CLR_SEEK_FAIL h) (by rwa [hraise]) (by rwa [hraise]) false
  have hevent : ((s.raise E.CLR_SEEK_FAIL h).enterHold h false).isSet F.CLR_EVT_SEEK_FAIL h = true := by
    rw [(enterHold_frame ..).isSet (by decide) (by decide +kernel)]
    simp (disch := decide +kernel)
  unfold State.seekFail
  dsimp only
  generalize (s.raise E.CLR_SEEK_FAIL h).enterHold h false = u at hhold hevent ⊢
  cases (s.head h).op with
  | none => exact ⟨hhold, hevent⟩
  | some o =>
    dsimp only
    split
    · split
      · split
        · exact ⟨((takeoverFails_frame ..).getF (by decide) (by decide +kernel)).trans hhold,
            ((takeoverFails_frame ..).isSet (by decide) (by decide +kernel)).trans hevent⟩
        · exact ⟨hhold, hevent⟩
      · exact ⟨hhold, hevent⟩
    · exact ⟨hhold, hevent⟩

theorem seekFail_next {s : State} (hheld : s.pwr.held = []) (h : Fin 32) (hmissed : s.seekMissed h = true) (hoff : s.clr h ≠ hdOFF)
    (hsafe : s.clr h ≠ hdSAFE) :
    ∃ t, exec (.seekFail h) s = .next t ∧ t.clr h = hdHOLD ∧ t.isSet F.CLR_EVT_SEEK_FAIL h = true := by
  obtain ⟨t, ht, same⟩ := doneQ_next hheld fun t => if t.seekMissed h then t.seekFail h else t
  rw [if_pos (show (fresh s).seekMissed h = true from hmissed)] at same
  obtain ⟨hclr, hevent⟩ := seekFail_reads (s := fresh s) hoff hsafe
  refine ⟨t, ht, ?_, ?_⟩
  · rw [State.clr, same.getF, getF_advance _ (by decide) (by decide +kernel)]
    exact hclr
  · rw [same.isSet, isSet_advance _ (by decide) (by decide +kernel), hevent]

theorem sledArrived_next {s : State} (hheld : s.pwr.held = []) (h : Fin 32) {a rep z : Nat}
    (hseq : (s.cl h).seq = some (.sledMove a rep true z)) (hrests : 2 ≤ z) :
    ∃ t, exec (.sledArrived h) s = .next t ∧ (t.cl h).seq = some (.sledTrack a rep 0) ∧ t.getF F.CLR_STATUS_PHASE h = 4 := by
  obtain ⟨t, ht, same⟩ := done_next hheld fun t =>
    match (t.cl h).seq with
    | some (.sledMove a rep true z) => if 2 ≤ z then t.setSeq h (some (.sledTrack a rep 0)) else t
    | _ => t
  have hseq' : ((fresh s).cl h).seq = some (.sledMove a rep true z) := hseq
  simp only [hseq', if_pos hrests] at same
  refine ⟨t, ht, ?_, ?_⟩
  · rw [State.cl, head_of_heads same.heads, ← State.cl, cl_setSeq_same _ _ h.isLt]
  · rw [same.getF, phase_setSeq]
    rfl

/-- The head enters FOLLOW and rests there: it has no operation, or a seek that has reached its track. -/
theorem enterFollow_reads {s : State} {h : Nat} (hh : h < 32) (hfrozen : s.frozen = false)
    (hrests : ∀ o, (s.head h).op = some o →
      o.kind = .seek ∧ s.getF F.CLR_POS_LAYER h = o.layer ∧ s.atTrack h o.track = true) :
    (s.enterFollow h).clr h = hdFOLLOW ∧ (s.enterFollow h).getF F.CLR_STATUS_PHASE h = 0 := by
  have hfrozen' : ((s.setSeq h none).setClr h hdFOLLOW).frozen = false := by
    rw [(setClr_frame ..).frozen (by decide +kernel) (by decide +kernel) (by decide +kernel),
      (setSeq_frame ..).frozen (by decide +kernel) (by decide +kernel) (by decide +kernel), hfrozen]
  have hfollow : ((s.setSeq h none).setClr h hdFOLLOW).clr h = hdFOLLOW := clr_setClr _ (by decide)
  have hphase : ((s.setSeq h none).setClr h hdFOLLOW).getF F.CLR_STATUS_PHASE h = 0 := by
    rw [getF_setClr_follow _ (by decide), phase_setSeq_none]
  have hop : (((s.setSeq h none).setClr h hdFOLLOW).head h).op = (s.head h).op := by
    rw [op_setClr_follow, op_setSeq _ _ hh]
  have hpos : ∀ f ∈ [F.CLR_POS_LAYER, F.CLR_POS_TRACK, F.CLR_STATUS_TRK_VALID, F.CLR_POS_EST],
      ((s.setSeq h none).setClr h hdFOLLOW).getF f h = s.getF f h := by
    intro f hf
    have hmask : ∀ f ∈ [F.CLR_POS_LAYER, F.CLR_POS_TRACK, F.CLR_STATUS_TRK_VALID, F.CLR_POS_EST],
        f.id < 20000 ∧ W.setSeq.testBit f.id = false := by
      decide +kernel
    rw [getF_setClr_follow _ (List.mem_append_left [F.CLR_STATUS_PHASE, F.CLR_STATUS_TF] hf),
      (setSeq_frame ..).getF (hmask f hf).1 (hmask f hf).2]
  unfold State.enterFollow
  dsimp only
  rw [hfrozen', if_neg Bool.false_ne_true]
  generalize (s.setSeq h none).setClr h hdFOLLOW = u at *
  unfold State.continueOp
  rw [hop]
  cases hcase : (s.head h).op with
  | none => exact ⟨hfollow, hphase⟩
  | some o =>
    obtain ⟨hkind, hlayer, htrack⟩ := hrests o hcase
    have hat : u.atTrack h o.track = true := by
      rw [State.atTrack, State.isSet, State.isSet, hpos _ (by decide), hpos _ (by decide), hpos _ (by decide)]
      exact htrack
    have hvalid : u.isSet F.CLR_STATUS_TRK_VALID h = true := by
      unfold State.atTrack at hat
      simp only [Bool.and_eq_true] at hat
      exact hat.1.1.1
    simp only [hfollow, hkind, hpos F.CLR_POS_LAYER (by decide), hlayer, hvalid, hat, bne_self_eq_false, Bool.false_eq_true, if_false,
      ne_eq, not_true_eq_false, Bool.not_true, reduceCtorEq]
    exact ⟨hfollow, hphase⟩

theorem seekComplete_next {s : State} (hheld : s.pwr.held = []) (h : Fin 32) {o : MediaOp} (hseek : s.clr h = hdSEEK)
    (hended : (s.cl h).seq = some .ended) (htf : s.isSet F.CLR_STATUS_TF h = true) (hfrozen : s.frozen = false)
    (hop : (s.head h).op = some o) (hkind : o.kind = .seek) (hlayer : s.getF F.CLR_POS_LAYER h = o.layer)
    (htrack : s.atTrack h o.track = true) :
    ∃ t, exec (.seekComplete h) s = .next t ∧ t.clr h = hdFOLLOW ∧ t.getF F.CLR_STATUS_PHASE h = 0 := by
  obtain ⟨t, ht, same⟩ := doneQ_next hheld fun t =>
    if t.clr h == hdSEEK && decide ((t.cl h).seq = some .ended) && t.isSet F.CLR_STATUS_TF h then t.enterFollow h else t
  have hseek' : (fresh s).clr h = hdSEEK := hseek
  have hended' : ((fresh s).cl h).seq = some .ended := hended
  rw [if_pos (by simp [hseek', hended', htf])] at same
  obtain ⟨hclr, hphase⟩ := enterFollow_reads (s := fresh s) h.isLt hfrozen (by
    intro o' ho'
    obtain rfl := Option.some.inj (hop.symm.trans ho')
    exact ⟨hkind, hlayer, htrack⟩)
  refine ⟨t, ht, ?_, ?_⟩
  · rw [State.clr, same.getF, getF_advance _ (by decide) (by decide +kernel)]
    exact hclr
  · rw [same.getF, getF_advance _ (by decide) (by decide +kernel), hphase]

/-! ### Layer hops -/

theorem layerHopKick_next {s : State} (hheld : s.pwr.held = []) (h : Fin 32) {a k ok : Nat} {d p : Int}
    (hseq : (s.cl h).seq = some (.hop a d k 0 p ok)) (hdue : s.getF F.CLR_LAYER_CTL_KT h ≤ k) :
    ∃ t, exec (.layerHopKick h) s = .next t ∧ t.closed h 0 = false ∧ t.isSet F.CLR_STATUS_FOCUS_OK h = false ∧
      t.getF F.CLR_STATUS_PHASE h = 9 := by
  obtain ⟨t, ht, same⟩ := done_next hheld fun t => t.hopKick h
  have hseq' : ((fresh s).cl h).seq = some (.hop a d k 0 p ok) := hseq
  unfold State.hopKick at same
  simp only [hseq'] at same
  rw [if_pos (show (fresh s).getF F.CLR_LAYER_CTL_KT h ≤ k from hdue)] at same
  obtain ⟨hclosed, hok⟩ := openLoop_focus (fresh s) (h := h)
  refine ⟨t, ht, ?_, ?_, ?_⟩
  · rw [State.closed, same.isSet, (setSeq_frame ..).isSet (by decide) (by decide +kernel),
      (driveLoop_frame ..).isSet (by decide) (by decide +kernel)]
    exact hclosed
  · rw [same.isSet, (setSeq_frame ..).isSet (by decide) (by decide +kernel),
      (driveLoop_frame ..).isSet (by decide) (by decide +kernel), hok]
  · rw [same.getF, phase_setSeq]
    rfl

theorem layerHopDone_next {s : State} (hheld : s.pwr.held = []) (h : Fin 32) {k ok : Nat} {d p : Int}
    (hseq : (s.cl h).seq = some (.hop (s.getF F.CLR_POS_LAYER h) d k 3 p ok)) (hok : 64 ≤ ok) :
    ∃ t, exec (.layerHopDone h) s = .next t ∧ (t.cl h).seq = some (.hopTrack 0) ∧ t.getF F.CLR_STATUS_PHASE h = 4 := by
  obtain ⟨t, ht, same⟩ := done_next hheld fun t => t.hopDone h
  have hseq' : ((fresh s).cl h).seq = some (.hop (s.getF F.CLR_POS_LAYER h) d k 3 p ok) := hseq
  unfold State.hopDone at same
  simp only [hseq'] at same
  rw [if_neg (by omega), if_pos (fresh_getF ..)] at same
  refine ⟨t, ht, ?_, ?_⟩
  · rw [State.cl, head_of_heads same.heads, ← State.cl, cl_setSeq_same _ _ h.isLt]
  · rw [same.getF, phase_setSeq]
    rfl

theorem layerFail_next {s : State} (hheld : s.pwr.held = []) (h : Fin 32) {a k q ok : Nat} {d p : Int}
    (hseq : (s.cl h).seq = some (.hop a d k q p ok)) (hlate : 4 * s.getF F.CLR_LAYER_CTL_TMO h ≤ k) :
    ∃ t, exec (.layerFail h) s = .next t ∧ t.clr h = hdACQUIRE ∧ t.isSet F.CLR_EVT_LAYER_FAIL h = true := by
  obtain ⟨t, ht, same⟩ := done_next hheld fun t => t.hopLate h
  have hseq' : ((fresh s).cl h).seq = some (.hop a d k q p ok) := hseq
  unfold State.hopLate at same
  rw [hseq'] at same
  dsimp only at same
  rw [if_pos (show 4 * (fresh s).getF F.CLR_LAYER_CTL_TMO h ≤ k from hlate)] at same
  refine ⟨t, ht, ?_, ?_⟩
  · rw [State.clr, same.getF]
    exact (beginAcquire_reads ..).1
  · rw [same.isSet, (beginAcquire_frame ..).isSet (by decide) (by decide +kernel)]
    simp (disch := decide +kernel)

/-! ### Angle loss, position fix, HOLD -/

theorem angleLossPark_next {s : State} (hheld : s.pwr.held = []) (h : Fin 32) (hworks : working (s.clr h) = true)
    (hlost : 400 ≤ (s.cl h).noAngle) : ∃ t, exec (.angleLossPark h) s = .next t ∧ t.clr h = hdPARKED := by
  obtain ⟨t, ht, same⟩ := doneQ_next hheld fun t => if working (t.clr h) && decide (400 ≤ (t.cl h).noAngle) then t.toParked h else t
  have hworks' : working ((fresh s).clr h) = true := hworks
  have hlost' : 400 ≤ ((fresh s).cl h).noAngle := hlost
  rw [if_pos (by simp [hworks', hlost'])] at same
  refine ⟨t, ht, ?_⟩
  rw [State.clr, same.getF, getF_advance _ (by decide) (by decide +kernel)]
  exact clr_toParked _ _

/-- Outside a write cycle a seek that is interrupted is issued again. -/
theorem interruptOp_of_seek {s : State} {h : Nat} {o : MediaOp} (hop : (s.head h).op = some o) (hkind : o.kind = .seek)
    (hcycle : s.wcy h = wsIDLE) : s.interruptOp h true = (s.endOp h).issue h o := by
  have hleave : s.leaveWrite h true = s := by
    unfold State.leaveWrite
    dsimp only
    exact if_pos hcycle
  unfold State.interruptOp
  dsimp only
  rw [hleave, hop]
  simp only [hkind, if_true]

theorem fixTimeout_next {s : State} (hheld : s.pwr.held = []) (h : Fin 32) {o : MediaOp} (hquiet : s.HostQuiet)
    (hwaits : s.waitsFix h = true) (hlong : 4000 ≤ (s.cl h).fixWait) (hop : (s.head h).op = some o) (hkind : o.kind = .seek)
    (hcycle : s.wcy h = wsIDLE) :
    ∃ t, exec (.fixTimeout h) s = .next t ∧ (t.head h).op = none ∧ o ∈ (t.head h).ops ∧ (t.cl h).fixWait = 0 := by
  have hwaits' : (fresh s).waitsFix h = true := hwaits
  have hlong' : 4000 ≤ ((fresh s).cl h).fixWait := hlong
  have hcond : ((fresh s).waitsFix h && decide (4000 ≤ ((fresh s).cl h).fixWait)) = true := by simp [hwaits', hlong']
  obtain ⟨t, ht, same⟩ := doneQ_quiet hheld (f := fun t =>
    if t.waitsFix h && decide (4000 ≤ (t.cl h).fixWait) then (t.interruptOp h true).updClr h fun c => { c with fixWait := 0 } else t)
    (by
      rw [if_pos hcond, interruptOp_of_seek (s := fresh s) hop hkind hcycle]
      exact hostQuiet_of_parts hquiet rfl rfl)
  rw [if_pos hcond, interruptOp_of_seek (s := fresh s) hop hkind hcycle] at same
  have hhead : t.head h = { s.head h with
      op := none, ops := insertOp o (s.head h).ops, clr := { (s.head h).clr with fixWait := 0 } } := by
    rw [head_of_heads same.heads, head_updClr_same _ _ h.isLt, State.cl, head_issue_same _ _ h.isLt, State.endOp,
      head_setHead_same _ _ h.isLt]
    rfl
  refine ⟨t, ht, ?_, ?_, ?_⟩
  · rw [hhead]
  · rw [hhead]
    exact mem_insertOp o _
  · rw [State.cl, hhead]

theorem holdExit_recaptures {s : State} (hheld : s.pwr.held = []) (h : Fin 32) (hmay : s.holdMayEnd h = true)
    (hopen : s.closed h 1 = false) (hseq : (s.cl h).seq = none) :
    ∃ t, exec (.holdExit h) s = .next t ∧ t.clr h = hdHOLD ∧ t.getF F.CLR_STATUS_PHASE h = 4 := by
  obtain ⟨t, ht, same⟩ := doneQ_next hheld fun t => t.holdExit h
  have hmay' : (fresh s).holdMayEnd h = true := hmay
  have hopen' : (fresh s).closed h 1 = false := hopen
  have hseq' : ((fresh s).cl h).seq = none := hseq
  have hhold : s.clr h = hdHOLD := by
    unfold State.holdMayEnd at hmay
    simp only [Bool.and_eq_true, beq_iff_eq] at hmay
    exact hmay.1.1.1.1
  rw [State.holdExit, hmay', hopen', hseq'] at same
  refine ⟨t, ht, ?_, ?_⟩
  · rw [State.clr, same.getF, getF_advance _ (by decide) (by decide +kernel)]
    exact ((setSeq_frame ..).getF (by decide) (by decide +kernel)).trans hhold
  · rw [same.getF, getF_advance _ (by decide) (by decide +kernel)]
    exact phase_setSeq ..

theorem holdExit_follows {s : State} (hheld : s.pwr.held = []) (h : Fin 32) (hmay : s.holdMayEnd h = true)
    (hclosed : s.closed h 1 = true) (htf : s.isSet F.CLR_STATUS_TF h = true) (hop : (s.head h).op = none)
    (hfrozen : s.frozen = false) : ∃ t, exec (.holdExit h) s = .next t ∧ t.clr h = hdFOLLOW := by
  obtain ⟨t, ht, same⟩ := doneQ_next hheld fun t => t.holdExit h
  have hmay' : (fresh s).holdMayEnd h = true := hmay
  have hclosed' : (fresh s).closed h 1 = true := hclosed
  have htf' : (fresh s).isSet F.CLR_STATUS_TF h = true := htf
  have hexit : (fresh s).holdExit h = (fresh s).enterFollow h := by
    rw [State.holdExit, hmay', hclosed', htf']
    simp
  rw [hexit] at same
  refine ⟨t, ht, ?_⟩
  rw [State.clr, same.getF, getF_advance _ (by decide) (by decide +kernel)]
  exact (enterFollow_reads (s := fresh s) h.isLt hfrozen fun o ho => by simp [hop] at ho).1

/-- A head-fatal event outside OFF and SAFE: SAFE, and the head's bit of GLB_HEAD_FAULT. -/
theorem headFatal_reads {s : State} {h : Nat} (hh : h < 32) (hoff : s.clr h ≠ hdOFF) (hsafe : s.clr h ≠ hdSAFE) :
    (s.headFatal h).clr h = hdSAFE ∧ (s.headFatal h).bitF F.GLB_HEAD_FAULT_HEAD 0 h = true := by
  have hcond : ¬ (s.clr h = hdOFF || s.clr h = hdSAFE) = true := by simp [hoff, hsafe]
  unfold State.headFatal
  rw [if_neg hcond]
  unfold State.toSafe
  rw [if_neg hcond]
  constructor
  · rw [State.clr, (routeFailure_frame ..).getF (by decide) (by decide +kernel), getF_updBand, getF_putF_other _ _ _ (by decide)]
    exact clr_setClr _ (by decide)
  · rw [(routeFailure_frame ..).bitF (by decide) (by decide +kernel), bitF_updBand]
    exact bitF_putF_same _ F.GLB_HEAD_FAULT_HEAD 0 h true hh

theorem holdTimeout_next {s : State} (hheld : s.pwr.held = []) (h : Fin 32) (hhold : s.clr h = hdHOLD)
    (hlong : 16 * max 1 (s.getF F.CLR_HOLD_CTL_MAX h) ≤ (s.cl h).hold) :
    ∃ t, exec (.holdTimeout h) s = .next t ∧ t.clr h = hdSAFE ∧ t.isSet F.CLR_EVT_HOLD_TIMEOUT h = true ∧
      t.bitF F.GLB_HEAD_FAULT_HEAD 0 h = true := by
  obtain ⟨t, ht, same⟩ := doneQ_next hheld fun t =>
    if t.clr h == hdHOLD && decide (16 * max 1 (t.getF F.CLR_HOLD_CTL_MAX h) ≤ (t.cl h).hold) then
      (t.raise E.CLR_HOLD_TIMEOUT h).headFatal h
    else t
  have hhold' : (fresh s).clr h = hdHOLD := hhold
  have hlong' : 16 * max 1 (s.getF F.CLR_HOLD_CTL_MAX h) ≤ ((fresh s).cl h).hold := hlong
  rw [if_pos (by simp [hhold', hlong'])] at same
  have hraise : ((fresh s).raise E.CLR_HOLD_TIMEOUT h).clr h = hdHOLD :=
    (getF_raise_other _ _ (by decide) (by decide)).trans hhold
  obtain ⟨hclr, hfault⟩ := headFatal_reads h.isLt (s := (fresh s).raise E.CLR_HOLD_TIMEOUT h) (by rw [hraise]; decide)
    (by rw [hraise]; decide)
  refine ⟨t, ht, ?_, ?_, ?_⟩
  · rw [State.clr, same.getF, getF_advance _ (by decide) (by decide +kernel)]
    exact hclr
  · rw [same.isSet, isSet_advance _ (by decide) (by decide +kernel), (headFatal_frame ..).isSet (by decide) (by decide +kernel)]
    simp (disch := decide +kernel)
  · rw [same.bitF, bitF_advance _ (by decide) (by decide +kernel), hfault]

/-- Settles O15: one lemma per row, above. -/
theorem collierEventRows : Obligations.CollierEventRows := fun _ h hheld =>
  ⟨fun _ => rpEvaluation_next hheld h, fun _ _ => mediaOperationTake_next hheld h, acqFail_next hheld h,
    fun _ _ _ _ _ _ _ => jumpBrake_next hheld h, fun _ _ _ _ _ _ _ => jumpSettle_next hheld h, seekFail_next hheld h,
    fun _ _ _ => sledArrived_next hheld h, fun _ => seekComplete_next hheld h, fun _ _ _ _ _ => layerHopKick_next hheld h,
    fun _ _ _ _ => layerHopDone_next hheld h, fun _ _ _ _ _ _ => layerFail_next hheld h, angleLossPark_next hheld h,
    fun _ => fixTimeout_next hheld h, holdExit_recaptures hheld h, holdExit_follows hheld h, holdTimeout_next hheld h⟩

end Sys2Proof.Proofs
end

section
/-!
PROOFS. The sled rows (07) and the sled overrun (R38).
-/
set_option Elab.async false

namespace Sys2Proof.Proofs

open Sys2Proof.Machine Sys2Proof.Laws

/-! ### Axes -/

section
variable (s : State) {g h : Nat}

theorem sld_updSld_same (f : SldS → SldS) (hh : h < 32) : (s.updSld h f).sld h = f (s.sld h) := by
  rw [State.sld, head_updSld_same s f hh]

theorem sld_updSld_other (f : SldS → SldS) (hne : g ≠ h) : (s.updSld g f).sld h = s.sld h := by
  rw [State.sld, head_updSld_other s f hne, State.sld]

theorem sld_raiseSld (e : Event) (i : Nat) : (s.raiseSld e i).sld h = s.sld h := rfl

theorem sld_setF (f : Field) (i v : Nat) : (s.setF f i v).sld h = s.sld h := rfl

theorem sld_flushAsm : (fresh s).flushAsm.sld h = s.sld h := by rw [State.sld, head_flushAsm, head_fresh, State.sld]

theorem axis_flushAsm : (fresh s).flushAsm.axis h = s.axis h := by simp (disch := decide +kernel) [State.axis]

theorem axisTakes_flushAsm : (fresh s).flushAsm.axisTakes h = s.axisTakes h := by
  rw [State.axisTakes, axis_flushAsm, State.axisTakes]

theorem softClamp_flushAsm (x : Int) : (fresh s).flushAsm.softClamp h x = s.softClamp h x := by
  simp (disch := decide +kernel) [State.softClamp]

theorem axis_setAxis {st : Nat} (hst : st < 8) : (s.setAxis h st).axis h = st := by
  rw [State.axis, State.setAxis, getF_setF]
  exact Nat.mod_eq_of_lt hst

/-- A new target is clamped to the soft limits. -/
theorem sld_setTarget (x : Int) (hh : h < 32) : (s.setTarget h x).sld h = { s.sld h with x := (s.softClamp h x).1 } := by
  unfold State.setTarget State.onlyIf
  dsimp only
  split
  · rw [sld_raiseSld, sld_updSld_same s _ hh]
  · exact sld_updSld_same s _ hh

/-- An event of an axis is raised, whatever its mark. -/
theorem isSet_raiseSld_same (e : Event) {f : Field} (hf : e.fld = f) (hw : 1 ≤ f.width) (hn : e.reg.forced.id ≠ f.id)
    (hmark : F.SLD_EVT_AXES_AXIS.id ≠ f.id) : (s.raiseSld e h).isSet f h = true := by
  rw [State.raiseSld, isSet_putF_other _ _ _ hmark, isSet_raise_same _ _ _ hf hw hn]

end

/-! ### Targets -/

theorem sledTargetWrite_next {s : State} (hserved : s.pf1Served = true) (h : Fin 32) (w : BitVec 32) :
    ∃ t, exec (.sledTargetWrite h w) s = .next t ∧ Same ((fresh s).flushAsm.writeTarget h w.toNat) t :=
  doneW_next hserved fun t => t.writeTarget h w.toNat

theorem group_flushAsm (s : State) (h : Nat) : (fresh s).flushAsm.getF F.SLD_GEOM_GROUP h = s.getF F.SLD_GEOM_GROUP h := by
  simp (disch := decide +kernel)

theorem sledTargetWrite_single {s : State} (hserved : s.pf1Served = true) (h : Fin 32) (w : BitVec 32) (htakes : s.axisTakes h = true)
    (hsingle : s.getF F.SLD_GEOM_GROUP h = 0) :
    ∃ t, exec (.sledTargetWrite h w) s = .next t ∧ (t.sld h).x = (s.softClamp h (sgn 32 w.toNat * oneStep)).1 := by
  obtain ⟨t, ht, same⟩ := sledTargetWrite_next hserved h w
  refine ⟨t, ht, ?_⟩
  rw [State.sld, head_of_heads same.heads, ← State.sld, State.writeTarget, axisTakes_flushAsm, htakes, group_flushAsm,
    if_neg (by decide), if_pos hsingle, sld_setTarget _ _ h.isLt, softClamp_flushAsm]

theorem sledTargetWrite_grouped {s : State} (hserved : s.pf1Served = true) (h : Fin 32) (w : BitVec 32) (htakes : s.axisTakes h = true)
    (hgroup : s.getF F.SLD_GEOM_GROUP h ≠ 0) :
    ∃ t, exec (.sledTargetWrite h w) s = .next t ∧ (t.sld h).pend = some (sgn 32 w.toNat * oneStep) ∧ (t.sld h).x = (s.sld h).x := by
  obtain ⟨t, ht, same⟩ := sledTargetWrite_next hserved h w
  refine ⟨t, ht, ?_⟩
  rw [State.sld, head_of_heads same.heads, ← State.sld, State.writeTarget, axisTakes_flushAsm, htakes, group_flushAsm,
    if_neg (by decide), if_neg hgroup, sld_updSld_same _ _ h.isLt, sld_flushAsm]
  exact ⟨rfl, rfl⟩

theorem sledTargetWrite_rejected {s : State} (hserved : s.pf1Served = true) (h : Fin 32) (w : BitVec 32) (htakes : s.axisTakes h = false) :
    ∃ t, exec (.sledTargetWrite h w) s = .next t ∧ t.isSet F.SLD_EVT_CFG_REJECT h = true ∧ (t.sld h).x = (s.sld h).x := by
  obtain ⟨t, ht, same⟩ := sledTargetWrite_next hserved h w
  rw [State.writeTarget, axisTakes_flushAsm, htakes, if_pos (by decide)] at same
  refine ⟨t, ht, ?_, ?_⟩
  · rw [same.isSet]
    exact isSet_raiseSld_same _ E.SLD_CFG_REJECT rfl (by decide) (by decide) (by decide)
  · rw [State.sld, head_of_heads same.heads, ← State.sld, sld_raiseSld, sld_flushAsm]

/-- GROUP_GO's turn of one axis. -/
def groupTurn (mask : Nat) (t : State) (h : Nat) : State :=
  let g := t.getF F.SLD_GEOM_GROUP h
  if g ≠ 0 ∧ mask.testBit g ∧ (t.sld h).pend.isSome then t.updSld h fun a => { a with rise := a.pend, pend := none } else t

theorem groupTurn_kept (mask : Nat) (t : State) {g h : Nat} (hne : g ≠ h) :
    (groupTurn mask t g).sld h = t.sld h ∧ ∀ f i, (groupTurn mask t g).getF f i = t.getF f i := by
  unfold groupTurn
  dsimp only
  split
  · exact ⟨sld_updSld_other _ _ hne, fun _ _ => rfl⟩
  · exact ⟨rfl, fun _ _ => rfl⟩

theorem groupGo_next {s : State} (hserved : s.pf1Served = true) (h : Fin 32) (w : BitVec 32) {x : Int}
    (hgroup : s.getF F.SLD_GEOM_GROUP h ≠ 0) (hmask : w.toNat.testBit (s.getF F.SLD_GEOM_GROUP h) = true)
    (hpend : (s.sld h).pend = some x) :
    ∃ t, exec (.groupGo w) s = .next t ∧ (t.sld h).rise = some x ∧ (t.sld h).pend = none := by
  obtain ⟨t, ht, same⟩ := doneW_next hserved fun t => t.groupGo w.toNat
  have hsld : ((fresh s).flushAsm.forEach (List.range 32) (groupTurn w.toNat)).sld h =
      { s.sld h with rise := some x, pend := none } := by
    refine forEach_range_reads (read := fun t => t.sld h)
      (P := fun t => t.sld h = s.sld h ∧ t.getF F.SLD_GEOM_GROUP h = s.getF F.SLD_GEOM_GROUP h) h.isLt
      ⟨sld_flushAsm s, group_flushAsm s h⟩ (fun t g hg hkept => ?_) (fun t hkept => ?_) (fun t g _ hg => ?_)
    · obtain ⟨hsame, hregs⟩ := groupTurn_kept w.toNat t (show g ≠ h by omega)
      exact ⟨hsame.trans hkept.1, (hregs _ _).trans hkept.2⟩
    · obtain ⟨hsame, hregs⟩ := hkept
      rw [groupTurn, hregs, hsame]
      dsimp only
      rw [if_pos ⟨hgroup, hmask, by rw [hpend]; rfl⟩, sld_updSld_same _ _ h.isLt, hsame, hpend]
    · exact (groupTurn_kept w.toNat t (by omega)).1
  refine ⟨t, ht, ?_⟩
  rw [State.sld, head_of_heads same.heads, ← State.sld]
  exact ⟨congrArg SldS.rise hsld, congrArg SldS.pend hsld⟩

/-! ### Stop, park, home, enable, disable -/

theorem sledStop_next {s : State} (hserved : s.pf1Served = true) (h : Fin 32) (hmoving : s.axis h = slMOVING) :
    ∃ t, exec (.sledStop h) s = .next t ∧ (t.sld h).x = stopPoint (s.sldD h) (s.sld h).p (s.sld h).v := by
  obtain ⟨t, ht, same⟩ := doneW_next hserved fun t => t.sledStop h
  have hdmax : (fresh s).flushAsm.sldD h = s.sldD h := by simp (disch := decide +kernel) [State.sldD]
  rw [State.sledStop, axis_flushAsm, if_pos hmoving] at same
  refine ⟨t, ht, ?_⟩
  rw [State.sld, head_of_heads same.heads, ← State.sld, sld_updSld_same _ _ h.isLt, sld_flushAsm, hdmax]

/-- A move that begins keeps the target. -/
theorem beginMove_reads (s : State) {h : Nat} (hh : h < 32) :
    ((s.beginMove h).sld h).x = (s.sld h).x ∧ (s.beginMove h).axis h = slMOVING := by
  unfold State.beginMove
  split
  next hmoving => exact ⟨rfl, hmoving⟩
  · refine ⟨?_, axis_setAxis _ (by decide)⟩
    rw [State.setAxis, sld_setF, sld_updSld_same _ _ hh]

theorem sledPark_next {s : State} (hserved : s.pf1Served = true) (h : Fin 32) (htakes : s.axisTakes h = true) :
    ∃ t, exec (.sledPark h) s = .next t ∧ (t.sld h).x = (s.softClamp h (s.parkPos h)).1 ∧ t.axis h = slMOVING := by
  obtain ⟨t, ht, same⟩ := doneW_next hserved fun t => t.sledPark h
  have hpark : (fresh s).flushAsm.parkPos h = s.parkPos h := by simp (disch := decide +kernel) [State.parkPos]
  rw [State.sledPark, axisTakes_flushAsm, if_pos htakes, State.toPark, hpark] at same
  obtain ⟨hx, haxis⟩ := beginMove_reads ((fresh s).flushAsm.setTarget h (s.parkPos h)) h.isLt
  refine ⟨t, ht, ?_, ?_⟩
  · rw [State.sld, head_of_heads same.heads, ← State.sld, sld_updSld_same _ _ h.isLt]
    rw [sld_setTarget _ _ h.isLt, softClamp_flushAsm] at hx
    exact hx
  · rw [State.axis, same.getF, getF_updSld]
    exact haxis

theorem sledHome_next {s : State} (hserved : s.pf1Served = true) (h : Fin 32) (hunhomed : s.axis h = slUNHOMED) :
    ∃ t, exec (.sledHome h) s = .next t ∧ t.axis h = slHOMING ∧
      t.getF F.SLD_STATUS_PHASE h = if s.isSet F.SLD_STATUS_SWITCH h then 1 else 2 := by
  obtain ⟨t, ht, same⟩ := doneW_next hserved fun t => t.startHoming h
  have hswitch : (fresh s).flushAsm.isSet F.SLD_STATUS_SWITCH h = s.isSet F.SLD_STATUS_SWITCH h := by simp (disch := decide +kernel)
  have hphase : ∀ (u : State) (ph : Nat) (x : Int) (b : Bool), ph < 8 → u.axis h = slHOMING →
      (u.homePhase h ph x b).axis h = slHOMING ∧ (u.homePhase h ph x b).getF F.SLD_STATUS_PHASE h = ph := by
    intro u ph x b hph hu
    refine ⟨?_, ?_⟩
    · rw [State.axis, State.homePhase, getF_updSld, getF_setF_other _ _ (by decide)]
      exact hu
    · rw [State.homePhase, getF_updSld, getF_setF]
      exact Nat.mod_eq_of_lt hph
  rw [State.startHoming, axis_flushAsm, if_pos hunhomed, hswitch] at same
  refine ⟨t, ht, ?_⟩
  rw [State.axis, same.getF, same.getF, ← State.axis]
  split
  · exact hphase _ 1 _ _ (by decide) (axis_setAxis _ (by decide))
  · exact hphase _ 2 _ _ (by decide) (axis_setAxis _ (by decide))

theorem sledEnable_next {s : State} (hserved : s.pf1Served = true) (h : Fin 32) (hoff : s.axis h = slOFF) (hhead : s.clr h ≠ hdOFF) :
    ∃ t, exec (.sledEnable h) s = .next t ∧ t.axis h = slUNHOMED ∧ t.isSet F.SLD_CTL_EN h = true := by
  obtain ⟨t, ht, same⟩ := doneW_next hserved fun t => (t.setB F.SLD_CTL_EN h true).axisOn h
  have haxis : ((fresh s).flushAsm.setB F.SLD_CTL_EN h true).axis h = slOFF := by
    rw [State.axis, getF_setB_other _ _ (by decide)]
    exact (axis_flushAsm s).trans hoff
  have hclr : ((fresh s).flushAsm.setB F.SLD_CTL_EN h true).clr h = s.clr h := by
    rw [State.clr, getF_setB_other _ _ (by decide)]
    exact clr_flushAsm s h
  rw [State.axisOn, haxis, hclr, isSet_setB_same _ _ _ _ (by decide), if_pos (by simp [hhead])] at same
  refine ⟨t, ht, ?_, ?_⟩
  · rw [State.axis, same.getF]
    exact axis_setAxis _ (by decide)
  · rw [same.isSet, State.setAxis, isSet_setF_other _ _ (by decide), isSet_updSld, isSet_setB_same _ _ _ _ (by decide)]

theorem axis_axisHeadOff (s : State) (h : Nat) : (s.axisHeadOff h).axis h = slOFF := by
  unfold State.axisHeadOff
  split
  next hoff => exact hoff
  · rw [State.axis, State.axisOff]
    dsimp only
    rw [getF_setF_other _ _ (by decide), getF_setB_other _ _ (by decide)]
    exact axis_setAxis _ (by decide)

theorem sledDisable_next {s : State} (hserved : s.pf1Served = true) (h : Fin 32) :
    ∃ t, exec (.sledDisable h) s = .next t ∧ Same ((fresh s).flushAsm.sledDisable h) t :=
  doneW_next hserved fun t => t.sledDisable h

theorem sledDisable_off {s : State} (hserved : s.pf1Served = true) (h : Fin 32)
    (hlater : s.axis h ≠ slFAULT ∨ (s.sld h).faultAt ≠ some s.tick) :
    ∃ t, exec (.sledDisable h) s = .next t ∧ t.axis h = slOFF ∧ t.isSet F.SLD_CTL_EN h = false := by
  obtain ⟨t, ht, same⟩ := sledDisable_next hserved h
  rw [State.sledDisable, axis_flushAsm, sld_flushAsm, flushAsm_tick, fresh_tick, if_neg (by
    obtain haxis | htick := hlater
    · simp [haxis]
    · simp [htick])] at same
  refine ⟨t, ht, ?_, ?_⟩
  · rw [State.axis, same.getF]
    exact axis_axisHeadOff _ _
  · rw [same.isSet, (axisHeadOff_frame ..).isSet (by decide) (by decide +kernel), isSet_setB_same _ _ _ _ (by decide)]

theorem sledDisable_faulted {s : State} (hserved : s.pf1Served = true) (h : Fin 32) (hfault : s.axis h = slFAULT)
    (hnow : (s.sld h).faultAt = some s.tick) :
    ∃ t, exec (.sledDisable h) s = .next t ∧ t.axis h = slFAULT ∧ t.isSet F.SLD_CTL_EN h = false := by
  obtain ⟨t, ht, same⟩ := sledDisable_next hserved h
  rw [State.sledDisable, axis_flushAsm, sld_flushAsm, flushAsm_tick, fresh_tick, if_pos (by simp [hfault, hnow])] at same
  refine ⟨t, ht, ?_, ?_⟩
  · rw [State.axis, same.getF, getF_setB_other _ _ (by decide)]
    exact (axis_flushAsm s).trans hfault
  · rw [same.isSet, isSet_setB_same _ _ _ _ (by decide)]

/-! ### The limit switch, failures and overruns -/

theorem limitDebounced_next {s : State} (hheld : s.pwr.held = []) (h : Fin 32) (hraw : s.rawActive h ≠ s.isSet F.SLD_STATUS_SWITCH h)
    (hlong : s.sldDeb h ≤ (s.sld h).run) :
    ∃ t, exec (.limitDebounced h) s = .next t ∧ t.isSet F.SLD_STATUS_SWITCH h = s.rawActive h ∧
      (s.rawActive h = true → s.axisTakes h = true → t.axis h = slSTOPPING ∧ t.isSet F.SLD_EVT_LIMIT_HIT h = true) := by
  obtain ⟨t, ht, same⟩ := done_next hheld fun t => t.limitChange h
  have hraw' : (fresh s).rawActive h ≠ s.isSet F.SLD_STATUS_SWITCH h := hraw
  have hlong' : (fresh s).sldDeb h ≤ ((fresh s).sld h).run := hlong
  have haxis : ((fresh s).setB F.SLD_STATUS_SWITCH h ((fresh s).rawActive h)).axis h = s.axis h := getF_setB_other _ _ (by decide)
  have hset : ((fresh s).setB F.SLD_STATUS_SWITCH h ((fresh s).rawActive h)).isSet F.SLD_STATUS_SWITCH h = s.rawActive h :=
    isSet_setB_same _ _ _ _ (by decide)
  unfold State.limitChange at same
  dsimp only at same
  rw [if_neg (by simp [hraw', hlong'])] at same
  refine ⟨t, ht, ?_, fun hon htakes => ?_⟩
  · rw [same.isSet]
    simp (disch := decide +kernel) only [isSet_ite, (homeSwitch_frame ..).isSet, (limitHit_frame ..).isSet, hset, ite_self]
  · have hhoming : s.axis h ≠ slHOMING := by
      intro hhoming
      simp [State.axisTakes, hhoming, slHOMING, slIDLE, slMOVING] at htakes
    have htakes' : ((fresh s).setB F.SLD_STATUS_SWITCH h ((fresh s).rawActive h)).axisTakes h = true := by
      rw [State.axisTakes, haxis]
      exact htakes
    rw [haxis, if_neg hhoming, if_pos (show (fresh s).rawActive h = true from hon), State.limitHit, if_pos htakes'] at same
    refine ⟨?_, ?_⟩
    · rw [State.axis, same.getF, State.raiseSld, getF_putF_other _ _ _ (by decide), getF_raise_other _ _ (by decide) (by decide),
        getF_setB_other _ _ (by decide)]
      exact axis_setAxis _ (by decide)
    · rw [same.isSet]
      exact isSet_raiseSld_same _ E.SLD_LIMIT_HIT rfl (by decide) (by decide) (by decide)

theorem homeFail_next {s : State} (hheld : s.pwr.held = []) (h : Fin 32) (hexpired : s.homeExpired h = true)
    (hraw : s.rawActive h = s.isSet F.SLD_STATUS_SWITCH h) :
    ∃ t, exec (.homeFail h) s = .next t ∧ t.isSet F.SLD_EVT_HOME_FAIL h = true := by
  obtain ⟨t, ht, same⟩ := doneQ_next hheld fun t =>
    let u := if t.axis h = slHOMING then t.limitChange h else t
    if u.homeExpired h then (u.homeFail h).headFatal h else u
  have hraw' : (fresh s).rawActive h = s.isSet F.SLD_STATUS_SWITCH h := hraw
  have hlimit : (fresh s).limitChange h = fresh s := by
    unfold State.limitChange
    dsimp only
    exact if_pos (by simp [hraw'])
  dsimp only at same
  rw [hlimit, ite_self, if_pos (show (fresh s).homeExpired h = true from hexpired)] at same
  refine ⟨t, ht, ?_⟩
  rw [same.isSet, isSet_advance _ (by decide) (by decide +kernel), (headFatal_frame ..).isSet (by decide) (by decide +kernel),
    State.homeFail, (axisFault_frame ..).isSet (by decide) (by decide +kernel)]
  exact isSet_raiseSld_same _ E.SLD_HOME_FAIL rfl (by decide) (by decide) (by decide)

theorem sldOvr_next {s : State} (hheld : s.pwr.held = []) (h : Fin 32) (hruns : s.axisRuns h = true) (htick : s.onTick 20 = true) :
    ∃ t, exec (.sldOvr h) s = .next t ∧ t.isSet F.TCK_EVT_SLD_OVR 0 = true ∧ t.bitF F.TCK_OVR_HEADS_HEAD 0 h = true := by
  obtain ⟨t, ht, same⟩ := doneQ_next hheld fun t =>
    if !t.axisRuns h || !t.onTick 20 then t else ((t.raiseTckHead E.TCK_SLD_OVR h).axisOverrun h).headFatal h
  have hruns' : (fresh s).axisRuns h = true := hruns
  have htick' : (fresh s).onTick 20 = true := htick
  rw [if_neg (by simp [hruns', htick'])] at same
  refine ⟨t, ht, ?_, ?_⟩
  · rw [same.isSet, isSet_advance _ (by decide) (by decide +kernel), (headFatal_frame ..).isSet (by decide) (by decide +kernel),
      (axisOverrun_frame ..).isSet (by decide) (by decide +kernel), State.raiseTckHead]
    simp (disch := decide +kernel)
  · rw [same.bitF, bitF_advance _ (by decide) (by decide +kernel), (headFatal_frame ..).bitF (by decide) (by decide +kernel),
      (axisOverrun_frame ..).bitF (by decide) (by decide +kernel), bitF_raiseTckHead _ _ h.isLt]

/-- Settles O16: one lemma per row, above. -/
theorem sledRows : Obligations.SledRows := fun _ h =>
  ⟨fun w hserved => sledTargetWrite_single hserved h w, fun w hserved => sledTargetWrite_grouped hserved h w,
    fun w hserved => sledTargetWrite_rejected hserved h w, fun w _ hserved => groupGo_next hserved h w,
    fun hserved => sledStop_next hserved h, fun hserved => sledPark_next hserved h, fun hserved => sledHome_next hserved h,
    fun hserved => sledEnable_next hserved h, fun hserved => sledDisable_off hserved h,
    fun hserved => sledDisable_faulted hserved h, fun hheld => limitDebounced_next hheld h, fun hheld => homeFail_next hheld h,
    fun hheld => sldOvr_next hheld h⟩

end Sys2Proof.Proofs
end

section
/-!
PROOFS. The learner's rows (06): the end of a seed copy, seeds on request, clearing.
-/
set_option Elab.async false

namespace Sys2Proof.Proofs

open Sys2Proof.Machine Sys2Proof.Laws

/-- A copy that has ended: the loop is seeded, not empty, and its count starts again. -/
theorem seedDone_reads (s : State) (h i : Nat) :
    (s.seedDone h i).isSet F.LRN_LOOP_STATUS_SEEDED (lrnIdx h i) = true ∧
      (s.seedDone h i).isSet F.LRN_LOOP_STATUS_EMPTY (lrnIdx h i) = false ∧
      (s.seedDone h i).getF F.LRN_LOOP_STATUS_REVS (lrnIdx h i) = 0 ∧ (s.seedDone h i).isSet F.LRN_EVT_SEED_DONE h = true := by
  unfold State.seedDone
  simp (disch := decide +kernel)

theorem seedDone_next {s : State} (hheld : s.pwr.held = []) (h : Fin 32) (i : Fin 2) {src n : Nat}
    (hcopy : (s.lrnLoop h i).copy = some (src, n)) (hall : 1024 ≤ n) :
    ∃ t, exec (.seedDone h i) s = .next t ∧ t.isSet F.LRN_LOOP_STATUS_SEEDED (lrnIdx h i) = true ∧
      t.isSet F.LRN_LOOP_STATUS_EMPTY (lrnIdx h i) = false ∧ t.getF F.LRN_LOOP_STATUS_REVS (lrnIdx h i) = 0 ∧
      t.isSet F.LRN_EVT_SEED_DONE h = true := by
  obtain ⟨t, ht, same⟩ := doneQ_next hheld fun t => if t.seedEnded h i then (t.seedDone h i).seededSeek (partner h) else t
  have hcopy' : ((fresh s).lrnLoop h i).copy = some (src, n) := hcopy
  rw [if_pos (by simp [State.seedEnded, hcopy', hall])] at same
  refine ⟨t, ht, ?_⟩
  rw [same.isSet, same.isSet, same.getF, same.isSet]
  simp (disch := decide +kernel) only [isSet_advance, getF_advance, (seededSeek_frame ..).isSet, (seededSeek_frame ..).getF]
  exact seedDone_reads _ h i

/-- A mask of one loop names that loop. -/
theorem loops_of_one (i : Fin 2) : ((List.range 2).filter fun j => (1#2 <<< i.val).toNat.testBit j) = [i.val] := by
  fin_cases i <;> decide

theorem seedBusy_flushAsm (s : State) (h : Nat) : (fresh s).flushAsm.seedBusy h = s.seedBusy h := by
  simp [State.seedBusy, State.lrnLoop, State.lrn]

theorem seedRequest_next {s : State} (hserved : s.pf1Served = true) (h : Fin 32) (loops : BitVec 2) :
    ∃ t, exec (.seedRequest h loops) s = .next t ∧ Same ((fresh s).flushAsm.seedRequest h loops.toNat) t :=
  doneW_next hserved fun t => t.seedRequest h loops.toNat

theorem seedRequest_starts {s : State} (hserved : s.pf1Served = true) (h : Fin 32) (i : Fin 2) (hfree : s.seedBusy h = false)
    (hon : s.learnOn h i = true) (hrevs : s.seedMin h ≤ s.getF F.LRN_LOOP_STATUS_REVS (lrnIdx (partner h) i)) :
    ∃ t, exec (.seedRequest h (1#2 <<< i.val)) s = .next t ∧ (t.lrnLoop h i).copy = some (partner h, 0) := by
  obtain ⟨t, ht, same⟩ := seedRequest_next hserved h (1#2 <<< i.val)
  have hon' : (fresh s).flushAsm.learnOn h i = true := by simpa (disch := decide +kernel) [State.learnOn] using hon
  have hrevs' : (fresh s).flushAsm.seedMin h ≤ (fresh s).flushAsm.getF F.LRN_LOOP_STATUS_REVS (lrnIdx (partner h) i) := by
    simpa (disch := decide +kernel) [State.seedMin] using hrevs
  have hstart : (fresh s).flushAsm.seedRequest h (1#2 <<< i.val).toNat = (fresh s).flushAsm.seedStart h i (partner h) := by
    rw [State.seedRequest, seedBusy_flushAsm, hfree, if_neg Bool.false_ne_true, loops_of_one]
    show (fresh s).flushAsm.seedLoop1 h i = _
    rw [State.seedLoop1]
    exact if_pos (by simp only [hon', hrevs', decide_true, Bool.and_self])
  refine ⟨t, ht, ?_⟩
  rw [State.lrnLoop, State.lrn, head_of_heads same.heads, hstart, State.seedStart]
  exact congrArg LrnLoopS.copy (lrnLoop_updLrnLoop_same _ _ h.isLt i.isLt)

theorem seedRequest_rejected {s : State} (hserved : s.pf1Served = true) (h : Fin 32) (loops : BitVec 2) (hbusy : s.seedBusy h = true) :
    ∃ t, exec (.seedRequest h loops) s = .next t ∧ t.isSet F.LRN_EVT_CFG_REJECT h = true := by
  obtain ⟨t, ht, same⟩ := seedRequest_next hserved h loops
  refine ⟨t, ht, ?_⟩
  rw [same.isSet, State.seedRequest, seedBusy_flushAsm, if_pos hbusy]
  simp (disch := decide +kernel)

/-- A cleared table: empty, without revolutions, and the event. -/
theorem lrnClear_reads (s : State) (h i : Nat) :
    (s.lrnClear h i).isSet F.LRN_LOOP_STATUS_EMPTY (lrnIdx h i) = true ∧ (s.lrnClear h i).getF F.LRN_LOOP_STATUS_REVS (lrnIdx h i) = 0 ∧
      (s.lrnClear h i).isSet F.LRN_EVT_CLEARED h = true := by
  unfold State.lrnClear
  dsimp only
  generalize (if s.copiesFrom h i then (s.lrnWipe (partner h) i).raise E.LRN_SEED_REFUSED (partner h) else s) = u
  unfold State.lrnWipe
  dsimp only
  simp (disch := decide +kernel)

theorem tableClear_next {s : State} (hserved : s.pf1Served = true) (h : Fin 32) (i : Fin 2) :
    ∃ t, exec (.tableClear h (1#2 <<< i.val)) s = .next t ∧ t.isSet F.LRN_LOOP_STATUS_EMPTY (lrnIdx h i) = true ∧
      t.getF F.LRN_LOOP_STATUS_REVS (lrnIdx h i) = 0 ∧ t.isSet F.LRN_EVT_CLEARED h = true := by
  obtain ⟨t, ht, same⟩ := doneQW_next hserved fun t => t.clearLoops h (1#2 <<< i.val).toNat
  have hclear : (fresh s).flushAsm.clearTables h (1#2 <<< i.val).toNat = (fresh s).flushAsm.lrnClear h i := by
    rw [State.clearTables, loops_of_one]
    rfl
  rw [State.clearLoops, hclear] at same
  refine ⟨t, ht, ?_⟩
  rw [same.isSet, same.getF, same.isSet]
  simp (disch := decide +kernel) only [isSet_advance, getF_advance, (seededSeek_frame ..).isSet, (seededSeek_frame ..).getF]
  exact lrnClear_reads _ h i

/-- Settles O17: one lemma per row, above. -/
theorem learnerRows : Obligations.LearnerRows := fun _ h i =>
  ⟨fun _ _ hheld => seedDone_next hheld h i, fun hserved => seedRequest_starts hserved h i,
    fun loops hserved => seedRequest_rejected hserved h loops, fun hserved => tableClear_next hserved h i⟩

end Sys2Proof.Proofs
end

section
/-!
PROOFS. What the head links' shared operations leave: link states, the link's own part, FIFOs, and a bonded stream that has nothing
to deliver.
-/
set_option Elab.async false

namespace Sys2Proof.Laws

open Sys2Proof.Machine

section
variable (s : State) (h : Nat) (f : Field) (j b : Nat)

@[simp] theorem getF_updLink (i : Nat) (u : LinkS → LinkS) : (s.updLink i u).getF f j = s.getF f j := rfl
@[simp] theorem isSet_updLink (i : Nat) (u : LinkS → LinkS) : (s.updLink i u).isSet f j = s.isSet f j := rfl
@[simp] theorem bitF_updLink (i : Nat) (u : LinkS → LinkS) : (s.updLink i u).bitF f j b = s.bitF f j b := rfl
@[simp] theorem getF_setLane (i : Nat) (x : LaneS) : (s.setLane i x).getF f j = s.getF f j := rfl
@[simp] theorem isSet_setLane (i : Nat) (x : LaneS) : (s.setLane i x).isSet f j = s.isSet f j := rfl
@[simp] theorem bitF_setLane (i : Nat) (x : LaneS) : (s.setLane i x).bitF f j b = s.bitF f j b := rfl
@[simp] theorem head_setLane (i : Nat) (x : LaneS) (g : Nat) : (s.setLane i x).head g = s.head g := rfl

/-- A block that is sent is an output alone. -/
@[simp] theorem getF_sendBlock (i k p : Nat) : (s.sendBlock i k p).getF f j = s.getF f j := by
  unfold State.sendBlock State.onlyIf
  split <;> rfl

@[simp] theorem isSet_sendBlock (i k p : Nat) : (s.sendBlock i k p).isSet f j = s.isSet f j := by
  rw [State.isSet, getF_sendBlock, State.isSet]

end

/-! ### The link's own part and its FIFOs -/

section
variable (s : State) {h f g : Nat}

theorem link_updLink_same (u : LinkS → LinkS) (hh : h < 32) : (s.updLink h u).link h = u (s.link h) := by
  rw [State.link, State.updLink, head_setHead_same s _ hh]
  rfl

theorem link_of_heads {t : State} (hheads : t.heads = s.heads) : t.link h = s.link h := by
  rw [State.link, head_of_heads hheads, State.link]

theorem fifo_setFifo_same (x : FifoS) (hh : h < 32) (hf : f < 6) : (s.setFifo h f x).fifo h f = x := by
  rw [State.fifo, State.setFifo, link_updLink_same s _ hh]
  exact vget_vset_same _ _ _ hf

theorem fifo_setFifo_other (x : FifoS) (hh : h < 32) (hne : g ≠ f) : (s.setFifo h g x).fifo h f = s.fifo h f := by
  rw [State.fifo, State.setFifo, link_updLink_same s _ hh]
  exact vget_vset_other _ _ _ hne

/-- What a change of the link leaves of its FIFOs. -/
theorem fifo_updLink (u : LinkS → LinkS) (hh : h < 32) (hu : (u (s.link h)).fifos = (s.link h).fifos) :
    (s.updLink h u).fifo h f = s.fifo h f := by
  rw [State.fifo, link_updLink_same s _ hh, hu, State.fifo]

/-- Nothing of the bonded stream waits, and none of its past is missing. -/
def NothingWaits (s : State) (h : Nat) : Prop := (s.link h).wait = [] ∧ (s.link h).base ≤ (s.link h).due

theorem nothingWaits_of_link {t : State} (hlink : (t.link h).wait = (s.link h).wait ∧ (t.link h).base = (s.link h).base ∧
    (t.link h).due = (s.link h).due) (hnone : NothingWaits s h) : NothingWaits t h := by
  obtain ⟨hwait, hbase, hdue⟩ := hlink
  obtain ⟨hempty, hle⟩ := hnone
  exact ⟨hwait.trans hempty, by rw [hbase, hdue]; exact hle⟩

/-- A stream with nothing to deliver stays as it is. -/
theorem drain_of_nothing {n : Nat} (hnone : NothingWaits s h) : State.drain n s h = s := by
  obtain ⟨hempty, hle⟩ := hnone
  cases n with
  | zero => rfl
  | succ n =>
    have hbehind : ¬ (s.link h).due < (s.link h).base := by omega
    rw [State.drain]
    simp [hempty, hbehind]

theorem deliver_of_nothing (hnone : NothingWaits s h) : s.deliver h = s := drain_of_nothing s hnone

end

/-! ### Link states -/

section
variable (s : State) {h : Nat}

theorem lk_setLink {st : Nat} (hst : st < 8) : (s.setLink h st).lk h = st := by
  rw [State.lk, State.setLink, (chanFollow_frame ..).getF (by decide) (by decide +kernel),
    (roles_frame ..).getF (by decide) (by decide +kernel), getF_setF]
  exact Nat.mod_eq_of_lt hst

theorem lk_linkTrain : (s.linkTrain h).lk h = lkTRAIN := lk_setLink _ (by decide)

theorem lk_linkDown {st : Nat} (hst : st < 8) : (s.linkDown h st).lk h = st := lk_setLink _ hst

/-- A link event is set, and the head's mark (R97). -/
theorem isSet_raiseLnk_same (e : Event) {f : Field} (hf : e.fld = f) (hw : 1 ≤ f.width) (hn : e.reg.forced.id ≠ f.id)
    (hmark : F.LNK_EVT_HEADS_HEAD.id ≠ f.id) : (s.raiseLnk e h).isSet f 0 = true := by
  rw [State.raiseLnk, isSet_putF_other _ _ _ hmark, isSet_raise_same _ _ _ hf hw hn]

theorem bitF_raiseLnk (e : Event) (hh : h < 32) : (s.raiseLnk e h).bitF F.LNK_EVT_HEADS_HEAD 0 h = true :=
  bitF_putF_same _ F.LNK_EVT_HEADS_HEAD 0 h true hh

theorem getF_raiseLnk_other (e : Event) {f : Field} {i : Nat} (hf : e.fld.id ≠ f.id) (hn : e.reg.forced.id ≠ f.id)
    (hmark : F.LNK_EVT_HEADS_HEAD.id ≠ f.id) : (s.raiseLnk e h).getF f i = s.getF f i := by
  rw [State.raiseLnk, getF_putF_other _ _ _ hmark, getF_raise_other _ _ hf hn]

end

end Sys2Proof.Laws
end

section
/-!
PROOFS. The head link rows that are register writes (04).
-/
set_option Elab.async false

namespace Sys2Proof.Proofs

open Sys2Proof.Machine Sys2Proof.Laws

theorem lk_flushAsm (s : State) (h : Nat) : (fresh s).flushAsm.lk h = s.lk h := by simp (disch := decide +kernel) [State.lk]

theorem link_flushAsm (s : State) (h : Nat) : (fresh s).flushAsm.link h = s.link h := link_of_heads s (by simp)

/-! ### Link states -/

theorem linkEnable_next {s : State} (hserved : s.pf1Served = true) (h : Fin 32) (hoff : s.lk h = lkOFF) :
    ∃ t, exec (.linkEnable h) s = .next t ∧ t.isSet F.LNK_HEAD_CTL_EN h = true ∧ t.lk h = lkTRAIN := by
  obtain ⟨t, ht, same⟩ := doneQW_next hserved fun t => t.linkEnable h
  rw [State.linkEnable, lk_flushAsm, if_pos hoff] at same
  refine ⟨t, ht, ?_, ?_⟩
  · rw [same.isSet, isSet_advance _ (by decide) (by decide +kernel), (linkTrain_frame ..).isSet (by decide) (by decide +kernel),
      isSet_setB_same _ _ _ _ (by decide)]
  · rw [State.lk, same.getF, getF_advance _ (by decide) (by decide +kernel)]
    exact lk_linkTrain _

theorem linkDisable_next {s : State} (hserved : s.pf1Served = true) (h : Fin 32) :
    ∃ t, exec (.linkDisable h) s = .next t ∧ t.isSet F.LNK_HEAD_CTL_EN h = false ∧ t.lk h = lkOFF := by
  obtain ⟨t, ht, same⟩ := doneQW_next hserved fun t => t.linkDisable h
  rw [State.linkDisable] at same
  refine ⟨t, ht, ?_, ?_⟩
  · rw [same.isSet, isSet_advance _ (by decide) (by decide +kernel), (headOff_frame ..).isSet (by decide) (by decide +kernel),
      (linkDown_frame ..).isSet (by decide) (by decide +kernel), isSet_setB_same _ _ _ _ (by decide)]
  · rw [State.lk, same.getF, getF_advance _ (by decide) (by decide +kernel), (headOff_frame ..).getF (by decide) (by decide +kernel)]
    exact lk_linkDown _ (by decide)

/-! ### Patterns -/

theorem prbsCtlWrite_next {s : State} (hserved : s.pf1Served = true) (l : Fin 256) (w : BitVec 32) :
    ∃ t, exec (.prbsCtlWrite l w) s = .next t ∧ Same ((fresh s).flushAsm.writePrbs l w.toNat) t :=
  doneW_next hserved fun t => t.writePrbs l w.toNat

/-- The fields of LNK_PRBS_CTL as an accepted write leaves them. -/
theorem writePrbs_reads {s : State} {l : Nat} (w : Nat) (hoff : s.clr (l / 8) = hdOFF) :
    (s.writePrbs l w).getF F.LNK_PRBS_CTL_PAT l = bitsOf w 4 2 ∧ (s.writePrbs l w).getF F.LNK_PRBS_CTL_NEAR l = bitsOf w 6 6 ∧
      (s.writePrbs l w).getF F.LNK_PRBS_CTL_INV l = bitsOf w 5 5 ∧ (s.writePrbs l w).getF F.LNK_PRBS_CTL_CHK_EN l = bitsOf w 1 1 ∧
      (s.writePrbs l w).getF F.LNK_PRBS_CTL_GEN_EN l = bitsOf w 0 0 := by
  have hpat : bitsOf w 4 2 % 2 ^ F.LNK_PRBS_CTL_PAT.width = bitsOf w 4 2 := Nat.mod_eq_of_lt (bitsOf_lt w 4 2)
  have hnear : bitsOf w 6 6 % 2 ^ F.LNK_PRBS_CTL_NEAR.width = bitsOf w 6 6 := Nat.mod_eq_of_lt (bitsOf_lt w 6 6)
  have hinv : bitsOf w 5 5 % 2 ^ F.LNK_PRBS_CTL_INV.width = bitsOf w 5 5 := Nat.mod_eq_of_lt (bitsOf_lt w 5 5)
  have hchk : bitsOf w 1 1 % 2 ^ F.LNK_PRBS_CTL_CHK_EN.width = bitsOf w 1 1 := Nat.mod_eq_of_lt (bitsOf_lt w 1 1)
  have hgen : bitsOf w 0 0 % 2 ^ F.LNK_PRBS_CTL_GEN_EN.width = bitsOf w 0 0 := Nat.mod_eq_of_lt (bitsOf_lt w 0 0)
  unfold State.writePrbs
  dsimp only
  rw [if_neg (by simp [hoff])]
  simp (disch := decide +kernel) only [getF_onlyIf, bump_getF, getF_setB_other, getF_setLane, getF_setF_other, getF_setF, ite_self,
    hpat, hnear, hinv, hchk, hgen, and_self]

theorem prbsCtlWrite_stores {s : State} (hserved : s.pf1Served = true) (l : Fin 256) (w : BitVec 32) (hoff : s.clr (l / 8) = hdOFF) :
    ∃ t, exec (.prbsCtlWrite l w) s = .next t ∧ t.getF F.LNK_PRBS_CTL_PAT l = bitsOf w.toNat 4 2 ∧
      t.getF F.LNK_PRBS_CTL_NEAR l = bitsOf w.toNat 6 6 ∧ t.getF F.LNK_PRBS_CTL_INV l = bitsOf w.toNat 5 5 ∧
      t.getF F.LNK_PRBS_CTL_CHK_EN l = bitsOf w.toNat 1 1 ∧ t.getF F.LNK_PRBS_CTL_GEN_EN l = bitsOf w.toNat 0 0 := by
  obtain ⟨t, ht, same⟩ := prbsCtlWrite_next hserved l w
  refine ⟨t, ht, ?_⟩
  rw [same.getF, same.getF, same.getF, same.getF, same.getF]
  exact writePrbs_reads w.toNat ((clr_flushAsm s _).trans hoff)

theorem prbsCtlWrite_rejected {s : State} (hserved : s.pf1Served = true) (l : Fin 256) (w : BitVec 32) (hon : s.clr (l / 8) ≠ hdOFF) :
    ∃ t, exec (.prbsCtlWrite l w) s = .next t ∧ t.isSet F.LNK_EVT_CFG_REJECT 0 = true ∧
      t.bitF F.LNK_EVT_HEADS_HEAD 0 (l / 8) = true ∧ t.getF F.LNK_PRBS_CTL_PAT l = s.getF F.LNK_PRBS_CTL_PAT l ∧
      t.getF F.LNK_PRBS_CTL_GEN_EN l = s.getF F.LNK_PRBS_CTL_GEN_EN l := by
  obtain ⟨t, ht, same⟩ := prbsCtlWrite_next hserved l w
  have hreject : (fresh s).flushAsm.writePrbs l w.toNat = (fresh s).flushAsm.lnkReject (l / 8) := by
    unfold State.writePrbs
    dsimp only
    exact if_pos (by rw [clr_flushAsm]; simpa using hon)
  rw [hreject, State.lnkReject] at same
  refine ⟨t, ht, ?_, ?_, ?_, ?_⟩
  · rw [same.isSet]
    exact isSet_raiseLnk_same _ E.LNK_CFG_REJECT rfl (by decide) (by decide) (by decide)
  · rw [same.bitF]
    exact bitF_raiseLnk _ _ (by omega)
  · rw [same.getF, getF_raiseLnk_other _ _ (by decide) (by decide) (by decide), getF_flushAsm _ (by decide) (by decide +kernel),
      fresh_getF]
  · rw [same.getF, getF_raiseLnk_other _ _ (by decide) (by decide) (by decide), getF_flushAsm _ (by decide) (by decide +kernel),
      fresh_getF]

/-! ### LINK_CMD -/

/-- A command that is accepted: its fields, BUSY, and its block on D0 (R95). -/
theorem linkCmd_sent {s : State} {h op lane pat : Nat} (hoff : s.clr h = hdOFF) (hfree : s.isSet F.LNK_HFE_CMD_BUSY h = false)
    (hop : op < 8) (hlane : lane < 8) (hpat : pat < 8) :
    (s.linkCmd h op lane pat).isSet F.LNK_HFE_CMD_BUSY h = true ∧ (s.linkCmd h op lane pat).getF F.LNK_HFE_CMD_OP h = op ∧
      (s.linkCmd h op lane pat).getF F.LNK_HFE_CMD_LANE h = lane ∧ (s.linkCmd h op lane pat).getF F.LNK_HFE_CMD_PAT h = pat ∧
      (s.downOn h 0 = true → .block h 0 (linkCmdBlock (s.link h).cmdSeq op lane pat) ∈ (s.linkCmd h op lane pat).out) := by
  have hmod : ∀ n < 8, n % 2 ^ 3 = n := fun n hn => Nat.mod_eq_of_lt hn
  unfold State.linkCmd
  dsimp only
  rw [if_neg (by simp [hoff]), if_neg (by simp [hfree])]
  simp (disch := decide +kernel) only [isSet_updLink, isSet_sendBlock, isSet_setB_other, isSet_setB_same, getF_updLink, getF_sendBlock,
    getF_setB_other, getF_setF_other, getF_setF]
  refine ⟨trivial, Nat.mod_eq_of_lt (lt_of_lt_of_le hop (by decide)), hmod lane hlane, hmod pat hpat, fun hdown => ?_⟩
  have hdown' : (((((s.setF F.LNK_HFE_CMD_OP h op).setF F.LNK_HFE_CMD_LANE h lane).setF F.LNK_HFE_CMD_PAT h pat).setB
      F.LNK_HFE_CMD_BUSY h true).setB F.LNK_HFE_CMD_TIMEOUT h false).downOn h 0 = true := by
    simpa (disch := decide +kernel) [State.downOn] using hdown
  rw [State.sendBlock, hdown']
  exact List.mem_append_right _ (List.mem_singleton.2 rfl)

theorem downOn_flushAsm (s : State) (h j : Nat) : (fresh s).flushAsm.downOn h j = s.downOn h j := by
  simp (disch := decide +kernel) [State.downOn]

/-- The rows of LINK_CMD, each with its number. -/
theorem linkCmd_exec (h : Fin 32) (lane : BitVec 3) (s : State) :
    ∀ c ∈ [(Instr.farLoopbackD0 h, 1), (.farLoopbackD1 h, 2), (.farLoopbackEnd h, 3), (fun lane => .hfeGeneratorStart h lane 0, 4),
      (.hfeGeneratorStop h, 5)], exec (c.1 lane) s = doneW s (fun t => t.linkCmd h c.2 lane.toNat 0) ∧ c.2 < 8 := by
  simp only [List.forall_mem_cons, List.not_mem_nil, false_implies, implies_true, and_true]
  exact ⟨⟨rfl, by decide⟩, ⟨rfl, by decide⟩, ⟨rfl, by decide⟩, ⟨rfl, by decide⟩, ⟨rfl, by decide⟩⟩

theorem linkCmd_next {s : State} (hserved : s.pf1Served = true) (h : Fin 32) {i : Instr} {op : Nat} {lane pat : BitVec 3}
    (hexec : exec i s = doneW s fun t => t.linkCmd h op lane.toNat pat.toNat) (hop : op < 8) (hoff : s.clr h = hdOFF)
    (hfree : s.isSet F.LNK_HFE_CMD_BUSY h = false) :
    ∃ t, exec i s = .next t ∧ t.isSet F.LNK_HFE_CMD_BUSY h = true ∧ t.getF F.LNK_HFE_CMD_OP h = op ∧
      t.getF F.LNK_HFE_CMD_LANE h = lane.toNat ∧ t.getF F.LNK_HFE_CMD_PAT h = pat.toNat ∧
      (s.downOn h 0 = true → .block h 0 (linkCmdBlock (s.link h).cmdSeq op lane.toNat pat.toNat) ∈ t.out) := by
  obtain ⟨t, ht, same⟩ := doneW_next hserved fun t => t.linkCmd h op lane.toNat pat.toNat
  obtain ⟨hbusy, hop', hlane, hpat, hout⟩ := linkCmd_sent (s := (fresh s).flushAsm) (op := op) ((clr_flushAsm s h).trans hoff)
    (by simpa (disch := decide +kernel) using hfree) hop lane.isLt pat.isLt
  refine ⟨t, hexec.trans ht, (same.isSet ..).trans hbusy, (same.getF ..).trans hop', (same.getF ..).trans hlane,
    (same.getF ..).trans hpat, fun hdown => same.emitted ?_⟩
  rw [link_flushAsm] at hout
  exact hout ((downOn_flushAsm s h 0).trans hdown)

theorem hfeGeneratorStart_rejected {s : State} (hserved : s.pf1Served = true) (h : Fin 32) (lane pat : BitVec 3) (hon : s.clr h ≠ hdOFF) :
    ∃ t, exec (.hfeGeneratorStart h lane pat) s = .next t ∧ t.isSet F.LNK_EVT_CFG_REJECT 0 = true ∧
      t.getF F.LNK_HFE_CMD_OP h = 4 ∧ t.getF F.LNK_HFE_CMD_LANE h = lane.toNat ∧ t.getF F.LNK_HFE_CMD_PAT h = pat.toNat ∧
      t.isSet F.LNK_HFE_CMD_BUSY h = s.isSet F.LNK_HFE_CMD_BUSY h := by
  obtain ⟨t, ht, same⟩ := doneW_next hserved fun t => t.linkCmd h 4 lane.toNat pat.toNat
  have hmod : ∀ v : BitVec 3, v.toNat % 2 ^ 3 = v.toNat := fun v => Nat.mod_eq_of_lt v.isLt
  unfold State.linkCmd at same
  dsimp only at same
  rw [clr_flushAsm, if_pos (by simpa using hon), State.lnkReject] at same
  refine ⟨t, ht, ?_, ?_, ?_, ?_, ?_⟩
  · rw [same.isSet]
    exact isSet_raiseLnk_same _ E.LNK_CFG_REJECT rfl (by decide) (by decide) (by decide)
  · rw [same.getF, getF_raiseLnk_other _ _ (by decide) (by decide) (by decide)]
    simp (disch := decide +kernel) only [getF_setF_other, getF_setF]
    rfl
  · rw [same.getF, getF_raiseLnk_other _ _ (by decide) (by decide) (by decide)]
    simp (disch := decide +kernel) only [getF_setF_other, getF_setF]
    exact hmod lane
  · rw [same.getF, getF_raiseLnk_other _ _ (by decide) (by decide) (by decide), getF_setF]
    exact hmod pat
  · rw [State.isSet, same.getF, getF_raiseLnk_other _ _ (by decide) (by decide) (by decide)]
    simp (disch := decide +kernel) only [getF_setF_other, getF_flushAsm, fresh_getF]
    rfl

/-! ### FIFO_FLUSH -/

/-- The FIFO holds no item and no word. -/
def Emptied (s : State) (h f : Nat) : Prop := (s.fifo h f).drain = none ∧ (s.fifo h f).fill = none ∧ (s.fifo h f).stalled = none

/-- From s to t FIFO g of head h has been emptied; the other FIFOs and what waits of the bonded stream are as before. -/
structure Flushed (s t : State) (h g : Nat) : Prop where
  emptied : Emptied t h g
  others : ∀ f, g ≠ f → t.fifo h f = s.fifo h f
  waits : NothingWaits s h → NothingWaits t h

/-- What leaves the FIFOs and what waits of the bonded stream leaves them flushed. -/
theorem Flushed.of_link {s t u : State} {h g : Nat} (hflushed : Flushed s t h g) (hfifos : (u.link h).fifos = (t.link h).fifos)
    (hlink : (u.link h).wait = (t.link h).wait ∧ (u.link h).base = (t.link h).base ∧ (u.link h).due = (t.link h).due) :
    Flushed s u h g := by
  have hfifo : ∀ f, u.fifo h f = t.fifo h f := fun f => by rw [State.fifo, hfifos, State.fifo]
  obtain ⟨hemptied, hothers, hwaits⟩ := hflushed
  refine ⟨?_, fun f hne => (hfifo f).trans (hothers f hne), fun hnone => nothingWaits_of_link t hlink (hwaits hnone)⟩
  rw [Emptied, hfifo]
  exact hemptied

theorem Flushed.of_heads {s t u : State} {h g : Nat} (hflushed : Flushed s t h g) (hheads : u.heads = t.heads) : Flushed s u h g := by
  have hlink := link_of_heads t (h := h) hheads
  exact hflushed.of_link (by rw [hlink]) (by rw [hlink]; exact ⟨rfl, rfl, rfl⟩)

theorem flushed_setFifo (s : State) {h g : Nat} (hh : h < 32) (hg : g < 6) {x : FifoS} (hdrain : x.drain = none)
    (hfill : x.fill = none) (hstalled : x.stalled = none) : Flushed s (s.setFifo h g x) h g where
  emptied := by
    rw [Emptied, fifo_setFifo_same s x hh hg]
    exact ⟨hdrain, hfill, hstalled⟩
  others f hne := fifo_setFifo_other s x hh hne
  waits := nothingWaits_of_link s (by
    rw [State.setFifo, link_updLink_same s _ hh]
    exact ⟨rfl, rfl, rfl⟩)

theorem flushed_flushFifo (s : State) {h g : Nat} (hh : h < 32) (hg : g < 6) : Flushed s (s.flushFifo h g) h g := by
  have hbank : ∀ t, Flushed s t h g →
      Flushed s (if g < 2 then t.updLink h fun l => { l with bank := l.bank.filter fun p => p.stream ≠ g } else t) h g := by
    intro t ht
    split
    · refine ht.of_link ?_ ?_ <;> rw [link_updLink_same t _ hh]
      exact ⟨rfl, rfl, rfl⟩
    · exact ht
  have hbeam : ∀ t c, Flushed s t h g → Flushed s (if 2 ≤ g then (t.truncate c).rfFlushed c else t) h g := by
    intro t c ht
    split
    · exact ht.of_heads ((unmasked (rfFlushed_frame ..).heads (by decide +kernel)).trans
        (unmasked (truncate_frame ..).heads (by decide +kernel)))
    · exact ht
  unfold State.flushFifo
  refine hbeam _ _ (hbank _ ?_)
  split
  · exact (flushed_setFifo s hh hg (x := { lastSeq := (s.fifo h g).lastSeq, drop := true }) rfl rfl rfl).of_heads rfl
  · exact flushed_setFifo s hh hg rfl rfl rfl

/-- A loop whose every turn keeps what one of its turns brings about. -/
theorem forEach_brings {α : Type} {P Q : State → Prop} {l : List α} {f : State → α → State} {s : State} {a : α} (ha : a ∈ l)
    (hs : P s) (hkeep : ∀ t, ∀ x ∈ l, P t → P (f t x)) (hbring : ∀ t, P t → Q (f t a)) (hstays : ∀ t, ∀ x ∈ l, P t → Q t → Q (f t x)) :
    P (s.forEach l f) ∧ Q (s.forEach l f) := by
  obtain ⟨l1, l2, rfl⟩ := List.append_of_mem ha
  have hmid : P (s.forEach l1 f) := forEach_keeps (fun t x hx => hkeep t x (List.mem_append_left _ hx)) hs
  have hsplit : s.forEach (l1 ++ a :: l2) f = (f (s.forEach l1 f) a).forEach l2 f := by
    rw [State.forEach, List.foldl_append, List.foldl_cons]
    rfl
  rw [hsplit]
  have hmem : ∀ x ∈ l2, x ∈ l1 ++ a :: l2 := fun x hx => List.mem_append_right _ (List.mem_cons_of_mem _ hx)
  exact forEach_keeps (P := fun t => P t ∧ Q t) (fun t x hx ht => ⟨hkeep t x (hmem x hx) ht.1, hstays t x (hmem x hx) ht.1 ht.2⟩)
    ⟨hkeep _ a ha hmid, hbring _ hmid⟩

theorem fifoFlush_next {s : State} (hserved : s.pf1Served = true) (h : Fin 32) (w : BitVec 32) (f : Fin 6)
    (hmask : w.toNat.testBit f = true) (hwait : (s.link h).wait = []) (hdue : (s.link h).base ≤ (s.link h).due) :
    ∃ t, exec (.fifoFlush h w) s = .next t ∧ (t.fifo h f).drain = none ∧ (t.fifo h f).fill = none ∧ (t.fifo h f).stalled = none := by
  obtain ⟨t, ht, same⟩ := doneW_next hserved fun t => t.flushMask h w.toNat
  have hloop : NothingWaits ((fresh s).flushAsm.forEach ((List.range 6).filter fun f => w.toNat.testBit f) fun t f => t.flushFifo h f) h ∧
      Emptied ((fresh s).flushAsm.forEach ((List.range 6).filter fun f => w.toNat.testBit f) fun t f => t.flushFifo h f) h f := by
    refine forEach_brings (P := fun t => NothingWaits t h) (Q := fun t => Emptied t h f) (a := f.val) (by simp [hmask]) ?_
      (fun t g hg hnone => ?_) (fun t _ => ?_) (fun t g hg _ hemptied => ?_)
    · rw [NothingWaits, link_flushAsm]
      exact ⟨hwait, hdue⟩
    · exact (flushed_flushFifo t h.isLt (List.mem_range.1 (List.mem_filter.1 hg).1)).waits hnone
    · exact (flushed_flushFifo t h.isLt f.isLt).emptied
    · have hflushed := flushed_flushFifo t h.isLt (List.mem_range.1 (List.mem_filter.1 hg).1)
      by_cases hgf : g = f
      · exact hgf ▸ hflushed.emptied
      · rw [Emptied, hflushed.others f hgf]
        exact hemptied
  obtain ⟨hnone, hemptied⟩ := hloop
  rw [State.flushMask, deliver_of_nothing _ hnone] at same
  refine ⟨t, ht, ?_⟩
  rw [State.fifo, link_of_heads _ same.heads, ← State.fifo]
  exact hemptied

/-! ### LANE_FAIL by DIS, eye scan, LEAD -/

theorem laneFail_dis {s : State} (hserved : s.pf1Served = true) (h : Fin 32) (lane : Fin 8) (hoff : s.lk h = lkOFF) :
    ∃ t, exec (.laneFail h lane .dis) s = .next t ∧ t.isSet F.LNK_LANE_CTL_DIS (8 * h + lane) = true := by
  obtain ⟨t, ht, same⟩ := doneQW_next hserved fun t => t.laneFail h lane .dis
  have hlk : ((fresh s).flushAsm.setB F.LNK_LANE_CTL_DIS (8 * h + lane) true).lk h = lkOFF := by
    rw [State.lk, getF_setB_other _ _ (by decide)]
    exact (lk_flushAsm s h).trans hoff
  rw [State.laneFail] at same
  dsimp only at same
  rw [if_pos ((lk_flushAsm s h).trans hoff)] at same
  refine ⟨t, ht, ?_⟩
  rw [same.isSet, isSet_advance _ (by decide) (by decide +kernel), isSet_setB_same _ _ _ _ (by decide)]

/-- The parts of the word that starts an eye scan. -/
theorem eyeWord_parts (dwell : BitVec 4) (vofs hofs : BitVec 6) :
    bitsOf (dwell.toNat * 2 ^ 16 + vofs.toNat * 2 ^ 8 + hofs.toNat * 4 + 1) 19 16 = dwell.toNat ∧
    bitsOf (dwell.toNat * 2 ^ 16 + vofs.toNat * 2 ^ 8 + hofs.toNat * 4 + 1) 13 8 = vofs.toNat ∧
    bitsOf (dwell.toNat * 2 ^ 16 + vofs.toNat * 2 ^ 8 + hofs.toNat * 4 + 1) 7 2 = hofs.toNat ∧
    bitsOf (dwell.toNat * 2 ^ 16 + vofs.toNat * 2 ^ 8 + hofs.toNat * 4 + 1) 0 0 = 1 := by
  have hd := dwell.isLt
  have hv := vofs.isLt
  have hh := hofs.isLt
  unfold bitsOf
  omega

theorem eyeScanStart_next {s : State} (hserved : s.pf1Served = true) (l : Fin 256) (dwell : BitVec 4) (vofs hofs : BitVec 6)
    (hup : l.val % 8 < 6) :
    ∃ t, exec (.eyeScanStart l dwell vofs hofs) s = .next t ∧ t.isSet F.LNK_EYE_CTL_START l = true ∧
      t.isSet F.LNK_EYE_RESULT_DONE l = false ∧ t.getF F.LNK_EYE_CTL_DWELL l = dwell.toNat ∧
      t.getF F.LNK_EYE_CTL_VOFS l = vofs.toNat ∧ t.getF F.LNK_EYE_CTL_HOFS l = hofs.toNat := by
  obtain ⟨t, ht, same⟩ := doneW_next hserved fun t =>
    t.writeEye l (dwell.toNat * 2 ^ 16 + vofs.toNat * 2 ^ 8 + hofs.toNat * 4 + 1)
  obtain ⟨hdwell, hvofs, hhofs, hstart⟩ := eyeWord_parts dwell vofs hofs
  rw [State.writeEye, hdwell, hvofs, hhofs, hstart] at same
  rw [if_pos ⟨rfl, .inl hup⟩] at same
  refine ⟨t, ht, ?_⟩
  rw [same.isSet, same.isSet, same.getF, same.getF, same.getF]
  simp (disch := decide +kernel) only [isSet_setB_same, isSet_setB_other, getF_setB_other, getF_setF_other, getF_setF]
  exact ⟨trivial, trivial, Nat.mod_eq_of_lt dwell.isLt, Nat.mod_eq_of_lt vofs.isLt, Nat.mod_eq_of_lt hofs.isLt⟩

theorem tickLeadWrite_next {s : State} (hserved : s.pf1Served = true) (h : Fin 32) (w : BitVec 32) :
    ∃ t, exec (.tickLeadWrite h w) s = .next t ∧ Same ((fresh s).flushAsm.writeLead h w.toNat) t :=
  doneW_next hserved fun t => t.writeLead h w.toNat

theorem tickLeadWrite_stores {s : State} (hserved : s.pf1Served = true) (h : Fin 32) (w : BitVec 32) (hovr : bitsOf w.toNat 31 31 = 1)
    (hlo : 16 ≤ bitsOf w.toNat 10 0) (hhi : bitsOf w.toNat 10 0 ≤ 224) :
    ∃ t, exec (.tickLeadWrite h w) s = .next t ∧ t.isSet F.LNK_TICK_LEAD_OVR h = true ∧
      t.getF F.LNK_TICK_LEAD_LEAD h = bitsOf w.toNat 10 0 := by
  obtain ⟨t, ht, same⟩ := tickLeadWrite_next hserved h w
  rw [State.writeLead, hovr] at same
  rw [if_neg (by decide), if_pos ⟨hlo, hhi⟩] at same
  refine ⟨t, ht, ?_, ?_⟩
  · rw [same.isSet]
    simp (disch := decide +kernel)
  · rw [same.getF, getF_setF]
    exact Nat.mod_eq_of_lt (bitsOf_lt w.toNat 10 0)

theorem tickLeadWrite_rejected {s : State} (hserved : s.pf1Served = true) (h : Fin 32) (w : BitVec 32)
    (hovr : bitsOf w.toNat 31 31 = 1) (hout : bitsOf w.toNat 10 0 < 16 ∨ 224 < bitsOf w.toNat 10 0) :
    ∃ t, exec (.tickLeadWrite h w) s = .next t ∧ t.isSet F.LNK_EVT_CFG_REJECT 0 = true ∧
      t.getF F.LNK_TICK_LEAD_LEAD h = s.getF F.LNK_TICK_LEAD_LEAD h := by
  obtain ⟨t, ht, same⟩ := tickLeadWrite_next hserved h w
  rw [State.writeLead, hovr] at same
  rw [if_neg (by decide), if_neg (by omega), State.lnkReject] at same
  refine ⟨t, ht, ?_, ?_⟩
  · rw [same.isSet]
    exact isSet_raiseLnk_same _ E.LNK_CFG_REJECT rfl (by decide) (by decide) (by decide)
  · rw [same.getF, getF_raiseLnk_other _ _ (by decide) (by decide) (by decide), getF_flushAsm _ (by decide) (by decide +kernel),
      fresh_getF]

/-- Settles O18: one lemma per row, above. -/
theorem linkRegisterRows : Obligations.LinkRegisterRows := by
  intro s h hserved
  refine ⟨linkEnable_next hserved h, linkDisable_next hserved h, prbsCtlWrite_stores hserved, prbsCtlWrite_rejected hserved,
    fun c hc lane hoff hfree => ?_, fun lane pat hoff hfree => ?_, hfeGeneratorStart_rejected hserved h,
    fun w f => fifoFlush_next hserved h w f, laneFail_dis hserved h, eyeScanStart_next hserved, tickLeadWrite_stores hserved h,
    tickLeadWrite_rejected hserved h⟩
  · obtain ⟨hexec, hop⟩ := linkCmd_exec h lane s c hc
    obtain ⟨t, ht, hbusy, hop', hlane, -, hout⟩ := linkCmd_next hserved h (pat := 0) hexec hop hoff hfree
    exact ⟨t, ht, hbusy, hop', hlane, hout⟩
  · obtain ⟨t, ht, hbusy, -, -, hpat, hout⟩ := linkCmd_next (i := .hfeGeneratorStart h lane pat) hserved h rfl
      (by decide : 4 < 8) hoff hfree
    exact ⟨t, ht, hbusy, hpat, hout⟩

end Sys2Proof.Proofs
end

section
/-!
PROOFS. The head link rows that are events of the link (04): received blocks and items, markers, lanes, training.
-/
set_option Elab.async false

namespace Sys2Proof.Proofs

open Sys2Proof.Machine Sys2Proof.Laws

/-! ### Lanes -/

section
variable (s : State) {l k : Nat}

theorem lane_setLane_same (x : LaneS) (hl : l < 256) : (s.setLane l x).lane l = x := vget_vset_same _ _ _ hl

theorem lane_setLane_other (x : LaneS) (hne : k ≠ l) : (s.setLane k x).lane l = s.lane l := vget_vset_other _ _ _ hne

theorem link_setLane (x : LaneS) (h : Nat) : (s.setLane k x).link h = s.link h := rfl

theorem link_setF (f : Field) (i v h : Nat) : (s.setF f i v).link h = s.link h := rfl

theorem lane_of_lanes {t : State} (hlanes : t.lanes = s.lanes) : t.lane l = s.lane l := by rw [State.lane, hlanes, State.lane]

end

theorem upLane_lt (h : Fin 32) (lane : Fin 6) : upLane h lane < 256 := by
  unfold upLane
  omega

/-- An update of a link depends on the link alone. -/
theorem updLink_congr (s : State) {h : Nat} {f g : LinkS → LinkS} (heq : f (s.link h) = g (s.link h)) :
    s.updLink h f = s.updLink h g := by
  exact congrArg (fun x => s.setHead h { s.head h with link := x }) heq

/-! ### LINK_WORD_PUSH -/

/-- A good sync header keeps block lock and the count of the lane's blocks. -/
theorem header_of_good {a : LaneS} (hbad : a.badHdr < 16) : (a.header true true).1 = true ∧ (a.header true true).2.cnt = a.cnt := by
  unfold LaneS.header
  rw [if_pos rfl]
  dsimp only
  rw [if_neg (by simpa using hbad)]
  split <;> exact ⟨rfl, rfl⟩

/-- A data block on a locked lane. -/
theorem lineBlock_of_good {s : State} {l w : Nat} (hl : l < 256) (hlock : s.isSet F.LNK_LANE_STATUS_BLOCK_LOCK l = true)
    (hbad : (s.lane l).badHdr < 16) :
    (s.lineBlock l 1 w).isSet F.LNK_LANE_STATUS_BLOCK_LOCK l = true ∧ ((s.lineBlock l 1 w).lane l).cnt = (s.lane l).cnt := by
  obtain ⟨hkept, hcnt⟩ := header_of_good hbad
  have heq : s.lineBlock l 1 w = (s.setLane l { ((s.lane l).header true true).2 with scr := (descramble (s.lane l).scr w).2 }).setB
      F.LNK_LANE_STATUS_BLOCK_LOCK l true := by
    unfold State.lineBlock
    simp only [hlock, hkept, decide_true, Bool.true_or, Bool.not_true, Bool.and_false, State.onlyIf, Bool.false_eq_true, if_false]
  rw [heq]
  refine ⟨isSet_setB_same _ _ _ _ (by decide), ?_⟩
  show ((s.setLane l _).lane l).cnt = _
  rw [lane_setLane_same s _ hl]
  exact hcnt

/-- A checker that takes bits counts no block. -/
theorem cnt_rawBits (s : State) {l : Nat} (hl : l < 256) (bs : List Bool) : ((s.rawBits l bs).lane l).cnt = (s.lane l).cnt := by
  unfold State.rawBits
  split
  · show ((s.setLane l _).lane l).cnt = _
    rw [lane_setLane_same s _ hl]
  · rfl

/-- The head's state once lane k's block has been taken from the line and checked. -/
def lineTaken (s : State) (h k w : Nat) : State :=
  (s.lineBlock (upLane h k) 1 w).rawBits (upLane h k) (bitsMsb 2 1 ++ bitsLsb 64 w)

theorem link_lineTaken (s : State) (h k w : Nat) : (lineTaken s h k w).link h = s.link h :=
  link_of_heads s ((unmasked (rawBits_frame ..).heads (by decide +kernel)).trans
    (unmasked (lineBlock_frame ..).heads (by decide +kernel)))

/-- The block waits in the bonded stream at its position. -/
def blockWaits (s : State) (h k w rtt : Nat) : State :=
  ((lineTaken s h k w).setLane (upLane h k) { (lineTaken s h k w).lane (upLane h k) with
      cnt := ((lineTaken s h k w).lane (upLane h k)).cnt + 1 }).updLink h fun x =>
    { x with wait := x.wait ++ [{ pos := (s.link h).base + 5 * (s.lane (upLane h k)).cnt + ((s.ranked h).takeWhile (· ≠ k)).length,
                                  hdr := 1, w := (descramble (s.lane (upLane h k)).scr w).1, rtt := rtt }] }

/-- Lane k takes part in the bonded stream. -/
structure Bonded (s : State) (h k : Nat) : Prop where
  lane : upLane h k < 256
  near : s.isSet F.LNK_PRBS_CTL_NEAR (upLane h k) = false
  lock : s.isSet F.LNK_LANE_STATUS_BLOCK_LOCK (upLane h k) = true
  good : (s.lane (upLane h k)).badHdr < 16
  receives : s.receives h = true
  soaks : s.soaks h k = false
  active : s.bitF F.LNK_HEAD_STATUS_ACTIVE h k = true
  hole : s.isHole h k = false

theorem block_of_bonded {s : State} {h k : Nat} (bonded : Bonded s h k) (w rtt : Nat) :
    s.block h k 1 w rtt = (blockWaits s h k w rtt).deliver h := by
  obtain ⟨hl, hnear, hlock, hbad, hreceives, hsoaks, hactive, hhole⟩ := bonded
  obtain ⟨hkept, hcnt⟩ := lineBlock_of_good (w := w) hl hlock hbad
  have hlock2 : (lineTaken s h k w).isSet F.LNK_LANE_STATUS_BLOCK_LOCK (upLane h k) = true :=
    ((rawBits_frame ..).isSet (by decide) (by decide +kernel)).trans hkept
  have hcnt2 : ((lineTaken s h k w).lane (upLane h k)).cnt = (s.lane (upLane h k)).cnt := (cnt_rawBits _ hl _).trans hcnt
  have htaken : (s.lineBlock (upLane h k) 1 w).onlyIf (!s.soaks h k) (fun t => t.rawBits (upLane h k) (bitsMsb 2 1 ++ bitsLsb 64 w)) =
      lineTaken s h k w := by
    rw [hsoaks]
    rfl
  unfold State.block
  dsimp only
  rw [htaken, hlock2, hlock, hreceives, hnear, hsoaks, hactive, hhole, hcnt2]
  simp only [Bool.false_eq_true, if_false, Bool.not_true, Bool.and_false, Bool.or_self, if_true, blockWaits, hcnt2]

/-- The one block that waits is delivered when its turn has come. -/
theorem deliver_one {s : State} {h f n : Nat} {x : Waiting} (hh : h < 32) (hfree : s.stalled h = false)
    (hwait : (s.link h).wait = [x]) (hpos : x.pos = (s.link h).due) (hhdr : x.hdr = 1) (hbase : (s.link h).base ≤ (s.link h).due)
    (hcur : (s.link h).cur = some (f, n)) (hf : f < 6) :
    ((s.deliver h).fifo h f) = (s.fifo h f).push (fifoWords f) (LWord.of x.w false) ∧ ((s.deliver h).link h).due = (s.link h).due + 1 := by
  have hstep : s.deliver h = State.drain 12
      (((s.updLink h fun l => { l with due := (s.link h).due + 1, wait := [] }).bonded h x)) h := by
    rw [State.deliver, hwait]
    show State.drain (12 + 1) s h = _
    rw [State.drain]
    simp only [hfree, hwait, hpos, Bool.false_eq_true, if_false, List.find?_cons, decide_true]
    refine congrArg (fun u => State.drain 12 (State.bonded u h x) h) (updLink_congr s ?_)
    simp [hwait, hpos]
  have hlink : (s.updLink h fun l => { l with due := (s.link h).due + 1, wait := [] }).link h =
      { s.link h with due := (s.link h).due + 1, wait := [] } := link_updLink_same s _ hh
  have hfifo : (s.updLink h fun l => { l with due := (s.link h).due + 1, wait := [] }).fifo h f = s.fifo h f :=
    fifo_updLink s _ hh rfl
  rw [hstep]
  generalize s.updLink h (fun l => { l with due := (s.link h).due + 1, wait := [] }) = u at hlink hfifo ⊢
  have hword : u.bonded h x = (u.setFifo h f ((s.fifo h f).push (fifoWords f) (LWord.of x.w false))).updLink h fun l =>
      { l with cur := if n ≤ 1 then none else some (f, n - 1) } := by
    rw [State.bonded, if_pos hhdr, State.dataWord, hlink]
    simp only [hcur, hfifo]
  have hdone : ((u.bonded h x).link h).wait = [] ∧ ((u.bonded h x).link h).base = (s.link h).base ∧
      ((u.bonded h x).link h).due = (s.link h).due + 1 := by
    rw [hword, link_updLink_same _ _ hh, State.setFifo, link_updLink_same _ _ hh, hlink]
    exact ⟨rfl, rfl, rfl⟩
  obtain ⟨hempty, hbase', hdue'⟩ := hdone
  rw [drain_of_nothing _ ⟨hempty, by rw [hbase', hdue']; omega⟩]
  refine ⟨?_, hdue'⟩
  rw [hword, fifo_updLink _ _ hh (by rfl), fifo_setFifo_same _ _ hh hf]

/-- A word lands in the fill bank of an item that it does not complete. -/
theorem push_of_room {x : FifoS} {it : Item} {n : Nat} (w : LWord) (hdrop : x.drop = false) (hstalled : x.stalled = none)
    (hfull : x.full = false) (hfill : x.fill = some it) (hroom : it.words.length + 1 < n) :
    (x.push n w).fill = some { it with words := it.words ++ [w] } := by
  have hshort : ¬ n ≤ (it.words ++ [w]).length := by
    rw [List.length_append]
    simpa using hroom
  unfold FifoS.push
  rw [hdrop, hstalled, hfull]
  simp only [Option.isSome_none, Bool.or_self, Bool.false_and, Bool.false_eq_true, if_false, FifoS.land, hfill, hshort, decide_false]

theorem linkWordPush_next {s : State} (hheld : s.pwr.held = []) (h : Fin 32) (lane f : Fin 6) {n : Nat} (w : BitVec 64) (rtt : Nat)
    {it : Item} (hquiet : s.HostQuiet) (bonded : Bonded s h lane) (hfree : s.stalled h = false) (hwait : (s.link h).wait = [])
    (hdue : (s.link h).due =
      (s.link h).base + 5 * (s.lane (upLane h lane)).cnt + ((s.ranked h).takeWhile (· ≠ lane.val)).length)
    (hcur : (s.link h).cur = some (f.val, n)) (hdrop : (s.fifo h f).drop = false) (hfull : (s.fifo h f).full = false)
    (hfill : (s.fifo h f).fill = some it) (hroom : it.words.length + 1 < fifoWords f) :
    ∃ t, exec (.linkWordPush h lane 1 w rtt) s = .next t ∧
      (t.fifo h f).fill =
        some { it with words := it.words ++ [LWord.of (descramble (s.lane (upLane h lane)).scr w.toNat).1 false] } ∧
      (t.link h).due = (s.link h).due + 1 := by
  have heq := block_of_bonded (s := fresh s) (h := h) (k := lane) (by obtain ⟨a, b, c, d, e, f, g, i⟩ := bonded; exact ⟨a, b, c, d, e, f, g, i⟩)
    w.toNat rtt
  have hquiet' : ((fresh s).block h lane 1 w.toNat rtt).HostQuiet := by
    rw [heq]
    refine hostQuiet_of_parts hquiet ?_ ?_
    · exact (unmasked (deliver_frame ..).hqi (by decide +kernel)).trans
        ((unmasked (rawBits_frame ..).hqi (by decide +kernel)).trans (unmasked (lineBlock_frame ..).hqi (by decide +kernel)))
    · exact (unmasked (deliver_frame ..).vols (by decide +kernel)).trans
        ((unmasked (rawBits_frame ..).vols (by decide +kernel)).trans (unmasked (lineBlock_frame ..).vols (by decide +kernel)))
  obtain ⟨t, ht, same⟩ := doneQ_quiet hheld (f := fun t => t.block h lane 1 w.toNat rtt) hquiet'
  rw [heq] at same
  have hlink : (blockWaits (fresh s) h lane w.toNat rtt).link h = { s.link h with
      wait := [{ pos := (s.link h).due, hdr := 1, w := (descramble (s.lane (upLane h lane)).scr w.toNat).1, rtt := rtt }] } := by
    rw [blockWaits, link_updLink_same _ _ h.isLt, link_setLane, link_lineTaken, hdue]
    rw [show ((fresh s).link h).wait = [] from hwait]
    rfl
  have hfifo : (blockWaits (fresh s) h lane w.toNat rtt).fifo h f = s.fifo h f := by rw [State.fifo, hlink, State.fifo]
  have hfree' : (blockWaits (fresh s) h lane w.toNat rtt).stalled h = false := by
    rw [State.stalled, hlink]
    exact hfree
  obtain ⟨hpush, hnext⟩ := deliver_one h.isLt hfree' (by rw [hlink]) (by rw [hlink]) rfl
    (by rw [hlink]; show (s.link h).base ≤ (s.link h).due; omega)
    (by rw [hlink]; exact hcur) f.isLt
  have hstalled : (s.fifo h f).stalled = none := by
    have hnone := List.any_eq_false.1 hfree (s.fifo h f) (by
      rw [State.fifo, vget, Vector.getElem?_eq_getElem f.isLt]
      exact Array.mem_toList_iff.2 (Array.getElem_mem _))
    simpa using hnone
  refine ⟨t, ht, ?_, ?_⟩
  · rw [State.fifo, link_of_heads _ same.heads, ← State.fifo, hpush, hfifo]
    exact push_of_room _ hdrop hstalled hfull hfill hroom
  · rw [link_of_heads _ same.heads, hnext, hlink]

/-! ### FIFO_POP and FIFO_OVERFLOW -/

theorem pop_of_drain {x : FifoS} {it : Item} (n : Nat) (hdrain : x.drain = some it) (hfull : x.full = false) (hstalled : x.stalled = none) :
    x.pop n = (some it, { x with drain := none }) := by
  unfold FifoS.pop
  simp [hdrain, hfull, hstalled]

/-- What taking an item out of a FIFO leaves of it. -/
theorem fifo_popItem (s : State) {h f : Nat} {it : Item} (flips : List (Nat × Nat)) (hh : h < 32) (hf : f < 6) (hnone : NothingWaits s h)
    (hdrain : (s.fifo h f).drain = some it) (hfull : (s.fifo h f).full = false) (hstalled : (s.fifo h f).stalled = none) :
    ∃ p, (s.popItem h f flips).2 = some p ∧
      (s.popItem h f flips).1.fifo h f = { s.fifo h f with drain := none, lastSeq := some it.seq } := by
  unfold State.popItem
  dsimp only
  rw [pop_of_drain _ hdrain hfull hstalled]
  dsimp only
  set u := s.setFifo h f { s.fifo h f with drain := none, lastSeq := some it.seq } with hu
  have hlink : ∀ (c : Bool) (n : Nat), (u.onlyIf c fun t => (t.addSat F.LNK_POISON_COUNT h n).raiseLnk E.LNK_POISON h).link h =
    u.link h := by
    intro c n
    cases c <;> rfl
  have hwaits : (u.link h).wait = (s.link h).wait ∧ (u.link h).base = (s.link h).base ∧ (u.link h).due = (s.link h).due := by
    rw [hu, State.setFifo, link_updLink_same _ _ hh]
    exact ⟨rfl, rfl, rfl⟩
  refine ⟨_, rfl, ?_⟩
  rw [deliver_of_nothing _ (nothingWaits_of_link s (by rw [hlink]; exact hwaits) hnone), State.fifo, hlink, ← State.fifo, hu,
    fifo_setFifo_same _ _ hh hf]

/-- The item that is taken changes no FIFO where it goes. -/
theorem fifo_pop (s : State) {h f : Nat} (flips : List (Nat × Nat)) (hh : h < 32) :
    (if f < 2 then s.popBank h f flips else s.popRf h f flips).fifo h f = (s.popItem h f flips).1.fifo h f := by
  unfold State.popBank State.popRf
  generalize s.popItem h f flips = r
  obtain ⟨t, p⟩ := r
  cases p with
  | none => split <;> rfl
  | some p =>
    split
    · exact fifo_updLink t _ hh rfl
    · show (t.rfItem (4 * h + (f - 2)) p).fifo h f = t.fifo h f
      rw [State.fifo, link_of_heads t (unmasked (rfItem_frame ..).heads (by decide +kernel)), State.fifo]

theorem fifoPop_next {s : State} (hheld : s.pwr.held = []) (h : Fin 32) (f : Fin 6) (flips : List (Nat × Nat)) (it : Item)
    (hwait : (s.link h).wait = []) (hdue : (s.link h).base ≤ (s.link h).due) (hdrain : (s.fifo h f).drain = some it)
    (hfull : (s.fifo h f).full = false) (hstalled : (s.fifo h f).stalled = none) :
    ∃ t, exec (.fifoPop h f flips) s = .next t ∧ (t.fifo h f).drain = none ∧ (t.fifo h f).lastSeq = some it.seq := by
  obtain ⟨t, ht, same⟩ := done_next hheld fun t => if f.val < 2 then t.popBank h f flips else t.popRf h f flips
  obtain ⟨p, -, hfifo⟩ := fifo_popItem (fresh s) flips h.isLt f.isLt ⟨hwait, hdue⟩ hdrain hfull hstalled
  have hleft : t.fifo h f = { (fresh s).fifo h f with drain := none, lastSeq := some it.seq } := by
    rw [State.fifo, link_of_heads _ same.heads, ← State.fifo, fifo_pop _ _ h.isLt, hfifo]
  exact ⟨t, ht, by rw [hleft], by rw [hleft]⟩

theorem fifoOverflow_next {s : State} (hheld : s.pwr.held = []) (h : Fin 32) (f : Fin 6) (hwait : (s.link h).wait = [])
    (hdue : (s.link h).base ≤ (s.link h).due) (hstalled : (s.fifo h f).stalled.isSome = true) :
    ∃ t, exec (.fifoOverflow h f) s = .next t ∧ (t.fifo h f).stalled = none ∧ (t.fifo h f).drop = true ∧
      t.getF F.LNK_DROP_DROPS h = min (s.getF F.LNK_DROP_DROPS h + 1) 65535 ∧ t.isSet F.LNK_EVT_DROP 0 = true ∧
      t.bitF F.LNK_EVT_HEADS_HEAD 0 h = true := by
  obtain ⟨t, ht, same⟩ := done_next hheld fun t =>
    let x := t.fifo h f
    if x.stalled.isSome then ((t.setFifo h f { x with stalled := none, head := none, drop := true }).dropItem h).deliver h else t
  dsimp only at same
  rw [if_pos (show ((fresh s).fifo h f).stalled.isSome = true from hstalled)] at same
  set u := (fresh s).setFifo h f { (fresh s).fifo h f with stalled := none, head := none, drop := true } with hu
  have hnone : NothingWaits (u.dropItem h) h := nothingWaits_of_link (fresh s) (by
    show (u.link h).wait = _ ∧ (u.link h).base = _ ∧ (u.link h).due = _
    rw [hu, State.setFifo, link_updLink_same _ _ h.isLt]
    exact ⟨rfl, rfl, rfl⟩) ⟨hwait, hdue⟩
  rw [deliver_of_nothing _ hnone] at same
  have hfifo : t.fifo h f = { (fresh s).fifo h f with stalled := none, head := none, drop := true } := by
    rw [State.fifo, link_of_heads _ same.heads]
    exact fifo_setFifo_same _ _ h.isLt f.isLt
  refine ⟨t, ht, by rw [hfifo], by rw [hfifo], ?_, ?_, ?_⟩
  · rw [same.getF, State.dropItem, getF_raiseLnk_other _ _ (by decide) (by decide) (by decide), getF_count_same]
    rfl
  · rw [same.isSet, State.dropItem]
    exact isSet_raiseLnk_same _ E.LNK_DROP rfl (by decide) (by decide) (by decide)
  · rw [same.bitF]
    exact bitF_raiseLnk _ E.LNK_DROP h.isLt

/-! ### ECHO_RECEIVED -/

theorem echoReceived_next {s : State} (hheld : s.pwr.held = []) (h : Fin 32) (seq : BitVec 8) (rtt : Nat) (htrain : s.lk h = lkTRAIN)
    (hseq : seq.toNat < 8) (hechoes : (s.link h).echoes < 8) :
    ∃ t, exec (.echoReceived h seq rtt) s = .next t ∧ (t.link h).echoes = (s.link h).echoes + 1 ∧
      (t.link h).rtt = max (s.link h).rtt rtt := by
  obtain ⟨t, ht, same⟩ := done_next hheld fun t => t.echo h seq.toNat rtt
  have htaken : ¬ ((fresh s).lk h ≠ lkTRAIN ∨ 8 ≤ seq.toNat ∨ 8 ≤ ((fresh s).link h).echoes) := by
    rw [show (fresh s).lk h = lkTRAIN from htrain, show (fresh s).link h = s.link h from rfl]
    omega
  rw [State.echo] at same
  dsimp only at same
  rw [if_neg htaken] at same
  refine ⟨t, ht, ?_⟩
  rw [link_of_heads _ same.heads]
  split
  · rw [link_updLink_same _ _ h.isLt, link_setF, link_updLink_same _ _ h.isLt]
    exact ⟨rfl, rfl⟩
  · rw [link_updLink_same _ _ h.isLt]
    exact ⟨rfl, rfl⟩

/-! ### ALIGN_MARKER -/

/-- The alignment of a lane is read from the lane itself and its lock. -/
theorem alignOf_congr {s t : State} {h k : Nat} (x : MarkerIn) (hlane : t.lane (upLane h k) = s.lane (upLane h k))
    (hlock : t.isSet F.LNK_LANE_STATUS_BLOCK_LOCK (upLane h k) = s.isSet F.LNK_LANE_STATUS_BLOCK_LOCK (upLane h k)) :
    t.alignOf h k x = s.alignOf h k x := by
  unfold State.alignOf
  rw [hlane, hlock]

section
variable (s : State) {f : Field} {i j : Nat}

theorem isSet_setF_inst (g : Field) (v : Nat) (hne : i ≠ j) : (s.setF g i v).isSet f j = s.isSet f j := by
  rw [State.isSet, getF_setF_inst _ _ hne, State.isSet]

theorem isSet_setB_inst (g : Field) (b : Bool) (hne : i ≠ j) : (s.setB g i b).isSet f j = s.isSet f j := isSet_setF_inst s g _ hne

theorem isSet_count_inst (g : Field) (hne : i ≠ j) : (s.count g i).isSet f j = s.isSet f j := isSet_setF_inst s g _ hne

end

section
variable (s : State) {l m : Nat} (hdr w : Nat) (f : Field)

/-- A block received on another lane. -/
theorem lineBlock_other (hne : m ≠ l) :
    (s.lineBlock m hdr w).lane l = s.lane l ∧ (s.lineBlock m hdr w).getF f l = s.getF f l := by
  unfold State.lineBlock State.onlyIf
  dsimp only
  split
  · exact ⟨lane_setLane_other s _ hne, by rw [getF_count_inst _ hne, getF_setB_inst _ _ hne, getF_setLane]⟩
  · exact ⟨lane_setLane_other s _ hne, by rw [getF_setB_inst _ _ hne, getF_setLane]⟩

variable {h k i : Nat} (x : MarkerIn)

/-- The lane's block of the marker, as the line delivers it. -/
def markerBlock (s : State) (l : Nat) (x : MarkerIn) : State :=
  match x.block with
  | some (hdr, w) => s.lineBlock l hdr w
  | none => s

theorem markerBlock_other (hne : m ≠ l) :
    (markerBlock s m x).lane l = s.lane l ∧ (markerBlock s m x).getF f l = s.getF f l := by
  unfold markerBlock
  cases x.block with
  | none => exact ⟨rfl, rfl⟩
  | some b => exact lineBlock_other s b.1 b.2 f hne

/-- What a marker stores of the lane after its block: its skew, whether it was aligned and its signal; the lane's counts. -/
theorem laneMarker_eq (h k : Nat) : ∃ a, s.laneMarker h k x =
    ((((((markerBlock s (upLane h k) x).setF F.LNK_LANE_STATUS_SKEW (upLane h k) (min 255 x.skew)).setB F.LNK_LANE_STATUS_MARKER_OK
      (upLane h k) (s.alignOf h k x).isSome).setB F.LNK_LANE_STATUS_SIG_DET (upLane h k) x.sig).onlyIf (!x.sig) fun t =>
        t.setB F.LNK_LANE_STATUS_BLOCK_LOCK (upLane h k) false).setLane (upLane h k) a).onlyIf (!(s.alignOf h k x).isSome) fun t =>
      t.count F.LNK_LANE_ERR_MK_ERR (upLane h k) := ⟨_, rfl⟩

/-- A marker on another lane. -/
theorem laneMarker_other (hne : upLane h i ≠ l) :
    (s.laneMarker h i x).lane l = s.lane l ∧ (s.laneMarker h i x).getF f l = s.getF f l := by
  obtain ⟨a, heq⟩ := laneMarker_eq s x h i
  obtain ⟨hlane, hreg⟩ := markerBlock_other s f x hne
  rw [heq, ← hlane, ← hreg]
  refine ⟨?_, ?_⟩
  · cases (s.alignOf h i x).isSome <;> cases x.sig <;> exact lane_setLane_other _ _ hne
  · simp only [State.onlyIf, getF_ite, getF_count_inst _ hne, getF_setLane, getF_setB_inst _ _ hne, getF_setF_inst _ _ hne, ite_self]

theorem laneMarker_same :
    (s.laneMarker h k x).isSet F.LNK_LANE_STATUS_MARKER_OK (upLane h k) = (s.alignOf h k x).isSome ∧
    (s.laneMarker h k x).getF F.LNK_LANE_STATUS_SKEW (upLane h k) = min 255 x.skew := by
  obtain ⟨a, heq⟩ := laneMarker_eq s x h k
  rw [heq]
  refine ⟨?_, ?_⟩
  · simp (disch := decide +kernel) only [State.onlyIf, isSet_ite, isSet_count_other, isSet_setLane, isSet_setB_other, isSet_setB_same,
      ite_self]
  · simp (disch := decide +kernel) only [State.onlyIf, getF_ite, getF_count_other, getF_setLane, getF_setB_other, getF_setF, ite_self]
    exact Nat.mod_eq_of_lt (by show _ < 256; omega)

end

theorem upLane_ne {h k i : Nat} (hne : i ≠ k) : upLane h i ≠ upLane h k := by
  unfold upLane
  omega

/-- The marker of lane k is stored whatever the other lanes' markers bring. -/
theorem markers_stored (s : State) (h : Nat) (lanes : List MarkerIn) {k : Nat} (hk : k < 6) :
    (s.forEach (List.range 6) fun t k => t.laneMarker h k (lanes.getD k {})).isSet F.LNK_LANE_STATUS_MARKER_OK (upLane h k) =
      (s.alignOf h k (lanes.getD k {})).isSome ∧
    (s.forEach (List.range 6) fun t k => t.laneMarker h k (lanes.getD k {})).getF F.LNK_LANE_STATUS_SKEW (upLane h k) =
      min 255 (lanes.getD k {}).skew := by
  have hboth := forEach_range_reads (s := s) (f := fun t k => t.laneMarker h k (lanes.getD k {})) hk
    (read := fun t => (t.isSet F.LNK_LANE_STATUS_MARKER_OK (upLane h k), t.getF F.LNK_LANE_STATUS_SKEW (upLane h k)))
    (v := ((s.alignOf h k (lanes.getD k {})).isSome, min 255 (lanes.getD k {}).skew))
    (P := fun t => t.lane (upLane h k) = s.lane (upLane h k) ∧
      t.isSet F.LNK_LANE_STATUS_BLOCK_LOCK (upLane h k) = s.isSet F.LNK_LANE_STATUS_BLOCK_LOCK (upLane h k)) ⟨rfl, rfl⟩
    (fun t i hi hkept => ?_) (fun t hkept => ?_) (fun t i _ hi => ?_)
  · exact Prod.mk.inj hboth
  · obtain ⟨hlane, hlock⟩ := hkept
    have hother := laneMarker_other t (h := h) F.LNK_LANE_STATUS_BLOCK_LOCK (lanes.getD i {}) (upLane_ne (h := h) (by omega : i ≠ k))
    exact ⟨hother.1.trans hlane, by rw [State.isSet, hother.2]; exact hlock⟩
  · obtain ⟨hlane, hlock⟩ := hkept
    obtain ⟨hok, hskew⟩ := laneMarker_same t (h := h) (k := k) (lanes.getD k {})
    rw [hok, hskew, alignOf_congr _ hlane hlock]
  · have hne := upLane_ne (h := h) (by omega : i ≠ k)
    rw [State.isSet, (laneMarker_other t _ _ hne).2, (laneMarker_other t _ _ hne).2, State.isSet]

/-- The head's state once the markers of all lanes are stored. -/
def markersTaken (s : State) (h : Nat) (lanes : List MarkerIn) : State :=
  ((s.updLink h fun l => { l with base := l.base + 5120 }).deliver h).forEach (List.range 6) fun t k =>
    t.laneMarker h k (lanes.getD k {})

/-- What the markers' consequences may change: the map, the link's state and the lanes that fail. -/
def afterMarkers : Nat := W.marker ||| W.laneFailed ||| W.raiseLnk ||| fm [E.LNK_MAP_ERR.fld, E.LNK_MAP_ERR.reg.forced]

theorem alignMarker_afterMarkers {s : State} {h : Nat} (lanes : List MarkerIn) (hreceives : s.receives h = true) :
    Frame afterMarkers (markersTaken s h lanes) (s.alignMarker h lanes) := by
  unfold State.alignMarker
  rw [if_neg (by rw [hreceives]; decide)]
  dsimp only
  have hdiffer : ∀ c : Bool, Frame afterMarkers (markersTaken s h lanes)
      ((markersTaken s h lanes).onlyIf c fun t => t.raiseLnk E.LNK_MAP_ERR h) := fun c =>
    (Frame.refl _ _).onlyIf fun t ht => raiseLnk_fr ht (by decide +kernel) (by decide +kernel) _
  refine Frame.forEach ?_ fun t k ht => ?_
  · cases s.markerOf h lanes with
    | none => exact hdiffer _
    | some g => exact (marker_frame ..).step (hdiffer _) (by decide +kernel)
  · split
    · exact (laneFailed_frame ..).step ht (by decide +kernel)
    · exact ht

theorem alignMarker_next {s : State} (hheld : s.pwr.held = []) (h : Fin 32) (lanes : List MarkerIn) (k : Fin 6)
    (hreceives : s.receives h = true) :
    ∃ t, exec (.alignMarker h lanes) s = .next t ∧
      t.isSet F.LNK_LANE_STATUS_MARKER_OK (upLane h k) = (s.alignOf h k (lanes.getD k {})).isSome ∧
      t.getF F.LNK_LANE_STATUS_SKEW (upLane h k) = min 255 (lanes.getD k {}).skew := by
  obtain ⟨t, ht, same⟩ := doneQ_next hheld fun t => t.alignMarker h lanes
  have hafter := alignMarker_afterMarkers (s := fresh s) (h := h) lanes hreceives
  have hlane : (((fresh s).updLink h fun l => { l with base := l.base + 5120 }).deliver h).lane (upLane h k) = s.lane (upLane h k) :=
    lane_of_lanes _ (unmasked (deliver_frame ..).lanes (by decide +kernel))
  have hlock : (((fresh s).updLink h fun l => { l with base := l.base + 5120 }).deliver h).isSet F.LNK_LANE_STATUS_BLOCK_LOCK
      (upLane h k) = s.isSet F.LNK_LANE_STATUS_BLOCK_LOCK (upLane h k) :=
    (deliver_frame ..).isSet (by decide) (by decide +kernel)
  obtain ⟨hok, hskew⟩ := markers_stored (((fresh s).updLink h fun l => { l with base := l.base + 5120 }).deliver h) h lanes k.isLt
  refine ⟨t, ht, ?_, ?_⟩
  · rw [same.isSet, isSet_advance _ (by decide) (by decide +kernel), hafter.isSet (by decide) (by decide +kernel), markersTaken, hok,
      alignOf_congr _ hlane hlock]
  · rw [same.getF, getF_advance _ (by decide) (by decide +kernel), hafter.getF (by decide) (by decide +kernel), markersTaken, hskew]

/-! ### ROTATE and LANE_RESTORE_SOAK -/

/-- A request for a map sends its block and waits for the marker after the next. -/
theorem req_sendRotate (s : State) {h : Nat} (k : Nat) (kind : MapReq) (hh : h < 32) :
    ((s.sendRotate h k kind).link h).req = some (kind, k, ((s.link h).mark + 2) % 2 ^ 24) := by
  unfold State.sendRotate
  rw [link_updLink_same _ _ hh]

theorem rotate_next {s : State} (hheld : s.pwr.held = []) (h : Fin 32) (hup : s.lk h = lkUP)
    (hrot : s.isSet F.LNK_HEAD_CTL_ROT_EN h = true) (hreq : (s.link h).req = none) (hspare : s.getF F.LNK_HEAD_STATUS_SPARE h < 6)
    (hwait : (s.link h).rotWait = 0) (hperiod : s.getF F.LNK_ROT_CTL_PERIOD h ≤ (s.link h).sinceRot)
    (hsoaked : s.soaked (upLane h (s.getF F.LNK_HEAD_STATUS_SPARE h)) (s.getF F.LNK_ROT_CTL_SOAK h) = true) :
    ∃ t, exec (.rotate h) s = .next t ∧
      (t.link h).req = some (.rotate, (s.getF F.LNK_HEAD_STATUS_SPARE h + 1) % 6, ((s.link h).mark + 2) % 2 ^ 24) := by
  obtain ⟨t, ht, same⟩ := done_next hheld fun t => t.rotate h
  have hrotate : (fresh s).rotate h = (fresh s).sendRotate h ((s.getF F.LNK_HEAD_STATUS_SPARE h + 1) % 6) .rotate := by
    refine if_pos ?_
    show (s.lk h == lkUP && s.isSet F.LNK_HEAD_CTL_ROT_EN h && (s.link h).req.isNone &&
      decide (s.getF F.LNK_HEAD_STATUS_SPARE h < 6) && decide ((s.link h).rotWait = 0) &&
      decide (s.getF F.LNK_ROT_CTL_PERIOD h ≤ (s.link h).sinceRot) && s.soaked (upLane h (s.getF F.LNK_HEAD_STATUS_SPARE h))
        (s.getF F.LNK_ROT_CTL_SOAK h)) = true
    rw [hup, hrot, hreq, hwait, hsoaked, decide_eq_true hspare, decide_eq_true hperiod]
    rfl
  rw [hrotate] at same
  exact ⟨t, ht, by rw [link_of_heads _ same.heads]; exact req_sendRotate _ _ _ h.isLt⟩

theorem laneRestoreSoak_next {s : State} (hheld : s.pwr.held = []) (h : Fin 32) (lane : Fin 6) (hdegraded : s.lk h = lkDEGRADED)
    (hretry : s.isSet F.LNK_HEAD_CTL_RETRY_EN h = true) (hreq : (s.link h).req = none)
    (hfailed : s.bitF F.LNK_HEAD_STATUS_FAILED h lane = true) (hdis : s.isSet F.LNK_LANE_CTL_DIS (upLane h lane) = false)
    (hsoaked : s.soaked (upLane h lane) (4 * s.getF F.LNK_ROT_CTL_SOAK h) = true) :
    ∃ t, exec (.laneRestoreSoak h lane) s = .next t ∧ (t.link h).req = some (.restore, lane.val, ((s.link h).mark + 2) % 2 ^ 24) := by
  obtain ⟨t, ht, same⟩ := done_next hheld fun t => t.restore h lane
  have hrestore : (fresh s).restore h lane = (fresh s).sendRotate h lane .restore := by
    refine if_pos ?_
    show (s.lk h == lkDEGRADED && s.isSet F.LNK_HEAD_CTL_RETRY_EN h && (s.link h).req.isNone &&
      s.bitF F.LNK_HEAD_STATUS_FAILED h lane && !s.isSet F.LNK_LANE_CTL_DIS (upLane h lane) &&
      s.soaked (upLane h lane) (4 * s.getF F.LNK_ROT_CTL_SOAK h)) = true
    rw [hdegraded, hretry, hreq, hfailed, hdis, hsoaked]
    rfl
  rw [hrestore] at same
  exact ⟨t, ht, by rw [link_of_heads _ same.heads]; exact req_sendRotate _ _ _ h.isLt⟩

/-! ### LANE_FAIL by signal -/

/-- The spare lane's failure leaves the link degraded. -/
theorem laneFailed_of_spare {s : State} {h k : Nat} (hh : h < 32) (hk : k < 6) (hup : s.lk h = lkUP)
    (hspare : s.getF F.LNK_HEAD_STATUS_SPARE h = k) (hgood : s.bitF F.LNK_HEAD_STATUS_FAILED h k = false)
    (hreq : (s.link h).req = none) :
    (s.laneFailed h k).lk h = lkDEGRADED ∧ (s.laneFailed h k).bitF F.LNK_HEAD_STATUS_FAILED h k = true ∧
    (s.laneFailed h k).isSet F.LNK_EVT_LANE_FAIL 0 = true ∧ (s.laneFailed h k).bitF F.LNK_EVT_HEADS_HEAD 0 h = true := by
  have hlinkUp : s.linkUp h = true := by
    rw [State.linkUp, show s.getF F.LNK_HEAD_STATUS_STATE h = lkUP from hup]
    rfl
  have hfailed : ∃ l, s.laneFailed h k = ((((((s.putF F.LNK_HEAD_STATUS_FAILED h k true).roles h).setLane (upLane h k) l).updLink h
      fun l => { l with req := none }).setLink h lkDEGRADED).raiseLnk E.LNK_LANE_FAIL h) := by
    refine ⟨{ s.lane (upLane h k) with soak := 0, tried := false }, ?_⟩
    unfold State.laneFailed
    rw [if_neg (by rw [hlinkUp, hgood]; decide)]
    dsimp only
    rw [hreq, hup, hspare, if_neg (by simp), if_pos rfl]
  obtain ⟨l, hfailed⟩ := hfailed
  rw [hfailed]
  refine ⟨?_, ?_, isSet_raiseLnk_same _ E.LNK_LANE_FAIL rfl (by decide) (by decide) (by decide), bitF_raiseLnk _ E.LNK_LANE_FAIL hh⟩
  · rw [State.lk, getF_raiseLnk_other _ _ (by decide) (by decide) (by decide)]
    exact lk_setLink _ (by decide)
  · rw [State.bitF, getF_raiseLnk_other _ _ (by decide) (by decide) (by decide), (setLink_frame ..).getF (by decide) (by decide +kernel),
      getF_updLink, getF_setLane, (roles_frame ..).getF (by decide) (by decide +kernel), ← State.bitF]
    exact bitF_putF_same _ F.LNK_HEAD_STATUS_FAILED h k true hk

/-- The lane has lost its signal and its lock. -/
def signalLost (s : State) (l : Nat) : State :=
  let u := (s.setB F.LNK_LANE_STATUS_SIG_DET l false).setB F.LNK_LANE_STATUS_BLOCK_LOCK l false
  u.setLane l { u.lane l with good := 0, soak := 0 }

theorem getF_signalLost (s : State) {f : Field} {l i : Nat} (hsig : F.LNK_LANE_STATUS_SIG_DET.id ≠ f.id)
    (hlock : F.LNK_LANE_STATUS_BLOCK_LOCK.id ≠ f.id) : (signalLost s l).getF f i = s.getF f i := by
  rw [signalLost, getF_setLane, getF_setB_other _ _ hlock, getF_setB_other _ _ hsig]

theorem laneFail_signal {s : State} (hheld : s.pwr.held = []) (h : Fin 32) (lane : Fin 8) (hlane : lane.val < 6) (hup : s.lk h = lkUP)
    (hspare : s.getF F.LNK_HEAD_STATUS_SPARE h = lane) (hgood : s.bitF F.LNK_HEAD_STATUS_FAILED h lane = false)
    (hreq : (s.link h).req = none) :
    ∃ t, exec (.laneFail h lane .signal) s = .next t ∧ t.lk h = lkDEGRADED ∧ t.bitF F.LNK_HEAD_STATUS_FAILED h lane = true ∧
      t.isSet F.LNK_LANE_STATUS_SIG_DET (8 * h + lane) = false ∧ t.isSet F.LNK_EVT_LANE_FAIL 0 = true ∧
      t.bitF F.LNK_EVT_HEADS_HEAD 0 h = true := by
  obtain ⟨t, ht, same⟩ := doneQ_next hheld fun t => t.laneFail h lane .signal
  have hfail : (fresh s).laneFail h lane .signal = (signalLost (fresh s) (8 * h + lane)).laneFailed h lane := by
    unfold State.laneFail
    rw [if_neg (by rw [show (fresh s).lk h = lkUP from hup]; decide), if_pos hlane]
    rfl
  rw [hfail] at same
  obtain ⟨hlk, hbit, hevent, hmark⟩ := laneFailed_of_spare (s := signalLost (fresh s) (8 * h + lane)) h.isLt hlane
    ((getF_signalLost (fresh s) (by decide) (by decide)).trans hup) ((getF_signalLost (fresh s) (by decide) (by decide)).trans hspare)
    (by rw [State.bitF, getF_signalLost (fresh s) (by decide) (by decide)]; exact hgood) hreq
  refine ⟨t, ht, ?_, ?_, ?_, ?_, ?_⟩
  · rw [State.lk, same.getF, getF_advance _ (by decide) (by decide +kernel)]
    exact hlk
  · rw [State.bitF, same.getF, getF_advance _ (by decide) (by decide +kernel)]
    exact hbit
  · rw [same.isSet, isSet_advance _ (by decide) (by decide +kernel), (laneFailed_frame ..).isSet (by decide) (by decide +kernel),
      signalLost,
      isSet_setLane, isSet_setB_other _ _ (by decide), isSet_setB_same _ _ _ _ (by decide)]
  · rw [same.isSet, isSet_advance _ (by decide) (by decide +kernel)]
    exact hevent
  · rw [State.bitF, same.getF, getF_advance _ (by decide) (by decide +kernel)]
    exact hmark

/-! ### TRAIN_DONE and TRAIN_FAIL -/

theorem trainLead_le {s : State} {h : Nat} (htrainable : s.trainable h = true) : s.trainLead h ≤ 224 := by
  unfold State.trainable at htrainable
  simp only [Bool.and_eq_true, decide_eq_true_eq] at htrainable
  exact htrainable.2

theorem trainDone_next {s : State} (hheld : s.pwr.held = []) (h : Fin 32) (htrainable : s.trainable h = true)
    (hall : ∀ k < 6, k ∈ s.trained h) :
    ∃ t, exec (.trainDone h) s = .next t ∧ t.lk h = lkUP ∧ t.getF F.LNK_TICK_LEAD_LEAD h = s.trainLead h := by
  obtain ⟨t, ht, same⟩ := doneQ_next hheld fun t => t.trainDone h
  have hnone : (List.range 6).find? (fun k => !(s.trained h).contains k) = none := by
    refine List.find?_eq_none.2 fun k hk => ?_
    simpa using hall k (List.mem_range.1 hk)
  have hdone : (fresh s).trainDone h = (((fresh s).setF F.LNK_TICK_LEAD_LEAD h (s.trainLead h)).setLink h lkUP).headUp h := by
    unfold State.trainDone
    rw [if_neg (by rw [show (fresh s).trainable h = s.trainable h from rfl, htrainable]; decide)]
    show State.headUp (match (List.range 6).find? (fun k => !(s.trained h).contains k) with | none => _ | some k => _) h = _
    rw [hnone]
    rfl
  rw [hdone] at same
  have hlead := trainLead_le htrainable
  refine ⟨t, ht, ?_, ?_⟩
  · rw [State.lk, same.getF, getF_advance _ (by decide) (by decide +kernel), (headUp_frame ..).getF (by decide) (by decide +kernel)]
    exact lk_setLink _ (by decide)
  · rw [same.getF, getF_advance _ (by decide) (by decide +kernel), (headUp_frame ..).getF (by decide) (by decide +kernel),
      (setLink_frame ..).getF (by decide) (by decide +kernel), getF_setF]
    exact Nat.mod_eq_of_lt (by show _ < 2048; omega)

theorem trainFail_next {s : State} (hheld : s.pwr.held = []) (h : Fin 32) (htrain : s.lk h = lkTRAIN)
    (hlate : (s.link h).trainAt + 20000 ≤ s.tick) (hbad : s.trainable h = false) :
    ∃ t, exec (.trainFail h) s = .next t ∧ t.lk h = lkFAILED ∧ t.isSet F.LNK_EVT_TRAIN_FAIL 0 = true := by
  obtain ⟨t, ht, same⟩ := doneQ_next hheld fun t =>
    if t.lk h == lkTRAIN && decide ((t.link h).trainAt + 20000 ≤ t.tick) && !t.trainable h then t.linkLost h E.LNK_TRAIN_FAIL else t
  rw [if_pos (by
    show (s.lk h == lkTRAIN && decide ((s.link h).trainAt + 20000 ≤ s.tick) && !s.trainable h) = true
    rw [htrain, hbad, decide_eq_true hlate]
    rfl)] at same
  refine ⟨t, ht, ?_, ?_⟩
  · rw [State.lk, same.getF, getF_advance _ (by decide) (by decide +kernel), State.linkLost,
      (headOff_frame ..).getF (by decide) (by decide +kernel)]
    exact lk_linkDown _ (by decide)
  · rw [same.isSet, isSet_advance _ (by decide) (by decide +kernel), State.linkLost,
      (headOff_frame ..).isSet (by decide) (by decide +kernel),
      (linkDown_frame ..).isSet (by decide) (by decide +kernel), (headFatal_frame ..).isSet (by decide) (by decide +kernel)]
    exact isSet_raiseLnk_same _ E.LNK_TRAIN_FAIL rfl (by decide) (by decide) (by decide)

/-! ### CMD_TIMEOUT and EYE_SCAN_DONE -/

theorem cmdTimeout_next {s : State} (hheld : s.pwr.held = []) (h : Fin 32) (hbusy : s.isSet F.LNK_HFE_CMD_BUSY h = true)
    (hlate : (s.link h).cmdAt + 3 ≤ s.tick) :
    ∃ t, exec (.cmdTimeout h) s = .next t ∧ t.isSet F.LNK_HFE_CMD_BUSY h = false ∧ t.isSet F.LNK_HFE_CMD_TIMEOUT h = true ∧
      t.isSet F.LNK_EVT_CMD_TIMEOUT 0 = true ∧ t.bitF F.LNK_EVT_HEADS_HEAD 0 h = true := by
  obtain ⟨t, ht, same⟩ := done_next hheld fun t =>
    if t.isSet F.LNK_HFE_CMD_BUSY h && decide ((t.link h).cmdAt + 3 ≤ t.tick) then
      ((t.setB F.LNK_HFE_CMD_BUSY h false).setB F.LNK_HFE_CMD_TIMEOUT h true).raiseLnk E.LNK_CMD_TIMEOUT h
    else t
  rw [if_pos (by
    show (s.isSet F.LNK_HFE_CMD_BUSY h && decide ((s.link h).cmdAt + 3 ≤ s.tick)) = true
    rw [hbusy, decide_eq_true hlate]
    rfl)] at same
  refine ⟨t, ht, ?_, ?_, ?_, ?_⟩
  · rw [State.isSet, same.getF, getF_raiseLnk_other _ _ (by decide) (by decide) (by decide), getF_setB_other _ _ (by decide), ← State.isSet]
    exact isSet_setB_same _ _ _ _ (by decide)
  · rw [State.isSet, same.getF, getF_raiseLnk_other _ _ (by decide) (by decide) (by decide), ← State.isSet]
    exact isSet_setB_same _ _ _ _ (by decide)
  · rw [same.isSet]
    exact isSet_raiseLnk_same _ E.LNK_CMD_TIMEOUT rfl (by decide) (by decide) (by decide)
  · rw [same.bitF]
    exact bitF_raiseLnk _ E.LNK_CMD_TIMEOUT h.isLt

theorem eyeScanDone_next {s : State} (hheld : s.pwr.held = []) (l : Fin 256) (errors : Nat)
    (hstart : s.isSet F.LNK_EYE_CTL_START l = true) :
    ∃ t, exec (.eyeScanDone l errors) s = .next t ∧ t.isSet F.LNK_EYE_CTL_START l = false ∧ t.isSet F.LNK_EYE_RESULT_DONE l = true ∧
      t.getF F.LNK_EYE_RESULT_ERRORS l = min errors (2 ^ 24 - 1) := by
  obtain ⟨t, ht, same⟩ := done_next hheld fun t =>
    if t.isSet F.LNK_EYE_CTL_START l then
      ((t.setB F.LNK_EYE_CTL_START l false).setB F.LNK_EYE_RESULT_DONE l true).setF F.LNK_EYE_RESULT_ERRORS l (min errors (2 ^ 24 - 1))
    else t
  rw [if_pos (show (fresh s).isSet F.LNK_EYE_CTL_START l = true from hstart)] at same
  refine ⟨t, ht, ?_⟩
  rw [same.isSet, same.isSet, same.getF]
  simp (disch := decide +kernel) only [isSet_setF_other, isSet_setB_other, isSet_setB_same, getF_setF]
  exact ⟨trivial, trivial, Nat.mod_eq_of_lt (by show _ < 2 ^ 24; omega)⟩

/-- Settles O19: one lemma per row, above. -/
theorem linkEventRows : Obligations.LinkEventRows := by
  intro s h hheld
  exact ⟨fun lane f n w rtt it hquiet hnear hlock hbad hreceives hsoaks hactive hhole hfree hwait hdue hcur hdrop hfull hfill hroom =>
      linkWordPush_next hheld h lane f w rtt hquiet ⟨by have := upLane_lt h lane; exact this, hnear, hlock, hbad, hreceives, hsoaks,
        hactive, hhole⟩
        hfree hwait hdue hcur hdrop hfull hfill hroom,
    fifoPop_next hheld h, fifoOverflow_next hheld h, echoReceived_next hheld h, alignMarker_next hheld h, rotate_next hheld h,
    laneRestoreSoak_next hheld h, laneFail_signal hheld h, trainDone_next hheld h, trainFail_next hheld h, cmdTimeout_next hheld h,
    eyeScanDone_next hheld⟩

end Sys2Proof.Proofs
end

section
/-!
PROOFS. What the Winders' shared operations leave: deck states and phases, gates and brakes.
-/
set_option Elab.async false

namespace Sys2Proof.Laws

open Sys2Proof.Machine

section
variable (s : State) (f : Field) (j b : Nat)

@[simp] theorem getF_updWnd (d : Nat) (u : DeckS → DeckS) : (s.updWnd d u).getF f j = s.getF f j := rfl
@[simp] theorem isSet_updWnd (d : Nat) (u : DeckS → DeckS) : (s.updWnd d u).isSet f j = s.isSet f j := rfl
@[simp] theorem bitF_updWnd (d : Nat) (u : DeckS → DeckS) : (s.updWnd d u).bitF f j b = s.bitF f j b := rfl

end

section
variable (s : State) {d e : Nat}

theorem wn_updWnd_same (u : DeckS → DeckS) (hd : d < 8) : (s.updWnd d u).wn d = u (s.wn d) := vget_vset_same _ _ _ hd

theorem wn_of_decks {t : State} (hdecks : t.decks = s.decks) : t.wn d = s.wn d := by rw [State.wn, hdecks, State.wn]

theorem wn_resetSource (f : Field) (bit : Nat) : (s.resetSource f bit).wn d = s.wn d := rfl

/-! ### Deck states -/

theorem deck_setDeck {st : Nat} (hst : st < 8) : (s.setDeck d st).deck d = st := by
  unfold State.setDeck
  rw [State.deck, (ltrUpdate_frame _).getF (by decide) (by decide +kernel), getF_ite, getF_setF_other _ _ (by decide), ite_self,
    getF_putF_other _ _ _ (by decide), getF_setF]
  exact Nat.mod_eq_of_lt hst

@[simp] theorem decks_setDeck (st : Nat) : (s.setDeck d st).decks = s.decks := unmasked (setDeck_frame ..).decks (by decide +kernel)

theorem wn_setDeck (st : Nat) : (s.setDeck d st).wn e = s.wn e := wn_of_decks s (decks_setDeck s st)

@[simp] theorem tick_setDeck (st : Nat) : (s.setDeck d st).tick = s.tick := unmasked (setDeck_frame ..).tick (by decide +kernel)

theorem phase_setPhase {ph : Nat} (hph : ph < 8) : (s.setPhase d ph).phase d = ph := by
  rw [State.phase, State.setPhase, getF_updWnd, getF_setF]
  exact Nat.mod_eq_of_lt hph

theorem wn_setPhase (ph : Nat) (hd : d < 8) : (s.setPhase d ph).wn d = { s.wn d with phaseAt := s.tick, waitRest := false } := by
  rw [State.setPhase, wn_updWnd_same _ _ hd]
  rfl

@[simp] theorem getF_setPhase (ph : Nat) {f : Field} {i : Nat} (hne : F.WND_STATUS_PHASE.id ≠ f.id) :
    (s.setPhase d ph).getF f i = s.getF f i := by
  rw [State.setPhase, getF_updWnd, getF_setF_other _ _ hne]

/-! ### Gates and brakes -/

theorem wn_gatesOff (hd : d < 8) : (s.gatesOff d).wn d = { s.wn d with
    gates := .off, next := none, offRun := 0, restRun := 0, lockRun := 0, errRun := 0, emfRun := 0, eps := none, found := none,
    chopFull := false, rises := 0, skipAt := none } := vget_vset_same _ _ _ hd

theorem locked_gatesOff : (s.gatesOff d).isSet F.WND_STATUS_LOCKED d = false := by
  unfold State.gatesOff
  simp (disch := decide +kernel)

theorem chopOn_gatesOff : (s.gatesOff d).isSet F.WND_STATUS_CHOP_ON d = false := by
  unfold State.gatesOff
  simp (disch := decide +kernel)

theorem short_gatesOff : (s.gatesOff d).isSet F.WND_STATUS_SHORT d = false := by
  unfold State.gatesOff
  simp (disch := decide +kernel)

theorem angleValid_gatesOff : (s.gatesOff d).isSet F.WND_STATUS_ANGLE_VALID d = false := by
  unfold State.gatesOff
  simp (disch := decide +kernel)

theorem wn_startShort (hd : d < 8) : (s.startShort d).wn d = { s.wn d with
    gates := .short, next := none, brake := .short 0 none, skipAt := none, restRun := 0 } := vget_vset_same _ _ _ hd

theorem short_startShort : (s.startShort d).isSet F.WND_STATUS_SHORT d = true := by
  unfold State.startShort
  simp (disch := decide +kernel)

theorem wn_startRamp (hd : d < 8) : (s.startRamp d).wn d = { s.wn d with
    brake := .ramp, regenRaised := false, negLim := (s.getF F.WND_ILIM_IMAX d : Nat) * 256 } := vget_vset_same _ _ _ hd

/-- MEASURE: all gates off, brakes off. -/
theorem wn_enterMeasure (hd : d < 8) : (s.enterMeasure d).wn d = { (s.gatesOff d).wn d with
    spinAt := s.tick, tries := 0, brake := .none, negLim := (s.getF F.WND_ILIM_IMAX d : Nat) * 256, phaseAt := s.tick,
    waitRest := false } := by
  rw [State.enterMeasure, wn_setPhase _ _ hd, wn_updWnd_same _ _ hd, wn_setDeck]
  rw [show (((s.gatesOff d).setDeck d dkSPINUP).updWnd d _).tick = s.tick from tick_setDeck (s.gatesOff d) dkSPINUP]

/-- A deck-fatal event leaves angle-valid clear, as it found it or made it so. -/
theorem angleValid_deckFatal (b : FatalBrake) (hclear : s.isSet F.WND_STATUS_ANGLE_VALID d = false) :
    (s.deckFatal d b).isSet F.WND_STATUS_ANGLE_VALID d = false := by
  unfold State.deckFatal
  dsimp only
  split
  · exact hclear
  · rw [(deckHeadsFatal_frame ..).isSet (by decide) (by decide +kernel)]
    have hmarked : ((((s.setDeck d dkFAULT).setB F.WND_STATUS_ANGLE_VALID d false).updWnd d fun w =>
        { w with fatalAt := some s.tick })).isSet F.WND_STATUS_ANGLE_VALID d = false := by
      rw [isSet_updWnd, isSet_setB_same _ _ _ _ (by decide)]
    cases b with
    | auto =>
      dsimp only
      split
      · exact hmarked
      · rw [(startShort_frame ..).isSet (by decide) (by decide +kernel)]
        exact hmarked
    | short =>
      rw [(startShort_frame ..).isSet (by decide) (by decide +kernel)]
      exact hmarked
    | hold => exact hmarked
    | overrun => exact hmarked

end

end Sys2Proof.Laws
end

section
/-!
PROOFS. The deck rows (08): the commands of the host, then the events of the Winders.
-/
set_option Elab.async false

namespace Sys2Proof.Proofs

open Sys2Proof.Machine Sys2Proof.Laws

/-! ### Deck commands -/

section
variable {s : State} (hserved : s.pf1Served = true) (d : Fin 8)
include hserved

theorem deckLoad_next (hdeck : s.deck d = dkEMPTY) : ∃ t, exec (.deckLoad d) s = .next t ∧ t.deck d = dkLOADED := by
  obtain ⟨t, ht, same⟩ := doneW_next hserved fun t => t.deckLoad d
  rw [State.deckLoad, if_pos ((deck_flushAsm s d).trans hdeck)] at same
  refine ⟨t, ht, ?_⟩
  rw [State.deck, same.getF,
    (frame_forEach (fun t h => updWrite_frame t h fun w => { w with calTemp := [], calFree := [], calFull := [] }) _ _).getF (by decide)
      (by decide +kernel)]
  exact deck_setDeck _ (by decide)

theorem deckStart_next (hdeck : s.deck d = dkLOADED ∨ s.deck d = dkBRAKING) (hen : s.isSet F.WND_CTL_EN d = true) :
    ∃ t, exec (.deckStart d) s = .next t ∧ t.deck d = dkSPINUP ∧ t.phase d = 1 ∧ t.isSet F.WND_STATUS_LOCKED d = false ∧
      (t.wn d).gates = .off ∧ (t.wn d).target0 = s.getF F.WND_SPEED_SET_TARGET d := by
  obtain ⟨t, ht, same⟩ := doneW_next hserved fun t => t.deckStart d
  have hmay : (fresh s).flushAsm.mayStart d = true := by
    rw [State.mayStart, deck_flushAsm, isSet_flushAsm _ (by decide) (by decide +kernel), fresh_isSet, hen]
    rcases hdeck with h | h <;> rw [h] <;> rfl
  rw [State.deckStart, if_pos hmay, State.startDeck] at same
  have hwn := wn_of_decks _ same.decks (d := d)
  rw [wn_enterMeasure _ d.isLt, wn_gatesOff _ d.isLt, wn_updWnd_same _ _ d.isLt] at hwn
  refine ⟨t, ht, ?_, ?_, ?_, ?_, ?_⟩
  · rw [State.deck, same.getF, State.enterMeasure, getF_setPhase _ _ (by decide), getF_updWnd]
    exact deck_setDeck _ (by decide)
  · rw [State.phase, same.getF]
    exact phase_setPhase _ (by decide)
  · rw [same.isSet, State.enterMeasure, State.setPhase, isSet_updWnd, isSet_setF_other _ _ (by decide), isSet_updWnd,
      (setDeck_frame ..).isSet (by decide) (by decide +kernel), locked_gatesOff]
  · rw [hwn]
  · rw [hwn]
    exact (getF_flushAsm _ (by decide) (by decide +kernel)).trans (fresh_getF ..)

theorem deckStop_next (hdeck : s.deck d = dkSPINUP ∨ s.deck d = dkREADY) (hdown : s.headsDown d = true) :
    ∃ t, exec (.deckStop d) s = .next t ∧ t.deck d = dkBRAKING ∧ (t.wn d).brake = .ramp ∧
      (t.wn d).negLim = s.getF F.WND_ILIM_IMAX d * 256 := by
  obtain ⟨t, ht, same⟩ := doneW_next hserved fun t => t.deckStop d
  have hstops : ((fresh s).flushAsm.turning d && (fresh s).flushAsm.headsDown d) = true := by
    have hdown' : (fresh s).flushAsm.headsDown d = s.headsDown d := by simp only [State.headsDown, clr_flushAsm]
    rw [State.turning, deck_flushAsm, hdown', hdown]
    rcases hdeck with h | h <;> rw [h] <;> rfl
  rw [State.deckStop, if_pos hstops, State.brakeDeck] at same
  have hwn := wn_of_decks _ same.decks (d := d)
  rw [wn_startRamp _ d.isLt] at hwn
  refine ⟨t, ht, ?_, ?_, ?_⟩
  · rw [State.deck, same.getF, State.startRamp, getF_updWnd]
    exact deck_setDeck _ (by decide)
  · rw [hwn]
  · rw [hwn, (setDeck_frame ..).getF (by decide) (by decide +kernel), getF_flushAsm _ (by decide) (by decide +kernel), fresh_getF]

theorem deckUnload_next (hdeck : s.deck d = dkLOADED) (hrest : s.isSet F.WND_STATUS_AT_REST d = true) :
    ∃ t, exec (.deckUnload d) s = .next t ∧ t.deck d = dkEMPTY := by
  obtain ⟨t, ht, same⟩ := doneW_next hserved fun t => t.deckUnload d
  have hmay : ((fresh s).flushAsm.deck d = dkLOADED && (fresh s).flushAsm.isSet F.WND_STATUS_AT_REST d) = true := by
    rw [deck_flushAsm, hdeck, isSet_flushAsm _ (by decide) (by decide +kernel), fresh_isSet, hrest]
    rfl
  rw [State.deckUnload, if_pos hmay] at same
  refine ⟨t, ht, ?_⟩
  rw [State.deck, same.getF]
  exact deck_setDeck _ (by decide)

theorem deckFaultReset_next (hdeck : s.deck d = dkFAULT) (hrest : s.isSet F.WND_STATUS_AT_REST d = true) :
    ∃ t, exec (.deckFaultReset d true) s = .next t ∧ t.deck d = dkLOADED ∧ (t.wn d).chopFault = false := by
  obtain ⟨t, ht, same⟩ := doneW_next hserved fun t => (t.updWnd d fun w => { w with drvLow := !true }).deckFaultReset d
  set u := (fresh s).flushAsm.updWnd d fun w => { w with drvLow := !true } with hu
  have hmay : (u.deck d = dkFAULT && u.isSet F.WND_STATUS_AT_REST d && !(u.wn d).drvLow) = true := by
    rw [hu, wn_updWnd_same _ _ d.isLt, isSet_updWnd, isSet_flushAsm _ (by decide) (by decide +kernel), fresh_isSet, hrest, State.deck,
      getF_updWnd, ← State.deck, deck_flushAsm, hdeck]
    rfl
  rw [State.deckFaultReset, if_pos hmay] at same
  refine ⟨t, ht, ?_, ?_⟩
  · rw [State.deck, same.getF, State.resetSource, getF_setF_other _ _ (by decide), getF_setB_other _ _ (by decide),
      getF_updWnd]
    exact deck_setDeck _ (by decide)
  · rw [wn_of_decks _ same.decks, wn_resetSource, wn_updWnd_same _ _ d.isLt]

theorem speedTargetWrite_next (target : BitVec 16) (hlo : s.getF F.WND_MOTOR_SPD_MIN d * 8 ≤ target.toNat)
    (hhi : target.toNat ≤ s.getF F.WND_MOTOR_SPD_MAX d * 8) :
    ∃ t, exec (.speedTargetWrite d target) s = .next t ∧ t.getF F.WND_SPEED_SET_TARGET d = target.toNat := by
  obtain ⟨t, ht, same⟩ := doneW_next hserved fun t => t.writeSpeed d target.toNat
  have hin : (fresh s).flushAsm.getF F.WND_MOTOR_SPD_MIN d * 8 ≤ target.toNat ∧
      target.toNat ≤ (fresh s).flushAsm.getF F.WND_MOTOR_SPD_MAX d * 8 := by
    simp (disch := decide +kernel) only [getF_flushAsm, fresh_getF]
    exact ⟨hlo, hhi⟩
  rw [State.writeSpeed, if_pos hin] at same
  refine ⟨t, ht, ?_⟩
  rw [same.getF, getF_setF]
  exact Nat.mod_eq_of_lt target.isLt

end

/-- Settles O20: one lemma per command, above. -/
theorem deckCommandRows : Obligations.DeckCommandRows := fun _ d hserved =>
  ⟨deckLoad_next hserved d, deckStart_next hserved d, deckStop_next hserved d, deckUnload_next hserved d, deckFaultReset_next hserved d,
    speedTargetWrite_next hserved d⟩

/-! ### OBS_LATE and WND_OVR -/

/-- The overrun marks of the decks, one bit for each. -/
theorem bitF_raiseTckDeck (s : State) (e : Event) {d : Nat} (hd : d < 8) :
    (s.raiseTckDeck e d).bitF F.TCK_OVR_DECKS_DECK 0 d = true := bitF_putF_same _ F.TCK_OVR_DECKS_DECK 0 d true hd

/-- The late observer's deck once its lateness is counted and reported. -/
def lateCounted (s : State) (d : Nat) : State :=
  ((s.updWnd d fun w => { w with late := (s.wn d).late + 1, lateNext := true }).count F.TCK_WND_OVR_OBS d).raiseTckDeck E.TCK_OBS_LATE d

theorem wn_lateCounted (s : State) {d : Nat} (hd : d < 8) :
    (lateCounted s d).wn d = { s.wn d with late := (s.wn d).late + 1, lateNext := true } :=
  wn_updWnd_same s (fun w => { w with late := (s.wn d).late + 1, lateNext := true }) hd

theorem lateCounted_reads (s : State) (d : Nat) : (lateCounted s d).isSet F.TCK_EVT_OBS_LATE 0 = true ∧
    (lateCounted s d).getF F.TCK_WND_OVR_OBS d = min (s.getF F.TCK_WND_OVR_OBS d + 1) 65535 := by
  unfold lateCounted State.raiseTckDeck
  refine ⟨?_, ?_⟩
  · rw [isSet_putF_other _ _ _ (by decide)]
    exact isSet_raise_same _ _ E.TCK_OBS_LATE rfl (by decide) (by decide)
  · rw [getF_putF_other _ _ _ (by decide), getF_raise_other _ _ (by decide) (by decide), getF_count_same]
    rfl

/-- What follows a fourth late tick and later ones: the loss of the angle. -/
def angleLost (s : State) (d n : Nat) : State :=
  if n = 4 then
    (if ((s.setB F.WND_STATUS_ANGLE_VALID d false).raiseTckDeck E.TCK_OBS_LOST d).isSet F.WND_STATUS_LOCKED d &&
        ((s.setB F.WND_STATUS_ANGLE_VALID d false).raiseTckDeck E.TCK_OBS_LOST d).loopOn d then
      ((s.setB F.WND_STATUS_ANGLE_VALID d false).raiseTckDeck E.TCK_OBS_LOST d).loseSync d
    else (s.setB F.WND_STATUS_ANGLE_VALID d false).raiseTckDeck E.TCK_OBS_LOST d)
  else s.setB F.WND_STATUS_ANGLE_VALID d false

theorem obsLate_eq {s : State} {d : Nat} (hlate : (s.wn d).lateNext = false) (hrepeats : s.tck.repeats = 0) :
    s.obsLate d = if (s.wn d).late + 1 < 4 then lateCounted s d else angleLost (lateCounted s d) d ((s.wn d).late + 1) := by
  unfold State.obsLate
  rw [hlate, hrepeats]
  rfl

/-- Loss of synchronism leaves angle-valid clear. -/
theorem angleValid_loseSync (s : State) (d : Nat) : (s.loseSync d).isSet F.WND_STATUS_ANGLE_VALID d = false := by
  have hshort : ∀ t : State, t.isSet F.WND_STATUS_ANGLE_VALID d = false → (t.startShort d).isSet F.WND_STATUS_ANGLE_VALID d = false :=
    fun t ht => ((startShort_frame t d).isSet (by decide) (by decide +kernel)).trans ht
  have hmeasure : ∀ t : State, (t.enterMeasure d).isSet F.WND_STATUS_ANGLE_VALID d = false := fun t => by
    rw [State.enterMeasure, State.setPhase, isSet_updWnd, isSet_setF_other _ _ (by decide), isSet_updWnd,
      (setDeck_frame ..).isSet (by decide) (by decide +kernel), angleValid_gatesOff]
  unfold State.loseSync
  dsimp only
  generalize hu : ((State.updWnd _ d _).raise E.WND_LOS d).count F.WND_COUNTS_LOS d = u
  have hclear : u.isSet F.WND_STATUS_ANGLE_VALID d = false := by
    rw [← hu]
    simp (disch := decide +kernel)
  have hfatal : ((u.raise E.WND_LOS_REPEAT d).deckFatal d .short).isSet F.WND_STATUS_ANGLE_VALID d = false :=
    angleValid_deckFatal _ _ (by rw [isSet_raise_other _ _ (by decide) (by decide)]; exact hclear)
  split_ifs
  · exact hshort _ hfatal
  · exact hfatal
  · exact hmeasure _
  · exact hshort _ hclear
  · exact hclear

theorem angleValid_angleLost (s : State) (d n : Nat) : (angleLost s d n).isSet F.WND_STATUS_ANGLE_VALID d = false := by
  have hclear : ((s.setB F.WND_STATUS_ANGLE_VALID d false).raiseTckDeck E.TCK_OBS_LOST d).isSet F.WND_STATUS_ANGLE_VALID d = false := by
    rw [State.raiseTckDeck]
    simp (disch := decide +kernel)
  unfold angleLost
  split
  · split
    · exact angleValid_loseSync _ _
    · exact hclear
  · exact isSet_setB_same _ _ _ _ (by decide)

theorem angleLost_reads (s : State) (d n : Nat) : (angleLost s d n).isSet F.TCK_EVT_OBS_LATE 0 = s.isSet F.TCK_EVT_OBS_LATE 0 ∧
    (angleLost s d n).getF F.TCK_WND_OVR_OBS d = s.getF F.TCK_WND_OVR_OBS d := by
  unfold angleLost State.raiseTckDeck
  split_ifs
  · rw [(loseSync_frame ..).isSet (by decide) (by decide +kernel), (loseSync_frame ..).getF (by decide) (by decide +kernel)]
    simp (disch := decide +kernel)
  · simp (disch := decide +kernel)
  · simp (disch := decide +kernel)

/-- A late observer delivers the angle that it extrapolates. -/
theorem theta_observe_late {t : State} {d : Nat} {w : DeckS} {n : Nat} (hwn : t.wn d = { w with late := n, lateNext := true }) :
    (t.observe d).getF F.WND_ANGLE_THETA d = extrapolate 16 (w.past.getD 0 (0, 0)).1 (w.past.getD 1 (w.past.getD 0 (0, 0))).1 := by
  unfold State.observe
  dsimp only
  rw [hwn, getF_updWnd, getF_setB_other _ _ (by decide), getF_setF_other _ _ (by decide), getF_setF]
  exact Nat.mod_eq_of_lt (unsgn_lt ..)

theorem obsLate_next {s : State} (hheld : s.pwr.held = []) (d : Fin 8) (hlate : (s.wn d).lateNext = false)
    (hrepeats : s.tck.repeats = 0) :
    ∃ t, exec (.obsLate d) s = .next t ∧ t.isSet F.TCK_EVT_OBS_LATE 0 = true ∧
      t.getF F.TCK_WND_OVR_OBS d = min (s.getF F.TCK_WND_OVR_OBS d + 1) 65535 ∧
      ((s.wn d).late < 3 → s.HostQuiet → (t.observe d).getF F.WND_ANGLE_THETA d =
        extrapolate 16 ((s.wn d).past.getD 0 (0, 0)).1 ((s.wn d).past.getD 1 ((s.wn d).past.getD 0 (0, 0))).1) ∧
      (3 ≤ (s.wn d).late → t.isSet F.WND_STATUS_ANGLE_VALID d = false) := by
  obtain ⟨t, ht, same⟩ := doneQ_next hheld fun t => t.obsLate d
  have heq : (fresh s).obsLate d = if (s.wn d).late + 1 < 4 then lateCounted (fresh s) d
      else angleLost (lateCounted (fresh s) d) d ((s.wn d).late + 1) := obsLate_eq (s := fresh s) hlate hrepeats
  rw [heq] at same
  obtain ⟨hevent, hcount⟩ := lateCounted_reads (fresh s) d
  obtain ⟨hevent', hcount'⟩ := angleLost_reads (lateCounted (fresh s) d) d ((s.wn d).late + 1)
  refine ⟨t, ht, ?_, ?_, fun hshort hquiet => ?_, fun hlong => ?_⟩
  · rw [same.isSet, isSet_advance _ (by decide) (by decide +kernel), isSet_ite, hevent', hevent, ite_self]
  · rw [same.getF, getF_advance _ (by decide) (by decide +kernel), getF_ite, hcount', hcount, ite_self]
    rfl
  · rw [if_pos (by omega), advance_of_quiet (s := lateCounted (fresh s) d) (hostQuiet_of_parts hquiet rfl rfl)] at same
    exact theta_observe_late ((wn_of_decks _ same.decks).trans (wn_lateCounted (fresh s) d.isLt))
  · rw [if_neg (by omega)] at same
    rw [same.isSet, isSet_advance _ (by decide) (by decide +kernel), angleValid_angleLost]

/-- A late step of the Winder is counted and reported, whatever it ends in. -/
theorem wndOvr_reads (s : State) {d : Nat} (hd : d < 8) : (s.wndOvr d).isSet F.TCK_EVT_WND_OVR 0 = true ∧
    (s.wndOvr d).bitF F.TCK_OVR_DECKS_DECK 0 d = true ∧
    (s.wndOvr d).getF F.TCK_WND_OVR_STEP d = min (s.getF F.TCK_WND_OVR_STEP d + 1) 65535 := by
  unfold State.wndOvr
  dsimp only
  generalize hu : ((s.updWnd d _).count F.TCK_WND_OVR_STEP d).raiseTckDeck E.TCK_WND_OVR d = u
  have hevent : u.isSet F.TCK_EVT_WND_OVR 0 = true := by
    rw [← hu, State.raiseTckDeck, isSet_putF_other _ _ _ (by decide)]
    exact isSet_raise_same _ _ E.TCK_WND_OVR rfl (by decide) (by decide)
  have hmark : u.bitF F.TCK_OVR_DECKS_DECK 0 d = true := by
    rw [← hu]
    exact bitF_raiseTckDeck _ _ hd
  have hcount : u.getF F.TCK_WND_OVR_STEP d = min (s.getF F.TCK_WND_OVR_STEP d + 1) 65535 := by
    rw [← hu, State.raiseTckDeck, getF_putF_other _ _ _ (by decide), getF_raise_other _ _ (by decide) (by decide), getF_count_same]
    rfl
  split_ifs
  · rw [(startShort_frame ..).isSet (by decide) (by decide +kernel), (startShort_frame ..).bitF (by decide) (by decide +kernel),
      (startShort_frame ..).getF (by decide) (by decide +kernel)]
    exact ⟨hevent, hmark, hcount⟩
  · exact ⟨hevent, hmark, hcount⟩
  · rw [(deckFatal_frame ..).isSet (by decide) (by decide +kernel), (deckFatal_frame ..).bitF (by decide) (by decide +kernel),
      (deckFatal_frame ..).getF (by decide) (by decide +kernel)]
    exact ⟨hevent, hmark, hcount⟩

theorem wndOvr_next {s : State} (hheld : s.pwr.held = []) (d : Fin 8) (htick : s.onTick 10 = true) :
    ∃ t, exec (.wndOvr d) s = .next t ∧ t.isSet F.TCK_EVT_WND_OVR 0 = true ∧ t.bitF F.TCK_OVR_DECKS_DECK 0 d = true ∧
      t.getF F.TCK_WND_OVR_STEP d = min (s.getF F.TCK_WND_OVR_STEP d + 1) 65535 := by
  obtain ⟨t, ht, same⟩ := doneQ_next hheld fun t => if t.onTick 10 then t.wndOvr d else t
  rw [if_pos (show (fresh s).onTick 10 = true from htick)] at same
  obtain ⟨hevent, hmark, hcount⟩ := wndOvr_reads (fresh s) d.isLt
  refine ⟨t, ht, ?_, ?_, ?_⟩
  · rw [same.isSet, isSet_advance _ (by decide) (by decide +kernel), hevent]
  · rw [same.bitF, bitF_advance _ (by decide) (by decide +kernel), hmark]
  · rw [same.getF, getF_advance _ (by decide) (by decide +kernel), hcount]
    rfl

/-! ### Hardware trips -/

/-- A trip: the event is raised, the gates are off, whatever the deck-fatal action adds. -/
theorem trip_reads (s : State) {d : Nat} {e : Event} {f : Field} (hf : e.fld = f) (hw : 1 ≤ f.width) (hn : e.reg.forced.id ≠ f.id)
    (hl : f.id < 20000) (hm : W.deckFatal.testBit f.id = false) (hlocked : e.fld.id ≠ F.WND_STATUS_LOCKED.id)
    (hlocked' : e.reg.forced.id ≠ F.WND_STATUS_LOCKED.id) (hchop : e.fld.id ≠ F.WND_STATUS_CHOP_ON.id)
    (hchop' : e.reg.forced.id ≠ F.WND_STATUS_CHOP_ON.id) :
    (s.trip d e).isSet f d = true ∧ (s.trip d e).isSet F.WND_STATUS_LOCKED d = false ∧
    (s.trip d e).isSet F.WND_STATUS_CHOP_ON d = false := by
  have hevent : ((s.gatesOff d).raise e d).isSet f d = true := isSet_raise_same _ _ e hf hw hn
  have hlock : ((s.gatesOff d).raise e d).isSet F.WND_STATUS_LOCKED d = false := by
    rw [isSet_raise_other _ _ hlocked hlocked', locked_gatesOff]
  have hoff : ((s.gatesOff d).raise e d).isSet F.WND_STATUS_CHOP_ON d = false := by
    rw [isSet_raise_other _ _ hchop hchop', chopOn_gatesOff]
  unfold State.trip
  dsimp only
  split
  · exact ⟨hevent, hlock, hoff⟩
  · rw [(deckFatal_frame ..).isSet hl hm, (deckFatal_frame ..).isSet (by decide) (by decide +kernel),
      (deckFatal_frame ..).isSet (by decide) (by decide +kernel)]
    exact ⟨hevent, hlock, hoff⟩

theorem overcurrent_next {s : State} (hheld : s.pwr.held = []) (d : Fin 8) :
    ∃ t, exec (.overcurrent d) s = .next t ∧ t.isSet F.WND_EVT_OVERCURRENT d = true ∧ t.isSet F.WND_STATUS_LOCKED d = false ∧
      t.isSet F.WND_STATUS_CHOP_ON d = false := by
  obtain ⟨t, ht, same⟩ := doneQ_next hheld fun t => t.trip d E.WND_OVERCURRENT
  refine ⟨t, ht, ?_⟩
  rw [same.isSet, same.isSet, same.isSet]
  simp only [isSet_advance _ (by decide : F.WND_EVT_OVERCURRENT.id < 20000) (by decide +kernel),
    isSet_advance _ (by decide : F.WND_STATUS_LOCKED.id < 20000) (by decide +kernel),
    isSet_advance _ (by decide : F.WND_STATUS_CHOP_ON.id < 20000) (by decide +kernel)]
  exact trip_reads _ rfl (by decide) (by decide) (by decide) (by decide +kernel) (by decide) (by decide) (by decide) (by decide)

theorem drvFault_next {s : State} (hheld : s.pwr.held = []) (d : Fin 8) :
    ∃ t, exec (.drvFault d) s = .next t ∧ t.isSet F.WND_EVT_DRV_FAULT d = true ∧ t.isSet F.WND_STATUS_LOCKED d = false ∧
      t.isSet F.WND_STATUS_CHOP_ON d = false := by
  obtain ⟨t, ht, same⟩ := doneQ_next hheld fun t => (t.updWnd d fun w => { w with drvLow := true }).trip d E.WND_DRV_FAULT
  refine ⟨t, ht, ?_⟩
  rw [same.isSet, same.isSet, same.isSet]
  simp only [isSet_advance _ (by decide : F.WND_EVT_DRV_FAULT.id < 20000) (by decide +kernel),
    isSet_advance _ (by decide : F.WND_STATUS_LOCKED.id < 20000) (by decide +kernel),
    isSet_advance _ (by decide : F.WND_STATUS_CHOP_ON.id < 20000) (by decide +kernel)]
  exact trip_reads _ rfl (by decide) (by decide) (by decide) (by decide +kernel) (by decide) (by decide) (by decide) (by decide)

theorem gateHoldEnd_next {s : State} (hheld : s.pwr.held = []) (d : Fin 8) (since : Nat) (drvHigh clear : Bool)
    (hhold : (s.wn d).brake = .hold since) (hpast : since + 80 ≤ s.tick) :
    ∃ t, exec (.gateHoldEnd d drvHigh clear) s = .next t ∧ (t.wn d).drvLow = !drvHigh ∧
      ((drvHigh && clear) = true → (t.wn d).brake = .short 0 none ∧ t.isSet F.WND_STATUS_SHORT d = true) ∧
      ((drvHigh && clear) = false → (t.wn d).brake = .coast) := by
  obtain ⟨t, ht, same⟩ := done_next hheld fun t => t.gateHoldEnd d drvHigh clear
  unfold State.gateHoldEnd at same
  rw [show ((fresh s).wn d).brake = .hold since from hhold] at same
  dsimp only at same
  rw [if_neg (show ¬ (fresh s).tick < since + 80 from by show ¬ s.tick < _; omega)] at same
  have hdecks := wn_of_decks _ same.decks (d := d)
  refine ⟨t, ht, ?_⟩
  cases hgo : drvHigh && clear with
  | true =>
    rw [hgo, if_pos rfl] at same hdecks
    rw [wn_startShort _ d.isLt, wn_updWnd_same _ _ d.isLt] at hdecks
    rw [same.isSet, short_startShort, hdecks]
    exact ⟨rfl, fun _ => ⟨rfl, rfl⟩, nofun⟩
  | false =>
    rw [hgo, if_neg (by decide)] at same hdecks
    rw [wn_updWnd_same _ _ d.isLt, wn_updWnd_same _ _ d.isLt] at hdecks
    rw [hdecks]
    exact ⟨rfl, nofun, fun _ => rfl⟩

/-! ### PILLAR_REPORT -/

/-- The residual that was used is shown. -/
theorem resid_useReport (s : State) (d : Nat) (r : Int) : (s.useReport d r).getF F.WND_PILLAR_RESID d = unsgn 16 r := by
  unfold State.useReport State.stepOffset State.moveOffset State.keepMax
  dsimp only
  split_ifs <;> simp (disch := decide +kernel) only [getF_updWnd, getF_raise_other, getF_setF_other, getF_count_other, getF_setF] <;>
    exact Nat.mod_eq_of_lt (unsgn_lt ..)

theorem pillarReport_next {s : State} (hheld : s.pwr.held = []) (d : Fin 8) (r : PillarReport) (hpick : s.pickReport d = some r)
    (hlocked : s.isSet F.WND_STATUS_LOCKED d = true) (hfirst : (s.wn d).usedAt ≠ some s.tick) :
    ∃ t, exec (.pillarReport d) s = .next t ∧
      t.getF F.WND_PILLAR_RESID d = unsgn 16 (s.residual r ((s.wn d).past.getD 1 (0, 0)).1 ((s.wn d).past.getD 1 (0, 0)).2) := by
  obtain ⟨t, ht, same⟩ := done_next hheld fun t => t.pillarReport d
  have huse : (fresh s).pillarReport d =
      (fresh s).useReport d (s.residual r ((s.wn d).past.getD 1 (0, 0)).1 ((s.wn d).past.getD 1 (0, 0)).2) := by
    unfold State.pillarReport
    rw [show (fresh s).pickReport d = some r from hpick]
    refine if_neg ?_
    show ¬ (!s.isSet F.WND_STATUS_LOCKED d || decide ((s.wn d).usedAt = some s.tick)) = true
    rw [hlocked, decide_eq_false hfirst]
    decide
  rw [huse] at same
  exact ⟨t, ht, by rw [same.getF, resid_useReport]⟩

/-! ### Starting -/

theorem spinMeasureEnd_next {s : State} (hheld : s.pwr.held = []) (d : Fin 8) (hdeck : s.deck d = dkSPINUP) (hphase : s.phase d = 1)
    (hoff : 8 ≤ (s.wn d).offRun) :
    ∃ t, exec (.spinMeasureEnd d) s = .next t ∧
      t.getF F.WND_CATCH_SPEED d = unsgn 16 (((s.wn d).found.map Prod.fst).getD 0) ∧
      ((((s.wn d).found.map Prod.fst).getD 0).natAbs * 200 < (s.wn d).target0 →
        t.getF F.WND_CATCH_RESULT d = 0 ∧ t.phase d = 4) := by
  obtain ⟨t, ht, same⟩ := done_next hheld fun t => t.measureEnd d
  unfold State.measureEnd at same
  rw [if_pos (by
    show (decide (s.deck d = dkSPINUP) && decide (s.phase d = 1) && decide (8 ≤ (s.wn d).offRun)) = true
    rw [decide_eq_true hdeck, decide_eq_true hphase, decide_eq_true hoff]
    rfl)] at same
  dsimp only at same
  refine ⟨t, ht, ?_, fun hslow => ?_⟩
  · rw [same.getF]
    simp only [getF_ite]
    simp (disch := decide +kernel) only [getF_setPhase, State.seedObserver, getF_updWnd, getF_setF_other, getF_setF, ite_self]
    exact Nat.mod_eq_of_lt (unsgn_lt ..)
  · rw [if_pos (decide_eq_true (by
      show (((s.wn d).found.map Prod.fst).getD 0).natAbs * 2 * 100 < (s.wn d).target0
      omega))] at same
    refine ⟨?_, ?_⟩
    · rw [same.getF, getF_setPhase _ _ (by decide), getF_setF]
      rfl
    · rw [State.phase, same.getF]
      exact phase_setPhase _ (by decide)

theorem alignEnd_next {s : State} (hheld : s.pwr.held = []) (d : Fin 8) (hdeck : s.deck d = dkSPINUP) (hphase : s.phase d = 4)
    (hpast : (s.wn d).phaseAt + 400 * max 1 (s.getF F.WND_START_ALIGN_T d) ≤ s.tick) :
    ∃ t, exec (.alignEnd d) s = .next t ∧ t.phase d = 5 ∧ (t.wn d).olRate = 0 ∧ (t.wn d).phaseAt = s.tick := by
  obtain ⟨t, ht, same⟩ := done_next hheld fun t => t.alignEnd d
  have hend : (fresh s).alignEnd d = ((fresh s).updWnd d fun w => { w with olRate := 0, olAngle := 0 }).setPhase d 5 := by
    refine if_pos ?_
    show (decide (s.deck d = dkSPINUP) && decide (s.phase d = 4) &&
      decide ((s.wn d).phaseAt + 400 * max 1 (s.getF F.WND_START_ALIGN_T d) ≤ s.tick)) = true
    rw [decide_eq_true hdeck, decide_eq_true hphase, decide_eq_true hpast]
    rfl
  rw [hend] at same
  have hwn := wn_of_decks _ same.decks (d := d)
  rw [wn_setPhase _ _ d.isLt, wn_updWnd_same _ _ d.isLt] at hwn
  refine ⟨t, ht, ?_, by rw [hwn], by rw [hwn]; rfl⟩
  rw [State.phase, same.getF]
  exact phase_setPhase _ (by decide)

theorem handoverTimeout_next {s : State} (hheld : s.pwr.held = []) (d : Fin 8) (hdeck : s.deck d = dkSPINUP) (hphase : s.phase d = 6)
    (hwait : (s.wn d).waitRest = false) (hlocked : s.isSet F.WND_STATUS_LOCKED d = false) (hpast : (s.wn d).phaseAt + 640 ≤ s.tick) :
    ∃ t, exec (.handoverTimeout d) s = .next t ∧ t.isSet F.WND_STATUS_LOCKED d = false ∧
      t.isSet F.WND_STATUS_CHOP_ON d = false ∧ (2 ≤ (s.wn d).tries → t.isSet F.WND_EVT_SPIN_FAIL d = true) := by
  obtain ⟨t, ht, same⟩ := doneQ_next hheld fun t => t.handoverTimeout d
  unfold State.handoverTimeout at same
  dsimp only at same
  rw [if_pos (by
    show (decide (s.deck d = dkSPINUP) && decide (s.phase d = 6) && !(s.wn d).waitRest && !s.isSet F.WND_STATUS_LOCKED d &&
      decide ((s.wn d).phaseAt + 640 ≤ s.tick)) = true
    rw [decide_eq_true hdeck, decide_eq_true hphase, decide_eq_true hpast, hwait, hlocked]
    rfl)] at same
  generalize hu : ((fresh s).gatesOff d).updWnd d _ = u at same
  have hoff : u.isSet F.WND_STATUS_LOCKED d = false ∧ u.isSet F.WND_STATUS_CHOP_ON d = false := by
    rw [← hu, isSet_updWnd, isSet_updWnd]
    exact ⟨locked_gatesOff _, chopOn_gatesOff _⟩
  obtain ⟨hlock, hchop⟩ := hoff
  refine ⟨t, ht, ?_, ?_, fun hthird => ?_⟩
  · rw [same.isSet, isSet_advance _ (by decide) (by decide +kernel), isSet_ite, State.spinFail,
      (deckFatal_frame ..).isSet (by decide) (by decide +kernel), isSet_raise_other _ _ (by decide) (by decide), ite_self, hlock]
  · rw [same.isSet, isSet_advance _ (by decide) (by decide +kernel), isSet_ite, State.spinFail,
      (deckFatal_frame ..).isSet (by decide) (by decide +kernel), isSet_raise_other _ _ (by decide) (by decide), ite_self, hchop]
  · rw [same.isSet, isSet_advance _ (by decide) (by decide +kernel), if_pos
      (show 3 ≤ ((fresh s).wn d).tries + 1 from Nat.succ_le_succ hthird), State.spinFail,
      (deckFatal_frame ..).isSet (by decide) (by decide +kernel)]
    exact isSet_raise_same _ _ E.WND_SPIN_FAIL rfl (by decide) (by decide)

theorem spinFail_next {s : State} (hheld : s.pwr.held = []) (d : Fin 8) (hdeck : s.deck d = dkSPINUP)
    (hpast : (s.wn d).spinAt + 40000 * max 1 (s.getF F.WND_LIMITS_SPIN_TMO d) ≤ s.tick) :
    ∃ t, exec (.spinFail d) s = .next t ∧ t.isSet F.WND_EVT_SPIN_FAIL d = true := by
  obtain ⟨t, ht, same⟩ := doneQ_next hheld fun t =>
    if t.deck d = dkSPINUP && decide ((t.wn d).spinAt + 40000 * max 1 (t.getF F.WND_LIMITS_SPIN_TMO d) ≤ t.tick) then t.spinFail d
    else t
  rw [if_pos (by
    show (decide (s.deck d = dkSPINUP) && decide ((s.wn d).spinAt + 40000 * max 1 (s.getF F.WND_LIMITS_SPIN_TMO d) ≤ s.tick)) = true
    rw [decide_eq_true hdeck, decide_eq_true hpast]
    rfl)] at same
  refine ⟨t, ht, ?_⟩
  rw [same.isSet, isSet_advance _ (by decide) (by decide +kernel), State.spinFail,
    (deckFatal_frame ..).isSet (by decide) (by decide +kernel)]
  exact isSet_raise_same _ _ E.WND_SPIN_FAIL rfl (by decide) (by decide)

/-! ### Stopping -/

theorem shortHoldEnd_next {s : State} (hheld : s.pwr.held = []) (d : Fin 8) (n since : Nat)
    (hshort : (s.wn d).brake = .short n (some since)) (hpast : since + 80000 ≤ s.tick) :
    ∃ t, exec (.shortHoldEnd d) s = .next t ∧ (t.wn d).brake = .none ∧ (t.wn d).gates = .off ∧
      t.isSet F.WND_STATUS_SHORT d = false := by
  obtain ⟨t, ht, same⟩ := done_next hheld fun t => t.shortHoldEnd d
  unfold State.shortHoldEnd at same
  rw [show ((fresh s).wn d).brake = .short n (some since) from hshort] at same
  dsimp only at same
  rw [if_pos (show since + 80000 ≤ (fresh s).tick from hpast)] at same
  have hwn := wn_of_decks _ same.decks (d := d)
  rw [wn_updWnd_same _ _ d.isLt, wn_gatesOff _ d.isLt] at hwn
  refine ⟨t, ht, by rw [hwn], by rw [hwn], ?_⟩
  rw [same.isSet, isSet_updWnd, short_gatesOff]

theorem stopped_next {s : State} (hheld : s.pwr.held = []) (d : Fin 8) (hdeck : s.deck d = dkBRAKING)
    (hoff : (s.wn d).gatesOn = false) (hrest : s.isSet F.WND_STATUS_AT_REST d = true) :
    ∃ t, exec (.stopped d) s = .next t ∧ t.isSet F.WND_EVT_STOPPED d = true := by
  obtain ⟨t, ht, same⟩ := doneQ_next hheld fun t =>
    if t.deck d = dkBRAKING && !(t.wn d).gatesOn && t.isSet F.WND_STATUS_AT_REST d then
      let u := (t.setDeck d dkLOADED).raise E.WND_STOPPED d
      if (t.wn d).present then u else u.removeDeck d
    else t
  rw [if_pos (by
    show (decide (s.deck d = dkBRAKING) && !(s.wn d).gatesOn && s.isSet F.WND_STATUS_AT_REST d) = true
    rw [decide_eq_true hdeck, hoff, hrest]
    rfl)] at same
  refine ⟨t, ht, ?_⟩
  rw [same.isSet, isSet_advance _ (by decide) (by decide +kernel)]
  have hstopped : (((fresh s).setDeck d dkLOADED).raise E.WND_STOPPED d).isSet F.WND_EVT_STOPPED d = true :=
    isSet_raise_same _ _ E.WND_STOPPED rfl (by decide) (by decide)
  dsimp only
  split
  · exact hstopped
  · rw [(removeDeck_frame ..).isSet (by decide) (by decide +kernel)]
    exact hstopped

/-- Settles O21: one lemma per row, above. -/
theorem deckEventRows : Obligations.DeckEventRows := by
  intro s d hheld
  exact ⟨obsLate_next hheld d, wndOvr_next hheld d, overcurrent_next hheld d, drvFault_next hheld d,
    gateHoldEnd_next hheld d, pillarReport_next hheld d, spinMeasureEnd_next hheld d, alignEnd_next hheld d, handoverTimeout_next hheld d,
    spinFail_next hheld d, shortHoldEnd_next hheld d, stopped_next hheld d⟩

end Sys2Proof.Proofs
end

section
/-!
PROOFS. The read channel rows (09), the inner decode of a drift among them.
-/
set_option Elab.async false

namespace Sys2Proof.Proofs

open Sys2Proof.Machine Sys2Proof.Laws

/-! ### Channels -/

section
variable (s : State) {c e : Nat}

theorem chan_updChan_same (u : ChanS → ChanS) (hc : c < 128) : (s.updChan c u).chan c = u (s.chan c) := vget_vset_same _ _ _ hc

theorem chan_updChan_other (u : ChanS → ChanS) (hne : e ≠ c) : (s.updChan e u).chan c = s.chan c := vget_vset_other _ _ _ hne

@[simp] theorem chan_setF (f : Field) (i v : Nat) : (s.setF f i v).chan c = s.chan c := rfl
@[simp] theorem chan_setB (f : Field) (i : Nat) (b : Bool) : (s.setB f i b).chan c = s.chan c := rfl
@[simp] theorem chan_count (f : Field) (i : Nat) : (s.count f i).chan c = s.chan c := rfl
@[simp] theorem chan_raiseChn (ev : Event) : (s.raiseChn ev e).chan c = s.chan c := rfl

theorem chan_of_chans {t : State} (hchans : t.chans = s.chans) : t.chan c = s.chan c := by rw [State.chan, hchans, State.chan]

variable (f : Field) (j : Nat)

@[simp] theorem getF_updChan (u : ChanS → ChanS) : (s.updChan c u).getF f j = s.getF f j := rfl
@[simp] theorem isSet_updChan (u : ChanS → ChanS) : (s.updChan c u).isSet f j = s.isSet f j := rfl
@[simp] theorem getF_updRx (u : RxS → RxS) : (s.updRx c u).getF f j = s.getF f j := rfl
@[simp] theorem isSet_updRx (u : RxS → RxS) : (s.updRx c u).isSet f j = s.isSet f j := rfl

variable {f j}

@[simp] theorem getF_raiseChn_other (ev : Event) (hf : ev.fld.id ≠ f.id) (hn : ev.reg.forced.id ≠ f.id)
    (hmark : F.CHN_EVT_CHANS_CHAN.id ≠ f.id) : (s.raiseChn ev c).getF f j = s.getF f j := by
  rw [State.raiseChn, getF_putF_other _ _ _ hmark, getF_raise_other _ _ hf hn]

theorem isSet_raiseChn_same (ev : Event) (hf : ev.fld = f) (hw : 1 ≤ f.width) (hn : ev.reg.forced.id ≠ f.id)
    (hmark : F.CHN_EVT_CHANS_CHAN.id ≠ f.id) : (s.raiseChn ev c).isSet f c = true := by
  rw [State.raiseChn, isSet_putF_other _ _ _ hmark, isSet_raise_same _ _ _ hf hw hn]

theorem ch_flushAsm : (fresh s).flushAsm.ch c = s.ch c := by simp (disch := decide +kernel) [State.ch]

/-- The channel is in LOCK, out of wobble lock. -/
theorem chanLock_reads : (s.chanLock c).ch c = chLOCK ∧ (s.chanLock c).isSet F.CHN_STATUS_WOB_LOCK c = false := by
  unfold State.chanLock
  refine ⟨?_, isSet_setB_same _ _ _ _ (by decide)⟩
  rw [State.ch, getF_setB_other _ _ (by decide), getF_setF]
  rfl

end

/-! ### Enable, disable, zones, lock -/

section
variable {s : State} (c : Fin 128)

theorem channelEnable_next (hserved : s.pf1Served = true) (hoff : s.ch c = chOFF) :
    ∃ t, exec (.channelEnable c) s = .next t ∧ t.isSet F.CHN_CTL_EN c = true ∧ t.ch c = chWAIT := by
  obtain ⟨t, ht, same⟩ := doneW_next hserved fun t => t.chanEnable c
  unfold State.chanEnable at same
  dsimp only at same
  rw [if_pos ((ch_flushAsm s).trans hoff)] at same
  refine ⟨t, ht, ?_, ?_⟩
  · rw [same.isSet, (rateCheck_frame ..).isSet (by decide) (by decide +kernel), isSet_updChan, isSet_setF_other _ _ (by decide)]
    exact isSet_setB_same _ _ _ _ (by decide)
  · rw [State.ch, same.getF, (rateCheck_frame ..).getF (by decide) (by decide +kernel), getF_updChan, getF_setF]
    rfl

theorem channelDisable_next (hserved : s.pf1Served = true) :
    ∃ t, exec (.channelDisable c) s = .next t ∧ t.isSet F.CHN_CTL_EN c = false ∧ t.ch c = chOFF ∧
      t.isSet F.CHN_STATUS_WOB_LOCK c = false := by
  obtain ⟨t, ht, same⟩ := doneW_next hserved fun t => t.chanDisable c
  rw [State.chanDisable, State.chanOff] at same
  refine ⟨t, ht, ?_, ?_, ?_⟩
  · rw [same.isSet, isSet_setB_other _ _ (by decide), isSet_setF_other _ _ (by decide),
      (truncate_frame ..).isSet (by decide) (by decide +kernel)]
    exact isSet_setB_same _ _ _ _ (by decide)
  · rw [State.ch, same.getF, getF_setB_other _ _ (by decide), getF_setF]
    rfl
  · rw [same.isSet]
    exact isSet_setB_same _ _ _ _ (by decide)

theorem zoneReload_next (hserved : s.pf1Served = true) : ∃ t, exec (.zoneReload c) s = .next t ∧ (t.chan c).reload = true := by
  obtain ⟨t, ht, same⟩ := doneW_next hserved fun t => t.updChan c fun x => { x with reload := true }
  exact ⟨t, ht, by rw [chan_of_chans _ same.chans, chan_updChan_same _ _ c.isLt]⟩

variable (hheld : s.pwr.held = [])
include hheld

theorem channelLock_next (hwait : s.ch c = chWAIT) (hen : s.isSet F.CHN_CTL_EN c = true) (hread : s.readable (headOfChan c) = true)
    (hangle : s.angleValid (deckOfChan c) = true) (hrate : s.beyondNow c = false) :
    ∃ t, exec (.channelLock c) s = .next t ∧ t.ch c = chLOCK ∧ t.isSet F.CHN_STATUS_WOB_LOCK c = false := by
  obtain ⟨t, ht, same⟩ := done_next hheld fun t => t.toLock c
  have hcheck : (fresh s).rateCheck c = (fresh s).updChan c fun x => { x with beyond := false } := by
    unfold State.rateCheck
    rw [if_neg (by rw [show (fresh s).isSet F.CHN_CTL_EN c = true from hen]; decide)]
    dsimp only
    rw [show (fresh s).beyondNow c = false from hrate]
    rfl
  have hlock : (fresh s).toLock c = ((fresh s).updChan c fun x => { x with beyond := false }).chanLock c := by
    unfold State.toLock
    rw [if_neg (by rw [show (fresh s).ch c = chWAIT from hwait]; decide)]
    dsimp only
    rw [hcheck, chan_updChan_same _ _ c.isLt]
    refine if_pos ?_
    show (s.readable (headOfChan c) && s.angleValid (deckOfChan c) && !false) = true
    rw [hread, hangle]
    rfl
  rw [hlock] at same
  refine ⟨t, ht, ?_, ?_⟩
  · rw [State.ch, same.getF]
    exact (chanLock_reads _).1
  · rw [same.isSet]
    exact (chanLock_reads _).2

theorem lockTimeout_next (hlock : s.ch c = chLOCK) (hlate : 64 ≤ (s.chan c).periods) :
    ∃ t, exec (.lockTimeout c) s = .next t ∧ t.isSet F.CHN_EVT_WOB_UNLOCK c = true ∧ (t.chan c).periods = 0 := by
  obtain ⟨t, ht, same⟩ := done_next hheld fun t =>
    if t.ch c = chLOCK && decide (64 ≤ (t.chan c).periods) then (t.raiseChn E.CHN_WOB_UNLOCK c).seedLoop c else t
  rw [if_pos (by
    show (decide (s.ch c = chLOCK) && decide (64 ≤ (s.chan c).periods)) = true
    rw [decide_eq_true hlock, decide_eq_true hlate]
    rfl)] at same
  refine ⟨t, ht, ?_, ?_⟩
  · rw [same.isSet, (seedLoop_frame ..).isSet (by decide) (by decide +kernel)]
    exact isSet_raiseChn_same _ E.CHN_WOB_UNLOCK rfl (by decide) (by decide) (by decide)
  · rw [chan_of_chans _ same.chans, State.seedLoop, chan_updChan_same _ _ c.isLt]

/-! ### Defects -/

theorem defect_next (hdef : s.isSet F.CHN_CTL_DEF_EN c = true) (hrun : s.ch c = chRUN) (hnone : (s.chan c).rx.drop = none)
    (hlow : max 1 (s.getF F.CHN_DEF_CTL_DEF_MIN c) ≤ (s.chan c).rx.lowRun) :
    ∃ t, exec (.defect c) s = .next t ∧ t.isSet F.CHN_STATUS_DEFECT c = true ∧
      (t.chan c).rx.drop = some ((s.chan c).rx.lastLow + 1 - (s.chan c).rx.lowRun) ∧
      t.isSet F.CHN_EVT_DEFECT c = true ∧ t.getF F.CHN_DEF_STATS_DEFECTS c = min (s.getF F.CHN_DEF_STATS_DEFECTS c + 1) 65535 := by
  obtain ⟨t, ht, same⟩ := done_next hheld fun t => t.dropBegin c
  unfold State.dropBegin at same
  dsimp only at same
  rw [if_pos (by
    show (s.isSet F.CHN_CTL_DEF_EN c && (s.ch c == chLOCK || s.ch c == chRUN) && (s.chan c).rx.drop.isNone &&
      decide (max 1 (s.getF F.CHN_DEF_CTL_DEF_MIN c) ≤ (s.chan c).rx.lowRun)) = true
    rw [hdef, hrun, hnone, decide_eq_true hlow]
    rfl)] at same
  refine ⟨t, ht, ?_, ?_, ?_, ?_⟩
  · rw [same.isSet]
    exact isSet_setB_same _ _ _ _ (by decide)
  · rw [chan_of_chans _ same.chans]
    exact congrArg (fun x : ChanS => x.rx.drop) (chan_updChan_same (fresh s)
      (fun x => { x with rx := { x.rx with drop := some ((s.chan c).rx.lastLow + 1 - (s.chan c).rx.lowRun) } }) c.isLt)
  · rw [same.isSet, isSet_setB_other _ _ (by decide)]
    exact isSet_raiseChn_same _ E.CHN_DEFECT rfl (by decide) (by decide) (by decide)
  · rw [same.getF, getF_setB_other _ _ (by decide), getF_raiseChn_other _ _ (by decide) (by decide) (by decide), getF_count_same]
    rfl

/-! ### Inner decodes and the end of a drift -/

theorem innerDecodeDone_next (j : InnerJob) (rest : List InnerJob) (hinner : (s.chan c).inner = j :: rest) :
    ∃ t, exec (.innerDecodeDone c) s = .next t ∧ (t.chan c).inner = startInner s.innerCtl rest := by
  obtain ⟨t, ht, same⟩ := done_next hheld fun t => t.innerDone c
  have hdone : ((fresh s).innerDone c).chans = ((fresh s).updChan c fun y => { y with inner := startInner s.innerCtl rest }).chans := by
    unfold State.innerDone
    rw [show ((fresh s).chan c).inner = j :: rest from hinner]
    dsimp only
    split
    · exact unmasked (judgeInner_frame ..).chans (by decide +kernel)
    · rfl
  refine ⟨t, ht, ?_⟩
  rw [chan_of_chans _ (same.chans.trans hdone), chan_updChan_same _ _ c.isLt]

end

/-- The inner decoder's end of a decode leaves the drift that the channel frames. -/
theorem drift_innerDone (s : State) {c : Nat} (hc : c < 128) : ((s.innerDone c).chan c).drift = (s.chan c).drift := by
  unfold State.innerDone
  split
  · rfl
  next j rest hinner =>
    have hleft : ((s.updChan c fun y => { y with inner := startInner s.innerCtl rest }).chan c).drift = (s.chan c).drift := by
      rw [chan_updChan_same _ _ hc]
    dsimp only
    split
    · rw [chan_of_chans _ (unmasked (judgeInner_frame ..).chans (by decide +kernel))]
      exact hleft
    · exact hleft

/-- The channel frames no drift, and shows the squared error of its last one. -/
def DriftEnded (t : State) (c mse : Nat) : Prop := (t.chan c).drift = none ∧ t.getF F.CHN_MSE_MSE c = min mse 65535

theorem DriftEnded.of_eq {t u : State} {c mse : Nat} (h : DriftEnded t c mse) (hchans : u.chans = t.chans)
    (hmse : u.getF F.CHN_MSE_MSE c = t.getF F.CHN_MSE_MSE c) : DriftEnded u c mse := by
  obtain ⟨hdrift, hshown⟩ := h
  exact ⟨by rw [chan_of_chans _ hchans, hdrift], hmse.trans hshown⟩

theorem driftEnded_driftEnd {s : State} {c : Nat} (hc : c < 128) {d : Machine.Framed} (hdrift : (s.chan c).drift = some d) :
    DriftEnded (s.driftEnd c) c (d.data.getD (s.driftIn c d.start)).mse := by
  unfold State.driftEnd
  rw [hdrift]
  dsimp only
  generalize hx : d.data.getD (s.driftIn c d.start) = x
  have hleft : DriftEnded (((s.updChan c fun y => { y with drift := none }).setF F.CHN_MSE_MSE c (min x.mse 65535)).count
      F.CHN_DRIFTS_DELIVERED c) c x.mse := by
    refine ⟨congrArg ChanS.drift (chan_updChan_same s (fun y => { y with drift := none }) hc), ?_⟩
    rw [getF_count_other _ (by decide), getF_setF]
    exact Nat.mod_eq_of_lt (by show _ < 65536; omega)
  have hended : ∀ {r lam t y}, (((s.updChan c fun y => { y with drift := none }).setF F.CHN_MSE_MSE c (min x.mse 65535)).count
      F.CHN_DRIFTS_DELIVERED c).toPool r lam = (t, y) → DriftEnded t c x.mse := fun {r lam t y} heq => by
    rw [← show (State.toPool _ r lam).1 = t from congrArg Prod.fst heq]
    exact hleft.of_eq (unmasked (toPool_frame ..).chans (by decide +kernel)) ((toPool_frame ..).getF (by decide) (by decide +kernel))
  split
  · exact hleft.of_eq (unmasked (toCal_frame ..).chans (by decide +kernel)) ((toCal_frame ..).getF (by decide) (by decide +kernel))
  · split
    next t hpool => exact hended hpool
    next t y hpool =>
      have hpooled : DriftEnded t c x.mse := hended hpool
      have hdone : DriftEnded (if 2 ≤ (t.chan c).inner.length then t.innerDone c else t) c x.mse := by
        split
        · exact ⟨(drift_innerDone t hc).trans hpooled.1, ((innerDone_frame ..).getF (by decide) (by decide +kernel)).trans hpooled.2⟩
        · exact hpooled
      exact ⟨by rw [chan_updChan_same _ _ hc]; exact hdone.1, hdone.2⟩

theorem driftDelivered_next {s : State} (hheld : s.pwr.held = []) (c : Fin 128) (d : Machine.Framed) (hdrift : (s.chan c).drift = some d) :
    ∃ t, exec (.driftDelivered c) s = .next t ∧ (t.chan c).drift = none ∧
      t.getF F.CHN_MSE_MSE c = min (d.data.getD (s.driftIn c d.start)).mse 65535 := by
  obtain ⟨t, ht, same⟩ := done_next hheld fun t => t.driftEnd c
  obtain ⟨hnone, hmse⟩ := driftEnded_driftEnd (s := fresh s) c.isLt hdrift
  exact ⟨t, ht, by rw [chan_of_chans _ same.chans, hnone], by rw [same.getF, hmse]; rfl⟩

/-! ### DRIFT_SLOT -/

/-- A drift sync has been found, with n matches and o bits from its place. -/
def foundSync (s : State) (c n : Nat) (o : Int) (cands : Nat) : State :=
  (((s.count F.CHN_SYNC_STATS_FOUND c).setF F.CHN_SYNC_LAST_SCORE c n).setF F.CHN_SYNC_LAST_OFFSET c (unsgn 8 o)).setF
    F.CHN_SYNC_LAST_CANDS c cands

/-- The channel frames the drift, whatever the envelope average takes; no register changes. -/
theorem frameDrift_reads (s : State) {c : Nat} (j : Nat) (start : Int) (r : DriftRec) (hc : c < 128) :
    ((s.frameDrift c j start r).chan c).drift = some { record := r, slot := j, start := start } ∧
    ∀ f i, (s.frameDrift c j start r).getF f i = s.getF f i := by
  unfold State.frameDrift
  refine forEach_keeps (P := fun t => (t.chan c).drift = some { record := r, slot := j, start := start } ∧ ∀ f i, t.getF f i = s.getF f i)
    (fun t b _ ht => ?_) ⟨?_, fun _ _ => rfl⟩
  · unfold State.envAverage
    split
    · exact ⟨by rw [chan_updChan_same _ _ hc]; exact ht.1, ht.2⟩
    · exact ht
  · rw [chan_updChan_same _ _ hc]

theorem driftSlot_next {s : State} (hheld : s.pwr.held = []) (c : Fin 128) (j : Nat) (x : SlotIn) (r : DriftRec) (n : Nat) (o : Int)
    (hframing : s.framing c = true) (hnone : (s.chan c).drift = none) (hzone : j < zoneD (s.getF F.CHN_STATUS_ZONE c))
    (hid : s.identity c j = some r) (hslot : (s.chan c).rx.slotIn j = some x) (hblank : s.isSet F.CHN_CTL_BLANK_EN c = false)
    (hfound : searchWord driftSync 64 (s.getF F.CHN_SYNC_CTL_SYNC_TH c) 24 x.bits = some (n, o)) :
    ∃ t, exec (.driftSlot c j) s = .next t ∧
      (t.chan c).drift = some { record := { r with score := n, syncOfs := o }, slot := j, start := slotStart j + o } ∧
      t.getF F.CHN_SYNC_LAST_SCORE c = n % 256 ∧
      t.getF F.CHN_SYNC_STATS_FOUND c = min (s.getF F.CHN_SYNC_STATS_FOUND c + 1) 65535 := by
  obtain ⟨t, ht, same⟩ := done_next hheld fun t => t.driftSlot c j
  have hslot' : (fresh s).driftSlot c j = (foundSync (fresh s) c n o (candidates driftSync 64
      (s.getF F.CHN_SYNC_CTL_SYNC_TH c) 24 x.bits)).frameDrift
      c j (slotStart j + o) { r with score := n, syncOfs := o } := by
    unfold State.driftSlot
    rw [if_neg (by
      show ¬ (!s.framing c || (s.chan c).drift.isSome || decide (zoneD (s.getF F.CHN_STATUS_ZONE c) ≤ j)) = true
      rw [hframing, hnone, decide_eq_false (by omega)]
      decide), show (fresh s).identity c j = some r from hid, show ((fresh s).chan c).rx.slotIn j = some x from hslot]
    dsimp only
    rw [if_neg (by rw [show (fresh s).isSet F.CHN_CTL_BLANK_EN c = false from hblank]; simp),
      show searchWord driftSync 64 ((fresh s).getF F.CHN_SYNC_CTL_SYNC_TH c) 24 x.bits = some (n, o) from hfound]
    rfl
  rw [hslot'] at same
  obtain ⟨hkept, hreg⟩ := frameDrift_reads (foundSync (fresh s) c n o (candidates driftSync 64 (s.getF F.CHN_SYNC_CTL_SYNC_TH c) 24 x.bits))
    j (slotStart j + o) { r with score := n, syncOfs := o } c.isLt
  refine ⟨t, ht, ?_, ?_, ?_⟩
  · rw [chan_of_chans _ same.chans, hkept]
  · rw [same.getF, hreg]
    unfold foundSync
    simp (disch := decide +kernel) only [getF_setF_other, getF_setF]
    rfl
  · rw [same.getF, hreg]
    unfold foundSync
    simp (disch := decide +kernel) only [getF_setF_other, getF_count_same]
    rfl

/-! ### PILLAR_DETECT -/

section
variable (s : State) {c e : Nat}

theorem chan_rateCheck_other (hne : e ≠ c) : (s.rateCheck e).chan c = s.chan c := by
  unfold State.rateCheck State.onlyIf
  dsimp only
  split_ifs
  · rfl
  · rw [chan_updChan_other _ _ hne, chan_raiseChn]
  · rw [chan_updChan_other _ _ hne]

theorem chan_loadZone (l z : Nat) : (s.loadZone e l z).chan c = s.chan c :=
  chan_of_chans _ (unmasked (loadZone_frame ..).chans (by decide +kernel))

theorem chan_applyZone_other (hne : e ≠ c) : (s.applyZone e).chan c = s.chan c := by
  have htaps : ∀ (t : State) (b : Bool) (z : Nat), (t.onlyIf b fun t => t.loadTaps e z).chan c = t.chan c := fun t b z => by
    unfold State.onlyIf
    split
    · exact chan_of_chans _ (unmasked (loadTaps_frame t e z).chans (by decide +kernel))
    · rfl
  unfold State.applyZone
  extract_lets h l z s1 s2 q
  calc _ = s2.chan c := by rw [chan_rateCheck_other _ hne, chan_updChan_other _ _ hne]
    _ = s1.chan c := htaps ..
    _ = s.chan c := chan_loadZone ..

theorem chan_zoneAtPillar_other (hne : e ≠ c) : (s.zoneAtPillar e).chan c = s.chan c := by
  unfold State.zoneAtPillar
  dsimp only
  split_ifs
  · exact chan_applyZone_other _ hne
  · rw [chan_updChan_other _ _ hne, chan_loadZone]
  · rfl

theorem chan_wobble_other (hne : e ≠ c) : (s.wobble e).chan c = s.chan c := by
  unfold State.wobble
  dsimp only
  split_ifs <;> simp only [chan_setB, chan_updChan_other _ _ hne, chan_setF]

theorem chan_pillarCount_other (a : PillarAddr) (hne : e ≠ c) : (s.pillarCount e a).chan c = s.chan c := by
  unfold State.pillarCount
  dsimp only
  split_ifs <;> simp only [chan_updChan_other _ _ hne, chan_raiseChn, chan_setF]

theorem chan_reportAddr (a : PillarAddr) (pass : Bool) : (s.reportAddr e a pass).chan c = s.chan c := rfl

/-- A pillar that passes one beam leaves the other channels. -/
theorem chan_beamPillar_other (hne : e ≠ c) : (s.beamPillar e).1.chan c = s.chan c := by
  have hphase : ∀ (t : State) (o : Int), (t.syncPhase e o).chan c = t.chan c := fun t o => chan_updChan_other _ _ hne
  unfold State.beamPillar
  dsimp only
  split
  · simp only [chan_updChan_other _ _ hne, chan_raiseChn, chan_count, chan_zoneAtPillar_other _ hne]
    split <;> simp only [hphase, chan_wobble_other _ hne]
  · split <;> simp only [chan_count, chan_pillarCount_other _ _ hne, chan_reportAddr, chan_updChan_other _ _ hne,
      chan_zoneAtPillar_other _ hne] <;> split <;> simp only [hphase, chan_wobble_other _ hne]

/-- The phase error of a pillar period is shown by its channel alone. -/
theorem perr_wobble : (s.wobble e).getF F.CHN_WOB_STATUS_PERR c =
    if e = c then min (s.chan c).rx.perr 65535 else s.getF F.CHN_WOB_STATUS_PERR c := by
  unfold State.wobble
  dsimp only
  have hshown : (s.setF F.CHN_WOB_STATUS_PERR e (min (s.chan e).rx.perr 65535)).getF F.CHN_WOB_STATUS_PERR c =
      if e = c then min (s.chan c).rx.perr 65535 else s.getF F.CHN_WOB_STATUS_PERR c := by
    split
    next heq =>
      rw [heq, getF_setF]
      exact Nat.mod_eq_of_lt (by show _ < 65536; omega)
    next hne => exact getF_setF_inst _ _ hne
  split_ifs at hshown ⊢ <;> simp (disch := decide +kernel) only [getF_setB_other, getF_updChan] <;> exact hshown

theorem perr_beamPillar : (s.beamPillar e).1.getF F.CHN_WOB_STATUS_PERR c =
    if e = c then min (s.chan c).rx.perr 65535 else s.getF F.CHN_WOB_STATUS_PERR c := by
  rw [← perr_wobble]
  have hzone : ∀ t : State, (t.zoneAtPillar e).getF F.CHN_WOB_STATUS_PERR c = t.getF F.CHN_WOB_STATUS_PERR c := fun t =>
    (zoneAtPillar_frame t e).getF (by decide) (by decide +kernel)
  have hphase : ∀ (t : State) (o : Int), (t.syncPhase e o).getF F.CHN_WOB_STATUS_PERR c = t.getF F.CHN_WOB_STATUS_PERR c := fun t o =>
    (syncPhase_frame t e o).getF (by decide) (by decide +kernel)
  have hcount : ∀ (t : State) (a : PillarAddr), (t.pillarCount e a).getF F.CHN_WOB_STATUS_PERR c = t.getF F.CHN_WOB_STATUS_PERR c :=
    fun t a => (pillarCount_frame t e a).getF (by decide) (by decide +kernel)
  have hreport : ∀ (t : State) (a : PillarAddr) (p : Bool), (t.reportAddr e a p).getF F.CHN_WOB_STATUS_PERR c =
      t.getF F.CHN_WOB_STATUS_PERR c := fun t a p => (reportAddr_frame t e a p).getF (by decide) (by decide +kernel)
  unfold State.beamPillar
  dsimp only
  split
  · simp (disch := decide +kernel) only [getF_updChan, getF_raiseChn_other, getF_count_other, hzone]
    split <;> simp only [hphase]
  · split <;> simp (disch := decide +kernel) only [getF_updChan, getF_count_other, hzone, hcount, hreport] <;> split <;> simp only [hphase]

end

/-- A fold in which one element alone writes what is read. -/
theorem foldl_reads {σ α β : Type} {P : σ → Prop} {read : σ → β} {v : β} {f : σ → α → σ} {a : α}
    (hbefore : ∀ t x, x ≠ a → P t → P (f t x)) (hself : ∀ t, P t → read (f t a) = v) (hafter : ∀ t x, x ≠ a → read (f t x) = read t)
    {l : List α} (hnodup : l.Nodup) (ha : a ∈ l) {s : σ} (hs : P s) : read (l.foldl f s) = v := by
  induction l generalizing s with
  | nil => exact absurd ha (by simp)
  | cons x xs ih =>
    obtain ⟨hnot, hnodup⟩ := List.nodup_cons.1 hnodup
    by_cases hxa : x = a
    · subst hxa
      have hrest : ∀ (l : List α) (t : σ), x ∉ l → read (l.foldl f t) = read t := by
        intro l
        induction l with
        | nil => exact fun _ _ => rfl
        | cons y ys ihy =>
          intro t hy
          rw [List.foldl_cons, ihy _ (fun h => hy (List.mem_cons_of_mem _ h)), hafter _ _ (fun h => hy (h ▸ List.mem_cons_self))]
      rw [List.foldl_cons, hrest _ _ hnot, hself _ hs]
    · exact ih hnodup ((List.mem_cons.1 ha).resolve_left (Ne.symm hxa)) (hbefore _ _ hxa hs)

theorem perr_pillar {s : State} {h b : Nat} (k : Nat) (hb : b < 4) (hrun : s.ch (4 * h + b) = chRUN) :
    (s.pillar h k).getF F.CHN_WOB_STATUS_PERR (4 * h + b) = min (s.chan (4 * h + b)).rx.perr 65535 := by
  have hlive : b ∈ (List.range 4).filter fun b => s.chanLive (4 * h + b) := by
    refine List.mem_filter.2 ⟨List.mem_range.2 hb, ?_⟩
    rw [State.chanLive, hrun]
    rfl
  unfold State.pillar
  dsimp only
  rw [(frame_forEach (fun t b => pillarState_frame t (4 * h + b)) ..).getF (by decide) (by decide +kernel),
    (chanFollow_frame ..).getF (by decide) (by decide +kernel), (pillarFix_frame ..).getF (by decide) (by decide +kernel),
    (comparePos_frame ..).getF (by decide) (by decide +kernel), (pillarTold_frame ..).getF (by decide) (by decide +kernel)]
  refine foldl_reads (P := fun p : State × List (Nat × PillarAddr) => p.1.chan (4 * h + b) = s.chan (4 * h + b))
    (read := fun p : State × List (Nat × PillarAddr) => p.1.getF F.CHN_WOB_STATUS_PERR (4 * h + b)) (fun p x hx hp => ?_) (fun p hp => ?_)
      (fun p x hx => ?_)
    (List.nodup_range.filter _) hlive rfl
  · exact (chan_beamPillar_other _ (by omega)).trans hp
  · exact (perr_beamPillar _).trans (by rw [if_pos rfl, hp])
  · exact (perr_beamPillar _).trans (if_neg (by omega))

theorem pillarDetect_next {s : State} (hheld : s.pwr.held = []) (h : Fin 32) (k : BitVec 16) (b : Fin 4) (hrun : s.ch (4 * h + b) = chRUN) :
    ∃ t, exec (.pillarDetect h k) s = .next t ∧
      t.getF F.CHN_WOB_STATUS_PERR (4 * h + b) = min (s.chan (4 * h + b)).rx.perr 65535 := by
  obtain ⟨t, ht, same⟩ := done_next hheld fun t => t.pillar h k.toNat
  exact ⟨t, ht, by rw [same.getF, perr_pillar (s := fresh s) _ b.isLt hrun]; rfl⟩

/-- Settles O22: one lemma per row, above. -/
theorem channelRows : Obligations.ChannelRows := fun _ c =>
  ⟨channelEnable_next c, channelDisable_next c, zoneReload_next c, fun hheld => channelLock_next c hheld,
    fun hheld => lockTimeout_next c hheld, fun h k b hheld => pillarDetect_next hheld h k b,
    fun j x r n o hheld => driftSlot_next hheld c j x r n o, fun hheld => defect_next c hheld,
    fun d hheld => driftDelivered_next hheld c d, fun j rest hheld => innerDecodeDone_next c hheld j rest⟩

end Sys2Proof.Proofs
end

section
/-!
PROOFS. The Assayer and Precis rows (10): lode slots and ends, jobs, the tailings store.
-/
set_option Elab.async false

namespace Sys2Proof.Proofs

open Sys2Proof.Machine Sys2Proof.Laws

/-! ### Lode slots -/

section
variable (s : State) {y : Nat}

theorem slot_setSlot_same (x : SlotS) (hy : y < 96) : (s.setSlot y x).slot y = x := vget_vset_same _ _ _ hy

theorem slot_of_asy {t : State} (hasy : t.asy = s.asy) : t.slot y = s.slot y := by rw [State.slot, hasy, State.slot]

variable (f : Field) (j : Nat)

@[simp] theorem getF_setSlot (x : SlotS) : (s.setSlot y x).getF f j = s.getF f j := rfl
@[simp] theorem isSet_setSlot (x : SlotS) : (s.setSlot y x).isSet f j = s.isSet f j := rfl

/-- The slot that a reservation takes is READING. -/
theorem reserve_of_free {v n x h pos : Nat} {test : Bool} (hnone : s.slotOf v n x = none) (hcan : s.canReserve false = true)
    (hfree : (List.range 96).find? (fun y => !s.slotUsed y) = some y) :
    ∃ t, s.reserve v n x h pos false test = (t, some y) ∧ t.getF F.ASY_SLOT_STATE y = 1 ∧ t.asy.waiting = s.asy.waiting := by
  unfold State.reserve
  rw [hnone, hcan]
  simp only [Option.isSome_none, Bool.not_true, Bool.or_self, Bool.false_eq_true, if_false, hfree]
  refine ⟨_, rfl, ?_, rfl⟩
  simp (disch := decide +kernel) only [getF_setSlot, getF_setF_other, getF_setB_other, getF_setF]
  rfl

end

section
variable {s : State}

theorem slotReserve_next (hheld : s.pwr.held = []) (o : MediaOp) (rest : List MediaOp) (y : Nat) (hwaiting : s.asy.waiting = o :: rest)
    (hroutable : s.routable (homeHead o.vol o.seam) = true) (hslot : o.slot = none) (hnone : s.slotOf o.vol o.seam o.x = none)
    (hcan : s.canReserve false = true) (hfree : (List.range 96).find? (fun y => !s.slotUsed y) = some y) :
    ∃ t, exec .slotReserve s = .next t ∧ t.getF F.ASY_SLOT_STATE y = 1 ∧ t.asy.waiting = rest := by
  obtain ⟨t, ht, same⟩ := done_next hheld fun t => (issueFirst t [] t.asy.waiting).1
  obtain ⟨u, hreserve, hstate, -⟩ := reserve_of_free (fresh s) (h := (fresh s).server (homeHead o.vol o.seam)) (pos := o.pos)
    (test := o.test)
    hnone hcan hfree
  have htry : (fresh s).tryRead o = some (u.issue ((fresh s).server (homeHead o.vol o.seam)) { o with slot := some y }) := by
    unfold State.tryRead
    dsimp only
    rw [show (fresh s).routable (homeHead o.vol o.seam) = true from hroutable, hslot, hreserve]
    rfl
  rw [show (fresh s).asy.waiting = o :: rest from hwaiting, issueFirst, htry] at same
  refine ⟨t, ht, ?_, by rw [same.asy]; rfl⟩
  rw [same.getF]
  exact hstate

theorem lodeEnd_reads (s : State) {y : Nat} (hy : y < 96) (hreading : s.slotReading y = true) :
    (s.lodeEnd y).getF F.ASY_SLOT_STATE y = 2 ∧ ((s.lodeEnd y).slot y).endTick = s.tick ∧
    ((s.lodeEnd y).slot y).deadline = s.tick + s.getF F.TCK_ASY_DEADLINE_TICKS 0 := by
  unfold State.lodeEnd
  rw [hreading, if_neg (by decide)]
  extract_lets x s1
  have hslot : (((s1.putHeaders y fun e => e.read = x.readNo).setF F.ASY_SLOT_STATE y 2).count F.ASY_SLOT_READS y).slot y = s1.slot y :=
    slot_of_asy s1 (unmasked (putHeaders_frame s1 ..).asy (by decide +kernel))
  rw [slot_setSlot_same _ _ hy] at hslot
  refine ⟨?_, ?_⟩
  · rw [getF_count_other _ (by decide), getF_setF]
    rfl
  · rw [hslot]
    exact ⟨rfl, rfl⟩

theorem lodeEnd_next (hheld : s.pwr.held = []) (y : Fin 96) (passed : Bool) (hreading : s.slotReading y = true)
    (hverify : s.isSet F.ASY_SLOT_ID_VERIFY y = true) (hall : (s.slot y).got.length = 160) :
    ∃ t, exec (.lodeEnd y passed) s = .next t ∧ t.getF F.ASY_SLOT_STATE y = 2 ∧ (t.slot y).endTick = s.tick ∧
      (t.slot y).deadline = s.tick + s.getF F.TCK_ASY_DEADLINE_TICKS 0 := by
  obtain ⟨t, ht, same⟩ := done_next hheld fun t => if t.slotReading y then t.lodePass y passed else t
  rw [if_pos (show (fresh s).slotReading y = true from hreading)] at same
  have hpass : (fresh s).lodePass y passed = (fresh s).lodeEnd y := by
    unfold State.lodePass
    dsimp only
    rw [if_pos (show (fresh s).isSet F.ASY_SLOT_ID_VERIFY y = true from hverify), if_pos (by
      rw [decide_eq_true (show ((fresh s).slot y).got.length = 160 from hall)]
      rfl)]
  rw [hpass] at same
  obtain ⟨hstate, htick, hdeadline⟩ := lodeEnd_reads (fresh s) y.isLt hreading
  exact ⟨t, ht, by rw [same.getF, hstate], by rw [slot_of_asy _ same.asy, htick]; rfl, by rw [slot_of_asy _ same.asy, hdeadline]; rfl⟩

/-! ### Jobs -/

/-- Assayer a shows that it runs slot y's job. -/
def engineTaken (s : State) (a y : Nat) : State :=
  ((s.setB F.ASY_ENG_STATUS_BUSY a true).setF F.ASY_ENG_STATUS_RUNG a (s.slot y).rung).setF F.ASY_ENG_STATUS_SLOT a y

theorem jobStart_next (hheld : s.pwr.held = []) (a : Fin 8) (y : Nat) (hidle : s.isSet F.ASY_ENG_STATUS_BUSY a = false)
    (hjob : s.nextJob = some y) (hy : y < 96) (hdecoded : s.innerPending y = false) :
    ∃ t, exec (.jobStart a) s = .next t ∧ t.isSet F.ASY_ENG_STATUS_BUSY a = true ∧ t.getF F.ASY_ENG_STATUS_SLOT a = y ∧
      t.getF F.ASY_SLOT_STATE y = 3 := by
  obtain ⟨t, ht, same⟩ := done_next hheld fun t =>
    if t.isSet F.ASY_ENG_STATUS_BUSY a then t
    else match t.nextJob with
      | some y => if t.innerPending y then t else t.startJob a y
      | none => t
  rw [if_neg (by rw [show (fresh s).isSet F.ASY_ENG_STATUS_BUSY a = false from hidle]; decide),
    show (fresh s).nextJob = some y from hjob] at same
  dsimp only at same
  rw [if_neg (by rw [show (fresh s).innerPending y = false from hdecoded]; decide)] at same
  have hstart : ∃ u : State, u.regs = (engineTaken (fresh s) a y).regs ∧
      (fresh s).startJob a y = (u.setF F.ASY_SLOT_STATE y 3).setF F.ASY_SLOT_RUNG y ((fresh s).slot y).rung :=
    ⟨{ engineTaken (fresh s) a y with asy := { s.asy with
      engGen := vset s.asy.engGen a (s.slot y).gen, engCtl := vset s.asy.engCtl a s.jobCtl } }, rfl, rfl⟩
  obtain ⟨u, hregs, hstart⟩ := hstart
  have hreads : ∀ f i, u.getF f i = (engineTaken (fresh s) a y).getF f i := fun f i => by rw [State.getF, hregs, ← State.getF]
  rw [hstart] at same
  refine ⟨t, ht, ?_, ?_, ?_⟩
  · rw [State.isSet, same.getF, getF_setF_other _ _ (by decide), getF_setF_other _ _ (by decide), hreads, ← State.isSet, engineTaken]
    simp (disch := decide +kernel)
  · rw [same.getF, getF_setF_other _ _ (by decide), getF_setF_other _ _ (by decide), hreads, engineTaken, getF_setF]
    exact Nat.mod_eq_of_lt (by show y < 128; omega)
  · rw [same.getF, getF_setF_other _ _ (by decide), getF_setF]
    rfl

theorem jobDone_next (hheld : s.pwr.held = []) (a : Fin 8) (buf : List Nat) (entry : List (Nat × Nat)) (ecc : List Nat)
    (hbusy : s.isSet F.ASY_ENG_STATUS_BUSY a = true)
    (hgen : vget s.asy.engGen 0 a = (s.slot (s.getF F.ASY_ENG_STATUS_SLOT a)).gen)
    (hintime : s.tick ≤ (s.slot (s.getF F.ASY_ENG_STATUS_SLOT a)).deadline) :
    ∃ t, exec (.jobDone a buf entry ecc) s = .next t ∧ t.isSet F.ASY_ENG_STATUS_BUSY a = false := by
  obtain ⟨t, ht, same⟩ := doneQ_next hheld fun t => t.jobDone a buf entry ecc
  have hgen' : vget (fresh s).asy.engGen 0 a = ((fresh s).slot ((fresh s).getF F.ASY_ENG_STATUS_SLOT a)).gen := hgen
  have hintime' : (fresh s).tick ≤ ((fresh s).slot ((fresh s).getF F.ASY_ENG_STATUS_SLOT a)).deadline := hintime
  refine ⟨t, ht, ?_⟩
  rw [same.isSet, isSet_advance _ (by decide) (by decide +kernel)]
  unfold State.jobDone
  rw [if_neg (by rw [show (fresh s).isSet F.ASY_ENG_STATUS_BUSY a = true from hbusy]; decide), if_neg (not_not.2 hgen'),
    if_neg (Nat.not_lt.2 hintime'), (rungEnds_frame ..).isSet (by decide) (by decide +kernel), State.onlyIf, isSet_ite,
    isSet_raise_other _ _ (by decide) (by decide), ite_self, (badEntries_frame ..).isSet (by decide) (by decide +kernel),
    (jobLines_frame ..).isSet (by decide) (by decide +kernel), State.idleEngine]
  simp (disch := decide +kernel)

/-! ### The tailings store -/

theorem entryLink_next (hheld : s.pwr.held = []) (c : Fin 128) (g : Staging)
    (hfind : s.asy.staging.find? (fun p => p.1 = c.val) = some (c.val, g)) (hslot : g.entry.slot < 96)
    (hgen : g.gen = (s.slot g.entry.slot).gen) :
    ∃ t, exec (.entryLink c) s = .next t ∧ t.asy.staging = s.asy.staging.erase (c.val, g) ∧
      (t.slot g.entry.slot).entries = (s.slot g.entry.slot).entries ++
        [{ g.entry with tick := (s.slot g.entry.slot).endTick % 2 ^ 32 }] := by
  obtain ⟨t, ht, same⟩ := done_next hheld fun t => t.linkEntry c
  have hasy : ((fresh s).linkEntry c).asy = { s.asy with
      staging := s.asy.staging.erase (c.val, g)
      slots := vset s.asy.slots g.entry.slot { s.slot g.entry.slot with entries := (s.slot g.entry.slot).entries ++
        [{ g.entry with tick := (s.slot g.entry.slot).endTick % 2 ^ 32 }] } } := by
    unfold State.linkEntry
    rw [show (fresh s).asy.staging.find? (fun p => p.1 = c.val) = some (c.val, g) from hfind]
    dsimp only
    rw [if_pos (show g.gen = ((fresh s).slot g.entry.slot).gen from hgen), unmasked (putHeaders_frame ..).asy (by decide +kernel),
      unmasked (putTail_frame ..).asy (by decide +kernel)]
    rfl
  refine ⟨t, ht, by rw [same.asy, hasy], ?_⟩
  rw [State.slot, same.asy, hasy]
  exact congrArg SlotS.entries (vget_vset_same _ _ _ hslot)

theorem staging_freeEntries (s : State) (l : List Nat) : (s.freeEntries l).asy.staging = s.asy.staging := by
  unfold State.freeEntries
  split
  · rfl
  · rw [unmasked (marks_frame _).asy (by decide +kernel)]

theorem prcFlush_next (hserved : s.pf1Served = true) (heads : BitVec 32) :
    ∃ t, exec (.prcFlush heads) s = .next t ∧
      t.asy.staging = s.asy.staging.filter fun g => !heads.toNat.testBit (headOfChan g.1) := by
  obtain ⟨t, ht, same⟩ := doneW_next hserved fun t => t.flushStaging fun c => heads.toNat.testBit (headOfChan c)
  refine ⟨t, ht, ?_⟩
  have hflush : ∀ u : State, u.asy = s.asy → (u.flushStaging fun c => heads.toNat.testBit (headOfChan c)).asy.staging =
      s.asy.staging.filter fun g => !heads.toNat.testBit (headOfChan g.1) := by
    intro u hu
    unfold State.flushStaging
    rw [← hu]
    dsimp only
    split
    next hgone =>
      refine (List.filter_eq_self.2 fun g hg => ?_).symm
      have hkept := List.filter_eq_nil_iff.1 (List.isEmpty_iff.1 hgone) g hg
      simpa using hkept
    next => exact staging_freeEntries ..
  rw [same.asy]
  exact hflush _ (by simp)

theorem isSet_withAsy (s : State) (a : AsyS) (f : Field) (i : Nat) : ({ s with asy := a } : State).isSet f i = s.isSet f i := rfl

/-- Clearing every slot's retained entries leaves EN. -/
theorem isSet_clearRetained (s : State) (l : List Nat) : (s.forEach l fun t y =>
    (t.setSlot y { t.slot y with entries := [], retained := [] }).setB F.ASY_SLOT_ID_RETAIN y false).isSet F.PRC_CTL_EN 0 =
      s.isSet F.PRC_CTL_EN 0 := by
  refine forEach_keeps (P := fun t => t.isSet F.PRC_CTL_EN 0 = s.isSet F.PRC_CTL_EN 0) (fun t y _ ht => ?_) rfl
  rw [isSet_setB_other _ _ (by decide), isSet_setSlot]
  exact ht

theorem prcDisable_next (hserved : s.pf1Served = true) (hen : s.isSet F.PRC_CTL_EN 0 = true) :
    ∃ t, exec .prcDisable s = .next t ∧ t.isSet F.PRC_CTL_EN 0 = false ∧ t.asy.used = [] ∧ t.asy.staging = [] := by
  obtain ⟨t, ht, same⟩ := doneW_next hserved fun t => t.prcEnable false
  have hon : (fresh s).flushAsm.isSet F.PRC_CTL_EN 0 = true := by rw [isSet_flushAsm _ (by decide) (by decide +kernel), fresh_isSet, hen]
  unfold State.prcEnable at same
  dsimp only at same
  rw [if_neg (by rw [hon]; decide)] at same
  have hasy := same.asy.trans (unmasked (marks_frame _).asy (by decide +kernel))
  refine ⟨t, ht, ?_, by rw [hasy], by rw [hasy]⟩
  rw [same.isSet, (marks_frame _).isSet (by decide) (by decide +kernel), isSet_withAsy, isSet_clearRetained,
    isSet_setB_same _ _ _ _ (by decide)]

end

/-- Settles O23: one lemma per row, above. -/
theorem decoderRows : Obligations.DecoderRows := fun _ =>
  ⟨fun o rest y hheld => slotReserve_next hheld o rest y, fun y passed hheld => lodeEnd_next hheld y passed,
    fun a y hheld => jobStart_next hheld a y, fun a buf entry ecc hheld => jobDone_next hheld a buf entry ecc,
    fun c g hheld => entryLink_next hheld c g, fun heads hserved => prcFlush_next hserved heads, prcDisable_next⟩

end Sys2Proof.Proofs
end

section
/-!
PROOFS. What leaves the command engine with nothing to go on: the write path's operations end host commands and begin none (R251,
R256, R263 to R269).
-/
set_option Elab.async false

namespace Sys2Proof.Laws

open Sys2Proof.Machine

theorem Frame.hostQuiet {m : Nat} {s t : State} (h : Frame m s t) (hhqi : m.testBit 4 = false) (hvols : m.testBit 5 = false)
    (hquiet : s.HostQuiet) : t.HostQuiet :=
  hostQuiet_of_parts hquiet (unmasked h.hqi hhqi) (unmasked h.vols hvols)

theorem hostQuiet_forEach {α : Type} {l : List α} {f : State → α → State} {s : State} (hf : ∀ t x, t.HostQuiet → (f t x).HostQuiet)
    (h : s.HostQuiet) : (s.forEach l f).HostQuiet := forEach_keeps (fun t x _ => hf t x) h

/-- A command that is ended is settled. -/
theorem settled_finish (c : Cmd) (st : Status) (res : Nat) : (c.finish st res).settled := by
  unfold Cmd.finish
  split
  next hdone => exact .inl (by rw [hdone]; decide)
  next => exact .inl (by simp)

section
variable {s : State}

theorem hostQuiet_setF {f : Field} {i x : Nat} (h : s.HostQuiet) : (s.setF f i x).HostQuiet := hostQuiet_of_parts h rfl rfl

theorem hostQuiet_setB {f : Field} {i : Nat} {b : Bool} (h : s.HostQuiet) : (s.setB f i b).HostQuiet := hostQuiet_of_parts h rfl rfl

theorem hostQuiet_count {f : Field} {i : Nat} (h : s.HostQuiet) : (s.count f i).HostQuiet := hostQuiet_of_parts h rfl rfl

theorem hostQuiet_raise {e : Event} {i : Nat} (h : s.HostQuiet) : (s.raise e i).HostQuiet := hostQuiet_of_parts h rfl rfl

/-- A volume is written without its mount. -/
theorem hostQuiet_setVol {v : Nat} {x : VolS} (hmount : x.mount = (s.vol v).mount) (h : s.HostQuiet) : (s.setVol v x).HostQuiet := by
  refine hostQuiet_congr h rfl rfl fun w => ?_
  by_cases hv : v = w
  · subst hv
    by_cases hlt : v < 8
    · rw [State.vol, State.setVol, vget_vset_same _ _ _ hlt, hmount]
    · rw [State.vol, State.setVol, State.vol]
      simp [vget, vset, hlt]
  · exact congrArg VolS.mount (vget_vset_other s.vols x {} hv)

theorem hostQuiet_updSeam {v n : Nat} {u : SeamS → SeamS} (h : s.HostQuiet) : (s.updSeam v n u).HostQuiet :=
  hostQuiet_setVol rfl h

theorem hostQuiet_mapCmds {u : Cmd → Cmd} (hu : ∀ c : Cmd, c.settled → (u c).settled) (h : s.HostQuiet) :
    (s.setCmds (s.hqi.cmds.map u)).HostQuiet := by
  obtain ⟨hsettled, htests, hmounts⟩ := h
  refine ⟨fun c hc => ?_, htests, hmounts⟩
  obtain ⟨d, hd, rfl⟩ := List.mem_map.1 hc
  exact hu d (hsettled d hd)

/-- Ending some of the commands leaves the rest as they were. -/
theorem settled_finishIf {p : Cmd → Prop} [DecidablePred p] {st : Status} {res : Cmd → Nat} (c : Cmd) (hc : c.settled) :
    (if p c then c.finish st (res c) else c).settled := by
  split
  · exact settled_finish ..
  · exact hc

variable {v n : Nat}

theorem hostQuiet_finishSeal {st : Status} (h : s.HostQuiet) : (s.finishSeal v n st).HostQuiet :=
  hostQuiet_updSeam (hostQuiet_mapCmds (fun c hc => settled_finishIf (p := fun c => c.opc = 0x14 ∧ c.seam? = some (v, n) ∧
    c.stage = .running) (res := fun _ => lbaOf n (128 * s.seamA v n)) c hc) h)

theorem hostQuiet_sealWithout (h : s.HostQuiet) : (s.sealWithout v n).HostQuiet :=
  hostQuiet_finishSeal (hostQuiet_updSeam (hostQuiet_setB (hostQuiet_raise h)))

theorem hostQuiet_formSerial (h : s.HostQuiet) : (s.formSerial v).HostQuiet := by
  unfold State.formSerial
  dsimp only
  split
  · exact hostQuiet_setVol rfl h
  · exact h

theorem hostQuiet_queueCat {trailer : Bool} {content : List Nat} (h : s.HostQuiet) : (s.queueCat v n trailer content).HostQuiet := by
  unfold State.queueCat
  dsimp only
  generalize (if trailer = true then 192 else 188) = room
  split
  · exact hostQuiet_updSeam (hostQuiet_formSerial h)
  · split
    · exact hostQuiet_sealWithout h
    · exact hostQuiet_of_parts h rfl rfl

theorem hostQuiet_snapshot {trailer : Bool} (h : s.HostQuiet) : (s.snapshot v n trailer).HostQuiet :=
  hostQuiet_queueCat (hostQuiet_updSeam h)

theorem hostQuiet_catalogueDue (h : s.HostQuiet) : (s.catalogueDue v n).HostQuiet := by
  unfold State.catalogueDue
  split_ifs
  · exact hostQuiet_snapshot h
  · exact hostQuiet_snapshot h
  · exact h

theorem hostQuiet_dropSlot (l : SealedLode) (h : s.HostQuiet) : (s.dropSlot l).HostQuiet :=
  Frame.hostQuiet (dropSlot_frame ..) (by decide +kernel) (by decide +kernel) h

theorem hostQuiet_finishAll (p : Cmd → Bool) {st : Status} (h : s.HostQuiet) : (s.finishAll p st).HostQuiet :=
  hostQuiet_mapCmds (fun c hc => settled_finishIf (p := fun c => p c = true) (res := fun _ => 0) c hc) h

theorem hostQuiet_exhaust {index : Nat} (h : s.HostQuiet) : (s.exhaust v n index).HostQuiet := by
  have hdropped := hostQuiet_forEach (l := (s.seam v n).dataLodes.filter fun l => index ≤ l.index) (f := fun t l => t.dropSlot l)
    (fun _ l => hostQuiet_dropSlot l) h
  exact hostQuiet_finishAll _ (hostQuiet_raise (hostQuiet_setB (hostQuiet_updSeam hdropped)))

theorem hostQuiet_addSkip {pos reason lode : Nat} (h : s.HostQuiet) : (s.addSkip v n pos reason lode).HostQuiet :=
  hostQuiet_raise (hostQuiet_count (hostQuiet_updSeam
    (Frame.hostQuiet (putRecords_frame ..) (by decide +kernel) (by decide +kernel) h)))

theorem hostQuiet_skipAll (l : List (Nat × Nat × Nat)) (h : s.HostQuiet) : (s.skipAll v n l).HostQuiet := by
  induction l generalizing s with
  | nil => exact h
  | cons x rest ih =>
    obtain ⟨pos, reason, lode⟩ := x
    unfold State.skipAll
    split
    · exact hostQuiet_exhaust h
    · exact ih (hostQuiet_addSkip h)

theorem hostQuiet_spare (vs : List (SealedLode × Verdict)) (h : s.HostQuiet) : (s.spare v n vs).HostQuiet := by
  unfold State.spare
  dsimp only
  split
  · exact h
  · exact hostQuiet_updSeam (hostQuiet_skipAll _ (hostQuiet_forEach (fun _ p => hostQuiet_dropSlot p.1) h))

theorem hostQuiet_resolveCat (l : SealedLode) (x : Verdict) (h : s.HostQuiet) : (s.resolveCat v n l x).HostQuiet := by
  have hgone := hostQuiet_updSeam (v := v) (n := n) (u := fun y => { y with lodes := y.lodes.filter fun m => !(m.cat && m.index == l.index) })
    (hostQuiet_dropSlot l h)
  unfold State.resolveCat
  cases x with
  | stays => exact h
  | accepted =>
    dsimp only
    split
    · exact hostQuiet_finishSeal (hostQuiet_setB hgone)
    · exact hgone
  | failed _ => exact hostQuiet_queueCat hgone

theorem hostQuiet_countAccepted (k : Nat) (h : s.HostQuiet) : (s.countAccepted v n k).HostQuiet := by
  induction k generalizing s with
  | zero => exact h
  | succ k ih =>
    unfold State.countAccepted
    split
    · exact h
    next l _ _ =>
      split
      · exact ih (hostQuiet_updSeam (hostQuiet_setF (hostQuiet_dropSlot l h)))
      · exact h

theorem hostQuiet_completeWrites (h : s.HostQuiet) : (s.completeWrites v n).HostQuiet := by
  refine hostQuiet_mapCmds (fun c hc => ?_) h
  split
  · split
    · exact settled_finish ..
    · exact hc
  · exact hc

/-- Resolving a run ends commands and begins none. -/
theorem hostQuiet_resolveSeam {left : Option Bool} (h : s.HostQuiet) : (s.resolveSeam v n left).HostQuiet := by
  unfold State.resolveSeam
  extract_lets run vs data cats s1 s2 s3 s4 s5
  have h1 : s1.HostQuiet := hostQuiet_forEach (fun t p =>
    Frame.hostQuiet (reportReject_frame ..) (by decide +kernel) (by decide +kernel)) h
  have h4 : s4.HostQuiet := hostQuiet_forEach (fun _ p => hostQuiet_resolveCat p.1 p.2) (hostQuiet_spare data (hostQuiet_updSeam h1))
  exact hostQuiet_catalogueDue (hostQuiet_completeWrites (hostQuiet_countAccepted _ h4))

end

end Sys2Proof.Laws
end

section
/-!
PROOFS. The write path rows (11): linger, the head write cycle, RESOLVE and the recovery of a write pointer.
-/
set_option Elab.async false

namespace Sys2Proof.Proofs

open Sys2Proof.Machine Sys2Proof.Laws

/-! ### Seams -/

section
variable (s : State) {v n : Nat}

theorem seam_updSeam_same (u : SeamS → SeamS) (hv : v < 8) (hn : n < 64) : (s.updSeam v n u).seam v n = u (s.seam v n) := by
  unfold State.updSeam State.setSeam State.setVol State.seam State.vol
  rw [vget_vset_same _ _ _ hv]
  exact vget_vset_same _ _ _ hn

theorem seam_of_vols {t : State} (hvols : t.vols = s.vols) : t.seam v n = s.seam v n := by
  rw [State.seam, State.vol, hvols, State.seam, State.vol]

theorem seam_raise (e : Event) (i : Nat) : (s.raise e i).seam v n = s.seam v n := rfl

theorem seam_formSerial (hv : v < 8) : (s.formSerial v).seam v n = s.seam v n := by
  unfold State.formSerial State.seam State.vol State.setVol
  dsimp only
  split
  · rw [vget_vset_same _ _ _ hv]
  · rfl

@[simp] theorem getF_updSeam (u : SeamS → SeamS) (f : Field) (j : Nat) : (s.updSeam v n u).getF f j = s.getF f j := rfl
@[simp] theorem isSet_updSeam (u : SeamS → SeamS) (f : Field) (j : Nat) : (s.updSeam v n u).isSet f j = s.isSet f j := rfl

end

theorem lingerExpiry_next {s : State} (hheld : s.pwr.held = []) (v : Fin 8) (n : Fin 64) (o : OpenLode)
    (hopen : (s.seam v n).openLode = some o) (hlinger : o.linger ≤ s.tick) (hsome : o.drifts ≠ []) (hroom : o.drifts.length < 128) :
    ∃ t, exec (.lingerExpiry v n) s = .next t ∧ (t.seam v n).openLode = none ∧ t.isSet F.WRP_EVT_PAD 0 = true ∧
      ∃ l ∈ (t.seam v n).lodes, l.index = o.index ∧ l.user = o.drifts ++ List.replicate (128 - o.drifts.length) .pad := by
  obtain ⟨t, ht, same⟩ := done_next hheld fun t => t.lingerExpiry v n
  have hseal : (fresh s).lingerExpiry v n = (((fresh s).formSerial v).updSeam v n fun x =>
      { x.addData (((fresh s).formSerial v).sealedOf v n o) with openLode := none }).raise E.WRP_PAD 0 := by
    unfold State.lingerExpiry State.sealLode
    rw [show ((fresh s).seam v n).openLode = some o from hopen]
    dsimp only
    rw [if_pos (show o.linger ≤ (fresh s).tick from hlinger), if_neg (by simpa using hsome), State.onlyIf, if_pos (decide_eq_true hroom)]
  rw [hseal] at same
  have hseam : t.seam v n = { (s.seam v n).addData (((fresh s).formSerial v).sealedOf v n o) with openLode := none } := by
    rw [seam_of_vols _ same.vols, seam_raise, seam_updSeam_same _ _ v.isLt n.isLt, seam_formSerial _ v.isLt,
      show (fresh s).seam v n = s.seam v n from rfl]
  refine ⟨t, ht, by rw [hseam], ?_, ((fresh s).formSerial v).sealedOf v n o, ?_, rfl, rfl⟩
  · rw [same.isSet]
    exact isSet_raise_same _ _ E.WRP_PAD rfl (by decide) (by decide)
  · rw [hseam]
    simp [SeamS.addData]

/-! ### The write cycle's states -/

section
variable (s : State) {h : Nat}

theorem wcy_setWcy {x : Nat} (hx : x < 8) : (s.setWcy h x).wcy h = x := by
  rw [State.wcy, State.setWcy, getF_setF]
  exact Nat.mod_eq_of_lt hx

theorem clr_setWcy (x : Nat) : (s.setWcy h x).clr h = s.clr h := by
  rw [State.clr, State.setWcy, getF_setF_other _ _ (by decide), State.clr]

theorem wcy_setClr (x : Nat) : (s.setClr h x).wcy h = s.wcy h := by
  rw [State.wcy, (setClr_frame ..).getF (by decide) (by decide +kernel), State.wcy]

theorem wcy_beginVerify : (s.beginVerify h).wcy h = s.wcy h := wcy_setClr _ _

theorem clr_beginVerify : (s.beginVerify h).clr h = hdVERIFY := clr_setClr _ (by decide)

theorem wcy_toFollow : (s.toFollow h).wcy h = s.wcy h := by
  unfold State.toFollow
  split
  · exact wcy_setClr _ _
  · rfl

theorem clr_toFollow (hwrites : s.clr h = hdVERIFY ∨ s.clr h = hdWRITE) : (s.toFollow h).clr h = hdFOLLOW := by
  unfold State.toFollow
  rw [if_pos (by rcases hwrites with h | h <;> rw [h] <;> rfl)]
  exact clr_setClr _ (by decide)

variable {s}

theorem hostQuiet_setClr {x : Nat} (hq : s.HostQuiet) : (s.setClr h x).HostQuiet :=
  Frame.hostQuiet (setClr_frame ..) (by decide +kernel) (by decide +kernel) hq

theorem hostQuiet_toFollow (hq : s.HostQuiet) : (s.toFollow h).HostQuiet :=
  Frame.hostQuiet (toFollow_frame ..) (by decide +kernel) (by decide +kernel) hq

theorem hostQuiet_beginVerify (hq : s.HostQuiet) : (s.beginVerify h).HostQuiet :=
  Frame.hostQuiet (beginVerify_frame ..) (by decide +kernel) (by decide +kernel) hq

end

section
variable {s : State} (hheld : s.pwr.held = []) (h : Fin 32) (hquiet : s.HostQuiet)
include hheld hquiet

theorem writeOperationIssue_next (n p : Nat) (hidle : s.idlePoint h = true) (hwrite : s.hasWrite h = false) (hfrozen : s.frozen = false)
    (hhalted : (s.head h).write.halted = false) (hen : s.isSet F.WRP_CTL_EN 0 = true) (hwcy : s.wcy h = wsIDLE)
    (htake : s.takeSeam h = some n) (hfirst : s.firstPos (deckOfHead h) n false = some p) :
    ∃ t, exec (.writeOperationIssue h) s = .next t ∧ t.wcy h = wsPREP ∧
      ∃ o ∈ (t.head h).ops, o.kind = .write ∧ o.seam = n ∧ o.track = posTrack n p := by
  have hissue : (fresh s).writeIssue h = (fresh s).issueWrite h n p := by
    unfold State.writeIssue State.issueFresh
    rw [if_neg (by
      show ¬ (!s.idlePoint h || s.hasWrite h || s.frozen || (s.head h).write.halted || !s.isSet F.WRP_CTL_EN 0) = true
      rw [hidle, hwrite, hfrozen, hhalted, hen]
      decide), if_pos (show (fresh s).wcy h = wsIDLE from hwcy), show (fresh s).takeSeam h = some n from htake]
    dsimp only
    rw [show (fresh s).firstPos (deckOfHead h) n false = some p from hfirst]
  obtain ⟨t, ht, same⟩ := doneQ_quiet hheld (f := fun t => t.writeIssue h) (by
    rw [hissue]
    exact Frame.hostQuiet (issueWrite_frame ..) (by decide +kernel) (by decide +kernel) hquiet)
  rw [hissue, State.issueWrite] at same
  refine ⟨t, ht, ?_, ?_⟩
  · rw [State.wcy, same.getF, getF_issue]
    exact wcy_setWcy _ (by decide)
  · rw [head_of_heads same.heads, head_issue_same _ _ h.isLt]
    exact ⟨_, mem_insertOp _ _, rfl, rfl, rfl⟩

theorem prepAtPosition_next (hplaced : s.writePlaced h = true) (hprep : s.wcy h = wsPREP)
    (hverify : s.posUnverified (deckOfHead h) (s.head h).write.seam (s.head h).write.bandPos = true) :
    ∃ t, exec (.prepAtPosition h) s = .next t ∧ t.wcy h = wsVREV ∧ t.clr h = hdVERIFY := by
  have hact : (fresh s).prepAct h = ((fresh s).setWcy h wsVREV).beginVerify h := by
    unfold State.prepAct State.prep
    rw [if_neg (by rw [show (fresh s).writePlaced h = true from hplaced]; decide), if_pos (show (fresh s).wcy h = wsPREP from hprep)]
    exact if_pos hverify
  obtain ⟨t, ht, same⟩ := doneQ_quiet hheld (f := fun t => t.prepAct h) (by
    rw [hact]
    exact hostQuiet_beginVerify (hostQuiet_setF hquiet))
  rw [hact] at same
  refine ⟨t, ht, ?_, ?_⟩
  · rw [State.wcy, same.getF]
    exact (wcy_beginVerify _).trans (wcy_setWcy _ (by decide))
  · rw [State.clr, same.getF]
    exact clr_beginVerify _

theorem calibrationRevsEnd_next (p a : Nat) (hcal : s.wcy h = wsCAL) (hphase : (s.head h).write.cal = some (.write p a))
    (hwrite : s.clr h = hdWRITE) (hturned : oneRev ≤ (s.head h).write.turned) (hrec : (s.head h).write.recording = none) :
    ∃ t, exec (.calibrationRevsEnd h) s = .next t ∧ t.wcy h = wsCAL ∧ t.clr h = hdVERIFY := by
  have hend : (fresh s).calEnd h = ((fresh s).setCal h (some (.verify p a))).beginVerify h := by
    unfold State.calEnd
    rw [if_neg (not_not.2 (show (fresh s).wcy h = wsCAL from hcal)), show ((fresh s).head h).write.cal = some (.write p a) from hphase]
    refine if_pos ?_
    show (s.clr h == hdWRITE && decide (oneRev ≤ (s.head h).write.turned) && (s.head h).write.recording.isNone) = true
    rw [hwrite, hrec, decide_eq_true hturned]
    rfl
  obtain ⟨t, ht, same⟩ := doneQ_quiet hheld (f := fun t => t.calEnd h) (by
    rw [hend]
    exact hostQuiet_beginVerify (hostQuiet_of_parts hquiet rfl rfl))
  rw [hend] at same
  refine ⟨t, ht, ?_, ?_⟩
  · rw [State.wcy, same.getF]
    exact (wcy_beginVerify _).trans hcal
  · rw [State.clr, same.getF]
    exact clr_beginVerify _

theorem writeRevolutionEnd_next (hwrev : s.wcy h = wsWREV) (hwrite : s.clr h = hdWRITE) (hturned : oneRev ≤ (s.head h).write.turned)
    (hrec : (s.head h).write.recording = none) :
    ∃ t, exec (.writeRevolutionEnd h) s = .next t ∧
      ((s.head h).write.any = true → t.wcy h = wsVREV ∧ t.clr h = hdVERIFY) ∧
      ((s.head h).write.any = false → t.wcy h = wsPREP ∧ t.clr h = hdFOLLOW) := by
  have hend : (fresh s).writeRevEnd h = if (s.head h).write.any then ((fresh s).setWcy h wsVREV).beginVerify h
      else ((fresh s).setWcy h wsPREP).toFollow h := by
    unfold State.writeRevEnd
    refine if_neg ?_
    show ¬ (decide (s.wcy h ≠ wsWREV) || s.clr h != hdWRITE || decide ((s.head h).write.turned < oneRev) ||
      (s.head h).write.recording.isSome) = true
    rw [hwrev, hwrite, hrec, decide_eq_false (Nat.not_lt.2 hturned)]
    decide
  obtain ⟨t, ht, same⟩ := doneQ_quiet hheld (f := fun t => t.writeRevEnd h) (by
    rw [hend]
    split
    · exact hostQuiet_beginVerify (hostQuiet_setF hquiet)
    · exact hostQuiet_toFollow (hostQuiet_setF hquiet))
  rw [hend] at same
  refine ⟨t, ht, fun hany => ?_, fun hany => ?_⟩
  · rw [hany, if_pos rfl] at same
    rw [State.wcy, State.clr, same.getF, same.getF]
    exact ⟨(wcy_beginVerify _).trans (wcy_setWcy _ (by decide)), clr_beginVerify _⟩
  · rw [hany, if_neg (by decide)] at same
    rw [State.wcy, State.clr, same.getF, same.getF]
    exact ⟨(wcy_toFollow _).trans (wcy_setWcy _ (by decide)), clr_toFollow _ (.inr ((clr_setWcy _ _).trans hwrite))⟩

theorem verifyRevolutionEnd_next (hvrev : s.wcy h = wsVREV) (hverify : s.clr h = hdVERIFY)
    (hturned : 2 * oneRev ≤ (s.head h).write.turned) :
    ∃ t, exec (.verifyRevolutionEnd h) s = .next t ∧ t.wcy h = wsRESOLVE ∧ t.clr h = hdFOLLOW := by
  have hend : (fresh s).verifyRevEnd h = (((fresh s).verified (deckOfHead h) (s.head h).write.seam (s.head h).write.bandPos).setWcy h
      wsRESOLVE).toFollow h := by
    unfold State.verifyRevEnd
    dsimp only
    rw [if_neg (by
      show ¬ (decide (s.wcy h ≠ wsVREV) || s.clr h != hdVERIFY) = true
      rw [hvrev, hverify]
      decide)]
    refine if_pos ?_
    rw [decide_eq_true (show 2 * oneRev ≤ ((fresh s).head h).write.turned from hturned), Bool.or_true]
  have hframed : ∀ v n p, ((fresh s).verified v n p).HostQuiet ∧ ((fresh s).verified v n p).clr h = hdVERIFY := fun v n p => by
    refine ⟨?_, ((verified_frame ..).getF (by decide) (by decide +kernel)).trans hverify⟩
    refine hostQuiet_forEach (fun t l ht => ?_) (hostQuiet_updSeam hquiet)
    split
    · split
      · exact Frame.hostQuiet (lodeEnd_frame ..) (by decide +kernel) (by decide +kernel) ht
      · exact ht
    · exact ht
  obtain ⟨hq, hclr⟩ := hframed (deckOfHead h) (s.head h).write.seam (s.head h).write.bandPos
  obtain ⟨t, ht, same⟩ := doneQ_quiet hheld (f := fun t => t.verifyRevEnd h) (by
    rw [hend]
    exact hostQuiet_toFollow (hostQuiet_setF hq))
  rw [hend] at same
  refine ⟨t, ht, ?_⟩
  rw [State.wcy, State.clr, same.getF, same.getF]
  exact ⟨(wcy_toFollow _).trans (wcy_setWcy _ (by decide)), clr_toFollow _ (.inl ((clr_setWcy _ _).trans hclr))⟩

theorem resolve_next (hmay : s.mayResolve h = true) (hleft : (s.head h).write.left = some true) :
    ∃ t, exec (.resolve h) s = .next t ∧ t.wcy h = wsPREP := by
  have hresolve : (fresh s).resolve h = (((fresh s).resolveSeam (deckOfHead h) (s.head h).write.seam (some true)).updWrite h fun x =>
      { x with left := none }).setWcy h wsPREP := by
    unfold State.resolve
    rw [if_pos (show (fresh s).mayResolve h = true from hmay), show ((fresh s).head h).write.left = some true from hleft]
    rfl
  obtain ⟨t, ht, same⟩ := doneQ_quiet hheld (f := fun t => t.resolve h) (by
    rw [hresolve]
    exact hostQuiet_setF (hostQuiet_of_parts (hostQuiet_resolveSeam (s := fresh s) hquiet) rfl rfl))
  rw [hresolve] at same
  refine ⟨t, ht, ?_⟩
  rw [State.wcy, same.getF]
  exact wcy_setWcy _ (by decide)

omit h in
theorem wpRecovered_next (v : Fin 8) (n : Fin 64) (hended : (s.seam v n).recov = some .ended) :
    ∃ t, exec (.wpRecovered v n) s = .next t ∧ t.isSet F.WRP_SEAM_KNOWN (seamIdx v n) = true ∧
      t.isSet F.WRP_EVT_WP_RECOVERED 0 = true := by
  set u := (((fresh s).setB F.WRP_SEAM_KNOWN (seamIdx v n) true).raise E.WRP_WP_RECOVERED 0).updSeam v n fun x =>
    { x with recov := none, best := none } with hu
  have hknown : u.isSet F.WRP_SEAM_KNOWN (seamIdx v n) = true := by
    rw [hu, isSet_updSeam, isSet_raise_other _ _ (by decide) (by decide), isSet_setB_same _ _ _ _ (by decide)]
  have hevent : u.isSet F.WRP_EVT_WP_RECOVERED 0 = true := by
    rw [hu, isSet_updSeam]
    exact isSet_raise_same _ _ E.WRP_WP_RECOVERED rfl (by decide) (by decide)
  have hqu : u.HostQuiet := hostQuiet_updSeam (hostQuiet_raise (hostQuiet_setB hquiet))
  have hrecovered : (fresh s).wpRecovered v n = if u.trailerDue v n then u.catalogueDue v n
      else if (u.seam v n).dirty && !u.isSet F.WRP_SEAM_SEALED (seamIdx v n) then u.snapshot v n false else u :=
    if_neg (not_not.2 hended)
  obtain ⟨t, ht, same⟩ := doneQ_quiet hheld (f := fun t => t.wpRecovered v n) (by
    rw [hrecovered]
    split_ifs
    · exact hostQuiet_catalogueDue hqu
    · exact hostQuiet_snapshot hqu
    · exact hqu)
  rw [hrecovered] at same
  refine ⟨t, ht, ?_⟩
  rw [same.isSet, same.isSet]
  split_ifs
  · rw [(catalogueDue_frame ..).isSet (by decide) (by decide +kernel), (catalogueDue_frame ..).isSet (by decide) (by decide +kernel)]
    exact ⟨hknown, hevent⟩
  · rw [(snapshot_frame ..).isSet (by decide) (by decide +kernel), (snapshot_frame ..).isSet (by decide) (by decide +kernel)]
    exact ⟨hknown, hevent⟩
  · exact ⟨hknown, hevent⟩

end

/-- Settles O24: one lemma per row, above. -/
theorem writePathRows : Obligations.WritePathRows := fun _ hheld =>
  ⟨lingerExpiry_next hheld, fun h n p hq => writeOperationIssue_next hheld h hq n p, fun h hq => prepAtPosition_next hheld h hq,
    fun h p a hq => calibrationRevsEnd_next hheld h hq p a, fun h hq => writeRevolutionEnd_next hheld h hq,
    fun h hq => verifyRevolutionEnd_next hheld h hq, fun h hq => resolve_next hheld h hq, fun v n hq => wpRecovered_next hheld hq v n⟩

end Sys2Proof.Proofs
end

section
/-!
PROOFS. The controller and queue pair rows (13): enable and reset, doorbells, arbitration, completion entries, coalescing, ended tests
and mounts that go on.
-/
set_option Elab.async false

namespace Sys2Proof.Proofs

open Sys2Proof.Machine Sys2Proof.Laws

/-! ### Pairs, tests and volumes -/

section
variable (s : State)

theorem pair_setPair_same {q : Nat} (p : PairS) (hq : q < 65) : (s.setPair q p).pair q = p := vget_vset_same _ _ _ hq

theorem pair_of_hqi {t : State} (hhqi : t.hqi = s.hqi) (q : Nat) : t.pair q = s.pair q := by rw [State.pair, hhqi, State.pair]

@[simp] theorem getF_setPair (q : Nat) (p : PairS) (f : Field) (j : Nat) : (s.setPair q p).getF f j = s.getF f j := rfl
@[simp] theorem isSet_setPair (q : Nat) (p : PairS) (f : Field) (j : Nat) : (s.setPair q p).isSet f j = s.isSet f j := rfl

theorem test_setTest_same {v : Nat} (x : SelfTest) (hv : v < 8) : (s.setTest v x).test v = x := vget_vset_same _ _ _ hv

theorem test_of_hqi {t : State} (hhqi : t.hqi = s.hqi) (v : Nat) : t.test v = s.test v := by rw [State.test, hhqi, State.test]

theorem vol_setVol_same {v : Nat} (x : VolS) (hv : v < 8) : (s.setVol v x).vol v = x := vget_vset_same _ _ _ hv

theorem vol_setVol_other {v w : Nat} (x : VolS) (hne : w ≠ v) : (s.setVol w x).vol v = s.vol v := vget_vset_other _ _ _ hne

theorem vol_of_vols {t : State} (hvols : t.vols = s.vols) (v : Nat) : t.vol v = s.vol v := by rw [State.vol, hvols, State.vol]

end

/-- A row of PF0's registers, when PF0 is served. -/
theorem donePf0_next {s : State} (hserved : s.pf0Served = true) (f : State → State) :
    ∃ t, (done s fun t => if t.pf0Served then f t else t) = .next t ∧ Same (f (fresh s)) t := by
  obtain ⟨t, ht, same⟩ := done_next (held_of_served hserved) fun t => if t.pf0Served then f t else t
  rw [if_pos (show (fresh s).pf0Served = true from hserved)] at same
  exact ⟨t, ht, same⟩

/-! ### CONTROLLER_ENABLE and CONTROLLER_RESET -/

theorem controllerEnable_next {s : State} (hserved : s.pf0Served = true) (hloaded : s.isSet F.CFG_STATUS_LOADED 0 = true)
    (hrdy : s.isSet F.HQI_CSTS_RDY 0 = false) :
    ∃ t, exec .controllerEnable s = .next t ∧ t.isSet F.HQI_CC_EN 0 = true ∧ t.isSet F.HQI_CSTS_RDY 0 = true := by
  obtain ⟨t, ht, same⟩ := donePf0_next hserved fun t => t.enableController
  have hready : ((fresh s).setB F.HQI_CC_EN 0 true).isSet F.HQI_CC_EN 0 = true ∧
      ((fresh s).setB F.HQI_CC_EN 0 true).isSet F.CFG_STATUS_LOADED 0 = true ∧
      ((fresh s).setB F.HQI_CC_EN 0 true).isSet F.HQI_CSTS_RDY 0 = false := by
    rw [isSet_setB_same _ _ _ _ (by decide), isSet_setB_other _ _ (by decide), isSet_setB_other _ _ (by decide)]
    exact ⟨rfl, hloaded, hrdy⟩
  obtain ⟨hen, hplaced, hnot⟩ := hready
  rw [State.enableController, State.controllerReady, if_pos (by rw [hen, hplaced, hnot]; rfl)] at same
  have hpairs : ∀ {f : Field}, f.id < 20000 → W.freshPair.testBit f.id = false → t.isSet f 0 = _ := fun hl hm =>
    (same.isSet _ _).trans ((frame_forEach (fun t q => freshPair_frame t q) _ _).isSet hl hm)
  refine ⟨t, ht, ?_, ?_⟩
  · rw [hpairs (by decide) (by decide +kernel), isSet_setB_other _ _ (by decide), hen]
  · rw [hpairs (by decide) (by decide +kernel), isSet_setB_same _ _ _ _ (by decide)]

section
variable (s : State) {v w : Nat}

/-- A seam's reset abort touches its volume alone. -/
theorem vol_abortSeam_other (n : Nat) (hne : w ≠ v) : (s.abortSeam w n).vol v = s.vol v := by
  unfold State.abortSeam
  dsimp only
  split
  · rfl
  · rw [State.setSeam, vol_setVol_other _ _ hne]
    exact vol_of_vols _ (unmasked (dropLodes_frame ..).vols (by decide +kernel)) v

/-- No volume is left with a mount under way. -/
theorem mount_abortSeams (hv : v < 8) : (s.abortSeams.vol v).mount = none := by
  unfold State.abortSeams
  refine forEach_range_reads (P := fun _ => True) (read := fun t => (t.vol v).mount) hv trivial (fun _ _ _ _ => trivial) (fun t _ => ?_)
    (fun t w hw hvw => ?_)
  · rw [vol_setVol_same _ _ hv]
  · have hrest : ∀ u : State, (u.forEach (List.range 64) fun u n => u.abortSeam w n).vol v = u.vol v := fun u =>
      forEach_keeps (P := fun t => t.vol v = u.vol v) (fun t n _ ht => (vol_abortSeam_other t n (by omega)).trans ht) rfl
    rw [vol_setVol_other _ _ (by omega), hrest]

theorem hqi_abortSeams : s.abortSeams.hqi = s.hqi := unmasked (abortSeams_frame _).hqi (by decide +kernel)

theorem hqi_onlyIf_raise (c : Bool) : (s.onlyIf c fun t => t.raise E.HQI_RESET_ABORT 0).hqi = s.hqi := by
  cases c <;> rfl

theorem vol_onlyIf_raise (c : Bool) : (s.onlyIf c fun t => t.raise E.HQI_RESET_ABORT 0).vol v = s.vol v := by
  cases c <;> rfl

/-- A reset abort leaves the command engine with nothing. -/
theorem resetAbort_leaves (p : Cmd → Bool) : (s.resetAbort p).hqi.cmds = [] ∧ (s.resetAbort p).HostQuiet := by
  obtain ⟨counts, u, hu, habort⟩ : ∃ (counts : Vector Nat 65) (u : State), u.hqi = s.hqi.cleared counts ∧ ∃ c, s.resetAbort p =
      (u.abortSeams.onlyIf c fun t => t.raise E.HQI_RESET_ABORT 0).ltrUpdate := ⟨_, _, rfl, _, rfl⟩
  obtain ⟨c, habort⟩ := habort
  have hhqi : (s.resetAbort p).hqi = s.hqi.cleared counts := by
    rw [habort, unmasked (ltrUpdate_frame _).hqi (by decide +kernel), hqi_onlyIf_raise, hqi_abortSeams, hu]
  have hvols : ∀ v, (s.resetAbort p).vol v = u.abortSeams.vol v := fun v => by
    rw [habort, vol_of_vols _ (unmasked (ltrUpdate_frame _).vols (by decide +kernel)), vol_onlyIf_raise]
  refine ⟨by rw [hhqi]; rfl, ?_, fun v hv => ?_, fun v hv m hm => ?_⟩
  · rw [hhqi]
    exact fun c hc => absurd hc (by simp [HqiS.cleared])
  · rw [State.test, hhqi]
    simp [HqiS.cleared, vget, hv]
  · rw [hvols, mount_abortSeams u hv] at hm
    cases hm

end

theorem hostQuiet_setPair {s : State} {q : Nat} {p : PairS} (h : s.HostQuiet) : (s.setPair q p).HostQuiet :=
  hostQuiet_congr h rfl rfl fun _ => rfl

theorem controllerReset_next {s : State} (hserved : s.pf0Served = true) (hen : s.isSet F.HQI_CC_EN 0 = true) :
    ∃ t, exec .controllerReset s = .next t ∧ t.isSet F.HQI_CC_EN 0 = false ∧ t.isSet F.HQI_CSTS_RDY 0 = false ∧ t.hqi.cmds = [] := by
  have hreset : ∃ u p, (fresh s).resetController = (((State.forEach (State.forEach (State.resetAbort u p) (List.range 65) fun t q =>
      (((t.setB F.HQI_QP_CTL_EN q false).setB F.HQI_QP_STATUS_ENABLED q false).setB F.HQI_QP_STATUS_ERR q false).setF
        F.HQI_QP_STATUS_CAUSE q 0) (List.range 65) fun t q => t.setPair q {}).setB F.HQI_CC_EN 0 false).setB F.HQI_CSTS_RDY 0 false) := by
    unfold State.resetController
    rw [if_neg (by rw [show (fresh s).isSet F.HQI_CC_EN 0 = true from hen]; decide)]
    exact ⟨_, _, rfl⟩
  obtain ⟨u, p, hreset⟩ := hreset
  obtain ⟨hcmds, hquiet⟩ := resetAbort_leaves u p
  have hleft : (fresh s).resetController.hqi.cmds = [] ∧ (fresh s).resetController.HostQuiet := by
    rw [hreset]
    refine forEach_keeps (P := fun t => ((t.setB F.HQI_CC_EN 0 false).setB F.HQI_CSTS_RDY 0 false).hqi.cmds = [] ∧
      ((t.setB F.HQI_CC_EN 0 false).setB F.HQI_CSTS_RDY 0 false).HostQuiet)
        (fun t q _ ht => ⟨ht.1, hostQuiet_congr ht.2 rfl rfl fun _ => rfl⟩) ?_
    refine forEach_keeps (P := fun t => ((t.setB F.HQI_CC_EN 0 false).setB F.HQI_CSTS_RDY 0 false).hqi.cmds = [] ∧
      ((t.setB F.HQI_CC_EN 0 false).setB F.HQI_CSTS_RDY 0 false).HostQuiet)
        (fun t q _ ht => ⟨ht.1, hostQuiet_congr ht.2 rfl rfl fun _ => rfl⟩) ?_
    exact ⟨hcmds, hostQuiet_setB (hostQuiet_setB hquiet)⟩
  obtain ⟨t, ht, same⟩ := doneQ_quiet (held_of_served hserved) (f := fun t => if t.pf0Served then t.resetController else t) (by
    rw [if_pos (show (fresh s).pf0Served = true from hserved)]
    exact hleft.2)
  rw [if_pos (show (fresh s).pf0Served = true from hserved)] at same
  refine ⟨t, ht, ?_, ?_, by rw [same.hqi, hleft.1]⟩
  · rw [same.isSet, hreset, isSet_setB_other _ _ (by decide), isSet_setB_same _ _ _ _ (by decide)]
  · rw [same.isSet, hreset, isSet_setB_same _ _ _ _ (by decide)]

/-! ### Queue pairs and doorbells -/

section
variable {s : State} (hserved : s.pf0Served = true) (q : Fin 65)
include hserved

theorem queuePairEnable_next (hen : s.isSet F.HQI_QP_CTL_EN q = false) (hsize : s.getF F.HQI_QP_CTL_SIZE q ≠ 0)
    (henabled : s.isSet F.HQI_QP_STATUS_ENABLED q = false) (hrdy : s.isSet F.HQI_CSTS_RDY 0 = true) :
    ∃ t, exec (.queuePairEnable q) s = .next t ∧ t.isSet F.HQI_QP_CTL_EN q = true ∧ t.isSet F.HQI_QP_STATUS_ENABLED q = true ∧
      t.getF F.HQI_QP_STATUS_SQ_HEAD q = 0 ∧ t.getF F.HQI_QP_STATUS_CQ_TAIL q = 0 := by
  obtain ⟨t, ht, same⟩ := donePf0_next hserved fun t => t.enablePair q
  have henable : (fresh s).enablePair q = ((fresh s).setB F.HQI_QP_CTL_EN q true).freshPair q := by
    unfold State.enablePair
    rw [if_neg (by rw [show (fresh s).isSet F.HQI_QP_CTL_EN q = false from hen]; decide), if_neg (show ¬ (fresh s).getF _ _ = 0 from hsize),
      if_neg (by rw [show (fresh s).isSet F.HQI_QP_STATUS_ENABLED q = false from henabled]; decide)]
    exact if_pos hrdy
  rw [henable, State.freshPair] at same
  refine ⟨t, ht, ?_⟩
  rw [same.isSet, same.isSet, same.getF, same.getF]
  simp (disch := decide +kernel)

theorem queuePairDisable_next : ∃ t, exec (.queuePairDisable q) s = .next t ∧ t.isSet F.HQI_QP_CTL_EN q = false := by
  obtain ⟨t, ht, same⟩ := donePf0_next hserved fun t => t.disablePair q
  refine ⟨t, ht, ?_⟩
  rw [same.isSet, State.disablePair, (pairQuiesce_frame ..).isSet (by decide) (by decide +kernel)]
  exact isSet_setB_same _ _ _ _ (by decide)

variable (w : BitVec 32) (henabled : s.isSet F.HQI_QP_STATUS_ENABLED q = true)
include henabled

theorem doorbells_next (hin : w.toNat % 4096 ≤ s.getF F.HQI_QP_CTL_SIZE q) :
    (∃ t, exec (.sqTailDoorbell q w) s = .next t ∧ t.getF F.HQI_SQ_TAIL_TAIL q = w.toNat % 4096) ∧
    (∃ t, exec (.cqHeadDoorbell q w) s = .next t ∧ t.getF F.HQI_CQ_HEAD_HEAD q = w.toNat % 4096) := by
  have hon : ¬ (!(fresh s).isSet F.HQI_QP_STATUS_ENABLED q) = true := by
    rw [show (fresh s).isSet F.HQI_QP_STATUS_ENABLED q = true from henabled]
    decide
  have hfits : ¬ (fresh s).getF F.HQI_QP_CTL_SIZE q < w.toNat % 4096 := Nat.not_lt.2 hin
  have hstored : w.toNat % 4096 % 2 ^ 12 = w.toNat % 4096 := Nat.mod_mod ..
  obtain ⟨t, ht, samet⟩ := donePf0_next hserved fun t => t.sqDoorbell q (w.toNat % 4096)
  obtain ⟨u, hu, sameu⟩ := donePf0_next hserved fun t => t.cqDoorbell q (w.toNat % 4096)
  rw [State.sqDoorbell, if_neg hon, if_neg hfits] at samet
  rw [State.cqDoorbell, if_neg hon, if_neg hfits] at sameu
  refine ⟨⟨t, ht, ?_⟩, u, hu, ?_⟩
  · rw [samet.getF, getF_setF]
    exact hstored
  · rw [sameu.getF]
    dsimp only
    rw [getF_ite, getF_setPair, ite_self, getF_setF]
    exact hstored

theorem doorbells_rejected (hout : s.getF F.HQI_QP_CTL_SIZE q < w.toNat % 4096) (herr : s.isSet F.HQI_QP_STATUS_ERR q = false) :
    (∃ t, exec (.sqTailDoorbell q w) s = .next t ∧ t.isSet F.HQI_QP_STATUS_ERR q = true ∧ t.getF F.HQI_QP_STATUS_CAUSE q = 2 ∧
      t.isSet F.HQI_EVT_QUEUE_ERR 0 = true) ∧
    (∃ t, exec (.cqHeadDoorbell q w) s = .next t ∧ t.isSet F.HQI_QP_STATUS_ERR q = true ∧ t.getF F.HQI_QP_STATUS_CAUSE q = 3 ∧
      t.isSet F.HQI_EVT_QUEUE_ERR 0 = true) := by
  have hon : ¬ (!(fresh s).isSet F.HQI_QP_STATUS_ENABLED q) = true := by
    rw [show (fresh s).isSet F.HQI_QP_STATUS_ENABLED q = true from henabled]
    decide
  have herror : ∀ {cause : Nat} {t : State}, cause < 2 ^ F.HQI_QP_STATUS_CAUSE.width → Same ((fresh s).queueErr q cause) t →
      t.isSet F.HQI_QP_STATUS_ERR q = true ∧
      t.getF F.HQI_QP_STATUS_CAUSE q = cause ∧ t.isSet F.HQI_EVT_QUEUE_ERR 0 = true := by
    intro cause t hcause same
    rw [State.queueErr, if_neg (by rw [show (fresh s).isSet F.HQI_QP_STATUS_ERR q = false from herr]; decide)] at same
    rw [same.isSet, same.getF, same.isSet, isSet_raise_other _ _ (by decide) (by decide), getF_raise_other _ _ (by decide) (by decide),
      isSet_setF_other _ _ (by decide), isSet_setB_same _ _ _ _ (by decide), getF_setF]
    exact ⟨rfl, Nat.mod_eq_of_lt hcause, isSet_raise_same _ _ E.HQI_QUEUE_ERR rfl (by decide) (by decide)⟩
  obtain ⟨t, ht, samet⟩ := donePf0_next hserved fun t => t.sqDoorbell q (w.toNat % 4096)
  obtain ⟨u, hu, sameu⟩ := donePf0_next hserved fun t => t.cqDoorbell q (w.toNat % 4096)
  rw [State.sqDoorbell, if_neg hon, if_pos (show (fresh s).getF _ _ < _ from hout)] at samet
  rw [State.cqDoorbell, if_neg hon, if_pos (show (fresh s).getF _ _ < _ from hout)] at sameu
  exact ⟨⟨t, ht, herror (by decide) samet⟩, u, hu, herror (by decide) sameu⟩

end

/-! ### Arbitration -/

/-- Sending what may be sent keeps every request. -/
theorem pumpReqs_keeps (now : Nat) {room : Nat} {l : List OutReq} {r : OutReq} (hr : r ∈ l) :
    ∃ x ∈ (pumpReqs now room l).1, x.kind = r.kind ∧ x.addr = r.addr ∧ x.len = r.len := by
  induction l generalizing room with
  | nil => cases hr
  | cons y ys ih =>
    unfold pumpReqs
    split
    · rcases List.mem_cons.1 hr with rfl | hr
      · exact ⟨r, List.mem_cons_self, rfl, rfl, rfl⟩
      · obtain ⟨x, hx, heq⟩ := ih hr (room := room)
        exact ⟨x, List.mem_cons_of_mem _ hx, heq⟩
    · rcases List.mem_cons.1 hr with rfl | hr
      · exact ⟨_, List.mem_cons_self, rfl, rfl, rfl⟩
      · obtain ⟨x, hx, heq⟩ := ih hr (room := room - 1)
        exact ⟨x, List.mem_cons_of_mem _ hx, heq⟩

theorem hif_emits (s : State) (l : List OutReq) : (s.forEach l fun t r => t.emit (.readReq r.tag r.addr r.len)).hif = s.hif :=
  forEach_keeps (P := fun t => t.hif = s.hif) (fun _ _ _ ht => ht) rfl

theorem reqs_pump (s : State) {r : OutReq} (hr : r ∈ s.hif.reqs) :
    ∃ x ∈ s.pump.hif.reqs, x.kind = r.kind ∧ x.addr = r.addr ∧ x.len = r.len := by
  unfold State.pump
  split
  · exact ⟨r, hr, rfl, rfl, rfl⟩
  · rw [hif_emits]
    exact pumpReqs_keeps _ hr

/-- A request that is made is outstanding. -/
theorem reqs_request (s : State) (k : ReqKind) (addr len : Nat) :
    ∃ x ∈ (s.request k addr len).hif.reqs, x.kind = k ∧ x.addr = addr ∧ x.len = len := by
  let r : OutReq := { tag := s.hif.nextTag, kind := k, addr := addr, len := len }
  exact reqs_pump { s with hif := { s.hif with reqs := s.hif.reqs ++ [r], nextTag := s.hif.nextTag + 1 } } (r := r) (by simp)

theorem reqs_of_same {a t : State} (h : Same a t) : t.hif.reqs = a.hif.reqs := by
  obtain ⟨p, hp⟩ := h.hif
  rw [hp]

theorem arbitration_next {s : State} (hheld : s.pwr.held = []) (q : Nat) (a : ArbS) (hroom : s.hqi.cmds.length + s.fetches < 1024)
    (hserved : s.pf0Served = true) (hselect : s.arbSelect = some (q, a)) :
    ∃ t, exec .arbitration s = .next t ∧ t.hqi.nextPos = s.hqi.nextPos + 1 ∧ t.hqi.arb = a ∧
      ∃ r ∈ t.hif.reqs, r.kind = .sqFetch q s.hqi.nextPos ∧ r.addr = s.sqBase q + 64 * s.getF F.HQI_QP_STATUS_SQ_HEAD q ∧
        r.len = 64 := by
  obtain ⟨t, ht, same⟩ := done_next hheld fun t => t.arbitrate.1
  have harb : ∃ u : State, u.hqi = { s.hqi with arb := a, nextPos := s.hqi.nextPos + 1 } ∧ (fresh s).arbitrate.1 =
      u.request (.sqFetch q s.hqi.nextPos) (s.sqBase q + 64 * s.getF F.HQI_QP_STATUS_SQ_HEAD q) 64 := by
    unfold State.arbitrate
    rw [if_neg (by
      show ¬ (decide (1024 ≤ s.hqi.cmds.length + s.fetches) || !s.pf0Served) = true
      rw [hserved, decide_eq_false (by omega)]
      decide), show (fresh s).arbSelect = some (q, a) from hselect]
    exact ⟨_, rfl, rfl⟩
  obtain ⟨u, hu, harb⟩ := harb
  rw [harb] at same
  have hhqi : t.hqi = { s.hqi with arb := a, nextPos := s.hqi.nextPos + 1 } := by
    rw [same.hqi, unmasked (request_frame ..).hqi (by decide +kernel), hu]
  refine ⟨t, ht, by rw [hhqi], by rw [hhqi], ?_⟩
  rw [reqs_of_same same]
  exact reqs_request ..

/-! ### Completion entries and their signals -/

/-- Signalling a pair changes no command. -/
theorem cmds_signalPair (s : State) (q : Nat) : (s.signalPair q).hqi.cmds = s.hqi.cmds := by
  unfold State.signalPair
  dsimp only
  split
  · rw [unmasked (signal_frame ..).hqi (by decide +kernel)]
    rfl
  · rfl

theorem cmds_setPair (s : State) (q : Nat) (p : PairS) : (s.setPair q p).hqi.cmds = s.hqi.cmds := rfl

theorem cmds_coalesce (s : State) (q : Nat) : (s.coalesce q).hqi.cmds = s.hqi.cmds := by
  unfold State.coalesce
  dsimp only
  split
  · rfl
  · split
    · rw [cmds_signalPair, cmds_setPair]
    · rfl

theorem out_signal_of_mem {s : State} {o : Output} (fn v : Nat) (ho : o ∈ s.out) : o ∈ (s.signal fn v).out := by
  unfold State.signal
  split
  · exact ho
  · split
    · exact List.mem_append_left _ ho
    · rw [unmasked (setPf_frame ..).out (by decide +kernel)]
      exact ho

/-- Signalling a pair withdraws no output. -/
theorem out_signalPair_of_mem {s : State} {o : Output} (q : Nat) (ho : o ∈ s.out) : o ∈ (s.signalPair q).out := by
  unfold State.signalPair
  dsimp only
  split
  · exact out_signal_of_mem _ _ ho
  · exact ho

theorem out_coalesce_of_mem {s : State} {o : Output} (q : Nat) (ho : o ∈ s.out) : o ∈ (s.coalesce q).out := by
  unfold State.coalesce
  dsimp only
  split
  · exact ho
  · split
    · exact out_signalPair_of_mem _ ho
    · exact ho

theorem out_ltrUpdate_of_mem {s : State} {o : Output} (ho : o ∈ s.out) : o ∈ s.ltrUpdate.out := by
  unfold State.ltrUpdate
  dsimp only
  split
  · exact ho
  · split
    · exact List.mem_append_left _ ho
    · exact ho

theorem cmds_postEntry (s : State) (c : Cmd) : (s.postEntry c).hqi.cmds = s.hqi.cmds.filter fun x => x.pos ≠ c.pos := by
  unfold State.postEntry
  rw [unmasked (ltrUpdate_frame _).hqi (by decide +kernel), unmasked (pairQuiesce_frame ..).hqi (by decide +kernel), cmds_coalesce]
  rfl

theorem out_postEntry (s : State) (c : Cmd) : .hostWrite (s.cqBase c.q + 16 * s.getF F.HQI_QP_STATUS_CQ_TAIL c.q)
    (cqeBytes c (s.getF F.HQI_QP_STATUS_SQ_HEAD c.q) (s.pair c.q).phase) false ∈ (s.postEntry c).out := by
  unfold State.postEntry
  refine out_ltrUpdate_of_mem ?_
  rw [unmasked (pairQuiesce_frame ..).out (by decide +kernel)]
  exact out_coalesce_of_mem _ (List.mem_append_right _ List.mem_cons_self)

theorem completionPost_next {s : State} (hheld : s.pwr.held = []) (q : Fin 65) (c : Cmd) (hpost : s.postable q = some c)
    (hroom : s.cqRoom q = true) (hmay : s.mayIssue 0 = true) :
    ∃ t, exec (.completionPost q) s = .next t ∧ t.hqi.cmds = (s.hqi.cmds.filter fun x => x.pos ≠ c.pos) ∧
      .hostWrite (s.cqBase q + 16 * s.getF F.HQI_QP_STATUS_CQ_TAIL q)
        (cqeBytes c (s.getF F.HQI_QP_STATUS_SQ_HEAD q) (s.pair q).phase) false ∈ t.out := by
  obtain ⟨t, ht, same⟩ := done_next hheld fun t =>
    match t.postable q with
    | some c => if t.cqRoom q && t.mayIssue 0 then t.postEntry c else t
    | none => t
  have hq : c.q = q := by
    have hsome := List.find?_some hpost
    simp only [Bool.and_eq_true, decide_eq_true_eq] at hsome
    exact hsome.1
  rw [show (fresh s).postable q = some c from hpost] at same
  dsimp only at same
  rw [if_pos (by
    show (s.cqRoom q && s.mayIssue 0) = true
    rw [hroom, hmay]
    rfl)] at same
  refine ⟨t, ht, by rw [same.hqi, cmds_postEntry]; rfl, ?_⟩
  rw [← hq]
  exact same.emitted (out_postEntry (fresh s) c)

theorem unsig_signalPair (s : State) {q : Nat} (hq : q < 65) : ((s.signalPair q).pair q).unsig = 0 := by
  unfold State.signalPair
  dsimp only
  split
  · rw [pair_of_hqi _ (unmasked (signal_frame ..).hqi (by decide +kernel)), pair_setPair_same _ _ hq]
  · rw [pair_setPair_same _ _ hq, pair_setPair_same _ _ hq]

theorem coalTimeExpiry_next {s : State} (hheld : s.pwr.held = []) (q : Fin 65) (hunsig : (s.pair q).unsig ≠ 0)
    (htime : s.getF F.HQI_QP_INT_COAL_TIME q ≠ 0) (hien : s.isSet F.HQI_QP_CTL_IEN q = true)
    (hlate : (s.pair q).since + 40 * s.getF F.HQI_QP_INT_COAL_TIME q ≤ s.tick) :
    ∃ t, exec (.coalTimeExpiry q) s = .next t ∧ (t.pair q).unsig = 0 := by
  obtain ⟨t, ht, same⟩ := done_next hheld fun t =>
    let time := t.getF F.HQI_QP_INT_COAL_TIME q
    if (t.pair q).unsig ≠ 0 ∧ time ≠ 0 ∧ t.isSet F.HQI_QP_CTL_IEN q ∧ (t.pair q).since + 40 * time ≤ t.tick then t.signalPair q
    else t
  dsimp only at same
  rw [if_pos ⟨hunsig, htime, hien, hlate⟩] at same
  exact ⟨t, ht, by rw [pair_of_hqi _ same.hqi, unsig_signalPair _ q.isLt]⟩

/-! ### Ended tests and mounts -/

theorem selfTestDone_next {s : State} (hheld : s.pwr.held = []) (v : Fin 8) (pos : Nat) (hrunning : (s.test v).running = some pos)
    (hended : (s.test v).ended = true) :
    ∃ t, exec (.selfTestDone v) s = .next t ∧ (t.test v).running = none ∧ t.isSet F.HQI_EVT_SELF_TEST_DONE 0 = true := by
  obtain ⟨t, ht, same⟩ := done_next hheld fun t =>
    let x := t.test v
    match x.running with
    | none => t
    | some pos =>
      if x.ended then
        ((t.finish pos stSuccess x.result).setTest v { x with running := none, stopped := x.stopping, stopping := false }).raise
          E.HQI_SELF_TEST_DONE 0
      else t
  dsimp only at same
  rw [show ((fresh s).test v).running = some pos from hrunning] at same
  dsimp only at same
  rw [if_pos (show ((fresh s).test v).ended = true from hended)] at same
  refine ⟨t, ht, ?_, ?_⟩
  · rw [test_of_hqi _ same.hqi]
    exact congrArg SelfTest.running (test_setTest_same ((fresh s).finish pos stSuccess ((fresh s).test v).result)
      { (fresh s).test v with running := none, stopped := ((fresh s).test v).stopping, stopping := false } v.isLt)
  · rw [same.isSet]
    exact isSet_raise_same _ _ E.HQI_SELF_TEST_DONE rfl (by decide) (by decide)

theorem deck_startDeck (s : State) (d : Nat) : (s.startDeck d).deck d = dkSPINUP := by
  rw [State.startDeck, State.enterMeasure, State.deck, getF_setPhase _ _ (by decide), getF_updWnd]
  exact deck_setDeck _ (by decide)

theorem volumeMountProceed_next {s : State} (hheld : s.pwr.held = []) (v : Fin 8) (m : MountS) (hquiet : s.HostQuiet)
    (hmount : (s.vol v).mount = some m) (hwaiting : m.waiting = true) (hstart : m.start = true) (hrelease : (s.vol v).release = none)
    (hdeck : s.deck v = dkLOADED) (hmay : s.mayStart v = true) :
    ∃ t, exec (.volumeMountProceed v) s = .next t ∧ t.deck v = dkSPINUP ∧ (t.vol v).mount = some m := by
  have hstep : (fresh s).mountStep v m = (fresh s).startDeck v := by
    unfold State.mountStep
    dsimp only
    rw [show (fresh s).deck v = dkLOADED from hdeck, show ((fresh s).vol v).release = none from hrelease, if_neg (by decide),
      if_pos (by decide), hstart, if_neg (by decide)]
    exact if_pos hmay
  have hgoes : (match ((fresh s).vol v).mount with
      | some m => if m.waiting then (fresh s).mountStep v m else fresh s
      | none => fresh s) = (fresh s).startDeck v := by
    rw [show ((fresh s).vol v).mount = some m from hmount]
    dsimp only
    rw [hwaiting, if_pos rfl, hstep]
  obtain ⟨t, ht, same⟩ := doneQ_quiet hheld (f := fun t =>
      match (t.vol v).mount with
      | some m => if m.waiting then t.mountStep v m else t
      | none => t) (by
    rw [hgoes]
    exact Frame.hostQuiet (startDeck_frame ..) (by decide +kernel) (by decide +kernel) hquiet)
  rw [hgoes] at same
  refine ⟨t, ht, ?_, ?_⟩
  · rw [State.deck, same.getF]
    exact deck_startDeck _ _
  · rw [vol_of_vols _ (same.vols.trans (unmasked (startDeck_frame ..).vols (by decide +kernel)))]
    exact hmount

/-- Settles O25: one lemma per row, above. -/
theorem queueRows : Obligations.QueueRows := fun _ =>
  ⟨controllerEnable_next, controllerReset_next, fun q hserved => queuePairEnable_next hserved q,
    fun q hserved => queuePairDisable_next hserved q, fun q w hserved => doorbells_next hserved q w,
    fun q w hserved => doorbells_rejected hserved q w, fun q a hheld => arbitration_next hheld q a,
    fun q c hheld => completionPost_next hheld q c, fun q hheld => coalTimeExpiry_next hheld q,
    fun v pos hheld => selfTestDone_next hheld v pos, fun v m hheld => volumeMountProceed_next hheld v m⟩

end Sys2Proof.Proofs
end

section
/-!
PROOFS. Containment (R294 to R296): what entry writes, and that the freeze and the end of a shift which follow leave it.
-/
set_option Elab.async false

namespace Sys2Proof.Laws

open Sys2Proof.Machine

theorem frame_withHif {m : Nat} (hm : m.testBit 3 = true) (s : State) (x : HifS) : Frame m s { s with hif := x } :=
  (Frame.refl m s).upd rfl (.inl rfl) (.inl rfl) (.inr hm) (.inl rfl) (.inl rfl) (.inl rfl) (.inl rfl) (.inl rfl) (.inl rfl) (.inl rfl)
    (.inl rfl) (.inl rfl) (.inl rfl) (.inl rfl) (.inl rfl) (.inl rfl) (.inl rfl)

/-- What entry into containment writes before media work freezes. -/
def entered (s : State) (cause : Field) : State :=
  (((s.setB cause 0 true).setF F.HIF_CONTAIN_STATE 0 1).setF F.HIF_CONTAIN_INFLIGHT 0 s.hqi.cmds.length).raise E.HIF_CONTAINED 0

/-- What the freeze, the requests given up and a shift that stays may change. -/
def freezes : Nat := W.freezeMedia ||| W.shiftStays ||| 2 ^ 3

section
variable {s : State} {cause : Field}

/-- One more cause of a containment that stands changes nothing else. -/
theorem contain_of_contained (h : s.contained = true) : s.contain cause = s.setB cause 0 true := if_pos h

theorem contain_entered (h : s.contained = false) : Frame freezes (entered s cause) (s.contain cause) := by
  unfold State.contain
  rw [if_neg (by rw [h]; decide)]
  have hreqs : Frame freezes (entered s cause) { entered s cause with hif := { (entered s cause).hif with
      reqs := ((entered s cause).hif.reqs.filter (·.sent)).map fun r => { r with drop := true } } } :=
    frame_withHif (by decide +kernel) _ _
  exact ((freezeMedia_frame _).step hreqs (by decide +kernel)).onlyIf fun t ht => (shiftStays_frame t).step ht (by decide +kernel)

/-- The cause is recorded, on entry as later. -/
theorem isSet_contain (hl : cause.id < 20000) (hw : 1 ≤ cause.width) (hfree : (freezes ||| W.contain).testBit cause.id = false) :
    (s.contain cause).isSet cause 0 = true := by
  obtain ⟨hfreeze, hwritten⟩ : freezes.testBit cause.id = false ∧ W.contain.testBit cause.id = false := by
    rw [Nat.testBit_or, Bool.or_eq_false_iff] at hfree
    exact hfree
  by_cases h : s.contained = true
  · rw [contain_of_contained h, isSet_setB_same _ _ _ _ hw]
  · have hother : ∀ f : Field, W.contain.testBit f.id = true → f.id ≠ cause.id := fun f hf heq => by
      rw [heq, hwritten] at hf
      cases hf
    rw [(contain_entered (Bool.eq_false_of_not_eq_true h)).isSet hl hfreeze, entered,
      isSet_raise_other _ _ (hother E.HIF_CONTAINED.fld (by decide +kernel)) (hother E.HIF_CONTAINED.reg.forced (by decide +kernel)),
      isSet_setF_other _ _ (hother F.HIF_CONTAIN_INFLIGHT (by decide +kernel)),
      isSet_setF_other _ _ (hother F.HIF_CONTAIN_STATE (by decide +kernel)), isSet_setB_same _ _ _ _ hw]

end

end Sys2Proof.Laws

namespace Sys2Proof.Proofs

open Sys2Proof.Machine Sys2Proof.Laws

theorem containmentForce_cause {s : State} (hserved : s.pf1Served = true) :
    ∃ t, exec .containmentForce s = .next t ∧ t.isSet F.HIF_CONTAIN_CAUSE_FORCED 0 = true := by
  obtain ⟨t, ht, same⟩ := doneW_next hserved fun t => t.contain F.HIF_CONTAIN_CAUSE_FORCED
  exact ⟨t, ht, by rw [same.isSet]; exact isSet_contain (by decide) (by decide) (by decide +kernel)⟩

theorem containmentForce_enters {s : State} (hserved : s.pf1Served = true) (hnot : s.contained = false) :
    ∃ t, exec .containmentForce s = .next t ∧ t.getF F.HIF_CONTAIN_STATE 0 = 1 ∧ t.isSet F.HIF_EVT_CONTAINED 0 = true ∧
      t.getF F.HIF_CONTAIN_INFLIGHT 0 = s.hqi.cmds.length % 2 ^ F.HIF_CONTAIN_INFLIGHT.width := by
  obtain ⟨t, ht, same⟩ := doneW_next hserved fun t => t.contain F.HIF_CONTAIN_CAUSE_FORCED
  have hframe : Frame freezes (entered (fresh s).flushAsm F.HIF_CONTAIN_CAUSE_FORCED) _ := contain_entered (by
    rw [State.contained, getF_flushAsm _ (by decide) (by decide +kernel)]
    exact hnot)
  refine ⟨t, ht, ?_, ?_, ?_⟩
  · rw [same.getF, hframe.getF (by decide) (by decide +kernel), entered, getF_raise_other _ _ (by decide) (by decide),
      getF_setF_other _ _ (by decide), getF_setF]
    rfl
  · rw [same.isSet, hframe.isSet (by decide) (by decide +kernel)]
    exact isSet_raise_same _ _ E.HIF_CONTAINED rfl (by decide) (by decide)
  · rw [same.getF, hframe.getF (by decide) (by decide +kernel), entered, getF_raise_other _ _ (by decide) (by decide), getF_setF,
      flushAsm_hqi]
    rfl

theorem containmentFrozen_next {s : State} (hheld : s.pwr.held = []) (hstate : s.getF F.HIF_CONTAIN_STATE 0 = 1)
    (hquiet : s.allQuiet = true) : ∃ t, exec .containmentFrozen s = .next t ∧ t.getF F.HIF_CONTAIN_STATE 0 = 2 := by
  obtain ⟨t, ht, same⟩ := done_next hheld fun t => t.toFrozen
  rw [State.toFrozen, if_pos (show (fresh s).getF _ _ = 1 ∧ (fresh s).allQuiet = true from ⟨hstate, hquiet⟩)] at same
  exact ⟨t, ht, by rw [same.getF, getF_setF]; rfl⟩

theorem containmentRelease_next {s : State} (hserved : s.pf1Served = true) (hstate : s.getF F.HIF_CONTAIN_STATE 0 = 2)
    (hlink : s.isSet F.HIF_LINK_DL_ACTIVE 0 = true) :
    ∃ t, exec .containmentRelease s = .next t ∧ t.isSet F.HIF_EVT_RELEASED 0 = true := by
  obtain ⟨t, ht, same⟩ := doneQW_next hserved fun t => t.release
  refine ⟨t, ht, ?_⟩
  rw [same.isSet, isSet_advance _ (by decide) (by decide +kernel), State.release, if_neg (by
    rw [getF_flushAsm _ (by decide) (by decide +kernel), isSet_flushAsm _ (by decide) (by decide +kernel)]
    exact not_or.2 ⟨fun h => h hstate, fun h => h hlink⟩)]
  extract_lets s1 s2
  have hreleased : s2.isSet F.HIF_EVT_RELEASED 0 = true := by
    rw [(ltrUpdate_frame _).isSet (by decide) (by decide +kernel), (deliverHeld_frame _).isSet (by decide) (by decide +kernel),
      (flushPba_frame ..).isSet (by decide) (by decide +kernel), (thawMedia_frame _).isSet (by decide) (by decide +kernel)]
    exact isSet_raise_same _ _ E.HIF_RELEASED rfl (by decide) (by decide)
  split
  · rw [(contain_fr (Frame.refl (fm [F.HIF_CONTAIN_CAUSE_INTERNAL] ||| W.contain) s2) (by decide +kernel) (by decide +kernel)).isSet
      (by decide) (by decide +kernel), hreleased]
  · exact hreleased

theorem containmentRelease_rejected {s : State} (hserved : s.pf1Served = true) (hstate : s.getF F.HIF_CONTAIN_STATE 0 ≠ 2) :
    ∃ t, exec .containmentRelease s = .next t ∧ t.isSet F.HIF_EVT_CFG_REJECT 0 = true ∧
      t.getF F.HIF_CONTAIN_STATE 0 = s.getF F.HIF_CONTAIN_STATE 0 := by
  obtain ⟨t, ht, same⟩ := doneQW_next hserved fun t => t.release
  rw [State.release, if_pos (by
    rw [getF_flushAsm _ (by decide) (by decide +kernel)]
    exact .inl hstate)] at same
  refine ⟨t, ht, ?_, ?_⟩
  · rw [same.isSet, isSet_advance _ (by decide) (by decide +kernel)]
    exact isSet_raise_same _ _ E.HIF_CFG_REJECT rfl (by decide) (by decide)
  · rw [same.getF, getF_advance _ (by decide) (by decide +kernel), getF_raise_other _ _ (by decide) (by decide),
      getF_flushAsm _ (by decide) (by decide +kernel)]
    rfl

/-- Settles O31: one lemma per row, above. -/
theorem containmentRows : Obligations.ContainmentRows := fun _ =>
  ⟨containmentForce_cause, containmentForce_enters, containmentFrozen_next, containmentRelease_next, containmentRelease_rejected⟩

end Sys2Proof.Proofs
end

section
/-!
PROOFS. The PCI Express function rows (R276 to R282, R288, R297): one lemma per row, assembled at the end.
-/
set_option Elab.async false

namespace Sys2Proof.Laws

open Sys2Proof.Machine Sys2Proof.Proofs

section
variable (s : State) (fn g : Nat)

@[simp] theorem pf_setPf_same (p : PfS) : (s.setPf fn p).pf fn = p := by
  unfold State.setPf State.pf
  split <;> rfl

@[simp] theorem getF_setPf (p : PfS) (f : Field) (i : Nat) : (s.setPf fn p).getF f i = s.getF f i := by
  unfold State.setPf
  split <;> rfl

@[simp] theorem isSet_setPf (p : PfS) (f : Field) (i : Nat) : (s.setPf fn p).isSet f i = s.isSet f i := by
  rw [State.isSet, getF_setPf, State.isSet]

theorem hqi_setPf (p : PfS) : (s.setPf fn p).hqi = s.hqi := unmasked (setPf_frame ..).hqi (by decide +kernel)

theorem out_setPf (p : PfS) : (s.setPf fn p).out = s.out := unmasked (setPf_frame ..).out (by decide +kernel)

theorem hostQuiet_setPf {s : State} {fn : Nat} {p : PfS} (h : s.HostQuiet) : (s.setPf fn p).HostQuiet :=
  (setPf_frame ..).hostQuiet (by decide +kernel) (by decide +kernel) h

/-- What happens to the interrupts that wait changes no other part of a function. -/
theorem hif_msix (l : List Nat) : (s.forEach l fun t v => t.emit (.msix fn v)).hif = s.hif :=
  forEach_keeps (P := fun t => t.hif = s.hif) (fun _ _ _ ht => ht) rfl

theorem pf_flushPba : ∃ x, (s.flushPba fn).pf fn = { s.pf fn with pba := x } := by
  unfold State.flushPba
  split
  · exact ⟨_, rfl⟩
  · dsimp only
    refine ⟨(s.pf fn).pba.filter fun v => !s.mayMessage fn v, ?_⟩
    have hpf : ∀ {t u : State}, t.hif = u.hif → t.pf fn = u.pf fn := fun h => by rw [State.pf, State.pf, h]
    rw [hpf (hif_msix _ fn _), pf_setPf_same]

theorem msixEntry_setPf (p : PfS) (v : Nat) : (s.setPf fn p).msixEntry g v = s.msixEntry g v := by
  unfold State.setPf
  split <;> rfl

theorem msixEntry_flushPba (v : Nat) : (s.flushPba fn).msixEntry g v = s.msixEntry g v := by
  unfold State.flushPba
  split
  · rfl
  · dsimp only
    rw [State.msixEntry, hif_msix]
    exact msixEntry_setPf ..

theorem pf_pump : s.pump.pf fn = s.pf fn := by
  unfold State.pump
  split
  · rfl
  · rw [State.pf, hif_emits]
    rfl

end

/-- With no slot ended, no delivery is held back. -/
theorem deliverHeld_of_none {s : State} (h : ∀ y < 96, (s.slot y).outcome = none) : s.deliverHeld = s := by
  unfold State.deliverHeld
  refine forEach_eq_self fun y hy => ?_
  rw [h y (List.mem_range.1 hy)]

/-- After a row, a function is as the row left it, but for the interrupts that wait. -/
theorem pf_of_same {a t : State} (h : Same a t) (fn : Nat) : ∃ x, t.pf fn = { a.pf fn with pba := x } := by
  obtain ⟨x, hx⟩ := h.hif
  unfold State.pf
  rw [hx]
  split
  · exact ⟨_, rfl⟩
  · exact ⟨x, rfl⟩

theorem msixEntry_of_same {a t : State} (h : Same a t) (fn v : Nat) : t.msixEntry fn v = a.msixEntry fn v := by
  obtain ⟨x, hx⟩ := h.hif
  rw [State.msixEntry, State.msixEntry, hx]

theorem msixEntry_setMsix (s : State) (fn : Fin 2) {v : Nat} (x : Msix) (hv : v < if fn = 0 then 256 else 32) :
    (s.setMsix fn v x).msixEntry fn v = x := by
  match fn with
  | 0 => exact vget_vset_same s.hif.table0 x {} hv
  | 1 => exact vget_vset_same s.hif.table1 x {} hv

/-- Interrupts, requests and deliveries that resume leave a function's state. -/
theorem resumeFn_reads {s : State} (fn : Nat) (hnone : ∀ y < 96, (s.slot y).outcome = none) :
    ∃ x, (s.resumeFn fn).pf fn = { s.pf fn with pba := x } := by
  obtain ⟨x, hx⟩ := pf_flushPba s fn
  refine ⟨x, ?_⟩
  unfold State.resumeFn
  dsimp only
  split
  · rw [deliverHeld_of_none (s := (s.flushPba fn).pump), pf_pump, hx]
    intro y hy
    rw [slot_of_asy _ ((unmasked (pump_frame _).asy (by decide +kernel)).trans (unmasked (flushPba_frame ..).asy (by decide +kernel)))]
    exact hnone y hy
  · exact hx

end Sys2Proof.Laws

namespace Sys2Proof.Proofs

open Sys2Proof.Machine Sys2Proof.Laws

/-! ### FLR -/

section
variable {s : State} (hheld : s.pwr.held = [])
include hheld

theorem flrPf0_next (hserved : s.cfgServed 0 = true) :
    ∃ t, exec .flrPf0 s = .next t ∧ t.isSet F.HIF_EVT_FLR0 0 = true ∧ t.isSet F.PWR_RESET_CAUSE_FLR0 0 = true ∧
      t.getF F.PWR_RESET_CAUSE_LAST 0 = 4 := by
  obtain ⟨t, ht, same⟩ := doneQ_next hheld fun t => if t.cfgServed 0 then t.flrPf0 else t
  rw [if_pos (show (fresh s).cfgServed 0 = true from hserved), State.flrPf0, State.resetSource] at same
  refine ⟨t, ht, ?_, ?_, ?_⟩
  · rw [same.isSet, isSet_advance _ (by decide) (by decide +kernel), isSet_setF_other _ _ (by decide), isSet_setB_other _ _ (by decide)]
    exact isSet_raise_same _ _ E.HIF_FLR0 rfl (by decide) (by decide)
  · rw [same.isSet, isSet_advance _ (by decide) (by decide +kernel), isSet_setF_other _ _ (by decide), isSet_setB_same _ _ _ _ (by decide)]
  · rw [same.getF, getF_advance _ (by decide) (by decide +kernel), getF_setF]
    rfl

theorem flrPf1_next (hserved : s.cfgServed 1 = true) :
    ∃ t, exec .flrPf1 s = .next t ∧ t.isSet F.HIF_EVT_FLR1 0 = true ∧ t.isSet F.PWR_RESET_CAUSE_FLR1 0 = true ∧
      t.getF F.PWR_RESET_CAUSE_LAST 0 = 5 ∧ t.hif.table1 = Vector.replicate 32 {} ∧ t.hif.pf1.flr = true ∧
      t.hif.pf1.msixEn = false := by
  obtain ⟨t, ht, same⟩ := done_next hheld fun t => if t.cfgServed 1 then t.flrPf1 else t
  rw [if_pos (show (fresh s).cfgServed 1 = true from hserved), State.flrPf1, State.resetSource] at same
  obtain ⟨x, hif⟩ := same.hif
  refine ⟨t, ht, ?_, ?_, ?_, by rw [hif]; rfl, by rw [hif]; rfl, by rw [hif]; rfl⟩
  · rw [same.isSet, isSet_setF_other _ _ (by decide), isSet_setB_other _ _ (by decide)]
    exact isSet_raise_same _ _ E.HIF_FLR1 rfl (by decide) (by decide)
  · rw [same.isSet, isSet_setF_other _ _ (by decide), isSet_setB_same _ _ _ _ (by decide)]
  · rw [same.getF, getF_setF]
    rfl

theorem flrComplete_next (fn : Fin 2) (hflr : (s.pf fn).flr = true) (hnone : ∀ y < 96, (s.slot y).outcome = none) :
    ∃ t, exec (.flrComplete fn) s = .next t ∧ (t.pf fn).flr = false := by
  obtain ⟨t, ht, same⟩ := done_next hheld fun t => if (t.pf fn).flr then (t.setPf fn { t.pf fn with flr := false }).resumeFn fn else t
  rw [if_pos (show ((fresh s).pf fn).flr = true from hflr)] at same
  obtain ⟨x, hx⟩ := pf_of_same same fn
  obtain ⟨y, hy⟩ := resumeFn_reads (s := (fresh s).setPf fn { (fresh s).pf fn with flr := false }) fn fun y hy => by
    rw [slot_of_asy _ (unmasked (setPf_frame ..).asy (by decide +kernel))]
    exact hnone y hy
  exact ⟨t, ht, by rw [hx, hy, pf_setPf_same]⟩

/-! ### Configuration requests -/

section
variable (fn : Fin 2) (hquiet : s.HostQuiet) (hlink : s.isSet F.HIF_LINK_DL_ACTIVE 0 = true) (hperst : s.hif.perst = false)
include hquiet hlink hperst

theorem configRequest_served (r : CfgReq) (hserved : s.cfgServed fn = true) (hafter : ((fresh s).configRequest fn r).HostQuiet) :
    ∃ t, exec (.configRequest fn r) s = .next t ∧ Same ((fresh s).configRequest fn r) t := by
  have hgoes : (if !(fresh s).isSet F.HIF_LINK_DL_ACTIVE 0 || (fresh s).hif.perst then fresh s
      else if (fresh s).cfgServed fn then (fresh s).configRequest fn r else (fresh s).emit .cplRetry) = (fresh s).configRequest fn r := by
    rw [if_neg (by
      show ¬ (!s.isSet F.HIF_LINK_DL_ACTIVE 0 || s.hif.perst) = true
      rw [hlink, hperst]
      decide)]
    exact if_pos hserved
  obtain ⟨t, ht, same⟩ := doneQ_quiet hheld (f := fun t =>
    if !t.isSet F.HIF_LINK_DL_ACTIVE 0 || t.hif.perst then t
    else if t.cfgServed fn then t.configRequest fn r else t.emit .cplRetry) (by rw [hgoes]; exact hafter)
  rw [hgoes] at same
  exact ⟨t, ht, same⟩

theorem configRequest_serial (hserved : s.cfgServed fn = true) :
    ∃ t, exec (.configRequest fn .serial) s = .next t ∧ .cplData (leBytes 8 s.cfg.fuses.serial) ∈ t.out := by
  obtain ⟨t, ht, same⟩ := configRequest_served hheld fn hquiet hlink hperst .serial hserved hquiet
  exact ⟨t, ht, same.emitted (List.mem_append_right _ List.mem_cons_self)⟩

theorem configRequest_intxDisable (hserved : s.cfgServed fn = true) (b : Bool) :
    ∃ t, exec (.configRequest fn (.intxDisable b)) s = .next t ∧ (t.pf fn).intxDis = b ∧ .cplData [] ∈ t.out := by
  have hset : (fresh s).configRequest fn (.intxDisable b) =
      ((fresh s).setPf fn { (fresh s).pf fn with intxDis := b }).emit (.cplData []) := rfl
  obtain ⟨t, ht, same⟩ := configRequest_served hheld fn hquiet hlink hperst (.intxDisable b) hserved (by
    rw [hset]
    exact hostQuiet_of_parts (hostQuiet_setPf (s := fresh s) hquiet) rfl rfl)
  rw [hset] at same
  obtain ⟨x, hx⟩ := pf_of_same same fn
  refine ⟨t, ht, ?_, same.emitted (List.mem_append_right _ List.mem_cons_self)⟩
  rw [hx]
  exact congrArg PfS.intxDis (pf_setPf_same (fresh s) fn { (fresh s).pf fn with intxDis := b })

theorem configRequest_retry (hserved : s.cfgServed fn = false) (r : CfgReq) :
    ∃ t, exec (.configRequest fn r) s = .next t ∧ .cplRetry ∈ t.out := by
  have hgoes : (if !(fresh s).isSet F.HIF_LINK_DL_ACTIVE 0 || (fresh s).hif.perst then fresh s
      else if (fresh s).cfgServed fn then (fresh s).configRequest fn r else (fresh s).emit .cplRetry) = (fresh s).emit .cplRetry := by
    rw [if_neg (by
      show ¬ (!s.isSet F.HIF_LINK_DL_ACTIVE 0 || s.hif.perst) = true
      rw [hlink, hperst]
      decide)]
    exact if_neg (by rw [show (fresh s).cfgServed fn = false from hserved]; decide)
  obtain ⟨t, ht, same⟩ := doneQ_quiet hheld (f := fun t =>
    if !t.isSet F.HIF_LINK_DL_ACTIVE 0 || t.hif.perst then t
    else if t.cfgServed fn then t.configRequest fn r else t.emit .cplRetry) (by
      rw [hgoes]
      exact hostQuiet_of_parts hquiet rfl rfl)
  rw [hgoes] at same
  exact ⟨t, ht, same.emitted (List.mem_append_right _ List.mem_cons_self)⟩

end

/-! ### Power states -/

section
variable (hquiet : s.HostQuiet) (hserved : s.cfgServed 0 = true)
include hquiet hserved

theorem pf0D3hot_next : ∃ t, exec .pf0D3hot s = .next t ∧ t.hif.pf0.d3 = true := by
  have hgoes : (if (fresh s).cfgServed 0 then (fresh s).setPower 0 true else fresh s) =
      (fresh s).setPf 0 { (fresh s).pf 0 with d3 := true } := if_pos hserved
  obtain ⟨t, ht, same⟩ := doneQ_quiet hheld (f := fun t => if t.cfgServed 0 then t.setPower 0 true else t) (by
    rw [hgoes]
    exact hostQuiet_setPf (s := fresh s) hquiet)
  rw [hgoes] at same
  obtain ⟨x, hx⟩ := same.hif
  exact ⟨t, ht, by rw [hx]; rfl⟩

theorem pf0D0_next (hnone : ∀ y < 96, (s.slot y).outcome = none) : ∃ t, exec .pf0D0 s = .next t ∧ t.hif.pf0.d3 = false := by
  have hgoes : (if (fresh s).cfgServed 0 then (fresh s).setPower 0 false else fresh s) =
      ((fresh s).setPf 0 { (fresh s).pf 0 with d3 := false }).resumeFn 0 := if_pos hserved
  have hslots : ∀ y < 96, (((((fresh s).setPf 0 { (fresh s).pf 0 with d3 := false }).flushPba 0).pump).slot y).outcome =
    none := fun y hy => by
    rw [slot_of_asy _ ((unmasked (pump_frame _).asy (by decide +kernel)).trans (unmasked (flushPba_frame ..).asy (by decide +kernel)))]
    exact hnone y hy
  obtain ⟨t, ht, same⟩ := doneQ_quiet hheld (f := fun t => if t.cfgServed 0 then t.setPower 0 false else t) (by
    rw [hgoes, State.resumeFn]
    dsimp only
    rw [if_pos rfl, deliverHeld_of_none hslots]
    exact (pump_frame _).hostQuiet (by decide +kernel) (by decide +kernel)
      ((flushPba_frame ..).hostQuiet (by decide +kernel) (by decide +kernel) (hostQuiet_setPf (s := fresh s) hquiet)))
  rw [hgoes] at same
  obtain ⟨x, hx⟩ := pf_of_same same 0
  obtain ⟨y, hy⟩ := resumeFn_reads (s := (fresh s).setPf 0 { (fresh s).pf 0 with d3 := false }) 0 fun y hy => hnone y hy
  exact ⟨t, ht, by rw [show t.hif.pf0 = t.pf 0 from rfl, hx, hy, pf_setPf_same]⟩

end

/-! ### Interrupts, bad accesses, the end of a hot reset -/

theorem msixVectorUnmask_next (fn : Fin 2) (v : BitVec 8) (hserved : s.served fn = true) (hv : v.toNat < if fn = 0 then 256 else 32) :
    ∃ t, exec (.msixVectorUnmask fn v) s = .next t ∧ (t.msixEntry fn v.toNat).masked = false := by
  obtain ⟨t, ht, same⟩ := done_next hheld fun t =>
    if t.served fn then (t.setMsix fn v.toNat { t.msixEntry fn v.toNat with masked := false }).flushPba fn else t
  rw [if_pos (show (fresh s).served fn = true from hserved)] at same
  exact ⟨t, ht, by rw [msixEntry_of_same same, msixEntry_flushPba, msixEntry_setMsix _ _ _ hv]⟩

theorem badRegisterAccess_served (fn : Fin 2) (hserved : s.served fn = true) (r : Bool) :
    ∃ t, exec (.badRegisterAccess fn r) s = .next t ∧ t.isSet F.HIF_EVT_CFG_REJECT 0 = true ∧ (r = true → .cplUr ∈ t.out) := by
  obtain ⟨t, ht, same⟩ := done_next hheld fun t =>
    if t.served fn then (t.raise E.HIF_CFG_REJECT 0).onlyIf r fun u => u.emit .cplUr
    else if r then t.refuseRead else t
  rw [if_pos (show (fresh s).served fn = true from hserved)] at same
  have hraised : ((fresh s).raise E.HIF_CFG_REJECT 0).isSet F.HIF_EVT_CFG_REJECT 0 = true :=
    isSet_raise_same _ _ E.HIF_CFG_REJECT rfl (by decide) (by decide)
  refine ⟨t, ht, ?_, fun hr => ?_⟩
  · rw [same.isSet, isSet_onlyIf, emit_isSet, ite_self, hraised]
  · rw [hr] at same
    exact same.emitted (List.mem_append_right _ List.mem_cons_self)

theorem badRegisterAccess_refused (fn : Fin 2) (hserved : s.served fn = false) (hlink : s.isSet F.HIF_LINK_DL_ACTIVE 0 = true) :
    ∃ t, exec (.badRegisterAccess fn true) s = .next t ∧ .cplUr ∈ t.out := by
  obtain ⟨t, ht, same⟩ := done_next hheld fun t =>
    if t.served fn then (t.raise E.HIF_CFG_REJECT 0).onlyIf true fun u => u.emit .cplUr
    else if true then t.refuseRead else t
  rw [if_neg (by rw [show (fresh s).served fn = false from hserved]; decide), if_pos rfl, State.refuseRead,
    if_pos (show (fresh s).isSet F.HIF_LINK_DL_ACTIVE 0 = true from hlink)] at same
  exact ⟨t, ht, same.emitted (List.mem_append_right _ List.mem_cons_self)⟩

theorem hotResetReady_next (hpending : s.hif.hotPending = true) (hlink : s.isSet F.HIF_LINK_DL_ACTIVE 0 = true) :
    ∃ t, exec .hotResetReady s = .next t ∧ t.hif = { s.hif with hotPending := false, pf1 := t.hif.pf1 } := by
  obtain ⟨t, ht, same⟩ := done_next hheld fun t =>
    if t.hif.hotPending && t.isSet F.HIF_LINK_DL_ACTIVE 0 then { t with hif := { t.hif with hotPending := false } } else t
  rw [if_pos (by
    show (s.hif.hotPending && s.isSet F.HIF_LINK_DL_ACTIVE 0) = true
    rw [hpending, hlink]
    rfl)] at same
  obtain ⟨x, hx⟩ := same.hif
  exact ⟨t, ht, by rw [hx]; rfl⟩

end

/-- Settles O28: one lemma per row, above. -/
theorem functionRows : Obligations.FunctionRows := fun _ hheld =>
  ⟨flrPf0_next hheld, flrPf1_next hheld, flrComplete_next hheld,
    fun fn hquiet hlink hperst => ⟨configRequest_serial hheld fn hquiet hlink hperst,
      configRequest_intxDisable hheld fn hquiet hlink hperst, configRequest_retry hheld fn hquiet hlink hperst⟩,
    fun hquiet hserved => ⟨pf0D3hot_next hheld hquiet hserved, pf0D0_next hheld hquiet hserved⟩,
    msixVectorUnmask_next hheld,
    fun fn => ⟨badRegisterAccess_served hheld fn, badRegisterAccess_refused hheld fn⟩, hotResetReady_next hheld⟩

end Sys2Proof.Proofs
end

section
/-!
PROOFS. The data link and the completions of the endpoint (R277, R283 to R285, R294): one lemma per row, assembled at the end.
-/
set_option Elab.async false

namespace Sys2Proof.Proofs

open Sys2Proof.Machine Sys2Proof.Laws

/-- What a link that has come up lets go on. -/
def afterLinkUp : Nat := W.flushPba ||| W.pump ||| W.deliverHeld

theorem linkResumes (s : State) : Frame afterLinkUp s ((s.flushPba 0).flushPba 1).pump.deliverHeld :=
  (deliverHeld_frame _).step ((pump_frame _).step ((flushPba_frame _ 1).step ((flushPba_frame s 0).mono (by decide +kernel))
    (by decide +kernel)) (by decide +kernel)) (by decide +kernel)

/-- The registers of a link that has come up. -/
def linkTrained (s : State) (speed width : Nat) : State :=
  ((((s.setB F.HIF_LINK_DL_ACTIVE 0 true).setF F.HIF_LINK_SPEED 0 speed).setF F.HIF_LINK_WIDTH 0 width).setB F.HIF_LINK_DEGRADED 0
    (decide (width < 8 ∨ speed < 5))).onlyIf (decide (width < 8 ∨ speed < 5)) fun t => t.raise E.HIF_LINK_DEGRADED 0

/-- A request whose completion timer expires is recorded before its requester is told. -/
def timeoutCounted (s : State) (tag : Nat) : State :=
  (((s.retire tag).count F.HIF_CPL_ERR_TIMEOUT 0).aer 0 .completionTimeout).raise E.HIF_CPL_TIMEOUT 0

section
variable {s : State} (hheld : s.pwr.held = [])
include hheld

/-! ### The link -/

theorem linkUp_next (speed width : Nat) (hperst : s.hif.perst = false) (hdown : s.isSet F.HIF_LINK_DL_ACTIVE 0 = false)
    (href : s.isSet F.PWR_STATUS_PCIE_REF 0 = true) (hspeed : speed ≤ 5) (hwidth : width ≤ 8) :
    ∃ t, exec (.linkUp speed width) s = .next t ∧ t.isSet F.HIF_LINK_DL_ACTIVE 0 = true ∧ t.getF F.HIF_LINK_SPEED 0 = speed ∧
      t.getF F.HIF_LINK_WIDTH 0 = width ∧ t.isSet F.HIF_LINK_DEGRADED 0 = decide (width < 8 ∨ speed < 5) ∧
      (width < 8 ∨ speed < 5 → t.isSet F.HIF_EVT_LINK_DEGRADED 0 = true) := by
  obtain ⟨t, ht, same⟩ := doneQ_next hheld fun t => t.pcieUp speed width
  have heq : (fresh s).pcieUp speed width = (((linkTrained (fresh s) speed width).flushPba 0).flushPba 1).pump.deliverHeld := if_neg (by
    show ¬ (s.hif.perst || s.isSet F.HIF_LINK_DL_ACTIVE 0 || !s.isSet F.PWR_STATUS_PCIE_REF 0) = true
    rw [hperst, hdown, href]
    decide)
  have hframe := linkResumes (linkTrained (fresh s) speed width)
  rw [heq] at same
  refine ⟨t, ht, ?_, ?_, ?_, ?_, fun hlow => ?_⟩
  · rw [same.isSet, isSet_advance _ (by decide) (by decide +kernel), hframe.isSet (by decide) (by decide +kernel), linkTrained,
      isSet_onlyIf, isSet_raise_other _ _ (by decide) (by decide), ite_self, isSet_setB_other _ _ (by decide),
      isSet_setF_other _ _ (by decide), isSet_setF_other _ _ (by decide), isSet_setB_same _ _ _ _ (by decide)]
  · rw [same.getF, getF_advance _ (by decide) (by decide +kernel), hframe.getF (by decide) (by decide +kernel), linkTrained,
      getF_onlyIf, getF_raise_other _ _ (by decide) (by decide), ite_self, getF_setB_other _ _ (by decide),
      getF_setF_other _ _ (by decide), getF_setF]
    exact Nat.mod_eq_of_lt (by show _ < 16; omega)
  · rw [same.getF, getF_advance _ (by decide) (by decide +kernel), hframe.getF (by decide) (by decide +kernel), linkTrained,
      getF_onlyIf, getF_raise_other _ _ (by decide) (by decide), ite_self, getF_setB_other _ _ (by decide), getF_setF]
    exact Nat.mod_eq_of_lt (by show _ < 16; omega)
  · rw [same.isSet, isSet_advance _ (by decide) (by decide +kernel), hframe.isSet (by decide) (by decide +kernel), linkTrained,
      isSet_onlyIf, isSet_raise_other _ _ (by decide) (by decide), ite_self, isSet_setB_same _ _ _ _ (by decide)]
  · rw [same.isSet, isSet_advance _ (by decide) (by decide +kernel), hframe.isSet (by decide) (by decide +kernel), linkTrained,
      isSet_onlyIf, if_pos (decide_eq_true hlow)]
    exact isSet_raise_same _ _ E.HIF_LINK_DEGRADED rfl (by decide) (by decide)

theorem linkDown_next (hup : s.isSet F.HIF_LINK_DL_ACTIVE 0 = true) (hhot : s.hif.hotPending = false) (hperst : s.hif.perst = false) :
    ∃ t, exec .linkDown s = .next t ∧ t.isSet F.HIF_LINK_DL_ACTIVE 0 = false ∧ t.isSet F.HIF_EVT_LINK_LOST 0 = true ∧
      t.getF F.HIF_LINK_SPEED 0 = 0 ∧ t.isSet F.HIF_CONTAIN_CAUSE_LINK 0 = true ∧
      t.getF F.HIF_LINK_DOWN_CNT 0 = min (s.getF F.HIF_LINK_DOWN_CNT 0 + 1) (2 ^ F.HIF_LINK_DOWN_CNT.width - 1) := by
  obtain ⟨t, ht, same⟩ := doneQ_next hheld fun t => t.pcieDown
  let u := ((fresh s).linkFields.count F.HIF_LINK_DOWN_CNT 0).raise E.HIF_LINK_LOST 0
  have heq : (fresh s).pcieDown = u.contain F.HIF_CONTAIN_CAUSE_LINK := by
    unfold State.pcieDown
    rw [if_neg (by rw [show (fresh s).isSet F.HIF_LINK_DL_ACTIVE 0 = true from hup]; decide)]
    exact if_neg (by
      show ¬ (s.hif.hotPending || s.hif.perst) = true
      rw [hhot, hperst]
      decide)
  have hframe : Frame (fm [F.HIF_CONTAIN_CAUSE_LINK] ||| W.contain) u (u.contain F.HIF_CONTAIN_CAUSE_LINK) :=
    contain_fr (Frame.refl _ u) (by decide +kernel) (by decide +kernel)
  rw [heq] at same
  refine ⟨t, ht, ?_, ?_, ?_, ?_, ?_⟩
  · rw [same.isSet, isSet_advance _ (by decide) (by decide +kernel), hframe.isSet (by decide) (by decide +kernel),
      isSet_raise_other _ _ (by decide) (by decide), isSet_count_other _ (by decide), State.linkFields, isSet_setB_other _ _ (by decide),
      isSet_setF_other _ _ (by decide), isSet_setF_other _ _ (by decide), isSet_setB_same _ _ _ _ (by decide)]
  · rw [same.isSet, isSet_advance _ (by decide) (by decide +kernel), hframe.isSet (by decide) (by decide +kernel)]
    exact isSet_raise_same _ _ E.HIF_LINK_LOST rfl (by decide) (by decide)
  · rw [same.getF, getF_advance _ (by decide) (by decide +kernel), hframe.getF (by decide) (by decide +kernel),
      getF_raise_other _ _ (by decide) (by decide), getF_count_other _ (by decide), State.linkFields, getF_setB_other _ _ (by decide),
      getF_setF_other _ _ (by decide), getF_setF]
    rfl
  · rw [same.isSet, isSet_advance _ (by decide) (by decide +kernel)]
    exact isSet_contain (by decide) (by decide) (by decide +kernel)
  · rw [same.getF, getF_advance _ (by decide) (by decide +kernel), hframe.getF (by decide) (by decide +kernel),
      getF_raise_other _ _ (by decide) (by decide), getF_count_same, (linkFields_frame _).getF (by decide) (by decide +kernel)]
    rfl

/-! ### Completions -/

theorem completionReceived_unexpected (tag : Nat) (bytes : List (BitVec 8)) (st : CplStatus)
    (hup : s.isSet F.HIF_LINK_DL_ACTIVE 0 = true) (hnone : s.req? tag = none) :
    ∃ t, exec (.completionReceived tag bytes st) s = .next t ∧ t.isSet F.HIF_EVT_UNEXP_CPL 0 = true ∧
      t.getF F.HIF_CPL_ERR_UNEXP 0 = min (s.getF F.HIF_CPL_ERR_UNEXP 0 + 1) (2 ^ F.HIF_CPL_ERR_UNEXP.width - 1) := by
  obtain ⟨t, ht, same⟩ := doneQ_next hheld fun t =>
    if t.isSet F.HIF_LINK_DL_ACTIVE 0 then t.completion tag (bytes.map (·.toNat)) st else t
  rw [if_pos (show (fresh s).isSet F.HIF_LINK_DL_ACTIVE 0 = true from hup), State.completion,
    show (fresh s).req? tag = none from hnone] at same
  dsimp only at same
  rw [State.unexpected] at same
  refine ⟨t, ht, ?_, ?_⟩
  · rw [same.isSet, isSet_advance _ (by decide) (by decide +kernel)]
    exact isSet_raise_same _ _ E.HIF_UNEXP_CPL rfl (by decide) (by decide)
  · rw [same.getF, getF_advance _ (by decide) (by decide +kernel), getF_raise_other _ _ (by decide) (by decide),
      (aer_frame ..).getF (by decide) (by decide +kernel), getF_count_same]
    rfl

theorem completionReceived_partial (tag : Nat) (bytes : List (BitVec 8)) (r : OutReq) (hup : s.isSet F.HIF_LINK_DL_ACTIVE 0 = true)
    (hquiet : s.HostQuiet) (hreq : s.req? tag = some r) (hshort : r.got.length + bytes.length < r.len) :
    ∃ t, exec (.completionReceived tag bytes .ok) s = .next t ∧ t.hif.reqs = s.hif.reqs.map fun x =>
      if x.tag = tag then { x with got := r.got ++ bytes.map (·.toNat) } else x := by
  have hgoes : (if (fresh s).isSet F.HIF_LINK_DL_ACTIVE 0 then (fresh s).completion tag (bytes.map (·.toNat)) .ok else fresh s) =
      { fresh s with hif := { s.hif with reqs := s.hif.reqs.map fun x =>
          if x.tag = tag then { x with got := r.got ++ bytes.map (·.toNat) } else x } } := by
    rw [if_pos (show (fresh s).isSet F.HIF_LINK_DL_ACTIVE 0 = true from hup), State.completion,
      show (fresh s).req? tag = some r from hreq]
    exact if_pos (by rw [List.length_append, List.length_map]; exact hshort)
  obtain ⟨t, ht, same⟩ := doneQ_quiet hheld (f := fun t =>
    if t.isSet F.HIF_LINK_DL_ACTIVE 0 then t.completion tag (bytes.map (·.toNat)) .ok else t) (by
      rw [hgoes]
      exact hostQuiet_of_parts hquiet rfl rfl)
  rw [hgoes] at same
  exact ⟨t, ht, reqs_of_same same⟩

theorem cplTimeout_next (tag : Nat) (r : OutReq) (q pos : Nat) (hreq : s.req? tag = some r) (hkind : r.kind = .sqFetch q pos)
    (hdrop : r.drop = false) (hon : s.hif.pf0.cplTmoDis = false) (hlate : r.since + s.cplTicks ≤ s.tick) :
    ∃ t, exec (.cplTimeout tag) s = .next t ∧ t.isSet F.HIF_EVT_CPL_TIMEOUT 0 = true ∧
      t.getF F.HIF_CPL_ERR_TIMEOUT 0 = min (s.getF F.HIF_CPL_ERR_TIMEOUT 0 + 1) (2 ^ F.HIF_CPL_ERR_TIMEOUT.width - 1) := by
  obtain ⟨t, ht, same⟩ := doneQ_next hheld fun t => t.cplTimeout tag
  have heq : (fresh s).cplTimeout tag = ((timeoutCounted (fresh s) tag).queueErr q 1).pairQuiesce q := by
    unfold State.cplTimeout
    rw [show (fresh s).req? tag = some r from hreq]
    dsimp only
    rw [if_neg (by
      show ¬ (s.hif.pf0.cplTmoDis || decide (s.tick < r.since + s.cplTicks)) = true
      rw [hon, decide_eq_false (by omega)]
      decide), if_neg (by rw [hdrop]; decide), State.failReq, hkind]
    rfl
  rw [heq] at same
  refine ⟨t, ht, ?_, ?_⟩
  · rw [same.isSet, isSet_advance _ (by decide) (by decide +kernel), (pairQuiesce_frame ..).isSet (by decide) (by decide +kernel),
      (queueErr_frame ..).isSet (by decide) (by decide +kernel)]
    exact isSet_raise_same _ _ E.HIF_CPL_TIMEOUT rfl (by decide) (by decide)
  · rw [same.getF, getF_advance _ (by decide) (by decide +kernel), (pairQuiesce_frame ..).getF (by decide) (by decide +kernel),
      (queueErr_frame ..).getF (by decide) (by decide +kernel), timeoutCounted, getF_raise_other _ _ (by decide) (by decide),
      (aer_frame ..).getF (by decide) (by decide +kernel), getF_count_same, (retire_frame ..).getF (by decide) (by decide +kernel)]
    rfl

end

/-- Settles O29: one lemma per row, above. -/
theorem linkAndCompletionRows : Obligations.LinkAndCompletionRows := fun _ hheld =>
  ⟨linkUp_next hheld, linkDown_next hheld, completionReceived_unexpected hheld, completionReceived_partial hheld, cplTimeout_next hheld⟩

end Sys2Proof.Proofs
end

section
/-!
PROOFS. The peer windows (R290 to R293, R332): one lemma per row, assembled at the end.
-/
set_option Elab.async false

namespace Sys2Proof.Proofs

open Sys2Proof.Machine Sys2Proof.Laws

/-! ### Windows that go live -/

section
variable (s : State) {w : Nat}

theorem getF_goLive_other {v : Nat} (h : v ≠ w) (f : Field) : (s.goLive v).getF f w = s.getF f w := by
  simp only [State.goLive, List.foldl_cons, List.foldl_nil]
  simp only [getF_setF_inst _ _ h]

/-- A window that goes live keeps its shadow. -/
theorem getF_goLive_shadow {v : Nat} {f : Field} (hf : ∀ g ∈ liveWindowFields, g.id ≠ f.id) : (s.goLive v).getF f w = s.getF f w := by
  simp only [liveWindowFields, List.forall_mem_cons] at hf
  obtain ⟨hlo, hhi, hsize, hwr, hrd, hen, -⟩ := hf
  simp only [State.goLive, List.foldl_cons, List.foldl_nil]
  rw [getF_setF_other _ _ hen, getF_setF_other _ _ hrd, getF_setF_other _ _ hwr, getF_setF_other _ _ hsize, getF_setF_other _ _ hhi,
    getF_setF_other _ _ hlo]

theorem getF_goLive_en : (s.goLive w).getF F.HIF_WIN_LIVE_SIZE_CTL_EN w = s.getF F.HIF_WIN_SIZE_CTL_EN w % 2 := by
  simp only [State.goLive, List.foldl_cons, List.foldl_nil]
  simp (disch := decide) only [getF_setF, getF_setF_other]
  rfl

theorem getF_goLive_size : (s.goLive w).getF F.HIF_WIN_LIVE_SIZE_CTL_SIZE w = s.getF F.HIF_WIN_SIZE_CTL_SIZE w % 128 := by
  simp only [State.goLive, List.foldl_cons, List.foldl_nil]
  simp (disch := decide) only [getF_setF, getF_setF_other]
  rfl

/-- After windows have gone live, a live field of one of them reads its shadow, and of another what it read before. -/
theorem getF_goLives {shadow live : Field} {n : Nat} (hshadow : ∀ (t : State) v, (t.goLive v).getF shadow w = t.getF shadow w)
    (hlive : ∀ t : State, (t.goLive w).getF live w = t.getF shadow w % n) (l : List Nat) :
    (s.forEach l fun t v => t.goLive v).getF live w = if w ∈ l then s.getF shadow w % n else s.getF live w := by
  induction l generalizing s with
  | nil => rfl
  | cons v l ih =>
    refine (ih (s.goLive v)).trans ?_
    rw [hshadow]
    by_cases hl : w ∈ l
    · rw [if_pos hl, if_pos (List.mem_cons_of_mem _ hl)]
    · rw [if_neg hl]
      by_cases hv : w = v
      · rw [if_pos (hv ▸ List.mem_cons_self), ← hv, hlive]
      · rw [if_neg (fun h => (List.mem_cons.1 h).elim hv hl), getF_goLive_other _ (Ne.symm hv)]

end

section
variable {s : State} (hheld : s.pwr.held = []) (m : Nat) (rest : List Nat) (hcommits : s.hif.commits = m :: rest)
include hheld hcommits

theorem decodeBoundary_live (hgood : ∀ w < 8, m.testBit w = true → s.badWindow w = false) :
    ∃ t, exec .decodeBoundary s = .next t ∧ t.isSet F.HIF_WIN_STATUS_REFUSED 0 = false ∧ t.hif.commits = rest ∧
      ∀ w < 8,
        t.getF F.HIF_WIN_LIVE_SIZE_CTL_EN w =
          (if m.testBit w then s.getF F.HIF_WIN_SIZE_CTL_EN w % 2 else s.getF F.HIF_WIN_LIVE_SIZE_CTL_EN w) ∧
        t.getF F.HIF_WIN_LIVE_SIZE_CTL_SIZE w =
          (if m.testBit w then s.getF F.HIF_WIN_SIZE_CTL_SIZE w % 128 else s.getF F.HIF_WIN_LIVE_SIZE_CTL_SIZE w) := by
  obtain ⟨t, ht, same⟩ := decodeBoundary_next hheld
  have hnames : ¬ NamesBadWindow (fresh s) m := fun ⟨w, hw, hm, hbad⟩ => by
    rw [show (fresh s).badWindow w = s.badWindow w from rfl, hgood w hw hm] at hbad
    cases hbad
  have hmem : ∀ w < 8, (w ∈ (List.range 8).filter m.testBit ↔ m.testBit w = true) := fun w hw => by
    rw [List.mem_filter, List.mem_range, and_iff_right hw]
  rw [boundary_of_good (s := fresh s) hcommits hnames] at same
  refine ⟨t, ht, ?_, ?_, fun w hw => ⟨?_, ?_⟩⟩
  · rw [same.isSet, isSet_setB_same _ _ _ _ (by decide)]
  · obtain ⟨x, hx⟩ := same.hif
    rw [hx]
    exact forEach_keeps (P := fun t => t.hif.commits = rest) (fun t w _ ht => by
      obtain ⟨y, hy⟩ := unmasked (goLive_frame t w).hif (by decide +kernel)
      rw [hy]
      exact ht) rfl
  · rw [same.getF, getF_setB_other _ _ (by decide),
      getF_goLives _ (fun u _ => getF_goLive_shadow u (by decide)) (fun u => getF_goLive_en u), if_congr (hmem w hw) rfl rfl,
      countCommit_getF_ne _ _ _ (by decide), countCommit_getF_ne _ _ _ (by decide)]
    rfl
  · rw [same.getF, getF_setB_other _ _ (by decide),
      getF_goLives _ (fun u _ => getF_goLive_shadow u (by decide)) (fun u => getF_goLive_size u), if_congr (hmem w hw) rfl rfl,
      countCommit_getF_ne _ _ _ (by decide), countCommit_getF_ne _ _ _ (by decide)]
    rfl

theorem decodeBoundary_refused (w : Nat) (hw : w < 8) (hm : m.testBit w = true) (hbad : s.badWindow w = true) :
    ∃ t, exec .decodeBoundary s = .next t ∧ t.isSet F.HIF_WIN_STATUS_REFUSED 0 = true ∧
      t.isSet F.HIF_EVT_COMMIT_REJECT 0 = true ∧
      ∀ v, t.isSet F.HIF_WIN_LIVE_SIZE_CTL_EN v = s.isSet F.HIF_WIN_LIVE_SIZE_CTL_EN v := by
  obtain ⟨t, ht, hrefused, hreject, -, hlive⟩ := decodeBoundary_of_bad hheld hcommits ⟨w, hw, hm, hbad⟩
  exact ⟨t, ht, hrefused, hreject, fun v => by rw [State.isSet, hlive _ (by decide) v, State.isSet]⟩

end

theorem windowCommit_next {s : State} (mask : BitVec 8) (hserved : s.pf1Served = true) :
    ∃ t, exec (.windowCommit mask) s = .next t ∧ t.hif.commits = s.hif.commits ++ [mask.toNat] := by
  obtain ⟨t, ht, same⟩ := doneW_next hserved fun t => t.windowCommit mask.toNat
  obtain ⟨x, hx⟩ := same.hif
  obtain ⟨y, hy⟩ := unmasked (flushAsm_frame (fresh s)).hif (by decide +kernel)
  exact ⟨t, ht, by rw [hx, State.windowCommit, hy]; rfl⟩

/-! ### Peer requests -/

section
variable {s : State} (hserved : s.pf0Served = true)
include hserved

theorem peerRead_next (off : BitVec 30) (len : Nat) (x : CacheErr) (u : State) (d : List Nat) (hquiet : s.HostQuiet)
    (hok : s.peerOk off.toNat len F.HIF_WIN_LIVE_SIZE_CTL_RD_EN = true) (htag : x.tag = false)
    (hread : (fresh s).peerLines x (linesOf (s.peerAddr off.toNat) len) = (u, some d)) :
    ∃ t, exec (.peerRead off len x) s = .next t ∧ .cplData ((d.drop (s.peerAddr off.toNat % 64)).take len) ∈ t.out := by
  have hgoes : (if (fresh s).pf0Served then (fresh s).peerRead off.toNat len x else (fresh s).refuseRead) =
      u.emit (.cplData ((d.drop (s.peerAddr off.toNat % 64)).take len)) := by
    rw [if_pos (show (fresh s).pf0Served = true from hserved)]
    unfold State.peerRead
    rw [if_neg (by rw [show (fresh s).peerOk off.toNat len _ = true from hok]; decide), if_neg (by rw [htag]; decide)]
    dsimp only
    rw [show (fresh s).peerLines x (linesOf ((fresh s).peerAddr off.toNat) len) = (u, some d) from hread]
    rfl
  have hu : u.HostQuiet := by
    have hframe := peerLines_frame (fresh s) x (linesOf (s.peerAddr off.toNat) len)
    rw [hread] at hframe
    exact hframe.hostQuiet (by decide +kernel) (by decide +kernel) hquiet
  obtain ⟨t, ht, same⟩ := doneQ_quiet (held_of_served hserved) (f := fun t =>
    if t.pf0Served then t.peerRead off.toNat len x else t.refuseRead) (by
      rw [hgoes]
      exact hostQuiet_of_parts hu rfl rfl)
  rw [hgoes] at same
  exact ⟨t, ht, same.emitted (List.mem_append_right _ List.mem_cons_self)⟩

section
variable (off : BitVec 30) (bytes : List (BitVec 8)) (x : CacheErr)
  (hok : s.peerOk off.toNat bytes.length F.HIF_WIN_LIVE_SIZE_CTL_WR_EN = true)
include hok

/-- A peer write that the window accepts goes by its lines. -/
theorem peerWrite_accepted : ∃ t, exec (.peerWrite off bytes x) s = .next t ∧
    Same (State.advance (if s.peerAddr off.toNat % 64 ≠ 0 ∨ bytes.length % 64 ≠ 0 then
      ((fresh s).logReject 2 off.toNat).raise E.MEM_PARTIAL_DISCARD 0
      else if x.tag then (fresh s).deviceFatal E.LCA_TAG_UE
      else (fresh s).peerPuts (s.peerAddr off.toNat / 64) (bytes.map (·.toNat)) (bytes.length / 64))) t := by
  obtain ⟨t, ht, same⟩ := doneQ_next (held_of_served hserved) fun t =>
    if t.pf0Served then t.peerWrite off.toNat (bytes.map (·.toNat)) x else t
  rw [if_pos (show (fresh s).pf0Served = true from hserved), State.peerWrite, List.length_map,
    if_neg (by rw [show (fresh s).peerOk off.toNat bytes.length _ = true from hok]; decide)] at same
  exact ⟨t, ht, same⟩

theorem peerWrite_next (htag : x.tag = false) (hstart : s.peerAddr off.toNat % 64 = 0) (hlines : bytes.length % 64 = 0) :
    ∃ t, exec (.peerWrite off bytes x) s = .next t ∧
      t.mem = ((fresh s).peerPuts (s.peerAddr off.toNat / 64) (bytes.map (·.toNat)) (bytes.length / 64)).mem := by
  obtain ⟨t, ht, same⟩ := peerWrite_accepted hserved off bytes x hok
  rw [if_neg (not_or.2 ⟨fun h => h hstart, fun h => h hlines⟩), if_neg (by rw [htag]; decide)] at same
  exact ⟨t, ht, same.mem.trans (advance_mem _)⟩

theorem peerWrite_partial (hpart : s.peerAddr off.toNat % 64 ≠ 0 ∨ bytes.length % 64 ≠ 0) :
    ∃ t, exec (.peerWrite off bytes x) s = .next t ∧ t.isSet F.MEM_EVT_PARTIAL_DISCARD 0 = true ∧ t.mem = s.mem := by
  obtain ⟨t, ht, same⟩ := peerWrite_accepted hserved off bytes x hok
  rw [if_pos hpart] at same
  refine ⟨t, ht, ?_, same.mem.trans (advance_mem _)⟩
  rw [same.isSet, isSet_advance _ (by decide) (by decide +kernel)]
  exact isSet_raise_same _ _ E.MEM_PARTIAL_DISCARD rfl (by decide) (by decide)

end

end

/-- Settles O30: one lemma per row, above. -/
theorem windowRows : Obligations.WindowRows := fun _ =>
  ⟨fun off len x u d hserved => peerRead_next hserved off len x u d,
    fun off bytes x hserved hok => peerWrite_next hserved off bytes x hok,
    fun off bytes x hserved hok => peerWrite_partial hserved off bytes x hok, windowCommit_next,
    fun m rest hheld hcommits => decodeBoundary_live hheld m rest hcommits,
    fun m rest w hheld hcommits => decodeBoundary_refused hheld m rest hcommits w⟩

end Sys2Proof.Proofs
end

section
/-!
PROOFS. The scrub and bucket rows of the memory block (R335 to R338): one lemma per row, assembled at the end.
-/
set_option Elab.async false

namespace Sys2Proof.Proofs

open Sys2Proof.Machine Sys2Proof.Laws

theorem dramLines_flushAsm (s : State) : s.flushAsm.dramLines = s.dramLines := by
  rw [State.dramLines, getF_flushAsm _ (by decide) (by decide +kernel), State.dramLines]

theorem scrub_flushAsm (s : State) : s.flushAsm.mem.scrub = s.mem.scrub := by rw [flushAsm_mem]

@[simp] theorem getF_updMem (s : State) (g : MemS → MemS) (f : Field) (i : Nat) : (s.updMem g).getF f i = s.getF f i := rfl

@[simp] theorem isSet_updMem (s : State) (g : MemS → MemS) (f : Field) (i : Nat) : (s.updMem g).isSet f i = s.isSet f i := rfl

/-- A pass over a range begins. -/
def passBegun (s : State) (a b : Nat) : State :=
  (((s.setB F.MEM_DSCRUB_STATUS_BUSY 0 true).setB F.MEM_DSCRUB_STATUS_DONE 0 false).setB F.MEM_DSCRUB_STATUS_STOPPED 0 false).updMem
    fun m => { m with scrub := some { first := a, last := b } }

theorem isSet_passBegun (s : State) (a b : Nat) : (passBegun s a b).isSet F.MEM_DSCRUB_STATUS_BUSY 0 = true ∧
    (passBegun s a b).isSet F.MEM_DSCRUB_STATUS_DONE 0 = false := by
  unfold passBegun
  simp (disch := decide) only [isSet_updMem, isSet_setB_other, isSet_setB_same, and_self]

/-- A request for a pass is refused when one runs, or its range is empty or beyond the installed DRAM. -/
theorem scrubGo_flushAsm (s : State) : s.flushAsm.scrubGo =
    if s.mem.scrub.isSome = true ∨ s.getF F.MEM_DSCRUB_END_LINE 0 < s.getF F.MEM_DSCRUB_START_LINE 0 ∨
        s.dramLines ≤ s.getF F.MEM_DSCRUB_END_LINE 0 then s.flushAsm.memReject
    else passBegun s.flushAsm (s.getF F.MEM_DSCRUB_START_LINE 0) (s.getF F.MEM_DSCRUB_END_LINE 0) := by
  unfold State.scrubGo
  dsimp only
  rw [scrub_flushAsm, dramLines_flushAsm, getF_flushAsm _ (by decide) (by decide +kernel), getF_flushAsm _ (by decide) (by decide +kernel)]
  simp only [Bool.or_eq_true, decide_eq_true_eq, or_assoc]
  rfl

section
variable {s : State} (hserved : s.pf1Served = true)
include hserved

theorem dramScrubGo_next (hnone : s.mem.scrub = none) (hrange : s.getF F.MEM_DSCRUB_START_LINE 0 ≤ s.getF F.MEM_DSCRUB_END_LINE 0)
    (hinstalled : s.getF F.MEM_DSCRUB_END_LINE 0 < s.dramLines) :
    ∃ t, exec .dramScrubGo s = .next t ∧ t.isSet F.MEM_DSCRUB_STATUS_BUSY 0 = true ∧ t.isSet F.MEM_DSCRUB_STATUS_DONE 0 = false ∧
      t.mem.scrub = some { first := s.getF F.MEM_DSCRUB_START_LINE 0, last := s.getF F.MEM_DSCRUB_END_LINE 0 } := by
  obtain ⟨t, ht, same⟩ := doneW_next hserved fun t => t.scrubGo
  have hgo : (fresh s).flushAsm.scrubGo =
      passBegun (fresh s).flushAsm (s.getF F.MEM_DSCRUB_START_LINE 0) (s.getF F.MEM_DSCRUB_END_LINE 0) := by
    rw [scrubGo_flushAsm]
    refine if_neg ?_
    show ¬ (s.mem.scrub.isSome = true ∨ s.getF F.MEM_DSCRUB_END_LINE 0 < s.getF F.MEM_DSCRUB_START_LINE 0 ∨
      s.dramLines ≤ s.getF F.MEM_DSCRUB_END_LINE 0)
    rw [hnone]
    exact not_or.2 ⟨by decide, not_or.2 ⟨Nat.not_lt.2 hrange, Nat.not_le.2 hinstalled⟩⟩
  rw [hgo] at same
  obtain ⟨hbusy, hdone⟩ := isSet_passBegun (fresh s).flushAsm (s.getF F.MEM_DSCRUB_START_LINE 0) (s.getF F.MEM_DSCRUB_END_LINE 0)
  exact ⟨t, ht, by rw [same.isSet, hbusy], by rw [same.isSet, hdone], by rw [same.mem]; rfl⟩

theorem dramScrubGo_rejected (hbad : s.mem.scrub.isSome = true ∨ s.getF F.MEM_DSCRUB_END_LINE 0 < s.getF F.MEM_DSCRUB_START_LINE 0 ∨
      s.dramLines ≤ s.getF F.MEM_DSCRUB_END_LINE 0) :
    ∃ t, exec .dramScrubGo s = .next t ∧ t.isSet F.MEM_EVT_CFG_REJECT 0 = true ∧ t.mem.scrub = s.mem.scrub := by
  obtain ⟨t, ht, same⟩ := doneW_next hserved fun t => t.scrubGo
  rw [scrubGo_flushAsm, fresh_mem, fresh_getF, fresh_getF, show (fresh s).dramLines = s.dramLines from rfl, if_pos hbad] at same
  refine ⟨t, ht, ?_, by rw [same.mem]; exact scrub_flushAsm _⟩
  rw [same.isSet]
  exact isSet_raise_same _ _ E.MEM_CFG_REJECT rfl (by decide) (by decide)

theorem dramScrubStop_next (x : ScrubS) (hscrub : s.mem.scrub = some x) :
    ∃ t, exec .dramScrubStop s = .next t ∧ t.mem.scrub = some { x with stop := true } := by
  obtain ⟨t, ht, same⟩ := doneW_next hserved fun t => t.scrubStop
  refine ⟨t, ht, ?_⟩
  rw [same.mem]
  show (fresh s).flushAsm.mem.scrub.map _ = _
  rw [scrub_flushAsm, fresh_mem, hscrub]
  rfl

theorem bucketReset_next (x : Fin 2) (w : BitVec 32) :
    ∃ t, exec (.bucketReset x w) s = .next t ∧ t.getF F.MEM_CE_STATUS_LEVEL x = 0 ∧
      t.getF F.MEM_CE_CTL_DEPTH x = w.toNat / 2 ^ 16 ∧ t.getF F.MEM_CE_CTL_LEAK x = w.toNat % 2 ^ 16 := by
  obtain ⟨t, ht, same⟩ := doneW_next hserved fun t => t.writeBucket x w.toNat
  have hdepth : bitsOf w.toNat 31 16 = w.toNat / 2 ^ 16 := Nat.mod_eq_of_lt (by have := w.isLt; show _ < 2 ^ 16; omega)
  have hleak : bitsOf w.toNat 15 0 = w.toNat % 2 ^ 16 := by rw [bitsOf, Nat.pow_zero, Nat.div_one]
  rw [State.writeBucket, hdepth, hleak] at same
  refine ⟨t, ht, ?_, ?_, ?_⟩
  · rw [same.getF, getF_setF]
    rfl
  · rw [same.getF, getF_setF_other _ _ (by decide), getF_setF_other _ _ (by decide), getF_setF]
    exact Nat.mod_eq_of_lt (by have := w.isLt; show _ < 2 ^ 16; omega)
  · rw [same.getF, getF_setF_other _ _ (by decide), getF_setF]
    exact Nat.mod_mod ..

end

section
variable {s : State} (hheld : s.pwr.held = [])
include hheld

theorem scrubDone_next (x : ScrubS) (last : BitVec 31) (hscrub : s.mem.scrub = some x) :
    ∃ t, exec (.scrubDone last) s = .next t ∧ t.isSet F.MEM_DSCRUB_STATUS_BUSY 0 = false ∧
      t.isSet F.MEM_DSCRUB_STATUS_DONE 0 = true ∧ t.isSet F.MEM_DSCRUB_STATUS_STOPPED 0 = x.stop ∧
      t.isSet F.MEM_EVT_SCRUB_DONE 0 = true ∧ t.mem.scrub = none ∧
      (x.stop = false → x.first ≤ x.last → x.last < 2 ^ 29 - 1 + x.first →
        t.getF F.MEM_DSCRUB_STATUS_LINES 0 = x.last + 1 - x.first) := by
  obtain ⟨t, ht, same⟩ := done_next hheld fun t => t.scrubDone last.toNat
  unfold State.scrubDone at same
  rw [fresh_mem, hscrub] at same
  dsimp -zeta only at same
  extract_lets e r s1 s2 at same
  refine ⟨t, ht, ?_, ?_, ?_, ?_, by rw [same.mem]; rfl, fun hstop hrange hlt => ?_⟩
  · rw [same.isSet, isSet_raise_other _ _ (by decide) (by decide), isSet_updMem, isSet_setF_other _ _ (by decide),
      isSet_setB_other _ _ (by decide), isSet_setB_other _ _ (by decide), isSet_setB_same _ _ _ _ (by decide)]
  · rw [same.isSet, isSet_raise_other _ _ (by decide) (by decide), isSet_updMem, isSet_setF_other _ _ (by decide),
      isSet_setB_other _ _ (by decide), isSet_setB_same _ _ _ _ (by decide)]
  · rw [same.isSet, isSet_raise_other _ _ (by decide) (by decide), isSet_updMem, isSet_setF_other _ _ (by decide),
      isSet_setB_same _ _ _ _ (by decide)]
  · rw [same.isSet]
    exact isSet_raise_same _ _ E.MEM_SCRUB_DONE rfl (by decide) (by decide)
  · have hend : e = x.last := if_neg (by rw [hstop]; decide)
    have hfits : min (x.last + 1 - x.first) (2 ^ 29 - 1) = x.last + 1 - x.first := Nat.min_eq_left (by omega)
    rw [same.getF, getF_raise_other _ _ (by decide) (by decide), getF_updMem, getF_setF, hend, hfits]
    exact Nat.mod_eq_of_lt (by show _ < 2 ^ 29; omega)

theorem scrubLap_next (ms : Nat) (hon : s.isSet F.MEM_CTL_SSCRUB_EN 0 = true) :
    ∃ t, exec (.scrubLap ms) s = .next t ∧ t.getF F.MEM_SSCRUB_STATUS_LAP 0 = min ms 65535 ∧
      t.getF F.MEM_SSCRUB_STATUS_LAPS 0 = min (s.getF F.MEM_SSCRUB_STATUS_LAPS 0 + 1) (2 ^ 16 - 1) ∧
      (s.getF F.MEM_SSCRUB_LAP_MAX 0 < ms → t.isSet F.MEM_EVT_SCRUB_SLOW 0 = true) := by
  obtain ⟨t, ht, same⟩ := done_next hheld fun t => t.scrubLap ms
  unfold State.scrubLap at same
  rw [if_neg (by rw [show (fresh s).isSet F.MEM_CTL_SSCRUB_EN 0 = true from hon]; decide)] at same
  extract_lets s1 s2 at same
  have hframe : Frame W.scrubEntry (fresh s) s1 := frame_forEach scrubEntry_frame (fresh s) _
  have hmax : s2.getF F.MEM_SSCRUB_LAP_MAX 0 = s.getF F.MEM_SSCRUB_LAP_MAX 0 := by
    rw [getF_count_other _ (by decide), getF_setF_other _ _ (by decide), hframe.getF (by decide) (by decide +kernel)]
    rfl
  refine ⟨t, ht, ?_, ?_, fun hslow => ?_⟩
  · rw [same.getF, getF_ite, getF_raise_other _ _ (by decide) (by decide), ite_self, getF_count_other _ (by decide), getF_setF]
    exact Nat.mod_eq_of_lt (by show _ < 65536; omega)
  · rw [same.getF, getF_ite, getF_raise_other _ _ (by decide) (by decide), ite_self, getF_count_same, getF_setF_other _ _ (by decide),
      hframe.getF (by decide) (by decide +kernel)]
    rfl
  · rw [same.isSet, if_pos (by rw [hmax]; exact hslow)]
    exact isSet_raise_same _ _ E.MEM_SCRUB_SLOW rfl (by decide) (by decide)

theorem bucketLeak_next (x : Fin 2) (hlevel : s.getF F.MEM_CE_STATUS_LEVEL x < 2 ^ 16) :
    ∃ t, exec (.bucketLeak x) s = .next t ∧ t.getF F.MEM_CE_STATUS_LEVEL x = s.getF F.MEM_CE_STATUS_LEVEL x - 1 := by
  obtain ⟨t, ht, same⟩ := done_next hheld fun t => t.leak x
  refine ⟨t, ht, ?_⟩
  rw [same.getF, State.leak, getF_setF]
  exact Nat.mod_eq_of_lt (Nat.lt_of_le_of_lt (Nat.sub_le _ _) hlevel)

end

/-- Settles O32: one lemma per row, above. -/
theorem memoryScrubRows : Obligations.MemoryScrubRows := fun _ =>
  ⟨dramScrubGo_next, dramScrubGo_rejected, fun x hserved => dramScrubStop_next hserved x, fun x last hheld => scrubDone_next hheld x last,
    fun ms hheld => scrubLap_next hheld ms, fun x hheld => bucketLeak_next hheld x, fun x w hserved => bucketReset_next hserved x w⟩

end Sys2Proof.Proofs
end

section
/-!
PROOFS. The table entry rows (R331, R339, R456): one lemma per row, assembled at the end.
-/
set_option Elab.async false

namespace Sys2Proof.Proofs

open Sys2Proof.Machine Sys2Proof.Laws

/-! ### Storing the fields of an entry -/

/-- Storing fields one after another leaves each with its own value, when no field is stored twice. -/
theorem getF_storeFields {l : List FieldAt} (hl : (l.map fun f => f.fld.id).Nodup) (v : FieldAt → Nat) (i : Nat) (s : State) :
    (∀ f ∈ l, (l.foldl (fun t f => t.setF f.fld i (v f)) s).getF f.fld i = v f % 2 ^ f.fld.width) ∧
      ∀ g : Field, g.id ∉ l.map (fun f => f.fld.id) → (l.foldl (fun t f => t.setF f.fld i (v f)) s).getF g i = s.getF g i := by
  induction l generalizing s with
  | nil => exact ⟨fun f hf => absurd hf List.not_mem_nil, fun _ _ => rfl⟩
  | cons x l ih =>
    obtain ⟨hx, hnodup⟩ := List.nodup_cons.1 hl
    obtain ⟨hsame, hother⟩ := ih hnodup (s.setF x.fld i (v x))
    refine ⟨fun f hf => ?_, fun g hg => ?_⟩
    · rcases List.mem_cons.1 hf with rfl | hf
      · exact (hother f.fld hx).trans (getF_setF ..)
      · exact hsame f hf
    · rw [List.map_cons, List.mem_cons, not_or] at hg
      exact (hother g hg.2).trans (getF_setF_other _ _ (Ne.symm hg.1))

/-- An entry that is stored keeps the fields it is given. -/
theorem getF_storeBits (s : State) {r : RegDef} (hr : (r.fields.map fun f => f.fld.id).Nodup) (i w : Nat) {f : FieldAt}
    (hf : f ∈ r.fields) : (s.storeBits r i w true).getF f.fld i =
      (w / 2 ^ f.lo % 2 ^ (f.hi - f.lo + 1) ^^^ fieldFlip f.fld i) % 2 ^ f.fld.width :=
  (getF_storeFields hr (fun f => w / 2 ^ f.lo % 2 ^ (f.hi - f.lo + 1) ^^^ fieldFlip f.fld i) i s).1 f hf

theorem mem_storeBits (s : State) (r : RegDef) (i w : Nat) (all : Bool) : (s.storeBits r i w all).mem = s.mem := by
  unfold State.storeBits
  generalize r.fields = l
  induction l generalizing s with
  | nil => rfl
  | cons f l ih =>
    refine (ih _).trans ?_
    dsimp only
    split <;> rfl

theorem getF_storeEntry (s : State) (r : RegDef) (i w : Nat) (f : Field) (j : Nat) :
    (s.storeEntry r i w).getF f j = (s.storeBits r i w true).getF f j := by
  unfold State.storeEntry
  dsimp only
  split
  · rfl
  · split <;> rfl

theorem asm_storeEntry (s : State) (r : RegDef) (i w : Nat) : (s.storeEntry r i w).mem.asm = s.mem.asm := by
  have hput : (s.putEntry r i w).mem.asm = s.mem.asm := by
    show (s.storeBits r i w true).mem.asm = s.mem.asm
    rw [mem_storeBits]
  unfold State.storeEntry
  dsimp only
  split
  · exact hput
  · split
    · exact hput
    · exact hput

/-- The entries whose fields software may write at any time. -/
def openTables : List RegDef := [R.CLR_COEF, R.CHN_ZONE, R.CHN_EQ_START, R.WRP_POWER]

theorem writeEntry_of_open {r : RegDef} (hr : r ∈ openTables) (s : State) (i w : Nat) : s.writeEntry r i w = s.storeEntry r i w := by
  have hplain : ∀ x ∈ openTables, ¬ (x = R.CLR_COEF_LIVE ∨ x = R.WRP_SPARE) ∧ x ≠ R.LRN_ENTRY ∧ x ≠ R.LRN_SCALE := by decide
  obtain ⟨hro, hentry, hscale⟩ := hplain r hr
  unfold State.writeEntry
  rw [if_neg hro, if_neg hentry, if_neg hscale]

theorem nodup_of_open : ∀ r ∈ openTables, (r.fields.map fun f => f.fld.id).Nodup := by decide

/-! ### Narrow writes -/

/-- A narrow write is logged, and then rejected by the block that owns the entry. -/
theorem narrow_logged (s : State) (a : Nat) :
    Frame W.tableReject ((s.logReject 1 a).raise E.MEM_NARROW_REJECT 0) (s.narrow a) := by
  unfold State.narrow
  dsimp only
  split
  · exact tableReject_frame ..
  · exact Frame.refl ..

theorem isSet_narrow (s : State) (a : Nat) : (s.narrow a).isSet F.MEM_EVT_NARROW_REJECT 0 = true := by
  rw [(narrow_logged s a).isSet (by decide) (by decide +kernel)]
  exact isSet_raise_same _ _ E.MEM_NARROW_REJECT rfl (by decide) (by decide)

theorem kind_narrow (s : State) (a : Nat) : (s.narrow a).getF F.MEM_PWD_LOG_KIND 0 = 1 := by
  rw [(narrow_logged s a).getF (by decide) (by decide +kernel), getF_raise_other _ _ (by decide) (by decide), State.logReject,
    getF_setF_other _ _ (by decide), getF_count_other _ (by decide), getF_setF]
  rfl

theorem addr_narrow (s : State) {a : Nat} (ha : a < 2 ^ 32) : (s.narrow a).getF F.MEM_PWD_ADDR_ADDR 0 = a := by
  rw [(narrow_logged s a).getF (by decide) (by decide +kernel), getF_raise_other _ _ (by decide) (by decide), State.logReject, getF_setF]
  exact Nat.mod_eq_of_lt ha

/-! ### The rows -/

section
variable {s : State} (a : BitVec 27) (hserved : s.pf1Served = true)
include hserved

theorem tableLowWrite_next (w : BitVec 32) (hentry : (tableEntry a.toNat).isSome = true) :
    ∃ t, exec (.tableLowWrite a w) s = .next t ∧ t.mem.asm = some (a.toNat, w.toNat) := by
  obtain ⟨t, ht, same⟩ := doneW_next hserved fun t => t.writeLow a.toNat w.toNat
  rw [State.writeLow, if_pos hentry] at same
  exact ⟨t, ht, by rw [same.mem]; rfl⟩

/-- TABLE_HIGH_WRITE of an entry. -/
theorem tableHighWrite_next (w : BitVec 32) {r : RegDef} {i : Nat} (hentry : tableEntry a.toNat = some (r, i)) :
    ∃ t, exec (.tableHighWrite a w) s = .next t ∧ Same (match s.mem.asm with
      | some p => if p.1 = a.toNat then ((fresh s).updMem fun m => { m with asm := none }).writeEntry r i (p.2 + w.toNat * 2 ^ 32)
        else (fresh s).flushAsm.narrow a.toNat
      | none => (fresh s).narrow a.toNat) t := by
  obtain ⟨t, ht, same⟩ := done_next (held_of_served hserved) fun t => if t.pf1Served then t.writeHigh a.toNat w.toNat else t
  rw [if_pos (show (fresh s).pf1Served = true from hserved), State.writeHigh, hentry] at same
  exact ⟨t, ht, same⟩

theorem tableHighWrite_completes (w : BitVec 32) (lo : Nat) (r : RegDef) (i : Nat) (hasm : s.mem.asm = some (a.toNat, lo))
    (hentry : tableEntry a.toNat = some (r, i)) (hr : r ∈ openTables) :
    ∃ t, exec (.tableHighWrite a w) s = .next t ∧ t.mem.asm = none ∧ ∀ f ∈ r.fields, t.getF f.fld i =
      ((lo + w.toNat * 2 ^ 32) / 2 ^ f.lo % 2 ^ (f.hi - f.lo + 1) ^^^ fieldFlip f.fld i) % 2 ^ f.fld.width := by
  obtain ⟨t, ht, same⟩ := tableHighWrite_next a hserved w hentry
  rw [hasm] at same
  dsimp only at same
  rw [if_pos rfl, writeEntry_of_open hr] at same
  refine ⟨t, ht, by rw [same.mem, asm_storeEntry]; rfl, fun f hf => ?_⟩
  rw [same.getF, getF_storeEntry, getF_storeBits _ (nodup_of_open r hr) _ _ hf]

theorem tableHighWrite_narrow (w : BitVec 32) (r : RegDef) (i : Nat) (hasm : s.mem.asm = none)
    (hentry : tableEntry a.toNat = some (r, i)) :
    ∃ t, exec (.tableHighWrite a w) s = .next t ∧ t.isSet F.MEM_EVT_NARROW_REJECT 0 = true ∧
      t.getF F.MEM_PWD_LOG_KIND 0 = 1 ∧ t.getF F.MEM_PWD_ADDR_ADDR 0 = a.toNat := by
  obtain ⟨t, ht, same⟩ := tableHighWrite_next a hserved w hentry
  rw [hasm] at same
  exact ⟨t, ht, by rw [same.isSet, isSet_narrow], by rw [same.getF, kind_narrow],
    by rw [same.getF, addr_narrow _ (by have := a.isLt; omega)]⟩

theorem tableLowRead_next (r : RegDef) (i : Nat) (hentry : tableEntry a.toNat = some (r, i)) (hraw : s.rawSram = false)
    (hgood : s.mem.badChk = []) :
    ∃ t, exec (.tableLowRead a) s = .next t ∧ .regData (s.storedBits r i % 2 ^ 32) ∈ t.out ∧
      t.mem.latch = some (a.toNat, s.storedBits r i / 2 ^ 32) := by
  obtain ⟨t, ht, same⟩ := done_next (held_of_served hserved) fun t => if t.pf1Served then t.readLow a.toNat else t.refuseRead
  have hfetch : (fresh s).fetchEntry r i = (fresh s, s.storedBits r i) := by
    unfold State.fetchEntry
    rw [if_neg (by rw [show (fresh s).rawSram = s.rawSram from rfl, hraw]; decide), State.readEntryFree, State.readEntry,
      if_pos (by rw [fresh_mem, hgood]; rfl)]
    rfl
  rw [if_pos (show (fresh s).pf1Served = true from hserved), State.readLow, hentry] at same
  dsimp only at same
  rw [hfetch] at same
  exact ⟨t, ht, same.emitted (List.mem_append_right _ List.mem_cons_self), by rw [same.mem]; rfl⟩

end

theorem tableLowRead_refused {s : State} (a : BitVec 27) (hserved : s.pf1Served = false) (hheld : s.pwr.held = [])
    (hlink : s.isSet F.HIF_LINK_DL_ACTIVE 0 = true) : ∃ t, exec (.tableLowRead a) s = .next t ∧ .cplUr ∈ t.out := by
  obtain ⟨t, ht, same⟩ := done_next hheld fun t => if t.pf1Served then t.readLow a.toNat else t.refuseRead
  rw [if_neg (by rw [show (fresh s).pf1Served = false from hserved]; decide), State.refuseRead,
    if_pos (show (fresh s).isSet F.HIF_LINK_DL_ACTIVE 0 = true from hlink)] at same
  exact ⟨t, ht, same.emitted (List.mem_append_right _ List.mem_cons_self)⟩

theorem narrowWriteTimeout_next {s : State} (p : Nat × Nat) (hheld : s.pwr.held = []) (hasm : s.mem.asm = some p) :
    ∃ t, exec .narrowWriteTimeout s = .next t ∧ t.mem.asm = none ∧ t.isSet F.MEM_EVT_NARROW_REJECT 0 = true := by
  obtain ⟨t, ht, same⟩ := done_next hheld fun t => t.flushAsm
  refine ⟨t, ht, by rw [same.mem, flushAsm_mem], ?_⟩
  rw [same.isSet, State.flushAsm, fresh_mem, hasm]
  exact isSet_narrow ..

/-- Settles O33: one lemma per row, above. -/
theorem tableRows : Obligations.TableRows := fun _ a =>
  ⟨fun w hserved => tableLowWrite_next a hserved w, fun w lo r i hserved => tableHighWrite_completes a hserved w lo r i,
    fun w r i hserved => tableHighWrite_narrow a hserved w r i, narrowWriteTimeout_next,
    fun r i hserved => tableLowRead_next a hserved r i, tableLowRead_refused a⟩

end Sys2Proof.Proofs
end

section
/-!
PROOFS. The DRAM test mode (R339): one lemma per row, assembled at the end.
-/
set_option Elab.async false

namespace Sys2Proof.Proofs

open Sys2Proof.Machine Sys2Proof.Laws

/-! ### Runs of registers -/

theorem getF_putRegBytes_same (s : State) (f : Field) {n i : Nat} (hi : i < n) (bs : List Nat) :
    (s.putRegBytes f n bs).getF f i = ofLeBytes ((bs.drop (4 * i)).take 4) % 2 ^ f.width :=
  forEach_range_reads (P := fun _ => True) (read := fun t => t.getF f i) hi trivial (fun _ _ _ _ => trivial)
    (fun _ _ => getF_setF ..) fun _ _ _ hne => getF_setF_inst _ _ (Nat.ne_of_gt hne)

theorem getF_putRegBytes_other (s : State) {f g : Field} (hne : f.id ≠ g.id) (n i : Nat) (bs : List Nat) :
    (s.putRegBytes f n bs).getF g i = s.getF g i :=
  forEach_keeps (P := fun t => t.getF g i = s.getF g i) (fun _ _ _ ht => (getF_setF_other _ _ hne).trans ht) rfl

theorem mem_putRegBytes (s : State) (f : Field) (n : Nat) (bs : List Nat) : (s.putRegBytes f n bs).mem = s.mem :=
  forEach_keeps (P := fun t => t.mem = s.mem) (fun _ _ _ ht => ht) rfl

theorem regBytes_flushAsm (s : State) (n : Nat) {f : Field} (hl : f.id < 20000) (hm : W.flushAsm.testBit f.id = false) :
    s.flushAsm.regBytes f n = s.regBytes f n := by
  unfold State.regBytes
  simp only [getF_flushAsm _ hl hm]

theorem testMay_flushAsm (s : State) : s.flushAsm.testMay = s.testMay := by
  rw [State.testMay, isSet_flushAsm _ (by decide) (by decide +kernel), isSet_flushAsm _ (by decide) (by decide +kernel), State.testMay]

theorem uncache_of_none {s : State} {n : Nat} (h : s.cached n = none) : s.uncache n = s := by rw [State.uncache, h]

theorem cached_flushAsm (s : State) (n : Nat) : s.flushAsm.cached n = s.cached n := by
  rw [State.cached, State.cache, flushAsm_mem]
  rfl

/-! ### The rows -/

section
variable {s : State} (hserved : s.pf1Served = true) (hmay : s.testMay = true)
include hserved hmay

/-- A test operation on a line that does not exist stops. -/
theorem testOp_absent (f : State → State) (habsent : s.dramLines ≤ s.getF F.MEM_TEST_LINE_LINE 0) :
    testOp s f = .fault .dramAddress := by
  unfold testOp
  rw [if_pos (by rw [hserved, hmay, decide_eq_true habsent]; rfl)]

/-- A test operation on a line that exists goes on. -/
theorem testOp_next (f : State → State) (hexists : s.getF F.MEM_TEST_LINE_LINE 0 < s.dramLines) :
    ∃ t, testOp s f = .next t ∧ Same (f (fresh s).flushAsm) t := by
  obtain ⟨t, ht, same⟩ := doneW_next hserved fun t => if t.testMay then f t else t
  rw [if_pos (by rw [testMay_flushAsm]; exact hmay)] at same
  refine ⟨t, ?_, same⟩
  unfold testOp
  rw [if_neg (by rw [decide_eq_false (Nat.not_le.2 hexists), Bool.and_false]; decide), ht]

variable (hexists : s.getF F.MEM_TEST_LINE_LINE 0 < s.dramLines) (hcached : s.cached (s.getF F.MEM_TEST_LINE_LINE 0) = none)
include hexists hcached

theorem testRawWrite_next : ∃ t, exec .testRawWrite s = .next t ∧ t.isSet F.MEM_TEST_CTL_BUSY 0 = true ∧
    t.mem.dram = memWrite s.mem.dram (64 * s.getF F.MEM_TEST_LINE_LINE 0) (s.regBytes F.MEM_TEST_DATA_BYTES 16) ∧
    t.mem.chk = memWrite s.mem.chk (16 * s.getF F.MEM_TEST_LINE_LINE 0)
      (xorBytes (s.regBytes F.MEM_TEST_CHK_BYTES 4) (lineCheckBytes (s.regBytes F.MEM_TEST_DATA_BYTES 16))) := by
  obtain ⟨t, ht, same⟩ := testOp_next hserved hmay State.rawWrite hexists
  have heq : (fresh s).flushAsm.rawWrite = ((fresh s).flushAsm.putBurst (s.getF F.MEM_TEST_LINE_LINE 0)
      (s.regBytes F.MEM_TEST_DATA_BYTES 16)
      (xorBytes (s.regBytes F.MEM_TEST_CHK_BYTES 4) (lineCheckBytes (s.regBytes F.MEM_TEST_DATA_BYTES 16)))).setB F.MEM_TEST_CTL_BUSY 0 true := by
    unfold State.rawWrite
    dsimp only
    rw [getF_flushAsm _ (by decide) (by decide +kernel), regBytes_flushAsm _ _ (by decide) (by decide +kernel),
      regBytes_flushAsm _ _ (by decide) (by decide +kernel), fresh_getF, uncache_of_none ((cached_flushAsm (fresh s) _).trans hcached)]
    rfl
  rw [heq] at same
  refine ⟨t, ht, by rw [same.isSet, isSet_setB_same _ _ _ _ (by decide)], ?_, ?_⟩
  · rw [same.mem]
    show memWrite (fresh s).flushAsm.mem.dram _ _ = _
    rw [flushAsm_mem]
    rfl
  · rw [same.mem]
    show memWrite (fresh s).flushAsm.mem.chk _ _ = _
    rw [flushAsm_mem]
    rfl

theorem testRawRead_next : ∃ t, exec .testRawRead s = .next t ∧ t.isSet F.MEM_TEST_CTL_BUSY 0 = true ∧ t.mem.dram = s.mem.dram ∧
    ∀ i < 16, t.getF F.MEM_TEST_DATA_BYTES i =
      ofLeBytes (((s.lineData (s.getF F.MEM_TEST_LINE_LINE 0)).drop (4 * i)).take 4) % 2 ^ 32 := by
  obtain ⟨t, ht, same⟩ := testOp_next hserved hmay State.rawRead hexists
  have heq : ∃ bs, (fresh s).flushAsm.rawRead =
      (((fresh s).flushAsm.putRegBytes F.MEM_TEST_DATA_BYTES 16 (s.lineData (s.getF F.MEM_TEST_LINE_LINE 0))).putRegBytes
        F.MEM_TEST_CHK_BYTES 4 bs).setB F.MEM_TEST_CTL_BUSY 0 true := by
    unfold State.rawRead
    dsimp only
    rw [getF_flushAsm _ (by decide) (by decide +kernel), fresh_getF, uncache_of_none ((cached_flushAsm (fresh s) _).trans hcached),
      show (fresh s).flushAsm.lineData (s.getF F.MEM_TEST_LINE_LINE 0) = s.lineData (s.getF F.MEM_TEST_LINE_LINE 0) by
        rw [State.lineData, flushAsm_mem]
        rfl]
    exact ⟨_, rfl⟩
  obtain ⟨bs, heq⟩ := heq
  rw [heq] at same
  refine ⟨t, ht, by rw [same.isSet, isSet_setB_same _ _ _ _ (by decide)], ?_, fun i hi => ?_⟩
  · rw [same.mem, setB_mem, mem_putRegBytes, mem_putRegBytes, flushAsm_mem]
    rfl
  · rw [same.getF, getF_setB_other _ _ (by decide), getF_putRegBytes_other _ (by decide), getF_putRegBytes_same _ _ hi]
    rfl

end

theorem testOpDone_next {s : State} (hheld : s.pwr.held = []) :
    ∃ t, exec .testOpDone s = .next t ∧ t.isSet F.MEM_TEST_CTL_BUSY 0 = false := by
  obtain ⟨t, ht, same⟩ := done_next hheld fun t => t.setB F.MEM_TEST_CTL_BUSY 0 false
  exact ⟨t, ht, by rw [same.isSet, isSet_setB_same _ _ _ _ (by decide)]⟩

/-- Settles O34: one lemma per row, above. -/
theorem dramTestRows : Obligations.DramTestRows := fun _ =>
  ⟨fun hserved hmay hexists hcached =>
      ⟨testRawWrite_next hserved hmay hexists hcached, testRawRead_next hserved hmay hexists hcached⟩,
    fun hserved hmay habsent => ⟨testOp_absent hserved hmay _ habsent, testOp_absent hserved hmay _ habsent⟩, testOpDone_next⟩

end Sys2Proof.Proofs
end

section
/-!
PROOFS. The lode cache rows (R341, R344 to R348): one lemma per row, assembled at the end.
-/
set_option Elab.async false

namespace Sys2Proof.Proofs

open Sys2Proof.Machine Sys2Proof.Laws

/-! ### What a held low word that is rejected leaves of the cache -/

section
variable (s : State) (w : Nat)

@[simp] theorem wayOn_flushAsm : s.flushAsm.wayOn w = s.wayOn w := bitF_flushAsm _ (by decide) (by decide +kernel)

@[simp] theorem wayOffAsked_flushAsm : s.flushAsm.wayOffAsked w = s.wayOffAsked w := bitF_flushAsm _ (by decide) (by decide +kernel)

@[simp] theorem wayLocked_flushAsm : s.flushAsm.wayLocked w = s.wayLocked w := bitF_flushAsm _ (by decide) (by decide +kernel)

@[simp] theorem ways_flushAsm : s.flushAsm.ways = s.ways := getF_flushAsm _ (by decide) (by decide +kernel)

@[simp] theorem waysLeft_flushAsm : s.flushAsm.waysLeft w = s.waysLeft w := by
  simp only [State.waysLeft, wayOn_flushAsm, wayOffAsked_flushAsm]

@[simp] theorem lcaBusy_flushAsm : s.flushAsm.lcaBusy = s.lcaBusy := isSet_flushAsm _ (by decide) (by decide +kernel)

@[simp] theorem cache_flushAsm : s.flushAsm.cache = s.cache := by rw [State.cache, flushAsm_mem, State.cache]

end

/-! ### Way power -/

/-- A way's bit that is written reads what was written. -/
theorem bitF_putF_way (s : State) {f : Field} (hf : f.width = 16) (w : Fin 16) (v : Bool) : (s.putF f 0 w v).bitF f 0 w = v :=
  bitF_putF_same s _ _ _ _ (by rw [hf]; exact w.isLt)

section
variable {s : State} (hserved : s.pf1Served = true) (w : Fin 16) (x : CacheErr)
include hserved

theorem wayPowerDown_next (hnot : s.wayOffAsked w = false) (hway : w < s.ways) (hopen : s.wayLocked w = false) (hleft : 2 ≤ s.waysLeft w) :
    ∃ t, exec (.wayPowerDown w x) s = .next t ∧ t.wayOffAsked w = true := by
  obtain ⟨t, ht, same⟩ := doneW_next hserved fun t => (t.wayDown w x).tagCheck x
  refine ⟨t, ht, ?_⟩
  have hdown : ∃ u, Frame W.emptyWay ((fresh s).flushAsm.putF F.LCA_WAY_CTL_OFF 0 w true) u ∧ (fresh s).flushAsm.wayDown w x = u := by
    unfold State.wayDown
    dsimp only
    rw [if_neg (by rw [wayOffAsked_flushAsm, show (fresh s).wayOffAsked w = false from hnot]; decide),
      if_neg (by rw [ways_flushAsm]; exact Nat.not_le.2 hway), if_neg (by
        rw [wayLocked_flushAsm, waysLeft_flushAsm, show (fresh s).wayLocked w = false from hopen,
          show (fresh s).waysLeft w = s.waysLeft w from rfl, decide_eq_false (by omega)]
        decide)]
    split
    · exact ⟨_, Frame.refl .., rfl⟩
    · exact ⟨_, emptyWay_frame .., rfl⟩
  obtain ⟨u, hframe, hu⟩ := hdown
  rw [State.wayOffAsked, same.bitF, (tagCheck_frame ..).bitF (by decide) (by decide +kernel), hu,
    hframe.bitF (by decide) (by decide +kernel), bitF_putF_way _ rfl]

theorem wayPowerDown_rejected (hnot : s.wayOffAsked w = false) (hway : w < s.ways) (hbad : s.wayLocked w = true ∨ s.waysLeft w < 2) :
    ∃ t, exec (.wayPowerDown w x) s = .next t ∧ t.isSet F.LCA_EVT_CFG_REJECT 0 = true ∧ t.wayOffAsked w = false := by
  obtain ⟨t, ht, same⟩ := doneW_next hserved fun t => (t.wayDown w x).tagCheck x
  have hdown : (fresh s).flushAsm.wayDown w x = (fresh s).flushAsm.lcaReject := by
    unfold State.wayDown
    dsimp only
    rw [if_neg (by rw [wayOffAsked_flushAsm, show (fresh s).wayOffAsked w = false from hnot]; decide),
      if_neg (by rw [ways_flushAsm]; exact Nat.not_le.2 hway)]
    refine if_pos ?_
    rw [wayLocked_flushAsm, waysLeft_flushAsm, Bool.or_eq_true, decide_eq_true_eq]
    exact hbad
  rw [hdown] at same
  refine ⟨t, ht, ?_, ?_⟩
  · rw [same.isSet, (tagCheck_frame ..).isSet (by decide) (by decide +kernel)]
    exact isSet_raise_same _ _ E.LCA_CFG_REJECT rfl (by decide) (by decide)
  · rw [State.wayOffAsked, same.bitF, (tagCheck_frame ..).bitF (by decide) (by decide +kernel), State.lcaReject,
      bitF_raise_other _ _ _ (by decide) (by decide)]
    exact (wayOffAsked_flushAsm (fresh s) w).trans hnot

theorem wayPowerUp_next : ∃ t, exec (.wayPowerUp w) s = .next t ∧ t.wayOffAsked w = false := by
  obtain ⟨t, ht, same⟩ := doneW_next hserved fun t => t.wayUp w
  exact ⟨t, ht, by rw [State.wayOffAsked, same.bitF, State.wayUp, bitF_putF_way _ rfl]⟩

end

theorem wayOff_next {s : State} (w : Fin 16) (x : CacheErr) (hheld : s.pwr.held = []) (hasked : s.wayOffAsked w = true)
    (hon : s.wayOn w = true) (hfree : s.lcaBusy = false) (hway : w < s.ways) :
    ∃ t, exec (.wayOff w x) s = .next t ∧ t.wayOn w = false ∧ t.isSet F.LCA_EVT_WAY_OFF 0 = true := by
  obtain ⟨t, ht, same⟩ := done_next hheld fun t => (t.wayOffDone w x).tagCheck x
  rw [State.wayOffDone, if_pos (by
    show (s.wayOffAsked w && s.wayOn w && !s.lcaBusy && decide (w.val < s.ways)) = true
    rw [hasked, hon, hfree, decide_eq_true hway]
    rfl)] at same
  refine ⟨t, ht, ?_, ?_⟩
  · rw [State.wayOn, same.bitF, (tagCheck_frame ..).bitF (by decide) (by decide +kernel), bitF_raise_other _ _ _ (by decide) (by decide),
      bitF_putF_way _ rfl]
  · rw [same.isSet, (tagCheck_frame ..).isSet (by decide) (by decide +kernel)]
    exact isSet_raise_same _ _ E.LCA_WAY_OFF rfl (by decide) (by decide)

theorem wayOn_next {s : State} (w : Fin 16) (hheld : s.pwr.held = []) (hasked : s.wayOffAsked w = false) (hoff : s.wayOn w = false)
    (hway : w < s.ways) : ∃ t, exec (.wayOn w) s = .next t ∧ t.wayOn w = true := by
  obtain ⟨t, ht, same⟩ := done_next hheld fun t => t.wayOnDone w
  rw [State.wayOnDone, if_pos (by
    show (!s.wayOffAsked w && !s.wayOn w && decide (w.val < s.ways)) = true
    rw [hasked, hoff, decide_eq_true hway]
    rfl)] at same
  exact ⟨t, ht, by rw [State.wayOn, same.bitF, bitF_putF_way _ rfl]⟩

/-! ### Maintenance -/

section
variable (s : State) (l : CacheLine) (x : CacheErr)

theorem mem_cacheInsert (ls : List CacheLine) : l ∈ cacheInsert l ls := by
  induction ls with
  | nil => exact List.mem_cons_self
  | cons y ys ih =>
    unfold cacheInsert
    split
    · exact List.mem_cons_self
    · exact List.mem_cons_of_mem _ ih

theorem lca_writeBack : (s.writeBack l x).mem.lca = s.mem.lca := by
  unfold State.writeBack
  split
  · rfl
  · split <;> rfl

theorem tagCheck_of_clean {x : CacheErr} (h : x.tag = false) : s.tagCheck x = s := if_neg (by rw [h]; decide)

/-- An operation on a line that is not locked. -/
def lineOp (s : State) (op : LcaOp) (x : CacheErr) (l : CacheLine) : State :=
  match op with
  | .clean => (s.cleanLine l x).lcaCount l.dirty.toNat 0
  | .invalidate => (s.dropLine l.way l.set).lcaCount 1 0
  | .cleanInvalidate => (s.evict l x).lcaCount 1 0

/-- The operation on a line by its place, once it is accepted. -/
theorem lcaMaintain_place {s : State} {l : CacheLine} {x : CacheErr} (op : LcaOp) (force : Bool) (hfree : s.lcaBusy = false)
    (hline : s.lineAt (s.getF F.LCA_OP_START_LINE 0 % 16) (s.getF F.LCA_OP_START_LINE 0 / 16 % 8192) = some l)
    (hopen : s.wayLocked l.way = false) (htag : x.tag = false) : s.lcaMaintain op true force x = lineOp s.lcaStart op x l := by
  unfold State.lcaMaintain
  dsimp only
  have hlocked : s.lcaStart.wayLocked l.way = false := ((lcaStart_frame s).bitF (by decide) (by decide +kernel)).trans hopen
  rw [if_neg (by rw [hfree]; decide), if_pos rfl, tagCheck_of_clean _ htag,
    show s.lcaStart.lineAt (s.getF F.LCA_OP_START_LINE 0 % 16) (s.getF F.LCA_OP_START_LINE 0 / 16 % 8192) = some l from hline]
  dsimp only
  unfold State.placeLine
  rw [if_neg (by rw [hlocked, Bool.false_and]; decide)]
  cases op <;> rfl

theorem isSet_lcaStart : s.lcaStart.isSet F.LCA_OP_STATUS_BUSY 0 = true := by
  show (((s.setB F.LCA_OP_STATUS_BUSY 0 true).setB F.LCA_OP_STATUS_DONE 0 false).setB F.LCA_OP_STATUS_REFUSED 0 false).isSet _ _ = true
  rw [isSet_setB_other _ _ (by decide), isSet_setB_other _ _ (by decide), isSet_setB_same _ _ _ _ (by decide)]

/-- What GO writes of LCA_OP. -/
theorem lcaFields_reads (op : Nat) (place force : Bool) (way : Nat) : (s.lcaFields op place force way).getF F.LCA_OP_OP 0 = op % 8 ∧
    (s.lcaFields op place force way).getF F.LCA_OP_WAY 0 = way % 16 := by
  unfold State.lcaFields
  simp (disch := decide) only [getF_setF, getF_setF_other, getF_setB_other]
  exact ⟨rfl, rfl⟩

end

/-- What an operation on a line may change. -/
def lineOps : Nat := W.cleanLine ||| W.evict ||| W.dropLine ||| W.lcaCount

/-- What an operation on a line runs from: GO's fields are stored. -/
def goState (s : State) (op : Nat) (place force : Bool) (way : Nat) : State := (fresh s).flushAsm.lcaFields op place force way

section
variable (s : State) (op : Nat) (place force : Bool) (way w : Nat)

theorem lcaBusy_goState : (goState s op place force way).lcaBusy = s.lcaBusy :=
  ((lcaFields_frame ..).isSet (by decide) (by decide +kernel)).trans (lcaBusy_flushAsm _)

theorem wayLocked_goState : (goState s op place force way).wayLocked w = s.wayLocked w :=
  ((lcaFields_frame ..).bitF (by decide) (by decide +kernel)).trans (wayLocked_flushAsm ..)

theorem getF_goState {f : Field} (hl : f.id < 20000) (hm : (W.lcaFields ||| W.flushAsm).testBit f.id = false) :
    (goState s op place force way).getF f w = s.getF f w := by
  rw [Nat.testBit_or, Bool.or_eq_false_iff] at hm
  exact ((lcaFields_frame ..).getF hl hm.1).trans (getF_flushAsm _ hl hm.2)

theorem cache_goState : (goState s op place force way).cache = s.cache := cache_flushAsm (fresh s)

theorem preloadRefused_goState :
    (goState s op place force way).preloadRefused w = s.preloadRefused w := by
  have hon : (goState s op place force way).wayOn w = s.wayOn w :=
    ((lcaFields_frame ..).bitF (by decide) (by decide +kernel)).trans (wayOn_flushAsm ..)
  have hasked : (goState s op place force way).wayOffAsked w = s.wayOffAsked w :=
    ((lcaFields_frame ..).bitF (by decide) (by decide +kernel)).trans (wayOffAsked_flushAsm ..)
  unfold State.preloadRefused
  rw [wayLocked_goState, hon, hasked, State.ways, getF_goState _ _ _ _ _ _ (by decide) (by decide +kernel),
    getF_goState _ _ _ _ _ _ (by decide) (by decide +kernel), getF_goState _ _ _ _ _ _ (by decide) (by decide +kernel)]
  rfl

theorem dram_goState : (goState s op place force way).mem.dram = s.mem.dram := by
  show (fresh s).flushAsm.mem.dram = _
  rw [flushAsm_mem]
  rfl

end

theorem lineOp_frame (s : State) (op : LcaOp) (x : CacheErr) (l : CacheLine) : Frame lineOps s (lineOp s op x l) := by
  cases op with
  | clean => exact (lcaCount_frame ..).step ((cleanLine_frame s l x).mono (by decide +kernel)) (by decide +kernel)
  | invalidate => exact (lcaCount_frame ..).step ((dropLine_frame s l.way l.set).mono (by decide +kernel)) (by decide +kernel)
  | cleanInvalidate => exact (lcaCount_frame ..).step ((evict_frame s l x).mono (by decide +kernel)) (by decide +kernel)

/-- GO's fields and BUSY stand after the operation. -/
theorem goState_reads (s : State) (force : Bool) (n way : Nat) (op : LcaOp) (x : CacheErr) (l : CacheLine) :
    (lineOp (goState s n true force way).lcaStart op x l).lcaBusy = true ∧
      (lineOp (goState s n true force way).lcaStart op x l).getF F.LCA_OP_OP 0 = n % 8 := by
  have hframe := lineOp_frame (goState s n true force way).lcaStart op x l
  refine ⟨?_, ?_⟩
  · rw [State.lcaBusy, hframe.isSet (by decide) (by decide +kernel), isSet_lcaStart]
  · rw [hframe.getF (by decide) (by decide +kernel), (lcaStart_frame _).getF (by decide) (by decide +kernel)]
    exact (lcaFields_reads ..).1

section
variable {s : State} (hserved : s.pf1Served = true) (force : Bool) (x : CacheErr) (l : CacheLine) (hfree : s.lcaBusy = false)
  (htag : x.tag = false) (hline : s.lineAt (s.getF F.LCA_OP_START_LINE 0 % 16) (s.getF F.LCA_OP_START_LINE 0 / 16 % 8192) = some l)
  (hopen : s.wayLocked l.way = false)
include hfree htag hline hopen

/-- GO for a line by its place is accepted. -/
theorem goState_place (op : LcaOp) (n way : Nat) : (goState s n true force way).lcaMaintain op true force x =
    lineOp (goState s n true force way).lcaStart op x l := by
  refine lcaMaintain_place op force ((lcaBusy_goState ..).trans hfree) ?_ ((wayLocked_goState ..).trans hopen) htag
  rw [getF_goState _ _ _ _ _ _ (by decide) (by decide +kernel), State.lineAt, cache_goState]
  exact hline

include hserved

theorem lcaInvalidate_next : ∃ t, exec (.lcaInvalidate true force x) s = .next t ∧ t.lcaBusy = true ∧ t.getF F.LCA_OP_OP 0 = 2 ∧
    t.mem.lca.result = (1, 0) ∧ t.mem.dram = s.mem.dram ∧ t.cache = s.cache.filter fun m => ¬ (m.way = l.way ∧ m.set = l.set) := by
  obtain ⟨t, ht, same⟩ := doneW_next hserved fun t =>
    (t.lcaFields 2 true force (t.getF F.LCA_OP_WAY 0)).lcaMaintain .invalidate true force x
  have hgo := goState_place force x l hfree htag hline hopen .invalidate 2 ((fresh s).flushAsm.getF F.LCA_OP_WAY 0)
  rw [show (fresh s).flushAsm.lcaFields 2 true force _ = goState s 2 true force _ from rfl, hgo] at same
  obtain ⟨hbusy, hop⟩ := goState_reads s force 2 ((fresh s).flushAsm.getF F.LCA_OP_WAY 0) .invalidate x l
  refine ⟨t, ht, by rw [State.lcaBusy, same.isSet]; exact hbusy, by rw [same.getF, hop], by rw [same.mem]; rfl, ?_, ?_⟩
  · rw [same.mem]
    exact dram_goState s 2 true force ((fresh s).flushAsm.getF F.LCA_OP_WAY 0)
  · rw [State.cache, same.mem]
    exact congrArg (List.filter fun m : CacheLine => ¬ (m.way = l.way ∧ m.set = l.set))
      (cache_goState s 2 true force ((fresh s).flushAsm.getF F.LCA_OP_WAY 0))

theorem lcaCleanInvalidate_next : ∃ t, exec (.lcaCleanInvalidate true force x) s = .next t ∧ t.lcaBusy = true ∧
    t.getF F.LCA_OP_OP 0 = 3 ∧ t.mem.lca.result = (1, 0) ∧ t.cache = s.cache.filter fun m => ¬ (m.way = l.way ∧ m.set = l.set) := by
  obtain ⟨t, ht, same⟩ := doneW_next hserved fun t =>
    (t.lcaFields 3 true force (t.getF F.LCA_OP_WAY 0)).lcaMaintain .cleanInvalidate true force x
  have hgo := goState_place force x l hfree htag hline hopen .cleanInvalidate 3 ((fresh s).flushAsm.getF F.LCA_OP_WAY 0)
  rw [show (fresh s).flushAsm.lcaFields 3 true force _ = goState s 3 true force _ from rfl, hgo] at same
  obtain ⟨hbusy, hop⟩ := goState_reads s force 3 ((fresh s).flushAsm.getF F.LCA_OP_WAY 0) .cleanInvalidate x l
  have hlca := lca_writeBack (goState s 3 true force ((fresh s).flushAsm.getF F.LCA_OP_WAY 0)).lcaStart l x
  refine ⟨t, ht, by rw [State.lcaBusy, same.isSet]; exact hbusy, by rw [same.getF, hop], ?_, ?_⟩
  · rw [same.mem]
    exact (congrArg (fun y : LcaS => (y.result.1 + 1, y.result.2 + 0)) hlca).trans rfl
  · rw [State.cache, same.mem]
    exact (congrArg (fun y : LcaS => y.lines.filter fun m => ¬ (m.way = l.way ∧ m.set = l.set)) hlca).trans
      (congrArg (List.filter fun m : CacheLine => ¬ (m.way = l.way ∧ m.set = l.set))
        (cache_goState s 3 true force ((fresh s).flushAsm.getF F.LCA_OP_WAY 0)))

theorem lcaClean_next : ∃ t, exec (.lcaClean true force x) s = .next t ∧ t.lcaBusy = true ∧ t.getF F.LCA_OP_OP 0 = 1 ∧
    t.mem.lca.result = (l.dirty.toNat, 0) ∧ { l with dirty := false } ∈ t.cache := by
  obtain ⟨t, ht, same⟩ := doneW_next hserved fun t =>
    (t.lcaFields 1 true force (t.getF F.LCA_OP_WAY 0)).lcaMaintain .clean true force x
  have hgo := goState_place force x l hfree htag hline hopen .clean 1 ((fresh s).flushAsm.getF F.LCA_OP_WAY 0)
  rw [show (fresh s).flushAsm.lcaFields 1 true force _ = goState s 1 true force _ from rfl, hgo] at same
  obtain ⟨hbusy, hop⟩ := goState_reads s force 1 ((fresh s).flushAsm.getF F.LCA_OP_WAY 0) .clean x l
  have hlca := lca_writeBack (goState s 1 true force ((fresh s).flushAsm.getF F.LCA_OP_WAY 0)).lcaStart l x
  refine ⟨t, ht, by rw [State.lcaBusy, same.isSet]; exact hbusy, by rw [same.getF, hop], ?_, ?_⟩
  · rw [same.mem]
    refine (congrArg (fun y : LcaS => (y.result.1 + l.dirty.toNat, y.result.2 + 0)) hlca).trans ?_
    exact Prod.ext (Nat.zero_add _) rfl
  · rw [State.cache, same.mem]
    exact mem_cacheInsert ..

end

section
variable {s : State} (hserved : s.pf1Served = true)
include hserved

/-- While an operation runs, another is rejected. -/
theorem lcaMaintain_rejected (op : LcaOp) (n : Nat) (place force : Bool) (x : CacheErr) (hbusy : s.lcaBusy = true) :
    ∃ t, (doneW s fun t => (t.lcaFields n place force (t.getF F.LCA_OP_WAY 0)).lcaMaintain op place force x) = .next t ∧
      t.isSet F.LCA_EVT_CFG_REJECT 0 = true := by
  obtain ⟨t, ht, same⟩ := doneW_next hserved fun t => (t.lcaFields n place force (t.getF F.LCA_OP_WAY 0)).lcaMaintain op place force x
  rw [show (fresh s).flushAsm.lcaFields n place force _ = goState s n place force _ from rfl, State.lcaMaintain,
    if_pos ((lcaBusy_goState ..).trans hbusy)] at same
  refine ⟨t, ht, ?_⟩
  rw [same.isSet]
  exact isSet_raise_same _ _ E.LCA_CFG_REJECT rfl (by decide) (by decide)

/-! ### Preload -/

section
variable (w : Fin 16) (x : CacheErr) (hfree : s.lcaBusy = false)

/-- A preload that names no line beyond the installed DRAM goes to the cache. -/
theorem lcaPreload_goes (hexists : s.preloadAbsent w = false) : ∃ t, exec (.lcaPreload w x) s = .next t ∧
    Same ((goState s 4 false ((fresh s).flushAsm.isSet F.LCA_OP_FORCE 0) w).lcaPreload w x) t := by
  obtain ⟨t, ht, same⟩ := doneW_next hserved fun t => (t.lcaFields 4 false (t.isSet F.LCA_OP_FORCE 0) w).lcaPreload w x
  refine ⟨t, Eq.trans (if_neg ?_) ht, same⟩
  rw [hexists, Bool.and_false]
  decide

include hfree

theorem lcaPreload_refused (hrefused : s.preloadRefused w = true) : ∃ t, exec (.lcaPreload w x) s = .next t ∧
    t.isSet F.LCA_OP_STATUS_REFUSED 0 = true ∧ t.isSet F.LCA_EVT_CFG_REJECT 0 = true := by
  obtain ⟨t, ht, same⟩ := lcaPreload_goes hserved w x (by
    rw [State.preloadAbsent, hrefused, Bool.not_true, Bool.and_false, Bool.false_and])
  unfold State.lcaPreload at same
  dsimp only at same
  rw [if_neg (by rw [lcaBusy_goState, hfree]; decide), if_pos (by rw [preloadRefused_goState, hrefused]), State.lcaReject] at same
  refine ⟨t, ht, ?_, ?_⟩
  · rw [same.isSet, isSet_raise_other _ _ (by decide) (by decide), isSet_setB_same _ _ _ _ (by decide)]
  · rw [same.isSet]
    exact isSet_raise_same _ _ E.LCA_CFG_REJECT rfl (by decide) (by decide)

theorem lcaPreload_next (hgood : s.preloadRefused w = false) (hexists : s.getF F.LCA_OP_END_LINE 0 < s.dramLines) :
    ∃ t, exec (.lcaPreload w x) s = .next t ∧ t.lcaBusy = true ∧ t.getF F.LCA_OP_OP 0 = 4 ∧ t.getF F.LCA_OP_WAY 0 = w := by
  obtain ⟨t, ht, same⟩ := lcaPreload_goes hserved w x (by
    rw [State.preloadAbsent, State.rangeExists, decide_eq_true hexists, Bool.not_true, Bool.and_false])
  unfold State.lcaPreload at same
  dsimp only at same
  rw [if_neg (by rw [lcaBusy_goState, hfree]; decide), if_neg (by rw [preloadRefused_goState, hgood]; decide)] at same
  have hframe : ∀ (u : State) (ns : List Nat), Frame (W.tagCheck ||| W.preloadLine) u
      ((u.forEach ns fun t n => t.preloadLine w x n).tagCheck x) := fun u ns =>
    (tagCheck_frame ..).step ((frame_forEach (fun t n => preloadLine_frame t w x n) u ns).mono (by decide +kernel)) (by decide +kernel)
  obtain ⟨hop, hway⟩ := lcaFields_reads (fresh s).flushAsm 4 false ((fresh s).flushAsm.isSet F.LCA_OP_FORCE 0) w
  refine ⟨t, ht, ?_, ?_, ?_⟩
  · rw [State.lcaBusy, same.isSet, (hframe ..).isSet (by decide) (by decide +kernel), isSet_lcaStart]
  · rw [same.getF, (hframe ..).getF (by decide) (by decide +kernel), (lcaStart_frame _).getF (by decide) (by decide +kernel)]
    exact hop
  · rw [same.getF, (hframe ..).getF (by decide) (by decide +kernel), (lcaStart_frame _).getF (by decide) (by decide +kernel)]
    exact hway.trans (Nat.mod_eq_of_lt w.isLt)

theorem lcaPreload_absent (hgood : s.preloadRefused w = false) (habsent : s.dramLines ≤ s.getF F.LCA_OP_END_LINE 0) :
    exec (.lcaPreload w x) s = .fault .dramAddress := by
  refine if_pos ?_
  rw [hserved, State.preloadAbsent, hfree, hgood, State.rangeExists, decide_eq_false (Nat.not_lt.2 habsent)]
  rfl

end

end

theorem opDone_next {s : State} (hheld : s.pwr.held = []) (hbusy : s.lcaBusy = true) :
    ∃ t, exec .opDone s = .next t ∧ t.lcaBusy = false ∧ t.isSet F.LCA_OP_STATUS_DONE 0 = true ∧
      t.getF F.LCA_OP_STATUS_AFFECTED 0 = min s.mem.lca.result.1 32767 ∧
      t.getF F.LCA_OP_STATUS_SKIPPED 0 = min s.mem.lca.result.2 16383 ∧ t.isSet F.LCA_EVT_OP_DONE 0 = true := by
  obtain ⟨t, ht, same⟩ := done_next hheld fun t => t.lcaDone
  rw [State.lcaDone, if_neg (by rw [show (fresh s).lcaBusy = true from hbusy]; decide)] at same
  dsimp only at same
  refine ⟨t, ht, ?_, ?_, ?_, ?_, ?_⟩
  · rw [State.lcaBusy, same.isSet, isSet_raise_other _ _ (by decide) (by decide), isSet_setF_other _ _ (by decide),
      isSet_setF_other _ _ (by decide), isSet_setB_other _ _ (by decide), isSet_setB_same _ _ _ _ (by decide)]
  · rw [same.isSet, isSet_raise_other _ _ (by decide) (by decide), isSet_setF_other _ _ (by decide),
      isSet_setF_other _ _ (by decide), isSet_setB_same _ _ _ _ (by decide)]
  · rw [same.getF, getF_raise_other _ _ (by decide) (by decide), getF_setF_other _ _ (by decide), getF_setF]
    exact Nat.mod_eq_of_lt (Nat.lt_of_le_of_lt (Nat.min_le_right ..) (by decide))
  · rw [same.getF, getF_raise_other _ _ (by decide) (by decide), getF_setF]
    exact Nat.mod_eq_of_lt (Nat.lt_of_le_of_lt (Nat.min_le_right ..) (by decide))
  · rw [same.isSet]
    exact isSet_raise_same _ _ E.LCA_OP_DONE rfl (by decide) (by decide)

/-- Settles O35: one lemma per row, above. -/
theorem cacheRows : Obligations.CacheRows := fun _ =>
  ⟨fun w x hserved hnot hway => ⟨wayPowerDown_next hserved w x hnot hway, wayPowerDown_rejected hserved w x hnot hway⟩,
    fun w hserved => wayPowerUp_next hserved w, wayOff_next, wayOn_next,
    fun force x l hserved hfree htag hline hopen =>
      ⟨lcaInvalidate_next hserved force x l hfree htag hline hopen, lcaCleanInvalidate_next hserved force x l hfree htag hline hopen,
        lcaClean_next hserved force x l hfree htag hline hopen⟩,
    fun place force x hserved hbusy => ⟨lcaMaintain_rejected hserved .clean 1 place force x hbusy,
      lcaMaintain_rejected hserved .invalidate 2 place force x hbusy, lcaMaintain_rejected hserved .cleanInvalidate 3 place force x hbusy⟩,
    fun w x hserved hfree => ⟨lcaPreload_refused hserved w x hfree, lcaPreload_next hserved w x hfree, lcaPreload_absent hserved w x hfree⟩,
    opDone_next⟩

end Sys2Proof.Proofs
end

section
/-!
PROOFS. A host command that is alone in the engine (R307 to R310, R321): it is the next to begin, and what it ends with.
-/
set_option Elab.async false

namespace Sys2Proof.Laws

open Sys2Proof.Machine Sys2Proof.Proofs

/-! ### One command in the engine -/

section
variable {u : State} {d : Cmd} (h : u.hqi.cmds = [d])
include h

theorem updCmd_only (f : Cmd → Cmd) : u.updCmd d.pos f = u.setCmds [f d] := by
  unfold State.updCmd
  rw [h, List.map_cons, List.map_nil, if_pos rfl]

theorem cmd?_only : u.cmd? d.pos = some d := by
  unfold State.cmd?
  rw [h]
  exact List.find?_cons_of_pos (decide_eq_true rfl)

theorem finish_only (hd : d.stage ≠ .done) (st : Status) (res : Nat) :
    u.finish d.pos st res = u.setCmds [{ d with stage := .done, sct := st.1, sc := st.2, result := res }] := by
  rw [State.finish, updCmd_only h, Cmd.finish, if_neg hd]

theorem hostQuiet_only (hd : d.settled) (htests : ∀ v < 8, (u.test v).running = none) (hmounts : u.MountsWait) : u.HostQuiet := by
  refine ⟨fun c hc => ?_, htests, hmounts⟩
  rw [h, List.mem_singleton] at hc
  rw [hc]
  exact hd

end

/-- A command that has ended is settled. -/
theorem settled_of_done {c : Cmd} (h : c.stage = .done) : c.settled := .inl (by rw [h]; decide)

/-- A command that addresses no seam, and is neither FLUSH nor VOLUME RELEASE, waits for nothing of the engine's. -/
theorem settled_of_seamless {c : Cmd} (hseam : c.seam? = none) (hflush : c.opc ≠ 0x13) (hrelease : c.opc ≠ 0x0B) : c.settled :=
  .inr ⟨hflush, hrelease, .inr hseam⟩

theorem seam?_of_opc {c : Cmd} (h : c.opc < 0x10) : c.seam? = none := by
  unfold Cmd.seam?
  rw [if_neg (by omega), if_neg (by omega)]

/-! ### The command begins -/

/-- The state in which the one command has begun. -/
def started (s : State) (c : Cmd) : State := (fresh s).setCmds [{ c with stage := .running }]

section
variable {s : State} {c : Cmd} (honly : s.OnlyCommand c)
include honly

theorem begin_only {opc : Nat} {ok : Cmd → Bool} {f : State → Cmd → State} (hopc : c.opc = opc) (hok : ok c = true) :
    (fresh s).begin opc ok f = f (started s c) c := by
  obtain ⟨hcmds, htaken, hreqs, hmay, -, -⟩ := honly
  have hnext : (fresh s).nextTaken = some c := by
    unfold State.nextTaken
    rw [fresh_hqi, hcmds, show [c].find? (fun c => decide (c.stage = .taken)) = some c from List.find?_cons_of_pos (decide_eq_true htaken)]
    dsimp only
    rw [fresh_hif, hreqs]
    rfl
  unfold State.begin
  rw [hnext]
  dsimp only
  rw [if_pos (by rw [decide_eq_true hopc, hok, show (fresh s).mayIssue 0 = true from hmay]; rfl)]
  exact congrArg (f · c) (updCmd_only (u := fresh s) hcmds _)

theorem started_tests (v : Nat) (hv : v < 8) : ((started s c).test v).running = none := by
  obtain ⟨-, -, -, -, htests, -⟩ := honly
  exact htests v hv

theorem started_mounts : (started s c).MountsWait := by
  obtain ⟨-, -, -, -, -, hmounts⟩ := honly
  exact hmounts

/-- What the one command leaves is quiet, when it has changed neither tests nor volumes and the command itself is settled. -/
theorem hostQuiet_after {u : State} {d : Cmd} (hcmds : u.hqi.cmds = [d]) (hd : d.settled) (htests : u.hqi.tests = s.hqi.tests)
    (hvols : u.vols = s.vols) : u.HostQuiet := by
  obtain ⟨-, -, -, -, hnone, hmounts⟩ := honly
  refine hostQuiet_only hcmds hd (fun v hv => ?_) fun v hv m hm => ?_
  · rw [State.test, htests]
    exact hnone v hv
  · rw [State.vol, hvols] at hm
    exact hmounts v hv m hm

variable (hheld : s.pwr.held = []) {opc : Nat} {ok : Cmd → Bool} {f : State → Cmd → State} (hopc : c.opc = opc) (hok : ok c = true)
include hheld hopc hok

/-- The row of the one command, with what the engine then goes on with. -/
theorem beginQ_next : ∃ t, (doneQ s fun t => t.begin opc ok f) = .next t ∧ Same (f (started s c) c).advance t := by
  obtain ⟨t, ht, same⟩ := doneQ_next hheld fun t => t.begin opc ok f
  rw [begin_only honly hopc hok] at same
  exact ⟨t, ht, same⟩

theorem beginQ_quiet (hquiet : (f (started s c) c).HostQuiet) :
    ∃ t, (doneQ s fun t => t.begin opc ok f) = .next t ∧ Same (f (started s c) c) t := by
  obtain ⟨t, ht, same⟩ := beginQ_next honly hheld hopc hok (f := f)
  rw [advance_of_quiet hquiet] at same
  exact ⟨t, ht, same⟩

omit hok hopc hheld in
/-- The one command ends. -/
theorem finish_started (st : Status) (res : Nat) :
    (started s c).finish c.pos st res = (fresh s).setCmds [{ c with stage := .done, sct := st.1, sc := st.2, result := res }] :=
  finish_only (u := started s c) (d := { c with stage := .running }) rfl (show CmdStage.running ≠ .done by decide) st res

end

end Sys2Proof.Laws

namespace Sys2Proof.Proofs

open Sys2Proof.Machine Sys2Proof.Laws

/-! ### CONFIG PIECE, CONFIG ARM, ATTEST READ -/

section
variable {s : State} {c : Cmd} (hheld : s.pwr.held = []) (honly : s.OnlyCommand c)
include hheld honly

theorem configPiece_next (b : Bool) (hopc : c.opc = 0x07) (hone : c.nblk = 1) :
    ∃ t, exec (.configPiece b) s = .next t ∧
      t.hqi.cmds = [{ c with stage := .running, sigOk := b, pages := [c.dptr1], pagesOk := true }] ∧
      ∃ r ∈ t.hif.reqs, r.kind = .data c.pos 0 ∧ r.addr = c.dptr1 ∧ r.len = 4096 := by
  let d : Cmd := { c with stage := .running, sigOk := b, pages := [c.dptr1], pagesOk := true }
  have hbegun : (((started s c).updCmd c.pos fun d => { d with sigOk := b }).beginPages c.pos).requestPages c.pos 0 =
      ((fresh s).setCmds [d]).request (.data c.pos 0) c.dptr1 4096 := by
    have hsig : (started s c).updCmd c.pos (fun d => { d with sigOk := b }) =
      (fresh s).setCmds [{ c with stage := .running, sigOk := b }] :=
      updCmd_only (u := started s c) (d := { c with stage := .running }) rfl _
    have hpages : ((fresh s).setCmds [{ c with stage := .running, sigOk := b }]).beginPages c.pos = (fresh s).setCmds [d] := by
      have hn : Cmd.npages { c with stage := .running, sigOk := b } = 1 := by
        unfold Cmd.npages
        dsimp only
        rw [hopc, hone]
        rfl
      unfold State.beginPages
      rw [cmd?_only (d := { c with stage := .running, sigOk := b }) rfl]
      dsimp only
      rw [hn, if_pos (by decide)]
      exact updCmd_only (u := (fresh s).setCmds [{ c with stage := .running, sigOk := b }])
        (d := { c with stage := .running, sigOk := b }) rfl _
    rw [hsig, hpages, State.requestPages, cmd?_only (d := d) rfl]
    rfl
  obtain ⟨t, ht, same⟩ := beginQ_quiet honly hheld (ok := fun _ => true) (f := fun u c =>
    ((u.updCmd c.pos fun d => { d with sigOk := b }).beginPages c.pos).requestPages c.pos 0) hopc rfl (by
      rw [hbegun]
      exact (request_frame ..).hostQuiet (by decide +kernel) (by decide +kernel) (hostQuiet_after honly (u := (fresh s).setCmds [d]) rfl
        (settled_of_seamless (seam?_of_opc (by show c.opc < 16; omega)) (by show c.opc ≠ _; omega) (by show c.opc ≠ _; omega)) rfl rfl))
  rw [hbegun] at same
  refine ⟨t, ht, by rw [same.hqi, unmasked (request_frame ..).hqi (by decide +kernel)]; rfl, ?_⟩
  rw [reqs_of_same same]
  exact reqs_request ..

theorem configArm_next (hopc : c.opc = 0x08) (hok : s.armOk (c.csfNum 0 8) = true) :
    ∃ t, exec .configArm s = .next t ∧ t.cfg.arming = some c.pos := by
  obtain ⟨t, ht, same⟩ := beginQ_next honly hheld (ok := fun _ => true) (f := fun u c =>
    if u.armOk (c.csfNum 0 8) then u.updCfg fun g => { g with arming := some c.pos } else u.finish c.pos stArmRefused 0) hopc rfl
  rw [if_pos (show (started s c).armOk (c.csfNum 0 8) = true from hok)] at same
  exact ⟨t, ht, by rw [same.cfg, advance_cfg]; rfl⟩

theorem configArm_refused (hopc : c.opc = 0x08) (hok : s.armOk (c.csfNum 0 8) = false) :
    ∃ t, exec .configArm s = .next t ∧ t.hqi.cmds = [{ c with stage := .done, sct := 1, sc := 8, result := 0 }] := by
  have hends : (if (started s c).armOk (c.csfNum 0 8) then (started s c).updCfg fun g => { g with arming := some c.pos }
      else (started s c).finish c.pos stArmRefused 0) = (fresh s).setCmds [{ c with stage := .done, sct := 1, sc := 8, result := 0 }] := by
    rw [if_neg (by rw [show (started s c).armOk (c.csfNum 0 8) = false from hok]; decide)]
    exact finish_started honly stArmRefused 0
  obtain ⟨t, ht, same⟩ := beginQ_quiet honly hheld (ok := fun _ => true) (f := fun u c =>
    if u.armOk (c.csfNum 0 8) then u.updCfg fun g => { g with arming := some c.pos } else u.finish c.pos stArmRefused 0) hopc rfl (by
      rw [hends]
      exact hostQuiet_after honly rfl (settled_of_done rfl) rfl rfl)
  rw [hends] at same
  exact ⟨t, ht, by rw [same.hqi]; rfl⟩

theorem attestRead_next (hopc : c.opc = 0x09) (hzero : c.csfNum 0 4 = 0) :
    ∃ t, exec .attestRead s = .next t ∧ t.hqi.cmds = [{ c with stage := .done, sct := 0, sc := 0, result := 0 }] ∧
      .hostWrite c.dptr1 (page (bytesOf 4096 Config.identityByte)) (s.relaxed c.q) ∈ t.out := by
  have hends : (started s c).serveAttest c =
      ((fresh s).emit (.hostWrite c.dptr1 (page (bytesOf 4096 Config.identityByte)) (s.relaxed c.q))).setCmds
        [{ c with stage := .done, sct := 0, sc := 0, result := 0 }] := by
    unfold State.serveAttest
    dsimp only
    rw [if_pos hzero]
    exact finish_only (u := (started s c).emit _) (d := { c with stage := .running }) rfl
      (show CmdStage.running ≠ .done by decide) stSuccess 0
  obtain ⟨t, ht, same⟩ := beginQ_quiet honly hheld (ok := fun _ => true) (f := fun u c => u.serveAttest c) hopc rfl (by
    rw [hends]
    exact hostQuiet_after honly rfl (settled_of_done rfl) rfl rfl)
  rw [hends] at same
  exact ⟨t, ht, by rw [same.hqi]; rfl, same.emitted (List.mem_append_right _ List.mem_cons_self)⟩

end

/-- Settles O36: one lemma per row, above. -/
theorem configCommandRows : Obligations.ConfigCommandRows := fun _ _ hheld honly =>
  ⟨configPiece_next hheld honly, fun hopc => ⟨configArm_next hheld honly hopc, configArm_refused hheld honly hopc⟩,
    attestRead_next hheld honly⟩

end Sys2Proof.Proofs
end

section
/-!
PROOFS. The fuse rows (R351, R352): one lemma per row, assembled at the end.
-/
set_option Elab.async false

namespace Sys2Proof.Proofs

open Sys2Proof.Machine Sys2Proof.Laws

@[simp] theorem getF_updCfg (s : State) (g : CfgS → CfgS) (f : Field) (i : Nat) : (s.updCfg g).getF f i = s.getF f i := rfl

@[simp] theorem isSet_updCfg (s : State) (g : CfgS → CfgS) (f : Field) (i : Nat) : (s.updCfg g).isSet f i = s.isSet f i := rfl

/-! ### Fuse commands -/

/-- What a fuse command that is accepted writes before it programs. -/
def fuseBegun (s : State) (o : FuseOp) : State :=
  ((s.setB F.CFG_FUSE_CMD_BUSY 0 true).setB F.CFG_FUSE_CMD_FAIL 0 false).updCfg fun c => { c with fuse := some o }

theorem isSet_fuseBegun (s : State) (o : FuseOp) : (fuseBegun s o).isSet F.CFG_FUSE_CMD_BUSY 0 = true := by
  rw [fuseBegun, isSet_updCfg, isSet_setB_other _ _ (by decide), isSet_setB_same _ _ _ _ (by decide)]

/-- A slot may not be revoked: it runs, or no other usable slot is left. -/
def slotBad (s : State) (slot : Nat) : Bool :=
  (s.isSet F.CFG_STATUS_LOADED 0 && s.getF F.CFG_KEYS_RUN_SLOT 0 == slot) ||
    !((List.range 4).any fun k => k != slot && s.bitF F.CFG_KEYS_FUSED 0 k && !s.bitF F.CFG_KEYS_REVOKED 0 k)

theorem shiftArmed_flushAsm (s : State) : s.flushAsm.shiftArmed = s.shiftArmed := by
  rw [State.shiftArmed, State.shift, getF_flushAsm _ (by decide) (by decide +kernel), State.shiftArmed, State.shift]

theorem slotBad_flushAsm (s : State) (k : Nat) : slotBad s.flushAsm k = slotBad s k := by
  simp (disch := decide +kernel) only [slotBad, isSet_flushAsm, getF_flushAsm, bitF_flushAsm]

section
variable {s : State} {confirm : Nat}

theorem fuseCmd_rejected {op : Nat} (slot : Nat)
    (hbad : confirm ≠ 0x5A ∨ s.isSet F.CFG_FUSE_CMD_BUSY 0 = true ∨ s.shiftArmed = true) : s.fuseCmd op confirm slot = s.cfgReject := by
  unfold State.fuseCmd
  refine if_pos ?_
  simp only [Bool.or_eq_true, bne_iff_ne]
  tauto

variable (hconfirm : confirm = 0x5A) (hfree : s.isSet F.CFG_FUSE_CMD_BUSY 0 = false) (hnot : s.shiftArmed = false)
include hconfirm hfree hnot

theorem fuseCmd_svn (slot : Nat) (hold : s.getF F.CFG_SVN_FUSED 0 < s.getF F.CFG_SVN_RUN 0) :
    s.fuseCmd 1 confirm slot = (fuseBegun s .svn).emit (.fuseSvn (2 ^ s.getF F.CFG_SVN_RUN 0 - 1)) := by
  unfold State.fuseCmd
  rw [if_neg (by
    rw [hconfirm, hfree, hnot, show ((1 : Nat) == 2) = false from rfl, Bool.false_and]
    decide)]
  dsimp only
  rw [if_pos rfl, if_neg (Nat.not_le.2 hold)]
  rfl

theorem fuseCmd_revoke {slot : Nat} (hgood : slotBad s slot = false) :
    s.fuseCmd 2 confirm slot = (fuseBegun s (.revoke slot)).emit (.fuseRevoke (2 ^ slot)) := by
  unfold State.fuseCmd
  rw [if_neg (by
    show ¬ ((((2 != 1 && 2 != 2) || confirm != 0x5A) || s.isSet F.CFG_FUSE_CMD_BUSY 0 || s.shiftArmed) || (2 == 2 && slotBad s slot)) = true
    rw [hconfirm, hfree, hnot, hgood]
    decide)]
  dsimp only
  rw [if_neg (by decide)]
  rfl

end

section
variable {s : State} (hserved : s.pf1Served = true)
include hserved

theorem svnCommit_next (confirm : BitVec 8) (hconfirm : confirm.toNat = 0x5A) (hfree : s.isSet F.CFG_FUSE_CMD_BUSY 0 = false)
    (hnot : s.shiftArmed = false) (hold : s.getF F.CFG_SVN_FUSED 0 < s.getF F.CFG_SVN_RUN 0) :
    ∃ t, exec (.svnCommit confirm) s = .next t ∧ t.isSet F.CFG_FUSE_CMD_BUSY 0 = true ∧ t.cfg.fuse = some .svn ∧
      .fuseSvn (2 ^ s.getF F.CFG_SVN_RUN 0 - 1) ∈ t.out := by
  obtain ⟨t, ht, same⟩ := doneW_next hserved fun t => t.fuseCmd 1 confirm.toNat 0
  have hrun : (fresh s).flushAsm.getF F.CFG_SVN_RUN 0 = s.getF F.CFG_SVN_RUN 0 := getF_flushAsm _ (by decide) (by decide +kernel)
  rw [fuseCmd_svn (s := (fresh s).flushAsm) hconfirm ((isSet_flushAsm (fresh s) (by decide) (by decide +kernel)).trans hfree)
    ((shiftArmed_flushAsm (fresh s)).trans hnot) _ (by
    rw [hrun, getF_flushAsm _ (by decide) (by decide +kernel)]
    exact hold), hrun] at same
  exact ⟨t, ht, by rw [same.isSet, emit_isSet, isSet_fuseBegun], by rw [same.cfg]; rfl,
    same.emitted (List.mem_append_right _ List.mem_cons_self)⟩

theorem keyRevoke_next (k j : Fin 4) (hfree : s.isSet F.CFG_FUSE_CMD_BUSY 0 = false) (hnot : s.shiftArmed = false)
    (hidle : s.isSet F.CFG_STATUS_LOADED 0 = false ∨ s.getF F.CFG_KEYS_RUN_SLOT 0 ≠ k) (hother : j ≠ k)
    (hfused : s.bitF F.CFG_KEYS_FUSED 0 j = true) (husable : s.bitF F.CFG_KEYS_REVOKED 0 j = false) :
    ∃ t, exec (.keyRevoke 0x5A k) s = .next t ∧ t.isSet F.CFG_FUSE_CMD_BUSY 0 = true ∧ t.cfg.fuse = some (.revoke k) ∧
      .fuseRevoke (2 ^ k.val) ∈ t.out := by
  obtain ⟨t, ht, same⟩ := doneW_next hserved fun t => t.fuseCmd 2 (0x5A : BitVec 8).toNat k
  have hgood : slotBad s k = false := by
    have hrun : (s.isSet F.CFG_STATUS_LOADED 0 && s.getF F.CFG_KEYS_RUN_SLOT 0 == k.val) = false := by
      rw [Bool.and_eq_false_iff, beq_eq_false_iff_ne]
      exact hidle
    have hleft : ((List.range 4).any fun i => i != k.val && s.bitF F.CFG_KEYS_FUSED 0 i && !s.bitF F.CFG_KEYS_REVOKED 0 i) = true := by
      refine List.any_eq_true.2 ⟨j, List.mem_range.2 j.isLt, ?_⟩
      rw [hfused, husable, bne_iff_ne.2 (fun h => hother (Fin.ext h))]
      rfl
    rw [slotBad, hrun, hleft]
    rfl
  rw [fuseCmd_revoke (s := (fresh s).flushAsm) (confirm := (0x5A : BitVec 8).toNat) rfl
    ((isSet_flushAsm (fresh s) (by decide) (by decide +kernel)).trans hfree) ((shiftArmed_flushAsm (fresh s)).trans hnot)
    ((slotBad_flushAsm (fresh s) k).trans hgood)] at same
  exact ⟨t, ht, by rw [same.isSet, emit_isSet, isSet_fuseBegun], by rw [same.cfg]; rfl,
    same.emitted (List.mem_append_right _ List.mem_cons_self)⟩

theorem fuseCmd_refused (op : Nat) (confirm : BitVec 8) (slot : Nat)
    (hbad : confirm.toNat ≠ 0x5A ∨ s.isSet F.CFG_FUSE_CMD_BUSY 0 = true ∨ s.shiftArmed = true) :
    ∃ t, (doneW s fun t => t.fuseCmd op confirm.toNat slot) = .next t ∧ t.isSet F.CFG_EVT_CFG_REJECT 0 = true ∧
      t.cfg.fuse = s.cfg.fuse := by
  obtain ⟨t, ht, same⟩ := doneW_next hserved fun t => t.fuseCmd op confirm.toNat slot
  rw [fuseCmd_rejected slot (by
    rw [isSet_flushAsm _ (by decide) (by decide +kernel), shiftArmed_flushAsm]
    exact hbad)] at same
  refine ⟨t, ht, ?_, ?_⟩
  · rw [same.isSet]
    exact isSet_raise_same _ _ E.CFG_CFG_REJECT rfl (by decide) (by decide)
  · rw [same.cfg]
    exact congrArg CfgS.fuse (flushAsm_cfg (fresh s))

end

/-! ### The end of a fuse command -/

/-- A fuse command that ends is idle. -/
def fuseIdle (s : State) : State := (s.setB F.CFG_FUSE_CMD_BUSY 0 false).updCfg fun c => { c with fuse := none }

section
variable {s : State} (hheld : s.pwr.held = [])
include hheld

/-- The row of a fuse command that ends. -/
theorem fuseProgramDone_next {o : FuseOp} (hfuse : s.cfg.fuse = some o) (bad : BitVec 64) :
    ∃ t, exec (.fuseProgramDone bad) s = .next t ∧ Same ((fresh s).fuseDone o bad.toNat).advance t := by
  obtain ⟨t, ht, same⟩ := doneQ_next hheld fun t => match t.cfg.fuse with | some o => t.fuseDone o bad.toNat | none => t
  rw [fresh_cfg, hfuse] at same
  exact ⟨t, ht, same⟩

theorem fuseProgramDone_svn (hfuse : s.cfg.fuse = some .svn) :
    ∃ t, exec (.fuseProgramDone 0) s = .next t ∧ t.isSet F.CFG_FUSE_CMD_BUSY 0 = false ∧ t.cfg.fuse = none ∧
      t.isSet F.CFG_EVT_SVN_COMMITTED 0 = true ∧ t.cfg.fuses.svn = s.cfg.fuses.svn ||| (2 ^ s.getF F.CFG_SVN_RUN 0 - 1) := by
  obtain ⟨t, ht, same⟩ := fuseProgramDone_next hheld hfuse 0
  let want := 2 ^ s.getF F.CFG_SVN_RUN 0 - 1
  let u := (((fuseIdle (fresh s)).updCfg fun c => { c with fuses := { c.fuses with svn := s.cfg.fuses.svn ||| want } }).senseFuses).raise
    E.CFG_SVN_COMMITTED 0
  have hdone : Frame W.stageFails u ((fresh s).fuseDone .svn (0 : BitVec 64).toNat) := by
    have hlost : ∀ n : Nat, n &&& (0 : BitVec 64).toNat = 0 := fun n => Nat.and_zero n
    unfold State.fuseDone
    dsimp only
    rw [hlost, Nat.and_zero, Nat.sub_zero, if_pos rfl]
    exact frame_if _ (stageFails_frame ..)
  refine ⟨t, ht, ?_, ?_, ?_, ?_⟩
  · rw [same.isSet, isSet_advance _ (by decide) (by decide +kernel), hdone.isSet (by decide) (by decide +kernel),
      isSet_raise_other _ _ (by decide) (by decide), (senseFuses_frame _).isSet (by decide) (by decide +kernel), isSet_updCfg, fuseIdle,
      isSet_updCfg, isSet_setB_same _ _ _ _ (by decide)]
  · rw [same.cfg, advance_cfg, unmasked hdone.cfg (by decide +kernel)]
    rfl
  · rw [same.isSet, isSet_advance _ (by decide) (by decide +kernel), hdone.isSet (by decide) (by decide +kernel)]
    exact isSet_raise_same _ _ E.CFG_SVN_COMMITTED rfl (by decide) (by decide)
  · rw [same.cfg, advance_cfg, unmasked hdone.cfg (by decide +kernel)]
    rfl

theorem fuseProgramDone_revoked (k : Nat) (hfuse : s.cfg.fuse = some (.revoke k)) :
    ∃ t, exec (.fuseProgramDone 0) s = .next t ∧ t.isSet F.CFG_FUSE_CMD_BUSY 0 = false ∧ t.cfg.fuse = none ∧
      t.cfg.fuses.revoke = s.cfg.fuses.revoke ||| 2 ^ k := by
  obtain ⟨t, ht, same⟩ := fuseProgramDone_next hheld hfuse 0
  let u := (((fuseIdle (fresh s)).updCfg fun c => { c with fuses := { c.fuses with revoke := c.fuses.revoke ||| 2 ^ k } }).senseFuses).putF
    F.CFG_KEYS_USABLE 0 k false
  have hdone : Frame W.stageFails u ((fresh s).fuseDone (.revoke k) (0 : BitVec 64).toNat) := by
    unfold State.fuseDone
    dsimp only
    rw [if_neg (by rw [show (0 : BitVec 64).toNat = 0 from rfl, Nat.zero_testBit]; decide)]
    exact frame_if _ (stageFails_frame ..)
  refine ⟨t, ht, ?_, ?_, ?_⟩
  · rw [same.isSet, isSet_advance _ (by decide) (by decide +kernel), hdone.isSet (by decide) (by decide +kernel),
      isSet_putF_other _ _ _ (by decide), (senseFuses_frame _).isSet (by decide) (by decide +kernel), isSet_updCfg, fuseIdle,
      isSet_updCfg, isSet_setB_same _ _ _ _ (by decide)]
  · rw [same.cfg, advance_cfg, unmasked hdone.cfg (by decide +kernel)]
    rfl
  · rw [same.cfg, advance_cfg, unmasked hdone.cfg (by decide +kernel)]
    rfl

theorem fuseProgramDone_failed (k : Nat) (hfuse : s.cfg.fuse = some (.revoke k)) (bad : BitVec 64) (hbad : bad.toNat.testBit k = true) :
    ∃ t, exec (.fuseProgramDone bad) s = .next t ∧ t.isSet F.CFG_EVT_FUSE_FAIL 0 = true ∧ t.isSet F.CFG_FUSE_CMD_FAIL 0 = true ∧
      t.cfg.fuses = s.cfg.fuses := by
  obtain ⟨t, ht, same⟩ := fuseProgramDone_next hheld hfuse bad
  have hdone : (fresh s).fuseDone (.revoke k) bad.toNat =
      ((fuseIdle (fresh s)).setB F.CFG_FUSE_CMD_FAIL 0 true).raise E.CFG_FUSE_FAIL 0 := if_pos hbad
  rw [hdone] at same
  refine ⟨t, ht, ?_, ?_, ?_⟩
  · rw [same.isSet, isSet_advance _ (by decide) (by decide +kernel)]
    exact isSet_raise_same _ _ E.CFG_FUSE_FAIL rfl (by decide) (by decide)
  · rw [same.isSet, isSet_advance _ (by decide) (by decide +kernel), isSet_raise_other _ _ (by decide) (by decide),
      isSet_setB_same _ _ _ _ (by decide)]
  · rw [same.cfg, advance_cfg]
    rfl

end

/-- Settles O37: one lemma per row, above. -/
theorem fuseRows : Obligations.FuseRows := fun _ =>
  ⟨fun confirm hserved => ⟨svnCommit_next hserved confirm, fun hbad => ⟨fuseCmd_refused hserved 1 confirm 0 hbad,
      fun k => fuseCmd_refused hserved 2 confirm k hbad⟩⟩,
    fun k j hserved => keyRevoke_next hserved k j, fuseProgramDone_svn,
    fun k hheld hfuse => ⟨fuseProgramDone_revoked hheld k hfuse, fuseProgramDone_failed hheld k hfuse⟩⟩

end Sys2Proof.Proofs
end

section
/-!
PROOFS. The load and the boot record (R367, R372): one lemma per row, assembled at the end.
-/
set_option Elab.async false

namespace Sys2Proof.Proofs

open Sys2Proof.Machine Sys2Proof.Laws

/-! ### What follows a load -/

/-- What the enables of an image may change. -/
def enables : Nat := W.axisOn ||| W.chanEnable ||| W.linkEnable ||| W.ringStart

theorem startEnabled_enables (s : State) : Frame enables s s.startEnabled := by
  refine (ringStart_frame _).step (Frame.forEach (Frame.forEach (Frame.refl _ _) fun t h ht => ?_) fun t c ht => ?_) (by decide +kernel)
  · have hlink : Frame enables s (if t.isSet F.LNK_HEAD_CTL_EN h then t.linkEnable h else t) :=
      Frame.ite ((linkEnable_frame ..).step ht (by decide +kernel)) ht
    exact Frame.ite ((axisOn_frame ..).step hlink (by decide +kernel)) hlink
  · exact Frame.ite ((chanEnable_frame ..).step ht (by decide +kernel)) ht

/-- What follows a load that places an image. -/
def afterPlaced : Nat := W.afterLoad ||| enables ||| W.controllerReady

theorem afterPlaced_frame (s : State) (cause : Nat) (x : LoadIn) :
    Frame afterPlaced s ((s.afterLoad cause x).startEnabled).controllerReady :=
  (controllerReady_frame _).step ((startEnabled_enables _).step ((afterLoad_frame s cause x).mono (by decide +kernel)) (by decide +kernel))
    (by decide +kernel)

/-- The registers that name the running image show it. -/
theorem runImage_reads (s : State) (im : Image) (slot : Nat) : (s.runImage im slot).isSet F.CFG_STATUS_LOADED 0 = true ∧
    (s.runImage im slot).getF F.CFG_STATUS_SLOT 0 = slot % 2 ∧
    (s.runImage im slot).getF F.CFG_SVN_RUN 0 = im.svn % 2 ^ F.CFG_SVN_RUN.width := by
  have hdigest : ∀ (u : State) (f : Field), F.CFG_DIGEST_BYTES.id ≠ f.id → ((u.forEach (List.range 12) fun t i =>
      t.setF F.CFG_DIGEST_BYTES i (im.digest / 2 ^ (32 * i) % 2 ^ 32)).updCfg fun c => { c with image := some im }).getF f 0 = u.getF f 0 :=
    fun u f hf => forEach_keeps (P := fun t => t.getF f 0 = u.getF f 0) (fun t i _ ht => (getF_setF_other _ _ hf).trans ht) rfl
  unfold State.runImage State.showImage State.set64
  dsimp only
  rw [State.isSet, hdigest _ _ (by decide), hdigest _ _ (by decide), hdigest _ _ (by decide), ← State.isSet]
  simp (disch := decide) only [isSet_setF_other, isSet_setB_same, getF_setF_other, getF_setF, true_and, and_true]
  rfl

/-! ### IMAGE_LOAD_DONE -/

/-- The keys of the key region that are fused and not revoked are usable. -/
def keysShown (s : State) (x : LoadIn) : State :=
  s.setF F.CFG_KEYS_USABLE 0 (maskOf 4 fun b => x.keysMatch.testBit b && (s.getF F.CFG_KEYS_FUSED 0).testBit b &&
    !(s.getF F.CFG_KEYS_REVOKED 0).testBit b)

/-- An image whose flash cannot be read does not load. -/
theorem attempt_flash {s : State} {im : Image} (hbist : s.isSet F.PWR_BIST_FAIL 0 = false) (hflash : im.flashOk = false) :
    s.attempt im = .failed 12 0xFFFF := by
  unfold State.attempt
  dsimp only
  rw [if_neg (by rw [hbist]; decide), if_pos (by rw [hflash]; rfl)]

/-- A slot's failure is recorded in its own field. -/
theorem getF_slotFailed (s : State) {slot cause : Nat} (clause : Nat) (hcause : cause ≠ 11) (f : Field)
    (hf : F.CFG_STATUS_FAIL_CLAUSE.id ≠ f.id) : (s.slotFailed slot cause clause).getF f 0 =
      (s.setF (if slot = 0 then F.CFG_LOAD_CAUSE_CAUSE_A else F.CFG_LOAD_CAUSE_CAUSE_B) 0 cause).getF f 0 := by
  unfold State.slotFailed
  dsimp only
  rw [if_neg hcause, getF_ite, getF_setF_other _ _ hf, ite_self]

/-- Both slots' failures are recorded, the active slot's first. -/
theorem causes_slotFailed (s : State) (k : Nat) :
    ((s.slotFailed k 12 0xFFFF).slotFailed (1 - k) 12 0xFFFF).getF F.CFG_LOAD_CAUSE_CAUSE_A 0 = 12 ∧
      ((s.slotFailed k 12 0xFFFF).slotFailed (1 - k) 12 0xFFFF).getF F.CFG_LOAD_CAUSE_CAUSE_B 0 = 12 := by
  rw [getF_slotFailed _ _ (by decide) _ (by decide), getF_slotFailed _ _ (by decide) _ (by decide)]
  by_cases hk : k = 0
  · rw [hk, if_neg (by decide)]
    refine ⟨?_, getF_setF ..⟩
    rw [getF_setF_other _ _ (by decide), getF_slotFailed _ _ (by decide) _ (by decide), if_pos rfl, getF_setF]
    rfl
  · rw [if_pos (by omega)]
    refine ⟨getF_setF .., ?_⟩
    rw [getF_setF_other _ _ (by decide), getF_slotFailed _ _ (by decide) _ (by decide), if_neg hk, getF_setF]
    rfl

/-- No image is placed when neither slot loads. -/
theorem loadEnds_failed {s : State} {x : LoadIn} (cause : Nat) {c n c2 n2 : Nat}
    (hfirst : (keysShown s x).attempt (x.image s.cfg.flash.active) = .failed c n)
    (hsecond : ((keysShown s x).slotFailed s.cfg.flash.active c n).attempt (x.image (1 - s.cfg.flash.active)) = .failed c2 n2) :
    s.loadEnds cause x = ((((((((keysShown s x).slotFailed s.cfg.flash.active c n).slotFailed (1 - s.cfg.flash.active) c2 n2).setB
      F.CFG_STATUS_LOAD_FAIL 0 true).setB F.HQI_CSTS_NOT_READY 0 true).raise E.CFG_LOAD_FAIL 0).afterLoad cause x).ringOff) := by
  unfold keysShown at hfirst hsecond
  unfold State.loadEnds
  dsimp only
  rw [hfirst]
  dsimp only
  rw [hsecond]
  rfl

section
variable {s : State} (hheld : s.pwr.held = []) (l : LoadS) (x : LoadIn) (hload : s.cfg.load = some l) (hfull : l.verifyOnly = false)
include hheld hload hfull

theorem imageLoadDone_goes : ∃ t, exec (.imageLoadDone x) s = .next t ∧ Same ((fresh s).loadEnds l.cause x).advance t := by
  obtain ⟨t, ht, same⟩ := doneQ_next hheld fun t =>
    match t.cfg.load with
    | some l => if l.verifyOnly || !t.pwr.held.isEmpty then t else t.loadEnds l.cause x
    | none => t
  rw [fresh_cfg, hload] at same
  dsimp only at same
  rw [if_neg (by rw [hfull, fresh_pwr, hheld]; decide)] at same
  exact ⟨t, ht, same⟩

theorem imageLoadDone_placed (u : State) (hplaced : (keysShown (fresh s) x).attempt (x.image s.cfg.flash.active) = .placed u) :
    ∃ t, exec (.imageLoadDone x) s = .next t ∧ t.isSet F.CFG_STATUS_LOADED 0 = true ∧
      t.getF F.CFG_STATUS_SLOT 0 = s.cfg.flash.active % 2 ∧
      t.getF F.CFG_SVN_RUN 0 = (x.image s.cfg.flash.active).svn % 2 ^ F.CFG_SVN_RUN.width := by
  obtain ⟨t, ht, same⟩ := imageLoadDone_goes hheld l x hload hfull
  have hends : (fresh s).loadEnds l.cause x = (((u.runImage (x.image s.cfg.flash.active) s.cfg.flash.active).afterLoad l.cause
      x).startEnabled).controllerReady := by
    unfold State.loadEnds
    dsimp only
    rw [show ((fresh s).setF F.CFG_KEYS_USABLE 0 _).attempt (x.image (fresh s).cfg.flash.active) = .placed u from hplaced]
    rfl
  have hframe := afterPlaced_frame (u.runImage (x.image s.cfg.flash.active) s.cfg.flash.active) l.cause x
  obtain ⟨hloaded, hslot, hsvn⟩ := runImage_reads u (x.image s.cfg.flash.active) s.cfg.flash.active
  rw [hends] at same
  refine ⟨t, ht, ?_, ?_, ?_⟩
  · rw [same.isSet, isSet_advance _ (by decide) (by decide +kernel), hframe.isSet (by decide) (by decide +kernel), hloaded]
  · rw [same.getF, getF_advance _ (by decide) (by decide +kernel), hframe.getF (by decide) (by decide +kernel), hslot]
  · rw [same.getF, getF_advance _ (by decide) (by decide +kernel), hframe.getF (by decide) (by decide +kernel), hsvn]

theorem imageLoadDone_failed (hbist : s.isSet F.PWR_BIST_FAIL 0 = false) (ha : x.slotA.flashOk = false) (hb : x.slotB.flashOk = false) :
    ∃ t, exec (.imageLoadDone x) s = .next t ∧ t.isSet F.CFG_STATUS_LOAD_FAIL 0 = true ∧ t.isSet F.HQI_CSTS_NOT_READY 0 = true ∧
      t.isSet F.CFG_EVT_LOAD_FAIL 0 = true ∧ t.getF F.CFG_LOAD_CAUSE_CAUSE_A 0 = 12 ∧ t.getF F.CFG_LOAD_CAUSE_CAUSE_B 0 = 12 := by
  obtain ⟨t, ht, same⟩ := imageLoadDone_goes hheld l x hload hfull
  have hflash : ∀ k, (x.image k).flashOk = false := fun k => by
    unfold LoadIn.image
    split
    · exact ha
    · exact hb
  let k := s.cfg.flash.active
  let s1 := (keysShown (fresh s) x).slotFailed k 12 0xFFFF
  let s2 := (((s1.slotFailed (1 - k) 12 0xFFFF).setB F.CFG_STATUS_LOAD_FAIL 0 true).setB F.HQI_CSTS_NOT_READY 0 true).raise E.CFG_LOAD_FAIL 0
  have hbist0 : (keysShown (fresh s) x).isSet F.PWR_BIST_FAIL 0 = false := (isSet_setF_other _ _ (by decide)).trans hbist
  have hbist1 : s1.isSet F.PWR_BIST_FAIL 0 = false :=
    ((slotFailed_frame ..).isSet (by decide) (by decide +kernel)).trans hbist0
  have hends : (fresh s).loadEnds l.cause x = (s2.afterLoad l.cause x).ringOff :=
    loadEnds_failed l.cause (attempt_flash hbist0 (hflash _)) (attempt_flash hbist1 (hflash _))
  obtain ⟨hcausea, hcauseb⟩ := causes_slotFailed (keysShown (fresh s) x) k
  have hframe : Frame (W.afterLoad ||| W.ringOff) s2 (s2.afterLoad l.cause x).ringOff :=
    (ringOff_frame _).step ((afterLoad_frame ..).mono (by decide +kernel)) (by decide +kernel)
  rw [hends] at same
  refine ⟨t, ht, ?_, ?_, ?_, ?_, ?_⟩
  · rw [same.isSet, isSet_advance _ (by decide) (by decide +kernel), hframe.isSet (by decide) (by decide +kernel),
      isSet_raise_other _ _ (by decide) (by decide), isSet_setB_other _ _ (by decide), isSet_setB_same _ _ _ _ (by decide)]
  · rw [same.isSet, isSet_advance _ (by decide) (by decide +kernel), hframe.isSet (by decide) (by decide +kernel),
      isSet_raise_other _ _ (by decide) (by decide), isSet_setB_same _ _ _ _ (by decide)]
  · rw [same.isSet, isSet_advance _ (by decide) (by decide +kernel), hframe.isSet (by decide) (by decide +kernel)]
    exact isSet_raise_same _ _ E.CFG_LOAD_FAIL rfl (by decide) (by decide)
  · rw [same.getF, getF_advance _ (by decide) (by decide +kernel), hframe.getF (by decide) (by decide +kernel),
      getF_raise_other _ _ (by decide) (by decide), getF_setB_other _ _ (by decide), getF_setB_other _ _ (by decide), hcausea]
  · rw [same.getF, getF_advance _ (by decide) (by decide +kernel), hframe.getF (by decide) (by decide +kernel),
      getF_raise_other _ _ (by decide) (by decide), getF_setB_other _ _ (by decide), getF_setB_other _ _ (by decide), hcauseb]

end

/-! ### BOOT_RECORD_SIGN -/

/-- A record that is signed shows its cause; a log write that fails is reported. -/
theorem signRecord_reads (s : State) (cause time : Nat) (b : Bool) : (s.signRecord cause time b).isSet F.CFG_STATUS_RECORD_READY 0 = true ∧
    (s.signRecord cause time b).getF F.CFG_STATUS_RESET_CAUSE 0 = cause % 2 ^ F.CFG_STATUS_RESET_CAUSE.width ∧
    (b = false → (s.signRecord cause time b).isSet F.CFG_EVT_LOG_FAIL 0 = true) := by
  unfold State.signRecord
  extract_lets r s1 at_ s2 l s3
  have hemits : ∀ f : Field, s2.getF f 0 = s1.getF f 0 := fun f => by
    show (State.onlyIf s1 _ _).getF f 0 = _
    rw [getF_onlyIf]
    exact ite_self _
  have hlogged : ∀ f : Field, F.CFG_LOG_STATUS_HELD.id ≠ f.id → F.CFG_LOG_STATUS_FAILS.id ≠ f.id → E.CFG_LOG_FAIL.fld.id ≠ f.id →
      E.CFG_LOG_FAIL.reg.forced.id ≠ f.id → s3.getF f 0 = s1.getF f 0 := fun f hheld hfails hevent hforced => by
    rw [← hemits]
    show (if b = true then State.setF _ _ _ _ else _).getF f 0 = _
    rw [getF_ite, getF_setF_other _ _ hheld, getF_raise_other _ _ hevent hforced, getF_count_other _ hfails]
    exact ite_self _
  refine ⟨?_, ?_, fun hb => ?_⟩
  · rw [(serveAttests_frame _).isSet (by decide) (by decide +kernel), State.isSet,
      hlogged _ (by decide) (by decide) (by decide) (by decide),
      ← State.isSet, isSet_setB_same _ _ _ _ (by decide)]
  · rw [(serveAttests_frame _).getF (by decide) (by decide +kernel), hlogged _ (by decide) (by decide) (by decide) (by decide),
      getF_setB_other _ _ (by decide), getF_setF]
  · rw [(serveAttests_frame _).isSet (by decide) (by decide +kernel)]
    show (if b = true then _ else State.raise _ _ _).isSet _ _ = true
    rw [if_neg (by rw [hb]; decide)]
    exact isSet_raise_same _ _ E.CFG_LOG_FAIL rfl (by decide) (by decide)

theorem bootRecordSign_next {s : State} (cause : Nat) (b : Bool) (hheld : s.pwr.held = []) (hdue : s.cfg.recordDue = some cause) :
    ∃ t, exec (.bootRecordSign b) s = .next t ∧ t.isSet F.CFG_STATUS_RECORD_READY 0 = true ∧
      t.getF F.CFG_STATUS_RESET_CAUSE 0 = cause % 2 ^ F.CFG_STATUS_RESET_CAUSE.width ∧
      t.cfg.recordDue = none ∧ (b = false → t.isSet F.CFG_EVT_LOG_FAIL 0 = true) := by
  obtain ⟨t, ht, same⟩ := doneQ_next hheld fun t =>
    match t.cfg.recordDue with
    | some c => ((t.signRecord c t.ringNow b).updCfg fun g => { g with recordDue := none })
    | none => t
  rw [fresh_cfg, hdue] at same
  dsimp only at same
  obtain ⟨hready, hcause, hlog⟩ := signRecord_reads (fresh s) cause (fresh s).ringNow b
  refine ⟨t, ht, ?_, ?_, ?_, fun hb => ?_⟩
  · rw [same.isSet, isSet_advance _ (by decide) (by decide +kernel), isSet_updCfg, hready]
  · rw [same.getF, getF_advance _ (by decide) (by decide +kernel), getF_updCfg, hcause]
  · rw [same.cfg, advance_cfg]
    rfl
  · rw [same.isSet, isSet_advance _ (by decide) (by decide +kernel), isSet_updCfg, hlog hb]

/-- Settles O38: one lemma per row, above. -/
theorem loadRows : Obligations.LoadRows := fun _ hheld =>
  ⟨fun l x u hload hfull => imageLoadDone_placed hheld l x hload hfull u, fun l x hload hfull => imageLoadDone_failed hheld l x hload hfull,
    fun cause b => bootRecordSign_next cause b hheld⟩

end Sys2Proof.Proofs
end

section
/-!
PROOFS. Staging and arming (R375 to R380): one lemma per row, assembled at the end.
-/
set_option Elab.async false

namespace Sys2Proof.Proofs

open Sys2Proof.Machine Sys2Proof.Laws

theorem stg_setStage (s : State) {n : Nat} (hn : n < 8) : (s.setStage n).stg = n := (getF_setF ..).trans (Nat.mod_eq_of_lt hn)

theorem stg_flushAsm (s : State) : s.flushAsm.stg = s.stg := getF_flushAsm _ (by decide) (by decide +kernel)

theorem stg_of_same {a t : State} (h : Same a.advance t) : t.stg = a.stg := (h.getF ..).trans
    (getF_advance _ (by decide) (by decide +kernel))

theorem isSet_stageFails (s : State) (cause : Nat) : (s.stageFails cause).isSet F.CFG_EVT_STAGE_FAIL 0 = true :=
  isSet_raise_same _ _ E.CFG_STAGE_FAIL rfl (by decide) (by decide)

theorem stg_stageFails (s : State) (cause : Nat) : (s.stageFails cause).stg = sgFAILED := by
  rw [State.stg, State.stageFails, getF_raise_other _ _ (by decide) (by decide), getF_setF_other _ _ (by decide)]
  exact stg_setStage s (by decide)

/-! ### Pieces -/

theorem nextPieces_of_none {s : State} (h : s.cfg.pieces = []) : s.nextPieces s.cfg.pieces.length = s := by
  rw [h]
  rfl

theorem cfg_onlyIf_setStage (s : State) (c : Bool) (n : Nat) : (s.onlyIf c fun t => t.setStage n).cfg = s.cfg := by
  cases c <;> rfl

/-- A piece that has been programmed while staging receives is marked. -/
theorem pieceDone_marks {s : State} (j : PieceJob) (hstg : s.stg = sgRECEIVING) :
    ∃ u : State,
      u.cfg = { s.cfg with piece := none, flash := { s.cfg.flash with marked := insertNat (pcIndex j.bytes) s.cfg.flash.marked } } ∧
      s.pieceDone j true = u.nextPieces u.cfg.pieces.length := by
  unfold State.pieceDone
  dsimp only
  rw [if_neg (by decide), if_neg (fun h => h hstg)]
  refine ⟨_, ?_, rfl⟩
  split
  · exact (cfg_onlyIf_setStage ..).trans rfl
  · exact (cfg_onlyIf_setStage ..).trans rfl

/-- A piece that is rejected ends with its reason, and the flash is untouched. -/
theorem rejectPiece_reads (s : State) (reason : Nat) (pos : Option Nat) : (s.rejectPiece reason pos).isSet F.CFG_EVT_PIECE_REJECT 0 = true ∧
    (s.rejectPiece reason pos).getF F.CFG_STAGE_REJECT_LAST 0 = reason % 2 ^ 8 ∧ (s.rejectPiece reason pos).cfg = s.cfg := by
  have hrejected : ∃ u : State, s.rejectPiece reason pos = u ∧ u.cfg = s.cfg ∧ ∀ f : Field, u.getF f 0 =
      (((s.setF F.CFG_STAGE_REJECT_LAST 0 reason).count F.CFG_STAGE_REJECT_COUNT 0).raise E.CFG_PIECE_REJECT 0).getF f 0 := by
    cases pos with
    | some p => exact ⟨_, rfl, rfl, fun _ => rfl⟩
    | none => exact ⟨_, rfl, rfl, fun _ => rfl⟩
  obtain ⟨u, hu, hcfg, hget⟩ := hrejected
  rw [hu, State.isSet, hget, hget, ← State.isSet, getF_raise_other _ _ (by decide) (by decide), getF_count_other _ (by decide), getF_setF]
  exact ⟨isSet_raise_same _ _ E.CFG_PIECE_REJECT rfl (by decide) (by decide), rfl, hcfg⟩

section
variable {s : State} (hheld : s.pwr.held = []) (j : PieceJob) (hpiece : s.cfg.piece = some j)
include hheld hpiece

theorem pieceProgrammed_goes (ok : Bool) : ∃ t, exec (.pieceProgrammed ok) s = .next t ∧ Same ((fresh s).pieceDone j ok).advance t := by
  obtain ⟨t, ht, same⟩ := doneQ_next hheld fun t => match t.cfg.piece with | some j => t.pieceDone j ok | none => t
  rw [fresh_cfg, hpiece] at same
  exact ⟨t, ht, same⟩

variable (hlast : s.cfg.pieces = [])
include hlast

theorem pieceProgrammed_marked (hstg : s.stg = sgRECEIVING) : ∃ t, exec (.pieceProgrammed true) s = .next t ∧
    t.cfg.flash.marked = insertNat (pcIndex j.bytes) s.cfg.flash.marked ∧ t.cfg.piece = none := by
  obtain ⟨t, ht, same⟩ := pieceProgrammed_goes hheld j hpiece true
  obtain ⟨u, hu, hdone⟩ := pieceDone_marks (s := fresh s) j hstg
  rw [hdone, nextPieces_of_none (by rw [hu]; exact hlast)] at same
  exact ⟨t, ht, by rw [same.cfg, advance_cfg, hu]; rfl, by rw [same.cfg, advance_cfg, hu]⟩

theorem pieceProgrammed_rejected : ∃ t, exec (.pieceProgrammed false) s = .next t ∧ t.isSet F.CFG_EVT_PIECE_REJECT 0 = true ∧
    t.getF F.CFG_STAGE_REJECT_LAST 0 = 8 ∧ t.cfg.flash = s.cfg.flash := by
  obtain ⟨t, ht, same⟩ := pieceProgrammed_goes hheld j hpiece false
  obtain ⟨hevent, hreason, hcfg⟩ := rejectPiece_reads ((fresh s).updCfg fun c => { c with piece := none }) 8 j.pos
  have hdone : (fresh s).pieceDone j false = ((fresh s).updCfg fun c => { c with piece := none }).rejectPiece 8 j.pos := by
    unfold State.pieceDone
    dsimp only
    rw [if_pos (by decide), nextPieces_of_none (by rw [hcfg]; exact hlast)]
  rw [hdone] at same
  refine ⟨t, ht, ?_, ?_, ?_⟩
  · rw [same.isSet, isSet_advance _ (by decide) (by decide +kernel), hevent]
  · rw [same.getF, getF_advance _ (by decide) (by decide +kernel), hreason]
    rfl
  · rw [same.cfg, advance_cfg, hcfg]
    rfl

end

/-! ### The checks of a staged image -/

/-- A staged image whose checks pass is copied. -/
def checked (s : State) (svn : Nat) : State :=
  (((s.setStage sgCOPYING).updCfg fun g => { g with stageSvn := svn }).emit (.flashErase (flSlot s.spareSlot) 0x1000000)).emit
    (.flashCopy (flSlot s.spareSlot) (3968 * s.getF F.CFG_STAGE_STATUS_COUNT 0))

/-- A copy whose checks pass is READY. -/
def copied (s : State) : State :=
  (((s.updFlash fun f => { f with stage := f.stage.map fun d => { d with copied := some s.spareSlot } }).emit
    (.flashProgram (flStage + 10) [s.spareSlot])).setStage sgREADY).raise E.CFG_STAGE_READY 0

section
variable {s : State} (hheld : s.pwr.held = []) (f : Stored)
include hheld

theorem stageVerifyDone_goes (hstg : s.stg = sgVERIFYING) : ∃ t, exec (.stageVerifyDone f) s = .next t ∧
    Same (State.advance (if s.verifyCause f.image ≠ 0 then (fresh s).stageFails (s.verifyCause f.image)
      else checked (fresh s) f.image.svn)) t := by
  obtain ⟨t, ht, same⟩ := doneQ_next hheld fun t =>
    if t.stg ≠ sgVERIFYING then t
    else if t.verifyCause f.image ≠ 0 then t.stageFails (t.verifyCause f.image) else checked t f.image.svn
  rw [if_neg (fun h : (fresh s).stg ≠ sgVERIFYING => h hstg)] at same
  exact ⟨t, ht, same⟩

theorem stageVerifyDone_next (hstg : s.stg = sgVERIFYING) (hgood : s.verifyCause f.image = 0) :
    ∃ t, exec (.stageVerifyDone f) s = .next t ∧ t.stg = sgCOPYING ∧ t.cfg.stageSvn = f.image.svn := by
  obtain ⟨t, ht, same⟩ := stageVerifyDone_goes hheld f hstg
  rw [if_neg (fun h => h hgood)] at same
  exact ⟨t, ht, (stg_of_same same).trans (stg_setStage (fresh s) (n := sgCOPYING) (by decide)), by rw [same.cfg, advance_cfg]; rfl⟩

theorem stageVerifyDone_fails (hstg : s.stg = sgVERIFYING) (hbad : s.verifyCause f.image ≠ 0) :
    ∃ t, exec (.stageVerifyDone f) s = .next t ∧ t.stg = sgFAILED ∧ t.isSet F.CFG_EVT_STAGE_FAIL 0 = true := by
  obtain ⟨t, ht, same⟩ := stageVerifyDone_goes hheld f hstg
  rw [if_pos hbad] at same
  exact ⟨t, ht, (stg_of_same same).trans (stg_stageFails ..),
    by rw [same.isSet, isSet_advance _ (by decide) (by decide +kernel), isSet_stageFails]⟩

theorem stageCopyDone_goes (hstg : s.stg = sgCOPYING) : ∃ t, exec (.stageCopyDone f) s = .next t ∧
    Same (State.advance (if s.verifyCause f.image ≠ 0 then (fresh s).stageFails (s.verifyCause f.image) else copied (fresh s))) t := by
  obtain ⟨t, ht, same⟩ := doneQ_next hheld fun t =>
    if t.stg ≠ sgCOPYING then t
    else if t.verifyCause f.image ≠ 0 then t.stageFails (t.verifyCause f.image) else copied t
  rw [if_neg (fun h : (fresh s).stg ≠ sgCOPYING => h hstg)] at same
  exact ⟨t, ht, same⟩

theorem stageCopyDone_next (hstg : s.stg = sgCOPYING) (hgood : s.verifyCause f.image = 0) :
    ∃ t, exec (.stageCopyDone f) s = .next t ∧ t.stg = sgREADY ∧ t.isSet F.CFG_EVT_STAGE_READY 0 = true := by
  obtain ⟨t, ht, same⟩ := stageCopyDone_goes hheld f hstg
  rw [if_neg (fun h => h hgood)] at same
  refine ⟨t, ht, (stg_of_same same).trans ?_, ?_⟩
  · rw [State.stg, copied, getF_raise_other _ _ (by decide) (by decide)]
    exact stg_setStage _ (by decide)
  · rw [same.isSet, isSet_advance _ (by decide) (by decide +kernel)]
    exact isSet_raise_same _ _ E.CFG_STAGE_READY rfl (by decide) (by decide)

theorem stageCopyDone_fails (hstg : s.stg = sgCOPYING) (hbad : s.verifyCause f.image ≠ 0) :
    ∃ t, exec (.stageCopyDone f) s = .next t ∧ t.stg = sgFAILED ∧ t.isSet F.CFG_EVT_STAGE_FAIL 0 = true := by
  obtain ⟨t, ht, same⟩ := stageCopyDone_goes hheld f hstg
  rw [if_pos hbad] at same
  exact ⟨t, ht, (stg_of_same same).trans (stg_stageFails ..),
    by rw [same.isSet, isSet_advance _ (by decide) (by decide +kernel), isSet_stageFails]⟩

end

/-! ### STAGE_ABANDON -/

/-- Staging that is erased is EMPTY with nothing received. -/
theorem stageErase_reads (s : State) : s.stageErase.stg = sgEMPTY ∧ s.stageErase.getF F.CFG_STAGE_STATUS_RECEIVED 0 = 0 := by
  unfold State.stageErase State.showStage State.set64
  dsimp only
  refine ⟨?_, ?_⟩
  · rw [State.stg, emit_getF, emit_getF]
    simp (disch := decide) only [getF_setF_other]
    exact stg_setStage _ (by decide)
  · rw [emit_getF, emit_getF]
    simp (disch := decide) only [getF_setF_other, getF_setF]
    rfl

section
variable {s : State} (hserved : s.pf1Served = true)
include hserved

theorem stageAbandon_next (hstg : s.stg ≠ sgARMED) (hnot : s.shiftArmed = false) :
    ∃ t, exec .stageAbandon s = .next t ∧ t.stg = sgEMPTY ∧ t.cfg.flash.stage = none ∧ t.getF F.CFG_STAGE_STATUS_RECEIVED 0 = 0 := by
  obtain ⟨t, ht, same⟩ := doneW_next hserved fun t => t.abandon
  rw [State.abandon, shiftArmed_flushAsm, stg_flushAsm,
    if_neg (show ¬ ((fresh s).stg = sgARMED ∨ (fresh s).shiftArmed = true) from not_or.2 ⟨hstg,
      fun h => absurd (hnot.symm.trans h) (by decide)⟩)] at same
  obtain ⟨hempty, hreceived⟩ := stageErase_reads (fresh s).flushAsm
  exact ⟨t, ht, by rw [State.stg, same.getF, ← State.stg, hempty], by rw [same.cfg]; rfl, by rw [same.getF, hreceived]⟩

theorem stageAbandon_rejected (hbad : s.stg = sgARMED ∨ s.shiftArmed = true) :
    ∃ t, exec .stageAbandon s = .next t ∧ t.isSet F.CFG_EVT_CFG_REJECT 0 = true ∧ t.stg = s.stg := by
  obtain ⟨t, ht, same⟩ := doneW_next hserved fun t => t.abandon
  rw [State.abandon, shiftArmed_flushAsm, stg_flushAsm, if_pos (show (fresh s).stg = sgARMED ∨
    (fresh s).shiftArmed = true from hbad)] at same
  refine ⟨t, ht, ?_, ?_⟩
  · rw [same.isSet]
    exact isSet_raise_same _ _ E.CFG_CFG_REJECT rfl (by decide) (by decide)
  · rw [State.stg, same.getF, State.cfgReject, getF_raise_other _ _ (by decide) (by decide),
      getF_flushAsm _ (by decide) (by decide +kernel)]
    rfl

end

/-! ### ARM_PREPARED -/

theorem getF_finish (s : State) (pos : Nat) (st : Status) (res : Nat) (f : Field) (i : Nat) :
    (s.finish pos st res).getF f i = s.getF f i := rfl

/-- What a unit shows that is armed before it may commit itself. -/
def armedShown (s : State) (im : Image) (pos : Nat) : State :=
  ((((s.updCfg fun c => { c with standby := some im }).setStage sgARMED).setF F.CFG_SHIFT_STATUS_STATE 0 shARMED).finish pos
    stSuccess 0).raise E.CFG_ARMED 0

theorem getF_armedShown (s : State) (im : Image) (pos : Nat) {f : Field} (hevent : E.CFG_ARMED.fld.id ≠ f.id)
    (hforced : E.CFG_ARMED.reg.forced.id ≠ f.id) (hshift : F.CFG_SHIFT_STATUS_STATE.id ≠ f.id)
    (hstage : F.CFG_STAGE_STATUS_STATE.id ≠ f.id) :
    (armedShown s im pos).getF f 0 = s.getF f 0 := by
  rw [armedShown, getF_raise_other _ _ hevent hforced, getF_finish, getF_setF_other _ _ hshift, State.setStage,
    getF_setF_other _ _ hstage, getF_updCfg]

theorem onRing_armedShown (s : State) (im : Image) (pos : Nat) : (armedShown s im pos).onRing = s.onRing := by
  simp only [State.onRing, State.isSet]
  rw [getF_armedShown _ _ _ (by decide) (by decide) (by decide) (by decide),
    getF_armedShown _ _ _ (by decide) (by decide) (by decide) (by decide),
    getF_armedShown _ _ _ (by decide) (by decide) (by decide) (by decide)]

/-- A unit that is armed; off the ring it commits itself. -/
theorem armed_reads (s : State) (im : Image) (pos : Nat) : (s.armed im pos).stg = sgARMED ∧
    (s.armed im pos).isSet F.CFG_EVT_ARMED 0 = true ∧
    (s.armed im pos).cfg.standby = some im ∧ (s.armed im pos).shift = if s.onRing then shARMED else shCOMMITTED := by
  have hstage : (armedShown s im pos).stg = sgARMED := by
    rw [State.stg, armedShown, getF_raise_other _ _ (by decide) (by decide), getF_finish, getF_setF_other _ _ (by decide)]
    exact stg_setStage _ (by decide)
  have hevent : (armedShown s im pos).isSet F.CFG_EVT_ARMED 0 = true := isSet_raise_same _ _ E.CFG_ARMED rfl (by decide) (by decide)
  have heq : s.armed im pos = if s.onRing then armedShown s im pos else (armedShown s im pos).shiftCommit
    (armedShown s im pos).selfFrame := by
    rw [← onRing_armedShown s im pos]
    rfl
  rw [heq]
  by_cases hring : s.onRing = true
  · rw [if_pos hring, if_pos hring]
    refine ⟨hstage, hevent, rfl, ?_⟩
    rw [State.shift, armedShown, getF_raise_other _ _ (by decide) (by decide), getF_finish, getF_setF]
    rfl
  · rw [if_neg hring, if_neg hring]
    unfold State.shiftCommit
    refine ⟨?_, ?_, rfl, ?_⟩
    · rw [State.stg]
      simp (disch := decide) only [getF_setB_other, getF_setF_other]
      exact hstage
    · simp (disch := decide) only [isSet_setB_other, isSet_setF_other]
      exact hevent
    · rw [State.shift]
      simp (disch := decide) only [getF_setB_other, getF_setF_other, getF_setF]
      rfl

section
variable {s : State} (hheld : s.pwr.held = []) (f : Stored) (pos : Nat) (harming : s.cfg.arming = some pos) (hstg : s.stg = sgREADY)
include hheld harming hstg

theorem armPrepared_goes : ∃ t, exec (.armPrepared f) s = .next t ∧ Same (State.advance
    (if s.prepareCause f.image ≠ 0 then
      (((fresh s).updCfg fun c => { c with arming := none }).stageFails (s.prepareCause f.image)).finish pos stArmRefused 0
    else ((fresh s).updCfg fun c => { c with arming := none }).armed f.image pos)) t := by
  obtain ⟨t, ht, same⟩ := doneQ_next hheld fun t =>
    match t.cfg.arming with
    | none => t
    | some pos =>
      let u := t.updCfg fun c => { c with arming := none }
      let c := u.prepareCause f.image
      if u.stg ≠ sgREADY then u.finish pos stArmRefused 0
      else if c ≠ 0 then (u.stageFails c).finish pos stArmRefused 0
      else u.armed f.image pos
  rw [fresh_cfg, harming] at same
  dsimp only at same
  rw [if_neg (fun h : ((fresh s).updCfg fun c => { c with arming := none }).stg ≠ sgREADY => h hstg)] at same
  exact ⟨t, ht, same⟩

theorem armPrepared_fails (hbad : s.prepareCause f.image ≠ 0) : ∃ t, exec (.armPrepared f) s = .next t ∧ t.stg = sgFAILED ∧
    t.isSet F.CFG_EVT_STAGE_FAIL 0 = true ∧ t.cfg.arming = none := by
  obtain ⟨t, ht, same⟩ := armPrepared_goes hheld f pos harming hstg
  rw [if_pos hbad] at same
  refine ⟨t, ht, (stg_of_same same).trans (stg_stageFails ..), ?_, by rw [same.cfg, advance_cfg]; rfl⟩
  rw [same.isSet, isSet_advance _ (by decide) (by decide +kernel)]
  exact isSet_stageFails ..

theorem armPrepared_next (hgood : s.prepareCause f.image = 0) : ∃ t, exec (.armPrepared f) s = .next t ∧ t.stg = sgARMED ∧
    t.isSet F.CFG_EVT_ARMED 0 = true ∧ t.cfg.standby = some f.image ∧ t.shift = (if s.onRing then shARMED else shCOMMITTED) := by
  obtain ⟨t, ht, same⟩ := armPrepared_goes hheld f pos harming hstg
  rw [if_neg (fun h => h hgood)] at same
  obtain ⟨hstage, hevent, hcfg, hshift⟩ := armed_reads ((fresh s).updCfg fun c => { c with arming := none }) f.image pos
  refine ⟨t, ht, (stg_of_same same).trans hstage, ?_, by rw [same.cfg, advance_cfg, hcfg], ?_⟩
  · rw [same.isSet, isSet_advance _ (by decide) (by decide +kernel), hevent]
  · rw [State.shift, same.getF, getF_advance _ (by decide) (by decide +kernel)]
    exact hshift

end

/-- Settles O39: one lemma per row, above. -/
theorem stagingRows : Obligations.StagingRows := fun _ =>
  ⟨fun j hheld hpiece hlast hstg => ⟨pieceProgrammed_marked hheld j hpiece hlast hstg, pieceProgrammed_rejected hheld j hpiece hlast⟩,
    fun f hheld hstg => ⟨stageVerifyDone_next hheld f hstg, stageVerifyDone_fails hheld f hstg⟩,
    fun f hheld hstg => ⟨stageCopyDone_next hheld f hstg, stageCopyDone_fails hheld f hstg⟩,
    fun hserved => ⟨stageAbandon_next hserved, stageAbandon_rejected hserved⟩,
    fun f pos hheld harming hstg => armPrepared_next hheld f pos harming hstg,
    fun f pos hheld harming hstg => armPrepared_fails hheld f pos harming hstg⟩

end Sys2Proof.Proofs
end

section
/-!
PROOFS. The shift (R380 to R383, R402): one lemma per row, assembled at the end.
-/
set_option Elab.async false

namespace Sys2Proof.Proofs

open Sys2Proof.Machine Sys2Proof.Laws

theorem shift_of_same {a t : State} (h : Same a.advance t) : t.shift = a.shift :=
  (h.getF ..).trans (getF_advance _ (by decide) (by decide +kernel))

/-! ### SHIFT_COMMIT_RECEIVED -/

theorem shiftCommitReceived_next {s : State} (hheld : s.pwr.held = []) (e : BitVec 64) (f : BitVec 40) (hring : s.onRing = true)
    (harmed : s.shift = shARMED) (hepoch : s.stageEpoch = e.toNat) :
    ∃ t, exec (.shiftCommitReceived e f) s = .next t ∧ t.shift = shCOMMITTED ∧ t.shiftF = f.toNat ∧ t.isSet F.HQI_CSTS_HELD 0 = true := by
  obtain ⟨t, ht, same⟩ := doneQ_next hheld fun t => t.commitSeen e.toNat f.toNat
  rw [State.commitSeen, if_pos (by
    show (s.onRing && s.shift == shARMED && s.stageEpoch == e.toNat) = true
    rw [hring, harmed, hepoch, beq_self_eq_true, beq_self_eq_true]
    rfl), State.shiftCommit] at same
  refine ⟨t, ht, (shift_of_same same).trans ?_, ?_, ?_⟩
  · rw [State.shift]
    simp (disch := decide) only [getF_setB_other, getF_setF_other, getF_setF]
    rfl
  · have hlo : t.getF F.CFG_SHIFT_FRAME_LO_F_LO 0 = f.toNat % 2 ^ 32 := by
      rw [same.getF, getF_advance _ (by decide) (by decide +kernel)]
      simp (disch := decide) only [getF_setB_other, getF_setF_other, getF_setF]
      exact Nat.mod_mod ..
    have hhi : t.getF F.CFG_SHIFT_FRAME_HI_F_HI 0 = f.toNat / 2 ^ 32 := by
      rw [same.getF, getF_advance _ (by decide) (by decide +kernel)]
      simp (disch := decide) only [getF_setB_other, getF_setF]
      exact Nat.mod_eq_of_lt (by have := f.isLt; show _ < 2 ^ 8; omega)
    rw [State.shiftF, State.get64, hlo, hhi, Nat.mul_comm, Nat.mod_add_div]
  · rw [same.isSet, isSet_advance _ (by decide) (by decide +kernel), isSet_setB_same _ _ _ _ (by decide)]

/-! ### The frame boundary -/

/-- The state in cycle 0 of the tick that begins next. -/
def strobe (s : State) : State := { fresh s with tick := (s.tick + 1) % 2 ^ 48 }

theorem getF_withTick (s : State) (n : Nat) (f : Field) (i : Nat) : ({ s with tick := n } : State).getF f i = s.getF f i := rfl

theorem isSet_withTick (s : State) (n : Nat) (f : Field) (i : Nat) : ({ s with tick := n } : State).isSet f i = s.isSet f i := rfl

/-- What follows the standby plane's take-over in the registers of decks and heads. -/
def afterApply : Nat := W.clearTables ||| W.enterMeasure ||| W.deckGone

/-- The shift is APPLIED; a late one is reported. -/
theorem shiftApply_reads {s : State} {im : Image} (hstandby : s.cfg.standby = some im) (n : Nat) :
    (s.shiftApply n).shift = shAPPLIED ∧ (n ≠ 0 → (s.shiftApply n).isSet F.CFG_EVT_SHIFT_LATE 0 = true) := by
  unfold State.shiftApply
  rw [hstandby]
  dsimp -zeta only
  extract_lets slot old s1 s2 s3 s4 s5 s6 s7
  have hframe : Frame afterApply s5 (s7.forEach ((List.range 8).filter fun d => s.present d && !s5.present d) fun t d => t.deckGone d) := by
    refine Frame.forEach (Frame.forEach (Frame.forEach (Frame.refl _ _) fun t h ht => ?_) fun t d ht => ?_) fun t d ht => ?_
    · exact (clearTables_frame ..).step ht (by decide +kernel)
    · exact (enterMeasure_frame ..).step ht (by decide +kernel)
    · exact (deckGone_frame ..).step ht (by decide +kernel)
  refine ⟨?_, fun hn => ?_⟩
  · rw [State.shift, hframe.getF (by decide) (by decide +kernel), getF_onlyIf, getF_raise_other _ _ (by decide) (by decide), ite_self,
      getF_setF_other _ _ (by decide), getF_setF]
    rfl
  · rw [hframe.isSet (by decide) (by decide +kernel), isSet_onlyIf, if_pos (bne_iff_ne.2 hn)]
    exact isSet_raise_same _ _ E.CFG_SHIFT_LATE rfl (by decide) (by decide)

section
variable {s : State} (hheld : s.pwr.held = []) (hframe : (s.tick + 1) % 2 ^ 48 % 50 = 0) (hrepeats : s.tck.repeats = 0)

include hframe hrepeats in
theorem atStrobe_acts (f : State → State) : (fresh s).atStrobe f = { f (strobe s) with tick := s.tick } :=
  if_pos ⟨hframe, hrepeats⟩

variable (hbegun : begun s.shiftF (strobe s).frameStarts = true)

section
include hbegun

theorem shiftFrame_begun : (strobe s).shiftFrame =
    if (strobe s).quiescent && decide (((strobe s).frameStarts + 2 ^ 40 - s.shiftF) % 2 ^ 40 ≤ 4096) then
      (strobe s).shiftApply (((strobe s).frameStarts + 2 ^ 40 - s.shiftF) % 2 ^ 40)
    else if 4096 ≤ ((strobe s).frameStarts + 2 ^ 40 - s.shiftF) % 2 ^ 40 then (strobe s).shiftStays
    else (strobe s).setF F.CFG_SHIFT_STATUS_STATE 0 shHOLDING := by
  unfold State.shiftFrame
  exact if_neg (by rw [show begun (strobe s).shiftF (strobe s).frameStarts = true from hbegun]; decide)

theorem shiftFrame_applies (hquiet : (strobe s).quiescent = true) (hlate : ((strobe s).frameStarts + 2 ^ 40 - s.shiftF) % 2 ^ 40 ≤ 4096) :
    (strobe s).shiftFrame = (strobe s).shiftApply (((strobe s).frameStarts + 2 ^ 40 - s.shiftF) % 2 ^ 40) := by
  rw [shiftFrame_begun hbegun, if_pos (by rw [hquiet, decide_eq_true hlate]; rfl)]

end

include hheld hframe hrepeats hbegun

theorem shiftFrameBegin_holds (hshift : s.shift = shCOMMITTED) (hbusy : (strobe s).quiescent = false)
    (hlate : ((strobe s).frameStarts + 2 ^ 40 - s.shiftF) % 2 ^ 40 < 4096) : ∃ t, exec .shiftFrameBegin s = .next t ∧
      t.shift = shHOLDING := by
  obtain ⟨t, ht, same⟩ := doneQ_next hheld fun t => t.atStrobe fun u => if u.shift = shCOMMITTED then u.shiftFrame else u
  rw [atStrobe_acts hframe hrepeats, if_pos (show (strobe s).shift = shCOMMITTED from hshift), shiftFrame_begun hbegun,
    if_neg (by rw [hbusy, Bool.false_and]; decide), if_neg (Nat.not_le.2 hlate)] at same
  refine ⟨t, ht, (shift_of_same same).trans ?_⟩
  rw [State.shift, getF_withTick, getF_setF]
  rfl

section
variable {im : Image} (hquiet : (strobe s).quiescent = true)
  (hlate : ((strobe s).frameStarts + 2 ^ 40 - s.shiftF) % 2 ^ 40 ≤ 4096) (hstandby : s.cfg.standby = some im)
include hquiet hlate hstandby

theorem shiftFrameBegin_applies (hshift : s.shift = shCOMMITTED) :
    ∃ t, exec .shiftFrameBegin s = .next t ∧ t.shift = shAPPLIED ∧ t.tick = s.tick := by
  obtain ⟨t, ht, same⟩ := doneQ_next hheld fun t => t.atStrobe fun u => if u.shift = shCOMMITTED then u.shiftFrame else u
  rw [atStrobe_acts hframe hrepeats, if_pos (show (strobe s).shift = shCOMMITTED from hshift),
    shiftFrame_applies hbegun hquiet hlate] at same
  exact ⟨t, ht, (shift_of_same same).trans (shiftApply_reads (s := strobe s) hstandby _).1, by rw [same.tick, advance_tick]⟩

theorem shiftQuiescent_next (hshift : s.shift = shHOLDING) : ∃ t, exec .shiftQuiescent s = .next t ∧ t.shift = shAPPLIED ∧
    (((strobe s).frameStarts + 2 ^ 40 - s.shiftF) % 2 ^ 40 ≠ 0 → t.isSet F.CFG_EVT_SHIFT_LATE 0 = true) := by
  obtain ⟨t, ht, same⟩ := doneQ_next hheld fun t => t.atStrobe fun u => if u.shift = shHOLDING ∧ u.quiescent then u.shiftFrame else u
  rw [atStrobe_acts hframe hrepeats, if_pos ⟨(show (strobe s).shift = shHOLDING from hshift), hquiet⟩,
    shiftFrame_applies hbegun hquiet hlate] at same
  obtain ⟨happlied, hevent⟩ := shiftApply_reads (s := strobe s) hstandby (((strobe s).frameStarts + 2 ^ 40 - s.shiftF) % 2 ^ 40)
  refine ⟨t, ht, (shift_of_same same).trans happlied, fun hn => ?_⟩
  rw [same.isSet, isSet_advance _ (by decide) (by decide +kernel), isSet_withTick, hevent hn]

end

theorem shiftStayTimeout_next (hshift : s.shift = shHOLDING) (hlate : 4096 ≤ ((strobe s).frameStarts + 2 ^ 40 - s.shiftF) % 2 ^ 40)
    (hbusy : (strobe s).quiescent = false) : ∃ t, exec .shiftStayTimeout s = .next t ∧ t.shift = shSTAYED ∧
      t.isSet F.CFG_EVT_SHIFT_STAYED 0 = true ∧ t.isSet F.HQI_CSTS_HELD 0 = false := by
  obtain ⟨t, ht, same⟩ := doneQ_next hheld fun t => t.atStrobe fun u =>
    if u.shift = shHOLDING ∧ 4096 ≤ (u.frameStarts + 2 ^ 40 - u.shiftF) % 2 ^ 40 then u.shiftFrame.issueWaiting else u
  rw [atStrobe_acts hframe hrepeats, if_pos ⟨(show (strobe s).shift = shHOLDING from hshift), hlate⟩, shiftFrame_begun hbegun,
    if_neg (by rw [hbusy, Bool.false_and]; decide), if_pos hlate, State.shiftStays, State.dropStandby] at same
  dsimp only at same
  refine ⟨t, ht, (shift_of_same same).trans ?_, ?_, ?_⟩
  · rw [State.shift, getF_withTick, (issueWaiting_frame _).getF (by decide) (by decide +kernel),
      getF_raise_other _ _ (by decide) (by decide),
      getF_setB_other _ _ (by decide), getF_setF_other _ _ (by decide), getF_setF]
    rfl
  · rw [same.isSet, isSet_advance _ (by decide) (by decide +kernel), isSet_withTick,
      (issueWaiting_frame _).isSet (by decide) (by decide +kernel)]
    exact isSet_raise_same _ _ E.CFG_SHIFT_STAYED rfl (by decide) (by decide)
  · rw [same.isSet, isSet_advance _ (by decide) (by decide +kernel), isSet_withTick,
      (issueWaiting_frame _).isSet (by decide) (by decide +kernel),
      isSet_raise_other _ _ (by decide) (by decide), isSet_setB_same _ _ _ _ (by decide)]

end

/-! ### SHIFT_TABLES_COPIED -/

theorem shiftTablesCopied_next {s : State} (hheld : s.pwr.held = []) (b : Bool) (hcopying : s.cfg.copying = true) :
    ∃ t, exec (.shiftTablesCopied b) s = .next t ∧ t.isSet F.CFG_EVT_SHIFT_APPLIED 0 = true ∧ t.isSet F.HQI_CSTS_HELD 0 = false ∧
      t.isSet F.CFG_STATUS_RECORD_READY 0 = true ∧ t.isSet F.CFG_STATUS_FALLBACK 0 = false := by
  obtain ⟨t, ht, same⟩ := doneQ_next hheld fun t =>
    if !t.cfg.copying then t
    else
      let u := (t.copyLoads (t.cfg.image.getD {})).updCfg fun c => { c with copying := false }
      let w := ((u.setB F.HQI_CSTS_HELD 0 false).writeActive (u.getF F.CFG_STATUS_SLOT 0)).setB F.CFG_STATUS_FALLBACK 0 false
      (((w.signRecord 5 (if w.onRing then w.cfg.lastShift else 0) b)).raise E.CFG_SHIFT_APPLIED 0).issueWaiting
  rw [if_neg (by rw [fresh_cfg, hcopying]; decide)] at same
  extract_lets u w at same
  obtain ⟨hready, -, -⟩ := signRecord_reads w 5 (if w.onRing then w.cfg.lastShift else 0) b
  refine ⟨t, ht, ?_, ?_, ?_, ?_⟩
  · rw [same.isSet, isSet_advance _ (by decide) (by decide +kernel), (issueWaiting_frame _).isSet (by decide) (by decide +kernel)]
    exact isSet_raise_same _ _ E.CFG_SHIFT_APPLIED rfl (by decide) (by decide)
  · rw [same.isSet, isSet_advance _ (by decide) (by decide +kernel), (issueWaiting_frame _).isSet (by decide) (by decide +kernel),
      isSet_raise_other _ _ (by decide) (by decide), (signRecord_frame ..).isSet (by decide) (by decide +kernel),
      isSet_setB_other _ _ (by decide), (writeActive_frame ..).isSet (by decide) (by decide +kernel), isSet_setB_same _ _ _ _ (by decide)]
  · rw [same.isSet, isSet_advance _ (by decide) (by decide +kernel), (issueWaiting_frame _).isSet (by decide) (by decide +kernel),
      isSet_raise_other _ _ (by decide) (by decide), hready]
  · rw [same.isSet, isSet_advance _ (by decide) (by decide +kernel), (issueWaiting_frame _).isSet (by decide) (by decide +kernel),
      isSet_raise_other _ _ (by decide) (by decide), (signRecord_frame ..).isSet (by decide) (by decide +kernel),
      isSet_setB_same _ _ _ _ (by decide)]

/-- Settles O40: one lemma per row, above. -/
theorem shiftRows : Obligations.ShiftRows := fun _ hheld =>
  ⟨shiftCommitReceived_next hheld, fun hframe hrepeats hbegun =>
      ⟨shiftFrameBegin_holds hheld hframe hrepeats hbegun,
        fun _ hquiet hlate hstandby => ⟨shiftFrameBegin_applies hheld hframe hrepeats hbegun hquiet hlate hstandby,
          shiftQuiescent_next hheld hframe hrepeats hbegun hquiet hlate hstandby⟩,
        shiftStayTimeout_next hheld hframe hrepeats hbegun⟩,
    shiftTablesCopied_next hheld⟩

end Sys2Proof.Proofs
end

section
/-!
PROOFS. The ring's roles (R387, R392 to R394): what entering a role shows, then one lemma per row, assembled at the end.
-/
set_option Elab.async false

namespace Sys2Proof.Laws

open Sys2Proof.Machine

/-! ### The ring's state -/

section
variable (s : State) (g : TrlS → TrlS) (f : Field) (i : Nat)

@[simp] theorem getF_updTrl : (s.updTrl g).getF f i = s.getF f i := rfl

@[simp] theorem isSet_updTrl : (s.updTrl g).isSet f i = s.isSet f i := rfl

@[simp] theorem trl_updTrl : (s.updTrl g).trl = g s.trl := rfl

@[simp] theorem trl_setF (v : Nat) : (s.setF f i v).trl = s.trl := rfl

@[simp] theorem trl_setB (b : Bool) : (s.setB f i b).trl = s.trl := rfl

@[simp] theorem trl_raise (e : Event) : (s.raise e i).trl = s.trl := rfl

end

@[simp] theorem getF_emit (s : State) (o : Output) (f : Field) (i : Nat) : (s.emit o).getF f i = s.getF f i := rfl

theorem role_of_same {a t : State} (h : Same a t) : t.role = a.role := h.getF ..

theorem role_flushAsm (s : State) : s.flushAsm.role = s.role := getF_flushAsm _ (by decide) (by decide +kernel)

theorem role_setF (s : State) {f : Field} (i v : Nat) (h : f.id ≠ F.TRL_STATUS_ROLE.id) : (s.setF f i v).role = s.role :=
  getF_setF_other s v h

theorem role_setB (s : State) {f : Field} (i : Nat) (b : Bool) (h : f.id ≠ F.TRL_STATUS_ROLE.id) : (s.setB f i b).role = s.role :=
  getF_setB_other s b h

theorem role_raise (s : State) (e : Event) (i : Nat) (h : e.fld.id ≠ F.TRL_STATUS_ROLE.id)
    (k : e.reg.forced.id ≠ F.TRL_STATUS_ROLE.id) : (s.raise e i).role = s.role := getF_raise_other s e h k

/-! ### Entering a role -/

/-- The new role is shown. -/
theorem role_setRole (s : State) {r : Nat} (hr : r < 8) : (s.setRole r).role = r := by
  unfold State.setRole State.role
  dsimp only
  simp (disch := decide) only [getF_ite, getF_updTrl, getF_setF_other, getF_setF, ite_self]
  exact Nat.mod_eq_of_lt hr

/-- BYP_HOLD is high from LISTEN on (R394). -/
theorem bypHold_setRole (s : State) (r : Nat) : (s.setRole r).isSet F.TRL_STATUS_BYP_HOLD 0 = decide (2 ≤ r) := by
  unfold State.setRole
  dsimp only
  simp (disch := decide) only [isSet_ite, isSet_updTrl, isSet_setF_other, ite_self]
  split
  case isTrue h => exact h
  case isFalse => exact isSet_setB_same _ _ _ _ (by decide)

theorem role_enterElect (s : State) : s.enterElect.role = rlELECT :=
  ((showHead_frame ..).getF (by decide) (by decide +kernel)).trans (role_setRole s (by decide))

theorem headLo_showHead (s : State) (n : Nat) : (s.showHead n).getF F.TRL_HEAD_LO_SERIAL 0 = n % 2 ^ 32 := by
  rw [State.showHead, getF_setF_other _ _ (by decide), getF_setF]
  exact Nat.mod_mod ..

theorem headHi_showHead (s : State) {n : Nat} (hn : n < 2 ^ 64) : (s.showHead n).getF F.TRL_HEAD_HI_SERIAL 0 = n / 2 ^ 32 := by
  rw [State.showHead, getF_setF]
  exact Nat.mod_eq_of_lt (by show _ < 2 ^ 32; omega)

/-- A message that goes into a slot changes only the messages that wait. -/
theorem sendMsg_trl (s : State) : s.sendMsg.trl = { s.trl with tx := s.sendMsg.trl.tx } := by
  unfold State.sendMsg
  split
  · rfl
  · dsimp only
    unfold State.onlyIf
    split <;> rfl

/-- The headframe's frame: its time goes on, and it has not returned yet. -/
theorem originate_trl (s : State) (slot : Bool) :
    (s.originate slot).trl.time = (s.trl.time + 1) % 2 ^ 40 ∧ (s.originate slot).trl.absent = s.trl.absent + 1 := by
  unfold State.originate
  extract_lets t job s1 own s2 phase e f marked s3
  have hblock : (s3.shiftBlock phase e f).trl = s1.trl := by
    rw [unmasked (shiftBlock_frame ..).trl (by decide +kernel), show s3.trl = s2.trl from rfl,
      unmasked (frameExcl_frame ..).trl (by decide +kernel), unmasked (frameFlags_frame ..).trl (by decide +kernel)]
  unfold State.onlyIf
  split
  · rw [sendMsg_trl, hblock]
    exact ⟨rfl, rfl⟩
  · rw [hblock]
    exact ⟨rfl, rfl⟩

end Sys2Proof.Laws

namespace Sys2Proof.Proofs

open Sys2Proof.Machine Sys2Proof.Laws

/-! ### RING_FRAME_TICK -/

section
variable {s : State} (hheld : s.pwr.held = []) (htick : s.onTick 50 = true) (slot : Bool)
include hheld htick

theorem ringFrameTick_hears (hrole : s.role = rlLISTEN ∨ s.role = rlMEMBER) :
    ∃ t, exec (.ringFrameTick slot) s = .next t ∧ t.trl.silent = min 8 (s.trl.silent + 1) := by
  obtain ⟨t, ht, same⟩ := doneQ_next hheld fun t => if t.onTick 50 then t.ringTick slot else t
  have hhead : s.role ≠ rlHEAD := by rcases hrole with h | h <;> rw [h] <;> decide
  have helect : s.role ≠ rlELECT := by rcases hrole with h | h <;> rw [h] <;> decide
  have heq : ((fresh s).ringTick slot).trl.silent = min 8 (s.trl.silent + 1) := by
    unfold State.ringTick
    dsimp only
    rw [if_neg (show (fresh s).role ≠ _ from hhead), if_neg (show (fresh s).role ≠ _ from helect), trl_updTrl]
    exact if_pos hrole
  rw [if_pos (show (fresh s).onTick 50 = true from htick)] at same
  exact ⟨t, ht, by rw [same.trl, advance_trl, heq]⟩

theorem ringFrameTick_elects (hrole : s.role = rlELECT) :
    ∃ t, exec (.ringFrameTick slot) s = .next t ∧ t.trl.electFor = min 64 (s.trl.electFor + 1) := by
  obtain ⟨t, ht, same⟩ := doneQ_next hheld fun t => if t.onTick 50 then t.ringTick slot else t
  have heq : ((fresh s).ringTick slot).trl.electFor = min 64 (s.trl.electFor + 1) := by
    unfold State.ringTick
    dsimp only
    rw [if_neg (show (fresh s).role ≠ rlHEAD from hrole ▸ by decide), if_pos (show (fresh s).role = _ from hrole)]
    exact if_pos hrole
  rw [if_pos (show (fresh s).onTick 50 = true from htick)] at same
  exact ⟨t, ht, by rw [same.trl, advance_trl, heq]⟩

theorem ringFrameTick_heads (hrole : s.role = rlHEAD) :
    ∃ t, exec (.ringFrameTick slot) s = .next t ∧ t.trl.time = (s.trl.time + 1) % 2 ^ 40 ∧ t.trl.absent = s.trl.absent + 1 := by
  obtain ⟨t, ht, same⟩ := doneQ_next hheld fun t => if t.onTick 50 then t.ringTick slot else t
  rw [if_pos (show (fresh s).onTick 50 = true from htick), State.ringTick] at same
  rw [if_pos (show (fresh s).role = _ from hrole)] at same
  refine ⟨t, ht, ?_, ?_⟩ <;> rw [same.trl, advance_trl]
  · exact (originate_trl _ slot).1
  · exact (originate_trl _ slot).2

end

/-! ### TRL_CTL -/

section
variable {s : State} (hserved : s.pf1Served = true)
include hserved

theorem ringEnable_next (hloaded : s.isSet F.CFG_STATUS_LOADED 0 = true) (hrole : s.role = rlOFF) :
    ∃ t, exec .ringEnable s = .next t ∧ t.isSet F.TRL_CTL_EN 0 = true ∧ t.role = rlLOOP := by
  obtain ⟨t, ht, same⟩ := doneW_next hserved fun t => t.enableRing
  have hloaded1 : ((fresh s).flushAsm.setB F.TRL_CTL_EN 0 true).isSet F.CFG_STATUS_LOADED 0 = true := by
    rw [isSet_setB_other _ _ (by decide), isSet_flushAsm _ (by decide) (by decide +kernel)]
    exact hloaded
  have hrole1 : ((fresh s).flushAsm.setB F.TRL_CTL_EN 0 true).role = rlOFF := by
    rw [role_setB _ _ _ (by decide), role_flushAsm]
    exact hrole
  have heq : (fresh s).flushAsm.enableRing = ((fresh s).flushAsm.setB F.TRL_CTL_EN 0 true).setRole rlLOOP := by
    unfold State.enableRing State.ringStart
    exact if_pos (by rw [isSet_setB_same _ _ _ _ (by decide), hloaded1, hrole1]; rfl)
  rw [heq] at same
  refine ⟨t, ht, ?_, (role_of_same same).trans (role_setRole _ (by decide))⟩
  rw [same.isSet, (setRole_frame ..).isSet (by decide) (by decide +kernel), isSet_setB_same _ _ _ _ (by decide)]

omit hserved in
theorem role_leaveRing (s : State) : s.leaveRing.role = rlOFF := by
  unfold State.leaveRing State.ringOff
  split
  case isTrue h => exact h
  case isFalse => exact role_setRole _ (by decide)

theorem ringDisable_next : ∃ t, exec .ringDisable s = .next t ∧ t.isSet F.TRL_CTL_EN 0 = false ∧ t.role = rlOFF := by
  obtain ⟨t, ht, same⟩ := doneW_next hserved fun t => t.disableRing
  refine ⟨t, ht, ?_, (role_of_same same).trans (role_leaveRing _)⟩
  rw [same.isSet, State.disableRing, (leaveRing_frame _).isSet (by decide) (by decide +kernel), isSet_setB_same _ _ _ _ (by decide)]

theorem ringElect_next (hrole : s.role = rlMEMBER ∨ s.role = rlHEAD) :
    ∃ t, exec .ringElect s = .next t ∧ t.role = rlELECT ∧ t.isSet F.TRL_EVT_ELECTION 0 = true := by
  obtain ⟨t, ht, same⟩ := doneW_next hserved fun t => t.writeElect
  rw [State.writeElect, if_pos (by rw [role_flushAsm]; exact hrole)] at same
  refine ⟨t, ht, ?_, ?_⟩
  · rw [role_of_same same, role_raise _ _ _ (by decide) (by decide), role_enterElect]
  · rw [same.isSet]
    exact isSet_raise_same _ _ E.TRL_ELECTION rfl (by decide) (by decide)

end

/-! ### The rows of time and silence -/

section
variable {s : State} (hheld : s.pwr.held = [])
include hheld

theorem loopLocked_next (hrole : s.role = rlLOOP) : ∃ t, exec .loopLocked s = .next t ∧ t.role = rlLISTEN ∧
    t.isSet F.TRL_STATUS_IN_LOCK 0 = true ∧ t.isSet F.TRL_STATUS_BYP_HOLD 0 = true := by
  obtain ⟨t, ht, same⟩ := done_next hheld fun t =>
    if t.role = rlLOOP then (t.setRole rlLISTEN).setB F.TRL_STATUS_IN_LOCK 0 true else t
  rw [if_pos (show (fresh s).role = _ from hrole)] at same
  refine ⟨t, ht, ?_, ?_, ?_⟩
  · rw [role_of_same same, role_setB _ _ _ (by decide), role_setRole _ (by decide)]
  · rw [same.isSet, isSet_setB_same _ _ _ _ (by decide)]
  · rw [same.isSet, isSet_setB_other _ _ (by decide), bypHold_setRole]
    rfl

theorem loopFail_next (hrole : s.role = rlLOOP) (hlate : 8000 ≤ s.ticksSince s.trl.loopAt) :
    ∃ t, exec .loopFail s = .next t ∧ t.isSet F.TRL_EVT_LOOP_FAIL 0 = true ∧ t.role = rlLOOP := by
  obtain ⟨t, ht, same⟩ := done_next hheld fun t =>
    if t.role = rlLOOP ∧ 8000 ≤ t.ticksSince t.trl.loopAt then
      (t.updTrl fun x => { x with loopAt := t.tick }).raise E.TRL_LOOP_FAIL 0
    else t
  rw [if_pos (⟨hrole, hlate⟩ : (fresh s).role = _ ∧ 8000 ≤ (fresh s).ticksSince (fresh s).trl.loopAt)] at same
  refine ⟨t, ht, ?_, ?_⟩
  · rw [same.isSet]
    exact isSet_raise_same _ _ E.TRL_LOOP_FAIL rfl (by decide) (by decide)
  · rw [role_of_same same, role_raise _ _ _ (by decide) (by decide)]
    exact hrole

theorem frameSilence_next (hsilent : (s.role = rlMEMBER ∧ 4 ≤ s.trl.silent) ∨ (s.role = rlLISTEN ∧ 8 ≤ s.trl.silent)) :
    ∃ t, exec .frameSilence s = .next t ∧ t.role = rlELECT ∧ t.isSet F.TRL_EVT_ELECTION 0 = true ∧
      t.getF F.TRL_HEAD_LO_SERIAL 0 = s.serial % 2 ^ 32 := by
  obtain ⟨t, ht, same⟩ := done_next hheld fun t =>
    if (t.role = rlMEMBER ∧ 4 ≤ t.trl.silent) ∨ (t.role = rlLISTEN ∧ 8 ≤ t.trl.silent) then t.enterElect.raise E.TRL_ELECTION 0 else t
  have heq : (if ((fresh s).role = rlMEMBER ∧ 4 ≤ (fresh s).trl.silent) ∨ ((fresh s).role = rlLISTEN ∧ 8 ≤ (fresh s).trl.silent)
      then (fresh s).enterElect.raise E.TRL_ELECTION 0 else fresh s) = (fresh s).enterElect.raise E.TRL_ELECTION 0 := if_pos hsilent
  rw [heq] at same
  refine ⟨t, ht, ?_, ?_, ?_⟩
  · rw [role_of_same same, role_raise _ _ _ (by decide) (by decide), role_enterElect]
  · rw [same.isSet]
    exact isSet_raise_same _ _ E.TRL_ELECTION rfl (by decide) (by decide)
  · rw [same.getF, getF_raise_other _ _ (by decide) (by decide), State.enterElect, headLo_showHead]
    rfl

theorem electionRestart_next (hrole : s.role = rlELECT) (hlong : 64 ≤ s.trl.electFor) :
    ∃ t, exec .electionRestart s = .next t ∧ t.trl.electFor = 0 ∧ t.role = rlELECT := by
  obtain ⟨t, ht, same⟩ := done_next hheld fun t =>
    if t.role = rlELECT ∧ 64 ≤ t.trl.electFor then t.updTrl fun x => { x with electFor := 0 } else t
  rw [if_pos (⟨hrole, hlong⟩ : (fresh s).role = _ ∧ 64 ≤ (fresh s).trl.electFor)] at same
  exact ⟨t, ht, by rw [same.trl]; rfl, (role_of_same same).trans hrole⟩

theorem ringOpen_next (hrole : s.role = rlHEAD) (habsent : 4 ≤ s.trl.absent) (hopen : s.trl.open_ = false) :
    ∃ t, exec .ringOpen s = .next t ∧ t.trl.open_ = true ∧ t.isSet F.TRL_EVT_RING_OPEN 0 = true := by
  obtain ⟨t, ht, same⟩ := done_next hheld fun t =>
    if t.role = rlHEAD ∧ 4 ≤ t.trl.absent ∧ ¬ t.trl.open_ then (t.updTrl fun x => { x with open_ := true }).raise E.TRL_RING_OPEN 0 else t
  rw [if_pos (⟨hrole, habsent, by rw [fresh_trl, hopen]; decide⟩ :
    (fresh s).role = _ ∧ 4 ≤ (fresh s).trl.absent ∧ ¬ (fresh s).trl.open_)] at same
  refine ⟨t, ht, by rw [same.trl]; rfl, ?_⟩
  rw [same.isSet]
  exact isSet_raise_same _ _ E.TRL_RING_OPEN rfl (by decide) (by decide)

theorem ringInLockLoss_next (hlock : s.isSet F.TRL_STATUS_IN_LOCK 0 = true) (hrole : s.role ≠ rlLOOP) :
    ∃ t, exec .ringInLockLoss s = .next t ∧ t.isSet F.TRL_STATUS_IN_LOCK 0 = false ∧
      t.getF F.TRL_ERR_LOCK_LOSS 0 = min (s.getF F.TRL_ERR_LOCK_LOSS 0 + 1) (2 ^ 16 - 1) := by
  obtain ⟨t, ht, same⟩ := done_next hheld fun t => t.ringLockLoss
  have heq : (fresh s).ringLockLoss = ((fresh s).setB F.TRL_STATUS_IN_LOCK 0 false).count F.TRL_ERR_LOCK_LOSS 0 := by
    unfold State.ringLockLoss
    exact if_pos (Bool.and_eq_true_iff.2 ⟨hlock, bne_iff_ne.2 hrole⟩)
  rw [heq] at same
  refine ⟨t, ht, ?_, ?_⟩
  · rw [same.isSet, isSet_count_other _ (by decide), isSet_setB_same _ _ _ _ (by decide)]
  · rw [same.getF, getF_count, getF_setB_other _ _ (by decide)]
    rfl

end

/-! ### CLAIM_RECEIVED -/

section
variable {s : State} (hheld : s.pwr.held = []) (n : BitVec 64) (time : BitVec 40)
include hheld

theorem claimReceived_wins (hrole : s.role = rlELECT) (hmine : n.toNat = s.serial) :
    ∃ t, exec (.claimReceived n time) s = .next t ∧ t.role = rlHEAD ∧ t.isSet F.TRL_EVT_HEAD_CHANGE 0 = true ∧
      t.trl.time = time.toNat ∧ t.getF F.TRL_STATUS_POSITION 0 = 0 := by
  obtain ⟨t, ht, same⟩ := done_next hheld fun t => t.claimArrives n.toNat time.toNat
  have heq : (fresh s).claimArrives n.toNat time.toNat = (fresh s).winElection time.toNat := by
    unfold State.claimArrives
    rw [if_neg (show ¬ (fresh s).role < rlMEMBER from fun h => absurd (hrole ▸ h : rlELECT < rlMEMBER) (by decide)),
      if_pos (show n.toNat = (fresh s).serial from hmine)]
    exact if_pos hrole
  rw [heq, State.winElection] at same
  refine ⟨t, ht, ?_, ?_, ?_, ?_⟩
  · rw [role_of_same same, role_raise _ _ _ (by decide) (by decide), State.role, (showHead_frame ..).getF (by decide) (by decide +kernel),
      getF_setF_other _ _ (by decide), getF_updTrl, (putUnits_frame ..).getF (by decide) (by decide +kernel)]
    exact role_setRole _ (by decide)
  · rw [same.isSet]
    exact isSet_raise_same _ _ E.TRL_HEAD_CHANGE rfl (by decide) (by decide)
  · rw [same.trl]
    rfl
  · rw [same.getF, getF_raise_other _ _ (by decide) (by decide), (showHead_frame ..).getF (by decide) (by decide +kernel), getF_setF]
    rfl

section
variable (hrole : s.role = rlMEMBER)
include hrole

omit hheld in
theorem claimArrives_member (hother : n.toNat ≠ s.serial) :
    (fresh s).claimArrives n.toNat time.toNat = (fresh s).claimOther n.toNat time.toNat := by
  unfold State.claimArrives
  rw [if_neg (show ¬ (fresh s).role < rlMEMBER from fun h => absurd (hrole ▸ h : rlMEMBER < rlMEMBER) (by decide))]
  exact if_neg hother

/-- A lower serial is shown, unless a still lower one is, and forwarded. -/
theorem claimReceived_lower (hlow : n.toNat < s.serial) :
    ∃ t, exec (.claimReceived n time) s = .next t ∧ t.role = rlELECT ∧
      t.getF F.TRL_HEAD_LO_SERIAL 0 + t.getF F.TRL_HEAD_HI_SERIAL 0 * 2 ^ 32 ≤ n.toNat ∧
      ∃ a, time.toNat ≤ a ∧ .ringClaim a n.toNat ∈ t.out := by
  obtain ⟨t, ht, same⟩ := done_next hheld fun t => t.claimArrives n.toNat time.toNat
  rw [claimArrives_member n time hrole (Nat.ne_of_lt hlow), State.claimOther, if_pos (show n.toNat < (fresh s).serial from hlow),
    if_neg (show (fresh s).role ≠ rlELECT from fun h => absurd (hrole ▸ h : rlMEMBER = rlELECT) (by decide))] at same
  extract_lets s1 shown at same
  refine ⟨t, ht, ?_, ?_, max time.toNat s1.ringEstimate, Nat.le_max_left .., same.emitted (List.mem_append_right _ List.mem_cons_self)⟩
  · rw [role_of_same same, State.role, getF_emit, getF_onlyIf, (showHead_frame ..).getF (by decide) (by decide +kernel), ite_self]
    exact role_enterElect _
  · have hreads : ∀ f i, t.getF f i = (s1.onlyIf (decide (n.toNat < shown)) fun t => t.showHead n.toNat).getF f i :=
      fun f i => (same.getF f i).trans (getF_emit ..)
    by_cases hlower : n.toNat < shown
    · rw [hreads, hreads, getF_onlyIf, getF_onlyIf, if_pos (decide_eq_true hlower), if_pos (decide_eq_true hlower), headLo_showHead,
        headHi_showHead _ n.isLt, Nat.mul_comm, Nat.mod_add_div]
    · have hcond : ¬ decide (n.toNat < shown) = true := fun h => hlower (of_decide_eq_true h)
      rw [hreads, hreads, getF_onlyIf, getF_onlyIf, if_neg hcond, if_neg hcond]
      exact Nat.le_of_not_lt hlower

/-- A higher serial is replaced by the unit's own. -/
theorem claimReceived_higher (hhigh : s.serial < n.toNat) :
    ∃ t, exec (.claimReceived n time) s = .next t ∧ t.role = rlELECT ∧ ∃ a, .ringClaim a s.serial ∈ t.out := by
  obtain ⟨t, ht, same⟩ := done_next hheld fun t => t.claimArrives n.toNat time.toNat
  rw [claimArrives_member n time hrole (Nat.ne_of_gt hhigh), State.claimOther,
    if_neg (show ¬ n.toNat < (fresh s).serial from Nat.lt_asymm hhigh), if_pos (show (fresh s).role = rlMEMBER from hrole)] at same
  have hserial : (fresh s).enterElect.serial = s.serial := by
    rw [State.serial, unmasked (enterElect_frame _).cfg (by decide +kernel)]
    rfl
  refine ⟨t, ht, (role_of_same same).trans (role_enterElect _), (fresh s).enterElect.ringEstimate,
    same.emitted (List.mem_append_right _ ?_)⟩
  rw [hserial]
  exact List.mem_cons_self

end

end

/-- Settles O41: one lemma per row, above. -/
theorem ringRoleRows : Obligations.RingRoleRows := fun _ =>
  ⟨fun slot hheld htick =>
      ⟨ringFrameTick_hears hheld htick slot, ringFrameTick_elects hheld htick slot, ringFrameTick_heads hheld htick slot⟩,
    ringEnable_next, ringDisable_next, ringElect_next,
    fun hheld => ⟨loopLocked_next hheld, loopFail_next hheld, frameSilence_next hheld, electionRestart_next hheld, ringOpen_next hheld,
      ringInLockLoss_next hheld⟩,
    fun n time hheld => ⟨claimReceived_wins hheld n time, claimReceived_lower hheld n time, claimReceived_higher hheld n time⟩⟩

end Sys2Proof.Proofs
end

section
/-!
PROOFS. Frames of the ring (R388 to R391, R402): one lemma per row, assembled at the end.
-/
set_option Elab.async false

namespace Sys2Proof.Proofs

open Sys2Proof.Machine Sys2Proof.Laws

/-! ### A frame that is taken -/

/-- What taking a frame does to the ring's state and registers, beside the events that its flags raise. -/
structure Taken (s : State) (x : FrameIn) (t : State) : Prop where
  role : t.role = s.role
  position : t.getF F.TRL_STATUS_POSITION 0 = x.hops % 2 ^ 10
  lock : t.isSet F.TRL_STATUS_IN_LOCK 0 = s.isSet F.TRL_STATUS_IN_LOCK 0
  joined : t.isSet F.TRL_EVT_JOINED 0 = s.isSet F.TRL_EVT_JOINED 0
  time : t.trl.time = x.time % 2 ^ 40
  silent : t.trl.silent = 0

/-- The registers that a frame's flags, its phase error and its SHIFT block may change. -/
def frameMask : Nat :=
  fm [F.TRL_PATH_PATH] ||| W.frameFlags ||| W.frameExcl ||| W.measure ||| W.shiftBlock ||| W.forward

theorem takeFrame_taken (s : State) (x : FrameIn) : Taken s x (s.takeFrame x) := by
  unfold State.takeFrame
  extract_lets s1 s2 s3 s4
  have hframe : Frame frameMask s1 (s4.forward x [(x.hops, s4.statusWords x.excluded)]) := by
    refine (forward_frame ..).step ((shiftBlock_frame ..).step ((measure_frame ..).step ((frameExcl_frame ..).step
      ((frameFlags_frame ..).step (Frame.setF (Frame.refl _ _) (by decide +kernel) ..) ?_) ?_) ?_) ?_) ?_ <;> decide +kernel
  have htrl : (s4.forward x [(x.hops, s4.statusWords x.excluded)]).trl = s1.trl := unmasked hframe.trl (by decide +kernel)
  refine ⟨?_, ?_, ?_, ?_, ?_, ?_⟩
  · rw [State.role, getF_onlyIf, (sendMsg_frame _).getF (by decide) (by decide +kernel), ite_self,
      hframe.getF (by decide) (by decide +kernel), getF_updTrl, getF_setF_other _ _ (by decide)]
    rfl
  · rw [getF_onlyIf, (sendMsg_frame _).getF (by decide) (by decide +kernel), ite_self,
      hframe.getF (by decide) (by decide +kernel), getF_updTrl, getF_setF]
    rfl
  · rw [isSet_onlyIf, (sendMsg_frame _).isSet (by decide) (by decide +kernel), ite_self,
      hframe.isSet (by decide) (by decide +kernel), isSet_updTrl, isSet_setF_other _ _ (by decide)]
  · rw [isSet_onlyIf, (sendMsg_frame _).isSet (by decide) (by decide +kernel), ite_self,
      hframe.isSet (by decide) (by decide +kernel), isSet_updTrl, isSet_setF_other _ _ (by decide)]
  all_goals
    unfold State.onlyIf
    split
    · rw [sendMsg_trl, htrl]
      rfl
    · rw [htrl]
      rfl

/-! ### FRAME_START_RECEIVED -/

/-- Outside the headframe a frame that is not full is taken by a MEMBER, which LISTEN becomes first. -/
theorem frameArrives_takes {s : State} (x : FrameIn) (hrole : s.role = rlMEMBER ∨ s.role = rlLISTEN) (hfull : x.full = false) :
    ∃ a : State, s.frameArrives x = a.takeFrame x ∧ a.role = rlMEMBER ∧ a.isSet F.TRL_STATUS_IN_LOCK 0 = true ∧
      (s.role = rlLISTEN → a.isSet F.TRL_EVT_JOINED 0 = true) := by
  unfold State.frameArrives
  dsimp only
  rw [if_neg (show ¬ (s.role = rlOFF ∨ s.role = rlLOOP ∨ s.role = rlHEAD) from by rcases hrole with h | h <;> rw [h] <;> decide)]
  rcases hrole with h | h
  · rw [if_pos h]
    refine ⟨_, rfl, ?_, isSet_setB_same _ _ _ _ (by decide), fun hlisten => absurd (h.symm.trans hlisten) (by decide)⟩
    rw [role_setB _ _ _ (by decide), h]
  · rw [if_neg (h ▸ by decide : s.role ≠ _), hfull]
    refine ⟨_, if_neg (by decide), ?_, ?_, fun _ => isSet_raise_same _ _ E.TRL_JOINED rfl (by decide) (by decide)⟩
    · rw [role_raise _ _ _ (by decide) (by decide), role_setRole _ (by decide)]
    · rw [isSet_raise_other _ _ (by decide) (by decide), (setRole_frame ..).isSet (by decide) (by decide +kernel),
        isSet_setB_same _ _ _ _ (by decide)]

section
variable {s : State} (hheld : s.pwr.held = []) (x : FrameIn)
include hheld

theorem frameStartReceived_taken (hrole : s.role = rlMEMBER ∨ s.role = rlLISTEN) (hfull : x.full = false) :
    ∃ t, exec (.frameStartReceived x) s = .next t ∧ t.role = rlMEMBER ∧ t.getF F.TRL_STATUS_POSITION 0 = x.hops % 2 ^ 10 ∧
      t.isSet F.TRL_STATUS_IN_LOCK 0 = true ∧ t.trl.time = x.time % 2 ^ 40 ∧ t.trl.silent = 0 ∧
      (s.role = rlLISTEN → t.isSet F.TRL_EVT_JOINED 0 = true) := by
  obtain ⟨t, ht, same⟩ := doneQ_next hheld fun t => t.frameArrives x
  obtain ⟨a, heq, harole, halock, hajoined⟩ := frameArrives_takes (s := fresh s) x hrole hfull
  rw [heq] at same
  obtain ⟨trole, tposition, tlock, tjoined, ttime, tsilent⟩ := takeFrame_taken a x
  refine ⟨t, ht, ?_, ?_, ?_, ?_, ?_, fun hlisten => ?_⟩
  · rw [role_of_same same, State.role, getF_advance _ (by decide) (by decide +kernel)]
    exact trole.trans harole
  · rw [same.getF, getF_advance _ (by decide) (by decide +kernel), tposition]
  · rw [same.isSet, isSet_advance _ (by decide) (by decide +kernel), tlock, halock]
  · rw [same.trl, advance_trl, ttime]
  · rw [same.trl, advance_trl, tsilent]
  · rw [same.isSet, isSet_advance _ (by decide) (by decide +kernel), tjoined, hajoined hlisten]

/-- A unit beyond the last position stays outside. -/
theorem frameStartReceived_full (hrole : s.role = rlLISTEN) (hfull : x.full = true) :
    ∃ t, exec (.frameStartReceived x) s = .next t ∧ t.role = rlLISTEN ∧ t.isSet F.TRL_EVT_TOO_MANY 0 = true := by
  obtain ⟨t, ht, same⟩ := doneQ_next hheld fun t => t.frameArrives x
  have heq : (fresh s).frameArrives x =
      (((((fresh s).setB F.TRL_STATUS_IN_LOCK 0 true).setRole rlLISTEN).raise E.TRL_TOO_MANY 0).measure x.err).forward x [] := by
    unfold State.frameArrives
    dsimp only
    rw [if_neg (show ¬ ((fresh s).role = rlOFF ∨ (fresh s).role = rlLOOP ∨ (fresh s).role = rlHEAD) from by
      rw [show (fresh s).role = _ from hrole]; decide), if_neg (show (fresh s).role ≠ _ from hrole ▸ by decide)]
    exact if_pos hfull
  rw [heq] at same
  refine ⟨t, ht, ?_, ?_⟩
  · rw [role_of_same same, State.role, getF_advance _ (by decide) (by decide +kernel),
      (forward_frame ..).getF (by decide) (by decide +kernel),
      (measure_frame ..).getF (by decide) (by decide +kernel)]
    exact (role_raise _ _ _ (by decide) (by decide)).trans (role_setRole _ (by decide))
  · rw [same.isSet, isSet_advance _ (by decide) (by decide +kernel), (forward_frame ..).isSet (by decide) (by decide +kernel),
      (measure_frame ..).isSet (by decide) (by decide +kernel)]
    exact isSet_raise_same _ _ E.TRL_TOO_MANY rfl (by decide) (by decide)

/-! ### The headframe's rows -/

/-- What follows the lap's registers when a frame has returned. -/
def afterLap : Nat := fm [F.TRL_PATH_PATH] ||| W.measure ||| W.judgeMixed ||| W.collect

theorem frameReturned_next (lap path : Nat) (err : Int) (status : List (List Nat)) (hrole : s.role = rlHEAD) :
    ∃ t, exec (.frameReturned lap path err status) s = .next t ∧ t.isSet F.TRL_STATUS_IN_LOCK 0 = true ∧
      t.getF F.TRL_LAP_LAP 0 = lap % 2 ^ 21 ∧ (120000 < lap → t.isSet F.TRL_EVT_LAP_LONG 0 = true) := by
  obtain ⟨t, ht, same⟩ := done_next hheld fun t => t.frameReturns lap path err status
  rw [State.frameReturns, if_neg (fun h => h hrole)] at same
  extract_lets s1 s2 s3 at same
  have hframe : Frame afterLap s3
      ((s3.setF F.TRL_PATH_PATH 0 (path + (fresh s).getF F.TRL_IN_DELAY_DELAY 0)).measure err).judgeMixed.collect := by
    refine (collect_frame _).step ((judgeMixed_frame _).step ((measure_frame ..).step
      (Frame.setF (Frame.refl _ _) (by decide +kernel) ..) ?_) ?_) ?_ <;> decide +kernel
  refine ⟨t, ht, ?_, ?_, fun hlong => ?_⟩
  · rw [same.isSet, hframe.isSet (by decide) (by decide +kernel), isSet_onlyIf, isSet_raise_other _ _ (by decide) (by decide), ite_self,
      isSet_setF_other _ _ (by decide), isSet_setF_other _ _ (by decide), (putUnits_frame ..).isSet (by decide) (by decide +kernel),
      isSet_updTrl, isSet_setB_same _ _ _ _ (by decide)]
  · rw [same.getF, hframe.getF (by decide) (by decide +kernel), getF_onlyIf, getF_raise_other _ _ (by decide) (by decide), ite_self,
      getF_setF_other _ _ (by decide), getF_setF]
    rfl
  · rw [same.isSet, hframe.isSet (by decide) (by decide +kernel), isSet_onlyIf, if_pos (decide_eq_true hlong)]
    exact isSet_raise_same _ _ E.TRL_LAP_LONG rfl (by decide) (by decide)

theorem collectExpiry_next (j : ShiftJob) (hjob : s.trl.job = some j) (hphase : j.phase = 1) (hbegun : begun j.since s.trl.time = true)
    (hexpired : max 1 j.collect ≤ framesFrom j.since s.trl.time) :
    ∃ t, exec .collectExpiry s = .next t ∧ t.trl.job = some { j with phase := 4, since := (s.trl.time + 1) % 2 ^ 40 } := by
  obtain ⟨t, ht, same⟩ := done_next hheld fun t =>
    match t.trl.job with
    | some j =>
      if j.phase = 1 ∧ begun j.since t.trl.time ∧ max 1 j.collect ≤ framesFrom j.since t.trl.time then
        t.updTrl fun x => { x with job := some { j with phase := 4, since := (x.time + 1) % 2 ^ 40 } }
      else t
    | none => t
  rw [fresh_trl, hjob] at same
  dsimp only at same
  rw [if_pos (⟨hphase, hbegun, hexpired⟩ : _ ∧ _ ∧ _)] at same
  exact ⟨t, ht, by rw [same.trl]; rfl⟩

/-! ### SHIFT_ABORT_RECEIVED -/

theorem shiftAbortReceived_next (e : BitVec 64) (harmed : s.shift = shARMED) (hepoch : s.stageEpoch = e.toNat) :
    ∃ t, exec (.shiftAbortReceived e) s = .next t ∧ t.shift = shNONE ∧ t.cfg.standby = none ∧ t.stg = sgREADY := by
  obtain ⟨t, ht, same⟩ := doneQ_next hheld fun t => t.abortSeen e.toNat
  have heq : (fresh s).abortSeen e.toNat = ((fresh s).dropStandby shNONE).issueWaiting := if_pos ⟨harmed, hepoch⟩
  rw [heq] at same
  refine ⟨t, ht, (shift_of_same same).trans ?_, ?_, ?_⟩
  · rw [State.shift, (issueWaiting_frame _).getF (by decide) (by decide +kernel), State.dropStandby, getF_setB_other _ _ (by decide),
      getF_setF_other _ _ (by decide), getF_setF]
    rfl
  · rw [same.cfg, advance_cfg, unmasked (issueWaiting_frame _).cfg (by decide +kernel)]
    rfl
  · rw [State.stg, same.getF, getF_advance _ (by decide) (by decide +kernel), (issueWaiting_frame _).getF (by decide) (by decide +kernel),
      State.dropStandby, getF_setB_other _ _ (by decide), getF_setF]
    rfl

end

/-! ### RING_TIME_READ -/

theorem ringTimeRead_next {s : State} (hserved : s.pf1Served = true) :
    ∃ t, exec .ringTimeRead s = .next t ∧ .regData (s.trl.time % 2 ^ 32) ∈ t.out ∧
      t.getF F.TRL_TIME_HI_TIME_HI 0 = s.trl.time / 2 ^ 32 % 2 ^ 8 := by
  obtain ⟨t, ht, same⟩ := done_next (held_of_served hserved) fun t =>
    if t.pf1Served then t.readRingTime.1.emit (.regData t.readRingTime.2) else t.refuseRead
  rw [if_pos (show (fresh s).pf1Served = true from hserved)] at same
  refine ⟨t, ht, same.emitted (List.mem_append_right _ List.mem_cons_self), ?_⟩
  rw [same.getF, getF_emit, State.readRingTime, getF_setF]
  rfl

/-- Settles O42: one lemma per row, above. -/
theorem ringFrameRows : Obligations.RingFrameRows := fun _ hheld =>
  ⟨frameStartReceived_taken hheld, frameStartReceived_full hheld, frameReturned_next hheld, collectExpiry_next hheld,
    shiftAbortReceived_next hheld, ringTimeRead_next⟩

end Sys2Proof.Proofs
end

section
/-!
PROOFS. A plain register write (R451): what storing a word leaves in the fields of the register.
-/
set_option Elab.async false

namespace Sys2Proof.Proofs

open Sys2Proof.Machine Sys2Proof.Laws

/-- The fields of a register that a write of a word stores. -/
def rwFields (r : RegDef) : List FieldAt := r.fields.filter fun f => decide (f.acc = .rw)

/-- The register has each field once, and none that a written 1 clears. -/
def plainReg (r : RegDef) : Bool :=
  decide (r.fields.map fun f => f.fld.id).Nodup && r.fields.all fun f => decide (f.acc ≠ .rw1c)

theorem clear1c_of_none (s : State) {r : RegDef} (hr : ∀ f ∈ r.fields, f.acc ≠ .rw1c) (i w : Nat) : s.clear1c r i w = s := by
  unfold State.clear1c
  generalize r.fields = l at hr
  induction l generalizing s with
  | nil => rfl
  | cons f l ih =>
    rw [List.foldl_cons, if_neg (hr f List.mem_cons_self)]
    exact ih s fun g hg => hr g (List.mem_cons_of_mem _ hg)

theorem storeBits_rw (s : State) (r : RegDef) (i w : Nat) : s.storeBits r i w false =
    (rwFields r).foldl (fun t f => t.setF f.fld i (w / 2 ^ f.lo % 2 ^ (f.hi - f.lo + 1) ^^^ fieldFlip f.fld i)) s := by
  unfold State.storeBits rwFields
  rw [List.foldl_filter]
  simp only [Bool.false_or, decide_eq_true_eq]

section
variable (s : State) {r : RegDef} (hr : plainReg r = true) (i w : Nat)
include hr

theorem storeReg_plain : s.storeReg r i w =
    (rwFields r).foldl (fun t f => t.setF f.fld i (clampWord r w / 2 ^ f.lo % 2 ^ (f.hi - f.lo + 1) ^^^ fieldFlip f.fld i)) s := by
  unfold State.storeReg
  obtain ⟨-, hall⟩ := Bool.and_eq_true_iff.1 hr
  rw [clear1c_of_none _ fun f hf => of_decide_eq_true (List.all_eq_true.1 hall f hf), storeBits_rw]

omit s in
theorem nodup_rwFields : ((rwFields r).map fun f => f.fld.id).Nodup :=
  (of_decide_eq_true (Bool.and_eq_true_iff.1 hr).1).sublist (List.filter_sublist.map _)

/-- A field that can be written takes its bits of the word. -/
theorem getF_storeReg {f : FieldAt} (hf : f ∈ rwFields r) : (s.storeReg r i w).getF f.fld i =
    (clampWord r w / 2 ^ f.lo % 2 ^ (f.hi - f.lo + 1) ^^^ fieldFlip f.fld i) % 2 ^ f.fld.width := by
  rw [storeReg_plain s hr]
  exact (getF_storeFields (nodup_rwFields hr)
    (fun f => clampWord r w / 2 ^ f.lo % 2 ^ (f.hi - f.lo + 1) ^^^ fieldFlip f.fld i) i s).1 f hf

/-- Every other field stays. -/
theorem getF_storeReg_other {g : Field} (hg : g.id ∉ (rwFields r).map fun f => f.fld.id) :
    (s.storeReg r i w).getF g i = s.getF g i := by
  rw [storeReg_plain s hr]
  exact (getF_storeFields (nodup_rwFields hr)
    (fun f => clampWord r w / 2 ^ f.lo % 2 ^ (f.hi - f.lo + 1) ^^^ fieldFlip f.fld i) i s).2 g hg

theorem isSet_storeReg_other {g : Field} (hg : g.id ∉ (rwFields r).map fun f => f.fld.id) :
    (s.storeReg r i w).isSet g i = s.isSet g i := by
  rw [State.isSet, getF_storeReg_other s hr i w hg, State.isSet]

theorem trl_storeReg : (s.storeReg r i w).trl = s.trl := by
  rw [storeReg_plain s hr]
  generalize rwFields r = l
  induction l generalizing s with
  | nil => rfl
  | cons f l ih => exact ih _

end

theorem writeOk_txCtl (s : State) (w : Nat) : s.writeOk R.TRL_TX_CTL 0 w =
    (!s.isSet F.TRL_TX_STATUS_BUSY 0 &&
      decide (1 ≤ bitsOf w 30 28 ∧ bitsOf w 30 28 ≤ 5 ∧ 1 ≤ bitsOf w 9 0 ∧ bitsOf w 9 0 ≤ 512)) := rfl

end Sys2Proof.Proofs
end

section
/-!
PROOFS. Messages of the ring (R397 to R400, R403): one lemma per row, assembled at the end.
-/
set_option Elab.async false

namespace Sys2Proof.Proofs

open Sys2Proof.Machine Sys2Proof.Laws

/-! ### A message that arrives -/

section
variable {s : State} (hon : s.onMessages = true) (m : MsgIn)
include hon

theorem onMessage_takes (hcrc : m.crcOk = true) {kind : Nat} (hkind : m.kind = kind) (f : State → State) : s.onMessage m kind f = f s := by
  unfold State.onMessage
  rw [if_neg (by rw [hon]; decide), if_neg (by rw [hcrc]; decide)]
  exact if_pos hkind

theorem onMessage_bad (hcrc : m.crcOk = false) (kind : Nat) (f : State → State) :
    (s.onMessage m kind f).isSet F.TRL_EVT_CRC_ERR 0 = true := by
  unfold State.onMessage
  rw [if_neg (by rw [hon]; decide), if_pos (by rw [hcrc]; decide)]
  exact isSet_raise_same _ _ E.TRL_CRC_ERR rfl (by decide) (by decide)

end

section
variable {s : State} (hheld : s.pwr.held = []) (hon : s.onMessages = true) (m : MsgIn)
include hheld hon

section
variable (hcrc : m.crcOk = true)
include hcrc

/-! ### PIECE_MESSAGE -/

omit hheld hon hcrc in
theorem nextPieces_single {t : State} {j : PieceJob} (hpiece : t.cfg.piece = none) (hpieces : t.cfg.pieces = [j]) :
    t.nextPieces 1 = (t.updCfg fun c => { c with pieces := [] }).takePiece j := by
  rw [State.nextPieces, hpiece, hpieces]
  rfl

omit hheld hon hcrc in
theorem marked_fixStage (t : State) (b : List Nat) :
    (t.fixStage b).cfg.flash.marked = if t.stg = sgEMPTY then [] else t.cfg.flash.marked := by
  unfold State.fixStage
  split <;> rfl

omit hheld hon hcrc in
/-- A piece that nothing speaks against is programmed. -/
theorem takePiece_programs {t : State} {j : PieceJob} (hpos : j.pos = none) (hreason : t.pieceReason j none = 0)
    (hnew : (t.fixStage j.bytes).cfg.flash.marked.contains (pcIndex j.bytes) = false) : (t.takePiece j).cfg.piece = some j := by
  unfold State.takePiece
  rw [hpos, State.namedIndex]
  dsimp only [Option.bind_none, Option.map_none]
  rw [if_neg (not_not.2 hreason), if_neg (by rw [hnew]; decide)]
  rfl

omit hheld hon hcrc in
theorem pieceArrives_programs {t : State} {j : PieceJob} (hpos : j.pos = none) (hpiece : t.cfg.piece = none) (hpieces : t.cfg.pieces = [])
    (hreason : t.pieceReason j none = 0) (hnew : (t.fixStage j.bytes).cfg.flash.marked.contains (pcIndex j.bytes) = false) :
    (t.pieceArrives j).cfg.piece = some j := by
  have hwait : (t.updCfg fun c => { c with pieces := c.pieces ++ [j] }).cfg.pieces = [j] := by
    show t.cfg.pieces ++ [j] = _
    rw [hpieces, List.nil_append]
  unfold State.pieceArrives
  dsimp only
  rw [hwait, List.length_singleton, nextPieces_single (t := t.updCfg fun c => { c with pieces := c.pieces ++ [j] }) hpiece hwait]
  refine takePiece_programs hpos hreason ?_
  rw [marked_fixStage] at hnew ⊢
  exact hnew

theorem pieceMessage_next (sigOk : Bool) (hkind : m.kind = 1) (hen : s.isSet F.TRL_CTL_PIECE_EN 0 = true) (hpiece : s.cfg.piece = none)
    (hpieces : s.cfg.pieces = []) (hreason : s.pieceReason { bytes := pieceBytes m.words, sigOk := sigOk } none = 0)
    (hnew : (s.fixStage (pieceBytes m.words)).cfg.flash.marked.contains (pcIndex (pieceBytes m.words)) = false) :
    ∃ t, exec (.pieceMessage m sigOk) s = .next t ∧ t.cfg.piece = some { bytes := pieceBytes m.words, sigOk := sigOk } := by
  obtain ⟨t, ht, same⟩ := doneQ_next hheld fun t => t.onMessage m 1 fun u =>
    if u.isSet F.TRL_CTL_PIECE_EN 0 then (u.pieceArrives { bytes := pieceBytes m.words, sigOk := sigOk }).passOn m true false
    else u.passOn m false false
  rw [onMessage_takes (show (fresh s).onMessages = true from hon) m hcrc hkind,
    if_pos (show (fresh s).isSet F.TRL_CTL_PIECE_EN 0 = true from hen)] at same
  refine ⟨t, ht, ?_⟩
  rw [same.cfg, advance_cfg, unmasked (passOn_frame ..).cfg (by decide +kernel)]
  refine pieceArrives_programs (t := fresh s) rfl hpiece hpieces hreason ?_
  rw [marked_fixStage] at hnew ⊢
  exact hnew

/-! ### MGMT_MESSAGE -/

section
variable (hkind : m.kind = 2) (hdest : s.addressed m = true)
include hkind hdest

theorem mgmtMessage_taken (hfull : s.isSet F.TRL_RX_STATUS_FULL 0 = false) :
    ∃ t, exec (.mgmtMessage m) s = .next t ∧ t.isSet F.TRL_RX_STATUS_FULL 0 = true ∧ t.isSet F.TRL_EVT_MSG_RX 0 = true ∧
      t.getF F.TRL_RX_STATUS_SRC 0 = m.src % 2 ^ 10 := by
  obtain ⟨t, ht, same⟩ := done_next hheld fun t => t.onMessage m 2 fun u => u.mgmtArrives m
  rw [onMessage_takes (show (fresh s).onMessages = true from hon) m hcrc hkind, State.mgmtArrives,
    if_neg (by rw [show (fresh s).addressed m = true from hdest]; decide),
    if_neg (by rw [show (fresh s).isSet F.TRL_RX_STATUS_FULL 0 = false from hfull]; decide)] at same
  extract_lets ws s1 s2 at same
  refine ⟨t, ht, ?_, ?_, ?_⟩
  · rw [same.isSet, (passOn_frame ..).isSet (by decide) (by decide +kernel), isSet_raise_other _ _ (by decide) (by decide),
      isSet_setF_other _ _ (by decide), isSet_setF_other _ _ (by decide), isSet_setF_other _ _ (by decide),
      isSet_setB_same _ _ _ _ (by decide)]
  · rw [same.isSet, (passOn_frame ..).isSet (by decide) (by decide +kernel)]
    exact isSet_raise_same _ _ E.TRL_MSG_RX rfl (by decide) (by decide)
  · rw [same.getF, (passOn_frame ..).getF (by decide) (by decide +kernel), getF_raise_other _ _ (by decide) (by decide),
      getF_setF_other _ _ (by decide), getF_setF]
    rfl

theorem mgmtMessage_refused (hfull : s.isSet F.TRL_RX_STATUS_FULL 0 = true) :
    ∃ t, exec (.mgmtMessage m) s = .next t ∧ .ringMsg m.kind m.dest m.src m.words m.delivered true ∈ t.out ∧
      t.getF F.TRL_RX_STATUS_DROPS 0 = min (s.getF F.TRL_RX_STATUS_DROPS 0 + 1) (2 ^ 8 - 1) := by
  obtain ⟨t, ht, same⟩ := done_next hheld fun t => t.onMessage m 2 fun u => u.mgmtArrives m
  rw [onMessage_takes (show (fresh s).onMessages = true from hon) m hcrc hkind, State.mgmtArrives,
    if_neg (by rw [show (fresh s).addressed m = true from hdest]; decide),
    if_pos (show (fresh s).isSet F.TRL_RX_STATUS_FULL 0 = true from hfull), State.passOn, Bool.or_false, Bool.or_true] at same
  refine ⟨t, ht, same.emitted (List.mem_append_right _ List.mem_cons_self), ?_⟩
  rw [same.getF, getF_emit, getF_count]
  rfl

end

/-! ### Messages to the headframe -/

theorem shiftReqMessage_next (hkind : m.kind = 4) (hrole : s.role = rlHEAD) (hjob : s.trl.job = none) (hunits : s.unitsPresent = [])
    (hmixed : s.trl.mixed = false) (hopen : s.trl.open_ = false) :
    ∃ t, exec (.shiftReqMessage m) s = .next t ∧ ∃ j, t.trl.job = some j ∧ j.phase = 1 ∧ j.epoch = m.words.getD 0 0 ∧
      j.lead = m.words.getD 1 0 % 2 ^ 16 := by
  obtain ⟨t, ht, same⟩ := done_next hheld fun t => t.onMessage m 4 fun u =>
    if u.role = rlHEAD then
      let p := m.words.getD 1 0
      let r := u.headShift (m.words.getD 0 0) (p % 2 ^ 16) (p / 2 ^ 16 % 2 ^ 12)
      r.1.passOn m (r.2 == 1) (r.2 == 3)
    else u.passOn m false false
  rw [onMessage_takes (show (fresh s).onMessages = true from hon) m hcrc hkind, if_pos (show (fresh s).role = _ from hrole)] at same
  extract_lets p r at same
  have hr : r = ((fresh s).updTrl fun x => { x with
      job := some { epoch := m.words.getD 0 0, lead := p % 2 ^ 16, collect := p / 2 ^ 16 % 2 ^ 12, since := (x.time + 1) % 2 ^ 40 } },
        1) := by
    show (fresh s).headShift _ _ _ = _
    unfold State.headShift
    dsimp only
    rw [fresh_trl, hjob, show (fresh s).unitsPresent = [] from hunits, hmixed, hopen]
    rfl
  refine ⟨t, ht, ?_⟩
  rw [same.trl, unmasked (passOn_frame ..).trl (by decide +kernel), hr]
  exact ⟨_, rfl, rfl, rfl, rfl⟩

theorem excludeMessage_next (hkind : m.kind = 5) (hrole : s.role = rlHEAD) :
    ∃ t, exec (.excludeMessage m) s = .next t ∧ t.trl.excluded =
      if (m.words.getD 1 0).testBit 0 then insertNat (m.words.getD 0 0) s.trl.excluded
      else s.trl.excluded.filter (· ≠ m.words.getD 0 0) := by
  obtain ⟨t, ht, same⟩ := done_next hheld fun t => t.onMessage m 5 fun u =>
    if u.role = rlHEAD then (u.headExclude (m.words.getD 0 0) ((m.words.getD 1 0).testBit 0)).passOn m true false
    else u.passOn m false false
  rw [onMessage_takes (show (fresh s).onMessages = true from hon) m hcrc hkind, if_pos (show (fresh s).role = _ from hrole)] at same
  refine ⟨t, ht, ?_⟩
  rw [same.trl, unmasked (passOn_frame ..).trl (by decide +kernel)]
  rfl

end

/-! ### A bad CRC -/

theorem messages_badCrc (sigOk : Bool) (hcrc : m.crcOk = false) :
    (∃ t, exec (.pieceMessage m sigOk) s = .next t ∧ t.isSet F.TRL_EVT_CRC_ERR 0 = true) ∧
      (∃ t, exec (.mgmtMessage m) s = .next t ∧ t.isSet F.TRL_EVT_CRC_ERR 0 = true) ∧
      (∃ t, exec (.shiftReqMessage m) s = .next t ∧ t.isSet F.TRL_EVT_CRC_ERR 0 = true) ∧
      (∃ t, exec (.excludeMessage m) s = .next t ∧ t.isSet F.TRL_EVT_CRC_ERR 0 = true) := by
  have hbad : ∀ kind f, ∃ t, (done s fun t => t.onMessage m kind f) = .next t ∧ t.isSet F.TRL_EVT_CRC_ERR 0 = true := fun kind f => by
    obtain ⟨t, ht, same⟩ := done_next hheld fun t => t.onMessage m kind f
    exact ⟨t, ht, by rw [same.isSet, onMessage_bad (show (fresh s).onMessages = true from hon) m hcrc]⟩
  refine ⟨?_, hbad 2 _, hbad 4 _, hbad 5 _⟩
  obtain ⟨t, ht, same⟩ := doneQ_next hheld fun t => t.onMessage m 1 fun u =>
    if u.isSet F.TRL_CTL_PIECE_EN 0 then (u.pieceArrives { bytes := pieceBytes m.words, sigOk := sigOk }).passOn m true false
    else u.passOn m false false
  refine ⟨t, ht, ?_⟩
  rw [same.isSet, isSet_advance _ (by decide) (by decide +kernel), onMessage_bad (show (fresh s).onMessages = true from hon) m hcrc]

end

/-! ### MSG_SEND -/

theorem tx_queueMsg (s : State) (why : TxFor) (m : RingMsg) : (s.queueMsg why m).trl.tx = s.trl.tx ++ [{ why := why, msg := m }] := rfl

section
variable {s : State} (hserved : s.pf1Served = true) (w : BitVec 32)
include hserved

theorem msgSend_next (hbusy : s.isSet F.TRL_TX_STATUS_BUSY 0 = false) (hkind1 : 1 ≤ w.toNat / 2 ^ 28 % 8)
    (hkind5 : w.toNat / 2 ^ 28 % 8 ≤ 5) (hlen1 : 1 ≤ w.toNat % 2 ^ 10) (hlen : w.toNat % 2 ^ 10 ≤ 512) :
    ∃ t, exec (.msgSend w) s = .next t ∧ t.isSet F.TRL_TX_STATUS_BUSY 0 = true ∧
      ∃ x, t.trl.tx = s.trl.tx ++ [x] ∧ x.why = .data ∧ x.sentAt = none ∧ x.msg.kind = w.toNat / 2 ^ 28 % 8 := by
  obtain ⟨t, ht, same⟩ := doneW_next hserved fun t => t.writeTxCtl (w.toNat % 2 ^ 31 + 2 ^ 31)
  have hkind : bitsOf (w.toNat % 2 ^ 31 + 2 ^ 31) 30 28 = w.toNat / 2 ^ 28 % 8 := by
    show (w.toNat % 2 ^ 31 + 2 ^ 31) / 2 ^ 28 % 2 ^ 3 = _
    omega
  have hbits : bitsOf (w.toNat % 2 ^ 31 + 2 ^ 31) 9 0 = w.toNat % 2 ^ 10 := by
    show (w.toNat % 2 ^ 31 + 2 ^ 31) / 2 ^ 0 % 2 ^ 10 = _
    omega
  have hgo : (w.toNat % 2 ^ 31 + 2 ^ 31).testBit 31 = true := by
    rw [Nat.testBit_eq_decide_div_mod_eq]
    exact decide_eq_true (by omega)
  have hok : (fresh s).flushAsm.writeOk R.TRL_TX_CTL 0 (w.toNat % 2 ^ 31 + 2 ^ 31) = true := by
    rw [writeOk_txCtl, isSet_flushAsm _ (by decide) (by decide +kernel), show (fresh s).isSet F.TRL_TX_STATUS_BUSY 0 = false from hbusy,
      hkind, hbits]
    exact decide_eq_true ⟨hkind1, hkind5, hlen1, hlen⟩
  rw [State.writeTxCtl, if_neg (by rw [hok]; decide), State.onlyIf, if_pos hgo, State.txGo] at same
  have htx := (congrArg TrlS.tx same.trl).trans (tx_queueMsg ..)
  rw [trl_setB, trl_storeReg _ (by decide), flushAsm_trl] at htx
  refine ⟨t, ht, ?_, _, htx, rfl, rfl, ?_⟩
  · rw [same.isSet, State.queueMsg, isSet_updTrl, isSet_setB_same _ _ _ _ (by decide)]
  · show (State.storeReg _ R.TRL_TX_CTL 0 _).getF F.TRL_TX_CTL_KIND 0 = _
    rw [getF_storeReg _ (by decide) _ _ (f := ⟨30, 28, .rw, F.TRL_TX_CTL_KIND⟩) (by decide)]
    show (bitsOf (w.toNat % 2 ^ 31 + 2 ^ 31) 30 28 ^^^ 0) % 2 ^ 3 = _
    rw [hkind, Nat.xor_zero]
    exact Nat.mod_mod ..

theorem msgSend_busy (hbusy : s.isSet F.TRL_TX_STATUS_BUSY 0 = true) :
    ∃ t, exec (.msgSend w) s = .next t ∧ t.isSet F.TRL_EVT_CFG_REJECT 0 = true ∧ t.trl = s.trl := by
  obtain ⟨t, ht, same⟩ := doneW_next hserved fun t => t.writeTxCtl (w.toNat % 2 ^ 31 + 2 ^ 31)
  have hok : (fresh s).flushAsm.writeOk R.TRL_TX_CTL 0 (w.toNat % 2 ^ 31 + 2 ^ 31) = false := by
    rw [writeOk_txCtl, isSet_flushAsm _ (by decide) (by decide +kernel), show (fresh s).isSet F.TRL_TX_STATUS_BUSY 0 = true from hbusy]
    rfl
  rw [State.writeTxCtl, if_pos (by rw [hok]; decide)] at same
  refine ⟨t, ht, ?_, by rw [same.trl, trl_raise, flushAsm_trl]; rfl⟩
  rw [same.isSet]
  exact isSet_raise_same _ _ E.TRL_CFG_REJECT rfl (by decide) (by decide)

/-! ### RX_BUFFER_FREE -/

omit w in
theorem rxBufferFree_next : ∃ t, exec .rxBufferFree s = .next t ∧ t.isSet F.TRL_RX_STATUS_FULL 0 = false := by
  obtain ⟨t, ht, same⟩ := doneW_next hserved fun t => t.setB F.TRL_RX_STATUS_FULL 0 false
  exact ⟨t, ht, by rw [same.isSet, isSet_setB_same _ _ _ _ (by decide)]⟩

/-! ### SHIFT_REQUEST and EXCLUDE_REQUEST -/

/-- The state in which a request acts: the word is stored. -/
def stored (s : State) (r : RegDef) (w : Nat) : State := (fresh s).flushAsm.storeReg r 0 w

omit hserved in
theorem getF_stored (s : State) {r : RegDef} (hr : plainReg r = true) (v : Nat) {f : Field} (hf : f.id ∉ (rwFields r).map fun f => f.fld.id)
    (hid : f.id < 20000) (hmask : W.flushAsm.testBit f.id = false) : (stored s r v).getF f 0 = s.getF f 0 :=
  (getF_storeReg_other _ hr 0 v hf).trans (getF_flushAsm _ hid hmask)

omit hserved in
theorem trl_stored (s : State) {r : RegDef} (hr : plainReg r = true) (v : Nat) : (stored s r v).trl = s.trl :=
  (trl_storeReg _ hr 0 v).trans (flushAsm_trl _)

theorem shiftRequest_goes : ∃ t, exec (.shiftRequest w) s = .next t ∧
    Same (stored s R.TRL_SHIFT_CTL (w.toNat % 2 ^ 31 + 2 ^ 31)).shiftGo t := by
  obtain ⟨t, ht, same⟩ := doneW_next hserved fun t => t.writeShiftCtl (w.toNat % 2 ^ 31 + 2 ^ 31)
  have hgo : (w.toNat % 2 ^ 31 + 2 ^ 31).testBit 31 = true := by
    rw [Nat.testBit_eq_decide_div_mod_eq]
    exact decide_eq_true (by omega)
  rw [State.writeShiftCtl, State.onlyIf, if_pos hgo] at same
  exact ⟨t, ht, same⟩

theorem shiftRequest_sent (hrole : s.role ≠ rlHEAD) (hidle : s.getF F.TRL_SHIFT_CTL_RESULT 0 ≠ 1) :
    ∃ t, exec (.shiftRequest w) s = .next t ∧ t.getF F.TRL_SHIFT_CTL_RESULT 0 = 1 ∧
      ∃ x, t.trl.tx = s.trl.tx ++ [x] ∧ x.why = .shift ∧ x.msg.kind = 4 := by
  obtain ⟨t, ht, same⟩ := shiftRequest_goes hserved w
  have hresult := getF_stored s (r := R.TRL_SHIFT_CTL) (by decide) (w.toNat % 2 ^ 31 + 2 ^ 31) (f := F.TRL_SHIFT_CTL_RESULT)
    (by decide) (by decide) (by decide +kernel)
  have hrole1 : (stored s R.TRL_SHIFT_CTL (w.toNat % 2 ^ 31 + 2 ^ 31)).role = s.role :=
    getF_stored s (by decide) _ (by decide) (by decide) (by decide +kernel)
  rw [State.shiftGo, if_neg (by rw [hresult]; exact hidle), if_neg (by rw [hrole1]; exact hrole)] at same
  have htx := (congrArg TrlS.tx same.trl).trans (tx_queueMsg ..)
  rw [trl_updTrl, trl_setF, trl_stored _ (by decide)] at htx
  refine ⟨t, ht, ?_, _, htx, rfl, rfl⟩
  rw [same.getF, State.queueMsg, getF_updTrl, getF_updTrl, getF_setF]
  rfl

theorem shiftRequest_rejected (hbusy : s.getF F.TRL_SHIFT_CTL_RESULT 0 = 1) :
    ∃ t, exec (.shiftRequest w) s = .next t ∧ t.isSet F.TRL_EVT_CFG_REJECT 0 = true := by
  obtain ⟨t, ht, same⟩ := shiftRequest_goes hserved w
  rw [State.shiftGo, if_pos (by rw [getF_stored s (by decide) _ (by decide) (by decide) (by decide +kernel), hbusy])] at same
  refine ⟨t, ht, ?_⟩
  rw [same.isSet]
  exact isSet_raise_same _ _ E.TRL_CFG_REJECT rfl (by decide) (by decide)

theorem excludeRequest_next (hrole : s.role = rlHEAD) (hbusy : s.isSet F.TRL_EXCL_CTL_BUSY 0 = false) (hop : w.toNat.testBit 1 = true) :
    ∃ t, exec (.excludeRequest w) s = .next t ∧
      t.trl.excluded = insertNat (s.get64 F.TRL_EXCL_LO_SERIAL F.TRL_EXCL_HI_SERIAL) s.trl.excluded := by
  obtain ⟨t, ht, same⟩ := doneW_next hserved fun t => t.writeExclCtl (w.toNat / 2 * 2 + 1)
  have hgo : (w.toNat / 2 * 2 + 1).testBit 0 = true := by
    rw [Nat.testBit_eq_decide_div_mod_eq]
    exact decide_eq_true (by omega)
  rw [State.writeExclCtl, State.onlyIf, if_pos hgo] at same
  have same : Same (stored s R.TRL_EXCL_CTL (w.toNat / 2 * 2 + 1)).exclGo t := same
  have hlo := getF_stored s (r := R.TRL_EXCL_CTL) (by decide) (w.toNat / 2 * 2 + 1) (f := F.TRL_EXCL_LO_SERIAL)
    (by decide) (by decide) (by decide +kernel)
  have hhi := getF_stored s (r := R.TRL_EXCL_CTL) (by decide) (w.toNat / 2 * 2 + 1) (f := F.TRL_EXCL_HI_SERIAL)
    (by decide) (by decide) (by decide +kernel)
  have hset : (stored s R.TRL_EXCL_CTL (w.toNat / 2 * 2 + 1)).isSet F.TRL_EXCL_CTL_OP 0 = true := by
    rw [State.isSet, stored, getF_storeReg _ (by decide) _ _ (f := ⟨1, 1, .rw, F.TRL_EXCL_CTL_OP⟩) (by decide)]
    show (bitsOf (w.toNat / 2 * 2 + 1) 1 1 ^^^ 0) % 2 ^ 1 != 0
    have hbit : w.toNat / 2 ^ 1 % 2 = 1 := by
      rw [Nat.testBit_eq_decide_div_mod_eq] at hop
      exact of_decide_eq_true hop
    have hone : bitsOf (w.toNat / 2 * 2 + 1) 1 1 = 1 := by
      show (w.toNat / 2 * 2 + 1) / 2 ^ 1 % 2 ^ 1 = 1
      omega
    rw [hone]
    decide
  rw [State.exclGo, if_neg (by
      rw [State.isSet, getF_stored s (by decide) _ (by decide) (by decide) (by decide +kernel), ← State.isSet, hbusy]; decide)] at same
  dsimp only at same
  rw [if_pos (show State.role _ = rlHEAD from
      (getF_stored s (by decide) _ (by decide) (by decide) (by decide +kernel)).trans hrole), hset] at same
  refine ⟨t, ht, ?_⟩
  rw [same.trl, State.headExclude, trl_updTrl, if_pos rfl, trl_stored _ (by decide), State.get64, hlo, hhi]
  rfl

end

/-! ### The end of a message -/

theorem msgResult_data (s : State) {x : TxMsg} (hwhy : x.why = .data) (delivered busy lost : Bool) :
    s.msgResult x delivered busy lost = ((((s.updTrl fun t => { t with tx := t.tx.erase x }).setB F.TRL_TX_STATUS_BUSY 0 false).setF
      F.TRL_TX_STATUS_RESULT 0 (if lost then 4 else if busy then 2 else if delivered then 1 else 3)).raise E.TRL_TX_DONE 0) := by
  unfold State.msgResult
  rw [hwhy]

section
variable {s : State} (hheld : s.pwr.held = [])
include hheld

theorem msgReturned_next (m : MsgIn) (sigOk : Bool) (x : TxMsg) (hon : s.onMessages = true) (hsrc : m.src = s.getF F.TRL_STATUS_POSITION 0)
    (hkind : m.kind ≠ 1) (hfind : (s.trl.tx.find? fun y => y.sentAt.isSome && y.msg.kind == m.kind && y.msg.words == m.words) = some x)
    (hwhy : x.why = .data) : ∃ t, exec (.msgReturned m sigOk) s = .next t ∧ t.isSet F.TRL_TX_STATUS_BUSY 0 = false ∧
      t.isSet F.TRL_EVT_TX_DONE 0 = true ∧ t.getF F.TRL_TX_STATUS_RESULT 0 = (if m.busy then 2 else if m.delivered then 1 else 3) ∧
      t.trl.tx = s.trl.tx.erase x := by
  obtain ⟨t, ht, same⟩ := doneQ_next hheld fun t => if t.onMessages then t.msgReturns m sigOk else t
  have heq : (fresh s).msgReturns m sigOk = (fresh s).msgResult x m.delivered m.busy false := by
    unfold State.msgReturns
    rw [fresh_trl, hfind]
    dsimp only
    rw [if_neg (not_not.2 (show m.src = (fresh s).getF F.TRL_STATUS_POSITION 0 from hsrc))]
    exact if_neg (by rw [beq_false_of_ne hkind, Bool.false_and]; decide)
  rw [if_pos (show (fresh s).onMessages = true from hon), heq, msgResult_data _ hwhy, if_neg (by decide)] at same
  refine ⟨t, ht, ?_, ?_, ?_, by rw [same.trl, advance_trl]; rfl⟩
  · rw [same.isSet, isSet_advance _ (by decide) (by decide +kernel), isSet_raise_other _ _ (by decide) (by decide),
      isSet_setF_other _ _ (by decide), isSet_setB_same _ _ _ _ (by decide)]
  · rw [same.isSet, isSet_advance _ (by decide) (by decide +kernel)]
    exact isSet_raise_same _ _ E.TRL_TX_DONE rfl (by decide) (by decide)
  · rw [same.getF, getF_advance _ (by decide) (by decide +kernel), getF_raise_other _ _ (by decide) (by decide), getF_setF]
    refine Nat.mod_eq_of_lt (by show _ < 2 ^ 3; split_ifs <;> decide)

theorem msgLost_next (x : TxMsg) (a : Nat) (htx : s.trl.tx = [x]) (hwhy : x.why = .data) (hsent : x.sentAt = some a)
    (hlate : 100 < s.ticksSince a) : ∃ t, exec .msgLost s = .next t ∧ t.trl.tx = [] ∧ t.getF F.TRL_TX_STATUS_RESULT 0 = 4 ∧
      t.isSet F.TRL_EVT_TX_DONE 0 = true := by
  obtain ⟨t, ht, same⟩ := done_next hheld fun t =>
    t.forEach (t.trl.tx.filter fun x => match x.sentAt with | some a => decide (100 < t.ticksSince a) | none => false) State.loseMsg
  rw [fresh_trl, htx, List.filter_cons_of_pos, List.filter_nil] at same
  · have heq : (fresh s).forEach [x] State.loseMsg = _ := msgResult_data (fresh s) hwhy false false true
    rw [heq, if_pos rfl] at same
    refine ⟨t, ht, ?_, ?_, ?_⟩
    · rw [same.trl]
      show (fresh s).trl.tx.erase x = []
      rw [fresh_trl, htx, List.erase_cons_head]
    · rw [same.getF, getF_raise_other _ _ (by decide) (by decide), getF_setF]
      rfl
    · rw [same.isSet]
      exact isSet_raise_same _ _ E.TRL_TX_DONE rfl (by decide) (by decide)
  · rw [hsent]
    exact decide_eq_true hlate

end

/-- Settles O43: one lemma per row, above. -/
theorem ringMessageRows : Obligations.RingMessageRows := fun _ =>
  ⟨fun m sigOk hheld hon hcrc =>
      ⟨pieceMessage_next hheld hon m hcrc sigOk, mgmtMessage_taken hheld hon m hcrc, mgmtMessage_refused hheld hon m hcrc,
        shiftReqMessage_next hheld hon m hcrc, excludeMessage_next hheld hon m hcrc⟩,
    fun m sigOk hheld hon => messages_badCrc hheld hon m sigOk,
    fun w hserved => ⟨msgSend_next hserved w, msgSend_busy hserved w⟩,
    fun m sigOk x hheld => msgReturned_next hheld m sigOk x,
    fun x a hheld => msgLost_next hheld x a,
    rxBufferFree_next,
    fun w hserved => ⟨shiftRequest_sent hserved w, shiftRequest_rejected hserved w, excludeRequest_next hserved w⟩⟩

end Sys2Proof.Proofs
end

section
/-!
PROOFS. Resets of the device (R408, R410, R411): what a reset clears and keeps, what a start shows; then PORn, SRSTn and the ring's
unit reset, assembled at the end.
-/
set_option Elab.async false

namespace Sys2Proof.Laws

open Sys2Proof.Machine

/-! ### What a reset clears -/

/-- Before block 19 no register keeps its value. -/
theorem getF_resetDevice (s : State) (por : Bool) {f : Field} (i : Nat) (hf : f.id < 19000) : (s.resetDevice por).getF f i = f.reset := by
  refine regGet_absent _ f i fun c hc hsame => ?_
  have hkept := (List.mem_filter.1 hc).2
  rw [hsame.1] at hkept
  have hlow : ∀ a b, 19000 ≤ a → idIn a b f.id = false := fun a b ha => decide_eq_false fun h => by omega
  rw [hlow _ _ (by decide), hlow _ _ (by decide), Bool.and_false] at hkept
  exact absurd hkept (by decide)

/-- PWR_STATUS shows what is present. -/
theorem getF_resetDevice_status (s : State) (por : Bool) {f : Field} (i : Nat)
    (hf : idIn F.PWR_STATUS_PCIE_REF.id F.PWR_STATUS_RAILS.id f.id = true) : (s.resetDevice por).getF f i = s.getF f i := by
  refine regGet_filter _ _ f i fun c _ hsame => ?_
  rw [hsame.1, hf, Bool.true_or]

theorem isSet_resetDevice_status (s : State) (por : Bool) {f : Field} (i : Nat)
    (hf : idIn F.PWR_STATUS_PCIE_REF.id F.PWR_STATUS_RAILS.id f.id = true) : (s.resetDevice por).isSet f i = s.isSet f i := by
  rw [State.isSet, getF_resetDevice_status s por i hf, State.isSet]

/-! ### The source and the cause -/

section
variable (s : State) (f : Field)

@[simp] theorem getF_hold (why : HoldWhy) (cause i : Nat) : (s.hold why cause).getF f i = s.getF f i := rfl

@[simp] theorem isSet_hold (why : HoldWhy) (cause i : Nat) : (s.hold why cause).isSet f i = s.isSet f i := rfl

theorem mem_held_hold (why : HoldWhy) (cause : Nat) : why ∈ (s.hold why cause).pwr.held := by
  show why ∈ if s.pwr.held.contains why then s.pwr.held else s.pwr.held ++ [why]
  split
  case isTrue h => exact List.contains_iff_mem.1 h
  case isFalse => exact List.mem_append_right _ List.mem_cons_self

theorem isSet_resetSource (bit : Nat) (hw : 1 ≤ f.width) (hne : F.PWR_RESET_CAUSE_LAST.id ≠ f.id) :
    (s.resetSource f bit).isSet f 0 = true := by
  rw [State.resetSource, isSet_setF_other _ _ hne, isSet_setB_same _ _ _ _ hw]

theorem last_resetSource {bit : Nat} (hb : bit < 16) : (s.resetSource f bit).getF F.PWR_RESET_CAUSE_LAST 0 = bit := by
  rw [State.resetSource, getF_setF]
  exact Nat.mod_eq_of_lt hb

theorem getF_resetSource_other (bit : Nat) {g : Field} {i : Nat} (hf : f.id ≠ g.id) (hlast : F.PWR_RESET_CAUSE_LAST.id ≠ g.id) :
    (s.resetSource f bit).getF g i = s.getF g i := by
  rw [State.resetSource, getF_setF_other _ _ hlast, getF_setB_other _ _ hf]

theorem isSet_resetSource_other (bit : Nat) {g : Field} {i : Nat} (hf : f.id ≠ g.id) (hlast : F.PWR_RESET_CAUSE_LAST.id ≠ g.id) :
    (s.resetSource f bit).isSet g i = s.isSet g i := by
  rw [State.isSet, getF_resetSource_other s f bit hf hlast, State.isSet]

end

/-! ### The start -/

theorem load_startDevice (s : State) (x : StartIn) : (s.startDevice x).cfg.load = some { cause := s.pwr.cause } := rfl

theorem pwr_startDevice (s : State) (x : StartIn) : (s.startDevice x).pwr = s.pwr := unmasked (startDevice_frame ..).pwr (by decide +kernel)

/-- The only source that holds the device ends: the load starts with the cause that was recorded. -/
theorem unhold_starts {s : State} {why : HoldWhy} (x : StartIn) (hheld : s.pwr.held = [why]) :
    (s.unhold why x).pwr.held = [] ∧ (s.unhold why x).cfg.load = some { cause := s.pwr.cause } := by
  have hnone : s.pwr.held.filter (· ≠ why) = [] := by
    rw [hheld]
    exact List.filter_eq_nil_iff.2 fun y hy => by rw [List.mem_singleton.1 hy]; simp
  have heq : s.unhold why x = ({ s with pwr := { s.pwr with held := s.pwr.held.filter (· ≠ why) } } : State).startDevice x := by
    unfold State.unhold
    rw [if_pos (by rw [hheld]; exact List.contains_iff_mem.2 List.mem_cons_self)]
    exact if_pos (by rw [hnone]; rfl)
  rw [heq, pwr_startDevice, load_startDevice]
  exact ⟨hnone, rfl⟩

end Sys2Proof.Laws

namespace Sys2Proof.Proofs

open Sys2Proof.Machine Sys2Proof.Laws

/-! ### PORn and SRSTn -/

/-- A source takes the device into reset with its own bit of PWR_RESET_CAUSE. -/
theorem holdReset_next (s : State) (por : Bool) (why : HoldWhy) (cause : Nat) {src : Field} {bit : Nat} (hsrc : 19000 ≤ src.id)
    (hwidth : 1 ≤ src.width) (hne : F.PWR_RESET_CAUSE_LAST.id ≠ src.id) (hbit : bit < 16) :
    ∃ t, effect s (fun t => ((t.resetDevice por).hold why cause).resetSource src bit) = .next t ∧ why ∈ t.pwr.held ∧
      (s.pwr.held = [] → t.pwr.cause = cause) ∧ t.isSet src 0 = true ∧ t.getF F.PWR_RESET_CAUSE_LAST 0 = bit ∧ t.mem = {} ∧
      t.cfg.fuses = s.cfg.fuses ∧ t.cfg.flash = s.cfg.flash ∧ ∀ (f : Field) i, f.id < 19000 → t.getF f i = f.reset := by
  obtain ⟨t, ht, same⟩ := effect_next s fun t => ((t.resetDevice por).hold why cause).resetSource src bit
  refine ⟨t, ht, ?_, fun hheld => ?_, ?_, ?_, by rw [same.mem]; rfl, by rw [same.cfg]; rfl, by rw [same.cfg]; rfl, fun f i hf => ?_⟩
  · rw [same.pwr]
    exact mem_held_hold ..
  · rw [same.pwr]
    show (if s.pwr.held.isEmpty then cause else min s.pwr.cause cause) = cause
    rw [hheld]
    rfl
  · rw [same.isSet, isSet_resetSource _ _ _ hwidth hne]
  · rw [same.getF, last_resetSource _ _ hbit]
  · rw [same.getF, getF_resetSource_other _ _ _ (Nat.ne_of_gt (Nat.lt_of_lt_of_le hf hsrc)) (Nat.ne_of_gt (Nat.lt_trans hf (by decide))),
      getF_hold, getF_resetDevice _ _ _ hf]

section
variable {s : State}

/-- The last source ends. -/
theorem effect_unhold {f : State → State} (hf : (f (fresh s)).cfg.load = some { cause := s.pwr.cause } ∧ (f (fresh s)).pwr.held = []) :
    ∃ t, effect s f = .next t ∧ t.pwr.held = [] ∧ t.cfg.load = some { cause := s.pwr.cause } := by
  obtain ⟨t, ht, same⟩ := effect_next s f
  exact ⟨t, ht, by rw [same.pwr, hf.2], by rw [same.cfg, hf.1]⟩

theorem pornDeassert_next (x : StartIn) (hheld : s.pwr.held = [.porn]) :
    ∃ t, exec (.pornDeassert x) s = .next t ∧ t.pwr.held = [] ∧ t.cfg.load = some { cause := s.pwr.cause } :=
  effect_unhold (f := fun t => t.unhold .porn x) (unhold_starts (s := fresh s) x hheld).symm

theorem srstnDeassert_next (x : StartIn) (hheld : s.pwr.held = [.srstn]) :
    ∃ t, exec (.srstnDeassert x) s = .next t ∧ t.pwr.held = [] ∧ t.cfg.load = some { cause := s.pwr.cause } :=
  effect_unhold (f := fun t => t.unhold .srstn x) (unhold_starts (s := fresh s) x hheld).symm

/-! ### UNIT_RESET_MESSAGE -/

theorem unitResetMessage_next (m : MsgIn) (x : StartIn) (hheld : s.pwr.held = []) (hon : s.onMessages = true) (hcrc : m.crcOk = true)
    (hkind : m.kind = 3) (hdest : m.dest = s.getF F.TRL_STATUS_POSITION 0) (hserial : m.words.getD 0 0 = s.serial)
    (hen : s.isSet F.TRL_CTL_RESET_EN 0 = true) : ∃ t, exec (.unitResetMessage m x) s = .next t ∧ t.cfg.load = some { cause := 4 } ∧
      t.isSet F.PWR_RESET_CAUSE_RING 0 = true ∧ t.getF F.PWR_RESET_CAUSE_LAST 0 = 6 := by
  obtain ⟨t, ht, same⟩ := done_next hheld fun t => t.onMessage m 3 fun u =>
    if m.dest = u.getF F.TRL_STATUS_POSITION 0 ∧ m.words.getD 0 0 = u.serial ∧ u.isSet F.TRL_CTL_RESET_EN 0 then
      let w := ((u.passOn m true false).resetDevice false).resetSource F.PWR_RESET_CAUSE_RING 6
      ({ w with pwr := { w.pwr with cause := 4 } }).startDevice x
    else u.passOn m false false
  rw [onMessage_takes (show (fresh s).onMessages = true from hon) m hcrc hkind, if_pos (show m.dest = (fresh s).getF _ 0 ∧
    m.words.getD 0 0 = (fresh s).serial ∧ (fresh s).isSet _ 0 = true from ⟨hdest, hserial, hen⟩)] at same
  extract_lets w at same
  refine ⟨t, ht, by rw [same.cfg, load_startDevice], ?_, ?_⟩
  · rw [same.isSet, (startDevice_frame ..).isSet (by decide) (by decide +kernel)]
    show w.isSet F.PWR_RESET_CAUSE_RING 0 = true
    exact isSet_resetSource _ _ _ (by decide) (by decide)
  · rw [same.getF, (startDevice_frame ..).getF (by decide) (by decide +kernel)]
    show w.getF F.PWR_RESET_CAUSE_LAST 0 = 6
    exact last_resetSource _ _ (by decide)

end

/-- Settles O44: asserting a source is `holdReset_next`; one lemma for each other row. -/
theorem deviceResetRows : Obligations.DeviceResetRows := fun s =>
  ⟨holdReset_next s true .porn 1 (by decide) (by decide) (by decide) (by decide),
    holdReset_next s false .srstn 2 (by decide) (by decide) (by decide) (by decide), pornDeassert_next, srstnDeassert_next,
      unitResetMessage_next⟩

end Sys2Proof.Proofs
end

section
/-!
PROOFS. PERST#, hot reset and the verify-only load (R281, R367, R409, R411): one lemma per row, assembled at the end.
-/
set_option Elab.async false

namespace Sys2Proof.Proofs

open Sys2Proof.Machine Sys2Proof.Laws

/-! ### PERST# asserted -/

section
variable {s : State} (hperst : s.hif.perst = false)
include hperst

theorem perstAssert_resets (hheld : s.pwr.held = []) : ∃ t, exec .perstAssert s = .next t ∧ t.isSet F.PWR_RESET_CAUSE_PERST 0 = true ∧
    t.getF F.PWR_RESET_CAUSE_LAST 0 = 2 := by
  obtain ⟨t, ht, same⟩ := effect_next s fun t =>
    let u : State := { t.resetSource F.PWR_RESET_CAUSE_PERST 2 with hif := { t.hif with perst := true, hotPending := false } }
    if t.hif.perst then t
    else if !t.pwr.held.isEmpty then u
    else
      let w := if t.verifying then u.updCfg fun c => { c with load := none } else u
      w.resetHost.freezeMedia.advance
  extract_lets reset hif u w at same
  rw [if_neg (show ¬ (fresh s).hif.perst = true from hperst ▸ by decide), if_neg (by
    rw [show (fresh s).pwr.held = [] from hheld]; decide)] at same
  have hw : w.regs = u.regs := by
    show (if (fresh s).verifying then u.updCfg fun c => { c with load := none } else u).regs = _
    split <;> rfl
  have hreads : ∀ f : Field, (W.resetHost ||| W.freezeMedia ||| W.advance).testBit f.id = false → f.id < 20000 →
      t.getF f 0 = ((fresh s).resetSource F.PWR_RESET_CAUSE_PERST 2).getF f 0 := fun f hmask hid => by
    rw [Nat.testBit_or, Nat.testBit_or, Bool.or_eq_false_iff, Bool.or_eq_false_iff] at hmask
    rw [same.getF, getF_advance _ hid hmask.2, (freezeMedia_frame _).getF hid hmask.1.2, (resetHost_frame _).getF hid hmask.1.1,
      State.getF, hw]
    rfl
  refine ⟨t, ht, ?_, ?_⟩
  · rw [State.isSet, hreads _ (by decide +kernel) (by decide), ← State.isSet, isSet_resetSource _ _ _ (by decide) (by decide)]
  · rw [hreads _ (by decide +kernel) (by decide), last_resetSource _ _ (by decide)]

theorem perstAssert_held (hheld : s.pwr.held ≠ []) :
    ∃ t, exec .perstAssert s = .next t ∧ t.hif.perst = true ∧ t.getF F.PWR_RESET_CAUSE_LAST 0 = 2 := by
  obtain ⟨t, ht, same⟩ := effect_next s fun t =>
    let u : State := { t.resetSource F.PWR_RESET_CAUSE_PERST 2 with hif := { t.hif with perst := true, hotPending := false } }
    if t.hif.perst then t
    else if !t.pwr.held.isEmpty then u
    else
      let w := if t.verifying then u.updCfg fun c => { c with load := none } else u
      w.resetHost.freezeMedia.advance
  extract_lets reset hif u w at same
  rw [if_neg (show ¬ (fresh s).hif.perst = true from hperst ▸ by decide), if_pos (by
    rw [show (fresh s).pwr.held.isEmpty = false from Bool.eq_false_iff.2 fun h => hheld (List.isEmpty_iff.1 h)]; rfl)] at same
  obtain ⟨p, hp⟩ := same.hif
  refine ⟨t, ht, by rw [hp], ?_⟩
  rw [same.getF]
  show ((fresh s).resetSource F.PWR_RESET_CAUSE_PERST 2).getF F.PWR_RESET_CAUSE_LAST 0 = 2
  exact last_resetSource _ _ (by decide)

end

/-! ### PERST# deasserted -/

section
variable {s : State} (hperst : s.hif.perst = true) (hheld : s.pwr.held = []) (hload : s.cfg.load = none)
include hperst hheld hload

/-- Nothing else holds the device. -/
theorem perst_ends : ¬ (!(fresh s).hif.perst || !(fresh s).pwr.held.isEmpty || (fresh s).cfg.load.isSome) = true := by
  rw [fresh_cfg, show (fresh s).hif.perst = true from hperst, show (fresh s).pwr.held = [] from hheld, hload]
  decide

theorem perstDeassert_verifies (himage : s.cfg.image.isSome = true) :
    ∃ t, exec .perstDeassert s = .next t ∧ t.hif.perst = false ∧ t.cfg.load = some { cause := 3, verifyOnly := true } ∧
      t.regs = s.regs := by
  obtain ⟨t, ht, same⟩ := effect_next s fun t =>
    let u : State := { t with hif := { t.hif with perst := false } }
    if !t.hif.perst || !t.pwr.held.isEmpty || t.cfg.load.isSome then u
    else if t.cfg.image.isSome then u.updCfg fun c => { c with load := some { cause := 3, verifyOnly := true } }
    else
      let w := u.resetDevice false
      ({ w with pwr := { w.pwr with cause := 3 } }).startDevice
        { bist := t.isSet F.PWR_STRAPS_BIST 0, ringEn := t.isSet F.PWR_STRAPS_RING_EN 0, test := t.isSet F.PWR_STRAPS_TEST 0 }
  extract_lets u w at same
  rw [if_neg (perst_ends hperst hheld hload), if_pos (show (fresh s).cfg.image.isSome = true from himage)] at same
  obtain ⟨p, hp⟩ := same.hif
  exact ⟨t, ht, by rw [hp]; rfl, by rw [same.cfg]; rfl, same.regs⟩

theorem perstDeassert_loads (himage : s.cfg.image = none) :
    ∃ t, exec .perstDeassert s = .next t ∧ t.cfg.load = some { cause := 3 } := by
  obtain ⟨t, ht, same⟩ := effect_next s fun t =>
    let u : State := { t with hif := { t.hif with perst := false } }
    if !t.hif.perst || !t.pwr.held.isEmpty || t.cfg.load.isSome then u
    else if t.cfg.image.isSome then u.updCfg fun c => { c with load := some { cause := 3, verifyOnly := true } }
    else
      let w := u.resetDevice false
      ({ w with pwr := { w.pwr with cause := 3 } }).startDevice
        { bist := t.isSet F.PWR_STRAPS_BIST 0, ringEn := t.isSet F.PWR_STRAPS_RING_EN 0, test := t.isSet F.PWR_STRAPS_TEST 0 }
  extract_lets u w at same
  rw [if_neg (perst_ends hperst hheld hload), if_neg (by rw [fresh_cfg, himage]; decide)] at same
  exact ⟨t, ht, by rw [same.cfg, load_startDevice]⟩

end

/-! ### VERIFY_ONLY_LOAD_DONE -/

/-- Staging is rebuilt from the flash: neither the load nor a record that is due changes. -/
theorem rebuildStage_keeps (s : State) (bad : Bool) (svn : Nat → Nat) :
    (s.rebuildStage bad svn).cfg.load = s.cfg.load ∧ (s.rebuildStage bad svn).cfg.recordDue = s.cfg.recordDue := by
  unfold State.rebuildStage
  dsimp only
  split
  · exact ⟨rfl, rfl⟩
  · split
    · exact ⟨rfl, rfl⟩
    · split
      · exact ⟨rfl, rfl⟩
      · split <;> exact ⟨rfl, rfl⟩

section
variable {s : State} (hheld : s.pwr.held = []) (x : LoadIn) (hverify : s.verifying = true)
include hheld hverify

theorem verifyOnlyLoadDone_passes (hcause : s.verifyOnlyCause x = 0) :
    ∃ t, exec (.verifyOnlyLoadDone x) s = .next t ∧ t.cfg.load = none ∧ t.cfg.recordDue = some 3 := by
  obtain ⟨t, ht, same⟩ := doneQ_next hheld fun t => if t.verifying then t.verifyOnlyDone x else t
  rw [if_pos (show (fresh s).verifying = true from hverify), State.verifyOnlyDone,
    if_pos (show (fresh s).verifyOnlyCause x = 0 from hcause)] at same
  extract_lets s1 s2 at same
  have hs2 : s2.cfg.load = none ∧ s2.cfg.recordDue = some 3 := by
    show (if s1.stg = sgARMED then s1 else s1.rebuildStage x.stageBad fun k => (x.image k).svn).cfg.load = none ∧
      (if s1.stg = sgARMED then s1 else s1.rebuildStage x.stageBad fun k => (x.image k).svn).cfg.recordDue = some 3
    split
    · exact ⟨rfl, rfl⟩
    · exact rebuildStage_keeps s1 ..
  refine ⟨t, ht, ?_, ?_⟩ <;> rw [same.cfg, advance_cfg, unmasked (thawMedia_frame _).cfg (by decide +kernel)]
  · exact hs2.1
  · exact hs2.2

theorem verifyOnlyLoadDone_fails (hcause : s.verifyOnlyCause x ≠ 0) : ∃ t, exec (.verifyOnlyLoadDone x) s = .next t ∧
    t.cfg.load = some { cause := 3 } ∧ t.isSet F.CFG_STATUS_LOADED 0 = false := by
  obtain ⟨t, ht, same⟩ := doneQ_next hheld fun t => if t.verifying then t.verifyOnlyDone x else t
  rw [if_pos (show (fresh s).verifying = true from hverify), State.verifyOnlyDone,
    if_neg (show (fresh s).verifyOnlyCause x ≠ 0 from hcause)] at same
  extract_lets w at same
  refine ⟨t, ht, by rw [same.cfg, advance_cfg, load_startDevice], ?_⟩
  rw [same.isSet, isSet_advance _ (by decide) (by decide +kernel), (startDevice_frame ..).isSet (by decide) (by decide +kernel)]
  show (w.getF F.CFG_STATUS_LOADED 0 != 0) = false
  rw [getF_resetDevice _ _ _ (by decide)]
  rfl

end

/-! ### HOT_RESET -/

theorem hotReset_next {s : State} (hperst : s.hif.perst = false) (hheld : s.pwr.held = []) :
    ∃ t, exec .hotReset s = .next t ∧ t.isSet F.HIF_EVT_HOT_RESET 0 = true ∧ t.isSet F.PWR_RESET_CAUSE_HOT 0 = true ∧
      t.getF F.PWR_RESET_CAUSE_LAST 0 = 3 := by
  obtain ⟨t, ht, same⟩ := doneQ_next hheld fun t =>
    if t.hif.perst then t
    else
      let u := ((t.resetHost).raise E.HIF_HOT_RESET 0).resetSource F.PWR_RESET_CAUSE_HOT 3
      { u with hif := { u.hif with hotPending := true } }
  rw [if_neg (show ¬ (fresh s).hif.perst = true from hperst ▸ by decide)] at same
  extract_lets u at same
  refine ⟨t, ht, ?_, ?_, ?_⟩
  · rw [same.isSet, isSet_advance _ (by decide) (by decide +kernel)]
    show u.isSet F.HIF_EVT_HOT_RESET 0 = true
    rw [isSet_resetSource_other _ _ _ (by decide) (by decide)]
    exact isSet_raise_same _ _ E.HIF_HOT_RESET rfl (by decide) (by decide)
  · rw [same.isSet, isSet_advance _ (by decide) (by decide +kernel)]
    show u.isSet F.PWR_RESET_CAUSE_HOT 0 = true
    exact isSet_resetSource _ _ _ (by decide) (by decide)
  · rw [same.getF, getF_advance _ (by decide) (by decide +kernel)]
    show u.getF F.PWR_RESET_CAUSE_LAST 0 = 3
    exact last_resetSource _ _ (by decide)

/-- Settles O45: one lemma per row, above. -/
theorem hostResetRows : Obligations.HostResetRows := fun _ =>
  ⟨perstAssert_resets, perstAssert_held, perstDeassert_verifies, perstDeassert_loads,
    fun x hheld => verifyOnlyLoadDone_passes hheld x, fun x hheld => verifyOnlyLoadDone_fails hheld x, hotReset_next⟩

end Sys2Proof.Proofs
end

section
/-!
PROOFS. Rails and reference clocks (R412 to R418): one lemma per row, assembled at the end.
-/
set_option Elab.async false

namespace Sys2Proof.Laws

open Sys2Proof.Machine

/-- What a device-fatal condition changes beside its event. -/
theorem deviceFatal_frame (s : State) (e : Event) : Frame W.deviceFatal (s.raise e 0) (s.deviceFatal e) :=
  contain_fr ((reportInternal_frame ..).step ((reportInternal_frame ..).step (Frame.refl _ _) (by decide +kernel)) (by decide +kernel))
    (by decide +kernel) (by decide +kernel)

/-- A device-fatal condition is contained as internal (R294). -/
theorem internal_deviceFatal (s : State) (e : Event) : (s.deviceFatal e).isSet F.HIF_CONTAIN_CAUSE_INTERNAL 0 = true :=
  isSet_contain (by decide) (by decide) (by decide +kernel)

/-- A state with no source of reset takes the first branch. -/
theorem held_isEmpty {s : State} (hheld : s.pwr.held = []) : s.pwr.held.isEmpty = true := List.isEmpty_iff.2 hheld

end Sys2Proof.Laws

namespace Sys2Proof.Proofs

open Sys2Proof.Machine Sys2Proof.Laws

section
variable {s : State}

/-! ### Rails -/

theorem railFault_next (r : Fin 8) (hheld : s.pwr.held = []) (hgood : s.bitF F.PWR_STATUS_RAILS 0 r = true) :
    ∃ t, exec (.railFault r) s = .next t ∧ t.bitF F.PWR_STATUS_RAILS 0 r = false ∧ t.isSet F.PWR_EVT_RAIL_FAULT 0 = true ∧
      t.isSet F.HIF_CONTAIN_CAUSE_INTERNAL 0 = true := by
  obtain ⟨t, ht, same⟩ := effect_next s fun t =>
    if t.bitF F.PWR_STATUS_RAILS 0 r then
      let u := t.putF F.PWR_STATUS_RAILS 0 r false
      if u.pwr.held.isEmpty then (u.deviceFatal E.PWR_RAIL_FAULT).advance else u
    else t
  rw [if_pos (show (fresh s).bitF F.PWR_STATUS_RAILS 0 r = true from hgood)] at same
  extract_lets u at same
  rw [if_pos (held_isEmpty (s := u) hheld)] at same
  refine ⟨t, ht, ?_, ?_, ?_⟩
  · rw [same.bitF, bitF_advance _ (by decide) (by decide +kernel), (deviceFatal_frame ..).bitF (by decide) (by decide +kernel),
      bitF_raise_other _ _ _ (by decide) (by decide), bitF_putF_same _ _ _ _ _ r.isLt]
  · rw [same.isSet, isSet_advance _ (by decide) (by decide +kernel), (deviceFatal_frame ..).isSet (by decide) (by decide +kernel)]
    exact isSet_raise_same _ _ E.PWR_RAIL_FAULT rfl (by decide) (by decide)
  · rw [same.isSet, isSet_advance _ (by decide) (by decide +kernel), internal_deviceFatal]

theorem railReturn_next (r : Fin 8) : ∃ t, exec (.railReturn r) s = .next t ∧ t.bitF F.PWR_STATUS_RAILS 0 r = true := by
  obtain ⟨t, ht, same⟩ := effect_next s fun t => t.putF F.PWR_STATUS_RAILS 0 r true
  exact ⟨t, ht, by rw [same.bitF, bitF_putF_same _ _ _ _ _ r.isLt]⟩

/-! ### SYSCLK -/

theorem clkFault_next : ∃ t, exec .clkFault s = .next t ∧ .sysclk ∈ t.pwr.held ∧ t.isSet F.PWR_STATUS_SYSCLK 0 = false ∧
    t.getF F.PWR_RESET_CAUSE_LAST 0 = 1 := by
  obtain ⟨t, ht, same⟩ := effect_next s fun t =>
    let u := t.setB F.PWR_STATUS_SYSCLK 0 false
    let w := if u.pwr.held.isEmpty then State.settle u (u.deviceFatal E.PWR_CLK_FAULT).closeGates else u
    ((w.resetDevice false).hold .sysclk 2).resetSource F.PWR_RESET_CAUSE_SRST 1
  extract_lets u w at same
  have hu : u.isSet F.PWR_STATUS_SYSCLK 0 = false := isSet_setB_same _ _ _ _ (by decide)
  have hw : w.isSet F.PWR_STATUS_SYSCLK 0 = false := by
    show (if u.pwr.held.isEmpty then State.settle u (u.deviceFatal E.PWR_CLK_FAULT).closeGates else u).isSet F.PWR_STATUS_SYSCLK 0 = false
    split
    · rw [(settle_same ..).isSet, (closeGates_frame _).isSet (by decide) (by decide +kernel),
        (deviceFatal_frame ..).isSet (by decide) (by decide +kernel), isSet_raise_other _ _ (by decide) (by decide), hu]
    · exact hu
  refine ⟨t, ht, ?_, ?_, ?_⟩
  · rw [same.pwr]
    exact mem_held_hold ..
  · rw [same.isSet, isSet_resetSource_other _ _ _ (by decide) (by decide), isSet_hold, isSet_resetDevice_status _ _ _ (by decide), hw]
  · rw [same.getF, last_resetSource _ _ (by decide)]

theorem sysclkReturn_next (x : StartIn) (hheld : s.pwr.held = [.sysclk]) :
    ∃ t, exec (.sysclkReturn x) s = .next t ∧ t.pwr.held = [] ∧ t.cfg.load = some { cause := s.pwr.cause } :=
  effect_unhold (f := fun t => (t.setB F.PWR_STATUS_SYSCLK 0 true).unhold .sysclk x)
    (unhold_starts (s := (fresh s).setB F.PWR_STATUS_SYSCLK 0 true) x hheld).symm

/-! ### LREF -/

/-- A head of a deck whose link reference is lost. -/
def lrefHead (s : State) (h : Nat) : State := (((s.raise E.PWR_LREF_LOSS 0).headFatal h).linkDown h lkFAILED).headOff h

theorem isSet_lrefHead (s : State) (h : Nat) : (lrefHead s h).isSet F.PWR_EVT_LREF_LOSS 0 = true := by
  rw [lrefHead, (headOff_frame ..).isSet (by decide) (by decide +kernel), (linkDown_frame ..).isSet (by decide) (by decide +kernel),
    (headFatal_frame ..).isSet (by decide) (by decide +kernel)]
  exact isSet_raise_same _ _ E.PWR_LREF_LOSS rfl (by decide) (by decide)

theorem isSet_lrefLoss (s : State) (d : Nat) : (s.lrefLoss d).isSet F.PWR_EVT_LREF_LOSS 0 = true := by
  have heads : s.forEach (headsOf d) lrefHead =
      lrefHead (lrefHead (lrefHead (lrefHead s (4 * d)) (4 * d + 1)) (4 * d + 2)) (4 * d + 3) := by
    rw [State.forEach, headsOf, List.foldl_cons, List.foldl_cons, List.foldl_cons, List.foldl_cons, List.foldl_nil]
  show ((s.forEach (headsOf d) lrefHead).onlyIf (d == 0) State.ringLockLoss).isSet F.PWR_EVT_LREF_LOSS 0 = true
  rw [isSet_onlyIf, (ringLockLoss_frame _).isSet (by decide) (by decide +kernel), ite_self, heads, isSet_lrefHead]

theorem lrefLoss_next (d : Fin 8) (hheld : s.pwr.held = []) (hgood : s.bitF F.PWR_STATUS_LREF 0 d = true) :
    ∃ t, exec (.lrefLoss d) s = .next t ∧ t.bitF F.PWR_STATUS_LREF 0 d = false ∧ t.isSet F.PWR_EVT_LREF_LOSS 0 = true := by
  obtain ⟨t, ht, same⟩ := effect_next s fun t =>
    if t.bitF F.PWR_STATUS_LREF 0 d then
      let u := t.putF F.PWR_STATUS_LREF 0 d false
      if u.pwr.held.isEmpty then (u.lrefLoss d).advance else u
    else t
  rw [if_pos (show (fresh s).bitF F.PWR_STATUS_LREF 0 d = true from hgood)] at same
  extract_lets u at same
  rw [if_pos (held_isEmpty (s := u) hheld)] at same
  refine ⟨t, ht, ?_, ?_⟩
  · rw [same.bitF, bitF_advance _ (by decide) (by decide +kernel), (lrefLoss_frame ..).bitF (by decide) (by decide +kernel),
      bitF_putF_same _ _ _ _ _ d.isLt]
  · rw [same.isSet, isSet_advance _ (by decide) (by decide +kernel), isSet_lrefLoss]

theorem lrefReturn_next (d : Fin 8) : ∃ t, exec (.lrefReturn d) s = .next t ∧ t.bitF F.PWR_STATUS_LREF 0 d = true := by
  obtain ⟨t, ht, same⟩ := effect_next s fun t => t.putF F.PWR_STATUS_LREF 0 d true
  exact ⟨t, ht, by rw [same.bitF, bitF_putF_same _ _ _ _ _ d.isLt]⟩

/-! ### The PCI Express reference -/

/-- The link leaves DL_Active, whatever takes it down. -/
theorem dlActive_pcieDown (s : State) : s.pcieDown.isSet F.HIF_LINK_DL_ACTIVE 0 = false := by
  have hfields : (s.linkFields.count F.HIF_LINK_DOWN_CNT 0).isSet F.HIF_LINK_DL_ACTIVE 0 = false := by
    rw [isSet_count_other _ (by decide), State.linkFields, isSet_setB_other _ _ (by decide), isSet_setF_other _ _ (by decide),
      isSet_setF_other _ _ (by decide), isSet_setB_same _ _ _ _ (by decide)]
  unfold State.pcieDown
  dsimp only
  split
  case isTrue h => simpa using h
  case isFalse =>
    split
    · exact hfields
    · rw [(contain_fr (Frame.refl (fm [F.HIF_CONTAIN_CAUSE_LINK] ||| W.contain) _) (by decide +kernel) (by decide +kernel)).isSet
        (by decide) (by decide +kernel), isSet_raise_other _ _ (by decide) (by decide), hfields]

theorem pcieRefLoss_next (hheld : s.pwr.held = []) (_ : s.isSet F.HIF_LINK_DL_ACTIVE 0 = true) :
    ∃ t, exec .pcieRefLoss s = .next t ∧ t.isSet F.PWR_STATUS_PCIE_REF 0 = false ∧ t.isSet F.HIF_LINK_DL_ACTIVE 0 = false := by
  obtain ⟨t, ht, same⟩ := effect_next s fun t =>
    let u := t.setB F.PWR_STATUS_PCIE_REF 0 false
    if u.pwr.held.isEmpty then u.pcieDown.advance else u
  extract_lets u at same
  rw [if_pos (held_isEmpty (s := u) hheld)] at same
  refine ⟨t, ht, ?_, ?_⟩
  · rw [same.isSet, isSet_advance _ (by decide) (by decide +kernel), (pcieDown_frame _).isSet (by decide) (by decide +kernel),
      isSet_setB_same _ _ _ _ (by decide)]
  · rw [same.isSet, isSet_advance _ (by decide) (by decide +kernel), dlActive_pcieDown]

theorem pcieRefReturn_next : ∃ t, exec .pcieRefReturn s = .next t ∧ t.isSet F.PWR_STATUS_PCIE_REF 0 = true := by
  obtain ⟨t, ht, same⟩ := effect_next s fun t => t.setB F.PWR_STATUS_PCIE_REF 0 true
  exact ⟨t, ht, by rw [same.isSet, isSet_setB_same _ _ _ _ (by decide)]⟩

end

/-- Settles O46: one lemma per row, above. -/
theorem railAndClockRows : Obligations.RailAndClockRows := fun _ =>
  ⟨railFault_next, railReturn_next, clkFault_next, sysclkReturn_next, lrefLoss_next, lrefReturn_next, pcieRefLoss_next, pcieRefReturn_next⟩

end Sys2Proof.Proofs
end

section
/-!
PROOFS. Sensors and trim calibration (R419 to R422): one lemma per row, assembled at the end.
-/
set_option Elab.async false

namespace Sys2Proof.Proofs

open Sys2Proof.Machine Sys2Proof.Laws

/-! ### One sensor -/

/-- A reading in range survives its twelve bits. -/
theorem sgn_unsgn_reading {z : Int} (hlow : -480 ≤ z) (hhigh : z ≤ 1280) : sgn 12 (unsgn 12 z % 2 ^ 12) = z := by
  have hnonneg : ((z % (2 ^ 12 : Nat)).toNat : Int) = z % 4096 := Int.toNat_of_nonneg (Int.emod_nonneg _ (by decide))
  unfold sgn unsgn
  split <;> omega

section
variable (s : State) {i j : Nat} (z : Int)

theorem getF_sampleOne (f : Field) (k : Nat) (hpeak : F.CAL_TEMP_PEAK.id ≠ f.id) (hfail : F.CAL_EVT_SENSOR_FAIL.id ≠ f.id)
    (hforced : F.CAL_EVT_FORCED.id ≠ f.id) : (s.sampleOne i z).getF f k =
      ((s.setF F.CAL_TEMP_TEMP i (unsgn 12 z)).setB F.CAL_TEMP_VALID i (decide (-480 ≤ z ∧ z ≤ 1280 ∧
        (if (s.sensor i).last = some z then min 1024 ((s.sensor i).same + 1) else 1) < 1024))).getF f k := by
  unfold State.sampleOne
  extract_lets x same ok crit peak fails s1 s2 y s3
  rw [getF_onlyIf, getF_raise_other _ _ hfail hforced, ite_self]
  show (if ok then s1.setF F.CAL_TEMP_PEAK i (unsgn 12 peak) else s1).getF f k = s1.getF f k
  rw [getF_ite, getF_setF_other _ _ hpeak, ite_self]

theorem temp_sampleOne (hlow : -480 ≤ z) (hhigh : z ≤ 1280) : (s.sampleOne i z).temp i = z := by
  rw [State.temp, getF_sampleOne _ _ _ _ (by decide) (by decide) (by decide), getF_setB_other _ _ (by decide), getF_setF]
  exact sgn_unsgn_reading hlow hhigh

theorem valid_sampleOne (hlow : -480 ≤ z) (hhigh : z ≤ 1280) (hnew : (s.sensor i).last ≠ some z) :
    (s.sampleOne i z).isSet F.CAL_TEMP_VALID i = true := by
  rw [State.isSet, getF_sampleOne _ _ _ _ (by decide) (by decide) (by decide), ← State.isSet, isSet_setB_same _ _ _ _ (by decide),
    if_neg hnew]
  exact decide_eq_true ⟨hlow, hhigh, by decide⟩

variable (h : i ≠ j)
include h

theorem temp_sampleOne_other : (s.sampleOne i z).temp j = s.temp j := by
  rw [State.temp, getF_sampleOne _ _ _ _ (by decide) (by decide) (by decide), getF_setB_other _ _ (by decide), getF_setF_inst _ _ h,
    State.temp]

theorem valid_sampleOne_other : (s.sampleOne i z).isSet F.CAL_TEMP_VALID j = s.isSet F.CAL_TEMP_VALID j := by
  rw [State.isSet, getF_sampleOne _ _ _ _ (by decide) (by decide) (by decide), getF_setB_inst _ _ h, getF_setF_other _ _ (by decide),
    State.isSet]

theorem sensor_sampleOne_other : (s.sampleOne i z).sensor j = s.sensor j := by
  have hraise : ∀ (t : State) (c : Bool), (t.onlyIf c fun t => t.raise E.CAL_SENSOR_FAIL 0).sensor j = t.sensor j := fun t c => by
    cases c <;> rfl
  unfold State.sampleOne
  extract_lets x same ok crit peak fails s1 s2 y s3
  have hcal : s2.cal = s.cal := by
    show (if ok then s1.setF F.CAL_TEMP_PEAK i (unsgn 12 peak) else s1).cal = _
    split <;> rfl
  rw [hraise]
  show vget (vset s2.cal.sensors i y) {} j = s.sensor j
  rw [vget_vset_other _ _ _ h, hcal]
  rfl

end

/-! ### SENSOR_SAMPLE -/

/-- The sixteen readings are taken. -/
def sampled (s : State) (temps : List Int) : State := s.forEach (List.range 16) fun t i => t.sampleOne i (temps.getD i 0)

section
variable {s : State} {temps : List Int}
  (hreadings : ∀ i < 16, -480 ≤ temps.getD i 0 ∧ temps.getD i 0 ≤ 1280 ∧ (s.sensor i).last ≠ some (temps.getD i 0))
include hreadings

theorem temp_sampled {i : Nat} (hi : i < 16) : (sampled s temps).temp i = temps.getD i 0 := by
  obtain ⟨hlow, hhigh, -⟩ := hreadings i hi
  exact forEach_range_reads (P := fun _ => True) (read := fun t => t.temp i) hi trivial (fun _ _ _ _ => trivial)
    (fun t _ => temp_sampleOne t _ hlow hhigh) fun t x _ hx => temp_sampleOne_other t _ (Nat.ne_of_gt hx)

theorem valid_sampled {i : Nat} (hi : i < 16) : (sampled s temps).isSet F.CAL_TEMP_VALID i = true := by
  obtain ⟨hlow, hhigh, hnew⟩ := hreadings i hi
  exact forEach_range_reads (P := fun t => t.sensor i = s.sensor i) (read := fun t => t.isSet F.CAL_TEMP_VALID i) hi rfl
    (fun t x hx ht => (sensor_sampleOne_other t _ (Nat.ne_of_lt hx)).trans ht)
    (fun t ht => valid_sampleOne t _ hlow hhigh (ht ▸ hnew)) fun t x _ hx => valid_sampleOne_other t _ (Nat.ne_of_gt hx)

/-- No reading trips the device. -/
theorem sampled_cool (hcool : ∀ i < 16, temps.getD i 0 < 1200) :
    ¬ ((sampled s temps).validSensors.any fun i => decide (1200 ≤ (sampled s temps).temp i)) = true := by
  rw [List.any_eq_true]
  rintro ⟨i, hi, hhot⟩
  have hi16 : i < 16 := List.mem_range.1 (List.mem_filter.1 hi).1
  have hlimit := of_decide_eq_true hhot
  rw [temp_sampled hreadings hi16] at hlimit
  exact absurd (hcool i hi16) (Int.not_lt.2 hlimit)

/-- What follows the readings is not shown in the sensors' registers. -/
theorem getF_sample (hcool : ∀ i < 16, temps.getD i 0 < 1200) {f : Field} (i : Nat) (hid : f.id < 20000)
    (hmask : (W.thermWarn ||| W.tempPend ||| W.deviceFatal ||| em [E.CAL_THERM_CRIT]).testBit f.id = false) :
    (s.sample temps).getF f i = (sampled s temps).getF f i := by
  have heq : s.sample temps =
      (let u := (sampled s temps).thermWarn.tempPend
       if u.validSensors.any fun i => (u.sensor i).crit == 8 then u.deviceFatal E.CAL_THERM_CRIT else u) := by
    unfold State.sample
    exact if_neg (sampled_cool hreadings hcool)
  have hframe : Frame (W.thermWarn ||| W.tempPend ||| W.deviceFatal ||| em [E.CAL_THERM_CRIT]) (sampled s temps) (s.sample temps) := by
    rw [heq]
    have hwarn := (tempPend_frame _).step ((thermWarn_frame _).step (Frame.refl (W.thermWarn ||| W.tempPend ||| W.deviceFatal |||
      em [E.CAL_THERM_CRIT]) (sampled s temps)) (by decide +kernel)) (by decide +kernel)
    exact Frame.ite (deviceFatal_fr hwarn (by decide +kernel) (by decide +kernel)) hwarn
  exact hframe.getF hid hmask

theorem sampled_hot {i : Nat} (hi : i < 16) (hhot : 1200 ≤ temps.getD i 0) :
    ((sampled s temps).validSensors.any fun i => decide (1200 ≤ (sampled s temps).temp i)) = true :=
  List.any_eq_true.2 ⟨i, List.mem_filter.2 ⟨List.mem_range.2 hi, valid_sampled hreadings hi⟩,
    decide_eq_true (by rw [temp_sampled hreadings hi]; exact hhot)⟩

theorem sample_trips {i : Nat} (hi : i < 16) (hhot : 1200 ≤ temps.getD i 0) : s.sample temps = (sampled s temps).thermTrip := by
  unfold State.sample
  exact if_pos (sampled_hot hreadings hi hhot)

end

/-- A sample outside reset. -/
theorem sensorSample_samples {s : State} (hheld : s.pwr.held = []) (temps : List Int) (x : StartIn) :
    ∃ t, exec (.sensorSample temps x) s = .next t ∧ Same ((fresh s).sample temps).advance t := by
  obtain ⟨t, ht, same⟩ := effect_next s fun t =>
    if t.pwr.held.contains .trip then
      if (List.range 16).all fun i => decide (temps.getD i 0 < 1040) then t.unhold .trip x else t
    else if t.pwr.held.isEmpty then (t.sample temps).advance
    else t
  rw [if_neg (by rw [show (fresh s).pwr.held = [] from hheld]; decide), if_pos (held_isEmpty (s := fresh s) hheld)] at same
  exact ⟨t, ht, same⟩

section
variable {s : State} (hheld : s.pwr.held = []) {temps : List Int} (x : StartIn)
  (hreadings : ∀ i < 16, -480 ≤ temps.getD i 0 ∧ temps.getD i 0 ≤ 1280 ∧ (s.sensor i).last ≠ some (temps.getD i 0))
include hheld hreadings

theorem sensorSample_shows (hcool : ∀ i < 16, temps.getD i 0 < 1200) : ∃ t, exec (.sensorSample temps x) s = .next t ∧
    ∀ i < 16, t.temp i = temps.getD i 0 ∧ t.isSet F.CAL_TEMP_VALID i = true := by
  obtain ⟨t, ht, same⟩ := sensorSample_samples hheld temps x
  refine ⟨t, ht, fun i hi => ⟨?_, ?_⟩⟩
  · rw [State.temp, same.getF, getF_advance _ (by decide) (by decide +kernel),
      getF_sample (s := fresh s) hreadings hcool _ (by decide) (by decide +kernel)]
    exact temp_sampled (s := fresh s) hreadings hi
  · rw [State.isSet, same.getF, getF_advance _ (by decide) (by decide +kernel),
      getF_sample (s := fresh s) hreadings hcool _ (by decide) (by decide +kernel)]
    exact valid_sampled (s := fresh s) hreadings hi

theorem sensorSample_trips {i : Nat} (hi : i < 16) (hhot : 1200 ≤ temps.getD i 0) : ∃ t, exec (.sensorSample temps x) s = .next t ∧
    t.pwr.held = [.trip] ∧ t.getF F.PWR_RESET_CAUSE_LAST 0 = 8 := by
  obtain ⟨t, ht, same⟩ := sensorSample_samples hheld temps x
  have hpwr : (sampled (fresh s) temps).pwr = s.pwr :=
    unmasked (frame_forEach (m := W.sampleOne) (fun t x => sampleOne_frame t x _) (fresh s) (List.range 16)).pwr (by decide +kernel)
  rw [sample_trips (s := fresh s) hreadings hi hhot, State.thermTrip] at same
  refine ⟨t, ht, ?_, ?_⟩
  · rw [same.pwr, advance_pwr]
    show (if (sampled (fresh s) temps).pwr.held.contains .trip then (sampled (fresh s) temps).pwr.held
      else (sampled (fresh s) temps).pwr.held ++ [.trip]) = [.trip]
    rw [hpwr, hheld]
    rfl
  · rw [same.getF, getF_advance _ (by decide) (by decide +kernel), last_resetSource _ _ (by decide)]

end

/-- The trip ends when every reading is below 130 degrees C. -/
theorem sensorSample_tripEnds {s : State} (temps : List Int) (x : StartIn) (hheld : s.pwr.held = [.trip])
    (hcool : ∀ i < 16, temps.getD i 0 < 1040) : ∃ t, exec (.sensorSample temps x) s = .next t ∧ t.pwr.held = [] ∧
      t.cfg.load = some { cause := s.pwr.cause } := by
  obtain ⟨t, ht, same⟩ := effect_next s fun t =>
    if t.pwr.held.contains .trip then
      if (List.range 16).all fun i => decide (temps.getD i 0 < 1040) then t.unhold .trip x else t
    else if t.pwr.held.isEmpty then (t.sample temps).advance
    else t
  rw [if_pos (by rw [show (fresh s).pwr.held = [.trip] from hheld]; decide),
    if_pos (List.all_eq_true.2 fun i hi => decide_eq_true (hcool i (List.mem_range.1 hi)))] at same
  obtain ⟨hnone, hload⟩ := unhold_starts (s := fresh s) x hheld
  exact ⟨t, ht, by rw [same.pwr, hnone], by rw [same.cfg, hload]; rfl⟩

/-! ### CAL_FORCE and CAL_PERIODIC -/

/-- A region that is pending stays so when another becomes pending. -/
theorem calPend_keeps (s : State) (x : Nat) {i : Nat} (hi : i < 16) (h : s.bitF F.CAL_STATUS_PEND 0 i = true) :
    (s.calPend x).bitF F.CAL_STATUS_PEND 0 i = true := by
  unfold State.calPend
  split
  · exact h
  · show (s.putF F.CAL_STATUS_PEND 0 x true).bitF F.CAL_STATUS_PEND 0 i = true
    rw [bitF_putF _ _ _ _ _ _ hi]
    split
    · rfl
    · exact h

theorem calPend_pends (s : State) {i : Nat} (hi : i < 16) (hen : s.isSet F.CAL_CTL_EN 0 = true) (htrim : trimmed i = true) :
    (s.calPend i).bitF F.CAL_STATUS_PEND 0 i = true := by
  unfold State.calPend
  rw [hen, htrim]
  split
  case isTrue h => simpa using h
  case isFalse => exact bitF_putF_same _ _ _ _ _ hi

theorem pend_forEach {l : List Nat} {i : Nat} (hmem : i ∈ l) (hi : i < 16) (htrim : trimmed i = true) (s : State)
    (hen : s.isSet F.CAL_CTL_EN 0 = true) : (s.forEach l fun t i => t.calPend i).bitF F.CAL_STATUS_PEND 0 i = true := by
  induction l generalizing s with
  | nil => exact absurd hmem List.not_mem_nil
  | cons x l ih =>
    show ((s.calPend x).forEach l fun t i => t.calPend i).bitF F.CAL_STATUS_PEND 0 i = true
    rcases List.mem_cons.1 hmem with rfl | hrest
    · exact forEach_keeps (P := fun t => t.bitF F.CAL_STATUS_PEND 0 i = true) (fun t x _ ht => calPend_keeps t x hi ht)
        (calPend_pends s hi hen htrim)
    · exact ih hrest _ (((calPend_frame ..).isSet (by decide) (by decide +kernel)).trans hen)

section
variable {s : State} {i : Nat} (hi : i < 16) (hen : s.isSet F.CAL_CTL_EN 0 = true) (htrim : trimmed i = true)
include hi hen htrim

theorem calForce_next (hserved : s.pf1Served = true) :
    ∃ t, exec .calForce s = .next t ∧ t.bitF F.CAL_STATUS_PEND 0 i = true := by
  obtain ⟨t, ht, same⟩ := doneW_next hserved fun t => t.calPendAll
  refine ⟨t, ht, (same.bitF ..).trans (pend_forEach (List.mem_range.2 hi) hi htrim _ ?_)⟩
  exact (isSet_flushAsm _ (by decide) (by decide +kernel)).trans hen

theorem calPeriodic_next (hheld : s.pwr.held = []) (hinvalid : s.isSet F.CAL_TEMP_VALID i = false) :
    ∃ t, exec .calPeriodic s = .next t ∧ t.bitF F.CAL_STATUS_PEND 0 i = true := by
  obtain ⟨t, ht, same⟩ := done_next hheld fun t =>
    t.forEach ((List.range 16).filter fun i => !t.isSet F.CAL_TEMP_VALID i) fun u i => u.calPend i
  refine ⟨t, ht, (same.bitF ..).trans (pend_forEach (List.mem_filter.2 ⟨List.mem_range.2 hi, ?_⟩) hi htrim _ hen)⟩
  rw [show (fresh s).isSet F.CAL_TEMP_VALID i = false from hinvalid]
  rfl

end

/-! ### CAL_UNIT -/

section
variable {s : State} (hheld : s.pwr.held = []) (i : Fin 16) (u : Fin 41) (x : CalIn) {n : Nat}
  (hunit : (s.region i).left.find? (fun p => p.1 = u.val) = some (u.val, n)) (hpend : s.bitF F.CAL_STATUS_PEND 0 i = true)
  (hmay : s.calMay i u = true)

/-- The unit's lane is marked as tried, and its region's run may end. -/
def calEnds (s : State) (i u : Nat) : State :=
  let l := 32 * i + u
  let t : State := if isUpLane i u then { s with lanes := vset s.lanes l { vget s.lanes {} l with tried := true } } else s
  if (t.region i).left.isEmpty then t.calRunDone i else t

theorem cal_calEnds (s : State) (i u : Nat) : (calEnds s i u).cal = s.cal := by
  unfold calEnds
  extract_lets l lane t
  have ht : t.cal = s.cal := by
    show (if isUpLane i u then { s with lanes := vset s.lanes l { vget s.lanes {} l with tried := true } } else s : State).cal = _
    split <;> rfl
  split
  · exact (unmasked (calRunDone_frame ..).cal (by decide +kernel)).trans ht
  · exact ht

theorem getF_calEnds (s : State) (i u : Nat) {f : Field} (j : Nat) (hid : f.id < 20000) (hmask : W.calRunDone.testBit f.id = false) :
    (calEnds s i u).getF f j = s.getF f j := by
  unfold calEnds
  extract_lets l lane t
  have ht : t.getF f j = s.getF f j := by
    show (if isUpLane i u then { s with lanes := vset s.lanes l { vget s.lanes {} l with tried := true } } else s : State).getF f j = _
    split <;> rfl
  rw [getF_ite, (calRunDone_frame ..).getF hid hmask, ite_self, ht]

theorem trim_of_cal {a b : State} (h : a.cal = b.cal) (i u : Nat) : a.trim i u = b.trim i u := by
  unfold State.trim
  rw [h]

include hheld hunit hpend hmay

theorem calUnit_goes : ∃ t, exec (.calUnit i u x) s = .next t ∧
    Same (calEnds (if s.plausible i u (s.trim i u) x then (fresh s).calAccept i u x else (fresh s).calRejected i u n) i u) t := by
  obtain ⟨t, ht, same⟩ := done_next hheld fun t => t.calUnit i u x
  have heq : (fresh s).calUnit i u x =
      calEnds (if s.plausible i u (s.trim i u) x then (fresh s).calAccept i u x else (fresh s).calRejected i u n) i u := by
    unfold State.calUnit
    rw [show ((fresh s).region i).left.find? (fun p => p.1 = u.val) = some (u.val, n) from hunit]
    refine if_neg ?_
    rw [show (fresh s).bitF F.CAL_STATUS_PEND 0 i = true from hpend, show (fresh s).calMay i u = true from hmay]
    decide
  rw [heq] at same
  exact ⟨t, ht, same⟩

theorem calUnit_accepted (hok : s.plausible i u (s.trim i u) x = true) :
    ∃ t, exec (.calUnit i u x) s = .next t ∧ t.trim i u = newTrim i u (s.trim i u) x := by
  obtain ⟨t, ht, same⟩ := calUnit_goes hheld i u x hunit hpend hmay
  have htrims : ((fresh s).calAccept i u x).cal.trims = vset s.cal.trims (41 * i + u) (newTrim i u (s.trim i u) x) := by
    unfold State.calAccept
    dsimp only
    split <;> rfl
  rw [if_pos hok] at same
  refine ⟨t, ht, ?_⟩
  rw [trim_of_cal same.cal, trim_of_cal (cal_calEnds ..), State.trim, htrims, vget_vset_same _ _ _ (by omega)]

theorem calUnit_rejected (hbad : s.plausible i u (s.trim i u) x = false) : ∃ t, exec (.calUnit i u x) s = .next t ∧
    t.isSet F.CAL_EVT_CAL_REJECT 0 = true ∧ t.trim i u = s.trim i u ∧
    t.getF F.CAL_RUN_REJECTS i = min (s.getF F.CAL_RUN_REJECTS i + 1) (2 ^ F.CAL_RUN_REJECTS.width - 1) := by
  obtain ⟨t, ht, same⟩ := calUnit_goes hheld i u x hunit hpend hmay
  rw [if_neg (by rw [hbad]; decide)] at same
  refine ⟨t, ht, ?_, by rw [trim_of_cal same.cal, trim_of_cal (cal_calEnds ..)]; rfl, ?_⟩
  · rw [State.isSet, same.getF, getF_calEnds _ _ _ _ (by decide) (by decide +kernel), ← State.isSet]
    exact isSet_raise_same _ _ E.CAL_CAL_REJECT rfl (by decide) (by decide)
  · rw [same.getF, getF_calEnds _ _ _ _ (by decide) (by decide +kernel), State.calRejected, getF_raise_other _ _ (by decide) (by decide),
      getF_count]
    rfl

end

/-- Settles O47: one lemma per row, above. -/
theorem calibrationRows : Obligations.CalibrationRows := fun _ =>
  ⟨fun _ x hheld hreadings => ⟨sensorSample_shows hheld x hreadings, fun _ => sensorSample_trips hheld x hreadings⟩,
    sensorSample_tripEnds,
    fun _ hi hen htrim => ⟨calForce_next hi hen htrim, calPeriodic_next hi hen htrim⟩,
    fun i u x _ hheld hunit hpend hmay =>
      ⟨calUnit_accepted hheld i u x hunit hpend hmay, calUnit_rejected hheld i u x hunit hpend hmay⟩⟩

end Sys2Proof.Proofs
end

section
/-!
PROOFS. The event triplets (R21, R457 to R460): writing the bits of an event register, its mask and its force, assembled at the end.
-/
set_option Elab.async false

namespace Sys2Proof.Proofs

open Sys2Proof.Machine Sys2Proof.Laws

/-! ### The triplets of the map -/

/-- A triplet has each of its event bits once, apart from its mask and its marks. -/
def EvtReg.wellFormed (e : EvtReg) : Bool :=
  decide (e.bits.map fun f => f.id).Nodup &&
    e.bits.all fun f => decide (1 ≤ f.width ∧ e.forced.id ≠ f.id ∧ e.mask.id ≠ f.id)

theorem wellFormed_allEvtRegs : allEvtRegs.all EvtReg.wellFormed = true := by decide +kernel

section
variable {e : EvtReg} (he : e ∈ allEvtRegs)
include he

theorem nodup_bits : (e.bits.zipIdx.map fun p => p.1.id).Nodup := by
  have hwf := List.all_eq_true.1 wellFormed_allEvtRegs e he
  rw [EvtReg.wellFormed, Bool.and_eq_true] at hwf
  have hmap : (e.bits.zipIdx.map fun p => p.1.id) = e.bits.map fun f => f.id := by
    rw [← Function.comp_def (fun f : Field => f.id) Prod.fst, ← List.map_map, List.zipIdx_map_fst]
  rw [hmap]
  exact of_decide_eq_true hwf.1

theorem bit_of_triplet {f : Field} (hf : f ∈ e.bits) : 1 ≤ f.width ∧ e.forced.id ≠ f.id ∧ e.mask.id ≠ f.id := by
  have hwf := List.all_eq_true.1 wellFormed_allEvtRegs e he
  rw [EvtReg.wellFormed, Bool.and_eq_true] at hwf
  exact of_decide_eq_true (List.all_eq_true.1 hwf.2 f hf)

end

/-! ### Writing some of the bits -/

/-- The bits of a list take a value, with their marks. -/
def writeBits (s : State) (e : EvtReg) (i : Nat) (b mark : Bool) (l : List (Field × Nat)) : State :=
  s.forEach l fun t p => (t.setB p.1 i b).putF e.forced i p.2 mark

theorem isSet_writeBits (e : EvtReg) (i : Nat) (b mark : Bool) {l : List (Field × Nat)} (hl : (l.map fun p => p.1.id).Nodup)
    (hbits : ∀ p ∈ l, 1 ≤ p.1.width ∧ e.forced.id ≠ p.1.id) (s : State) :
    (∀ p ∈ l, (writeBits s e i b mark l).isSet p.1 i = b) ∧
      ∀ g : Field, e.forced.id ≠ g.id → g.id ∉ l.map (fun p => p.1.id) → (writeBits s e i b mark l).isSet g i = s.isSet g i := by
  induction l generalizing s with
  | nil => exact ⟨fun p hp => absurd hp List.not_mem_nil, fun _ _ _ => rfl⟩
  | cons x l ih =>
    obtain ⟨hx, hnodup⟩ := List.nodup_cons.1 hl
    obtain ⟨hwidth, hforced⟩ := hbits x List.mem_cons_self
    obtain ⟨hsame, hother⟩ :=
      ih hnodup (fun p hp => hbits p (List.mem_cons_of_mem _ hp)) ((s.setB x.1 i b).putF e.forced i x.2 mark)
    refine ⟨fun p hp => ?_, fun g hforcedg hg => ?_⟩
    · rcases List.mem_cons.1 hp with rfl | hp
      · refine (hother p.1 hforced hx).trans ?_
        rw [isSet_putF_other _ _ _ hforced, isSet_setB_same _ _ _ _ hwidth]
      · exact hsame p hp
    · rw [List.map_cons, List.mem_cons, not_or] at hg
      refine (hother g hforcedg hg.2).trans ?_
      rw [isSet_putF_other _ _ _ hforcedg, isSet_setB_other _ _ (Ne.symm hg.1)]

/-- Of a triplet's bits those that are chosen take the value. -/
theorem isSet_writeBits_filter {e : EvtReg} (he : e ∈ allEvtRegs) (i : Nat) (b mark : Bool) (c : Field × Nat → Bool) (s : State)
    {p : Field × Nat} (hp : p ∈ e.bits.zipIdx) :
    (writeBits s e i b mark (e.bits.zipIdx.filter c)).isSet p.1 i = if c p then b else s.isSet p.1 i := by
  have hbit : ∀ q ∈ e.bits.zipIdx, 1 ≤ q.1.width ∧ e.forced.id ≠ q.1.id := fun q hq => by
    obtain ⟨hwidth, hforced, -⟩ := bit_of_triplet he (List.fst_mem_of_mem_zipIdx hq)
    exact ⟨hwidth, hforced⟩
  have hnodup := nodup_bits he
  obtain ⟨hsame, hother⟩ := isSet_writeBits e i b mark (hnodup.sublist (List.filter_sublist.map _))
    (fun q hq => hbit q (List.mem_filter.1 hq).1) s
  split
  case isTrue hc => exact hsame p (List.mem_filter.2 ⟨hp, hc⟩)
  case isFalse hc =>
    refine hother p.1 (hbit p hp).2 fun hin => hc ?_
    obtain ⟨q, hq, hqp⟩ := List.mem_map.1 hin
    obtain ⟨hqmem, hqc⟩ := List.mem_filter.1 hq
    rwa [← List.inj_on_of_nodup_map hnodup hqmem hp hqp]

/-- Signalling a group again reaches no register. -/
theorem resignal_same (s before : State) (e : EvtReg) (i : Nat) : Same s (s.resignal before e i) := by
  unfold State.resignal
  dsimp only
  generalize List.filter _ _ = l
  exact forEach_keeps (P := Same s) (fun t v _ ht => ht.trans (signal_same t v)) (Same.refl s)

/-! ### The rows -/

section
variable {s : State} (hserved : s.pf1Served = true) (a : BitVec 27) (w : BitVec 32) {e : EvtReg} {i : Nat}
include hserved

theorem evtClear_next (hat : evtAt a.toNat = some (e, .bits, i)) : ∃ t, exec (.evtClear a w) s = .next t ∧
    ∀ p ∈ e.bits.zipIdx, t.isSet p.1 i = (({ s with out := [] } : State).flushAsm.isSet p.1 i && !w.toNat.testBit p.2) := by
  obtain ⟨t, ht, same⟩ := doneW_next hserved fun t => t.evtWriteAt .bits a.toNat w.toNat
  rw [State.evtWriteAt, hat] at same
  refine ⟨t, ht, fun p hp => ?_⟩
  have hwritten := isSet_writeBits_filter (evtAt_mem hat) i false false (fun p => w.toNat.testBit p.2) (fresh s).flushAsm hp
  refine (same.isSet ..).trans (((resignal_same _ _ e i).isSet ..).trans (hwritten.trans ?_))
  show _ = ((fresh s).flushAsm.isSet p.1 i && !w.toNat.testBit p.2)
  cases w.toNat.testBit p.2 <;> simp

theorem evtMaskWrite_next (hat : evtAt a.toNat = some (e, .mask, i)) : ∃ t, exec (.evtMaskWrite a w) s = .next t ∧
    t.getF e.mask i = w.toNat % 2 ^ e.mask.width ∧ ∀ f ∈ e.bits, t.isSet f i = ({ s with out := [] } : State).flushAsm.isSet f i := by
  obtain ⟨t, ht, same⟩ := doneW_next hserved fun t => t.evtWriteAt .mask a.toNat w.toNat
  rw [State.evtWriteAt, hat] at same
  refine ⟨t, ht, ?_, fun f hf => ?_⟩
  · exact (same.getF ..).trans (((resignal_same _ _ e i).getF ..).trans (getF_setF ..))
  · obtain ⟨-, -, hmask⟩ := bit_of_triplet (evtAt_mem hat) hf
    exact (same.isSet ..).trans (((resignal_same _ _ e i).isSet ..).trans (isSet_setF_other _ _ hmask))

theorem evtForceWrite_next (hat : evtAt a.toNat = some (e, .force, i)) : ∃ t, exec (.evtForceWrite a w) s = .next t ∧
    ∀ p ∈ e.bits.zipIdx, t.isSet p.1 i = (({ s with out := [] } : State).flushAsm.isSet p.1 i || w.toNat.testBit p.2) := by
  obtain ⟨t, ht, same⟩ := doneW_next hserved fun t => t.evtWriteAt .force a.toNat w.toNat
  rw [State.evtWriteAt, hat] at same
  refine ⟨t, ht, fun p hp => ?_⟩
  have hwritten := isSet_writeBits_filter (evtAt_mem hat) i true true
    (fun p => w.toNat.testBit p.2 && !(fresh s).flushAsm.isSet p.1 i) (fresh s).flushAsm hp
  refine (same.isSet ..).trans (hwritten.trans ?_)
  show _ = ((fresh s).flushAsm.isSet p.1 i || w.toNat.testBit p.2)
  cases w.toNat.testBit p.2 <;> cases (fresh s).flushAsm.isSet p.1 i <;> rfl

end

/-- Settles O48: one lemma per row, above. -/
theorem eventRegisterRows : Obligations.EventRegisterRows := fun _ a w _ _ hserved =>
  ⟨evtClear_next hserved a w, evtMaskWrite_next hserved a w, evtForceWrite_next hserved a w⟩

end Sys2Proof.Proofs
end

section
/-!
PROOFS. The register spaces (R279, R450 to R452): any read, a read or write that is not aligned or not served, and a write of a
register that has no row of its own, assembled at the end.
-/
set_option Elab.async false

namespace Sys2Proof.Proofs

open Sys2Proof.Machine Sys2Proof.Laws

/-! ### Reads -/

/-- A register has each field once, and a read of it clears no half that another read latches. -/
def readable (r : RegDef) : Bool :=
  decide (r.fields.map fun f => f.fld.id).Nodup && r.fields.all fun f =>
    decide (f.acc = .rc → f.fld.id ≠ F.TCK_COUNT_HI_COUNT_HI.id ∧ f.fld.id ≠ F.TRL_TIME_HI_TIME_HI.id)

theorem readable_of_located {a i : Nat} {r : RegDef} (h : locateIn allRegs a = some (r, i)) : readable r = true :=
  List.all_eq_true.1 (by decide +kernel : allRegs.all readable = true) r (locateIn_mem h)

/-- A read clears the RC fields of its register (R451). -/
theorem getF_readEffect {r : RegDef} (hr : readable r = true) (s : State) (i : Nat) {f : FieldAt} (hf : f ∈ r.fields) (hrc : f.acc = .rc) :
    (s.readEffect r i).getF f.fld i = 0 := by
  rw [readable, Bool.and_eq_true] at hr
  obtain ⟨hcount, htime⟩ := of_decide_eq_true (List.all_eq_true.1 hr.2 f hf) hrc
  have hcleared : (r.fields.foldl (fun t f => if f.acc = .rc then t.setF f.fld i 0 else t) s).getF f.fld i = 0 := by
    have hfilter : r.fields.foldl (fun t f => if f.acc = .rc then t.setF f.fld i 0 else t) s =
        (r.fields.filter fun f => decide (f.acc = .rc)).foldl (fun t f => t.setF f.fld i 0) s := by
      rw [List.foldl_filter]
      simp only [decide_eq_true_eq]
    rw [hfilter]
    exact ((getF_storeFields ((of_decide_eq_true hr.1).sublist (List.filter_sublist.map _)) (fun _ => 0) i s).1 f
      (List.mem_filter.2 ⟨hf, decide_eq_true hrc⟩)).trans (Nat.zero_mod _)
  unfold State.readEffect
  extract_lets s1 sensors cal
  split
  · exact (getF_setF_other _ _ (Ne.symm hcount)).trans hcleared
  · split
    · exact (getF_setF_other _ _ (Ne.symm htime)).trans hcleared
    · split <;> exact hcleared

section
variable {s : State}

theorem wordOf_fresh (r : RegDef) (i : Nat) : (fresh s).wordOf r i = s.wordOf r i := rfl

theorem rcRead_next (a : BitVec 32) (r : RegDef) (i : Nat) (hserved : s.pf1Served = true) (halign : a.toNat % 4 = 0)
    (hlow : tableEntry a.toNat = none) (hhigh : tableEntry (a.toNat - 4) = none) (hreg : locateIn allRegs a.toNat = some (r, i)) :
    ∃ t, exec (.rcRead .pf1 a) s = .next t ∧ .regData (s.wordOf r i) ∈ t.out ∧ ∀ f ∈ r.fields, f.acc = .rc → t.getF f.fld i = 0 := by
  obtain ⟨t, ht, same⟩ := done_next (held_of_served hserved) fun t => t.busRead .pf1 a.toNat
  have heq : (fresh s).busRead .pf1 a.toNat = (fresh s).readReg r i := by
    unfold State.busRead
    rw [if_neg (by rw [show (fresh s).served RegSpace.pf1.fn = true from hserved]; decide), if_neg (not_not.2 halign)]
    show (fresh s).readPf1 a.toNat = _
    unfold State.readPf1
    rw [if_neg (by rw [hlow]; decide), hhigh, ite_self, hreg]
  rw [heq, State.readReg, wordOf_fresh] at same
  refine ⟨t, ht, same.emitted (List.mem_append_right _ List.mem_cons_self), fun f hf hrc => ?_⟩
  rw [same.getF, getF_emit, getF_readEffect (readable_of_located hreg) _ _ hf hrc]

theorem rcRead_unaligned (sp : RegSpace) (a : BitVec 32) (hserved : s.served sp.fn = true) (hodd : a.toNat % 4 ≠ 0) :
    ∃ t, exec (.rcRead sp a) s = .next t ∧ .cplUr ∈ t.out ∧ t.isSet F.HIF_EVT_CFG_REJECT 0 = true := by
  obtain ⟨t, ht, same⟩ := done_next (held_of_served hserved) fun t => t.busRead sp a.toNat
  have heq : (fresh s).busRead sp a.toNat = ((fresh s).raise E.HIF_CFG_REJECT 0).emit .cplUr := by
    unfold State.busRead
    rw [if_neg (by rw [show (fresh s).served sp.fn = true from hserved]; decide)]
    exact if_pos hodd
  rw [heq] at same
  refine ⟨t, ht, same.emitted (List.mem_append_right _ List.mem_cons_self), ?_⟩
  rw [same.isSet]
  exact isSet_raise_same _ _ E.HIF_CFG_REJECT rfl (by decide) (by decide)

theorem rcRead_unserved (sp : RegSpace) (a : BitVec 32) (hheld : s.pwr.held = []) (hserved : s.served sp.fn = false)
    (hup : s.isSet F.HIF_LINK_DL_ACTIVE 0 = true) : ∃ t, exec (.rcRead sp a) s = .next t ∧ .cplUr ∈ t.out := by
  obtain ⟨t, ht, same⟩ := done_next hheld fun t => t.busRead sp a.toNat
  have heq : (fresh s).busRead sp a.toNat = (fresh s).emit .cplUr := by
    unfold State.busRead
    rw [if_pos (by rw [show (fresh s).served sp.fn = false from hserved]; decide)]
    exact if_pos hup
  rw [heq] at same
  exact ⟨t, ht, same.emitted (List.mem_append_right _ List.mem_cons_self)⟩

/-! ### Writes -/

theorem registerWrite_unaligned (sp : RegSpace) (a w : BitVec 32) (x : CacheErr) (drvHigh : Bool) (hserved : s.served sp.fn = true)
    (hodd : a.toNat % 4 ≠ 0) : ∃ t, exec (.registerWrite sp a w x drvHigh) s = .next t ∧ t.isSet F.HIF_EVT_CFG_REJECT 0 = true := by
  obtain ⟨t, ht, same⟩ := doneQ_next (held_of_served hserved) fun t => t.busWrite sp a.toNat w.toNat x drvHigh
  have hne : ∀ b, b % 4 = 0 → (a.toNat == b) = false := fun b hb => beq_eq_false_iff_ne.2 fun h => hodd (h ▸ hb)
  have hfault : s.writeFaults sp a.toNat w.toNat = false := by
    unfold State.writeFaults
    rw [hne _ (by decide), hne _ (by decide)]
    simp only [Bool.false_and, Bool.or_false, Bool.and_false]
  have hexec : exec (.registerWrite sp a w x drvHigh) s = doneQ s fun t => t.busWrite sp a.toNat w.toNat x drvHigh :=
    if_neg (by rw [hfault]; decide)
  have heq : (fresh s).busWrite sp a.toNat w.toNat x drvHigh = (fresh s).raise E.HIF_CFG_REJECT 0 := by
    unfold State.busWrite
    rw [if_neg (by rw [show (fresh s).served sp.fn = true from hserved]; decide)]
    exact if_pos hodd
  rw [heq] at same
  refine ⟨t, hexec.trans ht, ?_⟩
  rw [same.isSet, isSet_advance _ (by decide) (by decide +kernel)]
  exact isSet_raise_same _ _ E.HIF_CFG_REJECT rfl (by decide) (by decide)

/-- The address of a register of PF1 whose write has no row of its own. -/
structure PlainAddress (a : Nat) (r : RegDef) : Prop where
  aligned : a % 4 = 0
  noTest : a ≠ R.MEM_TEST_CTL.base
  noLca : a ≠ R.LCA_OP.base
  noTable : tableEntry a = none ∧ tableEntry (a - 4) = none
  located : locateIn allRegs a = some (r, 0)
  mayWrite : pf1Writes r = true
  noTriplet : r.evt? = none
  noHead : ∀ (s : State) (w : Nat) (d : Bool), s.writeHead? r.base 0 w d = none
  noUnit : ∀ (s : State) (w : Nat) (x : CacheErr), s.writeUnit? r.base 0 w x = none

theorem registerWrite_plain {a : BitVec 32} {r : RegDef} (ha : PlainAddress a.toNat r) (w : BitVec 32) (x : CacheErr) (drvHigh : Bool)
    (hserved : s.pf1Served = true) : ∃ t, exec (.registerWrite .pf1 a w x drvHigh) s = .next t ∧
      Same ((fresh s).flushAsm.plainWrite r 0 w.toNat).advance t := by
  obtain ⟨t, ht, same⟩ := doneQ_next (held_of_served hserved) fun t => t.busWrite .pf1 a.toNat w.toNat x drvHigh
  obtain ⟨haligned, htest, hlca, ⟨htable, hbelow⟩, hlocated, hmay, htriplet, hhead, hunit⟩ := ha
  have hfault : s.writeFaults .pf1 a.toNat w.toNat = false := by
    unfold State.writeFaults
    rw [beq_eq_false_iff_ne.2 htest, beq_eq_false_iff_ne.2 hlca]
    simp only [Bool.false_and, Bool.or_false, Bool.and_false]
  have hexec : exec (.registerWrite .pf1 a w x drvHigh) s = doneQ s fun t => t.busWrite .pf1 a.toNat w.toNat x drvHigh :=
    if_neg (by rw [hfault]; decide)
  have heq : (fresh s).busWrite .pf1 a.toNat w.toNat x drvHigh = (fresh s).flushAsm.plainWrite r 0 w.toNat := by
    unfold State.busWrite
    rw [if_neg (by rw [show (fresh s).served RegSpace.pf1.fn = true from hserved]; decide), if_neg (not_not.2 haligned)]
    show (fresh s).writePf1 a.toNat w.toNat x drvHigh = _
    unfold State.writePf1
    rw [if_neg (by rw [hbelow, Option.isSome_none, Bool.and_false]; decide), if_neg (by rw [htable]; decide), hlocated]
    dsimp only
    rw [if_pos hmay, State.writeReg, htriplet, hhead, hunit]
  rw [heq] at same
  exact ⟨t, hexec.trans ht, same⟩

theorem plain_linger : PlainAddress 0xD00008 R.WRP_LINGER where
  aligned := by decide
  noTest := by decide
  noLca := by decide
  noTable := by decide +kernel
  located := by decide +kernel
  mayWrite := by decide +kernel
  noTriplet := by decide +kernel
  noHead _ _ _ := rfl
  noUnit _ _ _ := rfl

theorem plain_marks : PlainAddress 0xC40024 R.PRC_MARKS where
  aligned := by decide
  noTest := by decide
  noLca := by decide
  noTable := by decide +kernel
  located := by decide +kernel
  mayWrite := by decide +kernel
  noTriplet := by decide +kernel
  noHead _ _ _ := rfl
  noUnit _ _ _ := rfl

/-! ### WRP_LINGER and PRC_MARKS -/

theorem writeOk_linger (s : State) (w : Nat) : s.writeOk R.WRP_LINGER 0 w = decide (1 ≤ bitsOf w 10 0 ∧ bitsOf w 10 0 ≤ 2000) := rfl

theorem writeOk_marks (s : State) (w : Nat) : s.writeOk R.PRC_MARKS 0 w = decide (bitsOf w 7 0 < bitsOf w 15 8) := rfl

section
variable (w : Nat)

theorem linger_bits : bitsOf w 10 0 = w % 2 ^ 11 := by
  show w / 2 ^ 0 % 2 ^ 11 = _
  omega

theorem markLow_bits : bitsOf w 7 0 = w % 2 ^ 8 := by
  show w / 2 ^ 0 % 2 ^ 8 = _
  omega

theorem markHigh_bits : bitsOf w 15 8 = w / 2 ^ 8 % 2 ^ 8 := rfl

end

section
variable (hserved : s.pf1Served = true) (w : BitVec 32) (x : CacheErr) (drvHigh : Bool)
include hserved

theorem linger_taken (hlow : 1 ≤ w.toNat % 2 ^ 11) (hhigh : w.toNat % 2 ^ 11 ≤ 2000) :
    ∃ t, exec (.registerWrite .pf1 0xD00008 w x drvHigh) s = .next t ∧ t.getF F.WRP_LINGER_MS 0 = w.toNat % 2 ^ 11 := by
  obtain ⟨t, ht, same⟩ := registerWrite_plain (a := 0xD00008) plain_linger w x drvHigh hserved
  rw [State.plainWrite, if_pos (by rw [writeOk_linger, linger_bits]; exact decide_eq_true ⟨hlow, hhigh⟩)] at same
  refine ⟨t, ht, ?_⟩
  rw [same.getF, getF_advance _ (by decide) (by decide +kernel),
    getF_storeReg _ (by decide) _ _ (f := ⟨10, 0, .rw, F.WRP_LINGER_MS⟩) (by decide)]
  show (bitsOf w.toNat 10 0 ^^^ 0) % 2 ^ 11 = _
  rw [Nat.xor_zero, linger_bits, Nat.mod_mod]

theorem linger_rejected (hbad : w.toNat % 2 ^ 11 = 0 ∨ 2000 < w.toNat % 2 ^ 11) :
    ∃ t, exec (.registerWrite .pf1 0xD00008 w x drvHigh) s = .next t ∧ t.getF F.WRP_LINGER_MS 0 = s.getF F.WRP_LINGER_MS 0 ∧
      t.isSet F.WRP_EVT_CFG_REJECT 0 = true := by
  obtain ⟨t, ht, same⟩ := registerWrite_plain (a := 0xD00008) plain_linger w x drvHigh hserved
  rw [State.plainWrite, if_neg (by
    rw [writeOk_linger, linger_bits, decide_eq_true_eq]
    omega)] at same
  have same : Same ((fresh s).flushAsm.raise E.WRP_CFG_REJECT 0).advance t := same
  refine ⟨t, ht, ?_, ?_⟩
  · rw [same.getF, getF_advance _ (by decide) (by decide +kernel), getF_raise_other _ _ (by decide) (by decide),
      getF_flushAsm _ (by decide) (by decide +kernel)]
    rfl
  · rw [same.isSet, isSet_advance _ (by decide) (by decide +kernel)]
    exact isSet_raise_same _ _ E.WRP_CFG_REJECT rfl (by decide) (by decide)

theorem marks_taken (hok : w.toNat % 2 ^ 8 < w.toNat / 2 ^ 8 % 2 ^ 8) :
    ∃ t, exec (.registerWrite .pf1 0xC40024 w x drvHigh) s = .next t ∧ t.getF F.PRC_MARKS_HIGH 0 = w.toNat / 2 ^ 8 % 2 ^ 8 ∧
      t.getF F.PRC_MARKS_LOW 0 = w.toNat % 2 ^ 8 := by
  obtain ⟨t, ht, same⟩ := registerWrite_plain (a := 0xC40024) plain_marks w x drvHigh hserved
  rw [State.plainWrite, if_pos (by rw [writeOk_marks, markLow_bits, markHigh_bits]; exact decide_eq_true hok)] at same
  refine ⟨t, ht, ?_, ?_⟩
  · rw [same.getF, getF_advance _ (by decide) (by decide +kernel),
      getF_storeReg _ (by decide) _ _ (f := ⟨15, 8, .rw, F.PRC_MARKS_HIGH⟩) (by decide)]
    show (bitsOf w.toNat 15 8 ^^^ 0) % 2 ^ 8 = _
    rw [Nat.xor_zero, markHigh_bits, Nat.mod_mod]
  · rw [same.getF, getF_advance _ (by decide) (by decide +kernel),
      getF_storeReg _ (by decide) _ _ (f := ⟨7, 0, .rw, F.PRC_MARKS_LOW⟩) (by decide)]
    show (bitsOf w.toNat 7 0 ^^^ 0) % 2 ^ 8 = _
    rw [Nat.xor_zero, markLow_bits, Nat.mod_mod]

theorem marks_rejected (hbad : w.toNat / 2 ^ 8 % 2 ^ 8 ≤ w.toNat % 2 ^ 8) :
    ∃ t, exec (.registerWrite .pf1 0xC40024 w x drvHigh) s = .next t ∧ t.getF F.PRC_MARKS_HIGH 0 = s.getF F.PRC_MARKS_HIGH 0 ∧
      t.isSet F.PRC_EVT_CFG_REJECT 0 = true := by
  obtain ⟨t, ht, same⟩ := registerWrite_plain (a := 0xC40024) plain_marks w x drvHigh hserved
  rw [State.plainWrite, if_neg (by
    rw [writeOk_marks, markLow_bits, markHigh_bits, decide_eq_true_eq]
    exact Nat.not_lt.2 hbad)] at same
  have same : Same ((fresh s).flushAsm.raise E.PRC_CFG_REJECT 0).advance t := same
  refine ⟨t, ht, ?_, ?_⟩
  · rw [same.getF, getF_advance _ (by decide) (by decide +kernel), getF_raise_other _ _ (by decide) (by decide),
      getF_flushAsm _ (by decide) (by decide +kernel)]
    rfl
  · rw [same.isSet, isSet_advance _ (by decide) (by decide +kernel)]
    exact isSet_raise_same _ _ E.PRC_CFG_REJECT rfl (by decide) (by decide)

end

end

/-- Settles O49: one lemma per clause, above. -/
theorem registerSpaceRows : Obligations.RegisterSpaceRows := fun _ =>
  ⟨rcRead_next, rcRead_unaligned, rcRead_unserved,
    fun w x drvHigh hserved => ⟨linger_taken hserved w x drvHigh, linger_rejected hserved w x drvHigh, marks_taken hserved w x drvHigh,
      marks_rejected hserved w x drvHigh⟩,
    registerWrite_unaligned⟩

end Sys2Proof.Proofs
end

section
/-!
PROOFS. The command engine with one command that runs (R307, R313 to R317): how it goes on, and what sealing a lode leaves of a volume.
-/
set_option Elab.async false

namespace Sys2Proof.Laws

open Sys2Proof.Machine Sys2Proof.Proofs

/-! ### Volumes and seams -/

section
variable (s : State)

theorem vget_vset {α : Type} {n : Nat} (a : Vector α n) (i : Nat) (x d : α) (j : Nat) :
    vget (vset a i x) d j = if i = j ∧ i < n then x else vget a d j := by
  by_cases hij : i = j
  · subst hij
    by_cases hi : i < n
    · rw [vget_vset_same _ _ _ hi, if_pos ⟨rfl, hi⟩]
    · rw [if_neg fun h => hi h.2, vget, vset, Vector.setIfInBounds_eq_of_size_le (Nat.le_of_not_lt hi), vget]
  · rw [vget_vset_other _ _ _ hij, if_neg fun h => hij h.1]

/-- What a volume keeps when only its seams, its serial or its count of written seams change. -/
structure SameShell (a b : State) : Prop where
  mount : ∀ v, (b.vol v).mount = (a.vol v).mount
  release : ∀ v, (b.vol v).release = (a.vol v).release

theorem SameShell.refl (a : State) : SameShell a a := ⟨fun _ => rfl, fun _ => rfl⟩

theorem SameShell.trans {a b c : State} (h : SameShell a b) (k : SameShell b c) : SameShell a c :=
  ⟨fun v => (k.mount v).trans (h.mount v), fun v => (k.release v).trans (h.release v)⟩

theorem SameShell.of_vols {a b : State} (h : b.vols = a.vols) : SameShell a b :=
  ⟨fun v => by rw [vol_of_vols _ h], fun v => by rw [vol_of_vols _ h]⟩

theorem SameShell.mountsWait {a b : State} (h : SameShell a b) (hwait : a.MountsWait) : b.MountsWait := fun v hv m hm =>
  hwait v hv m ((h.mount v).symm.trans hm)

theorem shell_setVol (v : Nat) (x : VolS) (hmount : x.mount = (s.vol v).mount) (hrelease : x.release = (s.vol v).release) :
    SameShell s (s.setVol v x) := by
  constructor <;> intro w <;> rw [State.vol, State.setVol, vget_vset] <;> split
  case mount.isTrue h => rw [hmount, h.1]
  case release.isTrue h => rw [hrelease, h.1]
  all_goals rfl

theorem shell_updSeam (v n : Nat) (f : SeamS → SeamS) : SameShell s (s.updSeam v n f) := shell_setVol s v _ rfl rfl

theorem vols_onlyIf_raise (c : Bool) (e : Event) : (s.onlyIf c fun t => t.raise e 0).vols = s.vols := by
  cases c <;> rfl

theorem shell_formSerial (v : Nat) : SameShell s (s.formSerial v) := by
  unfold State.formSerial
  dsimp only
  split
  · exact shell_setVol s v _ rfl rfl
  · exact SameShell.refl s

theorem shell_sealLode (v n : Nat) : SameShell s (s.sealLode v n) := by
  unfold State.sealLode
  split
  · exact SameShell.refl s
  · split
    · exact SameShell.refl s
    · exact ((shell_formSerial s v).trans (shell_updSeam _ v n _)).trans (SameShell.of_vols (vols_onlyIf_raise ..))

theorem shell_putBlock (v n : Nat) (f : DriftFill) : SameShell s (s.putBlock v n f) := by
  unfold State.putBlock
  extract_lets o o2 s1
  split
  · exact (shell_updSeam ..).trans (shell_sealLode ..)
  · exact shell_updSeam ..

theorem shell_forEach {α : Type} {l : List α} {f : State → α → State} (h : ∀ t x, SameShell t (f t x)) : SameShell s (s.forEach l f) :=
  forEach_keeps (P := SameShell s) (fun t x _ ht => ht.trans (h t x)) (SameShell.refl s)

/-! ### The seams when a lode is sealed -/

theorem seam_updSeam (v n w m : Nat) (f : SeamS → SeamS) :
    (s.updSeam v n f).seam w m = if v = w ∧ n = m ∧ v < 8 ∧ n < 64 then f (s.seam v n) else s.seam w m := by
  rw [State.seam, State.updSeam, State.setSeam, State.vol, State.setVol, vget_vset]
  by_cases hv : v = w ∧ v < 8
  · rw [if_pos hv, vget_vset]
    obtain ⟨rfl, hv⟩ := hv
    by_cases hn : n = m ∧ n < 64
    · rw [if_pos hn, if_pos ⟨rfl, hn.1, hv, hn.2⟩]
    · rw [if_neg hn, if_neg fun h => hn ⟨h.2.1, h.2.2.2⟩]
      rfl
  · rw [if_neg hv, if_neg fun h => hv ⟨h.1, h.2.2.1⟩]
    rfl

theorem seam_formSerial (v w m : Nat) : (s.formSerial v).seam w m = s.seam w m := by
  unfold State.formSerial
  dsimp only
  split
  · rw [State.seam, State.vol, State.setVol, vget_vset]
    split
    case isTrue h => rw [← h.1]; rfl
    case isFalse => rfl
  · rfl

/-- Sealing a lode leaves every other seam as it is. -/
theorem seam_sealLode (v n w m : Nat) : (s.sealLode v n).seam w m = s.seam w m ∨
    ((s.sealLode v n).seam w m).openLode = none ∧ ((s.sealLode v n).seam w m).dirty = (s.seam w m).dirty := by
  unfold State.sealLode
  split
  · exact .inl rfl
  · split
    · exact .inl rfl
    · dsimp only
      rw [State.seam, vol_of_vols _ (vols_onlyIf_raise ..), ← State.seam, seam_updSeam, seam_formSerial]
      split
      case isTrue h =>
        obtain ⟨rfl, rfl, -⟩ := h
        exact .inr ⟨rfl, rfl⟩
      case isFalse => exact .inl (seam_formSerial ..)

theorem dirty_sealLode (v n w m : Nat) : ((s.sealLode v n).seam w m).dirty = (s.seam w m).dirty := by
  rcases seam_sealLode s v n w m with h | h
  · rw [h]
  · exact h.2

/-- The open lode of a seam, if it has one, holds no data. -/
def noOpenData (s : State) (v n : Nat) : Prop := ∀ o, (s.seam v n).openLode = some o → o.drifts = []

theorem noOpenData_sealLode_other {v n : Nat} (w m : Nat) (h : noOpenData s v n) : noOpenData (s.sealLode w m) v n := fun o ho => by
  rcases seam_sealLode s w m v n with hsame | ⟨hnone, -⟩
  · exact h o (hsame ▸ ho)
  · rw [hnone] at ho
    cases ho

theorem noOpenData_sealLode {v n : Nat} (hv : v < 8) (hn : n < 64) : noOpenData (s.sealLode v n) v n := by
  unfold State.sealLode
  split
  case h_1 hnone => exact fun o ho => by rw [hnone] at ho; cases ho
  case h_2 p hp =>
    split
    case isTrue hempty =>
      intro o ho
      rw [hp] at ho
      obtain rfl := Option.some.inj ho
      exact List.isEmpty_iff.1 hempty
    case isFalse =>
      intro o ho
      dsimp only at ho
      rw [State.seam, vol_of_vols _ (vols_onlyIf_raise ..), ← State.seam, seam_updSeam, if_pos ⟨rfl, rfl, hv, hn⟩] at ho
      cases ho

/-- A property that one turn brings about and every turn keeps holds after all of them. -/
theorem forEach_reaches {α : Type} {P : State → Prop} {f : State → α → State} {l : List α} {x : α} (hx : x ∈ l)
    (hself : ∀ t, P (f t x)) (hkeep : ∀ t y, P t → P (f t y)) : P (s.forEach l f) := by
  induction l generalizing s with
  | nil => exact absurd hx List.not_mem_nil
  | cons y l ih =>
    rcases List.mem_cons.1 hx with rfl | hrest
    · exact forEach_keeps (P := P) (s := f s x) (fun t z _ ht => hkeep t z ht) (hself s)
    · exact ih (f s y) hrest

end

/-! ### One running command goes on -/

/-- The turn of one command in `advance`. -/
def engineTurn (t : State) (pos : Nat) : State :=
  match t.cmd? pos with
  | some c => if c.stage = .running then t.advCmd c else t
  | none => t

section
variable {u : State} {d : Cmd} (hcmds : u.hqi.cmds = [d])
include hcmds

theorem behind_only (v n : Nat) (seals : Bool) : u.behind d v n seals = false := by
  unfold State.behind
  rw [hcmds, List.any_cons, List.any_nil, decide_eq_false (Nat.lt_irrefl _)]
  rfl

theorem flushAfter_only : u.flushAfter d.pos = false := by
  unfold State.flushAfter
  rw [hcmds, List.any_cons, List.any_nil, decide_eq_false (Nat.lt_irrefl _)]
  rfl

/-- The one command goes on; searches that wait and tests that are not there do nothing. -/
theorem advance_only (hrun : d.stage = .running) (hfree : u.contained = false) (htests : ∀ v < 8, ((u.advCmd d).test v).running = none)
    (hmounts : (u.advCmd d).MountsWait) : u.advance = u.advCmd d := by
  have hrunning : (u.hqi.cmds.filter fun c => c.stage == .running).map (·.pos) = [d.pos] := by
    rw [hcmds, List.filter_cons_of_pos (by rw [hrun]; rfl)]
    rfl
  have hgo : u.forEach [d.pos] engineTurn = u.advCmd d := by
    rw [State.forEach, List.foldl_cons, List.foldl_nil, engineTurn, cmd?_only hcmds]
    exact if_pos hrun
  have hadvance : u.advance = (u.forEach ((u.hqi.cmds.filter fun c => c.stage == .running).map (·.pos)) engineTurn).forEach
      (List.range 8) fun t v => (t.advMount v).advTest v := if_neg (by rw [hfree]; decide)
  rw [hadvance, hrunning, hgo]
  refine forEach_eq_self fun v hv => ?_
  have hv8 := List.mem_range.1 hv
  rw [advMount_of_waiting _ fun m hm => hmounts v hv8 m hm, advTest_of_none _ (htests v hv8)]

end

/-- A command on a seam whose heads serve goes on by its kind. -/
theorem advCmd_seam {u : State} {d : Cmd} {v n : Nat} (hflush : d.opc ≠ 0x13) (hrelease : d.opc ≠ 0x0B) (hwait : d.waiting = true)
    (hseam : d.seam? = some (v, n)) (hband : u.deadBand (homeHead v n) = none) : u.advCmd d =
      if d.opc = 0x10 then u.advRead d v n else if d.opc = 0x14 then u.advSeal d v n else u.advWrite d v n := by
  unfold State.advCmd
  rw [if_neg hflush, if_neg hrelease, hwait, hseam]
  dsimp only
  rw [hband]

section
variable {s : State} {c : Cmd} (honly : s.OnlyCommand c)
include honly

theorem contained_started : (started s c).contained = false := by
  obtain ⟨-, -, -, hmay, -, -⟩ := honly
  rw [State.mayIssue, Bool.and_eq_true, Bool.not_eq_true'] at hmay
  exact hmay.2

/-- The one command has begun, and the engine takes it further. -/
theorem beginQ_runs (hheld : s.pwr.held = []) {opc : Nat} {ok : Cmd → Bool} {f : State → Cmd → State} (hopc : c.opc = opc)
    (hok : ok c = true) {u : State} {d : Cmd} (hu : f (started s c) c = u) (hcmds : u.hqi.cmds = [d]) (hrun : d.stage = .running)
    (hfree : u.contained = (started s c).contained) (htests : (u.advCmd d).hqi.tests = s.hqi.tests) (hshell : SameShell s (u.advCmd d)) :
    ∃ t, (doneQ s fun t => t.begin opc ok f) = .next t ∧ Same (u.advCmd d) t := by
  obtain ⟨t, ht, same⟩ := beginQ_next honly hheld hopc hok (f := f)
  have hfree1 := hfree.trans (contained_started honly)
  obtain ⟨-, -, -, -, hnone, hmounts⟩ := honly
  rw [hu, advance_only hcmds hrun hfree1 (fun v hv => by rw [State.test, htests]; exact hnone v hv)
    (hshell.mountsWait hmounts)] at same
  exact ⟨t, ht, same⟩

end

end Sys2Proof.Laws
end

section
/-!
PROOFS. Host commands on a seam and on every seam (R313 to R317): READ, APPEND, WRITE AT, SEAL SEAM, FLUSH, VOLUME RELEASE.
-/
set_option Elab.async false

namespace Sys2Proof.Proofs

open Sys2Proof.Machine Sys2Proof.Laws

/-! ### A command waits on its seam -/

theorem beginPages_only {u : State} {d : Cmd} (h : u.hqi.cmds = [d]) (hn : d.npages ≤ 2) :
    ∃ ps, u.beginPages d.pos = u.setCmds [{ d with pages := ps, pagesOk := true }] := by
  unfold State.beginPages
  rw [cmd?_only h]
  dsimp only
  split
  · exact ⟨_, updCmd_only h _⟩
  · rw [if_pos (by omega)]
    exact ⟨_, updCmd_only h _⟩

/-- The command runs and waits for its turn on the seam, its pages known. -/
def waiting (c : Cmd) (ps : List Nat) : Cmd := { c with stage := .running, waiting := true, pages := ps, pagesOk := true }

theorem seamCmd_waits (s : State) {c : Cmd} {v n : Nat} (hseam : c.seam? = some (v, n)) (hon : s.volOn v = true)
    (hband : s.deadBand (homeHead v n) = none) (hsealing : c.isWrite = true → (s.seam v n).sealing = false) (hn : c.npages ≤ 2) :
    ∃ ps, (started s c).seamCmd c true = (fresh s).setCmds [waiting c ps] := by
  have hwait : (started s c).updCmd c.pos (fun d => { d with waiting := true }) =
      (fresh s).setCmds [{ c with stage := .running, waiting := true }] :=
    updCmd_only (u := started s c) (d := { c with stage := .running }) rfl _
  obtain ⟨ps, hps⟩ := beginPages_only (u := (fresh s).setCmds [{ c with stage := .running, waiting := true }])
    (d := { c with stage := .running, waiting := true }) rfl hn
  refine ⟨ps, ?_⟩
  unfold State.seamCmd
  rw [hseam]
  dsimp only
  rw [if_neg (by rw [show (started s c).volOn v = true from hon]; decide), if_neg (by decide),
    show (started s c).deadBand (homeHead v n) = none from hband]
  dsimp only
  rw [if_neg, hwait]
  · exact hps
  · rw [Bool.and_eq_true]
    rintro ⟨hwrite, hseal⟩
    rw [show ((started s c).seam v n).sealing = false from hsealing hwrite] at hseal
    cases hseal

/-! ### The command's turn has come -/

section
variable {u : State} {d : Cmd} (hcmds : u.hqi.cmds = [d]) {v n : Nat} (hknown : u.isSet F.WRP_SEAM_KNOWN (seamIdx v n) = true)
include hcmds hknown

theorem advRead_starts (hwritten : lbaBlock d.lba + d.nblk ≤ u.appendPoint v n)
    (haccepted : lbaBlock d.lba + d.nblk ≤ 128 * u.seamA v n) (hpages : d.pagesOk = true) : u.advRead d v n =
      (u.setCmds [{ d.go with lodes := d.readLodes }]).forEach d.readLodes fun t l =>
        t.ask v n (lodeX (physOf (t.skips v n) l)) d.pos := by
  unfold State.advRead
  dsimp only
  rw [if_neg (by rw [hknown]; decide), behind_only hcmds, if_neg (by decide), if_neg (Nat.not_lt.2 hwritten),
    if_neg (by rw [decide_eq_false (Nat.not_lt.2 haccepted), hpages]; decide), updCmd_only hcmds]

theorem advWrite_assigns (hsealed : u.isSet F.WRP_SEAM_SEALED (seamIdx v n) = false)
    (hspares : u.isSet F.WRP_SEAM_EXHAUSTED (seamIdx v n) = false) (hpoint : d.opc = 0x12 → lbaBlock d.lba = u.appendPoint v n)
    (hfit : u.appendPoint v n + d.nblk ≤ seamBlocks) (hroom : u.roomFor v n d.nblk = true) : u.advWrite d v n = u.assignWrite d v n := by
  unfold State.advWrite
  dsimp only
  rw [if_neg (by rw [hknown]; decide), behind_only hcmds, if_neg (by decide), if_neg (by rw [hsealed]; decide),
    if_neg (by rw [hspares]; decide), if_neg (fun h => absurd (hpoint h.1 ▸ h.2) (Nat.lt_irrefl _)),
    if_neg (fun h => absurd (hpoint h.1 ▸ h.2) (Nat.lt_irrefl _)), if_neg (Nat.not_lt.2 hfit), if_neg (by rw [hroom]; decide)]

end

/-- Assigning a write's blocks: the command has its place, and of the volumes only seams change. -/
theorem assignWrite_keeps {u : State} {d : Cmd} (hcmds : u.hqi.cmds = [d]) (v n : Nat) :
    (u.assignWrite d v n).hqi = (u.setCmds [{ d.go with assigned := some (u.appendPoint v n) }]).hqi ∧
      SameShell u (u.assignWrite d v n) := by
  unfold State.assignWrite
  extract_lets ap s1 s2 volume s3
  have hs1 : s1 = u.setCmds [{ d.go with assigned := some ap }] := updCmd_only hcmds _
  have hblocks : s2.hqi = s1.hqi :=
    unmasked (frame_forEach (m := W.putBlock) (fun t k => putBlock_frame t v n (.waiting d.pos k)) s1 (List.range d.nblk)).hqi
      (by decide +kernel)
  have hseal : ∀ t : State, (t.onlyIf (s3.flushAfter d.pos) fun t => t.sealLode v n).hqi = t.hqi ∧
      SameShell t (t.onlyIf (s3.flushAfter d.pos) fun t => t.sealLode v n) := fun t => by
    unfold State.onlyIf
    split
    · exact ⟨unmasked (sealLode_frame ..).hqi (by decide +kernel), shell_sealLode t v n⟩
    · exact ⟨rfl, SameShell.refl t⟩
  refine ⟨?_, ?_⟩
  · rw [unmasked (requestPages_frame ..).hqi (by decide +kernel), (hseal s3).1, ← hs1]
    exact hblocks
  · have hshell1 : SameShell u s1 := hs1 ▸ SameShell.of_vols rfl
    have hshell3 : SameShell s2 s3 := shell_setVol s2 v _ rfl rfl
    exact (((hshell1.trans (shell_forEach s1 fun t k => shell_putBlock t v n _)).trans hshell3).trans
      (hseal s3).2).trans (SameShell.of_vols (unmasked (requestPages_frame ..).vols (by decide +kernel)))

/-- A seam whose append point is not known starts its recovery; the seam's seal and the volume stay. -/
theorem startRecovery_keeps (u : State) (v n pos w m : Nat) :
    ((u.startRecovery v n pos).seam w m).sealing = (u.seam w m).sealing ∧ SameShell u (u.startRecovery v n pos) ∧
      (u.startRecovery v n pos).hqi = u.hqi := by
  unfold State.startRecovery
  split
  · exact ⟨rfl, SameShell.refl u, rfl⟩
  · extract_lets i s1
    have hrecords : Frame (W.putRecords ||| fm [F.WRP_SEAM_LODES, F.WRP_SEAM_EXHAUSTED]) u s1 :=
      Frame.setB (Frame.setF ((putRecords_frame u v n []).mono (by decide +kernel)) (by decide +kernel) ..) (by decide +kernel) ..
    have hvols : s1.vols = u.vols := unmasked hrecords.vols (by decide +kernel)
    refine ⟨?_, ?_, ?_⟩
    · rw [State.seam, vol_of_vols _ (unmasked (ask_frame ..).vols (by decide +kernel)), ← State.seam, seam_updSeam]
      split
      case isTrue h =>
        obtain ⟨rfl, rfl, -⟩ := h
        show (s1.seam v n).sealing = _
        rw [State.seam, vol_of_vols _ hvols, ← State.seam]
      case isFalse => rw [State.seam, vol_of_vols _ hvols, ← State.seam]
    · exact ((SameShell.of_vols hvols).trans (shell_updSeam ..)).trans
        (SameShell.of_vols (unmasked (ask_frame ..).vols (by decide +kernel)))
    · rw [unmasked (ask_frame ..).hqi (by decide +kernel)]
      exact unmasked hrecords.hqi (by decide +kernel)

section
variable {s : State} {c : Cmd} (hheld : s.pwr.held = []) (honly : s.OnlyCommand c)
include hheld honly

/-! ### READ -/

theorem read_next (v n : Nat) (hopc : c.opc = 0x10) (hseam : c.seam? = some (v, n)) (hon : s.volOn v = true) (hlba : c.lba < 2 ^ 29)
    (hfit : lbaBlock c.lba + c.nblk ≤ seamBlocks) (hband : s.deadBand (homeHead v n) = none) (hn : c.npages ≤ 2)
    (hknown : s.isSet F.WRP_SEAM_KNOWN (seamIdx v n) = true) (hwritten : lbaBlock c.lba + c.nblk ≤ s.appendPoint v n)
    (haccepted : lbaBlock c.lba + c.nblk ≤ 128 * s.seamA v n) : ∃ t, exec .read s = .next t ∧ ∃ d, t.hqi.cmds = [d] ∧ d.pos = c.pos ∧
      d.stage = .running ∧ d.media = true ∧ d.lodes = c.readLodes := by
  obtain ⟨ps, hps⟩ := seamCmd_waits s hseam hon hband (fun h => by rw [Cmd.isWrite, hopc] at h; cases h) hn
  let u := (fresh s).setCmds [waiting c ps]
  let d : Cmd := { (waiting c ps).go with lodes := c.readLodes }
  have hgo : u.advCmd (waiting c ps) =
      ((fresh s).setCmds [d]).forEach c.readLodes fun t l => t.ask v n (lodeX (physOf (t.skips v n) l)) c.pos := by
    rw [advCmd_seam (u := u) (d := waiting c ps) (by show c.opc ≠ _; omega) (by show c.opc ≠ _; omega) rfl hseam hband,
      if_pos (show (waiting c ps).opc = 0x10 from hopc)]
    exact advRead_starts (u := u) (d := waiting c ps) rfl hknown hwritten haccepted rfl
  have hasks := frame_forEach (m := W.ask) (fun t l => ask_frame t v n (lodeX (physOf (t.skips v n) l)) c.pos) ((fresh s).setCmds [d])
    c.readLodes
  obtain ⟨t, ht, same⟩ := beginQ_runs honly hheld (ok := fun _ => true) (f := fun u c =>
      u.seamCmd c (decide (c.lba < 2 ^ 29) && decide (lbaBlock c.lba + c.nblk ≤ seamBlocks))) hopc rfl (u := u) (d := waiting c ps)
    (by rw [decide_eq_true hlba, decide_eq_true hfit]; exact hps) rfl rfl rfl
    (by rw [hgo, unmasked hasks.hqi (by decide +kernel)]; rfl)
    (by rw [hgo]; exact SameShell.of_vols (unmasked hasks.vols (by decide +kernel)))
  refine ⟨t, ht, d, ?_, rfl, rfl, rfl, rfl⟩
  rw [same.hqi, hgo, unmasked hasks.hqi (by decide +kernel)]
  rfl

/-! ### APPEND and WRITE AT -/

theorem write_next (v n : Nat)
    (hopc : c.opc = 0x11 ∨ (c.opc = 0x12 ∧ lbaValid c.lba = true ∧ lbaBlock c.lba = s.appendPoint v n)) (hseam : c.seam? = some (v, n))
    (hon : s.volOn v = true) (hband : s.deadBand (homeHead v n) = none) (hsealing : (s.seam v n).sealing = false) (hn : c.npages ≤ 2)
    (hknown : s.isSet F.WRP_SEAM_KNOWN (seamIdx v n) = true) (hsealed : s.isSet F.WRP_SEAM_SEALED (seamIdx v n) = false)
    (hspares : s.isSet F.WRP_SEAM_EXHAUSTED (seamIdx v n) = false) (hfit : s.appendPoint v n + c.nblk ≤ seamBlocks)
    (hroom : s.roomFor v n c.nblk = true) : ∃ t, exec (if c.opc = 0x11 then .append else .writeAt) s = .next t ∧
      ∃ d, t.hqi.cmds = [d] ∧ d.pos = c.pos ∧ d.stage = .running ∧ d.assigned = some (s.appendPoint v n) := by
  obtain ⟨ps, hps⟩ := seamCmd_waits s hseam hon hband (fun _ => hsealing) hn
  let u := (fresh s).setCmds [waiting c ps]
  have hkind : c.opc = 0x11 ∨ c.opc = 0x12 := hopc.imp_right And.left
  have hgo : u.advCmd (waiting c ps) = u.assignWrite (waiting c ps) v n := by
    rw [advCmd_seam (u := u) (d := waiting c ps) (by show c.opc ≠ _; omega) (by show c.opc ≠ _; omega) rfl hseam hband,
      if_neg (by show c.opc ≠ _; omega), if_neg (by show c.opc ≠ _; omega)]
    exact advWrite_assigns (u := u) (d := waiting c ps) rfl hknown hsealed hspares
      (fun h => (hopc.resolve_left (by rw [show c.opc = 0x12 from h]; decide)).2.2) hfit hroom
  obtain ⟨hhqi, hshell⟩ := assignWrite_keeps (u := u) (d := waiting c ps) rfl v n
  have hruns : ∀ (opc : Nat) (ok : Cmd → Bool), c.opc = opc → ok c = true → ∃ t,
      (doneQ s fun t => t.begin opc (fun _ => true) fun u c => u.seamCmd c (ok c)) =
      .next t ∧ Same (u.assignWrite (waiting c ps) v n) t := fun opc ok hop hok => by
    obtain ⟨t, ht, same⟩ := beginQ_runs honly hheld (ok := fun _ => true) (f := fun u c => u.seamCmd c (ok c)) hop rfl (u := u)
      (d := waiting c ps) (by rw [hok]; exact hps) rfl rfl rfl (by rw [hgo, hhqi]; rfl)
      (by rw [hgo]; exact (SameShell.of_vols (a := s) (b := u) rfl).trans hshell)
    exact ⟨t, ht, hgo ▸ same⟩
  have hexec : ∃ t, exec (if c.opc = 0x11 then .append else .writeAt) s = .next t ∧ Same (u.assignWrite (waiting c ps) v n) t := by
    rcases hopc with happend | ⟨hwrite, hvalid, -⟩
    · rw [if_pos happend]
      exact hruns 0x11 (fun _ => true) happend rfl
    · rw [if_neg (by rw [hwrite]; decide)]
      exact hruns 0x12 (fun c => lbaValid c.lba) hwrite hvalid
  obtain ⟨t, ht, same⟩ := hexec
  exact ⟨t, ht, { (waiting c ps).go with assigned := some (s.appendPoint v n) }, by rw [same.hqi, hhqi]; rfl, rfl, rfl, rfl⟩

/-! ### SEAL SEAM -/

/-- The seam of a SEAL SEAM counts as sealed from here on (R314). -/
def sealing (u : State) (c : Cmd) : State :=
  match c.seam? with
  | none => u
  | some (v, n) =>
    if !u.volOn v then u.finish c.pos stNotMounted 0
    else
      match u.deadBand (homeHead v n) with
      | some st => u.finish c.pos st 0
      | none => (u.updCmd c.pos fun d => { d with waiting := true }).updSeam v n fun x => { x with sealing := true }

theorem sealSeam_next (v : Fin 8) (n : Fin 64) (hopc : c.opc = 0x14) (hseam : c.seam? = some (v.val, n.val)) (hon : s.volOn v = true)
    (hband : s.deadBand (homeHead v n) = none) (hunknown : s.isSet F.WRP_SEAM_KNOWN (seamIdx v n) = false) :
    ∃ t, exec .sealSeam s = .next t ∧ (t.seam v n).sealing = true := by
  let d : Cmd := { c with stage := .running, waiting := true }
  let u := ((fresh s).setCmds [d]).updSeam v n fun x => { x with sealing := true }
  have hgo : u.advCmd d = u.startRecovery v n c.pos := by
    rw [advCmd_seam (u := u) (d := d) (by show c.opc ≠ _; omega) (by show c.opc ≠ _; omega) rfl hseam hband,
      if_neg (by show c.opc ≠ _; omega), if_pos (show d.opc = 0x14 from hopc)]
    exact if_pos (by rw [show u.isSet F.WRP_SEAM_KNOWN (seamIdx v n) = false from hunknown]; decide)
  obtain ⟨hsealing, hshell, hhqi⟩ := startRecovery_keeps u v n c.pos v n
  have hbegun : sealing (started s c) c = u := by
    unfold sealing
    rw [hseam]
    dsimp only
    rw [if_neg (by rw [show (started s c).volOn v = true from hon]; decide), show (started s c).deadBand (homeHead v n) = none from hband]
    dsimp only
    rw [updCmd_only (u := started s c) (d := { c with stage := .running }) rfl]
    rfl
  obtain ⟨t, ht, same⟩ := beginQ_runs honly hheld (ok := fun _ => true) (f := sealing) hopc rfl hbegun (d := d) rfl rfl rfl
    (by rw [hgo, hhqi]; rfl) (by
      rw [hgo]
      exact ((SameShell.of_vols (a := s) (b := (fresh s).setCmds [d]) rfl).trans (shell_updSeam _ v n _)).trans hshell)
  refine ⟨t, ht, ?_⟩
  rw [hgo] at same
  rw [State.seam, vol_of_vols _ same.vols, ← State.seam, hsealing, seam_updSeam, if_pos ⟨rfl, rfl, v.isLt, n.isLt⟩]

/-! ### FLUSH -/

/-- Every lode that holds data is sealed. -/
def sealAll (u : State) : State := u.forEach (List.range 8) fun w v => w.forEach (List.range 64) fun x n => x.sealLode v n

omit hheld honly in
theorem sealAll_keeps (u : State) : (sealAll u).hqi = u.hqi ∧ SameShell u (sealAll u) ∧ (sealAll u).contained = u.contained := by
  have hframe : Frame W.sealLode u (sealAll u) :=
    frame_forEach (fun t v => frame_forEach (fun t n => sealLode_frame t v n) t (List.range 64)) u (List.range 8)
  refine ⟨unmasked hframe.hqi (by decide +kernel), shell_forEach u fun t v => shell_forEach t fun t n => shell_sealLode t v n, ?_⟩
  rw [State.contained, hframe.getF (by decide) (by decide +kernel), State.contained]

omit hheld honly in
theorem noOpenData_sealAll (u : State) {v n : Nat} (hv : v < 8) (hn : n < 64) : noOpenData (sealAll u) v n := by
  have hkeep : ∀ (t : State) w, noOpenData t v n → noOpenData (t.forEach (List.range 64) fun x m => x.sealLode w m) v n :=
    fun t w ht => forEach_keeps (P := fun t => noOpenData t v n) (fun t m _ ht => noOpenData_sealLode_other t w m ht) ht
  exact forEach_reaches u (P := fun t => noOpenData t v n) (List.mem_range.2 hv)
    (fun t => forEach_reaches t (P := fun t => noOpenData t v n) (List.mem_range.2 hn) (fun t => noOpenData_sealLode t hv hn)
      fun t m ht => noOpenData_sealLode_other t v m ht) hkeep

theorem flush_next (hopc : c.opc = 0x13) : ∃ t, exec .flush s = .next t ∧
    t.hqi.cmds = [{ c with stage := .done, sct := 0, sc := 0, result := 0 }] ∧
    ∀ (v : Fin 8) (n : Fin 64) o, (t.seam v n).openLode = some o → o.drifts = [] := by
  let d : Cmd := { c with stage := .running }
  obtain ⟨hhqi, hshell, hfree⟩ := sealAll_keeps (started s c)
  have hopen : ∀ (v : Fin 8) (n : Fin 64), noOpenData (sealAll (started s c)) v n := fun v n =>
    noOpenData_sealAll (started s c) v.isLt n.isLt
  obtain ⟨u, hu⟩ : ∃ u, sealAll (started s c) = u := ⟨_, rfl⟩
  rw [hu] at hhqi hshell hfree
  simp only [hu] at hopen
  have hcmds : u.hqi.cmds = [d] := by
    rw [hhqi]
    rfl
  have hgo : u.advCmd d = u.setCmds [{ c with stage := .done, sct := 0, sc := 0, result := 0 }] := by
    unfold State.advCmd
    rw [if_pos (show d.opc = 0x13 from hopc), State.advFlush, if_neg]
    · exact finish_only hcmds (show CmdStage.running ≠ .done by decide) _ _
    · rw [hcmds, List.any_cons, List.any_nil, decide_eq_false (Nat.lt_irrefl _)]
      exact Bool.false_ne_true
  obtain ⟨t, ht, same⟩ := beginQ_runs honly hheld (ok := fun _ => true) (f := fun u _ => sealAll u) hopc rfl hu hcmds rfl hfree
    (by rw [hgo]; show u.hqi.tests = _; rw [hhqi]; rfl)
    (by rw [hgo]; exact ((SameShell.of_vols (a := s) (b := started s c) rfl).trans hshell).trans (SameShell.of_vols rfl))
  rw [hgo] at same
  refine ⟨t, ht, by rw [same.hqi]; rfl, fun v n o ho => ?_⟩
  rw [State.seam, vol_of_vols _ same.vols, ← State.seam] at ho
  exact hopen v n o ho

/-! ### VOLUME RELEASE -/

/-- The lodes of the volume are sealed. -/
def sealVolume (u : State) (v : Nat) : State := u.forEach (List.range 64) fun x n => x.sealLode v n

/-- The release of the volume is noted. -/
def releasing (u : State) (v pos : Nat) : State :=
  (sealVolume u v).setVol v { (sealVolume u v).vol v with release := some pos }

omit hheld honly in
theorem sealVolume_keeps (u : State) (v : Nat) : Frame W.sealLode u (sealVolume u v) ∧ SameShell u (sealVolume u v) ∧
    ∀ m, ((sealVolume u v).seam v m).dirty = (u.seam v m).dirty :=
  ⟨frame_forEach (fun t n => sealLode_frame t v n) u (List.range 64), shell_forEach u fun t n => shell_sealLode t v n, fun m =>
    forEach_keeps (P := fun t => (t.seam v m).dirty = (u.seam v m).dirty) (fun t n _ ht => (dirty_sealLode t v n v m).trans ht) rfl⟩

omit hheld honly in
theorem mount_releasing (u : State) (v pos w : Nat) : ((releasing u v pos).vol w).mount = (u.vol w).mount := by
  rw [← (sealVolume_keeps u v).2.1.mount w, releasing, State.vol, State.setVol, vget_vset]
  split
  case isTrue h => rw [← h.1]
  case isFalse => rfl

omit hheld honly in
/-- The release has come no further than its deck: neither the volume's release nor a mount changes. -/
theorem advRelease_keeps {u : State} {d : Cmd} (hcmds : u.hqi.cmds = [d]) (hready : u.deck d.vol = dkREADY)
    (hclean : ∀ n < 64, (u.seam d.vol n).dirty = false) : SameShell u (u.advRelease d) ∧ (u.advRelease d).hqi = u.hqi := by
  have hnone : ((List.range 64).filter fun n => (u.seam d.vol n).dirty && !u.isSet F.WRP_SEAM_SEALED (seamIdx d.vol n) &&
      !(u.seam d.vol n).trailerQueued) = [] := List.filter_eq_nil_iff.2 fun n hn => by
    rw [hclean n (List.mem_range.1 hn)]
    exact Bool.false_ne_true
  have hearlier : (u.hqi.cmds.any fun e => decide (e.pos < d.pos) && e.stage != .done && e.vol == d.vol && e.seam?.isSome) = false := by
    rw [hcmds, List.any_cons, List.any_nil, decide_eq_false (Nat.lt_irrefl _)]
    rfl
  unfold State.advRelease
  dsimp only
  rw [hearlier, hnone, if_neg (by decide), if_neg (by decide)]
  split
  · exact ⟨SameShell.refl u, rfl⟩
  · split
    · split
      · have hbrake : ∀ b, (u.onlyIf b fun t => t.brakeDeck d.vol).vols = u.vols ∧ (u.onlyIf b fun t => t.brakeDeck d.vol).hqi = u.hqi :=
          fun b => by
            unfold State.onlyIf
            split
            · exact ⟨unmasked (brakeDeck_frame ..).vols (by decide +kernel), unmasked (brakeDeck_frame ..).hqi (by decide +kernel)⟩
            · exact ⟨rfl, rfl⟩
        obtain ⟨hvols, hhqi⟩ := hbrake (u.turning d.vol)
        exact ⟨(SameShell.of_vols hvols).trans (shell_setVol _ _ _ (by rw [vol_of_vols _ hvols]) (by rw [vol_of_vols _ hvols])), hhqi⟩
      · exact ⟨SameShell.of_vols (unmasked (parkHeads_frame ..).vols (by decide +kernel)),
          unmasked (parkHeads_frame ..).hqi (by decide +kernel)⟩
    · rw [if_neg (by rw [hready]; decide)]
      exact ⟨SameShell.refl u, rfl⟩

theorem volumeRelease_next (hopc : c.opc = 0x0B) (hvol : c.vol < 8) (hon : s.volOn c.vol = true) (hready : s.deck c.vol = dkREADY)
    (hclean : ∀ n < 64, (s.seam c.vol n).dirty = false) :
    ∃ t, exec .volumeRelease s = .next t ∧ (t.vol c.vol).release = some c.pos := by
  let w := sealVolume (started s c) c.vol
  let u := releasing (started s c) c.vol c.pos
  let d : Cmd := { c with stage := .running }
  obtain ⟨hframe, hshell, hdirty⟩ := sealVolume_keeps (started s c) c.vol
  have hhqi : w.hqi = (started s c).hqi := unmasked hframe.hqi (by decide +kernel)
  have hcmds : u.hqi.cmds = [d] := by
    show w.hqi.cmds = _
    rw [hhqi]
    rfl
  have hdeck : u.deck c.vol = dkREADY := by
    show w.getF F.WND_STATUS_STATE c.vol = _
    rw [hframe.getF (by decide) (by decide +kernel)]
    exact hready
  have hseams : ∀ n < 64, (u.seam c.vol n).dirty = false := fun n hn => by
    rw [State.seam, show u.vol c.vol = _ from vol_setVol_same _ _ hvol]
    exact (hdirty n).trans (hclean n hn)
  have hgo : u.advCmd d = u.advRelease d := by
    unfold State.advCmd
    rw [if_neg (by show c.opc ≠ _; omega), if_pos (show d.opc = 0x0B from hopc)]
  obtain ⟨hafter, hhqi2⟩ := advRelease_keeps hcmds hdeck hseams
  have hbegun : ∀ t, (if !(started s c).volOn c.vol then t else u) = u := fun t =>
    if_neg (by rw [show (started s c).volOn c.vol = true from hon]; decide)
  obtain ⟨t, ht, same⟩ := beginQ_next honly hheld (ok := fun _ => true) hopc rfl (f := fun u c =>
    if !u.volOn c.vol then u.finish c.pos stNotMounted 0 else releasing u c.vol c.pos)
  have hfree : u.contained = false := by
    show (w.getF F.HIF_CONTAIN_STATE 0 != 0) = false
    rw [hframe.getF (by decide) (by decide +kernel)]
    exact contained_started honly
  obtain ⟨-, -, -, -, hnone, hmounts⟩ := honly
  have hmount : ∀ v, (u.vol v).mount = (s.vol v).mount := fun v => (mount_releasing (started s c) c.vol c.pos v)
  rw [hbegun, advance_only hcmds rfl hfree (fun v hv => by
      rw [hgo, State.test, hhqi2]
      show (vget w.hqi.tests _ _).running = _
      rw [hhqi]
      exact hnone v hv) (by
      rw [hgo]
      exact hafter.mountsWait fun v hv m hm => hmounts v hv m ((hmount v).symm.trans hm)), hgo] at same
  refine ⟨t, ht, ?_⟩
  rw [vol_of_vols _ same.vols, hafter.release, show u.vol c.vol = _ from vol_setVol_same _ _ hvol]

end

end Sys2Proof.Proofs
end

section
/-!
PROOFS. Host commands on the device and on volumes (R309 to R312, R319, R320): IDENTIFY, GET LOG, features, self-tests, VOLUME MOUNT.
-/
set_option Elab.async false

namespace Sys2Proof.Laws

open Sys2Proof.Machine Sys2Proof.Proofs

/-! ### The engine with settled commands while tests run -/

/-- Which tests run, and which of them are to stop, is as before. -/
structure SameTests (a b : State) : Prop where
  running : ∀ v, (b.test v).running = (a.test v).running
  stopping : ∀ v, (b.test v).stopping = (a.test v).stopping

theorem SameTests.refl (a : State) : SameTests a a := ⟨fun _ => rfl, fun _ => rfl⟩

theorem SameTests.trans {a b c : State} (h : SameTests a b) (k : SameTests b c) : SameTests a c :=
  ⟨fun v => (k.running v).trans (h.running v), fun v => (k.stopping v).trans (h.stopping v)⟩

theorem SameTests.of_hqi {a b : State} (h : b.hqi = a.hqi) : SameTests a b :=
  ⟨fun v => by rw [test_of_hqi _ h], fun v => by rw [test_of_hqi _ h]⟩

section
variable (s : State)

theorem tests_setTest (v : Nat) (x : SelfTest) (hrunning : x.running = (s.test v).running) (hstopping : x.stopping = (s.test v).stopping) :
    SameTests s (s.setTest v x) := by
  constructor <;> intro w <;> rw [State.test, State.setTest, vget_vset] <;> split
  case running.isTrue h => rw [hrunning, h.1]
  case stopping.isTrue h => rw [hstopping, h.1]
  all_goals rfl

/-- A test step that starts changes nothing of the tests but what is left of them. -/
theorem tests_startStep (v pos : Nat) (p : TestStep) (rest : List TestStep) : SameTests s (s.startStep v pos (s.test v) p rest) := by
  have hleft : ∀ x : SelfTest, x.running = (s.test v).running → x.stopping = (s.test v).stopping → SameTests s (s.setTest v x) :=
    tests_setTest s v
  unfold State.startStep
  cases p with
  | acquire h layer =>
    dsimp only
    split
    · exact hleft _ rfl rfl
    · split
      · exact (hleft { s.test v with left := rest, now := some (.acquire h layer) } rfl rfl).trans
          (SameTests.of_hqi (unmasked (issue_frame (s.setTest v _) h _).hqi (by decide +kernel)))
      · exact SameTests.refl s
  | lode n l =>
    dsimp only
    split
    · exact hleft _ rfl rfl
    · split
      · split
        case h_1 u hu =>
          have hhqi : u.hqi = s.hqi := unmasked (tryRead_frame hu).hqi (by decide +kernel)
          have htest := test_of_hqi s hhqi v
          exact (SameTests.of_hqi hhqi).trans (tests_setTest u v _ (by rw [htest]) (by rw [htest]))
        case h_2 => exact SameTests.refl s
      · exact SameTests.refl s

theorem tests_advTest (v : Nat) : SameTests s (s.advTest v) := by
  unfold State.advTest
  dsimp only
  split
  · exact SameTests.refl s
  · split
    · exact tests_setTest s v _ rfl rfl
    · exact SameTests.refl s
  · split
    · exact SameTests.refl s
    · split
      · exact SameTests.refl s
      · exact tests_startStep s v _ _ _

variable {s}

/-- With settled commands and waiting mounts the engine moves tests on, without starting or stopping one. -/
theorem advance_tests (hsettled : ∀ c ∈ s.hqi.cmds, c.settled) (hmounts : s.MountsWait) : SameTests s s.advance := by
  unfold State.advance
  split
  · exact SameTests.refl s
  · dsimp only
    rw [forEach_eq_self (s := s) fun pos _ => ?_]
    · refine (forEach_keeps (P := fun t => t.vols = s.vols ∧ SameTests s t) (fun t v hv ht => ?_) ⟨rfl, SameTests.refl s⟩).2
      obtain ⟨hvols, htests⟩ := ht
      rw [advMount_of_waiting t fun m hm => hmounts v (List.mem_range.1 hv) m (by rw [← vol_of_vols s hvols v]; exact hm)]
      exact ⟨(unmasked (advTest_frame ..).vols (by decide +kernel)).trans hvols, htests.trans (tests_advTest t v)⟩
    · split
      case h_1 c hfound =>
        split
        case isTrue hrun => exact advCmd_of_settled s (hsettled c (List.mem_of_find?_eq_some hfound)) hrun
        case isFalse => rfl
      case h_2 => rfl

end

end Sys2Proof.Laws

namespace Sys2Proof.Proofs

open Sys2Proof.Machine Sys2Proof.Laws

/-- A mount that may start its deck starts it. -/
theorem mountStep_starts {s : State} {v : Nat} {m : MountS} (hrelease : (s.vol v).release = none) (hdeck : s.deck v = dkLOADED)
    (hstart : m.start = true) (hmay : s.mayStart v = true) : s.mountStep v m = s.startDeck v := by
  unfold State.mountStep
  dsimp only
  rw [hdeck, hrelease, if_neg (by decide), if_pos (by decide), hstart, if_neg (by decide)]
  exact if_pos hmay

/-- The page of a command with one page is its first pointer. -/
theorem beginPages_one {u : State} {d : Cmd} (h : u.hqi.cmds = [d]) (hn : d.npages = 1) :
    u.beginPages d.pos = u.setCmds [{ d with pages := [d.dptr1], pagesOk := true }] := by
  unfold State.beginPages
  rw [cmd?_only h]
  dsimp only
  rw [hn, if_pos (by decide)]
  exact updCmd_only h _

section
variable {s : State} {c : Cmd} (honly : s.OnlyCommand c)
include honly

/-- The row of the one command, for a kind that the engine does not go on with. -/
theorem begin_next (hheld : s.pwr.held = []) {opc : Nat} {f : State → Cmd → State} (hopc : c.opc = opc) {u : State}
    (hu : f (started s c) c = u) : ∃ t, (done s fun t => t.begin opc (fun _ => true) f) = .next t ∧ Same u t := by
  obtain ⟨t, ht, same⟩ := done_next hheld fun t => t.begin opc (fun _ => true) f
  rw [begin_only honly hopc rfl, hu] at same
  exact ⟨t, ht, same⟩

end

section
variable {s : State} {c : Cmd} (hheld : s.pwr.held = []) (honly : s.OnlyCommand c)
include hheld honly

/-! ### IDENTIFY, GET LOG -/

theorem identify_next (hopc : c.opc = 0x01) (hcns : c.csf.getD 0 0 = 0) : ∃ t, exec .identify s = .next t ∧
    t.hqi.cmds = [{ c with stage := .done, sct := 0, sc := 0, result := 0 }] ∧ .hostWrite c.dptr1 s.devicePage (s.relaxed c.q) ∈ t.out := by
  let bs := if c.csf.getD 0 0 = 0 then s.devicePage else s.volumePage c.vol
  have hbs : bs = s.devicePage := if_pos hcns
  obtain ⟨t, ht, same⟩ := begin_next honly hheld hopc (f := fun u c =>
      (u.emit (.hostWrite c.dptr1 (if c.csf.getD 0 0 = 0 then u.devicePage else u.volumePage c.vol)
        (u.relaxed c.q))).finish c.pos stSuccess 0)
    (finish_only (u := (started s c).emit (.hostWrite c.dptr1 bs (s.relaxed c.q))) (d := { c with stage := .running }) rfl
      (show CmdStage.running ≠ .done by decide) stSuccess 0)
  rw [hbs] at same
  exact ⟨t, ht, by rw [same.hqi]; rfl, same.emitted (List.mem_append_right _ List.mem_cons_self)⟩

/-- A GET LOG whose page list is complete has its pages written, otherwise it waits for the list. -/
def logBegins (u : State) (c : Cmd) : State :=
  match (u.beginPages c.pos).cmd? c.pos with
  | some d => if d.pagesOk then (u.beginPages c.pos).sendLog d else u.beginPages c.pos
  | none => u.beginPages c.pos

theorem getLog_next (hopc : c.opc = 0x02) (hone : c.nblk = 1) : ∃ t, exec .getLog s = .next t ∧
    .hostWrite c.dptr1 (page ((s.logPage (c.csf.getD 0 0) c.vol).drop (4096 * c.csfNum 4 4))) (s.relaxed c.q) ∈ t.out := by
  let d : Cmd := { c with stage := .running, pages := [c.dptr1], pagesOk := true }
  have hpages : (started s c).beginPages c.pos = (fresh s).setCmds [d] :=
    beginPages_one (u := started s c) (d := { c with stage := .running }) rfl (by
      unfold Cmd.npages
      dsimp only
      rw [hopc, hone]
      rfl)
  have hsends : ((fresh s).setCmds [d]).sendPages d (s.logPage (c.csf.getD 0 0) c.vol) (c.csfNum 4 4) =
      ((fresh s).setCmds [d]).emit
        (.hostWrite c.dptr1 (page ((s.logPage (c.csf.getD 0 0) c.vol).drop (4096 * c.csfNum 4 4))) (s.relaxed c.q)) := by
    unfold State.sendPages
    rw [show d.nblk = 1 from hone]
    rfl
  have hbegun : logBegins (started s c) c = (((fresh s).setCmds [d]).emit
      (.hostWrite c.dptr1 (page ((s.logPage (c.csf.getD 0 0) c.vol).drop (4096 * c.csfNum 4 4))) (s.relaxed c.q))).finish c.pos stSuccess
        (s.logPage (c.csf.getD 0 0) c.vol).length := by
    unfold logBegins
    rw [hpages, show ((fresh s).setCmds [d]).cmd? c.pos = some d from cmd?_only (d := d) rfl]
    dsimp only
    rw [if_pos rfl, ← hsends]
    rfl
  obtain ⟨t, ht, same⟩ := begin_next honly hheld hopc (f := logBegins) hbegun
  exact ⟨t, ht, same.emitted (List.mem_append_right _ List.mem_cons_self)⟩

/-! ### Features -/

theorem setFeature_next (val : Nat) (hopc : c.opc = 0x03) (hfid : c.csf.getD 0 0 = 1) (hval : c.csfNum 4 8 = val) (hlow : 1 ≤ val)
    (hhigh : val ≤ 2000) : ∃ t, exec .setFeature s = .next t ∧ t.getF F.WRP_LINGER_MS 0 = val ∧
      t.hqi.cmds = [{ c with stage := .done, sct := 0, sc := 0, result := s.getF F.WRP_LINGER_MS 0 }] := by
  have hends : (if (started s c).featureOk (c.csf.getD 0 0) c.vol (c.csfNum 4 8) then
      ((started s c).putFeature (c.csf.getD 0 0) c.vol (c.csfNum 4 8)).finish c.pos stSuccess ((started s c).feature (c.csf.getD 0 0) c.vol)
      else (started s c).finish c.pos stInvalidField 0) = ((started s c).setF F.WRP_LINGER_MS 0 val).setCmds
        [{ c with stage := .done, sct := 0, sc := 0, result := s.getF F.WRP_LINGER_MS 0 }] := by
    rw [hfid, hval, if_pos (show (started s c).featureOk 1 c.vol val = true from decide_eq_true ⟨hlow, hhigh⟩)]
    exact finish_only (u := (started s c).setF F.WRP_LINGER_MS 0 val) (d := { c with stage := .running }) rfl
      (show CmdStage.running ≠ .done by decide) stSuccess _
  obtain ⟨t, ht, same⟩ := begin_next honly hheld hopc (f := fun u c =>
    if u.featureOk (c.csf.getD 0 0) c.vol (c.csfNum 4 8) then
      (u.putFeature (c.csf.getD 0 0) c.vol (c.csfNum 4 8)).finish c.pos stSuccess (u.feature (c.csf.getD 0 0) c.vol)
    else u.finish c.pos stInvalidField 0) hends
  refine ⟨t, ht, ?_, by rw [same.hqi]; rfl⟩
  rw [same.getF]
  exact (getF_setF (started s c) F.WRP_LINGER_MS 0 val).trans (Nat.mod_eq_of_lt (show val < 2 ^ 11 by omega))

theorem getFeature_next (hopc : c.opc = 0x04) : ∃ t, exec .getFeature s = .next t ∧
    t.hqi.cmds = [{ c with stage := .done, sct := 0, sc := 0, result := s.feature (c.csf.getD 0 0) c.vol }] := by
  obtain ⟨t, ht, same⟩ := begin_next honly hheld hopc (f := fun u c => u.finish c.pos stSuccess (u.feature (c.csf.getD 0 0) c.vol))
    (finish_started honly stSuccess _)
  exact ⟨t, ht, by rw [same.hqi]; rfl⟩

/-! ### Self-tests -/

/-- A test that may start runs from here on. -/
theorem startTest_runs (hopc : c.opc = 0x06) (hvol : c.vol < 8) (hon : s.volOn c.vol = true) {code : Nat} (hcode : c.csf.getD 0 0 = code)
    (steps : State → Cmd → List TestStep) :
    ∃ t, (doneQ s fun t => t.begin 0x06 (fun c => c.csf.getD 0 0 = code) fun u c => u.startTest c (steps u c)) = .next t ∧
      (t.test c.vol).running = some c.pos := by
  let x : SelfTest := { running := some c.pos, code := c.csf.getD 0 0, left := steps (started s c) c }
  have hstart : (started s c).startTest c (steps (started s c) c) = (started s c).setTest c.vol x := by
    have hidle : ((started s c).test c.vol).running = none := started_tests honly c.vol hvol
    unfold State.startTest
    rw [if_neg (by rw [show (started s c).volOn c.vol = true from hon]; decide), if_neg (by rw [hidle]; decide)]
  obtain ⟨t, ht, same⟩ := beginQ_next honly hheld (ok := fun c => c.csf.getD 0 0 = code) (f := fun u c => u.startTest c (steps u c)) hopc
    (decide_eq_true hcode)
  have hsettled : ∀ e ∈ ((started s c).setTest c.vol x).hqi.cmds, e.settled := fun e he => by
    rw [List.mem_singleton.1 (show e ∈ [{ c with stage := .running }] from he)]
    exact settled_of_seamless (seam?_of_opc (by show c.opc < 16; omega)) (by show c.opc ≠ _; omega) (by show c.opc ≠ _; omega)
  rw [hstart] at same
  refine ⟨t, ht, ?_⟩
  rw [test_of_hqi _ same.hqi, (advance_tests hsettled (started_mounts honly)).running, test_setTest_same _ _ hvol]

theorem selfTest_next (hopc : c.opc = 0x06) (hvol : c.vol < 8) (hon : s.volOn c.vol = true)
    (hcode : c.csf.getD 0 0 = 1 ∨ c.csf.getD 0 0 = 2) :
    ∃ t, exec (if c.csf.getD 0 0 = 1 then .selfTestShort else .selfTestExtended) s = .next t ∧ (t.test c.vol).running = some c.pos := by
  rcases hcode with hshort | hext
  · rw [if_pos hshort]
    exact startTest_runs hheld honly hopc hvol hon hshort fun u c => u.shortSteps c.vol
  · rw [if_neg (by omega)]
    exact startTest_runs hheld honly hopc hvol hon hext fun u c => u.extendedSteps c.vol

/-! ### VOLUME MOUNT -/

/-- The volume's mount begins, joins the one under way, or finds it mounted. -/
def mountBegins (u : State) (c : Cmd) : State :=
  let x := u.vol c.vol
  match x.mount with
  | some m => u.setVol c.vol { x with mount := some { m with also := m.also ++ [c.pos] } }
  | none =>
    if u.volOn c.vol then u.finish c.pos stSuccess 0
    else
      let m : MountS := { pos := c.pos, start := c.csf.getD 0 0 = 1, waiting := true, probe := 0 }
      (u.setVol c.vol { x with mount := some m }).mountStep c.vol m

theorem volumeMount_next (hopc : c.opc = 0x0A) (hvol : c.vol < 8) (hmount : (s.vol c.vol).mount = none)
    (hrelease : (s.vol c.vol).release = none) (hoff : s.volOn c.vol = false) (hstart : c.csf.getD 0 0 = 1) (hdeck : s.deck c.vol = dkLOADED)
    (hmay : s.mayStart c.vol = true) :
    ∃ t, exec .volumeMount s = .next t ∧ t.deck c.vol = dkSPINUP ∧ (t.vol c.vol).mount.isSome = true := by
  let m : MountS := { pos := c.pos, start := c.csf.getD 0 0 = 1, waiting := true, probe := 0 }
  let w := (started s c).setVol c.vol { s.vol c.vol with mount := some m }
  have hvolW : w.vol c.vol = { s.vol c.vol with mount := some m } := vol_setVol_same _ _ hvol
  have hbegun : mountBegins (started s c) c = w.startDeck c.vol := by
    unfold mountBegins
    dsimp only
    rw [show ((started s c).vol c.vol).mount = none from hmount]
    dsimp only
    rw [if_neg (by rw [show (started s c).volOn c.vol = false from hoff]; decide)]
    exact mountStep_starts (s := w) (m := m) (by rw [hvolW]; exact hrelease) hdeck (decide_eq_true hstart) hmay
  have hquiet : w.HostQuiet := by
    refine hostQuiet_only (d := { c with stage := .running }) rfl
      (settled_of_seamless (seam?_of_opc (by show c.opc < 16; omega)) (by show c.opc ≠ _; omega) (by show c.opc ≠ _; omega))
      (started_tests honly) fun v hv m' hm' => ?_
    by_cases hne : c.vol = v
    · rw [← hne, hvolW] at hm'
      rw [← Option.some.inj hm']
    · exact started_mounts honly v hv m' (vol_setVol_other (started s c) _ hne ▸ hm')
  obtain ⟨t, ht, same⟩ := beginQ_quiet honly hheld (ok := fun _ => true) (f := mountBegins) hopc rfl (by
    rw [hbegun]
    exact Frame.hostQuiet (startDeck_frame ..) (by decide +kernel) (by decide +kernel) hquiet)
  rw [hbegun] at same
  refine ⟨t, ht, ?_, ?_⟩
  · rw [State.deck, same.getF]
    exact deck_startDeck w c.vol
  · rw [vol_of_vols _ (same.vols.trans (unmasked (startDeck_frame ..).vols (by decide +kernel))), hvolW]
    rfl

end

/-- Settles O26: one lemma per command, above. -/
theorem hostCommandRows : Obligations.HostCommandRows := fun _ _ hheld honly =>
  ⟨read_next hheld honly, write_next hheld honly, flush_next hheld honly, sealSeam_next hheld honly, identify_next hheld honly,
    getLog_next hheld honly, setFeature_next hheld honly, getFeature_next hheld honly, selfTest_next hheld honly,
    volumeMount_next hheld honly, volumeRelease_next hheld honly⟩

end Sys2Proof.Proofs
end

section
/-!
PROOFS. ABORT and the stop of a self-test (R318, R320): a second command begins while a first one runs.
-/
set_option Elab.async false

namespace Sys2Proof.Laws

open Sys2Proof.Machine Sys2Proof.Proofs

/-! ### Two commands in the engine -/

section
variable {u : State} {d e : Cmd} (h : u.hqi.cmds = [d, e]) (hne : e.pos ≠ d.pos)
include h hne

theorem updCmd_first (f : Cmd → Cmd) : u.updCmd d.pos f = u.setCmds [f d, e] := by
  unfold State.updCmd
  rw [h, List.map_cons, List.map_cons, List.map_nil, if_pos rfl, if_neg hne]

theorem updCmd_second (f : Cmd → Cmd) : u.updCmd e.pos f = u.setCmds [d, f e] := by
  unfold State.updCmd
  rw [h, List.map_cons, List.map_cons, List.map_nil, if_neg hne.symm, if_pos rfl]

theorem finish_first (hd : d.stage ≠ .done) (st : Status) (res : Nat) :
    u.finish d.pos st res = u.setCmds [{ d with stage := .done, sct := st.1, sc := st.2, result := res }, e] := by
  rw [State.finish, updCmd_first h hne, Cmd.finish, if_neg hd]

theorem finish_second (he : e.stage ≠ .done) (st : Status) (res : Nat) :
    u.finish e.pos st res = u.setCmds [d, { e with stage := .done, sct := st.1, sc := st.2, result := res }] := by
  rw [State.finish, updCmd_second h hne, Cmd.finish, if_neg he]

end

theorem settled_pair {u : State} {d e : Cmd} (h : u.hqi.cmds = [d, e]) (hd : d.settled) (he : e.settled) :
    ∀ x ∈ u.hqi.cmds, x.settled := fun x hx => by
  rw [h, List.mem_cons, List.mem_singleton] at hx
  rcases hx with rfl | rfl
  · exact hd
  · exact he

/-- The state in which the second command has begun while the first one runs. -/
def begun (s : State) (d c : Cmd) : State := (fresh s).setCmds [d, { c with stage := .running }]

end Sys2Proof.Laws

namespace Sys2Proof.Proofs

open Sys2Proof.Machine Sys2Proof.Laws

section
variable {s : State} {c d : Cmd} (hcmds : s.hqi.cmds = [d, c]) (htaken : c.stage = .taken) (hne : c.pos ≠ d.pos) (hreqs : s.hif.reqs = [])
  (hmay : s.mayIssue 0 = true) (hrun : d.stage = .running)
include hcmds htaken hne hreqs hmay hrun

theorem begin_second {opc : Nat} {ok : Cmd → Bool} {f : State → Cmd → State} (hopc : c.opc = opc) (hok : ok c = true) :
    (fresh s).begin opc ok f = f (begun s d c) c := by
  have hfind : [d, c].find? (fun c => decide (c.stage = .taken)) = some c := by
    rw [List.find?_cons_of_neg (by rw [hrun]; decide)]
    exact List.find?_cons_of_pos (decide_eq_true htaken)
  have hnext : (fresh s).nextTaken = some c := by
    unfold State.nextTaken
    rw [fresh_hqi, hcmds, hfind]
    dsimp only
    rw [fresh_hif, hreqs]
    rfl
  unfold State.begin
  rw [hnext]
  dsimp only
  rw [if_pos (by rw [decide_eq_true hopc, hok, show (fresh s).mayIssue 0 = true from hmay]; rfl)]
  exact congrArg (f · c) (updCmd_second (u := fresh s) hcmds hne _)

variable (hheld : s.pwr.held = [])
include hheld

/-! ### ABORT -/

/-- The command an ABORT names ends, and then the ABORT itself. -/
def aborts (u : State) (c : Cmd) : State :=
  match u.hqi.cmds.find? fun d => d.q = c.csfNum 0 2 && d.cid = c.csfNum 2 2 && d.pos != c.pos with
  | none => u.finish c.pos stSuccess 2
  | some d => (u.abortCmd d).1.finish c.pos stSuccess (u.abortCmd d).2

theorem abort_next (hopc : c.opc = 0x05) (hq : d.q = c.csfNum 0 2) (hcid : d.cid = c.csfNum 2 2) (hread : d.opc = 0x10)
    (htests : ∀ v < 8, (s.test v).running = none) (hmounts : s.MountsWait) : ∃ t, exec .abort s = .next t ∧
      t.hqi.cmds = [{ d with stage := .done, sct := 0, sc := 5, result := 0 },
        { c with stage := .done, sct := 0, sc := 0, result := 0 }] := by
  let d' : Cmd := { d with stage := .done, sct := 0, sc := 5, result := 0 }
  let c' : Cmd := { c with stage := .done, sct := 0, sc := 0, result := 0 }
  let w := (fresh s).setCmds [d', { c with stage := .running }]
  have habort : (begun s d c).abortCmd d = (w.abortReads d, 0) := by
    unfold State.abortCmd
    rw [hrun]
    dsimp only
    rw [if_pos hread, finish_first (u := begun s d c) (e := { c with stage := .running }) rfl hne (by rw [hrun]; decide)]
    rfl
  have hfound : (begun s d c).hqi.cmds.find? (fun d => d.q = c.csfNum 0 2 && d.cid = c.csfNum 2 2 && d.pos != c.pos) = some d :=
    List.find?_cons_of_pos (by rw [decide_eq_true hq, decide_eq_true hcid, bne_iff_ne.2 hne.symm]; rfl)
  have hhqi : (w.abortReads d).hqi = w.hqi := unmasked (abortReads_frame ..).hqi (by decide +kernel)
  have hends : aborts (begun s d c) c = (w.abortReads d).setCmds [d', c'] := by
    unfold aborts
    rw [hfound]
    dsimp only
    rw [habort]
    exact finish_second (d := d') (e := { c with stage := .running }) (by rw [hhqi]; rfl) hne (show CmdStage.running ≠ .done by decide) _ _
  have hquiet : ((w.abortReads d).setCmds [d', c']).HostQuiet := by
    refine ⟨settled_pair rfl (settled_of_done rfl) (settled_of_done rfl), fun v hv => ?_, fun v hv m hm => ?_⟩
    · show (vget (w.abortReads d).hqi.tests {} v).running = none
      rw [hhqi]
      exact htests v hv
    · rw [State.vol, show ((w.abortReads d).setCmds [d', c']).vols = w.vols from
        unmasked (abortReads_frame ..).vols (by decide +kernel)] at hm
      exact hmounts v hv m hm
  obtain ⟨t, ht, same⟩ := doneQ_next hheld fun t => t.begin 0x05 (fun _ => true) aborts
  rw [begin_second hcmds htaken hne hreqs hmay hrun hopc rfl, hends, advance_of_quiet hquiet] at same
  exact ⟨t, ht, by rw [same.hqi]; rfl⟩

/-! ### SELF TEST with code 15 -/

theorem selfTestStop_next (hopc : c.opc = 0x06) (htest : d.opc = 0x06) (hcode : c.csf.getD 0 0 = 15) (hvol : c.vol < 8)
    (hon : s.volOn c.vol = true) (hmounts : s.MountsWait) :
    ∃ t, exec .selfTestStop s = .next t ∧ (t.test c.vol).stopping = true := by
  let c' : Cmd := { c with stage := .done, sct := 0, sc := 0, result := 0 }
  let w := (begun s d c).setTest c.vol { s.test c.vol with stopping := true }
  have hends : (if !(begun s d c).volOn c.vol then (begun s d c).finish c.pos stNotMounted 0
      else ((begun s d c).setTest c.vol { (begun s d c).test c.vol with stopping := true }).finish c.pos stSuccess 0) =
      w.setCmds [d, c'] := by
    rw [if_neg (by rw [show (begun s d c).volOn c.vol = true from hon]; decide)]
    exact finish_second (u := w) (e := { c with stage := .running }) rfl hne (show CmdStage.running ≠ .done by decide) _ _
  have hsettled : ∀ x ∈ (w.setCmds [d, c']).hqi.cmds, x.settled := settled_pair rfl
    (settled_of_seamless (seam?_of_opc (by omega)) (by omega) (by omega)) (settled_of_done rfl)
  obtain ⟨t, ht, same⟩ := doneQ_next hheld fun t => t.begin 0x06 (fun c => c.csf.getD 0 0 = 15) fun u c =>
    if !u.volOn c.vol then u.finish c.pos stNotMounted 0
    else (u.setTest c.vol { u.test c.vol with stopping := true }).finish c.pos stSuccess 0
  rw [begin_second hcmds htaken hne hreqs hmay hrun hopc (decide_eq_true hcode), hends] at same
  refine ⟨t, ht, ?_⟩
  rw [test_of_hqi _ same.hqi, (advance_tests hsettled hmounts).stopping]
  exact congrArg SelfTest.stopping (test_setTest_same (begun s d c) { s.test c.vol with stopping := true } hvol)

end

/-- Settles O27: one lemma per command, above. -/
theorem abortAndStopRows : Obligations.AbortAndStopRows := fun _ _ _ hheld hcmds htaken hne hreqs hmay =>
  ⟨fun hopc hq hcid hrun hread htests hmounts => abort_next hcmds htaken hne hreqs hmay hrun hheld hopc hq hcid hread htests hmounts,
    fun hopc htest hrun hcode hvol hon hmounts =>
      selfTestStop_next hcmds htaken hne hreqs hmay hrun hheld hopc htest hcode hvol hon hmounts⟩

end Sys2Proof.Proofs
end
